-- ==== Sys2Proof/Word.lean ====
section
/-! DEFINITION. The word types of the Olora parts and their plainest arithmetic: register words, raw counts,
status codes, Olora time as it stands in registers and records (R26, R27), and the sparse keyed map the state uses. -/

namespace Sys2Proof

/-- A register word. -/
abbrev Word := BitVec 32
/-- A byte of a slot, a record or memory. -/
abbrev Byte := BitVec 8
/-- A raw count in grains (R28): 64 bits, unsigned, compared by signed difference (R38, R39). -/
abbrev Raw := BitVec 64
/-- A 16-bit status code (R10, R402). -/
abbrev Code := BitVec 16

/-- Data held under numeric keys, at most one value a key; keys strictly rising (Machine/FMap.lean keeps it so). -/
abbrev FMap (α : Type) := List (Nat × α)

/-- The two parts of the fabric (R1). -/
inductive Part where
  | baxel | kresia
  deriving DecidableEq, Repr

/-- An Olora time (R26): seconds (48 bits), nanoseconds (32-bit field) and grains (16 bits). -/
structure OT where
  sec : BitVec 48
  ns : BitVec 32
  gr : BitVec 16
  deriving DecidableEq, Repr

/-- OT zero, the epoch. -/
def OT.zero : OT := ⟨0, 0, 0⟩

/-- R27: an OT whose NS field exceeds 999,999,999 is malformed. -/
def OT.malformed (x : OT) : Bool := 999999999 < x.ns.toNat

/-- R27: words 0 to 2 of an OT, as registers and records hold it. -/
def OT.word0 (x : OT) : Word := (x.ns.extractLsb' 0 16 ++ x.gr)
def OT.word1 (x : OT) : Word := (x.sec.extractLsb' 0 16 ++ x.ns.extractLsb' 16 16)
def OT.word2 (x : OT) : Word := x.sec.extractLsb' 16 32

/-- R27: the OT three words spell. -/
def OT.ofWords (w0 w1 w2 : Word) : OT :=
  ⟨w2 ++ w1.extractLsb' 16 16, w1.extractLsb' 0 16 ++ w0.extractLsb' 16 16, w0.extractLsb' 0 16⟩

/-- The four time states, coded as `BX_FT_STATUS` codes them (R41). -/
inductive TimeState where
  | unset | acquiring | locked | holdover
  deriving DecidableEq, Repr

/-- R41: the 3-bit code of a time state. -/
def TimeState.code : TimeState → Nat
  | .unset => 0
  | .acquiring => 1
  | .locked => 2
  | .holdover => 3

/-- The signed reading of a raw difference (R30, R38). -/
def Raw.diff (a b : Raw) : Int := (a - b).toInt

/-- Field [lo + len - 1 : lo] of a word, as a number. -/
def Word.get (w : Word) (lo len : Nat) : Nat := (w.toNat >>> lo) % 2 ^ len

/-- A word with field [lo + len - 1 : lo] set to v modulo 2^len. -/
def Word.put (w : Word) (lo len v : Nat) : Word :=
  BitVec.ofNat 32 (w.toNat - (w.get lo len) <<< lo + (v % 2 ^ len) <<< lo)

end Sys2Proof
end

