-- ==== Sys2Proof/Messages.lean ====
section
/-! DEFINITION. The operands of the commands: the messages, packets, records and requests that reach a part, field by
field as the chapters settle them. -/

namespace Sys2Proof

/-! ### Time cells, PTP and stamps (chapters "Disciplining time" and "Time-stamps") -/

/-- R49: the payload of a time cell, field by field (TYPE 0x01 and the reserved bytes are constants), with the
CRC it carries. -/
structure TimeCell where
  gmTraceable : Bool := false
  holdover : Bool := false
  prevRetried : Bool := false
  rootPrio : Nat := 0
  cal : Bool := false
  seq : Nat := 0
  rxSeq : Nat := 0
  depth : Nat := 15
  state : Nat := 0
  applySeq : Nat := 0
  txOtPrev : OT := .zero
  rxOt : OT := .zero
  rootId : Nat := 0
  rootEpoch : Nat := 0
  utcOffset : BitVec 16 := 0
  clockClass : Nat := 0
  gmId : BitVec 64 := 0
  pathErr : Word := 0
  crc : Word := 0
  deriving DecidableEq, Repr

/-- R67: what the vernier TDC measured of one edge: the raw value of the time-island clock edge that launched the
stop oscillator, and the code k. -/
structure EdgeStamp where
  enext : Raw
  code : Nat
  deriving DecidableEq, Repr

/-- R46: what an Announce carries of the grandmaster and the path to it, as far as the alternate BMCA and R47 use it. -/
structure PtpAnnounce where
  clockClass : Nat := 248
  accuracy : Nat := 254
  variance : Nat := 65535
  priority2 : Nat := 128
  gmId : BitVec 64 := 0
  steps : Nat := 0
  utcOffset : BitVec 16 := 0
  deriving DecidableEq, Repr

/-- R46: the PTP frames a port on MGMT_A or MGMT_B can see, and the quality level of its SyncE (ESMC). The last four
constructors are the frames R46 lists as not supported. -/
inductive PtpFrame where
  /-- Sync: one-step, or two-step without its origin time. -/
  | sync (origin : Option OT)
  | followUp (origin : OT)
  /-- Delay_Resp: the time at which the master received our Delay_Req. -/
  | delayResp (rx : OT)
  | announce (a : PtpAnnounce)
  | delayReq (ident : Nat)
  | esmc (ql : Nat)
  | udp | g82752 | transparent | management
  deriving DecidableEq, Repr

/-- R46: the PTP messages a Kresia sends at its configured rates. -/
inductive PtpTx where
  | sync | delayReq | announce
  deriving DecidableEq, Repr

/-- R45: the two classes of source, each with its own order. -/
inductive PhaseSource where
  | ptp | pps | none
  deriving DecidableEq, Repr

/-- R45: the frequency sources. -/
inductive FreqSource where
  | syncE | fref | ptpRate | board
  deriving DecidableEq, Repr

/-- R45: what the frequency inputs of a time crown read over a servo interval: the fractional frequency of the reference
against the own oscillator in units of 2^-48; none where the input carries none. -/
structure FreqReading where
  syncE : Option Int := none
  fref : Option Int := none
  deriving DecidableEq, Repr

/-- What the receiver of a time cell knows of the sender beside the cell: the sender's declared latencies (R50), and
whether its last application of a set was discontinuous (R51). -/
structure PeerTime where
  txLat : Nat := 0
  rxLat : Nat := 0
  stepped : Bool := false
  deriving DecidableEq, Repr

/-! ### Launch control messages (chapter "Launch lists, barriers and the tamp") -/

/-- R92: the TYPE of a control message. -/
inductive CtlType where
  | arrive | arm | ack | tamp | void | orphan | tenantFault | gateMiss
  deriving DecidableEq, Repr

/-- R92: the 64-byte payload of a control message, field by field. `bitmap` is that of a count record; `period` and
`bellCount` are those of an ARM or TAMP of a bell; `voidedEpoch` and `cause` those of a VOID. -/
structure Ctl where
  kind : CtlType
  record : Bool := false
  bell : Bool := false
  cancel : Bool := false
  domain : Nat := 0
  epoch : Nat := 0
  seq : Nat := 0
  step : Nat := 0
  slot : Nat := 0
  due : OT := .zero
  voidedEpoch : Nat := 0
  cause : Code := 0
  window : Nat := 0
  member : Nat := 0
  status : Code := 0
  fromKresia : Bool := false
  bitmap : BitVec 128 := 0
  period : Nat := 0
  bellCount : Nat := 0
  latest : Nat := 0
  deriving DecidableEq, Repr

/-- R89: the fields firmware loads into a launch-list slot from a template (R163). -/
structure Template where
  kernel : Word := 0
  domain : Nat := 0
  tenant : Nat := 0
  shadow : Bool := false
  bell : Bool := false
  gate0En : Bool := false
  gate1En : Bool := false
  gateWait : Nat := 0
  rowMask : BitVec 64 := 0
  gate0Obj : Nat := 0
  gate0N : Nat := 0
  gate1Obj : Nat := 0
  gate1N : Nat := 0
  deriving DecidableEq, Repr

/-- R403: the launch descriptor LP_DESC. -/
structure LpDesc where
  kernel : Word
  step : Nat
  epoch : Nat
  slot : Nat
  shadow : Bool
  late : Bool
  rowsFed : BitVec 64
  rowsKept : BitVec 64
  deriving DecidableEq, Repr

/-! ### Reports, events, heartbeats and fences (chapter "Mirrors, fencing and spares") -/

/-- R311: one event record of a Kresia. -/
structure EventRec where
  evtSeq : Nat := 0
  code : Code := 0
  repeats : Nat := 0
  fromBaxel : Bool := false
  domain : Option Nat := none
  reporter : Nat := 0
  port : Nat := 255
  subject : Nat := 0
  ot : OT := .zero
  dropped : Nat := 0
  reportSeq : Nat := 0
  detail : List Nat := []
  deriving DecidableEq, Repr

/-- R311: a Baxel's report, as it travels on TC1 to its leaves. -/
structure BxReport where
  code : Code
  reportSeq : Nat := 0
  port : Nat := 255
  subject : Nat := 0
  domain : Option Nat := none
  ot : OT := .zero
  detail : List Nat := []
  deriving DecidableEq, Repr

/-- R310: a heartbeat payload. -/
structure Heartbeat where
  fenced : Bool := false
  singleDomain : Bool := false
  hbSeq : Nat := 0
  node : Nat := 0
  timeState : Nat := 0
  tenants : Nat := 0
  temp : Int := 0
  deriving DecidableEq, Repr

/-- R315: a FENCE (0x91) or clear (0x92) notice. -/
structure FenceNotice where
  clear : Bool
  subject : Nat
  fenceSeq : Nat
  deriving DecidableEq, Repr

/-! ### Views, callers and memory packets -/

/-- Who writes or reads a register: the management core, the privileged view (tag 0b000, PCIe on Kresia), a tenant
view, or a request with a tag R394 does not know. -/
inductive View where
  | core | priv | tenant (t : Nat) | badTag
  deriving DecidableEq, Repr

/-- R121, R124, R129: how an operation on an object is requested: at the signal port (absolute number); by a write
of OBJ_OP in tenant page t, whose n or v stands in OBJ_ARG, by the tenant's view or the privileged one; by a
step-program entry or an engine of a Kresia for its domain. -/
inductive ObjReq where
  | port (t tag n obj : Nat)
  /-- A request at the signal port under operation code 0b110 or 0b111. -/
  | reserved (t tag : Nat)
  | view (t : Nat) (priv : Bool) (obj tag : Nat)
  | entry (domain index n obj : Nat)
  | engine (domain id n obj : Nat)
  deriving DecidableEq, Repr

/-- Who a request is of: a tenant, or a domain. -/
def ObjReq.owner : ObjReq → Nat
  | .port t _ _ _ => t
  | .reserved t _ => t
  | .view t _ _ _ => t
  | .entry d _ _ _ => d
  | .engine d _ _ _ => d

/-- Whether a request is that of an entry of a domain's step; an entry's identifier is step × 2^16 + its index. -/
def ObjReq.ofStep (d step : Nat) : ObjReq → Bool
  | .entry e i _ _ => e = d && i / 65536 = step
  | _ => false

/-- R319: which chunk a mirror transfer carries, for which home, of which step, and whether it is the chunk's last; the
manual does not say how the partner learns it. -/
structure MirrorTag where
  region : Bool := false
  coll : Nat
  chunk : Nat
  step : Nat
  home : Nat
  last : Bool := true
  /-- The step of the sealed output it carries, where there is one; no block of the chunk has run. -/
  sealed : Option Nat := none
  fresh : Bool := false
  /-- Where the mirror lies in the staging slot, and its length. -/
  base : Nat := 0
  bytes : Nat := 0
  deriving DecidableEq, Repr

/-- R136: one packet of a signalled transfer, with the fields of its head and its payload. -/
structure RsigPacket where
  /-- Sending node under R272 (bit 20: a Kresia). -/
  src : Nat
  transfer : Nat
  index : Nat
  last : Bool
  domain : Nat
  epoch : Nat
  addr : Nat
  sigObj : Nat := 0
  sigN : Nat := 0
  declared : Nat := 0
  payload : List Byte
  mirror : Option MirrorTag := none
  deriving DecidableEq, Repr

/-- R137: an RW_DONE message. -/
structure RwDone where
  domain : Nat
  epoch : Nat
  transfer : Nat
  code : Code
  deriving DecidableEq, Repr

/-- R111, R418: what STEER_CLK carries: a level, the free-running 100 MHz of the time island, or the steer output at 1 GHz × M / N. -/
inductive SteerClk where
  | low | high | free100 | steered (m n : Nat)
  deriving DecidableEq, Repr

/-- R423: the straps and declared latencies of a Baxel, sampled at the deassertion of RST_N. -/
structure Straps where
  refSel : Bool := false
  ports : Nat := 0
  steerFb : Nat := 0
  irqLow : Bool := false
  txLat : List Nat := []
  rxLat : List Nat := []
  lpDly : List Nat := []
  /-- R90: the row groups the integrator declares. -/
  rowGroups : Nat := 64
  deriving DecidableEq, Repr

/-- Who waits on an object. -/
inductive WaiterSource where
  | signalPort | view | gate (slot : Nat) | entry (index : Nat) | mailbox (m k : Nat) | engine (id : Nat)
  deriving DecidableEq, Repr

/-- R164: one declared object. -/
structure ObjDecl where
  index : Nat
  cluster : Bool := false
  replay : Bool := false
  carry : Bool := false
  init : Nat := 0
  deriving DecidableEq, Repr

/-- What a TC6 message of the crown asks a member's firmware to do with templates: load them, withdraw the load of a
domain (R167), or return slots to FREE when a program ends (R169, R171). -/
inductive LoadOp where
  | load | withdraw | release
  deriving DecidableEq, Repr

/-- R163, R164, R167: what the crown sends to the firmware of one member for one tenant of a domain: the slots with
their templates, the declared local objects, and STEP_FIRST. -/
structure TemplateLoad where
  op : LoadOp := .load
  /-- R169: the program is pending until its switch. -/
  replace : Bool := false
  domain : Nat
  stepFirst : Nat
  /-- R329: the epoch, sequence and step a spare joins under; a load starts at epoch 0. -/
  epoch : Nat := 0
  seq : Nat := 0
  named : Option Nat := none
  slots : List (Nat × Template)
  objs : List ObjDecl := []
  /-- R361: the program's sections go with the templates, and the tenant's position. -/
  image : List Byte := []
  position : Nat := 0
  /-- R202, R217: GROUP and down port of the position, which the member puts into the header of a detour part. -/
  group : Nat := 0
  port : Nat := 0
  /-- R201, R264: the member and the group of every position, by which the member numbers the chunks its leaf serves and
  names the receivers of its transfers. -/
  peers : List (Nat × Nat) := []
  /-- R142: the members among them that are Baxel 2.x. -/
  v2Peers : List Nat := []
  /-- R165: the trackers the program's grants ask of the position's tenant. -/
  trackers : Nat := 0
  deriving DecidableEq, Repr

/-- R167, R171: what a receiver answers the crown of a domain: a load acknowledged (code 0) or refused, or the program
freed. -/
structure LoadAck where
  domain : Nat
  freed : Bool := false
  fromBaxel : Bool
  node : Nat
  code : Code := 0
  deriving DecidableEq, Repr

/-! ### Ploav links (chapter "Ploav links") -/

/-- R271, R272: a packet as a port sees it: KIND, class, payload cells, node fields, the domain of a TC1 packet, and of
a signalled transfer the landing address and the length of the whole transfer. -/
structure Packet where
  kind : Nat
  tc : Nat
  cells : Nat := 1
  src : Nat := 0
  dst : Nat := 0
  domain : Option Nat := none
  addr : Nat := 0
  bytes : Nat := 64
  deriving DecidableEq, Repr

/-- Where a packet enqueued comes from: a local engine (of a Baxel tenant, where it is one's), or a port it arrived
by; `copy` marks an extra copy made for multicast (R287). -/
inductive PacketSource where
  | local' (ten : Option Nat)
  | forward (inPort : Nat) (copy : Bool)
  deriving DecidableEq, Repr

/-- R278: a sequenced packet as it arrives: its 32-byte head, what the decoder says of it, and whether it ends at this part. -/
structure RxPacket where
  head : List Byte
  corrected : Nat := 0
  uncorrectable : Nat := 0
  /-- R316: a heartbeat, which a fenced sender's port still takes. -/
  heartbeat : Bool := false
  ends : Bool := true
  deriving DecidableEq, Repr

/-- R288: the body of CAPS and CAPS_ACK; `version` is BLOCK_VERSION as (major, minor, patch). -/
structure Caps where
  ploavMax : Nat := 3
  role : Nat
  node : Nat
  plane : Nat := 0
  version : Nat × Nat × Nat := (0, 0, 0)
  features : Nat := 15
  floors : List Nat := []
  deriving DecidableEq, Repr

/-- R272, R278, R283, R285: what an ACK or NAK carries. -/
structure LinkHead where
  ackSeq : Nat
  cr : List Nat := []
  floorDom : Nat := 0
  floorRet : Nat := 0
  deriving DecidableEq, Repr

/-- R282: PLANE_LOST or PLANE_BACK of a member. -/
structure PlaneNotice where
  member : Nat
  plane : Nat
  deriving DecidableEq, Repr


/-! ### Domains and programs (chapters "Step programs", "Mailboxes, management cores and register views") -/

/-- R202, R392: one entry of a domain's position map. `v2` says that the member is a Baxel 2.x: the manual does not say how
the crown learns of it (log 30). -/
structure PosEntry where
  member : Nat
  tenant : Nat := 0
  group : Nat := 0
  port : Nat := 0
  v2 : Bool := false
  deriving DecidableEq, Repr

/-- R167, R169: a step-program image as it reaches a Kresia on TC5, with what the crown tells the receiver of the domain
beside it: the crown's identifier, whether the receiver is a deputy, the position map, and, for a replace, SWITCH_STEP.
`withdraw` takes a load back; `unload` frees the program (R171). -/
structure ProgImage where
  domain : Nat
  crown : Nat
  deputy : Bool := false
  switchStep : Option Nat := none
  withdraw : Bool := false
  /-- The position map alone, as it stands now (R202, R329); the manual does not say by which message it travels. -/
  mapOnly : Bool := false
  unload : Bool := false
  /-- R328: the step whose checkpoint a roll-back returns to; the manual does not say by which message the homes learn it. -/
  rollback : Option Nat := none
  /-- R345: CUP_PERIOD and FROM_STEP; the manual does not say by which message the Kresia of the domain learn them. -/
  cup : Option (Nat × Nat) := none
  positions : List PosEntry := []
  image : List Byte := []
  deriving DecidableEq, Repr

/-- R230: one host scalar value as the crown sends it on TC6. -/
structure ScalarValue where
  domain : Nat
  set : Nat
  scalar : Nat
  value : Word
  fromStep : Nat
  deriving DecidableEq, Repr

/-- R362: SNAP. -/
structure SnapMsg where
  domain : Nat
  epoch : Nat
  step : Nat
  set : Nat
  t : OT
  deriving DecidableEq, Repr

/-- R219, R325: HOME_MOVE: a home-list element of a collective (0), layer (1) or region (2) takes a new home, from a
step on where it was planned. -/
structure HomeMove where
  domain : Nat
  kind : Nat
  record : Nat
  element : Nat
  home : Nat
  step : Option Nat := none
  deriving DecidableEq, Repr

/-- R17, R329: a binding or unbinding of a tenant, as it reaches the member's Baxel. -/
structure Binding where
  domain : Nat
  member : Nat
  tenant : Nat
  bound : Bool
  /-- R202: the position, with its group and down port, by which the other members number and name it. -/
  position : Nat := 0
  group : Nat := 0
  port : Nat := 0
  v2 : Bool := false
  deriving DecidableEq, Repr

/-- R329: what the crown knows of a spare it is asked to bind, by means the manual does not give: its place under R202,
and what R15, R62 and R168 look at. -/
structure SpareFacts where
  group : Nat
  port : Nat
  v2 : Bool := false
  single : Bool := false
  locked : Bool := true
  /-- R17: the spare's tenant stands bound in a domain another Kresia crowns. -/
  bound : Bool := false
  deriving DecidableEq, Repr


/-! ### Chunks (chapter "Reductions, gathers and chunk flow") -/

/-- R205, R206, R207: one packet of a part: the chunk tag, the header's fields (packet 0), and the payload of a data
packet. -/
structure ChunkPacket where
  domain : Nat
  epoch : Nat
  step : Nat
  coll : Nat
  chunk : Nat
  restart : Nat := 0
  role : Nat
  sender : Nat
  pkt : Nat
  last : Bool := false
  first : Nat := 0
  nelem : Nat := 0
  kind : Nat := 0
  group : Nat := 0
  portmap : BitVec 128 := 0
  cover : Nat := 0
  packets : Nat := 0
  bytes : Nat := 0
  distinct : Nat := 0
  payload : List Byte := []
  deriving DecidableEq, Repr

/-- R19, R217: the class of a part's packets: TC3, and TC5 on every hop of a detour part. -/
def ChunkPacket.cls (k : ChunkPacket) : Nat := if k.role = 2 then 5 else 3

/-- R208, R211, R218: the notices of chunk flow. -/
inductive ChunkNote where
  /-- CHUNK_BASE of a Kresia in a role (0 leaf, 1 home). -/
  | base (node domain epoch step coll role base : Nat)
  | done (domain epoch step coll chunk : Nat)
  /-- CHUNK_FAIL of a leaf: the lost sender. -/
  | fail (node domain epoch step coll chunk restart lost : Nat)
  /-- CHUNK_RESTART of a home, with its code and the lost sender. -/
  | restart (node domain epoch step coll chunk restart : Nat) (code : Code) (lost : Nat)
  deriving DecidableEq, Repr

/-- R136, R137: a signalled transfer as its sender starts it: all its data; the class it travels on. -/
structure RsigSend where
  receiver : Nat
  domain : Nat
  epoch : Nat
  transfer : Nat
  cls : Nat
  addr : Nat
  sigObj : Nat
  sigN : Nat
  data : List Byte
  mirror : Option MirrorTag := none
  deriving DecidableEq, Repr

/-! ### Dispatch, cupping, checkpoints (chapters "Conditional dispatch", "Repeatable bits", "Mirrors, fencing and
spares") -/

/-- R252 to R257, R263, R272: one DSP packet. `phase` 0: a token record of a member, or its choices as a leaf forwards
them; 1: END, with n in `count`; 2: a payload. -/
structure DspPacket where
  domain : Nat
  epoch : Nat
  step : Nat
  layer : Nat
  restart : Nat := 0
  phase : Nat
  /-- Sending node under R272. -/
  sender : Nat
  position : Nat
  token : Nat := 0
  count : Nat := 0
  data : List Byte := []
  /-- A leaf's choice list: experts with their weights, in rank order. -/
  choices : List (Nat × Nat) := []
  deriving DecidableEq, Repr

/-- R253, R262, R266: DSP_OPEN, DSP_GO, DSP_LOST and DSP_RESTART. -/
inductive DspNoteKind where
  | opened | go | lost | restart
  deriving DecidableEq, Repr

structure DspNote where
  kind : DspNoteKind
  domain : Nat
  epoch : Nat
  step : Nat
  layer : Nat
  group : Nat := 0
  restart : Nat := 0
  member : Nat := 0
  deriving DecidableEq, Repr

/-- R258: one placement: token, rank, expert, slot. -/
structure Place where
  token : Nat
  rank : Nat
  expert : Nat
  slot : Nat
  deriving DecidableEq, Repr

/-- R262: what a plan home sends a dispatch leaf: the placements of the tokens it delivered. -/
structure DspPlacements where
  domain : Nat
  epoch : Nat
  step : Nat
  layer : Nat
  group : Nat
  restart : Nat := 0
  places : List Place
  deriving DecidableEq, Repr

/-- R348: the partials of a Kresia for one step: five digests of four words, and VAR_CAUSE. -/
structure CupPartial where
  domain : Nat
  step : Nat
  epoch : Nat
  node : Nat
  sums : List Nat
  varied : Nat := 0
  deriving DecidableEq, Repr

/-- R351: a partner's digests by chunk; a chunk whose newest block is not mirrored is left out. -/
structure ShardDigests where
  domain : Nat
  coll : Nat
  node : Nat
  digests : List (Nat × List Nat)
  deriving DecidableEq, Repr

/-- R327, R392: a ring slot granted to a home of a domain, by the position of the target. -/
structure CkptGrant where
  domain : Nat
  target : Nat
  slot : Nat
  deriving DecidableEq, Repr


/-! ### Reset, boot and datagrams (chapters "Mailboxes, management cores and register views", "Kresia package, power and
building halls") -/

/-- R432: what an output of a Kresia shows: a fallback state, or what firmware drives. -/
inductive PinState where
  | low | high | hiZ | driven
  deriving DecidableEq, Repr

/-- R432: PPS_OUT, TOD_TX, SYNCE_OUT and ALARM_N. -/
structure KsPins where
  pps : PinState := .low
  tod : PinState := .low
  synce : PinState := .low
  alarm : PinState := .low
  deriving DecidableEq, Repr

/-- R400, R432, R439: what a Kresia samples at the deassertion of RST_N: its identifier and plane, STRAP_FB,
STRAP_PCIE_EN, and the fault of its clocks (0 none, else CLOCK_CAUSE). -/
structure KsStraps where
  node : Nat := 0
  strapFb : Nat := 0
  pcieEn : Bool := false
  clockCause : Nat := 0
  deriving DecidableEq, Repr

/-- R423, R441: what a part samples as its reset ends. -/
inductive BootStraps where
  | baxel (x : Straps)
  | kresia (x : KsStraps)
  deriving DecidableEq, Repr

/-- R45, R54, R387, R443, R444: the configuration of a Kresia's signed image. Its form in the image is not stated, so it
stands here beside the image. `planes` to `halls` are the build. -/
structure ImageConfig where
  spine : Bool := false
  allow : List Nat := []
  txLat : List Nat := []
  rxLat : List Nat := []
  /-- R43: 0 ordinary node, 1 primary, 2 secondary time crown. -/
  timeRole : Nat := 0
  siteRoot : Bool := false
  planes : Nat := 8
  leaves : Nat := 64
  spines : Nat := 64
  dies : Nat := 128
  pods : Nat := 16
  halls : Nat := 4
  /-- R141: a Kresia's RSIG_TIMEOUT in ms, 1 to 1,000. -/
  rsigTimeout : Nat := 10
  deriving DecidableEq, Repr

/-- R166: what a crown asks of the parts of a domain before it loads a program, by means the manual does not give: the
Kresia that have no room for it (check 10), and the trackers of the partition of the tenant at each position (R137, R165,
check 11) where they are not the default 2,048. -/
structure LoadFacts where
  noRoom : List Nat := []
  parts : List (Nat × Nat) := []
  deriving DecidableEq, Repr

/-- R373, R374: what a boot ROM has at hand: a Baxel the bytes it has read; a Kresia its two flash slots, and the
configuration of the image that passes. -/
inductive BootInput where
  | baxel
  | kresia (slotA slotB : List Byte) (config : ImageConfig)
  deriving DecidableEq, Repr

/-- R386, R387: a datagram at a management port (0 MGMT_A, 1 MGMT_B): its source address and UDP port, whether it is an IP
fragment, and the UDP payload. -/
structure Datagram where
  port : Nat
  source : Nat
  udp : Nat
  fragment : Bool := false
  payload : List Byte
  deriving DecidableEq, Repr


/-- A message or packet a part sends. -/
inductive Msg where
  | timeCell (c : TimeCell)
  | ptp (m : PtpTx) (ident : Nat) (followUp : Option OT)
  | ptpDelayResp (port ident : Nat) (rx : OT)
  | ptpAnnounce (port domain clockClass : Nat) (gmId : BitVec 64) (utcOffset : BitVec 16)
  | ctl (m : Ctl)
  /-- A deputy's copy of a member's or a leaf's message, with SRC of its packet head (R22). -/
  | ctlOf (src : Nat) (m : Ctl)
  | report (r : BxReport)
  | event (r : EventRec)
  | fence (n : FenceNotice)
  | heartbeat (h : Heartbeat)
  | rwDone (d : RwDone)
  | loadAck (a : LoadAck)
  | ack (h : LinkHead)
  | nak (h : LinkHead)
  | caps (c : Caps)
  | capsAck (c : Caps)
  | planeLost (n : PlaneNotice)
  | planeBack (n : PlaneNotice)
  | progImage (x : ProgImage)
  | template (x : TemplateLoad)
  | scalar (x : ScalarValue)
  | scalarAck (x : ScalarValue) (node : Nat)
  | snap (x : SnapMsg)
  | homeMove (x : HomeMove)
  | binding (x : Binding)
  | chunk (cls : Nat) (x : ChunkPacket)
  | chunkNote (x : ChunkNote)
  /-- A packet of a signalled transfer on a class (R136), and the signal packet that follows the last one over Ploav 2
  (R142). -/
  | rsig (cls : Nat) (k : RsigPacket)
  | v2Signal (cls : Nat) (k : RsigPacket)
  | dsp (cls : Nat) (x : DspPacket)
  | dspNote (x : DspNote)
  | dspPlaces (cls : Nat) (x : DspPlacements)
  | cup (x : CupPartial)
  | digests (x : ShardDigests)
  | ckptGrant (x : CkptGrant)
  /-- R327: a home's part of a checkpoint is complete. -/
  | ckptDone (domain coll step node : Nat)
  /-- R392: an admission as the leaf sends it. -/
  | admission (member : Nat)
  /-- R16: the identifier a Baxel holds ends. -/
  | retirement (member : Nat)
  deriving DecidableEq, Repr

end Sys2Proof
end

