-- ==== Sys2Proof/Syntax.lean ====
section
/-! DEFINITION. The commands: one constructor for each row of spec/opcode_table.json. A row names an operation or an
event; its operands here are what the rule that governs it lets the outside supply. -/

namespace Sys2Proof

/-- The commands the two parts take. Where either part can take one, `p` says which. -/
inductive Instr where
  /-- R32: Firmware writes 1 to COMMIT; the part checks the pending parameter set and APPLY_RAW and accepts or refuses the commit. -/
  | tsCommit (p : Part)
  /-- R35: The raw counter reaches APPLY_RAW; the pending set becomes active, the step is recorded and the count is incremented. -/
  | applyRawReached (p : Part)
  /-- R36: The signed raw distance from RAW_REF reaches 2^62 grains and the part rebases RAW_REF and OFFSET_OT by itself. -/
  | tsRebase (p : Part)
  /-- R41: A read of BX_FT_RAW_LO latches raw, OT and status into the requester's latch bank. -/
  | ftRawLoRead (p : Part) (v : View)
  /-- R49: Every 31.25 us each in-service port sends a time cell on TC0. -/
  | timeCellSend (p : Part) (port : Nat) (tx : EdgeStamp)
  /-- R49: A time cell is received, checked by CRC and used to build two-way exchanges. -/
  | timeCellRx (p : Part) (port : Nat) (cell : TimeCell) (rx : EdgeStamp) (peer : PeerTime)
  /-- R59: At the end of each 4 ms interval the servo computes theta, steps or slews, changes time state and commits a new set. -/
  | servoInterval (p : Part) (f : FreqReading)
  /-- R63: One millisecond after its first candidate cell a Kresia chooses its time parent. -/
  | parentChoice
  /-- R58: The secondary time crown, with no cell from the primary's tree for 5 ms, takes the root. -/
  | rootTakeover
  /-- R48: A primary time crown with no phase source 60 s after firmware starts reports and waits. -/
  | timeNoSource
  /-- R46: A PTP frame arrives on MGMT_A or MGMT_B and feeds the time crown's servo or is discarded as unsupported. -/
  | ptpFrameRx (port : Nat) (domainNumber : Nat) (f : PtpFrame) (rx : EdgeStamp)
  /-- R46: At its configured rate a Kresia sends a PTP Sync, Delay_Req or Announce message. -/
  | ptpMessageTx (port : Nat) (m : PtpTx) (ident : Nat) (tx : EdgeStamp)
  /-- R45: A rising edge on PPS_IN gives the time crown a phase reference. -/
  | ppsInEdge (e : EdgeStamp)
  /-- R45: A time-of-day message arrives on TOD_RX. -/
  | todRxMessage (ot : OT) (utcOffset : BitVec 16)
  /-- R71: Firmware starts a calibration run on a TDC, respecting the concurrency limits. -/
  | tdcCalStart (p : Part) (tdc : Nat)
  /-- R71: CAL_INTERVAL seconds pass since a TDC's last run and a calibration falls due. -/
  | calIntervalExpiry (p : Part) (tdc : Nat)
  /-- R71: Every 1 ms firmware reads the time-island sensor and triggers calibration when TEMP_STEP is exceeded. -/
  | tempSensorRead (p : Part) (temp : Int)
  /-- R71: A write of CAL_CTRL.START starts a calibration run on the TDC selected by CAL_SEL. -/
  | calStartWrite (p : Part)
  /-- R70: A calibration run collects its hits and passes, replacing the bin table, or fails and may mark the TDC FAILED. -/
  | tdcCalDone (p : Part) (tdc : Nat) (hits : List Nat)
  /-- R69: A calibration run reaches 20 ms with fewer than 2^20 hits and fails with cause SHORT. -/
  | tdcCalShort (p : Part) (tdc : Nat)
  /-- R74: An edge on a stamp input is qualified, stamped and held for its gate or refused as a runt or too close. -/
  | stampEdge (p : Part) (ch : Nat) (falling : Bool) (width : Nat) (e : EdgeStamp)
  /-- R77: An edge on a gate input opens or closes the external gate, or its short phase is suppressed. -/
  | gateInputEdge (p : Part) (g : Nat) (rising : Bool) (phase : Nat) (e : EdgeStamp)
  /-- R75: The converted OPEN_OT or CLOSE_OT of an armed OT window is reached and the gate opens or closes. -/
  | gateWindowEdge (p : Part) (g : Nat)
  /-- R75: A write of ARM_WIN arms one OT window, or refuses it with a code in LAST_CODE. -/
  | armWin (p : Part) (g : Nat)
  /-- R75: A write of SW_OPEN opens or closes the software gate at the cycle edge it reaches the time island. -/
  | swOpen (p : Part) (g : Nat) (level : Bool)
  /-- R73: A write to a stamp channel's configuration word, refused for EDGE 0b11 or an invalid ring. -/
  | stampChannelCfgWrite (p : Part) (ch : Nat) (w : Word)
  /-- R78: A write of POP retires records from the stamp queue. -/
  | stampPop (p : Part) (v : View) (ch : Nat) (n : Nat)
  /-- R81: A drained record is written to the ring and RING_WR advances. -/
  | ringRecordWritten (p : Part) (ch : Nat)
  /-- R83: A write of ARM arms the frequency engine for the next gate opening or is refused. -/
  | freqArm (p : Part) (g : Nat)
  /-- R83: The frequency engine reaches MAXN stamps and ends the measurement. -/
  | freqMaxnReached (p : Part) (g : Nat)
  /-- R85: A write of RETIRE with the current RESULT_SEQ clears READY; otherwise RETIRE_MISMATCH is set. -/
  | freqRetire (p : Part) (g : Nat) (seq : Word)
  /-- R87: A write of TXQ_POP retires entries of the transmit-timestamp queue. -/
  | txqPop (p : Part) (n : Nat)
  /-- R89: A write to BX_LL_PARTt sets a tenant's launch-list partition or is refused. -/
  | llPartWrite (t : Nat) (w : Word)
  /-- R91: A write to BX_ROW_ALLOW sets a tenant's row groups or is refused for overlap. -/
  | rowAllowWrite (t : Nat) (hi : Bool) (w : Word)
  /-- R90: Baxel firmware loads a launch template received from the crown into a slot, or refuses it. -/
  | templateLoad (ld : TemplateLoad)
  /-- R94: The host writes a step to BX_T_ARRIVE and Baxel sends the arrival on every plane or refuses it. -/
  | arrive (t : Nat) (step : Nat)
  /-- R92: A leaf takes a member's ARRIVE or ACK and combines it into a count record, or forwards a refusing ACK alone. -/
  | leafReportRx (port : Nat) (m : Ctl)
  /-- R92: 200 ns after the first message it holds, a leaf sends its count record upward. -/
  | leafRecordTimeout (kind : CtlType) (domain : Nat)
  /-- R95: The crown takes an arrival or arrival record, deduplicates it and completes the barrier when every position is covered. -/
  | crownArriveRx (src : Nat) (m : Ctl)
  /-- R99: An armed record frees while an arm waits at 1,024 records, and the arm proceeds. -/
  | armStallRelease (domain : Nat)
  /-- R99: The crown takes an acknowledgement and tamps when all positions are covered, or voids on a refusing ACK. -/
  | crownAckRx (src : Nat) (m : Ctl)
  /-- R99: Crown OT reaches ADL with acknowledgements incomplete and the crown voids with S_ACK_MISSING. -/
  | adlExpiry (domain : Nat)
  /-- R99: An ORPHAN, GATE_MISS or TENANT_FAULT reaches the crown and voids the unsealed step, or is counted stale or late. -/
  | crownReportRx (src : Nat) (m : Ctl)
  /-- R102: A member takes the first copy of an ARM, fills the slot and acknowledges, or refuses it. -/
  | bxArmRx (port : Nat) (rx : EdgeStamp) (m : Ctl)
  /-- R102: A member takes the first copy of a TAMP and sets the slot TAMPED or BELL_RUN, or counts it unmatched or late. -/
  | bxTampRx (port : Nat) (rx : EdgeStamp) (m : Ctl)
  /-- R103: A member takes the first broadcast of a newer epoch and runs void_older on the domain's slots and objects. -/
  | bxVoidRx (port : Nat) (m : Ctl)
  /-- R102: At the first cycle edge at or after W + 120 ns, a slot still ARMED becomes VOID and sends ORPHAN. -/
  | orphanTest (t : Nat) (slot : Nat)
  /-- R102: A TAMPED slot's fire cycle is reached and it fires, or begins a gated take. -/
  | fireCycle (t : Nat) (slot : Nat)
  /-- R108: A WAITING gated launch's combined take completes after the fire cycle and the launch fires late. -/
  | gateTakeLate (t : Nat) (slot : Nat)
  /-- R109: A gated launch still WAITING GATE_WAIT us after DUE is missed and voided. -/
  | gateWaitExpiry (t : Nat) (slot : Nat)
  /-- R415: The integrator accepts a launch descriptor by LP_READY and LP_GO is scheduled. -/
  | lpAccept (t : Nat)
  /-- R24: A bell series reaches B0 + k x period and fires, or is skipped while the tenant is faulted. -/
  | bellFire (t : Nat) (slot : Nat)
  /-- R114: A cycle of LP_ERR faults the tenant with S_LAUNCH_CHANNEL_ERR. -/
  | lpErrInput (t : Nat)
  /-- R116: A fence notice reaches a Baxel, which voids its slots, ends bells and shows FENCED. -/
  | bxFenceNotice (n : FenceNotice)
  /-- R116: A fence lift reaches a Baxel; FENCED clears and VOID slots of unfaulted tenants return to LOADED. -/
  | bxFenceLift (n : FenceNotice)
  /-- R111: A write to BX_STEER_CFG sets steering or is refused with S_STEER_CFG. -/
  | steerCfgWrite (w : Word)
  /-- R121: A PEEK returns an object's VALUE and reports POISON. -/
  | objPeek (r : ObjReq)
  /-- R121: A SIGNAL adds n to VALUE and serves waiters, or poisons the object on overflow. -/
  | objSignal (r : ObjReq)
  /-- R123: A TAKE subtracts n at once or joins the tail of the waiter queue. -/
  | objTake (r : ObjReq)
  /-- R121: A DEC subtracts n at once or poisons the object on underflow. -/
  | objDec (r : ObjReq)
  /-- R127: A privileged SET writes VALUE, clears POISON and serves waiters. -/
  | objSet (r : ObjReq)
  /-- R130: A CANCEL withdraws the caller's waiting TAKE with the named tag. -/
  | objCancel (r : ObjReq)
  /-- R130: A register TAKE still waiting OBJ_TIMEOUT us after issue is withdrawn. -/
  | takeTimeout (p : Part) (obj : Nat) (source : WaiterSource) (tag : Nat)
  /-- R130: A write of TCQ_POP retires take-completion entries. -/
  | tcqPop (t : Nat) (n : Nat)
  /-- R128: A write to BX_OBJ_PARTt sets a tenant's object partition or is refused. -/
  | objPartWrite (t : Nat) (w : Word)
  /-- R131: A write to BX_OBJ_WFLOORt sets a tenant's waiter floor or is refused. -/
  | wfloorWrite (t : Nat) (w : Word)
  /-- R137: A write to BX_RSIG_PARTt sets a tenant's receive trackers or is refused. -/
  | rsigPartWrite (t : Nat) (w : Word)
  /-- R138: A signalled-transfer packet arrives, opens or updates a tracker and is written, or is discarded. -/
  | rsigPacketRx (p : Part) (port : Nat) (x : RsigPacket)
  /-- R413: A memory write response arrives and counts the written bytes in ACKED. -/
  | memWriteResponse (p : Part) (port : Nat) (id : Nat) (err : Bool)
  /-- R140: No packet of an overrun transfer arrives for RSIG_TIMEOUT and the tracker is freed with RW_DONE. -/
  | rsigOverrunWaitEnd (p : Part) (src : Nat) (transfer : Nat)
  /-- R141: An open tracker receives no packet for RSIG_TIMEOUT and closes with a report. -/
  | rsigTimeout (p : Part) (src : Nat) (transfer : Nat)
  /-- R137: A sender receives RW_DONE and returns the tracker credit for the transfer. -/
  | rwDoneRx (p : Part) (src : Nat) (d : RwDone)
  /-- R142: A Ploav 2 signal packet arrives and is applied once earlier writes on the port are acknowledged. -/
  | v2SignalPacketRx (p : Part) (port : Nat) (x : RsigPacket)
  /-- R167: A Kresia receives a step-program image, recomputes its digest and acknowledges or refuses. -/
  | progImageRx (x : ProgImage)
  /-- R167: The crown takes a receiver's acknowledgement or refusal of a load and completes or withdraws it. -/
  | progLoadAckRx (a : LoadAck)
  /-- R155: A Kresia takes the first TAMP copy of a step's first LAUNCH, forwards it upward and starts or holds the body instance. -/
  | kresiaTampRx (m : Ctl)
  /-- R156: Every 10 ns a queue-mode Kresia issues or skips one body entry. -/
  | queueIssueTick (domain : Nat) (step : Nat)
  /-- R154: A body entry completes at a Kresia and applies its DONE signal. -/
  | entryComplete (domain : Nat) (step : Nat) (entry : Nat)
  /-- R156: A WAIT entry's TAKE completes and its queue unblocks. -/
  | waitTakeDone (domain : Nat) (step : Nat) (entry : Nat)
  /-- R158: A WAIT not completed TIMEOUT_US after issue is withdrawn and voids or continues. -/
  | waitTimeout (domain : Nat) (step : Nat) (entry : Nat)
  /-- R160: In schedule mode DUE + START_NS is reached and the entry issues. -/
  | schedStart (domain : Nat) (step : Nat) (entry : Nat)
  /-- R160: A schedule-mode entry not accepted within 1 us or not finished by DUE + FINISH_NS fails and voids the step. -/
  | schedOverrun (domain : Nat) (step : Nat) (entry : Nat)
  /-- R170: A void reaches a Kresia, which ends its open instance and resets REPLAY objects. -/
  | kresiaVoidRx (m : Ctl)
  /-- R203: A write of CP_GO posts contributions of a collective or is refused. -/
  | cpGo (t : Nat)
  /-- R208: A sender takes a CHUNK_BASE notice and sends parts that are now admitted. -/
  | chunkBaseRx (p : Part) (n : ChunkNote)
  /-- R209: A Kresia handles a chunk packet: claims, applies, discards or fails it. -/
  | chunkPacketRx (port : Nat) (k : ChunkPacket)
  /-- R195: A chunk waiting for felt slots opens when all of its slots are free. -/
  | chunkOpenWait (entry : Nat)
  /-- R211: A member takes CHUNK_DONE and releases its part. -/
  | chunkDoneRx (n : ChunkNote)
  /-- R218: A home takes a CHUNK_FAIL notice from a leaf and restarts the chunk. -/
  | chunkFailRx (n : ChunkNote)
  /-- R218: A claimed part receives no packet for PART_TIMEOUT_US and the home restarts the chunk. -/
  | partTimeout (entry : Nat) (sender : Nat)
  /-- R218: A leaf or member takes CHUNK_RESTART and resets its entry or resends its part. -/
  | chunkRestartRx (p : Part) (n : ChunkNote)
  /-- R219: A Kresia or member takes HOME_MOVE and redirects the home-list element. -/
  | homeMoveRx (p : Part) (m : HomeMove)
  /-- R197: A write to KS_FELT_PROBE_SEL latches a snapshot of a felt slot. -/
  | feltProbeSel (w : Word)
  /-- R223: A write to KS_CHUNK_SEL latches a snapshot of a chunk entry. -/
  | chunkSel (w : Word)
  /-- R241: An idle engine takes the first queued chunk once its mirror and checkpoint conditions hold. -/
  | blockStart
  /-- R242: All groups have run and all stream writes are acknowledged; the block commits and multicasts outputs. -/
  | blockCommit (domain : Nat) (coll : Nat) (chunk : Nat)
  /-- R244: A state read meets an uncorrectable error and the home restores from the partner or fails the chunk. -/
  | stateEccError (domain : Nat) (coll : Nat) (chunk : Nat) (copy : Option (List Byte))
  /-- R253: A write of DP_GO posts a layer's token records or is refused. -/
  | dpGo (t : Nat)
  /-- R253: A member takes DSP_OPEN and sends its posted token records and END. -/
  | dspOpenRx (n : DspNote)
  /-- R254: A dispatch leaf checks a token record, performs top-k and forwards the choice list. -/
  | dspRecordRx (x : DspPacket)
  /-- R257: A plan home claims a position's list and assigns once every END has arrived. -/
  | dspListRx (x : DspPacket)
  /-- R263: A member takes DSP_GO and sends its payloads. -/
  | dspGoRx (n : DspNote)
  /-- R263: A dispatch leaf replicates a payload to its placements or discards it as unplaced. -/
  | dspPayloadRx (x : DspPacket)
  /-- R264: A write of DP_RET_GO sends each slot's output back to its source. -/
  | dpRetGo (t : Nat)
  /-- R266: A plan home takes DSP_LOST and restarts the group's collection. -/
  | dspLostRx (n : DspNote)
  /-- R266: A member takes DSP_RESTART and sends its list again. -/
  | dspRestartRx (n : DspNote)
  /-- R268: A write to KS_DSP_SEL.EXPERT latches a dispatch snapshot. -/
  | dspSel (w : Word)
  /-- R275: A packet is enqueued at a port, or refused for class, KIND, field range or gate list. -/
  | packetEnqueue (p : Part) (port : Nat) (src : PacketSource) (x : Packet)
  /-- R301: At a packet boundary the port chooses the next eligible class and starts a packet. -/
  | packetBoundary (p : Part) (port : Nat)
  /-- R278: A sequenced packet arrives and is accepted, discarded out of sequence, or triggers a NAK. -/
  | packetRx (p : Part) (port : Nat) (x : RxPacket)
  /-- R283: A LINK ACK arrives, freeing acknowledged copies and updating credit limits. -/
  | ackRx (p : Part) (port : Nat) (h : LinkHead)
  /-- R279: A sender takes a NAK and resends from the named LSEQ, or ignores a stale one. -/
  | nakRx (p : Part) (port : Nat) (seq : Nat) (h : LinkHead)
  /-- R278: In WAIT the 2 us timer expires and the receiver sends the NAK again. -/
  | nakWaitTimer (p : Part) (port : Nat)
  /-- R279: The oldest unacknowledged packet waits 4 us and the sender resends from it. -/
  | retryTimeout (p : Part) (port : Nat)
  /-- R278: A port owing an acknowledgement or credit sends an ACK at least every 256 ns. -/
  | ackTimer (p : Part) (port : Nat)
  /-- R282: A Kresia applies and floods PLANE_LOST and routes packets to the member by the return route. -/
  | planeLostRx (n : PlaneNotice)
  /-- R282: A Kresia applies and floods PLANE_BACK and stops the return route. -/
  | planeBackRx (n : PlaneNotice)
  /-- R287: A write of KS_LEDGER_SNAP latches the conservation ledger and credit counts. -/
  | ledgerSnap (p : Part)
  /-- R284: A write of floors or ceilings is applied or refused with S_LINK_CREDIT_CFG. -/
  | creditCfgWrite (cls : Nat) (w : Word)
  /-- R288: Firmware starts bringing a port up by raising lane training. -/
  | portBringUp (p : Part) (port : Nat)
  /-- R288: SD_LOCK rises on every lane and the port proceeds to PCS and FEC lock and CAPS. -/
  | laneLock (p : Part) (port : Nat) (align : Nat) (skew : Int)
  /-- R407: SD_LOCK falls on an in-service port and the port leaves service. -/
  | sdLockLost (p : Part) (port : Nat)
  /-- R288: Every 10 us during bring-up an end sends CAPS until a CAPS_ACK arrives. -/
  | capsSendTimer (p : Part) (port : Nat)
  /-- R288: CAPS arrives; the end answers with CAPS_ACK. -/
  | capsRx (p : Part) (port : Nat) (c : Caps)
  /-- R288: CAPS_ACK arrives; the end sets VERSION, applies version, plane and cabling checks and runs the loopback check. -/
  | capsAckRx (p : Part) (port : Nat) (c : Caps) (tx : EdgeStamp) (rx : EdgeStamp)
  /-- R288: A port not in service 50 ms after bring-up starts again, and is held out after three failures. -/
  | trainTimeout (p : Part) (port : Nat)
  /-- R408: An in-service port sees no lane-marker strobe for two marker periods and drops out of time transfer. -/
  | lmsMissing (p : Part) (port : Nat)
  /-- R296: A write of COMMIT stores the pending gate list for SWAP_OT or refuses it. -/
  | gateListCommit (p : Part) (port : Nat)
  /-- R296: A write of CANCEL withdraws the pending gate list. -/
  | gateListCancel (p : Part) (port : Nat)
  /-- R297: SWAP_OT is reached, the pending list becomes active and queued packets are tested against it. -/
  | gateSwap (p : Part) (port : Nat)
  /-- R295: An entry boundary of the active list is reached and classes open or close. -/
  | gateBoundary (p : Part) (port : Nat)
  /-- R304: A write of SHAPE_EN, IDLE_SLOPE or HI_CREDIT takes effect or is refused. -/
  | shaperCfgWrite (p : Part) (port : Nat) (hi : Bool) (w : Word)
  /-- R298: A write of OVERHEAD sets a port's counted overhead or is refused. -/
  | overheadWrite (p : Part) (port : Nat) (w : Word)
  /-- R305: A write of SAMPLE_NS or SAMPLES is applied or refused. -/
  | qsampleCfgWrite (p : Part) (port : Nat) (count : Bool) (w : Word)
  /-- R305: Every SAMPLE_NS the port samples each class queue and latches a result after SAMPLES samples. -/
  | qsampleTick (p : Part) (port : Nat)
  /-- R306: A write of RETIRE with the current RESULT_SEQ clears READY. -/
  | qsampleRetire (p : Part) (port : Nat) (seq : Word)
  /-- R310: Every 1 ms each in-service port sends a heartbeat. -/
  | heartbeatSend (p : Part) (port : Nat)
  /-- R310: A heartbeat is received, and resumption after a loss is reported. -/
  | heartbeatRx (p : Part) (port : Nat) (h : Heartbeat)
  /-- R310: No heartbeat arrives for 5 ms and the port reports S_HB_LOST. -/
  | heartbeatLost (p : Part) (port : Nat)
  /-- R311: A leaf converts a Baxel TC1 report into an event record. -/
  | baxelReportRx (port : Nat) (r : BxReport)
  /-- R311: Every 100 ms a Kresia sends an S_KS_ALIVE event record. -/
  | ksAliveTimer
  /-- R312: Every 100 ms a Kresia resends unacknowledged event records on both ports. -/
  | eventResendTimer
  /-- R315: A Kresia applies the first copy of a newer FENCE or clear notice and floods it once. -/
  | fenceNoticeRx (n : FenceNotice)
  /-- R323: A chunk's copy commits at a retarget and the holder reports done after the last chunk. -/
  | remirrorChunkCommit (domain : Nat) (coll : Nat) (chunk : Nat)
  /-- R340: The junction stays above or below the limit for the stated time and the throttle level changes. -/
  | throttleLevelChange (up : Bool)
  /-- R348: The crown adds a Kresia's cupping partials and completes the record when all have reported. -/
  | cupPartialRx (m : CupPartial)
  /-- R348: A Kresia has not reported 1 s after the seal and the record completes INCOMPLETE. -/
  | cupIncompleteTimeout (domain : Nat) (step : Nat)
  /-- R351: A home takes a partner's per-chunk digests and completes cup.shard. -/
  | cupShardDigestsRx (m : ShardDigests)
  /-- R357: A counter or histogram configuration write is applied or refused. -/
  | ctrCfgWrite (p : Part) (v : View) (addr : Nat) (w : Word)
  /-- R359: A write of LATCH copies every counter and histogram of a bank into its read words. -/
  | ctrLatch (p : Part) (v : View) (addr : Nat) (w : Word)
  /-- R359: A write of CLEAR zeroes every counter and histogram of a bank. -/
  | ctrClear (p : Part) (v : View) (addr : Nat) (w : Word)
  /-- R362: A part takes the first SNAP copy and converts T as a pending due time, or captures late at once. -/
  | snapRx (p : Part) (x : SnapMsg)
  /-- R362: The first cycle edge at or after T is reached and the part captures its selectors into a record. -/
  | snapCapture (p : Part)
  /-- R364: A write of SNAP_RETIRE retires the head snapshot record or sets RETIRE_MISMATCH. -/
  | snapRetire (p : Part) (v : View) (seq : Word)
  /-- R366: A tag configuration write is applied or refused with S_TAG_CFG. -/
  | tagCfgWrite (p : Part) (addr : Nat) (w : Word)
  /-- R368: A write of TAG_POP retires tag records. -/
  | tagPop (p : Part) (n : Nat)
  /-- R406: RST_N asserts and every register, slot, object and port returns to reset. -/
  | resetAssert (p : Part)
  /-- R441: RST_N deasserts; straps are sampled, the PLL locks and the boot ROM starts. -/
  | resetDeassert (x : BootStraps)
  /-- R374: A write of BOOT_GO makes the Baxel boot ROM read and verify the image. -/
  | bootGo (v : View) (w : Word)
  /-- R372: The boot ROM finishes verifying an image and starts firmware or reports failure. -/
  | bootVerifyDone (x : BootInput)
  /-- R373: Firmware starts serving, sets MBOX_IF to 0x03 and takes held doorbells. -/
  | fwReady (p : Part)
  /-- R375: The watchdog expires and the core restarts from the held image. -/
  | watchdogExpiry (p : Part)
  /-- R380: A write to DOORBELL captures and locks a command slot, or is refused for a locked slot. -/
  | mboxDoorbell (p : Part) (v : View) (m : Nat) (w : Word)
  /-- R382: A write to RETIRE clears READY and unlocks a slot, or sets RETIRE_MISMATCH. -/
  | mboxRetire (p : Part) (v : View) (m : Nat) (w : Word)
  /-- R388: A command datagram arrives, writes and rings its slot, is treated as a resend, or is discarded. -/
  | mboxDatagramRx (x : Datagram)
  /-- R388: A retire datagram acts as RETIRE and is answered with a retire acknowledgement. -/
  | retireDatagramRx (x : Datagram)
  /-- R395: A write to a register with no row of its own is performed or refused by view, tag or core-only rules. -/
  | registerWrite (p : Part) (v : View) (addr : Nat) (w : Word)
  /-- R391: mbox.hello returns the interface and firmware versions. -/
  | mboxHello (p : Part) (m k : Nat)
  /-- R377: mbox.bind binds a mailbox to a domain and source. -/
  | mboxBind (p : Part) (m k : Nat)
  /-- R377: mbox.unbind unbinds a mailbox and frees its stage areas. -/
  | mboxUnbind (p : Part) (m k : Nat)
  /-- R391: reg.read returns register words of the Kresia map. -/
  | regRead (p : Part) (m k : Nat)
  /-- R391: reg.write writes register words of the Kresia map. -/
  | regWrite (p : Part) (m k : Nat)
  /-- R390: stage.alloc allocates a stage area. -/
  | stageAlloc (p : Part) (m k : Nat)
  /-- R390: stage.put writes inline bytes into a stage area. -/
  | stagePut (p : Part) (m k : Nat)
  /-- R390: stage.get returns bytes of a stage area inline. -/
  | stageGet (p : Part) (m k : Nat)
  /-- R390: stage.free frees a stage area. -/
  | stageFree (p : Part) (m k : Nat)
  /-- R391: time.read returns raw, OT, state and UTC offset. -/
  | timeRead (p : Part) (m k : Nat)
  /-- R48: time.free_start starts a hall with a stated OT and no absolute reference. -/
  | timeFreeStart (p : Part) (m k : Nat)
  /-- R58: time.root_resume makes the primary time crown resume the root. -/
  | timeRootResume (p : Part) (m k : Nat)
  /-- R56: time.swap_cal records theta_a or theta_b and writes ASYM. -/
  | timeSwapCal (p : Part) (m k : Nat)
  /-- R45: time.source_order reorders the time crown's source priorities. -/
  | timeSourceOrder (p : Part) (m k : Nat)
  /-- R15: member.admit admits a die, checking failure domains, lock and identity. -/
  | memberAdmit (p : Part) (m k : Nat)
  /-- R16: member.retire retires a member identifier. -/
  | memberRetire (p : Part) (m k : Nat)
  /-- R17: domain.create creates a domain from a position map and binds tenants. -/
  | domainCreate (p : Part) (m k : Nat) (v2 : List Nat) (elsewhere : List (Nat × Nat))
  /-- R391: domain.destroy removes a domain that has no program loaded. -/
  | domainDestroy (p : Part) (m k : Nat)
  /-- R18: tenant.unbind withdraws one tenant from its domain. -/
  | tenantUnbind (p : Part) (m k : Nat)
  /-- R114: tenant.fault faults a tenant with a stated cause. -/
  | tenantFault (p : Part) (m k : Nat)
  /-- R115: tenant.recover clears FAULTED and POISON and resets poisoned objects. -/
  | tenantRecover (p : Part) (m k : Nat)
  /-- R391: obj.op performs an object operation on a cluster object. -/
  | objOp (p : Part) (m k : Nat)
  /-- R166: prog.load checks a staged image and distributes it. -/
  | progLoad (p : Part) (m k : Nat) (f : LoadFacts)
  /-- R169: prog.replace checks a new image and schedules a switch at SWITCH_STEP. -/
  | progReplace (p : Part) (m k : Nat) (f : LoadFacts)
  /-- R169: prog.cancel withdraws a pending replace. -/
  | progCancel (p : Part) (m k : Nat)
  /-- R171: prog.unload stops arming and frees the program once the last tamped step seals. -/
  | progUnload (p : Part) (m k : Nat)
  /-- R105: bell.change arms and tamps a cancel or period change of a running bell series. -/
  | bellChange (p : Part) (m k : Nat)
  /-- R227: shard.write writes shard or region contents from a stage area. -/
  | shardWrite (p : Part) (m k : Nat) (held : Bool)
  /-- R227: shard.read returns shard contents as of each chunk's last commit. -/
  | shardRead (p : Part) (m k : Nat)
  /-- R230: scalar.set sends a host scalar value for FROM_STEP to every Kresia of the domain. -/
  | scalarSet (p : Part) (m k : Nat)
  /-- R315: fence.set applies a fence at a Kresia's ports and floods the notice. -/
  | fenceSet (p : Part) (m k : Nat)
  /-- R317: fence.clear lifts a fence and floods the clear notice. -/
  | fenceClear (p : Part) (m k : Nat)
  /-- R322: mirror.promote turns a partner's mirrors of a failed home into primaries. -/
  | mirrorPromote (p : Part) (m k : Nat)
  /-- R323: mirror.retarget starts copying a holder's shards to a new target. -/
  | mirrorRetarget (p : Part) (m k : Nat) (room service : Bool)
  /-- R325: home.move moves a home-list element to a new home at step n. -/
  | homeMove (p : Part) (m k : Nat) (copied : Bool)
  /-- R329: spare.bind places an admitted die in a vacant position. -/
  | spareBind (p : Part) (m k : Nat) (x : SpareFacts)
  /-- R330: spare.fill sends sealed outputs and pour parts to a bound spare. -/
  | spareFill (p : Part) (m k : Nat) (held : Bool)
  /-- R331: domain.release releases a HELD domain with no vacant position. -/
  | domainRelease (p : Part) (m k : Nat)
  /-- R328: domain.rollback restores a HELD domain to a completed checkpoint. -/
  | domainRollback (p : Part) (m k : Nat) (completed : Bool)
  /-- R313: member.suspect files a suspicion and changes nothing else. -/
  | memberSuspect (p : Part) (m k : Nat)
  /-- R312: evt.ack acknowledges event records up to an EVT_SEQ. -/
  | evtAck (p : Part) (m k : Nat)
  /-- R327: ckpt.credit grants checkpoint ring slots to homes. -/
  | ckptCredit (p : Part) (m k : Nat)
  /-- R107: crown.promote makes a deputy the crown once the old crown is fenced. -/
  | crownPromote (p : Part) (m k : Nat)
  /-- R345: cup.config sets CUP_PERIOD and FROM_STEP for a domain. -/
  | cupConfig (p : Part) (m k : Nat)
  /-- R350: cup.read returns a cupping record or a Kresia's partials. -/
  | cupRead (p : Part) (m k : Nat)
  /-- R350: cup.retire frees a cupping record and every older one. -/
  | cupRetire (p : Part) (m k : Nat)
  /-- R351: cup.shard compares primary and mirror digests over a chunk range. -/
  | cupShard (p : Part) (m k : Nat)
  /-- R391: ctr.read returns the values of up to seven counter selectors. -/
  | ctrRead (p : Part) (m k : Nat)
  /-- R365: snap.arm arms an operator snapshot at T. -/
  | snapArm (p : Part) (m k : Nat)
  /-- R364: snap.read returns a stored snapshot record. -/
  | snapRead (p : Part) (m k : Nat)
  /-- R405: REFCLK stops or leaves range and Baxel voids slots, stops its counter and takes every port out of service. -/
  | refclkLost
  /-- R411: Read data arrives on a memory port for an outstanding read. -/
  | memReadData (port : Nat) (id : Nat) (data : List Byte) (err : Bool)
  /-- R414: A memory request has no response 1 ms after acceptance and faults its tenant. -/
  | memPortTimeout (rd : Bool) (port : Nat) (id : Nat)
  /-- R434: PWR_GOOD falls and the Kresia takes its internal reset. -/
  | pwrGoodDrop
  /-- R435: Every 100 ms firmware reads the lid sensors and reports S_COOLANT after 1 s out of range. -/
  | coolantCheck (inlet : Int) (flow : Nat)
  /-- R438: The junction or a stack reaches its trip temperature and the Kresia drives THERM_TRIP_N and takes every port out. -/
  | thermalTrip
  /-- R443: A stack reports an uncorrectable error, and too many in an hour mark the Kresia MEM_FAILED. -/
  | memUncorrectable (stack : Nat) (training : Bool)
  /-- R443: A brim die reports an internal fault and its lanes and stacks leave service. -/
  | brimFailed (brim : Nat)
  /-- R208: The 1 us hold-off after a CHUNK_BASE notice ends and a notice for a BASE that advanced meanwhile is multicast. -/
  | chunkBaseNoticeTimer (domain : Nat) (coll : Nat) (role : Nat) (step : Nat)
  /-- R265: The assignment engine finishes a layer and takes the next layer queued in KS_DSP_QUEUED. -/
  | dspAssignEngineFree
  /-- R303: A shaped class's CREDIT rises to 0 while its packet waits, and the class becomes eligible to start a packet. -/
  | shaperCreditRecovered (p : Part) (port : Nat) (cls : Nat)
  /-- R415: A TAMPED slot's raw due comes within 256 ns and Baxel raises LP_VALID with its descriptor. -/
  | launchDescriptorPresent (t : Nat) (slot : Nat)
  /-- R230: A Kresia takes a host scalar value sent by the crown on TC6, keeps it among its pending values and acknowledges it. -/
  | scalarValueRx (x : ScalarValue)
  /-- R230: The crown takes a Kresia's acknowledgement of a scalar value and, once all have acknowledged, completes scalar.set and stops deferring the barrier. -/
  | scalarAckRx (x : ScalarValue) (node : Nat)
  /-- R171: The crown learns that a Kresia or Baxel has freed the unloaded program, and completes prog.unload when all have. -/
  | programFreedRx (a : LoadAck)
  /-- R327: A home takes a checkpoint slot grant that the target Baxel's firmware carried on TC1, and may stream a chunk into that slot. -/
  | ckptGrantRx (x : CkptGrant)
  /-- R17: A Baxel takes the binding or unbinding of one of its tenants to a domain and sets its STATE and DOMAIN. -/
  | tenantBindingRx (x : Binding)
  /-- R392: A Baxel takes its first admission from a leaf and sets BX_MEMBER_ID with VALID. -/
  | memberAdmissionRx (port member : Nat) (retired : Bool)
  /-- R262: A dispatch leaf takes from the plan home the placements of the tokens it delivered and multicasts DSP_GO to those members. -/
  | dspPlacementsRx (p : DspPlacements)
  /-- R198: A read of a read-clears high-water register such as KS_FELT_HWM returns it and reloads it with the current value. -/
  | rcRegisterRead (addr : Nat)
  /-- R359: A read of the low word of a 64-bit counter latches its high word for the following read. -/
  | lowWordRead (p : Part) (v : View) (addr : Nat)
  deriving DecidableEq, Repr

end Sys2Proof
end

