-- ==== Sys2Proof/Decode.lean ====
section
/-! DEFINITION. The decoder of the block's words. A command of these parts is a register write or read, a message on
a link, an event on a pin or the passing of a time; no row of the command table carries bits, so no word spells one. -/

namespace Sys2Proof

/-- The command a word of the table's bits spells. The table gives no row any bits, so there is none. -/
def decodeTableWord (_nbits _w : Nat) : Option Instr := none

end Sys2Proof
end

