-- ==== Sys2Proof/Config.lean ====
section
/-! DEFINITION. What the manual leaves open and the machine goes on with: opaque constants, so no proof can see a
value. Each is named in the assumption log. -/

namespace Sys2Proof.Config

/-- The n-th free value: a choice the manual leaves to the part (log 1). -/
opaque freeValue : Nat → Nat

/-- R372: whether a signature (r then s, as one number of 96 bytes) is a valid ECDSA P-384 signature of a digest under ROM
key k. The ROM keys are not in the manual (log 2). -/
opaque signatureValid : (key : Nat) → (digest : Nat) → (signature : Nat) → Bool

/-- R47: the RATE the 0.1 Hz PTP loop of a time crown commits, from the offset of the interval and the RATE in force;
the manual gives the loop's bandwidth only (log 3). -/
opaque ptpRate : (theta : Int) → (rate : Int) → Int

/-- R45: the RATE a time crown commits under a frequency input's reading, from the RATE in force; the manual says that the input
steers RATE (log 3). -/
opaque freqRate : (reading : Int) → (rate : Int) → Int

/-- R45, R47: the grains by which the 0.1 Hz loop of a time crown moves OFFSET_OT for the phase offset of an interval; the manual
gives the loop's bandwidth only (log 3). -/
opaque phaseStep : (theta : Int) → Int

/-- R74: whether an edge with this raw stamp, between 3.9 ns and 4.0 ns after the last recorded one, is refused
(log 5). -/
opaque closeChoice : (raw : Nat) → Bool

/-- R225: where firmware places, in units of 4 KiB, stream `area` of a collective's shard, or its result area (8)
(log 41). -/
opaque arrayBase : (domain coll area : Nat) → Nat

/-- R249: the store index at which firmware loads the program of a collective (log 41). -/
opaque progFirst : (domain coll : Nat) → Nat

/-- R205: the spine of its pod, from 0, by which a Kresia sends the packets of a part of (domain, collective, chunk, sender) to a
home that it does not face; the manual says that all of them take one path (log 154). -/
opaque partPath : (domain coll chunk sender : Nat) → Nat

end Sys2Proof.Config
end

