-- ==== Sys2Proof/Machine/FMap.lean ====
section
/-! DEFINITION. Reading and writing the sparse keyed maps: keys stay strictly rising, so equal maps are equal data. -/

namespace Sys2Proof

/-- The value under key k. -/
def FMap.find? {α : Type} : FMap α → Nat → Option α
  | [], _ => none
  | (j, v) :: t, k => if j = k then some v else FMap.find? t k

/-- The value under key k, or d where nothing is listed. -/
def FMap.getD {α : Type} (m : FMap α) (k : Nat) (d : α) : α := (FMap.find? m k).getD d

/-- Whether key k is listed. -/
def FMap.has {α : Type} (m : FMap α) (k : Nat) : Bool := (FMap.find? m k).isSome

/-- m with v under key k. -/
def FMap.set {α : Type} : FMap α → Nat → α → FMap α
  | [], k, v => [(k, v)]
  | (j, w) :: t, k, v =>
    if k < j then (k, v) :: (j, w) :: t
    else if k = j then (k, v) :: t
    else (j, w) :: FMap.set t k v

/-- m with nothing under key k. -/
def FMap.erase {α : Type} : FMap α → Nat → FMap α
  | [], _ => []
  | (j, w) :: t, k => if j = k then FMap.erase t k else (j, w) :: FMap.erase t k

/-- m with the value under key k (or d) changed by f. -/
def FMap.update {α : Type} (m : FMap α) (k : Nat) (d : α) (f : α → α) : FMap α :=
  FMap.set m k (f (FMap.getD m k d))

/-- m with f applied to every listed value. -/
def FMap.mapVals {α : Type} (m : FMap α) (f : Nat → α → α) : FMap α := m.map fun (k, v) => (k, f k v)

/-- The pairs whose key and value satisfy p. -/
def FMap.keep {α : Type} (m : FMap α) (p : Nat → α → Bool) : FMap α := m.filter fun (k, v) => p k v

/-- x put into a list ordered by le, before the first element it does not follow. -/
def insertBy {α : Type} (le : α → α → Bool) (x : α) : List α → List α
  | [] => [x]
  | y :: t => if le x y then x :: y :: t else y :: insertBy le x t

/-- The list ordered by le; elements that le does not tell apart keep their order. -/
def sortBy {α : Type} (le : α → α → Bool) (l : List α) : List α := l.foldr (insertBy le) []

/-- The canonical form: keys strictly rising. -/
def FMap.wf {α : Type} : FMap α → Bool
  | [] => true
  | [_] => true
  | (j, _) :: (k, w) :: t => j < k && FMap.wf ((k, w) :: t)

end Sys2Proof
end

