-- ==== Sys2Proof/Machine/State.lean ====
section
/-! DEFINITION. The state of the model: one Baxel and one Kresia with everything the manual gives them, the queue of
commands that wait, the outputs driven so far and the counter of free values; the reasons a step can stop; reset. -/

namespace Sys2Proof.Machine


/-! ### Time (R28 to R65) -/

/-- R29: a parameter set. RATE is the signed 48-bit value in units of 2^-48. -/
structure ParamSet where
  offset : OT := .zero
  rawRef : Raw := 0
  rate : Int := 0
  deriving DecidableEq, Repr

/-- R32: an accepted commit waiting for its APPLY_RAW, with the time state the servo gives it (R59). -/
structure Commit where
  set : ParamSet
  applyRaw : Raw
  toState : Option TimeState := none
  deriving DecidableEq, Repr

/-- R34, R37: a pending due time: its OT, the raw due under the set in force, the raw due under a committed set, and
PASSED of its conversion (R40). -/
structure Due where
  ot : OT
  raw : Raw
  next : Option Raw := none
  passed : Bool := false
  deriving DecidableEq, Repr

/-- R41: one latch bank of the fast-read block. -/
structure FtBank where
  raw : Raw := 0
  ot : OT := .zero
  status : Word := 0
  applySeq : Word := 0
  deriving DecidableEq, Repr

/-- A transmit stamp a port remembers for its exchanges (t3 of R49) and whether the cell was retransmitted (R51). No stamp
where the transmit TDC gave none (R66). -/
structure TxMark where
  ot : Option OT := none
  retried : Bool := false
  applySeq : Nat := 0
  raw : Raw := 0
  deriving DecidableEq, Repr

/-- What a port remembers of time transfer (R49 to R57). The registers of R65 stand in the register file. -/
structure PortTime where
  /-- Sequence of the last cell sent, and the stamps of the cells sent whose answer may still come. -/
  txSeq : Nat := 0
  txMarks : FMap TxMark := []
  prevRetried : Bool := false
  /-- Last good peer cell, with its arrival stamp in own time (t2), own APPLY_SEQ then, and when it arrived. -/
  peer : Option TimeCell := none
  rxOt : OT := .zero
  rxApplySeq : Nat := 0
  rxRaw : Raw := 0
  /-- Whether the receive TDC stamped that cell (R66): a calibrating or FAILED one does not. -/
  rxStamped : Bool := false
  /-- Own time when it arrived, for the age of a candidate (R57). -/
  heard : Raw := 0
  /-- Sum and count of the kept exchanges of the running servo interval (R52). -/
  thetaSum : Int := 0
  kept : Nat := 0
  /-- Whether a TDC at either end calibrated in the running interval (R57). -/
  calInterval : Bool := false
  /-- θ_p of the last interval, when there was one. -/
  thetaP : Option Int := none
  /-- Consecutive intervals without θ_p that count under R57, and the rejection count of R61. -/
  missed : Nat := 0
  rejected : Nat := 0
  /-- R409: bits into its word at which the receive marker begins, and the lane rate in Mb/s. -/
  rxAlign : Nat := 0
  laneRate : Nat := 212500
  /-- R55: the lane skew measured at bring-up, half of the forward minus the reverse delay in grains. -/
  skew : Int := 0
  /-- R56: θ_p summed over servo intervals with ASYM = 0, and θ_a. -/
  swapSum : Int := 0
  swapCount : Nat := 0
  thetaA : Option Int := none
  /-- R56: the phase whose 1,024 intervals are being taken. -/
  swapPhase : Option Nat := none
  deriving DecidableEq, Repr

/-- R46: one PTP port (MGMT_A or MGMT_B) of a Kresia. -/
structure PtpPort where
  /-- Operator configuration: a master port to other equipment; localPriority of the alternate BMCA (log 126). -/
  master : Bool := false
  localPriority : Nat := 128
  /-- The last Announce heard, the stamps of an exchange under way, the offset it gave and when the port last gave one. -/
  announced : Option PtpAnnounce := none
  syncOrigin : Option OT := none
  syncRx : Option OT := none
  reqTx : Option OT := none
  theta : Option Int := none
  heard : Option Raw := none
  /-- R46: quality level of the port's SyncE by ESMC. -/
  ql : Option Nat := none
  deriving DecidableEq, Repr

/-- R45, R47: what a Kresia holds as time crown or candidate for it. -/
structure TimeCrown where
  /-- Operator configuration: 0 ordinary node, 1 primary, 2 secondary time crown (R43). -/
  role : Nat := 0
  /-- Whether this hall's primary is the site root (R43). -/
  siteRoot : Bool := false
  /-- Holding the root now. -/
  isRoot : Bool := false
  freeStarted : Bool := false
  phaseOrder : List PhaseSource := [.ptp, .pps, .none]
  freqOrder : List FreqSource := [.syncE, .fref, .ptpRate, .board]
  /-- An order commanded and waiting for the next servo interval (R391). -/
  nextOrder : Option (List PhaseSource × List FreqSource) := none
  /-- R46: the two PTP ports, and the domain number the operator configured. -/
  ptp : FMap PtpPort := []
  ptpDomain : Nat := 24
  /-- Last offset from 1PPS with time of day, and when it was heard. -/
  ppsTheta : Option Int := none
  ppsRaw : Option Raw := none
  ppsStamp : Option Raw := none
  tod : Option OT := none
  /-- When firmware started (R48), and whether the missing source was reported. -/
  fwStartRaw : Option Raw := none
  noSourceReported : Bool := false
  lastPrimaryRaw : Option Raw := none
  deriving DecidableEq, Repr

/-- The time unit of one part: raw counter, parameter sets, servo, time tree. -/
structure TimeUnit where
  raw : Raw := 0
  active : ParamSet := {}
  /-- The set in force before the last application, with that APPLY_RAW (R33). -/
  prev : Option (ParamSet × Raw) := none
  committed : Option Commit := none
  state : TimeState := .unset
  wrapped : Bool := false
  banks : FMap FtBank := []
  /-- Servo memory (R59). -/
  rateFreq : Int := 0
  good : Nat := 0
  bad : Nat := 0
  noTheta : Nat := 0
  theta : Int := 0
  ports : FMap PortTime := []
  /-- Parent choice (R57, R63): parent, monitors, arrival of the first candidate cell. -/
  parent : Option Nat := none
  monitors : List Nat := []
  firstCand : Option Raw := none
  depth : Nat := 15
  rootPrio : Nat := 0
  rootId : Nat := 0
  rootEpoch : Nat := 0
  gmTraceable : Bool := false
  holdoverFlag : Bool := false
  utcOffset : BitVec 16 := 0
  clockClass : Nat := 0
  gmId : BitVec 64 := 0
  crown : TimeCrown := {}
  deriving DecidableEq, Repr

/-! ### Stamps, gates, frequency, transmit timestamps and calibration (R66 to R88) -/

/-- R69 to R72: one TDC. No table: the nominal one of R72. -/
structure Tdc where
  table : Option (List Nat) := none
  passed : Bool := false
  kLast : Nat := 0
  failed : Bool := false
  tempLast : Int := 0
  runs : Nat := 0
  fails : Nat := 0
  consecFails : Nat := 0
  lastCode : Code := 0
  cause : Nat := 0
  calibrating : Bool := false
  runStart : Raw := 0
  lastRun : Option Raw := none
  deriving DecidableEq, Repr

/-- R79: one record of a stamp queue. -/
structure StampRec where
  raw : Raw
  ot : OT
  edgeSeq : Nat
  gateSeq : Nat
  flags : Nat
  code : Nat
  state : Nat
  applySeq : Nat
  channel : Nat
  deriving DecidableEq, Repr

/-- R76: an edge held until the gate's next transition is stamped, with what its record carries (R79). -/
structure HeldEdge where
  raw : Raw
  ot : OT
  falling : Bool
  code : Nat
  tdcB : Bool
  uncal : Bool
  state : Nat
  applySeq : Nat
  deriving DecidableEq, Repr

/-- R73 to R82: one stamp channel. Its registers stand in the register file. -/
structure StampChannel where
  queue : List StampRec := []
  held : List HeldEdge := []
  lastRecorded : Option Raw := none
  /-- Qualifying edges since the opening (32-bit, R84), and records that entered the queue since it. -/
  edges : Nat := 0
  recs : Nat := 0
  /-- The prescaler has skipped since the last record (DIV_SKIP of R79), and EDGE_SEQ of the last record (GAP). -/
  skipped : Bool := false
  prevSeq : Option Nat := none
  /-- R73: the pulse under way is a runt, so its trailing edge is none either. -/
  dropNext : Bool := false
  deriving DecidableEq, Repr

/-- R75 to R77: one gate. -/
structure StampGate where
  isOpen : Bool := false
  tOpen : Raw := 0
  window : Option (Due × Due) := none
  /-- R75: windows armed behind it, one opening each. -/
  more : List (Due × Due) := []
  /-- The next external edge ends a suppressed phase and is dropped too (R77). -/
  dropNext : Bool := false
  deriving DecidableEq, Repr

/-- R83, R84: one frequency engine. The stamps it takes are those the channel records in the opening. -/
structure FreqEngine where
  armed : Bool := false
  running : Bool := false
  stepSeen : Bool := false
  runtStart : Word := 0
  deriving DecidableEq, Repr

/-- R86: one entry of the transmit-timestamp queue. -/
structure TxqEntry where
  raw : Raw
  ident : Nat
  port : Nat
  kind : Nat
  applySeq : Nat
  flags : Nat
  deriving DecidableEq, Repr

/-- The stamp unit of one part. -/
structure StampUnit where
  chans : FMap StampChannel := []
  gates : FMap StampGate := []
  freqs : FMap FreqEngine := []
  txq : List TxqEntry := []
  tdcs : FMap Tdc := []
  /-- For a pair, by the index of its TDC A: TDC B is in service. -/
  serviceB : FMap Bool := []
  /-- TDCs whose run is queued behind a run in progress (R71). -/
  calQueue : List Nat := []
  /-- Time-island temperature, signed, in 1/16 °C. -/
  temp : Int := 0
  deriving DecidableEq, Repr

/-! ### Posts, parts and reads of a Baxel (R203, R204, R217, R218, R252, R253, R264) -/

/-- R203: one post of a tenant; `left` holds the chunks not yet started. -/
structure BxPost where
  coll : Nat
  left : List Nat
  addr : Nat := 0
  entries : Nat := 0
  step : Nat
  epoch : Nat
  deriving DecidableEq, Repr

/-- R204, R217, R218: one part of a Baxel, from the reading of its data up to its release by CHUNK_DONE. -/
structure BxPart where
  tenant : Nat
  coll : Nat
  chunk : Nat
  addr : Nat
  entries : Nat := 0
  step : Nat
  epoch : Nat
  restart : Nat := 0
  /-- Whether it has been sent, when its first packet went and by which port, and whether it goes as a detour part. -/
  sent : Bool := false
  first : Option (Raw × Nat) := none
  detour : Bool := false
  /-- What its read has brought, while it waits for its turn in the queue. -/
  data : Option (List Byte) := none
  deriving DecidableEq, Repr

/-- R253: one post of a layer: 0 waits for DSP_OPEN; 1 its records are read; 2 its list and END have gone; 3 its payloads
have gone. `recs` keeps the records read, for R266. -/
structure DspPost where
  layer : Nat
  n : Nat
  step : Nat
  epoch : Nat
  restart : Nat := 0
  state : Nat := 0
  recs : List Byte := []
  deriving DecidableEq, Repr

/-- What bytes read from die memory are for: a part; the records or a token's payload of a post; the host block of a
layer and group, or a slot's output with the place it returns to (R264). -/
inductive ReadUse where
  | part (id : Nat)
  | records (layer step epoch : Nat)
  | payload (layer step epoch token : Nat)
  | hostBlock (layer group step epoch : Nat)
  | slotOut (layer step epoch source addr : Nat)
  /-- R374: the header of the boot image, then the image; R365: the selectors of a `snap.arm` in mailbox m, slot k. -/
  | boot (whole : Bool)
  | arm (m k : Nat)
  deriving DecidableEq, Repr

/-- R411: bytes being read line by line: the lines requested so far, and those that have come, by line number. -/
structure ReadJob where
  tenant : Nat
  use : ReadUse
  addr : Nat
  bytes : Nat
  asked : Nat := 0
  data : FMap (List Byte) := []
  failed : Bool := false
  /-- R411: a read of the ROM or firmware: privileged, by port 0. -/
  core : Bool := false
  deriving DecidableEq, Repr


/-! ### Baxel launch (R89 to R118) -/

/-- R89: the states of a launch-list slot, in the order of their codes. -/
inductive SlotState where
  | free | loaded | armed | tamped | waiting | fired | void | bellRun
  deriving DecidableEq, Repr

/-- R105: a change of a running bell series, held beside it until its AT. -/
structure BellChange where
  cancel : Bool
  at' : Due
  w : Due
  period : Nat
  count : Nat
  epoch : Nat
  step : Nat
  seq : Nat
  tamped : Bool := false
  deriving DecidableEq, Repr

/-- R89: one launch-list slot: template, arm fields, and what Baxel keeps of its firing. -/
structure Slot where
  tmpl : Template := {}
  due : OT := .zero
  state : SlotState := .free
  step : Nat := 0
  epoch : Nat := 0
  seq : Nat := 0
  period : Nat := 0
  bellCount : Nat := 0
  /-- R102: the raw due and W, pending due times under R34. For a bell, the due of its next bell. -/
  dueD : Option Due := none
  wD : Option Due := none
  /-- Number of the next bell of the series (R24). -/
  bellK : Nat := 0
  change : Option BellChange := none
  /-- R415: descriptor presented, raw value of its acceptance, and a fire held by the channel (R110). -/
  presented : Bool := false
  accepted : Option Raw := none
  held : Bool := false
  /-- A fire that comes after DUE (R108, R110). -/
  late : Bool := false
  /-- STEER_EN, M and N under which the slot was accepted (R416). -/
  steer : Option (Nat × Nat) := none
  /-- Void of a bell series: the next grid instant at which no bell fired, counted up to the replay (R104). -/
  voidGrid : Option (OT × Nat) := none
  deriving DecidableEq, Repr

/-- One entry of a take-completion queue (R130). -/
structure TcqEntry where
  tag : Nat
  obj : Nat
  code : Code
  deriving DecidableEq, Repr

/-- What a Baxel holds of one tenant. -/
structure Tenant where
  domain : Option Nat := none
  faulted : Bool := false
  /-- R93: epoch E, highest accepted sequence H and the seen map. -/
  epoch : Nat := 0
  hseq : BitVec 32 := 0
  seen : BitVec 64 := 0
  /-- R94: the step the last arm or void named, and STEP_FIRST of the loaded program. -/
  named : Option Nat := none
  stepFirst : Option Nat := none
  /-- R169: STEP_FIRST of a pending program. -/
  pendFirst : Option Nat := none
  tcq : List TcqEntry := []
  /-- R167, R361: the program's sections as firmware holds them, the tenant's position, and home-list elements moved
  (kind, record, element, home, from step). -/
  prog : List Byte := []
  /-- The program before the last load: it holds for steps before STEP_FIRST of the new one (R169). -/
  priorProg : List Byte := []
  /-- R169: the objects of a pending program, set with the first arm of its steps. -/
  pendObjs : List ObjDecl := []
  position : Nat := 0
  moves : List (Nat × Nat × Nat × Nat × Nat) := []
  /-- R202: GROUP and down port of the position. -/
  group : Nat := 0
  port : Nat := 0
  peers : List (Nat × Nat) := []
  v2Peers : List Nat := []
  posts : List BxPost := []
  dspPosts : List DspPost := []
  /-- R253: the layers opened, with step and epoch. -/
  dspOpens : List (Nat × Nat × Nat) := []
  /-- Step of the tenant's most recent fire in the domain (R203). -/
  firedStep : Option Nat := none
  /-- Cycle of the last fire (R110) and the level of LP_GO. -/
  lastFire : Option Raw := none
  /-- R392: ring slots handed to each home in the checkpoint in hand, under collective × 2^16 + home-list element. -/
  ckptGiven : FMap Nat := []
  lpGo : Bool := false
  deriving DecidableEq, Repr

/-! ### Objects and signalled transfers (R120 to R145, R450) -/

/-- R123: one waiter of an object. `owner` is the tenant of a local object's waiter, the domain of a cluster one's. -/
structure Waiter where
  source : WaiterSource
  tag : Nat
  owner : Nat
  n : Nat
  issued : Raw
  timeoutUs : Nat := 0
  deriving DecidableEq, Repr

/-- R121, R133, R143: one object. -/
structure Obj where
  value : Nat := 0
  poison : Bool := false
  poisonCode : Code := 0
  init : Nat := 0
  replay : Bool := false
  waiters : List Waiter := []
  lastSrc : Nat := 0
  srcKind : Nat := 0
  lastPath : Nat := 15
  lastSeq : Nat := 0
  lastOt : OT := .zero
  sigCount : Word := 0
  /-- R123: the cycle in which a waiter was served last. -/
  servedAt : Option Raw := none
  /-- Cluster objects: the owning domain. -/
  domain : Option Nat := none
  deriving DecidableEq, Repr

/-- R138: one receive tracker. -/
structure Tracker where
  src : Nat
  transfer : Nat
  domain : Nat
  epoch : Nat
  landed : BitVec 256 := 0
  acked : Nat := 0
  last : Bool := false
  lastIndex : Nat := 0
  declared : Nat := 0
  sigObj : Nat := 0
  sigN : Nat := 0
  lastPort : Nat := 0
  maxIndex : Nat := 0
  /-- Payload bytes written so far, acknowledged or not. -/
  written : Nat := 0
  opened : Raw
  lastRaw : Raw
  /-- R140: closed as overrun and waiting for its packets to stop. -/
  overrun : Bool := false
  /-- A mirror transfer of a chunk (R319): staging slot key. -/
  mirror : Option MirrorTag := none
  deriving DecidableEq, Repr

/-- R137: one open transfer at its sender. `what` says what the transfer carries, for its RW_DONE. -/
structure SendTransfer where
  receiver : Nat
  domain : Nat
  epoch : Nat
  transfer : Nat
  opened : Raw
  cls : Nat
  what : Nat := 0
  key : Nat := 0
  /-- R139: a Baxel's transfer as it went, for its resending, and the plane each of its packets was sent on. -/
  msg : Option RsigSend := none
  via : List Nat := []
  /-- R142: it went over one plane with a signal packet behind it, and no RW_DONE answers it. -/
  v2 : Bool := false
  deriving DecidableEq, Repr

/-- What an outstanding memory-port write of a Baxel serves. -/
inductive MemUse where
  | rsig (key lport : Nat) | ring (ch : Nat) | v2 (port : Nat) | landed | command (m k : Nat) | boot
  | job (id line : Nat)
  deriving DecidableEq, Repr

/-- R411: one outstanding request of a memory port. -/
structure MemReq where
  addr : Nat
  bytes : Nat
  tag : Nat
  use : MemUse
  issued : Raw
  timedOut : Bool := false
  /-- R411: the data of a write that waits for its port to hold fewer than 256. -/
  data : List Byte := []
  deriving DecidableEq, Repr

/-- R142: a Ploav 2 signal waiting until every earlier write of its port is acknowledged. -/
structure V2Wait where
  port : Nat
  domain : Nat
  obj : Nat
  n : Nat
  src : Nat
  seq : Nat
  writes : List Nat
  deriving DecidableEq, Repr

/-- R167: what a Baxel held before the last template load of a domain, for its withdrawal: the slots and objects the load
wrote, and the tenant. -/
structure Prior where
  replace : Bool
  slots : List (Nat × Slot)
  objs : List (Nat × Obj)
  ten : Tenant
  deriving DecidableEq, Repr

/-! ### Counters, histograms, snapshots and tags (R354 to R370) -/

/-- R356, R357: one programmable counter: its configuration and its 64-bit value. -/
structure Ctr where
  event : Nat := 0
  mode : Nat := 0
  port : Nat := 0
  portEn : Bool := false
  ten : Nat := 0
  tenEn : Bool := false
  dom : Nat := 0
  domEn : Bool := false
  cls : Nat := 0
  clsEn : Bool := false
  thresh : Nat := 0
  value : BitVec 64 := 0
  deriving DecidableEq, Repr

/-- R360: one latency histogram. -/
structure Hist where
  event : Nat := 0
  port : Nat := 0
  portEn : Bool := false
  dom : Nat := 0
  domEn : Bool := false
  cls : Nat := 0
  clsEn : Bool := false
  samples : Word := 0
  maxNs : Nat := 0
  sat : Bool := false
  bins : FMap Nat := []
  deriving DecidableEq, Repr

/-- R356, R359: one counter bank; `latched` holds the read words since the last LATCH. -/
structure CtrBank where
  ctrs : FMap Ctr := []
  hists : FMap Hist := []
  latched : Option (FMap (BitVec 64) × FMap Hist) := none
  /-- High words latched by low-word reads of live counters. -/
  highs : FMap Word := []
  poison : Bool := false
  ovf : Bool := false
  lastCode : Code := 0
  deriving DecidableEq, Repr

/-- R361: one selector of a counter set. -/
structure Selector where
  event : Nat
  part : Part
  port : Nat := 0
  portEn : Bool := false
  cls : Nat := 0
  clsEn : Bool := false
  deriving DecidableEq, Repr

/-- R362, R365: a snapshot waiting for its tick. Domain 0xFFFF: an operator snapshot. -/
structure SnapArm where
  domain : Nat
  epoch : Nat
  step : Nat
  set : Nat
  due : Due
  sels : List Selector
  tenant : Nat := 0
  deriving DecidableEq, Repr

/-- R363: one snapshot record. -/
structure SnapRec where
  domain : Nat
  set : Nat
  step : Nat
  late : Bool
  operator : Bool
  epoch : Nat
  t : OT
  raw : Raw
  snapSeq : Nat
  lost : Nat
  node : Nat
  values : List (BitVec 64)
  deriving DecidableEq, Repr

/-- R364: one store of snapshot records (of a domain, a tenant, or the operator). -/
structure SnapStore where
  recs : List SnapRec := []
  nextSeq : Nat := 0
  lost : Nat := 0
  mismatch : Bool := false
  deriving DecidableEq, Repr

/-- R367: one tag record. -/
structure TagRec where
  kind : Nat
  incomplete : Bool := false
  role : Nat := 0
  domain : Nat := 0
  step : Nat := 0
  index : Nat := 0
  chunk : Nat := 0
  port : Nat := 0
  lseq : Nat := 0
  tc : Nat := 0
  msgKind : Nat := 0
  epoch : Nat := 0
  stages : List Raw := []
  deriving DecidableEq, Repr

/-- R366, R368: the tag unit of a part; its configuration words stand in the register file. -/
structure TagUnit where
  recs : List TagRec := []
  lfsr : Word := 0
  /-- Items tagged and not yet at their last stage, by item key. -/
  live : FMap TagRec := []
  deriving DecidableEq, Repr

/-- The instruments of one part. -/
structure CtrUnit where
  /-- Bank 0 is the privileged bank, bank 1 + t a Baxel tenant's. -/
  banks : FMap CtrBank := []
  snapArms : List SnapArm := []
  /-- Snapshots taken or pending, for deduplication: (domain, epoch, step, set). -/
  snapSeen : List (Nat × Nat × Nat × Nat) := []
  /-- Baxel: key tenant, and 4 for the operator. Kresia: key domain, and 0xFFFF for the operator. -/
  stores : FMap SnapStore := []
  tags : TagUnit := {}
  deriving DecidableEq, Repr

/-! ### Links, gates and shapers (R270 to R309) -/

/-- A packet in a class queue: when it was enqueued, the port whose credit it returns when it leaves, and whether the
brim rule has held it already. -/
structure QEntry where
  pkt : Packet
  enq : Raw
  inPort : Option Nat := none
  brimHeld : Bool := false
  /-- R285: charged on the domain's floor at the port it came by. -/
  onFloor : Bool := false
  /-- R366: chosen by the LFSR. -/
  tagged : Bool := false
  deriving DecidableEq, Repr

/-- R277: the copy of a packet sent and not acknowledged. -/
structure TxCopy where
  lseq : Nat
  q : QEntry
  sentAt : Raw
  firstAt : Raw
  /-- SEQ of the time cell it is, on TC0 (R49, R275). -/
  cell : Option Nat := none
  deriving DecidableEq, Repr

/-- R270 to R289: one port of a link. Its counters and STATE, VERSION and peer fields stand in the register file. -/
structure LinkPort where
  /-- Step of R288: 0 down, 1 to 4 in bring-up, 5 in service, 6 held out. -/
  step : Nat := 0
  fails : Nat := 0
  upStart : Option Raw := none
  lastCaps : Option Raw := none
  peer : Option Caps := none
  /-- Transmit side. -/
  nextSeq : Nat := 0
  copies : List TxCopy := []
  queues : FMap (List QEntry) := []
  sent : FMap Nat := []
  limit : FMap Nat := []
  domSent : FMap Nat := []
  domLimit : FMap Nat := []
  /-- LSEQs still to resend, in order (R279). -/
  resend : List Nat := []
  /-- The class whose packet is on the wire (none of a resend: R302), and when its last byte leaves. -/
  busy : Option (Option Nat × Raw) := none
  /-- R276: the round robin's deficits and the class whose turn it is. -/
  deficits : FMap Nat := []
  drrAt : Nat := 3
  /-- Receive side. -/
  exp : Nat := 0
  wait : Bool := false
  lastNak : Option Raw := none
  nakSent : Option (Nat × Nat) := none
  nakGot : Option (Nat × Nat) := none
  events : List Raw := []
  uncs : List Raw := []
  /-- R284: this end's own floors, as bring-up gave them to the peer, and the cells granted above them, by class. -/
  floors : FMap Nat := []
  granted : FMap Nat := []
  /-- R283, R285: cells held of each class and domain and their credit returned. -/
  held : FMap Nat := []
  returned : FMap Nat := []
  domHeld : FMap Nat := []
  domReturned : FMap Nat := []
  lastDom : Nat := 0
  /-- R279: an acknowledgement owed, and when the last head with one left. -/
  owes : Bool := false
  lastHead : Option Raw := none
  /-- When it entered service. -/
  svcStart : Option Raw := none
  /-- Transmit heartbeats and the last one received (R310). -/
  hbSeq : Nat := 0
  hbLast : Option Raw := none
  hbLost : Bool := false
  hbSent : Option Raw := none
  /-- The last heartbeat itself: the time state and planes an admission looks at (R15, R62). -/
  hb : Option Heartbeat := none
  deriving DecidableEq, Repr

/-- R287: the conservation ledger of a part, in cells. -/
structure Ledger where
  inn : Nat := 0
  replicated : Nat := 0
  out : Nat := 0
  consumed : Nat := 0
  flushed : Nat := 0
  held : Nat := 0
  deriving DecidableEq, Repr

/-- R293: a gate list: BASE and its entries (MASK, DURATION in ns). -/
structure GateList where
  base : OT := .zero
  entries : List (Nat × Nat) := []
  deriving DecidableEq, Repr

/-- R303: one credit shaper; CREDIT in units of 1/8,000 byte. -/
structure Shaper where
  en : Bool := false
  slope : Nat := 0
  hi : Nat := 0x1020
  credit : Int := 0
  deriving DecidableEq, Repr

/-- R305: what a class has sampled in the running interval: minimum, maximum, sum and last of depth and of delay. -/
structure QAcc where
  dMin : Nat := 0
  dMax : Nat := 0
  dSum : Nat := 0
  dLast : Nat := 0
  sMin : Nat := 0
  sMax : Nat := 0
  sSum : Nat := 0
  sLast : Nat := 0
  deriving DecidableEq, Repr

/-- R305, R306: the result of a class. -/
structure QResult where
  seq : Word := 0
  ready : Bool := false
  mismatch : Bool := false
  lost : Nat := 0
  depth : Nat × Nat × Nat × Nat := (0, 0, 0, 0)
  delay : Nat × Nat × Nat × Nat := (0, 0, 0, 0)
  deriving DecidableEq, Repr

/-- R293 to R306: gates, shapers and samples of one egress port. -/
structure GatePort where
  /-- Pending entries as written, by index. -/
  pend : FMap (Nat × Nat) := []
  active : Option GateList := none
  pending : Option (GateList × Due) := none
  /-- The mask now in force, the entry, and the next entry boundary of the active list (R295). -/
  mask : Nat := 127
  entry : Nat := 0
  next : Option Due := none
  /-- Classes reported for the active list (R300). -/
  reported : List Nat := []
  shapers : FMap Shaper := []
  sampleAt : Option Raw := none
  samples : Nat := 0
  accs : FMap QAcc := []
  results : FMap QResult := []
  deriving DecidableEq, Repr

/-- The ports of one part. -/
structure LinkUnit where
  ports : FMap LinkPort := []
  gates : FMap GatePort := []
  ledger : Ledger := {}
  /-- R287: at a Baxel, the same ledger of each port. -/
  portLedgers : FMap Ledger := []
  /-- Words latched by a ledger snapshot. -/
  latch : Option (FMap Word) := none
  deriving DecidableEq, Repr


/-! ### Domains at a Kresia (R19 to R22, R95 to R107, R146 to R172, R202) -/

/-- R202, R16, R316: one position of a domain: its map entry, whether a tenant stands bound at it, and whether a fence
has made it vacant. -/
structure Position where
  e : PosEntry
  bound : Bool := true
  vacant : Bool := false
  deriving DecidableEq, Repr

/-- R119: what a crown is at, in the order of STATE. -/
inductive Phase where
  | none | idle | gather | arm | tamped | held
  deriving DecidableEq, Repr

/-- R105: a change of a bell series as commanded, with the slot of the command that asked for it. -/
structure BellReq where
  mailbox : Nat
  mslot : Nat
  cancel : Bool
  at' : OT
  period : Nat
  count : Nat
  deriving DecidableEq, Repr

/-- R99: one armed record of the crown. -/
structure ArmRec where
  step : Nat
  entry : Nat
  slot : Nat
  seq : Nat
  due : OT
  adl : OT
  acks : List Nat := []
  tamped : Bool := false
  period : Nat := 0
  bells : Nat := 0
  change : Option BellReq := none
  /-- R360: when the ARM went out. -/
  sentAt : Raw := 0
  deriving DecidableEq, Repr

/-- R104: the grid of a bell series: G0, PERIOD in force, and the bells it has from G0 on (none: until cancelled). -/
structure Series where
  g0 : OT
  period : Nat
  bells : Option Nat
  deriving DecidableEq, Repr

/-- R167, R169, R171: a program command that waits for its receivers: 0 load, 1 replace, 2 unload, 3 cancel. -/
structure ProgWait where
  kind : Nat
  mailbox : Nat
  mslot : Nat
  waiting : List Nat
  image : List Byte := []
  switchStep : Nat := 0
  deriving DecidableEq, Repr

/-- R156, R160: what an open instance holds of one body entry it has issued. -/
structure EntryRun where
  /-- Raw value of the issue, and whether its engine has accepted it. -/
  issued : Raw
  ot : OT := .zero
  done : Bool := false
  /-- R334, R152: transfers of the entry not yet answered by RW_DONE. -/
  open' : Nat := 0
  deriving DecidableEq, Repr

/-- R156, R157: one body instance. -/
structure Inst where
  step : Nat
  epoch : Nat
  due : OT
  image : List Byte
  /-- Next entry of each queue (entry index), and the queues that wait on a WAIT. -/
  ptrs : FMap Nat := []
  blocked : List Nat := []
  runs : FMap EntryRun := []
  lastIssue : Option Raw := none
  /-- R230: the scalar sets evaluated at the start: key set × 32 + scalar. -/
  scalars : FMap Word := []
  /-- R337, R349: what varied in it (VAR_CAUSE). -/
  varied : Nat := 0
  deriving DecidableEq, Repr

/-- R230: a host scalar value with its FROM_STEP. -/
structure HostScalar where
  set : Nat
  scalar : Nat
  value : Word
  fromStep : Nat
  deriving DecidableEq, Repr

/-- R230: a `scalar.set` that waits for the Kresia of the domain. -/
structure ScalarWait where
  mailbox : Nat
  mslot : Nat
  v : HostScalar
  waiting : List Nat
  deriving DecidableEq, Repr

/-- R219, R325: a home-list element moved, and from which step. -/
structure Moved where
  kind : Nat
  record : Nat
  element : Nat
  home : Nat
  step : Nat
  deriving DecidableEq, Repr

/-- R348: the partials of one cupped step: five digests of four words. -/
structure CupPart where
  step : Nat
  epoch : Nat
  sums : List Nat := List.replicate 20 0
  varied : Nat := 0
  deriving DecidableEq, Repr

/-- R348, R349, R350: a cupping record in the making, or stored, at a crown. -/
structure CupRec where
  step : Nat
  epoch : Nat
  sums : List Nat := List.replicate 20 0
  varied : Nat := 0
  reported : List Nat := []
  incomplete : Bool := false
  replayed : Bool := false
  sealedOt : Option OT := none
  sealedRaw : Raw := 0
  seq : Nat := 0
  lost : Nat := 0
  expected : Nat := 0
  /-- R148, R349: PROGRAM_ID, DIGEST and the seed of the program that ran the step. -/
  progId : Nat := 0
  digest : List Byte := List.replicate 32 0
  seed : Nat := 0
  deriving DecidableEq, Repr

/-- R22: the acknowledgements a deputy holds of one arm, by position with STATUS. -/
structure HeldAck where
  seq : Nat
  step : Nat
  slot : Nat
  acks : List (Nat × Code) := []
  deriving DecidableEq, Repr

/-- A domain at a Kresia: position map, program, body instances, and the crown's or deputy's state. -/
structure Domain where
  isCrown : Bool := false
  isDeputy : Bool := false
  /-- The identifier of the domain's crown. -/
  crown : Nat := 0
  positions : List Position := []
  /-- R93, R220: the epoch taken from the broadcasts, and the broadcast sequence. -/
  epoch : Nat := 0
  seq : Nat := 0
  phase : Phase := .none
  step : Nat := 0
  voidRun : Nat := 0
  /-- Whether a step has tamped since the load (R171), and whether a void hit the unsealed step (REPLAYED of R349). -/
  everTamped : Bool := false
  replayed : Bool := false
  /-- Positions whose arrivals are held (R95), the decision time of the barrier in hand and the LAUNCH entries still to
  arm (R99). -/
  arrivals : List Nat := []
  /-- R98: the position of the last message that brought a new arrival; of a count record, the one LATEST names. -/
  lastBy : Option Nat := none
  /-- R360: when the first arrival of the step came. -/
  firstAt : Option Raw := none
  /-- R98, R99: T_dec of the last barrier, the slots to arm, the armed records. -/
  decided : OT := .zero
  toArm : List Nat := []
  recs : List ArmRec := []
  /-- R99, R105: the arm of a `bell.change` that waits for a record. -/
  changeWait : Option ArmRec := none
  /-- R22, R106: the acknowledgements a deputy holds, and the epoch of the last void it followed. -/
  heldAcks : List HeldAck := []
  voidEpoch : Nat := 0
  /-- R21: the epoch of the last VOID passed on. -/
  voidSent : Nat := 0
  /-- R107: the fenced crown this one replaced, until a Kresia serves at its index again. -/
  oldCrown : Option Nat := none
  /-- R98: the credits of the last 1,024 barriers, newest first, and the positions now suspect. -/
  credits : List Nat := []
  suspects : List Nat := []
  series : Option Series := none
  /-- R171: prog.unload has been taken; the command's mailbox and slot. -/
  unloading : Option (Nat × Nat) := none
  wait : Option ProgWait := none
  /-- The program loaded, and a pending one with its SWITCH_STEP (R169). -/
  prog : Option (List Byte) := none
  next : Option (List Byte × Nat) := none
  /-- R169: after a switch, until SWITCH_STEP seals: the old program's slots that go free, and its STEP_FIRST. -/
  oldSlots : List Nat := []
  oldFirst : Nat := 0
  cobjBase : Nat := 0
  cobjCount : Nat := 0
  trackers : Nat := 0
  insts : List Inst := []
  /-- R157: instances held unstarted: step, epoch, DUE. -/
  heldInsts : List (Nat × Nat × OT) := []
  lastTamp : Option (Nat × Nat) := none
  scalars : List HostScalar := []
  scalarWaits : List ScalarWait := []
  /-- R171: the program is to be freed with its last instance. -/
  freeing : Bool := false
  /-- R324: a part of the domain's state is lost: the domain stays HELD until a roll-back or a new program. -/
  lost : Bool := false
  /-- R230: one above the highest step whose barrier has completed here. -/
  barriers : Nat := 0
  moves : List Moved := []
  /-- R345, R348, R350: cup.config in force, the partials kept, the records in the making and those stored, and the
  records not stored since the last one. -/
  cupPeriod : Nat := 0
  cupFrom : Nat := 0
  cups : List CupPart := []
  /-- R344: the causes of variation of an open instance that a void ended, by step. -/
  varKept : FMap Nat := []
  /-- R345, R348, R350: cupping records open and sealed, the next number and those lost. -/
  cupOpen : List CupRec := []
  cupRecs : List CupRec := []
  cupNext : Nat := 0
  cupLost : Nat := 0
  deriving DecidableEq, Repr

/-- R92: what a leaf holds of one domain and step for its next count record. -/
structure LeafRecord where
  kind : CtlType
  domain : Nat
  epoch : Nat
  seq : Nat
  step : Nat
  slot : Nat
  bitmap : BitVec 128 := 0
  latest : Nat := 0
  first : Raw
  deriving DecidableEq, Repr

/-! ### Chunks, shards and transfers of a Kresia (R173 to R249, R319 to R334) -/

/-- R209: one part in progress at a chunk entry: its next packet, its cover, what its header declared, and what came. -/
structure PartRun where
  next : Nat := 1
  cover : List Nat
  kind : Nat
  port : Nat
  packets : Nat
  bytes : Nat
  distinct : Nat := 0
  got : Nat := 0
  elems : Nat := 0
  /-- Sparse: one above the last offset applied. -/
  above : Nat := 0
  lastRaw : Raw
  deriving DecidableEq, Repr

/-- R173, R213: one felt slot as the store holds it. -/
structure Slot320 where
  w : Int := 0
  flags : Nat := 0
  /-- Sparse: the offset the slot belongs to. -/
  off : Nat := 0
  /-- R192, R193: binary64 contributions: (position, bits), or the running sum alone. -/
  f64 : List (Nat × Nat) := []
  deriving DecidableEq, Repr

/-- R209, R223: one entry of the chunk table. -/
structure ChunkEntry where
  domain : Nat
  coll : Nat
  chunk : Nat
  restart : Nat := 0
  epoch : Nat
  step : Nat
  /-- 0 leaf; 1 home; 2 pass-through leaf. -/
  role : Nat
  /-- 1 open; 2 committed; 3 failed. -/
  state : Nat := 1
  opened : Raw
  /-- Waiting for felt slots (R195), with the packets that came meanwhile, by port. -/
  waiting : Bool := false
  parked : List (Nat × ChunkPacket) := []
  claimed : List Nat := []
  covered : List Nat := []
  expected : List Nat := []
  quorum : Nat := 0
  /-- By sender; a Kresia's key carries bit 20. -/
  parts : FMap PartRun := []
  discarded : List Nat := []
  slotFirst : Nat := 0
  slotCount : Nat := 0
  slots : FMap Slot320 := []
  /-- Gathers: the payloads come, with their element counts. -/
  raw : List (List Byte × Nat) := []
  /-- R214: covers of parts forwarded unreduced. -/
  passed : List Nat := []
  /-- Packets of a leaf held until the home admits the chunk (R208). -/
  out : List ChunkPacket := []
  deriving DecidableEq, Repr

/-- R170, R211: a committed result kept until its step seals. -/
structure KeptResult where
  step : Nat
  /-- The epoch of the last sending (R220). -/
  epoch : Nat
  bytes : List Byte := []
  deriving DecidableEq, Repr

/-- R225, R245, R319, R321: what a Kresia holds of one collective or region, as primary or as mirror: the streams by
stream number, the result area under 8, a region's bytes under 9; an element of a collective stands under
chunk × 2^24 + offset. -/
structure Shard where
  streams : FMap (FMap Nat) := []
  /-- By chunk: the step of the last block; of the mirrors committed, under chunk × 2 + partner; for a mirror, of the
  state copied. -/
  blockStep : FMap Nat := []
  mirrorStep : FMap Nat := []
  /-- By chunk: the sealed output (R321), with its step. -/
  sealedOut : FMap (Nat × List Byte) := []
  /-- Of a mirror: chunks copied before their first block. -/
  fresh : List Nat := []
  /-- R322: the homes whose mirrors became primaries here. -/
  promoted : List Nat := []
  single : Bool := false
  /-- R323: the target of a copy, and the chunks still to commit and committed there. -/
  fillTarget : Option Nat := none
  fillLeft : List Nat := []
  fillAcked : List Nat := []
  fillDone : List Nat := []
  /-- R327: the step of the last completed checkpoint. -/
  ckptStep : Option Nat := none
  deriving DecidableEq, Repr

/-- R241: one chunk in the blocking queue, or on an engine. -/
structure BlockJob where
  domain : Nat
  coll : Nat
  chunk : Nat
  step : Nat
  entered : Raw
  running : Bool := false
  waited : Bool := false
  /-- What the run reads and has computed: the image and scalars of its instance; by element, the stream values stored
  and the output; the exceptions counted. -/
  image : List Byte := []
  scalars : FMap Word := []
  lanes : List (FMap Nat × Nat) := []
  counts : List Nat := [0, 0, 0, 0, 0]
  deriving DecidableEq, Repr

/-- R137, R211, R319, R327, R330, R334: what a started or waiting transfer of a Kresia carries: 1 result, 2 mirror,
3 checkpoint, 4 fill, 5 pour, 6 step record, 7 plan, 8 payload, 9 copy of a shard; with the record, chunk, step and entry
it belongs to. -/
structure SendJob where
  what : Nat
  receiver : Nat
  domain : Nat
  cls : Nat
  addr : Nat
  sigObj : Nat
  sigN : Nat := 1
  data : List Byte
  rec' : Nat := 0
  chunk : Nat := 0
  step : Nat := 0
  entry : Nat := 0
  mirror : Option MirrorTag := none
  started : Option Raw := none
  deriving DecidableEq, Repr

/-- R208: the BASE a receiver last announced, with the step it holds for. -/
structure BaseNote where
  step : Nat
  base : Nat
  deriving DecidableEq, Repr

/-- R208: what a Kresia keeps of one role of one collective in a step: the chunks closed with their RESTART, and the last
notice. -/
structure RoleWindow where
  step : Nat := 0
  closed : FMap Nat := []
  lastNote : Option Raw := none
  noted : Nat := 0
  deriving DecidableEq, Repr

/-- R319: the transfers of one mirror that have landed in a staging slot, up to its last. -/
structure Staged where
  src : Nat
  domain : Nat
  epoch : Nat
  tag : MirrorTag
  bytes : Nat
  /-- TRANSFER of the last transfer, where it has landed. -/
  lastTransfer : Option Nat := none
  deriving DecidableEq, Repr

/-- R327: a cold checkpoint in progress at a home: chunks still to send, the ring slots granted and the next slot. -/
structure Ckpt where
  domain : Nat
  coll : Nat
  step : Nat
  target : Nat
  left : List Nat
  grants : List Nat := []
  seq : Nat := 0
  open' : Nat := 0
  entry : Nat
  deriving DecidableEq, Repr

/-- R351: a `cup.shard` in progress: its command, the chunks, the partners still to answer, the primary's digest of each
chunk that took part, and what the comparison has found. -/
structure CupCheck where
  mailbox : Nat
  mslot : Nat
  domain : Nat
  coll : Nat
  first : Nat
  count : Nat
  waiting : List Nat
  own : FMap (List Nat) := []
  compared : List Nat := []
  differ : List Nat := []
  deriving DecidableEq, Repr

/-! ### Dispatch at a Kresia (R250 to R268) -/

/-- R254, R263: what a dispatch leaf holds of one position's post: records checked, END, payloads come. -/
structure DspRecv where
  member : Nat
  got : Nat := 0
  n : Option Nat := none
  bad : Bool := false
  routed : Nat := 0
  /-- R266: its list goes under this RESTART. -/
  restart : Nat := 0
  deriving DecidableEq, Repr

/-- R253 to R263: a layer at a dispatch leaf. -/
structure DspLeaf where
  domain : Nat
  layer : Nat
  step : Nat
  epoch : Nat
  entry : Nat
  posts : FMap DspRecv := []
  /-- Groups whose placements have come, and the placements. -/
  groups : List Nat := []
  places : List Place := []
  open' : Nat := 0
  deriving DecidableEq, Repr

/-- R257 to R262: a collection of a plan home: 1 collecting; 2 assigning; 3 plan sent; 4 routed. -/
structure DspHome where
  domain : Nat
  layer : Nat
  group : Nat
  step : Nat
  epoch : Nat
  restart : Nat := 0
  state : Nat := 1
  /-- By position: the leaf whose list it claimed, and n of END. -/
  claims : FMap Nat := []
  ends : FMap Nat := []
  lastEnd : Raw := 0
  /-- By token: its choices (expert, weight) in rank order. -/
  tokens : FMap (List (Nat × Nat)) := []
  fill : FMap Nat := []
  open' : Nat := 0
  deriving DecidableEq, Repr

/-- Which collection stands at, or waits for, the assignment engine. -/
structure DspKey where
  domain : Nat
  layer : Nat
  group : Nat
  step : Nat
  deriving DecidableEq, Repr

/-- R330: a spare fill in progress. -/
structure FillRun where
  domain : Nat
  position : Nat
  left : Nat
  /-- The command that waits, its count of transfers, and whether one failed. -/
  mailbox : Nat
  mslot : Nat
  count : Nat
  failed : Bool := false
  deriving DecidableEq, Repr


/-! ### Firmware, boot and mailboxes (R372 to R393) -/

/-- One completion slot (R379), front buffer: the 64 bytes are OPCODE, SEQ, STATUS, FLAGS and RESULT. -/
structure Completion where
  opcode : Nat := 0
  seq : Nat := 0
  status : Code := 0
  ready : Bool := false
  result : List Byte := []
  /-- R390: data returned inline. -/
  inline : List Byte := []
  deriving DecidableEq, Repr

/-- What has been rung in a slot and not completed: the captured 64 bytes, the inline data, whether firmware has
taken it, its place in the intake order, and the ports a datagram copy came by (R388). -/
structure Taken where
  bytes : List Byte
  inline : List Byte := []
  order : Nat
  started : Bool := false
  ports : List Nat := []
  deriving DecidableEq, Repr

/-- One command slot with its completion slot. -/
structure MSlot where
  bytes : List Byte := []
  locked : Bool := false
  taken : Option Taken := none
  comp : Completion := {}
  lastRetired : Option Nat := none
  /-- R389: the PCIe data window of the slot (Kresia), by word offset. -/
  window : FMap Word := []
  deriving DecidableEq, Repr

/-- R376, R377, R390: one mailbox. -/
structure Mailbox where
  slots : FMap MSlot := []
  bound : Option (Nat × Nat × Nat) := none
  deriving DecidableEq, Repr

/-- R390: a stage area. -/
structure Stage where
  mailbox : Nat
  bytes : List Byte
  deriving DecidableEq, Repr

/-- Boot ROM and management core of one part. -/
structure Firmware where
  /-- The reset input stands asserted (R406, R432); the PLL has not locked (R439). -/
  inReset : Bool := false
  busy : Bool := false
  /-- R374: what the ROM has read of the image. -/
  bootBytes : Option (List Byte) := none
  /-- The verified image held in memory, as (FW_VERSION, running from slot B). -/
  image : Option (Word × Bool) := none
  slotATried : Bool := false
  serving : Bool := false
  /-- R71: firmware has served since reset. -/
  served : Bool := false
  /-- Doorbells rung before firmware serves, as (mailbox, slot) (R3). -/
  heldBells : List (Nat × Nat) := []
  order : Nat := 0
  mailboxes : FMap Mailbox := []
  stages : FMap Stage := []
  allowList : List Nat := []
  deriving DecidableEq, Repr

/-! ### What both parts hold, and the parts -/

/-- The units both parts hold. `regs` is the register file: one word a byte address, an unlisted address at its
reset value; `domRegs` holds the counters shown under a domain selector, under domain × 2^24 + address. -/
structure Common where
  time : TimeUnit := {}
  stamp : StampUnit := {}
  ctr : CtrUnit := {}
  fw : Firmware := {}
  link : LinkUnit := {}
  regs : FMap Word := []
  domRegs : FMap Word := []
  /-- R359: high words latched by reads of the low words of 64-bit counters. -/
  highs : FMap Word := []
  /-- R137: transfers stalled for a tracker; the manual gives the count no register. -/
  rsigStall : Word := 0
  deriving DecidableEq, Repr


/-- The Baxel. -/
structure Baxel where
  c : Common := {}
  /-- Straps and declarations sampled at the deassertion of RST_N (R423). -/
  straps : Straps := {}
  refclkLost : Bool := false
  fenced : Bool := false
  /-- R315: FENCE_SEQ of the last notice that acted. -/
  fenceSeq : Option Nat := none
  /-- R167: by domain, what its last template load replaced. -/
  prior : FMap Prior := []
  reportSeq : Nat := 0
  tenants : FMap Tenant := []
  slots : FMap Slot := []
  objs : FMap Obj := []
  /-- R131: TAKEs at the signal port that wait for a waiter slot, with ready withheld. -/
  heldTakes : List ObjReq := []
  /-- Key: source × 2^16 + TRANSFER. -/
  trackers : FMap Tracker := []
  /-- Key: receiver × 2^16 + TRANSFER. -/
  sends : FMap SendTransfer := []
  /-- Requests outstanding on the memory ports; key: port × 2^12 + ID. -/
  writes : FMap MemReq := []
  reads : FMap MemReq := []
  v2Waits : List V2Wait := []
  /-- R137: transfers that wait for a tracker at their receiver, with their tenants. -/
  waitSends : List (Nat × RsigSend) := []
  /-- Parts not yet released, by number, and what receivers announced of their windows; key as for a Kresia. -/
  parts : FMap BxPart := []
  nextPart : Nat := 0
  readJobs : FMap ReadJob := []
  nextJob : Nat := 0
  bases : FMap BaseNote := []
  deriving DecidableEq, Repr

/-- R444 to R447: the build as the signed image's configuration gives it. -/
structure Build where
  planes : Nat := 8
  leaves : Nat := 64
  spines : Nat := 64
  dies : Nat := 128
  pods : Nat := 16
  halls : Nat := 4
  /-- R141: RSIG_TIMEOUT in ms; the manual names no register for a Kresia's. -/
  rsigTimeout : Nat := 10
  deriving DecidableEq, Repr

/-- The Kresia. -/
structure Kresia where
  c : Common := {}
  build : Build := {}
  /-- R282: the (member, plane) pairs between PLANE_LOST and PLANE_BACK. -/
  lostPlanes : List (Nat × Nat) := []
  /-- R315: by subject node, the last FENCE_SEQ applied and whether the subject is fenced. -/
  fences : FMap (Nat × Bool) := []
  /-- R432, R439: STRAP_FB and STRAP_PCIE_EN as sampled. -/
  strapFb : Nat := 0
  pcieEn : Bool := false
  /-- R432: the outputs with a strap field. -/
  pins : KsPins := {}
  /-- R438: THERM_TRIP_N is driven low. -/
  tripped : Bool := false
  /-- R443: MEM_FAILED, the uncorrectable errors of the last hour by stack, and the brim dies failed. -/
  memFailed : Bool := false
  memErrors : FMap (List Raw) := []
  brimFailed : List Nat := []
  /-- R435: since when the lid sensors stand out of range, and whether it was reported; when they were last read. -/
  coolantSince : Option Raw := none
  coolantTold : Bool := false
  lastCoolant : Option Raw := none
  /-- R340: when the throttle level last changed. R311, R312: the last S_KS_ALIVE record, and the last resend. -/
  lastThrottle : Option Raw := none
  lastAlive : Option Raw := none
  lastResend : Option Raw := none
  /-- Event records not yet acknowledged, oldest first, and the count for DROPPED of the next (R312). -/
  events : List EventRec := []
  evtDropped : Nat := 0
  /-- R392: the members this leaf has admitted, with their down ports. -/
  admitted : FMap Nat := []
  /-- R5, R314: fenced members already reported alive since their fence. -/
  aliveTold : List Nat := []
  /-- The domains known here: position map, program, crown or deputy state. -/
  doms : FMap Domain := []
  leafRecs : List LeafRecord := []
  /-- R216: the chunk table, by table entry. -/
  chunks : FMap ChunkEntry := []
  /-- Committed results, by (domain × 2^12 + collective) × 2^24 + chunk. -/
  kept : FMap KeptResult := []
  /-- Shards, by (((domain × 2 + region) × 2^12) + record) × 2, plus 1 for a mirror. -/
  shards : FMap Shard := []
  blockQ : List BlockJob := []
  /-- Transfers started, by receiver × 2^16 + TRANSFER, and those that wait for a tracker. -/
  jobs : FMap SendJob := []
  waitJobs : List SendJob := []
  /-- By (domain × 2^12 + collective) × 4 + role + 2 × (step mod 2), and for `bases` that × 2^17 + node. -/
  windows : FMap RoleWindow := []
  bases : FMap BaseNote := []
  staged : List Staged := []
  ckpts : List Ckpt := []
  fills : List FillRun := []
  cupChecks : List CupCheck := []
  /-- R227: `shard.read` commands that wait for a block, by mailbox and slot. -/
  shardReads : List (Nat × Nat) := []
  /-- R327: slots granted and not yet taken by a checkpoint: domain, target position, slot. -/
  grants : List (Nat × Nat × Nat) := []
  dspLeaves : List DspLeaf := []
  dspHomes : List DspHome := []
  dspEngine : Option DspKey := none
  dspQ : List DspKey := []
  /-- KS_TIE_REROUTE of R21, which the manual gives no address. -/
  tieReroute : Nat := 0
  objs : FMap Obj := []
  /-- R135: engine takes that wait for a waiter slot. -/
  heldTakes : List ObjReq := []
  trackers : FMap Tracker := []
  sends : FMap SendTransfer := []
  writes : FMap MemReq := []
  /-- TAKEs of step-program entries and engines that have ended: (domain, entry, code) (R156). -/
  takesDone : List (Nat × Nat × Code) := []
  mem : List Host.Cell := []
  /-- KS_PTP_DISCARD and KS_PPS_DELAY (R46): the manual gives the two no address. -/
  ptpDiscard : Word := 0
  ppsDelay : Nat := 0
  v2Waits : List V2Wait := []
  deriving DecidableEq, Repr

/-- How a message leaves a part. -/
inductive Via where
  /-- One port; every plane the part has; a broadcast into the own plane (R21); the copy of a broadcast for another
  plane's deputy, over the tie to `port`'s plane; every in-service port; upward to the crown of a domain; a node; a node by
  way of the Kresia named, in order (R23, R217, R282); a list of members; a list of Kresia; the two management ports. -/
  | port (n : Nat)
  | planes
  | broadcast
  | tie (port plane : Nat)
  | flood
  | crown (domain : Nat)
  | node (n : Nat)
  | hops (l : List Nat) (n : Nat)
  | members (l : List Nat)
  | kresias (l : List Nat)
  | mgmt
  deriving DecidableEq, Repr

/-- What the parts drive out: messages and packets, interrupts, answers to accesses, requests and signals of the
ports of R403. -/
inductive Out where
  | send (p : Part) (via : Via) (m : Msg)
  | irqPriv
  | irqT (t : Nat)
  /-- The answer of a register read, and the code with which a register write was refused. -/
  | regData (p : Part) (v : Word)
  | refused (p : Part) (code : Code)
  /-- A signal-port response: tenant, tag, code, value (R419). -/
  | spResponse (t : Nat) (tag : Nat) (code : Code) (value : Nat)
  | lpValid (t : Nat) (d : LpDesc)
  | lpWithdraw (t : Nat) (slot : Nat)
  /-- LP_GO toggles at a raw edge. -/
  | lpGo (t : Nat) (edge : Raw) (level : Bool)
  | steerClk (x : SteerClk)
  | ksPins (x : KsPins)
  | memWrite (port id addr : Nat) (data : List Byte) (tag : Nat)
  | memRead (port id addr beats tag : Nat)
  /-- R389: MSI-X vector m. -/
  | msix (m : Nat)
  /-- R386, R388: a completion datagram (TRANSIENT or not), and a retire acknowledgement. -/
  | completion (port mailbox slot : Nat) (c : Completion) (transient : Bool)
  | retireAck (port mailbox slot seq : Nat)
  deriving DecidableEq, Repr

/-- The reasons a step can stop with a fault. No rule of the manual stops a part, so no meaning raises one. -/
inductive Fault where
  /-- Raised by nobody: it stands for a stop the manual does not give. Safe. -/
  | none
  deriving DecidableEq, Repr

/-- The reasons a step can be refused. -/
inductive Refusal where
  /-- An arm of the dispatch whose meaning is not written; safe, since nothing is claimed of it. -/
  | notModelled (mnemonic : String)
  deriving DecidableEq, Repr

/-- The machine: one Baxel, one Kresia, the commands that wait (first in, first out), what has been driven out
(newest first), and the count of free values drawn. -/
structure State where
  bx : Baxel := {}
  ks : Kresia := {}
  pending : List Instr := []
  out : List Out := []
  free : Nat := 0
  deriving DecidableEq, Repr

/-- The machine right after reset: raw counters at zero (R28), time state UNSET (R31), every register at the Reset
column of its table, no program, no binding, no command waiting. -/
def State.reset : State := {}

end Sys2Proof.Machine
end

