-- ==== Sys2Proof/Machine/Time.lean ====
section
/-! DEFINITION. Olora time arithmetic: R26, R27, R30, R33, R34, R37, R38 and R40, exactly as their pseudocode
states them, over Int. -/

namespace Sys2Proof.Machine

/-- Grains since the epoch that an OT names. -/
def otGrains (x : OT) : Int := ((x.sec.toNat : Int) * 1000000000 + x.ns.toNat) * 65536 + x.gr.toNat

/-- R37: ot_diff, a minus b in grains. -/
def otDiff (a b : OT) : Int := otGrains a - otGrains b

/-- Grains in one second. -/
def secGrains : Int := 65536000000000

/-- R30: whether ot_add reduces modulo 2^48 s. -/
def otAddWraps (x : OT) (g : Int) : Bool :=
  let t : Int := (x.ns.toNat : Int) * 65536 + x.gr.toNat + g
  let sec := (x.sec.toNat : Int) + t / secGrains
  sec < 0 || 281474976710656 ≤ sec

/-- R30: ot_add. -/
def otAdd (x : OT) (g : Int) : OT :=
  let t : Int := (x.ns.toNat : Int) * 65536 + x.gr.toNat + g
  let ds := t / secGrains
  let rem := (t % secGrains).toNat
  ⟨BitVec.ofInt 48 ((x.sec.toNat : Int) + ds), BitVec.ofNat 32 (rem / 65536), BitVec.ofNat 16 rem⟩

/-- R30: grains after OFFSET_OT at a raw value. -/
def psGrains (ps : ParamSet) (raw : Raw) : Int :=
  let delta := Raw.diff raw ps.rawRef
  delta + delta * ps.rate / 281474976710656

/-- R30: the OT of a raw value under a set. -/
def otOfRaw (ps : ParamSet) (raw : Raw) : OT := otAdd ps.offset (psGrains ps raw)

/-- R30: whether that OT was reduced modulo 2^48 s. -/
def otOfRawWraps (ps : ParamSet) (raw : Raw) : Bool := otAddWraps ps.offset (psGrains ps raw)

/-- Exact ceiling of a / b for a positive b. -/
def ceilDiv (a b : Int) : Int := -((-a) / b)

/-- R37: the smallest raw value whose OT under the set is at least due. -/
def convert (ps : ParamSet) (due : OT) : Raw :=
  let g := otDiff due ps.offset
  ps.rawRef + BitVec.ofInt 64 (ceilDiv (g * 281474976710656) (281474976710656 + ps.rate))

/-- R38: the edge of the fire cycle of a raw due. -/
def fireEdge (raw : Raw) : Raw := raw - (raw.extractLsb' 0 16).zeroExtend 64

/-- R38: the residual handed to the fine delay, 0 to 65,535 grains. -/
def residual (raw : Raw) : Nat := raw.toNat % 65536

/-- R38: the compare: the fire cycle of a raw due has come. -/
def reached (now due : Raw) : Bool := 0 ≤ Raw.diff now (fireEdge due)

/-- R33: the set a raw value belongs to: a committed set from its APPLY_RAW on, the set before the last application
for a raw value before that APPLY_RAW, else the active set. -/
def TimeUnit.setFor (t : TimeUnit) (raw : Raw) : ParamSet :=
  match t.committed with
  | some c =>
    if 0 ≤ Raw.diff raw c.applyRaw then c.set
    else match t.prev with
      | some (old, at') => if 0 ≤ Raw.diff raw at' then t.active else old
      | none => t.active
  | none =>
    match t.prev with
    | some (old, at') => if 0 ≤ Raw.diff raw at' then t.active else old
    | none => t.active

/-- R79: APPLY_COUNT of the set a raw value belongs to, from the count now. -/
def TimeUnit.seqFor (t : TimeUnit) (raw : Raw) (count : Nat) : Nat :=
  let late (a : Raw) : Bool := 0 ≤ Raw.diff raw a
  if t.committed.any fun c => late c.applyRaw then count + 1
  else match t.prev with
    | some (_, a) => if late a then count else count + 2 ^ 32 - 1
    | none => count

/-- R30, R33: the OT of a raw value at this part. -/
def TimeUnit.ot (t : TimeUnit) (raw : Raw) : OT := otOfRaw (t.setFor raw) raw

/-- R30: whether the OT of a raw value was reduced modulo 2^48 s. -/
def TimeUnit.wraps (t : TimeUnit) (raw : Raw) : Bool := otOfRawWraps (t.setFor raw) raw

/-- R30: a part that makes the OT of a raw value sets the sticky OT_WRAPPED where it was reduced. R41 reads the bit as the
snapshot's own; the model takes R30's word, sticky (log 121). -/
def TimeUnit.noteWrap (t : TimeUnit) (raw : Raw) : TimeUnit := { t with wrapped := t.wrapped || t.wraps raw }

/-- R30: the part's current OT. -/
def TimeUnit.now (t : TimeUnit) : OT := t.ot t.raw

/-- 86,400 s in grains (R40). -/
def dayGrains : Int := 86400 * secGrains

/-- R27, R31, R40: the code with which a part refuses to convert a due time; none where it converts it. Where several hold
the spec gives no order: malformed, then UNSET, then the distance (DESIGN CHOICE, log 122). -/
def TimeUnit.dueCode (t : TimeUnit) (due : OT) : Option Code :=
  if due.malformed then some 0x1003
  else if t.state = .unset then some 0x1007
  else if dayGrains < otDiff due t.now then some 0x1001
  else if otDiff due t.now < -dayGrains then some 0x1002
  else none

/-- R40: whether a due time accepted has already passed (PASSED of the conversion result). -/
def TimeUnit.passed (t : TimeUnit) (due : OT) : Bool := otDiff due t.now < 0

/-- R34: a pending due time converted again under a newly committed set. An entry whose raw due under the old set
lies before APPLY_RAW keeps it. -/
def Due.reconvert (c : Commit) (d : Due) : Due :=
  if Raw.diff d.raw c.applyRaw < 0 then { d with next := none }
  else { d with next := some (convert c.set d.ot) }

/-- R37, R34: a due time converted under the set in force, and under a committed set beside it. -/
def TimeUnit.mkDue (t : TimeUnit) (due : OT) : Due :=
  match t.committed with
  | some c => Due.reconvert c ⟨due, convert t.active due, none, t.passed due⟩
  | none => ⟨due, convert t.active due, none, t.passed due⟩

/-- R34: a pending due time at APPLY_RAW: its new raw due, or APPLY_RAW itself where the new one lies before it, since
such an entry fires in the cycle that begins at APPLY_RAW. -/
def Due.applied (apply : Raw) (d : Due) : Due :=
  match d.next with
  | some r => { d with raw := if Raw.diff r apply < 0 then apply else r, next := none }
  | none => d

/-- R34: whether the entry straddles: its new raw due lies before APPLY_RAW while the old one does not. -/
def Due.straddles (apply : Raw) (d : Due) : Bool :=
  match d.next with
  | some r => Raw.diff r apply < 0 && 0 ≤ Raw.diff d.raw apply
  | none => false

end Sys2Proof.Machine
end

