-- ==== Sys2Proof/Machine/Ops.lean ====
section
/-! DEFINITION. The named operations every meaning is written over: the two parts and their register files, counting
with the programmable counters (R354 to R360), sticky bits and interrupts (R422), reports and event records (R311,
R312), free values. -/

namespace Sys2Proof.Machine

/-- What a meaning answers. -/
abbrev Answer := Host.Outcome State Fault Refusal

/-! ### The parts -/

/-- The units both parts hold, of part p. -/
def State.pc (s : State) : Part → Common
  | .baxel => s.bx.c
  | .kresia => s.ks.c

/-- s with those of part p changed by f. -/
def State.modPc (s : State) (p : Part) (f : Common → Common) : State :=
  match p with
  | .baxel => { s with bx := { s.bx with c := f s.bx.c } }
  | .kresia => { s with ks := { s.ks with c := f s.ks.c } }

def State.modTime (s : State) (p : Part) (f : TimeUnit → TimeUnit) : State :=
  s.modPc p fun c => { c with time := f c.time }

def State.modStamp (s : State) (p : Part) (f : StampUnit → StampUnit) : State :=
  s.modPc p fun c => { c with stamp := f c.stamp }

def State.modCtr (s : State) (p : Part) (f : CtrUnit → CtrUnit) : State :=
  s.modPc p fun c => { c with ctr := f c.ctr }

def State.modFw (s : State) (p : Part) (f : Firmware → Firmware) : State :=
  s.modPc p fun c => { c with fw := f c.fw }

def State.modBx (s : State) (f : Baxel → Baxel) : State := { s with bx := f s.bx }
def State.modKs (s : State) (f : Kresia → Kresia) : State := { s with ks := f s.ks }

/-- The current raw value and OT of part p. -/
def State.raw (s : State) (p : Part) : Raw := (s.pc p).time.raw
def State.otNow (s : State) (p : Part) : OT := (s.pc p).time.now

/-- One thing driven out. -/
def State.emit (s : State) (o : Out) : State := { s with out := o :: s.out }

/-- The next free value of the manual's open choices (R73, R74, ...), and the state that has drawn it. -/
def State.draw (s : State) : Nat × State := (Config.freeValue s.free, { s with free := s.free + 1 })

/-! ### The register file -/

/-- The reset value of a register word where it is not zero: the Reset columns of R2, R65, R88, R118, R144, R309,
R336, R369, R370 and R400. -/
def resetWord : Part → Nat → Word
  | .baxel, a =>
    if a = 0x0000 then 0x03020000
    else if a = 0x0300 then 0x1EB8
    else if 0x0200 ≤ a && a < 0x0300 && a % 32 = 12 then 0xF0
    else if a = 0x0430 then 0x82
    else if 0x0510 ≤ a && a < 0x0520 then 0x100
    else if 0x0520 ≤ a && a < 0x0530 then 0x0800
    else if a = 0x0534 then 0x00A
    else if a = 0x690C then 0x10000
    else if a = 0x6B00 then 0x003C2001
    else if a = 0x8200 then 0x14000000
    else if 0x0B00 ≤ a && a < 0x1000 && (a - 0x0B00) % 0xA0 = 0x70 then 0xF4240
    else if 0x0B00 ≤ a && a < 0x1000 && (a - 0x0B00) % 0xA0 = 0x74 then 0x3E8
    else 0
  | .kresia, a =>
    if a = 0x0 then 0x03B10300
    else if a = 0x24 then 0x100000
    else if a = 0x100300 then 0x1EB8
    else if 0x101000 ≤ a && a < 0x103000 && a % 32 = 12 then 0xF0
    else if a = 0x10690C || a = 0x10698C then 0x10000
    else if a = 0x106B00 then 0x003C2001
    else if a = 0x1B0080 then 0x32
    else if a = 0x1D2000 then 0x14141400
    else if a = 0x190040 then 0x00080004
    else if a = 0x190044 then 0x02000040
    else if a = 0x190048 then 0x04000080
    else if a = 0x19004C then 0x10000100
    else if a = 0x190050 then 0x08000080
    else if a = 0x190054 then 0x10000100
    else if a = 0x190058 then 0x00800010
    else if 0x1A0000 ≤ a && a < 0x1B0000 && a % 256 = 0x70 then 0xF4240
    else if 0x1A0000 ≤ a && a < 0x1B0000 && a % 256 = 0x74 then 0x3E8
    else if a = 0x190060 then 0x40
    else if a = 0x190064 then 0x2
    else 0

/-- The word at a register address. -/
def State.rd (s : State) (p : Part) (a : Nat) : Word := FMap.getD (s.pc p).regs a (resetWord p a)

/-- s with a word at a register address. -/
def State.wr (s : State) (p : Part) (a : Nat) (v : Word) : State :=
  s.modPc p fun c => { c with regs := FMap.set c.regs a v }

/-- Field [lo + len - 1 : lo] of a register. -/
def State.fld (s : State) (p : Part) (a lo len : Nat) : Nat := (s.rd p a).get lo len

/-- s with that field written. -/
def State.setFld (s : State) (p : Part) (a lo len v : Nat) : State := s.wr p a ((s.rd p a).put lo len v)

def State.bit (s : State) (p : Part) (a i : Nat) : Bool := s.fld p a i 1 = 1
def State.setBit (s : State) (p : Part) (a i : Nat) (b : Bool) : State := s.setFld p a i 1 (if b then 1 else 0)

/-- Two words, low first, as a 64-bit value. -/
def State.rd64 (s : State) (p : Part) (a : Nat) : BitVec 64 := s.rd p (a + 4) ++ s.rd p a
def State.wr64 (s : State) (p : Part) (a : Nat) (v : BitVec 64) : State :=
  (s.wr p a (v.extractLsb' 0 32)).wr p (a + 4) (v.extractLsb' 32 32)

/-- Three words as an OT (R27). -/
def State.rdOt (s : State) (p : Part) (a : Nat) : OT := OT.ofWords (s.rd p a) (s.rd p (a + 4)) (s.rd p (a + 8))
def State.wrOt (s : State) (p : Part) (a : Nat) (x : OT) : State :=
  ((s.wr p a x.word0).wr p (a + 4) x.word1).wr p (a + 8) x.word2

/-- The address of a word of the time, stamp and frequency blocks, which stand at 0x10_0000 plus the Baxel offset on
Kresia (R41, R42, R65, R88). -/
def tAddr : Part → Nat → Nat
  | .baxel, a => a
  | .kresia, a => 0x100000 + a

/-- The address of a word of the per-port time block (R65). -/
def ttPort : Part → Nat → Nat → Nat
  | .baxel, n, off => 0x0200 + 32 * n + off
  | .kresia, n, off => 0x101000 + 32 * n + off

/-- The address of a word of a tenant page (R118). -/
def tPage (t off : Nat) : Nat := 0x1000 + 0x1000 * t + off

/-! ### Counting -/

/-- A fixed counter as an increment meets it: where it is stored, its field, the address that gives its event number
(R354), and the filters its increment passes (R357). -/
structure Ev where
  part : Part
  addr : Nat
  base : Nat
  lo : Nat := 0
  len : Nat := 32
  wide : Bool := false
  byDom : Bool := false
  /-- R309: a word shown under the class selector. -/
  byCls : Bool := false
  port : Option Nat := none
  ten : Option Nat := none
  dom : Option Nat := none
  cls : Option Nat := none

/-- A Baxel counter at its own address. -/
def evB (a : Nat) : Ev := { part := .baxel, addr := a, base := a }
/-- A counter in a tenant page, taken at its tenant-0 address (R354). -/
def evT (t off : Nat) : Ev := { part := .baxel, addr := tPage t off, base := 0x1000 + off, ten := some t }
/-- A Kresia counter at its own address. -/
def evK (a : Nat) : Ev := { part := .kresia, addr := a, base := a }
/-- A Kresia counter shown under a domain selector. -/
def evD (d a : Nat) : Ev := { part := .kresia, addr := a, base := a, byDom := true, dom := some d }
/-- A counter of either part at the same place of the time and stamp blocks. -/
def evTime (p : Part) (a : Nat) : Ev := { part := p, addr := tAddr p a, base := tAddr p a }

/-- R354: the event number of an address. -/
def evNum : Part → Nat → Nat
  | .baxel, a => a / 4
  | .kresia, a => if 0x100000 ≤ a then (a - 0x100000) / 4 else 0xE0000 + a / 4

/-- R356, R357: whether a programmable counter counts an increment of a fixed counter. -/
def Ctr.takes (c : Ctr) (e : Ev) : Bool :=
  c.mode = 1 && c.event = evNum e.part e.base && (!c.portEn || e.port = some c.port) &&
  (!c.tenEn || e.ten = some c.ten) && (!c.domEn || e.dom = some c.dom) && (!c.clsEn || e.cls = some c.cls)

/-- R356: a counter with n added, modulo 2^64. -/
def Ctr.add (c : Ctr) (n : Nat) : Ctr := { c with value := c.value + BitVec.ofNat 64 n }

/-- R356: a bank after an increment: OVF when a counter wrapped. -/
def CtrBank.take (b : CtrBank) (e : Ev) (n : Nat) : CtrBank :=
  { b with
    ctrs := FMap.mapVals b.ctrs fun _ c => if c.takes e then c.add n else c
    ovf := b.ovf || b.ctrs.any fun (_, c) => c.takes e && 2 ^ 64 ≤ c.value.toNat + n }

/-- R358: whether bank k of a part takes an increment: the privileged bank always, a tenant's bank its own tenant's
words in its page while it is not poisoned. -/
def bankTakes (k : Nat) (b : CtrBank) (e : Ev) : Bool :=
  k = 0 || (!b.poison && e.ten = some (k - 1))

/-- The stored word of a counter. -/
def State.ctrWord (s : State) (e : Ev) : Word :=
  if e.byDom then FMap.getD s.ks.c.domRegs ((e.dom.getD 0) * 2 ^ 24 + e.addr) (resetWord .kresia e.addr)
  else if e.byCls then FMap.getD (s.pc e.part).domRegs ((e.cls.getD 0) * 2 ^ 24 + e.addr) 0
  else s.rd e.part e.addr

def State.setCtrWord (s : State) (e : Ev) (v : Word) : State :=
  if e.byDom then
    s.modPc .kresia fun c => { c with domRegs := FMap.set c.domRegs ((e.dom.getD 0) * 2 ^ 24 + e.addr) v }
  else if e.byCls then
    s.modPc e.part fun c => { c with domRegs := FMap.set c.domRegs ((e.cls.getD 0) * 2 ^ 24 + e.addr) v }
  else s.wr e.part e.addr v

/-- R356 to R358: every programmable counter that names a fixed counter takes an increment of n. -/
def State.tally (s : State) (e : Ev) (n : Nat) : State :=
  s.modCtr e.part fun u =>
    { u with banks := FMap.mapVals u.banks fun k b => if bankTakes k b e then b.take e n else b }

/-- A fixed counter with n added, modulo its width; a 64-bit counter carries into its high word. Every programmable
counter that names it under its filters takes the increment (R356). -/
def State.count (s : State) (e : Ev) (n : Nat := 1) : State :=
  let w := s.ctrWord e
  let sum := w.get e.lo e.len + n
  let s1 := s.setCtrWord e (w.put e.lo e.len sum)
  let s2 :=
    if e.wide && 2 ^ e.len ≤ sum then
      let e' := { e with addr := e.addr + 4 }
      s1.setCtrWord e' (s1.ctrWord e' + BitVec.ofNat 32 (sum / 2 ^ e.len))
    else s1
  s2.tally e n

/-- R360: the bin of a latency of L ns. -/
def histBin (l : Nat) : Nat := if l = 0 then 0 else if 2 ^ 30 ≤ l then 31 else Nat.log2 l + 1

/-- R360: a histogram with one sample of delta grains. -/
def Hist.sample (h : Hist) (delta : Int) : Hist :=
  let l := (delta / 65536).toNat
  let b := histBin l
  let old := FMap.getD h.bins b 0
  { h with
    samples := h.samples + 1
    maxNs := max h.maxNs l
    bins := FMap.set h.bins b (min (old + 1) 4294967295)
    sat := h.sat || old = 4294967295 }

/-- R360: one sample of a latency event, with the port, tenant, domain and class it belongs to. -/
def State.sample (s : State) (p : Part) (event : Nat) (delta : Int) (port ten dom cls : Option Nat := none) : State :=
  s.modCtr p fun u =>
    { u with
      banks := FMap.mapVals u.banks fun k b =>
        if k = 0 || (!b.poison && ten = some (k - 1)) then
          { b with
            hists := FMap.mapVals b.hists fun _ h =>
              if h.event = event && (!h.portEn || port = some h.port) && (!h.domEn || dom = some h.dom) &&
                (!h.clsEn || cls = some h.cls) then h.sample delta else h }
        else b }

/-! ### Interrupts, sticky bits, reports -/

/-- R422: a pulse on IRQ_PRIV. Kresia has no such output. -/
def State.irqPriv (s : State) (p : Part) : State :=
  match p with
  | .baxel => s.emit .irqPriv
  | .kresia => s

/-- A sticky bit of `BX_TT` or `BX_TS_STATUS` set; the Baxel pulses IRQ_PRIV (R422). -/
def State.stickyTime (s : State) (p : Part) (a i : Nat) : State :=
  if s.bit p (tAddr p a) i then s else (s.setBit p (tAddr p a) i true).irqPriv p

/-- R272: the node number of a part: a Kresia identifier carries bit 20. -/
def State.node (s : State) : Part → Nat
  | .baxel => s.fld .baxel 0x0004 0 20
  | .kresia => s.fld .kresia 0x4 0 17 + 2 ^ 20

/-- R312: a record for the fault manager queued at a Kresia, or merged, or counted as dropped. -/
def State.queueEvent (s : State) (r : EventRec) : State :=
  if s.ks.events.length < 4096 then
    let r' := { r with evtSeq := s.fld .kresia 0x1B0020 0 32, dropped := s.ks.evtDropped }
    let s1 := s.modKs fun k => { k with events := k.events ++ [r'], evtDropped := 0 }
    (s1.wr .kresia 0x1B0020 (s1.rd .kresia 0x1B0020 + 1)).emit (.send .kresia .mgmt (.event r'))
  else if s.ks.events.any fun q => q.code = r.code && q.subject = r.subject && q.domain = r.domain then
    let upd := s.ks.events.map fun q =>
      if q.code = r.code && q.subject = r.subject && q.domain = r.domain then
        { q with repeats := min 255 (q.repeats + 1) } else q
    (s.modKs fun k => { k with events := upd }).count (evK 0x1B002C)
  else (s.modKs fun k => { k with evtDropped := k.evtDropped + 1 }).count (evK 0x1B0030)

/-- R311: a report to the fault manager: a Kresia queues an event record, a Baxel sends a TC1 message on every plane
it has. -/
def State.report (s : State) (p : Part) (code : Code) (detail : List Nat := []) (port : Nat := 255)
    (subject : Option Nat := none) (domain : Option Nat := none) : State :=
  match p with
  | .kresia =>
    s.queueEvent
      { code := code, domain := domain, reporter := s.node .kresia, port := port,
        subject := subject.getD (s.node .kresia), ot := s.otNow .kresia, detail := detail }
  | .baxel =>
    (s.emit (.send .baxel .planes (.report
      { code := code, reportSeq := s.bx.reportSeq, port := port, subject := subject.getD (s.node .baxel),
        domain := domain, ot := s.otNow .baxel, detail := detail }))).modBx
      fun b => { b with reportSeq := (b.reportSeq + 1) % 2 ^ 32 }

/-- R395, R396: an access refused to a view: a Baxel's sets VIEW_REFUSED, or BAD_TAG, a Kresia's UNMAPPED. -/
def State.viewRefused (s : State) (p : Part) (v : View) (a : Nat) : State :=
  match p, v with
  | .baxel, .badTag => s.setBit .baxel 0x0020 0 true
  | .baxel, _ => (s.setBit .baxel 0x0020 1 true).setFld .baxel 0x0024 0 16 a
  | .kresia, _ => (s.setBit .kresia 0x10 0 true).setFld .kresia 0x14 0 24 a

/-! ### Numbers -/

/-- The integer square root, bit by bit from bit i. -/
def isqrtGo : Nat → Nat → Nat → Nat
  | 0, _, r => r
  | i + 1, n, r => if (r + 2 ^ i) * (r + 2 ^ i) ≤ n then isqrtGo i n (r + 2 ^ i) else isqrtGo i n r

/-- The integer square root. -/
def isqrt (n : Nat) : Nat := isqrtGo (Nat.log2 n / 2 + 1) n 0

/-! ### Bytes -/

/-- The n bytes of a value, little-endian (R11). -/
def leBytes : Nat → Nat → List Byte
  | 0, _ => []
  | n + 1, v => BitVec.ofNat 8 v :: leBytes n (v / 256)

/-- The value of bytes read little-endian. -/
def leVal : List Byte → Nat
  | [] => 0
  | b :: t => b.toNat + 256 * leVal t

/-- The n bytes at an offset, read little-endian; bytes beyond the end read zero. -/
def le (bs : List Byte) (off n : Nat) : Nat := leVal ((bs.drop off).take n)

/-- The same, read as a signed value of n bytes. -/
def leS (bs : List Byte) (off n : Nat) : Int :=
  let v := le bs off n
  if v < 2 ^ (8 * n - 1) then v else (v : Int) - 2 ^ (8 * n)

/-- R27: an OT as 12 bytes. -/
def otBytes (x : OT) : List Byte := leBytes 4 x.word0.toNat ++ leBytes 4 x.word1.toNat ++ leBytes 4 x.word2.toNat

/-- R27: the OT of 12 bytes at an offset. -/
def leOt (bs : List Byte) (off : Nat) : OT :=
  OT.ofWords (BitVec.ofNat 32 (le bs off 4)) (BitVec.ofNat 32 (le bs (off + 4) 4)) (BitVec.ofNat 32 (le bs (off + 8) 4))

end Sys2Proof.Machine
end

