-- ==== Sys2Proof/Machine/CtlBytes.lean ====
section
/-! DEFINITION. The 64-byte payload of a control message (R92), and the Olora 2 form of its sequence (R117). -/

namespace Sys2Proof
open Sys2Proof.Machine

/-- R92: TYPE. -/
def CtlType.code : CtlType → Nat
  | .arrive => 0x20
  | .arm => 0x21
  | .ack => 0x22
  | .tamp => 0x23
  | .void => 0x24
  | .orphan => 0x25
  | .tenantFault => 0x26
  | .gateMiss => 0x27

/-- R92: bytes 20 to 31. -/
def Ctl.dueBytes (m : Ctl) : List Byte :=
  match m.kind with
  | .arm => otBytes m.due
  | .tamp => otBytes m.due
  | .void => leBytes 4 m.voidedEpoch ++ leBytes 2 m.cause.toNat ++ leBytes 6 0
  | _ => leBytes 12 0

/-- R92: bytes 44 to 59. -/
def Ctl.bitmapBytes (m : Ctl) : List Byte :=
  if m.record then leBytes 16 m.bitmap.toNat
  else if m.bell && (m.kind = .arm || m.kind = .tamp) then leBytes 6 m.period ++ leBytes 4 m.bellCount ++ leBytes 6 0
  else leBytes 16 0

/-- R92: the payload. -/
def Ctl.bytes (m : Ctl) : List Byte :=
  leBytes 1 m.kind.code ++
  leBytes 1 ((if m.record then 1 else 0) + (if m.bell then 2 else 0) + (if m.cancel then 4 else 0)) ++
  leBytes 2 m.domain ++ leBytes 4 m.epoch ++ leBytes 4 m.seq ++ leBytes 6 m.step ++ leBytes 2 (m.slot % 1024) ++
  m.dueBytes ++
  leBytes 4 (if m.kind = .arm then m.window else 0) ++ leBytes 4 (m.member % 2 ^ 20) ++ leBytes 2 m.status.toNat ++
  leBytes 1 (if m.fromKresia then 1 else 0) ++ leBytes 1 0 ++
  m.bitmapBytes ++
  leBytes 4 (if m.record && m.kind = .arrive then m.latest % 128 else 0)

/-- R117: on a Ploav 2 port a message carries the low 16 bits of SEQ. -/
def Ctl.lowSeq (m : Ctl) : Ctl := { m with seq := m.seq % 2 ^ 16 }

/-- R117: the sequence nearest to the last one seen that has these low 16 bits. -/
def wideSeq (last low : Nat) : Nat := ((last : Int) + (BitVec.ofNat 16 low - BitVec.ofNat 16 last).toInt).toNat % 2 ^ 32

end Sys2Proof
end

