-- ==== Sys2Proof/Machine/Mem.lean ====
section
/-! DEFINITION. Memory: the byte memory of a Kresia in one canonical form, and the requests a Baxel puts on its memory
ports, behind which the die's memory lies (R4, R411 to R414). -/

namespace Sys2Proof.Machine

/-- What a byte of Kresia memory reads as that nothing has written (log 4). -/
def memDefault : Byte := 0

/-- The byte at an address. -/
def memRead : List Host.Cell → Nat → Byte
  | [], _ => memDefault
  | (j, v) :: t, a => if j = a then v else memRead t a

/-- The memory without an entry at an address. -/
def memErase : List Host.Cell → Nat → List Host.Cell
  | [], _ => []
  | (j, v) :: t, a => if j = a then t else (j, v) :: memErase t a

/-- The memory with an entry at an address, kept in rising order. -/
def memInsert : List Host.Cell → Nat → Byte → List Host.Cell
  | [], a, v => [(a, v)]
  | (j, w) :: t, a, v =>
    if a < j then (a, v) :: (j, w) :: t
    else if a = j then (a, v) :: t
    else (j, w) :: memInsert t a v

/-- One byte written: writing what an unlisted address reads as removes the entry. -/
def memWrite (m : List Host.Cell) (a : Nat) (v : Byte) : List Host.Cell :=
  if v = memDefault then memErase m a else memInsert m a v

/-- A byte string written from an address on. -/
def memWriteAll : List Host.Cell → Nat → List Byte → List Host.Cell
  | m, _, [] => m
  | m, a, b :: t => memWriteAll (memWrite m a b) (a + 1) t

/-- n bytes from an address on. -/
def memReadAll (m : List Host.Cell) (a n : Nat) : List Byte := (List.range n).map fun i => memRead m (a + i)

/-- The canonical form: addresses strictly rising, no entry equal to what an unlisted address reads as. -/
def Memory.wf : List Host.Cell → Bool
  | [] => true
  | [(_, v)] => v ≠ memDefault
  | (j, v) :: (k, w) :: t => v ≠ memDefault && j < k && Memory.wf ((k, w) :: t)

/-- Kresia memory with a byte string written (a part's own write completes in its memory). -/
def State.ksWrite (s : State) (a : Nat) (bs : List Byte) : State := s.modKs fun k => { k with mem := memWriteAll k.mem a bs }

/-- R442: the stack on which the line at an address of Kresia memory lies. -/
def stackOf (a : Nat) : Nat := ((a >>> 8) ^^^ (a >>> 13) ^^^ (a >>> 18)) % 32

/-! ### Baxel memory ports -/

/-- R411: the port a line travels by: address bits [7:6]; boot and firmware accesses use port 0. -/
def memPort (a : Nat) : Nat := a / 64 % 4

/-- R411, R414: the lowest ID of a port with no request outstanding, timed-out ones included. -/
def freeId (m : FMap MemReq) (port : Nat) : Nat :=
  ((List.range (m.length + 1)).find? fun i => !FMap.has m (port * 4096 + i)).getD 0

/-- R411: the keys of writes that wait for room on their port start here: rising by age, the port in the lowest two bits. -/
def waitKeys : Nat := 2 ^ 20

/-- R411: writes outstanding on a port. -/
def State.writesOn (s : State) (port : Nat) : Nat :=
  (s.bx.writes.filter fun (k, _) => k < waitKeys && k / 4096 = port).length

/-- R411: the oldest write that waits for room on a port. -/
def State.waitingWrite (s : State) (port : Nat) : Option (Nat × MemReq) :=
  List.find? (fun ((k, _) : Nat × MemReq) => waitKeys ≤ k && k % 4 = port) s.bx.writes

/-- R411: the key of the next write to wait on a port. -/
def State.waitKey (s : State) (port : Nat) : Nat :=
  match s.bx.writes.getLast? with
  | some (k, _) => if waitKeys ≤ k then (k / 4 + 1) * 4 + port else waitKeys + port
  | none => waitKeys + port

/-- R394, R411: the requester code of a tenant, and of the privileged view. -/
def memTag (t : Option Nat) : Nat :=
  match t with
  | some k => 4 + k
  | none => 0

/-- R411: one write request of at most a line; with 256 outstanding on its port it waits. -/
def State.bxWriteLine (s : State) (port a : Nat) (bs : List Byte) (tag : Nat) (use : MemUse) : State :=
  let r : MemReq := { addr := a, bytes := bs.length, tag := tag, use := use, issued := s.raw .baxel }
  if 256 ≤ s.writesOn port then
    s.modBx fun b => { b with writes := FMap.set b.writes (s.waitKey port) { r with data := bs } }
  else
    let id := freeId s.bx.writes port
    (s.modBx fun b => { b with writes := FMap.set b.writes (port * 4096 + id) r }).emit (.memWrite port id a bs tag)

/-- R411: a response has made room on a port: the write that has waited longest goes out. -/
def State.nextWrite (s : State) (port : Nat) : State :=
  match s.waitingWrite port with
  | none => s
  | some (k, r) =>
    let id := freeId s.bx.writes port
    (s.modBx fun b =>
      { b with
        writes := FMap.set (FMap.erase b.writes k) (port * 4096 + id) { r with data := [], issued := s.raw .baxel }
        v2Waits := b.v2Waits.map fun w => { w with writes := w.writes.map fun q => if q = k then port * 4096 + id else q } }).emit
      (.memWrite port id r.addr r.data r.tag)

/-- The lines a byte string at an address falls into: (address, bytes), at most `fuel` of them. -/
def linesOf : Nat → Nat → List Byte → List (Nat × List Byte)
  | 0, _, _ => []
  | fuel + 1, a, bs =>
    if bs.isEmpty then []
    else
      let n := 64 - a % 64
      (a, bs.take n) :: linesOf fuel (a + n) (bs.drop n)

/-- R411: a byte string written to die memory, line by line, by the port of each line's address. -/
def State.bxWrite (s : State) (a : Nat) (bs : List Byte) (tag : Nat) (use : MemUse) (port : Option Nat := none) : State :=
  (linesOf (bs.length / 64 + 2) a bs).foldl
    (fun s (x, l) => s.bxWriteLine (port.getD (memPort x)) x l tag use) s

/-- R411: a read request of up to 64 lines. -/
def State.bxRead (s : State) (port a beats tag : Nat) (use : MemUse) : State :=
  let id := freeId s.bx.reads port
  (s.modBx fun b =>
    { b with reads := FMap.set b.reads (port * 4096 + id) { addr := a, bytes := 64 * beats, tag := tag, use := use, issued := s.raw .baxel } }).emit
    (.memRead port id a beats tag)

end Sys2Proof.Machine
end

