-- ==== Sys2Proof/Machine/MboxCore.lean ====
section
/-! DEFINITION. Mailbox slots and completions (R376 to R384): what every command of a mailbox is written over. -/

namespace Sys2Proof.Machine

/-- R401: the control words of a mailbox. -/
def mbAddr : Part → Nat → Nat → Nat
  | .baxel, m, off => 0xB800 + 0x40 * m + off
  | .kresia, m, off => 0x200800 + 0x1000 * m + off

/-- R376: mailboxes of a part. -/
def mboxCount : Part → Nat
  | .baxel => 5
  | .kresia => 64

def State.mbox (s : State) (p : Part) (m : Nat) : Mailbox := FMap.getD (s.pc p).fw.mailboxes m {}
def State.modMbox (s : State) (p : Part) (m : Nat) (f : Mailbox → Mailbox) : State :=
  s.modFw p fun w => { w with mailboxes := FMap.update w.mailboxes m {} f }
def State.mslot (s : State) (p : Part) (m k : Nat) : MSlot := FMap.getD (s.mbox p m).slots k {}
def State.modMslot (s : State) (p : Part) (m k : Nat) (f : MSlot → MSlot) : State :=
  s.modMbox p m fun b => { b with slots := FMap.update b.slots k {} f }

/-- R422, R389: the interrupt of a completion that becomes READY with IRQ_EN set. -/
def State.mboxIrq (s : State) (p : Part) (m : Nat) : State :=
  if s.bit p (mbAddr p m 0x14) 0 then
    match p with
    | .baxel => if m = 0 then s.emit .irqPriv else s.emit (.irqT (m - 1))
    | .kresia => s.emit (.msix m)
  else s

/-- Bytes laid into a window from its start, word by word. -/
def putBytes (w : FMap Word) (bs : List Byte) : FMap Word :=
  (List.range ((bs.length + 3) / 4)).foldl (fun m i => FMap.set m (4 * i) (BitVec.ofNat 32 (le bs (4 * i) 4))) w

/-- R336: LAST_CODE of the fault block follows the fault commands (0x0901 to 0x090D) of this Kresia. -/
def State.faultCode (s : State) (op : Nat) (code : Code) : State :=
  if 0x0901 ≤ op && op ≤ 0x090D then s.setFld .kresia 0x1B012C 0 16 code.toNat else s

/-- R379, R381, R388: firmware writes a completion and swaps the buffers with READY set; the slot stays locked. The
completion goes out once on each port by which a copy of the command came. -/
def State.complete (s : State) (p : Part) (m k : Nat) (status : Code) (result : List Byte := []) (inline : List Byte := []) : State :=
  match (s.mslot p m k).taken with
  | none => s
  | some tk =>
    let c : Completion := ⟨le tk.bytes 0 2, le tk.bytes 2 2, status, true, result, inline⟩
    let s1 := (s.modMslot p m k fun x =>
      { x with comp := c, taken := none, window := if p = .kresia then putBytes x.window inline else x.window }).mboxIrq p m
    tk.ports.foldl (fun s q => s.emit (.completion q m k c false)) (if p = .kresia then s1.faultCode (le tk.bytes 0 2) status else s1)

end Sys2Proof.Machine
end

