-- ==== Sys2Proof/Machine/BxCore.lean ====
section
/-! DEFINITION. The Baxel's tenants and launch-list slots: access, partitions, the control messages a member sends,
voiding slots, missing a gated launch (R89, R92, R109, R114). -/

namespace Sys2Proof.Machine

/-! ### The steer output (R111, R418) -/

/-- R111: the steer setting in force: M and N, 64 coded as 0. -/
def State.steer (s : State) : Option (Nat × Nat) :=
  let dec (x : Nat) : Nat := if x = 0 then 64 else x
  if s.bit .baxel 0x0430 0 then some (dec (s.fld .baxel 0x0430 1 6), dec (s.fld .baxel 0x0430 7 6)) else none

/-- R111, R418: what STEER_CLK carries: the steer output, or, while STEER_EN is clear, what STRAP_STEER_FB selects. -/
def State.steerClk (s : State) : SteerClk :=
  match s.steer with
  | some (m, n) => .steered m n
  | none => if s.bx.straps.steerFb = 1 then .high else if s.bx.straps.steerFb = 2 then .free100 else .low

/-- STEER_CLK driven anew. -/
def State.driveSteer (s : State) : State := s.emit (.steerClk s.steerClk)

def State.ten (s : State) (t : Nat) : Tenant := FMap.getD s.bx.tenants t {}
def State.modTen (s : State) (t : Nat) (f : Tenant → Tenant) : State :=
  s.modBx fun b => { b with tenants := FMap.update b.tenants t {} f }

/-- R17: the tenant bound to a domain. -/
def State.tenantOf (s : State) (domain : Nat) : Option Nat :=
  (List.range 4).find? fun t => (s.ten t).domain = some domain

/-- R89: the partition of a tenant: first slot and count. -/
def State.llBase (s : State) (t : Nat) : Nat := s.fld .baxel (0x0400 + 4 * t) 0 10
def State.llCount (s : State) (t : Nat) : Nat := s.fld .baxel (0x0400 + 4 * t) 10 11

/-- R89: the number among the 1,024 of the slot a tenant addresses by an index from 0 to COUNT − 1. Another index names no
slot: it goes past the 1,024, where none is ever filled. -/
def State.slotNo (s : State) (t i : Nat) : Nat := if t < 4 && i < s.llCount t then s.llBase t + i else 1024 + 4 * i + t

/-- A slot by its index in a tenant's partition. -/
def State.slot (s : State) (t i : Nat) : Slot := FMap.getD s.bx.slots (s.slotNo t i) {}
def State.modSlot (s : State) (t i : Nat) (f : Slot → Slot) : State :=
  s.modBx fun b => { b with slots := FMap.update b.slots (s.slotNo t i) {} f }

/-- The indices of a tenant's slots that are not FREE. -/
def State.slotsOf (s : State) (t : Nat) : List (Nat × Slot) :=
  s.bx.slots.filterMap fun (k, e) =>
    if t < 4 && s.llBase t ≤ k && k < s.llBase t + s.llCount t && e.state ≠ .free then some (k - s.llBase t, e) else none

/-- R92, R94: a message of a member, once on every plane it has. -/
def State.sendCtl (s : State) (m : Ctl) : State :=
  s.emit (.send .baxel .planes (.ctl { m with member := s.fld .baxel 0x0004 0 20 }))

/-- R92: ORPHAN, GATE_MISS and ACK name the arm concerned. -/
def slotCtl (kind : CtlType) (t : Tenant) (i : Nat) (e : Slot) (status : Code) : Ctl :=
  { kind := kind, domain := t.domain.getD 0, epoch := e.epoch, seq := e.seq, step := e.step, slot := i, status := status }

/-! ### Gate waiters of a slot (R108) -/

/-- R128: the object partition of a tenant. -/
def State.objBase (s : State) (t : Nat) : Nat := s.fld .baxel (0x0500 + 4 * t) 0 12
def State.objCount (s : State) (t : Nat) : Nat := s.fld .baxel (0x0500 + 4 * t) 12 13

/-- R120: the objects of a part. -/
def State.objs (s : State) : Part → FMap Obj
  | .baxel => s.bx.objs
  | .kresia => s.ks.objs
def State.obj (s : State) (p : Part) (o : Nat) : Obj := FMap.getD (s.objs p) o {}
def State.modObj (s : State) (p : Part) (o : Nat) (f : Obj → Obj) : State :=
  match p with
  | .baxel => s.modBx fun b => { b with objs := FMap.update b.objs o {} f }
  | .kresia => s.modKs fun k => { k with objs := FMap.update k.objs o {} f }

/-- R108: the enabled gates of a slot: (index in the tenant's partition, count). -/
def slotGates (tm : Template) : List (Nat × Nat) :=
  (if tm.gate0En then [(tm.gate0Obj, tm.gate0N)] else []) ++ (if tm.gate1En then [(tm.gate1Obj, tm.gate1N)] else [])

/-- Whether a waiter is the gate take of a slot of a tenant. -/
def Waiter.isGate (w : Waiter) (t i : Nat) : Bool := w.owner = t && w.source = .gate i

/-- The gate take of a slot withdrawn: it subtracts nothing. -/
def State.dropGate (s : State) (t i : Nat) : State :=
  s.modBx fun b => { b with objs := FMap.mapVals b.objs fun _ o =>
    { o with waiters := o.waiters.filter fun w => !w.isGate t i } }

/-- R415: a descriptor presented and not yet fired is withdrawn. -/
def State.withdrawLp (s : State) (t i : Nat) (e : Slot) : State :=
  if e.presented || e.held then s.emit (.lpWithdraw t i) else s

/-! ### Bell series (R24, R104) -/

/-- R24: the series after one of its bells, fired or skipped: the next bell, or the end of the series, which leaves
the slot LOADED. -/
def Slot.bellNext (u : TimeUnit) (e : Slot) : Slot :=
  let e1 := { e with presented := false, accepted := none, held := false, late := false, steer := none }
  if e.bellCount ≠ 0 && e.bellCount ≤ e.bellK + 1 then
    { e1 with state := .loaded, dueD := none, wD := none, change := none }
  else
    { e1 with
      state := .bellRun
      bellK := e.bellK + 1
      dueD := some (u.mkDue (otAdd e.due (((e.bellK + 1) * e.period : Nat) : Int))) }

/-- R104: what a void leaves of a series that ran: its next grid instant and its period. -/
def Slot.gridAfter (e : Slot) : Option (OT × Nat) :=
  match e.tmpl.bell, e.state, e.dueD with
  | true, .bellRun, some d => some (d.ot, e.period)
  | true, .waiting, some d => some (d.ot, e.period)
  | _, _, _ => e.voidGrid

/-- A slot becomes VOID: its take and its descriptor are withdrawn. -/
def State.slotVoid (s : State) (t i : Nat) : State :=
  let e := s.slot t i
  ((s.dropGate t i).withdrawLp t i e).modSlot t i fun e =>
    { e with state := .void, presented := false, accepted := none, held := false, late := false, change := none,
             dueD := none, wD := none, steer := none, voidGrid := e.gridAfter }

/-- R109: a gated launch is missed. A one-shot is voided and reported to the crown; a bell is skipped and its series
goes on. -/
def State.gateMiss (s : State) (t i : Nat) : State :=
  let e := s.slot t i
  let s1 := s.count (evT t 0x124)
  if e.tmpl.bell then
    ((((s1.dropGate t i).withdrawLp t i e).modSlot t i fun e => e.bellNext s.bx.c.time).count (evT t 0x11C)).emit (.irqT t)
  else (s1.slotVoid t i).sendCtl (slotCtl .gateMiss (s.ten t) i e 0x2005)

/-! ### Take completions (R130) -/

/-- R130: an ended register TAKE enters the queue of its view. -/
def State.pushTcq (s : State) (t : Nat) (e : TcqEntry) : State := s.modTen t fun x => { x with tcq := x.tcq ++ [e] }

/-- What the end of a waiting TAKE does at its caller: a response, a completion-queue entry, a missed launch, a
command's completion, an unblocked entry. -/
def State.endWaiter (s : State) (p : Part) (o : Nat) (w : Waiter) (code : Code) : State :=
  let s0 := s.sample p 0xF0100 (Raw.diff (s.raw p) w.issued) (ten := some w.owner)
  match p with
  | .baxel =>
    match w.source with
    | .signalPort => s0.emit (.spResponse w.owner w.tag code (s.obj p o).value)
    | .view => s0.pushTcq w.owner ⟨w.tag, o - s.objBase w.owner, code⟩
    | .gate i => s0.gateMiss w.owner i
    | _ => s0
  | .kresia =>
    match w.source with
    | .entry i => s0.modKs fun k => { k with takesDone := k.takesDone ++ [(w.owner, i, code)] }
    | .engine i => s0.modKs fun k => { k with takesDone := k.takesDone ++ [(w.owner, i, code)] }
    | .mailbox m k => s0.complete .kresia m k code (leBytes 4 (s.obj p o).value)
    | _ => s0

/-! ### Tenant faults (R114) -/

/-- R114: the objects' waiters of a tenant that faults end with its code. -/
def State.endTenantWaiters (s : State) (t : Nat) (code : Code) : State :=
  s.bx.objs.foldl (fun s (o, x) =>
    let mine := x.waiters.filter (·.owner = t)
    let s1 := if mine.isEmpty then s
      else s.modObj .baxel o fun y => { y with waiters := y.waiters.filter (·.owner ≠ t) }
    mine.foldl (fun s w => match w.source with
      | .gate _ => s
      | _ => s.endWaiter .baxel o w code) s1) s

/-- R114: a slot of a tenant that faults: one still to fire is voided. A series goes on, and its bells are skipped, the
one its launch channel holds among them (DESIGN CHOICE, log 137). -/
def State.faultSlot (s : State) (t i : Nat) : State :=
  let e := s.slot t i
  match e.state with
  | .armed => (s.slotVoid t i).count (evT t 0x104)
  | .tamped => (s.slotVoid t i).count (evT t 0x104)
  | .waiting => (s.slotVoid t i).count (evT t 0x104)
  | .bellRun =>
    if e.held then
      ((s.withdrawLp t i e).modSlot t i fun e => e.bellNext s.bx.c.time).count (evT t 0x11C)
    else s
  | _ => s

/-- R114: tenant t faults with a cause. A tenant already FAULTED takes no further fault. Its report names the step of its
last arm or void, and before the first of them STEP_FIRST of its program (DEDUCED, log 138). -/
def State.tenantFault (s : State) (t : Nat) (cause : Code) : State :=
  let x := s.ten t
  if x.faulted then s
  else
    let s1 := (s.modTen t fun y => { y with faulted := true }).modCtr .baxel fun u =>
      { u with banks := FMap.update u.banks (t + 1) {} fun b => { b with poison := true } }
    let s2 := (s1.slotsOf t).foldl (fun s (i, _) => s.faultSlot t i) s1
    let s3 := (s2.endTenantWaiters t 0x300C).emit (.irqT t)
    match x.domain with
    | some d => s3.sendCtl { kind := .tenantFault, domain := d, epoch := x.epoch, step := x.named.getD (x.stepFirst.getD 0), status := cause }
    | none => s3

/-- R118: BX_T_STATUS.STATE of a tenant. -/
def State.tenState (s : State) (t : Nat) : Nat :=
  if s.bx.fenced then 3 else if (s.ten t).faulted then 2 else if (s.ten t).domain.isSome then 1 else 0

/-- A refusal written to LAST_CODE of a tenant view (R118, R126). -/
def State.viewCode (s : State) (t : Nat) (code : Code) : State := s.setFld .baxel (tPage t 0) 16 16 code.toNat

end Sys2Proof.Machine
end

