-- ==== Sys2Proof/Machine/Objects.lean ====
section
/-! DEFINITION. Synchronisation objects: the operations of R121 with their refusals (R126), waiters (R123, R131),
poisoning (R125, R134), the register port (R129, R130) and the signal port (R419). -/

namespace Sys2Proof.Machine

/-- The largest VALUE (R121). -/
def objMax : Nat := 2147483647

/-- R128: the tenant whose partition holds an object, by absolute number. -/
def State.objOwner (s : State) (o : Nat) : Option Nat :=
  (List.range 4).find? fun t => s.objBase t ≤ o && o < s.objBase t + s.objCount t

/-! ### Serving waiters -/

/-- R123: the waiters that at most k cycles complete from the head, one each: the value left, those completed, those that
stay. A launch gate's combined take is its slot's own event (R108) and stops the run. -/
def serve : Nat → Nat → List Waiter → Nat × List Waiter × List Waiter
  | 0, v, l => (v, [], l)
  | _ + 1, v, [] => (v, [], [])
  | k + 1, v, w :: t =>
    match w.source with
    | .gate _ => (v, [], w :: t)
    | _ =>
      if w.n ≤ v then
        let (v', done, rest) := serve k (v - w.n) t
        (v', w :: done, rest)
      else (v, [], w :: t)

/-- R123: k cycles of service of an object. -/
def State.serveFor (s : State) (p : Part) (o k : Nat) : State :=
  let x := s.obj p o
  let (v, done, rest) := serve k x.value x.waiters
  if done.isEmpty then s
  else
    let s1 := s.modObj p o fun y => { y with value := v, waiters := rest, servedAt := some (s.raw p) }
    done.foldl (fun s w =>
      (match p with
        | .baxel => s.count (evT w.owner 0x234)
        | .kresia => s).endWaiter p o w 0x0000) s1

/-- R123: the first waiter that an increase of VALUE releases, in the same cycle, unless that cycle has served one; the
others follow one a cycle (`State.tickObjs`). -/
def State.serveObj (s : State) (p : Part) (o : Nat) : State :=
  if (s.obj p o).servedAt = some (s.raw p) then s else s.serveFor p o 1

/-- R123: whether a waiter stands at the head of an object that its VALUE covers. -/
def Obj.runs (x : Obj) : Bool :=
  match x.waiters with
  | [] => false
  | w :: _ => w.n ≤ x.value && (match w.source with
    | .gate _ => false
    | _ => true)

/-- R340: KS throttle level. -/
def State.throttle (s : State) : Nat := s.fld .kresia 0x1C001C 0 2

/-- R123, R124: cycles of a part's object unit in one nanosecond: one on Baxel; on Kresia as many as its fabric clock of
1.6, 1.2 or 0.8 GHz has edges then, whose phase is free (log 6). -/
def State.objCycles (s : State) (p : Part) : Nat × State :=
  match p with
  | .baxel => (1, s)
  | .kresia =>
    let (c, s1) := s.draw
    (if 2 ≤ s.throttle then c % 2 else 1 + c % 2, s1)

/-- R123: the runs of service go on: each object with a covered waiter at its head is served for this nanosecond. -/
def State.tickObjs (s : State) (p : Part) : State :=
  ((s.objs p).filter fun (_, x) => x.runs).foldl (fun s (o, _) =>
    let (k, s1) := s.objCycles p
    s1.serveFor p o k) s

/-! ### Poisoning -/

/-- R125: every waiter of an object ends with a code, subtracting nothing. -/
def State.endAll (s : State) (p : Part) (o : Nat) (code : Code) : State :=
  let ws := (s.obj p o).waiters
  ws.foldl (fun s w => s.endWaiter p o w code) (s.modObj p o fun y => { y with waiters := [] })

/-- R125, R134: an error poisons the object, ends its waiters, and faults the owning tenant; on Kresia the crown of
the domain is told. -/
def State.poisonObj (s : State) (p : Part) (o : Nat) (code : Code) : State :=
  let s1 := (s.modObj p o fun y => { y with poison := true, poisonCode := code }).endAll p o 0x3003
  match p with
  | .baxel => match s.objOwner o with
    | some t => s1.tenantFault t code
    | none => s1
  | .kresia => match (s.obj .kresia o).domain with
    | some d => s1.emit (.send .kresia (.crown d)
        (.ctl { kind := .tenantFault, domain := d, epoch := (FMap.getD s1.ks.doms d {}).epoch,
                step := (FMap.getD s1.ks.doms d {}).step, fromKresia := true, status := code }))
    | none => s1

/-! ### Applying -/

/-- Who applied a SIGNAL or SET (R143): identifier, kind, path, sequence. -/
structure Applier where
  src : Nat
  kind : Nat
  path : Nat
  seq : Nat

/-- R124: the OT recorded of an apply: the cycle edge on Baxel; on Kresia the first time-island edge at or after the
end of the fabric cycle, whose phase the manual leaves open (log 6): a cycle of at most 1 ns ends within two edges, one of
1.25 ns (R340, level 2) within three. -/
def State.applyOt (s : State) (p : Part) : OT × State :=
  match p with
  | .baxel => (s.otNow .baxel, s)
  | .kresia =>
    let (c, s1) := s.draw
    (s.ks.c.time.ot (s.raw .kresia + BitVec.ofNat 64 ((1 + c % (if 2 ≤ s.throttle then 3 else 2)) * 65536)), s1)

/-- R143: the source of an apply recorded. -/
def State.recordApply (s : State) (p : Part) (o : Nat) (a : Applier) : State :=
  let (ot, s1) := s.applyOt p
  s1.modObj p o fun y => { y with lastSrc := a.src, srcKind := a.kind, lastPath := a.path, lastSeq := a.seq, lastOt := ot }

/-- R121, R125: SIGNAL(n): the sum, or an overflow. Answers the code. -/
def State.signalObj (s : State) (p : Part) (o n : Nat) (a : Applier) : State × Code :=
  let x := s.obj p o
  if objMax < x.value + n then (s.poisonObj p o 0x3001, 0x3001)
  else
    let s1 := (s.recordApply p o a).modObj p o fun y => { y with value := y.value + n, sigCount := y.sigCount + 1 }
    let s2 := match p with
      | .baxel => match s.objOwner o with
        | some t => s1.count (evT t 0x230)
        | none => s1
      | .kresia => s1
    (s2.serveObj p o, 0x0000)

/-- R121, R125: DEC(n). -/
def State.decObj (s : State) (p : Part) (o n : Nat) : State × Code :=
  if (s.obj p o).value < n then (s.poisonObj p o 0x3002, 0x3002)
  else (s.modObj p o fun y => { y with value := y.value - n }, 0x0000)

/-- R121, R127: SET(v). -/
def State.setObj (s : State) (p : Part) (o v : Nat) (a : Applier) : State :=
  ((s.recordApply p o a).modObj p o fun y => { y with value := v, poison := false, poisonCode := 0 }).serveObj p o

/-! ### The waiter pool -/

/-- R131: waiters a tenant has, over all objects. -/
def State.waitUsed (s : State) (t : Nat) : Nat :=
  (s.bx.objs.map fun (_, o) => (o.waiters.filter (·.owner = t)).length).foldl (· + ·) 0

def State.wfloor (s : State) (t : Nat) : Nat := s.fld .baxel (0x0510 + 4 * t) 0 12

/-- R131: whether tenant t can take k more waiter slots, from its floor and the shared ones. -/
def State.waitRoom (s : State) (t k : Nat) : Bool :=
  let used (u : Nat) : Nat := s.waitUsed u + (if u = t then k else 0)
  let overlaid := ((List.range 4).map fun u => used u - s.wfloor u).foldl (· + ·) 0
  let floors := ((List.range 4).map s.wfloor).foldl (· + ·) 0
  used t ≤ s.wfloor t || overlaid ≤ 2048 - floors

/-- R135: whether the Kresia's shared pool has a slot. -/
def State.ksWaitRoom (s : State) : Bool :=
  (s.ks.objs.map fun (_, o) => o.waiters.length).foldl (· + ·) 0 < 16384

/-- R130: waiting register TAKEs of a view. -/
def State.viewWaiting (s : State) (t : Nat) : Nat :=
  (s.bx.objs.map fun (_, o) => (o.waiters.filter fun w => w.owner = t && w.source = .view).length).foldl (· + ·) 0

/-! ### Requests -/

/-- The part a request reaches. -/
def reqPart : ObjReq → Part
  | .port .. => .baxel
  | .reserved .. => .baxel
  | .view .. => .baxel
  | .entry .. => .kresia
  | .engine .. => .kresia

/-- The object a request names, by absolute number; none where the index lies beyond the view's partition. -/
def State.reqObj (s : State) (r : ObjReq) : Option Nat :=
  match r with
  | .port _ _ _ o => if o < 4096 then some o else none
  | .reserved _ _ => none
  | .view t _ o _ => if o < s.objCount t then some (s.objBase t + o) else none
  | .entry _ _ _ o => if o < 65536 then some o else none
  | .engine _ _ _ o => if o < 65536 then some o else none

/-- The count or value of a request: a view's stands in OBJ_ARG (R129). -/
def State.reqN (s : State) (r : ObjReq) : Nat :=
  match r with
  | .port _ _ n _ => n
  | .reserved _ _ => 0
  | .view t _ _ _ => s.fld .baxel (tPage t 0x200) 0 31
  | .entry _ _ n _ => n
  | .engine _ _ n _ => n

/-- R126: the refusal of an operation; `needsN`: the operation names a count; `peek`; `set`. -/
def State.refusal (s : State) (r : ObjReq) (needsN peek set : Bool) : Option Code :=
  match s.reqObj r with
  | none => some 0x3004
  | some o =>
    let x := s.obj (reqPart r) o
    let priv := match r with
      | .view _ pv _ _ => pv
      | _ => false
    if needsN && s.reqN r = 0 then some 0x3004
    else match r with
      | .reserved _ _ => some 0x3004
      | .port t _ _ _ =>
        match s.objOwner o with
        | none => some 0x3004
        | some u =>
          if u ≠ t then some 0x3005
          else if set then some 0x3007
          else if peek then none
          else if x.poison then some 0x3003
          else if (s.ten u).faulted then some 0x300C
          else none
      | .view t _ _ _ =>
        if set && !priv then some 0x3007
        else if peek || set then none
        else if x.poison then some 0x3003
        else if (s.ten t).faulted then some 0x300C
        else none
      | .entry d _ _ _ =>
        if x.domain ≠ some d then some 0x3006
        else if set then some 0x3007
        else if peek then none
        else if x.poison then some 0x3003 else none
      | .engine d _ _ _ =>
        if x.domain ≠ some d then some 0x3006
        else if set then some 0x3007
        else if peek then none
        else if x.poison then some 0x3003 else none

/-- R131, R419: whether the signal port is ready for a tenant: not while it is FAULTED or unbound, nor while a TAKE of it
waits for a waiter slot. -/
def State.portReady (s : State) (t : Nat) : Bool :=
  !(s.ten t).faulted && (s.ten t).domain.isSome && !(s.bx.heldTakes.any fun r => r.owner = t)

/-- Whether a request is accepted now. -/
def State.accepted (s : State) (r : ObjReq) : Bool :=
  match r with
  | .port t _ _ _ => s.portReady t
  | .reserved t _ => s.portReady t
  | .view .. => true
  | .entry .. => true
  | .engine .. => true

/-- R129: OP_SEQ after a write of OBJ_OP. -/
def State.bumpOpSeq (s : State) (r : ObjReq) : State :=
  match r with
  | .view t _ _ _ => s.setFld .baxel (tPage t 0x210) 16 16 (s.fld .baxel (tPage t 0x210) 16 16 + 1)
  | _ => s

/-- R126, R129, R419: the result of an operation at its caller. -/
def State.answer (s : State) (r : ObjReq) (code : Code) (value : Nat) (pending : Bool := false) : State :=
  match r with
  | .port t tag _ _ => if pending then s else s.emit (.spResponse t tag code value)
  | .reserved t tag => s.emit (.spResponse t tag code value)
  | .view t _ _ _ =>
    (s.wr .baxel (tPage t 0x20C) (BitVec.ofNat 32 (value + (if pending then 2 ^ 31 else 0)))).setFld .baxel
      (tPage t 0x210) 0 16 code.toNat
  | .entry d i _ _ => if pending then s else s.modKs fun k => { k with takesDone := k.takesDone ++ [(d, i, code)] }
  | .engine d i _ _ => if pending then s else s.modKs fun k => { k with takesDone := k.takesDone ++ [(d, i, code)] }

/-- An operation ends at its caller with a code: its answer, and LAST_CODE of a view. -/
def State.turnAway (s : State) (r : ObjReq) (code : Code) : State :=
  let s1 := s.answer r code 0
  match r with
  | .view t _ _ _ => s1.viewCode t code
  | .port .. => s1
  | .reserved .. => s1
  | .entry .. => s1
  | .engine .. => s1

/-- R126, R144: a refusal at its caller, counted on Baxel. -/
def State.refuse (s : State) (r : ObjReq) (code : Code) : State :=
  match reqPart r with
  | .baxel => (s.turnAway r code).count (evT r.owner 0x238)
  | .kresia => s.turnAway r code

/-- R143: who a request applies as, OP_SEQ already advanced. -/
def State.applier (s : State) (r : ObjReq) : Applier :=
  match r with
  | .port _ tag _ _ => ⟨s.fld .baxel 0x0004 0 20, 0, 8, tag⟩
  | .reserved _ tag => ⟨s.fld .baxel 0x0004 0 20, 0, 8, tag⟩
  | .view t priv _ _ =>
    ⟨s.fld .baxel 0x0004 0 20, 0, if priv then 9 else 10 + t, s.fld .baxel (tPage t 0x210) 16 16⟩
  | .entry _ i _ _ => ⟨s.fld .kresia 0x4 0 17, 1, 15, i⟩
  | .engine _ i _ _ => ⟨s.fld .kresia 0x4 0 17, 1, 15, i⟩

/-- The frame of every operation: acceptance, OP_SEQ, refusal, and the operation itself on the absolute object. -/
def State.objOp (s : State) (r : ObjReq) (needsN peek set : Bool) (f : State → Nat → State) : State :=
  if !s.accepted r then s
  else
    let s1 := s.bumpOpSeq r
    match s1.refusal r needsN peek set with
    | some code => s1.refuse r code
    | none => match s1.reqObj r with
      | some o => f s1 o
      | none => s1

/-- OBJ_PEEK (R121): VALUE, with POISON reported in the code. -/
def execObjPeek (r : ObjReq) (s : State) : Answer :=
  .next (s.objOp r false true false fun s o =>
    let x := s.obj (reqPart r) o
    s.answer r (if x.poison then 0x3003 else 0) x.value)

/-- OBJ_SIGNAL (R121, R122, R125). -/
def execObjSignal (r : ObjReq) (s : State) : Answer :=
  .next (s.objOp r true false false fun s o =>
    let (s1, code) := s.signalObj (reqPart r) o (s.reqN r) (s.applier r)
    s1.answer r code (s1.obj (reqPart r) o).value)

/-- OBJ_DEC (R121, R125). -/
def execObjDec (r : ObjReq) (s : State) : Answer :=
  .next (s.objOp r true false false fun s o =>
    let (s1, code) := s.decObj (reqPart r) o (s.reqN r)
    s1.answer r code (s1.obj (reqPart r) o).value)

/-- OBJ_SET (R121, R127). -/
def execObjSet (r : ObjReq) (s : State) : Answer :=
  .next (s.objOp r false false true fun s o =>
    let s1 := s.setObj (reqPart r) o (s.reqN r) (s.applier r)
    s1.answer r 0 (s1.obj (reqPart r) o).value)

/-- R123: a TAKE joins the tail. -/
def State.joinWait (s : State) (p : Part) (o : Nat) (w : Waiter) : State :=
  s.modObj p o fun y => { y with waiters := y.waiters ++ [w] }

/-- R131, R135: a TAKE that needs a waiter slot and finds none waits for one at the signal port, or at its engine. -/
def State.holdTake (s : State) (r : ObjReq) : State :=
  match reqPart r with
  | .baxel => s.modBx fun b => { b with heldTakes := b.heldTakes ++ [r] }
  | .kresia => s.modKs fun k => { k with heldTakes := k.heldTakes ++ [r] }

/-- R121, R123, R130, R131, R135: a TAKE that cannot complete at once. -/
def State.takeWait (s : State) (r : ObjReq) (o : Nat) : State :=
  let n := s.reqN r
  match r with
  | .reserved _ _ => s
  | .port t tag _ _ =>
    if s.waitRoom t 1 then s.joinWait .baxel o ⟨.signalPort, tag, t, n, s.raw .baxel, 0⟩
    else s.holdTake r
  | .view t _ _ tag =>
    if 16 ≤ s.viewWaiting t + (s.ten t).tcq.length then s.turnAway r 0x3009
    else if !s.waitRoom t 1 then s.turnAway r 0x3008
    else
      (s.joinWait .baxel o ⟨.view, tag, t, n, s.raw .baxel, s.fld .baxel (tPage t 0x208) 0 16⟩).answer r 0
        (s.obj .baxel o).value true
  | .entry d i _ _ =>
    if s.ksWaitRoom then s.joinWait .kresia o ⟨.entry i, 0, d, n, s.raw .kresia, 0⟩
    else s.holdTake r
  | .engine d i _ _ =>
    if s.ksWaitRoom then s.joinWait .kresia o ⟨.engine i, 0, d, n, s.raw .kresia, 0⟩
    else s.holdTake r

/-- R121, R123, R126: whether a TAKE would have to wait: it is not refused, and VALUE does not cover it or a waiter stands
before it. -/
def State.needsSlot (s : State) (r : ObjReq) : Bool :=
  (s.refusal r true false false).isNone && (match s.reqObj r with
    | some o => !((s.obj (reqPart r) o).waiters.isEmpty && s.reqN r ≤ (s.obj (reqPart r) o).value)
    | none => false)

/-- R121 to R123, R130, R131, R135: a TAKE: at once when no waiter stands before it and VALUE covers n, else at the
tail. -/
def State.takeObj (s : State) (r : ObjReq) : State :=
  s.objOp r true false false fun s o =>
    let p := reqPart r
    let x := s.obj p o
    let n := s.reqN r
    if x.waiters.isEmpty && n ≤ x.value then
      let s1 := s.modObj p o fun y => { y with value := y.value - n }
      let s2 := match r with
        | .port t _ _ _ => s1.count (evT t 0x234)
        | .view t _ _ _ => s1.count (evT t 0x234)
        | .reserved .. => s1
        | .entry .. => s1
        | .engine .. => s1
      s2.answer r 0 (s2.obj p o).value
    else s.takeWait r o

/-- R135: KS_OBJ_WAIT_STALL counts a take of a Kresia that stalls for a slot, once. -/
def State.countStall (s : State) (r : ObjReq) : State :=
  match reqPart r with
  | .baxel => s
  | .kresia => if s.needsSlot r && !s.ksWaitRoom then s.count (evK 0x120090) else s

/-- OBJ_TAKE (R121 to R123, R130, R131, R135). -/
def execObjTake (r : ObjReq) (s : State) : Answer := .next ((s.countStall r).takeObj r)

/-- R131: one cycle of the TAKEs that wait for a slot: BX_OBJ_WAIT_STALL counts the cycle for each, and each is tried
again, a FAULTED tenant's excepted, which the port does not look at (R419). -/
def State.tickHeld (s : State) (p : Part) : State :=
  match p with
  | .baxel =>
    let l := s.bx.heldTakes
    l.foldl (fun s r =>
      if reqPart r ≠ .baxel then s
      else if s.portReady r.owner then (s.count (evT r.owner 0x248)).takeObj r
      else s.holdTake r)
      (s.modBx fun b => { b with heldTakes := [] })
  | .kresia => s.ks.heldTakes.foldl (fun s r => if reqPart r = .kresia then s.takeObj r else s) (s.modKs fun k => { k with heldTakes := [] })

/-- R123: the objects on which a waiter of a kind stands. -/
def State.waitedOn (s : State) (f : Waiter → Bool) : List Nat :=
  (s.ks.objs.filter fun q => q.2.waiters.any f).map (·.1)

/-- R123: waiters have gone from these objects: what now stands at the head of each is served. -/
def State.serveObjs (s : State) (os : List Nat) : State := os.foldl (fun s o => s.serveObj .kresia o) s

/-- R130: a waiting TAKE withdrawn with a code; a waiter behind it may now be served. -/
def State.withdraw (s : State) (p : Part) (o : Nat) (w : Waiter) (code : Code) : State :=
  ((s.modObj p o fun y => { y with waiters := y.waiters.erase w }).endWaiter p o w code).serveObj p o

/-- The caller's waiting TAKEs with a tag, oldest first (R419). -/
def State.taggedWaits (s : State) (p : Part) (owner : Nat) (src : WaiterSource) (tag : Nat) : List (Nat × Waiter) :=
  sortBy (fun a b => decide (Raw.diff a.2.issued b.2.issued ≤ 0)) ((s.objs p).flatMap fun (o, x) =>
    (x.waiters.filter fun w => w.owner = owner && w.source = src && w.tag = tag).map fun w => (o, w))

/-- R121, R130: a CANCEL: the caller's waiting TAKE with the tag is withdrawn; without one the CANCEL itself completes
with S_OBJ_CANCELLED. -/
def State.cancelTag (s : State) (r : ObjReq) (owner : Nat) (src : WaiterSource) (tag : Nat) (o : Nat) : State :=
  match s.taggedWaits (reqPart r) owner src tag with
  | (ow, w) :: _ =>
    let s1 := s.withdraw (reqPart r) ow w 0x300B
    s1.answer r 0 (s1.obj (reqPart r) o).value
  | [] => s.answer r 0x300B (s.obj (reqPart r) o).value

/-- OBJ_CANCEL (R130). -/
def execObjCancel (r : ObjReq) (s : State) : Answer :=
  .next (s.objOp r false false false fun s o =>
    match r with
    | .reserved _ _ => s
    | .port t tag _ _ => s.cancelTag r t .signalPort tag o
    | .view t _ _ tag => s.cancelTag r t .view tag o
    | .entry d i _ _ => s.cancelTag r d (.entry i) 0 o
    | .engine d i _ _ => s.cancelTag r d (.engine i) 0 o)

/-- TAKE_TIMEOUT (R130): a TAKE still waiting its timeout after issue is withdrawn. -/
def execTakeTimeout (p : Part) (obj : Nat) (source : WaiterSource) (tag : Nat) (s : State) : Answer :=
  match (s.obj p obj).waiters.find? fun w =>
      w.source = source && w.tag = tag && w.timeoutUs ≠ 0 &&
      (w.timeoutUs : Int) * 1000 * 65536 ≤ Raw.diff (s.raw p) w.issued with
  | some w => .next (s.withdraw p obj w 0x300A)
  | none => .next s

/-- TCQ_POP (R130, R78). -/
def execTcqPop (t n : Nat) (s : State) : Answer :=
  .next (s.modTen t fun x => { x with tcq := x.tcq.drop n })

/-! ### Partitions -/

/-- R89, R128: whether four (base, count) ranges lie below a limit and do not overlap. -/
def partsOk (l : List (Nat × Nat)) (limit : Nat) : Bool :=
  (l.all fun (b, c) => c = 0 || b + c ≤ limit) &&
  (l.zipIdx.all fun (x, i) => l.zipIdx.all fun (y, j) =>
    i = j || x.2 = 0 || y.2 = 0 || x.1 + x.2 ≤ y.1 || y.1 + y.2 ≤ x.1)

/-- OBJ_PART_WRITE (R128). -/
def execObjPartWrite (t : Nat) (w : Word) (s : State) : Answer :=
  let new := (w.get 0 12, w.get 12 13)
  let parts := (List.range 4).map fun u => if u = t then new else (s.objBase u, s.objCount u)
  let busy := (List.range (s.objCount t)).any fun i =>
    let x := s.obj .baxel (s.objBase t + i)
    x.poison || !x.waiters.isEmpty
  if 4 ≤ t then .next s
  else if !partsOk parts 4096 || (busy && new ≠ (s.objBase t, s.objCount t)) then .next (s.emit (.refused .baxel 0x3011))
  else .next (s.wr .baxel (0x0500 + 4 * t) (w.put 25 7 0))

/-- WFLOOR_WRITE (R131). -/
def execWfloorWrite (t : Nat) (w : Word) (s : State) : Answer :=
  let sum := ((List.range 4).map fun u => if u = t then w.get 0 12 else s.wfloor u).foldl (· + ·) 0
  if 4 ≤ t then .next s
  else if 2048 < sum then .next (s.emit (.refused .baxel 0x3011))
  else .next (s.wr .baxel (0x0510 + 4 * t) (w.put 12 20 0))

/-- RSIG_PART_WRITE (R137). -/
def execRsigPartWrite (t : Nat) (w : Word) (s : State) : Answer :=
  let sum := ((List.range 4).map fun u => if u = t then w.get 0 14 else s.fld .baxel (0x0520 + 4 * u) 0 14).foldl (· + ·) 0
  if 4 ≤ t then .next s
  else if 8192 < sum then .next (s.emit (.refused .baxel 0x3011))
  else .next (s.wr .baxel (0x0520 + 4 * t) (w.put 14 18 0))

end Sys2Proof.Machine
end

