-- ==== Sys2Proof/Machine/Fulling.lean ====
section
/-! DEFINITION. Exact order-free reduction (R173 to R193), over integers: input formats and alignment, slivers, rounding out,
MX output, binary64 sums; the counter-based generator (R342, R343). -/

namespace Sys2Proof.Machine

/-! ### The generator (R342) -/

def u64 (x : Nat) : Nat := x % 2 ^ 64

def fmix (x0 : Nat) : Nat :=
  let x1 := u64 ((x0 ^^^ (x0 >>> 31)) * 0xD6E8FEB86659FD93)
  let x2 := u64 ((x1 ^^^ (x1 >>> 29)) * 0xA3B195C43F7E21D5)
  x2 ^^^ (x2 >>> 32)

/-- R342: the rounds from i on, `n` of them. -/
def drawRounds (key : Nat) : Nat → Nat → Nat → Nat → Nat
  | 0, _, _, r => r
  | n + 1, i, l, r =>
    let k := u64 (key + (i + 1) * 0x9E3779B97F4A7C15)
    drawRounds key n (i + 1) r (l ^^^ fmix (r ^^^ k))

def genDraw (key c : Nat) : Nat := drawRounds key 12 0 (u64 (c / 2 ^ 64)) (u64 c)

/-- R342: the layout of the counter. -/
def counterOf (stream step draw index rec' : Nat) : Nat :=
  stream % 2 ^ 8 + (step % 2 ^ 48) * 2 ^ 8 + (draw % 2 ^ 8) * 2 ^ 56 + (index % 2 ^ 32) * 2 ^ 64 + (rec' % 2 ^ 12) * 2 ^ 96

/-! ### Slots (R173) and input formats (R175 to R178) -/

/-- R173: the flags NAN, PINF, NINF. -/
structure Flags3 where
  nan : Bool := false
  pinf : Bool := false
  ninf : Bool := false
  deriving DecidableEq, Repr

def Flags3.or (a b : Flags3) : Flags3 := ⟨a.nan || b.nan, a.pinf || b.pinf, a.ninf || b.ninf⟩
def Flags3.val (f : Flags3) : Nat := f.nan.toNat + 2 * f.pinf.toNat + 4 * f.ninf.toNat
def Flags3.ofVal (v : Nat) : Flags3 := ⟨v % 2 = 1, v / 2 % 2 = 1, v / 4 % 2 = 1⟩

/-- R173: one fulling slot: the felt word, read as an integer, and the flags. -/
structure Felt where
  w : Int := 0
  f : Flags3 := {}
  deriving DecidableEq, Repr

/-- R179: a contribution or a decoded sliver added. -/
def Felt.add (x y : Felt) : Felt := ⟨x.w + y.w, x.f.or y.f⟩

/-- R175: element bits of an input format; none for a code not listed. -/
def inBits : Nat → Option Nat
  | 0x01 => some 32
  | 0x02 => some 16
  | 0x03 => some 16
  | 0x04 => some 8
  | 0x05 => some 8
  | 0x08 => some 8
  | 0x09 => some 8
  | 0x0A => some 6
  | 0x0B => some 6
  | 0x0C => some 4
  | 0x0D => some 8
  | 0x10 => some 8
  | 0x11 => some 16
  | 0x12 => some 32
  | 0x20 => some 64
  | _ => none

/-- R175: the MX input formats. -/
def inMx (fmt : Nat) : Bool := 0x08 ≤ fmt && fmt ≤ 0x0D

/-- R176: bytes of an element area. -/
def areaBytes (fmt n : Nat) : Nat := (n * (inBits fmt).getD 0 + 7) / 8

/-- R176, R199: IN_BYTES(n). -/
def inBytes (fmt n : Nat) : Nat := areaBytes fmt n + (if inMx fmt then (n + 31) / 32 else 0)

/-- R177: exponent bits, fraction bits and the constant of k of a float format; whether k takes X. -/
def floatParts : Nat → Option (Nat × Nat × Int × Bool)
  | 0x01 => some (8, 23, -1, false)
  | 0x02 => some (8, 7, 15, false)
  | 0x03 => some (5, 10, 124, false)
  | 0x04 => some (4, 3, 139, false)
  | 0x05 => some (5, 2, 132, false)
  | 0x08 => some (4, 3, 12, true)
  | 0x09 => some (5, 2, 5, true)
  | 0x0A => some (2, 3, 18, true)
  | 0x0B => some (3, 2, 17, true)
  | 0x0C => some (2, 1, 20, true)
  | _ => none

/-- The signed reading of the low w bits. -/
def signedBits (v w : Nat) : Int := if v % 2 ^ w < 2 ^ (w - 1) then (v % 2 ^ w : Nat) else ((v % 2 ^ w : Nat) : Int) - 2 ^ w

/-- R177, R178: one element aligned. `x` is the block's scale byte, `shift` INT_SHIFT. -/
def alignElem (fmt : Nat) (shift : Int) (v x : Nat) : Felt :=
  if inMx fmt && x = 255 then ⟨0, { nan := true }⟩
  else match floatParts fmt with
    | some (eb, fb, kc, usesX) =>
      let frac := v % 2 ^ fb
      let b := v / 2 ^ fb % 2 ^ eb
      let neg : Bool := v / 2 ^ (fb + eb) % 2 = 1
      let infs : Bool := fmt = 1 || fmt = 2 || fmt = 3 || fmt = 5 || fmt = 9
      if infs && b = 2 ^ eb - 1 then
        if frac ≠ 0 then ⟨0, { nan := true }⟩
        else if neg then ⟨0, { ninf := true }⟩ else ⟨0, { pinf := true }⟩
      else if (fmt = 4 || fmt = 8) && b = 15 && frac = 7 then ⟨0, { nan := true }⟩
      else
        let m : Int := if 0 < b then frac + 2 ^ fb else frac
        let k := ((max b 1 : Nat) : Int) + kc + (if usesX then (x : Int) else 0)
        ⟨(if neg then -m else m) * 2 ^ k.toNat, {}⟩
    | none =>
      let w := (inBits fmt).getD 8
      let k : Int := if fmt = 0x0D then (x : Int) + 16 else shift + 149
      ⟨signedBits v w * 2 ^ k.toNat, {}⟩

/-- R176: the bits of element i of an element area, from every byte they lie in. -/
def elemBits (area : List Byte) (w i : Nat) : Nat := le area (w * i / 8) ((w + 14) / 8) / 2 ^ (w * i % 8) % 2 ^ w

/-- R176: the n elements of a payload (element area, then scale area) aligned, in order. -/
def alignAll (fmt : Nat) (shift : Int) (n : Nat) (bs : List Byte) : List Felt :=
  let w := (inBits fmt).getD 8
  let sc := areaBytes fmt n
  (List.range n).map fun i => alignElem fmt shift (elemBits bs w i) (if inMx fmt then le bs (sc + i / 32) 1 else 0)

/-! ### Slivers (R181 to R184) -/

/-- Trailing zeros of a positive number, at most `fuel`. -/
def trailing : Nat → Nat → Nat
  | 0, _ => 0
  | fuel + 1, v => if v % 2 = 1 then 0 else 1 + trailing fuel (v / 2)

/-- R182: a wide sliver of 48 bytes. -/
def wideBytes (x : Felt) (elem : Nat) : List Byte :=
  leBytes 40 (x.w % 2 ^ 320).toNat ++ leBytes 2 elem ++ leBytes 1 x.f.val ++ leBytes 5 0

/-- R183: one slot encoded: the sliver, and a wide one where its span needs it. -/
def encodeSliver (x : Felt) (elem : Nat) : Nat × Option (List Byte) :=
  let p := if x.w = 0 then 0 else min (trailing 320 x.w.natAbs) 204
  let s := x.w / 2 ^ p
  if -2 ^ 115 ≤ s && s ≤ 2 ^ 115 - 1 then (p + x.f.val * 2 ^ 9 + (s % 2 ^ 116).toNat * 2 ^ 12, none)
  else (0x1FF + x.f.val * 2 ^ 9, some (wideBytes x elem))

/-- R182: a sliver block: the slivers in element order, then the wide ones. -/
def encodeBlock (xs : List (Nat × Felt)) : List Byte :=
  let e := xs.map fun (i, x) => encodeSliver x i
  (e.flatMap fun (n, _) => leBytes 16 n) ++ e.flatMap fun (_, w) => w.getD []

/-- R184: the elements of a block decoded, from element `elems` on, with the wide slivers still unread; the cause where
the block is malformed. -/
def decodeBlock : List Nat → List Byte → List Byte → Except Nat (List Felt)
  | [], _, wide => if wide.isEmpty then .ok [] else .error 4
  | el :: t, bs, wide =>
    let n := le bs 0 16
    let p := n % 512
    let f := n / 512 % 8
    let win := n / 4096
    if p ≤ 204 then
      match decodeBlock t (bs.drop 16) wide with
      | .ok l => .ok (⟨signedBits win 116 * 2 ^ p, Flags3.ofVal f⟩ :: l)
      | .error c => .error c
    else if p ≠ 0x1FF then .error 1
    else if win ≠ 0 || wide.length < 48 then .error 2
    else if le wide 40 2 ≠ el || le wide 42 1 % 8 ≠ f then .error 3
    else if le wide 42 1 / 8 ≠ 0 || le wide 43 5 ≠ 0 then .error 4
    else
      match decodeBlock t (bs.drop 16) (wide.drop 48) with
      | .ok l => .ok (⟨signedBits (le wide 0 40) 320, Flags3.ofVal f⟩ :: l)
      | .error c => .error c

/-- R184: a sliver block of the elements named: its slots, or the cause of 1 to 4. -/
def decodeSlivers (elems : List Nat) (bs : List Byte) : Except Nat (List Felt) :=
  let n := elems.length
  if bs.length < 16 * n || (bs.length - 16 * n) % 48 ≠ 0 then .error 4
  else decodeBlock elems (bs.take (16 * n)) (bs.drop (16 * n))

/-! ### Rounding out (R185 to R191) -/

/-- R186: the parameters of a result format. -/
structure OutFmt where
  p : Nat
  emin : Int
  emax : Int
  bias : Int
  bits : Nat
  qnan : Nat
  inf : Nat
  maxFin : Nat
  e4m3 : Bool := false
  deriving DecidableEq, Repr

def fmtF32 : OutFmt := ⟨24, -126, 127, 127, 32, 0x7FC00000, 0x7F800000, 0x7F7FFFFF, false⟩
def fmtBf16 : OutFmt := ⟨8, -126, 127, 127, 16, 0x7FC0, 0x7F80, 0x7F7F, false⟩
def fmtF16 : OutFmt := ⟨11, -14, 15, 15, 16, 0x7E00, 0x7C00, 0x7BFF, false⟩
def fmtE4m3 : OutFmt := ⟨4, -6, 8, 7, 8, 0x7F, 0x7F, 0x7E, true⟩
def fmtE5m2 : OutFmt := ⟨3, -14, 15, 15, 8, 0x7E, 0x7C, 0x7B, false⟩

/-- R185: the element format of an OUT_FMT that rounds. -/
def outFmt : Nat → Option OutFmt
  | 0x01 => some fmtF32
  | 0x02 => some fmtBf16
  | 0x03 => some fmtF16
  | 0x04 => some fmtE4m3
  | 0x05 => some fmtE5m2
  | 0x08 => some fmtE4m3
  | 0x09 => some fmtE5m2
  | _ => none

/-- R185, R199: OUT_BYTES(n); none for a code not listed. -/
def outBytes (fmt n : Nat) : Option Nat :=
  match fmt with
  | 0x1F => some (48 * n)
  | 0x20 => some (8 * n)
  | 0x08 => some (n + (n + 31) / 32)
  | 0x09 => some (n + (n + 31) / 32)
  | _ => (outFmt fmt).map fun t => t.bits / 8 * n

/-- The counters of R198 that a rounding increments, by address. -/
abbrev Bumps := List Nat

/-- A value with its sign bit. -/
def OutFmt.signed (t : OutFmt) (s : Bool) (v : Nat) : Nat := v + (if s then 2 ^ (t.bits - 1) else 0)

/-- R187: overflow. -/
def overflowOut (t : OutFmt) (mode : Nat) (sat s : Bool) : Nat × Bumps :=
  if mode = 1 then (t.signed s t.maxFin, [0x140028])
  else if sat then (t.signed s t.maxFin, [0x140028, 0x14002C])
  else (t.signed s t.inf, [0x140028])

/-- R188: a result whose flags are set. -/
def specialOut (t : OutFmt) (f : Flags3) (sat : Bool) : Option (Nat × Bumps) :=
  if f.nan || (f.pinf && f.ninf) then some (t.qnan, [0x140034])
  else if f.pinf || f.ninf then
    some (t.signed f.ninf (if t.e4m3 && sat then t.maxFin else t.inf), [0x140038])
  else none

/-- R186: round_out of one element, with R187 and R188. -/
def roundOut (t : OutFmt) (round : Nat) (x : Int) (r32 : Nat) (v : Felt) : Nat × Bumps :=
  let mode := round % 4
  let sat : Bool := round / 4 % 2 = 1
  match specialOut t v.f sat with
  | some a => a
  | none =>
    if v.w = 0 then (0, [])
    else
      let s : Bool := v.w < 0
      let m := v.w.natAbs
      let e : Int := max ((Nat.log2 m : Int) - 149 - x) t.emin
      let q := (e - ((t.p : Int) - 1) + 149 + x).toNat
      let k0 := m >>> q
      let r := m - k0 <<< q
      let up : Bool :=
        if q = 0 then false
        else if mode = 0 then 2 ^ (q - 1) < r || (r = 2 ^ (q - 1) && k0 % 2 = 1)
        else if mode = 1 then false
        else 2 ^ 32 ≤ r * 2 ^ 32 / 2 ^ q + r32
      let k1 := if up then k0 + 1 else k0
      let (k, e') := if k1 = 2 ^ t.p then (2 ^ (t.p - 1), e + 1) else (k1, e)
      if t.emax < e' || (t.e4m3 && e' = t.emax && k = 15) then overflowOut t mode sat s
      else if k = 0 then (t.signed s 0, [0x140030])
      else if k < 2 ^ (t.p - 1) then (t.signed s k, [])
      else (t.signed s ((e' + t.bias).toNat * 2 ^ (t.p - 1) + (k - 2 ^ (t.p - 1))), [])

/-- R191: one MX block. -/
def mxBlock (t : OutFmt) (round : Nat) (emaxMx : Int) (rs : List Nat) (vs : List Felt) : List Byte × Bumps :=
  if vs.any fun v => v.f.nan || v.f.pinf || v.f.ninf then
    (leBytes 1 0xFF ++ vs.map fun _ => (0 : Byte), [0x140034])
  else
    let a := (vs.map fun v => v.w.natAbs).foldl max 0
    let x0 : Int := if a = 0 then -127 else (Nat.log2 a : Int) - 149 - emaxMx
    let x := max (-127) (min 127 x0)
    let outs := (vs.zip rs).map fun (v, r) =>
      let (b, c) := roundOut t (round % 4 + 4) x r v
      -- element overflow always gives the largest finite value and counts as saturated alone
      (b, if c.contains 0x140028 then [0x14002C] else c)
    (leBytes 1 (x + 127).toNat ++ outs.flatMap fun (b, _) => leBytes 1 b,
      (if x = x0 then [] else [0x14003C]) ++ outs.flatMap (·.2))

/-- A list in pieces of n. -/
def piecesOf {α : Type} (n : Nat) : Nat → List α → List (List α)
  | 0, _ => []
  | fuel + 1, l => if l.isEmpty then [] else l.take n :: piecesOf n fuel (l.drop n)

/-- R185 to R191: the result bytes of elements, each given by its index in the collective's output (for R of R189), its
offset in the chunk and its slot, under OUT_FMT and ROUND. -/
def roundChunk (fmt round seed step rec' : Nat) (vs : List (Nat × Nat × Felt)) : List Byte × Bumps :=
  let r (i : Nat) : Nat := if round % 4 = 2 then genDraw seed (counterOf 0x01 step 0 i rec') % 2 ^ 32 else 0
  if fmt = 0x1F then (vs.flatMap fun (_, o, v) => wideBytes v o, [])
  else match outFmt fmt with
    | none => ([], [])
    | some t =>
      if fmt = 0x08 || fmt = 0x09 then
        let blocks := (piecesOf 32 (vs.length + 1) vs).map fun bl =>
          mxBlock t round (if fmt = 0x08 then 8 else 15) (bl.map fun (i, _, _) => r i) (bl.map fun (_, _, v) => v)
        (blocks.flatMap (·.1), blocks.flatMap (·.2))
      else
        let outs := vs.map fun (i, _, v) => roundOut t round 0 (r i) v
        (outs.flatMap fun (b, _) => leBytes (t.bits / 8) b, outs.flatMap (·.2))

/-! ### Floating point, rounded to nearest even -/

/-- A binary format of IEEE 754. -/
structure FFmt where
  p : Nat
  emin : Int
  emax : Int
  bits : Nat

def b32 : FFmt := ⟨24, -126, 127, 32⟩
def b64 : FFmt := ⟨53, -1022, 1023, 64⟩

def FFmt.inf (t : FFmt) : Nat := (2 ^ (t.bits - t.p) - 1) * 2 ^ (t.p - 1)
def FFmt.nan (t : FFmt) : Nat := t.inf + 2 ^ (t.p - 2)
def FFmt.sgn (t : FFmt) (s : Bool) : Nat := if s then 2 ^ (t.bits - 1) else 0

/-- What a bit pattern stands for: (-1)^s × m × 2^e, an infinity, a NaN. -/
inductive FVal where
  | fin (s : Bool) (m : Nat) (e : Int)
  | inf (s : Bool)
  | nan
  deriving DecidableEq, Repr

def FFmt.decode (t : FFmt) (v : Nat) : FVal :=
  let s : Bool := v / 2 ^ (t.bits - 1) % 2 = 1
  let b := v / 2 ^ (t.p - 1) % 2 ^ (t.bits - t.p)
  let f := v % 2 ^ (t.p - 1)
  if b = 2 ^ (t.bits - t.p) - 1 then (if f = 0 then .inf s else .nan)
  else if b = 0 then .fin s f (t.emin - (t.p - 1))
  else .fin s (f + 2 ^ (t.p - 1)) ((b : Int) - 1 + t.emin - (t.p - 1))

/-- Exceptions of one operation, in the order of the counters of R250. -/
structure FExc where
  invalid : Bool := false
  divZero : Bool := false
  overflow : Bool := false
  underflow : Bool := false
  deriving DecidableEq, Repr

/-- Q × 2^e, with `st` saying that more lies below, at a precision of p bits with the exponent of the last bit given:
the integer rounded to nearest even, and whether it is inexact. -/
def rneAt (q : Nat) (st : Bool) (sh : Int) : Nat × Bool :=
  if sh ≤ 0 then (q <<< (-sh).toNat, st)
  else
    let n := sh.toNat
    let k := q >>> n
    let r := q - k <<< n
    let h := 2 ^ (n - 1)
    (if h < r || (r = h && (st || k % 2 = 1)) then k + 1 else k, st || r ≠ 0)

/-- (-1)^s × (q + d) × 2^e, 0 ≤ d < 1, st = (d > 0), rounded to nearest even; q is positive. -/
def FFmt.round (t : FFmt) (s : Bool) (q : Nat) (e : Int) (st : Bool) : Nat × FExc :=
  let n : Int := (Nat.log2 q : Int) + e
  let ex := max n t.emin
  let (k, inexact) := rneAt q st (ex - (t.p - 1) - e)
  let (k', ex') := if k = 2 ^ t.p then (2 ^ (t.p - 1), ex + 1) else (k, ex)
  -- tiny after rounding: the value rounded with an unbounded exponent lies below the smallest normal
  let ku := (rneAt q st (n - (t.p - 1) - e)).1
  let tiny : Bool := n + (if ku = 2 ^ t.p then 1 else 0) < t.emin
  if t.emax < ex' then (t.sgn s + t.inf, { overflow := true })
  else if k' < 2 ^ (t.p - 1) then (t.sgn s + k', { underflow := tiny && inexact })
  else (t.sgn s + (ex' - t.emin + 1).toNat * 2 ^ (t.p - 1) + (k' - 2 ^ (t.p - 1)), { underflow := tiny && inexact })

/-- A sum of two finite values, exact: an integer and its exponent. -/
def addExact (sa : Bool) (ma : Nat) (ea : Int) (sb : Bool) (mb : Nat) (eb : Int) : Int × Int :=
  let e := min ea eb
  ((if sa then -(ma : Int) else ma) * 2 ^ (ea - e).toNat + (if sb then -(mb : Int) else mb) * 2 ^ (eb - e).toNat, e)

/-- An exact value rounded; an exact zero takes the sign given. -/
def FFmt.roundInt (t : FFmt) (v : Int) (e : Int) (zeroSign : Bool) : Nat × FExc :=
  if v = 0 then (t.sgn zeroSign, {}) else t.round (v < 0) v.natAbs e false

/-- IEEE 754 addition to nearest even; every NaN result is the canonical one. -/
def FFmt.add (t : FFmt) (a b : Nat) : Nat × FExc :=
  match t.decode a, t.decode b with
  | .nan, _ => (t.nan, {})
  | _, .nan => (t.nan, {})
  | .inf s, .inf u => if s = u then (t.sgn s + t.inf, {}) else (t.nan, { invalid := true })
  | .inf s, _ => (t.sgn s + t.inf, {})
  | _, .inf s => (t.sgn s + t.inf, {})
  | .fin sa ma ea, .fin sb mb eb =>
    let (v, e) := addExact sa ma ea sb mb eb
    t.roundInt v e (sa && sb)

/-- R192: binary64 values added left to right. -/
def sum64 : List Nat → Nat
  | [] => 0
  | a :: t => t.foldl (fun x y => (b64.add x y).1) a

/-- R192: a NaN result is delivered as the canonical one. -/
def canon64 (v : Nat) : Nat := if b64.decode v = .nan then 0x7FF8000000000000 else v

/-- R192: the fixed tree over the contributions of one element, by position: each run of 128 positions left to right, then
the runs; with the additions made. -/
def fixedTree (l : List (Nat × Nat)) : Nat × Nat :=
  let asc := l.foldl (fun (m : FMap Nat) (q : Nat × Nat) => FMap.set m q.1 q.2) []
  let runs := (asc.map fun (p, _) => p / 128).eraseDups
  (sum64 (runs.map fun j => sum64 ((asc.filter fun (p, _) => p / 128 = j).map (·.2))), asc.length - 1)

end Sys2Proof.Machine
end

