-- ==== Sys2Proof/Machine/Tags.lean ====
section
/-! DEFINITION. Tagging of step entries and chunks, and the tag buffer (R366 to R368). -/

namespace Sys2Proof.Machine

/-- The tag control word of a part. -/
def tagAddr : Part → Nat
  | .baxel => 0x8200
  | .kresia => 0x1D2000

/-- R368: records the tag buffer holds. -/
def tagCap : Part → Nat
  | .baxel => 64
  | .kresia => 1024

def State.modTags (s : State) (p : Part) (f : TagUnit → TagUnit) : State := s.modCtr p fun u => { u with tags := f u.tags }

/-- R368: a record written; while the buffer is full it is dropped and counted. -/
def State.tagWrite (s : State) (p : Part) (r : TagRec) : State :=
  if (s.pc p).ctr.tags.recs.length < tagCap p then s.modTags p fun u => { u with recs := u.recs ++ [r] }
  else s.count { part := p, addr := tagAddr p + 0x10, base := tagAddr p + 0x10 }

/-- R366: the key of an item: an entry (kind 1), or a chunk (kind 2). -/
def TagRec.key (r : TagRec) : Nat :=
  if r.kind = 1 then u64 (r.domain * 2 ^ 48 + (r.step % 2 ^ 32) * 2 ^ 16 + r.index)
  else u64 (r.domain * 2 ^ 48 + r.index * 2 ^ 36 + r.chunk * 2 ^ 12 + r.step % 4096)

/-- R366: whether an item is tagged at a Kresia. -/
def State.tagged (s : State) (r : TagRec) : Bool :=
  let bit := r.kind - 1
  let rate := s.fld .kresia 0x1D2000 (8 * r.kind) 5
  s.bit .kresia 0x1D2000 bit && fmix (u64 (r.key + (s.rd .kresia 0x1D2004).toNat)) % 2 ^ rate = 0

/-- The place of a tagged item that has not ended. -/
def TagRec.live (r : TagRec) : Nat := (r.kind * 8 + r.role) * 2 ^ 64 + r.key

/-- R367: an item reaches its first stage. -/
def State.tagStart (s : State) (r : TagRec) : State :=
  if s.tagged r then
    s.modTags .kresia fun u => { u with live := FMap.set u.live r.live { r with stages := [s.raw .kresia, 0, 0, 0] } }
  else s

/-- R367: an item reaches a stage, once. -/
def State.tagStage (s : State) (r : TagRec) (i : Nat) : State :=
  match FMap.find? s.ks.c.ctr.tags.live r.live with
  | some x =>
    if x.stages.getD i 0 = 0 then
      s.modTags .kresia fun u =>
        { u with live := FMap.set u.live r.live { x with stages := x.stages.set i (s.raw .kresia) } }
    else s
  | none => s

/-- R367: an item ends: its record is written. -/
def State.tagEnd (s : State) (r : TagRec) (incomplete : Bool) : State :=
  match FMap.find? s.ks.c.ctr.tags.live r.live with
  | some x =>
    (s.modTags .kresia fun u => { u with live := FMap.erase u.live r.live }).tagWrite .kresia
      { x with incomplete := incomplete }
  | none => s

/-! ### Packets -/

/-- R366: the 32-bit Galois LFSR with taps 0x8020_0003. -/
def lfsrNext (x : Word) : Word := if x.get 0 1 = 1 then (x >>> 1) ^^^ (0x80200003 : Word) else x >>> 1

/-- R366: whether the next packet at a port is tagged: the LFSR advances for a packet that passes the filters. -/
def State.tagDraw (s : State) (p : Part) (port : Nat) (x : Packet) : Bool × State :=
  let f := s.rd p (tagAddr p + 8)
  let pass := match p with
    | .baxel => (f.get 3 1 = 0 || f.get 0 3 = port) && (f.get 7 1 = 0 || f.get 4 3 = x.tc)
    | .kresia => (f.get 8 1 = 0 || f.get 0 8 = port) && (f.get 12 1 = 0 || f.get 9 3 = x.tc)
  if s.bit p (tagAddr p) 2 && pass then
    let l := lfsrNext (s.pc p).ctr.tags.lfsr
    (l.toNat % 2 ^ (s.fld p (tagAddr p) 24 5) = 0, s.modTags p fun u => { u with lfsr := l })
  else (false, s)

/-- R367: the record of a tagged packet: acknowledged, or flushed first. -/
def State.tagPacket (s : State) (p : Part) (port : Nat) (q : QEntry) (first : Option Raw) (lseq : Nat) (incomplete : Bool) : State :=
  if q.tagged then
    s.tagWrite p { kind := 3, incomplete := incomplete, domain := q.pkt.domain.getD 0, port := port, lseq := lseq,
                   tc := q.pkt.tc, msgKind := q.pkt.kind,
                   stages := [q.enq, first.getD 0, if incomplete then 0 else s.raw p, 0] }
  else s

end Sys2Proof.Machine
end

