-- ==== Sys2Proof/Machine/LinkCore.lean ====
section
/-! DEFINITION. Ports, queues, credits and ledgers: what the commands of links and gates are written over (R270 to
R309). -/

namespace Sys2Proof.Machine

/-! ### Addresses and accessors -/

/-- R291: the address of a word of a port's link block. -/
def lkAddr : Part → Nat → Nat → Nat
  | .baxel, n, off => 0x0600 + 0x80 * n + off
  | .kresia, n, off => 0x180000 + 0x100 * n + off

/-- R309: the address of a word of a port's gate block. -/
def gtBlock : Part → Nat → Nat → Nat
  | .baxel, n, off => 0x0B00 + 0xA0 * n + off
  | .kresia, n, off => 0x1A0000 + 0x100 * n + off

/-- R354: a link counter of a port, at its port-0 address. -/
def evLk (p : Part) (n off : Nat) : Ev :=
  { part := p, addr := lkAddr p n off, base := lkAddr p 0 off, port := some n }
/-- A gate counter of a port. -/
def evGt (p : Part) (n off : Nat) (cls : Option Nat := none) : Ev :=
  { part := p, addr := gtBlock p n off, base := gtBlock p 0 off, port := some n, cls := cls, byCls := off = 0x60 }

def portCount : Part → Nat
  | .baxel => 8
  | .kresia => 256

def State.lp (s : State) (p : Part) (n : Nat) : LinkPort := FMap.getD (s.pc p).link.ports n {}
def State.modLink (s : State) (p : Part) (f : LinkUnit → LinkUnit) : State := s.modPc p fun c => { c with link := f c.link }
def State.modLp (s : State) (p : Part) (n : Nat) (f : LinkPort → LinkPort) : State :=
  s.modLink p fun u => { u with ports := FMap.update u.ports n {} f }
def State.gp (s : State) (p : Part) (n : Nat) : GatePort := FMap.getD (s.pc p).link.gates n {}
def State.modGp (s : State) (p : Part) (n : Nat) (f : GatePort → GatePort) : State :=
  s.modLink p fun u => { u with gates := FMap.update u.gates n {} f }

/-- Whether a port is in service (R288 step 5). -/
def State.up (s : State) (p : Part) (n : Nat) : Bool := (s.lp p n).step = 5

/-- The ports in service, ascending. -/
def State.upPorts (s : State) (p : Part) : List Nat := (List.range (portCount p)).filter fun n => s.up p n

/-- R400: a Kresia's role: true for a spine. -/
def State.isSpine (s : State) : Bool := s.bit .kresia 0x4 20
/-- R445: a Kresia's own plane, pod, hall and index. -/
def ksPlane (id : Nat) : Nat := id / 128 % 8
def ksPod (id : Nat) : Nat := id / 1024 % 16
def ksHall (id : Nat) : Nat := id / 16384 % 4
def ksIndex (id : Nat) : Nat := id % 128
def State.ksId (s : State) : Nat := s.fld .kresia 0x4 0 17

/-- R444: whether a port is a quad port. -/
def State.isQuad (s : State) (p : Part) (n : Nat) : Bool :=
  match p with
  | .baxel => false
  | .kresia => s.isSpine || 128 ≤ n

/-- R19, R444: whether a port of a spine is a tie. -/
def State.isTie (s : State) (n : Nat) : Bool := s.isSpine && 64 ≤ n && n ≤ 62 + s.ks.build.planes

/-- R289: whether a port runs Ploav 2. -/
def State.isV2Port (s : State) (p : Part) (n : Nat) : Bool := s.fld p (lkAddr p n 0) 6 2 = 2

/-- R270, R289, R298: bytes per ns of a port. -/
def State.rate (s : State) (p : Part) (n : Nat) : Nat := if s.isQuad p n then 100 else if s.isV2Port p n then 25 else 50

/-- R283: the credit cells of a packet: its payload and one for its head. -/
def cost (x : Packet) : Nat := x.cells + 1

/-- The bytes of a packet (R271). -/
def pktBytes (x : Packet) : Nat := 32 + 64 * x.cells

/-- R298: the counted length of a packet at a port. -/
def State.counted (s : State) (p : Part) (n : Nat) (x : Packet) : Nat :=
  let o := s.fld p (gtBlock p n 0x40) 0 9
  pktBytes x + o - (if 256 ≤ o then 512 else 0)

/-- R284: the floor and the ceiling of a class, where no write has changed them. -/
def creditDefault : Part → Nat → Nat × Nat
  | .kresia, c => [(4, 8), (64, 512), (128, 1024), (256, 4096), (128, 2048), (256, 4096), (16, 128)].getD c (0, 0)
  | .baxel, c => [(2, 4), (32, 64), (128, 1024), (128, 1024), (128, 1024), (128, 1024), (16, 64)].getD c (0, 0)

/-- R284: the floor of a class at a part. -/
def State.floorOf (s : State) (p : Part) (c : Nat) : Nat :=
  match p with
  | .baxel => (creditDefault .baxel c).1
  | .kresia => s.fld .kresia (0x190040 + 4 * c) 0 16

/-- R284: the cells of the shared region: what the floors of all ports, and at a Kresia the domain floors of R285, leave of the
buffer; a Baxel's region is one port's. -/
def State.sharedCells (s : State) (p : Part) : Nat :=
  let floors := ((List.range 7).map (s.floorOf p)).foldl (· + ·) 0
  match p with
  | .baxel => 2048 - floors
  | .kresia => 1048576 - 262144 - floors * (if s.isSpine then 128 else 192)

/-- R284: the ceiling of a class at a part. -/
def State.ceilOf (s : State) (p : Part) (c : Nat) : Nat :=
  match p with
  | .baxel => (creditDefault .baxel c).2
  | .kresia => s.fld .kresia (0x190040 + 4 * c) 16 16

/-- The cells a port has granted above its floors. -/
def LinkPort.grants (x : LinkPort) : Nat := (x.granted.map (·.2)).foldl (· + ·) 0

/-- R284: what a port that enters service grants above its floors: each class in turn up to its ceiling, while the shared region
allows (log 157). -/
def State.grantsFor (s : State) (p : Part) (n : Nat) : FMap Nat :=
  let used := match p with
    | .baxel => 0
    | .kresia => (((s.pc p).link.ports.filter fun (m, x) => m ≠ n && x.step = 5).map fun (_, x) => x.grants).foldl (· + ·) 0
  ((List.range 7).foldl (fun (a : FMap Nat × Nat) c =>
    let k := min (s.ceilOf p c - s.floorOf p c) a.2
    (if k = 0 then a.1 else FMap.set a.1 c k, a.2 - k)) ([], s.sharedCells p - used)).1

/-- R277: the unacknowledged bytes a port may hold. -/
def State.replayMax (s : State) (p : Part) (n : Nat) : Nat :=
  match p with
  | .baxel => 65536
  | .kresia =>
    let w := s.fld .kresia (lkAddr .kresia n 0x44) 0 25
    if w = 0 then (if s.isQuad .kresia n then 262144 else 131072) else w

def LinkPort.replayUsed (x : LinkPort) : Nat := (x.copies.map fun c => pktBytes c.q.pkt).foldl (· + ·) 0

/-! ### The ledger -/

/-- R292: where the ledger words stand. -/
def ledgerBase : Part → Nat
  | .baxel => 0x0A00
  | .kresia => 0x190000

/-- R287: a change at a port: of the ledger, whose words are events (R292, R354), and of the port's own at a Baxel. -/
def State.modLedger (s : State) (p : Part) (n : Nat) (f : Ledger → Ledger) : State :=
  let old := (s.pc p).link.ledger
  let new := f old
  let at' (off k : Nat) (s : State) : State :=
    if k = 0 then s else s.tally { part := p, addr := ledgerBase p + off, base := ledgerBase p + off } k
  at' 0x28 (new.flushed - old.flushed) (at' 0x20 (new.consumed - old.consumed) (at' 0x18 (new.out - old.out)
    (at' 0x10 (new.replicated - old.replicated) (at' 0x08 (new.inn - old.inn)
      (s.modLink p fun u =>
        { u with
          ledger := new
          portLedgers := match p with
            | .baxel => FMap.update u.portLedgers n {} f
            | .kresia => u.portLedgers })))))

/-- R287: k cells enter the pool, from a port or a local engine, or as an extra copy. -/
def Ledger.enter (l : Ledger) (k : Nat) : Ledger := { l with inn := l.inn + k, held := l.held + k }
def Ledger.replicate (l : Ledger) (k : Nat) : Ledger := { l with replicated := l.replicated + k, held := l.held + k }
/-- R287: k held cells leave the pool: acknowledged by the next hop, ended here, or flushed. -/
def Ledger.leave (l : Ledger) (k : Nat) : Ledger := { l with out := l.out + k, held := l.held - k }
def Ledger.consume (l : Ledger) (k : Nat) : Ledger := { l with consumed := l.consumed + k, held := l.held - k }
def Ledger.flush (l : Ledger) (k : Nat) : Ledger := { l with flushed := l.flushed + k, held := l.held - k }

/-- R283: the receiver returns k cells of a class at the port they arrived by. -/
def State.giveBack (s : State) (p : Part) (n c k : Nat) : State :=
  s.modLp p n fun x =>
    { x with
      held := FMap.update x.held c 0 fun h => h - k
      returned := FMap.update x.returned c 0 fun r => (r + k) % 65536
      owes := true }

/-- R285: the same for cells charged on the floor of a domain. -/
def State.giveBackDom (s : State) (p : Part) (n d k : Nat) : State :=
  s.modLp p n fun x =>
    { x with
      domHeld := FMap.update x.domHeld d 0 fun h => h - k
      domReturned := FMap.update x.domReturned d 0 fun r => (r + k) % 65536
      lastDom := d
      owes := true }

/-- The credit of a packet that leaves: at the port it came by, where it came by one. -/
def State.giveBackOf (s : State) (p : Part) (q : QEntry) : State :=
  match q.inPort, q.onFloor, q.pkt.domain with
  | some n, true, some d => s.giveBackDom p n d (cost q.pkt)
  | some n, _, _ => s.giveBack p n q.pkt.tc (cost q.pkt)
  | none, _, _ => s

/-! ### Port status -/

def State.lkCode (s : State) (p : Part) (n : Nat) (code : Code) : State := s.setFld p (lkAddr p n 0) 16 16 code.toNat
def State.lkState (s : State) (p : Part) (n v : Nat) : State := s.setFld p (lkAddr p n 0) 0 2 v

/-- R281, R286: every cell held for a port, queued or unacknowledged, is flushed. -/
def State.flushPort (s : State) (p : Part) (n : Nat) : State :=
  let x := s.lp p n
  let qs := x.copies.map (·.q) ++ x.queues.flatMap fun (_, l) => l
  let cells := (qs.map fun q => cost q.pkt).foldl (· + ·) 0
  let s1 := (s.modLp p n fun x => { x with copies := [], queues := [], resend := [], busy := none }).modLedger p n
    (Ledger.flush · cells)
  let s1 := x.queues.foldl (fun (s : State) (q : Nat × List QEntry) =>
    q.2.foldl (fun (s : State) (e : QEntry) => s.tagPacket p n e none 0 true) s)
    (x.copies.foldl (fun (s : State) (c : TxCopy) => s.tagPacket p n c.q (some c.firstAt) c.lseq true) s1)
  let s2 := qs.foldl (fun s q => s.giveBackOf p q) s1
  if cells = 0 then s2 else s2.count (evLk p n 0x38) cells

/-- R282: one PLANE_LOST or PLANE_BACK at a Kresia: applied and flooded once. -/
def State.planeNote (s : State) (lost : Bool) (n : PlaneNotice) : State :=
  let k := (n.member, n.plane)
  if lost then
    if s.ks.lostPlanes.contains k then s
    else (s.modKs fun x => { x with lostPlanes := k :: x.lostPlanes }).emit (.send .kresia .flood (.planeLost n))
  else if s.ks.lostPlanes.contains k then
    (s.modKs fun x => { x with lostPlanes := x.lostPlanes.erase k }).emit (.send .kresia .flood (.planeBack n))
  else s

/-- R281: a port leaves service: it flushes, reports, drops out of time transfer, and tells of the lost plane
(R282). -/
def State.leaveService (s : State) (p : Part) (n : Nat) (code : Code) : State :=
  let x := s.lp p n
  let wasUp := s.up p n
  let s1 := ((((s.flushPort p n).modLp p n fun x => { x with step := 6, wait := false }).lkState p n 3).lkCode p n code).setBit
    p (ttPort p n 0x0C) 0 false
  let s2 := s1.report p code [s1.fld p (lkAddr p n 0x0C) 0 32, s1.fld p (lkAddr p n 0x18) 0 32,
    s1.fld p (lkAddr p n 0x38) 0 32] (port := n)
  if !wasUp then s2
  else match p, x.peer with
    | .kresia, some c =>
      if c.role = 0 && s.fld .kresia (lkAddr .kresia n 0) 6 2 = 3 then
        s2.planeNote true ⟨c.node, ksPlane s.ksId⟩
      else s2
    | .baxel, some c => s2.emit (.send .baxel .planes (.planeLost ⟨s.fld .baxel 0x0004 0 20, c.plane⟩))
    | _, none => s2

/-- R315: whether a node is fenced at this Kresia. -/
def State.isFenced (s : State) (node : Nat) : Bool := (FMap.getD s.ks.fences node (0, false)).2

/-! ### Gate lists -/

/-- R293: CYCLE in ns. -/
def GateList.cycle (l : GateList) : Nat := (l.entries.map (·.2)).foldl (· + ·) 0

/-- R293: whether a list keeps to the table. -/
def GateList.ok (l : GateList) : Bool :=
  1 ≤ l.entries.length && l.entries.length ≤ 256 && 1000 ≤ l.cycle && l.cycle ≤ 1000000000 &&
  l.entries.all fun (m, d) => m % 4 = 3 && m < 128 && 64 ≤ d && d ≤ 1000000000

/-- R294: the entry covering an offset of ns: its index, its mask and the offset of its end. -/
def entryAt : List (Nat × Nat) → Nat → Nat → Nat → Nat × Nat × Nat
  | [], i, start, _ => (i, 127, start)
  | (m, d) :: t, i, start, off => if off < start + d then (i, m, start + d) else entryAt t (i + 1) (start + d) off

/-- R294: at an OT: the cycle's number, and the entry's index, mask and end offset. The offset within the cycle is the
whole ns below it. -/
def GateList.at (l : GateList) (t : OT) : Int × Nat × Nat × Nat :=
  let c : Int := (l.cycle : Int) * 65536
  let d := otDiff t l.base
  (d / c, entryAt l.entries 0 0 ((d % c) / 65536).toNat)

/-- R294: the OT of an offset of ns in a cycle. -/
def GateList.ot (l : GateList) (cyc : Int) (off : Nat) : OT :=
  otAdd l.base ((cyc * l.cycle + (off : Int)) * 65536)

/-- Bit c of a mask. -/
def opens (mask c : Nat) : Bool := mask / 2 ^ c % 2 = 1

/-- R294: ns from the start of entry i (rotated to the front) for which class c stays open. -/
def openRun (c : Nat) : List (Nat × Nat) → Nat
  | [] => 0
  | (m, d) :: t => if opens m c then d + openRun c t else 0

/-- R300: the longest window of a class in ns; none where it never closes. -/
def GateList.longest (l : GateList) (c : Nat) : Option Nat :=
  if l.entries.all fun (m, _) => opens m c then none
  else some ((List.range l.entries.length).foldl (fun b i => max b (openRun c (l.entries.drop i ++ l.entries.take i))) 0)

/-- R299: the end of the window of class c that contains an OT; none where it never closes. -/
def GateList.windowEnd (l : GateList) (c : Nat) (t : OT) : Option OT :=
  let (cyc, i, _, stop) := l.at t
  if l.entries.all fun (m, _) => opens m c then none
  else
    let rest := l.entries.drop (i + 1) ++ l.entries.take (i + 1)
    some (l.ot cyc (stop + openRun c rest))

/-- R295: whether the gates of a port are enforced: enabled, with an active list, and not in UNSET. -/
def State.gated (s : State) (p : Part) (n : Nat) : Option GateList :=
  if s.bit p (gtBlock p n 0) 0 && (s.pc p).time.state ≠ .unset then (s.gp p n).active else none

/-- R295: the raw edge at which a boundary that closes a class takes effect: the last edge at or before its raw value. -/
def closeEdge (d : Due) : Raw := fireEdge d.raw
/-- R295: and one that opens a class: the first edge at or after it. -/
def openEdge (d : Due) : Raw := fireEdge (d.raw + 65535)

/-- R297, R299: the raw edge at which the window of a class that is open now ends; none where it never does. A pending
list that keeps the class open at its swap carries the window on. -/
def State.windowEdge (s : State) (p : Part) (n c : Nat) (l : GateList) : Option Raw :=
  let u := (s.pc p).time
  let here := (l.windowEnd c u.now).map fun t => closeEdge (u.mkDue t)
  match (s.gp p n).pending with
  | none => here
  | some (l2, d) =>
    let before := match here with
      | some e => Raw.diff (closeEdge d) e ≤ 0
      | none => true
    if !before then here
    else if opens (l2.at d.ot).2.2.1 c then (l2.windowEnd c d.ot).map fun t => closeEdge (u.mkDue t)
    else some (closeEdge d)

/-- R299: the brim rule for a packet of length L starting now. -/
def State.brimOk (s : State) (p : Part) (n : Nat) (x : Packet) : Bool :=
  match s.gated p n with
  | none => true
  | some l => match s.windowEdge p n x.tc l with
    | none => true
    | some e => (s.counted p n x : Int) * 65536 ≤ Raw.diff e (s.raw p) * s.rate p n

/-- R300: why a list refuses a packet; none where it takes it. -/
def State.gateCode (s : State) (p : Part) (n : Nat) (l : GateList) (x : Packet) : Option Code :=
  match l.longest x.tc with
  | none => none
  | some w =>
    if w = 0 then some 0x8005
    else if w * s.rate p n < s.counted p n x then some 0x8004 else none

/-! ### Shapers -/

def State.shaper (s : State) (p : Part) (n c : Nat) : Shaper := FMap.getD (s.gp p n).shapers c {}

/-- R303: CREDIT after a nanosecond. -/
def Shaper.after (h : Shaper) (rp : Nat) (sent gateOpen waiting : Bool) : Shaper :=
  let i : Int := h.slope
  if !h.en then h
  else if sent then { h with credit := h.credit - ((rp : Int) - i) }
  else if !gateOpen then h
  else if waiting then { h with credit := if (h.hi : Int) * 8000 < h.credit then h.credit
                                          else min (h.credit + i) ((h.hi : Int) * 8000) }
  else if 0 < h.credit then { h with credit := 0 }
  else { h with credit := min (h.credit + i) 0 }

/-- The queue of a class at a port. -/
def State.queue (s : State) (p : Part) (n c : Nat) : List QEntry := FMap.getD (s.lp p n).queues c []

/-- Whether the gate of a class is open at a port now. -/
def State.gateOpen (s : State) (p : Part) (n c : Nat) : Bool :=
  match s.gated p n with
  | none => true
  | some _ => opens (s.gp p n).mask c

/-- R303: every enabled shaper of a port updated for the nanosecond that begins now. -/
def State.tickShapers (s : State) (p : Part) (n : Nat) : State :=
  let x := s.lp p n
  let now := s.raw p
  let rp := 8000 * s.rate p n
  s.modGp p n fun g =>
    { g with shapers := FMap.mapVals g.shapers fun c h =>
        h.after rp (match x.busy with
          | some (b, e) => b = some c && 0 < Raw.diff e now
          | none => false) (s.gateOpen p n c) (!(FMap.getD x.queues c []).isEmpty) }

end Sys2Proof.Machine
end

