-- ==== Sys2Proof/Machine/Routes.lean ====
section
/-! DEFINITION. The way a message takes: the planes of a Baxel (R137, R217), the spine of an index (R23), and the return
route to a member that has lost a plane (R282). -/

namespace Sys2Proof.Machine

/-- R445: an identifier. -/
def ksIdOf (hall pod plane index : Nat) : Nat := hall * 16384 + pod * 1024 + plane * 128 + index

/-! ### A Baxel's planes -/

/-- The port in service that faces a plane. -/
def State.bxPort (s : State) (plane : Nat) : Option Nat :=
  (s.upPorts .baxel).find? fun n => match (s.lp .baxel n).peer with
    | some c => c.plane = plane
    | none => false

/-- R217: the planes in service, ascending. -/
def State.bxPlanes (s : State) : List Nat := (List.range 8).filter fun pl => (s.bxPort pl).isSome

/-- R142: the planes a Baxel's transfer is spread over: those of Ploav 3; without one, the lowest alone, as Ploav 2
needs it. -/
def State.sendPlanes (s : State) : List Nat × Bool :=
  let v3 := s.bxPlanes.filter fun pl => match s.bxPort pl with
    | some n => !s.isV2Port .baxel n
    | none => false
  if v3.isEmpty then (s.bxPlanes.take 1, true) else (v3, false)

/-! ### A Kresia's routes -/

/-- R282: the planes in which a member has not lost its leaf. -/
def State.planesLeft (s : State) (member : Nat) : List Nat :=
  (List.range s.ks.build.planes).filter fun pl => !s.ks.lostPlanes.contains (member, pl)

/-- The position of a member in a domain's map: its group and down port. -/
def State.placeOf (s : State) (d member : Nat) : Option (Nat × Nat) :=
  match FMap.find? s.ks.doms d with
  | some x => (x.positions.find? fun q => q.e.member = member).map fun q => (q.e.group, q.e.port)
  | none => none

/-- R23, R282: up to spine i of the own pod, across its tie into another plane, and on from there by the Kresia named. -/
def State.acrossTie (s : State) (spine plane : Nat) (more : List Nat) : List Nat :=
  let own := s.ksId
  let up := ksIdOf (ksHall own) (ksPod own) (ksPlane own) spine
  (if up = own then [] else [up]) ++ ksIdOf (ksHall own) (ksPod own) plane spine :: more

/-- R23: the spine of the own index. -/
def State.ownSpine (s : State) : Nat :=
  if s.isSpine then ksIndex s.ksId else 64 + ksIndex s.ksId % 64 % s.ks.build.spines

/-- R282: the plane by which a message for a node goes: its own for a Kresia; for a member, this Kresia's, or, while the
member has lost that one, element k of those it has. -/
def State.planeFor (s : State) (n k : Nat) : Nat :=
  let own := ksPlane s.ksId
  if 2 ^ 20 ≤ n then ksPlane (n - 2 ^ 20)
  else if s.ks.lostPlanes.contains (n, own) then (s.planesLeft n).getD (k % (s.planesLeft n).length) own
  else own

/-- R23, R282: the route of a packet of a domain to a node: within the plane; to a Kresia of another plane over the tie of
the spine of the own index; to a member that lost this plane by the return route. -/
def State.routeTo (s : State) (d n k : Nat) : Via :=
  let pl := s.planeFor n k
  if pl = ksPlane s.ksId then .node n
  else if 2 ^ 20 ≤ n then .hops ((s.acrossTie s.ownSpine pl []).filter (· ≠ n - 2 ^ 20)) n
  else match s.placeOf d n with
    | none => .node n
    | some (g, port) =>
      let spine := if s.isSpine then ksIndex s.ksId else 64 + port % s.ks.build.spines
      .hops (s.acrossTie spine pl [ksIdOf (g / 1024 % 4) (g / 64 % 16) pl (g % 64)]) n

/-- R19, R282: the class on a route: ties refuse TC2, TC3 and TC4. -/
def routeCls (via : Via) (cls : Nat) : Nat :=
  match via with
  | .hops _ _ => if 2 ≤ cls && cls ≤ 4 then 5 else cls
  | _ => cls

/-- R205, R217: the route of a chunk's packet from here towards its home h: within the plane by one spine for the whole part, which
the manual does not name (log 154); a detour part out of its plane over the tie of the spine of the home's index, or of c mod S
where the home is a leaf. -/
def State.chunkRoute (s : State) (h : Nat) (k : ChunkPacket) : Via :=
  let own := s.ksId
  let spines := s.ks.build.spines
  if ksPlane h ≠ ksPlane own then
    let i := if 64 ≤ ksIndex h then ksIndex h else 64 + k.chunk % spines
    .hops ((s.acrossTie i (ksPlane h) []).filter (· ≠ h)) (2 ^ 20 + h)
  else if h = own || s.isSpine || (64 ≤ ksIndex h && ksPod h = ksPod own && ksHall h = ksHall own) then .node (2 ^ 20 + h)
  else
    .hops [ksIdOf (ksHall own) (ksPod own) (ksPlane own) (64 + Config.partPath k.domain k.coll k.chunk k.sender % spines)]
      (2 ^ 20 + h)

/-- R205, R217: a packet of a chunk goes on to its home. -/
def State.sendChunk (s : State) (h : Nat) (k : ChunkPacket) : State := s.emit (.send .kresia (s.chunkRoute h k) (.chunk k.cls k))

/-- R255: from here, at a dispatch leaf or a plan home h, to the other: within the plane by its node; into another plane over the tie
of spine s of the leaf's pod: the plan home's index when it is a spine of that pod, else the leaf's index mod S. -/
def State.dspRoute (s : State) (leaf h dest : Nat) : Via :=
  let i := if 64 ≤ ksIndex h && ksPod h = ksPod leaf && ksHall h = ksHall leaf then ksIndex h
    else 64 + ksIndex leaf % s.ks.build.spines
  let tie (plane : Nat) : Nat := ksIdOf (ksHall leaf) (ksPod leaf) plane i
  if ksPlane dest = ksPlane s.ksId then .node (2 ^ 20 + dest)
  else .hops ([tie (ksPlane s.ksId), tie (ksPlane dest)].filter fun q => q ≠ s.ksId && q ≠ dest) (2 ^ 20 + dest)

/-- R282: one message for members: together those that have this plane, and each other one by its return route. -/
def State.sendMembers (s : State) (d : Nat) (l : List Nat) (k : Nat) (m : Msg) : State :=
  let own := ksPlane s.ksId
  let away := l.filter fun n => s.ks.lostPlanes.contains (n, own)
  let s1 := s.emit (.send .kresia (.members (l.filter fun n => !s.ks.lostPlanes.contains (n, own))) m)
  away.foldl (fun s n => s.emit (.send .kresia (s.routeTo d n k) m)) s1

end Sys2Proof.Machine
end

