-- ==== Sys2Proof/Machine/DomCore.lean ====
section
/-! DEFINITION. Domains at a Kresia: access, the fields of a step-program image (R146, R147, R150 to R152), positions
(R202), the Kresia of a domain, and how messages reach them (R21). -/

namespace Sys2Proof.Machine

/-! ### Access -/

def State.dom (s : State) (d : Nat) : Domain := FMap.getD s.ks.doms d {}
def State.modDom (s : State) (d : Nat) (f : Domain → Domain) : State :=
  s.modKs fun k => { k with doms := FMap.update k.doms d {} f }

/-! ### The image -/

/-- A step-program image. -/
abbrev Image := List Byte

def imgMode (g : Image) : Nat := le g 6 1
def imgFlags (g : Image) : Nat := le g 7 1
def imgId (g : Image) : Nat := le g 8 8
def imgBytes (g : Image) : Nat := le g 20 4
def imgPositions (g : Image) : Nat := le g 24 4 % 2 ^ 20
def imgPlanesMin (g : Image) : Nat := le g 28 1
def imgVoidRetry (g : Image) : Nat := le g 29 1
def imgEntries (g : Image) : Nat := le g 30 2
def imgLead (g : Image) : Nat := le g 32 4
def imgWindow (g : Image) : Nat := le g 36 4
def imgFlight (g : Image) : Nat := le g 40 4
def imgStepFirst (g : Image) : Nat := le g 44 6
def imgSections (g : Image) : Nat := le g 50 2
def imgSeed (g : Image) : Nat := le g 56 8
def imgDigest (g : Image) : List Byte := (g.drop 64).take 32

/-- R147: one section: KIND, OFFSET, BYTES, COUNT. -/
structure Section where
  kind : Nat
  off : Nat
  bytes : Nat
  count : Nat
  deriving DecidableEq, Repr

def secAt (g : Image) (i : Nat) : Section :=
  ⟨le g (256 + 16 * i) 1, le g (260 + 16 * i) 4, le g (264 + 16 * i) 4, le g (268 + 16 * i) 4⟩

def secs (g : Image) : List Section := (List.range (imgSections g)).map (secAt g)

/-- The section of a KIND; an empty one where the image has none. -/
def sec (g : Image) (kind : Nat) : Section := ((secs g).find? fun x => x.kind = kind).getD ⟨kind, 0, 0, 0⟩

/-- R150: byte offset of entry i, and its head fields. -/
def entAt (g : Image) (i : Nat) : Nat := (sec g 1).off + 64 * i
def entType (g : Image) (i : Nat) : Nat := le g (entAt g i) 1
def entVar (g : Image) (i : Nat) : Bool := le g (entAt g i + 1) 1 % 2 = 1
def entQueue (g : Image) (i : Nat) : Nat := le g (entAt g i + 2) 1 % 16
def entSite (g : Image) (i : Nat) : Nat := le g (entAt g i + 2) 1 / 16 % 4
def entPeriod (g : Image) (i : Nat) : Nat := le g (entAt g i + 4) 2
def entPhase (g : Image) (i : Nat) : Nat := le g (entAt g i + 6) 2
def entDoneObj (g : Image) (i : Nat) : Nat := le g (entAt g i + 8) 2
def entDoneN (g : Image) (i : Nat) : Nat := le g (entAt g i + 10) 2
def entRef (g : Image) (i : Nat) : Nat := le g (entAt g i + 12) 4
/-- A field of an entry's body (R152). -/
def entF (g : Image) (i off n : Nat) : Nat := le g (entAt g i + off) n

/-- R153: whether an entry runs in step s. -/
def entRuns (g : Image) (i step : Nat) : Bool :=
  entPeriod g i ≤ 1 || (step - imgStepFirst g) % entPeriod g i = entPhase g i

/-- R155: the LAUNCH entries, in order. -/
def launches (g : Image) : List Nat := (List.range (imgEntries g)).filter fun i => entType g i = 2

/-- R155: the body: every entry but BARRIER and LAUNCH. -/
def body (g : Image) : List Nat := (List.range (imgEntries g)).filter fun i => entType g i ≠ 1 && entType g i ≠ 2

/-- R163: byte offset of template record i. -/
def tmplAt (g : Image) (i : Nat) : Nat := (sec g 2).off + 40 * i
def tmplSlot (g : Image) (i : Nat) : Nat := le g (tmplAt g i) 2
def tmplCtrl (g : Image) (i : Nat) : Nat := le g (tmplAt g i + 16) 1

/-- Whether a launch-list slot's template is a bell's (R155, R166). -/
def slotBell (g : Image) (slot : Nat) : Bool :=
  (List.range (sec g 2).count).any fun i => tmplSlot g i = slot && tmplCtrl g i / 8 % 2 = 1

/-! ### Positions and nodes -/

/-- The index of the position of a member; with several, the first. -/
def Domain.posOf (x : Domain) (member : Nat) : Option Nat :=
  (List.range x.positions.length).find? fun i => (x.positions.getD i ⟨⟨0, 0, 0, 0, false⟩, false, true⟩).e.member = member

/-- A position by its index. -/
def Domain.pos (x : Domain) (i : Nat) : Position := x.positions.getD i ⟨⟨0, 0, 0, 0, false⟩, false, true⟩

/-- R202: GROUP of a leaf's identifier: leaf index, pod, hall. -/
def leafGroup (id : Nat) : Nat := ksIndex id % 64 + 64 * ksPod id + 1024 * ksHall id

/-- R18, R316: a position as a map gives it: vacant while its member stands fenced here. -/
def State.newPos (s : State) (e : PosEntry) : Position := { e := e, vacant := s.isFenced e.member }

/-- The positions a leaf's bitmap of down ports names. -/
def Domain.atPorts (x : Domain) (group : Nat) (bits : BitVec 128) : List Nat :=
  (List.range x.positions.length).filter fun i =>
    (x.pos i).e.group = group && bits.getLsbD (x.pos i).e.port

/-- The groups of a domain's positions. -/
def Domain.groups (x : Domain) : List Nat := (x.positions.map fun p => p.e.group).eraseDups

/-- The Kresia of a domain: in every plane, the leaves of its groups and the spines of their pods (log 31). -/
def Domain.kresia (x : Domain) (b : Build) : List Nat :=
  let gs := x.groups
  let pods := (gs.map fun g => g / 64).eraseDups
  (List.range b.planes).flatMap fun pl =>
    (gs.map fun g => ksIdOf (g / 1024 % 4) (g / 64 % 16) pl (g % 64)) ++
    pods.flatMap fun h => (List.range b.spines).map fun i => ksIdOf (h / 16 % 4) (h % 16) pl (64 + i)

/-- R20: the deputies of a crown: the Kresia of its index in its pod's other planes. -/
def deputiesOf (b : Build) (crown : Nat) : List Nat :=
  ((List.range b.planes).filter fun pl => pl ≠ ksPlane crown).map fun pl =>
    ksIdOf (ksHall crown) (ksPod crown) pl (ksIndex crown)

/-- The members bound in a domain. -/
def Domain.members (x : Domain) : List Nat := (x.positions.filter fun p => p.bound).map fun p => p.e.member

/-! ### Sending -/

/-- R19: the port of the tie to a plane. -/
def State.tiePort (s : State) (plane : Nat) : Nat :=
  let own := ksPlane s.ksId
  64 + (if plane < own then plane else plane - 1)

/-- R20: the Kresia of this spine's index in another plane. -/
def State.twin (s : State) (plane : Nat) : Nat := ksIdOf (ksHall s.ksId) (ksPod s.ksId) plane (ksIndex s.ksId)

/-- R21, R107: the copy of a broadcast for the deputy of another plane: over its tie; through another deputy's tie where
that one is down; with no route, or no Kresia in service there, none, and the fault manager hears of it. How often it hears
is left open: with every broadcast (DESIGN CHOICE, log 139). -/
def State.tieCopy (s : State) (d : Nat) (live : List Nat) (m : Msg) (plane : Nat) : State :=
  if live.contains plane then s.emit (.send .kresia (.tie (s.tiePort plane) plane) m)
  else match s.isFenced (2 ^ 20 + s.twin plane), live with
  | false, q :: _ =>
    (s.modKs fun k => { k with tieReroute := (k.tieReroute + 1) % 2 ^ 32 }).emit (.send .kresia (.tie (s.tiePort q) plane) m)
  | _, _ => s.report .kresia 0x7002 [plane] (domain := some d)

/-- R21: a broadcast of the crown: over each tie to the deputy there, and into its own plane. -/
def State.broadcast (s : State) (d : Nat) (m : Msg) : State :=
  let others := (List.range s.ks.build.planes).filter fun pl => pl ≠ ksPlane s.ksId
  let live := others.filter fun pl => s.up .kresia (s.tiePort pl) && !s.isFenced (2 ^ 20 + s.twin pl)
  (others.foldl (fun s pl => s.tieCopy d live m pl) s).emit (.send .kresia .broadcast m)

/-- R12, R20, R21, R117: the first copy of a broadcast goes on from a Kresia that is not the crown: a deputy passes it into
its plane, another spine down to the leaves of the domain, a leaf to its members; a Ploav 2 member gets the low bits of
SEQ. -/
def State.relay (s : State) (d : Nat) (m : Ctl) : State :=
  let x := s.dom d
  if s.isSpine then
    if x.isDeputy then s.emit (.send .kresia .broadcast (.ctl m))
    else s.emit (.send .kresia (.kresias ((x.groups.filter fun g => g / 64 = ksPod s.ksId + 16 * ksHall s.ksId).map fun g =>
      ksIdOf (ksHall s.ksId) (ksPod s.ksId) (ksPlane s.ksId) (g % 64))) (.ctl m))
  else
    let below (v2 : Bool) : List Nat :=
      (x.positions.filter fun q => q.bound && q.e.group = leafGroup s.ksId && q.e.v2 = v2).map fun q => q.e.member
    let s1 := if (below false).isEmpty then s else s.emit (.send .kresia (.members (below false)) (.ctl m))
    if (below true).isEmpty then s1 else s1.emit (.send .kresia (.members (below true)) (.ctl m.lowSeq))

/-- R107: a Kresia comes into service at the index of the crown that this one replaced: the program is loaded into it, and
it acts as a deputy. -/
def State.rejoin (s : State) (node : Nat) : State :=
  s.ks.doms.foldl (fun s (d, x) =>
    if x.isCrown && x.oldCrown = some node then
      let s1 := s.modDom d fun y => { y with oldCrown := none }
      match x.prog with
      | some g => s1.emit (.send .kresia (.kresias [node]) (.progImage
          { domain := d, crown := s.ksId, deputy := true, positions := x.positions.map (·.e), image := g }))
      | none => s1
    else s) s

/-- R134, R158, R160, R209: TENANT_FAULT that a Kresia sends the crown of a domain, with MEMBER zero. -/
def State.ksTenantFault (s : State) (d : Nat) (code : Code) (step : Option Nat := none) : State :=
  s.emit (.send .kresia (.crown d) (.ctl
    { kind := .tenantFault, domain := d, epoch := (s.dom d).epoch, step := step.getD (s.dom d).step, fromKresia := true,
      status := code }))

/-- R126, R134: a SIGNAL of step-program entry i: refused on an object of another domain, with a count of zero, or on a
POISONED object, and nothing changes then. -/
def State.stepSignal (s : State) (d o n i : Nat) : State :=
  let x := s.obj .kresia o
  if x.domain ≠ some d || n = 0 || x.poison then s
  else (s.signalObj .kresia o n ⟨s.fld .kresia 0x4 0 17, 1, 15, i⟩).1

/-- R154: the DONE signal of an entry at this Kresia. -/
def State.doneSignal (s : State) (d : Nat) (g : Image) (i : Nat) : State :=
  if entDoneObj g i = 0xFFFF then s else s.stepSignal d ((s.dom d).cobjBase + entDoneObj g i) (entDoneN g i) i

end Sys2Proof.Machine
end

