-- ==== Sys2Proof/Machine/CupCore.lean ====
section
/-! DEFINITION. Cupping: terms and partials (R344 to R348). -/

namespace Sys2Proof.Machine

/-- R346: CUP_SEED. -/
def cupSeed : Nat := 0x63757070696E6731

/-- R346: one term: four words. -/
def cupTerm (kind step rec' idx sub v : Nat) : List Nat :=
  (List.range 4).map fun j => fmix (genDraw cupSeed (counterOf (0x40 + kind) step (4 * sub + j) idx rec') ^^^ u64 v)

/-- R346: words added modulo 2^64. -/
def addWords (a b : List Nat) : List Nat := a.zipWith (fun x y => u64 (x + y)) b

/-- R345: whether step s of a domain is cupped. -/
def Domain.cupped (x : Domain) (step : Nat) : Bool :=
  match x.prog with
  | some g => 0 < x.cupPeriod && x.cupFrom ≤ step && (step - imgStepFirst g) % x.cupPeriod = 0
  | none => false

/-- R348: terms of a kind added to the partial of a cupped step. -/
def State.cupAdd (s : State) (d step kind : Nat) (terms : List (List Nat)) : State :=
  let x := s.dom d
  if !x.cupped step || terms.isEmpty then s
  else
    let sum := terms.foldl addWords [0, 0, 0, 0]
    let pad (l : List Nat) : List Nat := addWords l ((List.replicate (4 * kind) 0 ++ sum) ++ List.replicate (16 - 4 * kind) 0)
    (s.count { evK 0x1C0000 with wide := true } terms.length).modDom d fun y =>
      if y.cups.any fun c => c.step = step then
        { y with cups := y.cups.map fun c => if c.step = step then { c with sums := pad c.sums } else c }
      else { y with cups := ({ step := step, epoch := y.epoch, sums := pad (List.replicate 20 0) } : CupPart) :: y.cups.take 63 }

/-- R347: the SUMS terms of one element. -/
def sumTerms (step rec' idx : Nat) (v : Felt) : List (List Nat) :=
  ((List.range 5).map fun k => cupTerm 2 step rec' idx k ((v.w / 2 ^ (64 * k)) % 2 ^ 64).toNat) ++
    [cupTerm 2 step rec' idx 5 v.f.val]

/-- R344: an open instance marked with a cause of variation. -/
def State.markVaried (s : State) (d step bit : Nat) : State :=
  s.modDom d fun x => { x with insts := x.insts.map fun i =>
    if i.step = step && i.varied / 2 ^ bit % 2 = 0 then { i with varied := i.varied + 2 ^ bit } else i }

end Sys2Proof.Machine
end

