-- ==== Sys2Proof/Machine/Elem.lean ====
section
/-! DEFINITION. The element machine of blocking: binary32 operations (R235), reference routines (R238), instructions
(R232, R233) and one element's run of a program (R231, R234, R236). -/

namespace Sys2Proof.Machine

/-! ### binary32 (R235) -/

def FFmt.mul (t : FFmt) (a b : Nat) : Nat × FExc :=
  match t.decode a, t.decode b with
  | .nan, _ => (t.nan, {})
  | _, .nan => (t.nan, {})
  | .inf s, .inf u => (t.sgn (s ≠ u) + t.inf, {})
  | .inf s, .fin u m _ => if m = 0 then (t.nan, { invalid := true }) else (t.sgn (s ≠ u) + t.inf, {})
  | .fin u m _, .inf s => if m = 0 then (t.nan, { invalid := true }) else (t.sgn (s ≠ u) + t.inf, {})
  | .fin sa ma ea, .fin sb mb eb =>
    if ma * mb = 0 then (t.sgn (sa ≠ sb), {}) else t.round (sa ≠ sb) (ma * mb) (ea + eb) false

/-- A × B + C, rounded once. 0 × ∞ is invalid whatever C holds. -/
def FFmt.fma (t : FFmt) (a b c : Nat) : Nat × FExc :=
  let addInf (s : Bool) : Nat × FExc :=
    match t.decode c with
    | .nan => (t.nan, {})
    | .inf u => if s = u then (t.sgn s + t.inf, {}) else (t.nan, { invalid := true })
    | .fin .. => (t.sgn s + t.inf, {})
  match t.decode a, t.decode b with
  | .nan, _ => (t.nan, {})
  | _, .nan => (t.nan, {})
  | .inf s, .inf u => addInf (s ≠ u)
  | .inf s, .fin u m _ => if m = 0 then (t.nan, { invalid := true }) else addInf (s ≠ u)
  | .fin u m _, .inf s => if m = 0 then (t.nan, { invalid := true }) else addInf (s ≠ u)
  | .fin sa ma ea, .fin sb mb eb =>
    match t.decode c with
    | .nan => (t.nan, {})
    | .inf s => (t.sgn s + t.inf, {})
    | .fin sc mc ec =>
      let (v, e) := addExact (sa ≠ sb) (ma * mb) (ea + eb) sc mc ec
      t.roundInt v e ((sa ≠ sb) && sc)

def FFmt.div (t : FFmt) (a b : Nat) : Nat × FExc :=
  match t.decode a, t.decode b with
  | .nan, _ => (t.nan, {})
  | _, .nan => (t.nan, {})
  | .inf _, .inf _ => (t.nan, { invalid := true })
  | .inf s, .fin u _ _ => (t.sgn (s ≠ u) + t.inf, {})
  | .fin s _ _, .inf u => (t.sgn (s ≠ u), {})
  | .fin sa ma ea, .fin sb mb eb =>
    if mb = 0 then
      if ma = 0 then (t.nan, { invalid := true }) else (t.sgn (sa ≠ sb) + t.inf, { divZero := true })
    else if ma = 0 then (t.sgn (sa ≠ sb), {})
    else
      let n := ma * 2 ^ 80
      t.round (sa ≠ sb) (n / mb) (ea - eb - 80) (n % mb ≠ 0)

def FFmt.sqrt (t : FFmt) (a : Nat) : Nat × FExc :=
  match t.decode a with
  | .nan => (t.nan, {})
  | .inf s => if s then (t.nan, { invalid := true }) else (t.inf, {})
  | .fin s m e =>
    if m = 0 then (t.sgn s, {})
    else if s then (t.nan, { invalid := true })
    else
      let (m', e') := if e % 2 = 0 then (m, e) else (2 * m, e - 1)
      let n := m' * 2 ^ 60
      let q := isqrt n
      t.round false q (e' / 2 - 30) (q * q ≠ n)

/-- The order of two finite or infinite values: whether a lies below b; `zeros` orders -0 below +0. -/
def FVal.lt (zeros : Bool) : FVal → FVal → Bool
  | .nan, _ => false
  | _, .nan => false
  | .inf s, .inf u => s && !u
  | .inf s, .fin .. => s
  | .fin .., .inf u => !u
  | .fin sa ma ea, .fin sb mb eb =>
    let (d, _) := addExact sa ma ea (!sb) mb eb
    if ma = 0 && mb = 0 then zeros && sa && !sb else d < 0

/-- IEEE 754-2019 minimum and maximum. -/
def FFmt.minimum (t : FFmt) (a b : Nat) : Nat :=
  match t.decode a, t.decode b with
  | .nan, _ => t.nan
  | _, .nan => t.nan
  | x, y => if FVal.lt true y x then b else a
def FFmt.maximum (t : FFmt) (a b : Nat) : Nat :=
  match t.decode a, t.decode b with
  | .nan, _ => t.nan
  | _, .nan => t.nan
  | x, y => if FVal.lt true x y then b else a

/-! ### Formats of streams and outputs -/

def bf16 : FFmt := ⟨8, -126, 127, 16⟩
def f16 : FFmt := ⟨11, -14, 15, 16⟩

/-- R233: FMT of a stream: 0 FP32, 1 BF16, 2 FP16. -/
def streamFmt : Nat → FFmt
  | 1 => bf16
  | 2 => f16
  | _ => b32

/-- R234: a value of a format in binary32, exactly. -/
def FFmt.widen (t : FFmt) (v : Nat) : Nat :=
  match t.decode v with
  | .nan => b32.nan
  | .inf s => b32.sgn s + b32.inf
  | .fin s m e => if m = 0 then b32.sgn s else (b32.round s m e false).1

/-- R234: a binary32 value in a format, rounded to nearest even with overflow to infinity. -/
def FFmt.narrow (t : FFmt) (v : Nat) : Nat :=
  match b32.decode v with
  | .nan => t.nan
  | .inf s => t.sgn s + t.inf
  | .fin s m e => if m = 0 then t.sgn s else (t.round s m e false).1

/-- R236: OFMT of an output: 0 BF16, 1 FP16, 2 FP32. -/
def ofmt : Nat → OutFmt
  | 0 => fmtBf16
  | 1 => fmtF16
  | _ => fmtF32

/-- R236: an output value rounded to OFMT, stochastically with R where `sr`. -/
def roundOutput (o : Nat) (sr : Bool) (r32 v : Nat) : Nat :=
  let t := ofmt o
  match b32.decode v with
  | .nan => t.qnan
  | .inf s => t.signed s t.inf
  | .fin s m e =>
    if m = 0 then t.signed s 0
    else
      let w : Int := (m : Int) * 2 ^ (e + 149).toNat
      (roundOut t (if sr then 6 else 4) 0 r32 ⟨if s then -w else w, {}⟩).1

/-! ### Reference routines (R238) -/

/-- R238: unpack: 2^23 ≤ M < 2^24. -/
def unpackNorm (m : Nat) (e : Int) : Nat × Int :=
  let k := 23 - Nat.log2 m
  (m * 2 ^ k, e - k)

def rsqrt32 (x : Nat) : Nat :=
  match b32.decode x with
  | .nan => b32.nan
  | .inf s => if s then b32.nan else 0
  | .fin s m e =>
    if m = 0 then b32.sgn s + b32.inf
    else if s then b32.nan
    else
      let (m1, e1) := unpackNorm m e
      let (m2, e2) := if e1 % 2 = 0 then (m1, e1) else (2 * m1, e1 - 1)
      let q := isqrt (2 ^ 120 / m2)
      (b32.round false q (-60 - e2 / 2) (q * q * m2 ≠ 2 ^ 120)).1

/-- R238: the fifty fraction bits of LOG2. -/
def log2Bits : Nat → Nat → Nat → Nat
  | 0, _, f => f
  | n + 1, y, f =>
    let y1 := (y * y) >>> 126
    if 2 ^ 127 ≤ y1 then log2Bits n (y1 >>> 1) (2 * f + 1) else log2Bits n y1 (2 * f)

def log2r32 (x : Nat) : Nat :=
  match b32.decode x with
  | .nan => b32.nan
  | .inf s => if s then b32.nan else b32.inf
  | .fin s m e =>
    if m = 0 then b32.sgn true + b32.inf
    else if s then b32.nan
    else
      let (m1, e1) := unpackNorm m e
      let c := e1 + 23
      let l : Int := c * 2 ^ 50 + (log2Bits 50 (m1 * 2 ^ 103) 0 : Nat)
      let st : Bool := m1 ≠ 2 ^ 23
      if l = 0 then 0
      else if 0 < l then (b32.round false l.toNat (-50) st).1
      else if (-l - (if st then 1 else 0)).toNat = 0 then 0
      else (b32.round true (-l - (if st then 1 else 0)).toNat (-50) st).1

/-- R238: the series of EXP2: 40 terms from k on. -/
def exp2Terms : Nat → Nat → Nat → Nat → Nat → Nat
  | 0, _, _, _, s => s
  | n + 1, k, z, t, s =>
    let t1 := ((t * z) >>> 128) / k
    exp2Terms n (k + 1) z t1 (s + t1)

def exp2r32 (x : Nat) : Nat :=
  match b32.decode x with
  | .nan => b32.nan
  | .inf s => if s then 0 else b32.inf
  | .fin s m e =>
    let v : Int := if s then -(m : Int) else m
    let e64 := e + 64
    let xx : Int := if 0 ≤ e64 then v * 2 ^ e64.toNat else v / 2 ^ (-e64).toNat
    if 128 * 2 ^ 64 ≤ xx then b32.inf
    else if xx ≤ -150 * 2 ^ 64 then 0
    else
      let n := xx / 2 ^ 64
      let f := (xx % 2 ^ 64).toNat
      let z := (f * 0xB17217F7D1CF79ABC9E3B39803F2F6AF) >>> 64
      (b32.round false (exp2Terms 40 1 z (2 ^ 128) (2 ^ 128)) (n - 128) (f ≠ 0)).1

/-! ### Instructions (R232) -/

/-- R232: the fields of an instruction word. -/
def iOp (w : Nat) : Nat := w % 256
def iD (w : Nat) : Nat := w / 2 ^ 8 % 32
def iA (w : Nat) : Nat := w / 2 ^ 13 % 64
def iB (w : Nat) : Nat := w / 2 ^ 19 % 64
def iC (w : Nat) : Nat := w / 2 ^ 25 % 64
def iImm (w : Nat) : Nat := w / 2 ^ 32

/-- What one element brings to its run (R237). -/
structure ElemEnv where
  sum : Nat
  /-- The streams as they stood before the block, in binary32, by stream number. -/
  streams : FMap Nat := []
  /-- FMT of each declared stream. -/
  fmts : FMap Nat := []
  scalars : FMap Nat := []
  seed : Nat := 0
  step : Nat := 0
  rec' : Nat := 0
  elem : Nat := 0

/-- One lane during a run, and what it counts: invalid, division by zero, overflow, underflow, NaNs stored. -/
structure Lane where
  regs : FMap Nat := []
  stored : FMap Nat := []
  /-- OUT: the value; OUTS: the stream. With OFMT and SR. -/
  out : Option (Nat × Nat × Bool) := none
  outS : Option (Nat × Nat × Bool) := none
  counts : List Nat := [0, 0, 0, 0, 0]

/-- The counts after one operation's exceptions. -/
def Lane.raise (l : Lane) (x : FExc) : Lane :=
  { l with counts := l.counts.zipWith (· + ·) [x.invalid.toNat, x.divZero.toNat, x.overflow.toNat, x.underflow.toNat, 0] }

/-- R232: an operand: a register, or a scalar of the set. -/
def Lane.opnd (l : Lane) (v : ElemEnv) (n : Nat) : Nat :=
  if n < 32 then FMap.getD l.regs n 0 else FMap.getD v.scalars (n - 32) 0

def Lane.setReg (l : Lane) (d v : Nat) : Lane := { l with regs := FMap.set l.regs d v }

/-- R233: a negation flips the sign bit. -/
def negate (b : Bool) (v : Nat) : Nat := if b then v ^^^ 2 ^ 31 else v

/-- The counter of a draw of an element (R236). -/
def ElemEnv.draw (v : ElemEnv) (stream n : Nat) : Nat :=
  genDraw v.seed (counterOf stream v.step n v.elem v.rec') % 2 ^ 32

/-- An operation's result into D, with its exceptions. -/
def Lane.result (l : Lane) (d : Nat) (x : Nat × FExc) : Lane := (l.setReg d x.1).raise x.2

/-- R233: one instruction on one element. -/
def Lane.step (v : ElemEnv) (l : Lane) (w : Nat) : Lane :=
  let a := l.opnd v (iA w)
  let b := l.opnd v (iB w)
  let c := l.opnd v (iC w)
  let d := iD w
  let i := iImm w
  let na := negate (i % 2 = 1) a
  let nb := negate (i / 2 % 2 = 1) b
  match iOp w with
  | 0x02 => l.setReg d v.sum
  | 0x03 => l.setReg d (FMap.getD v.streams (i % 8) 0)
  | 0x04 =>
    let t := streamFmt (FMap.getD v.fmts (i % 8) 0)
    let l1 := { l with stored := FMap.set l.stored (i % 8) (t.narrow a) }
    if b32.decode a = .nan then { l1 with counts := l1.counts.zipWith (· + ·) [0, 0, 0, 0, 1] } else l1
  | 0x05 => l.setReg d i
  | 0x06 => l.setReg d a
  | 0x07 => l.setReg d ((b32.roundInt ((v.draw 0x03 (i % 256) / 256 : Nat) : Int) (-24) false).1)
  | 0x10 => l.result d (b32.add na nb)
  | 0x11 => l.result d (b32.mul na nb)
  | 0x12 => l.result d (b32.fma na nb (negate (i / 4 % 2 = 1) c))
  | 0x13 => l.result d (b32.div a b)
  | 0x14 => l.result d (b32.sqrt a)
  | 0x15 => l.setReg d (rsqrt32 a)
  | 0x16 => l.setReg d (exp2r32 a)
  | 0x17 => l.setReg d (log2r32 a)
  | 0x18 => l.setReg d (b32.minimum a b)
  | 0x19 => l.setReg d (b32.maximum a b)
  | 0x1A => if FVal.lt false (b32.decode a) (b32.decode b) then l.setReg d c else l
  | 0x20 => { l with out := some (a, i / 256 % 4, i / 1024 % 2 = 1) }
  | 0x21 => { l with outS := some (i % 8, i / 256 % 4, i / 1024 % 2 = 1) }
  | _ => l

/-- R231: a program over one element. -/
def runElem (prog : List Nat) (v : ElemEnv) : Lane := prog.foldl (fun l w => l.step v w) {}

/-- R236: the output value of a run, rounded, with OFMT. -/
def Lane.output (v : ElemEnv) (l : Lane) : Nat × Nat :=
  match l.out, l.outS with
  | some (x, o, sr), _ => (roundOutput o sr (v.draw 0x02 0) x, o)
  | none, some (n, o, sr) =>
    (roundOutput o sr (v.draw 0x02 0) ((streamFmt (FMap.getD v.fmts n 0)).widen (FMap.getD l.stored n 0)), o)
  | none, none => (0, 2)

/-- R232, R240: the instructions of a program from PROG_OFF on, up to END, at most n of them. -/
def progFrom (g : List Byte) (off : Nat) : Nat → List Nat
  | 0 => []
  | n + 1 =>
    let w := le g off 8
    if iOp w = 0x3F then [] else w :: progFrom g (off + 8) n

/-- R233, R234: the streams a program declares: (stream, FMT, ACCESS). -/
def streamsOf (prog : List Nat) : List (Nat × Nat × Nat) :=
  (prog.filter fun w => iOp w = 0x01).map fun w => (iImm w % 8, iImm w / 8 % 4, iImm w / 32 % 4)

end Sys2Proof.Machine
end

