-- ==== Sys2Proof/Machine/Transfers.lean ====
section
/-! DEFINITION. Signalled transfers on their way (R136, R139, R142, R282): the packets of a transfer, and the planes and
routes they take. -/

namespace Sys2Proof

/-- R136: payload bytes of a packet but the last. -/
def packetBytes : Nat := 4096

/-- R136: how many packets a transfer has. -/
def RsigSend.count (m : RsigSend) : Nat := (m.data.length + packetBytes - 1) / packetBytes

/-- R136: packet i of a transfer of a sender: its slice of the data; LAST brings the signal and DECLARED. -/
def RsigSend.packet (m : RsigSend) (src i : Nat) : RsigPacket :=
  let last := i + 1 = m.count
  { src := src, transfer := m.transfer, index := i, last := last, domain := m.domain, epoch := m.epoch
    addr := m.addr + packetBytes * i
    sigObj := if last then m.sigObj else 0
    sigN := if last then m.sigN else 0
    declared := if last then m.data.length else 0
    payload := (m.data.drop (packetBytes * i)).take packetBytes
    mirror := m.mirror }

/-- R142: the signal packet behind a transfer over Ploav 2. -/
def RsigSend.signal (m : RsigSend) (src : Nat) : RsigPacket :=
  { src := src, transfer := m.transfer, index := m.count, last := true, domain := m.domain, epoch := m.epoch, addr := m.addr
    sigObj := m.sigObj, sigN := m.sigN, declared := m.data.length, payload := [] }

namespace Machine

/-- R137: a transfer that finds no tracker is counted as stalled. -/
def State.countSendStall (s : State) (p : Part) : State := s.modPc p fun c => { c with rsigStall := c.rsigStall + 1 }

/-! ### From a Kresia -/

/-- R136, R142, R282: every packet of a transfer by one route, and behind them the signal of a Ploav 2 receiver. -/
def State.sendByRoute (s : State) (m : RsigSend) (v2 : Bool) : State :=
  let src := s.node .kresia
  let via := s.routeTo m.domain m.receiver m.transfer
  let cls := routeCls via m.cls
  let s1 := (List.range m.count).foldl (fun s i => s.emit (.send .kresia via (.rsig cls (m.packet src i)))) s
  if v2 then s1.emit (.send .kresia via (.v2Signal cls (m.signal src))) else s1

/-- R142: whether a transfer of a domain to a node goes over Ploav 2: its position is a Baxel 2.x. -/
def State.toV2 (s : State) (d n : Nat) : Bool :=
  match FMap.find? s.ks.doms d with
  | some x => x.positions.any fun q => q.e.member = n && q.e.v2
  | none => false

/-! ### From a Baxel -/

/-- The plane of each packet: packet i on element i of the planes, in turn (R136); over Ploav 2 all on one (R142). -/
def spreadOver (planes : List Nat) (v2 : Bool) (n : Nat) : List Nat :=
  (List.range n).map fun i => planes.getD (if v2 then 0 else i % planes.length) 0

/-- A message of a Baxel into a plane. -/
def State.intoPlane (s : State) (plane : Nat) (m : Msg) : State :=
  match s.bxPort plane with
  | some n => s.emit (.send .baxel (.port n) m)
  | none => s

/-- The packets of a transfer that `f` picks, each on its plane, and behind them the signal over Ploav 2. -/
def State.sendOnPlanes (s : State) (m : RsigSend) (via : List Nat) (v2 : Bool) (f : Nat → Bool) : State :=
  let src := s.node .baxel
  let s1 := (List.range m.count).foldl (fun s i =>
    if f i then s.intoPlane (via.getD i 0) (.rsig m.cls (m.packet src i)) else s) s
  if v2 then s1.intoPlane (via.getD 0 0) (.v2Signal m.cls (m.signal src)) else s1

end Machine

end Sys2Proof
end

