-- ==== Sys2Proof/Machine/CollCore.lean ====
section
/-! DEFINITION. Collectives: their records (R199, R201 to R203), windows and sequence indices (R208), the chunk table and
the felt store (R195, R216), and the transfers a Kresia starts (R137, R165). -/

namespace Sys2Proof.Machine

/-! ### Records (R199) -/

/-- Byte offset of a COLLECTIVES record, and its fields. -/
def collAt (g : Image) (c : Nat) : Nat := (sec g 5).off + 64 * c
def collCount (g : Image) : Nat := (sec g 5).count
def cKind (g : Image) (c : Nat) : Nat := le g (collAt g c) 1
def cSparse (g : Image) (c : Nat) : Bool := le g (collAt g c + 1) 1 % 2 = 1
def cBlocked (g : Image) (c : Nat) : Bool := le g (collAt g c + 1) 1 / 2 % 2 = 1
def cShift (g : Image) (c : Nat) : Int := leS g (collAt g c + 2) 2
def cElems (g : Image) (c : Nat) : Nat := le g (collAt g c + 4) 4
def cChunkElems (g : Image) (c : Nat) : Nat := le g (collAt g c + 8) 2
def cRangeLog (g : Image) (c : Nat) : Nat := le g (collAt g c + 10) 1
def cSlotsLog (g : Image) (c : Nat) : Nat := le g (collAt g c + 11) 1
def cWindow (g : Image) (c : Nat) : Nat := le g (collAt g c + 12) 2
def cLobj (g : Image) (c : Nat) : Nat := le g (collAt g c + 14) 2
def cSetFirst (g : Image) (c : Nat) : Nat := le g (collAt g c + 16) 4 % 2 ^ 20
def cSetCount (g : Image) (c : Nat) : Nat := le g (collAt g c + 20) 4
def cDestFirst (g : Image) (c : Nat) : Nat := le g (collAt g c + 24) 4 % 2 ^ 20
def cDestCount (g : Image) (c : Nat) : Nat := le g (collAt g c + 28) 4
def cSrcAddr (g : Image) (c : Nat) : Nat := le g (collAt g c + 32) 8
def cDstAddr (g : Image) (c : Nat) : Nat := le g (collAt g c + 40) 8
def cHomes (g : Image) (c : Nat) : Nat := le g (collAt g c + 48) 4
def cHomesOff (g : Image) (c : Nat) : Nat := le g (collAt g c + 52) 4
def cTimeoutUs (g : Image) (c : Nat) : Nat := let v := le g (collAt g c + 56) 4; if v = 0 then 1000 else v
/-- KIND 2 or 3: a gather. -/
def cGather (g : Image) (c : Nat) : Bool := 2 ≤ cKind g c

/-- The entry of a TYPE whose REF is a record. -/
def entryFor (g : Image) (ty r : Nat) : Option Nat :=
  (List.range (imgEntries g)).find? fun i => entType g i = ty && entRef g i = r

/-- A field of the FULL entry of a collective; zero where none names it. -/
def fullF (g : Image) (c off n : Nat) : Nat :=
  match entryFor g 3 c with
  | some i => entF g i off n
  | none => 0
def cIn (g : Image) (c : Nat) : Nat := fullF g c 16 1
def cRound (g : Image) (c : Nat) : Nat := fullF g c 18 1
def cFp64 (g : Image) (c : Nat) : Nat := fullF g c 19 1
/-- R152: QUORUM, where it asks for less than the whole set. -/
def cQuorum (g : Image) (c : Nat) : Option Nat :=
  let q := fullF g c 20 4
  if q = 0 || cSetCount g c ≤ q || cGather g c then none else some q

/-- R152, R232: the program a BLOCK entry names, up to END. -/
def blkProg (g : Image) (i : Nat) : List Nat :=
  progFrom g ((sec g 6).off + 8 * entF g i 16 4) (((sec g 6).bytes / 8) - entF g i 16 4)

/-- The program of a collective's BLOCK entry. -/
def collProg (g : Image) (c : Nat) : List Nat :=
  match entryFor g 4 c with
  | some i => blkProg g i
  | none => []

/-- R233: OFMT of a program, and the stream OUTS names; none for OUT. -/
def progOut (prog : List Nat) : Nat × Option Nat :=
  match prog.find? fun w => iOp w = 0x20 || iOp w = 0x21 with
  | some w => (iImm w / 256 % 4, if iOp w = 0x21 then some (iImm w % 8) else none)
  | none => (0, none)

/-- R185, R236: the format of the results of a collective: of a BLOCKED one, the output of its program. -/
def cOut (g : Image) (c : Nat) : Nat :=
  if cBlocked g c then [2, 3, 1].getD (progOut (collProg g c)).1 1
  else if cGather g c then cIn g c
  else fullF g c 17 1

/-- R199: OUT_BYTES(n); a gather moves the bytes of its input. -/
def cOutBytes (g : Image) (c n : Nat) : Nat :=
  if cGather g c then inBytes (cIn g c) n else (outBytes (cOut g c) n).getD 0

/-- R199: the number of chunks. -/
def cChunks (g : Image) (c : Nat) : Nat :=
  if cSparse g c then cElems g c / 2 ^ cRangeLog g c
  else (cElems g c + cChunkElems g c - 1) / cChunkElems g c

/-- Elements of chunk k of a dense collective; the index space of a sparse one. -/
def cLen (g : Image) (c k : Nat) : Nat :=
  if cSparse g c then 2 ^ cRangeLog g c else min (cChunkElems g c) (cElems g c - k * cChunkElems g c)

/-- Index of the first element of chunk k. -/
def cBase (g : Image) (c k : Nat) : Nat := k * (if cSparse g c then 2 ^ cRangeLog g c else cChunkElems g c)

/-- R203, R209: the positions that contribute to chunk k. -/
def cSet (g : Image) (c k : Nat) : List Nat :=
  if cGather g c then [cSetFirst g c + k * cSetCount g c / cChunks g c]
  else (List.range (cSetCount g c)).map (cSetFirst g c + ·)

/-- R211: the destinations of chunk k. -/
def cDest (g : Image) (c k : Nat) : List Nat :=
  if cKind g c = 1 then [cDestFirst g c + k * cDestCount g c / cChunks g c]
  else (List.range (cDestCount g c)).map (cDestFirst g c + ·)

/-- R196, R192, R210: whether leaves of a collective forward member parts unreduced. -/
def cPass (g : Image) (c : Nat) : Bool := imgFlags g / 2 % 2 = 0 || cFp64 g c = 1 || cGather g c

/-! ### Homes (R201, R219, R325) -/

/-- The element of a home list with the moves that hold for a step, of a collective (0), layer (1) or region (2). -/
def movedHome (moves : List Moved) (kind r e step dflt : Nat) : Nat :=
  match (moves.filter fun m => m.kind = kind && m.record = r && m.element = e && m.step ≤ step).getLast? with
  | some m => m.home
  | none => dflt

def homeList (g : Image) (c e : Nat) : Nat := le g ((sec g 5).off + cHomesOff g c + 4 * e) 4 % 2 ^ 17

def homeOf (moves : List Moved) (g : Image) (c k step : Nat) : Nat :=
  let e := k % cHomes g c
  movedHome moves 0 c e step (homeList g c e)

/-- R201: the chunks of a collective whose home satisfies p, ascending. -/
def chunksWhere (moves : List Moved) (g : Image) (c step : Nat) (p : Nat → Bool) : List Nat :=
  (List.range (cChunks g c)).filter fun k => p (homeOf moves g c k step)

/-- R208: a chunk's sequence index among those. -/
def seqIndex (moves : List Moved) (g : Image) (c k step : Nat) (p : Nat → Bool) : Nat :=
  ((List.range k).filter fun j => p (homeOf moves g c j step)).length

/-! ### Domain, image and step of a chunk -/

/-- R169: the image that holds for a step: an open instance's, a pending one from SWITCH_STEP on, the loaded one. -/
def Domain.imageFor (x : Domain) (step : Nat) : Option Image :=
  match x.insts.find? fun i => i.step = step with
  | some i => some i.image
  | none => match x.next with
    | some (g, n) => if n ≤ step then some g else x.prog
    | none => x.prog

/-- The step whose low 16 bits are given, nearest to the last tamped one. -/
def Domain.fullStep (x : Domain) (low : Nat) : Nat :=
  let r := match x.lastTamp with
    | some (st, _) => st
    | none => match x.prog with
      | some g => imgStepFirst g
      | none => x.step
  let d := (low + 65536 - r % 65536) % 65536
  if d < 32768 then r + d else r + d - 65536

/-- R202: a cover as a set of codes: group × 128 + port. -/
def Domain.pairOf (x : Domain) (i : Nat) : Nat := (x.pos i).e.group * 128 + (x.pos i).e.port

/-- The members at positions. -/
def Domain.membersAt (x : Domain) (l : List Nat) : List Nat :=
  (l.filter fun i => i < x.positions.length).map fun i => (x.pos i).e.member

def sameSet (a b : List Nat) : Bool := a.all b.contains && b.all a.contains

/-- R210: whether this Kresia is a leaf with positions of the set below it, in the chunk's plane. -/
def State.belowHere (s : State) (x : Domain) (l : List Nat) : List Nat :=
  if s.isSpine then []
  else l.filter fun i => i < x.positions.length && (x.pos i).e.group = leafGroup s.ksId && s.up .kresia (x.pos i).e.port

/-- The chunks of a collective this Kresia fulls as a leaf in a step. -/
def State.leafChunks (s : State) (x : Domain) (g : Image) (c step : Nat) : List Nat :=
  (chunksWhere x.moves g c step fun h => ksPlane h = ksPlane s.ksId).filter fun k => !(s.belowHere x (cSet g c k)).isEmpty

/-- The chunks of a collective homed here in a step. -/
def State.homeChunks (s : State) (x : Domain) (g : Image) (c step : Nat) : List Nat :=
  chunksWhere x.moves g c step fun h => h = s.ksId

/-! ### Windows (R208) -/

def winKey (d c role step : Nat) : Nat := (d * 2 ^ 12 + c) * 4 + role + 2 * (step % 2)

/-- The window of a role in a step: a fresh one where the store holds another step's. -/
def State.window (s : State) (d c role step : Nat) : RoleWindow :=
  let w := FMap.getD s.ks.windows (winKey d c role step) {}
  if w.step = step then w else { step := step }
def State.setWindow (s : State) (d c role step : Nat) (w : RoleWindow) : State :=
  s.modKs fun k => { k with windows := FMap.set k.windows (winKey d c role step) w }

/-- R201: the chunks of a leaf of a group and plane in a step, ascending: those of its plane with contributors below it. -/
def leafRole (x : Domain) (g : Image) (c step plane group : Nat) : List Nat :=
  (chunksWhere x.moves g c step fun h => ksPlane h = plane).filter fun k =>
    (cSet g c k).any fun i => i < x.positions.length && (x.pos i).e.group = group

/-- R201: the chunks of a collective that this Kresia serves in a role. -/
def State.roleChunks (s : State) (x : Domain) (g : Image) (c role step : Nat) : List Nat :=
  if role = 1 then s.homeChunks x g c step else leafRole x g c step (ksPlane s.ksId) (leafGroup s.ksId)

/-- R208: BASE: the closed chunks at the front of the role's ascending list. A leaf's chunk whose contributors' ports have
all left service opens at no member any more and is passed over. -/
def State.baseOf (s : State) (x : Domain) (g : Image) (d c role step : Nat) : Nat :=
  let w := s.window d c role step
  ((s.roleChunks x g c role step).takeWhile fun k =>
    FMap.has w.closed k || (role = 0 && (s.belowHere x (cSet g c k)).isEmpty)).length

/-- R208, R282: one CHUNK_BASE notice: leaves to their members, homes to the leaves of their plane and every member. -/
def State.sendBase (s : State) (d c role step base : Nat) : State :=
  let x := s.dom d
  let n := ChunkNote.base (2 ^ 20 + s.ksId) d x.epoch (step % 65536) c role base
  let s1 := s.setWindow d c role step { s.window d c role step with lastNote := some (s.raw .kresia), noted := base }
  if role = 0 then
    s1.sendMembers d ((x.positions.filter fun p => p.e.group = leafGroup s.ksId).map fun p => p.e.member) 0 (.chunkNote n)
  else
    (s1.emit (.send .kresia (.kresias (x.groups.map fun gr =>
      ksIdOf (gr / 1024 % 4) (gr / 64 % 16) (ksPlane s.ksId) (gr % 64))) (.chunkNote n))).sendMembers d x.members 0 (.chunkNote n)

/-- R208: a notice when BASE has advanced and the hold-off of 1 µs has ended. -/
def State.noteBase (s : State) (g : Image) (d c role step : Nat) : State :=
  let w := s.window d c role step
  let base := s.baseOf (s.dom d) g d c role step
  let free := match w.lastNote with
    | none => true
    | some r => (1000 * 65536 : Int) ≤ Raw.diff (s.raw .kresia) r
  if w.noted < base && free then s.sendBase d c role step base else s

/-- R208: a chunk closes in a role. -/
def State.closeChunk (s : State) (g : Image) (d c k role step restart : Nat) : State :=
  let w := s.window d c role step
  (s.setWindow d c role step { w with closed := FMap.set w.closed k restart }).noteBase g d c role step

/-- R208: whether the home of a chunk has admitted it, as far as this Kresia has heard. -/
def State.homeAdmits (s : State) (g : Image) (d c k step : Nat) : Bool :=
  let x := s.dom d
  let h := homeOf x.moves g c k step
  let base :=
    if h = s.ksId then s.baseOf x g d c 1 step
    else
      let b := FMap.getD s.ks.bases (winKey d c 1 step * 2 ^ 17 + h) ⟨step, 0⟩
      if b.step % 65536 = step % 65536 then b.base else 0
  seqIndex x.moves g c k step (fun i => i = h) < base + cWindow g c

/-! ### The chunk table and the felt store (R195, R216, R223) -/

def State.modChunk (s : State) (ix : Nat) (f : ChunkEntry → ChunkEntry) : State :=
  match FMap.find? s.ks.chunks ix with
  | some e => s.modKs fun k => { k with chunks := FMap.set k.chunks ix (f e) }
  | none => s

/-- The table entry of a chunk, as home or as leaf, in a step. -/
def State.findChunk (s : State) (d c k step : Nat) (home : Bool) : Option (Nat × ChunkEntry) :=
  List.find? (fun ((_, e) : Nat × ChunkEntry) =>
    e.domain = d && e.coll = c && e.chunk = k && e.step = step && (e.role = 1) = home) s.ks.chunks

/-- The slots in use. -/
def State.feltUsed (s : State) : Nat := (s.ks.chunks.map fun (_, e) => e.slotCount).foldl (· + ·) 0
def State.chunksOpen (s : State) : Nat := (s.ks.chunks.filter fun (_, e) => e.state = 1).length

/-- R195: the first of n free consecutive slots. -/
def State.findSlots (s : State) (n : Nat) : Option Nat :=
  let used := s.ks.chunks.filterMap fun (_, e) => if e.slotCount = 0 then none else some (e.slotFirst, e.slotCount)
  let cand := 0 :: used.map fun (a, k) => a + k
  let ok := cand.filter fun a => a + n ≤ 4194304 && used.all fun (b, k) => a + n ≤ b || b + k ≤ a
  match ok with
  | [] => none
  | a :: t => some (t.foldl min a)

/-- R192, R193, R195, R213: the slots a chunk takes at a Kresia. -/
def slotsNeeded (g : Image) (c k role : Nat) : Nat :=
  if role = 2 || cGather g c then 0
  else if cSparse g c then 2 ^ cSlotsLog g c
  else if cFp64 g c = 1 then (cLen g c k * cSetCount g c + 4) / 5
  else cLen g c k

/-- High-water marks after a change of the table (R198, R223). -/
def State.markHwm (s : State) : State :=
  (s.setFld .kresia 0x140084 0 23 (max (s.fld .kresia 0x140084 0 23) s.feltUsed)).setFld .kresia 0x150004 0 15
    (max (s.fld .kresia 0x150004 0 15) s.chunksOpen)

/-- The tag record of a chunk entry (R367). -/
def ChunkEntry.tag (e : ChunkEntry) : TagRec :=
  { kind := 2, role := if e.role = 1 then 1 else 0, domain := e.domain, step := e.step % 65536, index := e.coll,
    chunk := e.chunk, epoch := e.epoch }

/-- R195: an entry's slots return to the store. -/
def State.freeSlots (s : State) (ix : Nat) : State :=
  s.modChunk ix fun e => { e with slotFirst := 0, slotCount := 0, slots := [] }

/-- An entry leaves the table, with its slots. -/
def State.dropChunk (s : State) (ix : Nat) (incomplete : Bool) : State :=
  match FMap.find? s.ks.chunks ix with
  | some e =>
    let s1 := (s.tagStage e.tag 3).tagEnd e.tag incomplete
    s1.modKs fun k => { k with chunks := FMap.erase k.chunks ix }
  | none => s

/-- R210: what a chunk expects here. -/
def State.expectedOf (s : State) (x : Domain) (g : Image) (c k role : Nat) : List Nat :=
  if role = 1 then (cSet g c k).map x.pairOf else (s.belowHere x (cSet g c k)).map x.pairOf

/-- R209, R195: a chunk's entry opens at the lowest free place of the table; without free slots it waits. -/
def State.openChunk (s : State) (g : Image) (d c k step restart role : Nat) : State × Nat :=
  let x := s.dom d
  let ix := ((List.range 16384).find? fun i => !FMap.has s.ks.chunks i).getD 16384
  let n := slotsNeeded g c k role
  let base : ChunkEntry :=
    { domain := d, coll := c, chunk := k, restart := restart, epoch := x.epoch, step := step, role := role,
      opened := s.raw .kresia, expected := s.expectedOf x g c k role,
      quorum := if role = 1 then (cQuorum g c).getD 0 else 0 }
  let (e, waits) := match s.findSlots n with
    | some a => if ix < 16384 then ({ base with slotFirst := if n = 0 then 0 else a, slotCount := n }, false)
                else ({ base with waiting := true }, true)
    | none => ({ base with waiting := true }, true)
  let s1 := s.modKs fun q => { q with chunks := FMap.set q.chunks ix e }
  ((if waits then s1.count (evK 0x140088) else s1).markHwm.tagStart e.tag, ix)

/-- R218: an entry reset to a RESTART. One that has given its slots back takes new ones, or waits for them (R195). -/
def State.resetChunk (s : State) (g : Image) (ix restart : Nat) : State :=
  match FMap.find? s.ks.chunks ix with
  | some e =>
    let x := s.dom e.domain
    let n := slotsNeeded g e.coll e.chunk e.role
    let place := if e.slotCount = n then some e.slotFirst else s.findSlots n
    let s1 := if place.isNone && !e.waiting then s.count (evK 0x140088) else s
    State.markHwm <| s1.modChunk ix fun e =>
      { e with
        restart := restart, epoch := x.epoch, state := 1, claimed := [], covered := [], parts := [], discarded := [],
        slots := [], raw := [], passed := [], out := [], parked := []
        waiting := place.isNone
        slotFirst := place.getD 0
        slotCount := if place.isSome then n else 0
        expected := if e.role = 1 then e.expected else s.expectedOf x g e.coll e.chunk e.role }
  | none => s

/-! ### Transfers of a Kresia (R136, R137, R165) -/

/-- R165: the trackers a Kresia of a domain holds at each receiver of a class. -/
def grantTo (g : Image) (member : Bool) : Nat :=
  ((List.range (sec g 4).count).map fun i =>
    let o := (sec g 4).off + 4 * i
    if le g o 1 = 1 && le g (o + 1) 1 = (if member then 0 else 1) then le g (o + 2) 2 else 0).foldl (· + ·) 0

/-- The transfers of a domain open to a receiver; mirrors count apart. -/
def State.openTo (s : State) (d receiver : Nat) (mirror : Bool) : Nat :=
  (s.ks.jobs.filter fun (_, j) => j.domain = d && j.receiver = receiver && (j.mirror.isSome = mirror)).length

/-- R319: whether two transfers carry one mirror. -/
def sameMirror (a b : MirrorTag) : Bool :=
  a.region = b.region && a.coll = b.coll && a.chunk = b.chunk && a.step = b.step

/-- R319: the mirrors of a domain started to a partner and not yet committed. -/
def State.mirrorsTo (s : State) (d receiver : Nat) : List MirrorTag :=
  s.ks.jobs.filterMap fun (_, j) => if j.domain = d && j.receiver = receiver then j.mirror else none

/-- R319: bytes of a staging slot, and where the slots begin (log 40). -/
def stagingSlot : Nat := 1179648
def stagingBase : Nat := 2 ^ 40

/-- R319: where the sixteen slots granted to this home begin at a partner: those of the first partner, of the second, or
of the target of a copy. -/
def State.grantBase (s : State) (receiver : Nat) : Nat :=
  let x := ksPlane (receiver % 2 ^ 20) ^^^ ksPlane s.ksId
  stagingBase + (if x = 1 then 0 else if x = 2 then 16 else 32) * stagingSlot

/-- R319: the staging slot of a mirror: that of its other transfer, or the lowest free one of the grant. -/
def State.stageFor (s : State) (d receiver : Nat) (m : MirrorTag) : Option Nat :=
  let l := s.mirrorsTo d receiver
  match l.find? (sameMirror m) with
  | some t => some t.base
  | none =>
    ((List.range 16).map fun i => s.grantBase receiver + i * stagingSlot).find? fun b => l.all fun t => t.base ≠ b

/-- R137, R319: whether a transfer may start now. -/
def State.mayStart (s : State) (j : SendJob) : Bool :=
  match (s.dom j.domain).prog with
  | none => false
  | some g => match j.mirror with
    | some m => (s.stageFor j.domain j.receiver m).isSome
    | none => s.openTo j.domain j.receiver false < grantTo g (j.receiver < 2 ^ 20)

/-- The transfer of a job under an epoch and a TRANSFER number. -/
def SendJob.sent (j : SendJob) (epoch t : Nat) : RsigSend :=
  { receiver := j.receiver, domain := j.domain, epoch := epoch, transfer := t, cls := j.cls, addr := j.addr,
    sigObj := j.sigObj, sigN := j.sigN, data := j.data, mirror := j.mirror }

/-- R136: the lowest TRANSFER number not in use to a receiver. -/
def State.freeTransfer (s : State) (receiver : Nat) : Nat :=
  ((List.range 65536).find? fun t => !FMap.has s.ks.jobs (receiver * 65536 + t)).getD 0

/-- R136, R137, R142: a transfer starts: its data go out as packets under one TRANSFER. -/
def State.launchJob (s : State) (j0 : SendJob) : State :=
  let j := match j0.mirror with
    | some m =>
      let b := (s.stageFor j0.domain j0.receiver m).getD 0
      { j0 with addr := b + j0.addr, mirror := some { m with base := b } }
    | none => j0
  let t := s.freeTransfer j.receiver
  let x := s.dom j.domain
  let v2 := s.toV2 j.domain j.receiver
  let s1 := s.modKs fun k =>
    { k with
      jobs := FMap.set k.jobs (j.receiver * 65536 + t) { j with started := some (s.raw .kresia) }
      sends := FMap.set k.sends (j.receiver * 65536 + t)
        { receiver := j.receiver, domain := j.domain, epoch := x.epoch, transfer := t, opened := s.raw .kresia,
          cls := j.cls, what := j.what, via := [s.planeFor j.receiver t], v2 := v2 } }
  let s2 := if j.what = 2 then s1.count (evK 0x1B0048) else if j.what = 4 then s1.count (evK 0x1B0054)
    else if j.what = 5 then s1.count (evK 0x1B0058) else s1
  s2.sendByRoute (j.sent x.epoch t) v2

/-- R137: a transfer starts, or stalls while the grant at its receiver is used up. -/
def State.startJob (s : State) (j : SendJob) : State :=
  if s.mayStart j && !(s.ks.waitJobs.any fun w => w.domain = j.domain && w.receiver = j.receiver && w.mirror.isSome = j.mirror.isSome)
  then s.launchJob j
  else (s.modKs fun k => { k with waitJobs := k.waitJobs ++ [j] }).countSendStall .kresia

/-- Transfers that waited start in their order, each when its receiver has room: one pass over those waiting. -/
def State.pumpJobs (s : State) : State :=
  s.ks.waitJobs.foldl (fun s j =>
    if s.mayStart j then (s.modKs fun k => { k with waitJobs := k.waitJobs.erase j }).launchJob j else s) s

/-- Data cut into transfers of at most 1 MiB, with their offsets. -/
def cutMiB : Nat → Nat → List Byte → List (Nat × List Byte)
  | 0, _, _ => []
  | fuel + 1, off, bs =>
    if bs.isEmpty then [] else (off, bs.take 1048576) :: cutMiB fuel (off + 1048576) (bs.drop 1048576)

/-- R273: bytes padded to whole cells, one at least. -/
def padCells (bs : List Byte) : List Byte := bs ++ List.replicate ((max 1 ((bs.length + 63) / 64)) * 64 - bs.length) 0

end Sys2Proof.Machine
end

