-- ==== Sys2Proof/Machine/Shards.lean ====
section
/-! DEFINITION. Shards and regions of a Kresia (R225, R226), their mirrors (R318 to R321), and what goes out from
them: results, mirrors, fills and pours (R211, R319, R326, R330, R334). -/

namespace Sys2Proof.Machine

/-! ### Access -/

/-- The key of a shard: of a collective or a region, as primary or as mirror. -/
def shardKey (d rec' : Nat) (region mirror : Bool) : Nat := ((d * 2 + region.toNat) * 2 ^ 12 + rec') * 2 + mirror.toNat

def State.shard (s : State) (key : Nat) : Shard := FMap.getD s.ks.shards key {}
def State.modShard (s : State) (key : Nat) (f : Shard → Shard) : State :=
  s.modKs fun k => { k with shards := FMap.update k.shards key {} f }

/-- R199, R225: under what an element of an array is kept: its chunk and its offset, which is below 2^24. They stand for λ, which
moves with the home while the pair does not (log 155). -/
def cellKey (k o : Nat) : Nat := k * 2 ^ 24 + o
def cellChunk (q : Nat) : Nat := q / 2 ^ 24

/-- An element of a stream; unlisted, +0 (R227). -/
def Shard.get (h : Shard) (stream k o : Nat) : Nat := FMap.getD (FMap.getD h.streams stream []) (cellKey k o) 0

/-- One value of a stream under a key. -/
def Shard.putAt (h : Shard) (stream key v : Nat) : Shard :=
  { h with streams := FMap.update h.streams stream [] fun m => if v = 0 then FMap.erase m key else FMap.set m key v }
def Shard.put (h : Shard) (stream k o v : Nat) : Shard := h.putAt stream (cellKey k o) v

/-- Bytes of an element of a stream format, and of an output format. -/
def fmtWidth (f : Nat) : Nat := if f = 0 then 4 else 2
def ofmtWidth (o : Nat) : Nat := if o = 2 then 4 else 2

/-- The streams a program declares, by ascending number. -/
def declared (prog : List Nat) : List (Nat × Nat × Nat) :=
  (List.range 8).filterMap fun n => (streamsOf prog).find? fun x => x.1 = n

/-- Whether the output goes to a result area (R225). -/
def outReg (prog : List Nat) : Bool := (progOut prog).2.isNone

/-- n elements of a chunk as bytes. -/
def Shard.bytesOf (h : Shard) (stream w k n : Nat) : List Byte := (List.range n).flatMap fun o => leBytes w (h.get stream k o)

/-- Elements of a chunk taken from bytes. -/
def Shard.load (h : Shard) (stream w k n : Nat) (bs : List Byte) : Shard :=
  (List.range n).foldl (fun h o => h.put stream k o (le bs (o * w) w)) h

/-- R319, R327: which areas of a chunk travel: streams (all, or the writable ones), then the result area, each with its
element width. -/
def areasOf (prog : List Nat) (all : Bool) : List (Nat × Nat) :=
  (((declared prog).filter fun (_, _, a) => all || a ≠ 0).map fun (n, f, _) => (n, fmtWidth f)) ++
  (if outReg prog then [(8, ofmtWidth (progOut prog).1)] else [])

/-- The areas of a chunk as bytes, one after another. -/
def Shard.areas (h : Shard) (l : List (Nat × Nat)) (k n : Nat) : List Byte := l.flatMap fun (st, w) => h.bytesOf st w k n

/-- The areas of a chunk taken from bytes. -/
def Shard.loadAreas (h : Shard) (k n : Nat) : List (Nat × Nat) → List Byte → Shard
  | [], _ => h
  | (st, w) :: t, bs => Shard.loadAreas (h.load st w k n bs) k n t (bs.drop (w * n))

/-- R225: λ of an element of a chunk at its home: by the chunk's sequence index in the home role. -/
def lambdaOf (moves : List Moved) (g : Image) (c k o step : Nat) : Nat :=
  seqIndex moves g c k step (fun h => h = homeOf moves g c k step) * cLen g c 0 + o

/-- R225: where the array of a stream, or the result area (8), begins in this Kresia's memory; firmware chooses it (log 41). -/
def arrayBase (d c area : Nat) : Nat := 4096 * Config.arrayBase d c area

/-- R225: the address of an element of w bytes. -/
def elemAddr (moves : List Moved) (g : Image) (d c area w k o step : Nat) : Nat :=
  arrayBase d c area + lambdaOf moves g c k o step * w

/-- R236: the SR bit of the program's output. -/
def progSr (prog : List Nat) : Bool :=
  match prog.find? fun w => iOp w = 0x20 || iOp w = 0x21 with
  | some w => iImm w / 1024 % 2 = 1
  | none => false

/-- R242, R328: the output of a chunk's last block, of a step: from the result area, or by rounding the OUTS stream. -/
def Shard.outOf (h : Shard) (g : Image) (c k step : Nat) : List Byte :=
  let prog := collProg g c
  let n := cLen g c k
  match progOut prog with
  | (o, none) => h.bytesOf 8 (ofmtWidth o) k n
  | (o, some st) =>
    let f := ((declared prog).find? fun x => x.1 = st).getD (st, 0, 0)
    (List.range n).flatMap fun e =>
      let v : ElemEnv := { sum := 0, seed := imgSeed g, step := step, rec' := c, elem := cBase g c k + e }
      leBytes (ofmtWidth o) (roundOutput o (progSr prog) (v.draw 0x02 0) ((streamFmt f.2.1).widen (h.get st k e)))

/-- R321: a step's output becomes the sealed output once the step has sealed. -/
def State.sealOutputs (s : State) (d lastSealed : Nat) (g : Image) : State :=
  (List.range (collCount g)).foldl (fun s c =>
    if !cBlocked g c then s
    else
      let key := shardKey d c false false
      let h := s.shard key
      let due := h.blockStep.filter fun (k, st) => st ≤ lastSealed && (match FMap.find? h.sealedOut k with
        | some (was, _) => was < st
        | none => true)
      if due.isEmpty then s
      else s.modShard key fun h =>
        { h with sealedOut := due.foldl (fun (m : FMap (Nat × List Byte)) (q : Nat × Nat) =>
            FMap.set m q.1 (q.2, h.outOf g c q.1 q.2)) h.sealedOut }) s

/-! ### Mirrors (R318, R319) -/

/-- R23, R318: the first partner and the second. -/
def partnerOf (id mode : Nat) : Nat :=
  ksIdOf (ksHall id) (ksPod id) (ksPlane id ^^^ (if mode = 2 then 2 else 1)) (ksIndex id)

/-- R152, R318: the MIRROR entry of a collective with a MODE. -/
def mirrorEntry (g : Image) (c mode : Nat) : Option Nat :=
  (List.range (imgEntries g)).find? fun i => entType g i = 6 && entRef g i = c && entF g i 16 1 = mode

/-- R225, R318: the chunks of a BLOCKED collective whose mirrors this Kresia takes as first or second partner. -/
def State.mirrorChunks (s : State) (x : Domain) (g : Image) (c step : Nat) : List Nat :=
  let homes := ([0, 2].filter fun mode => (mirrorEntry g c mode).isSome).map (partnerOf s.ksId)
  chunksWhere x.moves g c step fun h => homes.contains h

/-- R225: the arrays that a load allocates here, each at +0 (R227): those of the shards homed here, and the writable ones and result
areas of the shards mirrored here. -/
def State.allocShards (s : State) (d : Nat) (g : Image) : State :=
  let x := s.dom d
  let step := imgStepFirst g
  let empty (c : Nat) (all : Bool) : Shard := { streams := (areasOf (collProg g c) all).map fun (n, _) => (n, []) }
  ((List.range (collCount g)).filter (cBlocked g)).foldl (fun s c =>
    let s1 := if (s.homeChunks x g c step).isEmpty then s else s.modShard (shardKey d c false false) fun _ => empty c true
    if (s.mirrorChunks x g c step).isEmpty then s1 else s1.modShard (shardKey d c false true) fun _ => empty c false) s

/-- R323: the partner that takes a chunk's mirror of a MODE: a chunk copied to a target takes its MODE 0 mirrors there. -/
def State.mirrorTarget (s : State) (d c k mode : Nat) : Nat :=
  let h := s.shard (shardKey d c false false)
  match h.fillTarget with
  | some t => if mode = 0 && h.fillDone.contains k then t else partnerOf s.ksId mode
  | none => partnerOf s.ksId mode

/-- The key of MIRROR_STEP at the home: by chunk and partner. -/
def mirrorKey (k mode : Nat) : Nat := k * 2 + (if mode = 2 then 1 else 0)

/-- R319: a chunk's mirror: writable streams, result area, sealed output. -/
def State.mirrorBytes (s : State) (d : Nat) (g : Image) (c k : Nat) : List Byte :=
  let h := s.shard (shardKey d c false false)
  let n := cLen g c k
  let out := (FMap.getD h.sealedOut k (0, [])).2
  h.areas (areasOf (collProg g c) false) k n ++ (out ++ List.replicate (cOutBytes g c n - out.length) 0)

/-- R319: transfers of at most 1 MiB to a node, in ascending order of address. -/
def State.sendPieces (s : State) (j : SendJob) : State :=
  (cutMiB (j.data.length / 1048576 + 2) 0 j.data).foldl (fun s (off, bs) =>
    s.startJob { j with
      addr := j.addr + off
      data := bs
      mirror := j.mirror.map fun m => { m with last := off + bs.length = j.data.length } }) s

/-- R319: a chunk's mirror sent to one partner. -/
def State.sendMirror (s : State) (d : Nat) (g : Image) (c k step mode entry : Nat) : State :=
  let bs := s.mirrorBytes d g c k
  let x := s.dom d
  s.sendPieces
    { what := 2, receiver := 2 ^ 20 + s.mirrorTarget d c k mode, domain := d, cls := 5, addr := 0,
      sigObj := x.cobjBase + x.cobjCount, data := bs, rec' := c, chunk := k, step := step, entry := entry
      mirror := some { coll := c, chunk := k, step := step, home := s.ksId, bytes := bs.length
                       sealed := (FMap.find? (s.shard (shardKey d c false false)).sealedOut k).map (·.1) } }

/-- R323: the next chunk of a copy goes to the target, one at a time: streams, result area and sealed output as they stand
between two of its blocks. -/
def State.pumpFill (s : State) (d c : Nat) : State :=
  let h := s.shard (shardKey d c false false)
  let is (j : SendJob) : Bool := j.what = 9 && j.domain = d && j.rec' = c
  let busy := s.ks.jobs.any (fun (_, j) => is j) || s.ks.waitJobs.any is || !h.fillAcked.isEmpty
  let still (k : Nat) : Bool := !(s.ks.blockQ.any fun j => j.running && j.domain = d && j.coll = c && j.chunk = k)
  match h.fillTarget, (s.dom d).prog, h.fillLeft.find? still with
  | some t, some g, some k =>
    if busy then s
    else
      let bs := s.mirrorBytes d g c k
      let x := s.dom d
      let st := FMap.find? h.blockStep k
      s.sendPieces
        { what := 9, receiver := 2 ^ 20 + t, domain := d, cls := 5, addr := 0, sigObj := x.cobjBase + x.cobjCount, data := bs,
          rec' := c, chunk := k, step := st.getD 0
          mirror := some { coll := c, chunk := k, step := st.getD 0, home := s.ksId, bytes := bs.length, fresh := st.isNone
                           sealed := (FMap.find? h.sealedOut k).map (·.1) } }
  | _, _, _ => s

/-! ### Mirrors that become primaries (R322, R325) -/

/-- A chunk's cells of a stream. -/
def chunkCells (k : Nat) (m : FMap Nat) : FMap Nat := m.filter fun (q, _) => cellChunk q = k

/-- A primary with a chunk as a mirror holds it. -/
def Shard.takeChunk (h m : Shard) (k : Nat) : Shard :=
  let merge (acc : FMap (FMap Nat)) (q : Nat × FMap Nat) : FMap (FMap Nat) :=
    FMap.update acc q.1 [] fun old =>
      (chunkCells k q.2).foldl (fun (o : FMap Nat) (x : Nat × Nat) => FMap.set o x.1 x.2) (old.filter fun (x, _) => cellChunk x ≠ k)
  { h with
    streams := m.streams.foldl merge h.streams
    blockStep := match FMap.find? m.blockStep k with
      | some st => FMap.set h.blockStep k st
      | none => h.blockStep
    sealedOut := match FMap.find? m.sealedOut k with
      | some q => FMap.set h.sealedOut k q
      | none => h.sealedOut }

/-- A mirror without a chunk. -/
def Shard.dropChunk (m : Shard) (k : Nat) : Shard :=
  { m with
    streams := FMap.mapVals m.streams fun _ c => c.filter fun (x, _) => cellChunk x ≠ k
    blockStep := FMap.erase m.blockStep k
    sealedOut := FMap.erase m.sealedOut k
    fresh := m.fresh.filter (· ≠ k) }

/-- Whether a mirror holds a whole copy of a chunk. -/
def Shard.holds (m : Shard) (k : Nat) : Bool := FMap.has m.blockStep k || m.fresh.contains k

/-- R322, R325: the mirror of a chunk held here becomes the primary, in place. -/
def State.adopt (s : State) (d c k : Nat) : State :=
  let m := s.shard (shardKey d c false true)
  if m.holds k then
    (s.modShard (shardKey d c false false) fun h => h.takeChunk m k).modShard (shardKey d c false true) fun y => y.dropChunk k
  else s

/-- R322, R325: so does the mirror of a region's part: the bytes of home-list element j. -/
def State.adoptPart (s : State) (d r j bytes part : Nat) : State :=
  let mine (a : Nat) : Bool := a % bytes / part = j
  let m := s.shard (shardKey d r true true)
  let s1 := s.modShard (shardKey d r true false) fun h =>
    { h with streams := FMap.update h.streams 9 [] fun old =>
        ((FMap.getD m.streams 9 []).filter fun (a, _) => mine a).foldl (fun (o : FMap Nat) (x : Nat × Nat) => FMap.set o x.1 x.2) old }
  s1.modShard (shardKey d r true true) fun y =>
    { y with streams := FMap.update y.streams 9 [] fun old => old.filter fun (a, _) => !mine a }

/-- R319, R170: whether a chunk's mirror of a step is committed, or on its way. -/
def State.mirrored (s : State) (d c k step mode : Nat) : Bool :=
  let h := s.shard (shardKey d c false false)
  (match FMap.find? h.mirrorStep (mirrorKey k mode) with
    | some st => step ≤ st
    | none => false)
def State.mirroring (s : State) (d c k step mode : Nat) : Bool :=
  let is (j : SendJob) : Bool := j.what = 2 && !(j.mirror.elim false (·.region)) && j.domain = d && j.rec' = c && j.chunk = k && j.step = step &&
    j.receiver = 2 ^ 20 + s.mirrorTarget d c k mode
  s.ks.jobs.any (fun (_, j) => is j) || s.ks.waitJobs.any is

/-- R319: the partner copies a staged mirror into its arrays and answers the chunk's last transfer. -/
def State.commitMirror (s : State) (g : Image) (q : Staged) (transfer : Nat) : State :=
  let t := q.tag
  let bs := memReadAll s.ks.mem t.base t.bytes
  let key := shardKey q.domain t.coll t.region true
  let s1 :=
    if t.region then
      s.modShard key fun h => (List.range bs.length).foldl (fun h i => h.putAt 9 (t.chunk + i) (bs.getD i 0).toNat) h
    else
      let n := cLen g t.coll t.chunk
      let areas := areasOf (collProg g t.coll) false
      let len := ((areas.map fun (_, w) => w * n).foldl (· + ·) 0)
      let s1 := s.modShard key fun h =>
        { h.loadAreas t.chunk n areas bs with
          blockStep := if t.fresh then FMap.erase h.blockStep t.chunk else FMap.set h.blockStep t.chunk t.step
          fresh := if t.fresh && !h.fresh.contains t.chunk then h.fresh ++ [t.chunk] else if t.fresh then h.fresh else h.fresh.filter (· ≠ t.chunk)
          sealedOut := match t.sealed with
            | some st => FMap.set h.sealedOut t.chunk (st, bs.drop len)
            | none => FMap.erase h.sealedOut t.chunk }
      let x := s.dom q.domain
      let now := (x.lastTamp.map (·.1)).getD (imgStepFirst g)
      if homeOf x.moves g t.coll t.chunk now = s.ksId then s1.adopt q.domain t.coll t.chunk else s1
  s1.emit (.send .kresia (.node q.src) (.rwDone ⟨q.domain, q.epoch, transfer, 0⟩))

/-- R319: a transfer of a mirror has been applied: with every transfer of the mirror in the slot, the mirror commits;
the RW_DONE of a first transfer only returns its tracker. -/
def State.mirrorLanded (s : State) (x : Tracker) : State :=
  match x.mirror with
  | none => s
  | some t =>
    let same (q : Staged) : Bool := q.src = x.src && q.domain = x.domain && q.epoch = x.epoch && sameMirror q.tag t
    let q := (s.ks.staged.find? same).getD { src := x.src, domain := x.domain, epoch := x.epoch, tag := t, bytes := 0 }
    let q' := { q with bytes := q.bytes + x.declared, lastTransfer := if t.last then some x.transfer else q.lastTransfer }
    let rest := s.ks.staged.filter fun y => !(y.src = x.src && y.domain = x.domain && sameMirror y.tag t)
    let s1 := if t.last then s else s.emit (.send .kresia (.node x.src) (.rwDone ⟨x.domain, x.epoch, x.transfer, 0⟩))
    match q'.lastTransfer, (s.dom x.domain).prog with
    | some tr, some g =>
      if t.bytes ≤ q'.bytes then (s1.modKs fun k => { k with staged := rest }).commitMirror g q' tr
      else s1.modKs fun k => { k with staged := rest ++ [q'] }
    | _, _ => s1.modKs fun k => { k with staged := rest ++ [q'] }

/-! ### Regions (R326, R334) -/

def regAt (g : Image) (r : Nat) : Nat := (sec g 9).off + 64 * r
def rKind (g : Image) (r : Nat) : Nat := le g (regAt g r) 1
def rPerPos (g : Image) (r : Nat) : Bool := le g (regAt g r + 1) 1 % 2 = 1
def rMirrored (g : Image) (r : Nat) : Bool := le g (regAt g r + 1) 1 / 2 % 2 = 1
def rBytes (g : Image) (r : Nat) : Nat := le g (regAt g r + 4) 8
def rH (g : Image) (r : Nat) : Nat := max 1 (le g (regAt g r + 12) 4)
def rListOff (g : Image) (r : Nat) : Nat := le g (regAt g r + 16) 4
def rAddr (g : Image) (r : Nat) : Nat := le g (regAt g r + 20) 8
def rSlots (g : Image) (r : Nat) : Nat := le g (regAt g r + 28) 2
/-- An element of a region's list: a home, or a target position. -/
def rList (g : Image) (r j : Nat) : Nat := le g ((sec g 9).off + rListOff g r + 4 * j) 4 % 2 ^ 20
def rHome (moves : List Moved) (g : Image) (r j step : Nat) : Nat := movedHome moves 2 r j step (rList g r j % 2 ^ 17)

/-- R334: the bytes a Kresia holds of home-list element j for a receiving position, the n-th of the entry. -/
def State.regionPart (s : State) (d : Nat) (g : Image) (r j n : Nat) : List Byte :=
  let h := s.shard (shardKey d r true false)
  let part := rBytes g r / rH g r
  let off := (if rPerPos g r then n * rBytes g r else 0) + j * part
  (List.range part).map fun i => BitVec.ofNat 8 (FMap.getD (FMap.getD h.streams 9 []) (off + i) 0)

/-- R334: the transfers of a POUR entry from this Kresia to a position, the n-th of the entry. -/
def State.pourJobs (s : State) (d : Nat) (g : Image) (i step what pos n lobj : Nat) : List SendJob :=
  let r := entRef g i
  let x := s.dom d
  ((List.range (rH g r)).filter fun j => rHome x.moves g r j step = s.ksId).flatMap fun j =>
    let bs := s.regionPart d g r j n
    (cutMiB (bs.length / 1048576 + 2) 0 bs).map fun (off, b) =>
      { what := what, receiver := (x.pos pos).e.member, domain := d, cls := 5,
        addr := rAddr g r + j * (rBytes g r / rH g r) + off, sigObj := lobj, data := b, rec' := r, step := step, entry := i }

end Sys2Proof.Machine
end

