-- ==== Sys2Proof/Machine/Levels.lean ====
section
/-! DEFINITION. Layer records (R250, R261), the level events (R355), and the value an event shows (R354, R363). -/

namespace Sys2Proof.Machine

/-! ### Layers (R250) -/

def layAt (g : Image) (l : Nat) : Nat := (sec g 8).off + 128 * l
def layCount (g : Image) : Nat := (sec g 8).count
def lMode (g : Image) (l : Nat) : Nat := le g (layAt g l) 1
def lFmt (g : Image) (l : Nat) : Nat := le g (layAt g l + 1) 1
def lChoices (g : Image) (l : Nat) : Nat := le g (layAt g l + 2) 1
def lWeightMode (g : Image) (l : Nat) : Nat := le g (layAt g l + 3) 1
def lExperts (g : Image) (l : Nat) : Nat := le g (layAt g l + 4) 4
def lToks (g : Image) (l : Nat) : Nat := le g (layAt g l + 8) 4
def lCapOff (g : Image) (l : Nat) : Nat := le g (layAt g l + 16) 4
def lCap (g : Image) (l e : Nat) : Nat :=
  if lCapOff g l = 0 then le g (layAt g l + 12) 4 else le g ((sec g 8).off + lCapOff g l + 4 * e) 4
def lSetFirst (g : Image) (l : Nat) : Nat := le g (layAt g l + 20) 4 % 2 ^ 20
def lSetCount (g : Image) (l : Nat) : Nat := le g (layAt g l + 24) 4
def lGroups (g : Image) (l : Nat) : Nat := max 1 (le g (layAt g l + 28) 4)
def lExpFirst (g : Image) (l : Nat) : Nat := le g (layAt g l + 36) 4 % 2 ^ 20
def lExpPer (g : Image) (l : Nat) : Nat := max 1 (le g (layAt g l + 40) 4)
def lPayload (g : Image) (l : Nat) : Nat := le g (layAt g l + 44) 4
def lRet (g : Image) (l : Nat) : Nat := le g (layAt g l + 48) 4
def lPlanLobj (g : Image) (l : Nat) : Nat := le g (layAt g l + 52) 2
def lRecvLobj (g : Image) (l : Nat) : Nat := le g (layAt g l + 54) 2
def lRetLobj (g : Image) (l : Nat) : Nat := le g (layAt g l + 56) 2
def lPlane (g : Image) (l : Nat) : Nat := le g (layAt g l + 58) 1
def lTokAddr (g : Image) (l : Nat) : Nat := le g (layAt g l + 64) 8
def lSrcAddr (g : Image) (l : Nat) : Nat := le g (layAt g l + 72) 8
def lPlanAddr (g : Image) (l : Nat) : Nat := le g (layAt g l + 80) 8
def lRecvAddr (g : Image) (l : Nat) : Nat := le g (layAt g l + 88) 8
def lRetAddr (g : Image) (l : Nat) : Nat := le g (layAt g l + 96) 8
def lHome (moves : List Moved) (g : Image) (l grp step : Nat) : Nat :=
  movedHome moves 1 l grp step (le g ((sec g 8).off + le g (layAt g l + 32) 4 + 4 * grp) 4 % 2 ^ 17)
/-- Positions of a group. -/
def lPer (g : Image) (l : Nat) : Nat := lSetCount g l / lGroups g l
def lGroupOf (g : Image) (l pos : Nat) : Nat := (pos - lSetFirst g l) / max 1 (lPer g l)
def lInSet (g : Image) (l pos : Nat) : Bool := lSetFirst g l ≤ pos && pos < lSetFirst g l + lSetCount g l
def lGroupPos (g : Image) (l grp : Nat) : List Nat := (List.range (lPer g l)).map fun i => lSetFirst g l + grp * lPer g l + i
/-- C*: the largest capacity. -/
def lCapMax (g : Image) (l : Nat) : Nat :=
  if lCapOff g l = 0 then lCap g l 0 else ((List.range (lExperts g l)).map (lCap g l)).foldl max 0
/-- Hosting positions: those an expert lives at. -/
def lHosts (g : Image) (l : Nat) : List Nat :=
  (List.range ((lExperts g l + lExpPer g l - 1) / lExpPer g l)).map (lExpFirst g l + ·)

/-- R265: token-table entries a program reserves at this Kresia. -/
def State.tokensReserved (s : State) (x : Domain) (g : Image) : Nat :=
  ((List.range (layCount g)).map fun l =>
    (((List.range (lGroups g l)).filter fun grp => lHome x.moves g l grp x.step = s.ksId).length * lPer g l * lToks g l) +
    (if s.isSpine || !(x.groups.contains (leafGroup s.ksId)) then 0 else 128 * lToks g l)).foldl (· + ·) 0

/-! ### Levels (R355) -/

/-- R99: the armed records in use at this Kresia: those whose launch has not fired at DUE. -/
def State.armedUsed (s : State) : Nat :=
  (s.ks.doms.map fun (_, x) => (x.recs.filter fun r => 0 < otDiff r.due (s.otNow .kresia)).length).foldl (· + ·) 0

/-- Sums over a list. -/
def sumBy {α : Type} (l : List α) (f : α → Nat) : Nat := (l.map f).foldl (· + ·) 0

/-- The levels of a Baxel, by event, of a port and a tenant. -/
def State.bxLevel (s : State) (ev port t : Nat) : Option Nat :=
  if ev = 0x14E then some (sumBy s.bx.objs fun (_, o) => o.waiters.length)
  else if ev = 0x14F then some s.bx.trackers.length
  else if ev = 0x4CC then some (s.bx.parts.filter fun (_, x) => x.tenant = t && x.sent).length
  else if ev = 0x190 then some (s.lp .baxel port).replayUsed
  else if 0x1801 ≤ ev && ev < 0x1801 + 0x40 * 4 && (ev - 0x1801) % 0x40 = 0 then
    some (FMap.getD s.bx.c.stamp.chans ((ev - 0x1801) / 0x40) {}).queue.length
  else none

/-- The levels of a Kresia, by event, of a port. -/
def State.ksLevel (s : State) (ev port : Nat) : Option Nat :=
  if ev = 0x4040 then some s.armedUsed
  else if ev = 0x10020 then some s.feltUsed
  else if ev = 0x14000 then some s.chunksOpen
  else if ev = 0x14002 then some (sumBy s.ks.chunks fun (_, e) => e.parts.length)
  else if ev = 0x18001 then some (s.ks.blockQ.filter fun j => !j.running).length
  else if ev = 0x1C000 then
    some (sumBy s.ks.doms fun (_, x) => match x.prog with
      | some g => s.tokensReserved x g
      | none => 0)
  else if 0x20013 ≤ ev && ev ≤ 0x20013 + 12 && (ev - 0x20013) % 2 = 0 then
    some (FMap.getD (s.lp .kresia port).held ((ev - 0x20013) / 2) 0)
  else if ev = 0x2400C then some s.ks.c.link.ledger.held
  else if ev = 0x2C00A then some s.ks.events.length
  else if ev = 0x2C010 then some (s.ks.staged.map fun q => q.tag.base).eraseDups.length
  else none

def State.level (s : State) (p : Part) (ev port t : Nat) : Option Nat :=
  match p with
  | .baxel => s.bxLevel ev port t
  | .kresia => s.ksLevel ev port

/-- R355: the level events of a part with the width of the field. -/
def levelBits (p : Part) (ev : Nat) : Option Nat :=
  match p with
  | .baxel =>
    if ev = 0x14E then some 12 else if ev = 0x14F then some 14 else if ev = 0x4CC then some 14
    else if ev = 0x190 then some 25
    else if 0x1801 ≤ ev && ev < 0x1801 + 0x40 * 4 && (ev - 0x1801) % 0x40 = 0 then some 10 else none
  | .kresia =>
    if ev = 0x4040 then some 11 else if ev = 0x10020 then some 23 else if ev = 0x14000 then some 15
    else if ev = 0x14002 then some 18 else if ev = 0x18001 then some 15 else if ev = 0x1C000 then some 21
    else if 0x20013 ≤ ev && ev ≤ 0x20013 + 12 && (ev - 0x20013) % 2 = 0 then some 16
    else if ev = 0x2400C then some 21 else if ev = 0x2C00A then some 13 else if ev = 0x2C010 then some 11 else none

/-! ### Event numbers (R354) -/

/-- R354: the address of an event's word at port 0 and tenant 0. -/
def evBase : Part → Nat → Nat
  | .baxel, ev => 4 * ev
  | .kresia, ev => if 0xE0000 ≤ ev then 4 * (ev - 0xE0000) else 0x100000 + 4 * ev

/-- R354: whether a word repeats per port: the blocks of R291, R309 and R65. -/
def perPort (p : Part) (a : Nat) : Bool :=
  match p with
  | .baxel => (0x200 ≤ a && a < 0x220) || (0x600 ≤ a && a < 0x680) || (0xB00 ≤ a && a < 0xBA0)
  | .kresia => (0x101000 ≤ a && a < 0x101020) || (0x180000 ≤ a && a < 0x180100) || (0x1A0000 ≤ a && a < 0x1A0100)

/-- R309: whether a word is shown under CLS_SEL. -/
def perClass (p : Part) (a : Nat) : Bool := a = gtBlock p 0 0x60 || a = gtBlock p 0 0x7C

/-- R119, R172, R353: the counters shown under a domain selector. -/
def domCounters : List Nat :=
  [0x110018, 0x110104, 0x110108, 0x11010C, 0x110110, 0x130050, 0x130054, 0x130058, 0x13005C, 0x130060, 0x130064, 0x1C0114]

/-- Words a to b, inclusive. -/
def inWords (a b x : Nat) : Bool := a ≤ x && x ≤ b

/-- R354: the words that hold fixed counters, at port 0 and tenant 0. -/
def isCounter (p : Part) (a : Nat) : Bool :=
  let lk := lkAddr p 0 0
  let gt := gtBlock p 0 0
  let t := tAddr p 0
  a % 4 = 0 &&
  ([t + 0x134, t + 0x138, t + 0x13C, t + 0x318, t + 0x6A04, ttPort p 0 0x1C].contains a ||
   inWords (lk + 0x08) (lk + 0x3C) a || [gt + 0x44, gt + 0x48, gt + 0x4C, gt + 0x60, gt + 0x7C].contains a ||
   [0x08, 0x10, 0x18, 0x20, 0x28].any (fun o => a = ledgerBase p + o) ||
   (List.range 8).any (fun n => (p = .kresia || n < 4) &&
     inWords (t + 0x6000 + 0x100 * n + 0x08) (t + 0x6000 + 0x100 * n + 0x14) a) ||
   [0, 1].any (fun g => (p = .kresia || g = 0) && a = t + 0x6800 + 0x40 * g + 0x1C) ||
   match p with
   | .baxel =>
     [0x28, 0x438, 0x43C, 0x8210, 0x8408, 0x840C, 0x1250].contains a || inWords 0x1100 0x1128 a ||
     inWords 0x1230 0x1248 a || inWords 0x1320 0x132C a || inWords 0x1390 0x139C a
   | .kresia =>
     domCounters.contains a || [0x18, 0x1C, 0x20, 0x140000, 0x140008, 0x140010, 0x140018, 0x14001C, 0x140020, 0x140088,
       0x160010, 0x1B0000, 0x1B0004, 0x1B0008, 0x1B002C, 0x1B0030, 0x1C0000, 0x1D2010, 0x1D300C, 0x1D3010].contains a ||
     inWords 0x120080 0x120090 a || inWords 0x140028 0x140048 a || inWords 0x150010 0x15003C a ||
     inWords 0x160018 0x160038 a || inWords 0x170008 0x170030 a || inWords 0x1B0044 0x1B0058 a || inWords 0x1C0008 0x1C0018 a)

/-- R354: whether a number is a counter event. -/
def isCounterEvent (p : Part) (ev : Nat) : Bool := isCounter p (evBase p ev) && evNum p (evBase p ev) = ev

/-- R360: the latency events, with the filters each allows: port, domain, class. -/
def latency (p : Part) (ev : Nat) : Option (Bool × Bool × Bool) :=
  match p with
  | .baxel => if ev = 0xF0102 || ev = 0xF0103 then some (true, false, false)
    else if 0xF0100 ≤ ev && ev ≤ 0xF0104 then some (false, false, false) else none
  | .kresia => if ev = 0xF0183 then some (true, false, true) else if ev = 0xF0184 then some (false, true, true)
    else if 0xF0180 ≤ ev && ev ≤ 0xF0187 then some (false, true, false) else none

/-- R357: why a part refuses a selector or a counter's configuration: an event under a mode with its filters. -/
def ctrCode (p : Part) (ev mode : Nat) (portEn domEn clsEn : Bool) (thresh : Nat) : Option Code :=
  let a := evBase p ev
  let lev := levelBits p ev
  let lat := 0xF0100 ≤ ev && ev ≤ 0xF01FF
  if !isCounterEvent p ev && lev.isNone && !lat then some 0x2040
  else if mode = 1 && !isCounterEvent p ev then some 0x2040
  else if 2 ≤ mode && lev.isNone then some 0x2040
  else if portEn && !perPort p a then some 0x2040
  else if domEn && !(p = .kresia && domCounters.contains a) then some 0x2040
  else if clsEn && !perClass p a then some 0x2040
  else match lev with
    | some b => if 2 ^ b ≤ thresh then some 0x2040 else none
    | none => none

/-- R357, R361: a selector that a snapshot or `ctr.read` names: a counter or a level, with its filters. -/
def selCode (q : Selector) : Option Code :=
  if q.portEn && (if q.part = .baxel then 8 else 192) ≤ q.port then some 0x2040
  else match levelBits q.part q.event with
  | some _ => ctrCode q.part q.event 0 q.portEn false q.clsEn 0
  | none => ctrCode q.part q.event 1 q.portEn false q.clsEn 0

/-! ### The value of an event -/

/-- The 64-bit counters of a Kresia, by the address of their low word. -/
def wideCounters : List Nat := [0x140000, 0x140008, 0x140010, 0x140020, 0x160010, 0x1C0000]

/-- R354: the address of a word from its event number, at a port or tenant. -/
def evAddr (p : Part) (ev port t : Nat) : Nat :=
  let a := evBase p ev
  if perPort p a then
    match p with
    | .baxel => if a < 0x300 then a + 32 * port else if a < 0xB00 then a + 0x80 * port else a + 0xA0 * port
    | .kresia => if a < 0x110000 then a + 32 * port else a + 0x100 * port
  else if p = .baxel && 0x1000 ≤ a && a < 0x2000 then a + 0x1000 * t
  else a

/-- R354, R363: the value an event shows, of a port, tenant, domain and class. -/
def State.eventValue (s : State) (p : Part) (ev port t d : Nat) (c : Nat := 0) : Nat :=
  match s.level p ev port t with
  | some v => v
  | none =>
    let a := evAddr p ev port t
    let base := evBase p ev
    let led (o : Nat) : Bool := a = ledgerBase p + o
    let l := (s.pc p).link.ledger
    let key (k : Nat) : Nat := (FMap.getD (s.pc p).domRegs (k * 2 ^ 24 + a) (resetWord p a)).toNat
    if p = .kresia && domCounters.contains base then key d
    else if base = gtBlock p 0 0x60 then key c
    else if base = gtBlock p 0 0x7C then (FMap.getD (s.gp p port).results c {}).lost
    else if led 0x08 then l.inn else if led 0x10 then l.replicated else if led 0x18 then l.out
    else if led 0x20 then l.consumed else if led 0x28 then l.flushed
    else if p = .kresia && wideCounters.contains a then (s.rd p a).toNat + 2 ^ 32 * (s.rd p (a + 4)).toNat
    else (s.rd p a).toNat

/-- R358: whether an event's word stands in a tenant page. -/
def tenantEvent (ev : Nat) : Bool := 0x1000 ≤ 4 * ev && 4 * ev < 0x2000

/-- R357, R358, R363: what a selector shows: of its port and class where it names them, else summed over them; of one tenant,
or of all; of one domain, or, for the operator, of all. -/
def State.selValue (s : State) (q : Selector) (tens : List Nat) (d : Nat) : Nat :=
  let base := evBase q.part q.event
  let ports := if perPort q.part base && !q.portEn then List.range (portCount q.part) else [q.port]
  let ts := if tenantEvent q.event && q.part = .baxel then tens else [0]
  let classes := if perClass q.part base && !q.clsEn then List.range 7 else [q.cls]
  let doms := if d = 0xFFFF && q.part = .kresia && domCounters.contains base then s.ks.doms.map (·.1) else [d]
  sumBy ports fun n => sumBy ts fun t => sumBy classes fun c => sumBy doms fun e => s.eventValue q.part q.event n t e c

/-- R445: the ports of a part: 8; a leaf's 192, a spine's 128. -/
def State.portsOf (s : State) (p : Part) : Nat :=
  match p with
  | .baxel => 8
  | .kresia => if s.isSpine then 128 else 192

/-- R356: the level a counter in mode 2 or 3 watches: of its port and tenant, or summed over them where it names none. -/
def State.levelOf (s : State) (p : Part) (bank : Nat) (c : Ctr) : Nat :=
  let one (port t : Nat) : Nat := (s.level p c.event port t).getD 0
  let ports := if perPort p (evBase p c.event) && !c.portEn then List.range (portCount p) else [c.port]
  let tens := if p = .kresia then [0] else if bank ≠ 0 then [bank - 1]
    else if c.event = 0x4CC && !c.tenEn then [0, 1, 2, 3] else [c.ten]
  sumBy ports fun n => sumBy tens fun t => one n t

end Sys2Proof.Machine
end

