-- ==== Sys2Proof/Machine/SnapCore.lean ====
section
/-! DEFINITION. Snapshots: arming, capturing and storing (R361 to R365). -/

namespace Sys2Proof.Machine

/-- R361: the selectors of a record of COUNTER_SETS for one part. -/
def selsOf (g : Image) (set : Nat) (p : Part) : List Selector :=
  let o := (sec g 11).off + 256 * set
  ((List.range (le g o 2)).map fun i =>
    let v := le g (o + 16 + 8 * i) 8
    ({ event := v % 2 ^ 20, part := if v / 2 ^ 20 % 2 = 1 then .kresia else .baxel, port := v / 2 ^ 21 % 2 ^ 8,
       portEn := v / 2 ^ 29 % 2 = 1, cls := v / 2 ^ 30 % 8, clsEn := v / 2 ^ 33 % 2 = 1 } : Selector)).filter fun x => x.part = p

/-- R364: the records a store holds. -/
def snapCap (p : Part) : Nat := match p with
  | .baxel => 4
  | .kresia => 16

/-- R364: the store of an arm: a Baxel's by tenant, a Kresia's by domain; the operator's. -/
def snapKey (p : Part) (a : SnapArm) : Nat :=
  match p with
  | .baxel => if a.domain = 0xFFFF then 4 else a.tenant
  | .kresia => a.domain

def State.countSnap (s : State) (p : Part) (bx ks : Nat) : State :=
  match p with
  | .baxel => s.count (evB bx)
  | .kresia => s.count (evK ks)

/-- R363, R364: a capture, at an edge. -/
def State.capture (s : State) (p : Part) (a : SnapArm) (edge : Raw) (late : Bool) : State :=
  let key := snapKey p a
  let st := FMap.getD (s.pc p).ctr.stores key {}
  let s0 := if late then s.countSnap p 0x8408 0x1D300C else s
  if snapCap p ≤ st.recs.length then
    (s0.countSnap p 0x840C 0x1D3010).modCtr p fun u => { u with stores := FMap.update u.stores key {} fun x => { x with lost := x.lost + 1 } }
  else
    let r : SnapRec :=
      { domain := a.domain, set := a.set, step := a.step, late := late, operator := a.domain = 0xFFFF, epoch := a.epoch,
        t := a.due.ot, raw := edge, snapSeq := st.nextSeq + 1, lost := st.lost, node := s.node p
        values := a.sels.map fun q => BitVec.ofNat 64 (s.selValue q (if a.domain = 0xFFFF then [0, 1, 2, 3] else [a.tenant]) a.domain) }
    let s1 := s0.modCtr p fun u => { u with stores := FMap.update u.stores key {} fun x =>
      { x with recs := x.recs ++ [r], nextSeq := x.nextSeq + 1, lost := 0 } }
    match p with
    | .baxel => s1
    | .kresia => s1.report .kresia 0x0012 [a.domain, st.nextSeq + 1] (domain := some a.domain)

/-- R40, R362: a SNAP taken, once: its tick is a pending due time; a copy at or after T, or in UNSET, captures at once. A T that
is malformed or more than 86,400 s ahead is refused with its code. -/
def State.takeSnap (s : State) (p : Part) (x : SnapMsg) (sels : List Selector) (tenant : Nat) : State :=
  let id := (x.domain, x.epoch, x.step, x.set)
  if (s.pc p).ctr.snapSeen.contains id then s
  else
    let u := (s.pc p).time
    let a : SnapArm := { domain := x.domain, epoch := x.epoch, step := x.step, set := x.set, due := u.mkDue x.t, sels := sels,
                         tenant := tenant }
    let s1 := s.modCtr p fun c => { c with snapSeen := c.snapSeen ++ [id] }
    if x.t.malformed then s1.emit (.refused p 0x1003)
    else if u.state = .unset || 0 ≤ otDiff u.now x.t then s1.capture p a u.raw true
    else if u.dueCode x.t = some 0x1001 then s1.emit (.refused p 0x1001)
    else s1.modCtr p fun c => { c with snapArms := c.snapArms ++ [a] }

end Sys2Proof.Machine
end

