-- ==== Sys2Proof/Machine/DspCore.lean ====
section
/-! DEFINITION. Conditional dispatch at a Kresia: token records and top-k (R252, R254, R256), the assignment and the plan
(R257 to R262), payloads (R263), restarts (R266). -/

namespace Sys2Proof.Machine

/-! ### Token records (R252, R254) -/

/-- R254: the choices of a choice-mode record, in rank order; none where the record is malformed. -/
def choiceRecord (g : Image) (l index : Nat) (bs : List Byte) : Option (List (Nat × Nat)) :=
  let n := le bs 5 1 % 16
  let choice (j : Nat) : Nat × Nat := (le bs (8 + 6 * j) 2, le bs (10 + 6 * j) 4)
  if le bs 0 5 ≠ index || le bs 5 1 / 16 ≠ 0 || le bs 6 2 ≠ 0 || le bs 56 8 ≠ 0 || lChoices g l < n || 8 < n then none
  else if ((List.range 8).drop n).any fun j => choice j ≠ (0, 0) then none
  else
    let c := (List.range n).map choice
    if c.all fun (e, _) => e < lExperts g l then some c else none

/-- R254: whether logit a of expert x stands before logit b of expert y. -/
def logitBefore (a : Nat × Nat) (b : Nat × Nat) : Bool :=
  FVal.lt false (b32.decode b.2) (b32.decode a.2) ||
  (!FVal.lt false (b32.decode a.2) (b32.decode b.2) && a.1 < b.1)

def insertLogit (x : Nat × Nat) : List (Nat × Nat) → List (Nat × Nat)
  | [] => [x]
  | y :: t => if logitBefore x y then x :: y :: t else y :: insertLogit x t

/-- R256: the softmax weights over the kept logits. -/
def softmax (ls : List Nat) : List Nat :=
  let l1 := ls.head?.getD 0
  let es := ls.map fun l => exp2r32 (b32.mul (b32.add l (negate true l1)).1 0x3FB8AA3B).1
  match es with
  | [] => []
  | e1 :: t =>
    let sum := t.foldl (fun a e => (b32.add a e).1) e1
    es.map fun e => (b32.div e sum).1

/-- R254, R256: top-k of a logit-mode record; none where the record is malformed. -/
def logitRecord (g : Image) (l index : Nat) (bs : List Byte) : Option (List (Nat × Nat)) :=
  if le bs 0 5 ≠ index || ((bs.drop 5).take 59).any (· ≠ 0) then none
  else
    let w := if lFmt g l = 1 then 4 else 2
    let logits := (List.range (lExperts g l)).map fun e =>
      (e, (streamFmt (if lFmt g l = 1 then 0 else 1)).widen (le bs (64 + w * e) w))
    let order := (logits.filter fun (_, v) => b32.decode v ≠ .nan).foldl (fun acc x => insertLogit x acc) []
    let top := order.take (lChoices g l)
    some (if lWeightMode g l = 1 then (top.map (·.1)).zip (softmax (top.map (·.2))) else top)

/-- Bytes of one token record (R252). -/
def recordBytes (g : Image) (l : Nat) : Nat :=
  if lMode g l = 0 then 64
  else 64 + (lExperts g l * (if lFmt g l = 1 then 4 else 2) + 63) / 64 * 64

/-! ### The assignment (R258, R259) -/

structure Assign where
  fill : FMap Nat := []
  places : List Place := []
  dropped : FMap Nat := []
  dup : Nat := 0
  overlaid : Nat := 0
  deriving DecidableEq, Repr

/-- The placements a token holds. -/
def Assign.of (a : Assign) (t : Nat) : List Place := a.places.filter fun p => p.token = t

/-- R258: one choice of one token in round r (from 0). -/
def Assign.try' (a : Assign) (cap : Nat → Nat) (topk policy r t : Nat) (cs : List (Nat × Nat)) : Assign :=
  if cs.length ≤ r || (a.of t).length = topk || (policy < 2 && topk ≤ r) then a
  else
    let e := (cs.getD r (0, 0)).1
    if (cs.take r).any fun (q, _) => q = e then { a with dup := a.dup + 1 }
    else
      let f := FMap.getD a.fill e 0
      if f < cap e then { a with fill := FMap.set a.fill e (f + 1), places := a.places ++ [⟨t, r, e, f⟩] }
      else { a with dropped := FMap.update a.dropped t 0 (· + 1), overlaid := a.overlaid + 1 }

/-- R258: every rank-r choice, in ascending INDEX, before any of the next rank. -/
def assignAll (cap : Nat → Nat) (choices topk policy : Nat) (toks : FMap (List (Nat × Nat))) : Assign :=
  (List.range choices).foldl (fun a r => toks.foldl (fun (a : Assign) (q : Nat × List (Nat × Nat)) =>
    a.try' cap topk policy r q.1 q.2) a) {}

/-- R259: the weights of a token's placements after renormalisation, in rank order, and whether it was skipped. -/
def renorm (policy topk : Nat) (cs : List (Nat × Nat)) (ps : List Place) (dropped : Nat) : List Nat × Bool :=
  let ws := ps.map fun p => (cs.getD p.rank (0, 0)).2
  if policy ≠ 1 || ps.isEmpty || dropped = 0 then (ws, false)
  else
    let sum (l : List Nat) : Nat := match l with
      | [] => 0
      | w :: t => t.foldl (fun a x => (b32.add a x).1) w
    let q := (b32.div (sum ((cs.take topk).map (·.2))) (sum ws)).1
    match b32.decode q with
    | .fin _ m _ => if m = 0 then (ws, true) else (ws.map fun w => (b32.mul w q).1, false)
    | _ => (ws, true)

/-! ### The plan (R261) -/

/-- R261: one source-plan entry. -/
def planEntry (index : Nat) (ps : List Place) (ws : List Nat) (dropped : Nat) : List Byte :=
  let body := (ps.zip ws).flatMap fun (p, w) => leBytes 4 (p.expert + p.rank * 2 ^ 16) ++ leBytes 4 w
  let bs := leBytes 5 index ++ leBytes 1 (ps.length % 16 + 16 * (dropped % 16)) ++ leBytes 2 0 ++ body
  bs ++ List.replicate (128 - bs.length) 0

def ceil64 (n : Nat) : Nat := (n + 63) / 64 * 64

/-- R261: HB. -/
def hostBlockBytes (g : Image) (l : Nat) : Nat := ceil64 (4 * lExpPer g l) + ceil64 (8 * lExpPer g l * lCapMax g l)

/-- R261: the host block of a position for one group. -/
def hostBlock (g : Image) (l pos : Nat) (a : Assign) : List Byte :=
  let e0 := (pos - lExpFirst g l) * lExpPer g l
  let counts := (List.range (lExpPer g l)).flatMap fun j => leBytes 4 (FMap.getD a.fill (e0 + j) 0)
  let head := counts ++ List.replicate (ceil64 (4 * lExpPer g l) - counts.length) 0
  let slots := (List.range (lExpPer g l)).flatMap fun j => (List.range (lCapMax g l)).flatMap fun sl =>
    match a.places.find? fun p => p.expert = e0 + j && p.slot = sl with
    | some p => leBytes 8 (p.token + p.rank * 2 ^ 40)
    | none => leBytes 8 0
  head ++ slots ++ List.replicate (ceil64 (8 * lExpPer g l * lCapMax g l) - slots.length) 0

/-! ### State of a layer -/

/-- The DISPATCH entry of a layer. -/
def dspEntry (g : Image) (l : Nat) : Option Nat := entryFor g 5 l

def DspLeaf.isFor (x : DspLeaf) (d l step : Nat) : Bool := x.domain = d && x.layer = l && x.step = step
def DspHome.isFor (x : DspHome) (d l grp step : Nat) : Bool := x.domain = d && x.layer = l && x.group = grp && x.step = step

def State.dspLeaf (s : State) (d l step : Nat) : Option DspLeaf := s.ks.dspLeaves.find? fun x => x.isFor d l step
def State.dspHome (s : State) (d l grp step : Nat) : Option DspHome := s.ks.dspHomes.find? fun x => x.isFor d l grp step
def State.modDspLeaf (s : State) (d l step : Nat) (f : DspLeaf → DspLeaf) : State :=
  s.modKs fun k => { k with dspLeaves := k.dspLeaves.map fun x => if x.isFor d l step then f x else x }
def State.modDspHome (s : State) (d l grp step : Nat) (f : DspHome → DspHome) : State :=
  s.modKs fun k => { k with dspHomes := k.dspHomes.map fun x => if x.isFor d l grp step then f x else x }

/-- R268: the high-water mark of the token table: tokens held by collections not yet routed, and by leaves. -/
def State.tokenUse (s : State) : Nat :=
  sumBy (s.ks.dspHomes.filter fun h => h.state < 4) (fun h => h.tokens.length) + sumBy s.ks.dspLeaves fun x => sumBy x.posts fun (_, r) => r.got
def State.markTokens (s : State) : State := s.setFld .kresia 0x170004 0 21 (max (s.fld .kresia 0x170004 0 21) s.tokenUse)

/-- R252, R253, R266: a stale message of dispatch. -/
def State.dspStale (s : State) : State := s.count (evK 0x170030)

/-- R254: a post found malformed. -/
def State.dspBad (s : State) (d member step : Nat) (detail : Nat) : State :=
  (s.emit (.send .kresia (.crown d) (.ctl
    { kind := .tenantFault, domain := d, epoch := (s.dom d).epoch, step := step, member := member, fromKresia := true,
      status := 0x6003 }))).report .kresia 0x6003 [detail] (subject := some member) (domain := some d)

/-- A leaf's state of a layer, opened when absent. -/
def State.openDspLeaf (s : State) (d l step entry : Nat) : State :=
  if (s.dspLeaf d l step).isSome then s
  else s.modKs fun k => { k with dspLeaves := k.dspLeaves ++
    [{ domain := d, layer := l, step := step, epoch := (s.dom d).epoch, entry := entry }] }

/-- R253, R255: the DISPATCH entry issues at a Kresia: a dispatch leaf of the layer's plane opens it to its members; one that has
lost the plane takes DSP_OPEN by the return route of R282. -/
def State.issueDsp (s : State) (d : Nat) (g : Image) (l step entry : Nat) : State :=
  let x := s.dom d
  let mine := (List.range x.positions.length).filter fun i => lInSet g l i && (x.pos i).e.group = leafGroup s.ksId
  if s.isSpine || ksPlane s.ksId ≠ lPlane g l || mine.isEmpty then s
  else (s.openDspLeaf d l step entry).sendMembers d (mine.map fun i => (x.pos i).e.member) l (.dspNote
    { kind := .opened, domain := d, epoch := x.epoch, step := step, layer := l })

/-! ### Placements at a leaf (R262, R263) -/

/-- R262: the placements of a group come: DSP_GO goes to the members of the group this leaf serves. -/
def State.takePlaces (s : State) (p : DspPlacements) : State :=
  let x := s.dom p.domain
  match s.dspLeaf p.domain p.layer p.step, x.imageFor p.step with
  | some lf, some g =>
    if p.epoch < x.epoch || lf.groups.contains p.group then s.dspStale
    else
      let who := lf.posts.filter fun (i, r) => lGroupOf g p.layer i = p.group && r.n.isSome
      ((s.modDspLeaf p.domain p.layer p.step fun y =>
        { y with groups := y.groups ++ [p.group], places := y.places ++ p.places })).emit
        (.send .kresia (.members (who.map fun (_, r) => r.member)) (.dspNote
          { kind := .go, domain := p.domain, epoch := x.epoch, step := p.step, layer := p.layer, group := p.group,
            restart := p.restart }))
  | _, _ => s.dspStale

/-- R255, R262: placements sent to a leaf, this Kresia included. -/
def State.sendPlaces (s : State) (leaf : Nat) (p : DspPlacements) : State :=
  let via := s.dspRoute (leaf - 2 ^ 20) s.ksId (leaf - 2 ^ 20)
  if leaf = 2 ^ 20 + s.ksId then s.takePlaces p else s.emit (.send .kresia via (.dspPlaces (routeCls via 4) p))

/-! ### The plan home (R257 to R262) -/

/-- R347: the PLAN terms of the placements. -/
def planTerms (l step : Nat) (a : Assign) (w : Place → Nat) : List (List Nat) :=
  a.places.flatMap fun p =>
    [cupTerm 4 step l (p.token % 2 ^ 32) (2 * p.rank) (p.token + p.expert * 2 ^ 40),
     cupTerm 4 step l (p.token % 2 ^ 32) (2 * p.rank + 1) (w p)]

/-- R258 to R262: the assignment of a complete collection: plans, placements, digests. -/
def State.assign (s : State) (h : DspHome) (g : Image) (i : Nat) : State :=
  let d := h.domain
  let l := h.layer
  let x := s.dom d
  let policy := entF g i 16 1
  let topk := entF g i 17 1
  let a := assignAll (lCap g l) (lChoices g l) topk policy h.tokens
  let norm (t : Nat) (cs : List (Nat × Nat)) : List Nat × Bool := renorm policy topk cs (a.of t) (FMap.getD a.dropped t 0)
  let weight (p : Place) : Nat :=
    let cs := FMap.getD h.tokens p.token []
    let ps := a.of p.token
    ((ps.zip (norm p.token cs).1).find? fun (q, _) => q = p).elim 0 (·.2)
  let skips := (h.tokens.filter fun (t, cs) => (norm t cs).2).length
  let source (pos : Nat) : List Byte := (List.range (lToks g l)).flatMap fun k =>
    let t := (pos - lSetFirst g l) * lToks g l + k
    match FMap.find? h.tokens t with
    | some cs => planEntry t (a.of t) (norm t cs).1 (FMap.getD a.dropped t 0)
    | none => List.replicate 128 0
  let job (pos addr : Nat) (bs : List Byte) : SendJob :=
    { what := 7, receiver := (x.pos pos).e.member, domain := d, cls := 4, addr := addr, sigObj := lPlanLobj g l,
      data := bs, rec' := l, chunk := h.group, step := h.step, entry := i }
  let jobs := ((lGroupPos g l h.group).map fun pos => job pos (lPlanAddr g l) (source pos)) ++
    (lHosts g l).map fun pos =>
      job pos (lPlanAddr g l + 128 * lToks g l + h.group * hostBlockBytes g l) (hostBlock g l pos a)
  let pieces := jobs.flatMap fun j => (cutMiB (j.data.length / 1048576 + 2) 0 j.data).map fun (off, bs) =>
    { j with addr := j.addr + off, data := bs }
  let leaves := (h.claims.map (·.2)).eraseDups
  let s1 := ((((s.count (evK 0x170008) h.tokens.length).count (evK 0x17000C) a.places.length).count (evK 0x170010) a.overlaid).count
    (evK 0x170014) a.dup).count (evK 0x170018) skips
  let s2 := (s1.cupAdd d h.step 4 (planTerms l h.step a weight)).modDspHome d l h.group h.step fun y =>
    { y with state := 3, fill := a.fill, open' := pieces.length }
  let s3 := pieces.foldl (fun s j => s.startJob j) s2
  let s4 := s3.sample .kresia 0xF0186 (Raw.diff (s.raw .kresia) h.lastEnd) (dom := some d)
  leaves.foldl (fun s lf =>
    let mine := (h.claims.filter fun (_, q) => q = lf).map (·.1)
    s.sendPlaces lf { domain := d, epoch := x.epoch, step := h.step, layer := l, group := h.group, restart := h.restart,
                      places := a.places.filter fun p => mine.contains (lSetFirst g l + p.token / max 1 (lToks g l)) }) s4

/-- R257, R265: a complete collection goes to the assignment engine, or queues for it. -/
def State.toEngine (s : State) (k : DspKey) : State :=
  let x := s.dom k.domain
  match s.ks.dspEngine with
  | some _ => s.modKs fun q => { q with dspQ := q.dspQ ++ [k] }
  | none => match x.imageFor k.step, s.dspHome k.domain k.layer k.group k.step with
    | some g, some h => match dspEntry g k.layer with
      | some i => (s.modKs fun q => { q with dspEngine := some k }).assign h g i
      | none => s
    | _, _ => s

/-- A collection of a group, opened when absent. -/
def State.openDspHome (s : State) (d l grp step : Nat) : State :=
  if (s.dspHome d l grp step).isSome then s
  else s.modKs fun k => { k with dspHomes := k.dspHomes ++
    [{ domain := d, layer := l, group := grp, step := step, epoch := (s.dom d).epoch }] }

/-- R257, R266: a list message at its plan home. A collection that begins again at a new home (R219) takes the RESTART of the
lists. -/
def State.takeList (s : State) (x : DspPacket) (g : Image) : State :=
  let d := x.domain
  let grp := lGroupOf g x.layer x.position
  let s0 := s.openDspHome d x.layer grp x.step
  match s0.dspHome d x.layer grp x.step with
  | none => s0
  | some h0 =>
    let h := if h0.restart < x.restart && h0.state = 1 then { h0 with restart := x.restart, claims := [], ends := [], tokens := [] } else h0
    let owner := FMap.getD h.claims x.position x.sender
    if x.restart < h.restart then s0.dspStale
    else if owner ≠ x.sender then (if x.phase = 1 then s0.count (evK 0x170020) else s0)
    else if h.state ≠ 1 then s0.dspStale
    else
      let h1 := { h with claims := FMap.set h.claims x.position x.sender }
      let h2 := if x.phase = 1 then { h1 with ends := FMap.set h1.ends x.position x.count, lastEnd := s0.raw .kresia }
        else { h1 with tokens := FMap.set h1.tokens x.token x.choices }
      let full := (lGroupPos g x.layer grp).all fun i => FMap.has h2.ends i
      let s1 := (s0.modDspHome d x.layer grp x.step fun _ => { h2 with state := if full then 2 else 1 }).markTokens
      if full then s1.toEngine ⟨d, x.layer, grp, x.step⟩ else s1

/-! ### The leaf (R253, R254, R263) -/

/-- R254, R255: a list message of a leaf to the plan home of its position. -/
def State.toPlanHome (s : State) (x : DspPacket) (g : Image) : State :=
  let h := lHome (s.dom x.domain).moves g x.layer (lGroupOf g x.layer x.position) x.step
  let y := { x with sender := 2 ^ 20 + s.ksId, data := [] }
  let via := s.dspRoute s.ksId h h
  if h = s.ksId then s.takeList y g else s.emit (.send .kresia via (.dsp (routeCls via 4) y))

/-- R254: a record or END of a member at its dispatch leaf. -/
def State.takeRecord (s : State) (x : DspPacket) (g : Image) : State :=
  let d := x.domain
  let dom := s.dom d
  let l := x.layer
  let pos := dom.posOf x.sender
  if layCount g ≤ l then s.dspBad d x.sender x.step l
  else match pos with
    | none => s.dspBad d x.sender x.step l
    | some i =>
      if !lInSet g l i then s.dspBad d x.sender x.step l
      else
        let s0 := s.openDspLeaf d l x.step ((dspEntry g l).getD 0)
        match s0.dspLeaf d l x.step with
        | none => s0
        | some lf =>
          let r0 := FMap.getD lf.posts i { member := x.sender }
          if x.restart < r0.restart then s0.dspStale
          else
            let r := if r0.restart < x.restart then { member := x.sender, restart := x.restart } else r0
            let put (s : State) (r : DspRecv) : State :=
              s.modDspLeaf d l x.step fun y => { y with posts := FMap.set y.posts i r }
            if r.bad then put s0 r
            else
              let index := (i - lSetFirst g l) * lToks g l + r.got
              if x.phase = 1 then
                if x.count ≠ r.got then (put s0 { r with bad := true }).dspBad d x.sender x.step index
                else (put s0 { r with n := some x.count }).toPlanHome { x with position := i } g
              else
                let cs := if lMode g l = 0 then choiceRecord g l index x.data else logitRecord g l index x.data
                match cs with
                | none => (put s0 { r with bad := true }).dspBad d x.sender x.step index
                | some c =>
                  let nans := (c.filter fun (_, w) => lMode g l = 1 && lWeightMode g l = 1 && b32.decode w = .nan).length
                  (((put s0 { r with got := r.got + 1 }).count (evK 0x17001C) nans).markTokens).toPlanHome
                    { x with position := i, token := index, choices := c } g

/-- R263: where a placement's slot lies at its host. -/
def recvAddr (g : Image) (l grp : Nat) (p : Place) : Nat :=
  let j := p.expert % lExpPer g l
  lRecvAddr g l + ((j * lGroups g l + grp) * lCapMax g l + p.slot) * lPayload g l

/-- R263: a payload at its dispatch leaf: replicated once per placement, or discarded as unplaced. -/
def State.takePayload (s : State) (x : DspPacket) (g : Image) (i : Nat) : State :=
  let l := x.layer
  let t := (i - lSetFirst g l) * lToks g l + x.token
  match s.dspLeaf x.domain l x.step with
  | none => s.dspStale
  | some lf =>
    let ps := lf.places.filter fun p => p.token = t
    let dom := s.dom x.domain
    let s1 := s.modDspLeaf x.domain l x.step fun y =>
      { y with
        posts := FMap.update y.posts i { member := x.sender } fun r => { r with routed := r.routed + 1 }
        open' := y.open' + ps.length }
    if ps.isEmpty then s1.count (evK 0x170024)
    else (ps.foldl (fun s p => s.startJob
      { what := 8, receiver := (dom.pos (lExpFirst g l + p.expert / lExpPer g l)).e.member, domain := x.domain, cls := 4,
        addr := recvAddr g l (lGroupOf g l i) p, sigObj := lRecvLobj g l, data := x.data, rec' := l, step := x.step,
        entry := lf.entry }) s1).count (evK 0x170028) ps.length

/-! ### Restarts (R266) -/

/-- R266: a member lost its dispatch leaf: the collection starts again under a new RESTART; after DSP_GO the path is
lost. -/
def State.dspLost (s : State) (d l grp step : Nat) (g : Image) : State :=
  match s.dspHome d l grp step with
  | none => s
  | some h =>
    if 3 ≤ h.state then s.ksTenantFault d 0x6005 (some step)
    else if h.restart = 15 then s.ksTenantFault d 0x6004 (some step)
    else
      let x := s.dom d
      let s1 := ((s.modDspHome d l grp step fun y =>
        { y with restart := y.restart + 1, state := 1, claims := [], ends := [], tokens := [] }).count (evK 0x17002C)).modKs
          fun k => { k with dspQ := k.dspQ.filter fun q => q ≠ ⟨d, l, grp, step⟩ }
      s1.sendMembers d (x.membersAt (lGroupPos g l grp)) l (.dspNote
        { kind := .restart, domain := d, epoch := x.epoch, step := step, layer := l, group := grp, restart := h.restart + 1 })

/-- R266: DSP_LOST of a member, at the plan home of its group; a leaf passes it on, over the tie into another plane (R255). -/
def State.takeLost (s : State) (n : DspNote) (g : Image) : State :=
  let h := lHome (s.dom n.domain).moves g n.layer n.group n.step
  if h ≠ s.ksId then s.emit (.send .kresia (s.dspRoute s.ksId h h) (.dspNote n))
  else
    let s1 := s.openDspHome n.domain n.layer n.group n.step
    if (s1.dspHome n.domain n.layer n.group n.step).any fun y => n.restart < y.restart then s1.dspStale
    else s1.dspLost n.domain n.layer n.group n.step g

/-- R266: a dispatch leaf is lost: each plan home whose plan went out to it in an open instance finds the path lost. -/
def State.dspLeafGone (s : State) (leaf : Nat) : State :=
  (s.ks.dspHomes.filter fun h => h.state = 3 && h.claims.any fun q => q.2 = leaf).foldl (fun (s : State) (h : DspHome) =>
    if ((s.dom h.domain).insts.any fun n => n.step = h.step) then s.ksTenantFault h.domain 0x6005 (some h.step) else s) s

/-- R267: a Baxel 2.x has lost this plane, its dispatch plane: as on a lost path, in each open instance with a layer of this plane
that it sends to and that has not completed. -/
def State.dspV2Lost (s : State) (member : Nat) : State :=
  s.ks.doms.foldl (fun (s : State) (q : Nat × Domain) =>
    match q.2.positions.findIdx? fun p => p.e.member = member && p.e.v2 with
    | none => s
    | some i => q.2.insts.foldl (fun (s : State) (n : Inst) =>
        if n.runs.any fun (e, r) => entType n.image e = 5 && !r.done && lInSet n.image (entRef n.image e) i &&
          lPlane n.image (entRef n.image e) = ksPlane s.ksId then s.ksTenantFault q.1 0x6005 (some n.step) else s) s) s

/-- R219, R266: a moved plan home: what a leaf has taken of the lists of the group's open collections goes; the members send them
again. -/
def State.dspMoved (s : State) (m : HomeMove) : State :=
  s.modKs fun k => { k with dspLeaves := k.dspLeaves.map fun y =>
    match (s.dom y.domain).imageFor y.step with
    | some g =>
      if y.domain = m.domain && y.layer = m.record && m.step.getD 0 ≤ y.step && !y.groups.contains m.element then
        { y with posts := y.posts.filter fun (i, _) => lGroupOf g y.layer i ≠ m.element }
      else y
    | none => y }

/-! ### Completion (R265) -/

/-- R265: whether a DISPATCH entry has completed here in a step. -/
def State.dspComplete (s : State) (d : Nat) (g : Image) (l step : Nat) : Bool :=
  let x := s.dom d
  ((List.range (lGroups g l)).all fun grp =>
    lHome x.moves g l grp step ≠ s.ksId || (match s.dspHome d l grp step with
      | some h => 3 ≤ h.state && h.open' = 0
      | none => false)) &&
  (let routed (lf : DspLeaf) (i : Nat) (r : DspRecv) : Bool := match r.n with
      | some n => n ≤ r.routed && lf.groups.contains (lGroupOf g l i)
      | none => false
   if s.isSpine then true
   else if ksPlane s.ksId ≠ lPlane g l then (match s.dspLeaf d l step with
    | none => true
    | some lf => lf.open' = 0 && lf.posts.all fun (i, r) => routed lf i r)
   else match s.dspLeaf d l step with
    | none => (s.belowHere x (((List.range x.positions.length).filter (lInSet g l)))).isEmpty
    | some lf => lf.open' = 0 &&
      (s.belowHere x ((List.range x.positions.length).filter (lInSet g l))).all fun i =>
        match FMap.find? lf.posts i with
        | some r => routed lf i r
        | none => false)

end Sys2Proof.Machine
end

