-- ==== Sys2Proof/Machine/BlockCore.lean ====
section
/-! DEFINITION. Scalars (R228 to R230), the blocking queue (R241), checkpoints (R327) and the mirrors an entry sends
(R319). -/

namespace Sys2Proof.Machine

/-! ### Scalars -/

/-- R228: byte offset of a scalar's record. -/
def scalarAt (g : Image) (set idx : Nat) : Nat := (sec g 7).off + 512 * set + 16 * idx
def scalarKind (g : Image) (set idx : Nat) : Nat := le g (scalarAt g set idx) 1

/-- R230: the host value in force for a step; A before any is set. -/
def hostValue (host : List HostScalar) (set idx step a : Nat) : Nat :=
  match host.filter fun v => v.set = set && v.scalar = idx && v.fromStep ≤ step with
  | [] => a
  | v :: t => (t.foldl (fun (b : HostScalar) w => if b.fromStep ≤ w.fromStep then w else b) v).value.toNat

/-- R229: a scalar's value in a step, in binary32. -/
def evalScalar (g : Image) (host : List HostScalar) (set idx step : Nat) : Nat :=
  let o := scalarAt g set idx
  let a := le g (o + 4) 4
  let b := le g (o + 8) 4
  let c := le g (o + 12) 4
  let t := u64 (step - imgStepFirst g + b)
  let tf := (b32.roundInt (t : Int) 0 false).1
  let p := exp2r32 (b32.mul tf (log2r32 a)).1
  let q := (b32.add 0x3F800000 (negate true p)).1
  match scalarKind g set idx with
  | 1 => a
  | 2 => tf
  | 3 => le g ((sec g 7).off + 512 * (sec g 7).count + 4 * (b + min (step - imgStepFirst g) (c - 1))) 4
  | 4 => p
  | 5 => q
  | 6 => (b32.div 0x3F800000 q).1
  | 7 => hostValue host set idx step a
  | _ => 0

/-- The scalar sets a step's BLOCK entries name. -/
def setsOf (g : Image) (step : Nat) : List Nat :=
  (((body g).filter fun i => entType g i = 4 && entRuns g i step).map fun i => entF g i 20 4).eraseDups

/-- R230: every scalar of those sets, under set × 32 + scalar. -/
def evalSets (g : Image) (host : List HostScalar) (step : Nat) : FMap Word :=
  (setsOf g step).foldl (fun m set => (List.range 32).foldl (fun (m : FMap Word) idx =>
    FMap.set m (set * 32 + idx) (BitVec.ofNat 32 (evalScalar g host set idx step))) m) []

/-! ### Entries issued -/

def State.inst (s : State) (d step : Nat) : Option Inst := (s.dom d).insts.find? fun i => i.step = step
def State.modInst (s : State) (d step : Nat) (f : Inst → Inst) : State :=
  s.modDom d fun x => { x with insts := x.insts.map fun i => if i.step = step then f i else i }

/-- Whether the step's entry of a TYPE on a record has issued here, and not been skipped by R153. -/
def State.hasIssued (s : State) (d step : Nat) (i : Option Nat) : Bool :=
  match i, s.inst d step with
  | some e, some n => (match FMap.find? n.runs e with
    | some _ => entRuns n.image e step
    | none => false)
  | _, _ => false

/-- R241: the BLOCK entries open, over all domains. -/
def State.openBlocks (s : State) : Nat :=
  sumBy s.ks.doms fun (_, x) => sumBy x.insts fun i =>
    (i.runs.filter fun (e, r) => entType i.image e = 4 && !r.done).length

/-! ### The blocking queue (R241) -/

/-- R241: a chunk whose sum has committed joins the queue once the step's BLOCK entry has issued. -/
def State.enqueueBlock (s : State) (d : Nat) (g : Image) (c k step : Nat) : State :=
  let h := s.shard (shardKey d c false false)
  let queued := s.ks.blockQ.any fun j => j.domain = d && j.coll = c && j.chunk = k
  match s.findChunk d c k step true, s.inst d step with
  | some (_, e), some n =>
    if e.state = 2 && !queued && FMap.find? h.blockStep k ≠ some step && s.hasIssued d step (entryFor g 4 c) then
      s.modKs fun q => { q with blockQ := q.blockQ ++
        [{ domain := d, coll := c, chunk := k, step := step, entered := s.raw .kresia, image := g, scalars := n.scalars }] }
    else s
  | _, _ => s

/-! ### Mirrors of an entry (R319, R170) -/

/-- A chunk's mirror of a MODE sent when its block of the step has committed and its mirror has not. -/
def State.mirrorNow (s : State) (d : Nat) (g : Image) (c k step mode entry : Nat) : State :=
  let h := s.shard (shardKey d c false false)
  if FMap.find? h.blockStep k = some step && !s.mirrored d c k step mode && !s.mirroring d c k step mode then
    s.sendMirror d g c k step mode entry
  else s

/-! ### Checkpoints (R327) -/

/-- R326: the checkpoint-target record. -/
def ckptRec (g : Image) : Option Nat := (List.range (sec g 9).count).find? fun r => rKind g r = 1

/-- R327: bytes of one ring slot. -/
def ckptSlot : Nat := 1179712

/-- R327: one slot: head and data. -/
def State.ckptBytes (s : State) (d : Nat) (g : Image) (c k step seq : Nat) : List Byte :=
  let h := s.shard (shardKey d c false false)
  let prog := collProg g c
  let n := cLen g c k
  let data := h.areas (areasOf prog true) k n
  let mask := sumBy (declared prog) fun (st, _, _) => 2 ^ st
  let head := leBytes 4 0x4B53434B ++ leBytes 2 d ++ leBytes 2 c ++ leBytes 8 (imgId g) ++ leBytes 6 step ++
    leBytes 2 mask ++ leBytes 4 k ++ leBytes 4 n ++ leBytes 4 s.ksId ++ leBytes 4 seq ++ leBytes 4 data.length
  head ++ List.replicate (64 - head.length) 0 ++ data

/-- R327, R241: whether a chunk's state of a step stands still to be read. -/
def State.ckptReady (s : State) (d : Nat) (g : Image) (c k step : Nat) : Bool :=
  let due := match entryFor g 4 c with
    | some i => entRuns g i step
    | none => false
  let h := s.shard (shardKey d c false false)
  (!due || FMap.find? h.blockStep k = some step) &&
  !(s.ks.blockQ.any fun j => j.running && j.domain = d && j.coll = c && j.chunk = k)

/-- R327: a home's part of a checkpoint complete: the crown is told. -/
def State.ckptEnd (s : State) (d c step : Nat) : State :=
  let s1 := s.modShard (shardKey d c false false) fun h => { h with ckptStep := some step }
  if (s.dom d).isCrown then s1.report .kresia 0x9015 [step] (domain := some d)
  else s1.emit (.send .kresia (.crown d) (.ckptDone d c step (2 ^ 20 + s.ksId)))

/-- R327: one granted slot filled, when a chunk is ready: the lowest still to send. -/
def State.pumpCkpt (s : State) (q : Ckpt) : State :=
  match (s.dom q.domain).imageFor q.step with
  | none => s
  | some g =>
    match q.grants, q.left.find? fun k => s.ckptReady q.domain g q.coll k q.step, ckptRec g with
    | slot :: rest, some k, some r =>
      let bs := s.ckptBytes q.domain g q.coll k q.step slot
      let x := s.dom q.domain
      let n := (cutMiB (bs.length / 1048576 + 2) 0 bs).length
      let q' := { q with left := q.left.erase k, grants := rest, seq := slot + 1, open' := q.open' + n }
      let s1 := s.modKs fun z => { z with ckpts := z.ckpts.map fun y => if y = q then q' else y }
      let (free, s2) := (s1.count (evK 0x1B004C)).draw
      s2.sendPieces
        { what := 3, receiver := (x.pos q.target).e.member, domain := q.domain, cls := 5,
          addr := rAddr g r + (slot % max 1 (rSlots g r)) * ckptSlot, sigObj := free % 2 ^ 16, data := bs, rec' := q.coll,
          chunk := q.target, step := q.step, entry := q.entry }
    | _, _, _ => s

/-- R327: every checkpoint of a domain sends what its grants allow; one pass over n chunks at most. -/
def State.pumpCkpts (s : State) : Nat → State
  | 0 => s
  | n + 1 => State.pumpCkpts (s.ks.ckpts.foldl (fun s q => s.pumpCkpt q) s) n

/-- R327: a MIRROR entry with MODE 1 issues: a checkpoint to each home-list element's target begins, unless one is still
streaming. -/
def State.issueCkpt (s : State) (d : Nat) (g : Image) (c step entry : Nat) : State :=
  let x := s.dom d
  if s.ks.ckpts.any fun q => q.domain = d && q.coll = c then
    if s.ks.ckpts.any fun q => q.domain = d && q.coll = c && q.step = step then s
    else (s.count (evK 0x1B0050)).report .kresia 0x900C [step] (domain := some d)
  else if (s.shard (shardKey d c false false)).ckptStep = some step then s.count (evD d 0x130064)
  else match ckptRec g with
    | none => s
    | some r =>
      let h := max 1 (rH g r)
      let mine := ((List.range (cHomes g c)).filter fun e => movedHome x.moves 0 c e step (homeList g c e) = s.ksId)
      let qs : List Ckpt := mine.filterMap fun e =>
        let ks := (List.range (cChunks g c)).filter fun k => k % cHomes g c = e
        if ks.isEmpty then none
        else some { domain := d, coll := c, step := step, target := rList g r (e % h), left := ks, entry := entry }
      let pool (q : Ckpt) : List Nat := (s.ks.grants.filter fun (e, t, _) => e = d && t = q.target).map fun (_, _, k) => k
      let once (q : Ckpt) : Bool := qs.find? (fun y => y.target = q.target) = some q
      let qs' := qs.map fun q => if once q then { q with grants := pool q } else q
      s.modKs fun z =>
        { z with
          ckpts := z.ckpts ++ qs'
          grants := z.grants.filter fun (e, t, _) => !(e = d && qs.any fun q => q.target = t) }

end Sys2Proof.Machine
end

