-- ==== Sys2Proof/Machine/Intake.lean ====
section
/-! DEFINITION. The intake of mailbox commands: who may send which (R376, R385, R391 to R393), what is refused before
firmware acts, and the order in which firmware starts them (R382, R383). -/

namespace Sys2Proof.Machine

/-- R391: one opcode: the part that takes it (none: both), whether tenants may call it, whether DOMAIN names its domain,
and the bytes of its payload as (first, length). -/
structure OpInfo where
  code : Nat
  part : Option Part := some .kresia
  tenant : Bool := false
  domScoped : Bool := false
  fields : List (Nat × Nat) := []

/-- R391: the commands, and no others. -/
def opTable : List OpInfo :=
  [{ code := 0x0001, part := none, tenant := true },
   { code := 0x0002, fields := [(8, 1), (10, 2), (16, 16), (32, 2)] },
   { code := 0x0003, fields := [(8, 1)] },
   { code := 0x0010, fields := [(8, 5)] },
   { code := 0x0011, fields := [(8, 5), (16, 48)] },
   { code := 0x0020, tenant := true, fields := [(8, 4)] },
   { code := 0x0021, tenant := true, fields := [(8, 8)] },
   { code := 0x0022, tenant := true, fields := [(8, 10)] },
   { code := 0x0023, tenant := true, fields := [(8, 4)] },
   { code := 0x0101, part := none, tenant := true },
   { code := 0x0102, fields := [(8, 12)] },
   { code := 0x0103 },
   { code := 0x0104, fields := [(8, 2)] },
   { code := 0x0105, fields := [(8, 8)] },
   { code := 0x0201, fields := [(8, 4)] },
   { code := 0x0202, fields := [(8, 3)] },
   { code := 0x0203, domScoped := true, fields := [(8, 8)] },
   { code := 0x0204, domScoped := true },
   { code := 0x0205, domScoped := true, fields := [(8, 4)] }] ++
  [{ code := 0x0206, part := some .baxel, fields := [(8, 1), (10, 2)] },
   { code := 0x0207, part := some .baxel, fields := [(8, 1)] },
   { code := 0x0301, tenant := true, domScoped := true, fields := [(8, 3), (12, 8)] },
   { code := 0x0401, tenant := true, domScoped := true, fields := [(8, 4)] },
   { code := 0x0402, tenant := true, domScoped := true, fields := [(8, 10)] },
   { code := 0x0403, tenant := true, domScoped := true },
   { code := 0x0404, tenant := true, domScoped := true },
   { code := 0x0405, tenant := true, domScoped := true, fields := [(8, 5), (16, 18), (36, 4)] },
   { code := 0x0501, tenant := true, domScoped := true, fields := [(8, 3), (12, 12)] },
   { code := 0x0502, tenant := true, domScoped := true, fields := [(8, 3), (12, 12)] },
   { code := 0x0503, tenant := true, domScoped := true, fields := [(8, 3), (12, 10)] },
   { code := 0x0901, fields := [(8, 3), (12, 4)] },
   { code := 0x0902, fields := [(8, 3), (12, 4)] },
   { code := 0x0903, fields := [(8, 3)] },
   { code := 0x0904, domScoped := true, fields := [(8, 2), (12, 3)] },
   { code := 0x0905, domScoped := true, fields := [(8, 1), (10, 2), (12, 4), (16, 3), (20, 6)] },
   { code := 0x0906, domScoped := true, fields := [(8, 8)] }] ++
  [{ code := 0x0907, domScoped := true, fields := [(8, 6)] },
   { code := 0x0908, domScoped := true },
   { code := 0x0909, domScoped := true, fields := [(8, 6)] },
   { code := 0x090A, part := none, tenant := true, fields := [(8, 3)] },
   { code := 0x090B, fields := [(8, 4)] },
   { code := 0x090C, part := some .baxel, tenant := true, domScoped := true, fields := [(8, 8)] },
   { code := 0x090D, domScoped := true },
   { code := 0x0A01, tenant := true, domScoped := true, fields := [(8, 8)] },
   { code := 0x0A02, tenant := true, domScoped := true, fields := [(8, 9), (20, 10)] },
   { code := 0x0A03, tenant := true, domScoped := true, fields := [(8, 4)] },
   { code := 0x0A04, tenant := true, domScoped := true, fields := [(8, 2), (12, 8)] },
   { code := 0x0A10, part := none, tenant := true, domScoped := true, fields := [(8, 56)] },
   { code := 0x0A11, part := none, fields := [(8, 13), (24, 8)] },
   { code := 0x0A12, part := none, tenant := true, domScoped := true, fields := [(8, 12)] }]

def opOf (code : Nat) : Option OpInfo := opTable.find? fun o => o.code = code

/-- R391, R392: whether a part takes an opcode. -/
def takesOp (p : Part) (code : Nat) : Bool :=
  match opOf code with
  | some o => o.part.all (· = p)
  | none => false

/-- Fields of a captured slot (R378). -/
def Taken.op (t : Taken) : Nat := le t.bytes 0 2
def Taken.seq (t : Taken) : Nat := le t.bytes 2 2
def Taken.ordered (t : Taken) : Bool := le t.bytes 5 1 % 2 = 1
def Taken.domain (t : Taken) : Nat := le t.bytes 6 2
/-- A payload field. -/
def Taken.f (t : Taken) (off n : Nat) : Nat := le t.bytes off n

/-- R385: whether every byte of the payload that the table does not name is zero. -/
def OpInfo.clean (o : OpInfo) (t : Taken) : Bool :=
  (List.range 56).all fun i =>
    (o.fields.any fun (a, n) => a ≤ i + 8 && i + 8 < a + n) || t.bytes.getD (i + 8) 0 = 0

/-- R376: whether a mailbox is privileged. -/
def privMbox (p : Part) (m : Nat) : Bool :=
  match p with
  | .baxel => m = 0
  | .kresia => m < 4

/-- R377, R401: the domain a mailbox acts for: a bound mailbox's, a Baxel tenant's. -/
def State.mboxDomain (s : State) (p : Part) (m : Nat) : Option Nat :=
  match p with
  | .kresia => (s.mbox .kresia m).bound.map (·.1)
  | .baxel => if m = 0 then none else (FMap.getD s.bx.tenants (m - 1) {}).domain

/-- R377, R382, R385, R391, R393: why firmware refuses a command before acting, with its RESULT. -/
def State.intakeCode (s : State) (p : Part) (m k : Nat) (t : Taken) : Option (Code × List Byte) :=
  if (s.mslot p m k).lastRetired = some t.seq then some (0xA106, [])
  else if le t.bytes 4 1 ≠ 3 then some (0xA102, [3])
  else match opOf t.op with
    | none => some (0xA101, [])
    | some o =>
      if o.part.any (· ≠ p) then some (0xA10C, [])
      else if !privMbox p m && !o.tenant then some (0xA104, [])
      else
        let own := s.mboxDomain p m
        let free := t.op = 0x0001 || (0x0020 ≤ t.op && t.op ≤ 0x0023)
        if p = .kresia && !privMbox p m && own.isNone && !free then some (0xA107, [])
        else if !privMbox p m && o.domScoped && own.any (· ≠ t.domain) then some (0xA107, [])
        else if !o.domScoped && t.domain ≠ 0 then some (0xA103, [])
        else if 2 ≤ le t.bytes 5 1 || !o.clean t then some (0xA103, [])
        else none

/-- R383: the key under which a command changes state: a domain, a member or subject, or a stage area. -/
def Taken.key (t : Taken) : Option (Nat × Nat) :=
  let reads := [0x0502, 0x0A02, 0x0A10, 0x0A12]
  match opOf t.op with
  | none => none
  | some o =>
    if o.code = 0x0301 && t.started then none
    else if o.domScoped && !reads.contains o.code then some (0, t.domain)
    else if [0x0201, 0x0202, 0x0901, 0x0902, 0x0903, 0x090A].contains o.code then some (1, t.f 8 3)
    else if [0x0021, 0x0022, 0x0023].contains o.code then some (2, t.f 8 4)
    else none

/-- The commands taken and not completed, with their mailboxes. -/
def State.inFlight (s : State) (p : Part) : List (Nat × Nat × Taken) :=
  (s.pc p).fw.mailboxes.flatMap fun (m, b) => b.slots.filterMap fun (k, x) => x.taken.map fun t => (m, k, t)

/-- R383: whether firmware may start a command: ORDERED waits for the mailbox, a key for its earlier holders. -/
def State.cmdMayStart (s : State) (p : Part) (m : Nat) (t : Taken) : Bool :=
  !t.started && (s.inFlight p).all fun (n, _, u) =>
    t.order ≤ u.order || (!(t.ordered && n = m) && !(t.key.isSome && t.key = u.key))

/-- R383: a command starts when firmware serves, nothing holds it, and no earlier command that nothing holds is unstarted. -/
def State.startsNow (s : State) (p : Part) (m : Nat) (t : Taken) : Bool :=
  takesOp p t.op && (s.pc p).fw.serving && s.cmdMayStart p m t &&
  (s.inFlight p).all fun (n, _, u) => t.order ≤ u.order || !s.cmdMayStart p n u

/-- R380, R383, R391: firmware starts the command of slot k of mailbox m, if it carries this opcode and its turn has come. -/
def State.serve (s : State) (p : Part) (m k op : Nat) (f : State → Taken → State) : State :=
  match (s.mslot p m k).taken with
  | some t =>
    if t.op = op && s.startsNow p m t then
      let t' := { t with started := true }
      f (s.modMslot p m k fun x => { x with taken := some t' }) t'
    else s
  | none => s

/-- R380, R382, R385: the command captured in a slot meets the intake. -/
def State.intake (s : State) (p : Part) (m k : Nat) : State :=
  match (s.mslot p m k).taken with
  | some t => match s.intakeCode p m k t with
    | some (code, result) => s.complete p m k code result
    | none => s
  | none => s

/-- R380: a doorbell for a free slot: 64 bytes captured, the slot locked; before firmware serves it is held (R3). -/
def State.ring (s : State) (p : Part) (m k : Nat) (bytes inline : List Byte) (ports : List Nat) : State :=
  let w := (s.pc p).fw
  let t : Taken := { bytes := bytes, inline := inline, order := w.order, ports := ports }
  let s1 := (s.modMslot p m k fun x => { x with locked := true, taken := some t }).modFw p fun w => { w with order := w.order + 1 }
  if w.serving then s1.intake p m k else s1.modFw p fun w => { w with heldBells := w.heldBells ++ [(m, k)] }

/-- R392: a command sent to a part that does not take it; RESULT names the right node where the receiver knows it. -/
def State.wrongPart (s : State) (p : Part) (m k : Nat) (node : Option Nat) : State :=
  s.complete p m k 0xA10C (match node with
    | some n => leBytes 3 n
    | none => [])

/-! ### Stage areas (R390) -/

/-- R390: the stage area a mailbox holds under an identifier. -/
def State.stageOf (s : State) (m id : Nat) : Option (List Byte) :=
  match FMap.find? s.ks.c.fw.stages id with
  | some x => if x.mailbox = m then some x.bytes else none
  | none => none

/-- A stage area with bytes put at an offset. -/
def State.stageWrite (s : State) (id off : Nat) (bs : List Byte) : State :=
  s.modFw .kresia fun w =>
    { w with stages := FMap.update w.stages id ⟨64, []⟩ fun x =>
      { x with bytes := x.bytes.take off ++ bs ++ x.bytes.drop (off + bs.length) } }

/-- R390: a bulk result written to a stage area of a mailbox: the codes of an area not held or too short, else done. -/
def State.toStage (s : State) (m id : Nat) (bs : List Byte) : State × Option Code :=
  match s.stageOf m id with
  | none => (s, some 0xA109)
  | some area => if area.length < bs.length then (s, some 0xA10A) else (s.stageWrite id 0 bs, none)

end Sys2Proof.Machine
end

