-- ==== Sys2Proof/Machine/ShardCmd.lean ====
section
/-! DEFINITION. What `shard.write` and `shard.read` reach (R225, R227, R326), the reads that wait for a block, and the end
of a spare fill (R330). -/

namespace Sys2Proof.Machine

/-! ### The range of a command -/

/-- R227, R392: what a command's record, stream and range come to at this Kresia. -/
inductive ShardRange where
  | bad (c : Code)
  | elsewhere (home : Option Nat)
  /-- The shard's key, the stream, an element's bytes, the cells in order, and the chunks they lie in. -/
  | cells (key stream width : Nat) (l chunks : List Nat)
  deriving DecidableEq, Repr

/-- The step whose home lists hold now at this Kresia. -/
def Domain.homeStep (x : Domain) (g : Image) : Nat := (x.lastTamp.map (·.1)).getD (imgStepFirst g)

/-- R226, R334: the slices of a region: one for each receiving position of a POUR entry, or one. -/
def rSlices (g : Image) (r : Nat) : Nat :=
  if rPerPos g r then
    (((List.range (imgEntries g)).filter fun i => entType g i = 10 && entRef g i = r).map fun i => entF g i 24 4).foldl max 1
  else 1

/-- R225, R227: element λ of the stream of a collective here: its chunk and offset. -/
def cellOf (g : Image) (c : Nat) (ks : List Nat) (i : Nat) : Nat × Nat :=
  let n := max 1 (cLen g c 0)
  (ks.getD (i / n) 0, i % n)

/-- R326: byte i of what this Kresia holds of a region: by slice, then by its home-list elements. -/
def partCell (g : Image) (r : Nat) (mine : List Nat) (i : Nat) : Nat :=
  let part := max 1 (rBytes g r / rH g r)
  let slice := max 1 (part * mine.length)
  i / slice * rBytes g r + mine.getD (i % slice / part) 0 * part + i % part

/-- R227: the cells a command names. FIRST and COUNT count elements of the shard in the order λ of R225 (DEDUCED, log 60),
bytes of a region (DESIGN CHOICE, log 60). -/
def State.shardRange (s : State) (d : Nat) (t : Taken) : ShardRange :=
  let x := s.dom d
  let r := t.f 8 2
  let sel := t.f 10 1
  let first := t.f 12 4
  let n := t.f 16 4
  match x.prog with
  | none => .bad 0x5006
  | some g =>
    let step := x.homeStep g
    if 16 ≤ sel then .bad 0xA103
    else if sel % 2 = 1 then
      if (sec g 9).count ≤ r || rKind g r ≠ 0 then .bad 0x5006
      else
        let mine := (List.range (rH g r)).filter fun j => rHome x.moves g r j step = s.ksId
        if mine.isEmpty then .elsewhere (some (rHome x.moves g r 0 step))
        else if rBytes g r / rH g r * mine.length * rSlices g r < first + n then .bad 0x5006
        else .cells (shardKey d r true false) 9 1 ((List.range n).map fun i => partCell g r mine (first + i)) []
    else
      if collCount g ≤ r || !cBlocked g r then .bad 0x5006
      else match (declared (collProg g r)).find? fun q => q.1 = sel / 2 with
      | none => .bad 0x5006
      | some (st, f, _) =>
        let ks := s.homeChunks x g r step
        if ks.isEmpty then .elsewhere (some (homeOf x.moves g r 0 step))
        else if sumBy ks (cLen g r) < first + n then .bad 0x5006
        else
          let l := (List.range n).map fun i => cellOf g r ks (first + i)
          .cells (shardKey d r false false) st (fmtWidth f) (l.map fun (k, o) => cellKey k o) (l.map (·.1)).eraseDups

/-- R227, R392: a command with a range that ends it. -/
def State.endRange (s : State) (m k : Nat) : ShardRange → State
  | .bad c => s.complete .kresia m k c
  | .elsewhere h => s.complete .kresia m k 0xA10C (match h with
    | some n => leBytes 3 (2 ^ 20 + n)
    | none => [])
  | .cells .. => s

/-! ### Reads (R227) -/

/-- R227: a `shard.read`: the cells as of each chunk's last commit, once none of them is being blocked; until then the
command waits. -/
def State.shardRead (s : State) (m k : Nat) (t : Taken) : State :=
  let d := t.domain
  match s.shardRange d t with
  | .cells key stream w l ks =>
    let busy := ks.any fun c => s.ks.blockQ.any fun j => j.running && j.domain = d && j.coll = t.f 8 2 && j.chunk = c
    if busy then s.modKs fun z => { z with shardReads := (z.shardReads.filter (· ≠ (m, k))) ++ [(m, k)] }
    else
      let cells := FMap.getD (s.shard key).streams stream []
      let (s1, c) := s.toStage m (t.f 20 4) (l.flatMap fun q => leBytes w (FMap.getD cells q 0))
      s1.complete .kresia m k (c.getD 0)
  | r => s.endRange m k r

/-- R227: the reads that waited, tried again. -/
def State.pumpShardReads (s : State) : State :=
  let l := s.ks.shardReads
  l.foldl (fun (s : State) (q : Nat × Nat) => match (s.mslot .kresia q.1 q.2).taken with
    | some t => s.shardRead q.1 q.2 t
    | none => s) (s.modKs fun z => { z with shardReads := [] })

/-! ### Fills (R330) -/

/-- What the transfers of a fill carry of its command. -/
def fillId (m k : Nat) : Nat := m * 64 + k

/-- R330: a fill whose transfers are all answered completes with their count, or as one that lost a home or a path. -/
def State.endFill (s : State) (f : FillRun) : State :=
  let s1 := s.modKs fun k => { k with fills := k.fills.filter fun q => !(q.mailbox = f.mailbox && q.mslot = f.mslot) }
  if f.failed then s1.complete .kresia f.mailbox f.mslot 0x900B
  else s1.complete .kresia f.mailbox f.mslot 0 (leBytes 4 f.count)

/-- The fills of a domain whose program goes end without their transfers. -/
def State.endFills (s : State) (d : Nat) : State :=
  (s.ks.fills.filter fun f => f.domain = d).foldl (fun (s : State) (f : FillRun) => s.endFill { f with failed := true }) s

end Sys2Proof.Machine
end

