-- ==== Sys2Proof/Machine/Trackers.lean ====
section
/-! DEFINITION. Receive trackers (R137, R138, R141): access, how they end, and where RW_DONE goes. -/

namespace Sys2Proof.Machine

/-! ### Access -/

/-- The key of a tracker, or of an open sending transfer. -/
def rsigKey (node transfer : Nat) : Nat := node * 65536 + transfer

def State.trackers (s : State) : Part → FMap Tracker
  | .baxel => s.bx.trackers
  | .kresia => s.ks.trackers
def State.modTrackers (s : State) (p : Part) (f : FMap Tracker → FMap Tracker) : State :=
  match p with
  | .baxel => s.modBx fun b => { b with trackers := f b.trackers }
  | .kresia => s.modKs fun k => { k with trackers := f k.trackers }
def State.modTracker (s : State) (p : Part) (key : Nat) (f : Tracker → Tracker) : State :=
  s.modTrackers p fun m => match FMap.find? m key with
    | some x => FMap.set m key (f x)
    | none => m

def State.writesOf (s : State) : Part → FMap MemReq
  | .baxel => s.bx.writes
  | .kresia => s.ks.writes
def State.modWrites (s : State) (p : Part) (f : FMap MemReq → FMap MemReq) : State :=
  match p with
  | .baxel => s.modBx fun b => { b with writes := f b.writes }
  | .kresia => s.modKs fun k => { k with writes := f k.writes }

/-- R137: where an RW_DONE leaves: on the port of the LAST packet, or that of the lowest-numbered plane in service; a Kresia
sends to the sender's node, by the return route of R282 where the member needs it. -/
def State.rwVia (s : State) (p : Part) (d src port : Nat) : Via :=
  match p with
  | .baxel => if s.up .baxel port then .port port else .port ((s.bxPlanes.head?.bind s.bxPort).getD 0)
  | .kresia => s.routeTo d src 0

def State.rwDoneTo (s : State) (p : Part) (x : Tracker) (code : Code) : State :=
  s.emit (.send p (s.rwVia p x.domain x.src x.lastPort) (.rwDone ⟨x.domain, x.epoch, x.transfer, code⟩))

/-- Trackers end; what is still unacknowledged of their writes counts for nothing later. -/
def State.dropTrackers (s : State) (p : Part) (f : Tracker → Bool) : State :=
  let gone := (s.trackers p).filter fun (_, x) => f x
  (s.modTrackers p fun m => FMap.keep m fun _ x => !f x).modWrites p fun w => FMap.mapVals w fun _ r =>
    match r.use with
    | .rsig k _ => if gone.any fun (q, _) => q = k then { r with use := .landed } else r
    | _ => r

/-- R141: void_older closes the trackers of a domain with an older epoch; one closed as overrun keeps its wait (R140). -/
def State.voidTrackers (s : State) (p : Part) (domain epoch : Nat) : State :=
  let old (x : Tracker) : Bool := x.domain = domain && x.epoch < epoch && !x.overrun
  let gone := (s.trackers p).filter fun (_, x) => old x
  gone.foldl (fun s (_, x) => s.rwDoneTo p x 0x300F) (s.dropTrackers p old)

/-- A tracker freed; writes of it that are still unacknowledged no longer count for anything. -/
def State.freeTracker (s : State) (p : Part) (key : Nat) : State :=
  (s.modTrackers p fun m => FMap.erase m key).modWrites p fun w => FMap.mapVals w fun _ r =>
    match r.use with
    | .rsig k _ => if k = key then { r with use := .landed } else r
    | _ => r

end Sys2Proof.Machine
end

