-- ==== Sys2Proof/Machine/BodyCore.lean ====
section
/-! DEFINITION. Body instances at a Kresia (R153 to R160), what a new epoch ends (R170, R220), and the cupping partials
(R344 to R350). -/

namespace Sys2Proof.Machine

/-! ### Who runs an entry (R150, R151) -/

def State.partakesColl (s : State) (x : Domain) (g : Image) (c step : Nat) : Bool :=
  !(s.homeChunks x g c step).isEmpty || !(s.leafChunks x g c step).isEmpty

/-- R150, R151: whether an entry's SITE includes this Kresia. -/
def State.partakes (s : State) (x : Domain) (g : Image) (i step : Nat) : Bool :=
  match entSite g i with
  | 0 => x.isCrown
  | 1 => true
  | _ => match entType g i with
    | 5 =>
      let l := entRef g i
      ((List.range (lGroups g l)).any fun grp => lHome x.moves g l grp step = s.ksId) ||
      (!s.isSpine && ksPlane s.ksId = lPlane g l &&
        (List.range x.positions.length).any fun p => lInSet g l p && (x.pos p).e.group = leafGroup s.ksId)
    | 8 => s.partakesColl x g (entF g i 26 2) step
    | 9 => s.partakesColl x g (entF g i 34 2) step
    | 10 => (List.range (rH g (entRef g i))).any fun j => rHome x.moves g (entRef g i) j step = s.ksId
    | _ => s.partakesColl x g (entRef g i) step

/-! ### Cupping at the crown (R348 to R350) -/

/-- R350: a completed record stored, or lost while 64 are held. -/
def State.storeCup (s : State) (d : Nat) (r : CupRec) : State :=
  let x := s.dom d
  let s1 := s.modDom d fun y => { y with cupOpen := y.cupOpen.filter fun q => q.step ≠ r.step }
  if 64 ≤ x.cupRecs.length then
    (s1.modDom d fun y => { y with cupLost := y.cupLost + 1 }).count (evD d 0x1C0114)
  else
    (s1.modDom d fun y =>
      { y with cupRecs := y.cupRecs ++ [{ r with seq := x.cupNext + 1, lost := x.cupLost }], cupNext := x.cupNext + 1, cupLost := 0 }).report
      .kresia 0x0011 [r.step, x.cupNext + 1] (domain := some d)

/-- R348: a record whose step is sealed and whose Kresia have all reported completes. -/
def State.tryCup (s : State) (d step : Nat) : State :=
  let x := s.dom d
  match x.cupOpen.find? fun r => r.step = step with
  | some r =>
    if x.cupped step && r.sealedOt.isSome && r.expected ≤ r.reported.length then s.storeCup d r else s
  | none => s

/-- R344: VAR_CAUSE of the last sealed step. -/
def State.setVarLast (s : State) (d v : Nat) : State :=
  s.modPc .kresia fun c => { c with domRegs := FMap.set c.domRegs (d * 2 ^ 24 + 0x1C011C) (BitVec.ofNat 32 v) }

/-- CUP_PARTIAL_RX at the crown (R344, R348): the partials of a Kresia, once each under the step's latest epoch. -/
def State.takePartial (s : State) (m : CupPartial) : State :=
  let d := m.domain
  let x := s.dom d
  let old := (x.cupOpen.find? fun r => r.step = m.step).getD { step := m.step, epoch := m.epoch }
  if m.epoch < old.epoch then s
  else
    let base : CupRec := if old.epoch < m.epoch then { old with
      epoch := m.epoch, sums := List.replicate 20 0, reported := [] } else old
    if base.reported.contains m.node then s
    else
      let r : CupRec := { base with
        sums := addWords base.sums m.sums
        varied := base.varied ||| m.varied
        reported := base.reported ++ [m.node]
        expected := (x.kresia s.ks.build).length }
      let s1 := s.modDom d fun y => { y with cupOpen := (y.cupOpen.filter fun q => q.step ≠ m.step) ++ [r] }
      let s2 := if r.sealedOt.isSome && x.step = m.step + 1 then s1.setVarLast d r.varied else s1
      s2.tryCup d m.step

/-- R349: the crown seals a step: its record takes the seal, and an uncupped one is kept no longer than the next seal. -/
def State.sealStep (s : State) (d step : Nat) : State :=
  let x := s.dom d
  let old := (x.cupOpen.find? fun r => r.step = step).getD { step := step, epoch := x.epoch }
  let g := (x.imageFor step).getD []
  let now := if old.epoch < x.epoch then { old with sums := List.replicate 20 0, reported := [] } else old
  let r : CupRec := { now with
    epoch := x.epoch, sealedOt := some (s.otNow .kresia), sealedRaw := s.raw .kresia, replayed := x.replayed
    expected := (x.kresia s.ks.build).length
    progId := imgId g, digest := imgDigest g, seed := imgSeed g }
  let s1 := s.modDom d fun y =>
    { y with cupOpen := (y.cupOpen.filter fun q => q.step ≠ step && (x.cupped q.step || step ≤ q.step)) ++ [r] }
  (s1.setVarLast d r.varied).tryCup d step

/-! ### What a program takes (R164, R165) -/

/-- R164: a declared object of the image. -/
def objDecls (g : Image) : List ObjDecl :=
  (List.range (sec g 3).count).map fun i =>
    let v := le g ((sec g 3).off + 8 * i) 4
    { index := v % 2 ^ 16, cluster := v / 2 ^ 16 % 2 = 1, replay := v / 2 ^ 17 % 2 = 1, carry := v / 2 ^ 18 % 2 = 1,
      init := le g ((sec g 3).off + 8 * i + 4) 4 % 2 ^ 31 }

/-- The cluster objects a program declares or names: its block. -/
def objBlock (g : Image) : Nat :=
  let decl := ((objDecls g).filter (·.cluster)).map fun o => o.index + 1
  let dones := ((List.range (imgEntries g)).filter fun i => entDoneObj g i ≠ 0xFFFF).map fun i => entDoneObj g i + 1
  let refs := ((List.range (imgEntries g)).filter fun i => entType g i = 8 || (entType g i = 9 && entF g i 20 1 = 0)).map fun i =>
    entRef g i + 1
  (decl ++ dones ++ refs).foldl max 0

/-- R165, R319: the trackers a Kresia of a domain takes at load: those of its senders, and two for each staging slot it
grants. -/
def trackersFor (g : Image) (members kresia : Nat) : Nat :=
  let rows := (List.range (sec g 4).count).map fun i => (sec g 4).off + 4 * i
  (sumBy (rows.filter fun o => le g (o + 1) 1 = 1) fun o => (if le g o 1 = 0 then members else kresia) * le g (o + 2) 2) +
  (if (List.range (imgEntries g)).any fun i => entType g i = 6 && entF g i 16 1 ≠ 1 then 64 else 0)

/-! ### Instances (R155 to R157) -/

/-- The entries of a queue, in list order. -/
def queueOf (g : Image) (q : Nat) : List Nat := (body g).filter fun i => entQueue g i = q

/-- R156: the pointers of a new instance. -/
def firstPtrs (g : Image) : FMap Nat :=
  (List.range 16).foldl (fun m q => match (queueOf g q).head? with
    | some i => FMap.set m q i
    | none => m) []

/-- R156: a queue's pointer past an entry. -/
def Inst.advance (n : Inst) (q i : Nat) : Inst :=
  match (queueOf n.image q).find? fun j => i < j with
  | some j => { n with ptrs := FMap.set n.ptrs q j }
  | none => { n with ptrs := FMap.erase n.ptrs q }

/-- R156: whether every entry of the instance has completed here. -/
def Inst.complete (n : Inst) : Bool :=
  (body n.image).all fun i => match FMap.find? n.runs i with
    | some r => r.done
    | none => false

/-- R344, R348: a closed instance sends its partials and its causes of variation to the crown. -/
def State.sendPartial (s : State) (d : Nat) (n : Inst) : State :=
  let x := s.dom d
  let s1 := if n.varied = 0 then s else s.count (evK 0x1C000C)
  if !x.cupped n.step && n.varied = 0 then s1
  else
    let sums := match x.cups.find? fun c => c.step = n.step with
      | some c => c.sums
      | none => List.replicate 20 0
    let m : CupPartial := { domain := d, step := n.step, epoch := n.epoch, node := 2 ^ 20 + s.ksId, sums := sums, varied := n.varied }
    if x.isCrown then s1.takePartial m else s1.emit (.send .kresia (.crown d) (.cup m))

/-- R155, R230: the body of a step starts: its scalars are evaluated, and the crown digests them (R347). -/
def State.startInst (s : State) (d step epoch : Nat) (due : OT) : State :=
  let x := s.dom d
  match x.imageFor step with
  | none => s
  | some g =>
    let n : Inst := { step := step, epoch := epoch, due := due, image := g, ptrs := firstPtrs g,
                      scalars := evalSets g x.scalars step, varied := FMap.getD x.varKept step 0 }
    let s1 := s.modDom d fun y =>
      { y with varKept := y.varKept.filter fun q => step < q.1, cups := y.cups.map fun c => if c.step = step then { c with epoch := epoch } else c }
    let s2 := if x.isCrown then
        s1.cupAdd d step 3 (n.scalars.map fun (k, v) => cupTerm 3 step (k / 32) (k % 32) 0 v.toNat)
      else s1
    if (body g).isEmpty then s2.sendPartial d n else s2.modDom d fun y => { y with insts := y.insts ++ [n] }

/-- R172: a program command of a domain completes, and LAST_CODE shows its code. -/
def State.progEnd (s : State) (d m k : Nat) (code : Code) (result : List Byte := []) : State :=
  (s.modPc .kresia fun c =>
    { c with domRegs := FMap.update c.domRegs (d * 2 ^ 24 + 0x13004C) 0 fun w => w.put 16 16 code.toNat }).complete
    .kresia m k code result

/-- R171: the crown learns that a Kresia or a Baxel has freed the program; with the last, the command completes. -/
def State.freedBy (s : State) (d node : Nat) : State :=
  match (s.dom d).wait with
  | some w =>
    if w.kind ≠ 2 then s
    else
      let l := w.waiting.filter (· ≠ node)
      if l.isEmpty then
        (s.modDom d fun x => { x with wait := none, phase := .idle, unloading := none, lost := false }).progEnd d w.mailbox w.mslot 0
      else s.modDom d fun x => { x with wait := some { w with waiting := l } }
  | none => s

/-- R133, R134: the waiting TAKEs on a domain's objects end with S_OBJ_VOIDED, whoever issued them. -/
def State.endTakes (s : State) (d : Nat) (f : Obj → Bool) : State :=
  let ws := s.ks.objs.flatMap fun (o, x) => if x.domain = some d && f x then x.waiters.map fun w => (o, w) else []
  let drop (x : Obj) : Obj := if x.domain = some d && f x then { x with waiters := [] } else x
  let s1 := s.modKs fun k => { k with objs := FMap.mapVals k.objs fun _ x => drop x }
  ws.foldl (fun (s : State) (q : Nat × Waiter) => s.endWaiter .kresia q.1 q.2 0x3012) s1

/-- R171: a program's state here is freed; a mailbox's TAKE on an object that goes ends as at a void (log 55). -/
def State.freeProgram (s : State) (d : Nat) : State :=
  let s1 := (((s.endTakes d fun _ => true).endFills d).dropTrackers .kresia fun t => t.domain = d).modKs fun k =>
    { k with
      objs := k.objs.filter fun (_, o) => o.domain ≠ some d
      chunks := k.chunks.filter fun (_, e) => e.domain ≠ d
      kept := k.kept.filter fun (q, _) => q / 2 ^ 36 ≠ d
      shards := k.shards.filter fun (q, _) => q / 2 ^ 14 ≠ d
      blockQ := k.blockQ.filter fun j => j.domain ≠ d
      jobs := k.jobs.filter fun (_, j) => j.domain ≠ d
      sends := k.sends.filter fun (_, j) => j.domain ≠ d
      waitJobs := k.waitJobs.filter fun j => j.domain ≠ d
      windows := k.windows.filter fun (q, _) => q / 2 ^ 14 ≠ d
      bases := k.bases.filter fun (q, _) => q / 2 ^ 31 ≠ d
      heldTakes := k.heldTakes.filter fun r => r.owner ≠ d
      staged := k.staged.filter fun q => q.domain ≠ d
      ckpts := k.ckpts.filter fun q => q.domain ≠ d
      grants := k.grants.filter fun q => q.1 ≠ d
      dspLeaves := k.dspLeaves.filter fun q => q.domain ≠ d
      dspHomes := k.dspHomes.filter fun q => q.domain ≠ d
      dspQ := k.dspQ.filter fun q => q.domain ≠ d
      takesDone := k.takesDone.filter fun (q, _, _) => q ≠ d }
  let s2 := s1.modDom d fun y =>
    { y with
      prog := none, next := none, insts := [], heldInsts := [], lastTamp := none, scalars := [], moves := [], cups := [], varKept := []
      cupOpen := [], cupRecs := [], cupNext := 0, cupLost := 0, cupPeriod := 0, cobjBase := 0, cobjCount := 0, trackers := 0
      everTamped := false, series := none, freeing := false, lost := false, barriers := 0, phase := if y.isDeputy then .none else y.phase }
  let s3 := s2.pumpShardReads
  if (s.dom d).isCrown then s3.freedBy d (2 ^ 20 + s.ksId)
  else s3.emit (.send .kresia (.crown d) (.loadAck { domain := d, freed := true, fromBaxel := false, node := 2 ^ 20 + s.ksId }))

/-- R157: whether the instance of a step is to be held: two are open, or one of a step at least two before it is. -/
def Domain.holds (x : Domain) (step : Nat) : Bool := 2 ≤ x.insts.length || x.insts.any fun n => n.step + 2 ≤ step

/-- R169: with the last instance of the old program, what it had beyond the new one's block of cluster objects and trackers
goes free. -/
def State.trimProgram (s : State) (d : Nat) : State :=
  let x := s.dom d
  match x.prog with
  | none => s
  | some g =>
    let n := objBlock g
    if x.next.isSome || x.cobjCount ≤ n || (x.insts.any fun i => i.image ≠ g) ||
      (x.heldInsts.any fun q => q.1 < imgStepFirst g) then s
    else (s.modKs fun k => { k with objs := k.objs.filter fun (o, z) => z.domain ≠ some d || o < x.cobjBase + n }).modDom d
      fun y => { y with cobjCount := n, trackers := trackersFor g x.positions.length (x.kresia s.ks.build).length }

/-- R157, R171: what an ended instance lets go on: a held instance starts; a program being unloaded is freed with its last
instance, held ones included. -/
def State.afterInst (was : State) (d : Nat) : State :=
  let s := was.trimProgram d
  let x := s.dom d
  match x.heldInsts with
  | (st, ep, due) :: t =>
    if x.holds st then s else (s.modDom d fun y => { y with heldInsts := t }).startInst d st ep due
  | [] => if x.freeing && x.insts.isEmpty then s.freeProgram d else s

/-- R156: an instance whose entries have all completed closes. -/
def State.closeInst (s : State) (d step : Nat) : State :=
  match s.inst d step with
  | some n =>
    if n.complete then
      (((s.modKs fun k => { k with dspLeaves := k.dspLeaves.filter fun y => !(y.domain = d && y.step = step) }).modDom d fun x => { x with insts := x.insts.filter fun i => i.step ≠ step }).sendPartial d n).afterInst d
    else s
  | none => s

/-- R154, R156: an entry completes at this Kresia. -/
def State.endEntry (s : State) (d step i : Nat) (act : Bool) : State :=
  match s.inst d step with
  | none => s
  | some n =>
    let tag : TagRec := { kind := 1, domain := d, step := step, index := i, epoch := n.epoch }
    let s1 := s.modInst d step fun z =>
      { z with runs := FMap.update z.runs i { issued := s.raw .kresia } fun r => { r with done := true } }
    let s2 := if act then ((s1.doneSignal d n.image i).tagStage tag 2).tagEnd tag false else s1
    s2.closeInst d step

/-- R158, R156: a waiting entry's request. -/
def waitId (step i : Nat) : Nat := step * 65536 + i

/-- What an entry issued by a Kresia does at its engine (R151, R152). -/
def State.runEntry (s : State) (d step i : Nat) (n : Inst) : State :=
  let g := n.image
  let x := s.dom d
  let ref := entRef g i
  match entType g i with
  | 3 =>
    let done := (s.homeChunks x g ref step).filter fun k => FMap.has (s.window d ref 1 step).closed k
    (if cFp64 g ref = 2 then s.markVaried d step 0 else s).count (evD d 0x130064) done.length
  | 4 =>
    let ks := s.homeChunks x g ref step
    let h := s.shard (shardKey d ref false false)
    let s1 := s.count (evD d 0x130064) (ks.filter fun k => FMap.find? h.blockStep k = some step).length
    ks.foldl (fun s k => s.enqueueBlock d g ref k step) s1
  | 5 => s.issueDsp d g ref step i
  | 6 =>
    let mode := entF g i 16 1
    if mode = 1 then (s.issueCkpt d g ref step i).pumpCkpts 1
    else
      let ks := s.homeChunks x g ref step
      let s1 := s.count (evD d 0x130064) (ks.filter fun k => s.mirrored d ref k step mode).length
      ks.foldl (fun s k => s.mirrorNow d g ref k step mode i) s1
  | 7 =>
    let m : SnapMsg := { domain := d, epoch := x.epoch, step := step, set := ref,
                         t := otAdd n.due (leS g (entAt g i + 16) 4 * 65536) }
    (s.broadcast d (.snap m)).takeSnap .kresia m (selsOf g ref .kresia) 0
  | 8 => s.takeObj (.entry d (waitId step i) (entF g i 16 4) (x.cobjBase + ref))
  | 9 =>
    if entF g i 20 1 = 0 then
      s.stepSignal d (x.cobjBase + ref) (entF g i 16 4) i
    else
      let ot := s.otNow .kresia
      let rec' := leBytes 2 d ++ leBytes 2 i ++ leBytes 4 x.epoch ++ leBytes 6 step ++ leBytes 2 0 ++ otBytes ot ++
        List.replicate 36 0
      (List.range x.positions.length).foldl (fun s p => s.startJob
        { what := 6, receiver := (x.pos p).e.member, domain := d, cls := 5, addr := entF g i 24 8, sigObj := entF g i 32 2,
          sigN := entF g i 16 4, data := rec', step := step, entry := i }) s
  | 10 =>
    let jobs := (List.range (entF g i 24 4)).flatMap fun k =>
      s.pourJobs d g i step 5 (entF g i 20 4 + k) k (entF g i 16 2)
    let s1 := s.modInst d step fun z => { z with runs := FMap.update z.runs i { issued := s.raw .kresia } fun r => { r with open' := jobs.length } }
    jobs.foldl (fun s j => s.startJob j) s1
  | _ => s

/-- R156: an entry issues: its engine accepts it. A WAIT whose TAKE the pool cannot hold does not issue; a SIGNAL
completes at once. -/
def State.issueEntry (s : State) (d step i : Nat) : State × Bool :=
  match s.inst d step with
  | none => (s, false)
  | some n =>
    if entType n.image i = 4 && 256 ≤ s.openBlocks then (s.count (evD d 0x130054), false)
    else if entType n.image i = 8 && s.needsSlot (.entry d (waitId step i) (entF n.image i 16 4) ((s.dom d).cobjBase + entRef n.image i))
      && !s.ksWaitRoom then (s.count (evK 0x120090), false)
    else
      let tag : TagRec := { kind := 1, domain := d, step := step, index := i, epoch := n.epoch }
      let s1 := s.modInst d step fun z =>
        { z with runs := FMap.set z.runs i { issued := s.raw .kresia, ot := s.otNow .kresia }, lastIssue := some (s.raw .kresia) }
      let s2 := ((((s1.count (evD d 0x130050)).tagStart tag).tagStage tag 1)).runEntry d step i n
      (if entType n.image i = 9 then s2.endEntry d step i true else s2, true)

/-! ### Completion (R151) -/

/-- R151: whether an issued entry has completed here. -/
def State.entryFinished (s : State) (d step i : Nat) (n : Inst) (r : EntryRun) : Bool :=
  let g := n.image
  let x := s.dom d
  let c := entRef g i
  let homes := s.homeChunks x g c step
  match entType g i with
  | 3 =>
    (cPass g c || (s.leafChunks x g c step).all fun k => FMap.has (s.window d c 0 step).closed k) &&
    homes.all fun k => FMap.has (s.window d c 1 step).closed k || (match s.findChunk d c k step true with
      | some (_, e) => e.state = 2
      | none => false)
  | 4 =>
    (homes.all fun k => FMap.find? (s.shard (shardKey d c false false)).blockStep k = some step) &&
    !(s.ks.waitJobs.any fun j => j.what = 1 && j.domain = d && j.rec' = c && j.step = step)
  | 5 => s.dspComplete d g c step
  | 6 =>
    let mode := entF g i 16 1
    if mode = 1 then !(s.ks.ckpts.any fun q => q.domain = d && q.coll = c && q.step = step)
    else homes.all fun k => s.mirrored d c k step mode
  | 7 => !(s.ks.c.ctr.snapArms.any fun a => a.domain = d && a.step = step && a.set = c && a.epoch = n.epoch)
  | 10 => r.open' = 0
  | _ => false

/-! ### A new epoch (R103, R141, R170, R220) -/

/-- R243, R195: an open chunk of an older epoch fails and frees its slots; one whose block runs, or has run, stays, and takes the
replay's parts, which begin at RESTART 0, as repeats (R220). -/
def State.failOld (s : State) (ix : Nat) (e : ChunkEntry) : State :=
  let running := s.ks.blockQ.any fun j => j.running && j.domain = e.domain && j.coll = e.coll && j.chunk = e.chunk
  if e.state = 3 then s
  else if running then s.modChunk ix fun z => { z with restart := 0 }
  else
    let s1 := (((s.modChunk ix fun z => { z with state := 3, parts := [], parked := [], waiting := false, out := [], raw := [] }).freeSlots ix).count
      (evK 0x150024)).tagStage e.tag 3
    s1.tagEnd e.tag true

/-- R170, R220: the domain takes a newer epoch here: open chunks and collections of the older one end, transfers of it
are void, leaves begin their windows again; the chunks a home has committed count from RESTART 0, as the replay does. -/
def State.endEpoch (s : State) (d epoch : Nat) : State :=
  let s1 := s.modDom d fun x => { x with epoch := epoch }
  let s2 := s1.modKs fun k =>
    { k with
      blockQ := k.blockQ.filter fun j => j.domain ≠ d || j.running
      dspLeaves := k.dspLeaves.filter fun q => q.domain ≠ d
      dspHomes := k.dspHomes.filter fun q => q.domain ≠ d
      dspQ := k.dspQ.filter fun q => q.domain ≠ d
      windows := k.windows.map fun (q, w) =>
        if q / 2 ^ 14 ≠ d then (q, w)
        else if q % 2 = 0 then (q, { w with closed := [], noted := 0 })
        else (q, { w with closed := FMap.mapVals w.closed fun _ _ => 0 }) }
  (s2.ks.chunks.foldl (fun s (ix, e) => if e.domain = d && e.epoch < epoch then s.failOld ix e else s) s2).voidTrackers
    .kresia d epoch

/-- R170: a void ends the open instance of its step: its TAKEs are withdrawn, its pours and signals that wait for a tracker
are dropped, REPLAY objects take INIT, PLAN and SCALARS partials go (R348). -/
def State.voidInst (s : State) (d step : Nat) : State :=
  let open' : Bool := (s.inst d step).isSome
  let mine (w : Waiter) : Bool := match w.source with
    | .entry i => w.owner = d && i / 65536 = step
    | _ => false
  let s1 := s.modKs fun k =>
    { k with
      takesDone := k.takesDone.filter fun (q, i, _) => !(q = d && i / 65536 = step)
      heldTakes := k.heldTakes.filter fun r => !ObjReq.ofStep d step r
      waitJobs := k.waitJobs.filter fun j => !((j.what = 5 || j.what = 6) && j.domain = d && j.step = step)
      objs := FMap.mapVals k.objs fun _ o => { o with waiters := o.waiters.filter fun w => !mine w } }
  let reset (o : Obj) : Obj :=
    if o.domain = some d && (o.replay || o.poison) then { o with value := o.init, poison := false, poisonCode := 0 } else o
  let s2 := (s1.modKs fun k => { k with objs := FMap.mapVals k.objs fun _ o => reset o }).endTakes d (·.replay) |>.serveObjs (s.waitedOn mine)
  let tags : List TagRec := match s.inst d step with
    | some n => List.filterMap (fun ((i, r) : Nat × EntryRun) => if r.done then none else some ({ kind := 1, domain := d, step := step, index := i, epoch := n.epoch } : TagRec)) n.runs
    | none => []
  let s3 := tags.foldl (fun (s : State) (t : TagRec) => s.tagEnd t true) s2
  let s4 := s3.modDom d fun x =>
    { x with
      insts := x.insts.filter fun i => i.step ≠ step
      heldInsts := x.heldInsts.filter fun (st, _, _) => st ≠ step
      varKept := match s3.inst d step with
        | some n => if n.varied = 0 then x.varKept else FMap.set x.varKept step n.varied
        | none => x.varKept
      cups := x.cups.map fun (c : CupPart) => if c.step = step then { c with sums := c.sums.take 12 ++ List.replicate 8 0 } else c }
  if open' then s4.afterInst d else s4

end Sys2Proof.Machine
end

