-- ==== Sys2Proof/Machine/ChunkCore.lean ====
section
/-! DEFINITION. Chunks at a Kresia: what packets carry (R206, R207, R212), how slots take them (R179, R192, R193, R213),
commits by role (R210, R211, R215), failures and restarts (R184, R209, R218). -/

namespace Sys2Proof.Machine

/-! ### Slots -/

def Slot320.felt (x : Slot320) : Felt := ⟨x.w, Flags3.ofVal x.flags⟩
def Slot320.add (x : Slot320) (f : Felt) : Slot320 :=
  let y := x.felt.add f
  { x with w := y.w, flags := y.f.val }

/-- R179: elements added to consecutive slots. -/
def addDense (m : FMap Slot320) (first : Nat) (fs : List Felt) : FMap Slot320 :=
  ((List.range fs.length).zip fs).foldl (fun m (i, f) => FMap.update m (first + i) {} fun x => x.add f) m

/-- R192, R193: a binary64 contribution of a position at its slot: kept apart in fixed-tree mode, added as it comes in loose
mode. -/
def Slot320.add64 (x : Slot320) (fixed : Bool) (pos v : Nat) : Slot320 :=
  if fixed then { x with f64 := x.f64 ++ [(pos, v)] }
  else match x.f64 with
    | [] => { x with f64 := [(0, v)] }
    | (_, a) :: _ => { x with f64 := [(0, (b64.add a v).1)] }

/-- R192, R193: the sum of a slot at its home, and the additions counted there at the commit. -/
def Slot320.sum64 (x : Slot320) (fixed : Bool) : Nat × Nat :=
  if fixed then Machine.fixedTree x.f64 else (((x.f64.head?).map (·.2)).getD 0, 0)

/-- R192, R193: the contributions of a position to consecutive slots. -/
def addDense64 (m : FMap Slot320) (fixed : Bool) (first pos : Nat) (vs : List Nat) : FMap Slot320 :=
  ((List.range vs.length).zip vs).foldl (fun m (i, v) => FMap.update m (first + i) {} fun x => x.add64 fixed pos v) m

/-- R213: the probe of an offset: the slot that holds it, or the first empty one, among 2^lg slots. -/
def probe (m : FMap Slot320) (lg u : Nat) : Nat → Nat → Nat
  | 0, h => h
  | fuel + 1, h => match FMap.find? m h with
    | none => h
    | some x => if x.off = u then h else probe m lg u fuel ((h + 1) % 2 ^ lg)

def sparseHash (lg u : Nat) : Nat := u * 0x9E3779B1 % 2 ^ 32 / 2 ^ (32 - lg)

/-- R213: the slot of an offset changed; a new offset takes the empty slot its probe ends at. -/
def atOffset (lg : Nat) (m : FMap Slot320) (u : Nat) (f : Slot320 → Slot320) : FMap Slot320 :=
  FMap.update m (probe m lg u (2 ^ lg) (sparseHash lg u)) { off := u } f

/-- R213, R179: an entry of a sparse part applied. -/
def addSparse (lg : Nat) (m : FMap Slot320) (u : Nat) (f : Felt) : FMap Slot320 := atOffset lg m u fun x => x.add f

/-- The touched offsets of a sparse chunk with their slots, ascending. -/
def byOffset (m : FMap Slot320) : FMap Slot320 :=
  m.foldl (fun (acc : FMap Slot320) (q : Nat × Slot320) => FMap.set acc q.2.off q.2) []

/-- The touched offsets of a sparse chunk with their felt sums, ascending. -/
def touched (m : FMap Slot320) : List (Nat × Felt) := (byOffset m).map fun (u, x) => (u, x.felt)

/-! ### Payloads -/

/-- R207: elements of a dense member part's packet when so many remain. -/
def perPacket (fmt left : Nat) : Nat :=
  let w := max 1 ((inBits fmt).getD 8)
  let n := if inMx fmt then 4096 / (4 * w + 1) * 32 else 4096 * 8 / w
  min n left

/-- Bytes of the value of a sparse entry in IN_FMT (R212). -/
def sparseWidth (fmt : Nat) : Nat := ((inBits fmt).getD 8 + 7) / 8

/-- R212: the entries of a sparse member packet: (offset, value bits); none where the order or range is broken. -/
def sparseEntries (w range n last : Nat) (bs : List Byte) : Option (List (Nat × Nat)) :=
  match n with
  | 0 => if bs.isEmpty then some [] else none
  | n + 1 =>
    let u := le bs 0 4
    if bs.length < 4 + w || range ≤ u || u + 1 ≤ last then none
    else (sparseEntries w range n (u + 1) (bs.drop (4 + w))).map fun t => (u, le bs 4 w) :: t

/-- R212: the entries of a sparse leaf packet. -/
def sparseSlivers (range n last : Nat) (bs : List Byte) : Except Nat (List (Nat × Felt)) :=
  if bs.length < 20 * n then .error 4
  else
    let offs := (List.range n).map fun i => le bs (20 * i) 4
    let blk := ((List.range n).flatMap fun i => (bs.drop (20 * i + 4)).take 16) ++ bs.drop (20 * n)
    let ok := (offs.foldl (fun (acc : Bool × Nat) u => (acc.1 && acc.2 ≤ u && u < range, u + 1)) (true, last)).1
    match decodeSlivers (List.range n) blk with
    | .ok l => if ok then .ok (offs.zip l) else .error 0
    | .error c => .error c

/-- What a data packet did to its chunk: the slots, gathered bytes, a sparse part's next offset; or the cause of a
malformed packet: 1 to 4 of a sliver block (R184), 0 of anything else (R209). -/
structure Applied where
  slots : FMap Slot320
  raw : List (List Byte × Nat)
  above : Nat
  contribs : Nat := 0
  slivers : Nat := 0
  adds : Nat := 0

/-- How many of the offsets or slots given already hold a binary64 term: the additions of loose mode (R193). -/
def looseAdds (m : FMap Slot320) (is : List Nat) : Nat := (is.filter fun i => !((FMap.getD m i {}).f64.isEmpty)).length

/-- R207, R209, R212: one data packet checked and applied, from a part in progress. The binary64 contributions of a sparse
collective stand one slot per offset (log 153). -/
def applyData (x : Domain) (g : Image) (e : ChunkEntry) (t : PartRun) (k : ChunkPacket) : Except Nat Applied :=
  let c := e.coll
  let fmt := cIn g c
  let base : Applied := { slots := e.slots, raw := e.raw, above := t.above }
  let leafPart := t.kind = 1
  let fixed := cFp64 g c = 1
  let pos := ((cSet g c e.chunk).find? fun i => t.cover.contains (x.pairOf i)).getD 0
  if k.payload.length > 4096 || k.nelem = 0 then .error 0
  else if cGather g c then
    let n := perPacket fmt (cLen g c e.chunk - t.elems)
    if k.first ≠ t.elems || k.nelem ≠ n || k.payload.length ≠ inBytes fmt n then .error 0
    else .ok { base with raw := e.raw ++ [(k.payload, n)] }
  else if cSparse g c then
    let lg := cSlotsLog g c
    let range := 2 ^ cRangeLog g c
    if leafPart && cFp64 g c = 0 then
      match sparseSlivers range k.nelem t.above k.payload with
      | .error c => .error c
      | .ok l => .ok { base with
          slots := l.foldl (fun m (u, f) => addSparse lg m u f) e.slots
          above := (l.getLast?.map (·.1 + 1)).getD t.above, slivers := l.length }
    else
      match sparseEntries (sparseWidth fmt) range k.nelem t.above k.payload with
      | none => .error 0
      | some l =>
        let above := (l.getLast?.map (·.1 + 1)).getD t.above
        if cFp64 g c = 0 then
          .ok { base with
            slots := l.foldl (fun m (u, v) => addSparse lg m u (alignElem fmt (cShift g c) v 0)) e.slots
            above := above, contribs := l.length }
        else
          .ok { base with
            slots := l.foldl (fun m (u, v) => atOffset lg m u fun x => x.add64 fixed pos v) e.slots
            above := above, adds := if fixed then 0 else looseAdds (byOffset e.slots) (l.map (·.1)) }
  else
    let len := cLen g c e.chunk
    if k.first ≠ t.elems || len < t.elems + k.nelem then .error 0
    else if cFp64 g c ≠ 0 then
      if k.nelem ≠ min 512 (len - t.elems) || k.payload.length ≠ 8 * k.nelem then .error 0
      else
        let vs := (List.range k.nelem).map fun i => le k.payload (8 * i) 8
        .ok { base with
          slots := addDense64 e.slots fixed k.first pos vs
          adds := if fixed then 0 else looseAdds e.slots ((List.range k.nelem).map (k.first + ·)) }
    else if leafPart then
      match decodeSlivers ((List.range k.nelem).map (k.first + ·)) k.payload with
      | .error c => .error c
      | .ok l => .ok { base with slots := addDense e.slots k.first l, slivers := l.length }
    else
      let n := perPacket fmt (len - t.elems)
      if k.nelem ≠ n || k.payload.length ≠ inBytes fmt n then .error 0
      else .ok { base with slots := addDense e.slots k.first (alignAll fmt (cShift g c) n k.payload), contribs := n }

/-! ### Failing a chunk (R184, R209) -/

def State.wide (s : State) (a n : Nat) : State := s.count { evK a with wide := true } n

/-- A chunk fails with a code: its slots return, the crown hears TENANT_FAULT. -/
def State.failChunk (s : State) (ix : Nat) (code : Code) : State :=
  match FMap.find? s.ks.chunks ix with
  | some e =>
    let s1 := s.modChunk ix fun z =>
      { z with state := 3, parts := [], parked := [], waiting := false, out := [], raw := [] }
    (((s1.freeSlots ix).count (evK 0x150024)).tagEnd e.tag true).ksTenantFault e.domain code (some e.step)
  | none => s

/-- R209: a malformed part. -/
def State.partBad (s : State) (ix : Option Nat) (d step sender port : Nat) : State :=
  let s1 := match ix with
    | some i => s.failChunk i 0x4004
    | none => s.ksTenantFault d 0x4004 (some step)
  s1.report .kresia 0x4004 [sender] (port := port) (subject := some sender) (domain := some d)

/-- R184: a malformed sliver block, with its cause. -/
def State.sliverBad (s : State) (ix d sender port cause : Nat) : State :=
  ((s.count (evK 0x14001C)).failChunk ix 0x4001).report .kresia 0x4001 [sender, cause] (port := port)
    (subject := some (2 ^ 20 + sender % 2 ^ 20)) (domain := some d)

/-! ### Leaf parts (R206, R207, R210) -/

/-- R206: a set of pairs as GROUP and PORTMAP. -/
def mapOf (l : List Nat) : BitVec 128 := l.foldl (fun b q => b ||| (1 <<< (q % 128))) 0
def coverOf (group : Nat) (m : BitVec 128) : List Nat :=
  ((List.range 128).filter m.getLsbD).map fun p => group * 128 + p

/-- R207: slivers cut into packets of at most 4,096 bytes, each element with its bytes without the head of `per`. -/
def cutSlivers (per : Nat) : Nat → List (Nat × Felt) → List (Nat × Felt) → Nat → List (List (Nat × Felt))
  | 0, _, acc, _ => if acc.isEmpty then [] else [acc]
  | _ + 1, [], acc, _ => if acc.isEmpty then [] else [acc]
  | fuel + 1, (o, f) :: t, acc, used =>
    let need := per + (if (encodeSliver f o).2.isSome then 48 else 0)
    if 4096 < used + need then acc :: cutSlivers per fuel t [(o, f)] need
    else cutSlivers per fuel t (acc ++ [(o, f)]) (used + need)

/-- R212: the block of a sparse leaf packet. -/
def sparseBlock (l : List (Nat × Felt)) : List Byte :=
  let es := (List.range l.length).zip l |>.map fun (i, (u, f)) => (u, encodeSliver f i)
  (es.flatMap fun (u, (n, _)) => leBytes 4 u ++ leBytes 16 n) ++ es.flatMap fun (_, (_, w)) => w.getD []

/-- R207, R210: the data packets of a leaf part: (first, nelem, payload), with the slivers and escapes encoded. In loose
mode they carry binary64 partials; those of a sparse collective as entries of an offset and a partial (log 153). -/
def leafData (g : Image) (e : ChunkEntry) : List (Nat × Nat × List Byte) × Nat × Nat :=
  if cSparse g e.coll && cFp64 g e.coll = 2 then
    ((piecesOf 341 (e.slots.length + 1) (byOffset e.slots)).map fun p =>
      (0, p.length, p.flatMap fun (u, x) => leBytes 4 u ++ leBytes 8 (x.sum64 false).1), 0, 0)
  else if cSparse g e.coll then
    let l := touched e.slots
    let ps := cutSlivers 20 (l.length + 1) l [] 0
    (ps.map fun p => (0, p.length, sparseBlock p), l.length,
      (l.filter fun (u, f) => (encodeSliver f u).2.isSome).length)
  else
    let len := cLen g e.coll e.chunk
    if cFp64 g e.coll = 2 then
      ((piecesOf 512 (len + 1) (List.range len)).map fun p =>
        (p.head?.getD 0, p.length, p.flatMap fun i => leBytes 8 ((FMap.getD e.slots i {}).sum64 false).1), 0, 0)
    else
      let l := (List.range len).map fun i => (i, (FMap.getD e.slots i {}).felt)
      let ps := cutSlivers 16 (l.length + 1) l [] 0
      (ps.map fun p => ((p.head?.getD (0, ⟨0, {}⟩)).1, p.length, encodeBlock p), l.length,
        (l.filter fun (u, f) => (encodeSliver f u).2.isSome).length)

/-- R205 to R207: the packets of a part: the header, then the data. -/
def partPackets (hd : ChunkPacket) (data : List (Nat × Nat × List Byte)) : List ChunkPacket :=
  let n := data.length
  { hd with pkt := 0, packets := n, bytes := sumBy data fun (_, _, b) => b.length, last := n = 0 } ::
    ((List.range n).zip data).map fun (i, (f, ne, b)) =>
      { hd with pkt := i + 1, first := f, nelem := ne, payload := b, last := i + 1 = n, packets := 0, bytes := 0, cover := 0,
                portmap := 0, group := 0, distinct := 0, kind := 0 }

/-! ### Results at a home (R211, R215) -/

/-- What a home sends of a committed chunk, and its digests and counts: result bytes, (index, result bits) of each
element, counters by address, binary64 additions. -/
structure ChunkResult where
  bytes : List Byte
  items : List (Nat × Nat)
  bumps : Bumps := []
  rounded : Nat := 0
  adds : Nat := 0

/-- Width of a result element in bytes (R185). -/
def outWidth (fmt : Nat) : Nat :=
  if fmt = 0x1F then 48 else if fmt = 0x20 then 8 else ((outFmt fmt).map fun t => t.bits / 8).getD 1

/-- R191: the element bytes of an MX result, without the scale bytes. -/
def mxElems (bs : List Byte) : List Byte := (piecesOf 33 (bs.length + 1) bs).flatMap fun b => b.drop 1

/-- R215: the head of a sparse result of n entries. -/
def sparseHead (n : Nat) : List Byte := leBytes 4 n ++ List.replicate 60 0

/-- R185 to R193, R211, R215: the result of a committed chunk. -/
def chunkResult (g : Image) (e : ChunkEntry) : ChunkResult :=
  let c := e.coll
  let k := e.chunk
  let base := cBase g c k
  let fmt := fullF g c 17 1
  let rd (l : List (Nat × Nat × Felt)) := roundChunk fmt (cRound g c) (imgSeed g) e.step c l
  if cGather g c then
    let f := cIn g c
    let w := max 1 ((inBits f).getD 8)
    let bs := (e.raw.flatMap fun (b, n) => b.take (areaBytes f n)) ++ e.raw.flatMap fun (b, n) => b.drop (areaBytes f n)
    { bytes := bs, items := (List.range (cLen g c k)).map fun i => (base + i, elemBits bs w i) }
  else if cFp64 g c ≠ 0 then
    let sparse := cSparse g c
    let from' : List (Nat × Slot320) :=
      if sparse then byOffset e.slots else (List.range (cLen g c k)).map fun i => (i, FMap.getD e.slots i {})
    let vs := from'.map fun (i, x) => (i, x.sum64 (cFp64 g c = 1))
    { bytes := (if sparse then sparseHead vs.length else []) ++
        vs.flatMap fun (i, v, _) => (if sparse then leBytes 4 i else []) ++ leBytes 8 (canon64 v)
      items := vs.map fun (i, v, _) => (base + i, canon64 v), adds := sumBy vs (·.2.2), rounded := vs.length }
  else if cSparse g c then
    let l := touched e.slots
    let each := l.map fun (u, f) => (u, rd [(base + u, u, f)])
    { bytes := sparseHead l.length ++ each.flatMap fun (u, (b, _)) => leBytes 4 u ++ b
      items := each.map fun (u, (b, _)) => (base + u, le b 0 (min 8 b.length))
      bumps := each.flatMap fun (_, (_, x)) => x, rounded := l.length }
  else
    let n := cLen g c k
    let (bs, bumps) := rd ((List.range n).map fun i => (base + i, i, (FMap.getD e.slots i {}).felt))
    let w := outWidth fmt
    let elems := if fmt = 0x08 || fmt = 0x09 then mxElems bs else bs
    { bytes := bs, items := (List.range n).map fun i => (base + i, le elems (i * w) (min 8 w)), bumps := bumps, rounded := n }

/-- R347: the SUMS terms of a fulled chunk. -/
def sumsOf (g : Image) (e : ChunkEntry) : List (List Nat) :=
  let base := cBase g e.coll e.chunk
  if cGather g e.coll || cFp64 g e.coll ≠ 0 then []
  else if cSparse g e.coll then (touched e.slots).flatMap fun (u, f) => sumTerms e.step e.coll (base + u) f
  else (List.range (cLen g e.coll e.chunk)).flatMap fun i =>
    sumTerms e.step e.coll (base + i) (FMap.getD e.slots i {}).felt

def keptKey (d c k : Nat) : Nat := (d * 2 ^ 12 + c) * 2 ^ 24 + k

/-- R211, R282: a chunk's result to every destination, then CHUNK_DONE to every position of the set. -/
def State.sendResult (s : State) (d : Nat) (g : Image) (c k step : Nat) (bs : List Byte) : State :=
  let x := s.dom d
  let s1 := (x.membersAt (cDest g c k)).foldl (fun s m => s.startJob
    { what := 1, receiver := m, domain := d, cls := 3, addr := cDstAddr g c + k * cOutBytes g c (cChunkElems g c),
      sigObj := cLobj g c, data := padCells bs, rec' := c, chunk := k, step := step }) s
  s1.sendMembers d (x.membersAt (cSet g c k)) k (.chunkNote (.done d x.epoch (step % 65536) c k))

/-- R211, R242, R347: a result's first sending: kept for the replay, digested, and the chunk closed in the home's
window. -/
def State.finishHome (s : State) (ix : Nat) (e : ChunkEntry) (g : Image) (bs : List Byte) (items : List (Nat × Nat)) : State :=
  let d := e.domain
  let s1 := s.cupAdd d e.step 1 (items.map fun (i, v) => cupTerm 1 e.step e.coll i 0 v)
  let s2 := s1.sendResult d g e.coll e.chunk e.step bs
  let s3 := s2.modKs fun k => { k with kept := FMap.set k.kept (keptKey d e.coll e.chunk) ⟨e.step, (s.dom d).epoch, bs⟩ }
  (s3.dropChunk ix false).closeChunk g d e.coll e.chunk 1 e.step e.restart

/-- R170, R220: a replay's contribution to a committed chunk brings its stored result once more, once an epoch. -/
def State.replayResult (s : State) (d : Nat) (g : Image) (c k step : Nat) : State :=
  let x := s.dom d
  match FMap.find? s.ks.kept (keptKey d c k) with
  | some r =>
    if r.step = step && r.epoch < x.epoch then
      ((s.modKs fun q => { q with kept := FMap.set q.kept (keptKey d c k) { r with epoch := x.epoch } }).sendResult d g c k step
        r.bytes).count (evK 0x150038)
    else s
  | none => s

/-! ### Commits (R210) -/

/-- R208: packets of a leaf for the home of its chunk, held until the home has admitted it. -/
def State.toHome (s : State) (ix : Nat) (g : Image) (e : ChunkEntry) (ps : List ChunkPacket) : State :=
  let h := homeOf (s.dom e.domain).moves g e.coll e.chunk e.step
  match FMap.find? s.ks.chunks ix with
  | some z =>
    if z.out.isEmpty && s.homeAdmits g e.domain e.coll e.chunk e.step then
      ps.foldl (fun s p => s.sendChunk h p) s
    else s.modChunk ix fun z => { z with out := z.out ++ ps }
  | none => s

/-- R195, R208: a leaf's entry whose part has left closes. -/
def State.closeLeaf (s : State) (ix : Nat) (g : Image) : State :=
  match FMap.find? s.ks.chunks ix with
  | some e =>
    if e.state = 2 && e.out.isEmpty then
      (s.dropChunk ix false).closeChunk g e.domain e.coll e.chunk 0 e.step e.restart
    else s
  | none => s

/-- R195, R210: a leaf's commit. Its slots return when its last packet has left, as the entry closes. -/
def State.commitLeaf (s : State) (ix : Nat) (g : Image) (e : ChunkEntry) : State :=
  let cov := e.covered.filter fun q => !e.passed.contains q
  let s1 := ((s.count (evK 0x15003C)).tagStage e.tag 2).modChunk ix fun z => { z with state := 2 }
  if e.role = 2 || cov.isEmpty then s1.closeLeaf ix g
  else
    let (data, n, w) := leafData g e
    let hd : ChunkPacket :=
      { domain := e.domain, epoch := e.epoch, step := e.step % 65536, coll := e.coll, chunk := e.chunk, restart := e.restart,
        role := 1, sender := s.ksId, pkt := 0, kind := 1, group := leafGroup s.ksId, portmap := mapOf cov, cover := cov.length,
        distinct := if cSparse g e.coll then sumBy data (·.2.1) else 0 }
    let s2 := (s1.wide 0x140010 n).count (evK 0x140018) w
    (s2.toHome ix g e (partPackets hd data)).closeLeaf ix g

/-- R210, R211, R241: a home's commit. -/
def State.commitHome (s : State) (ix : Nat) (g : Image) (e : ChunkEntry) : State :=
  let d := e.domain
  let s1 := (((s.count (evK 0x15003C)).sample .kresia 0xF0182 (Raw.diff (s.raw .kresia) e.opened) (dom := some d)).tagStage e.tag 2).modChunk
    ix fun z => { z with state := 2, parts := [], parked := [] }
  let s2 := if e.quorum ≠ 0 && !sameSet e.covered e.expected then s1.markVaried d e.step 1 else s1
  let s3 := s2.cupAdd d e.step 2 (sumsOf g e)
  if cBlocked g e.coll then s3.enqueueBlock d g e.coll e.chunk e.step
  else
    let r := chunkResult g e
    let s4 := ((r.bumps.foldl (fun s a => s.count (evK a)) s3).wide 0x140020 r.rounded).count (evK 0x140040) r.adds
    s4.finishHome ix e g r.bytes r.items

/-- R209, R210: an entry commits when what it has covered is what it expects. An entry of a leaf whose ports have all left
closes with nothing sent. -/
def State.tryCommit (s : State) (ix : Nat) (g : Image) : State :=
  match FMap.find? s.ks.chunks ix with
  | some e =>
    let ready := if e.quorum ≠ 0 then e.quorum ≤ e.covered.length else sameSet e.covered e.expected
    if e.state ≠ 1 || e.waiting || !ready then s
    else if e.role = 1 then s.commitHome ix g e
    else if e.expected.isEmpty then (s.modChunk ix fun z => { z with state := 2 }).closeLeaf ix g
    else s.commitLeaf ix g e
  | none => s

/-! ### Restarts (R218) -/

/-- R218: a home restarts an open chunk, or fails it at the limit. -/
def State.restartChunk (s : State) (ix : Nat) (g : Image) (lost : Nat) : State :=
  match FMap.find? s.ks.chunks ix with
  | some e =>
    if e.state ≠ 1 then s
    else if e.restart = 15 then s.failChunk ix 0x4005
    else
      let x := s.dom e.domain
      let n := ChunkNote.restart (2 ^ 20 + s.ksId) e.domain x.epoch (e.step % 65536) e.coll e.chunk (e.restart + 1) 0x4008 lost
      let leaves := ((cSet g e.coll e.chunk).map fun i => (x.pos i).e.group).eraseDups.map fun gr =>
        ksIdOf (gr / 1024 % 4) (gr / 64 % 16) (ksPlane s.ksId) (gr % 64)
      (((s.resetChunk g ix (e.restart + 1)).count (evK 0x150020)).emit (.send .kresia (.kresias leaves) (.chunkNote n))).sendMembers
        e.domain (x.membersAt (cSet g e.coll e.chunk)) e.chunk (.chunkNote n)
  | none => s

/-- R218, R221: a CHUNK_FAIL notice of a leaf to the home of a chunk. -/
def State.failNote (s : State) (g : Image) (d c k step restart lost : Nat) : State :=
  let x := s.dom d
  s.emit (.send .kresia (.node (2 ^ 20 + homeOf x.moves g c k step)) (.chunkNote
    (.fail (2 ^ 20 + s.ksId) d x.epoch (step % 65536) c k restart lost)))

/-- R218: a leaf that can no longer complete a claimed part tells the home. -/
def State.leafFail (s : State) (g : Image) (e : ChunkEntry) (lost : Nat) : State :=
  s.failNote g e.domain e.coll e.chunk e.step e.restart lost

/-- R221: a Baxel 2.x at position i has lost this plane in one open instance: each chunk of the plane in which it has a part that
has neither begun nor passed here fails at its home; a part in progress fails with its port (R218). -/
def State.v2LostIn (s : State) (d i lost : Nat) (n : Inst) : State :=
  let x := s.dom d
  let done (c k : Nat) : Bool := FMap.has (s.window d c 0 n.step).closed k || (match s.findChunk d c k n.step false with
    | some (_, e) => e.claimed.contains (x.pairOf i)
    | none => false)
  (List.range (collCount n.image)).foldl (fun s c =>
    ((chunksWhere x.moves n.image c n.step fun h => ksPlane h = ksPlane s.ksId).filter fun k =>
      (cSet n.image c k).contains i && !done c k).foldl (fun s k => s.failNote n.image d c k n.step 0 lost) s) s

/-- R221: a Baxel 2.x has lost this plane. -/
def State.v2Lost (s : State) (member : Nat) : State :=
  s.ks.doms.foldl (fun s (d, x) =>
    match x.positions.findIdx? fun p => p.e.member = member && p.e.v2 with
    | some i => x.insts.foldl (fun s n => s.v2LostIn d i member n) s
    | none => s) s

/-! ### Packets (R209) -/

/-- R206, R209: the cover of a part's header: of a member part at its leaf, the port it came by. Answers none for a header
that breaks R206. -/
def State.headerCover (s : State) (e : ChunkEntry) (port : Nat) (k : ChunkPacket) : Option (List Nat) :=
  if e.role ≠ 1 then (if k.kind = 0 && k.role = 0 then some [leafGroup s.ksId * 128 + port] else none)
  else
    let cov := coverOf k.group k.portmap
    let fits := (k.role = 0 && k.kind = 2) || (k.role = 1 && k.kind = 1) || (k.role = 2 && k.kind = 3)
    if fits && !cov.isEmpty && cov.length = k.cover && cov.all e.expected.contains then some cov else none

/-- R214: the slots free for a sparse part: those neither touched nor promised to parts in progress. -/
def sparseFree (g : Image) (e : ChunkEntry) : Nat :=
  2 ^ cSlotsLog g e.coll - e.slots.length - sumBy e.parts fun (_, t) => if t.kind = 2 && e.role ≠ 1 then 0 else t.distinct - t.elems

/-- The key of a sender among a chunk's parts. -/
def senderKey (k : ChunkPacket) : Nat := if k.role = 1 then 2 ^ 20 + k.sender else k.sender

/-- R192, R196, R210, R214: a member part's packet forwarded unreduced; counted where the collective is in pass-through. -/
def State.passOn (s : State) (ix : Nat) (g : Image) (e : ChunkEntry) (port : Nat) (k : ChunkPacket) : State :=
  let s1 := if cGather g e.coll || e.role ≠ 2 then s else s.count (evK 0x140044) k.nelem
  s1.toHome ix g e [if k.pkt = 0 then { k with kind := 2, group := leafGroup s.ksId, portmap := 1 <<< port, cover := 1 } else k]

/-- R209: a header at an open entry. -/
def State.takeHeader (s : State) (ix : Nat) (g : Image) (e : ChunkEntry) (port : Nat) (k : ChunkPacket) : State :=
  let id := senderKey k
  if FMap.has e.parts id then s.count (evK 0x150014)
  else match s.headerCover e port k with
    | none => s.partBad (some ix) e.domain e.step k.sender port
    | some v =>
      let late := e.quorum ≠ 0 && e.quorum ≤ e.claimed.length
      if late || v.any e.claimed.contains then
        (s.count (evK (if late then 0x15002C else 0x150010))).modChunk ix fun z =>
          { z with discarded := id :: z.discarded.filter (· ≠ id) }
      else if !(v.all e.expected.contains) then s.count (evK 0x150010)
      else
        let short := cSparse g e.coll && e.role ≠ 2 && sparseFree g e < k.distinct
        if short && e.role = 1 then s.failChunk ix 0x4006
        else
          let pass := e.role = 2 || short
          let t : PartRun :=
            { cover := v, kind := if pass then 2 else k.kind, port := port, packets := k.packets, bytes := k.bytes,
              distinct := k.distinct, lastRaw := s.raw .kresia }
          let s1 := (s.modChunk ix fun z =>
            { z with
              claimed := z.claimed ++ v
              parts := FMap.set z.parts id t
              discarded := z.discarded.filter (· ≠ id)
              passed := if short then z.passed ++ v else z.passed }).tagStage e.tag 1
          let s2 := if short then s1.count (evK 0x150034) else s1
          let s3 := if pass then s2.passOn ix g e port k else s2
          if k.packets = 0 then
            (s3.modChunk ix fun z => { z with covered := z.covered ++ v, parts := FMap.erase z.parts id }).tryCommit ix g
          else s3

/-- R209: a data packet at an open entry. -/
def State.takeData (s : State) (ix : Nat) (g : Image) (e : ChunkEntry) (port : Nat) (k : ChunkPacket) : State :=
  let id := senderKey k
  match FMap.find? e.parts id with
  | none => s.count (evK 0x150014)
  | some t =>
    if k.pkt < t.next then s.count (evK 0x150014)
    else if t.next < k.pkt then s.count (evK 0x150018)
    else
      let pass := t.kind = 2 && e.role ≠ 1
      let res : Except Nat Applied := match applyData (s.dom e.domain) g e t k with
        | .ok a => .ok (if pass then { slots := e.slots, raw := e.raw, above := a.above } else a)
        | .error c => .error c
      match res with
      | .error 0 => s.partBad (some ix) e.domain e.step k.sender port
      | .error c => s.sliverBad ix e.domain k.sender port c
      | .ok a =>
        let t1 := { t with
          next := t.next + 1, got := t.got + k.payload.length, elems := t.elems + k.nelem, above := a.above
          lastRaw := s.raw .kresia }
        let want := if cSparse g e.coll then t.distinct else cLen g e.coll e.chunk
        if (k.last && (t1.got ≠ t.bytes || k.pkt ≠ t.packets || t1.elems ≠ want)) || (!k.last && t.packets ≤ k.pkt) then
          s.partBad (some ix) e.domain e.step k.sender port
        else
          let s1 := s.modChunk ix fun z =>
            { z with
              slots := a.slots
              raw := a.raw
              parts := if k.last then FMap.erase z.parts id else FMap.set z.parts id t1
              covered := if k.last then z.covered ++ t.cover else z.covered }
          let s2 := ((s1.wide 0x140000 a.contribs).wide 0x140008 a.slivers).count (evK 0x140040) a.adds
          let s3 := if pass then s2.passOn ix g e port k else s2
          if k.last then s3.tryCommit ix g else s3

/-- R209: whether a packet comes from a fenced member. -/
def State.fencedPart (s : State) (k : ChunkPacket) : Bool := (k.role = 0 || k.role = 2) && s.isFenced k.sender

/-- R209: a packet at the entry of its chunk. -/
def State.atEntry (s : State) (ix : Nat) (g : Image) (e0 : ChunkEntry) (port : Nat) (k : ChunkPacket) : State :=
  let s0 := if e0.restart < k.restart then s.resetChunk g ix k.restart else s
  match FMap.find? s0.ks.chunks ix with
  | none => s0
  | some e =>
    if k.restart < e.restart then s0.count (evK 0x15001C)
    else if e.state = 3 then s0.count (evK 0x140048)
    else if e.state = 2 then
      let s1 := s0.count (evK 0x150014)
      if k.pkt = 0 then s1.count (evK 0x150010) else s1
    else if s0.fencedPart k then s0.count (evK 0x150028)
    else if e.waiting then s0.modChunk ix fun z => { z with parked := z.parked ++ [(port, k)] }
    else if k.pkt = 0 then s0.takeHeader ix g e port k
    else s0.takeData ix g e port k

/-- R209: the role of a packet here: 1 at a home; at a leaf 2 where it forwards parts unreduced, else 0. -/
def packetRole (g : Image) (c : Nat) (home : Bool) : Nat := if home then 1 else if cPass g c then 2 else 0

/-- R209, R220: a packet for an entry of this Kresia, as home or as leaf. -/
def State.ownPacket (s : State) (g : Image) (step : Nat) (home : Bool) (port : Nat) (k : ChunkPacket) : State :=
  let d := k.domain
  let x := s.dom d
  let s0 := if home && k.role = 2 && k.pkt = 0 then s.count (evK 0x150030) else s
  let open' (s : State) : State :=
    if s.fencedPart k then s.count (evK 0x150028)
    else
      let (s1, ix) := s.openChunk g d k.coll k.chunk step k.restart (packetRole g k.coll home)
      match FMap.find? s1.ks.chunks ix with
      | some e => s1.atEntry ix g e port k
      | none => s1
  let role := if home then 1 else 0
  match s0.findChunk d k.coll k.chunk step home with
  | some (ix, e) =>
    if e.state = 3 && e.epoch < x.epoch then open' (s0.modKs fun q => { q with chunks := FMap.erase q.chunks ix })
    else s0.atEntry ix g e port k
  | none => match FMap.find? (s0.window d k.coll role step).closed k.chunk with
    | some r =>
      if k.restart < r then s0.count (evK 0x15001C)
      else if r < k.restart && !home then
        let w := s0.window d k.coll 0 step
        open' (s0.setWindow d k.coll 0 step { w with closed := FMap.erase w.closed k.chunk })
      else
        let s1 := s0.count (evK 0x150014)
        if k.pkt = 0 then
          let s2 := s1.count (evK 0x150010)
          if home then s2.replayResult d g k.coll k.chunk step else s2
        else s1
    | none => open' s0

/-- R103, R220: a newer epoch taken from a packet. -/
def State.newerEpoch (s : State) (d epoch step : Nat) : State :=
  ((s.endEpoch d epoch).modDom d fun x => { x with seq := if x.isCrown then x.seq else 0 }).voidInst d step

/-- R209, R217, R220: a chunk packet at a Kresia. -/
def State.chunkPacket (s : State) (port : Nat) (k : ChunkPacket) : State :=
  let d := k.domain
  let x := s.dom d
  let step := x.fullStep k.step
  match x.imageFor step with
  | none => s.count (evK 0x15001C)
  | some g =>
    if k.epoch < x.epoch then s.count (evK 0x15001C)
    else
      let s0 := if x.epoch < k.epoch then s.newerEpoch d k.epoch step else s
      if collCount g ≤ k.coll || cChunks g k.coll ≤ k.chunk then s0.partBad none d step k.sender port
      else
        let h := homeOf x.moves g k.coll k.chunk step
        let leaf := k.role = 0 && !s.isSpine && port < 128 && ksPlane h = ksPlane s.ksId
        let old : Bool := match x.lastTamp with
          | some (t, _) => step + 1 < t
          | none => false
        if old then s0.count (evK 0x15001C)
        else if leaf then s0.ownPacket g step false port k
        else if h = s.ksId then s0.ownPacket g step true port k
        else if s0.fencedPart k then s0.count (evK 0x150028)
        else s0.sendChunk h k

/-- R217, R218, R210: a port of this Kresia leaves service: what its parts lose. -/
def State.chunkPortLeft (s : State) (port : Nat) : State :=
  s.ks.chunks.foldl (fun s (ix, e) =>
    match (s.dom e.domain).imageFor e.step with
    | none => s
    | some g =>
      if e.state ≠ 1 then s
      else
        let q := leafGroup s.ksId * 128 + port
        let lost := List.find? (fun ((_, t) : Nat × PartRun) => t.port = port) e.parts
        match lost with
        | some (id, _) =>
          if e.role = 1 then s.restartChunk ix g id else s.leafFail g e id
        | none =>
          if e.role ≠ 1 && e.expected.contains q && !e.claimed.contains q then
            (s.modChunk ix fun z => { z with expected := z.expected.filter (· ≠ q) }).tryCommit ix g
          else s) s

end Sys2Proof.Machine
end

