-- ==== Sys2Proof/Machine/Blocking.lean ====
section
/-! DEFINITION. Blocking a chunk (R190, R231, R237, R241 to R245). -/

namespace Sys2Proof.Machine

/-! ### A run -/

/-- R190: the sum of each element of a chunk in binary32, with what the rounding counts. -/
def blockSums (g : Image) (e : ChunkEntry) (seed : Nat) : List Nat × Bumps :=
  let n := cLen g e.coll e.chunk
  let base := cBase g e.coll e.chunk
  let at' := touched e.slots
  let felt (o : Nat) : Felt :=
    if cSparse g e.coll then (FMap.find? at' o).getD ⟨0, {}⟩ else (FMap.getD e.slots o {}).felt
  let (bs, bumps) := roundChunk 0x01 (cRound g e.coll) seed e.step e.coll ((List.range n).map fun o => (base + o, o, felt o))
  ((List.range n).map fun o => le bs (4 * o) 4, bumps)

/-- R231, R237: what a program makes of every element of a chunk: the values stored, and the output. -/
def blockLanes (g : Image) (c k step : Nat) (scalars : FMap Word) (set : Nat) (h : Shard) (sums : List Nat) : List Lane × List ElemEnv :=
  let prog := collProg g c
  let decl := declared prog
  let fmts : FMap Nat := decl.map fun (st, f, _) => (st, f)
  let ks : FMap Nat := (List.range 32).map fun i => (i, (FMap.getD scalars (set * 32 + i) 0).toNat)
  let env (o : Nat) (sum : Nat) : ElemEnv :=
    { sum := sum, streams := decl.map fun (st, f, _) => (st, (streamFmt f).widen (h.get st k o)), fmts := fmts, scalars := ks,
      seed := imgSeed g, step := step, rec' := c, elem := cBase g c k + o }
  let envs := (List.range sums.length).zip sums |>.map fun (o, v) => env o v
  (envs.map (runElem prog), envs)

/-- The scalar set of a collective's BLOCK entry. -/
def blockSet (g : Image) (c : Nat) : Nat :=
  match entryFor g 4 c with
  | some i => entF g i 20 4
  | none => 0

/-- R241: an engine runs a job's chunk: the values are computed, and stand until the commit. -/
def State.runBlock (s : State) (j : BlockJob) (e : ChunkEntry) : State :=
  let g := j.image
  let h := s.shard (shardKey j.domain j.coll false false)
  let (sums, bumps) := blockSums g e (imgSeed g)
  let (ls, envs) := blockLanes g j.coll j.chunk j.step j.scalars (blockSet g j.coll) h sums
  let out := (ls.zip envs).map fun (l, v) => (l.stored, (l.output v).1)
  let counts := ls.foldl (fun (a : List Nat) l => a.zipWith (· + ·) l.counts) [0, 0, 0, 0, 0]
  let j' := { j with running := true, lanes := out, counts := counts }
  let s1 := s.modKs fun k => { k with blockQ := k.blockQ.map fun q => if q = j then j' else q }
  if j.running then s1 else bumps.foldl (fun s a => s.count (evK a)) s1

/-- R323, R241: whether a copy of a shard to a target has still to read a chunk. -/
def State.fillAhead (s : State) (d c k : Nat) : Bool :=
  let h := s.shard (shardKey d c false false)
  let is (j : SendJob) : Bool := j.what = 9 && j.domain = d && j.rec' = c && j.chunk = k
  h.fillTarget.isSome && h.fillLeft.contains k && !h.fillAcked.contains k &&
  !(s.ks.jobs.any (fun (_, j) => is j) || s.ks.waitJobs.any is)

/-- R241, R323: whether a chunk's previous block is mirrored at every partner and read by every checkpoint and copy in progress. -/
def State.blockFree (s : State) (j : BlockJob) : Bool :=
  let prev := FMap.find? (s.shard (shardKey j.domain j.coll false false)).blockStep j.chunk
  let mirrors := [0, 2].all fun mode => match prev, mirrorEntry j.image j.coll mode with
    | some st, some i => !entRuns j.image i st || s.mirrored j.domain j.coll j.chunk st mode
    | _, _ => true
  mirrors && !(s.ks.ckpts.any fun q => q.domain = j.domain && q.coll = j.coll && q.left.contains j.chunk) &&
  !s.fillAhead j.domain j.coll j.chunk

/-- R241: whether a job stands before another in the queue. -/
def blockBefore (a b : BlockJob) : Bool :=
  let d := Raw.diff a.entered b.entered
  d < 0 || (d = 0 && (a.domain < b.domain || (a.domain = b.domain && a.chunk < b.chunk)))

/-- The first job of a list under R241. -/
def firstJob : List BlockJob → Option BlockJob
  | [] => none
  | a :: t => match firstJob t with
    | none => some a
    | some b => if blockBefore b a then some b else some a

/-- The committed entry whose felt slots hold a job's sums. -/
def State.jobEntry (s : State) (j : BlockJob) : Option (Nat × ChunkEntry) := s.findChunk j.domain j.coll j.chunk j.step true

/-- BLOCK_START (R241): an engine that waited with its chunk goes on; else an idle engine takes the first chunk queued, and
waits with it where a mirror or checkpoint is still outstanding. -/
def execBlockStart (s : State) : Answer :=
  let waiting := s.ks.blockQ.filter fun j => j.waited && !j.running
  match waiting.find? s.blockFree with
  | some j => match s.jobEntry j with
    | some (_, e) => .next (s.runBlock j e)
    | none => .next s
  | none =>
    if 64 ≤ (s.ks.blockQ.filter fun j => j.running || j.waited).length then .next s
    else match firstJob (s.ks.blockQ.filter fun j => !j.running && !j.waited) with
      | none => .next s
      | some j =>
        if s.blockFree j then match s.jobEntry j with
          | some (_, e) => .next (s.runBlock j e)
          | none => .next s
        else
          let upd := s.ks.blockQ.map fun q => if q = j then { q with waited := true } else q
          .next ((s.modKs fun k => { k with blockQ := upd }).count (evK 0x160030))

/-! ### Commit (R242) -/

/-- The running job of a chunk. -/
def State.runningJob (s : State) (d c k : Nat) : Option BlockJob :=
  s.ks.blockQ.find? fun j => j.running && j.domain = d && j.coll = c && j.chunk = k

/-- R242: the values a job computed become the shard's. -/
def Shard.commit (h : Shard) (j : BlockJob) (outReg : Bool) : Shard :=
  let h1 := ((List.range j.lanes.length).zip j.lanes).foldl (fun (h : Shard) ((o, (st, out)) : Nat × FMap Nat × Nat) =>
    let h2 := st.foldl (fun (h : Shard) ((n, v) : Nat × Nat) => h.put n j.chunk o v) h
    if outReg then h2.put 8 j.chunk o out else h2) h
  { h1 with blockStep := FMap.set h1.blockStep j.chunk j.step }

/-- R347: the STATE terms of a block. -/
def stateTerms (g : Image) (j : BlockJob) (h : Shard) : List (List Nat) :=
  let base := cBase g j.coll j.chunk
  (List.range j.lanes.length).flatMap fun o =>
    (((declared (collProg g j.coll)).filter fun (_, _, a) => a ≠ 0).map fun (st, _, _) =>
      cupTerm 0 j.step j.coll (base + o) st (h.get st j.chunk o))

/-- R321: a block of a step that has sealed meanwhile gives the sealed output at once. -/
def Shard.sealLate (h : Shard) (g : Image) (j : BlockJob) (sealed : Bool) : Shard :=
  if sealed then { h with sealedOut := FMap.set h.sealedOut j.chunk (j.step, h.outOf g j.coll j.chunk j.step) } else h

/-- R242, R323: the mirrors, checkpoints and copies that waited for a block. -/
def State.afterBlock (s : State) (g : Image) (j : BlockJob) : State :=
  let s1 := [0, 2].foldl (fun (s : State) mode => match mirrorEntry g j.coll mode with
    | some i => if s.hasIssued j.domain j.step (some i) then s.mirrorNow j.domain g j.coll j.chunk j.step mode i else s
    | none => s) s
  ((s1.pumpCkpts 1).pumpFill j.domain j.coll).pumpShardReads

/-- R242: what a commit stores, counts and samples, before the chunk goes on. -/
def State.commitBlock (s : State) (j : BlockJob) : State :=
  let g := j.image
  let key := shardKey j.domain j.coll false false
  let sealed : Bool := match (s.dom j.domain).lastTamp with
    | some (st, _) => j.step < st
    | none => false
  let s1 := (s.modKs fun k => { k with blockQ := k.blockQ.erase j }).modShard key fun h =>
    (h.commit j (outReg (collProg g j.coll))).sealLate g j sealed
  let h := s1.shard key
  let s2 := ((s1.wide 0x160010 j.lanes.length).count (evK 0x160018)).cupAdd j.domain j.step 0 (stateTerms g j h)
  let s3 := ((List.range 5).zip j.counts).foldl (fun (s : State) ((i, n) : Nat × Nat) =>
    if n = 0 then s else s.count (evK (0x16001C + 4 * i)) n) s2
  s3.sample .kresia 0xF0185 (Raw.diff (s.raw .kresia) j.entered) (dom := some j.domain)

/-- R242: the output of a committed block: its values, and the same as bytes. -/
def BlockJob.items (j : BlockJob) : List (Nat × Nat) :=
  ((List.range j.lanes.length).zip j.lanes).map fun (o, (_, v)) => (cBase j.image j.coll j.chunk + o, v)
def BlockJob.outBytes (j : BlockJob) : List Byte :=
  j.items.flatMap fun (_, v) => leBytes (ofmtWidth (progOut (collProg j.image j.coll)).1) v

/-- BLOCK_COMMIT (R242): every group has run and the memory has acknowledged every store. -/
def execBlockCommit (domain coll chunk : Nat) (s : State) : Answer :=
  match s.runningJob domain coll chunk with
  | none => .next s
  | some j =>
    let s1 := s.commitBlock j
    match s1.jobEntry j with
    | none => .next (s1.afterBlock j.image j)
    | some (ix, e) => .next ((s1.finishHome ix e j.image j.outBytes j.items).afterBlock j.image j)

/-! ### Faults (R244) -/

/-- R244: a chunk whose state no partner can give back fails. -/
def State.stateLost (s : State) (d c k : Nat) (ix : Option Nat) (step : Nat) : State :=
  let s1 := match ix with
    | some i => s.failChunk i 0x5002
    | none => s.ksTenantFault d 0x5002 (some step)
  (s1.count (evK 0x160038)).report .kresia 0x5002 [d, c, k] (domain := some d)

/-- STATE_ECC_ERROR (R244): an uncorrectable error in the state a running block reads; `copy` is the intact copy of the
chunk's streams and result area that a partner gives, where one can. -/
def execStateEccError (domain coll chunk : Nat) (copy : Option (List Byte)) (s : State) : Answer :=
  match s.runningJob domain coll chunk with
  | none => .next s
  | some j => match s.jobEntry j with
    | none => .next s
    | some (ix, e) => match copy with
      | none =>
        .next ((s.modKs fun k => { k with blockQ := k.blockQ.erase j }).stateLost domain coll chunk (some ix) j.step).pumpShardReads
      | some bs =>
        let g := j.image
        let s1 := s.modShard (shardKey domain coll false false) fun h =>
          h.loadAreas chunk (cLen g coll chunk) (areasOf (collProg g coll) false) bs
        .next (((s1.runBlock j e).count (evK 0x160034)).report .kresia 0x5001 [domain, coll, chunk] (domain := some domain))

end Sys2Proof.Machine
end

