-- ==== Sys2Proof/Machine/BxReads.lean ====
section
/-! DEFINITION. What a Baxel reads from die memory for its parts and posts (R205, R253, R264, R411), line by line. -/

namespace Sys2Proof.Machine

/-- The lines of a read job. -/
def ReadJob.lines (j : ReadJob) : Nat := (j.addr % 64 + j.bytes + 63) / 64

/-- R411: reads outstanding on a port. -/
def State.readsOn (s : State) (port : Nat) : Nat := (s.bx.reads.filter fun (k, _) => k / 4096 = port).length

/-- The lines a job still asks for, each by the port of its address, while the port has room. -/
def State.askLines (s : State) (id : Nat) : Nat → State
  | 0 => s
  | n + 1 =>
    match FMap.find? s.bx.readJobs id with
    | none => s
    | some j =>
      let a := (j.addr / 64 + j.asked) * 64
      let port := if j.core then 0 else memPort a
      if j.lines ≤ j.asked || 256 ≤ s.readsOn port then s
      else State.askLines ((s.bxRead port a 1 (memTag (if j.core then none else some j.tenant)) (.job id j.asked)).modBx fun b =>
        { b with readJobs := FMap.set b.readJobs id { j with asked := j.asked + 1 } }) id n

/-- Every read job asks for what it can, in order. -/
def State.pumpReads (s : State) : State := s.bx.readJobs.foldl (fun s (id, j) => s.askLines id (j.lines - j.asked)) s

/-- A read of tenant t begins. -/
def State.startRead (s : State) (t addr bytes : Nat) (use : ReadUse) : State :=
  let id := s.bx.nextJob
  (s.modBx fun b => { b with readJobs := FMap.set b.readJobs id { tenant := t, use := use, addr := addr, bytes := bytes },
                             nextJob := id + 1 }).askLines id (bytes / 64 + 2)

/-- R374, R411: a read of the ROM or of firmware begins. -/
def State.coreRead (s : State) (addr bytes : Nat) (use : ReadUse) : State :=
  let id := s.bx.nextJob
  (s.modBx fun b => { b with readJobs := FMap.set b.readJobs id { tenant := 0, use := use, addr := addr, bytes := bytes, core := true },
                             nextJob := id + 1 }).askLines id (bytes / 64 + 2)

/-- The bytes of a job whose lines have all come. -/
def ReadJob.all (j : ReadJob) : List Byte := ((j.data.flatMap fun (_, l) => l).drop (j.addr % 64)).take j.bytes

/-! ### Transfers of a Baxel (R136, R137, R264) -/

/-- R137, R165: whether a transfer of tenant t may start now. -/
def State.bxMayStart (s : State) (t : Nat) (m : RsigSend) : Bool :=
  let g := (s.ten t).prog
  let grant := ((List.range (sec g 4).count).map fun i =>
    let o := (sec g 4).off + 4 * i
    if le g o 1 = 0 && le g (o + 1) 1 = 0 then le g (o + 2) 2 else 0).foldl (· + ·) 0
  (s.bx.sends.filter fun (_, x) => x.domain = m.domain && x.receiver = m.receiver).length < grant &&
  s.bx.sends.length + (s.bx.parts.filter fun (_, x) => x.sent).length < 8192

/-- R136, R137, R142: a transfer starts under the lowest free TRANSFER number. Its packets are spread over the planes in
service; to a Baxel 2.x, or where only Ploav 2 is left, all go on one. -/
def State.bxLaunch (s : State) (m0 : RsigSend) : State :=
  let tr := ((List.range 65536).find? fun i => !FMap.has s.bx.sends (m0.receiver * 65536 + i)).getD 0
  let m := { m0 with transfer := tr }
  let planes := s.sendPlanes
  let v2 := planes.2 || (match s.tenantOf m.domain with
    | some t => (s.ten t).v2Peers.contains m.receiver
    | none => false)
  let via := spreadOver planes.1 v2 m.count
  let x : SendTransfer :=
    { receiver := m.receiver, domain := m.domain, epoch := m.epoch, transfer := tr, opened := s.raw .baxel, cls := m.cls,
      msg := some m, via := via, v2 := v2 }
  (s.modBx fun b => { b with sends := FMap.set b.sends (m.receiver * 65536 + tr) x }).sendOnPlanes m via v2 fun _ => true

/-- R137: a transfer starts, or stalls for a tracker. -/
def State.bxSend (s : State) (t : Nat) (m : RsigSend) : State :=
  if s.bxMayStart t m && !(s.bx.waitSends.any fun (_, w) => w.receiver = m.receiver && w.domain = m.domain) then s.bxLaunch m
  else (s.modBx fun b => { b with waitSends := b.waitSends ++ [(t, m)] }).countSendStall .baxel

/-- R137: transfers that waited start, in their order. -/
def State.pumpSends (s : State) : State :=
  s.bx.waitSends.foldl (fun s (t, m) =>
    if s.bxMayStart t m then (s.modBx fun b => { b with waitSends := b.waitSends.erase (t, m) }).bxLaunch m else s) s

/-- R139, R142: one open transfer after a plane is lost: the packets sent on it go again over the planes that remain; one
confined to it starts again under a new TRANSFER. -/
def State.resendOne (s : State) (plane key : Nat) (x : SendTransfer) : State :=
  match x.msg with
  | none => s
  | some m =>
    if !x.via.contains plane then s
    else if x.v2 then (s.bxLaunch m).modBx fun b => { b with sends := FMap.erase b.sends key }
    else
      let fresh := spreadOver s.sendPlanes.1 false m.count
      let via := (List.range m.count).map fun i => if x.via.getD i 0 = plane then fresh.getD i 0 else x.via.getD i 0
      (s.modBx fun b => { b with sends := FMap.set b.sends key { x with via := via } }).sendOnPlanes m via false fun i =>
        x.via.getD i 0 = plane

/-- R139: after a plane is lost, the packets of open transfers that were sent on it go again. -/
def State.resendOpen (s : State) (plane : Nat) : State :=
  s.bx.sends.foldl (fun s (key, x) => s.resendOne plane key x) s

/-! ### Planes of a member (R13, R217) -/

/-- R202: the member's leaf in a plane. -/
def Tenant.leaf (x : Tenant) (plane : Nat) : Nat := ksIdOf (x.group / 1024 % 4) (x.group / 64 % 16) plane (x.group % 64)

/-- R169: the program of a step: the new one from STEP_FIRST on. -/
def Tenant.imageFor (x : Tenant) (step : Nat) : Image :=
  if x.priorProg.isEmpty || imgStepFirst x.prog ≤ step then x.prog else x.priorProg

/-- R219: the moves a member knows. -/
def Tenant.moved (x : Tenant) : List Moved := x.moves.map fun (k, r, e, h, st) => ⟨k, r, e, h, st⟩

end Sys2Proof.Machine
end

