-- ==== Sys2Proof/Machine/Dues.lean ====
section
/-! DEFINITION. The pending due times of a part, all in one place: what R34 reconverts at a commit and moves at
APPLY_RAW. -/

namespace Sys2Proof.Machine

/-- The due times a launch-list slot holds: the raw due (of the next bell, for a series), W, and those of a change. -/
def Slot.mapDues (f : Due → Due) (e : Slot) : Slot :=
  { e with
    dueD := e.dueD.map f
    wD := e.wD.map f
    change := e.change.map fun c => { c with at' := f c.at', w := f c.w } }

/-- Every pending due time of part p under f. -/
def State.mapDues (s : State) (p : Part) (f : Due → Due) : State :=
  let s1 := s.modPc p fun c =>
    { c with
      stamp := { c.stamp with gates := FMap.mapVals c.stamp.gates fun _ g =>
        { g with window := g.window.map fun (o, k) => (f o, f k), more := g.more.map fun (o, k) => (f o, f k) } }
      link := { c.link with gates := FMap.mapVals c.link.gates fun _ g =>
        { g with pending := g.pending.map fun (l, d) => (l, f d), next := g.next.map f } }
      ctr := { c.ctr with snapArms := c.ctr.snapArms.map fun a => { a with due := f a.due } } }
  match p with
  | .baxel => s1.modBx fun b => { b with slots := FMap.mapVals b.slots fun _ e => e.mapDues f }
  | .kresia => s1

/-- The due times whose firing R34 counts: armed launches and bells, and, as pending due times of the part too, the edges
of stamp windows, gate lists and snapshots (DESIGN CHOICE, log 123: R34 names launches, gate lists and bells as examples). -/
def State.dues (s : State) (p : Part) : List Due :=
  let c := s.pc p
  let common :=
    (c.stamp.gates.flatMap fun (_, g) => (g.window.toList ++ g.more).flatMap fun (o, k) => [o, k]) ++ (c.link.gates.flatMap fun (_, g) => (g.pending.map (·.2)).toList ++ g.next.toList) ++
      c.ctr.snapArms.map (·.due)
  match p with
  | .baxel => common ++ s.bx.slots.filterMap fun (_, e) => e.dueD
  | .kresia => common

/-- R34: how many entries straddle an application at `apply`. -/
def State.straddles (s : State) (p : Part) (apply : Raw) : Nat :=
  ((s.dues p).filter (Due.straddles apply)).length

end Sys2Proof.Machine
end

