-- ==== Sys2Proof/Machine/Tdc.lean ====
section
/-! DEFINITION. The vernier TDCs: where they are (R66), how an edge becomes a raw stamp (R67), the nominal table
(R72), and calibration (R69 to R71). -/

namespace Sys2Proof.Machine

/-- R72: the nominal entry for code k. -/
def nominalF (k : Nat) : Nat := if k < 80 then (8192 * k + 4096) / 10 else 65535

/-- R67: F[k] of a TDC. -/
def Tdc.entry (t : Tdc) (k : Nat) : Nat :=
  match t.table with
  | some l => l.getD k 65535
  | none => nominalF k

/-- R66: the highest TDC index of a part plus one. -/
def tdcCount : Part → Nat
  | .baxel => 26
  | .kresia => 540

/-- R66: indices of a port's transmit and receive TDC. -/
def tdcTx (_ : Part) (port : Nat) : Nat := port
def tdcRx : Part → Nat → Nat
  | .baxel, n => 8 + n
  | .kresia, n => 256 + n

/-- R66: TDC A of a stamp input and of a gate input. -/
def tdcStamp : Part → Nat → Nat
  | .baxel, n => 16 + 2 * n
  | .kresia, n => 520 + 2 * n
def tdcGate : Part → Nat → Nat
  | .baxel, _ => 24
  | .kresia, g => 536 + 2 * g

/-- R66: TDC A of the MGMT port's transmit direction (0: MGMT_A, 1: MGMT_B). -/
def tdcMgmtTx (m : Nat) : Nat := 512 + 4 * m
/-- R66: TDC A of its receive direction. -/
def tdcMgmtRx (m : Nat) : Nat := 514 + 4 * m

/-- R66: whether an index belongs to a port TDC (one per direction) rather than a pair. -/
def tdcOfPort : Part → Nat → Bool
  | .baxel, i => i < 16
  | .kresia, i => i < 512

/-- The port a port TDC serves. -/
def tdcPort : Part → Nat → Nat
  | .baxel, i => i % 8
  | .kresia, i => i % 256

/-- TDC A of the pair an index belongs to; pairs begin at even indices on both parts. -/
def pairA (i : Nat) : Nat := i / 2 * 2

def State.tdc (s : State) (p : Part) (i : Nat) : Tdc := FMap.getD (s.pc p).stamp.tdcs i {}
def State.modTdc (s : State) (p : Part) (i : Nat) (f : Tdc → Tdc) : State :=
  s.modStamp p fun u => { u with tdcs := FMap.update u.tdcs i {} f }

/-- R70, R71: the TDC of a pair in service: A or B as the roles stand, or the one that has not FAILED. -/
def State.inService (s : State) (p : Part) (a : Nat) : Nat :=
  let b := FMap.getD (s.pc p).stamp.serviceB a false
  let i := if b then a + 1 else a
  let j := if b then a else a + 1
  if (s.tdc p i).failed && !(s.tdc p j).failed then j else i

/-- R67: the raw stamp a TDC makes of an edge. -/
def Tdc.stamp (t : Tdc) (e : EdgeStamp) : Raw := e.enext - BitVec.ofNat 64 (t.entry e.code)

/-- R66, R69, R70: the stamp a TDC takes of an edge: none while it is disconnected for a run or once it has FAILED. -/
def Tdc.take (t : Tdc) (e : EdgeStamp) : Option Raw := if t.calibrating || t.failed then none else some (t.stamp e)

/-- R66, R70: the stamp the pair of TDC A `a` takes of an edge, with the index that took it: none while its TDC in service
calibrates in place, or with both FAILED. -/
def State.pairStamp (s : State) (p : Part) (a : Nat) (e : EdgeStamp) : Option (Nat × Raw) :=
  let i := s.inService p a
  ((s.tdc p i).take e).map fun r => (i, r)

/-- R70: a pair with both its TDCs FAILED reports at its use. -/
def State.pairDead (s : State) (p : Part) (a : Nat) : State :=
  if (s.tdc p a).failed && (s.tdc p (a + 1)).failed then s.report p 0x1012 [a] else s

/-- R53: whether a TDC of a port is calibrating. -/
def State.portCal (s : State) (p : Part) (n : Nat) : Bool :=
  (s.tdc p (tdcTx p n)).calibrating || (s.tdc p (tdcRx p n)).calibrating

/-- R72: whether both TDCs of a port have passed a run, and neither has FAILED (R70). -/
def State.portTdcOk (s : State) (p : Part) (n : Nat) : Bool :=
  let t := s.tdc p (tdcTx p n)
  let r := s.tdc p (tdcRx p n)
  t.passed && r.passed && !t.failed && !r.failed

/-- R53: how many ports of the part other than n calibrate now, and the limit. -/
def State.calPorts (s : State) (p : Part) (n : Nat) : Nat :=
  (((s.pc p).stamp.tdcs.filter fun (i, t) => tdcOfPort p i && t.calibrating && tdcPort p i ≠ n).map fun (i, _) =>
    tdcPort p i).eraseDups.length
def calPortLimit : Part → Nat
  | .baxel => 1
  | .kresia => 32

/-- R53: a Kresia calibrates at most one of its parent port and its two monitor ports at a time, so at least two of its three
candidates give a θ_p in every interval. -/
def State.calClash (s : State) (p : Part) (n : Nat) : Bool :=
  let t := (s.pc p).time
  let key := t.parent.toList ++ t.monitors
  p = .kresia && key.contains n && key.any fun q => q ≠ n && s.portCal p q

/-- R70, R71: the TDC a run on index i goes to: for a pair, the one out of service, or the only one not FAILED,
calibrated in place. -/
def State.calTarget (s : State) (p : Part) (i : Nat) : Nat :=
  if tdcOfPort p i then i
  else
    let a := pairA i
    let srv := s.inService p a
    let other := if srv = a then a + 1 else a
    if (s.tdc p other).failed then srv else other

/-- R71: whether a run on the target may start now under the concurrency limits. -/
def State.calAllowed (s : State) (p : Part) (i : Nat) : Bool :=
  if (s.tdc p i).calibrating then false
  else if tdcOfPort p i then
    s.calPorts p (tdcPort p i) < calPortLimit p && !s.calClash p (tdcPort p i)
  else s.calTarget p i = i && !(s.tdc p (if i = pairA i then i + 1 else i - 1)).calibrating

/-- R69: a run starts: the TDC is disconnected from its use. -/
def State.calStart (s : State) (p : Part) (i : Nat) : State :=
  (s.modTdc p i fun t => { t with calibrating := true, runStart := s.raw p }).modStamp p fun u =>
    { u with calQueue := u.calQueue.filter (· ≠ i) }

/-- R71: one run falls due on a TDC: it starts, or waits once behind the runs in progress and, in a pair, until the
TDC is out of service. -/
def State.calDue (s : State) (p : Part) (i : Nat) : State :=
  if s.calAllowed p i then s.calStart p i
  else if (s.pc p).stamp.calQueue.contains i then s
  else s.modStamp p fun u => { u with calQueue := u.calQueue ++ [i] }

/-- R71: a trigger on a TDC. On a pair the run goes to the TDC out of service, and the other follows when the two
have exchanged roles. -/
def State.calTrigger (s : State) (p : Part) (i : Nat) : State :=
  if tdcOfPort p i then s.calDue p i
  else
    let k := s.calTarget p i
    let other := if k = pairA k then k + 1 else k - 1
    let s1 := s.calDue p k
    if (s.tdc p other).failed then s1 else s1.calDue p other

/-- R71: the queued runs that may start now. -/
def State.calDrain (s : State) (p : Part) : State :=
  (s.pc p).stamp.calQueue.foldl (fun s i => if s.calAllowed p i then s.calStart p i else s) s

/-- R69: hits before code k. -/
def hitsBefore (h : List Nat) (k : Nat) : Nat := (h.take k).foldl (· + ·) 0

/-- R69: the bin table a run computes. -/
def calTable (h : List Nat) (n : Nat) : List Nat :=
  (List.range 96).map fun k => (2 * hitsBefore h k + h.getD k 0) * 65536 / (2 * n) % 65536

/-- R70: the highest code with a hit. -/
def calK (h : List Nat) : Nat := (List.range 96).foldl (fun m k => if 0 < h.getD k 0 then k else m) 0

/-- R70: the cause with which a run fails, 0 when it passes. -/
def calCause (h : List Nat) (n : Nat) : Nat :=
  let k := calK h
  if n < 2 ^ 20 then 1
  else if k < 76 || 90 < k then 2
  else if (List.range k).any fun j => h.getD j 0 = 0 || n < h.getD j 0 * 40 then 3
  else 0

/-- R70: what a failed run leaves, and the marking FAILED after three. -/
def State.calFail (s : State) (p : Part) (i cause : Nat) : State :=
  let t := s.tdc p i
  let n := t.consecFails + 1
  let s1 := (s.modTdc p i fun t =>
    { t with calibrating := false, runs := (t.runs + 1) % 65536, fails := (t.fails + 1) % 65536, consecFails := n,
             lastCode := 0x1011, cause := cause, failed := t.failed || 3 ≤ n, lastRun := some (s.raw p),
             tempLast := (s.pc p).stamp.temp }).report p 0x1011 [i, cause]
  let a := pairA i
  let pairDead := !tdcOfPort p i && (s1.tdc p a).failed && (s1.tdc p (a + 1)).failed && !t.failed
  let s2 := if pairDead then s1.report p 0x1012 [a] else s1
  (if tdcOfPort p i && 3 ≤ n then s2.setBit p (ttPort p (tdcPort p i) 0x0C) 3 true else s2).calDrain p

/-- R69, R70: a run's end with its hits. A passing run replaces the table; in a pair the two TDCs exchange roles. -/
def State.calEnd (s : State) (p : Part) (i : Nat) (h : List Nat) : State :=
  let n := hitsBefore h 96
  match calCause h n with
  | 0 =>
    let s1 := s.modTdc p i fun t =>
      { t with calibrating := false, table := some (calTable h n), passed := true, kLast := calK h,
               runs := (t.runs + 1) % 65536, consecFails := 0, lastCode := 0, cause := 0,
               lastRun := some (s.raw p), tempLast := (s.pc p).stamp.temp }
    let a := pairA i
    let s2 :=
      if tdcOfPort p i then s1
      else if (s1.tdc p (if i = a then a + 1 else a)).failed then s1
      else s1.modStamp p fun u => { u with serviceB := FMap.set u.serviceB a (i ≠ a) }
    s2.calDrain p
  | c => s.calFail p i c

/-- TDC_CAL_START (R71): firmware starts a run on a TDC of the part. -/
def execTdcCalStart (p : Part) (tdc : Nat) (s : State) : Answer :=
  .next (if tdc < tdcCount p then s.calTrigger p tdc else s)

/-- CAL_INTERVAL_EXPIRY (R71): with AUTO set, a TDC whose last run lies CAL_INTERVAL seconds back falls due. -/
def execCalIntervalExpiry (p : Part) (tdc : Nat) (s : State) : Answer :=
  let cfg := tAddr p 0x6B00
  let due := match (s.tdc p tdc).lastRun with
    | some r => (s.fld p cfg 16 16 : Int) * secGrains ≤ Raw.diff (s.raw p) r
    | none => true
  .next (if tdc < tdcCount p && s.bit p cfg 0 && due then s.calTrigger p tdc else s)

/-- TEMP_SENSOR_READ (R71): the sensor is read; every TDC whose last run was more than TEMP_STEP away falls due. -/
def execTempSensorRead (p : Part) (temp : Int) (s : State) : Answer :=
  let s1 := s.modStamp p fun u => { u with temp := temp }
  let step : Int := s.fld p (tAddr p 0x6B00) 8 8
  let dueTdcs := (List.range (tdcCount p)).filter fun i =>
    let t := s.tdc p i
    t.lastRun.isSome && step < (temp - t.tempLast).natAbs
  .next (if s.bit p (tAddr p 0x6B00) 0 then dueTdcs.foldl (fun s i => s.calTrigger p i) s1 else s1)

/-- CAL_START_WRITE (R71): CAL_CTRL.START on the TDC CAL_SEL selects. -/
def execCalStartWrite (p : Part) (s : State) : Answer :=
  let i := s.fld p (tAddr p 0x6B04) 0 10
  .next (if i < tdcCount p then s.calTrigger p i else s)

/-- TDC_CAL_DONE (R70): a run ends with its hits, code by code. -/
def execTdcCalDone (p : Part) (tdc : Nat) (hits : List Nat) (s : State) : Answer :=
  .next (if (s.tdc p tdc).calibrating then s.calEnd p tdc hits else s)

/-- TDC_CAL_SHORT (R69): 20 ms pass with fewer than 2^20 hits; the run fails with cause SHORT. -/
def execTdcCalShort (p : Part) (tdc : Nat) (s : State) : Answer :=
  .next (if (s.tdc p tdc).calibrating && 20000000 * 65536 ≤ Raw.diff (s.raw p) (s.tdc p tdc).runStart
    then s.calFail p tdc 1 else s)

end Sys2Proof.Machine
end

