-- ==== Sys2Proof/Machine/StampFamily.lean ====
section
/-! DEFINITION. Stamps, gates, frequency and the transmit-timestamp queue (R73 to R88). -/

namespace Sys2Proof.Machine

/-- Addresses of the channel, gate and frequency blocks (R88). -/
def chAddr (p : Part) (ch off : Nat) : Nat := tAddr p (0x6000 + 0x100 * ch + off)
def gtAddr (p : Part) (g off : Nat) : Nat := tAddr p (0x6800 + 0x40 * g + off)
def fqAddr (p : Part) (g off : Nat) : Nat := tAddr p (0x6900 + 0x80 * g + off)

/-- R75: channels of a part, groups of a part, the group of a channel. -/
def chanCount : Part → Nat
  | .baxel => 4
  | .kresia => 8
def groupCount : Part → Nat
  | .baxel => 1
  | .kresia => 2
def groupOf (ch : Nat) : Nat := ch / 4
def groupChans (p : Part) (g : Nat) : List Nat := (List.range (chanCount p)).filter fun c => groupOf c = g

def State.chan (s : State) (p : Part) (ch : Nat) : StampChannel := FMap.getD (s.pc p).stamp.chans ch {}
def State.modChan (s : State) (p : Part) (ch : Nat) (f : StampChannel → StampChannel) : State :=
  s.modStamp p fun u => { u with chans := FMap.update u.chans ch {} f }
def State.gate (s : State) (p : Part) (g : Nat) : StampGate := FMap.getD (s.pc p).stamp.gates g {}
def State.modGate (s : State) (p : Part) (g : Nat) (f : StampGate → StampGate) : State :=
  s.modStamp p fun u => { u with gates := FMap.update u.gates g {} f }
def State.freq (s : State) (p : Part) (g : Nat) : FreqEngine := FMap.getD (s.pc p).stamp.freqs g {}
def State.modFreq (s : State) (p : Part) (g : Nat) (f : FreqEngine → FreqEngine) : State :=
  s.modStamp p fun u => { u with freqs := FMap.update u.freqs g {} f }

/-- A counter word of a channel. -/
def evCh (p : Part) (ch off : Nat) (lo len : Nat) : Ev :=
  { part := p, addr := chAddr p ch off, base := chAddr p ch off, lo := lo, len := len }

/-! ### Queues -/

/-- R78, R80: whether a record of a channel enters its queue. -/
def State.entersQueue (s : State) (p : Part) (ch : Nat) : Bool :=
  s.bit p (chAddr p ch 0) 0 && (s.chan p ch).queue.length < 512

/-- R78, R80: a record enters the queue, or is dropped and counted while it holds 512. -/
def State.pushRec (s : State) (p : Part) (ch : Nat) (r : StampRec) : State :=
  if (s.chan p ch).queue.length < 512 then s.modChan p ch fun c => { c with queue := c.queue ++ [r] }
  else (s.setBit p (chAddr p ch 0x04) 16 true).count (evCh p ch 0x0C 0 32)

/-- R79: FLAGS of a record. -/
def recFlags (falling first uncal gap gateRec skip : Bool) : Nat :=
  (if falling then 1 else 0) + (if first then 2 else 0) + (if uncal then 4 else 0) + (if gap then 8 else 0) +
  (if gateRec then 16 else 0) + (if skip then 32 else 0) + 128

/-- R79: a record of an edge, with EDGE_SEQ, GATE_SEQ and GATE_REC. -/
def mkRec (c : StampChannel) (e : HeldEdge) (ch edgeSeq gateSeq : Nat) (gateRec : Bool) : StampRec :=
  { raw := e.raw, ot := e.ot, edgeSeq := edgeSeq, gateSeq := gateSeq,
    flags := recFlags e.falling (!gateRec && c.recs = 0) e.uncal
      (match c.prevSeq with
        | some q => edgeSeq ≠ (q + 1) % 65536
        | none => false) gateRec (!gateRec && c.skipped),
    code := e.code % 128 + (if e.tdcB then 128 else 0), state := e.state, applySeq := e.applySeq % 256,
    channel := ch }

/-- R74: whether an edge comes too soon after a recorded one: below 3.9 ns it does, from 4.0 ns it does not, between
the two the part decides. -/
def tooClose (last : Option Raw) (r : Raw) : Bool :=
  match last with
  | none => false
  | some q =>
    let d := Raw.diff r q
    if d * 10 < 39 * 65536 then true
    else if 4 * 65536 ≤ d then false
    else Config.closeChoice r.toNat

/-- R74, R79, R84: what becomes of an edge inside an opening: refused as too close, skipped by the prescaler, or
recorded. -/
inductive EdgeFate where
  | close | skip | record
  deriving DecidableEq, Repr

def edgeFate (c : StampChannel) (div : Nat) (e : HeldEdge) : EdgeFate :=
  if tooClose c.lastRecorded e.raw then .close
  else if 2 ≤ div && c.edges % div ≠ 0 then .skip
  else .record

/-- R74, R76, R79, R80: one edge inside the opening is counted, and recorded where nothing refuses it. What the next record says
of the one before it (GATE_FIRST, GAP, DIV_SKIP) is of records that entered the queue. -/
def State.takeEdge (s : State) (p : Part) (ch : Nat) (e : HeldEdge) : State :=
  let c := s.chan p ch
  let s1 := s.count (evCh p ch 0x14 0 16)
  let seq := s1.fld p (chAddr p ch 0x14) 0 16
  let up (f : StampChannel → StampChannel) (s : State) : State :=
    s.modChan p ch fun c => f { c with edges := (c.edges + 1) % 2 ^ 32 }
  match edgeFate c (s.fld p (chAddr p ch 0) 16 16) e with
  | .close => up id (s1.count (evCh p ch 0x08 0 32))
  | .skip => up (fun c => { c with skipped := true }) s1
  | .record =>
    let s2 := if s.bit p (chAddr p ch 0) 0 then s1.pushRec p ch (mkRec c e ch seq (s.fld p (gtAddr p (groupOf ch) 0x1C) 0 16) false)
              else s1
    if s.entersQueue p ch then
      up (fun c => { c with lastRecorded := some e.raw, recs := c.recs + 1, skipped := false, prevSeq := some seq }) s2
    else up (fun c => { c with lastRecorded := some e.raw }) s2

/-! ### The frequency engine -/

/-- R84: the stamps the channel would record of the edges it holds: (edge index, edge). -/
def recorded (div : Nat) : StampChannel → List HeldEdge → List (Nat × HeldEdge)
  | _, [] => []
  | c, e :: t =>
    let c' := { c with edges := (c.edges + 1) % 2 ^ 32 }
    match edgeFate c div e with
    | .close => recorded div c' t
    | .skip => recorded div c' t
    | .record => (c.edges, e) :: recorded div { c' with lastRecorded := some e.raw } t

/-- Edges in order of stamp. -/
def edgeLe (a b : HeldEdge) : Bool := Raw.diff a.raw b.raw ≤ 0

/-- R76: the edges a channel holds that lie inside the opening so far. -/
def State.heldInside (s : State) (p : Part) (ch : Nat) (close : Option Raw) : List HeldEdge :=
  let g := s.gate p (groupOf ch)
  sortBy edgeLe ((s.chan p ch).held.filter fun e => 0 ≤ Raw.diff e.raw g.tOpen &&
    (match close with
      | some c => decide (Raw.diff e.raw c < 0)
      | none => true))

/-- R83: the stamps the engine of a group has in its opening. -/
def State.freqStamps (s : State) (p : Part) (g : Nat) (close : Option Raw) : List (Nat × HeldEdge) :=
  let ch := 4 * g + s.fld p (fqAddr p g 0) 0 2
  recorded (s.fld p (chAddr p ch 0) 16 16) (s.chan p ch) (s.heldInside p ch close)

/-- a / b rounded half to even, for a positive b. -/
def roundHalfEven (a b : Int) : Int :=
  let q := a / b
  let r := a - q * b
  if 2 * r < b then q else if b < 2 * r then q + 1 else if q % 2 = 0 then q else q + 1

/-- R84: the sums of a regression. -/
structure Regression where
  n : Int
  dxx : Int
  dxy : Int
  dyy : Int

def regress (l : List (Int × Int)) : Regression :=
  let n : Int := l.length
  let sum (f : Int × Int → Int) : Int := l.foldl (fun a x => a + f x) 0
  let sx := sum (·.1)
  let sy := sum (·.2)
  ⟨n, n * sum (fun q => q.1 * q.1) - sx * sx, n * sum (fun q => q.1 * q.2) - sx * sy,
   n * sum (fun q => q.2 * q.2) - sy * sy⟩

/-- R84: RATE and RATE_SAT. -/
def Regression.rate (r : Regression) (nom : Int) : Int × Bool :=
  let lim : Int := 2 ^ 47 - 1
  if r.dxy ≤ 0 then (-lim, true)
  else
    let v := roundHalfEven ((nom * r.dxx - 2 ^ 24 * r.dxy) * 2 ^ 48) (2 ^ 24 * r.dxy)
    if v < -lim then (-lim, true) else if lim < v then (lim, true) else (v, false)

def Regression.period (r : Regression) : Int := roundHalfEven (r.dxy * 2 ^ 24) r.dxx
def Regression.rms (r : Regression) : Nat :=
  isqrt ((r.dyy * r.dxx - r.dxy * r.dxy) * 2 ^ 16 / (r.dxx * r.n * r.n)).toNat

/-- R83 to R85: a measurement ends with the stamps it used and its flags. -/
def State.freqComplete (s : State) (p : Part) (g : Nat) (stamps : List (Nat × HeldEdge)) (trunc span : Bool) : State :=
  let e := s.freq p g
  let ch := 4 * g + s.fld p (fqAddr p g 0) 0 2
  let n := stamps.length
  let s1 := (s.modFreq p g fun e => { e with armed := false, running := false }).wr p (fqAddr p g 0x10)
    (s.rd p (fqAddr p g 0x10) + 1)
  let runt := s.rd p (chAddr p ch 0x10) ≠ e.runtStart
  let tb := s.bit p (fqAddr p g 0) 2
  let step := !tb && e.stepSeen
  let flags (sat : Bool) : Word := BitVec.ofNat 32 (1 + (if sat then 2 else 0) + (if runt then 4 else 0) + (if step then 8 else 0) +
    (if trunc then 16 else 0) + (if span then 32 else 0) + s.fld p (fqAddr p g 0x14) 6 1 * 64 + n * 2 ^ 15)
  match stamps with
  | [] =>
    let s2 := s1.setFld p (fqAddr p g 0) 16 16 0x1018
    ((((s2.wr p (fqAddr p g 0x14) (flags false)).wr64 p (fqAddr p g 0x18) 0).wr64 p (fqAddr p g 0x20) 0).wr p
      (fqAddr p g 0x28) 0).wrOt p (fqAddr p g 0x2C) .zero
  | (x0, e0) :: _ =>
    if n < 3 then
      let s2 := s1.setFld p (fqAddr p g 0) 16 16 0x1018
      ((((s2.wr p (fqAddr p g 0x14) (flags false)).wr64 p (fqAddr p g 0x18) 0).wr64 p (fqAddr p g 0x20) 0).wr p
        (fqAddr p g 0x28) 0).wrOt p (fqAddr p g 0x2C) .zero
    else
      let r := regress (stamps.map fun (x, h) =>
        (((x : Int) - 0), if tb then Raw.diff h.raw e0.raw else otDiff h.ot e0.ot))
      let nom : Int := (s.rd64 p (fqAddr p g 0x04)).toNat
      let (rate, sat) := r.rate nom
      let (fv, s2) := s1.draw
      let period : BitVec 64 := if r.dxy < 0 then BitVec.ofNat 64 fv else BitVec.ofInt 64 r.period
      let s3 := s2.setFld p (fqAddr p g 0) 16 16 0
      let _ := x0
      ((((s3.wr p (fqAddr p g 0x14) (flags sat)).wr64 p (fqAddr p g 0x18) (BitVec.ofInt 64 rate)).wr64 p
        (fqAddr p g 0x20) period).wr p (fqAddr p g 0x28) (BitVec.ofNat 32 r.rms)).wrOt p (fqAddr p g 0x2C) e0.ot

/-- R83: MAXN of a group's engine. -/
def State.maxn (s : State) (p : Part) (g : Nat) : Nat := s.fld p (fqAddr p g 0x0C) 0 17

/-- R83: the stamps within 1 s of the first, and whether one lies beyond. -/
def spanSplit (l : List (Nat × HeldEdge)) : List (Nat × HeldEdge) × Bool :=
  match l with
  | [] => ([], false)
  | (_, e0) :: _ =>
    let inside := l.takeWhile fun (_, h) => Raw.diff h.raw e0.raw ≤ secGrains
    (inside, inside.length < l.length)

/-- R83: after an edge: a stamp beyond the 1 s span ends the measurement. -/
def State.freqSpan (s : State) (p : Part) (g : Nat) : State :=
  if (s.freq p g).running then
    let l := (s.freqStamps p g none).take (s.maxn p g)
    let (inside, overlaid) := spanSplit l
    if overlaid then s.freqComplete p g inside false true else s
  else s

/-! ### Gates -/

/-- R79: the record of a gate transition; GATE_REC, EDGE 0 for open. -/
def State.gateRec (s : State) (p : Part) (g : Nat) (h : HeldEdge) : State :=
  if s.bit p (gtAddr p g 0) 4 then
    (groupChans p g).foldl (fun s ch =>
      if s.bit p (chAddr p ch 0) 0 then
        s.pushRec p ch (mkRec (s.chan p ch) h ch (s.fld p (chAddr p ch 0x14) 0 16) (s.fld p (gtAddr p g 0x1C) 0 16) true)
      else s) s
  else s

/-- The edge record of an instant: its OT, state and APPLY_SEQ at this part. -/
def State.mkHeld (s : State) (p : Part) (raw : Raw) (falling : Bool) (code : Nat) (tdcB uncal : Bool) : HeldEdge :=
  let t := (s.pc p).time
  ⟨raw, t.ot raw, falling, code, tdcB, uncal, t.state.code, t.seqFor raw (s.rd p (tAddr p 0x134)).toNat⟩

/-- R75, R76, R83: the gate of a group opens: GATE_SEQ advances, edges stamped before it are discarded, an armed
engine starts. -/
def State.gateOpens (s : State) (p : Part) (g : Nat) (h : HeldEdge) : State :=
  let s1 := (s.modGate p g fun x => { x with isOpen := true, tOpen := h.raw }).count
    { part := p, addr := gtAddr p g 0x1C, base := gtAddr p g 0x1C, len := 16 }
  let s2 := (groupChans p g).foldl (fun s ch => s.modChan p ch fun c =>
    { c with held := c.held.filter fun e => 0 ≤ Raw.diff e.raw h.raw, edges := 0, recs := 0, skipped := false }) s1
  let ch := 4 * g + s.fld p (fqAddr p g 0) 0 2
  let s3 := if (s.freq p g).armed then
      s2.modFreq p g fun e => { e with running := true, stepSeen := false, runtStart := s.rd p (chAddr p ch 0x10) }
    else s2
  s3.gateRec p g h

/-- R76, R83: the gate closes: the edges of the opening are recorded, the engine's measurement ends. -/
def State.gateCloses (s : State) (p : Part) (g : Nat) (h : HeldEdge) : State :=
  let l := (s.freqStamps p g (some h.raw)).take (s.maxn p g)
  let (inside, overlaid) := spanSplit l
  let s0 := if (s.freq p g).running then s.freqComplete p g inside false overlaid else s
  let s1 := (groupChans p g).foldl (fun s' ch =>
    let ins := s'.heldInside p ch (some h.raw)
    let s2 := ins.foldl (fun s e => s.takeEdge p ch e) s'
    s2.modChan p ch fun c => { c with held := c.held.filter fun e => 0 ≤ Raw.diff e.raw h.raw }) s0
  (s1.modGate p g fun x => { x with isOpen := false }).gateRec p g h

/-- A transition of a gate, where it is one. -/
def State.gateMove (s : State) (p : Part) (g : Nat) (toOpen : Bool) (h : HeldEdge) : State :=
  let s0 := s.modTime p fun t => t.noteWrap h.raw
  if (s.gate p g).isOpen = toOpen then s
  else if toOpen then s0.gateOpens p g h else s0.gateCloses p g h

/-- R73: whether a pulse of a width yields its edge: always from 2.0 ns, never below 1.6 ns, between them the part
decides. -/
def qualifies (width choice : Nat) : Bool :=
  if 131072 ≤ width then true
  else if width * 10 < 1048576 then false
  else choice % 2 = 1

/-- R73: whether a channel's EDGE setting takes an edge. -/
def takesEdge (sel : Nat) (falling : Bool) : Bool := !((sel = 0 && falling) || (sel = 1 && !falling))

/-- STAMP_EDGE (R73, R74, R76, R80, R83): an edge at a stamp input, with the width of the pulse it begins. The qualifier
rejects a runt with both its edges before EDGE selects. -/
def execStampEdge (p : Part) (ch : Nat) (falling : Bool) (width : Nat) (e : EdgeStamp) (s : State) : Answer :=
  if chanCount p ≤ ch then .next s
  else if (s.chan p ch).dropNext then .next (s.modChan p ch fun c => { c with dropNext := false })
  else
    let (choice, s0) := s.draw
    if !qualifies width choice then
      .next ((s0.modChan p ch fun c => { c with dropNext := true }).count (evCh p ch 0x10 0 32))
    else if !takesEdge (s.fld p (chAddr p ch 0) 1 2) falling then .next s0
    else
      let a := tdcStamp p ch
      let i := s0.inService p a
      let tdc := s0.tdc p i
      if tdc.failed then .next (s0.report p 0x1012 [a])
      else if tdc.calibrating then .next (s0.count (evCh p ch 0x14 16 16))
      else
        let h := s0.mkHeld p (tdc.stamp e) falling e.code (i ≠ a) (!tdc.passed)
        let s1 := s0.modTime p fun t => t.noteWrap h.raw
        let g := groupOf ch
        if s0.fld p (gtAddr p g 0) 0 2 = 0 then .next (s1.takeEdge p ch h)
        else .next ((s1.modChan p ch fun c => { c with held := c.held ++ [h] }).freqSpan p g)

/-- GATE_INPUT_EDGE (R70, R75 to R77): an edge at an external gate input, with the length of the phase it begins. A phase
below 64 ns is suppressed with both its edges. An edge that its pair does not stamp moves no gate (log 135). -/
def execGateInputEdge (p : Part) (g : Nat) (rising : Bool) (phase : Nat) (e : EdgeStamp) (s : State) : Answer :=
  if s.fld p (gtAddr p g 0) 0 2 ≠ 1 || groupCount p ≤ g then .next s
  else if (s.gate p g).dropNext then .next (s.modGate p g fun x => { x with dropNext := false })
  else
    let (choice, s0) := s.draw
    if phase < 64 * 65536 then
      let s1 := s0.modGate p g fun x => { x with dropNext := true }
      .next (if qualifies phase choice then
          s1.count { part := p, addr := gtAddr p g 0x1C, base := gtAddr p g 0x1C, lo := 16, len := 16 }
        else s1)
    else
      let a := tdcGate p g
      match s0.pairStamp p a e with
      | none => .next (s0.pairDead p a)
      | some (i, raw) =>
        let toOpen := rising ≠ s0.bit p (gtAddr p g 0) 2
        .next (s0.gateMove p g toOpen (s0.mkHeld p raw (!toOpen) e.code (i ≠ a) (!(s0.tdc p i).passed)))

/-- GATE_WINDOW_EDGE (R75, R38): the raw due of OPEN_OT or CLOSE_OT of the armed window is reached. -/
def execGateWindowEdge (p : Part) (g : Nat) (s : State) : Answer :=
  let x := s.gate p g
  match x.window with
  | none => .next s
  | some (o, c) =>
    if s.fld p (gtAddr p g 0) 0 2 ≠ 2 then .next s
    else if !x.isOpen then
      .next (if reached (s.raw p) o.raw then s.gateMove p g true (s.mkHeld p o.raw false 0 false false) else s)
    else if reached (s.raw p) c.raw then
      .next ((s.gateMove p g false (s.mkHeld p c.raw true 0 false false)).modGate p g fun x =>
        { x with window := x.more.head?, more := x.more.tail })
    else .next s

/-- ARM_WIN (R75): arms one OT window, behind those armed before it, each with its own opening. A refused one has none: it
leaves its code in LAST_CODE and the windows armed before it as they are (DESIGN CHOICE, log 134). -/
def execArmWin (p : Part) (g : Nat) (s : State) : Answer :=
  let t := (s.pc p).time
  let o := s.rdOt p (gtAddr p g 0x04)
  let c := s.rdOt p (gtAddr p g 0x10)
  let code : Option Code := match t.dueCode o with
    | some k => some k
    | none => match t.dueCode c with
      | some k => some k
      | none => if otDiff c o ≤ 0 then some 0x1014 else none
  if groupCount p ≤ g then .next s
  else
    match code with
    | some k => .next (s.setFld p (gtAddr p g 0x20) 0 16 k.toNat)
    | none => .next ((s.setFld p (gtAddr p g 0x20) 0 16 0).modGate p g fun x => match x.window with
        | none => { x with window := some (t.mkDue o, t.mkDue c) }
        | some _ => { x with more := x.more ++ [(t.mkDue o, t.mkDue c)] })

/-- SW_OPEN (R75): the software gate moves at the cycle edge the write reaches the time island. -/
def execSwOpen (p : Part) (g : Nat) (level : Bool) (s : State) : Answer :=
  let s1 := s.setBit p (gtAddr p g 0) 3 level
  .next (if s.fld p (gtAddr p g 0) 0 2 = 3 && g < groupCount p then s1.gateMove p g level (s.mkHeld p (s.raw p) (!level) 0 false false)
    else s1)

/-- R81: whether a ring's size and base are ones the part takes. -/
def ringOk (base size : Nat) : Bool :=
  base % 32 = 0 && 64 ≤ size && size ≤ 2 ^ 20 && (List.range 21).any fun k => size = 2 ^ k

/-- STAMP_CHANNEL_CFG_WRITE (R73, R81): a privileged write of a channel's configuration word. EDGE 0b11 is refused
whole; DRAIN with a ring outside R81 is refused and stays clear. -/
def execStampChannelCfgWrite (p : Part) (ch : Nat) (w : Word) (s : State) : Answer :=
  let a := chAddr p ch 0
  if chanCount p ≤ ch then .next s
  else if w.get 1 2 = 3 then .next (s.emit (.refused p 0x1013))
  else
    let v := (w.put 7 9 0)
    if w.get 3 1 = 1 && !ringOk (s.rd64 p (chAddr p ch 0x40)).toNat (s.rd p (chAddr p ch 0x48)).toNat then
      .next ((s.wr p a (v.put 3 1 0)).emit (.refused p 0x1015))
    else .next (s.wr p a v)

/-- R82: whether a view may write POP and RING_RD of a channel. -/
def State.ownsChan (s : State) (p : Part) (v : View) (ch : Nat) : Bool :=
  match v with
  | .core => true
  | .priv => true
  | .tenant t => s.bit p (chAddr p ch 0) 6 && s.fld p (chAddr p ch 0) 4 2 = t
  | .badTag => false

/-- STAMP_POP (R78, R82). -/
def execStampPop (p : Part) (v : View) (ch n : Nat) (s : State) : Answer :=
  if !s.ownsChan p v ch then .next ((s.setBit p (chAddr p ch 0x04) 18 true).viewRefused p v (chAddr p ch 0x18))
  else
    let depth := (s.chan p ch).queue.length
    let s1 := s.modChan p ch fun c => { c with queue := c.queue.drop n }
    .next (if depth < n then s1.setBit p (chAddr p ch 0x04) 17 true else s1)

/-- R79: the 32 bytes of a record. -/
def recBytes (r : StampRec) : List Byte :=
  leBytes 8 r.raw.toNat ++ otBytes r.ot ++ leBytes 2 r.edgeSeq ++ leBytes 2 r.gateSeq ++ leBytes 1 r.flags ++
  leBytes 1 r.code ++ leBytes 1 r.state ++ leBytes 1 r.applySeq ++ leBytes 1 r.channel ++ leBytes 3 0

/-- R81: whether a record of a channel is on its way to die memory: one at a time (DESIGN CHOICE, log 136). -/
def State.ringBusy (s : State) (ch : Nat) : Bool := s.bx.writes.any fun (_, r) => r.use = .ring ch && !r.timedOut

/-- RING_RECORD_WRITTEN (R81): with DRAIN set and room in the ring, the oldest record goes to the ring. RING_WR advances once
it is written, on Baxel with the response of the memory port. -/
def execRingRecordWritten (p : Part) (ch : Nat) (s : State) : Answer :=
  let size := (s.rd p (chAddr p ch 0x48)).toNat
  let wr := s.rd p (chAddr p ch 0x4C)
  let full := (wr - s.rd p (chAddr p ch 0x50)).toNat = size
  match (s.chan p ch).queue with
  | [] => .next s
  | r :: rest =>
    if !s.bit p (chAddr p ch 0) 3 || full || size = 0 || (p = .baxel && s.ringBusy ch) then .next s
    else
      let a := (s.rd64 p (chAddr p ch 0x40)).toNat + wr.toNat % size * 32
      let s1 := s.modChan p ch fun c => { c with queue := rest }
      match p with
      | .baxel => .next (s1.bxWrite a (recBytes r)
          (memTag (if s.bit p (chAddr p ch 0) 6 then some (s.fld p (chAddr p ch 0) 4 2) else none)) (.ring ch))
      | .kresia => .next ((s1.wr p (chAddr p ch 0x4C) (wr + 1)).ksWrite a (recBytes r))

/-- FREQ_ARM (R83). -/
def execFreqArm (p : Part) (g : Nat) (s : State) : Answer :=
  let a := fqAddr p g 0
  if groupCount p ≤ g then .next s
  else if s.bit p (fqAddr p g 0x14) 0 then .next (s.setFld p a 16 16 0x1016)
  else if (s.rd64 p (fqAddr p g 0x04)).toNat < 2 ^ 24 then .next (s.setFld p a 16 16 0x1017)
  else .next ((s.setFld p a 16 16 0).modFreq p g fun e => { e with armed := true })

/-- FREQ_MAXN_REACHED (R83): the engine has MAXN stamps and the gate is still open: TRUNC. -/
def execFreqMaxnReached (p : Part) (g : Nat) (s : State) : Answer :=
  let l := s.freqStamps p g none
  let n := s.maxn p g
  .next (if (s.freq p g).running && n ≤ l.length then s.freqComplete p g (l.take n) true false else s)

/-- FREQ_RETIRE (R85): the current RESULT_SEQ clears READY; any other value sets RETIRE_MISMATCH. -/
def execFreqRetire (p : Part) (g : Nat) (seq : Word) (s : State) : Answer :=
  .next (if seq = s.rd p (fqAddr p g 0x10) then s.setBit p (fqAddr p g 0x14) 0 false
    else s.setBit p (fqAddr p g 0x14) 6 true)

/-- TXQ_POP (R87, R78). -/
def execTxqPop (p : Part) (n : Nat) (s : State) : Answer :=
  .next (s.modStamp p fun u => { u with txq := u.txq.drop n })

end Sys2Proof.Machine
end

