-- ==== Sys2Proof/Machine/CtrCore.lean ====
section
/-! DEFINITION. Counter banks, histograms, tag and snapshot windows as registers show them (R356 to R360, R363, R364,
R367 to R370), and refused views (R394 to R396). -/

namespace Sys2Proof.Machine

/-- A word of a byte string. -/
def wordAt (bs : List Byte) (off : Nat) : Word := BitVec.ofNat 32 (le bs off 4)

/-- The low and high words of a 64-bit value. -/
def half (v : BitVec 64) (hi : Bool) : Word := v.extractLsb' (if hi then 32 else 0) 32

/-! ### Banks -/

/-- R369, R370: the bank a view reaches at an address, with the offset within the window. -/
def ctrBankAt (p : Part) (v : View) (a : Nat) : Option (Nat × Nat) :=
  match p with
  | .kresia => if 0x1D0000 ≤ a && a < 0x1D2000 && (v = .core || v = .priv) then some (0, a - 0x1D0000) else none
  | .baxel =>
    if 0x8000 ≤ a && a < 0x8200 then
      match v with
      | .core => some (0, a - 0x8000)
      | .priv => some (0, a - 0x8000)
      | .tenant t => if t < 4 then some (t + 1, a - 0x8000) else none
      | .badTag => none
    else if 0x8800 ≤ a && a < 0x9000 && (v = .core || v = .priv) then
      some ((a - 0x8800) / 0x200 + 1, (a - 0x8800) % 0x200)
    else none

/-- R356: counters of a bank. -/
def ctrsOf (p : Part) (bank : Nat) : Nat := if p = .kresia then 64 else if bank = 0 then 16 else 8
def histsOf (p : Part) : Nat := if p = .kresia then 16 else 1

def State.bank (s : State) (p : Part) (k : Nat) : CtrBank := FMap.getD (s.pc p).ctr.banks k {}
def State.modBank (s : State) (p : Part) (k : Nat) (f : CtrBank → CtrBank) : State :=
  s.modCtr p fun u => { u with banks := FMap.update u.banks k {} f }

/-- The words of a counter's configuration. -/
def Ctr.words (p : Part) (c : Ctr) : Word × Word × Word :=
  let b (x : Bool) (k : Nat) : Nat := if x then 2 ^ k else 0
  match p with
  | .baxel => (BitVec.ofNat 32 (c.event + c.mode * 2 ^ 20 + c.port * 2 ^ 22 + b c.portEn 25 + c.ten * 2 ^ 26 + b c.tenEn 28),
               BitVec.ofNat 32 c.thresh, 0)
  | .kresia => (BitVec.ofNat 32 (c.event + c.mode * 2 ^ 20 + c.port * 2 ^ 22 + b c.portEn 30 + b c.domEn 31),
                BitVec.ofNat 32 (c.dom + c.cls * 2 ^ 16 + b c.clsEn 19), BitVec.ofNat 32 c.thresh)

/-- R359: the 64-bit value a VALUE read of a counter shows. -/
def CtrBank.value (b : CtrBank) (i : Nat) : BitVec 64 :=
  match b.latched with
  | some (m, _) => FMap.getD m i 0
  | none => (FMap.getD b.ctrs i {}).value

/-- R359: the histogram a read shows. -/
def CtrBank.hist (b : CtrBank) (i : Nat) : Hist :=
  match b.latched with
  | some (_, m) => FMap.getD m i {}
  | none => FMap.getD b.hists i {}

/-- R359: the high word of a VALUE: the live one where no LATCH stands is the one the read of the low word latched. -/
def CtrBank.high (b : CtrBank) (i : Nat) : Word :=
  match b.latched with
  | some _ => half (b.value i) true
  | none => FMap.getD b.highs i (half (b.value i) true)

/-- The words of a histogram's configuration. -/
def Hist.words (p : Part) (h : Hist) : Word × Word :=
  let b (x : Bool) (k : Nat) : Nat := if x then 2 ^ k else 0
  match p with
  | .baxel => (BitVec.ofNat 32 (h.event + h.port * 2 ^ 20 + b h.portEn 23), 0)
  | .kresia => (BitVec.ofNat 32 (h.event + h.port * 2 ^ 20 + b h.portEn 28 + b h.domEn 29),
                BitVec.ofNat 32 (h.dom + h.cls * 2 ^ 16 + b h.clsEn 19))

/-- R360: SAMPLES, MAX_NS, H_SAT and the bins. -/
def Hist.word (h : Hist) (samples bins off : Nat) : Word :=
  if off = samples then h.samples
  else if off = samples + 4 then BitVec.ofNat 32 h.maxNs
  else if off = samples + 8 then (if h.sat then 1 else 0)
  else if bins ≤ off && off < bins + 128 then BitVec.ofNat 32 (FMap.getD h.bins ((off - bins) / 4) 0)
  else 0

/-- R369, R370: a word of a bank window. -/
def State.bankWord (s : State) (p : Part) (k off : Nat) : Word :=
  let b := s.bank p k
  let ctr (i : Nat) : Ctr := FMap.getD b.ctrs i {}
  match p with
  | .baxel =>
    if off = 0 then BitVec.ofNat 32 ((if b.poison then 4 else 0) + (if b.ovf then 8 else 0) + b.lastCode.toNat * 2 ^ 16)
    else if 0x10 ≤ off && off < 0x110 then
      let i := (off - 0x10) / 0x10
      if ctrsOf .baxel k ≤ i then 0
      else if off % 16 = 0 then ((ctr i).words .baxel).1
      else if off % 16 = 4 then ((ctr i).words .baxel).2.1
      else if off % 16 = 8 then half (b.value i) false
      else b.high i
    else if off = 0x110 then ((b.hist 0).words .baxel).1
    else (b.hist 0).word 0x114 0x180 off
  | .kresia =>
    if off = 0 then BitVec.ofNat 32 ((if b.ovf then 4 else 0) + b.lastCode.toNat * 2 ^ 16)
    else if 0x100 ≤ off && off < 0x900 then
      let i := (off - 0x100) / 0x20
      let o := off % 0x20
      if o = 0 then ((ctr i).words .kresia).1
      else if o = 4 then ((ctr i).words .kresia).2.1
      else if o = 8 then ((ctr i).words .kresia).2.2
      else if o = 0x10 then half (b.value i) false
      else if o = 0x14 then b.high i
      else 0
    else if 0x1000 ≤ off && off < 0x2000 then
      let h := b.hist ((off - 0x1000) / 0x100)
      let o := off % 0x100
      if o = 0 then (h.words .kresia).1 else if o = 4 then (h.words .kresia).2 else h.word 8 0x80 o
    else 0

/-! ### Records -/

/-- R363: a snapshot record as bytes. -/
def SnapRec.bytes (r : SnapRec) : List Byte :=
  leBytes 4 0x4B53534E ++ leBytes 2 r.domain ++ leBytes 2 r.set ++ leBytes 6 r.step ++
  leBytes 1 ((if r.late then 1 else 0) + (if r.operator then 2 else 0)) ++ leBytes 1 r.values.length ++ leBytes 4 r.epoch ++
  otBytes r.t ++ leBytes 8 r.raw.toNat ++ leBytes 4 r.snapSeq ++ leBytes 4 r.lost ++ leBytes 3 r.node ++ leBytes 13 0 ++
  r.values.flatMap fun v => leBytes 8 v.toNat

/-- R367: a tag record as bytes. -/
def TagRec.bytes (r : TagRec) : List Byte :=
  leBytes 1 r.kind ++ leBytes 1 ((if r.incomplete then 1 else 0) + r.role * 2) ++ leBytes 2 r.domain ++
  leBytes 6 (if r.kind = 2 then r.step % 65536 else r.step) ++ leBytes 2 r.index ++ leBytes 3 r.chunk ++ leBytes 1 r.port ++
  leBytes 2 r.lseq ++ leBytes 1 r.tc ++ leBytes 1 r.msgKind ++ leBytes 4 r.epoch ++ leBytes 8 0 ++
  (r.stages.flatMap fun x => leBytes 8 x.toNat)

/-- R86: a transmit-timestamp entry as bytes. -/
def TxqEntry.bytes (e : TxqEntry) : List Byte :=
  leBytes 8 e.raw.toNat ++ leBytes 2 e.ident ++ leBytes 2 e.port ++ leBytes 1 e.kind ++ leBytes 1 e.applySeq ++
  leBytes 1 e.flags ++ leBytes 1 0

/-- R364: the store a view shows: a Baxel's of the tenant or the operator; a Kresia's of the domain selected. -/
def State.snapStoreKey (s : State) (p : Part) (v : View) : Nat :=
  match p, v with
  | .baxel, .tenant t => t
  | .baxel, _ => 4
  | .kresia, _ => s.fld .kresia 0x1D3000 0 16

def State.snapStore (s : State) (p : Part) (key : Nat) : SnapStore := FMap.getD (s.pc p).ctr.stores key {}

/-- R369, R370: a word of the tag and snapshot blocks; the address is that of the Baxel layout or the Kresia's. -/
def State.tagWord (s : State) (p : Part) (v : View) (a : Nat) : Word :=
  let t := (s.pc p).ctr.tags
  let base := tagAddr p
  let snap := match p with
    | .baxel => 0x8400
    | .kresia => 0x1D3004
  let seq := match p with
    | .baxel => 0x8404
    | .kresia => 0x1D3008
  let head := match p with
    | .baxel => 0x8440
    | .kresia => 0x1D3100
  let st := s.snapStore p (s.snapStoreKey p v)
  let bit := match p with
    | .baxel => 8
    | .kresia => 32
  if base ≤ a && a < base + 0x80 then
    match v with
    | .tenant _ => 0
    | _ =>
      if a = base + 0x0C then BitVec.ofNat 32 t.recs.length
      else if a = base + 0x14 then 0
      else if base + 0x40 ≤ a then match t.recs with
        | r :: _ => wordAt r.bytes (a - base - 0x40)
        | [] => 0
      else s.rd p a
  else if a = snap then BitVec.ofNat 32 (st.recs.length + (if st.mismatch then bit else 0))
  else if a = seq then 0
  else if head ≤ a && a < head + 0x130 then match st.recs with
    | r :: _ => wordAt r.bytes (a - head)
    | [] => 0
  else s.rd p a

end Sys2Proof.Machine
end

