-- ==== Sys2Proof/Machine/Counters.lean ====
section
/-! DEFINITION. The instruments (R356 to R368): counter and histogram configuration, LATCH and CLEAR, snapshots, tags. -/

namespace Sys2Proof.Machine

/-! ### Counters and histograms -/

/-- A refusal shown in a bank's LAST_CODE. -/
def State.bankCode (s : State) (p : Part) (k : Nat) (code : Code) : State := s.modBank p k fun b => { b with lastCode := code }

/-- R369, R370: a counter's configuration after a write of one of its words; a tenant bank has no tenant filter. -/
def Ctr.written (p : Part) (tenantBank : Bool) (c : Ctr) (i : Nat) (w : Word) : Ctr :=
  match p, i with
  | .baxel, 0 => { c with event := w.get 0 20, mode := w.get 20 2, port := w.get 22 3, portEn := w.get 25 1 = 1,
                          ten := if tenantBank then 0 else w.get 26 2, tenEn := !tenantBank && w.get 28 1 = 1 }
  | .baxel, _ => { c with thresh := w.get 0 24 }
  | .kresia, 0 => { c with event := w.get 0 20, mode := w.get 20 2, port := w.get 22 8, portEn := w.get 30 1 = 1,
                           domEn := w.get 31 1 = 1 }
  | .kresia, 1 => { c with dom := w.get 0 16, cls := w.get 16 3, clsEn := w.get 19 1 = 1 }
  | .kresia, _ => { c with thresh := w.get 0 24 }

/-- The same for a histogram. -/
def Hist.written (p : Part) (h : Hist) (i : Nat) (w : Word) : Hist :=
  match p, i with
  | .baxel, _ => { h with event := w.get 0 20, port := w.get 20 3, portEn := w.get 23 1 = 1 }
  | .kresia, 0 => { h with event := w.get 0 20, port := w.get 20 8, portEn := w.get 28 1 = 1, domEn := w.get 29 1 = 1 }
  | .kresia, _ => { h with dom := w.get 0 16, cls := w.get 16 3, clsEn := w.get 19 1 = 1 }

/-- R357, R358: a counter's new configuration, stored or refused. -/
def State.putCtr (s : State) (p : Part) (k i : Nat) (c : Ctr) : State :=
  if k ≠ 0 && !tenantEvent c.event then s.bankCode p k 0x2041
  else if c.portEn && s.portsOf p ≤ c.port then s.bankCode p k 0x2040
  else match ctrCode p c.event c.mode c.portEn c.domEn c.clsEn (if 2 ≤ c.mode then c.thresh else 0) with
    | some code => s.bankCode p k code
    | none => s.modBank p k fun b => { b with ctrs := FMap.set b.ctrs i c }

/-- R360: a histogram's new configuration: a latency event of the part, with the filters its row allows. -/
def State.putHist (s : State) (p : Part) (k i : Nat) (h : Hist) : State :=
  match latency p h.event with
  | some (port, dom, cls) =>
    if (h.portEn && (!port || s.portsOf p ≤ h.port)) || (h.domEn && !dom) || (h.clsEn && !cls) then s.bankCode p k 0x2040
    else s.modBank p k fun b => { b with hists := FMap.set b.hists i h }
  | none => s.bankCode p k 0x2040

/-- R369, R370: which configuration word stands at an offset of a bank window: a counter's (with its index and word) or
a histogram's. -/
def cfgWordAt (p : Part) (k off : Nat) : Option (Bool × Nat × Nat) :=
  match p with
  | .baxel =>
    if 0x10 ≤ off && off < 0x110 && (off % 16 = 0 || off % 16 = 4) && (off - 0x10) / 16 < ctrsOf .baxel k then
      some (true, (off - 0x10) / 16, off % 16 / 4)
    else if off = 0x110 then some (false, 0, 0) else none
  | .kresia =>
    if 0x100 ≤ off && off < 0x900 && off % 0x20 ≤ 8 then some (true, (off - 0x100) / 0x20, off % 0x20 / 4)
    else if 0x1000 ≤ off && off < 0x2000 && off % 0x100 ≤ 4 then some (false, (off - 0x1000) / 0x100, off % 0x100 / 4) else none

/-- CTR_CFG_WRITE (R357, R358, R360, R369, R370). -/
def execCtrCfgWrite (p : Part) (v : View) (addr : Nat) (w : Word) (s : State) : Answer :=
  match ctrBankAt p v addr with
  | none => .next (s.viewRefused p v addr)
  | some (k, off) =>
    match cfgWordAt p k off with
    | some (true, i, j) => .next (s.putCtr p k i (Ctr.written p (k ≠ 0) (FMap.getD (s.bank p k).ctrs i {}) j w))
    | some (false, i, j) => .next (s.putHist p k i (Hist.written p (FMap.getD (s.bank p k).hists i {}) j w))
    | none => .next s

/-- R359: LATCH: every counter and histogram copied. -/
def CtrBank.latch (b : CtrBank) : CtrBank :=
  { b with latched := some (b.ctrs.map fun (i, c) => (i, c.value), b.hists) }

/-- R359: CLEAR: every counter and histogram zeroed, configurations kept. -/
def CtrBank.clear (b : CtrBank) : CtrBank :=
  { b with
    ctrs := FMap.mapVals b.ctrs fun _ c => { c with value := 0 }
    hists := FMap.mapVals b.hists fun _ h => { h with samples := 0, maxNs := 0, sat := false, bins := [] } }

/-- R359: a write of a bank's control word: LATCH first, then CLEAR; OVF clears on a written 1. -/
def State.ctrControl (s : State) (p : Part) (v : View) (addr : Nat) (w : Word) : State :=
  match ctrBankAt p v addr with
  | none => s.viewRefused p v addr
  | some (k, _) =>
    let ovf := match p with
      | .baxel => w.get 3 1
      | .kresia => w.get 2 1
    s.modBank p k fun b =>
      let b1 := if w.get 0 1 = 1 then b.latch else b
      let b2 := if w.get 1 1 = 1 then b1.clear else b1
      if ovf = 1 then { b2 with ovf := false } else b2

/-- CTR_LATCH (R359): a write of a control word with LATCH set. -/
def execCtrLatch (p : Part) (v : View) (addr : Nat) (w : Word) (s : State) : Answer :=
  if w.get 0 1 = 1 then .next (s.ctrControl p v addr w) else .next s

/-- CTR_CLEAR (R359): a write of a control word with CLEAR set. -/
def execCtrClear (p : Part) (v : View) (addr : Nat) (w : Word) (s : State) : Answer :=
  if w.get 1 1 = 1 then .next (s.ctrControl p v addr w) else .next s

/-! ### Snapshots -/

/-- SNAP_RX (R362): the first copy of a SNAP under the current epoch; an older one is stale under R93. -/
def execSnapRx (p : Part) (x : SnapMsg) (s : State) : Answer :=
  match p with
  | .baxel =>
    match s.tenantOf x.domain with
    | none => .next (s.count (evB 0x0438))
    | some t =>
      if x.epoch < (s.ten t).epoch then .next (s.count (evT t 0x110))
      else .next (s.takeSnap .baxel x (selsOf ((s.ten t).imageFor x.step) x.set .baxel) t)
  | .kresia =>
    let d := s.dom x.domain
    if x.epoch < d.epoch then .next s
    else match d.imageFor x.step with
      | none => .next s
      | some g => .next (s.takeSnap .kresia x (selsOf g x.set .kresia) 0)

/-- SNAP_CAPTURE (R362, R363): the cycle edge at or after T of the oldest arm due. -/
def execSnapCapture (p : Part) (s : State) : Answer :=
  match (s.pc p).ctr.snapArms.find? fun a => 0 ≤ Raw.diff (s.raw p) (openEdge a.due) with
  | none => .next s
  | some a =>
    let s1 := s.modCtr p fun u => { u with snapArms := u.snapArms.erase a }
    .next (s1.capture p a (openEdge a.due) false)

/-- SNAP_RETIRE (R364): the head's SNAP_SEQ retires it. -/
def execSnapRetire (p : Part) (v : View) (seq : Word) (s : State) : Answer :=
  let key := s.snapStoreKey p v
  .next (s.modCtr p fun u => { u with stores := FMap.update u.stores key {} fun st =>
    match st.recs with
    | r :: t => if BitVec.ofNat 32 r.snapSeq = seq then { st with recs := t } else { st with mismatch := true }
    | [] => { st with mismatch := true } })

/-! ### Tags -/

/-- R366: whether the RATEs of a tag control word stay at 20 or below. -/
def rateOk (p : Part) (w : Word) : Bool :=
  match p with
  | .baxel => w.get 24 5 ≤ 20
  | .kresia => w.get 8 5 ≤ 20 && w.get 16 5 ≤ 20 && w.get 24 5 ≤ 20

/-- TAG_CFG_WRITE (R366, R369, R370): the control word, the seed (which loads the LFSR) or the packet filter. -/
def execTagCfgWrite (p : Part) (addr : Nat) (w : Word) (s : State) : Answer :=
  let base := tagAddr p
  if addr = base then
    if rateOk p w then
      let v : Word := match p with
        | .baxel => w &&& (0x1F000004 : Word)
        | .kresia => w &&& (0x1F1F1F07 : Word)
      .next (s.wr p base v)
    else .next (s.bankCode p 0 0x2043)
  else if addr = base + 4 then .next ((s.wr p addr w).modTags p fun u => { u with lfsr := w })
  else if addr = base + 8 then
    let m := match p with
      | .baxel => 8
      | .kresia => 13
    .next (s.wr p addr (BitVec.ofNat 32 (w.get 0 m)))
  else .next s

/-- TAG_POP (R368, R78): the oldest n records retire. -/
def execTagPop (p : Part) (n : Nat) (s : State) : Answer := .next (s.modTags p fun u => { u with recs := u.recs.drop n })

/-! ### Reads that change state -/

/-- R198, R223, R268: the high-water registers with what a read reloads: the current value. -/
def State.rcValue (s : State) (a : Nat) : Option Nat :=
  if a = 0x140084 then some s.feltUsed
  else if a = 0x150004 then some s.chunksOpen
  else if a = 0x170004 then some s.tokenUse
  else none

/-- RC_REGISTER_READ (R198, R223, R268): the read returns the register and reloads it. -/
def execRcRegisterRead (addr : Nat) (s : State) : Answer :=
  match s.rcValue addr with
  | some v => .next ((s.emit (.regData .kresia (s.rd .kresia addr))).wr .kresia addr (BitVec.ofNat 32 v))
  | none => .next s

/-- The counter of a bank whose VALUE has its low word at an offset of the window. -/
def valueAt (p : Part) (k off : Nat) : Option Nat :=
  match p with
  | .baxel => if 0x10 ≤ off && off < 0x110 && off % 16 = 8 && (off - 0x10) / 16 < ctrsOf .baxel k then some ((off - 0x10) / 16) else none
  | .kresia => if 0x100 ≤ off && off < 0x900 && off % 0x20 = 0x10 then some ((off - 0x100) / 0x20) else none

/-- R143: the tenant whose object window, with an index beyond its partition, an address of a tenant's view lies in. -/
def State.beyondWindow (s : State) (p : Part) (v : View) (a : Nat) : Option Nat :=
  match p, v with
  | .baxel, .tenant t =>
    if tPage t 0x280 ≤ a && a < tPage t 0x2B4 && s.objCount t ≤ s.fld .baxel (tPage t 0x24C) 0 12 then some t else none
  | _, _ => none

/-- A read at an address that holds no counter: an object window whose index lies beyond the partition reads zero and sets
LAST_CODE (R143); any other is refused (R395, R396). -/
def State.otherRead (s : State) (p : Part) (v : View) (a : Nat) : State :=
  match p, s.beyondWindow p v a with
  | .baxel, some t => (s.viewCode t 0x3005).emit (.regData .baxel 0)
  | _, _ => s.viewRefused p v a

/-- LOW_WORD_READ (R359, R198, R249, R353): the low word of a 64-bit counter, which latches the high word for the next
read of it; with a LATCH standing the value does not change between the two reads. -/
def execLowWordRead (p : Part) (v : View) (addr : Nat) (s : State) : Answer :=
  match ctrBankAt p v addr with
  | some (k, off) =>
    match valueAt p k off with
    | some i =>
      let b := s.bank p k
      let s1 := if b.latched.isSome then s
        else s.modBank p k fun b => { b with highs := FMap.set b.highs i (half (b.value i) true) }
      .next (s1.emit (.regData p (half (b.value i) false)))
    | none => .next s
  | none =>
    if p = .kresia && wideCounters.contains addr && (v = .core || v = .priv) then
      .next ((s.modPc .kresia fun c => { c with highs := FMap.set c.highs (addr + 4) (s.rd .kresia (addr + 4)) }).emit
        (.regData .kresia (s.rd .kresia addr)))
    else .next (s.otherRead p v addr)

end Sys2Proof.Machine
end

