-- ==== Sys2Proof/Machine/TimeFamily.lean ====
section
/-! DEFINITION. Time: applying parameter sets (R32 to R36), the fast read (R41), time cells and exchanges (R49 to
R53), the servo and the combine (R57 to R63), the time crown and its sources (R45 to R48, R58). -/

namespace Sys2Proof.Machine

/-! ### Applying a set -/

/-- R27, R32: the code with which a commit is refused; none where it is accepted. A malformed OFFSET_OT is refused here and
not at the write of its word, which holds half an OT; where several codes hold, the spec gives no order and this is the model's
(DESIGN CHOICE, log 124). -/
def commitCode (raw : Raw) (set : ParamSet) (apply : Raw) : Option Code :=
  if set.offset.malformed then some 0x1003
  else if Raw.diff apply raw < 268435456 then some 0x1004
  else if set.rate < -34359738368 || 34359738368 < set.rate then some 0x1005
  else if 4611686018427387904 ≤ (Raw.diff set.rawRef apply).natAbs then some 0x1006
  else none

/-- The pending set as the registers hold it (R42). -/
def State.pendingSet (s : State) (p : Part) : ParamSet :=
  ⟨s.rdOt p (tAddr p 0x100), s.rd64 p (tAddr p 0x10C), (s.rd64 p (tAddr p 0x114)).toInt⟩

/-- R32, R34: a commit of the pending registers. An accepted one waits for APPLY_RAW and every pending due time is
converted again; a refused one changes LAST_CODE only. -/
def State.commit (s : State) (p : Part) (dest : Option TimeState := none) : State :=
  let set := s.pendingSet p
  let apply := s.rd64 p (tAddr p 0x11C)
  match commitCode (s.raw p) set apply with
  | some code => s.setFld p (tAddr p 0x128) 0 16 code.toNat
  | none =>
    let c : Commit := ⟨set, apply, dest⟩
    ((s.setFld p (tAddr p 0x128) 0 16 0).modTime p fun t => { t with committed := some c }).mapDues p (Due.reconvert c)

/-- TS_COMMIT (R32). -/
def execTsCommit (p : Part) (s : State) : Answer := .next (s.commit p)

/-- R59: what a change of time state at APPLY_RAW reports. -/
def State.unlockReport (s : State) (p : Part) (dest : Option TimeState) : State :=
  if (s.pc p).time.state = .locked && dest = some .acquiring then (s.stickyTime p 0x30C 3).report p 0x100C else s

/-- R33 to R35, R59: the committed set becomes the active one: the step is recorded and counted, pending due times
take their new raw dues, straddling entries are counted, the time state changes. A step that no signed 64-bit value holds is
kept modulo 2^64 (DESIGN CHOICE, log 125). -/
def State.applySet (s : State) (p : Part) (c : Commit) : State :=
  let t := (s.pc p).time
  let step := otDiff (otOfRaw c.set c.applyRaw) (otOfRaw t.active c.applyRaw)
  let n := s.straddles p c.applyRaw
  let s1 := s.unlockReport p c.toState
  let s2 := (s1.mapDues p (Due.applied c.applyRaw)).modTime p fun t =>
    { t with active := c.set, prev := some (t.active, c.applyRaw), committed := none,
             wrapped := t.wrapped || otOfRawWraps c.set c.applyRaw || otOfRawWraps t.active c.applyRaw,
             state := c.toState.getD (if t.state = .unset then .acquiring else t.state) }
  let s3 := (s2.wr64 p (tAddr p 0x12C) (BitVec.ofInt 64 step)).wr64 p (tAddr p 0x140) c.set.rawRef
  let s4 := s3.count (evTime p 0x134)
  let s5 := if n = 0 then s4 else s4.count (evTime p 0x13C) n
  if step = 0 then s5
  else s5.modStamp p fun u => { u with freqs := FMap.mapVals u.freqs fun _ e => { e with stepSeen := e.stepSeen || e.running } }

/-- APPLY_RAW_REACHED (R35): with a committed set whose APPLY_RAW the raw counter has reached. -/
def execApplyRawReached (p : Part) (s : State) : Answer :=
  match (s.pc p).time.committed with
  | some c => .next (if 0 ≤ Raw.diff (s.raw p) c.applyRaw then s.applySet p c else s)
  | none => .next s

/-- TS_REBASE (R36): once the signed distance from RAW_REF reaches 2^62 grains. No due time is reconverted, and the set in
force before the last application, now 2^62 grains old, is no raw value's any more. -/
def execTsRebase (p : Part) (s : State) : Answer :=
  let t := (s.pc p).time
  if 4611686018427387904 ≤ Raw.diff t.raw t.active.rawRef then
    let set : ParamSet := ⟨otOfRaw t.active t.raw, t.raw, t.active.rate⟩
    .next (((s.modTime p fun t => { t with active := set, prev := none, wrapped := t.wrapped || otOfRawWraps t.active t.raw }).wr64 p (tAddr p 0x140) t.raw).count (evTime p 0x138))
  else .next s

/-! ### The fast read -/

/-- R41: the latch bank of a requester. The management core, and a host by `reg.read`, have no requester tag: they use the
privileged bank (DESIGN CHOICE, log 127). -/
def bankOf : View → Option Nat
  | .core => some 0
  | .priv => some 0
  | .tenant t => if t < 4 then some (t + 1) else none
  | .badTag => none

/-- R41: BX_FT_STATUS of a snapshot. -/
def ftStatus (state : TimeState) (wrapped pending : Bool) : Word :=
  BitVec.ofNat 32 (2 ^ 31 + state.code * 2 ^ 28 + (if wrapped then 2 ^ 27 else 0) + (if pending then 2 ^ 26 else 0))

/-- R41: the snapshot of the current cycle. OT_WRAPPED shows the sticky bit of R30 (log 121). -/
def State.ftSnap (s : State) (p : Part) (bank : Nat) : State :=
  let t := (s.pc p).time
  let w := t.wrapped || t.wraps t.raw
  let b : FtBank := ⟨t.raw, t.now, ftStatus t.state w t.committed.isSome, s.rd p (tAddr p 0x134)⟩
  s.modTime p fun t => { t with wrapped := w, banks := FMap.set t.banks bank b }

/-- R41: a word of the fast-read block as a requester reads it; zero without a snapshot. -/
def State.ftWord (s : State) (p : Part) (bank off : Nat) : Word :=
  match FMap.find? (s.pc p).time.banks bank with
  | none => 0
  | some b =>
    if off = 0x00 then b.raw.extractLsb' 0 32
    else if off = 0x04 then b.raw.extractLsb' 32 32
    else if off = 0x08 then b.ot.word0
    else if off = 0x0C then b.ot.word1
    else if off = 0x10 then b.ot.word2
    else if off = 0x14 then b.status
    else if off = 0x18 then b.applySeq
    else 0

/-- FT_RAW_LO_READ (R41): latches the requester's bank and answers Raw[31:0]. A request with a tag R394 does not know
reads zero and sets BAD_TAG. -/
def execFtRawLoRead (p : Part) (v : View) (s : State) : Answer :=
  match bankOf v with
  | none => .next ((s.viewRefused p v (tAddr p 0x5000)).emit (.regData p 0))
  | some k =>
    let s1 := s.ftSnap p k
    .next (s1.emit (.regData p (s1.ftWord p k 0)))

/-! ### Time cells -/

/-- One bit of CRC-32 (IEEE 802.3, reflected). -/
def crcBit (c : Nat) : Nat := if c % 2 = 1 then Nat.xor (c / 2) 0xEDB88320 else c / 2

/-- CRC-32 over one more byte. -/
def crcByte (c : Nat) (b : Byte) : Nat :=
  crcBit (crcBit (crcBit (crcBit (crcBit (crcBit (crcBit (crcBit (Nat.xor c b.toNat))))))))

/-- CRC-32 (IEEE 802.3 polynomial) of a byte string. -/
def crc32 (bs : List Byte) : Word := BitVec.ofNat 32 (Nat.xor (bs.foldl crcByte 0xFFFFFFFF) 0xFFFFFFFF)

/-- R49: bytes 0 to 59 of a time cell. -/
def cellBytes (c : TimeCell) : List Byte :=
  let b (x : Bool) (k : Nat) : Nat := if x then 2 ^ k else 0
  leBytes 1 1 ++
  leBytes 1 (b c.gmTraceable 0 + b c.holdover 1 + b c.prevRetried 2 + (c.rootPrio % 2) * 8 + b c.cal 4) ++
  leBytes 2 c.seq ++ leBytes 2 c.rxSeq ++ leBytes 1 (c.depth % 16) ++
  leBytes 1 (c.state % 8 + (c.applySeq % 32) * 8) ++ otBytes c.txOtPrev ++ otBytes c.rxOt ++
  leBytes 3 (c.rootId % 2 ^ 17) ++ leBytes 1 c.rootEpoch ++ leBytes 2 c.utcOffset.toNat ++ leBytes 1 c.clockClass ++
  leBytes 1 0 ++ leBytes 8 c.gmId.toNat ++ leBytes 4 c.pathErr.toNat ++ leBytes 8 0

def State.pt (s : State) (p : Part) (n : Nat) : PortTime := FMap.getD (s.pc p).time.ports n {}
def State.modPt (s : State) (p : Part) (n : Nat) (f : PortTime → PortTime) : State :=
  s.modTime p fun t => { t with ports := FMap.update t.ports n {} f }

/-- R65: whether a port carries time cells. -/
def State.ttInService (s : State) (p : Part) (n : Nat) : Bool := s.bit p (ttPort p n 0x0C) 0

/-- R54: whether a port is excluded from time transfer. -/
def State.ttExcluded (s : State) (p : Part) (n : Nat) : Bool := s.bit p (ttPort p n 0x0C) 3

/-- R86, R87: an entry for the transmit-timestamp queue, or its drop. -/
def State.pushTxq (s : State) (p : Part) (e : TxqEntry) : State :=
  if (s.pc p).stamp.txq.length < 64 then s.modStamp p fun u => { u with txq := u.txq ++ [e] }
  else (s.setBit p (tAddr p 0x6A00) 8 true).count (evTime p 0x6A04)

/-- R44, R49, R58: the depth a part sends: 15 while it holds no usable time. -/
def TimeUnit.sentDepth (t : TimeUnit) : Nat := if t.state = .unset then 15 else t.depth

/-- An OT of a free value's bits: what a cell carries for a stamp that nothing took (log 128). -/
def freeOt (v : Nat) : OT := ⟨BitVec.ofNat 48 v, BitVec.ofNat 32 (v / 2 ^ 48), BitVec.ofNat 16 (v / 2 ^ 80)⟩

/-- TIME_CELL_SEND (R49): one time cell on an in-service port; its transmit stamp travels in the next cell. A port excluded
from time transfer (R54) sends none, and a transmit TDC that calibrates takes no stamp (R66). -/
def execTimeCellSend (p : Part) (port : Nat) (tx : EdgeStamp) (s : State) : Answer :=
  if !s.ttInService p port || s.ttExcluded p port then .next s
  else
    let t := (s.pc p).time
    let pt := s.pt p port
    let seq := (pt.txSeq + 1) % 65536
    let tdc := s.tdc p (tdcTx p port)
    let stamp := tdc.take tx
    let (err, sd) := s.draw
    let (lost, s0) := sd.draw
    let applySeq := (s.rd p (tAddr p 0x134)).toNat
    let cell : TimeCell :=
      { gmTraceable := t.gmTraceable, holdover := t.holdoverFlag, prevRetried := pt.prevRetried,
        rootPrio := t.rootPrio, cal := s.portCal p port, seq := seq,
        rxSeq := (pt.peer.map (·.seq)).getD 0, depth := t.sentDepth, state := t.state.code,
        applySeq := applySeq % 32, txOtPrev := (FMap.getD pt.txMarks pt.txSeq {}).ot.getD (freeOt lost),
        rxOt := pt.rxOt, rootId := t.rootId, rootEpoch := t.rootEpoch, utcOffset := t.utcOffset,
        clockClass := t.clockClass, gmId := t.gmId, pathErr := BitVec.ofNat 32 err }
    let sealed' := { cell with crc := crc32 (cellBytes cell) }
    let mark : TxMark := ⟨stamp.map t.ot, false, applySeq, stamp.getD t.raw⟩
    let s1 := s0.modPt p port fun q =>
      { q with txSeq := seq, prevRetried := false,
               txMarks := FMap.set (FMap.keep q.txMarks fun k _ => (seq + 65536 - k) % 65536 < 16) seq mark }
    let s2 := s1.emit (.send p (.port port) (.timeCell sealed'))
    .next (match stamp with
      | some raw =>
        let s3 := s2.modTime p fun t => t.noteWrap raw
        if s.bit p (tAddr p 0x6A00) 9 then
          s3.pushTxq p ⟨raw, seq, port, 1, applySeq % 256, (if tdc.passed then 0 else 1) + 128⟩
        else s3
      | none => s2)

/-- R49, R51: link retry resends the time cell of a sequence number: its stamp no longer describes it, and the port's next
cell says so. -/
def State.cellRetried (s : State) (p : Part) (port seq : Nat) : State :=
  s.modPt p port fun q =>
    { q with prevRetried := q.prevRetried || q.txSeq = seq,
             txMarks := FMap.mapVals q.txMarks fun k m => if k = seq then { m with retried := true } else m }

/-- R50: theta and d of an exchange, in grains; stamps as OTs, the parent's latencies beside. -/
def exchange (t1 t2 t3 t4 : OT) (sTx sRx mTx mRx : Int) (asym : Int) : Int × Int :=
  let fwd := otDiff t2 t1 - sRx - mTx
  let rev := otDiff t4 t3 - mRx - sTx
  ((fwd - rev) / 2 - asym, (fwd + rev) / 2)

/-- R51: whether this part's last application was not continuous. -/
def State.selfStepped (s : State) (p : Part) : Bool := s.rd64 p (tAddr p 0x12C) ≠ 0

/-- R409: the correction of a receive stamp for the bits by which the marker lies inside its word. -/
def alignGrains (b rate : Nat) : Nat := (2 * b * 65536000 + rate) / (2 * rate)

/-- R51: whether a TDC of a port calibrated at or after a raw value. -/
def State.calSince (s : State) (p : Part) (port : Nat) (r : Raw) : Bool :=
  let since (i : Nat) : Bool :=
    match (s.tdc p i).lastRun with
    | some e => 0 ≤ Raw.diff e r
    | none => false
  s.portCal p port || since (tdcTx p port) || since (tdcRx p port)

/-- R51: whether the exchange of own stamps t2 (that of the peer cell `q`) and t3 (mark `m`) which `cell` completes is
discarded for what either side did within it. -/
def State.exchangeBad (s : State) (p : Part) (port : Nat) (q cell : TimeCell) (m : TxMark) (peer : PeerTime) : Bool :=
  let pt := s.pt p port
  cell.prevRetried || m.retried || (pt.rxApplySeq ≠ m.applySeq && s.selfStepped p) ||
  (cell.applySeq ≠ q.applySeq && peer.stepped) || !pt.rxStamped || cell.cal || q.cal ||
  s.calSince p port (if Raw.diff pt.rxRaw m.raw ≤ 0 then pt.rxRaw else m.raw)

/-- R44, R50 to R52: the exchange a good cell completes with the one before it, kept or dropped. A cell of DEPTH 15 says that
its sender holds no usable time: it completes none. -/
def State.takeExchange (s : State) (p : Part) (port : Nat) (cell : TimeCell) (peer : PeerTime) : State :=
  let pt := s.pt p port
  match pt.peer, FMap.find? pt.txMarks cell.rxSeq with
  | some q, some m =>
    if cell.seq ≠ (q.seq + 1) % 65536 || cell.depth = 15 then s
    else
      let asym := (s.rd p (ttPort p port 0x08)).toInt
      let (theta, d) := exchange cell.txOtPrev pt.rxOt (m.ot.getD .zero) cell.rxOt (s.rd p (ttPort p port 0)).toNat
        (s.rd p (ttPort p port 4)).toNat peer.txLat peer.rxLat asym
      let drop := s.exchangeBad p port q cell m peer || m.ot.isNone || d < 0 || 4294967295 < d
      if drop then s.count { evTime p 0 with addr := ttPort p port 0x1C, base := ttPort p 0 0x1C, len := 16, port := some port }
      else
        (s.modPt p port fun x => { x with thetaSum := x.thetaSum + theta, kept := x.kept + 1 }).wr p
          (ttPort p port 0x18) (BitVec.ofInt 32 d)
  | _, _ => s

/-- R47, R58, R65: what a part follows of the tree, from a cell of the port it takes time from. -/
def State.followRoot (s : State) (p : Part) (cell : TimeCell) : State :=
  let t := (s.pc p).time
  let changed := t.rootId ≠ cell.rootId || t.rootEpoch ≠ cell.rootEpoch
  let s1 := s.modTime p fun t =>
    { t with rootId := cell.rootId, rootEpoch := cell.rootEpoch, rootPrio := cell.rootPrio,
             gmTraceable := cell.gmTraceable, holdoverFlag := cell.holdover, utcOffset := cell.utcOffset,
             clockClass := cell.clockClass, gmId := cell.gmId, depth := min 15 (cell.depth + 1) }
  let a := tAddr p 0x310
  let s2 := (((s1.setFld p a 0 17 cell.rootId).setFld p a 17 8 cell.rootEpoch).setBit p a 25 cell.gmTraceable).setFld p
    (tAddr p 0x314) 0 16 cell.utcOffset.toNat
  if changed then s2.stickyTime p 0x30C 4 else s2

/-- Whether a port is the one whose tree a part follows: a Kresia's parent; on a Baxel, which has a parent on every plane
and for which the spec names none, the lowest-numbered port in service and not excluded with a usable cell (DESIGN CHOICE,
log 129). -/
def State.isLeadPort (s : State) (p : Part) (port : Nat) : Bool :=
  match p with
  | .kresia => s.ks.c.time.parent = some port && !s.ks.c.time.crown.isRoot
  | .baxel =>
    !((List.range port).any fun n => s.ttInService .baxel n && !s.ttExcluded .baxel n &&
      match (s.pt .baxel n).peer with
      | some c => c.depth < 15
      | none => false)

/-- R44, R49, R63: a good cell is remembered: its arrival stamp in own time (a free value where the receive TDC took none,
R66), PEER_DEPTH, the first candidate, and for a secondary time crown that the primary's tree was heard (R58). -/
def State.noteCell (s : State) (p : Part) (port : Nat) (cell : TimeCell) (stamp : Option Raw) : State :=
  let t := (s.pc p).time
  let (lost, s0) := s.draw
  let s1 := (s0.modPt p port fun x =>
    { x with peer := some cell, rxOt := (stamp.map t.ot).getD (freeOt lost), rxRaw := stamp.getD t.raw,
             rxStamped := stamp.isSome, heard := t.raw, rxApplySeq := (s.rd p (tAddr p 0x134)).toNat,
             calInterval := x.calInterval || cell.cal || s.portCal p port }).setFld p (ttPort p port 0x0C) 4 4 cell.depth
  s1.modTime p fun t =>
    { t with wrapped := t.wrapped || (match stamp with | some r => t.wraps r | none => false)
             firstCand := if t.firstCand.isNone && cell.depth < 15 then some t.raw else t.firstCand
             crown := { t.crown with lastPrimaryRaw := if cell.rootPrio = 0 && cell.depth < 15 then some t.raw
                                                       else t.crown.lastPrimaryRaw } }

/-- TIME_CELL_RX (R49 to R51): a cell whose CRC fails is discarded and counted; a good one completes an exchange. On a port
excluded from time transfer (R54) a good cell has no effect. -/
def execTimeCellRx (p : Part) (port : Nat) (cell : TimeCell) (rx : EdgeStamp) (peer : PeerTime) (s : State) : Answer :=
  if !s.ttInService p port then .next s
  else if crc32 (cellBytes cell) ≠ cell.crc then
    .next (s.count { evTime p 0 with addr := ttPort p port 0x1C, base := ttPort p 0 0x1C, lo := 16, len := 16, port := some port })
  else if s.ttExcluded p port then .next s
  else
    let pt := s.pt p port
    let stamp := ((s.tdc p (tdcRx p port)).take rx).map (· + BitVec.ofNat 64 (alignGrains pt.rxAlign pt.laneRate))
    let s1 := (s.takeExchange p port cell peer).noteCell p port cell stamp
    .next (if cell.depth < 15 && s1.isLeadPort p port then s1.followRoot p cell else s1)

/-! ### Parent choice -/

/-- R57: the ranking of candidate ports, best first: ROOT_PRIO, ROOT_ID, DEPTH, LOCKED before others, port. -/
def rankLe (a b : Nat × TimeCell) : Bool :=
  let k (x : Nat × TimeCell) : List Nat :=
    [x.2.rootPrio, x.2.rootId, x.2.depth, (if x.2.state = 2 then 0 else 1), x.1]
  decide (k a ≤ k b)

/-- R44, R54, R57: candidate parents of a Kresia, best first: in-service ports not excluded on which time cells of a DEPTH
below 15 arrive; one on which none has arrived for a servo interval is none (DESIGN CHOICE, log 130). -/
def State.candidates (s : State) : List (Nat × TimeCell) :=
  sortBy rankLe (s.ks.c.time.ports.filterMap fun (n, x) => match x.peer with
    | some c =>
      if c.depth < 15 && s.ttInService .kresia n && !s.ttExcluded .kresia n &&
        Raw.diff s.ks.c.time.raw x.heard ≤ 4000000 * 65536 then some (n, c) else none
    | none => none)

/-- R57, R63: the best of ranked candidates becomes parent and the next two monitors. Where all of them carry DEPTH 14 the
Kresia sends DEPTH 15 and counts (R44), and takes none of them: the spec does not say whether it still does (DESIGN CHOICE,
log 131). -/
def State.takeBest (s : State) (cs : List (Nat × TimeCell)) : State :=
  match cs.filter fun (_, c) => c.depth < 14 with
  | [] =>
    if cs.isEmpty then s
    else (s.modTime .kresia fun t => { t with depth := 15 }).count (evK 0x100324)
  | (n, c) :: rest =>
    (s.modTime .kresia fun t => { t with parent := some n, monitors := (rest.take 2).map (·.1) }).followRoot .kresia c

/-- R57, R63: the first choice of a parent. -/
def State.chooseParent (s : State) : State := s.takeBest s.candidates

/-- PARENT_CHOICE (R63): one millisecond after the first candidate cell. -/
def execParentChoice (s : State) : Answer :=
  let t := s.ks.c.time
  match t.firstCand, t.parent with
  | some r, none =>
    .next (if 1000000 * 65536 ≤ Raw.diff t.raw r && !t.crown.isRoot then s.chooseParent else s)
  | _, _ => .next s

/-! ### The servo -/

/-- Floor of a / b for a positive b. -/
def floorDiv (a b : Int) : Int := a / b

def clampRate (x : Int) : Int := max (-34359738368) (min 34359738368 x)

/-- R59: the phase and integral constants. -/
def servoNp : Part → Int
  | .baxel => 8
  | .kresia => 16
def servoNi : Part → Int
  | .baxel => 256
  | .kresia => 512

/-- R59: a commit of the servo, 16 us ahead, with the state change it makes. -/
def State.servoCommit (s : State) (p : Part) (offset : Raw → OT) (rate : Int) (dest : Option TimeState) : State :=
  let apply := s.raw p + 1048576000
  let s1 := ((((s.wrOt p (tAddr p 0x100) (offset apply)).wr64 p (tAddr p 0x10C) apply).wr64 p (tAddr p 0x114)
    (BitVec.ofInt 64 rate)).wr64 p (tAddr p 0x11C) apply)
  s1.commit p dest

/-- R59: one interval with a θ. `rates` gives RATE_freq and RATE_new of a continuous interval; `bend` is what a time
crown's phase source makes of OFFSET_OT there (R45). -/
def State.servoTheta (s : State) (p : Part) (theta : Int) (rates : Int × Int) (bend : OT → OT := id) : State :=
  let t := (s.pc p).time
  let old (r : Raw) : OT := otOfRaw t.active r
  if t.state = .unset || 65536000 < theta.natAbs then
    (s.modTime p fun t => { t with good := 0, bad := 0, noTheta := 0 }).servoCommit p
      (fun r => otAdd (old r) (-theta)) t.rateFreq (some .acquiring)
  else
    let good := if theta.natAbs ≤ 3276 then t.good + 1 else 0
    let bad := if 65536 < theta.natAbs then t.bad + 1 else 0
    let dest : Option TimeState :=
      match t.state with
      | .acquiring => if 64 ≤ good then some .locked else none
      | .locked => if 3 ≤ bad then some .acquiring else none
      | .holdover => some .acquiring
      | .unset => none
    let fresh := t.state = .holdover || dest = some .acquiring
    (s.modTime p fun t =>
      { t with rateFreq := rates.1, good := if fresh then 0 else good, bad := if fresh then 0 else bad, noTheta := 0 }).servoCommit p
        (fun r => bend (old r)) rates.2 dest

/-- R59: RATE_freq and RATE_new of a continuous interval. -/
def servoRates (p : Part) (rateFreq theta : Int) : Int × Int :=
  let f := clampRate (rateFreq - floorDiv (theta * 1073741824) (1000000 * servoNi p))
  (f, clampRate (f - floorDiv (theta * 1073741824) (1000000 * servoNp p)))

/-- R59, R60: an interval without a θ: after two in a row an ACQUIRING or LOCKED part enters HOLDOVER. -/
def State.servoNone (s : State) (p : Part) : State :=
  let t := (s.pc p).time
  let n := t.noTheta + 1
  let s1 := s.modTime p fun t => { t with noTheta := n, good := 0, bad := 0 }
  if 2 ≤ n && (t.state = .acquiring || t.state = .locked) then
    ((s1.modTime p fun t => { t with state := .holdover }).stickyTime p 0x30C 2).report p 0x100B
  else s1

/-- R44, R52, R56, R72: the interval closes at one port: θ_p of at least 32 kept exchanges, floor of their mean; none from a
port whose cells carry DEPTH 15. -/
def State.closePort (s : State) (p : Part) (n : Nat) (x : PortTime) : State :=
  let ok := 32 ≤ x.kept && (x.peer.map (·.depth)).getD 15 < 15 && s.ttInService p n && !s.ttExcluded p n && s.portTdcOk p n && !s.portCal p n
  let th := if ok then some (floorDiv x.thetaSum x.kept) else none
  let swap := (s.rd p (ttPort p n 0x08)) = 0
  let s1 := s.modPt p n fun y =>
    { y with thetaP := th, thetaSum := 0, kept := 0,
             swapSum := match th with
               | some v => if swap && y.swapCount < 1024 then y.swapSum + v else if swap then y.swapSum else 0
               | none => y.swapSum
             swapCount := if swap then (if th.isSome then min 1024 (y.swapCount + 1) else y.swapCount) else 0 }
  match th with
  | some v => s1.wr64 p (ttPort p n 0x10) (BitVec.ofInt 64 v)
  | none => s1

def State.closePorts (s : State) (p : Part) : State :=
  (s.pc p).time.ports.foldl (fun s (n, x) => s.closePort p n x) s

/-- R61: the lower median of a list of θ_p. -/
def lowerMedian (l : List Int) : Int := (sortBy (fun a b => decide (a ≤ b)) l).getD ((l.length + 1) / 2 - 1) 0

/-- R61: the combine: the planes of P, those accepted, and whether the two-plane rule split them. -/
def combine (locked any : List (Nat × Int)) (reject : Nat) : List (Nat × Int) × List (Nat × Int) × Bool :=
  let ps := if locked.isEmpty then any else locked
  let m := lowerMedian (ps.map (·.2))
  let a := ps.filter fun (_, th) => (th - m).natAbs ≤ reject
  match ps with
  | [x, y] =>
    if a.length < 2 then
      (ps, [if y.2.natAbs < x.2.natAbs then y else if x.2.natAbs < y.2.natAbs then x
            else if x.1 ≤ y.1 then x else y], true)
    else (ps, a, false)
  | _ => (ps, a, false)

/-- R61: θ of the accepted planes. -/
def combined (a : List (Nat × Int)) : Int := floorDiv (a.foldl (fun x y => x + y.2) 0) a.length

/-- R61: the rejection count, OUTLIER and ACCEPTED of one plane; at 16 the plane and the leaf are named. -/
def State.rejectPort (s : State) (n : Nat) (inP inA : Bool) : State :=
  let x := s.pt .baxel n
  let c := if inA then 0 else if inP then x.rejected + 1 else x.rejected
  let a := ttPort .baxel n 0x0C
  let s1 := ((s.modPt .baxel n fun y => { y with rejected := c }).setBit .baxel a 1 inA).setBit .baxel a 2 (16 ≤ c)
  if c = 16 && inP && !inA then
    (s1.stickyTime .baxel 0x30C 1).report .baxel 0x1009
      (match FMap.find? s.bx.c.link.ports n with
        | some l => (l.peer.map fun k => [k.plane, k.node]).getD [n]
        | none => [n]) (port := n)
  else s1

/-- R61: the Baxel's planes combined at the end of an interval. -/
def State.combineBaxel (s : State) : State × Option Int :=
  let any := s.bx.c.time.ports.filterMap fun (n, x) => x.thetaP.map fun v => (n, v)
  let locked := any.filter fun (n, _) => ((s.pt .baxel n).peer.map (·.state)).getD 0 = 2
  if any.isEmpty then
    (s.bx.c.time.ports.foldl (fun s (n, _) => s.setBit .baxel (ttPort .baxel n 0x0C) 1 false) s, none)
  else
    let (ps, a, split) := combine locked any (s.fld .baxel 0x0300 0 24)
    let s1 := s.bx.c.time.ports.foldl
      (fun s (n, _) => s.rejectPort n (ps.any (·.1 = n)) (a.any (·.1 = n))) s
    let s2 := if split then (s1.stickyTime .baxel 0x30C 0).report .baxel 0x100A (ps.map (·.1)) else s1
    (s2, some (combined a))

/-- R57: whether two θ_p agree within `KS_TT_REJECT`. -/
def agree (reject : Nat) (a b : Int) : Bool := (a - b).natAbs ≤ reject

/-- R44, R57: a switch of parent to the best other candidate, counted where one is taken. -/
def State.switchParent (s : State) : State :=
  let cs := s.candidates.filter fun (n, _) => some n ≠ s.ks.c.time.parent
  let s1 := s.takeBest cs
  if cs.any fun (_, c) => c.depth < 14 then s1.count (evK 0x100320) else s1

/-- R57: the key of the tree a cell belongs to, lower first. -/
def treeKey (c : TimeCell) : List Nat := [c.rootPrio, c.rootId]

/-- R44, R57, R58: what a Kresia that is no root reviews at a servo interval: it leaves a parent whose cells carry DEPTH 15,
follows a better tree where two roots have met, and keeps the best two other candidates as monitors (log 130). -/
def State.reviewParent (s : State) : State :=
  match s.ks.c.time.parent with
  | none => s
  | some n =>
    let others := s.candidates.filter fun (m, c) => m ≠ n && c.depth < 14
    match (s.pt .kresia n).peer with
    | none => s
    | some c =>
      if c.depth = 15 then
        if others.isEmpty then (s.modTime .kresia fun t => { t with parent := none, monitors := [], depth := 15 }).takeBest s.candidates
        else s.switchParent
      else match others with
        | (_, b) :: _ =>
          if treeKey b < treeKey c then s.switchParent
          else s.modTime .kresia fun t => { t with monitors := (others.take 2).map (·.1) }
        | [] => s.modTime .kresia fun t => { t with monitors := [] }

/-- R58: a root that hears a better one becomes a node of its tree. -/
def State.reviewRoot (s : State) : State :=
  let t := s.ks.c.time
  match s.candidates.filter fun (_, c) => c.depth < 14 with
  | (_, b) :: _ =>
    if treeKey b < [t.rootPrio, t.rootId] then
      (s.modTime .kresia fun t => { t with holdoverFlag := false, crown := { t.crown with isRoot := false } }).chooseParent
    else s
  | [] => s

/-- R57, R65: rejection of one of the three ports a Kresia computes: it differs from both others while they agree. -/
def State.rejectK (s : State) (reject : Nat) (n : Nat) (others : List Nat) : State :=
  let x := s.pt .kresia n
  let ths := others.filterMap fun m => (s.pt .kresia m).thetaP
  let rej := match x.thetaP, ths with
    | some v, [a, b] => agree reject a b && !agree reject v a && !agree reject v b
    | _, _ => false
  let c := if rej then x.rejected + 1 else if x.thetaP.isSome then 0 else x.rejected
  (s.modPt .kresia n fun y => { y with rejected := c }).setBit .kresia (ttPort .kresia n 0x0C) 2 (16 ≤ c)

/-- R53, R57: the Kresia's θ of an interval: the parent's θ_p, a monitor's while calibration takes it away, after a
switch the new parent's. -/
def State.thetaKresia (s : State) : State × Option Int :=
  match s.ks.c.time.parent with
  | none => (s, none)
  | some pn =>
    let mons := s.ks.c.time.monitors
    let reject := s.fld .kresia 0x100300 0 24
    let three := pn :: mons
    let s1 := three.foldl (fun s n => s.rejectK reject n (three.filter (· ≠ n))) s
    let x := s1.pt .kresia pn
    let mths := mons.filterMap fun m => (s1.pt .kresia m).thetaP
    match x.thetaP with
    | some v =>
      let s2 := s1.modPt .kresia pn fun y => { y with missed := 0 }
      match mths with
      | [a, b] =>
        if agree reject a b && !agree reject v a && !agree reject v b then
          let s3 := s2.switchParent
          (s3, match s3.ks.c.time.parent with
            | some q => (s3.pt .kresia q).thetaP
            | none => none)
        else (s2, some v)
      | _ => (s2, some v)
    | none =>
      if x.calInterval then (s1, mths.head?)
      else
        let s2 := s1.modPt .kresia pn fun y => { y with missed := y.missed + 1 }
        if 2 ≤ x.missed + 1 then
          let s3 := (s2.modPt .kresia pn fun y => { y with missed := 0 }).switchParent
          (s3, match s3.ks.c.time.parent with
            | some q => if q = pn then none else (s3.pt .kresia q).thetaP
            | none => none)
        else (s2, none)

/-- R45: whether a phase source has been heard within the last 2 s (the manual names no time; log 12). -/
def fresh (now : Raw) (r : Option Raw) : Bool :=
  match r with
  | some x => Raw.diff now x ≤ 2 * secGrains
  | none => false

/-- R46: the key by which the alternate BMCA ranks a port's Announce, lower first: the data-set comparison of G.8275.1 with
the port's localPriority; below clockClass 128 the grandmaster's identity plays no part (PRESUMED, log 126). -/
def bmcaKey (port : Nat) (x : PtpPort) (a : PtpAnnounce) : List Nat :=
  [a.clockClass, a.accuracy, a.variance, a.priority2, x.localPriority,
   if a.clockClass < 128 then 0 else a.gmId.toNat, a.steps, port]

/-- R45, R46: the slave ports a time crown could take phase from, best first: no master port, an Announce heard, and an offset
within the last 2 s. -/
def TimeUnit.ptpRanked (t : TimeUnit) : List (Nat × PtpPort × PtpAnnounce) :=
  sortBy (fun a b => decide (bmcaKey a.1 a.2.1 a.2.2 ≤ bmcaKey b.1 b.2.1 b.2.2))
    (t.crown.ptp.filterMap fun (n, x) => match x.announced with
      | some a => if !x.master && fresh t.raw x.heard then some (n, x, a) else none
      | none => none)

/-- R45: the PTP port in use: the better one under the alternate BMCA. -/
def TimeUnit.ptpBest (t : TimeUnit) : Option (Nat × PtpPort × PtpAnnounce) := t.ptpRanked.head?

/-- R45: the phase source in use: the first of the order that is present. A source is disqualified when it gives no readings
(log 12). -/
def TimeUnit.phaseSource (t : TimeUnit) : PhaseSource :=
  (t.crown.phaseOrder.find? fun
    | .ptp => t.ptpBest.isSome
    | .pps => fresh t.raw t.crown.ppsRaw
    | .none => true).getD .none

/-- R45: the offset the phase source in use has given since the last interval. -/
def TimeUnit.phaseTheta (t : TimeUnit) : Option Int :=
  match t.phaseSource with
  | .ptp => t.ptpBest.bind fun q => q.2.1.theta
  | .pps => t.crown.ppsTheta
  | .none => none

/-- R45, R46: the frequency source in use, with its reading: the first of the order that is present. SyncE is present on the
PTP port in use unless its quality level is DNU, 15 (PRESUMED, log 126). -/
def TimeUnit.freqSource (t : TimeUnit) (f : FreqReading) : FreqSource × Option Int :=
  let syncE := match t.ptpBest with
    | some (_, x, _) => if x.ql.any (· < 15) then f.syncE else none
    | none => none
  match t.crown.freqOrder.find? fun
    | .syncE => syncE.isSome
    | .fref => f.fref.isSome
    | .ptpRate => t.phaseSource = .ptp
    | .board => true with
  | some .syncE => (.syncE, syncE)
  | some .fref => (.fref, f.fref)
  | some .ptpRate => (.ptpRate, t.phaseTheta)
  | _ => (.board, none)

/-- R45: the RATE the frequency source makes of the RATE in force: a frequency input steers it, the PTP-derived rate by the
servo's loop, the board oscillator alone leaves it (log 3). -/
def TimeUnit.crownRate (t : TimeUnit) (f : FreqReading) : Int :=
  match t.freqSource f with
  | (.ptpRate, some th) => clampRate (Config.ptpRate th t.rateFreq)
  | (.syncE, some y) => clampRate (Config.freqRate y t.rateFreq)
  | (.fref, some y) => clampRate (Config.freqRate y t.rateFreq)
  | _ => t.rateFreq

/-- s with the time crown's memory of its sources changed by g. -/
def State.modCrown (s : State) (g : TimeCrown → TimeCrown) : State := s.modTime .kresia fun t => { t with crown := g t.crown }

/-- s with what a PTP port of the Kresia holds changed by g. -/
def State.modPtp (s : State) (port : Nat) (g : PtpPort → PtpPort) : State :=
  s.modCrown fun c => { c with ptp := FMap.update c.ptp port {} g }

/-- R65: UTC_OFFSET as the part's cells carry it. -/
def State.setUtc (s : State) (utc : BitVec 16) : State :=
  (s.modTime .kresia fun t => { t with utcOffset := utc }).setFld .kresia 0x100314 0 16 utc.toNat

/-- R47: a root carries the UTC offset, the clock class and the grandmaster of the chosen PTP path. -/
def State.carryPath (s : State) : State :=
  let t := s.ks.c.time
  match t.ptpBest with
  | some (_, _, a) =>
    if t.crown.isRoot then
      (s.modTime .kresia fun t => { t with clockClass := a.clockClass, gmId := a.gmId }).setUtc a.utcOffset
    else s
  | none => s

/-- R45, R47, R60: an interval of the root time crown: phase from the source in use steers OFFSET_OT, frequency RATE; without
a phase source it stays on its own oscillator, clears GM_TRACEABLE and sets HOLDOVER in its cells. -/
def State.servoCrown (s : State) (f : FreqReading) : State :=
  let t := s.ks.c.time
  let trace : Bool := t.phaseSource ≠ .none
  let rate := t.crownRate f
  let s1 := ((s.modTime .kresia fun t => { t with gmTraceable := trace, holdoverFlag := !trace && t.state ≠ .unset }).setBit
    .kresia 0x100310 25 trace).carryPath.modCrown fun c =>
      { c with ptp := FMap.mapVals c.ptp fun _ x => { x with theta := none }, ppsTheta := none }
  match t.phaseTheta with
  | some th =>
    (s1.wr64 .kresia 0x100304 (BitVec.ofInt 64 th)).servoTheta .kresia th (rate, rate) (otAdd · (Config.phaseStep th))
  | none =>
    if rate = t.rateFreq || t.state = .unset then s1
    else (s1.modTime .kresia fun t => { t with rateFreq := rate }).servoCommit .kresia (otOfRaw t.active) rate none

/-- A Kresia becomes the root of its tree with a priority: ROOT_CHANGED where the root or its epoch changes (R65), and its
cells carry its own path (R47). -/
def State.takeRoot (s : State) (prio epoch : Nat) : State :=
  let id := s.fld .kresia 0x4 0 17
  let t := s.ks.c.time
  let s1 := s.modTime .kresia fun t =>
    { t with rootPrio := prio, rootEpoch := epoch % 256, rootId := id, depth := 0, parent := none, monitors := [],
             crown := { t.crown with isRoot := true } }
  let s2 := ((s1.setFld .kresia 0x100310 0 17 id).setFld .kresia 0x100310 17 8 epoch).carryPath
  if t.rootId ≠ id || t.rootEpoch ≠ epoch % 256 then s2.stickyTime .kresia 0x30C 4 else s2

/-- R45, R391: orders of sources commanded take effect at a servo interval. -/
def State.takeOrder (s : State) : State :=
  match s.ks.c.time.crown.nextOrder with
  | some (ph, fr) => s.modTime .kresia fun t => { t with crown := { t.crown with phaseOrder := ph, freqOrder := fr, nextOrder := none } }
  | none => s

/-- R43, R48, R58, R59: a primary time crown that has seen no tree and has the reading of a source takes the root: of the
site, or of the one hall. -/
def State.bloom (s : State) : State :=
  let t := s.ks.c.time
  if t.crown.role = 1 && (t.crown.siteRoot || s.ks.build.halls = 1) && !t.crown.isRoot && t.state = .unset && t.parent = none &&
    t.firstCand = none && t.phaseTheta.isSome then s.takeRoot 0 t.rootEpoch
  else s

/-- SERVO_INTERVAL (R52, R57, R59 to R61): the end of a 4 ms interval; `f` is what the frequency inputs of a time crown read
over it (R45, log 39). -/
def execServoInterval (p : Part) (f : FreqReading) (s : State) : Answer :=
  let s0 := (s.closePorts p).count (evTime p 0x318)
  let clear (s : State) : State := s.modTime p fun t =>
    { t with ports := FMap.mapVals t.ports fun n x => { x with calInterval := s.portCal p n } }
  match p with
  | .baxel =>
    let (s1, th) := s0.combineBaxel
    .next (clear (match th with
      | some v =>
        (s1.wr64 .baxel 0x0304 (BitVec.ofInt 64 v)).servoTheta .baxel v (servoRates .baxel s1.bx.c.time.rateFreq v)
      | none => s1.servoNone .baxel))
  | .kresia =>
    let s1 := s0.takeOrder.bloom
    let sk := if s1.ks.c.time.crown.isRoot then s1.reviewRoot else s1
    if sk.ks.c.time.crown.isRoot then .next (clear (sk.servoCrown f))
    else
      let (s1, th) := sk.reviewParent.thetaKresia
      let s2 := s1.ks.c.time.ports.foldl
        (fun s (n, _) => s.setBit .kresia (ttPort .kresia n 0x0C) 1 (s1.ks.c.time.parent = some n)) s1
      .next (clear (match th with
        | some v =>
          (s2.wr64 .kresia 0x100304 (BitVec.ofInt 64 v)).servoTheta .kresia v (servoRates .kresia s2.ks.c.time.rateFreq v)
        | none => s2.servoNone .kresia))

/-! ### Roots and sources -/

/-- ROOT_TAKEOVER (R58): the secondary time crown, with no cell of the primary's tree on any port for 5 ms. -/
def execRootTakeover (s : State) : Answer :=
  let t := s.ks.c.time
  let silent := match t.crown.lastPrimaryRaw with
    | some r => 5000000 * 65536 ≤ Raw.diff t.raw r
    | none => false
  .next (if t.crown.role = 2 && !t.crown.isRoot && silent then
      (s.takeRoot 1 (t.rootEpoch + 1)).report .kresia 0x100D
    else s)

/-- TIME_NO_SOURCE (R48): a primary time crown with no phase source 60 s after its firmware started. -/
def execTimeNoSource (s : State) : Answer :=
  let t := s.ks.c.time
  let late := match t.crown.fwStartRaw with
    | some r => 60 * secGrains ≤ Raw.diff t.raw r
    | none => false
  .next (if t.crown.role = 1 && t.state = .unset && t.phaseSource = .none && late && !t.crown.noSourceReported then
      (s.modTime .kresia fun t => { t with crown := { t.crown with noSourceReported := true } }).report .kresia 0x1008
    else s)

/-- R46: a frame discarded as not supported. -/
def State.ptpDiscard (s : State) : State := s.modKs fun k => { k with ptpDiscard := k.ptpDiscard + 1 }

/-- R46: the frames listed as not supported. -/
def ptpUnsupported (f : PtpFrame) : Bool := f = .udp || f = .g82752 || f = .transparent || f = .management

/-- R46, R47: a supported frame at a slave port of a time crown, with the OT at which it arrived. -/
def State.ptpTake (s : State) (port : Nat) (f : PtpFrame) (rx : Option OT) : State :=
  match f with
  | .udp => s
  | .g82752 => s
  | .transparent => s
  | .management => s
  | .delayReq _ => s
  | .sync o => s.modPtp port fun x => { x with syncOrigin := o, syncRx := rx, heard := some (s.raw .kresia) }
  | .followUp o => s.modPtp port fun x => { x with syncOrigin := some o }
  | .delayResp at' =>
    s.modPtp port fun x => match x.syncOrigin, x.syncRx, x.reqTx with
      | some o, some r, some tx =>
        { x with theta := some ((otDiff r o - otDiff at' tx) / 2), heard := some (s.raw .kresia), reqTx := none }
      | _, _, _ => x
  | .announce a => (s.modPtp port fun x => { x with announced := some a }).carryPath
  | .esmc ql => s.modPtp port fun x => { x with ql := some ql }

/-- What the Kresia holds of a PTP port. -/
def State.ptpPort (s : State) (port : Nat) : PtpPort := FMap.getD s.ks.c.time.crown.ptp port {}

/-- R46: the frames whose arrival a port stamps. -/
def ptpEvent (f : PtpFrame) : Bool :=
  match f with
  | .sync _ => true
  | .delayReq _ => true
  | _ => false

/-- PTP_FRAME_RX (R46, R47): a PTP frame on MGMT_A (0) or MGMT_B (1), with its edge at the timestamp point. A time crown's
slave port takes Sync, Follow_Up and Delay_Resp into an offset, and Announce into what its cells carry; a master port answers
Delay_Req; frames not supported are counted. A frame whose domain number no port may have is counted as one of them, and one of
another domain of 24 to 43 than the port's is passed over (DESIGN CHOICE, log 132). -/
def execPtpFrameRx (port domainNumber : Nat) (f : PtpFrame) (rx : EdgeStamp) (s : State) : Answer :=
  .next (if domainNumber < 24 || 43 < domainNumber || ptpUnsupported f then s.ptpDiscard
    else if domainNumber ≠ s.ks.c.time.crown.ptpDomain then s
    else
      let stamp := (s.pairStamp .kresia (tdcMgmtRx port) rx).map (·.2)
      let s1 := if ptpEvent f then (s.pairDead .kresia (tdcMgmtRx port)).modTime .kresia fun t =>
          { t with wrapped := t.wrapped || (match stamp with | some r => t.wraps r | none => false) } else s
      let ot := stamp.map s.ks.c.time.ot
      if (s.ptpPort port).master then
        match f, ot with
        | .delayReq id, some t => s1.emit (.send .kresia .mgmt (.ptpDelayResp port id t))
        | _, _ => s1
      else if s.ks.c.time.crown.role = 0 then s1
      else s1.ptpTake port f ot)

/-- R46: the messages a port sends in its role: a master port Sync and Announce, a slave port of a time crown Delay_Req. -/
def State.ptpSends (s : State) (port : Nat) (m : PtpTx) : Bool :=
  match m with
  | .delayReq => !(s.ptpPort port).master && s.ks.c.time.crown.role ≠ 0
  | _ => (s.ptpPort port).master

/-- PTP_MESSAGE_TX (R46, R70, R86, R87): a Sync, Delay_Req or Announce that the port sends in its role; the stamps of event
frames enter the queue, and a two-step Sync without its entry sends no Follow_Up and is counted. -/
def execPtpMessageTx (port : Nat) (m : PtpTx) (ident : Nat) (tx : EdgeStamp) (s : State) : Answer :=
  let t := s.ks.c.time
  if !s.ptpSends port m then .next s
  else if m = .announce then
    .next (s.emit (.send .kresia .mgmt (.ptpAnnounce port t.crown.ptpDomain t.clockClass t.gmId t.utcOffset)))
  else
    let s0 := s.pairDead .kresia (tdcMgmtTx port)
    let bare (s : State) : State := s.emit (.send .kresia .mgmt (.ptp m ident none))
    match s.pairStamp .kresia (tdcMgmtTx port) tx with
    | none => .next (if m = .sync then (bare s0).ptpDiscard else bare s0)
    | some (i, raw) =>
      let flags := (if (s.tdc .kresia i).passed then 0 else 1) + (if i % 2 = 1 then 2 else 0) + 128
      let room := s.ks.c.stamp.txq.length < 64
      let s1 := ((s0.modTime .kresia fun t => t.noteWrap raw).pushTxq .kresia
        ⟨raw, ident, 0x100 + port, 2, (s.rd .kresia 0x100134).toNat % 256, flags⟩)
      match m with
      | .sync => .next (if room then s1.emit (.send .kresia .mgmt (.ptp m ident (some (t.ot raw)))) else (bare s1).ptpDiscard)
      | .delayReq => .next ((bare s1).modPtp port fun x => { x with reqTx := if room then some (t.ot raw) else none })
      | .announce => .next s1

/-- R45, R46: a phase reading from 1PPS once the time of day of its second is known; the cable delay is taken off. -/
def State.ppsReading (s : State) (raw : Raw) (tod : OT) : State :=
  s.modTime .kresia fun t =>
    { t with wrapped := t.wrapped || t.wraps raw, crown := { t.crown with
        ppsTheta := some (otDiff (t.ot raw) tod - (s.ks.ppsDelay : Int)), ppsRaw := some t.raw } }

/-- PPS_IN_EDGE (R45): a rising edge on PPS_IN, stamped by the time island. -/
def execPpsInEdge (e : EdgeStamp) (s : State) : Answer :=
  let raw := e.enext - BitVec.ofNat 64 (nominalF e.code)
  .next (s.modTime .kresia fun t => { t with crown := { t.crown with ppsStamp := some raw } })

/-- TOD_RX_MESSAGE (R45, R47): the time of day of the last 1PPS edge; a root without a PTP path carries its UTC offset. -/
def execTodRxMessage (ot : OT) (utcOffset : BitVec 16) (s : State) : Answer :=
  let t := s.ks.c.time
  let s0 := s.modTime .kresia fun t => { t with crown := { t.crown with tod := some ot } }
  let s1 := if t.crown.isRoot && t.ptpBest.isNone then s0.setUtc utcOffset else s0
  match t.crown.ppsStamp with
  | some r => .next ((s1.ppsReading r ot).modTime .kresia fun t => { t with crown := { t.crown with ppsStamp := none } })
  | none => .next s1

end Sys2Proof.Machine
end

