-- ==== Sys2Proof/Machine/Heads.lean ====
section
/-! DEFINITION. The head of a packet (R271, R272, R273, R288), what a receiver reads from one, and when a head that passes its
CRC is bad (R274). -/

namespace Sys2Proof
open Sys2Proof.Machine

/-! ### Building (R271, R272) -/

/-- Fields of (value, width) from the lowest bit upward. -/
def packBits : List (Nat × Nat) → Nat
  | [] => 0
  | (v, n) :: t => v % 2 ^ n + 2 ^ n * packBits t

/-- R271: the 32 bytes of a head: bytes 0 to 27, then their CRC. -/
def sealHead (bs : List Byte) : List Byte := bs ++ leBytes 4 (crc32 bs).toNat

/-- R271: a head of a KIND with its AREA fields; `cells` payload cells, none in a LINK head. -/
def headBytes (kind tc lseq cells : Nat) (area : List (Nat × Nat)) : List Byte :=
  sealHead (leBytes 28 (packBits ([(kind, 3), (tc, 3), (lseq, 16), (cells - 1, 6)] ++ area)))

/-- R272: AREA of a MSG: ROUTE 0 to DST, 1 a downward broadcast of DOMAIN, 2 this hop only. -/
def msgArea (dst src domain route : Nat) : List (Nat × Nat) := [(dst, 21), (src, 21), (domain, 16), (route, 2)]

/-- R272: AREA of a MGMT packet. -/
def mgmtArea (dst src : Nat) : List (Nat × Nat) := [(dst, 21), (src, 21)]

/-- R205, R272: AREA of a CHUNK packet: the chunk tag. -/
def ChunkPacket.area (k : ChunkPacket) : List (Nat × Nat) :=
  [(k.domain, 16), (k.epoch, 32), (k.step, 16), (k.coll, 12), (k.chunk, 24), (k.restart, 4), (k.role, 3), (k.sender, 20), (k.pkt, 12),
   (if k.last then 1 else 0, 1), (k.first, 15), (k.nelem, 14)]

/-- R272, R273: AREA of RW and RW_LAST: the landing address [40:6], and with LAST the signal and DECLARED[20:6]. -/
def RsigPacket.area (k : RsigPacket) (dst : Nat) : List (Nat × Nat) :=
  [(k.domain, 16), (k.epoch, 32), (k.transfer, 16), (k.index, 8), (k.src, 21), (dst, 21), (k.addr / 64, 35)] ++
  (if k.last then [(k.sigObj, 16), (k.sigN, 16), (k.declared / 64, 15)] else [])

/-- R272: AREA of a DSP packet. -/
def DspPacket.area (k : DspPacket) (dst : Nat) : List (Nat × Nat) :=
  [(k.domain, 16), (k.epoch, 32), (k.step, 16), (k.layer, 16), (k.restart, 4), (k.phase, 2), (k.sender, 21), (k.position, 20),
   (k.token, 40), (dst, 21)]

/-- R272: AREA of an ACK (OP 0) or NAK (OP 1). -/
def LinkHead.area (op : Nat) (h : LinkHead) : List (Nat × Nat) :=
  [(op, 4), (h.ackSeq, 16)] ++ (List.range 8).map (fun c => (h.cr.getD c 0, 16)) ++ [(h.floorDom, 16), (h.floorRet, 16)]

/-- R272, R288: AREA of CAPS (OP 2) or CAPS_ACK (OP 3). -/
def Caps.area (op : Nat) (c : Caps) : List (Nat × Nat) :=
  [(op, 4), (c.ploavMax, 4), (c.role, 2), (c.node, 21), (c.plane, 3), (c.version.2.2, 8), (c.version.2.1, 8), (c.version.1, 8),
   (c.features, 16)] ++ (List.range 7).map fun k => (c.floors.getD k 0, 16)

/-- R289, R142: the head of each packet of a transfer: RW, and RW_LAST with LAST; over Ploav 2 KIND 3 throughout. -/
def RsigPacket.head (k : RsigPacket) (v2 : Bool) (tc lseq dst : Nat) : List Byte :=
  headBytes (if k.last && !v2 then 4 else 3) tc lseq ((k.payload.length + 63) / 64) (k.area dst)
def ChunkPacket.head (k : ChunkPacket) (lseq : Nat) : List Byte := headBytes 2 k.cls lseq ((k.payload.length + 63) / 64) k.area
def DspPacket.head (k : DspPacket) (tc lseq dst : Nat) : List Byte := headBytes 5 tc lseq ((k.data.length + 63) / 64) (k.area dst)
def LinkHead.head (op : Nat) (h : LinkHead) : List Byte := headBytes 0 0 0 1 (h.area op)
def Caps.head (op : Nat) (c : Caps) : List Byte := headBytes 0 0 0 1 (c.area op)

/-! ### Reading (R271, R272) -/

/-- Bits [lo + n - 1 : lo] of a head. -/
def headField (h : List Byte) (lo n : Nat) : Nat := le h 0 28 / 2 ^ lo % 2 ^ n

def RxPacket.kind (x : RxPacket) : Nat := headField x.head 0 3
def RxPacket.lseq (x : RxPacket) : Nat := headField x.head 6 16
/-- Bits of AREA. -/
def RxPacket.area (x : RxPacket) (lo n : Nat) : Nat := headField x.head (28 + lo) n

/-- R272: a node field that names no node: a Kresia identifier beyond the 16 bits of R445. -/
def noNode (v : Nat) : Bool := v / 2 ^ 20 % 2 = 1 && 2 ^ 16 ≤ v % 2 ^ 20

/-- A node field that no packet of a KIND without DST names. -/
def nodeNone : Nat := 2 ^ 21 - 1

/-- R271, R278: the CRC of a head fails. -/
def RxPacket.headCrc (x : RxPacket) : Bool := crc32 (x.head.take 28) ≠ BitVec.ofNat 32 (le x.head 28 4)

/-- R274: a sequenced head that passes its CRC but breaks R271 or R272: KIND 7 or a LINK head, TC 7, a reserved field not zero, a
node field that names no node. -/
def RxPacket.headBad (x : RxPacket) : Bool :=
  headField x.head 3 3 = 7 ||
  (match x.kind with
   | 1 => x.area 60 136 ≠ 0 || noNode (x.area 0 21) || noNode (x.area 21 21)
   | 2 => x.area 169 27 ≠ 0
   | 3 => x.area 149 47 ≠ 0 || noNode (x.area 72 21) || noNode (x.area 93 21)
   | 4 => noNode (x.area 72 21) || noNode (x.area 93 21)
   | 5 => x.area 188 8 ≠ 0 || noNode (x.area 86 21) || noNode (x.area 167 21)
   | 6 => x.area 42 154 ≠ 0 || noNode (x.area 0 21) || noNode (x.area 21 21)
   | _ => true)

/-- R272: the packet a sequenced head tells of. -/
def RxPacket.pkt (x : RxPacket) : Packet :=
  let base : Packet := { kind := x.kind, tc := headField x.head 3 3, cells := headField x.head 22 6 + 1
                         bytes := 64 * (headField x.head 22 6 + 1), dst := nodeNone, src := nodeNone }
  match x.kind with
  | 1 => { base with dst := x.area 0 21, src := x.area 21 21, domain := some (x.area 42 16) }
  | 2 => { base with domain := some (x.area 0 16), src := if x.area 104 3 = 1 then 2 ^ 20 + x.area 107 17 else x.area 107 20 }
  | 3 => { base with domain := some (x.area 0 16), src := x.area 72 21, dst := x.area 93 21, addr := 64 * x.area 114 35 }
  | 4 => { base with domain := some (x.area 0 16), src := x.area 72 21, dst := x.area 93 21, addr := 64 * x.area 114 35 }
  | 5 => { base with domain := some (x.area 0 16), src := x.area 86 21, dst := x.area 167 21 }
  | 6 => { base with dst := x.area 0 21, src := x.area 21 21 }
  | _ => base

end Sys2Proof
end

