-- ==== Sys2Proof/Machine/ArmCore.lean ====
section
/-! DEFINITION. Operator snapshots (R365): what `snap.arm` does with its selectors. -/

namespace Sys2Proof.Machine

/-- R361: one selector as its 8 bytes spell it. -/
def selOf (v : Nat) : Selector :=
  { event := v % 2 ^ 20, part := if v / 2 ^ 20 % 2 = 1 then .kresia else .baxel, port := v / 2 ^ 21 % 2 ^ 8,
    portEn := v / 2 ^ 29 % 2 = 1, cls := v / 2 ^ 30 % 8, clsEn := v / 2 ^ 33 % 2 = 1 }

/-- R361: whether a selector's bytes keep their zero bits. -/
def selZero (v : Nat) : Bool := v / 2 ^ 34 = 0

/-- R365: `snap.arm` with its selectors at hand: T refused under R31 or R40, a fifth arm, or a bad selector; else the
part captures its own selectors at T. -/
def State.armWith (s : State) (p : Part) (m k : Nat) (bs : List Byte) : State :=
  match (s.mslot p m k).taken with
  | none => s
  | some tk =>
    let u := (s.pc p).time
    let t := leOt tk.bytes 8
    let n := le tk.bytes 20 1
    let vs := (List.range n).map fun i => le bs (8 * i) 8
    if 4 ≤ ((s.pc p).ctr.snapArms.filter fun a => a.domain = 0xFFFF).length then s.complete p m k 0x2044
    else match u.dueCode t with
      | some c => s.complete p m k c
      | none =>
        if vs.any fun v => !selZero v || (selCode (selOf v)).isSome then s.complete p m k 0xA103
        else
          let a : SnapArm := { domain := 0xFFFF, epoch := 0, step := 0, set := 0, due := u.mkDue t,
                               sels := (vs.map selOf).filter fun x => x.part = p }
          if 0 ≤ otDiff u.now t then (s.capture p a u.raw true).complete p m k 0x0000
          else (s.modCtr p fun c => { c with snapArms := c.snapArms ++ [a] }).complete p m k 0x0000

end Sys2Proof.Machine
end

