-- ==== Sys2Proof/Machine/BxChunk.lean ====
section
/-! DEFINITION. A Baxel's side of collectives: posts (R203), send queues (R204, R208), parts and detours (R205 to R207,
R217), releases and resends (R211, R218, R219). -/

namespace Sys2Proof.Machine

/-! ### Posting (R203) -/

/-- R203: why a post is refused; none where it is taken. -/
def State.postCode (s : State) (t coll first count : Nat) : Option Code :=
  let x := s.ten t
  let g := x.prog
  let mine (k : Nat) : Bool := (cSet g coll k).contains x.position
  if x.faulted || x.domain.isNone || collCount g ≤ coll || count = 0 || cChunks g coll < first + count then some 0x4003
  else if !((List.range count).all fun i => mine (first + i)) then some 0x4003
  else if cSparse g coll && count ≠ 1 then some 0x4003
  else if 64 ≤ x.posts.length then some 0x4002
  else none

/-! ### Admission and routes -/

/-- R208: what a Kresia last announced of a role in a step. -/
def State.baseHeard (s : State) (d c role step node : Nat) : Nat :=
  let b := FMap.getD s.bx.bases (winKey d c role step * 2 ^ 17 + node) ⟨step, 0⟩
  if b.step % 65536 = step % 65536 then b.base else 0

/-- R208: whether the home of a chunk has admitted it, as heard. -/
def State.bxHomeAdmits (s : State) (t : Nat) (g : Image) (c k step : Nat) : Bool :=
  let x := s.ten t
  let h := homeOf x.moved g c k step
  seqIndex x.moved g c k step (fun i => i = h) < s.baseHeard (x.domain.getD 0) c 1 step h + cWindow g c

/-- R208, R201: whether the member's leaf has admitted a chunk, as heard: the chunks its leaf serves are those of the plane
that have contributors in the member's group. -/
def State.bxLeafAdmits (s : State) (t : Nat) (g : Image) (c k step plane : Nat) : Bool :=
  let x := s.ten t
  let before := (List.range k).filter fun j => ksPlane (homeOf x.moved g c j step) = plane &&
    (cSet g c j).any fun i => (x.peers[i]?.map (·.2)) = some x.group
  before.length <
    s.baseHeard (x.domain.getD 0) c 0 step (x.leaf plane) + cWindow g c

/-- R217: the plane by which a chunk's part goes: its own, or that of the detour; none with no port in service. -/
def State.partRoute (s : State) (plane k : Nat) : Option (Nat × Bool) :=
  match s.bxPort plane with
  | some n => some (n, false)
  | none =>
    let l := s.bxPlanes
    if l.isEmpty then none else (s.bxPort (l.getD (k % l.length) 0)).map fun n => (n, true)

/-- R208, R217: whether a part of a chunk may go now. -/
def State.partAdmitted (s : State) (t : Nat) (g : Image) (c k step : Nat) : Bool :=
  let plane := ksPlane (homeOf (s.ten t).moved g c k step)
  match s.partRoute plane k with
  | none => false
  | some (_, true) => s.bxHomeAdmits t g c k step
  | some (_, false) => s.bxLeafAdmits t g c k step plane

/-! ### Sending (R204 to R207) -/

/-- R207: a member part's data packets from its contribution: (first, elements, payload), `left` elements from `first`. -/
def cutDense (fmt n : Nat) (bs : List Byte) : Nat → Nat → List (Nat × Nat × List Byte)
  | 0, _ => []
  | fuel + 1, first =>
    if n ≤ first then []
    else
      let m := perPacket fmt (n - first)
      let area := (bs.drop (areaBytes fmt first)).take (areaBytes fmt m)
      let scales := if inMx fmt then (bs.drop (areaBytes fmt n + first / 32)).take ((m + 31) / 32) else []
      (first, m, area ++ scales) :: cutDense fmt n bs fuel (first + m)

/-- R207, R212: a sparse list cut into packets. -/
def cutSparse (w : Nat) (bs : List Byte) (n : Nat) : List (Nat × Nat × List Byte) :=
  let per := 4096 / (4 + w)
  (List.range ((n + per - 1) / per)).map fun i =>
    let m := min per (n - i * per)
    (0, m, (bs.drop (i * per * (4 + w))).take (m * (4 + w)))

/-- R205: bytes of a part's contribution, and where it lies. -/
def partBytes (g : Image) (c k entries : Nat) : Nat :=
  if cSparse g c then entries * (4 + sparseWidth (cIn g c)) else inBytes (cIn g c) (cLen g c k)
def partAddr (g : Image) (c k addr : Nat) : Nat :=
  if cSparse g c then addr else cSrcAddr g c + k * inBytes (cIn g c) (cChunkElems g c)

/-- R204 to R206, R217: a part whose data have come goes out, if a port is in service. -/
def State.sendPart (s : State) (id : Nat) (x : BxPart) (bs : List Byte) : State :=
  let tn := s.ten x.tenant
  let g := tn.imageFor x.step
  let plane := ksPlane (homeOf tn.moved g x.coll x.chunk x.step)
  match s.partRoute plane x.chunk with
  | none => s
  | some (port, det) =>
    let data := if cSparse g x.coll then cutSparse (sparseWidth (cIn g x.coll)) bs x.entries
      else cutDense (cIn g x.coll) (cLen g x.coll x.chunk) bs (cLen g x.coll x.chunk) 0
    let hd : ChunkPacket :=
      { domain := tn.domain.getD 0, epoch := x.epoch, step := x.step % 65536, coll := x.coll, chunk := x.chunk,
        restart := x.restart, role := if det then 2 else 0, sender := s.node .baxel, pkt := 0, kind := if det then 3 else 0,
        group := if det then tn.group else 0, portmap := 1 <<< tn.port, cover := 1,
        distinct := if cSparse g x.coll then x.entries else 0 }
    let s1 := (partPackets hd data).foldl (fun s p => s.emit (.send .baxel (.port port) (.chunk p.cls p))) s
    let s2 := s1.count (evT x.tenant (if x.first.isSome then 0x324 else 0x320))
    let y : BxPart := { x with sent := true, data := none, detour := det, first := some (x.first.getD (s.raw .baxel, port)) }
    s2.modBx fun b => { b with parts := FMap.set b.parts id y }

/-- R204: whether a part of the same queue with a lower number has still to be sent; parts are numbered in the order in which
their queue serves them. -/
def State.partAhead (s : State) (id : Nat) (x : BxPart) : Bool :=
  let plane (y : BxPart) : Nat := ksPlane (homeOf (s.ten y.tenant).moved ((s.ten y.tenant).imageFor y.step) y.coll y.chunk y.step)
  s.bx.parts.any fun (i, y) => i < id && !y.sent && y.tenant = x.tenant && y.coll = x.coll && plane y = plane x

/-- R204, R208: the parts whose data have come go out, each in the order of its queue and while it is admitted. -/
def State.sendReady (s : State) : State :=
  s.bx.parts.foldl (fun s (id, _) => match FMap.find? s.bx.parts id with
    | some x => match x.data with
      | some bs =>
        if x.sent || s.partAhead id x || !s.partAdmitted x.tenant ((s.ten x.tenant).imageFor x.step) x.coll x.chunk x.step then s
        else s.sendPart id x bs
      | none => s
    | none => s) s

/-- R204, R205: a part that waits and is admitted reads its data; a part without data has none to read. -/
def State.readPart (s : State) (id : Nat) (x : BxPart) : State :=
  let g := (s.ten x.tenant).imageFor x.step
  let busy := s.bx.readJobs.any fun (_, j) => j.use = .part id
  if x.sent || x.data.isSome || busy || !s.partAdmitted x.tenant g x.coll x.chunk x.step then s
  else
    let n := partBytes g x.coll x.chunk x.entries
    if n = 0 then s.modBx fun b => { b with parts := FMap.set b.parts id { x with data := some [] } } else s.startRead x.tenant (partAddr g x.coll x.chunk x.addr) n (.part id)

/-- R204: the head of one send queue (a plane and a collective of a tenant): the first chunk of the first post that goes by
that plane. -/
def State.queueHead (s : State) (t plane c : Nat) : Option (BxPost × Nat) :=
  let x := s.ten t
  x.posts.findSome? fun p =>
    if p.coll ≠ c then none
    else (p.left.find? fun k => ksPlane (homeOf x.moved (x.imageFor p.step) c k p.step) = plane).map fun k => (p, k)

/-- R204: the head of a queue, if admitted, becomes a part. -/
def State.serveQueue (s : State) (t plane c : Nat) : State × Bool :=
  match s.queueHead t plane c with
  | none => (s, false)
  | some (p, k) =>
    if 8192 ≤ s.bx.parts.length + s.bx.sends.length || !s.partAdmitted t ((s.ten t).imageFor p.step) c k p.step then (s, false)
    else
      let id := s.bx.nextPart
      let x : BxPart := { tenant := t, coll := c, chunk := k, addr := p.addr, entries := p.entries, step := p.step, epoch := p.epoch }
      let s1 := s.modBx fun b => { b with parts := FMap.set b.parts id x, nextPart := id + 1 }
      let s2 := s1.modTen t fun y =>
        { y with posts := (y.posts.map fun q => if q = p then { q with left := q.left.erase k } else q).filter fun q => !q.left.isEmpty }
      (s2.readPart id x, true)

/-- R204: the send queues of all tenants served in rotation, while a head is admitted. -/
def State.serveRound (s : State) : Nat → State
  | 0 => s
  | n + 1 =>
    let keys := (List.range 4).flatMap fun t =>
      ((s.ten t).posts.map (·.coll)).eraseDups.flatMap fun c => (List.range 8).map fun pl => (t, pl, c)
    let (s1, any) := keys.foldl (fun ((s, any) : State × Bool) ((t, pl, c) : Nat × Nat × Nat) =>
      let (s', did) := s.serveQueue t pl c
      (s', any || did)) (s, false)
    if any then State.serveRound s1 n else s1

/-- Everything a Baxel may send of its parts now. -/
def State.pumpParts (s : State) : State :=
  let s1 := s.bx.parts.foldl (fun s (id, x) => s.readPart id x) s
  (s1.serveRound (sumBy ((List.range 4).flatMap fun t => (s.ten t).posts) (fun p => p.left.length) + 1)).sendReady

/-- R224: whether a tenant has posts queued and no admitted head part. -/
def State.partStall (s : State) (t : Nat) : Bool :=
  let x := s.ten t
  !x.posts.isEmpty && ((x.posts.map (·.coll)).eraseDups.all fun c => (List.range 8).all fun pl =>
    match s.queueHead t pl c with
    | some (p, k) => 8192 ≤ s.bx.parts.length + s.bx.sends.length || !s.partAdmitted t (x.imageFor p.step) c k p.step
    | none => true)

/-- R203: a post is queued, tagged with the step of the last fire and epoch E, and sending goes on. -/
def State.post (s : State) (t coll first count addr entries : Nat) : State :=
  let p : BxPost := { coll := coll, left := (List.range count).map (first + ·), addr := addr, entries := entries,
                      step := (s.ten t).firedStep.getD ((s.ten t).stepFirst.getD 0), epoch := (s.ten t).epoch }
  (s.modTen t fun y => { y with posts := y.posts ++ [p] }).pumpParts

/-! ### Releases and resends -/

/-- R211, R360: a released part is counted, and its latency sampled. -/
def State.countReleased (s : State) (x : BxPart) : State :=
  let s1 := s.count (evT x.tenant 0x328)
  match x.first with
  | some (r, port) => s1.sample .baxel 0xF0103 (Raw.diff (s.raw .baxel) r) (port := some port) (ten := some x.tenant)
  | none => s1

/-- R211: CHUNK_DONE releases the part. -/
def State.releaseParts (s : State) (d step c k : Nat) : State :=
  let is (x : BxPart) : Bool := (s.ten x.tenant).domain = some d && x.step % 65536 = step && x.coll = c && x.chunk = k
  let gone := s.bx.parts.filter fun (_, x) => is x
  let s1 := s.modBx fun b => { b with parts := b.parts.filter fun (_, x) => !is x }
  (gone.foldl (fun (s : State) (y : Nat × BxPart) => s.countReleased y.2) s1).pumpParts

/-- Parts that satisfy p go again, under a RESTART where one is given. -/
def State.resendParts (s : State) (p : BxPart → Bool) (restart : Option Nat) : State :=
  let again (x : BxPart) : BxPart := if p x then { x with sent := false, data := none, restart := restart.getD x.restart } else x
  (s.modBx fun b => { b with parts := FMap.mapVals b.parts fun _ x => again x }).pumpParts

/-- R217: a port of the Baxel has left service: the parts of its plane go again as detour parts. -/
def State.partPortLeft (s : State) (plane : Nat) : State :=
  s.resendParts (fun x => x.sent && !x.detour &&
    ksPlane (homeOf (s.ten x.tenant).moved ((s.ten x.tenant).imageFor x.step) x.coll x.chunk x.step) = plane) none

end Sys2Proof.Machine
end

