-- ==== Sys2Proof/Machine/BxDsp.lean ====
section
/-! DEFINITION. A Baxel's side of dispatch (R253, R263, R264, R266): posts, records, payloads and returns; and what the
bytes read from die memory go on to (R411). -/

namespace Sys2Proof.Machine

/-! ### The way to the dispatch leaf -/

/-- R255: the planes from a layer's on, in the order a member takes them for its dispatch leaf. -/
def dspPlanes (plane : Nat) : List Nat := (List.range 8).map fun i => (plane + i) % 8

/-- R255: the port to the dispatch leaf: of the layer's plane, or of the next plane in service. -/
def State.dspPort (s : State) (plane : Nat) : Option Nat := (dspPlanes plane).findSome? s.bxPort

/-- R255, R266: whether the port into a plane, which has just left service, led to the dispatch leaf of a layer of plane `first`. -/
def State.dspWas (s : State) (first plane : Nat) : Bool :=
  (dspPlanes first).find? (fun q => q = plane || (s.bxPort q).isSome) = some plane

def State.sendDsp (s : State) (g : Image) (x : DspPacket) : State :=
  match s.dspPort (lPlane g x.layer) with
  | some n => s.emit (.send .baxel (.port n) (.dsp 4 x))
  | none => s

/-! ### Posts -/

def DspPost.isFor (p : DspPost) (l step epoch : Nat) : Bool := p.layer = l && p.step = step && p.epoch = epoch

def State.modDspPost (s : State) (t l step epoch : Nat) (f : DspPost → DspPost) : State :=
  s.modTen t fun x => { x with dspPosts := x.dspPosts.map fun p => if p.isFor l step epoch then f p else p }

/-- R253: the step and epoch of what a tenant posts. -/
def Tenant.nowStep (x : Tenant) : Nat := x.firedStep.getD (x.stepFirst.getD 0)

/-- R253: why a post is refused. -/
def State.dspPostCode (s : State) (t l n : Nat) : Option Code :=
  let x := s.ten t
  let g := x.prog
  if x.faulted || x.domain.isNone || layCount g ≤ l || !lInSet g l x.position || lToks g l < n then some 0x6001
  else if x.dspPosts.any fun p => p.isFor l x.nowStep x.epoch then some 0x6001
  else if 16 ≤ (x.dspPosts.filter fun p => p.state < 3).length then some 0x6002
  else none

/-- R253: the records of a post, and END. -/
def State.sendList (s : State) (t : Nat) (g : Image) (p : DspPost) (recs : List Byte) : State :=
  let x := s.ten t
  let w := recordBytes g p.layer
  let base : DspPacket :=
    { domain := x.domain.getD 0, epoch := p.epoch, step := p.step, layer := p.layer, restart := p.restart, phase := 0,
      sender := s.node .baxel, position := x.position }
  let s1 := (List.range p.n).foldl (fun s i =>
    s.sendDsp g { base with token := i, data := (recs.drop (i * w)).take w }) s
  let s2 := (s1.sendDsp g { base with phase := 1, count := p.n }).modDspPost t p.layer p.step p.epoch fun q =>
    { q with state := 2, recs := recs }
  if p.n = 0 then s2 else s2.count (evT t 0x390) p.n

/-- R253: an opened post reads its records. -/
def State.beginPost (s : State) (t : Nat) (p : DspPost) : State :=
  let g := (s.ten t).imageFor p.step
  if p.state ≠ 0 || !((s.ten t).dspOpens.contains (p.layer, p.step, p.epoch)) then s
  else if p.n = 0 then s.sendList t g p []
  else (s.modDspPost t p.layer p.step p.epoch fun q => { q with state := 1 }).startRead t (lTokAddr g p.layer)
    (p.n * recordBytes g p.layer) (.records p.layer p.step p.epoch)

/-- R266: a member whose port to its dispatch leaf has left service before DSP_GO tells the plan home, through the next leaf. -/
def State.dspPortLeft (s : State) (plane : Nat) : State :=
  (List.range 4).foldl (fun s t =>
    let x := s.ten t
    x.dspPosts.foldl (fun s p =>
      let g := x.imageFor p.step
      match s.dspPort (lPlane g p.layer) with
      | some n =>
        if s.dspWas (lPlane g p.layer) plane && (p.state = 1 || p.state = 2) then
          (s.emit (.send .baxel (.port n) (.dspNote
            { kind := .lost, domain := x.domain.getD 0, epoch := p.epoch, step := p.step, layer := p.layer,
              group := lGroupOf g p.layer x.position, restart := p.restart, member := s.node .baxel }))).count (evT t 0x39C)
        else s
      | none => s) s) s

/-- R219, R266: the plan home of a group has moved: its open collection starts again, and a list sent goes again. -/
def State.resendLists (s : State) (t : Nat) (m : HomeMove) : State :=
  let x := s.ten t
  (x.dspPosts.filter fun p => p.layer = m.record && m.step.getD 0 ≤ p.step && p.state = 2 &&
    lGroupOf (x.imageFor p.step) p.layer x.position = m.element).foldl
    (fun s p => s.sendList t (x.imageFor p.step) p p.recs) s

/-! ### Returns (R264) -/

/-- R264: the slots a host block shows: (local expert, slot, token, rank). -/
def slotWords (g : Image) (l : Nat) (bs : List Byte) : List (Nat × Nat × Nat × Nat) :=
  (List.range (lExpPer g l)).flatMap fun j =>
    (List.range (min (le bs (4 * j) 4) (lCapMax g l))).map fun sl =>
      let w := le bs (ceil64 (4 * lExpPer g l) + 8 * (j * lCapMax g l + sl)) 8
      (j, sl, w % 2 ^ 40, w / 2 ^ 40 % 8)

/-- R264: the host blocks of a layer are read. -/
def State.returnLayer (s : State) (t l : Nat) : State :=
  let x := s.ten t
  let g := x.prog
  (List.range (lGroups g l)).foldl (fun s grp =>
    s.startRead t (lPlanAddr g l + 128 * lToks g l + grp * hostBlockBytes g l) (hostBlockBytes g l)
      (.hostBlock l grp x.nowStep x.epoch)) s

/-- R264: the outputs of the slots of one group are read. -/
def State.readSlots (s : State) (t l grp step epoch : Nat) (bs : List Byte) : State :=
  let g := (s.ten t).imageFor step
  (slotWords g l bs).foldl (fun s (j, sl, tok, rank) =>
    let src := lRecvAddr g l + ((j * lGroups g l + grp) * lCapMax g l + sl) * lPayload g l
    let pos := lSetFirst g l + tok / max 1 (lToks g l)
    let dst := lRetAddr g l + ((tok % max 1 (lToks g l)) * 8 + rank) * lRet g l
    s.startRead t src (lRet g l) (.slotOut l step epoch pos dst)) s

/-! ### What was read (R205, R253, R263, R264, R411) -/

/-- The bytes of a read job have all come. -/
def State.readDone (s : State) (j : ReadJob) : State :=
  let bs := j.all
  let t := j.tenant
  match j.use with
  | .part id => match FMap.find? s.bx.parts id with
    | some x => (s.modBx fun b => { b with parts := FMap.set b.parts id { x with data := some bs } }).sendReady
    | none => s
  | .records l step epoch => match (s.ten t).dspPosts.find? fun p => p.isFor l step epoch with
    | some p => s.sendList t ((s.ten t).imageFor step) p bs
    | none => s
  | .payload l step epoch token =>
    let x := s.ten t
    (s.sendDsp (x.imageFor step)
      { domain := x.domain.getD 0, epoch := epoch, step := step, layer := l, phase := 2, sender := s.node .baxel,
        position := x.position, token := token, data := bs }).count (evT t 0x394)
  | .hostBlock l grp step epoch => s.readSlots t l grp step epoch bs
  | .slotOut l _ epoch pos addr =>
    let x := s.ten t
    let m : RsigSend :=
      { receiver := (x.peers.getD pos (0, 0)).1, domain := x.domain.getD 0, epoch := epoch, transfer := 0, cls := 4, addr := addr,
        sigObj := lRetLobj x.prog l, sigN := 1, data := bs }
    (s.bxSend t m).count (evT t 0x398)
  | .boot whole =>
    let n := le bs 12 4
    if whole || n < 4096 || 2 ^ 25 < n then s.modFw .baxel fun w => { w with bootBytes := some bs }
    else s.coreRead j.addr n (.boot true)
  | .arm m k => s.armWith .baxel m k bs

/-- R374, R414: a read of the ROM or of firmware fails. -/
def State.readFailed (s : State) (j : ReadJob) : State :=
  match j.use with
  | .boot _ => (s.setFld .baxel 0x001C 0 16 0xB004).modFw .baxel fun w => { w with busy := false, bootBytes := none }
  | .arm m k => s.complete .baxel m k 0xB004
  | _ => s

/-- R411: one line of a read job comes; with the last one the job ends. -/
def State.lineCame (s : State) (id line : Nat) (data : List Byte) (err : Bool) : State :=
  match FMap.find? s.bx.readJobs id with
  | none => s
  | some j =>
    let j' := { j with data := FMap.set j.data line data, failed := j.failed || err }
    if j'.data.length < j'.lines then (s.modBx fun b => { b with readJobs := FMap.set b.readJobs id j' }).askLines id j'.lines
    else
      let s1 := s.modBx fun b => { b with readJobs := FMap.erase b.readJobs id }
      (if j'.failed then s1.readFailed j' else s1.readDone j').pumpReads

end Sys2Proof.Machine
end

