-- ==== Sys2Proof/Machine/PortGone.lean ====
section
/-! DEFINITION. What follows when a port leaves service (R139, R210, R217, R218, R266, R281). -/

namespace Sys2Proof.Machine

/-- R139, R142, R282: a Kresia sends the open transfers again that it had sent to a member through the plane lost: the
packets with the same TRANSFER by the return route; those to a Baxel 2.x start again under a new TRANSFER. -/
def State.resendTo (s : State) (member plane : Nat) : State :=
  s.ks.jobs.foldl (fun s (key, j) =>
    if j.receiver ≠ member then s
    else match FMap.find? s.ks.sends key with
      | some x =>
        if !x.via.contains plane then s
        else if x.v2 then
          (s.launchJob j).modKs fun k => { k with jobs := FMap.erase k.jobs key, sends := FMap.erase k.sends key }
        else
          (s.modKs fun k =>
            { k with sends := FMap.set k.sends key { x with via := [s.planeFor member x.transfer] } }).sendByRoute
            (j.sent x.epoch x.transfer) false
      | none => s) s

/-- R142, R282: a Baxel 2.x has no PLANE_LOST: its leaf alone knows that it has lost this plane (log 149). -/
def State.noteV2Lost (s : State) (member : Nat) : State :=
  let q := (member, ksPlane s.ksId)
  if s.ks.lostPlanes.contains q then s else s.modKs fun k => { k with lostPlanes := q :: k.lostPlanes }

/-- What follows at a Kresia when a port whose peer was c has left service. -/
def State.afterPortKs (s : State) (n : Nat) (c : Option Caps) : State :=
  match c with
  | some c =>
    if c.role = 0 then ((((s.noteV2Lost c.node).v2Lost c.node).dspV2Lost c.node).chunkPortLeft n).resendTo c.node (ksPlane s.ksId) else s.chunkPortLeft n
  | none => s.chunkPortLeft n

/-- The same at a Baxel. -/
def State.afterPortBx (s : State) (c : Option Caps) : State :=
  match c with
  | some c => ((s.partPortLeft c.plane).dspPortLeft c.plane).resendOpen c.plane
  | none => s

/-- The same at a part. -/
def State.afterPort (s : State) (p : Part) (n : Nat) (c : Option Caps) : State :=
  match p with
  | .kresia => s.afterPortKs n c
  | .baxel => s.afterPortBx c

/-- A port leaves service, and what travelled by it goes another way or is lost. -/
def State.portGone (s : State) (p : Part) (n : Nat) (code : Code) : State :=
  if s.up p n then (s.leaveService p n code).afterPort p n (s.lp p n).peer else s.leaveService p n code

end Sys2Proof.Machine
end

