-- ==== Sys2Proof/Machine/LinkFamily.lean ====
section
/-! DEFINITION. Ploav links: enqueueing and sending (R275 to R279, R299 to R303), receiving (R274, R278, R283 to R286),
retry (R279 to R281), planes lost (R282), ledgers (R287) and bring-up (R6, R7, R13, R54, R288, R445). -/

namespace Sys2Proof.Machine

/-! ### Enqueueing -/

/-- R275: the KINDs each class takes. -/
def kindsOf : Nat → List Nat
  | 0 => [1]
  | 1 => [1]
  | 2 => [3, 4, 1]
  | 3 => [2, 3, 4]
  | 4 => [5, 3, 4]
  | 5 => [2, 3, 4, 5, 6]
  | 6 => [6]
  | _ => []

/-- R19, R273, R275, R289: why a port refuses a packet at enqueue. -/
def State.enqCode (s : State) (p : Part) (n : Nat) (x : Packet) : Option Code :=
  if 7 ≤ x.tc then some 0x700B
  else if !(kindsOf x.tc).contains x.kind then some 0x700D
  else if p = .kresia && s.isTie n && (x.tc = 2 || x.tc = 3 || x.tc = 4) then some 0x7001
  else if s.fld p (lkAddr p n 0) 6 2 = 2 && x.tc = 2 then some 0x7008
  else if (x.kind = 3 || x.kind = 4) && (2 ^ 41 ≤ x.addr || x.bytes % 64 ≠ 0) then some 0x700C
  else none

/-- R300: where the code of a refusal goes: to the source's LAST_CODE, or in a report for a forwarded packet. -/
def State.gateRefusal (s : State) (p : Part) (n : Nat) (src : PacketSource) (q : QEntry) (code : Code) : State :=
  let s1 := (s.count (evGt p n 0x44)).modLedger p n (Ledger.consume · (cost q.pkt))
  match p, src with
  | .baxel, .local' (some t) => s1.viewCode t code
  | .kresia, .local' (some _) => s1.emit (.refused p code)
  | _, .local' none => s1.emit (.refused p code)
  | _, .forward .. =>
    let s2 := s1.giveBackOf p q
    if (s2.gp p n).reported.contains q.pkt.tc then s2
    else (s2.modGp p n fun g => { g with reported := q.pkt.tc :: g.reported }).report p code [n, q.pkt.tc] (port := n)

/-- PACKET_ENQUEUE (R275, R300): a packet joins its class queue, or is refused; one for a port out of service is
flushed (R281, R282). -/
def execPacketEnqueue (p : Part) (port : Nat) (src : PacketSource) (x : Packet) (s : State) : Answer :=
  let q : QEntry := { pkt := x, enq := s.raw p, inPort := match src with
    | .forward i false => some i
    | _ => none }
  match s.enqCode p port x with
  | some code => .next ((s.count (evLk p port 0x34)).lkCode p port code)
  | none =>
    let s1 := s.modLedger p port fun l => match src with
      | .local' _ => l.enter (cost x)
      | .forward _ true => l.replicate (cost x)
      | .forward _ false => l
    if !s1.up p port then
      .next (((s1.modLedger p port (Ledger.flush · (cost x))).count (evLk p port 0x38) (cost x)).giveBackOf p q)
    else match (s1.gated p port).bind fun l => s1.gateCode p port l x with
      | some code => .next (s1.gateRefusal p port src q code)
      | none =>
        let (tagged, s2) := s1.tagDraw p port x
        .next (s2.modLp p port fun y => { y with queues := FMap.update y.queues x.tc [] (· ++ [{ q with tagged := tagged }]) })

/-! ### Sending -/

/-- R283: whether a credit count covers a cost. -/
def covers (limit sent k : Nat) : Bool := k ≤ (limit + 65536 - sent % 65536) % 65536

/-- R283, R285: whether the port has the credit for a packet: the class's, or for TC1 the domain's floor. -/
def LinkPort.credit (x : LinkPort) (q : Packet) : Bool :=
  covers (FMap.getD x.limit q.tc 0) (FMap.getD x.sent q.tc 0) (cost q)
def LinkPort.floorCredit (x : LinkPort) (v3 : Bool) (q : Packet) : Bool :=
  match q.domain with
  | some d => q.tc = 1 && v3 && covers (FMap.getD x.domLimit d (match x.peer with
      | some c => if c.role = 0 then 8 else 2
      | none => 0)) (FMap.getD x.domSent d 0) (cost q)
  | none => false

/-- R285: whether a part holds domain floors for a domain: its program is loaded at a Kresia, a tenant bound to it at a Baxel. -/
def State.hasFloor (s : State) (p : Part) (d : Nat) : Bool :=
  match p with
  | .baxel => (s.tenantOf d).isSome
  | .kresia => (s.dom d).prog.isSome

/-- R283, R285, R289: whether the head of a class queue may be charged now. -/
def State.canCharge (s : State) (p : Part) (n : Nat) (q : Packet) : Bool :=
  (s.lp p n).credit q || ((q.domain.any fun d => s.hasFloor p d) && (s.lp p n).floorCredit (s.fld p (lkAddr p n 0) 6 2 = 3) q)

/-- R277, R283, R299, R301: whether class c can start its head packet now. -/
def State.eligible (s : State) (p : Part) (n c : Nat) : Bool :=
  match s.queue p n c with
  | [] => false
  | q :: _ =>
    s.gateOpen p n c && s.brimOk p n q.pkt && (!(s.shaper p n c).en || 0 ≤ (s.shaper p n c).credit) &&
    s.canCharge p n q.pkt && (s.lp p n).replayUsed + pktBytes q.pkt ≤ s.replayMax p n

/-- R276: the weight of a class in the deficit round robin. -/
def drrWeight : Nat → Nat
  | 3 => 4
  | 4 => 2
  | _ => 1

/-- R276: the deficit round robin over TC3 to TC6 from class `at'`: the class chosen, with the deficits and the pointer
after it. The quantum of a visit is the weight in cells. -/
def drr (el : Nat → Bool) (need : Nat → Nat) : Nat → Nat → FMap Nat → Option (Nat × FMap Nat)
  | 0, _, _ => none
  | fuel + 1, c, d =>
    if el c && need c ≤ FMap.getD d c 0 then some (c, FMap.update d c 0 fun x => x - need c)
    else
      let c' := if c = 6 then 3 else c + 1
      drr el need fuel c' (if el c' then FMap.update d c' 0 fun x => x + drrWeight c' else d)

/-- R276, R301: the class a port serves next. -/
def State.choose (s : State) (p : Part) (n : Nat) : Option (Nat × FMap Nat) :=
  let x := s.lp p n
  if s.eligible p n 0 then some (0, x.deficits)
  else if s.eligible p n 1 then some (1, x.deficits)
  else if s.eligible p n 2 then some (2, x.deficits)
  else if (s.eligible p n 3 || s.eligible p n 4 || s.eligible p n 5 || s.eligible p n 6) then
    drr (s.eligible p n) (fun c => match s.queue p n c with
      | q :: _ => cost q.pkt
      | [] => 0) 400 x.drrAt x.deficits
  else none

/-- R299, R303: holds counted at a boundary: a head the brim rule holds, once a packet; a head the shaper's credit
bars, at each boundary. -/
def State.countHolds (s : State) (p : Part) (n : Nat) : State :=
  [0, 1, 2, 3, 4, 5, 6].foldl (fun s c =>
    match s.queue p n c with
    | [] => s
    | q :: t =>
      let s1 := if s.gateOpen p n c && !q.brimHeld && !s.brimOk p n q.pkt then
          (s.modLp p n fun x => { x with queues := FMap.set x.queues c ({ q with brimHeld := true } :: t) }).count
            (evGt p n 0x48 (some c))
        else s
      if (s.shaper p n c).en && (s.shaper p n c).credit < 0 then s1.count (evGt p n 0x60 (some c)) else s1) s

/-- R298, R302: the wire is busy until a packet of length L that starts now has left; c is the class whose shaper it charges. -/
def State.wireBusy (s : State) (p : Part) (n : Nat) (x : Packet) (c : Option Nat) : State :=
  let stop := s.raw p + BitVec.ofNat 64 (s.counted p n x * 65536 / s.rate p n)
  s.modLp p n fun y => { y with busy := some (c, stop) }

/-- R277, R283: a new packet starts: the next LSEQ, a copy kept, its cells charged. A packet of TC0 is the time cell that the
port's next TIME_CELL_SEND stamps (R275, log 133). -/
def State.startNew (s : State) (p : Part) (n c : Nat) (d : FMap Nat) : State :=
  match s.queue p n c with
  | [] => s
  | q :: t =>
    let x := s.lp p n
    let shared := x.credit q.pkt
    let s1 := s.modLp p n fun y =>
      { y with
        queues := if t.isEmpty then FMap.erase y.queues c else FMap.set y.queues c t
        copies := y.copies ++ [⟨y.nextSeq, q, s.raw p, s.raw p, if c = 0 then some (((s.pt p n).txSeq + 1) % 65536) else none⟩]
        nextSeq := (y.nextSeq + 1) % 65536
        sent := if shared then FMap.update y.sent c 0 fun v => (v + cost q.pkt) % 65536 else y.sent
        domSent := if shared then y.domSent
          else FMap.update y.domSent (q.pkt.domain.getD 0) 0 fun v => (v + cost q.pkt) % 65536
        deficits := d
        drrAt := if 3 ≤ c then c else y.drrAt }
    let s2 := (s1.count (evLk p n 0x2C)).wireBusy p n q.pkt (some c)
    match p with
    | .kresia => s2.sample .kresia 0xF0183 (Raw.diff (s.raw p) q.enq) (port := some n) (cls := some c)
    | .baxel => s2

/-- R49, R279, R302: the next copy to resend starts, charging no shaper; a time cell among them loses its stamp. -/
def State.startResend (s : State) (p : Part) (n : Nat) : State :=
  let x := s.lp p n
  match x.resend with
  | [] => s
  | l :: t =>
    match x.copies.find? fun c => c.lseq = l with
    | none => s.modLp p n fun y => { y with resend := t }
    | some c =>
      let s1 := s.modLp p n fun y =>
        { y with resend := t, copies := y.copies.map fun k => if k.lseq = l then { k with sentAt := s.raw p } else k }
      let s2 := if s.gateOpen p n c.q.pkt.tc then s1 else s1.count (evGt p n 0x4C)
      let s3 := match c.cell with
        | some seq => s2.cellRetried p n seq
        | none => s2
      s3.wireBusy p n c.q.pkt none

/-- R276, R279, R299, R301, R303: what a port does at a packet boundary. -/
def State.boundary (s : State) (p : Part) (n : Nat) : State :=
  let x := s.lp p n
  let idle := match x.busy with
    | some (_, e) => Raw.diff e (s.raw p) ≤ 0
    | none => true
  if !s.up p n || !idle then s
  else if !x.resend.isEmpty then s.startResend p n
  else
    let s1 := s.countHolds p n
    match s1.choose p n with
    | some (c, d) => s1.startNew p n c d
    | none => s1

/-- PACKET_BOUNDARY (R276, R301). -/
def execPacketBoundary (p : Part) (port : Nat) (s : State) : Answer := .next (s.boundary p port)

/-- SHAPER_CREDIT_RECOVERED (R301, R303): the credit of a class has risen to 0 while its packet waits; an idle port
starts it. -/
def execShaperCreditRecovered (p : Part) (port : Nat) (cls : Nat) (s : State) : Answer :=
  if (s.shaper p port cls).en && 0 ≤ (s.shaper p port cls).credit && !(s.queue p port cls).isEmpty then
    .next (s.boundary p port)
  else .next s

/-! ### Receiving -/

/-- R278: what every LINK head of a port carries. -/
def State.linkHead (s : State) (p : Part) (n : Nat) : LinkHead :=
  let x := s.lp p n
  { ackSeq := (x.exp + 65535) % 65536, cr := (List.range 8).map fun c => FMap.getD x.returned c 0,
    floorDom := x.lastDom, floorRet := FMap.getD x.domReturned x.lastDom 0 }

/-- R281: RETRY_MAX and the uncorrectable codewords a port may see. -/
def State.retryMax (s : State) (p : Part) : Nat := match p with
  | .baxel => 64
  | .kresia => s.fld .kresia 0x190060 0 13
def State.uncMax (s : State) (p : Part) (n : Nat) : Nat :=
  (match p with
    | .baxel => 2
    | .kresia => s.fld .kresia 0x190064 0 11) * (if s.isQuad p n then 4 else 2)

/-- The raw values within a span before now. -/
def within (now : Raw) (span : Int) (l : List Raw) : List Raw := l.filter fun r => Raw.diff now r < span

/-- R278, R281: a NAK goes out; three in a row for one LSEQ take the port out of service. -/
def State.sendNak (s : State) (p : Part) (n : Nat) : State :=
  let x := s.lp p n
  let k := match x.nakSent with
    | some (q, k) => if q = x.exp then k + 1 else 1
    | none => 1
  let s1 := (s.modLp p n fun y =>
    { y with wait := true, lastNak := some (s.raw p), nakSent := some (x.exp, k), lastHead := some (s.raw p) }).emit
    (.send p (.port n) (.nak (s.linkHead p n)))
  if 3 ≤ k then s1.portGone p n 0x7005 else s1

/-- R278, R281: a packet lost on the line: its causes counted, a retry begun from NORMAL. -/
def State.lineError (s : State) (p : Part) (n : Nat) (x : RxPacket) : State :=
  let now := s.raw p
  let s1 := if x.uncorrectable = 0 then s.count (evLk p n 0x10) else s.count (evLk p n 0x0C) x.uncorrectable
  let s2 := s1.modLp p n fun y =>
    { y with uncs := List.replicate x.uncorrectable now ++ within now (10 * secGrains) y.uncs }
  if s2.uncMax p n < (s2.lp p n).uncs.length then s2.portGone p n 0x7006
  else if (s2.lp p n).wait then s2
  else
    let s3 := (s2.modLp p n fun y => { y with events := now :: within now 65536000000 y.events }).count (evLk p n 0x18)
    if s3.retryMax p ≤ (s3.lp p n).events.length then s3.portGone p n 0x7005 else s3.sendNak p n

/-- R316: whether a packet is addressed to a fenced member at that member's leaf. -/
def State.toFenced (s : State) (x : Packet) : Bool :=
  s.isFenced x.dst && (s.upPorts .kresia).any fun n => match (s.lp .kresia n).peer with
    | some c => c.node = x.dst
    | none => false

/-- R274, R283, R285, R287, R316: an accepted packet: held, or ended here with its credit returned. -/
def State.acceptPkt (s : State) (p : Part) (n : Nat) (x : RxPacket) (onFloor : Bool) : State :=
  let k := cost x.pkt
  let d := x.pkt.domain.getD 0
  let s1 := (s.modLp p n fun y =>
    { y with
      exp := (y.exp + 1) % 65536, wait := false, nakSent := none, owes := true
      held := if onFloor then y.held else FMap.update y.held x.pkt.tc 0 (· + k)
      domHeld := if onFloor then FMap.update y.domHeld d 0 (· + k) else y.domHeld }).modLedger p n (Ledger.enter · k)
  let s2 := s1.count (evLk p n 0x30)
  let ended (s : State) : State :=
    let s' := s.modLedger p n (Ledger.consume · k)
    if onFloor then s'.giveBackDom p n d k else s'.giveBack p n x.pkt.tc k
  if x.headBad then ended ((s2.count (evLk p n 0x14)).report p 0x7007 (port := n))
  else if p = .kresia && (s2.isFenced x.pkt.src || s2.toFenced x.pkt) && !x.heartbeat then ended (s2.count (evK 0x1B0004))
  else if x.ends then ended s2 else s2

/-- PACKET_RX (R278, R286). -/
def execPacketRx (p : Part) (port : Nat) (x : RxPacket) (s : State) : Answer :=
  if !s.up p port then .next s
  else
    let s1 := if x.corrected = 0 then s else s.count (evLk p port 0x08) x.corrected
    if 0 < x.uncorrectable || x.headCrc then .next (s1.lineError p port x)
    else if x.lseq ≠ (s1.lp p port).exp then .next (s1.count (evLk p port 0x1C))
    else
      let y := s1.lp p port
      let c := x.pkt.tc
      let shared := FMap.getD y.held c 0 + cost x.pkt ≤ FMap.getD y.floors c 0 + FMap.getD y.granted c 0
      let base := match p with
        | .baxel => 8
        | .kresia => 2
      let floor := c = 1 && !x.heartbeat && !s1.isV2Port p port && (match x.pkt.domain with
        | some d => s1.hasFloor p d && FMap.getD y.domHeld d 0 + cost x.pkt ≤ base
        | none => false)
      if shared || x.headBad then .next (s1.acceptPkt p port x false)
      else if floor then .next (s1.acceptPkt p port x true)
      else .next (s1.portGone p port 0x7009)

/-! ### Acknowledgements and retry -/

/-- R277, R283, R285, R287: a LINK head frees the copies up to ACK_SEQ and updates the limits. -/
def State.takeHead (s : State) (p : Part) (n : Nat) (h : LinkHead) : State :=
  let x := s.lp p n
  let i := x.copies.findIdx fun c => c.lseq = h.ackSeq
  let done := if i < x.copies.length then x.copies.take (i + 1) else []
  let cells := (done.map fun c => cost c.q.pkt).foldl (· + ·) 0
  let floors := match x.peer with
    | some c => c.floors
    | none => []
  let base := match x.peer with
    | some c => if c.role = 0 then 8 else 2
    | none => 0
  let s1 := (s.modLp p n fun y =>
    { y with
      copies := y.copies.drop done.length
      resend := y.resend.filter fun l => !(done.any fun c => c.lseq = l)
      limit := (List.range 7).foldl (fun m c => FMap.set m c ((floors.getD c 0 + h.cr.getD c 0) % 65536)) y.limit
      domLimit := FMap.set y.domLimit h.floorDom ((base + h.floorRet) % 65536) }).modLedger p n (Ledger.leave · cells)
  done.foldl (fun s c => (s.giveBackOf p c.q).tagPacket p n c.q (some c.firstAt) c.lseq false) s1

/-- ACK_RX (R283). -/
def execAckRx (p : Part) (port : Nat) (h : LinkHead) (s : State) : Answer :=
  if s.up p port then .next (s.takeHead p port h) else .next s

/-- R279: the copies from an LSEQ on, to resend in order. -/
def LinkPort.resendFrom (x : LinkPort) (l : Nat) : List Nat :=
  (x.copies.drop (x.copies.findIdx fun c => c.lseq = l)).map (·.lseq)

/-- NAK_RX (R279, R281): the sender resends from the named LSEQ; a NAK outside the unacknowledged span is stale. -/
def execNakRx (p : Part) (port : Nat) (seq : Nat) (h : LinkHead) (s : State) : Answer :=
  if !s.up p port then .next s
  else
    let s1 := s.takeHead p port h
    let x := s1.lp p port
    if !(x.copies.any fun c => c.lseq = seq) then .next (s1.count (evLk p port 0x28))
    else
      let k := match x.nakGot with
        | some (q, k) => if q = seq then k + 1 else 1
        | none => 1
      let s2 := (s1.modLp p port fun y => { y with resend := y.resendFrom seq, nakGot := some (seq, k) }).count
        (evLk p port 0x20)
      .next (if 3 ≤ k then s2.portGone p port 0x7005 else s2)

/-- Whether a span of grains has passed since a noted raw value. -/
def State.since (s : State) (p : Part) (r : Option Raw) (span : Int) : Bool :=
  match r with
  | some r => span ≤ Raw.diff (s.raw p) r
  | none => true

/-- NAK_WAIT_TIMER (R278): 2 µs in WAIT. -/
def execNakWaitTimer (p : Part) (port : Nat) (s : State) : Answer :=
  let x := s.lp p port
  if s.up p port && x.wait && s.since p x.lastNak (2000 * 65536) then .next (s.sendNak p port) else .next s

/-- RETRY_TIMEOUT (R279): the oldest unacknowledged packet has waited 4 µs. -/
def execRetryTimeout (p : Part) (port : Nat) (s : State) : Answer :=
  match (s.lp p port).copies with
  | c :: _ =>
    if s.up p port && s.since p (some c.sentAt) (4000 * 65536) && (s.lp p port).resend.isEmpty then
      .next ((s.modLp p port fun y => { y with resend := y.resendFrom c.lseq }).count (evLk p port 0x24))
    else .next s
  | [] => .next s

/-- ACK_TIMER (R278): at least every 256 ns while an acknowledgement or credit is owed. -/
def execAckTimer (p : Part) (port : Nat) (s : State) : Answer :=
  let x := s.lp p port
  if s.up p port && x.owes && s.since p x.lastHead (256 * 65536) then
    .next ((s.modLp p port fun y => { y with owes := false, lastHead := some (s.raw p) }).emit
      (.send p (.port port) (.ack (s.linkHead p port))))
  else .next s

/-! ### Planes, ledgers, credit configuration -/

/-- PLANE_LOST_RX (R282). -/
def execPlaneLostRx (n : PlaneNotice) (s : State) : Answer :=
  .next (if s.ks.lostPlanes.contains (n.member, n.plane) then s else (s.planeNote true n).resendTo n.member n.plane)

/-- PLANE_BACK_RX (R282). -/
def execPlaneBackRx (n : PlaneNotice) (s : State) : Answer := .next (s.planeNote false n)

/-- R287, R292: the ledger words, from their base address. -/
def ledgerWords (l : Ledger) (base : Nat) : FMap Word :=
  let w64 (m : FMap Word) (a v : Nat) : FMap Word :=
    FMap.set (FMap.set m a (BitVec.ofNat 32 v)) (a + 4) (BitVec.ofNat 32 (v / 2 ^ 32))
  FMap.set (w64 (w64 (w64 (w64 (w64 [] (base + 8) l.inn) (base + 0x10) l.replicated) (base + 0x18) l.out)
    (base + 0x20) l.consumed) (base + 0x28) l.flushed) (base + 0x30) (BitVec.ofNat 32 l.held)

/-- R291: the credit words of a port, live. -/
def LinkPort.creditWords (x : LinkPort) (base : Nat) (m : FMap Word) : FMap Word :=
  (List.range 7).foldl (fun m c =>
    let get (f : FMap Nat) : Nat := FMap.getD f c 0
    FMap.set (FMap.set m (base + 0x48 + 8 * c) (BitVec.ofNat 32 (get x.sent % 65536 + get x.limit % 65536 * 65536)))
      (base + 0x4C + 8 * c) (BitVec.ofNat 32 (get x.held % 65536 + get x.returned % 65536 * 65536))) m

/-- LEDGER_SNAP (R287): the ledger and every port's credit counts latched in one cycle. -/
def execLedgerSnap (p : Part) (s : State) : Answer :=
  .next (s.modLink p fun u =>
    let base := ledgerBase p
    { u with latch := some (u.ports.foldl (fun m (n, x) => x.creditWords (lkAddr p n 0) m) (ledgerWords u.ledger base)) })

/-- CREDIT_CFG_WRITE (R284): the floor and ceiling of a class of a Kresia. -/
def execCreditCfgWrite (cls : Nat) (w : Word) (s : State) : Answer :=
  let floor := w.get 0 16
  let ceil := w.get 16 16
  let sum := ((List.range 7).map fun c => if c = cls then floor else s.floorOf .kresia c).foldl (· + ·) 0
  let ports := if s.isSpine then 128 else 192
  if 7 ≤ cls then .next s
  else if ceil < floor || 32767 < ceil || 786432 < sum * ports then .next (s.setFld .kresia 0x190068 0 16 0x700E)
  else .next ((s.wr .kresia (0x190040 + 4 * cls) w).setFld .kresia 0x190068 0 16 0)

/-! ### Bring-up -/

/-- R288: this end's own CAPS body at a port. -/
def State.ownCaps (s : State) (p : Part) (n : Nat) : Caps :=
  { ploavMax := 3
    role := match p with
      | .baxel => 0
      | .kresia => if s.isSpine then 2 else 1
    node := s.node p
    plane := match p with
      | .baxel => n
      | .kresia => ksPlane s.ksId
    version := match p with
      | .baxel => (3, 2, 0)
      | .kresia => (0, 0, 0)
    features := 15
    floors := (List.range 7).map (s.floorOf p) }

/-- R444: the brim die of a port: 128 lanes each; a half port takes two lanes, a quad port four, from lane 256 on a leaf
for the ports above its half ports. -/
def State.brimOf (s : State) (port : Nat) : Nat :=
  (if s.isSpine then 4 * port else if port < 128 then 2 * port else 256 + 4 * (port - 128)) / 128

/-- R374, R405, R423, R438, R443: whether firmware may bring a port up: it serves; a Baxel's port is strapped present and
its reference runs; a Kresia has not tripped, and the port's brim die has not failed. -/
def State.mayBringUp (s : State) (p : Part) (port : Nat) : Bool :=
  (s.pc p).fw.serving &&
  match p with
  | .baxel => s.bx.straps.ports / 2 ^ port % 2 = 1 && !s.bx.refclkLost
  | .kresia => !s.ks.tripped && !s.ks.brimFailed.contains (s.brimOf port)

/-- PORT_BRING_UP (R288): firmware starts a port that is down or held out. -/
def execPortBringUp (p : Part) (port : Nat) (s : State) : Answer :=
  let x := s.lp p port
  if portCount p ≤ port || !(x.step = 0 || x.step = 6) || !s.mayBringUp p port then .next s
  else .next ((s.modLp p port fun y =>
    { step := 1, upStart := some (s.raw p), hbSeq := y.hbSeq }).lkState p port 1)

/-- LANE_LOCK (R288 steps 1 and 2, R55, R409): every lane has locked; the marker begins `align` bits into its word, and the
lane skew makes half of the forward minus the reverse delay `skew` grains. -/
def execLaneLock (p : Part) (port : Nat) (align : Nat) (skew : Int) (s : State) : Answer :=
  if (s.lp p port).step = 1 then
    .next ((s.modLp p port fun x => { x with step := 3 }).modPt p port fun t => { t with rxAlign := align, skew := skew })
  else .next s

/-- SD_LOCK_LOST (R407): an in-service port whose SD_LOCK falls leaves service. -/
def execSdLockLost (p : Part) (port : Nat) (s : State) : Answer :=
  if s.up p port then .next (s.portGone p port 0xB007) else .next s

/-- CAPS_SEND_TIMER (R288 step 3). -/
def execCapsSendTimer (p : Part) (port : Nat) (s : State) : Answer :=
  let x := s.lp p port
  if x.step = 3 && s.since p x.lastCaps (10000 * 65536) then
    .next ((s.modLp p port fun y => { y with lastCaps := some (s.raw p) }).emit
      (.send p (.port port) (.caps (s.ownCaps p port))))
  else .next s

/-- CAPS_RX (R288 step 3): answered with this end's own body. -/
def execCapsRx (p : Part) (port : Nat) (c : Caps) (s : State) : Answer :=
  let x := s.lp p port
  if x.step = 3 || x.step = 5 then
    .next ((s.modLp p port fun y => { y with peer := some c }).emit (.send p (.port port) (.capsAck (s.ownCaps p port))))
  else .next s

/-- R445, R447: whether a Kresia peer at a port of this Kresia is the one R444 and R446 name. -/
def State.peerFits (s : State) (n : Nat) (c : Caps) : Bool :=
  let me := s.ksId
  let b := s.ks.build
  let id := c.node % 2 ^ 20
  let same := ksHall id = ksHall me && ksPod id = ksPod me
  let per := 64 / b.spines
  let fits :=
    if !s.isSpine then
      128 ≤ n && n < 192 && c.role = 2 && same && ksPlane id = ksPlane me && ksIndex id = 64 + (n - 128) / per
    else if n < 64 then c.role = 1 && same && ksPlane id = ksPlane me && ksIndex id = n / per
    else if s.isTie n then
      let j := n - 64
      c.role = 2 && same && ksIndex id = ksIndex me && ksPlane id = (if j < ksPlane me then j else j + 1)
    else c.role = 2 && !same && ksIndex id = ksIndex me && ksPlane id = ksPlane me && ksPod id < b.pods &&
      ksHall id < b.halls
  fits && c.node / 2 ^ 20 = 1 && id < 65536 && c.plane = ksPlane id

/-- R6: whether a Kresia brings a Baxel of this block version up. -/
def versionOk : Nat × Nat × Nat → Bool
  | (major, minor, _) => (major = 3 && minor = 2) || (major = 2 && 3 ≤ minor)

/-- R6, R7, R288 step 4, R445: why an end holds a port out at its peer's CAPS. -/
def State.capsCode (s : State) (p : Part) (n : Nat) (c : Caps) : Option Code :=
  if c.ploavMax < 2 then some 0x7003
  else match p with
    | .baxel => if c.role = 0 then some 0x7004 else none
    | .kresia =>
      if c.role = 0 then
        if !versionOk c.version then some 0xB001
        else if s.isSpine || 128 ≤ n || c.plane ≠ ksPlane s.ksId then some 0xB009 else none
      else if c.ploavMax < 3 then some 0xB002
      else if !s.peerFits n c then some 0xB009 else none

/-- R288: a port held out of service with a code, reported. -/
def State.holdOut (s : State) (p : Part) (n : Nat) (code : Code) (detail : List Nat := []) : State :=
  ((((s.modLp p n fun x => { x with step := 6 }).lkState p n 3).lkCode p n code)).report p code detail (port := n)

/-- R54, R70, R409: the loopback check: the measured sum against the declared one. A port with a FAILED TDC stays excluded. -/
def State.loopback (s : State) (p : Part) (n : Nat) (tx rx : EdgeStamp) : State :=
  let t := (s.tdc p (tdcTx p n)).stamp tx
  let r := (s.tdc p (tdcRx p n)).stamp rx
  let pt := s.pt p n
  let dly : Int := match p with
    | .baxel => s.bx.straps.lpDly.getD n 0
    | .kresia => 0
  let measured := Raw.diff r t + (alignGrains pt.rxAlign pt.laneRate : Int) - dly
  let declared : Int := (s.rd p (ttPort p n 0)).toNat + (s.rd p (ttPort p n 4)).toNat
  let d := measured - declared
  let ps := max (-127) (min 127 ((d * 1000) / 65536))
  let bad : Bool := decide (40 * 65536 < (d * 1000).natAbs)
  let s1 := (s.setFld p (ttPort p n 0x0C) 8 8 ((ps % 256).toNat)).setBit p (ttPort p n 0x0C) 3
    (bad || (s.tdc p (tdcTx p n)).failed || (s.tdc p (tdcRx p n)).failed)
  if bad then s1.report p 0x100E [(ps % 256).toNat] (port := n) else s1

/-- R55: whether a port's link lies within one pod: every port of a Baxel and of a leaf, and of a spine those to its leaves and
its ties. -/
def State.podPort (s : State) (p : Part) (n : Nat) : Bool :=
  match p with
  | .baxel => true
  | .kresia => !s.isSpine || n < 64 || s.isTie n

/-- R55: a write of ASYM by firmware; a value beyond ±65,536 grains is refused. -/
def State.writeAsym (s : State) (p : Part) (n : Nat) (v : Int) : State :=
  if v < -65536 || 65536 < v then s.emit (.refused p 0x100F) else s.wr p (ttPort p n 8) (BitVec.ofInt 32 v)

/-- R55, R284, R288 step 5: the port enters service: sequence and credit state from zero, with what it grants above its floors; within a pod its lane skew is written to
ASYM. What swap calibration has recorded of it stays (R56). -/
def State.enterService (s : State) (p : Part) (n : Nat) (c : Caps) : State :=
  let v := min 3 c.ploavMax
  let s1 := s.modLp p n fun x =>
    { step := 5, peer := some c, hbSeq := x.hbSeq, svcStart := some (s.raw p),
      floors := (List.range 7).map fun k => (k, s.floorOf p k)
      granted := s.grantsFor p n
      returned := s.grantsFor p n
      owes := true
      limit := (List.range 7).map fun k => (k, c.floors.getD k 0) }
  let w := (((s1.rd p (lkAddr p n 0)).put 0 2 2).put 2 1 (if s.isQuad p n then 1 else 0)).put 3 3 c.plane
  let s2 := (s1.wr p (lkAddr p n 0) (w.put 6 2 v)).wr p (lkAddr p n 4) (BitVec.ofNat 32 (c.node % 2 ^ 21 + c.role * 2 ^ 21))
  let s3 := (s2.modPt p n fun t =>
    { ({} : PortTime) with rxAlign := t.rxAlign, skew := t.skew, thetaA := t.thetaA, swapPhase := t.swapPhase,
                           laneRate := if v = 3 then 212500 else 106250 }).setBit p (ttPort p n 0x0C) 0 true
  let s4 := if s.podPort p n then s3.writeAsym p n (s.pt p n).skew else s3
  match p with
  | .kresia =>
    if c.role = 0 then
      if v = 3 then s4.planeNote false ⟨c.node, ksPlane s.ksId⟩
      else s4.modKs fun k => { k with lostPlanes := k.lostPlanes.erase (c.node, ksPlane s.ksId) }
    else s4.rejoin (c.node % 2 ^ 20)
  | .baxel => s4

/-- R13: at a Baxel, the port of a plane that another port already serves: the lower-numbered one stays. -/
def State.planeClash (s : State) (n : Nat) (c : Caps) : Option Nat :=
  (s.upPorts .baxel).find? fun m => m ≠ n && (match (s.lp .baxel m).peer with
    | some d => d.plane = c.plane
    | none => false)

/-- CAPS_ACK_RX (R288 steps 4 and 5, R6, R7, R13, R54, R445). -/
def execCapsAckRx (p : Part) (port : Nat) (c : Caps) (tx : EdgeStamp) (rx : EdgeStamp) (s : State) : Answer :=
  if (s.lp p port).step ≠ 3 then .next s
  else match s.capsCode p port c with
    | some code => .next (s.holdOut p port code [s.node p, c.node])
    | none =>
      match p with
      | .kresia => .next ((s.enterService p port c).loopback p port tx rx)
      | .baxel =>
        match s.planeClash port c with
        | none => .next ((s.enterService p port c).loopback p port tx rx)
        | some m =>
          if m < port then .next ((s.holdOut p port 0xB003 [m]).irqPriv .baxel)
          else .next ((((s.portGone p m 0xB003).irqPriv .baxel).enterService p port c).loopback p port tx rx)

/-- TRAIN_TIMEOUT (R288): 50 ms after step 1 a port not in service starts again; the third failure holds it out. -/
def execTrainTimeout (p : Part) (port : Nat) (s : State) : Answer :=
  let x := s.lp p port
  if 1 ≤ x.step && x.step ≤ 4 && s.since p x.upStart (50 * 65536000000) then
    let n := s.fld p (lkAddr p port 0) 8 8
    let s1 := s.setFld p (lkAddr p port 0) 8 8 (n + 1)
    if 3 ≤ x.fails + 1 then .next (s1.holdOut p port 0x700A)
    else .next (s1.modLp p port fun _ => { step := 1, fails := x.fails + 1, upStart := some (s.raw p), hbSeq := x.hbSeq })
  else .next s

/-- LMS_MISSING (R408): no strobe for two marker periods: the port reports and drops out of time transfer. -/
def execLmsMissing (p : Part) (port : Nat) (s : State) : Answer :=
  if s.up p port then
    .next (((s.setBit p (ttPort p port 0x0C) 3 true).lkCode p port 0xB008).report p 0xB008 (port := port))
  else .next s

end Sys2Proof.Machine
end

