-- ==== Sys2Proof/Machine/GateFamily.lean ====
section
/-! DEFINITION. Gate lists, shapers and queue samples of egress ports (R293 to R306). -/

namespace Sys2Proof.Machine

/-- LAST_CODE of a port's gate block. -/
def State.gtCode (s : State) (p : Part) (n : Nat) (code : Code) : State := s.setFld p (gtBlock p n 0) 16 16 code.toNat

/-- R296: the pending list as its registers spell it. -/
def State.pendList (s : State) (p : Part) (n : Nat) : GateList :=
  { base := s.rdOt p (gtBlock p n 0x14)
    entries := (List.range (min 257 (s.fld p (gtBlock p n 4) 0 9))).map fun i => FMap.getD (s.gp p n).pend i (3, 0) }

/-- R296: why a commit is refused. -/
def State.gateCommitCode (s : State) (p : Part) (n : Nat) : Option Code :=
  let u := (s.pc p).time
  let l := s.pendList p n
  let swap := s.rdOt p (gtBlock p n 0x20)
  if !l.ok then some 0x8001
  else match u.dueCode l.base with
    | some c => some c
    | none => match u.dueCode swap with
      | some c => some c
      | none => if otDiff swap u.now < 100000 * 65536 then some 0x8002 else none

/-- R300: whether some open class of a list has a longest window shorter than the largest packet. -/
def State.shortWin (s : State) (p : Part) (n : Nat) (l : GateList) : Bool :=
  let len := s.counted p n { kind := 1, tc := 0, cells := 64 }
  (List.range 7).any fun c => match l.longest c with
    | some w => 0 < w && w * s.rate p n < len
    | none => false

/-- GATE_LIST_COMMIT (R293, R296, R300): an accepted commit replaces any pending list. -/
def execGateListCommit (p : Part) (port : Nat) (s : State) : Answer :=
  match s.gateCommitCode p port with
  | some code => .next (s.gtCode p port code)
  | none =>
    let l := s.pendList p port
    let d := (s.pc p).time.mkDue (s.rdOt p (gtBlock p port 0x20))
    let s1 := s.modGp p port fun g => { g with pending := some (l, d) }
    .next (((s1.setBit p (gtBlock p port 0) 3 true).setBit p (gtBlock p port 0) 5 (s.shortWin p port l)).gtCode p port 0)

/-- GATE_LIST_CANCEL (R296). -/
def execGateListCancel (p : Part) (port : Nat) (s : State) : Answer :=
  match (s.gp p port).pending with
  | none => .next (s.gtCode p port 0x8003)
  | some _ =>
    .next (((s.modGp p port fun g => { g with pending := none }).setBit p (gtBlock p port 0) 3 false).gtCode p port 0)

/-- R294, R295: the mask of a list at an OT, and its next boundary. -/
def State.runList (s : State) (p : Part) (n : Nat) (l : GateList) (t : OT) : State :=
  let (cyc, i, m, stop) := l.at t
  s.modGp p n fun g =>
    { g with mask := m, entry := i, next := some ((s.pc p).time.mkDue (l.ot cyc stop)) }

/-- R300: a queued packet the new list refuses. -/
def State.refuseQueued (s : State) (p : Part) (n : Nat) (l : GateList) (q : QEntry) : State :=
  match s.gateCode p n l q.pkt with
  | some code =>
    let src : PacketSource := match q.inPort with
      | some i => .forward i false
      | none => .local' none
    s.gateRefusal p n src q code
  | none => s

/-- R300: every queued packet tested against the list just made active; a refused one leaves its queue. -/
def State.retest (s : State) (p : Part) (n : Nat) (l : GateList) : State :=
  (s.lp p n).queues.foldl (fun s (c, qs) =>
    let bad := qs.filter fun q => (s.gateCode p n l q.pkt).isSome
    let good := qs.filter fun q => (s.gateCode p n l q.pkt).isNone
    if bad.isEmpty then s
    else
      let s1 := s.modLp p n fun x => { x with queues := if good.isEmpty then FMap.erase x.queues c else FMap.set x.queues c good }
      bad.foldl (fun s q => s.refuseQueued p n l q) s1) s

/-- R295: bitwise and of two masks over the classes. -/
def maskAnd (a b : Nat) : Nat := ((List.range 7).map fun c => if opens a c && opens b c then 2 ^ c else 0).foldl (· + ·) 0

/-- GATE_SWAP (R295, R297): SWAP_OT is reached: at its closing edge the classes that close, at its opening edge the new list. -/
def execGateSwap (p : Part) (port : Nat) (s : State) : Answer :=
  match (s.gp p port).pending with
  | none => .next s
  | some (l, d) =>
    if Raw.diff (s.raw p) (closeEdge d) < 0 then .next s
    else if Raw.diff (s.raw p) (openEdge d) < 0 then .next (s.modGp p port fun g => { g with mask := maskAnd g.mask (l.at d.ot).2.2.1 })
    else
      let s1 := s.modGp p port fun g => { g with active := some l, pending := none, reported := [] }
      let s2 := (s1.setBit p (gtBlock p port 0) 3 false).setBit p (gtBlock p port 0) 4 true
      let s3 := s2.runList p port l (let now := (s.pc p).time.now; if otDiff now d.ot < 0 then d.ot else now)
      .next (if s3.bit p (gtBlock p port 0) 0 then s3.retest p port l else s3)

/-- GATE_BOUNDARY (R295): an entry boundary of the active list: at its closing edge the classes that close, at its
opening edge the new mask and the next boundary. -/
def execGateBoundary (p : Part) (port : Nat) (s : State) : Answer :=
  let g := s.gp p port
  match g.active, g.next with
  | some l, some d =>
    let now := s.raw p
    let i := if g.entry + 1 < l.entries.length then g.entry + 1 else 0
    let m := (l.entries.getD i (127, 0)).1
    if (s.pc p).time.state = .unset || Raw.diff now (closeEdge d) < 0 then .next s
    else if Raw.diff now (openEdge d) < 0 then .next (s.modGp p port fun x => { x with mask := maskAnd x.mask m })
    else
      let stop := otAdd d.ot (((l.entries.getD i (127, 0)).2 : Int) * 65536)
      .next (s.modGp p port fun x => { x with mask := m, entry := i, next := some ((s.pc p).time.mkDue stop) })
  | _, _ => .next s

/-- The shaper of a class changed. -/
def State.modShaper (s : State) (p : Part) (n c : Nat) (f : Shaper → Shaper) : State :=
  s.modGp p n fun g => { g with shapers := FMap.update g.shapers c {} f }

/-- SHAPER_CFG_WRITE (R303, R304): a write of the word with CLS_SEL, SHAPE_EN and IDLE_SLOPE, or (`hi`) of HI_CREDIT.
The class written is the one CLS_SEL then selects; TC0 and class 7 have no shaper. -/
def execShaperCfgWrite (p : Part) (port : Nat) (hi : Bool) (w : Word) (s : State) : Answer :=
  if hi then
    let c := s.fld p (gtBlock p port 0x50) 0 3
    if c = 0 || c = 7 then .next s
    else if 2 ^ 24 ≤ w.toNat then .next (s.gtCode p port 0x8006)
    else .next (s.modShaper p port c fun h => { h with hi := w.toNat })
  else
    let c := w.get 0 3
    let slope := w.get 4 20
    let s1 := s.setFld p (gtBlock p port 0x50) 0 3 c
    if c = 0 || c = 7 then .next s1
    else if slope = 0 || (if s.isQuad p port then 800000 else 400000) < slope then .next (s1.gtCode p port 0x8006)
    else .next (s1.modShaper p port c fun h => { h with en := w.get 3 1 = 1, slope := slope })

/-- OVERHEAD_WRITE (R298): a signed byte count of 9 bits, at least −64. -/
def execOverheadWrite (p : Part) (port : Nat) (w : Word) (s : State) : Answer :=
  let v := w.get 0 9
  if 256 ≤ v && v < 448 then .next (s.gtCode p port 0x8007) else .next (s.setFld p (gtBlock p port 0x40) 0 9 v)

/-- QSAMPLE_CFG_WRITE (R305): SAMPLE_NS, or (`count`) SAMPLES. -/
def execQsampleCfgWrite (p : Part) (port : Nat) (count : Bool) (w : Word) (s : State) : Answer :=
  if count then
    if 1 ≤ w.toNat && w.toNat ≤ 65536 then .next (s.wr p (gtBlock p port 0x74) w) else .next (s.gtCode p port 0x8008)
  else if 1000 ≤ w.toNat && w.toNat ≤ 1000000000 then .next (s.wr p (gtBlock p port 0x70) w)
  else .next (s.gtCode p port 0x8008)

/-- R305: one class sampled: the cells held and the ns its head has waited. -/
def State.sampleOf (s : State) (p : Part) (n c : Nat) : Nat × Nat :=
  match s.queue p n c with
  | [] => (0, 0)
  | q :: t => (((q :: t).map fun x => cost x.pkt).foldl (· + ·) 0, ((Raw.diff (s.raw p) q.enq) / 65536).toNat)

/-- R305: a sample added to a running interval that holds k samples. -/
def QAcc.add (a : QAcc) (k : Nat) (d w : Nat) : QAcc :=
  { dMin := if k = 0 then d else min a.dMin d, dMax := max a.dMax d, dSum := a.dSum + d, dLast := d,
    sMin := if k = 0 then w else min a.sMin w, sMax := max a.sMax w, sSum := a.sSum + w, sLast := w }

/-- R305, R306: the result of an interval of k samples. -/
def QResult.latch (r : QResult) (a : QAcc) (k : Nat) : QResult :=
  { r with seq := r.seq + 1, ready := true, lost := if r.ready then (r.lost + 1) % 65536 else r.lost
           depth := (a.dMin, a.dMax, a.dSum / k, a.dLast), delay := (a.sMin, a.sMax, a.sSum / k, a.sLast) }

/-- QSAMPLE_TICK (R305, R306): every SAMPLE_NS each class is sampled; the SAMPLES-th sample latches the results. -/
def execQsampleTick (p : Part) (port : Nat) (s : State) : Answer :=
  let g := s.gp p port
  if !s.since p g.sampleAt ((s.rd p (gtBlock p port 0x70)).toNat * 65536) then .next s
  else
    let accs := (List.range 7).map fun c =>
      let (d, w) := s.sampleOf p port c
      (c, (FMap.getD g.accs c {}).add g.samples d w)
    let k := g.samples + 1
    if k < (s.rd p (gtBlock p port 0x74)).toNat then
      .next (s.modGp p port fun g => { g with sampleAt := some (s.raw p), samples := k, accs := accs })
    else
      let s1 := s.modGp p port fun g =>
        { g with
          sampleAt := some (s.raw p), samples := 0, accs := []
          results := accs.map fun (c, a) => (c, (FMap.getD g.results c {}).latch a k) }
      .next (accs.foldl (fun (s : State) (q : Nat × QAcc) =>
        if (FMap.getD g.results q.1 {}).ready then s.tally (evGt p port 0x7C (some q.1)) 1 else s) s1)

/-- QSAMPLE_RETIRE (R306): of the class CLS_SEL selects. -/
def execQsampleRetire (p : Part) (port : Nat) (seq : Word) (s : State) : Answer :=
  let c := s.fld p (gtBlock p port 0x50) 0 3
  .next (s.modGp p port fun g =>
    { g with results := FMap.update g.results c {} fun r =>
        if r.seq = seq then { r with ready := false } else { r with mismatch := true } })

end Sys2Proof.Machine
end

