-- ==== Sys2Proof/Machine/KsHooks.lean ====
section
/-! DEFINITION. A Kresia's own part in tamps, voids, switches and unloads (R155, R157, R169 to R171), and what an RW_DONE
goes on to (R137, R319, R327, R334). -/

namespace Sys2Proof.Machine

/-! ### Cluster objects and trackers of a program (R164, R165, R169) -/

/-- R164: one object of the block as loaded. -/
def objAs (g : Image) (d r : Nat) : Obj :=
  match (objDecls g).find? fun o => o.cluster && o.index = r with
  | some o => { value := o.init, init := o.init, replay := o.replay, domain := some d }
  | none => { replay := true, domain := some d }

/-- R164: a block of n free cluster objects: the lowest. -/
def State.findObjs (s : State) (n : Nat) : Option Nat :=
  let used := s.ks.doms.filterMap fun (_, x) => if x.cobjCount = 0 then none else some (x.cobjBase, x.cobjCount)
  let ok := (0 :: used.map fun (a, k) => a + k).filter fun a => a + n ≤ 65536 && used.all fun (b, k) => a + n ≤ b || b + k ≤ a
  match ok with
  | [] => none
  | a :: t => some (t.foldl min a)

/-- R169: object r of the block at a switch: one that both programs declare and the new one marks CARRY keeps its value; any
other that the new one declares is set to its INIT; one it does not declare stays as it is. Waiters stay. -/
def objAfter (g h : Image) (d r : Nat) (was : Option Obj) : Obj :=
  let declares (i : Image) (o : ObjDecl) : Bool := (objDecls i).any fun q => q.cluster && q.index = o.index
  match was, (objDecls g).find? fun o => o.cluster && o.index = r with
  | none, _ => objAs g d r
  | some x, none => x
  | some x, some o =>
    let y := { x with init := o.init, replay := o.replay }
    if o.carry && declares h o then y else { y with value := o.init, poison := false, poisonCode := 0 }

/-- R164, R169: the n cluster objects of a program placed from `base`: fresh at a load; at a switch from a program `old`, as
they go on. -/
def State.placeObjs (s : State) (d base n : Nat) (g : Image) (old : Option Image) : State :=
  let was (r : Nat) : Option Obj :=
    if r < (s.dom d).cobjCount then FMap.find? s.ks.objs ((s.dom d).cobjBase + r) else none
  let placed := (List.range n).map fun r => (base + r, match old with
    | some h => objAfter g h d r (was r)
    | none => objAs g d r)
  let cleared := s.ks.objs.filter fun (_, o) => o.domain ≠ some d
  (s.modKs fun k => { k with objs := placed.foldl (fun (m : FMap Obj) (q : Nat × Obj) => FMap.set m q.1 q.2) cleared }).modDom d
    fun x => { x with cobjBase := base, cobjCount := n }

/-! ### Switching (R169) -/

/-- R169: the pending program takes over at the barrier of SWITCH_STEP (at the crown), or with its first TAMP. The block of
cluster objects and the trackers stay large enough for both while instances of the old program are open. -/
def State.switchAt (s : State) (d step : Nat) : State :=
  let x := s.dom d
  match x.next with
  | some (g, n) =>
    if n ≤ step then
      let room := max x.cobjCount (objBlock g)
      let base := if objBlock g ≤ x.cobjCount then x.cobjBase else (s.findObjs room).getD x.cobjBase
      let tr := max x.trackers (trackersFor g x.positions.length (x.kresia s.ks.build).length)
      let slots (h : Image) : List Nat := (List.range (sec h 2).count).map (tmplSlot h)
      let old := x.prog.getD []
      ((s.placeObjs d base room g x.prog).modDom d fun y =>
        { y with
          prog := some g, next := none, trackers := tr, oldSlots := (slots old).filter fun i => !(slots g).contains i
          oldFirst := imgStepFirst old }).trimProgram d
    else s
  | none => s

def State.switchProg (s : State) (d : Nat) : State := s.switchAt d (s.dom d).step

/-! ### Tamps and voids -/

/-- R105: the completion of the `bell.change` whose arm a record is. -/
def State.endChange (s : State) (r : ArmRec) (code : Code) : State :=
  match r.change with
  | some c => s.complete .kresia c.mailbox c.mslot code
  | none => s

/-- R107, R119: what a deputy keeps of the crown's TAMPs: the step, the sequence, and the grid of a bell series. -/
def State.deputyTamp (s : State) (d : Nat) (m : Ctl) : State :=
  let x := s.dom d
  let again : Bool := match x.lastTamp with
    | some (st, ep) => ep = m.epoch && m.step ≤ st
    | none => false
  if !x.isDeputy then s
  else
    let n := if m.bellCount = 0 then none else some m.bellCount
    let series : Option Series :=
      if !m.bell then x.series
      else match x.series with
        | none => some ⟨m.due, m.period, n⟩
        | some sr =>
          if m.cancel then some { sr with bells := some (otDiff m.due sr.g0 / sr.period).toNat }
          else if again then some ⟨m.due, m.period, n⟩ else some sr
    s.modDom d fun y =>
      { y with
        step := m.step
        heldAcks := y.heldAcks.filter fun a => !(a.step = m.step && a.slot = m.slot)
        barriers := max y.barriers (m.step + 1)
        phase := .tamped
        everTamped := true
        arrivals := if y.step < m.step then [] else y.arrivals
        voidRun := if y.step < m.step then 0 else y.voidRun
        series := series }

/-- R12, R21: the first copy of a TAMP at a Kresia that is not the crown goes on, and a deputy follows it. -/
def State.followTamp (s : State) (d : Nat) (m : Ctl) : State :=
  if (s.dom d).isCrown || m.seq ≤ (s.dom d).seq then s
  else ((s.relay d m).modDom d fun y => { y with seq := m.seq }).deputyTamp d m

/-- R107, R119: what a deputy keeps of a void, once for each epoch: the step replays unless a TAMP of the new epoch has come
already. -/
def State.deputyVoid (s : State) (d : Nat) (m : Ctl) (told : Bool := false) : State :=
  let x := s.dom d
  if !x.isDeputy || m.epoch ≤ x.voidEpoch then s
  else
    let s1 := (s.modDom d fun y => { y with voidEpoch := m.epoch, voidRun := min 255 (y.voidRun + 1) }).count (evD d 0x110018)
    if told then s1
    else s1.modDom d fun y => { y with step := m.step, phase := .gather, arrivals := [], lastBy := none, heldAcks := [], replayed := true }

/-- R21, R93: the first copy of a VOID goes on from a Kresia that is not the crown. -/
def State.relayVoid (s : State) (d : Nat) (m : Ctl) : State :=
  let x := s.dom d
  if x.isCrown || m.epoch < x.epoch || m.epoch ≤ x.voidSent then s
  else (s.modDom d fun y => { y with voidSent := m.epoch }).relay d m

/-- R325: with the step from which a home-list element is homed here, its copy becomes the primary. -/
def State.takeMoved (s : State) (d : Nat) (g : Image) (step : Nat) : State :=
  ((s.dom d).moves.filter fun m => m.home = s.ksId && m.step ≤ step).foldl (fun (s : State) (m : Moved) =>
    if m.kind = 0 then
      (((List.range (cChunks g m.record)).filter fun k => k % max 1 (cHomes g m.record) = m.element).filter fun k =>
        homeOf (s.dom d).moves g m.record k step = s.ksId).foldl (fun (s : State) (k : Nat) => s.adopt d m.record k) s
    else if m.kind = 2 then s.adoptPart d m.record m.element (rBytes g m.record) (max 1 (rBytes g m.record / rH g m.record))
    else s) s

/-- KRESIA_TAMP_RX (R155, R157, R211, R321): the first copy of the TAMP of a step's lowest LAUNCH entry. -/
def State.ksTamp (s : State) (d : Nat) (m : Ctl) : State :=
  if m.epoch < (s.dom d).epoch then s
  else
    let s0 := (if (s.dom d).epoch < m.epoch then (s.newerEpoch d m.epoch m.step).deputyVoid d m else s).followTamp d m
    let x := s0.dom d
    let seen : Bool := match x.lastTamp with
      | some (st, ep) => ep = m.epoch && m.step ≤ st
      | none => false
    match x.imageFor m.step with
    | none => s0
    | some g =>
      if seen || m.cancel || (launches g).head?.map (entRef g) ≠ some m.slot then s0
      else
        let s1 := s0.modDom d fun y => { y with lastTamp := some (m.step, m.epoch) }
        let spines := (x.kresia s.ks.build).filter fun k =>
          ksPlane k = ksPlane s.ksId && ksPod k = ksPod s.ksId && ksHall k = ksHall s.ksId && 64 ≤ ksIndex k
        let s2 := if s.isSpine then s1 else s1.emit (.send .kresia (.kresias spines) (.ctl m))
        let s3 := (match x.prog with
          | some h => s2.sealOutputs d (m.step - 1) h
          | none => s2).modKs fun k => { k with kept := k.kept.filter fun (q, r) => q / 2 ^ 36 ≠ d || m.step ≤ r.step }
        let s4 := (if x.isCrown then s3 else s3.switchAt d m.step).takeMoved d g m.step
        if (s4.dom d).holds m.step then
          (s4.modDom d fun y => { y with heldInsts := y.heldInsts ++ [(m.step, m.epoch, m.due)] }).count (evD d 0x130058)
        else s4.startInst d m.step m.epoch m.due

/-- KRESIA_VOID_RX (R103, R170, R220): a void of a newer epoch. -/
def State.ksVoid (was : State) (d : Nat) (m : Ctl) : State :=
  let s := was.relayVoid d m
  let x := s.dom d
  let told : Bool := match x.lastTamp with
    | some (_, ep) => ep = m.epoch
    | none => false
  if m.epoch < x.epoch then s
  else if m.epoch = x.epoch && !x.isCrown then s.deputyVoid d m told
  else (s.newerEpoch d m.epoch m.step).deputyVoid d m

/-! ### Unloading (R171) -/

/-- R157, R171: this Kresia frees the program once its instances have completed, those held among them. -/
def State.startFreeing (s : State) (d : Nat) : State :=
  if (s.dom d).insts.isEmpty && (s.dom d).heldInsts.isEmpty then s.freeProgram d
  else s.modDom d fun x => { x with freeing := true }

/-- R99, R101, R105: what is armed and not tamped, or waits for a record, ends with a cause. -/
def State.dropArms (s : State) (d : Nat) (cause : Code) : State :=
  let x := s.dom d
  ((x.recs.filter fun r => !r.tamped) ++ x.changeWait.toList).foldl (fun s r => s.endChange r cause)
    (s.modDom d fun y => { y with recs := y.recs.filter (·.tamped), toArm := [], changeWait := none })

/-- R171: an unload takes effect at the crown: every Kresia and every member is told, and the command waits for all. A
change of a series that has no TAMP yet ends unmade (DESIGN CHOICE, log 142). -/
def State.unloadNow (s : State) (d : Nat) : State :=
  let x := s.dom d
  match x.unloading, x.prog with
  | some (m, k), some g =>
    let ks := (x.kresia s.ks.build).filter (· ≠ s.ksId)
    let slots : List (Nat × Template) :=
      ((List.range (sec g 2).count).map (tmplSlot g) ++ x.oldSlots).map fun i => (i, {})
    let w : ProgWait := { kind := 2, mailbox := m, mslot := k,
                          waiting := (2 ^ 20 + s.ksId) :: ks.map (2 ^ 20 + ·) ++ x.members }
    let s1 := (s.dropArms d 0x2016).modDom d fun y =>
      { y with wait := some w, unloading := none, phase := .idle, recs := [], arrivals := [], lastBy := none, oldSlots := [] }
    let s2 := s1.emit (.send .kresia (.kresias ks) (.progImage { domain := d, crown := s.ksId, unload := true }))
    let s3 := s2.emit (.send .kresia (.members x.members) (.template
      { op := .release, domain := d, stepFirst := imgStepFirst g, slots := slots }))
    s3.startFreeing d
  | some (m, k), none => (s.modDom d fun y => { y with unloading := none }).progEnd d m k 0
  | _, _ => s

/-! ### RW_DONE (R137) -/

/-- R170: a mirror that did not commit goes again while a MIRROR entry of its collective and step still waits for it. -/
def State.mirrorAgain (s : State) (j : SendJob) (region : Bool) : State :=
  let mode := if ksPlane (j.receiver % 2 ^ 20) ^^^ ksPlane s.ksId = 2 then 2 else 0
  match s.inst j.domain j.step with
  | none => s
  | some n =>
    let waits (q : Nat × EntryRun) : Bool :=
      !q.2.done && entType n.image q.1 = 6 && entRef n.image q.1 = j.rec' && entF n.image q.1 16 1 = mode
    match List.find? waits n.runs with
    | some (i, _) =>
      if region || s.mirrored j.domain j.rec' j.chunk j.step mode then s
      else s.mirrorNow j.domain n.image j.rec' j.chunk j.step mode i
    | none => s

/-- R319: the mirror commit of a chunk. -/
def State.mirrorDone (s : State) (j : SendJob) (c : Code) : State :=
  match j.mirror with
  | some t =>
    if c = 0 && t.last then
      let mode := if ksPlane (j.receiver % 2 ^ 20) ^^^ ksPlane s.ksId = 2 then 2 else 0
      let s1 := (s.count (evK 0x1B0044)).sample .kresia 0xF0187 (Raw.diff (s.raw .kresia) (j.started.getD (s.raw .kresia)))
        (dom := some j.domain)
      if t.region then s1
      else s1.modShard (shardKey j.domain j.rec' false false) fun h =>
        { h with mirrorStep := FMap.set h.mirrorStep (mirrorKey j.chunk mode) j.step }
    else if t.last then s.mirrorAgain j t.region
    else s
  | none => s

/-- R327: a transfer of a checkpoint slot is answered. -/
def State.ckptAck (s : State) (j : SendJob) : State :=
  let is (q : Ckpt) : Bool := q.domain = j.domain && q.coll = j.rec' && q.step = j.step && q.target = j.chunk
  let l := s.ks.ckpts.map fun q => if is q then { q with open' := q.open' - 1 } else q
  let rest := l.filter fun q => !(is q && q.left.isEmpty && q.open' = 0)
  let unused := (l.filter fun q => is q && q.left.isEmpty && q.open' = 0).flatMap fun q => q.grants.map fun g => (q.domain, q.target, g)
  let s1 := s.modKs fun k => { k with ckpts := rest, grants := k.grants ++ unused }
  if rest.length < l.length && !(rest.any fun q => q.domain = j.domain && q.coll = j.rec') then
    s1.ckptEnd j.domain j.rec' j.step
  else s1

/-- R330: a transfer of a spare fill is answered. -/
def State.fillAck (s : State) (j : SendJob) (c : Code) : State :=
  match s.ks.fills.find? fun f => f.domain = j.domain && fillId f.mailbox f.mslot = j.rec' with
  | none => s
  | some f =>
    let f' := { f with left := f.left - 1, failed := f.failed || c ≠ 0 }
    if f'.left = 0 then s.endFill f'
    else s.modKs fun k => { k with fills := k.fills.map fun q => if q = f then f' else q }

/-- R137: the RW_DONE of a transfer: its tracker returns, what it carried goes on, and transfers that waited start. -/
def State.sendDone (s : State) (p : Part) (x : SendTransfer) (c : Code) : State :=
  match p with
  | .baxel => s.pumpSends
  | .kresia =>
    let key := x.receiver * 65536 + x.transfer
    match FMap.find? s.ks.jobs key with
    | none => s
    | some j =>
      let s1 := (s.modKs fun k => { k with jobs := FMap.erase k.jobs key }).sample .kresia 0xF0184
        (Raw.diff (s.raw .kresia) (j.started.getD (s.raw .kresia))) (dom := some j.domain) (cls := some j.cls)
      let s2 :=
        if j.what = 2 then s1.mirrorDone j c
        else if j.what = 3 then s1.ckptAck j
        else if j.what = 4 then s1.fillAck j c
        else if j.what = 5 then s1.modInst j.domain j.step fun n =>
          if n.epoch ≠ x.epoch then n
          else { n with runs := FMap.update n.runs j.entry { issued := s.raw .kresia } fun r => { r with open' := r.open' - 1 } }
        else if j.what = 7 then s1.modDspHome j.domain j.rec' j.chunk j.step fun h =>
          { h with open' := h.open' - 1, state := if h.open' = 1 then 4 else h.state }
        else if j.what = 8 then s1.modDspLeaf j.domain j.rec' j.step fun l => { l with open' := l.open' - 1 }
        else if j.what = 9 then s1.modShard (shardKey j.domain j.rec' false false) fun h =>
          if c = 0 && (j.mirror.elim false (·.last)) then { h with fillAcked := h.fillAcked ++ [j.chunk] } else h
        else s1
      let s2 := if j.what = 9 && c ≠ 0 then s2.pumpFill j.domain j.rec' else s2
      s2.pumpJobs

end Sys2Proof.Machine
end

