-- ==== Sys2Proof/Machine/CrownCore.lean ====
section
/-! DEFINITION. The crown of a domain: barriers (R95, R98), arms, tamps and voids (R99 to R101), bell series (R104, R105),
fences (R316). -/

namespace Sys2Proof.Machine

/-- An OT rounded up to a whole nanosecond. -/
def ceilNs (x : OT) : OT := if x.gr = 0 then x else otAdd x (65536 - (x.gr.toNat : Int))

/-- R95: DUE of a barrier. -/
def dueOf (decided : OT) (g : Image) : OT := ceilNs (otAdd decided ((imgLead g : Int) * 65536))

/-- R104: the first instant of a series at or after an OT: its number and OT. -/
def Series.atOrAfter (x : Series) (t : OT) : Nat × OT :=
  let k := (ceilDiv (otDiff t x.g0) x.period).toNat
  (k, otAdd x.g0 ((k * x.period : Nat) : Int))

/-- R99: SEQ of the next broadcast. -/
def State.nextSeq (s : State) (d : Nat) : State := s.modDom d fun x => { x with seq := (x.seq + 1) % 2 ^ 32 }

/-- R105: what an arm's CANCEL says. -/
def ArmRec.cancels (r : ArmRec) : Bool := r.change.any (·.cancel)

/-- R99: one ARM: a record opens and the ARM is broadcast. -/
def State.sendArm (s : State) (d : Nat) (g : Image) (r : ArmRec) (bell : Bool) : State :=
  let s1 := s.nextSeq d
  let x := s1.dom d
  (s1.modDom d fun y => { y with recs := y.recs ++ [{ r with seq := x.seq, sentAt := s.raw .kresia }] }).broadcast d (.ctl
    { kind := .arm, bell := bell, cancel := r.cancels, domain := d, epoch := x.epoch, seq := x.seq, step := r.step,
      slot := r.slot, due := r.due, window := imgWindow g, period := r.period, bellCount := r.bells })

/-- R99: ADL of a DUE. -/
def adlOf (due : OT) (g : Image) : OT := otAdd due (-(((imgWindow g + imgFlight g : Nat) : Int) * 65536))

/-- R95, R99, R104: one LAUNCH entry armed. A series with no bell remaining is not armed again. -/
def State.armEntry (s : State) (d : Nat) (g : Image) (i : Nat) : State :=
  let x := s.dom d
  let slot := entRef g i
  let bell := slotBell g slot
  let period := entF g i 16 6
  let count := entF g i 22 4
  match bell, x.series with
  | true, some sr =>
    let (k, due) := sr.atOrAfter (dueOf x.decided g)
    match sr.bells with
    | none => s.sendArm d g { step := x.step, entry := i, slot := slot, seq := 0, due := due, adl := adlOf due g, period := sr.period } true
    | some n =>
      if n ≤ k then s
      else s.sendArm d g { step := x.step, entry := i, slot := slot, seq := 0, due := due, adl := adlOf due g,
                           period := sr.period, bells := n - k } true
  | _, _ =>
    let due := dueOf x.decided g
    s.sendArm d g { step := x.step, entry := i, slot := slot, seq := 0, due := due, adl := adlOf due g,
                    period := period, bells := count } bell

/-- R99: the LAUNCH entries still to arm, in order, while records are free. -/
def State.armList (s : State) (d : Nat) (g : Image) : List Nat → State
  | [] => s.modDom d fun x => { x with toArm := [] }
  | i :: t =>
    if 1024 ≤ s.armedUsed then (s.modDom d fun x => { x with toArm := i :: t }).count (evD d 0x110104)
    else State.armList (s.armEntry d g i) d g t

/-- R99, R105: the arm of a `bell.change`, which waits for a record like any other. -/
def State.armChange (s : State) (d : Nat) (g : Image) (r : ArmRec) : State :=
  if 1024 ≤ s.armedUsed then (s.modDom d fun x => { x with changeWait := some r }).count (evD d 0x110104)
  else (s.modDom d fun x => { x with changeWait := none }).sendArm d g r true

/-- R99: every launch of the step has tamped: the domain's phase moves on. -/
def State.afterTamp (s : State) (d : Nat) : State :=
  let x := s.dom d
  if x.phase = .arm && x.toArm.isEmpty && (x.recs.all fun r => r.tamped || r.step ≠ x.step || r.change.isSome) then
    s.modDom d fun y => { y with phase := .tamped, everTamped := true }
  else s

/-! ### Barriers -/

/-- R98: whether a position is suspect, from the credits kept. -/
def suspect (credits : List Nat) (n pos : Nat) : Bool :=
  let c := (credits.filter (· = pos)).length
  8 < n && 8 * 1024 < c * n && 4 ≤ c

/-- R98: the credit of a completed barrier, and a report on each crossing into suspect. -/
def State.creditLast (s : State) (d : Nat) (pos : Nat) : State :=
  let x := s.dom d
  let cr := (pos :: x.credits).take 1024
  let n := x.positions.length
  let now := suspect cr n pos
  let s1 := s.modDom d fun y =>
    { y with
      credits := cr
      suspects := (y.suspects.filter fun q => q ≠ pos && suspect cr n q) ++ (if now then [pos] else []) }
  if now && !x.suspects.contains pos then
    (s1.report .kresia 0x200F [(cr.filter (· = pos)).length] (subject := some (x.pos pos).e.member) (domain := some d)).count
      (evD d 0x110110)
  else s1

/-- R166: whether a program is a bell program: its barrier and its arm run once, but for a replay and for the barrier an
unload waits for (R171). -/
def bellProg (g : Image) : Bool := (launches g).any fun i => slotBell g (entRef g i)

/-- R95: whether the arrivals held cover every position, no scalar value defers the barrier (R230), and the domain
gathers. A step has 48 bits (R10): after the last one no barrier completes (DESIGN CHOICE, log 140). -/
def State.barrierReady (s : State) (d : Nat) : Bool :=
  let x := s.dom d
  let step := if x.phase = .tamped then x.step + 1 else x.step
  x.isCrown && (x.phase = .gather || x.phase = .tamped) && x.prog.isSome && !x.positions.isEmpty && step < 2 ^ 48 &&
  ((List.range x.positions.length).all fun i => x.arrivals.contains i) &&
  !(x.phase = .tamped && x.unloading.isNone && x.prog.any bellProg) &&
  x.scalarWaits.all fun w => step < w.v.fromStep

/-- R169: once SWITCH_STEP has sealed, every Baxel frees the old program's slots. -/
def State.releaseOld (s : State) (d sealed : Nat) : State :=
  let x := s.dom d
  if x.oldSlots.isEmpty || sealed < (x.prog.map imgStepFirst).getD 0 then s
  else
    let slots : List (Nat × Template) := x.oldSlots.map fun i => (i, {})
    (s.modDom d fun y => { y with oldSlots := [] }).emit (.send .kresia (.members x.members) (.template
      { op := .release, domain := d, stepFirst := x.oldFirst, slots := slots }))

/-- R95, R98, R99, R155, R169, R171: the barrier completes. `last` is the position whose arrival completed it. -/
def State.completeBarrier (s : State) (d : Nat) (last : Option Nat) : State :=
  let x := s.dom d
  let sealing : Bool := x.phase = .tamped
  let step := if sealing then x.step + 1 else x.step
  let s1 := s.modDom d fun y =>
    { y with
      decided := s.otNow .kresia
      arrivals := []
      lastBy := none
      voidRun := if sealing then 0 else y.voidRun
      recs := y.recs.filter fun r => 0 < otDiff r.due (s.otNow .kresia) }
  let s1 := match x.firstAt with
    | some r => s1.sample .kresia 0xF0180 (Raw.diff (s.raw .kresia) r) (dom := some d)
    | none => s1
  let s2 := match last with
    | some q => s1.creditLast d q
    | none => s1
  let s3 := if sealing then (s2.sealStep d x.step).releaseOld d x.step else s2
  if x.unloading.isSome then s3.unloadNow d
  else
    let s4 := (s3.modDom d fun y =>
      { y with
        step := step
        phase := .arm
        barriers := max y.barriers (step + 1)
        replayed := if sealing then false else y.replayed }).switchProg d
    match (s4.dom d).prog with
    | none => s4
    | some g => ((s4.doneSignal d g 0).armList d g (launches g)).afterTamp d

/-- The barrier completes when it can. Its credit goes to the arrival that completed the cover, which may have come before
the last TAMP (R98). -/
def State.tryBarrier (s : State) (d : Nat) : State :=
  if s.barrierReady d then s.completeBarrier d (s.dom d).lastBy else s

/-! ### Voids -/

/-- R171, R99: a domain HELD with an unload pending unloads at once. -/
def State.enterHeld (s : State) (d : Nat) (code : Code) : State :=
  let s1 := (s.modDom d fun x => { x with phase := .held }).report .kresia code (domain := some d)
  if (s1.dom d).unloading.isSome then s1.unloadNow d else s1

/-- R99, R119: VOID_RETRY of a domain. -/
def State.voidRetry (s : State) (d : Nat) : Nat :=
  (FMap.getD s.ks.c.domRegs (d * 2 ^ 24 + 0x11001C) (0x300 : Word)).get 8 8

/-- R99, R101: void(s, cause) of the unsealed step. -/
def State.voidStep (s : State) (d : Nat) (cause : Code) : State :=
  let x := s.dom d
  if x.phase = .none || x.phase = .idle || x.phase = .held then s
  else if x.epoch = 0xFFFFFFFF then (s.dropArms d 0x200A).enterHeld d 0x200A
  else
    let untamped := x.recs.filter fun r => !r.tamped
    let s1 := (s.dropArms d cause).modDom d fun y =>
      { y with
        epoch := y.epoch + 1
        seq := 0
        voidRun := min 255 (y.voidRun + 1)
        recs := y.recs.filter fun r => r.step < y.step
        arrivals := []
        lastBy := none
        replayed := true
        phase := .gather }
    let s2 := s1.count (evD d 0x110018)
    let m : Ctl := { kind := .void, domain := d, epoch := x.epoch + 1, seq := 0, step := x.step, voidedEpoch := x.epoch,
                     cause := cause }
    let s3 := s2.broadcast d (.ctl m)
    let s5 := match x.prog with
      | some g => untamped.foldl (fun (s : State) (r : ArmRec) => if r.change.isSome then s else s.doneSignal d g r.entry) s3
      | none => s3
    let s6 := s5.ksVoid d m
    if x.positions.any (·.vacant) || x.lost || s6.voidRetry d < (s6.dom d).voidRun then s6.enterHeld d 0x2009 else s6

/-- R106, R313: the members whose acknowledgement an arm lacks are reported. -/
def State.ackMissing (s : State) (d : Nat) (r : ArmRec) : State :=
  let x := s.dom d
  let lost := (List.range x.positions.length).filter fun i => !r.acks.contains i
  (lost.foldl (fun s i => s.report .kresia 0x2007 (subject := some (x.pos i).e.member) (domain := some d)) s).voidStep d 0x2007

/-! ### Tamps -/

/-- R104, R105: what a TAMP does to the record of the bell series. -/
def seriesAfter (old : Option Series) (bell : Bool) (r : ArmRec) : Option Series :=
  if !bell then old
  else
    let n := if r.bells = 0 then none else some r.bells
    match r.change, old with
    | some c, some sr =>
      if c.cancel then some { sr with bells := some (otDiff c.at' sr.g0 / sr.period).toNat } else some ⟨c.at', c.period, n⟩
    | some _, none => none
    | none, some sr => some sr
    | none, none => some ⟨r.due, r.period, n⟩

/-- R99: the TAMP of a record. The lowest LAUNCH entry's TAMP starts the body at the crown itself (R155). -/
def State.sendTamp (s : State) (d : Nat) (g : Image) (r : ArmRec) : State :=
  let s1 := s.nextSeq d
  let x := s1.dom d
  let bell := slotBell g r.slot
  let m : Ctl :=
    { kind := .tamp, bell := bell, cancel := r.cancels, domain := d, epoch := x.epoch, seq := x.seq, step := r.step,
      slot := r.slot, due := r.due, period := r.period, bellCount := r.bells }
  let s2 := s1.modDom d fun y =>
    { y with
      recs := y.recs.map fun q => if q.seq = r.seq && q.step = r.step then { q with tamped := true } else q
      series := seriesAfter y.series bell r }
  let s3 := (s2.broadcast d (.ctl m)).endChange r 0x0000
  if r.change.isSome then s3
  else
    let s4 := s3.doneSignal d g r.entry
    let s5 := if (launches g).head? = some r.entry then s4.ksTamp d m else s4
    (s5.afterTamp d).tryBarrier d

/-- R99: an armed record after a new acknowledgement: tamped when every position has acknowledged before ADL. -/
def State.ackCheck (s : State) (d : Nat) (g : Image) (r : ArmRec) : State :=
  let n := (s.dom d).positions.length
  if (List.range n).all fun i => r.acks.contains i then
    let s1 := s.sample .kresia 0xF0181 (Raw.diff (s.raw .kresia) r.sentAt) (dom := some d)
    if 0 < otDiff r.adl (s.otNow .kresia) then s1.sendTamp d g r else s1.ackMissing d r
  else s

/-! ### Fences and releases at the crown -/

/-- R316, R99: a fence of a member at a crown: its positions become vacant; the unsealed step is voided unless the domain
is HELD. -/
def State.fenceDomain (s : State) (d member : Nat) : State :=
  let x := s.dom d
  if x.positions.any fun p => p.e.member = member && p.bound then
    let s1 := s.modDom d fun y =>
      { y with positions := y.positions.map fun p => if p.e.member = member then { p with vacant := true } else p }
    if x.isCrown then s1.voidStep d 0x9003 else s1
  else s

/-- R317: a lifted fence: a member still bound is live at its position again. -/
def State.unfenceDomain (s : State) (d member : Nat) : State :=
  s.modDom d fun y =>
    { y with positions := y.positions.map fun p => if p.e.member = member && p.bound then { p with vacant := false } else p }

end Sys2Proof.Machine
end

