-- ==== Sys2Proof/Machine/Room.lean ====
section
/-! DEFINITION. The room a program takes at a Kresia (R149, R164, R165, R195, R226, R240, R265, R285, R320, R443). -/

namespace Sys2Proof.Machine

/-- R441: a Kresia takes admissions, loads and homes once every cabled port is in service (no port is in bring-up) and its
time is LOCKED. -/
def State.ksReady (s : State) : Bool :=
  s.ks.c.time.state = .locked && s.ks.c.link.ports.all fun (_, x) => !(1 ≤ x.step && x.step ≤ 4)

/-- R285: the ports of this Kresia that reach a domain's members, or its Kresia. -/
def State.domPorts (s : State) (x : Domain) : Nat :=
  let own := ksPod s.ksId + 16 * ksHall s.ksId
  let here := x.groups.filter fun g => g / 64 = own
  if s.isSpine then
    here.length + (s.ks.build.planes - 1) + (if here.length < x.groups.length then 65 - s.ks.build.planes else 0)
  else (x.positions.filter fun q => q.e.group = leafGroup s.ksId).length + 64

/-- R285: the domain floor cells reserved at this Kresia. -/
def State.floorDomUsed (s : State) : Nat := sumBy s.ks.doms fun (_, x) => if x.prog.isSome then 2 * s.domPorts x else 0

/-- R240: the instructions of a program in the store, one copy for each PROG_OFF, END included. -/
def storeWords (g : Image) : Nat :=
  let blks := (List.range (imgEntries g)).filter fun i => entType g i = 4
  sumBy ((blks.map fun i => entF g i 16 4).eraseDups) fun off =>
    (progFrom g ((sec g 6).off + 8 * off) ((sec g 6).bytes / 8 - off)).length + 1

/-- R225: an array's bytes, 4 KiB aligned. -/
def align4K (n : Nat) : Nat := (n + 4095) / 4096 * 4096

/-- R225, R320: the bytes of a collective's shard over chunks: its arrays (`all`: the read-only streams too). -/
def shardBytes (g : Image) (c : Nat) (ks : List Nat) (all : Bool) : Nat :=
  let n := sumBy ks (cLen g c)
  sumBy (areasOf (collProg g c) all) fun (_, w) => align4K (n * w)

/-- The chunks of a collective homed at a Kresia when the program begins. -/
def homedAt (x : Domain) (g : Image) (c id : Nat) : List Nat := chunksWhere x.moves g c (imgStepFirst g) fun h => h = id

/-- R320: the OUT bytes of chunks of a collective. -/
def outOfChunks (g : Image) (c : Nat) (ks : List Nat) : Nat := sumBy ks fun k =>
  if cSparse g c then 64 + 2 ^ cSlotsLog g c * (4 + cOutBytes g c 1) else cOutBytes g c (cLen g c k)

/-- R326, R334: the bytes of a pour region's parts held at a Kresia. -/
def regionBytesAt (x : Domain) (g : Image) (r id : Nat) : Nat :=
  let slices := if rPerPos g r then
      (((List.range (imgEntries g)).filter fun i => entType g i = 10 && entRef g i = r).map fun i => entF g i 24 4).foldl max 1
    else 1
  ((List.range (rH g r)).filter fun j => rHome x.moves g r j (imgStepFirst g) = id).length * (rBytes g r / rH g r) * slices

/-- The pour regions of a program. -/
def pourRegions (g : Image) : List Nat := (List.range (sec g 9).count).filter fun r => rKind g r = 0

/-- R226, R320: the bytes a program takes in this Kresia's primary area: image, kept results, sealed outputs, shards and regions. -/
def State.primaryFor (s : State) (x : Domain) (g : Image) : Nat :=
  imgBytes g + (sumBy (List.range (collCount g)) fun c =>
    let ks := homedAt x g c s.ksId
    outOfChunks g c ks + (if cBlocked g c then outOfChunks g c ks + shardBytes g c ks true else 0)) +
  sumBy (pourRegions g) fun r => regionBytesAt x g r s.ksId

/-- R226, R320: and in its mirror area: the mirrors of the homes whose partner it is. -/
def State.mirrorFor (s : State) (x : Domain) (g : Image) : Nat :=
  (sumBy (List.range (collCount g)) fun c => sumBy ([0, 2].filter fun mode => (mirrorEntry g c mode).isSome) fun mode =>
    let ks := homedAt x g c (partnerOf s.ksId mode)
    outOfChunks g c ks + shardBytes g c ks false) +
  sumBy ((pourRegions g).filter (rMirrored g)) fun r => regionBytesAt x g r (partnerOf s.ksId 0)

/-- Whether a program has a MIRROR entry of a MODE. -/
def mirrors (g : Image) (mode : Nat) : Bool := (List.range (imgEntries g)).any fun i => entType g i = 6 && entF g i 16 1 = mode

/-- R81, R320: the bytes of the stamp rings of this Kresia. -/
def State.ringBytes (s : State) : Nat :=
  sumBy (List.range (chanCount .kresia)) fun ch => 32 * (s.rd .kresia (chAddr .kresia ch 0x48)).toNat

/-- R208: the chunks of a collective that the windows of this Kresia's roles may hold open, together, and the most felt slots one
of them takes: CHUNK_ELEMS, or 2^SLOTS_LOG2 when sparse; at a home of fixed-tree FP64 what R192 asks, where it is more. -/
def State.chunksHeld (s : State) (x : Domain) (g : Image) (c : Nat) : List (Nat × Nat) :=
  let step := imgStepFirst g
  let each := if cSparse g c then 2 ^ cSlotsLog g c else cChunkElems g c
  let tree := if cFp64 g c = 1 && !cSparse g c then (cChunkElems g c * cSetCount g c + 4) / 5 else 0
  let leaf := if s.isSpine then [] else leafRole x g c step (ksPlane s.ksId) (leafGroup s.ksId)
  [(min (cWindow g c) leaf.length, each), (min (cWindow g c) (s.homeChunks x g c step).length, max each tree)]

/-- R208, R216: the chunk-table entries and the felt slots that a program reserves at this Kresia. -/
def State.entriesFor (s : State) (x : Domain) (g : Image) : Nat :=
  sumBy (List.range (collCount g)) fun c => sumBy (s.chunksHeld x g c) (·.1)
def State.slotsFor (s : State) (x : Domain) (g : Image) : Nat :=
  sumBy (List.range (collCount g)) fun c => sumBy (s.chunksHeld x g c) fun (v, n) => v * n

/-- The images held here: a domain's program and a pending one. -/
def Domain.held (x : Domain) : List Image := x.prog.toList ++ (x.next.map (·.1)).toList

/-- R166, check 10: whether a program finds room at this Kresia, beside what is loaded. -/
def State.hasRoom (s : State) (d : Nat) (g : Image) (positions : List PosEntry) : Bool :=
  let x := s.dom d
  let y : Domain := { x with positions := positions.map fun e => { e := e } }
  let kres := (y.kresia s.ks.build).length
  let sum (f : Domain → Image → Nat) : Nat := sumBy s.ks.doms (fun (_, z) => sumBy z.held (f z)) + f y g
  let others := sumBy (s.ks.doms.filter fun (k, _) => k ≠ d) fun (_, z) => z.trackers
  let loaded := (s.ks.doms.filter fun (k, z) => k ≠ d && z.prog.isSome).length
  let floors := sumBy (s.ks.doms.filter fun (k, _) => k ≠ d) fun (_, z) => if z.prog.isSome then 2 * s.domPorts z else 0
  let primary := 2 ^ 32 + s.ringBytes + sum fun z h => s.primaryFor z h
  let mirror := 1152 * 2 ^ 20 + sum fun z h => s.mirrorFor z h
  let any (mode : Nat) : Bool := mirrors g mode || s.ks.doms.any fun (_, z) => z.held.any fun h => mirrors h mode
  let limit : Nat × Nat :=
    if any 2 then (1024000000000, 2048000000000) else if any 0 then (1536000000000, 1536000000000) else (3072000000000, 3072000000000)
  !s.ks.memFailed && loaded < 4096 && ((objBlock g ≤ x.cobjCount) || (s.findObjs (objBlock g)).isSome) &&
  others + trackersFor g positions.length kres ≤ 65536 && floors + 2 * s.domPorts y ≤ 262144 &&
  sum (fun z h => s.entriesFor z h) ≤ 16384 && sum (fun z h => s.slotsFor z h) ≤ 4194304 &&
  sum (fun z h => 64 * s.entriesFor z h) ≤ 131072 &&
  sum (fun _ h => storeWords h) ≤ 4096 && sum (fun z h => s.tokensReserved z h) ≤ 2 ^ 20 &&
  primary ≤ limit.1 && mirror ≤ limit.2 && primary + mirror ≤ 3072000000000

end Sys2Proof.Machine
end

