-- ==== Sys2Proof/Machine/RegView.lean ====
section
/-! DEFINITION. What a read of a register shows (R394 to R401 and the register tables of every chapter): the words the
register file holds, and the windows computed from the rest of the state. Reads that change state have commands of their
own (FT_RAW_LO_READ, LOW_WORD_READ, RC_REGISTER_READ). -/

namespace Sys2Proof.Machine

/-- A word built of fields: (value, lowest bit). -/
def packW (l : List (Nat × Nat)) : Word := BitVec.ofNat 32 (l.foldl (fun a (v, b) => a + v * 2 ^ b) 0)

def bitN (b : Bool) : Nat := if b then 1 else 0

/-- Bits [lo + len - 1 : lo] of a word replaced. -/
def overlaid (w : Word) (l : List (Nat × Nat × Nat)) : Word := l.foldl (fun w (v, lo, len) => w.put lo len v) w

/-! ### Blocks both parts hold -/

/-- R88: the stamp, gate, frequency, transmit-timestamp and calibration words; `r` is the offset from 0x6000. -/
def State.stampWord (s : State) (p : Part) (r : Nat) : Word :=
  let a := tAddr p (0x6000 + r)
  let u := (s.pc p).stamp
  if r < 0x100 * chanCount p then
    let ch := r / 0x100
    let o := r % 0x100
    if o = 0x04 then
      let i := s.inService p (tdcStamp p ch)
      overlaid (s.rd p a) [((s.chan p ch).queue.length, 0, 10), (bitN !(s.tdc p i).passed, 19, 1), (i % 2, 20, 1)]
    else if o = 0x18 then 0
    else if 0x20 ≤ o && o < 0x40 then match (s.chan p ch).queue with
      | q :: _ => wordAt (recBytes q) (o - 0x20)
      | [] => 0
    else s.rd p a
  else if 0x800 ≤ r && r < 0x800 + 0x40 * groupCount p then
    if r % 0x40 = 0 then overlaid (s.rd p a) [(0, 5, 1), (bitN (s.gate p ((r - 0x800) / 0x40)).isOpen, 6, 1)] else s.rd p a
  else if 0x900 ≤ r && r < 0x900 + 0x80 * groupCount p then
    if r % 0x80 = 0 then overlaid (s.rd p a) [(0, 3, 1), (bitN (s.freq p ((r - 0x900) / 0x80)).armed, 4, 1)]
    else if r % 0x80 = 0x38 then 0
    else s.rd p a
  else if r = 0xA00 then overlaid (s.rd p a) [(u.txq.length, 0, 7)]
  else if r = 0xA08 then 0
  else if 0xA10 ≤ r && r < 0xA20 then match u.txq with
    | e :: _ => wordAt e.bytes (r - 0xA10)
    | [] => 0
  else if 0xB00 ≤ r && r < 0xC00 then
    let t := s.tdc p (s.fld p (tAddr p 0x6B04) 0 10)
    if r = 0xB00 then overlaid (s.rd p a) [(0, 1, 1)]
    else if r = 0xB08 then packW [(t.kLast % 128, 0), (bitN t.failed, 7), ((t.tempLast % 65536).toNat, 8)]
    else if r = 0xB0C then packW [(t.runs % 65536, 0), (t.fails % 65536, 16)]
    else if r = 0xB10 then packW [(t.lastCode.toNat, 0), (t.cause, 16)]
    else if 0xB40 ≤ r then packW [(t.entry (2 * ((r - 0xB40) / 4)), 0), (t.entry (2 * ((r - 0xB40) / 4) + 1), 16)]
    else s.rd p a
  else s.rd p a

/-- R287, R291: a word of the credit counts or the ledger: as the last LEDGER_SNAP latched it; live where none has. -/
def State.latchWord (s : State) (p : Part) (a : Nat) : Word :=
  let u := (s.pc p).link
  FMap.getD (match u.latch with
    | some m => m
    | none => u.ports.foldl (fun m (n, x) => x.creditWords (lkAddr p n 0) m) (ledgerWords u.ledger (ledgerBase p))) a 0

/-- R291: a word of the block of port n, at an offset. -/
def State.linkWord (s : State) (p : Part) (n off : Nat) : Word :=
  let a := lkAddr p n off
  let x := s.lp p n
  if off = 0 then
    overlaid (s.rd p a) [(bitN (s.isQuad p n), 2, 1), ((x.peer.map (·.plane)).getD 0, 3, 3)]
  else if off = 4 then match x.peer with
    | some c => packW [(c.node, 0), (c.role, 21)]
    | none => 0
  else if off = 0x40 then BitVec.ofNat 32 x.replayUsed
  else if off = 0x44 then BitVec.ofNat 32 (s.replayMax p n)
  else if 0x48 ≤ off && off < 0x80 then s.latchWord p a
  else s.rd p a

/-- R309: a word of the gate block of port n. -/
def State.gateWord (s : State) (p : Part) (n off : Nat) : Word :=
  let a := gtBlock p n off
  let g := s.gp p n
  let c := s.fld p (gtBlock p n 0x50) 0 3
  let act := g.active.getD {}
  let e : Nat × Nat :=
    if s.bit p (gtBlock p n 8) 8 then act.entries.getD (s.fld p (gtBlock p n 8) 0 8) (0, 0)
    else FMap.getD g.pend (s.fld p (gtBlock p n 8) 0 8) (3, 0)
  let h := s.shaper p n c
  let q := FMap.getD g.results c {}
  let four (t : Nat × Nat × Nat × Nat) (i : Nat) : Nat := [t.1, t.2.1, t.2.2.1, t.2.2.2].getD i 0
  if off = 0x04 then overlaid (s.rd p a) [(act.entries.length, 16, 9)]
  else if off = 0x0C then BitVec.ofNat 32 e.1
  else if off = 0x10 then BitVec.ofNat 32 e.2
  else if off = 0x2C then act.base.word0
  else if off = 0x30 then act.base.word1
  else if off = 0x34 then act.base.word2
  else if off = 0x38 then BitVec.ofNat 32 act.cycle
  else if off = 0x3C then packW [(g.mask, 0), (g.entry, 8)]
  else if off = 0x50 then packW [(c, 0), (bitN h.en, 3), (h.slope, 4)]
  else if off = 0x54 then BitVec.ofNat 32 h.hi
  else if off = 0x58 then BitVec.ofInt 32 h.credit
  else if off = 0x5C then BitVec.ofInt 32 (h.credit / 2 ^ 32)
  else if off = 0x60 then FMap.getD (s.pc p).domRegs (c * 2 ^ 24 + a) 0
  else if off = 0x78 then q.seq
  else if off = 0x7C then packW [(bitN q.ready, 0), (bitN q.mismatch, 1), (q.lost, 16)]
  else if off = 0x80 then packW [(four q.depth 0, 0), (four q.depth 1, 16)]
  else if off = 0x84 then packW [(four q.depth 2, 0), (four q.depth 3, 16)]
  else if 0x88 ≤ off && off < 0x98 then BitVec.ofNat 32 (four q.delay ((off - 0x88) / 4))
  else if off = 0x98 then 0
  else s.rd p a

/-- R378, R379, R401: a word of the slots of mailbox m; `off` from the command slots on, completions at 0x400. -/
def State.mboxSlotWord (s : State) (p : Part) (m off : Nat) : Word :=
  let x := s.mslot p m (off % 0x400 / 0x40)
  if off < 0x400 then wordAt x.bytes (off % 0x40)
  else
    let c := x.comp
    wordAt (leBytes 2 c.opcode ++ leBytes 2 c.seq ++ leBytes 2 c.status.toNat ++ leBytes 2 (bitN c.ready) ++ c.result) (off % 0x40)

/-- The bits of the 16 slots of a mailbox that satisfy a test. -/
def State.slotBits (s : State) (p : Part) (m : Nat) (f : MSlot → Bool) : Nat :=
  ((List.range 16).map fun k => if f (s.mslot p m k) then 2 ^ k else 0).foldl (· + ·) 0

/-- R401: a control word of mailbox m. -/
def State.mboxCtlWord (s : State) (p : Part) (m off : Nat) : Word :=
  if off = 0x00 || off = 0x04 then 0
  else if off = 0x08 then overlaid (s.rd p (mbAddr p m 8)) [(s.slotBits p m (·.locked), 0, 16)]
  else if off = 0x0C then BitVec.ofNat 32 (s.slotBits p m (·.comp.ready))
  else if off = 0x18 then
    let b := match p with
      | .baxel => if m = 0 then 1 else 2
      | .kresia => if m < 4 then 1 else if (s.mbox .kresia m).bound.isSome then 2 else 0
    packW [(b, 0), ((s.mboxDomain p m).getD 0, 16)]
  else s.rd p (mbAddr p m off)

/-- The number of an object waiter's source in R145. -/
def sourceCode : WaiterSource → Nat
  | .signalPort => 0
  | .view => 1
  | .gate _ => 2
  | .entry _ => 1
  | .mailbox _ _ => 1
  | .engine _ => 1

/-- R145: the object window: object o, the waiter at position k, at an offset. On Kresia the sources of a cluster object's
waiters have no code in the table: the register view's is shown (log 42). -/
def State.objWord (s : State) (p : Part) (o k off : Nat) : Word :=
  let x := s.obj p o
  let w := x.waiters[k]?
  if off = 0x00 then packW [(x.value, 0), (bitN x.poison, 31)]
  else if off = 0x04 then
    packW [(x.waiters.length, 0), (bitN x.replay, 12), (if p = .baxel then (s.objOwner o).getD 0 else 0, 16)]
  else if off = 0x08 then BitVec.ofNat 32 x.init
  else if off = 0x0C then packW [(x.lastSrc % 2 ^ 20, 0), (x.srcKind, 20), (x.lastPath, 21)]
  else if off = 0x10 then BitVec.ofNat 32 x.lastSeq
  else if off = 0x14 then x.lastOt.word0
  else if off = 0x18 then x.lastOt.word1
  else if off = 0x1C then x.lastOt.word2
  else if off = 0x20 then x.sigCount
  else if off = 0x24 then BitVec.ofNat 32 k
  else if off = 0x28 then match w with
    | some w => packW [(w.tag % 65536, 0), (sourceCode w.source, 16), (if p = .baxel then w.owner else 0, 18)]
    | none => 0
  else if off = 0x2C then BitVec.ofNat 32 ((w.map (·.n)).getD 0)
  else if off = 0x30 then BitVec.ofNat 32 x.poisonCode.toNat
  else if off = 0x34 && p = .kresia then BitVec.ofNat 32 (x.domain.getD 0)
  else 0

/-! ### Baxel -/

/-- R89: a slot of a launch list as its 64 bytes. -/
def Slot.bytes (e : Slot) : List Byte :=
  let t := e.tmpl
  otBytes e.due ++ leBytes 4 t.kernel.toNat ++ leBytes 2 t.domain ++
  leBytes 1 (t.tenant + bitN t.shadow * 4 + bitN t.bell * 8 + bitN t.gate0En * 16 + bitN t.gate1En * 32) ++
  leBytes 1 (match e.state with
    | .free => 0
    | .loaded => 1
    | .armed => 2
    | .tamped => 3
    | .waiting => 4
    | .fired => 5
    | .void => 6
    | .bellRun => 7) ++
  leBytes 6 e.step ++ leBytes 2 t.gateWait ++ leBytes 4 e.epoch ++ leBytes 4 e.seq ++ leBytes 8 t.rowMask.toNat ++
  leBytes 4 (t.gate0Obj + t.gate0N * 4096) ++ leBytes 4 (t.gate1Obj + t.gate1N * 4096) ++ leBytes 6 e.period ++
  leBytes 4 e.bellCount ++ leBytes 2 0

/-- R118, R144, R145, R224, R269: a word of the page of tenant t. -/
def State.pageWord (s : State) (t off : Nat) : Word :=
  let a := tPage t off
  let x := s.ten t
  if off = 0x000 then
    overlaid (s.rd .baxel a) [(s.tenState t, 0, 2), (bitN (s.bank .baxel (t + 1)).poison, 3, 1), (bitN x.faulted, 4, 1)]
  else if off = 0x004 then BitVec.ofNat 32 (x.domain.getD 0)
  else if off = 0x008 then BitVec.ofNat 32 x.epoch
  else if off = 0x00C || off = 0x010 || off = 0x204 || off = 0x218 || off = 0x318 || off = 0x388 then 0
  else if 0x040 ≤ off && off < 0x080 then wordAt (s.slot t (s.fld .baxel (tPage t 0x14) 0 10)).bytes (off - 0x40)
  else if off = 0x214 then packW [(x.tcq.length, 0), (s.viewWaiting t, 16)]
  else if off = 0x220 then match x.tcq with
    | e :: _ => packW [(e.tag % 65536, 0), (e.obj, 16)]
    | [] => 0
  else if off = 0x224 then match x.tcq with
    | e :: _ => packW [(e.code.toNat, 0), (1, 31)]
    | [] => 0
  else if 0x280 ≤ off && off < 0x2B4 then
    if s.objCount t ≤ s.fld .baxel (tPage t 0x24C) 0 12 then 0
    else s.objWord .baxel (s.objBase t + s.fld .baxel (tPage t 0x24C) 0 12) (s.fld .baxel (tPage t 0x2A4) 0 11) (off - 0x280)
  else if off = 0x31C then overlaid (s.rd .baxel a) [(x.posts.length, 16, 7)]
  else if off = 0x330 then BitVec.ofNat 32 ((s.bxLevel 0x4CC 0 t).getD 0)
  else if off = 0x38C then overlaid (s.rd .baxel a) [((x.dspPosts.filter fun q => q.state < 3).length, 16, 5)]
  else s.rd .baxel a

/-- R395: whether a tenant view reaches an address. -/
def State.tenantReaches (s : State) (t a : Nat) : Bool :=
  a < 0x10 || (0x1000 * (t + 1) ≤ a && a < 0x1000 * (t + 2)) || (0x5000 ≤ a && a < 0x5020) ||
  (0x6000 ≤ a && a < 0x6400 && s.ownsChan .baxel (.tenant t) ((a - 0x6000) / 0x100)) ||
  (0x6800 ≤ a && a < 0x6840 && (List.range 4).any fun c => s.ownsChan .baxel (.tenant t) c) ||
  (0x8000 ≤ a && a < 0x8200) || (0x8400 ≤ a && a < 0x8570) ||
  (0x9000 + 0x800 * (t + 1) ≤ a && a < 0x9000 + 0x800 * (t + 2)) ||
  (0xB800 + 0x40 * (t + 1) ≤ a && a < 0xB800 + 0x40 * (t + 2))

/-- R397: a word of the register port, of a view that reaches it. -/
def State.bxWordAll (s : State) (v : View) (a : Nat) : Word :=
  if 0x0200 ≤ a && a < 0x0300 || a < 0x0200 then (if a = 0x18 || a = 0x124 then overlaid (s.rd .baxel a) [(0, 0, 1)] else s.rd .baxel a)
  else if 0x0538 = a then BitVec.ofNat 32 ((s.bxLevel 0x14E 0 0).getD 0)
  else if 0x053C = a then BitVec.ofNat 32 ((s.bxLevel 0x14F 0 0).getD 0)
  else if 0x0540 ≤ a && a < 0x0574 then
    s.objWord .baxel (s.fld .baxel 0x0530 0 12) (s.fld .baxel 0x0564 0 11) (a - 0x0540)
  else if 0x0600 ≤ a && a < 0x0A00 then s.linkWord .baxel ((a - 0x600) / 0x80) (a % 0x80)
  else if 0x0A00 ≤ a && a < 0x0A40 then (if a = 0x0A00 then 0 else s.latchWord .baxel a)
  else if 0x0B00 ≤ a && a < 0x1000 then s.gateWord .baxel ((a - 0xB00) / 0xA0) ((a - 0xB00) % 0xA0)
  else if 0x1000 ≤ a && a < 0x5000 then s.pageWord (a / 0x1000 - 1) (a % 0x1000)
  else if 0x5000 ≤ a && a < 0x5020 then match bankOf v with
    | some k => s.ftWord .baxel k (a - 0x5000)
    | none => 0
  else if 0x6000 ≤ a && a < 0x6C00 then s.stampWord .baxel (a - 0x6000)
  else if 0x8000 ≤ a && a < 0x8200 || 0x8800 ≤ a && a < 0x9000 then match ctrBankAt .baxel v a with
    | some (k, off) => s.bankWord .baxel k off
    | none => 0
  else if 0x8200 ≤ a && a < 0x8600 then s.tagWord .baxel v a
  else if 0x9000 ≤ a && a < 0xB800 then s.mboxSlotWord .baxel ((a - 0x9000) / 0x800) ((a - 0x9000) % 0x800)
  else if 0xB800 ≤ a && a < 0xB940 then s.mboxCtlWord .baxel ((a - 0xB800) / 0x40) (a % 0x40)
  else s.rd .baxel a

/-- R394, R395: what a read of the register port answers a view: zero where the view does not reach the address. -/
def State.bxWord (s : State) (v : View) (a : Nat) : Word :=
  match v with
  | .badTag => 0
  | .tenant t => if s.tenantReaches t a then s.bxWordAll v a else 0
  | .core => s.bxWordAll v a
  | .priv => s.bxWordAll v a

/-! ### Kresia -/

/-- R119: a word of the launch block, of the domain selected. -/
def State.lnWord (s : State) (a : Nat) : Word :=
  let d := s.fld .kresia 0x110000 0 16
  let x := s.dom d
  let g := x.prog.getD []
  let ph := match x.phase with
    | .none => 0
    | .idle => 1
    | .gather => 2
    | .arm => 3
    | .tamped => 4
    | .held => 5
  if a = 0x110000 then s.rd .kresia a
  else if a = 0x110004 then packW [(ph, 0), (bitN x.isCrown, 3)]
  else if a = 0x110008 then BitVec.ofNat 32 x.epoch
  else if a = 0x11000C then BitVec.ofNat 32 (x.heldAcks.foldl (fun q h => max q h.seq) x.seq)
  else if a = 0x110010 then BitVec.ofNat 32 x.step
  else if a = 0x110014 then BitVec.ofNat 32 (x.step / 2 ^ 32)
  else if a = 0x11001C then
    overlaid (FMap.getD s.ks.c.domRegs (d * 2 ^ 24 + a) 0x300) [(x.voidRun, 0, 8)]
  else if a = 0x110020 then BitVec.ofNat 32 (imgLead g)
  else if a = 0x110024 then BitVec.ofNat 32 (imgWindow g)
  else if a = 0x110028 then BitVec.ofNat 32 (imgFlight g)
  else if a = 0x110100 then BitVec.ofNat 32 s.armedUsed
  else FMap.getD s.ks.c.domRegs (d * 2 ^ 24 + a) 0

/-- R172: STATE of the program block: 0 none, 1 loading, 2 loaded, 3 running, 4 replace pending, 5 unloading. -/
def Domain.progState (x : Domain) : Nat :=
  let kind (n : Nat) : Bool := match x.wait with
    | some w => w.kind = n
    | none => false
  if x.prog.isNone then 0
  else if x.unloading.isSome || x.freeing || kind 2 then 5
  else if kind 0 then 1
  else if x.next.isSome then 4
  else if x.lastTamp.isSome || x.everTamped then 3
  else 2

/-- R172: a word of the program block, of the domain selected. -/
def State.progWord (s : State) (a : Nat) : Word :=
  let d := s.fld .kresia 0x130000 0 16
  let x := s.dom d
  let g := x.prog.getD []
  if a = 0x130000 then s.rd .kresia a
  else if a = 0x130004 then packW [(x.progState, 0), (imgMode g % 2, 3), (imgFlags g % 2, 4)]
  else if a = 0x130008 || a = 0x13000C then BitVec.ofNat 32 (imgId g / 2 ^ (8 * (a - 0x130008)))
  else if 0x130010 ≤ a && a < 0x130030 then wordAt (imgDigest g) (a - 0x130010)
  else if a = 0x130030 then BitVec.ofNat 32 (if x.prog.isSome then imgEntries g else 0)
  else if a = 0x130034 then BitVec.ofNat 32 x.cobjBase
  else if a = 0x130038 then BitVec.ofNat 32 x.cobjCount
  else if a = 0x13003C || a = 0x130040 then
    BitVec.ofNat 32 ((x.next.map (·.2)).getD 0 / 2 ^ (8 * (a - 0x13003C)))
  else if a = 0x130044 || a = 0x130048 then
    BitVec.ofNat 32 ((x.next.map fun q => imgId q.1).getD 0 / 2 ^ (8 * (a - 0x130044)))
  else if a = 0x13004C then overlaid (FMap.getD s.ks.c.domRegs (d * 2 ^ 24 + a) 0) [(x.insts.length, 0, 2)]
  else if 0x130080 ≤ a && a < 0x1300C0 then match x.insts.getLast? with
    | some n => packW [(FMap.getD n.ptrs ((a - 0x130080) / 4) 0, 0), (bitN (n.blocked.contains ((a - 0x130080) / 4)), 31)]
    | none => 0
  else FMap.getD s.ks.c.domRegs (d * 2 ^ 24 + a) 0

/-- R240: instructions loaded in the program store. -/
def State.storeUsed (s : State) : Nat :=
  sumBy s.ks.doms fun (_, x) => sumBy x.held storeWords

/-- R249: a word of the blocking block, of the shard selected. -/
def State.blkWord (s : State) (a : Nat) : Word :=
  let d := s.fld .kresia 0x160100 0 16
  let c := s.fld .kresia 0x160100 16 12
  let x := s.dom d
  let g := x.prog.getD []
  let prog := collProg g c
  let own := if x.prog.isSome && c < collCount g && cBlocked g c then s.homeChunks x g c x.step else []
  let mirror := own.isEmpty && FMap.has s.ks.shards (shardKey d c false true)
  let h := s.shard (shardKey d c false mirror)
  let valid := !own.isEmpty || mirror
  let last := (h.blockStep.map (·.2)).foldl max 0
  let elems := if mirror then sumBy (s.mirrorChunks x g c x.step ++ h.blockStep.map (·.1) ++ h.fresh).eraseDups (cLen g c) else sumBy own fun k => cLen g c k
  let str (n : Nat) : Option (Nat × Nat × Nat) := (declared prog).find? fun y => y.1 = n
  let base (n : Nat) : Nat := arrayBase d c n
  if a = 0x160000 then BitVec.ofNat 32 (s.ks.blockQ.filter (·.running)).length
  else if a = 0x160004 then BitVec.ofNat 32 (s.ks.blockQ.filter fun j => !j.running).length
  else if a = 0x160008 then BitVec.ofNat 32 s.storeUsed
  else if a = 0x16000C then
    BitVec.ofNat 32 (sumBy s.ks.doms fun (_, y) => sumBy y.insts fun n =>
      (n.runs.filter fun (i, r) => !r.done && entType n.image i = 4).length)
  else if 0x160104 ≤ a && a < 0x160188 && !valid then 0
  else if a = 0x160104 then
    packW [(1, 0), (bitN mirror, 1), ((declared prog).length, 2), ((progOut prog).1, 6), (bitN (outReg prog), 8)]
  else if a = 0x160108 || a = 0x16010C then BitVec.ofNat 32 (elems / 2 ^ (8 * (a - 0x160108)))
  else if a = 0x160110 then packW [(Config.progFirst d c % 4096, 0), ((prog.length + 1) % 4096, 16)]
  else if a = 0x160114 || a = 0x160118 then BitVec.ofNat 32 (last / 2 ^ (8 * (a - 0x160114)))
  else if 0x160120 ≤ a && a < 0x160160 then
    let n := (a - 0x160120) / 8
    if (str n).isSome then BitVec.ofNat 32 (base n / 2 ^ (8 * (a % 8))) else 0
  else if 0x160160 ≤ a && a < 0x160180 then match str ((a - 0x160160) / 4) with
    | some (_, f, m) => packW [(f, 0), (m, 2)]
    | none => 0
  else if a = 0x160180 || a = 0x160184 then (if outReg prog then BitVec.ofNat 32 (base 8 / 2 ^ (8 * (a - 0x160180))) else 0)
  else s.rd .kresia a

/-- R353: a word of the cupping block; those at 0x1C_0100 and above show the domain selected. -/
def State.cupWord (s : State) (a : Nat) : Word :=
  let d := s.fld .kresia 0x1C0100 0 16
  let x := s.dom d
  if a = 0x1C0104 then BitVec.ofNat 32 x.cupPeriod
  else if a = 0x1C0108 then BitVec.ofNat 32 x.cupFrom
  else if a = 0x1C010C then BitVec.ofNat 32 (x.cupFrom / 2 ^ 32)
  else if a = 0x1C0110 then BitVec.ofNat 32 (if x.isCrown then x.cupRecs.length else 0)
  else if a = 0x1C0118 then BitVec.ofNat 32 (x.cupNext)
  else if a = 0x1C0114 || a = 0x1C011C then FMap.getD s.ks.c.domRegs (d * 2 ^ 24 + a) 0
  else s.rd .kresia a

/-- R398: whether a table of the manual maps a word of the Kresia register map. -/
def ksMapped (a : Nat) : Bool :=
  let w := inWords
  a % 4 = 0 &&
  (w 0 0x24 a || w 0x100100 0x100144 a || w 0x100300 0x100324 a || w 0x101000 0x102FFC a || w 0x105000 0x10501C a ||
   (w 0x106000 0x1067FC a && (w 0 0x18 (a % 0x100) || w 0x20 0x50 (a % 0x100))) ||
   (w 0x106800 0x10687C a && w 0 0x20 (a % 0x40)) || (w 0x106900 0x1069FC a && w 0 0x38 (a % 0x80)) ||
   w 0x106A00 0x106A08 a || w 0x106A10 0x106A1C a || w 0x106B00 0x106B10 a || w 0x106B40 0x106BFC a ||
   w 0x110000 0x110028 a || w 0x110100 0x110110 a || a = 0x120000 || w 0x120040 0x120074 a || w 0x120080 0x120090 a ||
   w 0x130000 0x130064 a || w 0x130080 0x1300BC a || w 0x140000 0x140048 a || w 0x140080 0x140088 a ||
   w 0x140090 0x140094 a || w 0x1400A0 0x1400C4 a || w 0x150000 0x150008 a || w 0x150010 0x15003C a ||
   w 0x150100 0x15012C a || w 0x160000 0x160038 a || a = 0x160040 || w 0x160100 0x160118 a || w 0x160120 0x160184 a ||
   w 0x170000 0x170034 a || a = 0x170040 || w 0x170100 0x170124 a || (w 0x180000 0x18FFFC a && w 0 0x7C (a % 0x100)) ||
   w 0x190000 0x190034 a || w 0x190040 0x190058 a || w 0x190060 0x190068 a ||
   (w 0x1A0000 0x1AFFFC a && w 0 0x98 (a % 0x100)) || w 0x1B0000 0x1B0008 a || w 0x1B0010 0x1B0018 a ||
   w 0x1B0020 0x1B0030 a || w 0x1B0040 0x1B0058 a || a = 0x1B0080 || w 0x1B0100 0x1B012C a ||
   w 0x1C0000 0x1C001C a || w 0x1C0100 0x1C011C a || a = 0x1D0000 ||
   (w 0x1D0100 0x1D08FC a && (w 0 8 (a % 0x20) || w 0x10 0x14 (a % 0x20))) ||
   (w 0x1D1000 0x1D1FFC a && (w 0 0x10 (a % 0x100) || w 0x80 0xFC (a % 0x100))) || w 0x1D2000 0x1D2014 a ||
   w 0x1D2040 0x1D207C a || w 0x1D3000 0x1D3010 a || w 0x1D3100 0x1D322C a ||
   (w 0x200000 0x23FFFC a && w 0 0x818 (a % 0x1000)) || w 0x400000 0xBFFFFC a)

/-- R398, R439: a word of the Kresia register map; held in reset, a part shows KS_SILICON_VERSION and KS_BOOT_STATUS alone. -/
def State.ksWord (s : State) (a : Nat) : Word :=
  if !ksMapped a || (s.ks.c.fw.inReset && a ≠ 0 && a ≠ 0xC) then 0
  else if FMap.has s.ks.c.highs a then FMap.getD s.ks.c.highs a 0
  else if a = 0x100124 then 0
  else if 0x105000 ≤ a && a < 0x105020 then s.ftWord .kresia 0 (a - 0x105000)
  else if 0x106000 ≤ a && a < 0x107000 then s.stampWord .kresia (a - 0x106000)
  else if 0x110000 ≤ a && a < 0x120000 then s.lnWord a
  else if 0x120040 ≤ a && a ≤ 0x120074 then
    s.objWord .kresia (s.fld .kresia 0x120000 0 16) (s.fld .kresia 0x120064 0 11) (a - 0x120040)
  else if 0x130000 ≤ a && a < 0x140000 then s.progWord a
  else if a = 0x140080 then BitVec.ofNat 32 s.feltUsed
  else if a = 0x150000 then BitVec.ofNat 32 s.chunksOpen
  else if a = 0x150008 then BitVec.ofNat 32 ((s.ksLevel 0x14002 0).getD 0)
  else if 0x160000 ≤ a && a < 0x170000 then s.blkWord a
  else if a = 0x170000 then BitVec.ofNat 32 ((s.ksLevel 0x1C000 0).getD 0)
  else if a = 0x170034 then BitVec.ofNat 32 s.ks.dspQ.length
  else if 0x180000 ≤ a && a < 0x190000 then s.linkWord .kresia ((a - 0x180000) / 0x100) (a % 0x100)
  else if a = 0x190000 then 0
  else if 0x190008 ≤ a && a ≤ 0x190030 then s.latchWord .kresia a
  else if a = 0x190034 then BitVec.ofNat 32 s.floorDomUsed
  else if 0x1A0000 ≤ a && a < 0x1B0000 then s.gateWord .kresia ((a - 0x1A0000) / 0x100) (a % 0x100)
  else if a = 0x1B0028 then BitVec.ofNat 32 s.ks.events.length
  else if a = 0x1B0040 then BitVec.ofNat 32 ((s.ksLevel 0x2C010 0).getD 0)
  else if 0x1C0000 ≤ a && a < 0x1D0000 then s.cupWord a
  else if 0x1D0000 ≤ a && a < 0x1D2000 then s.bankWord .kresia 0 (a - 0x1D0000)
  else if 0x1D2000 ≤ a && a < 0x1E0000 then s.tagWord .kresia .priv a
  else if 0x200000 ≤ a && a < 0x240000 then
    let m := (a - 0x200000) / 0x1000
    if a % 0x1000 < 0x800 then s.mboxSlotWord .kresia m (a % 0x1000) else s.mboxCtlWord .kresia m (a % 0x1000 - 0x800)
  else if 0x400000 ≤ a then
    FMap.getD (s.mslot .kresia ((a - 0x400000) / 0x20000) (a / 0x2000 % 16)).window (a % 0x2000) 0
  else s.rd .kresia a

end Sys2Proof.Machine
end

