-- ==== Sys2Proof/Machine/Sha.lean ====
section
/-! DEFINITION. SHA-256 (R148) and SHA-384 (R372): the digest of a byte string. Both are one computation at two word
widths, so it is written once over its parameters, and every constant is computed from what the published functions
define it as (the fractional bits of the roots of the first primes), not listed. -/

namespace Sys2Proof.Machine

/-- A width of the hash: the bits of a word, the rounds, and for each of its four mixing functions the two rotations and
then the third rotation (the compression's two) or the shift (the schedule's two). -/
structure ShaForm where
  bits : Nat
  rounds : Nat
  mixA : Nat × Nat × Nat
  mixE : Nat × Nat × Nat
  oldW : Nat × Nat × Nat
  newW : Nat × Nat × Nat
  /-- How many primes the starting value skips: SHA-384 starts from the ninth to the sixteenth. -/
  skip : Nat

def ShaForm.narrow : ShaForm :=
  { bits := 32, rounds := 64, mixA := (2, 13, 22), mixE := (6, 11, 25), oldW := (7, 18, 3), newW := (17, 19, 10)
    skip := 0 }
def ShaForm.wide : ShaForm :=
  { bits := 64, rounds := 80, mixA := (28, 34, 39), mixE := (14, 18, 41), oldW := (1, 8, 7), newW := (19, 61, 6)
    skip := 8 }

/-- The first 80 primes: 409 is the 80th, and a composite number below 410 has a divisor below 21. -/
def firstPrimes : List Nat :=
  (List.range 410).filter fun n =>
    decide (2 ≤ n) && ((List.range 19).all fun d => decide (n ≤ d + 2) || n % (d + 2) != 0)

/-- The largest r below start + 2^n with r^k ≤ x, found bit by bit from the highest. -/
def rootBits (k x : Nat) : Nat → Nat → Nat
  | 0, start => start
  | n + 1, start => rootBits k x n (if (start + 2 ^ n) ^ k ≤ x then start + 2 ^ n else start)

/-- The first bits of the fraction of the k-th root of a prime. -/
def ShaForm.rootFraction (f : ShaForm) (k p : Nat) : Nat :=
  rootBits k (p * 2 ^ (k * f.bits)) (f.bits + 5) 0 % 2 ^ f.bits

def ShaForm.constants (f : ShaForm) : List Nat := (firstPrimes.take f.rounds).map (f.rootFraction 3)

/-- A word turned right by n bits. -/
def ShaForm.turn (f : ShaForm) (x n : Nat) : Nat := (x + x * 2 ^ f.bits) / 2 ^ n % 2 ^ f.bits
/-- Two rotations and a third, and two rotations and a shift. -/
def ShaForm.turn3 (f : ShaForm) (m : Nat × Nat × Nat) (x : Nat) : Nat :=
  Nat.xor (f.turn x m.1) (Nat.xor (f.turn x m.2.1) (f.turn x m.2.2))
def ShaForm.turn2 (f : ShaForm) (m : Nat × Nat × Nat) (x : Nat) : Nat :=
  Nat.xor (f.turn x m.1) (Nat.xor (f.turn x m.2.1) (x / 2 ^ m.2.2))

/-- A word read big-endian. -/
def beWord (bs : List Byte) : Nat := bs.foldl (fun v b => 256 * v + b.toNat) 0
/-- A value as n bytes, big-endian. -/
def beBytes (n v : Nat) : List Byte := (leBytes n v).reverse

/-- What the compression holds: its eight working words are the last four values of each of two sequences, newest first;
and the last sixteen words of the message schedule, oldest first. -/
structure ShaRun where
  as : List Nat
  es : List Nat
  window : List Nat

/-- A block begun from the running value. -/
def ShaForm.start (f : ShaForm) (h : List Nat) (block : List Byte) : ShaRun :=
  let step := f.bits / 8
  { as := h.take 4, es := h.drop 4
    window := (List.range 16).map fun i => beWord ((block.drop (step * i)).take step) }

/-- One round: the oldest word of the window is taken with its constant, each sequence gains a value, and the window
gains the schedule's next word. -/
def ShaForm.round (f : ShaForm) (r : ShaRun) (k : Nat) : ShaRun :=
  let a := r.as.getD 0 0
  let e := r.es.getD 0 0
  let w := r.window.getD 0 0
  -- each bit of e picks the second or the third of its sequence; at least two of three set a bit of the other sum
  let picked := Nat.lor (Nat.land e (r.es.getD 1 0)) (Nat.land (2 ^ f.bits - 1 - e) (r.es.getD 2 0))
  let most := Nat.lor (Nat.land a (Nat.lor (r.as.getD 1 0) (r.as.getD 2 0))) (Nat.land (r.as.getD 1 0) (r.as.getD 2 0))
  let push := r.es.getD 3 0 + f.turn3 f.mixE e + picked + k + w
  let word := w + f.turn2 f.oldW (r.window.getD 1 0) + r.window.getD 9 0 + f.turn2 f.newW (r.window.getD 14 0)
  { as := (push + f.turn3 f.mixA a + most) % 2 ^ f.bits :: r.as.take 3
    es := (r.as.getD 3 0 + push) % 2 ^ f.bits :: r.es.take 3
    window := r.window.drop 1 ++ [word % 2 ^ f.bits] }

/-- One block of sixteen words taken into the running value. -/
def ShaForm.takeBlock (f : ShaForm) (ks h : List Nat) (block : List Byte) : List Nat :=
  let r := ks.foldl f.round (f.start h block)
  (h.zip (r.as ++ r.es)).map fun (x, y) => (x + y) % 2 ^ f.bits

/-- The message with its end marked: a bit of one, zeros to the last two words of a block, and its length in bits. -/
def ShaForm.padded (f : ShaForm) (bs : List Byte) : List Byte :=
  let size := 2 * f.bits
  let tail := f.bits / 4
  let gap := (2 * size - 1 - tail - bs.length % size) % size
  bs ++ [0x80] ++ List.replicate gap 0 ++ beBytes tail (8 * bs.length)

/-- The running value after the whole message: from the square roots of eight primes, block by block. -/
def ShaForm.run (f : ShaForm) (bs : List Byte) : List Nat :=
  let m := f.padded bs
  let ks := f.constants
  let size := 2 * f.bits
  (List.range (m.length / size)).foldl (fun h i => f.takeBlock ks h ((m.drop (size * i)).take size))
    (((firstPrimes.drop f.skip).take 8).map (f.rootFraction 2))

/-- SHA-256, its eight words big-endian. -/
def sha256 (bs : List Byte) : List Byte := (ShaForm.narrow.run bs).flatMap (beBytes 4)

/-- R148: the digest of an image. -/
def imageDigest (g : List Byte) : List Byte := sha256 (g.take 64 ++ List.replicate 32 0 ++ g.drop 96)

/-- SHA-384: the first six words of the wide form, as a number. -/
def sha384 (bs : List Byte) : Nat := beWord (((ShaForm.wide.run bs).take 6).flatMap (beBytes 8))

end Sys2Proof.Machine
end

