-- ==== Sys2Proof/Machine/Boot.lean ====
section
/-! DEFINITION. Reset, boot and the watchdog (R372 to R375, R406, R439, R441), and the mailboxes' doorbells, retires and
datagrams (R380 to R388). -/

namespace Sys2Proof.Machine

/-! ### Reset (R406, R432, R434) -/

/-- R432: the state that two bits of STRAP_FB give an output. -/
def fallbackPin (fb i : Nat) : PinState :=
  match fb / 4 ^ i % 4 with
  | 0 => .low
  | 1 => .high
  | _ => .hiZ

/-- R432: the fallback states under STRAP_FB. -/
def fallbackPins (fb : Nat) : KsPins := ⟨fallbackPin fb 0, fallbackPin fb 1, fallbackPin fb 2, fallbackPin fb 3⟩

/-- R432: the outputs take a state. -/
def State.drivePins (s : State) (x : KsPins) : State := (s.modKs fun k => { k with pins := x }).emit (.ksPins x)

/-- R406, R432, R434: every register, slot, object and port of a part at its reset state, and the part held there. A Kresia's outputs fall
back as STRAP_FB has it, which resistors of the board hold. -/
def State.partReset (s : State) (p : Part) : State :=
  match p with
  | .baxel => { s with bx := { c := { fw := { inReset := true } } } }
  | .kresia => { s with ks := { c := { fw := { inReset := true } }, strapFb := s.ks.strapFb, pins := fallbackPins s.ks.strapFb } }

/-- RESET_ASSERT (R406, R434). -/
def execResetAssert (p : Part) (s : State) : Answer := .next (s.partReset p)

/-- R54, R65: the declared latencies of the ports shown in their registers. -/
def State.declare (s : State) (p : Part) (tx rx : List Nat) : State :=
  (List.range (portCount p)).foldl (fun s n =>
    let s1 := match tx[n]? with
      | some v => s.wr p (ttPort p n 0) (BitVec.ofNat 32 v)
      | none => s
    match rx[n]? with
    | some v => s1.wr p (ttPort p n 4) (BitVec.ofNat 32 v)
    | none => s1) s

/-- The reset of a part may end: it is in reset, or it has just been powered and nothing has booted. -/
def State.resetEnds (s : State) (p : Part) : Bool :=
  let w := (s.pc p).fw
  w.inReset || (w.image.isNone && !w.busy && !w.serving)

/-- RESET_DEASSERT (R418, R423, R431, R432, R439, R441): the straps are sampled; with a sound clock the boot ROM starts, on Baxel it waits
for BOOT_GO; a clock fault holds a Kresia in reset. -/
def execResetDeassert (x : BootStraps) (s : State) : Answer :=
  match x with
  | .baxel y =>
    if s.resetEnds .baxel then
      .next (((s.modFw .baxel fun w => { w with inReset := false }).modBx fun b => { b with straps := y }).declare .baxel
        y.txLat y.rxLat).driveSteer
    else .next s
  | .kresia y =>
    if s.resetEnds .kresia then
      let s1 := ((s.modKs fun k => { k with strapFb := y.strapFb, pcieEn := y.pcieEn }).drivePins (fallbackPins y.strapFb)).wr .kresia 0x4
        (BitVec.ofNat 32 (y.node % 2 ^ 17 + y.node / 128 % 8 * 2 ^ 17))
      if y.clockCause = 0 then .next (s1.modFw .kresia fun w => { w with inReset := false, busy := true })
      else .next (((s1.setFld .kresia 0xC 0 16 0xA005).setFld .kresia 0xC 18 2 y.clockCause).modFw .kresia fun w =>
        { w with inReset := true })
    else .next s

/-! ### Boot (R372 to R374) -/

/-- R372: what the ROM finds of an image for a part: none where it passes. -/
def imageCode (part : Nat) (bs : List Byte) : Option Code :=
  let n := le bs 12 4
  let g := bs.take n
  let zero (a b : Nat) : Bool := ((g.drop a).take (b - a)).all (· = 0)
  if le g 0 4 ≠ 0x4B534657 || le g 4 2 ≠ 1 || le g 6 1 ≠ part || 2 ≤ le g 7 1 || n < 4096 || 2 ^ 25 < n || n % 64 ≠ 0 ||
    bs.length < n || le g 16 1 ≠ 3 || !zero 17 128 || !zero 224 256 then some 0xA002
  else if Config.signatureValid (le g 7 1) (sha384 (g.take 128 ++ g.drop 224)) (beWord ((g.drop 128).take 96)) then none
  else some 0xA001

/-- BOOT_GO (R374): the ROM starts reading; nothing while it is busy or firmware serves. -/
def execBootGo (v : View) (w : Word) (s : State) : Answer :=
  let f := s.bx.c.fw
  if v ≠ .priv && v ≠ .core then .next (s.viewRefused .baxel v 0x18)
  else if w.get 0 1 = 0 || f.busy || f.serving || f.inReset then .next s
  else .next (((s.setBit .baxel 0x18 1 true).modFw .baxel fun w => { w with busy := true, bootBytes := none }).coreRead
    (s.rd64 .baxel 0x10).toNat 256 (.boot false))

/-- R54, R387, R444: the configuration of the image a Kresia starts. -/
def State.configure (s : State) (x : ImageConfig) : State :=
  ((s.setBit .kresia 0x4 20 x.spine).modKs fun k =>
    { k with
      build := ⟨x.planes, x.leaves, x.spines, x.dies, x.pods, x.halls, x.rsigTimeout⟩
      c := { k.c with
        fw := { k.c.fw with allowList := x.allow.take 16 }
        time := { k.c.time with crown := { k.c.time.crown with role := x.timeRole, siteRoot := x.siteRoot } } } }).declare .kresia
    x.txLat x.rxLat

/-- R372: the ROM starts an image. -/
def State.startImage (s : State) (p : Part) (bs : List Byte) (slotB : Bool) : State :=
  s.modFw p fun w => { w with busy := false, bootBytes := none, image := some (wordAt bs 8, slotB) }

/-- BOOT_VERIFY_DONE (R372 to R374): the ROM has verified what it read: firmware starts, or the status names the fault. -/
def execBootVerifyDone (x : BootInput) (s : State) : Answer :=
  match x with
  | .baxel =>
    match s.bx.c.fw.busy, s.bx.c.fw.bootBytes with
    | true, some bs =>
      let s1 := s.setBit .baxel 0x18 1 false
      match imageCode 0 bs with
      | none => .next ((s1.setFld .baxel 0x1C 0 16 0).startImage .baxel bs false)
      | some c => .next ((s1.setFld .baxel 0x1C 0 16 c.toNat).modFw .baxel fun w => { w with busy := false, bootBytes := none })
    | _, _ => .next s
  | .kresia a b cfg =>
    if !s.ks.c.fw.busy || s.ks.c.fw.inReset then .next s
    else match imageCode 1 a with
      | none => .next (((s.setFld .kresia 0xC 0 18 0).startImage .kresia a false).configure cfg)
      | some _ =>
        let s1 := (s.setBit .kresia 0xC 17 true).modFw .kresia fun w => { w with slotATried := true }
        match imageCode 1 b with
        | none => .next ((((s1.setFld .kresia 0xC 0 16 0).setBit .kresia 0xC 16 true).startImage .kresia b true).configure cfg)
        | some _ => .next ((s1.setFld .kresia 0xC 0 16 0xA003).modFw .kresia fun w => { w with busy := false })

/-- The addresses of the FW_VERSION word, of the status word with WATCHDOG_RESTART, and of the count of restarts. -/
def statusAddr : Part → Nat
  | .baxel => 0x20
  | .kresia => 0x10
def evRestarts : Part → Ev
  | .baxel => evB 0x28
  | .kresia => evK 0x18

/-- R71: after reset a run falls due on every TDC of the part. -/
def State.calAll (s : State) (p : Part) : State :=
  (List.range (tdcCount p)).foldl (fun s i => if tdcOfPort p i || i % 2 = 0 then s.calTrigger p i else s) s

/-- FW_READY (R2, R3, R48, R71, R373, R422, R432): firmware serves, starts the runs of every TDC the first time
after reset, and takes up the doorbells held for
it. -/
def execFwReady (p : Part) (s : State) : Answer :=
  let f := (s.pc p).fw
  match f.image with
  | none => .next s
  | some (ver, _) =>
    if f.serving || f.inReset then .next s
    else
      let s1 := ((s.setFld p 0 0 8 3).wr p 8 ver).modFw p fun w => { w with serving := true, served := true, heldBells := [] }
      let s2 := match p with
        | .baxel => s1.irqPriv .baxel
        | .kresia => ((if f.served then s1 else s1.drivePins ⟨.driven, .driven, .driven, .driven⟩).modTime .kresia fun t => { t with crown := { t.crown with fwStartRaw := some (s.raw .kresia) } }).report
            .kresia 0x0002
      .next (f.heldBells.foldl (fun s (m, k) => s.intake p m k) (if f.served then s2 else s2.calAll p))

/-! ### Watchdog (R375) -/

/-- R375: the commands that wait on something elsewhere no longer complete: their completions have gone out. -/
def State.dropWaits (s : State) (p : Part) : State :=
  match p with
  | .baxel => s.modBx fun b =>
    let away (u : MemUse) : MemUse := match u with
      | .command _ _ => .landed
      | v => v
    { b with
      readJobs := b.readJobs.filter fun (_, j) => match j.use with
        | .arm _ _ => false
        | _ => true
      writes := FMap.mapVals b.writes fun _ r => { r with use := away r.use } }
  | .kresia =>
    let mail (w : Waiter) : Bool := match w.source with
      | .mailbox _ _ => true
      | _ => false
    (s.modKs fun k =>
    let quiet (w : ProgWait) : ProgWait := { w with mailbox := 64 }
    { k with
      cupChecks := []
      shardReads := []
      fills := []
      objs := FMap.mapVals k.objs fun _ o => { o with waiters := o.waiters.filter fun w => !mail w }
      doms := FMap.mapVals k.doms fun _ x =>
        { x with
          wait := x.wait.map quiet
          unloading := x.unloading.map fun (_, j) => (64, j)
          scalarWaits := x.scalarWaits.map fun w => { w with mailbox := 64 }
          recs := x.recs.map fun r => { r with change := r.change.map fun q => { q with mailbox := 64 } } } }).serveObjs
      (s.waitedOn mail)

/-- WATCHDOG_EXPIRY (R375): the core restarts from the image it holds; commands taken and not completed complete, and every
domain, program, fence and binding stays. -/
def execWatchdogExpiry (p : Part) (s : State) : Answer :=
  if !(s.pc p).fw.serving then .next s
  else
    let s1 := (s.setFld p 0 0 8 0).modFw p fun w => { w with serving := false }
    let s2 := (s1.inFlight p).foldl (fun s (m, k, _) => s.complete p m k 0xA10D) s1
    .next ((((s2.dropWaits p).setBit p (statusAddr p) 2 true).count (evRestarts p)).report p 0xA004)

/-! ### Doorbells and retires (R380, R382) -/

/-- R376, R389, R395: whether a view may ring and write a mailbox. -/
def ringsMbox (p : Part) (v : View) (m : Nat) : Bool :=
  m < mboxCount p && match p, v with
  | _, .core => true
  | .baxel, .priv => m = 0
  | .baxel, .tenant t => m = t + 1
  | .kresia, .priv => true
  | _, _ => false

/-- The 64 bytes of a command slot. -/
def MSlot.slot64 (x : MSlot) : List Byte := (x.bytes ++ List.replicate (64 - x.bytes.length) 0).take 64

/-- R389: the data window of a slot as bytes, up to the last word written. -/
def MSlot.windowBytes (x : MSlot) : List Byte :=
  (List.range (match x.window.getLast? with
    | some (a, _) => a / 4 + 1
    | none => 0)).flatMap fun i => leBytes 4 (FMap.getD x.window (4 * i) 0).toNat

/-- R376, R395: a write to a mailbox a view does not write: the privileged view's is discarded, a tenant's refused. -/
def State.mboxRefused (s : State) (p : Part) (v : View) (a : Nat) : State :=
  match p, v with
  | .baxel, .priv => s
  | _, _ => s.viewRefused p v a

/-- MBOX_DOORBELL (R3, R380): a free slot is captured, locked and rung; a locked one refuses. -/
def execMboxDoorbell (p : Part) (v : View) (m : Nat) (w : Word) (s : State) : Answer :=
  let k := w.get 0 4
  let x := s.mslot p m k
  if (s.pc p).fw.inReset then .next s
  else if !ringsMbox p v m then .next (s.mboxRefused p v (mbAddr p m 0))
  else if x.locked then .next ((s.setBit p (mbAddr p m 8) 18 true).wr p (mbAddr p m 0x10) 0xA105)
  else .next (s.ring p m k x.slot64 (if p = .kresia then x.windowBytes else []) [])

/-- R382: a retire of slot k under a SEQ. -/
def State.retire (s : State) (p : Part) (m k seq : Nat) : State :=
  let c := (s.mslot p m k).comp
  if c.ready && c.seq = seq then
    s.modMslot p m k fun x => { x with locked := false, lastRetired := some seq, comp := { x.comp with ready := false } }
  else if !c.ready && c.seq = seq then s
  else s.setBit p (mbAddr p m 8) 17 true

/-- MBOX_RETIRE (R382): a write of RETIRE. -/
def execMboxRetire (p : Part) (v : View) (m : Nat) (w : Word) (s : State) : Answer :=
  if !ringsMbox p v m then .next (s.mboxRefused p v (mbAddr p m 4)) else .next (s.retire p m (w.get 0 4) (w.get 16 16))

/-! ### Datagrams (R386 to R388) -/

/-- R387: whether a mailbox takes datagrams from a source. -/
def State.allows (s : State) (m : Nat) (x : Datagram) : Bool :=
  if m < 4 then s.ks.c.fw.allowList.contains x.source
  else match (s.mbox .kresia m).bound with
    | some (_, a, u) => a = x.source && u = x.udp
    | none => false

/-- R386, R387: whether the head and source of a datagram of a TYPE pass. -/
def State.takesDatagram (s : State) (x : Datagram) (type : Nat) : Bool :=
  let h := x.payload
  let n := le h 8 2
  le h 0 4 = 0x4B534D42 && le h 4 1 = 3 && le h 5 1 = type && le h 6 1 < 64 && le h 7 1 < 16 && n ≤ 8192 && n % 64 = 0 &&
  ((h.drop 10).take 6).all (· = 0) && h.length = (if type = 1 then 80 + n else 18) && (type = 1 || n = 0) && !x.fragment &&
  x.port < 2 && s.ks.c.fw.serving && s.allows (le h 6 1) x

/-- A completion that goes to a datagram's source and leaves the slot as it is. -/
def State.answerTransient (s : State) (port m k : Nat) (bs : List Byte) (code : Code) : State :=
  s.emit (.completion port m k { opcode := le bs 0 2, seq := le bs 2 2, status := code, ready := true } true)

/-- MBOX_DATAGRAM_RX (R386 to R388): a command datagram writes its slot and rings it, is a resend, or is answered. -/
def execMboxDatagramRx (x : Datagram) (s : State) : Answer :=
  if !s.takesDatagram x 1 then .next (s.count (evK 0x1C))
  else
    let m := le x.payload 6 1
    let k := le x.payload 7 1
    let bs := (x.payload.drop 16).take 64
    let inline := x.payload.drop 80
    let y := s.mslot .kresia m k
    if !y.locked then
      if y.lastRetired = some (le bs 2 2) then .next (s.answerTransient x.port m k bs 0xA106)
      else .next ((s.modMslot .kresia m k fun z => { z with bytes := bs }).ring .kresia m k bs inline [x.port])
    else if y.slot64 ≠ bs then .next (s.answerTransient x.port m k bs 0xA105)
    else match y.taken with
      | some t =>
        if t.inline ≠ inline then .next (s.answerTransient x.port m k bs 0xA105)
        else
          let t' := { t with ports := if t.ports.contains x.port then t.ports else t.ports ++ [x.port] }
          .next ((s.modMslot .kresia m k fun z => { z with taken := some t' }).count (evK 0x20))
      | none => .next ((s.count (evK 0x20)).emit (.completion x.port m k y.comp false))

/-- RETIRE_DATAGRAM_RX (R388): a retire datagram acts as RETIRE and is acknowledged in every case. -/
def execRetireDatagramRx (x : Datagram) (s : State) : Answer :=
  if !s.takesDatagram x 3 then .next (s.count (evK 0x1C))
  else
    let m := le x.payload 6 1
    let k := le x.payload 7 1
    let seq := le x.payload 16 2
    .next ((s.retire .kresia m k seq).emit (.retireAck x.port m k seq))

end Sys2Proof.Machine
end

