-- ==== Sys2Proof/Machine/Chunks.lean ====
section
/-! DEFINITION. Rows of chunk flow: posts (R203), packets and notices (R208 to R211, R217 to R220), views of slots and
chunks (R197, R223). -/

namespace Sys2Proof.Machine

/-! ### Posts and packets -/

/-- CP_GO (R203, R224): a post as the CP_ registers of the tenant page give it; its code stands in CP_STATUS. -/
def execCpGo (t : Nat) (s : State) : Answer :=
  let r (off : Nat) : Nat := (s.rd .baxel (tPage t off)).toNat
  let coll := r 0x300 % 2 ^ 12
  let first := r 0x304 % 2 ^ 24
  let count := r 0x308 % 2 ^ 24
  match s.postCode t coll first count with
  | some c => .next (s.setFld .baxel (tPage t 0x31C) 0 16 c.toNat)
  | none => .next ((s.setFld .baxel (tPage t 0x31C) 0 16 0).post t coll first count (s.rd64 .baxel (tPage t 0x30C)).toNat (r 0x314))

/-- CHUNK_PACKET_RX (R209, R210, R212 to R215, R217, R220). -/
def execChunkPacketRx (port : Nat) (k : ChunkPacket) (s : State) : Answer := .next (s.chunkPacket port k)

/-! ### Notices at a Kresia (R220) -/

/-- R220: a notice of a domain, under its epoch: stale, malformed, or taken by f with the image and the full step. -/
def State.takeNote (s : State) (d epoch step c k node : Nat) (f : State → Image → Nat → State) : State :=
  let x := s.dom d
  let full := x.fullStep step
  match x.imageFor full with
  | none => s.count (evK 0x15001C)
  | some g =>
    if epoch < x.epoch then s.count (evK 0x15001C)
    else
      let s1 := if x.epoch < epoch then s.newerEpoch d epoch full else s
      if collCount g ≤ c || cChunks g c ≤ k then s1.partBad none d full node 255 else f s1 g full

/-- R208: the packets a leaf held for a home that has now admitted their chunks go out. -/
def State.flushLeaves (s : State) (d c home : Nat) (g : Image) : State :=
  s.ks.chunks.foldl (fun s (ix, _) =>
    match FMap.find? s.ks.chunks ix with
    | none => s
    | some e =>
      let h := homeOf (s.dom d).moves g c e.chunk e.step
      if e.domain = d && e.coll = c && e.role ≠ 1 && !e.out.isEmpty && h = home && s.homeAdmits g d c e.chunk e.step then
        let s1 := e.out.foldl (fun s p => s.sendChunk h p) s
        (s1.modChunk ix fun z => { z with out := [] }).closeLeaf ix g
      else s) s

/-- CHUNK_BASE_RX (R204, R208): a receiver's BASE; what it admits goes out. -/
def execChunkBaseRx (p : Part) (n : ChunkNote) (s : State) : Answer :=
  match n with
  | .base node d epoch step c role base =>
    match p with
    | .kresia => .next (s.takeNote d epoch step c 0 node fun s g _ =>
        (s.modKs fun k => { k with bases := FMap.set k.bases (winKey d c role step * 2 ^ 17 + node % 2 ^ 17) ⟨step, base⟩ }).flushLeaves
          d c (node % 2 ^ 17) g)
    | .baxel => match s.tenantOf d with
      | none => .next s
      | some t =>
        if epoch < (s.ten t).epoch then .next s
        else .next ((s.modBx fun b =>
          { b with bases := FMap.set b.bases (winKey d c role step * 2 ^ 17 + node % 2 ^ 17) ⟨step, base⟩ }).pumpParts)
  | _ => .next s

/-- CHUNK_BASE_NOTICE_TIMER (R208): the hold-off of a notice ends. -/
def execChunkBaseNoticeTimer (domain coll role step : Nat) (s : State) : Answer :=
  match (s.dom domain).imageFor step with
  | some g => .next (s.noteBase g domain coll role step)
  | none => .next s

/-- CHUNK_DONE_RX (R211): a member releases its part. -/
def execChunkDoneRx (n : ChunkNote) (s : State) : Answer :=
  match n with
  | .done d _ step c k => .next (s.releaseParts d step c k)
  | _ => .next s

/-- R221: whether a member of a domain is a Baxel 2.x. -/
def State.isV2Member (s : State) (d member : Nat) : Bool := (s.dom d).positions.any fun p => p.e.member = member && p.e.v2

/-- CHUNK_FAIL_RX (R218, R221): a leaf has lost a part: the home restarts the chunk, or fails it for a Baxel 2.x. -/
def execChunkFailRx (n : ChunkNote) (s : State) : Answer :=
  match n with
  | .fail node d epoch step c k restart lost =>
    .next (s.takeNote d epoch step c k node fun s g full =>
      match s.findChunk d c k full true with
      | some (ix, e) =>
        if restart < e.restart then s.count (evK 0x15001C)
        else if s.isV2Member d lost then s.failChunk ix 0x4007
        else s.restartChunk ix g lost
      | none =>
        if s.isV2Member d lost && !FMap.has (s.window d c 1 full).closed k then
          let (s1, ix) := s.openChunk g d c k full restart 1
          s1.failChunk ix 0x4007
        else s)
  | _ => .next s

/-- CHUNK_RESTART_RX (R218): a leaf resets its entry; a member sends its part again. -/
def execChunkRestartRx (p : Part) (n : ChunkNote) (s : State) : Answer :=
  match n with
  | .restart node d epoch step c k restart _ _ =>
    match p with
    | .kresia => .next (s.takeNote d epoch step c k node fun s g full =>
        match s.findChunk d c k full false with
        | some (ix, e) => if restart ≤ e.restart then s.count (evK 0x15001C) else s.resetChunk g ix restart
        | none =>
          let w := s.window d c 0 full
          match FMap.find? w.closed k with
          | some r => if r < restart then s.setWindow d c 0 full { w with closed := FMap.erase w.closed k } else s
          | none => s)
    | .baxel => .next (s.resendParts (fun x => (s.ten x.tenant).domain = some d && x.epoch = epoch && x.step % 65536 = step &&
        x.coll = c && x.chunk = k && x.restart < restart) (some restart))
  | _ => .next s

/-! ### Timers -/

/-- CHUNK_OPEN_WAIT (R195): a chunk that waits for slots opens, and the packets that came meanwhile are handled. -/
def execChunkOpenWait (entry : Nat) (s : State) : Answer :=
  match FMap.find? s.ks.chunks entry with
  | none => .next s
  | some e =>
    match (s.dom e.domain).imageFor e.step with
    | none => .next s
    | some g =>
      let n := slotsNeeded g e.coll e.chunk e.role
      match s.findSlots n with
      | none => .next s
      | some a =>
        if !e.waiting then .next s
        else
          let s1 := (s.modChunk entry fun z => { z with waiting := false, slotFirst := a, slotCount := n, parked := [] }).markHwm
          .next (e.parked.foldl (fun s (port, k) => match FMap.find? s.ks.chunks entry with
            | some z => s.atEntry entry g z port k
            | none => s) s1)

/-- PART_TIMEOUT (R218): a claimed part has had no packet for PART_TIMEOUT_US. -/
def execPartTimeout (entry sender : Nat) (s : State) : Answer :=
  match FMap.find? s.ks.chunks entry with
  | none => .next s
  | some e =>
    match FMap.find? e.parts sender, (s.dom e.domain).imageFor e.step with
    | some t, some g =>
      if e.state ≠ 1 || Raw.diff (s.raw .kresia) t.lastRaw < ((cTimeoutUs g e.coll * 65536000 : Nat) : Int) then .next s
      else if e.role = 1 then .next (s.restartChunk entry g sender)
      else .next ((s.modChunk entry fun z =>
        { z with parts := FMap.update z.parts sender t fun u => { u with lastRaw := s.raw .kresia } }).leafFail g e sender)
    | _, _ => .next s

/-! ### Moved homes (R219, R325) -/

/-- R219: a Kresia redirects a home-list element; a leaf of the old plane frees its entries for those chunks, a dispatch leaf drops
the lists of the open collections. -/
def State.ksMove (s : State) (m : HomeMove) : State :=
  let d := m.domain
  let mv : Moved := ⟨m.kind, m.record, m.element, m.home, m.step.getD 0⟩
  let s1 := s.modDom d fun x => { x with moves := x.moves ++ [mv] }
  if m.kind = 1 then s1.dspMoved m
  else if m.kind ≠ 0 then s1
  else s1.ks.chunks.foldl (fun s (ix, e) =>
    match (s.dom d).imageFor e.step with
    | none => s
    | some g =>
      if e.domain = d && e.coll = m.record && e.role ≠ 1 && e.chunk % cHomes g e.coll = m.element && mv.step ≤ e.step &&
        ksPlane m.home ≠ ksPlane s.ksId then s.dropChunk ix true else s) s1

/-- R219: the crown sends moves to every Kresia and member of a domain, and takes them itself. -/
def State.spreadMoves (s : State) (d : Nat) (l : List HomeMove) : State :=
  let x := s.dom d
  let dest := (x.kresia s.ks.build).filter (· ≠ s.ksId)
  l.foldl (fun (s : State) (m : HomeMove) =>
    ((s.emit (.send .kresia (.kresias dest) (.homeMove m))).emit (.send .kresia (.members x.members) (.homeMove m))).ksMove m) s

/-- HOME_MOVE_RX (R219): a Kresia or a member takes the move; members send again what they have not released. A crown that
receives one has it from the partner that promoted its mirrors (R322), and sends it on (DEDUCED, log 61). -/
def execHomeMoveRx (p : Part) (m : HomeMove) (s : State) : Answer :=
  match p with
  | .kresia => .next (if (s.dom m.domain).isCrown then s.spreadMoves m.domain [m] else s.ksMove m)
  | .baxel => match s.tenantOf m.domain with
    | none => .next s
    | some t =>
      let s1 := s.modTen t fun x => { x with moves := x.moves ++ [(m.kind, m.record, m.element, m.home, m.step.getD 0)] }
      if m.kind = 1 then .next (s1.resendLists t m)
      else if m.kind ≠ 0 then .next s1
      else .next (s1.resendParts (fun x => x.tenant = t && x.coll = m.record && m.step.getD 0 ≤ x.step &&
        x.chunk % cHomes ((s1.ten t).imageFor x.step) x.coll = m.element) none)

/-! ### Views (R197, R223) -/

/-- A value in n words from an address on. -/
def State.wrWords (s : State) (p : Part) (a n v : Nat) : State :=
  (List.range n).foldl (fun s i => s.wr p (a + 4 * i) (BitVec.ofNat 32 (v / 2 ^ (32 * i)))) s

/-- FELT_PROBE_SEL (R197, R198): the snapshot of a slot. What the word of a slot of binary64 contributions shows is left
open. -/
def execFeltProbeSel (w : Word) (s : State) : Answer :=
  let sel := w.get 0 22
  let s1 := s.wr .kresia 0x140090 (BitVec.ofNat 32 sel)
  let hit := List.find? (fun ((_, e) : Nat × ChunkEntry) => e.slotFirst ≤ sel && sel < e.slotFirst + e.slotCount) s.ks.chunks
  match hit with
  | none => .next ((s1.wr .kresia 0x140094 1).wrWords .kresia 0x1400A0 10 0)
  | some (_, e) =>
    let x := FMap.getD e.slots (sel - e.slotFirst) {}
    let f := x.felt.f
    let st := 1 + 2 * (e.state = 1 : Bool).toNat + 4 * f.nan.toNat + 8 * f.pinf.toNat + 16 * f.ninf.toNat
    if x.f64.isEmpty then
      .next ((s1.wr .kresia 0x140094 (BitVec.ofNat 32 st)).wrWords .kresia 0x1400A0 10 (x.w % 2 ^ 320).toNat)
    else
      let (v, s2) := s1.draw
      .next ((s2.wr .kresia 0x140094 (BitVec.ofNat 32 (st % 4))).wrWords .kresia 0x1400A0 10 v)

/-- CHUNK_SEL (R223): the snapshot of a chunk-table entry. -/
def execChunkSel (w : Word) (s : State) : Answer :=
  let sel := w.get 0 14
  let s1 := s.wr .kresia 0x150100 (BitVec.ofNat 32 sel)
  match FMap.find? s.ks.chunks sel with
  | none => .next (s1.wrWords .kresia 0x150104 11 0)
  | some e =>
    let home := match (s.dom e.domain).imageFor e.step with
      | some g => homeOf (s.dom e.domain).moves g e.coll e.chunk e.step
      | none => 0
    let words : List Nat :=
      [e.domain + e.coll % 2 ^ 12 * 2 ^ 16 + e.restart % 16 * 2 ^ 28, e.chunk % 2 ^ 24 + e.state * 2 ^ 24 + e.role * 2 ^ 27,
       e.epoch, e.step % 65536, e.slotFirst % 2 ^ 22, e.slotCount % 65536, e.claimed.length % 2 ^ 20, e.covered.length % 2 ^ 20,
       (if e.quorum ≠ 0 then e.quorum else e.expected.length) % 2 ^ 20, home % 2 ^ 17, e.parts.length % 256]
    .next ((List.range 11).foldl (fun s i => s.wr .kresia (0x150104 + 4 * i) (BitVec.ofNat 32 (words.getD i 0))) s1)

end Sys2Proof.Machine
end

