-- ==== Sys2Proof/Machine/Rsig.lean ====
section
/-! DEFINITION. Byte-counted remote signals: receive trackers (R137 to R141, R450), write responses (R138, R413), RW_DONE
(R137), Ploav 2 signals (R142), and memory requests without an answer (R414). -/

namespace Sys2Proof.Machine

/-! ### Counters -/

/-- The counter of a part for one outcome: its offset in the tenant page, and the Kresia's word of R450. -/
def State.rsigCount (s : State) (p : Part) (t off ks : Nat) : State :=
  match p with
  | .baxel => s.count (evT t off)
  | .kresia => s.count (evK ks)

/-! ### The signal of a complete transfer (R138, R141) -/

/-- The absolute object SIG_OBJ names at a receiver, or the code of R138. -/
def State.sigTarget (s : State) (p : Part) (t : Nat) (x : Tracker) : Nat × Option Code :=
  match p with
  | .baxel => (s.objBase t + x.sigObj, if s.objCount t ≤ x.sigObj then some 0x3004 else none)
  | .kresia => (x.sigObj, if (s.obj .kresia x.sigObj).domain ≠ some x.domain then some 0x3006 else none)

/-- R138: the tracker has LAST and every declared byte acknowledged: the SIGNAL applies, or is discarded, and the tracker
returns to its sender. -/
def State.completeTracker (s : State) (p : Part) (key t : Nat) (x : Tracker) : State :=
  let (o, bad) := s.sigTarget p t x
  let s0 := s.freeTracker p key
  let discard (c : Code) (rep : Bool) : State :=
    let s1 := s0.rsigCount p t 0x244 0x120088
    (if rep then s1.report p c [x.src] (domain := some x.domain) else s1).rwDoneTo p x c
  if p = .kresia && x.mirror.isSome then s0.mirrorLanded x
  else
    match bad with
    | some c => discard c true
    | none =>
      if x.sigN = 0 then discard 0x3004 true
      else if p = .baxel && (s.ten t).faulted then discard 0x300C false
      else if (s.obj p o).poison then discard 0x3003 false
      else
        let kind := if 2 ^ 20 ≤ x.src then 1 else 0
        let (s1, code) := s0.signalObj p o x.sigN ⟨x.src % 2 ^ 20, kind, x.lastPort % 16, x.transfer⟩
        let s2 := if code = 0 then s1.rsigCount p t 0x23C 0x120080 else s1
        (s2.sample p 0xF0101 (Raw.diff (s.raw p) x.opened) (port := some x.lastPort) (ten := some t)
          (dom := some x.domain)).rwDoneTo p x code

/-- R138: whether a tracker is complete. -/
def Tracker.complete (x : Tracker) : Bool := x.last && !x.overrun && x.acked = x.declared

/-- The tracker under a key applied when it is complete. -/
def State.tryTracker (s : State) (p : Part) (key t : Nat) : State :=
  match FMap.find? (s.trackers p) key with
  | some x => if x.complete then s.completeTracker p key t x else s
  | none => s

/-! ### Packets -/

/-- R136, R140: whether a packet would overrun the transfer of a tracker. Every byte written is acknowledged later, so
ACKED would exceed DECLARED exactly when the bytes written would. -/
def overruns (x : Tracker) (k : RsigPacket) : Bool :=
  let declared := if k.last then k.declared else x.declared
  (k.last && x.last) || (k.last && (k.declared < 64 || 1048576 < k.declared)) ||
  (x.last && x.lastIndex < k.index) || (k.last && k.index < x.maxIndex) ||
  ((k.last || x.last) && declared < x.written + k.payload.length)

/-- R140: a transfer closes as overrun: its object is poisoned, and the tracker stays closed. -/
def State.overrun (s : State) (p : Part) (key t : Nat) (x : Tracker) : State :=
  let (o, bad) := s.sigTarget p t x
  let s1 := s.modTrackers p fun m => FMap.set m key { x with overrun := true, lastRaw := s.raw p }
  match bad with
  | none => s1.poisonObj p o 0x300D
  | some _ => s1

/-- One write of a packet's payload: by the memory port of a Baxel; into its memory at a Kresia. -/
def State.landPayload (s : State) (p : Part) (t addr : Nat) (bs : List Byte) (use : MemUse) : State :=
  match p with
  | .baxel => s.bxWrite addr bs (memTag (some t)) use
  | .kresia =>
    let id := freeId s.ks.writes 0
    (s.ksWrite addr bs).modWrites .kresia fun w => FMap.set w id
      { addr := addr, bytes := bs.length, tag := 0, use := use, issued := s.raw .kresia }

/-- R138: a packet that is taken: marked landed, written; LAST brings the signal's fields. -/
def State.takePacket (s : State) (p : Part) (port key t : Nat) (x : Tracker) (k : RsigPacket) : State :=
  let x1 : Tracker := { x with
    landed := x.landed ||| (1 <<< (k.index % 256))
    maxIndex := max x.maxIndex k.index
    written := x.written + k.payload.length
    mirror := k.mirror
    lastRaw := s.raw p }
  let x2 : Tracker := if k.last then
      { x1 with last := true, lastIndex := k.index, declared := k.declared, sigObj := k.sigObj, sigN := k.sigN, lastPort := port }
    else x1
  ((s.modTrackers p fun m => FMap.set m key x2).landPayload p t k.addr k.payload (.rsig key port)).tryTracker p key t

/-- R137: the trackers a partition has. -/
def State.trackerPart (s : State) (p : Part) (t d : Nat) : Nat :=
  match p with
  | .baxel => s.fld .baxel (0x0520 + 4 * t) 0 14
  | .kresia => (s.dom d).trackers

/-- R136 to R141: a packet of a transfer at its receiver, of tenant t (Baxel). -/
def State.rsigPacket (s : State) (p : Part) (port t epoch : Nat) (k : RsigPacket) : State :=
  let key := rsigKey k.src k.transfer
  let drop (s : State) : State := s.rsigCount p t 0x250 0x12008C
  match FMap.find? (s.trackers p) key with
  | some x =>
    if x.overrun then drop (s.modTracker p key fun y => { y with lastRaw := s.raw p })
    else if k.epoch < epoch then drop s
    else if x.landed.getLsbD (k.index % 256) then (s.rsigCount p t 0x240 0x120084).modTracker p key fun y => { y with lastRaw := s.raw p }
    else if overruns x k then
      s.overrun p key t (if k.last && !x.last then { x with sigObj := k.sigObj, lastPort := port } else x)
    else s.takePacket p port key t x k
  | none =>
    if k.epoch < epoch then drop s
    else
      let used := ((s.trackers p).filter fun (_, x) => x.domain = k.domain).length
      if s.trackerPart p t k.domain ≤ used then
        (drop s).report p 0x3010 [k.src, k.transfer] (domain := some k.domain)
      else
        let x : Tracker := { src := k.src, transfer := k.transfer, domain := k.domain, epoch := k.epoch,
                             opened := s.raw p, lastRaw := s.raw p, lastPort := port }
        if overruns x k then s.overrun p key t { x with sigObj := k.sigObj, declared := k.declared }
        else s.takePacket p port key t x k

/-- RSIG_PACKET_RX (R136 to R142). -/
def execRsigPacketRx (p : Part) (port : Nat) (x : RsigPacket) (s : State) : Answer :=
  match p with
  | .baxel =>
    if s.bx.fenced then .next (s.count (evB 0x043C))
    else match s.tenantOf x.domain with
      | some t =>
        if s.isV2Port .baxel port then .next (s.landPayload .baxel t x.addr x.payload (.v2 port))
        else .next (s.rsigPacket .baxel port t (s.ten t).epoch x)
      | none =>
        let s1 := s.count (evB 0x0438)
        .next (if x.last then
            s1.emit (.send .baxel (.port port) (.rwDone ⟨x.domain, x.epoch, x.transfer, 0x3013⟩)) else s1)
  | .kresia =>
    if s.isFenced x.src then .next (s.count (evK 0x1B0004))
    else if s.isV2Port .kresia port then .next (s.landPayload .kresia 0 x.addr x.payload (.v2 port))
    else .next (s.rsigPacket .kresia port 0 (s.dom x.domain).epoch x)

/-! ### Timers -/

/-- R141: RSIG_TIMEOUT in ns. The manual gives a Kresia's no register: its signed configuration holds it, 10 ms where that
is outside 1 to 1,000 (DESIGN CHOICE, log 148). -/
def State.rsigTimeoutNs (s : State) : Part → Nat
  | .baxel => s.fld .baxel 0x0534 0 10 * 1000000
  | .kresia =>
    let ms := s.ks.build.rsigTimeout
    (if 1 ≤ ms && ms ≤ 1000 then ms else 10) * 1000000

/-- Whether a tracker has been silent for RSIG_TIMEOUT. -/
def State.silent (s : State) (p : Part) (x : Tracker) : Bool :=
  ((s.rsigTimeoutNs p * 65536 : Nat) : Int) ≤ Raw.diff (s.raw p) x.lastRaw

/-- RSIG_OVERRUN_WAIT_END (R140). -/
def execRsigOverrunWaitEnd (p : Part) (src transfer : Nat) (s : State) : Answer :=
  let key := rsigKey src transfer
  match FMap.find? (s.trackers p) key with
  | some x =>
    if x.overrun && s.silent p x then .next ((s.freeTracker p key).rwDoneTo p x 0x300D) else .next s
  | none => .next s

/-- RSIG_TIMEOUT (R141): an open tracker that no packet reaches closes with a report. -/
def execRsigTimeout (p : Part) (src transfer : Nat) (s : State) : Answer :=
  let key := rsigKey src transfer
  match FMap.find? (s.trackers p) key with
  | some x =>
    if !x.overrun && !x.complete && s.silent p x then
      .next (((s.freeTracker p key).report p 0x300E [x.src, x.transfer] (domain := some x.domain)).rwDoneTo p x 0x300E)
    else .next s
  | none => .next s

/-! ### Write responses -/

/-- R142: the Ploav 2 signals whose earlier writes are all acknowledged apply. -/
def State.serveV2 (s : State) (p : Part) : State :=
  let ws := match p with
    | .baxel => s.bx.v2Waits
    | .kresia => s.ks.v2Waits
  let done := ws.filter fun w => w.writes.all fun k => !FMap.has (s.writesOf p) k
  let rest := ws.filter fun w => !(w.writes.all fun k => !FMap.has (s.writesOf p) k)
  let s1 := match p with
    | .baxel => s.modBx fun b => { b with v2Waits := rest }
    | .kresia => s.modKs fun k => { k with v2Waits := rest }
  done.foldl (fun s w =>
    let t := match p with
      | .baxel => (s.tenantOf w.domain).getD 4
      | .kresia => 0
    let x : Tracker := { src := w.src, transfer := w.seq, domain := w.domain, epoch := 0, sigObj := w.obj, sigN := w.n,
                         opened := s.raw p, lastRaw := s.raw p, lastPort := w.port }
    let (o, bad) := s.sigTarget p t x
    match bad with
    | some c => (s.rsigCount p t 0x244 0x120088).report p c [w.src] (domain := some w.domain)
    | none =>
      if p = .baxel && (s.ten t).faulted then s.rsigCount p t 0x244 0x120088
      else if (s.obj p o).poison || w.n = 0 then s.rsigCount p t 0x244 0x120088
      else
        let (s1, c) := s.signalObj p o w.n ⟨w.src % 2 ^ 20, if 2 ^ 20 ≤ w.src then 1 else 0, w.port % 16, w.seq⟩
        if c = 0 then s1.rsigCount p t 0x23C 0x120080 else s1) s1

/-- V2_SIGNAL_PACKET_RX (R142): the signal waits for every write of its port that is outstanding now. -/
def execV2SignalPacketRx (p : Part) (port : Nat) (x : RsigPacket) (s : State) : Answer :=
  let mine := (s.writesOf p).filter fun (_, r) => match r.use with
    | .rsig _ l => l = port
    | .v2 l => l = port
    | _ => false
  let w : V2Wait := ⟨port, x.domain, x.sigObj, x.sigN, x.src, x.transfer, mine.map (·.1)⟩
  if p = .baxel && s.bx.fenced then .next (s.count (evB 0x043C))
  else if p = .baxel && (s.tenantOf x.domain).isNone then .next (s.count (evB 0x0438))
  else if p = .kresia && s.isFenced x.src then .next (s.count (evK 0x1B0004))
  else
    let s1 := match p with
      | .baxel => s.modBx fun b => { b with v2Waits := b.v2Waits ++ [w] }
      | .kresia => s.modKs fun k => { k with v2Waits := k.v2Waits ++ [w] }
    .next (s1.serveV2 p)

/-- R414: an error of a request, to the tenant it is tagged with, or to the fault manager. -/
def State.memError (s : State) (tag : Nat) (code : Code) : State :=
  if 4 ≤ tag then s.tenantFault (tag - 4) code else (s.report .baxel code).irqPriv .baxel

/-- R390, R414: a command whose write failed completes with the code; its other writes no longer count for it. -/
def State.failCommand (s : State) (m j : Nat) (code : Code) : State :=
  (s.modBx fun b => { b with writes := FMap.mapVals b.writes fun _ r => if r.use = .command m j then { r with use := .landed } else r }).complete
    .baxel m j code

/-- MEM_WRITE_RESPONSE (R138, R411, R413, R414). -/
def execMemWriteResponse (p : Part) (port id : Nat) (err : Bool) (s : State) : Answer :=
  let key := port * 4096 + id
  match FMap.find? (s.writesOf p) key with
  | none => .next s
  | some r =>
    let s0 := s.modWrites p fun w => FMap.erase w key
    let s1 := match p with
      | .baxel => s0.nextWrite port
      | .kresia => s0
    let s2 :=
      if r.timedOut then s1
      else
        let s3 := s1.sample p 0xF0102 (Raw.diff (s.raw p) r.issued) (port := some port)
          (ten := if r.tag < 4 then none else some (r.tag - 4))
        if err && p = .baxel then
          match r.use with
          | .command m j => (s3.memError r.tag 0xB004).failCommand m j 0xB004
          | _ => s3.memError r.tag 0xB004
        else
          match r.use with
          | .rsig k _ => match FMap.find? (s3.trackers p) k with
            | some x =>
              let t := match p with
                | .baxel => (s.tenantOf x.domain).getD 4
                | .kresia => 0
              (s3.modTracker p k fun y => { y with acked := y.acked + r.bytes }).tryTracker p k t
            | none => s3
          | .command m j =>
            if (s3.writesOf p).any fun (_, q) => q.use = .command m j then s3 else s3.complete p m j 0
          | .ring ch => s3.wr p (tAddr p (0x604C + 0x100 * ch)) (s3.rd p (tAddr p (0x604C + 0x100 * ch)) + 1)
          | _ => s3
    .next (s2.serveV2 p)

/-! ### Senders -/

/-- The open transfers of a sender. -/
def State.sendsOf (s : State) : Part → FMap SendTransfer
  | .baxel => s.bx.sends
  | .kresia => s.ks.sends

/-- R137: a transfer is answered: its tracker returns, and what it carried goes on. -/
def State.closeSend (s : State) (p : Part) (key : Nat) (x : SendTransfer) (code : Code) : State :=
  let s1 := match p with
    | .baxel => s.modBx fun b => { b with sends := FMap.erase b.sends key }
    | .kresia => s.modKs fun k => { k with sends := FMap.erase k.sends key }
  s1.sendDone p x code

/-- RW_DONE_RX (R137): the tracker of the transfer returns; what the transfer carried goes on. -/
def execRwDoneRx (p : Part) (src : Nat) (d : RwDone) (s : State) : Answer :=
  let key := rsigKey src d.transfer
  match FMap.find? (s.sendsOf p) key with
  | some x => .next (if x.domain ≠ d.domain then s else s.closeSend p key x d.code)
  | none => .next s

/-- R142: no RW_DONE answers a transfer over Ploav 2; its number comes free when its last packet has left, here in the next
nanosecond (DESIGN CHOICE, log 149). -/
def State.tickV2 (s : State) (p : Part) : State :=
  ((s.sendsOf p).filter fun (_, x) => x.v2).foldl (fun s (key, x) => s.closeSend p key x 0) s

end Sys2Proof.Machine
end

