-- ==== Sys2Proof/Machine/DispatchFamily.lean ====
section
/-! DEFINITION. Rows of conditional dispatch (R253 to R266, R268) and of read data (R411, R414). -/

namespace Sys2Proof.Machine

/-! ### At a Baxel -/

/-- DP_GO (R253, R269): a post as DP_LAYER and DP_COUNT give it; its code stands in DP_STATUS. -/
def execDpGo (t : Nat) (s : State) : Answer :=
  let l := (s.rd .baxel (tPage t 0x380)).toNat
  let n := s.fld .baxel (tPage t 0x384) 0 17
  match s.dspPostCode t l n with
  | some c => .next (s.setFld .baxel (tPage t 0x38C) 0 16 c.toNat)
  | none =>
    let x := s.ten t
    let p : DspPost := { layer := l, n := n, step := x.nowStep, epoch := x.epoch }
    let keep (q : DspPost) : Bool := q.state < 3 || (q.step = p.step && q.epoch = p.epoch)
    .next (((s.setFld .baxel (tPage t 0x38C) 0 16 0).modTen t fun y =>
      { y with dspPosts := y.dspPosts.filter keep ++ [p] }).beginPost t p)

/-- DSP_OPEN_RX (R253): the dispatch leaf has opened a layer: a post that waits sends its records and END. -/
def execDspOpenRx (n : DspNote) (s : State) : Answer :=
  match s.tenantOf n.domain with
  | none => .next s
  | some t =>
    let x := s.ten t
    if n.epoch < x.epoch then .next s
    else
      let key := (n.layer, n.step, n.epoch)
      let s1 := s.modTen t fun y =>
        { y with dspOpens := if y.dspOpens.contains key then y.dspOpens else key :: y.dspOpens.filter fun (_, st, ep) => n.step ≤ st + 1 && n.epoch ≤ ep }
      match x.dspPosts.find? fun p => p.isFor n.layer n.step n.epoch with
      | some p => .next (s1.beginPost t p)
      | none => .next s1

/-- DSP_GO_RX (R263): the payload of every token of the post is read and sent. -/
def execDspGoRx (n : DspNote) (s : State) : Answer :=
  match s.tenantOf n.domain with
  | none => .next s
  | some t => match (s.ten t).dspPosts.find? fun p => p.isFor n.layer n.step n.epoch with
    | none => .next s
    | some p =>
      if p.state ≠ 2 then .next s
      else
        let g := (s.ten t).imageFor p.step
        let s1 := s.modDspPost t p.layer p.step p.epoch fun q => { q with state := 3 }
        .next ((List.range p.n).foldl (fun s i => s.startRead t (lSrcAddr g p.layer + i * lPayload g p.layer) (lPayload g p.layer)
          (.payload p.layer p.step p.epoch i)) s1)

/-- DP_RET_GO (R264): the host blocks of the layer in DP_LAYER are read as they stand, and each slot's output goes back. -/
def execDpRetGo (t : Nat) (s : State) : Answer :=
  let x := s.ten t
  let l := (s.rd .baxel (tPage t 0x380)).toNat
  if x.faulted || x.domain.isNone || layCount x.prog ≤ l || !(lHosts x.prog l).contains x.position then
    .next (s.setFld .baxel (tPage t 0x38C) 0 16 0x6001)
  else
    let s1 := s.setFld .baxel (tPage t 0x38C) 0 16 0
    .next (if lRet x.prog l = 0 then s1 else s1.returnLayer t l)

/-- DSP_RESTART_RX (R266): the position's list goes again under the new RESTART. -/
def execDspRestartRx (n : DspNote) (s : State) : Answer :=
  match s.tenantOf n.domain with
  | none => .next s
  | some t => match (s.ten t).dspPosts.find? fun p => p.isFor n.layer n.step n.epoch with
    | none => .next s
    | some p =>
      if n.restart ≤ p.restart || 3 ≤ p.state then .next s
      else
        let s1 := s.modDspPost t p.layer p.step p.epoch fun q => { q with restart := n.restart }
        if p.state = 2 then .next (s1.sendList t ((s.ten t).imageFor p.step) { p with restart := n.restart } p.recs) else .next s1

/-- MEM_READ_DATA (R411, R414): the data of an outstanding read. -/
def execMemReadData (port id : Nat) (data : List Byte) (err : Bool) (s : State) : Answer :=
  let key := port * 4096 + id
  match FMap.find? s.bx.reads key with
  | none => .next s
  | some r =>
    let s1 := s.modBx fun b => { b with reads := FMap.erase b.reads key }
    let s2 := if err && !r.timedOut then
        (match r.use with
          | .boot => s1.setFld .baxel 0x001C 0 16 0xB004
          | _ => s1.memError r.tag 0xB004)
      else s1
    match r.use with
    | .job j line => .next (if r.timedOut then s2.pumpReads else s2.lineCame j line data err)
    | _ => .next s2

/-- MEM_PORT_TIMEOUT (R414): no response 1 ms after acceptance; the ID stays taken until its response. What waited for it fails. -/
def execMemPortTimeout (rd : Bool) (port id : Nat) (s : State) : Answer :=
  let key := port * 4096 + id
  let m := if rd then s.bx.reads else s.bx.writes
  match FMap.find? m key with
  | some r =>
    if !r.timedOut && 1000000 * 65536 ≤ Raw.diff (s.raw .baxel) r.issued then
      let s1 := (s.modBx fun b =>
        if rd then { b with reads := FMap.set b.reads key { r with timedOut := true } }
        else { b with writes := FMap.set b.writes key { r with timedOut := true } }).memError r.tag 0xB005
      .next (match r.use with
        | .job j line => s1.lineCame j line [] true
        | .command m j => s1.failCommand m j 0xB005
        | _ => s1)
    else .next s
  | none => .next s

/-! ### At a Kresia -/

/-- R254, R257, R266: a message of dispatch, under its epoch: stale, or taken with the image. -/
def State.takeDsp (s : State) (d epoch step : Nat) (f : State → Image → State) : State :=
  let x := s.dom d
  match x.imageFor step with
  | none => s.dspStale
  | some g =>
    if epoch < x.epoch then s.dspStale
    else f (if x.epoch < epoch then s.newerEpoch d epoch step else s) g

/-- DSP_RECORD_RX (R254, R256, R316): a token record or END of a member at its dispatch leaf. -/
def execDspRecordRx (x : DspPacket) (s : State) : Answer :=
  if s.isFenced x.sender then .next (s.count (evK 0x1B0004))
  else .next (s.takeDsp x.domain x.epoch x.step fun s g => s.takeRecord x g)

/-- DSP_LIST_RX (R257 to R262): a leaf's list at its plan home. -/
def execDspListRx (x : DspPacket) (s : State) : Answer :=
  .next (s.takeDsp x.domain x.epoch x.step fun s g => s.takeList x g)

/-- DSP_PAYLOAD_RX (R263, R316): a payload at its dispatch leaf. -/
def execDspPayloadRx (x : DspPacket) (s : State) : Answer :=
  if s.isFenced x.sender then .next (s.count (evK 0x1B0004))
  else .next (s.takeDsp x.domain x.epoch x.step fun s g => match (s.dom x.domain).posOf x.sender with
    | some i => s.takePayload x g i
    | none => s.dspBad x.domain x.sender x.step x.layer)

/-- DSP_LOST_RX (R255, R266): a member has lost its dispatch leaf. -/
def execDspLostRx (n : DspNote) (s : State) : Answer :=
  .next (s.takeDsp n.domain n.epoch n.step fun s g => s.takeLost n g)

/-- DSP_PLACEMENTS_RX (R262): the placements of a plan home at a dispatch leaf. -/
def execDspPlacementsRx (p : DspPlacements) (s : State) : Answer := .next (s.takePlaces p)

/-- DSP_ASSIGN_ENGINE_FREE (R257, R265): the engine takes the next layer queued. -/
def execDspAssignEngineFree (s : State) : Answer :=
  let s1 := s.modKs fun k => { k with dspEngine := none }
  match s.ks.dspQ with
  | [] => .next s1
  | k :: t => .next ((s1.modKs fun q => { q with dspQ := t }).toEngine k)

/-- DSP_SEL (R268): a write of KS_DSP_SEL.EXPERT latches the snapshot of the selected layer, group and expert. -/
def execDspSel (w : Word) (s : State) : Answer :=
  let e := w.get 0 16
  let d := s.fld .kresia 0x170100 0 16
  let l := (s.rd .kresia 0x170104).toNat
  let grp := s.fld .kresia 0x170108 0 20
  let s1 := s.wr .kresia 0x17010C (BitVec.ofNat 32 e)
  let all := s.ks.dspHomes.filter fun h => h.domain = d && h.layer = l && h.group = grp
  match all.foldl (fun (b : Option DspHome) h => match b with
    | some y => if y.step ≤ h.step then some h else b
    | none => some h) none with
  | none => .next (s1.wrWords .kresia 0x170110 6 0)
  | some h =>
    let cap := match (s.dom d).imageFor h.step with
      | some g => lCap g l e
      | none => 0
    let words : List Nat := [h.state + 8 * h.restart, h.ends.length, FMap.getD h.fill e 0, cap, h.step % 2 ^ 32, h.step / 2 ^ 32]
    .next ((List.range 6).foldl (fun s i => s.wr .kresia (0x170110 + 4 * i) (BitVec.ofNat 32 (words.getD i 0))) s1)

end Sys2Proof.Machine
end

