-- ==== Sys2Proof/Machine/LaunchBx.lean ====
section
/-! DEFINITION. The launch list of a Baxel: partitions and templates (R89 to R91), arrivals (R94), the crown's
broadcasts (R93, R102 to R105), fires at the launch port (R108 to R113, R415, R416), faults and fences (R114, R116). -/

namespace Sys2Proof.Machine

/-! ### Partitions and rows -/

/-- LL_PART_WRITE (R89). -/
def execLlPartWrite (t : Nat) (w : Word) (s : State) : Answer :=
  let new := (w.get 0 10, w.get 10 11)
  let parts := (List.range 4).map fun u => if u = t then new else (s.llBase u, s.llCount u)
  if 4 ≤ t then .next s
  else if !partsOk parts 1024 || (!(s.slotsOf t).isEmpty && new ≠ (s.llBase t, s.llCount t)) then
    .next (s.emit (.refused .baxel 0x200B))
  else .next (s.wr .baxel (0x0400 + 4 * t) (w.put 21 11 0))

/-- R91: the row groups of a tenant. -/
def State.rowAllow (s : State) (t : Nat) : BitVec 64 := s.rd64 .baxel (0x0410 + 8 * t)

/-- ROW_ALLOW_WRITE (R91). -/
def execRowAllowWrite (t : Nat) (hi : Bool) (w : Word) (s : State) : Answer :=
  let a := 0x0410 + 8 * t + (if hi then 4 else 0)
  if 4 ≤ t then .next s
  else
    let s1 := s.wr .baxel a w
    if (List.range 4).any fun u => u ≠ t && (s.rowAllow u &&& s1.rowAllow t) ≠ 0 then
      .next (s.emit (.refused .baxel 0x2012))
    else .next s1

/-! ### Templates -/

/-- R90: why firmware refuses one template for slot i of tenant t. In a replace a template equal to the one a slot holds is
no new load of that slot, whatever its state (R169; log 14). -/
def State.tmplCode (s : State) (t i : Nat) (tm : Template) (replace : Bool := false) : Option Code :=
  let e := s.slot t i
  if s.llCount t ≤ i then some 0x2011
  else if e.state ≠ .free && e.state ≠ .loaded && !(replace && e.tmpl = tm) then some 0x2003
  else if (tm.rowMask &&& ~~~(s.rowAllow t)) ≠ 0 || tm.rowMask >>> s.bx.straps.rowGroups ≠ 0 then some 0x200C
  else if tm.tenant ≠ t then some 0x2011
  else none

/-- R89: one template put into its slot. -/
def State.putTmpl (s : State) (t i : Nat) (tm : Template) : State :=
  let e := s.slot t i
  if e.state ≠ .free && e.tmpl = tm then s else s.modSlot t i fun _ => { tmpl := tm, state := .loaded }

/-- R164: INIT and REPLAY written to one declared local object of tenant t. -/
def State.putObj (s : State) (t : Nat) (d : ObjDecl) : State :=
  if d.cluster then s
  else s.modObj .baxel (s.objBase t + d.index) fun o => { o with value := d.init, init := d.init, replay := d.replay }

/-- R167: the answer of this Baxel's firmware to the crown of a domain. -/
def State.ackLoad (s : State) (domain : Nat) (code : Code) (freed : Bool := false) : State :=
  s.emit (.send .baxel (.crown domain)
    (.loadAck { domain := domain, freed := freed, fromBaxel := true, node := s.node .baxel, code := code }))

/-- R167: a load refused: nothing of it stands, so its withdrawal finds nothing to return. -/
def State.refuseLoad (s : State) (domain : Nat) (code : Code) : State :=
  (s.modBx fun b => { b with prior := FMap.erase b.prior domain }).ackLoad domain code

/-- R94, R167: what firmware writes of a load into its tenant's state. A pending program's STEP_FIRST waits beside that of
the program loaded (R169). -/
def Tenant.take (x : Tenant) (ld : TemplateLoad) : Tenant :=
  let y := { x with
    priorProg := x.prog, prog := ld.image, position := ld.position, group := ld.group, port := ld.port, peers := ld.peers
    v2Peers := ld.v2Peers }
  if ld.replace then { y with pendFirst := some ld.stepFirst, pendObjs := ld.objs }
  else
    { y with stepFirst := some ld.stepFirst, pendFirst := none, pendObjs := [], moves := [], epoch := ld.epoch
             hseq := BitVec.ofNat 32 ld.seq, seen := 0, named := ld.named }

/-- A load of templates and objects for a bound tenant: all of it, or the first refusal and nothing. The objects of a
replace wait for the switch (R169); a first load starts the tenant's broadcasts at epoch 0 (R167; DEDUCED, log 52). -/
def State.loadTmpl (s : State) (t : Nat) (ld : TemplateLoad) : State :=
  match ld.slots.findSome? fun (i, tm) => s.tmplCode t i tm ld.replace with
  | some code => s.refuseLoad ld.domain code
  | none =>
    if ld.objs.any fun d => !d.cluster && s.objCount t ≤ d.index then s.refuseLoad ld.domain 0x2026
    else if s.fld .baxel (0x0520 + 4 * t) 0 14 < ld.trackers then s.refuseLoad ld.domain 0x2027
    else
      let fresh := ld.slots.filter fun (i, tm) => (s.slot t i).state = .free || (s.slot t i).tmpl ≠ tm
      let objs := if ld.replace then [] else ld.objs.filter (!·.cluster)
      let was : Prior :=
        { replace := ld.replace, slots := fresh.map fun (i, _) => (i, s.slot t i)
          objs := objs.map fun d => (d.index, s.obj .baxel (s.objBase t + d.index)), ten := s.ten t }
      let s1 := s.modBx fun b => { b with prior := FMap.set b.prior ld.domain was }
      let s2 := ld.slots.foldl (fun s (i, tm) => s.putTmpl t i tm) s1
      let s3 := objs.foldl (fun s d => s.putObj t d) s2
      (s3.modTen t fun x => x.take ld).ackLoad ld.domain 0

/-- R167: what a load wrote into a tenant's state, taken back. Under a replace the broadcasts of the running program have
gone on, so the rest of the tenant stands. -/
def Tenant.untake (x : Tenant) (was : Prior) : Tenant :=
  let y := was.ten
  let z := { x with
    prog := y.prog, priorProg := y.priorProg, pendFirst := y.pendFirst, pendObjs := y.pendObjs, position := y.position
    group := y.group, port := y.port, peers := y.peers, v2Peers := y.v2Peers }
  if was.replace then z
  else { z with stepFirst := y.stepFirst, moves := y.moves, epoch := y.epoch, hseq := y.hseq, seen := y.seen, named := y.named }

/-- R167: a load withdrawn: slots, objects and the tenant's state return to what they held before it. -/
def State.withdrawTmpl (s : State) (t : Nat) (domain : Nat) : State :=
  match FMap.find? s.bx.prior domain with
  | none => s
  | some was =>
    let s1 := was.slots.foldl (fun s (i, e) => s.modSlot t i fun _ => e) s
    let s2 := was.objs.foldl (fun s (i, o) => s.modObj .baxel (s.objBase t + i) fun y =>
      { y with value := o.value, init := o.init, replay := o.replay }) s1
    (s2.modTen t fun x => x.untake was).modBx fun b => { b with prior := FMap.erase b.prior domain }

/-- R169, R171: a program's slots return to FREE, and the crown learns it. -/
def State.releaseTmpl (s : State) (t : Nat) (ld : TemplateLoad) : State :=
  let s1 := ld.slots.foldl (fun s (i, _) => (s.slotVoid t i).modSlot t i fun _ => {}) s
  let s2 := s1.modTen t fun x =>
    if x.stepFirst = some ld.stepFirst || x.pendFirst = some ld.stepFirst then
      { x with prog := [], priorProg := [], posts := [], pendFirst := none, pendObjs := [] }
    else { x with priorProg := [] }
  (s2.modBx fun b => { b with prior := FMap.erase b.prior ld.domain }).ackLoad ld.domain 0 true

/-- TEMPLATE_LOAD (R90, R163, R164, R167): what the crown's TC6 message asks of this Baxel's firmware. -/
def execTemplateLoad (ld : TemplateLoad) (s : State) : Answer :=
  match s.tenantOf ld.domain with
  | none => .next (s.ackLoad ld.domain 0x2011)
  | some t =>
    match ld.op with
    | .load => .next (s.loadTmpl t ld)
    | .withdraw => .next (s.withdrawTmpl t ld.domain)
    | .release => .next (s.releaseTmpl t ld)

/-! ### Arrivals -/

/-- R94: whether a tenant may arrive for a step: the step its last arm or void named or the next, and before the
first of them STEP_FIRST of its program. -/
def Tenant.mayArrive (x : Tenant) (step : Nat) : Bool :=
  !x.faulted && x.domain.isSome &&
  match x.named with
  | some n => step = n || step = n + 1
  | none => x.stepFirst = some step

/-- ARRIVE (R94): the host has written a step to BX_T_ARRIVE. -/
def execArrive (t : Nat) (step : Nat) (s : State) : Answer :=
  let x := s.ten t
  if 4 ≤ t then .next s
  else if x.mayArrive step then
    .next (s.sendCtl { kind := .arrive, domain := x.domain.getD 0, epoch := x.epoch, step := step })
  else .next (s.viewCode t 0x2010)

/-! ### Voids -/

/-- R103, R422: VOIDED set, and the tenant's launch interrupt. -/
def State.voidedIrq (s : State) (t : Nat) : State := (s.setBit .baxel (tPage t 0) 2 true).emit (.irqT t)

/-- R103, R104: a void at one slot: ARMED, TAMPED and WAITING become VOID and count; a running series ends; a VOID
slot returns to LOADED unless the tenant is faulted. -/
def State.voidSlot (s : State) (t i : Nat) : State :=
  let e := s.slot t i
  let s1 :=
    match e.state with
    | .armed => (s.slotVoid t i).count (evT t 0x104)
    | .tamped => (s.slotVoid t i).count (evT t 0x104)
    | .waiting => (s.slotVoid t i).count (evT t 0x104)
    | .bellRun => s.slotVoid t i
    | _ => s
  if (s1.slot t i).state = .void && !(s1.ten t).faulted then s1.modSlot t i fun e => { e with state := .loaded } else s1

/-- R133: a REPLAY object at a void: INIT, and its waiters end with S_OBJ_VOIDED. -/
def State.replayObj (s : State) (p : Part) (o : Nat) : State :=
  ((s.endAll p o 0x3012)).modObj p o fun x => { x with value := x.init }

/-- R103: void_older: the first broadcast of a newer epoch reaches tenant t. -/
def State.voidOlder (s : State) (t : Nat) (m : Ctl) : State :=
  let s1 := (s.slotsOf t).foldl (fun s (i, _) => s.voidSlot t i) s
  let fired := (s.slotsOf t).filter fun (_, e) => e.state = .fired
  let s2 :=
    if m.kind = .void then
      if fired.any fun (_, e) => e.epoch = m.voidedEpoch && e.step = m.step then s1.voidedIrq t else s1
    else (fired.filter fun (_, e) => e.epoch < m.epoch && m.step ≤ e.step).foldl (fun s _ => s.voidedIrq t) s1
  let replay := (List.range (s.objCount t)).filter fun i => (s.obj .baxel (s.objBase t + i)).replay
  let s3 := replay.foldl (fun s i => s.replayObj .baxel (s.objBase t + i)) s2
  s3.voidTrackers .baxel m.domain m.epoch

/-! ### The crown's broadcasts -/

/-- R93: what the filter says of a broadcast for a bound tenant: stale, a duplicate, or the first copy (and whether its
epoch is newer), with E, H and the seen map after it. -/
inductive FilterOut where
  | stale | dup | first (newer : Bool)
  deriving DecidableEq, Repr

/-- R93: E, H and the seen map, and the outcome. -/
def Tenant.filter (x : Tenant) (epoch seq : Nat) : Tenant × FilterOut :=
  if epoch < x.epoch then (x, .stale)
  else
    let newer : Bool := decide (x.epoch < epoch)
    let q := BitVec.ofNat 32 seq
    let x1 := if newer then { x with epoch := epoch, hseq := q - 1, seen := 0 } else x
    let k : Int := (q - x1.hseq).toInt
    if 0 < k then ({ x1 with seen := (if 64 ≤ k then 0 else x1.seen <<< k.toNat) ||| 1, hseq := q }, .first newer)
    else if -64 < k && !x1.seen.getLsbD (-k).toNat then
      ({ x1 with seen := x1.seen ||| (1 <<< (-k).toNat) }, .first newer)
    else (x1, .dup)

/-- R93: a broadcast at a Baxel: `act` is what its TYPE does to tenant t. -/
def State.onBroadcast (s : State) (m : Ctl) (act : Nat → State → State) : State :=
  match s.tenantOf m.domain with
  | none => s.count (evB 0x0438)
  | some t =>
    if s.bx.fenced then s.count (evB 0x043C)
    else
      let (x, out) := (s.ten t).filter m.epoch m.seq
      match out with
      | .stale => s.count (evT t 0x110)
      | .dup => (s.modTen t fun _ => x).count (evT t 0x10C)
      | .first newer =>
        let s1 := if newer then s.voidOlder t m else s
        let s2 := s1.modTen t fun y => { y with epoch := x.epoch, hseq := x.hseq, seen := x.seen }
        if m.kind = .void && !newer then s2.count (evT t 0x110)
        else act t (s2.modTen t fun y => { y with named := some m.step })

/-- R102: an acknowledgement. -/
def State.ackArm (s : State) (m : Ctl) (code : Code) : State :=
  s.sendCtl { kind := .ack, domain := m.domain, epoch := m.epoch, seq := m.seq, step := m.step, slot := m.slot,
              status := code }

/-- R102: the OT of W. -/
def windowStart (m : Ctl) : OT := otAdd m.due (-((m.window : Int) * 65536))

/-- R102, R105: the code with which an ARM is refused once its slot accepts it. -/
def State.armCode (s : State) (m : Ctl) (bell : Bool) : Option Code :=
  let u := s.bx.c.time
  let w := windowStart m
  match u.dueCode m.due with
  | some c => some c
  | none => match u.dueCode w with
    | some c => some c
    | none =>
      if bell && !m.cancel && (m.period < 655360000 || 65536000000000 < m.period) then some 0x2008
      else if 0 ≤ Raw.diff u.raw (u.mkDue w).raw then some 0x2002
      else none

/-- R102, R105: an ARM at its slot. -/
def State.armSlot (s : State) (m : Ctl) (t : Nat) : State :=
  let u := s.bx.c.time
  let e := s.slot t m.slot
  let d := u.mkDue m.due
  let w := u.mkDue (windowStart m)
  if s.llCount t ≤ m.slot then s.ackArm m 0x2003
  else if e.state = .loaded || e.state = .fired then
    match s.armCode m e.tmpl.bell with
    | some c => s.ackArm m c
    | none =>
      (s.modSlot t m.slot fun e =>
        { e with state := .armed, due := m.due, step := m.step, epoch := m.epoch, seq := m.seq, period := m.period,
                 bellCount := m.bellCount, dueD := some d, wD := some w, bellK := 0, change := none,
                 presented := false, accepted := none, held := false, late := false, steer := none }).ackArm m 0
  else if e.state = .bellRun && m.bell then
    match s.armCode m true with
    | some c => s.ackArm m c
    | none =>
      (s.modSlot t m.slot fun e =>
        { e with change := some ⟨m.cancel, d, w, m.period, m.bellCount, m.epoch, m.step, m.seq, false⟩ }).ackArm m 0
  else s.ackArm m 0x2003

/-- R169: a pending program is the program loaded from the first arm of its steps on, and its local objects take their INIT
then (DEDUCED, log 53). -/
def State.switchObjs (s : State) (t step : Nat) : State :=
  let x := s.ten t
  if x.pendFirst.all (step < ·) then s
  else (x.pendObjs.foldl (fun (s : State) (d : ObjDecl) => s.putObj t d) s).modTen t fun y =>
    { y with stepFirst := x.pendFirst, pendFirst := none, pendObjs := [] }

/-- BX_ARM_RX (R92, R93, R102, R169). -/
def execBxArmRx (port : Nat) (_rx : EdgeStamp) (m : Ctl) (s : State) : Answer :=
  if port < 8 && m.kind = .arm then .next (s.onBroadcast m fun t s => (s.switchObjs t m.step).armSlot m t) else .next s

/-- R104: the grid instants from a void up to a replay's DUE. -/
def gridCount (grid : Option (OT × Nat)) (due : OT) : Nat :=
  match grid with
  | some (g, per) => if per = 0 then 0 else (ceilDiv (otDiff due g) per).toNat
  | none => 0

/-- R102, R105: a TAMP whose lane marker was stamped `raw` at its slot. -/
def State.tampSlot (s : State) (m : Ctl) (raw : Raw) (t : Nat) : State :=
  let e := s.slot t m.slot
  if s.llCount t ≤ m.slot then s.count (evT t 0x118)
  else match e.state, e.wD, e.change with
  | .armed, some w, _ =>
    if (e.epoch, e.step) ≠ (m.epoch, m.step) then s.count (evT t 0x118)
    else if 0 ≤ Raw.diff raw w.raw then s.count (evT t 0x114)
    else
      let skipped := gridCount e.voidGrid e.due
      let s1 := (s.sample .baxel 0xF0104 (Raw.diff w.raw raw) (ten := some t)).modSlot t m.slot fun e =>
        { e with state := if e.tmpl.bell then .bellRun else .tamped, voidGrid := none }
      if skipped = 0 then s1 else s1.count (evT t 0x11C) skipped
  | .bellRun, _, some c =>
    if c.tamped || (c.epoch, c.step) ≠ (m.epoch, m.step) then s.count (evT t 0x118)
    else if 0 ≤ Raw.diff raw c.w.raw then s.count (evT t 0x114)
    else s.modSlot t m.slot fun e => { e with change := some { c with tamped := true } }
  | _, _, _ => s.count (evT t 0x118)

/-- BX_TAMP_RX (R92, R93, R102): the lane marker's stamp stands for the tamp's arrival. -/
def execBxTampRx (port : Nat) (rx : EdgeStamp) (m : Ctl) (s : State) : Answer :=
  let raw := (s.tdc .baxel (tdcRx .baxel port)).stamp rx
  if port < 8 && m.kind = .tamp then .next (s.onBroadcast m fun t s => s.tampSlot m raw t) else .next s

/-- BX_VOID_RX (R93, R103): a VOID acts through void_older alone. -/
def execBxVoidRx (port : Nat) (m : Ctl) (s : State) : Answer :=
  if port < 8 && m.kind = .void then .next (s.onBroadcast m fun _ s => s) else .next s

/-- R102: whether the cycle edge for the orphan test of a W has come. -/
def orphanDue (now : Raw) (w : Due) : Bool := 0 ≤ Raw.diff now (w.raw + BitVec.ofNat 64 (120 * 65536))

/-- ORPHAN_TEST (R102, R105): at the first cycle edge at or after W + 120 ns, an armed slot without its tamp, or an
armed change of a series, orphans. -/
def execOrphanTest (t : Nat) (slot : Nat) (s : State) : Answer :=
  let e := s.slot t slot
  let now := s.raw .baxel
  match e.state, e.wD, e.change with
  | .armed, some w, _ =>
    if orphanDue now w then
      .next (((s.slotVoid t slot).count (evT t 0x108)).sendCtl (slotCtl .orphan (s.ten t) slot e 0x2004))
    else .next s
  | .bellRun, _, some c =>
    if orphanDue now c.w && !c.tamped then
      .next (((s.modSlot t slot fun e => { e with change := none }).count (evT t 0x108)).sendCtl
        (slotCtl .orphan (s.ten t) slot { e with epoch := c.epoch, step := c.step, seq := c.seq } 0x2004))
    else .next s
  | _, _, _ => .next s

/-! ### The launch port -/

/-- R111: the grains past `due` of the first steer edge at or after it. -/
def steerWait (m n : Nat) (due : OT) : Nat :=
  let g := due.ns.toNat * 65536 + due.gr.toNat
  let k := if g = 0 then 0 else (g - 1) * m / (65536 * n) + 1
  (k * 65536 * n + m - 1) / m - g

/-- R111: the raw value of the first steer edge at or after an OT. -/
def steerEdge (u : TimeUnit) (mn : Nat × Nat) (due : OT) : Raw :=
  (u.mkDue (otAdd due (steerWait mn.1 mn.2 due))).raw

/-- R111, R416: the launch edge of a slot. -/
def State.launchEdge (s : State) (e : Slot) (d : Due) : Raw :=
  let mode := if e.accepted.isSome then e.steer else s.steer
  match mode with
  | none => d.raw
  | some mn => steerEdge s.bx.c.time mn d.ot

/-- R110, R416: the launch descriptor of a slot. -/
def State.lpDesc (s : State) (t i : Nat) (e : Slot) (late : Bool) : LpDesc :=
  { kernel := e.tmpl.kernel, step := e.step, epoch := e.epoch, slot := i, shadow := e.tmpl.shadow, late := late,
    rowsFed := if e.tmpl.shadow then s.rowAllow t else e.tmpl.rowMask, rowsKept := e.tmpl.rowMask }

/-- Whether a slot is waiting to fire: TAMPED, or a series with its next bell. -/
def Slot.toFire (e : Slot) : Bool := (e.state = .tamped || e.state = .bellRun) && !e.held

/-- LAUNCH_DESCRIPTOR_PRESENT (R415): within 256 ns of its raw due, the next slot's descriptor is presented. -/
def execLaunchDescriptorPresent (t : Nat) (slot : Nat) (s : State) : Answer :=
  let e := s.slot t slot
  let others := (s.slotsOf t).filter fun (j, x) => j ≠ slot && (x.toFire || x.held || x.state = .waiting)
  match e.dueD with
  | none => .next s
  | some d =>
    if !e.toFire || e.presented || s.bx.fenced || (s.ten t).faulted then .next s
    else if 256 * 65536 < Raw.diff d.raw (s.raw .baxel) then .next s
    else if others.any fun (j, x) => (x.presented && x.accepted.isNone) || (x.toFire && !x.presented &&
        (x.dueD.any fun y => Raw.diff y.raw d.raw < 0 || (y.raw = d.raw && j < slot))) then .next s
    else .next ((s.modSlot t slot fun e => { e with presented := true }).emit (.lpValid t (s.lpDesc t slot e e.late)))

/-- R38: the next cycle edge at or after a raw value. -/
def edgeAfter (r : Raw) : Raw := fireEdge (r + 65535)

/-- R415: the edge for a descriptor accepted less than 8 ns before its launch edge: the first cycle edge, or steer edge,
at least 3 ns after the acceptance. -/
def State.acceptEdge (s : State) (e : Slot) (acc : Raw) : Raw :=
  let r := acc + BitVec.ofNat 64 (3 * 65536)
  match e.steer with
  | none => edgeAfter r
  | some mn => steerEdge s.bx.c.time mn (s.bx.c.time.ot r)

/-- R416: the raw value at which LP_GO toggles for a launch edge: half a steer period before a steered one. -/
def goEdge (steer : Option (Nat × Nat)) (edge : Raw) : Raw :=
  match steer with
  | none => edge
  | some (m, n) => edge - BitVec.ofNat 64 (65536 * n / (2 * m))

/-- R113: the fire record of a tenant. -/
def State.fireRecord (s : State) (t i : Nat) (e : Slot) (edge : Raw) (late : Bool) : State :=
  let st := BitVec.ofNat 64 e.step
  let s1 := (s.wr64 .baxel (tPage t 0x80) st).wr .baxel (tPage t 0x88) (BitVec.ofNat 32 e.epoch)
  let s2 := s1.wr .baxel (tPage t 0x8C) (BitVec.ofNat 32 (i % 1024 + if late then 1024 else 0))
  let s3 := s2.wr64 .baxel (tPage t 0x90) edge
  s3.wr .baxel (tPage t 0x98) (s3.rd .baxel (tPage t 0x98) + 1)

/-- R110, R113, R415: a fire at a launch edge: LP_GO toggles, the record is written, a one-shot is FIRED and a series
goes on. -/
def State.fireAt (s : State) (t i : Nat) (edge : Raw) (late : Bool) : State :=
  let e := s.slot t i
  let level := !(s.ten t).lpGo
  let s1 := ((s.fireRecord t i e edge late).count (evT t 0x100)).emit (.lpGo t (goEdge e.steer edge) level)
  let s2 := s1.modTen t fun x => { x with lpGo := level, lastFire := some (fireEdge edge), firedStep := some e.step }
  s2.modSlot t i fun e =>
    if e.tmpl.bell then e.bellNext s.bx.c.time
    else { e with state := .fired, presented := false, accepted := none, held := false, late := false, dueD := none,
                  wD := none }

/-- R110, R415: a slot's fire has come, with the edge at which it would stand: at once when its descriptor has been
accepted, else held until it is. It counts as held by the channel, and carries LATE, once no acceptance can come in time
for that edge: a steered launch edge may lie further ahead. -/
def State.fireSlot (s : State) (t i : Nat) (edge : Raw) (late : Bool) : State :=
  let e := s.slot t i
  match e.accepted with
  | some acc =>
    let alt := s.acceptEdge e acc
    if 8 * 65536 ≤ Raw.diff edge acc || Raw.diff alt edge ≤ 0 then s.fireAt t i edge late
    else ((s.count (evT t 0x128)).emit (.lpValid t (s.lpDesc t i e true))).fireAt t i alt true
  | none =>
    let others := (s.slotsOf t).any fun (j, x) => j ≠ i && x.presented && x.accepted.isNone
    let now := s.raw .baxel
    let tooLate : Bool := Raw.diff now edge + 8 * 65536 > 0 && 0 < Raw.diff (s.acceptEdge { e with steer := s.steer } now) edge
    let s1 := (if tooLate || late then s.count (evT t 0x128) else s).modSlot t i fun e =>
      { e with held := true, late := tooLate || late, presented := !others, state := if e.tmpl.bell then .bellRun else .tamped }
    if others || (e.presented && !(tooLate || late)) then s1 else s1.emit (.lpValid t (s.lpDesc t i e (tooLate || late)))

/-- R110: a tenant's fires stand in different cycles: an edge, or the cycle after its last fire when that is later. -/
def State.afterLast (s : State) (t : Nat) (edge : Raw) : Raw :=
  match (s.ten t).lastFire with
  | some r => if 0 ≤ Raw.diff r (fireEdge edge) then r + 65536 else edge
  | none => edge

/-- LP_ACCEPT (R415): the integrator accepts the descriptor a tenant's channel presents. A fire held until then stands at
its launch edge, or later with LATE. -/
def execLpAccept (t : Nat) (s : State) : Answer :=
  match (s.slotsOf t).find? fun (_, e) => e.presented && e.accepted.isNone with
  | none => .next s
  | some (i, _) =>
    let now := s.raw .baxel
    let s1 := s.modSlot t i fun e => { e with accepted := some now, steer := s.steer }
    let e1 := s1.slot t i
    if e1.held then
      let alt := s1.afterLast t (s1.acceptEdge e1 now)
      let l := match e1.dueD with
        | some d => s1.launchEdge e1 d
        | none => alt
      let s2 := if e1.late then s1.fireAt t i (if Raw.diff alt l < 0 then l else alt) true else s1.fireSlot t i l false
      -- a fire held behind this one is presented now
      match (s2.slotsOf t).find? fun (_, x) => x.held && !x.presented with
      | some (j, x) => .next ((s2.modSlot t j fun y => { y with presented := true }).emit (.lpValid t (s2.lpDesc t j x true)))
      | none => .next s2
    else .next s1

/-! ### Firing -/

/-- R109: whether a take on one of a slot's gates is refused under R126. -/
def State.gateRefused (s : State) (t : Nat) (gates : List (Nat × Nat)) : Bool :=
  (s.ten t).faulted || gates.any fun (o, n) => n = 0 || s.objCount t ≤ o || (s.obj .baxel (s.objBase t + o)).poison

/-- R108: whether the combined take of slot i can complete: every gate object holds its counts, and no waiter stands
before the take. -/
def State.gateReady (s : State) (t i : Nat) (gates : List (Nat × Nat)) : Bool :=
  gates.all fun (o, _) =>
    let x := s.obj .baxel (s.objBase t + o)
    let need := ((gates.filter (·.1 = o)).map (·.2)).foldl (· + ·) 0
    need ≤ x.value && (match x.waiters with
      | [] => true
      | w :: _ => w.isGate t i)

/-- R108: every count subtracted at once; waiters behind the take may be served then (R123). -/
def State.gateTake (s : State) (t i : Nat) (gates : List (Nat × Nat)) : State :=
  let s1 := gates.foldl (fun s (o, n) => s.modObj .baxel (s.objBase t + o) fun x => { x with value := x.value - n }) s
  let s2 := (s1.dropGate t i).count (evT t 0x234) gates.length
  gates.foldl (fun s (o, _) => s.serveObj .baxel (s.objBase t + o)) s2

/-- R108, R109: the fire of a slot whose cycle has come: through its gates where it has any. -/
def State.fireGated (s : State) (t i : Nat) (edge : Raw) (late : Bool) : State :=
  let e := s.slot t i
  let gates := slotGates e.tmpl
  if gates.isEmpty then s.fireSlot t i edge late
  else if s.gateRefused t gates then s.gateMiss t i
  else if s.gateReady t i gates then (s.gateTake t i gates).fireSlot t i edge late
  else if e.tmpl.gateWait = 0 || !s.waitRoom t gates.length then s.gateMiss t i
  else
    let s1 := gates.foldl (fun s (o, n) =>
      s.joinWait .baxel (s.objBase t + o) ⟨.gate i, 0, t, n, s.raw .baxel, 0⟩) s
    s1.modSlot t i fun e => { e with state := .waiting }

/-- R110: the cycle in which a slot fires: its fire cycle, or the next after the tenant's last fire. -/
def State.fireCycle (s : State) (t : Nat) (d : Due) : Raw × Bool :=
  let f := fireEdge d.raw
  match (s.ten t).lastFire with
  | some r => if 0 ≤ Raw.diff r f then (r + 65536, true) else (f, false)
  | none => (f, false)

/-- R110: whether another slot of the tenant fires before slot i: an earlier fire cycle, or the same with a lower
index. -/
def State.firesBefore (s : State) (t i : Nat) (d : Due) : Bool :=
  (s.slotsOf t).any fun (j, x) => j ≠ i && x.toFire && x.dueD.any fun y =>
    Raw.diff (fireEdge y.raw) (fireEdge d.raw) < 0 || (fireEdge y.raw = fireEdge d.raw && j < i)

/-- The common guard of a fire: the slot's cycle has come and no other slot of the tenant stands before it. -/
def State.fireDue (s : State) (t i : Nat) (d : Due) : Bool :=
  !s.bx.fenced && 0 ≤ Raw.diff (s.raw .baxel) (s.fireCycle t d).1 && !s.firesBefore t i d

/-- FIRE_CYCLE (R38, R102, R108, R110): a tamped slot's fire cycle. -/
def execFireCycle (t : Nat) (slot : Nat) (s : State) : Answer :=
  let e := s.slot t slot
  match e.state, e.dueD with
  | .tamped, some d =>
    if e.held || !s.fireDue t slot d then .next s
    else
      let (cyc, late) := s.fireCycle t d
      .next (s.fireGated t slot (if late then cyc else s.launchEdge e d) late)
  | _, _ => .next s

/-- GATE_TAKE_LATE (R108): the combined take of a waiting slot completes after its fire cycle, or is refused (R109);
the launch fires at the next cycle edge without fine delay. -/
def execGateTakeLate (t : Nat) (slot : Nat) (s : State) : Answer :=
  let e := s.slot t slot
  let gates := slotGates e.tmpl
  if e.state ≠ .waiting then .next s
  else if s.gateRefused t gates then .next (s.gateMiss t slot)
  else if s.gateReady t slot gates then
    .next (((s.gateTake t slot gates).count (evT t 0x120)).fireSlot t slot (s.afterLast t (fireEdge (s.raw .baxel) + 65536)) true)
  else .next s

/-- GATE_WAIT_EXPIRY (R109): GATE_WAIT µs after DUE a slot still waits. -/
def execGateWaitExpiry (t : Nat) (slot : Nat) (s : State) : Answer :=
  let e := s.slot t slot
  match e.state, e.dueD with
  | .waiting, some d =>
    if (e.tmpl.gateWait : Int) * 65536000 ≤ Raw.diff (s.raw .baxel) d.raw then .next (s.gateMiss t slot) else .next s
  | _, _ => .next s

/-- R105: a tamped change acts at its AT: a cancel ends the series before the bell; a new period makes AT its B0. -/
def State.applyChange (s : State) (t i : Nat) : State × Bool :=
  let e := s.slot t i
  match e.change, e.dueD with
  | some c, some d =>
    if c.tamped && 0 ≤ otDiff d.ot c.at'.ot then
      if c.cancel then
        ((s.withdrawLp t i e).modSlot t i fun e =>
          { e with state := .loaded, change := none, dueD := none, wD := none, presented := false, accepted := none,
                   held := false }, true)
      else
        (s.modSlot t i fun e =>
          { e with change := none, due := c.at'.ot, period := c.period, bellCount := c.count, bellK := 0 }, false)
    else (s, false)
  | _, _ => (s, false)

/-- BELL_FIRE (R24, R104, R105): the next bell of a running series falls due: it fires, or is skipped while the tenant is
faulted. -/
def execBellFire (t : Nat) (slot : Nat) (s : State) : Answer :=
  let e := s.slot t slot
  match e.state, e.dueD with
  | .bellRun, some d =>
    if e.held || !s.fireDue t slot d then .next s
    else
      let (s1, ended) := s.applyChange t slot
      if ended then .next s1
      else if (s1.ten t).faulted then
        .next (((s1.withdrawLp t slot e).modSlot t slot fun e => e.bellNext s.bx.c.time).count (evT t 0x11C))
      else
        let (cyc, late) := s1.fireCycle t d
        .next (s1.fireGated t slot (if late then cyc else s1.launchEdge (s1.slot t slot) d) late)
  | _, _ => .next s

/-! ### Faults, fences, steering -/

/-- LP_ERR_INPUT (R114). -/
def execLpErrInput (t : Nat) (s : State) : Answer := if t < 4 then .next (s.tenantFault t 0x2017) else .next s

/-- Whether a fence notice names this Baxel and is newer than the last that acted (log 15). -/
def State.fenceNews (s : State) (n : FenceNotice) : Bool :=
  n.subject = s.node .baxel && (match s.bx.fenceSeq with
    | some q => q < n.fenceSeq
    | none => true)

/-- R116: every slot armed, tamped, waiting or running a bell becomes VOID. -/
def State.voidUnfired (s : State) : State :=
  (List.range 4).foldl (fun s t => (s.slotsOf t).foldl (fun s (i, e) =>
    match e.state with
    | .armed => (s.slotVoid t i).count (evT t 0x104)
    | .tamped => (s.slotVoid t i).count (evT t 0x104)
    | .waiting => (s.slotVoid t i).count (evT t 0x104)
    | .bellRun => (s.slotVoid t i).count (evT t 0x104)
    | _ => s) s) s

/-- BX_FENCE_NOTICE (R116). -/
def execBxFenceNotice (n : FenceNotice) (s : State) : Answer :=
  if n.clear || !s.fenceNews n then .next s
  else
    .next (s.modBx fun b => { b with fenced := true, fenceSeq := some n.fenceSeq }).voidUnfired

/-- R115, R116: the VOID slots of a tenant return to LOADED. -/
def State.reloadVoids (s : State) (t : Nat) : State :=
  (s.slotsOf t).foldl (fun s (i, e) =>
    if e.state = .void then s.modSlot t i fun e => { e with state := .loaded } else s) s

/-- BX_FENCE_LIFT (R116). -/
def execBxFenceLift (n : FenceNotice) (s : State) : Answer :=
  if !n.clear || !s.fenceNews n then .next s
  else
    let s1 := s.modBx fun b => { b with fenced := false, fenceSeq := some n.fenceSeq }
    .next ((List.range 4).foldl (fun s t => if (s.ten t).faulted then s else s.reloadVoids t) s1)

/-- R111: whether a steer setting is legal: M and N within 1 to 64, M at most N, a whole count per second. -/
def steerOk (m n : Nat) : Bool := 1 ≤ m && m ≤ 64 && 1 ≤ n && n ≤ 64 && m ≤ n && 1000000000 * m % n = 0

/-- STEER_CFG_WRITE (R111, R418). M and N of 6 bits code 64 as 0. -/
def execSteerCfgWrite (w : Word) (s : State) : Answer :=
  let dec (x : Nat) : Nat := if x = 0 then 64 else x
  if steerOk (dec (w.get 1 6)) (dec (w.get 7 6)) then
    .next ((s.wr .baxel 0x0430 (w.put 13 19 0)).setFld .baxel 0x0434 0 16 0).driveSteer
  else .next (s.setFld .baxel 0x0434 0 16 0x200E)

end Sys2Proof.Machine
end

