-- ==== Sys2Proof/Machine/RegWrite.lean ====
section
/-! DEFINITION. A write of a register (R371, R394 to R398): what each view may write, and what each word does. A word whose
write is a command of its own does what that command does. -/

namespace Sys2Proof.Machine

/-- The state a command answers; the state as it was where it answers none. -/
def Answer.orElse (a : Answer) (s : State) : State :=
  match a with
  | .next t => t
  | _ => s

/-- The bits of a mask that a written 1 clears. -/
def State.w1c (s : State) (p : Part) (a mask : Nat) (w : Word) : State :=
  s.wr p a (s.rd p a &&& ~~~(w &&& BitVec.ofNat 32 mask))

/-- A word stored in the low bits a register has. -/
def State.put (s : State) (p : Part) (a bits : Nat) (w : Word) : State := s.wr p a (BitVec.ofNat 32 (w.get 0 bits))

/-! ### Blocks both parts hold -/

/-- R88: a write to the stamp blocks; `r` is the offset from 0x6000. -/
def State.stampWrite (s : State) (p : Part) (v : View) (r : Nat) (w : Word) : State :=
  let a := tAddr p (0x6000 + r)
  if r < 0x100 * chanCount p then
    let ch := r / 0x100
    let o := r % 0x100
    if o = 0x18 then (execStampPop p v ch (w.get 0 10) s).orElse s
    else if !s.ownsChan p v ch then (s.setBit p (chAddr p ch 0x04) 18 true).viewRefused p v a
    else if o = 0x50 then s.wr p a w
    else match v with
      | .tenant _ => (s.setBit p (chAddr p ch 0x04) 18 true).viewRefused p v a
      | _ =>
        if o = 0x00 then (execStampChannelCfgWrite p ch w s).orElse s
        else if o = 0x04 then s.w1c p a 0x70000 w
        else if o = 0x40 then (if w.toNat % 32 = 0 then s.wr p a w else s.emit (.refused p 0x1015))
        else if o = 0x44 then s.wr p a w
        else if o = 0x48 then (if ringOk 0 w.toNat then s.wr p a w else s.emit (.refused p 0x1015))
        else s
  else match v with
    | .tenant _ => s.viewRefused p v a
    | _ =>
      if 0x800 ≤ r && r < 0x800 + 0x40 * groupCount p then
        let g := (r - 0x800) / 0x40
        let o := r % 0x40
        if o = 0x00 then
          let s1 := s.wr p a (overlaid (s.rd p a) [(w.get 0 3, 0, 3), (w.get 4 1, 4, 1)])
          let s2 := (execSwOpen p g (w.get 3 1 = 1) s1).orElse s1
          if w.get 5 1 = 1 then (execArmWin p g s2).orElse s2 else s2
        else if o ≤ 0x18 then s.wr p a w
        else s
      else if 0x900 ≤ r && r < 0x900 + 0x80 * groupCount p then
        let g := (r - 0x900) / 0x80
        let o := r % 0x80
        if o = 0x00 then
          let s1 := s.wr p a (overlaid (s.rd p a) [(w.get 0 3, 0, 3)])
          if w.get 3 1 = 1 then (execFreqArm p g s1).orElse s1 else s1
        else if o = 0x04 || o = 0x08 then s.wr p a w
        else if o = 0x0C then (if 3 ≤ w.get 0 17 && w.get 0 17 ≤ 65536 then s.put p a 17 w else s)
        else if o = 0x14 then s.w1c p a 0x40 w
        else if o = 0x38 then (execFreqRetire p g w s).orElse s
        else s
      else if r = 0xA00 then (s.w1c p a 0x100 w).setFld p a 9 1 (w.get 9 1)
      else if r = 0xA08 then (execTxqPop p (w.get 0 7) s).orElse s
      else if r = 0xB00 then
        let s1 :=
          if 1 ≤ w.get 16 16 && w.get 16 16 ≤ 600 then s.wr p a (w &&& (0xFFFFFF01 : Word)) else s.emit (.refused p 0x1019)
        if w.get 1 1 = 1 then (execCalStartWrite p s1).orElse s1 else s1
      else if r = 0xB04 then s.put p a 10 w
      else s

/-- R309: a write to the gate block of port n; with ENABLE set anew the packets queued meet the test of R300 (log 159). -/
def State.gateWrite (s : State) (p : Part) (n off : Nat) (w : Word) : State :=
  let a := gtBlock p n off
  let sel := s.fld p (gtBlock p n 8) 0 8
  let active := s.bit p (gtBlock p n 8) 8
  let entry (f : Nat × Nat → Nat × Nat) : State :=
    if active then s else s.modGp p n fun g => { g with pend := FMap.update g.pend sel (3, 0) f }
  if off = 0x00 then
    let on : Bool := w.get 0 1 = 1
    let s0 := s.setBit p a 0 on
    let s1 := match (s.gp p n).active with
      | some l => if on && !s.bit p a 0 then s0.retest p n l else s0
      | none => s0
    let s2 := if w.get 1 1 = 1 then (execGateListCommit p n s1).orElse s1 else s1
    if w.get 2 1 = 1 then (execGateListCancel p n s2).orElse s2 else s2
  else if off = 0x04 then s.setFld p a 0 9 (w.get 0 9)
  else if off = 0x08 then s.put p a 9 w
  else if off = 0x0C then entry fun e => (w.get 0 8, e.2)
  else if off = 0x10 then entry fun e => (e.1, w.toNat)
  else if 0x14 ≤ off && off ≤ 0x28 then s.wr p a w
  else if off = 0x40 then (execOverheadWrite p n w s).orElse s
  else if off = 0x50 then (execShaperCfgWrite p n false w s).orElse s
  else if off = 0x54 then (execShaperCfgWrite p n true w s).orElse s
  else if off = 0x70 then (execQsampleCfgWrite p n false w s).orElse s
  else if off = 0x74 then (execQsampleCfgWrite p n true w s).orElse s
  else if off = 0x7C then
    let c := s.fld p (gtBlock p n 0x50) 0 3
    if w.get 1 1 = 1 then s.modGp p n fun g =>
      { g with results := FMap.update g.results c {} fun q => { q with mismatch := false } } else s
  else if off = 0x98 then (execQsampleRetire p n w s).orElse s
  else s

/-- R380, R401: a write to the slots or control words of a mailbox; `off` counts from the command slots on, control words
from 0x800. -/
def State.mboxWrite (s : State) (p : Part) (v : View) (m off : Nat) (w : Word) (a : Nat) : State :=
  if !ringsMbox p v m then s.mboxRefused p v a
  else if off < 0x400 then
    let k := off / 0x40
    let x := s.mslot p m k
    if x.locked then s.setBit p (mbAddr p m 8) 16 true
    else s.modMslot p m k fun y =>
      { y with bytes := y.slot64.take (off % 0x40) ++ leBytes 4 w.toNat ++ y.slot64.drop (off % 0x40 + 4) }
  else if off = 0x800 then (execMboxDoorbell p v m w s).orElse s
  else if off = 0x804 then (execMboxRetire p v m w s).orElse s
  else if off = 0x808 then s.w1c p (mbAddr p m 8) 0x70000 w
  else if off = 0x814 then s.put p (mbAddr p m 0x14) 1 w
  else s

/-- R369, R370: a write to the counter banks of a part. -/
def State.bankWrite (s : State) (p : Part) (v : View) (a : Nat) (w : Word) : State :=
  match ctrBankAt p v a with
  | none => s
  | some (_, off) => if off = 0 then s.ctrControl p v a w else (execCtrCfgWrite p v a w s).orElse s

/-- R364, R369, R370: a write to the tag and snapshot blocks. -/
def State.tagRegWrite (s : State) (p : Part) (v : View) (a : Nat) (w : Word) : State :=
  let base := tagAddr p
  let mism := s.snapStoreKey p v
  let ctl := match p with
    | .baxel => 0x8400
    | .kresia => 0x1D3004
  let bit := match p with
    | .baxel => 3
    | .kresia => 5
  let pop := match p with
    | .baxel => w.get 0 7
    | .kresia => w.get 0 11
  if a = base || a = base + 4 || a = base + 8 then (execTagCfgWrite p a w s).orElse s
  else if a = base + 0x14 then (execTagPop p pop s).orElse s
  else if a = ctl then
    if w.get bit 1 = 1 then s.modCtr p fun u => { u with stores := FMap.update u.stores mism {} fun x => { x with mismatch := false } }
    else s
  else if a = ctl + 4 then (execSnapRetire p v w s).orElse s
  else if p = .kresia && a = 0x1D3000 then s.put p a 16 w
  else s

/-- R145: the writable words of an object window. -/
def State.objWindowWrite (s : State) (p : Part) (o off idx : Nat) (priv : Bool) (w : Word) : State :=
  if off = 0x24 then s.put p idx 11 w
  else if !priv then s
  else if off = 0x04 then s.modObj p o fun x => { x with replay := w.get 12 1 = 1 }
  else if off = 0x08 then s.modObj p o fun x => { x with init := w.get 0 31 }
  else s

/-! ### Baxel -/

/-- R129: an operation written to OBJ_OP. -/
def State.objOpWrite (s : State) (t : Nat) (priv : Bool) (w : Word) : State :=
  let r : ObjReq := .view t priv (w.get 0 12) (w.get 16 16)
  let op := w.get 12 3
  if op = 0 then (execObjPeek r s).orElse s
  else if op = 1 then (execObjSignal r s).orElse s
  else if op = 2 then (execObjTake r s).orElse s
  else if op = 3 then (execObjDec r s).orElse s
  else if op = 4 then (execObjSet r s).orElse s
  else if op = 5 then (execObjCancel r s).orElse s
  else (s.bumpOpSeq r).refuse r 0x3004

/-- R118, R144, R224, R269: a write to the page of tenant t. -/
def State.pageWrite (s : State) (t off : Nat) (priv : Bool) (w : Word) : State :=
  let a := tPage t off
  if off = 0x000 then s.w1c .baxel a 4 w
  else if off = 0x00C then s.wr .baxel a w
  else if off = 0x010 then (execArrive t (w.get 0 16 * 2 ^ 32 + (s.rd .baxel (tPage t 0x0C)).toNat) s).orElse s
  else if off = 0x014 then s.put .baxel a 10 w
  else if off = 0x200 then s.put .baxel a 31 w
  else if off = 0x204 then s.objOpWrite t priv w
  else if off = 0x208 then s.put .baxel a 16 w
  else if off = 0x218 then (execTcqPop t (w.get 0 5) s).orElse s
  else if off = 0x24C then s.put .baxel a 12 w
  else if off = 0x2A4 then s.put .baxel a 11 w
  else if off = 0x300 then s.put .baxel a 12 w
  else if off = 0x304 || off = 0x308 then s.put .baxel a 24 w
  else if off = 0x30C || off = 0x310 || off = 0x314 || off = 0x380 then s.wr .baxel a w
  else if off = 0x384 then s.put .baxel a 17 w
  else if off = 0x318 then (if w.get 0 1 = 1 then (execCpGo t s).orElse s else s)
  else if off = 0x388 then
    let s1 := if w.get 0 1 = 1 then (execDpGo t s).orElse s else s
    if w.get 1 1 = 1 then (execDpRetGo t s1).orElse s1 else s1
  else s

/-- R42, R65: the words no port writes, in the Baxel layout: the parameter-set block, but for its W1C word, ASYM and REJECT. -/
def coreOnly (a : Nat) : Bool :=
  (0x100 ≤ a && a < 0x148 && a ≠ 0x128) || (0x200 ≤ a && a < 0x300 && a % 32 = 8) || a = 0x300

/-- R42, R55, R65: what the core's write of such a word does; its read-only words take none. -/
def State.coreWrite (s : State) (p : Part) (a : Nat) (w : Word) : State :=
  if a = tAddr p 0x124 then (if w.get 0 1 = 1 then (execTsCommit p s).orElse s else s)
  else if a = tAddr p 0x300 then s.put p a 24 w
  else if ttPort p 0 0 ≤ a && a < ttPort p (portCount p) 0 then s.writeAsym p ((a - ttPort p 0 0) / 32) w.toInt
  else if tAddr p 0x128 < a then s
  else s.wr p a w

/-- A write by the privileged view or the core to the part of the register port that no tenant writes (R397). -/
def State.bxPrivWrite (s : State) (v : View) (a : Nat) (w : Word) : State :=
  if a = 0x10 || a = 0x14 then s.wr .baxel a w
  else if a = 0x18 then (execBootGo v w s).orElse s
  else if a = 0x20 then s.w1c .baxel a 7 w
  else if coreOnly a then (if v = .core then s.coreWrite .baxel a w else s.stickyTime .baxel 0x128 16)
  else if a = 0x128 then s.w1c .baxel a 0x10000 w
  else if a = 0x30C then s.w1c .baxel a 0x1F w
  else if 0x400 ≤ a && a < 0x410 then (execLlPartWrite ((a - 0x400) / 4) w s).orElse s
  else if 0x410 ≤ a && a < 0x430 then (execRowAllowWrite ((a - 0x410) / 8) (a % 8 = 4) w s).orElse s
  else if a = 0x430 then (execSteerCfgWrite w s).orElse s
  else if 0x500 ≤ a && a < 0x510 then (execObjPartWrite ((a - 0x500) / 4) w s).orElse s
  else if 0x510 ≤ a && a < 0x520 then (execWfloorWrite ((a - 0x510) / 4) w s).orElse s
  else if 0x520 ≤ a && a < 0x530 then (execRsigPartWrite ((a - 0x520) / 4) w s).orElse s
  else if a = 0x530 then s.put .baxel a 12 w
  else if a = 0x534 then (if 1 ≤ w.toNat && w.toNat ≤ 1000 then s.wr .baxel a w else s)
  else if 0x540 ≤ a && a < 0x574 then s.objWindowWrite .baxel (s.fld .baxel 0x530 0 12) (a - 0x540) 0x564 true w
  else if a = 0xA00 then (if w.get 0 1 = 1 then (execLedgerSnap .baxel s).orElse s else s)
  else if 0xB00 ≤ a && a < 0x1000 then s.gateWrite .baxel ((a - 0xB00) / 0xA0) ((a - 0xB00) % 0xA0) w
  else s

/-- R395, R397: a write of the register port by a view. -/
def State.bxWrite' (s : State) (v : View) (a : Nat) (w : Word) : State :=
  let reach := match v with
    | .tenant t => s.tenantReaches t a || (0x6000 ≤ a && a < 0x6400)
    | .badTag => false
    | _ => true
  if !reach then s.viewRefused .baxel v a
  else if 0x1000 ≤ a && a < 0x5000 then s.pageWrite (a / 0x1000 - 1) (a % 0x1000) (match v with
    | .tenant _ => false
    | _ => true) w
  else if 0x6000 ≤ a && a < 0x6C00 then s.stampWrite .baxel v (a - 0x6000) w
  else if 0x8000 ≤ a && a < 0x8200 || 0x8800 ≤ a && a < 0x9000 then s.bankWrite .baxel v a w
  else if 0x8200 ≤ a && a < 0x8600 then s.tagRegWrite .baxel v a w
  else if 0x9000 ≤ a && a < 0xB800 then s.mboxWrite .baxel v ((a - 0x9000) / 0x800) ((a - 0x9000) % 0x800) w a
  else if 0xB800 ≤ a && a < 0xB940 then s.mboxWrite .baxel v ((a - 0xB800) / 0x40) (0x800 + a % 0x40) w a
  else match v with
    | .tenant _ => s
    | _ => s.bxPrivWrite v a w

/-! ### Kresia -/

/-- R336: a write of FENCE_SEL latches the fence state of the subject. -/
def State.fenceSelWrite (s : State) (w : Word) : State :=
  let n := w.get 0 21
  let (q, f) := FMap.getD s.ks.fences n (0, false)
  ((s.put .kresia 0x1B0010 21 w).wr .kresia 0x1B0014 (packW [(bitN f, 0)])).wr .kresia 0x1B0018 (BitVec.ofNat 32 q)

/-- R336: the words a write of KS_MR_SEL latches, from VALID to CKPT_STEP. -/
def State.mrWords (s : State) (d c : Nat) (region : Bool) : List Nat :=
  let x := s.dom d
  let g := x.prog.getD []
  let own := shardKey d c region false
  let homed : Bool := x.prog.isSome &&
    (if region then (List.range (rH g c)).any fun j => c < (sec g 9).count && rHome x.moves g c j x.step = s.ksId
     else c < collCount g && cBlocked g c && !(s.homeChunks x g c x.step).isEmpty)
  let mirror := !homed && FMap.has s.ks.shards (shardKey d c region true)
  let h := s.shard (if mirror then shardKey d c region true else own)
  if !homed && !mirror then List.replicate 10 0
  else
    let chunks := if region then 0 else if mirror then h.blockStep.length else (s.homeChunks x g c x.step).length
    let low := match h.mirrorStep.map (·.2) with
      | [] => 0
      | a :: l => l.foldl min a
    let ckpt := h.ckptStep.getD 0
    [1 + 2 * bitN (!h.promoted.isEmpty) + 4 * bitN h.single + 8 * bitN (h.fillTarget.isSome && !h.fillLeft.isEmpty) +
       16 * bitN (!region && (mirrorEntry g c 2).isSome),
     partnerOf s.ksId 0, partnerOf s.ksId 2, h.fillTarget.getD 0, chunks, h.fillDone.length, low % 2 ^ 32, low / 2 ^ 32,
     ckpt % 2 ^ 32, ckpt / 2 ^ 32]

/-- R336: a write of KS_MR_SEL latches a snapshot of the shard selected. -/
def State.mrSelWrite (s : State) (w : Word) : State :=
  let l := s.mrWords (w.get 0 16) (w.get 16 12) (w.get 28 1 = 1)
  (List.range 10).foldl (fun s i => s.wr .kresia (0x1B0104 + 4 * i) (BitVec.ofNat 32 (l.getD i 0))) (s.put .kresia 0x1B0100 29 w)

/-- R396, R398: a write of the Kresia register map, by PCIe or `reg.write` (priv) or by the core. -/
def State.ksWrite' (s : State) (v : View) (a : Nat) (w : Word) : State :=
  let t := if 0x101000 ≤ a && a < 0x103000 then 0x200 + a % 32 else a - 0x100000
  if s.ks.c.fw.inReset then s
  else if !ksMapped a then s.viewRefused .kresia v a
  else if a = 0x10 then s.w1c .kresia a 7 w
  else if 0x100000 ≤ a && a < 0x103000 && coreOnly t then
    if v = .core then s.coreWrite .kresia a w
    else ((s.setBit .kresia 0x10 1 true).setFld .kresia 0x14 0 24 a).stickyTime .kresia 0x128 16
  else if a = 0x100128 then s.w1c .kresia a 0x10000 w
  else if a = 0x10030C then s.w1c .kresia a 0x1F w
  else if 0x106000 ≤ a && a < 0x107000 then s.stampWrite .kresia v (a - 0x106000) w
  else if a = 0x110000 || a = 0x120000 || a = 0x130000 || a = 0x1C0100 || a = 0x170100 then s.put .kresia a 16 w
  else if a = 0x11001C then
    let d := s.fld .kresia 0x110000 0 16
    s.modPc .kresia fun c => { c with domRegs := FMap.update c.domRegs (d * 2 ^ 24 + a) 0x300 fun x => x.put 8 8 (w.get 8 8) }
  else if 0x120040 ≤ a && a ≤ 0x120074 then
    s.objWindowWrite .kresia (s.fld .kresia 0x120000 0 16) (a - 0x120040) 0x120064 true w
  else if a = 0x140090 then (execFeltProbeSel w s).orElse s
  else if a = 0x150100 then (execChunkSel w s).orElse s
  else if a = 0x160100 then s.put .kresia a 28 w
  else if a = 0x170104 then s.wr .kresia a w
  else if a = 0x170108 then s.put .kresia a 20 w
  else if a = 0x17010C then (execDspSel w s).orElse s
  else if 0x180000 ≤ a && a < 0x190000 then
    if a % 0x100 = 0x44 && 0x10000 ≤ w.toNat && w.toNat ≤ 0x1000000 then s.wr .kresia a w else s
  else if a = 0x190000 then (if w.get 0 1 = 1 then (execLedgerSnap .kresia s).orElse s else s)
  else if 0x190040 ≤ a && a ≤ 0x190058 then (execCreditCfgWrite ((a - 0x190040) / 4) w s).orElse s
  else if a = 0x190060 then
    if 1 ≤ w.toNat && w.toNat ≤ 4096 then (s.wr .kresia a w).setFld .kresia 0x190068 0 16 0 else s
  else if a = 0x190064 then
    if 1 ≤ w.toNat && w.toNat ≤ 1024 then (s.wr .kresia a w).setFld .kresia 0x190068 0 16 0 else s
  else if 0x1A0000 ≤ a && a < 0x1B0000 then s.gateWrite .kresia ((a - 0x1A0000) / 0x100) (a % 0x100) w
  else if a = 0x1B0010 then s.fenceSelWrite w
  else if a = 0x1B0080 then
    if 1 ≤ w.toNat && w.toNat ≤ 100 then s.wr .kresia a w else s.setFld .kresia 0x1B012C 0 16 0x9008
  else if a = 0x1B0100 then s.mrSelWrite w
  else if 0x1D0000 ≤ a && a < 0x1D2000 then s.bankWrite .kresia v a w
  else if 0x1D2000 ≤ a && a < 0x1E0000 then s.tagRegWrite .kresia v a w
  else if 0x200000 ≤ a && a < 0x240000 then s.mboxWrite .kresia v ((a - 0x200000) / 0x1000) (a % 0x1000) w a
  else if 0x400000 ≤ a then
    s.modMslot .kresia ((a - 0x400000) / 0x20000) (a / 0x2000 % 16) fun x => { x with window := FMap.set x.window (a % 0x2000) w }
  else s

/-- A write of a register of a part by a view. -/
def State.regWrite (s : State) (p : Part) (v : View) (a : Nat) (w : Word) : State :=
  match p with
  | .baxel => if s.bx.c.fw.inReset then s else s.bxWrite' v a w
  | .kresia => s.ksWrite' v a w

/-- REGISTER_WRITE (R371, R395, R396): a write performed, or refused by view, tag or core-only rules. -/
def execRegisterWrite (p : Part) (v : View) (addr : Nat) (w : Word) (s : State) : Answer := .next (s.regWrite p v (addr / 4 * 4) w)

end Sys2Proof.Machine
end

