-- ==== Sys2Proof/Machine/CmdBase.lean ====
section
/-! DEFINITION. Mailbox commands of the mailboxes themselves, of registers and of stage areas (R371, R377, R390, R391). -/

namespace Sys2Proof.Machine

/-! ### What commands share -/

/-- R390: bytes taken from the pool. -/
def State.stageUsed (s : State) : Nat := sumBy s.ks.c.fw.stages fun (_, x) => x.bytes.length

/-- R400: STAGE_FREE after a change of the areas. -/
def State.showStages (s : State) : State := s.wr .kresia 0x24 (BitVec.ofNat 32 ((2 ^ 30 - s.stageUsed) / 1024))

/-! ### mbox.hello, mbox.bind, mbox.unbind -/

/-- MBOX_HELLO (R391). -/
def execMboxHello (p : Part) (m k : Nat) (s : State) : Answer :=
  .next (s.serve p m k 0x0001 fun s _ => s.complete p m k 0
    (leBytes 4 (s.fld p 0 0 8) ++ leBytes 4 (s.rd p 8).toNat ++ leBytes 4 (s.rd p 0).toNat))

/-- MBOX_BIND (R377). -/
def execMboxBind (p : Part) (m k : Nat) (s : State) : Answer :=
  .next (s.serve p m k 0x0002 fun s t =>
    let b := t.f 8 1
    let d := t.f 10 2
    if 64 ≤ b then s.complete p m k 0xA103
    else if b < 4 || (s.mbox p b).bound.isSome || (s.dom d).positions.isEmpty then s.complete p m k 0xA10B
    else (s.modMbox p b fun x => { x with bound := some (d, t.f 16 16, t.f 32 2) }).complete p m k 0)

/-- MBOX_UNBIND (R377, R390). -/
def execMboxUnbind (p : Part) (m k : Nat) (s : State) : Answer :=
  .next (s.serve p m k 0x0003 fun s t =>
    let b := t.f 8 1
    if 64 ≤ b then s.complete p m k 0xA103
    else if b < 4 || (s.mbox p b).bound.isNone || (s.mbox p b).slots.any fun (_, x) => x.locked then s.complete p m k 0xA10B
    else
      let s1 := (s.modMbox p b fun x => { x with bound := none }).modFw p fun w =>
        { w with stages := w.stages.filter fun (_, x) => x.mailbox ≠ b }
      s1.showStages.complete p m k 0)

/-! ### reg.read and reg.write -/

/-- R41, R198, R359, R396: a privileged read of a word of the Kresia register map, with what it latches or reloads. -/
def State.ksRead (s : State) (a : Nat) : Word × State :=
  if a = 0x105000 then
    let s1 := s.ftSnap .kresia 0
    (s1.ftWord .kresia 0 0, s1)
  else match s.rcValue a with
    | some v => (s.rd .kresia a, s.wr .kresia a (BitVec.ofNat 32 v))
    | none =>
      match ctrBankAt .kresia .priv a with
      | some (b, off) =>
        let latch (i : Nat) : State := s.modBank .kresia b fun x =>
          if x.latched.isSome then x else { x with highs := FMap.set x.highs i (half (x.value i) true) }
        (s.ksWord a, match valueAt .kresia b off with
          | some i => latch i
          | none => s)
      | none =>
        if wideCounters.contains a then
          (s.ksWord a, s.modPc .kresia fun c => { c with highs := FMap.set c.highs (a + 4) (s.rd .kresia (a + 4)) })
        else (s.ksWord a, s)

/-- Words read in ascending order from an address on. -/
def State.ksReads (s : State) : Nat → Nat → List Byte × State
  | _, 0 => ([], s)
  | a, n + 1 =>
    let (w, s1) := s.ksRead a
    let (l, s2) := State.ksReads s1 (a + 4) n
    (leBytes 4 w.toNat ++ l, s2)

/-- REG_READ (R391, R396). -/
def execRegRead (p : Part) (m k : Nat) (s : State) : Answer :=
  .next (s.serve p m k 0x0010 fun s t =>
    let a := t.f 8 4
    let n := t.f 12 1
    if n = 0 || 12 < n then s.complete p m k 0xA103
    else if (List.range n).any fun i => !ksMapped (a + 4 * i) then s.complete p m k 0xA10E
    else
      let (bs, s1) := s.ksReads a n
      s1.complete p m k 0 bs)

/-- REG_WRITE (R371, R391, R396). -/
def execRegWrite (p : Part) (m k : Nat) (s : State) : Answer :=
  .next (s.serve p m k 0x0011 fun s t =>
    let a := t.f 8 4
    let n := t.f 12 1
    if n = 0 || 12 < n then s.complete p m k 0xA103
    else if (List.range n).any fun i => !ksMapped (a + 4 * i) then s.complete p m k 0xA10E
    else ((List.range n).foldl (fun (s : State) (i : Nat) =>
      s.regWrite .kresia .priv (a + 4 * i) (BitVec.ofNat 32 (t.f (16 + 4 * i) 4))) s).complete p m k 0)

/-! ### Stage areas (R390) -/

/-- The identifier a new area takes: a free one, which one the manual leaves open (log 1). -/
def freeStage (m : FMap Stage) (v : Nat) : Nat :=
  ((List.range (m.length + 1)).find? fun i => !FMap.has m ((v + i) % 2 ^ 32)).elim (v % 2 ^ 32) fun i => (v + i) % 2 ^ 32

/-- STAGE_ALLOC (R390). -/
def execStageAlloc (p : Part) (m k : Nat) (s : State) : Answer :=
  .next (s.serve p m k 0x0020 fun s t =>
    let n := t.f 8 4
    let held := (s.ks.c.fw.stages.filter fun (_, x) => x.mailbox = m).length
    if n < 64 || 2 ^ 28 < n || n % 64 ≠ 0 then s.complete p m k 0xA103
    else if 16 ≤ held || 2 ^ 30 < s.stageUsed + n then s.complete p m k 0xA108
    else
      let (v, s1) := s.draw
      let id := freeStage s.ks.c.fw.stages v
      let s2 := s1.modFw .kresia fun w => { w with stages := FMap.set w.stages id ⟨m, List.replicate n memDefault⟩ }
      s2.showStages.complete p m k 0 (leBytes 4 id))

/-- STAGE_PUT (R390). Data in the PCIe window that lies beyond the area's end is no part of the command's data. -/
def execStagePut (p : Part) (m k : Nat) (s : State) : Answer :=
  .next (s.serve p m k 0x0021 fun s t =>
    let id := t.f 8 4
    let off := t.f 12 4
    match s.stageOf m id with
    | none => s.complete p m k 0xA109
    | some area =>
      let bs := if t.ports.isEmpty then t.inline.take (area.length - off) else t.inline
      if off % 64 ≠ 0 then s.complete p m k 0xA103
      else if area.length < off + bs.length then s.complete p m k 0xA10A
      else (s.stageWrite id off bs).complete p m k 0)

/-- STAGE_GET (R390). -/
def execStageGet (p : Part) (m k : Nat) (s : State) : Answer :=
  .next (s.serve p m k 0x0022 fun s t =>
    let off := t.f 12 4
    let n := t.f 16 2
    match s.stageOf m (t.f 8 4) with
    | none => s.complete p m k 0xA109
    | some area =>
      if off % 64 ≠ 0 || n % 64 ≠ 0 || 8192 < n then s.complete p m k 0xA103
      else if area.length < off + n then s.complete p m k 0xA10A
      else s.complete p m k 0 [] ((area.drop off).take n))

/-- STAGE_FREE (R390). -/
def execStageFree (p : Part) (m k : Nat) (s : State) : Answer :=
  .next (s.serve p m k 0x0023 fun s t =>
    let id := t.f 8 4
    match s.stageOf m id with
    | none => s.complete p m k 0xA109
    | some _ => (s.modFw .kresia fun w => { w with stages := FMap.erase w.stages id }).showStages.complete p m k 0)

end Sys2Proof.Machine
end

