-- ==== Sys2Proof/Machine/Programs.lean ====
section
/-! DEFINITION. Loading, running and freeing step programs (R153 to R160, R167 to R171), and host scalars (R230). -/

namespace Sys2Proof.Machine

/-! ### Receiving an image (R164, R165, R167, R169) -/

/-- R164, R167, R225, R227: a program loaded at this Kresia. -/
def State.loadHere (s : State) (d : Nat) (g : Image) : State :=
  let x := s.dom d
  let s1 := s.placeObjs d ((s.findObjs (objBlock g)).getD 0) (objBlock g) g none
  ((s1.modKs fun k => { k with shards := k.shards.filter fun (q, _) => q / 2 ^ 14 ≠ d }).allocShards d g).modDom d fun y =>
    { y with
      prog := some g, next := none, epoch := 0, seq := 0, voidSent := 0, insts := [], heldInsts := [], lastTamp := none
      trackers := trackersFor g x.positions.length (x.kresia s.ks.build).length }

/-- R167: a load taken back: nothing of the program stays here. -/
def State.dropLoad (s : State) (d : Nat) : State :=
  (s.modKs fun k => { k with objs := k.objs.filter fun (_, o) => o.domain ≠ some d }).modDom d fun y =>
    { y with prog := none, cobjBase := 0, cobjCount := 0, trackers := 0, phase := if y.isCrown || y.isDeputy then .idle else .none }

/-- The answer of this Kresia's firmware to the crown. -/
def State.ksAck (s : State) (d : Nat) (code : Code) : State :=
  s.emit (.send .kresia (.crown d) (.loadAck { domain := d, fromBaxel := false, node := 2 ^ 20 + s.ksId, code := code }))

/-- R202, R329: the position map of a domain as it stands now; an empty one removes a domain without a program. -/
def State.takeMap (s : State) (d crown : Nat) (l : List PosEntry) : State :=
  if l.isEmpty then s.modKs fun k => { k with doms := FMap.erase k.doms d }
  else s.modDom d fun y =>
    let old (e : PosEntry) : Option Position := y.positions.find? fun q => q.e = e
    let deputy := !y.isCrown && (deputiesOf s.ks.build crown).contains s.ksId
    { y with crown := crown, isDeputy := deputy, positions := l.map fun e => (old e).getD (s.newPos e)
             phase := if deputy && y.phase = .none then .idle else y.phase }

/-- R328: at each home a roll-back to step c makes the output of step c's block of every chunk its sealed output, forgets
what later steps left, and mirrors every chunk. -/
def State.rollbackHome (s : State) (d c : Nat) : State :=
  let s1 := (s.dom d).insts.foldl (fun (s : State) (n : Inst) => s.voidInst d n.step) s
  let s2 := (s1.modKs fun k =>
    { k with
      kept := k.kept.filter fun (q, r) => q / 2 ^ 36 ≠ d || r.step ≤ c
      chunks := k.chunks.filter fun (_, e) => e.domain ≠ d
      windows := k.windows.filter fun (q, _) => q / 2 ^ 14 ≠ d
      bases := k.bases.filter fun (q, _) => q / 2 ^ 31 ≠ d
      ckpts := k.ckpts.filter fun q => q.domain ≠ d }).modDom d fun y =>
    { y with lastTamp := none, heldInsts := [], cups := y.cups.filter fun q => q.step ≤ c, varKept := []
             cupOpen := y.cupOpen.filter fun q => q.step ≤ c }
  match (s.dom d).prog with
  | none => s2
  | some g =>
    ((List.range (collCount g)).filter fun j => cBlocked g j).foldl (fun (s : State) (j : Nat) =>
      let ks := s.homeChunks (s.dom d) g j c
      let s3 := s.modShard (shardKey d j false false) fun h =>
        let out := ks.foldl (fun (m : FMap (Nat × List Byte)) (k : Nat) => FMap.set m k (c, h.outOf g j k c)) h.sealedOut
        let steps := ks.foldl (fun (m : FMap Nat) (k : Nat) => FMap.set m k c) h.blockStep
        { h with sealedOut := out, blockStep := steps, mirrorStep := [] }
      [0, 2].foldl (fun (s : State) (mode : Nat) => match mirrorEntry g j mode with
        | none => s
        | some i => ks.foldl (fun (s : State) (k : Nat) => s.sendMirror d g j k c mode i) s) s3) s2

/-- PROG_IMAGE_RX (R148, R167, R169, R171, R441): an image on TC5, its withdrawal, or the freeing of the program. -/
def execProgImageRx (x : ProgImage) (s : State) : Answer :=
  let d := x.domain
  if x.mapOnly then .next (s.takeMap d x.crown x.positions)
  else if let some c := x.rollback then .next (s.rollbackHome d c)
  else if let some (n, from') := x.cup then .next (s.modDom d fun y => { y with cupPeriod := n, cupFrom := from' })
  else if x.unload then .next (s.startFreeing d)
  else if x.withdraw then
    .next (if x.switchStep.isSome then s.modDom d fun y => { y with next := none } else s.dropLoad d)
  else if !s.ksReady then .next (s.ksAck d 0x1010)
  else if imageDigest x.image ≠ imgDigest x.image then .next (s.ksAck d 0x2021)
  else if !s.hasRoom d x.image x.positions then .next (s.ksAck d 0x2026)
  else match x.switchStep with
    | some n => .next ((s.modDom d fun y => { y with next := some (x.image, n) }).ksAck d 0)
    | none =>
      let s1 := s.modDom d fun y =>
        { y with isDeputy := x.deputy, crown := x.crown, positions := x.positions.map s.newPos }
      let s2 := s1.loadHere d x.image
      .next ((if x.deputy then s2.modDom d fun y =>
          { y with
            phase := .gather, step := imgStepFirst x.image, everTamped := false, arrivals := [], lastBy := none, series := none
            heldAcks := [], voidEpoch := 0, voidRun := 0 }
        else s2).ksAck d 0)

/-! ### The crown's side of a load (R167) -/

/-- R167: what the crown withdraws when a receiver refuses. -/
def State.withdrawLoad (s : State) (d : Nat) (w : ProgWait) : State :=
  let x := s.dom d
  let sw : Option Nat := if w.kind = 1 then some w.switchStep else none
  let s1 := s.emit (.send .kresia (.kresias ((x.kresia s.ks.build ++ deputiesOf s.ks.build s.ksId).eraseDups.filter (· ≠ s.ksId)))
    (.progImage { domain := d, crown := s.ksId, switchStep := sw, withdraw := true }))
  let s2 := s1.emit (.send .kresia (.members x.members) (.template { op := .withdraw, domain := d, stepFirst := 0, slots := [] }))
  if w.kind = 1 then s2.modDom d fun y => { y with next := none } else s2.dropLoad d

/-- R167: the load is complete at every receiver: the crown gathers arrivals for STEP_FIRST under epoch 0. -/
def State.beginRun (s : State) (d : Nat) (g : Image) : State :=
  let s1 := s.modPc .kresia fun c =>
    { c with domRegs := FMap.update c.domRegs (d * 2 ^ 24 + 0x11001C) 0x300 fun w => w.put 8 8 (imgVoidRetry g) }
  s1.modDom d fun y =>
    { y with
      phase := .gather, step := imgStepFirst g, epoch := 0, seq := 0, voidRun := 0, everTamped := false, arrivals := []
      lastBy := none, changeWait := none, toArm := [], recs := [], series := none, credits := [], suspects := [], replayed := false, lost := false, barriers := 0 }

/-- PROG_LOAD_ACK_RX (R167, R169): a receiver has acknowledged or refused. -/
def execProgLoadAckRx (a : LoadAck) (s : State) : Answer :=
  let d := a.domain
  let x := s.dom d
  match x.wait with
  | none => .next s
  | some w =>
    if w.kind ≠ 0 && w.kind ≠ 1 then .next s
    else if a.code ≠ 0 then
      .next (((s.withdrawLoad d w).modDom d fun y => { y with wait := none }).progEnd d w.mailbox w.mslot 0x2028
        (leBytes 4 a.node ++ leBytes 2 a.code.toNat))
    else
      let left := w.waiting.erase a.node
      if !left.isEmpty then .next (s.modDom d fun y => { y with wait := some { w with waiting := left } })
      else
        let s1 := (s.modDom d fun y => { y with wait := none }).progEnd d w.mailbox w.mslot 0
        match w.kind, x.prog with
        | 0, some g => .next (s1.beginRun d g)
        | _, _ => .next s1

/-- PROGRAM_FREED_RX (R171): a Kresia or Baxel has freed the unloaded program. -/
def execProgramFreedRx (a : LoadAck) (s : State) : Answer := .next (s.freedBy a.domain a.node)

/-! ### Tamps and voids at this Kresia -/

/-- KRESIA_TAMP_RX (R155, R157). -/
def execKresiaTampRx (m : Ctl) (s : State) : Answer := .next (s.ksTamp m.domain m)

/-- KRESIA_VOID_RX (R103, R170). -/
def execKresiaVoidRx (m : Ctl) (s : State) : Answer := .next (s.ksVoid m.domain m)

/-! ### Queue mode (R156) -/

/-- One queue of an instance at an issue tick: whether it acted, and the state after. -/
def State.issueQueue (s : State) (d step q : Nat) (n : Inst) : State × Bool :=
  if n.blocked.contains q then (s, false)
  else match FMap.find? n.ptrs q with
    | none => (s, false)
    | some i =>
      let wait : Bool := entType n.image i = 8
      let forward (s : State) : State := s.modInst d step fun z =>
        let z1 := { z with lastIssue := some (s.raw .kresia) }
        if wait && s.partakes (s.dom d) n.image i step && entRuns n.image i step then { z1 with blocked := z1.blocked ++ [q] }
        else z1.advance q i
      if !s.partakes (s.dom d) n.image i step || !entRuns n.image i step then ((forward s).endEntry d step i false, true)
      else
        let (s1, ok) := (forward s).issueEntry d step i
        if ok then (s1, true)
        else (s1.modInst d step fun z => { z with ptrs := n.ptrs, blocked := n.blocked }, false)

/-- R156: the queues in ascending order, until one acts; a queue that waits for credit delays no other. -/
def State.issueFrom (s : State) (d step : Nat) : List Nat → State
  | [] => s
  | q :: t =>
    match s.inst d step with
    | none => s
    | some n =>
      let (s1, acted) := s.issueQueue d step q n
      if acted then s1 else State.issueFrom s1 d step t

/-- QUEUE_ISSUE_TICK (R153, R156): every 10 ns, one entry of an open queue-mode instance. -/
def execQueueIssueTick (domain step : Nat) (s : State) : Answer :=
  match s.inst domain step with
  | none => .next s
  | some n =>
    let early : Bool := match n.lastIssue with
      | some r => Raw.diff (s.raw .kresia) r < 10 * 65536
      | none => false
    if imgMode n.image ≠ 0 || early then .next s else .next (s.issueFrom domain step (List.range 16))

/-- ENTRY_COMPLETE (R151, R154): an issued entry whose work here is done completes. -/
def execEntryComplete (domain step entry : Nat) (s : State) : Answer :=
  match s.inst domain step with
  | none => .next s
  | some n => match FMap.find? n.runs entry with
    | none => .next s
    | some r =>
      if !r.done && s.entryFinished domain step entry n r then .next (s.endEntry domain step entry true) else .next s

/-! ### Waits (R156, R158) -/

/-- R156: a queue blocked by a WAIT goes on past it. -/
def State.passWait (s : State) (d step i : Nat) : State :=
  let s1 := s.modKs fun k => { k with takesDone := k.takesDone.filter fun (q, j, _) => !(q = d && j = waitId step i) }
  (s1.modInst d step fun z =>
    let q := entQueue z.image i
    { z with blocked := z.blocked.filter (· ≠ q) }.advance q i).endEntry d step i true

/-- WAIT_TAKE_DONE (R156): the TAKE of a WAIT has completed; one that the void of another step ended on a REPLAY object
(R133, R134) has completed too (DESIGN CHOICE, log 150). -/
def execWaitTakeDone (domain step entry : Nat) (s : State) : Answer :=
  if s.ks.takesDone.any fun (q, j, c) => q = domain && j = waitId step entry && (c = 0 || c = 0x3012) then
    .next (s.passWait domain step entry)
  else .next s

/-- WAIT_TIMEOUT (R158, R344): TIMEOUT_US after issue the TAKE is withdrawn. -/
def execWaitTimeout (domain step entry : Nat) (s : State) : Answer :=
  match s.inst domain step with
  | none => .next s
  | some n =>
    let us := entF n.image entry 20 4
    let overlaid : Bool := match FMap.find? n.runs entry with
      | some r => entType n.image entry = 8 && !r.done && us ≠ 0 && ((us * 65536000 : Nat) : Int) ≤ Raw.diff (s.raw .kresia) r.issued
      | none => false
    let ended := s.ks.takesDone.any fun (q, j, c) => q = domain && j = waitId step entry && (c = 0 || c = 0x202D || c = 0x3012)
    if !overlaid || ended then .next s
    else
      let s1 := (s.modKs fun k =>
        { k with objs := FMap.mapVals k.objs fun _ o =>
          { o with waiters := o.waiters.filter fun w => !(w.owner = domain && w.source = .entry (waitId step entry)) } }).count
        (evD domain 0x130060)
      if entF n.image entry 24 1 = 1 then .next ((s1.markVaried domain step 2).passWait domain step entry)
      else .next ((s1.modKs fun k => { k with takesDone := k.takesDone ++ [(domain, waitId step entry, 0x202D)] }).ksTenantFault
        domain 0x202D (some step))

/-! ### Schedule mode (R159, R160) -/

/-- R159: START_NS and FINISH_NS of a body entry. -/
def schedOf (g : Image) (i : Nat) : Option (Int × Int) :=
  let rec? := (List.range (sec g 0x0A).count).find? fun j => le g ((sec g 0x0A).off + 12 * j) 2 = i
  rec?.map fun j => (leS g ((sec g 0x0A).off + 12 * j + 4) 4, leS g ((sec g 0x0A).off + 12 * j + 8) 4)

/-- R160: the OT of an offset from an instance's DUE. -/
def Inst.at' (n : Inst) (ns : Int) : OT := otAdd n.due (ns * 65536)

/-- R160: whether an entry stands before another in the order of issue: with equal START_NS the lower index. -/
def schedBefore (g : Image) (i j : Nat) : Bool :=
  match schedOf g i, schedOf g j with
  | some (a, _), some (b, _) => a = b && i < j
  | _, _ => false

/-- R172: in schedule mode the next entry of a queue is the first in its list that has not been issued. -/
def Inst.passed (n : Inst) (i : Nat) : Inst :=
  let q := entQueue n.image i
  match (queueOf n.image q).find? fun j => !FMap.has n.runs j with
  | some j => { n with ptrs := FMap.set n.ptrs q j }
  | none => { n with ptrs := FMap.erase n.ptrs q }

/-- SCHED_START (R153, R160, R172): DUE + START_NS has come for an entry, and none with the same START_NS and a lower index
waits. -/
def execSchedStart (domain step entry : Nat) (s : State) : Answer :=
  match s.inst domain step with
  | none => .next s
  | some n =>
    let g := n.image
    let due : Bool := match schedOf g entry with
      | some (a, _) => otDiff (n.at' a) (s.otNow .kresia) ≤ 0
      | none => false
    let held := (body g).any fun j => schedBefore g j entry && !FMap.has n.runs j &&
      !(s.ks.takesDone.any fun (q, w, _) => q = domain && w = waitId step j)
    if imgMode g ≠ 1 || !due || held || FMap.has n.runs entry || !(body g).contains entry then .next s
    else if !s.partakes (s.dom domain) g entry step || !entRuns g entry step then
      .next ((s.endEntry domain step entry false).modInst domain step fun z => z.passed entry)
    else .next ((s.issueEntry domain step entry).1.modInst domain step fun z => z.passed entry)

/-- SCHED_OVERRUN (R160): an entry not accepted within 1 µs of START_NS, or not completed by DUE + FINISH_NS. -/
def execSchedOverrun (domain step entry : Nat) (s : State) : Answer :=
  match s.inst domain step with
  | none => .next s
  | some n =>
    let now := s.otNow .kresia
    let late : Bool := match schedOf n.image entry, FMap.find? n.runs entry with
      | some (a, _), none => otDiff (n.at' (a + 1000)) now < 0
      | some (_, b), some r => !r.done && otDiff (n.at' b) now < 0
      | none, _ => false
    let failed := s.ks.takesDone.any fun (q, j, _) => q = domain && j = waitId step entry
    if imgMode n.image ≠ 1 || !late || failed then .next s
    else .next (((s.count (evD domain 0x13005C)).modKs fun k =>
      { k with takesDone := k.takesDone ++ [(domain, waitId step entry, 0x202C)] }).ksTenantFault domain 0x202C (some step))

/-! ### Host scalars (R230) -/

/-- SCALAR_VALUE_RX (R230): a value kept beside the other pending ones, and acknowledged. -/
def execScalarValueRx (x : ScalarValue) (s : State) : Answer :=
  .next ((s.modDom x.domain fun y => { y with scalars := y.scalars ++ [⟨x.set, x.scalar, x.value, x.fromStep⟩] }).emit
    (.send .kresia (.crown x.domain) (.scalarAck x (2 ^ 20 + s.ksId))))

/-- SCALAR_ACK_RX (R230): once every Kresia has acknowledged, the command completes and the barrier is no longer deferred. -/
def execScalarAckRx (x : ScalarValue) (node : Nat) (s : State) : Answer :=
  let v : HostScalar := ⟨x.set, x.scalar, x.value, x.fromStep⟩
  match (s.dom x.domain).scalarWaits.find? fun w => w.v = v with
  | none => .next s
  | some w =>
    let left := w.waiting.filter (· ≠ node)
    if left.isEmpty then
      .next (((s.modDom x.domain fun y => { y with scalarWaits := y.scalarWaits.erase w }).complete .kresia w.mailbox w.mslot 0).tryBarrier
        x.domain)
    else .next (s.modDom x.domain fun y =>
      { y with scalarWaits := y.scalarWaits.map fun u => if u = w then { w with waiting := left } else u })

end Sys2Proof.Machine
end

