-- ==== Sys2Proof/Machine/ImageCheck.lean ====
section
/-! DEFINITION. The checks of a step-program image at load (R96, R146 to R166, R176, R185, R200, R228, R229, R232 to R236,
R240, R250, R251, R318, R326, R361, R451). -/

namespace Sys2Proof.Machine

/-- R166: why an image is refused: the code, the index of the entry at fault, and for a BLOCK or DISPATCH entry the detail
code with its index (`dsp`: KS_DSP_LOAD_DETAIL). -/
structure LoadFault where
  code : Code
  entry : Option Nat := none
  dsp : Bool := false
  detail : Option (Code × Nat) := none
  deriving DecidableEq, Repr

/-- A check that raises a code without an entry. -/
def failIf (b : Bool) (code : Code) : Option LoadFault := if b then some { code := code } else none

/-- S_PROG_ENTRY for an entry. -/
def badEntry (i : Nat) : Option LoadFault := some { code := 0x2024, entry := some i }

/-- Whether n bytes at an offset are zero. -/
def zeros (g : Image) (off n : Nat) : Bool := le g off n = 0

/-! ### Format (R146, R147, R149, R451) -/

/-- R147: bytes of a record of a section kind, and whether the section holds records alone. -/
def recSize : Nat → Option (Nat × Bool)
  | 0x01 => some (64, true)
  | 0x02 => some (40, true)
  | 0x03 => some (8, true)
  | 0x04 => some (4, true)
  | 0x05 => some (64, false)
  | 0x06 => some (8, false)
  | 0x07 => some (512, false)
  | 0x08 => some (128, false)
  | 0x09 => some (64, false)
  | 0x0A => some (12, true)
  | 0x0B => some (256, true)
  | _ => none

/-- R146: the header. -/
def headOk (a : Image) : Bool :=
  256 ≤ a.length && le a 0 4 = 0x4B535031 && le a 4 2 = 3 && imgMode a ≤ 1 && imgFlags a < 64 &&
  imgBytes a ≤ a.length && imgBytes a ≤ 2 ^ 28 && le a 24 4 < 2 ^ 20 && 2 ≤ imgPlanesMin a && imgPlanesMin a ≤ 8 &&
  1 ≤ imgVoidRetry a && imgVoidRetry a ≤ 15 && 2 ≤ imgEntries a && imgEntries a ≤ 4096 &&
  1 ≤ imgSections a && imgSections a ≤ 16 && zeros a 52 4 && zeros a 96 160 &&
  256 + 16 * imgSections a ≤ imgBytes a

/-- R147, R149: one section-table record; a section that runs over the header or the table is no section (DEDUCED, log 50). -/
def secOk (a : Image) (i : Nat) : Bool :=
  let x := secAt a i
  zeros a (257 + 16 * i) 3 && x.off % 64 = 0 && 256 + 16 * imgSections a ≤ x.off && x.off + x.bytes ≤ imgBytes a &&
  (match recSize x.kind with
    | some (n, exact) => if exact then x.bytes = n * x.count else n * x.count ≤ x.bytes
    | none => false) &&
  (List.range i).all fun j =>
    let y := secAt a j
    x.kind ≠ y.kind && (x.bytes = 0 || y.bytes = 0 || x.off + x.bytes ≤ y.off || y.off + y.bytes ≤ x.off)

/-- R451: the flags that summarise the contents. -/
def flagsOk (a : Image) : Bool :=
  let tm (b : Nat) : Bool := (List.range (sec a 2).count).any fun i => tmplCtrl a i / 2 ^ b % 2 = 1
  let flag (b : Nat) : Bool := imgFlags a / 2 ^ b % 2 = 1
  (flag 0 == (List.range (imgEntries a)).any fun i => entVar a i) && (flag 3 == tm 3) && (flag 4 == tm 2) &&
  (flag 5 == (tm 4 || tm 5))

/-- R166, check 1. -/
def formatOk (a : Image) : Bool :=
  headOk a && ((List.range (imgSections a)).all fun i => secOk a i) &&
  (sec a 1).count = imgEntries a && (imgMode a = 0 || (secs a).any fun x => x.kind = 0x0A) && flagsOk a

/-! ### Templates (R163) -/

/-- The template records of a slot. -/
def tmplsOf (g : Image) (slot : Nat) : List Nat := (List.range (sec g 2).count).filter fun i => tmplSlot g i = slot
def tmplFirst (g : Image) (i : Nat) : Nat := le g (tmplAt g i + 4) 4
def tmplCount (g : Image) (i : Nat) : Nat := le g (tmplAt g i + 8) 4

/-- R163: the record's fixed bytes. -/
def tmplOk (g : Image) (i : Nat) : Bool :=
  let o := tmplAt g i
  zeros g (o + 2) 2 && tmplFirst g i < 2 ^ 20 && tmplCtrl g i % 4 = 0 && tmplCtrl g i < 64 && zeros g (o + 17) 1 &&
  le g (o + 28) 4 < 2 ^ 31 && le g (o + 32) 4 < 2 ^ 31 && zeros g (o + 36) 4

/-- R163: the ranges of a slot cover every position exactly once. -/
def coverOk (g : Image) (slot : Nat) : Bool :=
  let l := tmplsOf g slot
  let n := imgPositions g
  l.all (tmplOk g) && (l.map (tmplCount g)).foldl (· + ·) 0 = n &&
  l.all fun i => tmplFirst g i + tmplCount g i ≤ n &&
    l.all fun j => i = j || tmplCount g i = 0 || tmplCount g j = 0 || tmplFirst g i + tmplCount g i ≤ tmplFirst g j ||
      tmplFirst g j + tmplCount g j ≤ tmplFirst g i

/-! ### Element programs and scalars (R228, R229, R232 to R236, R240) -/

/-- R233: the operands an opcode uses (D, A, B, C) and the bits of IMM. -/
def opForm : Nat → Option (Bool × Bool × Bool × Bool × Nat)
  | 0x01 => some (false, false, false, false, 0x7F)
  | 0x02 => some (true, false, false, false, 0)
  | 0x03 => some (true, false, false, false, 7)
  | 0x04 => some (false, true, false, false, 7)
  | 0x05 => some (true, false, false, false, 0xFFFFFFFF)
  | 0x06 => some (true, true, false, false, 0)
  | 0x07 => some (true, false, false, false, 0xFF)
  | 0x10 => some (true, true, true, false, 3)
  | 0x11 => some (true, true, true, false, 3)
  | 0x12 => some (true, true, true, true, 7)
  | 0x13 => some (true, true, true, false, 0)
  | 0x14 => some (true, true, false, false, 0)
  | 0x15 => some (true, true, false, false, 0)
  | 0x16 => some (true, true, false, false, 0)
  | 0x17 => some (true, true, false, false, 0)
  | 0x18 => some (true, true, true, false, 0)
  | 0x19 => some (true, true, true, false, 0)
  | 0x1A => some (true, true, true, true, 0)
  | 0x20 => some (false, true, false, false, 0x700)
  | 0x21 => some (false, false, false, false, 0x707)
  | 0x3F => some (false, false, false, false, 0)
  | _ => none

/-- R232, R233: whether an instruction word is one of the table with its unused fields zero. -/
def wordOk (w : Nat) : Bool :=
  match opForm (iOp w) with
  | none => false
  | some (d, a, b, c, m) =>
    (d || iD w = 0) && (a || iA w = 0) && (b || iB w = 0) && (c || iC w = 0) && w / 2 ^ 31 % 2 = 0 && iImm w &&& m = iImm w

/-- Instruction n of BLOCKPROG, and the instructions the section holds. -/
def blkWord (g : Image) (n : Nat) : Nat := le g ((sec g 6).off + 8 * n) 8
def blkWords (g : Image) : Nat := (sec g 6).bytes / 8

/-- The first index of a list (numbered from `at'`) that satisfies p. -/
def firstIx (p : Nat → Nat → Bool) : Nat → List Nat → Option Nat
  | _, [] => none
  | i, w :: t => if p i w then some i else firstIx p (i + 1) t

/-- R240: the detail of a program from PROG_OFF on. -/
def progFault (g : Image) (off : Nat) : Option (Code × Nat) :=
  let prog := progFrom g ((sec g 6).off + 8 * off) (blkWords g - off)
  let scan : List Nat := (List.range (blkWords g - off)).map fun i => blkWord g (off + i)
  let upTo : List Nat := if scan.any fun w => iOp w = 0x3F then scan.takeWhile fun w => iOp w ≠ 0x3F else scan
  let isStrm (w : Nat) : Bool := iOp w = 0x01
  let decl := streamsOf prog
  let acc (n : Nat) : Option Nat := (decl.find? fun x => x.1 = n).map fun x => x.2.2
  let sts (n : Nat) : Nat := (prog.filter fun w => iOp w = 0x04 && iImm w % 8 = n).length
  let strm : List Nat := prog.takeWhile isStrm
  match firstIx (fun _ w => !wordOk w) off upTo with
  | some i => some (0x5101, i)
  | none =>
    if !(scan.any fun w => iOp w = 0x3F) then some (0x5102, off)
    else match firstIx (fun i w => isStrm w && (strm.length ≤ i - off || 8 ≤ i - off || iImm w / 8 % 4 = 3 || iImm w / 32 % 4 = 3 ||
        (strm.take (i - off)).any fun v => iImm v % 8 = iImm w % 8)) off prog with
      | some i => some (0x5103, i)
      | none =>
        match firstIx (fun _ w =>
            if iOp w = 0x03 then (match acc (iImm w % 8) with | some a => a = 2 | none => true)
            else if iOp w = 0x04 then (match acc (iImm w % 8) with | some a => a = 0 | none => true)
            else if iOp w = 0x21 then (acc (iImm w % 8)).isNone
            else isStrm w && iImm w / 32 % 4 ≠ 0 && sts (iImm w % 8) ≠ 1) off prog with
        | some i => some (0x5104, i)
        | none =>
          let isOut (w : Nat) : Bool := iOp w = 0x20 || iOp w = 0x21
          match firstIx (fun i w => isOut w && (((prog.take (i - off)).any isOut) || iImm w / 256 % 4 = 3 ||
              (iOp w = 0x21 && acc (iImm w % 8) = some 0))) off prog with
          | some i => some (0x5105, i)
          | none => if prog.any isOut then none else some (0x5105, off + (upTo.length))

/-- R228, R229: the first scalar of a set that breaks the table. -/
def scalarFault (g : Image) (set : Nat) : Option (Code × Nat) :=
  if (sec g 7).count ≤ set then some (0x5106, 0)
  else
    let table := ((sec g 7).bytes - 512 * (sec g 7).count) / 4
    let bad (n : Nat) : Bool :=
      let o := (sec g 7).off + 512 * set + 16 * n
      let kind := le g o 1
      let a := le g (o + 4) 4
      let b := le g (o + 8) 4
      let c := le g (o + 12) 4
      !zeros g (o + 1) 3 || 7 < kind || (kind = 0 && (a ≠ 0 || b ≠ 0 || c ≠ 0)) ||
      (kind = 1 && b32.decode a = .nan) || (kind = 3 && (c = 0 || table < b + c)) ||
      (4 ≤ kind && kind ≤ 6 && !(0 < a && a < 0x7F800000))
    ((List.range 32).find? bad).map fun n => (0x5106, n)

/-! ### Collectives (R176, R185, R199, R200) -/

/-- The FULL and BLOCK entries that name a collective. -/
def namedBy (g : Image) (ty c : Nat) : List Nat :=
  (List.range (imgEntries g)).filter fun i => entType g i = ty && entRef g i = c

/-- R175, R185: the codes a FULL entry may carry. -/
def inFmtOk (f : Nat) : Bool := (inBits f).isSome
def outFmtOk (f : Nat) : Bool := [1, 2, 3, 4, 5, 8, 9, 0x1F, 0x20].contains f

/-- R185, R195: a FULL entry. On a gather ROUND is ignored (R200). -/
def fullOk (g : Image) (i : Nat) : Bool :=
  let c := entRef g i
  let fin := entF g i 16 1
  let fout := entF g i 17 1
  let round := entF g i 18 1
  let f64 := entF g i 19 1
  inFmtOk fin && outFmtOk fout && f64 ≤ 2 && (fin ≠ 0x20 || (namedBy g 4 c).isEmpty) && (cGather g c || (round % 4 ≠ 3 && round < 8)) &&
  ((fin = 0x20) == (fout = 0x20 : Bool)) && ((fin = 0x20) == (f64 ≠ 0 : Bool)) &&
  (!(inMx fin || fout = 8 || fout = 9) || cChunkElems g c % 32 = 0) &&
  (cGather g c || (if cSparse g c then 2 ^ cSlotsLog g c else if f64 = 1 then (cChunkElems g c * cSetCount g c + 4) / 5
    else cChunkElems g c) ≤ 4194304)

/-- R199: a home list within its section, of Kresia of the domain. -/
def homesOk (g : Image) (kind off h : Nat) (kres : List Nat) : Bool :=
  off + 4 * h ≤ (sec g kind).bytes &&
  (List.range h).all fun j =>
    let v := le g ((sec g kind).off + off + 4 * j) 4
    v < 2 ^ 17 && kres.contains v

/-- R200: the byte limits of a record's chunk under the formats of one FULL entry that names it. -/
def chunkFits (g : Image) (c i : Nat) : Bool :=
  let ce := cChunkElems g c
  let inF := entF g i 16 1
  let outOf (n : Nat) : Nat :=
    if cBlocked g c then ofmtWidth (progOut (collProg g c)).1 * n
    else if cGather g c then inBytes inF n
    else (outBytes (entF g i 17 1) n).getD 0
  if cSparse g c then 2 ^ cSlotsLog g c * (4 + outOf 1) ≤ 65536 else outOf ce ≤ 65536 && inBytes inF ce ≤ 131072

/-- R199, R200: a collective's record. -/
def collOk (g : Image) (c : Nat) (kres : List Nat) : Bool :=
  let o := collAt g c
  let fulls := namedBy g 3 c
  let blocks := namedBy g 4 c
  let ce := cChunkElems g c
  let us := cTimeoutUs g c
  let mx := fulls.any fun i => inMx (entF g i 16 1) || entF g i 17 1 = 8 || entF g i 17 1 = 9
  cKind g c ≤ 3 && le g (o + 1) 1 < 4 && -149 ≤ cShift g c && cShift g c ≤ 111 && 1 ≤ cWindow g c && cWindow g c ≤ 1024 &&
  le g (o + 16) 4 < 2 ^ 20 && 1 ≤ cSetCount g c && cSetCount g c ≤ 2 ^ 20 && le g (o + 24) 4 < 2 ^ 20 &&
  1 ≤ cDestCount g c && cDestCount g c ≤ 2 ^ 20 && cSrcAddr g c % 64 = 0 && cDstAddr g c % 64 = 0 &&
  1 ≤ cHomes g c && cHomes g c ≤ 65536 && homesOk g 5 (cHomesOff g c) (cHomes g c) kres &&
  10 ≤ us && us ≤ 100000 && zeros g (o + 60) 4 &&
  (if cSparse g c then
    ce = 0 && 6 ≤ cRangeLog g c && cRangeLog g c ≤ 24 && 6 ≤ cSlotsLog g c && cSlotsLog g c ≤ 13 &&
    cElems g c % 2 ^ cRangeLog g c = 0 && !mx && cKind g c < 2
  else 1 ≤ ce && ce ≤ 32768 && cRangeLog g c = 0 && cSlotsLog g c = 0 && (!mx || ce % 32 = 0)) &&
  fulls.all (chunkFits g c) &&
  (cKind g c < 2 || (blocks.isEmpty && fulls.all fun i => entF g i 17 1 = entF g i 16 1)) &&
  (cKind g c ≠ 3 || cSetCount g c = 1) && (!cBlocked g c || !blocks.isEmpty)

/-! ### Layers (R250, R251) -/

/-- R250: the fields of a layer record. -/
def layerOk (g : Image) (l : Nat) : Bool :=
  let o := layAt g l
  let per := le g (o + 40) 4
  let grp := le g (o + 28) 4
  let capMax := if lCapOff g l = 0 then 1 else lExperts g l
  lMode g l ≤ 1 && 1 ≤ lChoices g l && lChoices g l ≤ 8 &&
  (if lMode g l = 1 then lFmt g l ≤ 1 && lWeightMode g l ≤ 1 else lFmt g l = 0 && lWeightMode g l = 0) &&
  1 ≤ lExperts g l && lExperts g l ≤ (if lMode g l = 1 then 256 else 65536) && 1 ≤ lToks g l && lToks g l ≤ 65536 &&
  (lCapOff g l ≠ 0 || (1 ≤ le g (o + 12) 4 && le g (o + 12) 4 ≤ 2 ^ 20)) &&
  (lCapOff g l = 0 || (sec g 8).bytes < lCapOff g l + 4 * lExperts g l || (List.range capMax).all fun e => 1 ≤ lCap g l e && lCap g l e ≤ 2 ^ 20) &&
  le g (o + 20) 4 < 2 ^ 20 && 1 ≤ lSetCount g l && lSetCount g l ≤ 2 ^ 20 && 1 ≤ grp && lSetCount g l % grp = 0 &&
  le g (o + 36) 4 < 2 ^ 20 && 1 ≤ per && per ≤ 65536 && 64 ≤ lPayload g l && lPayload g l ≤ 65536 && lPayload g l % 64 = 0 &&
  lRet g l ≤ lPayload g l && lRet g l % 64 = 0 && lPlane g l ≤ 7 && zeros g (o + 59) 5 && zeros g (o + 104) 24 &&
  lTokAddr g l % 64 = 0 && lSrcAddr g l % 64 = 0 && lPlanAddr g l % 64 = 0 && lRecvAddr g l % 64 = 0 && lRetAddr g l % 64 = 0

/-- R251: the detail of a DISPATCH entry. -/
def layerFault (g : Image) (i : Nat) (kres : List Nat) : Option Code :=
  let l := entRef g i
  let homes := le g (layAt g l + 32) 4
  if !layerOk g l then some 0x6101
  else if entF g i 17 1 = 0 || 8 < entF g i 17 1 || lChoices g l < entF g i 17 1 || 2 < entF g i 16 1 then some 0x6102
  else if 2 ^ 20 < lPer g l * lToks g l || (lCapOff g l ≠ 0 && (sec g 8).bytes < lCapOff g l + 4 * lExperts g l) ||
      !homesOk g 8 homes (lGroups g l) kres ||
      (List.range (lGroups g l)).any fun j => ksPlane (le g ((sec g 8).off + homes + 4 * j) 4) ≠ lPlane g l then some 0x6103
  else if (lHosts g l).any fun p => imgPositions g ≤ p then some 0x6104
  else if (namedBy g 5 l).head? ≠ some i then some 0x6105
  else none

/-! ### Regions and counter sets (R326, R361) -/

/-- R326: a region record. -/
def regionOk (g : Image) (r : Nat) (kres : List Nat) : Bool :=
  let o := regAt g r
  let h := le g (o + 12) 4
  let pos (j : Nat) : Nat := le g ((sec g 9).off + rListOff g r + 4 * j) 4
  let uses (p : Nat) : Bool :=
    (List.range (collCount g)).any (fun c =>
      (cSetFirst g c ≤ p && p < cSetFirst g c + cSetCount g c) || (cDestFirst g c ≤ p && p < cDestFirst g c + cDestCount g c)) ||
    (List.range (layCount g)).any fun l => lInSet g l p || (lHosts g l).contains p
  zeros g (o + 2) 2 &&
  (if rKind g r = 0 then
    le g (o + 1) 1 < 4 && 1 ≤ h && h ≤ 65536 && rBytes g r % (64 * h) = 0 && homesOk g 9 (rListOff g r) h kres && zeros g (o + 28) 36
  else
    rKind g r = 1 && zeros g (o + 1) 1 && rBytes g r = 0 && 1 ≤ h && h ≤ 4096 && rListOff g r + 4 * h ≤ (sec g 9).bytes &&
    ((List.range h).all fun j => pos j < imgPositions g && !uses (pos j)) && 2 ≤ rSlots g r && 1 ≤ le g (o + 30) 1 &&
    le g (o + 30) 1 ≤ 100 && zeros g (o + 31) 33)

/-- The checkpoint-target records. -/
def targets (g : Image) : List Nat := (List.range (sec g 9).count).filter fun r => rKind g r = 1

/-- R361: a record of COUNTER_SETS. A Baxel selector's event in the privileged page stands below 0x1000. -/
def counterSetOk (g : Image) (r : Nat) : Bool :=
  let o := (sec g 11).off + 256 * r
  let n := le g o 2
  let v (i : Nat) : Nat := le g (o + 16 + 8 * i) 8
  1 ≤ n && n ≤ 30 && zeros g (o + 2) 14 && zeros g (o + 16 + 8 * n) (240 - 8 * n) &&
  (List.range n).all fun i =>
    let q : Selector :=
      { event := v i % 2 ^ 20, part := if v i / 2 ^ 20 % 2 = 1 then .kresia else .baxel, port := v i / 2 ^ 21 % 2 ^ 8,
        portEn := v i / 2 ^ 29 % 2 = 1, cls := v i / 2 ^ 30 % 8, clsEn := v i / 2 ^ 33 % 2 = 1 }
    v i < 2 ^ 34 && (selCode q).isNone && !(q.part = .baxel && 4 * q.event < 0x1000)

/-! ### Entries (R150 to R155, R161, R162) -/

/-- R151: whether a TYPE takes a SITE. -/
def siteOk (ty site : Nat) : Bool :=
  if ty = 1 || ty = 2 || ty = 7 then site = 0
  else if ty = 8 || ty = 9 then site ≤ 2
  else site = 2

/-- R152: the bytes of a body that its type does not name. -/
def bodyZero (g : Image) (i : Nat) : Bool :=
  let z (a b : Nat) : Bool := zeros g (entAt g i + a) (b - a)
  match entType g i with
  | 1 => z 16 64
  | 2 => z 26 64
  | 3 => z 24 64
  | 4 => z 24 64
  | 5 => z 18 64
  | 6 => z 17 64
  | 7 => z 20 64
  | 8 => z 25 26 && z 28 64
  | 9 => z 21 24 && z 36 64
  | 10 => z 18 20 && z 28 64
  | _ => true

/-- R150, R153, R155: the head of an entry; k LAUNCH entries follow the BARRIER. -/
def entHeadOk (g : Image) (k i : Nat) : Bool :=
  let ty := entType g i
  let q := le g (entAt g i + 2) 1
  let lead := i ≤ k
  1 ≤ ty && ty ≤ 10 && le g (entAt g i + 1) 1 < 2 && q < 64 && zeros g (entAt g i + 3) 1 && siteOk ty (entSite g i) &&
  (if i = 0 then ty = 1 else if lead then ty = 2 else ty ≠ 1 && ty ≠ 2) && 1 ≤ k && k ≤ 8 &&
  (!lead || (entQueue g i = 0 && entPeriod g i = 0)) && entPhase g i < max 1 (entPeriod g i) &&
  (entDoneObj g i = 0xFFFF || (ty ≠ 9 && 1 ≤ entDoneN g i)) && bodyZero g i

/-- R318: a MIRROR entry. -/
def mirrorOk (g : Image) (i : Nat) : Bool :=
  let c := entRef g i
  let mode := entF g i 16 1
  let same := (namedBy g 6 c).filter fun j => entF g j 16 1 = mode
  mode ≤ 2 && same.head? = some i &&
  (if mode = 1 then (targets g).length = 1
  else
    cBlocked g c && (match entryFor g 4 c with
      | some b => entPeriod g b = entPeriod g i && entPhase g b = entPhase g i
      | none => false) &&
    (mode = 0 || (mirrorEntry g c 0).isSome))

/-- What the domain is, as the checks look at it: its Kresia, the fewest planes of a member, and the build's planes. -/
structure LoadCtx where
  kres : List Nat
  fewest : Nat
  planes : Nat

/-- R151, R152 and the records an entry names. -/
def entFault (g : Image) (x : LoadCtx) (k i : Nat) : Option LoadFault :=
  let r := entRef g i
  let bad := badEntry i
  let coll := r < collCount g
  let site2 := entSite g i ≠ 2 || (if entType g i = 8 then entF g i 26 2 else entF g i 34 2) < collCount g
  let blk (d : Option (Code × Nat)) : Option LoadFault := d.map fun v => { code := 0x2024, entry := some i, detail := some v }
  if !entHeadOk g k i then bad
  else match entType g i with
  | 1 => if r = 0 then none else bad
  | 2 =>
    if (tmplsOf g r).isEmpty || !coverOk g r || (!slotBell g r && !zeros g (entAt g i + 16) 10) then bad else none
  | 3 => if coll && fullOk g i && collOk g r x.kres then none else bad
  | 4 =>
    let fulls := namedBy g 3 r
    if !coll || cGather g r || (fulls.any fun f => entF g f 16 1 = 0x20) then bad
    else match blk (progFault g (entF g i 16 4)) with
      | some f => some f
      | none => match blk (scalarFault g (entF g i 20 4)) with
        | some f => some f
        | none =>
          if !collOk g r x.kres then bad
          else if !cBlocked g r || 1 < (namedBy g 4 r).length || fulls.isEmpty ||
              (fulls.any fun f => entPeriod g f ≠ entPeriod g i || entPhase g f ≠ entPhase g i) then blk (some (0x5107, 0))
          else none
  | 5 =>
    if layCount g ≤ r then bad
    else (layerFault g i x.kres).map fun c => { code := 0x2024, entry := some i, dsp := true, detail := some (c, i) }
  | 6 =>
    if !coll || !collOk g r x.kres || !mirrorOk g i || (entF g i 16 1 = 1 && !((targets g).all fun t => regionOk g t x.kres)) then bad
    else if entF g i 16 1 = 2 && ((x.planes ≠ 4 && x.planes ≠ 8) || x.fewest < 4) then some { code := 0x9009, entry := some i }
    else none
  | 7 =>
    if r < (sec g 11).count && counterSetOk g r && -(imgWindow g : Int) ≤ leS g (entAt g i + 16) 4 then none else bad
  | 8 => if r ≤ 0xFFFF && 1 ≤ entF g i 16 4 && entF g i 16 4 < 2 ^ 31 && entF g i 24 1 ≤ 1 && site2 then none else bad
  | 9 =>
    if 1 ≤ entF g i 16 4 && entF g i 16 4 < 2 ^ 31 && entF g i 20 1 ≤ 1 && site2 &&
        (if entF g i 20 1 = 0 then r ≤ 0xFFFF else entF g i 24 8 % 64 = 0) then none else bad
  | 10 =>
    if r < (sec g 9).count && rKind g r = 0 && regionOk g r x.kres && entF g i 20 4 + entF g i 24 4 ≤ imgPositions g then none else bad
  | _ => bad

/-- R159: one SCHEDULE record for each body entry, none for another. -/
def schedRecs (g : Image) (i : Nat) : List Nat :=
  (List.range (sec g 0x0A).count).filter fun j => le g ((sec g 0x0A).off + 12 * j) 2 = i
def schedOk (g : Image) (i : Nat) : Bool :=
  match schedRecs g i with
  | [j] =>
    let o := (sec g 0x0A).off + 12 * j
    zeros g (o + 2) 2 && leS g (o + 4) 4 < leS g (o + 8) 4
  | _ => false

/-- R166: the first entry of a bell program that has no place in it. -/
def bellFault (g : Image) : Option LoadFault :=
  match (launches g).find? fun i => slotBell g (entRef g i) with
  | none => none
  | some b =>
    match (List.range (imgEntries g)).find? fun i => i ≠ 0 && i ≠ b && entType g i ≠ 7 with
    | some i => badEntry i
    | none => none

/-- R166, check 7. Records that no entry names are held to the same tables, without an entry. -/
def entriesFault (g : Image) (x : LoadCtx) : Option LoadFault :=
  let n := imgEntries g
  let k := ((List.range n).drop 1 |>.takeWhile fun i => entType g i = 2).length
  ((List.range n).findSome? fun i => entFault g x k i) <|>
  failIf ((List.range (sec g 2).count).any fun i => !coverOk g (tmplSlot g i)) 0x2024 <|>
  failIf ((List.range (collCount g)).any fun c => !collOk g c x.kres) 0x2024 <|>
  failIf ((List.range (sec g 9).count).any fun r => !regionOk g r x.kres) 0x2024 <|>
  failIf ((List.range (sec g 11).count).any fun r => !counterSetOk g r) 0x2024 <|>
  bellFault g <|>
  (if imgMode g = 0 then none
  else
    ((List.range n).findSome? fun i => if entType g i ≤ 2 || schedOk g i then none else badEntry i) <|>
    failIf ((List.range (sec g 0x0A).count).any fun j =>
      let e := le g ((sec g 0x0A).off + 12 * j) 2
      n ≤ e || entType g e ≤ 2) 0x2024)

/-- R161, check 8. -/
def modeFault (g : Image) : Option LoadFault :=
  if imgMode g = 0 then none
  else (List.range (imgEntries g)).findSome? fun i =>
    if entType g i = 8 || entDoneObj g i ≠ 0xFFFF then some { code := 0x202F, entry := some i } else none

/-- R162, check 9. -/
def varFault (g : Image) : Option LoadFault :=
  (List.range (imgEntries g)).findSome? fun i =>
    let q := entF g i 20 4
    if entVar g i then none
    else if (entType g i = 3 && (entF g i 19 1 = 2 || (0 < q && q < cSetCount g (entRef g i)))) ||
        (entType g i = 8 && entF g i 24 1 = 1) then some { code := 0x2025, entry := some i }
    else none

/-- R165: the trackers the grants ask at a receiver of a class. -/
def grantNeed (g : Image) (positions kres r : Nat) : Nat :=
  let rows := (List.range (sec g 4).count).map fun i => (sec g 4).off + 4 * i
  sumBy (rows.filter fun o => le g (o + 1) 1 = r) fun o => (if le g o 1 = 0 then positions else kres) * le g (o + 2) 2

/-- R137, R165, check 11: the trackers a program asks of each member's tenant and of a Kresia, against their partitions. -/
def grantFault (g : Image) (positions kres : Nat) (f : LoadFacts) : Option LoadFault :=
  let bad := (List.range (sec g 4).count).any fun i =>
    1 < le g ((sec g 4).off + 4 * i) 1 || 1 < le g ((sec g 4).off + 4 * i + 1) 1
  let part (i : Nat) : Nat := ((f.parts.find? fun q => q.1 = i).map (·.2)).getD 2048
  failIf (bad || ((List.range positions).any fun i => part i < grantNeed g positions kres 0) ||
    65536 < grantNeed g positions kres 1) 0x2027

end Sys2Proof.Machine
end

