-- ==== Sys2Proof/Machine/CmdProg.lean ====
section
/-! DEFINITION. Mailbox commands of step programs: `prog.load`, `prog.replace`, `prog.cancel`, `prog.unload` (R166 to R172)
and `bell.change` (R105). -/

namespace Sys2Proof.Machine

/-! ### The crown's commands (R392) -/

/-- R392: a command that only the crown of its domain takes. -/
def State.atCrown (s : State) (m k d : Nat) (f : State) : State :=
  let x := s.dom d
  if x.isCrown then f
  else s.wrongPart .kresia m k (if x.positions.isEmpty then none else some (2 ^ 20 + x.crown))

/-! ### Templates (R163, R164, R167) -/

/-- R163: the template of a record, with DOMAIN and TENANT of the binding. -/
def templateOf (g : Image) (i d tenant : Nat) : Template :=
  let o := tmplAt g i
  let c := tmplCtrl g i
  let bit (n : Nat) : Bool := c / 2 ^ n % 2 = 1
  { kernel := BitVec.ofNat 32 (le g (o + 12) 4), domain := d, tenant := tenant, shadow := bit 2, bell := bit 3
    gate0En := bit 4, gate1En := bit 5, gateWait := le g (o + 18) 2, rowMask := BitVec.ofNat 64 (le g (o + 20) 8)
    gate0Obj := le g (o + 28) 4 % 2 ^ 12, gate0N := le g (o + 28) 4 / 2 ^ 12 % 2 ^ 19
    gate1Obj := le g (o + 32) 4 % 2 ^ 12, gate1N := le g (o + 32) 4 / 2 ^ 12 % 2 ^ 19 }

/-- R163, R164, R167: what the crown sends to the firmware at one position. -/
def loadFor (x : Domain) (d : Nat) (g : Image) (pos kres : Nat) (replace : Bool) : TemplateLoad :=
  let e := (x.pos pos).e
  let recs := (List.range (sec g 2).count).filter fun i => tmplFirst g i ≤ pos && pos < tmplFirst g i + tmplCount g i
  { op := .load, replace := replace, domain := d, stepFirst := imgStepFirst g
    slots := recs.map fun i => (tmplSlot g i, templateOf g i d e.tenant)
    objs := (objDecls g).filter (!·.cluster), image := g, position := pos, group := e.group, port := e.port
    peers := x.positions.map fun p => (p.e.member, p.e.group)
    v2Peers := (x.positions.filter fun p => p.e.v2).map fun p => p.e.member
    trackers := grantNeed g x.positions.length kres 0 }

/-- R167: the program goes to every deputy and every other Kresia of the domain, and its templates to every member. -/
def State.distribute (s : State) (d : Nat) (g : Image) (switch : Option Nat) : State :=
  let x := s.dom d
  let deps := deputiesOf s.ks.build s.ksId
  let others := (x.kresia s.ks.build).filter fun k => k ≠ s.ksId && !deps.contains k
  let img (deputy : Bool) : Msg := .progImage
    { domain := d, crown := s.ksId, deputy := deputy, switchStep := switch, positions := x.positions.map (·.e), image := g }
  let s1 := (s.emit (.send .kresia (.kresias deps) (img true))).emit (.send .kresia (.kresias others) (img false))
  (List.range x.positions.length).foldl (fun (s : State) (i : Nat) =>
    s.emit (.send .kresia (.members [(x.pos i).e.member]) (.template (loadFor x d g i (x.kresia s.ks.build).length switch.isSome)))) s1

/-- R167: the receivers whose acknowledgement a load waits for. -/
def State.receivers (s : State) (x : Domain) : List Nat :=
  (((deputiesOf s.ks.build s.ksId ++ x.kresia s.ks.build).filter (· ≠ s.ksId)).eraseDups.map (2 ^ 20 + ·)) ++
  x.positions.map fun p => p.e.member

/-! ### The checks (R166) -/

/-- R282: planes a member of this build has. -/
def State.planesOf (s : State) (member : Nat) : Nat :=
  s.ks.build.planes - (s.ks.lostPlanes.filter fun q => q.1 = member).length

/-- R166: the first check an image fails, of a staged area; `busy` is the last. How the crown learns what `f` says of the
other parts the manual does not state (DESIGN CHOICE, log 152). -/
def State.imageFault (s : State) (d : Nat) (area : List Byte) (f : LoadFacts) (busy : Bool) : Option LoadFault :=
  let x := s.dom d
  if !formatOk area then failIf true 0x2020
  else
    let g := area.take (imgBytes area)
    let members := x.positions.map fun p => p.e.member
    let v2 := x.positions.any fun p => p.e.v2
    let kres := x.kresia s.ks.build
    let ctx : LoadCtx := ⟨kres, (members.map s.planesOf).foldl min s.ks.build.planes, s.ks.build.planes⟩
    failIf (imageDigest g ≠ imgDigest g) 0x2021 <|>
    failIf (imgPositions g ≠ x.positions.length || members.any fun q => s.planesOf q < imgPlanesMin g) 0x202E <|>
    failIf (imgWindow g < 1000 || 1000000 < imgWindow g || imgFlight g < 500 || 100000 < imgFlight g ||
      10000000 < imgLead g || imgLead g < imgWindow g + imgFlight g + 2000) 0x200D <|>
    failIf (v2 && imgMode g = 0) 0x2022 <|>
    failIf (v2 && imgFlags g &&& 0x3A ≠ 0) 0x2023 <|>
    entriesFault g ctx <|> modeFault g <|> varFault g <|>
    failIf (!s.hasRoom d g (x.positions.map (·.e)) || kres.any f.noRoom.contains) 0x2026 <|>
    grantFault g x.positions.length kres.length f <|>
    failIf busy 0x2029

/-- R240, R251: the detail words of a refused load. -/
def State.noteDetail (s : State) (f : LoadFault) : State :=
  match f.detail with
  | none => s
  | some (c, i) => s.wr .kresia (if f.dsp then 0x170040 else 0x160040) (BitVec.ofNat 32 (c.toNat + i % 2 ^ 16 * 2 ^ 16))

/-- R166: a load or replace refused, with the index of the entry at fault where there is one. -/
def State.refuseImage (s : State) (d m k : Nat) (f : LoadFault) : State :=
  (s.noteDetail f).progEnd d m k f.code (match f.entry with
    | some i => leBytes 4 i
    | none => [])

/-- The wait of a load or replace; without another receiver it is complete at once. -/
def State.awaitLoad (s : State) (d m k kind : Nat) (g : Image) (switch : Nat) : State :=
  let l := s.receivers (s.dom d)
  if l.isEmpty then
    let s1 := s.progEnd d m k 0
    if kind = 0 then s1.beginRun d g else s1
  else s.modDom d fun y => { y with wait := some { kind := kind, mailbox := m, mslot := k, waiting := l, image := g, switchStep := switch } }

/-- PROG_LOAD (R148, R166, R167, R441). -/
def execProgLoad (p : Part) (m k : Nat) (f : LoadFacts) (s : State) : Answer :=
  .next (s.serve p m k 0x0401 fun s t =>
    let d := t.domain
    let x := s.dom d
    s.atCrown m k d (
      if !s.ksReady then s.progEnd d m k 0x1010
      else match s.stageOf m (t.f 8 4) with
      | none => s.progEnd d m k 0xA109
      | some area => match s.imageFault d area f (x.prog.isSome || x.wait.isSome) with
        | some e => s.refuseImage d m k e
        | none =>
          let g := area.take (imgBytes area)
          ((s.loadHere d g).distribute d g none).awaitLoad d m k 0 g 0))

/-! ### Replacing (R169) -/

/-- R169: whether a new template names a slot of the old program without being identical, at some position. -/
def slotClash (old new : Image) : Bool :=
  (List.range (sec new 2).count).any fun i => (List.range (sec old 2).count).any fun j =>
    tmplSlot new i = tmplSlot old j && tmplFirst new i < tmplFirst old j + tmplCount old j &&
    tmplFirst old j < tmplFirst new i + tmplCount new i &&
    ((new.drop (tmplAt new i + 12)).take 24 ≠ (old.drop (tmplAt old j + 12)).take 24)

/-- PROG_REPLACE (R166, R169). -/
def execProgReplace (p : Part) (m k : Nat) (f : LoadFacts) (s : State) : Answer :=
  .next (s.serve p m k 0x0402 fun s t =>
    let d := t.domain
    let x := s.dom d
    let n := t.f 12 6
    s.atCrown m k d (
      if !s.ksReady then s.progEnd d m k 0x1010
      else match s.stageOf m (t.f 8 4), x.prog with
      | none, _ => s.progEnd d m k 0xA109
      | some _, none => s.progEnd d m k 0xA110
      | some area, some old => match s.imageFault d area f false with
        | some e => s.refuseImage d m k e
        | none =>
          let g := area.take (imgBytes area)
          if n < x.step + 2 || imgStepFirst g ≠ n || slotClash old g || x.next.isSome || x.unloading.isSome then s.progEnd d m k 0x202A
          else ((s.modDom d fun y => { y with next := some (g, n) }).distribute d g (some n)).awaitLoad d m k 1 g n))

/-- PROG_CANCEL (R169): until the barrier of SWITCH_STEP completes. -/
def execProgCancel (p : Part) (m k : Nat) (s : State) : Answer :=
  .next (s.serve p m k 0x0403 fun s t =>
    let d := t.domain
    s.atCrown m k d (match (s.dom d).next with
      | none => s.progEnd d m k 0x202A
      | some (g, n) =>
        (s.withdrawLoad d { kind := 1, mailbox := m, mslot := k, waiting := [], image := g, switchStep := n }).progEnd d m k 0))

/-- PROG_UNLOAD (R171): the crown stops arming; with no step tamped, or HELD, the unload takes effect at once. A pending
replace is withdrawn first (DEDUCED, log 54). -/
def execProgUnload (p : Part) (m k : Nat) (s : State) : Answer :=
  .next (s.serve p m k 0x0404 fun s t =>
    let d := t.domain
    let x := s.dom d
    s.atCrown m k d (
      if x.prog.isNone then s.progEnd d m k 0xA110
      else
        let s0 := match x.next with
          | none => s
          | some (g, n) => s.withdrawLoad d { kind := 1, mailbox := m, mslot := k, waiting := [], image := g, switchStep := n }
        let s1 := s0.modDom d fun y => { y with unloading := some (m, k), toArm := [] }
        if x.phase = .held || !x.everTamped then s1.unloadNow d
        else (s1.afterTamp d).tryBarrier d))

/-! ### Bells (R105) -/

/-- R105: why a change of a series is refused with S_BELL_CHANGE. A series that a void ended, and one not yet tamped again,
has no instants; a change that waits for a record counts as armed (DEDUCED, log 143). -/
def State.bellBad (s : State) (d : Nat) (t : Taken) : Bool :=
  let x := s.dom d
  let i := t.f 8 4
  let op := t.f 12 1
  let at' := leOt t.bytes 16
  let period := t.f 28 6
  match x.prog, x.series with
  | some g, some sr =>
    let diff := otDiff at' sr.g0
    let k := (diff / sr.period).toNat
    x.phase ≠ .tamped || !(launches g).contains i || !slotBell g (entRef g i) || 1 < op || diff < 0 || diff % sr.period ≠ 0 ||
    sr.bells.any (· ≤ k) || otDiff at' (s.otNow .kresia) < ((imgLead g * 65536 : Nat) : Int) ||
    (op = 1 && (period < 655360000 || 65536000000000 < period)) || x.changeWait.isSome ||
    x.recs.any fun r => match r.change with
      | some c => 0 ≤ otDiff c.at' (s.otNow .kresia)
      | none => false
  | _, _ => true

/-- BELL_CHANGE (R27, R105): the crown arms the change as it arms a launch. -/
def execBellChange (p : Part) (m k : Nat) (s : State) : Answer :=
  .next (s.serve p m k 0x0405 fun s t =>
    let d := t.domain
    s.atCrown m k d (
      if (leOt t.bytes 16).malformed then s.complete .kresia m k 0x1003
      else if s.bellBad d t then s.complete .kresia m k 0x2016
      else match (s.dom d).prog with
      | none => s
      | some g =>
        let i := t.f 8 4
        let at' := leOt t.bytes 16
        let cancel : Bool := t.f 12 1 = 0
        let r : ArmRec :=
          { step := (s.dom d).step, entry := i, slot := entRef g i, seq := 0, due := at', adl := adlOf at' g
            period := if cancel then 0 else t.f 28 6, bells := if cancel then 0 else t.f 36 4
            change := some { mailbox := m, mslot := k, cancel := cancel, at' := at', period := t.f 28 6, count := t.f 36 4 } }
        s.armChange d g r))

end Sys2Proof.Machine
end

