-- ==== Sys2Proof/Machine/CmdDomain.lean ====
section
/-! DEFINITION. Mailbox commands of domains: `domain.create`, `domain.destroy`, `tenant.unbind`, `spare.bind`,
`domain.release`, `domain.rollback`, `crown.promote` (R17, R18, R20, R100, R107, R328, R329, R331, R392). -/

namespace Sys2Proof.Machine

/-! ### Position maps (R202, R392) -/

/-- R392: entry i of a position map, and whether its bytes are ones the table allows. -/
def mapEntry (v2 : List Nat) (bs : List Byte) (i : Nat) : PosEntry :=
  let o := 16 * i
  { member := le bs o 3, tenant := le bs (o + 3) 1, group := le bs (o + 4) 2, port := le bs (o + 6) 1
    v2 := v2.contains (le bs o 3) }
def mapEntryOk (bs : List Byte) (i : Nat) : Bool :=
  let o := 16 * i
  le bs o 3 < 2 ^ 20 && le bs (o + 3) 1 < 4 && le bs (o + 4) 2 < 2 ^ 12 && le bs (o + 6) 1 < 128 && le bs (o + 7) 9 = 0

/-- R17: whether a tenant of a member stands bound in a domain crowned here. What other crowns have bound the firmware
knows by means the manual does not give: an operand of the command says it (log 144). -/
def State.tenantBound (s : State) (e : PosEntry) : Bool :=
  s.ks.doms.any fun (_, x) => x.isCrown && x.positions.any fun q => q.bound && q.e.member = e.member && q.e.tenant = e.tenant

/-- R202, R329: the position map as it stands goes to the other Kresia of the domain. -/
def State.sendMap (s : State) (d : Nat) (dest : List Nat) (l : List PosEntry) : State :=
  s.emit (.send .kresia (.kresias (dest.filter (· ≠ s.ksId))) (.progImage { domain := d, crown := s.ksId, mapOnly := true, positions := l }))

/-- R17: a binding, or its end, sent to members. -/
def State.sendBinding (s : State) (d pos : Nat) (e : PosEntry) (bound : Bool) (dest : List Nat) : State :=
  s.emit (.send .kresia (.members dest) (.binding ⟨d, e.member, e.tenant, bound, pos, e.group, e.port, e.v2⟩))

/-- The Kresia that hold a domain's map: its own, and the crown's deputies. -/
def State.mapHolders (s : State) (x : Domain) : List Nat := (x.kresia s.ks.build ++ deputiesOf s.ks.build s.ksId).eraseDups

/-- DOMAIN_CREATE (R17, R20, R392): a spine takes the domain as its crown, with the staged position map. Whether a member
is a Baxel 2.x is no part of the map (log 30). -/
def execDomainCreate (p : Part) (m k : Nat) (v2 : List Nat) (elsewhere : List (Nat × Nat)) (s : State) : Answer :=
  .next (s.serve p m k 0x0203 fun s t =>
    let d := t.domain
    let n := t.f 8 4
    if !s.isSpine then s.wrongPart .kresia m k none
    else if !(s.dom d).positions.isEmpty then s.complete .kresia m k 0xA110
    else if n = 0 || 2 ^ 20 < n then s.complete .kresia m k 0xA103
    else match s.stageOf m (t.f 12 4) with
    | none => s.complete .kresia m k 0xA109
    | some bs =>
      if bs.length < 16 * n then s.complete .kresia m k 0xA10A
      else
        let l := (List.range n).map (mapEntry v2 bs)
        let taken (i : Nat) : Bool :=
          s.tenantBound (mapEntry v2 bs i) || elsewhere.contains ((mapEntry v2 bs i).member, (mapEntry v2 bs i).tenant) ||
          (List.range i).any fun j => le bs (16 * i) 4 = le bs (16 * j) 4
        match (List.range n).find? fun i => !mapEntryOk bs i with
        | some i => s.complete .kresia m k 0xA103 (leBytes 4 i)
        | none => match (List.range n).find? taken with
          | some i => s.complete .kresia m k 0x2001 (leBytes 4 i)
          | none =>
            let ps : List Position := l.map s.newPos
            let x0 : Domain := { isCrown := true, crown := s.ksId, phase := .idle, positions := ps }
            let s1 := s.modKs fun z => { z with doms := FMap.set z.doms d x0 }
            let s2 := s1.sendMap d (s1.mapHolders (s1.dom d)) l
            ((List.range n).foldl (fun (s : State) (i : Nat) =>
              let e := mapEntry v2 bs i
              s.sendBinding d i e true [e.member]) s2).complete .kresia m k 0)

/-- DOMAIN_DESTROY: every binding ends and the domain is gone, unless a program is loaded. -/
def execDomainDestroy (p : Part) (m k : Nat) (s : State) : Answer :=
  .next (s.serve p m k 0x0204 fun s t =>
    let d := t.domain
    let x := s.dom d
    s.atCrown m k d (
      if x.prog.isSome || x.wait.isSome then s.complete .kresia m k 0xA110
      else
        let bound := (List.range x.positions.length).filter fun i => (x.pos i).bound
        let s1 := bound.foldl (fun (s : State) (i : Nat) => s.sendBinding d i (x.pos i).e false [(x.pos i).e.member]) s
        ((s1.sendMap d (s1.mapHolders x) []).modKs fun z => { z with doms := FMap.erase z.doms d }).complete .kresia m k 0))

/-- TENANT_UNBIND (R18): one tenant is withdrawn from its domain; its position is vacant. -/
def execTenantUnbind (p : Part) (m k : Nat) (s : State) : Answer :=
  .next (s.serve p m k 0x0205 fun s t =>
    let d := t.domain
    let i := t.f 8 4
    let x := s.dom d
    s.atCrown m k d (
      if x.positions.length ≤ i then s.complete .kresia m k 0xA103
      else if !(x.pos i).bound then s.complete .kresia m k 0
      else
        let s1 := s.modDom d fun y => { y with positions := y.positions.modify i fun q => { q with bound := false, vacant := true } }
        (s1.sendBinding d i (x.pos i).e false [(x.pos i).e.member]).complete .kresia m k 0))

/-! ### Spares (R329) -/

/-- R329: why a spare is refused at a position. -/
def State.spareCode (s : State) (d i : Nat) (e : PosEntry) (f : SpareFacts) : Option Code :=
  let x := s.dom d
  let q := x.pos i
  if x.positions.length ≤ i || 2 ^ 20 ≤ e.member || 4 ≤ e.tenant then some 0xA103
  else if q.bound && !q.vacant then some 0x9012
  else if f.single then some 0x9001
  else if f.bound || s.tenantBound e then some 0x2001
  else if !f.locked then some 0x1010
  else if f.v2 && (x.prog.toList ++ x.next.toList.map (·.1)).any fun g => imgMode g = 0 then some 0x2022
  else none

/-- R329, R167: the spare's templates and objects, of the program loaded and of a pending one; it joins under the epoch,
sequence and step of its domain (DEDUCED, log 57). -/
def State.loadSpare (s : State) (d i : Nat) : State :=
  let x := s.dom d
  let send (s : State) (g : Image) (replace : Bool) : State :=
    s.emit (.send .kresia (.members [(x.pos i).e.member]) (.template
      { loadFor x d g i (x.kresia s.ks.build).length replace with epoch := x.epoch, seq := x.seq, named := some x.step }))
  let s1 := match x.prog with
    | some g => send s g false
    | none => s
  match x.next with
  | some (g, _) => send s1 g true
  | none => s1

/-- SPARE_BIND (R168, R202, R329): the fenced member is unbound, the map changes at every Kresia of the domain (one new to
it gets the image), and the spare is loaded. -/
def execSpareBind (p : Part) (m k : Nat) (f : SpareFacts) (s : State) : Answer :=
  .next (s.serve p m k 0x0906 fun s t =>
    let d := t.domain
    let i := t.f 8 4
    let e : PosEntry := { member := t.f 12 3, tenant := t.f 15 1, group := f.group, port := f.port, v2 := f.v2 }
    let x := s.dom d
    s.atCrown m k d (match s.spareCode d i e f with
      | some c => s.complete .kresia m k c
      | none =>
        let old := x.pos i
        let s1 := s.modDom d fun y =>
          { y with
            positions := y.positions.set i { e := e }
            arrivals := y.arrivals.filter (· ≠ i)
            suspects := y.suspects.filter (· ≠ i) }
        let y : Domain := s1.dom d
        let es : List PosEntry := y.positions.map fun q => q.e
        let s2 := if old.bound then s1.sendBinding d i old.e false [old.e.member] else s1
        let s3 := s2.sendMap d (s2.mapHolders y) es
        let fresh := (y.kresia s.ks.build).filter fun z => z ≠ s.ksId && !(x.kresia s.ks.build).contains z
        let s4 := match x.prog with
          | some g => if fresh.isEmpty then s3 else s3.emit (.send .kresia (.kresias fresh) (.progImage
              { domain := d, crown := s.ksId, positions := es, image := g }))
          | none => s3
        ((s4.sendBinding d i e true y.members).loadSpare d i).complete .kresia m k 0))

/-! ### Holding and releasing (R100, R328, R331) -/

/-- DOMAIN_RELEASE (R100, R331). -/
def execDomainRelease (p : Part) (m k : Nat) (s : State) : Answer :=
  .next (s.serve p m k 0x0908 fun s t =>
    let d := t.domain
    let x := s.dom d
    s.atCrown m k d (
      if x.phase ≠ .held then s.complete .kresia m k 0xA110
      else if x.positions.any (·.vacant) || x.lost || s.ks.fills.any fun q => q.domain = d then s.complete .kresia m k 0x9011
      else ((s.modDom d fun y => { y with phase := .gather }).complete .kresia m k 0).tryBarrier d))

/-- DOMAIN_ROLLBACK (R328): steps 2 to 4. That step c has a completed checkpoint the crown learns from the homes, by a
message that is no command here, so it stands as an operand. The members learn the new epoch and step by a VOID, whose
CAUSE the manual does not give (DEDUCED, log 58). -/
def execDomainRollback (p : Part) (m k : Nat) (completed : Bool) (s : State) : Answer :=
  .next (s.serve p m k 0x0909 fun s t =>
    let d := t.domain
    let c := t.f 8 6
    let x := s.dom d
    s.atCrown m k d (
      if x.phase ≠ .held then s.complete .kresia m k 0xA110
      else if !completed then s.complete .kresia m k 0x900D
      else
        let (v, s1) := s.draw
        let s2 := s1.emit (.send .kresia (.kresias ((x.kresia s.ks.build).filter (· ≠ s.ksId)))
          (.progImage { domain := d, crown := s.ksId, rollback := some c }))
        let s3 := (s2.endEpoch d (x.epoch + 1)).modDom d fun y =>
          { y with epoch := x.epoch + 1, seq := 0, step := c + 1, arrivals := [], lastBy := none, recs := [], lost := false, voidRun := 0 }
        let s4 := s3.broadcast d (.ctl { kind := .void, domain := d, epoch := x.epoch + 1, step := c + 1,
                                         voidedEpoch := x.epoch, cause := BitVec.ofNat 16 v })
        (s4.rollbackHome d c).complete .kresia m k 0))

/-! ### Moving the crown (R107) -/

/-- CROWN_PROMOTE (R107): a deputy becomes the crown once the crown it replaces is fenced; its first act is the void of the
unsealed step. -/
def execCrownPromote (p : Part) (m k : Nat) (s : State) : Answer :=
  .next (s.serve p m k 0x090D fun s t =>
    let d := t.domain
    let x := s.dom d
    if !x.isDeputy then
      s.wrongPart .kresia m k (if x.isCrown then some (2 ^ 20 + s.ksId) else if x.positions.isEmpty then none else some (2 ^ 20 + x.crown))
    else if !s.isFenced (2 ^ 20 + x.crown) then s.complete .kresia m k 0x2014
    else
      let s1 := s.modDom d fun y =>
        { y with isCrown := true, isDeputy := false, crown := s.ksId, oldCrown := some x.crown, heldAcks := []
                 phase := if y.prog.isNone then .idle else y.phase }
      let s2 := match x.prog with
        | some g => s1.modPc .kresia fun c =>
          { c with domRegs := FMap.update c.domRegs (d * 2 ^ 24 + 0x11001C) 0x300 fun w => w.put 8 8 (imgVoidRetry g) }
        | none => s1
      ((s2.sendMap d (s2.mapHolders (s2.dom d)) (x.positions.map (·.e))).voidStep d 0x2015).complete .kresia m k 0)

end Sys2Proof.Machine
end

