-- ==== Sys2Proof/Machine/CmdShard.lean ====
section
/-! DEFINITION. Mailbox commands of shards: `shard.write`, `shard.read` (R227, R326), `scalar.set` (R230),
`mirror.promote` (R245, R322, R324), `mirror.retarget` (R323), `home.move` (R325), `spare.fill` (R330), and the grants of
checkpoint slots (R327, R392). -/

namespace Sys2Proof.Machine

/-! ### shard.write and shard.read -/

/-- R319, R326: cells that follow one another, in runs of at most 1 MiB: (first cell, cells). -/
def runsOf : List Nat → List (Nat × Nat)
  | [] => []
  | a :: t => match runsOf t with
    | [] => [(a, 1)]
    | (b, n) :: r => if b = a + 1 && n < 1048576 then (a, n + 1) :: r else (a, 1) :: (b, n) :: r

/-- R326: what was written of a MIRRORED region goes to the partner. -/
def State.mirrorRegion (s : State) (d r : Nat) (l : List Nat) : State :=
  let x := s.dom d
  let dest := partnerOf s.ksId 0
  if s.isFenced (2 ^ 20 + dest) then s
  else (runsOf l).foldl (fun (s : State) (q : Nat × Nat) =>
    let m := FMap.getD (s.shard (shardKey d r true false)).streams 9 []
    let bs := (List.range q.2).map fun i => BitVec.ofNat 8 (FMap.getD m (q.1 + i) 0)
    s.sendPieces
      { what := 2, receiver := 2 ^ 20 + dest, domain := d, cls := 5, addr := 0, sigObj := x.cobjBase + x.cobjCount, data := bs,
        rec' := r, chunk := q.1, step := x.step
        mirror := some { region := true, coll := r, chunk := q.1, step := x.step, home := s.ksId, bytes := bs.length } }) s

/-- SHARD_WRITE (R227, R326). Whether the domain is HELD the crown knows; another Kresia learns it by no message the manual
names, so it stands as an operand (log 62). -/
def execShardWrite (p : Part) (m k : Nat) (held : Bool) (s : State) : Answer :=
  .next (s.serve p m k 0x0501 fun s t =>
    let d := t.domain
    let x := s.dom d
    let still : Bool := x.progState = 2 || (if x.isCrown then decide (x.phase = .held) else held)
    match s.shardRange d t with
    | .cells key stream w l _ =>
      if !still then s.complete .kresia m k 0x5003
      else match s.stageOf m (t.f 20 4) with
      | none => s.complete .kresia m k 0xA109
      | some bs =>
        if bs.length < w * l.length then s.complete .kresia m k 0xA10A
        else
          let vs := (List.range l.length).map fun i => le bs (w * i) w
          let s1 := s.modShard key fun h => (l.zip vs).foldl (fun (h : Shard) (q : Nat × Nat) => h.putAt stream q.1 q.2) h
          let region : Bool := t.f 10 1 % 2 = 1
          let s2 := if region && x.prog.any (fun g => rMirrored g (t.f 8 2)) then s1.mirrorRegion d (t.f 8 2) l else s1
          s2.complete .kresia m k 0
    | r => s.endRange m k r)

/-- SHARD_READ (R227): as of each chunk's last commit. -/
def execShardRead (p : Part) (m k : Nat) (s : State) : Answer :=
  .next (s.serve p m k 0x0502 fun s t => s.shardRead m k t)

/-! ### scalar.set -/

/-- R230, R248: why a host value is refused. -/
def Domain.scalarCode (x : Domain) (set idx from' : Nat) : Option Code :=
  match x.imageFor from' with
  | none => some 0x5005
  | some g =>
    if (sec g 7).count ≤ set || 32 ≤ idx || scalarKind g set idx ≠ 7 then some 0x5005
    else if from' < x.barriers then some 0x5004
    else if 16 ≤ (x.scalars.filter fun v => v.set = set && v.scalar = idx && x.barriers ≤ v.fromStep).length then some 0x5005
    else none

/-- SCALAR_SET (R230): the crown keeps the value, sends it to every other Kresia of the domain, and completes with the last
acknowledgement. -/
def execScalarSet (p : Part) (m k : Nat) (s : State) : Answer :=
  .next (s.serve p m k 0x0503 fun s t =>
    let d := t.domain
    let x := s.dom d
    let v : HostScalar := ⟨t.f 8 2, t.f 10 1, BitVec.ofNat 32 (t.f 12 4), t.f 16 6⟩
    s.atCrown m k d (match x.scalarCode v.set v.scalar v.fromStep with
      | some c => s.complete .kresia m k c
      | none =>
        let dest := (s.mapHolders x).filter (· ≠ s.ksId)
        let s1 := s.modDom d fun y => { y with scalars := y.scalars ++ [v] }
        if dest.isEmpty then s1.complete .kresia m k 0
        else (s1.modDom d fun y => { y with scalarWaits := y.scalarWaits ++ [⟨m, k, v, dest.map (2 ^ 20 + ·)⟩] }).emit
          (.send .kresia (.kresias dest) (.scalar ⟨d, v.set, v.scalar, v.value, v.fromStep⟩))))

/-! ### mirror.promote (R245, R322) -/

/-- R245: the latest step at or before t in which a collective's chunks were due a block. -/
def dueStep (g : Image) (c t : Nat) : Option Nat :=
  match entryFor g 4 c with
  | none => none
  | some i =>
    let n := max 1 (entPeriod g i)
    let ph := if entPeriod g i ≤ 1 then 0 else entPhase g i
    let back := (t - imgStepFirst g + n - ph % n) % n
    if t < imgStepFirst g || n ≤ ph || t - imgStepFirst g < back then none else some (t - back)

/-- R245: what a promoted chunk is. -/
inductive Verdict where
  | upToDate | unsealed | lost
  deriving DecidableEq, Repr

/-- R245, R324: a chunk judged: by its mirror, the last step tamped and the last sealed. One without a copy is lost. -/
def verdict (g : Image) (c : Nat) (m : Shard) (k : Nat) (tamped : Option Nat) (done : Nat → Bool) : Verdict :=
  let at' := FMap.find? m.blockStep k
  let has (st : Option Nat) : Bool := match st with
    | some n => at'.any (n ≤ ·)
    | none => m.holds k
  let due := tamped.bind (dueStep g c)
  if has due then .upToDate
  else match due with
  | some st =>
    if done st then .lost
    else if st ≤ imgStepFirst g then (if m.holds k then .unsealed else .lost)
    else if has (dueStep g c (st - 1)) then .unsealed else .lost
  | none => .lost

/-- R322: whether every copy of a shard of home f but this one is gone: f's other partner is fenced, or mirrors nothing. -/
def State.lastCopy (s : State) (g : Image) (c f : Nat) : Bool :=
  ([0, 2].filter fun mode => (mirrorEntry g c mode).isSome).all fun mode =>
    let q := partnerOf f mode
    q = s.ksId || s.isFenced (2 ^ 20 + q)

/-- R322: whether this Kresia's own shard of a collective had its mirror at f and has no other. -/
def State.ownBare (s : State) (g : Image) (c f : Nat) : Bool :=
  let modes := [0, 2].filter fun mode => (mirrorEntry g c mode).isSome
  (modes.any fun mode => partnerOf s.ksId mode = f) &&
  modes.all fun mode => partnerOf s.ksId mode = f || s.isFenced (2 ^ 20 + partnerOf s.ksId mode)

/-- R245, R322, R324: the shard of one collective of a failed home f. -/
def State.promoteColl (s : State) (d f : Nat) (g : Image) (c : Nat) : State :=
  let x := s.dom d
  let step := x.homeStep g
  let own := !(s.homeChunks x g c step).isEmpty
  let ks := chunksWhere x.moves g c step fun h => h = f
  let m := s.shard (shardKey d c false true)
  let done (st : Nat) : Bool := if x.isCrown then st < x.step else x.lastTamp.any fun q => st < q.1
  let vs := ks.map fun k => (k, verdict g c m k (x.lastTamp.map (·.1)) done)
  let bare := s.ownBare g c f
  if !cBlocked g c then s
  else
    let s1 := ks.foldl (fun (s : State) (k : Nat) => s.adopt d c k) s
    let alone := !ks.isEmpty && s.lastCopy g c f
    let s2 := if ks.isEmpty && !bare then s1 else s1.modShard (shardKey d c false false) fun h =>
      { h with promoted := if ks.isEmpty || h.promoted.contains f then h.promoted else h.promoted ++ [f], single := h.single || alone || (own && bare) }
    let note (s : State) (b : Bool) (home : Nat) : State :=
      if b then s.report .kresia 0x9006 [d, c, home] (subject := some (2 ^ 20 + home)) (domain := some d) else s
    let s3 := note (note s2 alone f) (own && bare) s.ksId
    let s4 := if vs.any fun q => q.2 = .unsealed then s3.ksTenantFault d 0x5007 (x.lastTamp.map (·.1)) else s3
    match vs.find? fun q => q.2 = .lost with
    | some (k, _) => (s4.stateLost d c k none ((x.lastTamp.map (·.1)).getD x.step)).report .kresia 0x9007 [d, c] (domain := some d)
    | none => s4

/-- R322, R324: the part of one region of a failed home f: a mirrored one becomes primary at the first partner, another is
lost. -/
def State.promoteRegion (s : State) (d f : Nat) (g : Image) (r : Nat) : State :=
  let x := s.dom d
  let step := x.homeStep g
  let js := (List.range (rH g r)).filter fun j => rHome x.moves g r j step = f
  let own := (List.range (rH g r)).any fun j => rHome x.moves g r j step = s.ksId
  if rKind g r ≠ 0 then s
  else
    let s1 :=
      if js.isEmpty then s
      else if rMirrored g r && partnerOf f 0 = s.ksId then
        let s2 := js.foldl (fun (s : State) (j : Nat) => s.adoptPart d r j (rBytes g r) (max 1 (rBytes g r / rH g r))) s
        (s2.modShard (shardKey d r true false) fun h => { h with promoted := h.promoted ++ [f], single := true }).report .kresia
          0x9006 [d, r, f] (subject := some (2 ^ 20 + f)) (domain := some d)
      else (s.ksTenantFault d 0x5002 (x.lastTamp.map (·.1))).report .kresia 0x9007 [d, r] (domain := some d)
    if own && rMirrored g r && partnerOf s.ksId 0 = f then
      (s1.modShard (shardKey d r true false) fun h => { h with single := true }).report .kresia 0x9006 [d, r, s.ksId]
        (subject := some (2 ^ 20 + s.ksId)) (domain := some d)
    else s1

/-- R322: the home-list elements that name a failed home, each moved here. -/
def State.movesOf (s : State) (d f : Nat) (g : Image) : List HomeMove :=
  let x := s.dom d
  let step := x.homeStep g
  let mk (kind r e : Nat) : HomeMove := { domain := d, kind := kind, record := r, element := e, home := s.ksId }
  ((List.range (collCount g)).flatMap fun c =>
    ((List.range (cHomes g c)).filter fun e => movedHome x.moves 0 c e step (homeList g c e) = f).map (mk 0 c)) ++
  ((List.range (layCount g)).flatMap fun l =>
    ((List.range (lGroups g l)).filter fun q => lHome x.moves g l q step = f).map (mk 1 l)) ++
  ((List.range (sec g 9).count).filter fun r => rKind g r = 0).flatMap fun r =>
    ((List.range (rH g r)).filter fun j => rHome x.moves g r j step = f).map (mk 2 r)

/-- R322: what a failed home f means for one domain. -/
def State.promoteDomain (s : State) (d f : Nat) : State :=
  match (s.dom d).prog with
  | none => s
  | some g =>
    let moves := s.movesOf d f g
    let s1 := (List.range (collCount g)).foldl (fun (s : State) (c : Nat) => s.promoteColl d f g c) s
    let s2 := (List.range (sec g 9).count).foldl (fun (s : State) (r : Nat) => s.promoteRegion d f g r) s1
    if (s.dom d).isCrown then s2.spreadMoves d moves
    else moves.foldl (fun (s : State) (m : HomeMove) => s.emit (.send .kresia (.crown d) (.homeMove m))) s2

/-- MIRROR_PROMOTE (R322): the failed home's first partner, or, when that is fenced, its second. -/
def execMirrorPromote (p : Part) (m k : Nat) (s : State) : Answer :=
  .next (s.serve p m k 0x0903 fun s t =>
    let f := t.f 8 3 % 2 ^ 17
    let first := partnerOf f 0
    let acting := if s.isFenced (2 ^ 20 + first) then partnerOf f 2 else first
    if acting ≠ s.ksId then s.wrongPart .kresia m k (some (2 ^ 20 + acting))
    else (s.ks.doms.foldl (fun (s : State) (q : Nat × Domain) => s.promoteDomain q.1 f) s).complete .kresia m k 0)

/-! ### mirror.retarget (R323) -/

/-- MIRROR_RETARGET (R323): the holder begins to copy its shards to the target. Whether the target has room and is in
service no message tells the holder, so both stand as operands (log 63). -/
def execMirrorRetarget (p : Part) (m k : Nat) (room service : Bool) (s : State) : Answer :=
  .next (s.serve p m k 0x0904 fun s t =>
    let d := t.domain
    let r := t.f 8 2
    let v := t.f 12 3
    let dest := v % 2 ^ 17
    let x := s.dom d
    match x.prog with
    | none => s.wrongPart .kresia m k none
    | some g =>
      let mine (c : Nat) : List Nat := if cBlocked g c then s.homeChunks x g c (x.homeStep g) else []
      let cs := (List.range (collCount g)).filter fun c => (r = 0xFFFF || r = c) && !(mine c).isEmpty
      if r ≠ 0xFFFF && collCount g ≤ r then s.complete .kresia m k 0xA103
      else if cs.isEmpty then s.wrongPart .kresia m k none
      else if v / 2 ^ 17 ≠ 8 || ksPlane dest % 2 = ksPlane s.ksId % 2 || !room || !service || s.isFenced (2 ^ 20 + dest) then
        s.complete .kresia m k 0x9008
      else (cs.foldl (fun (s : State) (c : Nat) =>
        (s.modShard (shardKey d c false false) fun h =>
          { h with fillTarget := some dest, fillLeft := mine c, fillAcked := [], fillDone := [] }).pumpFill d c) s).complete .kresia m k 0)

/-! ### home.move (R325) -/

/-- The elements of a home list. -/
def homeElems (g : Image) (kind r : Nat) : Nat :=
  if kind = 0 then (if r < collCount g then cHomes g r else 0)
  else if kind = 1 then (if r < layCount g then lGroups g r else 0)
  else if r < (sec g 9).count && rKind g r = 0 then rH g r else 0

/-- HOME_MOVE (R325): the crown moves a home-list element from step n on. That the new home holds a committed copy of every
chunk no message tells the crown, so it stands as an operand (log 63); a layer has no chunk. -/
def execHomeMove (p : Part) (m k : Nat) (copied : Bool) (s : State) : Answer :=
  .next (s.serve p m k 0x0905 fun s t =>
    let d := t.domain
    let kind := t.f 8 1
    let r := t.f 10 2
    let e := t.f 12 4
    let n := t.f 20 6
    let x := s.dom d
    s.atCrown m k d (match x.prog with
      | none => s.complete .kresia m k 0xA110
      | some g =>
        if 2 < kind || homeElems g kind r ≤ e then s.complete .kresia m k 0xA103
        else if n < x.step + 2 || !(copied || kind = 1) ||
          x.moves.any (fun q => q.kind = kind && q.record = r && q.element = e && x.step < q.step) then s.complete .kresia m k 0x9013
        else (s.spreadMoves d [{ domain := d, kind := kind, record := r, element := e, home := t.f 16 3 % 2 ^ 17, step := some n }]).complete
          .kresia m k 0))

/-! ### spare.fill (R330) -/

/-- R330: the sealed outputs that go from here to one position. -/
def State.fillOutputs (s : State) (d : Nat) (g : Image) (pos id tag lobj : Nat) : List SendJob :=
  let x := s.dom d
  (List.range (collCount g)).flatMap fun c =>
    if !cBlocked g c then []
    else
      let h := s.shard (shardKey d c false false)
      (s.homeChunks x g c (x.homeStep g)).flatMap fun k => match FMap.find? h.sealedOut k with
        | none => []
        | some (_, bs) =>
          if !(cDest g c k).contains pos then []
          else (cutMiB (bs.length / 1048576 + 2) 0 bs).map fun (off, b) =>
            { what := 4, receiver := (x.pos pos).e.member, domain := d, cls := 5,
              addr := cDstAddr g c + k * cOutBytes g c (cChunkElems g c) + off, sigObj := lobj, data := b, rec' := id, chunk := k,
              entry := tag }

/-- R330, R334: the parts of pour regions that go from here to one position, each region once. -/
def State.fillParts (s : State) (d : Nat) (g : Image) (pos id tag lobj : Nat) : List SendJob :=
  let x := s.dom d
  ((List.range (sec g 9).count).filter fun r => rKind g r = 0).flatMap fun r =>
    let es := (List.range (imgEntries g)).filter fun i => entType g i = 10 && entRef g i = r &&
      entF g i 20 4 ≤ pos && pos < entF g i 20 4 + entF g i 24 4
    match es with
    | [] => []
    | i :: _ => (s.pourJobs d g i (x.homeStep g) 4 pos (pos - entF g i 20 4) lobj).map fun j => { j with rec' := id, entry := tag }

/-- SPARE_FILL (R330): taken by each home; the command completes, with its count of transfers, when every one has been
answered. Away from the crown, that the domain is HELD stands as an operand (log 62). -/
def execSpareFill (p : Part) (m k : Nat) (held : Bool) (s : State) : Answer :=
  .next (s.serve p m k 0x0907 fun s t =>
    let d := t.domain
    let i := t.f 8 4
    let lobj := t.f 12 2
    let x := s.dom d
    let still : Bool := if x.isCrown then decide (x.phase = .held) else held
    let ps := if i = 0xFFFFF then (List.range x.positions.length).filter fun q => (x.pos q).bound && !(x.pos q).vacant else [i]
    match x.prog with
    | none => s.complete .kresia m k 0x900A
    | some g =>
      if !still || (i ≠ 0xFFFFF && !(i < x.positions.length && (x.pos i).bound && !(x.pos i).vacant)) then s.complete .kresia m k 0x900A
      else
        let id := fillId m k
        let js := ps.flatMap fun q => s.fillOutputs d g q id i lobj ++ s.fillParts d g q id i lobj
        if js.isEmpty then s.complete .kresia m k 0 (leBytes 4 0)
        else js.foldl (fun (s : State) (j : SendJob) => s.startJob j) (s.modKs fun z =>
          { z with fills := z.fills ++ [{ domain := d, position := i, left := js.length, mailbox := m, mslot := k, count := js.length }] }))

/-! ### Checkpoint slots (R327, R392) -/

/-- R392: the home-list elements that stream to a target position, ascending, with their chunks in one checkpoint. -/
def streamsTo (g : Image) (pos : Nat) : List (Nat × Nat × Nat) :=
  match (List.range (sec g 9).count).find? fun r => rKind g r = 1 with
  | none => []
  | some r =>
    ((List.range (collCount g)).filter fun c => (mirrorEntry g c 1).isSome).flatMap fun c =>
      ((List.range (cHomes g c)).filter fun e => rList g r (e % rH g r) = pos).map fun e =>
        (c, e, ((List.range (cChunks g c)).filter fun k => k % cHomes g c = e).length)

/-- R392: one slot handed to the first home with chunks still to send in the checkpoint in hand (DEDUCED, log 64: a home
has as many chunks to send as it has had slots fewer than chunks; with none left the next checkpoint begins). -/
def State.handSlot (s : State) (tn d slot : Nat) : State :=
  let x := s.ten tn
  let l := streamsTo x.prog x.position
  let key (c e : Nat) : Nat := c * 2 ^ 16 + e
  let first (given : FMap Nat) : Option (Nat × Nat × Nat) := l.find? fun (c, e, n) => FMap.getD given (key c e) 0 < n
  let given := if (first x.ckptGiven).isSome then x.ckptGiven else []
  match first given with
  | none => s
  | some (c, e, _) =>
    let step := (x.firedStep.getD 0)
    let home := movedHome x.moved 0 c e step (homeList x.prog c e)
    (s.modTen tn fun y => { y with ckptGiven := FMap.update given (key c e) 0 (· + 1) }).emit
      (.send .baxel (.node (2 ^ 20 + home)) (.ckptGrant ⟨d, x.position, slot⟩))

/-- CKPT_CREDIT (R327, R392): taken at the target's own Baxel. -/
def execCkptCredit (p : Part) (m k : Nat) (s : State) : Answer :=
  .next (s.serve p m k 0x090C fun s t =>
    let d := t.domain
    match s.tenantOf d with
    | none => s.complete .baxel m k 0xA107
    | some tn =>
      if (streamsTo (s.ten tn).prog (s.ten tn).position).isEmpty then s.complete .baxel m k 0xA10C
      else ((List.range (t.f 12 4)).foldl (fun (s : State) (i : Nat) => s.handSlot tn d (t.f 8 4 + i)) s).complete .baxel m k 0)

/-- CKPT_GRANT_RX (R327): a grant reaches a home, which sends what it now may; one with no chunk to send keeps it. -/
def execCkptGrantRx (x : CkptGrant) (s : State) : Answer :=
  match s.ks.ckpts.find? fun q => q.domain = x.domain && q.target = x.target && !q.left.isEmpty with
  | none => .next (s.modKs fun k => { k with grants := k.grants ++ [(x.domain, x.target, x.slot)] })
  | some q =>
    let q' := { q with grants := q.grants ++ [x.slot] }
    .next ((s.modKs fun k => { k with ckpts := k.ckpts.map fun y => if y = q then q' else y }).pumpCkpts 1)

end Sys2Proof.Machine
end

