-- ==== Sys2Proof/Machine/Crown.lean ====
section
/-! DEFINITION. Rows of the crown and of a leaf's count records: R22, R92, R95, R99, R100. -/

namespace Sys2Proof.Machine

/-! ### Count records at a leaf (R92) -/

/-- The key of a count record. -/
def LeafRecord.isFor (x : LeafRecord) (m : Ctl) : Bool :=
  x.kind = m.kind && x.domain = m.domain && x.epoch = m.epoch && x.seq = m.seq && x.step = m.step

/-- R92: a count record sent upward, and no longer held. -/
def State.sendRecord (s : State) (x : LeafRecord) : State :=
  (s.modKs fun k => { k with leafRecs := k.leafRecs.erase x }).emit (.send .kresia (.crown x.domain) (.ctl
    { kind := x.kind, record := true, domain := x.domain, epoch := x.epoch, seq := x.seq, step := x.step, slot := x.slot,
      bitmap := x.bitmap, latest := x.latest }))

/-- R92: whether a record holds every member of its domain below this leaf. -/
def State.recordFull (s : State) (x : LeafRecord) : Bool :=
  let below := (s.dom x.domain).positions.filter fun p => p.e.group = leafGroup s.ksId
  !below.isEmpty && below.all fun p => x.bitmap.getLsbD p.e.port

/-- R92: a message joins the record of its domain and step. -/
def LeafRecord.join (x : LeafRecord) (port : Nat) : LeafRecord :=
  { x with bitmap := x.bitmap ||| (1 <<< port), latest := port }

/-- R117: a message of a Baxel 2.x member names an arm by the low 16 bits of its SEQ. -/
def State.fullSeq (s : State) (m : Ctl) : Ctl :=
  let x := s.dom m.domain
  let v2 : Bool := x.positions.any fun q => q.e.member = m.member && q.e.v2
  if v2 && (m.kind = .ack || m.kind = .orphan || m.kind = .gateMiss) then { m with seq := wideSeq x.seq m.seq } else m

/-- LEAF_REPORT_RX (R22, R92, R316): an ARRIVE, or an ACK with STATUS 0, joins the count record; anything else goes up by
itself. A Ploav 2 member's SEQ is made whole first (R117). -/
def execLeafReportRx (port : Nat) (m' : Ctl) (s : State) : Answer :=
  let m := s.fullSeq m'
  if s.isFenced m.member then .next (s.count (evK 0x1B0004))
  else if (m.kind = .arrive || m.kind = .ack) && m.status = 0 && port < 128 then
    let old := (s.ks.leafRecs.find? fun x => x.isFor m).getD
      { kind := m.kind, domain := m.domain, epoch := m.epoch, seq := m.seq, step := m.step, slot := m.slot,
        first := s.raw .kresia }
    let x := old.join port
    let s1 := s.modKs fun k => { k with leafRecs := (k.leafRecs.filter fun y => !y.isFor m) ++ [x] }
    .next (if s1.recordFull x then s1.sendRecord x else s1)
  else .next (s.emit (.send .kresia (.crown m.domain) (.ctl m)))

/-- LEAF_RECORD_TIMEOUT (R92): 200 ns after its first message a record goes. -/
def execLeafRecordTimeout (kind : CtlType) (domain : Nat) (s : State) : Answer :=
  match s.ks.leafRecs.find? fun x =>
      x.kind = kind && x.domain = domain && 200 * 65536 ≤ Raw.diff (s.raw .kresia) x.first with
  | some x => .next (s.sendRecord x)
  | none => .next s

/-! ### The crown -/

/-- The positions a message of a member, or a count record of a leaf, speaks for, the completing one last. -/
def Domain.named (x : Domain) (src : Nat) (m : Ctl) : List Nat :=
  if m.record then
    let l := x.atPorts (leafGroup (src % 2 ^ 20)) m.bitmap
    let late := x.atPorts (leafGroup (src % 2 ^ 20)) (1 <<< (m.latest % 128))
    (l.filter fun i => !late.contains i) ++ late.filter l.contains
  else (x.posOf m.member).toList

/-- R95: a message under an epoch other than the crown's is counted and ignored. -/
def State.staleReport (s : State) (d : Nat) : State := s.count (evD d 0x110108)
/-- R99, R100: a report naming a sealed step, or reaching a HELD domain. -/
def State.lateReport (s : State) (d : Nat) : State := s.count (evD d 0x11010C)

/-- R22: what a deputy deduplicates on behalf of the crown it passes on to it (DEDUCED, log 141). -/
def State.passUp (s : State) (d src : Nat) (m : Ctl) : State := s.emit (.send .kresia (.crown d) (.ctlOf src m))

/-- CROWN_ARRIVE_RX (R22, R95, R98): arrivals are held by position, once each; a deputy holds them
too, passes them on, and follows the crown's barrier (R107). -/
def execCrownArriveRx (src : Nat) (m : Ctl) (s : State) : Answer :=
  let d := m.domain
  let x := s.dom d
  if !x.isCrown && !x.isDeputy then .next s
  else if m.epoch ≠ x.epoch then .next (s.staleReport d)
  else
    let want := if x.phase = .gather || x.phase = .held then x.step else x.step + 1
    if m.step ≠ want then .next s
    else
      let l := (x.named src m).filter fun i => !x.arrivals.contains i
      let by' := (x.named src m).getLast?
      let s1 := s.modDom d fun y => { y with
        arrivals := y.arrivals ++ l, lastBy := by'
        firstAt := if y.arrivals.isEmpty then some (s.raw .kresia) else y.firstAt }
      let all : Bool := (List.range x.positions.length).all fun i => x.arrivals.contains i || l.contains i
      .next (if l.isEmpty then s
        else if x.isDeputy then
          let s2 := s1.passUp d src m
          if all && (x.phase = .gather || x.phase = .tamped) then
            s2.modDom d fun y =>
              { y with step := want, phase := .arm, arrivals := [], lastBy := none, voidRun := if x.phase = .tamped then 0 else y.voidRun }
          else s2
        else s1.tryBarrier d)

/-- ARM_STALL_RELEASE (R99, R105): a record is free while an arm waits. -/
def execArmStallRelease (domain : Nat) (s : State) : Answer :=
  let x := s.dom domain
  match x.prog, x.toArm, x.changeWait with
  | some g, i :: t, _ =>
    if s.armedUsed < 1024 then .next (((s.armEntry domain g i).armList domain g t).afterTamp domain) else .next s
  | some g, [], some r => if s.armedUsed < 1024 then .next (s.armChange domain g r) else .next s
  | _, _, _ => .next s

/-- R22, R106: an acknowledgement at a deputy: held once by (epoch, sequence, member), and passed on. -/
def State.deputyAck (s : State) (d src : Nat) (m : Ctl) : State :=
  let x := s.dom d
  let old := (x.heldAcks.find? fun a => a.seq = m.seq).getD { seq := m.seq, step := m.step, slot := m.slot }
  let l := (x.named src m).filter fun i => !(old.acks.any fun q => q.1 = i)
  if l.isEmpty then s
  else
    (s.modDom d fun y =>
      { y with heldAcks := (y.heldAcks.filter fun a => a.seq ≠ m.seq) ++
          [{ old with acks := old.acks ++ l.map fun i => (i, m.status) }] }).passUp d src m

/-- CROWN_ACK_RX (R99, R22): STATUS 0 covers positions; a refusing ACK voids with its code. A deputy holds it. -/
def execCrownAckRx (src : Nat) (m : Ctl) (s : State) : Answer :=
  let d := m.domain
  let x := s.dom d
  if !x.isCrown && !x.isDeputy then .next s
  else if m.epoch ≠ x.epoch then .next (s.staleReport d)
  else if x.isDeputy then .next (s.deputyAck d src m)
  else
    match x.prog, x.recs.find? fun r => r.seq = m.seq && !r.tamped with
    | some g, some r =>
      if m.status ≠ 0 then .next (s.voidStep d m.status)
      else
        let l := (x.named src m).filter fun i => !r.acks.contains i
        let r' := { r with acks := r.acks ++ l }
        .next ((s.modDom d fun y => { y with recs := y.recs.map fun q => if q = r then r' else q }).ackCheck d g r')
    | _, _ => .next s

/-- ADL_EXPIRY (R99): the crown's OT has reached ADL with acknowledgements missing. -/
def execAdlExpiry (domain : Nat) (s : State) : Answer :=
  let x := s.dom domain
  if !x.isCrown then .next s
  else
    match x.recs.find? fun r => !r.tamped && otDiff r.adl (s.otNow .kresia) ≤ 0 with
    | some r => .next (s.ackMissing domain r)
    | none => .next s

/-- CROWN_REPORT_RX (R92, R95, R99, R100, R316): an ORPHAN, GATE_MISS or TENANT_FAULT. -/
def execCrownReportRx (_src : Nat) (m : Ctl) (s : State) : Answer :=
  let d := m.domain
  let x := s.dom d
  if !x.isCrown then .next s
  else if !m.fromKresia && s.isFenced m.member then .next (s.count (evK 0x1B0004))
  else if m.epoch ≠ x.epoch then .next (s.staleReport d)
  else
    if x.phase = .held || m.step < x.step then .next (s.lateReport d)
    else .next ((if m.fromKresia && m.status = 0x5002 then s.modDom d fun y => { y with lost := true } else s).voidStep d m.status)

end Sys2Proof.Machine
end

