-- ==== Sys2Proof/Machine/Faults.lean ====
section
/-! DEFINITION. Heartbeats, reports and event records, fences at a Kresia, copies of shards, throttling and the cupping
record (R310 to R312, R315 to R317, R323, R340, R348, R351). -/

namespace Sys2Proof.Machine

/-- A span of milliseconds, in grains. -/
def msGrains (n : Nat) : Int := (n : Int) * 65536000000

/-- Whether a span has passed since a noted instant; true where none is noted. -/
def State.elapsed (s : State) (p : Part) (r : Option Raw) (g : Int) : Bool :=
  match r with
  | some x => g ≤ Raw.diff (s.raw p) x
  | none => true

/-! ### Heartbeats (R310) -/

/-- R15: a Baxel whose planes in service lie in one failure domain: even or odd planes (R14). -/
def State.singleDomain (s : State) : Bool :=
  let planes := (s.upPorts .baxel).filterMap fun n => (s.lp .baxel n).peer.map (·.plane)
  !planes.isEmpty && (planes.all (· % 2 = 0) || planes.all (· % 2 = 1))

/-- R310: the payload of a heartbeat of part p with a HB_SEQ. -/
def State.heartbeat (s : State) (p : Part) (seq : Nat) : Heartbeat :=
  { fenced := match p with
      | .baxel => s.bx.fenced
      | .kresia => s.isFenced (s.node .kresia)
    singleDomain := match p with
      | .baxel => s.singleDomain
      | .kresia => false
    hbSeq := seq
    node := s.node p
    timeState := (s.pc p).time.state.code
    tenants := match p with
      | .baxel => s.tenState 0 + 4 * s.tenState 1 + 16 * s.tenState 2 + 64 * s.tenState 3
      | .kresia => 0
    temp := (s.pc p).stamp.temp }

/-- HEARTBEAT_SEND (R310): one heartbeat each millisecond. -/
def execHeartbeatSend (p : Part) (port : Nat) (s : State) : Answer :=
  let x := s.lp p port
  if s.up p port && s.elapsed p x.hbSent (msGrains 1) then
    .next ((s.modLp p port fun y => { y with hbSeq := (y.hbSeq + 1) % 65536, hbSent := some (s.raw p) }).emit
      (.send p (.port port) (.heartbeat (s.heartbeat p x.hbSeq))))
  else .next s

/-- R5, R314: a heartbeat of a member that stands fenced: its leaf reports it alive, as a suspicion, once for each fence
(the code and the count are left open: DESIGN CHOICE, log 145). -/
def State.fencedAlive (s : State) (p : Part) (port : Nat) (node : Nat) : State :=
  match p with
  | .baxel => s
  | .kresia =>
    if node < 2 ^ 20 && s.isFenced node && !s.ks.aliveTold.contains node then
      (s.modKs fun k => { k with aliveTold := k.aliveTold ++ [node] }).report .kresia 0x900F (port := port) (subject := some node)
    else s

/-- R15: a member's heartbeat shows for the first time that its planes lie in one failure domain: its leaf reports it (the
code is left open: DESIGN CHOICE, log 146). -/
def State.singleNow (s : State) (p : Part) (port : Nat) (h : Heartbeat) : State :=
  match p with
  | .baxel => s
  | .kresia =>
    if h.node < 2 ^ 20 && h.singleDomain && !((s.lp p port).hb.any fun old => old.singleDomain) then
      s.report .kresia 0x9001 (port := port) (subject := some h.node)
    else s

/-- HEARTBEAT_RX (R310): heartbeats are taken, fenced senders' too; a resumption is reported. -/
def execHeartbeatRx (p : Part) (port : Nat) (h : Heartbeat) (s : State) : Answer :=
  if !s.up p port then .next s
  else
    let was := (s.lp p port).hbLost
    let s1 := ((s.singleNow p port h).fencedAlive p port h.node).modLp p port fun y => { y with hbLast := some (s.raw p), hbLost := false, hb := some h }
    .next (if was then s1.report p 0x9010 (port := port) (subject := some h.node) else s1)

/-- HEARTBEAT_LOST (R310): 5 ms without a heartbeat on a port in service. -/
def execHeartbeatLost (p : Part) (port : Nat) (s : State) : Answer :=
  let x := s.lp p port
  let last := match x.hbLast with
    | some r => some r
    | none => x.svcStart
  if s.up p port && !x.hbLost && s.elapsed p last (msGrains 5) then
    let s1 := (s.modLp p port fun y => { y with hbLost := true }).report p 0x9002 (port := port)
      (subject := x.peer.map fun c => c.node)
    .next (match p with
      | .kresia => s1.count (evK 0x1B0000)
      | .baxel => s1)
  else .next s

/-! ### Reports and event records (R311, R312) -/

/-- BAXEL_REPORT_RX (R311): a leaf turns a Baxel's report into an event record. -/
def execBaxelReportRx (port : Nat) (r : BxReport) (s : State) : Answer :=
  let src := match (s.lp .kresia port).peer with
    | some c => c.node
    | none => r.subject
  if s.isFenced src then .next (s.count (evK 0x1B0004))
  else .next (s.queueEvent
    { code := r.code, fromBaxel := true, domain := r.domain, reporter := src, port := r.port, subject := r.subject,
      ot := r.ot, reportSeq := r.reportSeq, detail := r.detail })

/-- KS_ALIVE_TIMER (R311): every 100 ms. -/
def execKsAliveTimer (s : State) : Answer :=
  if s.elapsed .kresia s.ks.lastAlive (msGrains 100) then
    .next ((s.modKs fun k => { k with lastAlive := some (s.raw .kresia) }).report .kresia 0x9014)
  else .next s

/-- EVENT_RESEND_TIMER (R312): every 100 ms each unacknowledged record goes again, oldest first. -/
def execEventResendTimer (s : State) : Answer :=
  if s.elapsed .kresia s.ks.lastResend (msGrains 100) then
    let s1 := s.modKs fun k => { k with lastResend := some (s.raw .kresia) }
    .next (s1.ks.events.foldl (fun s r => s.emit (.send .kresia .mgmt (.event r))) s1)
  else .next s

/-! ### Fences (R315, R316, R317) -/

/-- R316: the ports to a fenced Kresia leave service. -/
def State.cutPeer (s : State) (subject : Nat) : State :=
  ((s.upPorts .kresia).filter fun n => (s.lp .kresia n).peer.any fun c => c.node = subject).foldl
    (fun s n => s.portGone .kresia n 0x9003) s

/-- R315: a fence or clear applied at this Kresia and flooded. A member's domains follow it; a Kresia's ports do. -/
def State.applyFence (s : State) (n : FenceNotice) : State :=
  let s1 := ((s.modKs fun k =>
    { k with fences := FMap.set k.fences n.subject (n.fenceSeq, !n.clear), aliveTold := k.aliveTold.filter (· ≠ n.subject) }).count (evK 0x1B0008)).emit
    (.send .kresia .flood (.fence n))
  if 2 ^ 20 ≤ n.subject then
    (if !n.clear then (s1.cutPeer n.subject).dspLeafGone n.subject
     else if (s1.upPorts .kresia).any fun q => (s1.lp .kresia q).peer.any fun c => c.node = n.subject then s1.rejoin (n.subject - 2 ^ 20)
     else s1)
  else s1.ks.doms.foldl (fun s (q : Nat × Domain) =>
    if n.clear then s.unfenceDomain q.1 n.subject else s.fenceDomain q.1 n.subject) s1

/-- R315: whether a FENCE_SEQ is above the last one applied for the subject. -/
def State.fenceNewer (s : State) (n : FenceNotice) : Bool :=
  match FMap.find? s.ks.fences n.subject with
  | some (q, _) => q < n.fenceSeq
  | none => true

/-- FENCE_NOTICE_RX (R315, R316, R317): the first copy of a newer notice is applied and flooded once. -/
def execFenceNoticeRx (n : FenceNotice) (s : State) : Answer :=
  if s.fenceNewer n then .next (s.applyFence n) else .next s

/-! ### Copies of shards (R323) -/

/-- REMIRROR_CHUNK_COMMIT (R323): the copy of a chunk whose transfers the target has answered commits; with the last
chunk the holder reports. -/
def execRemirrorChunkCommit (domain coll chunk : Nat) (s : State) : Answer :=
  let key := shardKey domain coll false false
  let h := s.shard key
  if h.fillTarget.isSome && h.fillAcked.contains chunk then
    let left := h.fillLeft.filter (· ≠ chunk)
    let s1 := s.modShard key fun h =>
      { h with fillAcked := h.fillAcked.filter (· ≠ chunk), fillLeft := left, fillDone := h.fillDone ++ [chunk],
               single := h.single && !left.isEmpty }
    .next (if left.isEmpty then s1.report .kresia 0x900E [coll] (subject := h.fillTarget.map (2 ^ 20 + ·)) (domain := some domain)
           else s1.pumpFill domain coll)
  else .next s

/-! ### Throttling (R340, R437) -/

/-- THROTTLE_LEVEL_CHANGE (R340): the limit exceeded for 1 ms (`up`), or 100 ms below the limit less 5 °C: one level, at
most once per 10 ms. -/
def execThrottleLevelChange (up : Bool) (s : State) : Answer :=
  let v := s.fld .kresia 0x1C001C 0 2
  let w := if up then min 2 (v + 1) else v - 1
  if w = v || !s.elapsed .kresia s.ks.lastThrottle (msGrains 10) then .next s
  else .next ((((s.modKs fun k => { k with lastThrottle := some (s.raw .kresia) }).setFld .kresia 0x1C001C 0 2 w).count
    (evK 0x1C0018)).report .kresia 0x0010 [w])

/-! ### Cupping (R348 to R351) -/

/-- CUP_PARTIAL_RX (R344, R348): the crown adds a Kresia's partials. -/
def execCupPartialRx (m : CupPartial) (s : State) : Answer :=
  if (s.dom m.domain).isCrown then .next (s.takePartial m) else .next s

/-- CUP_INCOMPLETE_TIMEOUT (R348): 1 s after the seal of a cupped step some Kresia has not reported. -/
def execCupIncompleteTimeout (domain step : Nat) (s : State) : Answer :=
  let x := s.dom domain
  match x.cupOpen.find? fun r => r.step = step with
  | some r =>
    if x.isCrown && x.cupped step && r.sealedOt.isSome && s.elapsed .kresia (some r.sealedRaw) (msGrains 1000) then
      let r' := { r with incomplete := true, expected := (x.kresia s.ks.build).length }
      .next ((s.report .kresia 0x9024 [step] (domain := some domain)).storeCup domain r')
    else .next s
  | none => .next s

/-- R351: what `cup.shard` returns: chunks compared, skipped, and the first that differs. -/
def CupCheck.result (q : CupCheck) : List Byte :=
  let diff := q.differ.foldl min 0xFFFFFF
  leBytes 4 q.compared.length ++ leBytes 4 (q.count - q.compared.length) ++ leBytes 4 diff

/-- R351: a partner's digests compared with the home's own. -/
def CupCheck.take (q : CupCheck) (m : ShardDigests) : CupCheck :=
  let both := q.own.filterMap fun (k, v) =>
    (m.digests.find? fun x => x.1 = k).map fun x => (k, decide (x.2 = v))
  { q with
    waiting := q.waiting.filter (· ≠ m.node)
    compared := (q.compared ++ both.map (·.1)).eraseDups
    differ := q.differ ++ (both.filter fun x => !x.2).map (·.1) }

/-- R351: a check whose partners have all answered completes its command. -/
def State.endCheck (s : State) (q : CupCheck) : State :=
  if q.waiting.isEmpty then
    (s.modKs fun k => { k with cupChecks := k.cupChecks.filter fun x => !(x.mailbox = q.mailbox && x.mslot = q.mslot) }).complete
      .kresia q.mailbox q.mslot 0x0000 q.result
  else s

/-- CUP_SHARD_DIGESTS_RX (R351): the digests of a partner; a difference is reported with both holders. -/
def execCupShardDigestsRx (m : ShardDigests) (s : State) : Answer :=
  match s.ks.cupChecks.find? fun q => q.domain = m.domain && q.coll = m.coll && q.waiting.contains m.node with
  | some q =>
    let q' := q.take m
    let s1 := s.modKs fun k => { k with cupChecks := k.cupChecks.map fun x =>
      if x.mailbox = q.mailbox && x.mslot = q.mslot then q' else x }
    let s2 :=
      if q.differ.length < q'.differ.length then
        s1.report .kresia 0x9023 [m.coll, s.ksId, m.node] (subject := some (2 ^ 20 + m.node)) (domain := some m.domain)
      else s1
    .next (s2.endCheck q')
  | none => .next s

end Sys2Proof.Machine
end

