-- ==== Sys2Proof/Machine/CmdCup.lean ====
section
/-! DEFINITION. Mailbox commands of cupping (`cup.config`, `cup.read`, `cup.retire`, `cup.shard`: R345 to R351) and of
counters and snapshots (`ctr.read`, `snap.arm`, `snap.read`: R361, R364, R365, R391, R393). -/

namespace Sys2Proof.Machine

/-! ### Cupping -/

/-- CUP_CONFIG (R345): the crown takes the period and tells the other Kresia of the domain. -/
def execCupConfig (p : Part) (m k : Nat) (s : State) : Answer :=
  .next (s.serve p m k 0x0A01 fun s t =>
    let d := t.domain
    let n := t.f 8 2
    let from' := t.f 10 6
    let x := s.dom d
    s.atCrown m k d (
      if x.prog.isNone then s.complete .kresia m k 0x9020
      else if x.lastTamp.any fun q => from' ≤ q.1 then s.complete .kresia m k 0x9021
      else ((s.modDom d fun y => { y with cupPeriod := n, cupFrom := from' }).emit
        (.send .kresia (.kresias ((s.mapHolders x).filter (· ≠ s.ksId)))
          (.progImage { domain := d, crown := s.ksId, cup := some (n, from') }))).complete .kresia m k 0))

/-- The 32 bytes of one of the five sums of a record. -/
def CupRec.words (r : CupRec) (kind : Nat) : List Byte := ((r.sums.drop (4 * kind)).take 4).flatMap (leBytes 8)

/-- The first 56 bytes of a cupping record. -/
def CupRec.head (r : CupRec) (d : Nat) : List Byte :=
  leBytes 4 0x4B534355 ++ leBytes 2 1 ++ leBytes 2 d ++ leBytes 8 r.progId ++ r.digest ++ leBytes 8 r.seed

/-- The fields of a cupping record that say what was covered. -/
def CupRec.cover (r : CupRec) : List Byte :=
  leBytes 6 r.step ++ leBytes 1 (bitN (r.varied ≠ 0) + 2 * bitN r.incomplete + 4 * bitN r.replayed) ++ leBytes 1 r.varied ++
  leBytes 4 r.epoch ++ leBytes 4 r.reported.length ++ leBytes 4 r.expected ++ leBytes 4 r.lost

/-- R349: a cupping record as bytes. -/
def CupRec.bytes (r : CupRec) (d : Nat) : List Byte :=
  r.head d ++ r.cover ++
  r.words 0 ++ r.words 1 ++ r.words 2 ++ r.words 4 ++ r.words 3 ++ leBytes 4 r.seq ++ otBytes (r.sealedOt.getD .zero)

/-- CUP_READ (R348, R350): a record at the crown, or this Kresia's partials of a step and epoch, by kind (log 65). -/
def execCupRead (p : Part) (m k : Nat) (s : State) : Answer :=
  .next (s.serve p m k 0x0A02 fun s t =>
    let d := t.domain
    let x := s.dom d
    let stage (s : State) (bs : List Byte) : State :=
      let (s1, c) := s.toStage m (t.f 12 4) bs
      s1.complete .kresia m k (c.getD 0)
    if t.f 16 1 = 0 then
      s.atCrown m k d (match x.cupRecs.find? fun r => r.seq = t.f 8 4 with
        | some r => stage s (r.bytes d)
        | none => s.complete .kresia m k 0x9022)
    else if t.f 16 1 = 1 then
      match x.cups.find? fun q => q.step = t.f 20 6 && q.epoch = t.f 26 4 with
      | some q => stage s (q.sums.flatMap (leBytes 8))
      | none => s.complete .kresia m k 0x9022
    else s.complete .kresia m k 0xA103)

/-- CUP_RETIRE (R350): a record and every older one. -/
def execCupRetire (p : Part) (m k : Nat) (s : State) : Answer :=
  .next (s.serve p m k 0x0A03 fun s t =>
    let d := t.domain
    let n := t.f 8 4
    s.atCrown m k d (
      if (s.dom d).cupRecs.any fun r => r.seq = n then
        (s.modDom d fun y => { y with cupRecs := y.cupRecs.filter fun r => n < r.seq }).complete .kresia m k 0
      else s.complete .kresia m k 0x9022))

/-- R351: the kind-0 digest of one chunk. -/
def chunkDigest (g : Image) (c k step : Nat) (h : Shard) : List Nat :=
  let ws := (declared (collProg g c)).filter fun (_, _, a) => a ≠ 0
  let terms := (List.range (cLen g c k)).flatMap fun o =>
    ws.map fun (st, _, _) => cupTerm 0 step c (cBase g c k + o) st (h.get st k o)
  terms.foldl addWords [0, 0, 0, 0]

/-- CUP_SHARD (R351): the home digests the chunks of the range whose last block is mirrored, and waits for the partners'
digests; a partner digests its mirrors and sends them to the home. The manual does not say how a partner learns of the
request: here it is given the command too (DEDUCED, log 66). -/
def execCupShard (p : Part) (m k : Nat) (s : State) : Answer :=
  .next (s.serve p m k 0x0A04 fun s t =>
    let d := t.domain
    let c := t.f 8 2
    let first := t.f 12 4
    let n := t.f 16 4
    let x := s.dom d
    match x.prog with
    | none => s.complete .kresia m k 0x5006
    | some g =>
      if collCount g ≤ c || !cBlocked g c || cChunks g c < first + n then s.complete .kresia m k 0x5006
      else
        let step := x.homeStep g
        let own := (s.homeChunks x g c step).filter fun q => first ≤ q && q < first + n
        let h := s.shard (shardKey d c false false)
        let mir := s.shard (shardKey d c false true)
        let modes := [0, 2].filter fun mode => (mirrorEntry g c mode).isSome
        let held := ((List.range n).map (first + ·)).filter fun q => FMap.has mir.blockStep q
        if !own.isEmpty then
          let even (q : Nat) : Bool := match FMap.find? h.blockStep q with
            | some st => modes.any fun mode => FMap.find? h.mirrorStep (mirrorKey q mode) = some st
            | none => false
          let digests : FMap (List Nat) := (own.filter even).map fun q => (q, chunkDigest g c q ((FMap.find? h.blockStep q).getD 0) h)
          let check : CupCheck := { mailbox := m, mslot := k, domain := d, coll := c, first := first, count := own.length,
                                    waiting := modes.map (partnerOf s.ksId), own := digests }
          (s.modKs fun z => { z with cupChecks := z.cupChecks ++ [check] }).endCheck check
        else if !held.isEmpty then
          let homes := (held.map fun q => homeOf x.moves g c q step).eraseDups
          let out (home : Nat) : ShardDigests := ⟨d, c, s.ksId, (held.filter fun q => homeOf x.moves g c q step = home).map fun q =>
            (q, chunkDigest g c q ((FMap.find? mir.blockStep q).getD 0) mir)⟩
          (homes.foldl (fun (s : State) (home : Nat) => s.emit (.send .kresia (.node (2 ^ 20 + home)) (.digests (out home)))) s).complete
            .kresia m k 0 (leBytes 4 held.length ++ leBytes 4 (n - held.length) ++ leBytes 4 0xFFFFFF)
        else s.wrongPart .kresia m k (some (2 ^ 20 + homeOf x.moves g c first step)))

/-! ### Counters (R358, R361, R391, R393) -/

/-- R393: what a caller's mailbox narrows `ctr.read` to: the tenants counted, and whether a selector lies within it. -/
def State.readScope (_ : State) (p : Part) (m : Nat) (q : Selector) : List Nat × Bool :=
  if privMbox p m then ([0, 1, 2, 3], true)
  else match p with
  | .baxel => ([m - 1], tenantEvent q.event)
  | .kresia => ([0], domCounters.contains (evBase .kresia q.event))

/-- CTR_READ (R361, R391, R393). -/
def execCtrRead (p : Part) (m k : Nat) (s : State) : Answer :=
  .next (s.serve p m k 0x0A10 fun s t =>
    let vs := (List.range 7).map fun i => t.f (8 + 8 * i) 8
    let used := (vs.filter (· ≠ 0))
    if used.any fun v => !selZero v then s.complete p m k 0xA103
    else if used.any fun v => (selOf v).part ≠ p || (selCode (selOf v)).isSome || ((selOf v).portEn && s.portsOf p ≤ (selOf v).port) then
      s.complete p m k 0x2040
    else if used.any fun v => !(s.readScope p m (selOf v)).2 then s.complete p m k 0x2041
    else s.complete p m k 0 (vs.flatMap fun v =>
      leBytes 8 (if v = 0 then 0 else s.selValue (selOf v) (s.readScope p m (selOf v)).1 t.domain)))

/-! ### Snapshots (R364, R365) -/

/-- SNAP_ARM (R365): a Kresia's selectors stand in a stage area; a Baxel reads them from die memory first. -/
def execSnapArm (p : Part) (m k : Nat) (s : State) : Answer :=
  .next (s.serve p m k 0x0A11 fun s t =>
    let n := t.f 20 1
    if n = 0 || 30 < n then s.complete p m k 0xA103
    else match p with
    | .baxel => s.coreRead (t.f 24 8) (8 * n) (.arm m k)
    | .kresia =>
      if t.f 28 4 ≠ 0 then s.complete .kresia m k 0xA103
      else match s.stageOf m (t.f 24 4) with
      | none => s.complete .kresia m k 0xA109
      | some bs => if bs.length < 8 * n then s.complete .kresia m k 0xA10A else s.armWith .kresia m k bs)

/-- R364: the store a `snap.read` reads: by domain, or the operator's. -/
def State.readStore (s : State) (p : Part) (d : Nat) : Option Nat :=
  match p with
  | .kresia => some d
  | .baxel => if d = 0xFFFF then some 4 else s.tenantOf d

/-- SNAP_READ (R364): a stored record, unretired. -/
def execSnapRead (p : Part) (m k : Nat) (s : State) : Answer :=
  .next (s.serve p m k 0x0A12 fun s t =>
    let rec? : Option SnapRec := match s.readStore p t.domain with
      | some key => (s.snapStore p key).recs.find? fun r => r.snapSeq = t.f 8 4
      | none => none
    match rec? with
    | none => s.complete p m k 0x2042
    | some r => match p with
      | .kresia =>
        if t.f 16 4 ≠ 0 then s.complete .kresia m k 0xA103
        else
          let (s1, c) := s.toStage m (t.f 12 4) r.bytes
          s1.complete .kresia m k (c.getD 0)
      | .baxel => s.bxWrite (t.f 12 8) r.bytes (memTag (if m = 0 then none else some (m - 1))) (.command m k))

end Sys2Proof.Machine
end

