-- ==== Sys2Proof/Machine/CmdMember.lean ====
section
/-! DEFINITION. Mailbox commands of members, tenants, objects, fences and events (R15 to R18, R62, R114, R115, R121, R132,
R135, R312, R313, R315 to R317), and what a Baxel takes of admissions and bindings (R17, R392). -/

namespace Sys2Proof.Machine

/-! ### Members (R15, R16, R62, R392) -/

/-- MEMBER_ADMIT (R15, R62, R392, R441): a leaf looks at the last heartbeat of the port and sends the admission. -/
def execMemberAdmit (p : Part) (m k : Nat) (s : State) : Answer :=
  .next (s.serve p m k 0x0201 fun s t =>
    let member := t.f 8 3
    let port := t.f 11 1
    if s.isSpine then s.wrongPart .kresia m k none
    else if 2 ^ 20 ≤ member || s.ks.build.dies ≤ port then s.complete .kresia m k 0xA103
    else if !s.ksReady then s.complete .kresia m k 0x1010
    else match (s.lp .kresia port).hb with
    | none => s.complete .kresia m k 0x1010
    | some h =>
      if h.timeState ≠ 2 then s.complete .kresia m k 0x1010
      else if h.singleDomain then s.complete .kresia m k 0x9001
      else if h.node ≠ 0 && h.node ≠ member then s.complete .kresia m k 0xA10F
      else ((s.modKs fun z => { z with admitted := FMap.set z.admitted member port }).emit
        (.send .kresia (.port port) (.admission member))).complete .kresia m k 0)

/-- Whether a tenant of a member is bound, as this leaf knows it: a position of a domain, or its last heartbeat. -/
def State.memberBound (s : State) (member port : Nat) : Bool :=
  (s.ks.doms.any fun (_, x) => x.positions.any fun q => q.bound && q.e.member = member) ||
  match (s.lp .kresia port).hb with
  | some h => (List.range 4).any fun i => h.tenants / 4 ^ i % 4 = 1 || h.tenants / 4 ^ i % 4 = 2
  | none => false

/-- MEMBER_RETIRE (R16): the leaf tells the die's Baxel (DEDUCED, log 147). -/
def execMemberRetire (p : Part) (m k : Nat) (s : State) : Answer :=
  .next (s.serve p m k 0x0202 fun s t =>
    let member := t.f 8 3
    match FMap.find? s.ks.admitted member with
    | none => s.wrongPart .kresia m k none
    | some port =>
      if s.memberBound member port then s.complete .kresia m k 0x2001
      else ((s.modKs fun z => { z with admitted := FMap.erase z.admitted member }).emit
        (.send .kresia (.port port) (.retirement member))).complete .kresia m k 0)

/-- MEMBER_ADMISSION_RX (R16, R392): the first admission gives the Baxel its identifier, and its retirement ends it. -/
def execMemberAdmissionRx (port member : Nat) (retired : Bool) (s : State) : Answer :=
  if 8 ≤ port then .next s
  else if retired then
    if s.bit .baxel 0x0004 31 && s.node .baxel = member then .next (s.wr .baxel 0x0004 0) else .next s
  else if s.bit .baxel 0x0004 31 then .next s
  else .next (s.wr .baxel 0x0004 (BitVec.ofNat 32 (2 ^ 31 + member % 2 ^ 20)))

/-- TENANT_BINDING_RX (R17, R202): a binding of one of this Baxel's tenants to a domain, or its end; of another member, the
place its position has now. A tenant bound elsewhere keeps its binding. -/
def execTenantBindingRx (x : Binding) (s : State) : Answer :=
  if x.member = s.node .baxel && s.bit .baxel 0x0004 31 && x.tenant < 4 then
    let t := s.ten x.tenant
    if x.bound then
      if t.domain.isSome then .next s
      else .next (s.modTen x.tenant fun _ =>
        { domain := some x.domain, faulted := t.faulted, tcq := t.tcq, lpGo := t.lpGo, position := x.position
          group := x.group, port := x.port })
    else if t.domain = some x.domain then
      let s1 := (s.slotsOf x.tenant).foldl (fun (s : State) (q : Nat × Slot) =>
        if q.2.state = .free then s else (s.slotVoid x.tenant q.1).modSlot x.tenant q.1 fun _ => {}) s
      .next (s1.modTen x.tenant fun _ => { faulted := t.faulted, tcq := t.tcq, lpGo := t.lpGo })
    else .next s
  else match s.tenantOf x.domain with
  | none => .next s
  | some u =>
    if x.bound then
      .next (s.modTen u fun y =>
        { y with peers := y.peers.set x.position (x.member, x.group)
                 v2Peers := if x.v2 then x.member :: y.v2Peers else y.v2Peers })
    else .next s

/-! ### Tenants of a Baxel (R114, R115, R132) -/

/-- TENANT_FAULT (R114). -/
def execTenantFault (p : Part) (m k : Nat) (s : State) : Answer :=
  .next (s.serve p m k 0x0206 fun s t =>
    let i := t.f 8 1
    let cause := t.f 10 2
    if 4 ≤ i then s.complete .baxel m k 0xA103
    else (s.tenantFault i (if cause = 0 then 0x2006 else BitVec.ofNat 16 cause)).complete .baxel m k 0)

/-- R115, R132: a tenant recovered. -/
def State.recoverTenant (s : State) (t : Nat) : State :=
  let s1 := (s.modTen t fun x => { x with faulted := false }).modBank .baxel (t + 1) fun b => { b with poison := false }
  let s2 := (s1.slotsOf t).foldl (fun (s : State) (q : Nat × Slot) =>
    if q.2.state = .void then s.modSlot t q.1 fun e => { e with state := .loaded } else s) s1
  (List.range (s2.objCount t)).foldl (fun (s : State) (i : Nat) =>
    if (s.obj .baxel (s.objBase t + i)).poison then
      s.modObj .baxel (s.objBase t + i) fun o => { o with value := o.init, poison := false, poisonCode := 0 }
    else s) s2

/-- TENANT_RECOVER (R115, R132). -/
def execTenantRecover (p : Part) (m k : Nat) (s : State) : Answer :=
  .next (s.serve p m k 0x0207 fun s t =>
    let i := t.f 8 1
    if 4 ≤ i then s.complete .baxel m k 0xA103
    else if !(s.ten i).faulted then s.complete .baxel m k 0x2013
    else (s.recoverTenant i).complete .baxel m k 0)

/-! ### Cluster objects (R121, R126, R127, R135) -/

/-- R126: why an operation of a mailbox on a cluster object is refused. -/
def State.mailRefusal (s : State) (m : Nat) (t : Taken) : Option Code :=
  let o := t.f 8 2
  let op := t.f 10 1
  let n := t.f 12 4
  let x := s.obj .kresia o
  if 6 ≤ op || ((op = 1 || op = 2 || op = 3) && n = 0) || ((1 ≤ op && op ≤ 4) && 2 ^ 31 ≤ n) then some 0x3004
  else if x.domain ≠ some t.domain then some 0x3006
  else if op = 4 && !privMbox .kresia m then some 0x3007
  else if op ≠ 0 && op ≠ 4 && x.poison then some 0x3003
  else none

/-- The waiting TAKEs of a mailbox with a tag. -/
def State.mailTakes (s : State) (m tag : Nat) : List (Nat × Waiter) :=
  s.ks.objs.flatMap fun (o, x) => (x.waiters.filter fun w => w.tag = tag && (match w.source with
    | .mailbox n _ => n = m
    | _ => false)).map fun w => (o, w)

/-- A TAKE of a mailbox: at once, or waiting in its slot. -/
def State.mailTake (s : State) (m k : Nat) (t : Taken) : State :=
  let o := t.f 8 2
  let n := t.f 12 4
  let x := s.obj .kresia o
  if x.waiters.isEmpty && n ≤ x.value then
    (s.modObj .kresia o fun y => { y with value := y.value - n }).complete .kresia m k 0 (leBytes 4 (x.value - n))
  else if !s.ksWaitRoom then s.complete .kresia m k 0x3008 (leBytes 4 x.value)
  else s.joinWait .kresia o
    { source := .mailbox m k, tag := t.f 16 2, owner := t.domain, n := n, issued := s.raw .kresia, timeoutUs := t.f 18 2 }

/-- R143: who a mailbox applies as; LAST_SEQ is not stated for it (log 1). -/
def State.mailApplier (s : State) (m : Nat) : Applier × State :=
  let (v, s1) := s.draw
  (⟨s.fld .kresia 0x4 0 17, 1, if privMbox .kresia m then 9 else 15, v % 2 ^ 32⟩, s1)

/-- OBJ_OP (R121, R126, R127, R135, R391). -/
def execObjOp (p : Part) (m k : Nat) (s : State) : Answer :=
  .next (s.serve p m k 0x0301 fun s t =>
    let o := t.f 8 2
    let n := t.f 12 4
    let fin (s : State) (code : Code) : State := s.complete .kresia m k code (leBytes 4 (s.obj .kresia o).value)
    match s.mailRefusal m t with
    | some c => s.complete .kresia m k c
    | none =>
      let (a, s1) := s.mailApplier m
      match t.f 10 1 with
      | 0 => fin s (if (s.obj .kresia o).poison then 0x3003 else 0)
      | 1 => fin (s1.signalObj .kresia o n a).1 (s1.signalObj .kresia o n a).2
      | 2 => s.mailTake m k t
      | 3 => fin (s.decObj .kresia o n).1 (s.decObj .kresia o n).2
      | 4 => fin (s1.setObj .kresia o n a) 0
      | _ => match s.mailTakes m (t.f 16 2) with
        | (ow, w) :: _ => fin (s.withdraw .kresia ow w 0x300B) 0
        | [] => fin s 0x300B)

/-! ### Fences, suspicions and events (R312, R313, R315 to R317) -/

/-- R315: a fence or its end by command: refused, or applied at once, with the ports it applied at. -/
def State.fenceCmd (s : State) (m k : Nat) (t : Taken) (clear : Bool) : State :=
  let n : FenceNotice := ⟨clear, t.f 8 3, t.f 12 4⟩
  let ports := (s.upPorts .kresia).filter fun q => (s.lp .kresia q).peer.any fun c => c.node = n.subject
  if 2 ^ 20 + 2 ^ 17 ≤ n.subject then s.complete .kresia m k 0xA103
  else if !s.fenceNewer n then s.complete .kresia m k 0x9004
  else (s.applyFence n).complete .kresia m k 0 (leBytes 2 ports.length)

/-- FENCE_SET (R315, R316). -/
def execFenceSet (p : Part) (m k : Nat) (s : State) : Answer :=
  .next (s.serve p m k 0x0901 fun s t => s.fenceCmd m k t false)

/-- FENCE_CLEAR (R315, R317). -/
def execFenceClear (p : Part) (m k : Nat) (s : State) : Answer :=
  .next (s.serve p m k 0x0902 fun s t => s.fenceCmd m k t true)

/-- MEMBER_SUSPECT (R313). -/
def execMemberSuspect (p : Part) (m k : Nat) (s : State) : Answer :=
  .next (s.serve p m k 0x090A fun s t =>
    let member := t.f 8 3
    if 2 ^ 20 ≤ member then s.complete p m k 0xA103
    else (s.report p 0x900F (subject := some member)).complete p m k 0)

/-- EVT_ACK (R312, R336): the records up to the EVT_SEQ named are no longer held; EVT_ACKED keeps the highest. -/
def execEvtAck (p : Part) (m k : Nat) (s : State) : Answer :=
  .next (s.serve p m k 0x090B fun s t =>
    let seq : Word := BitVec.ofNat 32 (t.f 8 4)
    let s1 := if 0 < (seq - s.rd .kresia 0x1B0024).toInt then s.wr .kresia 0x1B0024 seq else s
    (s1.modKs fun z => { z with events := z.events.filter fun r => 0 < (BitVec.ofNat 32 r.evtSeq - seq).toInt }).complete
      .kresia m k 0)

end Sys2Proof.Machine
end

