-- ==== Sys2Proof/Machine/CmdTime.lean ====
section
/-! DEFINITION. Mailbox commands of time (R45, R48, R56, R58, R391). -/

namespace Sys2Proof.Machine

/-- TIME_READ (R391): raw, OT, state, traceability and UTC offset of this cycle. -/
def execTimeRead (p : Part) (m k : Nat) (s : State) : Answer :=
  .next (s.serve p m k 0x0101 fun s _ =>
    let u := (s.pc p).time
    s.complete p m k 0 (leBytes 8 u.raw.toNat ++ otBytes u.now ++ leBytes 1 u.state.code ++ leBytes 1 (bitN u.gmTraceable) ++
      leBytes 2 u.utcOffset.toNat))

/-- R392: the primary time crown takes a command; another Kresia does not know which node that is. -/
def State.atPrimary (s : State) (p : Part) (m k : Nat) (f : State) : State :=
  if s.ks.c.time.crown.role = 1 then f else s.wrongPart p m k none

/-- TIME_FREE_START (R27, R48): the root takes the stated OT; GM_TRACEABLE clears. -/
def execTimeFreeStart (p : Part) (m k : Nat) (s : State) : Answer :=
  .next (s.serve p m k 0x0102 fun s t =>
    let ot := leOt t.bytes 8
    s.atPrimary p m k
      (if ot.malformed then s.complete p m k 0x1003
       else
        let c := s.ks.c.time.crown
        let s1 := if c.isRoot then s else s.takeRoot 0 s.ks.c.time.rootEpoch
        let s2 := (s1.modTime .kresia fun u =>
          { u with gmTraceable := false, crown := { u.crown with freeStarted := true } }).setBit .kresia 0x100310 25 false
        (s2.servoCommit .kresia (fun _ => ot) s2.ks.c.time.rateFreq (some .acquiring)).complete p m k 0))

/-- TIME_ROOT_RESUME (R58): a primary that is an ordinary node takes the root; ROOT_EPOCH counts the change. -/
def execTimeRootResume (p : Part) (m k : Nat) (s : State) : Answer :=
  .next (s.serve p m k 0x0103 fun s _ =>
    s.atPrimary p m k
      (if s.ks.c.time.crown.isRoot then s.complete p m k 0
       else (s.takeRoot 0 (s.ks.c.time.rootEpoch + 1)).complete p m k 0))

/-- R56: the mean of 1,024 servo intervals with ASYM = 0, once they have passed. -/
def PortTime.swapMean (x : PortTime) : Option Int := if x.swapCount = 1024 then some (floorDiv x.swapSum 1024) else none

/-- R55, R56: what a recorded θ_b makes ASYM. -/
def asymOf (a b : Int) : Int := floorDiv (a - b) 2

/-- R56: one recording: θ_a, or θ_b and with it ASYM; the result shows θ and ASYM. -/
def State.swapRecord (s : State) (m k port phase : Nat) (theta : Int) : State :=
  let fresh := s.modPt .kresia port fun y =>
    { y with swapSum := 0, swapCount := 0, swapPhase := none, thetaA := if phase = 0 then some theta else y.thetaA }
  let shown (w : Word) : List Byte := leBytes 8 (BitVec.ofInt 64 theta).toNat ++ leBytes 4 w.toNat
  if phase = 0 then fresh.complete .kresia m k 0 (shown (s.rd .kresia (ttPort .kresia port 8)))
  else match (s.pt .kresia port).thetaA with
    | none => s.complete .kresia m k 0xA103
    | some a =>
      let v := asymOf a theta
      if v < -65536 || 65536 < v then fresh.complete .kresia m k 0x100F
      else (fresh.wr .kresia (ttPort .kresia port 8) (BitVec.ofInt 32 v)).complete .kresia m k 0 (shown (BitVec.ofInt 32 v))

/-- R56: the 1,024 intervals of a phase begin, with ASYM = 0. -/
def State.swapStart (s : State) (port phase : Nat) : State :=
  (s.wr .kresia (ttPort .kresia port 8) 0).modPt .kresia port fun y =>
    { y with swapSum := 0, swapCount := 0, swapPhase := some phase }

/-- R56: whether firmware takes the recording: a phase of the table, and θ_b only after θ_a. -/
def PortTime.swapFits (x : PortTime) (phase : Nat) : Bool := phase = 0 || (phase = 1 && x.thetaA.isSome)

/-- TIME_SWAP_CAL (R56, R392): the time crown of a child hall records θ_a or θ_b. The command begins its 1,024 servo intervals
with ASYM = 0 when it starts, and waits until they have passed. -/
def execTimeSwapCal (p : Part) (m k : Nat) (s : State) : Answer :=
  let x := s.ks.c.time.crown
  let take (s : State) (t : Taken) : State :=
    let port := t.f 8 1
    let phase := t.f 9 1
    if x.role = 0 || x.siteRoot then s.wrongPart .kresia m k none
    else if !(s.pt .kresia port).swapFits phase then s.complete .kresia m k 0xA103
    else match (s.pt .kresia port).swapMean with
      | some v => s.swapRecord m k port phase v
      | none => s
  match p, (s.mslot .kresia m k).taken with
  | .kresia, some t =>
    let port := t.f 8 1
    let y := s.pt .kresia port
    let mine := !(x.role = 0 || x.siteRoot) && y.swapFits (t.f 9 1)
    if t.op = 0x0104 && mine && s.startsNow .kresia m t && y.swapPhase ≠ some (t.f 9 1) then .next (s.swapStart port (t.f 9 1))
    else if t.op = 0x0104 && mine && y.swapMean.isNone then .next s
    else .next (s.serve .kresia m k 0x0104 take)
  | _, _ => .next s

/-- R391: a list of classes from four priority bytes, the class of each row of R45 having one; none where they are no order
of 1 to 4. -/
def orderOf {α : Type} (classes : List α) (bytes : List Nat) : Option (List α) :=
  if (List.range 4).all fun i => bytes.contains (i + 1) then
    some ((List.range 4).filterMap fun i => ((classes.zip bytes).find? fun q => q.2 = i + 1).map fun q => q.1)
  else none

/-- TIME_SOURCE_ORDER (R45, R391): each class of sources takes the order commanded at the next servo interval. -/
def execTimeSourceOrder (p : Part) (m k : Nat) (s : State) : Answer :=
  .next (s.serve p m k 0x0105 fun s t =>
    let bs (o : Nat) : List Nat := (List.range 4).map fun i => t.f (o + i) 1
    match orderOf [PhaseSource.ptp, .pps, .none, .none] (bs 8), orderOf [FreqSource.syncE, .fref, .ptpRate, .board] (bs 12) with
    | some a, some b =>
      (s.modTime .kresia fun u => { u with crown := { u.crown with nextOrder := some (a, b) } }).complete p m k 0
    | _, _ => s.complete p m k 0xA103)

end Sys2Proof.Machine
end

