-- ==== Sys2Proof/Machine/Power.lean ====
section
/-! DEFINITION. Clocks, power, cooling and memory stacks (R405, R434, R435, R438, R443). -/

namespace Sys2Proof.Machine

/-- The ports of a part that are up or in training, ascending. -/
def State.livePorts (s : State) (p : Part) : List Nat :=
  (List.range (portCount p)).filter fun n => (s.lp p n).step ≠ 0 && (s.lp p n).step ≠ 6

/-- REFCLK_LOST (R405): slots that have not fired become VOID, the raw counter stops (log 8), every port leaves service
flushing, and IRQ_PRIV is raised; nothing is sent on any port. -/
def execRefclkLost (s : State) : Answer :=
  if s.bx.refclkLost || s.bx.c.fw.inReset then .next s
  else
    let s1 := s.voidUnfired.modBx fun b => { b with refclkLost := true }
    let s2 := (s1.livePorts .baxel).foldl (fun (s : State) (n : Nat) => s.portGone .baxel n 0xB006) s1
    .next ({ s2 with out := s1.out }.irqPriv .baxel)

/-- PWR_GOOD_DROP (R434): acts as RST_N does; no event is sent. -/
def execPwrGoodDrop (s : State) : Answer := .next (s.partReset .kresia)

/-- COOLANT_CHECK (R435): every 100 ms firmware reads the lid: the inlet temperature in thousandths of a degree, and the
flow in mL/min that the difference implies at the reported power; out of range for 1 s is reported once. -/
def execCoolantCheck (inlet : Int) (flow : Nat) (s : State) : Answer :=
  if !s.elapsed .kresia s.ks.lastCoolant (msGrains 100) then .next s
  else
    let now := s.raw .kresia
    if inlet ≤ 40000 && 2000 ≤ flow then
      .next (s.modKs fun k => { k with lastCoolant := some now, coolantSince := none, coolantTold := false })
    else
      let since := s.ks.coolantSince.getD now
      let tell : Bool := msGrains 1000 ≤ Raw.diff now since && !s.ks.coolantTold
      let s1 := s.modKs fun k =>
        { k with lastCoolant := some now, coolantSince := some since, coolantTold := k.coolantTold || tell }
      .next (if tell then s1.report .kresia 0xB00C else s1)

/-- THERMAL_TRIP (R438): once: the event, THERM_TRIP_N low, and every port out of service until RST_N. -/
def execThermalTrip (s : State) : Answer :=
  if s.ks.tripped then .next s
  else
    let s1 := (s.report .kresia 0xB00A).modKs fun k => { k with tripped := true }
    .next ((s1.livePorts .kresia).foldl (fun (s : State) (n : Nat) => s.portGone .kresia n 0xB00A) s1)

/-- MEM_UNCORRECTABLE (R443): an uncorrectable error of a stack, or its failure in training; more than 16 within an hour
mark the Kresia MEM_FAILED. -/
def execMemUncorrectable (stack : Nat) (training : Bool) (s : State) : Answer :=
  let now := s.raw .kresia
  let old := (FMap.getD s.ks.memErrors stack []).filter fun r => Raw.diff now r ≤ msGrains 3600000
  let l := old ++ [now]
  let s1 := s.modKs fun k => { k with memErrors := FMap.set k.memErrors stack l }
  if 32 ≤ stack then .next s
  else if training || (old.length ≤ 16 && 16 < l.length) then
    .next ((s1.modKs fun k => { k with memFailed := true }).report .kresia 0xB00B [stack])
  else .next s1

/-- BRIM_FAILED (R443): the die's stacks and lanes leave service; the Kresia is MEM_FAILED. -/
def execBrimFailed (brim : Nat) (s : State) : Answer :=
  if 4 ≤ brim || s.ks.brimFailed.contains brim then .next s
  else
    let s1 := (s.modKs fun k => { k with memFailed := true, brimFailed := k.brimFailed ++ [brim] }).report .kresia 0xB00D [brim]
    .next (((s1.livePorts .kresia).filter fun n => s1.brimOf n = brim).foldl (fun (s : State) (n : Nat) =>
      s.portGone .kresia n 0xB00D) s1)

end Sys2Proof.Machine
end

