-- ==== Sys2Proof/Machine/Dispatch.lean ====
section
/-! DEFINITION. One arm for each command: a direct call of its meaning. -/

namespace Sys2Proof.Machine

def exec (i : Instr) (s : State) : Host.Outcome State Fault Refusal :=
  match i with
  | .tsCommit p => Sys2Proof.Machine.execTsCommit p s
  | .applyRawReached p => Sys2Proof.Machine.execApplyRawReached p s
  | .tsRebase p => Sys2Proof.Machine.execTsRebase p s
  | .ftRawLoRead p v => Sys2Proof.Machine.execFtRawLoRead p v s
  | .timeCellSend p port tx => Sys2Proof.Machine.execTimeCellSend p port tx s
  | .timeCellRx p port cell rx peer => Sys2Proof.Machine.execTimeCellRx p port cell rx peer s
  | .servoInterval p f => Sys2Proof.Machine.execServoInterval p f s
  | .parentChoice => Sys2Proof.Machine.execParentChoice s
  | .rootTakeover => Sys2Proof.Machine.execRootTakeover s
  | .timeNoSource => Sys2Proof.Machine.execTimeNoSource s
  | .ptpFrameRx port domainNumber f rx => Sys2Proof.Machine.execPtpFrameRx port domainNumber f rx s
  | .ptpMessageTx port m ident tx => Sys2Proof.Machine.execPtpMessageTx port m ident tx s
  | .ppsInEdge e => Sys2Proof.Machine.execPpsInEdge e s
  | .todRxMessage ot utcOffset => Sys2Proof.Machine.execTodRxMessage ot utcOffset s
  | .tdcCalStart p tdc => Sys2Proof.Machine.execTdcCalStart p tdc s
  | .calIntervalExpiry p tdc => Sys2Proof.Machine.execCalIntervalExpiry p tdc s
  | .tempSensorRead p temp => Sys2Proof.Machine.execTempSensorRead p temp s
  | .calStartWrite p => Sys2Proof.Machine.execCalStartWrite p s
  | .tdcCalDone p tdc hits => Sys2Proof.Machine.execTdcCalDone p tdc hits s
  | .tdcCalShort p tdc => Sys2Proof.Machine.execTdcCalShort p tdc s
  | .stampEdge p ch falling width e => Sys2Proof.Machine.execStampEdge p ch falling width e s
  | .gateInputEdge p g rising phase e => Sys2Proof.Machine.execGateInputEdge p g rising phase e s
  | .gateWindowEdge p g => Sys2Proof.Machine.execGateWindowEdge p g s
  | .armWin p g => Sys2Proof.Machine.execArmWin p g s
  | .swOpen p g level => Sys2Proof.Machine.execSwOpen p g level s
  | .stampChannelCfgWrite p ch w => Sys2Proof.Machine.execStampChannelCfgWrite p ch w s
  | .stampPop p v ch n => Sys2Proof.Machine.execStampPop p v ch n s
  | .ringRecordWritten p ch => Sys2Proof.Machine.execRingRecordWritten p ch s
  | .freqArm p g => Sys2Proof.Machine.execFreqArm p g s
  | .freqMaxnReached p g => Sys2Proof.Machine.execFreqMaxnReached p g s
  | .freqRetire p g seq => Sys2Proof.Machine.execFreqRetire p g seq s
  | .txqPop p n => Sys2Proof.Machine.execTxqPop p n s
  | .llPartWrite t w => Sys2Proof.Machine.execLlPartWrite t w s
  | .rowAllowWrite t hi w => Sys2Proof.Machine.execRowAllowWrite t hi w s
  | .templateLoad ld => Sys2Proof.Machine.execTemplateLoad ld s
  | .arrive t step => Sys2Proof.Machine.execArrive t step s
  | .leafReportRx port m => Sys2Proof.Machine.execLeafReportRx port m s
  | .leafRecordTimeout kind domain => Sys2Proof.Machine.execLeafRecordTimeout kind domain s
  | .crownArriveRx src m => Sys2Proof.Machine.execCrownArriveRx src m s
  | .armStallRelease domain => Sys2Proof.Machine.execArmStallRelease domain s
  | .crownAckRx src m => Sys2Proof.Machine.execCrownAckRx src m s
  | .adlExpiry domain => Sys2Proof.Machine.execAdlExpiry domain s
  | .crownReportRx src m => Sys2Proof.Machine.execCrownReportRx src m s
  | .bxArmRx port rx m => Sys2Proof.Machine.execBxArmRx port rx m s
  | .bxTampRx port rx m => Sys2Proof.Machine.execBxTampRx port rx m s
  | .bxVoidRx port m => Sys2Proof.Machine.execBxVoidRx port m s
  | .orphanTest t slot => Sys2Proof.Machine.execOrphanTest t slot s
  | .fireCycle t slot => Sys2Proof.Machine.execFireCycle t slot s
  | .gateTakeLate t slot => Sys2Proof.Machine.execGateTakeLate t slot s
  | .gateWaitExpiry t slot => Sys2Proof.Machine.execGateWaitExpiry t slot s
  | .lpAccept t => Sys2Proof.Machine.execLpAccept t s
  | .bellFire t slot => Sys2Proof.Machine.execBellFire t slot s
  | .lpErrInput t => Sys2Proof.Machine.execLpErrInput t s
  | .bxFenceNotice n => Sys2Proof.Machine.execBxFenceNotice n s
  | .bxFenceLift n => Sys2Proof.Machine.execBxFenceLift n s
  | .steerCfgWrite w => Sys2Proof.Machine.execSteerCfgWrite w s
  | .objPeek r => Sys2Proof.Machine.execObjPeek r s
  | .objSignal r => Sys2Proof.Machine.execObjSignal r s
  | .objTake r => Sys2Proof.Machine.execObjTake r s
  | .objDec r => Sys2Proof.Machine.execObjDec r s
  | .objSet r => Sys2Proof.Machine.execObjSet r s
  | .objCancel r => Sys2Proof.Machine.execObjCancel r s
  | .takeTimeout p obj source tag => Sys2Proof.Machine.execTakeTimeout p obj source tag s
  | .tcqPop t n => Sys2Proof.Machine.execTcqPop t n s
  | .objPartWrite t w => Sys2Proof.Machine.execObjPartWrite t w s
  | .wfloorWrite t w => Sys2Proof.Machine.execWfloorWrite t w s
  | .rsigPartWrite t w => Sys2Proof.Machine.execRsigPartWrite t w s
  | .rsigPacketRx p port x => Sys2Proof.Machine.execRsigPacketRx p port x s
  | .memWriteResponse p port id err => Sys2Proof.Machine.execMemWriteResponse p port id err s
  | .rsigOverrunWaitEnd p src transfer => Sys2Proof.Machine.execRsigOverrunWaitEnd p src transfer s
  | .rsigTimeout p src transfer => Sys2Proof.Machine.execRsigTimeout p src transfer s
  | .rwDoneRx p src d => Sys2Proof.Machine.execRwDoneRx p src d s
  | .v2SignalPacketRx p port x => Sys2Proof.Machine.execV2SignalPacketRx p port x s
  | .progImageRx x => Sys2Proof.Machine.execProgImageRx x s
  | .progLoadAckRx a => Sys2Proof.Machine.execProgLoadAckRx a s
  | .kresiaTampRx m => Sys2Proof.Machine.execKresiaTampRx m s
  | .queueIssueTick domain step => Sys2Proof.Machine.execQueueIssueTick domain step s
  | .entryComplete domain step entry => Sys2Proof.Machine.execEntryComplete domain step entry s
  | .waitTakeDone domain step entry => Sys2Proof.Machine.execWaitTakeDone domain step entry s
  | .waitTimeout domain step entry => Sys2Proof.Machine.execWaitTimeout domain step entry s
  | .schedStart domain step entry => Sys2Proof.Machine.execSchedStart domain step entry s
  | .schedOverrun domain step entry => Sys2Proof.Machine.execSchedOverrun domain step entry s
  | .kresiaVoidRx m => Sys2Proof.Machine.execKresiaVoidRx m s
  | .cpGo t => Sys2Proof.Machine.execCpGo t s
  | .chunkBaseRx p n => Sys2Proof.Machine.execChunkBaseRx p n s
  | .chunkPacketRx port k => Sys2Proof.Machine.execChunkPacketRx port k s
  | .chunkOpenWait entry => Sys2Proof.Machine.execChunkOpenWait entry s
  | .chunkDoneRx n => Sys2Proof.Machine.execChunkDoneRx n s
  | .chunkFailRx n => Sys2Proof.Machine.execChunkFailRx n s
  | .partTimeout entry sender => Sys2Proof.Machine.execPartTimeout entry sender s
  | .chunkRestartRx p n => Sys2Proof.Machine.execChunkRestartRx p n s
  | .homeMoveRx p m => Sys2Proof.Machine.execHomeMoveRx p m s
  | .feltProbeSel w => Sys2Proof.Machine.execFeltProbeSel w s
  | .chunkSel w => Sys2Proof.Machine.execChunkSel w s
  | .blockStart => Sys2Proof.Machine.execBlockStart s
  | .blockCommit domain coll chunk => Sys2Proof.Machine.execBlockCommit domain coll chunk s
  | .stateEccError domain coll chunk copy => Sys2Proof.Machine.execStateEccError domain coll chunk copy s
  | .dpGo t => Sys2Proof.Machine.execDpGo t s
  | .dspOpenRx n => Sys2Proof.Machine.execDspOpenRx n s
  | .dspRecordRx x => Sys2Proof.Machine.execDspRecordRx x s
  | .dspListRx x => Sys2Proof.Machine.execDspListRx x s
  | .dspGoRx n => Sys2Proof.Machine.execDspGoRx n s
  | .dspPayloadRx x => Sys2Proof.Machine.execDspPayloadRx x s
  | .dpRetGo t => Sys2Proof.Machine.execDpRetGo t s
  | .dspLostRx n => Sys2Proof.Machine.execDspLostRx n s
  | .dspRestartRx n => Sys2Proof.Machine.execDspRestartRx n s
  | .dspSel w => Sys2Proof.Machine.execDspSel w s
  | .packetEnqueue p port src x => Sys2Proof.Machine.execPacketEnqueue p port src x s
  | .packetBoundary p port => Sys2Proof.Machine.execPacketBoundary p port s
  | .packetRx p port x => Sys2Proof.Machine.execPacketRx p port x s
  | .ackRx p port h => Sys2Proof.Machine.execAckRx p port h s
  | .nakRx p port seq h => Sys2Proof.Machine.execNakRx p port seq h s
  | .nakWaitTimer p port => Sys2Proof.Machine.execNakWaitTimer p port s
  | .retryTimeout p port => Sys2Proof.Machine.execRetryTimeout p port s
  | .ackTimer p port => Sys2Proof.Machine.execAckTimer p port s
  | .planeLostRx n => Sys2Proof.Machine.execPlaneLostRx n s
  | .planeBackRx n => Sys2Proof.Machine.execPlaneBackRx n s
  | .ledgerSnap p => Sys2Proof.Machine.execLedgerSnap p s
  | .creditCfgWrite cls w => Sys2Proof.Machine.execCreditCfgWrite cls w s
  | .portBringUp p port => Sys2Proof.Machine.execPortBringUp p port s
  | .laneLock p port align skew => Sys2Proof.Machine.execLaneLock p port align skew s
  | .sdLockLost p port => Sys2Proof.Machine.execSdLockLost p port s
  | .capsSendTimer p port => Sys2Proof.Machine.execCapsSendTimer p port s
  | .capsRx p port c => Sys2Proof.Machine.execCapsRx p port c s
  | .capsAckRx p port c tx rx => Sys2Proof.Machine.execCapsAckRx p port c tx rx s
  | .trainTimeout p port => Sys2Proof.Machine.execTrainTimeout p port s
  | .lmsMissing p port => Sys2Proof.Machine.execLmsMissing p port s
  | .gateListCommit p port => Sys2Proof.Machine.execGateListCommit p port s
  | .gateListCancel p port => Sys2Proof.Machine.execGateListCancel p port s
  | .gateSwap p port => Sys2Proof.Machine.execGateSwap p port s
  | .gateBoundary p port => Sys2Proof.Machine.execGateBoundary p port s
  | .shaperCfgWrite p port hi w => Sys2Proof.Machine.execShaperCfgWrite p port hi w s
  | .overheadWrite p port w => Sys2Proof.Machine.execOverheadWrite p port w s
  | .qsampleCfgWrite p port count w => Sys2Proof.Machine.execQsampleCfgWrite p port count w s
  | .qsampleTick p port => Sys2Proof.Machine.execQsampleTick p port s
  | .qsampleRetire p port seq => Sys2Proof.Machine.execQsampleRetire p port seq s
  | .heartbeatSend p port => Sys2Proof.Machine.execHeartbeatSend p port s
  | .heartbeatRx p port h => Sys2Proof.Machine.execHeartbeatRx p port h s
  | .heartbeatLost p port => Sys2Proof.Machine.execHeartbeatLost p port s
  | .baxelReportRx port r => Sys2Proof.Machine.execBaxelReportRx port r s
  | .ksAliveTimer => Sys2Proof.Machine.execKsAliveTimer s
  | .eventResendTimer => Sys2Proof.Machine.execEventResendTimer s
  | .fenceNoticeRx n => Sys2Proof.Machine.execFenceNoticeRx n s
  | .remirrorChunkCommit domain coll chunk => Sys2Proof.Machine.execRemirrorChunkCommit domain coll chunk s
  | .throttleLevelChange up => Sys2Proof.Machine.execThrottleLevelChange up s
  | .cupPartialRx m => Sys2Proof.Machine.execCupPartialRx m s
  | .cupIncompleteTimeout domain step => Sys2Proof.Machine.execCupIncompleteTimeout domain step s
  | .cupShardDigestsRx m => Sys2Proof.Machine.execCupShardDigestsRx m s
  | .ctrCfgWrite p v addr w => Sys2Proof.Machine.execCtrCfgWrite p v addr w s
  | .ctrLatch p v addr w => Sys2Proof.Machine.execCtrLatch p v addr w s
  | .ctrClear p v addr w => Sys2Proof.Machine.execCtrClear p v addr w s
  | .snapRx p x => Sys2Proof.Machine.execSnapRx p x s
  | .snapCapture p => Sys2Proof.Machine.execSnapCapture p s
  | .snapRetire p v seq => Sys2Proof.Machine.execSnapRetire p v seq s
  | .tagCfgWrite p addr w => Sys2Proof.Machine.execTagCfgWrite p addr w s
  | .tagPop p n => Sys2Proof.Machine.execTagPop p n s
  | .resetAssert p => Sys2Proof.Machine.execResetAssert p s
  | .resetDeassert x => Sys2Proof.Machine.execResetDeassert x s
  | .bootGo v w => Sys2Proof.Machine.execBootGo v w s
  | .bootVerifyDone x => Sys2Proof.Machine.execBootVerifyDone x s
  | .fwReady p => Sys2Proof.Machine.execFwReady p s
  | .watchdogExpiry p => Sys2Proof.Machine.execWatchdogExpiry p s
  | .mboxDoorbell p v m w => Sys2Proof.Machine.execMboxDoorbell p v m w s
  | .mboxRetire p v m w => Sys2Proof.Machine.execMboxRetire p v m w s
  | .mboxDatagramRx x => Sys2Proof.Machine.execMboxDatagramRx x s
  | .retireDatagramRx x => Sys2Proof.Machine.execRetireDatagramRx x s
  | .registerWrite p v addr w => Sys2Proof.Machine.execRegisterWrite p v addr w s
  | .mboxHello p m k => Sys2Proof.Machine.execMboxHello p m k s
  | .mboxBind p m k => Sys2Proof.Machine.execMboxBind p m k s
  | .mboxUnbind p m k => Sys2Proof.Machine.execMboxUnbind p m k s
  | .regRead p m k => Sys2Proof.Machine.execRegRead p m k s
  | .regWrite p m k => Sys2Proof.Machine.execRegWrite p m k s
  | .stageAlloc p m k => Sys2Proof.Machine.execStageAlloc p m k s
  | .stagePut p m k => Sys2Proof.Machine.execStagePut p m k s
  | .stageGet p m k => Sys2Proof.Machine.execStageGet p m k s
  | .stageFree p m k => Sys2Proof.Machine.execStageFree p m k s
  | .timeRead p m k => Sys2Proof.Machine.execTimeRead p m k s
  | .timeFreeStart p m k => Sys2Proof.Machine.execTimeFreeStart p m k s
  | .timeRootResume p m k => Sys2Proof.Machine.execTimeRootResume p m k s
  | .timeSwapCal p m k => Sys2Proof.Machine.execTimeSwapCal p m k s
  | .timeSourceOrder p m k => Sys2Proof.Machine.execTimeSourceOrder p m k s
  | .memberAdmit p m k => Sys2Proof.Machine.execMemberAdmit p m k s
  | .memberRetire p m k => Sys2Proof.Machine.execMemberRetire p m k s
  | .domainCreate p m k v2 elsewhere => Sys2Proof.Machine.execDomainCreate p m k v2 elsewhere s
  | .domainDestroy p m k => Sys2Proof.Machine.execDomainDestroy p m k s
  | .tenantUnbind p m k => Sys2Proof.Machine.execTenantUnbind p m k s
  | .tenantFault p m k => Sys2Proof.Machine.execTenantFault p m k s
  | .tenantRecover p m k => Sys2Proof.Machine.execTenantRecover p m k s
  | .objOp p m k => Sys2Proof.Machine.execObjOp p m k s
  | .progLoad p m k f => Sys2Proof.Machine.execProgLoad p m k f s
  | .progReplace p m k f => Sys2Proof.Machine.execProgReplace p m k f s
  | .progCancel p m k => Sys2Proof.Machine.execProgCancel p m k s
  | .progUnload p m k => Sys2Proof.Machine.execProgUnload p m k s
  | .bellChange p m k => Sys2Proof.Machine.execBellChange p m k s
  | .shardWrite p m k held => Sys2Proof.Machine.execShardWrite p m k held s
  | .shardRead p m k => Sys2Proof.Machine.execShardRead p m k s
  | .scalarSet p m k => Sys2Proof.Machine.execScalarSet p m k s
  | .fenceSet p m k => Sys2Proof.Machine.execFenceSet p m k s
  | .fenceClear p m k => Sys2Proof.Machine.execFenceClear p m k s
  | .mirrorPromote p m k => Sys2Proof.Machine.execMirrorPromote p m k s
  | .mirrorRetarget p m k room service => Sys2Proof.Machine.execMirrorRetarget p m k room service s
  | .homeMove p m k copied => Sys2Proof.Machine.execHomeMove p m k copied s
  | .spareBind p m k x => Sys2Proof.Machine.execSpareBind p m k x s
  | .spareFill p m k held => Sys2Proof.Machine.execSpareFill p m k held s
  | .domainRelease p m k => Sys2Proof.Machine.execDomainRelease p m k s
  | .domainRollback p m k completed => Sys2Proof.Machine.execDomainRollback p m k completed s
  | .memberSuspect p m k => Sys2Proof.Machine.execMemberSuspect p m k s
  | .evtAck p m k => Sys2Proof.Machine.execEvtAck p m k s
  | .ckptCredit p m k => Sys2Proof.Machine.execCkptCredit p m k s
  | .crownPromote p m k => Sys2Proof.Machine.execCrownPromote p m k s
  | .cupConfig p m k => Sys2Proof.Machine.execCupConfig p m k s
  | .cupRead p m k => Sys2Proof.Machine.execCupRead p m k s
  | .cupRetire p m k => Sys2Proof.Machine.execCupRetire p m k s
  | .cupShard p m k => Sys2Proof.Machine.execCupShard p m k s
  | .ctrRead p m k => Sys2Proof.Machine.execCtrRead p m k s
  | .snapArm p m k => Sys2Proof.Machine.execSnapArm p m k s
  | .snapRead p m k => Sys2Proof.Machine.execSnapRead p m k s
  | .refclkLost => Sys2Proof.Machine.execRefclkLost s
  | .memReadData port id data err => Sys2Proof.Machine.execMemReadData port id data err s
  | .memPortTimeout rd port id => Sys2Proof.Machine.execMemPortTimeout rd port id s
  | .pwrGoodDrop => Sys2Proof.Machine.execPwrGoodDrop s
  | .coolantCheck inlet flow => Sys2Proof.Machine.execCoolantCheck inlet flow s
  | .thermalTrip => Sys2Proof.Machine.execThermalTrip s
  | .memUncorrectable stack training => Sys2Proof.Machine.execMemUncorrectable stack training s
  | .brimFailed brim => Sys2Proof.Machine.execBrimFailed brim s
  | .chunkBaseNoticeTimer domain coll role step => Sys2Proof.Machine.execChunkBaseNoticeTimer domain coll role step s
  | .dspAssignEngineFree => Sys2Proof.Machine.execDspAssignEngineFree s
  | .shaperCreditRecovered p port cls => Sys2Proof.Machine.execShaperCreditRecovered p port cls s
  | .launchDescriptorPresent t slot => Sys2Proof.Machine.execLaunchDescriptorPresent t slot s
  | .scalarValueRx x => Sys2Proof.Machine.execScalarValueRx x s
  | .scalarAckRx x node => Sys2Proof.Machine.execScalarAckRx x node s
  | .programFreedRx a => Sys2Proof.Machine.execProgramFreedRx a s
  | .ckptGrantRx x => Sys2Proof.Machine.execCkptGrantRx x s
  | .tenantBindingRx x => Sys2Proof.Machine.execTenantBindingRx x s
  | .memberAdmissionRx port member retired => Sys2Proof.Machine.execMemberAdmissionRx port member retired s
  | .dspPlacementsRx p => Sys2Proof.Machine.execDspPlacementsRx p s
  | .rcRegisterRead addr => Sys2Proof.Machine.execRcRegisterRead addr s
  | .lowWordRead p v addr => Sys2Proof.Machine.execLowWordRead p v addr s

end Sys2Proof.Machine
end

