-- ==== Sys2Proof/Machine/Tick.lean ====
section
/-! DEFINITION. One cycle of the time island (R28): what happens at every cycle whatever is commanded (log 8). -/

namespace Sys2Proof.Machine

/-- R277: a port in service whose queued packets all stand beyond its limit of unacknowledged bytes. -/
def State.replayStall (s : State) (p : Part) (n : Nat) : Bool :=
  let x := s.lp p n
  let heads := x.queues.filterMap fun (_, q) => q.head?
  s.up p n && !heads.isEmpty && heads.all fun q => s.replayMax p n < x.replayUsed + pktBytes q.pkt

/-- R277, R303: a port's shapers and REPLAY_STALL for one cycle. -/
def State.tickPort (s : State) (p : Part) (n : Nat) : State :=
  let s1 := s.tickShapers p n
  if s.replayStall p n then s1.count (evLk p n 0x3C) else s1

/-- R356: a counter in mode 2 or 3 over one cycle, and whether it wraps. -/
def Ctr.cycle (c : Ctr) (level : Nat) : Ctr × Bool :=
  if (c.mode = 2 && c.thresh ≤ level) || (c.mode = 3 && level < c.thresh) then ({ c with value := c.value + 1 }, c.value + 1 = 0)
  else (c, false)

/-- R356, R358: the counters of a bank over one cycle; a bank under POISON stands. -/
def State.tickBank (s : State) (p : Part) (k : Nat) (b : CtrBank) : CtrBank :=
  if b.poison then b
  else
    let l := b.ctrs.map fun (i, c) => (i, if 2 ≤ c.mode then c.cycle (s.levelOf p k c) else (c, false))
    { b with
      ctrs := l.map fun (i, c) => (i, c.1)
      ovf := b.ovf || l.any fun (_, c) => c.2 }

/-- What one cycle does in a part before its raw counter advances. -/
def State.tickUnits (s : State) (p : Part) : State :=
  let s1 := s.modCtr p fun u => { u with banks := FMap.mapVals u.banks fun k b => s.tickBank p k b }
  let s2 := s1.ks.c.link.ports.foldl (fun (s : State) (q : Nat × LinkPort) => if p = .kresia then s.tickPort p q.1 else s) s1
  let s3 := s2.bx.c.link.ports.foldl (fun (s : State) (q : Nat × LinkPort) => if p = .baxel then s.tickPort p q.1 else s) s2
  match p with
  | .kresia => s3
  | .baxel => (List.range 4).foldl (fun (s : State) (t : Nat) => if s.partStall t then s.count (evT t 0x32C) else s) s3

/-- R405, R406, R441: whether a part's raw counter stands: it is in reset, or its reference is lost. -/
def State.halted (s : State) (p : Part) : Bool :=
  (s.pc p).fw.inReset || (p = .baxel && s.bx.refclkLost)

/-- R28, R30: the raw counter advances by 65,536 grains each cycle, and the part has its OT. -/
def State.tickRaw (s : State) (p : Part) : State :=
  s.modTime p fun t => { t with raw := t.raw + 65536 }.noteWrap (t.raw + 65536)

/-- One cycle of a part: TAKEs that wait for a slot are tried and waiters served at the new edge (R123, R131). -/
def State.tickPart (s : State) (p : Part) : State :=
  if s.halted p then s else ((((s.tickUnits p).tickRaw p).tickHeld p).tickObjs p).tickV2 p

/-- One cycle of both parts. -/
def State.tick (s : State) : State := (s.tickPart .baxel).tickPart .kresia

end Sys2Proof.Machine
end

