-- ==== Sys2Proof/Machine/Step.lean ====
section
/-! DEFINITION. One step of the block: the command at the front of the queue, or, with none waiting, one cycle of the
time island. -/

namespace Sys2Proof.Machine

/-- The state with the front of its queue taken off. -/
def State.popped (s : State) : State := { s with pending := s.pending.tail }

/-- The state with a command put at the front of its queue. -/
def State.pushFront (s : State) (c : Instr) : State := { s with pending := c :: s.pending }

/-- One step: the command at the front runs on the state with the queue's rest; on an empty queue a cycle of 1 ns of
the time island passes (log 8). -/
def step (s : State) : Host.Outcome State Fault Refusal :=
  match s.pending with
  | c :: _ => exec c s.popped
  | [] => .next s.tick

/-- The command a word spells, put at the front of the queue; the state unchanged where it spells none. -/
def State.withFetchWord (s : State) (nbits w : Nat) : State :=
  match decodeTableWord nbits w with
  | some c => s.pushFront c
  | none => s

end Sys2Proof.Machine
end

