-- ==== Sys2Proof/Safety.lean ====
section
/-! DEFINITION. What a safe run is, in the terms claims use: no step stops, and the state keeps the bounds and the canonical
form of its memory. -/

namespace Sys2Proof.Machine

/-- Whether a step answers a next state. -/
def steps (s : State) : Prop := ∃ t, step s = .next t

/-- What every step keeps: Kresia memory in its canonical form, the queue of event records within its 4,096 (R312), and
the queues of transmit timestamps within their 64 entries (R86). -/
def State.Inv (s : State) : Prop :=
  Memory.wf s.ks.mem = true ∧ s.ks.events.length ≤ 4096 ∧
  s.bx.c.stamp.txq.length ≤ 64 ∧ s.ks.c.stamp.txq.length ≤ 64

/-- The part whose straps a deassertion of RST_N samples, and the part whose boot ROM ends. -/
def strapPart : BootStraps → Part
  | .baxel _ => .baxel
  | .kresia _ => .kresia
def bootPart : BootInput → Part
  | .baxel => .baxel
  | .kresia .. => .kresia

/-- The part that takes a command. -/
def partOf : Instr → Part
  | .tsCommit p => p
  | .applyRawReached p => p
  | .tsRebase p => p
  | .ftRawLoRead p .. => p
  | .timeCellSend p .. => p
  | .timeCellRx p .. => p
  | .servoInterval p .. => p
  | .parentChoice => .kresia
  | .rootTakeover => .kresia
  | .timeNoSource => .kresia
  | .ptpFrameRx .. => .kresia
  | .ptpMessageTx .. => .kresia
  | .ppsInEdge .. => .kresia
  | .todRxMessage .. => .kresia
  | .tdcCalStart p .. => p
  | .calIntervalExpiry p .. => p
  | .tempSensorRead p .. => p
  | .calStartWrite p => p
  | .tdcCalDone p .. => p
  | .tdcCalShort p .. => p
  | .stampEdge p .. => p
  | .gateInputEdge p .. => p
  | .gateWindowEdge p .. => p
  | .armWin p .. => p
  | .swOpen p .. => p
  | .stampChannelCfgWrite p .. => p
  | .stampPop p .. => p
  | .ringRecordWritten p .. => p
  | .freqArm p .. => p
  | .freqMaxnReached p .. => p
  | .freqRetire p .. => p
  | .txqPop p .. => p
  | .llPartWrite .. => .baxel
  | .rowAllowWrite .. => .baxel
  | .templateLoad .. => .baxel
  | .arrive .. => .baxel
  | .leafReportRx .. => .kresia
  | .leafRecordTimeout .. => .kresia
  | .crownArriveRx .. => .kresia
  | .armStallRelease .. => .kresia
  | .crownAckRx .. => .kresia
  | .adlExpiry .. => .kresia
  | .crownReportRx .. => .kresia
  | .bxArmRx .. => .baxel
  | .bxTampRx .. => .baxel
  | .bxVoidRx .. => .baxel
  | .orphanTest .. => .baxel
  | .fireCycle .. => .baxel
  | .gateTakeLate .. => .baxel
  | .gateWaitExpiry .. => .baxel
  | .lpAccept .. => .baxel
  | .bellFire .. => .baxel
  | .lpErrInput .. => .baxel
  | .bxFenceNotice .. => .baxel
  | .bxFenceLift .. => .baxel
  | .steerCfgWrite .. => .baxel
  | .objPeek r => reqPart r
  | .objSignal r => reqPart r
  | .objTake r => reqPart r
  | .objDec r => reqPart r
  | .objSet r => reqPart r
  | .objCancel r => reqPart r
  | .takeTimeout p .. => p
  | .tcqPop .. => .baxel
  | .objPartWrite .. => .baxel
  | .wfloorWrite .. => .baxel
  | .rsigPartWrite .. => .baxel
  | .rsigPacketRx p .. => p
  | .memWriteResponse p .. => p
  | .rsigOverrunWaitEnd p .. => p
  | .rsigTimeout p .. => p
  | .rwDoneRx p .. => p
  | .v2SignalPacketRx p .. => p
  | .progImageRx .. => .kresia
  | .progLoadAckRx .. => .kresia
  | .kresiaTampRx .. => .kresia
  | .queueIssueTick .. => .kresia
  | .entryComplete .. => .kresia
  | .waitTakeDone .. => .kresia
  | .waitTimeout .. => .kresia
  | .schedStart .. => .kresia
  | .schedOverrun .. => .kresia
  | .kresiaVoidRx .. => .kresia
  | .cpGo .. => .baxel
  | .chunkBaseRx p .. => p
  | .chunkPacketRx .. => .kresia
  | .chunkOpenWait .. => .kresia
  | .chunkDoneRx .. => .baxel
  | .chunkFailRx .. => .kresia
  | .partTimeout .. => .kresia
  | .chunkRestartRx p .. => p
  | .homeMoveRx p .. => p
  | .feltProbeSel .. => .kresia
  | .chunkSel .. => .kresia
  | .blockStart => .kresia
  | .blockCommit .. => .kresia
  | .stateEccError .. => .kresia
  | .dpGo .. => .baxel
  | .dspOpenRx .. => .baxel
  | .dspRecordRx .. => .kresia
  | .dspListRx .. => .kresia
  | .dspGoRx .. => .baxel
  | .dspPayloadRx .. => .kresia
  | .dpRetGo .. => .baxel
  | .dspLostRx .. => .kresia
  | .dspRestartRx .. => .baxel
  | .dspSel .. => .kresia
  | .packetEnqueue p .. => p
  | .packetBoundary p .. => p
  | .packetRx p .. => p
  | .ackRx p .. => p
  | .nakRx p .. => p
  | .nakWaitTimer p .. => p
  | .retryTimeout p .. => p
  | .ackTimer p .. => p
  | .planeLostRx .. => .kresia
  | .planeBackRx .. => .kresia
  | .ledgerSnap p => p
  | .creditCfgWrite .. => .kresia
  | .portBringUp p .. => p
  | .laneLock p .. => p
  | .sdLockLost p .. => p
  | .capsSendTimer p .. => p
  | .capsRx p .. => p
  | .capsAckRx p .. => p
  | .trainTimeout p .. => p
  | .lmsMissing p .. => p
  | .gateListCommit p .. => p
  | .gateListCancel p .. => p
  | .gateSwap p .. => p
  | .gateBoundary p .. => p
  | .shaperCfgWrite p .. => p
  | .overheadWrite p .. => p
  | .qsampleCfgWrite p .. => p
  | .qsampleTick p .. => p
  | .qsampleRetire p .. => p
  | .heartbeatSend p .. => p
  | .heartbeatRx p .. => p
  | .heartbeatLost p .. => p
  | .baxelReportRx .. => .kresia
  | .ksAliveTimer => .kresia
  | .eventResendTimer => .kresia
  | .fenceNoticeRx .. => .kresia
  | .remirrorChunkCommit .. => .kresia
  | .throttleLevelChange .. => .kresia
  | .cupPartialRx .. => .kresia
  | .cupIncompleteTimeout .. => .kresia
  | .cupShardDigestsRx .. => .kresia
  | .ctrCfgWrite p .. => p
  | .ctrLatch p .. => p
  | .ctrClear p .. => p
  | .snapRx p .. => p
  | .snapCapture p => p
  | .snapRetire p .. => p
  | .tagCfgWrite p .. => p
  | .tagPop p .. => p
  | .resetAssert p => p
  | .resetDeassert x => strapPart x
  | .bootGo .. => .baxel
  | .bootVerifyDone x => bootPart x
  | .fwReady p => p
  | .watchdogExpiry p => p
  | .mboxDoorbell p .. => p
  | .mboxRetire p .. => p
  | .mboxDatagramRx .. => .kresia
  | .retireDatagramRx .. => .kresia
  | .registerWrite p .. => p
  | .mboxHello p .. => p
  | .mboxBind p .. => p
  | .mboxUnbind p .. => p
  | .regRead p .. => p
  | .regWrite p .. => p
  | .stageAlloc p .. => p
  | .stagePut p .. => p
  | .stageGet p .. => p
  | .stageFree p .. => p
  | .timeRead p .. => p
  | .timeFreeStart p .. => p
  | .timeRootResume p .. => p
  | .timeSwapCal p .. => p
  | .timeSourceOrder p .. => p
  | .memberAdmit p .. => p
  | .memberRetire p .. => p
  | .domainCreate p .. => p
  | .domainDestroy p .. => p
  | .tenantUnbind p .. => p
  | .tenantFault p .. => p
  | .tenantRecover p .. => p
  | .objOp p .. => p
  | .progLoad p .. => p
  | .progReplace p .. => p
  | .progCancel p .. => p
  | .progUnload p .. => p
  | .bellChange p .. => p
  | .shardWrite p .. => p
  | .shardRead p .. => p
  | .scalarSet p .. => p
  | .fenceSet p .. => p
  | .fenceClear p .. => p
  | .mirrorPromote p .. => p
  | .mirrorRetarget p .. => p
  | .homeMove p .. => p
  | .spareBind p .. => p
  | .spareFill p .. => p
  | .domainRelease p .. => p
  | .domainRollback p .. => p
  | .memberSuspect p .. => p
  | .evtAck p .. => p
  | .ckptCredit p .. => p
  | .crownPromote p .. => p
  | .cupConfig p .. => p
  | .cupRead p .. => p
  | .cupRetire p .. => p
  | .cupShard p .. => p
  | .ctrRead p .. => p
  | .snapArm p .. => p
  | .snapRead p .. => p
  | .refclkLost => .baxel
  | .memReadData .. => .baxel
  | .memPortTimeout .. => .baxel
  | .pwrGoodDrop => .kresia
  | .coolantCheck .. => .kresia
  | .thermalTrip => .kresia
  | .memUncorrectable .. => .kresia
  | .brimFailed .. => .kresia
  | .chunkBaseNoticeTimer .. => .kresia
  | .dspAssignEngineFree => .kresia
  | .shaperCreditRecovered p .. => p
  | .launchDescriptorPresent .. => .baxel
  | .scalarValueRx .. => .kresia
  | .scalarAckRx .. => .kresia
  | .programFreedRx .. => .kresia
  | .ckptGrantRx .. => .kresia
  | .tenantBindingRx .. => .baxel
  | .memberAdmissionRx .. => .baxel
  | .dspPlacementsRx .. => .kresia
  | .rcRegisterRead .. => .kresia
  | .lowWordRead p .. => p

/-- The code of a Baxel's report among the things driven out. -/
def Out.reportCode : Out → Option Code
  | .send .baxel .planes (.report r) => some r.code
  | _ => none

/-- R311: the codes a part has told the fault manager, oldest first: a Baxel's reports, the event records a Kresia holds. -/
def State.told (s : State) : Part → List Code
  | .baxel => (s.out.filterMap Out.reportCode).reverse
  | .kresia => s.ks.events.map (·.code)

/-- R312: room for a further event record, where the part is a Kresia. -/
def State.canTell (s : State) : Part → Bool
  | .baxel => true
  | .kresia => decide (s.ks.events.length < 4096)

/-- R380 to R383: the command captured in a slot carries this opcode and its turn has come. -/
abbrev State.ready (s : State) (p : Part) (m k op : Nat) (tk : Taken) : Prop :=
  (s.mslot p m k).taken = some tk ∧ tk.op = op ∧ s.startsNow p m tk = true

/-- R383: the state in which the command captured in a slot has started. -/
def State.begun (s : State) (p : Part) (m k : Nat) : State :=
  match (s.mslot p m k).taken with
  | some t => s.modMslot p m k fun x => { x with taken := some { t with started := true } }
  | none => s

/-- R379: the slot holds the completion of a command: its opcode and sequence number, a status, READY and the result. -/
abbrev State.answered (s : State) (p : Part) (m k : Nat) (tk : Taken) (status : Code) (result : List Byte := [])
    (inline : List Byte := []) : Prop :=
  (s.mslot p m k).comp = ⟨tk.op, tk.seq, status, true, result, inline⟩ ∧ (s.mslot p m k).taken = none

end Sys2Proof.Machine
end

