-- ==== Sys2Proof/WellFormed.lean ====
section
/-! DEFINITION. Which commands are well formed: ports, mailboxes, slots, channels, tenants and addresses within what a part
has (R66, R68, R89, R120, R376, R378, R396, R398, R411, R442 to R445), and every identifier of a message within its width (R10,
R49, R92, R136, R205, R271). A command outside these ranges has no counterpart: no interface can carry it. -/

namespace Sys2Proof

/-- R445: a Baxel's ports, and R66: a Kresia's. -/
def okPort (p : Part) (n : Nat) : Bool :=
  match p with
  | .baxel => decide (n < 8)
  | .kresia => decide (n < 256)

/-- R376: a mailbox of a part. -/
def okMailbox (p : Part) (m : Nat) : Bool :=
  match p with
  | .baxel => decide (m < 5)
  | .kresia => decide (m < 64)

/-- R376: a command slot of a mailbox of a part. -/
def okSlot (p : Part) (m k : Nat) : Bool := okMailbox p m && decide (k < 16)

/-- R81: a stamp channel of a part. -/
def okChannel (p : Part) (ch : Nat) : Bool :=
  match p with
  | .baxel => decide (ch < 4)
  | .kresia => decide (ch < 8)

/-- R76, R84: a gate or frequency engine. -/
def okGate (p : Part) (g : Nat) : Bool :=
  match p with
  | .baxel => decide (g < 1)
  | .kresia => decide (g < 2)

/-- R66: a TDC of a part. -/
def okTdc (p : Part) (n : Nat) : Bool :=
  match p with
  | .baxel => decide (n < 26)
  | .kresia => decide (n < 540)

/-- R398, R402: a word address of a part's register space. -/
def okAddr (p : Part) (a : Nat) : Bool :=
  match p with
  | .baxel => decide (a < 65536) && a % 4 == 0
  | .kresia => decide (a < 16777216) && a % 4 == 0

/-! ### Widths of what messages carry (R10, R92, R136, R205, R206, R271) -/

/-- R10: a job domain with an epoch, and a step where it is carried whole or by its low 16 bits. -/
def okTag (domain epoch step bits : Nat) : Bool := decide (domain < 2 ^ 16) && decide (epoch < 2 ^ 32) && decide (step < 2 ^ bits)

/-- R272: a node: a member, or a Kresia with bit 20 set. -/
def okNode (n : Nat) : Bool := decide (n < 2 ^ 20) || (decide (2 ^ 20 ≤ n) && decide (n < 2 ^ 20 + 2 ^ 17))

/-- R49. -/
def TimeCell.ok (c : TimeCell) : Bool :=
  decide (c.rootPrio < 2) && decide (c.seq < 2 ^ 16) && decide (c.rxSeq < 2 ^ 16) && decide (c.depth < 16) &&
  decide (c.state < 8) && decide (c.applySeq < 32) && decide (c.rootId < 2 ^ 17) && decide (c.rootEpoch < 256) &&
  decide (c.clockClass < 256)

/-- R92. -/
def Ctl.ok (m : Ctl) : Bool :=
  okTag m.domain m.epoch m.step 48 && decide (m.seq < 2 ^ 32) && decide (m.slot < 1024) && decide (m.voidedEpoch < 2 ^ 32) &&
  decide (m.window < 2 ^ 32) && decide (m.member < 2 ^ 20) && decide (m.period < 2 ^ 48) && decide (m.bellCount < 2 ^ 32) &&
  decide (m.latest < 128)

/-- R311: a Baxel's report. -/
def BxReport.ok (r : BxReport) : Bool :=
  decide (r.port < 256) && decide (r.subject < 2 ^ 24) && decide (r.domain.getD 0 < 2 ^ 16)

/-- R310. -/
def Heartbeat.ok (h : Heartbeat) : Bool := okNode h.node && decide (h.timeState < 8)

/-- R315. -/
def FenceNotice.ok (n : FenceNotice) : Bool := okNode n.subject && decide (n.fenceSeq < 2 ^ 32)

/-- R10, R121: objects, tenants and tags of a request. -/
def ObjReq.ok : ObjReq → Bool
  | .port t tag n obj => decide (t < 4) && decide (tag < 2 ^ 16) && decide (n < 2 ^ 32) && decide (obj < 2 ^ 16)
  | .reserved t tag => decide (t < 4) && decide (tag < 2 ^ 16)
  | .view t _ obj tag => decide (t < 4) && decide (tag < 2 ^ 16) && decide (obj < 2 ^ 16)
  | .entry d _ n obj => decide (d < 2 ^ 16) && decide (n < 2 ^ 32) && decide (obj < 2 ^ 16)
  | .engine d _ n obj => decide (d < 2 ^ 16) && decide (n < 2 ^ 32) && decide (obj < 2 ^ 16)

/-- R136. -/
def RsigPacket.ok (k : RsigPacket) : Bool :=
  okNode k.src && okTag k.domain k.epoch 0 48 && decide (k.transfer < 2 ^ 16) && decide (k.index < 256) &&
  decide (k.addr < 2 ^ 64) && decide (k.sigObj < 2 ^ 16) && decide (k.sigN ≤ 65536) && decide (k.declared < 2 ^ 21)

/-- R137. -/
def RwDone.ok (d : RwDone) : Bool := okTag d.domain d.epoch 0 48 && decide (d.transfer < 2 ^ 16)

/-- R163, R164: what firmware sends a member. -/
def TemplateLoad.ok (x : TemplateLoad) : Bool :=
  okTag x.domain x.epoch x.stepFirst 48 && decide (x.seq < 2 ^ 32) && decide (x.named.getD 0 < 2 ^ 48)
def LoadAck.ok (a : LoadAck) : Bool := decide (a.domain < 2 ^ 16) && okNode a.node

/-- R271, R272, R278, R283: heads and capabilities on a link. -/
def Packet.ok (k : Packet) : Bool := decide (k.tc < 7) && decide (k.domain.getD 0 < 2 ^ 16) && decide (k.addr < 2 ^ 64)
def RxPacket.ok (x : RxPacket) : Bool := decide (x.head.length = 32)
def LinkHead.ok (h : LinkHead) : Bool := decide (h.ackSeq < 2 ^ 16)
def Caps.ok (c : Caps) : Bool := decide (c.plane < 8) && okNode c.node

/-- R282. -/
def PlaneNotice.ok (n : PlaneNotice) : Bool := decide (n.member < 2 ^ 20) && decide (n.plane < 8)

/-- R167, R219, R230, R329, R362: what the crown sends of programs and domains. -/
def ProgImage.ok (x : ProgImage) : Bool := decide (x.domain < 2 ^ 16) && decide (x.crown < 2 ^ 17) && decide (x.switchStep.getD 0 < 2 ^ 48)
def ScalarValue.ok (x : ScalarValue) : Bool := okTag x.domain 0 x.fromStep 48
def SnapMsg.ok (x : SnapMsg) : Bool := okTag x.domain x.epoch x.step 48
def HomeMove.ok (x : HomeMove) : Bool := decide (x.domain < 2 ^ 16) && decide (x.home < 2 ^ 17) && decide (x.step.getD 0 < 2 ^ 48)
def Binding.ok (x : Binding) : Bool := decide (x.domain < 2 ^ 16) && decide (x.member < 2 ^ 20) && decide (x.tenant < 4)

/-- R205, R206. -/
def ChunkPacket.ok (k : ChunkPacket) : Bool :=
  okTag k.domain k.epoch k.step 16 && decide (k.coll < 2 ^ 12) && decide (k.chunk < 2 ^ 24) && decide (k.restart < 16) &&
  decide (k.role < 8) && decide (k.sender < 2 ^ 20) && decide (k.pkt < 2 ^ 12) && decide (k.first < 2 ^ 15) &&
  decide (k.nelem < 2 ^ 14) && decide (k.kind < 256) && decide (k.group < 2 ^ 16) && decide (k.cover < 2 ^ 32) &&
  decide (k.packets < 2 ^ 32) && decide (k.bytes < 2 ^ 32) && decide (k.distinct < 2 ^ 32)

/-- R208, R211, R218. -/
def ChunkNote.ok : ChunkNote → Bool
  | .base node d e s c role b => okNode node && okTag d e s 16 && decide (c < 2 ^ 12) && decide (role < 2) && decide (b < 2 ^ 24)
  | .done d e s c k => okTag d e s 16 && decide (c < 2 ^ 12) && decide (k < 2 ^ 24)
  | .fail node d e s c k r lost =>
    okNode node && okTag d e s 16 && decide (c < 2 ^ 12) && decide (k < 2 ^ 24) && decide (r < 16) && okNode lost
  | .restart node d e s c k r _ lost =>
    okNode node && okTag d e s 16 && decide (c < 2 ^ 12) && decide (k < 2 ^ 24) && decide (r < 16) && okNode lost

/-- R252 to R263: dispatch. -/
def DspPacket.ok (x : DspPacket) : Bool :=
  okTag x.domain x.epoch x.step 48 && okNode x.sender && decide (x.position < 2 ^ 20)
def DspNote.ok (x : DspNote) : Bool := okTag x.domain x.epoch x.step 48 && decide (x.member < 2 ^ 20)
def DspPlacements.ok (x : DspPlacements) : Bool := okTag x.domain x.epoch x.step 48

/-- R327, R348, R351. -/
def CupPartial.ok (x : CupPartial) : Bool := okTag x.domain x.epoch x.step 48 && okNode x.node
def ShardDigests.ok (x : ShardDigests) : Bool := decide (x.domain < 2 ^ 16) && decide (x.coll < 2 ^ 12) && okNode x.node
def CkptGrant.ok (x : CkptGrant) : Bool := decide (x.domain < 2 ^ 16) && decide (x.target < 2 ^ 20)

/-- Whether a command's operands lie within what the parts have. -/
def Instr.wf : Instr → Bool
  | .tsCommit _ => true
  | .applyRawReached _ => true
  | .tsRebase _ => true
  | .ftRawLoRead _ _ => true
  | .timeCellSend p port _ => okPort p port
  | .timeCellRx p port cell _ _ => okPort p port && cell.ok
  | .servoInterval _ _ => true
  | .parentChoice => true
  | .rootTakeover => true
  | .timeNoSource => true
  | .ptpFrameRx port _ _ _ => decide (port < 2)
  | .ptpMessageTx port _ _ _ => decide (port < 2)
  | .ppsInEdge _ => true
  | .todRxMessage _ _ => true
  | .tdcCalStart p tdc => okTdc p tdc
  | .calIntervalExpiry p tdc => okTdc p tdc
  | .tempSensorRead _ _ => true
  | .calStartWrite _ => true
  | .tdcCalDone p tdc _ => okTdc p tdc
  | .tdcCalShort p tdc => okTdc p tdc
  | .stampEdge p ch _ _ _ => okChannel p ch
  | .gateInputEdge p g _ _ _ => okGate p g
  | .gateWindowEdge p g => okGate p g
  | .armWin p g => okGate p g
  | .swOpen p g _ => okGate p g
  | .stampChannelCfgWrite p ch _ => okChannel p ch
  | .stampPop p _ ch _ => okChannel p ch
  | .ringRecordWritten p ch => okChannel p ch
  | .freqArm p g => okGate p g
  | .freqMaxnReached p g => okGate p g
  | .freqRetire p g _ => okGate p g
  | .txqPop _ _ => true
  | .llPartWrite t _ => decide (t < 4)
  | .rowAllowWrite t _ _ => decide (t < 4)
  | .templateLoad ld => ld.ok
  | .arrive t step => decide (t < 4) && decide (step < 2 ^ 48)
  | .leafReportRx port m => okPort .kresia port && m.ok
  | .leafRecordTimeout _ domain => decide (domain < 2 ^ 16)
  | .crownArriveRx _ m => m.ok
  | .armStallRelease domain => decide (domain < 2 ^ 16)
  | .crownAckRx _ m => m.ok
  | .adlExpiry domain => decide (domain < 2 ^ 16)
  | .crownReportRx _ m => m.ok
  | .bxArmRx port _ m => okPort .baxel port && m.ok
  | .bxTampRx port _ m => okPort .baxel port && m.ok
  | .bxVoidRx port m => okPort .baxel port && m.ok
  | .orphanTest t slot => decide (t < 4) && decide (slot < 1024)
  | .fireCycle t slot => decide (t < 4) && decide (slot < 1024)
  | .gateTakeLate t slot => decide (t < 4) && decide (slot < 1024)
  | .gateWaitExpiry t slot => decide (t < 4) && decide (slot < 1024)
  | .lpAccept t => decide (t < 4)
  | .bellFire t slot => decide (t < 4) && decide (slot < 1024)
  | .lpErrInput t => decide (t < 4)
  | .bxFenceNotice n => n.ok
  | .bxFenceLift n => n.ok
  | .steerCfgWrite _ => true
  | .objPeek r => r.ok
  | .objSignal r => r.ok
  | .objTake r => r.ok
  | .objDec r => r.ok
  | .objSet r => r.ok
  | .objCancel r => r.ok
  | .takeTimeout _ obj _ _ => decide (obj < 65536)
  | .tcqPop t _ => decide (t < 4)
  | .objPartWrite t _ => decide (t < 4)
  | .wfloorWrite t _ => decide (t < 4)
  | .rsigPartWrite t _ => decide (t < 4)
  | .rsigPacketRx p port x => okPort p port && x.ok
  | .memWriteResponse _ port id _ => decide (port < 4) && decide (id < 4096)
  | .rsigOverrunWaitEnd _ _ _ => true
  | .rsigTimeout _ _ _ => true
  | .rwDoneRx _ _ d => d.ok
  | .v2SignalPacketRx p port x => okPort p port && x.ok
  | .progImageRx x => x.ok
  | .progLoadAckRx a => a.ok
  | .kresiaTampRx m => m.ok
  | .queueIssueTick domain step => decide (domain < 2 ^ 16) && decide (step < 2 ^ 48)
  | .entryComplete domain step _ => decide (domain < 2 ^ 16) && decide (step < 2 ^ 48)
  | .waitTakeDone domain step _ => decide (domain < 2 ^ 16) && decide (step < 2 ^ 48)
  | .waitTimeout domain step _ => decide (domain < 2 ^ 16) && decide (step < 2 ^ 48)
  | .schedStart domain step _ => decide (domain < 2 ^ 16) && decide (step < 2 ^ 48)
  | .schedOverrun domain step _ => decide (domain < 2 ^ 16) && decide (step < 2 ^ 48)
  | .kresiaVoidRx m => m.ok
  | .cpGo t => decide (t < 4)
  | .chunkBaseRx _ n => n.ok
  | .chunkPacketRx port k => okPort .kresia port && k.ok
  | .chunkOpenWait _ => true
  | .chunkDoneRx n => n.ok
  | .chunkFailRx n => n.ok
  | .partTimeout _ _ => true
  | .chunkRestartRx _ n => n.ok
  | .homeMoveRx _ m => m.ok
  | .feltProbeSel _ => true
  | .chunkSel _ => true
  | .blockStart => true
  | .blockCommit domain _ _ => decide (domain < 2 ^ 16)
  | .stateEccError domain _ _ _ => decide (domain < 2 ^ 16)
  | .dpGo t => decide (t < 4)
  | .dspOpenRx n => n.ok
  | .dspRecordRx x => x.ok
  | .dspListRx x => x.ok
  | .dspGoRx n => n.ok
  | .dspPayloadRx x => x.ok
  | .dpRetGo t => decide (t < 4)
  | .dspLostRx n => n.ok
  | .dspRestartRx n => n.ok
  | .dspSel _ => true
  | .packetEnqueue p port _ x => okPort p port && x.ok
  | .packetBoundary p port => okPort p port
  | .packetRx p port x => okPort p port && x.ok
  | .ackRx p port h => okPort p port && h.ok
  | .nakRx p port _ h => okPort p port && h.ok
  | .nakWaitTimer p port => okPort p port
  | .retryTimeout p port => okPort p port
  | .ackTimer p port => okPort p port
  | .planeLostRx n => n.ok
  | .planeBackRx n => n.ok
  | .ledgerSnap _ => true
  | .creditCfgWrite cls _ => decide (cls < 7)
  | .portBringUp p port => okPort p port
  | .laneLock p port _ _ => okPort p port
  | .sdLockLost p port => okPort p port
  | .capsSendTimer p port => okPort p port
  | .capsRx p port c => okPort p port && c.ok
  | .capsAckRx p port c _ _ => okPort p port && c.ok
  | .trainTimeout p port => okPort p port
  | .lmsMissing p port => okPort p port
  | .gateListCommit p port => okPort p port
  | .gateListCancel p port => okPort p port
  | .gateSwap p port => okPort p port
  | .gateBoundary p port => okPort p port
  | .shaperCfgWrite p port _ _ => okPort p port
  | .overheadWrite p port _ => okPort p port
  | .qsampleCfgWrite p port _ _ => okPort p port
  | .qsampleTick p port => okPort p port
  | .qsampleRetire p port _ => okPort p port
  | .heartbeatSend p port => okPort p port
  | .heartbeatRx p port h => okPort p port && h.ok
  | .heartbeatLost p port => okPort p port
  | .baxelReportRx port r => okPort .kresia port && r.ok
  | .ksAliveTimer => true
  | .eventResendTimer => true
  | .fenceNoticeRx n => n.ok
  | .remirrorChunkCommit domain _ _ => decide (domain < 2 ^ 16)
  | .throttleLevelChange _ => true
  | .cupPartialRx m => m.ok
  | .cupIncompleteTimeout domain step => decide (domain < 2 ^ 16) && decide (step < 2 ^ 48)
  | .cupShardDigestsRx m => m.ok
  | .ctrCfgWrite p _ addr _ => okAddr p addr
  | .ctrLatch p _ addr _ => okAddr p addr
  | .ctrClear p _ addr _ => okAddr p addr
  | .snapRx _ x => x.ok
  | .snapCapture _ => true
  | .snapRetire _ _ _ => true
  | .tagCfgWrite p addr _ => okAddr p addr
  | .tagPop _ _ => true
  | .resetAssert _ => true
  | .resetDeassert _ => true
  | .bootGo _ _ => true
  | .bootVerifyDone _ => true
  | .fwReady _ => true
  | .watchdogExpiry _ => true
  | .mboxDoorbell p _ m _ => okMailbox p m
  | .mboxRetire p _ m _ => okMailbox p m
  | .mboxDatagramRx _ => true
  | .retireDatagramRx _ => true
  | .registerWrite p _ addr _ => okAddr p addr
  | .mboxHello p m k => okSlot p m k
  | .mboxBind p m k => okSlot p m k
  | .mboxUnbind p m k => okSlot p m k
  | .regRead p m k => okSlot p m k
  | .regWrite p m k => okSlot p m k
  | .stageAlloc p m k => okSlot p m k
  | .stagePut p m k => okSlot p m k
  | .stageGet p m k => okSlot p m k
  | .stageFree p m k => okSlot p m k
  | .timeRead p m k => okSlot p m k
  | .timeFreeStart p m k => okSlot p m k
  | .timeRootResume p m k => okSlot p m k
  | .timeSwapCal p m k => okSlot p m k
  | .timeSourceOrder p m k => okSlot p m k
  | .memberAdmit p m k => okSlot p m k
  | .memberRetire p m k => okSlot p m k
  | .domainCreate p m k _ _ => okSlot p m k
  | .domainDestroy p m k => okSlot p m k
  | .tenantUnbind p m k => okSlot p m k
  | .tenantFault p m k => okSlot p m k
  | .tenantRecover p m k => okSlot p m k
  | .objOp p m k => okSlot p m k
  | .progLoad p m k _ => okSlot p m k
  | .progReplace p m k _ => okSlot p m k
  | .progCancel p m k => okSlot p m k
  | .progUnload p m k => okSlot p m k
  | .bellChange p m k => okSlot p m k
  | .shardWrite p m k _ => okSlot p m k
  | .shardRead p m k => okSlot p m k
  | .scalarSet p m k => okSlot p m k
  | .fenceSet p m k => okSlot p m k
  | .fenceClear p m k => okSlot p m k
  | .mirrorPromote p m k => okSlot p m k
  | .mirrorRetarget p m k _ _ => okSlot p m k
  | .homeMove p m k _ => okSlot p m k
  | .spareBind p m k _ => okSlot p m k
  | .spareFill p m k _ => okSlot p m k
  | .domainRelease p m k => okSlot p m k
  | .domainRollback p m k _ => okSlot p m k
  | .memberSuspect p m k => okSlot p m k
  | .evtAck p m k => okSlot p m k
  | .ckptCredit p m k => okSlot p m k
  | .crownPromote p m k => okSlot p m k
  | .cupConfig p m k => okSlot p m k
  | .cupRead p m k => okSlot p m k
  | .cupRetire p m k => okSlot p m k
  | .cupShard p m k => okSlot p m k
  | .ctrRead p m k => okSlot p m k
  | .snapArm p m k => okSlot p m k
  | .snapRead p m k => okSlot p m k
  | .refclkLost => true
  | .memReadData port id _ _ => decide (port < 4) && decide (id < 4096)
  | .memPortTimeout _ port id => decide (port < 4) && decide (id < 4096)
  | .pwrGoodDrop => true
  | .coolantCheck _ _ => true
  | .thermalTrip => true
  | .memUncorrectable stack _ => decide (stack < 32)
  | .brimFailed brim => decide (brim < 4)
  | .chunkBaseNoticeTimer domain _ _ step => decide (domain < 2 ^ 16) && decide (step < 2 ^ 48)
  | .dspAssignEngineFree => true
  | .shaperCreditRecovered p port cls => okPort p port && decide (cls < 7)
  | .launchDescriptorPresent t slot => decide (t < 4) && decide (slot < 1024)
  | .scalarValueRx x => x.ok
  | .scalarAckRx x _ => x.ok
  | .programFreedRx a => a.ok
  | .ckptGrantRx x => x.ok
  | .tenantBindingRx x => x.ok
  | .memberAdmissionRx port member _ => okPort .baxel port && decide (member < 2 ^ 20)
  | .dspPlacementsRx p => p.ok
  | .rcRegisterRead addr => okAddr .kresia addr
  | .lowWordRead p _ addr => okAddr p addr

end Sys2Proof
end

