-- ==== Sys2Proof/Certificates/Slice0/Obligations.lean ====
section
/-! DEFINITION. The statements: what the commands of the block do, rule by rule of spec/, and what holds of every step. -/

open Sys2Proof Sys2Proof.Machine

/-- A step runs the command at the front of the queue; on an empty queue a cycle of the time island passes (model's choice, log 8) (R28, R405, R406, R441). -/
def Obligations.StepRunsFrontCommand : Prop :=
  (∀ (c : Instr) (r : List Instr) (s : State), step { s with pending := c :: r } = exec c { s with pending := r }) ∧
  (∀ (s : State), s.pending = [] → ∃ t, step s = .next t ∧ t.pending = [] ∧ (∀ p, t.raw p = if s.halted p then s.raw p else s.raw p + 65536) ∧ t.ks.mem = s.ks.mem)

/-- The state after reset: the registers of the Reset columns, raw counters zero, time UNSET, nothing bound, loaded or waiting (R2, R28, R31, R65, R88, R118, R119, R144, R309, R336, R369, R370, R400, R406). -/
def Obligations.ResetState : Prop :=
  (State.reset.Inv ∧
      State.reset.pending = [] ∧
      State.reset.out = []) ∧
  (∀ (q : Part × Nat × Word), q ∈ [(Part.baxel, 0x0000, (0x03020000 : Word)), (.baxel, 0x0300, 0x1EB8), (.baxel, 0x020C, 0xF0), (.baxel, 0x0430, 0x82), (.baxel, 0x0510, 0x100), (.baxel, 0x0520, 0x800), (.baxel, 0x0534, 0xA), (.baxel, 0x6B00, 0x003C2001), (.kresia, 0x0, 0x03B10300), (.kresia, 0x24, 0x100000), (.kresia, 0x100300, 0x1EB8), (.kresia, 0x10100C, 0xF0), (.kresia, 0x106B00, 0x003C2001), (.kresia, 0x1B0080, 0x32), (.kresia, 0x1D2000, 0x14141400), (.kresia, 0x190040, 0x00080004), (.kresia, 0x190058, 0x00800010)] → State.reset.rd q.1 q.2.1 = q.2.2) ∧
  (∀ (p : Part) (d t i : Nat), State.reset.raw p = 0 ∧
      (State.reset.pc p).time.state = .unset ∧
      (State.reset.slot t i).state = .free ∧
      (State.reset.dom d).prog = none ∧
      (State.reset.ten t).faulted = false ∧
      (State.reset.ten t).domain = none)

/-- A mailbox command does nothing until it is its turn, and a completion fills the slot of its command and no other (R336, R379, R380, R383, R391, R392). -/
def Obligations.CommandsWaitTheirTurn : Prop :=
  (∀ (s : State) (p : Part) (m k : Nat) (v2 : List Nat) (el : List (Nat × Nat)) (lf : LoadFacts) (b b2 : Bool) (f : SpareFacts) (q : Nat × Instr), q ∈ [(0x0001, Instr.mboxHello p m k), (0x0002, .mboxBind p m k), (0x0003, .mboxUnbind p m k), (0x0010, .regRead p m k), (0x0011, .regWrite p m k), (0x0020, .stageAlloc p m k), (0x0021, .stagePut p m k), (0x0022, .stageGet p m k), (0x0023, .stageFree p m k), (0x0101, .timeRead p m k), (0x0102, .timeFreeStart p m k), (0x0103, .timeRootResume p m k), (0x0105, .timeSourceOrder p m k), (0x0201, .memberAdmit p m k), (0x0202, .memberRetire p m k), (0x0203, .domainCreate p m k v2 el), (0x0204, .domainDestroy p m k), (0x0205, .tenantUnbind p m k), (0x0206, .tenantFault p m k), (0x0207, .tenantRecover p m k), (0x0301, .objOp p m k), (0x0401, .progLoad p m k lf), (0x0402, .progReplace p m k lf), (0x0403, .progCancel p m k), (0x0404, .progUnload p m k), (0x0405, .bellChange p m k), (0x0501, .shardWrite p m k b), (0x0502, .shardRead p m k), (0x0503, .scalarSet p m k), (0x0901, .fenceSet p m k), (0x0902, .fenceClear p m k), (0x0903, .mirrorPromote p m k), (0x0904, .mirrorRetarget p m k b b2), (0x0905, .homeMove p m k b), (0x0906, .spareBind p m k f), (0x0907, .spareFill p m k b), (0x0908, .domainRelease p m k), (0x0909, .domainRollback p m k b), (0x090A, .memberSuspect p m k), (0x090B, .evtAck p m k), (0x090C, .ckptCredit p m k), (0x090D, .crownPromote p m k), (0x0A01, .cupConfig p m k), (0x0A02, .cupRead p m k), (0x0A03, .cupRetire p m k), (0x0A04, .cupShard p m k), (0x0A10, .ctrRead p m k), (0x0A11, .snapArm p m k), (0x0A12, .snapRead p m k)] → (∀ tk, ¬ s.ready p m k q.1 tk) → exec q.2 s = .next s) ∧
  (∀ (s : State) (p : Part) (m k op : Nat) (tk : Taken), (takesOp p op = false ∨ (s.pc p).fw.serving = false) → ¬ s.ready p m k op tk) ∧
  (∀ (s : State) (p : Part) (m k : Nat) (tk : Taken) (st : Code) (r i : List Byte), (s.mslot p m k).taken = some tk → (s.complete p m k st r i).answered p m k tk st r i ∧
      (∀ q n j, ¬ (q = p ∧ n = m ∧ j = k) → (s.complete p m k st r i).mslot q n j = s.mslot q n j) ∧
      (s.complete p m k st r i).ks.mem = s.ks.mem ∧
      (∀ d, (s.complete p m k st r i).dom d = s.dom d) ∧
      (∀ q a, ¬ (p = .kresia ∧ 0x0901 ≤ tk.op ∧ tk.op ≤ 0x090D ∧ q = .kresia ∧ a = 0x1B012C) → (s.complete p m k st r i).rd q a = s.rd q a) ∧
      (p = .kresia → 0x0901 ≤ tk.op → tk.op ≤ 0x090D → (s.complete p m k st r i).fld .kresia 0x1B012C 0 16 = st.toNat))

/-- Every command answers a next state on every state; it leaves the waiting queue alone and takes nothing back it drove out (R380, R384, R388, R406). -/
def Obligations.EveryCommandAnswers : Prop :=
  ∀ (c : Instr) (s : State), ∃ t, exec c s = .next t ∧ t.pending = s.pending ∧ s.out <:+ t.out ∧ s.free ≤ t.free

/-- A command of a Baxel changes nothing in the Kresia, and a command of a Kresia nothing in the Baxel (R1, R2, R271, R406, R434). -/
def Obligations.PartsApart : Prop :=
  ∀ (c : Instr) (s t : State), exec c s = .next t → (partOf c = .baxel → t.ks = s.ks) ∧ (partOf c = .kresia → t.bx = s.bx)

/-- Only a transfer's packet, a ring record and a reset change Kresia memory, and only the bytes they store to (R81, R136, R138, R406, R434). -/
def Obligations.MemoryFrame : Prop :=
  ∀ (c : Instr) (s t : State), exec c s = .next t → ∀ a : Nat,
    (match c with
      | .rsigPacketRx .kresia _ x => a < x.addr ∨ x.addr + x.payload.length ≤ a
      | .ringRecordWritten .kresia ch =>
        let base := (s.rd64 .kresia (chAddr .kresia ch 0x40)).toNat +
          (s.rd .kresia (chAddr .kresia ch 0x4C)).toNat % (s.rd .kresia (chAddr .kresia ch 0x48)).toNat * 32
        a < base ∨ base + 32 ≤ a
      | .resetAssert .kresia => False
      | .pwrGoodDrop => False
      | _ => True) → memRead t.ks.mem a = memRead s.ks.mem a

/-- Every step keeps the invariant: canonical Kresia memory, at most 4,096 event records, at most 64 transmit timestamps (R81, R86, R87, R138, R312). -/
def Obligations.StepKeepsInv : Prop :=
  ∀ (s t : State), s.Inv → step s = .next t → t.Inv

/-- A due time more than 86,400 s ahead is refused with 0x1001, more than 86,400 s back with 0x1002; the bounds are accepted (R40). -/
def Obligations.DueTimesWithinADay : Prop :=
  (∀ (u : TimeUnit) (due : OT), due.malformed = false → u.state ≠ .unset → (86400 * 65536000000000 : Int) < otDiff due u.now → u.dueCode due = some 0x1001) ∧
  (∀ (u : TimeUnit) (due : OT), due.malformed = false → u.state ≠ .unset → otDiff due u.now < -(86400 * 65536000000000 : Int) → u.dueCode due = some 0x1002) ∧
  (∀ (u : TimeUnit) (due : OT), due.malformed = false → u.state ≠ .unset → -(86400 * 65536000000000 : Int) ≤ otDiff due u.now → otDiff due u.now ≤ (86400 * 65536000000000 : Int) → u.dueCode due = none ∧
      (u.committed = none → u.mkDue due = ⟨due, convert u.active due, none, decide (otDiff due u.now < 0)⟩)) ∧
  (∀ (s : State) (m k : Nat) (tk : Taken) (area : List Byte) (c : Code), s.ready .kresia m k 0x0A11 tk → 1 ≤ tk.f 20 1 → tk.f 20 1 ≤ 30 → tk.f 28 4 = 0 → s.stageOf m (tk.f 24 4) = some area → 8 * tk.f 20 1 ≤ area.length → (s.ks.c.ctr.snapArms.filter fun a => a.domain = 0xFFFF).length < 4 → s.ks.c.time.dueCode (leOt tk.bytes 8) = some c → exec (.snapArm .kresia m k) s = .next ((s.begun .kresia m k).complete .kresia m k c))

/-- A void that falls due at epoch 0xFFFF_FFFF holds the domain with 0x200A instead; a load starts epochs at 0 (R101). -/
def Obligations.EpochExhausted : Prop :=
  (∀ (s : State) (d : Nat) (cause : Code), (s.dom d).epoch = 0xFFFFFFFF → ((s.dom d).phase = .gather ∨ (s.dom d).phase = .arm ∨ (s.dom d).phase = .tamped) → (s.dom d).unloading = none → s.canTell .kresia = true → ((s.voidStep d cause).dom d).phase = .held ∧
      ((s.voidStep d cause).dom d).epoch = 0xFFFFFFFF ∧
      (s.voidStep d cause).told .kresia = s.told .kresia ++ [0x200A] ∧
      (s.voidStep d cause).dom d = { s.dom d with phase := .held, recs := (s.dom d).recs.filter (·.tamped), toArm := [], changeWait := none } ∧
      (∀ q v msg, .send q v msg ∈ (s.voidStep d cause).out → .send q v msg ∈ s.out ∨ ∃ r, r.code = 0x200A ∧ r.domain = some d ∧ q = .kresia ∧ v = .mgmt ∧ msg = .event r)) ∧
  (∀ (s : State) (d : Nat) (g : Image), ((s.loadHere d g).dom d).epoch = 0)

/-- The generator draw(KEY, C): twelve Feistel rounds of fmix over 64-bit halves, the counter's layout, and R as the low 32 bits (R342). -/
def Obligations.GeneratorDraws : Prop :=
  (∀ v : ElemEnv, ∀ stream n : Nat, v.draw stream n = genDraw v.seed (counterOf stream v.step n v.elem v.rec') % 2 ^ 32) ∧
    ∀ (key c : Nat),
    (let fmix (x : BitVec 64) : BitVec 64 :=
        let a := (x ^^^ (x >>> 31)) * 0xD6E8FEB86659FD93#64
        let b := (a ^^^ (a >>> 29)) * 0xA3B195C43F7E21D5#64
        b ^^^ (b >>> 32)
      let round (q : BitVec 64 × BitVec 64) (i : Nat) : BitVec 64 × BitVec 64 :=
        (q.2, q.1 ^^^ fmix (q.2 ^^^ (BitVec.ofNat 64 key + BitVec.ofNat 64 (i + 1) * 0x9E3779B97F4A7C15#64)))
      genDraw key c = ((List.range 12).foldl round (BitVec.ofNat 64 (c / 2 ^ 64), BitVec.ofNat 64 c)).2.toNat) ∧
    ∀ stream step draw index rec' : Nat, stream < 2 ^ 8 → step < 2 ^ 48 → draw < 2 ^ 8 → index < 2 ^ 32 → rec' < 2 ^ 12 →
      (let x := BitVec.ofNat 128 (counterOf stream step draw index rec')
       (x.extractLsb' 0 8).toNat = stream ∧ (x.extractLsb' 8 48).toNat = step ∧ (x.extractLsb' 56 8).toNat = draw ∧
       (x.extractLsb' 64 32).toNat = index ∧ (x.extractLsb' 96 12).toNat = rec' ∧ x.extractLsb' 108 20 = 0)

/-- A commit checks the pending set and keeps or refuses it; at APPLY_RAW the set takes effect, and a rebase moves RAW_REF (R32, R33, R34, R35, R36). -/
def Obligations.ParameterSets : Prop :=
  (∀ (s : State) (p : Part), commitCode (s.raw p) (s.pendingSet p) (s.rd64 p (tAddr p 0x11C)) = none → ∃ t, exec (.tsCommit p) s = .next t ∧ (t.pc p).time.committed = some ⟨s.pendingSet p, s.rd64 p (tAddr p 0x11C), none⟩ ∧
      (t.pc p).time.active = (s.pc p).time.active ∧
      (t.pc p).time.state = (s.pc p).time.state ∧
      t.fld p (tAddr p 0x128) 0 16 = 0 ∧
      (∀ a, a ≠ tAddr p 0x128 → t.rd p a = s.rd p a) ∧
      t.out = s.out) ∧
  (∀ (s : State) (p : Part) (code : Code), commitCode (s.raw p) (s.pendingSet p) (s.rd64 p (tAddr p 0x11C)) = some code → ∃ t, exec (.tsCommit p) s = .next t ∧ (t.pc p).time = (s.pc p).time ∧
      t.fld p (tAddr p 0x128) 0 16 = code.toNat ∧
      (∀ a, a ≠ tAddr p 0x128 → t.rd p a = s.rd p a) ∧
      t.out = s.out) ∧
  (∀ (raw apply : Raw) (set : ParamSet), (set.offset.malformed = true → commitCode raw set apply = some 0x1003) ∧
      (set.offset.malformed = false → Raw.diff apply raw < 268435456 → commitCode raw set apply = some 0x1004) ∧
      (set.offset.malformed = false → 268435456 ≤ Raw.diff apply raw → (set.rate < -34359738368 ∨ 34359738368 < set.rate) → commitCode raw set apply = some 0x1005) ∧
      (set.offset.malformed = false → 268435456 ≤ Raw.diff apply raw → -34359738368 ≤ set.rate → set.rate ≤ 34359738368 → 4611686018427387904 ≤ (Raw.diff set.rawRef apply).natAbs → commitCode raw set apply = some 0x1006) ∧
      (set.offset.malformed = false → 268435456 ≤ Raw.diff apply raw → -34359738368 ≤ set.rate → set.rate ≤ 34359738368 → (Raw.diff set.rawRef apply).natAbs < 4611686018427387904 → commitCode raw set apply = none)) ∧
  (∀ (s : State) (p : Part) (c : Commit), (s.pc p).time.committed = some c → 0 ≤ Raw.diff (s.raw p) c.applyRaw → ∃ t, exec (.applyRawReached p) s = .next t ∧ (t.pc p).time.active = c.set ∧
      (t.pc p).time.committed = none ∧
      (t.pc p).time.prev = some ((s.pc p).time.active, c.applyRaw) ∧
      ((t.pc p).time.state = c.toState.getD (if (s.pc p).time.state = .unset then .acquiring else (s.pc p).time.state)) ∧
      t.rd64 p (tAddr p 0x12C) = BitVec.ofInt 64 (otDiff (otOfRaw c.set c.applyRaw) (otOfRaw (s.pc p).time.active c.applyRaw)) ∧
      t.rd p (tAddr p 0x134) = s.rd p (tAddr p 0x134) + 1) ∧
  (∀ (s : State) (p : Part), (s.pc p).time.committed = none → exec (.applyRawReached p) s = .next (s)) ∧
  (∀ (s : State) (p : Part) (c : Commit), (s.pc p).time.committed = some c → Raw.diff (s.raw p) c.applyRaw < 0 → exec (.applyRawReached p) s = .next (s)) ∧
  (∀ (s : State) (p : Part), 4611686018427387904 ≤ Raw.diff (s.raw p) (s.pc p).time.active.rawRef → ∃ t, exec (.tsRebase p) s = .next t ∧ (t.pc p).time.active = ⟨otOfRaw (s.pc p).time.active (s.raw p), s.raw p, (s.pc p).time.active.rate⟩ ∧
      (t.pc p).time.committed = (s.pc p).time.committed ∧
      t.bx.slots = s.bx.slots ∧
      t.rd p (tAddr p 0x138) = s.rd p (tAddr p 0x138) + 1 ∧
      t.rd p (tAddr p 0x134) = s.rd p (tAddr p 0x134) ∧
      t.rd64 p (tAddr p 0x12C) = s.rd64 p (tAddr p 0x12C)) ∧
  (∀ (s : State) (p : Part), Raw.diff (s.raw p) (s.pc p).time.active.rawRef < 4611686018427387904 → exec (.tsRebase p) s = .next (s))

/-- A fast read latches one bank; time cells are sealed with their CRC, and a cell whose CRC fails is dropped (R41, R49, R50). -/
def Obligations.FastReadAndTimeCells : Prop :=
  (∀ (s : State) (p : Part) (v : View) (k : Nat), bankOf v = some k → ∃ t, exec (.ftRawLoRead p v) s = .next t ∧ (∃ b, FMap.find? (t.pc p).time.banks k = some b ∧ b.raw = s.raw p ∧ b.ot = s.otNow p ∧ b.applySeq = s.rd p (tAddr p 0x134)) ∧
      (∀ j, j ≠ k → FMap.find? (t.pc p).time.banks j = FMap.find? (s.pc p).time.banks j) ∧
      t.out = .regData p ((s.raw p).extractLsb' 0 32) :: s.out ∧
      (∀ a, t.rd p a = s.rd p a)) ∧
  (∀ (s : State) (p : Part) (v : View), bankOf v = none → ∃ t, exec (.ftRawLoRead p v) s = .next t ∧ (t.pc p).time = (s.pc p).time ∧
      t.out = .regData p 0 :: s.out) ∧
  (∀ (s : State) (p : Part) (port : Nat) (tx : EdgeStamp), s.ttInService p port = true → s.ttExcluded p port = false → ∃ t, exec (.timeCellSend p port tx) s = .next t ∧ (t.pt p port).txSeq = ((s.pt p port).txSeq + 1) % 65536 ∧
      (∃ c, .send p (.port port) (.timeCell c) ∈ t.out ∧ c.seq = ((s.pt p port).txSeq + 1) % 65536 ∧ c.crc = crc32 (cellBytes c) ∧ c.rxSeq = ((s.pt p port).peer.map (·.seq)).getD 0 ∧ c.rxOt = (s.pt p port).rxOt ∧ c.rootId = (s.pc p).time.rootId) ∧
      t.free = s.free + 2) ∧
  (∀ (s : State) (p : Part) (port : Nat) (tx : EdgeStamp), (s.ttInService p port = false ∨ s.ttExcluded p port = true) → exec (.timeCellSend p port tx) s = .next (s)) ∧
  (∀ (s : State) (p : Part) (port : Nat) (cell : TimeCell) (rx : EdgeStamp) (peer : PeerTime), s.ttInService p port = true → crc32 (cellBytes cell) ≠ cell.crc → ∃ t, exec (.timeCellRx p port cell rx peer) s = .next t ∧ (t.pc p).time = (s.pc p).time ∧
      t.fld p (ttPort p port 0x1C) 16 16 = (s.fld p (ttPort p port 0x1C) 16 16 + 1) % 65536 ∧
      t.out = s.out) ∧
  (∀ (s : State) (p : Part) (port : Nat) (cell : TimeCell) (rx : EdgeStamp) (peer : PeerTime), s.ttInService p port = true → s.ttExcluded p port = false → crc32 (cellBytes cell) = cell.crc → ∃ t, exec (.timeCellRx p port cell rx peer) s = .next t ∧ (t.pt p port).peer = some cell) ∧
  (∀ (s : State) (p : Part) (port : Nat) (cell : TimeCell) (rx : EdgeStamp) (peer : PeerTime), s.ttInService p port = true → crc32 (cellBytes cell) = cell.crc → s.ttExcluded p port = true → exec (.timeCellRx p port cell rx peer) s = .next (s)) ∧
  (∀ (s : State) (p : Part) (port : Nat) (cell : TimeCell) (rx : EdgeStamp) (peer : PeerTime), s.ttInService p port = false → exec (.timeCellRx p port cell rx peer) s = .next (s))

/-- The servo steps a part out of UNSET and enters HOLDOVER; a Kresia chooses its parent; a silent root is taken; no source is reported (R48, R52, R57, R58, R59, R60, R63). -/
def Obligations.ServoParentAndRoot : Prop :=
  (∀ (s : State) (f : FreqReading) (n : Nat) (x : PortTime) (c : TimeCell), s.bx.c.time.ports = [(n, x)] → x.peer = some c → c.depth < 15 → 32 ≤ x.kept → s.ttInService .baxel n = true → s.ttExcluded .baxel n = false → s.portTdcOk .baxel n = true → s.portCal .baxel n = false → s.bx.c.time.state = .unset → s.bx.c.time.rateFreq.natAbs ≤ 34359738368 → (otAdd (otOfRaw s.bx.c.time.active (s.raw .baxel + 1048576000)) (-(x.thetaSum / x.kept))).malformed = false → ∃ t, exec (.servoInterval .baxel f) s = .next t ∧ t.bx.c.time.committed = some ⟨⟨otAdd (otOfRaw s.bx.c.time.active (s.raw .baxel + 1048576000)) (-(x.thetaSum / x.kept)), s.raw .baxel + 1048576000, s.bx.c.time.rateFreq⟩, s.raw .baxel + 1048576000, some .acquiring⟩ ∧
      t.bx.c.time.state = .unset ∧
      t.bx.c.time.active = s.bx.c.time.active) ∧
  (∀ (s : State) (p : Part) (f : FreqReading), (s.pc p).time.ports = [] → ((s.pc p).time.state = .acquiring ∨ (s.pc p).time.state = .locked) → 1 ≤ (s.pc p).time.noTheta → (s.pc p).time.crown.isRoot = false → (s.pc p).time.crown.role = 0 → (s.pc p).time.parent = none → ∃ t, exec (.servoInterval p f) s = .next t ∧ (t.pc p).time.state = .holdover ∧
      (t.pc p).time.active = (s.pc p).time.active ∧
      (t.pc p).time.committed = (s.pc p).time.committed) ∧
  (∀ (s : State) (r : Raw) (n : Nat) (c : TimeCell) (rest : List (Nat × TimeCell)), s.ks.c.time.firstCand = some r → s.ks.c.time.parent = none → s.ks.c.time.crown.isRoot = false → 1000000 * 65536 ≤ Raw.diff s.ks.c.time.raw r → (s.candidates.filter fun (_, c) => c.depth < 14) = (n, c) :: rest → ∃ t, exec (.parentChoice) s = .next t ∧ t.ks.c.time.parent = some n ∧
      t.ks.c.time.monitors = (rest.take 2).map (·.1) ∧
      t.ks.c.time.rootId = c.rootId ∧
      t.ks.c.time.depth = min 15 (c.depth + 1) ∧
      t.ks.c.time.active = s.ks.c.time.active) ∧
  (∀ (s : State) (r : Raw), s.ks.c.time.firstCand = some r → Raw.diff s.ks.c.time.raw r < 1000000 * 65536 → exec (.parentChoice) s = .next (s)) ∧
  (∀ (s : State) (r : Raw), s.ks.c.time.crown.role = 2 → s.ks.c.time.crown.isRoot = false → s.ks.c.time.crown.lastPrimaryRaw = some r → 5000000 * 65536 ≤ Raw.diff s.ks.c.time.raw r → s.canTell .kresia = true → ∃ t, exec (.rootTakeover) s = .next t ∧ t.ks.c.time.crown.isRoot = true ∧
      t.ks.c.time.rootPrio = 1 ∧
      t.ks.c.time.rootEpoch = (s.ks.c.time.rootEpoch + 1) % 256 ∧
      t.ks.c.time.active = s.ks.c.time.active ∧
      t.ks.c.time.committed = s.ks.c.time.committed ∧
      t.told .kresia = s.told .kresia ++ [0x100D]) ∧
  (∀ (s : State) (r : Raw), s.ks.c.time.crown.role = 1 → s.ks.c.time.state = .unset → s.ks.c.time.phaseSource = .none → s.ks.c.time.crown.fwStartRaw = some r → 60 * secGrains ≤ Raw.diff s.ks.c.time.raw r → s.ks.c.time.crown.noSourceReported = false → s.canTell .kresia = true → ∃ t, exec (.timeNoSource) s = .next t ∧ t.ks.c.time.crown.noSourceReported = true ∧
      t.ks.c.time.active = s.ks.c.time.active ∧
      t.ks.c.time.committed = s.ks.c.time.committed ∧
      t.told .kresia = s.told .kresia ++ [0x1008]) ∧
  (∀ (s : State), (s.ks.c.time.crown.role ≠ 1 ∨ s.ks.c.time.state ≠ .unset ∨ s.ks.c.time.phaseSource ≠ .none ∨ s.ks.c.time.crown.noSourceReported = true) → exec (.timeNoSource) s = .next (s))

/-- PTP frames, 1PPS and time of day give the time crown its phase readings; unsupported frames are counted (R45, R46, R47, R66, R86, R87). -/
def Obligations.TimeSourcesOfTheCrown : Prop :=
  (∀ (s : State) (port d : Nat) (f : PtpFrame) (rx : EdgeStamp), (d < 24 ∨ 43 < d) → exec (.ptpFrameRx port d f rx) s = .next ({ s with ks := { s.ks with ptpDiscard := s.ks.ptpDiscard + 1 } })) ∧
  (∀ (s : State) (port d : Nat) (f : PtpFrame) (rx : EdgeStamp), (f = .udp ∨ f = .g82752 ∨ f = .transparent ∨ f = .management) → exec (.ptpFrameRx port d f rx) s = .next ({ s with ks := { s.ks with ptpDiscard := s.ks.ptpDiscard + 1 } })) ∧
  (∀ (s : State) (port d : Nat) (f : PtpFrame) (rx : EdgeStamp), 24 ≤ d → d ≤ 43 → d ≠ s.ks.c.time.crown.ptpDomain → ptpUnsupported f = false → exec (.ptpFrameRx port d f rx) s = .next (s)) ∧
  (∀ (s : State) (port d : Nat) (rx : EdgeStamp) (at1 tx o r : OT), 24 ≤ d → d ≤ 43 → d = s.ks.c.time.crown.ptpDomain → (s.ptpPort port).master = false → s.ks.c.time.crown.role ≠ 0 → (s.ptpPort port).syncOrigin = some o → (s.ptpPort port).syncRx = some r → (s.ptpPort port).reqTx = some tx → ∃ t, exec (.ptpFrameRx port d (.delayResp at1) rx) s = .next t ∧ (t.ptpPort port).theta = some ((otDiff r o - otDiff at1 tx) / 2) ∧
      (t.ptpPort port).heard = some (s.raw .kresia) ∧
      (t.ptpPort port).reqTx = none ∧
      t.out = s.out) ∧
  (∀ (s : State) (port d id i : Nat) (rx : EdgeStamp) (raw : Raw), 24 ≤ d → d ≤ 43 → d = s.ks.c.time.crown.ptpDomain → (s.ptpPort port).master = true → s.pairStamp .kresia (tdcMgmtRx port) rx = some (i, raw) → ∃ t, exec (.ptpFrameRx port d (.delayReq id) rx) s = .next t ∧ t.out = .send .kresia .mgmt (.ptpDelayResp port id (s.ks.c.time.ot raw)) :: s.out ∧
      t.ks.ptpDiscard = s.ks.ptpDiscard) ∧
  (∀ (s : State) (port id : Nat) (m : PtpTx) (tx : EdgeStamp), s.ptpSends port m = false → exec (.ptpMessageTx port m id tx) s = .next (s)) ∧
  (∀ (s : State) (port id : Nat) (tx : EdgeStamp), s.ptpSends port .announce = true → exec (.ptpMessageTx port .announce id tx) s = .next (s.emit (.send .kresia .mgmt (.ptpAnnounce port s.ks.c.time.crown.ptpDomain s.ks.c.time.clockClass s.ks.c.time.gmId s.ks.c.time.utcOffset)))) ∧
  (∀ (s : State) (port id i : Nat) (tx : EdgeStamp) (raw : Raw), s.ptpSends port .sync = true → s.pairStamp .kresia (tdcMgmtTx port) tx = some (i, raw) → s.ks.c.stamp.txq.length < 64 → ∃ t, exec (.ptpMessageTx port .sync id tx) s = .next t ∧ (∃ e, t.ks.c.stamp.txq = s.ks.c.stamp.txq ++ [e] ∧ e.ident = id ∧ e.kind = 2 ∧ e.raw = raw) ∧
      t.out = .send .kresia .mgmt (.ptp .sync id (some (s.ks.c.time.ot raw))) :: s.out) ∧
  (∀ (s : State) (port id i : Nat) (tx : EdgeStamp) (raw : Raw), s.ptpSends port .sync = true → s.pairStamp .kresia (tdcMgmtTx port) tx = some (i, raw) → 64 ≤ s.ks.c.stamp.txq.length → ∃ t, exec (.ptpMessageTx port .sync id tx) s = .next t ∧ t.ks.c.stamp.txq = s.ks.c.stamp.txq ∧
      t.ks.ptpDiscard = s.ks.ptpDiscard + 1 ∧
      t.out = .send .kresia .mgmt (.ptp .sync id none) :: s.out) ∧
  (∀ (s : State) (port id i : Nat) (tx : EdgeStamp) (raw : Raw), s.ptpSends port .delayReq = true → s.pairStamp .kresia (tdcMgmtTx port) tx = some (i, raw) → s.ks.c.stamp.txq.length < 64 → ∃ t, exec (.ptpMessageTx port .delayReq id tx) s = .next t ∧ (t.ptpPort port).reqTx = some (s.ks.c.time.ot raw) ∧
      t.out = .send .kresia .mgmt (.ptp .delayReq id none) :: s.out) ∧
  (∀ (s : State) (e : EdgeStamp), ∃ t, exec (.ppsInEdge e) s = .next t ∧ t.ks.c.time.crown.ppsStamp = some (e.enext - BitVec.ofNat 64 (nominalF e.code)) ∧
      t.ks.c.time.active = s.ks.c.time.active ∧
      t.out = s.out) ∧
  (∀ (s : State) (ot : OT) (utc : BitVec 16) (r : Raw), s.ks.c.time.crown.ppsStamp = some r → ∃ t, exec (.todRxMessage ot utc) s = .next t ∧ t.ks.c.time.crown.ppsTheta = some (otDiff (s.ks.c.time.ot r) ot - (s.ks.ppsDelay : Int)) ∧
      t.ks.c.time.crown.ppsRaw = some (s.raw .kresia) ∧
      t.ks.c.time.crown.ppsStamp = none ∧
      t.ks.c.time.crown.tod = some ot) ∧
  (∀ (s : State) (ot : OT) (utc : BitVec 16), s.ks.c.time.crown.ppsStamp = none → ∃ t, exec (.todRxMessage ot utc) s = .next t ∧ t.ks.c.time.crown.tod = some ot ∧
      t.ks.c.time.crown.ppsTheta = s.ks.c.time.crown.ppsTheta)

/-- Calibration runs of TDCs start by schedule, temperature or command, one a port, and end with a table, a failure or a short count (R53, R69, R70, R71). -/
def Obligations.CalibrationRuns : Prop :=
  (∀ (s : State) (p : Part) (tdc : Nat), tdc < tdcCount p → s.calAllowed p (s.calTarget p tdc) = true → ∃ t, exec (.tdcCalStart p tdc) s = .next t ∧ (t.tdc p (s.calTarget p tdc)).calibrating = true) ∧
  (∀ (s : State) (p : Part) (tdc : Nat), tdc < tdcCount p → s.calAllowed p (s.calTarget p tdc) = false → ∃ t, exec (.tdcCalStart p tdc) s = .next t ∧ s.calTarget p tdc ∈ (t.pc p).stamp.calQueue) ∧
  (∀ (s : State) (p : Part) (tdc : Nat) (r : Raw), tdc < tdcCount p → s.bit p (tAddr p 0x6B00) 0 = true → (s.tdc p tdc).lastRun = some r → (s.fld p (tAddr p 0x6B00) 16 16 : Int) * secGrains ≤ Raw.diff (s.raw p) r → s.calAllowed p (s.calTarget p tdc) = true → ∃ t, exec (.calIntervalExpiry p tdc) s = .next t ∧ (t.tdc p (s.calTarget p tdc)).calibrating = true) ∧
  (∀ (s : State) (p : Part) (tdc : Nat), s.bit p (tAddr p 0x6B00) 0 = false → exec (.calIntervalExpiry p tdc) s = .next (s)) ∧
  (∀ (s : State) (p : Part) (temp : Int), s.bit p (tAddr p 0x6B00) 0 = false → exec (.tempSensorRead p temp) s = .next (s.modStamp p fun u => { u with temp := temp })) ∧
  (∀ (s : State) (p : Part) (temp : Int) (i : Nat), s.bit p (tAddr p 0x6B00) 0 = true → i < tdcCount p → (s.tdc p i).lastRun.isSome = true → (s.fld p (tAddr p 0x6B00) 8 8 : Int) < (temp - (s.tdc p i).tempLast).natAbs → ∃ t, exec (.tempSensorRead p temp) s = .next t ∧ (t.pc p).stamp.temp = temp ∧
      ((t.tdc p (s.calTarget p i)).calibrating = true ∨ s.calTarget p i ∈ (t.pc p).stamp.calQueue)) ∧
  (∀ (s : State) (p : Part) (i : Nat), s.fld p (tAddr p 0x6B04) 0 10 = i → i < tdcCount p → s.calAllowed p (s.calTarget p i) = true → ∃ t, exec (.calStartWrite p) s = .next t ∧ (t.tdc p (s.calTarget p i)).calibrating = true) ∧
  (∀ (s : State) (p : Part) (tdc : Nat) (hits : List Nat), (s.tdc p tdc).calibrating = true → calCause hits (hitsBefore hits 96) = 0 → ∃ t, exec (.tdcCalDone p tdc hits) s = .next t ∧ (t.tdc p tdc).table = some (calTable hits (hitsBefore hits 96)) ∧
      (t.tdc p tdc).passed = true ∧
      (t.tdc p tdc).runs = ((s.tdc p tdc).runs + 1) % 65536 ∧
      (t.tdc p tdc).consecFails = 0 ∧
      (t.tdc p tdc).lastCode = 0 ∧
      t.out = s.out) ∧
  (∀ (s : State) (p : Part) (tdc c : Nat) (hits : List Nat), (s.tdc p tdc).calibrating = true → calCause hits (hitsBefore hits 96) = c → c ≠ 0 → s.canTell p = true → tdcOfPort p tdc = true → ∃ t, exec (.tdcCalDone p tdc hits) s = .next t ∧ (t.tdc p tdc).table = (s.tdc p tdc).table ∧
      (t.tdc p tdc).fails = ((s.tdc p tdc).fails + 1) % 65536 ∧
      (t.tdc p tdc).lastCode = 0x1011 ∧
      (t.tdc p tdc).cause = c ∧
      (t.tdc p tdc).failed = ((s.tdc p tdc).failed || 3 ≤ (s.tdc p tdc).consecFails + 1) ∧
      t.told p = s.told p ++ [0x1011]) ∧
  (∀ (s : State) (p : Part) (tdc : Nat) (hits : List Nat), (s.tdc p tdc).calibrating = false → exec (.tdcCalDone p tdc hits) s = .next (s)) ∧
  (∀ (s : State) (p : Part) (tdc : Nat), (s.tdc p tdc).calibrating = true → 20000000 * 65536 ≤ Raw.diff (s.raw p) (s.tdc p tdc).runStart → ∃ t, exec (.tdcCalShort p tdc) s = .next t ∧ (t.tdc p tdc).cause = 1 ∧
      (t.tdc p tdc).lastCode = 0x1011 ∧
      (t.tdc p tdc).fails = ((s.tdc p tdc).fails + 1) % 65536 ∧
      (t.tdc p tdc).table = (s.tdc p tdc).table) ∧
  (∀ (s : State) (p : Part) (tdc : Nat), Raw.diff (s.raw p) (s.tdc p tdc).runStart < 20000000 * 65536 → exec (.tdcCalShort p tdc) s = .next (s)) ∧
  (∀ (s : State) (p : Part) (tdc : Nat), (s.tdc p tdc).calibrating = false → exec (.tdcCalShort p tdc) s = .next (s))

/-- A qualified edge is stamped by its TDC and queued; a runt is counted; POP retires from the head, only for its owner (R67, R73, R74, R78, R79, R80, R82, R87). -/
def Obligations.StampRecordsAndPops : Prop :=
  (∀ (s : State) (p : Part) (ch w : Nat) (f : Bool) (e : EdgeStamp), ch < chanCount p → (s.chan p ch).dropNext = false → s.fld p (chAddr p ch 0) 1 2 = 2 → 131072 ≤ w → s.fld p (gtAddr p (groupOf ch) 0) 0 2 = 0 → (s.tdc p (s.inService p (tdcStamp p ch))).failed = false → (s.tdc p (s.inService p (tdcStamp p ch))).calibrating = false → tooClose (s.chan p ch).lastRecorded ((s.tdc p (s.inService p (tdcStamp p ch))).stamp e) = false → s.fld p (chAddr p ch 0) 16 16 < 2 → s.bit p (chAddr p ch 0) 0 = true → (s.chan p ch).queue.length < 512 → ∃ t, exec (.stampEdge p ch f w e) s = .next t ∧ (t.chan p ch).queue.dropLast = (s.chan p ch).queue ∧
      (t.chan p ch).queue.getLast?.map (·.raw) = some ((s.tdc p (s.inService p (tdcStamp p ch))).stamp e) ∧
      (t.chan p ch).queue.getLast?.map (·.ot) = some ((s.pc p).time.ot ((s.tdc p (s.inService p (tdcStamp p ch))).stamp e)) ∧
      (t.chan p ch).queue.getLast?.map (·.channel) = some ch ∧
      (t.chan p ch).lastRecorded = some ((s.tdc p (s.inService p (tdcStamp p ch))).stamp e)) ∧
  (∀ (s : State) (p : Part) (ch w : Nat) (f : Bool) (e : EdgeStamp), ch < chanCount p → (s.chan p ch).dropNext = false → w * 10 < 1048576 → ∃ t, exec (.stampEdge p ch f w e) s = .next t ∧ (t.chan p ch).queue = (s.chan p ch).queue ∧
      (t.chan p ch).dropNext = true ∧
      t.rd p (chAddr p ch 0x10) = s.rd p (chAddr p ch 0x10) + 1 ∧
      t.out = s.out) ∧
  (∀ (s : State) (p : Part) (ch w : Nat) (f : Bool) (e : EdgeStamp), ch < chanCount p → (s.chan p ch).dropNext = true → exec (.stampEdge p ch f w e) s = .next (s.modChan p ch fun c => { c with dropNext := false })) ∧
  (∀ (s : State) (p : Part) (ch w : Nat) (f : Bool) (e : EdgeStamp), ch < chanCount p → (s.chan p ch).dropNext = false → 131072 ≤ w → (s.fld p (chAddr p ch 0) 1 2 = (if f then 0 else 1)) → exec (.stampEdge p ch f w e) s = .next (s.draw.2)) ∧
  (∀ (s : State) (p : Part) (ch w : Nat) (f : Bool) (e : EdgeStamp), chanCount p ≤ ch → exec (.stampEdge p ch f w e) s = .next (s)) ∧
  (∀ (s : State) (p : Part) (v : View) (ch n : Nat), s.ownsChan p v ch = true → n ≤ (s.chan p ch).queue.length → exec (.stampPop p v ch n) s = .next (s.modChan p ch fun c => { c with queue := c.queue.drop n })) ∧
  (∀ (s : State) (p : Part) (v : View) (ch n : Nat), s.ownsChan p v ch = true → (s.chan p ch).queue.length < n → ∃ t, exec (.stampPop p v ch n) s = .next t ∧ (t.chan p ch).queue = [] ∧
      t.bit p (chAddr p ch 0x04) 17 = true) ∧
  (∀ (s : State) (p : Part) (v : View) (ch n : Nat), s.ownsChan p v ch = false → ∃ t, exec (.stampPop p v ch n) s = .next t ∧ (t.chan p ch).queue = (s.chan p ch).queue ∧
      t.bit p (chAddr p ch 0x04) 18 = true) ∧
  (∀ (s : State) (p : Part) (n : Nat), exec (.txqPop p n) s = .next (s.modStamp p fun u => { u with txq := u.txq.drop n }))

/-- A drained record goes to its ring slot and RING_WR advances; a channel word outside R73 and R81 is refused (R73, R79, R81). -/
def Obligations.RingsAndChannelWords : Prop :=
  (∀ (s : State) (ch : Nat) (r : StampRec) (rest : List StampRec), Memory.wf s.ks.mem = true → (s.chan .kresia ch).queue = r :: rest → s.bit .kresia (chAddr .kresia ch 0) 3 = true → s.rd .kresia (chAddr .kresia ch 0x48) ≠ 0 → (s.rd .kresia (chAddr .kresia ch 0x4C) - s.rd .kresia (chAddr .kresia ch 0x50)) ≠ s.rd .kresia (chAddr .kresia ch 0x48) → ∃ t, exec (.ringRecordWritten .kresia ch) s = .next t ∧ (t.chan .kresia ch).queue = rest ∧
      t.rd .kresia (chAddr .kresia ch 0x4C) = s.rd .kresia (chAddr .kresia ch 0x4C) + 1 ∧
      (∀ i, i < 32 → memRead t.ks.mem ((s.rd64 .kresia (chAddr .kresia ch 0x40)).toNat + (s.rd .kresia (chAddr .kresia ch 0x4C)).toNat % (s.rd .kresia (chAddr .kresia ch 0x48)).toNat * 32 + i) = (recBytes r).getD i 0) ∧
      (∀ a, (a < (s.rd64 .kresia (chAddr .kresia ch 0x40)).toNat + (s.rd .kresia (chAddr .kresia ch 0x4C)).toNat % (s.rd .kresia (chAddr .kresia ch 0x48)).toNat * 32 ∨ (s.rd64 .kresia (chAddr .kresia ch 0x40)).toNat + (s.rd .kresia (chAddr .kresia ch 0x4C)).toNat % (s.rd .kresia (chAddr .kresia ch 0x48)).toNat * 32 + 32 ≤ a) → memRead t.ks.mem a = memRead s.ks.mem a)) ∧
  (∀ (s : State) (ch : Nat) (r : StampRec) (rest : List StampRec), (s.chan .baxel ch).queue = r :: rest → s.bit .baxel (chAddr .baxel ch 0) 3 = true → s.rd .baxel (chAddr .baxel ch 0x48) ≠ 0 → (s.rd .baxel (chAddr .baxel ch 0x4C) - s.rd .baxel (chAddr .baxel ch 0x50)) ≠ s.rd .baxel (chAddr .baxel ch 0x48) → s.ringBusy ch = false → ∃ t, exec (.ringRecordWritten .baxel ch) s = .next t ∧ (t.chan .baxel ch).queue = rest ∧
      t.rd .baxel (chAddr .baxel ch 0x4C) = s.rd .baxel (chAddr .baxel ch 0x4C) ∧
      t.ringBusy ch = true ∧
      t.out ≠ s.out) ∧
  (∀ (s : State) (port id ch : Nat) (r : MemReq), FMap.find? s.bx.writes (port * 4096 + id) = some r → r.use = .ring ch → r.timedOut = false → s.bx.v2Waits = [] → ∃ t, exec (.memWriteResponse .baxel port id false) s = .next t ∧ t.rd .baxel (tAddr .baxel (0x604C + 0x100 * ch)) = s.rd .baxel (tAddr .baxel (0x604C + 0x100 * ch)) + 1 ∧
      (s.waitingWrite port = none → FMap.find? t.bx.writes (port * 4096 + id) = none) ∧
      (port < 4 → id < 4096 → (s.waitingWrite port).all (fun (_, q) => decide (Out.memWrite port (freeId (FMap.erase s.bx.writes (port * 4096 + id)) port) q.addr q.data q.tag ∈ t.out)) = true)) ∧
  (∀ (s : State) (p : Part) (ch : Nat), (s.bit p (chAddr p ch 0) 3 = false ∨ (s.rd p (chAddr p ch 0x4C) - s.rd p (chAddr p ch 0x50)) = s.rd p (chAddr p ch 0x48)) → exec (.ringRecordWritten p ch) s = .next (s)) ∧
  (∀ (s : State) (p : Part) (ch : Nat) (w : Word), ch < chanCount p → w.get 1 2 = 3 → exec (.stampChannelCfgWrite p ch w) s = .next (s.emit (.refused p 0x1013))) ∧
  (∀ (s : State) (p : Part) (ch : Nat) (w : Word), ch < chanCount p → w.get 1 2 ≠ 3 → w.get 3 1 = 1 → ringOk (s.rd64 p (chAddr p ch 0x40)).toNat (s.rd p (chAddr p ch 0x48)).toNat = false → exec (.stampChannelCfgWrite p ch w) s = .next ((s.wr p (chAddr p ch 0) ((w.put 7 9 0).put 3 1 0)).emit (.refused p 0x1015))) ∧
  (∀ (s : State) (p : Part) (ch : Nat) (w : Word), ch < chanCount p → w.get 1 2 ≠ 3 → (w.get 3 1 = 0 ∨ ringOk (s.rd64 p (chAddr p ch 0x40)).toNat (s.rd p (chAddr p ch 0x48)).toNat = true) → exec (.stampChannelCfgWrite p ch w) s = .next (s.wr p (chAddr p ch 0) (w.put 7 9 0)))

/-- Windows, external edges and the software bit move a gate; a short external phase is suppressed with both its edges (R38, R75, R76, R77). -/
def Obligations.GatesOpenAndClose : Prop :=
  (∀ (s : State) (p : Part) (g : Nat), g < groupCount p → (s.pc p).time.dueCode (s.rdOt p (gtAddr p g 0x04)) = none → (s.pc p).time.dueCode (s.rdOt p (gtAddr p g 0x10)) = none → 0 < otDiff (s.rdOt p (gtAddr p g 0x10)) (s.rdOt p (gtAddr p g 0x04)) → ∃ t, exec (.armWin p g) s = .next t ∧ ((s.gate p g).window = none → (t.gate p g).window = some ((s.pc p).time.mkDue (s.rdOt p (gtAddr p g 0x04)), (s.pc p).time.mkDue (s.rdOt p (gtAddr p g 0x10))) ∧ (t.gate p g).more = (s.gate p g).more) ∧
      (∀ w, (s.gate p g).window = some w → (t.gate p g).window = some w ∧ (t.gate p g).more = (s.gate p g).more ++ [((s.pc p).time.mkDue (s.rdOt p (gtAddr p g 0x04)), (s.pc p).time.mkDue (s.rdOt p (gtAddr p g 0x10)))]) ∧
      t.fld p (gtAddr p g 0x20) 0 16 = 0 ∧
      (t.gate p g).isOpen = (s.gate p g).isOpen) ∧
  (∀ (s : State) (p : Part) (g : Nat) (k : Code), g < groupCount p → (s.pc p).time.dueCode (s.rdOt p (gtAddr p g 0x04)) = some k → exec (.armWin p g) s = .next (s.setFld p (gtAddr p g 0x20) 0 16 k.toNat)) ∧
  (∀ (s : State) (p : Part) (g : Nat) (k : Code), g < groupCount p → (s.pc p).time.dueCode (s.rdOt p (gtAddr p g 0x04)) = none → (s.pc p).time.dueCode (s.rdOt p (gtAddr p g 0x10)) = some k → exec (.armWin p g) s = .next (s.setFld p (gtAddr p g 0x20) 0 16 k.toNat)) ∧
  (∀ (s : State) (p : Part) (g : Nat), g < groupCount p → (s.pc p).time.dueCode (s.rdOt p (gtAddr p g 0x04)) = none → (s.pc p).time.dueCode (s.rdOt p (gtAddr p g 0x10)) = none → otDiff (s.rdOt p (gtAddr p g 0x10)) (s.rdOt p (gtAddr p g 0x04)) ≤ 0 → exec (.armWin p g) s = .next (s.setFld p (gtAddr p g 0x20) 0 16 0x1014)) ∧
  (∀ (s : State) (p : Part) (g : Nat) (o c : Due), s.fld p (gtAddr p g 0) 0 2 = 2 → (s.gate p g).window = some (o, c) → (s.gate p g).isOpen = false → reached (s.raw p) o.raw = true → ∃ t, exec (.gateWindowEdge p g) s = .next t ∧ (t.gate p g).isOpen = true ∧
      (t.gate p g).tOpen = o.raw ∧
      t.fld p (gtAddr p g 0x1C) 0 16 = (s.fld p (gtAddr p g 0x1C) 0 16 + 1) % 65536) ∧
  (∀ (s : State) (p : Part) (g : Nat) (o c : Due), s.fld p (gtAddr p g 0) 0 2 = 2 → (s.gate p g).window = some (o, c) → (s.gate p g).isOpen = true → reached (s.raw p) c.raw = true → ∃ t, exec (.gateWindowEdge p g) s = .next t ∧ (t.gate p g).isOpen = false ∧
      (t.gate p g).window = (s.gate p g).more.head? ∧
      (t.gate p g).more = (s.gate p g).more.tail) ∧
  (∀ (s : State) (p : Part) (g : Nat) (o c : Due), (s.gate p g).window = some (o, c) → (reached (s.raw p) (if (s.gate p g).isOpen then c.raw else o.raw) = false) → exec (.gateWindowEdge p g) s = .next (s)) ∧
  (∀ (s : State) (p : Part) (g : Nat), g < groupCount p → s.fld p (gtAddr p g 0) 0 2 = 3 → (s.gate p g).isOpen = false → ∃ t, exec (.swOpen p g true) s = .next t ∧ (t.gate p g).isOpen = true ∧
      (t.gate p g).tOpen = s.raw p ∧
      t.bit p (gtAddr p g 0) 3 = true) ∧
  (∀ (s : State) (p : Part) (g : Nat), g < groupCount p → s.fld p (gtAddr p g 0) 0 2 = 3 → (s.gate p g).isOpen = true → ∃ t, exec (.swOpen p g false) s = .next t ∧ (t.gate p g).isOpen = false ∧
      t.bit p (gtAddr p g 0) 3 = false) ∧
  (∀ (s : State) (p : Part) (g : Nat) (level : Bool), s.fld p (gtAddr p g 0) 0 2 ≠ 3 → exec (.swOpen p g level) s = .next (s.setBit p (gtAddr p g 0) 3 level)) ∧
  (∀ (s : State) (p : Part) (g : Nat) (rising : Bool) (phase : Nat) (e : EdgeStamp), g < groupCount p → s.fld p (gtAddr p g 0) 0 2 = 1 → (s.gate p g).dropNext = false → phase < 64 * 65536 → ∃ t, exec (.gateInputEdge p g rising phase e) s = .next t ∧ (t.gate p g).isOpen = (s.gate p g).isOpen ∧
      (t.gate p g).dropNext = true) ∧
  (∀ (s : State) (p : Part) (g : Nat) (rising : Bool) (phase : Nat) (e : EdgeStamp), g < groupCount p → s.fld p (gtAddr p g 0) 0 2 = 1 → (s.gate p g).dropNext = true → exec (.gateInputEdge p g rising phase e) s = .next (s.modGate p g fun x => { x with dropNext := false })) ∧
  (∀ (s : State) (p : Part) (g i : Nat) (rising : Bool) (phase : Nat) (e : EdgeStamp) (raw : Raw), g < groupCount p → s.fld p (gtAddr p g 0) 0 2 = 1 → (s.gate p g).dropNext = false → 64 * 65536 ≤ phase → s.pairStamp p (tdcGate p g) e = some (i, raw) → (rising != s.bit p (gtAddr p g 0) 2) = true → (s.gate p g).isOpen = false → ∃ t, exec (.gateInputEdge p g rising phase e) s = .next t ∧ (t.gate p g).isOpen = true ∧
      (t.gate p g).tOpen = raw) ∧
  (∀ (s : State) (p : Part) (g i : Nat) (rising : Bool) (phase : Nat) (e : EdgeStamp) (raw : Raw), g < groupCount p → s.fld p (gtAddr p g 0) 0 2 = 1 → (s.gate p g).dropNext = false → 64 * 65536 ≤ phase → s.pairStamp p (tdcGate p g) e = some (i, raw) → (rising != s.bit p (gtAddr p g 0) 2) = false → ∃ t, exec (.gateInputEdge p g rising phase e) s = .next t ∧ (t.gate p g).isOpen = false)

/-- FREQ_ARM, the end of a measurement at MAXN and FREQ_RETIRE (R83, R84, R85). -/
def Obligations.FrequencyMeasurements : Prop :=
  (∀ (s : State) (p : Part) (g : Nat), g < groupCount p → s.bit p (fqAddr p g 0x14) 0 = true → exec (.freqArm p g) s = .next (s.setFld p (fqAddr p g 0) 16 16 0x1016)) ∧
  (∀ (s : State) (p : Part) (g : Nat), g < groupCount p → s.bit p (fqAddr p g 0x14) 0 = false → (s.rd64 p (fqAddr p g 0x04)).toNat < 2 ^ 24 → exec (.freqArm p g) s = .next (s.setFld p (fqAddr p g 0) 16 16 0x1017)) ∧
  (∀ (s : State) (p : Part) (g : Nat), g < groupCount p → s.bit p (fqAddr p g 0x14) 0 = false → 2 ^ 24 ≤ (s.rd64 p (fqAddr p g 0x04)).toNat → exec (.freqArm p g) s = .next ((s.setFld p (fqAddr p g 0) 16 16 0).modFreq p g fun e => { e with armed := true })) ∧
  (∀ (s : State) (p : Part) (g : Nat), (s.freq p g).running = true → 3 ≤ s.maxn p g → s.maxn p g ≤ (s.freqStamps p g none).length → ∃ t, exec (.freqMaxnReached p g) s = .next t ∧ (t.freq p g).running = false ∧
      (t.freq p g).armed = false ∧
      t.rd p (fqAddr p g 0x10) = s.rd p (fqAddr p g 0x10) + 1 ∧
      t.bit p (fqAddr p g 0x14) 0 = true ∧
      t.bit p (fqAddr p g 0x14) 4 = true) ∧
  (∀ (s : State) (p : Part) (g : Nat), ((s.freq p g).running = false ∨ (s.freqStamps p g none).length < s.maxn p g) → exec (.freqMaxnReached p g) s = .next (s)) ∧
  (∀ (s : State) (p : Part) (g : Nat), exec (.freqRetire p g (s.rd p (fqAddr p g 0x10))) s = .next (s.setBit p (fqAddr p g 0x14) 0 false)) ∧
  (∀ (s : State) (p : Part) (g : Nat) (seq : Word), seq ≠ s.rd p (fqAddr p g 0x10) → exec (.freqRetire p g seq) s = .next (s.setBit p (fqAddr p g 0x14) 6 true))

/-- SIGNAL adds and serves waiters from the head, TAKE and DEC subtract, SET writes, PEEK reads; overflow and underflow poison (R121, R122, R123, R125, R127). -/
def Obligations.ObjectOperations : Prop :=
  (∀ (s : State) (r : ObjReq) (o : Nat), s.accepted r = true → s.refusal r true false false = none → s.reqObj r = some o → (s.obj (reqPart r) o).value + s.reqN r ≤ objMax → ∃ t, exec (.objSignal r) s = .next t ∧ ((t.obj (reqPart r) o).value = (serve (if (s.obj (reqPart r) o).servedAt = some (s.raw (reqPart r)) then 0 else 1) ((s.obj (reqPart r) o).value + s.reqN r) (s.obj (reqPart r) o).waiters).1) ∧
      ((t.obj (reqPart r) o).waiters = (serve (if (s.obj (reqPart r) o).servedAt = some (s.raw (reqPart r)) then 0 else 1) ((s.obj (reqPart r) o).value + s.reqN r) (s.obj (reqPart r) o).waiters).2.2) ∧
      (t.obj (reqPart r) o).sigCount = (s.obj (reqPart r) o).sigCount + 1 ∧
      (t.obj (reqPart r) o).poison = (s.obj (reqPart r) o).poison) ∧
  (∀ (s : State) (r : ObjReq) (o : Nat), s.accepted r = true → s.refusal r true false false = none → s.reqObj r = some o → objMax < (s.obj (reqPart r) o).value + s.reqN r → ∃ t, exec (.objSignal r) s = .next t ∧ (t.obj (reqPart r) o).value = (s.obj (reqPart r) o).value ∧
      (t.obj (reqPart r) o).poison = true ∧
      (t.obj (reqPart r) o).poisonCode = 0x3001 ∧
      (t.obj (reqPart r) o).waiters = []) ∧
  (∀ (s : State) (r : ObjReq) (o : Nat), s.accepted r = true → s.refusal r true false false = none → s.reqObj r = some o → (s.obj (reqPart r) o).waiters = [] → s.reqN r ≤ (s.obj (reqPart r) o).value → ∃ t, exec (.objTake r) s = .next t ∧ (t.obj (reqPart r) o).value = (s.obj (reqPart r) o).value - s.reqN r ∧
      (t.obj (reqPart r) o).waiters = [] ∧
      (t.obj (reqPart r) o).poison = (s.obj (reqPart r) o).poison) ∧
  (∀ (s : State) (r : ObjReq) (o : Nat), s.accepted r = true → s.refusal r true false false = none → s.reqObj r = some o → s.reqN r ≤ (s.obj (reqPart r) o).value → ∃ t, exec (.objDec r) s = .next t ∧ (t.obj (reqPart r) o).value = (s.obj (reqPart r) o).value - s.reqN r ∧
      (t.obj (reqPart r) o).waiters = (s.obj (reqPart r) o).waiters ∧
      (t.obj (reqPart r) o).poison = (s.obj (reqPart r) o).poison) ∧
  (∀ (s : State) (r : ObjReq) (o : Nat), s.accepted r = true → s.refusal r true false false = none → s.reqObj r = some o → (s.obj (reqPart r) o).value < s.reqN r → ∃ t, exec (.objDec r) s = .next t ∧ (t.obj (reqPart r) o).value = (s.obj (reqPart r) o).value ∧
      (t.obj (reqPart r) o).poison = true ∧
      (t.obj (reqPart r) o).poisonCode = 0x3002 ∧
      (t.obj (reqPart r) o).waiters = []) ∧
  (∀ (s : State) (r : ObjReq) (o : Nat), s.accepted r = true → s.refusal r false false true = none → s.reqObj r = some o → ∃ t, exec (.objSet r) s = .next t ∧ ((t.obj (reqPart r) o).value = (serve (if (s.obj (reqPart r) o).servedAt = some (s.raw (reqPart r)) then 0 else 1) (s.reqN r) (s.obj (reqPart r) o).waiters).1) ∧
      ((t.obj (reqPart r) o).waiters = (serve (if (s.obj (reqPart r) o).servedAt = some (s.raw (reqPart r)) then 0 else 1) (s.reqN r) (s.obj (reqPart r) o).waiters).2.2) ∧
      (t.obj (reqPart r) o).poison = false) ∧
  (∀ (s : State) (r : ObjReq) (o : Nat), s.accepted r = true → s.refusal r false true false = none → s.reqObj r = some o → ∃ t, exec (.objPeek r) s = .next t ∧ t.objs (reqPart r) = s.objs (reqPart r) ∧
      (∀ k tag n i, r = .port k tag n i → t.out = .spResponse k tag (if (s.obj (reqPart r) o).poison then 0x3003 else 0) (s.obj (reqPart r) o).value :: s.out))

/-- A TAKE that cannot complete joins the tail; CANCEL and the timeout withdraw it; a refusal changes no object (R123, R126, R130, R131, R135). -/
def Obligations.ObjectWaitsEnd : Prop :=
  (∀ (s : State) (k tag n o : Nat), s.accepted (.port k tag n o) = true → s.refusal (.port k tag n o) true false false = none → ((s.obj .baxel o).waiters ≠ [] ∨ (s.obj .baxel o).value < n) → s.waitRoom k 1 = true → ∃ t, exec (.objTake (.port k tag n o)) s = .next t ∧ (t.obj .baxel o).waiters = (s.obj .baxel o).waiters ++ [⟨.signalPort, tag, k, n, s.raw .baxel, 0⟩] ∧
      (t.obj .baxel o).value = (s.obj .baxel o).value ∧
      t.out = s.out) ∧
  (∀ (s : State) (d i n o : Nat), s.refusal (.entry d i n o) true false false = none → ((s.obj .kresia o).waiters ≠ [] ∨ (s.obj .kresia o).value < n) → s.ksWaitRoom = true → ∃ t, exec (.objTake (.entry d i n o)) s = .next t ∧ (t.obj .kresia o).waiters = (s.obj .kresia o).waiters ++ [⟨.entry i, 0, d, n, s.raw .kresia, 0⟩] ∧
      (t.obj .kresia o).value = (s.obj .kresia o).value ∧
      t.out = s.out) ∧
  (∀ (s : State) (d i n o : Nat), s.refusal (.engine d i n o) true false false = none → ((s.obj .kresia o).waiters ≠ [] ∨ (s.obj .kresia o).value < n) → s.ksWaitRoom = true → ∃ t, exec (.objTake (.engine d i n o)) s = .next t ∧ (t.obj .kresia o).waiters = (s.obj .kresia o).waiters ++ [⟨.engine i, 0, d, n, s.raw .kresia, 0⟩] ∧
      (t.obj .kresia o).value = (s.obj .kresia o).value ∧
      t.out = s.out) ∧
  (∀ (s : State) (k tag n o : Nat), s.accepted (.port k tag n o) = true → s.refusal (.port k tag n o) true false false = none → ((s.obj .baxel o).waiters ≠ [] ∨ (s.obj .baxel o).value < n) → s.waitRoom k 1 = false → ∃ t, exec (.objTake (.port k tag n o)) s = .next t ∧ t.bx.heldTakes = s.bx.heldTakes ++ [.port k tag n o] ∧
      t.objs .baxel = s.objs .baxel ∧
      t.out = s.out) ∧
  (∀ (s : State) (d i n o : Nat) (r : ObjReq), (r = .entry d i n o ∨ r = .engine d i n o) → s.refusal r true false false = none → ((s.obj .kresia o).waiters ≠ [] ∨ (s.obj .kresia o).value < n) → s.ksWaitRoom = false → ∃ t, exec (.objTake r) s = .next t ∧ t.ks.heldTakes = s.ks.heldTakes ++ [r] ∧
      t.objs .kresia = s.objs .kresia ∧
      t.rd .kresia 0x120090 = s.rd .kresia 0x120090 + 1 ∧
      t.out = s.out) ∧
  (∀ (s : State) (k : Nat) (pv : Bool) (i tag n : Nat), s.reqN (.view k pv i tag) = n → s.refusal (.view k pv i tag) true false false = none → ((s.obj .baxel (s.objBase k + i)).waiters ≠ [] ∨ (s.obj .baxel (s.objBase k + i)).value < n) → s.viewWaiting k + (s.ten k).tcq.length < 16 → s.waitRoom k 1 = true → ∃ t, exec (.objTake (.view k pv i tag)) s = .next t ∧ (t.obj .baxel (s.objBase k + i)).waiters.map (·.n) = (s.obj .baxel (s.objBase k + i)).waiters.map (·.n) ++ [n] ∧
      (t.obj .baxel (s.objBase k + i)).value = (s.obj .baxel (s.objBase k + i)).value) ∧
  (∀ (s : State) (r : ObjReq) (o v : Nat) (w : Waiter) (rest : List (Nat × Waiter)) (k tag : Nat), r = .port k tag 0 v → s.accepted r = true → s.refusal r false false false = none → s.taggedWaits .baxel k .signalPort tag = (o, w) :: rest → ∃ t, exec (.objCancel r) s = .next t ∧ ((t.obj .baxel o).waiters = (serve (if (s.obj .baxel o).servedAt = some (s.raw .baxel) then 0 else 1) (s.obj .baxel o).value ((s.obj .baxel o).waiters.erase w)).2.2) ∧
      ((t.obj .baxel o).value = (serve (if (s.obj .baxel o).servedAt = some (s.raw .baxel) then 0 else 1) (s.obj .baxel o).value ((s.obj .baxel o).waiters.erase w)).1)) ∧
  (∀ (s : State) (k tag n v : Nat), s.accepted (.port k tag n v) = true → s.refusal (.port k tag n v) false false false = none → s.taggedWaits .baxel k .signalPort tag = [] → ∃ t, exec (.objCancel (.port k tag n v)) s = .next t ∧ t.objs .baxel = s.objs .baxel ∧
      t.out = .spResponse k tag 0x300B (s.obj .baxel v).value :: s.out) ∧
  (∀ (s : State) (o tag : Nat) (w : Waiter), (s.obj .baxel o).waiters.find? (fun w => w.source = .view && w.tag = tag && w.timeoutUs ≠ 0 && (w.timeoutUs : Int) * 1000 * 65536 ≤ Raw.diff (s.raw .baxel) w.issued) = some w → ∃ t, exec (.takeTimeout .baxel o .view tag) s = .next t ∧ ((t.obj .baxel o).waiters = (serve (if (s.obj .baxel o).servedAt = some (s.raw .baxel) then 0 else 1) (s.obj .baxel o).value ((s.obj .baxel o).waiters.erase w)).2.2) ∧
      ((t.obj .baxel o).value = (serve (if (s.obj .baxel o).servedAt = some (s.raw .baxel) then 0 else 1) (s.obj .baxel o).value ((s.obj .baxel o).waiters.erase w)).1)) ∧
  (∀ (s : State) (p : Part) (o tag : Nat) (src : WaiterSource), (s.obj p o).waiters = [] → exec (.takeTimeout p o src tag) s = .next (s)) ∧
  (∀ (s : State) (r : ObjReq) (code : Code), s.refusal r true false false = some code → ∃ t, exec (.objSignal r) s = .next t ∧ t.objs (reqPart r) = s.objs (reqPart r)) ∧
  (∀ (s : State) (r : ObjReq) (code : Code), s.refusal r true false false = some code → ∃ t, exec (.objTake r) s = .next t ∧ t.objs (reqPart r) = s.objs (reqPart r)) ∧
  (∀ (s : State) (r : ObjReq) (code : Code), s.refusal r true false false = some code → ∃ t, exec (.objDec r) s = .next t ∧ t.objs (reqPart r) = s.objs (reqPart r)) ∧
  (∀ (s : State) (r : ObjReq) (code : Code), s.refusal r false false true = some code → ∃ t, exec (.objSet r) s = .next t ∧ t.objs (reqPart r) = s.objs (reqPart r)) ∧
  (∀ (s : State) (r : ObjReq) (code : Code), s.refusal r false true false = some code → ∃ t, exec (.objPeek r) s = .next t ∧ t.objs (reqPart r) = s.objs (reqPart r)) ∧
  (∀ (s : State) (r : ObjReq) (code : Code), s.refusal r false false false = some code → ∃ t, exec (.objCancel r) s = .next t ∧ t.objs (reqPart r) = s.objs (reqPart r)) ∧
  (∀ (s : State) (r : ObjReq) (c : Instr), s.accepted r = false → (c = .objSignal r ∨ c = .objTake r ∨ c = .objDec r ∨ c = .objSet r ∨ c = .objPeek r ∨ c = .objCancel r) → exec c s = .next s)

/-- Partitions of objects, waiter floors and receive trackers are written where they fit, else refused with 0x3011 and nothing written (R78, R128, R130, R131, R137). -/
def Obligations.ObjectPartitionsAndPops : Prop :=
  (∀ (s : State) (k : Nat) (w : Word), k < 4 → (partsOk ((List.range 4).map fun u => if u = k then (w.get 0 12, w.get 12 13) else (s.objBase u, s.objCount u)) 4096 = true) → ((∀ i, i < s.objCount k → (s.obj .baxel (s.objBase k + i)).poison = false ∧ (s.obj .baxel (s.objBase k + i)).waiters = [])) → exec (.objPartWrite k w) s = .next (s.wr .baxel (0x0500 + 4 * k) (w.put 25 7 0))) ∧
  (∀ (s : State) (k : Nat) (w : Word), k < 4 → (partsOk ((List.range 4).map fun u => if u = k then (w.get 0 12, w.get 12 13) else (s.objBase u, s.objCount u)) 4096 = false) → exec (.objPartWrite k w) s = .next (s.emit (.refused .baxel 0x3011))) ∧
  (∀ (s : State) (k : Nat) (w : Word), k < 4 → (((List.range 4).map fun u => if u = k then w.get 0 12 else s.wfloor u).foldl (· + ·) 0 ≤ 2048) → exec (.wfloorWrite k w) s = .next (s.wr .baxel (0x0510 + 4 * k) (w.put 12 20 0))) ∧
  (∀ (s : State) (k : Nat) (w : Word), k < 4 → (2048 < ((List.range 4).map fun u => if u = k then w.get 0 12 else s.wfloor u).foldl (· + ·) 0) → exec (.wfloorWrite k w) s = .next (s.emit (.refused .baxel 0x3011))) ∧
  (∀ (s : State) (k : Nat) (w : Word), k < 4 → (((List.range 4).map fun u => if u = k then w.get 0 14 else s.fld .baxel (0x0520 + 4 * u) 0 14).foldl (· + ·) 0 ≤ 8192) → exec (.rsigPartWrite k w) s = .next (s.wr .baxel (0x0520 + 4 * k) (w.put 14 18 0))) ∧
  (∀ (s : State) (k : Nat) (w : Word), k < 4 → (8192 < ((List.range 4).map fun u => if u = k then w.get 0 14 else s.fld .baxel (0x0520 + 4 * u) 0 14).foldl (· + ·) 0) → exec (.rsigPartWrite k w) s = .next (s.emit (.refused .baxel 0x3011))) ∧
  (∀ (s : State) (k n : Nat), exec (.tcqPop k n) s = .next (s.modTen k fun x => { x with tcq := x.tcq.drop n }))

/-- Launch-list partitions, row groups, steering and templates are written where the rules allow, else refused with nothing written (R89, R90, R91, R111). -/
def Obligations.LaunchSetup : Prop :=
  (∀ (s : State) (k : Nat) (w : Word), k < 4 → (partsOk ((List.range 4).map fun u => if u = k then (w.get 0 10, w.get 10 11) else (s.llBase u, s.llCount u)) 1024 = true) → s.slotsOf k = [] → exec (.llPartWrite k w) s = .next (s.wr .baxel (0x0400 + 4 * k) (w.put 21 11 0))) ∧
  (∀ (s : State) (k : Nat) (w : Word), k < 4 → (partsOk ((List.range 4).map fun u => if u = k then (w.get 0 10, w.get 10 11) else (s.llBase u, s.llCount u)) 1024 = false ∨ (s.slotsOf k ≠ [] ∧ (w.get 0 10, w.get 10 11) ≠ (s.llBase k, s.llCount k))) → exec (.llPartWrite k w) s = .next (s.emit (.refused .baxel 0x200B))) ∧
  (∀ (s : State) (k : Nat) (hi : Bool) (w : Word), k < 4 → ((∀ u, u < 4 → u ≠ k → s.rowAllow u &&& (s.wr .baxel (0x0410 + 8 * k + (if hi then 4 else 0)) w).rowAllow k = 0)) → exec (.rowAllowWrite k hi w) s = .next (s.wr .baxel (0x0410 + 8 * k + (if hi then 4 else 0)) w)) ∧
  (∀ (s : State) (k u : Nat) (hi : Bool) (w : Word), k < 4 → u < 4 → u ≠ k → (s.rowAllow u &&& (s.wr .baxel (0x0410 + 8 * k + (if hi then 4 else 0)) w).rowAllow k ≠ 0) → exec (.rowAllowWrite k hi w) s = .next (s.emit (.refused .baxel 0x2012))) ∧
  (∀ (s : State) (k u v : Nat) (hi : Bool) (w : Word), k < 4 → u < 4 → v < 4 → u ≠ v → ((∀ a, a < 4 → ∀ b, b < 4 → a ≠ b → s.rowAllow a &&& s.rowAllow b = 0)) → ∃ t, exec (.rowAllowWrite k hi w) s = .next t ∧ t.rowAllow u &&& t.rowAllow v = 0) ∧
  (∀ (s : State) (w : Word) (m n : Nat), (m = (if w.get 1 6 = 0 then 64 else w.get 1 6)) → (n = (if w.get 7 6 = 0 then 64 else w.get 7 6)) → steerOk m n = true → exec (.steerCfgWrite w) s = .next (((s.wr .baxel 0x0430 (w.put 13 19 0)).setFld .baxel 0x0434 0 16 0).driveSteer)) ∧
  (∀ (s : State) (w : Word) (m n : Nat), (m = (if w.get 1 6 = 0 then 64 else w.get 1 6)) → (n = (if w.get 7 6 = 0 then 64 else w.get 7 6)) → steerOk m n = false → exec (.steerCfgWrite w) s = .next (s.setFld .baxel 0x0434 0 16 0x200E)) ∧
  (∀ (s : State) (ld : TemplateLoad), s.tenantOf ld.domain = none → exec (.templateLoad ld) s = .next (s.ackLoad ld.domain 0x2011)) ∧
  (∀ (s : State) (ld : TemplateLoad) (k : Nat) (code : Code), s.tenantOf ld.domain = some k → ld.op = .load → ld.slots.findSome? (fun (i, tm) => s.tmplCode k i tm ld.replace) = some code → ∃ t, exec (.templateLoad ld) s = .next t ∧ t.bx.slots = s.bx.slots ∧
      t.bx.tenants = s.bx.tenants ∧
      t.bx.objs = s.bx.objs ∧
      t.out = .send .baxel (.crown ld.domain) (.loadAck { domain := ld.domain, fromBaxel := true, node := s.node .baxel, code := code }) :: s.out) ∧
  (∀ (s : State) (ld : TemplateLoad) (k i : Nat) (tm : Template), s.tenantOf ld.domain = some k → ld.op = .load → ld.slots = [(i, tm)] → ld.objs = [] → ld.replace = false → ld.trackers ≤ s.fld .baxel (0x0520 + 4 * k) 0 14 → s.tmplCode k i tm = none → (s.slot k i).state = .free → ∃ t, exec (.templateLoad ld) s = .next t ∧ (t.slot k i).tmpl = tm ∧
      (t.slot k i).state = .loaded ∧
      (t.ten k).stepFirst = some ld.stepFirst ∧
      (t.ten k).prog = ld.image) ∧
  (∀ (s : State) (ld : TemplateLoad) (k i : Nat) (tm : Template), s.tenantOf ld.domain = some k → ld.op = .load → ld.slots = [(i, tm)] → ld.replace = true → ((∀ x ∈ ld.objs, x.cluster = true ∨ x.index < s.objCount k)) → ld.trackers ≤ s.fld .baxel (0x0520 + 4 * k) 0 14 → s.tmplCode k i tm true = none → (s.slot k i).state = .free → ∃ t, exec (.templateLoad ld) s = .next t ∧ (t.slot k i).tmpl = tm ∧
      (t.slot k i).state = .loaded ∧
      (t.ten k).stepFirst = (s.ten k).stepFirst ∧
      (t.ten k).pendFirst = some ld.stepFirst ∧
      t.bx.objs = s.bx.objs ∧
      (t.ten k).epoch = (s.ten k).epoch)

/-- A member arrives, arms, tamps, voids and orphans: what the first copy of each broadcast does at its slot (R92, R93, R94, R102, R103). -/
def Obligations.BroadcastsAtAMember : Prop :=
  (∀ (s : State) (k step : Nat), k < 4 → (s.ten k).mayArrive step = true → exec (.arrive k step) s = .next (s.sendCtl { kind := .arrive, domain := (s.ten k).domain.getD 0, epoch := (s.ten k).epoch, step := step })) ∧
  (∀ (s : State) (k step : Nat), k < 4 → (s.ten k).mayArrive step = false → exec (.arrive k step) s = .next (s.viewCode k 0x2010)) ∧
  (∀ (s : State) (port k : Nat) (rx : EdgeStamp) (m : Ctl) (x : Tenant), port < 8 → m.kind = .arm → s.tenantOf m.domain = some k → s.bx.fenced = false → (s.ten k).filter m.epoch m.seq = (x, .first false) → (s.ten k).pendObjs = [] → m.slot < s.llCount k → (s.slot k m.slot).state = .loaded → s.armCode m (s.slot k m.slot).tmpl.bell = none → ∃ t, exec (.bxArmRx port rx m) s = .next t ∧ (t.slot k m.slot).state = .armed ∧
      (t.slot k m.slot).due = m.due ∧
      (t.slot k m.slot).step = m.step ∧
      (t.slot k m.slot).epoch = m.epoch ∧
      (t.slot k m.slot).seq = m.seq ∧
      (t.slot k m.slot).tmpl = (s.slot k m.slot).tmpl ∧
      (t.ten k).named = some m.step ∧
      t.out = .send .baxel .planes (.ctl { kind := .ack, domain := m.domain, epoch := m.epoch, seq := m.seq, step := m.step, slot := m.slot, member := s.fld .baxel 0x0004 0 20 }) :: s.out) ∧
  (∀ (s : State) (port k : Nat) (rx : EdgeStamp) (m : Ctl) (x : Tenant) (c : Code), port < 8 → m.kind = .arm → s.tenantOf m.domain = some k → s.bx.fenced = false → (s.ten k).filter m.epoch m.seq = (x, .first false) → (s.ten k).pendObjs = [] → m.slot < s.llCount k → (s.slot k m.slot).state = .loaded → s.armCode m (s.slot k m.slot).tmpl.bell = some c → ∃ t, exec (.bxArmRx port rx m) s = .next t ∧ t.bx.slots = s.bx.slots ∧
      t.out = .send .baxel .planes (.ctl { kind := .ack, domain := m.domain, epoch := m.epoch, seq := m.seq, step := m.step, slot := m.slot, member := s.fld .baxel 0x0004 0 20, status := c }) :: s.out) ∧
  (∀ (s : State) (port k : Nat) (rx : EdgeStamp) (m : Ctl) (x : Tenant), (m.kind = .arm ∨ m.kind = .tamp ∨ m.kind = .void) → s.tenantOf m.domain = some k → (s.ten k).filter m.epoch m.seq = (x, .dup) → (∃ t, exec (.bxArmRx port rx m) s = .next t ∧ t.bx.slots = s.bx.slots) ∧
      (∃ t, exec (.bxTampRx port rx m) s = .next t ∧ t.bx.slots = s.bx.slots) ∧
      (∃ t, exec (.bxVoidRx port m) s = .next t ∧ t.bx.slots = s.bx.slots)) ∧
  (∀ (s : State) (port k : Nat) (rx : EdgeStamp) (m : Ctl) (x : Tenant), port < 8 → m.kind = .tamp → s.tenantOf m.domain = some k → s.bx.fenced = false → (s.ten k).filter m.epoch m.seq = (x, .first false) → m.slot < s.llCount k → (s.slot k m.slot).state = .armed → (s.slot k m.slot).epoch = m.epoch → (s.slot k m.slot).step = m.step → (s.slot k m.slot).tmpl.bell = false → (s.slot k m.slot).wD.any (fun w => Raw.diff ((s.tdc .baxel (tdcRx .baxel port)).stamp rx) w.raw < 0) = true → ∃ t, exec (.bxTampRx port rx m) s = .next t ∧ (t.slot k m.slot).state = .tamped ∧
      (t.slot k m.slot).dueD = (s.slot k m.slot).dueD ∧
      t.out = s.out) ∧
  (∀ (s : State) (port k : Nat) (rx : EdgeStamp) (m : Ctl) (x : Tenant), port < 8 → m.kind = .tamp → s.tenantOf m.domain = some k → s.bx.fenced = false → (s.ten k).filter m.epoch m.seq = (x, .first false) → m.slot < s.llCount k → (s.slot k m.slot).state = .armed → (s.slot k m.slot).epoch = m.epoch → (s.slot k m.slot).step = m.step → (s.slot k m.slot).wD.any (fun w => 0 ≤ Raw.diff ((s.tdc .baxel (tdcRx .baxel port)).stamp rx) w.raw) = true → ∃ t, exec (.bxTampRx port rx m) s = .next t ∧ t.bx.slots = s.bx.slots ∧
      t.rd .baxel (tPage k 0x114) = s.rd .baxel (tPage k 0x114) + 1) ∧
  (∀ (s : State) (port k i : Nat) (m : Ctl) (x : Tenant), port < 8 → m.kind = .void → s.tenantOf m.domain = some k → s.bx.fenced = false → (s.ten k).filter m.epoch m.seq = (x, .first true) → (s.ten k).faulted = false → ((∀ y ∈ s.bx.objs, y.2.replay = false)) → i < s.llCount k → ((s.slot k i).state = .armed ∨ (s.slot k i).state = .tamped ∨ (s.slot k i).state = .waiting) → ∃ t, exec (.bxVoidRx port m) s = .next t ∧ (t.slot k i).state = .loaded ∧
      (t.ten k).epoch = m.epoch) ∧
  (∀ (s : State) (port : Nat) (rx : EdgeStamp) (m : Ctl), port < 8 → s.tenantOf m.domain = none → (m.kind = .arm → exec (.bxArmRx port rx m) s = .next (s.count (evB 0x0438))) ∧
      (m.kind = .tamp → exec (.bxTampRx port rx m) s = .next (s.count (evB 0x0438))) ∧
      (m.kind = .void → exec (.bxVoidRx port m) s = .next (s.count (evB 0x0438)))) ∧
  (∀ (s : State) (k i : Nat) (w : Due), (s.slot k i).state = .armed → (s.slot k i).wD = some w → orphanDue (s.raw .baxel) w = true → ∃ t, exec (.orphanTest k i) s = .next t ∧ (t.slot k i).state = .void ∧
      t.rd .baxel (tPage k 0x108) = s.rd .baxel (tPage k 0x108) + 1 ∧
      .send .baxel .planes (.ctl { slotCtl .orphan (s.ten k) i (s.slot k i) 0x2004 with member := s.fld .baxel 0x0004 0 20 }) ∈ t.out) ∧
  (∀ (s : State) (k i : Nat) (w : Due), (s.slot k i).state = .armed → (s.slot k i).wD = some w → orphanDue (s.raw .baxel) w = false → exec (.orphanTest k i) s = .next (s))

/-- Descriptors, fires and gated launches: when a slot fires, waits, is missed or stays (R24, R38, R102, R108, R109, R110, R113, R415). -/
def Obligations.FiresAtTheLaunchPort : Prop :=
  (∀ (s : State) (k i : Nat) (d : Due), (s.slot k i).dueD = some d → (s.slot k i).toFire = true → (s.slot k i).presented = false → s.bx.fenced = false → (s.ten k).faulted = false → Raw.diff d.raw (s.raw .baxel) ≤ 256 * 65536 → ((∀ y ∈ s.slotsOf k, y.1 = i)) → ∃ t, exec (.launchDescriptorPresent k i) s = .next t ∧ (t.slot k i).presented = true ∧
      t.out = .lpValid k (s.lpDesc k i (s.slot k i) (s.slot k i).late) :: s.out) ∧
  (∀ (s : State) (k i : Nat) (d : Due), (s.slot k i).dueD = some d → 256 * 65536 < Raw.diff d.raw (s.raw .baxel) → exec (.launchDescriptorPresent k i) s = .next (s)) ∧
  (∀ (s : State) (k i : Nat) (e : Slot), (s.slotsOf k).find? (fun (_, e) => e.presented && e.accepted.isNone) = some (i, e) → (s.slot k i).held = false → ∃ t, exec (.lpAccept k) s = .next t ∧ (t.slot k i).accepted = some (s.raw .baxel) ∧
      (t.slot k i).state = (s.slot k i).state ∧
      t.out = s.out) ∧
  (∀ (s : State) (k i : Nat) (d : Due) (acc : Raw), (s.slot k i).state = .tamped → (s.slot k i).dueD = some d → (s.slot k i).held = false → s.fireDue k i d = true → (s.fireCycle k d).2 = false → (s.slot k i).tmpl.gate0En = false → (s.slot k i).tmpl.gate1En = false → (s.slot k i).tmpl.bell = false → (s.slot k i).accepted = some acc → 8 * 65536 ≤ Raw.diff (s.launchEdge (s.slot k i) d) acc → ∃ t, exec (.fireCycle k i) s = .next t ∧ (t.slot k i).state = .fired ∧
      t.out = .lpGo k (goEdge (s.slot k i).steer (s.launchEdge (s.slot k i) d)) (!(s.ten k).lpGo) :: s.out ∧
      t.rd .baxel (tPage k 0x98) = s.rd .baxel (tPage k 0x98) + 1 ∧
      (t.ten k).firedStep = some (s.slot k i).step) ∧
  (∀ (s : State) (k i : Nat) (d : Due), (s.slot k i).dueD = some d → s.fireDue k i d = false → exec (.fireCycle k i) s = .next (s)) ∧
  (∀ (s : State) (k i : Nat) (d : Due), (s.slot k i).state = .tamped → (s.slot k i).dueD = some d → (s.slot k i).held = false → s.fireDue k i d = true → slotGates (s.slot k i).tmpl ≠ [] → s.gateRefused k (slotGates (s.slot k i).tmpl) = false → s.gateReady k i (slotGates (s.slot k i).tmpl) = false → (s.slot k i).tmpl.gateWait ≠ 0 → s.waitRoom k (slotGates (s.slot k i).tmpl).length = true → ∃ t, exec (.fireCycle k i) s = .next t ∧ (t.slot k i).state = .waiting ∧
      t.out = s.out ∧
      (∀ o, (t.obj .baxel o).value = (s.obj .baxel o).value)) ∧
  (∀ (s : State) (k i : Nat) (o n : Nat), k < 4 → (s.slot k i).state = .waiting → slotGates (s.slot k i).tmpl = [(o, n)] → s.gateRefused k [(o, n)] = false → s.gateReady k i [(o, n)] = true → ∃ t, exec (.gateTakeLate k i) s = .next t ∧ (t.slot k i).state ≠ .waiting ∧
      t.rd .baxel (tPage k 0x120) = s.rd .baxel (tPage k 0x120) + 1) ∧
  (∀ (s : State) (k i : Nat), (s.slot k i).state = .waiting → s.gateRefused k (slotGates (s.slot k i).tmpl) = false → s.gateReady k i (slotGates (s.slot k i).tmpl) = false → exec (.gateTakeLate k i) s = .next (s)) ∧
  (∀ (s : State) (k i : Nat) (d : Due), (s.slot k i).state = .waiting → (s.slot k i).dueD = some d → (s.slot k i).tmpl.bell = false → ((s.slot k i).tmpl.gateWait : Int) * 65536000 ≤ Raw.diff (s.raw .baxel) d.raw → ∃ t, exec (.gateWaitExpiry k i) s = .next t ∧ (t.slot k i).state = .void ∧
      t.rd .baxel (tPage k 0x124) = s.rd .baxel (tPage k 0x124) + 1 ∧
      .send .baxel .planes (.ctl { slotCtl .gateMiss (s.ten k) i (s.slot k i) 0x2005 with member := s.fld .baxel 0x0004 0 20 }) ∈ t.out) ∧
  (∀ (s : State) (k i : Nat) (d : Due), (s.slot k i).dueD = some d → Raw.diff (s.raw .baxel) d.raw < ((s.slot k i).tmpl.gateWait : Int) * 65536000 → exec (.gateWaitExpiry k i) s = .next (s)) ∧
  (∀ (s : State) (k i : Nat) (d : Due) (acc : Raw), (s.slot k i).state = .bellRun → (s.slot k i).dueD = some d → (s.slot k i).held = false → (s.slot k i).change = none → (s.ten k).faulted = false → s.fireDue k i d = true → (s.fireCycle k d).2 = false → (s.slot k i).tmpl.gate0En = false → (s.slot k i).tmpl.gate1En = false → (s.slot k i).accepted = some acc → 8 * 65536 ≤ Raw.diff (s.launchEdge (s.slot k i) d) acc → ∃ t, exec (.bellFire k i) s = .next t ∧ t.out = .lpGo k (goEdge (s.slot k i).steer (s.launchEdge (s.slot k i) d)) (!(s.ten k).lpGo) :: s.out ∧
      t.rd .baxel (tPage k 0x98) = s.rd .baxel (tPage k 0x98) + 1) ∧
  (∀ (s : State) (k i : Nat) (d : Due), (s.slot k i).state = .bellRun → (s.slot k i).dueD = some d → (s.slot k i).held = false → (s.slot k i).change = none → (s.ten k).faulted = true → s.fireDue k i d = true → ∃ t, exec (.bellFire k i) s = .next t ∧ (t.slot k i) = (s.slot k i).bellNext s.bx.c.time ∧
      t.rd .baxel (tPage k 0x98) = s.rd .baxel (tPage k 0x98) ∧
      t.rd .baxel (tPage k 0x11C) = s.rd .baxel (tPage k 0x11C) + 1)

/-- LP_ERR faults a tenant once; a newer fence notice voids every unfired slot, and its lift returns VOID slots to LOADED (R114, R116). -/
def Obligations.TenantFaultsAndFences : Prop :=
  (∀ (s : State) (k i : Nat), k < 4 → (s.ten k).faulted = false → (s.ten k).domain = some i → ∃ t, exec (.lpErrInput k) s = .next t ∧ (t.ten k).faulted = true ∧
      .irqT k ∈ t.out ∧
      .send .baxel .planes (.ctl { kind := .tenantFault, domain := i, epoch := (s.ten k).epoch, step := (s.ten k).named.getD ((s.ten k).stepFirst.getD 0), status := 0x2017, member := s.fld .baxel 0x0004 0 20 }) ∈ t.out) ∧
  (∀ (s : State) (k i : Nat), k < 4 → (s.ten k).faulted = false → i < s.llCount k → ((s.slot k i).state = .armed ∨ (s.slot k i).state = .tamped ∨ (s.slot k i).state = .waiting) → ∃ t, exec (.lpErrInput k) s = .next t ∧ (t.slot k i).state = .void) ∧
  (∀ (s : State) (k : Nat), (s.ten k).faulted = true → exec (.lpErrInput k) s = .next (s)) ∧
  (∀ (s : State) (n : FenceNotice) (k i : Nat), n.clear = false → s.fenceNews n = true → k < 4 → i < s.llCount k → ((s.slot k i).state = .armed ∨ (s.slot k i).state = .tamped ∨ (s.slot k i).state = .waiting ∨ (s.slot k i).state = .bellRun) → ∃ t, exec (.bxFenceNotice n) s = .next t ∧ t.bx.fenced = true ∧
      t.bx.fenceSeq = some n.fenceSeq ∧
      (t.slot k i).state = .void) ∧
  (∀ (s : State) (n : FenceNotice), (n.clear = true ∨ s.fenceNews n = false) → exec (.bxFenceNotice n) s = .next (s)) ∧
  (∀ (s : State) (n : FenceNotice) (k i : Nat), n.clear = true → s.fenceNews n = true → k < 4 → i < s.llCount k → (s.slot k i).state = .void → (s.ten k).faulted = false → ∃ t, exec (.bxFenceLift n) s = .next t ∧ t.bx.fenced = false ∧
      (t.slot k i).state = .loaded) ∧
  (∀ (s : State) (n : FenceNotice), (n.clear = false ∨ s.fenceNews n = false) → exec (.bxFenceLift n) s = .next (s))

/-- A packet joins its class queue, is refused with a code, or is flushed; a boundary starts the class chosen (R275, R281, R282, R287, R300, R301, R303). -/
def Obligations.PacketsEnteringAPort : Prop :=
  (∀ (s : State) (p : Part) (n : Nat) (src : PacketSource) (x : Packet) (code : Code), s.enqCode p n x = some code → ∃ t, exec (.packetEnqueue p n src x) s = .next t ∧ (t.pc p).link = (s.pc p).link ∧
      t.fld p (lkAddr p n 0) 16 16 = code.toNat ∧
      t.out = s.out) ∧
  (∀ (s : State) (p : Part) (n : Nat) (src : PacketSource) (x : Packet), s.enqCode p n x = none → s.up p n = true → (s.gated p n).bind (fun g => s.gateCode p n g x) = none → ∃ t, exec (.packetEnqueue p n src x) s = .next t ∧ (t.queue p n x.tc).map (·.pkt) = (s.queue p n x.tc).map (·.pkt) ++ [x] ∧
      (t.pc p).link.ledger.flushed = (s.pc p).link.ledger.flushed) ∧
  (∀ (s : State) (p : Part) (n : Nat) (src : PacketSource) (x : Packet), s.enqCode p n x = none → s.up p n = false → ∃ t, exec (.packetEnqueue p n src x) s = .next t ∧ t.queue p n x.tc = s.queue p n x.tc ∧
      (t.pc p).link.ledger.flushed = (s.pc p).link.ledger.flushed + cost x) ∧
  (∀ (s : State) (p : Part) (n : Nat), s.up p n = false → exec (.packetBoundary p n) s = .next (s)) ∧
  (∀ (s : State) (p : Part) (n : Nat) (c : Nat) (d : FMap Nat) (q : QEntry) (rest : List QEntry), s.up p n = true → (s.lp p n).busy = none → (s.lp p n).resend = [] → (s.countHolds p n).choose p n = some (c, d) → (s.countHolds p n).queue p n c = q :: rest → ∃ t, exec (.packetBoundary p n) s = .next t ∧ t.queue p n c = rest ∧
      (t.lp p n).copies.map (·.lseq) = (s.lp p n).copies.map (·.lseq) ++ [(s.lp p n).nextSeq] ∧
      (t.lp p n).nextSeq = ((s.lp p n).nextSeq + 1) % 65536 ∧
      (t.lp p n).busy.isSome = true ∧
      t.rd p (lkAddr p n 0x2C) = (s.countHolds p n).rd p (lkAddr p n 0x2C) + 1) ∧
  (∀ (s : State) (p : Part) (n : Nat) (c : Nat), (s.shaper p n c).en = true → 0 ≤ (s.shaper p n c).credit → s.queue p n c ≠ [] → exec (.shaperCreditRecovered p n c) s = exec (.packetBoundary p n) s) ∧
  (∀ (s : State) (p : Part) (n : Nat) (k c : Nat) (d : FMap Nat) (q : QEntry) (rest : List QEntry), (s.shaper p n k).en = true → 0 ≤ (s.shaper p n k).credit → s.queue p n k ≠ [] → s.up p n = true → (s.lp p n).busy = none → (s.lp p n).resend = [] → (s.countHolds p n).choose p n = some (c, d) → (s.countHolds p n).queue p n c = q :: rest → ∃ t, exec (.shaperCreditRecovered p n k) s = .next t ∧ t.queue p n c = rest ∧
      (t.lp p n).copies.map (·.lseq) = (s.lp p n).copies.map (·.lseq) ++ [(s.lp p n).nextSeq] ∧
      (t.lp p n).nextSeq = ((s.lp p n).nextSeq + 1) % 65536 ∧
      (t.lp p n).busy.isSome = true ∧
      t.rd p (lkAddr p n 0x2C) = (s.countHolds p n).rd p (lkAddr p n 0x2C) + 1) ∧
  (∀ (s : State) (p : Part) (n : Nat) (c : Nat), ((s.shaper p n c).en = false ∨ (s.shaper p n c).credit < 0 ∨ s.queue p n c = []) → exec (.shaperCreditRecovered p n c) s = .next (s))

/-- A port takes the packet it expects, drops others, asks again after an error, frees acknowledged copies and resends (R274, R277, R278, R279, R281, R283). -/
def Obligations.AcknowledgementAndRetry : Prop :=
  (∀ (s : State) (p : Part) (n : Nat) (x : RxPacket), s.up p n = false → exec (.packetRx p n x) s = .next (s)) ∧
  (∀ (s : State) (p : Part) (n : Nat) (x : RxPacket), s.up p n = true → x.corrected = 0 → x.uncorrectable = 0 → x.headCrc = false → x.lseq = (s.lp p n).exp → FMap.getD (s.lp p n).held x.pkt.tc 0 + cost x.pkt ≤ FMap.getD (s.lp p n).floors x.pkt.tc 0 + FMap.getD (s.lp p n).granted x.pkt.tc 0 → ∃ t, exec (.packetRx p n x) s = .next t ∧ (t.lp p n).exp = ((s.lp p n).exp + 1) % 65536 ∧
      (t.lp p n).wait = false ∧
      (t.lp p n).owes = true) ∧
  (∀ (s : State) (p : Part) (n : Nat) (x : RxPacket), s.up p n = true → x.corrected = 0 → x.uncorrectable = 0 → x.headCrc = false → x.lseq ≠ (s.lp p n).exp → exec (.packetRx p n x) s = .next (s.count (evLk p n 0x1C))) ∧
  (∀ (s : State) (p : Part) (n : Nat) (x : RxPacket), s.up p n = true → x.corrected = 0 → x.uncorrectable = 0 → x.headCrc = true → (s.lp p n).wait = false → (s.lp p n).nakSent = none → (within (s.raw p) (10 * secGrains) (s.lp p n).uncs).length ≤ s.uncMax p n → (within (s.raw p) 65536000000 (s.lp p n).events).length + 1 < s.retryMax p → ∃ t, exec (.packetRx p n x) s = .next t ∧ (t.lp p n).exp = (s.lp p n).exp ∧
      (t.lp p n).wait = true ∧
      t.out = .send p (.port n) (.nak (s.linkHead p n)) :: s.out ∧
      t.rd p (lkAddr p n 0x10) = s.rd p (lkAddr p n 0x10) + 1) ∧
  (∀ (s : State) (p : Part) (n : Nat) (h : LinkHead) (i : Nat), s.up p n = true → (s.lp p n).copies.findIdx (fun c => c.lseq = h.ackSeq) = i → i < (s.lp p n).copies.length → ∃ t, exec (.ackRx p n h) s = .next t ∧ (t.lp p n).copies = (s.lp p n).copies.drop (i + 1)) ∧
  (∀ (s : State) (p : Part) (n : Nat) (h : LinkHead), s.up p n = false → exec (.ackRx p n h) s = .next (s)) ∧
  (∀ (s : State) (p : Part) (n : Nat) (h : LinkHead) (seq : Nat), s.up p n = true → (s.lp p n).copies.any (fun c => c.lseq = h.ackSeq) = false → (s.lp p n).copies.any (fun c => c.lseq = seq) = true → (s.lp p n).nakGot = none → ∃ t, exec (.nakRx p n seq h) s = .next t ∧ (t.lp p n).resend = (s.lp p n).resendFrom seq ∧
      (t.lp p n).copies = (s.lp p n).copies ∧
      t.rd p (lkAddr p n 0x20) = s.rd p (lkAddr p n 0x20) + 1) ∧
  (∀ (s : State) (p : Part) (n : Nat) (h : LinkHead) (seq : Nat), s.up p n = true → (s.lp p n).copies.any (fun c => c.lseq = h.ackSeq) = false → (s.lp p n).copies.any (fun c => c.lseq = seq) = false → ∃ t, exec (.nakRx p n seq h) s = .next t ∧ (t.lp p n).resend = (s.lp p n).resend ∧
      (t.lp p n).copies = (s.lp p n).copies ∧
      t.rd p (lkAddr p n 0x28) = s.rd p (lkAddr p n 0x28) + 1) ∧
  (∀ (s : State) (p : Part) (n : Nat), s.up p n = true → (s.lp p n).wait = true → (s.lp p n).nakSent = none → s.since p (s.lp p n).lastNak (2000 * 65536) = true → ∃ t, exec (.nakWaitTimer p n) s = .next t ∧ t.out = .send p (.port n) (.nak (s.linkHead p n)) :: s.out ∧
      (t.lp p n).lastNak = some (s.raw p) ∧
      (t.lp p n).wait = true) ∧
  (∀ (s : State) (p : Part) (n : Nat), (s.up p n = false ∨ (s.lp p n).wait = false ∨ s.since p (s.lp p n).lastNak (2000 * 65536) = false) → exec (.nakWaitTimer p n) s = .next (s)) ∧
  (∀ (s : State) (p : Part) (n : Nat) (c : TxCopy) (rest : List TxCopy), s.up p n = true → (s.lp p n).copies = c :: rest → (s.lp p n).resend = [] → s.since p (some c.sentAt) (4000 * 65536) = true → ∃ t, exec (.retryTimeout p n) s = .next t ∧ (t.lp p n).resend = (s.lp p n).resendFrom c.lseq ∧
      (t.lp p n).copies = (s.lp p n).copies ∧
      t.rd p (lkAddr p n 0x24) = s.rd p (lkAddr p n 0x24) + 1) ∧
  (∀ (s : State) (p : Part) (n : Nat) (c : TxCopy) (rest : List TxCopy), (s.lp p n).copies = c :: rest → s.since p (some c.sentAt) (4000 * 65536) = false → exec (.retryTimeout p n) s = .next (s)) ∧
  (∀ (s : State) (p : Part) (n : Nat), s.up p n = true → (s.lp p n).owes = true → s.since p (s.lp p n).lastHead (256 * 65536) = true → exec (.ackTimer p n) s = .next ((s.modLp p n fun y => { y with owes := false, lastHead := some (s.raw p) }).emit (.send p (.port n) (.ack (s.linkHead p n))))) ∧
  (∀ (s : State) (p : Part) (n : Nat), (s.up p n = false ∨ (s.lp p n).owes = false ∨ s.since p (s.lp p n).lastHead (256 * 65536) = false) → exec (.ackTimer p n) s = .next (s))

/-- Lost planes are noted and flooded once; the ledger latch is taken whole; a credit word is written or refused with 0x700E (R282, R284, R287). -/
def Obligations.PlanesLedgersAndCredits : Prop :=
  (∀ (s : State) (n : PlaneNotice), s.ks.lostPlanes.contains (n.member, n.plane) = false → ∃ t, exec (.planeLostRx n) s = .next t ∧ t.ks.lostPlanes = (n.member, n.plane) :: s.ks.lostPlanes ∧
      .send .kresia .flood (.planeLost n) ∈ t.out) ∧
  (∀ (s : State) (n : PlaneNotice), s.ks.lostPlanes.contains (n.member, n.plane) = true → exec (.planeLostRx n) s = .next (s)) ∧
  (∀ (s : State) (n : PlaneNotice), s.ks.lostPlanes.contains (n.member, n.plane) = true → ∃ t, exec (.planeBackRx n) s = .next t ∧ t.ks.lostPlanes = s.ks.lostPlanes.erase (n.member, n.plane) ∧
      t.out = .send .kresia .flood (.planeBack n) :: s.out) ∧
  (∀ (s : State) (n : PlaneNotice), s.ks.lostPlanes.contains (n.member, n.plane) = false → exec (.planeBackRx n) s = .next (s)) ∧
  (∀ (s : State) (p : Part), ∃ t, exec (.ledgerSnap p) s = .next t ∧ (t.pc p).link.latch.bind (fun m => FMap.find? m (ledgerBase p + 0x30)) = some (BitVec.ofNat 32 (s.pc p).link.ledger.held) ∧
      (t.pc p).link.ledger = (s.pc p).link.ledger ∧
      (t.pc p).link.ports = (s.pc p).link.ports ∧
      t.out = s.out) ∧
  (∀ (s : State) (cls : Nat) (w : Word), cls < 7 → w.get 0 16 ≤ w.get 16 16 → w.get 16 16 ≤ 32767 → (((List.range 7).map fun c => if c = cls then w.get 0 16 else s.floorOf .kresia c).foldl (· + ·) 0 * (if s.isSpine then 128 else 192) ≤ 786432) → exec (.creditCfgWrite cls w) s = .next ((s.wr .kresia (0x190040 + 4 * cls) w).setFld .kresia 0x190068 0 16 0)) ∧
  (∀ (s : State) (cls : Nat) (w : Word), cls < 7 → (w.get 16 16 < w.get 0 16 ∨ 32767 < w.get 16 16 ∨ 786432 < ((List.range 7).map fun c => if c = cls then w.get 0 16 else s.floorOf .kresia c).foldl (· + ·) 0 * (if s.isSpine then 128 else 192)) → exec (.creditCfgWrite cls w) s = .next (s.setFld .kresia 0x190068 0 16 0x700E))

/-- Bring-up goes from start through lane lock and CAPS to service; a peer held out, a lost lock and a missing strobe act as ruled (R6, R13, R54, R281, R288, R405, R407, R408, R445). -/
def Obligations.PortsComeUpAndGo : Prop :=
  (∀ (s : State) (p : Part) (n : Nat), n < portCount p → ((s.lp p n).step = 0 ∨ (s.lp p n).step = 6) → s.mayBringUp p n = true → ∃ t, exec (.portBringUp p n) s = .next t ∧ (t.lp p n).step = 1 ∧
      (t.lp p n).upStart = some (s.raw p) ∧
      t.fld p (lkAddr p n 0) 0 2 = 1) ∧
  (∀ (s : State) (p : Part) (n : Nat), (portCount p ≤ n ∨ ((s.lp p n).step ≠ 0 ∧ (s.lp p n).step ≠ 6) ∨ s.mayBringUp p n = false) → exec (.portBringUp p n) s = .next (s)) ∧
  (∀ (s : State) (p : Part) (n : Nat) (a : Nat) (k : Int), (s.lp p n).step = 1 → ∃ t, exec (.laneLock p n a k) s = .next t ∧ (t.lp p n).step = 3 ∧
      (t.pt p n).rxAlign = a ∧
      (t.pt p n).skew = k) ∧
  (∀ (s : State) (p : Part) (n : Nat) (a : Nat) (k : Int), (s.lp p n).step ≠ 1 → exec (.laneLock p n a k) s = .next (s)) ∧
  (∀ (s : State) (p : Part) (n : Nat), (s.lp p n).step = 3 → s.since p (s.lp p n).lastCaps (10000 * 65536) = true → exec (.capsSendTimer p n) s = .next ((s.modLp p n fun y => { y with lastCaps := some (s.raw p) }).emit (.send p (.port n) (.caps (s.ownCaps p n))))) ∧
  (∀ (s : State) (p : Part) (n : Nat) (c : Caps), ((s.lp p n).step = 3 ∨ (s.lp p n).step = 5) → exec (.capsRx p n c) s = .next ((s.modLp p n fun y => { y with peer := some c }).emit (.send p (.port n) (.capsAck (s.ownCaps p n))))) ∧
  (∀ (s : State) (p : Part) (n : Nat) (c : Caps), (s.lp p n).step ≠ 3 → (s.lp p n).step ≠ 5 → exec (.capsRx p n c) s = .next (s)) ∧
  (∀ (s : State) (p : Part) (n : Nat) (c : Caps) (tx rx : EdgeStamp), (s.lp p n).step = 3 → s.capsCode p n c = none → (p = .kresia ∨ s.planeClash n c = none) → ∃ t, exec (.capsAckRx p n c tx rx) s = .next t ∧ (t.lp p n).step = 5 ∧
      (t.lp p n).peer = some c ∧
      t.up p n = true) ∧
  (∀ (s : State) (p : Part) (n : Nat) (c : Caps) (tx rx : EdgeStamp) (code : Code), (s.lp p n).step = 3 → s.capsCode p n c = some code → ∃ t, exec (.capsAckRx p n c tx rx) s = .next t ∧ (t.lp p n).step = 6 ∧
      t.fld p (lkAddr p n 0) 16 16 = code.toNat ∧
      t.fld p (lkAddr p n 0) 0 2 = 3) ∧
  (∀ (s : State) (p : Part) (n : Nat), 1 ≤ (s.lp p n).step → (s.lp p n).step ≤ 4 → s.since p (s.lp p n).upStart (50 * 65536000000) = true → (s.lp p n).fails < 2 → ∃ t, exec (.trainTimeout p n) s = .next t ∧ (t.lp p n).step = 1 ∧
      (t.lp p n).fails = (s.lp p n).fails + 1 ∧
      (t.lp p n).upStart = some (s.raw p)) ∧
  (∀ (s : State) (p : Part) (n : Nat), 1 ≤ (s.lp p n).step → (s.lp p n).step ≤ 4 → s.since p (s.lp p n).upStart (50 * 65536000000) = true → 2 ≤ (s.lp p n).fails → ∃ t, exec (.trainTimeout p n) s = .next t ∧ (t.lp p n).step = 6 ∧
      t.fld p (lkAddr p n 0) 16 16 = 0x700A) ∧
  (∀ (s : State) (p : Part) (n : Nat), s.up p n = true → ∃ t, exec (.sdLockLost p n) s = .next t ∧ (t.lp p n).step = 6 ∧
      t.up p n = false ∧
      t.fld p (lkAddr p n 0) 16 16 = 0xB007) ∧
  (∀ (s : State) (p : Part) (n : Nat), s.up p n = true → s.canTell p = true → ∃ t, exec (.lmsMissing p n) s = .next t ∧ t.bit p (ttPort p n 0x0C) 3 = true ∧
      t.fld p (lkAddr p n 0) 16 16 = 0xB008 ∧
      t.told p = s.told p ++ [0xB008] ∧
      (t.lp p n).step = 5) ∧
  (∀ (s : State) (p : Part) (n : Nat), s.up p n = false → exec (.sdLockLost p n) s = .next s ∧
      exec (.lmsMissing p n) s = .next s) ∧
  (∀ (s : State) (p : Part) (n : Nat), (s.lp p n).step ≠ 3 → exec (.capsSendTimer p n) s = .next s ∧
      (∀ (c : Caps) (tx rx : EdgeStamp), exec (.capsAckRx p n c tx rx) s = .next s)) ∧
  (∀ (s : State) (p : Part) (n : Nat), ((s.lp p n).step = 0 ∨ 5 ≤ (s.lp p n).step ∨ s.since p (s.lp p n).upStart (50 * 65536000000) = false) → exec (.trainTimeout p n) s = .next (s))

/-- A gate list is committed or refused with its code, cancelled, swapped in at SWAP_OT and moved at its boundaries (R293, R294, R295, R296, R297). -/
def Obligations.GateListsSwapAndMove : Prop :=
  (∀ (s : State) (p : Part) (n : Nat) (code : Code), s.gateCommitCode p n = some code → exec (.gateListCommit p n) s = .next (s.gtCode p n code)) ∧
  (∀ (s : State) (p : Part) (n : Nat), s.gateCommitCode p n = none → ∃ t, exec (.gateListCommit p n) s = .next t ∧ (t.gp p n).pending = some (s.pendList p n, (s.pc p).time.mkDue (s.rdOt p (gtBlock p n 0x20))) ∧
      (t.gp p n).active = (s.gp p n).active ∧
      t.fld p (gtBlock p n 0) 16 16 = 0 ∧
      t.bit p (gtBlock p n 0) 3 = true ∧
      t.out = s.out) ∧
  (∀ (s : State) (p : Part) (n : Nat), (s.gp p n).pending = none → exec (.gateListCancel p n) s = .next (s.gtCode p n 0x8003)) ∧
  (∀ (s : State) (p : Part) (n : Nat) (x : GateList × Due), (s.gp p n).pending = some x → ∃ t, exec (.gateListCancel p n) s = .next t ∧ (t.gp p n).pending = none ∧
      (t.gp p n).active = (s.gp p n).active ∧
      t.bit p (gtBlock p n 0) 3 = false ∧
      t.fld p (gtBlock p n 0) 16 16 = 0) ∧
  (∀ (s : State) (p : Part) (n : Nat) (x : GateList) (d : Due), (s.gp p n).pending = some (x, d) → 0 ≤ Raw.diff (s.raw p) (closeEdge d) → 0 ≤ Raw.diff (s.raw p) (openEdge d) → ∃ t, exec (.gateSwap p n) s = .next t ∧ (t.gp p n).active = some x ∧
      (t.gp p n).pending = none ∧
      t.bit p (gtBlock p n 0) 3 = false) ∧
  (∀ (s : State) (p : Part) (n : Nat) (x : GateList) (d : Due), (s.gp p n).pending = some (x, d) → 0 ≤ Raw.diff (s.raw p) (closeEdge d) → Raw.diff (s.raw p) (openEdge d) < 0 → exec (.gateSwap p n) s = .next (s.modGp p n fun y => { y with mask := maskAnd y.mask (x.at d.ot).2.2.1 })) ∧
  (∀ (s : State) (p : Part) (n : Nat) (x : GateList) (d : Due), (s.gp p n).pending = some (x, d) → Raw.diff (s.raw p) (closeEdge d) < 0 → exec (.gateSwap p n) s = .next (s)) ∧
  (∀ (s : State) (p : Part) (n : Nat) (x : GateList) (d : Due) (i m len : Nat), (s.gp p n).active = some x → (s.gp p n).next = some d → (s.pc p).time.state ≠ .unset → 0 ≤ Raw.diff (s.raw p) (openEdge d) → 0 ≤ Raw.diff (s.raw p) (closeEdge d) → (i = (if (s.gp p n).entry + 1 < x.entries.length then (s.gp p n).entry + 1 else 0)) → x.entries[i]? = some (m, len) → ∃ t, exec (.gateBoundary p n) s = .next t ∧ (t.gp p n).entry = i ∧
      (t.gp p n).mask = m ∧
      (t.gp p n).next = some ((s.pc p).time.mkDue (otAdd d.ot ((len : Int) * 65536))) ∧
      (t.gp p n).active = (s.gp p n).active) ∧
  (∀ (s : State) (p : Part) (n : Nat) (d : Due), (s.gp p n).next = some d → Raw.diff (s.raw p) (closeEdge d) < 0 → exec (.gateBoundary p n) s = .next (s))

/-- Shaper, overhead and sample words are written within their ranges or refused with 0x8006 to 0x8008; samples latch and retire (R298, R303, R304, R305, R306). -/
def Obligations.ShapersAndQueueSamples : Prop :=
  (∀ (s : State) (p : Part) (n : Nat) (w : Word) (c : Nat), w.get 0 3 = c → c ≠ 0 → c ≠ 7 → 1 ≤ w.get 4 20 → (w.get 4 20 ≤ (if s.isQuad p n then 800000 else 400000)) → exec (.shaperCfgWrite p n false w) s = .next ((s.setFld p (gtBlock p n 0x50) 0 3 c).modShaper p n c fun h => { h with en := w.get 3 1 = 1, slope := w.get 4 20 })) ∧
  (∀ (s : State) (p : Part) (n : Nat) (w : Word) (c : Nat), w.get 0 3 = c → c ≠ 0 → c ≠ 7 → (w.get 4 20 = 0 ∨ (if s.isQuad p n then 800000 else 400000) < w.get 4 20) → exec (.shaperCfgWrite p n false w) s = .next ((s.setFld p (gtBlock p n 0x50) 0 3 c).gtCode p n 0x8006)) ∧
  (∀ (s : State) (p : Part) (n : Nat) (w : Word) (c : Nat), s.fld p (gtBlock p n 0x50) 0 3 = c → c ≠ 0 → c ≠ 7 → w.toNat < 2 ^ 24 → exec (.shaperCfgWrite p n true w) s = .next (s.modShaper p n c fun h => { h with hi := w.toNat })) ∧
  (∀ (s : State) (p : Part) (n : Nat) (w : Word), (w.get 0 9 < 256 ∨ 448 ≤ w.get 0 9) → exec (.overheadWrite p n w) s = .next (s.setFld p (gtBlock p n 0x40) 0 9 (w.get 0 9))) ∧
  (∀ (s : State) (p : Part) (n : Nat) (w : Word), 256 ≤ w.get 0 9 → w.get 0 9 < 448 → exec (.overheadWrite p n w) s = .next (s.gtCode p n 0x8007)) ∧
  (∀ (s : State) (p : Part) (n : Nat) (count : Bool) (w : Word), ((if count then 1 else 1000) ≤ w.toNat) → (w.toNat ≤ (if count then 65536 else 1000000000)) → exec (.qsampleCfgWrite p n count w) s = .next (s.wr p (gtBlock p n (if count then 0x74 else 0x70)) w)) ∧
  (∀ (s : State) (p : Part) (n : Nat) (count : Bool) (w : Word), (w.toNat < (if count then 1 else 1000) ∨ (if count then 65536 else 1000000000) < w.toNat) → exec (.qsampleCfgWrite p n count w) s = .next (s.gtCode p n 0x8008)) ∧
  (∀ (s : State) (p : Part) (n : Nat), s.since p (s.gp p n).sampleAt ((s.rd p (gtBlock p n 0x70)).toNat * 65536) = true → (s.gp p n).samples + 1 < (s.rd p (gtBlock p n 0x74)).toNat → ∃ t, exec (.qsampleTick p n) s = .next t ∧ (t.gp p n).samples = (s.gp p n).samples + 1 ∧
      (t.gp p n).sampleAt = some (s.raw p) ∧
      (t.gp p n).results = (s.gp p n).results) ∧
  (∀ (s : State) (p : Part) (n : Nat), s.since p (s.gp p n).sampleAt ((s.rd p (gtBlock p n 0x70)).toNat * 65536) = true → (s.rd p (gtBlock p n 0x74)).toNat ≤ (s.gp p n).samples + 1 → ∃ t, exec (.qsampleTick p n) s = .next t ∧ (t.gp p n).samples = 0 ∧
      (t.gp p n).accs = [] ∧
      (∀ c, c < 7 → (FMap.getD (t.gp p n).results c {}).ready = true ∧ (FMap.getD (t.gp p n).results c {}).seq = (FMap.getD (s.gp p n).results c {}).seq + 1)) ∧
  (∀ (s : State) (p : Part) (n : Nat), s.since p (s.gp p n).sampleAt ((s.rd p (gtBlock p n 0x70)).toNat * 65536) = false → exec (.qsampleTick p n) s = .next (s)) ∧
  (∀ (s : State) (p : Part) (n : Nat) (c : Nat), s.fld p (gtBlock p n 0x50) 0 3 = c → ∃ t, exec (.qsampleRetire p n (FMap.getD (s.gp p n).results c {}).seq) s = .next t ∧ FMap.getD (t.gp p n).results c {} = { FMap.getD (s.gp p n).results c {} with ready := false } ∧
      (t.gp p n).active = (s.gp p n).active) ∧
  (∀ (s : State) (p : Part) (n : Nat) (c : Nat) (seq : Word), s.fld p (gtBlock p n 0x50) 0 3 = c → seq ≠ (FMap.getD (s.gp p n).results c {}).seq → ∃ t, exec (.qsampleRetire p n seq) s = .next t ∧ FMap.getD (t.gp p n).results c {} = { FMap.getD (s.gp p n).results c {} with mismatch := true })

/-- A leaf joins arrivals and acknowledgements into count records and sends one when full or after 200 ns (R22, R92, R95, R316). -/
def Obligations.CountRecordsAtALeaf : Prop :=
  (∀ (s : State) (m : Ctl), ((∀ q ∈ (s.dom m.domain).positions, q.e.member = m.member → q.e.v2 = false) ∨ (m.kind ≠ .ack ∧ m.kind ≠ .orphan ∧ m.kind ≠ .gateMiss)) → s.fullSeq m = m) ∧
  (∀ (s : State) (port : Nat) (m0 m : Ctl), m = s.fullSeq m0 → s.isFenced m.member = true → exec (.leafReportRx port m0) s = .next (s.count (evK 0x1B0004))) ∧
  (∀ (s : State) (port : Nat) (m0 m : Ctl), m = s.fullSeq m0 → s.isFenced m.member = false → (m.status ≠ 0 ∨ (m.kind ≠ .arrive ∧ m.kind ≠ .ack)) → exec (.leafReportRx port m0) s = .next (s.emit (.send .kresia (.crown m.domain) (.ctl m)))) ∧
  (∀ (s : State) (port : Nat) (m0 m : Ctl), m = s.fullSeq m0 → s.isFenced m.member = false → (m.kind = .arrive ∨ m.kind = .ack) → m.status = 0 → port < 128 → s.recordFull (((s.ks.leafRecs.find? fun x => x.isFor m).getD { kind := m.kind, domain := m.domain, epoch := m.epoch, seq := m.seq, step := m.step, slot := m.slot, first := s.raw .kresia }).join port) = false → exec (.leafReportRx port m0) s = .next ((s.modKs fun k => { k with leafRecs := (k.leafRecs.filter fun y => !y.isFor m) ++ [(((s.ks.leafRecs.find? fun x => x.isFor m).getD { kind := m.kind, domain := m.domain, epoch := m.epoch, seq := m.seq, step := m.step, slot := m.slot, first := s.raw .kresia }).join port)] }))) ∧
  (∀ (s : State) (port : Nat) (m0 m : Ctl), m = s.fullSeq m0 → s.isFenced m.member = false → (m.kind = .arrive ∨ m.kind = .ack) → m.status = 0 → port < 128 → s.recordFull (((s.ks.leafRecs.find? fun x => x.isFor m).getD { kind := m.kind, domain := m.domain, epoch := m.epoch, seq := m.seq, step := m.step, slot := m.slot, first := s.raw .kresia }).join port) = true → ∃ t, exec (.leafReportRx port m0) s = .next t ∧ t.ks.leafRecs = s.ks.leafRecs.filter (fun y => !y.isFor m) ∧
      t.out = .send .kresia (.crown m.domain) (.ctl { kind := m.kind, record := true, domain := m.domain, epoch := m.epoch, seq := m.seq, step := m.step, slot := (((s.ks.leafRecs.find? fun x => x.isFor m).getD { kind := m.kind, domain := m.domain, epoch := m.epoch, seq := m.seq, step := m.step, slot := m.slot, first := s.raw .kresia }).join port).slot, bitmap := (((s.ks.leafRecs.find? fun x => x.isFor m).getD { kind := m.kind, domain := m.domain, epoch := m.epoch, seq := m.seq, step := m.step, slot := m.slot, first := s.raw .kresia }).join port).bitmap, latest := port }) :: s.out) ∧
  (∀ (s : State) (kind : CtlType) (d : Nat) (x : LeafRecord), (s.ks.leafRecs.find? fun x => x.kind = kind && x.domain = d && 200 * 65536 ≤ Raw.diff (s.raw .kresia) x.first) = some x → exec (.leafRecordTimeout kind d) s = .next ((s.modKs fun k => { k with leafRecs := k.leafRecs.erase x }).emit (.send .kresia (.crown x.domain) (.ctl { kind := x.kind, record := true, domain := x.domain, epoch := x.epoch, seq := x.seq, step := x.step, slot := x.slot, bitmap := x.bitmap, latest := x.latest })))) ∧
  (∀ (s : State) (kind : CtlType) (d : Nat), (s.ks.leafRecs.find? fun x => x.kind = kind && x.domain = d && 200 * 65536 ≤ Raw.diff (s.raw .kresia) x.first) = none → exec (.leafRecordTimeout kind d) s = .next (s))

/-- A crown holds each position's arrival once; the last one completes the barrier; stale and foreign ones change nothing (R22, R95, R98, R99, R107, R230). -/
def Obligations.ArrivalsCompleteABarrier : Prop :=
  (∀ (s : State) (src : Nat) (m : Ctl), (s.dom m.domain).isCrown = false → (s.dom m.domain).isDeputy = false → exec (.crownArriveRx src m) s = .next (s)) ∧
  (∀ (s : State) (src : Nat) (m : Ctl), ((s.dom m.domain).isCrown = true ∨ (s.dom m.domain).isDeputy = true) → m.epoch ≠ (s.dom m.domain).epoch → exec (.crownArriveRx src m) s = .next (s.count (evD m.domain 0x110108))) ∧
  (∀ (s : State) (src : Nat) (m : Ctl), ((s.dom m.domain).isCrown = true ∨ (s.dom m.domain).isDeputy = true) → m.epoch = (s.dom m.domain).epoch → (m.step ≠ (if (s.dom m.domain).phase = .gather ∨ (s.dom m.domain).phase = .held then (s.dom m.domain).step else (s.dom m.domain).step + 1)) → exec (.crownArriveRx src m) s = .next (s)) ∧
  (∀ (s : State) (src : Nat) (m : Ctl), (s.dom m.domain).isCrown = true → (s.dom m.domain).isDeputy = false → m.epoch = (s.dom m.domain).epoch → (m.step = (if (s.dom m.domain).phase = .gather ∨ (s.dom m.domain).phase = .held then (s.dom m.domain).step else (s.dom m.domain).step + 1)) → (((s.dom m.domain).named src m).filter fun i => !(s.dom m.domain).arrivals.contains i) ≠ [] → ((s.modDom m.domain fun y => { y with arrivals := y.arrivals ++ (((s.dom m.domain).named src m).filter fun i => !(s.dom m.domain).arrivals.contains i), lastBy := ((s.dom m.domain).named src m).getLast?, firstAt := if y.arrivals.isEmpty then some (s.raw .kresia) else y.firstAt }).barrierReady m.domain = false) → exec (.crownArriveRx src m) s = .next ((s.modDom m.domain fun y => { y with arrivals := y.arrivals ++ (((s.dom m.domain).named src m).filter fun i => !(s.dom m.domain).arrivals.contains i), lastBy := ((s.dom m.domain).named src m).getLast?, firstAt := if y.arrivals.isEmpty then some (s.raw .kresia) else y.firstAt }))) ∧
  (∀ (s : State) (src : Nat) (m : Ctl), (s.dom m.domain).isCrown = true → (s.dom m.domain).isDeputy = false → m.epoch = (s.dom m.domain).epoch → (m.step = (if (s.dom m.domain).phase = .gather ∨ (s.dom m.domain).phase = .held then (s.dom m.domain).step else (s.dom m.domain).step + 1)) → (((s.dom m.domain).named src m).filter fun i => !(s.dom m.domain).arrivals.contains i) ≠ [] → ((s.modDom m.domain fun y => { y with arrivals := y.arrivals ++ (((s.dom m.domain).named src m).filter fun i => !(s.dom m.domain).arrivals.contains i), lastBy := ((s.dom m.domain).named src m).getLast?, firstAt := if y.arrivals.isEmpty then some (s.raw .kresia) else y.firstAt }).barrierReady m.domain = true) → exec (.crownArriveRx src m) s = .next ((s.modDom m.domain fun y => { y with arrivals := y.arrivals ++ (((s.dom m.domain).named src m).filter fun i => !(s.dom m.domain).arrivals.contains i), lastBy := ((s.dom m.domain).named src m).getLast?, firstAt := if y.arrivals.isEmpty then some (s.raw .kresia) else y.firstAt }).completeBarrier m.domain ((s.dom m.domain).named src m).getLast?)) ∧
  (∀ (s : State) (src : Nat) (m : Ctl), ((s.dom m.domain).isCrown = true ∨ (s.dom m.domain).isDeputy = true) → m.epoch = (s.dom m.domain).epoch → (m.step = (if (s.dom m.domain).phase = .gather ∨ (s.dom m.domain).phase = .held then (s.dom m.domain).step else (s.dom m.domain).step + 1)) → (((s.dom m.domain).named src m).filter fun i => !(s.dom m.domain).arrivals.contains i) = [] → exec (.crownArriveRx src m) s = .next (s)) ∧
  (∀ (s : State) (src : Nat) (m : Ctl), (s.dom m.domain).isCrown = false → (s.dom m.domain).isDeputy = true → (s.dom m.domain).phase = .gather → m.epoch = (s.dom m.domain).epoch → m.step = (s.dom m.domain).step → (((s.dom m.domain).named src m).filter fun i => !(s.dom m.domain).arrivals.contains i) ≠ [] → (∀ i < (s.dom m.domain).positions.length, i ∈ (s.dom m.domain).arrivals ∨ i ∈ (s.dom m.domain).named src m) → ∃ t, exec (.crownArriveRx src m) s = .next t ∧ (t.dom m.domain).phase = .arm ∧
      (t.dom m.domain).step = m.step ∧
      (t.dom m.domain).arrivals = [] ∧
      (t.dom m.domain).epoch = (s.dom m.domain).epoch ∧
      t.out = .send .kresia (.crown m.domain) (.ctlOf src m) :: s.out) ∧
  (∀ (s : State) (src : Nat) (m : Ctl), (s.dom m.domain).isCrown = false → (s.dom m.domain).isDeputy = true → m.epoch = (s.dom m.domain).epoch → (m.step = (if (s.dom m.domain).phase = .gather ∨ (s.dom m.domain).phase = .held then (s.dom m.domain).step else (s.dom m.domain).step + 1)) → (((s.dom m.domain).named src m).filter fun i => !(s.dom m.domain).arrivals.contains i) ≠ [] → (∃ i < (s.dom m.domain).positions.length, i ∉ (s.dom m.domain).arrivals ∧ i ∉ (s.dom m.domain).named src m) → exec (.crownArriveRx src m) s = .next (((s.modDom m.domain fun y => { y with arrivals := y.arrivals ++ (((s.dom m.domain).named src m).filter fun i => !(s.dom m.domain).arrivals.contains i), lastBy := ((s.dom m.domain).named src m).getLast?, firstAt := if y.arrivals.isEmpty then some (s.raw .kresia) else y.firstAt }).emit (.send .kresia (.crown m.domain) (.ctlOf src m))))) ∧
  (∀ (s : State) (d : Nat) (g : Image), (s.dom d).phase = .gather → (s.dom d).unloading = none → (s.dom d).next = none → (s.dom d).prog = some g → (launches g) = [] → ((s.completeBarrier d none).dom d).decided = s.otNow .kresia ∧
      ((s.completeBarrier d none).dom d).arrivals = [] ∧
      ((s.completeBarrier d none).dom d).step = (s.dom d).step ∧
      ((s.completeBarrier d none).dom d).epoch = (s.dom d).epoch) ∧
  (∀ (s : State) (d i : Nat) (g : Image), (s.dom d).phase = .gather → (s.dom d).unloading = none → (s.dom d).next = none → (s.dom d).prog = some g → launches g = [i] → slotBell g (entRef g i) = false → entDoneObj g 0 = 0xFFFF → s.armedUsed < 1024 → ((s.completeBarrier d none).dom d).phase = .arm ∧
      ((s.completeBarrier d none).dom d).decided = s.otNow .kresia ∧
      ((s.completeBarrier d none).dom d).arrivals = [] ∧
      ((s.completeBarrier d none).dom d).toArm = [] ∧
      ((s.completeBarrier d none).dom d).step = (s.dom d).step ∧
      ((s.completeBarrier d none).dom d).epoch = (s.dom d).epoch ∧
      ((s.completeBarrier d none).dom d).seq = ((s.dom d).seq + 1) % 2 ^ 32 ∧
      ((s.completeBarrier d none).dom d).recs = ((s.dom d).recs.filter fun r => 0 < otDiff r.due (s.otNow .kresia)) ++ [{ step := (s.dom d).step, entry := i, slot := entRef g i, seq := ((s.dom d).seq + 1) % 2 ^ 32, due := dueOf (s.otNow .kresia) g, adl := adlOf (dueOf (s.otNow .kresia) g) g, period := entF g i 16 6, bells := entF g i 22 4 }])

/-- A refusing ACK, a missing ACK at ADL or a report voids the unsealed step; stale and late reports are only counted (R92, R95, R99, R100, R101, R316). -/
def Obligations.AcknowledgementsAndVoids : Prop :=
  (∀ (s : State) (src : Nat) (m : Ctl), (s.dom m.domain).isCrown = false → ((s.dom m.domain).isDeputy = false → exec (.crownAckRx src m) s = .next s) ∧
      exec (.crownReportRx src m) s = .next s ∧
      exec (.adlExpiry m.domain) s = .next s) ∧
  (∀ (s : State) (src : Nat) (m : Ctl), (s.dom m.domain).isDeputy = true → m.epoch = (s.dom m.domain).epoch → ((s.dom m.domain).heldAcks.find? fun a => a.seq = m.seq) = none → (s.dom m.domain).named src m ≠ [] → exec (.crownAckRx src m) s = .next ((s.modDom m.domain fun y => { y with heldAcks := (y.heldAcks.filter fun a => a.seq ≠ m.seq) ++ [{ seq := m.seq, step := m.step, slot := m.slot, acks := ((s.dom m.domain).named src m).map fun i => (i, m.status) }] }).emit (.send .kresia (.crown m.domain) (.ctlOf src m)))) ∧
  (∀ (s : State) (src : Nat) (m : Ctl) (a : HeldAck), (s.dom m.domain).isDeputy = true → m.epoch = (s.dom m.domain).epoch → ((s.dom m.domain).heldAcks.find? fun a => a.seq = m.seq) = some a → (∀ i ∈ (s.dom m.domain).named src m, ∃ c, (i, c) ∈ a.acks) → exec (.crownAckRx src m) s = .next (s)) ∧
  (∀ (s : State) (src : Nat) (m : Ctl), ((s.dom m.domain).isCrown = true ∨ (s.dom m.domain).isDeputy = true) → m.epoch ≠ (s.dom m.domain).epoch → exec (.crownAckRx src m) s = .next (s.count (evD m.domain 0x110108))) ∧
  (∀ (s : State) (src : Nat) (m : Ctl) (g : Image) (r : ArmRec), (s.dom m.domain).isCrown = true → (s.dom m.domain).isDeputy = false → m.epoch = (s.dom m.domain).epoch → (s.dom m.domain).prog = some g → ((s.dom m.domain).recs.find? fun r => r.seq = m.seq && !r.tamped) = some r → m.status ≠ 0 → exec (.crownAckRx src m) s = .next (s.voidStep m.domain m.status)) ∧
  (∀ (s : State) (src : Nat) (m : Ctl) (g : Image) (r : ArmRec), (s.dom m.domain).isCrown = true → (s.dom m.domain).isDeputy = false → m.epoch = (s.dom m.domain).epoch → (s.dom m.domain).prog = some g → ((s.dom m.domain).recs.find? fun r => r.seq = m.seq && !r.tamped) = some r → m.status = 0 → (∃ i < (s.dom m.domain).positions.length, i ∉ r.acks ∧ i ∉ (s.dom m.domain).named src m) → exec (.crownAckRx src m) s = .next ((s.modDom m.domain fun y => { y with recs := y.recs.map fun q => if q = r then { r with acks := r.acks ++ ((s.dom m.domain).named src m).filter fun i => !r.acks.contains i } else q }))) ∧
  (∀ (s : State) (src : Nat) (m : Ctl), (s.dom m.domain).isCrown = true → m.fromKresia = false → s.isFenced m.member = true → exec (.crownReportRx src m) s = .next (s.count (evK 0x1B0004))) ∧
  (∀ (s : State) (src : Nat) (m : Ctl), (s.dom m.domain).isCrown = true → (m.fromKresia = true ∨ s.isFenced m.member = false) → m.epoch ≠ (s.dom m.domain).epoch → exec (.crownReportRx src m) s = .next (s.count (evD m.domain 0x110108))) ∧
  (∀ (s : State) (src : Nat) (m : Ctl), (s.dom m.domain).isCrown = true → (m.fromKresia = true ∨ s.isFenced m.member = false) → m.epoch = (s.dom m.domain).epoch → ((s.dom m.domain).phase = .held ∨ m.step < (s.dom m.domain).step) → exec (.crownReportRx src m) s = .next (s.count (evD m.domain 0x11010C))) ∧
  (∀ (s : State) (src : Nat) (m : Ctl), (s.dom m.domain).isCrown = true → (m.fromKresia = true ∨ s.isFenced m.member = false) → m.epoch = (s.dom m.domain).epoch → (m.fromKresia = false ∨ m.status ≠ 0x5002) → (s.dom m.domain).phase ≠ .held → (s.dom m.domain).step ≤ m.step → exec (.crownReportRx src m) s = .next (s.voidStep m.domain m.status)) ∧
  (∀ (s : State) (src : Nat) (m : Ctl), (s.dom m.domain).isCrown = true → m.fromKresia = true → m.epoch = (s.dom m.domain).epoch → m.status = 0x5002 → (s.dom m.domain).phase ≠ .held → (s.dom m.domain).step ≤ m.step → exec (.crownReportRx src m) s = .next ((s.modDom m.domain fun y => { y with lost := true }).voidStep m.domain 0x5002)) ∧
  (∀ (s : State) (d : Nat) (r : ArmRec), (s.dom d).isCrown = true → ((s.dom d).recs.find? fun r => !r.tamped && otDiff r.adl (s.otNow .kresia) ≤ 0) = some r → exec (.adlExpiry d) s = .next (s.ackMissing d r)) ∧
  (∀ (s : State) (d i : Nat) (r : ArmRec) (g : Image), (s.dom d).isCrown = true → ((s.dom d).recs.find? fun r => !r.tamped && otDiff r.adl (s.otNow .kresia) ≤ 0) = some r → i < (s.dom d).positions.length → i ∉ r.acks → (s.dom d).phase = .arm → (s.dom d).epoch ≠ 0xFFFFFFFF → (s.dom d).unloading = none → (s.dom d).freeing = false → (s.dom d).prog = some g → (∀ q ∈ (s.dom d).recs, entDoneObj g q.entry = 0xFFFF) → s.canTell .kresia = true → ∃ t, exec (.adlExpiry d) s = .next t ∧ (t.dom d).epoch = (s.dom d).epoch + 1 ∧
      (s.told .kresia ++ [0x2007]).isPrefixOf (t.told .kresia) = true) ∧
  (∀ (s : State) (d : Nat), (s.dom d).isCrown = true → ((s.dom d).recs.find? fun r => !r.tamped && otDiff r.adl (s.otNow .kresia) ≤ 0) = none → exec (.adlExpiry d) s = .next (s)) ∧
  (∀ (s : State) (d : Nat) (g : Image) (i : Nat) (rest : List Nat), (s.dom d).prog = some g → (s.dom d).toArm = i :: rest → s.armedUsed < 1024 → exec (.armStallRelease d) s = .next (((s.armEntry d g i).armList d g rest).afterTamp d)) ∧
  (∀ (s : State) (d : Nat), (((s.dom d).toArm = [] ∧ (s.dom d).changeWait = none) ∨ (s.dom d).prog = none ∨ 1024 ≤ s.armedUsed) → exec (.armStallRelease d) s = .next (s)) ∧
  (∀ (s : State) (d : Nat) (g : Image) (r : ArmRec), (s.dom d).prog = some g → (s.dom d).toArm = [] → (s.dom d).changeWait = some r → s.armedUsed < 1024 → exec (.armStallRelease d) s = .next ((s.modDom d fun x => { x with changeWait := none }).sendArm d g r true)) ∧
  (∀ (s : State) (d : Nat) (cause : Code), (s.dom d).isCrown = true → (s.dom d).phase ≠ .none → (s.dom d).phase ≠ .idle → (s.dom d).phase ≠ .held → (s.dom d).epoch ≠ 0xFFFFFFFF → (s.dom d).recs.all (fun r => r.tamped) = true → (s.dom d).positions.any (fun q => q.vacant) = false → (s.dom d).lost = false → (s.dom d).freeing = false → (s.dom d).voidRun + 1 ≤ s.voidRetry d → (s.dom d).voidRun < 255 → ((s.voidStep d cause).dom d).epoch = (s.dom d).epoch + 1 ∧
      ((s.voidStep d cause).dom d).step = (s.dom d).step ∧
      ((s.voidStep d cause).dom d).seq = 0 ∧
      ((s.voidStep d cause).dom d).phase = .gather ∧
      ((s.voidStep d cause).dom d).voidRun = (s.dom d).voidRun + 1)

/-- Data packets land and are counted in their tracker, or are dropped and counted as fenced, unbound, old or repeated (R116, R136, R137, R138, R140, R141, R142, R316). -/
def Obligations.TransfersReachTheirReceiver : Prop :=
  (∀ (s : State) (port : Nat) (x : RsigPacket), s.bx.fenced = true → exec (.rsigPacketRx .baxel port x) s = .next (s.count (evB 0x043C))) ∧
  (∀ (s : State) (port : Nat) (x : RsigPacket), s.isFenced x.src = true → exec (.rsigPacketRx .kresia port x) s = .next (s.count (evK 0x1B0004))) ∧
  (∀ (s : State) (port : Nat) (x : RsigPacket), s.bx.fenced = false → s.tenantOf x.domain = none → exec (.rsigPacketRx .baxel port x) s = .next ((if x.last then (s.count (evB 0x0438)).emit (.send .baxel (.port port) (.rwDone ⟨x.domain, x.epoch, x.transfer, 0x3013⟩)) else s.count (evB 0x0438)))) ∧
  (∀ (s : State) (port : Nat) (x : RsigPacket), s.isFenced x.src = false → s.fld .kresia (lkAddr .kresia port 0) 6 2 ≠ 2 → x.epoch < (s.dom x.domain).epoch → (FMap.find? s.ks.trackers (rsigKey x.src x.transfer)).all (fun y => !y.overrun) = true → exec (.rsigPacketRx .kresia port x) s = .next (s.count (evK 0x12008C))) ∧
  (∀ (s : State) (port : Nat) (x : RsigPacket) (y : Tracker), s.isFenced x.src = false → s.fld .kresia (lkAddr .kresia port 0) 6 2 ≠ 2 → (s.dom x.domain).epoch ≤ x.epoch → FMap.find? s.ks.trackers (rsigKey x.src x.transfer) = some y → y.overrun = false → y.landed.getLsbD (x.index % 256) = true → ∃ t, exec (.rsigPacketRx .kresia port x) s = .next t ∧ t.ks.mem = s.ks.mem ∧
      FMap.find? t.ks.trackers (rsigKey x.src x.transfer) = some { y with lastRaw := s.raw .kresia } ∧
      t.rd .kresia 0x120084 = s.rd .kresia 0x120084 + 1 ∧
      t.out = s.out) ∧
  (∀ (s : State) (port : Nat) (x : RsigPacket) (y : Tracker), s.isFenced x.src = false → s.fld .kresia (lkAddr .kresia port 0) 6 2 ≠ 2 → FMap.find? s.ks.trackers (rsigKey x.src x.transfer) = some y → y.overrun = true → ∃ t, exec (.rsigPacketRx .kresia port x) s = .next t ∧ t.ks.mem = s.ks.mem ∧
      FMap.find? t.ks.trackers (rsigKey x.src x.transfer) = some { y with lastRaw := s.raw .kresia } ∧
      t.rd .kresia 0x12008C = s.rd .kresia 0x12008C + 1 ∧
      t.out = s.out) ∧
  (∀ (s : State) (port : Nat) (x : RsigPacket), s.isFenced x.src = false → s.fld .kresia (lkAddr .kresia port 0) 6 2 ≠ 2 → (s.dom x.domain).epoch ≤ x.epoch → FMap.find? s.ks.trackers (rsigKey x.src x.transfer) = none → (s.dom x.domain).trackers ≤ (s.ks.trackers.filter fun (_, y) => y.domain = x.domain).length → s.canTell .kresia = true → ∃ t, exec (.rsigPacketRx .kresia port x) s = .next t ∧ t.ks.mem = s.ks.mem ∧
      t.ks.trackers = s.ks.trackers ∧
      t.told .kresia = s.told .kresia ++ [0x3010] ∧
      t.rd .kresia 0x12008C = s.rd .kresia 0x12008C + 1) ∧
  (∀ (s : State) (port : Nat) (x : RsigPacket), s.isFenced x.src = false → s.fld .kresia (lkAddr .kresia port 0) 6 2 ≠ 2 → (s.dom x.domain).epoch ≤ x.epoch → FMap.find? s.ks.trackers (rsigKey x.src x.transfer) = none → (s.ks.trackers.filter fun (_, y) => y.domain = x.domain).length < (s.dom x.domain).trackers → x.last = false → ∃ t, exec (.rsigPacketRx .kresia port x) s = .next t ∧ t.ks.mem = memWriteAll s.ks.mem x.addr x.payload ∧
      (FMap.find? t.ks.trackers (rsigKey x.src x.transfer)).map (fun y => (y.src, y.transfer, y.domain, y.landed, y.written, y.acked, y.last)) = some (x.src, x.transfer, x.domain, (1 : BitVec 256) <<< (x.index % 256), x.payload.length, 0, false) ∧
      t.out = s.out) ∧
  (∀ (s : State) (port : Nat) (x : RsigPacket), s.isFenced x.src = false → s.fld .kresia (lkAddr .kresia port 0) 6 2 = 2 → ∃ t, exec (.rsigPacketRx .kresia port x) s = .next t ∧ t.ks.mem = memWriteAll s.ks.mem x.addr x.payload ∧
      t.ks.trackers = s.ks.trackers ∧
      t.out = s.out) ∧
  (∀ (s : State) (port k : Nat) (x : RsigPacket), s.bx.fenced = false → s.tenantOf x.domain = some k → s.fld .baxel (lkAddr .baxel port 0) 6 2 ≠ 2 → (s.ten k).epoch ≤ x.epoch → FMap.find? s.bx.trackers (rsigKey x.src x.transfer) = none → (s.bx.trackers.filter fun (_, y) => y.domain = x.domain).length < s.fld .baxel (0x0520 + 4 * k) 0 14 → x.last = false → ∃ t, exec (.rsigPacketRx .baxel port x) s = .next t ∧ (FMap.find? t.bx.trackers (rsigKey x.src x.transfer)).map (fun y => (y.src, y.transfer, y.domain, y.landed, y.written, y.acked, y.last)) = some (x.src, x.transfer, x.domain, (1 : BitVec 256) <<< (x.index % 256), x.payload.length, 0, false) ∧
      t.ks = s.ks)

/-- A write response counts toward its transfer; silent trackers close with 0x300E or 0x300D; RW_DONE returns the tracker (R137, R138, R140, R141, R413, R414). -/
def Obligations.TransfersCompleteOrClose : Prop :=
  (∀ (s : State) (p : Part) (port id : Nat) (err : Bool), FMap.find? (s.writesOf p) (port * 4096 + id) = none → exec (.memWriteResponse p port id err) s = .next (s)) ∧
  (∀ (s : State) (r : MemReq) (key l id : Nat) (y : Tracker), FMap.find? s.ks.writes id = some r → r.use = .rsig key l → r.timedOut = false → FMap.find? s.ks.trackers key = some y → ({ y with acked := y.acked + r.bytes } : Tracker).complete = false → s.ks.v2Waits = [] → ∃ t, exec (.memWriteResponse .kresia 0 id false) s = .next t ∧ FMap.find? t.ks.writes id = none ∧
      FMap.find? t.ks.trackers key = some { y with acked := y.acked + r.bytes } ∧
      t.ks.mem = s.ks.mem ∧
      t.out = s.out) ∧
  (∀ (s : State) (p : Part) (src transfer : Nat) (x : Tracker), FMap.find? (s.trackers p) (rsigKey src transfer) = some x → x.overrun = true → s.silent p x = true → exec (.rsigOverrunWaitEnd p src transfer) s = .next ((s.freeTracker p (rsigKey src transfer)).rwDoneTo p x 0x300D)) ∧
  (∀ (s : State) (p : Part) (src transfer : Nat) (x : Tracker), FMap.find? (s.trackers p) (rsigKey src transfer) = some x → (x.overrun = false ∨ s.silent p x = false) → exec (.rsigOverrunWaitEnd p src transfer) s = .next (s)) ∧
  (∀ (s : State) (p : Part) (src transfer : Nat) (x : Tracker), FMap.find? (s.trackers p) (rsigKey src transfer) = some x → x.overrun = false → x.complete = false → s.silent p x = true → exec (.rsigTimeout p src transfer) s = .next ((((s.freeTracker p (rsigKey src transfer)).report p 0x300E [x.src, x.transfer] (domain := some x.domain)).rwDoneTo p x 0x300E))) ∧
  (∀ (s : State) (p : Part) (src transfer : Nat) (x : Tracker), FMap.find? (s.trackers p) (rsigKey src transfer) = some x → (x.overrun = true ∨ s.silent p x = false) → exec (.rsigTimeout p src transfer) s = .next (s)) ∧
  (∀ (s : State) (p : Part) (src transfer : Nat), FMap.find? (s.trackers p) (rsigKey src transfer) = none → exec (.rsigOverrunWaitEnd p src transfer) s = .next s ∧
      exec (.rsigTimeout p src transfer) s = .next s) ∧
  (∀ (s : State) (src : Nat) (d : RwDone) (x : SendTransfer), FMap.find? s.ks.sends (rsigKey src d.transfer) = some x → x.domain = d.domain → exec (.rwDoneRx .kresia src d) s = .next ((s.modKs fun k => { k with sends := FMap.erase k.sends (rsigKey src d.transfer) }).sendDone .kresia x d.code)) ∧
  (∀ (s : State) (src : Nat) (d : RwDone), FMap.find? s.ks.sends (rsigKey src d.transfer) = none → FMap.find? s.bx.sends (rsigKey src d.transfer) = none → exec (.rwDoneRx .kresia src d) s = .next s ∧
      exec (.rwDoneRx .baxel src d) s = .next s) ∧
  (∀ (s : State) (port id : Nat) (r : MemReq), FMap.find? s.bx.reads (port * 4096 + id) = some r → r.timedOut = false → 1000000 * 65536 ≤ Raw.diff (s.raw .baxel) r.issued → exec (.memPortTimeout true port id) s = .next (match r.use with
      | .job j line => (((s.modBx fun b => { b with reads := FMap.set b.reads (port * 4096 + id) { r with timedOut := true } }).memError r.tag 0xB005).lineCame j line [] true)
      | .command m j => (((s.modBx fun b => { b with reads := FMap.set b.reads (port * 4096 + id) { r with timedOut := true } }).memError r.tag 0xB005).failCommand m j 0xB005)
      | _ => (s.modBx fun b => { b with reads := FMap.set b.reads (port * 4096 + id) { r with timedOut := true } }).memError r.tag 0xB005)) ∧
  (∀ (s : State) (port id : Nat) (r : MemReq), FMap.find? s.bx.writes (port * 4096 + id) = some r → r.timedOut = false → 1000000 * 65536 ≤ Raw.diff (s.raw .baxel) r.issued → exec (.memPortTimeout false port id) s = .next (match r.use with
      | .job j line => (((s.modBx fun b => { b with writes := FMap.set b.writes (port * 4096 + id) { r with timedOut := true } }).memError r.tag 0xB005).lineCame j line [] true)
      | .command m j => (((s.modBx fun b => { b with writes := FMap.set b.writes (port * 4096 + id) { r with timedOut := true } }).memError r.tag 0xB005).failCommand m j 0xB005)
      | _ => (s.modBx fun b => { b with writes := FMap.set b.writes (port * 4096 + id) { r with timedOut := true } }).memError r.tag 0xB005)) ∧
  (∀ (s : State) (rd : Bool) (port id : Nat), ((FMap.find? (if rd then s.bx.reads else s.bx.writes) (port * 4096 + id)).all (fun r => r.timedOut || decide (Raw.diff (s.raw .baxel) r.issued < 1000000 * 65536)) = true) → exec (.memPortTimeout rd port id) s = .next (s)) ∧
  (∀ (s : State) (port : Nat) (x : RsigPacket), s.isFenced x.src = true → exec (.v2SignalPacketRx .kresia port x) s = .next (s.count (evK 0x1B0004))) ∧
  (∀ (s : State) (port : Nat) (x : RsigPacket), s.isFenced x.src = false → exec (.v2SignalPacketRx .kresia port x) s = .next ((s.modKs fun k => { k with v2Waits := k.v2Waits ++ [⟨port, x.domain, x.sigObj, x.sigN, x.src, x.transfer, (s.ks.writes.filter fun (_, r) => match r.use with | .rsig _ l => l = port | .v2 l => l = port | _ => false).map (·.1)⟩] }).serveV2 .kresia)) ∧
  (∀ (s : State) (port : Nat) (x : RsigPacket), s.bx.fenced = false → (s.tenantOf x.domain).isSome = true → exec (.v2SignalPacketRx .baxel port x) s = .next ((s.modBx fun k => { k with v2Waits := k.v2Waits ++ [⟨port, x.domain, x.sigObj, x.sigN, x.src, x.transfer, (s.bx.writes.filter fun (_, r) => match r.use with | .rsig _ l => l = port | .v2 l => l = port | _ => false).map (·.1)⟩] }).serveV2 .baxel))

/-- An image is checked, taken or refused with a code; the crown collects the answers, completes the load or withdraws it (R148, R165, R167, R169, R171, R202, R230, R345). -/
def Obligations.ImagesLoadAndTheirAnswers : Prop :=
  (∀ (s : State) (x : ProgImage), x.mapOnly = false → x.rollback = none → x.cup = none → x.unload = false → x.withdraw = false → s.ksReady = false → exec (.progImageRx x) s = .next (s.emit (.send .kresia (.crown x.domain) (.loadAck { domain := x.domain, fromBaxel := false, node := 2 ^ 20 + s.ksId, code := 0x1010 })))) ∧
  (∀ (s : State) (x : ProgImage), x.mapOnly = false → x.rollback = none → x.cup = none → x.unload = false → x.withdraw = false → s.ksReady = true → imageDigest x.image ≠ imgDigest x.image → exec (.progImageRx x) s = .next (s.emit (.send .kresia (.crown x.domain) (.loadAck { domain := x.domain, fromBaxel := false, node := 2 ^ 20 + s.ksId, code := 0x2021 })))) ∧
  (∀ (s : State) (x : ProgImage), x.mapOnly = false → x.rollback = none → x.cup = none → x.unload = false → x.withdraw = false → s.ksReady = true → imageDigest x.image = imgDigest x.image → s.hasRoom x.domain x.image x.positions = false → exec (.progImageRx x) s = .next (s.emit (.send .kresia (.crown x.domain) (.loadAck { domain := x.domain, fromBaxel := false, node := 2 ^ 20 + s.ksId, code := 0x2026 })))) ∧
  (∀ (s : State) (x : ProgImage) (n : Nat), x.mapOnly = false → x.rollback = none → x.cup = none → x.unload = false → x.withdraw = false → s.ksReady = true → imageDigest x.image = imgDigest x.image → s.hasRoom x.domain x.image x.positions = true → x.switchStep = some n → exec (.progImageRx x) s = .next ((s.modDom x.domain fun y => { y with next := some (x.image, n) }).emit (.send .kresia (.crown x.domain) (.loadAck { domain := x.domain, fromBaxel := false, node := 2 ^ 20 + s.ksId, code := 0 })))) ∧
  (∀ (s : State) (x : ProgImage), x.mapOnly = false → x.rollback = none → x.cup = none → x.unload = false → x.withdraw = false → s.ksReady = true → imageDigest x.image = imgDigest x.image → s.hasRoom x.domain x.image x.positions = true → x.switchStep = none → ∃ t, exec (.progImageRx x) s = .next t ∧ (t.dom x.domain).prog = some x.image ∧
      (t.dom x.domain).next = none ∧
      (t.dom x.domain).epoch = 0 ∧
      (t.dom x.domain).insts = [] ∧
      t.out = (s.emit (.send .kresia (.crown x.domain) (.loadAck { domain := x.domain, fromBaxel := false, node := 2 ^ 20 + s.ksId, code := 0 }))).out) ∧
  (∀ (s : State) (x : ProgImage), x.mapOnly = false → x.rollback = none → x.cup = none → x.unload = false → x.withdraw = true → x.switchStep ≠ none → exec (.progImageRx x) s = .next ((s.modDom x.domain fun y => { y with next := none }))) ∧
  (∀ (s : State) (x : ProgImage), x.mapOnly = false → x.rollback = none → x.cup = none → x.unload = false → x.withdraw = true → x.switchStep = none → ∃ t, exec (.progImageRx x) s = .next t ∧ (t.dom x.domain).prog = none ∧
      (t.dom x.domain).trackers = 0 ∧
      t.out = s.out) ∧
  (∀ (s : State) (x : ProgImage) (n f : Nat), x.mapOnly = false → x.rollback = none → x.cup = some (n, f) → exec (.progImageRx x) s = .next ((s.modDom x.domain fun y => { y with cupPeriod := n, cupFrom := f }))) ∧
  (∀ (s : State) (a : LoadAck), (s.dom a.domain).wait = none → exec (.progLoadAckRx a) s = .next (s)) ∧
  (∀ (s : State) (a : LoadAck) (w : ProgWait) (tk : Taken), (s.dom a.domain).wait = some w → (w.kind = 0 ∨ w.kind = 1) → a.code ≠ 0 → (s.mslot .kresia w.mailbox w.mslot).taken = some tk → ∃ t, exec (.progLoadAckRx a) s = .next t ∧ t.answered .kresia w.mailbox w.mslot tk 0x2028 (leBytes 4 a.node ++ leBytes 2 a.code.toNat) ∧
      (t.dom a.domain).wait = none) ∧
  (∀ (s : State) (a : LoadAck) (w : ProgWait), (s.dom a.domain).wait = some w → (w.kind = 0 ∨ w.kind = 1) → a.code = 0 → w.waiting.erase a.node ≠ [] → exec (.progLoadAckRx a) s = .next ((s.modDom a.domain fun y => { y with wait := some { w with waiting := w.waiting.erase a.node } }))) ∧
  (∀ (s : State) (a : LoadAck) (w : ProgWait) (tk : Taken) (g : Image), (s.dom a.domain).wait = some w → w.kind = 0 → a.code = 0 → w.waiting.erase a.node = [] → (s.dom a.domain).prog = some g → (s.mslot .kresia w.mailbox w.mslot).taken = some tk → ∃ t, exec (.progLoadAckRx a) s = .next t ∧ t.answered .kresia w.mailbox w.mslot tk 0 ∧
      (t.dom a.domain).wait = none ∧
      (t.dom a.domain).phase = .gather ∧
      (t.dom a.domain).step = imgStepFirst g ∧
      (t.dom a.domain).epoch = 0) ∧
  (∀ (s : State) (a : LoadAck) (w : ProgWait), (s.dom a.domain).wait = some w → w.kind = 2 → (∃ n ∈ w.waiting, n ≠ a.node) → exec (.programFreedRx a) s = .next ((s.modDom a.domain fun y => { y with wait := some { w with waiting := w.waiting.filter (· ≠ a.node) } }))) ∧
  (∀ (s : State) (a : LoadAck) (w : ProgWait) (tk : Taken), (s.dom a.domain).wait = some w → w.kind = 2 → (∀ n ∈ w.waiting, n = a.node) → (s.mslot .kresia w.mailbox w.mslot).taken = some tk → ∃ t, exec (.programFreedRx a) s = .next t ∧ t.answered .kresia w.mailbox w.mslot tk 0 ∧
      (t.dom a.domain).wait = none ∧
      (t.dom a.domain).phase = .idle) ∧
  (∀ (s : State) (x : ScalarValue), exec (.scalarValueRx x) s = .next ((s.modDom x.domain fun y => { y with scalars := y.scalars ++ [⟨x.set, x.scalar, x.value, x.fromStep⟩] }).emit (.send .kresia (.crown x.domain) (.scalarAck x (2 ^ 20 + s.ksId))))) ∧
  (∀ (s : State) (x : ScalarValue) (n : Nat) (w : ScalarWait), ((s.dom x.domain).scalarWaits.find? fun w => w.v = ⟨x.set, x.scalar, x.value, x.fromStep⟩) = some w → (∃ i ∈ w.waiting, i ≠ n) → exec (.scalarAckRx x n) s = .next ((s.modDom x.domain fun y => { y with scalarWaits := y.scalarWaits.map fun u => if u = w then { w with waiting := w.waiting.filter (· ≠ n) } else u }))) ∧
  (∀ (s : State) (x : ScalarValue) (n : Nat), ((s.dom x.domain).scalarWaits.find? fun w => w.v = ⟨x.set, x.scalar, x.value, x.fromStep⟩) = none → exec (.scalarAckRx x n) s = .next (s))

/-- Tamps open or hold instances, voids take the newer epoch, queues issue every 10 ns, waits pass or time out, schedules overrun (R103, R153, R154, R155, R156, R157, R158, R159, R160, R170). -/
def Obligations.StepBodiesRun : Prop :=
  (∀ (s : State) (m : Ctl), m.epoch < (s.dom m.domain).epoch → exec (.kresiaTampRx m) s = .next s ∧
      exec (.kresiaVoidRx m) s = .next s) ∧
  (∀ (s : State) (m : Ctl) (g : Image), m.epoch = (s.dom m.domain).epoch → (s.dom m.domain).isDeputy = false → (s.dom m.domain).next = none → (s.dom m.domain).imageFor m.step = some g → (s.dom m.domain).moves = [] → (s.dom m.domain).lastTamp = none → m.cancel = false → (launches g).head?.map (entRef g) = some m.slot → 2 ≤ (s.dom m.domain).insts.length → ∃ t, exec (.kresiaTampRx m) s = .next t ∧ (t.dom m.domain).lastTamp = some (m.step, m.epoch) ∧
      (t.dom m.domain).heldInsts = (s.dom m.domain).heldInsts ++ [(m.step, m.epoch, m.due)] ∧
      (t.dom m.domain).insts = (s.dom m.domain).insts) ∧
  (∀ (s : State) (m : Ctl), (s.dom m.domain).epoch < m.epoch → (s.dom m.domain).freeing = false → ∃ t, exec (.kresiaVoidRx m) s = .next t ∧ (t.dom m.domain).epoch = m.epoch ∧
      (t.dom m.domain).prog = (s.dom m.domain).prog) ∧
  (∀ (s : State) (d step : Nat), s.inst d step = none → exec (.queueIssueTick d step) s = .next (s)) ∧
  (∀ (s : State) (d step : Nat) (n : Inst), s.inst d step = some n → imgMode n.image = 0 → n.lastIssue.all (fun r => decide (10 * 65536 ≤ Raw.diff (s.raw .kresia) r)) = true → exec (.queueIssueTick d step) s = .next (s.issueFrom d step (List.range 16))) ∧
  (∀ (s : State) (d step : Nat) (n : Inst), s.inst d step = some n → (imgMode n.image ≠ 0 ∨ n.lastIssue.any (fun r => decide (Raw.diff (s.raw .kresia) r < 10 * 65536)) = true) → exec (.queueIssueTick d step) s = .next (s)) ∧
  (∀ (s : State) (d step i : Nat) (n : Inst) (r : EntryRun), s.inst d step = some n → FMap.find? n.runs i = some r → r.done = false → s.entryFinished d step i n r = true → exec (.entryComplete d step i) s = .next (s.endEntry d step i true)) ∧
  (∀ (s : State) (d step i : Nat) (n : Inst) (r : EntryRun), s.inst d step = some n → FMap.find? n.runs i = some r → (r.done = true ∨ s.entryFinished d step i n r = false) → exec (.entryComplete d step i) s = .next (s)) ∧
  (∀ (s : State) (d step i : Nat) (c : Code), (d, waitId step i, c) ∈ s.ks.takesDone → (c = 0 ∨ c = 0x3012) → exec (.waitTakeDone d step i) s = .next (s.passWait d step i)) ∧
  (∀ (s : State) (d step i : Nat), (d, waitId step i, 0) ∉ s.ks.takesDone → (d, waitId step i, 0x3012) ∉ s.ks.takesDone → exec (.waitTakeDone d step i) s = .next (s)) ∧
  (∀ (s : State) (d step i : Nat) (n : Inst) (r : EntryRun), s.inst d step = some n → FMap.find? n.runs i = some r → entType n.image i = 8 → r.done = false → entF n.image i 20 4 ≠ 0 → ((entF n.image i 20 4 * 65536000 : Nat) : Int) ≤ Raw.diff (s.raw .kresia) r.issued → (s.ks.takesDone.any fun (q, j, c) => q = d && j = waitId step i && (c = 0 || c = 0x202D || c = 0x3012)) = false → entF n.image i 24 1 ≠ 1 → ∃ t, exec (.waitTimeout d step i) s = .next t ∧ t.ks.takesDone = s.ks.takesDone ++ [(d, waitId step i, 0x202D)] ∧
      t.out = (s.ksTenantFault d 0x202D (some step)).out ∧
      (∀ o w, FMap.find? t.ks.objs o = some w → ∀ q ∈ w.waiters, ¬ (q.owner = d ∧ q.source = .entry (waitId step i)))) ∧
  (∀ (s : State) (d step i : Nat), s.inst d step = none → exec (.waitTimeout d step i) s = .next s ∧
      exec (.schedStart d step i) s = .next s ∧
      exec (.schedOverrun d step i) s = .next s ∧
      exec (.entryComplete d step i) s = .next s) ∧
  (∀ (s : State) (d step i : Nat) (n : Inst) (a b : Int), s.inst d step = some n → imgMode n.image = 1 → schedOf n.image i = some (a, b) → otDiff (n.at' a) (s.otNow .kresia) ≤ 0 → i ∈ body n.image → FMap.has n.runs i = false → (∀ j ∈ body n.image, schedBefore n.image j i = true → FMap.has n.runs j = true ∨ ∃ c, (d, waitId step j, c) ∈ s.ks.takesDone) → s.partakes (s.dom d) n.image i step = true → entRuns n.image i step = true → exec (.schedStart d step i) s = .next ((s.issueEntry d step i).1.modInst d step fun z => z.passed i)) ∧
  (∀ (s : State) (d step i : Nat) (n : Inst), s.inst d step = some n → imgMode n.image ≠ 1 → exec (.schedStart d step i) s = .next s ∧
      exec (.schedOverrun d step i) s = .next s) ∧
  (∀ (s : State) (d step i : Nat) (n : Inst) (a b : Int), s.inst d step = some n → imgMode n.image = 1 → schedOf n.image i = some (a, b) → FMap.find? n.runs i = none → otDiff (n.at' (a + 1000)) (s.otNow .kresia) < 0 → (s.ks.takesDone.any fun (q, j, _) => q = d && j = waitId step i) = false → exec (.schedOverrun d step i) s = .next (((s.count (evD d 0x13005C)).modKs fun k => { k with takesDone := k.takesDone ++ [(d, waitId step i, 0x202C)] }).ksTenantFault d 0x202C (some step)))

/-- A post is refused with its code in the status word or taken with step and epoch; DONE releases parts; restarts send again (R203, R204, R205, R211, R218, R253, R263, R264, R266, R269). -/
def Obligations.BaxelPostsAndResends : Prop :=
  (∀ (s : State) (t : Nat) (c : Code), s.postCode t ((s.rd .baxel (tPage t 0x300)).toNat % 2 ^ 12) ((s.rd .baxel (tPage t 0x304)).toNat % 2 ^ 24) ((s.rd .baxel (tPage t 0x308)).toNat % 2 ^ 24) = some c → exec (.cpGo t) s = .next ((s.setFld .baxel (tPage t 0x31C) 0 16 c.toNat))) ∧
  (∀ (s : State) (t : Nat), s.postCode t ((s.rd .baxel (tPage t 0x300)).toNat % 2 ^ 12) ((s.rd .baxel (tPage t 0x304)).toNat % 2 ^ 24) ((s.rd .baxel (tPage t 0x308)).toNat % 2 ^ 24) = none → exec (.cpGo t) s = .next ((((s.setFld .baxel (tPage t 0x31C) 0 16 0).modTen t fun y => { y with posts := y.posts ++ [{ coll := (s.rd .baxel (tPage t 0x300)).toNat % 2 ^ 12, left := (List.range ((s.rd .baxel (tPage t 0x308)).toNat % 2 ^ 24)).map ((s.rd .baxel (tPage t 0x304)).toNat % 2 ^ 24 + ·), addr := (s.rd64 .baxel (tPage t 0x30C)).toNat, entries := (s.rd .baxel (tPage t 0x314)).toNat, step := (s.ten t).firedStep.getD ((s.ten t).stepFirst.getD 0), epoch := (s.ten t).epoch }] }).pumpParts))) ∧
  (∀ (s : State) (t : Nat) (c : Code), s.dspPostCode t ((s.rd .baxel (tPage t 0x380)).toNat) (s.fld .baxel (tPage t 0x384) 0 17) = some c → exec (.dpGo t) s = .next ((s.setFld .baxel (tPage t 0x38C) 0 16 c.toNat))) ∧
  (∀ (s : State) (t : Nat), s.dspPostCode t ((s.rd .baxel (tPage t 0x380)).toNat) (s.fld .baxel (tPage t 0x384) 0 17) = none → exec (.dpGo t) s = .next ((((s.setFld .baxel (tPage t 0x38C) 0 16 0).modTen t fun y => { y with dspPosts := (y.dspPosts.filter fun q => q.state < 3 || (q.step = (s.ten t).nowStep && q.epoch = (s.ten t).epoch)) ++ [{ layer := (s.rd .baxel (tPage t 0x380)).toNat, n := s.fld .baxel (tPage t 0x384) 0 17, step := (s.ten t).nowStep, epoch := (s.ten t).epoch }] }).beginPost t { layer := (s.rd .baxel (tPage t 0x380)).toNat, n := s.fld .baxel (tPage t 0x384) 0 17, step := (s.ten t).nowStep, epoch := (s.ten t).epoch }))) ∧
  (∀ (s : State) (t : Nat), ((s.ten t).faulted = true ∨ (s.ten t).domain = none ∨ layCount (s.ten t).prog ≤ (s.rd .baxel (tPage t 0x380)).toNat ∨ (s.ten t).position ∉ lHosts (s.ten t).prog ((s.rd .baxel (tPage t 0x380)).toNat)) → exec (.dpRetGo t) s = .next ((s.setFld .baxel (tPage t 0x38C) 0 16 0x6001))) ∧
  (∀ (s : State) (t : Nat), (s.ten t).faulted = false → (s.ten t).domain ≠ none → (s.rd .baxel (tPage t 0x380)).toNat < layCount (s.ten t).prog → (s.ten t).position ∈ lHosts (s.ten t).prog ((s.rd .baxel (tPage t 0x380)).toNat) → lRet (s.ten t).prog ((s.rd .baxel (tPage t 0x380)).toNat) ≠ 0 → exec (.dpRetGo t) s = .next (((s.setFld .baxel (tPage t 0x38C) 0 16 0).returnLayer t ((s.rd .baxel (tPage t 0x380)).toNat)))) ∧
  (∀ (s : State) (d e step c k : Nat), exec (.chunkDoneRx (.done d e step c k)) s = .next ((((s.bx.parts.filter fun (_, x) => (s.ten x.tenant).domain = some d && x.step % 65536 = step && x.coll = c && x.chunk = k).foldl (fun (s : State) (y : Nat × BxPart) => s.countReleased y.2) (s.modBx fun b => { b with parts := b.parts.filter fun (_, x) => !((s.ten x.tenant).domain = some d && x.step % 65536 = step && x.coll = c && x.chunk = k) })).pumpParts))) ∧
  (∀ (s : State) (n : DspNote) (t : Nat) (p : DspPost), s.tenantOf n.domain = some t → ((s.ten t).dspPosts.find? fun p => p.isFor n.layer n.step n.epoch) = some p → p.state = 2 → exec (.dspGoRx n) s = .next ((List.range p.n).foldl (fun s' i => s'.startRead t (lSrcAddr ((s.ten t).imageFor p.step) p.layer + i * lPayload ((s.ten t).imageFor p.step) p.layer) (lPayload ((s.ten t).imageFor p.step) p.layer) (.payload p.layer p.step p.epoch i)) (s.modDspPost t p.layer p.step p.epoch fun q => { q with state := 3 }))) ∧
  (∀ (s : State) (n : DspNote) (t : Nat) (p : DspPost), s.tenantOf n.domain = some t → ((s.ten t).dspPosts.find? fun p => p.isFor n.layer n.step n.epoch) = some p → p.state ≠ 2 → exec (.dspGoRx n) s = .next (s)) ∧
  (∀ (s : State) (n : DspNote) (t : Nat) (p : DspPost), s.tenantOf n.domain = some t → ((s.ten t).dspPosts.find? fun p => p.isFor n.layer n.step n.epoch) = some p → p.restart < n.restart → p.state < 2 → exec (.dspRestartRx n) s = .next ((s.modDspPost t p.layer p.step p.epoch fun q => { q with restart := n.restart }))) ∧
  (∀ (s : State) (n : DspNote) (t : Nat) (p : DspPost), s.tenantOf n.domain = some t → ((s.ten t).dspPosts.find? fun p => p.isFor n.layer n.step n.epoch) = some p → p.restart < n.restart → p.state = 2 → exec (.dspRestartRx n) s = .next (((s.modDspPost t p.layer p.step p.epoch fun q => { q with restart := n.restart }).sendList t ((s.ten t).imageFor p.step) { p with restart := n.restart } p.recs))) ∧
  (∀ (s : State) (n : DspNote) (t : Nat) (p : DspPost), s.tenantOf n.domain = some t → ((s.ten t).dspPosts.find? fun p => p.isFor n.layer n.step n.epoch) = some p → (n.restart ≤ p.restart ∨ 3 ≤ p.state) → exec (.dspRestartRx n) s = .next (s)) ∧
  (∀ (s : State) (n : DspNote), s.tenantOf n.domain = none → exec (.dspOpenRx n) s = .next s ∧
      exec (.dspGoRx n) s = .next s ∧
      exec (.dspRestartRx n) s = .next s) ∧
  (∀ (s : State) (n : DspNote) (t : Nat), s.tenantOf n.domain = some t → ((s.ten t).dspPosts.find? fun p => p.isFor n.layer n.step n.epoch) = none → exec (.dspGoRx n) s = .next s ∧
      exec (.dspRestartRx n) s = .next s) ∧
  (∀ (s : State) (n : DspNote) (t : Nat), s.tenantOf n.domain = some t → n.epoch < (s.ten t).epoch → exec (.dspOpenRx n) s = .next (s)) ∧
  (∀ (s : State) (n : DspNote) (t : Nat) (p : DspPost), s.tenantOf n.domain = some t → (s.ten t).epoch ≤ n.epoch → ((s.ten t).dspPosts.find? fun p => p.isFor n.layer n.step n.epoch) = some p → exec (.dspOpenRx n) s = .next ((s.modTen t fun y => { y with dspOpens := if y.dspOpens.contains (n.layer, n.step, n.epoch) then y.dspOpens else (n.layer, n.step, n.epoch) :: y.dspOpens.filter fun (_, st, ep) => n.step ≤ st + 1 && n.epoch ≤ ep }).beginPost t p)) ∧
  (∀ (s : State) (n : DspNote) (t : Nat), s.tenantOf n.domain = some t → (s.ten t).epoch ≤ n.epoch → ((s.ten t).dspPosts.find? fun p => p.isFor n.layer n.step n.epoch) = none → ∃ t1, exec (.dspOpenRx n) s = .next t1 ∧ (n.layer, n.step, n.epoch) ∈ (t1.ten t).dspOpens ∧
      t1.out = s.out)

/-- Chunk packets and notices are stale, malformed or taken; a timed-out part is asked for again; a waiting chunk opens (R195, R203, R208, R209, R210, R218, R219, R220, R325). -/
def Obligations.ChunkNoticesAtAKresia : Prop :=
  (∀ (s : State) (port : Nat) (k : ChunkPacket), ((s.dom k.domain).imageFor ((s.dom k.domain).fullStep k.step) = none ∨ k.epoch < (s.dom k.domain).epoch) → exec (.chunkPacketRx port k) s = .next (s.count (evK 0x15001C))) ∧
  (∀ (s : State) (port : Nat) (k : ChunkPacket) (g : Image), (s.dom k.domain).imageFor ((s.dom k.domain).fullStep k.step) = some g → k.epoch = (s.dom k.domain).epoch → k.coll < collCount g → k.chunk < cChunks g k.coll → (s.dom k.domain).lastTamp = none → k.role ≠ 0 → homeOf (s.dom k.domain).moves g k.coll k.chunk ((s.dom k.domain).fullStep k.step) = s.ksId → exec (.chunkPacketRx port k) s = .next (s.ownPacket g ((s.dom k.domain).fullStep k.step) true port k)) ∧
  (∀ (s : State) (node d e step c k r l : Nat) (code : Code), ((s.dom d).imageFor ((s.dom d).fullStep step) = none ∨ e < (s.dom d).epoch) → exec (.chunkBaseRx .kresia (.base node d e step c k r)) s = .next (s.count (evK 0x15001C)) ∧
      exec (.chunkFailRx (.fail node d e step c k r l)) s = .next (s.count (evK 0x15001C)) ∧
      exec (.chunkRestartRx .kresia (.restart node d e step c k r code l)) s = .next (s.count (evK 0x15001C))) ∧
  (∀ (s : State) (node d e step c role base : Nat) (g : Image), (s.dom d).imageFor ((s.dom d).fullStep step) = some g → e = (s.dom d).epoch → c < collCount g → 0 < cChunks g c → exec (.chunkBaseRx .kresia (.base node d e step c role base)) s = .next (((s.modKs fun q => { q with bases := FMap.set q.bases (winKey d c role step * 2 ^ 17 + node % 2 ^ 17) ⟨step, base⟩ }).flushLeaves d c (node % 2 ^ 17) g))) ∧
  (∀ (s : State) (node d e step c role base t : Nat), s.tenantOf d = some t → (s.ten t).epoch ≤ e → exec (.chunkBaseRx .baxel (.base node d e step c role base)) s = .next (((s.modBx fun b => { b with bases := FMap.set b.bases (winKey d c role step * 2 ^ 17 + node % 2 ^ 17) ⟨step, base⟩ }).pumpParts))) ∧
  (∀ (s : State) (node d e step c k r l ix : Nat) (x : ChunkEntry) (g : Image), (s.dom d).imageFor ((s.dom d).fullStep step) = some g → e = (s.dom d).epoch → c < collCount g → k < cChunks g c → s.findChunk d c k ((s.dom d).fullStep step) true = some (ix, x) → r < x.restart → exec (.chunkFailRx (.fail node d e step c k r l)) s = .next (s.count (evK 0x15001C))) ∧
  (∀ (s : State) (node d e step c k r l ix : Nat) (x : ChunkEntry) (g : Image), (s.dom d).imageFor ((s.dom d).fullStep step) = some g → e = (s.dom d).epoch → c < collCount g → k < cChunks g c → s.findChunk d c k ((s.dom d).fullStep step) true = some (ix, x) → x.restart ≤ r → s.isV2Member d l = false → exec (.chunkFailRx (.fail node d e step c k r l)) s = .next (s.restartChunk ix g l)) ∧
  (∀ (s : State) (node d e step c k r l ix : Nat) (code : Code) (x : ChunkEntry) (g : Image), (s.dom d).imageFor ((s.dom d).fullStep step) = some g → e = (s.dom d).epoch → c < collCount g → k < cChunks g c → s.findChunk d c k ((s.dom d).fullStep step) false = some (ix, x) → x.restart < r → exec (.chunkRestartRx .kresia (.restart node d e step c k r code l)) s = .next (s.resetChunk g ix r)) ∧
  (∀ (s : State) (node d e step c k r l ix : Nat) (code : Code) (x : ChunkEntry) (g : Image), (s.dom d).imageFor ((s.dom d).fullStep step) = some g → e = (s.dom d).epoch → c < collCount g → k < cChunks g c → s.findChunk d c k ((s.dom d).fullStep step) false = some (ix, x) → r ≤ x.restart → exec (.chunkRestartRx .kresia (.restart node d e step c k r code l)) s = .next (s.count (evK 0x15001C))) ∧
  (∀ (s : State) (node d e step c k r l ix : Nat) (x : ChunkEntry) (g : Image), (s.dom d).imageFor ((s.dom d).fullStep step) = some g → e = (s.dom d).epoch → c < collCount g → k < cChunks g c → s.findChunk d c k ((s.dom d).fullStep step) true = some (ix, x) → x.restart ≤ r → s.isV2Member d l = true → exec (.chunkFailRx (.fail node d e step c k r l)) s = .next (s.failChunk ix 0x4007)) ∧
  (∀ (s : State) (node d e step c k r l : Nat) (code : Code) (g : Image), (s.dom d).imageFor ((s.dom d).fullStep step) = some g → e = (s.dom d).epoch → (collCount g ≤ c ∨ cChunks g c ≤ k) → exec (.chunkFailRx (.fail node d e step c k r l)) s = .next (s.partBad none d ((s.dom d).fullStep step) node 255) ∧
      exec (.chunkRestartRx .kresia (.restart node d e step c k r code l)) s = .next (s.partBad none d ((s.dom d).fullStep step) node 255)) ∧
  (∀ (s : State) (node d e step c role base : Nat) (g : Image), (s.dom d).imageFor ((s.dom d).fullStep step) = some g → e = (s.dom d).epoch → (collCount g ≤ c ∨ cChunks g c = 0) → exec (.chunkBaseRx .kresia (.base node d e step c role base)) s = .next (s.partBad none d ((s.dom d).fullStep step) node 255)) ∧
  (∀ (s : State) (port : Nat) (k : ChunkPacket) (g : Image), (s.dom k.domain).imageFor ((s.dom k.domain).fullStep k.step) = some g → k.epoch = (s.dom k.domain).epoch → (collCount g ≤ k.coll ∨ cChunks g k.coll ≤ k.chunk) → exec (.chunkPacketRx port k) s = .next (s.partBad none k.domain ((s.dom k.domain).fullStep k.step) k.sender port)) ∧
  (∀ (s : State) (port : Nat) (k : ChunkPacket) (g : Image), (s.dom k.domain).imageFor ((s.dom k.domain).fullStep k.step) = some g → k.epoch = (s.dom k.domain).epoch → k.coll < collCount g → k.chunk < cChunks g k.coll → ((s.dom k.domain).lastTamp.all fun (st, _) => st ≤ (s.dom k.domain).fullStep k.step + 1) = true → k.role = 0 → s.isSpine = false → port < 128 → ksPlane (homeOf (s.dom k.domain).moves g k.coll k.chunk ((s.dom k.domain).fullStep k.step)) = ksPlane s.ksId → exec (.chunkPacketRx port k) s = .next (s.ownPacket g ((s.dom k.domain).fullStep k.step) false port k)) ∧
  (∀ (s : State) (port : Nat) (k : ChunkPacket) (g : Image) (st ep : Nat), (s.dom k.domain).imageFor ((s.dom k.domain).fullStep k.step) = some g → k.epoch = (s.dom k.domain).epoch → k.coll < collCount g → k.chunk < cChunks g k.coll → (s.dom k.domain).lastTamp = some (st, ep) → (s.dom k.domain).fullStep k.step + 1 < st → exec (.chunkPacketRx port k) s = .next (s.count (evK 0x15001C))) ∧
  (∀ (s : State) (port : Nat) (k : ChunkPacket) (g : Image), (s.dom k.domain).imageFor ((s.dom k.domain).fullStep k.step) = some g → k.epoch = (s.dom k.domain).epoch → k.coll < collCount g → k.chunk < cChunks g k.coll → (s.dom k.domain).lastTamp = none → (k.role ≠ 0 ∨ s.isSpine = true ∨ 128 ≤ port) → homeOf (s.dom k.domain).moves g k.coll k.chunk ((s.dom k.domain).fullStep k.step) ≠ s.ksId → exec (.chunkPacketRx port k) s = .next (if s.fencedPart k then s.count (evK 0x150028) else s.sendChunk (homeOf (s.dom k.domain).moves g k.coll k.chunk ((s.dom k.domain).fullStep k.step)) k)) ∧
  (∀ (s : State) (node d e step c k r l : Nat) (code : Code), exec (.chunkRestartRx .baxel (.restart node d e step c k r code l)) s = .next ((s.resendParts (fun x => (s.ten x.tenant).domain = some d && x.epoch = e && x.step % 65536 = step && x.coll = c && x.chunk = k && x.restart < r) (some r)))) ∧
  (∀ (s : State) (m : HomeMove), s.tenantOf m.domain = none → exec (.homeMoveRx .baxel m) s = .next (s)) ∧
  (∀ (s : State) (m : HomeMove) (t : Nat), s.tenantOf m.domain = some t → m.kind = 0 → exec (.homeMoveRx .baxel m) s = .next ((s.modTen t fun x => { x with moves := x.moves ++ [(m.kind, m.record, m.element, m.home, m.step.getD 0)] }).resendParts (fun x => x.tenant = t && x.coll = m.record && m.step.getD 0 ≤ x.step && x.chunk % cHomes (((s.modTen t fun x => { x with moves := x.moves ++ [(m.kind, m.record, m.element, m.home, m.step.getD 0)] }).ten t).imageFor x.step) x.coll = m.element) none)) ∧
  (∀ (s : State) (m : HomeMove), (s.dom m.domain).isCrown = false → m.kind = 0 → s.ks.chunks = [] → exec (.homeMoveRx .kresia m) s = .next ((s.modDom m.domain fun x => { x with moves := x.moves ++ [⟨m.kind, m.record, m.element, m.home, m.step.getD 0⟩] }))) ∧
  (∀ (s : State) (m : HomeMove), (s.dom m.domain).isCrown = true → exec (.homeMoveRx .kresia m) s = .next (((s.emit (.send .kresia (.kresias (((s.dom m.domain).kresia s.ks.build).filter (· ≠ s.ksId))) (.homeMove m))).emit (.send .kresia (.members (s.dom m.domain).members) (.homeMove m))).ksMove m)) ∧
  (∀ (s : State) (m : HomeMove), (s.dom m.domain).isCrown = false → m.kind ≠ 0 → exec (.homeMoveRx .kresia m) s = .next (if m.kind = 1 then (s.modDom m.domain fun x => { x with moves := x.moves ++ [⟨m.kind, m.record, m.element, m.home, m.step.getD 0⟩] }).dspMoved m else (s.modDom m.domain fun x => { x with moves := x.moves ++ [⟨m.kind, m.record, m.element, m.home, m.step.getD 0⟩] }))) ∧
  (∀ (s : State) (m : HomeMove) (t : Nat), s.tenantOf m.domain = some t → m.kind ≠ 0 → exec (.homeMoveRx .baxel m) s = .next (if m.kind = 1 then (s.modTen t fun x => { x with moves := x.moves ++ [(m.kind, m.record, m.element, m.home, m.step.getD 0)] }).resendLists t m else (s.modTen t fun x => { x with moves := x.moves ++ [(m.kind, m.record, m.element, m.home, m.step.getD 0)] }))) ∧
  (∀ (s : State) (i sender : Nat) (x : ChunkEntry) (u : PartRun) (g : Image), FMap.find? s.ks.chunks i = some x → FMap.find? x.parts sender = some u → (s.dom x.domain).imageFor x.step = some g → x.state = 1 → ((cTimeoutUs g x.coll * 65536000 : Nat) : Int) ≤ Raw.diff (s.raw .kresia) u.lastRaw → x.role = 1 → exec (.partTimeout i sender) s = .next (s.restartChunk i g sender)) ∧
  (∀ (s : State) (i sender : Nat) (x : ChunkEntry) (u : PartRun) (g : Image), FMap.find? s.ks.chunks i = some x → FMap.find? x.parts sender = some u → (s.dom x.domain).imageFor x.step = some g → (x.state ≠ 1 ∨ Raw.diff (s.raw .kresia) u.lastRaw < ((cTimeoutUs g x.coll * 65536000 : Nat) : Int)) → exec (.partTimeout i sender) s = .next (s)) ∧
  (∀ (s : State) (i sender : Nat) (x : ChunkEntry) (u : PartRun) (g : Image), FMap.find? s.ks.chunks i = some x → FMap.find? x.parts sender = some u → (s.dom x.domain).imageFor x.step = some g → x.state = 1 → ((cTimeoutUs g x.coll * 65536000 : Nat) : Int) ≤ Raw.diff (s.raw .kresia) u.lastRaw → x.role ≠ 1 → exec (.partTimeout i sender) s = .next ((s.modChunk i fun z => { z with parts := FMap.update z.parts sender u fun v => { v with lastRaw := s.raw .kresia } }).emit (.send .kresia (.node (2 ^ 20 + homeOf (s.dom x.domain).moves g x.coll x.chunk x.step)) (.chunkNote (.fail (2 ^ 20 + s.ksId) x.domain (s.dom x.domain).epoch (x.step % 65536) x.coll x.chunk x.restart sender))))) ∧
  (∀ (s : State) (i : Nat) (x : ChunkEntry) (g : Image), FMap.find? s.ks.chunks i = some x → (s.dom x.domain).imageFor x.step = some g → (x.waiting = false ∨ s.findSlots (slotsNeeded g x.coll x.chunk x.role) = none) → exec (.chunkOpenWait i) s = .next (s)) ∧
  (∀ (s : State) (i a : Nat) (x : ChunkEntry) (g : Image), FMap.find? s.ks.chunks i = some x → (s.dom x.domain).imageFor x.step = some g → x.waiting = true → s.findSlots (slotsNeeded g x.coll x.chunk x.role) = some a → exec (.chunkOpenWait i) s = .next (x.parked.foldl (fun s (port, k) => match FMap.find? s.ks.chunks i with | some z => s.atEntry i g z port k | none => s) ((s.modChunk i fun z => { z with waiting := false, slotFirst := a, slotCount := slotsNeeded g x.coll x.chunk x.role, parked := [] }).markHwm))) ∧
  (∀ (s : State) (i : Nat), FMap.find? s.ks.chunks i = none → exec (.chunkOpenWait i) s = .next s ∧
      exec (.partTimeout i 7) s = .next s) ∧
  (∀ (s : State) (d c role step : Nat) (g : Image), (s.dom d).imageFor step = some g → (s.window d c role step).noted < s.baseOf (s.dom d) g d c role step → (s.window d c role step).lastNote = none → exec (.chunkBaseNoticeTimer d c role step) s = .next (s.sendBase d c role step (s.baseOf (s.dom d) g d c role step))) ∧
  (∀ (s : State) (d c role step : Nat), (s.dom d).imageFor step = none → exec (.chunkBaseNoticeTimer d c role step) s = .next (s))

/-- A selection latches what it shows, and the reads that latch, count or retire do so and no other read changes state (R197, R198, R223, R249, R268, R353, R359). -/
def Obligations.SelectedViewsAndReads : Prop :=
  (∀ (s : State) (w : Word), (s.ks.chunks.any fun (_, e) => e.slotFirst ≤ w.get 0 22 && w.get 0 22 < e.slotFirst + e.slotCount) = false → ∃ t, exec (.feltProbeSel w) s = .next t ∧ t.rd .kresia 0x140090 = BitVec.ofNat 32 (w.get 0 22) ∧
      t.rd .kresia 0x140094 = 1 ∧
      (List.range 10).all (fun i => t.rd .kresia (0x1400A0 + 4 * i) = 0) = true ∧
      t.ks.chunks = s.ks.chunks ∧
      t.out = s.out) ∧
  (∀ (s : State) (w : Word) (i : Nat) (e : ChunkEntry), List.find? (fun ((_, e) : Nat × ChunkEntry) => e.slotFirst ≤ w.get 0 22 && w.get 0 22 < e.slotFirst + e.slotCount) s.ks.chunks = some (i, e) → (FMap.getD e.slots (w.get 0 22 - e.slotFirst) {}).f64 = [] → e.state = 1 → ∃ t, exec (.feltProbeSel w) s = .next t ∧ t.rd .kresia 0x140090 = BitVec.ofNat 32 (w.get 0 22) ∧
      (t.rd .kresia 0x140094).getLsbD 0 = true ∧
      (t.rd .kresia 0x140094).getLsbD 1 = true ∧
      t.ks.chunks = s.ks.chunks ∧
      t.out = s.out) ∧
  (∀ (s : State) (w : Word), FMap.find? s.ks.chunks (w.get 0 14) = none → ∃ t, exec (.chunkSel w) s = .next t ∧ t.rd .kresia 0x150100 = BitVec.ofNat 32 (w.get 0 14) ∧
      (List.range 11).all (fun i => t.rd .kresia (0x150104 + 4 * i) = 0) = true ∧
      t.ks.chunks = s.ks.chunks ∧
      t.out = s.out) ∧
  (∀ (s : State) (w : Word) (e : ChunkEntry), FMap.find? s.ks.chunks (w.get 0 14) = some e → ∃ t, exec (.chunkSel w) s = .next t ∧ t.rd .kresia 0x150100 = BitVec.ofNat 32 (w.get 0 14) ∧
      t.rd .kresia 0x150104 = BitVec.ofNat 32 (e.domain + e.coll % 2 ^ 12 * 2 ^ 16 + e.restart % 16 * 2 ^ 28) ∧
      t.rd .kresia 0x150108 = BitVec.ofNat 32 (e.chunk % 2 ^ 24 + e.state * 2 ^ 24 + e.role * 2 ^ 27) ∧
      t.rd .kresia 0x15010C = BitVec.ofNat 32 e.epoch ∧
      t.rd .kresia 0x150110 = BitVec.ofNat 32 (e.step % 65536) ∧
      t.ks.chunks = s.ks.chunks ∧
      t.out = s.out) ∧
  (∀ (s : State) (w : Word) (h : DspHome) (g : Image), s.ks.dspHomes = [h] → h.domain = s.fld .kresia 0x170100 0 16 → h.layer = (s.rd .kresia 0x170104).toNat → h.group = s.fld .kresia 0x170108 0 20 → (s.dom h.domain).imageFor h.step = some g → ∃ t, exec (.dspSel w) s = .next t ∧ t.rd .kresia 0x17010C = BitVec.ofNat 32 (w.get 0 16) ∧
      t.rd .kresia 0x170110 = BitVec.ofNat 32 (h.state + 8 * h.restart) ∧
      t.rd .kresia 0x170114 = BitVec.ofNat 32 h.ends.length ∧
      t.rd .kresia 0x170118 = BitVec.ofNat 32 (FMap.getD h.fill (w.get 0 16) 0) ∧
      t.rd .kresia 0x17011C = BitVec.ofNat 32 (lCap g h.layer (w.get 0 16)) ∧
      t.rd .kresia 0x170120 = BitVec.ofNat 32 (h.step % 2 ^ 32) ∧
      t.rd .kresia 0x170124 = BitVec.ofNat 32 (h.step / 2 ^ 32) ∧
      t.ks.dspHomes = s.ks.dspHomes ∧
      t.out = s.out) ∧
  (∀ (s : State) (w : Word), (s.ks.dspHomes.any fun h => h.domain = s.fld .kresia 0x170100 0 16 && h.layer = (s.rd .kresia 0x170104).toNat && h.group = s.fld .kresia 0x170108 0 20) = false → ∃ t, exec (.dspSel w) s = .next t ∧ t.rd .kresia 0x17010C = BitVec.ofNat 32 (w.get 0 16) ∧
      (List.range 6).all (fun i => t.rd .kresia (0x170110 + 4 * i) = 0) = true ∧
      t.ks.dspHomes = s.ks.dspHomes ∧
      t.out = s.out) ∧
  (∀ (s : State) (a v : Nat), s.rcValue a = some v → ∃ t, exec (.rcRegisterRead a) s = .next t ∧ t.out = .regData .kresia (s.rd .kresia a) :: s.out ∧
      t.rd .kresia a = BitVec.ofNat 32 v ∧
      t.pending = s.pending) ∧
  (∀ (s : State) (a : Nat), s.rcValue a = none → exec (.rcRegisterRead a) s = .next (s)) ∧
  (∀ (s : State) (v : View) (a : Nat), (v = .core ∨ v = .priv) → a ∈ wideCounters → ctrBankAt .kresia v a = none → ∃ t, exec (.lowWordRead .kresia v a) s = .next t ∧ t.out = .regData .kresia (s.rd .kresia a) :: s.out ∧
      FMap.find? t.ks.c.highs (a + 4) = some (s.rd .kresia (a + 4)) ∧
      t.rd .kresia a = s.rd .kresia a) ∧
  (∀ (s : State) (p : Part) (v : View) (a k off i : Nat), ctrBankAt p v a = some (k, off) → valueAt p k off = some i → (s.bank p k).latched = none → ∃ t, exec (.lowWordRead p v a) s = .next t ∧ t.out = .regData p (half ((s.bank p k).value i) false) :: s.out ∧
      FMap.find? (t.bank p k).highs i = some (half ((s.bank p k).value i) true) ∧
      (t.bank p k).ctrs = (s.bank p k).ctrs) ∧
  (∀ (s : State) (p : Part) (v : View) (a k off i : Nat), ctrBankAt p v a = some (k, off) → valueAt p k off = some i → (s.bank p k).latched ≠ none → exec (.lowWordRead p v a) s = .next (s.emit (.regData p (half ((s.bank p k).value i) false)))) ∧
  (∀ (s : State) (v : View) (a : Nat), ctrBankAt .baxel v a = none → s.beyondWindow .baxel v a = none → exec (.lowWordRead .baxel v a) s = .next (s.viewRefused .baxel v a)) ∧
  (∀ (s : State) (v : View) (a n : Nat), ctrBankAt .baxel v a = none → s.beyondWindow .baxel v a = some n → exec (.lowWordRead .baxel v a) s = .next ((s.viewCode n 0x3005).emit (.regData .baxel 0))) ∧
  (∀ (s : State) (v : View) (a : Nat), ctrBankAt .kresia v a = none → (a ∉ wideCounters ∨ (v ≠ .core ∧ v ≠ .priv)) → exec (.lowWordRead .kresia v a) s = .next (s.viewRefused .kresia v a)) ∧
  (∀ (s : State) (p : Part) (v : View) (a k off : Nat), ctrBankAt p v a = some (k, off) → valueAt p k off = none → exec (.lowWordRead p v a) s = .next (s))

/-- An idle engine runs the first chunk queued or waits with it; a commit stores once and counts; a state error recomputes or fails (R190, R231, R241, R242, R243, R244). -/
def Obligations.BlocksRunAndCommit : Prop :=
  (∀ (s : State) (j : BlockJob) (i : Nat) (e : ChunkEntry), ((s.ks.blockQ.filter fun j => j.waited && !j.running).find? s.blockFree) = some j → s.jobEntry j = some (i, e) → exec (.blockStart) s = .next (s.runBlock j e)) ∧
  (∀ (s : State), ((s.ks.blockQ.filter fun j => j.waited && !j.running).find? s.blockFree) = none → (64 ≤ (s.ks.blockQ.filter fun j => j.running || j.waited).length ∨ firstJob (s.ks.blockQ.filter fun j => !j.running && !j.waited) = none) → exec (.blockStart) s = .next (s)) ∧
  (∀ (s : State) (j : BlockJob) (i : Nat) (e : ChunkEntry), ((s.ks.blockQ.filter fun j => j.waited && !j.running).find? s.blockFree) = none → (s.ks.blockQ.filter fun j => j.running || j.waited).length < 64 → firstJob (s.ks.blockQ.filter fun j => !j.running && !j.waited) = some j → s.blockFree j = true → s.jobEntry j = some (i, e) → exec (.blockStart) s = .next (s.runBlock j e)) ∧
  (∀ (s : State) (j : BlockJob), ((s.ks.blockQ.filter fun j => j.waited && !j.running).find? s.blockFree) = none → (s.ks.blockQ.filter fun j => j.running || j.waited).length < 64 → firstJob (s.ks.blockQ.filter fun j => !j.running && !j.waited) = some j → s.blockFree j = false → exec (.blockStart) s = .next (((s.modKs fun k => { k with blockQ := s.ks.blockQ.map fun q => if q = j then { q with waited := true } else q }).count (evK 0x160030)))) ∧
  (∀ (s : State) (d c k : Nat), s.runningJob d c k = none → exec (.blockCommit d c k) s = .next s ∧
      (∀ copy, exec (.stateEccError d c k copy) s = .next s)) ∧
  (∀ (s : State) (d c k : Nat) (j : BlockJob), s.runningJob d c k = some j → (s.commitBlock j).jobEntry j = none → exec (.blockCommit d c k) s = .next (((s.commitBlock j).afterBlock j.image j))) ∧
  (∀ (s : State) (d c k : Nat) (j : BlockJob) (i : Nat) (e : ChunkEntry), s.runningJob d c k = some j → (s.commitBlock j).jobEntry j = some (i, e) → exec (.blockCommit d c k) s = .next ((((s.commitBlock j).finishHome i e j.image j.outBytes j.items).afterBlock j.image j))) ∧
  (∀ (s : State) (j : BlockJob), (s.commitBlock j).ks.blockQ = s.ks.blockQ.erase j ∧
      FMap.find? ((s.commitBlock j).shard (shardKey j.domain j.coll false false)).blockStep j.chunk = some j.step ∧
      (s.commitBlock j).rd .kresia 0x160018 = s.rd .kresia 0x160018 + 1 ∧
      (s.commitBlock j).ks.mem = s.ks.mem) ∧
  (∀ (s : State) (d c k : Nat) (j : BlockJob) (i : Nat) (e : ChunkEntry) (bs : List Byte), s.runningJob d c k = some j → s.jobEntry j = some (i, e) → exec (.stateEccError d c k (some bs)) s = .next ((((((s.modShard (shardKey d c false false) fun h => h.loadAreas k (cLen j.image c k) (areasOf (collProg j.image c) false) bs).runBlock j e).count (evK 0x160034)).report .kresia 0x5001 [d, c, k] (domain := some d))))) ∧
  (∀ (s : State) (d c k : Nat) (j : BlockJob) (i : Nat) (e : ChunkEntry), s.runningJob d c k = some j → s.jobEntry j = some (i, e) → exec (.stateEccError d c k none) s = .next (((s.modKs fun q => { q with blockQ := q.blockQ.erase j }).stateLost d c k (some i) j.step).pumpShardReads))

/-- Dispatch messages are refused as fenced or stale or taken by leaf and plan home; the engine takes the next layer; read data lands (R254, R256, R257, R262, R263, R265, R266, R316, R411, R414). -/
def Obligations.DispatchAtAKresiaAndReadData : Prop :=
  (∀ (s : State) (x : DspPacket), s.isFenced x.sender = true → exec (.dspRecordRx x) s = .next (s.count (evK 0x1B0004)) ∧
      exec (.dspPayloadRx x) s = .next (s.count (evK 0x1B0004))) ∧
  (∀ (s : State) (n : DspNote), ((s.dom n.domain).imageFor n.step = none ∨ n.epoch < (s.dom n.domain).epoch) → exec (.dspLostRx n) s = .next (s.count (evK 0x170030))) ∧
  (∀ (s : State) (x : DspPacket), s.isFenced x.sender = false → ((s.dom x.domain).imageFor x.step = none ∨ x.epoch < (s.dom x.domain).epoch) → exec (.dspRecordRx x) s = .next (s.count (evK 0x170030)) ∧
      exec (.dspListRx x) s = .next (s.count (evK 0x170030)) ∧
      exec (.dspPayloadRx x) s = .next (s.count (evK 0x170030))) ∧
  (∀ (s : State) (x : DspPacket) (g : Image), s.isFenced x.sender = false → (s.dom x.domain).imageFor x.step = some g → x.epoch = (s.dom x.domain).epoch → exec (.dspRecordRx x) s = .next (s.takeRecord x g)) ∧
  (∀ (s : State) (x : DspPacket) (g : Image), (s.dom x.domain).imageFor x.step = some g → x.epoch = (s.dom x.domain).epoch → exec (.dspListRx x) s = .next (s.takeList x g)) ∧
  (∀ (s : State) (x : DspPacket) (g : Image) (i : Nat), s.isFenced x.sender = false → (s.dom x.domain).imageFor x.step = some g → x.epoch = (s.dom x.domain).epoch → (s.dom x.domain).posOf x.sender = some i → exec (.dspPayloadRx x) s = .next (s.takePayload x g i)) ∧
  (∀ (s : State) (x : DspPacket) (g : Image), s.isFenced x.sender = false → (s.dom x.domain).imageFor x.step = some g → x.epoch = (s.dom x.domain).epoch → (s.dom x.domain).posOf x.sender = none → exec (.dspPayloadRx x) s = .next (s.dspBad x.domain x.sender x.step x.layer)) ∧
  (∀ (s : State) (n : DspNote) (g : Image), (s.dom n.domain).imageFor n.step = some g → n.epoch = (s.dom n.domain).epoch → lHome (s.dom n.domain).moves g n.layer n.group n.step ≠ s.ksId → exec (.dspLostRx n) s = .next (s.emit (.send .kresia (s.dspRoute s.ksId (lHome (s.dom n.domain).moves g n.layer n.group n.step) (lHome (s.dom n.domain).moves g n.layer n.group n.step)) (.dspNote n)))) ∧
  (∀ (s : State) (n : DspNote) (g : Image), (s.dom n.domain).imageFor n.step = some g → n.epoch = (s.dom n.domain).epoch → lHome (s.dom n.domain).moves g n.layer n.group n.step = s.ksId → s.dspHome n.domain n.layer n.group n.step = none → exec (.dspLostRx n) s = .next ((s.openDspHome n.domain n.layer n.group n.step).dspLost n.domain n.layer n.group n.step g)) ∧
  (∀ (s : State) (n : DspNote) (g : Image) (h : DspHome), (s.dom n.domain).imageFor n.step = some g → n.epoch = (s.dom n.domain).epoch → lHome (s.dom n.domain).moves g n.layer n.group n.step = s.ksId → s.dspHome n.domain n.layer n.group n.step = some h → h.restart ≤ n.restart → exec (.dspLostRx n) s = .next (s.dspLost n.domain n.layer n.group n.step g)) ∧
  (∀ (s : State) (n : DspNote) (g : Image) (h : DspHome), (s.dom n.domain).imageFor n.step = some g → n.epoch = (s.dom n.domain).epoch → lHome (s.dom n.domain).moves g n.layer n.group n.step = s.ksId → s.dspHome n.domain n.layer n.group n.step = some h → n.restart < h.restart → exec (.dspLostRx n) s = .next (s.count (evK 0x170030))) ∧
  (∀ (s : State) (p : DspPlacements), s.dspLeaf p.domain p.layer p.step = none → exec (.dspPlacementsRx p) s = .next (s.count (evK 0x170030))) ∧
  (∀ (s : State) (p : DspPlacements) (l : DspLeaf), s.dspLeaf p.domain p.layer p.step = some l → ((s.dom p.domain).imageFor p.step = none ∨ p.epoch < (s.dom p.domain).epoch ∨ p.group ∈ l.groups) → exec (.dspPlacementsRx p) s = .next (s.count (evK 0x170030))) ∧
  (∀ (s : State) (p : DspPlacements) (g : Image) (l : DspLeaf), s.dspLeaf p.domain p.layer p.step = some l → (s.dom p.domain).imageFor p.step = some g → (s.dom p.domain).epoch ≤ p.epoch → p.group ∉ l.groups → ∃ t, exec (.dspPlacementsRx p) s = .next t ∧ (t.dspLeaf p.domain p.layer p.step).map (fun y => (y.groups, y.places)) = some (l.groups ++ [p.group], l.places ++ p.places) ∧
      t.out = .send .kresia (.members ((l.posts.filter fun (i, r) => lGroupOf g p.layer i = p.group && r.n.isSome).map fun (_, r) => r.member)) (.dspNote { kind := .go, domain := p.domain, epoch := (s.dom p.domain).epoch, step := p.step, layer := p.layer, group := p.group, restart := p.restart }) :: s.out) ∧
  (∀ (s : State), s.ks.dspQ = [] → exec (.dspAssignEngineFree) s = .next ((s.modKs fun k => { k with dspEngine := none }))) ∧
  (∀ (s : State) (k : DspKey) (r : List DspKey), s.ks.dspQ = k :: r → exec (.dspAssignEngineFree) s = .next (((s.modKs fun q => { q with dspEngine := none, dspQ := r }).toEngine k))) ∧
  (∀ (s : State) (port id : Nat) (data : List Byte) (err : Bool), FMap.find? s.bx.reads (port * 4096 + id) = none → exec (.memReadData port id data err) s = .next (s)) ∧
  (∀ (s : State) (port id : Nat) (data : List Byte) (err : Bool) (r : MemReq), FMap.find? s.bx.reads (port * 4096 + id) = some r → (match r.use with | .job _ _ => true | _ => false) = false → (err = false ∨ r.timedOut = true) → exec (.memReadData port id data err) s = .next (s.modBx fun b => { b with reads := FMap.erase b.reads (port * 4096 + id) })) ∧
  (∀ (s : State) (port id : Nat) (data : List Byte) (r : MemReq), FMap.find? s.bx.reads (port * 4096 + id) = some r → r.use = .boot → r.timedOut = false → exec (.memReadData port id data true) s = .next ((s.modBx fun b => { b with reads := FMap.erase b.reads (port * 4096 + id) }).setFld .baxel 0x001C 0 16 0xB004)) ∧
  (∀ (s : State) (port id j line : Nat) (data : List Byte) (r : MemReq), FMap.find? s.bx.reads (port * 4096 + id) = some r → r.use = .job j line → r.timedOut = true → exec (.memReadData port id data false) s = .next (((s.modBx fun b => { b with reads := FMap.erase b.reads (port * 4096 + id) }).pumpReads))) ∧
  (∀ (s : State) (port id j line : Nat) (data : List Byte) (r : MemReq), FMap.find? s.bx.reads (port * 4096 + id) = some r → r.use = .job j line → r.timedOut = false → exec (.memReadData port id data false) s = .next (((s.modBx fun b => { b with reads := FMap.erase b.reads (port * 4096 + id) }).lineCame j line data false))) ∧
  (∀ (s : State) (port id j line : Nat) (data : List Byte) (r : MemReq), FMap.find? s.bx.reads (port * 4096 + id) = some r → r.use = .job j line → r.timedOut = false → exec (.memReadData port id data true) s = .next (((s.modBx fun b => { b with reads := FMap.erase b.reads (port * 4096 + id) }).memError r.tag 0xB004).lineCame j line data true))

/-- A port in service sends a heartbeat each millisecond, takes those received, and reports a loss after 5 ms and a resumption (R15, R310, R311, R312). -/
def Obligations.HeartbeatsAndReports : Prop :=
  (∀ (s : State) (p : Part) (n : Nat), s.up p n = true → s.elapsed p (s.lp p n).hbSent (msGrains 1) = true → exec (.heartbeatSend p n) s = .next (((s.modLp p n fun y => { y with hbSeq := (y.hbSeq + 1) % 65536, hbSent := some (s.raw p) }).emit (.send p (.port n) (.heartbeat (s.heartbeat p (s.lp p n).hbSeq)))))) ∧
  (∀ (s : State) (p : Part) (n : Nat), (s.up p n = false ∨ s.elapsed p (s.lp p n).hbSent (msGrains 1) = false) → exec (.heartbeatSend p n) s = .next (s)) ∧
  (∀ (s : State) (p : Part) (n : Nat) (h : Heartbeat), s.up p n = true → (s.lp p n).hbLost = false → (p = .baxel ∨ (h.node < 2 ^ 20 && h.singleDomain && !((s.lp p n).hb.any fun old => old.singleDomain)) = false) → (p = .baxel ∨ (h.node < 2 ^ 20 && s.isFenced h.node && !s.ks.aliveTold.contains h.node) = false) → exec (.heartbeatRx p n h) s = .next ((s.modLp p n fun y => { y with hbLast := some (s.raw p), hbLost := false, hb := some h }))) ∧
  (∀ (s : State) (n : Nat) (h : Heartbeat), s.up .kresia n = true → (s.lp .kresia n).hbLost = false → (h.node < 2 ^ 20 && h.singleDomain && !((s.lp .kresia n).hb.any fun old => old.singleDomain)) = true → (h.node < 2 ^ 20 && s.isFenced h.node && !s.ks.aliveTold.contains h.node) = false → s.canTell .kresia = true → ∃ t, exec (.heartbeatRx .kresia n h) s = .next t ∧ (t.lp .kresia n).hb = some h ∧
      t.told .kresia = s.told .kresia ++ [0x9001]) ∧
  (∀ (s : State) (n : Nat) (h : Heartbeat), s.up .kresia n = true → (s.lp .kresia n).hbLost = false → (h.node < 2 ^ 20 && h.singleDomain && !((s.lp .kresia n).hb.any fun old => old.singleDomain)) = false → (h.node < 2 ^ 20 && s.isFenced h.node && !s.ks.aliveTold.contains h.node) = true → s.canTell .kresia = true → ∃ t, exec (.heartbeatRx .kresia n h) s = .next t ∧ (t.lp .kresia n).hb = some h ∧
      h.node ∈ t.ks.aliveTold ∧
      t.told .kresia = s.told .kresia ++ [0x900F]) ∧
  (∀ (s : State) (p : Part) (n : Nat) (h : Heartbeat), s.up p n = true → (s.lp p n).hbLost = true → (p = .baxel ∨ (h.node < 2 ^ 20 && h.singleDomain && !((s.lp p n).hb.any fun old => old.singleDomain)) = false) → (p = .baxel ∨ (h.node < 2 ^ 20 && s.isFenced h.node && !s.ks.aliveTold.contains h.node) = false) → s.canTell p = true → ∃ t, exec (.heartbeatRx p n h) s = .next t ∧ (t.lp p n).hbLost = false ∧
      (t.lp p n).hb = some h ∧
      t.told p = s.told p ++ [0x9010]) ∧
  (∀ (s : State) (p : Part) (n : Nat) (h : Heartbeat), s.up p n = false → exec (.heartbeatRx p n h) s = .next (s)) ∧
  (∀ (s : State) (p : Part) (n : Nat), s.up p n = true → (s.lp p n).hbLost = false → s.elapsed p (match (s.lp p n).hbLast with | some r => some r | none => (s.lp p n).svcStart) (msGrains 5) = true → s.canTell p = true → ∃ t, exec (.heartbeatLost p n) s = .next t ∧ (t.lp p n).hbLost = true ∧
      t.told p = s.told p ++ [0x9002] ∧
      t.up p n = true) ∧
  (∀ (s : State) (p : Part) (n : Nat), (s.up p n = false ∨ (s.lp p n).hbLost = true ∨ s.elapsed p (match (s.lp p n).hbLast with | some r => some r | none => (s.lp p n).svcStart) (msGrains 5) = false) → exec (.heartbeatLost p n) s = .next (s)) ∧
  (∀ (s : State) (n : Nat) (r : BxReport) (c : Caps), (s.lp .kresia n).peer = some c → s.isFenced c.node = true → exec (.baxelReportRx n r) s = .next (s.count (evK 0x1B0004))) ∧
  (∀ (s : State) (n : Nat) (r : BxReport) (c : Caps), (s.lp .kresia n).peer = some c → s.isFenced c.node = false → s.ks.events.length < 4096 → ∃ t, exec (.baxelReportRx n r) s = .next t ∧ t.told .kresia = s.told .kresia ++ [r.code] ∧
      t.ks.events.getLast?.map (fun e => (e.fromBaxel, e.reporter, e.subject, e.port)) = some (true, c.node, r.subject, r.port) ∧
      t.out.length = s.out.length + 1) ∧
  (∀ (s : State) (n : Nat) (r : BxReport), (s.lp .kresia n).peer = none → s.isFenced r.subject = false → s.ks.events.length < 4096 → ∃ t, exec (.baxelReportRx n r) s = .next t ∧ t.told .kresia = s.told .kresia ++ [r.code] ∧
      t.ks.events.getLast?.map (fun e => (e.fromBaxel, e.reporter, e.subject, e.port)) = some (true, r.subject, r.subject, r.port) ∧
      t.out.length = s.out.length + 1) ∧
  (∀ (s : State), s.elapsed .kresia s.ks.lastAlive (msGrains 100) = true → exec (.ksAliveTimer) s = .next (((s.modKs fun k => { k with lastAlive := some (s.raw .kresia) }).report .kresia 0x9014))) ∧
  (∀ (s : State), s.elapsed .kresia s.ks.lastAlive (msGrains 100) = false → exec (.ksAliveTimer) s = .next (s)) ∧
  (∀ (s : State), s.elapsed .kresia s.ks.lastResend (msGrains 100) = true → ∃ t, exec (.eventResendTimer) s = .next t ∧ t.ks.events = s.ks.events ∧
      t.ks.lastResend = some (s.raw .kresia) ∧
      t.out = (s.ks.events.reverse.map fun r => .send .kresia .mgmt (.event r)) ++ s.out) ∧
  (∀ (s : State), s.elapsed .kresia s.ks.lastResend (msGrains 100) = false → exec (.eventResendTimer) s = .next (s))

/-- A newer fence notice is kept, counted and flooded once; a copied chunk commits; the throttle level moves one step (R315, R316, R317, R323, R340, R437). -/
def Obligations.FencesCopiesAndThrottling : Prop :=
  (∀ (s : State) (n : FenceNotice), s.fenceNewer n = false → exec (.fenceNoticeRx n) s = .next (s)) ∧
  (∀ (s : State) (n : FenceNotice), s.fenceNewer n = true → n.subject < 2 ^ 20 → s.ks.doms = [] → ∃ t, exec (.fenceNoticeRx n) s = .next t ∧ t.rd .kresia 0x1B0008 = s.rd .kresia 0x1B0008 + 1 ∧
      FMap.find? t.ks.fences n.subject = some (n.fenceSeq, !n.clear) ∧
      s.ks.c.link.ports = t.ks.c.link.ports ∧
      t.out = .send .kresia .flood (.fence n) :: s.out) ∧
  (∀ (s : State) (n : FenceNotice), s.fenceNewer n = true → 2 ^ 20 ≤ n.subject → n.clear = true → ((s.upPorts .kresia).any fun q => (s.lp .kresia q).peer.any fun c => c.node = n.subject) = false → exec (.fenceNoticeRx n) s = .next ((((s.modKs fun k => { k with fences := FMap.set k.fences n.subject (n.fenceSeq, false), aliveTold := k.aliveTold.filter (· ≠ n.subject) }).count (evK 0x1B0008)).emit (.send .kresia .flood (.fence n))))) ∧
  (∀ (s : State) (n : FenceNotice), s.fenceNewer n = true → n.subject < 2 ^ 20 → ∃ t, exec (.fenceNoticeRx n) s = .next t ∧ FMap.find? t.ks.fences n.subject = some (n.fenceSeq, !n.clear) ∧
      .send .kresia .flood (.fence n) ∈ t.out) ∧
  (∀ (s : State) (n : FenceNotice), s.fenceNewer n = true → 2 ^ 20 ≤ n.subject → n.clear = true → ((s.upPorts .kresia).any fun q => (s.lp .kresia q).peer.any fun c => c.node = n.subject) = true → ∃ t, exec (.fenceNoticeRx n) s = .next t ∧ FMap.find? t.ks.fences n.subject = some (n.fenceSeq, false) ∧
      .send .kresia .flood (.fence n) ∈ t.out) ∧
  (∀ (s : State) (n : FenceNotice), s.fenceNewer n = true → 2 ^ 20 ≤ n.subject → n.clear = false → exec (.fenceNoticeRx n) s = .next (((((s.modKs fun k => { k with fences := FMap.set k.fences n.subject (n.fenceSeq, true), aliveTold := k.aliveTold.filter (· ≠ n.subject) }).count (evK 0x1B0008)).emit (.send .kresia .flood (.fence n))).cutPeer n.subject).dspLeafGone n.subject)) ∧
  (∀ (s : State) (n : FenceNotice) (d : Nat) (x : Domain), s.fenceNewer n = true → n.subject < 2 ^ 20 → s.ks.doms = [(d, x)] → exec (.fenceNoticeRx n) s = .next ((if n.clear then ((((s.modKs fun k => { k with fences := FMap.set k.fences n.subject (n.fenceSeq, !n.clear), aliveTold := k.aliveTold.filter (· ≠ n.subject) }).count (evK 0x1B0008)).emit (.send .kresia .flood (.fence n))).unfenceDomain d n.subject) else ((((s.modKs fun k => { k with fences := FMap.set k.fences n.subject (n.fenceSeq, !n.clear), aliveTold := k.aliveTold.filter (· ≠ n.subject) }).count (evK 0x1B0008)).emit (.send .kresia .flood (.fence n))).fenceDomain d n.subject)))) ∧
  (∀ (s : State) (d c k : Nat), ((s.shard (shardKey d c false false)).fillTarget = none ∨ k ∉ (s.shard (shardKey d c false false)).fillAcked) → exec (.remirrorChunkCommit d c k) s = .next (s)) ∧
  (∀ (s : State) (d c k : Nat) (x : Nat), (s.shard (shardKey d c false false)).fillTarget = some x → k ∈ (s.shard (shardKey d c false false)).fillAcked → (∀ i ∈ (s.shard (shardKey d c false false)).fillLeft, i = k) → s.canTell .kresia = true → ∃ t, exec (.remirrorChunkCommit d c k) s = .next t ∧ (t.shard (shardKey d c false false)).fillLeft = [] ∧
      (t.shard (shardKey d c false false)).fillDone = (s.shard (shardKey d c false false)).fillDone ++ [k] ∧
      (t.shard (shardKey d c false false)).single = false ∧
      t.told .kresia = s.told .kresia ++ [0x900E]) ∧
  (∀ (s : State) (d c k : Nat) (x j : Nat), (s.shard (shardKey d c false false)).fillTarget = some x → k ∈ (s.shard (shardKey d c false false)).fillAcked → j ∈ (s.shard (shardKey d c false false)).fillLeft → j ≠ k → exec (.remirrorChunkCommit d c k) s = .next (((s.modShard (shardKey d c false false) fun h => { h with fillAcked := h.fillAcked.filter (· ≠ k), fillLeft := (s.shard (shardKey d c false false)).fillLeft.filter (· ≠ k), fillDone := h.fillDone ++ [k] }).pumpFill d c))) ∧
  (∀ (s : State), s.fld .kresia 0x1C001C 0 2 < 2 → s.elapsed .kresia s.ks.lastThrottle (msGrains 10) = true → s.canTell .kresia = true → ∃ t, exec (.throttleLevelChange true) s = .next t ∧ t.fld .kresia 0x1C001C 0 2 = s.fld .kresia 0x1C001C 0 2 + 1 ∧
      t.rd .kresia 0x1C0018 = s.rd .kresia 0x1C0018 + 1 ∧
      t.told .kresia = s.told .kresia ++ [0x0010] ∧
      t.ks.lastThrottle = some (s.raw .kresia)) ∧
  (∀ (s : State), 0 < s.fld .kresia 0x1C001C 0 2 → s.elapsed .kresia s.ks.lastThrottle (msGrains 10) = true → s.canTell .kresia = true → ∃ t, exec (.throttleLevelChange false) s = .next t ∧ t.fld .kresia 0x1C001C 0 2 + 1 = s.fld .kresia 0x1C001C 0 2 ∧
      t.rd .kresia 0x1C0018 = s.rd .kresia 0x1C0018 + 1 ∧
      t.told .kresia = s.told .kresia ++ [0x0010] ∧
      t.ks.lastThrottle = some (s.raw .kresia)) ∧
  (∀ (s : State) (u : Bool), (s.fld .kresia 0x1C001C 0 2 = if u then 2 else 0) → exec (.throttleLevelChange u) s = .next (s)) ∧
  (∀ (s : State) (u : Bool), s.elapsed .kresia s.ks.lastThrottle (msGrains 10) = false → exec (.throttleLevelChange u) s = .next (s))

/-- The crown adds partials, completes a record late after 1 s as incomplete, and compares shard digests of the partners (R344, R348, R349, R350, R351). -/
def Obligations.CuppingAtTheCrown : Prop :=
  (∀ (s : State) (m : CupPartial), (s.dom m.domain).isCrown = false → exec (.cupPartialRx m) s = .next (s)) ∧
  (∀ (s : State) (m : CupPartial) (r : CupRec), (s.dom m.domain).isCrown = true → ((s.dom m.domain).cupOpen.find? fun r => r.step = m.step) = some r → m.epoch < r.epoch → exec (.cupPartialRx m) s = .next (s)) ∧
  (∀ (s : State) (m : CupPartial), (s.dom m.domain).isCrown = true → ((s.dom m.domain).cupOpen.find? fun r => r.step = m.step) = none → 1 < ((s.dom m.domain).kresia s.ks.build).length → ∃ t, exec (.cupPartialRx m) s = .next t ∧ ((t.dom m.domain).cupOpen.find? fun r => r.step = m.step).map (fun r => (r.epoch, r.reported, r.varied)) = some (m.epoch, [m.node], m.varied) ∧
      t.out = s.out) ∧
  (∀ (s : State) (m : CupPartial), (s.dom m.domain).isCrown = true → exec (.cupPartialRx m) s = .next (s.takePartial m)) ∧
  (∀ (s : State) (d step : Nat) (r : CupRec), ((s.dom d).cupOpen.find? fun r => r.step = step) = some r → (s.dom d).isCrown = true → (s.dom d).cupped step = true → r.sealedOt ≠ none → s.elapsed .kresia (some r.sealedRaw) (msGrains 1000) = true → exec (.cupIncompleteTimeout d step) s = .next (((s.report .kresia 0x9024 [step] (domain := some d)).storeCup d { r with incomplete := true, expected := ((s.dom d).kresia s.ks.build).length }))) ∧
  (∀ (s : State) (d step : Nat) (r : CupRec), ((s.dom d).cupOpen.find? fun r => r.step = step) = some r → ((s.dom d).isCrown = false ∨ (s.dom d).cupped step = false ∨ r.sealedOt = none ∨ s.elapsed .kresia (some r.sealedRaw) (msGrains 1000) = false) → exec (.cupIncompleteTimeout d step) s = .next (s)) ∧
  (∀ (s : State) (d step : Nat), ((s.dom d).cupOpen.find? fun r => r.step = step) = none → exec (.cupIncompleteTimeout d step) s = .next (s)) ∧
  (∀ (s : State) (m : ShardDigests) (q : CupCheck), s.ks.cupChecks = [q] → q.domain = m.domain → q.coll = m.coll → m.node ∈ q.waiting → (∃ n ∈ q.waiting, n ≠ m.node) → q.differ.length < (q.take m).differ.length → s.canTell .kresia = true → ∃ t, exec (.cupShardDigestsRx m) s = .next t ∧ t.ks.cupChecks = [q.take m] ∧
      t.told .kresia = s.told .kresia ++ [0x9023]) ∧
  (∀ (s : State) (m : ShardDigests), (s.ks.cupChecks.find? fun q => q.domain = m.domain && q.coll = m.coll && q.waiting.contains m.node) = none → exec (.cupShardDigestsRx m) s = .next (s)) ∧
  (∀ (s : State) (m : ShardDigests) (q : CupCheck) (tk : Taken), s.ks.cupChecks = [q] → q.domain = m.domain → q.coll = m.coll → q.waiting = [m.node] → (s.mslot .kresia q.mailbox q.mslot).taken = some tk → ∃ t, exec (.cupShardDigestsRx m) s = .next t ∧ t.answered .kresia q.mailbox q.mslot tk 0 (q.take m).result ∧
      t.ks.cupChecks = []) ∧
  (∀ (s : State) (m : ShardDigests) (q : CupCheck), s.ks.cupChecks = [q] → q.domain = m.domain → q.coll = m.coll → m.node ∈ q.waiting → (∃ n ∈ q.waiting, n ≠ m.node) → (q.take m).differ.length = q.differ.length → exec (.cupShardDigestsRx m) s = .next ((s.modKs fun k => { k with cupChecks := [q.take m] })))

/-- A counter or histogram configuration is stored or refused with its code; LATCH copies values, CLEAR zeroes them (R356, R357, R358, R359, R360, R369, R370). -/
def Obligations.CountersConfiguredLatchedCleared : Prop :=
  (∀ (s : State) (p : Part) (v : View) (a : Nat) (w : Word) (k off i j : Nat), ctrBankAt p v a = some (k, off) → cfgWordAt p k off = some (true, i, j) → (k = 0 ∨ tenantEvent (Ctr.written p (decide (k ≠ 0)) (FMap.getD (s.bank p k).ctrs i {}) j w).event = true) → ((Ctr.written p (decide (k ≠ 0)) (FMap.getD (s.bank p k).ctrs i {}) j w).portEn = false ∨ (Ctr.written p (decide (k ≠ 0)) (FMap.getD (s.bank p k).ctrs i {}) j w).port < s.portsOf p) → (ctrCode p (Ctr.written p (decide (k ≠ 0)) (FMap.getD (s.bank p k).ctrs i {}) j w).event (Ctr.written p (decide (k ≠ 0)) (FMap.getD (s.bank p k).ctrs i {}) j w).mode (Ctr.written p (decide (k ≠ 0)) (FMap.getD (s.bank p k).ctrs i {}) j w).portEn (Ctr.written p (decide (k ≠ 0)) (FMap.getD (s.bank p k).ctrs i {}) j w).domEn (Ctr.written p (decide (k ≠ 0)) (FMap.getD (s.bank p k).ctrs i {}) j w).clsEn (if 2 ≤ (Ctr.written p (decide (k ≠ 0)) (FMap.getD (s.bank p k).ctrs i {}) j w).mode then (Ctr.written p (decide (k ≠ 0)) (FMap.getD (s.bank p k).ctrs i {}) j w).thresh else 0) = none) → ∃ t, exec (.ctrCfgWrite p v a w) s = .next t ∧ (t.bank p k).ctrs = FMap.set (s.bank p k).ctrs i (Ctr.written p (decide (k ≠ 0)) (FMap.getD (s.bank p k).ctrs i {}) j w) ∧
      (t.bank p k).hists = (s.bank p k).hists ∧
      (t.bank p k).lastCode = (s.bank p k).lastCode ∧
      t.out = s.out) ∧
  (∀ (s : State) (p : Part) (v : View) (a : Nat) (w : Word) (k off i j : Nat), ctrBankAt p v a = some (k, off) → cfgWordAt p k off = some (true, i, j) → k ≠ 0 → tenantEvent (Ctr.written p (decide (k ≠ 0)) (FMap.getD (s.bank p k).ctrs i {}) j w).event = false → exec (.ctrCfgWrite p v a w) s = .next (s.bankCode p k 0x2041)) ∧
  (∀ (s : State) (p : Part) (v : View) (a : Nat) (w : Word) (k off i j : Nat), ctrBankAt p v a = some (k, off) → cfgWordAt p k off = some (true, i, j) → (k = 0 ∨ tenantEvent (Ctr.written p (decide (k ≠ 0)) (FMap.getD (s.bank p k).ctrs i {}) j w).event = true) → (Ctr.written p (decide (k ≠ 0)) (FMap.getD (s.bank p k).ctrs i {}) j w).portEn = true → s.portsOf p ≤ (Ctr.written p (decide (k ≠ 0)) (FMap.getD (s.bank p k).ctrs i {}) j w).port → exec (.ctrCfgWrite p v a w) s = .next (s.bankCode p k 0x2040)) ∧
  (∀ (s : State) (p : Part) (v : View) (a : Nat) (w : Word) (k off : Nat), ctrBankAt p v a = some (k, off) → cfgWordAt p k off = none → exec (.ctrCfgWrite p v a w) s = .next (s)) ∧
  (∀ (s : State) (p : Part) (v : View) (a : Nat) (w : Word) (k off i j : Nat) (x y z : Bool), ctrBankAt p v a = some (k, off) → cfgWordAt p k off = some (false, i, j) → latency p (Hist.written p (FMap.getD (s.bank p k).hists i {}) j w).event = some (x, y, z) → (((Hist.written p (FMap.getD (s.bank p k).hists i {}) j w).portEn = true ∧ (x = false ∨ s.portsOf p ≤ (Hist.written p (FMap.getD (s.bank p k).hists i {}) j w).port)) ∨ ((Hist.written p (FMap.getD (s.bank p k).hists i {}) j w).domEn = true ∧ y = false) ∨ ((Hist.written p (FMap.getD (s.bank p k).hists i {}) j w).clsEn = true ∧ z = false)) → exec (.ctrCfgWrite p v a w) s = .next (s.bankCode p k 0x2040)) ∧
  (∀ (s : State) (p : Part) (v : View) (a : Nat) (w : Word) (k off i j : Nat) (c : Code), ctrBankAt p v a = some (k, off) → cfgWordAt p k off = some (true, i, j) → (k = 0 ∨ tenantEvent (Ctr.written p (decide (k ≠ 0)) (FMap.getD (s.bank p k).ctrs i {}) j w).event = true) → ((Ctr.written p (decide (k ≠ 0)) (FMap.getD (s.bank p k).ctrs i {}) j w).portEn = false ∨ (Ctr.written p (decide (k ≠ 0)) (FMap.getD (s.bank p k).ctrs i {}) j w).port < s.portsOf p) → (ctrCode p (Ctr.written p (decide (k ≠ 0)) (FMap.getD (s.bank p k).ctrs i {}) j w).event (Ctr.written p (decide (k ≠ 0)) (FMap.getD (s.bank p k).ctrs i {}) j w).mode (Ctr.written p (decide (k ≠ 0)) (FMap.getD (s.bank p k).ctrs i {}) j w).portEn (Ctr.written p (decide (k ≠ 0)) (FMap.getD (s.bank p k).ctrs i {}) j w).domEn (Ctr.written p (decide (k ≠ 0)) (FMap.getD (s.bank p k).ctrs i {}) j w).clsEn (if 2 ≤ (Ctr.written p (decide (k ≠ 0)) (FMap.getD (s.bank p k).ctrs i {}) j w).mode then (Ctr.written p (decide (k ≠ 0)) (FMap.getD (s.bank p k).ctrs i {}) j w).thresh else 0) = some c) → exec (.ctrCfgWrite p v a w) s = .next (s.bankCode p k c)) ∧
  (∀ (s : State) (p : Part) (v : View) (a : Nat) (w : Word) (k off i j : Nat), ctrBankAt p v a = some (k, off) → cfgWordAt p k off = some (false, i, j) → latency p (Hist.written p (FMap.getD (s.bank p k).hists i {}) j w).event = none → exec (.ctrCfgWrite p v a w) s = .next (s.bankCode p k 0x2040)) ∧
  (∀ (s : State) (p : Part) (v : View) (a : Nat) (w : Word) (k off i j : Nat) (x y z : Bool), ctrBankAt p v a = some (k, off) → cfgWordAt p k off = some (false, i, j) → latency p (Hist.written p (FMap.getD (s.bank p k).hists i {}) j w).event = some (x, y, z) → ((Hist.written p (FMap.getD (s.bank p k).hists i {}) j w).portEn = false ∨ x = true ∧ (Hist.written p (FMap.getD (s.bank p k).hists i {}) j w).port < s.portsOf p) → ((Hist.written p (FMap.getD (s.bank p k).hists i {}) j w).domEn = false ∨ y = true) → ((Hist.written p (FMap.getD (s.bank p k).hists i {}) j w).clsEn = false ∨ z = true) → exec (.ctrCfgWrite p v a w) s = .next (s.modBank p k fun b => { b with hists := FMap.set b.hists i (Hist.written p (FMap.getD (s.bank p k).hists i {}) j w) })) ∧
  (∀ (s : State) (p : Part) (v : View) (a : Nat) (w : Word) (k off : Nat), ctrBankAt p v a = some (k, off) → w.get 0 1 = 1 → w.get 1 1 = 0 → ∃ t, exec (.ctrLatch p v a w) s = .next t ∧ (t.bank p k).latched = some ((s.bank p k).ctrs.map (fun (i, c) => (i, c.value)), (s.bank p k).hists) ∧
      (t.bank p k).ctrs = (s.bank p k).ctrs ∧
      (t.bank p k).hists = (s.bank p k).hists ∧
      t.out = s.out) ∧
  (∀ (s : State) (p : Part) (v : View) (a : Nat) (w : Word), w.get 0 1 = 0 → exec (.ctrLatch p v a w) s = .next (s)) ∧
  (∀ (s : State) (p : Part) (v : View) (a : Nat) (w : Word) (k off : Nat), ctrBankAt p v a = some (k, off) → w.get 1 1 = 1 → w.get 0 1 = 0 → ∃ t, exec (.ctrClear p v a w) s = .next t ∧ (t.bank p k).ctrs = FMap.mapVals (s.bank p k).ctrs (fun _ c => { c with value := 0 }) ∧
      (t.bank p k).hists = FMap.mapVals (s.bank p k).hists (fun _ h => { h with samples := 0, maxNs := 0, sat := false, bins := [] }) ∧
      (t.bank p k).latched = (s.bank p k).latched ∧
      t.out = s.out) ∧
  (∀ (s : State) (p : Part) (v : View) (a : Nat) (w : Word) (k off : Nat), ctrBankAt p v a = some (k, off) → w.get 1 1 = 1 → w.get 0 1 = 1 → ∃ t, exec (.ctrClear p v a w) s = .next t ∧ (t.bank p k).ctrs = FMap.mapVals (s.bank p k).ctrs (fun _ c => { c with value := 0 }) ∧
      (t.bank p k).hists = FMap.mapVals (s.bank p k).hists (fun _ h => { h with samples := 0, maxNs := 0, sat := false, bins := [] }) ∧
      (t.bank p k).latched = some ((s.bank p k).ctrs.map (fun (i, c) => (i, c.value)), (s.bank p k).hists) ∧
      t.out = s.out) ∧
  (∀ (s : State) (p : Part) (v : View) (a : Nat) (w : Word), w.get 1 1 = 0 → exec (.ctrClear p v a w) s = .next (s)) ∧
  (∀ (s : State) (p : Part) (v : View) (a : Nat) (w : Word), ctrBankAt p v a = none → w.get 1 1 = 1 → exec (.ctrClear p v a w) s = .next (s.viewRefused p v a)) ∧
  (∀ (s : State) (p : Part) (v : View) (a : Nat) (w : Word), ctrBankAt p v a = none → w.get 0 1 = 1 → exec (.ctrCfgWrite p v a w) s = .next (s.viewRefused p v a) ∧
      exec (.ctrLatch p v a w) s = .next (s.viewRefused p v a))

/-- A SNAP is armed or captured once and stale ones counted; a capture leaves its arm; records retire in order; tags are set (R361, R362, R363, R364, R366, R368, R369, R370). -/
def Obligations.SnapshotsAndTags : Prop :=
  (∀ (s : State) (x : SnapMsg), s.tenantOf x.domain = none → exec (.snapRx .baxel x) s = .next (s.count (evB 0x0438))) ∧
  (∀ (s : State) (x : SnapMsg) (t : Nat), s.tenantOf x.domain = some t → x.epoch < (s.ten t).epoch → exec (.snapRx .baxel x) s = .next (s.count (evT t 0x110))) ∧
  (∀ (s : State) (x : SnapMsg), x.epoch < (s.dom x.domain).epoch → exec (.snapRx .kresia x) s = .next (s)) ∧
  (∀ (s : State) (x : SnapMsg) (g : Image), (s.dom x.domain).epoch ≤ x.epoch → (s.dom x.domain).imageFor x.step = some g → (x.domain, x.epoch, x.step, x.set) ∈ s.ks.c.ctr.snapSeen → exec (.snapRx .kresia x) s = .next (s)) ∧
  (∀ (s : State) (x : SnapMsg) (g : Image), (s.dom x.domain).epoch ≤ x.epoch → (s.dom x.domain).imageFor x.step = some g → (x.domain, x.epoch, x.step, x.set) ∉ s.ks.c.ctr.snapSeen → x.t.malformed = false → s.ks.c.time.state ≠ .unset → otDiff s.ks.c.time.now x.t < 0 → s.ks.c.time.dueCode x.t ≠ some 0x1001 → ∃ t, exec (.snapRx .kresia x) s = .next t ∧ t.ks.c.ctr.snapSeen = s.ks.c.ctr.snapSeen ++ [(x.domain, x.epoch, x.step, x.set)] ∧
      t.ks.c.ctr.snapArms.map (fun a => (a.domain, a.step, a.set, a.due.ot)) = s.ks.c.ctr.snapArms.map (fun a => (a.domain, a.step, a.set, a.due.ot)) ++ [(x.domain, x.step, x.set, x.t)] ∧
      t.ks.c.ctr.stores = s.ks.c.ctr.stores ∧
      t.out = s.out) ∧
  (∀ (s : State) (x : SnapMsg) (g : Image), (s.dom x.domain).epoch ≤ x.epoch → (s.dom x.domain).imageFor x.step = some g → (x.domain, x.epoch, x.step, x.set) ∉ s.ks.c.ctr.snapSeen → (x.t.malformed = true ∨ (s.ks.c.time.state ≠ .unset ∧ otDiff s.ks.c.time.now x.t < 0 ∧ s.ks.c.time.dueCode x.t = some 0x1001)) → exec (.snapRx .kresia x) s = .next (((s.modCtr .kresia fun c => { c with snapSeen := c.snapSeen ++ [(x.domain, x.epoch, x.step, x.set)] }).emit (.refused .kresia (if x.t.malformed then 0x1003 else 0x1001))))) ∧
  (∀ (s : State) (x : SnapMsg) (g : Image), (s.dom x.domain).epoch ≤ x.epoch → (s.dom x.domain).imageFor x.step = some g → (x.domain, x.epoch, x.step, x.set) ∉ s.ks.c.ctr.snapSeen → x.t.malformed = false → (s.ks.c.time.state = .unset ∨ 0 ≤ otDiff s.ks.c.time.now x.t) → exec (.snapRx .kresia x) s = .next (((s.modCtr .kresia fun c => { c with snapSeen := c.snapSeen ++ [(x.domain, x.epoch, x.step, x.set)] }).capture .kresia { domain := x.domain, epoch := x.epoch, step := x.step, set := x.set, due := s.ks.c.time.mkDue x.t, sels := selsOf g x.set .kresia, tenant := 0 } s.ks.c.time.raw true))) ∧
  (∀ (s : State) (x : SnapMsg) (n : Nat), s.tenantOf x.domain = some n → (s.ten n).epoch ≤ x.epoch → exec (.snapRx .baxel x) s = .next (s.takeSnap .baxel x (selsOf ((s.ten n).imageFor x.step) x.set .baxel) n)) ∧
  (∀ (s : State) (p : Part) (a : SnapArm), ((s.pc p).ctr.snapArms.find? fun a => 0 ≤ Raw.diff (s.raw p) (openEdge a.due)) = some a → exec (.snapCapture p) s = .next (((s.modCtr p fun u => { u with snapArms := u.snapArms.erase a }).capture p a (openEdge a.due) false))) ∧
  (∀ (s : State) (p : Part), ((s.pc p).ctr.snapArms.find? fun a => 0 ≤ Raw.diff (s.raw p) (openEdge a.due)) = none → exec (.snapCapture p) s = .next (s)) ∧
  (∀ (s : State) (p : Part) (v : View) (r : SnapRec) (l : List SnapRec), (s.snapStore p (s.snapStoreKey p v)).recs = r :: l → ∃ t, exec (.snapRetire p v (BitVec.ofNat 32 r.snapSeq)) s = .next t ∧ (t.snapStore p (s.snapStoreKey p v)).recs = l ∧
      (t.snapStore p (s.snapStoreKey p v)).mismatch = (s.snapStore p (s.snapStoreKey p v)).mismatch ∧
      t.out = s.out) ∧
  (∀ (s : State) (p : Part) (v : View) (seq : Word), (s.snapStore p (s.snapStoreKey p v)).recs.head?.map (fun r => BitVec.ofNat 32 r.snapSeq) ≠ some seq → ∃ t, exec (.snapRetire p v seq) s = .next t ∧ (t.snapStore p (s.snapStoreKey p v)).recs = (s.snapStore p (s.snapStoreKey p v)).recs ∧
      (t.snapStore p (s.snapStoreKey p v)).mismatch = true ∧
      t.out = s.out) ∧
  (∀ (s : State) (p : Part) (w : Word), rateOk p w = true → exec (.tagCfgWrite p (tagAddr p) w) s = .next (s.wr p (tagAddr p) (match p with | .baxel => w &&& (0x1F000004 : Word) | .kresia => w &&& (0x1F1F1F07 : Word)))) ∧
  (∀ (s : State) (p : Part) (w : Word), rateOk p w = false → exec (.tagCfgWrite p (tagAddr p) w) s = .next (s.bankCode p 0 0x2043)) ∧
  (∀ (s : State) (p : Part) (w : Word), exec (.tagCfgWrite p (tagAddr p + 4) w) s = .next (((s.wr p (tagAddr p + 4) w).modTags p fun u => { u with lfsr := w }))) ∧
  (∀ (s : State) (p : Part) (w : Word), exec (.tagCfgWrite p (tagAddr p + 8) w) s = .next (s.wr p (tagAddr p + 8) (BitVec.ofNat 32 (w.get 0 (match p with | .baxel => 8 | .kresia => 13))))) ∧
  (∀ (s : State) (p : Part) (n : Nat), exec (.tagPop p n) s = .next (s.modTags p fun u => { u with recs := u.recs.drop n }))

/-- Resets, straps, loss of REFCLK, power good or cooling, and failed stacks or dies each leave what their rule says (R405, R406, R423, R432, R434, R435, R438, R439, R441, R443). -/
def Obligations.ResetPowerAndClocks : Prop :=
  (∀ (s : State), exec (.resetAssert .baxel) s = .next ({ s with bx := { c := { fw := { inReset := true } } } })) ∧
  (∀ (s : State), exec (.resetAssert .kresia) s = .next ({ s with ks := { c := { fw := { inReset := true } }, strapFb := s.ks.strapFb, pins := fallbackPins s.ks.strapFb } })) ∧
  (∀ (s : State) (y : Straps), (s.resetEnds .baxel = true) → exec (.resetDeassert (.baxel y)) s = .next ((((s.modFw .baxel fun w => { w with inReset := false }).modBx fun b => { b with straps := y }).declare .baxel y.txLat y.rxLat).driveSteer)) ∧
  (∀ (s : State) (y : KsStraps), (s.resetEnds .kresia = true) → y.clockCause = 0 → ∃ t, exec (.resetDeassert (.kresia y)) s = .next t ∧ t.ks.c.fw.inReset = false ∧
      t.ks.c.fw.busy = true ∧
      t.ks.strapFb = y.strapFb ∧
      t.ks.pcieEn = y.pcieEn ∧
      t.rd .kresia 0x4 = BitVec.ofNat 32 (y.node % 2 ^ 17 + y.node / 2 ^ 7 % 8 * 2 ^ 17) ∧
      t.ks.mem = s.ks.mem ∧
      t.ks.pins = fallbackPins y.strapFb ∧
      t.out = .ksPins (fallbackPins y.strapFb) :: s.out) ∧
  (∀ (s : State) (y : KsStraps), (s.resetEnds .kresia = true) → y.clockCause ≠ 0 → ∃ t, exec (.resetDeassert (.kresia y)) s = .next t ∧ t.ks.c.fw.inReset = true ∧
      t.ks.c.fw.busy = s.ks.c.fw.busy ∧
      t.fld .kresia 0xC 0 16 = 0xA005 ∧
      t.fld .kresia 0xC 18 2 = y.clockCause % 4) ∧
  (∀ (s : State) (x : BootStraps), s.resetEnds .baxel = false → s.resetEnds .kresia = false → exec (.resetDeassert x) s = .next (s)) ∧
  (∀ (s : State), (s.bx.refclkLost = true ∨ s.bx.c.fw.inReset = true) → exec (.refclkLost) s = .next (s)) ∧
  (∀ (s : State), s.bx.refclkLost = false → s.bx.c.fw.inReset = false → ∃ t, exec (.refclkLost) s = .next t ∧ t.bx.refclkLost = true ∧
      t.ks = s.ks ∧
      t.out.filter (fun o => match o with | .send .. => true | _ => false) = s.out.filter (fun o => match o with | .send .. => true | _ => false)) ∧
  (∀ (s : State), exec (.pwrGoodDrop) s = .next ({ s with ks := { c := { fw := { inReset := true } }, strapFb := s.ks.strapFb, pins := fallbackPins s.ks.strapFb } })) ∧
  (∀ (s : State) (inlet : Int) (flow : Nat), s.elapsed .kresia s.ks.lastCoolant (msGrains 100) = false → exec (.coolantCheck inlet flow) s = .next (s)) ∧
  (∀ (s : State) (inlet : Int) (flow : Nat), s.elapsed .kresia s.ks.lastCoolant (msGrains 100) = true → inlet ≤ 40000 → 2000 ≤ flow → exec (.coolantCheck inlet flow) s = .next (s.modKs fun k => { k with lastCoolant := some (s.raw .kresia), coolantSince := none, coolantTold := false })) ∧
  (∀ (s : State) (inlet : Int) (flow : Nat), s.elapsed .kresia s.ks.lastCoolant (msGrains 100) = true → (40000 < inlet ∨ flow < 2000) → s.ks.coolantSince = none → ∃ t, exec (.coolantCheck inlet flow) s = .next t ∧ t.ks.coolantSince = some (s.raw .kresia) ∧
      t.ks.lastCoolant = some (s.raw .kresia) ∧
      t.told .kresia = s.told .kresia ∧
      t.ks.coolantTold = s.ks.coolantTold) ∧
  (∀ (s : State) (inlet : Int) (flow : Nat) (r : Raw), s.elapsed .kresia s.ks.lastCoolant (msGrains 100) = true → (40000 < inlet ∨ flow < 2000) → s.ks.coolantSince = some r → msGrains 1000 ≤ Raw.diff (s.raw .kresia) r → s.ks.coolantTold = false → s.canTell .kresia = true → ∃ t, exec (.coolantCheck inlet flow) s = .next t ∧ t.ks.coolantTold = true ∧
      t.ks.coolantSince = some r ∧
      t.ks.lastCoolant = some (s.raw .kresia) ∧
      t.told .kresia = s.told .kresia ++ [0xB00C]) ∧
  (∀ (s : State) (inlet : Int) (flow : Nat) (r : Raw), s.elapsed .kresia s.ks.lastCoolant (msGrains 100) = true → (40000 < inlet ∨ flow < 2000) → s.ks.coolantSince = some r → (Raw.diff (s.raw .kresia) r < msGrains 1000 ∨ s.ks.coolantTold = true) → ∃ t, exec (.coolantCheck inlet flow) s = .next t ∧ t.told .kresia = s.told .kresia ∧
      t.ks.coolantSince = some r ∧
      t.ks.lastCoolant = some (s.raw .kresia)) ∧
  (∀ (s : State), s.ks.tripped = true → exec (.thermalTrip) s = .next (s)) ∧
  (∀ (s : State), s.ks.tripped = false → s.livePorts .kresia = [] → s.canTell .kresia = true → ∃ t, exec (.thermalTrip) s = .next t ∧ t.ks.tripped = true ∧
      t.told .kresia = s.told .kresia ++ [0xB00A] ∧
      t.ks.c.link = s.ks.c.link ∧
      t.ks.doms = s.ks.doms) ∧
  (∀ (s : State), s.ks.tripped = false → ∃ t, exec (.thermalTrip) s = .next t ∧ t.ks.tripped = true) ∧
  (∀ (s : State) (stack : Nat) (training : Bool), 32 ≤ stack → exec (.memUncorrectable stack training) s = .next (s)) ∧
  (∀ (s : State) (stack : Nat), stack < 32 → s.canTell .kresia = true → ∃ t, exec (.memUncorrectable stack true) s = .next t ∧ t.ks.memFailed = true ∧
      t.told .kresia = s.told .kresia ++ [0xB00B]) ∧
  (∀ (s : State) (stack : Nat), stack < 32 → ((FMap.getD s.ks.memErrors stack []).filter fun r => Raw.diff (s.raw .kresia) r ≤ msGrains 3600000).length = 16 → s.canTell .kresia = true → ∃ t, exec (.memUncorrectable stack false) s = .next t ∧ t.ks.memFailed = true ∧
      t.told .kresia = s.told .kresia ++ [0xB00B] ∧
      (FMap.getD t.ks.memErrors stack []).length = 17) ∧
  (∀ (s : State) (stack : Nat), stack < 32 → ((FMap.getD s.ks.memErrors stack []).filter fun r => Raw.diff (s.raw .kresia) r ≤ msGrains 3600000).length < 16 → ∃ t, exec (.memUncorrectable stack false) s = .next t ∧ t.ks.memFailed = s.ks.memFailed ∧
      t.told .kresia = s.told .kresia ∧
      FMap.getD t.ks.memErrors stack [] = ((FMap.getD s.ks.memErrors stack []).filter fun r => Raw.diff (s.raw .kresia) r ≤ msGrains 3600000) ++ [s.raw .kresia]) ∧
  (∀ (s : State) (brim : Nat), (4 ≤ brim ∨ s.ks.brimFailed.contains brim = true) → exec (.brimFailed brim) s = .next (s)) ∧
  (∀ (s : State) (brim : Nat), brim < 4 → s.ks.brimFailed.contains brim = false → s.livePorts .kresia = [] → s.canTell .kresia = true → ∃ t, exec (.brimFailed brim) s = .next t ∧ t.ks.memFailed = true ∧
      t.ks.brimFailed = s.ks.brimFailed ++ [brim] ∧
      t.told .kresia = s.told .kresia ++ [0xB00D] ∧
      t.ks.c.link = s.ks.c.link)

/-- BOOT_GO reads the image, verification starts it or names the fault, firmware then serves, and an expiry restarts it (R2, R3, R48, R372, R373, R374, R375, R422). -/
def Obligations.BootAndWatchdog : Prop :=
  (∀ (s : State) (v : View) (w : Word), v ≠ .priv → v ≠ .core → exec (.bootGo v w) s = .next (s.viewRefused .baxel v 0x18)) ∧
  (∀ (s : State) (v : View) (w : Word), (v = .priv ∨ v = .core) → (w.get 0 1 = 0 ∨ s.bx.c.fw.busy = true ∨ s.bx.c.fw.serving = true ∨ s.bx.c.fw.inReset = true) → exec (.bootGo v w) s = .next (s)) ∧
  (∀ (s : State) (v : View) (w : Word), (v = .priv ∨ v = .core) → w.get 0 1 = 1 → s.bx.c.fw.busy = false → s.bx.c.fw.serving = false → s.bx.c.fw.inReset = false → exec (.bootGo v w) s = .next ((((s.setBit .baxel 0x18 1 true).modFw .baxel fun w => { w with busy := true, bootBytes := none }).coreRead (s.rd64 .baxel 0x10).toNat 256 (.boot false)))) ∧
  (∀ (s : State) (bs : List Byte), s.bx.c.fw.busy = true → s.bx.c.fw.bootBytes = some bs → ∃ t, exec (.bootVerifyDone .baxel) s = .next t ∧ t.bx.c.fw.busy = false ∧
      t.bx.c.fw.bootBytes = none ∧
      t.bit .baxel 0x18 1 = false ∧
      t.fld .baxel 0x1C 0 16 = (match imageCode 0 bs with | none => 0 | some c => c.toNat) ∧
      t.bx.c.fw.image = (match imageCode 0 bs with | none => some (wordAt bs 8, false) | some _ => s.bx.c.fw.image) ∧
      t.out = s.out) ∧
  (∀ (s : State), (s.bx.c.fw.busy = false ∨ s.bx.c.fw.bootBytes = none) → exec (.bootVerifyDone .baxel) s = .next (s)) ∧
  (∀ (s : State) (a b : List Byte) (x : ImageConfig), s.ks.c.fw.busy = true → s.ks.c.fw.inReset = false → ∃ t, exec (.bootVerifyDone (.kresia a b x)) s = .next t ∧ t.ks.c.fw.busy = false ∧
      (t.ks.c.fw.image = (if imageCode 1 a = none then some (wordAt a 8, false) else if imageCode 1 b = none then some (wordAt b 8, true) else s.ks.c.fw.image)) ∧
      (imageCode 1 a ≠ none → imageCode 1 b ≠ none → t.fld .kresia 0xC 0 16 = 0xA003) ∧
      t.ks.doms = s.ks.doms ∧
      t.out = s.out) ∧
  (∀ (s : State) (a b : List Byte) (x : ImageConfig), (s.ks.c.fw.busy = false ∨ s.ks.c.fw.inReset = true) → exec (.bootVerifyDone (.kresia a b x)) s = .next (s)) ∧
  (∀ (s : State) (p : Part), ((s.pc p).fw.image = none ∨ (s.pc p).fw.serving = true ∨ (s.pc p).fw.inReset = true) → exec (.fwReady p) s = .next (s)) ∧
  (∀ (s : State) (p : Part) (ver : Word) (b : Bool), (s.pc p).fw.image = some (ver, b) → (s.pc p).fw.serving = false → (s.pc p).fw.inReset = false → (s.pc p).fw.heldBells = [] → ∃ t, exec (.fwReady p) s = .next t ∧ (t.pc p).fw.serving = true ∧
      t.rd p 8 = ver ∧
      t.fld p 0 0 8 = 3) ∧
  (∀ (s : State) (p : Part) (ver : Word) (b : Bool) (m k : Nat), (s.pc p).fw.image = some (ver, b) → (s.pc p).fw.serving = false → (s.pc p).fw.inReset = false → (s.pc p).fw.heldBells = [(m, k)] → ∃ t, exec (.fwReady p) s = .next t ∧ (t.pc p).fw.serving = true ∧
      (t.pc p).fw.heldBells = []) ∧
  (∀ (s : State) (p : Part), (s.pc p).fw.serving = false → exec (.watchdogExpiry p) s = .next (s)) ∧
  (∀ (s : State) (p : Part), (s.pc p).fw.serving = true → s.inFlight p = [] → s.canTell p = true → ∃ t, exec (.watchdogExpiry p) s = .next t ∧ (t.pc p).fw.serving = false ∧
      t.bit p (statusAddr p) 2 = true ∧
      t.told p = s.told p ++ [0xA004] ∧
      t.ks.fences = s.ks.fences ∧
      t.bx.tenants = s.bx.tenants ∧
      (t.pc p).fw.image = (s.pc p).fw.image)

/-- A doorbell captures and locks a free slot, a locked one refuses; a retire frees a slot under its SEQ; datagrams do the same (R3, R376, R380, R382, R386, R387, R388, R395). -/
def Obligations.MailboxesRingAndRetire : Prop :=
  (∀ (s : State) (p : Part) (v : View) (m : Nat) (w : Word), (s.pc p).fw.inReset = true → exec (.mboxDoorbell p v m w) s = .next (s)) ∧
  (∀ (s : State) (p : Part) (v : View) (m : Nat) (w : Word), (s.pc p).fw.inReset = false → ringsMbox p v m = false → exec (.mboxDoorbell p v m w) s = .next (s.mboxRefused p v (mbAddr p m 0))) ∧
  (∀ (s : State) (p : Part) (v : View) (m : Nat) (w : Word), (s.pc p).fw.inReset = false → ringsMbox p v m = true → (s.mslot p m (w.get 0 4)).locked = true → exec (.mboxDoorbell p v m w) s = .next (((s.setBit p (mbAddr p m 8) 18 true).wr p (mbAddr p m 0x10) 0xA105))) ∧
  (∀ (s : State) (p : Part) (v : View) (m : Nat) (w : Word), (s.pc p).fw.inReset = false → ringsMbox p v m = true → (s.mslot p m (w.get 0 4)).locked = false → (s.pc p).fw.serving = false → ∃ t, exec (.mboxDoorbell p v m w) s = .next t ∧ (t.mslot p m (w.get 0 4)).locked = true ∧
      (t.mslot p m (w.get 0 4)).taken.map (·.bytes) = some (s.mslot p m (w.get 0 4)).slot64 ∧
      (t.pc p).fw.heldBells = (s.pc p).fw.heldBells ++ [(m, w.get 0 4)] ∧
      (t.pc p).fw.order = (s.pc p).fw.order + 1 ∧
      t.out = s.out) ∧
  (∀ (s : State) (p : Part) (v : View) (m : Nat) (w : Word), (s.pc p).fw.inReset = false → ringsMbox p v m = true → (s.mslot p m (w.get 0 4)).locked = false → (s.pc p).fw.serving = true → ∃ t, exec (.mboxDoorbell p v m w) s = .next t ∧ (t.mslot p m (w.get 0 4)).locked = true ∧
      (t.pc p).fw.heldBells = (s.pc p).fw.heldBells ∧
      (t.pc p).fw.order = (s.pc p).fw.order + 1) ∧
  (∀ (s : State) (p : Part) (v : View) (m : Nat) (w : Word), ringsMbox p v m = false → exec (.mboxRetire p v m w) s = .next (s.mboxRefused p v (mbAddr p m 4))) ∧
  (∀ (s : State) (p : Part) (v : View) (m : Nat) (w : Word), ringsMbox p v m = true → (s.mslot p m (w.get 0 4)).comp.ready = true → (s.mslot p m (w.get 0 4)).comp.seq = w.get 16 16 → ∃ t, exec (.mboxRetire p v m w) s = .next t ∧ (t.mslot p m (w.get 0 4)).locked = false ∧
      (t.mslot p m (w.get 0 4)).comp.ready = false ∧
      (t.mslot p m (w.get 0 4)).lastRetired = some (w.get 16 16) ∧
      (t.mslot p m (w.get 0 4)).comp.status = (s.mslot p m (w.get 0 4)).comp.status ∧
      t.out = s.out) ∧
  (∀ (s : State) (p : Part) (v : View) (m : Nat) (w : Word), ringsMbox p v m = true → (s.mslot p m (w.get 0 4)).comp.ready = false → (s.mslot p m (w.get 0 4)).comp.seq = w.get 16 16 → exec (.mboxRetire p v m w) s = .next (s)) ∧
  (∀ (s : State) (p : Part) (v : View) (m : Nat) (w : Word), ringsMbox p v m = true → (s.mslot p m (w.get 0 4)).comp.seq ≠ w.get 16 16 → exec (.mboxRetire p v m w) s = .next (s.setBit p (mbAddr p m 8) 17 true)) ∧
  (∀ (s : State) (x : Datagram), s.takesDatagram x 1 = false → exec (.mboxDatagramRx x) s = .next (s.count (evK 0x1C))) ∧
  (∀ (s : State) (x : Datagram), s.takesDatagram x 1 = true → (s.mslot .kresia (le x.payload 6 1) (le x.payload 7 1)).locked = false → (s.mslot .kresia (le x.payload 6 1) (le x.payload 7 1)).lastRetired = some (le ((x.payload.drop 16).take 64) 2 2) → exec (.mboxDatagramRx x) s = .next (s.answerTransient x.port (le x.payload 6 1) (le x.payload 7 1) ((x.payload.drop 16).take 64) 0xA106)) ∧
  (∀ (s : State) (x : Datagram), s.takesDatagram x 1 = true → (s.mslot .kresia (le x.payload 6 1) (le x.payload 7 1)).locked = false → (s.mslot .kresia (le x.payload 6 1) (le x.payload 7 1)).lastRetired ≠ some (le ((x.payload.drop 16).take 64) 2 2) → exec (.mboxDatagramRx x) s = .next (((s.modMslot .kresia (le x.payload 6 1) (le x.payload 7 1) fun z => { z with bytes := ((x.payload.drop 16).take 64) }).ring .kresia (le x.payload 6 1) (le x.payload 7 1) ((x.payload.drop 16).take 64) (x.payload.drop 80) [x.port]))) ∧
  (∀ (s : State) (x : Datagram), s.takesDatagram x 1 = true → (s.mslot .kresia (le x.payload 6 1) (le x.payload 7 1)).locked = true → (s.mslot .kresia (le x.payload 6 1) (le x.payload 7 1)).slot64 ≠ ((x.payload.drop 16).take 64) → exec (.mboxDatagramRx x) s = .next (s.answerTransient x.port (le x.payload 6 1) (le x.payload 7 1) ((x.payload.drop 16).take 64) 0xA105)) ∧
  (∀ (s : State) (x : Datagram) (tk : Taken), s.takesDatagram x 1 = true → (s.mslot .kresia (le x.payload 6 1) (le x.payload 7 1)).locked = true → (s.mslot .kresia (le x.payload 6 1) (le x.payload 7 1)).slot64 = ((x.payload.drop 16).take 64) → (s.mslot .kresia (le x.payload 6 1) (le x.payload 7 1)).taken = some tk → tk.inline = x.payload.drop 80 → exec (.mboxDatagramRx x) s = .next (((s.modMslot .kresia (le x.payload 6 1) (le x.payload 7 1) fun z => { z with taken := some { tk with ports := if tk.ports.contains x.port then tk.ports else tk.ports ++ [x.port] } }).count (evK 0x20)))) ∧
  (∀ (s : State) (x : Datagram) (tk : Taken), s.takesDatagram x 1 = true → (s.mslot .kresia (le x.payload 6 1) (le x.payload 7 1)).locked = true → (s.mslot .kresia (le x.payload 6 1) (le x.payload 7 1)).slot64 = ((x.payload.drop 16).take 64) → (s.mslot .kresia (le x.payload 6 1) (le x.payload 7 1)).taken = some tk → tk.inline ≠ x.payload.drop 80 → exec (.mboxDatagramRx x) s = .next (s.answerTransient x.port (le x.payload 6 1) (le x.payload 7 1) ((x.payload.drop 16).take 64) 0xA105)) ∧
  (∀ (s : State) (x : Datagram), s.takesDatagram x 1 = true → (s.mslot .kresia (le x.payload 6 1) (le x.payload 7 1)).locked = true → (s.mslot .kresia (le x.payload 6 1) (le x.payload 7 1)).slot64 = ((x.payload.drop 16).take 64) → (s.mslot .kresia (le x.payload 6 1) (le x.payload 7 1)).taken = none → exec (.mboxDatagramRx x) s = .next (((s.count (evK 0x20)).emit (.completion x.port (le x.payload 6 1) (le x.payload 7 1) (s.mslot .kresia (le x.payload 6 1) (le x.payload 7 1)).comp false)))) ∧
  (∀ (s : State) (x : Datagram), s.takesDatagram x 3 = false → exec (.retireDatagramRx x) s = .next (s.count (evK 0x1C))) ∧
  (∀ (s : State) (x : Datagram), s.takesDatagram x 3 = true → exec (.retireDatagramRx x) s = .next (((s.retire .kresia (le x.payload 6 1) (le x.payload 7 1) (le x.payload 16 2)).emit (.retireAck x.port (le x.payload 6 1) (le x.payload 7 1) (le x.payload 16 2)))))

/-- A register write is performed for a view that may write, refused for one that may not, and nothing in reset (R371, R374, R380, R394, R395, R396, R397, R398). -/
def Obligations.RegisterWritesByView : Prop :=
  (∀ (s : State) (v : View) (a : Nat) (w : Word), s.bx.c.fw.inReset = true → exec (.registerWrite .baxel v a w) s = .next (s)) ∧
  (∀ (s : State) (v : View) (a : Nat) (w : Word), s.ks.c.fw.inReset = true → exec (.registerWrite .kresia v a w) s = .next (s)) ∧
  (∀ (s : State) (u a : Nat) (w : Word), s.bx.c.fw.inReset = false → a % 4 = 0 → s.tenantReaches u a = false → (a < 0x6000 ∨ 0x6400 ≤ a) → exec (.registerWrite .baxel (.tenant u) a w) s = .next (((s.setBit .baxel 0x20 1 true).setFld .baxel 0x24 0 16 a))) ∧
  (∀ (s : State) (a : Nat) (w : Word), s.bx.c.fw.inReset = false → exec (.registerWrite .baxel .badTag a w) s = .next (s.setBit .baxel 0x20 0 true)) ∧
  (∀ (s : State) (a : Nat) (w : Word), s.bx.c.fw.inReset = false → (a = 0x10 ∨ a = 0x14) → ∃ t, exec (.registerWrite .baxel .priv a w) s = .next t ∧ t.rd .baxel a = w ∧
      (∀ b, b ≠ a → t.rd .baxel b = s.rd .baxel b) ∧
      t.ks = s.ks ∧
      t.out = s.out) ∧
  (∀ (s : State) (w : Word), s.bx.c.fw.inReset = false → exec (.registerWrite .baxel .priv 0x20 w) s = .next (s.wr .baxel 0x20 (s.rd .baxel 0x20 &&& ~~~(w &&& 7)))) ∧
  (∀ (s : State) (v : View) (a : Nat) (w : Word), s.ks.c.fw.inReset = false → a % 4 = 0 → ksMapped a = false → exec (.registerWrite .kresia v a w) s = .next (((s.setBit .kresia 0x10 0 true).setFld .kresia 0x14 0 24 a))) ∧
  (∀ (s : State) (v : View) (a : Nat) (w : Word), s.ks.c.fw.inReset = false → a ≤ 0xF → exec (.registerWrite .kresia v a w) s = .next (s)) ∧
  (∀ (s : State) (m : Nat) (w : Word), s.ks.c.fw.inReset = false → m < 64 → exec (.registerWrite .kresia .priv (mbAddr .kresia m 0) w) s = exec (.mboxDoorbell .kresia .priv m w) s ∧
      exec (.registerWrite .kresia .priv (mbAddr .kresia m 4) w) s = exec (.mboxRetire .kresia .priv m w) s)

/-- mbox.hello, bind, unbind, reg.read, reg.write and the stage commands complete with their effect or their refusal (R371, R377, R390, R391, R396, R400). -/
def Obligations.MailboxRegisterAndStageCommands : Prop :=
  (∀ (s : State) (p : Part) (m k : Nat) (tk : Taken), s.ready p m k 0x0001 tk → exec (.mboxHello p m k) s = .next ((s.begun p m k).complete p m k 0 (leBytes 4 (s.fld p 0 0 8) ++ leBytes 4 (s.rd p 8).toNat ++ leBytes 4 (s.rd p 0).toNat))) ∧
  (∀ (s : State) (m k : Nat) (tk : Taken), s.ready .kresia m k 0x0002 tk → 64 ≤ tk.f 8 1 → exec (.mboxBind .kresia m k) s = .next ((s.begun .kresia m k).complete .kresia m k 0xA103)) ∧
  (∀ (s : State) (m k : Nat) (tk : Taken), s.ready .kresia m k 0x0002 tk → tk.f 8 1 < 64 → (tk.f 8 1 < 4 ∨ ((s.begun .kresia m k).mbox .kresia (tk.f 8 1)).bound.isSome = true ∨ (s.dom (tk.f 10 2)).positions = []) → exec (.mboxBind .kresia m k) s = .next ((s.begun .kresia m k).complete .kresia m k 0xA10B)) ∧
  (∀ (s : State) (m k : Nat) (tk : Taken), s.ready .kresia m k 0x0002 tk → 4 ≤ tk.f 8 1 → tk.f 8 1 < 64 → ((s.begun .kresia m k).mbox .kresia (tk.f 8 1)).bound = none → (s.dom (tk.f 10 2)).positions ≠ [] → exec (.mboxBind .kresia m k) s = .next (((s.begun .kresia m k).modMbox .kresia (tk.f 8 1) fun x => { x with bound := some (tk.f 10 2, tk.f 16 16, tk.f 32 2) }).complete .kresia m k 0)) ∧
  (∀ (s : State) (m k : Nat) (tk : Taken), s.ready .kresia m k 0x0003 tk → 64 ≤ tk.f 8 1 → exec (.mboxUnbind .kresia m k) s = .next ((s.begun .kresia m k).complete .kresia m k 0xA103)) ∧
  (∀ (s : State) (m k : Nat) (tk : Taken), s.ready .kresia m k 0x0003 tk → tk.f 8 1 < 64 → (tk.f 8 1 < 4 ∨ ((s.begun .kresia m k).mbox .kresia (tk.f 8 1)).bound = none ∨ (((s.begun .kresia m k).mbox .kresia (tk.f 8 1)).slots.any fun (_, x) => x.locked) = true) → exec (.mboxUnbind .kresia m k) s = .next ((s.begun .kresia m k).complete .kresia m k 0xA10B)) ∧
  (∀ (s : State) (m k : Nat) (tk : Taken), s.ready .kresia m k 0x0003 tk → 4 ≤ tk.f 8 1 → tk.f 8 1 < 64 → m < 4 → ((s.begun .kresia m k).mbox .kresia (tk.f 8 1)).bound.isSome = true → (((s.begun .kresia m k).mbox .kresia (tk.f 8 1)).slots.any fun (_, x) => x.locked) = false → ∃ t, exec (.mboxUnbind .kresia m k) s = .next t ∧ t.answered .kresia m k tk 0 [] ∧
      (t.mbox .kresia (tk.f 8 1)).bound = none ∧
      t.ks.c.fw.stages = s.ks.c.fw.stages.filter fun (_, x) => x.mailbox ≠ tk.f 8 1) ∧
  (∀ (s : State) (m k : Nat) (tk : Taken), s.ready .kresia m k 0x0010 tk → (tk.f 12 1 = 0 ∨ 12 < tk.f 12 1) → exec (.regRead .kresia m k) s = .next ((s.begun .kresia m k).complete .kresia m k 0xA103)) ∧
  (∀ (s : State) (m k : Nat) (tk : Taken), s.ready .kresia m k 0x0010 tk → 1 ≤ tk.f 12 1 → tk.f 12 1 ≤ 12 → ((List.range (tk.f 12 1)).any fun i => !ksMapped (tk.f 8 4 + 4 * i)) = true → exec (.regRead .kresia m k) s = .next ((s.begun .kresia m k).complete .kresia m k 0xA10E)) ∧
  (∀ (s : State) (m k : Nat) (tk : Taken), s.ready .kresia m k 0x0010 tk → 1 ≤ tk.f 12 1 → tk.f 12 1 ≤ 12 → ((List.range (tk.f 12 1)).any fun i => !ksMapped (tk.f 8 4 + 4 * i)) = false → exec (.regRead .kresia m k) s = .next (((s.begun .kresia m k).ksReads (tk.f 8 4) (tk.f 12 1)).2.complete .kresia m k 0 ((s.begun .kresia m k).ksReads (tk.f 8 4) (tk.f 12 1)).1)) ∧
  (∀ (s : State) (m k : Nat) (tk : Taken), s.ready .kresia m k 0x0011 tk → (tk.f 12 1 = 0 ∨ 12 < tk.f 12 1) → exec (.regWrite .kresia m k) s = .next ((s.begun .kresia m k).complete .kresia m k 0xA103)) ∧
  (∀ (s : State) (m k : Nat) (tk : Taken), s.ready .kresia m k 0x0011 tk → 1 ≤ tk.f 12 1 → tk.f 12 1 ≤ 12 → ((List.range (tk.f 12 1)).any fun i => !ksMapped (tk.f 8 4 + 4 * i)) = true → exec (.regWrite .kresia m k) s = .next ((s.begun .kresia m k).complete .kresia m k 0xA10E)) ∧
  (∀ (s : State) (m k : Nat) (tk : Taken), s.ready .kresia m k 0x0011 tk → tk.f 12 1 = 1 → ksMapped (tk.f 8 4) = true → exec (.regWrite .kresia m k) s = .next (((s.begun .kresia m k).regWrite .kresia .priv (tk.f 8 4) (BitVec.ofNat 32 (tk.f 16 4))).complete .kresia m k 0)) ∧
  (∀ (s : State) (m k : Nat) (tk : Taken), s.ready .kresia m k 0x0020 tk → (tk.f 8 4 < 64 ∨ 2 ^ 28 < tk.f 8 4 ∨ tk.f 8 4 % 64 ≠ 0) → exec (.stageAlloc .kresia m k) s = .next ((s.begun .kresia m k).complete .kresia m k 0xA103)) ∧
  (∀ (s : State) (m k : Nat) (tk : Taken), s.ready .kresia m k 0x0020 tk → 64 ≤ tk.f 8 4 → tk.f 8 4 ≤ 2 ^ 28 → tk.f 8 4 % 64 = 0 → s.ks.c.fw.stages.length < 2 ^ 32 → (s.ks.c.fw.stages.filter fun (_, x) => x.mailbox = m).length < 16 → s.stageUsed + tk.f 8 4 ≤ 2 ^ 30 → ∃ t, exec (.stageAlloc .kresia m k) s = .next t ∧ (∃ id, t.answered .kresia m k tk 0 (leBytes 4 id) ∧ FMap.find? s.ks.c.fw.stages id = none ∧ t.stageOf m id = some (List.replicate (tk.f 8 4) memDefault) ∧ (∀ j, j ≠ id → FMap.find? t.ks.c.fw.stages j = FMap.find? s.ks.c.fw.stages j)) ∧
      t.free = s.free + 1) ∧
  (∀ (s : State) (m k : Nat) (tk : Taken), s.ready .kresia m k 0x0020 tk → 64 ≤ tk.f 8 4 → tk.f 8 4 ≤ 2 ^ 28 → tk.f 8 4 % 64 = 0 → (16 ≤ (s.ks.c.fw.stages.filter fun (_, x) => x.mailbox = m).length ∨ 2 ^ 30 < s.stageUsed + tk.f 8 4) → exec (.stageAlloc .kresia m k) s = .next ((s.begun .kresia m k).complete .kresia m k 0xA108)) ∧
  (∀ (s : State) (m k : Nat) (tk : Taken), s.ready .kresia m k 0x0021 tk → s.stageOf m (tk.f 8 4) = none → exec (.stagePut .kresia m k) s = .next ((s.begun .kresia m k).complete .kresia m k 0xA109)) ∧
  (∀ (s : State) (m k : Nat) (tk : Taken) (area : List Byte), s.ready .kresia m k 0x0021 tk → s.stageOf m (tk.f 8 4) = some area → tk.f 12 4 % 64 ≠ 0 → exec (.stagePut .kresia m k) s = .next ((s.begun .kresia m k).complete .kresia m k 0xA103)) ∧
  (∀ (s : State) (m k : Nat) (tk : Taken) (area : List Byte) (bs : List Byte), s.ready .kresia m k 0x0021 tk → s.stageOf m (tk.f 8 4) = some area → tk.f 12 4 % 64 = 0 → (bs = if tk.ports.isEmpty then tk.inline.take (area.length - tk.f 12 4) else tk.inline) → area.length < tk.f 12 4 + bs.length → exec (.stagePut .kresia m k) s = .next ((s.begun .kresia m k).complete .kresia m k 0xA10A)) ∧
  (∀ (s : State) (m k : Nat) (tk : Taken) (area : List Byte) (bs : List Byte), s.ready .kresia m k 0x0021 tk → s.stageOf m (tk.f 8 4) = some area → tk.f 12 4 % 64 = 0 → (bs = if tk.ports.isEmpty then tk.inline.take (area.length - tk.f 12 4) else tk.inline) → tk.f 12 4 + bs.length ≤ area.length → ∃ t, exec (.stagePut .kresia m k) s = .next t ∧ t.answered .kresia m k tk 0 [] ∧
      t.stageOf m (tk.f 8 4) = some (area.take (tk.f 12 4) ++ bs ++ area.drop (tk.f 12 4 + bs.length)) ∧
      (∀ j, j ≠ tk.f 8 4 → FMap.find? t.ks.c.fw.stages j = FMap.find? s.ks.c.fw.stages j)) ∧
  (∀ (s : State) (m k : Nat) (tk : Taken), s.ready .kresia m k 0x0022 tk → s.stageOf m (tk.f 8 4) = none → exec (.stageGet .kresia m k) s = .next ((s.begun .kresia m k).complete .kresia m k 0xA109)) ∧
  (∀ (s : State) (m k : Nat) (tk : Taken) (area : List Byte), s.ready .kresia m k 0x0022 tk → s.stageOf m (tk.f 8 4) = some area → (tk.f 12 4 % 64 ≠ 0 ∨ tk.f 16 2 % 64 ≠ 0 ∨ 8192 < tk.f 16 2) → exec (.stageGet .kresia m k) s = .next ((s.begun .kresia m k).complete .kresia m k 0xA103)) ∧
  (∀ (s : State) (m k : Nat) (tk : Taken) (area : List Byte), s.ready .kresia m k 0x0022 tk → s.stageOf m (tk.f 8 4) = some area → tk.f 12 4 % 64 = 0 → tk.f 16 2 % 64 = 0 → tk.f 16 2 ≤ 8192 → exec (.stageGet .kresia m k) s = .next (if area.length < tk.f 12 4 + tk.f 16 2 then (s.begun .kresia m k).complete .kresia m k 0xA10A else (s.begun .kresia m k).complete .kresia m k 0 [] ((area.drop (tk.f 12 4)).take (tk.f 16 2)))) ∧
  (∀ (s : State) (m k : Nat) (tk : Taken), s.ready .kresia m k 0x0023 tk → s.stageOf m (tk.f 8 4) = none → exec (.stageFree .kresia m k) s = .next ((s.begun .kresia m k).complete .kresia m k 0xA109)) ∧
  (∀ (s : State) (m k : Nat) (tk : Taken) (area : List Byte), s.ready .kresia m k 0x0023 tk → s.stageOf m (tk.f 8 4) = some area → ∃ t, exec (.stageFree .kresia m k) s = .next t ∧ t.answered .kresia m k tk 0 [] ∧
      t.ks.c.fw.stages = FMap.erase s.ks.c.fw.stages (tk.f 8 4) ∧
      t.rd .kresia 0x24 = BitVec.ofNat 32 ((2 ^ 30 - t.stageUsed) / 1024))

/-- The time commands, member.admit and member.retire, and what a Baxel takes of admissions and bindings (R15, R16, R17, R45, R48, R56, R58, R62, R391, R392, R441). -/
def Obligations.TimeAndMemberCommands : Prop :=
  (∀ (s : State) (p : Part) (m k : Nat) (tk : Taken), s.ready p m k 0x0101 tk → exec (.timeRead p m k) s = .next ((s.begun p m k).complete p m k 0 (leBytes 8 (s.pc p).time.raw.toNat ++ otBytes (s.pc p).time.now ++ leBytes 1 (s.pc p).time.state.code ++ leBytes 1 (bitN (s.pc p).time.gmTraceable) ++ leBytes 2 (s.pc p).time.utcOffset.toNat))) ∧
  (∀ (s : State) (m k : Nat) (tk : Taken), s.ready .kresia m k 0x0102 tk → s.ks.c.time.crown.role ≠ 1 → exec (.timeFreeStart .kresia m k) s = .next ((s.begun .kresia m k).complete .kresia m k 0xA10C)) ∧
  (∀ (s : State) (m k : Nat) (tk : Taken), s.ready .kresia m k 0x0102 tk → s.ks.c.time.crown.role = 1 → (leOt tk.bytes 8).malformed = true → exec (.timeFreeStart .kresia m k) s = .next ((s.begun .kresia m k).complete .kresia m k 0x1003)) ∧
  (∀ (s : State) (m k : Nat) (tk : Taken), s.ready .kresia m k 0x0102 tk → s.ks.c.time.crown.role = 1 → (leOt tk.bytes 8).malformed = false → s.ks.c.time.crown.isRoot = false → s.ks.c.time.rateFreq.natAbs ≤ 34359738368 → ∃ t, exec (.timeFreeStart .kresia m k) s = .next t ∧ t.answered .kresia m k tk 0 [] ∧
      t.ks.c.time.crown.isRoot = true ∧
      t.ks.c.time.crown.freeStarted = true ∧
      t.ks.c.time.gmTraceable = false ∧
      t.ks.c.time.active = s.ks.c.time.active ∧
      t.ks.c.time.committed = some ⟨⟨leOt tk.bytes 8, s.raw .kresia + 1048576000, s.ks.c.time.rateFreq⟩, s.raw .kresia + 1048576000, some .acquiring⟩) ∧
  (∀ (s : State) (m k : Nat) (tk : Taken), s.ready .kresia m k 0x0103 tk → s.ks.c.time.crown.role ≠ 1 → exec (.timeRootResume .kresia m k) s = .next ((s.begun .kresia m k).complete .kresia m k 0xA10C)) ∧
  (∀ (s : State) (m k : Nat) (tk : Taken), s.ready .kresia m k 0x0103 tk → s.ks.c.time.crown.role = 1 → s.ks.c.time.crown.isRoot = true → exec (.timeRootResume .kresia m k) s = .next ((s.begun .kresia m k).complete .kresia m k 0x0000)) ∧
  (∀ (s : State) (m k : Nat) (tk : Taken), s.ready .kresia m k 0x0103 tk → s.ks.c.time.crown.role = 1 → s.ks.c.time.crown.isRoot = false → ∃ t, exec (.timeRootResume .kresia m k) s = .next t ∧ t.answered .kresia m k tk 0 [] ∧
      t.ks.c.time.crown.isRoot = true ∧
      t.ks.c.time.rootEpoch = (s.ks.c.time.rootEpoch + 1) % 256 ∧
      t.ks.c.time.rootPrio = 0 ∧
      t.ks.c.time.rootId = s.ksId ∧
      t.ks.c.time.depth = 0 ∧
      t.ks.c.time.parent = none ∧
      t.ks.c.time.active = s.ks.c.time.active ∧
      t.ks.c.time.committed = s.ks.c.time.committed) ∧
  (∀ (s : State) (m k : Nat) (tk : Taken), s.ready .kresia m k 0x0105 tk → ((List.range 4).all fun i => ((List.range 4).map fun j => tk.f (8 + j) 1).contains (i + 1)) = false → exec (.timeSourceOrder .kresia m k) s = .next ((s.begun .kresia m k).complete .kresia m k 0xA103)) ∧
  (∀ (s : State) (m k : Nat) (tk : Taken), s.ready .kresia m k 0x0105 tk → [tk.f 8 1, tk.f 9 1, tk.f 10 1, tk.f 11 1] = [2, 1, 3, 4] → [tk.f 12 1, tk.f 13 1, tk.f 14 1, tk.f 15 1] = [4, 3, 2, 1] → ∃ t, exec (.timeSourceOrder .kresia m k) s = .next t ∧ t.answered .kresia m k tk 0 [] ∧
      t.ks.c.time.crown.nextOrder = some ([.pps, .ptp, .none, .none], [.board, .ptpRate, .fref, .syncE]) ∧
      t.ks.c.time.crown.phaseOrder = s.ks.c.time.crown.phaseOrder ∧
      t.ks.c.time.active = s.ks.c.time.active) ∧
  (∀ (s : State) (m k : Nat) (tk : Taken) (a : List PhaseSource) (b : List FreqSource), s.ready .kresia m k 0x0105 tk → orderOf [PhaseSource.ptp, .pps, .none, .none] ((List.range 4).map fun i => tk.f (8 + i) 1) = some a → orderOf [FreqSource.syncE, .fref, .ptpRate, .board] ((List.range 4).map fun i => tk.f (12 + i) 1) = some b → ∃ t, exec (.timeSourceOrder .kresia m k) s = .next t ∧ t.answered .kresia m k tk 0 [] ∧
      t.ks.c.time.crown.nextOrder = some (a, b) ∧
      t.ks.c.time.crown.phaseOrder = s.ks.c.time.crown.phaseOrder ∧
      t.ks.c.time.active = s.ks.c.time.active) ∧
  (∀ (s : State) (m k : Nat) (tk : Taken), s.ready .kresia m k 0x0104 tk → (s.ks.c.time.crown.role = 0 ∨ s.ks.c.time.crown.siteRoot = true) → exec (.timeSwapCal .kresia m k) s = .next ((s.begun .kresia m k).complete .kresia m k 0xA10C)) ∧
  (∀ (s : State) (m k : Nat) (tk : Taken), s.ready .kresia m k 0x0104 tk → s.ks.c.time.crown.role ≠ 0 → s.ks.c.time.crown.siteRoot = false → 2 ≤ tk.f 9 1 → exec (.timeSwapCal .kresia m k) s = .next ((s.begun .kresia m k).complete .kresia m k 0xA103)) ∧
  (∀ (s : State) (m k : Nat) (tk : Taken), s.ready .kresia m k 0x0104 tk → s.ks.c.time.crown.role ≠ 0 → s.ks.c.time.crown.siteRoot = false → (s.pt .kresia (tk.f 8 1)).swapFits (tk.f 9 1) = true → (s.pt .kresia (tk.f 8 1)).swapPhase = some (tk.f 9 1) → (s.pt .kresia (tk.f 8 1)).swapCount ≠ 1024 → exec (.timeSwapCal .kresia m k) s = .next (s)) ∧
  (∀ (s : State) (m k : Nat) (tk : Taken), s.ready .kresia m k 0x0104 tk → s.ks.c.time.crown.role ≠ 0 → s.ks.c.time.crown.siteRoot = false → (s.pt .kresia (tk.f 8 1)).swapFits (tk.f 9 1) = true → (s.pt .kresia (tk.f 8 1)).swapPhase ≠ some (tk.f 9 1) → exec (.timeSwapCal .kresia m k) s = .next (s.swapStart (tk.f 8 1) (tk.f 9 1))) ∧
  (∀ (s : State) (m k : Nat) (tk : Taken), s.ready .kresia m k 0x0104 tk → s.ks.c.time.crown.role ≠ 0 → s.ks.c.time.crown.siteRoot = false → tk.f 9 1 = 1 → (s.pt .kresia (tk.f 8 1)).thetaA = none → exec (.timeSwapCal .kresia m k) s = .next ((s.begun .kresia m k).complete .kresia m k 0xA103)) ∧
  (∀ (s : State) (m k : Nat) (tk : Taken), s.ready .kresia m k 0x0104 tk → s.ks.c.time.crown.role ≠ 0 → s.ks.c.time.crown.siteRoot = false → tk.f 9 1 = 0 → (s.pt .kresia (tk.f 8 1)).swapPhase = some 0 → (s.pt .kresia (tk.f 8 1)).swapCount = 1024 → ∃ t, exec (.timeSwapCal .kresia m k) s = .next t ∧ t.answered .kresia m k tk 0 (leBytes 8 (BitVec.ofInt 64 (floorDiv (s.pt .kresia (tk.f 8 1)).swapSum 1024)).toNat ++ leBytes 4 (s.rd .kresia (ttPort .kresia (tk.f 8 1) 8)).toNat) ∧
      (t.pt .kresia (tk.f 8 1)).thetaA = some (floorDiv (s.pt .kresia (tk.f 8 1)).swapSum 1024) ∧
      (t.pt .kresia (tk.f 8 1)).swapCount = 0) ∧
  (∀ (s : State) (m k : Nat) (tk : Taken) (a : Int), s.ready .kresia m k 0x0104 tk → s.ks.c.time.crown.role ≠ 0 → s.ks.c.time.crown.siteRoot = false → tk.f 9 1 = 1 → (s.pt .kresia (tk.f 8 1)).swapPhase = some 1 → (s.pt .kresia (tk.f 8 1)).swapCount = 1024 → (s.pt .kresia (tk.f 8 1)).thetaA = some a → -65536 ≤ asymOf a (floorDiv (s.pt .kresia (tk.f 8 1)).swapSum 1024) → asymOf a (floorDiv (s.pt .kresia (tk.f 8 1)).swapSum 1024) ≤ 65536 → ∃ t, exec (.timeSwapCal .kresia m k) s = .next t ∧ t.rd .kresia (ttPort .kresia (tk.f 8 1) 8) = BitVec.ofInt 32 (asymOf a (floorDiv (s.pt .kresia (tk.f 8 1)).swapSum 1024)) ∧
      (t.mslot .kresia m k).taken = none ∧
      (t.mslot .kresia m k).comp.status = 0) ∧
  (∀ (s : State) (m k : Nat) (tk : Taken) (a : Int), s.ready .kresia m k 0x0104 tk → s.ks.c.time.crown.role ≠ 0 → s.ks.c.time.crown.siteRoot = false → tk.f 9 1 = 1 → (s.pt .kresia (tk.f 8 1)).swapPhase = some 1 → (s.pt .kresia (tk.f 8 1)).swapCount = 1024 → (s.pt .kresia (tk.f 8 1)).thetaA = some a → (asymOf a (floorDiv (s.pt .kresia (tk.f 8 1)).swapSum 1024) < -65536 ∨ 65536 < asymOf a (floorDiv (s.pt .kresia (tk.f 8 1)).swapSum 1024)) → ∃ t, exec (.timeSwapCal .kresia m k) s = .next t ∧ t.answered .kresia m k tk 0x100F [] ∧
      t.rd .kresia (ttPort .kresia (tk.f 8 1) 8) = s.rd .kresia (ttPort .kresia (tk.f 8 1) 8)) ∧
  (∀ (s : State) (m k : Nat) (tk : Taken), s.ready .kresia m k 0x0201 tk → s.isSpine = true → exec (.memberAdmit .kresia m k) s = .next ((s.begun .kresia m k).complete .kresia m k 0xA10C)) ∧
  (∀ (s : State) (m k : Nat) (tk : Taken), s.ready .kresia m k 0x0201 tk → s.isSpine = false → (2 ^ 20 ≤ tk.f 8 3 ∨ s.ks.build.dies ≤ tk.f 11 1) → exec (.memberAdmit .kresia m k) s = .next ((s.begun .kresia m k).complete .kresia m k 0xA103)) ∧
  (∀ (s : State) (m k : Nat) (tk : Taken), s.ready .kresia m k 0x0201 tk → s.isSpine = false → tk.f 8 3 < 2 ^ 20 → tk.f 11 1 < s.ks.build.dies → (s.ksReady = false ∨ (s.lp .kresia (tk.f 11 1)).hb = none) → exec (.memberAdmit .kresia m k) s = .next ((s.begun .kresia m k).complete .kresia m k 0x1010)) ∧
  (∀ (s : State) (m k : Nat) (tk : Taken) (b : Heartbeat), s.ready .kresia m k 0x0201 tk → s.isSpine = false → tk.f 8 3 < 2 ^ 20 → tk.f 11 1 < s.ks.build.dies → s.ksReady = true → (s.lp .kresia (tk.f 11 1)).hb = some b → exec (.memberAdmit .kresia m k) s = .next (if b.timeState ≠ 2 then (s.begun .kresia m k).complete .kresia m k 0x1010 else if b.singleDomain then (s.begun .kresia m k).complete .kresia m k 0x9001 else if b.node ≠ 0 ∧ b.node ≠ tk.f 8 3 then (s.begun .kresia m k).complete .kresia m k 0xA10F else (((s.begun .kresia m k).modKs fun z => { z with admitted := FMap.set z.admitted (tk.f 8 3) (tk.f 11 1) }).emit (.send .kresia (.port (tk.f 11 1)) (.admission (tk.f 8 3)))).complete .kresia m k 0)) ∧
  (∀ (s : State) (m k : Nat) (tk : Taken), s.ready .kresia m k 0x0202 tk → FMap.find? s.ks.admitted (tk.f 8 3) = none → exec (.memberRetire .kresia m k) s = .next ((s.begun .kresia m k).complete .kresia m k 0xA10C)) ∧
  (∀ (s : State) (m k : Nat) (tk : Taken) (port : Nat), s.ready .kresia m k 0x0202 tk → FMap.find? s.ks.admitted (tk.f 8 3) = some port → exec (.memberRetire .kresia m k) s = .next (if s.memberBound (tk.f 8 3) port then (s.begun .kresia m k).complete .kresia m k 0x2001 else (((s.begun .kresia m k).modKs fun z => { z with admitted := FMap.erase z.admitted (tk.f 8 3) }).emit (.send .kresia (.port port) (.retirement (tk.f 8 3)))).complete .kresia m k 0)) ∧
  (∀ (s : State) (port member : Nat), port < 8 → s.bit .baxel 4 31 = false → exec (.memberAdmissionRx port member false) s = .next (s.wr .baxel 4 (BitVec.ofNat 32 (2 ^ 31 + member % 2 ^ 20)))) ∧
  (∀ (s : State) (port member : Nat), (8 ≤ port ∨ s.bit .baxel 4 31 = true) → exec (.memberAdmissionRx port member false) s = .next (s)) ∧
  (∀ (s : State) (port : Nat), port < 8 → s.bit .baxel 4 31 = true → exec (.memberAdmissionRx port (s.node .baxel) true) s = .next (s.wr .baxel 4 0)) ∧
  (∀ (s : State) (port member : Nat), (8 ≤ port ∨ s.bit .baxel 4 31 = false ∨ member ≠ s.node .baxel) → exec (.memberAdmissionRx port member true) s = .next (s)) ∧
  (∀ (s : State) (x : Binding), x.member = s.node .baxel → s.bit .baxel 4 31 = true → x.tenant < 4 → x.bound = true → (s.ten x.tenant).domain = none → ∃ t, exec (.tenantBindingRx x) s = .next t ∧ (t.ten x.tenant).domain = some x.domain ∧
      (t.ten x.tenant).position = x.position ∧
      (t.ten x.tenant).faulted = (s.ten x.tenant).faulted ∧
      (t.ten x.tenant).prog = [] ∧
      (t.ten x.tenant).epoch = 0 ∧
      t.bx.slots = s.bx.slots ∧
      t.bx.objs = s.bx.objs ∧
      t.out = s.out) ∧
  (∀ (s : State) (x : Binding) (d : Nat), x.member = s.node .baxel → s.bit .baxel 4 31 = true → x.tenant < 4 → x.bound = true → (s.ten x.tenant).domain = some d → exec (.tenantBindingRx x) s = .next (s)) ∧
  (∀ (s : State) (x : Binding), x.member = s.node .baxel → s.bit .baxel 4 31 = true → x.tenant < 4 → x.bound = false → (s.ten x.tenant).domain = some x.domain → s.slotsOf x.tenant = [] → ∃ t, exec (.tenantBindingRx x) s = .next t ∧ (t.ten x.tenant).domain = none ∧
      (t.ten x.tenant).faulted = (s.ten x.tenant).faulted ∧
      t.bx.slots = s.bx.slots ∧
      t.bx.objs = s.bx.objs) ∧
  (∀ (s : State) (x : Binding), x.member = s.node .baxel → s.bit .baxel 4 31 = true → x.tenant < 4 → x.bound = false → (s.ten x.tenant).domain = some x.domain → ∃ t, exec (.tenantBindingRx x) s = .next t ∧ (t.ten x.tenant).domain = none ∧
      (t.ten x.tenant).faulted = (s.ten x.tenant).faulted ∧
      (t.ten x.tenant).prog = []) ∧
  (∀ (s : State) (x : Binding), x.member = s.node .baxel → s.bit .baxel 4 31 = true → x.tenant < 4 → x.bound = false → (s.ten x.tenant).domain ≠ some x.domain → exec (.tenantBindingRx x) s = .next (s)) ∧
  (∀ (s : State) (x : Binding), x.member ≠ s.node .baxel → (s.tenantOf x.domain = none ∨ x.bound = false) → exec (.tenantBindingRx x) s = .next (s)) ∧
  (∀ (s : State) (x : Binding) (u : Nat), x.member ≠ s.node .baxel → s.tenantOf x.domain = some u → x.bound = true → ∃ t, exec (.tenantBindingRx x) s = .next t ∧ (t.ten u).peers = (s.ten u).peers.set x.position (x.member, x.group) ∧
      ((t.ten u).v2Peers = if x.v2 then x.member :: (s.ten u).v2Peers else (s.ten u).v2Peers) ∧
      (t.ten u).domain = (s.ten u).domain ∧
      t.bx.slots = s.bx.slots ∧
      t.out = s.out)

/-- tenant.fault and recover, obj.op on cluster objects, fence.set and clear, member.suspect and evt.ack act or refuse as stated (R114, R115, R121, R126, R127, R132, R135, R312, R313, R315, R316, R317). -/
def Obligations.TenantObjectAndFaultCommands : Prop :=
  (∀ (s : State) (m k : Nat) (tk : Taken), s.ready .baxel m k 0x0206 tk → 4 ≤ tk.f 8 1 → exec (.tenantFault .baxel m k) s = .next ((s.begun .baxel m k).complete .baxel m k 0xA103)) ∧
  (∀ (s : State) (m k : Nat) (tk : Taken), s.ready .baxel m k 0x0206 tk → tk.f 8 1 < 4 → (s.ten (tk.f 8 1)).faulted = false → (s.ten (tk.f 8 1)).domain = none → ∃ t, exec (.tenantFault .baxel m k) s = .next t ∧ t.answered .baxel m k tk 0 [] ∧
      (t.ten (tk.f 8 1)).faulted = true ∧
      (∀ j, j ≠ tk.f 8 1 → t.ten j = s.ten j) ∧
      t.ks = s.ks) ∧
  (∀ (s : State) (m k : Nat) (tk : Taken), s.ready .baxel m k 0x0206 tk → tk.f 8 1 < 4 → ∃ t, exec (.tenantFault .baxel m k) s = .next t ∧ t.answered .baxel m k tk 0 [] ∧
      (t.ten (tk.f 8 1)).faulted = true) ∧
  (∀ (s : State) (m k : Nat) (tk : Taken), s.ready .baxel m k 0x0207 tk → 4 ≤ tk.f 8 1 → exec (.tenantRecover .baxel m k) s = .next ((s.begun .baxel m k).complete .baxel m k 0xA103)) ∧
  (∀ (s : State) (m k : Nat) (tk : Taken), s.ready .baxel m k 0x0207 tk → tk.f 8 1 < 4 → (s.ten (tk.f 8 1)).faulted = false → exec (.tenantRecover .baxel m k) s = .next ((s.begun .baxel m k).complete .baxel m k 0x2013)) ∧
  (∀ (s : State) (m k : Nat) (tk : Taken), s.ready .baxel m k 0x0207 tk → tk.f 8 1 < 4 → (s.ten (tk.f 8 1)).faulted = true → ∃ t, exec (.tenantRecover .baxel m k) s = .next t ∧ t.answered .baxel m k tk 0 [] ∧
      (t.ten (tk.f 8 1)).faulted = false ∧
      (t.bank .baxel (tk.f 8 1 + 1)).poison = false ∧
      (t.ten (tk.f 8 1)).epoch = (s.ten (tk.f 8 1)).epoch ∧
      (t.ten (tk.f 8 1)).hseq = (s.ten (tk.f 8 1)).hseq ∧
      (t.ten (tk.f 8 1)).seen = (s.ten (tk.f 8 1)).seen ∧
      ((s.slotsOf (tk.f 8 1)).all (fun q => if q.2.state = .void then decide ((t.slot (tk.f 8 1) q.1).state = .loaded) else true) = true)) ∧
  (∀ (s : State) (m k : Nat) (tk : Taken) (c : Code), s.ready .kresia m k 0x0301 tk → s.mailRefusal m tk = some c → exec (.objOp .kresia m k) s = .next ((s.begun .kresia m k).complete .kresia m k c)) ∧
  (∀ (s : State) (m k : Nat) (tk : Taken), s.ready .kresia m k 0x0301 tk → s.mailRefusal m tk = none → tk.f 10 1 = 0 → exec (.objOp .kresia m k) s = .next ((s.begun .kresia m k).complete .kresia m k (if (s.obj .kresia (tk.f 8 2)).poison then 0x3003 else 0) (leBytes 4 (s.obj .kresia (tk.f 8 2)).value))) ∧
  (∀ (s : State) (m k : Nat) (tk : Taken), s.ready .kresia m k 0x0301 tk → s.mailRefusal m tk = none → tk.f 10 1 = 1 → (s.obj .kresia (tk.f 8 2)).value + tk.f 12 4 ≤ objMax → (s.obj .kresia (tk.f 8 2)).waiters = [] → ∃ t, exec (.objOp .kresia m k) s = .next t ∧ t.answered .kresia m k tk 0 (leBytes 4 ((s.obj .kresia (tk.f 8 2)).value + tk.f 12 4)) ∧
      (t.obj .kresia (tk.f 8 2)).value = (s.obj .kresia (tk.f 8 2)).value + tk.f 12 4 ∧
      (t.obj .kresia (tk.f 8 2)).sigCount = (s.obj .kresia (tk.f 8 2)).sigCount + 1) ∧
  (∀ (s : State) (m k : Nat) (tk : Taken), s.ready .kresia m k 0x0301 tk → s.mailRefusal m tk = none → tk.f 10 1 = 1 → objMax < (s.obj .kresia (tk.f 8 2)).value + tk.f 12 4 → (s.obj .kresia (tk.f 8 2)).waiters = [] → ∃ t, exec (.objOp .kresia m k) s = .next t ∧ t.answered .kresia m k tk 0x3001 (leBytes 4 (s.obj .kresia (tk.f 8 2)).value) ∧
      (t.obj .kresia (tk.f 8 2)).value = (s.obj .kresia (tk.f 8 2)).value ∧
      (t.obj .kresia (tk.f 8 2)).poison = true) ∧
  (∀ (s : State) (m k : Nat) (tk : Taken), s.ready .kresia m k 0x0301 tk → s.mailRefusal m tk = none → tk.f 10 1 = 2 → (s.obj .kresia (tk.f 8 2)).waiters = [] → tk.f 12 4 ≤ (s.obj .kresia (tk.f 8 2)).value → ∃ t, exec (.objOp .kresia m k) s = .next t ∧ t.answered .kresia m k tk 0 (leBytes 4 ((s.obj .kresia (tk.f 8 2)).value - tk.f 12 4)) ∧
      (t.obj .kresia (tk.f 8 2)).value = (s.obj .kresia (tk.f 8 2)).value - tk.f 12 4 ∧
      (t.obj .kresia (tk.f 8 2)).waiters = []) ∧
  (∀ (s : State) (m k : Nat) (tk : Taken), s.ready .kresia m k 0x0301 tk → s.mailRefusal m tk = none → tk.f 10 1 = 2 → (s.obj .kresia (tk.f 8 2)).value < tk.f 12 4 → s.ksWaitRoom = true → ∃ t, exec (.objOp .kresia m k) s = .next t ∧ (t.obj .kresia (tk.f 8 2)).value = (s.obj .kresia (tk.f 8 2)).value ∧
      (t.obj .kresia (tk.f 8 2)).waiters.length = (s.obj .kresia (tk.f 8 2)).waiters.length + 1 ∧
      (t.mslot .kresia m k).taken = some { tk with started := true } ∧
      t.out = s.out) ∧
  (∀ (s : State) (m k : Nat) (tk : Taken), s.ready .kresia m k 0x0301 tk → s.mailRefusal m tk = none → tk.f 10 1 = 2 → (s.obj .kresia (tk.f 8 2)).value < tk.f 12 4 → s.ksWaitRoom = false → exec (.objOp .kresia m k) s = .next ((s.begun .kresia m k).complete .kresia m k 0x3008 (leBytes 4 (s.obj .kresia (tk.f 8 2)).value))) ∧
  (∀ (s : State) (m k : Nat) (tk : Taken), s.ready .kresia m k 0x0301 tk → s.mailRefusal m tk = none → tk.f 10 1 = 3 → tk.f 12 4 ≤ (s.obj .kresia (tk.f 8 2)).value → ∃ t, exec (.objOp .kresia m k) s = .next t ∧ t.answered .kresia m k tk 0 (leBytes 4 ((s.obj .kresia (tk.f 8 2)).value - tk.f 12 4)) ∧
      (t.obj .kresia (tk.f 8 2)).value = (s.obj .kresia (tk.f 8 2)).value - tk.f 12 4 ∧
      (t.obj .kresia (tk.f 8 2)).waiters = (s.obj .kresia (tk.f 8 2)).waiters) ∧
  (∀ (s : State) (m k : Nat) (tk : Taken), s.ready .kresia m k 0x0301 tk → s.mailRefusal m tk = none → tk.f 10 1 = 4 → (s.obj .kresia (tk.f 8 2)).waiters = [] → ∃ t, exec (.objOp .kresia m k) s = .next t ∧ t.answered .kresia m k tk 0 (leBytes 4 (tk.f 12 4)) ∧
      (t.obj .kresia (tk.f 8 2)).value = tk.f 12 4 ∧
      (t.obj .kresia (tk.f 8 2)).poison = false) ∧
  (∀ (s : State) (m k : Nat) (tk : Taken) (ow : Nat) (w : Waiter) (l : List (Nat × Waiter)), s.ready .kresia m k 0x0301 tk → s.mailRefusal m tk = none → tk.f 10 1 = 5 → s.mailTakes m (tk.f 16 2) = (ow, w) :: l → exec (.objOp .kresia m k) s = .next (((s.begun .kresia m k).withdraw .kresia ow w 0x300B).complete .kresia m k 0 (leBytes 4 (((s.begun .kresia m k).withdraw .kresia ow w 0x300B).obj .kresia (tk.f 8 2)).value))) ∧
  (∀ (s : State) (m k : Nat) (tk : Taken), s.ready .kresia m k 0x0301 tk → s.mailRefusal m tk = none → tk.f 10 1 = 5 → s.mailTakes m (tk.f 16 2) = [] → exec (.objOp .kresia m k) s = .next ((s.begun .kresia m k).complete .kresia m k 0x300B (leBytes 4 (s.obj .kresia (tk.f 8 2)).value))) ∧
  (∀ (s : State) (m k : Nat) (tk : Taken), s.ready .kresia m k 0x0901 tk → 2 ^ 20 + 2 ^ 17 ≤ tk.f 8 3 → exec (.fenceSet .kresia m k) s = .next ((s.begun .kresia m k).complete .kresia m k 0xA103)) ∧
  (∀ (s : State) (m k : Nat) (tk : Taken), s.ready .kresia m k 0x0901 tk → tk.f 8 3 < 2 ^ 20 + 2 ^ 17 → s.fenceNewer (⟨false, tk.f 8 3, tk.f 12 4⟩ : FenceNotice) = false → exec (.fenceSet .kresia m k) s = .next ((s.begun .kresia m k).complete .kresia m k 0x9004)) ∧
  (∀ (s : State) (m k : Nat) (tk : Taken), s.ready .kresia m k 0x0901 tk → tk.f 8 3 < 2 ^ 20 → s.fenceNewer (⟨false, tk.f 8 3, tk.f 12 4⟩ : FenceNotice) = true → s.ks.doms = [] → ∃ t, exec (.fenceSet .kresia m k) s = .next t ∧ FMap.find? t.ks.fences (tk.f 8 3) = some (tk.f 12 4, true) ∧
      (t.mslot .kresia m k).taken = none ∧
      (t.mslot .kresia m k).comp.status = 0 ∧
      .send .kresia .flood (.fence (⟨false, tk.f 8 3, tk.f 12 4⟩ : FenceNotice)) ∈ t.out) ∧
  (∀ (s : State) (m k : Nat) (tk : Taken), s.ready .kresia m k 0x0901 tk → tk.f 8 3 < 2 ^ 20 + 2 ^ 17 → s.fenceNewer (⟨false, tk.f 8 3, tk.f 12 4⟩ : FenceNotice) = true → ∃ t, exec (.fenceSet .kresia m k) s = .next t ∧ FMap.find? t.ks.fences (tk.f 8 3) = some (tk.f 12 4, true) ∧
      .send .kresia .flood (.fence (⟨false, tk.f 8 3, tk.f 12 4⟩ : FenceNotice)) ∈ t.out) ∧
  (∀ (s : State) (m k : Nat) (tk : Taken), s.ready .kresia m k 0x0902 tk → 2 ^ 20 + 2 ^ 17 ≤ tk.f 8 3 → exec (.fenceClear .kresia m k) s = .next ((s.begun .kresia m k).complete .kresia m k 0xA103)) ∧
  (∀ (s : State) (m k : Nat) (tk : Taken), s.ready .kresia m k 0x0902 tk → tk.f 8 3 < 2 ^ 20 + 2 ^ 17 → s.fenceNewer (⟨true, tk.f 8 3, tk.f 12 4⟩ : FenceNotice) = false → exec (.fenceClear .kresia m k) s = .next ((s.begun .kresia m k).complete .kresia m k 0x9004)) ∧
  (∀ (s : State) (m k : Nat) (tk : Taken), s.ready .kresia m k 0x0902 tk → tk.f 8 3 < 2 ^ 20 → s.fenceNewer (⟨true, tk.f 8 3, tk.f 12 4⟩ : FenceNotice) = true → s.ks.doms = [] → ∃ t, exec (.fenceClear .kresia m k) s = .next t ∧ FMap.find? t.ks.fences (tk.f 8 3) = some (tk.f 12 4, false) ∧
      (t.mslot .kresia m k).taken = none ∧
      (t.mslot .kresia m k).comp.status = 0 ∧
      .send .kresia .flood (.fence (⟨true, tk.f 8 3, tk.f 12 4⟩ : FenceNotice)) ∈ t.out) ∧
  (∀ (s : State) (m k : Nat) (tk : Taken), s.ready .kresia m k 0x0902 tk → tk.f 8 3 < 2 ^ 20 + 2 ^ 17 → s.fenceNewer (⟨true, tk.f 8 3, tk.f 12 4⟩ : FenceNotice) = true → ∃ t, exec (.fenceClear .kresia m k) s = .next t ∧ FMap.find? t.ks.fences (tk.f 8 3) = some (tk.f 12 4, false) ∧
      .send .kresia .flood (.fence (⟨true, tk.f 8 3, tk.f 12 4⟩ : FenceNotice)) ∈ t.out) ∧
  (∀ (s : State) (p : Part) (m k : Nat) (tk : Taken), s.ready p m k 0x090A tk → 2 ^ 20 ≤ tk.f 8 3 → exec (.memberSuspect p m k) s = .next ((s.begun p m k).complete p m k 0xA103)) ∧
  (∀ (s : State) (p : Part) (m k : Nat) (tk : Taken), s.ready p m k 0x090A tk → tk.f 8 3 < 2 ^ 20 → s.canTell p = true → ∃ t, exec (.memberSuspect p m k) s = .next t ∧ t.answered p m k tk 0 [] ∧
      t.told p = s.told p ++ [0x900F]) ∧
  (∀ (s : State) (m k : Nat) (tk : Taken), s.ready .kresia m k 0x090B tk → exec (.evtAck .kresia m k) s = .next (((if 0 < (BitVec.ofNat 32 (tk.f 8 4) - s.rd .kresia 0x1B0024).toInt then (s.begun .kresia m k).wr .kresia 0x1B0024 (BitVec.ofNat 32 (tk.f 8 4)) else (s.begun .kresia m k)).modKs fun z => { z with events := z.events.filter fun r => 0 < (BitVec.ofNat 32 r.evtSeq - BitVec.ofNat 32 (tk.f 8 4)).toInt }).complete .kresia m k 0))

/-- The commands on domains act at the crown, in the state each needs, and are refused or sent elsewhere otherwise (R17, R18, R20, R100, R107, R202, R328, R329, R392). -/
def Obligations.DomainCommands : Prop :=
  (∀ (s : State) (m k : Nat) (tk : Taken) (q : Nat × Instr) (b : Bool) (f : SpareFacts) (lf : LoadFacts), q ∈ [(0x0204, Instr.domainDestroy .kresia m k), (0x0205, .tenantUnbind .kresia m k), (0x0401, .progLoad .kresia m k lf), (0x0402, .progReplace .kresia m k lf), (0x0403, .progCancel .kresia m k), (0x0404, .progUnload .kresia m k), (0x0405, .bellChange .kresia m k), (0x0503, .scalarSet .kresia m k), (0x0905, .homeMove .kresia m k b), (0x0906, .spareBind .kresia m k f), (0x0908, .domainRelease .kresia m k), (0x0909, .domainRollback .kresia m k b), (0x0A01, .cupConfig .kresia m k), (0x0A03, .cupRetire .kresia m k)] → s.ready .kresia m k q.1 tk → (s.dom tk.domain).isCrown = false → exec q.2 s = .next ((s.begun .kresia m k).complete .kresia m k 0xA10C (if (s.dom tk.domain).positions.isEmpty then [] else leBytes 3 (2 ^ 20 + (s.dom tk.domain).crown)))) ∧
  (∀ (s : State) (m k : Nat) (tk : Taken) (v2 : List Nat) (el : List (Nat × Nat)), s.ready .kresia m k 0x0203 tk → s.isSpine = false → exec (.domainCreate .kresia m k v2 el) s = .next ((s.begun .kresia m k).complete .kresia m k 0xA10C)) ∧
  (∀ (s : State) (m k : Nat) (tk : Taken) (v2 : List Nat) (el : List (Nat × Nat)), s.ready .kresia m k 0x0203 tk → s.isSpine = true → (s.dom tk.domain).positions ≠ [] → exec (.domainCreate .kresia m k v2 el) s = .next ((s.begun .kresia m k).complete .kresia m k 0xA110)) ∧
  (∀ (s : State) (m k : Nat) (tk : Taken) (v2 : List Nat) (el : List (Nat × Nat)), s.ready .kresia m k 0x0203 tk → s.isSpine = true → (s.dom tk.domain).positions = [] → (tk.f 8 4 = 0 ∨ 2 ^ 20 < tk.f 8 4) → exec (.domainCreate .kresia m k v2 el) s = .next ((s.begun .kresia m k).complete .kresia m k 0xA103)) ∧
  (∀ (s : State) (m k : Nat) (tk : Taken) (v2 : List Nat) (el : List (Nat × Nat)), s.ready .kresia m k 0x0203 tk → s.isSpine = true → (s.dom tk.domain).positions = [] → 1 ≤ tk.f 8 4 → tk.f 8 4 ≤ 2 ^ 20 → s.stageOf m (tk.f 12 4) = none → exec (.domainCreate .kresia m k v2 el) s = .next ((s.begun .kresia m k).complete .kresia m k 0xA109)) ∧
  (∀ (s : State) (m k : Nat) (tk : Taken) (v2 : List Nat) (el : List (Nat × Nat)) (bs : List Byte), s.ready .kresia m k 0x0203 tk → s.isSpine = true → (s.dom tk.domain).positions = [] → 1 ≤ tk.f 8 4 → tk.f 8 4 ≤ 2 ^ 20 → s.stageOf m (tk.f 12 4) = some bs → bs.length < 16 * tk.f 8 4 → exec (.domainCreate .kresia m k v2 el) s = .next ((s.begun .kresia m k).complete .kresia m k 0xA10A)) ∧
  (∀ (s : State) (m k : Nat) (tk : Taken) (v2 : List Nat) (el : List (Nat × Nat)) (bs : List Byte) (i : Nat), s.ready .kresia m k 0x0203 tk → s.isSpine = true → (s.dom tk.domain).positions = [] → 1 ≤ tk.f 8 4 → tk.f 8 4 ≤ 2 ^ 20 → s.stageOf m (tk.f 12 4) = some bs → 16 * tk.f 8 4 ≤ bs.length → (List.range (tk.f 8 4)).find? (fun i => !mapEntryOk bs i) = some i → exec (.domainCreate .kresia m k v2 el) s = .next ((s.begun .kresia m k).complete .kresia m k 0xA103 (leBytes 4 i))) ∧
  (∀ (s : State) (m k : Nat) (tk : Taken) (v2 : List Nat) (el : List (Nat × Nat)) (bs : List Byte) (i : Nat), s.ready .kresia m k 0x0203 tk → s.isSpine = true → (s.dom tk.domain).positions = [] → 1 ≤ tk.f 8 4 → tk.f 8 4 ≤ 2 ^ 20 → s.stageOf m (tk.f 12 4) = some bs → 16 * tk.f 8 4 ≤ bs.length → (List.range (tk.f 8 4)).find? (fun i => !mapEntryOk bs i) = none → (List.range (tk.f 8 4)).find? (fun i => s.tenantBound (mapEntry v2 bs i) || el.contains ((mapEntry v2 bs i).member, (mapEntry v2 bs i).tenant) || ((List.range i).any fun j => le bs (16 * i) 4 = le bs (16 * j) 4)) = some i → exec (.domainCreate .kresia m k v2 el) s = .next ((s.begun .kresia m k).complete .kresia m k 0x2001 (leBytes 4 i))) ∧
  (∀ (s : State) (m k : Nat) (tk : Taken) (v2 : List Nat) (el : List (Nat × Nat)) (bs : List Byte), s.ready .kresia m k 0x0203 tk → s.isSpine = true → (s.dom tk.domain).positions = [] → 1 ≤ tk.f 8 4 → tk.f 8 4 ≤ 2 ^ 20 → s.stageOf m (tk.f 12 4) = some bs → 16 * tk.f 8 4 ≤ bs.length → ((List.range (tk.f 8 4)).all fun i => mapEntryOk bs i && !s.tenantBound (mapEntry v2 bs i) && !el.contains ((mapEntry v2 bs i).member, (mapEntry v2 bs i).tenant) && !((List.range i).any fun j => le bs (16 * i) 4 = le bs (16 * j) 4)) = true → ∃ t, exec (.domainCreate .kresia m k v2 el) s = .next t ∧ t.answered .kresia m k tk 0 [] ∧
      (t.dom tk.domain).positions = ((List.range (tk.f 8 4)).map fun i => s.newPos (mapEntry v2 bs i)) ∧
      (t.dom tk.domain).isCrown = true ∧
      (t.dom tk.domain).crown = s.ksId ∧
      (t.dom tk.domain).phase = .idle ∧
      (t.dom tk.domain).prog = none ∧
      (∀ j, j ≠ tk.domain → t.dom j = s.dom j)) ∧
  (∀ (s : State) (m k : Nat) (tk : Taken), s.ready .kresia m k 0x0204 tk → (s.dom tk.domain).isCrown = true → ((s.dom tk.domain).prog.isSome = true ∨ (s.dom tk.domain).wait.isSome = true) → exec (.domainDestroy .kresia m k) s = .next ((s.begun .kresia m k).complete .kresia m k 0xA110)) ∧
  (∀ (s : State) (m k : Nat) (tk : Taken), s.ready .kresia m k 0x0204 tk → (s.dom tk.domain).isCrown = true → (s.dom tk.domain).prog = none → (s.dom tk.domain).wait = none → ∃ t, exec (.domainDestroy .kresia m k) s = .next t ∧ t.answered .kresia m k tk 0 [] ∧
      FMap.find? t.ks.doms tk.domain = none) ∧
  (∀ (s : State) (m k : Nat) (tk : Taken), s.ready .kresia m k 0x0205 tk → (s.dom tk.domain).isCrown = true → (s.dom tk.domain).positions.length ≤ tk.f 8 4 → exec (.tenantUnbind .kresia m k) s = .next ((s.begun .kresia m k).complete .kresia m k 0xA103)) ∧
  (∀ (s : State) (m k : Nat) (tk : Taken), s.ready .kresia m k 0x0205 tk → (s.dom tk.domain).isCrown = true → tk.f 8 4 < (s.dom tk.domain).positions.length → ((s.dom tk.domain).pos (tk.f 8 4)).bound = false → exec (.tenantUnbind .kresia m k) s = .next ((s.begun .kresia m k).complete .kresia m k 0x0000)) ∧
  (∀ (s : State) (m k : Nat) (tk : Taken), s.ready .kresia m k 0x0205 tk → (s.dom tk.domain).isCrown = true → tk.f 8 4 < (s.dom tk.domain).positions.length → ((s.dom tk.domain).pos (tk.f 8 4)).bound = true → ∃ t, exec (.tenantUnbind .kresia m k) s = .next t ∧ t.answered .kresia m k tk 0 [] ∧
      (t.dom tk.domain).positions = (s.dom tk.domain).positions.set (tk.f 8 4) { (s.dom tk.domain).pos (tk.f 8 4) with bound := false, vacant := true } ∧
      .send .kresia (.members [((s.dom tk.domain).pos (tk.f 8 4)).e.member]) (.binding ⟨tk.domain, ((s.dom tk.domain).pos (tk.f 8 4)).e.member, ((s.dom tk.domain).pos (tk.f 8 4)).e.tenant, false, tk.f 8 4, ((s.dom tk.domain).pos (tk.f 8 4)).e.group, ((s.dom tk.domain).pos (tk.f 8 4)).e.port, ((s.dom tk.domain).pos (tk.f 8 4)).e.v2⟩) ∈ t.out) ∧
  (∀ (s : State) (m k : Nat) (tk : Taken) (f : SpareFacts) (c : Code), s.ready .kresia m k 0x0906 tk → (s.dom tk.domain).isCrown = true → s.spareCode tk.domain (tk.f 8 4) { member := tk.f 12 3, tenant := tk.f 15 1, group := f.group, port := f.port, v2 := f.v2 } f = some c → exec (.spareBind .kresia m k f) s = .next ((s.begun .kresia m k).complete .kresia m k c)) ∧
  (∀ (s : State) (m k : Nat) (tk : Taken) (f : SpareFacts), s.ready .kresia m k 0x0906 tk → (s.dom tk.domain).isCrown = true → s.spareCode tk.domain (tk.f 8 4) { member := tk.f 12 3, tenant := tk.f 15 1, group := f.group, port := f.port, v2 := f.v2 } f = none → ∃ t, exec (.spareBind .kresia m k f) s = .next t ∧ t.answered .kresia m k tk 0 [] ∧
      (t.dom tk.domain).positions = (s.dom tk.domain).positions.set (tk.f 8 4) { e := { member := tk.f 12 3, tenant := tk.f 15 1, group := f.group, port := f.port, v2 := f.v2 } } ∧
      (t.dom tk.domain).arrivals = (s.dom tk.domain).arrivals.filter (· ≠ tk.f 8 4) ∧
      (t.dom tk.domain).step = (s.dom tk.domain).step ∧
      (t.dom tk.domain).epoch = (s.dom tk.domain).epoch ∧
      (t.dom tk.domain).prog = (s.dom tk.domain).prog) ∧
  (∀ (s : State) (m k : Nat) (tk : Taken), s.ready .kresia m k 0x0908 tk → (s.dom tk.domain).isCrown = true → (s.dom tk.domain).phase ≠ .held → exec (.domainRelease .kresia m k) s = .next ((s.begun .kresia m k).complete .kresia m k 0xA110)) ∧
  (∀ (s : State) (m k : Nat) (tk : Taken), s.ready .kresia m k 0x0908 tk → (s.dom tk.domain).isCrown = true → (s.dom tk.domain).phase = .held → (((s.dom tk.domain).positions.any (·.vacant)) = true ∨ (s.dom tk.domain).lost = true ∨ (s.ks.fills.any fun q => q.domain = tk.domain) = true) → exec (.domainRelease .kresia m k) s = .next ((s.begun .kresia m k).complete .kresia m k 0x9011)) ∧
  (∀ (s : State) (m k : Nat) (tk : Taken), s.ready .kresia m k 0x0908 tk → (s.dom tk.domain).isCrown = true → (s.dom tk.domain).phase = .held → ((s.dom tk.domain).positions.any (·.vacant)) = false → (s.dom tk.domain).lost = false → (s.ks.fills.any fun q => q.domain = tk.domain) = false → exec (.domainRelease .kresia m k) s = .next ((((s.begun .kresia m k).modDom tk.domain fun y => { y with phase := .gather }).complete .kresia m k 0).tryBarrier tk.domain)) ∧
  (∀ (s : State) (m k : Nat) (tk : Taken) (b : Bool), s.ready .kresia m k 0x0909 tk → (s.dom tk.domain).isCrown = true → (s.dom tk.domain).phase ≠ .held → exec (.domainRollback .kresia m k b) s = .next ((s.begun .kresia m k).complete .kresia m k 0xA110)) ∧
  (∀ (s : State) (m k : Nat) (tk : Taken), s.ready .kresia m k 0x0909 tk → (s.dom tk.domain).isCrown = true → (s.dom tk.domain).phase = .held → exec (.domainRollback .kresia m k false) s = .next ((s.begun .kresia m k).complete .kresia m k 0x900D)) ∧
  (∀ (s : State) (m k : Nat) (tk : Taken), s.ready .kresia m k 0x0909 tk → (s.dom tk.domain).isCrown = true → (s.dom tk.domain).phase = .held → (s.dom tk.domain).prog = none → s.ks.chunks = [] → (s.dom tk.domain).insts = [] → ∃ t, exec (.domainRollback .kresia m k true) s = .next t ∧ t.answered .kresia m k tk 0 [] ∧
      (t.dom tk.domain).epoch = (s.dom tk.domain).epoch + 1 ∧
      (t.dom tk.domain).step = tk.f 8 6 + 1 ∧
      (t.dom tk.domain).arrivals = [] ∧
      (t.dom tk.domain).recs = [] ∧
      (t.dom tk.domain).lost = false ∧
      (t.dom tk.domain).phase = .held ∧
      (t.dom tk.domain).lastTamp = none ∧
      t.free = s.free + 1) ∧
  (∀ (s : State) (m k : Nat) (tk : Taken), s.ready .kresia m k 0x0909 tk → (s.dom tk.domain).isCrown = true → (s.dom tk.domain).phase = .held → (s.dom tk.domain).freeing = false → ∃ t, exec (.domainRollback .kresia m k true) s = .next t ∧ (t.dom tk.domain).epoch = (s.dom tk.domain).epoch + 1 ∧
      (t.dom tk.domain).step = tk.f 8 6 + 1 ∧
      (t.dom tk.domain).lost = false) ∧
  (∀ (s : State) (m k : Nat) (tk : Taken), s.ready .kresia m k 0x090D tk → (s.dom tk.domain).isDeputy = false → exec (.crownPromote .kresia m k) s = .next ((s.begun .kresia m k).wrongPart .kresia m k (if (s.dom tk.domain).isCrown then some (2 ^ 20 + s.ksId) else if (s.dom tk.domain).positions.isEmpty then none else some (2 ^ 20 + (s.dom tk.domain).crown)))) ∧
  (∀ (s : State) (m k : Nat) (tk : Taken), s.ready .kresia m k 0x090D tk → (s.dom tk.domain).isDeputy = true → s.isFenced (2 ^ 20 + (s.dom tk.domain).crown) = false → exec (.crownPromote .kresia m k) s = .next ((s.begun .kresia m k).complete .kresia m k 0x2014)) ∧
  (∀ (s : State) (m k : Nat) (tk : Taken), s.ready .kresia m k 0x090D tk → (s.dom tk.domain).isDeputy = true → s.isFenced (2 ^ 20 + (s.dom tk.domain).crown) = true → (s.dom tk.domain).prog = none → ∃ t, exec (.crownPromote .kresia m k) s = .next t ∧ t.answered .kresia m k tk 0 [] ∧
      (t.dom tk.domain).isCrown = true ∧
      (t.dom tk.domain).isDeputy = false ∧
      (t.dom tk.domain).crown = s.ksId ∧
      (t.dom tk.domain).phase = .idle ∧
      (t.dom tk.domain).epoch = (s.dom tk.domain).epoch ∧
      (t.dom tk.domain).positions = (s.dom tk.domain).positions) ∧
  (∀ (s : State) (m k : Nat) (tk : Taken), s.ready .kresia m k 0x090D tk → (s.dom tk.domain).isDeputy = true → s.isFenced (2 ^ 20 + (s.dom tk.domain).crown) = true → ∃ t, exec (.crownPromote .kresia m k) s = .next t ∧ (t.dom tk.domain).isCrown = true ∧
      (t.dom tk.domain).isDeputy = false ∧
      (t.dom tk.domain).crown = s.ksId)

/-- prog.load, replace, cancel, unload and bell.change at the crown: refused with the first check failed, else distributed and awaited (R105, R148, R166, R167, R169, R170, R171, R172, R441). -/
def Obligations.ProgramCommands : Prop :=
  (∀ (s : State) (m k : Nat) (tk : Taken) (f : LoadFacts), s.ready .kresia m k 0x0401 tk → (s.dom tk.domain).isCrown = true → s.ksReady = false → exec (.progLoad .kresia m k f) s = .next ((s.begun .kresia m k).progEnd tk.domain m k 0x1010)) ∧
  (∀ (s : State) (m k : Nat) (tk : Taken) (f : LoadFacts), s.ready .kresia m k 0x0401 tk → (s.dom tk.domain).isCrown = true → s.ksReady = true → s.stageOf m (tk.f 8 4) = none → exec (.progLoad .kresia m k f) s = .next ((s.begun .kresia m k).progEnd tk.domain m k 0xA109)) ∧
  (∀ (s : State) (m k : Nat) (tk : Taken) (area : List Byte) (f : LoadFacts), s.ready .kresia m k 0x0401 tk → (s.dom tk.domain).isCrown = true → s.ksReady = true → s.stageOf m (tk.f 8 4) = some area → exec (.progLoad .kresia m k f) s = .next (match (s.begun .kresia m k).imageFault tk.domain area f ((s.dom tk.domain).prog.isSome || (s.dom tk.domain).wait.isSome) with
      | some e => (s.begun .kresia m k).refuseImage tk.domain m k e
      | none => (((s.begun .kresia m k).loadHere tk.domain (area.take (imgBytes area))).distribute tk.domain (area.take (imgBytes area)) none).awaitLoad tk.domain m k 0 (area.take (imgBytes area)) 0)) ∧
  (∀ (s : State) (m k : Nat) (tk : Taken) (f : LoadFacts), s.ready .kresia m k 0x0402 tk → (s.dom tk.domain).isCrown = true → s.ksReady = false → exec (.progReplace .kresia m k f) s = .next ((s.begun .kresia m k).progEnd tk.domain m k 0x1010)) ∧
  (∀ (s : State) (m k : Nat) (tk : Taken) (f : LoadFacts), s.ready .kresia m k 0x0402 tk → (s.dom tk.domain).isCrown = true → s.ksReady = true → s.stageOf m (tk.f 8 4) = none → exec (.progReplace .kresia m k f) s = .next ((s.begun .kresia m k).progEnd tk.domain m k 0xA109)) ∧
  (∀ (s : State) (m k : Nat) (tk : Taken) (area : List Byte) (f : LoadFacts), s.ready .kresia m k 0x0402 tk → (s.dom tk.domain).isCrown = true → s.ksReady = true → s.stageOf m (tk.f 8 4) = some area → (s.dom tk.domain).prog = none → exec (.progReplace .kresia m k f) s = .next ((s.begun .kresia m k).progEnd tk.domain m k 0xA110)) ∧
  (∀ (s : State) (m k : Nat) (tk : Taken) (area : List Byte) (f : LoadFacts) (old : Image), s.ready .kresia m k 0x0402 tk → (s.dom tk.domain).isCrown = true → s.ksReady = true → s.stageOf m (tk.f 8 4) = some area → (s.dom tk.domain).prog = some old → exec (.progReplace .kresia m k f) s = .next (match (s.begun .kresia m k).imageFault tk.domain area f false with
      | some e => (s.begun .kresia m k).refuseImage tk.domain m k e
      | none => if tk.f 12 6 < (s.dom tk.domain).step + 2 ∨ imgStepFirst (area.take (imgBytes area)) ≠ tk.f 12 6 ∨ slotClash old (area.take (imgBytes area)) = true ∨ (s.dom tk.domain).next.isSome = true ∨ (s.dom tk.domain).unloading.isSome = true then (s.begun .kresia m k).progEnd tk.domain m k 0x202A
        else (((s.begun .kresia m k).modDom tk.domain fun y => { y with next := some ((area.take (imgBytes area)), tk.f 12 6) }).distribute tk.domain (area.take (imgBytes area)) (some (tk.f 12 6))).awaitLoad tk.domain m k 1 (area.take (imgBytes area)) (tk.f 12 6))) ∧
  (∀ (s : State) (m k : Nat) (tk : Taken), s.ready .kresia m k 0x0403 tk → (s.dom tk.domain).isCrown = true → (s.dom tk.domain).next = none → exec (.progCancel .kresia m k) s = .next ((s.begun .kresia m k).progEnd tk.domain m k 0x202A)) ∧
  (∀ (s : State) (m k : Nat) (tk : Taken) (g : Image) (n : Nat), s.ready .kresia m k 0x0403 tk → (s.dom tk.domain).isCrown = true → (s.dom tk.domain).next = some (g, n) → ∃ t, exec (.progCancel .kresia m k) s = .next t ∧ t.answered .kresia m k tk 0 [] ∧
      (t.dom tk.domain).next = none ∧
      (t.dom tk.domain).prog = (s.dom tk.domain).prog ∧
      (t.dom tk.domain).step = (s.dom tk.domain).step) ∧
  (∀ (s : State) (m k : Nat) (tk : Taken), s.ready .kresia m k 0x0404 tk → (s.dom tk.domain).isCrown = true → (s.dom tk.domain).prog = none → exec (.progUnload .kresia m k) s = .next ((s.begun .kresia m k).progEnd tk.domain m k 0xA110)) ∧
  (∀ (s : State) (m k : Nat) (tk : Taken), s.ready .kresia m k 0x0404 tk → (s.dom tk.domain).isCrown = true → (s.dom tk.domain).prog.isSome = true → (s.dom tk.domain).next = none → (s.dom tk.domain).phase ≠ .held → (s.dom tk.domain).everTamped = true → exec (.progUnload .kresia m k) s = .next ((((s.begun .kresia m k).modDom tk.domain fun y => { y with unloading := some (m, k), toArm := [] }).afterTamp tk.domain).tryBarrier tk.domain)) ∧
  (∀ (s : State) (m k : Nat) (tk : Taken), s.ready .kresia m k 0x0404 tk → (s.dom tk.domain).isCrown = true → (s.dom tk.domain).prog.isSome = true → (s.dom tk.domain).next = none → ((s.dom tk.domain).phase = .held ∨ (s.dom tk.domain).everTamped = false) → exec (.progUnload .kresia m k) s = .next (((s.begun .kresia m k).modDom tk.domain fun y => { y with unloading := some (m, k), toArm := [] }).unloadNow tk.domain)) ∧
  (∀ (s : State) (m k : Nat) (tk : Taken) (g : Image), s.ready .kresia m k 0x0404 tk → (s.dom tk.domain).isCrown = true → (s.dom tk.domain).prog = some g → (s.dom tk.domain).next = none → (s.dom tk.domain).phase = .held → (s.dom tk.domain).isDeputy = false → ∃ t, exec (.progUnload .kresia m k) s = .next t ∧ (t.dom tk.domain).phase = .idle ∧
      (t.dom tk.domain).recs = [] ∧
      (t.dom tk.domain).arrivals = [] ∧
      (t.dom tk.domain).unloading = none) ∧
  (∀ (s : State) (m k : Nat) (tk : Taken), s.ready .kresia m k 0x0405 tk → (s.dom tk.domain).isCrown = true → (leOt tk.bytes 16).malformed = true → exec (.bellChange .kresia m k) s = .next ((s.begun .kresia m k).complete .kresia m k 0x1003)) ∧
  (∀ (s : State) (m k : Nat) (tk : Taken), s.ready .kresia m k 0x0405 tk → (s.dom tk.domain).isCrown = true → (leOt tk.bytes 16).malformed = false → (s.begun .kresia m k).bellBad tk.domain tk = true → exec (.bellChange .kresia m k) s = .next ((s.begun .kresia m k).complete .kresia m k 0x2016)) ∧
  (∀ (s : State) (m k : Nat) (tk : Taken) (g : Image), s.ready .kresia m k 0x0405 tk → (s.dom tk.domain).isCrown = true → (s.dom tk.domain).prog = some g → (leOt tk.bytes 16).malformed = false → (s.begun .kresia m k).bellBad tk.domain tk = false → s.armedUsed < 1024 → tk.f 12 1 = 0 → ∃ t, exec (.bellChange .kresia m k) s = .next t ∧ (t.dom tk.domain).recs.length = (s.dom tk.domain).recs.length + 1 ∧
      (t.dom tk.domain).seq = ((s.dom tk.domain).seq + 1) % 2 ^ 32 ∧
      ((t.dom tk.domain).recs.getLast?.map fun r => (r.entry, r.due, r.period, r.bells)) = some (tk.f 8 4, leOt tk.bytes 16, 0, 0) ∧
      (t.mslot .kresia m k).taken.isSome = true) ∧
  (∀ (s : State) (m k : Nat) (tk : Taken) (g : Image), s.ready .kresia m k 0x0405 tk → (s.dom tk.domain).isCrown = true → (s.dom tk.domain).prog = some g → (leOt tk.bytes 16).malformed = false → (s.begun .kresia m k).bellBad tk.domain tk = false → s.armedUsed < 1024 → tk.f 12 1 = 1 → ∃ t, exec (.bellChange .kresia m k) s = .next t ∧ (t.dom tk.domain).recs.length = (s.dom tk.domain).recs.length + 1 ∧
      (t.dom tk.domain).seq = ((s.dom tk.domain).seq + 1) % 2 ^ 32 ∧
      ((t.dom tk.domain).recs.getLast?.map fun r => (r.entry, r.due, r.period, r.bells)) = some (tk.f 8 4, leOt tk.bytes 16, tk.f 28 6, tk.f 36 4) ∧
      (t.mslot .kresia m k).taken.isSome = true) ∧
  (∀ (s : State) (m k : Nat) (tk : Taken) (g : Image), s.ready .kresia m k 0x0405 tk → (s.dom tk.domain).isCrown = true → (s.dom tk.domain).prog = some g → (leOt tk.bytes 16).malformed = false → (s.begun .kresia m k).bellBad tk.domain tk = false → 1024 ≤ s.armedUsed → ∃ t, exec (.bellChange .kresia m k) s = .next t ∧ (t.dom tk.domain).recs = (s.dom tk.domain).recs ∧
      (t.dom tk.domain).seq = (s.dom tk.domain).seq ∧
      (t.dom tk.domain).changeWait.isSome = true ∧
      (t.mslot .kresia m k).taken.isSome = true ∧
      t.out = s.out)

/-- shard.write and read, scalar.set, mirror.promote and retarget, home.move, spare.fill and ckpt.credit act on the state of their domain (R225, R227, R230, R245, R322, R323, R325, R326, R327, R330, R334, R392). -/
def Obligations.ShardAndHomeCommands : Prop :=
  (∀ (s : State) (m k : Nat) (tk : Taken) (held : Bool) (c : Code), s.ready .kresia m k 0x0501 tk → s.shardRange tk.domain tk = .bad c → exec (.shardWrite .kresia m k held) s = .next ((s.begun .kresia m k).complete .kresia m k c)) ∧
  (∀ (s : State) (m k : Nat) (tk : Taken) (held : Bool) (h : Option Nat), s.ready .kresia m k 0x0501 tk → s.shardRange tk.domain tk = .elsewhere h → exec (.shardWrite .kresia m k held) s = .next ((s.begun .kresia m k).wrongPart .kresia m k (h.map fun n => 2 ^ 20 + n))) ∧
  (∀ (s : State) (m k : Nat) (tk : Taken) (held : Bool) (key stream w : Nat) (l ch : List Nat), s.ready .kresia m k 0x0501 tk → s.shardRange tk.domain tk = .cells key stream w l ch → ((((s.dom tk.domain).progState = 2 || (if (s.dom tk.domain).isCrown then decide ((s.dom tk.domain).phase = .held) else held)) = false)) → exec (.shardWrite .kresia m k held) s = .next ((s.begun .kresia m k).complete .kresia m k 0x5003)) ∧
  (∀ (s : State) (m k : Nat) (tk : Taken) (held : Bool) (key stream w : Nat) (l ch : List Nat), s.ready .kresia m k 0x0501 tk → s.shardRange tk.domain tk = .cells key stream w l ch → ((((s.dom tk.domain).progState = 2 || (if (s.dom tk.domain).isCrown then decide ((s.dom tk.domain).phase = .held) else held)) = true)) → s.stageOf m (tk.f 20 4) = none → exec (.shardWrite .kresia m k held) s = .next ((s.begun .kresia m k).complete .kresia m k 0xA109)) ∧
  (∀ (s : State) (m k : Nat) (tk : Taken) (held : Bool) (key stream w : Nat) (l ch : List Nat) (bs : List Byte), s.ready .kresia m k 0x0501 tk → s.shardRange tk.domain tk = .cells key stream w l ch → ((((s.dom tk.domain).progState = 2 || (if (s.dom tk.domain).isCrown then decide ((s.dom tk.domain).phase = .held) else held)) = true)) → s.stageOf m (tk.f 20 4) = some bs → bs.length < w * l.length → exec (.shardWrite .kresia m k held) s = .next ((s.begun .kresia m k).complete .kresia m k 0xA10A)) ∧
  (∀ (s : State) (m k : Nat) (tk : Taken) (held : Bool) (key stream w : Nat) (l ch : List Nat) (bs : List Byte), s.ready .kresia m k 0x0501 tk → s.shardRange tk.domain tk = .cells key stream w l ch → ((((s.dom tk.domain).progState = 2 || (if (s.dom tk.domain).isCrown then decide ((s.dom tk.domain).phase = .held) else held)) = true)) → s.stageOf m (tk.f 20 4) = some bs → w * l.length ≤ bs.length → (decide (tk.f 10 1 % 2 = 1) && (s.dom tk.domain).prog.any fun g => rMirrored g (tk.f 8 2)) = false → ∃ t, exec (.shardWrite .kresia m k held) s = .next t ∧ t.answered .kresia m k tk 0 [] ∧
      t.shard key = (l.zip ((List.range l.length).map fun i => le bs (w * i) w)).foldl (fun (h : Shard) (q : Nat × Nat) => h.putAt stream q.1 q.2) (s.shard key) ∧
      t.ks.c.fw.stages = s.ks.c.fw.stages ∧
      (t.dom tk.domain) = (s.dom tk.domain)) ∧
  (∀ (s : State) (m k : Nat) (tk : Taken) (c : Code), s.ready .kresia m k 0x0502 tk → s.shardRange tk.domain tk = .bad c → exec (.shardRead .kresia m k) s = .next ((s.begun .kresia m k).complete .kresia m k c)) ∧
  (∀ (s : State) (m k : Nat) (tk : Taken) (h : Option Nat), s.ready .kresia m k 0x0502 tk → s.shardRange tk.domain tk = .elsewhere h → exec (.shardRead .kresia m k) s = .next ((s.begun .kresia m k).wrongPart .kresia m k (h.map fun n => 2 ^ 20 + n))) ∧
  (∀ (s : State) (m k : Nat) (tk : Taken) (key stream w : Nat) (l : List Nat), s.ready .kresia m k 0x0502 tk → s.shardRange tk.domain tk = .cells key stream w l [] → s.stageOf m (tk.f 20 4) = none → exec (.shardRead .kresia m k) s = .next ((s.begun .kresia m k).complete .kresia m k 0xA109)) ∧
  (∀ (s : State) (m k : Nat) (tk : Taken) (key stream w : Nat) (l : List Nat) (bs : List Byte), s.ready .kresia m k 0x0502 tk → s.shardRange tk.domain tk = .cells key stream w l [] → s.stageOf m (tk.f 20 4) = some bs → (l.flatMap fun q => leBytes w (FMap.getD (FMap.getD (s.shard key).streams stream []) q 0)).length ≤ bs.length → ∃ t, exec (.shardRead .kresia m k) s = .next t ∧ t.answered .kresia m k tk 0 [] ∧
      (t.stageOf m (tk.f 20 4)).map (·.take (l.flatMap fun q => leBytes w (FMap.getD (FMap.getD (s.shard key).streams stream []) q 0)).length) = some (l.flatMap fun q => leBytes w (FMap.getD (FMap.getD (s.shard key).streams stream []) q 0)) ∧
      t.ks.shards = s.ks.shards) ∧
  (∀ (s : State) (m k : Nat) (tk : Taken) (c : Code), s.ready .kresia m k 0x0503 tk → (s.dom tk.domain).isCrown = true → (s.dom tk.domain).scalarCode (tk.f 8 2) (tk.f 10 1) (tk.f 16 6) = some c → exec (.scalarSet .kresia m k) s = .next ((s.begun .kresia m k).complete .kresia m k c)) ∧
  (∀ (s : State) (m k : Nat) (tk : Taken), s.ready .kresia m k 0x0503 tk → (s.dom tk.domain).isCrown = true → (s.dom tk.domain).scalarCode (tk.f 8 2) (tk.f 10 1) (tk.f 16 6) = none → (s.mapHolders (s.dom tk.domain)).filter (· ≠ s.ksId) = [] → ∃ t, exec (.scalarSet .kresia m k) s = .next t ∧ t.answered .kresia m k tk 0 [] ∧
      (t.dom tk.domain).scalars = (s.dom tk.domain).scalars ++ [(⟨tk.f 8 2, tk.f 10 1, BitVec.ofNat 32 (tk.f 12 4), tk.f 16 6⟩ : HostScalar)] ∧
      (t.dom tk.domain).scalarWaits = (s.dom tk.domain).scalarWaits) ∧
  (∀ (s : State) (m k : Nat) (tk : Taken), s.ready .kresia m k 0x0503 tk → (s.dom tk.domain).isCrown = true → (s.dom tk.domain).scalarCode (tk.f 8 2) (tk.f 10 1) (tk.f 16 6) = none → (s.mapHolders (s.dom tk.domain)).filter (· ≠ s.ksId) ≠ [] → ∃ t, exec (.scalarSet .kresia m k) s = .next t ∧ (t.dom tk.domain).scalars = (s.dom tk.domain).scalars ++ [(⟨tk.f 8 2, tk.f 10 1, BitVec.ofNat 32 (tk.f 12 4), tk.f 16 6⟩ : HostScalar)] ∧
      (t.dom tk.domain).scalarWaits = (s.dom tk.domain).scalarWaits ++ [⟨m, k, (⟨tk.f 8 2, tk.f 10 1, BitVec.ofNat 32 (tk.f 12 4), tk.f 16 6⟩ : HostScalar), ((s.mapHolders (s.dom tk.domain)).filter (· ≠ s.ksId)).map (2 ^ 20 + ·)⟩] ∧
      (t.mslot .kresia m k).taken = some { tk with started := true }) ∧
  (∀ (s : State) (m k : Nat) (tk : Taken), s.ready .kresia m k 0x0903 tk → ((if s.isFenced (2 ^ 20 + partnerOf (tk.f 8 3 % 2 ^ 17) 0) then partnerOf (tk.f 8 3 % 2 ^ 17) 2 else partnerOf (tk.f 8 3 % 2 ^ 17) 0) ≠ s.ksId) → exec (.mirrorPromote .kresia m k) s = .next ((s.begun .kresia m k).complete .kresia m k 0xA10C (leBytes 3 (2 ^ 20 + (if s.isFenced (2 ^ 20 + partnerOf (tk.f 8 3 % 2 ^ 17) 0) then partnerOf (tk.f 8 3 % 2 ^ 17) 2 else partnerOf (tk.f 8 3 % 2 ^ 17) 0))))) ∧
  (∀ (s : State) (m k : Nat) (tk : Taken), s.ready .kresia m k 0x0903 tk → ((if s.isFenced (2 ^ 20 + partnerOf (tk.f 8 3 % 2 ^ 17) 0) then partnerOf (tk.f 8 3 % 2 ^ 17) 2 else partnerOf (tk.f 8 3 % 2 ^ 17) 0) = s.ksId) → exec (.mirrorPromote .kresia m k) s = .next ((s.ks.doms.foldl (fun (s : State) (q : Nat × Domain) => s.promoteDomain q.1 (tk.f 8 3 % 2 ^ 17)) (s.begun .kresia m k)).complete .kresia m k 0)) ∧
  (∀ (s : State) (m k : Nat) (tk : Taken) (room service : Bool), s.ready .kresia m k 0x0904 tk → (s.dom tk.domain).prog = none → exec (.mirrorRetarget .kresia m k room service) s = .next ((s.begun .kresia m k).complete .kresia m k 0xA10C)) ∧
  (∀ (s : State) (m k : Nat) (tk : Taken) (room service : Bool) (g : Image), s.ready .kresia m k 0x0904 tk → (s.dom tk.domain).prog = some g → tk.f 8 2 ≠ 0xFFFF → collCount g ≤ tk.f 8 2 → exec (.mirrorRetarget .kresia m k room service) s = .next ((s.begun .kresia m k).complete .kresia m k 0xA103)) ∧
  (∀ (s : State) (m k : Nat) (tk : Taken) (room service : Bool) (g : Image), s.ready .kresia m k 0x0904 tk → (s.dom tk.domain).prog = some g → tk.f 8 2 < collCount g → tk.f 8 2 ≠ 0xFFFF → cBlocked g (tk.f 8 2) = true → s.homeChunks (s.dom tk.domain) g (tk.f 8 2) ((s.dom tk.domain).homeStep g) ≠ [] → (tk.f 12 3 / 2 ^ 17 ≠ 8 ∨ ksPlane (tk.f 12 3 % 2 ^ 17) % 2 = ksPlane s.ksId % 2 ∨ room = false ∨ service = false ∨ s.isFenced (2 ^ 20 + tk.f 12 3 % 2 ^ 17) = true) → exec (.mirrorRetarget .kresia m k room service) s = .next ((s.begun .kresia m k).complete .kresia m k 0x9008)) ∧
  (∀ (s : State) (m k : Nat) (tk : Taken) (g : Image), s.ready .kresia m k 0x0904 tk → (s.dom tk.domain).prog = some g → tk.f 8 2 < collCount g → tk.f 8 2 ≠ 0xFFFF → cBlocked g (tk.f 8 2) = true → s.homeChunks (s.dom tk.domain) g (tk.f 8 2) ((s.dom tk.domain).homeStep g) ≠ [] → tk.f 12 3 / 2 ^ 17 = 8 → ksPlane (tk.f 12 3 % 2 ^ 17) % 2 ≠ ksPlane s.ksId % 2 → s.isFenced (2 ^ 20 + tk.f 12 3 % 2 ^ 17) = false → ∃ t, exec (.mirrorRetarget .kresia m k true true) s = .next t ∧ t.answered .kresia m k tk 0 [] ∧
      (t.shard (shardKey tk.domain (tk.f 8 2) false false)).fillTarget = some (tk.f 12 3 % 2 ^ 17)) ∧
  (∀ (s : State) (m k : Nat) (tk : Taken) (g : Image) (cs : List Nat), s.ready .kresia m k 0x0904 tk → (s.dom tk.domain).prog = some g → tk.f 8 2 = 0xFFFF → cs = ((List.range (collCount g)).filter fun c => cBlocked g c && !((s.begun .kresia m k).homeChunks ((s.begun .kresia m k).dom tk.domain) g c (((s.begun .kresia m k).dom tk.domain).homeStep g)).isEmpty) → cs ≠ [] → tk.f 12 3 / 2 ^ 17 = 8 → ksPlane (tk.f 12 3 % 2 ^ 17) % 2 ≠ ksPlane s.ksId % 2 → s.isFenced (2 ^ 20 + tk.f 12 3 % 2 ^ 17) = false → exec (.mirrorRetarget .kresia m k true true) s = .next ((cs.foldl (fun (z : State) (c : Nat) => (z.modShard (shardKey tk.domain c false false) fun h => { h with fillTarget := some (tk.f 12 3 % 2 ^ 17), fillLeft := (s.begun .kresia m k).homeChunks ((s.begun .kresia m k).dom tk.domain) g c (((s.begun .kresia m k).dom tk.domain).homeStep g), fillAcked := [], fillDone := [] }).pumpFill tk.domain c) (s.begun .kresia m k)).complete .kresia m k 0)) ∧
  (∀ (s : State) (m k : Nat) (tk : Taken) (copied : Bool), s.ready .kresia m k 0x0905 tk → (s.dom tk.domain).isCrown = true → (s.dom tk.domain).prog = none → exec (.homeMove .kresia m k copied) s = .next ((s.begun .kresia m k).complete .kresia m k 0xA110)) ∧
  (∀ (s : State) (m k : Nat) (tk : Taken) (copied : Bool) (g : Image), s.ready .kresia m k 0x0905 tk → (s.dom tk.domain).isCrown = true → (s.dom tk.domain).prog = some g → (2 < tk.f 8 1 ∨ homeElems g (tk.f 8 1) (tk.f 10 2) ≤ tk.f 12 4) → exec (.homeMove .kresia m k copied) s = .next ((s.begun .kresia m k).complete .kresia m k 0xA103)) ∧
  (∀ (s : State) (m k : Nat) (tk : Taken) (copied : Bool) (g : Image), s.ready .kresia m k 0x0905 tk → (s.dom tk.domain).isCrown = true → (s.dom tk.domain).prog = some g → tk.f 8 1 ≤ 2 → tk.f 12 4 < homeElems g (tk.f 8 1) (tk.f 10 2) → (tk.f 20 6 < (s.dom tk.domain).step + 2 ∨ (copied = false ∧ tk.f 8 1 ≠ 1) ∨ ((s.dom tk.domain).moves.any fun q => q.kind = tk.f 8 1 && q.record = tk.f 10 2 && q.element = tk.f 12 4 && (s.dom tk.domain).step < q.step) = true) → exec (.homeMove .kresia m k copied) s = .next ((s.begun .kresia m k).complete .kresia m k 0x9013)) ∧
  (∀ (s : State) (m k : Nat) (tk : Taken) (g : Image), s.ready .kresia m k 0x0905 tk → (s.dom tk.domain).isCrown = true → (s.dom tk.domain).prog = some g → tk.f 8 1 ≤ 2 → tk.f 12 4 < homeElems g (tk.f 8 1) (tk.f 10 2) → (s.dom tk.domain).step + 2 ≤ tk.f 20 6 → ((s.dom tk.domain).moves.any fun q => q.kind = tk.f 8 1 && q.record = tk.f 10 2 && q.element = tk.f 12 4 && (s.dom tk.domain).step < q.step) = false → s.ks.chunks = [] → ∃ t, exec (.homeMove .kresia m k true) s = .next t ∧ t.answered .kresia m k tk 0 [] ∧
      (t.dom tk.domain).moves = (s.dom tk.domain).moves ++ [⟨tk.f 8 1, tk.f 10 2, tk.f 12 4, tk.f 16 3 % 2 ^ 17, tk.f 20 6⟩]) ∧
  (∀ (s : State) (m k : Nat) (tk : Taken) (held : Bool), s.ready .kresia m k 0x0907 tk → (s.dom tk.domain).prog = none → exec (.spareFill .kresia m k held) s = .next ((s.begun .kresia m k).complete .kresia m k 0x900A)) ∧
  (∀ (s : State) (m k : Nat) (tk : Taken) (held : Bool) (g : Image), s.ready .kresia m k 0x0907 tk → (s.dom tk.domain).prog = some g → (((if (s.dom tk.domain).isCrown then decide ((s.dom tk.domain).phase = .held) else held) = false) ∨ (tk.f 8 4 ≠ 0xFFFFF ∧ ¬ (tk.f 8 4 < (s.dom tk.domain).positions.length ∧ ((s.dom tk.domain).pos (tk.f 8 4)).bound = true ∧ ((s.dom tk.domain).pos (tk.f 8 4)).vacant = false))) → exec (.spareFill .kresia m k held) s = .next ((s.begun .kresia m k).complete .kresia m k 0x900A)) ∧
  (∀ (s : State) (m k : Nat) (tk : Taken) (held : Bool) (g : Image), s.ready .kresia m k 0x0907 tk → (s.dom tk.domain).prog = some g → ((if (s.dom tk.domain).isCrown then decide ((s.dom tk.domain).phase = .held) else held) = true) → tk.f 8 4 < (s.dom tk.domain).positions.length → ((s.dom tk.domain).pos (tk.f 8 4)).bound = true → ((s.dom tk.domain).pos (tk.f 8 4)).vacant = false → collCount g = 0 → (sec g 9).count = 0 → exec (.spareFill .kresia m k held) s = .next ((s.begun .kresia m k).complete .kresia m k 0x0000 (leBytes 4 0))) ∧
  (∀ (s : State) (m k : Nat) (tk : Taken) (held : Bool) (g : Image) (ps : List Nat) (js : List SendJob), s.ready .kresia m k 0x0907 tk → (s.dom tk.domain).prog = some g → ((if (s.dom tk.domain).isCrown then decide ((s.dom tk.domain).phase = .held) else held) = true) → ((tk.f 8 4 = 0xFFFFF ∧ ps = ((List.range (s.dom tk.domain).positions.length).filter fun q => ((s.dom tk.domain).pos q).bound && !((s.dom tk.domain).pos q).vacant)) ∨ (tk.f 8 4 < (s.dom tk.domain).positions.length ∧ ((s.dom tk.domain).pos (tk.f 8 4)).bound = true ∧ ((s.dom tk.domain).pos (tk.f 8 4)).vacant = false ∧ tk.f 8 4 ≠ 0xFFFFF ∧ ps = [tk.f 8 4])) → js = (ps.flatMap fun q => (s.begun .kresia m k).fillOutputs tk.domain g q (fillId m k) (tk.f 8 4) (tk.f 12 2) ++ (s.begun .kresia m k).fillParts tk.domain g q (fillId m k) (tk.f 8 4) (tk.f 12 2)) → js ≠ [] → exec (.spareFill .kresia m k held) s = .next (js.foldl (fun (s : State) (j : SendJob) => s.startJob j) ((s.begun .kresia m k).modKs fun z => { z with fills := z.fills ++ [{ domain := tk.domain, position := tk.f 8 4, left := js.length, mailbox := m, mslot := k, count := js.length }] }))) ∧
  (∀ (s : State) (m k : Nat) (tk : Taken), s.ready .baxel m k 0x090C tk → s.tenantOf tk.domain = none → exec (.ckptCredit .baxel m k) s = .next ((s.begun .baxel m k).complete .baxel m k 0xA107)) ∧
  (∀ (s : State) (m k : Nat) (tk : Taken) (tn : Nat), s.ready .baxel m k 0x090C tk → s.tenantOf tk.domain = some tn → streamsTo (s.ten tn).prog (s.ten tn).position = [] → exec (.ckptCredit .baxel m k) s = .next ((s.begun .baxel m k).complete .baxel m k 0xA10C)) ∧
  (∀ (s : State) (m k : Nat) (tk : Taken) (tn c e n : Nat) (rest : List (Nat × Nat × Nat)), s.ready .baxel m k 0x090C tk → s.tenantOf tk.domain = some tn → streamsTo (s.ten tn).prog (s.ten tn).position = (c, e, n) :: rest → 1 ≤ n → (s.ten tn).ckptGiven = [] → tk.f 12 4 = 1 → ∃ t, exec (.ckptCredit .baxel m k) s = .next t ∧ t.answered .baxel m k tk 0 [] ∧
      (t.ten tn).ckptGiven = [(c * 2 ^ 16 + e, 1)] ∧
      (∃ node, .send .baxel (.node node) (.ckptGrant ⟨tk.domain, (s.ten tn).position, tk.f 8 4⟩) ∈ t.out) ∧
      t.ks = s.ks) ∧
  (∀ (s : State) (x : CkptGrant), (s.ks.ckpts.find? fun q => q.domain = x.domain && q.target = x.target && !q.left.isEmpty) = none → exec (.ckptGrantRx x) s = .next (s.modKs fun k => { k with grants := k.grants ++ [(x.domain, x.target, x.slot)] })) ∧
  (∀ (s : State) (x : CkptGrant) (q : Ckpt), (s.ks.ckpts.find? fun q => q.domain = x.domain && q.target = x.target && !q.left.isEmpty) = some q → exec (.ckptGrantRx x) s = .next ((s.modKs fun k => { k with ckpts := k.ckpts.map fun y => if y = q then { q with grants := q.grants ++ [x.slot] } else y }).pumpCkpts 1))

/-- cup.config, read, retire and shard, ctr.read, snap.arm and snap.read answer what is stored, or the code of what is missing (R345, R348, R349, R350, R351, R358, R361, R364, R365, R390, R391, R393). -/
def Obligations.CuppingAndCounterCommands : Prop :=
  (∀ (s : State) (m k : Nat) (tk : Taken), s.ready .kresia m k 0x0A01 tk → (s.dom tk.domain).isCrown = true → (s.dom tk.domain).prog = none → exec (.cupConfig .kresia m k) s = .next ((s.begun .kresia m k).complete .kresia m k 0x9020)) ∧
  (∀ (s : State) (m k : Nat) (tk : Taken), s.ready .kresia m k 0x0A01 tk → (s.dom tk.domain).isCrown = true → (s.dom tk.domain).prog.isSome = true → ((s.dom tk.domain).lastTamp.any fun q => tk.f 10 6 ≤ q.1) = true → exec (.cupConfig .kresia m k) s = .next ((s.begun .kresia m k).complete .kresia m k 0x9021)) ∧
  (∀ (s : State) (m k : Nat) (tk : Taken), s.ready .kresia m k 0x0A01 tk → (s.dom tk.domain).isCrown = true → (s.dom tk.domain).prog.isSome = true → ((s.dom tk.domain).lastTamp.any fun q => tk.f 10 6 ≤ q.1) = false → ∃ t, exec (.cupConfig .kresia m k) s = .next t ∧ t.answered .kresia m k tk 0 [] ∧
      (t.dom tk.domain).cupPeriod = tk.f 8 2 ∧
      (t.dom tk.domain).cupFrom = tk.f 10 6 ∧
      (t.dom tk.domain).cupRecs = (s.dom tk.domain).cupRecs ∧
      (t.dom tk.domain).step = (s.dom tk.domain).step) ∧
  (∀ (s : State) (m k : Nat) (tk : Taken), s.ready .kresia m k 0x0A02 tk → 2 ≤ tk.f 16 1 → exec (.cupRead .kresia m k) s = .next ((s.begun .kresia m k).complete .kresia m k 0xA103)) ∧
  (∀ (s : State) (m k : Nat) (tk : Taken), s.ready .kresia m k 0x0A02 tk → tk.f 16 1 = 0 → (s.dom tk.domain).isCrown = true → ((s.dom tk.domain).cupRecs.find? fun r => r.seq = tk.f 8 4) = none → exec (.cupRead .kresia m k) s = .next ((s.begun .kresia m k).complete .kresia m k 0x9022)) ∧
  (∀ (s : State) (m k : Nat) (tk : Taken) (r : CupRec), s.ready .kresia m k 0x0A02 tk → tk.f 16 1 = 0 → (s.dom tk.domain).isCrown = true → ((s.dom tk.domain).cupRecs.find? fun r => r.seq = tk.f 8 4) = some r → exec (.cupRead .kresia m k) s = .next (((s.begun .kresia m k).toStage m (tk.f 12 4) (r.bytes tk.domain)).1.complete .kresia m k (((s.begun .kresia m k).toStage m (tk.f 12 4) (r.bytes tk.domain)).2.getD 0))) ∧
  (∀ (s : State) (m k : Nat) (tk : Taken), s.ready .kresia m k 0x0A02 tk → tk.f 16 1 = 1 → ((s.dom tk.domain).cups.find? fun q => q.step = tk.f 20 6 && q.epoch = tk.f 26 4) = none → exec (.cupRead .kresia m k) s = .next ((s.begun .kresia m k).complete .kresia m k 0x9022)) ∧
  (∀ (s : State) (m k : Nat) (tk : Taken) (q : CupPart), s.ready .kresia m k 0x0A02 tk → tk.f 16 1 = 1 → ((s.dom tk.domain).cups.find? fun q => q.step = tk.f 20 6 && q.epoch = tk.f 26 4) = some q → exec (.cupRead .kresia m k) s = .next (((s.begun .kresia m k).toStage m (tk.f 12 4) (q.sums.flatMap (leBytes 8))).1.complete .kresia m k (((s.begun .kresia m k).toStage m (tk.f 12 4) (q.sums.flatMap (leBytes 8))).2.getD 0))) ∧
  (∀ (s : State) (m k : Nat) (tk : Taken), s.ready .kresia m k 0x0A03 tk → (s.dom tk.domain).isCrown = true → ((s.dom tk.domain).cupRecs.any fun r => r.seq = tk.f 8 4) = false → exec (.cupRetire .kresia m k) s = .next ((s.begun .kresia m k).complete .kresia m k 0x9022)) ∧
  (∀ (s : State) (m k : Nat) (tk : Taken), s.ready .kresia m k 0x0A03 tk → (s.dom tk.domain).isCrown = true → ((s.dom tk.domain).cupRecs.any fun r => r.seq = tk.f 8 4) = true → exec (.cupRetire .kresia m k) s = .next (((s.begun .kresia m k).modDom tk.domain fun y => { y with cupRecs := y.cupRecs.filter fun r => tk.f 8 4 < r.seq }).complete .kresia m k 0)) ∧
  (∀ (s : State) (m k : Nat) (tk : Taken), s.ready .kresia m k 0x0A04 tk → (s.dom tk.domain).prog = none → exec (.cupShard .kresia m k) s = .next ((s.begun .kresia m k).complete .kresia m k 0x5006)) ∧
  (∀ (s : State) (m k : Nat) (tk : Taken) (g : Image), s.ready .kresia m k 0x0A04 tk → (s.dom tk.domain).prog = some g → (collCount g ≤ tk.f 8 2 ∨ cBlocked g (tk.f 8 2) = false ∨ cChunks g (tk.f 8 2) < tk.f 12 4 + tk.f 16 4) → exec (.cupShard .kresia m k) s = .next ((s.begun .kresia m k).complete .kresia m k 0x5006)) ∧
  (∀ (s : State) (m k : Nat) (tk : Taken) (g : Image), s.ready .kresia m k 0x0A04 tk → (s.dom tk.domain).prog = some g → tk.f 8 2 < collCount g → cBlocked g (tk.f 8 2) = true → tk.f 12 4 + tk.f 16 4 ≤ cChunks g (tk.f 8 2) → ((s.homeChunks (s.dom tk.domain) g (tk.f 8 2) ((s.dom tk.domain).homeStep g)).filter fun q => tk.f 12 4 ≤ q && q < tk.f 12 4 + tk.f 16 4) ≠ [] → imgEntries g = 0 → s.ks.cupChecks = [] → ∃ t, exec (.cupShard .kresia m k) s = .next t ∧ (t.mslot .kresia m k).taken = none ∧
      (t.mslot .kresia m k).comp.status = 0 ∧
      t.ks.cupChecks = [] ∧
      t.ks.shards = s.ks.shards) ∧
  (∀ (s : State) (p : Part) (m k : Nat) (tk : Taken), s.ready p m k 0x0A10 tk → (((List.range 7).map fun i => tk.f (8 + 8 * i) 8).any fun v => v ≠ 0 && !selZero v) = true → exec (.ctrRead p m k) s = .next ((s.begun p m k).complete p m k 0xA103)) ∧
  (∀ (s : State) (p : Part) (m k : Nat) (tk : Taken), s.ready p m k 0x0A10 tk → (((List.range 7).map fun i => tk.f (8 + 8 * i) 8).any fun v => v ≠ 0 && !selZero v) = false → (((List.range 7).map fun i => tk.f (8 + 8 * i) 8).any fun v => v ≠ 0 && (decide ((selOf v).part ≠ p) || (selCode (selOf v)).isSome || ((selOf v).portEn && decide (s.portsOf p ≤ (selOf v).port)))) = true → exec (.ctrRead p m k) s = .next ((s.begun p m k).complete p m k 0x2040)) ∧
  (∀ (s : State) (p : Part) (m k : Nat) (tk : Taken), s.ready p m k 0x0A10 tk → (((List.range 7).map fun i => tk.f (8 + 8 * i) 8).any fun v => v ≠ 0 && !selZero v) = false → (((List.range 7).map fun i => tk.f (8 + 8 * i) 8).any fun v => v ≠ 0 && (decide ((selOf v).part ≠ p) || (selCode (selOf v)).isSome || ((selOf v).portEn && decide (s.portsOf p ≤ (selOf v).port)))) = false → (((List.range 7).map fun i => tk.f (8 + 8 * i) 8).any fun v => v ≠ 0 && !(s.readScope p m (selOf v)).2) = true → exec (.ctrRead p m k) s = .next ((s.begun p m k).complete p m k 0x2041)) ∧
  (∀ (s : State) (p : Part) (m k : Nat) (tk : Taken), s.ready p m k 0x0A10 tk → (((List.range 7).map fun i => tk.f (8 + 8 * i) 8).any fun v => v ≠ 0 && !selZero v) = false → (((List.range 7).map fun i => tk.f (8 + 8 * i) 8).any fun v => v ≠ 0 && (decide ((selOf v).part ≠ p) || (selCode (selOf v)).isSome || ((selOf v).portEn && decide (s.portsOf p ≤ (selOf v).port)))) = false → (((List.range 7).map fun i => tk.f (8 + 8 * i) 8).any fun v => v ≠ 0 && !(s.readScope p m (selOf v)).2) = false → exec (.ctrRead p m k) s = .next ((s.begun p m k).complete p m k 0 (((List.range 7).map fun i => tk.f (8 + 8 * i) 8).flatMap fun v => leBytes 8 (if v = 0 then 0 else (s.begun p m k).selValue (selOf v) (s.readScope p m (selOf v)).1 tk.domain)))) ∧
  (∀ (s : State) (p : Part) (m k : Nat) (tk : Taken), s.ready p m k 0x0A11 tk → (tk.f 20 1 = 0 ∨ 30 < tk.f 20 1) → exec (.snapArm p m k) s = .next ((s.begun p m k).complete p m k 0xA103)) ∧
  (∀ (s : State) (m k : Nat) (tk : Taken), s.ready .baxel m k 0x0A11 tk → 1 ≤ tk.f 20 1 → tk.f 20 1 ≤ 30 → exec (.snapArm .baxel m k) s = .next ((s.begun .baxel m k).coreRead (tk.f 24 8) (8 * tk.f 20 1) (.arm m k))) ∧
  (∀ (s : State) (m k : Nat) (tk : Taken), s.ready .kresia m k 0x0A11 tk → 1 ≤ tk.f 20 1 → tk.f 20 1 ≤ 30 → tk.f 28 4 ≠ 0 → exec (.snapArm .kresia m k) s = .next ((s.begun .kresia m k).complete .kresia m k 0xA103)) ∧
  (∀ (s : State) (m k : Nat) (tk : Taken), s.ready .kresia m k 0x0A11 tk → 1 ≤ tk.f 20 1 → tk.f 20 1 ≤ 30 → tk.f 28 4 = 0 → s.stageOf m (tk.f 24 4) = none → exec (.snapArm .kresia m k) s = .next ((s.begun .kresia m k).complete .kresia m k 0xA109)) ∧
  (∀ (s : State) (m k : Nat) (tk : Taken) (area : List Byte), s.ready .kresia m k 0x0A11 tk → 1 ≤ tk.f 20 1 → tk.f 20 1 ≤ 30 → tk.f 28 4 = 0 → s.stageOf m (tk.f 24 4) = some area → exec (.snapArm .kresia m k) s = .next (if area.length < 8 * tk.f 20 1 then (s.begun .kresia m k).complete .kresia m k 0xA10A else (s.begun .kresia m k).armWith .kresia m k area)) ∧
  (∀ (s : State) (m k : Nat) (tk : Taken), s.ready .kresia m k 0x0A12 tk → (match s.readStore .kresia tk.domain with | some key => (s.snapStore .kresia key).recs.find? fun r => r.snapSeq = tk.f 8 4 | none => none) = none → exec (.snapRead .kresia m k) s = .next ((s.begun .kresia m k).complete .kresia m k 0x2042)) ∧
  (∀ (s : State) (m k : Nat) (tk : Taken) (r : SnapRec), s.ready .kresia m k 0x0A12 tk → (match s.readStore .kresia tk.domain with | some key => (s.snapStore .kresia key).recs.find? fun r => r.snapSeq = tk.f 8 4 | none => none) = some r → exec (.snapRead .kresia m k) s = .next (if tk.f 16 4 ≠ 0 then (s.begun .kresia m k).complete .kresia m k 0xA103 else ((s.begun .kresia m k).toStage m (tk.f 12 4) r.bytes).1.complete .kresia m k (((s.begun .kresia m k).toStage m (tk.f 12 4) r.bytes).2.getD 0))) ∧
  (∀ (s : State) (m k : Nat) (tk : Taken), s.ready .baxel m k 0x0A12 tk → (match s.readStore .baxel tk.domain with | some key => (s.snapStore .baxel key).recs.find? fun r => r.snapSeq = tk.f 8 4 | none => none) = none → exec (.snapRead .baxel m k) s = .next ((s.begun .baxel m k).complete .baxel m k 0x2042)) ∧
  (∀ (s : State) (m k : Nat) (tk : Taken) (r : SnapRec), s.ready .baxel m k 0x0A12 tk → (match s.readStore .baxel tk.domain with | some key => (s.snapStore .baxel key).recs.find? fun r => r.snapSeq = tk.f 8 4 | none => none) = some r → exec (.snapRead .baxel m k) s = .next ((s.begun .baxel m k).bxWrite (tk.f 12 8) r.bytes (memTag (if m = 0 then none else some (m - 1))) (.command m k)))
end

