-- ==== Sys2Proof/Laws/State.lean ====
section
/-! SUPPORT. The small laws of the state: what each update writes and what it leaves, the sparse maps, register words and
their fields. Each field law is true by unfolding. -/

namespace Sys2Proof

/-! ### Sparse maps -/

@[simp] theorem FMap.find_set_self {α : Type} (m : FMap α) (k : Nat) (v : α) : FMap.find? (FMap.set m k v) k = some v := by
  induction m with
  | nil => simp [FMap.set, FMap.find?]
  | cons x t ih =>
    obtain ⟨j, w⟩ := x
    simp only [FMap.set]
    split
    · simp [FMap.find?]
    · split
      · simp [FMap.find?]
      · rename_i h1 h2
        simp [FMap.find?, show ¬j = k by omega, ih]

theorem FMap.find_set_ne {α : Type} (m : FMap α) {k l : Nat} (h : l ≠ k) (v : α) :
    FMap.find? (FMap.set m k v) l = FMap.find? m l := by
  induction m with
  | nil => simp [FMap.set, FMap.find?, show ¬k = l by omega]
  | cons x t ih =>
    obtain ⟨j, w⟩ := x
    simp only [FMap.set]
    split
    · simp [FMap.find?, show ¬k = l by omega]
    · split
      · rename_i h1 h2
        simp [FMap.find?, show ¬k = l by omega, show ¬j = l by omega]
      · simp only [FMap.find?, ih]

@[simp] theorem FMap.getD_set_self {α : Type} (m : FMap α) (k : Nat) (v d : α) : FMap.getD (FMap.set m k v) k d = v := by
  simp [FMap.getD]

theorem FMap.getD_set_ne {α : Type} (m : FMap α) {k l : Nat} (h : l ≠ k) (v d : α) :
    FMap.getD (FMap.set m k v) l d = FMap.getD m l d := by
  simp [FMap.getD, FMap.find_set_ne m h]

@[simp] theorem FMap.getD_update_self {α : Type} (m : FMap α) (k : Nat) (d : α) (f : α → α) :
    FMap.getD (FMap.update m k d f) k d = f (FMap.getD m k d) := by
  simp [FMap.update]

theorem FMap.getD_update_ne {α : Type} (m : FMap α) {k l : Nat} (h : l ≠ k) (d e : α) (f : α → α) :
    FMap.getD (FMap.update m k d f) l e = FMap.getD m l e := by
  simp [FMap.update, FMap.getD_set_ne m h]

@[simp] theorem FMap.find_erase_self {α : Type} (m : FMap α) (k : Nat) : FMap.find? (FMap.erase m k) k = none := by
  induction m with
  | nil => rfl
  | cons x t ih =>
    obtain ⟨j, w⟩ := x
    simp only [FMap.erase]
    split
    · exact ih
    · simp [FMap.find?, ‹¬j = k›, ih]

theorem FMap.find_erase_ne {α : Type} (m : FMap α) {k l : Nat} (h : l ≠ k) :
    FMap.find? (FMap.erase m k) l = FMap.find? m l := by
  induction m with
  | nil => rfl
  | cons x t ih =>
    obtain ⟨j, w⟩ := x
    simp only [FMap.erase]
    split
    · simp [FMap.find?, show ¬j = l by omega, ih]
    · simp only [FMap.find?, ih]

/-! ### Fields of a word -/

theorem Word.put_toNat (w : Word) {lo len : Nat} (h : lo + len ≤ 32) (v : Nat) :
    (w.put lo len v).toNat = w.toNat - (w.toNat / 2 ^ lo % 2 ^ len) * 2 ^ lo + v % 2 ^ len * 2 ^ lo := by
  have hw := w.isLt
  have hp : 2 ^ lo * 2 ^ len ≤ 2 ^ 32 := by
    rw [← Nat.pow_add]
    exact Nat.pow_le_pow_right (by norm_num) h
  have hl : 0 < 2 ^ lo := by positivity
  have hn : 0 < 2 ^ len := by positivity
  simp only [Word.put, Word.get, BitVec.toNat_ofNat, Nat.shiftRight_eq_div_pow, Nat.shiftLeft_eq]
  apply Nat.mod_eq_of_lt
  set a := 2 ^ lo
  set b := 2 ^ len
  have e1 : w.toNat = a * b * (w.toNat / (a * b)) + w.toNat % (a * b) := (Nat.div_add_mod _ _).symm
  have e2 : w.toNat % (a * b) = a * (w.toNat / a % b) + w.toNat % a := by rw [Nat.mod_mul]; ring
  have e3 : w.toNat / (a * b) < 2 ^ 32 / (a * b) := by
    apply Nat.div_lt_div_of_lt_of_dvd
    · show a * b ∣ 2 ^ 32
      rw [← Nat.pow_add]
      exact Nat.pow_dvd_pow 2 h
    · exact hw
  have e4 : a * b * (2 ^ 32 / (a * b)) = 2 ^ 32 := Nat.mul_div_cancel' (by rw [← Nat.pow_add]; exact Nat.pow_dvd_pow 2 h)
  have e5 : a * b * (w.toNat / (a * b)) + a * b ≤ 2 ^ 32 := by
    calc a * b * (w.toNat / (a * b)) + a * b = a * b * (w.toNat / (a * b) + 1) := by ring
      _ ≤ a * b * (2 ^ 32 / (a * b)) := Nat.mul_le_mul_left _ e3
      _ = 2 ^ 32 := e4
  have e6 : v % b * a + a ≤ a * b := by
    calc v % b * a + a = (v % b + 1) * a := by ring
      _ ≤ b * a := Nat.mul_le_mul_right _ (Nat.mod_lt _ hn)
      _ = a * b := by ring
  have e7 := Nat.mod_lt w.toNat hl
  have e8 : w.toNat / a % b * a = a * (w.toNat / a % b) := by ring
  omega

/-- A field written reads back, modulo its width. -/
theorem Word.get_put_self (w : Word) {lo len : Nat} (h : lo + len ≤ 32) (v : Nat) : (w.put lo len v).get lo len = v % 2 ^ len := by
  have hl : 0 < 2 ^ lo := by positivity
  have hn : 0 < 2 ^ len := by positivity
  rw [Word.get, Nat.shiftRight_eq_div_pow, Word.put_toNat w h v]
  set a := 2 ^ lo
  set b := 2 ^ len
  have e1 : w.toNat = a * b * (w.toNat / (a * b)) + w.toNat % (a * b) := (Nat.div_add_mod _ _).symm
  have e2 : w.toNat % (a * b) = a * (w.toNat / a % b) + w.toNat % a := by rw [Nat.mod_mul]; ring
  have e3 : w.toNat - w.toNat / a % b * a + v % b * a = w.toNat % a + a * (b * (w.toNat / (a * b)) + v % b) := by
    have e8 : w.toNat / a % b * a = a * (w.toNat / a % b) := by ring
    have e9 : a * (b * (w.toNat / (a * b)) + v % b) = a * b * (w.toNat / (a * b)) + v % b * a := by ring
    omega
  rw [e3, Nat.add_mul_div_left _ _ hl, Nat.div_eq_of_lt (Nat.mod_lt _ hl), Nat.zero_add, Nat.mul_add_mod, Nat.mod_mod]

/-- A field written above another leaves it. -/
theorem Word.get_put_above (w : Word) {lo len a n : Nat} (h : lo + len ≤ 32) (hd : a + n ≤ lo) (v : Nat) :
    (w.put lo len v).get a n = w.get a n := by
  have hl : 0 < 2 ^ lo := by positivity
  simp only [Word.get, Nat.shiftRight_eq_div_pow, Word.put_toNat w h v]
  have hle : w.toNat / 2 ^ lo % 2 ^ len * 2 ^ lo ≤ w.toNat := by
    calc w.toNat / 2 ^ lo % 2 ^ len * 2 ^ lo ≤ w.toNat / 2 ^ lo * 2 ^ lo := Nat.mul_le_mul_right _ (Nat.mod_le _ _)
      _ ≤ w.toNat := Nat.div_mul_le_self _ _
  obtain ⟨c, hc⟩ : ∃ c, 2 ^ lo = 2 ^ a * (2 ^ n * c) := ⟨2 ^ (lo - a - n), by rw [← Nat.pow_add, ← Nat.pow_add]; congr 1; omega⟩
  set u := w.toNat - w.toNat / 2 ^ lo % 2 ^ len * 2 ^ lo with hu
  have e1 : w.toNat = u + 2 ^ a * (2 ^ n * (c * (w.toNat / 2 ^ lo % 2 ^ len))) := by
    have : w.toNat / 2 ^ lo % 2 ^ len * 2 ^ lo = 2 ^ a * (2 ^ n * (c * (w.toNat / 2 ^ lo % 2 ^ len))) := by rw [hc]; ring
    omega
  have e2 : v % 2 ^ len * 2 ^ lo = 2 ^ a * (2 ^ n * (c * (v % 2 ^ len))) := by rw [hc]; ring
  have ha : 0 < 2 ^ a := by positivity
  rw [e2, Nat.add_mul_div_left _ _ ha, Nat.add_mul_mod_self_left]
  conv_rhs => rw [e1, Nat.add_mul_div_left _ _ ha, Nat.add_mul_mod_self_left]

namespace Machine

/-! ### The parts and their units -/

@[simp] theorem State.pc_baxel (s : State) : s.pc .baxel = s.bx.c := rfl
@[simp] theorem State.pc_kresia (s : State) : s.pc .kresia = s.ks.c := rfl
@[simp] theorem State.modBx_bx (s : State) (f : Baxel → Baxel) : (s.modBx f).bx = f s.bx := rfl
@[simp] theorem State.modBx_ks (s : State) (f : Baxel → Baxel) : (s.modBx f).ks = s.ks := rfl
@[simp] theorem State.modBx_pending (s : State) (f : Baxel → Baxel) : (s.modBx f).pending = s.pending := rfl
@[simp] theorem State.modBx_out (s : State) (f : Baxel → Baxel) : (s.modBx f).out = s.out := rfl
@[simp] theorem State.modBx_free (s : State) (f : Baxel → Baxel) : (s.modBx f).free = s.free := rfl
@[simp] theorem State.modKs_bx (s : State) (f : Kresia → Kresia) : (s.modKs f).bx = s.bx := rfl
@[simp] theorem State.modKs_ks (s : State) (f : Kresia → Kresia) : (s.modKs f).ks = f s.ks := rfl
@[simp] theorem State.modKs_pending (s : State) (f : Kresia → Kresia) : (s.modKs f).pending = s.pending := rfl
@[simp] theorem State.modKs_out (s : State) (f : Kresia → Kresia) : (s.modKs f).out = s.out := rfl
@[simp] theorem State.modKs_free (s : State) (f : Kresia → Kresia) : (s.modKs f).free = s.free := rfl
@[simp] theorem State.emit_bx (s : State) (o : Out) : (s.emit o).bx = s.bx := rfl
@[simp] theorem State.emit_ks (s : State) (o : Out) : (s.emit o).ks = s.ks := rfl
@[simp] theorem State.emit_pending (s : State) (o : Out) : (s.emit o).pending = s.pending := rfl
@[simp] theorem State.emit_out (s : State) (o : Out) : (s.emit o).out = o :: s.out := rfl
@[simp] theorem State.emit_free (s : State) (o : Out) : (s.emit o).free = s.free := rfl
@[simp] theorem State.popped_bx (s : State)  : (s.popped).bx = s.bx := rfl
@[simp] theorem State.popped_ks (s : State)  : (s.popped).ks = s.ks := rfl
@[simp] theorem State.popped_pending (s : State)  : (s.popped).pending = s.pending.tail := rfl
@[simp] theorem State.popped_out (s : State)  : (s.popped).out = s.out := rfl
@[simp] theorem State.popped_free (s : State)  : (s.popped).free = s.free := rfl
@[simp] theorem State.pushFront_bx (s : State) (c : Instr) : (s.pushFront c).bx = s.bx := rfl
@[simp] theorem State.pushFront_ks (s : State) (c : Instr) : (s.pushFront c).ks = s.ks := rfl
@[simp] theorem State.pushFront_pending (s : State) (c : Instr) : (s.pushFront c).pending = c :: s.pending := rfl
@[simp] theorem State.pushFront_out (s : State) (c : Instr) : (s.pushFront c).out = s.out := rfl
@[simp] theorem State.pushFront_free (s : State) (c : Instr) : (s.pushFront c).free = s.free := rfl
@[simp] theorem State.modPc_pending (s : State) (p : Part) (f : Common → Common) : (s.modPc p f).pending = s.pending := by cases p <;> rfl
@[simp] theorem State.modPc_out (s : State) (p : Part) (f : Common → Common) : (s.modPc p f).out = s.out := by cases p <;> rfl
@[simp] theorem State.modPc_free (s : State) (p : Part) (f : Common → Common) : (s.modPc p f).free = s.free := by cases p <;> rfl
@[simp] theorem State.modPc_pc (s : State) (p : Part) (f : Common → Common) : (s.modPc p f).pc p = f (s.pc p) := by cases p <;> rfl
@[simp] theorem State.modPc_baxel_ks (s : State) (f : Common → Common) : (s.modPc .baxel f).ks = s.ks := rfl
@[simp] theorem State.modPc_kresia_bx (s : State) (f : Common → Common) : (s.modPc .kresia f).bx = s.bx := rfl
@[simp] theorem State.modTime_pending (s : State) (p : Part) (f : TimeUnit → TimeUnit) : (s.modTime p f).pending = s.pending := by cases p <;> rfl
@[simp] theorem State.modTime_out (s : State) (p : Part) (f : TimeUnit → TimeUnit) : (s.modTime p f).out = s.out := by cases p <;> rfl
@[simp] theorem State.modTime_free (s : State) (p : Part) (f : TimeUnit → TimeUnit) : (s.modTime p f).free = s.free := by cases p <;> rfl
@[simp] theorem State.modTime_pc (s : State) (p : Part) (f : TimeUnit → TimeUnit) : (s.modTime p f).pc p = { s.pc p with time := f (s.pc p).time } := by cases p <;> rfl
@[simp] theorem State.modTime_baxel_ks (s : State) (f : TimeUnit → TimeUnit) : (s.modTime .baxel f).ks = s.ks := rfl
@[simp] theorem State.modTime_kresia_bx (s : State) (f : TimeUnit → TimeUnit) : (s.modTime .kresia f).bx = s.bx := rfl
@[simp] theorem State.rd_modTime (s : State) (p q : Part) (f : TimeUnit → TimeUnit) (a : Nat) : (s.modTime p f).rd q a = s.rd q a := by cases p <;> cases q <;> rfl
@[simp] theorem State.modStamp_pending (s : State) (p : Part) (f : StampUnit → StampUnit) : (s.modStamp p f).pending = s.pending := by cases p <;> rfl
@[simp] theorem State.modStamp_out (s : State) (p : Part) (f : StampUnit → StampUnit) : (s.modStamp p f).out = s.out := by cases p <;> rfl
@[simp] theorem State.modStamp_free (s : State) (p : Part) (f : StampUnit → StampUnit) : (s.modStamp p f).free = s.free := by cases p <;> rfl
@[simp] theorem State.modStamp_pc (s : State) (p : Part) (f : StampUnit → StampUnit) : (s.modStamp p f).pc p = { s.pc p with stamp := f (s.pc p).stamp } := by cases p <;> rfl
@[simp] theorem State.modStamp_baxel_ks (s : State) (f : StampUnit → StampUnit) : (s.modStamp .baxel f).ks = s.ks := rfl
@[simp] theorem State.modStamp_kresia_bx (s : State) (f : StampUnit → StampUnit) : (s.modStamp .kresia f).bx = s.bx := rfl
@[simp] theorem State.rd_modStamp (s : State) (p q : Part) (f : StampUnit → StampUnit) (a : Nat) : (s.modStamp p f).rd q a = s.rd q a := by cases p <;> cases q <;> rfl
@[simp] theorem State.modCtr_pending (s : State) (p : Part) (f : CtrUnit → CtrUnit) : (s.modCtr p f).pending = s.pending := by cases p <;> rfl
@[simp] theorem State.modCtr_out (s : State) (p : Part) (f : CtrUnit → CtrUnit) : (s.modCtr p f).out = s.out := by cases p <;> rfl
@[simp] theorem State.modCtr_free (s : State) (p : Part) (f : CtrUnit → CtrUnit) : (s.modCtr p f).free = s.free := by cases p <;> rfl
@[simp] theorem State.modCtr_pc (s : State) (p : Part) (f : CtrUnit → CtrUnit) : (s.modCtr p f).pc p = { s.pc p with ctr := f (s.pc p).ctr } := by cases p <;> rfl
@[simp] theorem State.modCtr_baxel_ks (s : State) (f : CtrUnit → CtrUnit) : (s.modCtr .baxel f).ks = s.ks := rfl
@[simp] theorem State.modCtr_kresia_bx (s : State) (f : CtrUnit → CtrUnit) : (s.modCtr .kresia f).bx = s.bx := rfl
@[simp] theorem State.rd_modCtr (s : State) (p q : Part) (f : CtrUnit → CtrUnit) (a : Nat) : (s.modCtr p f).rd q a = s.rd q a := by cases p <;> cases q <;> rfl
@[simp] theorem State.modFw_pending (s : State) (p : Part) (f : Firmware → Firmware) : (s.modFw p f).pending = s.pending := by cases p <;> rfl
@[simp] theorem State.modFw_out (s : State) (p : Part) (f : Firmware → Firmware) : (s.modFw p f).out = s.out := by cases p <;> rfl
@[simp] theorem State.modFw_free (s : State) (p : Part) (f : Firmware → Firmware) : (s.modFw p f).free = s.free := by cases p <;> rfl
@[simp] theorem State.modFw_pc (s : State) (p : Part) (f : Firmware → Firmware) : (s.modFw p f).pc p = { s.pc p with fw := f (s.pc p).fw } := by cases p <;> rfl
@[simp] theorem State.modFw_baxel_ks (s : State) (f : Firmware → Firmware) : (s.modFw .baxel f).ks = s.ks := rfl
@[simp] theorem State.modFw_kresia_bx (s : State) (f : Firmware → Firmware) : (s.modFw .kresia f).bx = s.bx := rfl
@[simp] theorem State.rd_modFw (s : State) (p q : Part) (f : Firmware → Firmware) (a : Nat) : (s.modFw p f).rd q a = s.rd q a := by cases p <;> cases q <;> rfl
@[simp] theorem State.pc_emit (s : State) (o : Out) (p : Part) : (s.emit o).pc p = s.pc p := by cases p <;> rfl
@[simp] theorem State.rd_emit (s : State) (o : Out) (p : Part) (a : Nat) : (s.emit o).rd p a = s.rd p a := by cases p <;> rfl
@[simp] theorem State.pc_popped (s : State)  (p : Part) : (s.popped).pc p = s.pc p := by cases p <;> rfl
@[simp] theorem State.rd_popped (s : State)  (p : Part) (a : Nat) : (s.popped).rd p a = s.rd p a := by cases p <;> rfl
@[simp] theorem State.pc_pushFront (s : State) (c : Instr) (p : Part) : (s.pushFront c).pc p = s.pc p := by cases p <;> rfl
@[simp] theorem State.rd_pushFront (s : State) (c : Instr) (p : Part) (a : Nat) : (s.pushFront c).rd p a = s.rd p a := by cases p <;> rfl

/-! ### Register words -/

@[simp] theorem State.rd_wr_self (s : State) (p : Part) (a : Nat) (v : Word) : (s.wr p a v).rd p a = v := by
  cases p <;> simp [State.rd, State.wr, State.modPc]

theorem State.rd_wr_ne (s : State) (p : Part) {a b : Nat} (h : b ≠ a) (v : Word) : (s.wr p a v).rd p b = s.rd p b := by
  cases p <;> simp [State.rd, State.wr, State.modPc, FMap.getD_set_ne _ h]

theorem State.rd_wr_part (s : State) {p q : Part} (h : q ≠ p) (a b : Nat) (v : Word) : (s.wr p a v).rd q b = s.rd q b := by
  cases p <;> cases q <;> first | rfl | contradiction

@[simp] theorem State.wr_pending (s : State) (p : Part) (a : Nat) (v : Word) : (s.wr p a v).pending = s.pending := by cases p <;> rfl
@[simp] theorem State.wr_out (s : State) (p : Part) (a : Nat) (v : Word) : (s.wr p a v).out = s.out := by cases p <;> rfl
@[simp] theorem State.wr_free (s : State) (p : Part) (a : Nat) (v : Word) : (s.wr p a v).free = s.free := by cases p <;> rfl
@[simp] theorem State.setFld_out (s : State) (p : Part) (a lo len v : Nat) : (s.setFld p a lo len v).out = s.out := by cases p <;> rfl
@[simp] theorem State.setBit_out (s : State) (p : Part) (a i : Nat) (b : Bool) : (s.setBit p a i b).out = s.out := by cases p <;> rfl

/-- A field of a register written reads back, modulo its width. -/
theorem State.fld_setFld_self (s : State) (p : Part) (a : Nat) {lo len : Nat} (h : lo + len ≤ 32) (v : Nat) :
    (s.setFld p a lo len v).fld p a lo len = v % 2 ^ len := by
  simp [State.fld, State.setFld, Word.get_put_self _ h]

theorem State.rd_setFld_ne (s : State) (p : Part) {a b : Nat} (h : b ≠ a) (lo len v : Nat) :
    (s.setFld p a lo len v).rd p b = s.rd p b := by
  simp [State.setFld, State.rd_wr_ne s p h]

/-- A bit of a register written reads back. -/
@[simp] theorem State.bit_setBit_self (s : State) (p : Part) (a : Nat) (i : Fin 32) (b : Bool) : (s.setBit p a i b).bit p a i = b := by
  have h : (i : Nat) + 1 ≤ 32 := i.isLt
  cases b <;> simp [State.bit, State.setBit, State.fld_setFld_self _ _ _ h]

end Machine

end Sys2Proof
end

