-- ==== Sys2Proof/Laws/Units.lean ====
section
/-! SUPPORT. What the small operations on registers and counters leave: every field of the two parts beside the register
file, one lemma a field and operation. -/

namespace Sys2Proof.Machine

/-- Things driven out one after another change neither part. -/
theorem State.foldl_emit_bx {α : Type} (g : α → Out) (l : List α) (s : State) : (l.foldl (fun s q => s.emit (g q)) s).bx = s.bx := by
  induction l generalizing s with
  | nil => rfl
  | cons x t ih => simpa using ih (s.emit (g x))
theorem State.foldl_emit_ks {α : Type} (g : α → Out) (l : List α) (s : State) : (l.foldl (fun s q => s.emit (g q)) s).ks = s.ks := by
  induction l generalizing s with
  | nil => rfl
  | cons x t ih => simpa using ih (s.emit (g x))
theorem State.foldl_emit_free {α : Type} (g : α → Out) (l : List α) (s : State) : (l.foldl (fun s q => s.emit (g q)) s).free = s.free := by
  induction l generalizing s with
  | nil => rfl
  | cons x t ih => simpa using ih (s.emit (g x))
theorem State.foldl_emit_pending {α : Type} (g : α → Out) (l : List α) (s : State) : (l.foldl (fun s q => s.emit (g q)) s).pending = s.pending := by
  induction l generalizing s with
  | nil => rfl
  | cons x t ih => simpa using ih (s.emit (g x))
@[simp] theorem State.mboxIrq_bx (s : State) (p : Part) (m : Nat) : (s.mboxIrq p m).bx = s.bx := by
  unfold State.mboxIrq; split_ifs <;> cases p <;> simp
@[simp] theorem State.mboxIrq_free (s : State) (p : Part) (m : Nat) : (s.mboxIrq p m).free = s.free := by
  unfold State.mboxIrq; split_ifs <;> cases p <;> simp
@[simp] theorem State.mboxIrq_pending (s : State) (p : Part) (m : Nat) : (s.mboxIrq p m).pending = s.pending := by
  unfold State.mboxIrq; split_ifs <;> cases p <;> simp
@[simp] theorem State.mboxIrq_ks (s : State) (p : Part) (m : Nat) : (s.mboxIrq p m).ks = s.ks := by
  unfold State.mboxIrq; split_ifs <;> cases p <;> simp
@[simp] theorem State.faultCode_bx (s : State) (op : Nat) (st : Code) : (s.faultCode op st).bx = s.bx := by
  unfold State.faultCode; split_ifs <;> rfl
@[simp] theorem State.faultCode_fw (s : State) (op : Nat) (st : Code) (q : Part) : ((s.faultCode op st).pc q).fw = (s.pc q).fw := by
  unfold State.faultCode; split_ifs <;> cases q <;> rfl
theorem State.faultCode_congr {s t : State} (op : Nat) (st : Code) (h : s.ks = t.ks) : (s.faultCode op st).ks = (t.faultCode op st).ks := by
  unfold State.faultCode; split_ifs
  · simp only [State.setFld, State.wr, State.modPc, State.rd, State.pc, h]
  · exact h
theorem State.complete_bx (s : State) (p : Part) (m k : Nat) (st : Code) (r i : List Byte) (tk : Taken) (h : (s.mslot p m k).taken = some tk) :
    (s.complete p m k st r i).bx = (s.modMslot p m k fun x => { x with
      comp := ⟨tk.op, tk.seq, st, true, r, i⟩, taken := none, window := if p = .kresia then putBytes x.window i else x.window }).bx := by
  unfold State.complete; rw [h]; dsimp only; rw [State.foldl_emit_bx]; split_ifs <;> simp_all [Taken.op, Taken.seq]
theorem State.complete_ks (s : State) (p : Part) (m k : Nat) (st : Code) (r i : List Byte) (tk : Taken) (h : (s.mslot p m k).taken = some tk) :
    (s.complete p m k st r i).ks = ((fun t : State => if p = .kresia then t.faultCode tk.op st else t) (s.modMslot p m k fun x => { x with
      comp := ⟨tk.op, tk.seq, st, true, r, i⟩, taken := none, window := if p = .kresia then putBytes x.window i else x.window })).ks := by
  unfold State.complete; rw [h]; dsimp only; rw [State.foldl_emit_ks]; cases p
  · simp [Taken.op, Taken.seq]
  · simp only [if_true]
    exact State.faultCode_congr _ _ (State.mboxIrq_ks _ _ _)
theorem State.mslot_modMslot (s : State) (p : Part) (m k : Nat) (f : MSlot → MSlot) :
    (s.modMslot p m k f).mslot p m k = f (s.mslot p m k) := by
  cases p <;> simp [State.modMslot, State.modMbox, State.modFw, State.modPc, State.mslot, State.mbox, State.pc, State.modBx, State.modKs, FMap.update, FMap.getD]
/-- R379: what a completion leaves in its slot. -/
theorem State.complete_answered (s : State) (p : Part) (m k : Nat) (st : Code) (r i : List Byte) (tk : Taken)
    (h : (s.mslot p m k).taken = some tk) : (s.complete p m k st r i).answered p m k tk st r i := by
  have key : (s.complete p m k st r i).mslot p m k = (s.modMslot p m k fun x => { x with
      comp := ⟨tk.op, tk.seq, st, true, r, i⟩, taken := none, window := if p = .kresia then putBytes x.window i else x.window }).mslot p m k := by
    cases p
    · show FMap.getD (FMap.getD (s.complete .baxel m k st r i).bx.c.fw.mailboxes m {}).slots k {} = _
      rw [State.complete_bx s _ m k st r i tk h]; rfl
    · show FMap.getD (FMap.getD (s.complete .kresia m k st r i).ks.c.fw.mailboxes m {}).slots k {} = _
      rw [State.complete_ks s _ m k st r i tk h]; simp only [if_true, State.faultCode]; split_ifs <;> rfl
  constructor <;> rw [key, State.mslot_modMslot]
/-- A command whose turn has come is started and does its work. -/
theorem State.serve_ready (s : State) (p : Part) (m k op : Nat) (tk : Taken) (f : State → Taken → State) (h : s.ready p m k op tk) :
    s.serve p m k op f = f (s.begun p m k) { tk with started := true } := by
  obtain ⟨h1, h2, h3⟩ := h
  simp [State.serve, h1, h2, h3, State.begun]
theorem State.begun_taken (s : State) (p : Part) (m k op : Nat) (tk : Taken) (h : s.ready p m k op tk) :
    ((s.begun p m k).mslot p m k).taken = some { tk with started := true } := by
  simp [State.begun, h.1, State.mslot_modMslot]
/-- R383: a command whose turn has not come changes nothing. -/
theorem State.serve_not (s : State) (p : Part) (m k op : Nat) (f : State → Taken → State) (h : ∀ tk, ¬ s.ready p m k op tk) :
    s.serve p m k op f = s := by
  unfold State.serve
  split
  · rename_i t ht
    rw [if_neg]
    intro hc
    simp only [Bool.and_eq_true, decide_eq_true_eq] at hc
    exact h t ⟨ht, hc.1, hc.2⟩
  · rfl

@[simp] theorem State.setFld_free (s : State) (p : Part) (a lo len v : Nat) : (s.setFld p a lo len v).free = s.free := by cases p <;> rfl
@[simp] theorem State.setFld_pending (s : State) (p : Part) (a lo len v : Nat) : (s.setFld p a lo len v).pending = s.pending := by cases p <;> rfl
@[simp] theorem State.setBit_free (s : State) (p : Part) (a i : Nat) (b : Bool) : (s.setBit p a i b).free = s.free := by cases p <;> rfl
@[simp] theorem State.setBit_pending (s : State) (p : Part) (a i : Nat) (b : Bool) : (s.setBit p a i b).pending = s.pending := by cases p <;> rfl
@[simp] theorem State.wr64_free (s : State) (p : Part) (a : Nat) (v : BitVec 64) : (s.wr64 p a v).free = s.free := by cases p <;> rfl
@[simp] theorem State.wr64_pending (s : State) (p : Part) (a : Nat) (v : BitVec 64) : (s.wr64 p a v).pending = s.pending := by cases p <;> rfl
@[simp] theorem State.wrOt_free (s : State) (p : Part) (a : Nat) (x : OT) : (s.wrOt p a x).free = s.free := by cases p <;> rfl
@[simp] theorem State.wrOt_pending (s : State) (p : Part) (a : Nat) (x : OT) : (s.wrOt p a x).pending = s.pending := by cases p <;> rfl
@[simp] theorem State.setCtrWord_free (s : State) (e : Ev) (v : Word) : (s.setCtrWord e v).free = s.free := by unfold State.setCtrWord; split_ifs <;> simp
@[simp] theorem State.setCtrWord_pending (s : State) (e : Ev) (v : Word) : (s.setCtrWord e v).pending = s.pending := by unfold State.setCtrWord; split_ifs <;> simp
@[simp] theorem State.tally_free (s : State) (e : Ev) (n : Nat) : (s.tally e n).free = s.free := by simp [State.tally]
@[simp] theorem State.tally_pending (s : State) (e : Ev) (n : Nat) : (s.tally e n).pending = s.pending := by simp [State.tally]
@[simp] theorem State.count_free (s : State) (e : Ev) (n : Nat) : (s.count e n).free = s.free := by unfold State.count; dsimp only; split_ifs <;> simp
@[simp] theorem State.count_pending (s : State) (e : Ev) (n : Nat) : (s.count e n).pending = s.pending := by unfold State.count; dsimp only; split_ifs <;> simp
@[simp] theorem State.irqPriv_free (s : State) (p : Part) : (s.irqPriv p).free = s.free := by cases p <;> rfl
@[simp] theorem State.irqPriv_pending (s : State) (p : Part) : (s.irqPriv p).pending = s.pending := by cases p <;> rfl
@[simp] theorem State.stickyTime_free (s : State) (p : Part) (a i : Nat) : (s.stickyTime p a i).free = s.free := by unfold State.stickyTime; split_ifs <;> simp
@[simp] theorem State.stickyTime_pending (s : State) (p : Part) (a i : Nat) : (s.stickyTime p a i).pending = s.pending := by unfold State.stickyTime; split_ifs <;> simp
@[simp] theorem State.viewRefused_free (s : State) (p : Part) (v : View) (a : Nat) : (s.viewRefused p v a).free = s.free := by unfold State.viewRefused; split <;> simp
@[simp] theorem State.viewRefused_pending (s : State) (p : Part) (v : View) (a : Nat) : (s.viewRefused p v a).pending = s.pending := by unfold State.viewRefused; split <;> simp
@[simp] theorem State.sample_free (s : State) (p : Part) (ev : Nat) (d : Int) (port ten dom cls : Option Nat) : (s.sample p ev d port ten dom cls).free = s.free := by simp [State.sample]
@[simp] theorem State.sample_pending (s : State) (p : Part) (ev : Nat) (d : Int) (port ten dom cls : Option Nat) : (s.sample p ev d port ten dom cls).pending = s.pending := by simp [State.sample]
@[simp] theorem State.modMslot_free (s : State) (p : Part) (m k : Nat) (g : MSlot → MSlot) : (s.modMslot p m k g).free = s.free := by cases p <;> rfl
@[simp] theorem State.modMslot_pending (s : State) (p : Part) (m k : Nat) (g : MSlot → MSlot) : (s.modMslot p m k g).pending = s.pending := by cases p <;> rfl
@[simp] theorem State.modMbox_free (s : State) (p : Part) (m : Nat) (g : Mailbox → Mailbox) : (s.modMbox p m g).free = s.free := by cases p <;> rfl
@[simp] theorem State.modMbox_pending (s : State) (p : Part) (m : Nat) (g : Mailbox → Mailbox) : (s.modMbox p m g).pending = s.pending := by cases p <;> rfl
@[simp] theorem State.begun_pending (s : State) (p : Part) (m k : Nat) : (s.begun p m k).pending = s.pending := by unfold State.begun; split <;> simp
@[simp] theorem State.faultCode_free (s : State) (op : Nat) (st : Code) : (s.faultCode op st).free = s.free := by unfold State.faultCode; split_ifs <;> simp
@[simp] theorem State.faultCode_pending (s : State) (op : Nat) (st : Code) : (s.faultCode op st).pending = s.pending := by unfold State.faultCode; split_ifs <;> simp
@[simp] theorem State.complete_free (s : State) (p : Part) (m k : Nat) (st : Code) (r i : List Byte) : (s.complete p m k st r i).free = s.free := by cases h : (s.mslot p m k).taken with | none => simp [State.complete, h] | some tk => cases p <;> simp [State.complete, h, State.foldl_emit_free]
@[simp] theorem State.complete_pending (s : State) (p : Part) (m k : Nat) (st : Code) (r i : List Byte) : (s.complete p m k st r i).pending = s.pending := by cases h : (s.mslot p m k).taken with | none => simp [State.complete, h] | some tk => cases p <;> simp [State.complete, h, State.foldl_emit_pending]
@[simp] theorem State.queueEvent_free (s : State) (r : EventRec) : (s.queueEvent r).free = s.free := by unfold State.queueEvent; dsimp only; split_ifs <;> simp
@[simp] theorem State.queueEvent_pending (s : State) (r : EventRec) : (s.queueEvent r).pending = s.pending := by unfold State.queueEvent; dsimp only; split_ifs <;> simp
@[simp] theorem State.report_free (s : State) (p : Part) (code : Code) (dt : List Nat) (port : Nat) (sub dom : Option Nat) : (s.report p code dt port sub dom).free = s.free := by unfold State.report; cases p <;> simp
@[simp] theorem State.report_pending (s : State) (p : Part) (code : Code) (dt : List Nat) (port : Nat) (sub dom : Option Nat) : (s.report p code dt port sub dom).pending = s.pending := by unfold State.report; cases p <;> simp
@[simp] theorem State.wr64_out (s : State) (p : Part) (a : Nat) (v : BitVec 64) : (s.wr64 p a v).out = s.out := by cases p <;> rfl
@[simp] theorem State.wrOt_out (s : State) (p : Part) (a : Nat) (x : OT) : (s.wrOt p a x).out = s.out := by cases p <;> rfl
@[simp] theorem State.viewRefused_out (s : State) (p : Part) (v : View) (a : Nat) : (s.viewRefused p v a).out = s.out := by unfold State.viewRefused; split <;> simp
@[simp] theorem State.sample_out (s : State) (p : Part) (ev : Nat) (d : Int) (port ten dom cls : Option Nat) : (s.sample p ev d port ten dom cls).out = s.out := by simp [State.sample]
@[simp] theorem State.modMslot_out (s : State) (p : Part) (m k : Nat) (g : MSlot → MSlot) : (s.modMslot p m k g).out = s.out := by cases p <;> rfl
@[simp] theorem State.modMbox_out (s : State) (p : Part) (m : Nat) (g : Mailbox → Mailbox) : (s.modMbox p m g).out = s.out := by cases p <;> rfl
@[simp] theorem State.modPc_bx_straps (s : State) (p : Part) (g : Common → Common) : (s.modPc p g).bx.straps = s.bx.straps := by cases p <;> rfl
@[simp] theorem State.modPc_bx_refclkLost (s : State) (p : Part) (g : Common → Common) : (s.modPc p g).bx.refclkLost = s.bx.refclkLost := by cases p <;> rfl
@[simp] theorem State.modPc_bx_fenced (s : State) (p : Part) (g : Common → Common) : (s.modPc p g).bx.fenced = s.bx.fenced := by cases p <;> rfl
@[simp] theorem State.modPc_bx_fenceSeq (s : State) (p : Part) (g : Common → Common) : (s.modPc p g).bx.fenceSeq = s.bx.fenceSeq := by cases p <;> rfl
@[simp] theorem State.modPc_bx_prior (s : State) (p : Part) (g : Common → Common) : (s.modPc p g).bx.prior = s.bx.prior := by cases p <;> rfl
@[simp] theorem State.modPc_bx_reportSeq (s : State) (p : Part) (g : Common → Common) : (s.modPc p g).bx.reportSeq = s.bx.reportSeq := by cases p <;> rfl
@[simp] theorem State.modPc_bx_tenants (s : State) (p : Part) (g : Common → Common) : (s.modPc p g).bx.tenants = s.bx.tenants := by cases p <;> rfl
@[simp] theorem State.modPc_bx_slots (s : State) (p : Part) (g : Common → Common) : (s.modPc p g).bx.slots = s.bx.slots := by cases p <;> rfl
@[simp] theorem State.modPc_bx_objs (s : State) (p : Part) (g : Common → Common) : (s.modPc p g).bx.objs = s.bx.objs := by cases p <;> rfl
@[simp] theorem State.modPc_bx_heldTakes (s : State) (p : Part) (g : Common → Common) : (s.modPc p g).bx.heldTakes = s.bx.heldTakes := by cases p <;> rfl
@[simp] theorem State.modPc_bx_trackers (s : State) (p : Part) (g : Common → Common) : (s.modPc p g).bx.trackers = s.bx.trackers := by cases p <;> rfl
@[simp] theorem State.modPc_bx_sends (s : State) (p : Part) (g : Common → Common) : (s.modPc p g).bx.sends = s.bx.sends := by cases p <;> rfl
@[simp] theorem State.modPc_bx_writes (s : State) (p : Part) (g : Common → Common) : (s.modPc p g).bx.writes = s.bx.writes := by cases p <;> rfl
@[simp] theorem State.modPc_bx_reads (s : State) (p : Part) (g : Common → Common) : (s.modPc p g).bx.reads = s.bx.reads := by cases p <;> rfl
@[simp] theorem State.modPc_bx_v2Waits (s : State) (p : Part) (g : Common → Common) : (s.modPc p g).bx.v2Waits = s.bx.v2Waits := by cases p <;> rfl
@[simp] theorem State.modPc_bx_waitSends (s : State) (p : Part) (g : Common → Common) : (s.modPc p g).bx.waitSends = s.bx.waitSends := by cases p <;> rfl
@[simp] theorem State.modPc_bx_parts (s : State) (p : Part) (g : Common → Common) : (s.modPc p g).bx.parts = s.bx.parts := by cases p <;> rfl
@[simp] theorem State.modPc_bx_nextPart (s : State) (p : Part) (g : Common → Common) : (s.modPc p g).bx.nextPart = s.bx.nextPart := by cases p <;> rfl
@[simp] theorem State.modPc_bx_readJobs (s : State) (p : Part) (g : Common → Common) : (s.modPc p g).bx.readJobs = s.bx.readJobs := by cases p <;> rfl
@[simp] theorem State.modPc_bx_nextJob (s : State) (p : Part) (g : Common → Common) : (s.modPc p g).bx.nextJob = s.bx.nextJob := by cases p <;> rfl
@[simp] theorem State.modPc_bx_bases (s : State) (p : Part) (g : Common → Common) : (s.modPc p g).bx.bases = s.bx.bases := by cases p <;> rfl
@[simp] theorem State.modPc_ks_build (s : State) (p : Part) (g : Common → Common) : (s.modPc p g).ks.build = s.ks.build := by cases p <;> rfl
@[simp] theorem State.modPc_ks_lostPlanes (s : State) (p : Part) (g : Common → Common) : (s.modPc p g).ks.lostPlanes = s.ks.lostPlanes := by cases p <;> rfl
@[simp] theorem State.modPc_ks_fences (s : State) (p : Part) (g : Common → Common) : (s.modPc p g).ks.fences = s.ks.fences := by cases p <;> rfl
@[simp] theorem State.modPc_ks_strapFb (s : State) (p : Part) (g : Common → Common) : (s.modPc p g).ks.strapFb = s.ks.strapFb := by cases p <;> rfl
@[simp] theorem State.modPc_ks_pcieEn (s : State) (p : Part) (g : Common → Common) : (s.modPc p g).ks.pcieEn = s.ks.pcieEn := by cases p <;> rfl
@[simp] theorem State.modPc_ks_pins (s : State) (p : Part) (g : Common → Common) : (s.modPc p g).ks.pins = s.ks.pins := by cases p <;> rfl
@[simp] theorem State.modPc_ks_tripped (s : State) (p : Part) (g : Common → Common) : (s.modPc p g).ks.tripped = s.ks.tripped := by cases p <;> rfl
@[simp] theorem State.modPc_ks_memFailed (s : State) (p : Part) (g : Common → Common) : (s.modPc p g).ks.memFailed = s.ks.memFailed := by cases p <;> rfl
@[simp] theorem State.modPc_ks_memErrors (s : State) (p : Part) (g : Common → Common) : (s.modPc p g).ks.memErrors = s.ks.memErrors := by cases p <;> rfl
@[simp] theorem State.modPc_ks_brimFailed (s : State) (p : Part) (g : Common → Common) : (s.modPc p g).ks.brimFailed = s.ks.brimFailed := by cases p <;> rfl
@[simp] theorem State.modPc_ks_coolantSince (s : State) (p : Part) (g : Common → Common) : (s.modPc p g).ks.coolantSince = s.ks.coolantSince := by cases p <;> rfl
@[simp] theorem State.modPc_ks_coolantTold (s : State) (p : Part) (g : Common → Common) : (s.modPc p g).ks.coolantTold = s.ks.coolantTold := by cases p <;> rfl
@[simp] theorem State.modPc_ks_lastCoolant (s : State) (p : Part) (g : Common → Common) : (s.modPc p g).ks.lastCoolant = s.ks.lastCoolant := by cases p <;> rfl
@[simp] theorem State.modPc_ks_lastThrottle (s : State) (p : Part) (g : Common → Common) : (s.modPc p g).ks.lastThrottle = s.ks.lastThrottle := by cases p <;> rfl
@[simp] theorem State.modPc_ks_lastAlive (s : State) (p : Part) (g : Common → Common) : (s.modPc p g).ks.lastAlive = s.ks.lastAlive := by cases p <;> rfl
@[simp] theorem State.modPc_ks_lastResend (s : State) (p : Part) (g : Common → Common) : (s.modPc p g).ks.lastResend = s.ks.lastResend := by cases p <;> rfl
@[simp] theorem State.modPc_ks_events (s : State) (p : Part) (g : Common → Common) : (s.modPc p g).ks.events = s.ks.events := by cases p <;> rfl
@[simp] theorem State.modPc_ks_evtDropped (s : State) (p : Part) (g : Common → Common) : (s.modPc p g).ks.evtDropped = s.ks.evtDropped := by cases p <;> rfl
@[simp] theorem State.modPc_ks_admitted (s : State) (p : Part) (g : Common → Common) : (s.modPc p g).ks.admitted = s.ks.admitted := by cases p <;> rfl
@[simp] theorem State.modPc_ks_aliveTold (s : State) (p : Part) (g : Common → Common) : (s.modPc p g).ks.aliveTold = s.ks.aliveTold := by cases p <;> rfl
@[simp] theorem State.modPc_ks_doms (s : State) (p : Part) (g : Common → Common) : (s.modPc p g).ks.doms = s.ks.doms := by cases p <;> rfl
@[simp] theorem State.modPc_ks_leafRecs (s : State) (p : Part) (g : Common → Common) : (s.modPc p g).ks.leafRecs = s.ks.leafRecs := by cases p <;> rfl
@[simp] theorem State.modPc_ks_chunks (s : State) (p : Part) (g : Common → Common) : (s.modPc p g).ks.chunks = s.ks.chunks := by cases p <;> rfl
@[simp] theorem State.modPc_ks_kept (s : State) (p : Part) (g : Common → Common) : (s.modPc p g).ks.kept = s.ks.kept := by cases p <;> rfl
@[simp] theorem State.modPc_ks_shards (s : State) (p : Part) (g : Common → Common) : (s.modPc p g).ks.shards = s.ks.shards := by cases p <;> rfl
@[simp] theorem State.modPc_ks_blockQ (s : State) (p : Part) (g : Common → Common) : (s.modPc p g).ks.blockQ = s.ks.blockQ := by cases p <;> rfl
@[simp] theorem State.modPc_ks_jobs (s : State) (p : Part) (g : Common → Common) : (s.modPc p g).ks.jobs = s.ks.jobs := by cases p <;> rfl
@[simp] theorem State.modPc_ks_waitJobs (s : State) (p : Part) (g : Common → Common) : (s.modPc p g).ks.waitJobs = s.ks.waitJobs := by cases p <;> rfl
@[simp] theorem State.modPc_ks_windows (s : State) (p : Part) (g : Common → Common) : (s.modPc p g).ks.windows = s.ks.windows := by cases p <;> rfl
@[simp] theorem State.modPc_ks_bases (s : State) (p : Part) (g : Common → Common) : (s.modPc p g).ks.bases = s.ks.bases := by cases p <;> rfl
@[simp] theorem State.modPc_ks_staged (s : State) (p : Part) (g : Common → Common) : (s.modPc p g).ks.staged = s.ks.staged := by cases p <;> rfl
@[simp] theorem State.modPc_ks_ckpts (s : State) (p : Part) (g : Common → Common) : (s.modPc p g).ks.ckpts = s.ks.ckpts := by cases p <;> rfl
@[simp] theorem State.modPc_ks_fills (s : State) (p : Part) (g : Common → Common) : (s.modPc p g).ks.fills = s.ks.fills := by cases p <;> rfl
@[simp] theorem State.modPc_ks_cupChecks (s : State) (p : Part) (g : Common → Common) : (s.modPc p g).ks.cupChecks = s.ks.cupChecks := by cases p <;> rfl
@[simp] theorem State.modPc_ks_shardReads (s : State) (p : Part) (g : Common → Common) : (s.modPc p g).ks.shardReads = s.ks.shardReads := by cases p <;> rfl
@[simp] theorem State.modPc_ks_grants (s : State) (p : Part) (g : Common → Common) : (s.modPc p g).ks.grants = s.ks.grants := by cases p <;> rfl
@[simp] theorem State.modPc_ks_dspLeaves (s : State) (p : Part) (g : Common → Common) : (s.modPc p g).ks.dspLeaves = s.ks.dspLeaves := by cases p <;> rfl
@[simp] theorem State.modPc_ks_dspHomes (s : State) (p : Part) (g : Common → Common) : (s.modPc p g).ks.dspHomes = s.ks.dspHomes := by cases p <;> rfl
@[simp] theorem State.modPc_ks_dspEngine (s : State) (p : Part) (g : Common → Common) : (s.modPc p g).ks.dspEngine = s.ks.dspEngine := by cases p <;> rfl
@[simp] theorem State.modPc_ks_dspQ (s : State) (p : Part) (g : Common → Common) : (s.modPc p g).ks.dspQ = s.ks.dspQ := by cases p <;> rfl
@[simp] theorem State.modPc_ks_tieReroute (s : State) (p : Part) (g : Common → Common) : (s.modPc p g).ks.tieReroute = s.ks.tieReroute := by cases p <;> rfl
@[simp] theorem State.modPc_ks_objs (s : State) (p : Part) (g : Common → Common) : (s.modPc p g).ks.objs = s.ks.objs := by cases p <;> rfl
@[simp] theorem State.modPc_ks_heldTakes (s : State) (p : Part) (g : Common → Common) : (s.modPc p g).ks.heldTakes = s.ks.heldTakes := by cases p <;> rfl
@[simp] theorem State.modPc_ks_trackers (s : State) (p : Part) (g : Common → Common) : (s.modPc p g).ks.trackers = s.ks.trackers := by cases p <;> rfl
@[simp] theorem State.modPc_ks_sends (s : State) (p : Part) (g : Common → Common) : (s.modPc p g).ks.sends = s.ks.sends := by cases p <;> rfl
@[simp] theorem State.modPc_ks_writes (s : State) (p : Part) (g : Common → Common) : (s.modPc p g).ks.writes = s.ks.writes := by cases p <;> rfl
@[simp] theorem State.modPc_ks_takesDone (s : State) (p : Part) (g : Common → Common) : (s.modPc p g).ks.takesDone = s.ks.takesDone := by cases p <;> rfl
@[simp] theorem State.modPc_ks_mem (s : State) (p : Part) (g : Common → Common) : (s.modPc p g).ks.mem = s.ks.mem := by cases p <;> rfl
@[simp] theorem State.modPc_ks_ptpDiscard (s : State) (p : Part) (g : Common → Common) : (s.modPc p g).ks.ptpDiscard = s.ks.ptpDiscard := by cases p <;> rfl
@[simp] theorem State.modPc_ks_ppsDelay (s : State) (p : Part) (g : Common → Common) : (s.modPc p g).ks.ppsDelay = s.ks.ppsDelay := by cases p <;> rfl
@[simp] theorem State.modPc_ks_v2Waits (s : State) (p : Part) (g : Common → Common) : (s.modPc p g).ks.v2Waits = s.ks.v2Waits := by cases p <;> rfl
@[simp] theorem State.wr_bx_straps (s : State) (p : Part) (a : Nat) (v : Word) : (s.wr p a v).bx.straps = s.bx.straps := by cases p <;> rfl
@[simp] theorem State.wr_bx_refclkLost (s : State) (p : Part) (a : Nat) (v : Word) : (s.wr p a v).bx.refclkLost = s.bx.refclkLost := by cases p <;> rfl
@[simp] theorem State.wr_bx_fenced (s : State) (p : Part) (a : Nat) (v : Word) : (s.wr p a v).bx.fenced = s.bx.fenced := by cases p <;> rfl
@[simp] theorem State.wr_bx_fenceSeq (s : State) (p : Part) (a : Nat) (v : Word) : (s.wr p a v).bx.fenceSeq = s.bx.fenceSeq := by cases p <;> rfl
@[simp] theorem State.wr_bx_prior (s : State) (p : Part) (a : Nat) (v : Word) : (s.wr p a v).bx.prior = s.bx.prior := by cases p <;> rfl
@[simp] theorem State.wr_bx_reportSeq (s : State) (p : Part) (a : Nat) (v : Word) : (s.wr p a v).bx.reportSeq = s.bx.reportSeq := by cases p <;> rfl
@[simp] theorem State.wr_bx_tenants (s : State) (p : Part) (a : Nat) (v : Word) : (s.wr p a v).bx.tenants = s.bx.tenants := by cases p <;> rfl
@[simp] theorem State.wr_bx_slots (s : State) (p : Part) (a : Nat) (v : Word) : (s.wr p a v).bx.slots = s.bx.slots := by cases p <;> rfl
@[simp] theorem State.wr_bx_objs (s : State) (p : Part) (a : Nat) (v : Word) : (s.wr p a v).bx.objs = s.bx.objs := by cases p <;> rfl
@[simp] theorem State.wr_bx_heldTakes (s : State) (p : Part) (a : Nat) (v : Word) : (s.wr p a v).bx.heldTakes = s.bx.heldTakes := by cases p <;> rfl
@[simp] theorem State.wr_bx_trackers (s : State) (p : Part) (a : Nat) (v : Word) : (s.wr p a v).bx.trackers = s.bx.trackers := by cases p <;> rfl
@[simp] theorem State.wr_bx_sends (s : State) (p : Part) (a : Nat) (v : Word) : (s.wr p a v).bx.sends = s.bx.sends := by cases p <;> rfl
@[simp] theorem State.wr_bx_writes (s : State) (p : Part) (a : Nat) (v : Word) : (s.wr p a v).bx.writes = s.bx.writes := by cases p <;> rfl
@[simp] theorem State.wr_bx_reads (s : State) (p : Part) (a : Nat) (v : Word) : (s.wr p a v).bx.reads = s.bx.reads := by cases p <;> rfl
@[simp] theorem State.wr_bx_v2Waits (s : State) (p : Part) (a : Nat) (v : Word) : (s.wr p a v).bx.v2Waits = s.bx.v2Waits := by cases p <;> rfl
@[simp] theorem State.wr_bx_waitSends (s : State) (p : Part) (a : Nat) (v : Word) : (s.wr p a v).bx.waitSends = s.bx.waitSends := by cases p <;> rfl
@[simp] theorem State.wr_bx_parts (s : State) (p : Part) (a : Nat) (v : Word) : (s.wr p a v).bx.parts = s.bx.parts := by cases p <;> rfl
@[simp] theorem State.wr_bx_nextPart (s : State) (p : Part) (a : Nat) (v : Word) : (s.wr p a v).bx.nextPart = s.bx.nextPart := by cases p <;> rfl
@[simp] theorem State.wr_bx_readJobs (s : State) (p : Part) (a : Nat) (v : Word) : (s.wr p a v).bx.readJobs = s.bx.readJobs := by cases p <;> rfl
@[simp] theorem State.wr_bx_nextJob (s : State) (p : Part) (a : Nat) (v : Word) : (s.wr p a v).bx.nextJob = s.bx.nextJob := by cases p <;> rfl
@[simp] theorem State.wr_bx_bases (s : State) (p : Part) (a : Nat) (v : Word) : (s.wr p a v).bx.bases = s.bx.bases := by cases p <;> rfl
@[simp] theorem State.wr_ks_build (s : State) (p : Part) (a : Nat) (v : Word) : (s.wr p a v).ks.build = s.ks.build := by cases p <;> rfl
@[simp] theorem State.wr_ks_lostPlanes (s : State) (p : Part) (a : Nat) (v : Word) : (s.wr p a v).ks.lostPlanes = s.ks.lostPlanes := by cases p <;> rfl
@[simp] theorem State.wr_ks_fences (s : State) (p : Part) (a : Nat) (v : Word) : (s.wr p a v).ks.fences = s.ks.fences := by cases p <;> rfl
@[simp] theorem State.wr_ks_strapFb (s : State) (p : Part) (a : Nat) (v : Word) : (s.wr p a v).ks.strapFb = s.ks.strapFb := by cases p <;> rfl
@[simp] theorem State.wr_ks_pcieEn (s : State) (p : Part) (a : Nat) (v : Word) : (s.wr p a v).ks.pcieEn = s.ks.pcieEn := by cases p <;> rfl
@[simp] theorem State.wr_ks_pins (s : State) (p : Part) (a : Nat) (v : Word) : (s.wr p a v).ks.pins = s.ks.pins := by cases p <;> rfl
@[simp] theorem State.wr_ks_tripped (s : State) (p : Part) (a : Nat) (v : Word) : (s.wr p a v).ks.tripped = s.ks.tripped := by cases p <;> rfl
@[simp] theorem State.wr_ks_memFailed (s : State) (p : Part) (a : Nat) (v : Word) : (s.wr p a v).ks.memFailed = s.ks.memFailed := by cases p <;> rfl
@[simp] theorem State.wr_ks_memErrors (s : State) (p : Part) (a : Nat) (v : Word) : (s.wr p a v).ks.memErrors = s.ks.memErrors := by cases p <;> rfl
@[simp] theorem State.wr_ks_brimFailed (s : State) (p : Part) (a : Nat) (v : Word) : (s.wr p a v).ks.brimFailed = s.ks.brimFailed := by cases p <;> rfl
@[simp] theorem State.wr_ks_coolantSince (s : State) (p : Part) (a : Nat) (v : Word) : (s.wr p a v).ks.coolantSince = s.ks.coolantSince := by cases p <;> rfl
@[simp] theorem State.wr_ks_coolantTold (s : State) (p : Part) (a : Nat) (v : Word) : (s.wr p a v).ks.coolantTold = s.ks.coolantTold := by cases p <;> rfl
@[simp] theorem State.wr_ks_lastCoolant (s : State) (p : Part) (a : Nat) (v : Word) : (s.wr p a v).ks.lastCoolant = s.ks.lastCoolant := by cases p <;> rfl
@[simp] theorem State.wr_ks_lastThrottle (s : State) (p : Part) (a : Nat) (v : Word) : (s.wr p a v).ks.lastThrottle = s.ks.lastThrottle := by cases p <;> rfl
@[simp] theorem State.wr_ks_lastAlive (s : State) (p : Part) (a : Nat) (v : Word) : (s.wr p a v).ks.lastAlive = s.ks.lastAlive := by cases p <;> rfl
@[simp] theorem State.wr_ks_lastResend (s : State) (p : Part) (a : Nat) (v : Word) : (s.wr p a v).ks.lastResend = s.ks.lastResend := by cases p <;> rfl
@[simp] theorem State.wr_ks_events (s : State) (p : Part) (a : Nat) (v : Word) : (s.wr p a v).ks.events = s.ks.events := by cases p <;> rfl
@[simp] theorem State.wr_ks_evtDropped (s : State) (p : Part) (a : Nat) (v : Word) : (s.wr p a v).ks.evtDropped = s.ks.evtDropped := by cases p <;> rfl
@[simp] theorem State.wr_ks_admitted (s : State) (p : Part) (a : Nat) (v : Word) : (s.wr p a v).ks.admitted = s.ks.admitted := by cases p <;> rfl
@[simp] theorem State.wr_ks_aliveTold (s : State) (p : Part) (a : Nat) (v : Word) : (s.wr p a v).ks.aliveTold = s.ks.aliveTold := by cases p <;> rfl
@[simp] theorem State.wr_ks_doms (s : State) (p : Part) (a : Nat) (v : Word) : (s.wr p a v).ks.doms = s.ks.doms := by cases p <;> rfl
@[simp] theorem State.wr_ks_leafRecs (s : State) (p : Part) (a : Nat) (v : Word) : (s.wr p a v).ks.leafRecs = s.ks.leafRecs := by cases p <;> rfl
@[simp] theorem State.wr_ks_chunks (s : State) (p : Part) (a : Nat) (v : Word) : (s.wr p a v).ks.chunks = s.ks.chunks := by cases p <;> rfl
@[simp] theorem State.wr_ks_kept (s : State) (p : Part) (a : Nat) (v : Word) : (s.wr p a v).ks.kept = s.ks.kept := by cases p <;> rfl
@[simp] theorem State.wr_ks_shards (s : State) (p : Part) (a : Nat) (v : Word) : (s.wr p a v).ks.shards = s.ks.shards := by cases p <;> rfl
@[simp] theorem State.wr_ks_blockQ (s : State) (p : Part) (a : Nat) (v : Word) : (s.wr p a v).ks.blockQ = s.ks.blockQ := by cases p <;> rfl
@[simp] theorem State.wr_ks_jobs (s : State) (p : Part) (a : Nat) (v : Word) : (s.wr p a v).ks.jobs = s.ks.jobs := by cases p <;> rfl
@[simp] theorem State.wr_ks_waitJobs (s : State) (p : Part) (a : Nat) (v : Word) : (s.wr p a v).ks.waitJobs = s.ks.waitJobs := by cases p <;> rfl
@[simp] theorem State.wr_ks_windows (s : State) (p : Part) (a : Nat) (v : Word) : (s.wr p a v).ks.windows = s.ks.windows := by cases p <;> rfl
@[simp] theorem State.wr_ks_bases (s : State) (p : Part) (a : Nat) (v : Word) : (s.wr p a v).ks.bases = s.ks.bases := by cases p <;> rfl
@[simp] theorem State.wr_ks_staged (s : State) (p : Part) (a : Nat) (v : Word) : (s.wr p a v).ks.staged = s.ks.staged := by cases p <;> rfl
@[simp] theorem State.wr_ks_ckpts (s : State) (p : Part) (a : Nat) (v : Word) : (s.wr p a v).ks.ckpts = s.ks.ckpts := by cases p <;> rfl
@[simp] theorem State.wr_ks_fills (s : State) (p : Part) (a : Nat) (v : Word) : (s.wr p a v).ks.fills = s.ks.fills := by cases p <;> rfl
@[simp] theorem State.wr_ks_cupChecks (s : State) (p : Part) (a : Nat) (v : Word) : (s.wr p a v).ks.cupChecks = s.ks.cupChecks := by cases p <;> rfl
@[simp] theorem State.wr_ks_shardReads (s : State) (p : Part) (a : Nat) (v : Word) : (s.wr p a v).ks.shardReads = s.ks.shardReads := by cases p <;> rfl
@[simp] theorem State.wr_ks_grants (s : State) (p : Part) (a : Nat) (v : Word) : (s.wr p a v).ks.grants = s.ks.grants := by cases p <;> rfl
@[simp] theorem State.wr_ks_dspLeaves (s : State) (p : Part) (a : Nat) (v : Word) : (s.wr p a v).ks.dspLeaves = s.ks.dspLeaves := by cases p <;> rfl
@[simp] theorem State.wr_ks_dspHomes (s : State) (p : Part) (a : Nat) (v : Word) : (s.wr p a v).ks.dspHomes = s.ks.dspHomes := by cases p <;> rfl
@[simp] theorem State.wr_ks_dspEngine (s : State) (p : Part) (a : Nat) (v : Word) : (s.wr p a v).ks.dspEngine = s.ks.dspEngine := by cases p <;> rfl
@[simp] theorem State.wr_ks_dspQ (s : State) (p : Part) (a : Nat) (v : Word) : (s.wr p a v).ks.dspQ = s.ks.dspQ := by cases p <;> rfl
@[simp] theorem State.wr_ks_tieReroute (s : State) (p : Part) (a : Nat) (v : Word) : (s.wr p a v).ks.tieReroute = s.ks.tieReroute := by cases p <;> rfl
@[simp] theorem State.wr_ks_objs (s : State) (p : Part) (a : Nat) (v : Word) : (s.wr p a v).ks.objs = s.ks.objs := by cases p <;> rfl
@[simp] theorem State.wr_ks_heldTakes (s : State) (p : Part) (a : Nat) (v : Word) : (s.wr p a v).ks.heldTakes = s.ks.heldTakes := by cases p <;> rfl
@[simp] theorem State.wr_ks_trackers (s : State) (p : Part) (a : Nat) (v : Word) : (s.wr p a v).ks.trackers = s.ks.trackers := by cases p <;> rfl
@[simp] theorem State.wr_ks_sends (s : State) (p : Part) (a : Nat) (v : Word) : (s.wr p a v).ks.sends = s.ks.sends := by cases p <;> rfl
@[simp] theorem State.wr_ks_writes (s : State) (p : Part) (a : Nat) (v : Word) : (s.wr p a v).ks.writes = s.ks.writes := by cases p <;> rfl
@[simp] theorem State.wr_ks_takesDone (s : State) (p : Part) (a : Nat) (v : Word) : (s.wr p a v).ks.takesDone = s.ks.takesDone := by cases p <;> rfl
@[simp] theorem State.wr_ks_mem (s : State) (p : Part) (a : Nat) (v : Word) : (s.wr p a v).ks.mem = s.ks.mem := by cases p <;> rfl
@[simp] theorem State.wr_ks_ptpDiscard (s : State) (p : Part) (a : Nat) (v : Word) : (s.wr p a v).ks.ptpDiscard = s.ks.ptpDiscard := by cases p <;> rfl
@[simp] theorem State.wr_ks_ppsDelay (s : State) (p : Part) (a : Nat) (v : Word) : (s.wr p a v).ks.ppsDelay = s.ks.ppsDelay := by cases p <;> rfl
@[simp] theorem State.wr_ks_v2Waits (s : State) (p : Part) (a : Nat) (v : Word) : (s.wr p a v).ks.v2Waits = s.ks.v2Waits := by cases p <;> rfl
@[simp] theorem State.wr_time (s : State) (p : Part) (a : Nat) (v : Word) (q : Part) : ((s.wr p a v).pc q).time = (s.pc q).time := by cases p <;> cases q <;> rfl
@[simp] theorem State.wr_stamp (s : State) (p : Part) (a : Nat) (v : Word) (q : Part) : ((s.wr p a v).pc q).stamp = (s.pc q).stamp := by cases p <;> cases q <;> rfl
@[simp] theorem State.wr_ctr (s : State) (p : Part) (a : Nat) (v : Word) (q : Part) : ((s.wr p a v).pc q).ctr = (s.pc q).ctr := by cases p <;> cases q <;> rfl
@[simp] theorem State.wr_fw (s : State) (p : Part) (a : Nat) (v : Word) (q : Part) : ((s.wr p a v).pc q).fw = (s.pc q).fw := by cases p <;> cases q <;> rfl
@[simp] theorem State.wr_link (s : State) (p : Part) (a : Nat) (v : Word) (q : Part) : ((s.wr p a v).pc q).link = (s.pc q).link := by cases p <;> cases q <;> rfl
@[simp] theorem State.wr_highs (s : State) (p : Part) (a : Nat) (v : Word) (q : Part) : ((s.wr p a v).pc q).highs = (s.pc q).highs := by cases p <;> cases q <;> rfl
@[simp] theorem State.setFld_bx_straps (s : State) (p : Part) (a lo len v : Nat) : (s.setFld p a lo len v).bx.straps = s.bx.straps := by cases p <;> rfl
@[simp] theorem State.setFld_bx_refclkLost (s : State) (p : Part) (a lo len v : Nat) : (s.setFld p a lo len v).bx.refclkLost = s.bx.refclkLost := by cases p <;> rfl
@[simp] theorem State.setFld_bx_fenced (s : State) (p : Part) (a lo len v : Nat) : (s.setFld p a lo len v).bx.fenced = s.bx.fenced := by cases p <;> rfl
@[simp] theorem State.setFld_bx_fenceSeq (s : State) (p : Part) (a lo len v : Nat) : (s.setFld p a lo len v).bx.fenceSeq = s.bx.fenceSeq := by cases p <;> rfl
@[simp] theorem State.setFld_bx_prior (s : State) (p : Part) (a lo len v : Nat) : (s.setFld p a lo len v).bx.prior = s.bx.prior := by cases p <;> rfl
@[simp] theorem State.setFld_bx_reportSeq (s : State) (p : Part) (a lo len v : Nat) : (s.setFld p a lo len v).bx.reportSeq = s.bx.reportSeq := by cases p <;> rfl
@[simp] theorem State.setFld_bx_tenants (s : State) (p : Part) (a lo len v : Nat) : (s.setFld p a lo len v).bx.tenants = s.bx.tenants := by cases p <;> rfl
@[simp] theorem State.setFld_bx_slots (s : State) (p : Part) (a lo len v : Nat) : (s.setFld p a lo len v).bx.slots = s.bx.slots := by cases p <;> rfl
@[simp] theorem State.setFld_bx_objs (s : State) (p : Part) (a lo len v : Nat) : (s.setFld p a lo len v).bx.objs = s.bx.objs := by cases p <;> rfl
@[simp] theorem State.setFld_bx_heldTakes (s : State) (p : Part) (a lo len v : Nat) : (s.setFld p a lo len v).bx.heldTakes = s.bx.heldTakes := by cases p <;> rfl
@[simp] theorem State.setFld_bx_trackers (s : State) (p : Part) (a lo len v : Nat) : (s.setFld p a lo len v).bx.trackers = s.bx.trackers := by cases p <;> rfl
@[simp] theorem State.setFld_bx_sends (s : State) (p : Part) (a lo len v : Nat) : (s.setFld p a lo len v).bx.sends = s.bx.sends := by cases p <;> rfl
@[simp] theorem State.setFld_bx_writes (s : State) (p : Part) (a lo len v : Nat) : (s.setFld p a lo len v).bx.writes = s.bx.writes := by cases p <;> rfl
@[simp] theorem State.setFld_bx_reads (s : State) (p : Part) (a lo len v : Nat) : (s.setFld p a lo len v).bx.reads = s.bx.reads := by cases p <;> rfl
@[simp] theorem State.setFld_bx_v2Waits (s : State) (p : Part) (a lo len v : Nat) : (s.setFld p a lo len v).bx.v2Waits = s.bx.v2Waits := by cases p <;> rfl
@[simp] theorem State.setFld_bx_waitSends (s : State) (p : Part) (a lo len v : Nat) : (s.setFld p a lo len v).bx.waitSends = s.bx.waitSends := by cases p <;> rfl
@[simp] theorem State.setFld_bx_parts (s : State) (p : Part) (a lo len v : Nat) : (s.setFld p a lo len v).bx.parts = s.bx.parts := by cases p <;> rfl
@[simp] theorem State.setFld_bx_nextPart (s : State) (p : Part) (a lo len v : Nat) : (s.setFld p a lo len v).bx.nextPart = s.bx.nextPart := by cases p <;> rfl
@[simp] theorem State.setFld_bx_readJobs (s : State) (p : Part) (a lo len v : Nat) : (s.setFld p a lo len v).bx.readJobs = s.bx.readJobs := by cases p <;> rfl
@[simp] theorem State.setFld_bx_nextJob (s : State) (p : Part) (a lo len v : Nat) : (s.setFld p a lo len v).bx.nextJob = s.bx.nextJob := by cases p <;> rfl
@[simp] theorem State.setFld_bx_bases (s : State) (p : Part) (a lo len v : Nat) : (s.setFld p a lo len v).bx.bases = s.bx.bases := by cases p <;> rfl
@[simp] theorem State.setFld_ks_build (s : State) (p : Part) (a lo len v : Nat) : (s.setFld p a lo len v).ks.build = s.ks.build := by cases p <;> rfl
@[simp] theorem State.setFld_ks_lostPlanes (s : State) (p : Part) (a lo len v : Nat) : (s.setFld p a lo len v).ks.lostPlanes = s.ks.lostPlanes := by cases p <;> rfl
@[simp] theorem State.setFld_ks_fences (s : State) (p : Part) (a lo len v : Nat) : (s.setFld p a lo len v).ks.fences = s.ks.fences := by cases p <;> rfl
@[simp] theorem State.setFld_ks_strapFb (s : State) (p : Part) (a lo len v : Nat) : (s.setFld p a lo len v).ks.strapFb = s.ks.strapFb := by cases p <;> rfl
@[simp] theorem State.setFld_ks_pcieEn (s : State) (p : Part) (a lo len v : Nat) : (s.setFld p a lo len v).ks.pcieEn = s.ks.pcieEn := by cases p <;> rfl
@[simp] theorem State.setFld_ks_pins (s : State) (p : Part) (a lo len v : Nat) : (s.setFld p a lo len v).ks.pins = s.ks.pins := by cases p <;> rfl
@[simp] theorem State.setFld_ks_tripped (s : State) (p : Part) (a lo len v : Nat) : (s.setFld p a lo len v).ks.tripped = s.ks.tripped := by cases p <;> rfl
@[simp] theorem State.setFld_ks_memFailed (s : State) (p : Part) (a lo len v : Nat) : (s.setFld p a lo len v).ks.memFailed = s.ks.memFailed := by cases p <;> rfl
@[simp] theorem State.setFld_ks_memErrors (s : State) (p : Part) (a lo len v : Nat) : (s.setFld p a lo len v).ks.memErrors = s.ks.memErrors := by cases p <;> rfl
@[simp] theorem State.setFld_ks_brimFailed (s : State) (p : Part) (a lo len v : Nat) : (s.setFld p a lo len v).ks.brimFailed = s.ks.brimFailed := by cases p <;> rfl
@[simp] theorem State.setFld_ks_coolantSince (s : State) (p : Part) (a lo len v : Nat) : (s.setFld p a lo len v).ks.coolantSince = s.ks.coolantSince := by cases p <;> rfl
@[simp] theorem State.setFld_ks_coolantTold (s : State) (p : Part) (a lo len v : Nat) : (s.setFld p a lo len v).ks.coolantTold = s.ks.coolantTold := by cases p <;> rfl
@[simp] theorem State.setFld_ks_lastCoolant (s : State) (p : Part) (a lo len v : Nat) : (s.setFld p a lo len v).ks.lastCoolant = s.ks.lastCoolant := by cases p <;> rfl
@[simp] theorem State.setFld_ks_lastThrottle (s : State) (p : Part) (a lo len v : Nat) : (s.setFld p a lo len v).ks.lastThrottle = s.ks.lastThrottle := by cases p <;> rfl
@[simp] theorem State.setFld_ks_lastAlive (s : State) (p : Part) (a lo len v : Nat) : (s.setFld p a lo len v).ks.lastAlive = s.ks.lastAlive := by cases p <;> rfl
@[simp] theorem State.setFld_ks_lastResend (s : State) (p : Part) (a lo len v : Nat) : (s.setFld p a lo len v).ks.lastResend = s.ks.lastResend := by cases p <;> rfl
@[simp] theorem State.setFld_ks_events (s : State) (p : Part) (a lo len v : Nat) : (s.setFld p a lo len v).ks.events = s.ks.events := by cases p <;> rfl
@[simp] theorem State.setFld_ks_evtDropped (s : State) (p : Part) (a lo len v : Nat) : (s.setFld p a lo len v).ks.evtDropped = s.ks.evtDropped := by cases p <;> rfl
@[simp] theorem State.setFld_ks_admitted (s : State) (p : Part) (a lo len v : Nat) : (s.setFld p a lo len v).ks.admitted = s.ks.admitted := by cases p <;> rfl
@[simp] theorem State.setFld_ks_aliveTold (s : State) (p : Part) (a lo len v : Nat) : (s.setFld p a lo len v).ks.aliveTold = s.ks.aliveTold := by cases p <;> rfl
@[simp] theorem State.setFld_ks_doms (s : State) (p : Part) (a lo len v : Nat) : (s.setFld p a lo len v).ks.doms = s.ks.doms := by cases p <;> rfl
@[simp] theorem State.setFld_ks_leafRecs (s : State) (p : Part) (a lo len v : Nat) : (s.setFld p a lo len v).ks.leafRecs = s.ks.leafRecs := by cases p <;> rfl
@[simp] theorem State.setFld_ks_chunks (s : State) (p : Part) (a lo len v : Nat) : (s.setFld p a lo len v).ks.chunks = s.ks.chunks := by cases p <;> rfl
@[simp] theorem State.setFld_ks_kept (s : State) (p : Part) (a lo len v : Nat) : (s.setFld p a lo len v).ks.kept = s.ks.kept := by cases p <;> rfl
@[simp] theorem State.setFld_ks_shards (s : State) (p : Part) (a lo len v : Nat) : (s.setFld p a lo len v).ks.shards = s.ks.shards := by cases p <;> rfl
@[simp] theorem State.setFld_ks_blockQ (s : State) (p : Part) (a lo len v : Nat) : (s.setFld p a lo len v).ks.blockQ = s.ks.blockQ := by cases p <;> rfl
@[simp] theorem State.setFld_ks_jobs (s : State) (p : Part) (a lo len v : Nat) : (s.setFld p a lo len v).ks.jobs = s.ks.jobs := by cases p <;> rfl
@[simp] theorem State.setFld_ks_waitJobs (s : State) (p : Part) (a lo len v : Nat) : (s.setFld p a lo len v).ks.waitJobs = s.ks.waitJobs := by cases p <;> rfl
@[simp] theorem State.setFld_ks_windows (s : State) (p : Part) (a lo len v : Nat) : (s.setFld p a lo len v).ks.windows = s.ks.windows := by cases p <;> rfl
@[simp] theorem State.setFld_ks_bases (s : State) (p : Part) (a lo len v : Nat) : (s.setFld p a lo len v).ks.bases = s.ks.bases := by cases p <;> rfl
@[simp] theorem State.setFld_ks_staged (s : State) (p : Part) (a lo len v : Nat) : (s.setFld p a lo len v).ks.staged = s.ks.staged := by cases p <;> rfl
@[simp] theorem State.setFld_ks_ckpts (s : State) (p : Part) (a lo len v : Nat) : (s.setFld p a lo len v).ks.ckpts = s.ks.ckpts := by cases p <;> rfl
@[simp] theorem State.setFld_ks_fills (s : State) (p : Part) (a lo len v : Nat) : (s.setFld p a lo len v).ks.fills = s.ks.fills := by cases p <;> rfl
@[simp] theorem State.setFld_ks_cupChecks (s : State) (p : Part) (a lo len v : Nat) : (s.setFld p a lo len v).ks.cupChecks = s.ks.cupChecks := by cases p <;> rfl
@[simp] theorem State.setFld_ks_shardReads (s : State) (p : Part) (a lo len v : Nat) : (s.setFld p a lo len v).ks.shardReads = s.ks.shardReads := by cases p <;> rfl
@[simp] theorem State.setFld_ks_grants (s : State) (p : Part) (a lo len v : Nat) : (s.setFld p a lo len v).ks.grants = s.ks.grants := by cases p <;> rfl
@[simp] theorem State.setFld_ks_dspLeaves (s : State) (p : Part) (a lo len v : Nat) : (s.setFld p a lo len v).ks.dspLeaves = s.ks.dspLeaves := by cases p <;> rfl
@[simp] theorem State.setFld_ks_dspHomes (s : State) (p : Part) (a lo len v : Nat) : (s.setFld p a lo len v).ks.dspHomes = s.ks.dspHomes := by cases p <;> rfl
@[simp] theorem State.setFld_ks_dspEngine (s : State) (p : Part) (a lo len v : Nat) : (s.setFld p a lo len v).ks.dspEngine = s.ks.dspEngine := by cases p <;> rfl
@[simp] theorem State.setFld_ks_dspQ (s : State) (p : Part) (a lo len v : Nat) : (s.setFld p a lo len v).ks.dspQ = s.ks.dspQ := by cases p <;> rfl
@[simp] theorem State.setFld_ks_tieReroute (s : State) (p : Part) (a lo len v : Nat) : (s.setFld p a lo len v).ks.tieReroute = s.ks.tieReroute := by cases p <;> rfl
@[simp] theorem State.setFld_ks_objs (s : State) (p : Part) (a lo len v : Nat) : (s.setFld p a lo len v).ks.objs = s.ks.objs := by cases p <;> rfl
@[simp] theorem State.setFld_ks_heldTakes (s : State) (p : Part) (a lo len v : Nat) : (s.setFld p a lo len v).ks.heldTakes = s.ks.heldTakes := by cases p <;> rfl
@[simp] theorem State.setFld_ks_trackers (s : State) (p : Part) (a lo len v : Nat) : (s.setFld p a lo len v).ks.trackers = s.ks.trackers := by cases p <;> rfl
@[simp] theorem State.setFld_ks_sends (s : State) (p : Part) (a lo len v : Nat) : (s.setFld p a lo len v).ks.sends = s.ks.sends := by cases p <;> rfl
@[simp] theorem State.setFld_ks_writes (s : State) (p : Part) (a lo len v : Nat) : (s.setFld p a lo len v).ks.writes = s.ks.writes := by cases p <;> rfl
@[simp] theorem State.setFld_ks_takesDone (s : State) (p : Part) (a lo len v : Nat) : (s.setFld p a lo len v).ks.takesDone = s.ks.takesDone := by cases p <;> rfl
@[simp] theorem State.setFld_ks_mem (s : State) (p : Part) (a lo len v : Nat) : (s.setFld p a lo len v).ks.mem = s.ks.mem := by cases p <;> rfl
@[simp] theorem State.setFld_ks_ptpDiscard (s : State) (p : Part) (a lo len v : Nat) : (s.setFld p a lo len v).ks.ptpDiscard = s.ks.ptpDiscard := by cases p <;> rfl
@[simp] theorem State.setFld_ks_ppsDelay (s : State) (p : Part) (a lo len v : Nat) : (s.setFld p a lo len v).ks.ppsDelay = s.ks.ppsDelay := by cases p <;> rfl
@[simp] theorem State.setFld_ks_v2Waits (s : State) (p : Part) (a lo len v : Nat) : (s.setFld p a lo len v).ks.v2Waits = s.ks.v2Waits := by cases p <;> rfl
@[simp] theorem State.setFld_time (s : State) (p : Part) (a lo len v : Nat) (q : Part) : ((s.setFld p a lo len v).pc q).time = (s.pc q).time := by cases p <;> cases q <;> rfl
@[simp] theorem State.setFld_stamp (s : State) (p : Part) (a lo len v : Nat) (q : Part) : ((s.setFld p a lo len v).pc q).stamp = (s.pc q).stamp := by cases p <;> cases q <;> rfl
@[simp] theorem State.setFld_ctr (s : State) (p : Part) (a lo len v : Nat) (q : Part) : ((s.setFld p a lo len v).pc q).ctr = (s.pc q).ctr := by cases p <;> cases q <;> rfl
@[simp] theorem State.setFld_fw (s : State) (p : Part) (a lo len v : Nat) (q : Part) : ((s.setFld p a lo len v).pc q).fw = (s.pc q).fw := by cases p <;> cases q <;> rfl
@[simp] theorem State.setFld_link (s : State) (p : Part) (a lo len v : Nat) (q : Part) : ((s.setFld p a lo len v).pc q).link = (s.pc q).link := by cases p <;> cases q <;> rfl
@[simp] theorem State.setFld_highs (s : State) (p : Part) (a lo len v : Nat) (q : Part) : ((s.setFld p a lo len v).pc q).highs = (s.pc q).highs := by cases p <;> cases q <;> rfl
@[simp] theorem State.setBit_bx_straps (s : State) (p : Part) (a i : Nat) (b : Bool) : (s.setBit p a i b).bx.straps = s.bx.straps := by cases p <;> rfl
@[simp] theorem State.setBit_bx_refclkLost (s : State) (p : Part) (a i : Nat) (b : Bool) : (s.setBit p a i b).bx.refclkLost = s.bx.refclkLost := by cases p <;> rfl
@[simp] theorem State.setBit_bx_fenced (s : State) (p : Part) (a i : Nat) (b : Bool) : (s.setBit p a i b).bx.fenced = s.bx.fenced := by cases p <;> rfl
@[simp] theorem State.setBit_bx_fenceSeq (s : State) (p : Part) (a i : Nat) (b : Bool) : (s.setBit p a i b).bx.fenceSeq = s.bx.fenceSeq := by cases p <;> rfl
@[simp] theorem State.setBit_bx_prior (s : State) (p : Part) (a i : Nat) (b : Bool) : (s.setBit p a i b).bx.prior = s.bx.prior := by cases p <;> rfl
@[simp] theorem State.setBit_bx_reportSeq (s : State) (p : Part) (a i : Nat) (b : Bool) : (s.setBit p a i b).bx.reportSeq = s.bx.reportSeq := by cases p <;> rfl
@[simp] theorem State.setBit_bx_tenants (s : State) (p : Part) (a i : Nat) (b : Bool) : (s.setBit p a i b).bx.tenants = s.bx.tenants := by cases p <;> rfl
@[simp] theorem State.setBit_bx_slots (s : State) (p : Part) (a i : Nat) (b : Bool) : (s.setBit p a i b).bx.slots = s.bx.slots := by cases p <;> rfl
@[simp] theorem State.setBit_bx_objs (s : State) (p : Part) (a i : Nat) (b : Bool) : (s.setBit p a i b).bx.objs = s.bx.objs := by cases p <;> rfl
@[simp] theorem State.setBit_bx_heldTakes (s : State) (p : Part) (a i : Nat) (b : Bool) : (s.setBit p a i b).bx.heldTakes = s.bx.heldTakes := by cases p <;> rfl
@[simp] theorem State.setBit_bx_trackers (s : State) (p : Part) (a i : Nat) (b : Bool) : (s.setBit p a i b).bx.trackers = s.bx.trackers := by cases p <;> rfl
@[simp] theorem State.setBit_bx_sends (s : State) (p : Part) (a i : Nat) (b : Bool) : (s.setBit p a i b).bx.sends = s.bx.sends := by cases p <;> rfl
@[simp] theorem State.setBit_bx_writes (s : State) (p : Part) (a i : Nat) (b : Bool) : (s.setBit p a i b).bx.writes = s.bx.writes := by cases p <;> rfl
@[simp] theorem State.setBit_bx_reads (s : State) (p : Part) (a i : Nat) (b : Bool) : (s.setBit p a i b).bx.reads = s.bx.reads := by cases p <;> rfl
@[simp] theorem State.setBit_bx_v2Waits (s : State) (p : Part) (a i : Nat) (b : Bool) : (s.setBit p a i b).bx.v2Waits = s.bx.v2Waits := by cases p <;> rfl
@[simp] theorem State.setBit_bx_waitSends (s : State) (p : Part) (a i : Nat) (b : Bool) : (s.setBit p a i b).bx.waitSends = s.bx.waitSends := by cases p <;> rfl
@[simp] theorem State.setBit_bx_parts (s : State) (p : Part) (a i : Nat) (b : Bool) : (s.setBit p a i b).bx.parts = s.bx.parts := by cases p <;> rfl
@[simp] theorem State.setBit_bx_nextPart (s : State) (p : Part) (a i : Nat) (b : Bool) : (s.setBit p a i b).bx.nextPart = s.bx.nextPart := by cases p <;> rfl
@[simp] theorem State.setBit_bx_readJobs (s : State) (p : Part) (a i : Nat) (b : Bool) : (s.setBit p a i b).bx.readJobs = s.bx.readJobs := by cases p <;> rfl
@[simp] theorem State.setBit_bx_nextJob (s : State) (p : Part) (a i : Nat) (b : Bool) : (s.setBit p a i b).bx.nextJob = s.bx.nextJob := by cases p <;> rfl
@[simp] theorem State.setBit_bx_bases (s : State) (p : Part) (a i : Nat) (b : Bool) : (s.setBit p a i b).bx.bases = s.bx.bases := by cases p <;> rfl
@[simp] theorem State.setBit_ks_build (s : State) (p : Part) (a i : Nat) (b : Bool) : (s.setBit p a i b).ks.build = s.ks.build := by cases p <;> rfl
@[simp] theorem State.setBit_ks_lostPlanes (s : State) (p : Part) (a i : Nat) (b : Bool) : (s.setBit p a i b).ks.lostPlanes = s.ks.lostPlanes := by cases p <;> rfl
@[simp] theorem State.setBit_ks_fences (s : State) (p : Part) (a i : Nat) (b : Bool) : (s.setBit p a i b).ks.fences = s.ks.fences := by cases p <;> rfl
@[simp] theorem State.setBit_ks_strapFb (s : State) (p : Part) (a i : Nat) (b : Bool) : (s.setBit p a i b).ks.strapFb = s.ks.strapFb := by cases p <;> rfl
@[simp] theorem State.setBit_ks_pcieEn (s : State) (p : Part) (a i : Nat) (b : Bool) : (s.setBit p a i b).ks.pcieEn = s.ks.pcieEn := by cases p <;> rfl
@[simp] theorem State.setBit_ks_pins (s : State) (p : Part) (a i : Nat) (b : Bool) : (s.setBit p a i b).ks.pins = s.ks.pins := by cases p <;> rfl
@[simp] theorem State.setBit_ks_tripped (s : State) (p : Part) (a i : Nat) (b : Bool) : (s.setBit p a i b).ks.tripped = s.ks.tripped := by cases p <;> rfl
@[simp] theorem State.setBit_ks_memFailed (s : State) (p : Part) (a i : Nat) (b : Bool) : (s.setBit p a i b).ks.memFailed = s.ks.memFailed := by cases p <;> rfl
@[simp] theorem State.setBit_ks_memErrors (s : State) (p : Part) (a i : Nat) (b : Bool) : (s.setBit p a i b).ks.memErrors = s.ks.memErrors := by cases p <;> rfl
@[simp] theorem State.setBit_ks_brimFailed (s : State) (p : Part) (a i : Nat) (b : Bool) : (s.setBit p a i b).ks.brimFailed = s.ks.brimFailed := by cases p <;> rfl
@[simp] theorem State.setBit_ks_coolantSince (s : State) (p : Part) (a i : Nat) (b : Bool) : (s.setBit p a i b).ks.coolantSince = s.ks.coolantSince := by cases p <;> rfl
@[simp] theorem State.setBit_ks_coolantTold (s : State) (p : Part) (a i : Nat) (b : Bool) : (s.setBit p a i b).ks.coolantTold = s.ks.coolantTold := by cases p <;> rfl
@[simp] theorem State.setBit_ks_lastCoolant (s : State) (p : Part) (a i : Nat) (b : Bool) : (s.setBit p a i b).ks.lastCoolant = s.ks.lastCoolant := by cases p <;> rfl
@[simp] theorem State.setBit_ks_lastThrottle (s : State) (p : Part) (a i : Nat) (b : Bool) : (s.setBit p a i b).ks.lastThrottle = s.ks.lastThrottle := by cases p <;> rfl
@[simp] theorem State.setBit_ks_lastAlive (s : State) (p : Part) (a i : Nat) (b : Bool) : (s.setBit p a i b).ks.lastAlive = s.ks.lastAlive := by cases p <;> rfl
@[simp] theorem State.setBit_ks_lastResend (s : State) (p : Part) (a i : Nat) (b : Bool) : (s.setBit p a i b).ks.lastResend = s.ks.lastResend := by cases p <;> rfl
@[simp] theorem State.setBit_ks_events (s : State) (p : Part) (a i : Nat) (b : Bool) : (s.setBit p a i b).ks.events = s.ks.events := by cases p <;> rfl
@[simp] theorem State.setBit_ks_evtDropped (s : State) (p : Part) (a i : Nat) (b : Bool) : (s.setBit p a i b).ks.evtDropped = s.ks.evtDropped := by cases p <;> rfl
@[simp] theorem State.setBit_ks_admitted (s : State) (p : Part) (a i : Nat) (b : Bool) : (s.setBit p a i b).ks.admitted = s.ks.admitted := by cases p <;> rfl
@[simp] theorem State.setBit_ks_aliveTold (s : State) (p : Part) (a i : Nat) (b : Bool) : (s.setBit p a i b).ks.aliveTold = s.ks.aliveTold := by cases p <;> rfl
@[simp] theorem State.setBit_ks_doms (s : State) (p : Part) (a i : Nat) (b : Bool) : (s.setBit p a i b).ks.doms = s.ks.doms := by cases p <;> rfl
@[simp] theorem State.setBit_ks_leafRecs (s : State) (p : Part) (a i : Nat) (b : Bool) : (s.setBit p a i b).ks.leafRecs = s.ks.leafRecs := by cases p <;> rfl
@[simp] theorem State.setBit_ks_chunks (s : State) (p : Part) (a i : Nat) (b : Bool) : (s.setBit p a i b).ks.chunks = s.ks.chunks := by cases p <;> rfl
@[simp] theorem State.setBit_ks_kept (s : State) (p : Part) (a i : Nat) (b : Bool) : (s.setBit p a i b).ks.kept = s.ks.kept := by cases p <;> rfl
@[simp] theorem State.setBit_ks_shards (s : State) (p : Part) (a i : Nat) (b : Bool) : (s.setBit p a i b).ks.shards = s.ks.shards := by cases p <;> rfl
@[simp] theorem State.setBit_ks_blockQ (s : State) (p : Part) (a i : Nat) (b : Bool) : (s.setBit p a i b).ks.blockQ = s.ks.blockQ := by cases p <;> rfl
@[simp] theorem State.setBit_ks_jobs (s : State) (p : Part) (a i : Nat) (b : Bool) : (s.setBit p a i b).ks.jobs = s.ks.jobs := by cases p <;> rfl
@[simp] theorem State.setBit_ks_waitJobs (s : State) (p : Part) (a i : Nat) (b : Bool) : (s.setBit p a i b).ks.waitJobs = s.ks.waitJobs := by cases p <;> rfl
@[simp] theorem State.setBit_ks_windows (s : State) (p : Part) (a i : Nat) (b : Bool) : (s.setBit p a i b).ks.windows = s.ks.windows := by cases p <;> rfl
@[simp] theorem State.setBit_ks_bases (s : State) (p : Part) (a i : Nat) (b : Bool) : (s.setBit p a i b).ks.bases = s.ks.bases := by cases p <;> rfl
@[simp] theorem State.setBit_ks_staged (s : State) (p : Part) (a i : Nat) (b : Bool) : (s.setBit p a i b).ks.staged = s.ks.staged := by cases p <;> rfl
@[simp] theorem State.setBit_ks_ckpts (s : State) (p : Part) (a i : Nat) (b : Bool) : (s.setBit p a i b).ks.ckpts = s.ks.ckpts := by cases p <;> rfl
@[simp] theorem State.setBit_ks_fills (s : State) (p : Part) (a i : Nat) (b : Bool) : (s.setBit p a i b).ks.fills = s.ks.fills := by cases p <;> rfl
@[simp] theorem State.setBit_ks_cupChecks (s : State) (p : Part) (a i : Nat) (b : Bool) : (s.setBit p a i b).ks.cupChecks = s.ks.cupChecks := by cases p <;> rfl
@[simp] theorem State.setBit_ks_shardReads (s : State) (p : Part) (a i : Nat) (b : Bool) : (s.setBit p a i b).ks.shardReads = s.ks.shardReads := by cases p <;> rfl
@[simp] theorem State.setBit_ks_grants (s : State) (p : Part) (a i : Nat) (b : Bool) : (s.setBit p a i b).ks.grants = s.ks.grants := by cases p <;> rfl
@[simp] theorem State.setBit_ks_dspLeaves (s : State) (p : Part) (a i : Nat) (b : Bool) : (s.setBit p a i b).ks.dspLeaves = s.ks.dspLeaves := by cases p <;> rfl
@[simp] theorem State.setBit_ks_dspHomes (s : State) (p : Part) (a i : Nat) (b : Bool) : (s.setBit p a i b).ks.dspHomes = s.ks.dspHomes := by cases p <;> rfl
@[simp] theorem State.setBit_ks_dspEngine (s : State) (p : Part) (a i : Nat) (b : Bool) : (s.setBit p a i b).ks.dspEngine = s.ks.dspEngine := by cases p <;> rfl
@[simp] theorem State.setBit_ks_dspQ (s : State) (p : Part) (a i : Nat) (b : Bool) : (s.setBit p a i b).ks.dspQ = s.ks.dspQ := by cases p <;> rfl
@[simp] theorem State.setBit_ks_tieReroute (s : State) (p : Part) (a i : Nat) (b : Bool) : (s.setBit p a i b).ks.tieReroute = s.ks.tieReroute := by cases p <;> rfl
@[simp] theorem State.setBit_ks_objs (s : State) (p : Part) (a i : Nat) (b : Bool) : (s.setBit p a i b).ks.objs = s.ks.objs := by cases p <;> rfl
@[simp] theorem State.setBit_ks_heldTakes (s : State) (p : Part) (a i : Nat) (b : Bool) : (s.setBit p a i b).ks.heldTakes = s.ks.heldTakes := by cases p <;> rfl
@[simp] theorem State.setBit_ks_trackers (s : State) (p : Part) (a i : Nat) (b : Bool) : (s.setBit p a i b).ks.trackers = s.ks.trackers := by cases p <;> rfl
@[simp] theorem State.setBit_ks_sends (s : State) (p : Part) (a i : Nat) (b : Bool) : (s.setBit p a i b).ks.sends = s.ks.sends := by cases p <;> rfl
@[simp] theorem State.setBit_ks_writes (s : State) (p : Part) (a i : Nat) (b : Bool) : (s.setBit p a i b).ks.writes = s.ks.writes := by cases p <;> rfl
@[simp] theorem State.setBit_ks_takesDone (s : State) (p : Part) (a i : Nat) (b : Bool) : (s.setBit p a i b).ks.takesDone = s.ks.takesDone := by cases p <;> rfl
@[simp] theorem State.setBit_ks_mem (s : State) (p : Part) (a i : Nat) (b : Bool) : (s.setBit p a i b).ks.mem = s.ks.mem := by cases p <;> rfl
@[simp] theorem State.setBit_ks_ptpDiscard (s : State) (p : Part) (a i : Nat) (b : Bool) : (s.setBit p a i b).ks.ptpDiscard = s.ks.ptpDiscard := by cases p <;> rfl
@[simp] theorem State.setBit_ks_ppsDelay (s : State) (p : Part) (a i : Nat) (b : Bool) : (s.setBit p a i b).ks.ppsDelay = s.ks.ppsDelay := by cases p <;> rfl
@[simp] theorem State.setBit_ks_v2Waits (s : State) (p : Part) (a i : Nat) (b : Bool) : (s.setBit p a i b).ks.v2Waits = s.ks.v2Waits := by cases p <;> rfl
@[simp] theorem State.setBit_time (s : State) (p : Part) (a i : Nat) (b : Bool) (q : Part) : ((s.setBit p a i b).pc q).time = (s.pc q).time := by cases p <;> cases q <;> rfl
@[simp] theorem State.setBit_stamp (s : State) (p : Part) (a i : Nat) (b : Bool) (q : Part) : ((s.setBit p a i b).pc q).stamp = (s.pc q).stamp := by cases p <;> cases q <;> rfl
@[simp] theorem State.setBit_ctr (s : State) (p : Part) (a i : Nat) (b : Bool) (q : Part) : ((s.setBit p a i b).pc q).ctr = (s.pc q).ctr := by cases p <;> cases q <;> rfl
@[simp] theorem State.setBit_fw (s : State) (p : Part) (a i : Nat) (b : Bool) (q : Part) : ((s.setBit p a i b).pc q).fw = (s.pc q).fw := by cases p <;> cases q <;> rfl
@[simp] theorem State.setBit_link (s : State) (p : Part) (a i : Nat) (b : Bool) (q : Part) : ((s.setBit p a i b).pc q).link = (s.pc q).link := by cases p <;> cases q <;> rfl
@[simp] theorem State.setBit_highs (s : State) (p : Part) (a i : Nat) (b : Bool) (q : Part) : ((s.setBit p a i b).pc q).highs = (s.pc q).highs := by cases p <;> cases q <;> rfl
@[simp] theorem State.wr64_bx_straps (s : State) (p : Part) (a : Nat) (v : BitVec 64) : (s.wr64 p a v).bx.straps = s.bx.straps := by cases p <;> rfl
@[simp] theorem State.wr64_bx_refclkLost (s : State) (p : Part) (a : Nat) (v : BitVec 64) : (s.wr64 p a v).bx.refclkLost = s.bx.refclkLost := by cases p <;> rfl
@[simp] theorem State.wr64_bx_fenced (s : State) (p : Part) (a : Nat) (v : BitVec 64) : (s.wr64 p a v).bx.fenced = s.bx.fenced := by cases p <;> rfl
@[simp] theorem State.wr64_bx_fenceSeq (s : State) (p : Part) (a : Nat) (v : BitVec 64) : (s.wr64 p a v).bx.fenceSeq = s.bx.fenceSeq := by cases p <;> rfl
@[simp] theorem State.wr64_bx_prior (s : State) (p : Part) (a : Nat) (v : BitVec 64) : (s.wr64 p a v).bx.prior = s.bx.prior := by cases p <;> rfl
@[simp] theorem State.wr64_bx_reportSeq (s : State) (p : Part) (a : Nat) (v : BitVec 64) : (s.wr64 p a v).bx.reportSeq = s.bx.reportSeq := by cases p <;> rfl
@[simp] theorem State.wr64_bx_tenants (s : State) (p : Part) (a : Nat) (v : BitVec 64) : (s.wr64 p a v).bx.tenants = s.bx.tenants := by cases p <;> rfl
@[simp] theorem State.wr64_bx_slots (s : State) (p : Part) (a : Nat) (v : BitVec 64) : (s.wr64 p a v).bx.slots = s.bx.slots := by cases p <;> rfl
@[simp] theorem State.wr64_bx_objs (s : State) (p : Part) (a : Nat) (v : BitVec 64) : (s.wr64 p a v).bx.objs = s.bx.objs := by cases p <;> rfl
@[simp] theorem State.wr64_bx_heldTakes (s : State) (p : Part) (a : Nat) (v : BitVec 64) : (s.wr64 p a v).bx.heldTakes = s.bx.heldTakes := by cases p <;> rfl
@[simp] theorem State.wr64_bx_trackers (s : State) (p : Part) (a : Nat) (v : BitVec 64) : (s.wr64 p a v).bx.trackers = s.bx.trackers := by cases p <;> rfl
@[simp] theorem State.wr64_bx_sends (s : State) (p : Part) (a : Nat) (v : BitVec 64) : (s.wr64 p a v).bx.sends = s.bx.sends := by cases p <;> rfl
@[simp] theorem State.wr64_bx_writes (s : State) (p : Part) (a : Nat) (v : BitVec 64) : (s.wr64 p a v).bx.writes = s.bx.writes := by cases p <;> rfl
@[simp] theorem State.wr64_bx_reads (s : State) (p : Part) (a : Nat) (v : BitVec 64) : (s.wr64 p a v).bx.reads = s.bx.reads := by cases p <;> rfl
@[simp] theorem State.wr64_bx_v2Waits (s : State) (p : Part) (a : Nat) (v : BitVec 64) : (s.wr64 p a v).bx.v2Waits = s.bx.v2Waits := by cases p <;> rfl
@[simp] theorem State.wr64_bx_waitSends (s : State) (p : Part) (a : Nat) (v : BitVec 64) : (s.wr64 p a v).bx.waitSends = s.bx.waitSends := by cases p <;> rfl
@[simp] theorem State.wr64_bx_parts (s : State) (p : Part) (a : Nat) (v : BitVec 64) : (s.wr64 p a v).bx.parts = s.bx.parts := by cases p <;> rfl
@[simp] theorem State.wr64_bx_nextPart (s : State) (p : Part) (a : Nat) (v : BitVec 64) : (s.wr64 p a v).bx.nextPart = s.bx.nextPart := by cases p <;> rfl
@[simp] theorem State.wr64_bx_readJobs (s : State) (p : Part) (a : Nat) (v : BitVec 64) : (s.wr64 p a v).bx.readJobs = s.bx.readJobs := by cases p <;> rfl
@[simp] theorem State.wr64_bx_nextJob (s : State) (p : Part) (a : Nat) (v : BitVec 64) : (s.wr64 p a v).bx.nextJob = s.bx.nextJob := by cases p <;> rfl
@[simp] theorem State.wr64_bx_bases (s : State) (p : Part) (a : Nat) (v : BitVec 64) : (s.wr64 p a v).bx.bases = s.bx.bases := by cases p <;> rfl
@[simp] theorem State.wr64_ks_build (s : State) (p : Part) (a : Nat) (v : BitVec 64) : (s.wr64 p a v).ks.build = s.ks.build := by cases p <;> rfl
@[simp] theorem State.wr64_ks_lostPlanes (s : State) (p : Part) (a : Nat) (v : BitVec 64) : (s.wr64 p a v).ks.lostPlanes = s.ks.lostPlanes := by cases p <;> rfl
@[simp] theorem State.wr64_ks_fences (s : State) (p : Part) (a : Nat) (v : BitVec 64) : (s.wr64 p a v).ks.fences = s.ks.fences := by cases p <;> rfl
@[simp] theorem State.wr64_ks_strapFb (s : State) (p : Part) (a : Nat) (v : BitVec 64) : (s.wr64 p a v).ks.strapFb = s.ks.strapFb := by cases p <;> rfl
@[simp] theorem State.wr64_ks_pcieEn (s : State) (p : Part) (a : Nat) (v : BitVec 64) : (s.wr64 p a v).ks.pcieEn = s.ks.pcieEn := by cases p <;> rfl
@[simp] theorem State.wr64_ks_pins (s : State) (p : Part) (a : Nat) (v : BitVec 64) : (s.wr64 p a v).ks.pins = s.ks.pins := by cases p <;> rfl
@[simp] theorem State.wr64_ks_tripped (s : State) (p : Part) (a : Nat) (v : BitVec 64) : (s.wr64 p a v).ks.tripped = s.ks.tripped := by cases p <;> rfl
@[simp] theorem State.wr64_ks_memFailed (s : State) (p : Part) (a : Nat) (v : BitVec 64) : (s.wr64 p a v).ks.memFailed = s.ks.memFailed := by cases p <;> rfl
@[simp] theorem State.wr64_ks_memErrors (s : State) (p : Part) (a : Nat) (v : BitVec 64) : (s.wr64 p a v).ks.memErrors = s.ks.memErrors := by cases p <;> rfl
@[simp] theorem State.wr64_ks_brimFailed (s : State) (p : Part) (a : Nat) (v : BitVec 64) : (s.wr64 p a v).ks.brimFailed = s.ks.brimFailed := by cases p <;> rfl
@[simp] theorem State.wr64_ks_coolantSince (s : State) (p : Part) (a : Nat) (v : BitVec 64) : (s.wr64 p a v).ks.coolantSince = s.ks.coolantSince := by cases p <;> rfl
@[simp] theorem State.wr64_ks_coolantTold (s : State) (p : Part) (a : Nat) (v : BitVec 64) : (s.wr64 p a v).ks.coolantTold = s.ks.coolantTold := by cases p <;> rfl
@[simp] theorem State.wr64_ks_lastCoolant (s : State) (p : Part) (a : Nat) (v : BitVec 64) : (s.wr64 p a v).ks.lastCoolant = s.ks.lastCoolant := by cases p <;> rfl
@[simp] theorem State.wr64_ks_lastThrottle (s : State) (p : Part) (a : Nat) (v : BitVec 64) : (s.wr64 p a v).ks.lastThrottle = s.ks.lastThrottle := by cases p <;> rfl
@[simp] theorem State.wr64_ks_lastAlive (s : State) (p : Part) (a : Nat) (v : BitVec 64) : (s.wr64 p a v).ks.lastAlive = s.ks.lastAlive := by cases p <;> rfl
@[simp] theorem State.wr64_ks_lastResend (s : State) (p : Part) (a : Nat) (v : BitVec 64) : (s.wr64 p a v).ks.lastResend = s.ks.lastResend := by cases p <;> rfl
@[simp] theorem State.wr64_ks_events (s : State) (p : Part) (a : Nat) (v : BitVec 64) : (s.wr64 p a v).ks.events = s.ks.events := by cases p <;> rfl
@[simp] theorem State.wr64_ks_evtDropped (s : State) (p : Part) (a : Nat) (v : BitVec 64) : (s.wr64 p a v).ks.evtDropped = s.ks.evtDropped := by cases p <;> rfl
@[simp] theorem State.wr64_ks_admitted (s : State) (p : Part) (a : Nat) (v : BitVec 64) : (s.wr64 p a v).ks.admitted = s.ks.admitted := by cases p <;> rfl
@[simp] theorem State.wr64_ks_aliveTold (s : State) (p : Part) (a : Nat) (v : BitVec 64) : (s.wr64 p a v).ks.aliveTold = s.ks.aliveTold := by cases p <;> rfl
@[simp] theorem State.wr64_ks_doms (s : State) (p : Part) (a : Nat) (v : BitVec 64) : (s.wr64 p a v).ks.doms = s.ks.doms := by cases p <;> rfl
@[simp] theorem State.wr64_ks_leafRecs (s : State) (p : Part) (a : Nat) (v : BitVec 64) : (s.wr64 p a v).ks.leafRecs = s.ks.leafRecs := by cases p <;> rfl
@[simp] theorem State.wr64_ks_chunks (s : State) (p : Part) (a : Nat) (v : BitVec 64) : (s.wr64 p a v).ks.chunks = s.ks.chunks := by cases p <;> rfl
@[simp] theorem State.wr64_ks_kept (s : State) (p : Part) (a : Nat) (v : BitVec 64) : (s.wr64 p a v).ks.kept = s.ks.kept := by cases p <;> rfl
@[simp] theorem State.wr64_ks_shards (s : State) (p : Part) (a : Nat) (v : BitVec 64) : (s.wr64 p a v).ks.shards = s.ks.shards := by cases p <;> rfl
@[simp] theorem State.wr64_ks_blockQ (s : State) (p : Part) (a : Nat) (v : BitVec 64) : (s.wr64 p a v).ks.blockQ = s.ks.blockQ := by cases p <;> rfl
@[simp] theorem State.wr64_ks_jobs (s : State) (p : Part) (a : Nat) (v : BitVec 64) : (s.wr64 p a v).ks.jobs = s.ks.jobs := by cases p <;> rfl
@[simp] theorem State.wr64_ks_waitJobs (s : State) (p : Part) (a : Nat) (v : BitVec 64) : (s.wr64 p a v).ks.waitJobs = s.ks.waitJobs := by cases p <;> rfl
@[simp] theorem State.wr64_ks_windows (s : State) (p : Part) (a : Nat) (v : BitVec 64) : (s.wr64 p a v).ks.windows = s.ks.windows := by cases p <;> rfl
@[simp] theorem State.wr64_ks_bases (s : State) (p : Part) (a : Nat) (v : BitVec 64) : (s.wr64 p a v).ks.bases = s.ks.bases := by cases p <;> rfl
@[simp] theorem State.wr64_ks_staged (s : State) (p : Part) (a : Nat) (v : BitVec 64) : (s.wr64 p a v).ks.staged = s.ks.staged := by cases p <;> rfl
@[simp] theorem State.wr64_ks_ckpts (s : State) (p : Part) (a : Nat) (v : BitVec 64) : (s.wr64 p a v).ks.ckpts = s.ks.ckpts := by cases p <;> rfl
@[simp] theorem State.wr64_ks_fills (s : State) (p : Part) (a : Nat) (v : BitVec 64) : (s.wr64 p a v).ks.fills = s.ks.fills := by cases p <;> rfl
@[simp] theorem State.wr64_ks_cupChecks (s : State) (p : Part) (a : Nat) (v : BitVec 64) : (s.wr64 p a v).ks.cupChecks = s.ks.cupChecks := by cases p <;> rfl
@[simp] theorem State.wr64_ks_shardReads (s : State) (p : Part) (a : Nat) (v : BitVec 64) : (s.wr64 p a v).ks.shardReads = s.ks.shardReads := by cases p <;> rfl
@[simp] theorem State.wr64_ks_grants (s : State) (p : Part) (a : Nat) (v : BitVec 64) : (s.wr64 p a v).ks.grants = s.ks.grants := by cases p <;> rfl
@[simp] theorem State.wr64_ks_dspLeaves (s : State) (p : Part) (a : Nat) (v : BitVec 64) : (s.wr64 p a v).ks.dspLeaves = s.ks.dspLeaves := by cases p <;> rfl
@[simp] theorem State.wr64_ks_dspHomes (s : State) (p : Part) (a : Nat) (v : BitVec 64) : (s.wr64 p a v).ks.dspHomes = s.ks.dspHomes := by cases p <;> rfl
@[simp] theorem State.wr64_ks_dspEngine (s : State) (p : Part) (a : Nat) (v : BitVec 64) : (s.wr64 p a v).ks.dspEngine = s.ks.dspEngine := by cases p <;> rfl
@[simp] theorem State.wr64_ks_dspQ (s : State) (p : Part) (a : Nat) (v : BitVec 64) : (s.wr64 p a v).ks.dspQ = s.ks.dspQ := by cases p <;> rfl
@[simp] theorem State.wr64_ks_tieReroute (s : State) (p : Part) (a : Nat) (v : BitVec 64) : (s.wr64 p a v).ks.tieReroute = s.ks.tieReroute := by cases p <;> rfl
@[simp] theorem State.wr64_ks_objs (s : State) (p : Part) (a : Nat) (v : BitVec 64) : (s.wr64 p a v).ks.objs = s.ks.objs := by cases p <;> rfl
@[simp] theorem State.wr64_ks_heldTakes (s : State) (p : Part) (a : Nat) (v : BitVec 64) : (s.wr64 p a v).ks.heldTakes = s.ks.heldTakes := by cases p <;> rfl
@[simp] theorem State.wr64_ks_trackers (s : State) (p : Part) (a : Nat) (v : BitVec 64) : (s.wr64 p a v).ks.trackers = s.ks.trackers := by cases p <;> rfl
@[simp] theorem State.wr64_ks_sends (s : State) (p : Part) (a : Nat) (v : BitVec 64) : (s.wr64 p a v).ks.sends = s.ks.sends := by cases p <;> rfl
@[simp] theorem State.wr64_ks_writes (s : State) (p : Part) (a : Nat) (v : BitVec 64) : (s.wr64 p a v).ks.writes = s.ks.writes := by cases p <;> rfl
@[simp] theorem State.wr64_ks_takesDone (s : State) (p : Part) (a : Nat) (v : BitVec 64) : (s.wr64 p a v).ks.takesDone = s.ks.takesDone := by cases p <;> rfl
@[simp] theorem State.wr64_ks_mem (s : State) (p : Part) (a : Nat) (v : BitVec 64) : (s.wr64 p a v).ks.mem = s.ks.mem := by cases p <;> rfl
@[simp] theorem State.wr64_ks_ptpDiscard (s : State) (p : Part) (a : Nat) (v : BitVec 64) : (s.wr64 p a v).ks.ptpDiscard = s.ks.ptpDiscard := by cases p <;> rfl
@[simp] theorem State.wr64_ks_ppsDelay (s : State) (p : Part) (a : Nat) (v : BitVec 64) : (s.wr64 p a v).ks.ppsDelay = s.ks.ppsDelay := by cases p <;> rfl
@[simp] theorem State.wr64_ks_v2Waits (s : State) (p : Part) (a : Nat) (v : BitVec 64) : (s.wr64 p a v).ks.v2Waits = s.ks.v2Waits := by cases p <;> rfl
@[simp] theorem State.wr64_time (s : State) (p : Part) (a : Nat) (v : BitVec 64) (q : Part) : ((s.wr64 p a v).pc q).time = (s.pc q).time := by cases p <;> cases q <;> rfl
@[simp] theorem State.wr64_stamp (s : State) (p : Part) (a : Nat) (v : BitVec 64) (q : Part) : ((s.wr64 p a v).pc q).stamp = (s.pc q).stamp := by cases p <;> cases q <;> rfl
@[simp] theorem State.wr64_ctr (s : State) (p : Part) (a : Nat) (v : BitVec 64) (q : Part) : ((s.wr64 p a v).pc q).ctr = (s.pc q).ctr := by cases p <;> cases q <;> rfl
@[simp] theorem State.wr64_fw (s : State) (p : Part) (a : Nat) (v : BitVec 64) (q : Part) : ((s.wr64 p a v).pc q).fw = (s.pc q).fw := by cases p <;> cases q <;> rfl
@[simp] theorem State.wr64_link (s : State) (p : Part) (a : Nat) (v : BitVec 64) (q : Part) : ((s.wr64 p a v).pc q).link = (s.pc q).link := by cases p <;> cases q <;> rfl
@[simp] theorem State.wr64_highs (s : State) (p : Part) (a : Nat) (v : BitVec 64) (q : Part) : ((s.wr64 p a v).pc q).highs = (s.pc q).highs := by cases p <;> cases q <;> rfl
@[simp] theorem State.wrOt_bx_straps (s : State) (p : Part) (a : Nat) (x : OT) : (s.wrOt p a x).bx.straps = s.bx.straps := by cases p <;> rfl
@[simp] theorem State.wrOt_bx_refclkLost (s : State) (p : Part) (a : Nat) (x : OT) : (s.wrOt p a x).bx.refclkLost = s.bx.refclkLost := by cases p <;> rfl
@[simp] theorem State.wrOt_bx_fenced (s : State) (p : Part) (a : Nat) (x : OT) : (s.wrOt p a x).bx.fenced = s.bx.fenced := by cases p <;> rfl
@[simp] theorem State.wrOt_bx_fenceSeq (s : State) (p : Part) (a : Nat) (x : OT) : (s.wrOt p a x).bx.fenceSeq = s.bx.fenceSeq := by cases p <;> rfl
@[simp] theorem State.wrOt_bx_prior (s : State) (p : Part) (a : Nat) (x : OT) : (s.wrOt p a x).bx.prior = s.bx.prior := by cases p <;> rfl
@[simp] theorem State.wrOt_bx_reportSeq (s : State) (p : Part) (a : Nat) (x : OT) : (s.wrOt p a x).bx.reportSeq = s.bx.reportSeq := by cases p <;> rfl
@[simp] theorem State.wrOt_bx_tenants (s : State) (p : Part) (a : Nat) (x : OT) : (s.wrOt p a x).bx.tenants = s.bx.tenants := by cases p <;> rfl
@[simp] theorem State.wrOt_bx_slots (s : State) (p : Part) (a : Nat) (x : OT) : (s.wrOt p a x).bx.slots = s.bx.slots := by cases p <;> rfl
@[simp] theorem State.wrOt_bx_objs (s : State) (p : Part) (a : Nat) (x : OT) : (s.wrOt p a x).bx.objs = s.bx.objs := by cases p <;> rfl
@[simp] theorem State.wrOt_bx_heldTakes (s : State) (p : Part) (a : Nat) (x : OT) : (s.wrOt p a x).bx.heldTakes = s.bx.heldTakes := by cases p <;> rfl
@[simp] theorem State.wrOt_bx_trackers (s : State) (p : Part) (a : Nat) (x : OT) : (s.wrOt p a x).bx.trackers = s.bx.trackers := by cases p <;> rfl
@[simp] theorem State.wrOt_bx_sends (s : State) (p : Part) (a : Nat) (x : OT) : (s.wrOt p a x).bx.sends = s.bx.sends := by cases p <;> rfl
@[simp] theorem State.wrOt_bx_writes (s : State) (p : Part) (a : Nat) (x : OT) : (s.wrOt p a x).bx.writes = s.bx.writes := by cases p <;> rfl
@[simp] theorem State.wrOt_bx_reads (s : State) (p : Part) (a : Nat) (x : OT) : (s.wrOt p a x).bx.reads = s.bx.reads := by cases p <;> rfl
@[simp] theorem State.wrOt_bx_v2Waits (s : State) (p : Part) (a : Nat) (x : OT) : (s.wrOt p a x).bx.v2Waits = s.bx.v2Waits := by cases p <;> rfl
@[simp] theorem State.wrOt_bx_waitSends (s : State) (p : Part) (a : Nat) (x : OT) : (s.wrOt p a x).bx.waitSends = s.bx.waitSends := by cases p <;> rfl
@[simp] theorem State.wrOt_bx_parts (s : State) (p : Part) (a : Nat) (x : OT) : (s.wrOt p a x).bx.parts = s.bx.parts := by cases p <;> rfl
@[simp] theorem State.wrOt_bx_nextPart (s : State) (p : Part) (a : Nat) (x : OT) : (s.wrOt p a x).bx.nextPart = s.bx.nextPart := by cases p <;> rfl
@[simp] theorem State.wrOt_bx_readJobs (s : State) (p : Part) (a : Nat) (x : OT) : (s.wrOt p a x).bx.readJobs = s.bx.readJobs := by cases p <;> rfl
@[simp] theorem State.wrOt_bx_nextJob (s : State) (p : Part) (a : Nat) (x : OT) : (s.wrOt p a x).bx.nextJob = s.bx.nextJob := by cases p <;> rfl
@[simp] theorem State.wrOt_bx_bases (s : State) (p : Part) (a : Nat) (x : OT) : (s.wrOt p a x).bx.bases = s.bx.bases := by cases p <;> rfl
@[simp] theorem State.wrOt_ks_build (s : State) (p : Part) (a : Nat) (x : OT) : (s.wrOt p a x).ks.build = s.ks.build := by cases p <;> rfl
@[simp] theorem State.wrOt_ks_lostPlanes (s : State) (p : Part) (a : Nat) (x : OT) : (s.wrOt p a x).ks.lostPlanes = s.ks.lostPlanes := by cases p <;> rfl
@[simp] theorem State.wrOt_ks_fences (s : State) (p : Part) (a : Nat) (x : OT) : (s.wrOt p a x).ks.fences = s.ks.fences := by cases p <;> rfl
@[simp] theorem State.wrOt_ks_strapFb (s : State) (p : Part) (a : Nat) (x : OT) : (s.wrOt p a x).ks.strapFb = s.ks.strapFb := by cases p <;> rfl
@[simp] theorem State.wrOt_ks_pcieEn (s : State) (p : Part) (a : Nat) (x : OT) : (s.wrOt p a x).ks.pcieEn = s.ks.pcieEn := by cases p <;> rfl
@[simp] theorem State.wrOt_ks_pins (s : State) (p : Part) (a : Nat) (x : OT) : (s.wrOt p a x).ks.pins = s.ks.pins := by cases p <;> rfl
@[simp] theorem State.wrOt_ks_tripped (s : State) (p : Part) (a : Nat) (x : OT) : (s.wrOt p a x).ks.tripped = s.ks.tripped := by cases p <;> rfl
@[simp] theorem State.wrOt_ks_memFailed (s : State) (p : Part) (a : Nat) (x : OT) : (s.wrOt p a x).ks.memFailed = s.ks.memFailed := by cases p <;> rfl
@[simp] theorem State.wrOt_ks_memErrors (s : State) (p : Part) (a : Nat) (x : OT) : (s.wrOt p a x).ks.memErrors = s.ks.memErrors := by cases p <;> rfl
@[simp] theorem State.wrOt_ks_brimFailed (s : State) (p : Part) (a : Nat) (x : OT) : (s.wrOt p a x).ks.brimFailed = s.ks.brimFailed := by cases p <;> rfl
@[simp] theorem State.wrOt_ks_coolantSince (s : State) (p : Part) (a : Nat) (x : OT) : (s.wrOt p a x).ks.coolantSince = s.ks.coolantSince := by cases p <;> rfl
@[simp] theorem State.wrOt_ks_coolantTold (s : State) (p : Part) (a : Nat) (x : OT) : (s.wrOt p a x).ks.coolantTold = s.ks.coolantTold := by cases p <;> rfl
@[simp] theorem State.wrOt_ks_lastCoolant (s : State) (p : Part) (a : Nat) (x : OT) : (s.wrOt p a x).ks.lastCoolant = s.ks.lastCoolant := by cases p <;> rfl
@[simp] theorem State.wrOt_ks_lastThrottle (s : State) (p : Part) (a : Nat) (x : OT) : (s.wrOt p a x).ks.lastThrottle = s.ks.lastThrottle := by cases p <;> rfl
@[simp] theorem State.wrOt_ks_lastAlive (s : State) (p : Part) (a : Nat) (x : OT) : (s.wrOt p a x).ks.lastAlive = s.ks.lastAlive := by cases p <;> rfl
@[simp] theorem State.wrOt_ks_lastResend (s : State) (p : Part) (a : Nat) (x : OT) : (s.wrOt p a x).ks.lastResend = s.ks.lastResend := by cases p <;> rfl
@[simp] theorem State.wrOt_ks_events (s : State) (p : Part) (a : Nat) (x : OT) : (s.wrOt p a x).ks.events = s.ks.events := by cases p <;> rfl
@[simp] theorem State.wrOt_ks_evtDropped (s : State) (p : Part) (a : Nat) (x : OT) : (s.wrOt p a x).ks.evtDropped = s.ks.evtDropped := by cases p <;> rfl
@[simp] theorem State.wrOt_ks_admitted (s : State) (p : Part) (a : Nat) (x : OT) : (s.wrOt p a x).ks.admitted = s.ks.admitted := by cases p <;> rfl
@[simp] theorem State.wrOt_ks_aliveTold (s : State) (p : Part) (a : Nat) (x : OT) : (s.wrOt p a x).ks.aliveTold = s.ks.aliveTold := by cases p <;> rfl
@[simp] theorem State.wrOt_ks_doms (s : State) (p : Part) (a : Nat) (x : OT) : (s.wrOt p a x).ks.doms = s.ks.doms := by cases p <;> rfl
@[simp] theorem State.wrOt_ks_leafRecs (s : State) (p : Part) (a : Nat) (x : OT) : (s.wrOt p a x).ks.leafRecs = s.ks.leafRecs := by cases p <;> rfl
@[simp] theorem State.wrOt_ks_chunks (s : State) (p : Part) (a : Nat) (x : OT) : (s.wrOt p a x).ks.chunks = s.ks.chunks := by cases p <;> rfl
@[simp] theorem State.wrOt_ks_kept (s : State) (p : Part) (a : Nat) (x : OT) : (s.wrOt p a x).ks.kept = s.ks.kept := by cases p <;> rfl
@[simp] theorem State.wrOt_ks_shards (s : State) (p : Part) (a : Nat) (x : OT) : (s.wrOt p a x).ks.shards = s.ks.shards := by cases p <;> rfl
@[simp] theorem State.wrOt_ks_blockQ (s : State) (p : Part) (a : Nat) (x : OT) : (s.wrOt p a x).ks.blockQ = s.ks.blockQ := by cases p <;> rfl
@[simp] theorem State.wrOt_ks_jobs (s : State) (p : Part) (a : Nat) (x : OT) : (s.wrOt p a x).ks.jobs = s.ks.jobs := by cases p <;> rfl
@[simp] theorem State.wrOt_ks_waitJobs (s : State) (p : Part) (a : Nat) (x : OT) : (s.wrOt p a x).ks.waitJobs = s.ks.waitJobs := by cases p <;> rfl
@[simp] theorem State.wrOt_ks_windows (s : State) (p : Part) (a : Nat) (x : OT) : (s.wrOt p a x).ks.windows = s.ks.windows := by cases p <;> rfl
@[simp] theorem State.wrOt_ks_bases (s : State) (p : Part) (a : Nat) (x : OT) : (s.wrOt p a x).ks.bases = s.ks.bases := by cases p <;> rfl
@[simp] theorem State.wrOt_ks_staged (s : State) (p : Part) (a : Nat) (x : OT) : (s.wrOt p a x).ks.staged = s.ks.staged := by cases p <;> rfl
@[simp] theorem State.wrOt_ks_ckpts (s : State) (p : Part) (a : Nat) (x : OT) : (s.wrOt p a x).ks.ckpts = s.ks.ckpts := by cases p <;> rfl
@[simp] theorem State.wrOt_ks_fills (s : State) (p : Part) (a : Nat) (x : OT) : (s.wrOt p a x).ks.fills = s.ks.fills := by cases p <;> rfl
@[simp] theorem State.wrOt_ks_cupChecks (s : State) (p : Part) (a : Nat) (x : OT) : (s.wrOt p a x).ks.cupChecks = s.ks.cupChecks := by cases p <;> rfl
@[simp] theorem State.wrOt_ks_shardReads (s : State) (p : Part) (a : Nat) (x : OT) : (s.wrOt p a x).ks.shardReads = s.ks.shardReads := by cases p <;> rfl
@[simp] theorem State.wrOt_ks_grants (s : State) (p : Part) (a : Nat) (x : OT) : (s.wrOt p a x).ks.grants = s.ks.grants := by cases p <;> rfl
@[simp] theorem State.wrOt_ks_dspLeaves (s : State) (p : Part) (a : Nat) (x : OT) : (s.wrOt p a x).ks.dspLeaves = s.ks.dspLeaves := by cases p <;> rfl
@[simp] theorem State.wrOt_ks_dspHomes (s : State) (p : Part) (a : Nat) (x : OT) : (s.wrOt p a x).ks.dspHomes = s.ks.dspHomes := by cases p <;> rfl
@[simp] theorem State.wrOt_ks_dspEngine (s : State) (p : Part) (a : Nat) (x : OT) : (s.wrOt p a x).ks.dspEngine = s.ks.dspEngine := by cases p <;> rfl
@[simp] theorem State.wrOt_ks_dspQ (s : State) (p : Part) (a : Nat) (x : OT) : (s.wrOt p a x).ks.dspQ = s.ks.dspQ := by cases p <;> rfl
@[simp] theorem State.wrOt_ks_tieReroute (s : State) (p : Part) (a : Nat) (x : OT) : (s.wrOt p a x).ks.tieReroute = s.ks.tieReroute := by cases p <;> rfl
@[simp] theorem State.wrOt_ks_objs (s : State) (p : Part) (a : Nat) (x : OT) : (s.wrOt p a x).ks.objs = s.ks.objs := by cases p <;> rfl
@[simp] theorem State.wrOt_ks_heldTakes (s : State) (p : Part) (a : Nat) (x : OT) : (s.wrOt p a x).ks.heldTakes = s.ks.heldTakes := by cases p <;> rfl
@[simp] theorem State.wrOt_ks_trackers (s : State) (p : Part) (a : Nat) (x : OT) : (s.wrOt p a x).ks.trackers = s.ks.trackers := by cases p <;> rfl
@[simp] theorem State.wrOt_ks_sends (s : State) (p : Part) (a : Nat) (x : OT) : (s.wrOt p a x).ks.sends = s.ks.sends := by cases p <;> rfl
@[simp] theorem State.wrOt_ks_writes (s : State) (p : Part) (a : Nat) (x : OT) : (s.wrOt p a x).ks.writes = s.ks.writes := by cases p <;> rfl
@[simp] theorem State.wrOt_ks_takesDone (s : State) (p : Part) (a : Nat) (x : OT) : (s.wrOt p a x).ks.takesDone = s.ks.takesDone := by cases p <;> rfl
@[simp] theorem State.wrOt_ks_mem (s : State) (p : Part) (a : Nat) (x : OT) : (s.wrOt p a x).ks.mem = s.ks.mem := by cases p <;> rfl
@[simp] theorem State.wrOt_ks_ptpDiscard (s : State) (p : Part) (a : Nat) (x : OT) : (s.wrOt p a x).ks.ptpDiscard = s.ks.ptpDiscard := by cases p <;> rfl
@[simp] theorem State.wrOt_ks_ppsDelay (s : State) (p : Part) (a : Nat) (x : OT) : (s.wrOt p a x).ks.ppsDelay = s.ks.ppsDelay := by cases p <;> rfl
@[simp] theorem State.wrOt_ks_v2Waits (s : State) (p : Part) (a : Nat) (x : OT) : (s.wrOt p a x).ks.v2Waits = s.ks.v2Waits := by cases p <;> rfl
@[simp] theorem State.wrOt_time (s : State) (p : Part) (a : Nat) (x : OT) (q : Part) : ((s.wrOt p a x).pc q).time = (s.pc q).time := by cases p <;> cases q <;> rfl
@[simp] theorem State.wrOt_stamp (s : State) (p : Part) (a : Nat) (x : OT) (q : Part) : ((s.wrOt p a x).pc q).stamp = (s.pc q).stamp := by cases p <;> cases q <;> rfl
@[simp] theorem State.wrOt_ctr (s : State) (p : Part) (a : Nat) (x : OT) (q : Part) : ((s.wrOt p a x).pc q).ctr = (s.pc q).ctr := by cases p <;> cases q <;> rfl
@[simp] theorem State.wrOt_fw (s : State) (p : Part) (a : Nat) (x : OT) (q : Part) : ((s.wrOt p a x).pc q).fw = (s.pc q).fw := by cases p <;> cases q <;> rfl
@[simp] theorem State.wrOt_link (s : State) (p : Part) (a : Nat) (x : OT) (q : Part) : ((s.wrOt p a x).pc q).link = (s.pc q).link := by cases p <;> cases q <;> rfl
@[simp] theorem State.wrOt_highs (s : State) (p : Part) (a : Nat) (x : OT) (q : Part) : ((s.wrOt p a x).pc q).highs = (s.pc q).highs := by cases p <;> cases q <;> rfl
@[simp] theorem State.modTime_bx_straps (s : State) (p : Part) (g : TimeUnit → TimeUnit) : (s.modTime p g).bx.straps = s.bx.straps := by cases p <;> rfl
@[simp] theorem State.modTime_bx_refclkLost (s : State) (p : Part) (g : TimeUnit → TimeUnit) : (s.modTime p g).bx.refclkLost = s.bx.refclkLost := by cases p <;> rfl
@[simp] theorem State.modTime_bx_fenced (s : State) (p : Part) (g : TimeUnit → TimeUnit) : (s.modTime p g).bx.fenced = s.bx.fenced := by cases p <;> rfl
@[simp] theorem State.modTime_bx_fenceSeq (s : State) (p : Part) (g : TimeUnit → TimeUnit) : (s.modTime p g).bx.fenceSeq = s.bx.fenceSeq := by cases p <;> rfl
@[simp] theorem State.modTime_bx_prior (s : State) (p : Part) (g : TimeUnit → TimeUnit) : (s.modTime p g).bx.prior = s.bx.prior := by cases p <;> rfl
@[simp] theorem State.modTime_bx_reportSeq (s : State) (p : Part) (g : TimeUnit → TimeUnit) : (s.modTime p g).bx.reportSeq = s.bx.reportSeq := by cases p <;> rfl
@[simp] theorem State.modTime_bx_tenants (s : State) (p : Part) (g : TimeUnit → TimeUnit) : (s.modTime p g).bx.tenants = s.bx.tenants := by cases p <;> rfl
@[simp] theorem State.modTime_bx_slots (s : State) (p : Part) (g : TimeUnit → TimeUnit) : (s.modTime p g).bx.slots = s.bx.slots := by cases p <;> rfl
@[simp] theorem State.modTime_bx_objs (s : State) (p : Part) (g : TimeUnit → TimeUnit) : (s.modTime p g).bx.objs = s.bx.objs := by cases p <;> rfl
@[simp] theorem State.modTime_bx_heldTakes (s : State) (p : Part) (g : TimeUnit → TimeUnit) : (s.modTime p g).bx.heldTakes = s.bx.heldTakes := by cases p <;> rfl
@[simp] theorem State.modTime_bx_trackers (s : State) (p : Part) (g : TimeUnit → TimeUnit) : (s.modTime p g).bx.trackers = s.bx.trackers := by cases p <;> rfl
@[simp] theorem State.modTime_bx_sends (s : State) (p : Part) (g : TimeUnit → TimeUnit) : (s.modTime p g).bx.sends = s.bx.sends := by cases p <;> rfl
@[simp] theorem State.modTime_bx_writes (s : State) (p : Part) (g : TimeUnit → TimeUnit) : (s.modTime p g).bx.writes = s.bx.writes := by cases p <;> rfl
@[simp] theorem State.modTime_bx_reads (s : State) (p : Part) (g : TimeUnit → TimeUnit) : (s.modTime p g).bx.reads = s.bx.reads := by cases p <;> rfl
@[simp] theorem State.modTime_bx_v2Waits (s : State) (p : Part) (g : TimeUnit → TimeUnit) : (s.modTime p g).bx.v2Waits = s.bx.v2Waits := by cases p <;> rfl
@[simp] theorem State.modTime_bx_waitSends (s : State) (p : Part) (g : TimeUnit → TimeUnit) : (s.modTime p g).bx.waitSends = s.bx.waitSends := by cases p <;> rfl
@[simp] theorem State.modTime_bx_parts (s : State) (p : Part) (g : TimeUnit → TimeUnit) : (s.modTime p g).bx.parts = s.bx.parts := by cases p <;> rfl
@[simp] theorem State.modTime_bx_nextPart (s : State) (p : Part) (g : TimeUnit → TimeUnit) : (s.modTime p g).bx.nextPart = s.bx.nextPart := by cases p <;> rfl
@[simp] theorem State.modTime_bx_readJobs (s : State) (p : Part) (g : TimeUnit → TimeUnit) : (s.modTime p g).bx.readJobs = s.bx.readJobs := by cases p <;> rfl
@[simp] theorem State.modTime_bx_nextJob (s : State) (p : Part) (g : TimeUnit → TimeUnit) : (s.modTime p g).bx.nextJob = s.bx.nextJob := by cases p <;> rfl
@[simp] theorem State.modTime_bx_bases (s : State) (p : Part) (g : TimeUnit → TimeUnit) : (s.modTime p g).bx.bases = s.bx.bases := by cases p <;> rfl
@[simp] theorem State.modTime_ks_build (s : State) (p : Part) (g : TimeUnit → TimeUnit) : (s.modTime p g).ks.build = s.ks.build := by cases p <;> rfl
@[simp] theorem State.modTime_ks_lostPlanes (s : State) (p : Part) (g : TimeUnit → TimeUnit) : (s.modTime p g).ks.lostPlanes = s.ks.lostPlanes := by cases p <;> rfl
@[simp] theorem State.modTime_ks_fences (s : State) (p : Part) (g : TimeUnit → TimeUnit) : (s.modTime p g).ks.fences = s.ks.fences := by cases p <;> rfl
@[simp] theorem State.modTime_ks_strapFb (s : State) (p : Part) (g : TimeUnit → TimeUnit) : (s.modTime p g).ks.strapFb = s.ks.strapFb := by cases p <;> rfl
@[simp] theorem State.modTime_ks_pcieEn (s : State) (p : Part) (g : TimeUnit → TimeUnit) : (s.modTime p g).ks.pcieEn = s.ks.pcieEn := by cases p <;> rfl
@[simp] theorem State.modTime_ks_pins (s : State) (p : Part) (g : TimeUnit → TimeUnit) : (s.modTime p g).ks.pins = s.ks.pins := by cases p <;> rfl
@[simp] theorem State.modTime_ks_tripped (s : State) (p : Part) (g : TimeUnit → TimeUnit) : (s.modTime p g).ks.tripped = s.ks.tripped := by cases p <;> rfl
@[simp] theorem State.modTime_ks_memFailed (s : State) (p : Part) (g : TimeUnit → TimeUnit) : (s.modTime p g).ks.memFailed = s.ks.memFailed := by cases p <;> rfl
@[simp] theorem State.modTime_ks_memErrors (s : State) (p : Part) (g : TimeUnit → TimeUnit) : (s.modTime p g).ks.memErrors = s.ks.memErrors := by cases p <;> rfl
@[simp] theorem State.modTime_ks_brimFailed (s : State) (p : Part) (g : TimeUnit → TimeUnit) : (s.modTime p g).ks.brimFailed = s.ks.brimFailed := by cases p <;> rfl
@[simp] theorem State.modTime_ks_coolantSince (s : State) (p : Part) (g : TimeUnit → TimeUnit) : (s.modTime p g).ks.coolantSince = s.ks.coolantSince := by cases p <;> rfl
@[simp] theorem State.modTime_ks_coolantTold (s : State) (p : Part) (g : TimeUnit → TimeUnit) : (s.modTime p g).ks.coolantTold = s.ks.coolantTold := by cases p <;> rfl
@[simp] theorem State.modTime_ks_lastCoolant (s : State) (p : Part) (g : TimeUnit → TimeUnit) : (s.modTime p g).ks.lastCoolant = s.ks.lastCoolant := by cases p <;> rfl
@[simp] theorem State.modTime_ks_lastThrottle (s : State) (p : Part) (g : TimeUnit → TimeUnit) : (s.modTime p g).ks.lastThrottle = s.ks.lastThrottle := by cases p <;> rfl
@[simp] theorem State.modTime_ks_lastAlive (s : State) (p : Part) (g : TimeUnit → TimeUnit) : (s.modTime p g).ks.lastAlive = s.ks.lastAlive := by cases p <;> rfl
@[simp] theorem State.modTime_ks_lastResend (s : State) (p : Part) (g : TimeUnit → TimeUnit) : (s.modTime p g).ks.lastResend = s.ks.lastResend := by cases p <;> rfl
@[simp] theorem State.modTime_ks_events (s : State) (p : Part) (g : TimeUnit → TimeUnit) : (s.modTime p g).ks.events = s.ks.events := by cases p <;> rfl
@[simp] theorem State.modTime_ks_evtDropped (s : State) (p : Part) (g : TimeUnit → TimeUnit) : (s.modTime p g).ks.evtDropped = s.ks.evtDropped := by cases p <;> rfl
@[simp] theorem State.modTime_ks_admitted (s : State) (p : Part) (g : TimeUnit → TimeUnit) : (s.modTime p g).ks.admitted = s.ks.admitted := by cases p <;> rfl
@[simp] theorem State.modTime_ks_aliveTold (s : State) (p : Part) (g : TimeUnit → TimeUnit) : (s.modTime p g).ks.aliveTold = s.ks.aliveTold := by cases p <;> rfl
@[simp] theorem State.modTime_ks_doms (s : State) (p : Part) (g : TimeUnit → TimeUnit) : (s.modTime p g).ks.doms = s.ks.doms := by cases p <;> rfl
@[simp] theorem State.modTime_ks_leafRecs (s : State) (p : Part) (g : TimeUnit → TimeUnit) : (s.modTime p g).ks.leafRecs = s.ks.leafRecs := by cases p <;> rfl
@[simp] theorem State.modTime_ks_chunks (s : State) (p : Part) (g : TimeUnit → TimeUnit) : (s.modTime p g).ks.chunks = s.ks.chunks := by cases p <;> rfl
@[simp] theorem State.modTime_ks_kept (s : State) (p : Part) (g : TimeUnit → TimeUnit) : (s.modTime p g).ks.kept = s.ks.kept := by cases p <;> rfl
@[simp] theorem State.modTime_ks_shards (s : State) (p : Part) (g : TimeUnit → TimeUnit) : (s.modTime p g).ks.shards = s.ks.shards := by cases p <;> rfl
@[simp] theorem State.modTime_ks_blockQ (s : State) (p : Part) (g : TimeUnit → TimeUnit) : (s.modTime p g).ks.blockQ = s.ks.blockQ := by cases p <;> rfl
@[simp] theorem State.modTime_ks_jobs (s : State) (p : Part) (g : TimeUnit → TimeUnit) : (s.modTime p g).ks.jobs = s.ks.jobs := by cases p <;> rfl
@[simp] theorem State.modTime_ks_waitJobs (s : State) (p : Part) (g : TimeUnit → TimeUnit) : (s.modTime p g).ks.waitJobs = s.ks.waitJobs := by cases p <;> rfl
@[simp] theorem State.modTime_ks_windows (s : State) (p : Part) (g : TimeUnit → TimeUnit) : (s.modTime p g).ks.windows = s.ks.windows := by cases p <;> rfl
@[simp] theorem State.modTime_ks_bases (s : State) (p : Part) (g : TimeUnit → TimeUnit) : (s.modTime p g).ks.bases = s.ks.bases := by cases p <;> rfl
@[simp] theorem State.modTime_ks_staged (s : State) (p : Part) (g : TimeUnit → TimeUnit) : (s.modTime p g).ks.staged = s.ks.staged := by cases p <;> rfl
@[simp] theorem State.modTime_ks_ckpts (s : State) (p : Part) (g : TimeUnit → TimeUnit) : (s.modTime p g).ks.ckpts = s.ks.ckpts := by cases p <;> rfl
@[simp] theorem State.modTime_ks_fills (s : State) (p : Part) (g : TimeUnit → TimeUnit) : (s.modTime p g).ks.fills = s.ks.fills := by cases p <;> rfl
@[simp] theorem State.modTime_ks_cupChecks (s : State) (p : Part) (g : TimeUnit → TimeUnit) : (s.modTime p g).ks.cupChecks = s.ks.cupChecks := by cases p <;> rfl
@[simp] theorem State.modTime_ks_shardReads (s : State) (p : Part) (g : TimeUnit → TimeUnit) : (s.modTime p g).ks.shardReads = s.ks.shardReads := by cases p <;> rfl
@[simp] theorem State.modTime_ks_grants (s : State) (p : Part) (g : TimeUnit → TimeUnit) : (s.modTime p g).ks.grants = s.ks.grants := by cases p <;> rfl
@[simp] theorem State.modTime_ks_dspLeaves (s : State) (p : Part) (g : TimeUnit → TimeUnit) : (s.modTime p g).ks.dspLeaves = s.ks.dspLeaves := by cases p <;> rfl
@[simp] theorem State.modTime_ks_dspHomes (s : State) (p : Part) (g : TimeUnit → TimeUnit) : (s.modTime p g).ks.dspHomes = s.ks.dspHomes := by cases p <;> rfl
@[simp] theorem State.modTime_ks_dspEngine (s : State) (p : Part) (g : TimeUnit → TimeUnit) : (s.modTime p g).ks.dspEngine = s.ks.dspEngine := by cases p <;> rfl
@[simp] theorem State.modTime_ks_dspQ (s : State) (p : Part) (g : TimeUnit → TimeUnit) : (s.modTime p g).ks.dspQ = s.ks.dspQ := by cases p <;> rfl
@[simp] theorem State.modTime_ks_tieReroute (s : State) (p : Part) (g : TimeUnit → TimeUnit) : (s.modTime p g).ks.tieReroute = s.ks.tieReroute := by cases p <;> rfl
@[simp] theorem State.modTime_ks_objs (s : State) (p : Part) (g : TimeUnit → TimeUnit) : (s.modTime p g).ks.objs = s.ks.objs := by cases p <;> rfl
@[simp] theorem State.modTime_ks_heldTakes (s : State) (p : Part) (g : TimeUnit → TimeUnit) : (s.modTime p g).ks.heldTakes = s.ks.heldTakes := by cases p <;> rfl
@[simp] theorem State.modTime_ks_trackers (s : State) (p : Part) (g : TimeUnit → TimeUnit) : (s.modTime p g).ks.trackers = s.ks.trackers := by cases p <;> rfl
@[simp] theorem State.modTime_ks_sends (s : State) (p : Part) (g : TimeUnit → TimeUnit) : (s.modTime p g).ks.sends = s.ks.sends := by cases p <;> rfl
@[simp] theorem State.modTime_ks_writes (s : State) (p : Part) (g : TimeUnit → TimeUnit) : (s.modTime p g).ks.writes = s.ks.writes := by cases p <;> rfl
@[simp] theorem State.modTime_ks_takesDone (s : State) (p : Part) (g : TimeUnit → TimeUnit) : (s.modTime p g).ks.takesDone = s.ks.takesDone := by cases p <;> rfl
@[simp] theorem State.modTime_ks_mem (s : State) (p : Part) (g : TimeUnit → TimeUnit) : (s.modTime p g).ks.mem = s.ks.mem := by cases p <;> rfl
@[simp] theorem State.modTime_ks_ptpDiscard (s : State) (p : Part) (g : TimeUnit → TimeUnit) : (s.modTime p g).ks.ptpDiscard = s.ks.ptpDiscard := by cases p <;> rfl
@[simp] theorem State.modTime_ks_ppsDelay (s : State) (p : Part) (g : TimeUnit → TimeUnit) : (s.modTime p g).ks.ppsDelay = s.ks.ppsDelay := by cases p <;> rfl
@[simp] theorem State.modTime_ks_v2Waits (s : State) (p : Part) (g : TimeUnit → TimeUnit) : (s.modTime p g).ks.v2Waits = s.ks.v2Waits := by cases p <;> rfl
@[simp] theorem State.modStamp_bx_straps (s : State) (p : Part) (g : StampUnit → StampUnit) : (s.modStamp p g).bx.straps = s.bx.straps := by cases p <;> rfl
@[simp] theorem State.modStamp_bx_refclkLost (s : State) (p : Part) (g : StampUnit → StampUnit) : (s.modStamp p g).bx.refclkLost = s.bx.refclkLost := by cases p <;> rfl
@[simp] theorem State.modStamp_bx_fenced (s : State) (p : Part) (g : StampUnit → StampUnit) : (s.modStamp p g).bx.fenced = s.bx.fenced := by cases p <;> rfl
@[simp] theorem State.modStamp_bx_fenceSeq (s : State) (p : Part) (g : StampUnit → StampUnit) : (s.modStamp p g).bx.fenceSeq = s.bx.fenceSeq := by cases p <;> rfl
@[simp] theorem State.modStamp_bx_prior (s : State) (p : Part) (g : StampUnit → StampUnit) : (s.modStamp p g).bx.prior = s.bx.prior := by cases p <;> rfl
@[simp] theorem State.modStamp_bx_reportSeq (s : State) (p : Part) (g : StampUnit → StampUnit) : (s.modStamp p g).bx.reportSeq = s.bx.reportSeq := by cases p <;> rfl
@[simp] theorem State.modStamp_bx_tenants (s : State) (p : Part) (g : StampUnit → StampUnit) : (s.modStamp p g).bx.tenants = s.bx.tenants := by cases p <;> rfl
@[simp] theorem State.modStamp_bx_slots (s : State) (p : Part) (g : StampUnit → StampUnit) : (s.modStamp p g).bx.slots = s.bx.slots := by cases p <;> rfl
@[simp] theorem State.modStamp_bx_objs (s : State) (p : Part) (g : StampUnit → StampUnit) : (s.modStamp p g).bx.objs = s.bx.objs := by cases p <;> rfl
@[simp] theorem State.modStamp_bx_heldTakes (s : State) (p : Part) (g : StampUnit → StampUnit) : (s.modStamp p g).bx.heldTakes = s.bx.heldTakes := by cases p <;> rfl
@[simp] theorem State.modStamp_bx_trackers (s : State) (p : Part) (g : StampUnit → StampUnit) : (s.modStamp p g).bx.trackers = s.bx.trackers := by cases p <;> rfl
@[simp] theorem State.modStamp_bx_sends (s : State) (p : Part) (g : StampUnit → StampUnit) : (s.modStamp p g).bx.sends = s.bx.sends := by cases p <;> rfl
@[simp] theorem State.modStamp_bx_writes (s : State) (p : Part) (g : StampUnit → StampUnit) : (s.modStamp p g).bx.writes = s.bx.writes := by cases p <;> rfl
@[simp] theorem State.modStamp_bx_reads (s : State) (p : Part) (g : StampUnit → StampUnit) : (s.modStamp p g).bx.reads = s.bx.reads := by cases p <;> rfl
@[simp] theorem State.modStamp_bx_v2Waits (s : State) (p : Part) (g : StampUnit → StampUnit) : (s.modStamp p g).bx.v2Waits = s.bx.v2Waits := by cases p <;> rfl
@[simp] theorem State.modStamp_bx_waitSends (s : State) (p : Part) (g : StampUnit → StampUnit) : (s.modStamp p g).bx.waitSends = s.bx.waitSends := by cases p <;> rfl
@[simp] theorem State.modStamp_bx_parts (s : State) (p : Part) (g : StampUnit → StampUnit) : (s.modStamp p g).bx.parts = s.bx.parts := by cases p <;> rfl
@[simp] theorem State.modStamp_bx_nextPart (s : State) (p : Part) (g : StampUnit → StampUnit) : (s.modStamp p g).bx.nextPart = s.bx.nextPart := by cases p <;> rfl
@[simp] theorem State.modStamp_bx_readJobs (s : State) (p : Part) (g : StampUnit → StampUnit) : (s.modStamp p g).bx.readJobs = s.bx.readJobs := by cases p <;> rfl
@[simp] theorem State.modStamp_bx_nextJob (s : State) (p : Part) (g : StampUnit → StampUnit) : (s.modStamp p g).bx.nextJob = s.bx.nextJob := by cases p <;> rfl
@[simp] theorem State.modStamp_bx_bases (s : State) (p : Part) (g : StampUnit → StampUnit) : (s.modStamp p g).bx.bases = s.bx.bases := by cases p <;> rfl
@[simp] theorem State.modStamp_ks_build (s : State) (p : Part) (g : StampUnit → StampUnit) : (s.modStamp p g).ks.build = s.ks.build := by cases p <;> rfl
@[simp] theorem State.modStamp_ks_lostPlanes (s : State) (p : Part) (g : StampUnit → StampUnit) : (s.modStamp p g).ks.lostPlanes = s.ks.lostPlanes := by cases p <;> rfl
@[simp] theorem State.modStamp_ks_fences (s : State) (p : Part) (g : StampUnit → StampUnit) : (s.modStamp p g).ks.fences = s.ks.fences := by cases p <;> rfl
@[simp] theorem State.modStamp_ks_strapFb (s : State) (p : Part) (g : StampUnit → StampUnit) : (s.modStamp p g).ks.strapFb = s.ks.strapFb := by cases p <;> rfl
@[simp] theorem State.modStamp_ks_pcieEn (s : State) (p : Part) (g : StampUnit → StampUnit) : (s.modStamp p g).ks.pcieEn = s.ks.pcieEn := by cases p <;> rfl
@[simp] theorem State.modStamp_ks_pins (s : State) (p : Part) (g : StampUnit → StampUnit) : (s.modStamp p g).ks.pins = s.ks.pins := by cases p <;> rfl
@[simp] theorem State.modStamp_ks_tripped (s : State) (p : Part) (g : StampUnit → StampUnit) : (s.modStamp p g).ks.tripped = s.ks.tripped := by cases p <;> rfl
@[simp] theorem State.modStamp_ks_memFailed (s : State) (p : Part) (g : StampUnit → StampUnit) : (s.modStamp p g).ks.memFailed = s.ks.memFailed := by cases p <;> rfl
@[simp] theorem State.modStamp_ks_memErrors (s : State) (p : Part) (g : StampUnit → StampUnit) : (s.modStamp p g).ks.memErrors = s.ks.memErrors := by cases p <;> rfl
@[simp] theorem State.modStamp_ks_brimFailed (s : State) (p : Part) (g : StampUnit → StampUnit) : (s.modStamp p g).ks.brimFailed = s.ks.brimFailed := by cases p <;> rfl
@[simp] theorem State.modStamp_ks_coolantSince (s : State) (p : Part) (g : StampUnit → StampUnit) : (s.modStamp p g).ks.coolantSince = s.ks.coolantSince := by cases p <;> rfl
@[simp] theorem State.modStamp_ks_coolantTold (s : State) (p : Part) (g : StampUnit → StampUnit) : (s.modStamp p g).ks.coolantTold = s.ks.coolantTold := by cases p <;> rfl
@[simp] theorem State.modStamp_ks_lastCoolant (s : State) (p : Part) (g : StampUnit → StampUnit) : (s.modStamp p g).ks.lastCoolant = s.ks.lastCoolant := by cases p <;> rfl
@[simp] theorem State.modStamp_ks_lastThrottle (s : State) (p : Part) (g : StampUnit → StampUnit) : (s.modStamp p g).ks.lastThrottle = s.ks.lastThrottle := by cases p <;> rfl
@[simp] theorem State.modStamp_ks_lastAlive (s : State) (p : Part) (g : StampUnit → StampUnit) : (s.modStamp p g).ks.lastAlive = s.ks.lastAlive := by cases p <;> rfl
@[simp] theorem State.modStamp_ks_lastResend (s : State) (p : Part) (g : StampUnit → StampUnit) : (s.modStamp p g).ks.lastResend = s.ks.lastResend := by cases p <;> rfl
@[simp] theorem State.modStamp_ks_events (s : State) (p : Part) (g : StampUnit → StampUnit) : (s.modStamp p g).ks.events = s.ks.events := by cases p <;> rfl
@[simp] theorem State.modStamp_ks_evtDropped (s : State) (p : Part) (g : StampUnit → StampUnit) : (s.modStamp p g).ks.evtDropped = s.ks.evtDropped := by cases p <;> rfl
@[simp] theorem State.modStamp_ks_admitted (s : State) (p : Part) (g : StampUnit → StampUnit) : (s.modStamp p g).ks.admitted = s.ks.admitted := by cases p <;> rfl
@[simp] theorem State.modStamp_ks_aliveTold (s : State) (p : Part) (g : StampUnit → StampUnit) : (s.modStamp p g).ks.aliveTold = s.ks.aliveTold := by cases p <;> rfl
@[simp] theorem State.modStamp_ks_doms (s : State) (p : Part) (g : StampUnit → StampUnit) : (s.modStamp p g).ks.doms = s.ks.doms := by cases p <;> rfl
@[simp] theorem State.modStamp_ks_leafRecs (s : State) (p : Part) (g : StampUnit → StampUnit) : (s.modStamp p g).ks.leafRecs = s.ks.leafRecs := by cases p <;> rfl
@[simp] theorem State.modStamp_ks_chunks (s : State) (p : Part) (g : StampUnit → StampUnit) : (s.modStamp p g).ks.chunks = s.ks.chunks := by cases p <;> rfl
@[simp] theorem State.modStamp_ks_kept (s : State) (p : Part) (g : StampUnit → StampUnit) : (s.modStamp p g).ks.kept = s.ks.kept := by cases p <;> rfl
@[simp] theorem State.modStamp_ks_shards (s : State) (p : Part) (g : StampUnit → StampUnit) : (s.modStamp p g).ks.shards = s.ks.shards := by cases p <;> rfl
@[simp] theorem State.modStamp_ks_blockQ (s : State) (p : Part) (g : StampUnit → StampUnit) : (s.modStamp p g).ks.blockQ = s.ks.blockQ := by cases p <;> rfl
@[simp] theorem State.modStamp_ks_jobs (s : State) (p : Part) (g : StampUnit → StampUnit) : (s.modStamp p g).ks.jobs = s.ks.jobs := by cases p <;> rfl
@[simp] theorem State.modStamp_ks_waitJobs (s : State) (p : Part) (g : StampUnit → StampUnit) : (s.modStamp p g).ks.waitJobs = s.ks.waitJobs := by cases p <;> rfl
@[simp] theorem State.modStamp_ks_windows (s : State) (p : Part) (g : StampUnit → StampUnit) : (s.modStamp p g).ks.windows = s.ks.windows := by cases p <;> rfl
@[simp] theorem State.modStamp_ks_bases (s : State) (p : Part) (g : StampUnit → StampUnit) : (s.modStamp p g).ks.bases = s.ks.bases := by cases p <;> rfl
@[simp] theorem State.modStamp_ks_staged (s : State) (p : Part) (g : StampUnit → StampUnit) : (s.modStamp p g).ks.staged = s.ks.staged := by cases p <;> rfl
@[simp] theorem State.modStamp_ks_ckpts (s : State) (p : Part) (g : StampUnit → StampUnit) : (s.modStamp p g).ks.ckpts = s.ks.ckpts := by cases p <;> rfl
@[simp] theorem State.modStamp_ks_fills (s : State) (p : Part) (g : StampUnit → StampUnit) : (s.modStamp p g).ks.fills = s.ks.fills := by cases p <;> rfl
@[simp] theorem State.modStamp_ks_cupChecks (s : State) (p : Part) (g : StampUnit → StampUnit) : (s.modStamp p g).ks.cupChecks = s.ks.cupChecks := by cases p <;> rfl
@[simp] theorem State.modStamp_ks_shardReads (s : State) (p : Part) (g : StampUnit → StampUnit) : (s.modStamp p g).ks.shardReads = s.ks.shardReads := by cases p <;> rfl
@[simp] theorem State.modStamp_ks_grants (s : State) (p : Part) (g : StampUnit → StampUnit) : (s.modStamp p g).ks.grants = s.ks.grants := by cases p <;> rfl
@[simp] theorem State.modStamp_ks_dspLeaves (s : State) (p : Part) (g : StampUnit → StampUnit) : (s.modStamp p g).ks.dspLeaves = s.ks.dspLeaves := by cases p <;> rfl
@[simp] theorem State.modStamp_ks_dspHomes (s : State) (p : Part) (g : StampUnit → StampUnit) : (s.modStamp p g).ks.dspHomes = s.ks.dspHomes := by cases p <;> rfl
@[simp] theorem State.modStamp_ks_dspEngine (s : State) (p : Part) (g : StampUnit → StampUnit) : (s.modStamp p g).ks.dspEngine = s.ks.dspEngine := by cases p <;> rfl
@[simp] theorem State.modStamp_ks_dspQ (s : State) (p : Part) (g : StampUnit → StampUnit) : (s.modStamp p g).ks.dspQ = s.ks.dspQ := by cases p <;> rfl
@[simp] theorem State.modStamp_ks_tieReroute (s : State) (p : Part) (g : StampUnit → StampUnit) : (s.modStamp p g).ks.tieReroute = s.ks.tieReroute := by cases p <;> rfl
@[simp] theorem State.modStamp_ks_objs (s : State) (p : Part) (g : StampUnit → StampUnit) : (s.modStamp p g).ks.objs = s.ks.objs := by cases p <;> rfl
@[simp] theorem State.modStamp_ks_heldTakes (s : State) (p : Part) (g : StampUnit → StampUnit) : (s.modStamp p g).ks.heldTakes = s.ks.heldTakes := by cases p <;> rfl
@[simp] theorem State.modStamp_ks_trackers (s : State) (p : Part) (g : StampUnit → StampUnit) : (s.modStamp p g).ks.trackers = s.ks.trackers := by cases p <;> rfl
@[simp] theorem State.modStamp_ks_sends (s : State) (p : Part) (g : StampUnit → StampUnit) : (s.modStamp p g).ks.sends = s.ks.sends := by cases p <;> rfl
@[simp] theorem State.modStamp_ks_writes (s : State) (p : Part) (g : StampUnit → StampUnit) : (s.modStamp p g).ks.writes = s.ks.writes := by cases p <;> rfl
@[simp] theorem State.modStamp_ks_takesDone (s : State) (p : Part) (g : StampUnit → StampUnit) : (s.modStamp p g).ks.takesDone = s.ks.takesDone := by cases p <;> rfl
@[simp] theorem State.modStamp_ks_mem (s : State) (p : Part) (g : StampUnit → StampUnit) : (s.modStamp p g).ks.mem = s.ks.mem := by cases p <;> rfl
@[simp] theorem State.modStamp_ks_ptpDiscard (s : State) (p : Part) (g : StampUnit → StampUnit) : (s.modStamp p g).ks.ptpDiscard = s.ks.ptpDiscard := by cases p <;> rfl
@[simp] theorem State.modStamp_ks_ppsDelay (s : State) (p : Part) (g : StampUnit → StampUnit) : (s.modStamp p g).ks.ppsDelay = s.ks.ppsDelay := by cases p <;> rfl
@[simp] theorem State.modStamp_ks_v2Waits (s : State) (p : Part) (g : StampUnit → StampUnit) : (s.modStamp p g).ks.v2Waits = s.ks.v2Waits := by cases p <;> rfl
@[simp] theorem State.modCtr_bx_straps (s : State) (p : Part) (g : CtrUnit → CtrUnit) : (s.modCtr p g).bx.straps = s.bx.straps := by cases p <;> rfl
@[simp] theorem State.modCtr_bx_refclkLost (s : State) (p : Part) (g : CtrUnit → CtrUnit) : (s.modCtr p g).bx.refclkLost = s.bx.refclkLost := by cases p <;> rfl
@[simp] theorem State.modCtr_bx_fenced (s : State) (p : Part) (g : CtrUnit → CtrUnit) : (s.modCtr p g).bx.fenced = s.bx.fenced := by cases p <;> rfl
@[simp] theorem State.modCtr_bx_fenceSeq (s : State) (p : Part) (g : CtrUnit → CtrUnit) : (s.modCtr p g).bx.fenceSeq = s.bx.fenceSeq := by cases p <;> rfl
@[simp] theorem State.modCtr_bx_prior (s : State) (p : Part) (g : CtrUnit → CtrUnit) : (s.modCtr p g).bx.prior = s.bx.prior := by cases p <;> rfl
@[simp] theorem State.modCtr_bx_reportSeq (s : State) (p : Part) (g : CtrUnit → CtrUnit) : (s.modCtr p g).bx.reportSeq = s.bx.reportSeq := by cases p <;> rfl
@[simp] theorem State.modCtr_bx_tenants (s : State) (p : Part) (g : CtrUnit → CtrUnit) : (s.modCtr p g).bx.tenants = s.bx.tenants := by cases p <;> rfl
@[simp] theorem State.modCtr_bx_slots (s : State) (p : Part) (g : CtrUnit → CtrUnit) : (s.modCtr p g).bx.slots = s.bx.slots := by cases p <;> rfl
@[simp] theorem State.modCtr_bx_objs (s : State) (p : Part) (g : CtrUnit → CtrUnit) : (s.modCtr p g).bx.objs = s.bx.objs := by cases p <;> rfl
@[simp] theorem State.modCtr_bx_heldTakes (s : State) (p : Part) (g : CtrUnit → CtrUnit) : (s.modCtr p g).bx.heldTakes = s.bx.heldTakes := by cases p <;> rfl
@[simp] theorem State.modCtr_bx_trackers (s : State) (p : Part) (g : CtrUnit → CtrUnit) : (s.modCtr p g).bx.trackers = s.bx.trackers := by cases p <;> rfl
@[simp] theorem State.modCtr_bx_sends (s : State) (p : Part) (g : CtrUnit → CtrUnit) : (s.modCtr p g).bx.sends = s.bx.sends := by cases p <;> rfl
@[simp] theorem State.modCtr_bx_writes (s : State) (p : Part) (g : CtrUnit → CtrUnit) : (s.modCtr p g).bx.writes = s.bx.writes := by cases p <;> rfl
@[simp] theorem State.modCtr_bx_reads (s : State) (p : Part) (g : CtrUnit → CtrUnit) : (s.modCtr p g).bx.reads = s.bx.reads := by cases p <;> rfl
@[simp] theorem State.modCtr_bx_v2Waits (s : State) (p : Part) (g : CtrUnit → CtrUnit) : (s.modCtr p g).bx.v2Waits = s.bx.v2Waits := by cases p <;> rfl
@[simp] theorem State.modCtr_bx_waitSends (s : State) (p : Part) (g : CtrUnit → CtrUnit) : (s.modCtr p g).bx.waitSends = s.bx.waitSends := by cases p <;> rfl
@[simp] theorem State.modCtr_bx_parts (s : State) (p : Part) (g : CtrUnit → CtrUnit) : (s.modCtr p g).bx.parts = s.bx.parts := by cases p <;> rfl
@[simp] theorem State.modCtr_bx_nextPart (s : State) (p : Part) (g : CtrUnit → CtrUnit) : (s.modCtr p g).bx.nextPart = s.bx.nextPart := by cases p <;> rfl
@[simp] theorem State.modCtr_bx_readJobs (s : State) (p : Part) (g : CtrUnit → CtrUnit) : (s.modCtr p g).bx.readJobs = s.bx.readJobs := by cases p <;> rfl
@[simp] theorem State.modCtr_bx_nextJob (s : State) (p : Part) (g : CtrUnit → CtrUnit) : (s.modCtr p g).bx.nextJob = s.bx.nextJob := by cases p <;> rfl
@[simp] theorem State.modCtr_bx_bases (s : State) (p : Part) (g : CtrUnit → CtrUnit) : (s.modCtr p g).bx.bases = s.bx.bases := by cases p <;> rfl
@[simp] theorem State.modCtr_ks_build (s : State) (p : Part) (g : CtrUnit → CtrUnit) : (s.modCtr p g).ks.build = s.ks.build := by cases p <;> rfl
@[simp] theorem State.modCtr_ks_lostPlanes (s : State) (p : Part) (g : CtrUnit → CtrUnit) : (s.modCtr p g).ks.lostPlanes = s.ks.lostPlanes := by cases p <;> rfl
@[simp] theorem State.modCtr_ks_fences (s : State) (p : Part) (g : CtrUnit → CtrUnit) : (s.modCtr p g).ks.fences = s.ks.fences := by cases p <;> rfl
@[simp] theorem State.modCtr_ks_strapFb (s : State) (p : Part) (g : CtrUnit → CtrUnit) : (s.modCtr p g).ks.strapFb = s.ks.strapFb := by cases p <;> rfl
@[simp] theorem State.modCtr_ks_pcieEn (s : State) (p : Part) (g : CtrUnit → CtrUnit) : (s.modCtr p g).ks.pcieEn = s.ks.pcieEn := by cases p <;> rfl
@[simp] theorem State.modCtr_ks_pins (s : State) (p : Part) (g : CtrUnit → CtrUnit) : (s.modCtr p g).ks.pins = s.ks.pins := by cases p <;> rfl
@[simp] theorem State.modCtr_ks_tripped (s : State) (p : Part) (g : CtrUnit → CtrUnit) : (s.modCtr p g).ks.tripped = s.ks.tripped := by cases p <;> rfl
@[simp] theorem State.modCtr_ks_memFailed (s : State) (p : Part) (g : CtrUnit → CtrUnit) : (s.modCtr p g).ks.memFailed = s.ks.memFailed := by cases p <;> rfl
@[simp] theorem State.modCtr_ks_memErrors (s : State) (p : Part) (g : CtrUnit → CtrUnit) : (s.modCtr p g).ks.memErrors = s.ks.memErrors := by cases p <;> rfl
@[simp] theorem State.modCtr_ks_brimFailed (s : State) (p : Part) (g : CtrUnit → CtrUnit) : (s.modCtr p g).ks.brimFailed = s.ks.brimFailed := by cases p <;> rfl
@[simp] theorem State.modCtr_ks_coolantSince (s : State) (p : Part) (g : CtrUnit → CtrUnit) : (s.modCtr p g).ks.coolantSince = s.ks.coolantSince := by cases p <;> rfl
@[simp] theorem State.modCtr_ks_coolantTold (s : State) (p : Part) (g : CtrUnit → CtrUnit) : (s.modCtr p g).ks.coolantTold = s.ks.coolantTold := by cases p <;> rfl
@[simp] theorem State.modCtr_ks_lastCoolant (s : State) (p : Part) (g : CtrUnit → CtrUnit) : (s.modCtr p g).ks.lastCoolant = s.ks.lastCoolant := by cases p <;> rfl
@[simp] theorem State.modCtr_ks_lastThrottle (s : State) (p : Part) (g : CtrUnit → CtrUnit) : (s.modCtr p g).ks.lastThrottle = s.ks.lastThrottle := by cases p <;> rfl
@[simp] theorem State.modCtr_ks_lastAlive (s : State) (p : Part) (g : CtrUnit → CtrUnit) : (s.modCtr p g).ks.lastAlive = s.ks.lastAlive := by cases p <;> rfl
@[simp] theorem State.modCtr_ks_lastResend (s : State) (p : Part) (g : CtrUnit → CtrUnit) : (s.modCtr p g).ks.lastResend = s.ks.lastResend := by cases p <;> rfl
@[simp] theorem State.modCtr_ks_events (s : State) (p : Part) (g : CtrUnit → CtrUnit) : (s.modCtr p g).ks.events = s.ks.events := by cases p <;> rfl
@[simp] theorem State.modCtr_ks_evtDropped (s : State) (p : Part) (g : CtrUnit → CtrUnit) : (s.modCtr p g).ks.evtDropped = s.ks.evtDropped := by cases p <;> rfl
@[simp] theorem State.modCtr_ks_admitted (s : State) (p : Part) (g : CtrUnit → CtrUnit) : (s.modCtr p g).ks.admitted = s.ks.admitted := by cases p <;> rfl
@[simp] theorem State.modCtr_ks_aliveTold (s : State) (p : Part) (g : CtrUnit → CtrUnit) : (s.modCtr p g).ks.aliveTold = s.ks.aliveTold := by cases p <;> rfl
@[simp] theorem State.modCtr_ks_doms (s : State) (p : Part) (g : CtrUnit → CtrUnit) : (s.modCtr p g).ks.doms = s.ks.doms := by cases p <;> rfl
@[simp] theorem State.modCtr_ks_leafRecs (s : State) (p : Part) (g : CtrUnit → CtrUnit) : (s.modCtr p g).ks.leafRecs = s.ks.leafRecs := by cases p <;> rfl
@[simp] theorem State.modCtr_ks_chunks (s : State) (p : Part) (g : CtrUnit → CtrUnit) : (s.modCtr p g).ks.chunks = s.ks.chunks := by cases p <;> rfl
@[simp] theorem State.modCtr_ks_kept (s : State) (p : Part) (g : CtrUnit → CtrUnit) : (s.modCtr p g).ks.kept = s.ks.kept := by cases p <;> rfl
@[simp] theorem State.modCtr_ks_shards (s : State) (p : Part) (g : CtrUnit → CtrUnit) : (s.modCtr p g).ks.shards = s.ks.shards := by cases p <;> rfl
@[simp] theorem State.modCtr_ks_blockQ (s : State) (p : Part) (g : CtrUnit → CtrUnit) : (s.modCtr p g).ks.blockQ = s.ks.blockQ := by cases p <;> rfl
@[simp] theorem State.modCtr_ks_jobs (s : State) (p : Part) (g : CtrUnit → CtrUnit) : (s.modCtr p g).ks.jobs = s.ks.jobs := by cases p <;> rfl
@[simp] theorem State.modCtr_ks_waitJobs (s : State) (p : Part) (g : CtrUnit → CtrUnit) : (s.modCtr p g).ks.waitJobs = s.ks.waitJobs := by cases p <;> rfl
@[simp] theorem State.modCtr_ks_windows (s : State) (p : Part) (g : CtrUnit → CtrUnit) : (s.modCtr p g).ks.windows = s.ks.windows := by cases p <;> rfl
@[simp] theorem State.modCtr_ks_bases (s : State) (p : Part) (g : CtrUnit → CtrUnit) : (s.modCtr p g).ks.bases = s.ks.bases := by cases p <;> rfl
@[simp] theorem State.modCtr_ks_staged (s : State) (p : Part) (g : CtrUnit → CtrUnit) : (s.modCtr p g).ks.staged = s.ks.staged := by cases p <;> rfl
@[simp] theorem State.modCtr_ks_ckpts (s : State) (p : Part) (g : CtrUnit → CtrUnit) : (s.modCtr p g).ks.ckpts = s.ks.ckpts := by cases p <;> rfl
@[simp] theorem State.modCtr_ks_fills (s : State) (p : Part) (g : CtrUnit → CtrUnit) : (s.modCtr p g).ks.fills = s.ks.fills := by cases p <;> rfl
@[simp] theorem State.modCtr_ks_cupChecks (s : State) (p : Part) (g : CtrUnit → CtrUnit) : (s.modCtr p g).ks.cupChecks = s.ks.cupChecks := by cases p <;> rfl
@[simp] theorem State.modCtr_ks_shardReads (s : State) (p : Part) (g : CtrUnit → CtrUnit) : (s.modCtr p g).ks.shardReads = s.ks.shardReads := by cases p <;> rfl
@[simp] theorem State.modCtr_ks_grants (s : State) (p : Part) (g : CtrUnit → CtrUnit) : (s.modCtr p g).ks.grants = s.ks.grants := by cases p <;> rfl
@[simp] theorem State.modCtr_ks_dspLeaves (s : State) (p : Part) (g : CtrUnit → CtrUnit) : (s.modCtr p g).ks.dspLeaves = s.ks.dspLeaves := by cases p <;> rfl
@[simp] theorem State.modCtr_ks_dspHomes (s : State) (p : Part) (g : CtrUnit → CtrUnit) : (s.modCtr p g).ks.dspHomes = s.ks.dspHomes := by cases p <;> rfl
@[simp] theorem State.modCtr_ks_dspEngine (s : State) (p : Part) (g : CtrUnit → CtrUnit) : (s.modCtr p g).ks.dspEngine = s.ks.dspEngine := by cases p <;> rfl
@[simp] theorem State.modCtr_ks_dspQ (s : State) (p : Part) (g : CtrUnit → CtrUnit) : (s.modCtr p g).ks.dspQ = s.ks.dspQ := by cases p <;> rfl
@[simp] theorem State.modCtr_ks_tieReroute (s : State) (p : Part) (g : CtrUnit → CtrUnit) : (s.modCtr p g).ks.tieReroute = s.ks.tieReroute := by cases p <;> rfl
@[simp] theorem State.modCtr_ks_objs (s : State) (p : Part) (g : CtrUnit → CtrUnit) : (s.modCtr p g).ks.objs = s.ks.objs := by cases p <;> rfl
@[simp] theorem State.modCtr_ks_heldTakes (s : State) (p : Part) (g : CtrUnit → CtrUnit) : (s.modCtr p g).ks.heldTakes = s.ks.heldTakes := by cases p <;> rfl
@[simp] theorem State.modCtr_ks_trackers (s : State) (p : Part) (g : CtrUnit → CtrUnit) : (s.modCtr p g).ks.trackers = s.ks.trackers := by cases p <;> rfl
@[simp] theorem State.modCtr_ks_sends (s : State) (p : Part) (g : CtrUnit → CtrUnit) : (s.modCtr p g).ks.sends = s.ks.sends := by cases p <;> rfl
@[simp] theorem State.modCtr_ks_writes (s : State) (p : Part) (g : CtrUnit → CtrUnit) : (s.modCtr p g).ks.writes = s.ks.writes := by cases p <;> rfl
@[simp] theorem State.modCtr_ks_takesDone (s : State) (p : Part) (g : CtrUnit → CtrUnit) : (s.modCtr p g).ks.takesDone = s.ks.takesDone := by cases p <;> rfl
@[simp] theorem State.modCtr_ks_mem (s : State) (p : Part) (g : CtrUnit → CtrUnit) : (s.modCtr p g).ks.mem = s.ks.mem := by cases p <;> rfl
@[simp] theorem State.modCtr_ks_ptpDiscard (s : State) (p : Part) (g : CtrUnit → CtrUnit) : (s.modCtr p g).ks.ptpDiscard = s.ks.ptpDiscard := by cases p <;> rfl
@[simp] theorem State.modCtr_ks_ppsDelay (s : State) (p : Part) (g : CtrUnit → CtrUnit) : (s.modCtr p g).ks.ppsDelay = s.ks.ppsDelay := by cases p <;> rfl
@[simp] theorem State.modCtr_ks_v2Waits (s : State) (p : Part) (g : CtrUnit → CtrUnit) : (s.modCtr p g).ks.v2Waits = s.ks.v2Waits := by cases p <;> rfl
@[simp] theorem State.modFw_bx_straps (s : State) (p : Part) (g : Firmware → Firmware) : (s.modFw p g).bx.straps = s.bx.straps := by cases p <;> rfl
@[simp] theorem State.modFw_bx_refclkLost (s : State) (p : Part) (g : Firmware → Firmware) : (s.modFw p g).bx.refclkLost = s.bx.refclkLost := by cases p <;> rfl
@[simp] theorem State.modFw_bx_fenced (s : State) (p : Part) (g : Firmware → Firmware) : (s.modFw p g).bx.fenced = s.bx.fenced := by cases p <;> rfl
@[simp] theorem State.modFw_bx_fenceSeq (s : State) (p : Part) (g : Firmware → Firmware) : (s.modFw p g).bx.fenceSeq = s.bx.fenceSeq := by cases p <;> rfl
@[simp] theorem State.modFw_bx_prior (s : State) (p : Part) (g : Firmware → Firmware) : (s.modFw p g).bx.prior = s.bx.prior := by cases p <;> rfl
@[simp] theorem State.modFw_bx_reportSeq (s : State) (p : Part) (g : Firmware → Firmware) : (s.modFw p g).bx.reportSeq = s.bx.reportSeq := by cases p <;> rfl
@[simp] theorem State.modFw_bx_tenants (s : State) (p : Part) (g : Firmware → Firmware) : (s.modFw p g).bx.tenants = s.bx.tenants := by cases p <;> rfl
@[simp] theorem State.modFw_bx_slots (s : State) (p : Part) (g : Firmware → Firmware) : (s.modFw p g).bx.slots = s.bx.slots := by cases p <;> rfl
@[simp] theorem State.modFw_bx_objs (s : State) (p : Part) (g : Firmware → Firmware) : (s.modFw p g).bx.objs = s.bx.objs := by cases p <;> rfl
@[simp] theorem State.modFw_bx_heldTakes (s : State) (p : Part) (g : Firmware → Firmware) : (s.modFw p g).bx.heldTakes = s.bx.heldTakes := by cases p <;> rfl
@[simp] theorem State.modFw_bx_trackers (s : State) (p : Part) (g : Firmware → Firmware) : (s.modFw p g).bx.trackers = s.bx.trackers := by cases p <;> rfl
@[simp] theorem State.modFw_bx_sends (s : State) (p : Part) (g : Firmware → Firmware) : (s.modFw p g).bx.sends = s.bx.sends := by cases p <;> rfl
@[simp] theorem State.modFw_bx_writes (s : State) (p : Part) (g : Firmware → Firmware) : (s.modFw p g).bx.writes = s.bx.writes := by cases p <;> rfl
@[simp] theorem State.modFw_bx_reads (s : State) (p : Part) (g : Firmware → Firmware) : (s.modFw p g).bx.reads = s.bx.reads := by cases p <;> rfl
@[simp] theorem State.modFw_bx_v2Waits (s : State) (p : Part) (g : Firmware → Firmware) : (s.modFw p g).bx.v2Waits = s.bx.v2Waits := by cases p <;> rfl
@[simp] theorem State.modFw_bx_waitSends (s : State) (p : Part) (g : Firmware → Firmware) : (s.modFw p g).bx.waitSends = s.bx.waitSends := by cases p <;> rfl
@[simp] theorem State.modFw_bx_parts (s : State) (p : Part) (g : Firmware → Firmware) : (s.modFw p g).bx.parts = s.bx.parts := by cases p <;> rfl
@[simp] theorem State.modFw_bx_nextPart (s : State) (p : Part) (g : Firmware → Firmware) : (s.modFw p g).bx.nextPart = s.bx.nextPart := by cases p <;> rfl
@[simp] theorem State.modFw_bx_readJobs (s : State) (p : Part) (g : Firmware → Firmware) : (s.modFw p g).bx.readJobs = s.bx.readJobs := by cases p <;> rfl
@[simp] theorem State.modFw_bx_nextJob (s : State) (p : Part) (g : Firmware → Firmware) : (s.modFw p g).bx.nextJob = s.bx.nextJob := by cases p <;> rfl
@[simp] theorem State.modFw_bx_bases (s : State) (p : Part) (g : Firmware → Firmware) : (s.modFw p g).bx.bases = s.bx.bases := by cases p <;> rfl
@[simp] theorem State.modFw_ks_build (s : State) (p : Part) (g : Firmware → Firmware) : (s.modFw p g).ks.build = s.ks.build := by cases p <;> rfl
@[simp] theorem State.modFw_ks_lostPlanes (s : State) (p : Part) (g : Firmware → Firmware) : (s.modFw p g).ks.lostPlanes = s.ks.lostPlanes := by cases p <;> rfl
@[simp] theorem State.modFw_ks_fences (s : State) (p : Part) (g : Firmware → Firmware) : (s.modFw p g).ks.fences = s.ks.fences := by cases p <;> rfl
@[simp] theorem State.modFw_ks_strapFb (s : State) (p : Part) (g : Firmware → Firmware) : (s.modFw p g).ks.strapFb = s.ks.strapFb := by cases p <;> rfl
@[simp] theorem State.modFw_ks_pcieEn (s : State) (p : Part) (g : Firmware → Firmware) : (s.modFw p g).ks.pcieEn = s.ks.pcieEn := by cases p <;> rfl
@[simp] theorem State.modFw_ks_pins (s : State) (p : Part) (g : Firmware → Firmware) : (s.modFw p g).ks.pins = s.ks.pins := by cases p <;> rfl
@[simp] theorem State.modFw_ks_tripped (s : State) (p : Part) (g : Firmware → Firmware) : (s.modFw p g).ks.tripped = s.ks.tripped := by cases p <;> rfl
@[simp] theorem State.modFw_ks_memFailed (s : State) (p : Part) (g : Firmware → Firmware) : (s.modFw p g).ks.memFailed = s.ks.memFailed := by cases p <;> rfl
@[simp] theorem State.modFw_ks_memErrors (s : State) (p : Part) (g : Firmware → Firmware) : (s.modFw p g).ks.memErrors = s.ks.memErrors := by cases p <;> rfl
@[simp] theorem State.modFw_ks_brimFailed (s : State) (p : Part) (g : Firmware → Firmware) : (s.modFw p g).ks.brimFailed = s.ks.brimFailed := by cases p <;> rfl
@[simp] theorem State.modFw_ks_coolantSince (s : State) (p : Part) (g : Firmware → Firmware) : (s.modFw p g).ks.coolantSince = s.ks.coolantSince := by cases p <;> rfl
@[simp] theorem State.modFw_ks_coolantTold (s : State) (p : Part) (g : Firmware → Firmware) : (s.modFw p g).ks.coolantTold = s.ks.coolantTold := by cases p <;> rfl
@[simp] theorem State.modFw_ks_lastCoolant (s : State) (p : Part) (g : Firmware → Firmware) : (s.modFw p g).ks.lastCoolant = s.ks.lastCoolant := by cases p <;> rfl
@[simp] theorem State.modFw_ks_lastThrottle (s : State) (p : Part) (g : Firmware → Firmware) : (s.modFw p g).ks.lastThrottle = s.ks.lastThrottle := by cases p <;> rfl
@[simp] theorem State.modFw_ks_lastAlive (s : State) (p : Part) (g : Firmware → Firmware) : (s.modFw p g).ks.lastAlive = s.ks.lastAlive := by cases p <;> rfl
@[simp] theorem State.modFw_ks_lastResend (s : State) (p : Part) (g : Firmware → Firmware) : (s.modFw p g).ks.lastResend = s.ks.lastResend := by cases p <;> rfl
@[simp] theorem State.modFw_ks_events (s : State) (p : Part) (g : Firmware → Firmware) : (s.modFw p g).ks.events = s.ks.events := by cases p <;> rfl
@[simp] theorem State.modFw_ks_evtDropped (s : State) (p : Part) (g : Firmware → Firmware) : (s.modFw p g).ks.evtDropped = s.ks.evtDropped := by cases p <;> rfl
@[simp] theorem State.modFw_ks_admitted (s : State) (p : Part) (g : Firmware → Firmware) : (s.modFw p g).ks.admitted = s.ks.admitted := by cases p <;> rfl
@[simp] theorem State.modFw_ks_aliveTold (s : State) (p : Part) (g : Firmware → Firmware) : (s.modFw p g).ks.aliveTold = s.ks.aliveTold := by cases p <;> rfl
@[simp] theorem State.modFw_ks_doms (s : State) (p : Part) (g : Firmware → Firmware) : (s.modFw p g).ks.doms = s.ks.doms := by cases p <;> rfl
@[simp] theorem State.modFw_ks_leafRecs (s : State) (p : Part) (g : Firmware → Firmware) : (s.modFw p g).ks.leafRecs = s.ks.leafRecs := by cases p <;> rfl
@[simp] theorem State.modFw_ks_chunks (s : State) (p : Part) (g : Firmware → Firmware) : (s.modFw p g).ks.chunks = s.ks.chunks := by cases p <;> rfl
@[simp] theorem State.modFw_ks_kept (s : State) (p : Part) (g : Firmware → Firmware) : (s.modFw p g).ks.kept = s.ks.kept := by cases p <;> rfl
@[simp] theorem State.modFw_ks_shards (s : State) (p : Part) (g : Firmware → Firmware) : (s.modFw p g).ks.shards = s.ks.shards := by cases p <;> rfl
@[simp] theorem State.modFw_ks_blockQ (s : State) (p : Part) (g : Firmware → Firmware) : (s.modFw p g).ks.blockQ = s.ks.blockQ := by cases p <;> rfl
@[simp] theorem State.modFw_ks_jobs (s : State) (p : Part) (g : Firmware → Firmware) : (s.modFw p g).ks.jobs = s.ks.jobs := by cases p <;> rfl
@[simp] theorem State.modFw_ks_waitJobs (s : State) (p : Part) (g : Firmware → Firmware) : (s.modFw p g).ks.waitJobs = s.ks.waitJobs := by cases p <;> rfl
@[simp] theorem State.modFw_ks_windows (s : State) (p : Part) (g : Firmware → Firmware) : (s.modFw p g).ks.windows = s.ks.windows := by cases p <;> rfl
@[simp] theorem State.modFw_ks_bases (s : State) (p : Part) (g : Firmware → Firmware) : (s.modFw p g).ks.bases = s.ks.bases := by cases p <;> rfl
@[simp] theorem State.modFw_ks_staged (s : State) (p : Part) (g : Firmware → Firmware) : (s.modFw p g).ks.staged = s.ks.staged := by cases p <;> rfl
@[simp] theorem State.modFw_ks_ckpts (s : State) (p : Part) (g : Firmware → Firmware) : (s.modFw p g).ks.ckpts = s.ks.ckpts := by cases p <;> rfl
@[simp] theorem State.modFw_ks_fills (s : State) (p : Part) (g : Firmware → Firmware) : (s.modFw p g).ks.fills = s.ks.fills := by cases p <;> rfl
@[simp] theorem State.modFw_ks_cupChecks (s : State) (p : Part) (g : Firmware → Firmware) : (s.modFw p g).ks.cupChecks = s.ks.cupChecks := by cases p <;> rfl
@[simp] theorem State.modFw_ks_shardReads (s : State) (p : Part) (g : Firmware → Firmware) : (s.modFw p g).ks.shardReads = s.ks.shardReads := by cases p <;> rfl
@[simp] theorem State.modFw_ks_grants (s : State) (p : Part) (g : Firmware → Firmware) : (s.modFw p g).ks.grants = s.ks.grants := by cases p <;> rfl
@[simp] theorem State.modFw_ks_dspLeaves (s : State) (p : Part) (g : Firmware → Firmware) : (s.modFw p g).ks.dspLeaves = s.ks.dspLeaves := by cases p <;> rfl
@[simp] theorem State.modFw_ks_dspHomes (s : State) (p : Part) (g : Firmware → Firmware) : (s.modFw p g).ks.dspHomes = s.ks.dspHomes := by cases p <;> rfl
@[simp] theorem State.modFw_ks_dspEngine (s : State) (p : Part) (g : Firmware → Firmware) : (s.modFw p g).ks.dspEngine = s.ks.dspEngine := by cases p <;> rfl
@[simp] theorem State.modFw_ks_dspQ (s : State) (p : Part) (g : Firmware → Firmware) : (s.modFw p g).ks.dspQ = s.ks.dspQ := by cases p <;> rfl
@[simp] theorem State.modFw_ks_tieReroute (s : State) (p : Part) (g : Firmware → Firmware) : (s.modFw p g).ks.tieReroute = s.ks.tieReroute := by cases p <;> rfl
@[simp] theorem State.modFw_ks_objs (s : State) (p : Part) (g : Firmware → Firmware) : (s.modFw p g).ks.objs = s.ks.objs := by cases p <;> rfl
@[simp] theorem State.modFw_ks_heldTakes (s : State) (p : Part) (g : Firmware → Firmware) : (s.modFw p g).ks.heldTakes = s.ks.heldTakes := by cases p <;> rfl
@[simp] theorem State.modFw_ks_trackers (s : State) (p : Part) (g : Firmware → Firmware) : (s.modFw p g).ks.trackers = s.ks.trackers := by cases p <;> rfl
@[simp] theorem State.modFw_ks_sends (s : State) (p : Part) (g : Firmware → Firmware) : (s.modFw p g).ks.sends = s.ks.sends := by cases p <;> rfl
@[simp] theorem State.modFw_ks_writes (s : State) (p : Part) (g : Firmware → Firmware) : (s.modFw p g).ks.writes = s.ks.writes := by cases p <;> rfl
@[simp] theorem State.modFw_ks_takesDone (s : State) (p : Part) (g : Firmware → Firmware) : (s.modFw p g).ks.takesDone = s.ks.takesDone := by cases p <;> rfl
@[simp] theorem State.modFw_ks_mem (s : State) (p : Part) (g : Firmware → Firmware) : (s.modFw p g).ks.mem = s.ks.mem := by cases p <;> rfl
@[simp] theorem State.modFw_ks_ptpDiscard (s : State) (p : Part) (g : Firmware → Firmware) : (s.modFw p g).ks.ptpDiscard = s.ks.ptpDiscard := by cases p <;> rfl
@[simp] theorem State.modFw_ks_ppsDelay (s : State) (p : Part) (g : Firmware → Firmware) : (s.modFw p g).ks.ppsDelay = s.ks.ppsDelay := by cases p <;> rfl
@[simp] theorem State.modFw_ks_v2Waits (s : State) (p : Part) (g : Firmware → Firmware) : (s.modFw p g).ks.v2Waits = s.ks.v2Waits := by cases p <;> rfl
@[simp] theorem State.setCtrWord_bx_straps (s : State) (e : Ev) (v : Word) : (s.setCtrWord e v).bx.straps = s.bx.straps := by unfold State.setCtrWord; split_ifs <;> simp
@[simp] theorem State.setCtrWord_bx_refclkLost (s : State) (e : Ev) (v : Word) : (s.setCtrWord e v).bx.refclkLost = s.bx.refclkLost := by unfold State.setCtrWord; split_ifs <;> simp
@[simp] theorem State.setCtrWord_bx_fenced (s : State) (e : Ev) (v : Word) : (s.setCtrWord e v).bx.fenced = s.bx.fenced := by unfold State.setCtrWord; split_ifs <;> simp
@[simp] theorem State.setCtrWord_bx_fenceSeq (s : State) (e : Ev) (v : Word) : (s.setCtrWord e v).bx.fenceSeq = s.bx.fenceSeq := by unfold State.setCtrWord; split_ifs <;> simp
@[simp] theorem State.setCtrWord_bx_prior (s : State) (e : Ev) (v : Word) : (s.setCtrWord e v).bx.prior = s.bx.prior := by unfold State.setCtrWord; split_ifs <;> simp
@[simp] theorem State.setCtrWord_bx_reportSeq (s : State) (e : Ev) (v : Word) : (s.setCtrWord e v).bx.reportSeq = s.bx.reportSeq := by unfold State.setCtrWord; split_ifs <;> simp
@[simp] theorem State.setCtrWord_bx_tenants (s : State) (e : Ev) (v : Word) : (s.setCtrWord e v).bx.tenants = s.bx.tenants := by unfold State.setCtrWord; split_ifs <;> simp
@[simp] theorem State.setCtrWord_bx_slots (s : State) (e : Ev) (v : Word) : (s.setCtrWord e v).bx.slots = s.bx.slots := by unfold State.setCtrWord; split_ifs <;> simp
@[simp] theorem State.setCtrWord_bx_objs (s : State) (e : Ev) (v : Word) : (s.setCtrWord e v).bx.objs = s.bx.objs := by unfold State.setCtrWord; split_ifs <;> simp
@[simp] theorem State.setCtrWord_bx_heldTakes (s : State) (e : Ev) (v : Word) : (s.setCtrWord e v).bx.heldTakes = s.bx.heldTakes := by unfold State.setCtrWord; split_ifs <;> simp
@[simp] theorem State.setCtrWord_bx_trackers (s : State) (e : Ev) (v : Word) : (s.setCtrWord e v).bx.trackers = s.bx.trackers := by unfold State.setCtrWord; split_ifs <;> simp
@[simp] theorem State.setCtrWord_bx_sends (s : State) (e : Ev) (v : Word) : (s.setCtrWord e v).bx.sends = s.bx.sends := by unfold State.setCtrWord; split_ifs <;> simp
@[simp] theorem State.setCtrWord_bx_writes (s : State) (e : Ev) (v : Word) : (s.setCtrWord e v).bx.writes = s.bx.writes := by unfold State.setCtrWord; split_ifs <;> simp
@[simp] theorem State.setCtrWord_bx_reads (s : State) (e : Ev) (v : Word) : (s.setCtrWord e v).bx.reads = s.bx.reads := by unfold State.setCtrWord; split_ifs <;> simp
@[simp] theorem State.setCtrWord_bx_v2Waits (s : State) (e : Ev) (v : Word) : (s.setCtrWord e v).bx.v2Waits = s.bx.v2Waits := by unfold State.setCtrWord; split_ifs <;> simp
@[simp] theorem State.setCtrWord_bx_waitSends (s : State) (e : Ev) (v : Word) : (s.setCtrWord e v).bx.waitSends = s.bx.waitSends := by unfold State.setCtrWord; split_ifs <;> simp
@[simp] theorem State.setCtrWord_bx_parts (s : State) (e : Ev) (v : Word) : (s.setCtrWord e v).bx.parts = s.bx.parts := by unfold State.setCtrWord; split_ifs <;> simp
@[simp] theorem State.setCtrWord_bx_nextPart (s : State) (e : Ev) (v : Word) : (s.setCtrWord e v).bx.nextPart = s.bx.nextPart := by unfold State.setCtrWord; split_ifs <;> simp
@[simp] theorem State.setCtrWord_bx_readJobs (s : State) (e : Ev) (v : Word) : (s.setCtrWord e v).bx.readJobs = s.bx.readJobs := by unfold State.setCtrWord; split_ifs <;> simp
@[simp] theorem State.setCtrWord_bx_nextJob (s : State) (e : Ev) (v : Word) : (s.setCtrWord e v).bx.nextJob = s.bx.nextJob := by unfold State.setCtrWord; split_ifs <;> simp
@[simp] theorem State.setCtrWord_bx_bases (s : State) (e : Ev) (v : Word) : (s.setCtrWord e v).bx.bases = s.bx.bases := by unfold State.setCtrWord; split_ifs <;> simp
@[simp] theorem State.setCtrWord_ks_build (s : State) (e : Ev) (v : Word) : (s.setCtrWord e v).ks.build = s.ks.build := by unfold State.setCtrWord; split_ifs <;> simp
@[simp] theorem State.setCtrWord_ks_lostPlanes (s : State) (e : Ev) (v : Word) : (s.setCtrWord e v).ks.lostPlanes = s.ks.lostPlanes := by unfold State.setCtrWord; split_ifs <;> simp
@[simp] theorem State.setCtrWord_ks_fences (s : State) (e : Ev) (v : Word) : (s.setCtrWord e v).ks.fences = s.ks.fences := by unfold State.setCtrWord; split_ifs <;> simp
@[simp] theorem State.setCtrWord_ks_strapFb (s : State) (e : Ev) (v : Word) : (s.setCtrWord e v).ks.strapFb = s.ks.strapFb := by unfold State.setCtrWord; split_ifs <;> simp
@[simp] theorem State.setCtrWord_ks_pcieEn (s : State) (e : Ev) (v : Word) : (s.setCtrWord e v).ks.pcieEn = s.ks.pcieEn := by unfold State.setCtrWord; split_ifs <;> simp
@[simp] theorem State.setCtrWord_ks_pins (s : State) (e : Ev) (v : Word) : (s.setCtrWord e v).ks.pins = s.ks.pins := by unfold State.setCtrWord; split_ifs <;> simp
@[simp] theorem State.setCtrWord_ks_tripped (s : State) (e : Ev) (v : Word) : (s.setCtrWord e v).ks.tripped = s.ks.tripped := by unfold State.setCtrWord; split_ifs <;> simp
@[simp] theorem State.setCtrWord_ks_memFailed (s : State) (e : Ev) (v : Word) : (s.setCtrWord e v).ks.memFailed = s.ks.memFailed := by unfold State.setCtrWord; split_ifs <;> simp
@[simp] theorem State.setCtrWord_ks_memErrors (s : State) (e : Ev) (v : Word) : (s.setCtrWord e v).ks.memErrors = s.ks.memErrors := by unfold State.setCtrWord; split_ifs <;> simp
@[simp] theorem State.setCtrWord_ks_brimFailed (s : State) (e : Ev) (v : Word) : (s.setCtrWord e v).ks.brimFailed = s.ks.brimFailed := by unfold State.setCtrWord; split_ifs <;> simp
@[simp] theorem State.setCtrWord_ks_coolantSince (s : State) (e : Ev) (v : Word) : (s.setCtrWord e v).ks.coolantSince = s.ks.coolantSince := by unfold State.setCtrWord; split_ifs <;> simp
@[simp] theorem State.setCtrWord_ks_coolantTold (s : State) (e : Ev) (v : Word) : (s.setCtrWord e v).ks.coolantTold = s.ks.coolantTold := by unfold State.setCtrWord; split_ifs <;> simp
@[simp] theorem State.setCtrWord_ks_lastCoolant (s : State) (e : Ev) (v : Word) : (s.setCtrWord e v).ks.lastCoolant = s.ks.lastCoolant := by unfold State.setCtrWord; split_ifs <;> simp
@[simp] theorem State.setCtrWord_ks_lastThrottle (s : State) (e : Ev) (v : Word) : (s.setCtrWord e v).ks.lastThrottle = s.ks.lastThrottle := by unfold State.setCtrWord; split_ifs <;> simp
@[simp] theorem State.setCtrWord_ks_lastAlive (s : State) (e : Ev) (v : Word) : (s.setCtrWord e v).ks.lastAlive = s.ks.lastAlive := by unfold State.setCtrWord; split_ifs <;> simp
@[simp] theorem State.setCtrWord_ks_lastResend (s : State) (e : Ev) (v : Word) : (s.setCtrWord e v).ks.lastResend = s.ks.lastResend := by unfold State.setCtrWord; split_ifs <;> simp
@[simp] theorem State.setCtrWord_ks_events (s : State) (e : Ev) (v : Word) : (s.setCtrWord e v).ks.events = s.ks.events := by unfold State.setCtrWord; split_ifs <;> simp
@[simp] theorem State.setCtrWord_ks_evtDropped (s : State) (e : Ev) (v : Word) : (s.setCtrWord e v).ks.evtDropped = s.ks.evtDropped := by unfold State.setCtrWord; split_ifs <;> simp
@[simp] theorem State.setCtrWord_ks_admitted (s : State) (e : Ev) (v : Word) : (s.setCtrWord e v).ks.admitted = s.ks.admitted := by unfold State.setCtrWord; split_ifs <;> simp
@[simp] theorem State.setCtrWord_ks_aliveTold (s : State) (e : Ev) (v : Word) : (s.setCtrWord e v).ks.aliveTold = s.ks.aliveTold := by unfold State.setCtrWord; split_ifs <;> simp
@[simp] theorem State.setCtrWord_ks_doms (s : State) (e : Ev) (v : Word) : (s.setCtrWord e v).ks.doms = s.ks.doms := by unfold State.setCtrWord; split_ifs <;> simp
@[simp] theorem State.setCtrWord_ks_leafRecs (s : State) (e : Ev) (v : Word) : (s.setCtrWord e v).ks.leafRecs = s.ks.leafRecs := by unfold State.setCtrWord; split_ifs <;> simp
@[simp] theorem State.setCtrWord_ks_chunks (s : State) (e : Ev) (v : Word) : (s.setCtrWord e v).ks.chunks = s.ks.chunks := by unfold State.setCtrWord; split_ifs <;> simp
@[simp] theorem State.setCtrWord_ks_kept (s : State) (e : Ev) (v : Word) : (s.setCtrWord e v).ks.kept = s.ks.kept := by unfold State.setCtrWord; split_ifs <;> simp
@[simp] theorem State.setCtrWord_ks_shards (s : State) (e : Ev) (v : Word) : (s.setCtrWord e v).ks.shards = s.ks.shards := by unfold State.setCtrWord; split_ifs <;> simp
@[simp] theorem State.setCtrWord_ks_blockQ (s : State) (e : Ev) (v : Word) : (s.setCtrWord e v).ks.blockQ = s.ks.blockQ := by unfold State.setCtrWord; split_ifs <;> simp
@[simp] theorem State.setCtrWord_ks_jobs (s : State) (e : Ev) (v : Word) : (s.setCtrWord e v).ks.jobs = s.ks.jobs := by unfold State.setCtrWord; split_ifs <;> simp
@[simp] theorem State.setCtrWord_ks_waitJobs (s : State) (e : Ev) (v : Word) : (s.setCtrWord e v).ks.waitJobs = s.ks.waitJobs := by unfold State.setCtrWord; split_ifs <;> simp
@[simp] theorem State.setCtrWord_ks_windows (s : State) (e : Ev) (v : Word) : (s.setCtrWord e v).ks.windows = s.ks.windows := by unfold State.setCtrWord; split_ifs <;> simp
@[simp] theorem State.setCtrWord_ks_bases (s : State) (e : Ev) (v : Word) : (s.setCtrWord e v).ks.bases = s.ks.bases := by unfold State.setCtrWord; split_ifs <;> simp
@[simp] theorem State.setCtrWord_ks_staged (s : State) (e : Ev) (v : Word) : (s.setCtrWord e v).ks.staged = s.ks.staged := by unfold State.setCtrWord; split_ifs <;> simp
@[simp] theorem State.setCtrWord_ks_ckpts (s : State) (e : Ev) (v : Word) : (s.setCtrWord e v).ks.ckpts = s.ks.ckpts := by unfold State.setCtrWord; split_ifs <;> simp
@[simp] theorem State.setCtrWord_ks_fills (s : State) (e : Ev) (v : Word) : (s.setCtrWord e v).ks.fills = s.ks.fills := by unfold State.setCtrWord; split_ifs <;> simp
@[simp] theorem State.setCtrWord_ks_cupChecks (s : State) (e : Ev) (v : Word) : (s.setCtrWord e v).ks.cupChecks = s.ks.cupChecks := by unfold State.setCtrWord; split_ifs <;> simp
@[simp] theorem State.setCtrWord_ks_shardReads (s : State) (e : Ev) (v : Word) : (s.setCtrWord e v).ks.shardReads = s.ks.shardReads := by unfold State.setCtrWord; split_ifs <;> simp
@[simp] theorem State.setCtrWord_ks_grants (s : State) (e : Ev) (v : Word) : (s.setCtrWord e v).ks.grants = s.ks.grants := by unfold State.setCtrWord; split_ifs <;> simp
@[simp] theorem State.setCtrWord_ks_dspLeaves (s : State) (e : Ev) (v : Word) : (s.setCtrWord e v).ks.dspLeaves = s.ks.dspLeaves := by unfold State.setCtrWord; split_ifs <;> simp
@[simp] theorem State.setCtrWord_ks_dspHomes (s : State) (e : Ev) (v : Word) : (s.setCtrWord e v).ks.dspHomes = s.ks.dspHomes := by unfold State.setCtrWord; split_ifs <;> simp
@[simp] theorem State.setCtrWord_ks_dspEngine (s : State) (e : Ev) (v : Word) : (s.setCtrWord e v).ks.dspEngine = s.ks.dspEngine := by unfold State.setCtrWord; split_ifs <;> simp
@[simp] theorem State.setCtrWord_ks_dspQ (s : State) (e : Ev) (v : Word) : (s.setCtrWord e v).ks.dspQ = s.ks.dspQ := by unfold State.setCtrWord; split_ifs <;> simp
@[simp] theorem State.setCtrWord_ks_tieReroute (s : State) (e : Ev) (v : Word) : (s.setCtrWord e v).ks.tieReroute = s.ks.tieReroute := by unfold State.setCtrWord; split_ifs <;> simp
@[simp] theorem State.setCtrWord_ks_objs (s : State) (e : Ev) (v : Word) : (s.setCtrWord e v).ks.objs = s.ks.objs := by unfold State.setCtrWord; split_ifs <;> simp
@[simp] theorem State.setCtrWord_ks_heldTakes (s : State) (e : Ev) (v : Word) : (s.setCtrWord e v).ks.heldTakes = s.ks.heldTakes := by unfold State.setCtrWord; split_ifs <;> simp
@[simp] theorem State.setCtrWord_ks_trackers (s : State) (e : Ev) (v : Word) : (s.setCtrWord e v).ks.trackers = s.ks.trackers := by unfold State.setCtrWord; split_ifs <;> simp
@[simp] theorem State.setCtrWord_ks_sends (s : State) (e : Ev) (v : Word) : (s.setCtrWord e v).ks.sends = s.ks.sends := by unfold State.setCtrWord; split_ifs <;> simp
@[simp] theorem State.setCtrWord_ks_writes (s : State) (e : Ev) (v : Word) : (s.setCtrWord e v).ks.writes = s.ks.writes := by unfold State.setCtrWord; split_ifs <;> simp
@[simp] theorem State.setCtrWord_ks_takesDone (s : State) (e : Ev) (v : Word) : (s.setCtrWord e v).ks.takesDone = s.ks.takesDone := by unfold State.setCtrWord; split_ifs <;> simp
@[simp] theorem State.setCtrWord_ks_mem (s : State) (e : Ev) (v : Word) : (s.setCtrWord e v).ks.mem = s.ks.mem := by unfold State.setCtrWord; split_ifs <;> simp
@[simp] theorem State.setCtrWord_ks_ptpDiscard (s : State) (e : Ev) (v : Word) : (s.setCtrWord e v).ks.ptpDiscard = s.ks.ptpDiscard := by unfold State.setCtrWord; split_ifs <;> simp
@[simp] theorem State.setCtrWord_ks_ppsDelay (s : State) (e : Ev) (v : Word) : (s.setCtrWord e v).ks.ppsDelay = s.ks.ppsDelay := by unfold State.setCtrWord; split_ifs <;> simp
@[simp] theorem State.setCtrWord_ks_v2Waits (s : State) (e : Ev) (v : Word) : (s.setCtrWord e v).ks.v2Waits = s.ks.v2Waits := by unfold State.setCtrWord; split_ifs <;> simp
@[simp] theorem State.setCtrWord_time (s : State) (e : Ev) (v : Word) (q : Part) : ((s.setCtrWord e v).pc q).time = (s.pc q).time := by unfold State.setCtrWord; split_ifs <;> first | (cases q <;> rfl) | (cases e.part <;> cases q <;> rfl)
@[simp] theorem State.setCtrWord_stamp (s : State) (e : Ev) (v : Word) (q : Part) : ((s.setCtrWord e v).pc q).stamp = (s.pc q).stamp := by unfold State.setCtrWord; split_ifs <;> first | (cases q <;> rfl) | (cases e.part <;> cases q <;> rfl)
@[simp] theorem State.setCtrWord_ctr (s : State) (e : Ev) (v : Word) (q : Part) : ((s.setCtrWord e v).pc q).ctr = (s.pc q).ctr := by unfold State.setCtrWord; split_ifs <;> first | (cases q <;> rfl) | (cases e.part <;> cases q <;> rfl)
@[simp] theorem State.setCtrWord_fw (s : State) (e : Ev) (v : Word) (q : Part) : ((s.setCtrWord e v).pc q).fw = (s.pc q).fw := by unfold State.setCtrWord; split_ifs <;> first | (cases q <;> rfl) | (cases e.part <;> cases q <;> rfl)
@[simp] theorem State.setCtrWord_link (s : State) (e : Ev) (v : Word) (q : Part) : ((s.setCtrWord e v).pc q).link = (s.pc q).link := by unfold State.setCtrWord; split_ifs <;> first | (cases q <;> rfl) | (cases e.part <;> cases q <;> rfl)
@[simp] theorem State.setCtrWord_highs (s : State) (e : Ev) (v : Word) (q : Part) : ((s.setCtrWord e v).pc q).highs = (s.pc q).highs := by unfold State.setCtrWord; split_ifs <;> first | (cases q <;> rfl) | (cases e.part <;> cases q <;> rfl)
@[simp] theorem State.tally_bx_straps (s : State) (e : Ev) (n : Nat) : (s.tally e n).bx.straps = s.bx.straps := by simp [State.tally]
@[simp] theorem State.tally_bx_refclkLost (s : State) (e : Ev) (n : Nat) : (s.tally e n).bx.refclkLost = s.bx.refclkLost := by simp [State.tally]
@[simp] theorem State.tally_bx_fenced (s : State) (e : Ev) (n : Nat) : (s.tally e n).bx.fenced = s.bx.fenced := by simp [State.tally]
@[simp] theorem State.tally_bx_fenceSeq (s : State) (e : Ev) (n : Nat) : (s.tally e n).bx.fenceSeq = s.bx.fenceSeq := by simp [State.tally]
@[simp] theorem State.tally_bx_prior (s : State) (e : Ev) (n : Nat) : (s.tally e n).bx.prior = s.bx.prior := by simp [State.tally]
@[simp] theorem State.tally_bx_reportSeq (s : State) (e : Ev) (n : Nat) : (s.tally e n).bx.reportSeq = s.bx.reportSeq := by simp [State.tally]
@[simp] theorem State.tally_bx_tenants (s : State) (e : Ev) (n : Nat) : (s.tally e n).bx.tenants = s.bx.tenants := by simp [State.tally]
@[simp] theorem State.tally_bx_slots (s : State) (e : Ev) (n : Nat) : (s.tally e n).bx.slots = s.bx.slots := by simp [State.tally]
@[simp] theorem State.tally_bx_objs (s : State) (e : Ev) (n : Nat) : (s.tally e n).bx.objs = s.bx.objs := by simp [State.tally]
@[simp] theorem State.tally_bx_heldTakes (s : State) (e : Ev) (n : Nat) : (s.tally e n).bx.heldTakes = s.bx.heldTakes := by simp [State.tally]
@[simp] theorem State.tally_bx_trackers (s : State) (e : Ev) (n : Nat) : (s.tally e n).bx.trackers = s.bx.trackers := by simp [State.tally]
@[simp] theorem State.tally_bx_sends (s : State) (e : Ev) (n : Nat) : (s.tally e n).bx.sends = s.bx.sends := by simp [State.tally]
@[simp] theorem State.tally_bx_writes (s : State) (e : Ev) (n : Nat) : (s.tally e n).bx.writes = s.bx.writes := by simp [State.tally]
@[simp] theorem State.tally_bx_reads (s : State) (e : Ev) (n : Nat) : (s.tally e n).bx.reads = s.bx.reads := by simp [State.tally]
@[simp] theorem State.tally_bx_v2Waits (s : State) (e : Ev) (n : Nat) : (s.tally e n).bx.v2Waits = s.bx.v2Waits := by simp [State.tally]
@[simp] theorem State.tally_bx_waitSends (s : State) (e : Ev) (n : Nat) : (s.tally e n).bx.waitSends = s.bx.waitSends := by simp [State.tally]
@[simp] theorem State.tally_bx_parts (s : State) (e : Ev) (n : Nat) : (s.tally e n).bx.parts = s.bx.parts := by simp [State.tally]
@[simp] theorem State.tally_bx_nextPart (s : State) (e : Ev) (n : Nat) : (s.tally e n).bx.nextPart = s.bx.nextPart := by simp [State.tally]
@[simp] theorem State.tally_bx_readJobs (s : State) (e : Ev) (n : Nat) : (s.tally e n).bx.readJobs = s.bx.readJobs := by simp [State.tally]
@[simp] theorem State.tally_bx_nextJob (s : State) (e : Ev) (n : Nat) : (s.tally e n).bx.nextJob = s.bx.nextJob := by simp [State.tally]
@[simp] theorem State.tally_bx_bases (s : State) (e : Ev) (n : Nat) : (s.tally e n).bx.bases = s.bx.bases := by simp [State.tally]
@[simp] theorem State.tally_ks_build (s : State) (e : Ev) (n : Nat) : (s.tally e n).ks.build = s.ks.build := by simp [State.tally]
@[simp] theorem State.tally_ks_lostPlanes (s : State) (e : Ev) (n : Nat) : (s.tally e n).ks.lostPlanes = s.ks.lostPlanes := by simp [State.tally]
@[simp] theorem State.tally_ks_fences (s : State) (e : Ev) (n : Nat) : (s.tally e n).ks.fences = s.ks.fences := by simp [State.tally]
@[simp] theorem State.tally_ks_strapFb (s : State) (e : Ev) (n : Nat) : (s.tally e n).ks.strapFb = s.ks.strapFb := by simp [State.tally]
@[simp] theorem State.tally_ks_pcieEn (s : State) (e : Ev) (n : Nat) : (s.tally e n).ks.pcieEn = s.ks.pcieEn := by simp [State.tally]
@[simp] theorem State.tally_ks_pins (s : State) (e : Ev) (n : Nat) : (s.tally e n).ks.pins = s.ks.pins := by simp [State.tally]
@[simp] theorem State.tally_ks_tripped (s : State) (e : Ev) (n : Nat) : (s.tally e n).ks.tripped = s.ks.tripped := by simp [State.tally]
@[simp] theorem State.tally_ks_memFailed (s : State) (e : Ev) (n : Nat) : (s.tally e n).ks.memFailed = s.ks.memFailed := by simp [State.tally]
@[simp] theorem State.tally_ks_memErrors (s : State) (e : Ev) (n : Nat) : (s.tally e n).ks.memErrors = s.ks.memErrors := by simp [State.tally]
@[simp] theorem State.tally_ks_brimFailed (s : State) (e : Ev) (n : Nat) : (s.tally e n).ks.brimFailed = s.ks.brimFailed := by simp [State.tally]
@[simp] theorem State.tally_ks_coolantSince (s : State) (e : Ev) (n : Nat) : (s.tally e n).ks.coolantSince = s.ks.coolantSince := by simp [State.tally]
@[simp] theorem State.tally_ks_coolantTold (s : State) (e : Ev) (n : Nat) : (s.tally e n).ks.coolantTold = s.ks.coolantTold := by simp [State.tally]
@[simp] theorem State.tally_ks_lastCoolant (s : State) (e : Ev) (n : Nat) : (s.tally e n).ks.lastCoolant = s.ks.lastCoolant := by simp [State.tally]
@[simp] theorem State.tally_ks_lastThrottle (s : State) (e : Ev) (n : Nat) : (s.tally e n).ks.lastThrottle = s.ks.lastThrottle := by simp [State.tally]
@[simp] theorem State.tally_ks_lastAlive (s : State) (e : Ev) (n : Nat) : (s.tally e n).ks.lastAlive = s.ks.lastAlive := by simp [State.tally]
@[simp] theorem State.tally_ks_lastResend (s : State) (e : Ev) (n : Nat) : (s.tally e n).ks.lastResend = s.ks.lastResend := by simp [State.tally]
@[simp] theorem State.tally_ks_events (s : State) (e : Ev) (n : Nat) : (s.tally e n).ks.events = s.ks.events := by simp [State.tally]
@[simp] theorem State.tally_ks_evtDropped (s : State) (e : Ev) (n : Nat) : (s.tally e n).ks.evtDropped = s.ks.evtDropped := by simp [State.tally]
@[simp] theorem State.tally_ks_admitted (s : State) (e : Ev) (n : Nat) : (s.tally e n).ks.admitted = s.ks.admitted := by simp [State.tally]
@[simp] theorem State.tally_ks_aliveTold (s : State) (e : Ev) (n : Nat) : (s.tally e n).ks.aliveTold = s.ks.aliveTold := by simp [State.tally]
@[simp] theorem State.tally_ks_doms (s : State) (e : Ev) (n : Nat) : (s.tally e n).ks.doms = s.ks.doms := by simp [State.tally]
@[simp] theorem State.tally_ks_leafRecs (s : State) (e : Ev) (n : Nat) : (s.tally e n).ks.leafRecs = s.ks.leafRecs := by simp [State.tally]
@[simp] theorem State.tally_ks_chunks (s : State) (e : Ev) (n : Nat) : (s.tally e n).ks.chunks = s.ks.chunks := by simp [State.tally]
@[simp] theorem State.tally_ks_kept (s : State) (e : Ev) (n : Nat) : (s.tally e n).ks.kept = s.ks.kept := by simp [State.tally]
@[simp] theorem State.tally_ks_shards (s : State) (e : Ev) (n : Nat) : (s.tally e n).ks.shards = s.ks.shards := by simp [State.tally]
@[simp] theorem State.tally_ks_blockQ (s : State) (e : Ev) (n : Nat) : (s.tally e n).ks.blockQ = s.ks.blockQ := by simp [State.tally]
@[simp] theorem State.tally_ks_jobs (s : State) (e : Ev) (n : Nat) : (s.tally e n).ks.jobs = s.ks.jobs := by simp [State.tally]
@[simp] theorem State.tally_ks_waitJobs (s : State) (e : Ev) (n : Nat) : (s.tally e n).ks.waitJobs = s.ks.waitJobs := by simp [State.tally]
@[simp] theorem State.tally_ks_windows (s : State) (e : Ev) (n : Nat) : (s.tally e n).ks.windows = s.ks.windows := by simp [State.tally]
@[simp] theorem State.tally_ks_bases (s : State) (e : Ev) (n : Nat) : (s.tally e n).ks.bases = s.ks.bases := by simp [State.tally]
@[simp] theorem State.tally_ks_staged (s : State) (e : Ev) (n : Nat) : (s.tally e n).ks.staged = s.ks.staged := by simp [State.tally]
@[simp] theorem State.tally_ks_ckpts (s : State) (e : Ev) (n : Nat) : (s.tally e n).ks.ckpts = s.ks.ckpts := by simp [State.tally]
@[simp] theorem State.tally_ks_fills (s : State) (e : Ev) (n : Nat) : (s.tally e n).ks.fills = s.ks.fills := by simp [State.tally]
@[simp] theorem State.tally_ks_cupChecks (s : State) (e : Ev) (n : Nat) : (s.tally e n).ks.cupChecks = s.ks.cupChecks := by simp [State.tally]
@[simp] theorem State.tally_ks_shardReads (s : State) (e : Ev) (n : Nat) : (s.tally e n).ks.shardReads = s.ks.shardReads := by simp [State.tally]
@[simp] theorem State.tally_ks_grants (s : State) (e : Ev) (n : Nat) : (s.tally e n).ks.grants = s.ks.grants := by simp [State.tally]
@[simp] theorem State.tally_ks_dspLeaves (s : State) (e : Ev) (n : Nat) : (s.tally e n).ks.dspLeaves = s.ks.dspLeaves := by simp [State.tally]
@[simp] theorem State.tally_ks_dspHomes (s : State) (e : Ev) (n : Nat) : (s.tally e n).ks.dspHomes = s.ks.dspHomes := by simp [State.tally]
@[simp] theorem State.tally_ks_dspEngine (s : State) (e : Ev) (n : Nat) : (s.tally e n).ks.dspEngine = s.ks.dspEngine := by simp [State.tally]
@[simp] theorem State.tally_ks_dspQ (s : State) (e : Ev) (n : Nat) : (s.tally e n).ks.dspQ = s.ks.dspQ := by simp [State.tally]
@[simp] theorem State.tally_ks_tieReroute (s : State) (e : Ev) (n : Nat) : (s.tally e n).ks.tieReroute = s.ks.tieReroute := by simp [State.tally]
@[simp] theorem State.tally_ks_objs (s : State) (e : Ev) (n : Nat) : (s.tally e n).ks.objs = s.ks.objs := by simp [State.tally]
@[simp] theorem State.tally_ks_heldTakes (s : State) (e : Ev) (n : Nat) : (s.tally e n).ks.heldTakes = s.ks.heldTakes := by simp [State.tally]
@[simp] theorem State.tally_ks_trackers (s : State) (e : Ev) (n : Nat) : (s.tally e n).ks.trackers = s.ks.trackers := by simp [State.tally]
@[simp] theorem State.tally_ks_sends (s : State) (e : Ev) (n : Nat) : (s.tally e n).ks.sends = s.ks.sends := by simp [State.tally]
@[simp] theorem State.tally_ks_writes (s : State) (e : Ev) (n : Nat) : (s.tally e n).ks.writes = s.ks.writes := by simp [State.tally]
@[simp] theorem State.tally_ks_takesDone (s : State) (e : Ev) (n : Nat) : (s.tally e n).ks.takesDone = s.ks.takesDone := by simp [State.tally]
@[simp] theorem State.tally_ks_mem (s : State) (e : Ev) (n : Nat) : (s.tally e n).ks.mem = s.ks.mem := by simp [State.tally]
@[simp] theorem State.tally_ks_ptpDiscard (s : State) (e : Ev) (n : Nat) : (s.tally e n).ks.ptpDiscard = s.ks.ptpDiscard := by simp [State.tally]
@[simp] theorem State.tally_ks_ppsDelay (s : State) (e : Ev) (n : Nat) : (s.tally e n).ks.ppsDelay = s.ks.ppsDelay := by simp [State.tally]
@[simp] theorem State.tally_ks_v2Waits (s : State) (e : Ev) (n : Nat) : (s.tally e n).ks.v2Waits = s.ks.v2Waits := by simp [State.tally]
@[simp] theorem State.tally_time (s : State) (e : Ev) (n : Nat) (q : Part) : ((s.tally e n).pc q).time = (s.pc q).time := by unfold State.tally; unfold State.modCtr; cases e.part <;> cases q <;> rfl
@[simp] theorem State.tally_stamp (s : State) (e : Ev) (n : Nat) (q : Part) : ((s.tally e n).pc q).stamp = (s.pc q).stamp := by unfold State.tally; unfold State.modCtr; cases e.part <;> cases q <;> rfl
@[simp] theorem State.tally_fw (s : State) (e : Ev) (n : Nat) (q : Part) : ((s.tally e n).pc q).fw = (s.pc q).fw := by unfold State.tally; unfold State.modCtr; cases e.part <;> cases q <;> rfl
@[simp] theorem State.tally_link (s : State) (e : Ev) (n : Nat) (q : Part) : ((s.tally e n).pc q).link = (s.pc q).link := by unfold State.tally; unfold State.modCtr; cases e.part <;> cases q <;> rfl
@[simp] theorem State.tally_highs (s : State) (e : Ev) (n : Nat) (q : Part) : ((s.tally e n).pc q).highs = (s.pc q).highs := by unfold State.tally; unfold State.modCtr; cases e.part <;> cases q <;> rfl
@[simp] theorem State.count_bx_straps (s : State) (e : Ev) (n : Nat) : (s.count e n).bx.straps = s.bx.straps := by unfold State.count; dsimp only; split_ifs <;> simp
@[simp] theorem State.count_bx_refclkLost (s : State) (e : Ev) (n : Nat) : (s.count e n).bx.refclkLost = s.bx.refclkLost := by unfold State.count; dsimp only; split_ifs <;> simp
@[simp] theorem State.count_bx_fenced (s : State) (e : Ev) (n : Nat) : (s.count e n).bx.fenced = s.bx.fenced := by unfold State.count; dsimp only; split_ifs <;> simp
@[simp] theorem State.count_bx_fenceSeq (s : State) (e : Ev) (n : Nat) : (s.count e n).bx.fenceSeq = s.bx.fenceSeq := by unfold State.count; dsimp only; split_ifs <;> simp
@[simp] theorem State.count_bx_prior (s : State) (e : Ev) (n : Nat) : (s.count e n).bx.prior = s.bx.prior := by unfold State.count; dsimp only; split_ifs <;> simp
@[simp] theorem State.count_bx_reportSeq (s : State) (e : Ev) (n : Nat) : (s.count e n).bx.reportSeq = s.bx.reportSeq := by unfold State.count; dsimp only; split_ifs <;> simp
@[simp] theorem State.count_bx_tenants (s : State) (e : Ev) (n : Nat) : (s.count e n).bx.tenants = s.bx.tenants := by unfold State.count; dsimp only; split_ifs <;> simp
@[simp] theorem State.count_bx_slots (s : State) (e : Ev) (n : Nat) : (s.count e n).bx.slots = s.bx.slots := by unfold State.count; dsimp only; split_ifs <;> simp
@[simp] theorem State.count_bx_objs (s : State) (e : Ev) (n : Nat) : (s.count e n).bx.objs = s.bx.objs := by unfold State.count; dsimp only; split_ifs <;> simp
@[simp] theorem State.count_bx_heldTakes (s : State) (e : Ev) (n : Nat) : (s.count e n).bx.heldTakes = s.bx.heldTakes := by unfold State.count; dsimp only; split_ifs <;> simp
@[simp] theorem State.count_bx_trackers (s : State) (e : Ev) (n : Nat) : (s.count e n).bx.trackers = s.bx.trackers := by unfold State.count; dsimp only; split_ifs <;> simp
@[simp] theorem State.count_bx_sends (s : State) (e : Ev) (n : Nat) : (s.count e n).bx.sends = s.bx.sends := by unfold State.count; dsimp only; split_ifs <;> simp
@[simp] theorem State.count_bx_writes (s : State) (e : Ev) (n : Nat) : (s.count e n).bx.writes = s.bx.writes := by unfold State.count; dsimp only; split_ifs <;> simp
@[simp] theorem State.count_bx_reads (s : State) (e : Ev) (n : Nat) : (s.count e n).bx.reads = s.bx.reads := by unfold State.count; dsimp only; split_ifs <;> simp
@[simp] theorem State.count_bx_v2Waits (s : State) (e : Ev) (n : Nat) : (s.count e n).bx.v2Waits = s.bx.v2Waits := by unfold State.count; dsimp only; split_ifs <;> simp
@[simp] theorem State.count_bx_waitSends (s : State) (e : Ev) (n : Nat) : (s.count e n).bx.waitSends = s.bx.waitSends := by unfold State.count; dsimp only; split_ifs <;> simp
@[simp] theorem State.count_bx_parts (s : State) (e : Ev) (n : Nat) : (s.count e n).bx.parts = s.bx.parts := by unfold State.count; dsimp only; split_ifs <;> simp
@[simp] theorem State.count_bx_nextPart (s : State) (e : Ev) (n : Nat) : (s.count e n).bx.nextPart = s.bx.nextPart := by unfold State.count; dsimp only; split_ifs <;> simp
@[simp] theorem State.count_bx_readJobs (s : State) (e : Ev) (n : Nat) : (s.count e n).bx.readJobs = s.bx.readJobs := by unfold State.count; dsimp only; split_ifs <;> simp
@[simp] theorem State.count_bx_nextJob (s : State) (e : Ev) (n : Nat) : (s.count e n).bx.nextJob = s.bx.nextJob := by unfold State.count; dsimp only; split_ifs <;> simp
@[simp] theorem State.count_bx_bases (s : State) (e : Ev) (n : Nat) : (s.count e n).bx.bases = s.bx.bases := by unfold State.count; dsimp only; split_ifs <;> simp
@[simp] theorem State.count_ks_build (s : State) (e : Ev) (n : Nat) : (s.count e n).ks.build = s.ks.build := by unfold State.count; dsimp only; split_ifs <;> simp
@[simp] theorem State.count_ks_lostPlanes (s : State) (e : Ev) (n : Nat) : (s.count e n).ks.lostPlanes = s.ks.lostPlanes := by unfold State.count; dsimp only; split_ifs <;> simp
@[simp] theorem State.count_ks_fences (s : State) (e : Ev) (n : Nat) : (s.count e n).ks.fences = s.ks.fences := by unfold State.count; dsimp only; split_ifs <;> simp
@[simp] theorem State.count_ks_strapFb (s : State) (e : Ev) (n : Nat) : (s.count e n).ks.strapFb = s.ks.strapFb := by unfold State.count; dsimp only; split_ifs <;> simp
@[simp] theorem State.count_ks_pcieEn (s : State) (e : Ev) (n : Nat) : (s.count e n).ks.pcieEn = s.ks.pcieEn := by unfold State.count; dsimp only; split_ifs <;> simp
@[simp] theorem State.count_ks_pins (s : State) (e : Ev) (n : Nat) : (s.count e n).ks.pins = s.ks.pins := by unfold State.count; dsimp only; split_ifs <;> simp
@[simp] theorem State.count_ks_tripped (s : State) (e : Ev) (n : Nat) : (s.count e n).ks.tripped = s.ks.tripped := by unfold State.count; dsimp only; split_ifs <;> simp
@[simp] theorem State.count_ks_memFailed (s : State) (e : Ev) (n : Nat) : (s.count e n).ks.memFailed = s.ks.memFailed := by unfold State.count; dsimp only; split_ifs <;> simp
@[simp] theorem State.count_ks_memErrors (s : State) (e : Ev) (n : Nat) : (s.count e n).ks.memErrors = s.ks.memErrors := by unfold State.count; dsimp only; split_ifs <;> simp
@[simp] theorem State.count_ks_brimFailed (s : State) (e : Ev) (n : Nat) : (s.count e n).ks.brimFailed = s.ks.brimFailed := by unfold State.count; dsimp only; split_ifs <;> simp
@[simp] theorem State.count_ks_coolantSince (s : State) (e : Ev) (n : Nat) : (s.count e n).ks.coolantSince = s.ks.coolantSince := by unfold State.count; dsimp only; split_ifs <;> simp
@[simp] theorem State.count_ks_coolantTold (s : State) (e : Ev) (n : Nat) : (s.count e n).ks.coolantTold = s.ks.coolantTold := by unfold State.count; dsimp only; split_ifs <;> simp
@[simp] theorem State.count_ks_lastCoolant (s : State) (e : Ev) (n : Nat) : (s.count e n).ks.lastCoolant = s.ks.lastCoolant := by unfold State.count; dsimp only; split_ifs <;> simp
@[simp] theorem State.count_ks_lastThrottle (s : State) (e : Ev) (n : Nat) : (s.count e n).ks.lastThrottle = s.ks.lastThrottle := by unfold State.count; dsimp only; split_ifs <;> simp
@[simp] theorem State.count_ks_lastAlive (s : State) (e : Ev) (n : Nat) : (s.count e n).ks.lastAlive = s.ks.lastAlive := by unfold State.count; dsimp only; split_ifs <;> simp
@[simp] theorem State.count_ks_lastResend (s : State) (e : Ev) (n : Nat) : (s.count e n).ks.lastResend = s.ks.lastResend := by unfold State.count; dsimp only; split_ifs <;> simp
@[simp] theorem State.count_ks_events (s : State) (e : Ev) (n : Nat) : (s.count e n).ks.events = s.ks.events := by unfold State.count; dsimp only; split_ifs <;> simp
@[simp] theorem State.count_ks_evtDropped (s : State) (e : Ev) (n : Nat) : (s.count e n).ks.evtDropped = s.ks.evtDropped := by unfold State.count; dsimp only; split_ifs <;> simp
@[simp] theorem State.count_ks_admitted (s : State) (e : Ev) (n : Nat) : (s.count e n).ks.admitted = s.ks.admitted := by unfold State.count; dsimp only; split_ifs <;> simp
@[simp] theorem State.count_ks_aliveTold (s : State) (e : Ev) (n : Nat) : (s.count e n).ks.aliveTold = s.ks.aliveTold := by unfold State.count; dsimp only; split_ifs <;> simp
@[simp] theorem State.count_ks_doms (s : State) (e : Ev) (n : Nat) : (s.count e n).ks.doms = s.ks.doms := by unfold State.count; dsimp only; split_ifs <;> simp
@[simp] theorem State.count_ks_leafRecs (s : State) (e : Ev) (n : Nat) : (s.count e n).ks.leafRecs = s.ks.leafRecs := by unfold State.count; dsimp only; split_ifs <;> simp
@[simp] theorem State.count_ks_chunks (s : State) (e : Ev) (n : Nat) : (s.count e n).ks.chunks = s.ks.chunks := by unfold State.count; dsimp only; split_ifs <;> simp
@[simp] theorem State.count_ks_kept (s : State) (e : Ev) (n : Nat) : (s.count e n).ks.kept = s.ks.kept := by unfold State.count; dsimp only; split_ifs <;> simp
@[simp] theorem State.count_ks_shards (s : State) (e : Ev) (n : Nat) : (s.count e n).ks.shards = s.ks.shards := by unfold State.count; dsimp only; split_ifs <;> simp
@[simp] theorem State.count_ks_blockQ (s : State) (e : Ev) (n : Nat) : (s.count e n).ks.blockQ = s.ks.blockQ := by unfold State.count; dsimp only; split_ifs <;> simp
@[simp] theorem State.count_ks_jobs (s : State) (e : Ev) (n : Nat) : (s.count e n).ks.jobs = s.ks.jobs := by unfold State.count; dsimp only; split_ifs <;> simp
@[simp] theorem State.count_ks_waitJobs (s : State) (e : Ev) (n : Nat) : (s.count e n).ks.waitJobs = s.ks.waitJobs := by unfold State.count; dsimp only; split_ifs <;> simp
@[simp] theorem State.count_ks_windows (s : State) (e : Ev) (n : Nat) : (s.count e n).ks.windows = s.ks.windows := by unfold State.count; dsimp only; split_ifs <;> simp
@[simp] theorem State.count_ks_bases (s : State) (e : Ev) (n : Nat) : (s.count e n).ks.bases = s.ks.bases := by unfold State.count; dsimp only; split_ifs <;> simp
@[simp] theorem State.count_ks_staged (s : State) (e : Ev) (n : Nat) : (s.count e n).ks.staged = s.ks.staged := by unfold State.count; dsimp only; split_ifs <;> simp
@[simp] theorem State.count_ks_ckpts (s : State) (e : Ev) (n : Nat) : (s.count e n).ks.ckpts = s.ks.ckpts := by unfold State.count; dsimp only; split_ifs <;> simp
@[simp] theorem State.count_ks_fills (s : State) (e : Ev) (n : Nat) : (s.count e n).ks.fills = s.ks.fills := by unfold State.count; dsimp only; split_ifs <;> simp
@[simp] theorem State.count_ks_cupChecks (s : State) (e : Ev) (n : Nat) : (s.count e n).ks.cupChecks = s.ks.cupChecks := by unfold State.count; dsimp only; split_ifs <;> simp
@[simp] theorem State.count_ks_shardReads (s : State) (e : Ev) (n : Nat) : (s.count e n).ks.shardReads = s.ks.shardReads := by unfold State.count; dsimp only; split_ifs <;> simp
@[simp] theorem State.count_ks_grants (s : State) (e : Ev) (n : Nat) : (s.count e n).ks.grants = s.ks.grants := by unfold State.count; dsimp only; split_ifs <;> simp
@[simp] theorem State.count_ks_dspLeaves (s : State) (e : Ev) (n : Nat) : (s.count e n).ks.dspLeaves = s.ks.dspLeaves := by unfold State.count; dsimp only; split_ifs <;> simp
@[simp] theorem State.count_ks_dspHomes (s : State) (e : Ev) (n : Nat) : (s.count e n).ks.dspHomes = s.ks.dspHomes := by unfold State.count; dsimp only; split_ifs <;> simp
@[simp] theorem State.count_ks_dspEngine (s : State) (e : Ev) (n : Nat) : (s.count e n).ks.dspEngine = s.ks.dspEngine := by unfold State.count; dsimp only; split_ifs <;> simp
@[simp] theorem State.count_ks_dspQ (s : State) (e : Ev) (n : Nat) : (s.count e n).ks.dspQ = s.ks.dspQ := by unfold State.count; dsimp only; split_ifs <;> simp
@[simp] theorem State.count_ks_tieReroute (s : State) (e : Ev) (n : Nat) : (s.count e n).ks.tieReroute = s.ks.tieReroute := by unfold State.count; dsimp only; split_ifs <;> simp
@[simp] theorem State.count_ks_objs (s : State) (e : Ev) (n : Nat) : (s.count e n).ks.objs = s.ks.objs := by unfold State.count; dsimp only; split_ifs <;> simp
@[simp] theorem State.count_ks_heldTakes (s : State) (e : Ev) (n : Nat) : (s.count e n).ks.heldTakes = s.ks.heldTakes := by unfold State.count; dsimp only; split_ifs <;> simp
@[simp] theorem State.count_ks_trackers (s : State) (e : Ev) (n : Nat) : (s.count e n).ks.trackers = s.ks.trackers := by unfold State.count; dsimp only; split_ifs <;> simp
@[simp] theorem State.count_ks_sends (s : State) (e : Ev) (n : Nat) : (s.count e n).ks.sends = s.ks.sends := by unfold State.count; dsimp only; split_ifs <;> simp
@[simp] theorem State.count_ks_writes (s : State) (e : Ev) (n : Nat) : (s.count e n).ks.writes = s.ks.writes := by unfold State.count; dsimp only; split_ifs <;> simp
@[simp] theorem State.count_ks_takesDone (s : State) (e : Ev) (n : Nat) : (s.count e n).ks.takesDone = s.ks.takesDone := by unfold State.count; dsimp only; split_ifs <;> simp
@[simp] theorem State.count_ks_mem (s : State) (e : Ev) (n : Nat) : (s.count e n).ks.mem = s.ks.mem := by unfold State.count; dsimp only; split_ifs <;> simp
@[simp] theorem State.count_ks_ptpDiscard (s : State) (e : Ev) (n : Nat) : (s.count e n).ks.ptpDiscard = s.ks.ptpDiscard := by unfold State.count; dsimp only; split_ifs <;> simp
@[simp] theorem State.count_ks_ppsDelay (s : State) (e : Ev) (n : Nat) : (s.count e n).ks.ppsDelay = s.ks.ppsDelay := by unfold State.count; dsimp only; split_ifs <;> simp
@[simp] theorem State.count_ks_v2Waits (s : State) (e : Ev) (n : Nat) : (s.count e n).ks.v2Waits = s.ks.v2Waits := by unfold State.count; dsimp only; split_ifs <;> simp
@[simp] theorem State.count_time (s : State) (e : Ev) (n : Nat) (q : Part) : ((s.count e n).pc q).time = (s.pc q).time := by unfold State.count; dsimp only; split_ifs <;> simp
@[simp] theorem State.count_stamp (s : State) (e : Ev) (n : Nat) (q : Part) : ((s.count e n).pc q).stamp = (s.pc q).stamp := by unfold State.count; dsimp only; split_ifs <;> simp
@[simp] theorem State.count_fw (s : State) (e : Ev) (n : Nat) (q : Part) : ((s.count e n).pc q).fw = (s.pc q).fw := by unfold State.count; dsimp only; split_ifs <;> simp
@[simp] theorem State.count_link (s : State) (e : Ev) (n : Nat) (q : Part) : ((s.count e n).pc q).link = (s.pc q).link := by unfold State.count; dsimp only; split_ifs <;> simp
@[simp] theorem State.count_highs (s : State) (e : Ev) (n : Nat) (q : Part) : ((s.count e n).pc q).highs = (s.pc q).highs := by unfold State.count; dsimp only; split_ifs <;> simp
@[simp] theorem State.irqPriv_bx_straps (s : State) (p : Part) : (s.irqPriv p).bx.straps = s.bx.straps := by cases p <;> rfl
@[simp] theorem State.irqPriv_bx_refclkLost (s : State) (p : Part) : (s.irqPriv p).bx.refclkLost = s.bx.refclkLost := by cases p <;> rfl
@[simp] theorem State.irqPriv_bx_fenced (s : State) (p : Part) : (s.irqPriv p).bx.fenced = s.bx.fenced := by cases p <;> rfl
@[simp] theorem State.irqPriv_bx_fenceSeq (s : State) (p : Part) : (s.irqPriv p).bx.fenceSeq = s.bx.fenceSeq := by cases p <;> rfl
@[simp] theorem State.irqPriv_bx_prior (s : State) (p : Part) : (s.irqPriv p).bx.prior = s.bx.prior := by cases p <;> rfl
@[simp] theorem State.irqPriv_bx_reportSeq (s : State) (p : Part) : (s.irqPriv p).bx.reportSeq = s.bx.reportSeq := by cases p <;> rfl
@[simp] theorem State.irqPriv_bx_tenants (s : State) (p : Part) : (s.irqPriv p).bx.tenants = s.bx.tenants := by cases p <;> rfl
@[simp] theorem State.irqPriv_bx_slots (s : State) (p : Part) : (s.irqPriv p).bx.slots = s.bx.slots := by cases p <;> rfl
@[simp] theorem State.irqPriv_bx_objs (s : State) (p : Part) : (s.irqPriv p).bx.objs = s.bx.objs := by cases p <;> rfl
@[simp] theorem State.irqPriv_bx_heldTakes (s : State) (p : Part) : (s.irqPriv p).bx.heldTakes = s.bx.heldTakes := by cases p <;> rfl
@[simp] theorem State.irqPriv_bx_trackers (s : State) (p : Part) : (s.irqPriv p).bx.trackers = s.bx.trackers := by cases p <;> rfl
@[simp] theorem State.irqPriv_bx_sends (s : State) (p : Part) : (s.irqPriv p).bx.sends = s.bx.sends := by cases p <;> rfl
@[simp] theorem State.irqPriv_bx_writes (s : State) (p : Part) : (s.irqPriv p).bx.writes = s.bx.writes := by cases p <;> rfl
@[simp] theorem State.irqPriv_bx_reads (s : State) (p : Part) : (s.irqPriv p).bx.reads = s.bx.reads := by cases p <;> rfl
@[simp] theorem State.irqPriv_bx_v2Waits (s : State) (p : Part) : (s.irqPriv p).bx.v2Waits = s.bx.v2Waits := by cases p <;> rfl
@[simp] theorem State.irqPriv_bx_waitSends (s : State) (p : Part) : (s.irqPriv p).bx.waitSends = s.bx.waitSends := by cases p <;> rfl
@[simp] theorem State.irqPriv_bx_parts (s : State) (p : Part) : (s.irqPriv p).bx.parts = s.bx.parts := by cases p <;> rfl
@[simp] theorem State.irqPriv_bx_nextPart (s : State) (p : Part) : (s.irqPriv p).bx.nextPart = s.bx.nextPart := by cases p <;> rfl
@[simp] theorem State.irqPriv_bx_readJobs (s : State) (p : Part) : (s.irqPriv p).bx.readJobs = s.bx.readJobs := by cases p <;> rfl
@[simp] theorem State.irqPriv_bx_nextJob (s : State) (p : Part) : (s.irqPriv p).bx.nextJob = s.bx.nextJob := by cases p <;> rfl
@[simp] theorem State.irqPriv_bx_bases (s : State) (p : Part) : (s.irqPriv p).bx.bases = s.bx.bases := by cases p <;> rfl
@[simp] theorem State.irqPriv_ks_build (s : State) (p : Part) : (s.irqPriv p).ks.build = s.ks.build := by cases p <;> rfl
@[simp] theorem State.irqPriv_ks_lostPlanes (s : State) (p : Part) : (s.irqPriv p).ks.lostPlanes = s.ks.lostPlanes := by cases p <;> rfl
@[simp] theorem State.irqPriv_ks_fences (s : State) (p : Part) : (s.irqPriv p).ks.fences = s.ks.fences := by cases p <;> rfl
@[simp] theorem State.irqPriv_ks_strapFb (s : State) (p : Part) : (s.irqPriv p).ks.strapFb = s.ks.strapFb := by cases p <;> rfl
@[simp] theorem State.irqPriv_ks_pcieEn (s : State) (p : Part) : (s.irqPriv p).ks.pcieEn = s.ks.pcieEn := by cases p <;> rfl
@[simp] theorem State.irqPriv_ks_pins (s : State) (p : Part) : (s.irqPriv p).ks.pins = s.ks.pins := by cases p <;> rfl
@[simp] theorem State.irqPriv_ks_tripped (s : State) (p : Part) : (s.irqPriv p).ks.tripped = s.ks.tripped := by cases p <;> rfl
@[simp] theorem State.irqPriv_ks_memFailed (s : State) (p : Part) : (s.irqPriv p).ks.memFailed = s.ks.memFailed := by cases p <;> rfl
@[simp] theorem State.irqPriv_ks_memErrors (s : State) (p : Part) : (s.irqPriv p).ks.memErrors = s.ks.memErrors := by cases p <;> rfl
@[simp] theorem State.irqPriv_ks_brimFailed (s : State) (p : Part) : (s.irqPriv p).ks.brimFailed = s.ks.brimFailed := by cases p <;> rfl
@[simp] theorem State.irqPriv_ks_coolantSince (s : State) (p : Part) : (s.irqPriv p).ks.coolantSince = s.ks.coolantSince := by cases p <;> rfl
@[simp] theorem State.irqPriv_ks_coolantTold (s : State) (p : Part) : (s.irqPriv p).ks.coolantTold = s.ks.coolantTold := by cases p <;> rfl
@[simp] theorem State.irqPriv_ks_lastCoolant (s : State) (p : Part) : (s.irqPriv p).ks.lastCoolant = s.ks.lastCoolant := by cases p <;> rfl
@[simp] theorem State.irqPriv_ks_lastThrottle (s : State) (p : Part) : (s.irqPriv p).ks.lastThrottle = s.ks.lastThrottle := by cases p <;> rfl
@[simp] theorem State.irqPriv_ks_lastAlive (s : State) (p : Part) : (s.irqPriv p).ks.lastAlive = s.ks.lastAlive := by cases p <;> rfl
@[simp] theorem State.irqPriv_ks_lastResend (s : State) (p : Part) : (s.irqPriv p).ks.lastResend = s.ks.lastResend := by cases p <;> rfl
@[simp] theorem State.irqPriv_ks_events (s : State) (p : Part) : (s.irqPriv p).ks.events = s.ks.events := by cases p <;> rfl
@[simp] theorem State.irqPriv_ks_evtDropped (s : State) (p : Part) : (s.irqPriv p).ks.evtDropped = s.ks.evtDropped := by cases p <;> rfl
@[simp] theorem State.irqPriv_ks_admitted (s : State) (p : Part) : (s.irqPriv p).ks.admitted = s.ks.admitted := by cases p <;> rfl
@[simp] theorem State.irqPriv_ks_aliveTold (s : State) (p : Part) : (s.irqPriv p).ks.aliveTold = s.ks.aliveTold := by cases p <;> rfl
@[simp] theorem State.irqPriv_ks_doms (s : State) (p : Part) : (s.irqPriv p).ks.doms = s.ks.doms := by cases p <;> rfl
@[simp] theorem State.irqPriv_ks_leafRecs (s : State) (p : Part) : (s.irqPriv p).ks.leafRecs = s.ks.leafRecs := by cases p <;> rfl
@[simp] theorem State.irqPriv_ks_chunks (s : State) (p : Part) : (s.irqPriv p).ks.chunks = s.ks.chunks := by cases p <;> rfl
@[simp] theorem State.irqPriv_ks_kept (s : State) (p : Part) : (s.irqPriv p).ks.kept = s.ks.kept := by cases p <;> rfl
@[simp] theorem State.irqPriv_ks_shards (s : State) (p : Part) : (s.irqPriv p).ks.shards = s.ks.shards := by cases p <;> rfl
@[simp] theorem State.irqPriv_ks_blockQ (s : State) (p : Part) : (s.irqPriv p).ks.blockQ = s.ks.blockQ := by cases p <;> rfl
@[simp] theorem State.irqPriv_ks_jobs (s : State) (p : Part) : (s.irqPriv p).ks.jobs = s.ks.jobs := by cases p <;> rfl
@[simp] theorem State.irqPriv_ks_waitJobs (s : State) (p : Part) : (s.irqPriv p).ks.waitJobs = s.ks.waitJobs := by cases p <;> rfl
@[simp] theorem State.irqPriv_ks_windows (s : State) (p : Part) : (s.irqPriv p).ks.windows = s.ks.windows := by cases p <;> rfl
@[simp] theorem State.irqPriv_ks_bases (s : State) (p : Part) : (s.irqPriv p).ks.bases = s.ks.bases := by cases p <;> rfl
@[simp] theorem State.irqPriv_ks_staged (s : State) (p : Part) : (s.irqPriv p).ks.staged = s.ks.staged := by cases p <;> rfl
@[simp] theorem State.irqPriv_ks_ckpts (s : State) (p : Part) : (s.irqPriv p).ks.ckpts = s.ks.ckpts := by cases p <;> rfl
@[simp] theorem State.irqPriv_ks_fills (s : State) (p : Part) : (s.irqPriv p).ks.fills = s.ks.fills := by cases p <;> rfl
@[simp] theorem State.irqPriv_ks_cupChecks (s : State) (p : Part) : (s.irqPriv p).ks.cupChecks = s.ks.cupChecks := by cases p <;> rfl
@[simp] theorem State.irqPriv_ks_shardReads (s : State) (p : Part) : (s.irqPriv p).ks.shardReads = s.ks.shardReads := by cases p <;> rfl
@[simp] theorem State.irqPriv_ks_grants (s : State) (p : Part) : (s.irqPriv p).ks.grants = s.ks.grants := by cases p <;> rfl
@[simp] theorem State.irqPriv_ks_dspLeaves (s : State) (p : Part) : (s.irqPriv p).ks.dspLeaves = s.ks.dspLeaves := by cases p <;> rfl
@[simp] theorem State.irqPriv_ks_dspHomes (s : State) (p : Part) : (s.irqPriv p).ks.dspHomes = s.ks.dspHomes := by cases p <;> rfl
@[simp] theorem State.irqPriv_ks_dspEngine (s : State) (p : Part) : (s.irqPriv p).ks.dspEngine = s.ks.dspEngine := by cases p <;> rfl
@[simp] theorem State.irqPriv_ks_dspQ (s : State) (p : Part) : (s.irqPriv p).ks.dspQ = s.ks.dspQ := by cases p <;> rfl
@[simp] theorem State.irqPriv_ks_tieReroute (s : State) (p : Part) : (s.irqPriv p).ks.tieReroute = s.ks.tieReroute := by cases p <;> rfl
@[simp] theorem State.irqPriv_ks_objs (s : State) (p : Part) : (s.irqPriv p).ks.objs = s.ks.objs := by cases p <;> rfl
@[simp] theorem State.irqPriv_ks_heldTakes (s : State) (p : Part) : (s.irqPriv p).ks.heldTakes = s.ks.heldTakes := by cases p <;> rfl
@[simp] theorem State.irqPriv_ks_trackers (s : State) (p : Part) : (s.irqPriv p).ks.trackers = s.ks.trackers := by cases p <;> rfl
@[simp] theorem State.irqPriv_ks_sends (s : State) (p : Part) : (s.irqPriv p).ks.sends = s.ks.sends := by cases p <;> rfl
@[simp] theorem State.irqPriv_ks_writes (s : State) (p : Part) : (s.irqPriv p).ks.writes = s.ks.writes := by cases p <;> rfl
@[simp] theorem State.irqPriv_ks_takesDone (s : State) (p : Part) : (s.irqPriv p).ks.takesDone = s.ks.takesDone := by cases p <;> rfl
@[simp] theorem State.irqPriv_ks_mem (s : State) (p : Part) : (s.irqPriv p).ks.mem = s.ks.mem := by cases p <;> rfl
@[simp] theorem State.irqPriv_ks_ptpDiscard (s : State) (p : Part) : (s.irqPriv p).ks.ptpDiscard = s.ks.ptpDiscard := by cases p <;> rfl
@[simp] theorem State.irqPriv_ks_ppsDelay (s : State) (p : Part) : (s.irqPriv p).ks.ppsDelay = s.ks.ppsDelay := by cases p <;> rfl
@[simp] theorem State.irqPriv_ks_v2Waits (s : State) (p : Part) : (s.irqPriv p).ks.v2Waits = s.ks.v2Waits := by cases p <;> rfl
@[simp] theorem State.irqPriv_time (s : State) (p : Part) (q : Part) : ((s.irqPriv p).pc q).time = (s.pc q).time := by cases p <;> cases q <;> rfl
@[simp] theorem State.irqPriv_stamp (s : State) (p : Part) (q : Part) : ((s.irqPriv p).pc q).stamp = (s.pc q).stamp := by cases p <;> cases q <;> rfl
@[simp] theorem State.irqPriv_ctr (s : State) (p : Part) (q : Part) : ((s.irqPriv p).pc q).ctr = (s.pc q).ctr := by cases p <;> cases q <;> rfl
@[simp] theorem State.irqPriv_fw (s : State) (p : Part) (q : Part) : ((s.irqPriv p).pc q).fw = (s.pc q).fw := by cases p <;> cases q <;> rfl
@[simp] theorem State.irqPriv_link (s : State) (p : Part) (q : Part) : ((s.irqPriv p).pc q).link = (s.pc q).link := by cases p <;> cases q <;> rfl
@[simp] theorem State.irqPriv_highs (s : State) (p : Part) (q : Part) : ((s.irqPriv p).pc q).highs = (s.pc q).highs := by cases p <;> cases q <;> rfl
@[simp] theorem State.stickyTime_bx_straps (s : State) (p : Part) (a i : Nat) : (s.stickyTime p a i).bx.straps = s.bx.straps := by unfold State.stickyTime; split_ifs <;> simp
@[simp] theorem State.stickyTime_bx_refclkLost (s : State) (p : Part) (a i : Nat) : (s.stickyTime p a i).bx.refclkLost = s.bx.refclkLost := by unfold State.stickyTime; split_ifs <;> simp
@[simp] theorem State.stickyTime_bx_fenced (s : State) (p : Part) (a i : Nat) : (s.stickyTime p a i).bx.fenced = s.bx.fenced := by unfold State.stickyTime; split_ifs <;> simp
@[simp] theorem State.stickyTime_bx_fenceSeq (s : State) (p : Part) (a i : Nat) : (s.stickyTime p a i).bx.fenceSeq = s.bx.fenceSeq := by unfold State.stickyTime; split_ifs <;> simp
@[simp] theorem State.stickyTime_bx_prior (s : State) (p : Part) (a i : Nat) : (s.stickyTime p a i).bx.prior = s.bx.prior := by unfold State.stickyTime; split_ifs <;> simp
@[simp] theorem State.stickyTime_bx_reportSeq (s : State) (p : Part) (a i : Nat) : (s.stickyTime p a i).bx.reportSeq = s.bx.reportSeq := by unfold State.stickyTime; split_ifs <;> simp
@[simp] theorem State.stickyTime_bx_tenants (s : State) (p : Part) (a i : Nat) : (s.stickyTime p a i).bx.tenants = s.bx.tenants := by unfold State.stickyTime; split_ifs <;> simp
@[simp] theorem State.stickyTime_bx_slots (s : State) (p : Part) (a i : Nat) : (s.stickyTime p a i).bx.slots = s.bx.slots := by unfold State.stickyTime; split_ifs <;> simp
@[simp] theorem State.stickyTime_bx_objs (s : State) (p : Part) (a i : Nat) : (s.stickyTime p a i).bx.objs = s.bx.objs := by unfold State.stickyTime; split_ifs <;> simp
@[simp] theorem State.stickyTime_bx_heldTakes (s : State) (p : Part) (a i : Nat) : (s.stickyTime p a i).bx.heldTakes = s.bx.heldTakes := by unfold State.stickyTime; split_ifs <;> simp
@[simp] theorem State.stickyTime_bx_trackers (s : State) (p : Part) (a i : Nat) : (s.stickyTime p a i).bx.trackers = s.bx.trackers := by unfold State.stickyTime; split_ifs <;> simp
@[simp] theorem State.stickyTime_bx_sends (s : State) (p : Part) (a i : Nat) : (s.stickyTime p a i).bx.sends = s.bx.sends := by unfold State.stickyTime; split_ifs <;> simp
@[simp] theorem State.stickyTime_bx_writes (s : State) (p : Part) (a i : Nat) : (s.stickyTime p a i).bx.writes = s.bx.writes := by unfold State.stickyTime; split_ifs <;> simp
@[simp] theorem State.stickyTime_bx_reads (s : State) (p : Part) (a i : Nat) : (s.stickyTime p a i).bx.reads = s.bx.reads := by unfold State.stickyTime; split_ifs <;> simp
@[simp] theorem State.stickyTime_bx_v2Waits (s : State) (p : Part) (a i : Nat) : (s.stickyTime p a i).bx.v2Waits = s.bx.v2Waits := by unfold State.stickyTime; split_ifs <;> simp
@[simp] theorem State.stickyTime_bx_waitSends (s : State) (p : Part) (a i : Nat) : (s.stickyTime p a i).bx.waitSends = s.bx.waitSends := by unfold State.stickyTime; split_ifs <;> simp
@[simp] theorem State.stickyTime_bx_parts (s : State) (p : Part) (a i : Nat) : (s.stickyTime p a i).bx.parts = s.bx.parts := by unfold State.stickyTime; split_ifs <;> simp
@[simp] theorem State.stickyTime_bx_nextPart (s : State) (p : Part) (a i : Nat) : (s.stickyTime p a i).bx.nextPart = s.bx.nextPart := by unfold State.stickyTime; split_ifs <;> simp
@[simp] theorem State.stickyTime_bx_readJobs (s : State) (p : Part) (a i : Nat) : (s.stickyTime p a i).bx.readJobs = s.bx.readJobs := by unfold State.stickyTime; split_ifs <;> simp
@[simp] theorem State.stickyTime_bx_nextJob (s : State) (p : Part) (a i : Nat) : (s.stickyTime p a i).bx.nextJob = s.bx.nextJob := by unfold State.stickyTime; split_ifs <;> simp
@[simp] theorem State.stickyTime_bx_bases (s : State) (p : Part) (a i : Nat) : (s.stickyTime p a i).bx.bases = s.bx.bases := by unfold State.stickyTime; split_ifs <;> simp
@[simp] theorem State.stickyTime_ks_build (s : State) (p : Part) (a i : Nat) : (s.stickyTime p a i).ks.build = s.ks.build := by unfold State.stickyTime; split_ifs <;> simp
@[simp] theorem State.stickyTime_ks_lostPlanes (s : State) (p : Part) (a i : Nat) : (s.stickyTime p a i).ks.lostPlanes = s.ks.lostPlanes := by unfold State.stickyTime; split_ifs <;> simp
@[simp] theorem State.stickyTime_ks_fences (s : State) (p : Part) (a i : Nat) : (s.stickyTime p a i).ks.fences = s.ks.fences := by unfold State.stickyTime; split_ifs <;> simp
@[simp] theorem State.stickyTime_ks_strapFb (s : State) (p : Part) (a i : Nat) : (s.stickyTime p a i).ks.strapFb = s.ks.strapFb := by unfold State.stickyTime; split_ifs <;> simp
@[simp] theorem State.stickyTime_ks_pcieEn (s : State) (p : Part) (a i : Nat) : (s.stickyTime p a i).ks.pcieEn = s.ks.pcieEn := by unfold State.stickyTime; split_ifs <;> simp
@[simp] theorem State.stickyTime_ks_pins (s : State) (p : Part) (a i : Nat) : (s.stickyTime p a i).ks.pins = s.ks.pins := by unfold State.stickyTime; split_ifs <;> simp
@[simp] theorem State.stickyTime_ks_tripped (s : State) (p : Part) (a i : Nat) : (s.stickyTime p a i).ks.tripped = s.ks.tripped := by unfold State.stickyTime; split_ifs <;> simp
@[simp] theorem State.stickyTime_ks_memFailed (s : State) (p : Part) (a i : Nat) : (s.stickyTime p a i).ks.memFailed = s.ks.memFailed := by unfold State.stickyTime; split_ifs <;> simp
@[simp] theorem State.stickyTime_ks_memErrors (s : State) (p : Part) (a i : Nat) : (s.stickyTime p a i).ks.memErrors = s.ks.memErrors := by unfold State.stickyTime; split_ifs <;> simp
@[simp] theorem State.stickyTime_ks_brimFailed (s : State) (p : Part) (a i : Nat) : (s.stickyTime p a i).ks.brimFailed = s.ks.brimFailed := by unfold State.stickyTime; split_ifs <;> simp
@[simp] theorem State.stickyTime_ks_coolantSince (s : State) (p : Part) (a i : Nat) : (s.stickyTime p a i).ks.coolantSince = s.ks.coolantSince := by unfold State.stickyTime; split_ifs <;> simp
@[simp] theorem State.stickyTime_ks_coolantTold (s : State) (p : Part) (a i : Nat) : (s.stickyTime p a i).ks.coolantTold = s.ks.coolantTold := by unfold State.stickyTime; split_ifs <;> simp
@[simp] theorem State.stickyTime_ks_lastCoolant (s : State) (p : Part) (a i : Nat) : (s.stickyTime p a i).ks.lastCoolant = s.ks.lastCoolant := by unfold State.stickyTime; split_ifs <;> simp
@[simp] theorem State.stickyTime_ks_lastThrottle (s : State) (p : Part) (a i : Nat) : (s.stickyTime p a i).ks.lastThrottle = s.ks.lastThrottle := by unfold State.stickyTime; split_ifs <;> simp
@[simp] theorem State.stickyTime_ks_lastAlive (s : State) (p : Part) (a i : Nat) : (s.stickyTime p a i).ks.lastAlive = s.ks.lastAlive := by unfold State.stickyTime; split_ifs <;> simp
@[simp] theorem State.stickyTime_ks_lastResend (s : State) (p : Part) (a i : Nat) : (s.stickyTime p a i).ks.lastResend = s.ks.lastResend := by unfold State.stickyTime; split_ifs <;> simp
@[simp] theorem State.stickyTime_ks_events (s : State) (p : Part) (a i : Nat) : (s.stickyTime p a i).ks.events = s.ks.events := by unfold State.stickyTime; split_ifs <;> simp
@[simp] theorem State.stickyTime_ks_evtDropped (s : State) (p : Part) (a i : Nat) : (s.stickyTime p a i).ks.evtDropped = s.ks.evtDropped := by unfold State.stickyTime; split_ifs <;> simp
@[simp] theorem State.stickyTime_ks_admitted (s : State) (p : Part) (a i : Nat) : (s.stickyTime p a i).ks.admitted = s.ks.admitted := by unfold State.stickyTime; split_ifs <;> simp
@[simp] theorem State.stickyTime_ks_aliveTold (s : State) (p : Part) (a i : Nat) : (s.stickyTime p a i).ks.aliveTold = s.ks.aliveTold := by unfold State.stickyTime; split_ifs <;> simp
@[simp] theorem State.stickyTime_ks_doms (s : State) (p : Part) (a i : Nat) : (s.stickyTime p a i).ks.doms = s.ks.doms := by unfold State.stickyTime; split_ifs <;> simp
@[simp] theorem State.stickyTime_ks_leafRecs (s : State) (p : Part) (a i : Nat) : (s.stickyTime p a i).ks.leafRecs = s.ks.leafRecs := by unfold State.stickyTime; split_ifs <;> simp
@[simp] theorem State.stickyTime_ks_chunks (s : State) (p : Part) (a i : Nat) : (s.stickyTime p a i).ks.chunks = s.ks.chunks := by unfold State.stickyTime; split_ifs <;> simp
@[simp] theorem State.stickyTime_ks_kept (s : State) (p : Part) (a i : Nat) : (s.stickyTime p a i).ks.kept = s.ks.kept := by unfold State.stickyTime; split_ifs <;> simp
@[simp] theorem State.stickyTime_ks_shards (s : State) (p : Part) (a i : Nat) : (s.stickyTime p a i).ks.shards = s.ks.shards := by unfold State.stickyTime; split_ifs <;> simp
@[simp] theorem State.stickyTime_ks_blockQ (s : State) (p : Part) (a i : Nat) : (s.stickyTime p a i).ks.blockQ = s.ks.blockQ := by unfold State.stickyTime; split_ifs <;> simp
@[simp] theorem State.stickyTime_ks_jobs (s : State) (p : Part) (a i : Nat) : (s.stickyTime p a i).ks.jobs = s.ks.jobs := by unfold State.stickyTime; split_ifs <;> simp
@[simp] theorem State.stickyTime_ks_waitJobs (s : State) (p : Part) (a i : Nat) : (s.stickyTime p a i).ks.waitJobs = s.ks.waitJobs := by unfold State.stickyTime; split_ifs <;> simp
@[simp] theorem State.stickyTime_ks_windows (s : State) (p : Part) (a i : Nat) : (s.stickyTime p a i).ks.windows = s.ks.windows := by unfold State.stickyTime; split_ifs <;> simp
@[simp] theorem State.stickyTime_ks_bases (s : State) (p : Part) (a i : Nat) : (s.stickyTime p a i).ks.bases = s.ks.bases := by unfold State.stickyTime; split_ifs <;> simp
@[simp] theorem State.stickyTime_ks_staged (s : State) (p : Part) (a i : Nat) : (s.stickyTime p a i).ks.staged = s.ks.staged := by unfold State.stickyTime; split_ifs <;> simp
@[simp] theorem State.stickyTime_ks_ckpts (s : State) (p : Part) (a i : Nat) : (s.stickyTime p a i).ks.ckpts = s.ks.ckpts := by unfold State.stickyTime; split_ifs <;> simp
@[simp] theorem State.stickyTime_ks_fills (s : State) (p : Part) (a i : Nat) : (s.stickyTime p a i).ks.fills = s.ks.fills := by unfold State.stickyTime; split_ifs <;> simp
@[simp] theorem State.stickyTime_ks_cupChecks (s : State) (p : Part) (a i : Nat) : (s.stickyTime p a i).ks.cupChecks = s.ks.cupChecks := by unfold State.stickyTime; split_ifs <;> simp
@[simp] theorem State.stickyTime_ks_shardReads (s : State) (p : Part) (a i : Nat) : (s.stickyTime p a i).ks.shardReads = s.ks.shardReads := by unfold State.stickyTime; split_ifs <;> simp
@[simp] theorem State.stickyTime_ks_grants (s : State) (p : Part) (a i : Nat) : (s.stickyTime p a i).ks.grants = s.ks.grants := by unfold State.stickyTime; split_ifs <;> simp
@[simp] theorem State.stickyTime_ks_dspLeaves (s : State) (p : Part) (a i : Nat) : (s.stickyTime p a i).ks.dspLeaves = s.ks.dspLeaves := by unfold State.stickyTime; split_ifs <;> simp
@[simp] theorem State.stickyTime_ks_dspHomes (s : State) (p : Part) (a i : Nat) : (s.stickyTime p a i).ks.dspHomes = s.ks.dspHomes := by unfold State.stickyTime; split_ifs <;> simp
@[simp] theorem State.stickyTime_ks_dspEngine (s : State) (p : Part) (a i : Nat) : (s.stickyTime p a i).ks.dspEngine = s.ks.dspEngine := by unfold State.stickyTime; split_ifs <;> simp
@[simp] theorem State.stickyTime_ks_dspQ (s : State) (p : Part) (a i : Nat) : (s.stickyTime p a i).ks.dspQ = s.ks.dspQ := by unfold State.stickyTime; split_ifs <;> simp
@[simp] theorem State.stickyTime_ks_tieReroute (s : State) (p : Part) (a i : Nat) : (s.stickyTime p a i).ks.tieReroute = s.ks.tieReroute := by unfold State.stickyTime; split_ifs <;> simp
@[simp] theorem State.stickyTime_ks_objs (s : State) (p : Part) (a i : Nat) : (s.stickyTime p a i).ks.objs = s.ks.objs := by unfold State.stickyTime; split_ifs <;> simp
@[simp] theorem State.stickyTime_ks_heldTakes (s : State) (p : Part) (a i : Nat) : (s.stickyTime p a i).ks.heldTakes = s.ks.heldTakes := by unfold State.stickyTime; split_ifs <;> simp
@[simp] theorem State.stickyTime_ks_trackers (s : State) (p : Part) (a i : Nat) : (s.stickyTime p a i).ks.trackers = s.ks.trackers := by unfold State.stickyTime; split_ifs <;> simp
@[simp] theorem State.stickyTime_ks_sends (s : State) (p : Part) (a i : Nat) : (s.stickyTime p a i).ks.sends = s.ks.sends := by unfold State.stickyTime; split_ifs <;> simp
@[simp] theorem State.stickyTime_ks_writes (s : State) (p : Part) (a i : Nat) : (s.stickyTime p a i).ks.writes = s.ks.writes := by unfold State.stickyTime; split_ifs <;> simp
@[simp] theorem State.stickyTime_ks_takesDone (s : State) (p : Part) (a i : Nat) : (s.stickyTime p a i).ks.takesDone = s.ks.takesDone := by unfold State.stickyTime; split_ifs <;> simp
@[simp] theorem State.stickyTime_ks_mem (s : State) (p : Part) (a i : Nat) : (s.stickyTime p a i).ks.mem = s.ks.mem := by unfold State.stickyTime; split_ifs <;> simp
@[simp] theorem State.stickyTime_ks_ptpDiscard (s : State) (p : Part) (a i : Nat) : (s.stickyTime p a i).ks.ptpDiscard = s.ks.ptpDiscard := by unfold State.stickyTime; split_ifs <;> simp
@[simp] theorem State.stickyTime_ks_ppsDelay (s : State) (p : Part) (a i : Nat) : (s.stickyTime p a i).ks.ppsDelay = s.ks.ppsDelay := by unfold State.stickyTime; split_ifs <;> simp
@[simp] theorem State.stickyTime_ks_v2Waits (s : State) (p : Part) (a i : Nat) : (s.stickyTime p a i).ks.v2Waits = s.ks.v2Waits := by unfold State.stickyTime; split_ifs <;> simp
@[simp] theorem State.stickyTime_time (s : State) (p : Part) (a i : Nat) (q : Part) : ((s.stickyTime p a i).pc q).time = (s.pc q).time := by unfold State.stickyTime; split_ifs <;> simp
@[simp] theorem State.stickyTime_stamp (s : State) (p : Part) (a i : Nat) (q : Part) : ((s.stickyTime p a i).pc q).stamp = (s.pc q).stamp := by unfold State.stickyTime; split_ifs <;> simp
@[simp] theorem State.stickyTime_ctr (s : State) (p : Part) (a i : Nat) (q : Part) : ((s.stickyTime p a i).pc q).ctr = (s.pc q).ctr := by unfold State.stickyTime; split_ifs <;> simp
@[simp] theorem State.stickyTime_fw (s : State) (p : Part) (a i : Nat) (q : Part) : ((s.stickyTime p a i).pc q).fw = (s.pc q).fw := by unfold State.stickyTime; split_ifs <;> simp
@[simp] theorem State.stickyTime_link (s : State) (p : Part) (a i : Nat) (q : Part) : ((s.stickyTime p a i).pc q).link = (s.pc q).link := by unfold State.stickyTime; split_ifs <;> simp
@[simp] theorem State.stickyTime_highs (s : State) (p : Part) (a i : Nat) (q : Part) : ((s.stickyTime p a i).pc q).highs = (s.pc q).highs := by unfold State.stickyTime; split_ifs <;> simp
@[simp] theorem State.viewRefused_bx_straps (s : State) (p : Part) (v : View) (a : Nat) : (s.viewRefused p v a).bx.straps = s.bx.straps := by unfold State.viewRefused; split <;> simp
@[simp] theorem State.viewRefused_bx_refclkLost (s : State) (p : Part) (v : View) (a : Nat) : (s.viewRefused p v a).bx.refclkLost = s.bx.refclkLost := by unfold State.viewRefused; split <;> simp
@[simp] theorem State.viewRefused_bx_fenced (s : State) (p : Part) (v : View) (a : Nat) : (s.viewRefused p v a).bx.fenced = s.bx.fenced := by unfold State.viewRefused; split <;> simp
@[simp] theorem State.viewRefused_bx_fenceSeq (s : State) (p : Part) (v : View) (a : Nat) : (s.viewRefused p v a).bx.fenceSeq = s.bx.fenceSeq := by unfold State.viewRefused; split <;> simp
@[simp] theorem State.viewRefused_bx_prior (s : State) (p : Part) (v : View) (a : Nat) : (s.viewRefused p v a).bx.prior = s.bx.prior := by unfold State.viewRefused; split <;> simp
@[simp] theorem State.viewRefused_bx_reportSeq (s : State) (p : Part) (v : View) (a : Nat) : (s.viewRefused p v a).bx.reportSeq = s.bx.reportSeq := by unfold State.viewRefused; split <;> simp
@[simp] theorem State.viewRefused_bx_tenants (s : State) (p : Part) (v : View) (a : Nat) : (s.viewRefused p v a).bx.tenants = s.bx.tenants := by unfold State.viewRefused; split <;> simp
@[simp] theorem State.viewRefused_bx_slots (s : State) (p : Part) (v : View) (a : Nat) : (s.viewRefused p v a).bx.slots = s.bx.slots := by unfold State.viewRefused; split <;> simp
@[simp] theorem State.viewRefused_bx_objs (s : State) (p : Part) (v : View) (a : Nat) : (s.viewRefused p v a).bx.objs = s.bx.objs := by unfold State.viewRefused; split <;> simp
@[simp] theorem State.viewRefused_bx_heldTakes (s : State) (p : Part) (v : View) (a : Nat) : (s.viewRefused p v a).bx.heldTakes = s.bx.heldTakes := by unfold State.viewRefused; split <;> simp
@[simp] theorem State.viewRefused_bx_trackers (s : State) (p : Part) (v : View) (a : Nat) : (s.viewRefused p v a).bx.trackers = s.bx.trackers := by unfold State.viewRefused; split <;> simp
@[simp] theorem State.viewRefused_bx_sends (s : State) (p : Part) (v : View) (a : Nat) : (s.viewRefused p v a).bx.sends = s.bx.sends := by unfold State.viewRefused; split <;> simp
@[simp] theorem State.viewRefused_bx_writes (s : State) (p : Part) (v : View) (a : Nat) : (s.viewRefused p v a).bx.writes = s.bx.writes := by unfold State.viewRefused; split <;> simp
@[simp] theorem State.viewRefused_bx_reads (s : State) (p : Part) (v : View) (a : Nat) : (s.viewRefused p v a).bx.reads = s.bx.reads := by unfold State.viewRefused; split <;> simp
@[simp] theorem State.viewRefused_bx_v2Waits (s : State) (p : Part) (v : View) (a : Nat) : (s.viewRefused p v a).bx.v2Waits = s.bx.v2Waits := by unfold State.viewRefused; split <;> simp
@[simp] theorem State.viewRefused_bx_waitSends (s : State) (p : Part) (v : View) (a : Nat) : (s.viewRefused p v a).bx.waitSends = s.bx.waitSends := by unfold State.viewRefused; split <;> simp
@[simp] theorem State.viewRefused_bx_parts (s : State) (p : Part) (v : View) (a : Nat) : (s.viewRefused p v a).bx.parts = s.bx.parts := by unfold State.viewRefused; split <;> simp
@[simp] theorem State.viewRefused_bx_nextPart (s : State) (p : Part) (v : View) (a : Nat) : (s.viewRefused p v a).bx.nextPart = s.bx.nextPart := by unfold State.viewRefused; split <;> simp
@[simp] theorem State.viewRefused_bx_readJobs (s : State) (p : Part) (v : View) (a : Nat) : (s.viewRefused p v a).bx.readJobs = s.bx.readJobs := by unfold State.viewRefused; split <;> simp
@[simp] theorem State.viewRefused_bx_nextJob (s : State) (p : Part) (v : View) (a : Nat) : (s.viewRefused p v a).bx.nextJob = s.bx.nextJob := by unfold State.viewRefused; split <;> simp
@[simp] theorem State.viewRefused_bx_bases (s : State) (p : Part) (v : View) (a : Nat) : (s.viewRefused p v a).bx.bases = s.bx.bases := by unfold State.viewRefused; split <;> simp
@[simp] theorem State.viewRefused_ks_build (s : State) (p : Part) (v : View) (a : Nat) : (s.viewRefused p v a).ks.build = s.ks.build := by unfold State.viewRefused; split <;> simp
@[simp] theorem State.viewRefused_ks_lostPlanes (s : State) (p : Part) (v : View) (a : Nat) : (s.viewRefused p v a).ks.lostPlanes = s.ks.lostPlanes := by unfold State.viewRefused; split <;> simp
@[simp] theorem State.viewRefused_ks_fences (s : State) (p : Part) (v : View) (a : Nat) : (s.viewRefused p v a).ks.fences = s.ks.fences := by unfold State.viewRefused; split <;> simp
@[simp] theorem State.viewRefused_ks_strapFb (s : State) (p : Part) (v : View) (a : Nat) : (s.viewRefused p v a).ks.strapFb = s.ks.strapFb := by unfold State.viewRefused; split <;> simp
@[simp] theorem State.viewRefused_ks_pcieEn (s : State) (p : Part) (v : View) (a : Nat) : (s.viewRefused p v a).ks.pcieEn = s.ks.pcieEn := by unfold State.viewRefused; split <;> simp
@[simp] theorem State.viewRefused_ks_pins (s : State) (p : Part) (v : View) (a : Nat) : (s.viewRefused p v a).ks.pins = s.ks.pins := by unfold State.viewRefused; split <;> simp
@[simp] theorem State.viewRefused_ks_tripped (s : State) (p : Part) (v : View) (a : Nat) : (s.viewRefused p v a).ks.tripped = s.ks.tripped := by unfold State.viewRefused; split <;> simp
@[simp] theorem State.viewRefused_ks_memFailed (s : State) (p : Part) (v : View) (a : Nat) : (s.viewRefused p v a).ks.memFailed = s.ks.memFailed := by unfold State.viewRefused; split <;> simp
@[simp] theorem State.viewRefused_ks_memErrors (s : State) (p : Part) (v : View) (a : Nat) : (s.viewRefused p v a).ks.memErrors = s.ks.memErrors := by unfold State.viewRefused; split <;> simp
@[simp] theorem State.viewRefused_ks_brimFailed (s : State) (p : Part) (v : View) (a : Nat) : (s.viewRefused p v a).ks.brimFailed = s.ks.brimFailed := by unfold State.viewRefused; split <;> simp
@[simp] theorem State.viewRefused_ks_coolantSince (s : State) (p : Part) (v : View) (a : Nat) : (s.viewRefused p v a).ks.coolantSince = s.ks.coolantSince := by unfold State.viewRefused; split <;> simp
@[simp] theorem State.viewRefused_ks_coolantTold (s : State) (p : Part) (v : View) (a : Nat) : (s.viewRefused p v a).ks.coolantTold = s.ks.coolantTold := by unfold State.viewRefused; split <;> simp
@[simp] theorem State.viewRefused_ks_lastCoolant (s : State) (p : Part) (v : View) (a : Nat) : (s.viewRefused p v a).ks.lastCoolant = s.ks.lastCoolant := by unfold State.viewRefused; split <;> simp
@[simp] theorem State.viewRefused_ks_lastThrottle (s : State) (p : Part) (v : View) (a : Nat) : (s.viewRefused p v a).ks.lastThrottle = s.ks.lastThrottle := by unfold State.viewRefused; split <;> simp
@[simp] theorem State.viewRefused_ks_lastAlive (s : State) (p : Part) (v : View) (a : Nat) : (s.viewRefused p v a).ks.lastAlive = s.ks.lastAlive := by unfold State.viewRefused; split <;> simp
@[simp] theorem State.viewRefused_ks_lastResend (s : State) (p : Part) (v : View) (a : Nat) : (s.viewRefused p v a).ks.lastResend = s.ks.lastResend := by unfold State.viewRefused; split <;> simp
@[simp] theorem State.viewRefused_ks_events (s : State) (p : Part) (v : View) (a : Nat) : (s.viewRefused p v a).ks.events = s.ks.events := by unfold State.viewRefused; split <;> simp
@[simp] theorem State.viewRefused_ks_evtDropped (s : State) (p : Part) (v : View) (a : Nat) : (s.viewRefused p v a).ks.evtDropped = s.ks.evtDropped := by unfold State.viewRefused; split <;> simp
@[simp] theorem State.viewRefused_ks_admitted (s : State) (p : Part) (v : View) (a : Nat) : (s.viewRefused p v a).ks.admitted = s.ks.admitted := by unfold State.viewRefused; split <;> simp
@[simp] theorem State.viewRefused_ks_aliveTold (s : State) (p : Part) (v : View) (a : Nat) : (s.viewRefused p v a).ks.aliveTold = s.ks.aliveTold := by unfold State.viewRefused; split <;> simp
@[simp] theorem State.viewRefused_ks_doms (s : State) (p : Part) (v : View) (a : Nat) : (s.viewRefused p v a).ks.doms = s.ks.doms := by unfold State.viewRefused; split <;> simp
@[simp] theorem State.viewRefused_ks_leafRecs (s : State) (p : Part) (v : View) (a : Nat) : (s.viewRefused p v a).ks.leafRecs = s.ks.leafRecs := by unfold State.viewRefused; split <;> simp
@[simp] theorem State.viewRefused_ks_chunks (s : State) (p : Part) (v : View) (a : Nat) : (s.viewRefused p v a).ks.chunks = s.ks.chunks := by unfold State.viewRefused; split <;> simp
@[simp] theorem State.viewRefused_ks_kept (s : State) (p : Part) (v : View) (a : Nat) : (s.viewRefused p v a).ks.kept = s.ks.kept := by unfold State.viewRefused; split <;> simp
@[simp] theorem State.viewRefused_ks_shards (s : State) (p : Part) (v : View) (a : Nat) : (s.viewRefused p v a).ks.shards = s.ks.shards := by unfold State.viewRefused; split <;> simp
@[simp] theorem State.viewRefused_ks_blockQ (s : State) (p : Part) (v : View) (a : Nat) : (s.viewRefused p v a).ks.blockQ = s.ks.blockQ := by unfold State.viewRefused; split <;> simp
@[simp] theorem State.viewRefused_ks_jobs (s : State) (p : Part) (v : View) (a : Nat) : (s.viewRefused p v a).ks.jobs = s.ks.jobs := by unfold State.viewRefused; split <;> simp
@[simp] theorem State.viewRefused_ks_waitJobs (s : State) (p : Part) (v : View) (a : Nat) : (s.viewRefused p v a).ks.waitJobs = s.ks.waitJobs := by unfold State.viewRefused; split <;> simp
@[simp] theorem State.viewRefused_ks_windows (s : State) (p : Part) (v : View) (a : Nat) : (s.viewRefused p v a).ks.windows = s.ks.windows := by unfold State.viewRefused; split <;> simp
@[simp] theorem State.viewRefused_ks_bases (s : State) (p : Part) (v : View) (a : Nat) : (s.viewRefused p v a).ks.bases = s.ks.bases := by unfold State.viewRefused; split <;> simp
@[simp] theorem State.viewRefused_ks_staged (s : State) (p : Part) (v : View) (a : Nat) : (s.viewRefused p v a).ks.staged = s.ks.staged := by unfold State.viewRefused; split <;> simp
@[simp] theorem State.viewRefused_ks_ckpts (s : State) (p : Part) (v : View) (a : Nat) : (s.viewRefused p v a).ks.ckpts = s.ks.ckpts := by unfold State.viewRefused; split <;> simp
@[simp] theorem State.viewRefused_ks_fills (s : State) (p : Part) (v : View) (a : Nat) : (s.viewRefused p v a).ks.fills = s.ks.fills := by unfold State.viewRefused; split <;> simp
@[simp] theorem State.viewRefused_ks_cupChecks (s : State) (p : Part) (v : View) (a : Nat) : (s.viewRefused p v a).ks.cupChecks = s.ks.cupChecks := by unfold State.viewRefused; split <;> simp
@[simp] theorem State.viewRefused_ks_shardReads (s : State) (p : Part) (v : View) (a : Nat) : (s.viewRefused p v a).ks.shardReads = s.ks.shardReads := by unfold State.viewRefused; split <;> simp
@[simp] theorem State.viewRefused_ks_grants (s : State) (p : Part) (v : View) (a : Nat) : (s.viewRefused p v a).ks.grants = s.ks.grants := by unfold State.viewRefused; split <;> simp
@[simp] theorem State.viewRefused_ks_dspLeaves (s : State) (p : Part) (v : View) (a : Nat) : (s.viewRefused p v a).ks.dspLeaves = s.ks.dspLeaves := by unfold State.viewRefused; split <;> simp
@[simp] theorem State.viewRefused_ks_dspHomes (s : State) (p : Part) (v : View) (a : Nat) : (s.viewRefused p v a).ks.dspHomes = s.ks.dspHomes := by unfold State.viewRefused; split <;> simp
@[simp] theorem State.viewRefused_ks_dspEngine (s : State) (p : Part) (v : View) (a : Nat) : (s.viewRefused p v a).ks.dspEngine = s.ks.dspEngine := by unfold State.viewRefused; split <;> simp
@[simp] theorem State.viewRefused_ks_dspQ (s : State) (p : Part) (v : View) (a : Nat) : (s.viewRefused p v a).ks.dspQ = s.ks.dspQ := by unfold State.viewRefused; split <;> simp
@[simp] theorem State.viewRefused_ks_tieReroute (s : State) (p : Part) (v : View) (a : Nat) : (s.viewRefused p v a).ks.tieReroute = s.ks.tieReroute := by unfold State.viewRefused; split <;> simp
@[simp] theorem State.viewRefused_ks_objs (s : State) (p : Part) (v : View) (a : Nat) : (s.viewRefused p v a).ks.objs = s.ks.objs := by unfold State.viewRefused; split <;> simp
@[simp] theorem State.viewRefused_ks_heldTakes (s : State) (p : Part) (v : View) (a : Nat) : (s.viewRefused p v a).ks.heldTakes = s.ks.heldTakes := by unfold State.viewRefused; split <;> simp
@[simp] theorem State.viewRefused_ks_trackers (s : State) (p : Part) (v : View) (a : Nat) : (s.viewRefused p v a).ks.trackers = s.ks.trackers := by unfold State.viewRefused; split <;> simp
@[simp] theorem State.viewRefused_ks_sends (s : State) (p : Part) (v : View) (a : Nat) : (s.viewRefused p v a).ks.sends = s.ks.sends := by unfold State.viewRefused; split <;> simp
@[simp] theorem State.viewRefused_ks_writes (s : State) (p : Part) (v : View) (a : Nat) : (s.viewRefused p v a).ks.writes = s.ks.writes := by unfold State.viewRefused; split <;> simp
@[simp] theorem State.viewRefused_ks_takesDone (s : State) (p : Part) (v : View) (a : Nat) : (s.viewRefused p v a).ks.takesDone = s.ks.takesDone := by unfold State.viewRefused; split <;> simp
@[simp] theorem State.viewRefused_ks_mem (s : State) (p : Part) (v : View) (a : Nat) : (s.viewRefused p v a).ks.mem = s.ks.mem := by unfold State.viewRefused; split <;> simp
@[simp] theorem State.viewRefused_ks_ptpDiscard (s : State) (p : Part) (v : View) (a : Nat) : (s.viewRefused p v a).ks.ptpDiscard = s.ks.ptpDiscard := by unfold State.viewRefused; split <;> simp
@[simp] theorem State.viewRefused_ks_ppsDelay (s : State) (p : Part) (v : View) (a : Nat) : (s.viewRefused p v a).ks.ppsDelay = s.ks.ppsDelay := by unfold State.viewRefused; split <;> simp
@[simp] theorem State.viewRefused_ks_v2Waits (s : State) (p : Part) (v : View) (a : Nat) : (s.viewRefused p v a).ks.v2Waits = s.ks.v2Waits := by unfold State.viewRefused; split <;> simp
@[simp] theorem State.viewRefused_time (s : State) (p : Part) (v : View) (a : Nat) (q : Part) : ((s.viewRefused p v a).pc q).time = (s.pc q).time := by unfold State.viewRefused; split <;> simp
@[simp] theorem State.viewRefused_stamp (s : State) (p : Part) (v : View) (a : Nat) (q : Part) : ((s.viewRefused p v a).pc q).stamp = (s.pc q).stamp := by unfold State.viewRefused; split <;> simp
@[simp] theorem State.viewRefused_ctr (s : State) (p : Part) (v : View) (a : Nat) (q : Part) : ((s.viewRefused p v a).pc q).ctr = (s.pc q).ctr := by unfold State.viewRefused; split <;> simp
@[simp] theorem State.viewRefused_fw (s : State) (p : Part) (v : View) (a : Nat) (q : Part) : ((s.viewRefused p v a).pc q).fw = (s.pc q).fw := by unfold State.viewRefused; split <;> simp
@[simp] theorem State.viewRefused_link (s : State) (p : Part) (v : View) (a : Nat) (q : Part) : ((s.viewRefused p v a).pc q).link = (s.pc q).link := by unfold State.viewRefused; split <;> simp
@[simp] theorem State.viewRefused_highs (s : State) (p : Part) (v : View) (a : Nat) (q : Part) : ((s.viewRefused p v a).pc q).highs = (s.pc q).highs := by unfold State.viewRefused; split <;> simp
@[simp] theorem State.sample_bx_straps (s : State) (p : Part) (ev : Nat) (d : Int) (port ten dom cls : Option Nat) : (s.sample p ev d port ten dom cls).bx.straps = s.bx.straps := by simp [State.sample]
@[simp] theorem State.sample_bx_refclkLost (s : State) (p : Part) (ev : Nat) (d : Int) (port ten dom cls : Option Nat) : (s.sample p ev d port ten dom cls).bx.refclkLost = s.bx.refclkLost := by simp [State.sample]
@[simp] theorem State.sample_bx_fenced (s : State) (p : Part) (ev : Nat) (d : Int) (port ten dom cls : Option Nat) : (s.sample p ev d port ten dom cls).bx.fenced = s.bx.fenced := by simp [State.sample]
@[simp] theorem State.sample_bx_fenceSeq (s : State) (p : Part) (ev : Nat) (d : Int) (port ten dom cls : Option Nat) : (s.sample p ev d port ten dom cls).bx.fenceSeq = s.bx.fenceSeq := by simp [State.sample]
@[simp] theorem State.sample_bx_prior (s : State) (p : Part) (ev : Nat) (d : Int) (port ten dom cls : Option Nat) : (s.sample p ev d port ten dom cls).bx.prior = s.bx.prior := by simp [State.sample]
@[simp] theorem State.sample_bx_reportSeq (s : State) (p : Part) (ev : Nat) (d : Int) (port ten dom cls : Option Nat) : (s.sample p ev d port ten dom cls).bx.reportSeq = s.bx.reportSeq := by simp [State.sample]
@[simp] theorem State.sample_bx_tenants (s : State) (p : Part) (ev : Nat) (d : Int) (port ten dom cls : Option Nat) : (s.sample p ev d port ten dom cls).bx.tenants = s.bx.tenants := by simp [State.sample]
@[simp] theorem State.sample_bx_slots (s : State) (p : Part) (ev : Nat) (d : Int) (port ten dom cls : Option Nat) : (s.sample p ev d port ten dom cls).bx.slots = s.bx.slots := by simp [State.sample]
@[simp] theorem State.sample_bx_objs (s : State) (p : Part) (ev : Nat) (d : Int) (port ten dom cls : Option Nat) : (s.sample p ev d port ten dom cls).bx.objs = s.bx.objs := by simp [State.sample]
@[simp] theorem State.sample_bx_heldTakes (s : State) (p : Part) (ev : Nat) (d : Int) (port ten dom cls : Option Nat) : (s.sample p ev d port ten dom cls).bx.heldTakes = s.bx.heldTakes := by simp [State.sample]
@[simp] theorem State.sample_bx_trackers (s : State) (p : Part) (ev : Nat) (d : Int) (port ten dom cls : Option Nat) : (s.sample p ev d port ten dom cls).bx.trackers = s.bx.trackers := by simp [State.sample]
@[simp] theorem State.sample_bx_sends (s : State) (p : Part) (ev : Nat) (d : Int) (port ten dom cls : Option Nat) : (s.sample p ev d port ten dom cls).bx.sends = s.bx.sends := by simp [State.sample]
@[simp] theorem State.sample_bx_writes (s : State) (p : Part) (ev : Nat) (d : Int) (port ten dom cls : Option Nat) : (s.sample p ev d port ten dom cls).bx.writes = s.bx.writes := by simp [State.sample]
@[simp] theorem State.sample_bx_reads (s : State) (p : Part) (ev : Nat) (d : Int) (port ten dom cls : Option Nat) : (s.sample p ev d port ten dom cls).bx.reads = s.bx.reads := by simp [State.sample]
@[simp] theorem State.sample_bx_v2Waits (s : State) (p : Part) (ev : Nat) (d : Int) (port ten dom cls : Option Nat) : (s.sample p ev d port ten dom cls).bx.v2Waits = s.bx.v2Waits := by simp [State.sample]
@[simp] theorem State.sample_bx_waitSends (s : State) (p : Part) (ev : Nat) (d : Int) (port ten dom cls : Option Nat) : (s.sample p ev d port ten dom cls).bx.waitSends = s.bx.waitSends := by simp [State.sample]
@[simp] theorem State.sample_bx_parts (s : State) (p : Part) (ev : Nat) (d : Int) (port ten dom cls : Option Nat) : (s.sample p ev d port ten dom cls).bx.parts = s.bx.parts := by simp [State.sample]
@[simp] theorem State.sample_bx_nextPart (s : State) (p : Part) (ev : Nat) (d : Int) (port ten dom cls : Option Nat) : (s.sample p ev d port ten dom cls).bx.nextPart = s.bx.nextPart := by simp [State.sample]
@[simp] theorem State.sample_bx_readJobs (s : State) (p : Part) (ev : Nat) (d : Int) (port ten dom cls : Option Nat) : (s.sample p ev d port ten dom cls).bx.readJobs = s.bx.readJobs := by simp [State.sample]
@[simp] theorem State.sample_bx_nextJob (s : State) (p : Part) (ev : Nat) (d : Int) (port ten dom cls : Option Nat) : (s.sample p ev d port ten dom cls).bx.nextJob = s.bx.nextJob := by simp [State.sample]
@[simp] theorem State.sample_bx_bases (s : State) (p : Part) (ev : Nat) (d : Int) (port ten dom cls : Option Nat) : (s.sample p ev d port ten dom cls).bx.bases = s.bx.bases := by simp [State.sample]
@[simp] theorem State.sample_ks_build (s : State) (p : Part) (ev : Nat) (d : Int) (port ten dom cls : Option Nat) : (s.sample p ev d port ten dom cls).ks.build = s.ks.build := by simp [State.sample]
@[simp] theorem State.sample_ks_lostPlanes (s : State) (p : Part) (ev : Nat) (d : Int) (port ten dom cls : Option Nat) : (s.sample p ev d port ten dom cls).ks.lostPlanes = s.ks.lostPlanes := by simp [State.sample]
@[simp] theorem State.sample_ks_fences (s : State) (p : Part) (ev : Nat) (d : Int) (port ten dom cls : Option Nat) : (s.sample p ev d port ten dom cls).ks.fences = s.ks.fences := by simp [State.sample]
@[simp] theorem State.sample_ks_strapFb (s : State) (p : Part) (ev : Nat) (d : Int) (port ten dom cls : Option Nat) : (s.sample p ev d port ten dom cls).ks.strapFb = s.ks.strapFb := by simp [State.sample]
@[simp] theorem State.sample_ks_pcieEn (s : State) (p : Part) (ev : Nat) (d : Int) (port ten dom cls : Option Nat) : (s.sample p ev d port ten dom cls).ks.pcieEn = s.ks.pcieEn := by simp [State.sample]
@[simp] theorem State.sample_ks_pins (s : State) (p : Part) (ev : Nat) (d : Int) (port ten dom cls : Option Nat) : (s.sample p ev d port ten dom cls).ks.pins = s.ks.pins := by simp [State.sample]
@[simp] theorem State.sample_ks_tripped (s : State) (p : Part) (ev : Nat) (d : Int) (port ten dom cls : Option Nat) : (s.sample p ev d port ten dom cls).ks.tripped = s.ks.tripped := by simp [State.sample]
@[simp] theorem State.sample_ks_memFailed (s : State) (p : Part) (ev : Nat) (d : Int) (port ten dom cls : Option Nat) : (s.sample p ev d port ten dom cls).ks.memFailed = s.ks.memFailed := by simp [State.sample]
@[simp] theorem State.sample_ks_memErrors (s : State) (p : Part) (ev : Nat) (d : Int) (port ten dom cls : Option Nat) : (s.sample p ev d port ten dom cls).ks.memErrors = s.ks.memErrors := by simp [State.sample]
@[simp] theorem State.sample_ks_brimFailed (s : State) (p : Part) (ev : Nat) (d : Int) (port ten dom cls : Option Nat) : (s.sample p ev d port ten dom cls).ks.brimFailed = s.ks.brimFailed := by simp [State.sample]
@[simp] theorem State.sample_ks_coolantSince (s : State) (p : Part) (ev : Nat) (d : Int) (port ten dom cls : Option Nat) : (s.sample p ev d port ten dom cls).ks.coolantSince = s.ks.coolantSince := by simp [State.sample]
@[simp] theorem State.sample_ks_coolantTold (s : State) (p : Part) (ev : Nat) (d : Int) (port ten dom cls : Option Nat) : (s.sample p ev d port ten dom cls).ks.coolantTold = s.ks.coolantTold := by simp [State.sample]
@[simp] theorem State.sample_ks_lastCoolant (s : State) (p : Part) (ev : Nat) (d : Int) (port ten dom cls : Option Nat) : (s.sample p ev d port ten dom cls).ks.lastCoolant = s.ks.lastCoolant := by simp [State.sample]
@[simp] theorem State.sample_ks_lastThrottle (s : State) (p : Part) (ev : Nat) (d : Int) (port ten dom cls : Option Nat) : (s.sample p ev d port ten dom cls).ks.lastThrottle = s.ks.lastThrottle := by simp [State.sample]
@[simp] theorem State.sample_ks_lastAlive (s : State) (p : Part) (ev : Nat) (d : Int) (port ten dom cls : Option Nat) : (s.sample p ev d port ten dom cls).ks.lastAlive = s.ks.lastAlive := by simp [State.sample]
@[simp] theorem State.sample_ks_lastResend (s : State) (p : Part) (ev : Nat) (d : Int) (port ten dom cls : Option Nat) : (s.sample p ev d port ten dom cls).ks.lastResend = s.ks.lastResend := by simp [State.sample]
@[simp] theorem State.sample_ks_events (s : State) (p : Part) (ev : Nat) (d : Int) (port ten dom cls : Option Nat) : (s.sample p ev d port ten dom cls).ks.events = s.ks.events := by simp [State.sample]
@[simp] theorem State.sample_ks_evtDropped (s : State) (p : Part) (ev : Nat) (d : Int) (port ten dom cls : Option Nat) : (s.sample p ev d port ten dom cls).ks.evtDropped = s.ks.evtDropped := by simp [State.sample]
@[simp] theorem State.sample_ks_admitted (s : State) (p : Part) (ev : Nat) (d : Int) (port ten dom cls : Option Nat) : (s.sample p ev d port ten dom cls).ks.admitted = s.ks.admitted := by simp [State.sample]
@[simp] theorem State.sample_ks_aliveTold (s : State) (p : Part) (ev : Nat) (d : Int) (port ten dom cls : Option Nat) : (s.sample p ev d port ten dom cls).ks.aliveTold = s.ks.aliveTold := by simp [State.sample]
@[simp] theorem State.sample_ks_doms (s : State) (p : Part) (ev : Nat) (d : Int) (port ten dom cls : Option Nat) : (s.sample p ev d port ten dom cls).ks.doms = s.ks.doms := by simp [State.sample]
@[simp] theorem State.sample_ks_leafRecs (s : State) (p : Part) (ev : Nat) (d : Int) (port ten dom cls : Option Nat) : (s.sample p ev d port ten dom cls).ks.leafRecs = s.ks.leafRecs := by simp [State.sample]
@[simp] theorem State.sample_ks_chunks (s : State) (p : Part) (ev : Nat) (d : Int) (port ten dom cls : Option Nat) : (s.sample p ev d port ten dom cls).ks.chunks = s.ks.chunks := by simp [State.sample]
@[simp] theorem State.sample_ks_kept (s : State) (p : Part) (ev : Nat) (d : Int) (port ten dom cls : Option Nat) : (s.sample p ev d port ten dom cls).ks.kept = s.ks.kept := by simp [State.sample]
@[simp] theorem State.sample_ks_shards (s : State) (p : Part) (ev : Nat) (d : Int) (port ten dom cls : Option Nat) : (s.sample p ev d port ten dom cls).ks.shards = s.ks.shards := by simp [State.sample]
@[simp] theorem State.sample_ks_blockQ (s : State) (p : Part) (ev : Nat) (d : Int) (port ten dom cls : Option Nat) : (s.sample p ev d port ten dom cls).ks.blockQ = s.ks.blockQ := by simp [State.sample]
@[simp] theorem State.sample_ks_jobs (s : State) (p : Part) (ev : Nat) (d : Int) (port ten dom cls : Option Nat) : (s.sample p ev d port ten dom cls).ks.jobs = s.ks.jobs := by simp [State.sample]
@[simp] theorem State.sample_ks_waitJobs (s : State) (p : Part) (ev : Nat) (d : Int) (port ten dom cls : Option Nat) : (s.sample p ev d port ten dom cls).ks.waitJobs = s.ks.waitJobs := by simp [State.sample]
@[simp] theorem State.sample_ks_windows (s : State) (p : Part) (ev : Nat) (d : Int) (port ten dom cls : Option Nat) : (s.sample p ev d port ten dom cls).ks.windows = s.ks.windows := by simp [State.sample]
@[simp] theorem State.sample_ks_bases (s : State) (p : Part) (ev : Nat) (d : Int) (port ten dom cls : Option Nat) : (s.sample p ev d port ten dom cls).ks.bases = s.ks.bases := by simp [State.sample]
@[simp] theorem State.sample_ks_staged (s : State) (p : Part) (ev : Nat) (d : Int) (port ten dom cls : Option Nat) : (s.sample p ev d port ten dom cls).ks.staged = s.ks.staged := by simp [State.sample]
@[simp] theorem State.sample_ks_ckpts (s : State) (p : Part) (ev : Nat) (d : Int) (port ten dom cls : Option Nat) : (s.sample p ev d port ten dom cls).ks.ckpts = s.ks.ckpts := by simp [State.sample]
@[simp] theorem State.sample_ks_fills (s : State) (p : Part) (ev : Nat) (d : Int) (port ten dom cls : Option Nat) : (s.sample p ev d port ten dom cls).ks.fills = s.ks.fills := by simp [State.sample]
@[simp] theorem State.sample_ks_cupChecks (s : State) (p : Part) (ev : Nat) (d : Int) (port ten dom cls : Option Nat) : (s.sample p ev d port ten dom cls).ks.cupChecks = s.ks.cupChecks := by simp [State.sample]
@[simp] theorem State.sample_ks_shardReads (s : State) (p : Part) (ev : Nat) (d : Int) (port ten dom cls : Option Nat) : (s.sample p ev d port ten dom cls).ks.shardReads = s.ks.shardReads := by simp [State.sample]
@[simp] theorem State.sample_ks_grants (s : State) (p : Part) (ev : Nat) (d : Int) (port ten dom cls : Option Nat) : (s.sample p ev d port ten dom cls).ks.grants = s.ks.grants := by simp [State.sample]
@[simp] theorem State.sample_ks_dspLeaves (s : State) (p : Part) (ev : Nat) (d : Int) (port ten dom cls : Option Nat) : (s.sample p ev d port ten dom cls).ks.dspLeaves = s.ks.dspLeaves := by simp [State.sample]
@[simp] theorem State.sample_ks_dspHomes (s : State) (p : Part) (ev : Nat) (d : Int) (port ten dom cls : Option Nat) : (s.sample p ev d port ten dom cls).ks.dspHomes = s.ks.dspHomes := by simp [State.sample]
@[simp] theorem State.sample_ks_dspEngine (s : State) (p : Part) (ev : Nat) (d : Int) (port ten dom cls : Option Nat) : (s.sample p ev d port ten dom cls).ks.dspEngine = s.ks.dspEngine := by simp [State.sample]
@[simp] theorem State.sample_ks_dspQ (s : State) (p : Part) (ev : Nat) (d : Int) (port ten dom cls : Option Nat) : (s.sample p ev d port ten dom cls).ks.dspQ = s.ks.dspQ := by simp [State.sample]
@[simp] theorem State.sample_ks_tieReroute (s : State) (p : Part) (ev : Nat) (d : Int) (port ten dom cls : Option Nat) : (s.sample p ev d port ten dom cls).ks.tieReroute = s.ks.tieReroute := by simp [State.sample]
@[simp] theorem State.sample_ks_objs (s : State) (p : Part) (ev : Nat) (d : Int) (port ten dom cls : Option Nat) : (s.sample p ev d port ten dom cls).ks.objs = s.ks.objs := by simp [State.sample]
@[simp] theorem State.sample_ks_heldTakes (s : State) (p : Part) (ev : Nat) (d : Int) (port ten dom cls : Option Nat) : (s.sample p ev d port ten dom cls).ks.heldTakes = s.ks.heldTakes := by simp [State.sample]
@[simp] theorem State.sample_ks_trackers (s : State) (p : Part) (ev : Nat) (d : Int) (port ten dom cls : Option Nat) : (s.sample p ev d port ten dom cls).ks.trackers = s.ks.trackers := by simp [State.sample]
@[simp] theorem State.sample_ks_sends (s : State) (p : Part) (ev : Nat) (d : Int) (port ten dom cls : Option Nat) : (s.sample p ev d port ten dom cls).ks.sends = s.ks.sends := by simp [State.sample]
@[simp] theorem State.sample_ks_writes (s : State) (p : Part) (ev : Nat) (d : Int) (port ten dom cls : Option Nat) : (s.sample p ev d port ten dom cls).ks.writes = s.ks.writes := by simp [State.sample]
@[simp] theorem State.sample_ks_takesDone (s : State) (p : Part) (ev : Nat) (d : Int) (port ten dom cls : Option Nat) : (s.sample p ev d port ten dom cls).ks.takesDone = s.ks.takesDone := by simp [State.sample]
@[simp] theorem State.sample_ks_mem (s : State) (p : Part) (ev : Nat) (d : Int) (port ten dom cls : Option Nat) : (s.sample p ev d port ten dom cls).ks.mem = s.ks.mem := by simp [State.sample]
@[simp] theorem State.sample_ks_ptpDiscard (s : State) (p : Part) (ev : Nat) (d : Int) (port ten dom cls : Option Nat) : (s.sample p ev d port ten dom cls).ks.ptpDiscard = s.ks.ptpDiscard := by simp [State.sample]
@[simp] theorem State.sample_ks_ppsDelay (s : State) (p : Part) (ev : Nat) (d : Int) (port ten dom cls : Option Nat) : (s.sample p ev d port ten dom cls).ks.ppsDelay = s.ks.ppsDelay := by simp [State.sample]
@[simp] theorem State.sample_ks_v2Waits (s : State) (p : Part) (ev : Nat) (d : Int) (port ten dom cls : Option Nat) : (s.sample p ev d port ten dom cls).ks.v2Waits = s.ks.v2Waits := by simp [State.sample]
@[simp] theorem State.sample_time (s : State) (p : Part) (ev : Nat) (d : Int) (port ten dom cls : Option Nat) (q : Part) : ((s.sample p ev d port ten dom cls).pc q).time = (s.pc q).time := by unfold State.sample; unfold State.modCtr; cases p <;> cases q <;> rfl
@[simp] theorem State.sample_stamp (s : State) (p : Part) (ev : Nat) (d : Int) (port ten dom cls : Option Nat) (q : Part) : ((s.sample p ev d port ten dom cls).pc q).stamp = (s.pc q).stamp := by unfold State.sample; unfold State.modCtr; cases p <;> cases q <;> rfl
@[simp] theorem State.sample_fw (s : State) (p : Part) (ev : Nat) (d : Int) (port ten dom cls : Option Nat) (q : Part) : ((s.sample p ev d port ten dom cls).pc q).fw = (s.pc q).fw := by unfold State.sample; unfold State.modCtr; cases p <;> cases q <;> rfl
@[simp] theorem State.sample_link (s : State) (p : Part) (ev : Nat) (d : Int) (port ten dom cls : Option Nat) (q : Part) : ((s.sample p ev d port ten dom cls).pc q).link = (s.pc q).link := by unfold State.sample; unfold State.modCtr; cases p <;> cases q <;> rfl
@[simp] theorem State.sample_highs (s : State) (p : Part) (ev : Nat) (d : Int) (port ten dom cls : Option Nat) (q : Part) : ((s.sample p ev d port ten dom cls).pc q).highs = (s.pc q).highs := by unfold State.sample; unfold State.modCtr; cases p <;> cases q <;> rfl
@[simp] theorem State.modMslot_bx_straps (s : State) (p : Part) (m k : Nat) (g : MSlot → MSlot) : (s.modMslot p m k g).bx.straps = s.bx.straps := by cases p <;> rfl
@[simp] theorem State.modMslot_bx_refclkLost (s : State) (p : Part) (m k : Nat) (g : MSlot → MSlot) : (s.modMslot p m k g).bx.refclkLost = s.bx.refclkLost := by cases p <;> rfl
@[simp] theorem State.modMslot_bx_fenced (s : State) (p : Part) (m k : Nat) (g : MSlot → MSlot) : (s.modMslot p m k g).bx.fenced = s.bx.fenced := by cases p <;> rfl
@[simp] theorem State.modMslot_bx_fenceSeq (s : State) (p : Part) (m k : Nat) (g : MSlot → MSlot) : (s.modMslot p m k g).bx.fenceSeq = s.bx.fenceSeq := by cases p <;> rfl
@[simp] theorem State.modMslot_bx_prior (s : State) (p : Part) (m k : Nat) (g : MSlot → MSlot) : (s.modMslot p m k g).bx.prior = s.bx.prior := by cases p <;> rfl
@[simp] theorem State.modMslot_bx_reportSeq (s : State) (p : Part) (m k : Nat) (g : MSlot → MSlot) : (s.modMslot p m k g).bx.reportSeq = s.bx.reportSeq := by cases p <;> rfl
@[simp] theorem State.modMslot_bx_tenants (s : State) (p : Part) (m k : Nat) (g : MSlot → MSlot) : (s.modMslot p m k g).bx.tenants = s.bx.tenants := by cases p <;> rfl
@[simp] theorem State.modMslot_bx_slots (s : State) (p : Part) (m k : Nat) (g : MSlot → MSlot) : (s.modMslot p m k g).bx.slots = s.bx.slots := by cases p <;> rfl
@[simp] theorem State.modMslot_bx_objs (s : State) (p : Part) (m k : Nat) (g : MSlot → MSlot) : (s.modMslot p m k g).bx.objs = s.bx.objs := by cases p <;> rfl
@[simp] theorem State.modMslot_bx_heldTakes (s : State) (p : Part) (m k : Nat) (g : MSlot → MSlot) : (s.modMslot p m k g).bx.heldTakes = s.bx.heldTakes := by cases p <;> rfl
@[simp] theorem State.modMslot_bx_trackers (s : State) (p : Part) (m k : Nat) (g : MSlot → MSlot) : (s.modMslot p m k g).bx.trackers = s.bx.trackers := by cases p <;> rfl
@[simp] theorem State.modMslot_bx_sends (s : State) (p : Part) (m k : Nat) (g : MSlot → MSlot) : (s.modMslot p m k g).bx.sends = s.bx.sends := by cases p <;> rfl
@[simp] theorem State.modMslot_bx_writes (s : State) (p : Part) (m k : Nat) (g : MSlot → MSlot) : (s.modMslot p m k g).bx.writes = s.bx.writes := by cases p <;> rfl
@[simp] theorem State.modMslot_bx_reads (s : State) (p : Part) (m k : Nat) (g : MSlot → MSlot) : (s.modMslot p m k g).bx.reads = s.bx.reads := by cases p <;> rfl
@[simp] theorem State.modMslot_bx_v2Waits (s : State) (p : Part) (m k : Nat) (g : MSlot → MSlot) : (s.modMslot p m k g).bx.v2Waits = s.bx.v2Waits := by cases p <;> rfl
@[simp] theorem State.modMslot_bx_waitSends (s : State) (p : Part) (m k : Nat) (g : MSlot → MSlot) : (s.modMslot p m k g).bx.waitSends = s.bx.waitSends := by cases p <;> rfl
@[simp] theorem State.modMslot_bx_parts (s : State) (p : Part) (m k : Nat) (g : MSlot → MSlot) : (s.modMslot p m k g).bx.parts = s.bx.parts := by cases p <;> rfl
@[simp] theorem State.modMslot_bx_nextPart (s : State) (p : Part) (m k : Nat) (g : MSlot → MSlot) : (s.modMslot p m k g).bx.nextPart = s.bx.nextPart := by cases p <;> rfl
@[simp] theorem State.modMslot_bx_readJobs (s : State) (p : Part) (m k : Nat) (g : MSlot → MSlot) : (s.modMslot p m k g).bx.readJobs = s.bx.readJobs := by cases p <;> rfl
@[simp] theorem State.modMslot_bx_nextJob (s : State) (p : Part) (m k : Nat) (g : MSlot → MSlot) : (s.modMslot p m k g).bx.nextJob = s.bx.nextJob := by cases p <;> rfl
@[simp] theorem State.modMslot_bx_bases (s : State) (p : Part) (m k : Nat) (g : MSlot → MSlot) : (s.modMslot p m k g).bx.bases = s.bx.bases := by cases p <;> rfl
@[simp] theorem State.modMslot_ks_build (s : State) (p : Part) (m k : Nat) (g : MSlot → MSlot) : (s.modMslot p m k g).ks.build = s.ks.build := by cases p <;> rfl
@[simp] theorem State.modMslot_ks_lostPlanes (s : State) (p : Part) (m k : Nat) (g : MSlot → MSlot) : (s.modMslot p m k g).ks.lostPlanes = s.ks.lostPlanes := by cases p <;> rfl
@[simp] theorem State.modMslot_ks_fences (s : State) (p : Part) (m k : Nat) (g : MSlot → MSlot) : (s.modMslot p m k g).ks.fences = s.ks.fences := by cases p <;> rfl
@[simp] theorem State.modMslot_ks_strapFb (s : State) (p : Part) (m k : Nat) (g : MSlot → MSlot) : (s.modMslot p m k g).ks.strapFb = s.ks.strapFb := by cases p <;> rfl
@[simp] theorem State.modMslot_ks_pcieEn (s : State) (p : Part) (m k : Nat) (g : MSlot → MSlot) : (s.modMslot p m k g).ks.pcieEn = s.ks.pcieEn := by cases p <;> rfl
@[simp] theorem State.modMslot_ks_pins (s : State) (p : Part) (m k : Nat) (g : MSlot → MSlot) : (s.modMslot p m k g).ks.pins = s.ks.pins := by cases p <;> rfl
@[simp] theorem State.modMslot_ks_tripped (s : State) (p : Part) (m k : Nat) (g : MSlot → MSlot) : (s.modMslot p m k g).ks.tripped = s.ks.tripped := by cases p <;> rfl
@[simp] theorem State.modMslot_ks_memFailed (s : State) (p : Part) (m k : Nat) (g : MSlot → MSlot) : (s.modMslot p m k g).ks.memFailed = s.ks.memFailed := by cases p <;> rfl
@[simp] theorem State.modMslot_ks_memErrors (s : State) (p : Part) (m k : Nat) (g : MSlot → MSlot) : (s.modMslot p m k g).ks.memErrors = s.ks.memErrors := by cases p <;> rfl
@[simp] theorem State.modMslot_ks_brimFailed (s : State) (p : Part) (m k : Nat) (g : MSlot → MSlot) : (s.modMslot p m k g).ks.brimFailed = s.ks.brimFailed := by cases p <;> rfl
@[simp] theorem State.modMslot_ks_coolantSince (s : State) (p : Part) (m k : Nat) (g : MSlot → MSlot) : (s.modMslot p m k g).ks.coolantSince = s.ks.coolantSince := by cases p <;> rfl
@[simp] theorem State.modMslot_ks_coolantTold (s : State) (p : Part) (m k : Nat) (g : MSlot → MSlot) : (s.modMslot p m k g).ks.coolantTold = s.ks.coolantTold := by cases p <;> rfl
@[simp] theorem State.modMslot_ks_lastCoolant (s : State) (p : Part) (m k : Nat) (g : MSlot → MSlot) : (s.modMslot p m k g).ks.lastCoolant = s.ks.lastCoolant := by cases p <;> rfl
@[simp] theorem State.modMslot_ks_lastThrottle (s : State) (p : Part) (m k : Nat) (g : MSlot → MSlot) : (s.modMslot p m k g).ks.lastThrottle = s.ks.lastThrottle := by cases p <;> rfl
@[simp] theorem State.modMslot_ks_lastAlive (s : State) (p : Part) (m k : Nat) (g : MSlot → MSlot) : (s.modMslot p m k g).ks.lastAlive = s.ks.lastAlive := by cases p <;> rfl
@[simp] theorem State.modMslot_ks_lastResend (s : State) (p : Part) (m k : Nat) (g : MSlot → MSlot) : (s.modMslot p m k g).ks.lastResend = s.ks.lastResend := by cases p <;> rfl
@[simp] theorem State.modMslot_ks_events (s : State) (p : Part) (m k : Nat) (g : MSlot → MSlot) : (s.modMslot p m k g).ks.events = s.ks.events := by cases p <;> rfl
@[simp] theorem State.modMslot_ks_evtDropped (s : State) (p : Part) (m k : Nat) (g : MSlot → MSlot) : (s.modMslot p m k g).ks.evtDropped = s.ks.evtDropped := by cases p <;> rfl
@[simp] theorem State.modMslot_ks_admitted (s : State) (p : Part) (m k : Nat) (g : MSlot → MSlot) : (s.modMslot p m k g).ks.admitted = s.ks.admitted := by cases p <;> rfl
@[simp] theorem State.modMslot_ks_aliveTold (s : State) (p : Part) (m k : Nat) (g : MSlot → MSlot) : (s.modMslot p m k g).ks.aliveTold = s.ks.aliveTold := by cases p <;> rfl
@[simp] theorem State.modMslot_ks_doms (s : State) (p : Part) (m k : Nat) (g : MSlot → MSlot) : (s.modMslot p m k g).ks.doms = s.ks.doms := by cases p <;> rfl
@[simp] theorem State.modMslot_ks_leafRecs (s : State) (p : Part) (m k : Nat) (g : MSlot → MSlot) : (s.modMslot p m k g).ks.leafRecs = s.ks.leafRecs := by cases p <;> rfl
@[simp] theorem State.modMslot_ks_chunks (s : State) (p : Part) (m k : Nat) (g : MSlot → MSlot) : (s.modMslot p m k g).ks.chunks = s.ks.chunks := by cases p <;> rfl
@[simp] theorem State.modMslot_ks_kept (s : State) (p : Part) (m k : Nat) (g : MSlot → MSlot) : (s.modMslot p m k g).ks.kept = s.ks.kept := by cases p <;> rfl
@[simp] theorem State.modMslot_ks_shards (s : State) (p : Part) (m k : Nat) (g : MSlot → MSlot) : (s.modMslot p m k g).ks.shards = s.ks.shards := by cases p <;> rfl
@[simp] theorem State.modMslot_ks_blockQ (s : State) (p : Part) (m k : Nat) (g : MSlot → MSlot) : (s.modMslot p m k g).ks.blockQ = s.ks.blockQ := by cases p <;> rfl
@[simp] theorem State.modMslot_ks_jobs (s : State) (p : Part) (m k : Nat) (g : MSlot → MSlot) : (s.modMslot p m k g).ks.jobs = s.ks.jobs := by cases p <;> rfl
@[simp] theorem State.modMslot_ks_waitJobs (s : State) (p : Part) (m k : Nat) (g : MSlot → MSlot) : (s.modMslot p m k g).ks.waitJobs = s.ks.waitJobs := by cases p <;> rfl
@[simp] theorem State.modMslot_ks_windows (s : State) (p : Part) (m k : Nat) (g : MSlot → MSlot) : (s.modMslot p m k g).ks.windows = s.ks.windows := by cases p <;> rfl
@[simp] theorem State.modMslot_ks_bases (s : State) (p : Part) (m k : Nat) (g : MSlot → MSlot) : (s.modMslot p m k g).ks.bases = s.ks.bases := by cases p <;> rfl
@[simp] theorem State.modMslot_ks_staged (s : State) (p : Part) (m k : Nat) (g : MSlot → MSlot) : (s.modMslot p m k g).ks.staged = s.ks.staged := by cases p <;> rfl
@[simp] theorem State.modMslot_ks_ckpts (s : State) (p : Part) (m k : Nat) (g : MSlot → MSlot) : (s.modMslot p m k g).ks.ckpts = s.ks.ckpts := by cases p <;> rfl
@[simp] theorem State.modMslot_ks_fills (s : State) (p : Part) (m k : Nat) (g : MSlot → MSlot) : (s.modMslot p m k g).ks.fills = s.ks.fills := by cases p <;> rfl
@[simp] theorem State.modMslot_ks_cupChecks (s : State) (p : Part) (m k : Nat) (g : MSlot → MSlot) : (s.modMslot p m k g).ks.cupChecks = s.ks.cupChecks := by cases p <;> rfl
@[simp] theorem State.modMslot_ks_shardReads (s : State) (p : Part) (m k : Nat) (g : MSlot → MSlot) : (s.modMslot p m k g).ks.shardReads = s.ks.shardReads := by cases p <;> rfl
@[simp] theorem State.modMslot_ks_grants (s : State) (p : Part) (m k : Nat) (g : MSlot → MSlot) : (s.modMslot p m k g).ks.grants = s.ks.grants := by cases p <;> rfl
@[simp] theorem State.modMslot_ks_dspLeaves (s : State) (p : Part) (m k : Nat) (g : MSlot → MSlot) : (s.modMslot p m k g).ks.dspLeaves = s.ks.dspLeaves := by cases p <;> rfl
@[simp] theorem State.modMslot_ks_dspHomes (s : State) (p : Part) (m k : Nat) (g : MSlot → MSlot) : (s.modMslot p m k g).ks.dspHomes = s.ks.dspHomes := by cases p <;> rfl
@[simp] theorem State.modMslot_ks_dspEngine (s : State) (p : Part) (m k : Nat) (g : MSlot → MSlot) : (s.modMslot p m k g).ks.dspEngine = s.ks.dspEngine := by cases p <;> rfl
@[simp] theorem State.modMslot_ks_dspQ (s : State) (p : Part) (m k : Nat) (g : MSlot → MSlot) : (s.modMslot p m k g).ks.dspQ = s.ks.dspQ := by cases p <;> rfl
@[simp] theorem State.modMslot_ks_tieReroute (s : State) (p : Part) (m k : Nat) (g : MSlot → MSlot) : (s.modMslot p m k g).ks.tieReroute = s.ks.tieReroute := by cases p <;> rfl
@[simp] theorem State.modMslot_ks_objs (s : State) (p : Part) (m k : Nat) (g : MSlot → MSlot) : (s.modMslot p m k g).ks.objs = s.ks.objs := by cases p <;> rfl
@[simp] theorem State.modMslot_ks_heldTakes (s : State) (p : Part) (m k : Nat) (g : MSlot → MSlot) : (s.modMslot p m k g).ks.heldTakes = s.ks.heldTakes := by cases p <;> rfl
@[simp] theorem State.modMslot_ks_trackers (s : State) (p : Part) (m k : Nat) (g : MSlot → MSlot) : (s.modMslot p m k g).ks.trackers = s.ks.trackers := by cases p <;> rfl
@[simp] theorem State.modMslot_ks_sends (s : State) (p : Part) (m k : Nat) (g : MSlot → MSlot) : (s.modMslot p m k g).ks.sends = s.ks.sends := by cases p <;> rfl
@[simp] theorem State.modMslot_ks_writes (s : State) (p : Part) (m k : Nat) (g : MSlot → MSlot) : (s.modMslot p m k g).ks.writes = s.ks.writes := by cases p <;> rfl
@[simp] theorem State.modMslot_ks_takesDone (s : State) (p : Part) (m k : Nat) (g : MSlot → MSlot) : (s.modMslot p m k g).ks.takesDone = s.ks.takesDone := by cases p <;> rfl
@[simp] theorem State.modMslot_ks_mem (s : State) (p : Part) (m k : Nat) (g : MSlot → MSlot) : (s.modMslot p m k g).ks.mem = s.ks.mem := by cases p <;> rfl
@[simp] theorem State.modMslot_ks_ptpDiscard (s : State) (p : Part) (m k : Nat) (g : MSlot → MSlot) : (s.modMslot p m k g).ks.ptpDiscard = s.ks.ptpDiscard := by cases p <;> rfl
@[simp] theorem State.modMslot_ks_ppsDelay (s : State) (p : Part) (m k : Nat) (g : MSlot → MSlot) : (s.modMslot p m k g).ks.ppsDelay = s.ks.ppsDelay := by cases p <;> rfl
@[simp] theorem State.modMslot_ks_v2Waits (s : State) (p : Part) (m k : Nat) (g : MSlot → MSlot) : (s.modMslot p m k g).ks.v2Waits = s.ks.v2Waits := by cases p <;> rfl
@[simp] theorem State.modMslot_time (s : State) (p : Part) (m k : Nat) (g : MSlot → MSlot) (q : Part) : ((s.modMslot p m k g).pc q).time = (s.pc q).time := by cases p <;> cases q <;> rfl
@[simp] theorem State.modMslot_stamp (s : State) (p : Part) (m k : Nat) (g : MSlot → MSlot) (q : Part) : ((s.modMslot p m k g).pc q).stamp = (s.pc q).stamp := by cases p <;> cases q <;> rfl
@[simp] theorem State.modMslot_ctr (s : State) (p : Part) (m k : Nat) (g : MSlot → MSlot) (q : Part) : ((s.modMslot p m k g).pc q).ctr = (s.pc q).ctr := by cases p <;> cases q <;> rfl
@[simp] theorem State.modMslot_link (s : State) (p : Part) (m k : Nat) (g : MSlot → MSlot) (q : Part) : ((s.modMslot p m k g).pc q).link = (s.pc q).link := by cases p <;> cases q <;> rfl
@[simp] theorem State.modMslot_highs (s : State) (p : Part) (m k : Nat) (g : MSlot → MSlot) (q : Part) : ((s.modMslot p m k g).pc q).highs = (s.pc q).highs := by cases p <;> cases q <;> rfl
@[simp] theorem State.modMbox_bx_straps (s : State) (p : Part) (m : Nat) (g : Mailbox → Mailbox) : (s.modMbox p m g).bx.straps = s.bx.straps := by cases p <;> rfl
@[simp] theorem State.modMbox_bx_refclkLost (s : State) (p : Part) (m : Nat) (g : Mailbox → Mailbox) : (s.modMbox p m g).bx.refclkLost = s.bx.refclkLost := by cases p <;> rfl
@[simp] theorem State.modMbox_bx_fenced (s : State) (p : Part) (m : Nat) (g : Mailbox → Mailbox) : (s.modMbox p m g).bx.fenced = s.bx.fenced := by cases p <;> rfl
@[simp] theorem State.modMbox_bx_fenceSeq (s : State) (p : Part) (m : Nat) (g : Mailbox → Mailbox) : (s.modMbox p m g).bx.fenceSeq = s.bx.fenceSeq := by cases p <;> rfl
@[simp] theorem State.modMbox_bx_prior (s : State) (p : Part) (m : Nat) (g : Mailbox → Mailbox) : (s.modMbox p m g).bx.prior = s.bx.prior := by cases p <;> rfl
@[simp] theorem State.modMbox_bx_reportSeq (s : State) (p : Part) (m : Nat) (g : Mailbox → Mailbox) : (s.modMbox p m g).bx.reportSeq = s.bx.reportSeq := by cases p <;> rfl
@[simp] theorem State.modMbox_bx_tenants (s : State) (p : Part) (m : Nat) (g : Mailbox → Mailbox) : (s.modMbox p m g).bx.tenants = s.bx.tenants := by cases p <;> rfl
@[simp] theorem State.modMbox_bx_slots (s : State) (p : Part) (m : Nat) (g : Mailbox → Mailbox) : (s.modMbox p m g).bx.slots = s.bx.slots := by cases p <;> rfl
@[simp] theorem State.modMbox_bx_objs (s : State) (p : Part) (m : Nat) (g : Mailbox → Mailbox) : (s.modMbox p m g).bx.objs = s.bx.objs := by cases p <;> rfl
@[simp] theorem State.modMbox_bx_heldTakes (s : State) (p : Part) (m : Nat) (g : Mailbox → Mailbox) : (s.modMbox p m g).bx.heldTakes = s.bx.heldTakes := by cases p <;> rfl
@[simp] theorem State.modMbox_bx_trackers (s : State) (p : Part) (m : Nat) (g : Mailbox → Mailbox) : (s.modMbox p m g).bx.trackers = s.bx.trackers := by cases p <;> rfl
@[simp] theorem State.modMbox_bx_sends (s : State) (p : Part) (m : Nat) (g : Mailbox → Mailbox) : (s.modMbox p m g).bx.sends = s.bx.sends := by cases p <;> rfl
@[simp] theorem State.modMbox_bx_writes (s : State) (p : Part) (m : Nat) (g : Mailbox → Mailbox) : (s.modMbox p m g).bx.writes = s.bx.writes := by cases p <;> rfl
@[simp] theorem State.modMbox_bx_reads (s : State) (p : Part) (m : Nat) (g : Mailbox → Mailbox) : (s.modMbox p m g).bx.reads = s.bx.reads := by cases p <;> rfl
@[simp] theorem State.modMbox_bx_v2Waits (s : State) (p : Part) (m : Nat) (g : Mailbox → Mailbox) : (s.modMbox p m g).bx.v2Waits = s.bx.v2Waits := by cases p <;> rfl
@[simp] theorem State.modMbox_bx_waitSends (s : State) (p : Part) (m : Nat) (g : Mailbox → Mailbox) : (s.modMbox p m g).bx.waitSends = s.bx.waitSends := by cases p <;> rfl
@[simp] theorem State.modMbox_bx_parts (s : State) (p : Part) (m : Nat) (g : Mailbox → Mailbox) : (s.modMbox p m g).bx.parts = s.bx.parts := by cases p <;> rfl
@[simp] theorem State.modMbox_bx_nextPart (s : State) (p : Part) (m : Nat) (g : Mailbox → Mailbox) : (s.modMbox p m g).bx.nextPart = s.bx.nextPart := by cases p <;> rfl
@[simp] theorem State.modMbox_bx_readJobs (s : State) (p : Part) (m : Nat) (g : Mailbox → Mailbox) : (s.modMbox p m g).bx.readJobs = s.bx.readJobs := by cases p <;> rfl
@[simp] theorem State.modMbox_bx_nextJob (s : State) (p : Part) (m : Nat) (g : Mailbox → Mailbox) : (s.modMbox p m g).bx.nextJob = s.bx.nextJob := by cases p <;> rfl
@[simp] theorem State.modMbox_bx_bases (s : State) (p : Part) (m : Nat) (g : Mailbox → Mailbox) : (s.modMbox p m g).bx.bases = s.bx.bases := by cases p <;> rfl
@[simp] theorem State.modMbox_ks_build (s : State) (p : Part) (m : Nat) (g : Mailbox → Mailbox) : (s.modMbox p m g).ks.build = s.ks.build := by cases p <;> rfl
@[simp] theorem State.modMbox_ks_lostPlanes (s : State) (p : Part) (m : Nat) (g : Mailbox → Mailbox) : (s.modMbox p m g).ks.lostPlanes = s.ks.lostPlanes := by cases p <;> rfl
@[simp] theorem State.modMbox_ks_fences (s : State) (p : Part) (m : Nat) (g : Mailbox → Mailbox) : (s.modMbox p m g).ks.fences = s.ks.fences := by cases p <;> rfl
@[simp] theorem State.modMbox_ks_strapFb (s : State) (p : Part) (m : Nat) (g : Mailbox → Mailbox) : (s.modMbox p m g).ks.strapFb = s.ks.strapFb := by cases p <;> rfl
@[simp] theorem State.modMbox_ks_pcieEn (s : State) (p : Part) (m : Nat) (g : Mailbox → Mailbox) : (s.modMbox p m g).ks.pcieEn = s.ks.pcieEn := by cases p <;> rfl
@[simp] theorem State.modMbox_ks_pins (s : State) (p : Part) (m : Nat) (g : Mailbox → Mailbox) : (s.modMbox p m g).ks.pins = s.ks.pins := by cases p <;> rfl
@[simp] theorem State.modMbox_ks_tripped (s : State) (p : Part) (m : Nat) (g : Mailbox → Mailbox) : (s.modMbox p m g).ks.tripped = s.ks.tripped := by cases p <;> rfl
@[simp] theorem State.modMbox_ks_memFailed (s : State) (p : Part) (m : Nat) (g : Mailbox → Mailbox) : (s.modMbox p m g).ks.memFailed = s.ks.memFailed := by cases p <;> rfl
@[simp] theorem State.modMbox_ks_memErrors (s : State) (p : Part) (m : Nat) (g : Mailbox → Mailbox) : (s.modMbox p m g).ks.memErrors = s.ks.memErrors := by cases p <;> rfl
@[simp] theorem State.modMbox_ks_brimFailed (s : State) (p : Part) (m : Nat) (g : Mailbox → Mailbox) : (s.modMbox p m g).ks.brimFailed = s.ks.brimFailed := by cases p <;> rfl
@[simp] theorem State.modMbox_ks_coolantSince (s : State) (p : Part) (m : Nat) (g : Mailbox → Mailbox) : (s.modMbox p m g).ks.coolantSince = s.ks.coolantSince := by cases p <;> rfl
@[simp] theorem State.modMbox_ks_coolantTold (s : State) (p : Part) (m : Nat) (g : Mailbox → Mailbox) : (s.modMbox p m g).ks.coolantTold = s.ks.coolantTold := by cases p <;> rfl
@[simp] theorem State.modMbox_ks_lastCoolant (s : State) (p : Part) (m : Nat) (g : Mailbox → Mailbox) : (s.modMbox p m g).ks.lastCoolant = s.ks.lastCoolant := by cases p <;> rfl
@[simp] theorem State.modMbox_ks_lastThrottle (s : State) (p : Part) (m : Nat) (g : Mailbox → Mailbox) : (s.modMbox p m g).ks.lastThrottle = s.ks.lastThrottle := by cases p <;> rfl
@[simp] theorem State.modMbox_ks_lastAlive (s : State) (p : Part) (m : Nat) (g : Mailbox → Mailbox) : (s.modMbox p m g).ks.lastAlive = s.ks.lastAlive := by cases p <;> rfl
@[simp] theorem State.modMbox_ks_lastResend (s : State) (p : Part) (m : Nat) (g : Mailbox → Mailbox) : (s.modMbox p m g).ks.lastResend = s.ks.lastResend := by cases p <;> rfl
@[simp] theorem State.modMbox_ks_events (s : State) (p : Part) (m : Nat) (g : Mailbox → Mailbox) : (s.modMbox p m g).ks.events = s.ks.events := by cases p <;> rfl
@[simp] theorem State.modMbox_ks_evtDropped (s : State) (p : Part) (m : Nat) (g : Mailbox → Mailbox) : (s.modMbox p m g).ks.evtDropped = s.ks.evtDropped := by cases p <;> rfl
@[simp] theorem State.modMbox_ks_admitted (s : State) (p : Part) (m : Nat) (g : Mailbox → Mailbox) : (s.modMbox p m g).ks.admitted = s.ks.admitted := by cases p <;> rfl
@[simp] theorem State.modMbox_ks_aliveTold (s : State) (p : Part) (m : Nat) (g : Mailbox → Mailbox) : (s.modMbox p m g).ks.aliveTold = s.ks.aliveTold := by cases p <;> rfl
@[simp] theorem State.modMbox_ks_doms (s : State) (p : Part) (m : Nat) (g : Mailbox → Mailbox) : (s.modMbox p m g).ks.doms = s.ks.doms := by cases p <;> rfl
@[simp] theorem State.modMbox_ks_leafRecs (s : State) (p : Part) (m : Nat) (g : Mailbox → Mailbox) : (s.modMbox p m g).ks.leafRecs = s.ks.leafRecs := by cases p <;> rfl
@[simp] theorem State.modMbox_ks_chunks (s : State) (p : Part) (m : Nat) (g : Mailbox → Mailbox) : (s.modMbox p m g).ks.chunks = s.ks.chunks := by cases p <;> rfl
@[simp] theorem State.modMbox_ks_kept (s : State) (p : Part) (m : Nat) (g : Mailbox → Mailbox) : (s.modMbox p m g).ks.kept = s.ks.kept := by cases p <;> rfl
@[simp] theorem State.modMbox_ks_shards (s : State) (p : Part) (m : Nat) (g : Mailbox → Mailbox) : (s.modMbox p m g).ks.shards = s.ks.shards := by cases p <;> rfl
@[simp] theorem State.modMbox_ks_blockQ (s : State) (p : Part) (m : Nat) (g : Mailbox → Mailbox) : (s.modMbox p m g).ks.blockQ = s.ks.blockQ := by cases p <;> rfl
@[simp] theorem State.modMbox_ks_jobs (s : State) (p : Part) (m : Nat) (g : Mailbox → Mailbox) : (s.modMbox p m g).ks.jobs = s.ks.jobs := by cases p <;> rfl
@[simp] theorem State.modMbox_ks_waitJobs (s : State) (p : Part) (m : Nat) (g : Mailbox → Mailbox) : (s.modMbox p m g).ks.waitJobs = s.ks.waitJobs := by cases p <;> rfl
@[simp] theorem State.modMbox_ks_windows (s : State) (p : Part) (m : Nat) (g : Mailbox → Mailbox) : (s.modMbox p m g).ks.windows = s.ks.windows := by cases p <;> rfl
@[simp] theorem State.modMbox_ks_bases (s : State) (p : Part) (m : Nat) (g : Mailbox → Mailbox) : (s.modMbox p m g).ks.bases = s.ks.bases := by cases p <;> rfl
@[simp] theorem State.modMbox_ks_staged (s : State) (p : Part) (m : Nat) (g : Mailbox → Mailbox) : (s.modMbox p m g).ks.staged = s.ks.staged := by cases p <;> rfl
@[simp] theorem State.modMbox_ks_ckpts (s : State) (p : Part) (m : Nat) (g : Mailbox → Mailbox) : (s.modMbox p m g).ks.ckpts = s.ks.ckpts := by cases p <;> rfl
@[simp] theorem State.modMbox_ks_fills (s : State) (p : Part) (m : Nat) (g : Mailbox → Mailbox) : (s.modMbox p m g).ks.fills = s.ks.fills := by cases p <;> rfl
@[simp] theorem State.modMbox_ks_cupChecks (s : State) (p : Part) (m : Nat) (g : Mailbox → Mailbox) : (s.modMbox p m g).ks.cupChecks = s.ks.cupChecks := by cases p <;> rfl
@[simp] theorem State.modMbox_ks_shardReads (s : State) (p : Part) (m : Nat) (g : Mailbox → Mailbox) : (s.modMbox p m g).ks.shardReads = s.ks.shardReads := by cases p <;> rfl
@[simp] theorem State.modMbox_ks_grants (s : State) (p : Part) (m : Nat) (g : Mailbox → Mailbox) : (s.modMbox p m g).ks.grants = s.ks.grants := by cases p <;> rfl
@[simp] theorem State.modMbox_ks_dspLeaves (s : State) (p : Part) (m : Nat) (g : Mailbox → Mailbox) : (s.modMbox p m g).ks.dspLeaves = s.ks.dspLeaves := by cases p <;> rfl
@[simp] theorem State.modMbox_ks_dspHomes (s : State) (p : Part) (m : Nat) (g : Mailbox → Mailbox) : (s.modMbox p m g).ks.dspHomes = s.ks.dspHomes := by cases p <;> rfl
@[simp] theorem State.modMbox_ks_dspEngine (s : State) (p : Part) (m : Nat) (g : Mailbox → Mailbox) : (s.modMbox p m g).ks.dspEngine = s.ks.dspEngine := by cases p <;> rfl
@[simp] theorem State.modMbox_ks_dspQ (s : State) (p : Part) (m : Nat) (g : Mailbox → Mailbox) : (s.modMbox p m g).ks.dspQ = s.ks.dspQ := by cases p <;> rfl
@[simp] theorem State.modMbox_ks_tieReroute (s : State) (p : Part) (m : Nat) (g : Mailbox → Mailbox) : (s.modMbox p m g).ks.tieReroute = s.ks.tieReroute := by cases p <;> rfl
@[simp] theorem State.modMbox_ks_objs (s : State) (p : Part) (m : Nat) (g : Mailbox → Mailbox) : (s.modMbox p m g).ks.objs = s.ks.objs := by cases p <;> rfl
@[simp] theorem State.modMbox_ks_heldTakes (s : State) (p : Part) (m : Nat) (g : Mailbox → Mailbox) : (s.modMbox p m g).ks.heldTakes = s.ks.heldTakes := by cases p <;> rfl
@[simp] theorem State.modMbox_ks_trackers (s : State) (p : Part) (m : Nat) (g : Mailbox → Mailbox) : (s.modMbox p m g).ks.trackers = s.ks.trackers := by cases p <;> rfl
@[simp] theorem State.modMbox_ks_sends (s : State) (p : Part) (m : Nat) (g : Mailbox → Mailbox) : (s.modMbox p m g).ks.sends = s.ks.sends := by cases p <;> rfl
@[simp] theorem State.modMbox_ks_writes (s : State) (p : Part) (m : Nat) (g : Mailbox → Mailbox) : (s.modMbox p m g).ks.writes = s.ks.writes := by cases p <;> rfl
@[simp] theorem State.modMbox_ks_takesDone (s : State) (p : Part) (m : Nat) (g : Mailbox → Mailbox) : (s.modMbox p m g).ks.takesDone = s.ks.takesDone := by cases p <;> rfl
@[simp] theorem State.modMbox_ks_mem (s : State) (p : Part) (m : Nat) (g : Mailbox → Mailbox) : (s.modMbox p m g).ks.mem = s.ks.mem := by cases p <;> rfl
@[simp] theorem State.modMbox_ks_ptpDiscard (s : State) (p : Part) (m : Nat) (g : Mailbox → Mailbox) : (s.modMbox p m g).ks.ptpDiscard = s.ks.ptpDiscard := by cases p <;> rfl
@[simp] theorem State.modMbox_ks_ppsDelay (s : State) (p : Part) (m : Nat) (g : Mailbox → Mailbox) : (s.modMbox p m g).ks.ppsDelay = s.ks.ppsDelay := by cases p <;> rfl
@[simp] theorem State.modMbox_ks_v2Waits (s : State) (p : Part) (m : Nat) (g : Mailbox → Mailbox) : (s.modMbox p m g).ks.v2Waits = s.ks.v2Waits := by cases p <;> rfl
@[simp] theorem State.modMbox_time (s : State) (p : Part) (m : Nat) (g : Mailbox → Mailbox) (q : Part) : ((s.modMbox p m g).pc q).time = (s.pc q).time := by cases p <;> cases q <;> rfl
@[simp] theorem State.modMbox_stamp (s : State) (p : Part) (m : Nat) (g : Mailbox → Mailbox) (q : Part) : ((s.modMbox p m g).pc q).stamp = (s.pc q).stamp := by cases p <;> cases q <;> rfl
@[simp] theorem State.modMbox_ctr (s : State) (p : Part) (m : Nat) (g : Mailbox → Mailbox) (q : Part) : ((s.modMbox p m g).pc q).ctr = (s.pc q).ctr := by cases p <;> cases q <;> rfl
@[simp] theorem State.modMbox_link (s : State) (p : Part) (m : Nat) (g : Mailbox → Mailbox) (q : Part) : ((s.modMbox p m g).pc q).link = (s.pc q).link := by cases p <;> cases q <;> rfl
@[simp] theorem State.modMbox_highs (s : State) (p : Part) (m : Nat) (g : Mailbox → Mailbox) (q : Part) : ((s.modMbox p m g).pc q).highs = (s.pc q).highs := by cases p <;> cases q <;> rfl
@[simp] theorem State.begun_bx_straps (s : State) (p : Part) (m k : Nat) : (s.begun p m k).bx.straps = s.bx.straps := by unfold State.begun; split <;> simp
@[simp] theorem State.begun_bx_refclkLost (s : State) (p : Part) (m k : Nat) : (s.begun p m k).bx.refclkLost = s.bx.refclkLost := by unfold State.begun; split <;> simp
@[simp] theorem State.begun_bx_fenced (s : State) (p : Part) (m k : Nat) : (s.begun p m k).bx.fenced = s.bx.fenced := by unfold State.begun; split <;> simp
@[simp] theorem State.begun_bx_fenceSeq (s : State) (p : Part) (m k : Nat) : (s.begun p m k).bx.fenceSeq = s.bx.fenceSeq := by unfold State.begun; split <;> simp
@[simp] theorem State.begun_bx_prior (s : State) (p : Part) (m k : Nat) : (s.begun p m k).bx.prior = s.bx.prior := by unfold State.begun; split <;> simp
@[simp] theorem State.begun_bx_reportSeq (s : State) (p : Part) (m k : Nat) : (s.begun p m k).bx.reportSeq = s.bx.reportSeq := by unfold State.begun; split <;> simp
@[simp] theorem State.begun_bx_tenants (s : State) (p : Part) (m k : Nat) : (s.begun p m k).bx.tenants = s.bx.tenants := by unfold State.begun; split <;> simp
@[simp] theorem State.begun_bx_slots (s : State) (p : Part) (m k : Nat) : (s.begun p m k).bx.slots = s.bx.slots := by unfold State.begun; split <;> simp
@[simp] theorem State.begun_bx_objs (s : State) (p : Part) (m k : Nat) : (s.begun p m k).bx.objs = s.bx.objs := by unfold State.begun; split <;> simp
@[simp] theorem State.begun_bx_heldTakes (s : State) (p : Part) (m k : Nat) : (s.begun p m k).bx.heldTakes = s.bx.heldTakes := by unfold State.begun; split <;> simp
@[simp] theorem State.begun_bx_trackers (s : State) (p : Part) (m k : Nat) : (s.begun p m k).bx.trackers = s.bx.trackers := by unfold State.begun; split <;> simp
@[simp] theorem State.begun_bx_sends (s : State) (p : Part) (m k : Nat) : (s.begun p m k).bx.sends = s.bx.sends := by unfold State.begun; split <;> simp
@[simp] theorem State.begun_bx_writes (s : State) (p : Part) (m k : Nat) : (s.begun p m k).bx.writes = s.bx.writes := by unfold State.begun; split <;> simp
@[simp] theorem State.begun_bx_reads (s : State) (p : Part) (m k : Nat) : (s.begun p m k).bx.reads = s.bx.reads := by unfold State.begun; split <;> simp
@[simp] theorem State.begun_bx_v2Waits (s : State) (p : Part) (m k : Nat) : (s.begun p m k).bx.v2Waits = s.bx.v2Waits := by unfold State.begun; split <;> simp
@[simp] theorem State.begun_bx_waitSends (s : State) (p : Part) (m k : Nat) : (s.begun p m k).bx.waitSends = s.bx.waitSends := by unfold State.begun; split <;> simp
@[simp] theorem State.begun_bx_parts (s : State) (p : Part) (m k : Nat) : (s.begun p m k).bx.parts = s.bx.parts := by unfold State.begun; split <;> simp
@[simp] theorem State.begun_bx_nextPart (s : State) (p : Part) (m k : Nat) : (s.begun p m k).bx.nextPart = s.bx.nextPart := by unfold State.begun; split <;> simp
@[simp] theorem State.begun_bx_readJobs (s : State) (p : Part) (m k : Nat) : (s.begun p m k).bx.readJobs = s.bx.readJobs := by unfold State.begun; split <;> simp
@[simp] theorem State.begun_bx_nextJob (s : State) (p : Part) (m k : Nat) : (s.begun p m k).bx.nextJob = s.bx.nextJob := by unfold State.begun; split <;> simp
@[simp] theorem State.begun_bx_bases (s : State) (p : Part) (m k : Nat) : (s.begun p m k).bx.bases = s.bx.bases := by unfold State.begun; split <;> simp
@[simp] theorem State.begun_ks_build (s : State) (p : Part) (m k : Nat) : (s.begun p m k).ks.build = s.ks.build := by unfold State.begun; split <;> simp
@[simp] theorem State.begun_ks_lostPlanes (s : State) (p : Part) (m k : Nat) : (s.begun p m k).ks.lostPlanes = s.ks.lostPlanes := by unfold State.begun; split <;> simp
@[simp] theorem State.begun_ks_fences (s : State) (p : Part) (m k : Nat) : (s.begun p m k).ks.fences = s.ks.fences := by unfold State.begun; split <;> simp
@[simp] theorem State.begun_ks_strapFb (s : State) (p : Part) (m k : Nat) : (s.begun p m k).ks.strapFb = s.ks.strapFb := by unfold State.begun; split <;> simp
@[simp] theorem State.begun_ks_pcieEn (s : State) (p : Part) (m k : Nat) : (s.begun p m k).ks.pcieEn = s.ks.pcieEn := by unfold State.begun; split <;> simp
@[simp] theorem State.begun_ks_pins (s : State) (p : Part) (m k : Nat) : (s.begun p m k).ks.pins = s.ks.pins := by unfold State.begun; split <;> simp
@[simp] theorem State.begun_ks_tripped (s : State) (p : Part) (m k : Nat) : (s.begun p m k).ks.tripped = s.ks.tripped := by unfold State.begun; split <;> simp
@[simp] theorem State.begun_ks_memFailed (s : State) (p : Part) (m k : Nat) : (s.begun p m k).ks.memFailed = s.ks.memFailed := by unfold State.begun; split <;> simp
@[simp] theorem State.begun_ks_memErrors (s : State) (p : Part) (m k : Nat) : (s.begun p m k).ks.memErrors = s.ks.memErrors := by unfold State.begun; split <;> simp
@[simp] theorem State.begun_ks_brimFailed (s : State) (p : Part) (m k : Nat) : (s.begun p m k).ks.brimFailed = s.ks.brimFailed := by unfold State.begun; split <;> simp
@[simp] theorem State.begun_ks_coolantSince (s : State) (p : Part) (m k : Nat) : (s.begun p m k).ks.coolantSince = s.ks.coolantSince := by unfold State.begun; split <;> simp
@[simp] theorem State.begun_ks_coolantTold (s : State) (p : Part) (m k : Nat) : (s.begun p m k).ks.coolantTold = s.ks.coolantTold := by unfold State.begun; split <;> simp
@[simp] theorem State.begun_ks_lastCoolant (s : State) (p : Part) (m k : Nat) : (s.begun p m k).ks.lastCoolant = s.ks.lastCoolant := by unfold State.begun; split <;> simp
@[simp] theorem State.begun_ks_lastThrottle (s : State) (p : Part) (m k : Nat) : (s.begun p m k).ks.lastThrottle = s.ks.lastThrottle := by unfold State.begun; split <;> simp
@[simp] theorem State.begun_ks_lastAlive (s : State) (p : Part) (m k : Nat) : (s.begun p m k).ks.lastAlive = s.ks.lastAlive := by unfold State.begun; split <;> simp
@[simp] theorem State.begun_ks_lastResend (s : State) (p : Part) (m k : Nat) : (s.begun p m k).ks.lastResend = s.ks.lastResend := by unfold State.begun; split <;> simp
@[simp] theorem State.begun_ks_events (s : State) (p : Part) (m k : Nat) : (s.begun p m k).ks.events = s.ks.events := by unfold State.begun; split <;> simp
@[simp] theorem State.begun_ks_evtDropped (s : State) (p : Part) (m k : Nat) : (s.begun p m k).ks.evtDropped = s.ks.evtDropped := by unfold State.begun; split <;> simp
@[simp] theorem State.begun_ks_admitted (s : State) (p : Part) (m k : Nat) : (s.begun p m k).ks.admitted = s.ks.admitted := by unfold State.begun; split <;> simp
@[simp] theorem State.begun_ks_aliveTold (s : State) (p : Part) (m k : Nat) : (s.begun p m k).ks.aliveTold = s.ks.aliveTold := by unfold State.begun; split <;> simp
@[simp] theorem State.begun_ks_doms (s : State) (p : Part) (m k : Nat) : (s.begun p m k).ks.doms = s.ks.doms := by unfold State.begun; split <;> simp
@[simp] theorem State.begun_ks_leafRecs (s : State) (p : Part) (m k : Nat) : (s.begun p m k).ks.leafRecs = s.ks.leafRecs := by unfold State.begun; split <;> simp
@[simp] theorem State.begun_ks_chunks (s : State) (p : Part) (m k : Nat) : (s.begun p m k).ks.chunks = s.ks.chunks := by unfold State.begun; split <;> simp
@[simp] theorem State.begun_ks_kept (s : State) (p : Part) (m k : Nat) : (s.begun p m k).ks.kept = s.ks.kept := by unfold State.begun; split <;> simp
@[simp] theorem State.begun_ks_shards (s : State) (p : Part) (m k : Nat) : (s.begun p m k).ks.shards = s.ks.shards := by unfold State.begun; split <;> simp
@[simp] theorem State.begun_ks_blockQ (s : State) (p : Part) (m k : Nat) : (s.begun p m k).ks.blockQ = s.ks.blockQ := by unfold State.begun; split <;> simp
@[simp] theorem State.begun_ks_jobs (s : State) (p : Part) (m k : Nat) : (s.begun p m k).ks.jobs = s.ks.jobs := by unfold State.begun; split <;> simp
@[simp] theorem State.begun_ks_waitJobs (s : State) (p : Part) (m k : Nat) : (s.begun p m k).ks.waitJobs = s.ks.waitJobs := by unfold State.begun; split <;> simp
@[simp] theorem State.begun_ks_windows (s : State) (p : Part) (m k : Nat) : (s.begun p m k).ks.windows = s.ks.windows := by unfold State.begun; split <;> simp
@[simp] theorem State.begun_ks_bases (s : State) (p : Part) (m k : Nat) : (s.begun p m k).ks.bases = s.ks.bases := by unfold State.begun; split <;> simp
@[simp] theorem State.begun_ks_staged (s : State) (p : Part) (m k : Nat) : (s.begun p m k).ks.staged = s.ks.staged := by unfold State.begun; split <;> simp
@[simp] theorem State.begun_ks_ckpts (s : State) (p : Part) (m k : Nat) : (s.begun p m k).ks.ckpts = s.ks.ckpts := by unfold State.begun; split <;> simp
@[simp] theorem State.begun_ks_fills (s : State) (p : Part) (m k : Nat) : (s.begun p m k).ks.fills = s.ks.fills := by unfold State.begun; split <;> simp
@[simp] theorem State.begun_ks_cupChecks (s : State) (p : Part) (m k : Nat) : (s.begun p m k).ks.cupChecks = s.ks.cupChecks := by unfold State.begun; split <;> simp
@[simp] theorem State.begun_ks_shardReads (s : State) (p : Part) (m k : Nat) : (s.begun p m k).ks.shardReads = s.ks.shardReads := by unfold State.begun; split <;> simp
@[simp] theorem State.begun_ks_grants (s : State) (p : Part) (m k : Nat) : (s.begun p m k).ks.grants = s.ks.grants := by unfold State.begun; split <;> simp
@[simp] theorem State.begun_ks_dspLeaves (s : State) (p : Part) (m k : Nat) : (s.begun p m k).ks.dspLeaves = s.ks.dspLeaves := by unfold State.begun; split <;> simp
@[simp] theorem State.begun_ks_dspHomes (s : State) (p : Part) (m k : Nat) : (s.begun p m k).ks.dspHomes = s.ks.dspHomes := by unfold State.begun; split <;> simp
@[simp] theorem State.begun_ks_dspEngine (s : State) (p : Part) (m k : Nat) : (s.begun p m k).ks.dspEngine = s.ks.dspEngine := by unfold State.begun; split <;> simp
@[simp] theorem State.begun_ks_dspQ (s : State) (p : Part) (m k : Nat) : (s.begun p m k).ks.dspQ = s.ks.dspQ := by unfold State.begun; split <;> simp
@[simp] theorem State.begun_ks_tieReroute (s : State) (p : Part) (m k : Nat) : (s.begun p m k).ks.tieReroute = s.ks.tieReroute := by unfold State.begun; split <;> simp
@[simp] theorem State.begun_ks_objs (s : State) (p : Part) (m k : Nat) : (s.begun p m k).ks.objs = s.ks.objs := by unfold State.begun; split <;> simp
@[simp] theorem State.begun_ks_heldTakes (s : State) (p : Part) (m k : Nat) : (s.begun p m k).ks.heldTakes = s.ks.heldTakes := by unfold State.begun; split <;> simp
@[simp] theorem State.begun_ks_trackers (s : State) (p : Part) (m k : Nat) : (s.begun p m k).ks.trackers = s.ks.trackers := by unfold State.begun; split <;> simp
@[simp] theorem State.begun_ks_sends (s : State) (p : Part) (m k : Nat) : (s.begun p m k).ks.sends = s.ks.sends := by unfold State.begun; split <;> simp
@[simp] theorem State.begun_ks_writes (s : State) (p : Part) (m k : Nat) : (s.begun p m k).ks.writes = s.ks.writes := by unfold State.begun; split <;> simp
@[simp] theorem State.begun_ks_takesDone (s : State) (p : Part) (m k : Nat) : (s.begun p m k).ks.takesDone = s.ks.takesDone := by unfold State.begun; split <;> simp
@[simp] theorem State.begun_ks_mem (s : State) (p : Part) (m k : Nat) : (s.begun p m k).ks.mem = s.ks.mem := by unfold State.begun; split <;> simp
@[simp] theorem State.begun_ks_ptpDiscard (s : State) (p : Part) (m k : Nat) : (s.begun p m k).ks.ptpDiscard = s.ks.ptpDiscard := by unfold State.begun; split <;> simp
@[simp] theorem State.begun_ks_ppsDelay (s : State) (p : Part) (m k : Nat) : (s.begun p m k).ks.ppsDelay = s.ks.ppsDelay := by unfold State.begun; split <;> simp
@[simp] theorem State.begun_ks_v2Waits (s : State) (p : Part) (m k : Nat) : (s.begun p m k).ks.v2Waits = s.ks.v2Waits := by unfold State.begun; split <;> simp
@[simp] theorem State.begun_time (s : State) (p : Part) (m k : Nat) (q : Part) : ((s.begun p m k).pc q).time = (s.pc q).time := by unfold State.begun; split <;> simp
@[simp] theorem State.begun_stamp (s : State) (p : Part) (m k : Nat) (q : Part) : ((s.begun p m k).pc q).stamp = (s.pc q).stamp := by unfold State.begun; split <;> simp
@[simp] theorem State.begun_ctr (s : State) (p : Part) (m k : Nat) (q : Part) : ((s.begun p m k).pc q).ctr = (s.pc q).ctr := by unfold State.begun; split <;> simp
@[simp] theorem State.begun_link (s : State) (p : Part) (m k : Nat) (q : Part) : ((s.begun p m k).pc q).link = (s.pc q).link := by unfold State.begun; split <;> simp
@[simp] theorem State.begun_highs (s : State) (p : Part) (m k : Nat) (q : Part) : ((s.begun p m k).pc q).highs = (s.pc q).highs := by unfold State.begun; split <;> simp
@[simp] theorem State.faultCode_bx_straps (s : State) (op : Nat) (st : Code) : (s.faultCode op st).bx.straps = s.bx.straps := by unfold State.faultCode; split_ifs <;> simp
@[simp] theorem State.faultCode_bx_refclkLost (s : State) (op : Nat) (st : Code) : (s.faultCode op st).bx.refclkLost = s.bx.refclkLost := by unfold State.faultCode; split_ifs <;> simp
@[simp] theorem State.faultCode_bx_fenced (s : State) (op : Nat) (st : Code) : (s.faultCode op st).bx.fenced = s.bx.fenced := by unfold State.faultCode; split_ifs <;> simp
@[simp] theorem State.faultCode_bx_fenceSeq (s : State) (op : Nat) (st : Code) : (s.faultCode op st).bx.fenceSeq = s.bx.fenceSeq := by unfold State.faultCode; split_ifs <;> simp
@[simp] theorem State.faultCode_bx_prior (s : State) (op : Nat) (st : Code) : (s.faultCode op st).bx.prior = s.bx.prior := by unfold State.faultCode; split_ifs <;> simp
@[simp] theorem State.faultCode_bx_reportSeq (s : State) (op : Nat) (st : Code) : (s.faultCode op st).bx.reportSeq = s.bx.reportSeq := by unfold State.faultCode; split_ifs <;> simp
@[simp] theorem State.faultCode_bx_tenants (s : State) (op : Nat) (st : Code) : (s.faultCode op st).bx.tenants = s.bx.tenants := by unfold State.faultCode; split_ifs <;> simp
@[simp] theorem State.faultCode_bx_slots (s : State) (op : Nat) (st : Code) : (s.faultCode op st).bx.slots = s.bx.slots := by unfold State.faultCode; split_ifs <;> simp
@[simp] theorem State.faultCode_bx_objs (s : State) (op : Nat) (st : Code) : (s.faultCode op st).bx.objs = s.bx.objs := by unfold State.faultCode; split_ifs <;> simp
@[simp] theorem State.faultCode_bx_heldTakes (s : State) (op : Nat) (st : Code) : (s.faultCode op st).bx.heldTakes = s.bx.heldTakes := by unfold State.faultCode; split_ifs <;> simp
@[simp] theorem State.faultCode_bx_trackers (s : State) (op : Nat) (st : Code) : (s.faultCode op st).bx.trackers = s.bx.trackers := by unfold State.faultCode; split_ifs <;> simp
@[simp] theorem State.faultCode_bx_sends (s : State) (op : Nat) (st : Code) : (s.faultCode op st).bx.sends = s.bx.sends := by unfold State.faultCode; split_ifs <;> simp
@[simp] theorem State.faultCode_bx_writes (s : State) (op : Nat) (st : Code) : (s.faultCode op st).bx.writes = s.bx.writes := by unfold State.faultCode; split_ifs <;> simp
@[simp] theorem State.faultCode_bx_reads (s : State) (op : Nat) (st : Code) : (s.faultCode op st).bx.reads = s.bx.reads := by unfold State.faultCode; split_ifs <;> simp
@[simp] theorem State.faultCode_bx_v2Waits (s : State) (op : Nat) (st : Code) : (s.faultCode op st).bx.v2Waits = s.bx.v2Waits := by unfold State.faultCode; split_ifs <;> simp
@[simp] theorem State.faultCode_bx_waitSends (s : State) (op : Nat) (st : Code) : (s.faultCode op st).bx.waitSends = s.bx.waitSends := by unfold State.faultCode; split_ifs <;> simp
@[simp] theorem State.faultCode_bx_parts (s : State) (op : Nat) (st : Code) : (s.faultCode op st).bx.parts = s.bx.parts := by unfold State.faultCode; split_ifs <;> simp
@[simp] theorem State.faultCode_bx_nextPart (s : State) (op : Nat) (st : Code) : (s.faultCode op st).bx.nextPart = s.bx.nextPart := by unfold State.faultCode; split_ifs <;> simp
@[simp] theorem State.faultCode_bx_readJobs (s : State) (op : Nat) (st : Code) : (s.faultCode op st).bx.readJobs = s.bx.readJobs := by unfold State.faultCode; split_ifs <;> simp
@[simp] theorem State.faultCode_bx_nextJob (s : State) (op : Nat) (st : Code) : (s.faultCode op st).bx.nextJob = s.bx.nextJob := by unfold State.faultCode; split_ifs <;> simp
@[simp] theorem State.faultCode_bx_bases (s : State) (op : Nat) (st : Code) : (s.faultCode op st).bx.bases = s.bx.bases := by unfold State.faultCode; split_ifs <;> simp
@[simp] theorem State.faultCode_ks_build (s : State) (op : Nat) (st : Code) : (s.faultCode op st).ks.build = s.ks.build := by unfold State.faultCode; split_ifs <;> simp
@[simp] theorem State.faultCode_ks_lostPlanes (s : State) (op : Nat) (st : Code) : (s.faultCode op st).ks.lostPlanes = s.ks.lostPlanes := by unfold State.faultCode; split_ifs <;> simp
@[simp] theorem State.faultCode_ks_fences (s : State) (op : Nat) (st : Code) : (s.faultCode op st).ks.fences = s.ks.fences := by unfold State.faultCode; split_ifs <;> simp
@[simp] theorem State.faultCode_ks_strapFb (s : State) (op : Nat) (st : Code) : (s.faultCode op st).ks.strapFb = s.ks.strapFb := by unfold State.faultCode; split_ifs <;> simp
@[simp] theorem State.faultCode_ks_pcieEn (s : State) (op : Nat) (st : Code) : (s.faultCode op st).ks.pcieEn = s.ks.pcieEn := by unfold State.faultCode; split_ifs <;> simp
@[simp] theorem State.faultCode_ks_pins (s : State) (op : Nat) (st : Code) : (s.faultCode op st).ks.pins = s.ks.pins := by unfold State.faultCode; split_ifs <;> simp
@[simp] theorem State.faultCode_ks_tripped (s : State) (op : Nat) (st : Code) : (s.faultCode op st).ks.tripped = s.ks.tripped := by unfold State.faultCode; split_ifs <;> simp
@[simp] theorem State.faultCode_ks_memFailed (s : State) (op : Nat) (st : Code) : (s.faultCode op st).ks.memFailed = s.ks.memFailed := by unfold State.faultCode; split_ifs <;> simp
@[simp] theorem State.faultCode_ks_memErrors (s : State) (op : Nat) (st : Code) : (s.faultCode op st).ks.memErrors = s.ks.memErrors := by unfold State.faultCode; split_ifs <;> simp
@[simp] theorem State.faultCode_ks_brimFailed (s : State) (op : Nat) (st : Code) : (s.faultCode op st).ks.brimFailed = s.ks.brimFailed := by unfold State.faultCode; split_ifs <;> simp
@[simp] theorem State.faultCode_ks_coolantSince (s : State) (op : Nat) (st : Code) : (s.faultCode op st).ks.coolantSince = s.ks.coolantSince := by unfold State.faultCode; split_ifs <;> simp
@[simp] theorem State.faultCode_ks_coolantTold (s : State) (op : Nat) (st : Code) : (s.faultCode op st).ks.coolantTold = s.ks.coolantTold := by unfold State.faultCode; split_ifs <;> simp
@[simp] theorem State.faultCode_ks_lastCoolant (s : State) (op : Nat) (st : Code) : (s.faultCode op st).ks.lastCoolant = s.ks.lastCoolant := by unfold State.faultCode; split_ifs <;> simp
@[simp] theorem State.faultCode_ks_lastThrottle (s : State) (op : Nat) (st : Code) : (s.faultCode op st).ks.lastThrottle = s.ks.lastThrottle := by unfold State.faultCode; split_ifs <;> simp
@[simp] theorem State.faultCode_ks_lastAlive (s : State) (op : Nat) (st : Code) : (s.faultCode op st).ks.lastAlive = s.ks.lastAlive := by unfold State.faultCode; split_ifs <;> simp
@[simp] theorem State.faultCode_ks_lastResend (s : State) (op : Nat) (st : Code) : (s.faultCode op st).ks.lastResend = s.ks.lastResend := by unfold State.faultCode; split_ifs <;> simp
@[simp] theorem State.faultCode_ks_events (s : State) (op : Nat) (st : Code) : (s.faultCode op st).ks.events = s.ks.events := by unfold State.faultCode; split_ifs <;> simp
@[simp] theorem State.faultCode_ks_evtDropped (s : State) (op : Nat) (st : Code) : (s.faultCode op st).ks.evtDropped = s.ks.evtDropped := by unfold State.faultCode; split_ifs <;> simp
@[simp] theorem State.faultCode_ks_admitted (s : State) (op : Nat) (st : Code) : (s.faultCode op st).ks.admitted = s.ks.admitted := by unfold State.faultCode; split_ifs <;> simp
@[simp] theorem State.faultCode_ks_aliveTold (s : State) (op : Nat) (st : Code) : (s.faultCode op st).ks.aliveTold = s.ks.aliveTold := by unfold State.faultCode; split_ifs <;> simp
@[simp] theorem State.faultCode_ks_doms (s : State) (op : Nat) (st : Code) : (s.faultCode op st).ks.doms = s.ks.doms := by unfold State.faultCode; split_ifs <;> simp
@[simp] theorem State.faultCode_ks_leafRecs (s : State) (op : Nat) (st : Code) : (s.faultCode op st).ks.leafRecs = s.ks.leafRecs := by unfold State.faultCode; split_ifs <;> simp
@[simp] theorem State.faultCode_ks_chunks (s : State) (op : Nat) (st : Code) : (s.faultCode op st).ks.chunks = s.ks.chunks := by unfold State.faultCode; split_ifs <;> simp
@[simp] theorem State.faultCode_ks_kept (s : State) (op : Nat) (st : Code) : (s.faultCode op st).ks.kept = s.ks.kept := by unfold State.faultCode; split_ifs <;> simp
@[simp] theorem State.faultCode_ks_shards (s : State) (op : Nat) (st : Code) : (s.faultCode op st).ks.shards = s.ks.shards := by unfold State.faultCode; split_ifs <;> simp
@[simp] theorem State.faultCode_ks_blockQ (s : State) (op : Nat) (st : Code) : (s.faultCode op st).ks.blockQ = s.ks.blockQ := by unfold State.faultCode; split_ifs <;> simp
@[simp] theorem State.faultCode_ks_jobs (s : State) (op : Nat) (st : Code) : (s.faultCode op st).ks.jobs = s.ks.jobs := by unfold State.faultCode; split_ifs <;> simp
@[simp] theorem State.faultCode_ks_waitJobs (s : State) (op : Nat) (st : Code) : (s.faultCode op st).ks.waitJobs = s.ks.waitJobs := by unfold State.faultCode; split_ifs <;> simp
@[simp] theorem State.faultCode_ks_windows (s : State) (op : Nat) (st : Code) : (s.faultCode op st).ks.windows = s.ks.windows := by unfold State.faultCode; split_ifs <;> simp
@[simp] theorem State.faultCode_ks_bases (s : State) (op : Nat) (st : Code) : (s.faultCode op st).ks.bases = s.ks.bases := by unfold State.faultCode; split_ifs <;> simp
@[simp] theorem State.faultCode_ks_staged (s : State) (op : Nat) (st : Code) : (s.faultCode op st).ks.staged = s.ks.staged := by unfold State.faultCode; split_ifs <;> simp
@[simp] theorem State.faultCode_ks_ckpts (s : State) (op : Nat) (st : Code) : (s.faultCode op st).ks.ckpts = s.ks.ckpts := by unfold State.faultCode; split_ifs <;> simp
@[simp] theorem State.faultCode_ks_fills (s : State) (op : Nat) (st : Code) : (s.faultCode op st).ks.fills = s.ks.fills := by unfold State.faultCode; split_ifs <;> simp
@[simp] theorem State.faultCode_ks_cupChecks (s : State) (op : Nat) (st : Code) : (s.faultCode op st).ks.cupChecks = s.ks.cupChecks := by unfold State.faultCode; split_ifs <;> simp
@[simp] theorem State.faultCode_ks_shardReads (s : State) (op : Nat) (st : Code) : (s.faultCode op st).ks.shardReads = s.ks.shardReads := by unfold State.faultCode; split_ifs <;> simp
@[simp] theorem State.faultCode_ks_grants (s : State) (op : Nat) (st : Code) : (s.faultCode op st).ks.grants = s.ks.grants := by unfold State.faultCode; split_ifs <;> simp
@[simp] theorem State.faultCode_ks_dspLeaves (s : State) (op : Nat) (st : Code) : (s.faultCode op st).ks.dspLeaves = s.ks.dspLeaves := by unfold State.faultCode; split_ifs <;> simp
@[simp] theorem State.faultCode_ks_dspHomes (s : State) (op : Nat) (st : Code) : (s.faultCode op st).ks.dspHomes = s.ks.dspHomes := by unfold State.faultCode; split_ifs <;> simp
@[simp] theorem State.faultCode_ks_dspEngine (s : State) (op : Nat) (st : Code) : (s.faultCode op st).ks.dspEngine = s.ks.dspEngine := by unfold State.faultCode; split_ifs <;> simp
@[simp] theorem State.faultCode_ks_dspQ (s : State) (op : Nat) (st : Code) : (s.faultCode op st).ks.dspQ = s.ks.dspQ := by unfold State.faultCode; split_ifs <;> simp
@[simp] theorem State.faultCode_ks_tieReroute (s : State) (op : Nat) (st : Code) : (s.faultCode op st).ks.tieReroute = s.ks.tieReroute := by unfold State.faultCode; split_ifs <;> simp
@[simp] theorem State.faultCode_ks_objs (s : State) (op : Nat) (st : Code) : (s.faultCode op st).ks.objs = s.ks.objs := by unfold State.faultCode; split_ifs <;> simp
@[simp] theorem State.faultCode_ks_heldTakes (s : State) (op : Nat) (st : Code) : (s.faultCode op st).ks.heldTakes = s.ks.heldTakes := by unfold State.faultCode; split_ifs <;> simp
@[simp] theorem State.faultCode_ks_trackers (s : State) (op : Nat) (st : Code) : (s.faultCode op st).ks.trackers = s.ks.trackers := by unfold State.faultCode; split_ifs <;> simp
@[simp] theorem State.faultCode_ks_sends (s : State) (op : Nat) (st : Code) : (s.faultCode op st).ks.sends = s.ks.sends := by unfold State.faultCode; split_ifs <;> simp
@[simp] theorem State.faultCode_ks_writes (s : State) (op : Nat) (st : Code) : (s.faultCode op st).ks.writes = s.ks.writes := by unfold State.faultCode; split_ifs <;> simp
@[simp] theorem State.faultCode_ks_takesDone (s : State) (op : Nat) (st : Code) : (s.faultCode op st).ks.takesDone = s.ks.takesDone := by unfold State.faultCode; split_ifs <;> simp
@[simp] theorem State.faultCode_ks_mem (s : State) (op : Nat) (st : Code) : (s.faultCode op st).ks.mem = s.ks.mem := by unfold State.faultCode; split_ifs <;> simp
@[simp] theorem State.faultCode_ks_ptpDiscard (s : State) (op : Nat) (st : Code) : (s.faultCode op st).ks.ptpDiscard = s.ks.ptpDiscard := by unfold State.faultCode; split_ifs <;> simp
@[simp] theorem State.faultCode_ks_ppsDelay (s : State) (op : Nat) (st : Code) : (s.faultCode op st).ks.ppsDelay = s.ks.ppsDelay := by unfold State.faultCode; split_ifs <;> simp
@[simp] theorem State.faultCode_ks_v2Waits (s : State) (op : Nat) (st : Code) : (s.faultCode op st).ks.v2Waits = s.ks.v2Waits := by unfold State.faultCode; split_ifs <;> simp
@[simp] theorem State.faultCode_time (s : State) (op : Nat) (st : Code) (q : Part) : ((s.faultCode op st).pc q).time = (s.pc q).time := by unfold State.faultCode; split_ifs <;> simp
@[simp] theorem State.faultCode_stamp (s : State) (op : Nat) (st : Code) (q : Part) : ((s.faultCode op st).pc q).stamp = (s.pc q).stamp := by unfold State.faultCode; split_ifs <;> simp
@[simp] theorem State.faultCode_ctr (s : State) (op : Nat) (st : Code) (q : Part) : ((s.faultCode op st).pc q).ctr = (s.pc q).ctr := by unfold State.faultCode; split_ifs <;> simp
@[simp] theorem State.faultCode_link (s : State) (op : Nat) (st : Code) (q : Part) : ((s.faultCode op st).pc q).link = (s.pc q).link := by unfold State.faultCode; split_ifs <;> simp
@[simp] theorem State.faultCode_highs (s : State) (op : Nat) (st : Code) (q : Part) : ((s.faultCode op st).pc q).highs = (s.pc q).highs := by unfold State.faultCode; split_ifs <;> simp
@[simp] theorem State.complete_bx_straps (s : State) (p : Part) (m k : Nat) (st : Code) (r i : List Byte) : (s.complete p m k st r i).bx.straps = s.bx.straps := by cases h : (s.mslot p m k).taken with | none => simp [State.complete, h] | some tk => cases p <;> simp [State.complete_bx s _ m k st r i tk h]
@[simp] theorem State.complete_bx_refclkLost (s : State) (p : Part) (m k : Nat) (st : Code) (r i : List Byte) : (s.complete p m k st r i).bx.refclkLost = s.bx.refclkLost := by cases h : (s.mslot p m k).taken with | none => simp [State.complete, h] | some tk => cases p <;> simp [State.complete_bx s _ m k st r i tk h]
@[simp] theorem State.complete_bx_fenced (s : State) (p : Part) (m k : Nat) (st : Code) (r i : List Byte) : (s.complete p m k st r i).bx.fenced = s.bx.fenced := by cases h : (s.mslot p m k).taken with | none => simp [State.complete, h] | some tk => cases p <;> simp [State.complete_bx s _ m k st r i tk h]
@[simp] theorem State.complete_bx_fenceSeq (s : State) (p : Part) (m k : Nat) (st : Code) (r i : List Byte) : (s.complete p m k st r i).bx.fenceSeq = s.bx.fenceSeq := by cases h : (s.mslot p m k).taken with | none => simp [State.complete, h] | some tk => cases p <;> simp [State.complete_bx s _ m k st r i tk h]
@[simp] theorem State.complete_bx_prior (s : State) (p : Part) (m k : Nat) (st : Code) (r i : List Byte) : (s.complete p m k st r i).bx.prior = s.bx.prior := by cases h : (s.mslot p m k).taken with | none => simp [State.complete, h] | some tk => cases p <;> simp [State.complete_bx s _ m k st r i tk h]
@[simp] theorem State.complete_bx_reportSeq (s : State) (p : Part) (m k : Nat) (st : Code) (r i : List Byte) : (s.complete p m k st r i).bx.reportSeq = s.bx.reportSeq := by cases h : (s.mslot p m k).taken with | none => simp [State.complete, h] | some tk => cases p <;> simp [State.complete_bx s _ m k st r i tk h]
@[simp] theorem State.complete_bx_tenants (s : State) (p : Part) (m k : Nat) (st : Code) (r i : List Byte) : (s.complete p m k st r i).bx.tenants = s.bx.tenants := by cases h : (s.mslot p m k).taken with | none => simp [State.complete, h] | some tk => cases p <;> simp [State.complete_bx s _ m k st r i tk h]
@[simp] theorem State.complete_bx_slots (s : State) (p : Part) (m k : Nat) (st : Code) (r i : List Byte) : (s.complete p m k st r i).bx.slots = s.bx.slots := by cases h : (s.mslot p m k).taken with | none => simp [State.complete, h] | some tk => cases p <;> simp [State.complete_bx s _ m k st r i tk h]
@[simp] theorem State.complete_bx_objs (s : State) (p : Part) (m k : Nat) (st : Code) (r i : List Byte) : (s.complete p m k st r i).bx.objs = s.bx.objs := by cases h : (s.mslot p m k).taken with | none => simp [State.complete, h] | some tk => cases p <;> simp [State.complete_bx s _ m k st r i tk h]
@[simp] theorem State.complete_bx_heldTakes (s : State) (p : Part) (m k : Nat) (st : Code) (r i : List Byte) : (s.complete p m k st r i).bx.heldTakes = s.bx.heldTakes := by cases h : (s.mslot p m k).taken with | none => simp [State.complete, h] | some tk => cases p <;> simp [State.complete_bx s _ m k st r i tk h]
@[simp] theorem State.complete_bx_trackers (s : State) (p : Part) (m k : Nat) (st : Code) (r i : List Byte) : (s.complete p m k st r i).bx.trackers = s.bx.trackers := by cases h : (s.mslot p m k).taken with | none => simp [State.complete, h] | some tk => cases p <;> simp [State.complete_bx s _ m k st r i tk h]
@[simp] theorem State.complete_bx_sends (s : State) (p : Part) (m k : Nat) (st : Code) (r i : List Byte) : (s.complete p m k st r i).bx.sends = s.bx.sends := by cases h : (s.mslot p m k).taken with | none => simp [State.complete, h] | some tk => cases p <;> simp [State.complete_bx s _ m k st r i tk h]
@[simp] theorem State.complete_bx_writes (s : State) (p : Part) (m k : Nat) (st : Code) (r i : List Byte) : (s.complete p m k st r i).bx.writes = s.bx.writes := by cases h : (s.mslot p m k).taken with | none => simp [State.complete, h] | some tk => cases p <;> simp [State.complete_bx s _ m k st r i tk h]
@[simp] theorem State.complete_bx_reads (s : State) (p : Part) (m k : Nat) (st : Code) (r i : List Byte) : (s.complete p m k st r i).bx.reads = s.bx.reads := by cases h : (s.mslot p m k).taken with | none => simp [State.complete, h] | some tk => cases p <;> simp [State.complete_bx s _ m k st r i tk h]
@[simp] theorem State.complete_bx_v2Waits (s : State) (p : Part) (m k : Nat) (st : Code) (r i : List Byte) : (s.complete p m k st r i).bx.v2Waits = s.bx.v2Waits := by cases h : (s.mslot p m k).taken with | none => simp [State.complete, h] | some tk => cases p <;> simp [State.complete_bx s _ m k st r i tk h]
@[simp] theorem State.complete_bx_waitSends (s : State) (p : Part) (m k : Nat) (st : Code) (r i : List Byte) : (s.complete p m k st r i).bx.waitSends = s.bx.waitSends := by cases h : (s.mslot p m k).taken with | none => simp [State.complete, h] | some tk => cases p <;> simp [State.complete_bx s _ m k st r i tk h]
@[simp] theorem State.complete_bx_parts (s : State) (p : Part) (m k : Nat) (st : Code) (r i : List Byte) : (s.complete p m k st r i).bx.parts = s.bx.parts := by cases h : (s.mslot p m k).taken with | none => simp [State.complete, h] | some tk => cases p <;> simp [State.complete_bx s _ m k st r i tk h]
@[simp] theorem State.complete_bx_nextPart (s : State) (p : Part) (m k : Nat) (st : Code) (r i : List Byte) : (s.complete p m k st r i).bx.nextPart = s.bx.nextPart := by cases h : (s.mslot p m k).taken with | none => simp [State.complete, h] | some tk => cases p <;> simp [State.complete_bx s _ m k st r i tk h]
@[simp] theorem State.complete_bx_readJobs (s : State) (p : Part) (m k : Nat) (st : Code) (r i : List Byte) : (s.complete p m k st r i).bx.readJobs = s.bx.readJobs := by cases h : (s.mslot p m k).taken with | none => simp [State.complete, h] | some tk => cases p <;> simp [State.complete_bx s _ m k st r i tk h]
@[simp] theorem State.complete_bx_nextJob (s : State) (p : Part) (m k : Nat) (st : Code) (r i : List Byte) : (s.complete p m k st r i).bx.nextJob = s.bx.nextJob := by cases h : (s.mslot p m k).taken with | none => simp [State.complete, h] | some tk => cases p <;> simp [State.complete_bx s _ m k st r i tk h]
@[simp] theorem State.complete_bx_bases (s : State) (p : Part) (m k : Nat) (st : Code) (r i : List Byte) : (s.complete p m k st r i).bx.bases = s.bx.bases := by cases h : (s.mslot p m k).taken with | none => simp [State.complete, h] | some tk => cases p <;> simp [State.complete_bx s _ m k st r i tk h]
@[simp] theorem State.complete_ks_build (s : State) (p : Part) (m k : Nat) (st : Code) (r i : List Byte) : (s.complete p m k st r i).ks.build = s.ks.build := by cases h : (s.mslot p m k).taken with | none => simp [State.complete, h] | some tk => cases p <;> simp [State.complete_ks s _ m k st r i tk h]
@[simp] theorem State.complete_ks_lostPlanes (s : State) (p : Part) (m k : Nat) (st : Code) (r i : List Byte) : (s.complete p m k st r i).ks.lostPlanes = s.ks.lostPlanes := by cases h : (s.mslot p m k).taken with | none => simp [State.complete, h] | some tk => cases p <;> simp [State.complete_ks s _ m k st r i tk h]
@[simp] theorem State.complete_ks_fences (s : State) (p : Part) (m k : Nat) (st : Code) (r i : List Byte) : (s.complete p m k st r i).ks.fences = s.ks.fences := by cases h : (s.mslot p m k).taken with | none => simp [State.complete, h] | some tk => cases p <;> simp [State.complete_ks s _ m k st r i tk h]
@[simp] theorem State.complete_ks_strapFb (s : State) (p : Part) (m k : Nat) (st : Code) (r i : List Byte) : (s.complete p m k st r i).ks.strapFb = s.ks.strapFb := by cases h : (s.mslot p m k).taken with | none => simp [State.complete, h] | some tk => cases p <;> simp [State.complete_ks s _ m k st r i tk h]
@[simp] theorem State.complete_ks_pcieEn (s : State) (p : Part) (m k : Nat) (st : Code) (r i : List Byte) : (s.complete p m k st r i).ks.pcieEn = s.ks.pcieEn := by cases h : (s.mslot p m k).taken with | none => simp [State.complete, h] | some tk => cases p <;> simp [State.complete_ks s _ m k st r i tk h]
@[simp] theorem State.complete_ks_pins (s : State) (p : Part) (m k : Nat) (st : Code) (r i : List Byte) : (s.complete p m k st r i).ks.pins = s.ks.pins := by cases h : (s.mslot p m k).taken with | none => simp [State.complete, h] | some tk => cases p <;> simp [State.complete_ks s _ m k st r i tk h]
@[simp] theorem State.complete_ks_tripped (s : State) (p : Part) (m k : Nat) (st : Code) (r i : List Byte) : (s.complete p m k st r i).ks.tripped = s.ks.tripped := by cases h : (s.mslot p m k).taken with | none => simp [State.complete, h] | some tk => cases p <;> simp [State.complete_ks s _ m k st r i tk h]
@[simp] theorem State.complete_ks_memFailed (s : State) (p : Part) (m k : Nat) (st : Code) (r i : List Byte) : (s.complete p m k st r i).ks.memFailed = s.ks.memFailed := by cases h : (s.mslot p m k).taken with | none => simp [State.complete, h] | some tk => cases p <;> simp [State.complete_ks s _ m k st r i tk h]
@[simp] theorem State.complete_ks_memErrors (s : State) (p : Part) (m k : Nat) (st : Code) (r i : List Byte) : (s.complete p m k st r i).ks.memErrors = s.ks.memErrors := by cases h : (s.mslot p m k).taken with | none => simp [State.complete, h] | some tk => cases p <;> simp [State.complete_ks s _ m k st r i tk h]
@[simp] theorem State.complete_ks_brimFailed (s : State) (p : Part) (m k : Nat) (st : Code) (r i : List Byte) : (s.complete p m k st r i).ks.brimFailed = s.ks.brimFailed := by cases h : (s.mslot p m k).taken with | none => simp [State.complete, h] | some tk => cases p <;> simp [State.complete_ks s _ m k st r i tk h]
@[simp] theorem State.complete_ks_coolantSince (s : State) (p : Part) (m k : Nat) (st : Code) (r i : List Byte) : (s.complete p m k st r i).ks.coolantSince = s.ks.coolantSince := by cases h : (s.mslot p m k).taken with | none => simp [State.complete, h] | some tk => cases p <;> simp [State.complete_ks s _ m k st r i tk h]
@[simp] theorem State.complete_ks_coolantTold (s : State) (p : Part) (m k : Nat) (st : Code) (r i : List Byte) : (s.complete p m k st r i).ks.coolantTold = s.ks.coolantTold := by cases h : (s.mslot p m k).taken with | none => simp [State.complete, h] | some tk => cases p <;> simp [State.complete_ks s _ m k st r i tk h]
@[simp] theorem State.complete_ks_lastCoolant (s : State) (p : Part) (m k : Nat) (st : Code) (r i : List Byte) : (s.complete p m k st r i).ks.lastCoolant = s.ks.lastCoolant := by cases h : (s.mslot p m k).taken with | none => simp [State.complete, h] | some tk => cases p <;> simp [State.complete_ks s _ m k st r i tk h]
@[simp] theorem State.complete_ks_lastThrottle (s : State) (p : Part) (m k : Nat) (st : Code) (r i : List Byte) : (s.complete p m k st r i).ks.lastThrottle = s.ks.lastThrottle := by cases h : (s.mslot p m k).taken with | none => simp [State.complete, h] | some tk => cases p <;> simp [State.complete_ks s _ m k st r i tk h]
@[simp] theorem State.complete_ks_lastAlive (s : State) (p : Part) (m k : Nat) (st : Code) (r i : List Byte) : (s.complete p m k st r i).ks.lastAlive = s.ks.lastAlive := by cases h : (s.mslot p m k).taken with | none => simp [State.complete, h] | some tk => cases p <;> simp [State.complete_ks s _ m k st r i tk h]
@[simp] theorem State.complete_ks_lastResend (s : State) (p : Part) (m k : Nat) (st : Code) (r i : List Byte) : (s.complete p m k st r i).ks.lastResend = s.ks.lastResend := by cases h : (s.mslot p m k).taken with | none => simp [State.complete, h] | some tk => cases p <;> simp [State.complete_ks s _ m k st r i tk h]
@[simp] theorem State.complete_ks_events (s : State) (p : Part) (m k : Nat) (st : Code) (r i : List Byte) : (s.complete p m k st r i).ks.events = s.ks.events := by cases h : (s.mslot p m k).taken with | none => simp [State.complete, h] | some tk => cases p <;> simp [State.complete_ks s _ m k st r i tk h]
@[simp] theorem State.complete_ks_evtDropped (s : State) (p : Part) (m k : Nat) (st : Code) (r i : List Byte) : (s.complete p m k st r i).ks.evtDropped = s.ks.evtDropped := by cases h : (s.mslot p m k).taken with | none => simp [State.complete, h] | some tk => cases p <;> simp [State.complete_ks s _ m k st r i tk h]
@[simp] theorem State.complete_ks_admitted (s : State) (p : Part) (m k : Nat) (st : Code) (r i : List Byte) : (s.complete p m k st r i).ks.admitted = s.ks.admitted := by cases h : (s.mslot p m k).taken with | none => simp [State.complete, h] | some tk => cases p <;> simp [State.complete_ks s _ m k st r i tk h]
@[simp] theorem State.complete_ks_aliveTold (s : State) (p : Part) (m k : Nat) (st : Code) (r i : List Byte) : (s.complete p m k st r i).ks.aliveTold = s.ks.aliveTold := by cases h : (s.mslot p m k).taken with | none => simp [State.complete, h] | some tk => cases p <;> simp [State.complete_ks s _ m k st r i tk h]
@[simp] theorem State.complete_ks_doms (s : State) (p : Part) (m k : Nat) (st : Code) (r i : List Byte) : (s.complete p m k st r i).ks.doms = s.ks.doms := by cases h : (s.mslot p m k).taken with | none => simp [State.complete, h] | some tk => cases p <;> simp [State.complete_ks s _ m k st r i tk h]
@[simp] theorem State.complete_ks_leafRecs (s : State) (p : Part) (m k : Nat) (st : Code) (r i : List Byte) : (s.complete p m k st r i).ks.leafRecs = s.ks.leafRecs := by cases h : (s.mslot p m k).taken with | none => simp [State.complete, h] | some tk => cases p <;> simp [State.complete_ks s _ m k st r i tk h]
@[simp] theorem State.complete_ks_chunks (s : State) (p : Part) (m k : Nat) (st : Code) (r i : List Byte) : (s.complete p m k st r i).ks.chunks = s.ks.chunks := by cases h : (s.mslot p m k).taken with | none => simp [State.complete, h] | some tk => cases p <;> simp [State.complete_ks s _ m k st r i tk h]
@[simp] theorem State.complete_ks_kept (s : State) (p : Part) (m k : Nat) (st : Code) (r i : List Byte) : (s.complete p m k st r i).ks.kept = s.ks.kept := by cases h : (s.mslot p m k).taken with | none => simp [State.complete, h] | some tk => cases p <;> simp [State.complete_ks s _ m k st r i tk h]
@[simp] theorem State.complete_ks_shards (s : State) (p : Part) (m k : Nat) (st : Code) (r i : List Byte) : (s.complete p m k st r i).ks.shards = s.ks.shards := by cases h : (s.mslot p m k).taken with | none => simp [State.complete, h] | some tk => cases p <;> simp [State.complete_ks s _ m k st r i tk h]
@[simp] theorem State.complete_ks_blockQ (s : State) (p : Part) (m k : Nat) (st : Code) (r i : List Byte) : (s.complete p m k st r i).ks.blockQ = s.ks.blockQ := by cases h : (s.mslot p m k).taken with | none => simp [State.complete, h] | some tk => cases p <;> simp [State.complete_ks s _ m k st r i tk h]
@[simp] theorem State.complete_ks_jobs (s : State) (p : Part) (m k : Nat) (st : Code) (r i : List Byte) : (s.complete p m k st r i).ks.jobs = s.ks.jobs := by cases h : (s.mslot p m k).taken with | none => simp [State.complete, h] | some tk => cases p <;> simp [State.complete_ks s _ m k st r i tk h]
@[simp] theorem State.complete_ks_waitJobs (s : State) (p : Part) (m k : Nat) (st : Code) (r i : List Byte) : (s.complete p m k st r i).ks.waitJobs = s.ks.waitJobs := by cases h : (s.mslot p m k).taken with | none => simp [State.complete, h] | some tk => cases p <;> simp [State.complete_ks s _ m k st r i tk h]
@[simp] theorem State.complete_ks_windows (s : State) (p : Part) (m k : Nat) (st : Code) (r i : List Byte) : (s.complete p m k st r i).ks.windows = s.ks.windows := by cases h : (s.mslot p m k).taken with | none => simp [State.complete, h] | some tk => cases p <;> simp [State.complete_ks s _ m k st r i tk h]
@[simp] theorem State.complete_ks_bases (s : State) (p : Part) (m k : Nat) (st : Code) (r i : List Byte) : (s.complete p m k st r i).ks.bases = s.ks.bases := by cases h : (s.mslot p m k).taken with | none => simp [State.complete, h] | some tk => cases p <;> simp [State.complete_ks s _ m k st r i tk h]
@[simp] theorem State.complete_ks_staged (s : State) (p : Part) (m k : Nat) (st : Code) (r i : List Byte) : (s.complete p m k st r i).ks.staged = s.ks.staged := by cases h : (s.mslot p m k).taken with | none => simp [State.complete, h] | some tk => cases p <;> simp [State.complete_ks s _ m k st r i tk h]
@[simp] theorem State.complete_ks_ckpts (s : State) (p : Part) (m k : Nat) (st : Code) (r i : List Byte) : (s.complete p m k st r i).ks.ckpts = s.ks.ckpts := by cases h : (s.mslot p m k).taken with | none => simp [State.complete, h] | some tk => cases p <;> simp [State.complete_ks s _ m k st r i tk h]
@[simp] theorem State.complete_ks_fills (s : State) (p : Part) (m k : Nat) (st : Code) (r i : List Byte) : (s.complete p m k st r i).ks.fills = s.ks.fills := by cases h : (s.mslot p m k).taken with | none => simp [State.complete, h] | some tk => cases p <;> simp [State.complete_ks s _ m k st r i tk h]
@[simp] theorem State.complete_ks_cupChecks (s : State) (p : Part) (m k : Nat) (st : Code) (r i : List Byte) : (s.complete p m k st r i).ks.cupChecks = s.ks.cupChecks := by cases h : (s.mslot p m k).taken with | none => simp [State.complete, h] | some tk => cases p <;> simp [State.complete_ks s _ m k st r i tk h]
@[simp] theorem State.complete_ks_shardReads (s : State) (p : Part) (m k : Nat) (st : Code) (r i : List Byte) : (s.complete p m k st r i).ks.shardReads = s.ks.shardReads := by cases h : (s.mslot p m k).taken with | none => simp [State.complete, h] | some tk => cases p <;> simp [State.complete_ks s _ m k st r i tk h]
@[simp] theorem State.complete_ks_grants (s : State) (p : Part) (m k : Nat) (st : Code) (r i : List Byte) : (s.complete p m k st r i).ks.grants = s.ks.grants := by cases h : (s.mslot p m k).taken with | none => simp [State.complete, h] | some tk => cases p <;> simp [State.complete_ks s _ m k st r i tk h]
@[simp] theorem State.complete_ks_dspLeaves (s : State) (p : Part) (m k : Nat) (st : Code) (r i : List Byte) : (s.complete p m k st r i).ks.dspLeaves = s.ks.dspLeaves := by cases h : (s.mslot p m k).taken with | none => simp [State.complete, h] | some tk => cases p <;> simp [State.complete_ks s _ m k st r i tk h]
@[simp] theorem State.complete_ks_dspHomes (s : State) (p : Part) (m k : Nat) (st : Code) (r i : List Byte) : (s.complete p m k st r i).ks.dspHomes = s.ks.dspHomes := by cases h : (s.mslot p m k).taken with | none => simp [State.complete, h] | some tk => cases p <;> simp [State.complete_ks s _ m k st r i tk h]
@[simp] theorem State.complete_ks_dspEngine (s : State) (p : Part) (m k : Nat) (st : Code) (r i : List Byte) : (s.complete p m k st r i).ks.dspEngine = s.ks.dspEngine := by cases h : (s.mslot p m k).taken with | none => simp [State.complete, h] | some tk => cases p <;> simp [State.complete_ks s _ m k st r i tk h]
@[simp] theorem State.complete_ks_dspQ (s : State) (p : Part) (m k : Nat) (st : Code) (r i : List Byte) : (s.complete p m k st r i).ks.dspQ = s.ks.dspQ := by cases h : (s.mslot p m k).taken with | none => simp [State.complete, h] | some tk => cases p <;> simp [State.complete_ks s _ m k st r i tk h]
@[simp] theorem State.complete_ks_tieReroute (s : State) (p : Part) (m k : Nat) (st : Code) (r i : List Byte) : (s.complete p m k st r i).ks.tieReroute = s.ks.tieReroute := by cases h : (s.mslot p m k).taken with | none => simp [State.complete, h] | some tk => cases p <;> simp [State.complete_ks s _ m k st r i tk h]
@[simp] theorem State.complete_ks_objs (s : State) (p : Part) (m k : Nat) (st : Code) (r i : List Byte) : (s.complete p m k st r i).ks.objs = s.ks.objs := by cases h : (s.mslot p m k).taken with | none => simp [State.complete, h] | some tk => cases p <;> simp [State.complete_ks s _ m k st r i tk h]
@[simp] theorem State.complete_ks_heldTakes (s : State) (p : Part) (m k : Nat) (st : Code) (r i : List Byte) : (s.complete p m k st r i).ks.heldTakes = s.ks.heldTakes := by cases h : (s.mslot p m k).taken with | none => simp [State.complete, h] | some tk => cases p <;> simp [State.complete_ks s _ m k st r i tk h]
@[simp] theorem State.complete_ks_trackers (s : State) (p : Part) (m k : Nat) (st : Code) (r i : List Byte) : (s.complete p m k st r i).ks.trackers = s.ks.trackers := by cases h : (s.mslot p m k).taken with | none => simp [State.complete, h] | some tk => cases p <;> simp [State.complete_ks s _ m k st r i tk h]
@[simp] theorem State.complete_ks_sends (s : State) (p : Part) (m k : Nat) (st : Code) (r i : List Byte) : (s.complete p m k st r i).ks.sends = s.ks.sends := by cases h : (s.mslot p m k).taken with | none => simp [State.complete, h] | some tk => cases p <;> simp [State.complete_ks s _ m k st r i tk h]
@[simp] theorem State.complete_ks_writes (s : State) (p : Part) (m k : Nat) (st : Code) (r i : List Byte) : (s.complete p m k st r i).ks.writes = s.ks.writes := by cases h : (s.mslot p m k).taken with | none => simp [State.complete, h] | some tk => cases p <;> simp [State.complete_ks s _ m k st r i tk h]
@[simp] theorem State.complete_ks_takesDone (s : State) (p : Part) (m k : Nat) (st : Code) (r i : List Byte) : (s.complete p m k st r i).ks.takesDone = s.ks.takesDone := by cases h : (s.mslot p m k).taken with | none => simp [State.complete, h] | some tk => cases p <;> simp [State.complete_ks s _ m k st r i tk h]
@[simp] theorem State.complete_ks_mem (s : State) (p : Part) (m k : Nat) (st : Code) (r i : List Byte) : (s.complete p m k st r i).ks.mem = s.ks.mem := by cases h : (s.mslot p m k).taken with | none => simp [State.complete, h] | some tk => cases p <;> simp [State.complete_ks s _ m k st r i tk h]
@[simp] theorem State.complete_ks_ptpDiscard (s : State) (p : Part) (m k : Nat) (st : Code) (r i : List Byte) : (s.complete p m k st r i).ks.ptpDiscard = s.ks.ptpDiscard := by cases h : (s.mslot p m k).taken with | none => simp [State.complete, h] | some tk => cases p <;> simp [State.complete_ks s _ m k st r i tk h]
@[simp] theorem State.complete_ks_ppsDelay (s : State) (p : Part) (m k : Nat) (st : Code) (r i : List Byte) : (s.complete p m k st r i).ks.ppsDelay = s.ks.ppsDelay := by cases h : (s.mslot p m k).taken with | none => simp [State.complete, h] | some tk => cases p <;> simp [State.complete_ks s _ m k st r i tk h]
@[simp] theorem State.complete_ks_v2Waits (s : State) (p : Part) (m k : Nat) (st : Code) (r i : List Byte) : (s.complete p m k st r i).ks.v2Waits = s.ks.v2Waits := by cases h : (s.mslot p m k).taken with | none => simp [State.complete, h] | some tk => cases p <;> simp [State.complete_ks s _ m k st r i tk h]
@[simp] theorem State.complete_time (s : State) (p : Part) (m k : Nat) (st : Code) (r i : List Byte) (q : Part) : ((s.complete p m k st r i).pc q).time = (s.pc q).time := by
  cases h : (s.mslot p m k).taken with
  | none => simp [State.complete, h]
  | some tk =>
    cases q
    · exact (congrArg (fun b : Baxel => b.c.time) (State.complete_bx s p m k st r i tk h)).trans (by cases p <;> rfl)
    · exact (congrArg (fun b : Kresia => b.c.time) (State.complete_ks s p m k st r i tk h)).trans (by cases p <;> simp only [State.faultCode] <;> (try split_ifs) <;> rfl)
@[simp] theorem State.complete_stamp (s : State) (p : Part) (m k : Nat) (st : Code) (r i : List Byte) (q : Part) : ((s.complete p m k st r i).pc q).stamp = (s.pc q).stamp := by
  cases h : (s.mslot p m k).taken with
  | none => simp [State.complete, h]
  | some tk =>
    cases q
    · exact (congrArg (fun b : Baxel => b.c.stamp) (State.complete_bx s p m k st r i tk h)).trans (by cases p <;> rfl)
    · exact (congrArg (fun b : Kresia => b.c.stamp) (State.complete_ks s p m k st r i tk h)).trans (by cases p <;> simp only [State.faultCode] <;> (try split_ifs) <;> rfl)
@[simp] theorem State.complete_ctr (s : State) (p : Part) (m k : Nat) (st : Code) (r i : List Byte) (q : Part) : ((s.complete p m k st r i).pc q).ctr = (s.pc q).ctr := by
  cases h : (s.mslot p m k).taken with
  | none => simp [State.complete, h]
  | some tk =>
    cases q
    · exact (congrArg (fun b : Baxel => b.c.ctr) (State.complete_bx s p m k st r i tk h)).trans (by cases p <;> rfl)
    · exact (congrArg (fun b : Kresia => b.c.ctr) (State.complete_ks s p m k st r i tk h)).trans (by cases p <;> simp only [State.faultCode] <;> (try split_ifs) <;> rfl)
@[simp] theorem State.complete_link (s : State) (p : Part) (m k : Nat) (st : Code) (r i : List Byte) (q : Part) : ((s.complete p m k st r i).pc q).link = (s.pc q).link := by
  cases h : (s.mslot p m k).taken with
  | none => simp [State.complete, h]
  | some tk =>
    cases q
    · exact (congrArg (fun b : Baxel => b.c.link) (State.complete_bx s p m k st r i tk h)).trans (by cases p <;> rfl)
    · exact (congrArg (fun b : Kresia => b.c.link) (State.complete_ks s p m k st r i tk h)).trans (by cases p <;> simp only [State.faultCode] <;> (try split_ifs) <;> rfl)
@[simp] theorem State.complete_highs (s : State) (p : Part) (m k : Nat) (st : Code) (r i : List Byte) (q : Part) : ((s.complete p m k st r i).pc q).highs = (s.pc q).highs := by
  cases h : (s.mslot p m k).taken with
  | none => simp [State.complete, h]
  | some tk =>
    cases q
    · exact (congrArg (fun b : Baxel => b.c.highs) (State.complete_bx s p m k st r i tk h)).trans (by cases p <;> rfl)
    · exact (congrArg (fun b : Kresia => b.c.highs) (State.complete_ks s p m k st r i tk h)).trans (by cases p <;> simp only [State.faultCode] <;> (try split_ifs) <;> rfl)
@[simp] theorem State.queueEvent_bx_straps (s : State) (r : EventRec) : (s.queueEvent r).bx.straps = s.bx.straps := by unfold State.queueEvent; dsimp only; split_ifs <;> simp
@[simp] theorem State.queueEvent_bx_refclkLost (s : State) (r : EventRec) : (s.queueEvent r).bx.refclkLost = s.bx.refclkLost := by unfold State.queueEvent; dsimp only; split_ifs <;> simp
@[simp] theorem State.queueEvent_bx_fenced (s : State) (r : EventRec) : (s.queueEvent r).bx.fenced = s.bx.fenced := by unfold State.queueEvent; dsimp only; split_ifs <;> simp
@[simp] theorem State.queueEvent_bx_fenceSeq (s : State) (r : EventRec) : (s.queueEvent r).bx.fenceSeq = s.bx.fenceSeq := by unfold State.queueEvent; dsimp only; split_ifs <;> simp
@[simp] theorem State.queueEvent_bx_prior (s : State) (r : EventRec) : (s.queueEvent r).bx.prior = s.bx.prior := by unfold State.queueEvent; dsimp only; split_ifs <;> simp
@[simp] theorem State.queueEvent_bx_reportSeq (s : State) (r : EventRec) : (s.queueEvent r).bx.reportSeq = s.bx.reportSeq := by unfold State.queueEvent; dsimp only; split_ifs <;> simp
@[simp] theorem State.queueEvent_bx_tenants (s : State) (r : EventRec) : (s.queueEvent r).bx.tenants = s.bx.tenants := by unfold State.queueEvent; dsimp only; split_ifs <;> simp
@[simp] theorem State.queueEvent_bx_slots (s : State) (r : EventRec) : (s.queueEvent r).bx.slots = s.bx.slots := by unfold State.queueEvent; dsimp only; split_ifs <;> simp
@[simp] theorem State.queueEvent_bx_objs (s : State) (r : EventRec) : (s.queueEvent r).bx.objs = s.bx.objs := by unfold State.queueEvent; dsimp only; split_ifs <;> simp
@[simp] theorem State.queueEvent_bx_heldTakes (s : State) (r : EventRec) : (s.queueEvent r).bx.heldTakes = s.bx.heldTakes := by unfold State.queueEvent; dsimp only; split_ifs <;> simp
@[simp] theorem State.queueEvent_bx_trackers (s : State) (r : EventRec) : (s.queueEvent r).bx.trackers = s.bx.trackers := by unfold State.queueEvent; dsimp only; split_ifs <;> simp
@[simp] theorem State.queueEvent_bx_sends (s : State) (r : EventRec) : (s.queueEvent r).bx.sends = s.bx.sends := by unfold State.queueEvent; dsimp only; split_ifs <;> simp
@[simp] theorem State.queueEvent_bx_writes (s : State) (r : EventRec) : (s.queueEvent r).bx.writes = s.bx.writes := by unfold State.queueEvent; dsimp only; split_ifs <;> simp
@[simp] theorem State.queueEvent_bx_reads (s : State) (r : EventRec) : (s.queueEvent r).bx.reads = s.bx.reads := by unfold State.queueEvent; dsimp only; split_ifs <;> simp
@[simp] theorem State.queueEvent_bx_v2Waits (s : State) (r : EventRec) : (s.queueEvent r).bx.v2Waits = s.bx.v2Waits := by unfold State.queueEvent; dsimp only; split_ifs <;> simp
@[simp] theorem State.queueEvent_bx_waitSends (s : State) (r : EventRec) : (s.queueEvent r).bx.waitSends = s.bx.waitSends := by unfold State.queueEvent; dsimp only; split_ifs <;> simp
@[simp] theorem State.queueEvent_bx_parts (s : State) (r : EventRec) : (s.queueEvent r).bx.parts = s.bx.parts := by unfold State.queueEvent; dsimp only; split_ifs <;> simp
@[simp] theorem State.queueEvent_bx_nextPart (s : State) (r : EventRec) : (s.queueEvent r).bx.nextPart = s.bx.nextPart := by unfold State.queueEvent; dsimp only; split_ifs <;> simp
@[simp] theorem State.queueEvent_bx_readJobs (s : State) (r : EventRec) : (s.queueEvent r).bx.readJobs = s.bx.readJobs := by unfold State.queueEvent; dsimp only; split_ifs <;> simp
@[simp] theorem State.queueEvent_bx_nextJob (s : State) (r : EventRec) : (s.queueEvent r).bx.nextJob = s.bx.nextJob := by unfold State.queueEvent; dsimp only; split_ifs <;> simp
@[simp] theorem State.queueEvent_bx_bases (s : State) (r : EventRec) : (s.queueEvent r).bx.bases = s.bx.bases := by unfold State.queueEvent; dsimp only; split_ifs <;> simp
@[simp] theorem State.queueEvent_ks_build (s : State) (r : EventRec) : (s.queueEvent r).ks.build = s.ks.build := by unfold State.queueEvent; dsimp only; split_ifs <;> simp
@[simp] theorem State.queueEvent_ks_lostPlanes (s : State) (r : EventRec) : (s.queueEvent r).ks.lostPlanes = s.ks.lostPlanes := by unfold State.queueEvent; dsimp only; split_ifs <;> simp
@[simp] theorem State.queueEvent_ks_fences (s : State) (r : EventRec) : (s.queueEvent r).ks.fences = s.ks.fences := by unfold State.queueEvent; dsimp only; split_ifs <;> simp
@[simp] theorem State.queueEvent_ks_strapFb (s : State) (r : EventRec) : (s.queueEvent r).ks.strapFb = s.ks.strapFb := by unfold State.queueEvent; dsimp only; split_ifs <;> simp
@[simp] theorem State.queueEvent_ks_pcieEn (s : State) (r : EventRec) : (s.queueEvent r).ks.pcieEn = s.ks.pcieEn := by unfold State.queueEvent; dsimp only; split_ifs <;> simp
@[simp] theorem State.queueEvent_ks_pins (s : State) (r : EventRec) : (s.queueEvent r).ks.pins = s.ks.pins := by unfold State.queueEvent; dsimp only; split_ifs <;> simp
@[simp] theorem State.queueEvent_ks_tripped (s : State) (r : EventRec) : (s.queueEvent r).ks.tripped = s.ks.tripped := by unfold State.queueEvent; dsimp only; split_ifs <;> simp
@[simp] theorem State.queueEvent_ks_memFailed (s : State) (r : EventRec) : (s.queueEvent r).ks.memFailed = s.ks.memFailed := by unfold State.queueEvent; dsimp only; split_ifs <;> simp
@[simp] theorem State.queueEvent_ks_memErrors (s : State) (r : EventRec) : (s.queueEvent r).ks.memErrors = s.ks.memErrors := by unfold State.queueEvent; dsimp only; split_ifs <;> simp
@[simp] theorem State.queueEvent_ks_brimFailed (s : State) (r : EventRec) : (s.queueEvent r).ks.brimFailed = s.ks.brimFailed := by unfold State.queueEvent; dsimp only; split_ifs <;> simp
@[simp] theorem State.queueEvent_ks_coolantSince (s : State) (r : EventRec) : (s.queueEvent r).ks.coolantSince = s.ks.coolantSince := by unfold State.queueEvent; dsimp only; split_ifs <;> simp
@[simp] theorem State.queueEvent_ks_coolantTold (s : State) (r : EventRec) : (s.queueEvent r).ks.coolantTold = s.ks.coolantTold := by unfold State.queueEvent; dsimp only; split_ifs <;> simp
@[simp] theorem State.queueEvent_ks_lastCoolant (s : State) (r : EventRec) : (s.queueEvent r).ks.lastCoolant = s.ks.lastCoolant := by unfold State.queueEvent; dsimp only; split_ifs <;> simp
@[simp] theorem State.queueEvent_ks_lastThrottle (s : State) (r : EventRec) : (s.queueEvent r).ks.lastThrottle = s.ks.lastThrottle := by unfold State.queueEvent; dsimp only; split_ifs <;> simp
@[simp] theorem State.queueEvent_ks_lastAlive (s : State) (r : EventRec) : (s.queueEvent r).ks.lastAlive = s.ks.lastAlive := by unfold State.queueEvent; dsimp only; split_ifs <;> simp
@[simp] theorem State.queueEvent_ks_lastResend (s : State) (r : EventRec) : (s.queueEvent r).ks.lastResend = s.ks.lastResend := by unfold State.queueEvent; dsimp only; split_ifs <;> simp
@[simp] theorem State.queueEvent_ks_admitted (s : State) (r : EventRec) : (s.queueEvent r).ks.admitted = s.ks.admitted := by unfold State.queueEvent; dsimp only; split_ifs <;> simp
@[simp] theorem State.queueEvent_ks_aliveTold (s : State) (r : EventRec) : (s.queueEvent r).ks.aliveTold = s.ks.aliveTold := by unfold State.queueEvent; dsimp only; split_ifs <;> simp
@[simp] theorem State.queueEvent_ks_doms (s : State) (r : EventRec) : (s.queueEvent r).ks.doms = s.ks.doms := by unfold State.queueEvent; dsimp only; split_ifs <;> simp
@[simp] theorem State.queueEvent_ks_leafRecs (s : State) (r : EventRec) : (s.queueEvent r).ks.leafRecs = s.ks.leafRecs := by unfold State.queueEvent; dsimp only; split_ifs <;> simp
@[simp] theorem State.queueEvent_ks_chunks (s : State) (r : EventRec) : (s.queueEvent r).ks.chunks = s.ks.chunks := by unfold State.queueEvent; dsimp only; split_ifs <;> simp
@[simp] theorem State.queueEvent_ks_kept (s : State) (r : EventRec) : (s.queueEvent r).ks.kept = s.ks.kept := by unfold State.queueEvent; dsimp only; split_ifs <;> simp
@[simp] theorem State.queueEvent_ks_shards (s : State) (r : EventRec) : (s.queueEvent r).ks.shards = s.ks.shards := by unfold State.queueEvent; dsimp only; split_ifs <;> simp
@[simp] theorem State.queueEvent_ks_blockQ (s : State) (r : EventRec) : (s.queueEvent r).ks.blockQ = s.ks.blockQ := by unfold State.queueEvent; dsimp only; split_ifs <;> simp
@[simp] theorem State.queueEvent_ks_jobs (s : State) (r : EventRec) : (s.queueEvent r).ks.jobs = s.ks.jobs := by unfold State.queueEvent; dsimp only; split_ifs <;> simp
@[simp] theorem State.queueEvent_ks_waitJobs (s : State) (r : EventRec) : (s.queueEvent r).ks.waitJobs = s.ks.waitJobs := by unfold State.queueEvent; dsimp only; split_ifs <;> simp
@[simp] theorem State.queueEvent_ks_windows (s : State) (r : EventRec) : (s.queueEvent r).ks.windows = s.ks.windows := by unfold State.queueEvent; dsimp only; split_ifs <;> simp
@[simp] theorem State.queueEvent_ks_bases (s : State) (r : EventRec) : (s.queueEvent r).ks.bases = s.ks.bases := by unfold State.queueEvent; dsimp only; split_ifs <;> simp
@[simp] theorem State.queueEvent_ks_staged (s : State) (r : EventRec) : (s.queueEvent r).ks.staged = s.ks.staged := by unfold State.queueEvent; dsimp only; split_ifs <;> simp
@[simp] theorem State.queueEvent_ks_ckpts (s : State) (r : EventRec) : (s.queueEvent r).ks.ckpts = s.ks.ckpts := by unfold State.queueEvent; dsimp only; split_ifs <;> simp
@[simp] theorem State.queueEvent_ks_fills (s : State) (r : EventRec) : (s.queueEvent r).ks.fills = s.ks.fills := by unfold State.queueEvent; dsimp only; split_ifs <;> simp
@[simp] theorem State.queueEvent_ks_cupChecks (s : State) (r : EventRec) : (s.queueEvent r).ks.cupChecks = s.ks.cupChecks := by unfold State.queueEvent; dsimp only; split_ifs <;> simp
@[simp] theorem State.queueEvent_ks_shardReads (s : State) (r : EventRec) : (s.queueEvent r).ks.shardReads = s.ks.shardReads := by unfold State.queueEvent; dsimp only; split_ifs <;> simp
@[simp] theorem State.queueEvent_ks_grants (s : State) (r : EventRec) : (s.queueEvent r).ks.grants = s.ks.grants := by unfold State.queueEvent; dsimp only; split_ifs <;> simp
@[simp] theorem State.queueEvent_ks_dspLeaves (s : State) (r : EventRec) : (s.queueEvent r).ks.dspLeaves = s.ks.dspLeaves := by unfold State.queueEvent; dsimp only; split_ifs <;> simp
@[simp] theorem State.queueEvent_ks_dspHomes (s : State) (r : EventRec) : (s.queueEvent r).ks.dspHomes = s.ks.dspHomes := by unfold State.queueEvent; dsimp only; split_ifs <;> simp
@[simp] theorem State.queueEvent_ks_dspEngine (s : State) (r : EventRec) : (s.queueEvent r).ks.dspEngine = s.ks.dspEngine := by unfold State.queueEvent; dsimp only; split_ifs <;> simp
@[simp] theorem State.queueEvent_ks_dspQ (s : State) (r : EventRec) : (s.queueEvent r).ks.dspQ = s.ks.dspQ := by unfold State.queueEvent; dsimp only; split_ifs <;> simp
@[simp] theorem State.queueEvent_ks_tieReroute (s : State) (r : EventRec) : (s.queueEvent r).ks.tieReroute = s.ks.tieReroute := by unfold State.queueEvent; dsimp only; split_ifs <;> simp
@[simp] theorem State.queueEvent_ks_objs (s : State) (r : EventRec) : (s.queueEvent r).ks.objs = s.ks.objs := by unfold State.queueEvent; dsimp only; split_ifs <;> simp
@[simp] theorem State.queueEvent_ks_heldTakes (s : State) (r : EventRec) : (s.queueEvent r).ks.heldTakes = s.ks.heldTakes := by unfold State.queueEvent; dsimp only; split_ifs <;> simp
@[simp] theorem State.queueEvent_ks_trackers (s : State) (r : EventRec) : (s.queueEvent r).ks.trackers = s.ks.trackers := by unfold State.queueEvent; dsimp only; split_ifs <;> simp
@[simp] theorem State.queueEvent_ks_sends (s : State) (r : EventRec) : (s.queueEvent r).ks.sends = s.ks.sends := by unfold State.queueEvent; dsimp only; split_ifs <;> simp
@[simp] theorem State.queueEvent_ks_writes (s : State) (r : EventRec) : (s.queueEvent r).ks.writes = s.ks.writes := by unfold State.queueEvent; dsimp only; split_ifs <;> simp
@[simp] theorem State.queueEvent_ks_takesDone (s : State) (r : EventRec) : (s.queueEvent r).ks.takesDone = s.ks.takesDone := by unfold State.queueEvent; dsimp only; split_ifs <;> simp
@[simp] theorem State.queueEvent_ks_mem (s : State) (r : EventRec) : (s.queueEvent r).ks.mem = s.ks.mem := by unfold State.queueEvent; dsimp only; split_ifs <;> simp
@[simp] theorem State.queueEvent_ks_ptpDiscard (s : State) (r : EventRec) : (s.queueEvent r).ks.ptpDiscard = s.ks.ptpDiscard := by unfold State.queueEvent; dsimp only; split_ifs <;> simp
@[simp] theorem State.queueEvent_ks_ppsDelay (s : State) (r : EventRec) : (s.queueEvent r).ks.ppsDelay = s.ks.ppsDelay := by unfold State.queueEvent; dsimp only; split_ifs <;> simp
@[simp] theorem State.queueEvent_ks_v2Waits (s : State) (r : EventRec) : (s.queueEvent r).ks.v2Waits = s.ks.v2Waits := by unfold State.queueEvent; dsimp only; split_ifs <;> simp
@[simp] theorem State.queueEvent_time (s : State) (r : EventRec) (q : Part) : ((s.queueEvent r).pc q).time = (s.pc q).time := by unfold State.queueEvent; dsimp only; split_ifs <;> cases q <;> simp [State.pc, State.modKs] <;> rfl
@[simp] theorem State.queueEvent_stamp (s : State) (r : EventRec) (q : Part) : ((s.queueEvent r).pc q).stamp = (s.pc q).stamp := by unfold State.queueEvent; dsimp only; split_ifs <;> cases q <;> simp [State.pc, State.modKs] <;> rfl
@[simp] theorem State.queueEvent_fw (s : State) (r : EventRec) (q : Part) : ((s.queueEvent r).pc q).fw = (s.pc q).fw := by unfold State.queueEvent; dsimp only; split_ifs <;> cases q <;> simp [State.pc, State.modKs] <;> rfl
@[simp] theorem State.queueEvent_link (s : State) (r : EventRec) (q : Part) : ((s.queueEvent r).pc q).link = (s.pc q).link := by unfold State.queueEvent; dsimp only; split_ifs <;> cases q <;> simp [State.pc, State.modKs] <;> rfl
@[simp] theorem State.queueEvent_highs (s : State) (r : EventRec) (q : Part) : ((s.queueEvent r).pc q).highs = (s.pc q).highs := by unfold State.queueEvent; dsimp only; split_ifs <;> cases q <;> simp [State.pc, State.modKs] <;> rfl
@[simp] theorem State.report_bx_straps (s : State) (p : Part) (code : Code) (dt : List Nat) (port : Nat) (sub dom : Option Nat) : (s.report p code dt port sub dom).bx.straps = s.bx.straps := by unfold State.report; cases p <;> simp
@[simp] theorem State.report_bx_refclkLost (s : State) (p : Part) (code : Code) (dt : List Nat) (port : Nat) (sub dom : Option Nat) : (s.report p code dt port sub dom).bx.refclkLost = s.bx.refclkLost := by unfold State.report; cases p <;> simp
@[simp] theorem State.report_bx_fenced (s : State) (p : Part) (code : Code) (dt : List Nat) (port : Nat) (sub dom : Option Nat) : (s.report p code dt port sub dom).bx.fenced = s.bx.fenced := by unfold State.report; cases p <;> simp
@[simp] theorem State.report_bx_fenceSeq (s : State) (p : Part) (code : Code) (dt : List Nat) (port : Nat) (sub dom : Option Nat) : (s.report p code dt port sub dom).bx.fenceSeq = s.bx.fenceSeq := by unfold State.report; cases p <;> simp
@[simp] theorem State.report_bx_prior (s : State) (p : Part) (code : Code) (dt : List Nat) (port : Nat) (sub dom : Option Nat) : (s.report p code dt port sub dom).bx.prior = s.bx.prior := by unfold State.report; cases p <;> simp
@[simp] theorem State.report_bx_tenants (s : State) (p : Part) (code : Code) (dt : List Nat) (port : Nat) (sub dom : Option Nat) : (s.report p code dt port sub dom).bx.tenants = s.bx.tenants := by unfold State.report; cases p <;> simp
@[simp] theorem State.report_bx_slots (s : State) (p : Part) (code : Code) (dt : List Nat) (port : Nat) (sub dom : Option Nat) : (s.report p code dt port sub dom).bx.slots = s.bx.slots := by unfold State.report; cases p <;> simp
@[simp] theorem State.report_bx_objs (s : State) (p : Part) (code : Code) (dt : List Nat) (port : Nat) (sub dom : Option Nat) : (s.report p code dt port sub dom).bx.objs = s.bx.objs := by unfold State.report; cases p <;> simp
@[simp] theorem State.report_bx_heldTakes (s : State) (p : Part) (code : Code) (dt : List Nat) (port : Nat) (sub dom : Option Nat) : (s.report p code dt port sub dom).bx.heldTakes = s.bx.heldTakes := by unfold State.report; cases p <;> simp
@[simp] theorem State.report_bx_trackers (s : State) (p : Part) (code : Code) (dt : List Nat) (port : Nat) (sub dom : Option Nat) : (s.report p code dt port sub dom).bx.trackers = s.bx.trackers := by unfold State.report; cases p <;> simp
@[simp] theorem State.report_bx_sends (s : State) (p : Part) (code : Code) (dt : List Nat) (port : Nat) (sub dom : Option Nat) : (s.report p code dt port sub dom).bx.sends = s.bx.sends := by unfold State.report; cases p <;> simp
@[simp] theorem State.report_bx_writes (s : State) (p : Part) (code : Code) (dt : List Nat) (port : Nat) (sub dom : Option Nat) : (s.report p code dt port sub dom).bx.writes = s.bx.writes := by unfold State.report; cases p <;> simp
@[simp] theorem State.report_bx_reads (s : State) (p : Part) (code : Code) (dt : List Nat) (port : Nat) (sub dom : Option Nat) : (s.report p code dt port sub dom).bx.reads = s.bx.reads := by unfold State.report; cases p <;> simp
@[simp] theorem State.report_bx_v2Waits (s : State) (p : Part) (code : Code) (dt : List Nat) (port : Nat) (sub dom : Option Nat) : (s.report p code dt port sub dom).bx.v2Waits = s.bx.v2Waits := by unfold State.report; cases p <;> simp
@[simp] theorem State.report_bx_waitSends (s : State) (p : Part) (code : Code) (dt : List Nat) (port : Nat) (sub dom : Option Nat) : (s.report p code dt port sub dom).bx.waitSends = s.bx.waitSends := by unfold State.report; cases p <;> simp
@[simp] theorem State.report_bx_parts (s : State) (p : Part) (code : Code) (dt : List Nat) (port : Nat) (sub dom : Option Nat) : (s.report p code dt port sub dom).bx.parts = s.bx.parts := by unfold State.report; cases p <;> simp
@[simp] theorem State.report_bx_nextPart (s : State) (p : Part) (code : Code) (dt : List Nat) (port : Nat) (sub dom : Option Nat) : (s.report p code dt port sub dom).bx.nextPart = s.bx.nextPart := by unfold State.report; cases p <;> simp
@[simp] theorem State.report_bx_readJobs (s : State) (p : Part) (code : Code) (dt : List Nat) (port : Nat) (sub dom : Option Nat) : (s.report p code dt port sub dom).bx.readJobs = s.bx.readJobs := by unfold State.report; cases p <;> simp
@[simp] theorem State.report_bx_nextJob (s : State) (p : Part) (code : Code) (dt : List Nat) (port : Nat) (sub dom : Option Nat) : (s.report p code dt port sub dom).bx.nextJob = s.bx.nextJob := by unfold State.report; cases p <;> simp
@[simp] theorem State.report_bx_bases (s : State) (p : Part) (code : Code) (dt : List Nat) (port : Nat) (sub dom : Option Nat) : (s.report p code dt port sub dom).bx.bases = s.bx.bases := by unfold State.report; cases p <;> simp
@[simp] theorem State.report_ks_build (s : State) (p : Part) (code : Code) (dt : List Nat) (port : Nat) (sub dom : Option Nat) : (s.report p code dt port sub dom).ks.build = s.ks.build := by unfold State.report; cases p <;> simp
@[simp] theorem State.report_ks_lostPlanes (s : State) (p : Part) (code : Code) (dt : List Nat) (port : Nat) (sub dom : Option Nat) : (s.report p code dt port sub dom).ks.lostPlanes = s.ks.lostPlanes := by unfold State.report; cases p <;> simp
@[simp] theorem State.report_ks_fences (s : State) (p : Part) (code : Code) (dt : List Nat) (port : Nat) (sub dom : Option Nat) : (s.report p code dt port sub dom).ks.fences = s.ks.fences := by unfold State.report; cases p <;> simp
@[simp] theorem State.report_ks_strapFb (s : State) (p : Part) (code : Code) (dt : List Nat) (port : Nat) (sub dom : Option Nat) : (s.report p code dt port sub dom).ks.strapFb = s.ks.strapFb := by unfold State.report; cases p <;> simp
@[simp] theorem State.report_ks_pcieEn (s : State) (p : Part) (code : Code) (dt : List Nat) (port : Nat) (sub dom : Option Nat) : (s.report p code dt port sub dom).ks.pcieEn = s.ks.pcieEn := by unfold State.report; cases p <;> simp
@[simp] theorem State.report_ks_pins (s : State) (p : Part) (code : Code) (dt : List Nat) (port : Nat) (sub dom : Option Nat) : (s.report p code dt port sub dom).ks.pins = s.ks.pins := by unfold State.report; cases p <;> simp
@[simp] theorem State.report_ks_tripped (s : State) (p : Part) (code : Code) (dt : List Nat) (port : Nat) (sub dom : Option Nat) : (s.report p code dt port sub dom).ks.tripped = s.ks.tripped := by unfold State.report; cases p <;> simp
@[simp] theorem State.report_ks_memFailed (s : State) (p : Part) (code : Code) (dt : List Nat) (port : Nat) (sub dom : Option Nat) : (s.report p code dt port sub dom).ks.memFailed = s.ks.memFailed := by unfold State.report; cases p <;> simp
@[simp] theorem State.report_ks_memErrors (s : State) (p : Part) (code : Code) (dt : List Nat) (port : Nat) (sub dom : Option Nat) : (s.report p code dt port sub dom).ks.memErrors = s.ks.memErrors := by unfold State.report; cases p <;> simp
@[simp] theorem State.report_ks_brimFailed (s : State) (p : Part) (code : Code) (dt : List Nat) (port : Nat) (sub dom : Option Nat) : (s.report p code dt port sub dom).ks.brimFailed = s.ks.brimFailed := by unfold State.report; cases p <;> simp
@[simp] theorem State.report_ks_coolantSince (s : State) (p : Part) (code : Code) (dt : List Nat) (port : Nat) (sub dom : Option Nat) : (s.report p code dt port sub dom).ks.coolantSince = s.ks.coolantSince := by unfold State.report; cases p <;> simp
@[simp] theorem State.report_ks_coolantTold (s : State) (p : Part) (code : Code) (dt : List Nat) (port : Nat) (sub dom : Option Nat) : (s.report p code dt port sub dom).ks.coolantTold = s.ks.coolantTold := by unfold State.report; cases p <;> simp
@[simp] theorem State.report_ks_lastCoolant (s : State) (p : Part) (code : Code) (dt : List Nat) (port : Nat) (sub dom : Option Nat) : (s.report p code dt port sub dom).ks.lastCoolant = s.ks.lastCoolant := by unfold State.report; cases p <;> simp
@[simp] theorem State.report_ks_lastThrottle (s : State) (p : Part) (code : Code) (dt : List Nat) (port : Nat) (sub dom : Option Nat) : (s.report p code dt port sub dom).ks.lastThrottle = s.ks.lastThrottle := by unfold State.report; cases p <;> simp
@[simp] theorem State.report_ks_lastAlive (s : State) (p : Part) (code : Code) (dt : List Nat) (port : Nat) (sub dom : Option Nat) : (s.report p code dt port sub dom).ks.lastAlive = s.ks.lastAlive := by unfold State.report; cases p <;> simp
@[simp] theorem State.report_ks_lastResend (s : State) (p : Part) (code : Code) (dt : List Nat) (port : Nat) (sub dom : Option Nat) : (s.report p code dt port sub dom).ks.lastResend = s.ks.lastResend := by unfold State.report; cases p <;> simp
@[simp] theorem State.report_ks_admitted (s : State) (p : Part) (code : Code) (dt : List Nat) (port : Nat) (sub dom : Option Nat) : (s.report p code dt port sub dom).ks.admitted = s.ks.admitted := by unfold State.report; cases p <;> simp
@[simp] theorem State.report_ks_aliveTold (s : State) (p : Part) (code : Code) (dt : List Nat) (port : Nat) (sub dom : Option Nat) : (s.report p code dt port sub dom).ks.aliveTold = s.ks.aliveTold := by unfold State.report; cases p <;> simp
@[simp] theorem State.report_ks_doms (s : State) (p : Part) (code : Code) (dt : List Nat) (port : Nat) (sub dom : Option Nat) : (s.report p code dt port sub dom).ks.doms = s.ks.doms := by unfold State.report; cases p <;> simp
@[simp] theorem State.report_ks_leafRecs (s : State) (p : Part) (code : Code) (dt : List Nat) (port : Nat) (sub dom : Option Nat) : (s.report p code dt port sub dom).ks.leafRecs = s.ks.leafRecs := by unfold State.report; cases p <;> simp
@[simp] theorem State.report_ks_chunks (s : State) (p : Part) (code : Code) (dt : List Nat) (port : Nat) (sub dom : Option Nat) : (s.report p code dt port sub dom).ks.chunks = s.ks.chunks := by unfold State.report; cases p <;> simp
@[simp] theorem State.report_ks_kept (s : State) (p : Part) (code : Code) (dt : List Nat) (port : Nat) (sub dom : Option Nat) : (s.report p code dt port sub dom).ks.kept = s.ks.kept := by unfold State.report; cases p <;> simp
@[simp] theorem State.report_ks_shards (s : State) (p : Part) (code : Code) (dt : List Nat) (port : Nat) (sub dom : Option Nat) : (s.report p code dt port sub dom).ks.shards = s.ks.shards := by unfold State.report; cases p <;> simp
@[simp] theorem State.report_ks_blockQ (s : State) (p : Part) (code : Code) (dt : List Nat) (port : Nat) (sub dom : Option Nat) : (s.report p code dt port sub dom).ks.blockQ = s.ks.blockQ := by unfold State.report; cases p <;> simp
@[simp] theorem State.report_ks_jobs (s : State) (p : Part) (code : Code) (dt : List Nat) (port : Nat) (sub dom : Option Nat) : (s.report p code dt port sub dom).ks.jobs = s.ks.jobs := by unfold State.report; cases p <;> simp
@[simp] theorem State.report_ks_waitJobs (s : State) (p : Part) (code : Code) (dt : List Nat) (port : Nat) (sub dom : Option Nat) : (s.report p code dt port sub dom).ks.waitJobs = s.ks.waitJobs := by unfold State.report; cases p <;> simp
@[simp] theorem State.report_ks_windows (s : State) (p : Part) (code : Code) (dt : List Nat) (port : Nat) (sub dom : Option Nat) : (s.report p code dt port sub dom).ks.windows = s.ks.windows := by unfold State.report; cases p <;> simp
@[simp] theorem State.report_ks_bases (s : State) (p : Part) (code : Code) (dt : List Nat) (port : Nat) (sub dom : Option Nat) : (s.report p code dt port sub dom).ks.bases = s.ks.bases := by unfold State.report; cases p <;> simp
@[simp] theorem State.report_ks_staged (s : State) (p : Part) (code : Code) (dt : List Nat) (port : Nat) (sub dom : Option Nat) : (s.report p code dt port sub dom).ks.staged = s.ks.staged := by unfold State.report; cases p <;> simp
@[simp] theorem State.report_ks_ckpts (s : State) (p : Part) (code : Code) (dt : List Nat) (port : Nat) (sub dom : Option Nat) : (s.report p code dt port sub dom).ks.ckpts = s.ks.ckpts := by unfold State.report; cases p <;> simp
@[simp] theorem State.report_ks_fills (s : State) (p : Part) (code : Code) (dt : List Nat) (port : Nat) (sub dom : Option Nat) : (s.report p code dt port sub dom).ks.fills = s.ks.fills := by unfold State.report; cases p <;> simp
@[simp] theorem State.report_ks_cupChecks (s : State) (p : Part) (code : Code) (dt : List Nat) (port : Nat) (sub dom : Option Nat) : (s.report p code dt port sub dom).ks.cupChecks = s.ks.cupChecks := by unfold State.report; cases p <;> simp
@[simp] theorem State.report_ks_shardReads (s : State) (p : Part) (code : Code) (dt : List Nat) (port : Nat) (sub dom : Option Nat) : (s.report p code dt port sub dom).ks.shardReads = s.ks.shardReads := by unfold State.report; cases p <;> simp
@[simp] theorem State.report_ks_grants (s : State) (p : Part) (code : Code) (dt : List Nat) (port : Nat) (sub dom : Option Nat) : (s.report p code dt port sub dom).ks.grants = s.ks.grants := by unfold State.report; cases p <;> simp
@[simp] theorem State.report_ks_dspLeaves (s : State) (p : Part) (code : Code) (dt : List Nat) (port : Nat) (sub dom : Option Nat) : (s.report p code dt port sub dom).ks.dspLeaves = s.ks.dspLeaves := by unfold State.report; cases p <;> simp
@[simp] theorem State.report_ks_dspHomes (s : State) (p : Part) (code : Code) (dt : List Nat) (port : Nat) (sub dom : Option Nat) : (s.report p code dt port sub dom).ks.dspHomes = s.ks.dspHomes := by unfold State.report; cases p <;> simp
@[simp] theorem State.report_ks_dspEngine (s : State) (p : Part) (code : Code) (dt : List Nat) (port : Nat) (sub dom : Option Nat) : (s.report p code dt port sub dom).ks.dspEngine = s.ks.dspEngine := by unfold State.report; cases p <;> simp
@[simp] theorem State.report_ks_dspQ (s : State) (p : Part) (code : Code) (dt : List Nat) (port : Nat) (sub dom : Option Nat) : (s.report p code dt port sub dom).ks.dspQ = s.ks.dspQ := by unfold State.report; cases p <;> simp
@[simp] theorem State.report_ks_tieReroute (s : State) (p : Part) (code : Code) (dt : List Nat) (port : Nat) (sub dom : Option Nat) : (s.report p code dt port sub dom).ks.tieReroute = s.ks.tieReroute := by unfold State.report; cases p <;> simp
@[simp] theorem State.report_ks_objs (s : State) (p : Part) (code : Code) (dt : List Nat) (port : Nat) (sub dom : Option Nat) : (s.report p code dt port sub dom).ks.objs = s.ks.objs := by unfold State.report; cases p <;> simp
@[simp] theorem State.report_ks_heldTakes (s : State) (p : Part) (code : Code) (dt : List Nat) (port : Nat) (sub dom : Option Nat) : (s.report p code dt port sub dom).ks.heldTakes = s.ks.heldTakes := by unfold State.report; cases p <;> simp
@[simp] theorem State.report_ks_trackers (s : State) (p : Part) (code : Code) (dt : List Nat) (port : Nat) (sub dom : Option Nat) : (s.report p code dt port sub dom).ks.trackers = s.ks.trackers := by unfold State.report; cases p <;> simp
@[simp] theorem State.report_ks_sends (s : State) (p : Part) (code : Code) (dt : List Nat) (port : Nat) (sub dom : Option Nat) : (s.report p code dt port sub dom).ks.sends = s.ks.sends := by unfold State.report; cases p <;> simp
@[simp] theorem State.report_ks_writes (s : State) (p : Part) (code : Code) (dt : List Nat) (port : Nat) (sub dom : Option Nat) : (s.report p code dt port sub dom).ks.writes = s.ks.writes := by unfold State.report; cases p <;> simp
@[simp] theorem State.report_ks_takesDone (s : State) (p : Part) (code : Code) (dt : List Nat) (port : Nat) (sub dom : Option Nat) : (s.report p code dt port sub dom).ks.takesDone = s.ks.takesDone := by unfold State.report; cases p <;> simp
@[simp] theorem State.report_ks_mem (s : State) (p : Part) (code : Code) (dt : List Nat) (port : Nat) (sub dom : Option Nat) : (s.report p code dt port sub dom).ks.mem = s.ks.mem := by unfold State.report; cases p <;> simp
@[simp] theorem State.report_ks_ptpDiscard (s : State) (p : Part) (code : Code) (dt : List Nat) (port : Nat) (sub dom : Option Nat) : (s.report p code dt port sub dom).ks.ptpDiscard = s.ks.ptpDiscard := by unfold State.report; cases p <;> simp
@[simp] theorem State.report_ks_ppsDelay (s : State) (p : Part) (code : Code) (dt : List Nat) (port : Nat) (sub dom : Option Nat) : (s.report p code dt port sub dom).ks.ppsDelay = s.ks.ppsDelay := by unfold State.report; cases p <;> simp
@[simp] theorem State.report_ks_v2Waits (s : State) (p : Part) (code : Code) (dt : List Nat) (port : Nat) (sub dom : Option Nat) : (s.report p code dt port sub dom).ks.v2Waits = s.ks.v2Waits := by unfold State.report; cases p <;> simp
@[simp] theorem State.report_time (s : State) (p : Part) (code : Code) (dt : List Nat) (port : Nat) (sub dom : Option Nat) (q : Part) : ((s.report p code dt port sub dom).pc q).time = (s.pc q).time := by cases p <;> first | exact State.queueEvent_time s _ _ | (cases q <;> rfl)
@[simp] theorem State.report_stamp (s : State) (p : Part) (code : Code) (dt : List Nat) (port : Nat) (sub dom : Option Nat) (q : Part) : ((s.report p code dt port sub dom).pc q).stamp = (s.pc q).stamp := by cases p <;> first | exact State.queueEvent_stamp s _ _ | (cases q <;> rfl)
@[simp] theorem State.report_fw (s : State) (p : Part) (code : Code) (dt : List Nat) (port : Nat) (sub dom : Option Nat) (q : Part) : ((s.report p code dt port sub dom).pc q).fw = (s.pc q).fw := by cases p <;> first | exact State.queueEvent_fw s _ _ | (cases q <;> rfl)
@[simp] theorem State.report_link (s : State) (p : Part) (code : Code) (dt : List Nat) (port : Nat) (sub dom : Option Nat) (q : Part) : ((s.report p code dt port sub dom).pc q).link = (s.pc q).link := by cases p <;> first | exact State.queueEvent_link s _ _ | (cases q <;> rfl)
@[simp] theorem State.report_highs (s : State) (p : Part) (code : Code) (dt : List Nat) (port : Nat) (sub dom : Option Nat) (q : Part) : ((s.report p code dt port sub dom).pc q).highs = (s.pc q).highs := by cases p <;> first | exact State.queueEvent_highs s _ _ | (cases q <;> rfl)

/-! ### Counting, seen from the registers -/

@[simp] theorem State.setCtrWord_out (s : State) (e : Ev) (v : Word) : (s.setCtrWord e v).out = s.out := by
  unfold State.setCtrWord; split_ifs <;> simp
@[simp] theorem State.tally_out (s : State) (e : Ev) (n : Nat) : (s.tally e n).out = s.out := by simp [State.tally]
@[simp] theorem State.count_out (s : State) (e : Ev) (n : Nat) : (s.count e n).out = s.out := by
  unfold State.count; dsimp only; split_ifs <;> simp
@[simp] theorem State.rd_tally (s : State) (e : Ev) (n : Nat) (p : Part) (a : Nat) : (s.tally e n).rd p a = s.rd p a := by
  simp [State.tally]
theorem State.rd_setCtrWord_ne (s : State) (e : Ev) (v : Word) (p : Part) {a : Nat} (h : a ≠ e.addr) :
    (s.setCtrWord e v).rd p a = s.rd p a := by
  unfold State.setCtrWord
  split_ifs
  · cases p <;> rfl
  · cases e.part <;> cases p <;> rfl
  · by_cases hp : p = e.part
    · subst hp; exact State.rd_wr_ne s _ h v
    · exact State.rd_wr_part s hp _ _ v
theorem State.rd_count_ne (s : State) (e : Ev) (n : Nat) (p : Part) {a : Nat} (h : a ≠ e.addr) (h4 : a ≠ e.addr + 4) :
    (s.count e n).rd p a = s.rd p a := by
  unfold State.count
  dsimp only
  split_ifs <;> simp [State.rd_setCtrWord_ne, h, h4]
theorem State.rd_count_narrow_ne (s : State) (e : Ev) (n : Nat) (p : Part) {a : Nat} (h : a ≠ e.addr) (hw : e.wide = false) :
    (s.count e n).rd p a = s.rd p a := by
  unfold State.count
  simp [State.rd_setCtrWord_ne, h, hw]
theorem State.count_rd (s : State) (e : Ev) (n : Nat) (hd : e.byDom = false) (hc : e.byCls = false) (hw : e.wide = false) :
    (s.count e n).rd e.part e.addr = (s.rd e.part e.addr).put e.lo e.len ((s.rd e.part e.addr).get e.lo e.len + n) := by
  simp [State.count, State.setCtrWord, State.ctrWord, hd, hc, hw]
theorem Word.put_get_add (w : Word) (n : Nat) : w.put 0 32 (w.get 0 32 + n) = w + BitVec.ofNat 32 n := by
  apply BitVec.eq_of_toNat_eq
  have := w.isLt
  simp [Word.put, Word.get, BitVec.toNat_add, Nat.mod_eq_of_lt this]
theorem State.rd_count_self (s : State) (e : Ev) (n : Nat) (hd : e.byDom = false) (hc : e.byCls = false) (hw : e.wide = false)
    (hl : e.lo = 0) (hn : e.len = 32) : (s.count e n).rd e.part e.addr = s.rd e.part e.addr + BitVec.ofNat 32 n := by
  rw [State.count_rd s e n hd hc hw, hl, hn, Word.put_get_add]

/-! ### Reports -/

theorem State.told_report (s : State) (p : Part) (code : Code) (dt : List Nat) (port : Nat) (sub dom : Option Nat)
    (h : s.canTell p = true) : (s.report p code dt port sub dom).told p = s.told p ++ [code] := by
  cases p
  · simp [State.report, State.told, Out.reportCode]
  · simp only [State.canTell, decide_eq_true_eq] at h
    simp [State.report, State.told, State.queueEvent, h]
theorem State.told_report_other (s : State) (p q : Part) (code : Code) (dt : List Nat) (port : Nat) (sub dom : Option Nat)
    (h : q ≠ p) : (s.report p code dt port sub dom).told q = s.told q := by
  cases p <;> cases q <;> simp_all [State.told, State.report, State.queueEvent]
  split_ifs <;> simp [List.filterMap_cons, Out.reportCode]

/-! ### What a started command reads -/

@[simp] theorem Taken.f_started (tk : Taken) (b : Bool) (o n : Nat) : ({ tk with started := b } : Taken).f o n = tk.f o n := rfl
@[simp] theorem Taken.domain_started (tk : Taken) (b : Bool) : ({ tk with started := b } : Taken).domain = tk.domain := rfl
@[simp] theorem State.begun_rd (s : State) (p : Part) (m k : Nat) (q : Part) (a : Nat) : (s.begun p m k).rd q a = s.rd q a := by
  unfold State.begun; split
  · cases p <;> cases q <;> rfl
  · rfl
@[simp] theorem State.begun_fld (s : State) (p : Part) (m k : Nat) (q : Part) (a lo len : Nat) :
    (s.begun p m k).fld q a lo len = s.fld q a lo len := by unfold State.fld; simp
@[simp] theorem State.begun_bit (s : State) (p : Part) (m k : Nat) (q : Part) (a i : Nat) :
    (s.begun p m k).bit q a i = s.bit q a i := by unfold State.bit; simp
@[simp] theorem State.begun_stages (s : State) (p : Part) (m k : Nat) (q : Part) :
    ((s.begun p m k).pc q).fw.stages = (s.pc q).fw.stages := by
  unfold State.begun; split
  · cases p <;> cases q <;> rfl
  · rfl
@[simp] theorem State.begun_out (s : State) (p : Part) (m k : Nat) : (s.begun p m k).out = s.out := by
  unfold State.begun; split
  · cases p <;> rfl
  · rfl
@[simp] theorem State.begun_free (s : State) (p : Part) (m k : Nat) : (s.begun p m k).free = s.free := by
  unfold State.begun; split
  · cases p <;> rfl
  · rfl
@[simp] theorem State.begun_stageOf (s : State) (p : Part) (m k n id : Nat) : (s.begun p m k).stageOf n id = s.stageOf n id := by
  have := State.begun_stages s p m k .kresia
  simp only [State.pc] at this
  simp [State.stageOf, this]
@[simp] theorem State.begun_dom (s : State) (p : Part) (m k d : Nat) : (s.begun p m k).dom d = s.dom d := by simp [State.dom]
@[simp] theorem State.begun_ten (s : State) (p : Part) (m k t : Nat) : (s.begun p m k).ten t = s.ten t := by simp [State.ten]
@[simp] theorem State.begun_raw (s : State) (p : Part) (m k : Nat) (q : Part) : (s.begun p m k).raw q = s.raw q := by simp [State.raw]
@[simp] theorem State.begun_ksId (s : State) (p : Part) (m k : Nat) : (s.begun p m k).ksId = s.ksId := by simp [State.ksId]
@[simp] theorem State.begun_isSpine (s : State) (p : Part) (m k : Nat) : (s.begun p m k).isSpine = s.isSpine := by simp [State.isSpine]
@[simp] theorem State.begun_isFenced (s : State) (p : Part) (m k n : Nat) : (s.begun p m k).isFenced n = s.isFenced n := by simp [State.isFenced]
@[simp] theorem State.begun_ksReady (s : State) (p : Part) (m k : Nat) : (s.begun p m k).ksReady = s.ksReady := by
  have h1 := State.begun_time s p m k .kresia
  have h2 := State.begun_link s p m k .kresia
  simp only [State.pc] at h1 h2
  simp [State.ksReady, h1, h2]

end Sys2Proof.Machine
end

