-- ==== Sys2Proof/Laws/Access.lean ====
section
/-! SUPPORT. Reading back what a change of one channel, gate, port, domain, tenant or slot wrote, and what it leaves. -/

namespace Sys2Proof.Machine

@[simp] theorem State.chan_modChan (s : State) (p : Part) (ch : Nat) (f : StampChannel → StampChannel) : (s.modChan p ch f).chan p ch = f (s.chan p ch) := by cases p <;> exact FMap.getD_update_self _ _ _ _
theorem State.chan_modChan_ne (s : State) (p : Part) {ch j : Nat} (h : j ≠ ch) (f : StampChannel → StampChannel) : (s.modChan p ch f).chan p j = s.chan p j := by cases p <;> exact FMap.getD_update_ne _ h _ _ _
@[simp] theorem State.modChan_rd (s : State) (p : Part) (ch : Nat) (f : StampChannel → StampChannel) (q : Part) (a : Nat) : (s.modChan p ch f).rd q a = s.rd q a := by cases p <;> cases q <;> rfl
@[simp] theorem State.modChan_fld (s : State) (p : Part) (ch : Nat) (f : StampChannel → StampChannel) (q : Part) (a lo n : Nat) : (s.modChan p ch f).fld q a lo n = s.fld q a lo n := by cases p <;> cases q <;> rfl
@[simp] theorem State.modChan_bit (s : State) (p : Part) (ch : Nat) (f : StampChannel → StampChannel) (q : Part) (a i : Nat) : (s.modChan p ch f).bit q a i = s.bit q a i := by cases p <;> cases q <;> rfl
@[simp] theorem State.modChan_out (s : State) (p : Part) (ch : Nat) (f : StampChannel → StampChannel) : (s.modChan p ch f).out = s.out := by cases p <;> rfl
@[simp] theorem State.modChan_free (s : State) (p : Part) (ch : Nat) (f : StampChannel → StampChannel) : (s.modChan p ch f).free = s.free := by cases p <;> rfl
@[simp] theorem State.modChan_pending (s : State) (p : Part) (ch : Nat) (f : StampChannel → StampChannel) : (s.modChan p ch f).pending = s.pending := by cases p <;> rfl
@[simp] theorem State.modChan_time (s : State) (p : Part) (ch : Nat) (f : StampChannel → StampChannel) (q : Part) : ((s.modChan p ch f).pc q).time = (s.pc q).time := by cases p <;> cases q <;> rfl
@[simp] theorem State.modChan_ctr (s : State) (p : Part) (ch : Nat) (f : StampChannel → StampChannel) (q : Part) : ((s.modChan p ch f).pc q).ctr = (s.pc q).ctr := by cases p <;> cases q <;> rfl
@[simp] theorem State.modChan_fw (s : State) (p : Part) (ch : Nat) (f : StampChannel → StampChannel) (q : Part) : ((s.modChan p ch f).pc q).fw = (s.pc q).fw := by cases p <;> cases q <;> rfl
@[simp] theorem State.modChan_link (s : State) (p : Part) (ch : Nat) (f : StampChannel → StampChannel) (q : Part) : ((s.modChan p ch f).pc q).link = (s.pc q).link := by cases p <;> cases q <;> rfl
@[simp] theorem State.modChan_bx_straps (s : State) (p : Part) (ch : Nat) (f : StampChannel → StampChannel) : (s.modChan p ch f).bx.straps = s.bx.straps := by cases p <;> rfl
@[simp] theorem State.modChan_bx_refclkLost (s : State) (p : Part) (ch : Nat) (f : StampChannel → StampChannel) : (s.modChan p ch f).bx.refclkLost = s.bx.refclkLost := by cases p <;> rfl
@[simp] theorem State.modChan_bx_fenced (s : State) (p : Part) (ch : Nat) (f : StampChannel → StampChannel) : (s.modChan p ch f).bx.fenced = s.bx.fenced := by cases p <;> rfl
@[simp] theorem State.modChan_bx_fenceSeq (s : State) (p : Part) (ch : Nat) (f : StampChannel → StampChannel) : (s.modChan p ch f).bx.fenceSeq = s.bx.fenceSeq := by cases p <;> rfl
@[simp] theorem State.modChan_bx_prior (s : State) (p : Part) (ch : Nat) (f : StampChannel → StampChannel) : (s.modChan p ch f).bx.prior = s.bx.prior := by cases p <;> rfl
@[simp] theorem State.modChan_bx_reportSeq (s : State) (p : Part) (ch : Nat) (f : StampChannel → StampChannel) : (s.modChan p ch f).bx.reportSeq = s.bx.reportSeq := by cases p <;> rfl
@[simp] theorem State.modChan_bx_tenants (s : State) (p : Part) (ch : Nat) (f : StampChannel → StampChannel) : (s.modChan p ch f).bx.tenants = s.bx.tenants := by cases p <;> rfl
@[simp] theorem State.modChan_bx_slots (s : State) (p : Part) (ch : Nat) (f : StampChannel → StampChannel) : (s.modChan p ch f).bx.slots = s.bx.slots := by cases p <;> rfl
@[simp] theorem State.modChan_bx_objs (s : State) (p : Part) (ch : Nat) (f : StampChannel → StampChannel) : (s.modChan p ch f).bx.objs = s.bx.objs := by cases p <;> rfl
@[simp] theorem State.modChan_bx_heldTakes (s : State) (p : Part) (ch : Nat) (f : StampChannel → StampChannel) : (s.modChan p ch f).bx.heldTakes = s.bx.heldTakes := by cases p <;> rfl
@[simp] theorem State.modChan_bx_trackers (s : State) (p : Part) (ch : Nat) (f : StampChannel → StampChannel) : (s.modChan p ch f).bx.trackers = s.bx.trackers := by cases p <;> rfl
@[simp] theorem State.modChan_bx_sends (s : State) (p : Part) (ch : Nat) (f : StampChannel → StampChannel) : (s.modChan p ch f).bx.sends = s.bx.sends := by cases p <;> rfl
@[simp] theorem State.modChan_bx_writes (s : State) (p : Part) (ch : Nat) (f : StampChannel → StampChannel) : (s.modChan p ch f).bx.writes = s.bx.writes := by cases p <;> rfl
@[simp] theorem State.modChan_bx_reads (s : State) (p : Part) (ch : Nat) (f : StampChannel → StampChannel) : (s.modChan p ch f).bx.reads = s.bx.reads := by cases p <;> rfl
@[simp] theorem State.modChan_bx_v2Waits (s : State) (p : Part) (ch : Nat) (f : StampChannel → StampChannel) : (s.modChan p ch f).bx.v2Waits = s.bx.v2Waits := by cases p <;> rfl
@[simp] theorem State.modChan_bx_waitSends (s : State) (p : Part) (ch : Nat) (f : StampChannel → StampChannel) : (s.modChan p ch f).bx.waitSends = s.bx.waitSends := by cases p <;> rfl
@[simp] theorem State.modChan_bx_parts (s : State) (p : Part) (ch : Nat) (f : StampChannel → StampChannel) : (s.modChan p ch f).bx.parts = s.bx.parts := by cases p <;> rfl
@[simp] theorem State.modChan_bx_nextPart (s : State) (p : Part) (ch : Nat) (f : StampChannel → StampChannel) : (s.modChan p ch f).bx.nextPart = s.bx.nextPart := by cases p <;> rfl
@[simp] theorem State.modChan_bx_readJobs (s : State) (p : Part) (ch : Nat) (f : StampChannel → StampChannel) : (s.modChan p ch f).bx.readJobs = s.bx.readJobs := by cases p <;> rfl
@[simp] theorem State.modChan_bx_nextJob (s : State) (p : Part) (ch : Nat) (f : StampChannel → StampChannel) : (s.modChan p ch f).bx.nextJob = s.bx.nextJob := by cases p <;> rfl
@[simp] theorem State.modChan_bx_bases (s : State) (p : Part) (ch : Nat) (f : StampChannel → StampChannel) : (s.modChan p ch f).bx.bases = s.bx.bases := by cases p <;> rfl
@[simp] theorem State.modChan_ks_build (s : State) (p : Part) (ch : Nat) (f : StampChannel → StampChannel) : (s.modChan p ch f).ks.build = s.ks.build := by cases p <;> rfl
@[simp] theorem State.modChan_ks_lostPlanes (s : State) (p : Part) (ch : Nat) (f : StampChannel → StampChannel) : (s.modChan p ch f).ks.lostPlanes = s.ks.lostPlanes := by cases p <;> rfl
@[simp] theorem State.modChan_ks_fences (s : State) (p : Part) (ch : Nat) (f : StampChannel → StampChannel) : (s.modChan p ch f).ks.fences = s.ks.fences := by cases p <;> rfl
@[simp] theorem State.modChan_ks_strapFb (s : State) (p : Part) (ch : Nat) (f : StampChannel → StampChannel) : (s.modChan p ch f).ks.strapFb = s.ks.strapFb := by cases p <;> rfl
@[simp] theorem State.modChan_ks_pcieEn (s : State) (p : Part) (ch : Nat) (f : StampChannel → StampChannel) : (s.modChan p ch f).ks.pcieEn = s.ks.pcieEn := by cases p <;> rfl
@[simp] theorem State.modChan_ks_tripped (s : State) (p : Part) (ch : Nat) (f : StampChannel → StampChannel) : (s.modChan p ch f).ks.tripped = s.ks.tripped := by cases p <;> rfl
@[simp] theorem State.modChan_ks_memFailed (s : State) (p : Part) (ch : Nat) (f : StampChannel → StampChannel) : (s.modChan p ch f).ks.memFailed = s.ks.memFailed := by cases p <;> rfl
@[simp] theorem State.modChan_ks_memErrors (s : State) (p : Part) (ch : Nat) (f : StampChannel → StampChannel) : (s.modChan p ch f).ks.memErrors = s.ks.memErrors := by cases p <;> rfl
@[simp] theorem State.modChan_ks_brimFailed (s : State) (p : Part) (ch : Nat) (f : StampChannel → StampChannel) : (s.modChan p ch f).ks.brimFailed = s.ks.brimFailed := by cases p <;> rfl
@[simp] theorem State.modChan_ks_coolantSince (s : State) (p : Part) (ch : Nat) (f : StampChannel → StampChannel) : (s.modChan p ch f).ks.coolantSince = s.ks.coolantSince := by cases p <;> rfl
@[simp] theorem State.modChan_ks_coolantTold (s : State) (p : Part) (ch : Nat) (f : StampChannel → StampChannel) : (s.modChan p ch f).ks.coolantTold = s.ks.coolantTold := by cases p <;> rfl
@[simp] theorem State.modChan_ks_lastCoolant (s : State) (p : Part) (ch : Nat) (f : StampChannel → StampChannel) : (s.modChan p ch f).ks.lastCoolant = s.ks.lastCoolant := by cases p <;> rfl
@[simp] theorem State.modChan_ks_lastThrottle (s : State) (p : Part) (ch : Nat) (f : StampChannel → StampChannel) : (s.modChan p ch f).ks.lastThrottle = s.ks.lastThrottle := by cases p <;> rfl
@[simp] theorem State.modChan_ks_lastAlive (s : State) (p : Part) (ch : Nat) (f : StampChannel → StampChannel) : (s.modChan p ch f).ks.lastAlive = s.ks.lastAlive := by cases p <;> rfl
@[simp] theorem State.modChan_ks_lastResend (s : State) (p : Part) (ch : Nat) (f : StampChannel → StampChannel) : (s.modChan p ch f).ks.lastResend = s.ks.lastResend := by cases p <;> rfl
@[simp] theorem State.modChan_ks_events (s : State) (p : Part) (ch : Nat) (f : StampChannel → StampChannel) : (s.modChan p ch f).ks.events = s.ks.events := by cases p <;> rfl
@[simp] theorem State.modChan_ks_evtDropped (s : State) (p : Part) (ch : Nat) (f : StampChannel → StampChannel) : (s.modChan p ch f).ks.evtDropped = s.ks.evtDropped := by cases p <;> rfl
@[simp] theorem State.modChan_ks_admitted (s : State) (p : Part) (ch : Nat) (f : StampChannel → StampChannel) : (s.modChan p ch f).ks.admitted = s.ks.admitted := by cases p <;> rfl
@[simp] theorem State.modChan_ks_aliveTold (s : State) (p : Part) (ch : Nat) (f : StampChannel → StampChannel) : (s.modChan p ch f).ks.aliveTold = s.ks.aliveTold := by cases p <;> rfl
@[simp] theorem State.modChan_ks_doms (s : State) (p : Part) (ch : Nat) (f : StampChannel → StampChannel) : (s.modChan p ch f).ks.doms = s.ks.doms := by cases p <;> rfl
@[simp] theorem State.modChan_ks_leafRecs (s : State) (p : Part) (ch : Nat) (f : StampChannel → StampChannel) : (s.modChan p ch f).ks.leafRecs = s.ks.leafRecs := by cases p <;> rfl
@[simp] theorem State.modChan_ks_chunks (s : State) (p : Part) (ch : Nat) (f : StampChannel → StampChannel) : (s.modChan p ch f).ks.chunks = s.ks.chunks := by cases p <;> rfl
@[simp] theorem State.modChan_ks_kept (s : State) (p : Part) (ch : Nat) (f : StampChannel → StampChannel) : (s.modChan p ch f).ks.kept = s.ks.kept := by cases p <;> rfl
@[simp] theorem State.modChan_ks_shards (s : State) (p : Part) (ch : Nat) (f : StampChannel → StampChannel) : (s.modChan p ch f).ks.shards = s.ks.shards := by cases p <;> rfl
@[simp] theorem State.modChan_ks_blockQ (s : State) (p : Part) (ch : Nat) (f : StampChannel → StampChannel) : (s.modChan p ch f).ks.blockQ = s.ks.blockQ := by cases p <;> rfl
@[simp] theorem State.modChan_ks_jobs (s : State) (p : Part) (ch : Nat) (f : StampChannel → StampChannel) : (s.modChan p ch f).ks.jobs = s.ks.jobs := by cases p <;> rfl
@[simp] theorem State.modChan_ks_waitJobs (s : State) (p : Part) (ch : Nat) (f : StampChannel → StampChannel) : (s.modChan p ch f).ks.waitJobs = s.ks.waitJobs := by cases p <;> rfl
@[simp] theorem State.modChan_ks_windows (s : State) (p : Part) (ch : Nat) (f : StampChannel → StampChannel) : (s.modChan p ch f).ks.windows = s.ks.windows := by cases p <;> rfl
@[simp] theorem State.modChan_ks_bases (s : State) (p : Part) (ch : Nat) (f : StampChannel → StampChannel) : (s.modChan p ch f).ks.bases = s.ks.bases := by cases p <;> rfl
@[simp] theorem State.modChan_ks_staged (s : State) (p : Part) (ch : Nat) (f : StampChannel → StampChannel) : (s.modChan p ch f).ks.staged = s.ks.staged := by cases p <;> rfl
@[simp] theorem State.modChan_ks_ckpts (s : State) (p : Part) (ch : Nat) (f : StampChannel → StampChannel) : (s.modChan p ch f).ks.ckpts = s.ks.ckpts := by cases p <;> rfl
@[simp] theorem State.modChan_ks_fills (s : State) (p : Part) (ch : Nat) (f : StampChannel → StampChannel) : (s.modChan p ch f).ks.fills = s.ks.fills := by cases p <;> rfl
@[simp] theorem State.modChan_ks_cupChecks (s : State) (p : Part) (ch : Nat) (f : StampChannel → StampChannel) : (s.modChan p ch f).ks.cupChecks = s.ks.cupChecks := by cases p <;> rfl
@[simp] theorem State.modChan_ks_shardReads (s : State) (p : Part) (ch : Nat) (f : StampChannel → StampChannel) : (s.modChan p ch f).ks.shardReads = s.ks.shardReads := by cases p <;> rfl
@[simp] theorem State.modChan_ks_grants (s : State) (p : Part) (ch : Nat) (f : StampChannel → StampChannel) : (s.modChan p ch f).ks.grants = s.ks.grants := by cases p <;> rfl
@[simp] theorem State.modChan_ks_dspLeaves (s : State) (p : Part) (ch : Nat) (f : StampChannel → StampChannel) : (s.modChan p ch f).ks.dspLeaves = s.ks.dspLeaves := by cases p <;> rfl
@[simp] theorem State.modChan_ks_dspHomes (s : State) (p : Part) (ch : Nat) (f : StampChannel → StampChannel) : (s.modChan p ch f).ks.dspHomes = s.ks.dspHomes := by cases p <;> rfl
@[simp] theorem State.modChan_ks_dspEngine (s : State) (p : Part) (ch : Nat) (f : StampChannel → StampChannel) : (s.modChan p ch f).ks.dspEngine = s.ks.dspEngine := by cases p <;> rfl
@[simp] theorem State.modChan_ks_dspQ (s : State) (p : Part) (ch : Nat) (f : StampChannel → StampChannel) : (s.modChan p ch f).ks.dspQ = s.ks.dspQ := by cases p <;> rfl
@[simp] theorem State.modChan_ks_tieReroute (s : State) (p : Part) (ch : Nat) (f : StampChannel → StampChannel) : (s.modChan p ch f).ks.tieReroute = s.ks.tieReroute := by cases p <;> rfl
@[simp] theorem State.modChan_ks_objs (s : State) (p : Part) (ch : Nat) (f : StampChannel → StampChannel) : (s.modChan p ch f).ks.objs = s.ks.objs := by cases p <;> rfl
@[simp] theorem State.modChan_ks_heldTakes (s : State) (p : Part) (ch : Nat) (f : StampChannel → StampChannel) : (s.modChan p ch f).ks.heldTakes = s.ks.heldTakes := by cases p <;> rfl
@[simp] theorem State.modChan_ks_trackers (s : State) (p : Part) (ch : Nat) (f : StampChannel → StampChannel) : (s.modChan p ch f).ks.trackers = s.ks.trackers := by cases p <;> rfl
@[simp] theorem State.modChan_ks_sends (s : State) (p : Part) (ch : Nat) (f : StampChannel → StampChannel) : (s.modChan p ch f).ks.sends = s.ks.sends := by cases p <;> rfl
@[simp] theorem State.modChan_ks_writes (s : State) (p : Part) (ch : Nat) (f : StampChannel → StampChannel) : (s.modChan p ch f).ks.writes = s.ks.writes := by cases p <;> rfl
@[simp] theorem State.modChan_ks_takesDone (s : State) (p : Part) (ch : Nat) (f : StampChannel → StampChannel) : (s.modChan p ch f).ks.takesDone = s.ks.takesDone := by cases p <;> rfl
@[simp] theorem State.modChan_ks_mem (s : State) (p : Part) (ch : Nat) (f : StampChannel → StampChannel) : (s.modChan p ch f).ks.mem = s.ks.mem := by cases p <;> rfl
@[simp] theorem State.modChan_ks_ptpDiscard (s : State) (p : Part) (ch : Nat) (f : StampChannel → StampChannel) : (s.modChan p ch f).ks.ptpDiscard = s.ks.ptpDiscard := by cases p <;> rfl
@[simp] theorem State.modChan_ks_ppsDelay (s : State) (p : Part) (ch : Nat) (f : StampChannel → StampChannel) : (s.modChan p ch f).ks.ppsDelay = s.ks.ppsDelay := by cases p <;> rfl
@[simp] theorem State.modChan_ks_v2Waits (s : State) (p : Part) (ch : Nat) (f : StampChannel → StampChannel) : (s.modChan p ch f).ks.v2Waits = s.ks.v2Waits := by cases p <;> rfl
@[simp] theorem State.gate_modGate (s : State) (p : Part) (g : Nat) (f : StampGate → StampGate) : (s.modGate p g f).gate p g = f (s.gate p g) := by cases p <;> exact FMap.getD_update_self _ _ _ _
theorem State.gate_modGate_ne (s : State) (p : Part) {g j : Nat} (h : j ≠ g) (f : StampGate → StampGate) : (s.modGate p g f).gate p j = s.gate p j := by cases p <;> exact FMap.getD_update_ne _ h _ _ _
@[simp] theorem State.modGate_rd (s : State) (p : Part) (g : Nat) (f : StampGate → StampGate) (q : Part) (a : Nat) : (s.modGate p g f).rd q a = s.rd q a := by cases p <;> cases q <;> rfl
@[simp] theorem State.modGate_fld (s : State) (p : Part) (g : Nat) (f : StampGate → StampGate) (q : Part) (a lo n : Nat) : (s.modGate p g f).fld q a lo n = s.fld q a lo n := by cases p <;> cases q <;> rfl
@[simp] theorem State.modGate_bit (s : State) (p : Part) (g : Nat) (f : StampGate → StampGate) (q : Part) (a i : Nat) : (s.modGate p g f).bit q a i = s.bit q a i := by cases p <;> cases q <;> rfl
@[simp] theorem State.modGate_out (s : State) (p : Part) (g : Nat) (f : StampGate → StampGate) : (s.modGate p g f).out = s.out := by cases p <;> rfl
@[simp] theorem State.modGate_free (s : State) (p : Part) (g : Nat) (f : StampGate → StampGate) : (s.modGate p g f).free = s.free := by cases p <;> rfl
@[simp] theorem State.modGate_pending (s : State) (p : Part) (g : Nat) (f : StampGate → StampGate) : (s.modGate p g f).pending = s.pending := by cases p <;> rfl
@[simp] theorem State.modGate_time (s : State) (p : Part) (g : Nat) (f : StampGate → StampGate) (q : Part) : ((s.modGate p g f).pc q).time = (s.pc q).time := by cases p <;> cases q <;> rfl
@[simp] theorem State.modGate_ctr (s : State) (p : Part) (g : Nat) (f : StampGate → StampGate) (q : Part) : ((s.modGate p g f).pc q).ctr = (s.pc q).ctr := by cases p <;> cases q <;> rfl
@[simp] theorem State.modGate_fw (s : State) (p : Part) (g : Nat) (f : StampGate → StampGate) (q : Part) : ((s.modGate p g f).pc q).fw = (s.pc q).fw := by cases p <;> cases q <;> rfl
@[simp] theorem State.modGate_link (s : State) (p : Part) (g : Nat) (f : StampGate → StampGate) (q : Part) : ((s.modGate p g f).pc q).link = (s.pc q).link := by cases p <;> cases q <;> rfl
@[simp] theorem State.modGate_bx_straps (s : State) (p : Part) (g : Nat) (f : StampGate → StampGate) : (s.modGate p g f).bx.straps = s.bx.straps := by cases p <;> rfl
@[simp] theorem State.modGate_bx_refclkLost (s : State) (p : Part) (g : Nat) (f : StampGate → StampGate) : (s.modGate p g f).bx.refclkLost = s.bx.refclkLost := by cases p <;> rfl
@[simp] theorem State.modGate_bx_fenced (s : State) (p : Part) (g : Nat) (f : StampGate → StampGate) : (s.modGate p g f).bx.fenced = s.bx.fenced := by cases p <;> rfl
@[simp] theorem State.modGate_bx_fenceSeq (s : State) (p : Part) (g : Nat) (f : StampGate → StampGate) : (s.modGate p g f).bx.fenceSeq = s.bx.fenceSeq := by cases p <;> rfl
@[simp] theorem State.modGate_bx_prior (s : State) (p : Part) (g : Nat) (f : StampGate → StampGate) : (s.modGate p g f).bx.prior = s.bx.prior := by cases p <;> rfl
@[simp] theorem State.modGate_bx_reportSeq (s : State) (p : Part) (g : Nat) (f : StampGate → StampGate) : (s.modGate p g f).bx.reportSeq = s.bx.reportSeq := by cases p <;> rfl
@[simp] theorem State.modGate_bx_tenants (s : State) (p : Part) (g : Nat) (f : StampGate → StampGate) : (s.modGate p g f).bx.tenants = s.bx.tenants := by cases p <;> rfl
@[simp] theorem State.modGate_bx_slots (s : State) (p : Part) (g : Nat) (f : StampGate → StampGate) : (s.modGate p g f).bx.slots = s.bx.slots := by cases p <;> rfl
@[simp] theorem State.modGate_bx_objs (s : State) (p : Part) (g : Nat) (f : StampGate → StampGate) : (s.modGate p g f).bx.objs = s.bx.objs := by cases p <;> rfl
@[simp] theorem State.modGate_bx_heldTakes (s : State) (p : Part) (g : Nat) (f : StampGate → StampGate) : (s.modGate p g f).bx.heldTakes = s.bx.heldTakes := by cases p <;> rfl
@[simp] theorem State.modGate_bx_trackers (s : State) (p : Part) (g : Nat) (f : StampGate → StampGate) : (s.modGate p g f).bx.trackers = s.bx.trackers := by cases p <;> rfl
@[simp] theorem State.modGate_bx_sends (s : State) (p : Part) (g : Nat) (f : StampGate → StampGate) : (s.modGate p g f).bx.sends = s.bx.sends := by cases p <;> rfl
@[simp] theorem State.modGate_bx_writes (s : State) (p : Part) (g : Nat) (f : StampGate → StampGate) : (s.modGate p g f).bx.writes = s.bx.writes := by cases p <;> rfl
@[simp] theorem State.modGate_bx_reads (s : State) (p : Part) (g : Nat) (f : StampGate → StampGate) : (s.modGate p g f).bx.reads = s.bx.reads := by cases p <;> rfl
@[simp] theorem State.modGate_bx_v2Waits (s : State) (p : Part) (g : Nat) (f : StampGate → StampGate) : (s.modGate p g f).bx.v2Waits = s.bx.v2Waits := by cases p <;> rfl
@[simp] theorem State.modGate_bx_waitSends (s : State) (p : Part) (g : Nat) (f : StampGate → StampGate) : (s.modGate p g f).bx.waitSends = s.bx.waitSends := by cases p <;> rfl
@[simp] theorem State.modGate_bx_parts (s : State) (p : Part) (g : Nat) (f : StampGate → StampGate) : (s.modGate p g f).bx.parts = s.bx.parts := by cases p <;> rfl
@[simp] theorem State.modGate_bx_nextPart (s : State) (p : Part) (g : Nat) (f : StampGate → StampGate) : (s.modGate p g f).bx.nextPart = s.bx.nextPart := by cases p <;> rfl
@[simp] theorem State.modGate_bx_readJobs (s : State) (p : Part) (g : Nat) (f : StampGate → StampGate) : (s.modGate p g f).bx.readJobs = s.bx.readJobs := by cases p <;> rfl
@[simp] theorem State.modGate_bx_nextJob (s : State) (p : Part) (g : Nat) (f : StampGate → StampGate) : (s.modGate p g f).bx.nextJob = s.bx.nextJob := by cases p <;> rfl
@[simp] theorem State.modGate_bx_bases (s : State) (p : Part) (g : Nat) (f : StampGate → StampGate) : (s.modGate p g f).bx.bases = s.bx.bases := by cases p <;> rfl
@[simp] theorem State.modGate_ks_build (s : State) (p : Part) (g : Nat) (f : StampGate → StampGate) : (s.modGate p g f).ks.build = s.ks.build := by cases p <;> rfl
@[simp] theorem State.modGate_ks_lostPlanes (s : State) (p : Part) (g : Nat) (f : StampGate → StampGate) : (s.modGate p g f).ks.lostPlanes = s.ks.lostPlanes := by cases p <;> rfl
@[simp] theorem State.modGate_ks_fences (s : State) (p : Part) (g : Nat) (f : StampGate → StampGate) : (s.modGate p g f).ks.fences = s.ks.fences := by cases p <;> rfl
@[simp] theorem State.modGate_ks_strapFb (s : State) (p : Part) (g : Nat) (f : StampGate → StampGate) : (s.modGate p g f).ks.strapFb = s.ks.strapFb := by cases p <;> rfl
@[simp] theorem State.modGate_ks_pcieEn (s : State) (p : Part) (g : Nat) (f : StampGate → StampGate) : (s.modGate p g f).ks.pcieEn = s.ks.pcieEn := by cases p <;> rfl
@[simp] theorem State.modGate_ks_tripped (s : State) (p : Part) (g : Nat) (f : StampGate → StampGate) : (s.modGate p g f).ks.tripped = s.ks.tripped := by cases p <;> rfl
@[simp] theorem State.modGate_ks_memFailed (s : State) (p : Part) (g : Nat) (f : StampGate → StampGate) : (s.modGate p g f).ks.memFailed = s.ks.memFailed := by cases p <;> rfl
@[simp] theorem State.modGate_ks_memErrors (s : State) (p : Part) (g : Nat) (f : StampGate → StampGate) : (s.modGate p g f).ks.memErrors = s.ks.memErrors := by cases p <;> rfl
@[simp] theorem State.modGate_ks_brimFailed (s : State) (p : Part) (g : Nat) (f : StampGate → StampGate) : (s.modGate p g f).ks.brimFailed = s.ks.brimFailed := by cases p <;> rfl
@[simp] theorem State.modGate_ks_coolantSince (s : State) (p : Part) (g : Nat) (f : StampGate → StampGate) : (s.modGate p g f).ks.coolantSince = s.ks.coolantSince := by cases p <;> rfl
@[simp] theorem State.modGate_ks_coolantTold (s : State) (p : Part) (g : Nat) (f : StampGate → StampGate) : (s.modGate p g f).ks.coolantTold = s.ks.coolantTold := by cases p <;> rfl
@[simp] theorem State.modGate_ks_lastCoolant (s : State) (p : Part) (g : Nat) (f : StampGate → StampGate) : (s.modGate p g f).ks.lastCoolant = s.ks.lastCoolant := by cases p <;> rfl
@[simp] theorem State.modGate_ks_lastThrottle (s : State) (p : Part) (g : Nat) (f : StampGate → StampGate) : (s.modGate p g f).ks.lastThrottle = s.ks.lastThrottle := by cases p <;> rfl
@[simp] theorem State.modGate_ks_lastAlive (s : State) (p : Part) (g : Nat) (f : StampGate → StampGate) : (s.modGate p g f).ks.lastAlive = s.ks.lastAlive := by cases p <;> rfl
@[simp] theorem State.modGate_ks_lastResend (s : State) (p : Part) (g : Nat) (f : StampGate → StampGate) : (s.modGate p g f).ks.lastResend = s.ks.lastResend := by cases p <;> rfl
@[simp] theorem State.modGate_ks_events (s : State) (p : Part) (g : Nat) (f : StampGate → StampGate) : (s.modGate p g f).ks.events = s.ks.events := by cases p <;> rfl
@[simp] theorem State.modGate_ks_evtDropped (s : State) (p : Part) (g : Nat) (f : StampGate → StampGate) : (s.modGate p g f).ks.evtDropped = s.ks.evtDropped := by cases p <;> rfl
@[simp] theorem State.modGate_ks_admitted (s : State) (p : Part) (g : Nat) (f : StampGate → StampGate) : (s.modGate p g f).ks.admitted = s.ks.admitted := by cases p <;> rfl
@[simp] theorem State.modGate_ks_aliveTold (s : State) (p : Part) (g : Nat) (f : StampGate → StampGate) : (s.modGate p g f).ks.aliveTold = s.ks.aliveTold := by cases p <;> rfl
@[simp] theorem State.modGate_ks_doms (s : State) (p : Part) (g : Nat) (f : StampGate → StampGate) : (s.modGate p g f).ks.doms = s.ks.doms := by cases p <;> rfl
@[simp] theorem State.modGate_ks_leafRecs (s : State) (p : Part) (g : Nat) (f : StampGate → StampGate) : (s.modGate p g f).ks.leafRecs = s.ks.leafRecs := by cases p <;> rfl
@[simp] theorem State.modGate_ks_chunks (s : State) (p : Part) (g : Nat) (f : StampGate → StampGate) : (s.modGate p g f).ks.chunks = s.ks.chunks := by cases p <;> rfl
@[simp] theorem State.modGate_ks_kept (s : State) (p : Part) (g : Nat) (f : StampGate → StampGate) : (s.modGate p g f).ks.kept = s.ks.kept := by cases p <;> rfl
@[simp] theorem State.modGate_ks_shards (s : State) (p : Part) (g : Nat) (f : StampGate → StampGate) : (s.modGate p g f).ks.shards = s.ks.shards := by cases p <;> rfl
@[simp] theorem State.modGate_ks_blockQ (s : State) (p : Part) (g : Nat) (f : StampGate → StampGate) : (s.modGate p g f).ks.blockQ = s.ks.blockQ := by cases p <;> rfl
@[simp] theorem State.modGate_ks_jobs (s : State) (p : Part) (g : Nat) (f : StampGate → StampGate) : (s.modGate p g f).ks.jobs = s.ks.jobs := by cases p <;> rfl
@[simp] theorem State.modGate_ks_waitJobs (s : State) (p : Part) (g : Nat) (f : StampGate → StampGate) : (s.modGate p g f).ks.waitJobs = s.ks.waitJobs := by cases p <;> rfl
@[simp] theorem State.modGate_ks_windows (s : State) (p : Part) (g : Nat) (f : StampGate → StampGate) : (s.modGate p g f).ks.windows = s.ks.windows := by cases p <;> rfl
@[simp] theorem State.modGate_ks_bases (s : State) (p : Part) (g : Nat) (f : StampGate → StampGate) : (s.modGate p g f).ks.bases = s.ks.bases := by cases p <;> rfl
@[simp] theorem State.modGate_ks_staged (s : State) (p : Part) (g : Nat) (f : StampGate → StampGate) : (s.modGate p g f).ks.staged = s.ks.staged := by cases p <;> rfl
@[simp] theorem State.modGate_ks_ckpts (s : State) (p : Part) (g : Nat) (f : StampGate → StampGate) : (s.modGate p g f).ks.ckpts = s.ks.ckpts := by cases p <;> rfl
@[simp] theorem State.modGate_ks_fills (s : State) (p : Part) (g : Nat) (f : StampGate → StampGate) : (s.modGate p g f).ks.fills = s.ks.fills := by cases p <;> rfl
@[simp] theorem State.modGate_ks_cupChecks (s : State) (p : Part) (g : Nat) (f : StampGate → StampGate) : (s.modGate p g f).ks.cupChecks = s.ks.cupChecks := by cases p <;> rfl
@[simp] theorem State.modGate_ks_shardReads (s : State) (p : Part) (g : Nat) (f : StampGate → StampGate) : (s.modGate p g f).ks.shardReads = s.ks.shardReads := by cases p <;> rfl
@[simp] theorem State.modGate_ks_grants (s : State) (p : Part) (g : Nat) (f : StampGate → StampGate) : (s.modGate p g f).ks.grants = s.ks.grants := by cases p <;> rfl
@[simp] theorem State.modGate_ks_dspLeaves (s : State) (p : Part) (g : Nat) (f : StampGate → StampGate) : (s.modGate p g f).ks.dspLeaves = s.ks.dspLeaves := by cases p <;> rfl
@[simp] theorem State.modGate_ks_dspHomes (s : State) (p : Part) (g : Nat) (f : StampGate → StampGate) : (s.modGate p g f).ks.dspHomes = s.ks.dspHomes := by cases p <;> rfl
@[simp] theorem State.modGate_ks_dspEngine (s : State) (p : Part) (g : Nat) (f : StampGate → StampGate) : (s.modGate p g f).ks.dspEngine = s.ks.dspEngine := by cases p <;> rfl
@[simp] theorem State.modGate_ks_dspQ (s : State) (p : Part) (g : Nat) (f : StampGate → StampGate) : (s.modGate p g f).ks.dspQ = s.ks.dspQ := by cases p <;> rfl
@[simp] theorem State.modGate_ks_tieReroute (s : State) (p : Part) (g : Nat) (f : StampGate → StampGate) : (s.modGate p g f).ks.tieReroute = s.ks.tieReroute := by cases p <;> rfl
@[simp] theorem State.modGate_ks_objs (s : State) (p : Part) (g : Nat) (f : StampGate → StampGate) : (s.modGate p g f).ks.objs = s.ks.objs := by cases p <;> rfl
@[simp] theorem State.modGate_ks_heldTakes (s : State) (p : Part) (g : Nat) (f : StampGate → StampGate) : (s.modGate p g f).ks.heldTakes = s.ks.heldTakes := by cases p <;> rfl
@[simp] theorem State.modGate_ks_trackers (s : State) (p : Part) (g : Nat) (f : StampGate → StampGate) : (s.modGate p g f).ks.trackers = s.ks.trackers := by cases p <;> rfl
@[simp] theorem State.modGate_ks_sends (s : State) (p : Part) (g : Nat) (f : StampGate → StampGate) : (s.modGate p g f).ks.sends = s.ks.sends := by cases p <;> rfl
@[simp] theorem State.modGate_ks_writes (s : State) (p : Part) (g : Nat) (f : StampGate → StampGate) : (s.modGate p g f).ks.writes = s.ks.writes := by cases p <;> rfl
@[simp] theorem State.modGate_ks_takesDone (s : State) (p : Part) (g : Nat) (f : StampGate → StampGate) : (s.modGate p g f).ks.takesDone = s.ks.takesDone := by cases p <;> rfl
@[simp] theorem State.modGate_ks_mem (s : State) (p : Part) (g : Nat) (f : StampGate → StampGate) : (s.modGate p g f).ks.mem = s.ks.mem := by cases p <;> rfl
@[simp] theorem State.modGate_ks_ptpDiscard (s : State) (p : Part) (g : Nat) (f : StampGate → StampGate) : (s.modGate p g f).ks.ptpDiscard = s.ks.ptpDiscard := by cases p <;> rfl
@[simp] theorem State.modGate_ks_ppsDelay (s : State) (p : Part) (g : Nat) (f : StampGate → StampGate) : (s.modGate p g f).ks.ppsDelay = s.ks.ppsDelay := by cases p <;> rfl
@[simp] theorem State.modGate_ks_v2Waits (s : State) (p : Part) (g : Nat) (f : StampGate → StampGate) : (s.modGate p g f).ks.v2Waits = s.ks.v2Waits := by cases p <;> rfl
@[simp] theorem State.freq_modFreq (s : State) (p : Part) (g : Nat) (f : FreqEngine → FreqEngine) : (s.modFreq p g f).freq p g = f (s.freq p g) := by cases p <;> exact FMap.getD_update_self _ _ _ _
theorem State.freq_modFreq_ne (s : State) (p : Part) {g j : Nat} (h : j ≠ g) (f : FreqEngine → FreqEngine) : (s.modFreq p g f).freq p j = s.freq p j := by cases p <;> exact FMap.getD_update_ne _ h _ _ _
@[simp] theorem State.modFreq_rd (s : State) (p : Part) (g : Nat) (f : FreqEngine → FreqEngine) (q : Part) (a : Nat) : (s.modFreq p g f).rd q a = s.rd q a := by cases p <;> cases q <;> rfl
@[simp] theorem State.modFreq_fld (s : State) (p : Part) (g : Nat) (f : FreqEngine → FreqEngine) (q : Part) (a lo n : Nat) : (s.modFreq p g f).fld q a lo n = s.fld q a lo n := by cases p <;> cases q <;> rfl
@[simp] theorem State.modFreq_bit (s : State) (p : Part) (g : Nat) (f : FreqEngine → FreqEngine) (q : Part) (a i : Nat) : (s.modFreq p g f).bit q a i = s.bit q a i := by cases p <;> cases q <;> rfl
@[simp] theorem State.modFreq_out (s : State) (p : Part) (g : Nat) (f : FreqEngine → FreqEngine) : (s.modFreq p g f).out = s.out := by cases p <;> rfl
@[simp] theorem State.modFreq_free (s : State) (p : Part) (g : Nat) (f : FreqEngine → FreqEngine) : (s.modFreq p g f).free = s.free := by cases p <;> rfl
@[simp] theorem State.modFreq_pending (s : State) (p : Part) (g : Nat) (f : FreqEngine → FreqEngine) : (s.modFreq p g f).pending = s.pending := by cases p <;> rfl
@[simp] theorem State.modFreq_time (s : State) (p : Part) (g : Nat) (f : FreqEngine → FreqEngine) (q : Part) : ((s.modFreq p g f).pc q).time = (s.pc q).time := by cases p <;> cases q <;> rfl
@[simp] theorem State.modFreq_ctr (s : State) (p : Part) (g : Nat) (f : FreqEngine → FreqEngine) (q : Part) : ((s.modFreq p g f).pc q).ctr = (s.pc q).ctr := by cases p <;> cases q <;> rfl
@[simp] theorem State.modFreq_fw (s : State) (p : Part) (g : Nat) (f : FreqEngine → FreqEngine) (q : Part) : ((s.modFreq p g f).pc q).fw = (s.pc q).fw := by cases p <;> cases q <;> rfl
@[simp] theorem State.modFreq_link (s : State) (p : Part) (g : Nat) (f : FreqEngine → FreqEngine) (q : Part) : ((s.modFreq p g f).pc q).link = (s.pc q).link := by cases p <;> cases q <;> rfl
@[simp] theorem State.modFreq_bx_straps (s : State) (p : Part) (g : Nat) (f : FreqEngine → FreqEngine) : (s.modFreq p g f).bx.straps = s.bx.straps := by cases p <;> rfl
@[simp] theorem State.modFreq_bx_refclkLost (s : State) (p : Part) (g : Nat) (f : FreqEngine → FreqEngine) : (s.modFreq p g f).bx.refclkLost = s.bx.refclkLost := by cases p <;> rfl
@[simp] theorem State.modFreq_bx_fenced (s : State) (p : Part) (g : Nat) (f : FreqEngine → FreqEngine) : (s.modFreq p g f).bx.fenced = s.bx.fenced := by cases p <;> rfl
@[simp] theorem State.modFreq_bx_fenceSeq (s : State) (p : Part) (g : Nat) (f : FreqEngine → FreqEngine) : (s.modFreq p g f).bx.fenceSeq = s.bx.fenceSeq := by cases p <;> rfl
@[simp] theorem State.modFreq_bx_prior (s : State) (p : Part) (g : Nat) (f : FreqEngine → FreqEngine) : (s.modFreq p g f).bx.prior = s.bx.prior := by cases p <;> rfl
@[simp] theorem State.modFreq_bx_reportSeq (s : State) (p : Part) (g : Nat) (f : FreqEngine → FreqEngine) : (s.modFreq p g f).bx.reportSeq = s.bx.reportSeq := by cases p <;> rfl
@[simp] theorem State.modFreq_bx_tenants (s : State) (p : Part) (g : Nat) (f : FreqEngine → FreqEngine) : (s.modFreq p g f).bx.tenants = s.bx.tenants := by cases p <;> rfl
@[simp] theorem State.modFreq_bx_slots (s : State) (p : Part) (g : Nat) (f : FreqEngine → FreqEngine) : (s.modFreq p g f).bx.slots = s.bx.slots := by cases p <;> rfl
@[simp] theorem State.modFreq_bx_objs (s : State) (p : Part) (g : Nat) (f : FreqEngine → FreqEngine) : (s.modFreq p g f).bx.objs = s.bx.objs := by cases p <;> rfl
@[simp] theorem State.modFreq_bx_heldTakes (s : State) (p : Part) (g : Nat) (f : FreqEngine → FreqEngine) : (s.modFreq p g f).bx.heldTakes = s.bx.heldTakes := by cases p <;> rfl
@[simp] theorem State.modFreq_bx_trackers (s : State) (p : Part) (g : Nat) (f : FreqEngine → FreqEngine) : (s.modFreq p g f).bx.trackers = s.bx.trackers := by cases p <;> rfl
@[simp] theorem State.modFreq_bx_sends (s : State) (p : Part) (g : Nat) (f : FreqEngine → FreqEngine) : (s.modFreq p g f).bx.sends = s.bx.sends := by cases p <;> rfl
@[simp] theorem State.modFreq_bx_writes (s : State) (p : Part) (g : Nat) (f : FreqEngine → FreqEngine) : (s.modFreq p g f).bx.writes = s.bx.writes := by cases p <;> rfl
@[simp] theorem State.modFreq_bx_reads (s : State) (p : Part) (g : Nat) (f : FreqEngine → FreqEngine) : (s.modFreq p g f).bx.reads = s.bx.reads := by cases p <;> rfl
@[simp] theorem State.modFreq_bx_v2Waits (s : State) (p : Part) (g : Nat) (f : FreqEngine → FreqEngine) : (s.modFreq p g f).bx.v2Waits = s.bx.v2Waits := by cases p <;> rfl
@[simp] theorem State.modFreq_bx_waitSends (s : State) (p : Part) (g : Nat) (f : FreqEngine → FreqEngine) : (s.modFreq p g f).bx.waitSends = s.bx.waitSends := by cases p <;> rfl
@[simp] theorem State.modFreq_bx_parts (s : State) (p : Part) (g : Nat) (f : FreqEngine → FreqEngine) : (s.modFreq p g f).bx.parts = s.bx.parts := by cases p <;> rfl
@[simp] theorem State.modFreq_bx_nextPart (s : State) (p : Part) (g : Nat) (f : FreqEngine → FreqEngine) : (s.modFreq p g f).bx.nextPart = s.bx.nextPart := by cases p <;> rfl
@[simp] theorem State.modFreq_bx_readJobs (s : State) (p : Part) (g : Nat) (f : FreqEngine → FreqEngine) : (s.modFreq p g f).bx.readJobs = s.bx.readJobs := by cases p <;> rfl
@[simp] theorem State.modFreq_bx_nextJob (s : State) (p : Part) (g : Nat) (f : FreqEngine → FreqEngine) : (s.modFreq p g f).bx.nextJob = s.bx.nextJob := by cases p <;> rfl
@[simp] theorem State.modFreq_bx_bases (s : State) (p : Part) (g : Nat) (f : FreqEngine → FreqEngine) : (s.modFreq p g f).bx.bases = s.bx.bases := by cases p <;> rfl
@[simp] theorem State.modFreq_ks_build (s : State) (p : Part) (g : Nat) (f : FreqEngine → FreqEngine) : (s.modFreq p g f).ks.build = s.ks.build := by cases p <;> rfl
@[simp] theorem State.modFreq_ks_lostPlanes (s : State) (p : Part) (g : Nat) (f : FreqEngine → FreqEngine) : (s.modFreq p g f).ks.lostPlanes = s.ks.lostPlanes := by cases p <;> rfl
@[simp] theorem State.modFreq_ks_fences (s : State) (p : Part) (g : Nat) (f : FreqEngine → FreqEngine) : (s.modFreq p g f).ks.fences = s.ks.fences := by cases p <;> rfl
@[simp] theorem State.modFreq_ks_strapFb (s : State) (p : Part) (g : Nat) (f : FreqEngine → FreqEngine) : (s.modFreq p g f).ks.strapFb = s.ks.strapFb := by cases p <;> rfl
@[simp] theorem State.modFreq_ks_pcieEn (s : State) (p : Part) (g : Nat) (f : FreqEngine → FreqEngine) : (s.modFreq p g f).ks.pcieEn = s.ks.pcieEn := by cases p <;> rfl
@[simp] theorem State.modFreq_ks_tripped (s : State) (p : Part) (g : Nat) (f : FreqEngine → FreqEngine) : (s.modFreq p g f).ks.tripped = s.ks.tripped := by cases p <;> rfl
@[simp] theorem State.modFreq_ks_memFailed (s : State) (p : Part) (g : Nat) (f : FreqEngine → FreqEngine) : (s.modFreq p g f).ks.memFailed = s.ks.memFailed := by cases p <;> rfl
@[simp] theorem State.modFreq_ks_memErrors (s : State) (p : Part) (g : Nat) (f : FreqEngine → FreqEngine) : (s.modFreq p g f).ks.memErrors = s.ks.memErrors := by cases p <;> rfl
@[simp] theorem State.modFreq_ks_brimFailed (s : State) (p : Part) (g : Nat) (f : FreqEngine → FreqEngine) : (s.modFreq p g f).ks.brimFailed = s.ks.brimFailed := by cases p <;> rfl
@[simp] theorem State.modFreq_ks_coolantSince (s : State) (p : Part) (g : Nat) (f : FreqEngine → FreqEngine) : (s.modFreq p g f).ks.coolantSince = s.ks.coolantSince := by cases p <;> rfl
@[simp] theorem State.modFreq_ks_coolantTold (s : State) (p : Part) (g : Nat) (f : FreqEngine → FreqEngine) : (s.modFreq p g f).ks.coolantTold = s.ks.coolantTold := by cases p <;> rfl
@[simp] theorem State.modFreq_ks_lastCoolant (s : State) (p : Part) (g : Nat) (f : FreqEngine → FreqEngine) : (s.modFreq p g f).ks.lastCoolant = s.ks.lastCoolant := by cases p <;> rfl
@[simp] theorem State.modFreq_ks_lastThrottle (s : State) (p : Part) (g : Nat) (f : FreqEngine → FreqEngine) : (s.modFreq p g f).ks.lastThrottle = s.ks.lastThrottle := by cases p <;> rfl
@[simp] theorem State.modFreq_ks_lastAlive (s : State) (p : Part) (g : Nat) (f : FreqEngine → FreqEngine) : (s.modFreq p g f).ks.lastAlive = s.ks.lastAlive := by cases p <;> rfl
@[simp] theorem State.modFreq_ks_lastResend (s : State) (p : Part) (g : Nat) (f : FreqEngine → FreqEngine) : (s.modFreq p g f).ks.lastResend = s.ks.lastResend := by cases p <;> rfl
@[simp] theorem State.modFreq_ks_events (s : State) (p : Part) (g : Nat) (f : FreqEngine → FreqEngine) : (s.modFreq p g f).ks.events = s.ks.events := by cases p <;> rfl
@[simp] theorem State.modFreq_ks_evtDropped (s : State) (p : Part) (g : Nat) (f : FreqEngine → FreqEngine) : (s.modFreq p g f).ks.evtDropped = s.ks.evtDropped := by cases p <;> rfl
@[simp] theorem State.modFreq_ks_admitted (s : State) (p : Part) (g : Nat) (f : FreqEngine → FreqEngine) : (s.modFreq p g f).ks.admitted = s.ks.admitted := by cases p <;> rfl
@[simp] theorem State.modFreq_ks_aliveTold (s : State) (p : Part) (g : Nat) (f : FreqEngine → FreqEngine) : (s.modFreq p g f).ks.aliveTold = s.ks.aliveTold := by cases p <;> rfl
@[simp] theorem State.modFreq_ks_doms (s : State) (p : Part) (g : Nat) (f : FreqEngine → FreqEngine) : (s.modFreq p g f).ks.doms = s.ks.doms := by cases p <;> rfl
@[simp] theorem State.modFreq_ks_leafRecs (s : State) (p : Part) (g : Nat) (f : FreqEngine → FreqEngine) : (s.modFreq p g f).ks.leafRecs = s.ks.leafRecs := by cases p <;> rfl
@[simp] theorem State.modFreq_ks_chunks (s : State) (p : Part) (g : Nat) (f : FreqEngine → FreqEngine) : (s.modFreq p g f).ks.chunks = s.ks.chunks := by cases p <;> rfl
@[simp] theorem State.modFreq_ks_kept (s : State) (p : Part) (g : Nat) (f : FreqEngine → FreqEngine) : (s.modFreq p g f).ks.kept = s.ks.kept := by cases p <;> rfl
@[simp] theorem State.modFreq_ks_shards (s : State) (p : Part) (g : Nat) (f : FreqEngine → FreqEngine) : (s.modFreq p g f).ks.shards = s.ks.shards := by cases p <;> rfl
@[simp] theorem State.modFreq_ks_blockQ (s : State) (p : Part) (g : Nat) (f : FreqEngine → FreqEngine) : (s.modFreq p g f).ks.blockQ = s.ks.blockQ := by cases p <;> rfl
@[simp] theorem State.modFreq_ks_jobs (s : State) (p : Part) (g : Nat) (f : FreqEngine → FreqEngine) : (s.modFreq p g f).ks.jobs = s.ks.jobs := by cases p <;> rfl
@[simp] theorem State.modFreq_ks_waitJobs (s : State) (p : Part) (g : Nat) (f : FreqEngine → FreqEngine) : (s.modFreq p g f).ks.waitJobs = s.ks.waitJobs := by cases p <;> rfl
@[simp] theorem State.modFreq_ks_windows (s : State) (p : Part) (g : Nat) (f : FreqEngine → FreqEngine) : (s.modFreq p g f).ks.windows = s.ks.windows := by cases p <;> rfl
@[simp] theorem State.modFreq_ks_bases (s : State) (p : Part) (g : Nat) (f : FreqEngine → FreqEngine) : (s.modFreq p g f).ks.bases = s.ks.bases := by cases p <;> rfl
@[simp] theorem State.modFreq_ks_staged (s : State) (p : Part) (g : Nat) (f : FreqEngine → FreqEngine) : (s.modFreq p g f).ks.staged = s.ks.staged := by cases p <;> rfl
@[simp] theorem State.modFreq_ks_ckpts (s : State) (p : Part) (g : Nat) (f : FreqEngine → FreqEngine) : (s.modFreq p g f).ks.ckpts = s.ks.ckpts := by cases p <;> rfl
@[simp] theorem State.modFreq_ks_fills (s : State) (p : Part) (g : Nat) (f : FreqEngine → FreqEngine) : (s.modFreq p g f).ks.fills = s.ks.fills := by cases p <;> rfl
@[simp] theorem State.modFreq_ks_cupChecks (s : State) (p : Part) (g : Nat) (f : FreqEngine → FreqEngine) : (s.modFreq p g f).ks.cupChecks = s.ks.cupChecks := by cases p <;> rfl
@[simp] theorem State.modFreq_ks_shardReads (s : State) (p : Part) (g : Nat) (f : FreqEngine → FreqEngine) : (s.modFreq p g f).ks.shardReads = s.ks.shardReads := by cases p <;> rfl
@[simp] theorem State.modFreq_ks_grants (s : State) (p : Part) (g : Nat) (f : FreqEngine → FreqEngine) : (s.modFreq p g f).ks.grants = s.ks.grants := by cases p <;> rfl
@[simp] theorem State.modFreq_ks_dspLeaves (s : State) (p : Part) (g : Nat) (f : FreqEngine → FreqEngine) : (s.modFreq p g f).ks.dspLeaves = s.ks.dspLeaves := by cases p <;> rfl
@[simp] theorem State.modFreq_ks_dspHomes (s : State) (p : Part) (g : Nat) (f : FreqEngine → FreqEngine) : (s.modFreq p g f).ks.dspHomes = s.ks.dspHomes := by cases p <;> rfl
@[simp] theorem State.modFreq_ks_dspEngine (s : State) (p : Part) (g : Nat) (f : FreqEngine → FreqEngine) : (s.modFreq p g f).ks.dspEngine = s.ks.dspEngine := by cases p <;> rfl
@[simp] theorem State.modFreq_ks_dspQ (s : State) (p : Part) (g : Nat) (f : FreqEngine → FreqEngine) : (s.modFreq p g f).ks.dspQ = s.ks.dspQ := by cases p <;> rfl
@[simp] theorem State.modFreq_ks_tieReroute (s : State) (p : Part) (g : Nat) (f : FreqEngine → FreqEngine) : (s.modFreq p g f).ks.tieReroute = s.ks.tieReroute := by cases p <;> rfl
@[simp] theorem State.modFreq_ks_objs (s : State) (p : Part) (g : Nat) (f : FreqEngine → FreqEngine) : (s.modFreq p g f).ks.objs = s.ks.objs := by cases p <;> rfl
@[simp] theorem State.modFreq_ks_heldTakes (s : State) (p : Part) (g : Nat) (f : FreqEngine → FreqEngine) : (s.modFreq p g f).ks.heldTakes = s.ks.heldTakes := by cases p <;> rfl
@[simp] theorem State.modFreq_ks_trackers (s : State) (p : Part) (g : Nat) (f : FreqEngine → FreqEngine) : (s.modFreq p g f).ks.trackers = s.ks.trackers := by cases p <;> rfl
@[simp] theorem State.modFreq_ks_sends (s : State) (p : Part) (g : Nat) (f : FreqEngine → FreqEngine) : (s.modFreq p g f).ks.sends = s.ks.sends := by cases p <;> rfl
@[simp] theorem State.modFreq_ks_writes (s : State) (p : Part) (g : Nat) (f : FreqEngine → FreqEngine) : (s.modFreq p g f).ks.writes = s.ks.writes := by cases p <;> rfl
@[simp] theorem State.modFreq_ks_takesDone (s : State) (p : Part) (g : Nat) (f : FreqEngine → FreqEngine) : (s.modFreq p g f).ks.takesDone = s.ks.takesDone := by cases p <;> rfl
@[simp] theorem State.modFreq_ks_mem (s : State) (p : Part) (g : Nat) (f : FreqEngine → FreqEngine) : (s.modFreq p g f).ks.mem = s.ks.mem := by cases p <;> rfl
@[simp] theorem State.modFreq_ks_ptpDiscard (s : State) (p : Part) (g : Nat) (f : FreqEngine → FreqEngine) : (s.modFreq p g f).ks.ptpDiscard = s.ks.ptpDiscard := by cases p <;> rfl
@[simp] theorem State.modFreq_ks_ppsDelay (s : State) (p : Part) (g : Nat) (f : FreqEngine → FreqEngine) : (s.modFreq p g f).ks.ppsDelay = s.ks.ppsDelay := by cases p <;> rfl
@[simp] theorem State.modFreq_ks_v2Waits (s : State) (p : Part) (g : Nat) (f : FreqEngine → FreqEngine) : (s.modFreq p g f).ks.v2Waits = s.ks.v2Waits := by cases p <;> rfl
@[simp] theorem State.tdc_modTdc (s : State) (p : Part) (i : Nat) (f : Tdc → Tdc) : (s.modTdc p i f).tdc p i = f (s.tdc p i) := by cases p <;> exact FMap.getD_update_self _ _ _ _
theorem State.tdc_modTdc_ne (s : State) (p : Part) {i j : Nat} (h : j ≠ i) (f : Tdc → Tdc) : (s.modTdc p i f).tdc p j = s.tdc p j := by cases p <;> exact FMap.getD_update_ne _ h _ _ _
@[simp] theorem State.modTdc_rd (s : State) (p : Part) (i : Nat) (f : Tdc → Tdc) (q : Part) (a : Nat) : (s.modTdc p i f).rd q a = s.rd q a := by cases p <;> cases q <;> rfl
@[simp] theorem State.modTdc_fld (s : State) (p : Part) (i : Nat) (f : Tdc → Tdc) (q : Part) (a lo n : Nat) : (s.modTdc p i f).fld q a lo n = s.fld q a lo n := by cases p <;> cases q <;> rfl
@[simp] theorem State.modTdc_bit (s : State) (p : Part) (i : Nat) (f : Tdc → Tdc) (q : Part) (a i : Nat) : (s.modTdc p i f).bit q a i = s.bit q a i := by cases p <;> cases q <;> rfl
@[simp] theorem State.modTdc_out (s : State) (p : Part) (i : Nat) (f : Tdc → Tdc) : (s.modTdc p i f).out = s.out := by cases p <;> rfl
@[simp] theorem State.modTdc_free (s : State) (p : Part) (i : Nat) (f : Tdc → Tdc) : (s.modTdc p i f).free = s.free := by cases p <;> rfl
@[simp] theorem State.modTdc_pending (s : State) (p : Part) (i : Nat) (f : Tdc → Tdc) : (s.modTdc p i f).pending = s.pending := by cases p <;> rfl
@[simp] theorem State.modTdc_time (s : State) (p : Part) (i : Nat) (f : Tdc → Tdc) (q : Part) : ((s.modTdc p i f).pc q).time = (s.pc q).time := by cases p <;> cases q <;> rfl
@[simp] theorem State.modTdc_ctr (s : State) (p : Part) (i : Nat) (f : Tdc → Tdc) (q : Part) : ((s.modTdc p i f).pc q).ctr = (s.pc q).ctr := by cases p <;> cases q <;> rfl
@[simp] theorem State.modTdc_fw (s : State) (p : Part) (i : Nat) (f : Tdc → Tdc) (q : Part) : ((s.modTdc p i f).pc q).fw = (s.pc q).fw := by cases p <;> cases q <;> rfl
@[simp] theorem State.modTdc_link (s : State) (p : Part) (i : Nat) (f : Tdc → Tdc) (q : Part) : ((s.modTdc p i f).pc q).link = (s.pc q).link := by cases p <;> cases q <;> rfl
@[simp] theorem State.modTdc_bx_straps (s : State) (p : Part) (i : Nat) (f : Tdc → Tdc) : (s.modTdc p i f).bx.straps = s.bx.straps := by cases p <;> rfl
@[simp] theorem State.modTdc_bx_refclkLost (s : State) (p : Part) (i : Nat) (f : Tdc → Tdc) : (s.modTdc p i f).bx.refclkLost = s.bx.refclkLost := by cases p <;> rfl
@[simp] theorem State.modTdc_bx_fenced (s : State) (p : Part) (i : Nat) (f : Tdc → Tdc) : (s.modTdc p i f).bx.fenced = s.bx.fenced := by cases p <;> rfl
@[simp] theorem State.modTdc_bx_fenceSeq (s : State) (p : Part) (i : Nat) (f : Tdc → Tdc) : (s.modTdc p i f).bx.fenceSeq = s.bx.fenceSeq := by cases p <;> rfl
@[simp] theorem State.modTdc_bx_prior (s : State) (p : Part) (i : Nat) (f : Tdc → Tdc) : (s.modTdc p i f).bx.prior = s.bx.prior := by cases p <;> rfl
@[simp] theorem State.modTdc_bx_reportSeq (s : State) (p : Part) (i : Nat) (f : Tdc → Tdc) : (s.modTdc p i f).bx.reportSeq = s.bx.reportSeq := by cases p <;> rfl
@[simp] theorem State.modTdc_bx_tenants (s : State) (p : Part) (i : Nat) (f : Tdc → Tdc) : (s.modTdc p i f).bx.tenants = s.bx.tenants := by cases p <;> rfl
@[simp] theorem State.modTdc_bx_slots (s : State) (p : Part) (i : Nat) (f : Tdc → Tdc) : (s.modTdc p i f).bx.slots = s.bx.slots := by cases p <;> rfl
@[simp] theorem State.modTdc_bx_objs (s : State) (p : Part) (i : Nat) (f : Tdc → Tdc) : (s.modTdc p i f).bx.objs = s.bx.objs := by cases p <;> rfl
@[simp] theorem State.modTdc_bx_heldTakes (s : State) (p : Part) (i : Nat) (f : Tdc → Tdc) : (s.modTdc p i f).bx.heldTakes = s.bx.heldTakes := by cases p <;> rfl
@[simp] theorem State.modTdc_bx_trackers (s : State) (p : Part) (i : Nat) (f : Tdc → Tdc) : (s.modTdc p i f).bx.trackers = s.bx.trackers := by cases p <;> rfl
@[simp] theorem State.modTdc_bx_sends (s : State) (p : Part) (i : Nat) (f : Tdc → Tdc) : (s.modTdc p i f).bx.sends = s.bx.sends := by cases p <;> rfl
@[simp] theorem State.modTdc_bx_writes (s : State) (p : Part) (i : Nat) (f : Tdc → Tdc) : (s.modTdc p i f).bx.writes = s.bx.writes := by cases p <;> rfl
@[simp] theorem State.modTdc_bx_reads (s : State) (p : Part) (i : Nat) (f : Tdc → Tdc) : (s.modTdc p i f).bx.reads = s.bx.reads := by cases p <;> rfl
@[simp] theorem State.modTdc_bx_v2Waits (s : State) (p : Part) (i : Nat) (f : Tdc → Tdc) : (s.modTdc p i f).bx.v2Waits = s.bx.v2Waits := by cases p <;> rfl
@[simp] theorem State.modTdc_bx_waitSends (s : State) (p : Part) (i : Nat) (f : Tdc → Tdc) : (s.modTdc p i f).bx.waitSends = s.bx.waitSends := by cases p <;> rfl
@[simp] theorem State.modTdc_bx_parts (s : State) (p : Part) (i : Nat) (f : Tdc → Tdc) : (s.modTdc p i f).bx.parts = s.bx.parts := by cases p <;> rfl
@[simp] theorem State.modTdc_bx_nextPart (s : State) (p : Part) (i : Nat) (f : Tdc → Tdc) : (s.modTdc p i f).bx.nextPart = s.bx.nextPart := by cases p <;> rfl
@[simp] theorem State.modTdc_bx_readJobs (s : State) (p : Part) (i : Nat) (f : Tdc → Tdc) : (s.modTdc p i f).bx.readJobs = s.bx.readJobs := by cases p <;> rfl
@[simp] theorem State.modTdc_bx_nextJob (s : State) (p : Part) (i : Nat) (f : Tdc → Tdc) : (s.modTdc p i f).bx.nextJob = s.bx.nextJob := by cases p <;> rfl
@[simp] theorem State.modTdc_bx_bases (s : State) (p : Part) (i : Nat) (f : Tdc → Tdc) : (s.modTdc p i f).bx.bases = s.bx.bases := by cases p <;> rfl
@[simp] theorem State.modTdc_ks_build (s : State) (p : Part) (i : Nat) (f : Tdc → Tdc) : (s.modTdc p i f).ks.build = s.ks.build := by cases p <;> rfl
@[simp] theorem State.modTdc_ks_lostPlanes (s : State) (p : Part) (i : Nat) (f : Tdc → Tdc) : (s.modTdc p i f).ks.lostPlanes = s.ks.lostPlanes := by cases p <;> rfl
@[simp] theorem State.modTdc_ks_fences (s : State) (p : Part) (i : Nat) (f : Tdc → Tdc) : (s.modTdc p i f).ks.fences = s.ks.fences := by cases p <;> rfl
@[simp] theorem State.modTdc_ks_strapFb (s : State) (p : Part) (i : Nat) (f : Tdc → Tdc) : (s.modTdc p i f).ks.strapFb = s.ks.strapFb := by cases p <;> rfl
@[simp] theorem State.modTdc_ks_pcieEn (s : State) (p : Part) (i : Nat) (f : Tdc → Tdc) : (s.modTdc p i f).ks.pcieEn = s.ks.pcieEn := by cases p <;> rfl
@[simp] theorem State.modTdc_ks_tripped (s : State) (p : Part) (i : Nat) (f : Tdc → Tdc) : (s.modTdc p i f).ks.tripped = s.ks.tripped := by cases p <;> rfl
@[simp] theorem State.modTdc_ks_memFailed (s : State) (p : Part) (i : Nat) (f : Tdc → Tdc) : (s.modTdc p i f).ks.memFailed = s.ks.memFailed := by cases p <;> rfl
@[simp] theorem State.modTdc_ks_memErrors (s : State) (p : Part) (i : Nat) (f : Tdc → Tdc) : (s.modTdc p i f).ks.memErrors = s.ks.memErrors := by cases p <;> rfl
@[simp] theorem State.modTdc_ks_brimFailed (s : State) (p : Part) (i : Nat) (f : Tdc → Tdc) : (s.modTdc p i f).ks.brimFailed = s.ks.brimFailed := by cases p <;> rfl
@[simp] theorem State.modTdc_ks_coolantSince (s : State) (p : Part) (i : Nat) (f : Tdc → Tdc) : (s.modTdc p i f).ks.coolantSince = s.ks.coolantSince := by cases p <;> rfl
@[simp] theorem State.modTdc_ks_coolantTold (s : State) (p : Part) (i : Nat) (f : Tdc → Tdc) : (s.modTdc p i f).ks.coolantTold = s.ks.coolantTold := by cases p <;> rfl
@[simp] theorem State.modTdc_ks_lastCoolant (s : State) (p : Part) (i : Nat) (f : Tdc → Tdc) : (s.modTdc p i f).ks.lastCoolant = s.ks.lastCoolant := by cases p <;> rfl
@[simp] theorem State.modTdc_ks_lastThrottle (s : State) (p : Part) (i : Nat) (f : Tdc → Tdc) : (s.modTdc p i f).ks.lastThrottle = s.ks.lastThrottle := by cases p <;> rfl
@[simp] theorem State.modTdc_ks_lastAlive (s : State) (p : Part) (i : Nat) (f : Tdc → Tdc) : (s.modTdc p i f).ks.lastAlive = s.ks.lastAlive := by cases p <;> rfl
@[simp] theorem State.modTdc_ks_lastResend (s : State) (p : Part) (i : Nat) (f : Tdc → Tdc) : (s.modTdc p i f).ks.lastResend = s.ks.lastResend := by cases p <;> rfl
@[simp] theorem State.modTdc_ks_events (s : State) (p : Part) (i : Nat) (f : Tdc → Tdc) : (s.modTdc p i f).ks.events = s.ks.events := by cases p <;> rfl
@[simp] theorem State.modTdc_ks_evtDropped (s : State) (p : Part) (i : Nat) (f : Tdc → Tdc) : (s.modTdc p i f).ks.evtDropped = s.ks.evtDropped := by cases p <;> rfl
@[simp] theorem State.modTdc_ks_admitted (s : State) (p : Part) (i : Nat) (f : Tdc → Tdc) : (s.modTdc p i f).ks.admitted = s.ks.admitted := by cases p <;> rfl
@[simp] theorem State.modTdc_ks_aliveTold (s : State) (p : Part) (i : Nat) (f : Tdc → Tdc) : (s.modTdc p i f).ks.aliveTold = s.ks.aliveTold := by cases p <;> rfl
@[simp] theorem State.modTdc_ks_doms (s : State) (p : Part) (i : Nat) (f : Tdc → Tdc) : (s.modTdc p i f).ks.doms = s.ks.doms := by cases p <;> rfl
@[simp] theorem State.modTdc_ks_leafRecs (s : State) (p : Part) (i : Nat) (f : Tdc → Tdc) : (s.modTdc p i f).ks.leafRecs = s.ks.leafRecs := by cases p <;> rfl
@[simp] theorem State.modTdc_ks_chunks (s : State) (p : Part) (i : Nat) (f : Tdc → Tdc) : (s.modTdc p i f).ks.chunks = s.ks.chunks := by cases p <;> rfl
@[simp] theorem State.modTdc_ks_kept (s : State) (p : Part) (i : Nat) (f : Tdc → Tdc) : (s.modTdc p i f).ks.kept = s.ks.kept := by cases p <;> rfl
@[simp] theorem State.modTdc_ks_shards (s : State) (p : Part) (i : Nat) (f : Tdc → Tdc) : (s.modTdc p i f).ks.shards = s.ks.shards := by cases p <;> rfl
@[simp] theorem State.modTdc_ks_blockQ (s : State) (p : Part) (i : Nat) (f : Tdc → Tdc) : (s.modTdc p i f).ks.blockQ = s.ks.blockQ := by cases p <;> rfl
@[simp] theorem State.modTdc_ks_jobs (s : State) (p : Part) (i : Nat) (f : Tdc → Tdc) : (s.modTdc p i f).ks.jobs = s.ks.jobs := by cases p <;> rfl
@[simp] theorem State.modTdc_ks_waitJobs (s : State) (p : Part) (i : Nat) (f : Tdc → Tdc) : (s.modTdc p i f).ks.waitJobs = s.ks.waitJobs := by cases p <;> rfl
@[simp] theorem State.modTdc_ks_windows (s : State) (p : Part) (i : Nat) (f : Tdc → Tdc) : (s.modTdc p i f).ks.windows = s.ks.windows := by cases p <;> rfl
@[simp] theorem State.modTdc_ks_bases (s : State) (p : Part) (i : Nat) (f : Tdc → Tdc) : (s.modTdc p i f).ks.bases = s.ks.bases := by cases p <;> rfl
@[simp] theorem State.modTdc_ks_staged (s : State) (p : Part) (i : Nat) (f : Tdc → Tdc) : (s.modTdc p i f).ks.staged = s.ks.staged := by cases p <;> rfl
@[simp] theorem State.modTdc_ks_ckpts (s : State) (p : Part) (i : Nat) (f : Tdc → Tdc) : (s.modTdc p i f).ks.ckpts = s.ks.ckpts := by cases p <;> rfl
@[simp] theorem State.modTdc_ks_fills (s : State) (p : Part) (i : Nat) (f : Tdc → Tdc) : (s.modTdc p i f).ks.fills = s.ks.fills := by cases p <;> rfl
@[simp] theorem State.modTdc_ks_cupChecks (s : State) (p : Part) (i : Nat) (f : Tdc → Tdc) : (s.modTdc p i f).ks.cupChecks = s.ks.cupChecks := by cases p <;> rfl
@[simp] theorem State.modTdc_ks_shardReads (s : State) (p : Part) (i : Nat) (f : Tdc → Tdc) : (s.modTdc p i f).ks.shardReads = s.ks.shardReads := by cases p <;> rfl
@[simp] theorem State.modTdc_ks_grants (s : State) (p : Part) (i : Nat) (f : Tdc → Tdc) : (s.modTdc p i f).ks.grants = s.ks.grants := by cases p <;> rfl
@[simp] theorem State.modTdc_ks_dspLeaves (s : State) (p : Part) (i : Nat) (f : Tdc → Tdc) : (s.modTdc p i f).ks.dspLeaves = s.ks.dspLeaves := by cases p <;> rfl
@[simp] theorem State.modTdc_ks_dspHomes (s : State) (p : Part) (i : Nat) (f : Tdc → Tdc) : (s.modTdc p i f).ks.dspHomes = s.ks.dspHomes := by cases p <;> rfl
@[simp] theorem State.modTdc_ks_dspEngine (s : State) (p : Part) (i : Nat) (f : Tdc → Tdc) : (s.modTdc p i f).ks.dspEngine = s.ks.dspEngine := by cases p <;> rfl
@[simp] theorem State.modTdc_ks_dspQ (s : State) (p : Part) (i : Nat) (f : Tdc → Tdc) : (s.modTdc p i f).ks.dspQ = s.ks.dspQ := by cases p <;> rfl
@[simp] theorem State.modTdc_ks_tieReroute (s : State) (p : Part) (i : Nat) (f : Tdc → Tdc) : (s.modTdc p i f).ks.tieReroute = s.ks.tieReroute := by cases p <;> rfl
@[simp] theorem State.modTdc_ks_objs (s : State) (p : Part) (i : Nat) (f : Tdc → Tdc) : (s.modTdc p i f).ks.objs = s.ks.objs := by cases p <;> rfl
@[simp] theorem State.modTdc_ks_heldTakes (s : State) (p : Part) (i : Nat) (f : Tdc → Tdc) : (s.modTdc p i f).ks.heldTakes = s.ks.heldTakes := by cases p <;> rfl
@[simp] theorem State.modTdc_ks_trackers (s : State) (p : Part) (i : Nat) (f : Tdc → Tdc) : (s.modTdc p i f).ks.trackers = s.ks.trackers := by cases p <;> rfl
@[simp] theorem State.modTdc_ks_sends (s : State) (p : Part) (i : Nat) (f : Tdc → Tdc) : (s.modTdc p i f).ks.sends = s.ks.sends := by cases p <;> rfl
@[simp] theorem State.modTdc_ks_writes (s : State) (p : Part) (i : Nat) (f : Tdc → Tdc) : (s.modTdc p i f).ks.writes = s.ks.writes := by cases p <;> rfl
@[simp] theorem State.modTdc_ks_takesDone (s : State) (p : Part) (i : Nat) (f : Tdc → Tdc) : (s.modTdc p i f).ks.takesDone = s.ks.takesDone := by cases p <;> rfl
@[simp] theorem State.modTdc_ks_mem (s : State) (p : Part) (i : Nat) (f : Tdc → Tdc) : (s.modTdc p i f).ks.mem = s.ks.mem := by cases p <;> rfl
@[simp] theorem State.modTdc_ks_ptpDiscard (s : State) (p : Part) (i : Nat) (f : Tdc → Tdc) : (s.modTdc p i f).ks.ptpDiscard = s.ks.ptpDiscard := by cases p <;> rfl
@[simp] theorem State.modTdc_ks_ppsDelay (s : State) (p : Part) (i : Nat) (f : Tdc → Tdc) : (s.modTdc p i f).ks.ppsDelay = s.ks.ppsDelay := by cases p <;> rfl
@[simp] theorem State.modTdc_ks_v2Waits (s : State) (p : Part) (i : Nat) (f : Tdc → Tdc) : (s.modTdc p i f).ks.v2Waits = s.ks.v2Waits := by cases p <;> rfl
@[simp] theorem State.pt_modPt (s : State) (p : Part) (n : Nat) (f : PortTime → PortTime) : (s.modPt p n f).pt p n = f (s.pt p n) := by cases p <;> exact FMap.getD_update_self _ _ _ _
theorem State.pt_modPt_ne (s : State) (p : Part) {n j : Nat} (h : j ≠ n) (f : PortTime → PortTime) : (s.modPt p n f).pt p j = s.pt p j := by cases p <;> exact FMap.getD_update_ne _ h _ _ _
@[simp] theorem State.modPt_rd (s : State) (p : Part) (n : Nat) (f : PortTime → PortTime) (q : Part) (a : Nat) : (s.modPt p n f).rd q a = s.rd q a := by cases p <;> cases q <;> rfl
@[simp] theorem State.modPt_fld (s : State) (p : Part) (n : Nat) (f : PortTime → PortTime) (q : Part) (a lo n : Nat) : (s.modPt p n f).fld q a lo n = s.fld q a lo n := by cases p <;> cases q <;> rfl
@[simp] theorem State.modPt_bit (s : State) (p : Part) (n : Nat) (f : PortTime → PortTime) (q : Part) (a i : Nat) : (s.modPt p n f).bit q a i = s.bit q a i := by cases p <;> cases q <;> rfl
@[simp] theorem State.modPt_out (s : State) (p : Part) (n : Nat) (f : PortTime → PortTime) : (s.modPt p n f).out = s.out := by cases p <;> rfl
@[simp] theorem State.modPt_free (s : State) (p : Part) (n : Nat) (f : PortTime → PortTime) : (s.modPt p n f).free = s.free := by cases p <;> rfl
@[simp] theorem State.modPt_pending (s : State) (p : Part) (n : Nat) (f : PortTime → PortTime) : (s.modPt p n f).pending = s.pending := by cases p <;> rfl
@[simp] theorem State.modPt_stamp (s : State) (p : Part) (n : Nat) (f : PortTime → PortTime) (q : Part) : ((s.modPt p n f).pc q).stamp = (s.pc q).stamp := by cases p <;> cases q <;> rfl
@[simp] theorem State.modPt_ctr (s : State) (p : Part) (n : Nat) (f : PortTime → PortTime) (q : Part) : ((s.modPt p n f).pc q).ctr = (s.pc q).ctr := by cases p <;> cases q <;> rfl
@[simp] theorem State.modPt_fw (s : State) (p : Part) (n : Nat) (f : PortTime → PortTime) (q : Part) : ((s.modPt p n f).pc q).fw = (s.pc q).fw := by cases p <;> cases q <;> rfl
@[simp] theorem State.modPt_link (s : State) (p : Part) (n : Nat) (f : PortTime → PortTime) (q : Part) : ((s.modPt p n f).pc q).link = (s.pc q).link := by cases p <;> cases q <;> rfl
@[simp] theorem State.modPt_bx_straps (s : State) (p : Part) (n : Nat) (f : PortTime → PortTime) : (s.modPt p n f).bx.straps = s.bx.straps := by cases p <;> rfl
@[simp] theorem State.modPt_bx_refclkLost (s : State) (p : Part) (n : Nat) (f : PortTime → PortTime) : (s.modPt p n f).bx.refclkLost = s.bx.refclkLost := by cases p <;> rfl
@[simp] theorem State.modPt_bx_fenced (s : State) (p : Part) (n : Nat) (f : PortTime → PortTime) : (s.modPt p n f).bx.fenced = s.bx.fenced := by cases p <;> rfl
@[simp] theorem State.modPt_bx_fenceSeq (s : State) (p : Part) (n : Nat) (f : PortTime → PortTime) : (s.modPt p n f).bx.fenceSeq = s.bx.fenceSeq := by cases p <;> rfl
@[simp] theorem State.modPt_bx_prior (s : State) (p : Part) (n : Nat) (f : PortTime → PortTime) : (s.modPt p n f).bx.prior = s.bx.prior := by cases p <;> rfl
@[simp] theorem State.modPt_bx_reportSeq (s : State) (p : Part) (n : Nat) (f : PortTime → PortTime) : (s.modPt p n f).bx.reportSeq = s.bx.reportSeq := by cases p <;> rfl
@[simp] theorem State.modPt_bx_tenants (s : State) (p : Part) (n : Nat) (f : PortTime → PortTime) : (s.modPt p n f).bx.tenants = s.bx.tenants := by cases p <;> rfl
@[simp] theorem State.modPt_bx_slots (s : State) (p : Part) (n : Nat) (f : PortTime → PortTime) : (s.modPt p n f).bx.slots = s.bx.slots := by cases p <;> rfl
@[simp] theorem State.modPt_bx_objs (s : State) (p : Part) (n : Nat) (f : PortTime → PortTime) : (s.modPt p n f).bx.objs = s.bx.objs := by cases p <;> rfl
@[simp] theorem State.modPt_bx_heldTakes (s : State) (p : Part) (n : Nat) (f : PortTime → PortTime) : (s.modPt p n f).bx.heldTakes = s.bx.heldTakes := by cases p <;> rfl
@[simp] theorem State.modPt_bx_trackers (s : State) (p : Part) (n : Nat) (f : PortTime → PortTime) : (s.modPt p n f).bx.trackers = s.bx.trackers := by cases p <;> rfl
@[simp] theorem State.modPt_bx_sends (s : State) (p : Part) (n : Nat) (f : PortTime → PortTime) : (s.modPt p n f).bx.sends = s.bx.sends := by cases p <;> rfl
@[simp] theorem State.modPt_bx_writes (s : State) (p : Part) (n : Nat) (f : PortTime → PortTime) : (s.modPt p n f).bx.writes = s.bx.writes := by cases p <;> rfl
@[simp] theorem State.modPt_bx_reads (s : State) (p : Part) (n : Nat) (f : PortTime → PortTime) : (s.modPt p n f).bx.reads = s.bx.reads := by cases p <;> rfl
@[simp] theorem State.modPt_bx_v2Waits (s : State) (p : Part) (n : Nat) (f : PortTime → PortTime) : (s.modPt p n f).bx.v2Waits = s.bx.v2Waits := by cases p <;> rfl
@[simp] theorem State.modPt_bx_waitSends (s : State) (p : Part) (n : Nat) (f : PortTime → PortTime) : (s.modPt p n f).bx.waitSends = s.bx.waitSends := by cases p <;> rfl
@[simp] theorem State.modPt_bx_parts (s : State) (p : Part) (n : Nat) (f : PortTime → PortTime) : (s.modPt p n f).bx.parts = s.bx.parts := by cases p <;> rfl
@[simp] theorem State.modPt_bx_nextPart (s : State) (p : Part) (n : Nat) (f : PortTime → PortTime) : (s.modPt p n f).bx.nextPart = s.bx.nextPart := by cases p <;> rfl
@[simp] theorem State.modPt_bx_readJobs (s : State) (p : Part) (n : Nat) (f : PortTime → PortTime) : (s.modPt p n f).bx.readJobs = s.bx.readJobs := by cases p <;> rfl
@[simp] theorem State.modPt_bx_nextJob (s : State) (p : Part) (n : Nat) (f : PortTime → PortTime) : (s.modPt p n f).bx.nextJob = s.bx.nextJob := by cases p <;> rfl
@[simp] theorem State.modPt_bx_bases (s : State) (p : Part) (n : Nat) (f : PortTime → PortTime) : (s.modPt p n f).bx.bases = s.bx.bases := by cases p <;> rfl
@[simp] theorem State.modPt_ks_build (s : State) (p : Part) (n : Nat) (f : PortTime → PortTime) : (s.modPt p n f).ks.build = s.ks.build := by cases p <;> rfl
@[simp] theorem State.modPt_ks_lostPlanes (s : State) (p : Part) (n : Nat) (f : PortTime → PortTime) : (s.modPt p n f).ks.lostPlanes = s.ks.lostPlanes := by cases p <;> rfl
@[simp] theorem State.modPt_ks_fences (s : State) (p : Part) (n : Nat) (f : PortTime → PortTime) : (s.modPt p n f).ks.fences = s.ks.fences := by cases p <;> rfl
@[simp] theorem State.modPt_ks_strapFb (s : State) (p : Part) (n : Nat) (f : PortTime → PortTime) : (s.modPt p n f).ks.strapFb = s.ks.strapFb := by cases p <;> rfl
@[simp] theorem State.modPt_ks_pcieEn (s : State) (p : Part) (n : Nat) (f : PortTime → PortTime) : (s.modPt p n f).ks.pcieEn = s.ks.pcieEn := by cases p <;> rfl
@[simp] theorem State.modPt_ks_tripped (s : State) (p : Part) (n : Nat) (f : PortTime → PortTime) : (s.modPt p n f).ks.tripped = s.ks.tripped := by cases p <;> rfl
@[simp] theorem State.modPt_ks_memFailed (s : State) (p : Part) (n : Nat) (f : PortTime → PortTime) : (s.modPt p n f).ks.memFailed = s.ks.memFailed := by cases p <;> rfl
@[simp] theorem State.modPt_ks_memErrors (s : State) (p : Part) (n : Nat) (f : PortTime → PortTime) : (s.modPt p n f).ks.memErrors = s.ks.memErrors := by cases p <;> rfl
@[simp] theorem State.modPt_ks_brimFailed (s : State) (p : Part) (n : Nat) (f : PortTime → PortTime) : (s.modPt p n f).ks.brimFailed = s.ks.brimFailed := by cases p <;> rfl
@[simp] theorem State.modPt_ks_coolantSince (s : State) (p : Part) (n : Nat) (f : PortTime → PortTime) : (s.modPt p n f).ks.coolantSince = s.ks.coolantSince := by cases p <;> rfl
@[simp] theorem State.modPt_ks_coolantTold (s : State) (p : Part) (n : Nat) (f : PortTime → PortTime) : (s.modPt p n f).ks.coolantTold = s.ks.coolantTold := by cases p <;> rfl
@[simp] theorem State.modPt_ks_lastCoolant (s : State) (p : Part) (n : Nat) (f : PortTime → PortTime) : (s.modPt p n f).ks.lastCoolant = s.ks.lastCoolant := by cases p <;> rfl
@[simp] theorem State.modPt_ks_lastThrottle (s : State) (p : Part) (n : Nat) (f : PortTime → PortTime) : (s.modPt p n f).ks.lastThrottle = s.ks.lastThrottle := by cases p <;> rfl
@[simp] theorem State.modPt_ks_lastAlive (s : State) (p : Part) (n : Nat) (f : PortTime → PortTime) : (s.modPt p n f).ks.lastAlive = s.ks.lastAlive := by cases p <;> rfl
@[simp] theorem State.modPt_ks_lastResend (s : State) (p : Part) (n : Nat) (f : PortTime → PortTime) : (s.modPt p n f).ks.lastResend = s.ks.lastResend := by cases p <;> rfl
@[simp] theorem State.modPt_ks_events (s : State) (p : Part) (n : Nat) (f : PortTime → PortTime) : (s.modPt p n f).ks.events = s.ks.events := by cases p <;> rfl
@[simp] theorem State.modPt_ks_evtDropped (s : State) (p : Part) (n : Nat) (f : PortTime → PortTime) : (s.modPt p n f).ks.evtDropped = s.ks.evtDropped := by cases p <;> rfl
@[simp] theorem State.modPt_ks_admitted (s : State) (p : Part) (n : Nat) (f : PortTime → PortTime) : (s.modPt p n f).ks.admitted = s.ks.admitted := by cases p <;> rfl
@[simp] theorem State.modPt_ks_aliveTold (s : State) (p : Part) (n : Nat) (f : PortTime → PortTime) : (s.modPt p n f).ks.aliveTold = s.ks.aliveTold := by cases p <;> rfl
@[simp] theorem State.modPt_ks_doms (s : State) (p : Part) (n : Nat) (f : PortTime → PortTime) : (s.modPt p n f).ks.doms = s.ks.doms := by cases p <;> rfl
@[simp] theorem State.modPt_ks_leafRecs (s : State) (p : Part) (n : Nat) (f : PortTime → PortTime) : (s.modPt p n f).ks.leafRecs = s.ks.leafRecs := by cases p <;> rfl
@[simp] theorem State.modPt_ks_chunks (s : State) (p : Part) (n : Nat) (f : PortTime → PortTime) : (s.modPt p n f).ks.chunks = s.ks.chunks := by cases p <;> rfl
@[simp] theorem State.modPt_ks_kept (s : State) (p : Part) (n : Nat) (f : PortTime → PortTime) : (s.modPt p n f).ks.kept = s.ks.kept := by cases p <;> rfl
@[simp] theorem State.modPt_ks_shards (s : State) (p : Part) (n : Nat) (f : PortTime → PortTime) : (s.modPt p n f).ks.shards = s.ks.shards := by cases p <;> rfl
@[simp] theorem State.modPt_ks_blockQ (s : State) (p : Part) (n : Nat) (f : PortTime → PortTime) : (s.modPt p n f).ks.blockQ = s.ks.blockQ := by cases p <;> rfl
@[simp] theorem State.modPt_ks_jobs (s : State) (p : Part) (n : Nat) (f : PortTime → PortTime) : (s.modPt p n f).ks.jobs = s.ks.jobs := by cases p <;> rfl
@[simp] theorem State.modPt_ks_waitJobs (s : State) (p : Part) (n : Nat) (f : PortTime → PortTime) : (s.modPt p n f).ks.waitJobs = s.ks.waitJobs := by cases p <;> rfl
@[simp] theorem State.modPt_ks_windows (s : State) (p : Part) (n : Nat) (f : PortTime → PortTime) : (s.modPt p n f).ks.windows = s.ks.windows := by cases p <;> rfl
@[simp] theorem State.modPt_ks_bases (s : State) (p : Part) (n : Nat) (f : PortTime → PortTime) : (s.modPt p n f).ks.bases = s.ks.bases := by cases p <;> rfl
@[simp] theorem State.modPt_ks_staged (s : State) (p : Part) (n : Nat) (f : PortTime → PortTime) : (s.modPt p n f).ks.staged = s.ks.staged := by cases p <;> rfl
@[simp] theorem State.modPt_ks_ckpts (s : State) (p : Part) (n : Nat) (f : PortTime → PortTime) : (s.modPt p n f).ks.ckpts = s.ks.ckpts := by cases p <;> rfl
@[simp] theorem State.modPt_ks_fills (s : State) (p : Part) (n : Nat) (f : PortTime → PortTime) : (s.modPt p n f).ks.fills = s.ks.fills := by cases p <;> rfl
@[simp] theorem State.modPt_ks_cupChecks (s : State) (p : Part) (n : Nat) (f : PortTime → PortTime) : (s.modPt p n f).ks.cupChecks = s.ks.cupChecks := by cases p <;> rfl
@[simp] theorem State.modPt_ks_shardReads (s : State) (p : Part) (n : Nat) (f : PortTime → PortTime) : (s.modPt p n f).ks.shardReads = s.ks.shardReads := by cases p <;> rfl
@[simp] theorem State.modPt_ks_grants (s : State) (p : Part) (n : Nat) (f : PortTime → PortTime) : (s.modPt p n f).ks.grants = s.ks.grants := by cases p <;> rfl
@[simp] theorem State.modPt_ks_dspLeaves (s : State) (p : Part) (n : Nat) (f : PortTime → PortTime) : (s.modPt p n f).ks.dspLeaves = s.ks.dspLeaves := by cases p <;> rfl
@[simp] theorem State.modPt_ks_dspHomes (s : State) (p : Part) (n : Nat) (f : PortTime → PortTime) : (s.modPt p n f).ks.dspHomes = s.ks.dspHomes := by cases p <;> rfl
@[simp] theorem State.modPt_ks_dspEngine (s : State) (p : Part) (n : Nat) (f : PortTime → PortTime) : (s.modPt p n f).ks.dspEngine = s.ks.dspEngine := by cases p <;> rfl
@[simp] theorem State.modPt_ks_dspQ (s : State) (p : Part) (n : Nat) (f : PortTime → PortTime) : (s.modPt p n f).ks.dspQ = s.ks.dspQ := by cases p <;> rfl
@[simp] theorem State.modPt_ks_tieReroute (s : State) (p : Part) (n : Nat) (f : PortTime → PortTime) : (s.modPt p n f).ks.tieReroute = s.ks.tieReroute := by cases p <;> rfl
@[simp] theorem State.modPt_ks_objs (s : State) (p : Part) (n : Nat) (f : PortTime → PortTime) : (s.modPt p n f).ks.objs = s.ks.objs := by cases p <;> rfl
@[simp] theorem State.modPt_ks_heldTakes (s : State) (p : Part) (n : Nat) (f : PortTime → PortTime) : (s.modPt p n f).ks.heldTakes = s.ks.heldTakes := by cases p <;> rfl
@[simp] theorem State.modPt_ks_trackers (s : State) (p : Part) (n : Nat) (f : PortTime → PortTime) : (s.modPt p n f).ks.trackers = s.ks.trackers := by cases p <;> rfl
@[simp] theorem State.modPt_ks_sends (s : State) (p : Part) (n : Nat) (f : PortTime → PortTime) : (s.modPt p n f).ks.sends = s.ks.sends := by cases p <;> rfl
@[simp] theorem State.modPt_ks_writes (s : State) (p : Part) (n : Nat) (f : PortTime → PortTime) : (s.modPt p n f).ks.writes = s.ks.writes := by cases p <;> rfl
@[simp] theorem State.modPt_ks_takesDone (s : State) (p : Part) (n : Nat) (f : PortTime → PortTime) : (s.modPt p n f).ks.takesDone = s.ks.takesDone := by cases p <;> rfl
@[simp] theorem State.modPt_ks_mem (s : State) (p : Part) (n : Nat) (f : PortTime → PortTime) : (s.modPt p n f).ks.mem = s.ks.mem := by cases p <;> rfl
@[simp] theorem State.modPt_ks_ptpDiscard (s : State) (p : Part) (n : Nat) (f : PortTime → PortTime) : (s.modPt p n f).ks.ptpDiscard = s.ks.ptpDiscard := by cases p <;> rfl
@[simp] theorem State.modPt_ks_ppsDelay (s : State) (p : Part) (n : Nat) (f : PortTime → PortTime) : (s.modPt p n f).ks.ppsDelay = s.ks.ppsDelay := by cases p <;> rfl
@[simp] theorem State.modPt_ks_v2Waits (s : State) (p : Part) (n : Nat) (f : PortTime → PortTime) : (s.modPt p n f).ks.v2Waits = s.ks.v2Waits := by cases p <;> rfl
@[simp] theorem State.lp_modLp (s : State) (p : Part) (n : Nat) (f : LinkPort → LinkPort) : (s.modLp p n f).lp p n = f (s.lp p n) := by cases p <;> exact FMap.getD_update_self _ _ _ _
theorem State.lp_modLp_ne (s : State) (p : Part) {n j : Nat} (h : j ≠ n) (f : LinkPort → LinkPort) : (s.modLp p n f).lp p j = s.lp p j := by cases p <;> exact FMap.getD_update_ne _ h _ _ _
@[simp] theorem State.modLp_rd (s : State) (p : Part) (n : Nat) (f : LinkPort → LinkPort) (q : Part) (a : Nat) : (s.modLp p n f).rd q a = s.rd q a := by cases p <;> cases q <;> rfl
@[simp] theorem State.modLp_fld (s : State) (p : Part) (n : Nat) (f : LinkPort → LinkPort) (q : Part) (a lo n : Nat) : (s.modLp p n f).fld q a lo n = s.fld q a lo n := by cases p <;> cases q <;> rfl
@[simp] theorem State.modLp_bit (s : State) (p : Part) (n : Nat) (f : LinkPort → LinkPort) (q : Part) (a i : Nat) : (s.modLp p n f).bit q a i = s.bit q a i := by cases p <;> cases q <;> rfl
@[simp] theorem State.modLp_out (s : State) (p : Part) (n : Nat) (f : LinkPort → LinkPort) : (s.modLp p n f).out = s.out := by cases p <;> rfl
@[simp] theorem State.modLp_free (s : State) (p : Part) (n : Nat) (f : LinkPort → LinkPort) : (s.modLp p n f).free = s.free := by cases p <;> rfl
@[simp] theorem State.modLp_pending (s : State) (p : Part) (n : Nat) (f : LinkPort → LinkPort) : (s.modLp p n f).pending = s.pending := by cases p <;> rfl
@[simp] theorem State.modLp_time (s : State) (p : Part) (n : Nat) (f : LinkPort → LinkPort) (q : Part) : ((s.modLp p n f).pc q).time = (s.pc q).time := by cases p <;> cases q <;> rfl
@[simp] theorem State.modLp_stamp (s : State) (p : Part) (n : Nat) (f : LinkPort → LinkPort) (q : Part) : ((s.modLp p n f).pc q).stamp = (s.pc q).stamp := by cases p <;> cases q <;> rfl
@[simp] theorem State.modLp_ctr (s : State) (p : Part) (n : Nat) (f : LinkPort → LinkPort) (q : Part) : ((s.modLp p n f).pc q).ctr = (s.pc q).ctr := by cases p <;> cases q <;> rfl
@[simp] theorem State.modLp_fw (s : State) (p : Part) (n : Nat) (f : LinkPort → LinkPort) (q : Part) : ((s.modLp p n f).pc q).fw = (s.pc q).fw := by cases p <;> cases q <;> rfl
@[simp] theorem State.modLp_bx_straps (s : State) (p : Part) (n : Nat) (f : LinkPort → LinkPort) : (s.modLp p n f).bx.straps = s.bx.straps := by cases p <;> rfl
@[simp] theorem State.modLp_bx_refclkLost (s : State) (p : Part) (n : Nat) (f : LinkPort → LinkPort) : (s.modLp p n f).bx.refclkLost = s.bx.refclkLost := by cases p <;> rfl
@[simp] theorem State.modLp_bx_fenced (s : State) (p : Part) (n : Nat) (f : LinkPort → LinkPort) : (s.modLp p n f).bx.fenced = s.bx.fenced := by cases p <;> rfl
@[simp] theorem State.modLp_bx_fenceSeq (s : State) (p : Part) (n : Nat) (f : LinkPort → LinkPort) : (s.modLp p n f).bx.fenceSeq = s.bx.fenceSeq := by cases p <;> rfl
@[simp] theorem State.modLp_bx_prior (s : State) (p : Part) (n : Nat) (f : LinkPort → LinkPort) : (s.modLp p n f).bx.prior = s.bx.prior := by cases p <;> rfl
@[simp] theorem State.modLp_bx_reportSeq (s : State) (p : Part) (n : Nat) (f : LinkPort → LinkPort) : (s.modLp p n f).bx.reportSeq = s.bx.reportSeq := by cases p <;> rfl
@[simp] theorem State.modLp_bx_tenants (s : State) (p : Part) (n : Nat) (f : LinkPort → LinkPort) : (s.modLp p n f).bx.tenants = s.bx.tenants := by cases p <;> rfl
@[simp] theorem State.modLp_bx_slots (s : State) (p : Part) (n : Nat) (f : LinkPort → LinkPort) : (s.modLp p n f).bx.slots = s.bx.slots := by cases p <;> rfl
@[simp] theorem State.modLp_bx_objs (s : State) (p : Part) (n : Nat) (f : LinkPort → LinkPort) : (s.modLp p n f).bx.objs = s.bx.objs := by cases p <;> rfl
@[simp] theorem State.modLp_bx_heldTakes (s : State) (p : Part) (n : Nat) (f : LinkPort → LinkPort) : (s.modLp p n f).bx.heldTakes = s.bx.heldTakes := by cases p <;> rfl
@[simp] theorem State.modLp_bx_trackers (s : State) (p : Part) (n : Nat) (f : LinkPort → LinkPort) : (s.modLp p n f).bx.trackers = s.bx.trackers := by cases p <;> rfl
@[simp] theorem State.modLp_bx_sends (s : State) (p : Part) (n : Nat) (f : LinkPort → LinkPort) : (s.modLp p n f).bx.sends = s.bx.sends := by cases p <;> rfl
@[simp] theorem State.modLp_bx_writes (s : State) (p : Part) (n : Nat) (f : LinkPort → LinkPort) : (s.modLp p n f).bx.writes = s.bx.writes := by cases p <;> rfl
@[simp] theorem State.modLp_bx_reads (s : State) (p : Part) (n : Nat) (f : LinkPort → LinkPort) : (s.modLp p n f).bx.reads = s.bx.reads := by cases p <;> rfl
@[simp] theorem State.modLp_bx_v2Waits (s : State) (p : Part) (n : Nat) (f : LinkPort → LinkPort) : (s.modLp p n f).bx.v2Waits = s.bx.v2Waits := by cases p <;> rfl
@[simp] theorem State.modLp_bx_waitSends (s : State) (p : Part) (n : Nat) (f : LinkPort → LinkPort) : (s.modLp p n f).bx.waitSends = s.bx.waitSends := by cases p <;> rfl
@[simp] theorem State.modLp_bx_parts (s : State) (p : Part) (n : Nat) (f : LinkPort → LinkPort) : (s.modLp p n f).bx.parts = s.bx.parts := by cases p <;> rfl
@[simp] theorem State.modLp_bx_nextPart (s : State) (p : Part) (n : Nat) (f : LinkPort → LinkPort) : (s.modLp p n f).bx.nextPart = s.bx.nextPart := by cases p <;> rfl
@[simp] theorem State.modLp_bx_readJobs (s : State) (p : Part) (n : Nat) (f : LinkPort → LinkPort) : (s.modLp p n f).bx.readJobs = s.bx.readJobs := by cases p <;> rfl
@[simp] theorem State.modLp_bx_nextJob (s : State) (p : Part) (n : Nat) (f : LinkPort → LinkPort) : (s.modLp p n f).bx.nextJob = s.bx.nextJob := by cases p <;> rfl
@[simp] theorem State.modLp_bx_bases (s : State) (p : Part) (n : Nat) (f : LinkPort → LinkPort) : (s.modLp p n f).bx.bases = s.bx.bases := by cases p <;> rfl
@[simp] theorem State.modLp_ks_build (s : State) (p : Part) (n : Nat) (f : LinkPort → LinkPort) : (s.modLp p n f).ks.build = s.ks.build := by cases p <;> rfl
@[simp] theorem State.modLp_ks_lostPlanes (s : State) (p : Part) (n : Nat) (f : LinkPort → LinkPort) : (s.modLp p n f).ks.lostPlanes = s.ks.lostPlanes := by cases p <;> rfl
@[simp] theorem State.modLp_ks_fences (s : State) (p : Part) (n : Nat) (f : LinkPort → LinkPort) : (s.modLp p n f).ks.fences = s.ks.fences := by cases p <;> rfl
@[simp] theorem State.modLp_ks_strapFb (s : State) (p : Part) (n : Nat) (f : LinkPort → LinkPort) : (s.modLp p n f).ks.strapFb = s.ks.strapFb := by cases p <;> rfl
@[simp] theorem State.modLp_ks_pcieEn (s : State) (p : Part) (n : Nat) (f : LinkPort → LinkPort) : (s.modLp p n f).ks.pcieEn = s.ks.pcieEn := by cases p <;> rfl
@[simp] theorem State.modLp_ks_tripped (s : State) (p : Part) (n : Nat) (f : LinkPort → LinkPort) : (s.modLp p n f).ks.tripped = s.ks.tripped := by cases p <;> rfl
@[simp] theorem State.modLp_ks_memFailed (s : State) (p : Part) (n : Nat) (f : LinkPort → LinkPort) : (s.modLp p n f).ks.memFailed = s.ks.memFailed := by cases p <;> rfl
@[simp] theorem State.modLp_ks_memErrors (s : State) (p : Part) (n : Nat) (f : LinkPort → LinkPort) : (s.modLp p n f).ks.memErrors = s.ks.memErrors := by cases p <;> rfl
@[simp] theorem State.modLp_ks_brimFailed (s : State) (p : Part) (n : Nat) (f : LinkPort → LinkPort) : (s.modLp p n f).ks.brimFailed = s.ks.brimFailed := by cases p <;> rfl
@[simp] theorem State.modLp_ks_coolantSince (s : State) (p : Part) (n : Nat) (f : LinkPort → LinkPort) : (s.modLp p n f).ks.coolantSince = s.ks.coolantSince := by cases p <;> rfl
@[simp] theorem State.modLp_ks_coolantTold (s : State) (p : Part) (n : Nat) (f : LinkPort → LinkPort) : (s.modLp p n f).ks.coolantTold = s.ks.coolantTold := by cases p <;> rfl
@[simp] theorem State.modLp_ks_lastCoolant (s : State) (p : Part) (n : Nat) (f : LinkPort → LinkPort) : (s.modLp p n f).ks.lastCoolant = s.ks.lastCoolant := by cases p <;> rfl
@[simp] theorem State.modLp_ks_lastThrottle (s : State) (p : Part) (n : Nat) (f : LinkPort → LinkPort) : (s.modLp p n f).ks.lastThrottle = s.ks.lastThrottle := by cases p <;> rfl
@[simp] theorem State.modLp_ks_lastAlive (s : State) (p : Part) (n : Nat) (f : LinkPort → LinkPort) : (s.modLp p n f).ks.lastAlive = s.ks.lastAlive := by cases p <;> rfl
@[simp] theorem State.modLp_ks_lastResend (s : State) (p : Part) (n : Nat) (f : LinkPort → LinkPort) : (s.modLp p n f).ks.lastResend = s.ks.lastResend := by cases p <;> rfl
@[simp] theorem State.modLp_ks_events (s : State) (p : Part) (n : Nat) (f : LinkPort → LinkPort) : (s.modLp p n f).ks.events = s.ks.events := by cases p <;> rfl
@[simp] theorem State.modLp_ks_evtDropped (s : State) (p : Part) (n : Nat) (f : LinkPort → LinkPort) : (s.modLp p n f).ks.evtDropped = s.ks.evtDropped := by cases p <;> rfl
@[simp] theorem State.modLp_ks_admitted (s : State) (p : Part) (n : Nat) (f : LinkPort → LinkPort) : (s.modLp p n f).ks.admitted = s.ks.admitted := by cases p <;> rfl
@[simp] theorem State.modLp_ks_aliveTold (s : State) (p : Part) (n : Nat) (f : LinkPort → LinkPort) : (s.modLp p n f).ks.aliveTold = s.ks.aliveTold := by cases p <;> rfl
@[simp] theorem State.modLp_ks_doms (s : State) (p : Part) (n : Nat) (f : LinkPort → LinkPort) : (s.modLp p n f).ks.doms = s.ks.doms := by cases p <;> rfl
@[simp] theorem State.modLp_ks_leafRecs (s : State) (p : Part) (n : Nat) (f : LinkPort → LinkPort) : (s.modLp p n f).ks.leafRecs = s.ks.leafRecs := by cases p <;> rfl
@[simp] theorem State.modLp_ks_chunks (s : State) (p : Part) (n : Nat) (f : LinkPort → LinkPort) : (s.modLp p n f).ks.chunks = s.ks.chunks := by cases p <;> rfl
@[simp] theorem State.modLp_ks_kept (s : State) (p : Part) (n : Nat) (f : LinkPort → LinkPort) : (s.modLp p n f).ks.kept = s.ks.kept := by cases p <;> rfl
@[simp] theorem State.modLp_ks_shards (s : State) (p : Part) (n : Nat) (f : LinkPort → LinkPort) : (s.modLp p n f).ks.shards = s.ks.shards := by cases p <;> rfl
@[simp] theorem State.modLp_ks_blockQ (s : State) (p : Part) (n : Nat) (f : LinkPort → LinkPort) : (s.modLp p n f).ks.blockQ = s.ks.blockQ := by cases p <;> rfl
@[simp] theorem State.modLp_ks_jobs (s : State) (p : Part) (n : Nat) (f : LinkPort → LinkPort) : (s.modLp p n f).ks.jobs = s.ks.jobs := by cases p <;> rfl
@[simp] theorem State.modLp_ks_waitJobs (s : State) (p : Part) (n : Nat) (f : LinkPort → LinkPort) : (s.modLp p n f).ks.waitJobs = s.ks.waitJobs := by cases p <;> rfl
@[simp] theorem State.modLp_ks_windows (s : State) (p : Part) (n : Nat) (f : LinkPort → LinkPort) : (s.modLp p n f).ks.windows = s.ks.windows := by cases p <;> rfl
@[simp] theorem State.modLp_ks_bases (s : State) (p : Part) (n : Nat) (f : LinkPort → LinkPort) : (s.modLp p n f).ks.bases = s.ks.bases := by cases p <;> rfl
@[simp] theorem State.modLp_ks_staged (s : State) (p : Part) (n : Nat) (f : LinkPort → LinkPort) : (s.modLp p n f).ks.staged = s.ks.staged := by cases p <;> rfl
@[simp] theorem State.modLp_ks_ckpts (s : State) (p : Part) (n : Nat) (f : LinkPort → LinkPort) : (s.modLp p n f).ks.ckpts = s.ks.ckpts := by cases p <;> rfl
@[simp] theorem State.modLp_ks_fills (s : State) (p : Part) (n : Nat) (f : LinkPort → LinkPort) : (s.modLp p n f).ks.fills = s.ks.fills := by cases p <;> rfl
@[simp] theorem State.modLp_ks_cupChecks (s : State) (p : Part) (n : Nat) (f : LinkPort → LinkPort) : (s.modLp p n f).ks.cupChecks = s.ks.cupChecks := by cases p <;> rfl
@[simp] theorem State.modLp_ks_shardReads (s : State) (p : Part) (n : Nat) (f : LinkPort → LinkPort) : (s.modLp p n f).ks.shardReads = s.ks.shardReads := by cases p <;> rfl
@[simp] theorem State.modLp_ks_grants (s : State) (p : Part) (n : Nat) (f : LinkPort → LinkPort) : (s.modLp p n f).ks.grants = s.ks.grants := by cases p <;> rfl
@[simp] theorem State.modLp_ks_dspLeaves (s : State) (p : Part) (n : Nat) (f : LinkPort → LinkPort) : (s.modLp p n f).ks.dspLeaves = s.ks.dspLeaves := by cases p <;> rfl
@[simp] theorem State.modLp_ks_dspHomes (s : State) (p : Part) (n : Nat) (f : LinkPort → LinkPort) : (s.modLp p n f).ks.dspHomes = s.ks.dspHomes := by cases p <;> rfl
@[simp] theorem State.modLp_ks_dspEngine (s : State) (p : Part) (n : Nat) (f : LinkPort → LinkPort) : (s.modLp p n f).ks.dspEngine = s.ks.dspEngine := by cases p <;> rfl
@[simp] theorem State.modLp_ks_dspQ (s : State) (p : Part) (n : Nat) (f : LinkPort → LinkPort) : (s.modLp p n f).ks.dspQ = s.ks.dspQ := by cases p <;> rfl
@[simp] theorem State.modLp_ks_tieReroute (s : State) (p : Part) (n : Nat) (f : LinkPort → LinkPort) : (s.modLp p n f).ks.tieReroute = s.ks.tieReroute := by cases p <;> rfl
@[simp] theorem State.modLp_ks_objs (s : State) (p : Part) (n : Nat) (f : LinkPort → LinkPort) : (s.modLp p n f).ks.objs = s.ks.objs := by cases p <;> rfl
@[simp] theorem State.modLp_ks_heldTakes (s : State) (p : Part) (n : Nat) (f : LinkPort → LinkPort) : (s.modLp p n f).ks.heldTakes = s.ks.heldTakes := by cases p <;> rfl
@[simp] theorem State.modLp_ks_trackers (s : State) (p : Part) (n : Nat) (f : LinkPort → LinkPort) : (s.modLp p n f).ks.trackers = s.ks.trackers := by cases p <;> rfl
@[simp] theorem State.modLp_ks_sends (s : State) (p : Part) (n : Nat) (f : LinkPort → LinkPort) : (s.modLp p n f).ks.sends = s.ks.sends := by cases p <;> rfl
@[simp] theorem State.modLp_ks_writes (s : State) (p : Part) (n : Nat) (f : LinkPort → LinkPort) : (s.modLp p n f).ks.writes = s.ks.writes := by cases p <;> rfl
@[simp] theorem State.modLp_ks_takesDone (s : State) (p : Part) (n : Nat) (f : LinkPort → LinkPort) : (s.modLp p n f).ks.takesDone = s.ks.takesDone := by cases p <;> rfl
@[simp] theorem State.modLp_ks_mem (s : State) (p : Part) (n : Nat) (f : LinkPort → LinkPort) : (s.modLp p n f).ks.mem = s.ks.mem := by cases p <;> rfl
@[simp] theorem State.modLp_ks_ptpDiscard (s : State) (p : Part) (n : Nat) (f : LinkPort → LinkPort) : (s.modLp p n f).ks.ptpDiscard = s.ks.ptpDiscard := by cases p <;> rfl
@[simp] theorem State.modLp_ks_ppsDelay (s : State) (p : Part) (n : Nat) (f : LinkPort → LinkPort) : (s.modLp p n f).ks.ppsDelay = s.ks.ppsDelay := by cases p <;> rfl
@[simp] theorem State.modLp_ks_v2Waits (s : State) (p : Part) (n : Nat) (f : LinkPort → LinkPort) : (s.modLp p n f).ks.v2Waits = s.ks.v2Waits := by cases p <;> rfl
@[simp] theorem State.gp_modGp (s : State) (p : Part) (n : Nat) (f : GatePort → GatePort) : (s.modGp p n f).gp p n = f (s.gp p n) := by cases p <;> exact FMap.getD_update_self _ _ _ _
theorem State.gp_modGp_ne (s : State) (p : Part) {n j : Nat} (h : j ≠ n) (f : GatePort → GatePort) : (s.modGp p n f).gp p j = s.gp p j := by cases p <;> exact FMap.getD_update_ne _ h _ _ _
@[simp] theorem State.modGp_rd (s : State) (p : Part) (n : Nat) (f : GatePort → GatePort) (q : Part) (a : Nat) : (s.modGp p n f).rd q a = s.rd q a := by cases p <;> cases q <;> rfl
@[simp] theorem State.modGp_fld (s : State) (p : Part) (n : Nat) (f : GatePort → GatePort) (q : Part) (a lo n : Nat) : (s.modGp p n f).fld q a lo n = s.fld q a lo n := by cases p <;> cases q <;> rfl
@[simp] theorem State.modGp_bit (s : State) (p : Part) (n : Nat) (f : GatePort → GatePort) (q : Part) (a i : Nat) : (s.modGp p n f).bit q a i = s.bit q a i := by cases p <;> cases q <;> rfl
@[simp] theorem State.modGp_out (s : State) (p : Part) (n : Nat) (f : GatePort → GatePort) : (s.modGp p n f).out = s.out := by cases p <;> rfl
@[simp] theorem State.modGp_free (s : State) (p : Part) (n : Nat) (f : GatePort → GatePort) : (s.modGp p n f).free = s.free := by cases p <;> rfl
@[simp] theorem State.modGp_pending (s : State) (p : Part) (n : Nat) (f : GatePort → GatePort) : (s.modGp p n f).pending = s.pending := by cases p <;> rfl
@[simp] theorem State.modGp_time (s : State) (p : Part) (n : Nat) (f : GatePort → GatePort) (q : Part) : ((s.modGp p n f).pc q).time = (s.pc q).time := by cases p <;> cases q <;> rfl
@[simp] theorem State.modGp_stamp (s : State) (p : Part) (n : Nat) (f : GatePort → GatePort) (q : Part) : ((s.modGp p n f).pc q).stamp = (s.pc q).stamp := by cases p <;> cases q <;> rfl
@[simp] theorem State.modGp_ctr (s : State) (p : Part) (n : Nat) (f : GatePort → GatePort) (q : Part) : ((s.modGp p n f).pc q).ctr = (s.pc q).ctr := by cases p <;> cases q <;> rfl
@[simp] theorem State.modGp_fw (s : State) (p : Part) (n : Nat) (f : GatePort → GatePort) (q : Part) : ((s.modGp p n f).pc q).fw = (s.pc q).fw := by cases p <;> cases q <;> rfl
@[simp] theorem State.modGp_bx_straps (s : State) (p : Part) (n : Nat) (f : GatePort → GatePort) : (s.modGp p n f).bx.straps = s.bx.straps := by cases p <;> rfl
@[simp] theorem State.modGp_bx_refclkLost (s : State) (p : Part) (n : Nat) (f : GatePort → GatePort) : (s.modGp p n f).bx.refclkLost = s.bx.refclkLost := by cases p <;> rfl
@[simp] theorem State.modGp_bx_fenced (s : State) (p : Part) (n : Nat) (f : GatePort → GatePort) : (s.modGp p n f).bx.fenced = s.bx.fenced := by cases p <;> rfl
@[simp] theorem State.modGp_bx_fenceSeq (s : State) (p : Part) (n : Nat) (f : GatePort → GatePort) : (s.modGp p n f).bx.fenceSeq = s.bx.fenceSeq := by cases p <;> rfl
@[simp] theorem State.modGp_bx_prior (s : State) (p : Part) (n : Nat) (f : GatePort → GatePort) : (s.modGp p n f).bx.prior = s.bx.prior := by cases p <;> rfl
@[simp] theorem State.modGp_bx_reportSeq (s : State) (p : Part) (n : Nat) (f : GatePort → GatePort) : (s.modGp p n f).bx.reportSeq = s.bx.reportSeq := by cases p <;> rfl
@[simp] theorem State.modGp_bx_tenants (s : State) (p : Part) (n : Nat) (f : GatePort → GatePort) : (s.modGp p n f).bx.tenants = s.bx.tenants := by cases p <;> rfl
@[simp] theorem State.modGp_bx_slots (s : State) (p : Part) (n : Nat) (f : GatePort → GatePort) : (s.modGp p n f).bx.slots = s.bx.slots := by cases p <;> rfl
@[simp] theorem State.modGp_bx_objs (s : State) (p : Part) (n : Nat) (f : GatePort → GatePort) : (s.modGp p n f).bx.objs = s.bx.objs := by cases p <;> rfl
@[simp] theorem State.modGp_bx_heldTakes (s : State) (p : Part) (n : Nat) (f : GatePort → GatePort) : (s.modGp p n f).bx.heldTakes = s.bx.heldTakes := by cases p <;> rfl
@[simp] theorem State.modGp_bx_trackers (s : State) (p : Part) (n : Nat) (f : GatePort → GatePort) : (s.modGp p n f).bx.trackers = s.bx.trackers := by cases p <;> rfl
@[simp] theorem State.modGp_bx_sends (s : State) (p : Part) (n : Nat) (f : GatePort → GatePort) : (s.modGp p n f).bx.sends = s.bx.sends := by cases p <;> rfl
@[simp] theorem State.modGp_bx_writes (s : State) (p : Part) (n : Nat) (f : GatePort → GatePort) : (s.modGp p n f).bx.writes = s.bx.writes := by cases p <;> rfl
@[simp] theorem State.modGp_bx_reads (s : State) (p : Part) (n : Nat) (f : GatePort → GatePort) : (s.modGp p n f).bx.reads = s.bx.reads := by cases p <;> rfl
@[simp] theorem State.modGp_bx_v2Waits (s : State) (p : Part) (n : Nat) (f : GatePort → GatePort) : (s.modGp p n f).bx.v2Waits = s.bx.v2Waits := by cases p <;> rfl
@[simp] theorem State.modGp_bx_waitSends (s : State) (p : Part) (n : Nat) (f : GatePort → GatePort) : (s.modGp p n f).bx.waitSends = s.bx.waitSends := by cases p <;> rfl
@[simp] theorem State.modGp_bx_parts (s : State) (p : Part) (n : Nat) (f : GatePort → GatePort) : (s.modGp p n f).bx.parts = s.bx.parts := by cases p <;> rfl
@[simp] theorem State.modGp_bx_nextPart (s : State) (p : Part) (n : Nat) (f : GatePort → GatePort) : (s.modGp p n f).bx.nextPart = s.bx.nextPart := by cases p <;> rfl
@[simp] theorem State.modGp_bx_readJobs (s : State) (p : Part) (n : Nat) (f : GatePort → GatePort) : (s.modGp p n f).bx.readJobs = s.bx.readJobs := by cases p <;> rfl
@[simp] theorem State.modGp_bx_nextJob (s : State) (p : Part) (n : Nat) (f : GatePort → GatePort) : (s.modGp p n f).bx.nextJob = s.bx.nextJob := by cases p <;> rfl
@[simp] theorem State.modGp_bx_bases (s : State) (p : Part) (n : Nat) (f : GatePort → GatePort) : (s.modGp p n f).bx.bases = s.bx.bases := by cases p <;> rfl
@[simp] theorem State.modGp_ks_build (s : State) (p : Part) (n : Nat) (f : GatePort → GatePort) : (s.modGp p n f).ks.build = s.ks.build := by cases p <;> rfl
@[simp] theorem State.modGp_ks_lostPlanes (s : State) (p : Part) (n : Nat) (f : GatePort → GatePort) : (s.modGp p n f).ks.lostPlanes = s.ks.lostPlanes := by cases p <;> rfl
@[simp] theorem State.modGp_ks_fences (s : State) (p : Part) (n : Nat) (f : GatePort → GatePort) : (s.modGp p n f).ks.fences = s.ks.fences := by cases p <;> rfl
@[simp] theorem State.modGp_ks_strapFb (s : State) (p : Part) (n : Nat) (f : GatePort → GatePort) : (s.modGp p n f).ks.strapFb = s.ks.strapFb := by cases p <;> rfl
@[simp] theorem State.modGp_ks_pcieEn (s : State) (p : Part) (n : Nat) (f : GatePort → GatePort) : (s.modGp p n f).ks.pcieEn = s.ks.pcieEn := by cases p <;> rfl
@[simp] theorem State.modGp_ks_tripped (s : State) (p : Part) (n : Nat) (f : GatePort → GatePort) : (s.modGp p n f).ks.tripped = s.ks.tripped := by cases p <;> rfl
@[simp] theorem State.modGp_ks_memFailed (s : State) (p : Part) (n : Nat) (f : GatePort → GatePort) : (s.modGp p n f).ks.memFailed = s.ks.memFailed := by cases p <;> rfl
@[simp] theorem State.modGp_ks_memErrors (s : State) (p : Part) (n : Nat) (f : GatePort → GatePort) : (s.modGp p n f).ks.memErrors = s.ks.memErrors := by cases p <;> rfl
@[simp] theorem State.modGp_ks_brimFailed (s : State) (p : Part) (n : Nat) (f : GatePort → GatePort) : (s.modGp p n f).ks.brimFailed = s.ks.brimFailed := by cases p <;> rfl
@[simp] theorem State.modGp_ks_coolantSince (s : State) (p : Part) (n : Nat) (f : GatePort → GatePort) : (s.modGp p n f).ks.coolantSince = s.ks.coolantSince := by cases p <;> rfl
@[simp] theorem State.modGp_ks_coolantTold (s : State) (p : Part) (n : Nat) (f : GatePort → GatePort) : (s.modGp p n f).ks.coolantTold = s.ks.coolantTold := by cases p <;> rfl
@[simp] theorem State.modGp_ks_lastCoolant (s : State) (p : Part) (n : Nat) (f : GatePort → GatePort) : (s.modGp p n f).ks.lastCoolant = s.ks.lastCoolant := by cases p <;> rfl
@[simp] theorem State.modGp_ks_lastThrottle (s : State) (p : Part) (n : Nat) (f : GatePort → GatePort) : (s.modGp p n f).ks.lastThrottle = s.ks.lastThrottle := by cases p <;> rfl
@[simp] theorem State.modGp_ks_lastAlive (s : State) (p : Part) (n : Nat) (f : GatePort → GatePort) : (s.modGp p n f).ks.lastAlive = s.ks.lastAlive := by cases p <;> rfl
@[simp] theorem State.modGp_ks_lastResend (s : State) (p : Part) (n : Nat) (f : GatePort → GatePort) : (s.modGp p n f).ks.lastResend = s.ks.lastResend := by cases p <;> rfl
@[simp] theorem State.modGp_ks_events (s : State) (p : Part) (n : Nat) (f : GatePort → GatePort) : (s.modGp p n f).ks.events = s.ks.events := by cases p <;> rfl
@[simp] theorem State.modGp_ks_evtDropped (s : State) (p : Part) (n : Nat) (f : GatePort → GatePort) : (s.modGp p n f).ks.evtDropped = s.ks.evtDropped := by cases p <;> rfl
@[simp] theorem State.modGp_ks_admitted (s : State) (p : Part) (n : Nat) (f : GatePort → GatePort) : (s.modGp p n f).ks.admitted = s.ks.admitted := by cases p <;> rfl
@[simp] theorem State.modGp_ks_aliveTold (s : State) (p : Part) (n : Nat) (f : GatePort → GatePort) : (s.modGp p n f).ks.aliveTold = s.ks.aliveTold := by cases p <;> rfl
@[simp] theorem State.modGp_ks_doms (s : State) (p : Part) (n : Nat) (f : GatePort → GatePort) : (s.modGp p n f).ks.doms = s.ks.doms := by cases p <;> rfl
@[simp] theorem State.modGp_ks_leafRecs (s : State) (p : Part) (n : Nat) (f : GatePort → GatePort) : (s.modGp p n f).ks.leafRecs = s.ks.leafRecs := by cases p <;> rfl
@[simp] theorem State.modGp_ks_chunks (s : State) (p : Part) (n : Nat) (f : GatePort → GatePort) : (s.modGp p n f).ks.chunks = s.ks.chunks := by cases p <;> rfl
@[simp] theorem State.modGp_ks_kept (s : State) (p : Part) (n : Nat) (f : GatePort → GatePort) : (s.modGp p n f).ks.kept = s.ks.kept := by cases p <;> rfl
@[simp] theorem State.modGp_ks_shards (s : State) (p : Part) (n : Nat) (f : GatePort → GatePort) : (s.modGp p n f).ks.shards = s.ks.shards := by cases p <;> rfl
@[simp] theorem State.modGp_ks_blockQ (s : State) (p : Part) (n : Nat) (f : GatePort → GatePort) : (s.modGp p n f).ks.blockQ = s.ks.blockQ := by cases p <;> rfl
@[simp] theorem State.modGp_ks_jobs (s : State) (p : Part) (n : Nat) (f : GatePort → GatePort) : (s.modGp p n f).ks.jobs = s.ks.jobs := by cases p <;> rfl
@[simp] theorem State.modGp_ks_waitJobs (s : State) (p : Part) (n : Nat) (f : GatePort → GatePort) : (s.modGp p n f).ks.waitJobs = s.ks.waitJobs := by cases p <;> rfl
@[simp] theorem State.modGp_ks_windows (s : State) (p : Part) (n : Nat) (f : GatePort → GatePort) : (s.modGp p n f).ks.windows = s.ks.windows := by cases p <;> rfl
@[simp] theorem State.modGp_ks_bases (s : State) (p : Part) (n : Nat) (f : GatePort → GatePort) : (s.modGp p n f).ks.bases = s.ks.bases := by cases p <;> rfl
@[simp] theorem State.modGp_ks_staged (s : State) (p : Part) (n : Nat) (f : GatePort → GatePort) : (s.modGp p n f).ks.staged = s.ks.staged := by cases p <;> rfl
@[simp] theorem State.modGp_ks_ckpts (s : State) (p : Part) (n : Nat) (f : GatePort → GatePort) : (s.modGp p n f).ks.ckpts = s.ks.ckpts := by cases p <;> rfl
@[simp] theorem State.modGp_ks_fills (s : State) (p : Part) (n : Nat) (f : GatePort → GatePort) : (s.modGp p n f).ks.fills = s.ks.fills := by cases p <;> rfl
@[simp] theorem State.modGp_ks_cupChecks (s : State) (p : Part) (n : Nat) (f : GatePort → GatePort) : (s.modGp p n f).ks.cupChecks = s.ks.cupChecks := by cases p <;> rfl
@[simp] theorem State.modGp_ks_shardReads (s : State) (p : Part) (n : Nat) (f : GatePort → GatePort) : (s.modGp p n f).ks.shardReads = s.ks.shardReads := by cases p <;> rfl
@[simp] theorem State.modGp_ks_grants (s : State) (p : Part) (n : Nat) (f : GatePort → GatePort) : (s.modGp p n f).ks.grants = s.ks.grants := by cases p <;> rfl
@[simp] theorem State.modGp_ks_dspLeaves (s : State) (p : Part) (n : Nat) (f : GatePort → GatePort) : (s.modGp p n f).ks.dspLeaves = s.ks.dspLeaves := by cases p <;> rfl
@[simp] theorem State.modGp_ks_dspHomes (s : State) (p : Part) (n : Nat) (f : GatePort → GatePort) : (s.modGp p n f).ks.dspHomes = s.ks.dspHomes := by cases p <;> rfl
@[simp] theorem State.modGp_ks_dspEngine (s : State) (p : Part) (n : Nat) (f : GatePort → GatePort) : (s.modGp p n f).ks.dspEngine = s.ks.dspEngine := by cases p <;> rfl
@[simp] theorem State.modGp_ks_dspQ (s : State) (p : Part) (n : Nat) (f : GatePort → GatePort) : (s.modGp p n f).ks.dspQ = s.ks.dspQ := by cases p <;> rfl
@[simp] theorem State.modGp_ks_tieReroute (s : State) (p : Part) (n : Nat) (f : GatePort → GatePort) : (s.modGp p n f).ks.tieReroute = s.ks.tieReroute := by cases p <;> rfl
@[simp] theorem State.modGp_ks_objs (s : State) (p : Part) (n : Nat) (f : GatePort → GatePort) : (s.modGp p n f).ks.objs = s.ks.objs := by cases p <;> rfl
@[simp] theorem State.modGp_ks_heldTakes (s : State) (p : Part) (n : Nat) (f : GatePort → GatePort) : (s.modGp p n f).ks.heldTakes = s.ks.heldTakes := by cases p <;> rfl
@[simp] theorem State.modGp_ks_trackers (s : State) (p : Part) (n : Nat) (f : GatePort → GatePort) : (s.modGp p n f).ks.trackers = s.ks.trackers := by cases p <;> rfl
@[simp] theorem State.modGp_ks_sends (s : State) (p : Part) (n : Nat) (f : GatePort → GatePort) : (s.modGp p n f).ks.sends = s.ks.sends := by cases p <;> rfl
@[simp] theorem State.modGp_ks_writes (s : State) (p : Part) (n : Nat) (f : GatePort → GatePort) : (s.modGp p n f).ks.writes = s.ks.writes := by cases p <;> rfl
@[simp] theorem State.modGp_ks_takesDone (s : State) (p : Part) (n : Nat) (f : GatePort → GatePort) : (s.modGp p n f).ks.takesDone = s.ks.takesDone := by cases p <;> rfl
@[simp] theorem State.modGp_ks_mem (s : State) (p : Part) (n : Nat) (f : GatePort → GatePort) : (s.modGp p n f).ks.mem = s.ks.mem := by cases p <;> rfl
@[simp] theorem State.modGp_ks_ptpDiscard (s : State) (p : Part) (n : Nat) (f : GatePort → GatePort) : (s.modGp p n f).ks.ptpDiscard = s.ks.ptpDiscard := by cases p <;> rfl
@[simp] theorem State.modGp_ks_ppsDelay (s : State) (p : Part) (n : Nat) (f : GatePort → GatePort) : (s.modGp p n f).ks.ppsDelay = s.ks.ppsDelay := by cases p <;> rfl
@[simp] theorem State.modGp_ks_v2Waits (s : State) (p : Part) (n : Nat) (f : GatePort → GatePort) : (s.modGp p n f).ks.v2Waits = s.ks.v2Waits := by cases p <;> rfl
@[simp] theorem State.mbox_modMbox (s : State) (p : Part) (m : Nat) (f : Mailbox → Mailbox) : (s.modMbox p m f).mbox p m = f (s.mbox p m) := by cases p <;> exact FMap.getD_update_self _ _ _ _
theorem State.mbox_modMbox_ne (s : State) (p : Part) {m j : Nat} (h : j ≠ m) (f : Mailbox → Mailbox) : (s.modMbox p m f).mbox p j = s.mbox p j := by cases p <;> exact FMap.getD_update_ne _ h _ _ _
@[simp] theorem State.modMbox_rd (s : State) (p : Part) (m : Nat) (f : Mailbox → Mailbox) (q : Part) (a : Nat) : (s.modMbox p m f).rd q a = s.rd q a := by cases p <;> cases q <;> rfl
@[simp] theorem State.modMbox_fld (s : State) (p : Part) (m : Nat) (f : Mailbox → Mailbox) (q : Part) (a lo n : Nat) : (s.modMbox p m f).fld q a lo n = s.fld q a lo n := by cases p <;> cases q <;> rfl
@[simp] theorem State.modMbox_bit (s : State) (p : Part) (m : Nat) (f : Mailbox → Mailbox) (q : Part) (a i : Nat) : (s.modMbox p m f).bit q a i = s.bit q a i := by cases p <;> cases q <;> rfl
@[simp] theorem State.bank_modBank (s : State) (p : Part) (k : Nat) (f : CtrBank → CtrBank) : (s.modBank p k f).bank p k = f (s.bank p k) := by cases p <;> exact FMap.getD_update_self _ _ _ _
theorem State.bank_modBank_ne (s : State) (p : Part) {k j : Nat} (h : j ≠ k) (f : CtrBank → CtrBank) : (s.modBank p k f).bank p j = s.bank p j := by cases p <;> exact FMap.getD_update_ne _ h _ _ _
@[simp] theorem State.modBank_rd (s : State) (p : Part) (k : Nat) (f : CtrBank → CtrBank) (q : Part) (a : Nat) : (s.modBank p k f).rd q a = s.rd q a := by cases p <;> cases q <;> rfl
@[simp] theorem State.modBank_fld (s : State) (p : Part) (k : Nat) (f : CtrBank → CtrBank) (q : Part) (a lo n : Nat) : (s.modBank p k f).fld q a lo n = s.fld q a lo n := by cases p <;> cases q <;> rfl
@[simp] theorem State.modBank_bit (s : State) (p : Part) (k : Nat) (f : CtrBank → CtrBank) (q : Part) (a i : Nat) : (s.modBank p k f).bit q a i = s.bit q a i := by cases p <;> cases q <;> rfl
@[simp] theorem State.modBank_out (s : State) (p : Part) (k : Nat) (f : CtrBank → CtrBank) : (s.modBank p k f).out = s.out := by cases p <;> rfl
@[simp] theorem State.modBank_free (s : State) (p : Part) (k : Nat) (f : CtrBank → CtrBank) : (s.modBank p k f).free = s.free := by cases p <;> rfl
@[simp] theorem State.modBank_pending (s : State) (p : Part) (k : Nat) (f : CtrBank → CtrBank) : (s.modBank p k f).pending = s.pending := by cases p <;> rfl
@[simp] theorem State.modBank_time (s : State) (p : Part) (k : Nat) (f : CtrBank → CtrBank) (q : Part) : ((s.modBank p k f).pc q).time = (s.pc q).time := by cases p <;> cases q <;> rfl
@[simp] theorem State.modBank_stamp (s : State) (p : Part) (k : Nat) (f : CtrBank → CtrBank) (q : Part) : ((s.modBank p k f).pc q).stamp = (s.pc q).stamp := by cases p <;> cases q <;> rfl
@[simp] theorem State.modBank_fw (s : State) (p : Part) (k : Nat) (f : CtrBank → CtrBank) (q : Part) : ((s.modBank p k f).pc q).fw = (s.pc q).fw := by cases p <;> cases q <;> rfl
@[simp] theorem State.modBank_link (s : State) (p : Part) (k : Nat) (f : CtrBank → CtrBank) (q : Part) : ((s.modBank p k f).pc q).link = (s.pc q).link := by cases p <;> cases q <;> rfl
@[simp] theorem State.modBank_bx_straps (s : State) (p : Part) (k : Nat) (f : CtrBank → CtrBank) : (s.modBank p k f).bx.straps = s.bx.straps := by cases p <;> rfl
@[simp] theorem State.modBank_bx_refclkLost (s : State) (p : Part) (k : Nat) (f : CtrBank → CtrBank) : (s.modBank p k f).bx.refclkLost = s.bx.refclkLost := by cases p <;> rfl
@[simp] theorem State.modBank_bx_fenced (s : State) (p : Part) (k : Nat) (f : CtrBank → CtrBank) : (s.modBank p k f).bx.fenced = s.bx.fenced := by cases p <;> rfl
@[simp] theorem State.modBank_bx_fenceSeq (s : State) (p : Part) (k : Nat) (f : CtrBank → CtrBank) : (s.modBank p k f).bx.fenceSeq = s.bx.fenceSeq := by cases p <;> rfl
@[simp] theorem State.modBank_bx_prior (s : State) (p : Part) (k : Nat) (f : CtrBank → CtrBank) : (s.modBank p k f).bx.prior = s.bx.prior := by cases p <;> rfl
@[simp] theorem State.modBank_bx_reportSeq (s : State) (p : Part) (k : Nat) (f : CtrBank → CtrBank) : (s.modBank p k f).bx.reportSeq = s.bx.reportSeq := by cases p <;> rfl
@[simp] theorem State.modBank_bx_tenants (s : State) (p : Part) (k : Nat) (f : CtrBank → CtrBank) : (s.modBank p k f).bx.tenants = s.bx.tenants := by cases p <;> rfl
@[simp] theorem State.modBank_bx_slots (s : State) (p : Part) (k : Nat) (f : CtrBank → CtrBank) : (s.modBank p k f).bx.slots = s.bx.slots := by cases p <;> rfl
@[simp] theorem State.modBank_bx_objs (s : State) (p : Part) (k : Nat) (f : CtrBank → CtrBank) : (s.modBank p k f).bx.objs = s.bx.objs := by cases p <;> rfl
@[simp] theorem State.modBank_bx_heldTakes (s : State) (p : Part) (k : Nat) (f : CtrBank → CtrBank) : (s.modBank p k f).bx.heldTakes = s.bx.heldTakes := by cases p <;> rfl
@[simp] theorem State.modBank_bx_trackers (s : State) (p : Part) (k : Nat) (f : CtrBank → CtrBank) : (s.modBank p k f).bx.trackers = s.bx.trackers := by cases p <;> rfl
@[simp] theorem State.modBank_bx_sends (s : State) (p : Part) (k : Nat) (f : CtrBank → CtrBank) : (s.modBank p k f).bx.sends = s.bx.sends := by cases p <;> rfl
@[simp] theorem State.modBank_bx_writes (s : State) (p : Part) (k : Nat) (f : CtrBank → CtrBank) : (s.modBank p k f).bx.writes = s.bx.writes := by cases p <;> rfl
@[simp] theorem State.modBank_bx_reads (s : State) (p : Part) (k : Nat) (f : CtrBank → CtrBank) : (s.modBank p k f).bx.reads = s.bx.reads := by cases p <;> rfl
@[simp] theorem State.modBank_bx_v2Waits (s : State) (p : Part) (k : Nat) (f : CtrBank → CtrBank) : (s.modBank p k f).bx.v2Waits = s.bx.v2Waits := by cases p <;> rfl
@[simp] theorem State.modBank_bx_waitSends (s : State) (p : Part) (k : Nat) (f : CtrBank → CtrBank) : (s.modBank p k f).bx.waitSends = s.bx.waitSends := by cases p <;> rfl
@[simp] theorem State.modBank_bx_parts (s : State) (p : Part) (k : Nat) (f : CtrBank → CtrBank) : (s.modBank p k f).bx.parts = s.bx.parts := by cases p <;> rfl
@[simp] theorem State.modBank_bx_nextPart (s : State) (p : Part) (k : Nat) (f : CtrBank → CtrBank) : (s.modBank p k f).bx.nextPart = s.bx.nextPart := by cases p <;> rfl
@[simp] theorem State.modBank_bx_readJobs (s : State) (p : Part) (k : Nat) (f : CtrBank → CtrBank) : (s.modBank p k f).bx.readJobs = s.bx.readJobs := by cases p <;> rfl
@[simp] theorem State.modBank_bx_nextJob (s : State) (p : Part) (k : Nat) (f : CtrBank → CtrBank) : (s.modBank p k f).bx.nextJob = s.bx.nextJob := by cases p <;> rfl
@[simp] theorem State.modBank_bx_bases (s : State) (p : Part) (k : Nat) (f : CtrBank → CtrBank) : (s.modBank p k f).bx.bases = s.bx.bases := by cases p <;> rfl
@[simp] theorem State.modBank_ks_build (s : State) (p : Part) (k : Nat) (f : CtrBank → CtrBank) : (s.modBank p k f).ks.build = s.ks.build := by cases p <;> rfl
@[simp] theorem State.modBank_ks_lostPlanes (s : State) (p : Part) (k : Nat) (f : CtrBank → CtrBank) : (s.modBank p k f).ks.lostPlanes = s.ks.lostPlanes := by cases p <;> rfl
@[simp] theorem State.modBank_ks_fences (s : State) (p : Part) (k : Nat) (f : CtrBank → CtrBank) : (s.modBank p k f).ks.fences = s.ks.fences := by cases p <;> rfl
@[simp] theorem State.modBank_ks_strapFb (s : State) (p : Part) (k : Nat) (f : CtrBank → CtrBank) : (s.modBank p k f).ks.strapFb = s.ks.strapFb := by cases p <;> rfl
@[simp] theorem State.modBank_ks_pcieEn (s : State) (p : Part) (k : Nat) (f : CtrBank → CtrBank) : (s.modBank p k f).ks.pcieEn = s.ks.pcieEn := by cases p <;> rfl
@[simp] theorem State.modBank_ks_tripped (s : State) (p : Part) (k : Nat) (f : CtrBank → CtrBank) : (s.modBank p k f).ks.tripped = s.ks.tripped := by cases p <;> rfl
@[simp] theorem State.modBank_ks_memFailed (s : State) (p : Part) (k : Nat) (f : CtrBank → CtrBank) : (s.modBank p k f).ks.memFailed = s.ks.memFailed := by cases p <;> rfl
@[simp] theorem State.modBank_ks_memErrors (s : State) (p : Part) (k : Nat) (f : CtrBank → CtrBank) : (s.modBank p k f).ks.memErrors = s.ks.memErrors := by cases p <;> rfl
@[simp] theorem State.modBank_ks_brimFailed (s : State) (p : Part) (k : Nat) (f : CtrBank → CtrBank) : (s.modBank p k f).ks.brimFailed = s.ks.brimFailed := by cases p <;> rfl
@[simp] theorem State.modBank_ks_coolantSince (s : State) (p : Part) (k : Nat) (f : CtrBank → CtrBank) : (s.modBank p k f).ks.coolantSince = s.ks.coolantSince := by cases p <;> rfl
@[simp] theorem State.modBank_ks_coolantTold (s : State) (p : Part) (k : Nat) (f : CtrBank → CtrBank) : (s.modBank p k f).ks.coolantTold = s.ks.coolantTold := by cases p <;> rfl
@[simp] theorem State.modBank_ks_lastCoolant (s : State) (p : Part) (k : Nat) (f : CtrBank → CtrBank) : (s.modBank p k f).ks.lastCoolant = s.ks.lastCoolant := by cases p <;> rfl
@[simp] theorem State.modBank_ks_lastThrottle (s : State) (p : Part) (k : Nat) (f : CtrBank → CtrBank) : (s.modBank p k f).ks.lastThrottle = s.ks.lastThrottle := by cases p <;> rfl
@[simp] theorem State.modBank_ks_lastAlive (s : State) (p : Part) (k : Nat) (f : CtrBank → CtrBank) : (s.modBank p k f).ks.lastAlive = s.ks.lastAlive := by cases p <;> rfl
@[simp] theorem State.modBank_ks_lastResend (s : State) (p : Part) (k : Nat) (f : CtrBank → CtrBank) : (s.modBank p k f).ks.lastResend = s.ks.lastResend := by cases p <;> rfl
@[simp] theorem State.modBank_ks_events (s : State) (p : Part) (k : Nat) (f : CtrBank → CtrBank) : (s.modBank p k f).ks.events = s.ks.events := by cases p <;> rfl
@[simp] theorem State.modBank_ks_evtDropped (s : State) (p : Part) (k : Nat) (f : CtrBank → CtrBank) : (s.modBank p k f).ks.evtDropped = s.ks.evtDropped := by cases p <;> rfl
@[simp] theorem State.modBank_ks_admitted (s : State) (p : Part) (k : Nat) (f : CtrBank → CtrBank) : (s.modBank p k f).ks.admitted = s.ks.admitted := by cases p <;> rfl
@[simp] theorem State.modBank_ks_aliveTold (s : State) (p : Part) (k : Nat) (f : CtrBank → CtrBank) : (s.modBank p k f).ks.aliveTold = s.ks.aliveTold := by cases p <;> rfl
@[simp] theorem State.modBank_ks_doms (s : State) (p : Part) (k : Nat) (f : CtrBank → CtrBank) : (s.modBank p k f).ks.doms = s.ks.doms := by cases p <;> rfl
@[simp] theorem State.modBank_ks_leafRecs (s : State) (p : Part) (k : Nat) (f : CtrBank → CtrBank) : (s.modBank p k f).ks.leafRecs = s.ks.leafRecs := by cases p <;> rfl
@[simp] theorem State.modBank_ks_chunks (s : State) (p : Part) (k : Nat) (f : CtrBank → CtrBank) : (s.modBank p k f).ks.chunks = s.ks.chunks := by cases p <;> rfl
@[simp] theorem State.modBank_ks_kept (s : State) (p : Part) (k : Nat) (f : CtrBank → CtrBank) : (s.modBank p k f).ks.kept = s.ks.kept := by cases p <;> rfl
@[simp] theorem State.modBank_ks_shards (s : State) (p : Part) (k : Nat) (f : CtrBank → CtrBank) : (s.modBank p k f).ks.shards = s.ks.shards := by cases p <;> rfl
@[simp] theorem State.modBank_ks_blockQ (s : State) (p : Part) (k : Nat) (f : CtrBank → CtrBank) : (s.modBank p k f).ks.blockQ = s.ks.blockQ := by cases p <;> rfl
@[simp] theorem State.modBank_ks_jobs (s : State) (p : Part) (k : Nat) (f : CtrBank → CtrBank) : (s.modBank p k f).ks.jobs = s.ks.jobs := by cases p <;> rfl
@[simp] theorem State.modBank_ks_waitJobs (s : State) (p : Part) (k : Nat) (f : CtrBank → CtrBank) : (s.modBank p k f).ks.waitJobs = s.ks.waitJobs := by cases p <;> rfl
@[simp] theorem State.modBank_ks_windows (s : State) (p : Part) (k : Nat) (f : CtrBank → CtrBank) : (s.modBank p k f).ks.windows = s.ks.windows := by cases p <;> rfl
@[simp] theorem State.modBank_ks_bases (s : State) (p : Part) (k : Nat) (f : CtrBank → CtrBank) : (s.modBank p k f).ks.bases = s.ks.bases := by cases p <;> rfl
@[simp] theorem State.modBank_ks_staged (s : State) (p : Part) (k : Nat) (f : CtrBank → CtrBank) : (s.modBank p k f).ks.staged = s.ks.staged := by cases p <;> rfl
@[simp] theorem State.modBank_ks_ckpts (s : State) (p : Part) (k : Nat) (f : CtrBank → CtrBank) : (s.modBank p k f).ks.ckpts = s.ks.ckpts := by cases p <;> rfl
@[simp] theorem State.modBank_ks_fills (s : State) (p : Part) (k : Nat) (f : CtrBank → CtrBank) : (s.modBank p k f).ks.fills = s.ks.fills := by cases p <;> rfl
@[simp] theorem State.modBank_ks_cupChecks (s : State) (p : Part) (k : Nat) (f : CtrBank → CtrBank) : (s.modBank p k f).ks.cupChecks = s.ks.cupChecks := by cases p <;> rfl
@[simp] theorem State.modBank_ks_shardReads (s : State) (p : Part) (k : Nat) (f : CtrBank → CtrBank) : (s.modBank p k f).ks.shardReads = s.ks.shardReads := by cases p <;> rfl
@[simp] theorem State.modBank_ks_grants (s : State) (p : Part) (k : Nat) (f : CtrBank → CtrBank) : (s.modBank p k f).ks.grants = s.ks.grants := by cases p <;> rfl
@[simp] theorem State.modBank_ks_dspLeaves (s : State) (p : Part) (k : Nat) (f : CtrBank → CtrBank) : (s.modBank p k f).ks.dspLeaves = s.ks.dspLeaves := by cases p <;> rfl
@[simp] theorem State.modBank_ks_dspHomes (s : State) (p : Part) (k : Nat) (f : CtrBank → CtrBank) : (s.modBank p k f).ks.dspHomes = s.ks.dspHomes := by cases p <;> rfl
@[simp] theorem State.modBank_ks_dspEngine (s : State) (p : Part) (k : Nat) (f : CtrBank → CtrBank) : (s.modBank p k f).ks.dspEngine = s.ks.dspEngine := by cases p <;> rfl
@[simp] theorem State.modBank_ks_dspQ (s : State) (p : Part) (k : Nat) (f : CtrBank → CtrBank) : (s.modBank p k f).ks.dspQ = s.ks.dspQ := by cases p <;> rfl
@[simp] theorem State.modBank_ks_tieReroute (s : State) (p : Part) (k : Nat) (f : CtrBank → CtrBank) : (s.modBank p k f).ks.tieReroute = s.ks.tieReroute := by cases p <;> rfl
@[simp] theorem State.modBank_ks_objs (s : State) (p : Part) (k : Nat) (f : CtrBank → CtrBank) : (s.modBank p k f).ks.objs = s.ks.objs := by cases p <;> rfl
@[simp] theorem State.modBank_ks_heldTakes (s : State) (p : Part) (k : Nat) (f : CtrBank → CtrBank) : (s.modBank p k f).ks.heldTakes = s.ks.heldTakes := by cases p <;> rfl
@[simp] theorem State.modBank_ks_trackers (s : State) (p : Part) (k : Nat) (f : CtrBank → CtrBank) : (s.modBank p k f).ks.trackers = s.ks.trackers := by cases p <;> rfl
@[simp] theorem State.modBank_ks_sends (s : State) (p : Part) (k : Nat) (f : CtrBank → CtrBank) : (s.modBank p k f).ks.sends = s.ks.sends := by cases p <;> rfl
@[simp] theorem State.modBank_ks_writes (s : State) (p : Part) (k : Nat) (f : CtrBank → CtrBank) : (s.modBank p k f).ks.writes = s.ks.writes := by cases p <;> rfl
@[simp] theorem State.modBank_ks_takesDone (s : State) (p : Part) (k : Nat) (f : CtrBank → CtrBank) : (s.modBank p k f).ks.takesDone = s.ks.takesDone := by cases p <;> rfl
@[simp] theorem State.modBank_ks_mem (s : State) (p : Part) (k : Nat) (f : CtrBank → CtrBank) : (s.modBank p k f).ks.mem = s.ks.mem := by cases p <;> rfl
@[simp] theorem State.modBank_ks_ptpDiscard (s : State) (p : Part) (k : Nat) (f : CtrBank → CtrBank) : (s.modBank p k f).ks.ptpDiscard = s.ks.ptpDiscard := by cases p <;> rfl
@[simp] theorem State.modBank_ks_ppsDelay (s : State) (p : Part) (k : Nat) (f : CtrBank → CtrBank) : (s.modBank p k f).ks.ppsDelay = s.ks.ppsDelay := by cases p <;> rfl
@[simp] theorem State.modBank_ks_v2Waits (s : State) (p : Part) (k : Nat) (f : CtrBank → CtrBank) : (s.modBank p k f).ks.v2Waits = s.ks.v2Waits := by cases p <;> rfl
@[simp] theorem State.modDom_bx (s : State) (d : Nat) (f : Domain → Domain) : (s.modDom d f).bx = s.bx := rfl
@[simp] theorem State.modDom_ks_c (s : State) (d : Nat) (f : Domain → Domain) : (s.modDom d f).ks.c = s.ks.c := rfl
@[simp] theorem State.modDom_out (s : State) (d : Nat) (f : Domain → Domain) : (s.modDom d f).out = s.out := rfl
@[simp] theorem State.modDom_free (s : State) (d : Nat) (f : Domain → Domain) : (s.modDom d f).free = s.free := rfl
@[simp] theorem State.modDom_pending (s : State) (d : Nat) (f : Domain → Domain) : (s.modDom d f).pending = s.pending := rfl
@[simp] theorem State.modDom_pc (s : State) (d : Nat) (f : Domain → Domain) (q : Part) : (s.modDom d f).pc q = s.pc q := by cases q <;> rfl
@[simp] theorem State.modDom_rd (s : State) (d : Nat) (f : Domain → Domain) (q : Part) (a : Nat) : (s.modDom d f).rd q a = s.rd q a := by cases q <;> rfl
@[simp] theorem State.modDom_fld (s : State) (d : Nat) (f : Domain → Domain) (q : Part) (a lo n : Nat) : (s.modDom d f).fld q a lo n = s.fld q a lo n := by cases q <;> rfl
@[simp] theorem State.modDom_bit (s : State) (d : Nat) (f : Domain → Domain) (q : Part) (a i : Nat) : (s.modDom d f).bit q a i = s.bit q a i := by cases q <;> rfl
@[simp] theorem State.modDom_ks_build (s : State) (d : Nat) (f : Domain → Domain) : (s.modDom d f).ks.build = s.ks.build := rfl
@[simp] theorem State.modDom_ks_lostPlanes (s : State) (d : Nat) (f : Domain → Domain) : (s.modDom d f).ks.lostPlanes = s.ks.lostPlanes := rfl
@[simp] theorem State.modDom_ks_fences (s : State) (d : Nat) (f : Domain → Domain) : (s.modDom d f).ks.fences = s.ks.fences := rfl
@[simp] theorem State.modDom_ks_strapFb (s : State) (d : Nat) (f : Domain → Domain) : (s.modDom d f).ks.strapFb = s.ks.strapFb := rfl
@[simp] theorem State.modDom_ks_pcieEn (s : State) (d : Nat) (f : Domain → Domain) : (s.modDom d f).ks.pcieEn = s.ks.pcieEn := rfl
@[simp] theorem State.modDom_ks_tripped (s : State) (d : Nat) (f : Domain → Domain) : (s.modDom d f).ks.tripped = s.ks.tripped := rfl
@[simp] theorem State.modDom_ks_memFailed (s : State) (d : Nat) (f : Domain → Domain) : (s.modDom d f).ks.memFailed = s.ks.memFailed := rfl
@[simp] theorem State.modDom_ks_memErrors (s : State) (d : Nat) (f : Domain → Domain) : (s.modDom d f).ks.memErrors = s.ks.memErrors := rfl
@[simp] theorem State.modDom_ks_brimFailed (s : State) (d : Nat) (f : Domain → Domain) : (s.modDom d f).ks.brimFailed = s.ks.brimFailed := rfl
@[simp] theorem State.modDom_ks_coolantSince (s : State) (d : Nat) (f : Domain → Domain) : (s.modDom d f).ks.coolantSince = s.ks.coolantSince := rfl
@[simp] theorem State.modDom_ks_coolantTold (s : State) (d : Nat) (f : Domain → Domain) : (s.modDom d f).ks.coolantTold = s.ks.coolantTold := rfl
@[simp] theorem State.modDom_ks_lastCoolant (s : State) (d : Nat) (f : Domain → Domain) : (s.modDom d f).ks.lastCoolant = s.ks.lastCoolant := rfl
@[simp] theorem State.modDom_ks_lastThrottle (s : State) (d : Nat) (f : Domain → Domain) : (s.modDom d f).ks.lastThrottle = s.ks.lastThrottle := rfl
@[simp] theorem State.modDom_ks_lastAlive (s : State) (d : Nat) (f : Domain → Domain) : (s.modDom d f).ks.lastAlive = s.ks.lastAlive := rfl
@[simp] theorem State.modDom_ks_lastResend (s : State) (d : Nat) (f : Domain → Domain) : (s.modDom d f).ks.lastResend = s.ks.lastResend := rfl
@[simp] theorem State.modDom_ks_events (s : State) (d : Nat) (f : Domain → Domain) : (s.modDom d f).ks.events = s.ks.events := rfl
@[simp] theorem State.modDom_ks_evtDropped (s : State) (d : Nat) (f : Domain → Domain) : (s.modDom d f).ks.evtDropped = s.ks.evtDropped := rfl
@[simp] theorem State.modDom_ks_admitted (s : State) (d : Nat) (f : Domain → Domain) : (s.modDom d f).ks.admitted = s.ks.admitted := rfl
@[simp] theorem State.modDom_ks_aliveTold (s : State) (d : Nat) (f : Domain → Domain) : (s.modDom d f).ks.aliveTold = s.ks.aliveTold := rfl
@[simp] theorem State.modDom_ks_leafRecs (s : State) (d : Nat) (f : Domain → Domain) : (s.modDom d f).ks.leafRecs = s.ks.leafRecs := rfl
@[simp] theorem State.modDom_ks_chunks (s : State) (d : Nat) (f : Domain → Domain) : (s.modDom d f).ks.chunks = s.ks.chunks := rfl
@[simp] theorem State.modDom_ks_kept (s : State) (d : Nat) (f : Domain → Domain) : (s.modDom d f).ks.kept = s.ks.kept := rfl
@[simp] theorem State.modDom_ks_shards (s : State) (d : Nat) (f : Domain → Domain) : (s.modDom d f).ks.shards = s.ks.shards := rfl
@[simp] theorem State.modDom_ks_blockQ (s : State) (d : Nat) (f : Domain → Domain) : (s.modDom d f).ks.blockQ = s.ks.blockQ := rfl
@[simp] theorem State.modDom_ks_jobs (s : State) (d : Nat) (f : Domain → Domain) : (s.modDom d f).ks.jobs = s.ks.jobs := rfl
@[simp] theorem State.modDom_ks_waitJobs (s : State) (d : Nat) (f : Domain → Domain) : (s.modDom d f).ks.waitJobs = s.ks.waitJobs := rfl
@[simp] theorem State.modDom_ks_windows (s : State) (d : Nat) (f : Domain → Domain) : (s.modDom d f).ks.windows = s.ks.windows := rfl
@[simp] theorem State.modDom_ks_bases (s : State) (d : Nat) (f : Domain → Domain) : (s.modDom d f).ks.bases = s.ks.bases := rfl
@[simp] theorem State.modDom_ks_staged (s : State) (d : Nat) (f : Domain → Domain) : (s.modDom d f).ks.staged = s.ks.staged := rfl
@[simp] theorem State.modDom_ks_ckpts (s : State) (d : Nat) (f : Domain → Domain) : (s.modDom d f).ks.ckpts = s.ks.ckpts := rfl
@[simp] theorem State.modDom_ks_fills (s : State) (d : Nat) (f : Domain → Domain) : (s.modDom d f).ks.fills = s.ks.fills := rfl
@[simp] theorem State.modDom_ks_cupChecks (s : State) (d : Nat) (f : Domain → Domain) : (s.modDom d f).ks.cupChecks = s.ks.cupChecks := rfl
@[simp] theorem State.modDom_ks_shardReads (s : State) (d : Nat) (f : Domain → Domain) : (s.modDom d f).ks.shardReads = s.ks.shardReads := rfl
@[simp] theorem State.modDom_ks_grants (s : State) (d : Nat) (f : Domain → Domain) : (s.modDom d f).ks.grants = s.ks.grants := rfl
@[simp] theorem State.modDom_ks_dspLeaves (s : State) (d : Nat) (f : Domain → Domain) : (s.modDom d f).ks.dspLeaves = s.ks.dspLeaves := rfl
@[simp] theorem State.modDom_ks_dspHomes (s : State) (d : Nat) (f : Domain → Domain) : (s.modDom d f).ks.dspHomes = s.ks.dspHomes := rfl
@[simp] theorem State.modDom_ks_dspEngine (s : State) (d : Nat) (f : Domain → Domain) : (s.modDom d f).ks.dspEngine = s.ks.dspEngine := rfl
@[simp] theorem State.modDom_ks_dspQ (s : State) (d : Nat) (f : Domain → Domain) : (s.modDom d f).ks.dspQ = s.ks.dspQ := rfl
@[simp] theorem State.modDom_ks_tieReroute (s : State) (d : Nat) (f : Domain → Domain) : (s.modDom d f).ks.tieReroute = s.ks.tieReroute := rfl
@[simp] theorem State.modDom_ks_objs (s : State) (d : Nat) (f : Domain → Domain) : (s.modDom d f).ks.objs = s.ks.objs := rfl
@[simp] theorem State.modDom_ks_heldTakes (s : State) (d : Nat) (f : Domain → Domain) : (s.modDom d f).ks.heldTakes = s.ks.heldTakes := rfl
@[simp] theorem State.modDom_ks_trackers (s : State) (d : Nat) (f : Domain → Domain) : (s.modDom d f).ks.trackers = s.ks.trackers := rfl
@[simp] theorem State.modDom_ks_sends (s : State) (d : Nat) (f : Domain → Domain) : (s.modDom d f).ks.sends = s.ks.sends := rfl
@[simp] theorem State.modDom_ks_writes (s : State) (d : Nat) (f : Domain → Domain) : (s.modDom d f).ks.writes = s.ks.writes := rfl
@[simp] theorem State.modDom_ks_takesDone (s : State) (d : Nat) (f : Domain → Domain) : (s.modDom d f).ks.takesDone = s.ks.takesDone := rfl
@[simp] theorem State.modDom_ks_mem (s : State) (d : Nat) (f : Domain → Domain) : (s.modDom d f).ks.mem = s.ks.mem := rfl
@[simp] theorem State.modDom_ks_ptpDiscard (s : State) (d : Nat) (f : Domain → Domain) : (s.modDom d f).ks.ptpDiscard = s.ks.ptpDiscard := rfl
@[simp] theorem State.modDom_ks_ppsDelay (s : State) (d : Nat) (f : Domain → Domain) : (s.modDom d f).ks.ppsDelay = s.ks.ppsDelay := rfl
@[simp] theorem State.modDom_ks_v2Waits (s : State) (d : Nat) (f : Domain → Domain) : (s.modDom d f).ks.v2Waits = s.ks.v2Waits := rfl
@[simp] theorem State.modShard_bx (s : State) (k : Nat) (f : Shard → Shard) : (s.modShard k f).bx = s.bx := rfl
@[simp] theorem State.modShard_ks_c (s : State) (k : Nat) (f : Shard → Shard) : (s.modShard k f).ks.c = s.ks.c := rfl
@[simp] theorem State.modShard_out (s : State) (k : Nat) (f : Shard → Shard) : (s.modShard k f).out = s.out := rfl
@[simp] theorem State.modShard_free (s : State) (k : Nat) (f : Shard → Shard) : (s.modShard k f).free = s.free := rfl
@[simp] theorem State.modShard_pending (s : State) (k : Nat) (f : Shard → Shard) : (s.modShard k f).pending = s.pending := rfl
@[simp] theorem State.modShard_pc (s : State) (k : Nat) (f : Shard → Shard) (q : Part) : (s.modShard k f).pc q = s.pc q := by cases q <;> rfl
@[simp] theorem State.modShard_rd (s : State) (k : Nat) (f : Shard → Shard) (q : Part) (a : Nat) : (s.modShard k f).rd q a = s.rd q a := by cases q <;> rfl
@[simp] theorem State.modShard_fld (s : State) (k : Nat) (f : Shard → Shard) (q : Part) (a lo n : Nat) : (s.modShard k f).fld q a lo n = s.fld q a lo n := by cases q <;> rfl
@[simp] theorem State.modShard_bit (s : State) (k : Nat) (f : Shard → Shard) (q : Part) (a i : Nat) : (s.modShard k f).bit q a i = s.bit q a i := by cases q <;> rfl
@[simp] theorem State.modShard_ks_build (s : State) (k : Nat) (f : Shard → Shard) : (s.modShard k f).ks.build = s.ks.build := rfl
@[simp] theorem State.modShard_ks_lostPlanes (s : State) (k : Nat) (f : Shard → Shard) : (s.modShard k f).ks.lostPlanes = s.ks.lostPlanes := rfl
@[simp] theorem State.modShard_ks_fences (s : State) (k : Nat) (f : Shard → Shard) : (s.modShard k f).ks.fences = s.ks.fences := rfl
@[simp] theorem State.modShard_ks_strapFb (s : State) (k : Nat) (f : Shard → Shard) : (s.modShard k f).ks.strapFb = s.ks.strapFb := rfl
@[simp] theorem State.modShard_ks_pcieEn (s : State) (k : Nat) (f : Shard → Shard) : (s.modShard k f).ks.pcieEn = s.ks.pcieEn := rfl
@[simp] theorem State.modShard_ks_tripped (s : State) (k : Nat) (f : Shard → Shard) : (s.modShard k f).ks.tripped = s.ks.tripped := rfl
@[simp] theorem State.modShard_ks_memFailed (s : State) (k : Nat) (f : Shard → Shard) : (s.modShard k f).ks.memFailed = s.ks.memFailed := rfl
@[simp] theorem State.modShard_ks_memErrors (s : State) (k : Nat) (f : Shard → Shard) : (s.modShard k f).ks.memErrors = s.ks.memErrors := rfl
@[simp] theorem State.modShard_ks_brimFailed (s : State) (k : Nat) (f : Shard → Shard) : (s.modShard k f).ks.brimFailed = s.ks.brimFailed := rfl
@[simp] theorem State.modShard_ks_coolantSince (s : State) (k : Nat) (f : Shard → Shard) : (s.modShard k f).ks.coolantSince = s.ks.coolantSince := rfl
@[simp] theorem State.modShard_ks_coolantTold (s : State) (k : Nat) (f : Shard → Shard) : (s.modShard k f).ks.coolantTold = s.ks.coolantTold := rfl
@[simp] theorem State.modShard_ks_lastCoolant (s : State) (k : Nat) (f : Shard → Shard) : (s.modShard k f).ks.lastCoolant = s.ks.lastCoolant := rfl
@[simp] theorem State.modShard_ks_lastThrottle (s : State) (k : Nat) (f : Shard → Shard) : (s.modShard k f).ks.lastThrottle = s.ks.lastThrottle := rfl
@[simp] theorem State.modShard_ks_lastAlive (s : State) (k : Nat) (f : Shard → Shard) : (s.modShard k f).ks.lastAlive = s.ks.lastAlive := rfl
@[simp] theorem State.modShard_ks_lastResend (s : State) (k : Nat) (f : Shard → Shard) : (s.modShard k f).ks.lastResend = s.ks.lastResend := rfl
@[simp] theorem State.modShard_ks_events (s : State) (k : Nat) (f : Shard → Shard) : (s.modShard k f).ks.events = s.ks.events := rfl
@[simp] theorem State.modShard_ks_evtDropped (s : State) (k : Nat) (f : Shard → Shard) : (s.modShard k f).ks.evtDropped = s.ks.evtDropped := rfl
@[simp] theorem State.modShard_ks_admitted (s : State) (k : Nat) (f : Shard → Shard) : (s.modShard k f).ks.admitted = s.ks.admitted := rfl
@[simp] theorem State.modShard_ks_aliveTold (s : State) (k : Nat) (f : Shard → Shard) : (s.modShard k f).ks.aliveTold = s.ks.aliveTold := rfl
@[simp] theorem State.modShard_ks_doms (s : State) (k : Nat) (f : Shard → Shard) : (s.modShard k f).ks.doms = s.ks.doms := rfl
@[simp] theorem State.modShard_ks_leafRecs (s : State) (k : Nat) (f : Shard → Shard) : (s.modShard k f).ks.leafRecs = s.ks.leafRecs := rfl
@[simp] theorem State.modShard_ks_chunks (s : State) (k : Nat) (f : Shard → Shard) : (s.modShard k f).ks.chunks = s.ks.chunks := rfl
@[simp] theorem State.modShard_ks_kept (s : State) (k : Nat) (f : Shard → Shard) : (s.modShard k f).ks.kept = s.ks.kept := rfl
@[simp] theorem State.modShard_ks_blockQ (s : State) (k : Nat) (f : Shard → Shard) : (s.modShard k f).ks.blockQ = s.ks.blockQ := rfl
@[simp] theorem State.modShard_ks_jobs (s : State) (k : Nat) (f : Shard → Shard) : (s.modShard k f).ks.jobs = s.ks.jobs := rfl
@[simp] theorem State.modShard_ks_waitJobs (s : State) (k : Nat) (f : Shard → Shard) : (s.modShard k f).ks.waitJobs = s.ks.waitJobs := rfl
@[simp] theorem State.modShard_ks_windows (s : State) (k : Nat) (f : Shard → Shard) : (s.modShard k f).ks.windows = s.ks.windows := rfl
@[simp] theorem State.modShard_ks_bases (s : State) (k : Nat) (f : Shard → Shard) : (s.modShard k f).ks.bases = s.ks.bases := rfl
@[simp] theorem State.modShard_ks_staged (s : State) (k : Nat) (f : Shard → Shard) : (s.modShard k f).ks.staged = s.ks.staged := rfl
@[simp] theorem State.modShard_ks_ckpts (s : State) (k : Nat) (f : Shard → Shard) : (s.modShard k f).ks.ckpts = s.ks.ckpts := rfl
@[simp] theorem State.modShard_ks_fills (s : State) (k : Nat) (f : Shard → Shard) : (s.modShard k f).ks.fills = s.ks.fills := rfl
@[simp] theorem State.modShard_ks_cupChecks (s : State) (k : Nat) (f : Shard → Shard) : (s.modShard k f).ks.cupChecks = s.ks.cupChecks := rfl
@[simp] theorem State.modShard_ks_shardReads (s : State) (k : Nat) (f : Shard → Shard) : (s.modShard k f).ks.shardReads = s.ks.shardReads := rfl
@[simp] theorem State.modShard_ks_grants (s : State) (k : Nat) (f : Shard → Shard) : (s.modShard k f).ks.grants = s.ks.grants := rfl
@[simp] theorem State.modShard_ks_dspLeaves (s : State) (k : Nat) (f : Shard → Shard) : (s.modShard k f).ks.dspLeaves = s.ks.dspLeaves := rfl
@[simp] theorem State.modShard_ks_dspHomes (s : State) (k : Nat) (f : Shard → Shard) : (s.modShard k f).ks.dspHomes = s.ks.dspHomes := rfl
@[simp] theorem State.modShard_ks_dspEngine (s : State) (k : Nat) (f : Shard → Shard) : (s.modShard k f).ks.dspEngine = s.ks.dspEngine := rfl
@[simp] theorem State.modShard_ks_dspQ (s : State) (k : Nat) (f : Shard → Shard) : (s.modShard k f).ks.dspQ = s.ks.dspQ := rfl
@[simp] theorem State.modShard_ks_tieReroute (s : State) (k : Nat) (f : Shard → Shard) : (s.modShard k f).ks.tieReroute = s.ks.tieReroute := rfl
@[simp] theorem State.modShard_ks_objs (s : State) (k : Nat) (f : Shard → Shard) : (s.modShard k f).ks.objs = s.ks.objs := rfl
@[simp] theorem State.modShard_ks_heldTakes (s : State) (k : Nat) (f : Shard → Shard) : (s.modShard k f).ks.heldTakes = s.ks.heldTakes := rfl
@[simp] theorem State.modShard_ks_trackers (s : State) (k : Nat) (f : Shard → Shard) : (s.modShard k f).ks.trackers = s.ks.trackers := rfl
@[simp] theorem State.modShard_ks_sends (s : State) (k : Nat) (f : Shard → Shard) : (s.modShard k f).ks.sends = s.ks.sends := rfl
@[simp] theorem State.modShard_ks_writes (s : State) (k : Nat) (f : Shard → Shard) : (s.modShard k f).ks.writes = s.ks.writes := rfl
@[simp] theorem State.modShard_ks_takesDone (s : State) (k : Nat) (f : Shard → Shard) : (s.modShard k f).ks.takesDone = s.ks.takesDone := rfl
@[simp] theorem State.modShard_ks_mem (s : State) (k : Nat) (f : Shard → Shard) : (s.modShard k f).ks.mem = s.ks.mem := rfl
@[simp] theorem State.modShard_ks_ptpDiscard (s : State) (k : Nat) (f : Shard → Shard) : (s.modShard k f).ks.ptpDiscard = s.ks.ptpDiscard := rfl
@[simp] theorem State.modShard_ks_ppsDelay (s : State) (k : Nat) (f : Shard → Shard) : (s.modShard k f).ks.ppsDelay = s.ks.ppsDelay := rfl
@[simp] theorem State.modShard_ks_v2Waits (s : State) (k : Nat) (f : Shard → Shard) : (s.modShard k f).ks.v2Waits = s.ks.v2Waits := rfl
@[simp] theorem State.modTen_ks (s : State) (t : Nat) (f : Tenant → Tenant) : (s.modTen t f).ks = s.ks := rfl
@[simp] theorem State.modTen_bx_c (s : State) (t : Nat) (f : Tenant → Tenant) : (s.modTen t f).bx.c = s.bx.c := rfl
@[simp] theorem State.modTen_out (s : State) (t : Nat) (f : Tenant → Tenant) : (s.modTen t f).out = s.out := rfl
@[simp] theorem State.modTen_free (s : State) (t : Nat) (f : Tenant → Tenant) : (s.modTen t f).free = s.free := rfl
@[simp] theorem State.modTen_pending (s : State) (t : Nat) (f : Tenant → Tenant) : (s.modTen t f).pending = s.pending := rfl
@[simp] theorem State.modTen_pc (s : State) (t : Nat) (f : Tenant → Tenant) (q : Part) : (s.modTen t f).pc q = s.pc q := by cases q <;> rfl
@[simp] theorem State.modTen_rd (s : State) (t : Nat) (f : Tenant → Tenant) (q : Part) (a : Nat) : (s.modTen t f).rd q a = s.rd q a := by cases q <;> rfl
@[simp] theorem State.modTen_fld (s : State) (t : Nat) (f : Tenant → Tenant) (q : Part) (a lo n : Nat) : (s.modTen t f).fld q a lo n = s.fld q a lo n := by cases q <;> rfl
@[simp] theorem State.modTen_bit (s : State) (t : Nat) (f : Tenant → Tenant) (q : Part) (a i : Nat) : (s.modTen t f).bit q a i = s.bit q a i := by cases q <;> rfl
@[simp] theorem State.modTen_bx_straps (s : State) (t : Nat) (f : Tenant → Tenant) : (s.modTen t f).bx.straps = s.bx.straps := rfl
@[simp] theorem State.modTen_bx_refclkLost (s : State) (t : Nat) (f : Tenant → Tenant) : (s.modTen t f).bx.refclkLost = s.bx.refclkLost := rfl
@[simp] theorem State.modTen_bx_fenced (s : State) (t : Nat) (f : Tenant → Tenant) : (s.modTen t f).bx.fenced = s.bx.fenced := rfl
@[simp] theorem State.modTen_bx_fenceSeq (s : State) (t : Nat) (f : Tenant → Tenant) : (s.modTen t f).bx.fenceSeq = s.bx.fenceSeq := rfl
@[simp] theorem State.modTen_bx_prior (s : State) (t : Nat) (f : Tenant → Tenant) : (s.modTen t f).bx.prior = s.bx.prior := rfl
@[simp] theorem State.modTen_bx_reportSeq (s : State) (t : Nat) (f : Tenant → Tenant) : (s.modTen t f).bx.reportSeq = s.bx.reportSeq := rfl
@[simp] theorem State.modTen_bx_slots (s : State) (t : Nat) (f : Tenant → Tenant) : (s.modTen t f).bx.slots = s.bx.slots := rfl
@[simp] theorem State.modTen_bx_objs (s : State) (t : Nat) (f : Tenant → Tenant) : (s.modTen t f).bx.objs = s.bx.objs := rfl
@[simp] theorem State.modTen_bx_heldTakes (s : State) (t : Nat) (f : Tenant → Tenant) : (s.modTen t f).bx.heldTakes = s.bx.heldTakes := rfl
@[simp] theorem State.modTen_bx_trackers (s : State) (t : Nat) (f : Tenant → Tenant) : (s.modTen t f).bx.trackers = s.bx.trackers := rfl
@[simp] theorem State.modTen_bx_sends (s : State) (t : Nat) (f : Tenant → Tenant) : (s.modTen t f).bx.sends = s.bx.sends := rfl
@[simp] theorem State.modTen_bx_writes (s : State) (t : Nat) (f : Tenant → Tenant) : (s.modTen t f).bx.writes = s.bx.writes := rfl
@[simp] theorem State.modTen_bx_reads (s : State) (t : Nat) (f : Tenant → Tenant) : (s.modTen t f).bx.reads = s.bx.reads := rfl
@[simp] theorem State.modTen_bx_v2Waits (s : State) (t : Nat) (f : Tenant → Tenant) : (s.modTen t f).bx.v2Waits = s.bx.v2Waits := rfl
@[simp] theorem State.modTen_bx_waitSends (s : State) (t : Nat) (f : Tenant → Tenant) : (s.modTen t f).bx.waitSends = s.bx.waitSends := rfl
@[simp] theorem State.modTen_bx_parts (s : State) (t : Nat) (f : Tenant → Tenant) : (s.modTen t f).bx.parts = s.bx.parts := rfl
@[simp] theorem State.modTen_bx_nextPart (s : State) (t : Nat) (f : Tenant → Tenant) : (s.modTen t f).bx.nextPart = s.bx.nextPart := rfl
@[simp] theorem State.modTen_bx_readJobs (s : State) (t : Nat) (f : Tenant → Tenant) : (s.modTen t f).bx.readJobs = s.bx.readJobs := rfl
@[simp] theorem State.modTen_bx_nextJob (s : State) (t : Nat) (f : Tenant → Tenant) : (s.modTen t f).bx.nextJob = s.bx.nextJob := rfl
@[simp] theorem State.modTen_bx_bases (s : State) (t : Nat) (f : Tenant → Tenant) : (s.modTen t f).bx.bases = s.bx.bases := rfl
@[simp] theorem State.modSlot_ks (s : State) (t i : Nat) (f : Slot → Slot) : (s.modSlot t i f).ks = s.ks := rfl
@[simp] theorem State.modSlot_bx_c (s : State) (t i : Nat) (f : Slot → Slot) : (s.modSlot t i f).bx.c = s.bx.c := rfl
@[simp] theorem State.modSlot_out (s : State) (t i : Nat) (f : Slot → Slot) : (s.modSlot t i f).out = s.out := rfl
@[simp] theorem State.modSlot_free (s : State) (t i : Nat) (f : Slot → Slot) : (s.modSlot t i f).free = s.free := rfl
@[simp] theorem State.modSlot_pending (s : State) (t i : Nat) (f : Slot → Slot) : (s.modSlot t i f).pending = s.pending := rfl
@[simp] theorem State.modSlot_pc (s : State) (t i : Nat) (f : Slot → Slot) (q : Part) : (s.modSlot t i f).pc q = s.pc q := by cases q <;> rfl
@[simp] theorem State.modSlot_rd (s : State) (t i : Nat) (f : Slot → Slot) (q : Part) (a : Nat) : (s.modSlot t i f).rd q a = s.rd q a := by cases q <;> rfl
@[simp] theorem State.modSlot_fld (s : State) (t i : Nat) (f : Slot → Slot) (q : Part) (a lo n : Nat) : (s.modSlot t i f).fld q a lo n = s.fld q a lo n := by cases q <;> rfl
@[simp] theorem State.modSlot_bit (s : State) (t i : Nat) (f : Slot → Slot) (q : Part) (a i : Nat) : (s.modSlot t i f).bit q a i = s.bit q a i := by cases q <;> rfl
@[simp] theorem State.modSlot_bx_straps (s : State) (t i : Nat) (f : Slot → Slot) : (s.modSlot t i f).bx.straps = s.bx.straps := rfl
@[simp] theorem State.modSlot_bx_refclkLost (s : State) (t i : Nat) (f : Slot → Slot) : (s.modSlot t i f).bx.refclkLost = s.bx.refclkLost := rfl
@[simp] theorem State.modSlot_bx_fenced (s : State) (t i : Nat) (f : Slot → Slot) : (s.modSlot t i f).bx.fenced = s.bx.fenced := rfl
@[simp] theorem State.modSlot_bx_fenceSeq (s : State) (t i : Nat) (f : Slot → Slot) : (s.modSlot t i f).bx.fenceSeq = s.bx.fenceSeq := rfl
@[simp] theorem State.modSlot_bx_prior (s : State) (t i : Nat) (f : Slot → Slot) : (s.modSlot t i f).bx.prior = s.bx.prior := rfl
@[simp] theorem State.modSlot_bx_reportSeq (s : State) (t i : Nat) (f : Slot → Slot) : (s.modSlot t i f).bx.reportSeq = s.bx.reportSeq := rfl
@[simp] theorem State.modSlot_bx_tenants (s : State) (t i : Nat) (f : Slot → Slot) : (s.modSlot t i f).bx.tenants = s.bx.tenants := rfl
@[simp] theorem State.modSlot_bx_objs (s : State) (t i : Nat) (f : Slot → Slot) : (s.modSlot t i f).bx.objs = s.bx.objs := rfl
@[simp] theorem State.modSlot_bx_heldTakes (s : State) (t i : Nat) (f : Slot → Slot) : (s.modSlot t i f).bx.heldTakes = s.bx.heldTakes := rfl
@[simp] theorem State.modSlot_bx_trackers (s : State) (t i : Nat) (f : Slot → Slot) : (s.modSlot t i f).bx.trackers = s.bx.trackers := rfl
@[simp] theorem State.modSlot_bx_sends (s : State) (t i : Nat) (f : Slot → Slot) : (s.modSlot t i f).bx.sends = s.bx.sends := rfl
@[simp] theorem State.modSlot_bx_writes (s : State) (t i : Nat) (f : Slot → Slot) : (s.modSlot t i f).bx.writes = s.bx.writes := rfl
@[simp] theorem State.modSlot_bx_reads (s : State) (t i : Nat) (f : Slot → Slot) : (s.modSlot t i f).bx.reads = s.bx.reads := rfl
@[simp] theorem State.modSlot_bx_v2Waits (s : State) (t i : Nat) (f : Slot → Slot) : (s.modSlot t i f).bx.v2Waits = s.bx.v2Waits := rfl
@[simp] theorem State.modSlot_bx_waitSends (s : State) (t i : Nat) (f : Slot → Slot) : (s.modSlot t i f).bx.waitSends = s.bx.waitSends := rfl
@[simp] theorem State.modSlot_bx_parts (s : State) (t i : Nat) (f : Slot → Slot) : (s.modSlot t i f).bx.parts = s.bx.parts := rfl
@[simp] theorem State.modSlot_bx_nextPart (s : State) (t i : Nat) (f : Slot → Slot) : (s.modSlot t i f).bx.nextPart = s.bx.nextPart := rfl
@[simp] theorem State.modSlot_bx_readJobs (s : State) (t i : Nat) (f : Slot → Slot) : (s.modSlot t i f).bx.readJobs = s.bx.readJobs := rfl
@[simp] theorem State.modSlot_bx_nextJob (s : State) (t i : Nat) (f : Slot → Slot) : (s.modSlot t i f).bx.nextJob = s.bx.nextJob := rfl
@[simp] theorem State.modSlot_bx_bases (s : State) (t i : Nat) (f : Slot → Slot) : (s.modSlot t i f).bx.bases = s.bx.bases := rfl
@[simp] theorem State.dom_modDom (s : State) (d : Nat) (f : Domain → Domain) : (s.modDom d f).dom d = f (s.dom d) := by simp [State.dom, State.modDom]
theorem State.dom_modDom_ne (s : State) {d e : Nat} (h : e ≠ d) (f : Domain → Domain) : (s.modDom d f).dom e = s.dom e := by simp [State.dom, State.modDom, FMap.getD_update_ne _ h]
@[simp] theorem State.ten_modTen (s : State) (t : Nat) (f : Tenant → Tenant) : (s.modTen t f).ten t = f (s.ten t) := by simp [State.ten, State.modTen]
theorem State.ten_modTen_ne (s : State) {t u : Nat} (h : u ≠ t) (f : Tenant → Tenant) : (s.modTen t f).ten u = s.ten u := by simp [State.ten, State.modTen, FMap.getD_update_ne _ h]
@[simp] theorem State.slot_modSlot (s : State) (t i : Nat) (f : Slot → Slot) : (s.modSlot t i f).slot t i = f (s.slot t i) := FMap.getD_update_self _ _ _ _
@[simp] theorem State.dom_modTen (s : State) (t d : Nat) (f : Tenant → Tenant) : (s.modTen t f).dom d = s.dom d := rfl
@[simp] theorem State.dom_modSlot (s : State) (t i d : Nat) (f : Slot → Slot) : (s.modSlot t i f).dom d = s.dom d := rfl
@[simp] theorem State.ten_modSlot (s : State) (t i u : Nat) (f : Slot → Slot) : (s.modSlot t i f).ten u = s.ten u := rfl

end Sys2Proof.Machine
end

