-- ==== Sys2Proof/Laws/Memory.lean ====
section
/-! SUPPORT. The memory of a Kresia: every operation keeps the canonical form, a byte written reads back, and a write leaves
every other byte alone. -/

namespace Sys2Proof.Machine

/-- The canonical form as a statement about each entry and about neighbours. -/
def Memory.Sorted (m : List Host.Cell) : Prop :=
  m.Pairwise (fun x y => x.1 < y.1) ∧ ∀ x ∈ m, x.2 ≠ memDefault

theorem Memory.wf_iff : ∀ m : List Host.Cell, Memory.wf m = true ↔ Memory.Sorted m
  | [] => by simp [Memory.wf, Memory.Sorted]
  | [(j, v)] => by simp [Memory.wf, Memory.Sorted]
  | (j, v) :: (k, w) :: t => by
    have ih := Memory.wf_iff ((k, w) :: t)
    simp only [Memory.wf, Bool.and_eq_true, decide_eq_true_eq, ih, Memory.Sorted, List.pairwise_cons, List.mem_cons,
      forall_eq_or_imp]
    constructor
    · rintro ⟨⟨hv, hk⟩, ⟨hp, hq⟩, hw, hn⟩
      exact ⟨⟨⟨hk, fun x hx => Nat.lt_trans hk (hp x hx)⟩, hp, hq⟩, hv, hw, hn⟩
    · rintro ⟨⟨⟨hk, -⟩, hp, hq⟩, hv, hw, hn⟩
      exact ⟨⟨hv, hk⟩, ⟨hp, hq⟩, hw, hn⟩

theorem memErase_subset (m : List Host.Cell) (a : Nat) : (memErase m a).Sublist m := by
  induction m with
  | nil => simp [memErase]
  | cons x t ih =>
    obtain ⟨j, v⟩ := x
    simp only [memErase]
    split
    · exact List.sublist_cons_self _ _
    · exact ih.cons_cons _

theorem Memory.sorted_erase {m : List Host.Cell} (h : Memory.Sorted m) (a : Nat) : Memory.Sorted (memErase m a) :=
  ⟨h.1.sublist (memErase_subset m a), fun x hx => h.2 x ((memErase_subset m a).subset hx)⟩

theorem mem_memInsert {m : List Host.Cell} {a : Nat} {v : Byte} {x : Host.Cell} (h : x ∈ memInsert m a v) :
    x = (a, v) ∨ x ∈ m := by
  induction m with
  | nil => simpa [memInsert] using h
  | cons y t ih =>
    obtain ⟨j, w⟩ := y
    simp only [memInsert] at h
    split at h
    · simpa using h
    · split at h
      · rcases List.mem_cons.1 h with h | h
        · exact .inl h
        · exact .inr (List.mem_cons_of_mem _ h)
      · rcases List.mem_cons.1 h with h | h
        · exact .inr (by simp [h])
        · exact (ih h).imp id (List.mem_cons_of_mem _)

theorem Memory.sorted_insert {m : List Host.Cell} (h : Memory.Sorted m) (a : Nat) {v : Byte} (hv : v ≠ memDefault) :
    Memory.Sorted (memInsert m a v) := by
  induction m with
  | nil => simpa [memInsert, Memory.Sorted] using hv
  | cons y t ih =>
    obtain ⟨j, w⟩ := y
    have ht : Memory.Sorted t := ⟨(List.pairwise_cons.1 h.1).2, fun x hx => h.2 x (List.mem_cons_of_mem _ hx)⟩
    have hj := (List.pairwise_cons.1 h.1).1
    simp only [memInsert]
    split
    · rename_i haj
      refine ⟨List.pairwise_cons.2 ⟨fun x hx => ?_, h.1⟩, fun x hx => ?_⟩
      · rcases List.mem_cons.1 hx with rfl | hx
        · exact haj
        · exact Nat.lt_trans haj (hj x hx)
      · rcases List.mem_cons.1 hx with rfl | hx
        · exact hv
        · exact h.2 x hx
    · split
      · rename_i hne heq
        subst heq
        refine ⟨List.pairwise_cons.2 ⟨hj, (List.pairwise_cons.1 h.1).2⟩, fun x hx => ?_⟩
        rcases List.mem_cons.1 hx with rfl | hx
        · exact hv
        · exact h.2 x (List.mem_cons_of_mem _ hx)
      · rename_i h1 h2
        have ih' := ih ht
        refine ⟨List.pairwise_cons.2 ⟨fun x hx => ?_, ih'.1⟩, fun x hx => ?_⟩
        · rcases mem_memInsert hx with rfl | hx
          · show j < a
            omega
          · exact hj x hx
        · rcases List.mem_cons.1 hx with rfl | hx
          · exact h.2 _ (by simp)
          · exact ih'.2 x hx

/-- One byte written keeps the canonical form. -/
theorem Memory.wf_write {m : List Host.Cell} (h : Memory.wf m = true) (a : Nat) (v : Byte) :
    Memory.wf (memWrite m a v) = true := by
  rw [Memory.wf_iff] at *
  unfold memWrite
  split
  · exact Memory.sorted_erase h a
  · exact Memory.sorted_insert h a ‹_›

/-- A byte string written keeps the canonical form. -/
theorem Memory.wf_writeAll {m : List Host.Cell} (h : Memory.wf m = true) (a : Nat) (bs : List Byte) :
    Memory.wf (memWriteAll m a bs) = true := by
  induction bs generalizing m a with
  | nil => exact h
  | cons b t ih => exact ih (Memory.wf_write h a b) (a + 1)

theorem memRead_of_lt {m : List Host.Cell} {a : Nat} (h : ∀ x ∈ m, a < x.1) : memRead m a = memDefault := by
  induction m with
  | nil => rfl
  | cons y t ih =>
    obtain ⟨j, w⟩ := y
    have hj : a < j := h (j, w) (by simp)
    simp only [memRead, if_neg (show ¬j = a by omega)]
    exact ih fun x hx => h x (List.mem_cons_of_mem _ hx)

/-- A byte reads back as it was written. -/
theorem memRead_write_self {m : List Host.Cell} (h : Memory.wf m = true) (a : Nat) (v : Byte) :
    memRead (memWrite m a v) a = v := by
  rw [Memory.wf_iff] at h
  unfold memWrite
  split
  · subst_vars
    induction m with
    | nil => rfl
    | cons y t ih =>
      obtain ⟨j, w⟩ := y
      have hj := (List.pairwise_cons.1 h.1).1
      have ht : Memory.Sorted t := ⟨(List.pairwise_cons.1 h.1).2, fun x hx => h.2 x (List.mem_cons_of_mem _ hx)⟩
      simp only [memErase]
      split
      · subst_vars
        exact memRead_of_lt hj
      · simp only [memRead]
        split
        · contradiction
        · exact ih ht
  · clear h
    induction m with
    | nil => simp [memInsert, memRead]
    | cons y t ih =>
      obtain ⟨j, w⟩ := y
      simp only [memInsert]
      split
      · simp [memRead]
      · split
        · simp [memRead]
        · rename_i h1 h2
          simp only [memRead]
          split
          · omega
          · exact ih

/-- A write leaves every other byte alone. -/
theorem memRead_write_ne (m : List Host.Cell) {a b : Nat} (hne : b ≠ a) (v : Byte) :
    memRead (memWrite m a v) b = memRead m b := by
  unfold memWrite
  split
  · induction m with
    | nil => rfl
    | cons y t ih =>
      obtain ⟨j, w⟩ := y
      simp only [memErase]
      split
      · rename_i hja
        simp [memRead, show ¬j = b by omega]
      · simp only [memRead, ih]
  · induction m with
    | nil => simp [memInsert, memRead, show ¬a = b by omega]
    | cons y t ih =>
      obtain ⟨j, w⟩ := y
      simp only [memInsert]
      split
      · simp [memRead, show ¬a = b by omega]
      · split
        · rename_i h1 h2
          simp [memRead, show ¬a = b by omega, show ¬j = b by omega]
        · simp only [memRead, ih]

/-- A byte string written leaves every byte outside it alone. -/
theorem memRead_writeAll_out (bs : List Byte) (m : List Host.Cell) (a b : Nat) (h : b < a ∨ a + bs.length ≤ b) :
    memRead (memWriteAll m a bs) b = memRead m b := by
  induction bs generalizing m a with
  | nil => rfl
  | cons x t ih =>
    simp only [List.length_cons] at h
    simp only [memWriteAll]
    rw [ih _ _ (by omega), memRead_write_ne _ (by omega)]

/-- A byte string written reads back, byte by byte. -/
theorem memRead_writeAll_in (bs : List Byte) (m : List Host.Cell) (h : Memory.wf m = true) (a i : Nat) (hi : i < bs.length) :
    memRead (memWriteAll m a bs) (a + i) = bs[i] := by
  induction bs generalizing m a i with
  | nil => simp at hi
  | cons x t ih =>
    simp only [memWriteAll]
    cases i with
    | zero => rw [memRead_writeAll_out _ _ _ _ (by omega)]; simpa using memRead_write_self h a x
    | succ i =>
      have := ih (memWrite m a x) (Memory.wf_write h a x) (a + 1) i (by simpa using hi)
      simpa [Nat.add_assoc, Nat.add_comm 1 i] using this

end Sys2Proof.Machine
end

