-- ==== Sys2Proof/Laws/Follows.lean ====
section
/-! SUPPORT. What every operation of a part does to the rest of the state, said once: it leaves the queue and the other part
alone, takes nothing back that was driven out, and keeps the invariant. -/

namespace Sys2Proof.Machine

/-- t comes from s by operations of part p, which write to the Kresia's memory only where mw is true. -/
structure Follows (mw : Bool) (p : Part) (s t : State) : Prop where
  pending : t.pending = s.pending
  out : s.out <:+ t.out
  free : s.free ≤ t.free
  inv : s.Inv → t.Inv
  ks : p = .baxel → t.ks = s.ks
  bx : p = .kresia → t.bx = s.bx
  mem : mw = false → t.ks.mem = s.ks.mem

/-- An answer that is a next state that follows. -/
def Answers (mw : Bool) (p : Part) (s : State) (a : Answer) : Prop := ∃ t, a = .next t ∧ Follows mw p s t

@[simp] theorem Follows.refl {mw : Bool} (p : Part) (s : State) : Follows mw p s s :=
  ⟨rfl, List.suffix_refl _, Nat.le_refl _, id, fun _ => rfl, fun _ => rfl, fun _ => rfl⟩

theorem Follows.trans {mw : Bool} {p : Part} {s t u : State} (h : Follows mw p s t) (g : Follows mw p t u) : Follows mw p s u :=
  ⟨g.pending.trans h.pending, h.out.trans g.out, Nat.le_trans h.free g.free, g.inv ∘ h.inv,
    fun e => (g.ks e).trans (h.ks e), fun e => (g.bx e).trans (h.bx e),
    fun e => (g.mem e).trans (h.mem e)⟩

@[simp] theorem Answers.next {mw : Bool} {p : Part} {s t : State} : Answers mw p s (.next t) ↔ Follows mw p s t := by
  constructor
  · rintro ⟨u, hu, h⟩
    cases hu
    exact h
  · exact fun h => ⟨t, rfl, h⟩

theorem Answers.of {mw : Bool} {p : Part} {s t : State} {a : Answer} (h : Follows mw p s t) (g : Answers mw p t a) : Answers mw p s a := by
  obtain ⟨u, rfl, hu⟩ := g
  exact ⟨u, rfl, h.trans hu⟩

@[simp] theorem Answers.ite {mw : Bool} {p : Part} {s : State} {c : Prop} [Decidable c] {a b : Answer} (ha : Answers mw p s a)
    (hb : Answers mw p s b) : Answers mw p s (if c then a else b) := by
  split <;> assumption

@[simp] theorem Follows.ite {mw : Bool} {p : Part} {s : State} {c : Prop} [Decidable c] {a b : State} (ha : Follows mw p s a)
    (hb : Follows mw p s b) : Follows mw p s (if c then a else b) := by
  split <;> assumption

@[simp] theorem Follows.ite_fst {mw : Bool} {α : Type} {p : Part} {s : State} {c : Prop} [Decidable c] {a b : State × α}
    (ha : Follows mw p s a.1) (hb : Follows mw p s b.1) : Follows mw p s (if c then a else b).1 := by
  split <;> assumption

@[simp] theorem Follows.ite_snd {mw : Bool} {α : Type} {p : Part} {s : State} {c : Prop} [Decidable c] {a b : α × State}
    (ha : Follows mw p s a.2) (hb : Follows mw p s b.2) : Follows mw p s (if c then a else b).2 := by
  split <;> assumption

@[simp] theorem Follows.foldl {mw : Bool} {p : Part} {s s1 : State} {α : Type} {f : State → α → State} {l : List α}
    (hf : ∀ t x, Follows mw p t (f t x)) (h : Follows mw p s s1) : Follows mw p s (l.foldl f s1) := by
  induction l generalizing s1 with
  | nil => exact h
  | cons x l ih => exact ih (h.trans (hf _ _))

@[simp] theorem Follows.foldl_fst {mw : Bool} {p : Part} {s : State} {α β : Type} {f : State × β → α → State × β} {l : List α}
    {a : State × β} (hf : ∀ b x, Follows mw p b.1 (f b x).1) (h : Follows mw p s a.1) : Follows mw p s (l.foldl f a).1 := by
  induction l generalizing a with
  | nil => exact h
  | cons x l ih => exact ih (h.trans (hf _ _))

@[simp] theorem Follows.foldl_snd {mw : Bool} {p : Part} {s : State} {α β : Type} {f : β × State → α → β × State} {l : List α}
    {a : β × State} (hf : ∀ b x, Follows mw p b.2 (f b x).2) (h : Follows mw p s a.2) : Follows mw p s (l.foldl f a).2 := by
  induction l generalizing a with
  | nil => exact h
  | cons x l ih => exact ih (h.trans (hf _ _))

@[simp] theorem Follows.foldr {mw : Bool} {p : Part} {s s1 : State} {α : Type} {f : α → State → State} {l : List α}
    (hf : ∀ t x, Follows mw p t (f x t)) (h : Follows mw p s s1) : Follows mw p s (l.foldr f s1) := by
  induction l with
  | nil => exact h
  | cons x l ih => exact ih.trans (hf _ _)

/-! ### The primitive updates -/

@[simp] theorem Follows.emit {mw : Bool} {p : Part} {s0 s : State} (o : Out) (h : Follows mw p s0 s) : Follows mw p s0 (s.emit o) :=
  h.trans ⟨rfl, List.suffix_cons _ _, Nat.le_refl _, id, fun _ => rfl, fun _ => rfl, fun _ => rfl⟩

@[simp] theorem Follows.draw {mw : Bool} {p : Part} {s0 s : State} (h : Follows mw p s0 s) : Follows mw p s0 s.draw.2 :=
  h.trans ⟨rfl, List.suffix_refl _, Nat.le_succ _, id, fun _ => rfl, fun _ => rfl, fun _ => rfl⟩

@[simp] theorem Follows.modBx {mw : Bool} {s0 s : State} {f : Baxel → Baxel} (h : Follows mw .baxel s0 s)
    (hf : ∀ b, (f b).c.stamp.txq = b.c.stamp.txq) : Follows mw .baxel s0 (s.modBx f) :=
  h.trans ⟨rfl, List.suffix_refl _, Nat.le_refl _, (by
    rintro ⟨a, b, c, d⟩
    refine ⟨a, b, ?_, d⟩
    simpa [State.modBx, hf] using c), fun _ => rfl, nofun, fun _ => rfl⟩

@[simp] theorem Follows.modKs {mw : Bool} {s0 s : State} {f : Kresia → Kresia} (h : Follows mw .kresia s0 s)
    (hm : ∀ k, (f k).mem = k.mem) (he : ∀ k, (f k).events = k.events) (hf : ∀ k, (f k).c.stamp.txq = k.c.stamp.txq) :
    Follows mw .kresia s0 (s.modKs f) :=
  h.trans ⟨rfl, List.suffix_refl _, Nat.le_refl _, (by
    rintro ⟨a, b, c, d⟩
    refine ⟨?_, ?_, c, ?_⟩
    · simpa [State.modKs, hm] using a
    · simpa [State.modKs, he] using b
    · simpa [State.modKs, hf] using d), nofun, fun _ => rfl, fun _ => hm _⟩

@[simp] theorem Follows.modPc {mw : Bool} {p : Part} {s0 s : State} {f : Common → Common} (h : Follows mw p s0 s)
    (hf : ∀ c, (f c).stamp.txq = c.stamp.txq) : Follows mw p s0 (s.modPc p f) := by
  cases p
  · exact Follows.modBx (f := fun b => { b with c := f b.c }) h fun b => hf b.c
  · exact Follows.modKs (f := fun k => { k with c := f k.c }) h (fun _ => rfl) (fun _ => rfl) fun k => hf k.c

@[simp] theorem Follows.modTime {mw : Bool} {p : Part} {s0 s : State} {f : TimeUnit → TimeUnit} (h : Follows mw p s0 s) :
    Follows mw p s0 (s.modTime p f) := Follows.modPc h fun _ => rfl

@[simp] theorem Follows.modCtr {mw : Bool} {p : Part} {s0 s : State} {f : CtrUnit → CtrUnit} (h : Follows mw p s0 s) :
    Follows mw p s0 (s.modCtr p f) := Follows.modPc h fun _ => rfl

@[simp] theorem Follows.modFw {mw : Bool} {p : Part} {s0 s : State} {f : Firmware → Firmware} (h : Follows mw p s0 s) :
    Follows mw p s0 (s.modFw p f) := Follows.modPc h fun _ => rfl

@[simp] theorem Follows.modStamp {mw : Bool} {p : Part} {s0 s : State} {f : StampUnit → StampUnit} (h : Follows mw p s0 s)
    (hf : ∀ u, (f u).txq = u.txq) : Follows mw p s0 (s.modStamp p f) := Follows.modPc h fun c => hf c.stamp

/-- What was driven out meanwhile does not matter to the rest. -/
theorem Follows.sameOut {mw : Bool} {p : Part} {s t : State} (h : Follows mw p s t) : Follows mw p s { t with out := s.out } :=
  ⟨h.pending, List.suffix_refl _, h.free, h.inv, h.ks, h.bx, h.mem⟩

/-- A change of the event records that keeps their bound. -/
theorem Follows.modEvents {mw : Bool} {s0 s : State} {f : Kresia → Kresia} (h : Follows mw .kresia s0 s) (hm : (f s.ks).mem = s.ks.mem)
    (he : (f s.ks).events.length ≤ s.ks.events.length) (hf : (f s.ks).c.stamp.txq = s.ks.c.stamp.txq) :
    Follows mw .kresia s0 (s.modKs f) :=
  h.trans ⟨rfl, List.suffix_refl _, Nat.le_refl _, fun ⟨a, b, c, d⟩ => ⟨by simpa [State.modKs, hm] using a,
    Nat.le_trans he b, c, by simpa [State.modKs, hf] using d⟩, nofun, fun _ => rfl, fun _ => hm⟩

/-- A change of the transmit-timestamp queue that keeps its bound. -/
theorem Follows.modTxq {mw : Bool} {p : Part} {s0 s : State} {f : StampUnit → StampUnit} (h : Follows mw p s0 s)
    (hf : (s.pc p).stamp.txq.length ≤ 64 → (f (s.pc p).stamp).txq.length ≤ 64) : Follows mw p s0 (s.modStamp p f) := by
  cases p
  · exact h.trans ⟨rfl, List.suffix_refl _, Nat.le_refl _, fun ⟨a, b, c, d⟩ => ⟨a, b, hf c, d⟩, fun _ => rfl, nofun, fun _ => rfl⟩
  · exact h.trans ⟨rfl, List.suffix_refl _, Nat.le_refl _, fun ⟨a, b, c, d⟩ => ⟨a, b, c, hf d⟩, nofun, fun _ => rfl, fun _ => rfl⟩

@[simp] theorem Follows.ksWrite {s0 s : State} {a : Nat} {bs : List Byte} (h : Follows true .kresia s0 s) :
    Follows true .kresia s0 (s.ksWrite a bs) :=
  h.trans ⟨rfl, List.suffix_refl _, Nat.le_refl _, (by
    rintro ⟨a, b, c, d⟩
    exact ⟨Memory.wf_writeAll a _ _, b, c, d⟩), nofun, fun _ => rfl, nofun⟩

@[simp] theorem Follows.wr {mw : Bool} {p : Part} {s0 s : State} {a : Nat} {v : Word} (h : Follows mw p s0 s) : Follows mw p s0 (s.wr p a v) :=
  Follows.modPc h fun _ => rfl

@[simp] theorem Follows.setFld {mw : Bool} {p : Part} {s0 s : State} {a lo len v : Nat} (h : Follows mw p s0 s) :
    Follows mw p s0 (s.setFld p a lo len v) := by simp [State.setFld, h]

@[simp] theorem Follows.setBit {mw : Bool} {p : Part} {s0 s : State} {a i : Nat} {b : Bool} (h : Follows mw p s0 s) :
    Follows mw p s0 (s.setBit p a i b) := by simp [State.setBit, h]

@[simp] theorem Follows.wr64 {mw : Bool} {p : Part} {s0 s : State} {a : Nat} {v : BitVec 64} (h : Follows mw p s0 s) :
    Follows mw p s0 (s.wr64 p a v) := by simp [State.wr64, h]

@[simp] theorem Follows.wrOt {mw : Bool} {p : Part} {s0 s : State} {a : Nat} {v : OT} (h : Follows mw p s0 s) :
    Follows mw p s0 (s.wrOt p a v) := by simp (maxDischargeDepth := 50) [State.wrOt, h]

/-! ### Counting, interrupts, reports -/

@[simp] theorem evB_part (a : Nat) : (evB a).part = .baxel := rfl
@[simp] theorem evB_byDom (a : Nat) : (evB a).byDom = false := rfl
@[simp] theorem evT_part (t a : Nat) : (evT t a).part = .baxel := rfl
@[simp] theorem evT_byDom (t a : Nat) : (evT t a).byDom = false := rfl
@[simp] theorem evK_part (a : Nat) : (evK a).part = .kresia := rfl
@[simp] theorem evK_byDom (a : Nat) : (evK a).byDom = false := rfl
@[simp] theorem evD_part (d a : Nat) : (evD d a).part = .kresia := rfl
@[simp] theorem evD_byDom (d a : Nat) : (evD d a).byDom = true := rfl
@[simp] theorem evTime_part (p : Part) (a : Nat) : (evTime p a).part = p := rfl
@[simp] theorem evTime_byDom (p : Part) (a : Nat) : (evTime p a).byDom = false := rfl

@[simp] theorem Follows.setCtrWord {mw : Bool} {p : Part} {s0 s : State} {e : Ev} {v : Word} (h : Follows mw p s0 s)
    (hp : e.part = p ∧ (e.byDom = true → p = .kresia)) : Follows mw p s0 (s.setCtrWord e v) := by
  obtain ⟨rfl, hd⟩ := hp
  unfold State.setCtrWord
  split
  · rename_i hb
    rw [hd hb] at h
    rw [hd hb]
    exact Follows.modPc h fun _ => rfl
  · split
    · exact Follows.modPc h fun _ => rfl
    · exact Follows.wr h

@[simp] theorem Follows.tally {mw : Bool} {p : Part} {s0 s : State} {e : Ev} {n : Nat} (h : Follows mw p s0 s) (hp : e.part = p ∧ True) :
    Follows mw p s0 (s.tally e n) := by
  obtain ⟨rfl, -⟩ := hp
  exact Follows.modCtr h

@[simp] theorem Follows.count {mw : Bool} {p : Part} {s0 s : State} {e : Ev} {n : Nat} (h : Follows mw p s0 s)
    (hp : e.part = p ∧ (e.byDom = true → p = .kresia)) : Follows mw p s0 (s.count e n) := by
  unfold State.count
  refine Follows.tally (Follows.ite ?_ ?_) ⟨hp.1, trivial⟩
  · exact Follows.setCtrWord (Follows.setCtrWord h hp) hp
  · exact Follows.setCtrWord h hp

@[simp] theorem Follows.sample {mw : Bool} {p : Part} {s0 s : State} {ev : Nat} {d : Int} {port ten dom cls : Option Nat}
    (h : Follows mw p s0 s) : Follows mw p s0 (s.sample p ev d port ten dom cls) := Follows.modCtr h

@[simp] theorem Follows.irqPriv {mw : Bool} {p : Part} {s0 s : State} (h : Follows mw p s0 s) : Follows mw p s0 (s.irqPriv p) := by
  cases p <;> simp [State.irqPriv, h]

@[simp] theorem Follows.stickyTime {mw : Bool} {p : Part} {s0 s : State} {a i : Nat} (h : Follows mw p s0 s) :
    Follows mw p s0 (s.stickyTime p a i) := by
  simp (maxDischargeDepth := 100) [State.stickyTime, h]

/-- R312: an event record is queued within the 4,096, merged, or counted as dropped. -/
@[simp] theorem Follows.queueEvent {mw : Bool} {s0 s : State} {r : EventRec} (h : Follows mw .kresia s0 s) :
    Follows mw .kresia s0 (s.queueEvent r) := by
  unfold State.queueEvent
  split
  · rename_i hl
    refine Follows.emit _ (Follows.wr (h.trans ⟨rfl, List.suffix_refl _, Nat.le_refl _, ?_, nofun, fun _ => rfl, fun _ => rfl⟩))
    rintro ⟨a, b, c, d⟩
    refine ⟨a, ?_, c, d⟩
    simp only [State.modKs, List.length_append, List.length_singleton]
    omega
  · split
    · refine Follows.count (h.trans ⟨rfl, List.suffix_refl _, Nat.le_refl _, ?_, nofun, fun _ => rfl, fun _ => rfl⟩) ⟨rfl, fun _ => rfl⟩
      rintro ⟨a, b, c, d⟩
      exact ⟨a, by simpa [State.modKs] using b, c, d⟩
    · exact Follows.count (Follows.modKs h (fun _ => rfl) (fun _ => rfl) fun _ => rfl) ⟨rfl, fun _ => rfl⟩

@[simp] theorem Follows.report {mw : Bool} {p : Part} {s0 s : State} {code : Code} {detail : List Nat} {port : Nat}
    {subject domain : Option Nat} (h : Follows mw p s0 s) :
    Follows mw p s0 (s.report p code detail port subject domain) := by
  cases p
  · simp [State.report, h]
  · exact Follows.queueEvent h

@[simp] theorem Follows.viewRefused {mw : Bool} {p : Part} {s0 s : State} {v : View} {a : Nat} (h : Follows mw p s0 s) :
    Follows mw p s0 (s.viewRefused p v a) := by
  unfold State.viewRefused
  split <;> simp [h]

end Sys2Proof.Machine
end

