-- ==== Sys2Proof/Laws/FollowsTime.lean ====
section
/-! SUPPORT. Operations of the time and stamp units, the mailboxes and the tenants of a Baxel: what each leaves alone. -/

namespace Sys2Proof.Machine

set_option linter.unusedTactic false
set_option linter.unreachableTactic false
set_option linter.unusedSimpArgs false

@[simp] theorem Follows.mapDues {mw : Bool} {s0 : State} {s : State} {p : Part} {f : Machine.Due → Machine.Due} (h :
    Follows mw p s0 s) : Follows mw p s0 (State.mapDues s p f) := by
  unfold State.mapDues
  extract_lets s1
  have hs1 : Follows mw p s0 s1 := by
    simp only [s1]
    repeat' (first | (simp (maxDischargeDepth := 100) [h]; done) | refine Follows.foldl (fun _ _ => ?_) ?_ | split)
  repeat' (first | (simp (maxDischargeDepth := 100) [h, hs1]; done) | refine Follows.foldl (fun _ _ => ?_) ?_ | split)

@[simp] theorem Follows.modTdc {mw : Bool} {s0 : State} {s : State} {p : Part} {i : Nat} {f : Machine.Tdc → Machine.Tdc} (h
    : Follows mw p s0 s) : Follows mw p s0 (State.modTdc s p i f) := by
  simp (maxDischargeDepth := 100) [State.modTdc, h]

@[simp] theorem Follows.pairDead {mw : Bool} {s0 : State} {s : State} {p : Part} {a : Nat} (h : Follows mw p s0 s) :
    Follows mw p s0 (State.pairDead s p a) := by
  simp (maxDischargeDepth := 100) [State.pairDead, h]

@[simp] theorem Follows.calStart {mw : Bool} {s0 : State} {s : State} {p : Part} {i : Nat} (h : Follows mw p s0 s) :
    Follows mw p s0 (State.calStart s p i) := by
  simp (maxDischargeDepth := 100) [State.calStart, h]

@[simp] theorem Follows.calDue {mw : Bool} {s0 : State} {s : State} {p : Part} {i : Nat} (h : Follows mw p s0 s) : Follows
    mw p s0 (State.calDue s p i) := by
  simp (maxDischargeDepth := 100) [State.calDue, h]

@[simp] theorem Follows.calTrigger {mw : Bool} {s0 : State} {s : State} {p : Part} {i : Nat} (h : Follows mw p s0 s) :
    Follows mw p s0 (State.calTrigger s p i) := by
  simp (maxDischargeDepth := 100) [State.calTrigger, h]

@[simp] theorem Follows.calDrain {mw : Bool} {s0 : State} {s : State} {p : Part} (h : Follows mw p s0 s) : Follows mw p s0
    (State.calDrain s p) := by
  simp (maxDischargeDepth := 100) [State.calDrain, h]

@[simp] theorem Follows.calFail {mw : Bool} {s0 : State} {s : State} {p : Part} {i : Nat} {cause : Nat} (h : Follows mw p
    s0 s) : Follows mw p s0 (State.calFail s p i cause) := by
  unfold State.calFail
  extract_lets t n s1 a pairDead s2
  have hs1 : Follows mw p s0 s1 := by
    simp only [s1]
    repeat' (first | (simp (maxDischargeDepth := 100) [h]; done) | refine Follows.foldl (fun _ _ => ?_) ?_ | split)
  have hs2 : Follows mw p s0 s2 := by
    simp only [s2]
    repeat' (first | (simp (maxDischargeDepth := 100) [h, hs1]; done) | refine Follows.foldl (fun _ _ => ?_) ?_ | split)
  repeat' (first | (simp (maxDischargeDepth := 100) [h, hs1, hs2]; done) | refine Follows.foldl (fun _ _ => ?_) ?_ | split)

@[simp] theorem Follows.calEnd {mw : Bool} {s0 : State} {s : State} {p : Part} {i : Nat} {h0_ : List Nat} (h : Follows mw p
    s0 s) : Follows mw p s0 (State.calEnd s p i h0_) := by
  simp only [State.calEnd]
  repeat' (first | (simp (maxDischargeDepth := 100) [h]; done) | refine Follows.foldl (fun _ _ => ?_) ?_ | split)

@[simp] theorem Answers.execTdcCalStart {mw : Bool} {s0 : State} {p : Part} {tdc : Nat} {s : State} (h : Follows mw p s0 s)
    : Answers mw p s0 (Machine.execTdcCalStart p tdc s) := by
  simp (maxDischargeDepth := 100) [Machine.execTdcCalStart, h]

@[simp] theorem Answers.execCalIntervalExpiry {mw : Bool} {s0 : State} {p : Part} {tdc : Nat} {s : State} (h : Follows mw p
    s0 s) : Answers mw p s0 (Machine.execCalIntervalExpiry p tdc s) := by
  simp (maxDischargeDepth := 100) [Machine.execCalIntervalExpiry, h]

@[simp] theorem Answers.execTempSensorRead {mw : Bool} {s0 : State} {p : Part} {temp : Int} {s : State} (h : Follows mw p
    s0 s) : Answers mw p s0 (Machine.execTempSensorRead p temp s) := by
  unfold Machine.execTempSensorRead
  extract_lets s1 step dueTdcs
  have hs1 : Follows mw p s0 s1 := by
    simp only [s1]
    repeat' (first | (simp (maxDischargeDepth := 100) [h]; done) | refine Follows.foldl (fun _ _ => ?_) ?_ | split)
  repeat' (first | (simp (maxDischargeDepth := 100) [h, hs1]; done) | refine Follows.foldl (fun _ _ => ?_) ?_ | split)

@[simp] theorem Answers.execCalStartWrite {mw : Bool} {s0 : State} {p : Part} {s : State} (h : Follows mw p s0 s) : Answers
    mw p s0 (Machine.execCalStartWrite p s) := by
  simp (maxDischargeDepth := 100) [Machine.execCalStartWrite, h]

@[simp] theorem Answers.execTdcCalDone {mw : Bool} {s0 : State} {p : Part} {tdc : Nat} {hits : List Nat} {s : State} (h :
    Follows mw p s0 s) : Answers mw p s0 (Machine.execTdcCalDone p tdc hits s) := by
  simp (maxDischargeDepth := 100) [Machine.execTdcCalDone, h]

@[simp] theorem Answers.execTdcCalShort {mw : Bool} {s0 : State} {p : Part} {tdc : Nat} {s : State} (h : Follows mw p s0 s)
    : Answers mw p s0 (Machine.execTdcCalShort p tdc s) := by
  simp (maxDischargeDepth := 100) [Machine.execTdcCalShort, h]

@[simp] theorem Follows.commit {mw : Bool} {s0 : State} {s : State} {p : Part} {dest : optParam (Option TimeState) none} (h
    : Follows mw p s0 s) : Follows mw p s0 (State.commit s p dest) := by
  simp only [State.commit]
  repeat' (first | (simp (maxDischargeDepth := 100) [h]; done) | refine Follows.foldl (fun _ _ => ?_) ?_ | split)

@[simp] theorem Answers.execTsCommit {mw : Bool} {s0 : State} {p : Part} {s : State} (h : Follows mw p s0 s) : Answers mw p
    s0 (Machine.execTsCommit p s) := by
  simp (maxDischargeDepth := 100) [Machine.execTsCommit, h]

@[simp] theorem Follows.unlockReport {mw : Bool} {s0 : State} {s : State} {p : Part} {dest : Option TimeState} (h : Follows
    mw p s0 s) : Follows mw p s0 (State.unlockReport s p dest) := by
  simp (maxDischargeDepth := 100) [State.unlockReport, h]

@[simp] theorem Follows.applySet {mw : Bool} {s0 : State} {s : State} {p : Part} {c : Machine.Commit} (h : Follows mw p s0
    s) : Follows mw p s0 (State.applySet s p c) := by
  unfold State.applySet
  extract_lets t step n s1 s2 s3 s4 s5
  have hs1 : Follows mw p s0 s1 := by
    simp only [s1]
    repeat' (first | (simp (maxDischargeDepth := 100) [h]; done) | refine Follows.foldl (fun _ _ => ?_) ?_ | split)
  have hs2 : Follows mw p s0 s2 := by
    simp only [s2]
    repeat' (first | (simp (maxDischargeDepth := 100) [h, hs1]; done) | refine Follows.foldl (fun _ _ => ?_) ?_ | split)
  have hs3 : Follows mw p s0 s3 := by
    simp only [s3]
    repeat' (first | (simp (maxDischargeDepth := 100) [h, hs1, hs2]; done) | refine Follows.foldl (fun _ _ => ?_) ?_ | split)
  have hs4 : Follows mw p s0 s4 := by
    simp only [s4]
    repeat' (first | (simp (maxDischargeDepth := 100) [h, hs1, hs2, hs3]; done) | refine Follows.foldl (fun _ _ => ?_) ?_ | split)
  have hs5 : Follows mw p s0 s5 := by
    simp only [s5]
    repeat' (first | (simp (maxDischargeDepth := 100) [h, hs1, hs2, hs3, hs4]; done) | refine Follows.foldl (fun _ _ => ?_) ?_ | split)
  repeat' (first | (simp (maxDischargeDepth := 100) [h, hs1, hs2, hs3, hs4, hs5]; done) | refine Follows.foldl (fun _ _ => ?_) ?_ | split)

@[simp] theorem Answers.execApplyRawReached {mw : Bool} {s0 : State} {p : Part} {s : State} (h : Follows mw p s0 s) :
    Answers mw p s0 (Machine.execApplyRawReached p s) := by
  simp only [Machine.execApplyRawReached]
  repeat' (first | (simp (maxDischargeDepth := 100) [h]; done) | refine Follows.foldl (fun _ _ => ?_) ?_ | split)

@[simp] theorem Answers.execTsRebase {mw : Bool} {s0 : State} {p : Part} {s : State} (h : Follows mw p s0 s) : Answers mw p
    s0 (Machine.execTsRebase p s) := by
  simp (maxDischargeDepth := 100) [Machine.execTsRebase, h]

@[simp] theorem Follows.ftSnap {mw : Bool} {s0 : State} {s : State} {p : Part} {bank : Nat} (h : Follows mw p s0 s) :
    Follows mw p s0 (State.ftSnap s p bank) := by
  simp (maxDischargeDepth := 100) [State.ftSnap, h]

@[simp] theorem Answers.execFtRawLoRead {mw : Bool} {s0 : State} {p : Part} {v : View} {s : State} (h : Follows mw p s0 s)
    : Answers mw p s0 (Machine.execFtRawLoRead p v s) := by
  simp only [Machine.execFtRawLoRead]
  repeat' (first | (simp (maxDischargeDepth := 100) [h]; done) | refine Follows.foldl (fun _ _ => ?_) ?_ | split)

@[simp] theorem Follows.modPt {mw : Bool} {s0 : State} {s : State} {p : Part} {n : Nat} {f : Machine.PortTime →
    Machine.PortTime} (h : Follows mw p s0 s) : Follows mw p s0 (State.modPt s p n f) := by
  simp (maxDischargeDepth := 100) [State.modPt, h]

@[simp] theorem Follows.pushTxq {mw : Bool} {s0 : State} {s : State} {p : Part} {e : TxqEntry} (h : Follows mw p s0 s) :
    Follows mw p s0 (s.pushTxq p e) := by
  unfold State.pushTxq
  split
  · rename_i hl
    refine Follows.modTxq h fun _ => ?_
    simp only [List.length_append, List.length_singleton]
    omega
  · simp (maxDischargeDepth := 100) [h]

@[simp] theorem Answers.execTimeCellSend {mw : Bool} {s0 : State} {p : Part} {port : Nat} {tx : EdgeStamp} {s : State} (h :
    Follows mw p s0 s) : Answers mw p s0 (Machine.execTimeCellSend p port tx s) := by
  simp only [Machine.execTimeCellSend]
  repeat' (first | (simp (maxDischargeDepth := 100) [h]; done) | refine Follows.foldl (fun _ _ => ?_) ?_ | split)

@[simp] theorem Follows.cellRetried {mw : Bool} {s0 : State} {s : State} {p : Part} {port : Nat} {seq : Nat} (h : Follows
    mw p s0 s) : Follows mw p s0 (State.cellRetried s p port seq) := by
  simp (maxDischargeDepth := 100) [State.cellRetried, h]

@[simp] theorem Follows.takeExchange {mw : Bool} {s0 : State} {s : State} {p : Part} {port : Nat} {cell : TimeCell} {peer :
    PeerTime} (h : Follows mw p s0 s) : Follows mw p s0 (State.takeExchange s p port cell peer) := by
  simp only [State.takeExchange]
  repeat' (first | (simp (maxDischargeDepth := 100) [h]; done) | refine Follows.foldl (fun _ _ => ?_) ?_ | split)

@[simp] theorem Follows.followRoot {mw : Bool} {s0 : State} {s : State} {p : Part} {cell : TimeCell} (h : Follows mw p s0
    s) : Follows mw p s0 (State.followRoot s p cell) := by
  unfold State.followRoot
  extract_lets t changed s1 a s2
  have hs1 : Follows mw p s0 s1 := by
    simp only [s1]
    repeat' (first | (simp (maxDischargeDepth := 100) [h]; done) | refine Follows.foldl (fun _ _ => ?_) ?_ | split)
  have hs2 : Follows mw p s0 s2 := by
    simp only [s2]
    repeat' (first | (simp (maxDischargeDepth := 100) [h, hs1]; done) | refine Follows.foldl (fun _ _ => ?_) ?_ | split)
  repeat' (first | (simp (maxDischargeDepth := 100) [h, hs1, hs2]; done) | refine Follows.foldl (fun _ _ => ?_) ?_ | split)

@[simp] theorem Follows.noteCell {mw : Bool} {s0 : State} {s : State} {p : Part} {port : Nat} {cell : TimeCell} {stamp :
    Option Raw} (h : Follows mw p s0 s) : Follows mw p s0 (State.noteCell s p port cell stamp) := by
  simp (maxDischargeDepth := 100) [State.noteCell, h]

@[simp] theorem Answers.execTimeCellRx {mw : Bool} {s0 : State} {p : Part} {port : Nat} {cell : TimeCell} {rx : EdgeStamp}
    {peer : PeerTime} {s : State} (h : Follows mw p s0 s) : Answers mw p s0 (Machine.execTimeCellRx p port cell rx peer s) := by
  simp (maxDischargeDepth := 100) [Machine.execTimeCellRx, h]

@[simp] theorem Follows.takeBest {mw : Bool} {s0 : State} {s : State} {cs : List (Nat × TimeCell)} (h : Follows mw .kresia
    s0 s) : Follows mw .kresia s0 (State.takeBest s cs) := by
  simp only [State.takeBest]
  repeat' (first | (simp (maxDischargeDepth := 100) [h]; done) | refine Follows.foldl (fun _ _ => ?_) ?_ | split)

@[simp] theorem Follows.chooseParent {mw : Bool} {s0 : State} {s : State} (h : Follows mw .kresia s0 s) : Follows mw
    .kresia s0 (State.chooseParent s) := by
  simp (maxDischargeDepth := 100) [State.chooseParent, h]

@[simp] theorem Answers.execParentChoice {mw : Bool} {s0 : State} {s : State} (h : Follows mw .kresia s0 s) : Answers mw
    .kresia s0 (Machine.execParentChoice s) := by
  simp only [Machine.execParentChoice]
  repeat' (first | (simp (maxDischargeDepth := 100) [h]; done) | refine Follows.foldl (fun _ _ => ?_) ?_ | split)

@[simp] theorem Follows.servoCommit {mw : Bool} {s0 : State} {s : State} {p : Part} {offset : Raw → OT} {rate : Int} {dest
    : Option TimeState} (h : Follows mw p s0 s) : Follows mw p s0 (State.servoCommit s p offset rate dest) := by
  unfold State.servoCommit
  extract_lets apply s1
  have hs1 : Follows mw p s0 s1 := by
    simp only [s1]
    repeat' (first | (simp (maxDischargeDepth := 100) [h]; done) | refine Follows.foldl (fun _ _ => ?_) ?_ | split)
  repeat' (first | (simp (maxDischargeDepth := 100) [h, hs1]; done) | refine Follows.foldl (fun _ _ => ?_) ?_ | split)

@[simp] theorem Follows.servoTheta {mw : Bool} {s0 : State} {s : State} {p : Part} {theta : Int} {rates : Int × Int} {bend
    : optParam (OT → OT) id} (h : Follows mw p s0 s) : Follows mw p s0 (State.servoTheta s p theta rates bend) := by
  simp (maxDischargeDepth := 100) [State.servoTheta, h]

@[simp] theorem Follows.servoNone {mw : Bool} {s0 : State} {s : State} {p : Part} (h : Follows mw p s0 s) : Follows mw p s0
    (State.servoNone s p) := by
  unfold State.servoNone
  extract_lets t n s1
  have hs1 : Follows mw p s0 s1 := by
    simp only [s1]
    repeat' (first | (simp (maxDischargeDepth := 100) [h]; done) | refine Follows.foldl (fun _ _ => ?_) ?_ | split)
  repeat' (first | (simp (maxDischargeDepth := 100) [h, hs1]; done) | refine Follows.foldl (fun _ _ => ?_) ?_ | split)

@[simp] theorem Follows.closePort {mw : Bool} {s0 : State} {s : State} {p : Part} {n : Nat} {x : Machine.PortTime} (h :
    Follows mw p s0 s) : Follows mw p s0 (State.closePort s p n x) := by
  simp only [State.closePort]
  repeat' (first | (simp (maxDischargeDepth := 100) [h]; done) | refine Follows.foldl (fun _ _ => ?_) ?_ | split)

@[simp] theorem Follows.closePorts {mw : Bool} {s0 : State} {s : State} {p : Part} (h : Follows mw p s0 s) : Follows mw p
    s0 (State.closePorts s p) := by
  simp (maxDischargeDepth := 100) [State.closePorts, h]

@[simp] theorem Follows.rejectPort {mw : Bool} {s0 : State} {s : State} {n : Nat} {inP : Bool} {inA : Bool} (h : Follows mw
    .baxel s0 s) : Follows mw .baxel s0 (State.rejectPort s n inP inA) := by
  unfold State.rejectPort
  extract_lets x c a s1
  have hs1 : Follows mw .baxel s0 s1 := by
    simp only [s1]
    repeat' (first | (simp (maxDischargeDepth := 100) [h]; done) | refine Follows.foldl (fun _ _ => ?_) ?_ | split)
  repeat' (first | (simp (maxDischargeDepth := 100) [h, hs1]; done) | refine Follows.foldl (fun _ _ => ?_) ?_ | split)

@[simp] theorem Follows.combineBaxel {mw : Bool} {s0 : State} {s : State} (h : Follows mw .baxel s0 s) : Follows mw .baxel
    s0 (State.combineBaxel s).1 := by
  simp (maxDischargeDepth := 100) [State.combineBaxel, h]

@[simp] theorem Follows.switchParent {mw : Bool} {s0 : State} {s : State} (h : Follows mw .kresia s0 s) : Follows mw
    .kresia s0 (State.switchParent s) := by
  unfold State.switchParent
  extract_lets cs s1
  have hs1 : Follows mw .kresia s0 s1 := by
    simp only [s1]
    repeat' (first | (simp (maxDischargeDepth := 100) [h]; done) | refine Follows.foldl (fun _ _ => ?_) ?_ | split)
  repeat' (first | (simp (maxDischargeDepth := 100) [h, hs1]; done) | refine Follows.foldl (fun _ _ => ?_) ?_ | split)

@[simp] theorem Follows.reviewParent {mw : Bool} {s0 : State} {s : State} (h : Follows mw .kresia s0 s) : Follows mw
    .kresia s0 (State.reviewParent s) := by
  simp only [State.reviewParent]
  repeat' (first | (simp (maxDischargeDepth := 100) [h]; done) | refine Follows.foldl (fun _ _ => ?_) ?_ | split)

@[simp] theorem Follows.reviewRoot {mw : Bool} {s0 : State} {s : State} (h : Follows mw .kresia s0 s) : Follows mw .kresia
    s0 (State.reviewRoot s) := by
  simp only [State.reviewRoot]
  repeat' (first | (simp (maxDischargeDepth := 100) [h]; done) | refine Follows.foldl (fun _ _ => ?_) ?_ | split)

@[simp] theorem Follows.rejectK {mw : Bool} {s0 : State} {s : State} {reject : Nat} {n : Nat} {others : List Nat} (h :
    Follows mw .kresia s0 s) : Follows mw .kresia s0 (State.rejectK s reject n others) := by
  simp (maxDischargeDepth := 100) [State.rejectK, h]

@[simp] theorem Follows.thetaKresia {mw : Bool} {s0 : State} {s : State} (h : Follows mw .kresia s0 s) : Follows mw .kresia
    s0 (State.thetaKresia s).1 := by
  simp only [State.thetaKresia]
  repeat' (first | (simp (maxDischargeDepth := 100) [h]; done) | refine Follows.foldl (fun _ _ => ?_) ?_ | split)

@[simp] theorem Follows.modCrown {mw : Bool} {s0 : State} {s : State} {g : Machine.TimeCrown → Machine.TimeCrown} (h :
    Follows mw .kresia s0 s) : Follows mw .kresia s0 (State.modCrown s g) := by
  simp (maxDischargeDepth := 100) [State.modCrown, h]

@[simp] theorem Follows.modPtp {mw : Bool} {s0 : State} {s : State} {port : Nat} {g : Machine.PtpPort → Machine.PtpPort} (h
    : Follows mw .kresia s0 s) : Follows mw .kresia s0 (State.modPtp s port g) := by
  simp (maxDischargeDepth := 100) [State.modPtp, h]

@[simp] theorem Follows.setUtc {mw : Bool} {s0 : State} {s : State} {utc : BitVec 16} (h : Follows mw .kresia s0 s) :
    Follows mw .kresia s0 (State.setUtc s utc) := by
  simp (maxDischargeDepth := 100) [State.setUtc, h]

@[simp] theorem Follows.carryPath {mw : Bool} {s0 : State} {s : State} (h : Follows mw .kresia s0 s) : Follows mw .kresia
    s0 (State.carryPath s) := by
  simp only [State.carryPath]
  repeat' (first | (simp (maxDischargeDepth := 100) [h]; done) | refine Follows.foldl (fun _ _ => ?_) ?_ | split)

@[simp] theorem Follows.servoCrown {mw : Bool} {s0 s : State} {f : FreqReading} (h : Follows mw .kresia s0 s) : Follows mw
    .kresia s0 (s.servoCrown f) := by
  unfold State.servoCrown
  extract_lets t trace rate s1
  have h1 : Follows mw .kresia s0 s1 := by simp (maxDischargeDepth := 100) [s1, h]
  repeat' (first | (simp (maxDischargeDepth := 100) [h1]; done) | split)

@[simp] theorem Follows.takeRoot {mw : Bool} {s0 : State} {s : State} {prio : Nat} {epoch : Nat} (h : Follows mw .kresia s0
    s) : Follows mw .kresia s0 (State.takeRoot s prio epoch) := by
  unfold State.takeRoot
  extract_lets id t s1 s2
  have hs1 : Follows mw .kresia s0 s1 := by
    simp only [s1]
    repeat' (first | (simp (maxDischargeDepth := 100) [h]; done) | refine Follows.foldl (fun _ _ => ?_) ?_ | split)
  have hs2 : Follows mw .kresia s0 s2 := by
    simp only [s2]
    repeat' (first | (simp (maxDischargeDepth := 100) [h, hs1]; done) | refine Follows.foldl (fun _ _ => ?_) ?_ | split)
  repeat' (first | (simp (maxDischargeDepth := 100) [h, hs1, hs2]; done) | refine Follows.foldl (fun _ _ => ?_) ?_ | split)

@[simp] theorem Follows.takeOrder {mw : Bool} {s0 : State} {s : State} (h : Follows mw .kresia s0 s) : Follows mw .kresia
    s0 (State.takeOrder s) := by
  simp only [State.takeOrder]
  repeat' (first | (simp (maxDischargeDepth := 100) [h]; done) | refine Follows.foldl (fun _ _ => ?_) ?_ | split)

@[simp] theorem Follows.bloom {mw : Bool} {s0 : State} {s : State} (h : Follows mw .kresia s0 s) : Follows mw .kresia s0
    (State.bloom s) := by
  simp (maxDischargeDepth := 100) [State.bloom, h]

@[simp] theorem Answers.execServoInterval {mw : Bool} {s0 : State} {p : Part} {f : FreqReading} {s : State} (h : Follows mw
    p s0 s) : Answers mw p s0 (Machine.execServoInterval p f s) := by
  simp only [Machine.execServoInterval]
  repeat' (first | (simp (maxDischargeDepth := 100) [h]; done) | refine Follows.foldl (fun _ _ => ?_) ?_ | split)

@[simp] theorem Answers.execRootTakeover {mw : Bool} {s0 : State} {s : State} (h : Follows mw .kresia s0 s) : Answers mw
    .kresia s0 (Machine.execRootTakeover s) := by
  simp (maxDischargeDepth := 100) [Machine.execRootTakeover, h]

@[simp] theorem Answers.execTimeNoSource {mw : Bool} {s0 : State} {s : State} (h : Follows mw .kresia s0 s) : Answers mw
    .kresia s0 (Machine.execTimeNoSource s) := by
  simp (maxDischargeDepth := 100) [Machine.execTimeNoSource, h]

@[simp] theorem Follows.ptpDiscard {mw : Bool} {s0 : State} {s : State} (h : Follows mw .kresia s0 s) : Follows mw .kresia
    s0 (State.ptpDiscard s) := by
  simp (maxDischargeDepth := 100) [State.ptpDiscard, h]

@[simp] theorem Follows.ptpTake {mw : Bool} {s0 : State} {s : State} {port : Nat} {f : PtpFrame} {rx : Option OT} (h :
    Follows mw .kresia s0 s) : Follows mw .kresia s0 (State.ptpTake s port f rx) := by
  simp only [State.ptpTake]
  repeat' (first | (simp (maxDischargeDepth := 100) [h]; done) | refine Follows.foldl (fun _ _ => ?_) ?_ | split)

@[simp] theorem Answers.execPtpFrameRx {mw : Bool} {s0 : State} {port : Nat} {domainNumber : Nat} {f : PtpFrame} {rx :
    EdgeStamp} {s : State} (h : Follows mw .kresia s0 s) : Answers mw .kresia s0 (Machine.execPtpFrameRx port domainNumber f rx s) := by
  simp only [Machine.execPtpFrameRx]
  repeat' (first | (simp (maxDischargeDepth := 100) [h]; done) | refine Follows.foldl (fun _ _ => ?_) ?_ | split)

@[simp] theorem Answers.execPtpMessageTx {mw : Bool} {s0 : State} {port : Nat} {m : PtpTx} {ident : Nat} {tx : EdgeStamp}
    {s : State} (h : Follows mw .kresia s0 s) : Answers mw .kresia s0 (Machine.execPtpMessageTx port m ident tx s) := by
  simp only [Machine.execPtpMessageTx]
  repeat' (first | (simp (maxDischargeDepth := 100) [h]; done) | refine Follows.foldl (fun _ _ => ?_) ?_ | split)

@[simp] theorem Follows.ppsReading {mw : Bool} {s0 : State} {s : State} {raw : Raw} {tod : OT} (h : Follows mw .kresia s0
    s) : Follows mw .kresia s0 (State.ppsReading s raw tod) := by
  simp (maxDischargeDepth := 100) [State.ppsReading, h]

@[simp] theorem Answers.execPpsInEdge {mw : Bool} {s0 : State} {e : EdgeStamp} {s : State} (h : Follows mw .kresia s0 s) :
    Answers mw .kresia s0 (Machine.execPpsInEdge e s) := by
  simp (maxDischargeDepth := 100) [Machine.execPpsInEdge, h]

@[simp] theorem Answers.execTodRxMessage {mw : Bool} {s0 : State} {ot : OT} {utcOffset : BitVec 16} {s : State} (h :
    Follows mw .kresia s0 s) : Answers mw .kresia s0 (Machine.execTodRxMessage ot utcOffset s) := by
  simp only [Machine.execTodRxMessage]
  repeat' (first | (simp (maxDischargeDepth := 100) [h]; done) | refine Follows.foldl (fun _ _ => ?_) ?_ | split)

@[simp] theorem Follows.bxWriteLine {mw : Bool} {s0 : State} {s : State} {port : Nat} {a : Nat} {bs : List Byte} {tag :
    Nat} {use : Machine.MemUse} (h : Follows mw .baxel s0 s) : Follows mw .baxel s0 (State.bxWriteLine s port a bs tag use) := by
  simp (maxDischargeDepth := 100) [State.bxWriteLine, h]

@[simp] theorem Follows.nextWrite {mw : Bool} {s0 : State} {s : State} {port : Nat} (h : Follows mw .baxel s0 s) : Follows
    mw .baxel s0 (State.nextWrite s port) := by
  simp only [State.nextWrite]
  repeat' (first | (simp (maxDischargeDepth := 100) [h]; done) | refine Follows.foldl (fun _ _ => ?_) ?_ | split)

@[simp] theorem Follows.bxWrite {mw : Bool} {s0 : State} {s : State} {a : Nat} {bs : List Byte} {tag : Nat} {use :
    Machine.MemUse} {port : optParam (Option Nat) none} (h : Follows mw .baxel s0 s) : Follows mw .baxel s0 (State.bxWrite s a bs tag use port) := by
  simp (maxDischargeDepth := 100) [State.bxWrite, h]

@[simp] theorem Follows.bxRead {mw : Bool} {s0 : State} {s : State} {port : Nat} {a : Nat} {beats : Nat} {tag : Nat} {use :
    Machine.MemUse} (h : Follows mw .baxel s0 s) : Follows mw .baxel s0 (State.bxRead s port a beats tag use) := by
  simp (maxDischargeDepth := 100) [State.bxRead, h]

@[simp] theorem evCh_part (p : Part) (ch off lo len : Nat) : (evCh p ch off lo len).part = p := by cases p <;> rfl

@[simp] theorem evCh_byDom (p : Part) (ch off lo len : Nat) : (evCh p ch off lo len).byDom = false := by cases p <;> rfl

@[simp] theorem Follows.modChan {mw : Bool} {s0 : State} {s : State} {p : Part} {ch : Nat} {f : Machine.StampChannel →
    Machine.StampChannel} (h : Follows mw p s0 s) : Follows mw p s0 (State.modChan s p ch f) := by
  simp (maxDischargeDepth := 100) [State.modChan, h]

@[simp] theorem Follows.modGate {mw : Bool} {s0 : State} {s : State} {p : Part} {g : Nat} {f : Machine.StampGate →
    Machine.StampGate} (h : Follows mw p s0 s) : Follows mw p s0 (State.modGate s p g f) := by
  simp (maxDischargeDepth := 100) [State.modGate, h]

@[simp] theorem Follows.modFreq {mw : Bool} {s0 : State} {s : State} {p : Part} {g : Nat} {f : Machine.FreqEngine →
    Machine.FreqEngine} (h : Follows mw p s0 s) : Follows mw p s0 (State.modFreq s p g f) := by
  simp (maxDischargeDepth := 100) [State.modFreq, h]

@[simp] theorem Follows.pushRec {mw : Bool} {s0 : State} {s : State} {p : Part} {ch : Nat} {r : Machine.StampRec} (h :
    Follows mw p s0 s) : Follows mw p s0 (State.pushRec s p ch r) := by
  simp (maxDischargeDepth := 100) [State.pushRec, h]

@[simp] theorem Follows.takeEdge {mw : Bool} {s0 : State} {s : State} {p : Part} {ch : Nat} {e : Machine.HeldEdge} (h :
    Follows mw p s0 s) : Follows mw p s0 (State.takeEdge s p ch e) := by
  simp only [State.takeEdge]
  repeat' (first | (simp (maxDischargeDepth := 100) [h]; done) | refine Follows.foldl (fun _ _ => ?_) ?_ | split)

@[simp] theorem Follows.freqComplete {mw : Bool} {s0 : State} {s : State} {p : Part} {g : Nat} {stamps : List (Nat ×
    Machine.HeldEdge)} {trunc : Bool} {span : Bool} (h : Follows mw p s0 s) : Follows mw p s0 (State.freqComplete s p g stamps trunc span) := by
  simp only [State.freqComplete]
  repeat' (first | (simp (maxDischargeDepth := 100) [h]; done) | refine Follows.foldl (fun _ _ => ?_) ?_ | split)

@[simp] theorem Follows.freqSpan {mw : Bool} {s0 : State} {s : State} {p : Part} {g : Nat} (h : Follows mw p s0 s) :
    Follows mw p s0 (State.freqSpan s p g) := by
  simp (maxDischargeDepth := 100) [State.freqSpan, h]

@[simp] theorem Follows.gateRec {mw : Bool} {s0 : State} {s : State} {p : Part} {g : Nat} {h0_ : Machine.HeldEdge} (h :
    Follows mw p s0 s) : Follows mw p s0 (State.gateRec s p g h0_) := by
  simp (maxDischargeDepth := 100) [State.gateRec, h]

@[simp] theorem Follows.gateOpens {mw : Bool} {s0 : State} {s : State} {p : Part} {g : Nat} {h0_ : Machine.HeldEdge} (h :
    Follows mw p s0 s) : Follows mw p s0 (State.gateOpens s p g h0_) := by
  unfold State.gateOpens
  extract_lets s1 s2 ch s3
  have hs1 : Follows mw p s0 s1 := by
    simp only [s1]
    repeat' (first | (simp (maxDischargeDepth := 100) [h]; done) | refine Follows.foldl (fun _ _ => ?_) ?_ | split)
  have hs2 : Follows mw p s0 s2 := by
    simp only [s2]
    repeat' (first | (simp (maxDischargeDepth := 100) [h, hs1]; done) | refine Follows.foldl (fun _ _ => ?_) ?_ | split)
  have hs3 : Follows mw p s0 s3 := by
    simp only [s3]
    repeat' (first | (simp (maxDischargeDepth := 100) [h, hs1, hs2]; done) | refine Follows.foldl (fun _ _ => ?_) ?_ | split)
  repeat' (first | (simp (maxDischargeDepth := 100) [h, hs1, hs2, hs3]; done) | refine Follows.foldl (fun _ _ => ?_) ?_ | split)

@[simp] theorem Follows.gateCloses {mw : Bool} {s0 : State} {s : State} {p : Part} {g : Nat} {h0_ : Machine.HeldEdge} (h :
    Follows mw p s0 s) : Follows mw p s0 (State.gateCloses s p g h0_) := by
  simp (maxDischargeDepth := 100) [State.gateCloses, h]

@[simp] theorem Follows.gateMove {mw : Bool} {s0 : State} {s : State} {p : Part} {g : Nat} {toOpen : Bool} {h0_ :
    Machine.HeldEdge} (h : Follows mw p s0 s) : Follows mw p s0 (State.gateMove s p g toOpen h0_) := by
  simp (maxDischargeDepth := 100) [State.gateMove, h]

@[simp] theorem Answers.execStampEdge {mw : Bool} {s0 : State} {p : Part} {ch : Nat} {falling : Bool} {width : Nat} {e :
    EdgeStamp} {s : State} (h : Follows mw p s0 s) : Answers mw p s0 (Machine.execStampEdge p ch falling width e s) := by
  simp (maxDischargeDepth := 100) [Machine.execStampEdge, h]

@[simp] theorem Answers.execGateInputEdge {mw : Bool} {s0 : State} {p : Part} {g : Nat} {rising : Bool} {phase : Nat} {e :
    EdgeStamp} {s : State} (h : Follows mw p s0 s) : Answers mw p s0 (Machine.execGateInputEdge p g rising phase e s) := by
  simp only [Machine.execGateInputEdge]
  repeat' (first | (simp (maxDischargeDepth := 100) [h]; done) | refine Follows.foldl (fun _ _ => ?_) ?_ | split)

@[simp] theorem Answers.execGateWindowEdge {mw : Bool} {s0 : State} {p : Part} {g : Nat} {s : State} (h : Follows mw p s0
    s) : Answers mw p s0 (Machine.execGateWindowEdge p g s) := by
  simp only [Machine.execGateWindowEdge]
  repeat' (first | (simp (maxDischargeDepth := 100) [h]; done) | refine Follows.foldl (fun _ _ => ?_) ?_ | split)

@[simp] theorem Answers.execArmWin {mw : Bool} {s0 : State} {p : Part} {g : Nat} {s : State} (h : Follows mw p s0 s) :
    Answers mw p s0 (Machine.execArmWin p g s) := by
  simp only [Machine.execArmWin]
  repeat' (first | (simp (maxDischargeDepth := 100) [h]; done) | refine Follows.foldl (fun _ _ => ?_) ?_ | split)

@[simp] theorem Answers.execSwOpen {mw : Bool} {s0 : State} {p : Part} {g : Nat} {level : Bool} {s : State} (h : Follows mw
    p s0 s) : Answers mw p s0 (Machine.execSwOpen p g level s) := by
  unfold Machine.execSwOpen
  extract_lets s1
  have hs1 : Follows mw p s0 s1 := by
    simp only [s1]
    repeat' (first | (simp (maxDischargeDepth := 100) [h]; done) | refine Follows.foldl (fun _ _ => ?_) ?_ | split)
  repeat' (first | (simp (maxDischargeDepth := 100) [h, hs1]; done) | refine Follows.foldl (fun _ _ => ?_) ?_ | split)

@[simp] theorem Answers.execStampChannelCfgWrite {mw : Bool} {s0 : State} {p : Part} {ch : Nat} {w : Word} {s : State} (h :
    Follows mw p s0 s) : Answers mw p s0 (Machine.execStampChannelCfgWrite p ch w s) := by
  simp (maxDischargeDepth := 100) [Machine.execStampChannelCfgWrite, h]

@[simp] theorem Answers.execStampPop {mw : Bool} {s0 : State} {p : Part} {v : View} {ch : Nat} {n : Nat} {s : State} (h :
    Follows mw p s0 s) : Answers mw p s0 (Machine.execStampPop p v ch n s) := by
  simp (maxDischargeDepth := 100) [Machine.execStampPop, h]

@[simp] theorem Answers.execRingRecordWritten {s0 : State} {p : Part} {ch : Nat} {s : State} (h : Follows true p s0 s) :
    Answers true p s0 (Machine.execRingRecordWritten p ch s) := by
  simp only [Machine.execRingRecordWritten]
  repeat' (first | (simp (maxDischargeDepth := 100) [h]; done) | refine Follows.foldl (fun _ _ => ?_) ?_ | split)

@[simp] theorem Answers.execFreqArm {mw : Bool} {s0 : State} {p : Part} {g : Nat} {s : State} (h : Follows mw p s0 s) :
    Answers mw p s0 (Machine.execFreqArm p g s) := by
  simp (maxDischargeDepth := 100) [Machine.execFreqArm, h]

@[simp] theorem Answers.execFreqMaxnReached {mw : Bool} {s0 : State} {p : Part} {g : Nat} {s : State} (h : Follows mw p s0
    s) : Answers mw p s0 (Machine.execFreqMaxnReached p g s) := by
  simp (maxDischargeDepth := 100) [Machine.execFreqMaxnReached, h]

@[simp] theorem Answers.execFreqRetire {mw : Bool} {s0 : State} {p : Part} {g : Nat} {seq : Word} {s : State} (h : Follows
    mw p s0 s) : Answers mw p s0 (Machine.execFreqRetire p g seq s) := by
  simp (maxDischargeDepth := 100) [Machine.execFreqRetire, h]

@[simp] theorem Answers.execTxqPop {mw : Bool} {s0 : State} {s : State} {p : Part} {n : Nat} (h : Follows mw p s0 s) :
    Answers mw p s0 (execTxqPop p n s) := by
  refine Answers.next.2 (Follows.modTxq h fun hl => ?_)
  simp only [List.length_drop]
  omega

@[simp] theorem Follows.modMbox {mw : Bool} {s0 : State} {s : State} {p : Part} {m : Nat} {f : Machine.Mailbox →
    Machine.Mailbox} (h : Follows mw p s0 s) : Follows mw p s0 (State.modMbox s p m f) := by
  simp (maxDischargeDepth := 100) [State.modMbox, h]

@[simp] theorem Follows.modMslot {mw : Bool} {s0 : State} {s : State} {p : Part} {m : Nat} {k : Nat} {f : Machine.MSlot →
    Machine.MSlot} (h : Follows mw p s0 s) : Follows mw p s0 (State.modMslot s p m k f) := by
  simp (maxDischargeDepth := 100) [State.modMslot, h]

@[simp] theorem Follows.mboxIrq {mw : Bool} {s0 : State} {s : State} {p : Part} {m : Nat} (h : Follows mw p s0 s) : Follows
    mw p s0 (State.mboxIrq s p m) := by
  simp only [State.mboxIrq]
  repeat' (first | (simp (maxDischargeDepth := 100) [h]; done) | refine Follows.foldl (fun _ _ => ?_) ?_ | split)

@[simp] theorem Follows.faultCode {mw : Bool} {s0 s : State} {op : Nat} {c : Code} (h : Follows mw .kresia s0 s) :
    Follows mw .kresia s0 (s.faultCode op c) := Follows.ite (Follows.setFld h) h

@[simp] theorem Follows.complete {mw : Bool} {s0 : State} {s : State} {p : Part} {m : Nat} {k : Nat} {status : Code}
    {result : optParam (List Byte) []} {inline : optParam (List Byte) []} (h : Follows mw p s0 s) : Follows mw p s0 (State.complete s p m k status result inline) := by
  simp only [State.complete]
  split
  · exact h
  · refine Follows.foldl (fun _ _ => by simp) ?_
    cases p
    · exact Follows.mboxIrq (Follows.modMslot h)
    · exact Follows.faultCode (Follows.mboxIrq (Follows.modMslot h))

@[simp] theorem Follows.serve {mw : Bool} {s0 : State} {s : State} {p : Part} {m k op : Nat} {f : State → Taken → State} (h
    : Follows mw p s0 s) (hf : ∀ s t, Follows mw p s (f s t)) : Follows mw p s0 (s.serve p m k op f) := by
  unfold State.serve
  repeat' (first | exact h | exact Follows.trans (Follows.modMslot h) (hf _ _) | split)

@[simp] theorem Follows.intake {mw : Bool} {s0 : State} {s : State} {p : Part} {m : Nat} {k : Nat} (h : Follows mw p s0 s)
    : Follows mw p s0 (State.intake s p m k) := by
  simp only [State.intake]
  repeat' (first | (simp (maxDischargeDepth := 100) [h]; done) | refine Follows.foldl (fun _ _ => ?_) ?_ | split)

@[simp] theorem Follows.ring {mw : Bool} {s0 : State} {s : State} {p : Part} {m : Nat} {k : Nat} {bytes : List Byte}
    {inline : List Byte} {ports : List Nat} (h : Follows mw p s0 s) : Follows mw p s0 (State.ring s p m k bytes inline ports) := by
  unfold State.ring
  extract_lets w t s1
  have hs1 : Follows mw p s0 s1 := by
    simp only [s1]
    repeat' (first | (simp (maxDischargeDepth := 100) [h]; done) | refine Follows.foldl (fun _ _ => ?_) ?_ | split)
  repeat' (first | (simp (maxDischargeDepth := 100) [h, hs1]; done) | refine Follows.foldl (fun _ _ => ?_) ?_ | split)

@[simp] theorem Follows.wrongPart {mw : Bool} {s0 : State} {s : State} {p : Part} {m : Nat} {k : Nat} {node : Option Nat}
    (h : Follows mw p s0 s) : Follows mw p s0 (State.wrongPart s p m k node) := by
  simp (maxDischargeDepth := 100) [State.wrongPart, h]

@[simp] theorem Follows.stageWrite {mw : Bool} {s0 : State} {s : State} {id : Nat} {off : Nat} {bs : List Byte} (h :
    Follows mw .kresia s0 s) : Follows mw .kresia s0 (State.stageWrite s id off bs) := by
  simp (maxDischargeDepth := 100) [State.stageWrite, h]

@[simp] theorem Follows.toStage {mw : Bool} {s0 : State} {s : State} {m : Nat} {id : Nat} {bs : List Byte} (h : Follows mw
    .kresia s0 s) : Follows mw .kresia s0 (State.toStage s m id bs).1 := by
  simp only [State.toStage]
  repeat' (first | (simp (maxDischargeDepth := 100) [h]; done) | refine Follows.foldl (fun _ _ => ?_) ?_ | split)

theorem Follows.serve_skip {mw : Bool} {s0 s : State} {p : Part} {m k op : Nat} {f : State → Taken → State} (h : Follows mw p s0 s) (ht : takesOp p op = false) : Follows mw p s0 (s.serve p m k op f) := by
  unfold State.serve
  split
  · split
    · rename_i hc
      simp only [Bool.and_eq_true, decide_eq_true_eq, State.startsNow] at hc
      rw [hc.1, ht] at hc
      simp at hc
    · exact h
  · exact h

@[simp] theorem Follows.driveSteer {mw : Bool} {q : Part} {s0 : State} {s : State} (h : Follows mw q s0 s) : Follows mw q
    s0 (State.driveSteer s) := by
  simp (maxDischargeDepth := 100) [State.driveSteer, h]

@[simp] theorem Follows.modTen {mw : Bool} {s0 : State} {s : State} {t : Nat} {f : Machine.Tenant → Machine.Tenant} (h :
    Follows mw .baxel s0 s) : Follows mw .baxel s0 (State.modTen s t f) := by
  simp (maxDischargeDepth := 100) [State.modTen, h]

@[simp] theorem Follows.modSlot {mw : Bool} {s0 : State} {s : State} {t : Nat} {i : Nat} {f : Machine.Slot → Machine.Slot}
    (h : Follows mw .baxel s0 s) : Follows mw .baxel s0 (State.modSlot s t i f) := by
  simp (maxDischargeDepth := 100) [State.modSlot, h]

@[simp] theorem Follows.sendCtl {mw : Bool} {q : Part} {s0 : State} {s : State} {m : Ctl} (h : Follows mw q s0 s) : Follows
    mw q s0 (State.sendCtl s m) := by
  simp (maxDischargeDepth := 100) [State.sendCtl, h]

@[simp] theorem Follows.modObj {mw : Bool} {s0 : State} {s : State} {p : Part} {o : Nat} {f : Machine.Obj → Machine.Obj} (h
    : Follows mw p s0 s) : Follows mw p s0 (State.modObj s p o f) := by
  simp only [State.modObj]
  repeat' (first | (simp (maxDischargeDepth := 100) [h]; done) | refine Follows.foldl (fun _ _ => ?_) ?_ | split)

@[simp] theorem Follows.dropGate {mw : Bool} {s0 : State} {s : State} {t : Nat} {i : Nat} (h : Follows mw .baxel s0 s) :
    Follows mw .baxel s0 (State.dropGate s t i) := by
  simp (maxDischargeDepth := 100) [State.dropGate, h]

@[simp] theorem Follows.withdrawLp {mw : Bool} {q : Part} {s0 : State} {s : State} {t : Nat} {i : Nat} {e : Machine.Slot}
    (h : Follows mw q s0 s) : Follows mw q s0 (State.withdrawLp s t i e) := by
  simp (maxDischargeDepth := 100) [State.withdrawLp, h]

@[simp] theorem Follows.slotVoid {mw : Bool} {s0 : State} {s : State} {t : Nat} {i : Nat} (h : Follows mw .baxel s0 s) :
    Follows mw .baxel s0 (State.slotVoid s t i) := by
  simp (maxDischargeDepth := 100) [State.slotVoid, h]

@[simp] theorem Follows.gateMiss {mw : Bool} {s0 : State} {s : State} {t : Nat} {i : Nat} (h : Follows mw .baxel s0 s) :
    Follows mw .baxel s0 (State.gateMiss s t i) := by
  unfold State.gateMiss
  extract_lets e s1
  have hs1 : Follows mw .baxel s0 s1 := by
    simp only [s1]
    repeat' (first | (simp (maxDischargeDepth := 100) [h]; done) | refine Follows.foldl (fun _ _ => ?_) ?_ | split)
  repeat' (first | (simp (maxDischargeDepth := 100) [h, hs1]; done) | refine Follows.foldl (fun _ _ => ?_) ?_ | split)

@[simp] theorem Follows.pushTcq {mw : Bool} {s0 : State} {s : State} {t : Nat} {e : Machine.TcqEntry} (h : Follows mw
    .baxel s0 s) : Follows mw .baxel s0 (State.pushTcq s t e) := by
  simp (maxDischargeDepth := 100) [State.pushTcq, h]

@[simp] theorem Follows.endWaiter {mw : Bool} {s0 : State} {s : State} {p : Part} {o : Nat} {w : Machine.Waiter} {code :
    Code} (h : Follows mw p s0 s) : Follows mw p s0 (State.endWaiter s p o w code) := by
  simp only [State.endWaiter]
  repeat' (first | (simp (maxDischargeDepth := 100) [h]; done) | refine Follows.foldl (fun _ _ => ?_) ?_ | split)

@[simp] theorem Follows.endTenantWaiters {mw : Bool} {s0 : State} {s : State} {t : Nat} {code : Code} (h : Follows mw
    .baxel s0 s) : Follows mw .baxel s0 (State.endTenantWaiters s t code) := by
  simp only [State.endTenantWaiters]
  repeat' (first | (simp (maxDischargeDepth := 100) [h]; done) | refine Follows.foldl (fun _ _ => ?_) ?_ | split)

@[simp] theorem Follows.faultSlot {mw : Bool} {s0 : State} {s : State} {t : Nat} {i : Nat} (h : Follows mw .baxel s0 s) :
    Follows mw .baxel s0 (State.faultSlot s t i) := by
  simp only [State.faultSlot]
  repeat' (first | (simp (maxDischargeDepth := 100) [h]; done) | refine Follows.foldl (fun _ _ => ?_) ?_ | split)

@[simp] theorem Follows.tenantFault {mw : Bool} {s0 : State} {s : State} {t : Nat} {cause : Code} (h : Follows mw .baxel s0
    s) : Follows mw .baxel s0 (State.tenantFault s t cause) := by
  simp only [State.tenantFault]
  repeat' (first | (simp (maxDischargeDepth := 100) [h]; done) | refine Follows.foldl (fun _ _ => ?_) ?_ | split)

@[simp] theorem Follows.viewCode {mw : Bool} {s0 : State} {s : State} {t : Nat} {code : Code} (h : Follows mw .baxel s0 s)
    : Follows mw .baxel s0 (State.viewCode s t code) := by
  simp (maxDischargeDepth := 100) [State.viewCode, h]

end Sys2Proof.Machine
end

