-- ==== Sys2Proof/Laws/FollowsBaxel.lean ====
section
/-! SUPPORT. Operations of the launch, object and link units of a Baxel and of the shared domain, chunk and shard state: what each leaves alone. -/

namespace Sys2Proof.Machine

set_option linter.unusedTactic false
set_option linter.unreachableTactic false
set_option linter.unusedSimpArgs false

@[simp] theorem reqPart_port (t tag n obj : Nat) : reqPart (.port t tag n obj) = .baxel := rfl

@[simp] theorem reqPart_view (t : Nat) (priv : Bool) (obj tag : Nat) : reqPart (.view t priv obj tag) = .baxel := rfl

@[simp] theorem reqPart_entry (d i n obj : Nat) : reqPart (.entry d i n obj) = .kresia := rfl

@[simp] theorem reqPart_engine (d i n obj : Nat) : reqPart (.engine d i n obj) = .kresia := rfl

@[simp] theorem Follows.serveFor {mw : Bool} {s0 : State} {s : State} {p : Part} {o : Nat} {k : Nat} (h : Follows mw p s0
    s) : Follows mw p s0 (State.serveFor s p o k) := by
  simp only [State.serveFor]
  repeat' (first | (simp (maxDischargeDepth := 100) [h]; done) | refine Follows.foldl (fun _ _ => ?_) ?_ | split)

@[simp] theorem Follows.serveObj {mw : Bool} {s0 : State} {s : State} {p : Part} {o : Nat} (h : Follows mw p s0 s) :
    Follows mw p s0 (State.serveObj s p o) := by
  simp (maxDischargeDepth := 100) [State.serveObj, h]

@[simp] theorem Follows.objCycles {mw : Bool} {s0 : State} {s : State} {p : Part} (h : Follows mw p s0 s) : Follows mw p s0
    (State.objCycles s p).2 := by
  simp only [State.objCycles]
  repeat' (first | (simp (maxDischargeDepth := 100) [h]; done) | refine Follows.foldl (fun _ _ => ?_) ?_ | split)

@[simp] theorem Follows.tickObjs {mw : Bool} {s0 : State} {s : State} {p : Part} (h : Follows mw p s0 s) : Follows mw p s0
    (State.tickObjs s p) := by
  simp (maxDischargeDepth := 100) [State.tickObjs, h]

@[simp] theorem Follows.endAll {mw : Bool} {s0 : State} {s : State} {p : Part} {o : Nat} {code : Code} (h : Follows mw p s0
    s) : Follows mw p s0 (State.endAll s p o code) := by
  simp (maxDischargeDepth := 100) [State.endAll, h]

@[simp] theorem Follows.poisonObj {mw : Bool} {s0 : State} {s : State} {p : Part} {o : Nat} {code : Code} (h : Follows mw p
    s0 s) : Follows mw p s0 (State.poisonObj s p o code) := by
  unfold State.poisonObj
  extract_lets s1
  have hs1 : Follows mw p s0 s1 := by
    simp only [s1]
    repeat' (first | (simp (maxDischargeDepth := 100) [h]; done) | refine Follows.foldl (fun _ _ => ?_) ?_ | split)
  repeat' (first | (simp (maxDischargeDepth := 100) [h, hs1]; done) | refine Follows.foldl (fun _ _ => ?_) ?_ | split)

@[simp] theorem Follows.applyOt {mw : Bool} {s0 : State} {s : State} {p : Part} (h : Follows mw p s0 s) : Follows mw p s0
    (State.applyOt s p).2 := by
  simp only [State.applyOt]
  repeat' (first | (simp (maxDischargeDepth := 100) [h]; done) | refine Follows.foldl (fun _ _ => ?_) ?_ | split)

@[simp] theorem Follows.recordApply {mw : Bool} {s0 : State} {s : State} {p : Part} {o : Nat} {a : Machine.Applier} (h :
    Follows mw p s0 s) : Follows mw p s0 (State.recordApply s p o a) := by
  simp (maxDischargeDepth := 100) [State.recordApply, h]

@[simp] theorem Follows.signalObj {mw : Bool} {s0 : State} {s : State} {p : Part} {o : Nat} {n : Nat} {a : Machine.Applier}
    (h : Follows mw p s0 s) : Follows mw p s0 (State.signalObj s p o n a).1 := by
  simp only [State.signalObj]
  repeat' (first | (simp (maxDischargeDepth := 100) [h]; done) | refine Follows.foldl (fun _ _ => ?_) ?_ | split)

@[simp] theorem Follows.decObj {mw : Bool} {s0 : State} {s : State} {p : Part} {o : Nat} {n : Nat} (h : Follows mw p s0 s)
    : Follows mw p s0 (State.decObj s p o n).1 := by
  simp (maxDischargeDepth := 100) [State.decObj, h]

@[simp] theorem Follows.setObj {mw : Bool} {s0 : State} {s : State} {p : Part} {o : Nat} {v : Nat} {a : Machine.Applier} (h
    : Follows mw p s0 s) : Follows mw p s0 (State.setObj s p o v a) := by
  simp (maxDischargeDepth := 100) [State.setObj, h]

@[simp] theorem Follows.bumpOpSeq {mw : Bool} {q : Part} {s0 : State} {s : State} {r : ObjReq} (h : Follows mw q s0 s) (hq
    : reqPart r = q ∧ True) : Follows mw q s0 (State.bumpOpSeq s r) := by
  obtain ⟨rfl, -⟩ := hq
  cases r <;> simp only [reqPart] at h ⊢ <;> simp (maxDischargeDepth := 100) [State.bumpOpSeq, reqPart, h]

@[simp] theorem Follows.answer {mw : Bool} {q : Part} {s0 : State} {s : State} {r : ObjReq} {code : Code} {value : Nat}
    {pending : optParam Bool false} (h : Follows mw q s0 s) (hq : reqPart r = q ∧ True) : Follows mw q s0 (State.answer s r code value pending) := by
  obtain ⟨rfl, -⟩ := hq
  cases r <;> simp only [reqPart] at h ⊢ <;> simp (maxDischargeDepth := 100) [State.answer, reqPart, h]

@[simp] theorem Follows.turnAway {mw : Bool} {q : Part} {s0 : State} {s : State} {r : ObjReq} {code : Code} (h : Follows mw
    q s0 s) (hq : reqPart r = q ∧ True) : Follows mw q s0 (State.turnAway s r code) := by
  obtain ⟨rfl, -⟩ := hq
  cases r <;> simp only [reqPart] at h ⊢ <;> simp (maxDischargeDepth := 100) [State.turnAway, reqPart, h]

@[simp] theorem Follows.refuse {mw : Bool} {q : Part} {s0 : State} {s : State} {r : ObjReq} {code : Code} (h : Follows mw q
    s0 s) (hq : reqPart r = q ∧ True) : Follows mw q s0 (State.refuse s r code) := by
  obtain ⟨rfl, -⟩ := hq
  cases r <;> simp only [reqPart] at h ⊢ <;> simp (maxDischargeDepth := 100) [State.refuse, reqPart, h]

@[simp] theorem Follows.objOp {mw : Bool} {q : Part} {s0 s : State} {r : ObjReq} {a b c : Bool} {f : State → Nat → State}
    (h : Follows mw q s0 s) (hq : reqPart r = q ∧ True) (hf : ∀ s o, Follows mw q s (f s o)) : Follows mw q s0 (s.objOp r a b c f) := by
  unfold State.objOp
  dsimp only
  repeat' (first | exact h | exact Follows.refuse (Follows.bumpOpSeq h hq) hq | exact Follows.trans (Follows.bumpOpSeq h hq) (hf _ _) | exact Follows.bumpOpSeq h hq | split)

@[simp] theorem Answers.execObjPeek {mw : Bool} {q : Part} {s0 : State} {r : ObjReq} {s : State} (h : Follows mw q s0 s)
    (hq : reqPart r = q ∧ True) : Answers mw q s0 (Machine.execObjPeek r s) := by
  unfold Machine.execObjPeek
  repeat' (first | contradiction | (simp (maxDischargeDepth := 100) [*]; done) | refine Follows.foldl (fun _ _ => ?_) ?_ | split)

@[simp] theorem Answers.execObjSignal {mw : Bool} {q : Part} {s0 : State} {r : ObjReq} {s : State} (h : Follows mw q s0 s)
    (hq : reqPart r = q ∧ True) : Answers mw q s0 (Machine.execObjSignal r s) := by
  unfold Machine.execObjSignal
  repeat' (first | contradiction | (simp (maxDischargeDepth := 100) [*]; done) | refine Follows.foldl (fun _ _ => ?_) ?_ | split)

@[simp] theorem Answers.execObjDec {mw : Bool} {q : Part} {s0 : State} {r : ObjReq} {s : State} (h : Follows mw q s0 s) (hq
    : reqPart r = q ∧ True) : Answers mw q s0 (Machine.execObjDec r s) := by
  unfold Machine.execObjDec
  repeat' (first | contradiction | (simp (maxDischargeDepth := 100) [*]; done) | refine Follows.foldl (fun _ _ => ?_) ?_ | split)

@[simp] theorem Answers.execObjSet {mw : Bool} {q : Part} {s0 : State} {r : ObjReq} {s : State} (h : Follows mw q s0 s) (hq
    : reqPart r = q ∧ True) : Answers mw q s0 (Machine.execObjSet r s) := by
  unfold Machine.execObjSet
  repeat' (first | contradiction | (simp (maxDischargeDepth := 100) [*]; done) | refine Follows.foldl (fun _ _ => ?_) ?_ | split)

@[simp] theorem Follows.joinWait {mw : Bool} {s0 : State} {s : State} {p : Part} {o : Nat} {w : Machine.Waiter} (h :
    Follows mw p s0 s) : Follows mw p s0 (State.joinWait s p o w) := by
  simp (maxDischargeDepth := 100) [State.joinWait, h]

@[simp] theorem Follows.holdTake {mw : Bool} {q : Part} {s0 : State} {s : State} {r : ObjReq} (h : Follows mw q s0 s) (hq :
    reqPart r = q ∧ True) : Follows mw q s0 (State.holdTake s r) := by
  obtain ⟨rfl, -⟩ := hq
  cases r <;> simp only [reqPart] at h ⊢ <;> simp (maxDischargeDepth := 100) [State.holdTake, reqPart, h]

@[simp] theorem Follows.takeWait {mw : Bool} {q : Part} {s0 : State} {s : State} {r : ObjReq} {o : Nat} (h : Follows mw q
    s0 s) (hq : reqPart r = q ∧ True) : Follows mw q s0 (State.takeWait s r o) := by
  obtain ⟨rfl, -⟩ := hq
  cases r <;> simp only [reqPart] at h ⊢ <;> simp (maxDischargeDepth := 100) [State.takeWait, reqPart, h]

@[simp] theorem Follows.takeObj {mw : Bool} {q : Part} {s0 : State} {s : State} {r : ObjReq} (h : Follows mw q s0 s) (hq :
    reqPart r = q ∧ True) : Follows mw q s0 (State.takeObj s r) := by
  obtain ⟨rfl, -⟩ := hq
  cases r <;> simp only [reqPart] at h ⊢ <;> simp (maxDischargeDepth := 100) [State.takeObj, reqPart, h]

@[simp] theorem Follows.countStall {mw : Bool} {q : Part} {s0 : State} {s : State} {r : ObjReq} (h : Follows mw q s0 s) (hq
    : reqPart r = q ∧ True) : Follows mw q s0 (State.countStall s r) := by
  obtain ⟨rfl, -⟩ := hq
  cases r <;> simp only [reqPart] at h ⊢ <;> simp (maxDischargeDepth := 100) [State.countStall, reqPart, h]

@[simp] theorem Answers.execObjTake {mw : Bool} {q : Part} {s0 : State} {r : ObjReq} {s : State} (h : Follows mw q s0 s)
    (hq : reqPart r = q ∧ True) : Answers mw q s0 (Machine.execObjTake r s) := by
  unfold Machine.execObjTake
  repeat' (first | contradiction | (simp (maxDischargeDepth := 100) [*]; done) | refine Follows.foldl (fun _ _ => ?_) ?_ | split)

@[simp] theorem Follows.tickHeld {mw : Bool} {s0 s : State} {p : Part} (h : Follows mw p s0 s) : Follows mw p s0
    (s.tickHeld p) := by
  cases p
  · unfold State.tickHeld
    refine Follows.foldl (fun t r => ?_) (by simp [h])
    by_cases hr : reqPart r = .baxel
    · simp only [ne_eq, hr, not_true, if_false]
      split <;> simp (maxDischargeDepth := 100) [hr, State.holdTake]
    · simp [hr]
  · unfold State.tickHeld
    refine Follows.foldl (fun t r => ?_) (by simp [h])
    by_cases hr : reqPart r = .kresia <;> simp (maxDischargeDepth := 100) [hr]

@[simp] theorem Follows.serveObjs {mw : Bool} {s0 : State} {s : State} {os : List Nat} (h : Follows mw .kresia s0 s) :
    Follows mw .kresia s0 (State.serveObjs s os) := by
  simp (maxDischargeDepth := 100) [State.serveObjs, h]

@[simp] theorem Follows.withdraw {mw : Bool} {s0 : State} {s : State} {p : Part} {o : Nat} {w : Machine.Waiter} {code :
    Code} (h : Follows mw p s0 s) : Follows mw p s0 (State.withdraw s p o w code) := by
  simp (maxDischargeDepth := 100) [State.withdraw, h]

@[simp] theorem Follows.cancelTag {mw : Bool} {q : Part} {s0 : State} {s : State} {r : ObjReq} {owner : Nat} {src :
    WaiterSource} {tag : Nat} {o : Nat} (h : Follows mw q s0 s) (hq : reqPart r = q ∧ True) : Follows mw q s0 (State.cancelTag s r owner src tag o) := by
  unfold State.cancelTag
  repeat' (first | contradiction | (simp (maxDischargeDepth := 100) [*]; done) | refine Follows.foldl (fun _ _ => ?_) ?_ | split)

@[simp] theorem Answers.execObjCancel {mw : Bool} {q : Part} {s0 : State} {r : ObjReq} {s : State} (h : Follows mw q s0 s)
    (hq : reqPart r = q ∧ True) : Answers mw q s0 (Machine.execObjCancel r s) := by
  unfold Machine.execObjCancel
  repeat' (first | contradiction | (simp (maxDischargeDepth := 100) [*]; done) | refine Follows.foldl (fun _ _ => ?_) ?_ | split)

@[simp] theorem Answers.execTakeTimeout {mw : Bool} {s0 : State} {p : Part} {obj : Nat} {source : WaiterSource} {tag : Nat}
    {s : State} (h : Follows mw p s0 s) : Answers mw p s0 (Machine.execTakeTimeout p obj source tag s) := by
  simp only [Machine.execTakeTimeout]
  repeat' (first | (simp (maxDischargeDepth := 100) [h]; done) | refine Follows.foldl (fun _ _ => ?_) ?_ | split)

@[simp] theorem Answers.execTcqPop {mw : Bool} {s0 : State} {t : Nat} {n : Nat} {s : State} (h : Follows mw .baxel s0 s) :
    Answers mw .baxel s0 (Machine.execTcqPop t n s) := by
  simp (maxDischargeDepth := 100) [Machine.execTcqPop, h]

@[simp] theorem Answers.execObjPartWrite {mw : Bool} {s0 : State} {t : Nat} {w : Word} {s : State} (h : Follows mw .baxel
    s0 s) : Answers mw .baxel s0 (Machine.execObjPartWrite t w s) := by
  simp (maxDischargeDepth := 100) [Machine.execObjPartWrite, h]

@[simp] theorem Answers.execWfloorWrite {mw : Bool} {s0 : State} {t : Nat} {w : Word} {s : State} (h : Follows mw .baxel s0
    s) : Answers mw .baxel s0 (Machine.execWfloorWrite t w s) := by
  simp (maxDischargeDepth := 100) [Machine.execWfloorWrite, h]

@[simp] theorem Answers.execRsigPartWrite {mw : Bool} {s0 : State} {t : Nat} {w : Word} {s : State} (h : Follows mw .baxel
    s0 s) : Answers mw .baxel s0 (Machine.execRsigPartWrite t w s) := by
  simp (maxDischargeDepth := 100) [Machine.execRsigPartWrite, h]

@[simp] theorem Follows.modTags {mw : Bool} {s0 : State} {s : State} {p : Part} {f : Machine.TagUnit → Machine.TagUnit} (h
    : Follows mw p s0 s) : Follows mw p s0 (State.modTags s p f) := by
  simp (maxDischargeDepth := 100) [State.modTags, h]

@[simp] theorem Follows.tagWrite {mw : Bool} {s0 : State} {s : State} {p : Part} {r : Machine.TagRec} (h : Follows mw p s0
    s) : Follows mw p s0 (State.tagWrite s p r) := by
  simp (maxDischargeDepth := 100) [State.tagWrite, h]

@[simp] theorem Follows.tagStart {mw : Bool} {s0 : State} {s : State} {r : Machine.TagRec} (h : Follows mw .kresia s0 s) :
    Follows mw .kresia s0 (State.tagStart s r) := by
  simp (maxDischargeDepth := 100) [State.tagStart, h]

@[simp] theorem Follows.tagStage {mw : Bool} {s0 : State} {s : State} {r : Machine.TagRec} {i : Nat} (h : Follows mw
    .kresia s0 s) : Follows mw .kresia s0 (State.tagStage s r i) := by
  simp only [State.tagStage]
  repeat' (first | (simp (maxDischargeDepth := 100) [h]; done) | refine Follows.foldl (fun _ _ => ?_) ?_ | split)

@[simp] theorem Follows.tagEnd {mw : Bool} {s0 : State} {s : State} {r : Machine.TagRec} {incomplete : Bool} (h : Follows
    mw .kresia s0 s) : Follows mw .kresia s0 (State.tagEnd s r incomplete) := by
  simp only [State.tagEnd]
  repeat' (first | (simp (maxDischargeDepth := 100) [h]; done) | refine Follows.foldl (fun _ _ => ?_) ?_ | split)

@[simp] theorem Follows.tagDraw {mw : Bool} {s0 : State} {s : State} {p : Part} {port : Nat} {x : Packet} (h : Follows mw p
    s0 s) : Follows mw p s0 (State.tagDraw s p port x).2 := by
  simp (maxDischargeDepth := 100) [State.tagDraw, h]

@[simp] theorem Follows.tagPacket {mw : Bool} {s0 : State} {s : State} {p : Part} {port : Nat} {q : Machine.QEntry} {first
    : Option Raw} {lseq : Nat} {incomplete : Bool} (h : Follows mw p s0 s) : Follows mw p s0 (State.tagPacket s p port q first lseq incomplete) := by
  simp (maxDischargeDepth := 100) [State.tagPacket, h]

@[simp] theorem evLk_part (p : Part) (n off : Nat) : (evLk p n off).part = p := by cases p <;> rfl

@[simp] theorem evLk_byDom (p : Part) (n off : Nat) : (evLk p n off).byDom = false := by cases p <;> rfl

@[simp] theorem evGt_part (p : Part) (n off : Nat) (c : Option Nat) : (evGt p n off c).part = p := by cases p <;> rfl

@[simp] theorem evGt_byDom (p : Part) (n off : Nat) (c : Option Nat) : (evGt p n off c).byDom = false := by cases p <;> rfl

@[simp] theorem Follows.modLink {mw : Bool} {s0 : State} {s : State} {p : Part} {f : Machine.LinkUnit → Machine.LinkUnit}
    (h : Follows mw p s0 s) : Follows mw p s0 (State.modLink s p f) := by
  simp (maxDischargeDepth := 100) [State.modLink, h]

@[simp] theorem Follows.modLp {mw : Bool} {s0 : State} {s : State} {p : Part} {n : Nat} {f : Machine.LinkPort →
    Machine.LinkPort} (h : Follows mw p s0 s) : Follows mw p s0 (State.modLp s p n f) := by
  simp (maxDischargeDepth := 100) [State.modLp, h]

@[simp] theorem Follows.modGp {mw : Bool} {s0 : State} {s : State} {p : Part} {n : Nat} {f : Machine.GatePort →
    Machine.GatePort} (h : Follows mw p s0 s) : Follows mw p s0 (State.modGp s p n f) := by
  simp (maxDischargeDepth := 100) [State.modGp, h]

@[simp] theorem Follows.modLedger {mw : Bool} {s0 : State} {s : State} {p : Part} {n : Nat} {f : Machine.Ledger →
    Machine.Ledger} (h : Follows mw p s0 s) : Follows mw p s0 (State.modLedger s p n f) := by
  simp (maxDischargeDepth := 100) [State.modLedger, h]

@[simp] theorem Follows.giveBack {mw : Bool} {s0 : State} {s : State} {p : Part} {n : Nat} {c : Nat} {k : Nat} (h : Follows
    mw p s0 s) : Follows mw p s0 (State.giveBack s p n c k) := by
  simp (maxDischargeDepth := 100) [State.giveBack, h]

@[simp] theorem Follows.giveBackDom {mw : Bool} {s0 : State} {s : State} {p : Part} {n : Nat} {d : Nat} {k : Nat} (h :
    Follows mw p s0 s) : Follows mw p s0 (State.giveBackDom s p n d k) := by
  simp (maxDischargeDepth := 100) [State.giveBackDom, h]

@[simp] theorem Follows.giveBackOf {mw : Bool} {s0 : State} {s : State} {p : Part} {q : Machine.QEntry} (h : Follows mw p
    s0 s) : Follows mw p s0 (State.giveBackOf s p q) := by
  simp only [State.giveBackOf]
  repeat' (first | (simp (maxDischargeDepth := 100) [h]; done) | refine Follows.foldl (fun _ _ => ?_) ?_ | split)

@[simp] theorem Follows.lkCode {mw : Bool} {s0 : State} {s : State} {p : Part} {n : Nat} {code : Code} (h : Follows mw p s0
    s) : Follows mw p s0 (State.lkCode s p n code) := by
  simp (maxDischargeDepth := 100) [State.lkCode, h]

@[simp] theorem Follows.lkState {mw : Bool} {s0 : State} {s : State} {p : Part} {n : Nat} {v : Nat} (h : Follows mw p s0 s)
    : Follows mw p s0 (State.lkState s p n v) := by
  simp (maxDischargeDepth := 100) [State.lkState, h]

@[simp] theorem Follows.flushPort {mw : Bool} {s0 : State} {s : State} {p : Part} {n : Nat} (h : Follows mw p s0 s) :
    Follows mw p s0 (State.flushPort s p n) := by
  simp (maxDischargeDepth := 100) [State.flushPort, h]

@[simp] theorem Follows.planeNote {mw : Bool} {s0 : State} {s : State} {lost : Bool} {n : PlaneNotice} (h : Follows mw
    .kresia s0 s) : Follows mw .kresia s0 (State.planeNote s lost n) := by
  simp (maxDischargeDepth := 100) [State.planeNote, h]

@[simp] theorem Follows.leaveService {mw : Bool} {s0 : State} {s : State} {p : Part} {n : Nat} {code : Code} (h : Follows
    mw p s0 s) : Follows mw p s0 (State.leaveService s p n code) := by
  unfold State.leaveService
  extract_lets x wasUp s1 s2
  have hs1 : Follows mw p s0 s1 := by
    simp only [s1]
    repeat' (first | (simp (maxDischargeDepth := 100) [h]; done) | refine Follows.foldl (fun _ _ => ?_) ?_ | split)
  have hs2 : Follows mw p s0 s2 := by
    simp only [s2]
    repeat' (first | (simp (maxDischargeDepth := 100) [h, hs1]; done) | refine Follows.foldl (fun _ _ => ?_) ?_ | split)
  repeat' (first | (simp (maxDischargeDepth := 100) [h, hs1, hs2]; done) | refine Follows.foldl (fun _ _ => ?_) ?_ | split)

@[simp] theorem Follows.tickShapers {mw : Bool} {s0 : State} {s : State} {p : Part} {n : Nat} (h : Follows mw p s0 s) :
    Follows mw p s0 (State.tickShapers s p n) := by
  simp (maxDischargeDepth := 100) [State.tickShapers, h]

@[simp] theorem Follows.sendChunk {mw : Bool} {q : Part} {s0 : State} {s : State} {h0_ : Nat} {k : ChunkPacket} (h :
    Follows mw q s0 s) : Follows mw q s0 (State.sendChunk s h0_ k) := by
  simp (maxDischargeDepth := 100) [State.sendChunk, h]

@[simp] theorem Follows.sendMembers {mw : Bool} {q : Part} {s0 : State} {s : State} {d : Nat} {l : List Nat} {k : Nat} {m :
    Msg} (h : Follows mw q s0 s) : Follows mw q s0 (State.sendMembers s d l k m) := by
  unfold State.sendMembers
  extract_lets own away s1
  have hs1 : Follows mw q s0 s1 := by
    simp only [s1]
    repeat' (first | (simp (maxDischargeDepth := 100) [h]; done) | refine Follows.foldl (fun _ _ => ?_) ?_ | split)
  repeat' (first | (simp (maxDischargeDepth := 100) [h, hs1]; done) | refine Follows.foldl (fun _ _ => ?_) ?_ | split)

@[simp] theorem Follows.modTrackers {mw : Bool} {s0 : State} {s : State} {p : Part} {f : FMap Machine.Tracker → FMap
    Machine.Tracker} (h : Follows mw p s0 s) : Follows mw p s0 (State.modTrackers s p f) := by
  simp only [State.modTrackers]
  repeat' (first | (simp (maxDischargeDepth := 100) [h]; done) | refine Follows.foldl (fun _ _ => ?_) ?_ | split)

@[simp] theorem Follows.modTracker {mw : Bool} {s0 : State} {s : State} {p : Part} {key : Nat} {f : Machine.Tracker →
    Machine.Tracker} (h : Follows mw p s0 s) : Follows mw p s0 (State.modTracker s p key f) := by
  simp (maxDischargeDepth := 100) [State.modTracker, h]

@[simp] theorem Follows.modWrites {mw : Bool} {s0 : State} {s : State} {p : Part} {f : FMap Machine.MemReq → FMap
    Machine.MemReq} (h : Follows mw p s0 s) : Follows mw p s0 (State.modWrites s p f) := by
  simp only [State.modWrites]
  repeat' (first | (simp (maxDischargeDepth := 100) [h]; done) | refine Follows.foldl (fun _ _ => ?_) ?_ | split)

@[simp] theorem Follows.rwDoneTo {mw : Bool} {s0 : State} {s : State} {p : Part} {x : Machine.Tracker} {code : Code} (h :
    Follows mw p s0 s) : Follows mw p s0 (State.rwDoneTo s p x code) := by
  simp (maxDischargeDepth := 100) [State.rwDoneTo, h]

@[simp] theorem Follows.dropTrackers {mw : Bool} {s0 : State} {s : State} {p : Part} {f : Machine.Tracker → Bool} (h :
    Follows mw p s0 s) : Follows mw p s0 (State.dropTrackers s p f) := by
  simp (maxDischargeDepth := 100) [State.dropTrackers, h]

@[simp] theorem Follows.voidTrackers {mw : Bool} {s0 : State} {s : State} {p : Part} {domain : Nat} {epoch : Nat} (h :
    Follows mw p s0 s) : Follows mw p s0 (State.voidTrackers s p domain epoch) := by
  simp (maxDischargeDepth := 100) [State.voidTrackers, h]

@[simp] theorem Follows.freeTracker {mw : Bool} {s0 : State} {s : State} {p : Part} {key : Nat} (h : Follows mw p s0 s) :
    Follows mw p s0 (State.freeTracker s p key) := by
  simp (maxDischargeDepth := 100) [State.freeTracker, h]

@[simp] theorem Answers.execLlPartWrite {mw : Bool} {s0 : State} {t : Nat} {w : Word} {s : State} (h : Follows mw .baxel s0
    s) : Answers mw .baxel s0 (Machine.execLlPartWrite t w s) := by
  simp (maxDischargeDepth := 100) [Machine.execLlPartWrite, h]

@[simp] theorem Answers.execRowAllowWrite {mw : Bool} {s0 : State} {t : Nat} {hi : Bool} {w : Word} {s : State} (h :
    Follows mw .baxel s0 s) : Answers mw .baxel s0 (Machine.execRowAllowWrite t hi w s) := by
  simp (maxDischargeDepth := 100) [Machine.execRowAllowWrite, h]

@[simp] theorem Follows.putTmpl {mw : Bool} {s0 : State} {s : State} {t : Nat} {i : Nat} {tm : Template} (h : Follows mw
    .baxel s0 s) : Follows mw .baxel s0 (State.putTmpl s t i tm) := by
  simp (maxDischargeDepth := 100) [State.putTmpl, h]

@[simp] theorem Follows.putObj {mw : Bool} {s0 : State} {s : State} {t : Nat} {d : ObjDecl} (h : Follows mw .baxel s0 s) :
    Follows mw .baxel s0 (State.putObj s t d) := by
  simp (maxDischargeDepth := 100) [State.putObj, h]

@[simp] theorem Follows.ackLoad {mw : Bool} {q : Part} {s0 : State} {s : State} {domain : Nat} {code : Code} {freed :
    optParam Bool false} (h : Follows mw q s0 s) : Follows mw q s0 (State.ackLoad s domain code freed) := by
  simp (maxDischargeDepth := 100) [State.ackLoad, h]

@[simp] theorem Follows.refuseLoad {mw : Bool} {s0 : State} {s : State} {domain : Nat} {code : Code} (h : Follows mw .baxel
    s0 s) : Follows mw .baxel s0 (State.refuseLoad s domain code) := by
  simp (maxDischargeDepth := 100) [State.refuseLoad, h]

@[simp] theorem Follows.loadTmpl {mw : Bool} {s0 : State} {s : State} {t : Nat} {ld : TemplateLoad} (h : Follows mw .baxel
    s0 s) : Follows mw .baxel s0 (State.loadTmpl s t ld) := by
  simp only [State.loadTmpl]
  repeat' (first | (simp (maxDischargeDepth := 100) [h]; done) | refine Follows.foldl (fun _ _ => ?_) ?_ | split)

@[simp] theorem Follows.withdrawTmpl {mw : Bool} {s0 : State} {s : State} {t : Nat} {domain : Nat} (h : Follows mw .baxel
    s0 s) : Follows mw .baxel s0 (State.withdrawTmpl s t domain) := by
  simp only [State.withdrawTmpl]
  repeat' (first | (simp (maxDischargeDepth := 100) [h]; done) | refine Follows.foldl (fun _ _ => ?_) ?_ | split)

@[simp] theorem Follows.releaseTmpl {mw : Bool} {s0 : State} {s : State} {t : Nat} {ld : TemplateLoad} (h : Follows mw
    .baxel s0 s) : Follows mw .baxel s0 (State.releaseTmpl s t ld) := by
  unfold State.releaseTmpl
  extract_lets s1 s2
  have hs1 : Follows mw .baxel s0 s1 := by
    simp only [s1]
    repeat' (first | (simp (maxDischargeDepth := 100) [h]; done) | refine Follows.foldl (fun _ _ => ?_) ?_ | split)
  have hs2 : Follows mw .baxel s0 s2 := by
    simp only [s2]
    repeat' (first | (simp (maxDischargeDepth := 100) [h, hs1]; done) | refine Follows.foldl (fun _ _ => ?_) ?_ | split)
  repeat' (first | (simp (maxDischargeDepth := 100) [h, hs1, hs2]; done) | refine Follows.foldl (fun _ _ => ?_) ?_ | split)

@[simp] theorem Answers.execTemplateLoad {mw : Bool} {s0 : State} {ld : TemplateLoad} {s : State} (h : Follows mw .baxel s0
    s) : Answers mw .baxel s0 (Machine.execTemplateLoad ld s) := by
  simp only [Machine.execTemplateLoad]
  repeat' (first | (simp (maxDischargeDepth := 100) [h]; done) | refine Follows.foldl (fun _ _ => ?_) ?_ | split)

@[simp] theorem Answers.execArrive {mw : Bool} {s0 : State} {t : Nat} {step : Nat} {s : State} (h : Follows mw .baxel s0 s)
    : Answers mw .baxel s0 (Machine.execArrive t step s) := by
  simp (maxDischargeDepth := 100) [Machine.execArrive, h]

@[simp] theorem Follows.voidedIrq {mw : Bool} {s0 : State} {s : State} {t : Nat} (h : Follows mw .baxel s0 s) : Follows mw
    .baxel s0 (State.voidedIrq s t) := by
  simp (maxDischargeDepth := 100) [State.voidedIrq, h]

@[simp] theorem Follows.voidSlot {mw : Bool} {s0 : State} {s : State} {t : Nat} {i : Nat} (h : Follows mw .baxel s0 s) :
    Follows mw .baxel s0 (State.voidSlot s t i) := by
  unfold State.voidSlot
  extract_lets e s1
  have hs1 : Follows mw .baxel s0 s1 := by
    simp only [s1]
    repeat' (first | (simp (maxDischargeDepth := 100) [h]; done) | refine Follows.foldl (fun _ _ => ?_) ?_ | split)
  repeat' (first | (simp (maxDischargeDepth := 100) [h, hs1]; done) | refine Follows.foldl (fun _ _ => ?_) ?_ | split)

@[simp] theorem Follows.replayObj {mw : Bool} {s0 : State} {s : State} {p : Part} {o : Nat} (h : Follows mw p s0 s) :
    Follows mw p s0 (State.replayObj s p o) := by
  simp (maxDischargeDepth := 100) [State.replayObj, h]

@[simp] theorem Follows.voidOlder {mw : Bool} {s0 : State} {s : State} {t : Nat} {m : Ctl} (h : Follows mw .baxel s0 s) :
    Follows mw .baxel s0 (State.voidOlder s t m) := by
  unfold State.voidOlder
  extract_lets s1 fired s2 replay s3
  have hs1 : Follows mw .baxel s0 s1 := by
    simp only [s1]
    repeat' (first | (simp (maxDischargeDepth := 100) [h]; done) | refine Follows.foldl (fun _ _ => ?_) ?_ | split)
  have hs2 : Follows mw .baxel s0 s2 := by
    simp only [s2]
    repeat' (first | (simp (maxDischargeDepth := 100) [h, hs1]; done) | refine Follows.foldl (fun _ _ => ?_) ?_ | split)
  have hs3 : Follows mw .baxel s0 s3 := by
    simp only [s3]
    repeat' (first | (simp (maxDischargeDepth := 100) [h, hs1, hs2]; done) | refine Follows.foldl (fun _ _ => ?_) ?_ | split)
  repeat' (first | (simp (maxDischargeDepth := 100) [h, hs1, hs2, hs3]; done) | refine Follows.foldl (fun _ _ => ?_) ?_ | split)

@[simp] theorem Follows.onBroadcast {mw : Bool} {s0 s : State} {m : Ctl} {f : Nat → State → State} (h : Follows mw .baxel
    s0 s) (hf : ∀ t s, Follows mw .baxel s (f t s)) : Follows mw .baxel s0 (s.onBroadcast m f) := by
  have hf' : ∀ t s1, Follows mw .baxel s0 s1 → Follows mw .baxel s0 (f t s1) := fun t s1 g => g.trans (hf t s1)
  unfold State.onBroadcast
  dsimp only
  repeat' (first | (simp (maxDischargeDepth := 100) [h, hf']; done) | split)

@[simp] theorem Follows.ackArm {mw : Bool} {q : Part} {s0 : State} {s : State} {m : Ctl} {code : Code} (h : Follows mw q s0
    s) : Follows mw q s0 (State.ackArm s m code) := by
  simp (maxDischargeDepth := 100) [State.ackArm, h]

@[simp] theorem Follows.armSlot {mw : Bool} {s0 : State} {s : State} {m : Ctl} {t : Nat} (h : Follows mw .baxel s0 s) :
    Follows mw .baxel s0 (State.armSlot s m t) := by
  simp only [State.armSlot]
  repeat' (first | (simp (maxDischargeDepth := 100) [h]; done) | refine Follows.foldl (fun _ _ => ?_) ?_ | split)

@[simp] theorem Follows.switchObjs {mw : Bool} {s0 : State} {s : State} {t : Nat} {step : Nat} (h : Follows mw .baxel s0 s)
    : Follows mw .baxel s0 (State.switchObjs s t step) := by
  simp (maxDischargeDepth := 100) [State.switchObjs, h]

@[simp] theorem Answers.execBxArmRx {mw : Bool} {s0 : State} {port : Nat} {_rx : EdgeStamp} {m : Ctl} {s : State} (h :
    Follows mw .baxel s0 s) : Answers mw .baxel s0 (Machine.execBxArmRx port _rx m s) := by
  simp (maxDischargeDepth := 100) [Machine.execBxArmRx, h]

@[simp] theorem Follows.tampSlot {mw : Bool} {s0 : State} {s : State} {m : Ctl} {raw : Raw} {t : Nat} (h : Follows mw
    .baxel s0 s) : Follows mw .baxel s0 (State.tampSlot s m raw t) := by
  simp only [State.tampSlot]
  repeat' (first | (simp (maxDischargeDepth := 100) [h]; done) | refine Follows.foldl (fun _ _ => ?_) ?_ | split)

@[simp] theorem Answers.execBxTampRx {mw : Bool} {s0 : State} {port : Nat} {rx : EdgeStamp} {m : Ctl} {s : State} (h :
    Follows mw .baxel s0 s) : Answers mw .baxel s0 (Machine.execBxTampRx port rx m s) := by
  simp (maxDischargeDepth := 100) [Machine.execBxTampRx, h]

@[simp] theorem Answers.execBxVoidRx {mw : Bool} {s0 : State} {port : Nat} {m : Ctl} {s : State} (h : Follows mw .baxel s0
    s) : Answers mw .baxel s0 (Machine.execBxVoidRx port m s) := by
  simp (maxDischargeDepth := 100) [Machine.execBxVoidRx, h]

@[simp] theorem Answers.execOrphanTest {mw : Bool} {s0 : State} {t : Nat} {slot : Nat} {s : State} (h : Follows mw .baxel
    s0 s) : Answers mw .baxel s0 (Machine.execOrphanTest t slot s) := by
  simp only [Machine.execOrphanTest]
  repeat' (first | (simp (maxDischargeDepth := 100) [h]; done) | refine Follows.foldl (fun _ _ => ?_) ?_ | split)

@[simp] theorem Answers.execLaunchDescriptorPresent {mw : Bool} {s0 : State} {t : Nat} {slot : Nat} {s : State} (h :
    Follows mw .baxel s0 s) : Answers mw .baxel s0 (Machine.execLaunchDescriptorPresent t slot s) := by
  simp only [Machine.execLaunchDescriptorPresent]
  repeat' (first | (simp (maxDischargeDepth := 100) [h]; done) | refine Follows.foldl (fun _ _ => ?_) ?_ | split)

@[simp] theorem Follows.fireRecord {mw : Bool} {s0 : State} {s : State} {t : Nat} {i : Nat} {e : Machine.Slot} {edge : Raw}
    {late : Bool} (h : Follows mw .baxel s0 s) : Follows mw .baxel s0 (State.fireRecord s t i e edge late) := by
  unfold State.fireRecord
  extract_lets st s1 s2 s3
  have hs1 : Follows mw .baxel s0 s1 := by
    simp only [s1]
    repeat' (first | (simp (maxDischargeDepth := 100) [h]; done) | refine Follows.foldl (fun _ _ => ?_) ?_ | split)
  have hs2 : Follows mw .baxel s0 s2 := by
    simp only [s2]
    repeat' (first | (simp (maxDischargeDepth := 100) [h, hs1]; done) | refine Follows.foldl (fun _ _ => ?_) ?_ | split)
  have hs3 : Follows mw .baxel s0 s3 := by
    simp only [s3]
    repeat' (first | (simp (maxDischargeDepth := 100) [h, hs1, hs2]; done) | refine Follows.foldl (fun _ _ => ?_) ?_ | split)
  repeat' (first | (simp (maxDischargeDepth := 100) [h, hs1, hs2, hs3]; done) | refine Follows.foldl (fun _ _ => ?_) ?_ | split)

@[simp] theorem Follows.fireAt {mw : Bool} {s0 : State} {s : State} {t : Nat} {i : Nat} {edge : Raw} {late : Bool} (h :
    Follows mw .baxel s0 s) : Follows mw .baxel s0 (State.fireAt s t i edge late) := by
  unfold State.fireAt
  extract_lets e level s1 s2
  have hs1 : Follows mw .baxel s0 s1 := by
    simp only [s1]
    repeat' (first | (simp (maxDischargeDepth := 100) [h]; done) | refine Follows.foldl (fun _ _ => ?_) ?_ | split)
  have hs2 : Follows mw .baxel s0 s2 := by
    simp only [s2]
    repeat' (first | (simp (maxDischargeDepth := 100) [h, hs1]; done) | refine Follows.foldl (fun _ _ => ?_) ?_ | split)
  repeat' (first | (simp (maxDischargeDepth := 100) [h, hs1, hs2]; done) | refine Follows.foldl (fun _ _ => ?_) ?_ | split)

@[simp] theorem Follows.fireSlot {mw : Bool} {s0 : State} {s : State} {t : Nat} {i : Nat} {edge : Raw} {late : Bool} (h :
    Follows mw .baxel s0 s) : Follows mw .baxel s0 (State.fireSlot s t i edge late) := by
  simp only [State.fireSlot]
  repeat' (first | (simp (maxDischargeDepth := 100) [h]; done) | refine Follows.foldl (fun _ _ => ?_) ?_ | split)

@[simp] theorem Answers.execLpAccept {mw : Bool} {s0 : State} {t : Nat} {s : State} (h : Follows mw .baxel s0 s) : Answers
    mw .baxel s0 (Machine.execLpAccept t s) := by
  simp only [Machine.execLpAccept]
  repeat' (first | (simp (maxDischargeDepth := 100) [h]; done) | refine Follows.foldl (fun _ _ => ?_) ?_ | split)

@[simp] theorem Follows.gateTake {mw : Bool} {s0 : State} {s : State} {t : Nat} {i : Nat} {gates : List (Nat × Nat)} (h :
    Follows mw .baxel s0 s) : Follows mw .baxel s0 (State.gateTake s t i gates) := by
  unfold State.gateTake
  extract_lets s1 s2
  have hs1 : Follows mw .baxel s0 s1 := by
    simp only [s1]
    repeat' (first | (simp (maxDischargeDepth := 100) [h]; done) | refine Follows.foldl (fun _ _ => ?_) ?_ | split)
  have hs2 : Follows mw .baxel s0 s2 := by
    simp only [s2]
    repeat' (first | (simp (maxDischargeDepth := 100) [h, hs1]; done) | refine Follows.foldl (fun _ _ => ?_) ?_ | split)
  repeat' (first | (simp (maxDischargeDepth := 100) [h, hs1, hs2]; done) | refine Follows.foldl (fun _ _ => ?_) ?_ | split)

@[simp] theorem Follows.fireGated {mw : Bool} {s0 : State} {s : State} {t : Nat} {i : Nat} {edge : Raw} {late : Bool} (h :
    Follows mw .baxel s0 s) : Follows mw .baxel s0 (State.fireGated s t i edge late) := by
  simp (maxDischargeDepth := 100) [State.fireGated, h]

@[simp] theorem Answers.execFireCycle {mw : Bool} {s0 : State} {t : Nat} {slot : Nat} {s : State} (h : Follows mw .baxel s0
    s) : Answers mw .baxel s0 (Machine.execFireCycle t slot s) := by
  simp only [Machine.execFireCycle]
  repeat' (first | (simp (maxDischargeDepth := 100) [h]; done) | refine Follows.foldl (fun _ _ => ?_) ?_ | split)

@[simp] theorem Answers.execGateTakeLate {mw : Bool} {s0 : State} {t : Nat} {slot : Nat} {s : State} (h : Follows mw .baxel
    s0 s) : Answers mw .baxel s0 (Machine.execGateTakeLate t slot s) := by
  simp (maxDischargeDepth := 100) [Machine.execGateTakeLate, h]

@[simp] theorem Answers.execGateWaitExpiry {mw : Bool} {s0 : State} {t : Nat} {slot : Nat} {s : State} (h : Follows mw
    .baxel s0 s) : Answers mw .baxel s0 (Machine.execGateWaitExpiry t slot s) := by
  simp only [Machine.execGateWaitExpiry]
  repeat' (first | (simp (maxDischargeDepth := 100) [h]; done) | refine Follows.foldl (fun _ _ => ?_) ?_ | split)

@[simp] theorem Follows.applyChange {mw : Bool} {s0 : State} {s : State} {t : Nat} {i : Nat} (h : Follows mw .baxel s0 s) :
    Follows mw .baxel s0 (State.applyChange s t i).1 := by
  simp only [State.applyChange]
  repeat' (first | (simp (maxDischargeDepth := 100) [h]; done) | refine Follows.foldl (fun _ _ => ?_) ?_ | split)

@[simp] theorem Answers.execBellFire {mw : Bool} {s0 : State} {t : Nat} {slot : Nat} {s : State} (h : Follows mw .baxel s0
    s) : Answers mw .baxel s0 (Machine.execBellFire t slot s) := by
  simp only [Machine.execBellFire]
  repeat' (first | (simp (maxDischargeDepth := 100) [h]; done) | refine Follows.foldl (fun _ _ => ?_) ?_ | split)

@[simp] theorem Answers.execLpErrInput {mw : Bool} {s0 : State} {t : Nat} {s : State} (h : Follows mw .baxel s0 s) :
    Answers mw .baxel s0 (Machine.execLpErrInput t s) := by
  simp (maxDischargeDepth := 100) [Machine.execLpErrInput, h]

@[simp] theorem Follows.voidUnfired {mw : Bool} {s0 : State} {s : State} (h : Follows mw .baxel s0 s) : Follows mw .baxel
    s0 (State.voidUnfired s) := by
  simp only [State.voidUnfired]
  repeat' (first | (simp (maxDischargeDepth := 100) [h]; done) | refine Follows.foldl (fun _ _ => ?_) ?_ | split)

@[simp] theorem Answers.execBxFenceNotice {mw : Bool} {s0 : State} {n : FenceNotice} {s : State} (h : Follows mw .baxel s0
    s) : Answers mw .baxel s0 (Machine.execBxFenceNotice n s) := by
  simp (maxDischargeDepth := 100) [Machine.execBxFenceNotice, h]

@[simp] theorem Follows.reloadVoids {mw : Bool} {s0 : State} {s : State} {t : Nat} (h : Follows mw .baxel s0 s) : Follows
    mw .baxel s0 (State.reloadVoids s t) := by
  simp (maxDischargeDepth := 100) [State.reloadVoids, h]

@[simp] theorem Answers.execBxFenceLift {mw : Bool} {s0 : State} {n : FenceNotice} {s : State} (h : Follows mw .baxel s0 s)
    : Answers mw .baxel s0 (Machine.execBxFenceLift n s) := by
  simp (maxDischargeDepth := 100) [Machine.execBxFenceLift, h]

@[simp] theorem Answers.execSteerCfgWrite {mw : Bool} {s0 : State} {w : Word} {s : State} (h : Follows mw .baxel s0 s) :
    Answers mw .baxel s0 (Machine.execSteerCfgWrite w s) := by
  simp (maxDischargeDepth := 100) [Machine.execSteerCfgWrite, h]

@[simp] theorem Follows.modDom {mw : Bool} {s0 : State} {s : State} {d : Nat} {f : Machine.Domain → Machine.Domain} (h :
    Follows mw .kresia s0 s) : Follows mw .kresia s0 (State.modDom s d f) := by
  simp (maxDischargeDepth := 100) [State.modDom, h]

@[simp] theorem Follows.tieCopy {mw : Bool} {s0 : State} {s : State} {d : Nat} {live : List Nat} {m : Msg} {plane : Nat} (h
    : Follows mw .kresia s0 s) : Follows mw .kresia s0 (State.tieCopy s d live m plane) := by
  simp only [State.tieCopy]
  repeat' (first | (simp (maxDischargeDepth := 100) [h]; done) | refine Follows.foldl (fun _ _ => ?_) ?_ | split)

@[simp] theorem Follows.broadcast {mw : Bool} {s0 : State} {s : State} {d : Nat} {m : Msg} (h : Follows mw .kresia s0 s) :
    Follows mw .kresia s0 (State.broadcast s d m) := by
  simp (maxDischargeDepth := 100) [State.broadcast, h]

@[simp] theorem Follows.relay {mw : Bool} {q : Part} {s0 : State} {s : State} {d : Nat} {m : Ctl} (h : Follows mw q s0 s) :
    Follows mw q s0 (State.relay s d m) := by
  simp (maxDischargeDepth := 100) [State.relay, h]

@[simp] theorem Follows.rejoin {mw : Bool} {s0 : State} {s : State} {node : Nat} (h : Follows mw .kresia s0 s) : Follows mw
    .kresia s0 (State.rejoin s node) := by
  simp only [State.rejoin]
  repeat' (first | (simp (maxDischargeDepth := 100) [h]; done) | refine Follows.foldl (fun _ _ => ?_) ?_ | split)

@[simp] theorem Follows.ksTenantFault {mw : Bool} {q : Part} {s0 : State} {s : State} {d : Nat} {code : Code} {step :
    optParam (Option Nat) none} (h : Follows mw q s0 s) : Follows mw q s0 (State.ksTenantFault s d code step) := by
  simp (maxDischargeDepth := 100) [State.ksTenantFault, h]

@[simp] theorem Follows.stepSignal {mw : Bool} {s0 : State} {s : State} {d : Nat} {o : Nat} {n : Nat} {i : Nat} (h :
    Follows mw .kresia s0 s) : Follows mw .kresia s0 (State.stepSignal s d o n i) := by
  simp (maxDischargeDepth := 100) [State.stepSignal, h]

@[simp] theorem Follows.doneSignal {mw : Bool} {s0 : State} {s : State} {d : Nat} {g : Machine.Image} {i : Nat} (h :
    Follows mw .kresia s0 s) : Follows mw .kresia s0 (State.doneSignal s d g i) := by
  simp (maxDischargeDepth := 100) [State.doneSignal, h]

@[simp] theorem Follows.cupAdd {mw : Bool} {s0 : State} {s : State} {d : Nat} {step : Nat} {kind : Nat} {terms : List (List
    Nat)} (h : Follows mw .kresia s0 s) : Follows mw .kresia s0 (State.cupAdd s d step kind terms) := by
  simp (maxDischargeDepth := 100) [State.cupAdd, h]

@[simp] theorem Follows.markVaried {mw : Bool} {s0 : State} {s : State} {d : Nat} {step : Nat} {bit : Nat} (h : Follows mw
    .kresia s0 s) : Follows mw .kresia s0 (State.markVaried s d step bit) := by
  simp (maxDischargeDepth := 100) [State.markVaried, h]

@[simp] theorem Follows.countSendStall {mw : Bool} {s0 : State} {s : State} {p : Part} (h : Follows mw p s0 s) : Follows mw
    p s0 (State.countSendStall s p) := by
  simp (maxDischargeDepth := 100) [State.countSendStall, h]

@[simp] theorem Follows.sendByRoute {mw : Bool} {q : Part} {s0 : State} {s : State} {m : RsigSend} {v2 : Bool} (h : Follows
    mw q s0 s) : Follows mw q s0 (State.sendByRoute s m v2) := by
  unfold State.sendByRoute
  extract_lets src via cls s1
  have hs1 : Follows mw q s0 s1 := by
    simp only [s1]
    repeat' (first | (simp (maxDischargeDepth := 100) [h]; done) | refine Follows.foldl (fun _ _ => ?_) ?_ | split)
  repeat' (first | (simp (maxDischargeDepth := 100) [h, hs1]; done) | refine Follows.foldl (fun _ _ => ?_) ?_ | split)

@[simp] theorem Follows.intoPlane {mw : Bool} {q : Part} {s0 : State} {s : State} {plane : Nat} {m : Msg} (h : Follows mw q
    s0 s) : Follows mw q s0 (State.intoPlane s plane m) := by
  simp only [State.intoPlane]
  repeat' (first | (simp (maxDischargeDepth := 100) [h]; done) | refine Follows.foldl (fun _ _ => ?_) ?_ | split)

@[simp] theorem Follows.sendOnPlanes {mw : Bool} {q : Part} {s0 : State} {s : State} {m : RsigSend} {via : List Nat} {v2 :
    Bool} {f : Nat → Bool} (h : Follows mw q s0 s) : Follows mw q s0 (State.sendOnPlanes s m via v2 f) := by
  unfold State.sendOnPlanes
  extract_lets src s1
  have hs1 : Follows mw q s0 s1 := by
    simp only [s1]
    repeat' (first | (simp (maxDischargeDepth := 100) [h]; done) | refine Follows.foldl (fun _ _ => ?_) ?_ | split)
  repeat' (first | (simp (maxDischargeDepth := 100) [h, hs1]; done) | refine Follows.foldl (fun _ _ => ?_) ?_ | split)

@[simp] theorem Follows.setWindow {mw : Bool} {s0 : State} {s : State} {d : Nat} {c : Nat} {role : Nat} {step : Nat} {w :
    Machine.RoleWindow} (h : Follows mw .kresia s0 s) : Follows mw .kresia s0 (State.setWindow s d c role step w) := by
  simp (maxDischargeDepth := 100) [State.setWindow, h]

@[simp] theorem Follows.sendBase {mw : Bool} {s0 : State} {s : State} {d : Nat} {c : Nat} {role : Nat} {step : Nat} {base :
    Nat} (h : Follows mw .kresia s0 s) : Follows mw .kresia s0 (State.sendBase s d c role step base) := by
  simp (maxDischargeDepth := 100) [State.sendBase, h]

@[simp] theorem Follows.noteBase {mw : Bool} {s0 : State} {s : State} {g : Machine.Image} {d : Nat} {c : Nat} {role : Nat}
    {step : Nat} (h : Follows mw .kresia s0 s) : Follows mw .kresia s0 (State.noteBase s g d c role step) := by
  simp (maxDischargeDepth := 100) [State.noteBase, h]

@[simp] theorem Follows.closeChunk {mw : Bool} {s0 : State} {s : State} {g : Machine.Image} {d : Nat} {c : Nat} {k : Nat}
    {role : Nat} {step : Nat} {restart : Nat} (h : Follows mw .kresia s0 s) : Follows mw .kresia s0 (State.closeChunk s g d c k role step restart) := by
  simp (maxDischargeDepth := 100) [State.closeChunk, h]

@[simp] theorem Follows.modChunk {mw : Bool} {s0 : State} {s : State} {ix : Nat} {f : Machine.ChunkEntry →
    Machine.ChunkEntry} (h : Follows mw .kresia s0 s) : Follows mw .kresia s0 (State.modChunk s ix f) := by
  simp only [State.modChunk]
  repeat' (first | (simp (maxDischargeDepth := 100) [h]; done) | refine Follows.foldl (fun _ _ => ?_) ?_ | split)

@[simp] theorem Follows.markHwm {mw : Bool} {s0 : State} {s : State} (h : Follows mw .kresia s0 s) : Follows mw .kresia s0
    (State.markHwm s) := by
  simp (maxDischargeDepth := 100) [State.markHwm, h]

@[simp] theorem Follows.freeSlots {mw : Bool} {s0 : State} {s : State} {ix : Nat} (h : Follows mw .kresia s0 s) : Follows
    mw .kresia s0 (State.freeSlots s ix) := by
  simp (maxDischargeDepth := 100) [State.freeSlots, h]

@[simp] theorem Follows.dropChunk {mw : Bool} {s0 : State} {s : State} {ix : Nat} {incomplete : Bool} (h : Follows mw
    .kresia s0 s) : Follows mw .kresia s0 (State.dropChunk s ix incomplete) := by
  simp only [State.dropChunk]
  repeat' (first | (simp (maxDischargeDepth := 100) [h]; done) | refine Follows.foldl (fun _ _ => ?_) ?_ | split)

@[simp] theorem Follows.openChunk {mw : Bool} {s0 : State} {s : State} {g : Machine.Image} {d : Nat} {c : Nat} {k : Nat}
    {step : Nat} {restart : Nat} {role : Nat} (h : Follows mw .kresia s0 s) : Follows mw .kresia s0 (State.openChunk s g d c k step restart role).1 := by
  simp (maxDischargeDepth := 100) [State.openChunk, h]

@[simp] theorem Follows.resetChunk {mw : Bool} {s0 : State} {s : State} {g : Machine.Image} {ix : Nat} {restart : Nat} (h :
    Follows mw .kresia s0 s) : Follows mw .kresia s0 (State.resetChunk s g ix restart) := by
  simp only [State.resetChunk]
  repeat' (first | (simp (maxDischargeDepth := 100) [h]; done) | refine Follows.foldl (fun _ _ => ?_) ?_ | split)

@[simp] theorem Follows.launchJob {mw : Bool} {s0 : State} {s : State} {j0 : Machine.SendJob} (h : Follows mw .kresia s0 s)
    : Follows mw .kresia s0 (State.launchJob s j0) := by
  unfold State.launchJob
  extract_lets j t x v2 s1 s2
  have hs1 : Follows mw .kresia s0 s1 := by
    simp only [s1]
    repeat' (first | (simp (maxDischargeDepth := 100) [h]; done) | refine Follows.foldl (fun _ _ => ?_) ?_ | split)
  have hs2 : Follows mw .kresia s0 s2 := by
    simp only [s2]
    repeat' (first | (simp (maxDischargeDepth := 100) [h, hs1]; done) | refine Follows.foldl (fun _ _ => ?_) ?_ | split)
  repeat' (first | (simp (maxDischargeDepth := 100) [h, hs1, hs2]; done) | refine Follows.foldl (fun _ _ => ?_) ?_ | split)

@[simp] theorem Follows.startJob {mw : Bool} {s0 : State} {s : State} {j : Machine.SendJob} (h : Follows mw .kresia s0 s) :
    Follows mw .kresia s0 (State.startJob s j) := by
  simp (maxDischargeDepth := 100) [State.startJob, h]

@[simp] theorem Follows.pumpJobs {mw : Bool} {s0 : State} {s : State} (h : Follows mw .kresia s0 s) : Follows mw .kresia s0
    (State.pumpJobs s) := by
  simp (maxDischargeDepth := 100) [State.pumpJobs, h]

@[simp] theorem Follows.askLines {mw : Bool} {s0 : State} {s : State} {id : Nat} {n : Nat} (h : Follows mw .baxel s0 s) :
    Follows mw .baxel s0 (s.askLines id n) := by
  induction n generalizing s with
  | zero => simpa [State.askLines] using h
  | succ n ih =>
    unfold State.askLines
    dsimp only
    repeat' (first | (simp (maxDischargeDepth := 100) [h]; done) | (refine ih ?_) | split)

@[simp] theorem Follows.pumpReads {mw : Bool} {s0 : State} {s : State} (h : Follows mw .baxel s0 s) : Follows mw .baxel s0
    (State.pumpReads s) := by
  simp (maxDischargeDepth := 100) [State.pumpReads, h]

@[simp] theorem Follows.startRead {mw : Bool} {s0 : State} {s : State} {t : Nat} {addr : Nat} {bytes : Nat} {use :
    Machine.ReadUse} (h : Follows mw .baxel s0 s) : Follows mw .baxel s0 (State.startRead s t addr bytes use) := by
  simp (maxDischargeDepth := 100) [State.startRead, h]

@[simp] theorem Follows.coreRead {mw : Bool} {s0 : State} {s : State} {addr : Nat} {bytes : Nat} {use : Machine.ReadUse} (h
    : Follows mw .baxel s0 s) : Follows mw .baxel s0 (State.coreRead s addr bytes use) := by
  simp (maxDischargeDepth := 100) [State.coreRead, h]

@[simp] theorem Follows.bxLaunch {mw : Bool} {s0 : State} {s : State} {m0 : RsigSend} (h : Follows mw .baxel s0 s) :
    Follows mw .baxel s0 (State.bxLaunch s m0) := by
  simp (maxDischargeDepth := 100) [State.bxLaunch, h]

@[simp] theorem Follows.bxSend {mw : Bool} {s0 : State} {s : State} {t : Nat} {m : RsigSend} (h : Follows mw .baxel s0 s) :
    Follows mw .baxel s0 (State.bxSend s t m) := by
  simp (maxDischargeDepth := 100) [State.bxSend, h]

@[simp] theorem Follows.pumpSends {mw : Bool} {s0 : State} {s : State} (h : Follows mw .baxel s0 s) : Follows mw .baxel s0
    (State.pumpSends s) := by
  simp (maxDischargeDepth := 100) [State.pumpSends, h]

@[simp] theorem Follows.resendOne {mw : Bool} {s0 : State} {s : State} {plane : Nat} {key : Nat} {x : Machine.SendTransfer}
    (h : Follows mw .baxel s0 s) : Follows mw .baxel s0 (State.resendOne s plane key x) := by
  simp only [State.resendOne]
  repeat' (first | (simp (maxDischargeDepth := 100) [h]; done) | refine Follows.foldl (fun _ _ => ?_) ?_ | split)

@[simp] theorem Follows.resendOpen {mw : Bool} {s0 : State} {s : State} {plane : Nat} (h : Follows mw .baxel s0 s) :
    Follows mw .baxel s0 (State.resendOpen s plane) := by
  simp (maxDischargeDepth := 100) [State.resendOpen, h]

@[simp] theorem Follows.modShard {mw : Bool} {s0 : State} {s : State} {key : Nat} {f : Machine.Shard → Machine.Shard} (h :
    Follows mw .kresia s0 s) : Follows mw .kresia s0 (State.modShard s key f) := by
  simp (maxDischargeDepth := 100) [State.modShard, h]

@[simp] theorem Follows.sealOutputs {mw : Bool} {s0 : State} {s : State} {d : Nat} {lastSealed : Nat} {g : Machine.Image}
    (h : Follows mw .kresia s0 s) : Follows mw .kresia s0 (State.sealOutputs s d lastSealed g) := by
  simp (maxDischargeDepth := 100) [State.sealOutputs, h]

@[simp] theorem Follows.allocShards {mw : Bool} {s0 : State} {s : State} {d : Nat} {g : Machine.Image} (h : Follows mw
    .kresia s0 s) : Follows mw .kresia s0 (State.allocShards s d g) := by
  simp (maxDischargeDepth := 100) [State.allocShards, h]

@[simp] theorem Follows.sendPieces {mw : Bool} {s0 : State} {s : State} {j : Machine.SendJob} (h : Follows mw .kresia s0 s)
    : Follows mw .kresia s0 (State.sendPieces s j) := by
  simp (maxDischargeDepth := 100) [State.sendPieces, h]

@[simp] theorem Follows.sendMirror {mw : Bool} {s0 : State} {s : State} {d : Nat} {g : Machine.Image} {c : Nat} {k : Nat}
    {step : Nat} {mode : Nat} {entry : Nat} (h : Follows mw .kresia s0 s) : Follows mw .kresia s0 (State.sendMirror s d g c k step mode entry) := by
  simp (maxDischargeDepth := 100) [State.sendMirror, h]

@[simp] theorem Follows.pumpFill {mw : Bool} {s0 : State} {s : State} {d : Nat} {c : Nat} (h : Follows mw .kresia s0 s) :
    Follows mw .kresia s0 (State.pumpFill s d c) := by
  simp only [State.pumpFill]
  repeat' (first | (simp (maxDischargeDepth := 100) [h]; done) | refine Follows.foldl (fun _ _ => ?_) ?_ | split)

@[simp] theorem Follows.adopt {mw : Bool} {s0 : State} {s : State} {d : Nat} {c : Nat} {k : Nat} (h : Follows mw .kresia s0
    s) : Follows mw .kresia s0 (State.adopt s d c k) := by
  simp (maxDischargeDepth := 100) [State.adopt, h]

@[simp] theorem Follows.adoptPart {mw : Bool} {s0 : State} {s : State} {d : Nat} {r : Nat} {j : Nat} {bytes : Nat} {part :
    Nat} (h : Follows mw .kresia s0 s) : Follows mw .kresia s0 (State.adoptPart s d r j bytes part) := by
  unfold State.adoptPart
  extract_lets mine m s1
  have hs1 : Follows mw .kresia s0 s1 := by
    simp only [s1]
    repeat' (first | (simp (maxDischargeDepth := 100) [h]; done) | refine Follows.foldl (fun _ _ => ?_) ?_ | split)
  repeat' (first | (simp (maxDischargeDepth := 100) [h, hs1]; done) | refine Follows.foldl (fun _ _ => ?_) ?_ | split)

@[simp] theorem Follows.commitMirror {mw : Bool} {s0 : State} {s : State} {g : Machine.Image} {q : Machine.Staged}
    {transfer : Nat} (h : Follows mw .kresia s0 s) : Follows mw .kresia s0 (State.commitMirror s g q transfer) := by
  simp (maxDischargeDepth := 100) [State.commitMirror, h]

@[simp] theorem Follows.mirrorLanded {mw : Bool} {s0 : State} {s : State} {x : Machine.Tracker} (h : Follows mw .kresia s0
    s) : Follows mw .kresia s0 (State.mirrorLanded s x) := by
  simp only [State.mirrorLanded]
  repeat' (first | (simp (maxDischargeDepth := 100) [h]; done) | refine Follows.foldl (fun _ _ => ?_) ?_ | split)

@[simp] theorem Follows.countSnap {mw : Bool} {s0 : State} {s : State} {p : Part} {bx : Nat} {ks : Nat} (h : Follows mw p
    s0 s) : Follows mw p s0 (State.countSnap s p bx ks) := by
  simp only [State.countSnap]
  repeat' (first | (simp (maxDischargeDepth := 100) [h]; done) | refine Follows.foldl (fun _ _ => ?_) ?_ | split)

@[simp] theorem Follows.capture {mw : Bool} {s0 : State} {s : State} {p : Part} {a : Machine.SnapArm} {edge : Raw} {late :
    Bool} (h : Follows mw p s0 s) : Follows mw p s0 (State.capture s p a edge late) := by
  simp only [State.capture]
  repeat' (first | (simp (maxDischargeDepth := 100) [h]; done) | refine Follows.foldl (fun _ _ => ?_) ?_ | split)

@[simp] theorem Follows.takeSnap {mw : Bool} {s0 : State} {s : State} {p : Part} {x : SnapMsg} {sels : List
    Machine.Selector} {tenant : Nat} (h : Follows mw p s0 s) : Follows mw p s0 (State.takeSnap s p x sels tenant) := by
  simp (maxDischargeDepth := 100) [State.takeSnap, h]

end Sys2Proof.Machine
end

