-- ==== Sys2Proof/Laws/FollowsKresia.lean ====
section
/-! SUPPORT. Operations of the body, block, chunk and dispatch engines: what each leaves alone. -/

namespace Sys2Proof.Machine

set_option linter.unusedTactic false
set_option linter.unreachableTactic false
set_option linter.unusedSimpArgs false

@[simp] theorem Follows.armWith {mw : Bool} {s0 : State} {s : State} {p : Part} {m : Nat} {k : Nat} {bs : List Byte} (h :
    Follows mw p s0 s) : Follows mw p s0 (State.armWith s p m k bs) := by
  simp only [State.armWith]
  repeat' (first | (simp (maxDischargeDepth := 100) [h]; done) | refine Follows.foldl (fun _ _ => ?_) ?_ | split)

@[simp] theorem Follows.modDspLeaf {mw : Bool} {s0 : State} {s : State} {d : Nat} {l : Nat} {step : Nat} {f :
    Machine.DspLeaf → Machine.DspLeaf} (h : Follows mw .kresia s0 s) : Follows mw .kresia s0 (State.modDspLeaf s d l step f) := by
  simp (maxDischargeDepth := 100) [State.modDspLeaf, h]

@[simp] theorem Follows.modDspHome {mw : Bool} {s0 : State} {s : State} {d : Nat} {l : Nat} {grp : Nat} {step : Nat} {f :
    Machine.DspHome → Machine.DspHome} (h : Follows mw .kresia s0 s) : Follows mw .kresia s0 (State.modDspHome s d l grp step f) := by
  simp (maxDischargeDepth := 100) [State.modDspHome, h]

@[simp] theorem Follows.markTokens {mw : Bool} {s0 : State} {s : State} (h : Follows mw .kresia s0 s) : Follows mw .kresia
    s0 (State.markTokens s) := by
  simp (maxDischargeDepth := 100) [State.markTokens, h]

@[simp] theorem Follows.dspStale {mw : Bool} {s0 : State} {s : State} (h : Follows mw .kresia s0 s) : Follows mw .kresia s0
    (State.dspStale s) := by
  simp (maxDischargeDepth := 100) [State.dspStale, h]

@[simp] theorem Follows.dspBad {mw : Bool} {s0 : State} {s : State} {d : Nat} {member : Nat} {step : Nat} {detail : Nat} (h
    : Follows mw .kresia s0 s) : Follows mw .kresia s0 (State.dspBad s d member step detail) := by
  simp (maxDischargeDepth := 100) [State.dspBad, h]

@[simp] theorem Follows.openDspLeaf {mw : Bool} {s0 : State} {s : State} {d : Nat} {l : Nat} {step : Nat} {entry : Nat} (h
    : Follows mw .kresia s0 s) : Follows mw .kresia s0 (State.openDspLeaf s d l step entry) := by
  simp (maxDischargeDepth := 100) [State.openDspLeaf, h]

@[simp] theorem Follows.issueDsp {mw : Bool} {s0 : State} {s : State} {d : Nat} {g : Machine.Image} {l : Nat} {step : Nat}
    {entry : Nat} (h : Follows mw .kresia s0 s) : Follows mw .kresia s0 (State.issueDsp s d g l step entry) := by
  simp (maxDischargeDepth := 100) [State.issueDsp, h]

@[simp] theorem Follows.takePlaces {mw : Bool} {s0 : State} {s : State} {p : DspPlacements} (h : Follows mw .kresia s0 s) :
    Follows mw .kresia s0 (State.takePlaces s p) := by
  simp only [State.takePlaces]
  repeat' (first | (simp (maxDischargeDepth := 100) [h]; done) | refine Follows.foldl (fun _ _ => ?_) ?_ | split)

@[simp] theorem Follows.sendPlaces {mw : Bool} {s0 : State} {s : State} {leaf : Nat} {p : DspPlacements} (h : Follows mw
    .kresia s0 s) : Follows mw .kresia s0 (State.sendPlaces s leaf p) := by
  simp (maxDischargeDepth := 100) [State.sendPlaces, h]

@[simp] theorem Follows.assign {mw : Bool} {s0 : State} {s : State} {h0_ : Machine.DspHome} {g : Machine.Image} {i : Nat}
    (h : Follows mw .kresia s0 s) : Follows mw .kresia s0 (State.assign s h0_ g i) := by
  unfold State.assign
  extract_lets d l x policy topk a norm weight skips source job jobs pieces leaves s1 s2 s3 s4
  have hs1 : Follows mw .kresia s0 s1 := by
    simp only [s1]
    repeat' (first | (simp (maxDischargeDepth := 100) [h]; done) | refine Follows.foldl (fun _ _ => ?_) ?_ | split)
  have hs2 : Follows mw .kresia s0 s2 := by
    simp only [s2]
    repeat' (first | (simp (maxDischargeDepth := 100) [h, hs1]; done) | refine Follows.foldl (fun _ _ => ?_) ?_ | split)
  have hs3 : Follows mw .kresia s0 s3 := by
    simp only [s3]
    repeat' (first | (simp (maxDischargeDepth := 100) [h, hs1, hs2]; done) | refine Follows.foldl (fun _ _ => ?_) ?_ | split)
  have hs4 : Follows mw .kresia s0 s4 := by
    simp only [s4]
    repeat' (first | (simp (maxDischargeDepth := 100) [h, hs1, hs2, hs3]; done) | refine Follows.foldl (fun _ _ => ?_) ?_ | split)
  repeat' (first | (simp (maxDischargeDepth := 100) [h, hs1, hs2, hs3, hs4]; done) | refine Follows.foldl (fun _ _ => ?_) ?_ | split)

@[simp] theorem Follows.toEngine {mw : Bool} {s0 : State} {s : State} {k : Machine.DspKey} (h : Follows mw .kresia s0 s) :
    Follows mw .kresia s0 (State.toEngine s k) := by
  simp only [State.toEngine]
  repeat' (first | (simp (maxDischargeDepth := 100) [h]; done) | refine Follows.foldl (fun _ _ => ?_) ?_ | split)

@[simp] theorem Follows.openDspHome {mw : Bool} {s0 : State} {s : State} {d : Nat} {l : Nat} {grp : Nat} {step : Nat} (h :
    Follows mw .kresia s0 s) : Follows mw .kresia s0 (State.openDspHome s d l grp step) := by
  simp (maxDischargeDepth := 100) [State.openDspHome, h]

@[simp] theorem Follows.takeList {mw : Bool} {s0 : State} {s : State} {x : DspPacket} {g : Machine.Image} (h : Follows mw
    .kresia s0 s) : Follows mw .kresia s0 (State.takeList s x g) := by
  simp only [State.takeList]
  repeat' (first | (simp (maxDischargeDepth := 100) [h]; done) | refine Follows.foldl (fun _ _ => ?_) ?_ | split)

@[simp] theorem Follows.toPlanHome {mw : Bool} {s0 : State} {s : State} {x : DspPacket} {g : Machine.Image} (h : Follows mw
    .kresia s0 s) : Follows mw .kresia s0 (State.toPlanHome s x g) := by
  simp (maxDischargeDepth := 100) [State.toPlanHome, h]

@[simp] theorem Follows.takeRecord {mw : Bool} {s0 : State} {s : State} {x : DspPacket} {g : Machine.Image} (h : Follows mw
    .kresia s0 s) : Follows mw .kresia s0 (State.takeRecord s x g) := by
  simp only [State.takeRecord]
  repeat' (first | (simp (maxDischargeDepth := 100) [h]; done) | refine Follows.foldl (fun _ _ => ?_) ?_ | split)

@[simp] theorem Follows.takePayload {mw : Bool} {s0 : State} {s : State} {x : DspPacket} {g : Machine.Image} {i : Nat} (h :
    Follows mw .kresia s0 s) : Follows mw .kresia s0 (State.takePayload s x g i) := by
  simp only [State.takePayload]
  repeat' (first | (simp (maxDischargeDepth := 100) [h]; done) | refine Follows.foldl (fun _ _ => ?_) ?_ | split)

@[simp] theorem Follows.dspLost {mw : Bool} {s0 : State} {s : State} {d : Nat} {l : Nat} {grp : Nat} {step : Nat} {g :
    Machine.Image} (h : Follows mw .kresia s0 s) : Follows mw .kresia s0 (State.dspLost s d l grp step g) := by
  simp only [State.dspLost]
  repeat' (first | (simp (maxDischargeDepth := 100) [h]; done) | refine Follows.foldl (fun _ _ => ?_) ?_ | split)

@[simp] theorem Follows.takeLost {mw : Bool} {s0 : State} {s : State} {n : DspNote} {g : Machine.Image} (h : Follows mw
    .kresia s0 s) : Follows mw .kresia s0 (State.takeLost s n g) := by
  simp (maxDischargeDepth := 100) [State.takeLost, h]

@[simp] theorem Follows.dspLeafGone {mw : Bool} {q : Part} {s0 : State} {s : State} {leaf : Nat} (h : Follows mw q s0 s) :
    Follows mw q s0 (State.dspLeafGone s leaf) := by
  simp (maxDischargeDepth := 100) [State.dspLeafGone, h]

@[simp] theorem Follows.dspV2Lost {mw : Bool} {q : Part} {s0 : State} {s : State} {member : Nat} (h : Follows mw q s0 s) :
    Follows mw q s0 (State.dspV2Lost s member) := by
  simp only [State.dspV2Lost]
  repeat' (first | (simp (maxDischargeDepth := 100) [h]; done) | refine Follows.foldl (fun _ _ => ?_) ?_ | split)

@[simp] theorem Follows.dspMoved {mw : Bool} {s0 : State} {s : State} {m : HomeMove} (h : Follows mw .kresia s0 s) :
    Follows mw .kresia s0 (State.dspMoved s m) := by
  simp (maxDischargeDepth := 100) [State.dspMoved, h]

@[simp] theorem Follows.modInst {mw : Bool} {s0 : State} {s : State} {d : Nat} {step : Nat} {f : Machine.Inst →
    Machine.Inst} (h : Follows mw .kresia s0 s) : Follows mw .kresia s0 (State.modInst s d step f) := by
  simp (maxDischargeDepth := 100) [State.modInst, h]

@[simp] theorem Follows.enqueueBlock {mw : Bool} {s0 : State} {s : State} {d : Nat} {g : Machine.Image} {c : Nat} {k : Nat}
    {step : Nat} (h : Follows mw .kresia s0 s) : Follows mw .kresia s0 (State.enqueueBlock s d g c k step) := by
  simp only [State.enqueueBlock]
  repeat' (first | (simp (maxDischargeDepth := 100) [h]; done) | refine Follows.foldl (fun _ _ => ?_) ?_ | split)

@[simp] theorem Follows.mirrorNow {mw : Bool} {s0 : State} {s : State} {d : Nat} {g : Machine.Image} {c : Nat} {k : Nat}
    {step : Nat} {mode : Nat} {entry : Nat} (h : Follows mw .kresia s0 s) : Follows mw .kresia s0 (State.mirrorNow s d g c k step mode entry) := by
  simp (maxDischargeDepth := 100) [State.mirrorNow, h]

@[simp] theorem Follows.ckptEnd {mw : Bool} {s0 : State} {s : State} {d : Nat} {c : Nat} {step : Nat} (h : Follows mw
    .kresia s0 s) : Follows mw .kresia s0 (State.ckptEnd s d c step) := by
  unfold State.ckptEnd
  extract_lets s1
  have hs1 : Follows mw .kresia s0 s1 := by
    simp only [s1]
    repeat' (first | (simp (maxDischargeDepth := 100) [h]; done) | refine Follows.foldl (fun _ _ => ?_) ?_ | split)
  repeat' (first | (simp (maxDischargeDepth := 100) [h, hs1]; done) | refine Follows.foldl (fun _ _ => ?_) ?_ | split)

@[simp] theorem Follows.pumpCkpt {mw : Bool} {s0 : State} {s : State} {q : Machine.Ckpt} (h : Follows mw .kresia s0 s) :
    Follows mw .kresia s0 (State.pumpCkpt s q) := by
  simp only [State.pumpCkpt]
  repeat' (first | (simp (maxDischargeDepth := 100) [h]; done) | refine Follows.foldl (fun _ _ => ?_) ?_ | split)

@[simp] theorem Follows.pumpCkpts {mw : Bool} {s0 : State} {s : State} {n : Nat} (h : Follows mw .kresia s0 s) : Follows mw
    .kresia s0 (s.pumpCkpts n) := by
  induction n generalizing s with
  | zero => simpa [State.pumpCkpts] using h
  | succ n ih =>
    unfold State.pumpCkpts
    repeat' (first | (simp (maxDischargeDepth := 100) [h]; done) | refine ih ?_ | split)

@[simp] theorem Follows.issueCkpt {mw : Bool} {s0 : State} {s : State} {d : Nat} {g : Machine.Image} {c : Nat} {step : Nat}
    {entry : Nat} (h : Follows mw .kresia s0 s) : Follows mw .kresia s0 (State.issueCkpt s d g c step entry) := by
  simp only [State.issueCkpt]
  repeat' (first | (simp (maxDischargeDepth := 100) [h]; done) | refine Follows.foldl (fun _ _ => ?_) ?_ | split)

@[simp] theorem Follows.endRange {mw : Bool} {s0 : State} {s : State} {m : Nat} {k : Nat} {a3 : Machine.ShardRange} (h :
    Follows mw .kresia s0 s) : Follows mw .kresia s0 (State.endRange s m k a3) := by
  simp only [State.endRange]
  repeat' (first | (simp (maxDischargeDepth := 100) [h]; done) | refine Follows.foldl (fun _ _ => ?_) ?_ | split)

@[simp] theorem Follows.shardRead {mw : Bool} {s0 : State} {s : State} {m : Nat} {k : Nat} {t : Machine.Taken} (h : Follows
    mw .kresia s0 s) : Follows mw .kresia s0 (State.shardRead s m k t) := by
  simp only [State.shardRead]
  repeat' (first | (simp (maxDischargeDepth := 100) [h]; done) | refine Follows.foldl (fun _ _ => ?_) ?_ | split)

@[simp] theorem Follows.pumpShardReads {mw : Bool} {s0 : State} {s : State} (h : Follows mw .kresia s0 s) : Follows mw
    .kresia s0 (State.pumpShardReads s) := by
  simp only [State.pumpShardReads]
  repeat' (first | (simp (maxDischargeDepth := 100) [h]; done) | refine Follows.foldl (fun _ _ => ?_) ?_ | split)

@[simp] theorem Follows.endFill {mw : Bool} {s0 : State} {s : State} {f : Machine.FillRun} (h : Follows mw .kresia s0 s) :
    Follows mw .kresia s0 (State.endFill s f) := by
  unfold State.endFill
  extract_lets s1
  have hs1 : Follows mw .kresia s0 s1 := by
    simp only [s1]
    repeat' (first | (simp (maxDischargeDepth := 100) [h]; done) | refine Follows.foldl (fun _ _ => ?_) ?_ | split)
  repeat' (first | (simp (maxDischargeDepth := 100) [h, hs1]; done) | refine Follows.foldl (fun _ _ => ?_) ?_ | split)

@[simp] theorem Follows.endFills {mw : Bool} {s0 : State} {s : State} {d : Nat} (h : Follows mw .kresia s0 s) : Follows mw
    .kresia s0 (State.endFills s d) := by
  simp (maxDischargeDepth := 100) [State.endFills, h]

@[simp] theorem Follows.storeCup {mw : Bool} {s0 : State} {s : State} {d : Nat} {r : Machine.CupRec} (h : Follows mw
    .kresia s0 s) : Follows mw .kresia s0 (State.storeCup s d r) := by
  unfold State.storeCup
  extract_lets x s1
  have hs1 : Follows mw .kresia s0 s1 := by
    simp only [s1]
    repeat' (first | (simp (maxDischargeDepth := 100) [h]; done) | refine Follows.foldl (fun _ _ => ?_) ?_ | split)
  repeat' (first | (simp (maxDischargeDepth := 100) [h, hs1]; done) | refine Follows.foldl (fun _ _ => ?_) ?_ | split)

@[simp] theorem Follows.tryCup {mw : Bool} {s0 : State} {s : State} {d : Nat} {step : Nat} (h : Follows mw .kresia s0 s) :
    Follows mw .kresia s0 (State.tryCup s d step) := by
  simp only [State.tryCup]
  repeat' (first | (simp (maxDischargeDepth := 100) [h]; done) | refine Follows.foldl (fun _ _ => ?_) ?_ | split)

@[simp] theorem Follows.setVarLast {mw : Bool} {s0 : State} {s : State} {d : Nat} {v : Nat} (h : Follows mw .kresia s0 s) :
    Follows mw .kresia s0 (State.setVarLast s d v) := by
  simp (maxDischargeDepth := 100) [State.setVarLast, h]

@[simp] theorem Follows.takePartial {mw : Bool} {s0 : State} {s : State} {m : CupPartial} (h : Follows mw .kresia s0 s) :
    Follows mw .kresia s0 (State.takePartial s m) := by
  simp (maxDischargeDepth := 100) [State.takePartial, h]

@[simp] theorem Follows.sealStep {mw : Bool} {s0 : State} {s : State} {d : Nat} {step : Nat} (h : Follows mw .kresia s0 s)
    : Follows mw .kresia s0 (State.sealStep s d step) := by
  unfold State.sealStep
  extract_lets x old g now r s1
  have hs1 : Follows mw .kresia s0 s1 := by
    simp only [s1]
    repeat' (first | (simp (maxDischargeDepth := 100) [h]; done) | refine Follows.foldl (fun _ _ => ?_) ?_ | split)
  repeat' (first | (simp (maxDischargeDepth := 100) [h, hs1]; done) | refine Follows.foldl (fun _ _ => ?_) ?_ | split)

@[simp] theorem Follows.sendPartial {mw : Bool} {s0 : State} {s : State} {d : Nat} {n : Machine.Inst} (h : Follows mw
    .kresia s0 s) : Follows mw .kresia s0 (State.sendPartial s d n) := by
  unfold State.sendPartial
  extract_lets x s1
  have hs1 : Follows mw .kresia s0 s1 := by
    simp only [s1]
    repeat' (first | (simp (maxDischargeDepth := 100) [h]; done) | refine Follows.foldl (fun _ _ => ?_) ?_ | split)
  repeat' (first | (simp (maxDischargeDepth := 100) [h, hs1]; done) | refine Follows.foldl (fun _ _ => ?_) ?_ | split)

@[simp] theorem Follows.startInst {mw : Bool} {s0 : State} {s : State} {d : Nat} {step : Nat} {epoch : Nat} {due : OT} (h :
    Follows mw .kresia s0 s) : Follows mw .kresia s0 (State.startInst s d step epoch due) := by
  simp only [State.startInst]
  repeat' (first | (simp (maxDischargeDepth := 100) [h]; done) | refine Follows.foldl (fun _ _ => ?_) ?_ | split)

@[simp] theorem Follows.progEnd {mw : Bool} {s0 : State} {s : State} {d : Nat} {m : Nat} {k : Nat} {code : Code} {result :
    optParam (List Byte) []} (h : Follows mw .kresia s0 s) : Follows mw .kresia s0 (State.progEnd s d m k code result) := by
  simp (maxDischargeDepth := 100) [State.progEnd, h]

@[simp] theorem Follows.freedBy {mw : Bool} {s0 : State} {s : State} {d : Nat} {node : Nat} (h : Follows mw .kresia s0 s) :
    Follows mw .kresia s0 (State.freedBy s d node) := by
  simp only [State.freedBy]
  repeat' (first | (simp (maxDischargeDepth := 100) [h]; done) | refine Follows.foldl (fun _ _ => ?_) ?_ | split)

@[simp] theorem Follows.endTakes {mw : Bool} {s0 : State} {s : State} {d : Nat} {f : Machine.Obj → Bool} (h : Follows mw
    .kresia s0 s) : Follows mw .kresia s0 (State.endTakes s d f) := by
  unfold State.endTakes
  extract_lets ws drop s1
  have hs1 : Follows mw .kresia s0 s1 := by
    simp only [s1]
    repeat' (first | (simp (maxDischargeDepth := 100) [h]; done) | refine Follows.foldl (fun _ _ => ?_) ?_ | split)
  repeat' (first | (simp (maxDischargeDepth := 100) [h, hs1]; done) | refine Follows.foldl (fun _ _ => ?_) ?_ | split)

@[simp] theorem Follows.freeProgram {mw : Bool} {s0 : State} {s : State} {d : Nat} (h : Follows mw .kresia s0 s) : Follows
    mw .kresia s0 (State.freeProgram s d) := by
  unfold State.freeProgram
  extract_lets s1 s2 s3
  have hs1 : Follows mw .kresia s0 s1 := by
    simp only [s1]
    repeat' (first | (simp (maxDischargeDepth := 100) [h]; done) | refine Follows.foldl (fun _ _ => ?_) ?_ | split)
  have hs2 : Follows mw .kresia s0 s2 := by
    simp only [s2]
    repeat' (first | (simp (maxDischargeDepth := 100) [h, hs1]; done) | refine Follows.foldl (fun _ _ => ?_) ?_ | split)
  have hs3 : Follows mw .kresia s0 s3 := by
    simp only [s3]
    repeat' (first | (simp (maxDischargeDepth := 100) [h, hs1, hs2]; done) | refine Follows.foldl (fun _ _ => ?_) ?_ | split)
  repeat' (first | (simp (maxDischargeDepth := 100) [h, hs1, hs2, hs3]; done) | refine Follows.foldl (fun _ _ => ?_) ?_ | split)

@[simp] theorem Follows.trimProgram {mw : Bool} {s0 : State} {s : State} {d : Nat} (h : Follows mw .kresia s0 s) : Follows
    mw .kresia s0 (State.trimProgram s d) := by
  simp only [State.trimProgram]
  repeat' (first | (simp (maxDischargeDepth := 100) [h]; done) | refine Follows.foldl (fun _ _ => ?_) ?_ | split)

@[simp] theorem Follows.afterInst {mw : Bool} {s0 : State} {was : State} {d : Nat} (h : Follows mw .kresia s0 was) :
    Follows mw .kresia s0 (State.afterInst was d) := by
  unfold State.afterInst
  extract_lets s x
  have hs : Follows mw .kresia s0 s := by
    simp only [s]
    repeat' (first | (simp (maxDischargeDepth := 100) [h]; done) | refine Follows.foldl (fun _ _ => ?_) ?_ | split)
  repeat' (first | (simp (maxDischargeDepth := 100) [h, hs]; done) | refine Follows.foldl (fun _ _ => ?_) ?_ | split)

@[simp] theorem Follows.closeInst {mw : Bool} {s0 : State} {s : State} {d : Nat} {step : Nat} (h : Follows mw .kresia s0 s)
    : Follows mw .kresia s0 (State.closeInst s d step) := by
  simp only [State.closeInst]
  repeat' (first | (simp (maxDischargeDepth := 100) [h]; done) | refine Follows.foldl (fun _ _ => ?_) ?_ | split)

@[simp] theorem Follows.endEntry {mw : Bool} {s0 : State} {s : State} {d : Nat} {step : Nat} {i : Nat} {act : Bool} (h :
    Follows mw .kresia s0 s) : Follows mw .kresia s0 (State.endEntry s d step i act) := by
  simp only [State.endEntry]
  repeat' (first | (simp (maxDischargeDepth := 100) [h]; done) | refine Follows.foldl (fun _ _ => ?_) ?_ | split)

@[simp] theorem Follows.runEntry {mw : Bool} {s0 : State} {s : State} {d : Nat} {step : Nat} {i : Nat} {n : Machine.Inst}
    (h : Follows mw .kresia s0 s) : Follows mw .kresia s0 (State.runEntry s d step i n) := by
  simp only [State.runEntry]
  repeat' (first | (simp (maxDischargeDepth := 100) [h]; done) | refine Follows.foldl (fun _ _ => ?_) ?_ | split)

@[simp] theorem Follows.issueEntry {mw : Bool} {s0 : State} {s : State} {d : Nat} {step : Nat} {i : Nat} (h : Follows mw
    .kresia s0 s) : Follows mw .kresia s0 (State.issueEntry s d step i).1 := by
  simp only [State.issueEntry]
  repeat' (first | (simp (maxDischargeDepth := 100) [h]; done) | refine Follows.foldl (fun _ _ => ?_) ?_ | split)

@[simp] theorem Follows.failOld {mw : Bool} {s0 : State} {s : State} {ix : Nat} {e : Machine.ChunkEntry} (h : Follows mw
    .kresia s0 s) : Follows mw .kresia s0 (State.failOld s ix e) := by
  simp (maxDischargeDepth := 100) [State.failOld, h]

@[simp] theorem Follows.endEpoch {mw : Bool} {s0 : State} {s : State} {d : Nat} {epoch : Nat} (h : Follows mw .kresia s0 s)
    : Follows mw .kresia s0 (State.endEpoch s d epoch) := by
  unfold State.endEpoch
  extract_lets s1 s2
  have hs1 : Follows mw .kresia s0 s1 := by
    simp only [s1]
    repeat' (first | (simp (maxDischargeDepth := 100) [h]; done) | refine Follows.foldl (fun _ _ => ?_) ?_ | split)
  have hs2 : Follows mw .kresia s0 s2 := by
    simp only [s2]
    repeat' (first | (simp (maxDischargeDepth := 100) [h, hs1]; done) | refine Follows.foldl (fun _ _ => ?_) ?_ | split)
  repeat' (first | (simp (maxDischargeDepth := 100) [h, hs1, hs2]; done) | refine Follows.foldl (fun _ _ => ?_) ?_ | split)

@[simp] theorem Follows.voidInst {mw : Bool} {s0 : State} {s : State} {d : Nat} {step : Nat} (h : Follows mw .kresia s0 s)
    : Follows mw .kresia s0 (State.voidInst s d step) := by
  unfold State.voidInst
  extract_lets open' mine s1 reset s2 tags s3 s4
  have hs1 : Follows mw .kresia s0 s1 := by
    simp only [s1]
    repeat' (first | (simp (maxDischargeDepth := 100) [h]; done) | refine Follows.foldl (fun _ _ => ?_) ?_ | split)
  have hs2 : Follows mw .kresia s0 s2 := by
    simp only [s2]
    repeat' (first | (simp (maxDischargeDepth := 100) [h, hs1]; done) | refine Follows.foldl (fun _ _ => ?_) ?_ | split)
  have hs3 : Follows mw .kresia s0 s3 := by
    simp only [s3]
    repeat' (first | (simp (maxDischargeDepth := 100) [h, hs1, hs2]; done) | refine Follows.foldl (fun _ _ => ?_) ?_ | split)
  have hs4 : Follows mw .kresia s0 s4 := by
    simp only [s4]
    repeat' (first | (simp (maxDischargeDepth := 100) [h, hs1, hs2, hs3]; done) | refine Follows.foldl (fun _ _ => ?_) ?_ | split)
  repeat' (first | (simp (maxDischargeDepth := 100) [h, hs1, hs2, hs3, hs4]; done) | refine Follows.foldl (fun _ _ => ?_) ?_ | split)

@[simp] theorem Follows.wide {mw : Bool} {s0 : State} {s : State} {a : Nat} {n : Nat} (h : Follows mw .kresia s0 s) :
    Follows mw .kresia s0 (State.wide s a n) := by
  simp (maxDischargeDepth := 100) [State.wide, h]

@[simp] theorem Follows.failChunk {mw : Bool} {s0 : State} {s : State} {ix : Nat} {code : Code} (h : Follows mw .kresia s0
    s) : Follows mw .kresia s0 (State.failChunk s ix code) := by
  simp only [State.failChunk]
  repeat' (first | (simp (maxDischargeDepth := 100) [h]; done) | refine Follows.foldl (fun _ _ => ?_) ?_ | split)

@[simp] theorem Follows.partBad {mw : Bool} {s0 : State} {s : State} {ix : Option Nat} {d : Nat} {step : Nat} {sender :
    Nat} {port : Nat} (h : Follows mw .kresia s0 s) : Follows mw .kresia s0 (State.partBad s ix d step sender port) := by
  unfold State.partBad
  extract_lets s1
  have hs1 : Follows mw .kresia s0 s1 := by
    simp only [s1]
    repeat' (first | (simp (maxDischargeDepth := 100) [h]; done) | refine Follows.foldl (fun _ _ => ?_) ?_ | split)
  repeat' (first | (simp (maxDischargeDepth := 100) [h, hs1]; done) | refine Follows.foldl (fun _ _ => ?_) ?_ | split)

@[simp] theorem Follows.sliverBad {mw : Bool} {s0 : State} {s : State} {ix : Nat} {d : Nat} {sender : Nat} {port : Nat}
    {cause : Nat} (h : Follows mw .kresia s0 s) : Follows mw .kresia s0 (State.sliverBad s ix d sender port cause) := by
  simp (maxDischargeDepth := 100) [State.sliverBad, h]

@[simp] theorem Follows.sendResult {mw : Bool} {s0 : State} {s : State} {d : Nat} {g : Machine.Image} {c : Nat} {k : Nat}
    {step : Nat} {bs : List Byte} (h : Follows mw .kresia s0 s) : Follows mw .kresia s0 (State.sendResult s d g c k step bs) := by
  unfold State.sendResult
  extract_lets x s1
  have hs1 : Follows mw .kresia s0 s1 := by
    simp only [s1]
    repeat' (first | (simp (maxDischargeDepth := 100) [h]; done) | refine Follows.foldl (fun _ _ => ?_) ?_ | split)
  repeat' (first | (simp (maxDischargeDepth := 100) [h, hs1]; done) | refine Follows.foldl (fun _ _ => ?_) ?_ | split)

@[simp] theorem Follows.finishHome {mw : Bool} {s0 : State} {s : State} {ix : Nat} {e : Machine.ChunkEntry} {g :
    Machine.Image} {bs : List Byte} {items : List (Nat × Nat)} (h : Follows mw .kresia s0 s) : Follows mw .kresia s0 (State.finishHome s ix e g bs items) := by
  unfold State.finishHome
  extract_lets d s1 s2 s3
  have hs1 : Follows mw .kresia s0 s1 := by
    simp only [s1]
    repeat' (first | (simp (maxDischargeDepth := 100) [h]; done) | refine Follows.foldl (fun _ _ => ?_) ?_ | split)
  have hs2 : Follows mw .kresia s0 s2 := by
    simp only [s2]
    repeat' (first | (simp (maxDischargeDepth := 100) [h, hs1]; done) | refine Follows.foldl (fun _ _ => ?_) ?_ | split)
  have hs3 : Follows mw .kresia s0 s3 := by
    simp only [s3]
    repeat' (first | (simp (maxDischargeDepth := 100) [h, hs1, hs2]; done) | refine Follows.foldl (fun _ _ => ?_) ?_ | split)
  repeat' (first | (simp (maxDischargeDepth := 100) [h, hs1, hs2, hs3]; done) | refine Follows.foldl (fun _ _ => ?_) ?_ | split)

@[simp] theorem Follows.replayResult {mw : Bool} {s0 : State} {s : State} {d : Nat} {g : Machine.Image} {c : Nat} {k : Nat}
    {step : Nat} (h : Follows mw .kresia s0 s) : Follows mw .kresia s0 (State.replayResult s d g c k step) := by
  simp only [State.replayResult]
  repeat' (first | (simp (maxDischargeDepth := 100) [h]; done) | refine Follows.foldl (fun _ _ => ?_) ?_ | split)

@[simp] theorem Follows.toHome {mw : Bool} {s0 : State} {s : State} {ix : Nat} {g : Machine.Image} {e : Machine.ChunkEntry}
    {ps : List ChunkPacket} (h : Follows mw .kresia s0 s) : Follows mw .kresia s0 (State.toHome s ix g e ps) := by
  simp only [State.toHome]
  repeat' (first | (simp (maxDischargeDepth := 100) [h]; done) | refine Follows.foldl (fun _ _ => ?_) ?_ | split)

@[simp] theorem Follows.closeLeaf {mw : Bool} {s0 : State} {s : State} {ix : Nat} {g : Machine.Image} (h : Follows mw
    .kresia s0 s) : Follows mw .kresia s0 (State.closeLeaf s ix g) := by
  simp only [State.closeLeaf]
  repeat' (first | (simp (maxDischargeDepth := 100) [h]; done) | refine Follows.foldl (fun _ _ => ?_) ?_ | split)

@[simp] theorem Follows.commitLeaf {mw : Bool} {s0 : State} {s : State} {ix : Nat} {g : Machine.Image} {e :
    Machine.ChunkEntry} (h : Follows mw .kresia s0 s) : Follows mw .kresia s0 (State.commitLeaf s ix g e) := by
  unfold State.commitLeaf
  extract_lets cov s1
  have hs1 : Follows mw .kresia s0 s1 := by
    simp only [s1]
    repeat' (first | (simp (maxDischargeDepth := 100) [h]; done) | refine Follows.foldl (fun _ _ => ?_) ?_ | split)
  repeat' (first | (simp (maxDischargeDepth := 100) [h, hs1]; done) | refine Follows.foldl (fun _ _ => ?_) ?_ | split)

@[simp] theorem Follows.commitHome {mw : Bool} {s0 : State} {s : State} {ix : Nat} {g : Machine.Image} {e :
    Machine.ChunkEntry} (h : Follows mw .kresia s0 s) : Follows mw .kresia s0 (State.commitHome s ix g e) := by
  simp (maxDischargeDepth := 100) [State.commitHome, h]

@[simp] theorem Follows.tryCommit {mw : Bool} {s0 : State} {s : State} {ix : Nat} {g : Machine.Image} (h : Follows mw
    .kresia s0 s) : Follows mw .kresia s0 (State.tryCommit s ix g) := by
  simp only [State.tryCommit]
  repeat' (first | (simp (maxDischargeDepth := 100) [h]; done) | refine Follows.foldl (fun _ _ => ?_) ?_ | split)

@[simp] theorem Follows.restartChunk {mw : Bool} {s0 : State} {s : State} {ix : Nat} {g : Machine.Image} {lost : Nat} (h :
    Follows mw .kresia s0 s) : Follows mw .kresia s0 (State.restartChunk s ix g lost) := by
  simp only [State.restartChunk]
  repeat' (first | (simp (maxDischargeDepth := 100) [h]; done) | refine Follows.foldl (fun _ _ => ?_) ?_ | split)

@[simp] theorem Follows.failNote {mw : Bool} {q : Part} {s0 : State} {s : State} {g : Machine.Image} {d : Nat} {c : Nat} {k
    : Nat} {step : Nat} {restart : Nat} {lost : Nat} (h : Follows mw q s0 s) : Follows mw q s0 (State.failNote s g d c k step restart lost) := by
  simp (maxDischargeDepth := 100) [State.failNote, h]

@[simp] theorem Follows.leafFail {mw : Bool} {q : Part} {s0 : State} {s : State} {g : Machine.Image} {e :
    Machine.ChunkEntry} {lost : Nat} (h : Follows mw q s0 s) : Follows mw q s0 (State.leafFail s g e lost) := by
  simp (maxDischargeDepth := 100) [State.leafFail, h]

@[simp] theorem Follows.v2LostIn {mw : Bool} {q : Part} {s0 : State} {s : State} {d : Nat} {i : Nat} {lost : Nat} {n :
    Machine.Inst} (h : Follows mw q s0 s) : Follows mw q s0 (State.v2LostIn s d i lost n) := by
  simp (maxDischargeDepth := 100) [State.v2LostIn, h]

@[simp] theorem Follows.v2Lost {mw : Bool} {q : Part} {s0 : State} {s : State} {member : Nat} (h : Follows mw q s0 s) :
    Follows mw q s0 (State.v2Lost s member) := by
  simp only [State.v2Lost]
  repeat' (first | (simp (maxDischargeDepth := 100) [h]; done) | refine Follows.foldl (fun _ _ => ?_) ?_ | split)

@[simp] theorem Follows.passOn {mw : Bool} {s0 : State} {s : State} {ix : Nat} {g : Machine.Image} {e : Machine.ChunkEntry}
    {port : Nat} {k : ChunkPacket} (h : Follows mw .kresia s0 s) : Follows mw .kresia s0 (State.passOn s ix g e port k) := by
  unfold State.passOn
  extract_lets s1
  have hs1 : Follows mw .kresia s0 s1 := by
    simp only [s1]
    repeat' (first | (simp (maxDischargeDepth := 100) [h]; done) | refine Follows.foldl (fun _ _ => ?_) ?_ | split)
  repeat' (first | (simp (maxDischargeDepth := 100) [h, hs1]; done) | refine Follows.foldl (fun _ _ => ?_) ?_ | split)

@[simp] theorem Follows.takeHeader {mw : Bool} {s0 : State} {s : State} {ix : Nat} {g : Machine.Image} {e :
    Machine.ChunkEntry} {port : Nat} {k : ChunkPacket} (h : Follows mw .kresia s0 s) : Follows mw .kresia s0 (State.takeHeader s ix g e port k) := by
  unfold State.takeHeader
  repeat' (first | contradiction | (simp (maxDischargeDepth := 100) [*]; done) | refine Follows.foldl (fun _ _ => ?_) ?_ | split)

@[simp] theorem Follows.takeData {mw : Bool} {s0 : State} {s : State} {ix : Nat} {g : Machine.Image} {e :
    Machine.ChunkEntry} {port : Nat} {k : ChunkPacket} (h : Follows mw .kresia s0 s) : Follows mw .kresia s0 (State.takeData s ix g e port k) := by
  simp only [State.takeData]
  repeat' (first | (simp (maxDischargeDepth := 100) [h]; done) | refine Follows.foldl (fun _ _ => ?_) ?_ | split)

@[simp] theorem Follows.atEntry {mw : Bool} {s0 : State} {s : State} {ix : Nat} {g : Machine.Image} {e0 :
    Machine.ChunkEntry} {port : Nat} {k : ChunkPacket} (h : Follows mw .kresia s0 s) : Follows mw .kresia s0 (State.atEntry s ix g e0 port k) := by
  simp only [State.atEntry]
  repeat' (first | (simp (maxDischargeDepth := 100) [h]; done) | refine Follows.foldl (fun _ _ => ?_) ?_ | split)

@[simp] theorem Follows.ownPacket {mw : Bool} {s0 : State} {s : State} {g : Machine.Image} {step : Nat} {home : Bool} {port
    : Nat} {k : ChunkPacket} (h : Follows mw .kresia s0 s) : Follows mw .kresia s0 (State.ownPacket s g step home port k) := by
  simp only [State.ownPacket]
  repeat' (first | (simp (maxDischargeDepth := 100) [h]; done) | refine Follows.foldl (fun _ _ => ?_) ?_ | split)

@[simp] theorem Follows.newerEpoch {mw : Bool} {s0 : State} {s : State} {d : Nat} {epoch : Nat} {step : Nat} (h : Follows
    mw .kresia s0 s) : Follows mw .kresia s0 (State.newerEpoch s d epoch step) := by
  simp (maxDischargeDepth := 100) [State.newerEpoch, h]

@[simp] theorem Follows.chunkPacket {mw : Bool} {s0 : State} {s : State} {port : Nat} {k : ChunkPacket} (h : Follows mw
    .kresia s0 s) : Follows mw .kresia s0 (State.chunkPacket s port k) := by
  simp only [State.chunkPacket]
  repeat' (first | (simp (maxDischargeDepth := 100) [h]; done) | refine Follows.foldl (fun _ _ => ?_) ?_ | split)

@[simp] theorem Follows.chunkPortLeft {mw : Bool} {s0 : State} {s : State} {port : Nat} (h : Follows mw .kresia s0 s) :
    Follows mw .kresia s0 (State.chunkPortLeft s port) := by
  simp only [State.chunkPortLeft]
  repeat' (first | (simp (maxDischargeDepth := 100) [h]; done) | refine Follows.foldl (fun _ _ => ?_) ?_ | split)

@[simp] theorem Follows.sendPart {mw : Bool} {s0 : State} {s : State} {id : Nat} {x : Machine.BxPart} {bs : List Byte} (h :
    Follows mw .baxel s0 s) : Follows mw .baxel s0 (State.sendPart s id x bs) := by
  simp only [State.sendPart]
  repeat' (first | (simp (maxDischargeDepth := 100) [h]; done) | refine Follows.foldl (fun _ _ => ?_) ?_ | split)

@[simp] theorem Follows.sendReady {mw : Bool} {s0 : State} {s : State} (h : Follows mw .baxel s0 s) : Follows mw .baxel s0
    (State.sendReady s) := by
  simp only [State.sendReady]
  repeat' (first | (simp (maxDischargeDepth := 100) [h]; done) | refine Follows.foldl (fun _ _ => ?_) ?_ | split)

@[simp] theorem Follows.readPart {mw : Bool} {s0 : State} {s : State} {id : Nat} {x : Machine.BxPart} (h : Follows mw
    .baxel s0 s) : Follows mw .baxel s0 (State.readPart s id x) := by
  simp (maxDischargeDepth := 100) [State.readPart, h]

@[simp] theorem Follows.serveQueue {mw : Bool} {s0 : State} {s : State} {t : Nat} {plane : Nat} {c : Nat} (h : Follows mw
    .baxel s0 s) : Follows mw .baxel s0 (State.serveQueue s t plane c).1 := by
  simp only [State.serveQueue]
  repeat' (first | (simp (maxDischargeDepth := 100) [h]; done) | refine Follows.foldl (fun _ _ => ?_) ?_ | split)

@[simp] theorem Follows.serveRound {mw : Bool} {s0 : State} {s : State} {n : Nat} (h : Follows mw .baxel s0 s) : Follows mw
    .baxel s0 (s.serveRound n) := by
  induction n generalizing s with
  | zero => simpa [State.serveRound] using h
  | succ n ih =>
    have hf : ∀ (l : List (Nat × Nat × Nat)) (a : State × Bool), Follows mw .baxel s0 a.1 → Follows mw .baxel s0 (l.foldl (fun (s, any) (t, pl, c) => let (s', did) := s.serveQueue t pl c; (s', any || did)) a).1 :=
      fun l a ha => Follows.foldl_fst (fun _ _ => by simp) ha
    have := hf ((List.range 4).flatMap fun t => (((s.ten t).posts.map (·.coll)).eraseDups).flatMap fun c => (List.range 8).map fun pl => (t, pl, c)) (s, false) h
    unfold State.serveRound
    dsimp only at this ⊢
    split
    exact ih this
    exact this

@[simp] theorem Follows.pumpParts {mw : Bool} {s0 : State} {s : State} (h : Follows mw .baxel s0 s) : Follows mw .baxel s0
    (State.pumpParts s) := by
  unfold State.pumpParts
  extract_lets s1
  have hs1 : Follows mw .baxel s0 s1 := by
    simp only [s1]
    repeat' (first | (simp (maxDischargeDepth := 100) [h]; done) | refine Follows.foldl (fun _ _ => ?_) ?_ | split)
  repeat' (first | (simp (maxDischargeDepth := 100) [h, hs1]; done) | refine Follows.foldl (fun _ _ => ?_) ?_ | split)

@[simp] theorem Follows.post {mw : Bool} {s0 : State} {s : State} {t : Nat} {coll : Nat} {first : Nat} {count : Nat} {addr
    : Nat} {entries : Nat} (h : Follows mw .baxel s0 s) : Follows mw .baxel s0 (State.post s t coll first count addr entries) := by
  simp (maxDischargeDepth := 100) [State.post, h]

@[simp] theorem Follows.countReleased {mw : Bool} {s0 : State} {s : State} {x : Machine.BxPart} (h : Follows mw .baxel s0
    s) : Follows mw .baxel s0 (State.countReleased s x) := by
  unfold State.countReleased
  extract_lets s1
  have hs1 : Follows mw .baxel s0 s1 := by
    simp only [s1]
    repeat' (first | (simp (maxDischargeDepth := 100) [h]; done) | refine Follows.foldl (fun _ _ => ?_) ?_ | split)
  repeat' (first | (simp (maxDischargeDepth := 100) [h, hs1]; done) | refine Follows.foldl (fun _ _ => ?_) ?_ | split)

@[simp] theorem Follows.releaseParts {mw : Bool} {s0 : State} {s : State} {d : Nat} {step : Nat} {c : Nat} {k : Nat} (h :
    Follows mw .baxel s0 s) : Follows mw .baxel s0 (State.releaseParts s d step c k) := by
  unfold State.releaseParts
  extract_lets is gone s1
  have hs1 : Follows mw .baxel s0 s1 := by
    simp only [s1]
    repeat' (first | (simp (maxDischargeDepth := 100) [h]; done) | refine Follows.foldl (fun _ _ => ?_) ?_ | split)
  repeat' (first | (simp (maxDischargeDepth := 100) [h, hs1]; done) | refine Follows.foldl (fun _ _ => ?_) ?_ | split)

@[simp] theorem Follows.resendParts {mw : Bool} {s0 : State} {s : State} {p : Machine.BxPart → Bool} {restart : Option Nat}
    (h : Follows mw .baxel s0 s) : Follows mw .baxel s0 (State.resendParts s p restart) := by
  simp (maxDischargeDepth := 100) [State.resendParts, h]

@[simp] theorem Follows.partPortLeft {mw : Bool} {s0 : State} {s : State} {plane : Nat} (h : Follows mw .baxel s0 s) :
    Follows mw .baxel s0 (State.partPortLeft s plane) := by
  simp (maxDischargeDepth := 100) [State.partPortLeft, h]

@[simp] theorem Follows.sendDsp {mw : Bool} {q : Part} {s0 : State} {s : State} {g : Machine.Image} {x : DspPacket} (h :
    Follows mw q s0 s) : Follows mw q s0 (State.sendDsp s g x) := by
  simp only [State.sendDsp]
  repeat' (first | (simp (maxDischargeDepth := 100) [h]; done) | refine Follows.foldl (fun _ _ => ?_) ?_ | split)

@[simp] theorem Follows.modDspPost {mw : Bool} {s0 : State} {s : State} {t : Nat} {l : Nat} {step : Nat} {epoch : Nat} {f :
    Machine.DspPost → Machine.DspPost} (h : Follows mw .baxel s0 s) : Follows mw .baxel s0 (State.modDspPost s t l step epoch f) := by
  simp (maxDischargeDepth := 100) [State.modDspPost, h]

@[simp] theorem Follows.sendList {mw : Bool} {s0 : State} {s : State} {t : Nat} {g : Machine.Image} {p : Machine.DspPost}
    {recs : List Byte} (h : Follows mw .baxel s0 s) : Follows mw .baxel s0 (State.sendList s t g p recs) := by
  unfold State.sendList
  extract_lets x w base s1 s2
  have hs1 : Follows mw .baxel s0 s1 := by
    simp only [s1]
    repeat' (first | (simp (maxDischargeDepth := 100) [h]; done) | refine Follows.foldl (fun _ _ => ?_) ?_ | split)
  have hs2 : Follows mw .baxel s0 s2 := by
    simp only [s2]
    repeat' (first | (simp (maxDischargeDepth := 100) [h, hs1]; done) | refine Follows.foldl (fun _ _ => ?_) ?_ | split)
  repeat' (first | (simp (maxDischargeDepth := 100) [h, hs1, hs2]; done) | refine Follows.foldl (fun _ _ => ?_) ?_ | split)

@[simp] theorem Follows.beginPost {mw : Bool} {s0 : State} {s : State} {t : Nat} {p : Machine.DspPost} (h : Follows mw
    .baxel s0 s) : Follows mw .baxel s0 (State.beginPost s t p) := by
  simp (maxDischargeDepth := 100) [State.beginPost, h]

@[simp] theorem Follows.dspPortLeft {mw : Bool} {s0 : State} {s : State} {plane : Nat} (h : Follows mw .baxel s0 s) :
    Follows mw .baxel s0 (State.dspPortLeft s plane) := by
  simp only [State.dspPortLeft]
  repeat' (first | (simp (maxDischargeDepth := 100) [h]; done) | refine Follows.foldl (fun _ _ => ?_) ?_ | split)

@[simp] theorem Follows.resendLists {mw : Bool} {s0 : State} {s : State} {t : Nat} {m : HomeMove} (h : Follows mw .baxel s0
    s) : Follows mw .baxel s0 (State.resendLists s t m) := by
  simp (maxDischargeDepth := 100) [State.resendLists, h]

@[simp] theorem Follows.returnLayer {mw : Bool} {s0 : State} {s : State} {t : Nat} {l : Nat} (h : Follows mw .baxel s0 s) :
    Follows mw .baxel s0 (State.returnLayer s t l) := by
  simp (maxDischargeDepth := 100) [State.returnLayer, h]

@[simp] theorem Follows.readSlots {mw : Bool} {s0 : State} {s : State} {t : Nat} {l : Nat} {grp : Nat} {step : Nat} {epoch
    : Nat} {bs : List Byte} (h : Follows mw .baxel s0 s) : Follows mw .baxel s0 (State.readSlots s t l grp step epoch bs) := by
  simp (maxDischargeDepth := 100) [State.readSlots, h]

@[simp] theorem Follows.readDone {mw : Bool} {s0 : State} {s : State} {j : Machine.ReadJob} (h : Follows mw .baxel s0 s) :
    Follows mw .baxel s0 (State.readDone s j) := by
  simp only [State.readDone]
  repeat' (first | (simp (maxDischargeDepth := 100) [h]; done) | refine Follows.foldl (fun _ _ => ?_) ?_ | split)

@[simp] theorem Follows.readFailed {mw : Bool} {s0 : State} {s : State} {j : Machine.ReadJob} (h : Follows mw .baxel s0 s)
    : Follows mw .baxel s0 (State.readFailed s j) := by
  simp only [State.readFailed]
  repeat' (first | (simp (maxDischargeDepth := 100) [h]; done) | refine Follows.foldl (fun _ _ => ?_) ?_ | split)

@[simp] theorem Follows.lineCame {mw : Bool} {s0 : State} {s : State} {id : Nat} {line : Nat} {data : List Byte} {err :
    Bool} (h : Follows mw .baxel s0 s) : Follows mw .baxel s0 (State.lineCame s id line data err) := by
  simp only [State.lineCame]
  repeat' (first | (simp (maxDischargeDepth := 100) [h]; done) | refine Follows.foldl (fun _ _ => ?_) ?_ | split)

@[simp] theorem Follows.resendTo {mw : Bool} {s0 : State} {s : State} {member : Nat} {plane : Nat} (h : Follows mw .kresia
    s0 s) : Follows mw .kresia s0 (State.resendTo s member plane) := by
  simp only [State.resendTo]
  repeat' (first | (simp (maxDischargeDepth := 100) [h]; done) | refine Follows.foldl (fun _ _ => ?_) ?_ | split)

@[simp] theorem Follows.noteV2Lost {mw : Bool} {s0 : State} {s : State} {member : Nat} (h : Follows mw .kresia s0 s) :
    Follows mw .kresia s0 (State.noteV2Lost s member) := by
  simp (maxDischargeDepth := 100) [State.noteV2Lost, h]

@[simp] theorem Follows.afterPortKs {mw : Bool} {s0 : State} {s : State} {n : Nat} {c : Option Caps} (h : Follows mw
    .kresia s0 s) : Follows mw .kresia s0 (State.afterPortKs s n c) := by
  simp only [State.afterPortKs]
  repeat' (first | (simp (maxDischargeDepth := 100) [h]; done) | refine Follows.foldl (fun _ _ => ?_) ?_ | split)

@[simp] theorem Follows.afterPortBx {mw : Bool} {s0 : State} {s : State} {c : Option Caps} (h : Follows mw .baxel s0 s) :
    Follows mw .baxel s0 (State.afterPortBx s c) := by
  simp only [State.afterPortBx]
  repeat' (first | (simp (maxDischargeDepth := 100) [h]; done) | refine Follows.foldl (fun _ _ => ?_) ?_ | split)

@[simp] theorem Follows.afterPort {mw : Bool} {s0 : State} {s : State} {p : Part} {n : Nat} {c : Option Caps} (h : Follows
    mw p s0 s) : Follows mw p s0 (State.afterPort s p n c) := by
  simp only [State.afterPort]
  repeat' (first | (simp (maxDischargeDepth := 100) [h]; done) | refine Follows.foldl (fun _ _ => ?_) ?_ | split)

@[simp] theorem Follows.portGone {mw : Bool} {s0 : State} {s : State} {p : Part} {n : Nat} {code : Code} (h : Follows mw p
    s0 s) : Follows mw p s0 (State.portGone s p n code) := by
  simp (maxDischargeDepth := 100) [State.portGone, h]

end Sys2Proof.Machine
end

