-- ==== Sys2Proof/Laws/FollowsLink.lean ====
section
/-! SUPPORT. Operations of the links, gates, the crown and the signalled transfers: what each leaves alone. -/

namespace Sys2Proof.Machine

set_option linter.unusedTactic false
set_option linter.unreachableTactic false
set_option linter.unusedSimpArgs false

@[simp] theorem Follows.gateRefusal {mw : Bool} {s0 : State} {s : State} {p : Part} {n : Nat} {src : PacketSource} {q :
    Machine.QEntry} {code : Code} (h : Follows mw p s0 s) : Follows mw p s0 (State.gateRefusal s p n src q code) := by
  simp only [State.gateRefusal]
  repeat' (first | (simp (maxDischargeDepth := 100) [h]; done) | refine Follows.foldl (fun _ _ => ?_) ?_ | split)

@[simp] theorem Answers.execPacketEnqueue {mw : Bool} {s0 : State} {p : Part} {port : Nat} {src : PacketSource} {x :
    Packet} {s : State} (h : Follows mw p s0 s) : Answers mw p s0 (Machine.execPacketEnqueue p port src x s) := by
  simp only [Machine.execPacketEnqueue]
  repeat' (first | (simp (maxDischargeDepth := 100) [h]; done) | refine Follows.foldl (fun _ _ => ?_) ?_ | split)

@[simp] theorem Follows.countHolds {mw : Bool} {s0 : State} {s : State} {p : Part} {n : Nat} (h : Follows mw p s0 s) :
    Follows mw p s0 (State.countHolds s p n) := by
  simp only [State.countHolds]
  repeat' (first | (simp (maxDischargeDepth := 100) [h]; done) | refine Follows.foldl (fun _ _ => ?_) ?_ | split)

@[simp] theorem Follows.wireBusy {mw : Bool} {s0 : State} {s : State} {p : Part} {n : Nat} {x : Packet} {c : Option Nat} (h
    : Follows mw p s0 s) : Follows mw p s0 (State.wireBusy s p n x c) := by
  simp (maxDischargeDepth := 100) [State.wireBusy, h]

@[simp] theorem Follows.startNew {mw : Bool} {s0 : State} {s : State} {p : Part} {n : Nat} {c : Nat} {d : FMap Nat} (h :
    Follows mw p s0 s) : Follows mw p s0 (State.startNew s p n c d) := by
  simp only [State.startNew]
  repeat' (first | (simp (maxDischargeDepth := 100) [h]; done) | refine Follows.foldl (fun _ _ => ?_) ?_ | split)

@[simp] theorem Follows.startResend {mw : Bool} {s0 : State} {s : State} {p : Part} {n : Nat} (h : Follows mw p s0 s) :
    Follows mw p s0 (State.startResend s p n) := by
  simp only [State.startResend]
  repeat' (first | (simp (maxDischargeDepth := 100) [h]; done) | refine Follows.foldl (fun _ _ => ?_) ?_ | split)

@[simp] theorem Follows.boundary {mw : Bool} {s0 : State} {s : State} {p : Part} {n : Nat} (h : Follows mw p s0 s) :
    Follows mw p s0 (State.boundary s p n) := by
  simp only [State.boundary]
  repeat' (first | (simp (maxDischargeDepth := 100) [h]; done) | refine Follows.foldl (fun _ _ => ?_) ?_ | split)

@[simp] theorem Answers.execPacketBoundary {mw : Bool} {s0 : State} {p : Part} {port : Nat} {s : State} (h : Follows mw p
    s0 s) : Answers mw p s0 (Machine.execPacketBoundary p port s) := by
  simp (maxDischargeDepth := 100) [Machine.execPacketBoundary, h]

@[simp] theorem Answers.execShaperCreditRecovered {mw : Bool} {s0 : State} {p : Part} {port : Nat} {cls : Nat} {s : State}
    (h : Follows mw p s0 s) : Answers mw p s0 (Machine.execShaperCreditRecovered p port cls s) := by
  simp (maxDischargeDepth := 100) [Machine.execShaperCreditRecovered, h]

@[simp] theorem Follows.sendNak {mw : Bool} {s0 : State} {s : State} {p : Part} {n : Nat} (h : Follows mw p s0 s) : Follows
    mw p s0 (State.sendNak s p n) := by
  unfold State.sendNak
  extract_lets x k s1
  have hs1 : Follows mw p s0 s1 := by
    simp only [s1]
    repeat' (first | (simp (maxDischargeDepth := 100) [h]; done) | refine Follows.foldl (fun _ _ => ?_) ?_ | split)
  repeat' (first | (simp (maxDischargeDepth := 100) [h, hs1]; done) | refine Follows.foldl (fun _ _ => ?_) ?_ | split)

@[simp] theorem Follows.lineError {mw : Bool} {s0 : State} {s : State} {p : Part} {n : Nat} {x : RxPacket} (h : Follows mw
    p s0 s) : Follows mw p s0 (State.lineError s p n x) := by
  simp (maxDischargeDepth := 100) [State.lineError, h]

@[simp] theorem Follows.acceptPkt {mw : Bool} {s0 : State} {s : State} {p : Part} {n : Nat} {x : RxPacket} {onFloor : Bool}
    (h : Follows mw p s0 s) : Follows mw p s0 (State.acceptPkt s p n x onFloor) := by
  cases p
  all_goals
    unfold State.acceptPkt
    dsimp only
    repeat' (first | contradiction | (simp (maxDischargeDepth := 100) [h]; done) | refine Follows.foldl (fun _ _ => ?_) ?_ | split)

@[simp] theorem Answers.execPacketRx {mw : Bool} {s0 : State} {p : Part} {port : Nat} {x : RxPacket} {s : State} (h :
    Follows mw p s0 s) : Answers mw p s0 (Machine.execPacketRx p port x s) := by
  simp (maxDischargeDepth := 100) [Machine.execPacketRx, h]

@[simp] theorem Follows.takeHead {mw : Bool} {s0 : State} {s : State} {p : Part} {n : Nat} {h0_ : LinkHead} (h : Follows mw
    p s0 s) : Follows mw p s0 (State.takeHead s p n h0_) := by
  unfold State.takeHead
  extract_lets x i done cells floors base s1
  have hs1 : Follows mw p s0 s1 := by
    simp only [s1]
    repeat' (first | (simp (maxDischargeDepth := 100) [h]; done) | refine Follows.foldl (fun _ _ => ?_) ?_ | split)
  repeat' (first | (simp (maxDischargeDepth := 100) [h, hs1]; done) | refine Follows.foldl (fun _ _ => ?_) ?_ | split)

@[simp] theorem Answers.execAckRx {mw : Bool} {s0 : State} {p : Part} {port : Nat} {h0_ : LinkHead} {s : State} (h :
    Follows mw p s0 s) : Answers mw p s0 (Machine.execAckRx p port h0_ s) := by
  simp (maxDischargeDepth := 100) [Machine.execAckRx, h]

@[simp] theorem Answers.execNakRx {mw : Bool} {s0 : State} {p : Part} {port : Nat} {seq : Nat} {h0_ : LinkHead} {s : State}
    (h : Follows mw p s0 s) : Answers mw p s0 (Machine.execNakRx p port seq h0_ s) := by
  simp (maxDischargeDepth := 100) [Machine.execNakRx, h]

@[simp] theorem Answers.execNakWaitTimer {mw : Bool} {s0 : State} {p : Part} {port : Nat} {s : State} (h : Follows mw p s0
    s) : Answers mw p s0 (Machine.execNakWaitTimer p port s) := by
  simp (maxDischargeDepth := 100) [Machine.execNakWaitTimer, h]

@[simp] theorem Answers.execRetryTimeout {mw : Bool} {s0 : State} {p : Part} {port : Nat} {s : State} (h : Follows mw p s0
    s) : Answers mw p s0 (Machine.execRetryTimeout p port s) := by
  simp only [Machine.execRetryTimeout]
  repeat' (first | (simp (maxDischargeDepth := 100) [h]; done) | refine Follows.foldl (fun _ _ => ?_) ?_ | split)

@[simp] theorem Answers.execAckTimer {mw : Bool} {s0 : State} {p : Part} {port : Nat} {s : State} (h : Follows mw p s0 s) :
    Answers mw p s0 (Machine.execAckTimer p port s) := by
  simp (maxDischargeDepth := 100) [Machine.execAckTimer, h]

@[simp] theorem Answers.execPlaneLostRx {mw : Bool} {s0 : State} {n : PlaneNotice} {s : State} (h : Follows mw .kresia s0
    s) : Answers mw .kresia s0 (Machine.execPlaneLostRx n s) := by
  simp (maxDischargeDepth := 100) [Machine.execPlaneLostRx, h]

@[simp] theorem Answers.execPlaneBackRx {mw : Bool} {s0 : State} {n : PlaneNotice} {s : State} (h : Follows mw .kresia s0
    s) : Answers mw .kresia s0 (Machine.execPlaneBackRx n s) := by
  simp (maxDischargeDepth := 100) [Machine.execPlaneBackRx, h]

@[simp] theorem Answers.execLedgerSnap {mw : Bool} {s0 : State} {p : Part} {s : State} (h : Follows mw p s0 s) : Answers mw
    p s0 (Machine.execLedgerSnap p s) := by
  simp (maxDischargeDepth := 100) [Machine.execLedgerSnap, h]

@[simp] theorem Answers.execCreditCfgWrite {mw : Bool} {s0 : State} {cls : Nat} {w : Word} {s : State} (h : Follows mw
    .kresia s0 s) : Answers mw .kresia s0 (Machine.execCreditCfgWrite cls w s) := by
  simp (maxDischargeDepth := 100) [Machine.execCreditCfgWrite, h]

@[simp] theorem Answers.execPortBringUp {mw : Bool} {s0 : State} {p : Part} {port : Nat} {s : State} (h : Follows mw p s0
    s) : Answers mw p s0 (Machine.execPortBringUp p port s) := by
  simp (maxDischargeDepth := 100) [Machine.execPortBringUp, h]

@[simp] theorem Answers.execLaneLock {mw : Bool} {s0 : State} {p : Part} {port : Nat} {align : Nat} {skew : Int} {s :
    State} (h : Follows mw p s0 s) : Answers mw p s0 (Machine.execLaneLock p port align skew s) := by
  simp (maxDischargeDepth := 100) [Machine.execLaneLock, h]

@[simp] theorem Answers.execSdLockLost {mw : Bool} {s0 : State} {p : Part} {port : Nat} {s : State} (h : Follows mw p s0 s)
    : Answers mw p s0 (Machine.execSdLockLost p port s) := by
  simp (maxDischargeDepth := 100) [Machine.execSdLockLost, h]

@[simp] theorem Answers.execCapsSendTimer {mw : Bool} {s0 : State} {p : Part} {port : Nat} {s : State} (h : Follows mw p s0
    s) : Answers mw p s0 (Machine.execCapsSendTimer p port s) := by
  simp (maxDischargeDepth := 100) [Machine.execCapsSendTimer, h]

@[simp] theorem Answers.execCapsRx {mw : Bool} {s0 : State} {p : Part} {port : Nat} {c : Caps} {s : State} (h : Follows mw
    p s0 s) : Answers mw p s0 (Machine.execCapsRx p port c s) := by
  simp (maxDischargeDepth := 100) [Machine.execCapsRx, h]

@[simp] theorem Follows.holdOut {mw : Bool} {s0 : State} {s : State} {p : Part} {n : Nat} {code : Code} {detail : optParam
    (List Nat) []} (h : Follows mw p s0 s) : Follows mw p s0 (State.holdOut s p n code detail) := by
  simp (maxDischargeDepth := 100) [State.holdOut, h]

@[simp] theorem Follows.loopback {mw : Bool} {s0 : State} {s : State} {p : Part} {n : Nat} {tx : EdgeStamp} {rx :
    EdgeStamp} (h : Follows mw p s0 s) : Follows mw p s0 (State.loopback s p n tx rx) := by
  unfold State.loopback
  extract_lets t r pt dly measured declared d ps bad s1
  have hs1 : Follows mw p s0 s1 := by
    simp only [s1]
    repeat' (first | (simp (maxDischargeDepth := 100) [h]; done) | refine Follows.foldl (fun _ _ => ?_) ?_ | split)
  repeat' (first | (simp (maxDischargeDepth := 100) [h, hs1]; done) | refine Follows.foldl (fun _ _ => ?_) ?_ | split)

@[simp] theorem Follows.writeAsym {mw : Bool} {s0 : State} {s : State} {p : Part} {n : Nat} {v : Int} (h : Follows mw p s0
    s) : Follows mw p s0 (State.writeAsym s p n v) := by
  simp (maxDischargeDepth := 100) [State.writeAsym, h]

@[simp] theorem Follows.enterService {mw : Bool} {s0 : State} {s : State} {p : Part} {n : Nat} {c : Caps} (h : Follows mw p
    s0 s) : Follows mw p s0 (State.enterService s p n c) := by
  simp only [State.enterService]
  repeat' (first | (simp (maxDischargeDepth := 100) [h]; done) | refine Follows.foldl (fun _ _ => ?_) ?_ | split)

@[simp] theorem Answers.execCapsAckRx {mw : Bool} {s0 : State} {p : Part} {port : Nat} {c : Caps} {tx : EdgeStamp} {rx :
    EdgeStamp} {s : State} (h : Follows mw p s0 s) : Answers mw p s0 (Machine.execCapsAckRx p port c tx rx s) := by
  simp only [Machine.execCapsAckRx]
  repeat' (first | (simp (maxDischargeDepth := 100) [h]; done) | refine Follows.foldl (fun _ _ => ?_) ?_ | split)

@[simp] theorem Answers.execTrainTimeout {mw : Bool} {s0 : State} {p : Part} {port : Nat} {s : State} (h : Follows mw p s0
    s) : Answers mw p s0 (Machine.execTrainTimeout p port s) := by
  simp (maxDischargeDepth := 100) [Machine.execTrainTimeout, h]

@[simp] theorem Answers.execLmsMissing {mw : Bool} {s0 : State} {p : Part} {port : Nat} {s : State} (h : Follows mw p s0 s)
    : Answers mw p s0 (Machine.execLmsMissing p port s) := by
  simp (maxDischargeDepth := 100) [Machine.execLmsMissing, h]

@[simp] theorem Follows.gtCode {mw : Bool} {s0 : State} {s : State} {p : Part} {n : Nat} {code : Code} (h : Follows mw p s0
    s) : Follows mw p s0 (State.gtCode s p n code) := by
  simp (maxDischargeDepth := 100) [State.gtCode, h]

@[simp] theorem Answers.execGateListCommit {mw : Bool} {s0 : State} {p : Part} {port : Nat} {s : State} (h : Follows mw p
    s0 s) : Answers mw p s0 (Machine.execGateListCommit p port s) := by
  simp only [Machine.execGateListCommit]
  repeat' (first | (simp (maxDischargeDepth := 100) [h]; done) | refine Follows.foldl (fun _ _ => ?_) ?_ | split)

@[simp] theorem Answers.execGateListCancel {mw : Bool} {s0 : State} {p : Part} {port : Nat} {s : State} (h : Follows mw p
    s0 s) : Answers mw p s0 (Machine.execGateListCancel p port s) := by
  simp only [Machine.execGateListCancel]
  repeat' (first | (simp (maxDischargeDepth := 100) [h]; done) | refine Follows.foldl (fun _ _ => ?_) ?_ | split)

@[simp] theorem Follows.runList {mw : Bool} {s0 : State} {s : State} {p : Part} {n : Nat} {l : Machine.GateList} {t : OT}
    (h : Follows mw p s0 s) : Follows mw p s0 (State.runList s p n l t) := by
  simp (maxDischargeDepth := 100) [State.runList, h]

@[simp] theorem Follows.refuseQueued {mw : Bool} {s0 : State} {s : State} {p : Part} {n : Nat} {l : Machine.GateList} {q :
    Machine.QEntry} (h : Follows mw p s0 s) : Follows mw p s0 (State.refuseQueued s p n l q) := by
  simp only [State.refuseQueued]
  repeat' (first | (simp (maxDischargeDepth := 100) [h]; done) | refine Follows.foldl (fun _ _ => ?_) ?_ | split)

@[simp] theorem Follows.retest {mw : Bool} {s0 : State} {s : State} {p : Part} {n : Nat} {l : Machine.GateList} (h :
    Follows mw p s0 s) : Follows mw p s0 (State.retest s p n l) := by
  simp (maxDischargeDepth := 100) [State.retest, h]

@[simp] theorem Answers.execGateSwap {mw : Bool} {s0 : State} {p : Part} {port : Nat} {s : State} (h : Follows mw p s0 s) :
    Answers mw p s0 (Machine.execGateSwap p port s) := by
  simp only [Machine.execGateSwap]
  repeat' (first | (simp (maxDischargeDepth := 100) [h]; done) | refine Follows.foldl (fun _ _ => ?_) ?_ | split)

@[simp] theorem Answers.execGateBoundary {mw : Bool} {s0 : State} {p : Part} {port : Nat} {s : State} (h : Follows mw p s0
    s) : Answers mw p s0 (Machine.execGateBoundary p port s) := by
  simp only [Machine.execGateBoundary]
  repeat' (first | (simp (maxDischargeDepth := 100) [h]; done) | refine Follows.foldl (fun _ _ => ?_) ?_ | split)

@[simp] theorem Follows.modShaper {mw : Bool} {s0 : State} {s : State} {p : Part} {n : Nat} {c : Nat} {f : Machine.Shaper →
    Machine.Shaper} (h : Follows mw p s0 s) : Follows mw p s0 (State.modShaper s p n c f) := by
  simp (maxDischargeDepth := 100) [State.modShaper, h]

@[simp] theorem Answers.execShaperCfgWrite {mw : Bool} {s0 : State} {p : Part} {port : Nat} {hi : Bool} {w : Word} {s :
    State} (h : Follows mw p s0 s) : Answers mw p s0 (Machine.execShaperCfgWrite p port hi w s) := by
  simp (maxDischargeDepth := 100) [Machine.execShaperCfgWrite, h]

@[simp] theorem Answers.execOverheadWrite {mw : Bool} {s0 : State} {p : Part} {port : Nat} {w : Word} {s : State} (h :
    Follows mw p s0 s) : Answers mw p s0 (Machine.execOverheadWrite p port w s) := by
  simp (maxDischargeDepth := 100) [Machine.execOverheadWrite, h]

@[simp] theorem Answers.execQsampleCfgWrite {mw : Bool} {s0 : State} {p : Part} {port : Nat} {count : Bool} {w : Word} {s :
    State} (h : Follows mw p s0 s) : Answers mw p s0 (Machine.execQsampleCfgWrite p port count w s) := by
  simp (maxDischargeDepth := 100) [Machine.execQsampleCfgWrite, h]

@[simp] theorem Answers.execQsampleTick {mw : Bool} {s0 : State} {p : Part} {port : Nat} {s : State} (h : Follows mw p s0
    s) : Answers mw p s0 (Machine.execQsampleTick p port s) := by
  simp (maxDischargeDepth := 100) [Machine.execQsampleTick, h]

@[simp] theorem Answers.execQsampleRetire {mw : Bool} {s0 : State} {p : Part} {port : Nat} {seq : Word} {s : State} (h :
    Follows mw p s0 s) : Answers mw p s0 (Machine.execQsampleRetire p port seq s) := by
  simp (maxDischargeDepth := 100) [Machine.execQsampleRetire, h]

@[simp] theorem Follows.placeObjs {mw : Bool} {s0 : State} {s : State} {d : Nat} {base : Nat} {n : Nat} {g : Machine.Image}
    {old : Option Machine.Image} (h : Follows mw .kresia s0 s) : Follows mw .kresia s0 (State.placeObjs s d base n g old) := by
  simp (maxDischargeDepth := 100) [State.placeObjs, h]

@[simp] theorem Follows.switchAt {mw : Bool} {s0 : State} {s : State} {d : Nat} {step : Nat} (h : Follows mw .kresia s0 s)
    : Follows mw .kresia s0 (State.switchAt s d step) := by
  simp only [State.switchAt]
  repeat' (first | (simp (maxDischargeDepth := 100) [h]; done) | refine Follows.foldl (fun _ _ => ?_) ?_ | split)

@[simp] theorem Follows.switchProg {mw : Bool} {s0 : State} {s : State} {d : Nat} (h : Follows mw .kresia s0 s) : Follows
    mw .kresia s0 (State.switchProg s d) := by
  simp (maxDischargeDepth := 100) [State.switchProg, h]

@[simp] theorem Follows.endChange {mw : Bool} {s0 : State} {s : State} {r : Machine.ArmRec} {code : Code} (h : Follows mw
    .kresia s0 s) : Follows mw .kresia s0 (State.endChange s r code) := by
  simp only [State.endChange]
  repeat' (first | (simp (maxDischargeDepth := 100) [h]; done) | refine Follows.foldl (fun _ _ => ?_) ?_ | split)

@[simp] theorem Follows.deputyTamp {mw : Bool} {s0 : State} {s : State} {d : Nat} {m : Ctl} (h : Follows mw .kresia s0 s) :
    Follows mw .kresia s0 (State.deputyTamp s d m) := by
  simp (maxDischargeDepth := 100) [State.deputyTamp, h]

@[simp] theorem Follows.followTamp {mw : Bool} {s0 : State} {s : State} {d : Nat} {m : Ctl} (h : Follows mw .kresia s0 s) :
    Follows mw .kresia s0 (State.followTamp s d m) := by
  simp (maxDischargeDepth := 100) [State.followTamp, h]

@[simp] theorem Follows.deputyVoid {mw : Bool} {s0 : State} {s : State} {d : Nat} {m : Ctl} {told : optParam Bool false} (h
    : Follows mw .kresia s0 s) : Follows mw .kresia s0 (State.deputyVoid s d m told) := by
  simp (maxDischargeDepth := 100) [State.deputyVoid, h]

@[simp] theorem Follows.relayVoid {mw : Bool} {s0 : State} {s : State} {d : Nat} {m : Ctl} (h : Follows mw .kresia s0 s) :
    Follows mw .kresia s0 (State.relayVoid s d m) := by
  simp (maxDischargeDepth := 100) [State.relayVoid, h]

@[simp] theorem Follows.takeMoved {mw : Bool} {s0 : State} {s : State} {d : Nat} {g : Machine.Image} {step : Nat} (h :
    Follows mw .kresia s0 s) : Follows mw .kresia s0 (State.takeMoved s d g step) := by
  simp (maxDischargeDepth := 100) [State.takeMoved, h]

@[simp] theorem Follows.ksTamp {mw : Bool} {s0 s : State} {d : Nat} {m : Ctl} (h : Follows mw .kresia s0 s) :
    Follows mw .kresia s0 (s.ksTamp d m) := by
  unfold State.ksTamp
  split
  · exact h
  extract_lets a x seen s1 spines s2 s3
  have ha : Follows mw .kresia s0 a := by simp (maxDischargeDepth := 100) [a, h]
  have h1 : Follows mw .kresia s0 s1 := by simp (maxDischargeDepth := 100) [s1, ha]
  have h2 : Follows mw .kresia s0 s2 := by simp (maxDischargeDepth := 100) [s2, h1]
  have h3 : Follows mw .kresia s0 s3 := by
    simp only [s3]
    split <;> simp (maxDischargeDepth := 100) [h2]
  split
  · exact ha
  split
  · exact ha
  extract_lets s4
  have h4 : Follows mw .kresia s0 s4 := by simp (maxDischargeDepth := 100) [s4, h3]
  split <;> simp (maxDischargeDepth := 100) [h4]

@[simp] theorem Follows.ksVoid {mw : Bool} {s0 : State} {was : State} {d : Nat} {m : Ctl} (h : Follows mw .kresia s0 was) :
    Follows mw .kresia s0 (State.ksVoid was d m) := by
  unfold State.ksVoid
  extract_lets s x told
  have hs : Follows mw .kresia s0 s := by
    simp only [s]
    repeat' (first | (simp (maxDischargeDepth := 100) [h]; done) | refine Follows.foldl (fun _ _ => ?_) ?_ | split)
  repeat' (first | (simp (maxDischargeDepth := 100) [h, hs]; done) | refine Follows.foldl (fun _ _ => ?_) ?_ | split)

@[simp] theorem Follows.startFreeing {mw : Bool} {s0 : State} {s : State} {d : Nat} (h : Follows mw .kresia s0 s) : Follows
    mw .kresia s0 (State.startFreeing s d) := by
  simp (maxDischargeDepth := 100) [State.startFreeing, h]

@[simp] theorem Follows.dropArms {mw : Bool} {s0 : State} {s : State} {d : Nat} {cause : Code} (h : Follows mw .kresia s0
    s) : Follows mw .kresia s0 (State.dropArms s d cause) := by
  simp only [State.dropArms]
  repeat' (first | (simp (maxDischargeDepth := 100) [h]; done) | refine Follows.foldl (fun _ _ => ?_) ?_ | split)

@[simp] theorem Follows.unloadNow {mw : Bool} {s0 : State} {s : State} {d : Nat} (h : Follows mw .kresia s0 s) : Follows mw
    .kresia s0 (State.unloadNow s d) := by
  simp only [State.unloadNow]
  repeat' (first | (simp (maxDischargeDepth := 100) [h]; done) | refine Follows.foldl (fun _ _ => ?_) ?_ | split)

@[simp] theorem Follows.mirrorAgain {mw : Bool} {s0 : State} {s : State} {j : Machine.SendJob} {region : Bool} (h : Follows
    mw .kresia s0 s) : Follows mw .kresia s0 (State.mirrorAgain s j region) := by
  simp only [State.mirrorAgain]
  repeat' (first | (simp (maxDischargeDepth := 100) [h]; done) | refine Follows.foldl (fun _ _ => ?_) ?_ | split)

@[simp] theorem Follows.mirrorDone {mw : Bool} {s0 : State} {s : State} {j : Machine.SendJob} {c : Code} (h : Follows mw
    .kresia s0 s) : Follows mw .kresia s0 (State.mirrorDone s j c) := by
  simp only [State.mirrorDone]
  repeat' (first | (simp (maxDischargeDepth := 100) [h]; done) | refine Follows.foldl (fun _ _ => ?_) ?_ | split)

@[simp] theorem Follows.ckptAck {mw : Bool} {s0 : State} {s : State} {j : Machine.SendJob} (h : Follows mw .kresia s0 s) :
    Follows mw .kresia s0 (State.ckptAck s j) := by
  unfold State.ckptAck
  extract_lets is l rest unused s1
  have hs1 : Follows mw .kresia s0 s1 := by
    simp only [s1]
    repeat' (first | (simp (maxDischargeDepth := 100) [h]; done) | refine Follows.foldl (fun _ _ => ?_) ?_ | split)
  repeat' (first | (simp (maxDischargeDepth := 100) [h, hs1]; done) | refine Follows.foldl (fun _ _ => ?_) ?_ | split)

@[simp] theorem Follows.fillAck {mw : Bool} {s0 : State} {s : State} {j : Machine.SendJob} {c : Code} (h : Follows mw
    .kresia s0 s) : Follows mw .kresia s0 (State.fillAck s j c) := by
  simp only [State.fillAck]
  repeat' (first | (simp (maxDischargeDepth := 100) [h]; done) | refine Follows.foldl (fun _ _ => ?_) ?_ | split)

@[simp] theorem Follows.sendDone {mw : Bool} {s0 : State} {s : State} {p : Part} {x : Machine.SendTransfer} {c : Code} (h :
    Follows mw p s0 s) : Follows mw p s0 (State.sendDone s p x c) := by
  simp only [State.sendDone]
  repeat' (first | (simp (maxDischargeDepth := 100) [h]; done) | refine Follows.foldl (fun _ _ => ?_) ?_ | split)

@[simp] theorem Follows.nextSeq {mw : Bool} {s0 : State} {s : State} {d : Nat} (h : Follows mw .kresia s0 s) : Follows mw
    .kresia s0 (State.nextSeq s d) := by
  simp (maxDischargeDepth := 100) [State.nextSeq, h]

@[simp] theorem Follows.sendArm {mw : Bool} {s0 : State} {s : State} {d : Nat} {g : Machine.Image} {r : Machine.ArmRec}
    {bell : Bool} (h : Follows mw .kresia s0 s) : Follows mw .kresia s0 (State.sendArm s d g r bell) := by
  unfold State.sendArm
  extract_lets s1 x
  have hs1 : Follows mw .kresia s0 s1 := by
    simp only [s1]
    repeat' (first | (simp (maxDischargeDepth := 100) [h]; done) | refine Follows.foldl (fun _ _ => ?_) ?_ | split)
  repeat' (first | (simp (maxDischargeDepth := 100) [h, hs1]; done) | refine Follows.foldl (fun _ _ => ?_) ?_ | split)

@[simp] theorem Follows.armEntry {mw : Bool} {s0 : State} {s : State} {d : Nat} {g : Machine.Image} {i : Nat} (h : Follows
    mw .kresia s0 s) : Follows mw .kresia s0 (State.armEntry s d g i) := by
  simp only [State.armEntry]
  repeat' (first | (simp (maxDischargeDepth := 100) [h]; done) | refine Follows.foldl (fun _ _ => ?_) ?_ | split)

@[simp] theorem Follows.armList {mw : Bool} {s0 s : State} {d : Nat} {g : Image} {l : List Nat} (h : Follows mw .kresia s0
    s) :
    Follows mw .kresia s0 (s.armList d g l) := by
  induction l generalizing s with
  | nil => simp [State.armList, h]
  | cons i t ih =>
    unfold State.armList
    split
    · simp (maxDischargeDepth := 100) [h]
    · exact ih (by simp [h])

@[simp] theorem Follows.armChange {mw : Bool} {s0 : State} {s : State} {d : Nat} {g : Machine.Image} {r : Machine.ArmRec}
    (h : Follows mw .kresia s0 s) : Follows mw .kresia s0 (State.armChange s d g r) := by
  simp (maxDischargeDepth := 100) [State.armChange, h]

@[simp] theorem Follows.afterTamp {mw : Bool} {s0 : State} {s : State} {d : Nat} (h : Follows mw .kresia s0 s) : Follows mw
    .kresia s0 (State.afterTamp s d) := by
  simp (maxDischargeDepth := 100) [State.afterTamp, h]

@[simp] theorem Follows.creditLast {mw : Bool} {s0 : State} {s : State} {d : Nat} {pos : Nat} (h : Follows mw .kresia s0 s)
    : Follows mw .kresia s0 (State.creditLast s d pos) := by
  unfold State.creditLast
  extract_lets x cr n now s1
  have hs1 : Follows mw .kresia s0 s1 := by
    simp only [s1]
    repeat' (first | (simp (maxDischargeDepth := 100) [h]; done) | refine Follows.foldl (fun _ _ => ?_) ?_ | split)
  repeat' (first | (simp (maxDischargeDepth := 100) [h, hs1]; done) | refine Follows.foldl (fun _ _ => ?_) ?_ | split)

@[simp] theorem Follows.releaseOld {mw : Bool} {s0 : State} {s : State} {d : Nat} {sealed : Nat} (h : Follows mw .kresia s0
    s) : Follows mw .kresia s0 (State.releaseOld s d sealed) := by
  simp (maxDischargeDepth := 100) [State.releaseOld, h]

@[simp] theorem Follows.completeBarrier {mw : Bool} {s0 s : State} {d : Nat} {last : Option Nat} (h : Follows mw .kresia s0
    s) :
    Follows mw .kresia s0 (s.completeBarrier d last) := by
  unfold State.completeBarrier
  extract_lets x sealing step s1 t1 s2 s3 s4
  have h1 : Follows mw .kresia s0 s1 := by simp [s1, h]
  have h1' : Follows mw .kresia s0 t1 := by
    simp only [t1]
    split <;> simp (maxDischargeDepth := 100) [h1]
  have h2 : Follows mw .kresia s0 s2 := by
    simp only [s2]
    split <;> simp (maxDischargeDepth := 100) [h1']
  have h3 : Follows mw .kresia s0 s3 := by simp (maxDischargeDepth := 100) [s3, h2]
  have h4 : Follows mw .kresia s0 s4 := by simp (maxDischargeDepth := 100) [s4, h3]
  split
  · simp [h3]
  split <;> simp (maxDischargeDepth := 100) [h4]

@[simp] theorem Follows.tryBarrier {mw : Bool} {s0 s : State} {d : Nat} (h : Follows mw .kresia s0 s) :
    Follows mw .kresia s0 (s.tryBarrier d) := by
  simp (maxDischargeDepth := 100) [State.tryBarrier, h]

@[simp] theorem Follows.enterHeld {mw : Bool} {s0 s : State} {d : Nat} {code : Code} (h : Follows mw .kresia s0 s) :
    Follows mw .kresia s0 (s.enterHeld d code) := by
  simp (maxDischargeDepth := 100) [State.enterHeld, h]

@[simp] theorem Follows.voidStep {mw : Bool} {s0 s : State} {d : Nat} {cause : Code} (h : Follows mw .kresia s0 s) :
    Follows mw .kresia s0 (s.voidStep d cause) := by
  unfold State.voidStep
  extract_lets x un s1 s2 m s3 s5 s6
  have h1 : Follows mw .kresia s0 s1 := by simp (maxDischargeDepth := 100) [s1, h]
  have h2 : Follows mw .kresia s0 s2 := by simp (maxDischargeDepth := 100) [s2, h1]
  have h3 : Follows mw .kresia s0 s3 := by simp (maxDischargeDepth := 100) [s3, h2]
  have h5 : Follows mw .kresia s0 s5 := by
    simp only [s5]
    split
    · exact Follows.foldl (fun _ _ => by split <;> simp) h3
    · exact h3
  have h6 : Follows mw .kresia s0 s6 := by simp (maxDischargeDepth := 100) [s6, h5]
  split
  · exact h
  split
  · simp (maxDischargeDepth := 100) [h]
  split
  · exact Follows.enterHeld h6
  · exact h6

@[simp] theorem Follows.ackMissing {mw : Bool} {s0 : State} {s : State} {d : Nat} {r : Machine.ArmRec} (h : Follows mw
    .kresia s0 s) : Follows mw .kresia s0 (State.ackMissing s d r) := by
  simp (maxDischargeDepth := 100) [State.ackMissing, h]

@[simp] theorem Follows.sendTamp {mw : Bool} {s0 s : State} {d : Nat} {g : Image} {r : ArmRec} (h : Follows mw .kresia s0
    s) :
    Follows mw .kresia s0 (s.sendTamp d g r) := by
  unfold State.sendTamp
  extract_lets s1 x bell m s2 s3 s4 s5
  have h1 : Follows mw .kresia s0 s1 := by simp [s1, h]
  have h2 : Follows mw .kresia s0 s2 := by simp (maxDischargeDepth := 100) [s2, h1]
  have h3 : Follows mw .kresia s0 s3 := by simp (maxDischargeDepth := 100) [s3, h2]
  have h4 : Follows mw .kresia s0 s4 := by simp (maxDischargeDepth := 100) [s4, h3]
  have h5 : Follows mw .kresia s0 s5 := by simp (maxDischargeDepth := 100) [s5, h4]
  split <;> simp (maxDischargeDepth := 100) [h3, h5]

@[simp] theorem Follows.ackCheck {mw : Bool} {s0 s : State} {d : Nat} {g : Image} {r : ArmRec} (h : Follows mw .kresia s0
    s) :
    Follows mw .kresia s0 (s.ackCheck d g r) := by
  simp (maxDischargeDepth := 100) [State.ackCheck, h]

@[simp] theorem Follows.fenceDomain {mw : Bool} {s0 s : State} {d member : Nat} (h : Follows mw .kresia s0 s) :
    Follows mw .kresia s0 (s.fenceDomain d member) := by
  simp (maxDischargeDepth := 100) [State.fenceDomain, h]

@[simp] theorem Follows.unfenceDomain {mw : Bool} {s0 : State} {s : State} {d : Nat} {member : Nat} (h : Follows mw .kresia
    s0 s) : Follows mw .kresia s0 (State.unfenceDomain s d member) := by
  simp (maxDischargeDepth := 100) [State.unfenceDomain, h]

@[simp] theorem Follows.sendRecord {mw : Bool} {s0 : State} {s : State} {x : Machine.LeafRecord} (h : Follows mw .kresia s0
    s) : Follows mw .kresia s0 (State.sendRecord s x) := by
  simp (maxDischargeDepth := 100) [State.sendRecord, h]

@[simp] theorem Answers.execLeafReportRx {mw : Bool} {s0 : State} {port : Nat} {m' : Ctl} {s : State} (h : Follows mw
    .kresia s0 s) : Answers mw .kresia s0 (Machine.execLeafReportRx port m' s) := by
  simp (maxDischargeDepth := 100) [Machine.execLeafReportRx, h]

@[simp] theorem Answers.execLeafRecordTimeout {mw : Bool} {s0 : State} {kind : CtlType} {domain : Nat} {s : State} (h :
    Follows mw .kresia s0 s) : Answers mw .kresia s0 (Machine.execLeafRecordTimeout kind domain s) := by
  simp only [Machine.execLeafRecordTimeout]
  repeat' (first | (simp (maxDischargeDepth := 100) [h]; done) | refine Follows.foldl (fun _ _ => ?_) ?_ | split)

@[simp] theorem Follows.staleReport {mw : Bool} {s0 : State} {s : State} {d : Nat} (h : Follows mw .kresia s0 s) : Follows
    mw .kresia s0 (State.staleReport s d) := by
  simp (maxDischargeDepth := 100) [State.staleReport, h]

@[simp] theorem Follows.lateReport {mw : Bool} {s0 : State} {s : State} {d : Nat} (h : Follows mw .kresia s0 s) : Follows
    mw .kresia s0 (State.lateReport s d) := by
  simp (maxDischargeDepth := 100) [State.lateReport, h]

@[simp] theorem Follows.passUp {mw : Bool} {q : Part} {s0 : State} {s : State} {d : Nat} {src : Nat} {m : Ctl} (h : Follows
    mw q s0 s) : Follows mw q s0 (State.passUp s d src m) := by
  simp (maxDischargeDepth := 100) [State.passUp, h]

@[simp] theorem Answers.execCrownArriveRx {mw : Bool} {s0 : State} {src : Nat} {m : Ctl} {s : State} (h : Follows mw
    .kresia s0 s) : Answers mw .kresia s0 (Machine.execCrownArriveRx src m s) := by
  simp (maxDischargeDepth := 100) [Machine.execCrownArriveRx, h]

@[simp] theorem Answers.execArmStallRelease {mw : Bool} {s0 : State} {domain : Nat} {s : State} (h : Follows mw .kresia s0
    s) : Answers mw .kresia s0 (Machine.execArmStallRelease domain s) := by
  simp only [Machine.execArmStallRelease]
  repeat' (first | (simp (maxDischargeDepth := 100) [h]; done) | refine Follows.foldl (fun _ _ => ?_) ?_ | split)

@[simp] theorem Follows.deputyAck {mw : Bool} {s0 : State} {s : State} {d : Nat} {src : Nat} {m : Ctl} (h : Follows mw
    .kresia s0 s) : Follows mw .kresia s0 (State.deputyAck s d src m) := by
  simp (maxDischargeDepth := 100) [State.deputyAck, h]

@[simp] theorem Answers.execCrownAckRx {mw : Bool} {s0 : State} {src : Nat} {m : Ctl} {s : State} (h : Follows mw .kresia
    s0 s) : Answers mw .kresia s0 (Machine.execCrownAckRx src m s) := by
  simp only [Machine.execCrownAckRx]
  repeat' (first | (simp (maxDischargeDepth := 100) [h]; done) | refine Follows.foldl (fun _ _ => ?_) ?_ | split)

@[simp] theorem Answers.execAdlExpiry {mw : Bool} {s0 : State} {domain : Nat} {s : State} (h : Follows mw .kresia s0 s) :
    Answers mw .kresia s0 (Machine.execAdlExpiry domain s) := by
  simp only [Machine.execAdlExpiry]
  repeat' (first | (simp (maxDischargeDepth := 100) [h]; done) | refine Follows.foldl (fun _ _ => ?_) ?_ | split)

@[simp] theorem Answers.execCrownReportRx {mw : Bool} {s0 : State} {_src : Nat} {m : Ctl} {s : State} (h : Follows mw
    .kresia s0 s) : Answers mw .kresia s0 (Machine.execCrownReportRx _src m s) := by
  simp (maxDischargeDepth := 100) [Machine.execCrownReportRx, h]

@[simp] theorem Follows.rsigCount {mw : Bool} {s0 : State} {s : State} {p : Part} {t : Nat} {off : Nat} {ks : Nat} (h :
    Follows mw p s0 s) : Follows mw p s0 (State.rsigCount s p t off ks) := by
  simp only [State.rsigCount]
  repeat' (first | (simp (maxDischargeDepth := 100) [h]; done) | refine Follows.foldl (fun _ _ => ?_) ?_ | split)

@[simp] theorem Follows.completeTracker {mw : Bool} {s0 : State} {s : State} {p : Part} {key : Nat} {t : Nat} {x :
    Machine.Tracker} (h : Follows mw p s0 s) : Follows mw p s0 (State.completeTracker s p key t x) := by
  cases p
  all_goals
    unfold State.completeTracker
    dsimp only
    repeat' (first | contradiction | (simp (maxDischargeDepth := 100) [h]; done) | refine Follows.foldl (fun _ _ => ?_) ?_ | split)

@[simp] theorem Follows.tryTracker {mw : Bool} {s0 : State} {s : State} {p : Part} {key : Nat} {t : Nat} (h : Follows mw p
    s0 s) : Follows mw p s0 (State.tryTracker s p key t) := by
  simp only [State.tryTracker]
  repeat' (first | (simp (maxDischargeDepth := 100) [h]; done) | refine Follows.foldl (fun _ _ => ?_) ?_ | split)

@[simp] theorem Follows.overrun {mw : Bool} {s0 : State} {s : State} {p : Part} {key : Nat} {t : Nat} {x : Machine.Tracker}
    (h : Follows mw p s0 s) : Follows mw p s0 (State.overrun s p key t x) := by
  unfold State.overrun
  extract_lets s1
  have hs1 : Follows mw p s0 s1 := by
    simp only [s1]
    repeat' (first | (simp (maxDischargeDepth := 100) [h]; done) | refine Follows.foldl (fun _ _ => ?_) ?_ | split)
  repeat' (first | (simp (maxDischargeDepth := 100) [h, hs1]; done) | refine Follows.foldl (fun _ _ => ?_) ?_ | split)

@[simp] theorem Follows.landPayload {s0 : State} {s : State} {p : Part} {t : Nat} {addr : Nat} {bs : List Byte} {use :
    Machine.MemUse} (h : Follows true p s0 s) : Follows true p s0 (State.landPayload s p t addr bs use) := by
  simp only [State.landPayload]
  repeat' (first | (simp (maxDischargeDepth := 100) [h]; done) | refine Follows.foldl (fun _ _ => ?_) ?_ | split)

@[simp] theorem Follows.takePacket {s0 : State} {s : State} {p : Part} {port : Nat} {key : Nat} {t : Nat} {x :
    Machine.Tracker} {k : RsigPacket} (h : Follows true p s0 s) : Follows true p s0 (State.takePacket s p port key t x k) := by
  simp (maxDischargeDepth := 100) [State.takePacket, h]

@[simp] theorem Follows.rsigPacket {s0 : State} {s : State} {p : Part} {port : Nat} {t : Nat} {epoch : Nat} {k :
    RsigPacket} (h : Follows true p s0 s) : Follows true p s0 (State.rsigPacket s p port t epoch k) := by
  simp only [State.rsigPacket]
  repeat' (first | (simp (maxDischargeDepth := 100) [h]; done) | refine Follows.foldl (fun _ _ => ?_) ?_ | split)

@[simp] theorem Answers.execRsigPacketRx {s0 : State} {p : Part} {port : Nat} {x : RsigPacket} {s : State} (h : Follows
    true p s0 s) : Answers true p s0 (Machine.execRsigPacketRx p port x s) := by
  simp only [Machine.execRsigPacketRx]
  repeat' (first | (simp (maxDischargeDepth := 100) [h]; done) | refine Follows.foldl (fun _ _ => ?_) ?_ | split)

@[simp] theorem Answers.execRsigOverrunWaitEnd {mw : Bool} {s0 : State} {p : Part} {src : Nat} {transfer : Nat} {s : State}
    (h : Follows mw p s0 s) : Answers mw p s0 (Machine.execRsigOverrunWaitEnd p src transfer s) := by
  simp only [Machine.execRsigOverrunWaitEnd]
  repeat' (first | (simp (maxDischargeDepth := 100) [h]; done) | refine Follows.foldl (fun _ _ => ?_) ?_ | split)

@[simp] theorem Answers.execRsigTimeout {mw : Bool} {s0 : State} {p : Part} {src : Nat} {transfer : Nat} {s : State} (h :
    Follows mw p s0 s) : Answers mw p s0 (Machine.execRsigTimeout p src transfer s) := by
  simp only [Machine.execRsigTimeout]
  repeat' (first | (simp (maxDischargeDepth := 100) [h]; done) | refine Follows.foldl (fun _ _ => ?_) ?_ | split)

@[simp] theorem Follows.serveV2 {mw : Bool} {s0 : State} {s : State} {p : Part} (h : Follows mw p s0 s) : Follows mw p s0
    (State.serveV2 s p) := by
  simp only [State.serveV2]
  repeat' (first | (simp (maxDischargeDepth := 100) [h]; done) | refine Follows.foldl (fun _ _ => ?_) ?_ | split)

@[simp] theorem Answers.execV2SignalPacketRx {mw : Bool} {s0 : State} {p : Part} {port : Nat} {x : RsigPacket} {s : State}
    (h : Follows mw p s0 s) : Answers mw p s0 (Machine.execV2SignalPacketRx p port x s) := by
  cases p
  all_goals
    unfold Machine.execV2SignalPacketRx
    dsimp only
    repeat' (first | contradiction | (simp (maxDischargeDepth := 100) [h]; done) | refine Follows.foldl (fun _ _ => ?_) ?_ | split)

@[simp] theorem Follows.memError {mw : Bool} {s0 : State} {s : State} {tag : Nat} {code : Code} (h : Follows mw .baxel s0
    s) : Follows mw .baxel s0 (State.memError s tag code) := by
  simp (maxDischargeDepth := 100) [State.memError, h]

@[simp] theorem Follows.failCommand {mw : Bool} {s0 : State} {s : State} {m : Nat} {j : Nat} {code : Code} (h : Follows mw
    .baxel s0 s) : Follows mw .baxel s0 (State.failCommand s m j code) := by
  simp (maxDischargeDepth := 100) [State.failCommand, h]

@[simp] theorem Answers.execMemWriteResponse {mw : Bool} {s0 s : State} {p : Part} {port id : Nat} {err : Bool} (h :
    Follows mw p s0 s) :
    Answers mw p s0 (Machine.execMemWriteResponse p port id err s) := by
  unfold Machine.execMemWriteResponse
  extract_lets key t0 s1
  split
  · simp [h]
  extract_lets s3 s2
  have h0 : Follows mw p s0 t0 := by simp (maxDischargeDepth := 100) [t0, h]
  have h1 : Follows mw p s0 s1 := by
    simp only [s1]
    cases p <;> simp (maxDischargeDepth := 100) [h0]
  have h3 : Follows mw p s0 s3 := by simp (maxDischargeDepth := 100) [s3, h1]
  have h2 : Follows mw p s0 s2 := by
    simp only [s2]
    cases p <;> repeat' (first | contradiction | (simp (maxDischargeDepth := 100) [h1, h3]; done) | split | (simp_all; done))
  simp (maxDischargeDepth := 100) [h2]

@[simp] theorem Follows.closeSend {mw : Bool} {s0 : State} {s : State} {p : Part} {key : Nat} {x : Machine.SendTransfer}
    {code : Code} (h : Follows mw p s0 s) : Follows mw p s0 (State.closeSend s p key x code) := by
  unfold State.closeSend
  extract_lets s1
  have hs1 : Follows mw p s0 s1 := by
    simp only [s1]
    repeat' (first | (simp (maxDischargeDepth := 100) [h]; done) | refine Follows.foldl (fun _ _ => ?_) ?_ | split)
  repeat' (first | (simp (maxDischargeDepth := 100) [h, hs1]; done) | refine Follows.foldl (fun _ _ => ?_) ?_ | split)

@[simp] theorem Answers.execRwDoneRx {mw : Bool} {s0 : State} {p : Part} {src : Nat} {d : RwDone} {s : State} (h : Follows
    mw p s0 s) : Answers mw p s0 (Machine.execRwDoneRx p src d s) := by
  simp only [Machine.execRwDoneRx]
  repeat' (first | (simp (maxDischargeDepth := 100) [h]; done) | refine Follows.foldl (fun _ _ => ?_) ?_ | split)

@[simp] theorem Follows.tickV2 {mw : Bool} {s0 : State} {s : State} {p : Part} (h : Follows mw p s0 s) : Follows mw p s0
    (State.tickV2 s p) := by
  simp (maxDischargeDepth := 100) [State.tickV2, h]

end Sys2Proof.Machine
end

