-- ==== Sys2Proof/Laws/FollowsProg.lean ====
section
/-! SUPPORT. Operations of programs, chunks, blocks, dispatch and counters: what each leaves alone. -/

namespace Sys2Proof.Machine

set_option linter.unusedTactic false
set_option linter.unreachableTactic false
set_option linter.unusedSimpArgs false

@[simp] theorem Follows.loadHere {mw : Bool} {s0 : State} {s : State} {d : Nat} {g : Machine.Image} (h : Follows mw .kresia
    s0 s) : Follows mw .kresia s0 (State.loadHere s d g) := by
  unfold State.loadHere
  extract_lets x s1
  have hs1 : Follows mw .kresia s0 s1 := by
    simp only [s1]
    repeat' (first | (simp (maxDischargeDepth := 100) [h]; done) | refine Follows.foldl (fun _ _ => ?_) ?_ | refine Answers.next.2 ?_ | refine Follows.takeNote ?_ (fun _ _ _ => ?_) | refine Follows.takeDsp ?_ (fun _ _ => ?_) | split)
  repeat' (first | (simp (maxDischargeDepth := 100) [h, hs1]; done) | refine Follows.foldl (fun _ _ => ?_) ?_ | refine Answers.next.2 ?_ | refine Follows.takeNote ?_ (fun _ _ _ => ?_) | refine Follows.takeDsp ?_ (fun _ _ => ?_) | split)

@[simp] theorem Follows.dropLoad {mw : Bool} {s0 : State} {s : State} {d : Nat} (h : Follows mw .kresia s0 s) : Follows mw
    .kresia s0 (State.dropLoad s d) := by
  simp (maxDischargeDepth := 100) [State.dropLoad, h]

@[simp] theorem Follows.ksAck {mw : Bool} {q : Part} {s0 : State} {s : State} {d : Nat} {code : Code} (h : Follows mw q s0
    s) : Follows mw q s0 (State.ksAck s d code) := by
  simp (maxDischargeDepth := 100) [State.ksAck, h]

@[simp] theorem Follows.takeMap {mw : Bool} {s0 : State} {s : State} {d : Nat} {crown : Nat} {l : List PosEntry} (h :
    Follows mw .kresia s0 s) : Follows mw .kresia s0 (State.takeMap s d crown l) := by
  simp (maxDischargeDepth := 100) [State.takeMap, h]

@[simp] theorem Follows.rollbackHome {mw : Bool} {s0 : State} {s : State} {d : Nat} {c : Nat} (h : Follows mw .kresia s0 s)
    : Follows mw .kresia s0 (State.rollbackHome s d c) := by
  unfold State.rollbackHome
  extract_lets s1 s2
  have hs1 : Follows mw .kresia s0 s1 := by
    simp only [s1]
    repeat' (first | (simp (maxDischargeDepth := 100) [h]; done) | refine Follows.foldl (fun _ _ => ?_) ?_ | refine Answers.next.2 ?_ | refine Follows.takeNote ?_ (fun _ _ _ => ?_) | refine Follows.takeDsp ?_ (fun _ _ => ?_) | split)
  have hs2 : Follows mw .kresia s0 s2 := by
    simp only [s2]
    repeat' (first | (simp (maxDischargeDepth := 100) [h, hs1]; done) | refine Follows.foldl (fun _ _ => ?_) ?_ | refine Answers.next.2 ?_ | refine Follows.takeNote ?_ (fun _ _ _ => ?_) | refine Follows.takeDsp ?_ (fun _ _ => ?_) | split)
  repeat' (first | (simp (maxDischargeDepth := 100) [h, hs1, hs2]; done) | refine Follows.foldl (fun _ _ => ?_) ?_ | refine Answers.next.2 ?_ | refine Follows.takeNote ?_ (fun _ _ _ => ?_) | refine Follows.takeDsp ?_ (fun _ _ => ?_) | split)

@[simp] theorem Answers.execProgImageRx {mw : Bool} {s0 : State} {x : ProgImage} {s : State} (h : Follows mw .kresia s0 s)
    : Answers mw .kresia s0 (Machine.execProgImageRx x s) := by
  simp only [Machine.execProgImageRx]
  repeat' (first | (simp (maxDischargeDepth := 100) [h]; done) | refine Follows.foldl (fun _ _ => ?_) ?_ | refine Answers.next.2 ?_ | refine Follows.takeNote ?_ (fun _ _ _ => ?_) | refine Follows.takeDsp ?_ (fun _ _ => ?_) | split)

@[simp] theorem Follows.withdrawLoad {mw : Bool} {s0 : State} {s : State} {d : Nat} {w : Machine.ProgWait} (h : Follows mw
    .kresia s0 s) : Follows mw .kresia s0 (State.withdrawLoad s d w) := by
  unfold State.withdrawLoad
  extract_lets x sw s1 s2
  have hs1 : Follows mw .kresia s0 s1 := by
    simp only [s1]
    repeat' (first | (simp (maxDischargeDepth := 100) [h]; done) | refine Follows.foldl (fun _ _ => ?_) ?_ | refine Answers.next.2 ?_ | refine Follows.takeNote ?_ (fun _ _ _ => ?_) | refine Follows.takeDsp ?_ (fun _ _ => ?_) | split)
  have hs2 : Follows mw .kresia s0 s2 := by
    simp only [s2]
    repeat' (first | (simp (maxDischargeDepth := 100) [h, hs1]; done) | refine Follows.foldl (fun _ _ => ?_) ?_ | refine Answers.next.2 ?_ | refine Follows.takeNote ?_ (fun _ _ _ => ?_) | refine Follows.takeDsp ?_ (fun _ _ => ?_) | split)
  repeat' (first | (simp (maxDischargeDepth := 100) [h, hs1, hs2]; done) | refine Follows.foldl (fun _ _ => ?_) ?_ | refine Answers.next.2 ?_ | refine Follows.takeNote ?_ (fun _ _ _ => ?_) | refine Follows.takeDsp ?_ (fun _ _ => ?_) | split)

@[simp] theorem Follows.beginRun {mw : Bool} {s0 : State} {s : State} {d : Nat} {g : Machine.Image} (h : Follows mw .kresia
    s0 s) : Follows mw .kresia s0 (State.beginRun s d g) := by
  unfold State.beginRun
  extract_lets s1
  have hs1 : Follows mw .kresia s0 s1 := by
    simp only [s1]
    repeat' (first | (simp (maxDischargeDepth := 100) [h]; done) | refine Follows.foldl (fun _ _ => ?_) ?_ | refine Answers.next.2 ?_ | refine Follows.takeNote ?_ (fun _ _ _ => ?_) | refine Follows.takeDsp ?_ (fun _ _ => ?_) | split)
  repeat' (first | (simp (maxDischargeDepth := 100) [h, hs1]; done) | refine Follows.foldl (fun _ _ => ?_) ?_ | refine Answers.next.2 ?_ | refine Follows.takeNote ?_ (fun _ _ _ => ?_) | refine Follows.takeDsp ?_ (fun _ _ => ?_) | split)

@[simp] theorem Answers.execProgLoadAckRx {mw : Bool} {s0 : State} {a : LoadAck} {s : State} (h : Follows mw .kresia s0 s)
    : Answers mw .kresia s0 (Machine.execProgLoadAckRx a s) := by
  simp only [Machine.execProgLoadAckRx]
  repeat' (first | (simp (maxDischargeDepth := 100) [h]; done) | refine Follows.foldl (fun _ _ => ?_) ?_ | refine Answers.next.2 ?_ | refine Follows.takeNote ?_ (fun _ _ _ => ?_) | refine Follows.takeDsp ?_ (fun _ _ => ?_) | split)

@[simp] theorem Answers.execProgramFreedRx {mw : Bool} {s0 : State} {a : LoadAck} {s : State} (h : Follows mw .kresia s0 s)
    : Answers mw .kresia s0 (Machine.execProgramFreedRx a s) := by
  simp (maxDischargeDepth := 100) [Machine.execProgramFreedRx, h]

@[simp] theorem Answers.execKresiaTampRx {mw : Bool} {s0 : State} {m : Ctl} {s : State} (h : Follows mw .kresia s0 s) :
    Answers mw .kresia s0 (Machine.execKresiaTampRx m s) := by
  simp (maxDischargeDepth := 100) [Machine.execKresiaTampRx, h]

@[simp] theorem Answers.execKresiaVoidRx {mw : Bool} {s0 : State} {m : Ctl} {s : State} (h : Follows mw .kresia s0 s) :
    Answers mw .kresia s0 (Machine.execKresiaVoidRx m s) := by
  simp (maxDischargeDepth := 100) [Machine.execKresiaVoidRx, h]

@[simp] theorem Follows.issueQueue {mw : Bool} {s0 : State} {s : State} {d : Nat} {step : Nat} {q : Nat} {n : Machine.Inst}
    (h : Follows mw .kresia s0 s) : Follows mw .kresia s0 (State.issueQueue s d step q n).1 := by
  simp only [State.issueQueue]
  repeat' (first | (simp (maxDischargeDepth := 100) [h]; done) | refine Follows.foldl (fun _ _ => ?_) ?_ | refine Answers.next.2 ?_ | refine Follows.takeNote ?_ (fun _ _ _ => ?_) | refine Follows.takeDsp ?_ (fun _ _ => ?_) | split)

@[simp] theorem Follows.issueFrom {mw : Bool} {s0 s : State} {d step : Nat} {l : List Nat} (h : Follows mw .kresia s0 s) :
    Follows mw .kresia s0 (s.issueFrom d step l) := by
  induction l generalizing s with
  | nil => simpa [State.issueFrom] using h
  | cons q t ih =>
    simp only [State.issueFrom]
    split
    · exact h
    · split
      · simp (maxDischargeDepth := 100) [h]
      · exact ih (by simp (maxDischargeDepth := 100) [h])

@[simp] theorem Answers.execQueueIssueTick {mw : Bool} {s0 : State} {domain : Nat} {step : Nat} {s : State} (h : Follows mw
    .kresia s0 s) : Answers mw .kresia s0 (Machine.execQueueIssueTick domain step s) := by
  simp only [Machine.execQueueIssueTick]
  repeat' (first | (simp (maxDischargeDepth := 100) [h]; done) | refine Follows.foldl (fun _ _ => ?_) ?_ | refine Answers.next.2 ?_ | refine Follows.takeNote ?_ (fun _ _ _ => ?_) | refine Follows.takeDsp ?_ (fun _ _ => ?_) | split)

@[simp] theorem Answers.execEntryComplete {mw : Bool} {s0 : State} {domain : Nat} {step : Nat} {entry : Nat} {s : State} (h
    : Follows mw .kresia s0 s) : Answers mw .kresia s0 (Machine.execEntryComplete domain step entry s) := by
  simp only [Machine.execEntryComplete]
  repeat' (first | (simp (maxDischargeDepth := 100) [h]; done) | refine Follows.foldl (fun _ _ => ?_) ?_ | refine Answers.next.2 ?_ | refine Follows.takeNote ?_ (fun _ _ _ => ?_) | refine Follows.takeDsp ?_ (fun _ _ => ?_) | split)

@[simp] theorem Follows.passWait {mw : Bool} {s0 : State} {s : State} {d : Nat} {step : Nat} {i : Nat} (h : Follows mw
    .kresia s0 s) : Follows mw .kresia s0 (State.passWait s d step i) := by
  unfold State.passWait
  extract_lets s1
  have hs1 : Follows mw .kresia s0 s1 := by
    simp only [s1]
    repeat' (first | (simp (maxDischargeDepth := 100) [h]; done) | refine Follows.foldl (fun _ _ => ?_) ?_ | refine Answers.next.2 ?_ | refine Follows.takeNote ?_ (fun _ _ _ => ?_) | refine Follows.takeDsp ?_ (fun _ _ => ?_) | split)
  repeat' (first | (simp (maxDischargeDepth := 100) [h, hs1]; done) | refine Follows.foldl (fun _ _ => ?_) ?_ | refine Answers.next.2 ?_ | refine Follows.takeNote ?_ (fun _ _ _ => ?_) | refine Follows.takeDsp ?_ (fun _ _ => ?_) | split)

@[simp] theorem Answers.execWaitTakeDone {mw : Bool} {s0 : State} {domain : Nat} {step : Nat} {entry : Nat} {s : State} (h
    : Follows mw .kresia s0 s) : Answers mw .kresia s0 (Machine.execWaitTakeDone domain step entry s) := by
  simp (maxDischargeDepth := 100) [Machine.execWaitTakeDone, h]

@[simp] theorem Answers.execWaitTimeout {mw : Bool} {s0 : State} {domain : Nat} {step : Nat} {entry : Nat} {s : State} (h :
    Follows mw .kresia s0 s) : Answers mw .kresia s0 (Machine.execWaitTimeout domain step entry s) := by
  simp only [Machine.execWaitTimeout]
  repeat' (first | (simp (maxDischargeDepth := 100) [h]; done) | refine Follows.foldl (fun _ _ => ?_) ?_ | refine Answers.next.2 ?_ | refine Follows.takeNote ?_ (fun _ _ _ => ?_) | refine Follows.takeDsp ?_ (fun _ _ => ?_) | split)

@[simp] theorem Answers.execSchedStart {mw : Bool} {s0 : State} {domain : Nat} {step : Nat} {entry : Nat} {s : State} (h :
    Follows mw .kresia s0 s) : Answers mw .kresia s0 (Machine.execSchedStart domain step entry s) := by
  simp only [Machine.execSchedStart]
  repeat' (first | (simp (maxDischargeDepth := 100) [h]; done) | refine Follows.foldl (fun _ _ => ?_) ?_ | refine Answers.next.2 ?_ | refine Follows.takeNote ?_ (fun _ _ _ => ?_) | refine Follows.takeDsp ?_ (fun _ _ => ?_) | split)

@[simp] theorem Answers.execSchedOverrun {mw : Bool} {s0 : State} {domain : Nat} {step : Nat} {entry : Nat} {s : State} (h
    : Follows mw .kresia s0 s) : Answers mw .kresia s0 (Machine.execSchedOverrun domain step entry s) := by
  simp only [Machine.execSchedOverrun]
  repeat' (first | (simp (maxDischargeDepth := 100) [h]; done) | refine Follows.foldl (fun _ _ => ?_) ?_ | refine Answers.next.2 ?_ | refine Follows.takeNote ?_ (fun _ _ _ => ?_) | refine Follows.takeDsp ?_ (fun _ _ => ?_) | split)

@[simp] theorem Answers.execScalarValueRx {mw : Bool} {s0 : State} {x : ScalarValue} {s : State} (h : Follows mw .kresia s0
    s) : Answers mw .kresia s0 (Machine.execScalarValueRx x s) := by
  simp (maxDischargeDepth := 100) [Machine.execScalarValueRx, h]

@[simp] theorem Answers.execScalarAckRx {mw : Bool} {s0 : State} {x : ScalarValue} {node : Nat} {s : State} (h : Follows mw
    .kresia s0 s) : Answers mw .kresia s0 (Machine.execScalarAckRx x node s) := by
  simp only [Machine.execScalarAckRx]
  repeat' (first | (simp (maxDischargeDepth := 100) [h]; done) | refine Follows.foldl (fun _ _ => ?_) ?_ | refine Answers.next.2 ?_ | refine Follows.takeNote ?_ (fun _ _ _ => ?_) | refine Follows.takeDsp ?_ (fun _ _ => ?_) | split)

@[simp] theorem Answers.execCpGo {mw : Bool} {s0 : State} {t : Nat} {s : State} (h : Follows mw .baxel s0 s) : Answers mw
    .baxel s0 (Machine.execCpGo t s) := by
  simp only [Machine.execCpGo]
  repeat' (first | (simp (maxDischargeDepth := 100) [h]; done) | refine Follows.foldl (fun _ _ => ?_) ?_ | refine Answers.next.2 ?_ | refine Follows.takeNote ?_ (fun _ _ _ => ?_) | refine Follows.takeDsp ?_ (fun _ _ => ?_) | split)

@[simp] theorem Answers.execChunkPacketRx {mw : Bool} {s0 : State} {port : Nat} {k : ChunkPacket} {s : State} (h : Follows
    mw .kresia s0 s) : Answers mw .kresia s0 (Machine.execChunkPacketRx port k s) := by
  simp (maxDischargeDepth := 100) [Machine.execChunkPacketRx, h]

@[simp] theorem Follows.takeNote {mw : Bool} {s0 s : State} {d epoch step c k node : Nat} {f : State → Image → Nat → State}
    (h : Follows mw .kresia s0 s) (hf : ∀ s g x, Follows mw .kresia s (f s g x)) : Follows mw .kresia s0 (s.takeNote d epoch step c k node f) := by
  have hf' : ∀ s1 g x, Follows mw .kresia s0 s1 → Follows mw .kresia s0 (f s1 g x) := fun s1 g x q => q.trans (hf s1 g x)
  unfold State.takeNote
  dsimp only
  repeat' (first | (simp (maxDischargeDepth := 100) [h, hf']; done) | split)

@[simp] theorem Follows.flushLeaves {mw : Bool} {s0 : State} {s : State} {d : Nat} {c : Nat} {home : Nat} {g :
    Machine.Image} (h : Follows mw .kresia s0 s) : Follows mw .kresia s0 (State.flushLeaves s d c home g) := by
  simp only [State.flushLeaves]
  repeat' (first | (simp (maxDischargeDepth := 100) [h]; done) | refine Follows.foldl (fun _ _ => ?_) ?_ | refine Answers.next.2 ?_ | refine Follows.takeNote ?_ (fun _ _ _ => ?_) | refine Follows.takeDsp ?_ (fun _ _ => ?_) | split)

@[simp] theorem Answers.execChunkBaseRx {mw : Bool} {s0 : State} {p : Part} {n : ChunkNote} {s : State} (h : Follows mw p
    s0 s) : Answers mw p s0 (Machine.execChunkBaseRx p n s) := by
  simp only [Machine.execChunkBaseRx]
  repeat' (first | (simp (maxDischargeDepth := 100) [h]; done) | refine Follows.foldl (fun _ _ => ?_) ?_ | refine Answers.next.2 ?_ | refine Follows.takeNote ?_ (fun _ _ _ => ?_) | refine Follows.takeDsp ?_ (fun _ _ => ?_) | split)

@[simp] theorem Answers.execChunkBaseNoticeTimer {mw : Bool} {s0 : State} {domain : Nat} {coll : Nat} {role : Nat} {step :
    Nat} {s : State} (h : Follows mw .kresia s0 s) : Answers mw .kresia s0 (Machine.execChunkBaseNoticeTimer domain coll role step s) := by
  simp only [Machine.execChunkBaseNoticeTimer]
  repeat' (first | (simp (maxDischargeDepth := 100) [h]; done) | refine Follows.foldl (fun _ _ => ?_) ?_ | refine Answers.next.2 ?_ | refine Follows.takeNote ?_ (fun _ _ _ => ?_) | refine Follows.takeDsp ?_ (fun _ _ => ?_) | split)

@[simp] theorem Answers.execChunkDoneRx {mw : Bool} {s0 : State} {n : ChunkNote} {s : State} (h : Follows mw .baxel s0 s) :
    Answers mw .baxel s0 (Machine.execChunkDoneRx n s) := by
  simp only [Machine.execChunkDoneRx]
  repeat' (first | (simp (maxDischargeDepth := 100) [h]; done) | refine Follows.foldl (fun _ _ => ?_) ?_ | refine Answers.next.2 ?_ | refine Follows.takeNote ?_ (fun _ _ _ => ?_) | refine Follows.takeDsp ?_ (fun _ _ => ?_) | split)

@[simp] theorem Answers.execChunkFailRx {mw : Bool} {s0 : State} {n : ChunkNote} {s : State} (h : Follows mw .kresia s0 s)
    : Answers mw .kresia s0 (Machine.execChunkFailRx n s) := by
  simp only [Machine.execChunkFailRx]
  repeat' (first | (simp (maxDischargeDepth := 100) [h]; done) | refine Follows.foldl (fun _ _ => ?_) ?_ | refine Answers.next.2 ?_ | refine Follows.takeNote ?_ (fun _ _ _ => ?_) | refine Follows.takeDsp ?_ (fun _ _ => ?_) | split)

@[simp] theorem Answers.execChunkRestartRx {mw : Bool} {s0 : State} {p : Part} {n : ChunkNote} {s : State} (h : Follows mw
    p s0 s) : Answers mw p s0 (Machine.execChunkRestartRx p n s) := by
  simp only [Machine.execChunkRestartRx]
  repeat' (first | (simp (maxDischargeDepth := 100) [h]; done) | refine Follows.foldl (fun _ _ => ?_) ?_ | refine Answers.next.2 ?_ | refine Follows.takeNote ?_ (fun _ _ _ => ?_) | refine Follows.takeDsp ?_ (fun _ _ => ?_) | split)

@[simp] theorem Answers.execChunkOpenWait {mw : Bool} {s0 : State} {entry : Nat} {s : State} (h : Follows mw .kresia s0 s)
    : Answers mw .kresia s0 (Machine.execChunkOpenWait entry s) := by
  simp only [Machine.execChunkOpenWait]
  repeat' (first | (simp (maxDischargeDepth := 100) [h]; done) | refine Follows.foldl (fun _ _ => ?_) ?_ | refine Answers.next.2 ?_ | refine Follows.takeNote ?_ (fun _ _ _ => ?_) | refine Follows.takeDsp ?_ (fun _ _ => ?_) | split)

@[simp] theorem Answers.execPartTimeout {mw : Bool} {s0 : State} {entry : Nat} {sender : Nat} {s : State} (h : Follows mw
    .kresia s0 s) : Answers mw .kresia s0 (Machine.execPartTimeout entry sender s) := by
  simp only [Machine.execPartTimeout]
  repeat' (first | (simp (maxDischargeDepth := 100) [h]; done) | refine Follows.foldl (fun _ _ => ?_) ?_ | refine Answers.next.2 ?_ | refine Follows.takeNote ?_ (fun _ _ _ => ?_) | refine Follows.takeDsp ?_ (fun _ _ => ?_) | split)

@[simp] theorem Follows.ksMove {mw : Bool} {s0 : State} {s : State} {m : HomeMove} (h : Follows mw .kresia s0 s) : Follows
    mw .kresia s0 (State.ksMove s m) := by
  unfold State.ksMove
  extract_lets d mv s1
  have hs1 : Follows mw .kresia s0 s1 := by
    simp only [s1]
    repeat' (first | (simp (maxDischargeDepth := 100) [h]; done) | refine Follows.foldl (fun _ _ => ?_) ?_ | refine Answers.next.2 ?_ | refine Follows.takeNote ?_ (fun _ _ _ => ?_) | refine Follows.takeDsp ?_ (fun _ _ => ?_) | split)
  repeat' (first | (simp (maxDischargeDepth := 100) [h, hs1]; done) | refine Follows.foldl (fun _ _ => ?_) ?_ | refine Answers.next.2 ?_ | refine Follows.takeNote ?_ (fun _ _ _ => ?_) | refine Follows.takeDsp ?_ (fun _ _ => ?_) | split)

@[simp] theorem Follows.spreadMoves {mw : Bool} {s0 : State} {s : State} {d : Nat} {l : List HomeMove} (h : Follows mw
    .kresia s0 s) : Follows mw .kresia s0 (State.spreadMoves s d l) := by
  simp (maxDischargeDepth := 100) [State.spreadMoves, h]

@[simp] theorem Answers.execHomeMoveRx {mw : Bool} {s0 : State} {p : Part} {m : HomeMove} {s : State} (h : Follows mw p s0
    s) : Answers mw p s0 (Machine.execHomeMoveRx p m s) := by
  simp only [Machine.execHomeMoveRx]
  repeat' (first | (simp (maxDischargeDepth := 100) [h]; done) | refine Follows.foldl (fun _ _ => ?_) ?_ | refine Answers.next.2 ?_ | refine Follows.takeNote ?_ (fun _ _ _ => ?_) | refine Follows.takeDsp ?_ (fun _ _ => ?_) | split)

@[simp] theorem Follows.wrWords {mw : Bool} {s0 : State} {s : State} {p : Part} {a : Nat} {n : Nat} {v : Nat} (h : Follows
    mw p s0 s) : Follows mw p s0 (State.wrWords s p a n v) := by
  simp (maxDischargeDepth := 100) [State.wrWords, h]

@[simp] theorem Answers.execFeltProbeSel {mw : Bool} {s0 : State} {w : Word} {s : State} (h : Follows mw .kresia s0 s) :
    Answers mw .kresia s0 (Machine.execFeltProbeSel w s) := by
  simp only [Machine.execFeltProbeSel]
  repeat' (first | (simp (maxDischargeDepth := 100) [h]; done) | refine Follows.foldl (fun _ _ => ?_) ?_ | refine Answers.next.2 ?_ | refine Follows.takeNote ?_ (fun _ _ _ => ?_) | refine Follows.takeDsp ?_ (fun _ _ => ?_) | split)

@[simp] theorem Answers.execChunkSel {mw : Bool} {s0 : State} {w : Word} {s : State} (h : Follows mw .kresia s0 s) :
    Answers mw .kresia s0 (Machine.execChunkSel w s) := by
  unfold Machine.execChunkSel
  extract_lets sel s1
  have hs1 : Follows mw .kresia s0 s1 := by
    simp only [s1]
    repeat' (first | (simp (maxDischargeDepth := 100) [h]; done) | refine Follows.foldl (fun _ _ => ?_) ?_ | refine Answers.next.2 ?_ | refine Follows.takeNote ?_ (fun _ _ _ => ?_) | refine Follows.takeDsp ?_ (fun _ _ => ?_) | split)
  repeat' (first | (simp (maxDischargeDepth := 100) [h, hs1]; done) | refine Follows.foldl (fun _ _ => ?_) ?_ | refine Answers.next.2 ?_ | refine Follows.takeNote ?_ (fun _ _ _ => ?_) | refine Follows.takeDsp ?_ (fun _ _ => ?_) | split)

@[simp] theorem Follows.runBlock {mw : Bool} {s0 : State} {s : State} {j : Machine.BlockJob} {e : Machine.ChunkEntry} (h :
    Follows mw .kresia s0 s) : Follows mw .kresia s0 (State.runBlock s j e) := by
  simp (maxDischargeDepth := 100) [State.runBlock, h]

@[simp] theorem Answers.execBlockStart {mw : Bool} {s0 : State} {s : State} (h : Follows mw .kresia s0 s) : Answers mw
    .kresia s0 (Machine.execBlockStart s) := by
  simp only [Machine.execBlockStart]
  repeat' (first | (simp (maxDischargeDepth := 100) [h]; done) | refine Follows.foldl (fun _ _ => ?_) ?_ | refine Answers.next.2 ?_ | refine Follows.takeNote ?_ (fun _ _ _ => ?_) | refine Follows.takeDsp ?_ (fun _ _ => ?_) | split)

@[simp] theorem Follows.afterBlock {mw : Bool} {s0 : State} {s : State} {g : Machine.Image} {j : Machine.BlockJob} (h :
    Follows mw .kresia s0 s) : Follows mw .kresia s0 (State.afterBlock s g j) := by
  unfold State.afterBlock
  extract_lets s1
  have hs1 : Follows mw .kresia s0 s1 := by
    simp only [s1]
    repeat' (first | (simp (maxDischargeDepth := 100) [h]; done) | refine Follows.foldl (fun _ _ => ?_) ?_ | refine Answers.next.2 ?_ | refine Follows.takeNote ?_ (fun _ _ _ => ?_) | refine Follows.takeDsp ?_ (fun _ _ => ?_) | split)
  repeat' (first | (simp (maxDischargeDepth := 100) [h, hs1]; done) | refine Follows.foldl (fun _ _ => ?_) ?_ | refine Answers.next.2 ?_ | refine Follows.takeNote ?_ (fun _ _ _ => ?_) | refine Follows.takeDsp ?_ (fun _ _ => ?_) | split)

@[simp] theorem Follows.commitBlock {mw : Bool} {s0 : State} {s : State} {j : Machine.BlockJob} (h : Follows mw .kresia s0
    s) : Follows mw .kresia s0 (State.commitBlock s j) := by
  simp (maxDischargeDepth := 100) [State.commitBlock, h]

@[simp] theorem Answers.execBlockCommit {mw : Bool} {s0 : State} {domain : Nat} {coll : Nat} {chunk : Nat} {s : State} (h :
    Follows mw .kresia s0 s) : Answers mw .kresia s0 (Machine.execBlockCommit domain coll chunk s) := by
  simp only [Machine.execBlockCommit]
  repeat' (first | (simp (maxDischargeDepth := 100) [h]; done) | refine Follows.foldl (fun _ _ => ?_) ?_ | refine Answers.next.2 ?_ | refine Follows.takeNote ?_ (fun _ _ _ => ?_) | refine Follows.takeDsp ?_ (fun _ _ => ?_) | split)

@[simp] theorem Follows.stateLost {mw : Bool} {s0 : State} {s : State} {d : Nat} {c : Nat} {k : Nat} {ix : Option Nat}
    {step : Nat} (h : Follows mw .kresia s0 s) : Follows mw .kresia s0 (State.stateLost s d c k ix step) := by
  unfold State.stateLost
  extract_lets s1
  have hs1 : Follows mw .kresia s0 s1 := by
    simp only [s1]
    repeat' (first | (simp (maxDischargeDepth := 100) [h]; done) | refine Follows.foldl (fun _ _ => ?_) ?_ | refine Answers.next.2 ?_ | refine Follows.takeNote ?_ (fun _ _ _ => ?_) | refine Follows.takeDsp ?_ (fun _ _ => ?_) | split)
  repeat' (first | (simp (maxDischargeDepth := 100) [h, hs1]; done) | refine Follows.foldl (fun _ _ => ?_) ?_ | refine Answers.next.2 ?_ | refine Follows.takeNote ?_ (fun _ _ _ => ?_) | refine Follows.takeDsp ?_ (fun _ _ => ?_) | split)

@[simp] theorem Answers.execStateEccError {mw : Bool} {s0 : State} {domain : Nat} {coll : Nat} {chunk : Nat} {copy : Option
    (List Byte)} {s : State} (h : Follows mw .kresia s0 s) : Answers mw .kresia s0 (Machine.execStateEccError domain coll chunk copy s) := by
  simp only [Machine.execStateEccError]
  repeat' (first | (simp (maxDischargeDepth := 100) [h]; done) | refine Follows.foldl (fun _ _ => ?_) ?_ | refine Answers.next.2 ?_ | refine Follows.takeNote ?_ (fun _ _ _ => ?_) | refine Follows.takeDsp ?_ (fun _ _ => ?_) | split)

@[simp] theorem Answers.execDpGo {mw : Bool} {s0 : State} {t : Nat} {s : State} (h : Follows mw .baxel s0 s) : Answers mw
    .baxel s0 (Machine.execDpGo t s) := by
  simp only [Machine.execDpGo]
  repeat' (first | (simp (maxDischargeDepth := 100) [h]; done) | refine Follows.foldl (fun _ _ => ?_) ?_ | refine Answers.next.2 ?_ | refine Follows.takeNote ?_ (fun _ _ _ => ?_) | refine Follows.takeDsp ?_ (fun _ _ => ?_) | split)

@[simp] theorem Answers.execDspOpenRx {mw : Bool} {s0 : State} {n : DspNote} {s : State} (h : Follows mw .baxel s0 s) :
    Answers mw .baxel s0 (Machine.execDspOpenRx n s) := by
  simp only [Machine.execDspOpenRx]
  repeat' (first | (simp (maxDischargeDepth := 100) [h]; done) | refine Follows.foldl (fun _ _ => ?_) ?_ | refine Answers.next.2 ?_ | refine Follows.takeNote ?_ (fun _ _ _ => ?_) | refine Follows.takeDsp ?_ (fun _ _ => ?_) | split)

@[simp] theorem Answers.execDspGoRx {mw : Bool} {s0 : State} {n : DspNote} {s : State} (h : Follows mw .baxel s0 s) :
    Answers mw .baxel s0 (Machine.execDspGoRx n s) := by
  simp only [Machine.execDspGoRx]
  repeat' (first | (simp (maxDischargeDepth := 100) [h]; done) | refine Follows.foldl (fun _ _ => ?_) ?_ | refine Answers.next.2 ?_ | refine Follows.takeNote ?_ (fun _ _ _ => ?_) | refine Follows.takeDsp ?_ (fun _ _ => ?_) | split)

@[simp] theorem Answers.execDpRetGo {mw : Bool} {s0 : State} {t : Nat} {s : State} (h : Follows mw .baxel s0 s) : Answers
    mw .baxel s0 (Machine.execDpRetGo t s) := by
  simp (maxDischargeDepth := 100) [Machine.execDpRetGo, h]

@[simp] theorem Answers.execDspRestartRx {mw : Bool} {s0 : State} {n : DspNote} {s : State} (h : Follows mw .baxel s0 s) :
    Answers mw .baxel s0 (Machine.execDspRestartRx n s) := by
  simp only [Machine.execDspRestartRx]
  repeat' (first | (simp (maxDischargeDepth := 100) [h]; done) | refine Follows.foldl (fun _ _ => ?_) ?_ | refine Answers.next.2 ?_ | refine Follows.takeNote ?_ (fun _ _ _ => ?_) | refine Follows.takeDsp ?_ (fun _ _ => ?_) | split)

@[simp] theorem Answers.execMemReadData {mw : Bool} {s0 : State} {port : Nat} {id : Nat} {data : List Byte} {err : Bool} {s
    : State} (h : Follows mw .baxel s0 s) : Answers mw .baxel s0 (Machine.execMemReadData port id data err s) := by
  simp only [Machine.execMemReadData]
  repeat' (first | (simp (maxDischargeDepth := 100) [h]; done) | refine Follows.foldl (fun _ _ => ?_) ?_ | refine Answers.next.2 ?_ | refine Follows.takeNote ?_ (fun _ _ _ => ?_) | refine Follows.takeDsp ?_ (fun _ _ => ?_) | split)

@[simp] theorem Answers.execMemPortTimeout {mw : Bool} {s0 : State} {rd : Bool} {port : Nat} {id : Nat} {s : State} (h :
    Follows mw .baxel s0 s) : Answers mw .baxel s0 (Machine.execMemPortTimeout rd port id s) := by
  simp only [Machine.execMemPortTimeout]
  repeat' (first | (simp (maxDischargeDepth := 100) [h]; done) | refine Follows.foldl (fun _ _ => ?_) ?_ | split)

@[simp] theorem Follows.takeDsp {mw : Bool} {s0 s : State} {d epoch step : Nat} {f : State → Image → State} (h : Follows mw
    .kresia s0 s) (hf : ∀ s g, Follows mw .kresia s (f s g)) : Follows mw .kresia s0 (s.takeDsp d epoch step f) := by
  have hf' : ∀ s1 g, Follows mw .kresia s0 s1 → Follows mw .kresia s0 (f s1 g) := fun s1 g q => q.trans (hf s1 g)
  unfold State.takeDsp
  dsimp only
  repeat' (first | (simp (maxDischargeDepth := 100) [h, hf']; done) | split)

@[simp] theorem Answers.execDspRecordRx {mw : Bool} {s0 : State} {x : DspPacket} {s : State} (h : Follows mw .kresia s0 s)
    : Answers mw .kresia s0 (Machine.execDspRecordRx x s) := by
  simp (maxDischargeDepth := 100) [Machine.execDspRecordRx, h]

@[simp] theorem Answers.execDspListRx {mw : Bool} {s0 : State} {x : DspPacket} {s : State} (h : Follows mw .kresia s0 s) :
    Answers mw .kresia s0 (Machine.execDspListRx x s) := by
  simp (maxDischargeDepth := 100) [Machine.execDspListRx, h]

@[simp] theorem Answers.execDspPayloadRx {mw : Bool} {s0 : State} {x : DspPacket} {s : State} (h : Follows mw .kresia s0 s)
    : Answers mw .kresia s0 (Machine.execDspPayloadRx x s) := by
  simp only [Machine.execDspPayloadRx]
  repeat' (first | (simp (maxDischargeDepth := 100) [h]; done) | refine Follows.foldl (fun _ _ => ?_) ?_ | refine Answers.next.2 ?_ | refine Follows.takeNote ?_ (fun _ _ _ => ?_) | refine Follows.takeDsp ?_ (fun _ _ => ?_) | split)

@[simp] theorem Answers.execDspLostRx {mw : Bool} {s0 : State} {n : DspNote} {s : State} (h : Follows mw .kresia s0 s) :
    Answers mw .kresia s0 (Machine.execDspLostRx n s) := by
  simp only [Machine.execDspLostRx]
  repeat' (first | (simp (maxDischargeDepth := 100) [h]; done) | refine Follows.foldl (fun _ _ => ?_) ?_ | refine Answers.next.2 ?_ | refine Follows.takeNote ?_ (fun _ _ _ => ?_) | refine Follows.takeDsp ?_ (fun _ _ => ?_) | split)

@[simp] theorem Answers.execDspPlacementsRx {mw : Bool} {s0 : State} {p : DspPlacements} {s : State} (h : Follows mw
    .kresia s0 s) : Answers mw .kresia s0 (Machine.execDspPlacementsRx p s) := by
  simp (maxDischargeDepth := 100) [Machine.execDspPlacementsRx, h]

@[simp] theorem Answers.execDspAssignEngineFree {mw : Bool} {s0 : State} {s : State} (h : Follows mw .kresia s0 s) :
    Answers mw .kresia s0 (Machine.execDspAssignEngineFree s) := by
  unfold Machine.execDspAssignEngineFree
  extract_lets s1
  have hs1 : Follows mw .kresia s0 s1 := by
    simp only [s1]
    repeat' (first | (simp (maxDischargeDepth := 100) [h]; done) | refine Follows.foldl (fun _ _ => ?_) ?_ | refine Answers.next.2 ?_ | refine Follows.takeNote ?_ (fun _ _ _ => ?_) | refine Follows.takeDsp ?_ (fun _ _ => ?_) | split)
  repeat' (first | (simp (maxDischargeDepth := 100) [h, hs1]; done) | refine Follows.foldl (fun _ _ => ?_) ?_ | refine Answers.next.2 ?_ | refine Follows.takeNote ?_ (fun _ _ _ => ?_) | refine Follows.takeDsp ?_ (fun _ _ => ?_) | split)

@[simp] theorem Answers.execDspSel {mw : Bool} {s0 : State} {w : Word} {s : State} (h : Follows mw .kresia s0 s) : Answers
    mw .kresia s0 (Machine.execDspSel w s) := by
  unfold Machine.execDspSel
  extract_lets e d l grp s1 all
  have hs1 : Follows mw .kresia s0 s1 := by
    simp only [s1]
    repeat' (first | (simp (maxDischargeDepth := 100) [h]; done) | refine Follows.foldl (fun _ _ => ?_) ?_ | refine Answers.next.2 ?_ | refine Follows.takeNote ?_ (fun _ _ _ => ?_) | refine Follows.takeDsp ?_ (fun _ _ => ?_) | split)
  repeat' (first | (simp (maxDischargeDepth := 100) [h, hs1]; done) | refine Follows.foldl (fun _ _ => ?_) ?_ | refine Answers.next.2 ?_ | refine Follows.takeNote ?_ (fun _ _ _ => ?_) | refine Follows.takeDsp ?_ (fun _ _ => ?_) | split)

@[simp] theorem Answers.execHeartbeatSend {mw : Bool} {s0 : State} {p : Part} {port : Nat} {s : State} (h : Follows mw p s0
    s) : Answers mw p s0 (Machine.execHeartbeatSend p port s) := by
  simp (maxDischargeDepth := 100) [Machine.execHeartbeatSend, h]

@[simp] theorem Follows.fencedAlive {mw : Bool} {s0 : State} {s : State} {p : Part} {port : Nat} {node : Nat} (h : Follows
    mw p s0 s) : Follows mw p s0 (State.fencedAlive s p port node) := by
  simp only [State.fencedAlive]
  repeat' (first | (simp (maxDischargeDepth := 100) [h]; done) | refine Follows.foldl (fun _ _ => ?_) ?_ | refine Answers.next.2 ?_ | refine Follows.takeNote ?_ (fun _ _ _ => ?_) | refine Follows.takeDsp ?_ (fun _ _ => ?_) | split)

@[simp] theorem Follows.singleNow {mw : Bool} {s0 : State} {s : State} {p : Part} {port : Nat} {h0_ : Heartbeat} (h :
    Follows mw p s0 s) : Follows mw p s0 (State.singleNow s p port h0_) := by
  simp only [State.singleNow]
  repeat' (first | (simp (maxDischargeDepth := 100) [h]; done) | refine Follows.foldl (fun _ _ => ?_) ?_ | refine Answers.next.2 ?_ | refine Follows.takeNote ?_ (fun _ _ _ => ?_) | refine Follows.takeDsp ?_ (fun _ _ => ?_) | split)

@[simp] theorem Answers.execHeartbeatRx {mw : Bool} {s0 : State} {p : Part} {port : Nat} {h0_ : Heartbeat} {s : State} (h :
    Follows mw p s0 s) : Answers mw p s0 (Machine.execHeartbeatRx p port h0_ s) := by
  simp (maxDischargeDepth := 100) [Machine.execHeartbeatRx, h]

@[simp] theorem Answers.execHeartbeatLost {mw : Bool} {s0 : State} {p : Part} {port : Nat} {s : State} (h : Follows mw p s0
    s) : Answers mw p s0 (Machine.execHeartbeatLost p port s) := by
  simp only [Machine.execHeartbeatLost]
  repeat' (first | (simp (maxDischargeDepth := 100) [h]; done) | refine Follows.foldl (fun _ _ => ?_) ?_ | refine Answers.next.2 ?_ | refine Follows.takeNote ?_ (fun _ _ _ => ?_) | refine Follows.takeDsp ?_ (fun _ _ => ?_) | split)

@[simp] theorem Answers.execBaxelReportRx {mw : Bool} {s0 : State} {port : Nat} {r : BxReport} {s : State} (h : Follows mw
    .kresia s0 s) : Answers mw .kresia s0 (Machine.execBaxelReportRx port r s) := by
  simp (maxDischargeDepth := 100) [Machine.execBaxelReportRx, h]

@[simp] theorem Answers.execKsAliveTimer {mw : Bool} {s0 : State} {s : State} (h : Follows mw .kresia s0 s) : Answers mw
    .kresia s0 (Machine.execKsAliveTimer s) := by
  simp (maxDischargeDepth := 100) [Machine.execKsAliveTimer, h]

@[simp] theorem Answers.execEventResendTimer {mw : Bool} {s0 : State} {s : State} (h : Follows mw .kresia s0 s) : Answers
    mw .kresia s0 (Machine.execEventResendTimer s) := by
  simp (maxDischargeDepth := 100) [Machine.execEventResendTimer, h]

@[simp] theorem Follows.cutPeer {mw : Bool} {s0 : State} {s : State} {subject : Nat} (h : Follows mw .kresia s0 s) :
    Follows mw .kresia s0 (State.cutPeer s subject) := by
  simp (maxDischargeDepth := 100) [State.cutPeer, h]

@[simp] theorem Follows.applyFence {mw : Bool} {s0 : State} {s : State} {n : FenceNotice} (h : Follows mw .kresia s0 s) :
    Follows mw .kresia s0 (State.applyFence s n) := by
  unfold State.applyFence
  extract_lets s1
  have hs1 : Follows mw .kresia s0 s1 := by
    simp only [s1]
    repeat' (first | (simp (maxDischargeDepth := 100) [h]; done) | refine Follows.foldl (fun _ _ => ?_) ?_ | refine Answers.next.2 ?_ | refine Follows.takeNote ?_ (fun _ _ _ => ?_) | refine Follows.takeDsp ?_ (fun _ _ => ?_) | split)
  repeat' (first | (simp (maxDischargeDepth := 100) [h, hs1]; done) | refine Follows.foldl (fun _ _ => ?_) ?_ | refine Answers.next.2 ?_ | refine Follows.takeNote ?_ (fun _ _ _ => ?_) | refine Follows.takeDsp ?_ (fun _ _ => ?_) | split)

@[simp] theorem Answers.execFenceNoticeRx {mw : Bool} {s0 : State} {n : FenceNotice} {s : State} (h : Follows mw .kresia s0
    s) : Answers mw .kresia s0 (Machine.execFenceNoticeRx n s) := by
  simp (maxDischargeDepth := 100) [Machine.execFenceNoticeRx, h]

@[simp] theorem Answers.execRemirrorChunkCommit {mw : Bool} {s0 : State} {domain : Nat} {coll : Nat} {chunk : Nat} {s :
    State} (h : Follows mw .kresia s0 s) : Answers mw .kresia s0 (Machine.execRemirrorChunkCommit domain coll chunk s) := by
  simp (maxDischargeDepth := 100) [Machine.execRemirrorChunkCommit, h]

@[simp] theorem Answers.execThrottleLevelChange {mw : Bool} {s0 : State} {up : Bool} {s : State} (h : Follows mw .kresia s0
    s) : Answers mw .kresia s0 (Machine.execThrottleLevelChange up s) := by
  simp (maxDischargeDepth := 100) [Machine.execThrottleLevelChange, h]

@[simp] theorem Answers.execCupPartialRx {mw : Bool} {s0 : State} {m : CupPartial} {s : State} (h : Follows mw .kresia s0
    s) : Answers mw .kresia s0 (Machine.execCupPartialRx m s) := by
  simp (maxDischargeDepth := 100) [Machine.execCupPartialRx, h]

@[simp] theorem Answers.execCupIncompleteTimeout {mw : Bool} {s0 : State} {domain : Nat} {step : Nat} {s : State} (h :
    Follows mw .kresia s0 s) : Answers mw .kresia s0 (Machine.execCupIncompleteTimeout domain step s) := by
  simp only [Machine.execCupIncompleteTimeout]
  repeat' (first | (simp (maxDischargeDepth := 100) [h]; done) | refine Follows.foldl (fun _ _ => ?_) ?_ | refine Answers.next.2 ?_ | refine Follows.takeNote ?_ (fun _ _ _ => ?_) | refine Follows.takeDsp ?_ (fun _ _ => ?_) | split)

@[simp] theorem Follows.endCheck {mw : Bool} {s0 : State} {s : State} {q : Machine.CupCheck} (h : Follows mw .kresia s0 s)
    : Follows mw .kresia s0 (State.endCheck s q) := by
  simp (maxDischargeDepth := 100) [State.endCheck, h]

@[simp] theorem Answers.execCupShardDigestsRx {mw : Bool} {s0 : State} {m : ShardDigests} {s : State} (h : Follows mw
    .kresia s0 s) : Answers mw .kresia s0 (Machine.execCupShardDigestsRx m s) := by
  simp only [Machine.execCupShardDigestsRx]
  repeat' (first | (simp (maxDischargeDepth := 100) [h]; done) | refine Follows.foldl (fun _ _ => ?_) ?_ | refine Answers.next.2 ?_ | refine Follows.takeNote ?_ (fun _ _ _ => ?_) | refine Follows.takeDsp ?_ (fun _ _ => ?_) | split)

@[simp] theorem Follows.modBank {mw : Bool} {s0 : State} {s : State} {p : Part} {k : Nat} {f : Machine.CtrBank →
    Machine.CtrBank} (h : Follows mw p s0 s) : Follows mw p s0 (State.modBank s p k f) := by
  simp (maxDischargeDepth := 100) [State.modBank, h]

@[simp] theorem Follows.bankCode {mw : Bool} {s0 : State} {s : State} {p : Part} {k : Nat} {code : Code} (h : Follows mw p
    s0 s) : Follows mw p s0 (State.bankCode s p k code) := by
  simp (maxDischargeDepth := 100) [State.bankCode, h]

@[simp] theorem Follows.putCtr {mw : Bool} {s0 : State} {s : State} {p : Part} {k : Nat} {i : Nat} {c : Machine.Ctr} (h :
    Follows mw p s0 s) : Follows mw p s0 (State.putCtr s p k i c) := by
  simp only [State.putCtr]
  repeat' (first | (simp (maxDischargeDepth := 100) [h]; done) | refine Follows.foldl (fun _ _ => ?_) ?_ | refine Answers.next.2 ?_ | refine Follows.takeNote ?_ (fun _ _ _ => ?_) | refine Follows.takeDsp ?_ (fun _ _ => ?_) | split)

@[simp] theorem Follows.putHist {mw : Bool} {s0 : State} {s : State} {p : Part} {k : Nat} {i : Nat} {h0_ : Machine.Hist} (h
    : Follows mw p s0 s) : Follows mw p s0 (State.putHist s p k i h0_) := by
  simp only [State.putHist]
  repeat' (first | (simp (maxDischargeDepth := 100) [h]; done) | refine Follows.foldl (fun _ _ => ?_) ?_ | refine Answers.next.2 ?_ | refine Follows.takeNote ?_ (fun _ _ _ => ?_) | refine Follows.takeDsp ?_ (fun _ _ => ?_) | split)

@[simp] theorem Answers.execCtrCfgWrite {mw : Bool} {s0 : State} {p : Part} {v : View} {addr : Nat} {w : Word} {s : State}
    (h : Follows mw p s0 s) : Answers mw p s0 (Machine.execCtrCfgWrite p v addr w s) := by
  simp only [Machine.execCtrCfgWrite]
  repeat' (first | (simp (maxDischargeDepth := 100) [h]; done) | refine Follows.foldl (fun _ _ => ?_) ?_ | refine Answers.next.2 ?_ | refine Follows.takeNote ?_ (fun _ _ _ => ?_) | refine Follows.takeDsp ?_ (fun _ _ => ?_) | split)

@[simp] theorem Follows.ctrControl {mw : Bool} {s0 : State} {s : State} {p : Part} {v : View} {addr : Nat} {w : Word} (h :
    Follows mw p s0 s) : Follows mw p s0 (State.ctrControl s p v addr w) := by
  simp only [State.ctrControl]
  repeat' (first | (simp (maxDischargeDepth := 100) [h]; done) | refine Follows.foldl (fun _ _ => ?_) ?_ | refine Answers.next.2 ?_ | refine Follows.takeNote ?_ (fun _ _ _ => ?_) | refine Follows.takeDsp ?_ (fun _ _ => ?_) | split)

@[simp] theorem Answers.execCtrLatch {mw : Bool} {s0 : State} {p : Part} {v : View} {addr : Nat} {w : Word} {s : State} (h
    : Follows mw p s0 s) : Answers mw p s0 (Machine.execCtrLatch p v addr w s) := by
  simp (maxDischargeDepth := 100) [Machine.execCtrLatch, h]

@[simp] theorem Answers.execCtrClear {mw : Bool} {s0 : State} {p : Part} {v : View} {addr : Nat} {w : Word} {s : State} (h
    : Follows mw p s0 s) : Answers mw p s0 (Machine.execCtrClear p v addr w s) := by
  simp (maxDischargeDepth := 100) [Machine.execCtrClear, h]

@[simp] theorem Answers.execSnapRx {mw : Bool} {s0 : State} {p : Part} {x : SnapMsg} {s : State} (h : Follows mw p s0 s) :
    Answers mw p s0 (Machine.execSnapRx p x s) := by
  simp only [Machine.execSnapRx]
  repeat' (first | (simp (maxDischargeDepth := 100) [h]; done) | refine Follows.foldl (fun _ _ => ?_) ?_ | refine Answers.next.2 ?_ | refine Follows.takeNote ?_ (fun _ _ _ => ?_) | refine Follows.takeDsp ?_ (fun _ _ => ?_) | split)

@[simp] theorem Answers.execSnapCapture {mw : Bool} {s0 : State} {p : Part} {s : State} (h : Follows mw p s0 s) : Answers
    mw p s0 (Machine.execSnapCapture p s) := by
  simp only [Machine.execSnapCapture]
  repeat' (first | (simp (maxDischargeDepth := 100) [h]; done) | refine Follows.foldl (fun _ _ => ?_) ?_ | refine Answers.next.2 ?_ | refine Follows.takeNote ?_ (fun _ _ _ => ?_) | refine Follows.takeDsp ?_ (fun _ _ => ?_) | split)

@[simp] theorem Answers.execSnapRetire {mw : Bool} {s0 : State} {p : Part} {v : View} {seq : Word} {s : State} (h : Follows
    mw p s0 s) : Answers mw p s0 (Machine.execSnapRetire p v seq s) := by
  simp (maxDischargeDepth := 100) [Machine.execSnapRetire, h]

@[simp] theorem Answers.execTagCfgWrite {mw : Bool} {s0 : State} {p : Part} {addr : Nat} {w : Word} {s : State} (h :
    Follows mw p s0 s) : Answers mw p s0 (Machine.execTagCfgWrite p addr w s) := by
  simp (maxDischargeDepth := 100) [Machine.execTagCfgWrite, h]

@[simp] theorem Answers.execTagPop {mw : Bool} {s0 : State} {p : Part} {n : Nat} {s : State} (h : Follows mw p s0 s) :
    Answers mw p s0 (Machine.execTagPop p n s) := by
  simp (maxDischargeDepth := 100) [Machine.execTagPop, h]

@[simp] theorem Answers.execRcRegisterRead {mw : Bool} {s0 : State} {addr : Nat} {s : State} (h : Follows mw .kresia s0 s)
    : Answers mw .kresia s0 (Machine.execRcRegisterRead addr s) := by
  simp only [Machine.execRcRegisterRead]
  repeat' (first | (simp (maxDischargeDepth := 100) [h]; done) | refine Follows.foldl (fun _ _ => ?_) ?_ | refine Answers.next.2 ?_ | refine Follows.takeNote ?_ (fun _ _ _ => ?_) | refine Follows.takeDsp ?_ (fun _ _ => ?_) | split)

@[simp] theorem Follows.otherRead {mw : Bool} {s0 : State} {s : State} {p : Part} {v : View} {a : Nat} (h : Follows mw p s0
    s) : Follows mw p s0 (State.otherRead s p v a) := by
  simp only [State.otherRead]
  repeat' (first | (simp (maxDischargeDepth := 100) [h]; done) | refine Follows.foldl (fun _ _ => ?_) ?_ | refine Answers.next.2 ?_ | refine Follows.takeNote ?_ (fun _ _ _ => ?_) | refine Follows.takeDsp ?_ (fun _ _ => ?_) | split)

@[simp] theorem Answers.execLowWordRead {mw : Bool} {s0 : State} {p : Part} {v : View} {addr : Nat} {s : State} (h :
    Follows mw p s0 s) : Answers mw p s0 (Machine.execLowWordRead p v addr s) := by
  cases p
  all_goals
    unfold Machine.execLowWordRead
    dsimp only
    repeat' (first | contradiction | (simp (maxDischargeDepth := 100) [h]; done) | refine Follows.foldl (fun _ _ => ?_) ?_ | refine Answers.next.2 ?_ | refine Follows.takeNote ?_ (fun _ _ _ => ?_) | refine Follows.takeDsp ?_ (fun _ _ => ?_) | split)

end Sys2Proof.Machine
end

