-- ==== Sys2Proof/Laws/FollowsCmd.lean ====
section
/-! SUPPORT. Reset, register writes and the commands on mailboxes, registers, time and programs: what each leaves alone. -/

namespace Sys2Proof.Machine

set_option linter.unusedTactic false
set_option linter.unreachableTactic false
set_option linter.unusedSimpArgs false

@[simp] theorem evRestarts_part (p : Part) : (evRestarts p).part = p := by cases p <;> rfl

@[simp] theorem evRestarts_byDom (p : Part) : (evRestarts p).byDom = false := by cases p <;> rfl

@[simp] theorem Follows.drivePins {mw : Bool} {s0 : State} {s : State} {x : KsPins} (h : Follows mw .kresia s0 s) : Follows
    mw .kresia s0 (State.drivePins s x) := by
  simp (maxDischargeDepth := 100) [State.drivePins, h]

@[simp] theorem Follows.partReset {s0 s : State} {p : Part} (h : Follows true p s0 s) : Follows true p s0 (s.partReset p)
    := by
  cases p
  · exact h.trans ⟨rfl, List.suffix_refl _, Nat.le_refl _, fun ⟨a, b, _, d⟩ => ⟨a, b, by simp [State.partReset], d⟩, fun _ => rfl, nofun, nofun⟩
  · exact h.trans ⟨rfl, List.suffix_refl _, Nat.le_refl _, fun ⟨_, _, c, _⟩ => ⟨rfl, by simp [State.partReset], c, by simp [State.partReset]⟩, nofun, fun _ => rfl, nofun⟩

@[simp] theorem Answers.execResetAssert {s0 : State} {p : Part} {s : State} (h : Follows true p s0 s) : Answers true p s0
    (Machine.execResetAssert p s) := by
  simp (maxDischargeDepth := 100) [Machine.execResetAssert, h]

@[simp] theorem Follows.declare {mw : Bool} {s0 : State} {s : State} {p : Part} {tx : List Nat} {rx : List Nat} (h :
    Follows mw p s0 s) : Follows mw p s0 (State.declare s p tx rx) := by
  simp only [State.declare]
  repeat' (first | (simp (maxDischargeDepth := 100) [h]; done) | refine Follows.foldl (fun _ _ => ?_) ?_ | refine Answers.next.2 ?_ | refine Follows.serve ?_ (fun _ _ => ?_) | split)

@[simp] theorem Answers.execResetDeassert {mw : Bool} {q : Part} {s0 s : State} {x : BootStraps} (h : Follows mw q s0 s)
    (hq : strapPart x = q ∧ True) : Answers mw q s0 (Machine.execResetDeassert x s) := by
  obtain ⟨rfl, -⟩ := hq
  cases x <;> simp only [strapPart] at h ⊢ <;> simp only [Machine.execResetDeassert] <;> repeat' (first | (simp (maxDischargeDepth := 100) [h]; done) | split)

@[simp] theorem Answers.execBootGo {mw : Bool} {s0 : State} {v : View} {w : Word} {s : State} (h : Follows mw .baxel s0 s)
    : Answers mw .baxel s0 (Machine.execBootGo v w s) := by
  simp (maxDischargeDepth := 100) [Machine.execBootGo, h]

@[simp] theorem Follows.configure {mw : Bool} {s0 : State} {s : State} {x : ImageConfig} (h : Follows mw .kresia s0 s) :
    Follows mw .kresia s0 (State.configure s x) := by
  simp (maxDischargeDepth := 100) [State.configure, h]

@[simp] theorem Follows.startImage {mw : Bool} {s0 : State} {s : State} {p : Part} {bs : List Byte} {slotB : Bool} (h :
    Follows mw p s0 s) : Follows mw p s0 (State.startImage s p bs slotB) := by
  simp (maxDischargeDepth := 100) [State.startImage, h]

@[simp] theorem Answers.execBootVerifyDone {mw : Bool} {q : Part} {s0 s : State} {x : BootInput} (h : Follows mw q s0 s)
    (hq : bootPart x = q ∧ True) : Answers mw q s0 (Machine.execBootVerifyDone x s) := by
  obtain ⟨rfl, -⟩ := hq
  cases x <;> simp only [bootPart] at h ⊢ <;> simp only [Machine.execBootVerifyDone] <;> repeat' (first | (simp (maxDischargeDepth := 100) [h]; done) | split)

@[simp] theorem Follows.calAll {mw : Bool} {s0 : State} {s : State} {p : Part} (h : Follows mw p s0 s) : Follows mw p s0
    (State.calAll s p) := by
  simp (maxDischargeDepth := 100) [State.calAll, h]

@[simp] theorem Answers.execFwReady {mw : Bool} {s0 : State} {p : Part} {s : State} (h : Follows mw p s0 s) : Answers mw p
    s0 (Machine.execFwReady p s) := by
  simp only [Machine.execFwReady]
  repeat' (first | (simp (maxDischargeDepth := 100) [h]; done) | refine Follows.foldl (fun _ _ => ?_) ?_ | refine Answers.next.2 ?_ | refine Follows.serve ?_ (fun _ _ => ?_) | split)

@[simp] theorem Follows.dropWaits {mw : Bool} {s0 : State} {s : State} {p : Part} (h : Follows mw p s0 s) : Follows mw p s0
    (State.dropWaits s p) := by
  simp only [State.dropWaits]
  repeat' (first | (simp (maxDischargeDepth := 100) [h]; done) | refine Follows.foldl (fun _ _ => ?_) ?_ | refine Answers.next.2 ?_ | refine Follows.serve ?_ (fun _ _ => ?_) | split)

@[simp] theorem Answers.execWatchdogExpiry {mw : Bool} {s0 : State} {p : Part} {s : State} (h : Follows mw p s0 s) :
    Answers mw p s0 (Machine.execWatchdogExpiry p s) := by
  simp (maxDischargeDepth := 100) [Machine.execWatchdogExpiry, h]

@[simp] theorem Follows.mboxRefused {mw : Bool} {s0 : State} {s : State} {p : Part} {v : View} {a : Nat} (h : Follows mw p
    s0 s) : Follows mw p s0 (State.mboxRefused s p v a) := by
  simp only [State.mboxRefused]
  repeat' (first | (simp (maxDischargeDepth := 100) [h]; done) | refine Follows.foldl (fun _ _ => ?_) ?_ | refine Answers.next.2 ?_ | refine Follows.serve ?_ (fun _ _ => ?_) | split)

@[simp] theorem Answers.execMboxDoorbell {mw : Bool} {s0 : State} {p : Part} {v : View} {m : Nat} {w : Word} {s : State} (h
    : Follows mw p s0 s) : Answers mw p s0 (Machine.execMboxDoorbell p v m w s) := by
  simp (maxDischargeDepth := 100) [Machine.execMboxDoorbell, h]

@[simp] theorem Follows.retire {mw : Bool} {s0 : State} {s : State} {p : Part} {m : Nat} {k : Nat} {seq : Nat} (h : Follows
    mw p s0 s) : Follows mw p s0 (State.retire s p m k seq) := by
  simp (maxDischargeDepth := 100) [State.retire, h]

@[simp] theorem Answers.execMboxRetire {mw : Bool} {s0 : State} {p : Part} {v : View} {m : Nat} {w : Word} {s : State} (h :
    Follows mw p s0 s) : Answers mw p s0 (Machine.execMboxRetire p v m w s) := by
  simp (maxDischargeDepth := 100) [Machine.execMboxRetire, h]

@[simp] theorem Follows.answerTransient {mw : Bool} {q : Part} {s0 : State} {s : State} {port : Nat} {m : Nat} {k : Nat}
    {bs : List Byte} {code : Code} (h : Follows mw q s0 s) : Follows mw q s0 (State.answerTransient s port m k bs code) := by
  simp (maxDischargeDepth := 100) [State.answerTransient, h]

@[simp] theorem Answers.execMboxDatagramRx {mw : Bool} {s0 : State} {x : Datagram} {s : State} (h : Follows mw .kresia s0
    s) : Answers mw .kresia s0 (Machine.execMboxDatagramRx x s) := by
  simp only [Machine.execMboxDatagramRx]
  repeat' (first | (simp (maxDischargeDepth := 100) [h]; done) | refine Follows.foldl (fun _ _ => ?_) ?_ | refine Answers.next.2 ?_ | refine Follows.serve ?_ (fun _ _ => ?_) | split)

@[simp] theorem Answers.execRetireDatagramRx {mw : Bool} {s0 : State} {x : Datagram} {s : State} (h : Follows mw .kresia s0
    s) : Answers mw .kresia s0 (Machine.execRetireDatagramRx x s) := by
  simp (maxDischargeDepth := 100) [Machine.execRetireDatagramRx, h]

@[simp] theorem Answers.orElse {mw : Bool} {q : Part} {s0 s : State} {a : Answer} (ha : Answers mw q s0 a) (_h : Follows mw
    q s0 s) : Follows mw q s0 (a.orElse s) := by
  obtain ⟨t, rfl, ht⟩ := ha
  exact ht

@[simp] theorem Follows.w1c {mw : Bool} {s0 : State} {s : State} {p : Part} {a : Nat} {mask : Nat} {w : Word} (h : Follows
    mw p s0 s) : Follows mw p s0 (State.w1c s p a mask w) := by
  simp (maxDischargeDepth := 100) [State.w1c, h]

@[simp] theorem Follows.put {mw : Bool} {s0 : State} {s : State} {p : Part} {a : Nat} {bits : Nat} {w : Word} (h : Follows
    mw p s0 s) : Follows mw p s0 (State.put s p a bits w) := by
  simp (maxDischargeDepth := 100) [State.put, h]

@[simp] theorem Follows.stampWrite {mw : Bool} {s0 : State} {s : State} {p : Part} {v : View} {r : Nat} {w : Word} (h :
    Follows mw p s0 s) : Follows mw p s0 (State.stampWrite s p v r w) := by
  simp only [State.stampWrite]
  repeat' (first | (simp (maxDischargeDepth := 100) [h]; done) | refine Follows.foldl (fun _ _ => ?_) ?_ | refine Answers.next.2 ?_ | refine Follows.serve ?_ (fun _ _ => ?_) | split)

@[simp] theorem Follows.gateWrite {mw : Bool} {s0 s : State} {p : Part} {n off : Nat} {w : Word} (h : Follows mw p s0 s) :
    Follows mw p s0 (s.gateWrite p n off w) := by
  unfold State.gateWrite
  extract_lets a sel active entry on t0 t1 t2
  have h0 : Follows mw p s0 t0 := by simp (maxDischargeDepth := 100) [t0, h]
  have h1 : Follows mw p s0 t1 := by
    simp only [t1]
    repeat' (first | (simp (maxDischargeDepth := 100) [h0]; done) | split)
  have h2 : Follows mw p s0 t2 := by simp (maxDischargeDepth := 100) [t2, h1]
  have he : ∀ f, Follows mw p s0 (entry f) := fun f => by simp (maxDischargeDepth := 100) [entry, h]
  clear_value entry t2
  repeat' (refine Follows.ite ?_ ?_)
  all_goals first | exact h | exact h2 | exact he _ | (simp (maxDischargeDepth := 100) [h, h2]; done) | (split <;> simp (maxDischargeDepth := 100) [h])

@[simp] theorem Follows.mboxWrite {mw : Bool} {s0 : State} {s : State} {p : Part} {v : View} {m : Nat} {off : Nat} {w :
    Word} {a : Nat} (h : Follows mw p s0 s) : Follows mw p s0 (State.mboxWrite s p v m off w a) := by
  simp (maxDischargeDepth := 100) [State.mboxWrite, h]

@[simp] theorem Follows.bankWrite {mw : Bool} {s0 : State} {s : State} {p : Part} {v : View} {a : Nat} {w : Word} (h :
    Follows mw p s0 s) : Follows mw p s0 (State.bankWrite s p v a w) := by
  simp only [State.bankWrite]
  repeat' (first | (simp (maxDischargeDepth := 100) [h]; done) | refine Follows.foldl (fun _ _ => ?_) ?_ | refine Answers.next.2 ?_ | refine Follows.serve ?_ (fun _ _ => ?_) | split)

@[simp] theorem Follows.tagRegWrite {mw : Bool} {s0 : State} {s : State} {p : Part} {v : View} {a : Nat} {w : Word} (h :
    Follows mw p s0 s) : Follows mw p s0 (State.tagRegWrite s p v a w) := by
  simp (maxDischargeDepth := 100) [State.tagRegWrite, h]

@[simp] theorem Follows.objWindowWrite {mw : Bool} {s0 : State} {s : State} {p : Part} {o : Nat} {off : Nat} {idx : Nat}
    {priv : Bool} {w : Word} (h : Follows mw p s0 s) : Follows mw p s0 (State.objWindowWrite s p o off idx priv w) := by
  simp (maxDischargeDepth := 100) [State.objWindowWrite, h]

@[simp] theorem Follows.objOpWrite {mw : Bool} {s0 : State} {s : State} {t : Nat} {priv : Bool} {w : Word} (h : Follows mw
    .baxel s0 s) : Follows mw .baxel s0 (State.objOpWrite s t priv w) := by
  simp (maxDischargeDepth := 100) [State.objOpWrite, h]

@[simp] theorem Follows.pageWrite {mw : Bool} {s0 : State} {s : State} {t : Nat} {off : Nat} {priv : Bool} {w : Word} (h :
    Follows mw .baxel s0 s) : Follows mw .baxel s0 (State.pageWrite s t off priv w) := by
  simp (maxDischargeDepth := 100) [State.pageWrite, h]

@[simp] theorem Follows.coreWrite {mw : Bool} {s0 : State} {s : State} {p : Part} {a : Nat} {w : Word} (h : Follows mw p s0
    s) : Follows mw p s0 (State.coreWrite s p a w) := by
  simp (maxDischargeDepth := 100) [State.coreWrite, h]

@[simp] theorem Follows.bxPrivWrite {mw : Bool} {s0 : State} {s : State} {v : View} {a : Nat} {w : Word} (h : Follows mw
    .baxel s0 s) : Follows mw .baxel s0 (State.bxPrivWrite s v a w) := by
  simp (maxDischargeDepth := 100) [State.bxPrivWrite, h]

@[simp] theorem Follows.bxWrite' {mw : Bool} {s0 : State} {s : State} {v : View} {a : Nat} {w : Word} (h : Follows mw
    .baxel s0 s) : Follows mw .baxel s0 (State.bxWrite' s v a w) := by
  simp only [State.bxWrite']
  repeat' (first | (simp (maxDischargeDepth := 100) [h]; done) | refine Follows.foldl (fun _ _ => ?_) ?_ | refine Answers.next.2 ?_ | refine Follows.serve ?_ (fun _ _ => ?_) | split)

@[simp] theorem Follows.fenceSelWrite {mw : Bool} {s0 : State} {s : State} {w : Word} (h : Follows mw .kresia s0 s) :
    Follows mw .kresia s0 (State.fenceSelWrite s w) := by
  simp (maxDischargeDepth := 100) [State.fenceSelWrite, h]

@[simp] theorem Follows.mrSelWrite {mw : Bool} {s0 : State} {s : State} {w : Word} (h : Follows mw .kresia s0 s) : Follows
    mw .kresia s0 (State.mrSelWrite s w) := by
  simp (maxDischargeDepth := 100) [State.mrSelWrite, h]

@[simp] theorem Follows.ksWrite' {mw : Bool} {s0 : State} {s : State} {v : View} {a : Nat} {w : Word} (h : Follows mw
    .kresia s0 s) : Follows mw .kresia s0 (State.ksWrite' s v a w) := by
  simp (maxDischargeDepth := 100) [State.ksWrite', h]

@[simp] theorem Follows.regWrite {mw : Bool} {s0 : State} {s : State} {p : Part} {v : View} {a : Nat} {w : Word} (h :
    Follows mw p s0 s) : Follows mw p s0 (State.regWrite s p v a w) := by
  simp only [State.regWrite]
  repeat' (first | (simp (maxDischargeDepth := 100) [h]; done) | refine Follows.foldl (fun _ _ => ?_) ?_ | refine Answers.next.2 ?_ | refine Follows.serve ?_ (fun _ _ => ?_) | split)

@[simp] theorem Answers.execRegisterWrite {mw : Bool} {s0 : State} {p : Part} {v : View} {addr : Nat} {w : Word} {s :
    State} (h : Follows mw p s0 s) : Answers mw p s0 (Machine.execRegisterWrite p v addr w s) := by
  simp (maxDischargeDepth := 100) [Machine.execRegisterWrite, h]

@[simp] theorem Follows.showStages {mw : Bool} {s0 : State} {s : State} (h : Follows mw .kresia s0 s) : Follows mw .kresia
    s0 (State.showStages s) := by
  simp (maxDischargeDepth := 100) [State.showStages, h]

@[simp] theorem Answers.execMboxHello {mw : Bool} {s0 : State} {p : Part} {m : Nat} {k : Nat} {s : State} (h : Follows mw p
    s0 s) : Answers mw p s0 (Machine.execMboxHello p m k s) := by
  cases p <;> first
    | exact Answers.next.2 (Follows.serve_skip h (by decide))
    | (simp only [Machine.execMboxHello]; repeat' (first | (simp (maxDischargeDepth := 100) [h]; done) | refine Follows.foldl (fun _ _ => ?_) ?_ | refine Answers.next.2 ?_ | refine Follows.serve ?_ (fun _ _ => ?_) | split))

@[simp] theorem Answers.execMboxBind {mw : Bool} {s0 : State} {p : Part} {m : Nat} {k : Nat} {s : State} (h : Follows mw p
    s0 s) : Answers mw p s0 (Machine.execMboxBind p m k s) := by
  cases p <;> first
    | exact Answers.next.2 (Follows.serve_skip h (by decide))
    | (simp only [Machine.execMboxBind]; repeat' (first | (simp (maxDischargeDepth := 100) [h]; done) | refine Follows.foldl (fun _ _ => ?_) ?_ | refine Answers.next.2 ?_ | refine Follows.serve ?_ (fun _ _ => ?_) | split))

@[simp] theorem Answers.execMboxUnbind {mw : Bool} {s0 : State} {p : Part} {m : Nat} {k : Nat} {s : State} (h : Follows mw
    p s0 s) : Answers mw p s0 (Machine.execMboxUnbind p m k s) := by
  cases p <;> first
    | exact Answers.next.2 (Follows.serve_skip h (by decide))
    | (simp only [Machine.execMboxUnbind]; repeat' (first | (simp (maxDischargeDepth := 100) [h]; done) | refine Follows.foldl (fun _ _ => ?_) ?_ | refine Answers.next.2 ?_ | refine Follows.serve ?_ (fun _ _ => ?_) | split))

@[simp] theorem Follows.ksRead {mw : Bool} {s0 : State} {s : State} {a : Nat} (h : Follows mw .kresia s0 s) : Follows mw
    .kresia s0 (State.ksRead s a).2 := by
  simp only [State.ksRead]
  repeat' (first | (simp (maxDischargeDepth := 100) [h]; done) | refine Follows.foldl (fun _ _ => ?_) ?_ | refine Answers.next.2 ?_ | refine Follows.serve ?_ (fun _ _ => ?_) | split)

@[simp] theorem Follows.ksReads {mw : Bool} {s0 s : State} {a n : Nat} (h : Follows mw .kresia s0 s) : Follows mw .kresia
    s0 (s.ksReads a n).2 := by
  induction n generalizing s a with
  | zero => simpa [State.ksReads] using h
  | succ n ih => exact ih (Follows.ksRead h)

@[simp] theorem Answers.execRegRead {mw : Bool} {s0 : State} {p : Part} {m : Nat} {k : Nat} {s : State} (h : Follows mw p
    s0 s) : Answers mw p s0 (Machine.execRegRead p m k s) := by
  cases p <;> first
    | exact Answers.next.2 (Follows.serve_skip h (by decide))
    | (simp only [Machine.execRegRead]; repeat' (first | (simp (maxDischargeDepth := 100) [h]; done) | refine Follows.foldl (fun _ _ => ?_) ?_ | refine Answers.next.2 ?_ | refine Follows.serve ?_ (fun _ _ => ?_) | split))

@[simp] theorem Answers.execRegWrite {mw : Bool} {s0 : State} {p : Part} {m : Nat} {k : Nat} {s : State} (h : Follows mw p
    s0 s) : Answers mw p s0 (Machine.execRegWrite p m k s) := by
  cases p <;> first
    | exact Answers.next.2 (Follows.serve_skip h (by decide))
    | (simp only [Machine.execRegWrite]; repeat' (first | (simp (maxDischargeDepth := 100) [h]; done) | refine Follows.foldl (fun _ _ => ?_) ?_ | refine Answers.next.2 ?_ | refine Follows.serve ?_ (fun _ _ => ?_) | split))

@[simp] theorem Answers.execStageAlloc {mw : Bool} {s0 : State} {p : Part} {m : Nat} {k : Nat} {s : State} (h : Follows mw
    p s0 s) : Answers mw p s0 (Machine.execStageAlloc p m k s) := by
  cases p <;> first
    | exact Answers.next.2 (Follows.serve_skip h (by decide))
    | (simp only [Machine.execStageAlloc]; repeat' (first | (simp (maxDischargeDepth := 100) [h]; done) | refine Follows.foldl (fun _ _ => ?_) ?_ | refine Answers.next.2 ?_ | refine Follows.serve ?_ (fun _ _ => ?_) | split))

@[simp] theorem Answers.execStagePut {mw : Bool} {s0 : State} {p : Part} {m : Nat} {k : Nat} {s : State} (h : Follows mw p
    s0 s) : Answers mw p s0 (Machine.execStagePut p m k s) := by
  cases p <;> first
    | exact Answers.next.2 (Follows.serve_skip h (by decide))
    | (simp only [Machine.execStagePut]; repeat' (first | (simp (maxDischargeDepth := 100) [h]; done) | refine Follows.foldl (fun _ _ => ?_) ?_ | refine Answers.next.2 ?_ | refine Follows.serve ?_ (fun _ _ => ?_) | split))

@[simp] theorem Answers.execStageGet {mw : Bool} {s0 : State} {p : Part} {m : Nat} {k : Nat} {s : State} (h : Follows mw p
    s0 s) : Answers mw p s0 (Machine.execStageGet p m k s) := by
  cases p <;> first
    | exact Answers.next.2 (Follows.serve_skip h (by decide))
    | (simp only [Machine.execStageGet]; repeat' (first | (simp (maxDischargeDepth := 100) [h]; done) | refine Follows.foldl (fun _ _ => ?_) ?_ | refine Answers.next.2 ?_ | refine Follows.serve ?_ (fun _ _ => ?_) | split))

@[simp] theorem Answers.execStageFree {mw : Bool} {s0 : State} {p : Part} {m : Nat} {k : Nat} {s : State} (h : Follows mw p
    s0 s) : Answers mw p s0 (Machine.execStageFree p m k s) := by
  cases p <;> first
    | exact Answers.next.2 (Follows.serve_skip h (by decide))
    | (simp only [Machine.execStageFree]; repeat' (first | (simp (maxDischargeDepth := 100) [h]; done) | refine Follows.foldl (fun _ _ => ?_) ?_ | refine Answers.next.2 ?_ | refine Follows.serve ?_ (fun _ _ => ?_) | split))

@[simp] theorem Answers.execTimeRead {mw : Bool} {s0 : State} {p : Part} {m : Nat} {k : Nat} {s : State} (h : Follows mw p
    s0 s) : Answers mw p s0 (Machine.execTimeRead p m k s) := by
  cases p <;> first
    | exact Answers.next.2 (Follows.serve_skip h (by decide))
    | (simp only [Machine.execTimeRead]; repeat' (first | (simp (maxDischargeDepth := 100) [h]; done) | refine Follows.foldl (fun _ _ => ?_) ?_ | refine Answers.next.2 ?_ | refine Follows.serve ?_ (fun _ _ => ?_) | split))

@[simp] theorem Follows.atPrimary {mw : Bool} {s0 s f : State} {p : Part} {m k : Nat} (h : Follows mw p s0 s) (hf : Follows
    mw p s0 f) : Follows mw p s0 (s.atPrimary p m k f) := by
  simp (maxDischargeDepth := 100) [State.atPrimary, h, hf]

@[simp] theorem Answers.execTimeFreeStart {mw : Bool} {s0 : State} {p : Part} {m : Nat} {k : Nat} {s : State} (h : Follows
    mw p s0 s) : Answers mw p s0 (Machine.execTimeFreeStart p m k s) := by
  cases p <;> first
    | exact Answers.next.2 (Follows.serve_skip h (by decide))
    | (simp only [Machine.execTimeFreeStart]; repeat' (first | (simp (maxDischargeDepth := 100) [h]; done) | refine Follows.foldl (fun _ _ => ?_) ?_ | refine Answers.next.2 ?_ | refine Follows.serve ?_ (fun _ _ => ?_) | split))

@[simp] theorem Answers.execTimeRootResume {mw : Bool} {s0 : State} {p : Part} {m : Nat} {k : Nat} {s : State} (h : Follows
    mw p s0 s) : Answers mw p s0 (Machine.execTimeRootResume p m k s) := by
  cases p <;> first
    | exact Answers.next.2 (Follows.serve_skip h (by decide))
    | (simp only [Machine.execTimeRootResume]; repeat' (first | (simp (maxDischargeDepth := 100) [h]; done) | refine Follows.foldl (fun _ _ => ?_) ?_ | refine Answers.next.2 ?_ | refine Follows.serve ?_ (fun _ _ => ?_) | split))

@[simp] theorem Follows.swapRecord {mw : Bool} {s0 : State} {s : State} {m : Nat} {k : Nat} {port : Nat} {phase : Nat}
    {theta : Int} (h : Follows mw .kresia s0 s) : Follows mw .kresia s0 (State.swapRecord s m k port phase theta) := by
  simp only [State.swapRecord]
  repeat' (first | (simp (maxDischargeDepth := 100) [h]; done) | refine Follows.foldl (fun _ _ => ?_) ?_ | refine Answers.next.2 ?_ | refine Follows.serve ?_ (fun _ _ => ?_) | split)

@[simp] theorem Follows.swapStart {mw : Bool} {s0 : State} {s : State} {port : Nat} {phase : Nat} (h : Follows mw .kresia
    s0 s) : Follows mw .kresia s0 (State.swapStart s port phase) := by
  simp (maxDischargeDepth := 100) [State.swapStart, h]

@[simp] theorem Answers.execTimeSwapCal {mw : Bool} {s0 : State} {p : Part} {m : Nat} {k : Nat} {s : State} (h : Follows mw
    p s0 s) : Answers mw p s0 (Machine.execTimeSwapCal p m k s) := by
  simp only [Machine.execTimeSwapCal]
  repeat' (first | (simp (maxDischargeDepth := 100) [h]; done) | refine Follows.foldl (fun _ _ => ?_) ?_ | refine Answers.next.2 ?_ | refine Follows.serve ?_ (fun _ _ => ?_) | split)

@[simp] theorem Answers.execTimeSourceOrder {mw : Bool} {s0 : State} {p : Part} {m : Nat} {k : Nat} {s : State} (h :
    Follows mw p s0 s) : Answers mw p s0 (Machine.execTimeSourceOrder p m k s) := by
  cases p <;> first
    | exact Answers.next.2 (Follows.serve_skip h (by decide))
    | (simp only [Machine.execTimeSourceOrder]; repeat' (first | (simp (maxDischargeDepth := 100) [h]; done) | refine Follows.foldl (fun _ _ => ?_) ?_ | refine Answers.next.2 ?_ | refine Follows.serve ?_ (fun _ _ => ?_) | split))

@[simp] theorem Follows.atCrown {mw : Bool} {s0 s f : State} {m k d : Nat} (h : Follows mw .kresia s0 s) (hf : Follows mw
    .kresia s0 f) : Follows mw .kresia s0 (s.atCrown m k d f) := by
  simp (maxDischargeDepth := 100) [State.atCrown, h, hf]

@[simp] theorem Follows.distribute {mw : Bool} {q : Part} {s0 : State} {s : State} {d : Nat} {g : Machine.Image} {switch :
    Option Nat} (h : Follows mw q s0 s) : Follows mw q s0 (State.distribute s d g switch) := by
  unfold State.distribute
  extract_lets x deps others img s1
  have hs1 : Follows mw q s0 s1 := by
    simp only [s1]
    repeat' (first | (simp (maxDischargeDepth := 100) [h]; done) | refine Follows.foldl (fun _ _ => ?_) ?_ | refine Answers.next.2 ?_ | refine Follows.serve ?_ (fun _ _ => ?_) | split)
  repeat' (first | (simp (maxDischargeDepth := 100) [h, hs1]; done) | refine Follows.foldl (fun _ _ => ?_) ?_ | refine Answers.next.2 ?_ | refine Follows.serve ?_ (fun _ _ => ?_) | split)

@[simp] theorem Follows.noteDetail {mw : Bool} {s0 : State} {s : State} {f : Machine.LoadFault} (h : Follows mw .kresia s0
    s) : Follows mw .kresia s0 (State.noteDetail s f) := by
  simp only [State.noteDetail]
  repeat' (first | (simp (maxDischargeDepth := 100) [h]; done) | refine Follows.foldl (fun _ _ => ?_) ?_ | refine Answers.next.2 ?_ | refine Follows.serve ?_ (fun _ _ => ?_) | split)

@[simp] theorem Follows.refuseImage {mw : Bool} {s0 : State} {s : State} {d : Nat} {m : Nat} {k : Nat} {f :
    Machine.LoadFault} (h : Follows mw .kresia s0 s) : Follows mw .kresia s0 (State.refuseImage s d m k f) := by
  simp (maxDischargeDepth := 100) [State.refuseImage, h]

@[simp] theorem Follows.awaitLoad {mw : Bool} {s0 : State} {s : State} {d : Nat} {m : Nat} {k : Nat} {kind : Nat} {g :
    Machine.Image} {switch : Nat} (h : Follows mw .kresia s0 s) : Follows mw .kresia s0 (State.awaitLoad s d m k kind g switch) := by
  simp (maxDischargeDepth := 100) [State.awaitLoad, h]

@[simp] theorem Answers.execProgLoad {mw : Bool} {s0 : State} {p : Part} {m : Nat} {k : Nat} {f : LoadFacts} {s : State} (h
    : Follows mw p s0 s) : Answers mw p s0 (Machine.execProgLoad p m k f s) := by
  cases p <;> first
    | exact Answers.next.2 (Follows.serve_skip h (by decide))
    | (simp only [Machine.execProgLoad]; repeat' (first | (simp (maxDischargeDepth := 100) [h]; done) | refine Follows.foldl (fun _ _ => ?_) ?_ | refine Answers.next.2 ?_ | refine Follows.serve ?_ (fun _ _ => ?_) | split))

@[simp] theorem Answers.execProgReplace {mw : Bool} {s0 : State} {p : Part} {m : Nat} {k : Nat} {f : LoadFacts} {s : State}
    (h : Follows mw p s0 s) : Answers mw p s0 (Machine.execProgReplace p m k f s) := by
  cases p <;> first
    | exact Answers.next.2 (Follows.serve_skip h (by decide))
    | (simp only [Machine.execProgReplace]; repeat' (first | (simp (maxDischargeDepth := 100) [h]; done) | refine Follows.foldl (fun _ _ => ?_) ?_ | refine Answers.next.2 ?_ | refine Follows.serve ?_ (fun _ _ => ?_) | split))

@[simp] theorem Answers.execProgCancel {mw : Bool} {s0 : State} {p : Part} {m : Nat} {k : Nat} {s : State} (h : Follows mw
    p s0 s) : Answers mw p s0 (Machine.execProgCancel p m k s) := by
  cases p <;> first
    | exact Answers.next.2 (Follows.serve_skip h (by decide))
    | (simp only [Machine.execProgCancel]; repeat' (first | (simp (maxDischargeDepth := 100) [h]; done) | refine Follows.foldl (fun _ _ => ?_) ?_ | refine Answers.next.2 ?_ | refine Follows.serve ?_ (fun _ _ => ?_) | split))

@[simp] theorem Answers.execProgUnload {mw : Bool} {s0 : State} {p : Part} {m : Nat} {k : Nat} {s : State} (h : Follows mw
    p s0 s) : Answers mw p s0 (Machine.execProgUnload p m k s) := by
  cases p <;> first
    | exact Answers.next.2 (Follows.serve_skip h (by decide))
    | (simp only [Machine.execProgUnload]; repeat' (first | (simp (maxDischargeDepth := 100) [h]; done) | refine Follows.foldl (fun _ _ => ?_) ?_ | refine Answers.next.2 ?_ | refine Follows.serve ?_ (fun _ _ => ?_) | split))

@[simp] theorem Answers.execBellChange {mw : Bool} {s0 : State} {p : Part} {m : Nat} {k : Nat} {s : State} (h : Follows mw
    p s0 s) : Answers mw p s0 (Machine.execBellChange p m k s) := by
  cases p <;> first
    | exact Answers.next.2 (Follows.serve_skip h (by decide))
    | (simp only [Machine.execBellChange]; repeat' (first | (simp (maxDischargeDepth := 100) [h]; done) | refine Follows.foldl (fun _ _ => ?_) ?_ | refine Answers.next.2 ?_ | refine Follows.serve ?_ (fun _ _ => ?_) | split))

end Sys2Proof.Machine
end

