-- ==== Sys2Proof/Laws/FollowsLast.lean ====
section
/-! SUPPORT. The commands on members, domains, shards and cuppings, the power events and the tick: what each leaves alone. -/

namespace Sys2Proof.Machine

set_option linter.unusedTactic false
set_option linter.unreachableTactic false
set_option linter.unusedSimpArgs false

@[simp] theorem Answers.execMemberAdmit {mw : Bool} {s0 : State} {p : Part} {m : Nat} {k : Nat} {s : State} (h : Follows mw
    p s0 s) : Answers mw p s0 (Machine.execMemberAdmit p m k s) := by
  cases p <;> first
    | exact Answers.next.2 (Follows.serve_skip h (by decide))
    | (simp only [Machine.execMemberAdmit]; repeat' (first | (simp (maxDischargeDepth := 100) [h]; done) | refine Follows.foldl (fun _ _ => ?_) ?_ | refine Answers.next.2 ?_ | refine Follows.serve ?_ (fun _ _ => ?_) | split))

@[simp] theorem Answers.execMemberRetire {mw : Bool} {s0 : State} {p : Part} {m : Nat} {k : Nat} {s : State} (h : Follows
    mw p s0 s) : Answers mw p s0 (Machine.execMemberRetire p m k s) := by
  cases p <;> first
    | exact Answers.next.2 (Follows.serve_skip h (by decide))
    | (simp only [Machine.execMemberRetire]; repeat' (first | (simp (maxDischargeDepth := 100) [h]; done) | refine Follows.foldl (fun _ _ => ?_) ?_ | refine Answers.next.2 ?_ | refine Follows.serve ?_ (fun _ _ => ?_) | split))

@[simp] theorem Answers.execMemberAdmissionRx {mw : Bool} {s0 : State} {port : Nat} {member : Nat} {retired : Bool} {s :
    State} (h : Follows mw .baxel s0 s) : Answers mw .baxel s0 (Machine.execMemberAdmissionRx port member retired s) := by
  simp (maxDischargeDepth := 100) [Machine.execMemberAdmissionRx, h]

@[simp] theorem Answers.execTenantBindingRx {mw : Bool} {s0 : State} {x : Binding} {s : State} (h : Follows mw .baxel s0 s)
    : Answers mw .baxel s0 (Machine.execTenantBindingRx x s) := by
  simp only [Machine.execTenantBindingRx]
  repeat' (first | (simp (maxDischargeDepth := 100) [h]; done) | refine Follows.foldl (fun _ _ => ?_) ?_ | refine Answers.next.2 ?_ | refine Follows.serve ?_ (fun _ _ => ?_) | split)

@[simp] theorem Answers.execTenantFault {mw : Bool} {s0 : State} {p : Part} {m : Nat} {k : Nat} {s : State} (h : Follows mw
    p s0 s) : Answers mw p s0 (Machine.execTenantFault p m k s) := by
  cases p <;> first
    | exact Answers.next.2 (Follows.serve_skip h (by decide))
    | (simp only [Machine.execTenantFault]; repeat' (first | (simp (maxDischargeDepth := 100) [h]; done) | refine Follows.foldl (fun _ _ => ?_) ?_ | refine Answers.next.2 ?_ | refine Follows.serve ?_ (fun _ _ => ?_) | split))

@[simp] theorem Follows.recoverTenant {mw : Bool} {s0 : State} {s : State} {t : Nat} (h : Follows mw .baxel s0 s) : Follows
    mw .baxel s0 (State.recoverTenant s t) := by
  unfold State.recoverTenant
  extract_lets s1 s2
  have hs1 : Follows mw .baxel s0 s1 := by
    simp only [s1]
    repeat' (first | (simp (maxDischargeDepth := 100) [h]; done) | refine Follows.foldl (fun _ _ => ?_) ?_ | refine Answers.next.2 ?_ | refine Follows.serve ?_ (fun _ _ => ?_) | split)
  have hs2 : Follows mw .baxel s0 s2 := by
    simp only [s2]
    repeat' (first | (simp (maxDischargeDepth := 100) [h, hs1]; done) | refine Follows.foldl (fun _ _ => ?_) ?_ | refine Answers.next.2 ?_ | refine Follows.serve ?_ (fun _ _ => ?_) | split)
  repeat' (first | (simp (maxDischargeDepth := 100) [h, hs1, hs2]; done) | refine Follows.foldl (fun _ _ => ?_) ?_ | refine Answers.next.2 ?_ | refine Follows.serve ?_ (fun _ _ => ?_) | split)

@[simp] theorem Answers.execTenantRecover {mw : Bool} {s0 : State} {p : Part} {m : Nat} {k : Nat} {s : State} (h : Follows
    mw p s0 s) : Answers mw p s0 (Machine.execTenantRecover p m k s) := by
  cases p <;> first
    | exact Answers.next.2 (Follows.serve_skip h (by decide))
    | (simp only [Machine.execTenantRecover]; repeat' (first | (simp (maxDischargeDepth := 100) [h]; done) | refine Follows.foldl (fun _ _ => ?_) ?_ | refine Answers.next.2 ?_ | refine Follows.serve ?_ (fun _ _ => ?_) | split))

@[simp] theorem Follows.mailTake {mw : Bool} {s0 : State} {s : State} {m : Nat} {k : Nat} {t : Machine.Taken} (h : Follows
    mw .kresia s0 s) : Follows mw .kresia s0 (State.mailTake s m k t) := by
  simp (maxDischargeDepth := 100) [State.mailTake, h]

@[simp] theorem Follows.mailApplier {mw : Bool} {q : Part} {s0 : State} {s : State} {m : Nat} (h : Follows mw q s0 s) :
    Follows mw q s0 (State.mailApplier s m).2 := by
  simp (maxDischargeDepth := 100) [State.mailApplier, h]

@[simp] theorem Answers.execObjOp {mw : Bool} {s0 : State} {p : Part} {m : Nat} {k : Nat} {s : State} (h : Follows mw p s0
    s) : Answers mw p s0 (Machine.execObjOp p m k s) := by
  cases p <;> first
    | exact Answers.next.2 (Follows.serve_skip h (by decide))
    | (simp only [Machine.execObjOp]; repeat' (first | (simp (maxDischargeDepth := 100) [h]; done) | refine Follows.foldl (fun _ _ => ?_) ?_ | refine Answers.next.2 ?_ | refine Follows.serve ?_ (fun _ _ => ?_) | split))

@[simp] theorem Follows.fenceCmd {mw : Bool} {s0 : State} {s : State} {m : Nat} {k : Nat} {t : Machine.Taken} {clear :
    Bool} (h : Follows mw .kresia s0 s) : Follows mw .kresia s0 (State.fenceCmd s m k t clear) := by
  simp (maxDischargeDepth := 100) [State.fenceCmd, h]

@[simp] theorem Answers.execFenceSet {mw : Bool} {s0 : State} {p : Part} {m : Nat} {k : Nat} {s : State} (h : Follows mw p
    s0 s) : Answers mw p s0 (Machine.execFenceSet p m k s) := by
  cases p <;> first
    | exact Answers.next.2 (Follows.serve_skip h (by decide))
    | (simp only [Machine.execFenceSet]; repeat' (first | (simp (maxDischargeDepth := 100) [h]; done) | refine Follows.foldl (fun _ _ => ?_) ?_ | refine Answers.next.2 ?_ | refine Follows.serve ?_ (fun _ _ => ?_) | split))

@[simp] theorem Answers.execFenceClear {mw : Bool} {s0 : State} {p : Part} {m : Nat} {k : Nat} {s : State} (h : Follows mw
    p s0 s) : Answers mw p s0 (Machine.execFenceClear p m k s) := by
  cases p <;> first
    | exact Answers.next.2 (Follows.serve_skip h (by decide))
    | (simp only [Machine.execFenceClear]; repeat' (first | (simp (maxDischargeDepth := 100) [h]; done) | refine Follows.foldl (fun _ _ => ?_) ?_ | refine Answers.next.2 ?_ | refine Follows.serve ?_ (fun _ _ => ?_) | split))

@[simp] theorem Answers.execMemberSuspect {mw : Bool} {s0 : State} {p : Part} {m : Nat} {k : Nat} {s : State} (h : Follows
    mw p s0 s) : Answers mw p s0 (Machine.execMemberSuspect p m k s) := by
  cases p <;> first
    | exact Answers.next.2 (Follows.serve_skip h (by decide))
    | (simp only [Machine.execMemberSuspect]; repeat' (first | (simp (maxDischargeDepth := 100) [h]; done) | refine Follows.foldl (fun _ _ => ?_) ?_ | refine Answers.next.2 ?_ | refine Follows.serve ?_ (fun _ _ => ?_) | split))

@[simp] theorem Answers.execEvtAck {mw : Bool} {s0 s : State} {p : Part} {m k : Nat} (h : Follows mw p s0 s) : Answers mw p
    s0 (Machine.execEvtAck p m k s) := by
  cases p
  · exact Answers.next.2 (Follows.serve_skip h (by decide))
  · refine Answers.next.2 (Follows.serve h fun s t => ?_)
    extract_lets seq s1
    have h1 : Follows mw .kresia s s1 := Follows.ite (Follows.wr (Follows.refl _ _)) (Follows.refl _ _)
    exact Follows.complete (Follows.modEvents h1 rfl (List.length_filter_le _ _) rfl)

@[simp] theorem Follows.sendMap {mw : Bool} {q : Part} {s0 : State} {s : State} {d : Nat} {dest : List Nat} {l : List
    PosEntry} (h : Follows mw q s0 s) : Follows mw q s0 (State.sendMap s d dest l) := by
  simp (maxDischargeDepth := 100) [State.sendMap, h]

@[simp] theorem Follows.sendBinding {mw : Bool} {q : Part} {s0 : State} {s : State} {d : Nat} {pos : Nat} {e : PosEntry}
    {bound : Bool} {dest : List Nat} (h : Follows mw q s0 s) : Follows mw q s0 (State.sendBinding s d pos e bound dest) := by
  simp (maxDischargeDepth := 100) [State.sendBinding, h]

@[simp] theorem Answers.execDomainCreate {mw : Bool} {s0 : State} {p : Part} {m : Nat} {k : Nat} {v2 : List Nat} {elsewhere
    : List (Nat × Nat)} {s : State} (h : Follows mw p s0 s) : Answers mw p s0 (Machine.execDomainCreate p m k v2 elsewhere s) := by
  cases p <;> first
    | exact Answers.next.2 (Follows.serve_skip h (by decide))
    | (simp only [Machine.execDomainCreate]; repeat' (first | (simp (maxDischargeDepth := 100) [h]; done) | refine Follows.foldl (fun _ _ => ?_) ?_ | refine Answers.next.2 ?_ | refine Follows.serve ?_ (fun _ _ => ?_) | split))

@[simp] theorem Answers.execDomainDestroy {mw : Bool} {s0 : State} {p : Part} {m : Nat} {k : Nat} {s : State} (h : Follows
    mw p s0 s) : Answers mw p s0 (Machine.execDomainDestroy p m k s) := by
  cases p <;> first
    | exact Answers.next.2 (Follows.serve_skip h (by decide))
    | (simp only [Machine.execDomainDestroy]; repeat' (first | (simp (maxDischargeDepth := 100) [h]; done) | refine Follows.foldl (fun _ _ => ?_) ?_ | refine Answers.next.2 ?_ | refine Follows.serve ?_ (fun _ _ => ?_) | split))

@[simp] theorem Answers.execTenantUnbind {mw : Bool} {s0 : State} {p : Part} {m : Nat} {k : Nat} {s : State} (h : Follows
    mw p s0 s) : Answers mw p s0 (Machine.execTenantUnbind p m k s) := by
  cases p <;> first
    | exact Answers.next.2 (Follows.serve_skip h (by decide))
    | (simp only [Machine.execTenantUnbind]; repeat' (first | (simp (maxDischargeDepth := 100) [h]; done) | refine Follows.foldl (fun _ _ => ?_) ?_ | refine Answers.next.2 ?_ | refine Follows.serve ?_ (fun _ _ => ?_) | split))

@[simp] theorem Follows.loadSpare {mw : Bool} {q : Part} {s0 : State} {s : State} {d : Nat} {i : Nat} (h : Follows mw q s0
    s) : Follows mw q s0 (State.loadSpare s d i) := by
  simp only [State.loadSpare]
  repeat' (first | (simp (maxDischargeDepth := 100) [h]; done) | refine Follows.foldl (fun _ _ => ?_) ?_ | refine Answers.next.2 ?_ | refine Follows.serve ?_ (fun _ _ => ?_) | split)

@[simp] theorem Answers.execSpareBind {mw : Bool} {s0 : State} {p : Part} {m : Nat} {k : Nat} {f : SpareFacts} {s : State}
    (h : Follows mw p s0 s) : Answers mw p s0 (Machine.execSpareBind p m k f s) := by
  cases p <;> first
    | exact Answers.next.2 (Follows.serve_skip h (by decide))
    | (simp only [Machine.execSpareBind]; repeat' (first | (simp (maxDischargeDepth := 100) [h]; done) | refine Follows.foldl (fun _ _ => ?_) ?_ | refine Answers.next.2 ?_ | refine Follows.serve ?_ (fun _ _ => ?_) | split))

@[simp] theorem Answers.execDomainRelease {mw : Bool} {s0 : State} {p : Part} {m : Nat} {k : Nat} {s : State} (h : Follows
    mw p s0 s) : Answers mw p s0 (Machine.execDomainRelease p m k s) := by
  cases p <;> first
    | exact Answers.next.2 (Follows.serve_skip h (by decide))
    | (simp only [Machine.execDomainRelease]; repeat' (first | (simp (maxDischargeDepth := 100) [h]; done) | refine Follows.foldl (fun _ _ => ?_) ?_ | refine Answers.next.2 ?_ | refine Follows.serve ?_ (fun _ _ => ?_) | split))

@[simp] theorem Answers.execDomainRollback {mw : Bool} {s0 : State} {p : Part} {m : Nat} {k : Nat} {completed : Bool} {s :
    State} (h : Follows mw p s0 s) : Answers mw p s0 (Machine.execDomainRollback p m k completed s) := by
  cases p <;> first
    | exact Answers.next.2 (Follows.serve_skip h (by decide))
    | (simp only [Machine.execDomainRollback]; repeat' (first | (simp (maxDischargeDepth := 100) [h]; done) | refine Follows.foldl (fun _ _ => ?_) ?_ | refine Answers.next.2 ?_ | refine Follows.serve ?_ (fun _ _ => ?_) | split))

@[simp] theorem Answers.execCrownPromote {mw : Bool} {s0 : State} {p : Part} {m : Nat} {k : Nat} {s : State} (h : Follows
    mw p s0 s) : Answers mw p s0 (Machine.execCrownPromote p m k s) := by
  cases p <;> first
    | exact Answers.next.2 (Follows.serve_skip h (by decide))
    | (simp only [Machine.execCrownPromote]; repeat' (first | (simp (maxDischargeDepth := 100) [h]; done) | refine Follows.foldl (fun _ _ => ?_) ?_ | refine Answers.next.2 ?_ | refine Follows.serve ?_ (fun _ _ => ?_) | split))

@[simp] theorem Follows.mirrorRegion {mw : Bool} {s0 : State} {s : State} {d : Nat} {r : Nat} {l : List Nat} (h : Follows
    mw .kresia s0 s) : Follows mw .kresia s0 (State.mirrorRegion s d r l) := by
  simp (maxDischargeDepth := 100) [State.mirrorRegion, h]

@[simp] theorem Answers.execShardWrite {mw : Bool} {s0 : State} {p : Part} {m : Nat} {k : Nat} {held : Bool} {s : State} (h
    : Follows mw p s0 s) : Answers mw p s0 (Machine.execShardWrite p m k held s) := by
  cases p <;> first
    | exact Answers.next.2 (Follows.serve_skip h (by decide))
    | (simp only [Machine.execShardWrite]; repeat' (first | (simp (maxDischargeDepth := 100) [h]; done) | refine Follows.foldl (fun _ _ => ?_) ?_ | refine Answers.next.2 ?_ | refine Follows.serve ?_ (fun _ _ => ?_) | split))

@[simp] theorem Answers.execShardRead {mw : Bool} {s0 : State} {p : Part} {m : Nat} {k : Nat} {s : State} (h : Follows mw p
    s0 s) : Answers mw p s0 (Machine.execShardRead p m k s) := by
  cases p <;> first
    | exact Answers.next.2 (Follows.serve_skip h (by decide))
    | (simp only [Machine.execShardRead]; repeat' (first | (simp (maxDischargeDepth := 100) [h]; done) | refine Follows.foldl (fun _ _ => ?_) ?_ | refine Answers.next.2 ?_ | refine Follows.serve ?_ (fun _ _ => ?_) | split))

@[simp] theorem Answers.execScalarSet {mw : Bool} {s0 : State} {p : Part} {m : Nat} {k : Nat} {s : State} (h : Follows mw p
    s0 s) : Answers mw p s0 (Machine.execScalarSet p m k s) := by
  cases p <;> first
    | exact Answers.next.2 (Follows.serve_skip h (by decide))
    | (simp only [Machine.execScalarSet]; repeat' (first | (simp (maxDischargeDepth := 100) [h]; done) | refine Follows.foldl (fun _ _ => ?_) ?_ | refine Answers.next.2 ?_ | refine Follows.serve ?_ (fun _ _ => ?_) | split))

@[simp] theorem Follows.promoteColl {mw : Bool} {s0 : State} {s : State} {d : Nat} {f : Nat} {g : Machine.Image} {c : Nat}
    (h : Follows mw .kresia s0 s) : Follows mw .kresia s0 (State.promoteColl s d f g c) := by
  simp only [State.promoteColl]
  repeat' (first | (simp (maxDischargeDepth := 100) [h]; done) | refine Follows.foldl (fun _ _ => ?_) ?_ | refine Answers.next.2 ?_ | refine Follows.serve ?_ (fun _ _ => ?_) | split)

@[simp] theorem Follows.promoteRegion {mw : Bool} {s0 : State} {s : State} {d : Nat} {f : Nat} {g : Machine.Image} {r :
    Nat} (h : Follows mw .kresia s0 s) : Follows mw .kresia s0 (State.promoteRegion s d f g r) := by
  simp (maxDischargeDepth := 100) [State.promoteRegion, h]

@[simp] theorem Follows.promoteDomain {mw : Bool} {s0 : State} {s : State} {d : Nat} {f : Nat} (h : Follows mw .kresia s0
    s) : Follows mw .kresia s0 (State.promoteDomain s d f) := by
  simp only [State.promoteDomain]
  repeat' (first | (simp (maxDischargeDepth := 100) [h]; done) | refine Follows.foldl (fun _ _ => ?_) ?_ | refine Answers.next.2 ?_ | refine Follows.serve ?_ (fun _ _ => ?_) | split)

@[simp] theorem Answers.execMirrorPromote {mw : Bool} {s0 : State} {p : Part} {m : Nat} {k : Nat} {s : State} (h : Follows
    mw p s0 s) : Answers mw p s0 (Machine.execMirrorPromote p m k s) := by
  cases p <;> first
    | exact Answers.next.2 (Follows.serve_skip h (by decide))
    | (simp only [Machine.execMirrorPromote]; repeat' (first | (simp (maxDischargeDepth := 100) [h]; done) | refine Follows.foldl (fun _ _ => ?_) ?_ | refine Answers.next.2 ?_ | refine Follows.serve ?_ (fun _ _ => ?_) | split))

@[simp] theorem Answers.execMirrorRetarget {mw : Bool} {s0 : State} {p : Part} {m : Nat} {k : Nat} {room : Bool} {service :
    Bool} {s : State} (h : Follows mw p s0 s) : Answers mw p s0 (Machine.execMirrorRetarget p m k room service s) := by
  cases p <;> first
    | exact Answers.next.2 (Follows.serve_skip h (by decide))
    | (simp only [Machine.execMirrorRetarget]; repeat' (first | (simp (maxDischargeDepth := 100) [h]; done) | refine Follows.foldl (fun _ _ => ?_) ?_ | refine Answers.next.2 ?_ | refine Follows.serve ?_ (fun _ _ => ?_) | split))

@[simp] theorem Answers.execHomeMove {mw : Bool} {s0 : State} {p : Part} {m : Nat} {k : Nat} {copied : Bool} {s : State} (h
    : Follows mw p s0 s) : Answers mw p s0 (Machine.execHomeMove p m k copied s) := by
  cases p <;> first
    | exact Answers.next.2 (Follows.serve_skip h (by decide))
    | (simp only [Machine.execHomeMove]; repeat' (first | (simp (maxDischargeDepth := 100) [h]; done) | refine Follows.foldl (fun _ _ => ?_) ?_ | refine Answers.next.2 ?_ | refine Follows.serve ?_ (fun _ _ => ?_) | split))

@[simp] theorem Answers.execSpareFill {mw : Bool} {s0 : State} {p : Part} {m : Nat} {k : Nat} {held : Bool} {s : State} (h
    : Follows mw p s0 s) : Answers mw p s0 (Machine.execSpareFill p m k held s) := by
  cases p <;> first
    | exact Answers.next.2 (Follows.serve_skip h (by decide))
    | (simp only [Machine.execSpareFill]; repeat' (first | (simp (maxDischargeDepth := 100) [h]; done) | refine Follows.foldl (fun _ _ => ?_) ?_ | refine Answers.next.2 ?_ | refine Follows.serve ?_ (fun _ _ => ?_) | split))

@[simp] theorem Follows.handSlot {mw : Bool} {s0 : State} {s : State} {tn : Nat} {d : Nat} {slot : Nat} (h : Follows mw
    .baxel s0 s) : Follows mw .baxel s0 (State.handSlot s tn d slot) := by
  simp only [State.handSlot]
  repeat' (first | (simp (maxDischargeDepth := 100) [h]; done) | refine Follows.foldl (fun _ _ => ?_) ?_ | refine Answers.next.2 ?_ | refine Follows.serve ?_ (fun _ _ => ?_) | split)

@[simp] theorem Answers.execCkptCredit {mw : Bool} {s0 : State} {p : Part} {m : Nat} {k : Nat} {s : State} (h : Follows mw
    p s0 s) : Answers mw p s0 (Machine.execCkptCredit p m k s) := by
  cases p <;> first
    | exact Answers.next.2 (Follows.serve_skip h (by decide))
    | (simp only [Machine.execCkptCredit]; repeat' (first | (simp (maxDischargeDepth := 100) [h]; done) | refine Follows.foldl (fun _ _ => ?_) ?_ | refine Answers.next.2 ?_ | refine Follows.serve ?_ (fun _ _ => ?_) | split))

@[simp] theorem Answers.execCkptGrantRx {mw : Bool} {s0 : State} {x : CkptGrant} {s : State} (h : Follows mw .kresia s0 s)
    : Answers mw .kresia s0 (Machine.execCkptGrantRx x s) := by
  simp only [Machine.execCkptGrantRx]
  repeat' (first | (simp (maxDischargeDepth := 100) [h]; done) | refine Follows.foldl (fun _ _ => ?_) ?_ | refine Answers.next.2 ?_ | refine Follows.serve ?_ (fun _ _ => ?_) | split)

@[simp] theorem Answers.execCupConfig {mw : Bool} {s0 : State} {p : Part} {m : Nat} {k : Nat} {s : State} (h : Follows mw p
    s0 s) : Answers mw p s0 (Machine.execCupConfig p m k s) := by
  cases p <;> first
    | exact Answers.next.2 (Follows.serve_skip h (by decide))
    | (simp only [Machine.execCupConfig]; repeat' (first | (simp (maxDischargeDepth := 100) [h]; done) | refine Follows.foldl (fun _ _ => ?_) ?_ | refine Answers.next.2 ?_ | refine Follows.serve ?_ (fun _ _ => ?_) | split))

@[simp] theorem Answers.execCupRead {mw : Bool} {s0 : State} {p : Part} {m : Nat} {k : Nat} {s : State} (h : Follows mw p
    s0 s) : Answers mw p s0 (Machine.execCupRead p m k s) := by
  cases p <;> first
    | exact Answers.next.2 (Follows.serve_skip h (by decide))
    | (simp only [Machine.execCupRead]; repeat' (first | (simp (maxDischargeDepth := 100) [h]; done) | refine Follows.foldl (fun _ _ => ?_) ?_ | refine Answers.next.2 ?_ | refine Follows.serve ?_ (fun _ _ => ?_) | split))

@[simp] theorem Answers.execCupRetire {mw : Bool} {s0 : State} {p : Part} {m : Nat} {k : Nat} {s : State} (h : Follows mw p
    s0 s) : Answers mw p s0 (Machine.execCupRetire p m k s) := by
  cases p <;> first
    | exact Answers.next.2 (Follows.serve_skip h (by decide))
    | (simp only [Machine.execCupRetire]; repeat' (first | (simp (maxDischargeDepth := 100) [h]; done) | refine Follows.foldl (fun _ _ => ?_) ?_ | refine Answers.next.2 ?_ | refine Follows.serve ?_ (fun _ _ => ?_) | split))

@[simp] theorem Answers.execCupShard {mw : Bool} {s0 : State} {p : Part} {m : Nat} {k : Nat} {s : State} (h : Follows mw p
    s0 s) : Answers mw p s0 (Machine.execCupShard p m k s) := by
  cases p <;> first
    | exact Answers.next.2 (Follows.serve_skip h (by decide))
    | (simp only [Machine.execCupShard]; repeat' (first | (simp (maxDischargeDepth := 100) [h]; done) | refine Follows.foldl (fun _ _ => ?_) ?_ | refine Answers.next.2 ?_ | refine Follows.serve ?_ (fun _ _ => ?_) | split))

@[simp] theorem Answers.execCtrRead {mw : Bool} {s0 : State} {p : Part} {m : Nat} {k : Nat} {s : State} (h : Follows mw p
    s0 s) : Answers mw p s0 (Machine.execCtrRead p m k s) := by
  cases p <;> first
    | exact Answers.next.2 (Follows.serve_skip h (by decide))
    | (simp only [Machine.execCtrRead]; repeat' (first | (simp (maxDischargeDepth := 100) [h]; done) | refine Follows.foldl (fun _ _ => ?_) ?_ | refine Answers.next.2 ?_ | refine Follows.serve ?_ (fun _ _ => ?_) | split))

@[simp] theorem Answers.execSnapArm {mw : Bool} {s0 : State} {p : Part} {m : Nat} {k : Nat} {s : State} (h : Follows mw p
    s0 s) : Answers mw p s0 (Machine.execSnapArm p m k s) := by
  cases p <;> first
    | exact Answers.next.2 (Follows.serve_skip h (by decide))
    | (simp only [Machine.execSnapArm]; repeat' (first | (simp (maxDischargeDepth := 100) [h]; done) | refine Follows.foldl (fun _ _ => ?_) ?_ | refine Answers.next.2 ?_ | refine Follows.serve ?_ (fun _ _ => ?_) | split))

@[simp] theorem Answers.execSnapRead {mw : Bool} {s0 : State} {p : Part} {m : Nat} {k : Nat} {s : State} (h : Follows mw p
    s0 s) : Answers mw p s0 (Machine.execSnapRead p m k s) := by
  cases p <;> first
    | exact Answers.next.2 (Follows.serve_skip h (by decide))
    | (simp only [Machine.execSnapRead]; repeat' (first | (simp (maxDischargeDepth := 100) [h]; done) | refine Follows.foldl (fun _ _ => ?_) ?_ | refine Answers.next.2 ?_ | refine Follows.serve ?_ (fun _ _ => ?_) | split))

@[simp] theorem Answers.execRefclkLost {mw : Bool} {s0 s : State} (h : Follows mw .baxel s0 s) : Answers mw .baxel s0
    (Machine.execRefclkLost s) := by
  unfold Machine.execRefclkLost
  split
  · exact Answers.next.2 h
  extract_lets s1 s2
  have h1 : Follows mw .baxel s0 s1 := by simp (maxDischargeDepth := 100) [s1, h]
  have h2 : Follows mw .baxel s1 s2 := by simp (maxDischargeDepth := 100) [s2]
  clear_value s2 s1
  exact Answers.next.2 (Follows.irqPriv (h1.trans (Follows.sameOut h2)))

@[simp] theorem Answers.execPwrGoodDrop {s0 : State} {s : State} (h : Follows true .kresia s0 s) : Answers true .kresia s0
    (Machine.execPwrGoodDrop s) := by
  simp (maxDischargeDepth := 100) [Machine.execPwrGoodDrop, h]

@[simp] theorem Answers.execCoolantCheck {mw : Bool} {s0 : State} {inlet : Int} {flow : Nat} {s : State} (h : Follows mw
    .kresia s0 s) : Answers mw .kresia s0 (Machine.execCoolantCheck inlet flow s) := by
  simp (maxDischargeDepth := 100) [Machine.execCoolantCheck, h]

@[simp] theorem Answers.execThermalTrip {mw : Bool} {s0 : State} {s : State} (h : Follows mw .kresia s0 s) : Answers mw
    .kresia s0 (Machine.execThermalTrip s) := by
  simp (maxDischargeDepth := 100) [Machine.execThermalTrip, h]

@[simp] theorem Answers.execMemUncorrectable {mw : Bool} {s0 : State} {stack : Nat} {training : Bool} {s : State} (h :
    Follows mw .kresia s0 s) : Answers mw .kresia s0 (Machine.execMemUncorrectable stack training s) := by
  unfold Machine.execMemUncorrectable
  extract_lets now old l s1
  have hs1 : Follows mw .kresia s0 s1 := by
    simp only [s1]
    repeat' (first | (simp (maxDischargeDepth := 100) [h]; done) | refine Follows.foldl (fun _ _ => ?_) ?_ | refine Answers.next.2 ?_ | refine Follows.serve ?_ (fun _ _ => ?_) | split)
  repeat' (first | (simp (maxDischargeDepth := 100) [h, hs1]; done) | refine Follows.foldl (fun _ _ => ?_) ?_ | refine Answers.next.2 ?_ | refine Follows.serve ?_ (fun _ _ => ?_) | split)

@[simp] theorem Answers.execBrimFailed {mw : Bool} {s0 : State} {brim : Nat} {s : State} (h : Follows mw .kresia s0 s) :
    Answers mw .kresia s0 (Machine.execBrimFailed brim s) := by
  simp (maxDischargeDepth := 100) [Machine.execBrimFailed, h]

@[simp] theorem Follows.tickPort {mw : Bool} {s0 : State} {s : State} {p : Part} {n : Nat} (h : Follows mw p s0 s) :
    Follows mw p s0 (State.tickPort s p n) := by
  unfold State.tickPort
  extract_lets s1
  have hs1 : Follows mw p s0 s1 := by
    simp only [s1]
    repeat' (first | (simp (maxDischargeDepth := 100) [h]; done) | refine Follows.foldl (fun _ _ => ?_) ?_ | refine Answers.next.2 ?_ | refine Follows.serve ?_ (fun _ _ => ?_) | split)
  repeat' (first | (simp (maxDischargeDepth := 100) [h, hs1]; done) | refine Follows.foldl (fun _ _ => ?_) ?_ | refine Answers.next.2 ?_ | refine Follows.serve ?_ (fun _ _ => ?_) | split)

@[simp] theorem Follows.tickUnits {mw : Bool} {s0 : State} {s : State} {p : Part} (h : Follows mw p s0 s) : Follows mw p s0
    (State.tickUnits s p) := by
  unfold State.tickUnits
  extract_lets s1 s2 s3
  have hs1 : Follows mw p s0 s1 := by
    simp only [s1]
    repeat' (first | (simp (maxDischargeDepth := 100) [h]; done) | refine Follows.foldl (fun _ _ => ?_) ?_ | refine Answers.next.2 ?_ | refine Follows.serve ?_ (fun _ _ => ?_) | split)
  have hs2 : Follows mw p s0 s2 := by
    simp only [s2]
    repeat' (first | (simp (maxDischargeDepth := 100) [h, hs1]; done) | refine Follows.foldl (fun _ _ => ?_) ?_ | refine Answers.next.2 ?_ | refine Follows.serve ?_ (fun _ _ => ?_) | split)
  have hs3 : Follows mw p s0 s3 := by
    simp only [s3]
    repeat' (first | (simp (maxDischargeDepth := 100) [h, hs1, hs2]; done) | refine Follows.foldl (fun _ _ => ?_) ?_ | refine Answers.next.2 ?_ | refine Follows.serve ?_ (fun _ _ => ?_) | split)
  repeat' (first | (simp (maxDischargeDepth := 100) [h, hs1, hs2, hs3]; done) | refine Follows.foldl (fun _ _ => ?_) ?_ | refine Answers.next.2 ?_ | refine Follows.serve ?_ (fun _ _ => ?_) | split)

@[simp] theorem Follows.tickRaw {mw : Bool} {s0 : State} {s : State} {p : Part} (h : Follows mw p s0 s) : Follows mw p s0
    (State.tickRaw s p) := by
  simp (maxDischargeDepth := 100) [State.tickRaw, h]

@[simp] theorem Follows.tickPart {mw : Bool} {s0 : State} {s : State} {p : Part} (h : Follows mw p s0 s) : Follows mw p s0
    (State.tickPart s p) := by
  simp (maxDischargeDepth := 100) [State.tickPart, h]

theorem tick_kresia {mw : Bool} (s : State) : Follows mw .kresia (s.tickPart .baxel) s.tick := by
  simp [State.tick]

end Sys2Proof.Machine
end

