-- ==== Sys2Proof/Machine/MsgBytes.lean ====
section
/-! DEFINITION. The bytes of the fault messages: the heartbeat (R310), the event record (R311), the FENCE notice (R315) and
the plane notice (R282). -/

namespace Sys2Proof
open Sys2Proof.Machine

/-- Bytes filled with zeros to a whole payload of 64. -/
def cellOf64 (bs : List Byte) : List Byte := (bs ++ List.replicate 64 0).take 64

/-- R310: the payload of a heartbeat. -/
def Heartbeat.bytes (h : Heartbeat) : List Byte :=
  cellOf64 (leBytes 1 0x90 ++ leBytes 1 ((if h.fenced then 1 else 0) + (if h.singleDomain then 2 else 0)) ++
    leBytes 2 h.hbSeq ++ leBytes 3 (h.node % 2 ^ 21) ++ leBytes 1 (h.timeState % 8) ++ leBytes 1 h.tenants ++ leBytes 1 0 ++
    leBytes 2 (BitVec.ofInt 16 h.temp).toNat)

/-- R311: the 64 bytes of an event record; DETAIL holds words, whose layout each code's rule leaves open. -/
def EventRec.bytes (r : EventRec) : List Byte :=
  cellOf64 (leBytes 4 r.evtSeq ++ leBytes 2 r.code.toNat ++ leBytes 1 (min 255 r.repeats) ++
    leBytes 1 ((if r.fromBaxel then 1 else 0) + (if r.domain.isSome then 2 else 0)) ++ leBytes 3 (r.reporter % 2 ^ 21) ++
    leBytes 1 r.port ++ leBytes 3 (r.subject % 2 ^ 21) ++ leBytes 1 0 ++ leBytes 2 (r.domain.getD 0) ++ otBytes r.ot ++
    leBytes 2 0 ++ leBytes 4 r.dropped ++ leBytes 4 r.reportSeq ++ r.detail.flatMap (leBytes 4))

/-- R315: the payload of a FENCE or clear notice: SUBJECT in bytes 4 to 6 and FENCE_SEQ in bytes 8 to 11 (DESIGN CHOICE, log
160: the manual gives no offsets). -/
def FenceNotice.bytes (n : FenceNotice) : List Byte :=
  cellOf64 (leBytes 1 (if n.clear then 0x92 else 0x91) ++ leBytes 3 0 ++ leBytes 3 n.subject ++ leBytes 1 0 ++ leBytes 4 n.fenceSeq)

/-- R282: the payload of PLANE_LOST or, with `back`, PLANE_BACK. -/
def PlaneNotice.bytes (n : PlaneNotice) (back : Bool) : List Byte :=
  cellOf64 (leBytes 1 (if back then 0x94 else 0x93) ++ leBytes 3 0 ++ leBytes 3 n.member ++ leBytes 1 n.plane)

end Sys2Proof
end

