-- ==== Sys2Proof/Tests/Slice0.lean ====
section
/-! SUPPORT. Tests: a command the well-formedness check refuses, for each check; worked examples of the manual; and for each
statement with hypotheses states and operands that meet them, clause by clause. -/

set_option Elab.async false
set_option linter.unusedVariables false
set_option maxRecDepth 4000

namespace Sys2Proof.Tests
open Sys2Proof Sys2Proof.Machine

/-- A state whose Baxel is changed, and one whose Kresia is. -/
def withBx (f : Baxel → Baxel) : State := State.reset.modBx f
def withKs (f : Kresia → Kresia) : State := State.reset.modKs f

/-- An image whose bytes are zero but for those listed. -/
def imgOf (n : Nat) (l : List (Nat × Byte)) : Image := (List.range n).map fun i => (l.lookup i).getD 0

/-- A command slot with a command whose bytes are zero but for those listed. -/
def cmdOf (l : List (Nat × Byte)) (started : Bool := false) : Taken := { bytes := imgOf 64 l, order := 0, started := started }

/-- Mailbox 0 of a part with the command in slot 0, firmware serving. -/
def fwOf (tk : Taken) : Firmware := { serving := true, mailboxes := [(0, { slots := [(0, { locked := true, taken := some tk })] })] }

/-! ### Commands outside the ranges the parts have: refused by the well-formedness check -/

theorem test_port_of_baxel : (Instr.lmsMissing .baxel 8).wf = false ∧ (Instr.lmsMissing .baxel 7).wf = true := by decide
theorem test_port_of_kresia : (Instr.lmsMissing .kresia 256).wf = false ∧ (Instr.lmsMissing .kresia 255).wf = true := by decide
theorem test_mailbox_of_baxel : (Instr.mboxDoorbell .baxel .core 5 0).wf = false ∧ (Instr.mboxDoorbell .baxel .core 4 0).wf = true := by decide
theorem test_mailbox_of_kresia : (Instr.evtAck .kresia 64 0).wf = false ∧ (Instr.evtAck .kresia 63 0).wf = true := by decide
theorem test_slot_of_mailbox : (Instr.timeRead .baxel 0 16).wf = false ∧ (Instr.timeRead .baxel 0 15).wf = true := by decide
theorem test_channel : (Instr.ringRecordWritten .baxel 4).wf = false ∧ (Instr.ringRecordWritten .kresia 7).wf = true := by decide
theorem test_gate : (Instr.freqArm .baxel 1).wf = false ∧ (Instr.freqArm .kresia 1).wf = true := by decide
theorem test_tdc_of_baxel : (Instr.tdcCalStart .baxel 26).wf = false ∧ (Instr.tdcCalStart .baxel 25).wf = true := by decide
theorem test_tdc_of_kresia : (Instr.tdcCalShort .kresia 540).wf = false ∧ (Instr.tdcCalShort .kresia 539).wf = true := by decide
theorem test_address_range : (Instr.rcRegisterRead 16777216).wf = false ∧ (Instr.lowWordRead .baxel .priv 65536).wf = false := by decide
theorem test_address_aligned : (Instr.registerWrite .baxel .priv 0x0402 0).wf = false ∧ (Instr.registerWrite .baxel .priv 0x0404 0).wf = true := by decide
theorem test_tenant : (Instr.lpAccept 4).wf = false ∧ (Instr.lpAccept 3).wf = true := by decide
theorem test_step_48_bits : (Instr.arrive 0 (2 ^ 48)).wf = false ∧ (Instr.arrive 0 (2 ^ 48 - 1)).wf = true := by decide
theorem test_launch_slot : (Instr.fireCycle 0 1024).wf = false ∧ (Instr.fireCycle 0 1023).wf = true := by decide
theorem test_domain_16_bits : (Instr.adlExpiry 65536).wf = false ∧ (Instr.adlExpiry 65535).wf = true := by decide
theorem test_object : (Instr.takeTimeout .baxel 65536 .signalPort 0).wf = false := by decide
theorem test_ptp_port : (Instr.ptpFrameRx 2 0 .udp ⟨0, 0⟩).wf = false := by decide
theorem test_memory_port : (Instr.memWriteResponse .baxel 4 0 false).wf = false ∧ (Instr.memReadData 0 4096 [] false).wf = false := by decide
theorem test_traffic_class : (Instr.creditCfgWrite 7 0).wf = false ∧ (Instr.creditCfgWrite 6 0).wf = true := by decide
theorem test_stack : (Instr.memUncorrectable 32 false).wf = false ∧ (Instr.memUncorrectable 31 false).wf = true := by decide
theorem test_brim : (Instr.brimFailed 4).wf = false ∧ (Instr.brimFailed 3).wf = true := by decide
theorem test_member_20_bits : (Instr.memberAdmissionRx 0 (2 ^ 20) false).wf = false ∧ (Instr.memberAdmissionRx 0 (2 ^ 20 - 1) false).wf = true := by decide
theorem test_head_32_bytes : (Instr.packetRx .baxel 0 { head := [] }).wf = false ∧ (Instr.packetRx .baxel 0 { head := List.replicate 32 0 }).wf = true := by decide
/-- R271, R272: KIND 1, TC 3, LSEQ 0x1234, 2 cells, DST 5, SRC 7, DOMAIN 2: the first 16 bytes of the head, from the table of bits. -/
theorem test_head_of_a_message : (headBytes 1 3 0x1234 2 (msgArea 5 7 2 0)).take 12 = [0x19, 0x8D, 0x44, 0x50, 0x00, 0x00, 0x0E, 0x00, 0x80, 0x00, 0x00, 0x00] := by decide +kernel

/-! ### Worked examples of the manual -/

/-- spec/02_olora_time.md, Worked conversions: the example part's active set. -/
def exampleSet : ParamSet := { offset := ⟨1752000310, 0, 0⟩, rawRef := 0x0000040000000000, rate := 268435456 }

/-- Worked conversions: reading OT. -/
theorem test_reading_ot : otOfRaw exampleSet 0x0000040F42400000 = ⟨1752000310, 1000000, 62500⟩ := by decide

/-- Worked conversions: converting a due time 2 ms after the offset, its fire cycle and its residual. -/
theorem test_converting_a_due :
    convert exampleSet ⟨1752000310, 2000000, 0⟩ = 0x0000041E847E17B9 ∧
    fireEdge 0x0000041E847E17B9 = 0x0000041E847E0000 ∧ residual 0x0000041E847E17B9 = 6073 := by decide

/-- Worked conversions: the same due under the set whose RATE is 64 units higher. -/
theorem test_converting_under_a_new_rate :
    convert { exampleSet with rate := 268435520 } ⟨1752000310, 2000000, 0⟩ = 0x0000041E847E17B9 := by decide

/-- Worked conversions, Across the wrap: the due lies ahead although its raw value is the smaller. -/
theorem test_across_the_wrap : Raw.diff 0x0000001000000000 0xFFFFFF0000000000 = 0x11000000000 := by decide

/-- spec/03_time_transfer.md, Worked example: the eight planes' lower median. -/
theorem test_lower_median : lowerMedian [12980, 13240, 13050, 13107, 13300, 22600, 12900, 13150] = 13107 := by decide

/-- Worked example: the servo's RATE_freq and RATE_new for 13,103 grains. -/
theorem test_servo_rates : servoRates .baxel 268435456 13103 = (268380499, 266621845) := by decide

/-- Worked example: one exchange on plane 3, θ with the Baxel ahead and d. -/
theorem test_exchange :
    exchange ⟨1752000310, 100000, 0⟩ (otAdd ⟨1752000310, 100000, 0⟩ 4314931) (otAdd ⟨1752000310, 100000, 0⟩ 69850931)
      (otAdd ⟨1752000310, 100000, 0⟩ 74293248) 1228800 1908736 1409024 2244608 1024 = (13107, 983040) := by decide

/-- Worked example: plane 5 is rejected, and the seven others give 13,103 grains. -/
theorem test_combine :
    (let l : List (Nat × Int) := [(0, 12980), (1, 13240), (2, 13050), (3, 13107), (4, 13300), (5, 22600), (6, 12900), (7, 13150)]
     (combined (combine l l 7864).2.1, (combine l l 7864).2.1.map (·.1))) = (13103, [0, 1, 2, 3, 4, 6, 7]) := by decide

/-- R92: the payload of an ARM of a bell, byte by byte from the table: TYPE, FLAGS, DOMAIN, EPOCH, SEQ, STEP, SLOT; WINDOW at
32; PERIOD and BELL_COUNT at 44 and 50. -/
theorem test_ctl_payload :
    (let b := ({ kind := .arm, bell := true, domain := 0x0102, epoch := 3, seq := 4, step := 5, slot := 6, window := 7, period := 8,
                 bellCount := 9 } : Ctl).bytes
     b.length = 64 ∧ b.take 20 = [0x21, 2, 2, 1, 3, 0, 0, 0, 4, 0, 0, 0, 5, 0, 0, 0, 0, 0, 6, 0] ∧
     (b.drop 32).take 4 = [7, 0, 0, 0] ∧ (b.drop 44).take 10 = [8, 0, 0, 0, 0, 0, 9, 0, 0, 0]) := by decide

/-- R92: a count record of arrivals: RECORD, the bitmap at 44 and LATEST at 60. -/
theorem test_record_payload :
    (let b := ({ kind := .arrive, record := true, domain := 1, epoch := 0, step := 0, bitmap := 5, latest := 2 } : Ctl).bytes
     b.length = 64 ∧ b.take 2 = [0x20, 1] ∧ (b.drop 44).take 2 = [5, 0] ∧ b.drop 60 = [2, 0, 0, 0]) := by decide

/-! ### States and operands that meet the hypotheses of the statements -/

theorem wit_StepRunsFrontCommand :
    ∃ (s : State), s.pending = [] :=
  ⟨State.reset, by decide +kernel⟩

theorem wit_ResetState :
    ∃ (q : Part × Nat × Word), q ∈ [(Part.baxel, 0x0000, (0x03020000 : Word)), (.baxel, 0x0300, 0x1EB8), (.baxel, 0x020C, 0xF0), (.baxel, 0x0430, 0x82), (.baxel, 0x0510, 0x100), (.baxel, 0x0520, 0x800), (.baxel, 0x0534, 0xA), (.baxel, 0x6B00, 0x003C2001), (.kresia, 0x0, 0x03B10300), (.kresia, 0x24, 0x100000), (.kresia, 0x100300, 0x1EB8), (.kresia, 0x10100C, 0xF0), (.kresia, 0x106B00, 0x003C2001), (.kresia, 0x1B0080, 0x32), (.kresia, 0x1D2000, 0x14141400), (.kresia, 0x190040, 0x00080004), (.kresia, 0x190058, 0x00800010)] :=
  ⟨(.kresia, 0x1B0080, 0x32), by decide +kernel⟩

theorem wit_CommandsWaitTheirTurn :
    (∃ (s : State) (p : Part) (m : Nat) (k : Nat) (v2 : List Nat) (el : List (Nat × Nat)) (lf : LoadFacts) (b : Bool) (b2 : Bool) (f : SpareFacts) (q : Nat × Instr), q ∈ [(0x0001, Instr.mboxHello p m k), (0x0002, .mboxBind p m k), (0x0003, .mboxUnbind p m k), (0x0010, .regRead p m k), (0x0011, .regWrite p m k), (0x0020, .stageAlloc p m k), (0x0021, .stagePut p m k), (0x0022, .stageGet p m k), (0x0023, .stageFree p m k), (0x0101, .timeRead p m k), (0x0102, .timeFreeStart p m k), (0x0103, .timeRootResume p m k), (0x0105, .timeSourceOrder p m k), (0x0201, .memberAdmit p m k), (0x0202, .memberRetire p m k), (0x0203, .domainCreate p m k v2 el), (0x0204, .domainDestroy p m k), (0x0205, .tenantUnbind p m k), (0x0206, .tenantFault p m k), (0x0207, .tenantRecover p m k), (0x0301, .objOp p m k), (0x0401, .progLoad p m k lf), (0x0402, .progReplace p m k lf), (0x0403, .progCancel p m k), (0x0404, .progUnload p m k), (0x0405, .bellChange p m k), (0x0501, .shardWrite p m k b), (0x0502, .shardRead p m k), (0x0503, .scalarSet p m k), (0x0901, .fenceSet p m k), (0x0902, .fenceClear p m k), (0x0903, .mirrorPromote p m k), (0x0904, .mirrorRetarget p m k b b2), (0x0905, .homeMove p m k b), (0x0906, .spareBind p m k f), (0x0907, .spareFill p m k b), (0x0908, .domainRelease p m k), (0x0909, .domainRollback p m k b), (0x090A, .memberSuspect p m k), (0x090B, .evtAck p m k), (0x090C, .ckptCredit p m k), (0x090D, .crownPromote p m k), (0x0A01, .cupConfig p m k), (0x0A02, .cupRead p m k), (0x0A03, .cupRetire p m k), (0x0A04, .cupShard p m k), (0x0A10, .ctrRead p m k), (0x0A11, .snapArm p m k), (0x0A12, .snapRead p m k)] ∧ (∀ tk, ¬ s.ready p m k q.1 tk)) ∧
    (∃ (s : State) (p : Part) (m : Nat) (k : Nat) (op : Nat) (tk : Taken), (takesOp p op = false ∨ (s.pc p).fw.serving = false)) ∧
    (∃ (s : State) (p : Part) (m : Nat) (k : Nat) (tk : Taken) (st : Code) (r : List Byte) (i : List Byte), (s.mslot p m k).taken = some tk) :=
  ⟨⟨State.reset, .kresia, 0, 0, [], [], {}, false, false, ⟨0, 0, false, false, true, false⟩, (1, .mboxHello .kresia 0 0), by decide, fun tk h => by cases (show (none : Option Taken) = some tk from h.1)⟩,
    ⟨State.reset, .baxel, 0, 0, 0x0203, ⟨[], [], 0, false, []⟩, by decide +kernel⟩,
    ⟨(withKs fun k => { k with c := { k.c with fw := fwOf (cmdOf [(0, 1)]) } }), .kresia, 0, 0, cmdOf [(0, 1)], 0, [], [], by decide +kernel⟩⟩

theorem wit_StepKeepsInv :
    ∃ (s : State) (t : State), s.Inv ∧ step s = .next t :=
  ⟨State.reset.pushFront .pwrGoodDrop, { State.reset with ks := { c := { fw := { inReset := true } } } }, ⟨rfl, by decide, by decide, by decide⟩, rfl⟩

theorem wit_DueTimesWithinADay :
    (∃ (u : TimeUnit) (due : OT), due.malformed = false ∧ u.state ≠ .unset ∧ (86400 * 65536000000000 : Int) < otDiff due u.now) ∧
    (∃ (u : TimeUnit) (due : OT), due.malformed = false ∧ u.state ≠ .unset ∧ otDiff due u.now < -(86400 * 65536000000000 : Int)) ∧
    (∃ (u : TimeUnit) (due : OT), due.malformed = false ∧ u.state ≠ .unset ∧ -(86400 * 65536000000000 : Int) ≤ otDiff due u.now ∧ otDiff due u.now ≤ (86400 * 65536000000000 : Int)) ∧
    (∃ (s : State) (m : Nat) (k : Nat) (tk : Taken) (area : List Byte) (c : Code), s.ready .kresia m k 0x0A11 tk ∧ 1 ≤ tk.f 20 1 ∧ tk.f 20 1 ≤ 30 ∧ tk.f 28 4 = 0 ∧ s.stageOf m (tk.f 24 4) = some area ∧ 8 * tk.f 20 1 ≤ area.length ∧ (s.ks.c.ctr.snapArms.filter fun a => a.domain = 0xFFFF).length < 4 ∧ s.ks.c.time.dueCode (leOt tk.bytes 8) = some c) :=
  ⟨⟨{ state := .locked }, ⟨86401, 0, 0⟩, by decide +kernel⟩,
    ⟨{ state := .locked, active := { offset := ⟨86401, 0, 0⟩ } }, .zero, by decide +kernel⟩,
    ⟨{ state := .locked }, ⟨86400, 0, 0⟩, by decide +kernel⟩,
    ⟨(withKs fun k => { k with c := { k.c with time := { state := .locked }, fw := { fwOf (cmdOf [(0, 0x11), (1, 0x0A), (17, 1), (20, 1), (24, 7)]) with stages := [(7, ⟨0, List.replicate 8 0⟩)] } } }), 0, 0, cmdOf [(0, 0x11), (1, 0x0A), (17, 1), (20, 1), (24, 7)], List.replicate 8 0, 0x1001, by decide +kernel⟩⟩

theorem wit_EpochExhausted :
    ∃ (s : State) (d : Nat) (cause : Code), (s.dom d).epoch = 0xFFFFFFFF ∧ ((s.dom d).phase = .gather ∨ (s.dom d).phase = .arm ∨ (s.dom d).phase = .tamped) ∧ (s.dom d).unloading = none ∧ s.canTell .kresia = true :=
  ⟨(withKs fun k => { k with doms := [(0, { isCrown := true, epoch := 0xFFFFFFFF, phase := .gather })] }), 0, 0x2006, by decide +kernel⟩

theorem wit_ParameterSets :
    (∃ (s : State) (p : Part), commitCode (s.raw p) (s.pendingSet p) (s.rd64 p (tAddr p 0x11C)) = none) ∧
    (∃ (s : State) (p : Part) (code : Code), commitCode (s.raw p) (s.pendingSet p) (s.rd64 p (tAddr p 0x11C)) = some code) ∧
    (∃ (s : State) (p : Part) (c : Commit), (s.pc p).time.committed = some c ∧ 0 ≤ Raw.diff (s.raw p) c.applyRaw) ∧
    (∃ (s : State) (p : Part), (s.pc p).time.committed = none) ∧
    (∃ (s : State) (p : Part) (c : Commit), (s.pc p).time.committed = some c ∧ Raw.diff (s.raw p) c.applyRaw < 0) ∧
    (∃ (s : State) (p : Part), 4611686018427387904 ≤ Raw.diff (s.raw p) (s.pc p).time.active.rawRef) ∧
    (∃ (s : State) (p : Part), Raw.diff (s.raw p) (s.pc p).time.active.rawRef < 4611686018427387904) :=
  ⟨⟨State.reset.wr64 .baxel 0x11C 268435456, .baxel, by decide +kernel⟩,
    ⟨State.reset, .kresia, 0x1004, by decide +kernel⟩,
    ⟨withKs fun k => { k with c := { k.c with time := { raw := 65536, committed := some ⟨{}, 1, none⟩ } } }, .kresia, ⟨{}, 1, none⟩, by decide +kernel⟩,
    ⟨State.reset, .baxel, by decide +kernel⟩,
    ⟨withBx fun k => { k with c := { k.c with time := { committed := some ⟨{}, 1, none⟩ } } }, .baxel, ⟨{}, 1, none⟩, by decide +kernel⟩,
    ⟨withBx fun k => { k with c := { k.c with time := { raw := 4611686018427387904 } } }, .baxel, by decide +kernel⟩,
    ⟨State.reset, .kresia, by decide +kernel⟩⟩

theorem wit_FastReadAndTimeCells :
    (∃ (s : State) (p : Part) (v : View) (k : Nat), bankOf v = some k) ∧
    (∃ (s : State) (p : Part) (v : View), bankOf v = none) ∧
    (∃ (s : State) (p : Part) (port : Nat) (tx : EdgeStamp), s.ttInService p port = true ∧ s.ttExcluded p port = false) ∧
    (∃ (s : State) (p : Part) (port : Nat) (tx : EdgeStamp), (s.ttInService p port = false ∨ s.ttExcluded p port = true)) ∧
    (∃ (s : State) (p : Part) (port : Nat) (cell : TimeCell) (rx : EdgeStamp) (peer : PeerTime), s.ttInService p port = true ∧ crc32 (cellBytes cell) ≠ cell.crc) ∧
    (∃ (s : State) (p : Part) (port : Nat) (cell : TimeCell) (rx : EdgeStamp) (peer : PeerTime), s.ttInService p port = true ∧ s.ttExcluded p port = false ∧ crc32 (cellBytes cell) = cell.crc) ∧
    (∃ (s : State) (p : Part) (port : Nat) (cell : TimeCell) (rx : EdgeStamp) (peer : PeerTime), s.ttInService p port = true ∧ crc32 (cellBytes cell) = cell.crc ∧ s.ttExcluded p port = true) ∧
    (∃ (s : State) (p : Part) (port : Nat) (cell : TimeCell) (rx : EdgeStamp) (peer : PeerTime), s.ttInService p port = false) :=
  ⟨⟨State.reset, .baxel, .tenant 2, 3, by decide +kernel⟩,
    ⟨State.reset, .kresia, .badTag, by decide +kernel⟩,
    ⟨(State.reset.setBit .baxel 0x20C 0 true).setBit .baxel (ttPort .baxel 0 0x0C) 3 false, .baxel, 0, ⟨0, 0⟩, by decide +kernel⟩,
    ⟨State.reset, .kresia, 3, ⟨0, 0⟩, by decide +kernel⟩,
    ⟨State.reset.setBit .baxel 0x20C 0 true, .baxel, 0, {}, ⟨0, 0⟩, {}, by decide +kernel⟩,
    ⟨(State.reset.setBit .baxel 0x20C 0 true).setBit .baxel (ttPort .baxel 0 0x0C) 3 false, .baxel, 0, { crc := crc32 (cellBytes {}) }, ⟨0, 0⟩, {}, by decide +kernel⟩,
    ⟨(State.reset.setBit .baxel 0x20C 0 true).setBit .baxel (ttPort .baxel 0 0x0C) 3 true, .baxel, 0, { crc := crc32 (cellBytes {}) }, ⟨0, 0⟩, {}, by decide +kernel⟩,
    ⟨State.reset, .baxel, 0, {}, ⟨0, 0⟩, {}, by decide +kernel⟩⟩

theorem wit_ServoParentAndRoot :
    (∃ (s : State) (f : FreqReading) (n : Nat) (x : PortTime) (c : TimeCell), s.bx.c.time.ports = [(n, x)] ∧ x.peer = some c ∧ c.depth < 15 ∧ 32 ≤ x.kept ∧ s.ttInService .baxel n = true ∧ s.ttExcluded .baxel n = false ∧ s.portTdcOk .baxel n = true ∧ s.portCal .baxel n = false ∧ s.bx.c.time.state = .unset ∧ s.bx.c.time.rateFreq.natAbs ≤ 34359738368 ∧ (otAdd (otOfRaw s.bx.c.time.active (s.raw .baxel + 1048576000)) (-(x.thetaSum / x.kept))).malformed = false) ∧
    (∃ (s : State) (p : Part) (f : FreqReading), (s.pc p).time.ports = [] ∧ ((s.pc p).time.state = .acquiring ∨ (s.pc p).time.state = .locked) ∧ 1 ≤ (s.pc p).time.noTheta ∧ (s.pc p).time.crown.isRoot = false ∧ (s.pc p).time.crown.role = 0 ∧ (s.pc p).time.parent = none) ∧
    (∃ (s : State) (r : Raw) (n : Nat) (c : TimeCell) (rest : List (Nat × TimeCell)), s.ks.c.time.firstCand = some r ∧ s.ks.c.time.parent = none ∧ s.ks.c.time.crown.isRoot = false ∧ 1000000 * 65536 ≤ Raw.diff s.ks.c.time.raw r ∧ (s.candidates.filter fun (_, c) => c.depth < 14) = (n, c) :: rest) ∧
    (∃ (s : State) (r : Raw), s.ks.c.time.firstCand = some r ∧ Raw.diff s.ks.c.time.raw r < 1000000 * 65536) ∧
    (∃ (s : State) (r : Raw), s.ks.c.time.crown.role = 2 ∧ s.ks.c.time.crown.isRoot = false ∧ s.ks.c.time.crown.lastPrimaryRaw = some r ∧ 5000000 * 65536 ≤ Raw.diff s.ks.c.time.raw r ∧ s.canTell .kresia = true) ∧
    (∃ (s : State) (r : Raw), s.ks.c.time.crown.role = 1 ∧ s.ks.c.time.state = .unset ∧ s.ks.c.time.phaseSource = .none ∧ s.ks.c.time.crown.fwStartRaw = some r ∧ 60 * secGrains ≤ Raw.diff s.ks.c.time.raw r ∧ s.ks.c.time.crown.noSourceReported = false ∧ s.canTell .kresia = true) ∧
    (∃ (s : State), (s.ks.c.time.crown.role ≠ 1 ∨ s.ks.c.time.state ≠ .unset ∨ s.ks.c.time.phaseSource ≠ .none ∨ s.ks.c.time.crown.noSourceReported = true)) :=
  ⟨⟨((State.reset.setBit .baxel 0x20C 0 true).setBit .baxel 0x20C 3 false).modBx fun b => { b with c := { b.c with time := { ports := [(0, { peer := some { depth := 3 }, kept := 40, thetaSum := 4000 })] }, stamp := { tdcs := [(0, { passed := true }), (8, { passed := true })] } } }, {}, 0, { peer := some { depth := 3 }, kept := 40, thetaSum := 4000 }, { depth := 3 }, by decide +kernel⟩,
    ⟨withKs fun k => { k with c := { k.c with time := { state := .locked, noTheta := 1 } } }, .kresia, {}, by decide +kernel⟩,
    ⟨((withKs fun k => { k with c := { k.c with time := { raw := 65536000000, firstCand := some 0, ports := [(2, { peer := some { depth := 3 } })] } } })).setBit .kresia 0x10104C 0 true, 0, 2, { depth := 3 }, [], by decide +kernel⟩,
    ⟨withKs fun k => { k with c := { k.c with time := { firstCand := some 0 } } }, 0, by decide +kernel⟩,
    ⟨withKs fun k => { k with c := { k.c with time := { raw := 327680000000, crown := { role := 2, lastPrimaryRaw := some 0 } } } }, 0, by decide +kernel⟩,
    ⟨withKs fun k => { k with c := { k.c with time := { raw := 3932160000000000, crown := { role := 1, fwStartRaw := some 0 } } } }, 0, by decide +kernel⟩,
    ⟨State.reset, by decide +kernel⟩⟩

theorem wit_TimeSourcesOfTheCrown :
    (∃ (s : State) (port : Nat) (d : Nat) (f : PtpFrame) (rx : EdgeStamp), (d < 24 ∨ 43 < d)) ∧
    (∃ (s : State) (port : Nat) (d : Nat) (f : PtpFrame) (rx : EdgeStamp), (f = .udp ∨ f = .g82752 ∨ f = .transparent ∨ f = .management)) ∧
    (∃ (s : State) (port : Nat) (d : Nat) (f : PtpFrame) (rx : EdgeStamp), 24 ≤ d ∧ d ≤ 43 ∧ d ≠ s.ks.c.time.crown.ptpDomain ∧ ptpUnsupported f = false) ∧
    (∃ (s : State) (port : Nat) (d : Nat) (rx : EdgeStamp) (at1 : OT) (tx : OT) (o : OT) (r : OT), 24 ≤ d ∧ d ≤ 43 ∧ d = s.ks.c.time.crown.ptpDomain ∧ (s.ptpPort port).master = false ∧ s.ks.c.time.crown.role ≠ 0 ∧ (s.ptpPort port).syncOrigin = some o ∧ (s.ptpPort port).syncRx = some r ∧ (s.ptpPort port).reqTx = some tx) ∧
    (∃ (s : State) (port : Nat) (d : Nat) (id : Nat) (i : Nat) (rx : EdgeStamp) (raw : Raw), 24 ≤ d ∧ d ≤ 43 ∧ d = s.ks.c.time.crown.ptpDomain ∧ (s.ptpPort port).master = true ∧ s.pairStamp .kresia (tdcMgmtRx port) rx = some (i, raw)) ∧
    (∃ (s : State) (port : Nat) (id : Nat) (m : PtpTx) (tx : EdgeStamp), s.ptpSends port m = false) ∧
    (∃ (s : State) (port : Nat) (id : Nat) (tx : EdgeStamp), s.ptpSends port .announce = true) ∧
    (∃ (s : State) (port : Nat) (id : Nat) (i : Nat) (tx : EdgeStamp) (raw : Raw), s.ptpSends port .sync = true ∧ s.pairStamp .kresia (tdcMgmtTx port) tx = some (i, raw) ∧ s.ks.c.stamp.txq.length < 64) ∧
    (∃ (s : State) (port : Nat) (id : Nat) (i : Nat) (tx : EdgeStamp) (raw : Raw), s.ptpSends port .sync = true ∧ s.pairStamp .kresia (tdcMgmtTx port) tx = some (i, raw) ∧ 64 ≤ s.ks.c.stamp.txq.length) ∧
    (∃ (s : State) (port : Nat) (id : Nat) (i : Nat) (tx : EdgeStamp) (raw : Raw), s.ptpSends port .delayReq = true ∧ s.pairStamp .kresia (tdcMgmtTx port) tx = some (i, raw) ∧ s.ks.c.stamp.txq.length < 64) ∧
    (∃ (s : State) (ot : OT) (utc : BitVec 16) (r : Raw), s.ks.c.time.crown.ppsStamp = some r) ∧
    (∃ (s : State) (ot : OT) (utc : BitVec 16), s.ks.c.time.crown.ppsStamp = none) :=
  ⟨⟨State.reset, 0, 44, .sync none, ⟨0, 0⟩, by decide +kernel⟩,
    ⟨State.reset, 0, 24, .udp, ⟨0, 0⟩, by decide +kernel⟩,
    ⟨State.reset, 0, 30, .sync none, ⟨0, 0⟩, by decide +kernel⟩,
    ⟨withKs fun k => { k with c := { k.c with time := { crown := { role := 1, ptp := [(0, { syncOrigin := some .zero, syncRx := some .zero, reqTx := some .zero })] } } } }, 0, 24, ⟨0, 0⟩, .zero, .zero, .zero, .zero, by decide +kernel⟩,
    ⟨withKs fun k => { k with c := { k.c with time := { crown := { role := 1, ptp := [(0, { master := true })] } } } }, 0, 24, 5, 514, ⟨0, 0⟩, 0xfffffffffffffe67, by decide +kernel⟩,
    ⟨State.reset, 0, 0, .sync, ⟨0, 0⟩, by decide +kernel⟩,
    ⟨withKs fun k => { k with c := { k.c with time := { crown := { role := 1, ptp := [(0, { master := true })] } } } }, 0, 0, ⟨0, 0⟩, by decide +kernel⟩,
    ⟨withKs fun k => { k with c := { k.c with time := { crown := { role := 1, ptp := [(0, { master := true })] } } } }, 0, 7, 512, ⟨0, 0⟩, 0xfffffffffffffe67, by decide +kernel⟩,
    ⟨((withKs fun k => { k with c := { k.c with time := { crown := { role := 1, ptp := [(0, { master := true })] } } } }).modStamp .kresia fun u => { u with txq := List.replicate 64 ⟨0, 0, 0, 0, 0, 0⟩ }), 0, 7, 512, ⟨0, 0⟩, 0xfffffffffffffe67, by decide +kernel⟩,
    ⟨withKs fun k => { k with c := { k.c with time := { crown := { role := 1 } } } }, 0, 7, 512, ⟨0, 0⟩, 0xfffffffffffffe67, by decide +kernel⟩,
    ⟨withKs fun k => { k with c := { k.c with time := { crown := { ppsStamp := some 0 } } } }, .zero, 0, 0, by decide +kernel⟩,
    ⟨State.reset, .zero, 0, by decide +kernel⟩⟩

theorem wit_CalibrationRuns :
    (∃ (s : State) (p : Part) (tdc : Nat), tdc < tdcCount p ∧ s.calAllowed p (s.calTarget p tdc) = true) ∧
    (∃ (s : State) (p : Part) (tdc : Nat), tdc < tdcCount p ∧ s.calAllowed p (s.calTarget p tdc) = false) ∧
    (∃ (s : State) (p : Part) (tdc : Nat) (r : Raw), tdc < tdcCount p ∧ s.bit p (tAddr p 0x6B00) 0 = true ∧ (s.tdc p tdc).lastRun = some r ∧ (s.fld p (tAddr p 0x6B00) 16 16 : Int) * secGrains ≤ Raw.diff (s.raw p) r ∧ s.calAllowed p (s.calTarget p tdc) = true) ∧
    (∃ (s : State) (p : Part) (tdc : Nat), s.bit p (tAddr p 0x6B00) 0 = false) ∧
    (∃ (s : State) (p : Part) (temp : Int), s.bit p (tAddr p 0x6B00) 0 = false) ∧
    (∃ (s : State) (p : Part) (temp : Int) (i : Nat), s.bit p (tAddr p 0x6B00) 0 = true ∧ i < tdcCount p ∧ (s.tdc p i).lastRun.isSome = true ∧ (s.fld p (tAddr p 0x6B00) 8 8 : Int) < (temp - (s.tdc p i).tempLast).natAbs) ∧
    (∃ (s : State) (p : Part) (i : Nat), s.fld p (tAddr p 0x6B04) 0 10 = i ∧ i < tdcCount p ∧ s.calAllowed p (s.calTarget p i) = true) ∧
    (∃ (s : State) (p : Part) (tdc : Nat) (hits : List Nat), (s.tdc p tdc).calibrating = true ∧ calCause hits (hitsBefore hits 96) = 0) ∧
    (∃ (s : State) (p : Part) (tdc : Nat) (c : Nat) (hits : List Nat), (s.tdc p tdc).calibrating = true ∧ calCause hits (hitsBefore hits 96) = c ∧ c ≠ 0 ∧ s.canTell p = true ∧ tdcOfPort p tdc = true) ∧
    (∃ (s : State) (p : Part) (tdc : Nat) (hits : List Nat), (s.tdc p tdc).calibrating = false) ∧
    (∃ (s : State) (p : Part) (tdc : Nat), (s.tdc p tdc).calibrating = true ∧ 20000000 * 65536 ≤ Raw.diff (s.raw p) (s.tdc p tdc).runStart) ∧
    (∃ (s : State) (p : Part) (tdc : Nat), Raw.diff (s.raw p) (s.tdc p tdc).runStart < 20000000 * 65536) ∧
    (∃ (s : State) (p : Part) (tdc : Nat), (s.tdc p tdc).calibrating = false) :=
  ⟨⟨State.reset, .baxel, 3, by decide +kernel⟩,
    ⟨withBx fun k => { k with c := { k.c with stamp := { tdcs := [(2, { calibrating := true })] } } }, .baxel, 3, by decide +kernel⟩,
    ⟨withBx fun k => { k with c := { k.c with time := { raw := 3932160000000000 }, stamp := { tdcs := [(3, { lastRun := some 0 })] } } }, .baxel, 3, 0, by decide +kernel⟩,
    ⟨State.reset.setBit .baxel 0x6B00 0 false, .baxel, 3, by decide +kernel⟩,
    ⟨State.reset.setBit .baxel 0x6B00 0 false, .baxel, 3, by decide +kernel⟩,
    ⟨withBx fun k => { k with c := { k.c with stamp := { tdcs := [(2, { lastRun := some 0 }), (4, { lastRun := some 0 })] } } }, .baxel, 100, 4, by decide +kernel⟩,
    ⟨State.reset, .kresia, 0, by decide +kernel⟩,
    ⟨withBx fun k => { k with c := { k.c with stamp := { tdcs := [(3, { calibrating := true })] } } }, .baxel, 3, List.replicate 80 13200, by decide +kernel⟩,
    ⟨withBx fun k => { k with c := { k.c with stamp := { tdcs := [(3, { calibrating := true })] } } }, .baxel, 3, 1, [], by decide +kernel⟩,
    ⟨State.reset, .baxel, 3, [], by decide +kernel⟩,
    ⟨withBx fun k => { k with c := { k.c with time := { raw := 1310720000000 }, stamp := { tdcs := [(3, { calibrating := true })] } } }, .baxel, 3, by decide +kernel⟩,
    ⟨State.reset, .baxel, 3, by decide +kernel⟩,
    ⟨State.reset, .baxel, 3, by decide +kernel⟩⟩

theorem wit_StampRecordsAndPops :
    (∃ (s : State) (p : Part) (ch : Nat) (w : Nat) (f : Bool) (e : EdgeStamp), ch < chanCount p ∧ (s.chan p ch).dropNext = false ∧ s.fld p (chAddr p ch 0) 1 2 = 2 ∧ 131072 ≤ w ∧ s.fld p (gtAddr p (groupOf ch) 0) 0 2 = 0 ∧ (s.tdc p (s.inService p (tdcStamp p ch))).failed = false ∧ (s.tdc p (s.inService p (tdcStamp p ch))).calibrating = false ∧ tooClose (s.chan p ch).lastRecorded ((s.tdc p (s.inService p (tdcStamp p ch))).stamp e) = false ∧ s.fld p (chAddr p ch 0) 16 16 < 2 ∧ s.bit p (chAddr p ch 0) 0 = true ∧ (s.chan p ch).queue.length < 512) ∧
    (∃ (s : State) (p : Part) (ch : Nat) (w : Nat) (f : Bool) (e : EdgeStamp), ch < chanCount p ∧ (s.chan p ch).dropNext = false ∧ w * 10 < 1048576) ∧
    (∃ (s : State) (p : Part) (ch : Nat) (w : Nat) (f : Bool) (e : EdgeStamp), ch < chanCount p ∧ (s.chan p ch).dropNext = true) ∧
    (∃ (s : State) (p : Part) (ch : Nat) (w : Nat) (f : Bool) (e : EdgeStamp), ch < chanCount p ∧ (s.chan p ch).dropNext = false ∧ 131072 ≤ w ∧ (s.fld p (chAddr p ch 0) 1 2 = (if f then 0 else 1))) ∧
    (∃ (s : State) (p : Part) (ch : Nat) (w : Nat) (f : Bool) (e : EdgeStamp), chanCount p ≤ ch) ∧
    (∃ (s : State) (p : Part) (v : View) (ch : Nat) (n : Nat), s.ownsChan p v ch = true ∧ n ≤ (s.chan p ch).queue.length) ∧
    (∃ (s : State) (p : Part) (v : View) (ch : Nat) (n : Nat), s.ownsChan p v ch = true ∧ (s.chan p ch).queue.length < n) ∧
    (∃ (s : State) (p : Part) (v : View) (ch : Nat) (n : Nat), s.ownsChan p v ch = false) :=
  ⟨⟨State.reset.wr .baxel 0x6100 5, .baxel, 1, 200000, true, ⟨0, 0⟩, by decide +kernel⟩,
    ⟨State.reset.wr .baxel 0x6100 4, .baxel, 1, 100, true, ⟨0, 0⟩, by decide +kernel⟩,
    ⟨withBx fun k => { k with c := { k.c with stamp := { chans := [(1, { dropNext := true })] } } }, .baxel, 1, 200000, true, ⟨0, 0⟩, by decide +kernel⟩,
    ⟨State.reset, .baxel, 1, 200000, true, ⟨0, 0⟩, by decide +kernel⟩,
    ⟨State.reset, .baxel, 10000, 200000, true, ⟨0, 0⟩, by decide +kernel⟩,
    ⟨State.reset, .baxel, .priv, 1, 0, by decide +kernel⟩,
    ⟨State.reset, .baxel, .priv, 1, 3, by decide +kernel⟩,
    ⟨State.reset, .baxel, .tenant 1, 1, 3, by decide +kernel⟩⟩

theorem wit_RingsAndChannelWords :
    (∃ (s : State) (ch : Nat) (r : StampRec) (rest : List StampRec), Memory.wf s.ks.mem = true ∧ (s.chan .kresia ch).queue = r :: rest ∧ s.bit .kresia (chAddr .kresia ch 0) 3 = true ∧ s.rd .kresia (chAddr .kresia ch 0x48) ≠ 0 ∧ (s.rd .kresia (chAddr .kresia ch 0x4C) - s.rd .kresia (chAddr .kresia ch 0x50)) ≠ s.rd .kresia (chAddr .kresia ch 0x48)) ∧
    (∃ (s : State) (ch : Nat) (r : StampRec) (rest : List StampRec), (s.chan .baxel ch).queue = r :: rest ∧ s.bit .baxel (chAddr .baxel ch 0) 3 = true ∧ s.rd .baxel (chAddr .baxel ch 0x48) ≠ 0 ∧ (s.rd .baxel (chAddr .baxel ch 0x4C) - s.rd .baxel (chAddr .baxel ch 0x50)) ≠ s.rd .baxel (chAddr .baxel ch 0x48) ∧ s.ringBusy ch = false) ∧
    (∃ (s : State) (port : Nat) (id : Nat) (ch : Nat) (r : MemReq), FMap.find? s.bx.writes (port * 4096 + id) = some r ∧ r.use = .ring ch ∧ r.timedOut = false ∧ s.bx.v2Waits = []) ∧
    (∃ (s : State) (p : Part) (ch : Nat), (s.bit p (chAddr p ch 0) 3 = false ∨ (s.rd p (chAddr p ch 0x4C) - s.rd p (chAddr p ch 0x50)) = s.rd p (chAddr p ch 0x48))) ∧
    (∃ (s : State) (p : Part) (ch : Nat) (w : Word), ch < chanCount p ∧ w.get 1 2 = 3) ∧
    (∃ (s : State) (p : Part) (ch : Nat) (w : Word), ch < chanCount p ∧ w.get 1 2 ≠ 3 ∧ w.get 3 1 = 1 ∧ ringOk (s.rd64 p (chAddr p ch 0x40)).toNat (s.rd p (chAddr p ch 0x48)).toNat = false) ∧
    (∃ (s : State) (p : Part) (ch : Nat) (w : Word), ch < chanCount p ∧ w.get 1 2 ≠ 3 ∧ (w.get 3 1 = 0 ∨ ringOk (s.rd64 p (chAddr p ch 0x40)).toNat (s.rd p (chAddr p ch 0x48)).toNat = true)) :=
  ⟨⟨(((withKs fun k => { k with c := { k.c with stamp := { chans := [(1, { queue := [⟨0, .zero, 0, 0, 0, 0, 0, 0, 1⟩] })] } } }).setBit .kresia 0x106100 3 true).wr .kresia 0x106148 64), 1, ⟨0, .zero, 0, 0, 0, 0, 0, 0, 1⟩, [], by decide +kernel⟩,
    ⟨(((withBx fun k => { k with c := { k.c with stamp := { chans := [(1, { queue := [⟨0, .zero, 0, 0, 0, 0, 0, 0, 1⟩] })] } } }).setBit .baxel 0x6100 3 true).wr .baxel 0x6148 64), 1, ⟨0, .zero, 0, 0, 0, 0, 0, 0, 1⟩, [], by decide +kernel⟩,
    ⟨withBx fun k => { k with writes := [(5, ⟨0, 32, 0, .ring 1, 0, false, []⟩)] }, 0, 5, 1, ⟨0, 32, 0, .ring 1, 0, false, []⟩, by decide +kernel⟩,
    ⟨State.reset, .baxel, 1, by decide +kernel⟩,
    ⟨State.reset, .baxel, 1, 6, by decide +kernel⟩,
    ⟨State.reset, .baxel, 1, 8, by decide +kernel⟩,
    ⟨State.reset, .baxel, 1, 5, by decide +kernel⟩⟩

theorem wit_GatesOpenAndClose :
    (∃ (s : State) (p : Part) (g : Nat), g < groupCount p ∧ (s.pc p).time.dueCode (s.rdOt p (gtAddr p g 0x04)) = none ∧ (s.pc p).time.dueCode (s.rdOt p (gtAddr p g 0x10)) = none ∧ 0 < otDiff (s.rdOt p (gtAddr p g 0x10)) (s.rdOt p (gtAddr p g 0x04))) ∧
    (∃ (s : State) (p : Part) (g : Nat) (k : Code), g < groupCount p ∧ (s.pc p).time.dueCode (s.rdOt p (gtAddr p g 0x04)) = some k) ∧
    (∃ (s : State) (p : Part) (g : Nat) (k : Code), g < groupCount p ∧ (s.pc p).time.dueCode (s.rdOt p (gtAddr p g 0x04)) = none ∧ (s.pc p).time.dueCode (s.rdOt p (gtAddr p g 0x10)) = some k) ∧
    (∃ (s : State) (p : Part) (g : Nat), g < groupCount p ∧ (s.pc p).time.dueCode (s.rdOt p (gtAddr p g 0x04)) = none ∧ (s.pc p).time.dueCode (s.rdOt p (gtAddr p g 0x10)) = none ∧ otDiff (s.rdOt p (gtAddr p g 0x10)) (s.rdOt p (gtAddr p g 0x04)) ≤ 0) ∧
    (∃ (s : State) (p : Part) (g : Nat) (o : Due) (c : Due), s.fld p (gtAddr p g 0) 0 2 = 2 ∧ (s.gate p g).window = some (o, c) ∧ (s.gate p g).isOpen = false ∧ reached (s.raw p) o.raw = true) ∧
    (∃ (s : State) (p : Part) (g : Nat) (o : Due) (c : Due), s.fld p (gtAddr p g 0) 0 2 = 2 ∧ (s.gate p g).window = some (o, c) ∧ (s.gate p g).isOpen = true ∧ reached (s.raw p) c.raw = true) ∧
    (∃ (s : State) (p : Part) (g : Nat) (o : Due) (c : Due), (s.gate p g).window = some (o, c) ∧ (reached (s.raw p) (if (s.gate p g).isOpen then c.raw else o.raw) = false)) ∧
    (∃ (s : State) (p : Part) (g : Nat), g < groupCount p ∧ s.fld p (gtAddr p g 0) 0 2 = 3 ∧ (s.gate p g).isOpen = false) ∧
    (∃ (s : State) (p : Part) (g : Nat), g < groupCount p ∧ s.fld p (gtAddr p g 0) 0 2 = 3 ∧ (s.gate p g).isOpen = true) ∧
    (∃ (s : State) (p : Part) (g : Nat) (level : Bool), s.fld p (gtAddr p g 0) 0 2 ≠ 3) ∧
    (∃ (s : State) (p : Part) (g : Nat) (rising : Bool) (phase : Nat) (e : EdgeStamp), g < groupCount p ∧ s.fld p (gtAddr p g 0) 0 2 = 1 ∧ (s.gate p g).dropNext = false ∧ phase < 64 * 65536) ∧
    (∃ (s : State) (p : Part) (g : Nat) (rising : Bool) (phase : Nat) (e : EdgeStamp), g < groupCount p ∧ s.fld p (gtAddr p g 0) 0 2 = 1 ∧ (s.gate p g).dropNext = true) ∧
    (∃ (s : State) (p : Part) (g : Nat) (i : Nat) (rising : Bool) (phase : Nat) (e : EdgeStamp) (raw : Raw), g < groupCount p ∧ s.fld p (gtAddr p g 0) 0 2 = 1 ∧ (s.gate p g).dropNext = false ∧ 64 * 65536 ≤ phase ∧ s.pairStamp p (tdcGate p g) e = some (i, raw) ∧ (rising != s.bit p (gtAddr p g 0) 2) = true ∧ (s.gate p g).isOpen = false) ∧
    (∃ (s : State) (p : Part) (g : Nat) (i : Nat) (rising : Bool) (phase : Nat) (e : EdgeStamp) (raw : Raw), g < groupCount p ∧ s.fld p (gtAddr p g 0) 0 2 = 1 ∧ (s.gate p g).dropNext = false ∧ 64 * 65536 ≤ phase ∧ s.pairStamp p (tdcGate p g) e = some (i, raw) ∧ (rising != s.bit p (gtAddr p g 0) 2) = false) :=
  ⟨⟨(withBx fun k => { k with c := { k.c with time := { state := .locked } } }).wr .baxel 0x6810 5, .baxel, 0, by decide +kernel⟩,
    ⟨State.reset, .baxel, 0, 0x1007, by decide +kernel⟩,
    ⟨((withBx fun k => { k with c := { k.c with time := { state := .locked } } }).wr .baxel 0x6814 0xFFFF), .baxel, 0, 0x1003, by decide +kernel⟩,
    ⟨(withBx fun k => { k with c := { k.c with time := { state := .locked } } }), .baxel, 0, by decide +kernel⟩,
    ⟨(withBx fun k => { k with c := { k.c with stamp := { gates := [(0, { window := some (⟨.zero, 0, none, false⟩, ⟨.zero, 0, none, false⟩) })] } } }).wr .baxel 0x6800 2, .baxel, 0, ⟨.zero, 0, none, false⟩, ⟨.zero, 0, none, false⟩, by decide +kernel⟩,
    ⟨(withBx fun k => { k with c := { k.c with stamp := { gates := [(0, { isOpen := true, window := some (⟨.zero, 0, none, false⟩, ⟨.zero, 0, none, false⟩) })] } } }).wr .baxel 0x6800 2, .baxel, 0, ⟨.zero, 0, none, false⟩, ⟨.zero, 0, none, false⟩, by decide +kernel⟩,
    ⟨withBx fun k => { k with c := { k.c with stamp := { gates := [(0, { window := some (⟨.zero, 65536, none, false⟩, ⟨.zero, 0, none, false⟩) })] } } }, .baxel, 0, ⟨.zero, 65536, none, false⟩, ⟨.zero, 0, none, false⟩, by decide +kernel⟩,
    ⟨State.reset.wr .baxel 0x6800 3, .baxel, 0, by decide +kernel⟩,
    ⟨(withBx fun k => { k with c := { k.c with stamp := { gates := [(0, { isOpen := true })] } } }).wr .baxel 0x6800 3, .baxel, 0, by decide +kernel⟩,
    ⟨State.reset, .baxel, 0, true, by decide +kernel⟩,
    ⟨State.reset.wr .baxel 0x6800 1, .baxel, 0, true, 5, ⟨0, 0⟩, by decide +kernel⟩,
    ⟨(withBx fun k => { k with c := { k.c with stamp := { gates := [(0, { dropNext := true })] } } }).wr .baxel 0x6800 1, .baxel, 0, true, 5, ⟨0, 0⟩, by decide +kernel⟩,
    ⟨State.reset.wr .baxel 0x6800 1, .baxel, 0, 24, true, 4194304, ⟨0, 0⟩, 0xfffffffffffffe67, by decide +kernel⟩,
    ⟨State.reset.wr .baxel 0x6800 1, .baxel, 0, 24, false, 4194304, ⟨0, 0⟩, 0xfffffffffffffe67, by decide +kernel⟩⟩

theorem wit_FrequencyMeasurements :
    (∃ (s : State) (p : Part) (g : Nat), g < groupCount p ∧ s.bit p (fqAddr p g 0x14) 0 = true) ∧
    (∃ (s : State) (p : Part) (g : Nat), g < groupCount p ∧ s.bit p (fqAddr p g 0x14) 0 = false ∧ (s.rd64 p (fqAddr p g 0x04)).toNat < 2 ^ 24) ∧
    (∃ (s : State) (p : Part) (g : Nat), g < groupCount p ∧ s.bit p (fqAddr p g 0x14) 0 = false ∧ 2 ^ 24 ≤ (s.rd64 p (fqAddr p g 0x04)).toNat) ∧
    (∃ (s : State) (p : Part) (g : Nat), (s.freq p g).running = true ∧ 3 ≤ s.maxn p g ∧ s.maxn p g ≤ (s.freqStamps p g none).length) ∧
    (∃ (s : State) (p : Part) (g : Nat), ((s.freq p g).running = false ∨ (s.freqStamps p g none).length < s.maxn p g)) ∧
    (∃ (s : State) (p : Part) (g : Nat) (seq : Word), seq ≠ s.rd p (fqAddr p g 0x10)) :=
  ⟨⟨State.reset.wr .baxel 0x6914 1, .baxel, 0, by decide +kernel⟩,
    ⟨State.reset, .baxel, 0, by decide +kernel⟩,
    ⟨State.reset.wr .baxel 0x6904 16777216, .baxel, 0, by decide +kernel⟩,
    ⟨(withBx fun k => { k with c := { k.c with stamp := { freqs := [(0, { running := true })], chans := [(0, { held := [⟨0, .zero, false, 0, false, false, 0, 0⟩, ⟨300000, .zero, false, 0, false, false, 0, 0⟩, ⟨600000, .zero, false, 0, false, false, 0, 0⟩] })] } } }).wr .baxel 0x690C 3, .baxel, 0, by decide +kernel⟩,
    ⟨State.reset, .baxel, 0, by decide +kernel⟩,
    ⟨State.reset, .baxel, 0, 5, by decide +kernel⟩⟩

theorem wit_ObjectOperations :
    (∃ (s : State) (r : ObjReq) (o : Nat), s.accepted r = true ∧ s.refusal r true false false = none ∧ s.reqObj r = some o ∧ (s.obj (reqPart r) o).value + s.reqN r ≤ objMax) ∧
    (∃ (s : State) (r : ObjReq) (o : Nat), s.accepted r = true ∧ s.refusal r true false false = none ∧ s.reqObj r = some o ∧ objMax < (s.obj (reqPart r) o).value + s.reqN r) ∧
    (∃ (s : State) (r : ObjReq) (o : Nat), s.accepted r = true ∧ s.refusal r true false false = none ∧ s.reqObj r = some o ∧ (s.obj (reqPart r) o).waiters = [] ∧ s.reqN r ≤ (s.obj (reqPart r) o).value) ∧
    (∃ (s : State) (r : ObjReq) (o : Nat), s.accepted r = true ∧ s.refusal r true false false = none ∧ s.reqObj r = some o ∧ s.reqN r ≤ (s.obj (reqPart r) o).value) ∧
    (∃ (s : State) (r : ObjReq) (o : Nat), s.accepted r = true ∧ s.refusal r true false false = none ∧ s.reqObj r = some o ∧ (s.obj (reqPart r) o).value < s.reqN r) ∧
    (∃ (s : State) (r : ObjReq) (o : Nat), s.accepted r = true ∧ s.refusal r false false true = none ∧ s.reqObj r = some o) ∧
    (∃ (s : State) (r : ObjReq) (o : Nat), s.accepted r = true ∧ s.refusal r false true false = none ∧ s.reqObj r = some o) :=
  ⟨⟨withKs fun k => { k with objs := [(5, { value := 3, domain := some 1, waiters := [⟨.entry 9, 0, 1, 4, 0, 0⟩] })] }, .entry 1 2 3 5, 5, by decide +kernel⟩,
    ⟨withKs fun k => { k with objs := [(5, { value := 2147483647, domain := some 1, waiters := [] })] }, .entry 1 2 3 5, 5, by decide +kernel⟩,
    ⟨(withBx fun b => { b with objs := [(5, { value := 7, waiters := [] })], tenants := [(0, { domain := some 1 })] }).wr .baxel 0x500 0x10000, .port 0 2 7 5, 5, by decide +kernel⟩,
    ⟨(withBx fun b => { b with objs := [(5, { value := 7, waiters := [] })], tenants := [(0, { domain := some 1 })] }).wr .baxel 0x500 0x10000, .port 0 2 7 5, 5, by decide +kernel⟩,
    ⟨(withBx fun b => { b with objs := [(5, { value := 7, waiters := [] })], tenants := [(0, { domain := some 1 })] }).wr .baxel 0x500 0x10000, .port 0 2 8 5, 5, by decide +kernel⟩,
    ⟨((withBx fun b => { b with objs := [(5, { value := 7, waiters := [] })], tenants := [(0, { domain := some 1 })] }).wr .baxel 0x500 0x10000).wr .baxel 0x1200 9, .view 0 true 5 3, 5, by decide +kernel⟩,
    ⟨(withBx fun b => { b with objs := [(5, { value := 7, waiters := [] })], tenants := [(0, { domain := some 1 })] }).wr .baxel 0x500 0x10000, .port 0 2 0 5, 5, by decide +kernel⟩⟩

theorem wit_ObjectWaitsEnd_1 :
    (∃ (s : State) (k : Nat) (tag : Nat) (n : Nat) (o : Nat), s.accepted (.port k tag n o) = true ∧ s.refusal (.port k tag n o) true false false = none ∧ ((s.obj .baxel o).waiters ≠ [] ∨ (s.obj .baxel o).value < n) ∧ s.waitRoom k 1 = true) ∧
    (∃ (s : State) (d : Nat) (i : Nat) (n : Nat) (o : Nat), s.refusal (.entry d i n o) true false false = none ∧ ((s.obj .kresia o).waiters ≠ [] ∨ (s.obj .kresia o).value < n) ∧ s.ksWaitRoom = true) ∧
    (∃ (s : State) (d : Nat) (i : Nat) (n : Nat) (o : Nat), s.refusal (.engine d i n o) true false false = none ∧ ((s.obj .kresia o).waiters ≠ [] ∨ (s.obj .kresia o).value < n) ∧ s.ksWaitRoom = true) ∧
    (∃ (s : State) (k : Nat) (tag : Nat) (n : Nat) (o : Nat), s.accepted (.port k tag n o) = true ∧ s.refusal (.port k tag n o) true false false = none ∧ ((s.obj .baxel o).waiters ≠ [] ∨ (s.obj .baxel o).value < n) ∧ s.waitRoom k 1 = false) ∧
    (∃ (s : State) (d : Nat) (i : Nat) (n : Nat) (o : Nat) (r : ObjReq), (r = .entry d i n o ∨ r = .engine d i n o) ∧ s.refusal r true false false = none ∧ ((s.obj .kresia o).waiters ≠ [] ∨ (s.obj .kresia o).value < n) ∧ s.ksWaitRoom = false) ∧
    (∃ (s : State) (k : Nat) (pv : Bool) (i : Nat) (tag : Nat) (n : Nat), s.reqN (.view k pv i tag) = n ∧ s.refusal (.view k pv i tag) true false false = none ∧ ((s.obj .baxel (s.objBase k + i)).waiters ≠ [] ∨ (s.obj .baxel (s.objBase k + i)).value < n) ∧ s.viewWaiting k + (s.ten k).tcq.length < 16 ∧ s.waitRoom k 1 = true) ∧
    (∃ (s : State) (r : ObjReq) (o : Nat) (v : Nat) (w : Waiter) (rest : List (Nat × Waiter)) (k : Nat) (tag : Nat), r = .port k tag 0 v ∧ s.accepted r = true ∧ s.refusal r false false false = none ∧ s.taggedWaits .baxel k .signalPort tag = (o, w) :: rest) ∧
    (∃ (s : State) (k : Nat) (tag : Nat) (n : Nat) (v : Nat), s.accepted (.port k tag n v) = true ∧ s.refusal (.port k tag n v) false false false = none ∧ s.taggedWaits .baxel k .signalPort tag = []) ∧
    (∃ (s : State) (o : Nat) (tag : Nat) (w : Waiter), (s.obj .baxel o).waiters.find? (fun w => w.source = .view && w.tag = tag && w.timeoutUs ≠ 0 && (w.timeoutUs : Int) * 1000 * 65536 ≤ Raw.diff (s.raw .baxel) w.issued) = some w) ∧
    (∃ (s : State) (p : Part) (o : Nat) (tag : Nat) (src : WaiterSource), (s.obj p o).waiters = []) ∧
    (∃ (s : State) (r : ObjReq) (code : Code), s.refusal r true false false = some code) ∧
    (∃ (s : State) (r : ObjReq) (code : Code), s.refusal r true false false = some code) ∧
    (∃ (s : State) (r : ObjReq) (code : Code), s.refusal r true false false = some code) ∧
    (∃ (s : State) (r : ObjReq) (code : Code), s.refusal r false false true = some code) ∧
    (∃ (s : State) (r : ObjReq) (code : Code), s.refusal r false true false = some code) ∧
    (∃ (s : State) (r : ObjReq) (code : Code), s.refusal r false false false = some code) :=
  ⟨⟨(withBx fun b => { b with objs := [(5, { value := 7, waiters := [] })], tenants := [(0, { domain := some 1 })] }).wr .baxel 0x500 0x10000, 0, 2, 8, 5, by decide +kernel⟩,
    ⟨withKs fun k => { k with objs := [(5, { value := 7, domain := some 1, waiters := [] })] }, 1, 2, 8, 5, by decide +kernel⟩,
    ⟨withKs fun k => { k with objs := [(5, { value := 7, domain := some 1, waiters := [] })] }, 1, 2, 8, 5, by decide +kernel⟩,
    ⟨(((withBx fun b => { b with objs := [(5, { value := 7, waiters := List.replicate 4 ⟨.signalPort, 1, 0, 9, 0, 0⟩ })], tenants := [(0, { domain := some 1 })] }).wr .baxel 0x500 0x10000).wr .baxel 0x510 0).wr .baxel 0x514 2048, 0, 2, 8, 5, by decide +kernel⟩,
    ⟨withKs fun k => { k with objs := [(5, { value := 7, domain := some 1, waiters := List.replicate 16384 ⟨.entry 9, 0, 1, 4, 0, 0⟩ })] }, 1, 2, 8, 5, .entry 1 2 8 5, by decide +kernel⟩,
    ⟨((withBx fun b => { b with objs := [(5, { value := 7, waiters := [] })], tenants := [(0, { domain := some 1 })] }).wr .baxel 0x500 0x10000).wr .baxel 0x1200 9, 0, false, 5, 3, 9, by decide +kernel⟩,
    ⟨(withBx fun b => { b with objs := [(5, { value := 2, waiters := [⟨.signalPort, 3, 0, 4, 0, 0⟩] })], tenants := [(0, { domain := some 1 })] }).wr .baxel 0x500 0x10000, .port 0 3 0 5, 5, 5, ⟨.signalPort, 3, 0, 4, 0, 0⟩, [], 0, 3, by decide +kernel⟩,
    ⟨(withBx fun b => { b with objs := [(5, { value := 2, waiters := [] })], tenants := [(0, { domain := some 1 })] }).wr .baxel 0x500 0x10000, 0, 3, 0, 5, by decide +kernel⟩,
    ⟨((withBx fun b => { b with objs := [(5, { value := 2, waiters := [⟨.view, 3, 0, 4, 0, 1⟩] })], tenants := [(0, { domain := some 1 })] }).wr .baxel 0x500 0x10000).modTime .baxel fun u => { u with raw := 65536000 }, 5, 3, ⟨.view, 3, 0, 4, 0, 1⟩, by decide +kernel⟩,
    ⟨State.reset, .baxel, 5, 1, .view, by decide +kernel⟩,
    ⟨State.reset, .entry 1 2 3 70000, 0x3004, by decide +kernel⟩,
    ⟨State.reset, .entry 1 2 3 70000, 0x3004, by decide +kernel⟩,
    ⟨State.reset, .entry 1 2 3 70000, 0x3004, by decide +kernel⟩,
    ⟨State.reset, .entry 1 2 3 70000, 0x3004, by decide +kernel⟩,
    ⟨State.reset, .entry 1 2 3 70000, 0x3004, by decide +kernel⟩,
    ⟨State.reset, .entry 1 2 3 70000, 0x3004, by decide +kernel⟩⟩

theorem wit_ObjectWaitsEnd_2 :
    ∃ (s : State) (r : ObjReq) (c : Instr), s.accepted r = false ∧ (c = .objSignal r ∨ c = .objTake r ∨ c = .objDec r ∨ c = .objSet r ∨ c = .objPeek r ∨ c = .objCancel r) :=
  ⟨State.reset, .port 1 0 0 0, .objPeek (.port 1 0 0 0), by decide +kernel⟩

theorem wit_ObjectPartitionsAndPops :
    (∃ (s : State) (k : Nat) (w : Word), k < 4 ∧ (partsOk ((List.range 4).map fun u => if u = k then (w.get 0 12, w.get 12 13) else (s.objBase u, s.objCount u)) 4096 = true) ∧ ((∀ i, i < s.objCount k → (s.obj .baxel (s.objBase k + i)).poison = false ∧ (s.obj .baxel (s.objBase k + i)).waiters = []))) ∧
    (∃ (s : State) (k : Nat) (w : Word), k < 4 ∧ (partsOk ((List.range 4).map fun u => if u = k then (w.get 0 12, w.get 12 13) else (s.objBase u, s.objCount u)) 4096 = false)) ∧
    (∃ (s : State) (k : Nat) (w : Word), k < 4 ∧ (((List.range 4).map fun u => if u = k then w.get 0 12 else s.wfloor u).foldl (· + ·) 0 ≤ 2048)) ∧
    (∃ (s : State) (k : Nat) (w : Word), k < 4 ∧ (2048 < ((List.range 4).map fun u => if u = k then w.get 0 12 else s.wfloor u).foldl (· + ·) 0)) ∧
    (∃ (s : State) (k : Nat) (w : Word), k < 4 ∧ (((List.range 4).map fun u => if u = k then w.get 0 14 else s.fld .baxel (0x0520 + 4 * u) 0 14).foldl (· + ·) 0 ≤ 8192)) ∧
    (∃ (s : State) (k : Nat) (w : Word), k < 4 ∧ (8192 < ((List.range 4).map fun u => if u = k then w.get 0 14 else s.fld .baxel (0x0520 + 4 * u) 0 14).foldl (· + ·) 0)) :=
  ⟨⟨State.reset, 1, 0x1000, by decide +kernel⟩,
    ⟨State.reset, 1, 0x1FFFFFF, by decide +kernel⟩,
    ⟨State.reset, 1, 4, by decide +kernel⟩,
    ⟨State.reset, 1, 4095, by decide +kernel⟩,
    ⟨State.reset, 1, 4, by decide +kernel⟩,
    ⟨State.reset, 1, 16383, by decide +kernel⟩⟩

theorem wit_LaunchSetup :
    (∃ (s : State) (k : Nat) (w : Word), k < 4 ∧ (partsOk ((List.range 4).map fun u => if u = k then (w.get 0 10, w.get 10 11) else (s.llBase u, s.llCount u)) 1024 = true) ∧ s.slotsOf k = []) ∧
    (∃ (s : State) (k : Nat) (w : Word), k < 4 ∧ (partsOk ((List.range 4).map fun u => if u = k then (w.get 0 10, w.get 10 11) else (s.llBase u, s.llCount u)) 1024 = false ∨ (s.slotsOf k ≠ [] ∧ (w.get 0 10, w.get 10 11) ≠ (s.llBase k, s.llCount k)))) ∧
    (∃ (s : State) (k : Nat) (hi : Bool) (w : Word), k < 4 ∧ ((∀ u, u < 4 → u ≠ k → s.rowAllow u &&& (s.wr .baxel (0x0410 + 8 * k + (if hi then 4 else 0)) w).rowAllow k = 0))) ∧
    (∃ (s : State) (k : Nat) (u : Nat) (hi : Bool) (w : Word), k < 4 ∧ u < 4 ∧ u ≠ k ∧ (s.rowAllow u &&& (s.wr .baxel (0x0410 + 8 * k + (if hi then 4 else 0)) w).rowAllow k ≠ 0)) ∧
    (∃ (s : State) (k : Nat) (u : Nat) (v : Nat) (hi : Bool) (w : Word), k < 4 ∧ u < 4 ∧ v < 4 ∧ u ≠ v ∧ ((∀ a, a < 4 → ∀ b, b < 4 → a ≠ b → s.rowAllow a &&& s.rowAllow b = 0))) ∧
    (∃ (s : State) (w : Word) (m : Nat) (n : Nat), (m = (if w.get 1 6 = 0 then 64 else w.get 1 6)) ∧ (n = (if w.get 7 6 = 0 then 64 else w.get 7 6)) ∧ steerOk m n = true) ∧
    (∃ (s : State) (w : Word) (m : Nat) (n : Nat), (m = (if w.get 1 6 = 0 then 64 else w.get 1 6)) ∧ (n = (if w.get 7 6 = 0 then 64 else w.get 7 6)) ∧ steerOk m n = false) ∧
    (∃ (s : State) (ld : TemplateLoad), s.tenantOf ld.domain = none) ∧
    (∃ (s : State) (ld : TemplateLoad) (k : Nat) (code : Code), s.tenantOf ld.domain = some k ∧ ld.op = .load ∧ ld.slots.findSome? (fun (i, tm) => s.tmplCode k i tm ld.replace) = some code) ∧
    (∃ (s : State) (ld : TemplateLoad) (k : Nat) (i : Nat) (tm : Template), s.tenantOf ld.domain = some k ∧ ld.op = .load ∧ ld.slots = [(i, tm)] ∧ ld.objs = [] ∧ ld.replace = false ∧ ld.trackers ≤ s.fld .baxel (0x0520 + 4 * k) 0 14 ∧ s.tmplCode k i tm = none ∧ (s.slot k i).state = .free) ∧
    (∃ (s : State) (ld : TemplateLoad) (k : Nat) (i : Nat) (tm : Template), s.tenantOf ld.domain = some k ∧ ld.op = .load ∧ ld.slots = [(i, tm)] ∧ ld.replace = true ∧ ((∀ x ∈ ld.objs, x.cluster = true ∨ x.index < s.objCount k)) ∧ ld.trackers ≤ s.fld .baxel (0x0520 + 4 * k) 0 14 ∧ s.tmplCode k i tm true = none ∧ (s.slot k i).state = .free) :=
  ⟨⟨State.reset, 1, 0x400, by decide +kernel⟩,
    ⟨State.reset, 1, 0x1FFFFF, by decide +kernel⟩,
    ⟨State.reset, 1, false, 5, by decide +kernel⟩,
    ⟨State.reset.wr .baxel 0x410 1, 1, 0, false, 5, by decide +kernel⟩,
    ⟨State.reset, 1, 0, 2, false, 5, by decide +kernel⟩,
    ⟨State.reset, 0x82, 1, 1, by decide +kernel⟩,
    ⟨State.reset, 0x84, 2, 1, by decide +kernel⟩,
    ⟨State.reset, { domain := 3, stepFirst := 0, slots := [], objs := [] }, by decide +kernel⟩,
    ⟨((withBx fun b => { b with slots := [(2, {  })], tenants := [(1, { domain := some 7 })], c := { b.c with time := { state := .locked } } }).wr .baxel 0x404 0x2400), { domain := 7, stepFirst := 0, slots := [(20, {})], objs := [] }, 1, 0x2011, by decide +kernel⟩,
    ⟨((withBx fun b => { b with slots := [], tenants := [(1, { domain := some 7 })], c := { b.c with time := { state := .locked } } }).wr .baxel 0x404 0x2400), { domain := 7, stepFirst := 4, slots := [(2, { tenant := 1 })], objs := [] }, 1, 2, { tenant := 1 }, by decide +kernel⟩,
    ⟨((withBx fun b => { b with slots := [], tenants := [(1, { domain := some 7 })], c := { b.c with time := { state := .locked } } }).wr .baxel 0x404 0x2400), { domain := 7, replace := true, stepFirst := 4, slots := [(2, { tenant := 1 })], objs := [] }, 1, 2, { tenant := 1 }, by decide +kernel⟩⟩

theorem wit_BroadcastsAtAMember :
    (∃ (s : State) (k : Nat) (step : Nat), k < 4 ∧ (s.ten k).mayArrive step = true) ∧
    (∃ (s : State) (k : Nat) (step : Nat), k < 4 ∧ (s.ten k).mayArrive step = false) ∧
    (∃ (s : State) (port : Nat) (k : Nat) (rx : EdgeStamp) (m : Ctl) (x : Tenant), port < 8 ∧ m.kind = .arm ∧ s.tenantOf m.domain = some k ∧ s.bx.fenced = false ∧ (s.ten k).filter m.epoch m.seq = (x, .first false) ∧ (s.ten k).pendObjs = [] ∧ m.slot < s.llCount k ∧ (s.slot k m.slot).state = .loaded ∧ s.armCode m (s.slot k m.slot).tmpl.bell = none) ∧
    (∃ (s : State) (port : Nat) (k : Nat) (rx : EdgeStamp) (m : Ctl) (x : Tenant) (c : Code), port < 8 ∧ m.kind = .arm ∧ s.tenantOf m.domain = some k ∧ s.bx.fenced = false ∧ (s.ten k).filter m.epoch m.seq = (x, .first false) ∧ (s.ten k).pendObjs = [] ∧ m.slot < s.llCount k ∧ (s.slot k m.slot).state = .loaded ∧ s.armCode m (s.slot k m.slot).tmpl.bell = some c) ∧
    (∃ (s : State) (port : Nat) (k : Nat) (rx : EdgeStamp) (m : Ctl) (x : Tenant), (m.kind = .arm ∨ m.kind = .tamp ∨ m.kind = .void) ∧ s.tenantOf m.domain = some k ∧ (s.ten k).filter m.epoch m.seq = (x, .dup)) ∧
    (∃ (s : State) (port : Nat) (k : Nat) (rx : EdgeStamp) (m : Ctl) (x : Tenant), port < 8 ∧ m.kind = .tamp ∧ s.tenantOf m.domain = some k ∧ s.bx.fenced = false ∧ (s.ten k).filter m.epoch m.seq = (x, .first false) ∧ m.slot < s.llCount k ∧ (s.slot k m.slot).state = .armed ∧ (s.slot k m.slot).epoch = m.epoch ∧ (s.slot k m.slot).step = m.step ∧ (s.slot k m.slot).tmpl.bell = false ∧ (s.slot k m.slot).wD.any (fun w => Raw.diff ((s.tdc .baxel (tdcRx .baxel port)).stamp rx) w.raw < 0) = true) ∧
    (∃ (s : State) (port : Nat) (k : Nat) (rx : EdgeStamp) (m : Ctl) (x : Tenant), port < 8 ∧ m.kind = .tamp ∧ s.tenantOf m.domain = some k ∧ s.bx.fenced = false ∧ (s.ten k).filter m.epoch m.seq = (x, .first false) ∧ m.slot < s.llCount k ∧ (s.slot k m.slot).state = .armed ∧ (s.slot k m.slot).epoch = m.epoch ∧ (s.slot k m.slot).step = m.step ∧ (s.slot k m.slot).wD.any (fun w => 0 ≤ Raw.diff ((s.tdc .baxel (tdcRx .baxel port)).stamp rx) w.raw) = true) ∧
    (∃ (s : State) (port : Nat) (k : Nat) (i : Nat) (m : Ctl) (x : Tenant), port < 8 ∧ m.kind = .void ∧ s.tenantOf m.domain = some k ∧ s.bx.fenced = false ∧ (s.ten k).filter m.epoch m.seq = (x, .first true) ∧ (s.ten k).faulted = false ∧ ((∀ y ∈ s.bx.objs, y.2.replay = false)) ∧ i < s.llCount k ∧ ((s.slot k i).state = .armed ∨ (s.slot k i).state = .tamped ∨ (s.slot k i).state = .waiting)) ∧
    (∃ (s : State) (port : Nat) (rx : EdgeStamp) (m : Ctl), port < 8 ∧ s.tenantOf m.domain = none) ∧
    (∃ (s : State) (k : Nat) (i : Nat) (w : Due), (s.slot k i).state = .armed ∧ (s.slot k i).wD = some w ∧ orphanDue (s.raw .baxel) w = true) ∧
    (∃ (s : State) (k : Nat) (i : Nat) (w : Due), (s.slot k i).state = .armed ∧ (s.slot k i).wD = some w ∧ orphanDue (s.raw .baxel) w = false) :=
  ⟨⟨((withBx fun b => { b with slots := [(2, {  })], tenants := [(1, { domain := some 7, named := some 4 })], c := { b.c with time := { state := .locked } } }).wr .baxel 0x404 0x2400), 1, 5, by decide +kernel⟩,
    ⟨State.reset, 1, 5, by decide +kernel⟩,
    ⟨((withBx fun b => { b with slots := [(2, { state := .loaded })], tenants := [(1, { domain := some 7 })], c := { b.c with time := { state := .locked } } }).wr .baxel 0x404 0x2400), 3, 1, ⟨0, 0⟩, { kind := .arm, domain := 7, seq := 1, step := 5, slot := 2, due := ⟨0, 100000, 0⟩, window := 1000 }, { domain := some 7, hseq := 1, seen := 1 }, by decide +kernel⟩,
    ⟨((withBx fun b => { b with slots := [(2, { state := .loaded })], tenants := [(1, { domain := some 7 })], c := { b.c with time := { state := .locked, raw := 200000000 } } }).wr .baxel 0x404 0x2400), 3, 1, ⟨0, 0⟩, { kind := .arm, domain := 7, seq := 1, step := 5, slot := 2, due := ⟨0, 100000, 0⟩, window := 99000 }, { domain := some 7, hseq := 1, seen := 1 }, 0x2002, by decide +kernel⟩,
    ⟨((withBx fun b => { b with slots := [(2, {  })], tenants := [(1, { domain := some 7, hseq := 2, seen := 3 })], c := { b.c with time := { state := .locked } } }).wr .baxel 0x404 0x2400), 3, 1, ⟨0, 0⟩, { kind := .tamp, domain := 7, seq := 2, step := 5, slot := 2 }, { domain := some 7, hseq := 2, seen := 3 }, by decide +kernel⟩,
    ⟨((withBx fun b => { b with slots := [(2, { state := .armed, step := 5, wD := some ⟨.zero, 65536000, none, false⟩, dueD := some ⟨.zero, 131072000, none, false⟩ })], tenants := [(1, { domain := some 7 })], c := { b.c with time := { state := .locked } } }).wr .baxel 0x404 0x2400), 3, 1, ⟨0, 0⟩, { kind := .tamp, domain := 7, seq := 2, step := 5, slot := 2 }, { domain := some 7, hseq := 2, seen := 1 }, by decide +kernel⟩,
    ⟨((withBx fun b => { b with slots := [(2, { state := .armed, step := 5, wD := some ⟨.zero, 65536000, none, false⟩, dueD := some ⟨.zero, 131072000, none, false⟩ })], tenants := [(1, { domain := some 7 })], c := { b.c with time := { state := .locked } } }).wr .baxel 0x404 0x2400), 3, 1, ⟨65636000, 0⟩, { kind := .tamp, domain := 7, seq := 2, step := 5, slot := 2 }, { domain := some 7, hseq := 2, seen := 1 }, by decide +kernel⟩,
    ⟨((withBx fun b => { b with slots := [(2, { state := .armed, step := 5, wD := some ⟨.zero, 65536000, none, false⟩, dueD := some ⟨.zero, 131072000, none, false⟩ })], tenants := [(1, { domain := some 7 })], c := { b.c with time := { state := .locked } } }).wr .baxel 0x404 0x2400), 3, 1, 2, { kind := .void, domain := 7, epoch := 1, seq := 1, step := 5 }, { domain := some 7, epoch := 1, hseq := 1, seen := 1 }, by decide +kernel⟩,
    ⟨State.reset, 3, ⟨0, 0⟩, { kind := .arm }, by decide +kernel⟩,
    ⟨((withBx fun b => { b with slots := [(2, { state := .armed, step := 5, wD := some ⟨.zero, 65536000, none, false⟩, dueD := some ⟨.zero, 131072000, none, false⟩ })], tenants := [(1, { domain := some 7 })], c := { b.c with time := { state := .locked, raw := 80000000 } } }).wr .baxel 0x404 0x2400), 1, 2, ⟨.zero, 65536000, none, false⟩, by decide +kernel⟩,
    ⟨((withBx fun b => { b with slots := [(2, { state := .armed, step := 5, wD := some ⟨.zero, 65536000, none, false⟩, dueD := some ⟨.zero, 131072000, none, false⟩ })], tenants := [(1, { domain := some 7 })], c := { b.c with time := { state := .locked } } }).wr .baxel 0x404 0x2400), 1, 2, ⟨.zero, 65536000, none, false⟩, by decide +kernel⟩⟩

theorem wit_FiresAtTheLaunchPort :
    (∃ (s : State) (k : Nat) (i : Nat) (d : Due), (s.slot k i).dueD = some d ∧ (s.slot k i).toFire = true ∧ (s.slot k i).presented = false ∧ s.bx.fenced = false ∧ (s.ten k).faulted = false ∧ Raw.diff d.raw (s.raw .baxel) ≤ 256 * 65536 ∧ ((∀ y ∈ s.slotsOf k, y.1 = i))) ∧
    (∃ (s : State) (k : Nat) (i : Nat) (d : Due), (s.slot k i).dueD = some d ∧ 256 * 65536 < Raw.diff d.raw (s.raw .baxel)) ∧
    (∃ (s : State) (k : Nat) (i : Nat) (e : Slot), (s.slotsOf k).find? (fun (_, e) => e.presented && e.accepted.isNone) = some (i, e) ∧ (s.slot k i).held = false) ∧
    (∃ (s : State) (k : Nat) (i : Nat) (d : Due) (acc : Raw), (s.slot k i).state = .tamped ∧ (s.slot k i).dueD = some d ∧ (s.slot k i).held = false ∧ s.fireDue k i d = true ∧ (s.fireCycle k d).2 = false ∧ (s.slot k i).tmpl.gate0En = false ∧ (s.slot k i).tmpl.gate1En = false ∧ (s.slot k i).tmpl.bell = false ∧ (s.slot k i).accepted = some acc ∧ 8 * 65536 ≤ Raw.diff (s.launchEdge (s.slot k i) d) acc) ∧
    (∃ (s : State) (k : Nat) (i : Nat) (d : Due), (s.slot k i).dueD = some d ∧ s.fireDue k i d = false) ∧
    (∃ (s : State) (k : Nat) (i : Nat) (d : Due), (s.slot k i).state = .tamped ∧ (s.slot k i).dueD = some d ∧ (s.slot k i).held = false ∧ s.fireDue k i d = true ∧ slotGates (s.slot k i).tmpl ≠ [] ∧ s.gateRefused k (slotGates (s.slot k i).tmpl) = false ∧ s.gateReady k i (slotGates (s.slot k i).tmpl) = false ∧ (s.slot k i).tmpl.gateWait ≠ 0 ∧ s.waitRoom k (slotGates (s.slot k i).tmpl).length = true) ∧
    (∃ (s : State) (k : Nat) (i : Nat) (o : Nat) (n : Nat), k < 4 ∧ (s.slot k i).state = .waiting ∧ slotGates (s.slot k i).tmpl = [(o, n)] ∧ s.gateRefused k [(o, n)] = false ∧ s.gateReady k i [(o, n)] = true) ∧
    (∃ (s : State) (k : Nat) (i : Nat), (s.slot k i).state = .waiting ∧ s.gateRefused k (slotGates (s.slot k i).tmpl) = false ∧ s.gateReady k i (slotGates (s.slot k i).tmpl) = false) ∧
    (∃ (s : State) (k : Nat) (i : Nat) (d : Due), (s.slot k i).state = .waiting ∧ (s.slot k i).dueD = some d ∧ (s.slot k i).tmpl.bell = false ∧ ((s.slot k i).tmpl.gateWait : Int) * 65536000 ≤ Raw.diff (s.raw .baxel) d.raw) ∧
    (∃ (s : State) (k : Nat) (i : Nat) (d : Due), (s.slot k i).dueD = some d ∧ Raw.diff (s.raw .baxel) d.raw < ((s.slot k i).tmpl.gateWait : Int) * 65536000) ∧
    (∃ (s : State) (k : Nat) (i : Nat) (d : Due) (acc : Raw), (s.slot k i).state = .bellRun ∧ (s.slot k i).dueD = some d ∧ (s.slot k i).held = false ∧ (s.slot k i).change = none ∧ (s.ten k).faulted = false ∧ s.fireDue k i d = true ∧ (s.fireCycle k d).2 = false ∧ (s.slot k i).tmpl.gate0En = false ∧ (s.slot k i).tmpl.gate1En = false ∧ (s.slot k i).accepted = some acc ∧ 8 * 65536 ≤ Raw.diff (s.launchEdge (s.slot k i) d) acc) ∧
    (∃ (s : State) (k : Nat) (i : Nat) (d : Due), (s.slot k i).state = .bellRun ∧ (s.slot k i).dueD = some d ∧ (s.slot k i).held = false ∧ (s.slot k i).change = none ∧ (s.ten k).faulted = true ∧ s.fireDue k i d = true) :=
  ⟨⟨((withBx fun b => { b with slots := [(2, { state := .tamped, step := 5, wD := some ⟨.zero, 65536000, none, false⟩, dueD := some ⟨.zero, 131072000, none, false⟩ })], tenants := [(1, { domain := some 7 })], c := { b.c with time := { state := .locked, raw := 131000000 } } }).wr .baxel 0x404 0x2400), 1, 2, ⟨.zero, 131072000, none, false⟩, by decide +kernel⟩,
    ⟨((withBx fun b => { b with slots := [(2, { state := .tamped, step := 5, wD := some ⟨.zero, 65536000, none, false⟩, dueD := some ⟨.zero, 131072000, none, false⟩ })], tenants := [(1, { domain := some 7 })], c := { b.c with time := { state := .locked } } }).wr .baxel 0x404 0x2400), 1, 2, ⟨.zero, 131072000, none, false⟩, by decide +kernel⟩,
    ⟨((withBx fun b => { b with slots := [(2, { state := .tamped, step := 5, wD := some ⟨.zero, 65536000, none, false⟩, dueD := some ⟨.zero, 131072000, none, false⟩, presented := true })], tenants := [(1, { domain := some 7 })], c := { b.c with time := { state := .locked } } }).wr .baxel 0x404 0x2400), 1, 2, { state := .tamped, step := 5, wD := some ⟨.zero, 65536000, none, false⟩, dueD := some ⟨.zero, 131072000, none, false⟩, presented := true }, by decide +kernel⟩,
    ⟨((withBx fun b => { b with slots := [(2, { state := .tamped, step := 5, wD := some ⟨.zero, 65536000, none, false⟩, dueD := some ⟨.zero, 131072000, none, false⟩, presented := true, accepted := some 130000000 })], tenants := [(1, { domain := some 7 })], c := { b.c with time := { state := .locked, raw := 131072000 } } }).wr .baxel 0x404 0x2400), 1, 2, ⟨.zero, 131072000, none, false⟩, 130000000, by decide +kernel⟩,
    ⟨((withBx fun b => { b with slots := [(2, { state := .tamped, step := 5, wD := some ⟨.zero, 65536000, none, false⟩, dueD := some ⟨.zero, 131072000, none, false⟩ })], tenants := [(1, { domain := some 7 })], c := { b.c with time := { state := .locked } } }).wr .baxel 0x404 0x2400), 1, 2, ⟨.zero, 131072000, none, false⟩, by decide +kernel⟩,
    ⟨(((withBx fun b => { b with slots := [(2, { state := .tamped, step := 5, wD := some ⟨.zero, 65536000, none, false⟩, dueD := some ⟨.zero, 131072000, none, false⟩, tmpl := { gate0En := true, gate0Obj := 0, gate0N := 4, gateWait := 9 } })], tenants := [(1, { domain := some 7 })], c := { b.c with time := { state := .locked, raw := 131072000 } }, objs := [(0, { value := 1, waiters := [] })] }).wr .baxel 0x404 0x2400).wr .baxel 0x504 0x1000), 1, 2, ⟨.zero, 131072000, none, false⟩, by decide +kernel⟩,
    ⟨(((withBx fun b => { b with slots := [(2, { state := .waiting, step := 5, wD := some ⟨.zero, 65536000, none, false⟩, dueD := some ⟨.zero, 131072000, none, false⟩, tmpl := { gate0En := true, gate0Obj := 0, gate0N := 4, gateWait := 9 } })], tenants := [(1, { domain := some 7 })], c := { b.c with time := { state := .locked, raw := 131172000 } }, objs := [(0, { value := 6, waiters := [⟨.gate 2, 0, 1, 4, 0, 0⟩] })] }).wr .baxel 0x404 0x2400).wr .baxel 0x504 0x1000), 1, 2, 0, 4, by decide +kernel⟩,
    ⟨(((withBx fun b => { b with slots := [(2, { state := .waiting, step := 5, wD := some ⟨.zero, 65536000, none, false⟩, dueD := some ⟨.zero, 131072000, none, false⟩, tmpl := { gate0En := true, gate0Obj := 0, gate0N := 4, gateWait := 9 } })], tenants := [(1, { domain := some 7 })], c := { b.c with time := { state := .locked, raw := 131172000 } }, objs := [(0, { value := 3, waiters := [⟨.gate 2, 0, 1, 4, 0, 0⟩] })] }).wr .baxel 0x404 0x2400).wr .baxel 0x504 0x1000), 1, 2, by decide +kernel⟩,
    ⟨(((withBx fun b => { b with slots := [(2, { state := .waiting, step := 5, wD := some ⟨.zero, 65536000, none, false⟩, dueD := some ⟨.zero, 131072000, none, false⟩, tmpl := { gate0En := true, gate0Obj := 0, gate0N := 4, gateWait := 9 } })], tenants := [(1, { domain := some 7 })], c := { b.c with time := { state := .locked, raw := 1311720000 } }, objs := [(0, { value := 3, waiters := [⟨.gate 2, 0, 1, 4, 0, 0⟩] })] }).wr .baxel 0x404 0x2400).wr .baxel 0x504 0x1000), 1, 2, ⟨.zero, 131072000, none, false⟩, by decide +kernel⟩,
    ⟨(((withBx fun b => { b with slots := [(2, { state := .waiting, step := 5, wD := some ⟨.zero, 65536000, none, false⟩, dueD := some ⟨.zero, 131072000, none, false⟩, tmpl := { gate0En := true, gate0Obj := 0, gate0N := 4, gateWait := 9 } })], tenants := [(1, { domain := some 7 })], c := { b.c with time := { state := .locked, raw := 131172000 } }, objs := [(0, { value := 3, waiters := [⟨.gate 2, 0, 1, 4, 0, 0⟩] })] }).wr .baxel 0x404 0x2400).wr .baxel 0x504 0x1000), 1, 2, ⟨.zero, 131072000, none, false⟩, by decide +kernel⟩,
    ⟨((withBx fun b => { b with slots := [(2, { state := .bellRun, step := 5, wD := some ⟨.zero, 65536000, none, false⟩, dueD := some ⟨.zero, 131072000, none, false⟩, presented := true, accepted := some 130000000 })], tenants := [(1, { domain := some 7 })], c := { b.c with time := { state := .locked, raw := 131072000 } } }).wr .baxel 0x404 0x2400), 1, 2, ⟨.zero, 131072000, none, false⟩, 130000000, by decide +kernel⟩,
    ⟨((withBx fun b => { b with slots := [(2, { state := .bellRun, step := 5, wD := some ⟨.zero, 65536000, none, false⟩, dueD := some ⟨.zero, 131072000, none, false⟩ })], tenants := [(1, { domain := some 7, faulted := true })], c := { b.c with time := { state := .locked, raw := 131072000 } } }).wr .baxel 0x404 0x2400), 1, 2, ⟨.zero, 131072000, none, false⟩, by decide +kernel⟩⟩

theorem wit_TenantFaultsAndFences :
    (∃ (s : State) (k : Nat) (i : Nat), k < 4 ∧ (s.ten k).faulted = false ∧ (s.ten k).domain = some i) ∧
    (∃ (s : State) (k : Nat) (i : Nat), k < 4 ∧ (s.ten k).faulted = false ∧ i < s.llCount k ∧ ((s.slot k i).state = .armed ∨ (s.slot k i).state = .tamped ∨ (s.slot k i).state = .waiting)) ∧
    (∃ (s : State) (k : Nat), (s.ten k).faulted = true) ∧
    (∃ (s : State) (n : FenceNotice) (k : Nat) (i : Nat), n.clear = false ∧ s.fenceNews n = true ∧ k < 4 ∧ i < s.llCount k ∧ ((s.slot k i).state = .armed ∨ (s.slot k i).state = .tamped ∨ (s.slot k i).state = .waiting ∨ (s.slot k i).state = .bellRun)) ∧
    (∃ (s : State) (n : FenceNotice), (n.clear = true ∨ s.fenceNews n = false)) ∧
    (∃ (s : State) (n : FenceNotice) (k : Nat) (i : Nat), n.clear = true ∧ s.fenceNews n = true ∧ k < 4 ∧ i < s.llCount k ∧ (s.slot k i).state = .void ∧ (s.ten k).faulted = false) ∧
    (∃ (s : State) (n : FenceNotice), (n.clear = false ∨ s.fenceNews n = false)) :=
  ⟨⟨((withBx fun b => { b with slots := [(2, {  })], tenants := [(1, { domain := some 7 })], c := { b.c with time := { state := .locked } } }).wr .baxel 0x404 0x2400), 1, 7, by decide +kernel⟩,
    ⟨((withBx fun b => { b with slots := [(2, { state := .armed, step := 5, wD := some ⟨.zero, 65536000, none, false⟩, dueD := some ⟨.zero, 131072000, none, false⟩ })], tenants := [(1, { domain := some 7 })], c := { b.c with time := { state := .locked } } }).wr .baxel 0x404 0x2400), 1, 2, by decide +kernel⟩,
    ⟨((withBx fun b => { b with slots := [(2, {  })], tenants := [(1, { faulted := true })], c := { b.c with time := { state := .locked } } }).wr .baxel 0x404 0x2400), 1, by decide +kernel⟩,
    ⟨((withBx fun b => { b with slots := [(2, { state := .armed, step := 5, wD := some ⟨.zero, 65536000, none, false⟩, dueD := some ⟨.zero, 131072000, none, false⟩ })], tenants := [(1, { domain := some 7 })], c := { b.c with time := { state := .locked } } }).wr .baxel 0x404 0x2400), ⟨false, 0, 4⟩, 1, 2, by decide +kernel⟩,
    ⟨State.reset, ⟨false, 1, 4⟩, by decide +kernel⟩,
    ⟨((withBx fun b => { b with slots := [(2, { state := .void })], tenants := [(1, { domain := some 7 })], c := { b.c with time := { state := .locked } } }).wr .baxel 0x404 0x2400), ⟨true, 0, 4⟩, 1, 2, by decide +kernel⟩,
    ⟨State.reset, ⟨true, 1, 4⟩, by decide +kernel⟩⟩

theorem wit_PacketsEnteringAPort :
    (∃ (s : State) (p : Part) (n : Nat) (src : PacketSource) (x : Packet) (code : Code), s.enqCode p n x = some code) ∧
    (∃ (s : State) (p : Part) (n : Nat) (src : PacketSource) (x : Packet), s.enqCode p n x = none ∧ s.up p n = true ∧ (s.gated p n).bind (fun g => s.gateCode p n g x) = none) ∧
    (∃ (s : State) (p : Part) (n : Nat) (src : PacketSource) (x : Packet), s.enqCode p n x = none ∧ s.up p n = false) ∧
    (∃ (s : State) (p : Part) (n : Nat), s.up p n = false) ∧
    (∃ (s : State) (p : Part) (n : Nat) (c : Nat) (d : FMap Nat) (q : QEntry) (rest : List QEntry), s.up p n = true ∧ (s.lp p n).busy = none ∧ (s.lp p n).resend = [] ∧ (s.countHolds p n).choose p n = some (c, d) ∧ (s.countHolds p n).queue p n c = q :: rest) ∧
    (∃ (s : State) (p : Part) (n : Nat) (c : Nat), (s.shaper p n c).en = true ∧ 0 ≤ (s.shaper p n c).credit ∧ s.queue p n c ≠ []) ∧
    (∃ (s : State) (p : Part) (n : Nat) (k : Nat) (c : Nat) (d : FMap Nat) (q : QEntry) (rest : List QEntry), (s.shaper p n k).en = true ∧ 0 ≤ (s.shaper p n k).credit ∧ s.queue p n k ≠ [] ∧ s.up p n = true ∧ (s.lp p n).busy = none ∧ (s.lp p n).resend = [] ∧ (s.countHolds p n).choose p n = some (c, d) ∧ (s.countHolds p n).queue p n c = q :: rest) ∧
    (∃ (s : State) (p : Part) (n : Nat) (c : Nat), ((s.shaper p n c).en = false ∨ (s.shaper p n c).credit < 0 ∨ s.queue p n c = [])) :=
  ⟨⟨State.reset, .kresia, 3, .local' none, { kind := 2, tc := 7 }, 0x700B, by decide +kernel⟩,
    ⟨(withKs fun k => { k with c := { k.c with link := { ports := [(3, { step := 5 })] } } }), .kresia, 3, .local' none, { kind := 2, tc := 3, cells := 2 }, by decide +kernel⟩,
    ⟨State.reset, .kresia, 3, .local' none, { kind := 2, tc := 3, cells := 2 }, by decide +kernel⟩,
    ⟨State.reset, .baxel, 3, by decide +kernel⟩,
    ⟨(withKs fun k => { k with c := { k.c with link := { ports := [(3, { step := 5, queues := [(3, [{ pkt := { kind := 2, tc := 3, cells := 2 }, enq := 0 }])], limit := [(3, 100)] })] } } }), .kresia, 3, 3, [(3, 1)], { pkt := { kind := 2, tc := 3, cells := 2 }, enq := 0 }, [], by decide +kernel⟩,
    ⟨(withKs fun k => { k with c := { k.c with link := { ports := [(3, { step := 5, queues := [(3, [{ pkt := { kind := 2, tc := 3, cells := 2 }, enq := 0 }])] })], gates := [(3, { shapers := [(3, { en := true, slope := 1 })] })] } } }), .kresia, 3, 3, by decide +kernel⟩,
    ⟨(withKs fun k => { k with c := { k.c with link := { ports := [(3, { step := 5, queues := [(3, [{ pkt := { kind := 2, tc := 3, cells := 2 }, enq := 0 }])], limit := [(3, 100)] })], gates := [(3, { shapers := [(3, { en := true, slope := 1 })] })] } } }), .kresia, 3, 3, 3, [(3, 1)], { pkt := { kind := 2, tc := 3, cells := 2 }, enq := 0 }, [], by decide +kernel⟩,
    ⟨State.reset, .kresia, 3, 3, by decide +kernel⟩⟩

theorem wit_AcknowledgementAndRetry :
    (∃ (s : State) (p : Part) (n : Nat) (x : RxPacket), s.up p n = false) ∧
    (∃ (s : State) (p : Part) (n : Nat) (x : RxPacket), s.up p n = true ∧ x.corrected = 0 ∧ x.uncorrectable = 0 ∧ x.headCrc = false ∧ x.lseq = (s.lp p n).exp ∧ FMap.getD (s.lp p n).held x.pkt.tc 0 + cost x.pkt ≤ FMap.getD (s.lp p n).floors x.pkt.tc 0 + FMap.getD (s.lp p n).granted x.pkt.tc 0) ∧
    (∃ (s : State) (p : Part) (n : Nat) (x : RxPacket), s.up p n = true ∧ x.corrected = 0 ∧ x.uncorrectable = 0 ∧ x.headCrc = false ∧ x.lseq ≠ (s.lp p n).exp) ∧
    (∃ (s : State) (p : Part) (n : Nat) (x : RxPacket), s.up p n = true ∧ x.corrected = 0 ∧ x.uncorrectable = 0 ∧ x.headCrc = true ∧ (s.lp p n).wait = false ∧ (s.lp p n).nakSent = none ∧ (within (s.raw p) (10 * secGrains) (s.lp p n).uncs).length ≤ s.uncMax p n ∧ (within (s.raw p) 65536000000 (s.lp p n).events).length + 1 < s.retryMax p) ∧
    (∃ (s : State) (p : Part) (n : Nat) (h : LinkHead) (i : Nat), s.up p n = true ∧ (s.lp p n).copies.findIdx (fun c => c.lseq = h.ackSeq) = i ∧ i < (s.lp p n).copies.length) ∧
    (∃ (s : State) (p : Part) (n : Nat) (h : LinkHead), s.up p n = false) ∧
    (∃ (s : State) (p : Part) (n : Nat) (h : LinkHead) (seq : Nat), s.up p n = true ∧ (s.lp p n).copies.any (fun c => c.lseq = h.ackSeq) = false ∧ (s.lp p n).copies.any (fun c => c.lseq = seq) = true ∧ (s.lp p n).nakGot = none) ∧
    (∃ (s : State) (p : Part) (n : Nat) (h : LinkHead) (seq : Nat), s.up p n = true ∧ (s.lp p n).copies.any (fun c => c.lseq = h.ackSeq) = false ∧ (s.lp p n).copies.any (fun c => c.lseq = seq) = false) ∧
    (∃ (s : State) (p : Part) (n : Nat), s.up p n = true ∧ (s.lp p n).wait = true ∧ (s.lp p n).nakSent = none ∧ s.since p (s.lp p n).lastNak (2000 * 65536) = true) ∧
    (∃ (s : State) (p : Part) (n : Nat), (s.up p n = false ∨ (s.lp p n).wait = false ∨ s.since p (s.lp p n).lastNak (2000 * 65536) = false)) ∧
    (∃ (s : State) (p : Part) (n : Nat) (c : TxCopy) (rest : List TxCopy), s.up p n = true ∧ (s.lp p n).copies = c :: rest ∧ (s.lp p n).resend = [] ∧ s.since p (some c.sentAt) (4000 * 65536) = true) ∧
    (∃ (s : State) (p : Part) (n : Nat) (c : TxCopy) (rest : List TxCopy), (s.lp p n).copies = c :: rest ∧ s.since p (some c.sentAt) (4000 * 65536) = false) ∧
    (∃ (s : State) (p : Part) (n : Nat), s.up p n = true ∧ (s.lp p n).owes = true ∧ s.since p (s.lp p n).lastHead (256 * 65536) = true) ∧
    (∃ (s : State) (p : Part) (n : Nat), (s.up p n = false ∨ (s.lp p n).owes = false ∨ s.since p (s.lp p n).lastHead (256 * 65536) = false)) :=
  ⟨⟨State.reset, .baxel, 3, { head := headBytes 1 3 0 2 (msgArea 5 7 2 0) }, by decide +kernel⟩,
    ⟨(withKs fun k => { k with c := { k.c with link := { ports := [(3, { step := 5, floors := [(3, 100)] })] } } }), .kresia, 3, { head := headBytes 1 3 0 2 (msgArea 5 7 2 0) }, by decide +kernel⟩,
    ⟨(withKs fun k => { k with c := { k.c with link := { ports := [(3, { step := 5 })] } } }), .kresia, 3, { head := headBytes 1 3 5 2 (msgArea 5 7 2 0) }, by decide +kernel⟩,
    ⟨(withKs fun k => { k with c := { k.c with link := { ports := [(3, { step := 5 })] } } }), .kresia, 3, { head := List.replicate 32 1 }, by decide +kernel⟩,
    ⟨(withKs fun k => { k with c := { k.c with link := { ports := [(3, { step := 5, copies := [⟨4, { pkt := { kind := 2, tc := 3, cells := 2 }, enq := 0 }, 0, 0, none⟩] })] } } }), .kresia, 3, { ackSeq := 4 }, 0, by decide +kernel⟩,
    ⟨State.reset, .baxel, 3, { ackSeq := 4 }, by decide +kernel⟩,
    ⟨(withKs fun k => { k with c := { k.c with link := { ports := [(3, { step := 5, copies := [⟨4, { pkt := { kind := 2, tc := 3, cells := 2 }, enq := 0 }, 0, 0, none⟩] })] } } }), .kresia, 3, { ackSeq := 3 }, 4, by decide +kernel⟩,
    ⟨(withKs fun k => { k with c := { k.c with link := { ports := [(3, { step := 5, copies := [⟨4, { pkt := { kind := 2, tc := 3, cells := 2 }, enq := 0 }, 0, 0, none⟩] })] } } }), .kresia, 3, { ackSeq := 3 }, 5, by decide +kernel⟩,
    ⟨(withKs fun k => { k with c := { k.c with link := { ports := [(3, { step := 5, wait := true })] } } }), .kresia, 3, by decide +kernel⟩,
    ⟨State.reset, .kresia, 3, by decide +kernel⟩,
    ⟨(withKs fun k => { k with c := { k.c with link := { ports := [(3, { step := 5, copies := [⟨4, { pkt := { kind := 2, tc := 3, cells := 2 }, enq := 0 }, 0, 0, none⟩] })] }, time := { raw := 262144000 } } }), .kresia, 3, ⟨4, { pkt := { kind := 2, tc := 3, cells := 2 }, enq := 0 }, 0, 0, none⟩, [], by decide +kernel⟩,
    ⟨(withKs fun k => { k with c := { k.c with link := { ports := [(3, { step := 5, copies := [⟨4, { pkt := { kind := 2, tc := 3, cells := 2 }, enq := 0 }, 0, 0, none⟩] })] } } }), .kresia, 3, ⟨4, { pkt := { kind := 2, tc := 3, cells := 2 }, enq := 0 }, 0, 0, none⟩, [], by decide +kernel⟩,
    ⟨(withKs fun k => { k with c := { k.c with link := { ports := [(3, { step := 5, owes := true })] } } }), .kresia, 3, by decide +kernel⟩,
    ⟨State.reset, .kresia, 3, by decide +kernel⟩⟩

theorem wit_PlanesLedgersAndCredits :
    (∃ (s : State) (n : PlaneNotice), s.ks.lostPlanes.contains (n.member, n.plane) = false) ∧
    (∃ (s : State) (n : PlaneNotice), s.ks.lostPlanes.contains (n.member, n.plane) = true) ∧
    (∃ (s : State) (n : PlaneNotice), s.ks.lostPlanes.contains (n.member, n.plane) = true) ∧
    (∃ (s : State) (n : PlaneNotice), s.ks.lostPlanes.contains (n.member, n.plane) = false) ∧
    (∃ (s : State) (cls : Nat) (w : Word), cls < 7 ∧ w.get 0 16 ≤ w.get 16 16 ∧ w.get 16 16 ≤ 32767 ∧ (((List.range 7).map fun c => if c = cls then w.get 0 16 else s.floorOf .kresia c).foldl (· + ·) 0 * (if s.isSpine then 128 else 192) ≤ 786432)) ∧
    (∃ (s : State) (cls : Nat) (w : Word), cls < 7 ∧ (w.get 16 16 < w.get 0 16 ∨ 32767 < w.get 16 16 ∨ 786432 < ((List.range 7).map fun c => if c = cls then w.get 0 16 else s.floorOf .kresia c).foldl (· + ·) 0 * (if s.isSpine then 128 else 192))) :=
  ⟨⟨State.reset, ⟨4, 1⟩, by decide +kernel⟩,
    ⟨withKs fun k => { k with lostPlanes := [(4, 1)] }, ⟨4, 1⟩, by decide +kernel⟩,
    ⟨withKs fun k => { k with lostPlanes := [(4, 1)] }, ⟨4, 1⟩, by decide +kernel⟩,
    ⟨State.reset, ⟨4, 1⟩, by decide +kernel⟩,
    ⟨State.reset, 2, 0x04000080, by decide +kernel⟩,
    ⟨State.reset, 2, 0x00400080, by decide +kernel⟩⟩

theorem wit_PortsComeUpAndGo :
    (∃ (s : State) (p : Part) (n : Nat), n < portCount p ∧ ((s.lp p n).step = 0 ∨ (s.lp p n).step = 6) ∧ s.mayBringUp p n = true) ∧
    (∃ (s : State) (p : Part) (n : Nat), (portCount p ≤ n ∨ ((s.lp p n).step ≠ 0 ∧ (s.lp p n).step ≠ 6) ∨ s.mayBringUp p n = false)) ∧
    (∃ (s : State) (p : Part) (n : Nat) (a : Nat) (k : Int), (s.lp p n).step = 1) ∧
    (∃ (s : State) (p : Part) (n : Nat) (a : Nat) (k : Int), (s.lp p n).step ≠ 1) ∧
    (∃ (s : State) (p : Part) (n : Nat), (s.lp p n).step = 3 ∧ s.since p (s.lp p n).lastCaps (10000 * 65536) = true) ∧
    (∃ (s : State) (p : Part) (n : Nat) (c : Caps), ((s.lp p n).step = 3 ∨ (s.lp p n).step = 5)) ∧
    (∃ (s : State) (p : Part) (n : Nat) (c : Caps), (s.lp p n).step ≠ 3 ∧ (s.lp p n).step ≠ 5) ∧
    (∃ (s : State) (p : Part) (n : Nat) (c : Caps) (tx : EdgeStamp) (rx : EdgeStamp), (s.lp p n).step = 3 ∧ s.capsCode p n c = none ∧ (p = .kresia ∨ s.planeClash n c = none)) ∧
    (∃ (s : State) (p : Part) (n : Nat) (c : Caps) (tx : EdgeStamp) (rx : EdgeStamp) (code : Code), (s.lp p n).step = 3 ∧ s.capsCode p n c = some code) ∧
    (∃ (s : State) (p : Part) (n : Nat), 1 ≤ (s.lp p n).step ∧ (s.lp p n).step ≤ 4 ∧ s.since p (s.lp p n).upStart (50 * 65536000000) = true ∧ (s.lp p n).fails < 2) ∧
    (∃ (s : State) (p : Part) (n : Nat), 1 ≤ (s.lp p n).step ∧ (s.lp p n).step ≤ 4 ∧ s.since p (s.lp p n).upStart (50 * 65536000000) = true ∧ 2 ≤ (s.lp p n).fails) ∧
    (∃ (s : State) (p : Part) (n : Nat), s.up p n = true) ∧
    (∃ (s : State) (p : Part) (n : Nat), s.up p n = true ∧ s.canTell p = true) ∧
    (∃ (s : State) (p : Part) (n : Nat), s.up p n = false) ∧
    (∃ (s : State) (p : Part) (n : Nat), (s.lp p n).step ≠ 3) ∧
    (∃ (s : State) (p : Part) (n : Nat), ((s.lp p n).step = 0 ∨ 5 ≤ (s.lp p n).step ∨ s.since p (s.lp p n).upStart (50 * 65536000000) = false)) :=
  ⟨⟨withKs fun k => { k with c := { k.c with fw := { serving := true } } }, .kresia, 3, by decide +kernel⟩,
    ⟨State.reset, .kresia, 3, by decide +kernel⟩,
    ⟨(withKs fun k => { k with c := { k.c with link := { ports := [(3, { step := 1 })] } } }), .kresia, 3, 7, -5, by decide +kernel⟩,
    ⟨State.reset, .kresia, 3, 7, 0, by decide +kernel⟩,
    ⟨(withKs fun k => { k with c := { k.c with link := { ports := [(3, { step := 3 })] } } }), .kresia, 3, by decide +kernel⟩,
    ⟨(withKs fun k => { k with c := { k.c with link := { ports := [(3, { step := 3 })] } } }), .kresia, 3, { role := 1, node := 0 }, by decide +kernel⟩,
    ⟨State.reset, .kresia, 3, { role := 1, node := 0 }, by decide +kernel⟩,
    ⟨(withKs fun k => { k with c := { k.c with link := { ports := [(3, { step := 3 })] } } }), .kresia, 3, { role := 0, node := 5, version := (3, 2, 0) }, ⟨0, 0⟩, ⟨0, 0⟩, by decide +kernel⟩,
    ⟨(withKs fun k => { k with c := { k.c with link := { ports := [(3, { step := 3 })] } } }), .kresia, 3, { role := 0, node := 5 }, ⟨0, 0⟩, ⟨0, 0⟩, 0xB001, by decide +kernel⟩,
    ⟨(withKs fun k => { k with c := { k.c with link := { ports := [(3, { step := 3 })] } } }), .kresia, 3, by decide +kernel⟩,
    ⟨(withKs fun k => { k with c := { k.c with link := { ports := [(3, { step := 3, fails := 2 })] } } }), .kresia, 3, by decide +kernel⟩,
    ⟨(withKs fun k => { k with c := { k.c with link := { ports := [(3, { step := 5 })] } } }), .kresia, 3, by decide +kernel⟩,
    ⟨(withKs fun k => { k with c := { k.c with link := { ports := [(3, { step := 5 })] } } }), .kresia, 3, by decide +kernel⟩,
    ⟨State.reset, .kresia, 3, by decide +kernel⟩,
    ⟨State.reset, .kresia, 3, by decide +kernel⟩,
    ⟨State.reset, .kresia, 3, by decide +kernel⟩⟩

theorem wit_GateListsSwapAndMove :
    (∃ (s : State) (p : Part) (n : Nat) (code : Code), s.gateCommitCode p n = some code) ∧
    (∃ (s : State) (p : Part) (n : Nat), s.gateCommitCode p n = none) ∧
    (∃ (s : State) (p : Part) (n : Nat), (s.gp p n).pending = none) ∧
    (∃ (s : State) (p : Part) (n : Nat) (x : GateList × Due), (s.gp p n).pending = some x) ∧
    (∃ (s : State) (p : Part) (n : Nat) (x : GateList) (d : Due), (s.gp p n).pending = some (x, d) ∧ 0 ≤ Raw.diff (s.raw p) (closeEdge d) ∧ 0 ≤ Raw.diff (s.raw p) (openEdge d)) ∧
    (∃ (s : State) (p : Part) (n : Nat) (x : GateList) (d : Due), (s.gp p n).pending = some (x, d) ∧ 0 ≤ Raw.diff (s.raw p) (closeEdge d) ∧ Raw.diff (s.raw p) (openEdge d) < 0) ∧
    (∃ (s : State) (p : Part) (n : Nat) (x : GateList) (d : Due), (s.gp p n).pending = some (x, d) ∧ Raw.diff (s.raw p) (closeEdge d) < 0) ∧
    (∃ (s : State) (p : Part) (n : Nat) (x : GateList) (d : Due) (i : Nat) (m : Nat) (len : Nat), (s.gp p n).active = some x ∧ (s.gp p n).next = some d ∧ (s.pc p).time.state ≠ .unset ∧ 0 ≤ Raw.diff (s.raw p) (openEdge d) ∧ 0 ≤ Raw.diff (s.raw p) (closeEdge d) ∧ (i = (if (s.gp p n).entry + 1 < x.entries.length then (s.gp p n).entry + 1 else 0)) ∧ x.entries[i]? = some (m, len)) ∧
    (∃ (s : State) (p : Part) (n : Nat) (d : Due), (s.gp p n).next = some d ∧ Raw.diff (s.raw p) (closeEdge d) < 0) :=
  ⟨⟨State.reset, .baxel, 3, 0x8001, by decide +kernel⟩,
    ⟨(((withBx fun b => { b with c := { b.c with time := { state := .locked }, link := { gates := [(3, { pend := [(0, (7, 1000))] })] } } }).wr .baxel 0xCE4 1).wr .baxel 0xD00 0xFFFF0000).wr .baxel 0xD04 0xF, .baxel, 3, by decide +kernel⟩,
    ⟨State.reset, .baxel, 3, by decide +kernel⟩,
    ⟨withBx fun b => { b with c := { b.c with link := { gates := [(3, { pending := some ({}, ⟨.zero, 0, none, false⟩) })] } } }, .baxel, 3, ({}, ⟨.zero, 0, none, false⟩), by decide +kernel⟩,
    ⟨withBx fun b => { b with c := { b.c with link := { gates := [(3, { pending := some ({}, ⟨.zero, 0, none, false⟩) })] } } }, .baxel, 3, {}, ⟨.zero, 0, none, false⟩, by decide +kernel⟩,
    ⟨withBx fun b => { b with c := { b.c with time := { raw := 65536 }, link := { gates := [(3, { pending := some ({}, ⟨.zero, 65537, none, false⟩) })] } } }, .baxel, 3, {}, ⟨.zero, 65537, none, false⟩, by decide +kernel⟩,
    ⟨withBx fun b => { b with c := { b.c with link := { gates := [(3, { pending := some ({}, ⟨.zero, 65536, none, false⟩) })] } } }, .baxel, 3, {}, ⟨.zero, 65536, none, false⟩, by decide +kernel⟩,
    ⟨withBx fun b => { b with c := { b.c with time := { state := .locked }, link := { gates := [(3, { active := some { entries := [(7, 1000)] }, next := some ⟨.zero, 0, none, false⟩ })] } } }, .baxel, 3, { entries := [(7, 1000)] }, ⟨.zero, 0, none, false⟩, 0, 7, 1000, by decide +kernel⟩,
    ⟨withBx fun b => { b with c := { b.c with link := { gates := [(3, { next := some ⟨.zero, 65536, none, false⟩ })] } } }, .baxel, 3, ⟨.zero, 65536, none, false⟩, by decide +kernel⟩⟩

theorem wit_ShapersAndQueueSamples :
    (∃ (s : State) (p : Part) (n : Nat) (w : Word) (c : Nat), w.get 0 3 = c ∧ c ≠ 0 ∧ c ≠ 7 ∧ 1 ≤ w.get 4 20 ∧ (w.get 4 20 ≤ (if s.isQuad p n then 800000 else 400000))) ∧
    (∃ (s : State) (p : Part) (n : Nat) (w : Word) (c : Nat), w.get 0 3 = c ∧ c ≠ 0 ∧ c ≠ 7 ∧ (w.get 4 20 = 0 ∨ (if s.isQuad p n then 800000 else 400000) < w.get 4 20)) ∧
    (∃ (s : State) (p : Part) (n : Nat) (w : Word) (c : Nat), s.fld p (gtBlock p n 0x50) 0 3 = c ∧ c ≠ 0 ∧ c ≠ 7 ∧ w.toNat < 2 ^ 24) ∧
    (∃ (s : State) (p : Part) (n : Nat) (w : Word), (w.get 0 9 < 256 ∨ 448 ≤ w.get 0 9)) ∧
    (∃ (s : State) (p : Part) (n : Nat) (w : Word), 256 ≤ w.get 0 9 ∧ w.get 0 9 < 448) ∧
    (∃ (s : State) (p : Part) (n : Nat) (count : Bool) (w : Word), ((if count then 1 else 1000) ≤ w.toNat) ∧ (w.toNat ≤ (if count then 65536 else 1000000000))) ∧
    (∃ (s : State) (p : Part) (n : Nat) (count : Bool) (w : Word), (w.toNat < (if count then 1 else 1000) ∨ (if count then 65536 else 1000000000) < w.toNat)) ∧
    (∃ (s : State) (p : Part) (n : Nat), s.since p (s.gp p n).sampleAt ((s.rd p (gtBlock p n 0x70)).toNat * 65536) = true ∧ (s.gp p n).samples + 1 < (s.rd p (gtBlock p n 0x74)).toNat) ∧
    (∃ (s : State) (p : Part) (n : Nat), s.since p (s.gp p n).sampleAt ((s.rd p (gtBlock p n 0x70)).toNat * 65536) = true ∧ (s.rd p (gtBlock p n 0x74)).toNat ≤ (s.gp p n).samples + 1) ∧
    (∃ (s : State) (p : Part) (n : Nat), s.since p (s.gp p n).sampleAt ((s.rd p (gtBlock p n 0x70)).toNat * 65536) = false) ∧
    (∃ (s : State) (p : Part) (n : Nat) (c : Nat), s.fld p (gtBlock p n 0x50) 0 3 = c) ∧
    (∃ (s : State) (p : Part) (n : Nat) (c : Nat) (seq : Word), s.fld p (gtBlock p n 0x50) 0 3 = c ∧ seq ≠ (FMap.getD (s.gp p n).results c {}).seq) :=
  ⟨⟨State.reset, .baxel, 3, 0x1A, 2, by decide +kernel⟩,
    ⟨State.reset, .baxel, 3, 2, 2, by decide +kernel⟩,
    ⟨State.reset.wr .baxel 0xD30 2, .baxel, 3, 2, 2, by decide +kernel⟩,
    ⟨State.reset, .baxel, 3, 2, by decide +kernel⟩,
    ⟨State.reset, .baxel, 3, 256, by decide +kernel⟩,
    ⟨State.reset, .baxel, 3, true, 5, by decide +kernel⟩,
    ⟨State.reset, .baxel, 3, true, 0, by decide +kernel⟩,
    ⟨State.reset, .baxel, 3, by decide +kernel⟩,
    ⟨State.reset.wr .baxel 0xD54 1, .baxel, 3, by decide +kernel⟩,
    ⟨withBx fun b => { b with c := { b.c with link := { gates := [(3, { sampleAt := some 0 })] } } }, .baxel, 3, by decide +kernel⟩,
    ⟨State.reset, .baxel, 3, 0, by decide +kernel⟩,
    ⟨State.reset, .baxel, 3, 0, 5, by decide +kernel⟩⟩

theorem wit_CountRecordsAtALeaf :
    (∃ (s : State) (m : Ctl), ((∀ q ∈ (s.dom m.domain).positions, q.e.member = m.member → q.e.v2 = false) ∨ (m.kind ≠ .ack ∧ m.kind ≠ .orphan ∧ m.kind ≠ .gateMiss))) ∧
    (∃ (s : State) (port : Nat) (m0 : Ctl) (m : Ctl), m = s.fullSeq m0 ∧ s.isFenced m.member = true) ∧
    (∃ (s : State) (port : Nat) (m0 : Ctl) (m : Ctl), m = s.fullSeq m0 ∧ s.isFenced m.member = false ∧ (m.status ≠ 0 ∨ (m.kind ≠ .arrive ∧ m.kind ≠ .ack))) ∧
    (∃ (s : State) (port : Nat) (m0 : Ctl) (m : Ctl), m = s.fullSeq m0 ∧ s.isFenced m.member = false ∧ (m.kind = .arrive ∨ m.kind = .ack) ∧ m.status = 0 ∧ port < 128 ∧ s.recordFull (((s.ks.leafRecs.find? fun x => x.isFor m).getD { kind := m.kind, domain := m.domain, epoch := m.epoch, seq := m.seq, step := m.step, slot := m.slot, first := s.raw .kresia }).join port) = false) ∧
    (∃ (s : State) (port : Nat) (m0 : Ctl) (m : Ctl), m = s.fullSeq m0 ∧ s.isFenced m.member = false ∧ (m.kind = .arrive ∨ m.kind = .ack) ∧ m.status = 0 ∧ port < 128 ∧ s.recordFull (((s.ks.leafRecs.find? fun x => x.isFor m).getD { kind := m.kind, domain := m.domain, epoch := m.epoch, seq := m.seq, step := m.step, slot := m.slot, first := s.raw .kresia }).join port) = true) ∧
    (∃ (s : State) (kind : CtlType) (d : Nat) (x : LeafRecord), (s.ks.leafRecs.find? fun x => x.kind = kind && x.domain = d && 200 * 65536 ≤ Raw.diff (s.raw .kresia) x.first) = some x) ∧
    (∃ (s : State) (kind : CtlType) (d : Nat), (s.ks.leafRecs.find? fun x => x.kind = kind && x.domain = d && 200 * 65536 ≤ Raw.diff (s.raw .kresia) x.first) = none) :=
  ⟨⟨State.reset, ({ kind := .arrive, domain := 2, epoch := 0 } : Ctl), by decide +kernel⟩,
    ⟨withKs fun k => { k with fences := [(7, (1, true))] }, 3, ({ kind := .arrive, domain := 2, member := 7 } : Ctl), ({ kind := .arrive, domain := 2, member := 7 } : Ctl), by decide +kernel⟩,
    ⟨State.reset, 3, ({ kind := .arrive, domain := 2, status := 5 } : Ctl), ({ kind := .arrive, domain := 2, status := 5 } : Ctl), by decide +kernel⟩,
    ⟨State.reset, 3, ({ kind := .arrive, domain := 2, epoch := 0 } : Ctl), ({ kind := .arrive, domain := 2, epoch := 0 } : Ctl), by decide +kernel⟩,
    ⟨withKs fun k => { k with doms := [(2, { positions := [{ e := { member := 1, group := 0, port := 3 } }] })] }, 3, ({ kind := .arrive, domain := 2, epoch := 0 } : Ctl), ({ kind := .arrive, domain := 2, epoch := 0 } : Ctl), by decide +kernel⟩,
    ⟨withKs fun k => { k with c := { k.c with time := { raw := 13107200 } }, leafRecs := [{ kind := .arrive, domain := 2, epoch := 0, seq := 0, step := 0, slot := 0, first := 0 }] }, .arrive, 2, { kind := .arrive, domain := 2, epoch := 0, seq := 0, step := 0, slot := 0, first := 0 }, by decide +kernel⟩,
    ⟨State.reset, .arrive, 2, by decide +kernel⟩⟩

theorem wit_ArrivalsCompleteABarrier :
    (∃ (s : State) (src : Nat) (m : Ctl), (s.dom m.domain).isCrown = false ∧ (s.dom m.domain).isDeputy = false) ∧
    (∃ (s : State) (src : Nat) (m : Ctl), ((s.dom m.domain).isCrown = true ∨ (s.dom m.domain).isDeputy = true) ∧ m.epoch ≠ (s.dom m.domain).epoch) ∧
    (∃ (s : State) (src : Nat) (m : Ctl), ((s.dom m.domain).isCrown = true ∨ (s.dom m.domain).isDeputy = true) ∧ m.epoch = (s.dom m.domain).epoch ∧ (m.step ≠ (if (s.dom m.domain).phase = .gather ∨ (s.dom m.domain).phase = .held then (s.dom m.domain).step else (s.dom m.domain).step + 1))) ∧
    (∃ (s : State) (src : Nat) (m : Ctl), (s.dom m.domain).isCrown = true ∧ (s.dom m.domain).isDeputy = false ∧ m.epoch = (s.dom m.domain).epoch ∧ (m.step = (if (s.dom m.domain).phase = .gather ∨ (s.dom m.domain).phase = .held then (s.dom m.domain).step else (s.dom m.domain).step + 1)) ∧ (((s.dom m.domain).named src m).filter fun i => !(s.dom m.domain).arrivals.contains i) ≠ [] ∧ ((s.modDom m.domain fun y => { y with arrivals := y.arrivals ++ (((s.dom m.domain).named src m).filter fun i => !(s.dom m.domain).arrivals.contains i), lastBy := ((s.dom m.domain).named src m).getLast?, firstAt := if y.arrivals.isEmpty then some (s.raw .kresia) else y.firstAt }).barrierReady m.domain = false)) ∧
    (∃ (s : State) (src : Nat) (m : Ctl), (s.dom m.domain).isCrown = true ∧ (s.dom m.domain).isDeputy = false ∧ m.epoch = (s.dom m.domain).epoch ∧ (m.step = (if (s.dom m.domain).phase = .gather ∨ (s.dom m.domain).phase = .held then (s.dom m.domain).step else (s.dom m.domain).step + 1)) ∧ (((s.dom m.domain).named src m).filter fun i => !(s.dom m.domain).arrivals.contains i) ≠ [] ∧ ((s.modDom m.domain fun y => { y with arrivals := y.arrivals ++ (((s.dom m.domain).named src m).filter fun i => !(s.dom m.domain).arrivals.contains i), lastBy := ((s.dom m.domain).named src m).getLast?, firstAt := if y.arrivals.isEmpty then some (s.raw .kresia) else y.firstAt }).barrierReady m.domain = true)) ∧
    (∃ (s : State) (src : Nat) (m : Ctl), ((s.dom m.domain).isCrown = true ∨ (s.dom m.domain).isDeputy = true) ∧ m.epoch = (s.dom m.domain).epoch ∧ (m.step = (if (s.dom m.domain).phase = .gather ∨ (s.dom m.domain).phase = .held then (s.dom m.domain).step else (s.dom m.domain).step + 1)) ∧ (((s.dom m.domain).named src m).filter fun i => !(s.dom m.domain).arrivals.contains i) = []) ∧
    (∃ (s : State) (src : Nat) (m : Ctl), (s.dom m.domain).isCrown = false ∧ (s.dom m.domain).isDeputy = true ∧ (s.dom m.domain).phase = .gather ∧ m.epoch = (s.dom m.domain).epoch ∧ m.step = (s.dom m.domain).step ∧ (((s.dom m.domain).named src m).filter fun i => !(s.dom m.domain).arrivals.contains i) ≠ [] ∧ (∀ i < (s.dom m.domain).positions.length, i ∈ (s.dom m.domain).arrivals ∨ i ∈ (s.dom m.domain).named src m)) ∧
    (∃ (s : State) (src : Nat) (m : Ctl), (s.dom m.domain).isCrown = false ∧ (s.dom m.domain).isDeputy = true ∧ m.epoch = (s.dom m.domain).epoch ∧ (m.step = (if (s.dom m.domain).phase = .gather ∨ (s.dom m.domain).phase = .held then (s.dom m.domain).step else (s.dom m.domain).step + 1)) ∧ (((s.dom m.domain).named src m).filter fun i => !(s.dom m.domain).arrivals.contains i) ≠ [] ∧ (∃ i < (s.dom m.domain).positions.length, i ∉ (s.dom m.domain).arrivals ∧ i ∉ (s.dom m.domain).named src m)) ∧
    (∃ (s : State) (d : Nat) (g : Image), (s.dom d).phase = .gather ∧ (s.dom d).unloading = none ∧ (s.dom d).next = none ∧ (s.dom d).prog = some g ∧ (launches g) = []) ∧
    (∃ (s : State) (d : Nat) (i : Nat) (g : Image), (s.dom d).phase = .gather ∧ (s.dom d).unloading = none ∧ (s.dom d).next = none ∧ (s.dom d).prog = some g ∧ launches g = [i] ∧ slotBell g (entRef g i) = false ∧ entDoneObj g 0 = 0xFFFF ∧ s.armedUsed < 1024) :=
  ⟨⟨State.reset, 3, ({ kind := .arrive, domain := 2, epoch := 0 } : Ctl), by decide +kernel⟩,
    ⟨withKs fun k => { k with doms := [(2, { isCrown := true })] }, 3, ({ kind := .arrive, domain := 2, epoch := 1 } : Ctl), by decide +kernel⟩,
    ⟨withKs fun k => { k with doms := [(2, { isCrown := true })] }, 3, ({ kind := .arrive, domain := 2, step := 5 } : Ctl), by decide +kernel⟩,
    ⟨withKs fun k => { k with doms := [(2, { isCrown := true, phase := .gather, positions := [{ e := ⟨1, 0, 3, 0, false⟩ }] })] }, 3, ({ kind := .arrive, domain := 2, member := 1 } : Ctl), by decide +kernel⟩,
    ⟨withKs fun k => { k with doms := [(2, { isCrown := true, phase := .gather, prog := some [], positions := [{ e := ⟨1, 0, 3, 0, false⟩ }] })] }, 3, ({ kind := .arrive, domain := 2, member := 1 } : Ctl), by decide +kernel⟩,
    ⟨withKs fun k => { k with doms := [(2, { isCrown := true, phase := .gather, positions := [{ e := ⟨1, 0, 3, 0, false⟩ }] })] }, 3, ({ kind := .arrive, domain := 2, member := 2 } : Ctl), by decide +kernel⟩,
    ⟨withKs fun k => { k with doms := [(2, { isDeputy := true, phase := .gather, positions := [{ e := ⟨1, 0, 3, 0, false⟩ }] })] }, 3, ({ kind := .arrive, domain := 2, member := 1 } : Ctl), by decide +kernel⟩,
    ⟨withKs fun k => { k with doms := [(2, { isDeputy := true, phase := .gather, positions := [{ e := ⟨1, 0, 3, 0, false⟩ }, { e := ⟨2, 0, 4, 0, false⟩ }] })] }, 3, ({ kind := .arrive, domain := 2, member := 1 } : Ctl), by decide +kernel⟩,
    ⟨withKs fun k => { k with doms := [(2, { isCrown := true, phase := .gather, prog := some [], positions := [{ e := ⟨1, 0, 3, 0, false⟩ }] })] }, 2, [], by decide +kernel⟩,
    ⟨withKs fun k => { k with doms := [(2, { isCrown := true, phase := .gather, prog := some (imgOf 400 [(30, 1), (50, 1), (256, 1), (260, 64), (261, 1), (268, 1), (320, 2), (328, 255), (329, 255)]), positions := [{ e := ⟨1, 0, 3, 0, false⟩ }] })] }, 2, 0, (imgOf 400 [(30, 1), (50, 1), (256, 1), (260, 64), (261, 1), (268, 1), (320, 2), (328, 255), (329, 255)]), by decide +kernel⟩⟩

theorem wit_AcknowledgementsAndVoids_1 :
    (∃ (s : State) (src : Nat) (m : Ctl), (s.dom m.domain).isCrown = false) ∧
    (∃ (s : State) (src : Nat) (m : Ctl), (s.dom m.domain).isDeputy = true ∧ m.epoch = (s.dom m.domain).epoch ∧ ((s.dom m.domain).heldAcks.find? fun a => a.seq = m.seq) = none ∧ (s.dom m.domain).named src m ≠ []) ∧
    (∃ (s : State) (src : Nat) (m : Ctl) (a : HeldAck), (s.dom m.domain).isDeputy = true ∧ m.epoch = (s.dom m.domain).epoch ∧ ((s.dom m.domain).heldAcks.find? fun a => a.seq = m.seq) = some a ∧ (∀ i ∈ (s.dom m.domain).named src m, ∃ c, (i, c) ∈ a.acks)) ∧
    (∃ (s : State) (src : Nat) (m : Ctl), ((s.dom m.domain).isCrown = true ∨ (s.dom m.domain).isDeputy = true) ∧ m.epoch ≠ (s.dom m.domain).epoch) ∧
    (∃ (s : State) (src : Nat) (m : Ctl) (g : Image) (r : ArmRec), (s.dom m.domain).isCrown = true ∧ (s.dom m.domain).isDeputy = false ∧ m.epoch = (s.dom m.domain).epoch ∧ (s.dom m.domain).prog = some g ∧ ((s.dom m.domain).recs.find? fun r => r.seq = m.seq && !r.tamped) = some r ∧ m.status ≠ 0) ∧
    (∃ (s : State) (src : Nat) (m : Ctl) (g : Image) (r : ArmRec), (s.dom m.domain).isCrown = true ∧ (s.dom m.domain).isDeputy = false ∧ m.epoch = (s.dom m.domain).epoch ∧ (s.dom m.domain).prog = some g ∧ ((s.dom m.domain).recs.find? fun r => r.seq = m.seq && !r.tamped) = some r ∧ m.status = 0 ∧ (∃ i < (s.dom m.domain).positions.length, i ∉ r.acks ∧ i ∉ (s.dom m.domain).named src m)) ∧
    (∃ (s : State) (src : Nat) (m : Ctl), (s.dom m.domain).isCrown = true ∧ m.fromKresia = false ∧ s.isFenced m.member = true) ∧
    (∃ (s : State) (src : Nat) (m : Ctl), (s.dom m.domain).isCrown = true ∧ (m.fromKresia = true ∨ s.isFenced m.member = false) ∧ m.epoch ≠ (s.dom m.domain).epoch) ∧
    (∃ (s : State) (src : Nat) (m : Ctl), (s.dom m.domain).isCrown = true ∧ (m.fromKresia = true ∨ s.isFenced m.member = false) ∧ m.epoch = (s.dom m.domain).epoch ∧ ((s.dom m.domain).phase = .held ∨ m.step < (s.dom m.domain).step)) ∧
    (∃ (s : State) (src : Nat) (m : Ctl), (s.dom m.domain).isCrown = true ∧ (m.fromKresia = true ∨ s.isFenced m.member = false) ∧ m.epoch = (s.dom m.domain).epoch ∧ (m.fromKresia = false ∨ m.status ≠ 0x5002) ∧ (s.dom m.domain).phase ≠ .held ∧ (s.dom m.domain).step ≤ m.step) ∧
    (∃ (s : State) (src : Nat) (m : Ctl), (s.dom m.domain).isCrown = true ∧ m.fromKresia = true ∧ m.epoch = (s.dom m.domain).epoch ∧ m.status = 0x5002 ∧ (s.dom m.domain).phase ≠ .held ∧ (s.dom m.domain).step ≤ m.step) ∧
    (∃ (s : State) (d : Nat) (r : ArmRec), (s.dom d).isCrown = true ∧ ((s.dom d).recs.find? fun r => !r.tamped && otDiff r.adl (s.otNow .kresia) ≤ 0) = some r) ∧
    (∃ (s : State) (d : Nat) (i : Nat) (r : ArmRec) (g : Image), (s.dom d).isCrown = true ∧ ((s.dom d).recs.find? fun r => !r.tamped && otDiff r.adl (s.otNow .kresia) ≤ 0) = some r ∧ i < (s.dom d).positions.length ∧ i ∉ r.acks ∧ (s.dom d).phase = .arm ∧ (s.dom d).epoch ≠ 0xFFFFFFFF ∧ (s.dom d).unloading = none ∧ (s.dom d).freeing = false ∧ (s.dom d).prog = some g ∧ (∀ q ∈ (s.dom d).recs, entDoneObj g q.entry = 0xFFFF) ∧ s.canTell .kresia = true) ∧
    (∃ (s : State) (d : Nat), (s.dom d).isCrown = true ∧ ((s.dom d).recs.find? fun r => !r.tamped && otDiff r.adl (s.otNow .kresia) ≤ 0) = none) ∧
    (∃ (s : State) (d : Nat) (g : Image) (i : Nat) (rest : List Nat), (s.dom d).prog = some g ∧ (s.dom d).toArm = i :: rest ∧ s.armedUsed < 1024) ∧
    (∃ (s : State) (d : Nat), (((s.dom d).toArm = [] ∧ (s.dom d).changeWait = none) ∨ (s.dom d).prog = none ∨ 1024 ≤ s.armedUsed)) :=
  ⟨⟨State.reset, 3, ({ kind := .arrive, domain := 2, epoch := 0 } : Ctl), by decide +kernel⟩,
    ⟨withKs fun k => { k with doms := [(2, { isDeputy := true, phase := .gather, positions := [{ e := ⟨1, 0, 3, 0, false⟩ }] })] }, 3, ({ kind := .arrive, domain := 2, member := 1 } : Ctl), by decide +kernel⟩,
    ⟨withKs fun k => { k with doms := [(2, { isDeputy := true, phase := .gather, heldAcks := [{ seq := 9, step := 0, slot := 0, acks := [(0, 0)] }], positions := [] })] }, 3, ({ kind := .arrive, domain := 2, seq := 9, member := 1 } : Ctl), { seq := 9, step := 0, slot := 0, acks := [(0, 0)] }, by decide +kernel⟩,
    ⟨withKs fun k => { k with doms := [(2, { isCrown := true })] }, 3, ({ kind := .arrive, domain := 2, epoch := 1 } : Ctl), by decide +kernel⟩,
    ⟨withKs fun k => { k with doms := [(2, { isCrown := true, prog := some [], recs := [{ step := 4, entry := 0, slot := 0, seq := 9, due := .zero, adl := .zero }] })] }, 3, ({ kind := .arrive, domain := 2, seq := 9, status := 5 } : Ctl), [], { step := 4, entry := 0, slot := 0, seq := 9, due := .zero, adl := .zero }, by decide +kernel⟩,
    ⟨withKs fun k => { k with doms := [(2, { isCrown := true, prog := some [], positions := [{ e := ⟨1, 0, 3, 0, false⟩ }, { e := ⟨2, 0, 3, 0, false⟩ }], recs := [{ step := 4, entry := 0, slot := 0, seq := 9, due := .zero, adl := .zero }] })] }, 3, ({ kind := .arrive, domain := 2, seq := 9, member := 1 } : Ctl), [], { step := 4, entry := 0, slot := 0, seq := 9, due := .zero, adl := .zero }, by decide +kernel⟩,
    ⟨withKs fun k => { k with fences := [(7, (1, true))], doms := [(2, { isCrown := true })] }, 3, ({ kind := .arrive, domain := 2, member := 7 } : Ctl), by decide +kernel⟩,
    ⟨withKs fun k => { k with doms := [(2, { isCrown := true })] }, 3, ({ kind := .arrive, domain := 2, epoch := 1 } : Ctl), by decide +kernel⟩,
    ⟨withKs fun k => { k with doms := [(2, { isCrown := true, phase := .held })] }, 3, ({ kind := .arrive, domain := 2, epoch := 0 } : Ctl), by decide +kernel⟩,
    ⟨withKs fun k => { k with doms := [(2, { isCrown := true, phase := .arm })] }, 3, ({ kind := .arrive, domain := 2, epoch := 0 } : Ctl), by decide +kernel⟩,
    ⟨withKs fun k => { k with doms := [(2, { isCrown := true, phase := .arm })] }, 3, ({ kind := .arrive, domain := 2, fromKresia := true, status := 0x5002 } : Ctl), by decide +kernel⟩,
    ⟨withKs fun k => { k with doms := [(2, { isCrown := true, recs := [{ step := 4, entry := 0, slot := 0, seq := 9, due := .zero, adl := .zero }] })] }, 2, { step := 4, entry := 0, slot := 0, seq := 9, due := .zero, adl := .zero }, by decide +kernel⟩,
    ⟨withKs fun k => { k with doms := [(2, { isCrown := true, phase := .arm, prog := some (imgOf 400 [(30, 1), (50, 1), (256, 1), (260, 64), (261, 1), (268, 1), (320, 2), (328, 255), (329, 255)]), recs := [{ step := 4, entry := 0, slot := 0, seq := 9, due := .zero, adl := .zero }], positions := [{ e := ⟨1, 0, 3, 0, false⟩ }] })] }, 2, 0, { step := 4, entry := 0, slot := 0, seq := 9, due := .zero, adl := .zero }, (imgOf 400 [(30, 1), (50, 1), (256, 1), (260, 64), (261, 1), (268, 1), (320, 2), (328, 255), (329, 255)]), by decide +kernel⟩,
    ⟨withKs fun k => { k with doms := [(2, { isCrown := true })] }, 2, by decide +kernel⟩,
    ⟨withKs fun k => { k with doms := [(2, { isCrown := true, prog := some [], toArm := [0] })] }, 2, [], 0, [], by decide +kernel⟩,
    ⟨State.reset, 2, by decide +kernel⟩⟩

theorem wit_AcknowledgementsAndVoids_2 :
    (∃ (s : State) (d : Nat) (g : Image) (r : ArmRec), (s.dom d).prog = some g ∧ (s.dom d).toArm = [] ∧ (s.dom d).changeWait = some r ∧ s.armedUsed < 1024) ∧
    (∃ (s : State) (d : Nat) (cause : Code), (s.dom d).isCrown = true ∧ (s.dom d).phase ≠ .none ∧ (s.dom d).phase ≠ .idle ∧ (s.dom d).phase ≠ .held ∧ (s.dom d).epoch ≠ 0xFFFFFFFF ∧ (s.dom d).recs.all (fun r => r.tamped) = true ∧ (s.dom d).positions.any (fun q => q.vacant) = false ∧ (s.dom d).lost = false ∧ (s.dom d).freeing = false ∧ (s.dom d).voidRun + 1 ≤ s.voidRetry d ∧ (s.dom d).voidRun < 255) :=
  ⟨⟨withKs fun k => { k with doms := [(2, { isCrown := true, prog := some [], changeWait := some { step := 4, entry := 0, slot := 0, seq := 9, due := .zero, adl := .zero } })] }, 2, [], { step := 4, entry := 0, slot := 0, seq := 9, due := .zero, adl := .zero }, by decide +kernel⟩,
    ⟨withKs fun k => { k with doms := [(2, { isCrown := true, phase := .arm })] }, 2, 0x9003, by decide +kernel⟩⟩

theorem wit_TransfersReachTheirReceiver :
    (∃ (s : State) (port : Nat) (x : RsigPacket), s.bx.fenced = true) ∧
    (∃ (s : State) (port : Nat) (x : RsigPacket), s.isFenced x.src = true) ∧
    (∃ (s : State) (port : Nat) (x : RsigPacket), s.bx.fenced = false ∧ s.tenantOf x.domain = none) ∧
    (∃ (s : State) (port : Nat) (x : RsigPacket), s.isFenced x.src = false ∧ s.fld .kresia (lkAddr .kresia port 0) 6 2 ≠ 2 ∧ x.epoch < (s.dom x.domain).epoch ∧ (FMap.find? s.ks.trackers (rsigKey x.src x.transfer)).all (fun y => !y.overrun) = true) ∧
    (∃ (s : State) (port : Nat) (x : RsigPacket) (y : Tracker), s.isFenced x.src = false ∧ s.fld .kresia (lkAddr .kresia port 0) 6 2 ≠ 2 ∧ (s.dom x.domain).epoch ≤ x.epoch ∧ FMap.find? s.ks.trackers (rsigKey x.src x.transfer) = some y ∧ y.overrun = false ∧ y.landed.getLsbD (x.index % 256) = true) ∧
    (∃ (s : State) (port : Nat) (x : RsigPacket) (y : Tracker), s.isFenced x.src = false ∧ s.fld .kresia (lkAddr .kresia port 0) 6 2 ≠ 2 ∧ FMap.find? s.ks.trackers (rsigKey x.src x.transfer) = some y ∧ y.overrun = true) ∧
    (∃ (s : State) (port : Nat) (x : RsigPacket), s.isFenced x.src = false ∧ s.fld .kresia (lkAddr .kresia port 0) 6 2 ≠ 2 ∧ (s.dom x.domain).epoch ≤ x.epoch ∧ FMap.find? s.ks.trackers (rsigKey x.src x.transfer) = none ∧ (s.dom x.domain).trackers ≤ (s.ks.trackers.filter fun (_, y) => y.domain = x.domain).length ∧ s.canTell .kresia = true) ∧
    (∃ (s : State) (port : Nat) (x : RsigPacket), s.isFenced x.src = false ∧ s.fld .kresia (lkAddr .kresia port 0) 6 2 ≠ 2 ∧ (s.dom x.domain).epoch ≤ x.epoch ∧ FMap.find? s.ks.trackers (rsigKey x.src x.transfer) = none ∧ (s.ks.trackers.filter fun (_, y) => y.domain = x.domain).length < (s.dom x.domain).trackers ∧ x.last = false) ∧
    (∃ (s : State) (port : Nat) (x : RsigPacket), s.isFenced x.src = false ∧ s.fld .kresia (lkAddr .kresia port 0) 6 2 = 2) ∧
    (∃ (s : State) (port : Nat) (k : Nat) (x : RsigPacket), s.bx.fenced = false ∧ s.tenantOf x.domain = some k ∧ s.fld .baxel (lkAddr .baxel port 0) 6 2 ≠ 2 ∧ (s.ten k).epoch ≤ x.epoch ∧ FMap.find? s.bx.trackers (rsigKey x.src x.transfer) = none ∧ (s.bx.trackers.filter fun (_, y) => y.domain = x.domain).length < s.fld .baxel (0x0520 + 4 * k) 0 14 ∧ x.last = false) :=
  ⟨⟨withBx fun b => { b with fenced := true }, 3, { domain := 2, epoch := 0, src := 7, transfer := 3, index := 0, addr := 64, payload := [1, 2], last := false }, by decide +kernel⟩,
    ⟨withKs fun k => { k with fences := [(7, (1, true))] }, 3, { domain := 2, epoch := 0, src := 7, transfer := 3, index := 0, addr := 64, payload := [1, 2], last := false }, by decide +kernel⟩,
    ⟨State.reset, 3, { domain := 2, epoch := 0, src := 7, transfer := 3, index := 0, addr := 64, payload := [1, 2], last := false }, by decide +kernel⟩,
    ⟨withKs fun k => { k with doms := [(2, { epoch := 4 })] }, 3, { domain := 2, epoch := 0, src := 7, transfer := 3, index := 0, addr := 64, payload := [1, 2], last := false }, by decide +kernel⟩,
    ⟨withKs fun k => { k with c := { k.c with time := {} }, trackers := [(rsigKey 7 3, { src := 7, transfer := 3, domain := 2, epoch := 0, opened := 0, lastRaw := 0, landed := 1 })] }, 3, { domain := 2, epoch := 0, src := 7, transfer := 3, index := 0, addr := 64, payload := [1, 2], last := false }, { src := 7, transfer := 3, domain := 2, epoch := 0, opened := 0, lastRaw := 0, landed := 1 }, by decide +kernel⟩,
    ⟨withKs fun k => { k with c := { k.c with time := {} }, trackers := [(rsigKey 7 3, { src := 7, transfer := 3, domain := 2, epoch := 0, opened := 0, lastRaw := 0, overrun := true })] }, 3, { domain := 2, epoch := 0, src := 7, transfer := 3, index := 0, addr := 64, payload := [1, 2], last := false }, { src := 7, transfer := 3, domain := 2, epoch := 0, opened := 0, lastRaw := 0, overrun := true }, by decide +kernel⟩,
    ⟨State.reset, 3, { domain := 2, epoch := 0, src := 7, transfer := 3, index := 0, addr := 64, payload := [1, 2], last := false }, by decide +kernel⟩,
    ⟨withKs fun k => { k with doms := [(2, { trackers := 2 })] }, 3, { domain := 2, epoch := 0, src := 7, transfer := 3, index := 0, addr := 64, payload := [1, 2], last := false }, by decide +kernel⟩,
    ⟨State.reset.setFld .kresia (lkAddr .kresia 3 0) 6 2 2, 3, { domain := 2, epoch := 0, src := 7, transfer := 3, index := 0, addr := 64, payload := [1, 2], last := false }, by decide +kernel⟩,
    ⟨withBx fun b => { b with tenants := [(1, { domain := some 2 })] }, 3, 1, { domain := 2, epoch := 0, src := 7, transfer := 3, index := 0, addr := 64, payload := [1, 2], last := false }, by decide +kernel⟩⟩

theorem wit_TransfersCompleteOrClose :
    (∃ (s : State) (p : Part) (port : Nat) (id : Nat) (err : Bool), FMap.find? (s.writesOf p) (port * 4096 + id) = none) ∧
    (∃ (s : State) (r : MemReq) (key : Nat) (l : Nat) (id : Nat) (y : Tracker), FMap.find? s.ks.writes id = some r ∧ r.use = .rsig key l ∧ r.timedOut = false ∧ FMap.find? s.ks.trackers key = some y ∧ ({ y with acked := y.acked + r.bytes } : Tracker).complete = false ∧ s.ks.v2Waits = []) ∧
    (∃ (s : State) (p : Part) (src : Nat) (transfer : Nat) (x : Tracker), FMap.find? (s.trackers p) (rsigKey src transfer) = some x ∧ x.overrun = true ∧ s.silent p x = true) ∧
    (∃ (s : State) (p : Part) (src : Nat) (transfer : Nat) (x : Tracker), FMap.find? (s.trackers p) (rsigKey src transfer) = some x ∧ (x.overrun = false ∨ s.silent p x = false)) ∧
    (∃ (s : State) (p : Part) (src : Nat) (transfer : Nat) (x : Tracker), FMap.find? (s.trackers p) (rsigKey src transfer) = some x ∧ x.overrun = false ∧ x.complete = false ∧ s.silent p x = true) ∧
    (∃ (s : State) (p : Part) (src : Nat) (transfer : Nat) (x : Tracker), FMap.find? (s.trackers p) (rsigKey src transfer) = some x ∧ (x.overrun = true ∨ s.silent p x = false)) ∧
    (∃ (s : State) (p : Part) (src : Nat) (transfer : Nat), FMap.find? (s.trackers p) (rsigKey src transfer) = none) ∧
    (∃ (s : State) (src : Nat) (d : RwDone) (x : SendTransfer), FMap.find? s.ks.sends (rsigKey src d.transfer) = some x ∧ x.domain = d.domain) ∧
    (∃ (s : State) (src : Nat) (d : RwDone), FMap.find? s.ks.sends (rsigKey src d.transfer) = none ∧ FMap.find? s.bx.sends (rsigKey src d.transfer) = none) ∧
    (∃ (s : State) (port : Nat) (id : Nat) (r : MemReq), FMap.find? s.bx.reads (port * 4096 + id) = some r ∧ r.timedOut = false ∧ 1000000 * 65536 ≤ Raw.diff (s.raw .baxel) r.issued) ∧
    (∃ (s : State) (port : Nat) (id : Nat) (r : MemReq), FMap.find? s.bx.writes (port * 4096 + id) = some r ∧ r.timedOut = false ∧ 1000000 * 65536 ≤ Raw.diff (s.raw .baxel) r.issued) ∧
    (∃ (s : State) (rd : Bool) (port : Nat) (id : Nat), ((FMap.find? (if rd then s.bx.reads else s.bx.writes) (port * 4096 + id)).all (fun r => r.timedOut || decide (Raw.diff (s.raw .baxel) r.issued < 1000000 * 65536)) = true)) ∧
    (∃ (s : State) (port : Nat) (x : RsigPacket), s.isFenced x.src = true) ∧
    (∃ (s : State) (port : Nat) (x : RsigPacket), s.isFenced x.src = false) ∧
    (∃ (s : State) (port : Nat) (x : RsigPacket), s.bx.fenced = false ∧ (s.tenantOf x.domain).isSome = true) :=
  ⟨⟨State.reset, .kresia, 0, 5, false, by decide +kernel⟩,
    ⟨withKs fun k => { k with writes := [(5, ⟨64, 2, 0, .rsig (rsigKey 7 3) 0, 0, false, []⟩)], trackers := [(rsigKey 7 3, { src := 7, transfer := 3, domain := 2, epoch := 0, opened := 0, lastRaw := 0 })] }, ⟨64, 2, 0, .rsig (rsigKey 7 3) 0, 0, false, []⟩, rsigKey 7 3, 0, 5, { src := 7, transfer := 3, domain := 2, epoch := 0, opened := 0, lastRaw := 0 }, by decide +kernel⟩,
    ⟨withKs fun k => { k with c := { k.c with time := { raw := 655360000000 } }, trackers := [(rsigKey 7 3, { src := 7, transfer := 3, domain := 2, epoch := 0, opened := 0, lastRaw := 0, overrun := true })] }, .kresia, 7, 3, { src := 7, transfer := 3, domain := 2, epoch := 0, opened := 0, lastRaw := 0, overrun := true }, by decide +kernel⟩,
    ⟨withKs fun k => { k with c := { k.c with time := {} }, trackers := [(rsigKey 7 3, { src := 7, transfer := 3, domain := 2, epoch := 0, opened := 0, lastRaw := 0 })] }, .kresia, 7, 3, { src := 7, transfer := 3, domain := 2, epoch := 0, opened := 0, lastRaw := 0 }, by decide +kernel⟩,
    ⟨withKs fun k => { k with c := { k.c with time := { raw := 655360000000 } }, trackers := [(rsigKey 7 3, { src := 7, transfer := 3, domain := 2, epoch := 0, opened := 0, lastRaw := 0 })] }, .kresia, 7, 3, { src := 7, transfer := 3, domain := 2, epoch := 0, opened := 0, lastRaw := 0 }, by decide +kernel⟩,
    ⟨withKs fun k => { k with c := { k.c with time := {} }, trackers := [(rsigKey 7 3, { src := 7, transfer := 3, domain := 2, epoch := 0, opened := 0, lastRaw := 0 })] }, .kresia, 7, 3, { src := 7, transfer := 3, domain := 2, epoch := 0, opened := 0, lastRaw := 0 }, by decide +kernel⟩,
    ⟨State.reset, .kresia, 7, 3, by decide +kernel⟩,
    ⟨withKs fun k => { k with sends := [(rsigKey 7 3, { receiver := 7, transfer := 3, domain := 2, epoch := 0, opened := 0, cls := 3 })] }, 7, ⟨2, 0, 3, 0⟩, { receiver := 7, transfer := 3, domain := 2, epoch := 0, opened := 0, cls := 3 }, by decide +kernel⟩,
    ⟨State.reset, 7, ⟨2, 0, 3, 0⟩, by decide +kernel⟩,
    ⟨withBx fun b => { b with c := { b.c with time := { raw := 65536000000 } }, reads := [(5, ⟨64, 2, 0, .landed, 0, false, []⟩)] }, 0, 5, ⟨64, 2, 0, .landed, 0, false, []⟩, by decide +kernel⟩,
    ⟨withBx fun b => { b with c := { b.c with time := { raw := 65536000000 } }, writes := [(5, ⟨64, 2, 0, .landed, 0, false, []⟩)] }, 0, 5, ⟨64, 2, 0, .landed, 0, false, []⟩, by decide +kernel⟩,
    ⟨State.reset, true, 0, 5, by decide +kernel⟩,
    ⟨withKs fun k => { k with fences := [(7, (1, true))] }, 3, { domain := 2, epoch := 0, src := 7, transfer := 3, index := 0, addr := 64, payload := [1, 2], last := false }, by decide +kernel⟩,
    ⟨State.reset, 3, { domain := 2, epoch := 0, src := 7, transfer := 3, index := 0, addr := 64, payload := [1, 2], last := false }, by decide +kernel⟩,
    ⟨withBx fun b => { b with tenants := [(1, { domain := some 2 })] }, 3, { domain := 2, epoch := 0, src := 7, transfer := 3, index := 0, addr := 64, payload := [1, 2], last := false }, by decide +kernel⟩⟩

theorem wit_ImagesLoadAndTheirAnswers :
    (∃ (s : State) (x : ProgImage), x.mapOnly = false ∧ x.rollback = none ∧ x.cup = none ∧ x.unload = false ∧ x.withdraw = false ∧ s.ksReady = false) ∧
    (∃ (s : State) (x : ProgImage), x.mapOnly = false ∧ x.rollback = none ∧ x.cup = none ∧ x.unload = false ∧ x.withdraw = false ∧ s.ksReady = true ∧ imageDigest x.image ≠ imgDigest x.image) ∧
    (∃ (s : State) (x : ProgImage), x.mapOnly = false ∧ x.rollback = none ∧ x.cup = none ∧ x.unload = false ∧ x.withdraw = false ∧ s.ksReady = true ∧ imageDigest x.image = imgDigest x.image ∧ s.hasRoom x.domain x.image x.positions = false) ∧
    (∃ (s : State) (x : ProgImage) (n : Nat), x.mapOnly = false ∧ x.rollback = none ∧ x.cup = none ∧ x.unload = false ∧ x.withdraw = false ∧ s.ksReady = true ∧ imageDigest x.image = imgDigest x.image ∧ s.hasRoom x.domain x.image x.positions = true ∧ x.switchStep = some n) ∧
    (∃ (s : State) (x : ProgImage), x.mapOnly = false ∧ x.rollback = none ∧ x.cup = none ∧ x.unload = false ∧ x.withdraw = false ∧ s.ksReady = true ∧ imageDigest x.image = imgDigest x.image ∧ s.hasRoom x.domain x.image x.positions = true ∧ x.switchStep = none) ∧
    (∃ (s : State) (x : ProgImage), x.mapOnly = false ∧ x.rollback = none ∧ x.cup = none ∧ x.unload = false ∧ x.withdraw = true ∧ x.switchStep ≠ none) ∧
    (∃ (s : State) (x : ProgImage), x.mapOnly = false ∧ x.rollback = none ∧ x.cup = none ∧ x.unload = false ∧ x.withdraw = true ∧ x.switchStep = none) ∧
    (∃ (s : State) (x : ProgImage) (n : Nat) (f : Nat), x.mapOnly = false ∧ x.rollback = none ∧ x.cup = some (n, f)) ∧
    (∃ (s : State) (a : LoadAck), (s.dom a.domain).wait = none) ∧
    (∃ (s : State) (a : LoadAck) (w : ProgWait) (tk : Taken), (s.dom a.domain).wait = some w ∧ (w.kind = 0 ∨ w.kind = 1) ∧ a.code ≠ 0 ∧ (s.mslot .kresia w.mailbox w.mslot).taken = some tk) ∧
    (∃ (s : State) (a : LoadAck) (w : ProgWait), (s.dom a.domain).wait = some w ∧ (w.kind = 0 ∨ w.kind = 1) ∧ a.code = 0 ∧ w.waiting.erase a.node ≠ []) ∧
    (∃ (s : State) (a : LoadAck) (w : ProgWait) (tk : Taken) (g : Image), (s.dom a.domain).wait = some w ∧ w.kind = 0 ∧ a.code = 0 ∧ w.waiting.erase a.node = [] ∧ (s.dom a.domain).prog = some g ∧ (s.mslot .kresia w.mailbox w.mslot).taken = some tk) ∧
    (∃ (s : State) (a : LoadAck) (w : ProgWait), (s.dom a.domain).wait = some w ∧ w.kind = 2 ∧ (∃ n ∈ w.waiting, n ≠ a.node)) ∧
    (∃ (s : State) (a : LoadAck) (w : ProgWait) (tk : Taken), (s.dom a.domain).wait = some w ∧ w.kind = 2 ∧ (∀ n ∈ w.waiting, n = a.node) ∧ (s.mslot .kresia w.mailbox w.mslot).taken = some tk) ∧
    (∃ (s : State) (x : ScalarValue) (n : Nat) (w : ScalarWait), ((s.dom x.domain).scalarWaits.find? fun w => w.v = ⟨x.set, x.scalar, x.value, x.fromStep⟩) = some w ∧ (∃ i ∈ w.waiting, i ≠ n)) ∧
    (∃ (s : State) (x : ScalarValue) (n : Nat), ((s.dom x.domain).scalarWaits.find? fun w => w.v = ⟨x.set, x.scalar, x.value, x.fromStep⟩) = none) :=
  ⟨⟨State.reset, { domain := 2, crown := 5, image := [] }, by decide +kernel⟩,
    ⟨withKs fun k => { k with c := { k.c with time := { state := .locked } } }, { domain := 2, crown := 5, image := [] }, by decide +kernel⟩,
    ⟨withKs fun k => { k with memFailed := true, c := { k.c with time := { state := .locked } } }, { domain := 2, crown := 5, image := imgOf 64 [] ++ imageDigest (imgOf 64 []) }, by decide +kernel⟩,
    ⟨withKs fun k => { k with c := { k.c with time := { state := .locked } } }, { domain := 2, crown := 5, switchStep := some 4, image := imgOf 64 [] ++ imageDigest (imgOf 64 []) }, 4, by decide +kernel⟩,
    ⟨withKs fun k => { k with c := { k.c with time := { state := .locked } } }, { domain := 2, crown := 5, image := imgOf 64 [] ++ imageDigest (imgOf 64 []) }, by decide +kernel⟩,
    ⟨State.reset, { domain := 2, crown := 5, withdraw := true, switchStep := some 4 }, by decide +kernel⟩,
    ⟨withKs fun k => { k with doms := [(2, { prog := some [] })] }, { domain := 2, crown := 5, withdraw := true }, by decide +kernel⟩,
    ⟨State.reset, { domain := 2, crown := 5, cup := some (3, 9) }, 3, 9, by decide +kernel⟩,
    ⟨State.reset, { domain := 2, fromBaxel := false, node := 7, code := 0 }, by decide +kernel⟩,
    ⟨withKs fun k => { k with doms := [(2, { wait := some { kind := 0, mailbox := 0, mslot := 0, waiting := [7, 8] } })], c := { k.c with fw := fwOf (cmdOf []) } }, { domain := 2, fromBaxel := false, node := 7, code := 5 }, { kind := 0, mailbox := 0, mslot := 0, waiting := [7, 8] }, cmdOf [], by decide +kernel⟩,
    ⟨withKs fun k => { k with doms := [(2, { wait := some { kind := 0, mailbox := 0, mslot := 0, waiting := [7, 8] } })], c := { k.c with fw := fwOf (cmdOf []) } }, { domain := 2, fromBaxel := false, node := 7, code := 0 }, { kind := 0, mailbox := 0, mslot := 0, waiting := [7, 8] }, by decide +kernel⟩,
    ⟨withKs fun k => { k with doms := [(2, { prog := some [], wait := some { kind := 0, mailbox := 0, mslot := 0, waiting := [7] } })], c := { k.c with fw := fwOf (cmdOf []) } }, { domain := 2, fromBaxel := false, node := 7, code := 0 }, { kind := 0, mailbox := 0, mslot := 0, waiting := [7] }, cmdOf [], [], by decide +kernel⟩,
    ⟨withKs fun k => { k with doms := [(2, { wait := some { kind := 2, mailbox := 0, mslot := 0, waiting := [7, 8] } })], c := { k.c with fw := fwOf (cmdOf []) } }, { domain := 2, fromBaxel := false, node := 7, code := 0 }, { kind := 2, mailbox := 0, mslot := 0, waiting := [7, 8] }, by decide +kernel⟩,
    ⟨withKs fun k => { k with doms := [(2, { wait := some { kind := 2, mailbox := 0, mslot := 0, waiting := [7] } })], c := { k.c with fw := fwOf (cmdOf []) } }, { domain := 2, fromBaxel := false, node := 7, code := 0 }, { kind := 2, mailbox := 0, mslot := 0, waiting := [7] }, cmdOf [], by decide +kernel⟩,
    ⟨withKs fun k => { k with doms := [(2, { scalarWaits := [⟨0, 0, ⟨0, 1, 5, 3⟩, [7, 8]⟩] })] }, ⟨2, 0, 1, 5, 3⟩, 7, ⟨0, 0, ⟨0, 1, 5, 3⟩, [7, 8]⟩, by decide +kernel⟩,
    ⟨State.reset, ⟨2, 0, 1, 5, 3⟩, 7, by decide +kernel⟩⟩

theorem wit_StepBodiesRun :
    (∃ (s : State) (m : Ctl), m.epoch < (s.dom m.domain).epoch) ∧
    (∃ (s : State) (m : Ctl) (g : Image), m.epoch = (s.dom m.domain).epoch ∧ (s.dom m.domain).isDeputy = false ∧ (s.dom m.domain).next = none ∧ (s.dom m.domain).imageFor m.step = some g ∧ (s.dom m.domain).moves = [] ∧ (s.dom m.domain).lastTamp = none ∧ m.cancel = false ∧ (launches g).head?.map (entRef g) = some m.slot ∧ 2 ≤ (s.dom m.domain).insts.length) ∧
    (∃ (s : State) (m : Ctl), (s.dom m.domain).epoch < m.epoch ∧ (s.dom m.domain).freeing = false) ∧
    (∃ (s : State) (d : Nat) (step : Nat), s.inst d step = none) ∧
    (∃ (s : State) (d : Nat) (step : Nat) (n : Inst), s.inst d step = some n ∧ imgMode n.image = 0 ∧ n.lastIssue.all (fun r => decide (10 * 65536 ≤ Raw.diff (s.raw .kresia) r)) = true) ∧
    (∃ (s : State) (d : Nat) (step : Nat) (n : Inst), s.inst d step = some n ∧ (imgMode n.image ≠ 0 ∨ n.lastIssue.any (fun r => decide (Raw.diff (s.raw .kresia) r < 10 * 65536)) = true)) ∧
    (∃ (s : State) (d : Nat) (step : Nat) (i : Nat) (n : Inst) (r : EntryRun), s.inst d step = some n ∧ FMap.find? n.runs i = some r ∧ r.done = false ∧ s.entryFinished d step i n r = true) ∧
    (∃ (s : State) (d : Nat) (step : Nat) (i : Nat) (n : Inst) (r : EntryRun), s.inst d step = some n ∧ FMap.find? n.runs i = some r ∧ (r.done = true ∨ s.entryFinished d step i n r = false)) ∧
    (∃ (s : State) (d : Nat) (step : Nat) (i : Nat) (c : Code), (d, waitId step i, c) ∈ s.ks.takesDone ∧ (c = 0 ∨ c = 0x3012)) ∧
    (∃ (s : State) (d : Nat) (step : Nat) (i : Nat), (d, waitId step i, 0) ∉ s.ks.takesDone ∧ (d, waitId step i, 0x3012) ∉ s.ks.takesDone) ∧
    (∃ (s : State) (d : Nat) (step : Nat) (i : Nat) (n : Inst) (r : EntryRun), s.inst d step = some n ∧ FMap.find? n.runs i = some r ∧ entType n.image i = 8 ∧ r.done = false ∧ entF n.image i 20 4 ≠ 0 ∧ ((entF n.image i 20 4 * 65536000 : Nat) : Int) ≤ Raw.diff (s.raw .kresia) r.issued ∧ (s.ks.takesDone.any fun (q, j, c) => q = d && j = waitId step i && (c = 0 || c = 0x202D || c = 0x3012)) = false ∧ entF n.image i 24 1 ≠ 1) ∧
    (∃ (s : State) (d : Nat) (step : Nat) (i : Nat), s.inst d step = none) ∧
    (∃ (s : State) (d : Nat) (step : Nat) (i : Nat) (n : Inst) (a : Int) (b : Int), s.inst d step = some n ∧ imgMode n.image = 1 ∧ schedOf n.image i = some (a, b) ∧ otDiff (n.at' a) (s.otNow .kresia) ≤ 0 ∧ i ∈ body n.image ∧ FMap.has n.runs i = false ∧ (∀ j ∈ body n.image, schedBefore n.image j i = true → FMap.has n.runs j = true ∨ ∃ c, (d, waitId step j, c) ∈ s.ks.takesDone) ∧ s.partakes (s.dom d) n.image i step = true ∧ entRuns n.image i step = true) ∧
    (∃ (s : State) (d : Nat) (step : Nat) (i : Nat) (n : Inst), s.inst d step = some n ∧ imgMode n.image ≠ 1) ∧
    (∃ (s : State) (d : Nat) (step : Nat) (i : Nat) (n : Inst) (a : Int) (b : Int), s.inst d step = some n ∧ imgMode n.image = 1 ∧ schedOf n.image i = some (a, b) ∧ FMap.find? n.runs i = none ∧ otDiff (n.at' (a + 1000)) (s.otNow .kresia) < 0 ∧ (s.ks.takesDone.any fun (q, j, _) => q = d && j = waitId step i) = false) :=
  ⟨⟨withKs fun k => { k with doms := [(2, { epoch := 4 })] }, ({ kind := .tamp, domain := 2, epoch := 0 } : Ctl), by decide +kernel⟩,
    ⟨withKs fun k => { k with doms := [(2, { prog := some (imgOf 400 [(30, 1), (50, 2), (256, 1), (260, 0x40), (261, 1), (268, 1), (320, 2)]), insts := [{ step := 4, epoch := 0, due := .zero, image := imgOf 400 [(6, 0), (30, 1), (50, 2), (256, 1), (260, 0x40), (261, 1), (268, 1), (272, 0x0A), (276, 0x80), (277, 1), (284, 1), (320, 3), (322, 0x10)] }, { step := 4, epoch := 0, due := .zero, image := imgOf 400 [(6, 0), (30, 1), (50, 2), (256, 1), (260, 0x40), (261, 1), (268, 1), (272, 0x0A), (276, 0x80), (277, 1), (284, 1), (320, 3), (322, 0x10)] }] })] }, ({ kind := .tamp, domain := 2, step := 9 } : Ctl), imgOf 400 [(30, 1), (50, 2), (256, 1), (260, 0x40), (261, 1), (268, 1), (320, 2)], by decide +kernel⟩,
    ⟨withKs fun k => { k with doms := [(2, { epoch := 4 })] }, ({ kind := .tamp, domain := 2, epoch := 5 } : Ctl), by decide +kernel⟩,
    ⟨State.reset, 2, 4, by decide +kernel⟩,
    ⟨withKs fun k => { k with doms := [(2, { insts := [{ step := 4, epoch := 0, due := .zero, image := imgOf 400 [(6, 0), (30, 1), (50, 2), (256, 1), (260, 0x40), (261, 1), (268, 1), (272, 0x0A), (276, 0x80), (277, 1), (284, 1), (320, 3), (322, 0x10)] }] })] }, 2, 4, { step := 4, epoch := 0, due := .zero, image := imgOf 400 [(6, 0), (30, 1), (50, 2), (256, 1), (260, 0x40), (261, 1), (268, 1), (272, 0x0A), (276, 0x80), (277, 1), (284, 1), (320, 3), (322, 0x10)] }, by decide +kernel⟩,
    ⟨withKs fun k => { k with doms := [(2, { insts := [{ step := 4, epoch := 0, due := .zero, image := imgOf 400 [(6, 1), (30, 1), (50, 2), (256, 1), (260, 0x40), (261, 1), (268, 1), (272, 0x0A), (276, 0x80), (277, 1), (284, 1), (320, 3), (322, 0x10)] }] })] }, 2, 4, { step := 4, epoch := 0, due := .zero, image := imgOf 400 [(6, 1), (30, 1), (50, 2), (256, 1), (260, 0x40), (261, 1), (268, 1), (272, 0x0A), (276, 0x80), (277, 1), (284, 1), (320, 3), (322, 0x10)] }, by decide +kernel⟩,
    ⟨withKs fun k => { k with doms := [(2, { insts := [{ step := 4, epoch := 0, due := .zero, image := imgOf 400 [(6, 0), (30, 1), (50, 2), (256, 1), (260, 0x40), (261, 1), (268, 1), (272, 0x0A), (276, 0x80), (277, 1), (284, 1), (320, 7), (322, 0x10)], runs := [(0, { issued := 0 })] }] })] }, 2, 4, 0, { step := 4, epoch := 0, due := .zero, image := imgOf 400 [(6, 0), (30, 1), (50, 2), (256, 1), (260, 0x40), (261, 1), (268, 1), (272, 0x0A), (276, 0x80), (277, 1), (284, 1), (320, 7), (322, 0x10)], runs := [(0, { issued := 0 })] }, { issued := 0 }, by decide +kernel⟩,
    ⟨withKs fun k => { k with doms := [(2, { insts := [{ step := 4, epoch := 0, due := .zero, image := imgOf 400 [(6, 0), (30, 1), (50, 2), (256, 1), (260, 0x40), (261, 1), (268, 1), (272, 0x0A), (276, 0x80), (277, 1), (284, 1), (320, 7), (322, 0x10)], runs := [(0, { issued := 0, done := true })] }] })] }, 2, 4, 0, { step := 4, epoch := 0, due := .zero, image := imgOf 400 [(6, 0), (30, 1), (50, 2), (256, 1), (260, 0x40), (261, 1), (268, 1), (272, 0x0A), (276, 0x80), (277, 1), (284, 1), (320, 7), (322, 0x10)], runs := [(0, { issued := 0, done := true })] }, { issued := 0, done := true }, by decide +kernel⟩,
    ⟨withKs fun k => { k with takesDone := [(2, waitId 4 0, 0)] }, 2, 4, 0, 0, by decide +kernel⟩,
    ⟨State.reset, 2, 4, 0, by decide +kernel⟩,
    ⟨withKs fun k => { k with doms := [(2, { insts := [{ step := 4, epoch := 0, due := .zero, image := imgOf 400 [(6, 1), (30, 1), (50, 1), (256, 1), (260, 0x40), (261, 1), (268, 1), (320, 8), (340, 1)], runs := [(0, { issued := 0 })] }] })], c := { k.c with time := { raw := 65536000 } } }, 2, 4, 0, { step := 4, epoch := 0, due := .zero, image := imgOf 400 [(6, 1), (30, 1), (50, 1), (256, 1), (260, 0x40), (261, 1), (268, 1), (320, 8), (340, 1)], runs := [(0, { issued := 0 })] }, { issued := 0 }, by decide +kernel⟩,
    ⟨State.reset, 2, 4, 0, by decide +kernel⟩,
    ⟨withKs fun k => { k with doms := [(2, { insts := [{ step := 4, epoch := 0, due := .zero, image := imgOf 400 [(6, 1), (30, 1), (50, 2), (256, 1), (260, 0x40), (261, 1), (268, 1), (272, 0x0A), (276, 0x80), (277, 1), (284, 1), (320, 7), (322, 0x10)] }] })] }, 2, 4, 0, { step := 4, epoch := 0, due := .zero, image := imgOf 400 [(6, 1), (30, 1), (50, 2), (256, 1), (260, 0x40), (261, 1), (268, 1), (272, 0x0A), (276, 0x80), (277, 1), (284, 1), (320, 7), (322, 0x10)] }, 0, 0, by decide +kernel⟩,
    ⟨withKs fun k => { k with doms := [(2, { insts := [{ step := 4, epoch := 0, due := .zero, image := imgOf 400 [(6, 0), (30, 1), (50, 2), (256, 1), (260, 0x40), (261, 1), (268, 1), (272, 0x0A), (276, 0x80), (277, 1), (284, 1), (320, 7), (322, 0x10)] }] })] }, 2, 4, 0, { step := 4, epoch := 0, due := .zero, image := imgOf 400 [(6, 0), (30, 1), (50, 2), (256, 1), (260, 0x40), (261, 1), (268, 1), (272, 0x0A), (276, 0x80), (277, 1), (284, 1), (320, 7), (322, 0x10)] }, by decide +kernel⟩,
    ⟨withKs fun k => { k with doms := [(2, { insts := [{ step := 4, epoch := 0, due := .zero, image := imgOf 400 [(6, 1), (30, 1), (50, 2), (256, 1), (260, 0x40), (261, 1), (268, 1), (272, 0x0A), (276, 0x80), (277, 1), (284, 1), (320, 7), (322, 0x10)] }] })], c := { k.c with time := { raw := 131072000 } } }, 2, 4, 0, { step := 4, epoch := 0, due := .zero, image := imgOf 400 [(6, 1), (30, 1), (50, 2), (256, 1), (260, 0x40), (261, 1), (268, 1), (272, 0x0A), (276, 0x80), (277, 1), (284, 1), (320, 7), (322, 0x10)] }, 0, 0, by decide +kernel⟩⟩

theorem wit_BaxelPostsAndResends :
    (∃ (s : State) (t : Nat) (c : Code), s.postCode t ((s.rd .baxel (tPage t 0x300)).toNat % 2 ^ 12) ((s.rd .baxel (tPage t 0x304)).toNat % 2 ^ 24) ((s.rd .baxel (tPage t 0x308)).toNat % 2 ^ 24) = some c) ∧
    (∃ (s : State) (t : Nat), s.postCode t ((s.rd .baxel (tPage t 0x300)).toNat % 2 ^ 12) ((s.rd .baxel (tPage t 0x304)).toNat % 2 ^ 24) ((s.rd .baxel (tPage t 0x308)).toNat % 2 ^ 24) = none) ∧
    (∃ (s : State) (t : Nat) (c : Code), s.dspPostCode t ((s.rd .baxel (tPage t 0x380)).toNat) (s.fld .baxel (tPage t 0x384) 0 17) = some c) ∧
    (∃ (s : State) (t : Nat), s.dspPostCode t ((s.rd .baxel (tPage t 0x380)).toNat) (s.fld .baxel (tPage t 0x384) 0 17) = none) ∧
    (∃ (s : State) (t : Nat), ((s.ten t).faulted = true ∨ (s.ten t).domain = none ∨ layCount (s.ten t).prog ≤ (s.rd .baxel (tPage t 0x380)).toNat ∨ (s.ten t).position ∉ lHosts (s.ten t).prog ((s.rd .baxel (tPage t 0x380)).toNat))) ∧
    (∃ (s : State) (t : Nat), (s.ten t).faulted = false ∧ (s.ten t).domain ≠ none ∧ (s.rd .baxel (tPage t 0x380)).toNat < layCount (s.ten t).prog ∧ (s.ten t).position ∈ lHosts (s.ten t).prog ((s.rd .baxel (tPage t 0x380)).toNat) ∧ lRet (s.ten t).prog ((s.rd .baxel (tPage t 0x380)).toNat) ≠ 0) ∧
    (∃ (s : State) (n : DspNote) (t : Nat) (p : DspPost), s.tenantOf n.domain = some t ∧ ((s.ten t).dspPosts.find? fun p => p.isFor n.layer n.step n.epoch) = some p ∧ p.state = 2) ∧
    (∃ (s : State) (n : DspNote) (t : Nat) (p : DspPost), s.tenantOf n.domain = some t ∧ ((s.ten t).dspPosts.find? fun p => p.isFor n.layer n.step n.epoch) = some p ∧ p.state ≠ 2) ∧
    (∃ (s : State) (n : DspNote) (t : Nat) (p : DspPost), s.tenantOf n.domain = some t ∧ ((s.ten t).dspPosts.find? fun p => p.isFor n.layer n.step n.epoch) = some p ∧ p.restart < n.restart ∧ p.state < 2) ∧
    (∃ (s : State) (n : DspNote) (t : Nat) (p : DspPost), s.tenantOf n.domain = some t ∧ ((s.ten t).dspPosts.find? fun p => p.isFor n.layer n.step n.epoch) = some p ∧ p.restart < n.restart ∧ p.state = 2) ∧
    (∃ (s : State) (n : DspNote) (t : Nat) (p : DspPost), s.tenantOf n.domain = some t ∧ ((s.ten t).dspPosts.find? fun p => p.isFor n.layer n.step n.epoch) = some p ∧ (n.restart ≤ p.restart ∨ 3 ≤ p.state)) ∧
    (∃ (s : State) (n : DspNote), s.tenantOf n.domain = none) ∧
    (∃ (s : State) (n : DspNote) (t : Nat), s.tenantOf n.domain = some t ∧ ((s.ten t).dspPosts.find? fun p => p.isFor n.layer n.step n.epoch) = none) ∧
    (∃ (s : State) (n : DspNote) (t : Nat), s.tenantOf n.domain = some t ∧ n.epoch < (s.ten t).epoch) ∧
    (∃ (s : State) (n : DspNote) (t : Nat) (p : DspPost), s.tenantOf n.domain = some t ∧ (s.ten t).epoch ≤ n.epoch ∧ ((s.ten t).dspPosts.find? fun p => p.isFor n.layer n.step n.epoch) = some p) ∧
    (∃ (s : State) (n : DspNote) (t : Nat), s.tenantOf n.domain = some t ∧ (s.ten t).epoch ≤ n.epoch ∧ ((s.ten t).dspPosts.find? fun p => p.isFor n.layer n.step n.epoch) = none) :=
  ⟨⟨State.reset, 1, 0x4003, by decide +kernel⟩,
    ⟨(withBx fun b => { b with tenants := [(1, { domain := some 2, prog := (imgOf 400 [(50, 1), (256, 5), (260, 0x40), (261, 1), (268, 1), (324, 8), (328, 8), (332, 4), (340, 1), (368, 1), (372, 64)]) })] }).wr .baxel (tPage 1 0x308) 1, 1, by decide +kernel⟩,
    ⟨State.reset, 1, 0x6001, by decide +kernel⟩,
    ⟨(withBx fun b => { b with tenants := [(1, { domain := some 2, prog := (imgOf 500 [(50, 1), (256, 8), (260, 0x40), (261, 1), (268, 1), (328, 4), (344, 1)]) })] }), 1, by decide +kernel⟩,
    ⟨State.reset, 1, by decide +kernel⟩,
    ⟨(withBx fun b => { b with tenants := [(1, { domain := some 2, prog := (imgOf 500 [(50, 1), (256, 8), (260, 0x40), (261, 1), (268, 1), (324, 1), (328, 4), (344, 1), (368, 8)]) })] }), 1, by decide +kernel⟩,
    ⟨(withBx fun b => { b with tenants := [(1, { domain := some 2, dspPosts := [{ layer := 0, n := 1, step := 0, epoch := 0, state := 2 }] })] }), { kind := .go, domain := 2, epoch := 0, step := 0, layer := 0 }, 1, { layer := 0, n := 1, step := 0, epoch := 0, state := 2 }, by decide +kernel⟩,
    ⟨(withBx fun b => { b with tenants := [(1, { domain := some 2, dspPosts := [{ layer := 0, n := 1, step := 0, epoch := 0 }] })] }), { kind := .go, domain := 2, epoch := 0, step := 0, layer := 0 }, 1, { layer := 0, n := 1, step := 0, epoch := 0 }, by decide +kernel⟩,
    ⟨(withBx fun b => { b with tenants := [(1, { domain := some 2, dspPosts := [{ layer := 0, n := 1, step := 0, epoch := 0 }] })] }), { kind := .restart, domain := 2, epoch := 0, step := 0, layer := 0, restart := 1 }, 1, { layer := 0, n := 1, step := 0, epoch := 0 }, by decide +kernel⟩,
    ⟨(withBx fun b => { b with tenants := [(1, { domain := some 2, dspPosts := [{ layer := 0, n := 1, step := 0, epoch := 0, state := 2 }] })] }), { kind := .restart, domain := 2, epoch := 0, step := 0, layer := 0, restart := 1 }, 1, { layer := 0, n := 1, step := 0, epoch := 0, state := 2 }, by decide +kernel⟩,
    ⟨(withBx fun b => { b with tenants := [(1, { domain := some 2, dspPosts := [{ layer := 0, n := 1, step := 0, epoch := 0 }] })] }), { kind := .restart, domain := 2, epoch := 0, step := 0, layer := 0 }, 1, { layer := 0, n := 1, step := 0, epoch := 0 }, by decide +kernel⟩,
    ⟨State.reset, { kind := .go, domain := 2, epoch := 0, step := 0, layer := 0 }, by decide +kernel⟩,
    ⟨(withBx fun b => { b with tenants := [(1, { domain := some 2 })] }), { kind := .go, domain := 2, epoch := 0, step := 0, layer := 0 }, 1, by decide +kernel⟩,
    ⟨(withBx fun b => { b with tenants := [(1, { domain := some 2, epoch := 3 })] }), { kind := .opened, domain := 2, epoch := 0, step := 0, layer := 0 }, 1, by decide +kernel⟩,
    ⟨(withBx fun b => { b with tenants := [(1, { domain := some 2, dspPosts := [{ layer := 0, n := 1, step := 0, epoch := 0 }] })] }), { kind := .opened, domain := 2, epoch := 0, step := 0, layer := 0 }, 1, { layer := 0, n := 1, step := 0, epoch := 0 }, by decide +kernel⟩,
    ⟨(withBx fun b => { b with tenants := [(1, { domain := some 2 })] }), { kind := .opened, domain := 2, epoch := 0, step := 0, layer := 0 }, 1, by decide +kernel⟩⟩

theorem wit_ChunkNoticesAtAKresia_1 :
    (∃ (s : State) (port : Nat) (k : ChunkPacket), ((s.dom k.domain).imageFor ((s.dom k.domain).fullStep k.step) = none ∨ k.epoch < (s.dom k.domain).epoch)) ∧
    (∃ (s : State) (port : Nat) (k : ChunkPacket) (g : Image), (s.dom k.domain).imageFor ((s.dom k.domain).fullStep k.step) = some g ∧ k.epoch = (s.dom k.domain).epoch ∧ k.coll < collCount g ∧ k.chunk < cChunks g k.coll ∧ (s.dom k.domain).lastTamp = none ∧ k.role ≠ 0 ∧ homeOf (s.dom k.domain).moves g k.coll k.chunk ((s.dom k.domain).fullStep k.step) = s.ksId) ∧
    (∃ (s : State) (node : Nat) (d : Nat) (e : Nat) (step : Nat) (c : Nat) (k : Nat) (r : Nat) (l : Nat) (code : Code), ((s.dom d).imageFor ((s.dom d).fullStep step) = none ∨ e < (s.dom d).epoch)) ∧
    (∃ (s : State) (node : Nat) (d : Nat) (e : Nat) (step : Nat) (c : Nat) (role : Nat) (base : Nat) (g : Image), (s.dom d).imageFor ((s.dom d).fullStep step) = some g ∧ e = (s.dom d).epoch ∧ c < collCount g ∧ 0 < cChunks g c) ∧
    (∃ (s : State) (node : Nat) (d : Nat) (e : Nat) (step : Nat) (c : Nat) (role : Nat) (base : Nat) (t : Nat), s.tenantOf d = some t ∧ (s.ten t).epoch ≤ e) ∧
    (∃ (s : State) (node : Nat) (d : Nat) (e : Nat) (step : Nat) (c : Nat) (k : Nat) (r : Nat) (l : Nat) (ix : Nat) (x : ChunkEntry) (g : Image), (s.dom d).imageFor ((s.dom d).fullStep step) = some g ∧ e = (s.dom d).epoch ∧ c < collCount g ∧ k < cChunks g c ∧ s.findChunk d c k ((s.dom d).fullStep step) true = some (ix, x) ∧ r < x.restart) ∧
    (∃ (s : State) (node : Nat) (d : Nat) (e : Nat) (step : Nat) (c : Nat) (k : Nat) (r : Nat) (l : Nat) (ix : Nat) (x : ChunkEntry) (g : Image), (s.dom d).imageFor ((s.dom d).fullStep step) = some g ∧ e = (s.dom d).epoch ∧ c < collCount g ∧ k < cChunks g c ∧ s.findChunk d c k ((s.dom d).fullStep step) true = some (ix, x) ∧ x.restart ≤ r ∧ s.isV2Member d l = false) ∧
    (∃ (s : State) (node : Nat) (d : Nat) (e : Nat) (step : Nat) (c : Nat) (k : Nat) (r : Nat) (l : Nat) (ix : Nat) (code : Code) (x : ChunkEntry) (g : Image), (s.dom d).imageFor ((s.dom d).fullStep step) = some g ∧ e = (s.dom d).epoch ∧ c < collCount g ∧ k < cChunks g c ∧ s.findChunk d c k ((s.dom d).fullStep step) false = some (ix, x) ∧ x.restart < r) ∧
    (∃ (s : State) (node : Nat) (d : Nat) (e : Nat) (step : Nat) (c : Nat) (k : Nat) (r : Nat) (l : Nat) (ix : Nat) (code : Code) (x : ChunkEntry) (g : Image), (s.dom d).imageFor ((s.dom d).fullStep step) = some g ∧ e = (s.dom d).epoch ∧ c < collCount g ∧ k < cChunks g c ∧ s.findChunk d c k ((s.dom d).fullStep step) false = some (ix, x) ∧ r ≤ x.restart) ∧
    (∃ (s : State) (node : Nat) (d : Nat) (e : Nat) (step : Nat) (c : Nat) (k : Nat) (r : Nat) (l : Nat) (ix : Nat) (x : ChunkEntry) (g : Image), (s.dom d).imageFor ((s.dom d).fullStep step) = some g ∧ e = (s.dom d).epoch ∧ c < collCount g ∧ k < cChunks g c ∧ s.findChunk d c k ((s.dom d).fullStep step) true = some (ix, x) ∧ x.restart ≤ r ∧ s.isV2Member d l = true) ∧
    (∃ (s : State) (node : Nat) (d : Nat) (e : Nat) (step : Nat) (c : Nat) (k : Nat) (r : Nat) (l : Nat) (code : Code) (g : Image), (s.dom d).imageFor ((s.dom d).fullStep step) = some g ∧ e = (s.dom d).epoch ∧ (collCount g ≤ c ∨ cChunks g c ≤ k)) ∧
    (∃ (s : State) (node : Nat) (d : Nat) (e : Nat) (step : Nat) (c : Nat) (role : Nat) (base : Nat) (g : Image), (s.dom d).imageFor ((s.dom d).fullStep step) = some g ∧ e = (s.dom d).epoch ∧ (collCount g ≤ c ∨ cChunks g c = 0)) ∧
    (∃ (s : State) (port : Nat) (k : ChunkPacket) (g : Image), (s.dom k.domain).imageFor ((s.dom k.domain).fullStep k.step) = some g ∧ k.epoch = (s.dom k.domain).epoch ∧ (collCount g ≤ k.coll ∨ cChunks g k.coll ≤ k.chunk)) ∧
    (∃ (s : State) (port : Nat) (k : ChunkPacket) (g : Image), (s.dom k.domain).imageFor ((s.dom k.domain).fullStep k.step) = some g ∧ k.epoch = (s.dom k.domain).epoch ∧ k.coll < collCount g ∧ k.chunk < cChunks g k.coll ∧ ((s.dom k.domain).lastTamp.all fun (st, _) => st ≤ (s.dom k.domain).fullStep k.step + 1) = true ∧ k.role = 0 ∧ s.isSpine = false ∧ port < 128 ∧ ksPlane (homeOf (s.dom k.domain).moves g k.coll k.chunk ((s.dom k.domain).fullStep k.step)) = ksPlane s.ksId) ∧
    (∃ (s : State) (port : Nat) (k : ChunkPacket) (g : Image) (st : Nat) (ep : Nat), (s.dom k.domain).imageFor ((s.dom k.domain).fullStep k.step) = some g ∧ k.epoch = (s.dom k.domain).epoch ∧ k.coll < collCount g ∧ k.chunk < cChunks g k.coll ∧ (s.dom k.domain).lastTamp = some (st, ep) ∧ (s.dom k.domain).fullStep k.step + 1 < st) ∧
    (∃ (s : State) (port : Nat) (k : ChunkPacket) (g : Image), (s.dom k.domain).imageFor ((s.dom k.domain).fullStep k.step) = some g ∧ k.epoch = (s.dom k.domain).epoch ∧ k.coll < collCount g ∧ k.chunk < cChunks g k.coll ∧ (s.dom k.domain).lastTamp = none ∧ (k.role ≠ 0 ∨ s.isSpine = true ∨ 128 ≤ port) ∧ homeOf (s.dom k.domain).moves g k.coll k.chunk ((s.dom k.domain).fullStep k.step) ≠ s.ksId) :=
  ⟨⟨State.reset, 3, { domain := 2, epoch := 0, step := 0, coll := 0, chunk := 0, role := 0, sender := 7, pkt := 0 }, by decide +kernel⟩,
    ⟨withKs fun k => { k with doms := [(2, { prog := some (imgOf 400 [(50, 1), (256, 5), (260, 0x40), (261, 1), (268, 1), (324, 8), (328, 8), (332, 4), (340, 1), (368, 1), (372, 64)]) })] }, 3, { domain := 2, epoch := 0, step := 0, coll := 0, chunk := 0, role := 1, sender := 7, pkt := 0 }, (imgOf 400 [(50, 1), (256, 5), (260, 0x40), (261, 1), (268, 1), (324, 8), (328, 8), (332, 4), (340, 1), (368, 1), (372, 64)]), by decide +kernel⟩,
    ⟨State.reset, 7, 2, 0, 0, 0, 0, 0, 0, 0x4008, by decide +kernel⟩,
    ⟨withKs fun k => { k with doms := [(2, { prog := some (imgOf 400 [(50, 1), (256, 5), (260, 0x40), (261, 1), (268, 1), (324, 8), (328, 8), (332, 4), (340, 1), (368, 1), (372, 64)]) })] }, 7, 2, 0, 0, 0, 1, 4, (imgOf 400 [(50, 1), (256, 5), (260, 0x40), (261, 1), (268, 1), (324, 8), (328, 8), (332, 4), (340, 1), (368, 1), (372, 64)]), by decide +kernel⟩,
    ⟨(withBx fun b => { b with tenants := [(1, { domain := some 2 })] }), 7, 2, 0, 0, 0, 1, 4, 1, by decide +kernel⟩,
    ⟨withKs fun k => { k with doms := [(2, { prog := some (imgOf 400 [(50, 1), (256, 5), (260, 0x40), (261, 1), (268, 1), (324, 8), (328, 8), (332, 4), (340, 1), (368, 1), (372, 64)]) })], chunks := [(9, { domain := 2, coll := 0, chunk := 0, epoch := 0, step := 0, role := 1, opened := 0, restart := 2 })] }, 7, 2, 0, 0, 0, 0, 1, 8, 9, { domain := 2, coll := 0, chunk := 0, epoch := 0, step := 0, role := 1, opened := 0, restart := 2 }, (imgOf 400 [(50, 1), (256, 5), (260, 0x40), (261, 1), (268, 1), (324, 8), (328, 8), (332, 4), (340, 1), (368, 1), (372, 64)]), by decide +kernel⟩,
    ⟨withKs fun k => { k with doms := [(2, { prog := some (imgOf 400 [(50, 1), (256, 5), (260, 0x40), (261, 1), (268, 1), (324, 8), (328, 8), (332, 4), (340, 1), (368, 1), (372, 64)]) })], chunks := [(9, { domain := 2, coll := 0, chunk := 0, epoch := 0, step := 0, role := 1, opened := 0 })] }, 7, 2, 0, 0, 0, 0, 1, 8, 9, { domain := 2, coll := 0, chunk := 0, epoch := 0, step := 0, role := 1, opened := 0 }, (imgOf 400 [(50, 1), (256, 5), (260, 0x40), (261, 1), (268, 1), (324, 8), (328, 8), (332, 4), (340, 1), (368, 1), (372, 64)]), by decide +kernel⟩,
    ⟨withKs fun k => { k with doms := [(2, { prog := some (imgOf 400 [(50, 1), (256, 5), (260, 0x40), (261, 1), (268, 1), (324, 8), (328, 8), (332, 4), (340, 1), (368, 1), (372, 64)]) })], chunks := [(9, { domain := 2, coll := 0, chunk := 0, epoch := 0, step := 0, role := 0, opened := 0 })] }, 7, 2, 0, 0, 0, 0, 1, 8, 9, 0x4008, { domain := 2, coll := 0, chunk := 0, epoch := 0, step := 0, role := 0, opened := 0 }, (imgOf 400 [(50, 1), (256, 5), (260, 0x40), (261, 1), (268, 1), (324, 8), (328, 8), (332, 4), (340, 1), (368, 1), (372, 64)]), by decide +kernel⟩,
    ⟨withKs fun k => { k with doms := [(2, { prog := some (imgOf 400 [(50, 1), (256, 5), (260, 0x40), (261, 1), (268, 1), (324, 8), (328, 8), (332, 4), (340, 1), (368, 1), (372, 64)]) })], chunks := [(9, { domain := 2, coll := 0, chunk := 0, epoch := 0, step := 0, role := 0, opened := 0, restart := 1 })] }, 7, 2, 0, 0, 0, 0, 1, 8, 9, 0x4008, { domain := 2, coll := 0, chunk := 0, epoch := 0, step := 0, role := 0, opened := 0, restart := 1 }, (imgOf 400 [(50, 1), (256, 5), (260, 0x40), (261, 1), (268, 1), (324, 8), (328, 8), (332, 4), (340, 1), (368, 1), (372, 64)]), by decide +kernel⟩,
    ⟨withKs fun k => { k with doms := [(2, { prog := some (imgOf 400 [(50, 1), (256, 5), (260, 0x40), (261, 1), (268, 1), (324, 8), (328, 8), (332, 4), (340, 1), (368, 1), (372, 64)]), positions := [{ e := ⟨8, 0, 3, 0, true⟩ }] })], chunks := [(9, { domain := 2, coll := 0, chunk := 0, epoch := 0, step := 0, role := 1, opened := 0 })] }, 7, 2, 0, 0, 0, 0, 1, 8, 9, { domain := 2, coll := 0, chunk := 0, epoch := 0, step := 0, role := 1, opened := 0 }, (imgOf 400 [(50, 1), (256, 5), (260, 0x40), (261, 1), (268, 1), (324, 8), (328, 8), (332, 4), (340, 1), (368, 1), (372, 64)]), by decide +kernel⟩,
    ⟨withKs fun k => { k with doms := [(2, { prog := some (imgOf 400 [(50, 1), (256, 5), (260, 0x40), (261, 1), (268, 1), (324, 8), (328, 8), (332, 4), (340, 1), (368, 1), (372, 64)]) })] }, 7, 2, 0, 0, 5, 0, 1, 8, 0x4008, (imgOf 400 [(50, 1), (256, 5), (260, 0x40), (261, 1), (268, 1), (324, 8), (328, 8), (332, 4), (340, 1), (368, 1), (372, 64)]), by decide +kernel⟩,
    ⟨withKs fun k => { k with doms := [(2, { prog := some (imgOf 400 [(50, 1), (256, 5), (260, 0x40), (261, 1), (268, 1), (324, 8), (328, 8), (332, 4), (340, 1), (368, 1), (372, 64)]) })] }, 7, 2, 0, 0, 5, 1, 4, (imgOf 400 [(50, 1), (256, 5), (260, 0x40), (261, 1), (268, 1), (324, 8), (328, 8), (332, 4), (340, 1), (368, 1), (372, 64)]), by decide +kernel⟩,
    ⟨withKs fun k => { k with doms := [(2, { prog := some (imgOf 400 [(50, 1), (256, 5), (260, 0x40), (261, 1), (268, 1), (324, 8), (328, 8), (332, 4), (340, 1), (368, 1), (372, 64)]) })] }, 3, { domain := 2, epoch := 0, step := 0, coll := 5, chunk := 0, role := 0, sender := 7, pkt := 0 }, (imgOf 400 [(50, 1), (256, 5), (260, 0x40), (261, 1), (268, 1), (324, 8), (328, 8), (332, 4), (340, 1), (368, 1), (372, 64)]), by decide +kernel⟩,
    ⟨withKs fun k => { k with doms := [(2, { prog := some (imgOf 400 [(50, 1), (256, 5), (260, 0x40), (261, 1), (268, 1), (324, 8), (328, 8), (332, 4), (340, 1), (368, 1), (372, 64)]) })] }, 3, { domain := 2, epoch := 0, step := 0, coll := 0, chunk := 0, role := 0, sender := 7, pkt := 0 }, (imgOf 400 [(50, 1), (256, 5), (260, 0x40), (261, 1), (268, 1), (324, 8), (328, 8), (332, 4), (340, 1), (368, 1), (372, 64)]), by decide +kernel⟩,
    ⟨withKs fun k => { k with doms := [(2, { prog := some (imgOf 400 [(50, 1), (256, 5), (260, 0x40), (261, 1), (268, 1), (324, 8), (328, 8), (332, 4), (340, 1), (368, 1), (372, 64)]), lastTamp := some (4, 0) })] }, 3, { domain := 2, epoch := 0, step := 0, coll := 0, chunk := 0, role := 0, sender := 7, pkt := 0 }, (imgOf 400 [(50, 1), (256, 5), (260, 0x40), (261, 1), (268, 1), (324, 8), (328, 8), (332, 4), (340, 1), (368, 1), (372, 64)]), 4, 0, by decide +kernel⟩,
    ⟨((withKs fun k => { k with doms := [(2, { prog := some (imgOf 400 [(50, 1), (256, 5), (260, 0x40), (261, 1), (268, 1), (324, 8), (328, 8), (332, 4), (340, 1), (368, 1), (372, 64)]) })] }).wr .kresia 0x000004 3), 3, { domain := 2, epoch := 0, step := 0, coll := 0, chunk := 0, role := 1, sender := 7, pkt := 0 }, (imgOf 400 [(50, 1), (256, 5), (260, 0x40), (261, 1), (268, 1), (324, 8), (328, 8), (332, 4), (340, 1), (368, 1), (372, 64)]), by decide +kernel⟩⟩

theorem wit_ChunkNoticesAtAKresia_2 :
    (∃ (s : State) (m : HomeMove), s.tenantOf m.domain = none) ∧
    (∃ (s : State) (m : HomeMove) (t : Nat), s.tenantOf m.domain = some t ∧ m.kind = 0) ∧
    (∃ (s : State) (m : HomeMove), (s.dom m.domain).isCrown = false ∧ m.kind = 0 ∧ s.ks.chunks = []) ∧
    (∃ (s : State) (m : HomeMove), (s.dom m.domain).isCrown = true) ∧
    (∃ (s : State) (m : HomeMove), (s.dom m.domain).isCrown = false ∧ m.kind ≠ 0) ∧
    (∃ (s : State) (m : HomeMove) (t : Nat), s.tenantOf m.domain = some t ∧ m.kind ≠ 0) ∧
    (∃ (s : State) (i : Nat) (sender : Nat) (x : ChunkEntry) (u : PartRun) (g : Image), FMap.find? s.ks.chunks i = some x ∧ FMap.find? x.parts sender = some u ∧ (s.dom x.domain).imageFor x.step = some g ∧ x.state = 1 ∧ ((cTimeoutUs g x.coll * 65536000 : Nat) : Int) ≤ Raw.diff (s.raw .kresia) u.lastRaw ∧ x.role = 1) ∧
    (∃ (s : State) (i : Nat) (sender : Nat) (x : ChunkEntry) (u : PartRun) (g : Image), FMap.find? s.ks.chunks i = some x ∧ FMap.find? x.parts sender = some u ∧ (s.dom x.domain).imageFor x.step = some g ∧ (x.state ≠ 1 ∨ Raw.diff (s.raw .kresia) u.lastRaw < ((cTimeoutUs g x.coll * 65536000 : Nat) : Int))) ∧
    (∃ (s : State) (i : Nat) (sender : Nat) (x : ChunkEntry) (u : PartRun) (g : Image), FMap.find? s.ks.chunks i = some x ∧ FMap.find? x.parts sender = some u ∧ (s.dom x.domain).imageFor x.step = some g ∧ x.state = 1 ∧ ((cTimeoutUs g x.coll * 65536000 : Nat) : Int) ≤ Raw.diff (s.raw .kresia) u.lastRaw ∧ x.role ≠ 1) ∧
    (∃ (s : State) (i : Nat) (x : ChunkEntry) (g : Image), FMap.find? s.ks.chunks i = some x ∧ (s.dom x.domain).imageFor x.step = some g ∧ (x.waiting = false ∨ s.findSlots (slotsNeeded g x.coll x.chunk x.role) = none)) ∧
    (∃ (s : State) (i : Nat) (a : Nat) (x : ChunkEntry) (g : Image), FMap.find? s.ks.chunks i = some x ∧ (s.dom x.domain).imageFor x.step = some g ∧ x.waiting = true ∧ s.findSlots (slotsNeeded g x.coll x.chunk x.role) = some a) ∧
    (∃ (s : State) (i : Nat), FMap.find? s.ks.chunks i = none) ∧
    (∃ (s : State) (d : Nat) (c : Nat) (role : Nat) (step : Nat) (g : Image), (s.dom d).imageFor step = some g ∧ (s.window d c role step).noted < s.baseOf (s.dom d) g d c role step ∧ (s.window d c role step).lastNote = none) ∧
    (∃ (s : State) (d : Nat) (c : Nat) (role : Nat) (step : Nat), (s.dom d).imageFor step = none) :=
  ⟨⟨State.reset, ⟨2, 1, 0, 0, 5, some 3⟩, by decide +kernel⟩,
    ⟨(withBx fun b => { b with tenants := [(1, { domain := some 2 })] }), ⟨2, 0, 0, 0, 5, some 3⟩, 1, by decide +kernel⟩,
    ⟨State.reset, ⟨2, 0, 0, 0, 5, some 3⟩, by decide +kernel⟩,
    ⟨withKs fun k => { k with doms := [(2, { isCrown := true })] }, ⟨2, 1, 0, 0, 5, some 3⟩, by decide +kernel⟩,
    ⟨State.reset, ⟨2, 1, 0, 0, 5, some 3⟩, by decide +kernel⟩,
    ⟨(withBx fun b => { b with tenants := [(1, { domain := some 2 })] }), ⟨2, 1, 0, 0, 5, some 3⟩, 1, by decide +kernel⟩,
    ⟨withKs fun k => { k with doms := [(2, { prog := some (imgOf 400 [(50, 1), (256, 5), (260, 0x40), (261, 1), (268, 1), (324, 8), (328, 8), (332, 4), (340, 1), (368, 1), (372, 64)]) })], c := { k.c with time := { raw := 65536000000 } }, chunks := [(9, { domain := 2, coll := 0, chunk := 0, epoch := 0, step := 0, role := 1, opened := 0, parts := [(7, { lastRaw := 0, cover := [], kind := 0, port := 0, packets := 0, bytes := 0 })] })] }, 9, 7, { domain := 2, coll := 0, chunk := 0, epoch := 0, step := 0, role := 1, opened := 0, parts := [(7, { lastRaw := 0, cover := [], kind := 0, port := 0, packets := 0, bytes := 0 })] }, { lastRaw := 0, cover := [], kind := 0, port := 0, packets := 0, bytes := 0 }, (imgOf 400 [(50, 1), (256, 5), (260, 0x40), (261, 1), (268, 1), (324, 8), (328, 8), (332, 4), (340, 1), (368, 1), (372, 64)]), by decide +kernel⟩,
    ⟨withKs fun k => { k with doms := [(2, { prog := some (imgOf 400 [(50, 1), (256, 5), (260, 0x40), (261, 1), (268, 1), (324, 8), (328, 8), (332, 4), (340, 1), (368, 1), (372, 64)]) })], chunks := [(9, { domain := 2, coll := 0, chunk := 0, epoch := 0, step := 0, role := 1, opened := 0, parts := [(7, { lastRaw := 0, cover := [], kind := 0, port := 0, packets := 0, bytes := 0 })] })] }, 9, 7, { domain := 2, coll := 0, chunk := 0, epoch := 0, step := 0, role := 1, opened := 0, parts := [(7, { lastRaw := 0, cover := [], kind := 0, port := 0, packets := 0, bytes := 0 })] }, { lastRaw := 0, cover := [], kind := 0, port := 0, packets := 0, bytes := 0 }, (imgOf 400 [(50, 1), (256, 5), (260, 0x40), (261, 1), (268, 1), (324, 8), (328, 8), (332, 4), (340, 1), (368, 1), (372, 64)]), by decide +kernel⟩,
    ⟨withKs fun k => { k with doms := [(2, { prog := some (imgOf 400 [(50, 1), (256, 5), (260, 0x40), (261, 1), (268, 1), (324, 8), (328, 8), (332, 4), (340, 1), (368, 1), (372, 64)]) })], c := { k.c with time := { raw := 65536000000 } }, chunks := [(9, { domain := 2, coll := 0, chunk := 0, epoch := 0, step := 0, role := 0, opened := 0, parts := [(7, { lastRaw := 0, cover := [], kind := 0, port := 0, packets := 0, bytes := 0 })] })] }, 9, 7, { domain := 2, coll := 0, chunk := 0, epoch := 0, step := 0, role := 0, opened := 0, parts := [(7, { lastRaw := 0, cover := [], kind := 0, port := 0, packets := 0, bytes := 0 })] }, { lastRaw := 0, cover := [], kind := 0, port := 0, packets := 0, bytes := 0 }, (imgOf 400 [(50, 1), (256, 5), (260, 0x40), (261, 1), (268, 1), (324, 8), (328, 8), (332, 4), (340, 1), (368, 1), (372, 64)]), by decide +kernel⟩,
    ⟨withKs fun k => { k with doms := [(2, { prog := some (imgOf 400 [(50, 1), (256, 5), (260, 0x40), (261, 1), (268, 1), (324, 8), (328, 8), (332, 4), (340, 1), (368, 1), (372, 64)]) })], chunks := [(9, { domain := 2, coll := 0, chunk := 0, epoch := 0, step := 0, role := 1, opened := 0 })] }, 9, { domain := 2, coll := 0, chunk := 0, epoch := 0, step := 0, role := 1, opened := 0 }, (imgOf 400 [(50, 1), (256, 5), (260, 0x40), (261, 1), (268, 1), (324, 8), (328, 8), (332, 4), (340, 1), (368, 1), (372, 64)]), by decide +kernel⟩,
    ⟨withKs fun k => { k with doms := [(2, { prog := some (imgOf 400 [(50, 1), (256, 5), (260, 0x40), (261, 1), (268, 1), (324, 8), (328, 8), (332, 4), (340, 1), (368, 1), (372, 64)]) })], chunks := [(9, { domain := 2, coll := 0, chunk := 0, epoch := 0, step := 0, role := 1, opened := 0, waiting := true })] }, 9, 0, { domain := 2, coll := 0, chunk := 0, epoch := 0, step := 0, role := 1, opened := 0, waiting := true }, (imgOf 400 [(50, 1), (256, 5), (260, 0x40), (261, 1), (268, 1), (324, 8), (328, 8), (332, 4), (340, 1), (368, 1), (372, 64)]), by decide +kernel⟩,
    ⟨State.reset, 9, by decide +kernel⟩,
    ⟨withKs fun k => { k with doms := [(2, { prog := some (imgOf 400 [(50, 1), (256, 5), (260, 0x40), (261, 1), (268, 1), (324, 8), (328, 8), (332, 4), (340, 1), (368, 1), (372, 64)]) })], windows := [(winKey 2 0 1 0, { closed := [(0, 0)] })] }, 2, 0, 1, 0, (imgOf 400 [(50, 1), (256, 5), (260, 0x40), (261, 1), (268, 1), (324, 8), (328, 8), (332, 4), (340, 1), (368, 1), (372, 64)]), by decide +kernel⟩,
    ⟨State.reset, 2, 0, 1, 0, by decide +kernel⟩⟩

theorem wit_SelectedViewsAndReads :
    (∃ (s : State) (w : Word), (s.ks.chunks.any fun (_, e) => e.slotFirst ≤ w.get 0 22 && w.get 0 22 < e.slotFirst + e.slotCount) = false) ∧
    (∃ (s : State) (w : Word) (i : Nat) (e : ChunkEntry), List.find? (fun ((_, e) : Nat × ChunkEntry) => e.slotFirst ≤ w.get 0 22 && w.get 0 22 < e.slotFirst + e.slotCount) s.ks.chunks = some (i, e) ∧ (FMap.getD e.slots (w.get 0 22 - e.slotFirst) {}).f64 = [] ∧ e.state = 1) ∧
    (∃ (s : State) (w : Word), FMap.find? s.ks.chunks (w.get 0 14) = none) ∧
    (∃ (s : State) (w : Word) (e : ChunkEntry), FMap.find? s.ks.chunks (w.get 0 14) = some e) ∧
    (∃ (s : State) (w : Word) (h : DspHome) (g : Image), s.ks.dspHomes = [h] ∧ h.domain = s.fld .kresia 0x170100 0 16 ∧ h.layer = (s.rd .kresia 0x170104).toNat ∧ h.group = s.fld .kresia 0x170108 0 20 ∧ (s.dom h.domain).imageFor h.step = some g) ∧
    (∃ (s : State) (w : Word), (s.ks.dspHomes.any fun h => h.domain = s.fld .kresia 0x170100 0 16 && h.layer = (s.rd .kresia 0x170104).toNat && h.group = s.fld .kresia 0x170108 0 20) = false) ∧
    (∃ (s : State) (a : Nat) (v : Nat), s.rcValue a = some v) ∧
    (∃ (s : State) (a : Nat), s.rcValue a = none) ∧
    (∃ (s : State) (v : View) (a : Nat), (v = .core ∨ v = .priv) ∧ a ∈ wideCounters ∧ ctrBankAt .kresia v a = none) ∧
    (∃ (s : State) (p : Part) (v : View) (a : Nat) (k : Nat) (off : Nat) (i : Nat), ctrBankAt p v a = some (k, off) ∧ valueAt p k off = some i ∧ (s.bank p k).latched = none) ∧
    (∃ (s : State) (p : Part) (v : View) (a : Nat) (k : Nat) (off : Nat) (i : Nat), ctrBankAt p v a = some (k, off) ∧ valueAt p k off = some i ∧ (s.bank p k).latched ≠ none) ∧
    (∃ (s : State) (v : View) (a : Nat), ctrBankAt .baxel v a = none ∧ s.beyondWindow .baxel v a = none) ∧
    (∃ (s : State) (v : View) (a : Nat) (n : Nat), ctrBankAt .baxel v a = none ∧ s.beyondWindow .baxel v a = some n) ∧
    (∃ (s : State) (v : View) (a : Nat), ctrBankAt .kresia v a = none ∧ (a ∉ wideCounters ∨ (v ≠ .core ∧ v ≠ .priv))) ∧
    (∃ (s : State) (p : Part) (v : View) (a : Nat) (k : Nat) (off : Nat), ctrBankAt p v a = some (k, off) ∧ valueAt p k off = none) :=
  ⟨⟨State.reset, 77, by decide +kernel⟩,
    ⟨withKs fun k => { k with chunks := [(9, { domain := 2, coll := 0, chunk := 0, epoch := 0, step := 0, role := 1, opened := 0, slotFirst := 4, slotCount := 2 })] }, 5, 9, { domain := 2, coll := 0, chunk := 0, epoch := 0, step := 0, role := 1, opened := 0, slotFirst := 4, slotCount := 2 }, by decide +kernel⟩,
    ⟨State.reset, 77, by decide +kernel⟩,
    ⟨withKs fun k => { k with chunks := [(9, { domain := 2, coll := 0, chunk := 0, epoch := 0, step := 0, role := 1, opened := 0 })] }, 9, { domain := 2, coll := 0, chunk := 0, epoch := 0, step := 0, role := 1, opened := 0 }, by decide +kernel⟩,
    ⟨((withKs fun k => { k with doms := [(2, { prog := some [] })], dspHomes := [{ domain := 2, layer := 0, group := 0, step := 0, epoch := 0 }] }).wr .kresia 0x170100 2), 3, { domain := 2, layer := 0, group := 0, step := 0, epoch := 0 }, [], by decide +kernel⟩,
    ⟨State.reset, 3, by decide +kernel⟩,
    ⟨State.reset, 0x150004, 0, by decide +kernel⟩,
    ⟨State.reset, 0, by decide +kernel⟩,
    ⟨State.reset, .priv, wideCounters.head!, by decide +kernel⟩,
    ⟨State.reset, .kresia, .priv, 0x1D0110, 0, 0x110, 0, by decide +kernel⟩,
    ⟨(withKs fun k => { k with c := { k.c with ctr := { banks := [(0, { latched := some ([], []) })] } } }), .kresia, .priv, 0x1D0110, 0, 0x110, 0, by decide +kernel⟩,
    ⟨State.reset, .tenant 1, 0x8800, by decide +kernel⟩,
    ⟨State.reset, .tenant 1, tPage 1 0x280, 1, by decide +kernel⟩,
    ⟨State.reset, .priv, 4, by decide +kernel⟩,
    ⟨State.reset, .kresia, .priv, 0x1D0000, 0, 0, by decide +kernel⟩⟩

theorem wit_BlocksRunAndCommit :
    (∃ (s : State) (j : BlockJob) (i : Nat) (e : ChunkEntry), ((s.ks.blockQ.filter fun j => j.waited && !j.running).find? s.blockFree) = some j ∧ s.jobEntry j = some (i, e)) ∧
    (∃ (s : State), ((s.ks.blockQ.filter fun j => j.waited && !j.running).find? s.blockFree) = none ∧ (64 ≤ (s.ks.blockQ.filter fun j => j.running || j.waited).length ∨ firstJob (s.ks.blockQ.filter fun j => !j.running && !j.waited) = none)) ∧
    (∃ (s : State) (j : BlockJob) (i : Nat) (e : ChunkEntry), ((s.ks.blockQ.filter fun j => j.waited && !j.running).find? s.blockFree) = none ∧ (s.ks.blockQ.filter fun j => j.running || j.waited).length < 64 ∧ firstJob (s.ks.blockQ.filter fun j => !j.running && !j.waited) = some j ∧ s.blockFree j = true ∧ s.jobEntry j = some (i, e)) ∧
    (∃ (s : State) (j : BlockJob), ((s.ks.blockQ.filter fun j => j.waited && !j.running).find? s.blockFree) = none ∧ (s.ks.blockQ.filter fun j => j.running || j.waited).length < 64 ∧ firstJob (s.ks.blockQ.filter fun j => !j.running && !j.waited) = some j ∧ s.blockFree j = false) ∧
    (∃ (s : State) (d : Nat) (c : Nat) (k : Nat), s.runningJob d c k = none) ∧
    (∃ (s : State) (d : Nat) (c : Nat) (k : Nat) (j : BlockJob), s.runningJob d c k = some j ∧ (s.commitBlock j).jobEntry j = none) ∧
    (∃ (s : State) (d : Nat) (c : Nat) (k : Nat) (j : BlockJob) (i : Nat) (e : ChunkEntry), s.runningJob d c k = some j ∧ (s.commitBlock j).jobEntry j = some (i, e)) ∧
    (∃ (s : State) (d : Nat) (c : Nat) (k : Nat) (j : BlockJob) (i : Nat) (e : ChunkEntry) (bs : List Byte), s.runningJob d c k = some j ∧ s.jobEntry j = some (i, e)) ∧
    (∃ (s : State) (d : Nat) (c : Nat) (k : Nat) (j : BlockJob) (i : Nat) (e : ChunkEntry), s.runningJob d c k = some j ∧ s.jobEntry j = some (i, e)) :=
  ⟨⟨withKs fun k => { k with blockQ := [{ domain := 2, coll := 0, chunk := 0, step := 0, entered := 0, waited := true }], chunks := [(9, { domain := 2, coll := 0, chunk := 0, epoch := 0, step := 0, role := 1, opened := 0, state := 2 })] }, { domain := 2, coll := 0, chunk := 0, step := 0, entered := 0, waited := true }, 9, { domain := 2, coll := 0, chunk := 0, epoch := 0, step := 0, role := 1, opened := 0, state := 2 }, by decide +kernel⟩,
    ⟨State.reset, by decide +kernel⟩,
    ⟨withKs fun k => { k with blockQ := [{ domain := 2, coll := 0, chunk := 0, step := 0, entered := 0 }], chunks := [(9, { domain := 2, coll := 0, chunk := 0, epoch := 0, step := 0, role := 1, opened := 0, state := 2 })] }, { domain := 2, coll := 0, chunk := 0, step := 0, entered := 0 }, 9, { domain := 2, coll := 0, chunk := 0, epoch := 0, step := 0, role := 1, opened := 0, state := 2 }, by decide +kernel⟩,
    ⟨withKs fun k => { k with blockQ := [{ domain := 2, coll := 0, chunk := 0, step := 0, entered := 0 }], ckpts := [{ domain := 2, coll := 0, step := 0, target := 0, entry := 0, left := [0] }] }, { domain := 2, coll := 0, chunk := 0, step := 0, entered := 0 }, by decide +kernel⟩,
    ⟨State.reset, 2, 0, 0, by decide +kernel⟩,
    ⟨withKs fun k => { k with blockQ := [{ domain := 2, coll := 0, chunk := 0, step := 0, entered := 0, running := true }] }, 2, 0, 0, { domain := 2, coll := 0, chunk := 0, step := 0, entered := 0, running := true }, by decide +kernel⟩,
    ⟨withKs fun k => { k with blockQ := [{ domain := 2, coll := 0, chunk := 0, step := 0, entered := 0, running := true }], chunks := [(9, { domain := 2, coll := 0, chunk := 0, epoch := 0, step := 0, role := 1, opened := 0, state := 2 })] }, 2, 0, 0, { domain := 2, coll := 0, chunk := 0, step := 0, entered := 0, running := true }, 9, { domain := 2, coll := 0, chunk := 0, epoch := 0, step := 0, role := 1, opened := 0, state := 2 }, by decide +kernel⟩,
    ⟨withKs fun k => { k with blockQ := [{ domain := 2, coll := 0, chunk := 0, step := 0, entered := 0, running := true }], chunks := [(9, { domain := 2, coll := 0, chunk := 0, epoch := 0, step := 0, role := 1, opened := 0, state := 2 })] }, 2, 0, 0, { domain := 2, coll := 0, chunk := 0, step := 0, entered := 0, running := true }, 9, { domain := 2, coll := 0, chunk := 0, epoch := 0, step := 0, role := 1, opened := 0, state := 2 }, [], by decide +kernel⟩,
    ⟨withKs fun k => { k with blockQ := [{ domain := 2, coll := 0, chunk := 0, step := 0, entered := 0, running := true }], chunks := [(9, { domain := 2, coll := 0, chunk := 0, epoch := 0, step := 0, role := 1, opened := 0, state := 2 })] }, 2, 0, 0, { domain := 2, coll := 0, chunk := 0, step := 0, entered := 0, running := true }, 9, { domain := 2, coll := 0, chunk := 0, epoch := 0, step := 0, role := 1, opened := 0, state := 2 }, by decide +kernel⟩⟩

theorem wit_DispatchAtAKresiaAndReadData_1 :
    (∃ (s : State) (x : DspPacket), s.isFenced x.sender = true) ∧
    (∃ (s : State) (n : DspNote), ((s.dom n.domain).imageFor n.step = none ∨ n.epoch < (s.dom n.domain).epoch)) ∧
    (∃ (s : State) (x : DspPacket), s.isFenced x.sender = false ∧ ((s.dom x.domain).imageFor x.step = none ∨ x.epoch < (s.dom x.domain).epoch)) ∧
    (∃ (s : State) (x : DspPacket) (g : Image), s.isFenced x.sender = false ∧ (s.dom x.domain).imageFor x.step = some g ∧ x.epoch = (s.dom x.domain).epoch) ∧
    (∃ (s : State) (x : DspPacket) (g : Image), (s.dom x.domain).imageFor x.step = some g ∧ x.epoch = (s.dom x.domain).epoch) ∧
    (∃ (s : State) (x : DspPacket) (g : Image) (i : Nat), s.isFenced x.sender = false ∧ (s.dom x.domain).imageFor x.step = some g ∧ x.epoch = (s.dom x.domain).epoch ∧ (s.dom x.domain).posOf x.sender = some i) ∧
    (∃ (s : State) (x : DspPacket) (g : Image), s.isFenced x.sender = false ∧ (s.dom x.domain).imageFor x.step = some g ∧ x.epoch = (s.dom x.domain).epoch ∧ (s.dom x.domain).posOf x.sender = none) ∧
    (∃ (s : State) (n : DspNote) (g : Image), (s.dom n.domain).imageFor n.step = some g ∧ n.epoch = (s.dom n.domain).epoch ∧ lHome (s.dom n.domain).moves g n.layer n.group n.step ≠ s.ksId) ∧
    (∃ (s : State) (n : DspNote) (g : Image), (s.dom n.domain).imageFor n.step = some g ∧ n.epoch = (s.dom n.domain).epoch ∧ lHome (s.dom n.domain).moves g n.layer n.group n.step = s.ksId ∧ s.dspHome n.domain n.layer n.group n.step = none) ∧
    (∃ (s : State) (n : DspNote) (g : Image) (h : DspHome), (s.dom n.domain).imageFor n.step = some g ∧ n.epoch = (s.dom n.domain).epoch ∧ lHome (s.dom n.domain).moves g n.layer n.group n.step = s.ksId ∧ s.dspHome n.domain n.layer n.group n.step = some h ∧ h.restart ≤ n.restart) ∧
    (∃ (s : State) (n : DspNote) (g : Image) (h : DspHome), (s.dom n.domain).imageFor n.step = some g ∧ n.epoch = (s.dom n.domain).epoch ∧ lHome (s.dom n.domain).moves g n.layer n.group n.step = s.ksId ∧ s.dspHome n.domain n.layer n.group n.step = some h ∧ n.restart < h.restart) ∧
    (∃ (s : State) (p : DspPlacements), s.dspLeaf p.domain p.layer p.step = none) ∧
    (∃ (s : State) (p : DspPlacements) (l : DspLeaf), s.dspLeaf p.domain p.layer p.step = some l ∧ ((s.dom p.domain).imageFor p.step = none ∨ p.epoch < (s.dom p.domain).epoch ∨ p.group ∈ l.groups)) ∧
    (∃ (s : State) (p : DspPlacements) (g : Image) (l : DspLeaf), s.dspLeaf p.domain p.layer p.step = some l ∧ (s.dom p.domain).imageFor p.step = some g ∧ (s.dom p.domain).epoch ≤ p.epoch ∧ p.group ∉ l.groups) ∧
    (∃ (s : State), s.ks.dspQ = []) ∧
    (∃ (s : State) (k : DspKey) (r : List DspKey), s.ks.dspQ = k :: r) :=
  ⟨⟨withKs fun k => { k with fences := [(7, (1, true))] }, { domain := 2, epoch := 0, step := 0, layer := 0, phase := 1, sender := 7, position := 0 }, by decide +kernel⟩,
    ⟨State.reset, { kind := .lost, domain := 2, epoch := 0, step := 0, layer := 0 }, by decide +kernel⟩,
    ⟨State.reset, { domain := 2, epoch := 0, step := 0, layer := 0, phase := 1, sender := 7, position := 0 }, by decide +kernel⟩,
    ⟨withKs fun k => { k with doms := [(2, { prog := some [] })] }, { domain := 2, epoch := 0, step := 0, layer := 0, phase := 1, sender := 7, position := 0 }, [], by decide +kernel⟩,
    ⟨withKs fun k => { k with doms := [(2, { prog := some [] })] }, { domain := 2, epoch := 0, step := 0, layer := 0, phase := 1, sender := 7, position := 0 }, [], by decide +kernel⟩,
    ⟨withKs fun k => { k with doms := [(2, { prog := some [], positions := [{ e := ⟨7, 0, 3, 0, false⟩ }] })] }, { domain := 2, epoch := 0, step := 0, layer := 0, phase := 1, sender := 7, position := 0 }, [], 0, by decide +kernel⟩,
    ⟨withKs fun k => { k with doms := [(2, { prog := some [] })] }, { domain := 2, epoch := 0, step := 0, layer := 0, phase := 1, sender := 7, position := 0 }, [], by decide +kernel⟩,
    ⟨withKs fun k => { k with doms := [(2, { prog := some [], moves := [⟨1, 0, 0, 5, 0⟩] })] }, { kind := .lost, domain := 2, epoch := 0, step := 0, layer := 0 }, [], by decide +kernel⟩,
    ⟨withKs fun k => { k with doms := [(2, { prog := some [] })] }, { kind := .lost, domain := 2, epoch := 0, step := 0, layer := 0 }, [], by decide +kernel⟩,
    ⟨withKs fun k => { k with doms := [(2, { prog := some [] })], dspHomes := [{ domain := 2, layer := 0, group := 0, step := 0, epoch := 0 }] }, { kind := .lost, domain := 2, epoch := 0, step := 0, layer := 0 }, [], { domain := 2, layer := 0, group := 0, step := 0, epoch := 0 }, by decide +kernel⟩,
    ⟨withKs fun k => { k with doms := [(2, { prog := some [] })], dspHomes := [{ domain := 2, layer := 0, group := 0, step := 0, epoch := 0, restart := 1 }] }, { kind := .lost, domain := 2, epoch := 0, step := 0, layer := 0 }, [], { domain := 2, layer := 0, group := 0, step := 0, epoch := 0, restart := 1 }, by decide +kernel⟩,
    ⟨State.reset, ⟨2, 0, 0, 0, 0, 0, []⟩, by decide +kernel⟩,
    ⟨withKs fun k => { k with doms := [(2, {  })], dspLeaves := [{ domain := 2, layer := 0, step := 0, epoch := 0, entry := 0 }] }, ⟨2, 0, 0, 0, 0, 0, []⟩, { domain := 2, layer := 0, step := 0, epoch := 0, entry := 0 }, by decide +kernel⟩,
    ⟨withKs fun k => { k with doms := [(2, { prog := some [] })], dspLeaves := [{ domain := 2, layer := 0, step := 0, epoch := 0, entry := 0 }] }, ⟨2, 0, 0, 0, 0, 0, []⟩, [], { domain := 2, layer := 0, step := 0, epoch := 0, entry := 0 }, by decide +kernel⟩,
    ⟨State.reset, by decide +kernel⟩,
    ⟨withKs fun q => { q with dspQ := [⟨2, 0, 0, 0⟩] }, ⟨2, 0, 0, 0⟩, [], by decide +kernel⟩⟩

theorem wit_DispatchAtAKresiaAndReadData_2 :
    (∃ (s : State) (port : Nat) (id : Nat) (data : List Byte) (err : Bool), FMap.find? s.bx.reads (port * 4096 + id) = none) ∧
    (∃ (s : State) (port : Nat) (id : Nat) (data : List Byte) (err : Bool) (r : MemReq), FMap.find? s.bx.reads (port * 4096 + id) = some r ∧ (match r.use with | .job _ _ => true | _ => false) = false ∧ (err = false ∨ r.timedOut = true)) ∧
    (∃ (s : State) (port : Nat) (id : Nat) (data : List Byte) (r : MemReq), FMap.find? s.bx.reads (port * 4096 + id) = some r ∧ r.use = .boot ∧ r.timedOut = false) ∧
    (∃ (s : State) (port : Nat) (id : Nat) (j : Nat) (line : Nat) (data : List Byte) (r : MemReq), FMap.find? s.bx.reads (port * 4096 + id) = some r ∧ r.use = .job j line ∧ r.timedOut = true) ∧
    (∃ (s : State) (port : Nat) (id : Nat) (j : Nat) (line : Nat) (data : List Byte) (r : MemReq), FMap.find? s.bx.reads (port * 4096 + id) = some r ∧ r.use = .job j line ∧ r.timedOut = false) ∧
    (∃ (s : State) (port : Nat) (id : Nat) (j : Nat) (line : Nat) (data : List Byte) (r : MemReq), FMap.find? s.bx.reads (port * 4096 + id) = some r ∧ r.use = .job j line ∧ r.timedOut = false) :=
  ⟨⟨State.reset, 0, 5, [], false, by decide +kernel⟩,
    ⟨withBx fun b => { b with reads := [(5, ⟨64, 64, 5, .boot, 0, false, []⟩)] }, 0, 5, [], false, ⟨64, 64, 5, .boot, 0, false, []⟩, by decide +kernel⟩,
    ⟨withBx fun b => { b with reads := [(5, ⟨64, 64, 5, .boot, 0, false, []⟩)] }, 0, 5, [], ⟨64, 64, 5, .boot, 0, false, []⟩, by decide +kernel⟩,
    ⟨withBx fun b => { b with reads := [(5, ⟨64, 64, 5, .job 1 0, 0, true, []⟩)] }, 0, 5, 1, 0, [], ⟨64, 64, 5, .job 1 0, 0, true, []⟩, by decide +kernel⟩,
    ⟨withBx fun b => { b with reads := [(5, ⟨64, 64, 5, .job 1 0, 0, false, []⟩)] }, 0, 5, 1, 0, [], ⟨64, 64, 5, .job 1 0, 0, false, []⟩, by decide +kernel⟩,
    ⟨withBx fun b => { b with reads := [(5, ⟨64, 64, 5, .job 1 0, 0, false, []⟩)] }, 0, 5, 1, 0, [], ⟨64, 64, 5, .job 1 0, 0, false, []⟩, by decide +kernel⟩⟩

theorem wit_HeartbeatsAndReports :
    (∃ (s : State) (p : Part) (n : Nat), s.up p n = true ∧ s.elapsed p (s.lp p n).hbSent (msGrains 1) = true) ∧
    (∃ (s : State) (p : Part) (n : Nat), (s.up p n = false ∨ s.elapsed p (s.lp p n).hbSent (msGrains 1) = false)) ∧
    (∃ (s : State) (p : Part) (n : Nat) (h : Heartbeat), s.up p n = true ∧ (s.lp p n).hbLost = false ∧ (p = .baxel ∨ (h.node < 2 ^ 20 && h.singleDomain && !((s.lp p n).hb.any fun old => old.singleDomain)) = false) ∧ (p = .baxel ∨ (h.node < 2 ^ 20 && s.isFenced h.node && !s.ks.aliveTold.contains h.node) = false)) ∧
    (∃ (s : State) (n : Nat) (h : Heartbeat), s.up .kresia n = true ∧ (s.lp .kresia n).hbLost = false ∧ (h.node < 2 ^ 20 && h.singleDomain && !((s.lp .kresia n).hb.any fun old => old.singleDomain)) = true ∧ (h.node < 2 ^ 20 && s.isFenced h.node && !s.ks.aliveTold.contains h.node) = false ∧ s.canTell .kresia = true) ∧
    (∃ (s : State) (n : Nat) (h : Heartbeat), s.up .kresia n = true ∧ (s.lp .kresia n).hbLost = false ∧ (h.node < 2 ^ 20 && h.singleDomain && !((s.lp .kresia n).hb.any fun old => old.singleDomain)) = false ∧ (h.node < 2 ^ 20 && s.isFenced h.node && !s.ks.aliveTold.contains h.node) = true ∧ s.canTell .kresia = true) ∧
    (∃ (s : State) (p : Part) (n : Nat) (h : Heartbeat), s.up p n = true ∧ (s.lp p n).hbLost = true ∧ (p = .baxel ∨ (h.node < 2 ^ 20 && h.singleDomain && !((s.lp p n).hb.any fun old => old.singleDomain)) = false) ∧ (p = .baxel ∨ (h.node < 2 ^ 20 && s.isFenced h.node && !s.ks.aliveTold.contains h.node) = false) ∧ s.canTell p = true) ∧
    (∃ (s : State) (p : Part) (n : Nat) (h : Heartbeat), s.up p n = false) ∧
    (∃ (s : State) (p : Part) (n : Nat), s.up p n = true ∧ (s.lp p n).hbLost = false ∧ s.elapsed p (match (s.lp p n).hbLast with | some r => some r | none => (s.lp p n).svcStart) (msGrains 5) = true ∧ s.canTell p = true) ∧
    (∃ (s : State) (p : Part) (n : Nat), (s.up p n = false ∨ (s.lp p n).hbLost = true ∨ s.elapsed p (match (s.lp p n).hbLast with | some r => some r | none => (s.lp p n).svcStart) (msGrains 5) = false)) ∧
    (∃ (s : State) (n : Nat) (r : BxReport) (c : Caps), (s.lp .kresia n).peer = some c ∧ s.isFenced c.node = true) ∧
    (∃ (s : State) (n : Nat) (r : BxReport) (c : Caps), (s.lp .kresia n).peer = some c ∧ s.isFenced c.node = false ∧ s.ks.events.length < 4096) ∧
    (∃ (s : State) (n : Nat) (r : BxReport), (s.lp .kresia n).peer = none ∧ s.isFenced r.subject = false ∧ s.ks.events.length < 4096) ∧
    (∃ (s : State), s.elapsed .kresia s.ks.lastAlive (msGrains 100) = true) ∧
    (∃ (s : State), s.elapsed .kresia s.ks.lastAlive (msGrains 100) = false) ∧
    (∃ (s : State), s.elapsed .kresia s.ks.lastResend (msGrains 100) = true) ∧
    (∃ (s : State), s.elapsed .kresia s.ks.lastResend (msGrains 100) = false) :=
  ⟨⟨(withKs fun k => { k with c := { k.c with link := { ports := [(3, { step := 5 })] } } }), .kresia, 3, by decide +kernel⟩,
    ⟨State.reset, .kresia, 3, by decide +kernel⟩,
    ⟨(withKs fun k => { k with c := { k.c with link := { ports := [(3, { step := 5 })] } } }), .kresia, 3, {}, by decide +kernel⟩,
    ⟨(withKs fun k => { k with c := { k.c with link := { ports := [(3, { step := 5 })] } } }), 3, { node := 7, singleDomain := true }, by decide +kernel⟩,
    ⟨withKs fun k => { k with fences := [(7, (1, true))], c := { k.c with link := { ports := [(3, { step := 5 })] } } }, 3, { node := 7 }, by decide +kernel⟩,
    ⟨(withKs fun k => { k with c := { k.c with link := { ports := [(3, { step := 5, hbLost := true })] } } }), .kresia, 3, {}, by decide +kernel⟩,
    ⟨State.reset, .kresia, 3, {}, by decide +kernel⟩,
    ⟨(withKs fun k => { k with c := { k.c with link := { ports := [(3, { step := 5, hbLast := some 0 })] }, time := { raw := 327680000000 } } }), .kresia, 3, by decide +kernel⟩,
    ⟨(withKs fun k => { k with c := { k.c with link := { ports := [(3, { hbLast := some 0 })] } } }), .kresia, 3, by decide +kernel⟩,
    ⟨withKs fun k => { k with fences := [(7, (1, true))], c := { k.c with link := { ports := [(3, { peer := some { role := 0, node := 7 } })] } } }, 3, { code := 5 }, { role := 0, node := 7 }, by decide +kernel⟩,
    ⟨(withKs fun k => { k with c := { k.c with link := { ports := [(3, { peer := some { role := 0, node := 7 } })] } } }), 3, { code := 5 }, { role := 0, node := 7 }, by decide +kernel⟩,
    ⟨State.reset, 3, { code := 5 }, by decide +kernel⟩,
    ⟨State.reset, by decide +kernel⟩,
    ⟨withKs fun k => { k with lastAlive := some 0 }, by decide +kernel⟩,
    ⟨State.reset, by decide +kernel⟩,
    ⟨withKs fun k => { k with lastResend := some 0 }, by decide +kernel⟩⟩

theorem wit_FencesCopiesAndThrottling :
    (∃ (s : State) (n : FenceNotice), s.fenceNewer n = false) ∧
    (∃ (s : State) (n : FenceNotice), s.fenceNewer n = true ∧ n.subject < 2 ^ 20 ∧ s.ks.doms = []) ∧
    (∃ (s : State) (n : FenceNotice), s.fenceNewer n = true ∧ 2 ^ 20 ≤ n.subject ∧ n.clear = true ∧ ((s.upPorts .kresia).any fun q => (s.lp .kresia q).peer.any fun c => c.node = n.subject) = false) ∧
    (∃ (s : State) (n : FenceNotice), s.fenceNewer n = true ∧ n.subject < 2 ^ 20) ∧
    (∃ (s : State) (n : FenceNotice), s.fenceNewer n = true ∧ 2 ^ 20 ≤ n.subject ∧ n.clear = true ∧ ((s.upPorts .kresia).any fun q => (s.lp .kresia q).peer.any fun c => c.node = n.subject) = true) ∧
    (∃ (s : State) (n : FenceNotice), s.fenceNewer n = true ∧ 2 ^ 20 ≤ n.subject ∧ n.clear = false) ∧
    (∃ (s : State) (n : FenceNotice) (d : Nat) (x : Domain), s.fenceNewer n = true ∧ n.subject < 2 ^ 20 ∧ s.ks.doms = [(d, x)]) ∧
    (∃ (s : State) (d : Nat) (c : Nat) (k : Nat), ((s.shard (shardKey d c false false)).fillTarget = none ∨ k ∉ (s.shard (shardKey d c false false)).fillAcked)) ∧
    (∃ (s : State) (d : Nat) (c : Nat) (k : Nat) (x : Nat), (s.shard (shardKey d c false false)).fillTarget = some x ∧ k ∈ (s.shard (shardKey d c false false)).fillAcked ∧ (∀ i ∈ (s.shard (shardKey d c false false)).fillLeft, i = k) ∧ s.canTell .kresia = true) ∧
    (∃ (s : State) (d : Nat) (c : Nat) (k : Nat) (x : Nat) (j : Nat), (s.shard (shardKey d c false false)).fillTarget = some x ∧ k ∈ (s.shard (shardKey d c false false)).fillAcked ∧ j ∈ (s.shard (shardKey d c false false)).fillLeft ∧ j ≠ k) ∧
    (∃ (s : State), s.fld .kresia 0x1C001C 0 2 < 2 ∧ s.elapsed .kresia s.ks.lastThrottle (msGrains 10) = true ∧ s.canTell .kresia = true) ∧
    (∃ (s : State), 0 < s.fld .kresia 0x1C001C 0 2 ∧ s.elapsed .kresia s.ks.lastThrottle (msGrains 10) = true ∧ s.canTell .kresia = true) ∧
    (∃ (s : State) (u : Bool), (s.fld .kresia 0x1C001C 0 2 = if u then 2 else 0)) ∧
    (∃ (s : State) (u : Bool), s.elapsed .kresia s.ks.lastThrottle (msGrains 10) = false) :=
  ⟨⟨withKs fun k => { k with fences := [(7, (3, true))] }, ⟨false, 7, 3⟩, by decide +kernel⟩,
    ⟨State.reset, ⟨false, 7, 3⟩, by decide +kernel⟩,
    ⟨State.reset, ⟨true, 1048583, 3⟩, by decide +kernel⟩,
    ⟨State.reset, ⟨false, 7, 3⟩, by decide +kernel⟩,
    ⟨(withKs fun k => { k with c := { k.c with link := { ports := [(3, { step := 5, peer := some { role := 0, node := 1048583 } })] } } }), ⟨true, 1048583, 3⟩, by decide +kernel⟩,
    ⟨State.reset, ⟨false, 1048583, 3⟩, by decide +kernel⟩,
    ⟨withKs fun k => { k with doms := [(2, {})] }, ⟨false, 7, 3⟩, 2, {}, by decide +kernel⟩,
    ⟨State.reset, 2, 0, 0, by decide +kernel⟩,
    ⟨withKs fun q => { q with shards := [(shardKey 2 0 false false, { fillTarget := some 9, fillAcked := [4], fillLeft := [4], single := true })] }, 2, 0, 4, 9, by decide +kernel⟩,
    ⟨withKs fun q => { q with shards := [(shardKey 2 0 false false, { fillTarget := some 9, fillAcked := [4], fillLeft := [4, 5], single := true })] }, 2, 0, 4, 9, 5, by decide +kernel⟩,
    ⟨State.reset, by decide +kernel⟩,
    ⟨State.reset.setFld .kresia 0x1C001C 0 2 2, by decide +kernel⟩,
    ⟨State.reset, false, by decide +kernel⟩,
    ⟨withKs fun k => { k with lastThrottle := some 0 }, true, by decide +kernel⟩⟩

theorem wit_CuppingAtTheCrown :
    (∃ (s : State) (m : CupPartial), (s.dom m.domain).isCrown = false) ∧
    (∃ (s : State) (m : CupPartial) (r : CupRec), (s.dom m.domain).isCrown = true ∧ ((s.dom m.domain).cupOpen.find? fun r => r.step = m.step) = some r ∧ m.epoch < r.epoch) ∧
    (∃ (s : State) (m : CupPartial), (s.dom m.domain).isCrown = true ∧ ((s.dom m.domain).cupOpen.find? fun r => r.step = m.step) = none ∧ 1 < ((s.dom m.domain).kresia s.ks.build).length) ∧
    (∃ (s : State) (m : CupPartial), (s.dom m.domain).isCrown = true) ∧
    (∃ (s : State) (d : Nat) (step : Nat) (r : CupRec), ((s.dom d).cupOpen.find? fun r => r.step = step) = some r ∧ (s.dom d).isCrown = true ∧ (s.dom d).cupped step = true ∧ r.sealedOt ≠ none ∧ s.elapsed .kresia (some r.sealedRaw) (msGrains 1000) = true) ∧
    (∃ (s : State) (d : Nat) (step : Nat) (r : CupRec), ((s.dom d).cupOpen.find? fun r => r.step = step) = some r ∧ ((s.dom d).isCrown = false ∨ (s.dom d).cupped step = false ∨ r.sealedOt = none ∨ s.elapsed .kresia (some r.sealedRaw) (msGrains 1000) = false)) ∧
    (∃ (s : State) (d : Nat) (step : Nat), ((s.dom d).cupOpen.find? fun r => r.step = step) = none) ∧
    (∃ (s : State) (m : ShardDigests) (q : CupCheck), s.ks.cupChecks = [q] ∧ q.domain = m.domain ∧ q.coll = m.coll ∧ m.node ∈ q.waiting ∧ (∃ n ∈ q.waiting, n ≠ m.node) ∧ q.differ.length < (q.take m).differ.length ∧ s.canTell .kresia = true) ∧
    (∃ (s : State) (m : ShardDigests), (s.ks.cupChecks.find? fun q => q.domain = m.domain && q.coll = m.coll && q.waiting.contains m.node) = none) ∧
    (∃ (s : State) (m : ShardDigests) (q : CupCheck) (tk : Taken), s.ks.cupChecks = [q] ∧ q.domain = m.domain ∧ q.coll = m.coll ∧ q.waiting = [m.node] ∧ (s.mslot .kresia q.mailbox q.mslot).taken = some tk) ∧
    (∃ (s : State) (m : ShardDigests) (q : CupCheck), s.ks.cupChecks = [q] ∧ q.domain = m.domain ∧ q.coll = m.coll ∧ m.node ∈ q.waiting ∧ (∃ n ∈ q.waiting, n ≠ m.node) ∧ (q.take m).differ.length = q.differ.length) :=
  ⟨⟨State.reset, ⟨2, 4, 0, 5, [], 0⟩, by decide +kernel⟩,
    ⟨withKs fun k => { k with doms := [(2, { isCrown := true, cupOpen := [{ step := 4, epoch := 3, sealedOt := some .zero }] })] }, ⟨2, 4, 0, 5, [], 0⟩, { step := 4, epoch := 3, sealedOt := some .zero }, by decide +kernel⟩,
    ⟨withKs fun k => { k with doms := [(2, { isCrown := true, positions := [{ e := ⟨1, 0, 3, 0, false⟩ }] })] }, ⟨2, 4, 0, 5, [], 0⟩, by decide +kernel⟩,
    ⟨withKs fun k => { k with doms := [(2, { isCrown := true })] }, ⟨2, 4, 0, 5, [], 0⟩, by decide +kernel⟩,
    ⟨withKs fun k => { k with c := { k.c with time := { raw := 65536000000000 } }, doms := [(2, { isCrown := true, prog := some [], cupPeriod := 1, cupOpen := [{ step := 4, epoch := 0, sealedOt := some .zero }] })] }, 2, 4, { step := 4, epoch := 0, sealedOt := some .zero }, by decide +kernel⟩,
    ⟨withKs fun k => { k with c := { k.c with time := { raw := 0 } }, doms := [(2, { isCrown := true, prog := some [], cupPeriod := 1, cupOpen := [{ step := 4, epoch := 0, sealedOt := some .zero }] })] }, 2, 4, { step := 4, epoch := 0, sealedOt := some .zero }, by decide +kernel⟩,
    ⟨State.reset, 2, 4, by decide +kernel⟩,
    ⟨withKs fun k => { k with cupChecks := [{ mailbox := 0, mslot := 0, domain := 2, coll := 0, first := 0, count := 4, waiting := [5, 6], own := [(3, [0])] }] }, ⟨2, 0, 5, [(3, [1])]⟩, { mailbox := 0, mslot := 0, domain := 2, coll := 0, first := 0, count := 4, waiting := [5, 6], own := [(3, [0])] }, by decide +kernel⟩,
    ⟨State.reset, ⟨2, 0, 5, []⟩, by decide +kernel⟩,
    ⟨withKs fun k => { k with c := { k.c with fw := fwOf (cmdOf []) }, cupChecks := [{ mailbox := 0, mslot := 0, domain := 2, coll := 0, first := 0, count := 4, waiting := [5] }] }, ⟨2, 0, 5, []⟩, { mailbox := 0, mslot := 0, domain := 2, coll := 0, first := 0, count := 4, waiting := [5] }, cmdOf [], by decide +kernel⟩,
    ⟨withKs fun k => { k with cupChecks := [{ mailbox := 0, mslot := 0, domain := 2, coll := 0, first := 0, count := 4, waiting := [5, 6] }] }, ⟨2, 0, 5, []⟩, { mailbox := 0, mslot := 0, domain := 2, coll := 0, first := 0, count := 4, waiting := [5, 6] }, by decide +kernel⟩⟩

theorem wit_CountersConfiguredLatchedCleared :
    (∃ (s : State) (p : Part) (v : View) (a : Nat) (w : Word) (k : Nat) (off : Nat) (i : Nat) (j : Nat), ctrBankAt p v a = some (k, off) ∧ cfgWordAt p k off = some (true, i, j) ∧ (k = 0 ∨ tenantEvent (Ctr.written p (decide (k ≠ 0)) (FMap.getD (s.bank p k).ctrs i {}) j w).event = true) ∧ ((Ctr.written p (decide (k ≠ 0)) (FMap.getD (s.bank p k).ctrs i {}) j w).portEn = false ∨ (Ctr.written p (decide (k ≠ 0)) (FMap.getD (s.bank p k).ctrs i {}) j w).port < s.portsOf p) ∧ (ctrCode p (Ctr.written p (decide (k ≠ 0)) (FMap.getD (s.bank p k).ctrs i {}) j w).event (Ctr.written p (decide (k ≠ 0)) (FMap.getD (s.bank p k).ctrs i {}) j w).mode (Ctr.written p (decide (k ≠ 0)) (FMap.getD (s.bank p k).ctrs i {}) j w).portEn (Ctr.written p (decide (k ≠ 0)) (FMap.getD (s.bank p k).ctrs i {}) j w).domEn (Ctr.written p (decide (k ≠ 0)) (FMap.getD (s.bank p k).ctrs i {}) j w).clsEn (if 2 ≤ (Ctr.written p (decide (k ≠ 0)) (FMap.getD (s.bank p k).ctrs i {}) j w).mode then (Ctr.written p (decide (k ≠ 0)) (FMap.getD (s.bank p k).ctrs i {}) j w).thresh else 0) = none)) ∧
    (∃ (s : State) (p : Part) (v : View) (a : Nat) (w : Word) (k : Nat) (off : Nat) (i : Nat) (j : Nat), ctrBankAt p v a = some (k, off) ∧ cfgWordAt p k off = some (true, i, j) ∧ k ≠ 0 ∧ tenantEvent (Ctr.written p (decide (k ≠ 0)) (FMap.getD (s.bank p k).ctrs i {}) j w).event = false) ∧
    (∃ (s : State) (p : Part) (v : View) (a : Nat) (w : Word) (k : Nat) (off : Nat) (i : Nat) (j : Nat), ctrBankAt p v a = some (k, off) ∧ cfgWordAt p k off = some (true, i, j) ∧ (k = 0 ∨ tenantEvent (Ctr.written p (decide (k ≠ 0)) (FMap.getD (s.bank p k).ctrs i {}) j w).event = true) ∧ (Ctr.written p (decide (k ≠ 0)) (FMap.getD (s.bank p k).ctrs i {}) j w).portEn = true ∧ s.portsOf p ≤ (Ctr.written p (decide (k ≠ 0)) (FMap.getD (s.bank p k).ctrs i {}) j w).port) ∧
    (∃ (s : State) (p : Part) (v : View) (a : Nat) (w : Word) (k : Nat) (off : Nat), ctrBankAt p v a = some (k, off) ∧ cfgWordAt p k off = none) ∧
    (∃ (s : State) (p : Part) (v : View) (a : Nat) (w : Word) (k : Nat) (off : Nat) (i : Nat) (j : Nat) (x : Bool) (y : Bool) (z : Bool), ctrBankAt p v a = some (k, off) ∧ cfgWordAt p k off = some (false, i, j) ∧ latency p (Hist.written p (FMap.getD (s.bank p k).hists i {}) j w).event = some (x, y, z) ∧ (((Hist.written p (FMap.getD (s.bank p k).hists i {}) j w).portEn = true ∧ (x = false ∨ s.portsOf p ≤ (Hist.written p (FMap.getD (s.bank p k).hists i {}) j w).port)) ∨ ((Hist.written p (FMap.getD (s.bank p k).hists i {}) j w).domEn = true ∧ y = false) ∨ ((Hist.written p (FMap.getD (s.bank p k).hists i {}) j w).clsEn = true ∧ z = false))) ∧
    (∃ (s : State) (p : Part) (v : View) (a : Nat) (w : Word) (k : Nat) (off : Nat) (i : Nat) (j : Nat) (c : Code), ctrBankAt p v a = some (k, off) ∧ cfgWordAt p k off = some (true, i, j) ∧ (k = 0 ∨ tenantEvent (Ctr.written p (decide (k ≠ 0)) (FMap.getD (s.bank p k).ctrs i {}) j w).event = true) ∧ ((Ctr.written p (decide (k ≠ 0)) (FMap.getD (s.bank p k).ctrs i {}) j w).portEn = false ∨ (Ctr.written p (decide (k ≠ 0)) (FMap.getD (s.bank p k).ctrs i {}) j w).port < s.portsOf p) ∧ (ctrCode p (Ctr.written p (decide (k ≠ 0)) (FMap.getD (s.bank p k).ctrs i {}) j w).event (Ctr.written p (decide (k ≠ 0)) (FMap.getD (s.bank p k).ctrs i {}) j w).mode (Ctr.written p (decide (k ≠ 0)) (FMap.getD (s.bank p k).ctrs i {}) j w).portEn (Ctr.written p (decide (k ≠ 0)) (FMap.getD (s.bank p k).ctrs i {}) j w).domEn (Ctr.written p (decide (k ≠ 0)) (FMap.getD (s.bank p k).ctrs i {}) j w).clsEn (if 2 ≤ (Ctr.written p (decide (k ≠ 0)) (FMap.getD (s.bank p k).ctrs i {}) j w).mode then (Ctr.written p (decide (k ≠ 0)) (FMap.getD (s.bank p k).ctrs i {}) j w).thresh else 0) = some c)) ∧
    (∃ (s : State) (p : Part) (v : View) (a : Nat) (w : Word) (k : Nat) (off : Nat) (i : Nat) (j : Nat), ctrBankAt p v a = some (k, off) ∧ cfgWordAt p k off = some (false, i, j) ∧ latency p (Hist.written p (FMap.getD (s.bank p k).hists i {}) j w).event = none) ∧
    (∃ (s : State) (p : Part) (v : View) (a : Nat) (w : Word) (k : Nat) (off : Nat) (i : Nat) (j : Nat) (x : Bool) (y : Bool) (z : Bool), ctrBankAt p v a = some (k, off) ∧ cfgWordAt p k off = some (false, i, j) ∧ latency p (Hist.written p (FMap.getD (s.bank p k).hists i {}) j w).event = some (x, y, z) ∧ ((Hist.written p (FMap.getD (s.bank p k).hists i {}) j w).portEn = false ∨ x = true ∧ (Hist.written p (FMap.getD (s.bank p k).hists i {}) j w).port < s.portsOf p) ∧ ((Hist.written p (FMap.getD (s.bank p k).hists i {}) j w).domEn = false ∨ y = true) ∧ ((Hist.written p (FMap.getD (s.bank p k).hists i {}) j w).clsEn = false ∨ z = true)) ∧
    (∃ (s : State) (p : Part) (v : View) (a : Nat) (w : Word) (k : Nat) (off : Nat), ctrBankAt p v a = some (k, off) ∧ w.get 0 1 = 1 ∧ w.get 1 1 = 0) ∧
    (∃ (s : State) (p : Part) (v : View) (a : Nat) (w : Word), w.get 0 1 = 0) ∧
    (∃ (s : State) (p : Part) (v : View) (a : Nat) (w : Word) (k : Nat) (off : Nat), ctrBankAt p v a = some (k, off) ∧ w.get 1 1 = 1 ∧ w.get 0 1 = 0) ∧
    (∃ (s : State) (p : Part) (v : View) (a : Nat) (w : Word) (k : Nat) (off : Nat), ctrBankAt p v a = some (k, off) ∧ w.get 1 1 = 1 ∧ w.get 0 1 = 1) ∧
    (∃ (s : State) (p : Part) (v : View) (a : Nat) (w : Word), w.get 1 1 = 0) ∧
    (∃ (s : State) (p : Part) (v : View) (a : Nat) (w : Word), ctrBankAt p v a = none ∧ w.get 1 1 = 1) ∧
    (∃ (s : State) (p : Part) (v : View) (a : Nat) (w : Word), ctrBankAt p v a = none ∧ w.get 0 1 = 1) :=
  ⟨⟨State.reset, .kresia, .priv, 0x1D0100, 0xF0181, 0, 0x100, 0, 0, by decide +kernel⟩,
    ⟨State.reset, .baxel, .tenant 1, 0x8010, 3, 2, 0x10, 0, 0, by decide +kernel⟩,
    ⟨(withKs fun k => { k with c := { k.c with ctr := { banks := [(0, { ctrs := [(0, { port := 255 })] })] } } }), .kresia, .priv, 0x1D0100, 0x7FC00000, 0, 0x100, 0, 0, by decide +kernel⟩,
    ⟨State.reset, .kresia, .priv, 0x1D0000, 1, 0, 0, by decide +kernel⟩,
    ⟨(withKs fun k => { k with c := { k.c with ctr := { banks := [(0, { hists := [(0, { event := 0xF0181, portEn := true })] })] } } }), .kresia, .priv, 0x1D1000, 0x100F0181, 0, 0x1000, 0, 0, false, true, false, by decide +kernel⟩,
    ⟨State.reset, .kresia, .priv, 0x1D0100, 0x3FFFF, 0, 0x100, 0, 0, 0x2040, by decide +kernel⟩,
    ⟨State.reset, .kresia, .priv, 0x1D1000, 3, 0, 0x1000, 0, 0, by decide +kernel⟩,
    ⟨State.reset, .kresia, .priv, 0x1D1000, 0xF0181, 0, 0x1000, 0, 0, false, true, false, by decide +kernel⟩,
    ⟨State.reset, .kresia, .priv, 0x1D0000, 1, 0, 0, by decide +kernel⟩,
    ⟨State.reset, .kresia, .priv, 0x1D0000, 0, by decide +kernel⟩,
    ⟨State.reset, .kresia, .priv, 0x1D0000, 2, 0, 0, by decide +kernel⟩,
    ⟨State.reset, .kresia, .priv, 0x1D0000, 3, 0, 0, by decide +kernel⟩,
    ⟨State.reset, .kresia, .priv, 0x1D0000, 0, by decide +kernel⟩,
    ⟨State.reset, .baxel, .tenant 1, 0x8800, 2, by decide +kernel⟩,
    ⟨State.reset, .baxel, .tenant 1, 0x8800, 1, by decide +kernel⟩⟩

theorem wit_SnapshotsAndTags :
    (∃ (s : State) (x : SnapMsg), s.tenantOf x.domain = none) ∧
    (∃ (s : State) (x : SnapMsg) (t : Nat), s.tenantOf x.domain = some t ∧ x.epoch < (s.ten t).epoch) ∧
    (∃ (s : State) (x : SnapMsg), x.epoch < (s.dom x.domain).epoch) ∧
    (∃ (s : State) (x : SnapMsg) (g : Image), (s.dom x.domain).epoch ≤ x.epoch ∧ (s.dom x.domain).imageFor x.step = some g ∧ (x.domain, x.epoch, x.step, x.set) ∈ s.ks.c.ctr.snapSeen) ∧
    (∃ (s : State) (x : SnapMsg) (g : Image), (s.dom x.domain).epoch ≤ x.epoch ∧ (s.dom x.domain).imageFor x.step = some g ∧ (x.domain, x.epoch, x.step, x.set) ∉ s.ks.c.ctr.snapSeen ∧ x.t.malformed = false ∧ s.ks.c.time.state ≠ .unset ∧ otDiff s.ks.c.time.now x.t < 0 ∧ s.ks.c.time.dueCode x.t ≠ some 0x1001) ∧
    (∃ (s : State) (x : SnapMsg) (g : Image), (s.dom x.domain).epoch ≤ x.epoch ∧ (s.dom x.domain).imageFor x.step = some g ∧ (x.domain, x.epoch, x.step, x.set) ∉ s.ks.c.ctr.snapSeen ∧ (x.t.malformed = true ∨ (s.ks.c.time.state ≠ .unset ∧ otDiff s.ks.c.time.now x.t < 0 ∧ s.ks.c.time.dueCode x.t = some 0x1001))) ∧
    (∃ (s : State) (x : SnapMsg) (g : Image), (s.dom x.domain).epoch ≤ x.epoch ∧ (s.dom x.domain).imageFor x.step = some g ∧ (x.domain, x.epoch, x.step, x.set) ∉ s.ks.c.ctr.snapSeen ∧ x.t.malformed = false ∧ (s.ks.c.time.state = .unset ∨ 0 ≤ otDiff s.ks.c.time.now x.t)) ∧
    (∃ (s : State) (x : SnapMsg) (n : Nat), s.tenantOf x.domain = some n ∧ (s.ten n).epoch ≤ x.epoch) ∧
    (∃ (s : State) (p : Part) (a : SnapArm), ((s.pc p).ctr.snapArms.find? fun a => 0 ≤ Raw.diff (s.raw p) (openEdge a.due)) = some a) ∧
    (∃ (s : State) (p : Part), ((s.pc p).ctr.snapArms.find? fun a => 0 ≤ Raw.diff (s.raw p) (openEdge a.due)) = none) ∧
    (∃ (s : State) (p : Part) (v : View) (r : SnapRec) (l : List SnapRec), (s.snapStore p (s.snapStoreKey p v)).recs = r :: l) ∧
    (∃ (s : State) (p : Part) (v : View) (seq : Word), (s.snapStore p (s.snapStoreKey p v)).recs.head?.map (fun r => BitVec.ofNat 32 r.snapSeq) ≠ some seq) ∧
    (∃ (s : State) (p : Part) (w : Word), rateOk p w = true) ∧
    (∃ (s : State) (p : Part) (w : Word), rateOk p w = false) :=
  ⟨⟨State.reset, ⟨2, 0, 4, 0, .zero⟩, by decide +kernel⟩,
    ⟨withBx fun b => { b with tenants := [(1, { domain := some 2, epoch := 3 })] }, ⟨2, 0, 4, 0, .zero⟩, 1, by decide +kernel⟩,
    ⟨withKs fun k => { k with doms := [(2, { epoch := 3 })] }, ⟨2, 0, 4, 0, .zero⟩, by decide +kernel⟩,
    ⟨withKs fun k => { k with doms := [(2, { prog := some [] })], c := { k.c with ctr := { snapSeen := [(2, 0, 4, 0)] } } }, ⟨2, 0, 4, 0, .zero⟩, [], by decide +kernel⟩,
    ⟨withKs fun k => { k with doms := [(2, { prog := some [] })], c := { k.c with time := { state := .locked } } }, ⟨2, 0, 4, 0, otAdd .zero 65536⟩, [], by decide +kernel⟩,
    ⟨withKs fun k => { k with doms := [(2, { prog := some [] })], c := { k.c with time := { state := .locked } } }, ⟨2, 0, 4, 0, otAdd .zero (86401 * 1000000000 * 65536)⟩, [], by decide +kernel⟩,
    ⟨withKs fun k => { k with doms := [(2, { prog := some [] })], c := { k.c with time := { state := .locked } } }, ⟨2, 0, 4, 0, .zero⟩, [], by decide +kernel⟩,
    ⟨withBx fun b => { b with tenants := [(1, { domain := some 2 })] }, ⟨2, 0, 4, 0, .zero⟩, 1, by decide +kernel⟩,
    ⟨withKs fun k => { k with c := { k.c with ctr := { snapArms := [{ domain := 2, epoch := 0, step := 4, set := 0, due := ⟨.zero, 0, none, false⟩, sels := [] }] } } }, .kresia, { domain := 2, epoch := 0, step := 4, set := 0, due := ⟨.zero, 0, none, false⟩, sels := [] }, by decide +kernel⟩,
    ⟨State.reset, .kresia, by decide +kernel⟩,
    ⟨withKs fun k => { k with c := { k.c with ctr := { stores := [(0, { recs := [{ domain := 2, set := 0, step := 4, late := false, operator := false, epoch := 0, t := .zero, raw := 0, snapSeq := 1, lost := 0, node := 0, values := [] }] })] } } }, .kresia, .priv, { domain := 2, set := 0, step := 4, late := false, operator := false, epoch := 0, t := .zero, raw := 0, snapSeq := 1, lost := 0, node := 0, values := [] }, [], by decide +kernel⟩,
    ⟨State.reset, .kresia, .priv, 5, by decide +kernel⟩,
    ⟨State.reset, .kresia, 3, by decide +kernel⟩,
    ⟨State.reset, .kresia, 0x1F000000, by decide +kernel⟩⟩

theorem wit_ResetPowerAndClocks_1 :
    (∃ (s : State) (y : Straps), (s.resetEnds .baxel = true)) ∧
    (∃ (s : State) (y : KsStraps), (s.resetEnds .kresia = true) ∧ y.clockCause = 0) ∧
    (∃ (s : State) (y : KsStraps), (s.resetEnds .kresia = true) ∧ y.clockCause ≠ 0) ∧
    (∃ (s : State) (x : BootStraps), s.resetEnds .baxel = false ∧ s.resetEnds .kresia = false) ∧
    (∃ (s : State), (s.bx.refclkLost = true ∨ s.bx.c.fw.inReset = true)) ∧
    (∃ (s : State), s.bx.refclkLost = false ∧ s.bx.c.fw.inReset = false) ∧
    (∃ (s : State) (inlet : Int) (flow : Nat), s.elapsed .kresia s.ks.lastCoolant (msGrains 100) = false) ∧
    (∃ (s : State) (inlet : Int) (flow : Nat), s.elapsed .kresia s.ks.lastCoolant (msGrains 100) = true ∧ inlet ≤ 40000 ∧ 2000 ≤ flow) ∧
    (∃ (s : State) (inlet : Int) (flow : Nat), s.elapsed .kresia s.ks.lastCoolant (msGrains 100) = true ∧ (40000 < inlet ∨ flow < 2000) ∧ s.ks.coolantSince = none) ∧
    (∃ (s : State) (inlet : Int) (flow : Nat) (r : Raw), s.elapsed .kresia s.ks.lastCoolant (msGrains 100) = true ∧ (40000 < inlet ∨ flow < 2000) ∧ s.ks.coolantSince = some r ∧ msGrains 1000 ≤ Raw.diff (s.raw .kresia) r ∧ s.ks.coolantTold = false ∧ s.canTell .kresia = true) ∧
    (∃ (s : State) (inlet : Int) (flow : Nat) (r : Raw), s.elapsed .kresia s.ks.lastCoolant (msGrains 100) = true ∧ (40000 < inlet ∨ flow < 2000) ∧ s.ks.coolantSince = some r ∧ (Raw.diff (s.raw .kresia) r < msGrains 1000 ∨ s.ks.coolantTold = true)) ∧
    (∃ (s : State), s.ks.tripped = true) ∧
    (∃ (s : State), s.ks.tripped = false ∧ s.livePorts .kresia = [] ∧ s.canTell .kresia = true) ∧
    (∃ (s : State), s.ks.tripped = false) ∧
    (∃ (s : State) (stack : Nat) (training : Bool), 32 ≤ stack) ∧
    (∃ (s : State) (stack : Nat), stack < 32 ∧ s.canTell .kresia = true) :=
  ⟨⟨State.reset, {}, by decide +kernel⟩,
    ⟨State.reset, {}, by decide +kernel⟩,
    ⟨State.reset, { clockCause := 2 }, by decide +kernel⟩,
    ⟨{ (withBx fun b => { b with c := { b.c with fw := { busy := true } } }) with ks := ((withKs fun k => { k with c := { k.c with fw := { busy := true } } })).ks }, .baxel {}, by decide +kernel⟩,
    ⟨withBx fun b => { b with refclkLost := true }, by decide +kernel⟩,
    ⟨State.reset, by decide +kernel⟩,
    ⟨(withKs fun k => { k with lastCoolant := some 0 }), 30000, 3000, by decide +kernel⟩,
    ⟨State.reset, 30000, 3000, by decide +kernel⟩,
    ⟨State.reset, 50000, 3000, by decide +kernel⟩,
    ⟨(withKs fun k => { k with coolantSince := some 0, c := { k.c with time := { raw := 65536000000000 } } }), 30000, 100, 0, by decide +kernel⟩,
    ⟨(withKs fun k => { k with coolantSince := some 0, c := { k.c with time := { raw := 6553600000000 } } }), 30000, 100, 0, by decide +kernel⟩,
    ⟨(withKs fun k => { k with tripped := true }), by decide +kernel⟩,
    ⟨State.reset, by decide +kernel⟩,
    ⟨State.reset, by decide +kernel⟩,
    ⟨State.reset, 32, true, by decide +kernel⟩,
    ⟨State.reset, 31, by decide +kernel⟩⟩

theorem wit_ResetPowerAndClocks_2 :
    (∃ (s : State) (stack : Nat), stack < 32 ∧ ((FMap.getD s.ks.memErrors stack []).filter fun r => Raw.diff (s.raw .kresia) r ≤ msGrains 3600000).length = 16 ∧ s.canTell .kresia = true) ∧
    (∃ (s : State) (stack : Nat), stack < 32 ∧ ((FMap.getD s.ks.memErrors stack []).filter fun r => Raw.diff (s.raw .kresia) r ≤ msGrains 3600000).length < 16) ∧
    (∃ (s : State) (brim : Nat), (4 ≤ brim ∨ s.ks.brimFailed.contains brim = true)) ∧
    (∃ (s : State) (brim : Nat), brim < 4 ∧ s.ks.brimFailed.contains brim = false ∧ s.livePorts .kresia = [] ∧ s.canTell .kresia = true) :=
  ⟨⟨(withKs fun k => { k with memErrors := [(3, List.replicate 16 0)] }), 3, by decide +kernel⟩,
    ⟨State.reset, 3, by decide +kernel⟩,
    ⟨State.reset, 4, by decide +kernel⟩,
    ⟨State.reset, 3, by decide +kernel⟩⟩

theorem wit_BootAndWatchdog :
    (∃ (s : State) (v : View) (w : Word), v ≠ .priv ∧ v ≠ .core) ∧
    (∃ (s : State) (v : View) (w : Word), (v = .priv ∨ v = .core) ∧ (w.get 0 1 = 0 ∨ s.bx.c.fw.busy = true ∨ s.bx.c.fw.serving = true ∨ s.bx.c.fw.inReset = true)) ∧
    (∃ (s : State) (v : View) (w : Word), (v = .priv ∨ v = .core) ∧ w.get 0 1 = 1 ∧ s.bx.c.fw.busy = false ∧ s.bx.c.fw.serving = false ∧ s.bx.c.fw.inReset = false) ∧
    (∃ (s : State) (bs : List Byte), s.bx.c.fw.busy = true ∧ s.bx.c.fw.bootBytes = some bs) ∧
    (∃ (s : State), (s.bx.c.fw.busy = false ∨ s.bx.c.fw.bootBytes = none)) ∧
    (∃ (s : State) (a : List Byte) (b : List Byte) (x : ImageConfig), s.ks.c.fw.busy = true ∧ s.ks.c.fw.inReset = false) ∧
    (∃ (s : State) (a : List Byte) (b : List Byte) (x : ImageConfig), (s.ks.c.fw.busy = false ∨ s.ks.c.fw.inReset = true)) ∧
    (∃ (s : State) (p : Part), ((s.pc p).fw.image = none ∨ (s.pc p).fw.serving = true ∨ (s.pc p).fw.inReset = true)) ∧
    (∃ (s : State) (p : Part) (ver : Word) (b : Bool), (s.pc p).fw.image = some (ver, b) ∧ (s.pc p).fw.serving = false ∧ (s.pc p).fw.inReset = false ∧ (s.pc p).fw.heldBells = []) ∧
    (∃ (s : State) (p : Part) (ver : Word) (b : Bool) (m : Nat) (k : Nat), (s.pc p).fw.image = some (ver, b) ∧ (s.pc p).fw.serving = false ∧ (s.pc p).fw.inReset = false ∧ (s.pc p).fw.heldBells = [(m, k)]) ∧
    (∃ (s : State) (p : Part), (s.pc p).fw.serving = false) ∧
    (∃ (s : State) (p : Part), (s.pc p).fw.serving = true ∧ s.inFlight p = [] ∧ s.canTell p = true) :=
  ⟨⟨State.reset, .tenant 1, 1, by decide +kernel⟩,
    ⟨State.reset, .priv, 0, by decide +kernel⟩,
    ⟨State.reset, .priv, 1, by decide +kernel⟩,
    ⟨(withBx fun b => { b with c := { b.c with fw := { busy := true, bootBytes := some [] } } }), [], by decide +kernel⟩,
    ⟨State.reset, by decide +kernel⟩,
    ⟨(withKs fun k => { k with c := { k.c with fw := { busy := true } } }), [], [], {}, by decide +kernel⟩,
    ⟨State.reset, [], [], {}, by decide +kernel⟩,
    ⟨State.reset, .kresia, by decide +kernel⟩,
    ⟨(withKs fun k => { k with c := { k.c with fw := { image := some (5, false) } } }), .kresia, 5, false, by decide +kernel⟩,
    ⟨(withKs fun k => { k with c := { k.c with fw := { image := some (5, false), heldBells := [(0, 0)] } } }), .kresia, 5, false, 0, 0, by decide +kernel⟩,
    ⟨State.reset, .kresia, by decide +kernel⟩,
    ⟨(withKs fun k => { k with c := { k.c with fw := { serving := true } } }), .kresia, by decide +kernel⟩⟩

theorem wit_MailboxesRingAndRetire_1 :
    (∃ (s : State) (p : Part) (v : View) (m : Nat) (w : Word), (s.pc p).fw.inReset = true) ∧
    (∃ (s : State) (p : Part) (v : View) (m : Nat) (w : Word), (s.pc p).fw.inReset = false ∧ ringsMbox p v m = false) ∧
    (∃ (s : State) (p : Part) (v : View) (m : Nat) (w : Word), (s.pc p).fw.inReset = false ∧ ringsMbox p v m = true ∧ (s.mslot p m (w.get 0 4)).locked = true) ∧
    (∃ (s : State) (p : Part) (v : View) (m : Nat) (w : Word), (s.pc p).fw.inReset = false ∧ ringsMbox p v m = true ∧ (s.mslot p m (w.get 0 4)).locked = false ∧ (s.pc p).fw.serving = false) ∧
    (∃ (s : State) (p : Part) (v : View) (m : Nat) (w : Word), (s.pc p).fw.inReset = false ∧ ringsMbox p v m = true ∧ (s.mslot p m (w.get 0 4)).locked = false ∧ (s.pc p).fw.serving = true) ∧
    (∃ (s : State) (p : Part) (v : View) (m : Nat) (w : Word), ringsMbox p v m = false) ∧
    (∃ (s : State) (p : Part) (v : View) (m : Nat) (w : Word), ringsMbox p v m = true ∧ (s.mslot p m (w.get 0 4)).comp.ready = true ∧ (s.mslot p m (w.get 0 4)).comp.seq = w.get 16 16) ∧
    (∃ (s : State) (p : Part) (v : View) (m : Nat) (w : Word), ringsMbox p v m = true ∧ (s.mslot p m (w.get 0 4)).comp.ready = false ∧ (s.mslot p m (w.get 0 4)).comp.seq = w.get 16 16) ∧
    (∃ (s : State) (p : Part) (v : View) (m : Nat) (w : Word), ringsMbox p v m = true ∧ (s.mslot p m (w.get 0 4)).comp.seq ≠ w.get 16 16) ∧
    (∃ (s : State) (x : Datagram), s.takesDatagram x 1 = false) ∧
    (∃ (s : State) (x : Datagram), s.takesDatagram x 1 = true ∧ (s.mslot .kresia (le x.payload 6 1) (le x.payload 7 1)).locked = false ∧ (s.mslot .kresia (le x.payload 6 1) (le x.payload 7 1)).lastRetired = some (le ((x.payload.drop 16).take 64) 2 2)) ∧
    (∃ (s : State) (x : Datagram), s.takesDatagram x 1 = true ∧ (s.mslot .kresia (le x.payload 6 1) (le x.payload 7 1)).locked = false ∧ (s.mslot .kresia (le x.payload 6 1) (le x.payload 7 1)).lastRetired ≠ some (le ((x.payload.drop 16).take 64) 2 2)) ∧
    (∃ (s : State) (x : Datagram), s.takesDatagram x 1 = true ∧ (s.mslot .kresia (le x.payload 6 1) (le x.payload 7 1)).locked = true ∧ (s.mslot .kresia (le x.payload 6 1) (le x.payload 7 1)).slot64 ≠ ((x.payload.drop 16).take 64)) ∧
    (∃ (s : State) (x : Datagram) (tk : Taken), s.takesDatagram x 1 = true ∧ (s.mslot .kresia (le x.payload 6 1) (le x.payload 7 1)).locked = true ∧ (s.mslot .kresia (le x.payload 6 1) (le x.payload 7 1)).slot64 = ((x.payload.drop 16).take 64) ∧ (s.mslot .kresia (le x.payload 6 1) (le x.payload 7 1)).taken = some tk ∧ tk.inline = x.payload.drop 80) ∧
    (∃ (s : State) (x : Datagram) (tk : Taken), s.takesDatagram x 1 = true ∧ (s.mslot .kresia (le x.payload 6 1) (le x.payload 7 1)).locked = true ∧ (s.mslot .kresia (le x.payload 6 1) (le x.payload 7 1)).slot64 = ((x.payload.drop 16).take 64) ∧ (s.mslot .kresia (le x.payload 6 1) (le x.payload 7 1)).taken = some tk ∧ tk.inline ≠ x.payload.drop 80) ∧
    (∃ (s : State) (x : Datagram), s.takesDatagram x 1 = true ∧ (s.mslot .kresia (le x.payload 6 1) (le x.payload 7 1)).locked = true ∧ (s.mslot .kresia (le x.payload 6 1) (le x.payload 7 1)).slot64 = ((x.payload.drop 16).take 64) ∧ (s.mslot .kresia (le x.payload 6 1) (le x.payload 7 1)).taken = none) :=
  ⟨⟨(withKs fun k => { k with c := { k.c with fw := { inReset := true } } }), .kresia, .priv, 0, 0, by decide +kernel⟩,
    ⟨State.reset, .baxel, .tenant 1, 0, 0, by decide +kernel⟩,
    ⟨(withKs fun k => { k with c := { k.c with fw := { mailboxes := [(0, { slots := [(0, { locked := true })] })] } } }), .kresia, .priv, 0, 0, by decide +kernel⟩,
    ⟨State.reset, .kresia, .priv, 0, 0, by decide +kernel⟩,
    ⟨(withKs fun k => { k with c := { k.c with fw := { serving := true } } }), .kresia, .priv, 0, 0, by decide +kernel⟩,
    ⟨State.reset, .baxel, .tenant 1, 0, 0, by decide +kernel⟩,
    ⟨(withKs fun k => { k with c := { k.c with fw := { mailboxes := [(0, { slots := [(0, { locked := true, comp := { ready := true } })] })] } } }), .kresia, .priv, 0, 0, by decide +kernel⟩,
    ⟨State.reset, .kresia, .priv, 0, 0, by decide +kernel⟩,
    ⟨State.reset, .kresia, .priv, 0, 0x10000, by decide +kernel⟩,
    ⟨State.reset, { port := 0, source := 9, udp := 7, payload := imgOf 80 [(0, 0x42), (1, 0x4D), (2, 0x53), (3, 0x4B), (4, 3), (5, 1)] }, by decide +kernel⟩,
    ⟨(withKs fun k => { k with c := { k.c with fw := { serving := true, allowList := [9], mailboxes := [(0, { slots := [(0, { lastRetired := some 0 })] })] } } }), { port := 0, source := 9, udp := 7, payload := imgOf 80 [(0, 0x42), (1, 0x4D), (2, 0x53), (3, 0x4B), (4, 3), (5, 1)] }, by decide +kernel⟩,
    ⟨(withKs fun k => { k with c := { k.c with fw := { serving := true, allowList := [9], mailboxes := [(0, { slots := [(0, {  })] })] } } }), { port := 0, source := 9, udp := 7, payload := imgOf 80 [(0, 0x42), (1, 0x4D), (2, 0x53), (3, 0x4B), (4, 3), (5, 1)] }, by decide +kernel⟩,
    ⟨(withKs fun k => { k with c := { k.c with fw := { serving := true, allowList := [9], mailboxes := [(0, { slots := [(0, { locked := true, bytes := [1] })] })] } } }), { port := 0, source := 9, udp := 7, payload := imgOf 80 [(0, 0x42), (1, 0x4D), (2, 0x53), (3, 0x4B), (4, 3), (5, 1)] }, by decide +kernel⟩,
    ⟨(withKs fun k => { k with c := { k.c with fw := { serving := true, allowList := [9], mailboxes := [(0, { slots := [(0, { locked := true, taken := some (cmdOf []) })] })] } } }), { port := 0, source := 9, udp := 7, payload := imgOf 80 [(0, 0x42), (1, 0x4D), (2, 0x53), (3, 0x4B), (4, 3), (5, 1)] }, cmdOf [], by decide +kernel⟩,
    ⟨(withKs fun k => { k with c := { k.c with fw := { serving := true, allowList := [9], mailboxes := [(0, { slots := [(0, { locked := true, taken := some { cmdOf [] with inline := [1] } })] })] } } }), { port := 0, source := 9, udp := 7, payload := imgOf 80 [(0, 0x42), (1, 0x4D), (2, 0x53), (3, 0x4B), (4, 3), (5, 1)] }, { cmdOf [] with inline := [1] }, by decide +kernel⟩,
    ⟨(withKs fun k => { k with c := { k.c with fw := { serving := true, allowList := [9], mailboxes := [(0, { slots := [(0, { locked := true })] })] } } }), { port := 0, source := 9, udp := 7, payload := imgOf 80 [(0, 0x42), (1, 0x4D), (2, 0x53), (3, 0x4B), (4, 3), (5, 1)] }, by decide +kernel⟩⟩

theorem wit_MailboxesRingAndRetire_2 :
    (∃ (s : State) (x : Datagram), s.takesDatagram x 3 = false) ∧
    (∃ (s : State) (x : Datagram), s.takesDatagram x 3 = true) :=
  ⟨⟨State.reset, { port := 0, source := 9, udp := 7, payload := imgOf 18 [(0, 0x42), (1, 0x4D), (2, 0x53), (3, 0x4B), (4, 3), (5, 3)] }, by decide +kernel⟩,
    ⟨(withKs fun k => { k with c := { k.c with fw := { serving := true, allowList := [9], mailboxes := [(0, { slots := [(0, {  })] })] } } }), { port := 0, source := 9, udp := 7, payload := imgOf 18 [(0, 0x42), (1, 0x4D), (2, 0x53), (3, 0x4B), (4, 3), (5, 3)] }, by decide +kernel⟩⟩

theorem wit_RegisterWritesByView :
    (∃ (s : State) (v : View) (a : Nat) (w : Word), s.bx.c.fw.inReset = true) ∧
    (∃ (s : State) (v : View) (a : Nat) (w : Word), s.ks.c.fw.inReset = true) ∧
    (∃ (s : State) (u : Nat) (a : Nat) (w : Word), s.bx.c.fw.inReset = false ∧ a % 4 = 0 ∧ s.tenantReaches u a = false ∧ (a < 0x6000 ∨ 0x6400 ≤ a)) ∧
    (∃ (s : State) (a : Nat) (w : Word), s.bx.c.fw.inReset = false) ∧
    (∃ (s : State) (a : Nat) (w : Word), s.bx.c.fw.inReset = false ∧ (a = 0x10 ∨ a = 0x14)) ∧
    (∃ (s : State) (w : Word), s.bx.c.fw.inReset = false) ∧
    (∃ (s : State) (v : View) (a : Nat) (w : Word), s.ks.c.fw.inReset = false ∧ a % 4 = 0 ∧ ksMapped a = false) ∧
    (∃ (s : State) (v : View) (a : Nat) (w : Word), s.ks.c.fw.inReset = false ∧ a ≤ 0xF) ∧
    (∃ (s : State) (m : Nat) (w : Word), s.ks.c.fw.inReset = false ∧ m < 64) :=
  ⟨⟨(withBx fun b => { b with c := { b.c with fw := { inReset := true } } }), .priv, 0x10, 5, by decide +kernel⟩,
    ⟨(withKs fun k => { k with c := { k.c with fw := { inReset := true } } }), .priv, 0x10, 5, by decide +kernel⟩,
    ⟨State.reset, 1, 0x10, 5, by decide +kernel⟩,
    ⟨State.reset, 0x10, 5, by decide +kernel⟩,
    ⟨State.reset, 0x10, 5, by decide +kernel⟩,
    ⟨State.reset, 5, by decide +kernel⟩,
    ⟨State.reset, .priv, 0x28, 5, by decide +kernel⟩,
    ⟨State.reset, .priv, 8, 5, by decide +kernel⟩,
    ⟨State.reset, 3, 0, by decide +kernel⟩⟩

theorem wit_MailboxRegisterAndStageCommands_1 :
    (∃ (s : State) (p : Part) (m : Nat) (k : Nat) (tk : Taken), s.ready p m k 0x0001 tk) ∧
    (∃ (s : State) (m : Nat) (k : Nat) (tk : Taken), s.ready .kresia m k 0x0002 tk ∧ 64 ≤ tk.f 8 1) ∧
    (∃ (s : State) (m : Nat) (k : Nat) (tk : Taken), s.ready .kresia m k 0x0002 tk ∧ tk.f 8 1 < 64 ∧ (tk.f 8 1 < 4 ∨ ((s.begun .kresia m k).mbox .kresia (tk.f 8 1)).bound.isSome = true ∨ (s.dom (tk.f 10 2)).positions = [])) ∧
    (∃ (s : State) (m : Nat) (k : Nat) (tk : Taken), s.ready .kresia m k 0x0002 tk ∧ 4 ≤ tk.f 8 1 ∧ tk.f 8 1 < 64 ∧ ((s.begun .kresia m k).mbox .kresia (tk.f 8 1)).bound = none ∧ (s.dom (tk.f 10 2)).positions ≠ []) ∧
    (∃ (s : State) (m : Nat) (k : Nat) (tk : Taken), s.ready .kresia m k 0x0003 tk ∧ 64 ≤ tk.f 8 1) ∧
    (∃ (s : State) (m : Nat) (k : Nat) (tk : Taken), s.ready .kresia m k 0x0003 tk ∧ tk.f 8 1 < 64 ∧ (tk.f 8 1 < 4 ∨ ((s.begun .kresia m k).mbox .kresia (tk.f 8 1)).bound = none ∨ (((s.begun .kresia m k).mbox .kresia (tk.f 8 1)).slots.any fun (_, x) => x.locked) = true)) ∧
    (∃ (s : State) (m : Nat) (k : Nat) (tk : Taken), s.ready .kresia m k 0x0003 tk ∧ 4 ≤ tk.f 8 1 ∧ tk.f 8 1 < 64 ∧ m < 4 ∧ ((s.begun .kresia m k).mbox .kresia (tk.f 8 1)).bound.isSome = true ∧ (((s.begun .kresia m k).mbox .kresia (tk.f 8 1)).slots.any fun (_, x) => x.locked) = false) ∧
    (∃ (s : State) (m : Nat) (k : Nat) (tk : Taken), s.ready .kresia m k 0x0010 tk ∧ (tk.f 12 1 = 0 ∨ 12 < tk.f 12 1)) ∧
    (∃ (s : State) (m : Nat) (k : Nat) (tk : Taken), s.ready .kresia m k 0x0010 tk ∧ 1 ≤ tk.f 12 1 ∧ tk.f 12 1 ≤ 12 ∧ ((List.range (tk.f 12 1)).any fun i => !ksMapped (tk.f 8 4 + 4 * i)) = true) ∧
    (∃ (s : State) (m : Nat) (k : Nat) (tk : Taken), s.ready .kresia m k 0x0010 tk ∧ 1 ≤ tk.f 12 1 ∧ tk.f 12 1 ≤ 12 ∧ ((List.range (tk.f 12 1)).any fun i => !ksMapped (tk.f 8 4 + 4 * i)) = false) ∧
    (∃ (s : State) (m : Nat) (k : Nat) (tk : Taken), s.ready .kresia m k 0x0011 tk ∧ (tk.f 12 1 = 0 ∨ 12 < tk.f 12 1)) ∧
    (∃ (s : State) (m : Nat) (k : Nat) (tk : Taken), s.ready .kresia m k 0x0011 tk ∧ 1 ≤ tk.f 12 1 ∧ tk.f 12 1 ≤ 12 ∧ ((List.range (tk.f 12 1)).any fun i => !ksMapped (tk.f 8 4 + 4 * i)) = true) ∧
    (∃ (s : State) (m : Nat) (k : Nat) (tk : Taken), s.ready .kresia m k 0x0011 tk ∧ tk.f 12 1 = 1 ∧ ksMapped (tk.f 8 4) = true) ∧
    (∃ (s : State) (m : Nat) (k : Nat) (tk : Taken), s.ready .kresia m k 0x0020 tk ∧ (tk.f 8 4 < 64 ∨ 2 ^ 28 < tk.f 8 4 ∨ tk.f 8 4 % 64 ≠ 0)) ∧
    (∃ (s : State) (m : Nat) (k : Nat) (tk : Taken), s.ready .kresia m k 0x0020 tk ∧ 64 ≤ tk.f 8 4 ∧ tk.f 8 4 ≤ 2 ^ 28 ∧ tk.f 8 4 % 64 = 0 ∧ s.ks.c.fw.stages.length < 2 ^ 32 ∧ (s.ks.c.fw.stages.filter fun (_, x) => x.mailbox = m).length < 16 ∧ s.stageUsed + tk.f 8 4 ≤ 2 ^ 30) ∧
    (∃ (s : State) (m : Nat) (k : Nat) (tk : Taken), s.ready .kresia m k 0x0020 tk ∧ 64 ≤ tk.f 8 4 ∧ tk.f 8 4 ≤ 2 ^ 28 ∧ tk.f 8 4 % 64 = 0 ∧ (16 ≤ (s.ks.c.fw.stages.filter fun (_, x) => x.mailbox = m).length ∨ 2 ^ 30 < s.stageUsed + tk.f 8 4)) :=
  ⟨⟨(withKs fun k => { k with c := { k.c with fw := fwOf (cmdOf [(0, 1), (1, 0)]) } }), .kresia, 0, 0, (cmdOf [(0, 1), (1, 0)]), by decide +kernel⟩,
    ⟨(withKs fun k => { k with c := { k.c with fw := fwOf (cmdOf [(0, 2), (1, 0), (8, 64)]) } }), 0, 0, (cmdOf [(0, 2), (1, 0), (8, 64)]), by decide +kernel⟩,
    ⟨(withKs fun k => { k with c := { k.c with fw := fwOf (cmdOf [(0, 2), (1, 0), (8, 5)]) } }), 0, 0, (cmdOf [(0, 2), (1, 0), (8, 5)]), by decide +kernel⟩,
    ⟨(withKs fun k => { k with doms := [(0, { positions := [⟨{ member := 3 }, true, false⟩] })], c := { k.c with fw := fwOf (cmdOf [(0, 2), (1, 0), (8, 5)]) } }), 0, 0, (cmdOf [(0, 2), (1, 0), (8, 5)]), by decide +kernel⟩,
    ⟨(withKs fun k => { k with c := { k.c with fw := fwOf (cmdOf [(0, 3), (1, 0), (8, 64)]) } }), 0, 0, (cmdOf [(0, 3), (1, 0), (8, 64)]), by decide +kernel⟩,
    ⟨(withKs fun k => { k with c := { k.c with fw := fwOf (cmdOf [(0, 3), (1, 0), (8, 5)]) } }), 0, 0, (cmdOf [(0, 3), (1, 0), (8, 5)]), by decide +kernel⟩,
    ⟨(withKs fun k => { k with c := { k.c with fw := { fwOf (cmdOf [(0, 3), (1, 0), (8, 5)]) with mailboxes := [(0, { slots := [(0, { taken := some (cmdOf [(0, 3), (1, 0), (8, 5)]) })] }), (5, { bound := some (1, 0, 0) })] } } }), 0, 0, (cmdOf [(0, 3), (1, 0), (8, 5)]), by decide +kernel⟩,
    ⟨(withKs fun k => { k with c := { k.c with fw := fwOf (cmdOf [(0, 16), (1, 0)]) } }), 0, 0, (cmdOf [(0, 16), (1, 0)]), by decide +kernel⟩,
    ⟨(withKs fun k => { k with c := { k.c with fw := fwOf (cmdOf [(0, 16), (1, 0), (8, 40), (12, 1)]) } }), 0, 0, (cmdOf [(0, 16), (1, 0), (8, 40), (12, 1)]), by decide +kernel⟩,
    ⟨(withKs fun k => { k with c := { k.c with fw := fwOf (cmdOf [(0, 16), (1, 0), (8, 4), (12, 1)]) } }), 0, 0, (cmdOf [(0, 16), (1, 0), (8, 4), (12, 1)]), by decide +kernel⟩,
    ⟨(withKs fun k => { k with c := { k.c with fw := fwOf (cmdOf [(0, 17), (1, 0)]) } }), 0, 0, (cmdOf [(0, 17), (1, 0)]), by decide +kernel⟩,
    ⟨(withKs fun k => { k with c := { k.c with fw := fwOf (cmdOf [(0, 17), (1, 0), (8, 40), (12, 1)]) } }), 0, 0, (cmdOf [(0, 17), (1, 0), (8, 40), (12, 1)]), by decide +kernel⟩,
    ⟨(withKs fun k => { k with c := { k.c with fw := fwOf (cmdOf [(0, 17), (1, 0), (8, 4), (12, 1)]) } }), 0, 0, (cmdOf [(0, 17), (1, 0), (8, 4), (12, 1)]), by decide +kernel⟩,
    ⟨(withKs fun k => { k with c := { k.c with fw := fwOf (cmdOf [(0, 32), (1, 0)]) } }), 0, 0, (cmdOf [(0, 32), (1, 0)]), by decide +kernel⟩,
    ⟨(withKs fun k => { k with c := { k.c with fw := fwOf (cmdOf [(0, 32), (1, 0), (8, 64)]) } }), 0, 0, (cmdOf [(0, 32), (1, 0), (8, 64)]), by decide +kernel⟩,
    ⟨(withKs fun k => { k with c := { k.c with fw := { fwOf (cmdOf [(0, 32), (1, 0), (8, 64)]) with stages := (List.range 16).map fun i => (i, ⟨0, []⟩) } } }), 0, 0, (cmdOf [(0, 32), (1, 0), (8, 64)]), by decide +kernel⟩⟩

theorem wit_MailboxRegisterAndStageCommands_2 :
    (∃ (s : State) (m : Nat) (k : Nat) (tk : Taken), s.ready .kresia m k 0x0021 tk ∧ s.stageOf m (tk.f 8 4) = none) ∧
    (∃ (s : State) (m : Nat) (k : Nat) (tk : Taken) (area : List Byte), s.ready .kresia m k 0x0021 tk ∧ s.stageOf m (tk.f 8 4) = some area ∧ tk.f 12 4 % 64 ≠ 0) ∧
    (∃ (s : State) (m : Nat) (k : Nat) (tk : Taken) (area : List Byte) (bs : List Byte), s.ready .kresia m k 0x0021 tk ∧ s.stageOf m (tk.f 8 4) = some area ∧ tk.f 12 4 % 64 = 0 ∧ (bs = if tk.ports.isEmpty then tk.inline.take (area.length - tk.f 12 4) else tk.inline) ∧ area.length < tk.f 12 4 + bs.length) ∧
    (∃ (s : State) (m : Nat) (k : Nat) (tk : Taken) (area : List Byte) (bs : List Byte), s.ready .kresia m k 0x0021 tk ∧ s.stageOf m (tk.f 8 4) = some area ∧ tk.f 12 4 % 64 = 0 ∧ (bs = if tk.ports.isEmpty then tk.inline.take (area.length - tk.f 12 4) else tk.inline) ∧ tk.f 12 4 + bs.length ≤ area.length) ∧
    (∃ (s : State) (m : Nat) (k : Nat) (tk : Taken), s.ready .kresia m k 0x0022 tk ∧ s.stageOf m (tk.f 8 4) = none) ∧
    (∃ (s : State) (m : Nat) (k : Nat) (tk : Taken) (area : List Byte), s.ready .kresia m k 0x0022 tk ∧ s.stageOf m (tk.f 8 4) = some area ∧ (tk.f 12 4 % 64 ≠ 0 ∨ tk.f 16 2 % 64 ≠ 0 ∨ 8192 < tk.f 16 2)) ∧
    (∃ (s : State) (m : Nat) (k : Nat) (tk : Taken) (area : List Byte), s.ready .kresia m k 0x0022 tk ∧ s.stageOf m (tk.f 8 4) = some area ∧ tk.f 12 4 % 64 = 0 ∧ tk.f 16 2 % 64 = 0 ∧ tk.f 16 2 ≤ 8192) ∧
    (∃ (s : State) (m : Nat) (k : Nat) (tk : Taken), s.ready .kresia m k 0x0023 tk ∧ s.stageOf m (tk.f 8 4) = none) ∧
    (∃ (s : State) (m : Nat) (k : Nat) (tk : Taken) (area : List Byte), s.ready .kresia m k 0x0023 tk ∧ s.stageOf m (tk.f 8 4) = some area) :=
  ⟨⟨(withKs fun k => { k with c := { k.c with fw := fwOf (cmdOf [(0, 33), (1, 0)]) } }), 0, 0, (cmdOf [(0, 33), (1, 0)]), by decide +kernel⟩,
    ⟨(withKs fun k => { k with c := { k.c with fw := { fwOf (cmdOf [(0, 33), (1, 0), (8, 7), (12, 3)]) with stages := [(7, ⟨0, List.replicate 128 0⟩)] } } }), 0, 0, (cmdOf [(0, 33), (1, 0), (8, 7), (12, 3)]), List.replicate 128 0, by decide +kernel⟩,
    ⟨(withKs fun k => { k with c := { k.c with fw := { fwOf (cmdOf [(0, 33), (1, 0), (8, 7), (12, 192)]) with stages := [(7, ⟨0, List.replicate 128 0⟩)] } } }), 0, 0, (cmdOf [(0, 33), (1, 0), (8, 7), (12, 192)]), List.replicate 128 0, [], by decide +kernel⟩,
    ⟨(withKs fun k => { k with c := { k.c with fw := { fwOf (cmdOf [(0, 33), (1, 0), (8, 7), (12, 64)]) with stages := [(7, ⟨0, List.replicate 128 0⟩)] } } }), 0, 0, (cmdOf [(0, 33), (1, 0), (8, 7), (12, 64)]), List.replicate 128 0, [], by decide +kernel⟩,
    ⟨(withKs fun k => { k with c := { k.c with fw := fwOf (cmdOf [(0, 34), (1, 0)]) } }), 0, 0, (cmdOf [(0, 34), (1, 0)]), by decide +kernel⟩,
    ⟨(withKs fun k => { k with c := { k.c with fw := { fwOf (cmdOf [(0, 34), (1, 0), (8, 7), (12, 3)]) with stages := [(7, ⟨0, List.replicate 128 0⟩)] } } }), 0, 0, (cmdOf [(0, 34), (1, 0), (8, 7), (12, 3)]), List.replicate 128 0, by decide +kernel⟩,
    ⟨(withKs fun k => { k with c := { k.c with fw := { fwOf (cmdOf [(0, 34), (1, 0), (8, 7), (16, 64)]) with stages := [(7, ⟨0, List.replicate 128 0⟩)] } } }), 0, 0, (cmdOf [(0, 34), (1, 0), (8, 7), (16, 64)]), List.replicate 128 0, by decide +kernel⟩,
    ⟨(withKs fun k => { k with c := { k.c with fw := fwOf (cmdOf [(0, 35), (1, 0)]) } }), 0, 0, (cmdOf [(0, 35), (1, 0)]), by decide +kernel⟩,
    ⟨(withKs fun k => { k with c := { k.c with fw := { fwOf (cmdOf [(0, 35), (1, 0), (8, 7)]) with stages := [(7, ⟨0, List.replicate 128 0⟩)] } } }), 0, 0, (cmdOf [(0, 35), (1, 0), (8, 7)]), List.replicate 128 0, by decide +kernel⟩⟩

theorem wit_TimeAndMemberCommands_1 :
    (∃ (s : State) (p : Part) (m : Nat) (k : Nat) (tk : Taken), s.ready p m k 0x0101 tk) ∧
    (∃ (s : State) (m : Nat) (k : Nat) (tk : Taken), s.ready .kresia m k 0x0102 tk ∧ s.ks.c.time.crown.role ≠ 1) ∧
    (∃ (s : State) (m : Nat) (k : Nat) (tk : Taken), s.ready .kresia m k 0x0102 tk ∧ s.ks.c.time.crown.role = 1 ∧ (leOt tk.bytes 8).malformed = true) ∧
    (∃ (s : State) (m : Nat) (k : Nat) (tk : Taken), s.ready .kresia m k 0x0102 tk ∧ s.ks.c.time.crown.role = 1 ∧ (leOt tk.bytes 8).malformed = false ∧ s.ks.c.time.crown.isRoot = false ∧ s.ks.c.time.rateFreq.natAbs ≤ 34359738368) ∧
    (∃ (s : State) (m : Nat) (k : Nat) (tk : Taken), s.ready .kresia m k 0x0103 tk ∧ s.ks.c.time.crown.role ≠ 1) ∧
    (∃ (s : State) (m : Nat) (k : Nat) (tk : Taken), s.ready .kresia m k 0x0103 tk ∧ s.ks.c.time.crown.role = 1 ∧ s.ks.c.time.crown.isRoot = true) ∧
    (∃ (s : State) (m : Nat) (k : Nat) (tk : Taken), s.ready .kresia m k 0x0103 tk ∧ s.ks.c.time.crown.role = 1 ∧ s.ks.c.time.crown.isRoot = false) ∧
    (∃ (s : State) (m : Nat) (k : Nat) (tk : Taken), s.ready .kresia m k 0x0105 tk ∧ ((List.range 4).all fun i => ((List.range 4).map fun j => tk.f (8 + j) 1).contains (i + 1)) = false) ∧
    (∃ (s : State) (m : Nat) (k : Nat) (tk : Taken), s.ready .kresia m k 0x0105 tk ∧ [tk.f 8 1, tk.f 9 1, tk.f 10 1, tk.f 11 1] = [2, 1, 3, 4] ∧ [tk.f 12 1, tk.f 13 1, tk.f 14 1, tk.f 15 1] = [4, 3, 2, 1]) ∧
    (∃ (s : State) (m : Nat) (k : Nat) (tk : Taken) (a : List PhaseSource) (b : List FreqSource), s.ready .kresia m k 0x0105 tk ∧ orderOf [PhaseSource.ptp, .pps, .none, .none] ((List.range 4).map fun i => tk.f (8 + i) 1) = some a ∧ orderOf [FreqSource.syncE, .fref, .ptpRate, .board] ((List.range 4).map fun i => tk.f (12 + i) 1) = some b) ∧
    (∃ (s : State) (m : Nat) (k : Nat) (tk : Taken), s.ready .kresia m k 0x0104 tk ∧ (s.ks.c.time.crown.role = 0 ∨ s.ks.c.time.crown.siteRoot = true)) ∧
    (∃ (s : State) (m : Nat) (k : Nat) (tk : Taken), s.ready .kresia m k 0x0104 tk ∧ s.ks.c.time.crown.role ≠ 0 ∧ s.ks.c.time.crown.siteRoot = false ∧ 2 ≤ tk.f 9 1) ∧
    (∃ (s : State) (m : Nat) (k : Nat) (tk : Taken), s.ready .kresia m k 0x0104 tk ∧ s.ks.c.time.crown.role ≠ 0 ∧ s.ks.c.time.crown.siteRoot = false ∧ (s.pt .kresia (tk.f 8 1)).swapFits (tk.f 9 1) = true ∧ (s.pt .kresia (tk.f 8 1)).swapPhase = some (tk.f 9 1) ∧ (s.pt .kresia (tk.f 8 1)).swapCount ≠ 1024) ∧
    (∃ (s : State) (m : Nat) (k : Nat) (tk : Taken), s.ready .kresia m k 0x0104 tk ∧ s.ks.c.time.crown.role ≠ 0 ∧ s.ks.c.time.crown.siteRoot = false ∧ (s.pt .kresia (tk.f 8 1)).swapFits (tk.f 9 1) = true ∧ (s.pt .kresia (tk.f 8 1)).swapPhase ≠ some (tk.f 9 1)) ∧
    (∃ (s : State) (m : Nat) (k : Nat) (tk : Taken), s.ready .kresia m k 0x0104 tk ∧ s.ks.c.time.crown.role ≠ 0 ∧ s.ks.c.time.crown.siteRoot = false ∧ tk.f 9 1 = 1 ∧ (s.pt .kresia (tk.f 8 1)).thetaA = none) ∧
    (∃ (s : State) (m : Nat) (k : Nat) (tk : Taken), s.ready .kresia m k 0x0104 tk ∧ s.ks.c.time.crown.role ≠ 0 ∧ s.ks.c.time.crown.siteRoot = false ∧ tk.f 9 1 = 0 ∧ (s.pt .kresia (tk.f 8 1)).swapPhase = some 0 ∧ (s.pt .kresia (tk.f 8 1)).swapCount = 1024) :=
  ⟨⟨(withKs fun k => { k with c := { k.c with fw := fwOf (cmdOf [(0, 1), (1, 1)]) } }), .kresia, 0, 0, (cmdOf [(0, 1), (1, 1)]), by decide +kernel⟩,
    ⟨(withKs fun k => { k with c := { k.c with fw := fwOf (cmdOf [(0, 2), (1, 1)]) } }), 0, 0, (cmdOf [(0, 2), (1, 1)]), by decide +kernel⟩,
    ⟨(withKs fun k => { k with c := { k.c with time := { crown := { role := 1 } }, fw := fwOf (cmdOf [(0, 2), (1, 1), (8, 255), (9, 255), (10, 255), (11, 255), (12, 255), (13, 255)]) } }), 0, 0, (cmdOf [(0, 2), (1, 1), (8, 255), (9, 255), (10, 255), (11, 255), (12, 255), (13, 255)]), by decide +kernel⟩,
    ⟨(withKs fun k => { k with c := { k.c with time := { crown := { role := 1 } }, fw := fwOf (cmdOf [(0, 2), (1, 1)]) } }), 0, 0, (cmdOf [(0, 2), (1, 1)]), by decide +kernel⟩,
    ⟨(withKs fun k => { k with c := { k.c with fw := fwOf (cmdOf [(0, 3), (1, 1)]) } }), 0, 0, (cmdOf [(0, 3), (1, 1)]), by decide +kernel⟩,
    ⟨(withKs fun k => { k with c := { k.c with time := { crown := { role := 1, isRoot := true } }, fw := fwOf (cmdOf [(0, 3), (1, 1)]) } }), 0, 0, (cmdOf [(0, 3), (1, 1)]), by decide +kernel⟩,
    ⟨(withKs fun k => { k with c := { k.c with time := { crown := { role := 1 } }, fw := fwOf (cmdOf [(0, 3), (1, 1)]) } }), 0, 0, (cmdOf [(0, 3), (1, 1)]), by decide +kernel⟩,
    ⟨(withKs fun k => { k with c := { k.c with fw := fwOf (cmdOf [(0, 5), (1, 1)]) } }), 0, 0, (cmdOf [(0, 5), (1, 1)]), by decide +kernel⟩,
    ⟨(withKs fun k => { k with c := { k.c with fw := fwOf (cmdOf [(0, 5), (1, 1), (8, 2), (9, 1), (10, 3), (11, 4), (12, 4), (13, 3), (14, 2), (15, 1)]) } }), 0, 0, (cmdOf [(0, 5), (1, 1), (8, 2), (9, 1), (10, 3), (11, 4), (12, 4), (13, 3), (14, 2), (15, 1)]), by decide +kernel⟩,
    ⟨(withKs fun k => { k with c := { k.c with fw := fwOf (cmdOf [(0, 5), (1, 1), (8, 1), (9, 2), (10, 3), (11, 4), (12, 4), (13, 3), (14, 2), (15, 1)]) } }), 0, 0, (cmdOf [(0, 5), (1, 1), (8, 1), (9, 2), (10, 3), (11, 4), (12, 4), (13, 3), (14, 2), (15, 1)]), [.ptp, .pps, .none, .none], [.board, .ptpRate, .fref, .syncE], by decide +kernel⟩,
    ⟨(withKs fun k => { k with c := { k.c with time := {}, fw := fwOf (cmdOf [(0, 4), (1, 1)]) } }), 0, 0, (cmdOf [(0, 4), (1, 1)]), by decide +kernel⟩,
    ⟨(withKs fun k => { k with c := { k.c with time := { crown := { role := 1 } }, fw := fwOf (cmdOf [(0, 4), (1, 1), (9, 2)]) } }), 0, 0, (cmdOf [(0, 4), (1, 1), (9, 2)]), by decide +kernel⟩,
    ⟨(withKs fun k => { k with c := { k.c with time := { crown := { role := 1 }, ports := [(0, { swapPhase := some 0, swapCount := 3 })] }, fw := fwOf (cmdOf [(0, 4), (1, 1)]) } }), 0, 0, (cmdOf [(0, 4), (1, 1)]), by decide +kernel⟩,
    ⟨(withKs fun k => { k with c := { k.c with time := { crown := { role := 1 } }, fw := fwOf (cmdOf [(0, 4), (1, 1)]) } }), 0, 0, (cmdOf [(0, 4), (1, 1)]), by decide +kernel⟩,
    ⟨(withKs fun k => { k with c := { k.c with time := { crown := { role := 1 } }, fw := fwOf (cmdOf [(0, 4), (1, 1), (9, 1)]) } }), 0, 0, (cmdOf [(0, 4), (1, 1), (9, 1)]), by decide +kernel⟩,
    ⟨(withKs fun k => { k with c := { k.c with time := { crown := { role := 1 }, ports := [(0, { swapPhase := some 0, swapCount := 1024, swapSum := 4096 })] }, fw := fwOf (cmdOf [(0, 4), (1, 1)]) } }), 0, 0, (cmdOf [(0, 4), (1, 1)]), by decide +kernel⟩⟩

theorem wit_TimeAndMemberCommands_2 :
    (∃ (s : State) (m : Nat) (k : Nat) (tk : Taken) (a : Int), s.ready .kresia m k 0x0104 tk ∧ s.ks.c.time.crown.role ≠ 0 ∧ s.ks.c.time.crown.siteRoot = false ∧ tk.f 9 1 = 1 ∧ (s.pt .kresia (tk.f 8 1)).swapPhase = some 1 ∧ (s.pt .kresia (tk.f 8 1)).swapCount = 1024 ∧ (s.pt .kresia (tk.f 8 1)).thetaA = some a ∧ -65536 ≤ asymOf a (floorDiv (s.pt .kresia (tk.f 8 1)).swapSum 1024) ∧ asymOf a (floorDiv (s.pt .kresia (tk.f 8 1)).swapSum 1024) ≤ 65536) ∧
    (∃ (s : State) (m : Nat) (k : Nat) (tk : Taken) (a : Int), s.ready .kresia m k 0x0104 tk ∧ s.ks.c.time.crown.role ≠ 0 ∧ s.ks.c.time.crown.siteRoot = false ∧ tk.f 9 1 = 1 ∧ (s.pt .kresia (tk.f 8 1)).swapPhase = some 1 ∧ (s.pt .kresia (tk.f 8 1)).swapCount = 1024 ∧ (s.pt .kresia (tk.f 8 1)).thetaA = some a ∧ (asymOf a (floorDiv (s.pt .kresia (tk.f 8 1)).swapSum 1024) < -65536 ∨ 65536 < asymOf a (floorDiv (s.pt .kresia (tk.f 8 1)).swapSum 1024))) ∧
    (∃ (s : State) (m : Nat) (k : Nat) (tk : Taken), s.ready .kresia m k 0x0201 tk ∧ s.isSpine = true) ∧
    (∃ (s : State) (m : Nat) (k : Nat) (tk : Taken), s.ready .kresia m k 0x0201 tk ∧ s.isSpine = false ∧ (2 ^ 20 ≤ tk.f 8 3 ∨ s.ks.build.dies ≤ tk.f 11 1)) ∧
    (∃ (s : State) (m : Nat) (k : Nat) (tk : Taken), s.ready .kresia m k 0x0201 tk ∧ s.isSpine = false ∧ tk.f 8 3 < 2 ^ 20 ∧ tk.f 11 1 < s.ks.build.dies ∧ (s.ksReady = false ∨ (s.lp .kresia (tk.f 11 1)).hb = none)) ∧
    (∃ (s : State) (m : Nat) (k : Nat) (tk : Taken) (b : Heartbeat), s.ready .kresia m k 0x0201 tk ∧ s.isSpine = false ∧ tk.f 8 3 < 2 ^ 20 ∧ tk.f 11 1 < s.ks.build.dies ∧ s.ksReady = true ∧ (s.lp .kresia (tk.f 11 1)).hb = some b) ∧
    (∃ (s : State) (m : Nat) (k : Nat) (tk : Taken), s.ready .kresia m k 0x0202 tk ∧ FMap.find? s.ks.admitted (tk.f 8 3) = none) ∧
    (∃ (s : State) (m : Nat) (k : Nat) (tk : Taken) (port : Nat), s.ready .kresia m k 0x0202 tk ∧ FMap.find? s.ks.admitted (tk.f 8 3) = some port) ∧
    (∃ (s : State) (port : Nat) (member : Nat), port < 8 ∧ s.bit .baxel 4 31 = false) ∧
    (∃ (s : State) (port : Nat) (member : Nat), (8 ≤ port ∨ s.bit .baxel 4 31 = true)) ∧
    (∃ (s : State) (port : Nat), port < 8 ∧ s.bit .baxel 4 31 = true) ∧
    (∃ (s : State) (port : Nat) (member : Nat), (8 ≤ port ∨ s.bit .baxel 4 31 = false ∨ member ≠ s.node .baxel)) ∧
    (∃ (s : State) (x : Binding), x.member = s.node .baxel ∧ s.bit .baxel 4 31 = true ∧ x.tenant < 4 ∧ x.bound = true ∧ (s.ten x.tenant).domain = none) ∧
    (∃ (s : State) (x : Binding) (d : Nat), x.member = s.node .baxel ∧ s.bit .baxel 4 31 = true ∧ x.tenant < 4 ∧ x.bound = true ∧ (s.ten x.tenant).domain = some d) ∧
    (∃ (s : State) (x : Binding), x.member = s.node .baxel ∧ s.bit .baxel 4 31 = true ∧ x.tenant < 4 ∧ x.bound = false ∧ (s.ten x.tenant).domain = some x.domain ∧ s.slotsOf x.tenant = []) ∧
    (∃ (s : State) (x : Binding), x.member = s.node .baxel ∧ s.bit .baxel 4 31 = true ∧ x.tenant < 4 ∧ x.bound = false ∧ (s.ten x.tenant).domain = some x.domain) :=
  ⟨⟨(withKs fun k => { k with c := { k.c with time := { crown := { role := 1 }, ports := [(0, { swapPhase := some 1, swapCount := 1024, swapSum := 4096, thetaA := some 10 })] }, fw := fwOf (cmdOf [(0, 4), (1, 1), (9, 1)]) } }), 0, 0, (cmdOf [(0, 4), (1, 1), (9, 1)]), 10, by decide +kernel⟩,
    ⟨(withKs fun k => { k with c := { k.c with time := { crown := { role := 1 }, ports := [(0, { swapPhase := some 1, swapCount := 1024, swapSum := 409600000, thetaA := some 10 })] }, fw := fwOf (cmdOf [(0, 4), (1, 1), (9, 1)]) } }), 0, 0, (cmdOf [(0, 4), (1, 1), (9, 1)]), 10, by decide +kernel⟩,
    ⟨(withKs fun k => { k with c := { k.c with fw := fwOf (cmdOf [(0, 1), (1, 2)]) } }).setBit .kresia 0x4 20 true, 0, 0, (cmdOf [(0, 1), (1, 2)]), by decide +kernel⟩,
    ⟨(withKs fun k => { k with c := { k.c with fw := fwOf (cmdOf [(0, 1), (1, 2), (11, 255)]) } }).setBit .kresia 0x4 20 false, 0, 0, (cmdOf [(0, 1), (1, 2), (11, 255)]), by decide +kernel⟩,
    ⟨(withKs fun k => { k with c := { k.c with fw := fwOf (cmdOf [(0, 1), (1, 2)]) } }).setBit .kresia 0x4 20 false, 0, 0, (cmdOf [(0, 1), (1, 2)]), by decide +kernel⟩,
    ⟨(withKs fun k => { k with c := { k.c with time := { state := .locked }, link := { ports := [(0, { hb := some { node := 7, timeState := 2 } })] }, fw := fwOf (cmdOf [(0, 1), (1, 2)]) } }).setBit .kresia 0x4 20 false, 0, 0, (cmdOf [(0, 1), (1, 2)]), { node := 7, timeState := 2 }, by decide +kernel⟩,
    ⟨(withKs fun k => { k with c := { k.c with fw := fwOf (cmdOf [(0, 2), (1, 2)]) } }), 0, 0, (cmdOf [(0, 2), (1, 2)]), by decide +kernel⟩,
    ⟨(withKs fun k => { k with admitted := [(5, 3)], c := { k.c with fw := fwOf (cmdOf [(0, 2), (1, 2), (8, 5)]) } }), 0, 0, (cmdOf [(0, 2), (1, 2), (8, 5)]), 3, by decide +kernel⟩,
    ⟨State.reset, 0, 7, by decide +kernel⟩,
    ⟨State.reset, 8, 7, by decide +kernel⟩,
    ⟨State.reset.wr .baxel 4 0x80000005, 0, by decide +kernel⟩,
    ⟨State.reset, 8, 7, by decide +kernel⟩,
    ⟨(State.reset.wr .baxel 4 0x80000005), ⟨3, 5, 1, true, 2, 0, 0, false⟩, by decide +kernel⟩,
    ⟨(withBx fun b => { b with tenants := [(1, { domain := some 9 })] }).wr .baxel 4 0x80000005, ⟨3, 5, 1, true, 2, 0, 0, false⟩, 9, by decide +kernel⟩,
    ⟨(withBx fun b => { b with tenants := [(1, { domain := some 3 })] }).wr .baxel 4 0x80000005, ⟨3, 5, 1, false, 2, 0, 0, false⟩, by decide +kernel⟩,
    ⟨(withBx fun b => { b with tenants := [(1, { domain := some 3 })] }).wr .baxel 4 0x80000005, ⟨3, 5, 1, false, 2, 0, 0, false⟩, by decide +kernel⟩⟩

theorem wit_TimeAndMemberCommands_3 :
    (∃ (s : State) (x : Binding), x.member = s.node .baxel ∧ s.bit .baxel 4 31 = true ∧ x.tenant < 4 ∧ x.bound = false ∧ (s.ten x.tenant).domain ≠ some x.domain) ∧
    (∃ (s : State) (x : Binding), x.member ≠ s.node .baxel ∧ (s.tenantOf x.domain = none ∨ x.bound = false)) ∧
    (∃ (s : State) (x : Binding) (u : Nat), x.member ≠ s.node .baxel ∧ s.tenantOf x.domain = some u ∧ x.bound = true) :=
  ⟨⟨(State.reset.wr .baxel 4 0x80000005), ⟨3, 5, 1, false, 2, 0, 0, false⟩, by decide +kernel⟩,
    ⟨State.reset, ⟨3, 5, 1, true, 0, 0, 0, false⟩, by decide +kernel⟩,
    ⟨(withBx fun b => { b with tenants := [(1, { domain := some 3 })] }), ⟨3, 5, 1, true, 0, 0, 0, false⟩, 1, by decide +kernel⟩⟩

theorem wit_TenantObjectAndFaultCommands_1 :
    (∃ (s : State) (m : Nat) (k : Nat) (tk : Taken), s.ready .baxel m k 0x0206 tk ∧ 4 ≤ tk.f 8 1) ∧
    (∃ (s : State) (m : Nat) (k : Nat) (tk : Taken), s.ready .baxel m k 0x0206 tk ∧ tk.f 8 1 < 4 ∧ (s.ten (tk.f 8 1)).faulted = false ∧ (s.ten (tk.f 8 1)).domain = none) ∧
    (∃ (s : State) (m : Nat) (k : Nat) (tk : Taken), s.ready .baxel m k 0x0206 tk ∧ tk.f 8 1 < 4) ∧
    (∃ (s : State) (m : Nat) (k : Nat) (tk : Taken), s.ready .baxel m k 0x0207 tk ∧ 4 ≤ tk.f 8 1) ∧
    (∃ (s : State) (m : Nat) (k : Nat) (tk : Taken), s.ready .baxel m k 0x0207 tk ∧ tk.f 8 1 < 4 ∧ (s.ten (tk.f 8 1)).faulted = false) ∧
    (∃ (s : State) (m : Nat) (k : Nat) (tk : Taken), s.ready .baxel m k 0x0207 tk ∧ tk.f 8 1 < 4 ∧ (s.ten (tk.f 8 1)).faulted = true) ∧
    (∃ (s : State) (m : Nat) (k : Nat) (tk : Taken) (c : Code), s.ready .kresia m k 0x0301 tk ∧ s.mailRefusal m tk = some c) ∧
    (∃ (s : State) (m : Nat) (k : Nat) (tk : Taken), s.ready .kresia m k 0x0301 tk ∧ s.mailRefusal m tk = none ∧ tk.f 10 1 = 0) ∧
    (∃ (s : State) (m : Nat) (k : Nat) (tk : Taken), s.ready .kresia m k 0x0301 tk ∧ s.mailRefusal m tk = none ∧ tk.f 10 1 = 1 ∧ (s.obj .kresia (tk.f 8 2)).value + tk.f 12 4 ≤ objMax ∧ (s.obj .kresia (tk.f 8 2)).waiters = []) ∧
    (∃ (s : State) (m : Nat) (k : Nat) (tk : Taken), s.ready .kresia m k 0x0301 tk ∧ s.mailRefusal m tk = none ∧ tk.f 10 1 = 1 ∧ objMax < (s.obj .kresia (tk.f 8 2)).value + tk.f 12 4 ∧ (s.obj .kresia (tk.f 8 2)).waiters = []) ∧
    (∃ (s : State) (m : Nat) (k : Nat) (tk : Taken), s.ready .kresia m k 0x0301 tk ∧ s.mailRefusal m tk = none ∧ tk.f 10 1 = 2 ∧ (s.obj .kresia (tk.f 8 2)).waiters = [] ∧ tk.f 12 4 ≤ (s.obj .kresia (tk.f 8 2)).value) ∧
    (∃ (s : State) (m : Nat) (k : Nat) (tk : Taken), s.ready .kresia m k 0x0301 tk ∧ s.mailRefusal m tk = none ∧ tk.f 10 1 = 2 ∧ (s.obj .kresia (tk.f 8 2)).value < tk.f 12 4 ∧ s.ksWaitRoom = true) ∧
    (∃ (s : State) (m : Nat) (k : Nat) (tk : Taken), s.ready .kresia m k 0x0301 tk ∧ s.mailRefusal m tk = none ∧ tk.f 10 1 = 2 ∧ (s.obj .kresia (tk.f 8 2)).value < tk.f 12 4 ∧ s.ksWaitRoom = false) ∧
    (∃ (s : State) (m : Nat) (k : Nat) (tk : Taken), s.ready .kresia m k 0x0301 tk ∧ s.mailRefusal m tk = none ∧ tk.f 10 1 = 3 ∧ tk.f 12 4 ≤ (s.obj .kresia (tk.f 8 2)).value) ∧
    (∃ (s : State) (m : Nat) (k : Nat) (tk : Taken), s.ready .kresia m k 0x0301 tk ∧ s.mailRefusal m tk = none ∧ tk.f 10 1 = 4 ∧ (s.obj .kresia (tk.f 8 2)).waiters = []) ∧
    (∃ (s : State) (m : Nat) (k : Nat) (tk : Taken) (ow : Nat) (w : Waiter) (l : List (Nat × Waiter)), s.ready .kresia m k 0x0301 tk ∧ s.mailRefusal m tk = none ∧ tk.f 10 1 = 5 ∧ s.mailTakes m (tk.f 16 2) = (ow, w) :: l) :=
  ⟨⟨(withBx fun b => { b with c := { b.c with fw := fwOf (cmdOf [(0, 6), (1, 2), (8, 4)]) } }), 0, 0, (cmdOf [(0, 6), (1, 2), (8, 4)]), by decide +kernel⟩,
    ⟨(withBx fun b => { b with c := { b.c with fw := fwOf (cmdOf [(0, 6), (1, 2), (8, 1)]) } }), 0, 0, (cmdOf [(0, 6), (1, 2), (8, 1)]), by decide +kernel⟩,
    ⟨(withBx fun b => { b with c := { b.c with fw := fwOf (cmdOf [(0, 6), (1, 2), (8, 1)]) } }), 0, 0, (cmdOf [(0, 6), (1, 2), (8, 1)]), by decide +kernel⟩,
    ⟨(withBx fun b => { b with c := { b.c with fw := fwOf (cmdOf [(0, 7), (1, 2), (8, 4)]) } }), 0, 0, (cmdOf [(0, 7), (1, 2), (8, 4)]), by decide +kernel⟩,
    ⟨(withBx fun b => { b with c := { b.c with fw := fwOf (cmdOf [(0, 7), (1, 2), (8, 1)]) } }), 0, 0, (cmdOf [(0, 7), (1, 2), (8, 1)]), by decide +kernel⟩,
    ⟨(withBx fun b => { b with tenants := [(1, { faulted := true })], c := { b.c with fw := fwOf (cmdOf [(0, 7), (1, 2), (8, 1)]) } }), 0, 0, (cmdOf [(0, 7), (1, 2), (8, 1)]), by decide +kernel⟩,
    ⟨(withKs fun k => { k with c := { k.c with fw := fwOf (cmdOf [(0, 1), (1, 3), (10, 9)]) } }), 0, 0, (cmdOf [(0, 1), (1, 3), (10, 9)]), 0x3004, by decide +kernel⟩,
    ⟨(withKs fun k => { k with objs := [(5, { domain := some 0, value := 4 })], c := { k.c with fw := fwOf (cmdOf [(0, 1), (1, 3), (8, 5)]) } }), 0, 0, (cmdOf [(0, 1), (1, 3), (8, 5)]), by decide +kernel⟩,
    ⟨(withKs fun k => { k with objs := [(5, { domain := some 0, value := 4 })], c := { k.c with fw := fwOf (cmdOf [(0, 1), (1, 3), (8, 5), (10, 1), (12, 3)]) } }), 0, 0, (cmdOf [(0, 1), (1, 3), (8, 5), (10, 1), (12, 3)]), by decide +kernel⟩,
    ⟨(withKs fun k => { k with objs := [(5, { domain := some 0, value := 4 })], c := { k.c with fw := fwOf (cmdOf [(0, 1), (1, 3), (8, 5), (10, 1), (12, 255), (13, 255), (14, 255), (15, 127)]) } }), 0, 0, (cmdOf [(0, 1), (1, 3), (8, 5), (10, 1), (12, 255), (13, 255), (14, 255), (15, 127)]), by decide +kernel⟩,
    ⟨(withKs fun k => { k with objs := [(5, { domain := some 0, value := 4 })], c := { k.c with fw := fwOf (cmdOf [(0, 1), (1, 3), (8, 5), (10, 2), (12, 3)]) } }), 0, 0, (cmdOf [(0, 1), (1, 3), (8, 5), (10, 2), (12, 3)]), by decide +kernel⟩,
    ⟨(withKs fun k => { k with objs := [(5, { domain := some 0, value := 4 })], c := { k.c with fw := fwOf (cmdOf [(0, 1), (1, 3), (8, 5), (10, 2), (12, 9)]) } }), 0, 0, (cmdOf [(0, 1), (1, 3), (8, 5), (10, 2), (12, 9)]), by decide +kernel⟩,
    ⟨(withKs fun k => { k with objs := [(5, { domain := some 0, waiters := List.replicate 16384 ⟨.mailbox 1 1, 0, 0, 1, 0, 0⟩ })], c := { k.c with fw := fwOf (cmdOf [(0, 1), (1, 3), (8, 5), (10, 2), (12, 9)]) } }), 0, 0, (cmdOf [(0, 1), (1, 3), (8, 5), (10, 2), (12, 9)]), by decide +kernel⟩,
    ⟨(withKs fun k => { k with objs := [(5, { domain := some 0, value := 4 })], c := { k.c with fw := fwOf (cmdOf [(0, 1), (1, 3), (8, 5), (10, 3), (12, 3)]) } }), 0, 0, (cmdOf [(0, 1), (1, 3), (8, 5), (10, 3), (12, 3)]), by decide +kernel⟩,
    ⟨(withKs fun k => { k with objs := [(5, { domain := some 0, value := 4, poison := true })], c := { k.c with fw := fwOf (cmdOf [(0, 1), (1, 3), (8, 5), (10, 4), (12, 3)]) } }), 0, 0, (cmdOf [(0, 1), (1, 3), (8, 5), (10, 4), (12, 3)]), by decide +kernel⟩,
    ⟨(withKs fun k => { k with objs := [(5, { domain := some 0, value := 4, waiters := [⟨.mailbox 0 3, 0, 0, 9, 0, 0⟩] })], c := { k.c with fw := fwOf (cmdOf [(0, 1), (1, 3), (8, 5), (10, 5)]) } }), 0, 0, (cmdOf [(0, 1), (1, 3), (8, 5), (10, 5)]), 5, ⟨.mailbox 0 3, 0, 0, 9, 0, 0⟩, [], by decide +kernel⟩⟩

theorem wit_TenantObjectAndFaultCommands_2 :
    (∃ (s : State) (m : Nat) (k : Nat) (tk : Taken), s.ready .kresia m k 0x0301 tk ∧ s.mailRefusal m tk = none ∧ tk.f 10 1 = 5 ∧ s.mailTakes m (tk.f 16 2) = []) ∧
    (∃ (s : State) (m : Nat) (k : Nat) (tk : Taken), s.ready .kresia m k 0x0901 tk ∧ 2 ^ 20 + 2 ^ 17 ≤ tk.f 8 3) ∧
    (∃ (s : State) (m : Nat) (k : Nat) (tk : Taken), s.ready .kresia m k 0x0901 tk ∧ tk.f 8 3 < 2 ^ 20 + 2 ^ 17 ∧ s.fenceNewer (⟨false, tk.f 8 3, tk.f 12 4⟩ : FenceNotice) = false) ∧
    (∃ (s : State) (m : Nat) (k : Nat) (tk : Taken), s.ready .kresia m k 0x0901 tk ∧ tk.f 8 3 < 2 ^ 20 ∧ s.fenceNewer (⟨false, tk.f 8 3, tk.f 12 4⟩ : FenceNotice) = true ∧ s.ks.doms = []) ∧
    (∃ (s : State) (m : Nat) (k : Nat) (tk : Taken), s.ready .kresia m k 0x0901 tk ∧ tk.f 8 3 < 2 ^ 20 + 2 ^ 17 ∧ s.fenceNewer (⟨false, tk.f 8 3, tk.f 12 4⟩ : FenceNotice) = true) ∧
    (∃ (s : State) (m : Nat) (k : Nat) (tk : Taken), s.ready .kresia m k 0x0902 tk ∧ 2 ^ 20 + 2 ^ 17 ≤ tk.f 8 3) ∧
    (∃ (s : State) (m : Nat) (k : Nat) (tk : Taken), s.ready .kresia m k 0x0902 tk ∧ tk.f 8 3 < 2 ^ 20 + 2 ^ 17 ∧ s.fenceNewer (⟨true, tk.f 8 3, tk.f 12 4⟩ : FenceNotice) = false) ∧
    (∃ (s : State) (m : Nat) (k : Nat) (tk : Taken), s.ready .kresia m k 0x0902 tk ∧ tk.f 8 3 < 2 ^ 20 ∧ s.fenceNewer (⟨true, tk.f 8 3, tk.f 12 4⟩ : FenceNotice) = true ∧ s.ks.doms = []) ∧
    (∃ (s : State) (m : Nat) (k : Nat) (tk : Taken), s.ready .kresia m k 0x0902 tk ∧ tk.f 8 3 < 2 ^ 20 + 2 ^ 17 ∧ s.fenceNewer (⟨true, tk.f 8 3, tk.f 12 4⟩ : FenceNotice) = true) ∧
    (∃ (s : State) (p : Part) (m : Nat) (k : Nat) (tk : Taken), s.ready p m k 0x090A tk ∧ 2 ^ 20 ≤ tk.f 8 3) ∧
    (∃ (s : State) (p : Part) (m : Nat) (k : Nat) (tk : Taken), s.ready p m k 0x090A tk ∧ tk.f 8 3 < 2 ^ 20 ∧ s.canTell p = true) ∧
    (∃ (s : State) (m : Nat) (k : Nat) (tk : Taken), s.ready .kresia m k 0x090B tk) :=
  ⟨⟨(withKs fun k => { k with objs := [(5, { domain := some 0, value := 4 })], c := { k.c with fw := fwOf (cmdOf [(0, 1), (1, 3), (8, 5), (10, 5)]) } }), 0, 0, (cmdOf [(0, 1), (1, 3), (8, 5), (10, 5)]), by decide +kernel⟩,
    ⟨(withKs fun k => { k with c := { k.c with fw := fwOf (cmdOf [(0, 1), (1, 9), (10, 18)]) } }), 0, 0, (cmdOf [(0, 1), (1, 9), (10, 18)]), by decide +kernel⟩,
    ⟨(withKs fun k => { k with fences := [(7, (3, true))], c := { k.c with fw := fwOf (cmdOf [(0, 1), (1, 9), (8, 7)]) } }), 0, 0, (cmdOf [(0, 1), (1, 9), (8, 7)]), by decide +kernel⟩,
    ⟨(withKs fun k => { k with fences := [(7, (3, true))], c := { k.c with fw := fwOf (cmdOf [(0, 1), (1, 9), (8, 7), (12, 5)]) } }), 0, 0, (cmdOf [(0, 1), (1, 9), (8, 7), (12, 5)]), by decide +kernel⟩,
    ⟨(withKs fun k => { k with fences := [(7, (3, true))], c := { k.c with fw := fwOf (cmdOf [(0, 1), (1, 9), (8, 7), (12, 5)]) } }), 0, 0, (cmdOf [(0, 1), (1, 9), (8, 7), (12, 5)]), by decide +kernel⟩,
    ⟨(withKs fun k => { k with c := { k.c with fw := fwOf (cmdOf [(0, 2), (1, 9), (10, 18)]) } }), 0, 0, (cmdOf [(0, 2), (1, 9), (10, 18)]), by decide +kernel⟩,
    ⟨(withKs fun k => { k with fences := [(7, (3, true))], c := { k.c with fw := fwOf (cmdOf [(0, 2), (1, 9), (8, 7)]) } }), 0, 0, (cmdOf [(0, 2), (1, 9), (8, 7)]), by decide +kernel⟩,
    ⟨(withKs fun k => { k with fences := [(7, (3, true))], c := { k.c with fw := fwOf (cmdOf [(0, 2), (1, 9), (8, 7), (12, 5)]) } }), 0, 0, (cmdOf [(0, 2), (1, 9), (8, 7), (12, 5)]), by decide +kernel⟩,
    ⟨(withKs fun k => { k with fences := [(7, (3, true))], c := { k.c with fw := fwOf (cmdOf [(0, 2), (1, 9), (8, 7), (12, 5)]) } }), 0, 0, (cmdOf [(0, 2), (1, 9), (8, 7), (12, 5)]), by decide +kernel⟩,
    ⟨(withKs fun k => { k with c := { k.c with fw := fwOf (cmdOf [(0, 10), (1, 9), (10, 16)]) } }), .kresia, 0, 0, (cmdOf [(0, 10), (1, 9), (10, 16)]), by decide +kernel⟩,
    ⟨(withKs fun k => { k with c := { k.c with fw := fwOf (cmdOf [(0, 10), (1, 9), (8, 3)]) } }), .kresia, 0, 0, (cmdOf [(0, 10), (1, 9), (8, 3)]), by decide +kernel⟩,
    ⟨(withKs fun k => { k with c := { k.c with fw := fwOf (cmdOf [(0, 11), (1, 9), (8, 3)]) } }), 0, 0, (cmdOf [(0, 11), (1, 9), (8, 3)]), by decide +kernel⟩⟩

theorem wit_DomainCommands_1 :
    (∃ (s : State) (m : Nat) (k : Nat) (tk : Taken) (q : Nat × Instr) (b : Bool) (f : SpareFacts) (lf : LoadFacts), q ∈ [(0x0204, Instr.domainDestroy .kresia m k), (0x0205, .tenantUnbind .kresia m k), (0x0401, .progLoad .kresia m k lf), (0x0402, .progReplace .kresia m k lf), (0x0403, .progCancel .kresia m k), (0x0404, .progUnload .kresia m k), (0x0405, .bellChange .kresia m k), (0x0503, .scalarSet .kresia m k), (0x0905, .homeMove .kresia m k b), (0x0906, .spareBind .kresia m k f), (0x0908, .domainRelease .kresia m k), (0x0909, .domainRollback .kresia m k b), (0x0A01, .cupConfig .kresia m k), (0x0A03, .cupRetire .kresia m k)] ∧ s.ready .kresia m k q.1 tk ∧ (s.dom tk.domain).isCrown = false) ∧
    (∃ (s : State) (m : Nat) (k : Nat) (tk : Taken) (v2 : List Nat) (el : List (Nat × Nat)), s.ready .kresia m k 0x0203 tk ∧ s.isSpine = false) ∧
    (∃ (s : State) (m : Nat) (k : Nat) (tk : Taken) (v2 : List Nat) (el : List (Nat × Nat)), s.ready .kresia m k 0x0203 tk ∧ s.isSpine = true ∧ (s.dom tk.domain).positions ≠ []) ∧
    (∃ (s : State) (m : Nat) (k : Nat) (tk : Taken) (v2 : List Nat) (el : List (Nat × Nat)), s.ready .kresia m k 0x0203 tk ∧ s.isSpine = true ∧ (s.dom tk.domain).positions = [] ∧ (tk.f 8 4 = 0 ∨ 2 ^ 20 < tk.f 8 4)) ∧
    (∃ (s : State) (m : Nat) (k : Nat) (tk : Taken) (v2 : List Nat) (el : List (Nat × Nat)), s.ready .kresia m k 0x0203 tk ∧ s.isSpine = true ∧ (s.dom tk.domain).positions = [] ∧ 1 ≤ tk.f 8 4 ∧ tk.f 8 4 ≤ 2 ^ 20 ∧ s.stageOf m (tk.f 12 4) = none) ∧
    (∃ (s : State) (m : Nat) (k : Nat) (tk : Taken) (v2 : List Nat) (el : List (Nat × Nat)) (bs : List Byte), s.ready .kresia m k 0x0203 tk ∧ s.isSpine = true ∧ (s.dom tk.domain).positions = [] ∧ 1 ≤ tk.f 8 4 ∧ tk.f 8 4 ≤ 2 ^ 20 ∧ s.stageOf m (tk.f 12 4) = some bs ∧ bs.length < 16 * tk.f 8 4) ∧
    (∃ (s : State) (m : Nat) (k : Nat) (tk : Taken) (v2 : List Nat) (el : List (Nat × Nat)) (bs : List Byte) (i : Nat), s.ready .kresia m k 0x0203 tk ∧ s.isSpine = true ∧ (s.dom tk.domain).positions = [] ∧ 1 ≤ tk.f 8 4 ∧ tk.f 8 4 ≤ 2 ^ 20 ∧ s.stageOf m (tk.f 12 4) = some bs ∧ 16 * tk.f 8 4 ≤ bs.length ∧ (List.range (tk.f 8 4)).find? (fun i => !mapEntryOk bs i) = some i) ∧
    (∃ (s : State) (m : Nat) (k : Nat) (tk : Taken) (v2 : List Nat) (el : List (Nat × Nat)) (bs : List Byte) (i : Nat), s.ready .kresia m k 0x0203 tk ∧ s.isSpine = true ∧ (s.dom tk.domain).positions = [] ∧ 1 ≤ tk.f 8 4 ∧ tk.f 8 4 ≤ 2 ^ 20 ∧ s.stageOf m (tk.f 12 4) = some bs ∧ 16 * tk.f 8 4 ≤ bs.length ∧ (List.range (tk.f 8 4)).find? (fun i => !mapEntryOk bs i) = none ∧ (List.range (tk.f 8 4)).find? (fun i => s.tenantBound (mapEntry v2 bs i) || el.contains ((mapEntry v2 bs i).member, (mapEntry v2 bs i).tenant) || ((List.range i).any fun j => le bs (16 * i) 4 = le bs (16 * j) 4)) = some i) ∧
    (∃ (s : State) (m : Nat) (k : Nat) (tk : Taken) (v2 : List Nat) (el : List (Nat × Nat)) (bs : List Byte), s.ready .kresia m k 0x0203 tk ∧ s.isSpine = true ∧ (s.dom tk.domain).positions = [] ∧ 1 ≤ tk.f 8 4 ∧ tk.f 8 4 ≤ 2 ^ 20 ∧ s.stageOf m (tk.f 12 4) = some bs ∧ 16 * tk.f 8 4 ≤ bs.length ∧ ((List.range (tk.f 8 4)).all fun i => mapEntryOk bs i && !s.tenantBound (mapEntry v2 bs i) && !el.contains ((mapEntry v2 bs i).member, (mapEntry v2 bs i).tenant) && !((List.range i).any fun j => le bs (16 * i) 4 = le bs (16 * j) 4)) = true) ∧
    (∃ (s : State) (m : Nat) (k : Nat) (tk : Taken), s.ready .kresia m k 0x0204 tk ∧ (s.dom tk.domain).isCrown = true ∧ ((s.dom tk.domain).prog.isSome = true ∨ (s.dom tk.domain).wait.isSome = true)) ∧
    (∃ (s : State) (m : Nat) (k : Nat) (tk : Taken), s.ready .kresia m k 0x0204 tk ∧ (s.dom tk.domain).isCrown = true ∧ (s.dom tk.domain).prog = none ∧ (s.dom tk.domain).wait = none) ∧
    (∃ (s : State) (m : Nat) (k : Nat) (tk : Taken), s.ready .kresia m k 0x0205 tk ∧ (s.dom tk.domain).isCrown = true ∧ (s.dom tk.domain).positions.length ≤ tk.f 8 4) ∧
    (∃ (s : State) (m : Nat) (k : Nat) (tk : Taken), s.ready .kresia m k 0x0205 tk ∧ (s.dom tk.domain).isCrown = true ∧ tk.f 8 4 < (s.dom tk.domain).positions.length ∧ ((s.dom tk.domain).pos (tk.f 8 4)).bound = false) ∧
    (∃ (s : State) (m : Nat) (k : Nat) (tk : Taken), s.ready .kresia m k 0x0205 tk ∧ (s.dom tk.domain).isCrown = true ∧ tk.f 8 4 < (s.dom tk.domain).positions.length ∧ ((s.dom tk.domain).pos (tk.f 8 4)).bound = true) ∧
    (∃ (s : State) (m : Nat) (k : Nat) (tk : Taken) (f : SpareFacts) (c : Code), s.ready .kresia m k 0x0906 tk ∧ (s.dom tk.domain).isCrown = true ∧ s.spareCode tk.domain (tk.f 8 4) { member := tk.f 12 3, tenant := tk.f 15 1, group := f.group, port := f.port, v2 := f.v2 } f = some c) ∧
    (∃ (s : State) (m : Nat) (k : Nat) (tk : Taken) (f : SpareFacts), s.ready .kresia m k 0x0906 tk ∧ (s.dom tk.domain).isCrown = true ∧ s.spareCode tk.domain (tk.f 8 4) { member := tk.f 12 3, tenant := tk.f 15 1, group := f.group, port := f.port, v2 := f.v2 } f = none) :=
  ⟨⟨(withKs fun k => { k with c := { k.c with fw := fwOf (cmdOf [(0, 4), (1, 2)]) } }), 0, 0, (cmdOf [(0, 4), (1, 2)]), (0x0204, .domainDestroy .kresia 0 0), false, ⟨0, 0, false, false, true, false⟩, {}, by decide +kernel⟩,
    ⟨(withKs fun k => { k with c := { k.c with fw := fwOf (cmdOf [(0, 3), (1, 2)]) } }).setBit .kresia 0x4 20 false, 0, 0, (cmdOf [(0, 3), (1, 2)]), [], [], by decide +kernel⟩,
    ⟨(withKs fun k => { k with doms := [(0, { isCrown := true, positions := [⟨{ member := 3 }, true, false⟩, ⟨{ member := 4 }, true, false⟩] })], c := { k.c with fw := fwOf (cmdOf [(0, 3), (1, 2)]) } }).setBit .kresia 0x4 20 true, 0, 0, (cmdOf [(0, 3), (1, 2)]), [], [], by decide +kernel⟩,
    ⟨(withKs fun k => { k with c := { k.c with fw := fwOf (cmdOf [(0, 3), (1, 2)]) } }).setBit .kresia 0x4 20 true, 0, 0, (cmdOf [(0, 3), (1, 2)]), [], [], by decide +kernel⟩,
    ⟨(withKs fun k => { k with c := { k.c with fw := fwOf (cmdOf [(0, 3), (1, 2), (8, 1)]) } }).setBit .kresia 0x4 20 true, 0, 0, (cmdOf [(0, 3), (1, 2), (8, 1)]), [], [], by decide +kernel⟩,
    ⟨(withKs fun k => { k with c := { k.c with fw := { fwOf (cmdOf [(0, 3), (1, 2), (8, 1), (12, 7)]) with stages := [(7, ⟨0, []⟩)] } } }).setBit .kresia 0x4 20 true, 0, 0, (cmdOf [(0, 3), (1, 2), (8, 1), (12, 7)]), [], [], [], by decide +kernel⟩,
    ⟨(withKs fun k => { k with c := { k.c with fw := { fwOf (cmdOf [(0, 3), (1, 2), (8, 1), (12, 7)]) with stages := [(7, ⟨0, (imgOf 16 [(3, 4)])⟩)] } } }).setBit .kresia 0x4 20 true, 0, 0, (cmdOf [(0, 3), (1, 2), (8, 1), (12, 7)]), [], [], (imgOf 16 [(3, 4)]), 0, by decide +kernel⟩,
    ⟨(withKs fun k => { k with c := { k.c with fw := { fwOf (cmdOf [(0, 3), (1, 2), (8, 2), (12, 7)]) with stages := [(7, ⟨0, (imgOf 32 [])⟩)] } } }).setBit .kresia 0x4 20 true, 0, 0, (cmdOf [(0, 3), (1, 2), (8, 2), (12, 7)]), [], [], (imgOf 32 []), 1, by decide +kernel⟩,
    ⟨(withKs fun k => { k with c := { k.c with fw := { fwOf (cmdOf [(0, 3), (1, 2), (8, 2), (12, 7)]) with stages := [(7, ⟨0, (imgOf 32 [(0, 1)])⟩)] } } }).setBit .kresia 0x4 20 true, 0, 0, (cmdOf [(0, 3), (1, 2), (8, 2), (12, 7)]), [], [], (imgOf 32 [(0, 1)]), by decide +kernel⟩,
    ⟨(withKs fun k => { k with doms := [(0, { isCrown := true, positions := [⟨{ member := 3 }, true, false⟩, ⟨{ member := 4 }, true, false⟩], prog := some [] })], c := { k.c with fw := fwOf (cmdOf [(0, 4), (1, 2)]) } }), 0, 0, (cmdOf [(0, 4), (1, 2)]), by decide +kernel⟩,
    ⟨(withKs fun k => { k with doms := [(0, { isCrown := true, positions := [⟨{ member := 3 }, true, false⟩, ⟨{ member := 4 }, true, false⟩] })], c := { k.c with fw := fwOf (cmdOf [(0, 4), (1, 2)]) } }), 0, 0, (cmdOf [(0, 4), (1, 2)]), by decide +kernel⟩,
    ⟨(withKs fun k => { k with doms := [(0, { isCrown := true, positions := [⟨{ member := 3 }, true, false⟩, ⟨{ member := 4 }, true, false⟩] })], c := { k.c with fw := fwOf (cmdOf [(0, 5), (1, 2), (8, 2)]) } }), 0, 0, (cmdOf [(0, 5), (1, 2), (8, 2)]), by decide +kernel⟩,
    ⟨(withKs fun k => { k with doms := [(0, { isCrown := true, positions := [⟨{ member := 3 }, false, true⟩] })], c := { k.c with fw := fwOf (cmdOf [(0, 5), (1, 2)]) } }), 0, 0, (cmdOf [(0, 5), (1, 2)]), by decide +kernel⟩,
    ⟨(withKs fun k => { k with doms := [(0, { isCrown := true, positions := [⟨{ member := 3 }, true, false⟩, ⟨{ member := 4 }, true, false⟩] })], c := { k.c with fw := fwOf (cmdOf [(0, 5), (1, 2), (8, 1)]) } }), 0, 0, (cmdOf [(0, 5), (1, 2), (8, 1)]), by decide +kernel⟩,
    ⟨(withKs fun k => { k with doms := [(0, { isCrown := true, positions := [⟨{ member := 3 }, true, false⟩, ⟨{ member := 4 }, true, false⟩] })], c := { k.c with fw := fwOf (cmdOf [(0, 6), (1, 9), (8, 9)]) } }), 0, 0, (cmdOf [(0, 6), (1, 9), (8, 9)]), ⟨0, 0, false, false, true, false⟩, 0xA103, by decide +kernel⟩,
    ⟨(withKs fun k => { k with doms := [(0, { isCrown := true, positions := [⟨{ member := 3 }, true, true⟩] })], c := { k.c with fw := fwOf (cmdOf [(0, 6), (1, 9), (12, 9)]) } }), 0, 0, (cmdOf [(0, 6), (1, 9), (12, 9)]), ⟨0, 0, false, false, true, false⟩, by decide +kernel⟩⟩

theorem wit_DomainCommands_2 :
    (∃ (s : State) (m : Nat) (k : Nat) (tk : Taken), s.ready .kresia m k 0x0908 tk ∧ (s.dom tk.domain).isCrown = true ∧ (s.dom tk.domain).phase ≠ .held) ∧
    (∃ (s : State) (m : Nat) (k : Nat) (tk : Taken), s.ready .kresia m k 0x0908 tk ∧ (s.dom tk.domain).isCrown = true ∧ (s.dom tk.domain).phase = .held ∧ (((s.dom tk.domain).positions.any (·.vacant)) = true ∨ (s.dom tk.domain).lost = true ∨ (s.ks.fills.any fun q => q.domain = tk.domain) = true)) ∧
    (∃ (s : State) (m : Nat) (k : Nat) (tk : Taken), s.ready .kresia m k 0x0908 tk ∧ (s.dom tk.domain).isCrown = true ∧ (s.dom tk.domain).phase = .held ∧ ((s.dom tk.domain).positions.any (·.vacant)) = false ∧ (s.dom tk.domain).lost = false ∧ (s.ks.fills.any fun q => q.domain = tk.domain) = false) ∧
    (∃ (s : State) (m : Nat) (k : Nat) (tk : Taken) (b : Bool), s.ready .kresia m k 0x0909 tk ∧ (s.dom tk.domain).isCrown = true ∧ (s.dom tk.domain).phase ≠ .held) ∧
    (∃ (s : State) (m : Nat) (k : Nat) (tk : Taken), s.ready .kresia m k 0x0909 tk ∧ (s.dom tk.domain).isCrown = true ∧ (s.dom tk.domain).phase = .held) ∧
    (∃ (s : State) (m : Nat) (k : Nat) (tk : Taken), s.ready .kresia m k 0x0909 tk ∧ (s.dom tk.domain).isCrown = true ∧ (s.dom tk.domain).phase = .held ∧ (s.dom tk.domain).prog = none ∧ s.ks.chunks = [] ∧ (s.dom tk.domain).insts = []) ∧
    (∃ (s : State) (m : Nat) (k : Nat) (tk : Taken), s.ready .kresia m k 0x0909 tk ∧ (s.dom tk.domain).isCrown = true ∧ (s.dom tk.domain).phase = .held ∧ (s.dom tk.domain).freeing = false) ∧
    (∃ (s : State) (m : Nat) (k : Nat) (tk : Taken), s.ready .kresia m k 0x090D tk ∧ (s.dom tk.domain).isDeputy = false) ∧
    (∃ (s : State) (m : Nat) (k : Nat) (tk : Taken), s.ready .kresia m k 0x090D tk ∧ (s.dom tk.domain).isDeputy = true ∧ s.isFenced (2 ^ 20 + (s.dom tk.domain).crown) = false) ∧
    (∃ (s : State) (m : Nat) (k : Nat) (tk : Taken), s.ready .kresia m k 0x090D tk ∧ (s.dom tk.domain).isDeputy = true ∧ s.isFenced (2 ^ 20 + (s.dom tk.domain).crown) = true ∧ (s.dom tk.domain).prog = none) ∧
    (∃ (s : State) (m : Nat) (k : Nat) (tk : Taken), s.ready .kresia m k 0x090D tk ∧ (s.dom tk.domain).isDeputy = true ∧ s.isFenced (2 ^ 20 + (s.dom tk.domain).crown) = true) :=
  ⟨⟨(withKs fun k => { k with doms := [(0, { isCrown := true, positions := [⟨{ member := 3 }, true, false⟩, ⟨{ member := 4 }, true, false⟩] })], c := { k.c with fw := fwOf (cmdOf [(0, 8), (1, 9)]) } }), 0, 0, (cmdOf [(0, 8), (1, 9)]), by decide +kernel⟩,
    ⟨(withKs fun k => { k with doms := [(0, { isCrown := true, positions := [⟨{ member := 3 }, true, false⟩, ⟨{ member := 4 }, true, false⟩], phase := .held, lost := true })], c := { k.c with fw := fwOf (cmdOf [(0, 8), (1, 9)]) } }), 0, 0, (cmdOf [(0, 8), (1, 9)]), by decide +kernel⟩,
    ⟨(withKs fun k => { k with doms := [(0, { isCrown := true, positions := [⟨{ member := 3 }, true, false⟩, ⟨{ member := 4 }, true, false⟩], phase := .held })], c := { k.c with fw := fwOf (cmdOf [(0, 8), (1, 9)]) } }), 0, 0, (cmdOf [(0, 8), (1, 9)]), by decide +kernel⟩,
    ⟨(withKs fun k => { k with doms := [(0, { isCrown := true, positions := [⟨{ member := 3 }, true, false⟩, ⟨{ member := 4 }, true, false⟩] })], c := { k.c with fw := fwOf (cmdOf [(0, 9), (1, 9)]) } }), 0, 0, (cmdOf [(0, 9), (1, 9)]), true, by decide +kernel⟩,
    ⟨(withKs fun k => { k with doms := [(0, { isCrown := true, positions := [⟨{ member := 3 }, true, false⟩, ⟨{ member := 4 }, true, false⟩], phase := .held })], c := { k.c with fw := fwOf (cmdOf [(0, 9), (1, 9)]) } }), 0, 0, (cmdOf [(0, 9), (1, 9)]), by decide +kernel⟩,
    ⟨(withKs fun k => { k with doms := [(0, { isCrown := true, positions := [⟨{ member := 3 }, true, false⟩, ⟨{ member := 4 }, true, false⟩], phase := .held })], c := { k.c with fw := fwOf (cmdOf [(0, 9), (1, 9), (8, 5)]) } }), 0, 0, (cmdOf [(0, 9), (1, 9), (8, 5)]), by decide +kernel⟩,
    ⟨(withKs fun k => { k with doms := [(0, { isCrown := true, positions := [⟨{ member := 3 }, true, false⟩, ⟨{ member := 4 }, true, false⟩], phase := .held, prog := some [] })], c := { k.c with fw := fwOf (cmdOf [(0, 9), (1, 9), (8, 5)]) } }), 0, 0, (cmdOf [(0, 9), (1, 9), (8, 5)]), by decide +kernel⟩,
    ⟨(withKs fun k => { k with c := { k.c with fw := fwOf (cmdOf [(0, 13), (1, 9)]) } }), 0, 0, (cmdOf [(0, 13), (1, 9)]), by decide +kernel⟩,
    ⟨(withKs fun k => { k with doms := [(0, { isDeputy := true, crown := 5 })], c := { k.c with fw := fwOf (cmdOf [(0, 13), (1, 9)]) } }), 0, 0, (cmdOf [(0, 13), (1, 9)]), by decide +kernel⟩,
    ⟨(withKs fun k => { k with doms := [(0, { isDeputy := true, crown := 5 })], fences := [(0x100005, (1, true))], c := { k.c with fw := fwOf (cmdOf [(0, 13), (1, 9)]) } }), 0, 0, (cmdOf [(0, 13), (1, 9)]), by decide +kernel⟩,
    ⟨(withKs fun k => { k with doms := [(0, { isDeputy := true, crown := 5 })], fences := [(0x100005, (1, true))], c := { k.c with fw := fwOf (cmdOf [(0, 13), (1, 9)]) } }), 0, 0, (cmdOf [(0, 13), (1, 9)]), by decide +kernel⟩⟩

theorem wit_ProgramCommands_1 :
    (∃ (s : State) (m : Nat) (k : Nat) (tk : Taken) (f : LoadFacts), s.ready .kresia m k 0x0401 tk ∧ (s.dom tk.domain).isCrown = true ∧ s.ksReady = false) ∧
    (∃ (s : State) (m : Nat) (k : Nat) (tk : Taken) (f : LoadFacts), s.ready .kresia m k 0x0401 tk ∧ (s.dom tk.domain).isCrown = true ∧ s.ksReady = true ∧ s.stageOf m (tk.f 8 4) = none) ∧
    (∃ (s : State) (m : Nat) (k : Nat) (tk : Taken) (area : List Byte) (f : LoadFacts), s.ready .kresia m k 0x0401 tk ∧ (s.dom tk.domain).isCrown = true ∧ s.ksReady = true ∧ s.stageOf m (tk.f 8 4) = some area) ∧
    (∃ (s : State) (m : Nat) (k : Nat) (tk : Taken) (f : LoadFacts), s.ready .kresia m k 0x0402 tk ∧ (s.dom tk.domain).isCrown = true ∧ s.ksReady = false) ∧
    (∃ (s : State) (m : Nat) (k : Nat) (tk : Taken) (f : LoadFacts), s.ready .kresia m k 0x0402 tk ∧ (s.dom tk.domain).isCrown = true ∧ s.ksReady = true ∧ s.stageOf m (tk.f 8 4) = none) ∧
    (∃ (s : State) (m : Nat) (k : Nat) (tk : Taken) (area : List Byte) (f : LoadFacts), s.ready .kresia m k 0x0402 tk ∧ (s.dom tk.domain).isCrown = true ∧ s.ksReady = true ∧ s.stageOf m (tk.f 8 4) = some area ∧ (s.dom tk.domain).prog = none) ∧
    (∃ (s : State) (m : Nat) (k : Nat) (tk : Taken) (area : List Byte) (f : LoadFacts) (old : Image), s.ready .kresia m k 0x0402 tk ∧ (s.dom tk.domain).isCrown = true ∧ s.ksReady = true ∧ s.stageOf m (tk.f 8 4) = some area ∧ (s.dom tk.domain).prog = some old) ∧
    (∃ (s : State) (m : Nat) (k : Nat) (tk : Taken), s.ready .kresia m k 0x0403 tk ∧ (s.dom tk.domain).isCrown = true ∧ (s.dom tk.domain).next = none) ∧
    (∃ (s : State) (m : Nat) (k : Nat) (tk : Taken) (g : Image) (n : Nat), s.ready .kresia m k 0x0403 tk ∧ (s.dom tk.domain).isCrown = true ∧ (s.dom tk.domain).next = some (g, n)) ∧
    (∃ (s : State) (m : Nat) (k : Nat) (tk : Taken), s.ready .kresia m k 0x0404 tk ∧ (s.dom tk.domain).isCrown = true ∧ (s.dom tk.domain).prog = none) ∧
    (∃ (s : State) (m : Nat) (k : Nat) (tk : Taken), s.ready .kresia m k 0x0404 tk ∧ (s.dom tk.domain).isCrown = true ∧ (s.dom tk.domain).prog.isSome = true ∧ (s.dom tk.domain).next = none ∧ (s.dom tk.domain).phase ≠ .held ∧ (s.dom tk.domain).everTamped = true) ∧
    (∃ (s : State) (m : Nat) (k : Nat) (tk : Taken), s.ready .kresia m k 0x0404 tk ∧ (s.dom tk.domain).isCrown = true ∧ (s.dom tk.domain).prog.isSome = true ∧ (s.dom tk.domain).next = none ∧ ((s.dom tk.domain).phase = .held ∨ (s.dom tk.domain).everTamped = false)) ∧
    (∃ (s : State) (m : Nat) (k : Nat) (tk : Taken) (g : Image), s.ready .kresia m k 0x0404 tk ∧ (s.dom tk.domain).isCrown = true ∧ (s.dom tk.domain).prog = some g ∧ (s.dom tk.domain).next = none ∧ (s.dom tk.domain).phase = .held ∧ (s.dom tk.domain).isDeputy = false) ∧
    (∃ (s : State) (m : Nat) (k : Nat) (tk : Taken), s.ready .kresia m k 0x0405 tk ∧ (s.dom tk.domain).isCrown = true ∧ (leOt tk.bytes 16).malformed = true) ∧
    (∃ (s : State) (m : Nat) (k : Nat) (tk : Taken), s.ready .kresia m k 0x0405 tk ∧ (s.dom tk.domain).isCrown = true ∧ (leOt tk.bytes 16).malformed = false ∧ (s.begun .kresia m k).bellBad tk.domain tk = true) ∧
    (∃ (s : State) (m : Nat) (k : Nat) (tk : Taken) (g : Image), s.ready .kresia m k 0x0405 tk ∧ (s.dom tk.domain).isCrown = true ∧ (s.dom tk.domain).prog = some g ∧ (leOt tk.bytes 16).malformed = false ∧ (s.begun .kresia m k).bellBad tk.domain tk = false ∧ s.armedUsed < 1024 ∧ tk.f 12 1 = 0) :=
  ⟨⟨(withKs fun k => { k with doms := [(0, { isCrown := true, positions := [⟨{ member := 3 }, true, false⟩, ⟨{ member := 4 }, true, false⟩] })], c := { k.c with fw := fwOf (cmdOf [(0, 1), (1, 4)]) } }), 0, 0, (cmdOf [(0, 1), (1, 4)]), {}, by decide +kernel⟩,
    ⟨(withKs fun k => { k with doms := [(0, { isCrown := true, positions := [⟨{ member := 3 }, true, false⟩, ⟨{ member := 4 }, true, false⟩] })], c := { k.c with time := { state := .locked }, fw := fwOf (cmdOf [(0, 1), (1, 4)]) } }), 0, 0, (cmdOf [(0, 1), (1, 4)]), {}, by decide +kernel⟩,
    ⟨(withKs fun k => { k with doms := [(0, { isCrown := true, positions := [⟨{ member := 3 }, true, false⟩, ⟨{ member := 4 }, true, false⟩] })], c := { k.c with time := { state := .locked }, fw := { fwOf (cmdOf [(0, 1), (1, 4), (8, 7)]) with stages := [(7, ⟨0, List.replicate 128 0⟩)] } } }), 0, 0, (cmdOf [(0, 1), (1, 4), (8, 7)]), List.replicate 128 0, {}, by decide +kernel⟩,
    ⟨(withKs fun k => { k with doms := [(0, { isCrown := true, positions := [⟨{ member := 3 }, true, false⟩, ⟨{ member := 4 }, true, false⟩] })], c := { k.c with fw := fwOf (cmdOf [(0, 2), (1, 4)]) } }), 0, 0, (cmdOf [(0, 2), (1, 4)]), {}, by decide +kernel⟩,
    ⟨(withKs fun k => { k with doms := [(0, { isCrown := true, positions := [⟨{ member := 3 }, true, false⟩, ⟨{ member := 4 }, true, false⟩] })], c := { k.c with time := { state := .locked }, fw := fwOf (cmdOf [(0, 2), (1, 4)]) } }), 0, 0, (cmdOf [(0, 2), (1, 4)]), {}, by decide +kernel⟩,
    ⟨(withKs fun k => { k with doms := [(0, { isCrown := true, positions := [⟨{ member := 3 }, true, false⟩, ⟨{ member := 4 }, true, false⟩] })], c := { k.c with time := { state := .locked }, fw := { fwOf (cmdOf [(0, 2), (1, 4), (8, 7)]) with stages := [(7, ⟨0, List.replicate 128 0⟩)] } } }), 0, 0, (cmdOf [(0, 2), (1, 4), (8, 7)]), List.replicate 128 0, {}, by decide +kernel⟩,
    ⟨(withKs fun k => { k with doms := [(0, { isCrown := true, positions := [⟨{ member := 3 }, true, false⟩, ⟨{ member := 4 }, true, false⟩], prog := some [] })], c := { k.c with time := { state := .locked }, fw := { fwOf (cmdOf [(0, 2), (1, 4), (8, 7)]) with stages := [(7, ⟨0, List.replicate 128 0⟩)] } } }), 0, 0, (cmdOf [(0, 2), (1, 4), (8, 7)]), List.replicate 128 0, {}, [], by decide +kernel⟩,
    ⟨(withKs fun k => { k with doms := [(0, { isCrown := true, positions := [⟨{ member := 3 }, true, false⟩, ⟨{ member := 4 }, true, false⟩] })], c := { k.c with fw := fwOf (cmdOf [(0, 3), (1, 4)]) } }), 0, 0, (cmdOf [(0, 3), (1, 4)]), by decide +kernel⟩,
    ⟨(withKs fun k => { k with doms := [(0, { isCrown := true, positions := [⟨{ member := 3 }, true, false⟩, ⟨{ member := 4 }, true, false⟩], prog := some [], next := some ([], 5) })], c := { k.c with fw := fwOf (cmdOf [(0, 3), (1, 4)]) } }), 0, 0, (cmdOf [(0, 3), (1, 4)]), [], 5, by decide +kernel⟩,
    ⟨(withKs fun k => { k with doms := [(0, { isCrown := true, positions := [⟨{ member := 3 }, true, false⟩, ⟨{ member := 4 }, true, false⟩] })], c := { k.c with fw := fwOf (cmdOf [(0, 4), (1, 4)]) } }), 0, 0, (cmdOf [(0, 4), (1, 4)]), by decide +kernel⟩,
    ⟨(withKs fun k => { k with doms := [(0, { isCrown := true, positions := [⟨{ member := 3 }, true, false⟩, ⟨{ member := 4 }, true, false⟩], prog := some [], everTamped := true })], c := { k.c with fw := fwOf (cmdOf [(0, 4), (1, 4)]) } }), 0, 0, (cmdOf [(0, 4), (1, 4)]), by decide +kernel⟩,
    ⟨(withKs fun k => { k with doms := [(0, { isCrown := true, positions := [⟨{ member := 3 }, true, false⟩, ⟨{ member := 4 }, true, false⟩], prog := some [] })], c := { k.c with fw := fwOf (cmdOf [(0, 4), (1, 4)]) } }), 0, 0, (cmdOf [(0, 4), (1, 4)]), by decide +kernel⟩,
    ⟨(withKs fun k => { k with doms := [(0, { isCrown := true, positions := [⟨{ member := 3 }, true, false⟩, ⟨{ member := 4 }, true, false⟩], prog := some [], phase := .held })], c := { k.c with fw := fwOf (cmdOf [(0, 4), (1, 4)]) } }), 0, 0, (cmdOf [(0, 4), (1, 4)]), [], by decide +kernel⟩,
    ⟨(withKs fun k => { k with doms := [(0, { isCrown := true, positions := [⟨{ member := 3 }, true, false⟩, ⟨{ member := 4 }, true, false⟩] })], c := { k.c with fw := fwOf (cmdOf [(0, 5), (1, 4), (16, 255), (17, 255), (18, 255), (19, 255), (20, 255), (21, 255)]) } }), 0, 0, (cmdOf [(0, 5), (1, 4), (16, 255), (17, 255), (18, 255), (19, 255), (20, 255), (21, 255)]), by decide +kernel⟩,
    ⟨(withKs fun k => { k with doms := [(0, { isCrown := true, positions := [⟨{ member := 3 }, true, false⟩, ⟨{ member := 4 }, true, false⟩] })], c := { k.c with fw := fwOf (cmdOf [(0, 5), (1, 4)]) } }), 0, 0, (cmdOf [(0, 5), (1, 4)]), by decide +kernel⟩,
    ⟨(withKs fun k => { k with doms := [(0, { isCrown := true, positions := [⟨{ member := 3 }, true, false⟩, ⟨{ member := 4 }, true, false⟩], prog := some (imgOf 500 [(30, 1), (50, 2), (256, 1), (260, 64), (261, 1), (268, 1), (272, 2), (276, 128), (277, 1), (284, 1), (320, 2), (400, 8)]), series := some { g0 := .zero, period := 655360000, bells := none }, phase := .tamped })], c := { k.c with fw := fwOf (cmdOf [(0, 5), (1, 4)]) } }), 0, 0, (cmdOf [(0, 5), (1, 4)]), (imgOf 500 [(30, 1), (50, 2), (256, 1), (260, 64), (261, 1), (268, 1), (272, 2), (276, 128), (277, 1), (284, 1), (320, 2), (400, 8)]), by decide +kernel⟩⟩

theorem wit_ProgramCommands_2 :
    (∃ (s : State) (m : Nat) (k : Nat) (tk : Taken) (g : Image), s.ready .kresia m k 0x0405 tk ∧ (s.dom tk.domain).isCrown = true ∧ (s.dom tk.domain).prog = some g ∧ (leOt tk.bytes 16).malformed = false ∧ (s.begun .kresia m k).bellBad tk.domain tk = false ∧ s.armedUsed < 1024 ∧ tk.f 12 1 = 1) ∧
    (∃ (s : State) (m : Nat) (k : Nat) (tk : Taken) (g : Image), s.ready .kresia m k 0x0405 tk ∧ (s.dom tk.domain).isCrown = true ∧ (s.dom tk.domain).prog = some g ∧ (leOt tk.bytes 16).malformed = false ∧ (s.begun .kresia m k).bellBad tk.domain tk = false ∧ 1024 ≤ s.armedUsed) :=
  ⟨⟨(withKs fun k => { k with doms := [(0, { isCrown := true, positions := [⟨{ member := 3 }, true, false⟩, ⟨{ member := 4 }, true, false⟩], prog := some (imgOf 500 [(30, 1), (50, 2), (256, 1), (260, 64), (261, 1), (268, 1), (272, 2), (276, 128), (277, 1), (284, 1), (320, 2), (400, 8)]), series := some { g0 := .zero, period := 655360000, bells := none }, phase := .tamped })], c := { k.c with fw := fwOf (cmdOf [(0, 5), (1, 4), (12, 1), (31, 255)]) } }), 0, 0, (cmdOf [(0, 5), (1, 4), (12, 1), (31, 255)]), (imgOf 500 [(30, 1), (50, 2), (256, 1), (260, 64), (261, 1), (268, 1), (272, 2), (276, 128), (277, 1), (284, 1), (320, 2), (400, 8)]), by decide +kernel⟩,
    ⟨(withKs fun k => { k with doms := [(0, { isCrown := true, positions := [⟨{ member := 3 }, true, false⟩, ⟨{ member := 4 }, true, false⟩], prog := some (imgOf 500 [(30, 1), (50, 2), (256, 1), (260, 64), (261, 1), (268, 1), (272, 2), (276, 128), (277, 1), (284, 1), (320, 2), (400, 8)]), series := some { g0 := .zero, period := 655360000, bells := none }, phase := .tamped, recs := List.replicate 1024 { step := 0, entry := 0, slot := 0, seq := 0, due := otAdd .zero 65536, adl := .zero, period := 0, bells := 0 } })], c := { k.c with fw := fwOf (cmdOf [(0, 5), (1, 4)]) } }), 0, 0, (cmdOf [(0, 5), (1, 4)]), (imgOf 500 [(30, 1), (50, 2), (256, 1), (260, 64), (261, 1), (268, 1), (272, 2), (276, 128), (277, 1), (284, 1), (320, 2), (400, 8)]), by decide +kernel⟩⟩

theorem wit_ShardAndHomeCommands_1 :
    (∃ (s : State) (m : Nat) (k : Nat) (tk : Taken) (held : Bool) (c : Code), s.ready .kresia m k 0x0501 tk ∧ s.shardRange tk.domain tk = .bad c) ∧
    (∃ (s : State) (m : Nat) (k : Nat) (tk : Taken) (held : Bool) (h : Option Nat), s.ready .kresia m k 0x0501 tk ∧ s.shardRange tk.domain tk = .elsewhere h) ∧
    (∃ (s : State) (m : Nat) (k : Nat) (tk : Taken) (held : Bool) (key : Nat) (stream : Nat) (w : Nat) (l : List Nat) (ch : List Nat), s.ready .kresia m k 0x0501 tk ∧ s.shardRange tk.domain tk = .cells key stream w l ch ∧ ((((s.dom tk.domain).progState = 2 || (if (s.dom tk.domain).isCrown then decide ((s.dom tk.domain).phase = .held) else held)) = false))) ∧
    (∃ (s : State) (m : Nat) (k : Nat) (tk : Taken) (held : Bool) (key : Nat) (stream : Nat) (w : Nat) (l : List Nat) (ch : List Nat), s.ready .kresia m k 0x0501 tk ∧ s.shardRange tk.domain tk = .cells key stream w l ch ∧ ((((s.dom tk.domain).progState = 2 || (if (s.dom tk.domain).isCrown then decide ((s.dom tk.domain).phase = .held) else held)) = true)) ∧ s.stageOf m (tk.f 20 4) = none) ∧
    (∃ (s : State) (m : Nat) (k : Nat) (tk : Taken) (held : Bool) (key : Nat) (stream : Nat) (w : Nat) (l : List Nat) (ch : List Nat) (bs : List Byte), s.ready .kresia m k 0x0501 tk ∧ s.shardRange tk.domain tk = .cells key stream w l ch ∧ ((((s.dom tk.domain).progState = 2 || (if (s.dom tk.domain).isCrown then decide ((s.dom tk.domain).phase = .held) else held)) = true)) ∧ s.stageOf m (tk.f 20 4) = some bs ∧ bs.length < w * l.length) ∧
    (∃ (s : State) (m : Nat) (k : Nat) (tk : Taken) (held : Bool) (key : Nat) (stream : Nat) (w : Nat) (l : List Nat) (ch : List Nat) (bs : List Byte), s.ready .kresia m k 0x0501 tk ∧ s.shardRange tk.domain tk = .cells key stream w l ch ∧ ((((s.dom tk.domain).progState = 2 || (if (s.dom tk.domain).isCrown then decide ((s.dom tk.domain).phase = .held) else held)) = true)) ∧ s.stageOf m (tk.f 20 4) = some bs ∧ w * l.length ≤ bs.length ∧ (decide (tk.f 10 1 % 2 = 1) && (s.dom tk.domain).prog.any fun g => rMirrored g (tk.f 8 2)) = false) ∧
    (∃ (s : State) (m : Nat) (k : Nat) (tk : Taken) (c : Code), s.ready .kresia m k 0x0502 tk ∧ s.shardRange tk.domain tk = .bad c) ∧
    (∃ (s : State) (m : Nat) (k : Nat) (tk : Taken) (h : Option Nat), s.ready .kresia m k 0x0502 tk ∧ s.shardRange tk.domain tk = .elsewhere h) ∧
    (∃ (s : State) (m : Nat) (k : Nat) (tk : Taken) (key : Nat) (stream : Nat) (w : Nat) (l : List Nat), s.ready .kresia m k 0x0502 tk ∧ s.shardRange tk.domain tk = .cells key stream w l [] ∧ s.stageOf m (tk.f 20 4) = none) ∧
    (∃ (s : State) (m : Nat) (k : Nat) (tk : Taken) (key : Nat) (stream : Nat) (w : Nat) (l : List Nat) (bs : List Byte), s.ready .kresia m k 0x0502 tk ∧ s.shardRange tk.domain tk = .cells key stream w l [] ∧ s.stageOf m (tk.f 20 4) = some bs ∧ (l.flatMap fun q => leBytes w (FMap.getD (FMap.getD (s.shard key).streams stream []) q 0)).length ≤ bs.length) ∧
    (∃ (s : State) (m : Nat) (k : Nat) (tk : Taken) (c : Code), s.ready .kresia m k 0x0503 tk ∧ (s.dom tk.domain).isCrown = true ∧ (s.dom tk.domain).scalarCode (tk.f 8 2) (tk.f 10 1) (tk.f 16 6) = some c) ∧
    (∃ (s : State) (m : Nat) (k : Nat) (tk : Taken), s.ready .kresia m k 0x0503 tk ∧ (s.dom tk.domain).isCrown = true ∧ (s.dom tk.domain).scalarCode (tk.f 8 2) (tk.f 10 1) (tk.f 16 6) = none ∧ (s.mapHolders (s.dom tk.domain)).filter (· ≠ s.ksId) = []) ∧
    (∃ (s : State) (m : Nat) (k : Nat) (tk : Taken), s.ready .kresia m k 0x0503 tk ∧ (s.dom tk.domain).isCrown = true ∧ (s.dom tk.domain).scalarCode (tk.f 8 2) (tk.f 10 1) (tk.f 16 6) = none ∧ (s.mapHolders (s.dom tk.domain)).filter (· ≠ s.ksId) ≠ []) ∧
    (∃ (s : State) (m : Nat) (k : Nat) (tk : Taken), s.ready .kresia m k 0x0903 tk ∧ ((if s.isFenced (2 ^ 20 + partnerOf (tk.f 8 3 % 2 ^ 17) 0) then partnerOf (tk.f 8 3 % 2 ^ 17) 2 else partnerOf (tk.f 8 3 % 2 ^ 17) 0) ≠ s.ksId)) ∧
    (∃ (s : State) (m : Nat) (k : Nat) (tk : Taken), s.ready .kresia m k 0x0903 tk ∧ ((if s.isFenced (2 ^ 20 + partnerOf (tk.f 8 3 % 2 ^ 17) 0) then partnerOf (tk.f 8 3 % 2 ^ 17) 2 else partnerOf (tk.f 8 3 % 2 ^ 17) 0) = s.ksId)) ∧
    (∃ (s : State) (m : Nat) (k : Nat) (tk : Taken) (room : Bool) (service : Bool), s.ready .kresia m k 0x0904 tk ∧ (s.dom tk.domain).prog = none) :=
  ⟨⟨(withKs fun k => { k with c := { k.c with fw := fwOf (cmdOf [(0, 1), (1, 5)]) } }), 0, 0, (cmdOf [(0, 1), (1, 5)]), true, 0x5006, by decide +kernel⟩,
    ⟨(withKs fun k => { k with doms := [(0, { isCrown := true, positions := [⟨{ member := 3 }, true, false⟩, ⟨{ member := 4 }, true, false⟩], prog := some (imgOf 400 [(50, 1), (256, 9), (260, 64), (261, 1), (268, 1), (324, 64), (332, 1), (336, 64), (384, 9)]) })], c := { k.c with fw := fwOf (cmdOf [(0, 1), (1, 5), (10, 1), (16, 2)]) } }), 0, 0, (cmdOf [(0, 1), (1, 5), (10, 1), (16, 2)]), true, some 9, by decide +kernel⟩,
    ⟨(withKs fun k => { k with doms := [(0, { isCrown := true, positions := [⟨{ member := 3 }, true, false⟩, ⟨{ member := 4 }, true, false⟩], prog := some (imgOf 400 [(50, 1), (256, 9), (260, 64), (261, 1), (268, 1), (324, 64), (332, 1), (336, 64)]), everTamped := true })], c := { k.c with fw := fwOf (cmdOf [(0, 1), (1, 5), (10, 1), (16, 2)]) } }), 0, 0, (cmdOf [(0, 1), (1, 5), (10, 1), (16, 2)]), true, 8192, 9, 1, [0, 1], [], by decide +kernel⟩,
    ⟨(withKs fun k => { k with doms := [(0, { isCrown := true, positions := [⟨{ member := 3 }, true, false⟩, ⟨{ member := 4 }, true, false⟩], prog := some (imgOf 400 [(50, 1), (256, 9), (260, 64), (261, 1), (268, 1), (324, 64), (332, 1), (336, 64)]) })], c := { k.c with fw := fwOf (cmdOf [(0, 1), (1, 5), (10, 1), (16, 2)]) } }), 0, 0, (cmdOf [(0, 1), (1, 5), (10, 1), (16, 2)]), true, 8192, 9, 1, [0, 1], [], by decide +kernel⟩,
    ⟨(withKs fun k => { k with doms := [(0, { isCrown := true, positions := [⟨{ member := 3 }, true, false⟩, ⟨{ member := 4 }, true, false⟩], prog := some (imgOf 400 [(50, 1), (256, 9), (260, 64), (261, 1), (268, 1), (324, 64), (332, 1), (336, 64)]) })], c := { k.c with fw := { fwOf (cmdOf [(0, 1), (1, 5), (10, 1), (16, 2), (20, 7)]) with stages := [(7, ⟨0, [5]⟩)] } } }), 0, 0, (cmdOf [(0, 1), (1, 5), (10, 1), (16, 2), (20, 7)]), true, 8192, 9, 1, [0, 1], [], [5], by decide +kernel⟩,
    ⟨(withKs fun k => { k with doms := [(0, { isCrown := true, positions := [⟨{ member := 3 }, true, false⟩, ⟨{ member := 4 }, true, false⟩], prog := some (imgOf 400 [(50, 1), (256, 9), (260, 64), (261, 1), (268, 1), (324, 64), (332, 1), (336, 64)]) })], c := { k.c with fw := { fwOf (cmdOf [(0, 1), (1, 5), (10, 1), (16, 2), (20, 7)]) with stages := [(7, ⟨0, [5, 6]⟩)] } } }), 0, 0, (cmdOf [(0, 1), (1, 5), (10, 1), (16, 2), (20, 7)]), true, 8192, 9, 1, [0, 1], [], [5, 6], by decide +kernel⟩,
    ⟨(withKs fun k => { k with c := { k.c with fw := fwOf (cmdOf [(0, 2), (1, 5)]) } }), 0, 0, (cmdOf [(0, 2), (1, 5)]), 0x5006, by decide +kernel⟩,
    ⟨(withKs fun k => { k with doms := [(0, { isCrown := true, positions := [⟨{ member := 3 }, true, false⟩, ⟨{ member := 4 }, true, false⟩], prog := some (imgOf 400 [(50, 1), (256, 9), (260, 64), (261, 1), (268, 1), (324, 64), (332, 1), (336, 64), (384, 9)]) })], c := { k.c with fw := fwOf (cmdOf [(0, 2), (1, 5), (10, 1), (16, 2)]) } }), 0, 0, (cmdOf [(0, 2), (1, 5), (10, 1), (16, 2)]), some 9, by decide +kernel⟩,
    ⟨(withKs fun k => { k with doms := [(0, { isCrown := true, positions := [⟨{ member := 3 }, true, false⟩, ⟨{ member := 4 }, true, false⟩], prog := some (imgOf 400 [(50, 1), (256, 9), (260, 64), (261, 1), (268, 1), (324, 64), (332, 1), (336, 64)]) })], c := { k.c with fw := fwOf (cmdOf [(0, 2), (1, 5), (10, 1), (16, 2)]) } }), 0, 0, (cmdOf [(0, 2), (1, 5), (10, 1), (16, 2)]), 8192, 9, 1, [0, 1], by decide +kernel⟩,
    ⟨(withKs fun k => { k with doms := [(0, { isCrown := true, positions := [⟨{ member := 3 }, true, false⟩, ⟨{ member := 4 }, true, false⟩], prog := some (imgOf 400 [(50, 1), (256, 9), (260, 64), (261, 1), (268, 1), (324, 64), (332, 1), (336, 64)]) })], c := { k.c with fw := { fwOf (cmdOf [(0, 2), (1, 5), (10, 1), (16, 2), (20, 7)]) with stages := [(7, ⟨0, [5, 6, 7]⟩)] } } }), 0, 0, (cmdOf [(0, 2), (1, 5), (10, 1), (16, 2), (20, 7)]), 8192, 9, 1, [0, 1], [5, 6, 7], by decide +kernel⟩,
    ⟨(withKs fun k => { k with doms := [(0, { isCrown := true, positions := [⟨{ member := 3 }, true, false⟩, ⟨{ member := 4 }, true, false⟩] })], c := { k.c with fw := fwOf (cmdOf [(0, 3), (1, 5)]) } }), 0, 0, (cmdOf [(0, 3), (1, 5)]), 0x5005, by decide +kernel⟩,
    ⟨(withKs fun k => { k with build := { planes := 1, spines := 0 }, doms := [(0, { isCrown := true, prog := some (imgOf 400 [(50, 1), (256, 7), (260, 64), (261, 1), (268, 1), (320, 7)]) })], c := { k.c with fw := fwOf (cmdOf [(0, 3), (1, 5)]) } }), 0, 0, (cmdOf [(0, 3), (1, 5)]), by decide +kernel⟩,
    ⟨(withKs fun k => { k with doms := [(0, { isCrown := true, positions := [⟨{ member := 3 }, true, false⟩, ⟨{ member := 4 }, true, false⟩], prog := some (imgOf 400 [(50, 1), (256, 7), (260, 64), (261, 1), (268, 1), (320, 7)]) })], c := { k.c with fw := fwOf (cmdOf [(0, 3), (1, 5)]) } }), 0, 0, (cmdOf [(0, 3), (1, 5)]), by decide +kernel⟩,
    ⟨(withKs fun k => { k with c := { k.c with fw := fwOf (cmdOf [(0, 3), (1, 9), (8, 9)]) } }), 0, 0, (cmdOf [(0, 3), (1, 9), (8, 9)]), by decide +kernel⟩,
    ⟨(withKs fun k => { k with c := { k.c with fw := fwOf (cmdOf [(0, 3), (1, 9), (8, 128)]) } }), 0, 0, (cmdOf [(0, 3), (1, 9), (8, 128)]), by decide +kernel⟩,
    ⟨(withKs fun k => { k with c := { k.c with fw := fwOf (cmdOf [(0, 4), (1, 9)]) } }), 0, 0, (cmdOf [(0, 4), (1, 9)]), true, true, by decide +kernel⟩⟩

theorem wit_ShardAndHomeCommands_2 :
    (∃ (s : State) (m : Nat) (k : Nat) (tk : Taken) (room : Bool) (service : Bool) (g : Image), s.ready .kresia m k 0x0904 tk ∧ (s.dom tk.domain).prog = some g ∧ tk.f 8 2 ≠ 0xFFFF ∧ collCount g ≤ tk.f 8 2) ∧
    (∃ (s : State) (m : Nat) (k : Nat) (tk : Taken) (room : Bool) (service : Bool) (g : Image), s.ready .kresia m k 0x0904 tk ∧ (s.dom tk.domain).prog = some g ∧ tk.f 8 2 < collCount g ∧ tk.f 8 2 ≠ 0xFFFF ∧ cBlocked g (tk.f 8 2) = true ∧ s.homeChunks (s.dom tk.domain) g (tk.f 8 2) ((s.dom tk.domain).homeStep g) ≠ [] ∧ (tk.f 12 3 / 2 ^ 17 ≠ 8 ∨ ksPlane (tk.f 12 3 % 2 ^ 17) % 2 = ksPlane s.ksId % 2 ∨ room = false ∨ service = false ∨ s.isFenced (2 ^ 20 + tk.f 12 3 % 2 ^ 17) = true)) ∧
    (∃ (s : State) (m : Nat) (k : Nat) (tk : Taken) (g : Image), s.ready .kresia m k 0x0904 tk ∧ (s.dom tk.domain).prog = some g ∧ tk.f 8 2 < collCount g ∧ tk.f 8 2 ≠ 0xFFFF ∧ cBlocked g (tk.f 8 2) = true ∧ s.homeChunks (s.dom tk.domain) g (tk.f 8 2) ((s.dom tk.domain).homeStep g) ≠ [] ∧ tk.f 12 3 / 2 ^ 17 = 8 ∧ ksPlane (tk.f 12 3 % 2 ^ 17) % 2 ≠ ksPlane s.ksId % 2 ∧ s.isFenced (2 ^ 20 + tk.f 12 3 % 2 ^ 17) = false) ∧
    (∃ (s : State) (m : Nat) (k : Nat) (tk : Taken) (g : Image) (cs : List Nat), s.ready .kresia m k 0x0904 tk ∧ (s.dom tk.domain).prog = some g ∧ tk.f 8 2 = 0xFFFF ∧ cs = ((List.range (collCount g)).filter fun c => cBlocked g c && !((s.begun .kresia m k).homeChunks ((s.begun .kresia m k).dom tk.domain) g c (((s.begun .kresia m k).dom tk.domain).homeStep g)).isEmpty) ∧ cs ≠ [] ∧ tk.f 12 3 / 2 ^ 17 = 8 ∧ ksPlane (tk.f 12 3 % 2 ^ 17) % 2 ≠ ksPlane s.ksId % 2 ∧ s.isFenced (2 ^ 20 + tk.f 12 3 % 2 ^ 17) = false) ∧
    (∃ (s : State) (m : Nat) (k : Nat) (tk : Taken) (copied : Bool), s.ready .kresia m k 0x0905 tk ∧ (s.dom tk.domain).isCrown = true ∧ (s.dom tk.domain).prog = none) ∧
    (∃ (s : State) (m : Nat) (k : Nat) (tk : Taken) (copied : Bool) (g : Image), s.ready .kresia m k 0x0905 tk ∧ (s.dom tk.domain).isCrown = true ∧ (s.dom tk.domain).prog = some g ∧ (2 < tk.f 8 1 ∨ homeElems g (tk.f 8 1) (tk.f 10 2) ≤ tk.f 12 4)) ∧
    (∃ (s : State) (m : Nat) (k : Nat) (tk : Taken) (copied : Bool) (g : Image), s.ready .kresia m k 0x0905 tk ∧ (s.dom tk.domain).isCrown = true ∧ (s.dom tk.domain).prog = some g ∧ tk.f 8 1 ≤ 2 ∧ tk.f 12 4 < homeElems g (tk.f 8 1) (tk.f 10 2) ∧ (tk.f 20 6 < (s.dom tk.domain).step + 2 ∨ (copied = false ∧ tk.f 8 1 ≠ 1) ∨ ((s.dom tk.domain).moves.any fun q => q.kind = tk.f 8 1 && q.record = tk.f 10 2 && q.element = tk.f 12 4 && (s.dom tk.domain).step < q.step) = true)) ∧
    (∃ (s : State) (m : Nat) (k : Nat) (tk : Taken) (g : Image), s.ready .kresia m k 0x0905 tk ∧ (s.dom tk.domain).isCrown = true ∧ (s.dom tk.domain).prog = some g ∧ tk.f 8 1 ≤ 2 ∧ tk.f 12 4 < homeElems g (tk.f 8 1) (tk.f 10 2) ∧ (s.dom tk.domain).step + 2 ≤ tk.f 20 6 ∧ ((s.dom tk.domain).moves.any fun q => q.kind = tk.f 8 1 && q.record = tk.f 10 2 && q.element = tk.f 12 4 && (s.dom tk.domain).step < q.step) = false ∧ s.ks.chunks = []) ∧
    (∃ (s : State) (m : Nat) (k : Nat) (tk : Taken) (held : Bool), s.ready .kresia m k 0x0907 tk ∧ (s.dom tk.domain).prog = none) ∧
    (∃ (s : State) (m : Nat) (k : Nat) (tk : Taken) (held : Bool) (g : Image), s.ready .kresia m k 0x0907 tk ∧ (s.dom tk.domain).prog = some g ∧ (((if (s.dom tk.domain).isCrown then decide ((s.dom tk.domain).phase = .held) else held) = false) ∨ (tk.f 8 4 ≠ 0xFFFFF ∧ ¬ (tk.f 8 4 < (s.dom tk.domain).positions.length ∧ ((s.dom tk.domain).pos (tk.f 8 4)).bound = true ∧ ((s.dom tk.domain).pos (tk.f 8 4)).vacant = false)))) ∧
    (∃ (s : State) (m : Nat) (k : Nat) (tk : Taken) (held : Bool) (g : Image), s.ready .kresia m k 0x0907 tk ∧ (s.dom tk.domain).prog = some g ∧ ((if (s.dom tk.domain).isCrown then decide ((s.dom tk.domain).phase = .held) else held) = true) ∧ tk.f 8 4 < (s.dom tk.domain).positions.length ∧ ((s.dom tk.domain).pos (tk.f 8 4)).bound = true ∧ ((s.dom tk.domain).pos (tk.f 8 4)).vacant = false ∧ collCount g = 0 ∧ (sec g 9).count = 0) ∧
    (∃ (s : State) (m : Nat) (k : Nat) (tk : Taken) (held : Bool) (g : Image) (ps : List Nat) (js : List SendJob), s.ready .kresia m k 0x0907 tk ∧ (s.dom tk.domain).prog = some g ∧ ((if (s.dom tk.domain).isCrown then decide ((s.dom tk.domain).phase = .held) else held) = true) ∧ ((tk.f 8 4 = 0xFFFFF ∧ ps = ((List.range (s.dom tk.domain).positions.length).filter fun q => ((s.dom tk.domain).pos q).bound && !((s.dom tk.domain).pos q).vacant)) ∨ (tk.f 8 4 < (s.dom tk.domain).positions.length ∧ ((s.dom tk.domain).pos (tk.f 8 4)).bound = true ∧ ((s.dom tk.domain).pos (tk.f 8 4)).vacant = false ∧ tk.f 8 4 ≠ 0xFFFFF ∧ ps = [tk.f 8 4])) ∧ js = (ps.flatMap fun q => (s.begun .kresia m k).fillOutputs tk.domain g q (fillId m k) (tk.f 8 4) (tk.f 12 2) ++ (s.begun .kresia m k).fillParts tk.domain g q (fillId m k) (tk.f 8 4) (tk.f 12 2)) ∧ js ≠ []) ∧
    (∃ (s : State) (m : Nat) (k : Nat) (tk : Taken), s.ready .baxel m k 0x090C tk ∧ s.tenantOf tk.domain = none) ∧
    (∃ (s : State) (m : Nat) (k : Nat) (tk : Taken) (tn : Nat), s.ready .baxel m k 0x090C tk ∧ s.tenantOf tk.domain = some tn ∧ streamsTo (s.ten tn).prog (s.ten tn).position = []) ∧
    (∃ (s : State) (m : Nat) (k : Nat) (tk : Taken) (tn : Nat) (c : Nat) (e : Nat) (n : Nat) (rest : List (Nat × Nat × Nat)), s.ready .baxel m k 0x090C tk ∧ s.tenantOf tk.domain = some tn ∧ streamsTo (s.ten tn).prog (s.ten tn).position = (c, e, n) :: rest ∧ 1 ≤ n ∧ (s.ten tn).ckptGiven = [] ∧ tk.f 12 4 = 1) ∧
    (∃ (s : State) (x : CkptGrant), (s.ks.ckpts.find? fun q => q.domain = x.domain && q.target = x.target && !q.left.isEmpty) = none) :=
  ⟨⟨(withKs fun k => { k with doms := [(0, { isCrown := true, positions := [⟨{ member := 3 }, true, false⟩, ⟨{ member := 4 }, true, false⟩], prog := some [] })], c := { k.c with fw := fwOf (cmdOf [(0, 4), (1, 9)]) } }), 0, 0, (cmdOf [(0, 4), (1, 9)]), true, true, [], by decide +kernel⟩,
    ⟨(withKs fun k => { k with doms := [(0, { isCrown := true, positions := [⟨{ member := 3 }, true, false⟩, ⟨{ member := 4 }, true, false⟩], prog := some (imgOf 400 [(50, 1), (256, 5), (260, 64), (261, 1), (268, 1), (321, 2), (324, 8), (328, 8), (332, 4), (340, 1), (368, 1), (372, 64)]) })], c := { k.c with fw := fwOf (cmdOf [(0, 4), (1, 9)]) } }), 0, 0, (cmdOf [(0, 4), (1, 9)]), true, true, (imgOf 400 [(50, 1), (256, 5), (260, 64), (261, 1), (268, 1), (321, 2), (324, 8), (328, 8), (332, 4), (340, 1), (368, 1), (372, 64)]), by decide +kernel⟩,
    ⟨(withKs fun k => { k with doms := [(0, { isCrown := true, positions := [⟨{ member := 3 }, true, false⟩, ⟨{ member := 4 }, true, false⟩], prog := some (imgOf 400 [(50, 1), (256, 5), (260, 64), (261, 1), (268, 1), (321, 2), (324, 8), (328, 8), (332, 4), (340, 1), (368, 1), (372, 64)]) })], c := { k.c with fw := fwOf (cmdOf [(0, 4), (1, 9), (12, 128), (14, 16)]) } }), 0, 0, (cmdOf [(0, 4), (1, 9), (12, 128), (14, 16)]), (imgOf 400 [(50, 1), (256, 5), (260, 64), (261, 1), (268, 1), (321, 2), (324, 8), (328, 8), (332, 4), (340, 1), (368, 1), (372, 64)]), by decide +kernel⟩,
    ⟨(withKs fun k => { k with doms := [(0, { isCrown := true, positions := [⟨{ member := 3 }, true, false⟩, ⟨{ member := 4 }, true, false⟩], prog := some (imgOf 400 [(50, 1), (256, 5), (260, 64), (261, 1), (268, 1), (321, 2), (324, 8), (328, 8), (332, 4), (340, 1), (368, 1), (372, 64)]) })], c := { k.c with fw := fwOf (cmdOf [(0, 4), (1, 9), (8, 255), (9, 255), (12, 128), (14, 16)]) } }), 0, 0, (cmdOf [(0, 4), (1, 9), (8, 255), (9, 255), (12, 128), (14, 16)]), (imgOf 400 [(50, 1), (256, 5), (260, 64), (261, 1), (268, 1), (321, 2), (324, 8), (328, 8), (332, 4), (340, 1), (368, 1), (372, 64)]), [0], by decide +kernel⟩,
    ⟨(withKs fun k => { k with doms := [(0, { isCrown := true, positions := [⟨{ member := 3 }, true, false⟩, ⟨{ member := 4 }, true, false⟩] })], c := { k.c with fw := fwOf (cmdOf [(0, 5), (1, 9)]) } }), 0, 0, (cmdOf [(0, 5), (1, 9)]), true, by decide +kernel⟩,
    ⟨(withKs fun k => { k with doms := [(0, { isCrown := true, positions := [⟨{ member := 3 }, true, false⟩, ⟨{ member := 4 }, true, false⟩], prog := some [] })], c := { k.c with fw := fwOf (cmdOf [(0, 5), (1, 9)]) } }), 0, 0, (cmdOf [(0, 5), (1, 9)]), true, [], by decide +kernel⟩,
    ⟨(withKs fun k => { k with doms := [(0, { isCrown := true, positions := [⟨{ member := 3 }, true, false⟩, ⟨{ member := 4 }, true, false⟩], prog := some (imgOf 400 [(50, 1), (256, 5), (260, 64), (261, 1), (268, 1), (321, 2), (324, 8), (328, 8), (332, 4), (340, 1), (368, 1), (372, 64)]) })], c := { k.c with fw := fwOf (cmdOf [(0, 5), (1, 9)]) } }), 0, 0, (cmdOf [(0, 5), (1, 9)]), true, (imgOf 400 [(50, 1), (256, 5), (260, 64), (261, 1), (268, 1), (321, 2), (324, 8), (328, 8), (332, 4), (340, 1), (368, 1), (372, 64)]), by decide +kernel⟩,
    ⟨(withKs fun k => { k with doms := [(0, { isCrown := true, positions := [⟨{ member := 3 }, true, false⟩, ⟨{ member := 4 }, true, false⟩], prog := some (imgOf 400 [(50, 1), (256, 5), (260, 64), (261, 1), (268, 1), (321, 2), (324, 8), (328, 8), (332, 4), (340, 1), (368, 1), (372, 64)]) })], c := { k.c with fw := fwOf (cmdOf [(0, 5), (1, 9), (20, 5)]) } }), 0, 0, (cmdOf [(0, 5), (1, 9), (20, 5)]), (imgOf 400 [(50, 1), (256, 5), (260, 64), (261, 1), (268, 1), (321, 2), (324, 8), (328, 8), (332, 4), (340, 1), (368, 1), (372, 64)]), by decide +kernel⟩,
    ⟨(withKs fun k => { k with c := { k.c with fw := fwOf (cmdOf [(0, 7), (1, 9)]) } }), 0, 0, (cmdOf [(0, 7), (1, 9)]), true, by decide +kernel⟩,
    ⟨(withKs fun k => { k with doms := [(0, { isCrown := true, positions := [⟨{ member := 3 }, true, false⟩, ⟨{ member := 4 }, true, false⟩], prog := some [] })], c := { k.c with fw := fwOf (cmdOf [(0, 7), (1, 9)]) } }), 0, 0, (cmdOf [(0, 7), (1, 9)]), true, [], by decide +kernel⟩,
    ⟨(withKs fun k => { k with doms := [(0, { isCrown := true, positions := [⟨{ member := 3 }, true, false⟩, ⟨{ member := 4 }, true, false⟩], prog := some [], phase := .held })], c := { k.c with fw := fwOf (cmdOf [(0, 7), (1, 9)]) } }), 0, 0, (cmdOf [(0, 7), (1, 9)]), true, [], by decide +kernel⟩,
    ⟨(withKs fun k => { k with doms := [(0, { isCrown := true, positions := [⟨{ member := 3 }, true, false⟩, ⟨{ member := 4 }, true, false⟩], prog := some (imgOf 400 [(50, 1), (256, 5), (260, 64), (261, 1), (268, 1), (321, 2), (324, 8), (328, 8), (332, 4), (340, 1), (348, 1), (368, 1), (372, 64)]), phase := .held })], shards := [(0, { sealedOut := [(0, (1, [1]))] })], c := { k.c with fw := fwOf (cmdOf [(0, 7), (1, 9)]) } }), 0, 0, (cmdOf [(0, 7), (1, 9)]), true, (imgOf 400 [(50, 1), (256, 5), (260, 64), (261, 1), (268, 1), (321, 2), (324, 8), (328, 8), (332, 4), (340, 1), (348, 1), (368, 1), (372, 64)]), [0], [{ what := 4, receiver := 3, domain := 0, cls := 5, addr := 0, sigObj := 0, data := [1], rec' := fillId 0 0, chunk := 0, entry := 0 }], by decide +kernel⟩,
    ⟨(withBx fun b => { b with c := { b.c with fw := fwOf (cmdOf [(0, 12), (1, 9)]) } }), 0, 0, (cmdOf [(0, 12), (1, 9)]), by decide +kernel⟩,
    ⟨(withBx fun b => { b with tenants := [(1, { domain := some 0 })], c := { b.c with fw := fwOf (cmdOf [(0, 12), (1, 9)]) } }), 0, 0, (cmdOf [(0, 12), (1, 9)]), 1, by decide +kernel⟩,
    ⟨(withBx fun b => { b with tenants := [(1, { domain := some 0, prog := (imgOf 800 [(30, 1), (50, 3), (256, 1), (260, 144), (261, 1), (268, 1), (272, 5), (277, 2), (284, 1), (288, 9), (292, 128), (293, 2), (300, 1), (400, 6), (416, 1), (513, 2), (516, 8), (520, 8), (524, 4), (560, 1), (564, 64), (640, 1), (652, 1), (656, 64)]) })], c := { b.c with fw := fwOf (cmdOf [(0, 12), (1, 9), (12, 1)]) } }), 0, 0, (cmdOf [(0, 12), (1, 9), (12, 1)]), 1, 0, 0, 1, [], by decide +kernel⟩,
    ⟨State.reset, ⟨0, 1, 2⟩, by decide +kernel⟩⟩

theorem wit_ShardAndHomeCommands_3 :
    ∃ (s : State) (x : CkptGrant) (q : Ckpt), (s.ks.ckpts.find? fun q => q.domain = x.domain && q.target = x.target && !q.left.isEmpty) = some q :=
  ⟨(withKs fun k => { k with ckpts := [{ domain := 0, coll := 0, step := 0, target := 1, left := [0], entry := 0 }] }), ⟨0, 1, 2⟩, { domain := 0, coll := 0, step := 0, target := 1, left := [0], entry := 0 }, by decide +kernel⟩

theorem wit_CuppingAndCounterCommands_1 :
    (∃ (s : State) (m : Nat) (k : Nat) (tk : Taken), s.ready .kresia m k 0x0A01 tk ∧ (s.dom tk.domain).isCrown = true ∧ (s.dom tk.domain).prog = none) ∧
    (∃ (s : State) (m : Nat) (k : Nat) (tk : Taken), s.ready .kresia m k 0x0A01 tk ∧ (s.dom tk.domain).isCrown = true ∧ (s.dom tk.domain).prog.isSome = true ∧ ((s.dom tk.domain).lastTamp.any fun q => tk.f 10 6 ≤ q.1) = true) ∧
    (∃ (s : State) (m : Nat) (k : Nat) (tk : Taken), s.ready .kresia m k 0x0A01 tk ∧ (s.dom tk.domain).isCrown = true ∧ (s.dom tk.domain).prog.isSome = true ∧ ((s.dom tk.domain).lastTamp.any fun q => tk.f 10 6 ≤ q.1) = false) ∧
    (∃ (s : State) (m : Nat) (k : Nat) (tk : Taken), s.ready .kresia m k 0x0A02 tk ∧ 2 ≤ tk.f 16 1) ∧
    (∃ (s : State) (m : Nat) (k : Nat) (tk : Taken), s.ready .kresia m k 0x0A02 tk ∧ tk.f 16 1 = 0 ∧ (s.dom tk.domain).isCrown = true ∧ ((s.dom tk.domain).cupRecs.find? fun r => r.seq = tk.f 8 4) = none) ∧
    (∃ (s : State) (m : Nat) (k : Nat) (tk : Taken) (r : CupRec), s.ready .kresia m k 0x0A02 tk ∧ tk.f 16 1 = 0 ∧ (s.dom tk.domain).isCrown = true ∧ ((s.dom tk.domain).cupRecs.find? fun r => r.seq = tk.f 8 4) = some r) ∧
    (∃ (s : State) (m : Nat) (k : Nat) (tk : Taken), s.ready .kresia m k 0x0A02 tk ∧ tk.f 16 1 = 1 ∧ ((s.dom tk.domain).cups.find? fun q => q.step = tk.f 20 6 && q.epoch = tk.f 26 4) = none) ∧
    (∃ (s : State) (m : Nat) (k : Nat) (tk : Taken) (q : CupPart), s.ready .kresia m k 0x0A02 tk ∧ tk.f 16 1 = 1 ∧ ((s.dom tk.domain).cups.find? fun q => q.step = tk.f 20 6 && q.epoch = tk.f 26 4) = some q) ∧
    (∃ (s : State) (m : Nat) (k : Nat) (tk : Taken), s.ready .kresia m k 0x0A03 tk ∧ (s.dom tk.domain).isCrown = true ∧ ((s.dom tk.domain).cupRecs.any fun r => r.seq = tk.f 8 4) = false) ∧
    (∃ (s : State) (m : Nat) (k : Nat) (tk : Taken), s.ready .kresia m k 0x0A03 tk ∧ (s.dom tk.domain).isCrown = true ∧ ((s.dom tk.domain).cupRecs.any fun r => r.seq = tk.f 8 4) = true) ∧
    (∃ (s : State) (m : Nat) (k : Nat) (tk : Taken), s.ready .kresia m k 0x0A04 tk ∧ (s.dom tk.domain).prog = none) ∧
    (∃ (s : State) (m : Nat) (k : Nat) (tk : Taken) (g : Image), s.ready .kresia m k 0x0A04 tk ∧ (s.dom tk.domain).prog = some g ∧ (collCount g ≤ tk.f 8 2 ∨ cBlocked g (tk.f 8 2) = false ∨ cChunks g (tk.f 8 2) < tk.f 12 4 + tk.f 16 4)) ∧
    (∃ (s : State) (m : Nat) (k : Nat) (tk : Taken) (g : Image), s.ready .kresia m k 0x0A04 tk ∧ (s.dom tk.domain).prog = some g ∧ tk.f 8 2 < collCount g ∧ cBlocked g (tk.f 8 2) = true ∧ tk.f 12 4 + tk.f 16 4 ≤ cChunks g (tk.f 8 2) ∧ ((s.homeChunks (s.dom tk.domain) g (tk.f 8 2) ((s.dom tk.domain).homeStep g)).filter fun q => tk.f 12 4 ≤ q && q < tk.f 12 4 + tk.f 16 4) ≠ [] ∧ imgEntries g = 0 ∧ s.ks.cupChecks = []) ∧
    (∃ (s : State) (p : Part) (m : Nat) (k : Nat) (tk : Taken), s.ready p m k 0x0A10 tk ∧ (((List.range 7).map fun i => tk.f (8 + 8 * i) 8).any fun v => v ≠ 0 && !selZero v) = true) ∧
    (∃ (s : State) (p : Part) (m : Nat) (k : Nat) (tk : Taken), s.ready p m k 0x0A10 tk ∧ (((List.range 7).map fun i => tk.f (8 + 8 * i) 8).any fun v => v ≠ 0 && !selZero v) = false ∧ (((List.range 7).map fun i => tk.f (8 + 8 * i) 8).any fun v => v ≠ 0 && (decide ((selOf v).part ≠ p) || (selCode (selOf v)).isSome || ((selOf v).portEn && decide (s.portsOf p ≤ (selOf v).port)))) = true) ∧
    (∃ (s : State) (p : Part) (m : Nat) (k : Nat) (tk : Taken), s.ready p m k 0x0A10 tk ∧ (((List.range 7).map fun i => tk.f (8 + 8 * i) 8).any fun v => v ≠ 0 && !selZero v) = false ∧ (((List.range 7).map fun i => tk.f (8 + 8 * i) 8).any fun v => v ≠ 0 && (decide ((selOf v).part ≠ p) || (selCode (selOf v)).isSome || ((selOf v).portEn && decide (s.portsOf p ≤ (selOf v).port)))) = false ∧ (((List.range 7).map fun i => tk.f (8 + 8 * i) 8).any fun v => v ≠ 0 && !(s.readScope p m (selOf v)).2) = true) :=
  ⟨⟨(withKs fun k => { k with doms := [(0, { isCrown := true, positions := [⟨{ member := 3 }, true, false⟩, ⟨{ member := 4 }, true, false⟩] })], c := { k.c with fw := fwOf (cmdOf [(0, 1), (1, 10)]) } }), 0, 0, (cmdOf [(0, 1), (1, 10)]), by decide +kernel⟩,
    ⟨(withKs fun k => { k with doms := [(0, { isCrown := true, positions := [⟨{ member := 3 }, true, false⟩, ⟨{ member := 4 }, true, false⟩], prog := some [], lastTamp := some (3, 0) })], c := { k.c with fw := fwOf (cmdOf [(0, 1), (1, 10)]) } }), 0, 0, (cmdOf [(0, 1), (1, 10)]), by decide +kernel⟩,
    ⟨(withKs fun k => { k with doms := [(0, { isCrown := true, positions := [⟨{ member := 3 }, true, false⟩, ⟨{ member := 4 }, true, false⟩], prog := some [] })], c := { k.c with fw := fwOf (cmdOf [(0, 1), (1, 10), (8, 2), (10, 4)]) } }), 0, 0, (cmdOf [(0, 1), (1, 10), (8, 2), (10, 4)]), by decide +kernel⟩,
    ⟨(withKs fun k => { k with c := { k.c with fw := fwOf (cmdOf [(0, 2), (1, 10), (16, 2)]) } }), 0, 0, (cmdOf [(0, 2), (1, 10), (16, 2)]), by decide +kernel⟩,
    ⟨(withKs fun k => { k with doms := [(0, { isCrown := true, positions := [⟨{ member := 3 }, true, false⟩, ⟨{ member := 4 }, true, false⟩] })], c := { k.c with fw := fwOf (cmdOf [(0, 2), (1, 10)]) } }), 0, 0, (cmdOf [(0, 2), (1, 10)]), by decide +kernel⟩,
    ⟨(withKs fun k => { k with doms := [(0, { isCrown := true, positions := [⟨{ member := 3 }, true, false⟩, ⟨{ member := 4 }, true, false⟩], cupRecs := [{ step := 1, epoch := 0 }] })], c := { k.c with fw := fwOf (cmdOf [(0, 2), (1, 10)]) } }), 0, 0, (cmdOf [(0, 2), (1, 10)]), { step := 1, epoch := 0 }, by decide +kernel⟩,
    ⟨(withKs fun k => { k with c := { k.c with fw := fwOf (cmdOf [(0, 2), (1, 10), (16, 1)]) } }), 0, 0, (cmdOf [(0, 2), (1, 10), (16, 1)]), by decide +kernel⟩,
    ⟨(withKs fun k => { k with doms := [(0, { isCrown := true, positions := [⟨{ member := 3 }, true, false⟩, ⟨{ member := 4 }, true, false⟩], cups := [{ step := 0, epoch := 0 }] })], c := { k.c with fw := fwOf (cmdOf [(0, 2), (1, 10), (16, 1)]) } }), 0, 0, (cmdOf [(0, 2), (1, 10), (16, 1)]), { step := 0, epoch := 0 }, by decide +kernel⟩,
    ⟨(withKs fun k => { k with doms := [(0, { isCrown := true, positions := [⟨{ member := 3 }, true, false⟩, ⟨{ member := 4 }, true, false⟩] })], c := { k.c with fw := fwOf (cmdOf [(0, 3), (1, 10)]) } }), 0, 0, (cmdOf [(0, 3), (1, 10)]), by decide +kernel⟩,
    ⟨(withKs fun k => { k with doms := [(0, { isCrown := true, positions := [⟨{ member := 3 }, true, false⟩, ⟨{ member := 4 }, true, false⟩], cupRecs := [{ step := 1, epoch := 0 }] })], c := { k.c with fw := fwOf (cmdOf [(0, 3), (1, 10)]) } }), 0, 0, (cmdOf [(0, 3), (1, 10)]), by decide +kernel⟩,
    ⟨(withKs fun k => { k with c := { k.c with fw := fwOf (cmdOf [(0, 4), (1, 10)]) } }), 0, 0, (cmdOf [(0, 4), (1, 10)]), by decide +kernel⟩,
    ⟨(withKs fun k => { k with doms := [(0, { isCrown := true, positions := [⟨{ member := 3 }, true, false⟩, ⟨{ member := 4 }, true, false⟩], prog := some [] })], c := { k.c with fw := fwOf (cmdOf [(0, 4), (1, 10)]) } }), 0, 0, (cmdOf [(0, 4), (1, 10)]), [], by decide +kernel⟩,
    ⟨(withKs fun k => { k with doms := [(0, { isCrown := true, positions := [⟨{ member := 3 }, true, false⟩, ⟨{ member := 4 }, true, false⟩], prog := some (imgOf 400 [(50, 1), (256, 5), (260, 64), (261, 1), (268, 1), (321, 2), (324, 8), (328, 8), (332, 4), (340, 1), (368, 1), (372, 64)]) })], c := { k.c with fw := fwOf (cmdOf [(0, 4), (1, 10), (16, 1)]) } }), 0, 0, (cmdOf [(0, 4), (1, 10), (16, 1)]), (imgOf 400 [(50, 1), (256, 5), (260, 64), (261, 1), (268, 1), (321, 2), (324, 8), (328, 8), (332, 4), (340, 1), (368, 1), (372, 64)]), by decide +kernel⟩,
    ⟨(withKs fun k => { k with c := { k.c with fw := fwOf (cmdOf [(0, 16), (1, 10), (15, 1)]) } }), .kresia, 0, 0, (cmdOf [(0, 16), (1, 10), (15, 1)]), by decide +kernel⟩,
    ⟨(withKs fun k => { k with c := { k.c with fw := fwOf (cmdOf [(0, 16), (1, 10), (8, 1)]) } }), .kresia, 0, 0, (cmdOf [(0, 16), (1, 10), (8, 1)]), by decide +kernel⟩,
    ⟨(withKs fun k => { k with c := { k.c with fw := { serving := true, mailboxes := [(4, { slots := [(0, { locked := true, taken := some (cmdOf [(0, 16), (1, 10), (8, 77), (10, 16)]) })] })] } } }), .kresia, 4, 0, (cmdOf [(0, 16), (1, 10), (8, 77), (10, 16)]), by decide +kernel⟩⟩

theorem wit_CuppingAndCounterCommands_2 :
    (∃ (s : State) (p : Part) (m : Nat) (k : Nat) (tk : Taken), s.ready p m k 0x0A10 tk ∧ (((List.range 7).map fun i => tk.f (8 + 8 * i) 8).any fun v => v ≠ 0 && !selZero v) = false ∧ (((List.range 7).map fun i => tk.f (8 + 8 * i) 8).any fun v => v ≠ 0 && (decide ((selOf v).part ≠ p) || (selCode (selOf v)).isSome || ((selOf v).portEn && decide (s.portsOf p ≤ (selOf v).port)))) = false ∧ (((List.range 7).map fun i => tk.f (8 + 8 * i) 8).any fun v => v ≠ 0 && !(s.readScope p m (selOf v)).2) = false) ∧
    (∃ (s : State) (p : Part) (m : Nat) (k : Nat) (tk : Taken), s.ready p m k 0x0A11 tk ∧ (tk.f 20 1 = 0 ∨ 30 < tk.f 20 1)) ∧
    (∃ (s : State) (m : Nat) (k : Nat) (tk : Taken), s.ready .baxel m k 0x0A11 tk ∧ 1 ≤ tk.f 20 1 ∧ tk.f 20 1 ≤ 30) ∧
    (∃ (s : State) (m : Nat) (k : Nat) (tk : Taken), s.ready .kresia m k 0x0A11 tk ∧ 1 ≤ tk.f 20 1 ∧ tk.f 20 1 ≤ 30 ∧ tk.f 28 4 ≠ 0) ∧
    (∃ (s : State) (m : Nat) (k : Nat) (tk : Taken), s.ready .kresia m k 0x0A11 tk ∧ 1 ≤ tk.f 20 1 ∧ tk.f 20 1 ≤ 30 ∧ tk.f 28 4 = 0 ∧ s.stageOf m (tk.f 24 4) = none) ∧
    (∃ (s : State) (m : Nat) (k : Nat) (tk : Taken) (area : List Byte), s.ready .kresia m k 0x0A11 tk ∧ 1 ≤ tk.f 20 1 ∧ tk.f 20 1 ≤ 30 ∧ tk.f 28 4 = 0 ∧ s.stageOf m (tk.f 24 4) = some area) ∧
    (∃ (s : State) (m : Nat) (k : Nat) (tk : Taken), s.ready .kresia m k 0x0A12 tk ∧ (match s.readStore .kresia tk.domain with | some key => (s.snapStore .kresia key).recs.find? fun r => r.snapSeq = tk.f 8 4 | none => none) = none) ∧
    (∃ (s : State) (m : Nat) (k : Nat) (tk : Taken) (r : SnapRec), s.ready .kresia m k 0x0A12 tk ∧ (match s.readStore .kresia tk.domain with | some key => (s.snapStore .kresia key).recs.find? fun r => r.snapSeq = tk.f 8 4 | none => none) = some r) ∧
    (∃ (s : State) (m : Nat) (k : Nat) (tk : Taken), s.ready .baxel m k 0x0A12 tk ∧ (match s.readStore .baxel tk.domain with | some key => (s.snapStore .baxel key).recs.find? fun r => r.snapSeq = tk.f 8 4 | none => none) = none) ∧
    (∃ (s : State) (m : Nat) (k : Nat) (tk : Taken) (r : SnapRec), s.ready .baxel m k 0x0A12 tk ∧ (match s.readStore .baxel tk.domain with | some key => (s.snapStore .baxel key).recs.find? fun r => r.snapSeq = tk.f 8 4 | none => none) = some r) :=
  ⟨⟨(withKs fun k => { k with c := { k.c with fw := fwOf (cmdOf [(0, 16), (1, 10)]) } }), .kresia, 0, 0, (cmdOf [(0, 16), (1, 10)]), by decide +kernel⟩,
    ⟨(withKs fun k => { k with c := { k.c with fw := fwOf (cmdOf [(0, 17), (1, 10)]) } }), .kresia, 0, 0, (cmdOf [(0, 17), (1, 10)]), by decide +kernel⟩,
    ⟨(withBx fun b => { b with c := { b.c with fw := fwOf (cmdOf [(0, 17), (1, 10), (20, 1)]) } }), 0, 0, (cmdOf [(0, 17), (1, 10), (20, 1)]), by decide +kernel⟩,
    ⟨(withKs fun k => { k with c := { k.c with fw := fwOf (cmdOf [(0, 17), (1, 10), (20, 1), (28, 1)]) } }), 0, 0, (cmdOf [(0, 17), (1, 10), (20, 1), (28, 1)]), by decide +kernel⟩,
    ⟨(withKs fun k => { k with c := { k.c with fw := fwOf (cmdOf [(0, 17), (1, 10), (20, 1)]) } }), 0, 0, (cmdOf [(0, 17), (1, 10), (20, 1)]), by decide +kernel⟩,
    ⟨(withKs fun k => { k with c := { k.c with fw := { fwOf (cmdOf [(0, 17), (1, 10), (20, 1), (24, 7)]) with stages := [(7, ⟨0, List.replicate 128 0⟩)] } } }), 0, 0, (cmdOf [(0, 17), (1, 10), (20, 1), (24, 7)]), List.replicate 128 0, by decide +kernel⟩,
    ⟨(withKs fun k => { k with c := { k.c with fw := fwOf (cmdOf [(0, 18), (1, 10)]) } }), 0, 0, (cmdOf [(0, 18), (1, 10)]), by decide +kernel⟩,
    ⟨(withKs fun k => { k with c := { k.c with ctr := { stores := [(0, { recs := [{ domain := 0, set := 0, step := 0, late := false, operator := false, epoch := 0, t := .zero, raw := 0, snapSeq := 0, lost := 0, node := 0, values := [] }] })] }, fw := fwOf (cmdOf [(0, 18), (1, 10)]) } }), 0, 0, (cmdOf [(0, 18), (1, 10)]), { domain := 0, set := 0, step := 0, late := false, operator := false, epoch := 0, t := .zero, raw := 0, snapSeq := 0, lost := 0, node := 0, values := [] }, by decide +kernel⟩,
    ⟨(withBx fun b => { b with c := { b.c with fw := fwOf (cmdOf [(0, 18), (1, 10)]) } }), 0, 0, (cmdOf [(0, 18), (1, 10)]), by decide +kernel⟩,
    ⟨(withBx fun b => { b with tenants := [(1, { domain := some 0 })], c := { b.c with ctr := { stores := [(1, { recs := [{ domain := 0, set := 0, step := 0, late := false, operator := false, epoch := 0, t := .zero, raw := 0, snapSeq := 0, lost := 0, node := 0, values := [] }] })] }, fw := fwOf (cmdOf [(0, 18), (1, 10)]) } }), 0, 0, (cmdOf [(0, 18), (1, 10)]), { domain := 0, set := 0, step := 0, late := false, operator := false, epoch := 0, t := .zero, raw := 0, snapSeq := 0, lost := 0, node := 0, values := [] }, by decide +kernel⟩⟩

end Sys2Proof.Tests
end

/-! The proof of O8 (R40): the code with which a part answers a due time, case by case, and what `snap.arm` at a Kresia
does with it. -/

namespace Sys2Proof.Machine

/-! ### The code of a well-formed due time at a part whose time is set (R40) -/

section
variable {u : TimeUnit} {due : OT}

/-- R40: past the malformed and UNSET refusals (R27, R31) only the OT distance decides. -/
theorem TimeUnit.dueCode_of_set (hwf : due.malformed = false) (hset : u.state ≠ .unset) :
    u.dueCode due = if dayGrains < otDiff due u.now then some 0x1001
      else if otDiff due u.now < -dayGrains then some 0x1002 else none := by
  simp [TimeUnit.dueCode, hwf, hset]

theorem TimeUnit.dueCode_tooFar (hwf : due.malformed = false) (hset : u.state ≠ .unset)
    (hfar : dayGrains < otDiff due u.now) : u.dueCode due = some 0x1001 := by
  rw [TimeUnit.dueCode_of_set hwf hset, if_pos hfar]

theorem TimeUnit.dueCode_tooOld (hwf : due.malformed = false) (hset : u.state ≠ .unset)
    (hold : otDiff due u.now < -dayGrains) : u.dueCode due = some 0x1002 := by
  have hnear : ¬ dayGrains < otDiff due u.now := by
    simp only [dayGrains, secGrains] at *
    omega
  rw [TimeUnit.dueCode_of_set hwf hset, if_neg hnear, if_pos hold]

theorem TimeUnit.dueCode_withinDay (hwf : due.malformed = false) (hset : u.state ≠ .unset)
    (hlo : -dayGrains ≤ otDiff due u.now) (hhi : otDiff due u.now ≤ dayGrains) : u.dueCode due = none := by
  rw [TimeUnit.dueCode_of_set hwf hset, if_neg (Int.not_lt.2 hhi), if_neg (Int.not_lt.2 hlo)]

/-- R37, R40: with no set committed, the conversion is the active set's, and PASSED compares with the current OT. -/
theorem TimeUnit.mkDue_of_uncommitted (hc : u.committed = none) :
    u.mkDue due = ⟨due, convert u.active due, none, decide (otDiff due u.now < 0)⟩ := by
  simp only [TimeUnit.mkDue, hc, TimeUnit.passed]

end

/-! ### `snap.arm` at a Kresia (R365) -/

section
variable {s : State} {m k : Nat} {tk : Taken} {area : List Byte}

/-- R390: a `snap.arm` whose selectors stand in a stage area of its mailbox goes on with the area's bytes. -/
theorem execSnapArm_of_staged (hready : s.ready .kresia m k 0x0A11 tk) (hlo : 1 ≤ tk.f 20 1) (hhi : tk.f 20 1 ≤ 30)
    (hhigh : tk.f 28 4 = 0) (harea : s.stageOf m (tk.f 24 4) = some area) (hlen : 8 * tk.f 20 1 ≤ area.length) :
    execSnapArm .kresia m k s = .next ((s.begun .kresia m k).armWith .kresia m k area) := by
  have hcount : ¬ (tk.f 20 1 = 0 ∨ 30 < tk.f 20 1) := by omega
  simp [execSnapArm, State.serve_ready s .kresia m k 0x0A11 tk _ hready, hcount, hhigh, harea, Nat.not_lt.2 hlen]

/-- R365: with room for an arm, a T the part refuses ends the command with the code of the refusal; nothing is armed. -/
theorem State.armWith_of_dueRefused {p : Part} {bs : List Byte} {c : Code} (htaken : (s.mslot p m k).taken = some tk)
    (hroom : ((s.pc p).ctr.snapArms.filter fun a => a.domain = 0xFFFF).length < 4)
    (hcode : (s.pc p).time.dueCode (leOt tk.bytes 8) = some c) :
    s.armWith p m k bs = s.complete p m k c := by
  simp only [State.armWith, htaken, if_neg (Nat.not_le.2 hroom), hcode]

/-- R365: so the command refuses its T: the start of a command moves neither the arms held nor the time unit. -/
theorem execSnapArm_of_dueRefused {c : Code} (hready : s.ready .kresia m k 0x0A11 tk) (hlo : 1 ≤ tk.f 20 1)
    (hhi : tk.f 20 1 ≤ 30) (hhigh : tk.f 28 4 = 0) (harea : s.stageOf m (tk.f 24 4) = some area)
    (hlen : 8 * tk.f 20 1 ≤ area.length)
    (hroom : ((s.pc .kresia).ctr.snapArms.filter fun a => a.domain = 0xFFFF).length < 4)
    (hcode : (s.pc .kresia).time.dueCode (leOt tk.bytes 8) = some c) :
    execSnapArm .kresia m k s = .next ((s.begun .kresia m k).complete .kresia m k c) := by
  have htaken := State.begun_taken s .kresia m k 0x0A11 tk hready
  rw [execSnapArm_of_staged hready hlo hhi hhigh harea hlen,
    State.armWith_of_dueRefused htaken (by rwa [State.begun_ctr]) (by rwa [State.begun_time])]

end

/-- Settles O8: the distance decides the code of a due time, at both bounds and between them, and `snap.arm` ends with it. -/
theorem dueTimesWithinADay : Obligations.DueTimesWithinADay := by
  unfold Obligations.DueTimesWithinADay
  refine ⟨?tooFar, ?tooOld, ?withinDay, ?snapArm⟩
  case tooFar => exact fun _ _ => TimeUnit.dueCode_tooFar
  case tooOld => exact fun _ _ => TimeUnit.dueCode_tooOld
  case withinDay =>
    intro u due hwf hset hlo hhi
    exact ⟨TimeUnit.dueCode_withinDay hwf hset hlo hhi, TimeUnit.mkDue_of_uncommitted⟩
  case snapArm =>
    intro s m k tk area c hready hlo hhi hhigh harea hlen hroom hcode
    exact execSnapArm_of_dueRefused hready hlo hhi hhigh harea hlen hroom hcode

end Sys2Proof.Machine

/-! The proof of O9 (R101): what dropping the arms of a domain, holding it and reporting leave of its state, of the event
records and of the messages sent; a void at the last epoch is these three and nothing else. -/

namespace Sys2Proof.Machine

/-! ### A completion sends no message (R379, R388) -/

theorem State.foldl_emit_out {α : Type} (g : α → Out) (l : List α) (s : State) :
    (l.foldl (fun s q => s.emit (g q)) s).out = (l.map g).reverse ++ s.out := by
  induction l generalizing s with
  | nil => rfl
  | cons x t ih => simp [ih (s.emit (g x))]

@[simp] theorem State.faultCode_out (s : State) (op : Nat) (st : Code) : (s.faultCode op st).out = s.out := by
  unfold State.faultCode
  split_ifs <;> simp

section
variable {s : State} {q : Part} {v : Via} {msg : Msg}

@[simp] theorem State.send_mem_mboxIrq_out {p : Part} {m : Nat} :
    .send q v msg ∈ (s.mboxIrq p m).out ↔ .send q v msg ∈ s.out := by
  cases p <;> simp only [State.mboxIrq] <;> split_ifs <;> simp

@[simp] theorem State.send_mem_complete_out {p : Part} {m k : Nat} {st : Code} {r i : List Byte} :
    .send q v msg ∈ (s.complete p m k st r i).out ↔ .send q v msg ∈ s.out := by
  unfold State.complete
  split
  · rfl
  · rw [State.foldl_emit_out]
    split_ifs <;> simp

end

/-! ### The end of a `bell.change` (R105) and the arms dropped (R99, R101) -/

@[simp] theorem State.endChange_ks_doms (s : State) (r : ArmRec) (code : Code) :
    (s.endChange r code).ks.doms = s.ks.doms := by
  unfold State.endChange
  split <;> simp

@[simp] theorem State.endChange_ks_events (s : State) (r : ArmRec) (code : Code) :
    (s.endChange r code).ks.events = s.ks.events := by
  unfold State.endChange
  split <;> simp

@[simp] theorem State.send_mem_endChange_out {s : State} {r : ArmRec} {code : Code} {q : Part} {v : Via} {msg : Msg} :
    .send q v msg ∈ (s.endChange r code).out ↔ .send q v msg ∈ s.out := by
  unfold State.endChange
  split <;> simp

/-- R99, R101: a domain with the arms not tamped dropped. -/
def Domain.disarmed (x : Domain) : Domain := { x with recs := x.recs.filter (·.tamped), toArm := [], changeWait := none }

section
variable (s : State) (d : Nat) (cause : Code)

/-- What the domain's change alone gives, and no end of a `bell.change` takes away, holds once the arms are dropped. -/
theorem State.dropArms_induct {P : State → Prop} (hdisarm : P (s.modDom d Domain.disarmed))
    (hend : ∀ t r, P t → P (t.endChange r cause)) : P (s.dropArms d cause) :=
  List.foldlRecOn _ _ hdisarm fun t ht r _ => hend t r ht

@[simp] theorem State.dropArms_ks_doms : (s.dropArms d cause).ks.doms = (s.modDom d Domain.disarmed).ks.doms :=
  s.dropArms_induct d cause (P := fun t => t.ks.doms = _) rfl fun _ _ ht => by simpa using ht

@[simp] theorem State.dropArms_ks_events : (s.dropArms d cause).ks.events = s.ks.events :=
  s.dropArms_induct d cause (P := fun t => t.ks.events = _) rfl fun _ _ ht => by simpa using ht

@[simp] theorem State.send_mem_dropArms_out {q : Part} {v : Via} {msg : Msg} :
    .send q v msg ∈ (s.dropArms d cause).out ↔ .send q v msg ∈ s.out :=
  s.dropArms_induct d cause (P := fun t => .send q v msg ∈ t.out ↔ _) Iff.rfl fun _ _ ht => by simpa using ht

@[simp] theorem State.dropArms_dom : (s.dropArms d cause).dom d = (s.dom d).disarmed := by
  rw [State.dom, State.dropArms_ks_doms]
  exact State.dom_modDom s d Domain.disarmed

end

/-! ### A Kresia's report (R311, R312) -/

section
variable {s : State} {code : Code} {dt : List Nat} {port : Nat} {sub dom : Option Nat}

@[simp] theorem State.report_dom (p : Part) (d : Nat) : (s.report p code dt port sub dom).dom d = s.dom d := by
  simp [State.dom]

/-- R312: a report at a Kresia sends at most its own event record. -/
theorem State.send_of_report_kresia {q : Part} {v : Via} {msg : Msg}
    (h : .send q v msg ∈ (s.report .kresia code dt port sub dom).out) :
    .send q v msg ∈ s.out ∨ ∃ r, r.code = code ∧ r.domain = dom ∧ q = .kresia ∧ v = .mgmt ∧ msg = .event r := by
  simp only [State.report, State.queueEvent] at h
  split_ifs at h
  · simp only [State.emit_out, List.mem_cons, Out.send.injEq, State.wr_out, State.modKs_out] at h
    obtain ⟨hq, hv, hmsg⟩ | hold := h
    · exact .inr ⟨_, rfl, rfl, hq, hv, hmsg⟩
    · exact .inl hold
  · exact .inl (by simpa using h)
  · exact .inl (by simpa using h)

end

/-! ### A void at the last epoch (R99, R101, R171) -/

section
variable {s : State} {d : Nat} {code cause : Code}

/-- R99: with no unload pending (R171) a domain that becomes HELD is only reported. -/
theorem State.enterHeld_of_notUnloading (hun : (s.dom d).unloading = none) :
    s.enterHeld d code = (s.modDom d fun x => { x with phase := .held }).report .kresia code (domain := some d) := by
  simp [State.enterHeld, hun]

/-- R101: at the last epoch a void of the unsealed step drops its arms and holds the domain. -/
theorem State.voidStep_lastEpoch (hep : (s.dom d).epoch = 0xFFFFFFFF)
    (hph : (s.dom d).phase = .gather ∨ (s.dom d).phase = .arm ∨ (s.dom d).phase = .tamped)
    (hun : (s.dom d).unloading = none) :
    s.voidStep d cause =
      ((s.dropArms d 0x200A).modDom d fun x => { x with phase := .held }).report .kresia 0x200A (domain := some d) := by
  have hheld : s.voidStep d cause = (s.dropArms d 0x200A).enterHeld d 0x200A := by
    rcases hph with hph | hph | hph <;> simp [State.voidStep, hep, hph]
  rw [hheld, State.enterHeld_of_notUnloading]
  simpa [Domain.disarmed] using hun

end

/-- R167: a program loaded begins at epoch 0. -/
theorem State.loadHere_epoch (s : State) (d : Nat) (g : Image) : ((s.loadHere d g).dom d).epoch = 0 := by
  simp [State.loadHere]

/-- Settles O9: a void at the last epoch is the arms dropped, the domain HELD and the report, whose event record is the one
message sent; a load sets epoch 0. -/
theorem epochExhausted : Obligations.EpochExhausted := by
  unfold Obligations.EpochExhausted
  refine ⟨?void, State.loadHere_epoch⟩
  case void =>
    intro s d cause hep hph hun htell
    have hdom : (s.voidStep d cause).dom d = { (s.dom d).disarmed with phase := .held } := by
      simp [State.voidStep_lastEpoch hep hph hun]
    refine ⟨?held, ?epoch, ?told, hdom, ?sent⟩
    case held => rw [hdom]
    case epoch => rw [hdom]; exact hep
    case told =>
      rw [State.voidStep_lastEpoch hep hph hun, State.told_report]
      · simp [State.told]
      · simpa [State.canTell] using htell
    case sent =>
      intro q v msg hmem
      rw [State.voidStep_lastEpoch hep hph hun] at hmem
      exact (State.send_of_report_kresia hmem).imp_left (State.send_mem_dropArms_out s d 0x200A).1

end Sys2Proof.Machine

/-! The proof of O10 (R342): the model computes the generator over natural numbers, the rule over 64-bit words. One
commuting lemma for each of fmix, a round and the loop, and the place of each field in the counter. -/

namespace Sys2Proof.Machine

/-! ### The generator over 64-bit words -/

/-- R342: fmix over 64-bit words. -/
def fmixWord (x : BitVec 64) : BitVec 64 :=
  let a := (x ^^^ (x >>> 31)) * 0xD6E8FEB86659FD93#64
  let b := (a ^^^ (a >>> 29)) * 0xA3B195C43F7E21D5#64
  b ^^^ (b >>> 32)

/-- R342: the word k of round i. -/
def roundKey (key i : Nat) : BitVec 64 :=
  BitVec.ofNat 64 key + BitVec.ofNat 64 (i + 1) * 0x9E3779B97F4A7C15#64

/-- R342: round i of the loop, on the pair (L, R). -/
def drawRound (key : Nat) (q : BitVec 64 × BitVec 64) (i : Nat) : BitVec 64 × BitVec 64 :=
  (q.2, q.1 ^^^ fmixWord (q.2 ^^^ roundKey key i))

theorem toNat_mul_ofNat (x : BitVec 64) (m : Nat) : (x * BitVec.ofNat 64 m).toNat = u64 (x.toNat * m) := by
  simp [u64]

theorem toNat_fmixWord (x : BitVec 64) : (fmixWord x).toNat = fmix x.toNat := by
  simp only [fmixWord, fmix, BitVec.toNat_xor, BitVec.toNat_ushiftRight, toNat_mul_ofNat]

theorem toNat_roundKey (key i : Nat) : (roundKey key i).toNat = u64 (key + (i + 1) * 0x9E3779B97F4A7C15) := by
  rw [roundKey, ← BitVec.ofNat_mul, ← BitVec.ofNat_add, BitVec.toNat_ofNat, u64]

theorem toNat_drawRound_snd (key : Nat) (q : BitVec 64 × BitVec 64) (i : Nat) :
    (drawRound key q i).2.toNat =
      q.1.toNat ^^^ fmix (q.2.toNat ^^^ u64 (key + (i + 1) * 0x9E3779B97F4A7C15)) := by
  simp only [drawRound, BitVec.toNat_xor, toNat_fmixWord, toNat_roundKey]

/-- The commuting lemma of the loop: `n` rounds from i on, over natural numbers and over words. -/
theorem drawRounds_toNat (key n i : Nat) (q : BitVec 64 × BitVec 64) :
    drawRounds key n i q.1.toNat q.2.toNat = ((List.range' i n).foldl (drawRound key) q).2.toNat := by
  induction n generalizing i q with
  | zero => rfl
  | succ n ih => rw [List.range'_succ, List.foldl_cons, ← ih, toNat_drawRound_snd, drawRounds, drawRound]

theorem genDraw_eq_foldl_drawRound (key c : Nat) :
    genDraw key c =
      ((List.range 12).foldl (drawRound key) (BitVec.ofNat 64 (c / 2 ^ 64), BitVec.ofNat 64 c)).2.toNat := by
  rw [List.range_eq_range', ← drawRounds_toNat]
  simp only [genDraw, u64, BitVec.toNat_ofNat]

/-! ### The layout of the counter -/

/-- A field within the width of a word is untouched by the cut to that width. -/
theorem toNat_extractLsb'_ofNat_of_le (c : Nat) {n i w : Nat} (h : i + w ≤ n) :
    ((BitVec.ofNat n c).extractLsb' i w).toNat = c / 2 ^ i % 2 ^ w := by
  apply Nat.eq_of_testBit_eq
  intro j
  simp only [BitVec.extractLsb'_toNat, BitVec.toNat_ofNat, Nat.testBit_mod_two_pow, Nat.testBit_shiftRight,
    Nat.testBit_div_two_pow]
  by_cases hj : j < w
  · simp [hj, Nat.add_comm j i, show i + j < n by omega]
  · simp [hj]

/-- With every field in its range nothing is cut, and each stands in the place R342's table gives it. -/
theorem counterOf_of_lt {stream step draw index rec' : Nat} (hstream : stream < 2 ^ 8) (hstep : step < 2 ^ 48)
    (hdraw : draw < 2 ^ 8) (hindex : index < 2 ^ 32) (hrec : rec' < 2 ^ 12) :
    counterOf stream step draw index rec' =
      stream + 2 ^ 8 * step + 2 ^ 56 * draw + 2 ^ 64 * index + 2 ^ 96 * rec' := by
  unfold counterOf
  rw [Nat.mod_eq_of_lt hstream, Nat.mod_eq_of_lt hstep, Nat.mod_eq_of_lt hdraw, Nat.mod_eq_of_lt hindex,
    Nat.mod_eq_of_lt hrec]
  ring

/-- Settles O10: a draw is the loop over words, by the commuting lemma of its rounds, and each field of the counter is read
off its places. -/
theorem generatorDraws : Obligations.GeneratorDraws := by
  unfold Obligations.GeneratorDraws
  refine ⟨fun _ _ _ => rfl, fun key c => ⟨genDraw_eq_foldl_drawRound key c, ?layout⟩⟩
  case layout =>
    intro stream step draw index rec' hstream hstep hdraw hindex hrec
    have hc := counterOf_of_lt hstream hstep hdraw hindex hrec
    refine ⟨?_, ?_, ?_, ?_, ?_, BitVec.eq_of_toNat_eq (.trans ?_ BitVec.toNat_zero.symm)⟩
    all_goals
      rw [toNat_extractLsb'_ofNat_of_le _ (by norm_num), hc]
      omega

end Sys2Proof.Machine

/-! The proofs of O7, O4, O5 and O6: every command answers a state that follows the one it runs on (`Follows`), and only a
transfer's packet and a ring record store to the memory of a Kresia. -/

namespace Sys2Proof.Machine

/-- The commands that store to, or clear, the memory of a Kresia. -/
def writesMem : Instr → Bool
  | .ringRecordWritten .. => true
  | .rsigPacketRx .. => true
  | .resetAssert _ => true
  | .pwrGoodDrop => true
  | _ => false

/-- Every command answers a state that follows the one it runs on. -/
theorem exec_answers (c : Instr) (s : State) : Answers (writesMem c) (partOf c) s (exec c s) := by
  cases c <;> simp [exec, partOf, writesMem, reqPart, strapPart, bootPart]

theorem exec_follows {c : Instr} {s t : State} (h : exec c s = .next t) : Follows (writesMem c) (partOf c) s t := by
  have hans := exec_answers c s
  rwa [h, Answers.next] at hans

theorem State.Inv.popped {s : State} (h : s.Inv) : s.popped.Inv := h

theorem State.Inv.tick {s : State} (h : s.Inv) : s.tick.Inv :=
  (tick_kresia (mw := false) s).inv ((Follows.tickPart (mw := false) (Follows.refl .baxel s)).inv h)

/-- Settles O7: a command follows the state it runs on, and so do the two parts' cycles. -/
theorem stepKeepsInv : Obligations.StepKeepsInv := by
  unfold Obligations.StepKeepsInv
  intro s t hinv hstep
  unfold step at hstep
  split at hstep
  case h_1 c _ _ => exact (exec_follows hstep).inv hinv.popped
  case h_2 =>
    cases hstep
    exact hinv.tick

/-- Settles O4: every command answers a state that follows the one it runs on. -/
theorem everyCommandAnswers : Obligations.EveryCommandAnswers := by
  unfold Obligations.EveryCommandAnswers
  intro c s
  obtain ⟨t, hexec, hfollows⟩ := exec_answers c s
  exact ⟨t, hexec, hfollows.pending, hfollows.out, hfollows.free⟩

/-- Settles O5: a state that follows by operations of one part has the other part unchanged. -/
theorem partsApart : Obligations.PartsApart := by
  unfold Obligations.PartsApart
  intro c s t hexec
  exact ⟨(exec_follows hexec).ks, (exec_follows hexec).bx⟩

/-! ### What a transfer's packet and a ring record store (R81, R138) -/

/-- Memory reads as before but for the n bytes from an address on. -/
def SameMemOutside (a n : Nat) (s t : State) : Prop :=
  ∀ b, (b < a ∨ a + n ≤ b) → memRead t.ks.mem b = memRead s.ks.mem b

theorem Follows.sameMemOutside {p : Part} {s t : State} (h : Follows false p s t) (a n : Nat) : SameMemOutside a n s t :=
  fun b _ => congrArg (memRead · b) (h.mem rfl)

theorem SameMemOutside.trans {a n : Nat} {s t u : State} (h : SameMemOutside a n s t) (g : SameMemOutside a n t u) :
    SameMemOutside a n s u :=
  fun b hb => (g b hb).trans (h b hb)

theorem State.sameMemOutside_ksWrite (s : State) (a : Nat) (bs : List Byte) :
    SameMemOutside a bs.length s (s.ksWrite a bs) :=
  fun b hb => memRead_writeAll_out bs s.ks.mem a b hb

theorem State.sameMemOutside_landPayload (s : State) (t a : Nat) (bs : List Byte) (use : MemUse) :
    SameMemOutside a bs.length s (s.landPayload .kresia t a bs use) :=
  s.sameMemOutside_ksWrite a bs

theorem State.sameMemOutside_takePacket (s : State) (port key t : Nat) (x : Tracker) (k : RsigPacket) :
    SameMemOutside k.addr k.payload.length s (s.takePacket .kresia port key t x k) :=
  SameMemOutside.trans (t := State.landPayload _ .kresia t k.addr k.payload (.rsig key port))
    (State.sameMemOutside_landPayload _ _ _ _ _) ((Follows.tryTracker (Follows.refl .kresia _)).sameMemOutside _ _)

theorem State.sameMemOutside_rsigPacket (s : State) (port t epoch : Nat) (k : RsigPacket) :
    SameMemOutside k.addr k.payload.length s (s.rsigPacket .kresia port t epoch k) := by
  have hother : ∀ {u : State}, Follows false .kresia s u → SameMemOutside k.addr k.payload.length s u :=
    fun h => h.sameMemOutside _ _
  simp only [State.rsigPacket]
  split
  case h_1 =>
    split
    · exact hother (by simp)
    split
    · exact hother (by simp)
    split
    · exact hother (by simp)
    split
    · exact hother (by simp)
    · exact s.sameMemOutside_takePacket _ _ _ _ _
  case h_2 =>
    split
    · exact hother (by simp)
    split
    · exact hother (by simp)
    split
    · exact hother (by simp)
    · exact s.sameMemOutside_takePacket _ _ _ _ _

theorem sameMemOutside_of_rsigPacketRx {port : Nat} {x : RsigPacket} {s t : State}
    (h : execRsigPacketRx .kresia port x s = .next t) : SameMemOutside x.addr x.payload.length s t := by
  simp only [execRsigPacketRx] at h
  split_ifs at h <;> cases h
  · exact Follows.sameMemOutside (Follows.count (Follows.refl .kresia s) ⟨rfl, fun _ => rfl⟩) _ _
  · exact s.sameMemOutside_landPayload _ _ _ _
  · exact s.sameMemOutside_rsigPacket _ _ _ _

theorem recBytes_length (r : StampRec) : (recBytes r).length = 32 := by
  simp [recBytes, leBytes, otBytes]

/-- R81: the place in its ring of the record a channel of a Kresia drains next. -/
def State.ringSlot (s : State) (ch : Nat) : Nat :=
  (s.rd64 .kresia (chAddr .kresia ch 0x40)).toNat +
    (s.rd .kresia (chAddr .kresia ch 0x4C)).toNat % (s.rd .kresia (chAddr .kresia ch 0x48)).toNat * 32

theorem sameMemOutside_of_ringRecordWritten {ch : Nat} {s t : State}
    (h : execRingRecordWritten .kresia ch s = .next t) : SameMemOutside (s.ringSlot ch) 32 s t := by
  have hsame : SameMemOutside (s.ringSlot ch) 32 s s := (Follows.refl .kresia s).sameMemOutside _ _
  simp only [execRingRecordWritten] at h
  split at h
  case h_1 => cases h; exact hsame
  case h_2 r rest _ =>
    split at h <;> cases h
    · exact hsame
    · have hwrite := State.sameMemOutside_ksWrite ((s.modChan .kresia ch fun c => { c with queue := rest }).wr .kresia
        (chAddr .kresia ch 0x4C) (s.rd .kresia (chAddr .kresia ch 0x4C) + 1)) (s.ringSlot ch) (recBytes r)
      rwa [recBytes_length] at hwrite

/-- Settles O6: a command that does not store leaves memory; a packet and a ring record store to their own bytes. -/
theorem memoryFrame : Obligations.MemoryFrame := by
  unfold Obligations.MemoryFrame
  intro c s t hexec a ha
  by_cases hstores : writesMem c = false
  · exact congrArg (memRead · a) ((exec_follows hexec).mem hstores)
  · cases c <;> simp only [writesMem, not_true_eq_false] at hstores
    case rsigPacketRx p port x =>
      cases p
      · exact congrArg (memRead · a) (congrArg Kresia.mem ((exec_follows hexec).ks rfl))
      · exact sameMemOutside_of_rsigPacketRx hexec a ha
    case ringRecordWritten p ch =>
      cases p
      · exact congrArg (memRead · a) (congrArg Kresia.mem ((exec_follows hexec).ks rfl))
      · exact sameMemOutside_of_ringRecordWritten hexec a ha
    case resetAssert p =>
      cases p
      · exact congrArg (memRead · a) (congrArg Kresia.mem ((exec_follows hexec).ks rfl))
      · exact ha.elim
    case pwrGoodDrop => exact ha.elim

end Sys2Proof.Machine

/-! The proof of O2: the state after reset is plain data, so its parts are read off it. -/

namespace Sys2Proof.Machine

/-- R406: what reset leaves meets the invariant: nothing is stored, recorded or queued. -/
theorem State.inv_reset : State.reset.Inv := by
  simp [State.Inv, State.reset, Memory.wf]

/-- Settles O2: the state after reset is evaluated, register by register. -/
theorem resetState : Obligations.ResetState := by
  unfold Obligations.ResetState
  refine ⟨⟨State.inv_reset, rfl, rfl⟩, ?registers, ?parts⟩
  case registers => decide
  case parts =>
    intro p d t i
    cases p <;> exact ⟨rfl, rfl, rfl, rfl, rfl, rfl⟩

end Sys2Proof.Machine

/-! The proof of O3: a row whose turn has not come serves nothing, and what a completion leaves of mailboxes, domains, memory
and registers. -/

namespace Sys2Proof.Machine

/-! ### What a completion writes (R379, R336) -/

theorem State.mslot_modMslot_ne (s : State) {p q : Part} {m n k j : Nat} (h : ¬ (q = p ∧ n = m ∧ j = k)) (f : MSlot → MSlot) :
    (s.modMslot p m k f).mslot q n j = s.mslot q n j := by
  by_cases hq : q = p
  · subst hq
    by_cases hn : n = m
    · subst hn
      have hj : j ≠ k := fun hj => h ⟨rfl, rfl, hj⟩
      simp only [State.mslot, State.modMslot, State.mbox_modMbox]
      exact FMap.getD_update_ne _ hj _ _ _
    · simp only [State.mslot, State.modMslot, State.mbox_modMbox_ne _ _ hn]
  · cases p <;> cases q <;> first | rfl | exact absurd rfl hq

@[simp] theorem State.rd_modMslot (s : State) (p q : Part) (m k a : Nat) (f : MSlot → MSlot) :
    (s.modMslot p m k f).rd q a = s.rd q a := by
  cases p <;> cases q <;> rfl

@[simp] theorem State.mslot_faultCode (s : State) (op : Nat) (st : Code) (q : Part) (n j : Nat) :
    (s.faultCode op st).mslot q n j = s.mslot q n j := by
  simp only [State.mslot, State.mbox, State.faultCode_fw]

theorem State.rd_faultCode_ne (s : State) {op : Nat} (st : Code) {q : Part} {a : Nat}
    (h : ¬ (0x0901 ≤ op ∧ op ≤ 0x090D ∧ q = .kresia ∧ a = 0x1B012C)) : (s.faultCode op st).rd q a = s.rd q a := by
  unfold State.faultCode
  split
  case isFalse => rfl
  case isTrue hop =>
    simp only [Bool.and_eq_true, decide_eq_true_eq] at hop
    by_cases hq : q = .kresia
    · exact hq ▸ State.rd_setFld_ne s .kresia (fun ha => h ⟨hop.1, hop.2, hq, ha⟩) 0 16 _
    · exact State.rd_wr_part s hq _ a _

theorem State.fld_faultCode (s : State) {op : Nat} (st : Code) (hlo : 0x0901 ≤ op) (hhi : op ≤ 0x090D) :
    (s.faultCode op st).fld .kresia 0x1B012C 0 16 = st.toNat := by
  rw [State.faultCode, if_pos (by simp [hlo, hhi]), State.fld_setFld_self _ _ _ (by decide)]
  exact Nat.mod_eq_of_lt st.isLt

/-- R379: the slot of a completed command. -/
def MSlot.completed (x : MSlot) (p : Part) (tk : Taken) (st : Code) (r i : List Byte) : MSlot :=
  { x with comp := ⟨tk.op, tk.seq, st, true, r, i⟩, taken := none,
           window := if p = .kresia then putBytes x.window i else x.window }

section
variable {s : State} {p : Part} {m k : Nat} {tk : Taken} {st : Code} {r i : List Byte}

/-- A completion leaves both parts as the slot filled and, at a Kresia, LAST_CODE written leave them. -/
theorem State.complete_parts (h : (s.mslot p m k).taken = some tk) :
    ∃ u : State, (s.complete p m k st r i).bx = u.bx ∧ (s.complete p m k st r i).ks = u.ks ∧
      u = if p = .kresia then (s.modMslot p m k fun x => x.completed p tk st r i).faultCode tk.op st
        else s.modMslot p m k fun x => x.completed p tk st r i := by
  refine ⟨_, ?_, ?_, rfl⟩
  · rw [State.complete_bx s p m k st r i tk h]
    by_cases hp : p = .kresia
    · rw [if_pos hp, State.faultCode_bx]; rfl
    · rw [if_neg hp]; rfl
  · rw [State.complete_ks s p m k st r i tk h]
    rfl

theorem State.mslot_congr {s u : State} (hbx : s.bx = u.bx) (hks : s.ks = u.ks) (q : Part) (n j : Nat) :
    s.mslot q n j = u.mslot q n j := by
  cases q <;> simp [State.mslot, State.mbox, hbx, hks]

theorem State.rd_congr {s u : State} (hbx : s.bx = u.bx) (hks : s.ks = u.ks) (q : Part) (a : Nat) :
    s.rd q a = u.rd q a := by
  cases q <;> simp [State.rd, hbx, hks]

theorem State.mslot_complete_ne (h : (s.mslot p m k).taken = some tk) {q : Part} {n j : Nat}
    (hne : ¬ (q = p ∧ n = m ∧ j = k)) : (s.complete p m k st r i).mslot q n j = s.mslot q n j := by
  obtain ⟨u, hbx, hks, rfl⟩ := State.complete_parts (st := st) (r := r) (i := i) h
  rw [State.mslot_congr hbx hks]
  split <;> simp [State.mslot_modMslot_ne s hne]

theorem State.rd_complete_ne (h : (s.mslot p m k).taken = some tk) {q : Part} {a : Nat}
    (hne : ¬ (p = .kresia ∧ 0x0901 ≤ tk.op ∧ tk.op ≤ 0x090D ∧ q = .kresia ∧ a = 0x1B012C)) :
    (s.complete p m k st r i).rd q a = s.rd q a := by
  obtain ⟨u, hbx, hks, rfl⟩ := State.complete_parts (st := st) (r := r) (i := i) h
  rw [State.rd_congr hbx hks]
  split
  case isTrue hp =>
    rw [State.rd_faultCode_ne _ _ (fun hc => hne ⟨hp, hc⟩), State.rd_modMslot]
  case isFalse => exact State.rd_modMslot ..

theorem State.lastCode_complete (h : (s.mslot p m k).taken = some tk) (hp : p = .kresia) (hlo : 0x0901 ≤ tk.op)
    (hhi : tk.op ≤ 0x090D) : (s.complete p m k st r i).fld .kresia 0x1B012C 0 16 = st.toNat := by
  obtain ⟨u, hbx, hks, rfl⟩ := State.complete_parts (st := st) (r := r) (i := i) h
  rw [State.fld, State.rd_congr hbx hks, if_pos hp]
  exact State.fld_faultCode _ _ hlo hhi

@[simp] theorem State.dom_complete (d : Nat) : (s.complete p m k st r i).dom d = s.dom d := by
  simp [State.dom]

end

/-- R381: a part that does not take an opcode never starts it, nor one whose firmware does not serve. -/
theorem State.not_ready {s : State} {p : Part} {m k op : Nat} {tk : Taken}
    (h : takesOp p op = false ∨ (s.pc p).fw.serving = false) : ¬ s.ready p m k op tk := by
  rintro ⟨-, rfl, hstart⟩
  simp only [State.startsNow, Bool.and_eq_true] at hstart
  obtain ⟨⟨⟨htakes, hserving⟩, -⟩, -⟩ := hstart
  rcases h with h | h
  · exact Bool.false_ne_true (h.symm.trans htakes)
  · exact Bool.false_ne_true (h.symm.trans hserving)

/-- Settles O3: a row that is not ready serves nothing, and a completion writes its slot and the LAST_CODE of a fault command. -/
theorem commandsWaitTheirTurn : Obligations.CommandsWaitTheirTurn := by
  unfold Obligations.CommandsWaitTheirTurn
  refine ⟨?waits, fun s p m k op tk => State.not_ready, ?completes⟩
  case waits =>
    intro s p m k v2 el lf b b2 f q hq hnot
    fin_cases hq <;> exact congrArg Host.Outcome.next (State.serve_not s p m k _ _ hnot)
  case completes =>
    intro s p m k tk st r i h
    exact ⟨State.complete_answered s p m k st r i tk h, fun q n j => State.mslot_complete_ne h, State.complete_ks_mem ..,
      State.dom_complete, fun q a => State.rd_complete_ne h, State.lastCode_complete h⟩

end Sys2Proof.Machine

/-! The proof of O1: what a cycle does beside the raw counter leaves the time units of both parts. -/

namespace Sys2Proof.Machine

/-! ### Operations that leave time alone (R28) -/

/-- t comes from s by operations that leave the time units of both parts. -/
def SameTime (s t : State) : Prop := ∀ q, (t.pc q).time = (s.pc q).time

section
variable {s0 s t u : State} {p : Part}

@[simp] theorem SameTime.refl (s : State) : SameTime s s := fun _ => rfl

theorem SameTime.raw (h : SameTime s t) (q : Part) : t.raw q = s.raw q := congrArg TimeUnit.raw (h q)

/-- An operation that leaves time alone may be dropped from the end of a run. -/
theorem SameTime.drop_iff (h : SameTime s t) : SameTime s0 t ↔ SameTime s0 s :=
  forall_congr' fun q => by rw [h q]

@[simp] theorem sameTime_ite {c : Prop} [Decidable c] :
    SameTime s (if c then t else u) ↔ (c → SameTime s t) ∧ (¬ c → SameTime s u) := by
  by_cases hc : c <;> simp [hc]

@[simp] theorem sameTime_foldl {α : Type} {f : State → α → State} {l : List α} (hf : ∀ t x, SameTime t (f t x)) :
    SameTime s0 (l.foldl f s) ↔ SameTime s0 s :=
  SameTime.drop_iff (List.foldlRecOn l f (.refl s) fun t ht x _ => (hf t x).drop_iff.2 ht)

@[simp] theorem sameTime_emit {o : Out} : SameTime s0 (s.emit o) ↔ SameTime s0 s := SameTime.drop_iff fun q => by simp

@[simp] theorem sameTime_draw : SameTime s0 s.draw.2 ↔ SameTime s0 s := SameTime.drop_iff fun q => by cases q <;> rfl

@[simp] theorem sameTime_modBx {f : Baxel → Baxel} (hf : ∀ b, (f b).c.time = b.c.time) :
    SameTime s0 (s.modBx f) ↔ SameTime s0 s :=
  SameTime.drop_iff fun q => by cases q <;> simp [hf]

@[simp] theorem sameTime_modKs {f : Kresia → Kresia} (hf : ∀ k, (f k).c.time = k.c.time) :
    SameTime s0 (s.modKs f) ↔ SameTime s0 s :=
  SameTime.drop_iff fun q => by cases q <;> simp [hf]

@[simp] theorem sameTime_modPc {f : Common → Common} (hf : ∀ c, (f c).time = c.time) :
    SameTime s0 (s.modPc p f) ↔ SameTime s0 s := by
  cases p
  · exact sameTime_modBx (f := fun b => { b with c := f b.c }) fun b => hf b.c
  · exact sameTime_modKs (f := fun k => { k with c := f k.c }) fun k => hf k.c

@[simp] theorem sameTime_modCtr {f : CtrUnit → CtrUnit} : SameTime s0 (s.modCtr p f) ↔ SameTime s0 s :=
  sameTime_modPc fun _ => rfl

@[simp] theorem sameTime_wr {a : Nat} {v : Word} : SameTime s0 (s.wr p a v) ↔ SameTime s0 s :=
  SameTime.drop_iff fun q => by simp

@[simp] theorem sameTime_setFld {a lo len v : Nat} : SameTime s0 (s.setFld p a lo len v) ↔ SameTime s0 s :=
  SameTime.drop_iff fun q => by simp

@[simp] theorem sameTime_count {e : Ev} {n : Nat} : SameTime s0 (s.count e n) ↔ SameTime s0 s :=
  SameTime.drop_iff fun q => by simp

@[simp] theorem sameTime_sample {ev : Nat} {d : Int} {port ten dom cls : Option Nat} :
    SameTime s0 (s.sample p ev d port ten dom cls) ↔ SameTime s0 s :=
  SameTime.drop_iff fun q => by simp

@[simp] theorem sameTime_complete {m k : Nat} {st : Code} {r i : List Byte} :
    SameTime s0 (s.complete p m k st r i) ↔ SameTime s0 s :=
  SameTime.drop_iff fun q => by simp

@[simp] theorem sameTime_report {code : Code} {dt : List Nat} {port : Nat} {sub dom : Option Nat} :
    SameTime s0 (s.report p code dt port sub dom) ↔ SameTime s0 s :=
  SameTime.drop_iff fun q => by simp

@[simp] theorem sameTime_modDom {d : Nat} {f : Domain → Domain} : SameTime s0 (s.modDom d f) ↔ SameTime s0 s :=
  sameTime_modKs fun _ => rfl

@[simp] theorem sameTime_modShard {key : Nat} {f : Shard → Shard} : SameTime s0 (s.modShard key f) ↔ SameTime s0 s :=
  sameTime_modKs fun _ => rfl

/-! ### Waiters of objects (R123, R131) -/

@[simp] theorem sameTime_modObj {o : Nat} {f : Obj → Obj} : SameTime s0 (s.modObj p o f) ↔ SameTime s0 s := by
  cases p <;> simp [State.modObj]

@[simp] theorem sameTime_gateMiss {tn i : Nat} : SameTime s0 (s.gateMiss tn i) ↔ SameTime s0 s := by
  refine SameTime.drop_iff ?_
  simp [State.gateMiss, State.dropGate, State.withdrawLp, State.slotVoid, State.sendCtl, State.modSlot]

@[simp] theorem sameTime_endWaiter {o : Nat} {w : Waiter} {c : Code} :
    SameTime s0 (s.endWaiter p o w c) ↔ SameTime s0 s := by
  refine SameTime.drop_iff ?_
  unfold State.endWaiter
  cases p <;> cases w.source <;> simp [State.pushTcq, State.modTen]

@[simp] theorem sameTime_serveFor {o k : Nat} : SameTime s0 (s.serveFor p o k) ↔ SameTime s0 s := by
  refine SameTime.drop_iff ?_
  cases p <;> simp [State.serveFor]

@[simp] theorem sameTime_tickObjs : SameTime s0 (s.tickObjs p) ↔ SameTime s0 s := by
  refine SameTime.drop_iff ?_
  cases p <;> simp [State.tickObjs, State.objCycles]

section
variable {r : ObjReq}

@[simp] theorem sameTime_answer {c : Code} {v : Nat} {w : Bool} : SameTime s0 (s.answer r c v w) ↔ SameTime s0 s := by
  refine SameTime.drop_iff ?_
  cases r <;> simp [State.answer]

@[simp] theorem sameTime_turnAway {c : Code} : SameTime s0 (s.turnAway r c) ↔ SameTime s0 s := by
  refine SameTime.drop_iff ?_
  cases r <;> simp [State.turnAway, State.viewCode]

@[simp] theorem sameTime_refuse {c : Code} : SameTime s0 (s.refuse r c) ↔ SameTime s0 s := by
  refine SameTime.drop_iff ?_
  cases r <;> simp [State.refuse, reqPart]

@[simp] theorem sameTime_bumpOpSeq : SameTime s0 (s.bumpOpSeq r) ↔ SameTime s0 s := by
  refine SameTime.drop_iff ?_
  cases r <;> simp [State.bumpOpSeq]

@[simp] theorem sameTime_holdTake : SameTime s0 (s.holdTake r) ↔ SameTime s0 s := by
  refine SameTime.drop_iff ?_
  cases r <;> simp [State.holdTake, reqPart]

@[simp] theorem sameTime_takeWait {o : Nat} : SameTime s0 (s.takeWait r o) ↔ SameTime s0 s := by
  refine SameTime.drop_iff ?_
  cases r <;> simp [State.takeWait, State.joinWait]

theorem sameTime_objOp {n pk st : Bool} {f : State → Nat → State} (hf : ∀ t o, SameTime t (f t o)) :
    SameTime s (s.objOp r n pk st f) := by
  simp only [State.objOp]
  split
  · simp
  split
  · simp
  split
  · exact (hf _ _).drop_iff.2 (by simp)
  · simp

@[simp] theorem sameTime_takeObj : SameTime s0 (s.takeObj r) ↔ SameTime s0 s := by
  refine SameTime.drop_iff (sameTime_objOp fun t o => ?_)
  cases r <;> simp

end

@[simp] theorem sameTime_tickHeld : SameTime s0 (s.tickHeld p) ↔ SameTime s0 s := by
  refine SameTime.drop_iff ?_
  cases p <;> simp [State.tickHeld]

/-! ### Transfers that end (R137) -/

@[simp] theorem sameTime_sendByRoute {m : RsigSend} {v2 : Bool} : SameTime s0 (s.sendByRoute m v2) ↔ SameTime s0 s := by
  refine SameTime.drop_iff ?_
  simp [State.sendByRoute]

@[simp] theorem sameTime_intoPlane {n : Nat} {m : Msg} : SameTime s0 (s.intoPlane n m) ↔ SameTime s0 s := by
  refine SameTime.drop_iff ?_
  unfold State.intoPlane
  split <;> simp

@[simp] theorem sameTime_bxLaunch {m : RsigSend} : SameTime s0 (s.bxLaunch m) ↔ SameTime s0 s := by
  refine SameTime.drop_iff ?_
  simp [State.bxLaunch, State.sendOnPlanes]

@[simp] theorem sameTime_pumpSends : SameTime s0 s.pumpSends ↔ SameTime s0 s := by
  refine SameTime.drop_iff ?_
  simp [State.pumpSends]

@[simp] theorem sameTime_launchJob {j : SendJob} : SameTime s0 (s.launchJob j) ↔ SameTime s0 s := by
  refine SameTime.drop_iff ?_
  simp [State.launchJob]

@[simp] theorem sameTime_pumpJobs : SameTime s0 s.pumpJobs ↔ SameTime s0 s := by
  refine SameTime.drop_iff ?_
  simp [State.pumpJobs]

@[simp] theorem sameTime_sendPieces {j : SendJob} : SameTime s0 (s.sendPieces j) ↔ SameTime s0 s := by
  refine SameTime.drop_iff ?_
  simp [State.sendPieces, State.startJob, State.countSendStall]

@[simp] theorem sameTime_mirrorNow {d c k step mode entry : Nat} {g : Image} :
    SameTime s0 (s.mirrorNow d g c k step mode entry) ↔ SameTime s0 s := by
  refine SameTime.drop_iff ?_
  simp [State.mirrorNow, State.sendMirror]

@[simp] theorem sameTime_pumpFill {d c : Nat} : SameTime s0 (s.pumpFill d c) ↔ SameTime s0 s := by
  refine SameTime.drop_iff ?_
  simp only [State.pumpFill]
  split <;> simp

@[simp] theorem sameTime_mirrorAgain {j : SendJob} {region : Bool} :
    SameTime s0 (s.mirrorAgain j region) ↔ SameTime s0 s := by
  refine SameTime.drop_iff ?_
  simp only [State.mirrorAgain]
  split
  · simp
  · split <;> simp

@[simp] theorem sameTime_mirrorDone {j : SendJob} {c : Code} : SameTime s0 (s.mirrorDone j c) ↔ SameTime s0 s := by
  refine SameTime.drop_iff ?_
  simp only [State.mirrorDone]
  split <;> simp

@[simp] theorem sameTime_ckptAck {j : SendJob} : SameTime s0 (s.ckptAck j) ↔ SameTime s0 s := by
  refine SameTime.drop_iff ?_
  simp [State.ckptAck, State.ckptEnd]

@[simp] theorem sameTime_fillAck {j : SendJob} {c : Code} : SameTime s0 (s.fillAck j c) ↔ SameTime s0 s := by
  refine SameTime.drop_iff ?_
  simp only [State.fillAck, State.endFill]
  split <;> simp

@[simp] theorem sameTime_sendDone {x : SendTransfer} {c : Code} : SameTime s0 (s.sendDone p x c) ↔ SameTime s0 s := by
  refine SameTime.drop_iff ?_
  simp only [State.sendDone]
  cases p
  · simp
  · dsimp only
    split <;> simp [State.modInst, State.modDspHome, State.modDspLeaf]

@[simp] theorem sameTime_tickV2 : SameTime s0 (s.tickV2 p) ↔ SameTime s0 s := by
  refine SameTime.drop_iff ?_
  cases p <;> simp [State.tickV2, State.closeSend]

@[simp] theorem sameTime_tickUnits : SameTime s0 (s.tickUnits p) ↔ SameTime s0 s := by
  refine SameTime.drop_iff ?_
  cases p <;> simp [State.tickUnits, State.tickPort, State.tickShapers, State.modGp, State.modLink]

end

/-! ### One cycle (R28, R405, R406) -/

section
variable (s : State) (p : Part)

theorem State.tickPart_raw : (s.tickPart p).raw p = if s.halted p then s.raw p else s.raw p + 65536 := by
  unfold State.tickPart
  split
  · rfl
  · have hraw : SameTime ((s.tickUnits p).tickRaw p) ((((s.tickUnits p).tickRaw p).tickHeld p).tickObjs p |>.tickV2 p) := by
      simp
    rw [hraw.raw, State.raw, State.tickRaw, State.modTime_pc]
    exact congrArg (· + 65536) ((sameTime_tickUnits.2 (.refl s)).raw p)

theorem State.tick_raw : s.tick.raw p = if s.halted p then s.raw p else s.raw p + 65536 := by
  have hks : (s.tickPart .baxel).ks = s.ks := (Follows.tickPart (mw := false) (.refl .baxel s)).ks rfl
  have hbx : s.tick.bx = (s.tickPart .baxel).bx := (tick_kresia (mw := false) s).bx rfl
  cases p
  · rw [← State.tickPart_raw]
    exact congrArg (·.c.time.raw) hbx
  · rw [State.tick, State.tickPart_raw]
    simp [State.halted, State.raw, hks]

theorem State.tick_pending : s.tick.pending = s.pending :=
  (tick_kresia (mw := false) s).pending.trans (Follows.tickPart (mw := false) (.refl .baxel s)).pending

theorem State.tick_mem : s.tick.ks.mem = s.ks.mem :=
  ((tick_kresia s).mem rfl).trans ((Follows.tickPart (.refl .baxel s)).mem rfl)

end

/-- Settles O1: with a command in front the step is that command; with none it is a cycle, whose raw counters, queue and
memory are those above. -/
theorem stepRunsFrontCommand : Obligations.StepRunsFrontCommand := by
  unfold Obligations.StepRunsFrontCommand
  refine ⟨fun _ _ _ => rfl, fun s hempty => ⟨s.tick, ?_, s.tick_pending.trans hempty, s.tick_raw, s.tick_mem⟩⟩
  simp [step, hempty]

end Sys2Proof.Machine

/-! The words of the register file after each update: one rule for a write, a field, a bit, a counter and a report. -/

namespace Sys2Proof.Machine

/-! ### Addresses -/

@[simp] theorem tAddr_inj {p : Part} {a b : Nat} : tAddr p a = tAddr p b ↔ a = b := by
  cases p <;> simp [tAddr]

@[simp] theorem tAddr_add {p : Part} {a n : Nat} : tAddr p a + n = tAddr p (a + n) := by
  cases p <;> simp [tAddr, Nat.add_assoc]

@[simp] theorem tPage_inj {t a b : Nat} : tPage t a = tPage t b ↔ a = b := by
  simp [tPage]

/-! ### Words after a write -/

section
variable (s : State) (p q : Part) (a b : Nat)

theorem State.rd_wr (v : Word) : (s.wr p a v).rd q b = if q = p ∧ b = a then v else s.rd q b := by
  by_cases hq : q = p
  · subst hq
    by_cases hb : b = a
    · simp [hb]
    · simp [hb, State.rd_wr_ne s q hb]
  · simp [hq, State.rd_wr_part s hq]

theorem State.rd_setFld (lo len v : Nat) :
    (s.setFld p a lo len v).rd q b = if q = p ∧ b = a then (s.rd p a).put lo len v else s.rd q b :=
  s.rd_wr p q a b _

theorem State.rd_setBit (i : Nat) (v : Bool) :
    (s.setBit p a i v).rd q b = if q = p ∧ b = a then (s.rd p a).put i 1 (if v then 1 else 0) else s.rd q b :=
  s.rd_wr p q a b _

theorem State.rd_wr64 (v : BitVec 64) :
    (s.wr64 p a v).rd q b = if q = p ∧ b = a + 4 then v.extractLsb' 32 32
      else if q = p ∧ b = a then v.extractLsb' 0 32 else s.rd q b := by
  simp [State.wr64, State.rd_wr]

theorem State.rd64_wr64_self (v : BitVec 64) : (s.wr64 p a v).rd64 p a = v := by
  simp only [State.rd64, State.rd_wr64, true_and, if_true, Nat.left_eq_add, OfNat.ofNat_ne_zero, if_false]
  ext i hi
  simp only [BitVec.getElem_append, BitVec.getElem_extractLsb']
  split
  · rw [Nat.zero_add]
    exact BitVec.getLsbD_eq_getElem hi
  · rw [show 32 + (i - 32) = i by omega]
    exact BitVec.getLsbD_eq_getElem hi

/-- A counter of 32 bits at its own address takes an increment. -/
theorem State.rd_count {e : Ev} (n : Nat) (hd : e.byDom = false) (hc : e.byCls = false) (hw : e.wide = false)
    (hl : e.lo = 0) (hn : e.len = 32) :
    (s.count e n).rd q b = if q = e.part ∧ b = e.addr then s.rd e.part e.addr + BitVec.ofNat 32 n else s.rd q b := by
  by_cases hb : b = e.addr
  · by_cases hq : q = e.part
    · subst hb hq
      simp [State.rd_count_self s e n hd hc hw hl hn]
    · simp only [hq, false_and, if_false]
      simp [State.count, State.setCtrWord, hd, hc, hw, State.rd_wr, hq]
  · simp [hb, State.rd_count_narrow_ne s e n q hb hw]

@[simp] theorem State.rd_count_evTime (n : Nat) :
    (s.count (evTime p a) n).rd q b = if q = p ∧ b = tAddr p a then s.rd p (tAddr p a) + BitVec.ofNat 32 n else s.rd q b :=
  s.rd_count q b n rfl rfl rfl rfl rfl

@[simp] theorem State.rd_count_evB (n : Nat) :
    (s.count (evB a) n).rd q b = if q = .baxel ∧ b = a then s.rd .baxel a + BitVec.ofNat 32 n else s.rd q b :=
  s.rd_count q b n rfl rfl rfl rfl rfl

@[simp] theorem State.rd_count_evT (t n : Nat) :
    (s.count (evT t a) n).rd q b =
      if q = .baxel ∧ b = tPage t a then s.rd .baxel (tPage t a) + BitVec.ofNat 32 n else s.rd q b :=
  s.rd_count q b n rfl rfl rfl rfl rfl

@[simp] theorem State.rd_count_evK (n : Nat) :
    (s.count (evK a) n).rd q b = if q = .kresia ∧ b = a then s.rd .kresia a + BitVec.ofNat 32 n else s.rd q b :=
  s.rd_count q b n rfl rfl rfl rfl rfl

@[simp] theorem State.rd_count_evD (d n : Nat) : (s.count (evD d a) n).rd q b = s.rd q b := by
  cases q <;> rfl

@[simp] theorem State.rd_irqPriv : (s.irqPriv p).rd q b = s.rd q b := by
  cases p <;> simp [State.irqPriv]

@[simp] theorem State.rd_sample (ev : Nat) (d : Int) (port ten dom cls : Option Nat) :
    (s.sample p ev d port ten dom cls).rd q b = s.rd q b := by
  simp [State.sample]

@[simp] theorem State.rd_draw : s.draw.2.rd q b = s.rd q b := by
  cases q <;> rfl

@[simp] theorem State.rd_modKs {f : Kresia → Kresia} (hf : ∀ k, (f k).c.regs = k.c.regs) : (s.modKs f).rd q b = s.rd q b := by
  cases q <;> simp [State.rd, hf]

@[simp] theorem State.rd_modBx {f : Baxel → Baxel} (hf : ∀ k, (f k).c.regs = k.c.regs) : (s.modBx f).rd q b = s.rd q b := by
  cases q <;> simp [State.rd, hf]

/-- R311, R312: a report writes no word but those of a Kresia's event queue. -/
theorem State.rd_report_ne {b : Nat} (code : Code) (dt : List Nat) (port : Nat) (sub dom : Option Nat)
    (h : p = .kresia → q = .kresia → b ≠ 0x1B0020 ∧ b ≠ 0x1B002C ∧ b ≠ 0x1B0030) :
    (s.report p code dt port sub dom).rd q b = s.rd q b := by
  cases p
  · simp [State.report]
  · have hb : ¬ (q = .kresia ∧ (b = 0x1B0020 ∨ b = 0x1B002C ∨ b = 0x1B0030)) := by
      rintro ⟨hq, hor⟩
      obtain ⟨h1, h2, h3⟩ := h rfl hq
      simp [h1, h2, h3] at hor
    simp only [not_and, not_or] at hb
    simp only [State.report, State.queueEvent]
    split_ifs <;> simp [State.rd_wr] <;> intro hq hb' <;> simp_all

end

/-! ### Dues after a change of the parameter set (R37) -/

section
variable (s : State) (p q : Part) (f : Due → Due)

@[simp] theorem State.mapDues_out : (s.mapDues p f).out = s.out := by cases p <;> rfl
@[simp] theorem State.mapDues_time : ((s.mapDues p f).pc q).time = (s.pc q).time := by cases p <;> cases q <;> rfl
@[simp] theorem State.mapDues_rd (a : Nat) : (s.mapDues p f).rd q a = s.rd q a := by cases p <;> cases q <;> rfl

end

end Sys2Proof.Machine

/-! The proof of O11: a commit, its refusals, the application of a set and the rebase (R32 to R36). -/

namespace Sys2Proof.Machine

section
variable {s : State} {p : Part}

@[simp] theorem State.pc_time_modTime (f : TimeUnit → TimeUnit) : ((s.modTime p f).pc p).time = f (s.pc p).time := by
  simp

theorem State.fld_congr {s t : State} {p : Part} {a : Nat} (h : t.rd p a = s.rd p a) (lo len : Nat) :
    t.fld p a lo len = s.fld p a lo len := by
  rw [State.fld, State.fld, h]

/-- R33: a refused commit writes its code. -/
theorem State.commit_of_refused {code : Code}
    (h : commitCode (s.raw p) (s.pendingSet p) (s.rd64 p (tAddr p 0x11C)) = some code) :
    s.commit p = s.setFld p (tAddr p 0x128) 0 16 code.toNat := by
  simp only [State.commit, h]

/-- R32: an accepted commit holds the pending set. -/
theorem State.commit_of_accepted (h : commitCode (s.raw p) (s.pendingSet p) (s.rd64 p (tAddr p 0x11C)) = none) :
    s.commit p = ((s.setFld p (tAddr p 0x128) 0 16 0).modTime p fun t =>
      { t with committed := some ⟨s.pendingSet p, s.rd64 p (tAddr p 0x11C), none⟩ }).mapDues p
        (Due.reconvert ⟨s.pendingSet p, s.rd64 p (tAddr p 0x11C), none⟩) := by
  simp only [State.commit, h]

end

section
variable (s : State) (p q : Part) (d : Option TimeState)

@[simp] theorem State.unlockReport_time : ((s.unlockReport p d).pc q).time = (s.pc q).time := by
  unfold State.unlockReport
  split <;> simp

/-- R311: a report leaves the words of the time and stamp blocks. -/
theorem State.rd_report_tAddr {a : Nat} (ha : a < 0xB0000) (code : Code) :
    (s.report q code).rd p (tAddr p a) = s.rd p (tAddr p a) := by
  refine State.rd_report_ne s q p code [] 255 none none fun _ hp => ?_
  subst hp
  simp only [tAddr]
  omega

theorem State.rd_unlockReport {a : Nat} (ha : a < 0xB0000) (hne : a ≠ 0x30C) :
    (s.unlockReport p d).rd p (tAddr p a) = s.rd p (tAddr p a) := by
  unfold State.unlockReport State.stickyTime
  split
  · rw [State.rd_report_tAddr _ _ _ ha]
    split <;> simp [State.rd_setBit, hne]
  · rfl

end

section
variable {s : State} {p : Part} {c : Commit}

/-- R34: what the application of a set makes of the time unit. -/
theorem State.applySet_time : ((s.applySet p c).pc p).time =
    { (s.pc p).time with
      active := c.set, prev := some ((s.pc p).time.active, c.applyRaw), committed := none
      wrapped := (s.pc p).time.wrapped || otOfRawWraps c.set c.applyRaw || otOfRawWraps (s.pc p).time.active c.applyRaw
      state := c.toState.getD (if (s.pc p).time.state = .unset then .acquiring else (s.pc p).time.state) } := by
  unfold State.applySet
  extract_lets t step n s1 s2 s3 s4 s5
  have h5 : (s5.pc p).time = (s2.pc p).time := by
    simp only [s5, s4, s3]
    split <;> simp
  have h2 : (s2.pc p).time = _ := State.pc_time_modTime _
  rw [apply_ite (fun u : State => (u.pc p).time), State.modStamp_pc, ite_self, h5, h2]
  simp only [s1, State.mapDues_time, State.unlockReport_time]
  rfl

/-- R34: the difference of the two sets is stored. -/
theorem State.applySet_step : (s.applySet p c).rd64 p (tAddr p 0x12C) =
    BitVec.ofInt 64 (otDiff (otOfRaw c.set c.applyRaw) (otOfRaw (s.pc p).time.active c.applyRaw)) := by
  rw [← State.rd64_wr64_self s p (tAddr p 0x12C) (BitVec.ofInt 64 _)]
  simp only [State.applySet]
  split_ifs <;> simp [State.rd64, State.rd_wr64]

/-- R34: the application counts. -/
theorem State.applySet_count : (s.applySet p c).rd p (tAddr p 0x134) = s.rd p (tAddr p 0x134) + 1 := by
  simp only [State.applySet]
  split_ifs <;> simp [State.rd_wr64, State.rd_unlockReport]

end

/-- Settles O11: each row is one of the equations above, and the codes of a commit are tested in the order of R33. -/
theorem parameterSets : Obligations.ParameterSets := by
  unfold Obligations.ParameterSets
  refine ⟨?accepted, ?refused, ?codes, ?applied, ?uncommitted, ?early, ?rebased, ?near⟩
  case accepted =>
    intro s p h
    refine ⟨_, congrArg Host.Outcome.next (State.commit_of_accepted h), ?_, ?_, ?_, ?_, ?_, ?_⟩
    · simp
    · simp
    · simp
    · rw [State.fld_congr (s := s.setFld p (tAddr p 0x128) 0 16 0) (by simp), State.fld_setFld_self _ _ _ (by decide)]
      rfl
    · intro a ha
      simp [State.rd_setFld, ha]
    · simp
  case refused =>
    intro s p code h
    refine ⟨_, congrArg Host.Outcome.next (State.commit_of_refused h), ?_, ?_, ?_, ?_⟩
    · simp
    · rw [State.fld_setFld_self _ _ _ (by decide)]
      exact Nat.mod_eq_of_lt code.isLt
    · intro a ha
      simp [State.rd_setFld, ha]
    · simp
  case codes =>
    intro raw apply set
    refine ⟨?_, ?_, ?_, ?_, ?_⟩
    · intro hmal
      simp [commitCode, hmal]
    · intro hmal hnear
      simp [commitCode, hmal, hnear]
    · intro hmal hahead hrate
      simp [commitCode, hmal, Int.not_lt.2 hahead, hrate]
    · intro hmal hahead hlo hhi hfar
      simp [commitCode, hmal, Int.not_lt.2 hahead, Int.not_lt.2 hlo, Int.not_lt.2 hhi, hfar]
    · intro hmal hahead hlo hhi hnear
      simp [commitCode, hmal, Int.not_lt.2 hahead, Int.not_lt.2 hlo, Int.not_lt.2 hhi, Nat.not_le.2 hnear]
  case applied =>
    intro s p c hc hdue
    refine ⟨s.applySet p c, by simp [exec, execApplyRawReached, hc, hdue], ?_, ?_, ?_, ?_, State.applySet_step,
      State.applySet_count⟩
    all_goals rw [State.applySet_time]
  case uncommitted =>
    intro s p hc
    simp [exec, execApplyRawReached, hc]
  case early =>
    intro s p c hc hearly
    simp [exec, execApplyRawReached, hc, Int.not_le.2 hearly]
  case rebased =>
    intro s p hfar
    refine ⟨_, if_pos hfar, ?_, ?_, ?_, ?_, ?_, ?_⟩
    · simp [State.raw]
    · simp
    · cases p <;> simp
    · simp [State.rd_wr64]
    · simp [State.rd_wr64]
    · simp [State.rd64, State.rd_wr64]
  case near =>
    intro s p hnear
    exact if_neg (Int.not_le.2 hnear)

end Sys2Proof.Machine

/-! The proof of O12: fast reads (R41) and time cells (R49, R50). -/

namespace Sys2Proof.Machine

/-! ### Fast reads (R41) -/

section
variable {s : State} {p : Part} {v : View} {k : Nat}

/-- R41: a fast read latches the bank of its requester and answers the low raw word. -/
theorem execFtRawLoRead_of_bank (h : bankOf v = some k) :
    execFtRawLoRead p v s = .next ((s.ftSnap p k).emit (.regData p ((s.raw p).extractLsb' 0 32))) := by
  simp [execFtRawLoRead, h, State.ftSnap, State.ftWord, State.raw]

theorem execFtRawLoRead_of_noBank (h : bankOf v = none) :
    execFtRawLoRead p v s = .next ((s.viewRefused p v (tAddr p 0x5000)).emit (.regData p 0)) := by
  simp [execFtRawLoRead, h]

theorem State.find_ftSnap_banks : ∃ b, FMap.find? ((s.ftSnap p k).pc p).time.banks k = some b ∧ b.raw = s.raw p ∧
    b.ot = s.otNow p ∧ b.applySeq = s.rd p (tAddr p 0x134) := by
  simp [State.ftSnap, State.raw, State.otNow]

theorem State.find_ftSnap_banks_ne {j : Nat} (h : j ≠ k) :
    FMap.find? ((s.ftSnap p k).pc p).time.banks j = FMap.find? (s.pc p).time.banks j := by
  simp [State.ftSnap, FMap.find_set_ne _ h]

end

/-! ### Time cells (R49, R50) -/

section
variable (s : State) (p : Part) (port : Nat)

theorem State.pt_congr {s t : State} {p : Part} (h : (t.pc p).time.ports = (s.pc p).time.ports) (n : Nat) :
    t.pt p n = s.pt p n := by
  rw [State.pt, h, State.pt]

@[simp] theorem State.pt_draw (n : Nat) : s.draw.2.pt p n = s.pt p n := by cases p <;> rfl

@[simp] theorem State.pt_emit (o : Out) (n : Nat) : (s.emit o).pt p n = s.pt p n := State.pt_congr (by simp) n

@[simp] theorem State.pt_noteWrap (r : Raw) (n : Nat) : (s.modTime p fun t => t.noteWrap r).pt p n = s.pt p n :=
  State.pt_congr (by simp [TimeUnit.noteWrap]) n

@[simp] theorem State.pt_pushTxq (e : TxqEntry) (n : Nat) : (s.pushTxq p e).pt p n = s.pt p n := by
  refine State.pt_congr ?_ n
  unfold State.pushTxq
  split <;> simp

@[simp] theorem State.free_pushTxq (e : TxqEntry) : (s.pushTxq p e).free = s.free := by
  unfold State.pushTxq
  split <;> simp

@[simp] theorem State.out_pushTxq (e : TxqEntry) : (s.pushTxq p e).out = s.out := by
  unfold State.pushTxq
  split <;> simp

end

@[simp] theorem State.pt_wr (s : State) (p : Part) (a n : Nat) (v : Word) : (s.wr p a v).pt p n = s.pt p n :=
  State.pt_congr (by simp) n

@[simp] theorem State.pt_setFld (s : State) (p : Part) (a lo len v n : Nat) : (s.setFld p a lo len v).pt p n = s.pt p n :=
  State.pt_congr (by simp) n

/-- A counter of one field of a word reads back one higher, modulo its width. -/
theorem State.fld_count_self (s : State) (e : Ev) (n : Nat) (hd : e.byDom = false) (hc : e.byCls = false)
    (hw : e.wide = false) (hlen : e.lo + e.len ≤ 32) :
    (s.count e n).fld e.part e.addr e.lo e.len = (s.fld e.part e.addr e.lo e.len + n) % 2 ^ e.len := by
  rw [State.fld, State.count_rd s e n hd hc hw, Word.get_put_self _ hlen, State.fld]

theorem State.modTime_ports (s : State) (p : Part) (f : TimeUnit → TimeUnit) (hf : ∀ t, (f t).ports = t.ports) :
    ((s.modTime p f).pc p).time.ports = (s.pc p).time.ports := by
  simp [hf]

section
variable {s : State} {p : Part} {port : Nat} {cell : TimeCell} {rx : EdgeStamp} {peer : PeerTime}

/-- R49: a cell whose CRC fails only counts. -/
theorem execTimeCellRx_of_badCrc (hin : s.ttInService p port = true) (hcrc : crc32 (cellBytes cell) ≠ cell.crc) :
    execTimeCellRx p port cell rx peer s = .next (s.count
      { evTime p 0 with addr := ttPort p port 0x1C, base := ttPort p 0 0x1C, lo := 16, len := 16, port := some port }) := by
  simp [execTimeCellRx, hin, hcrc]

/-- R50: a cell taken becomes the last peer cell of its port. -/
@[simp] theorem State.peer_noteCell (stamp : Option Raw) : ((s.noteCell p port cell stamp).pt p port).peer = some cell := by
  simp only [State.noteCell]
  refine (congrArg PortTime.peer (State.pt_congr (State.modTime_ports _ _ _ ?_) port)).trans ?_
  · exact fun _ => rfl
  · simp

@[simp] theorem State.pt_followRoot (n : Nat) : (s.followRoot p cell).pt p n = s.pt p n := by
  refine State.pt_congr ?_ n
  simp only [State.followRoot]
  split <;> simp

end

/-- Settles O12: the fast reads by their two forms; a cell sent is the one sealed; a cell received by its CRC and its port. -/
theorem fastReadAndTimeCells : Obligations.FastReadAndTimeCells := by
  unfold Obligations.FastReadAndTimeCells
  refine ⟨?bank, ?noBank, ?sent, ?silent, ?badCrc, ?kept, ?excluded, ?outOfService⟩
  case bank =>
    intro s p v k hk
    refine ⟨_, execFtRawLoRead_of_bank hk, ?_, ?_, ?_, ?_⟩
    · simpa using State.find_ftSnap_banks
    · intro j hj
      simpa using State.find_ftSnap_banks_ne hj
    · simp [State.ftSnap]
    · simp [State.ftSnap]
  case noBank =>
    intro s p v hv
    refine ⟨_, execFtRawLoRead_of_noBank hv, ?_, ?_⟩ <;> simp
  case sent =>
    intro s p port tx hin hex
    simp only [exec, execTimeCellSend, hin, hex, Bool.not_true, Bool.or_self, Bool.false_eq_true, if_false]
    refine ⟨_, rfl, ?_, ?_, ?_⟩
    · split
      · split <;> simp
      · simp
    · split
      · split
        · simp only [State.out_pushTxq, State.modTime_out, State.emit_out]
          exact ⟨_, List.mem_cons_self, rfl, rfl, rfl, rfl, rfl⟩
        · simp only [State.modTime_out, State.emit_out]
          exact ⟨_, List.mem_cons_self, rfl, rfl, rfl, rfl, rfl⟩
      · simp only [State.emit_out]
        exact ⟨_, List.mem_cons_self, rfl, rfl, rfl, rfl, rfl⟩
    · split
      · split <;> simp [State.draw]
      · simp [State.draw]
  case silent =>
    rintro s p port tx (h | h) <;> simp [exec, execTimeCellSend, h]
  case badCrc =>
    intro s p port cell rx peer hin hcrc
    refine ⟨_, execTimeCellRx_of_badCrc hin hcrc, by simp, ?_, by simp⟩
    exact State.fld_count_self _ _ _ rfl rfl rfl (Nat.le_refl 32)
  case kept =>
    intro s p port cell rx peer hin hex hcrc
    simp only [exec, execTimeCellRx, hin, hex, hcrc, Bool.not_true, Bool.false_eq_true, if_false, ne_eq, not_true_eq_false]
    refine ⟨_, rfl, ?_⟩
    split <;> simp
  case excluded =>
    intro s p port cell rx peer hin hcrc hex
    simp [exec, execTimeCellRx, hin, hcrc, hex]
  case outOfService =>
    intro s p port cell rx peer hin
    simp [exec, execTimeCellRx, hin]

end Sys2Proof.Machine

/-! The proof of O13: the servo (R52, R59 to R61), the choice of a parent (R57, R63), and the roots (R48, R58). -/

namespace Sys2Proof.Machine

/-! ### Words of an OT (R27) -/

theorem OT.ofWords_words (x : OT) : OT.ofWords x.word0 x.word1 x.word2 = x := by
  obtain ⟨sec, ns, gr⟩ := x
  simp only [OT.ofWords, OT.word0, OT.word1, OT.word2, OT.mk.injEq]
  refine ⟨?_, ?_, ?_⟩ <;>
  · apply BitVec.eq_of_getLsbD_eq
    intro i hi
    simp only [BitVec.getLsbD_append, BitVec.getLsbD_extractLsb']
    grind

@[simp] theorem State.rdOt_wrOt_self (s : State) (p : Part) (a : Nat) (x : OT) : (s.wrOt p a x).rdOt p a = x := by
  simp [State.rdOt, State.wrOt, State.rd_wr, OT.ofWords_words]

theorem State.rd_wrOt (s : State) (p q : Part) (a b : Nat) (x : OT) :
    (s.wrOt p a x).rd q b = if q = p ∧ b = a + 8 then x.word2 else if q = p ∧ b = a + 4 then x.word1
      else if q = p ∧ b = a then x.word0 else s.rd q b := by
  simp [State.wrOt, State.rd_wr]

/-! ### A commit of the servo (R59) -/

section
variable (s : State) (p : Part)

/-- R59: the four words groups of the pending set as the servo writes them. -/
def State.servoWords (offset : OT) (apply : Raw) (rate : Int) : State :=
  (((s.wrOt p (tAddr p 0x100) offset).wr64 p (tAddr p 0x10C) apply).wr64 p (tAddr p 0x114) (BitVec.ofInt 64 rate)).wr64 p
    (tAddr p 0x11C) apply

variable {s} {p} {offset : OT} {apply : Raw} {rate : Int}

theorem State.rdOt_congr {t : State} {a : Nat} (h0 : t.rd p a = s.rd p a) (h4 : t.rd p (a + 4) = s.rd p (a + 4))
    (h8 : t.rd p (a + 8) = s.rd p (a + 8)) : t.rdOt p a = s.rdOt p a := by
  rw [State.rdOt, h0, h4, h8, State.rdOt]

theorem State.rd64_congr {t : State} {a : Nat} (h0 : t.rd p a = s.rd p a) (h4 : t.rd p (a + 4) = s.rd p (a + 4)) :
    t.rd64 p a = s.rd64 p a := by
  rw [State.rd64, h0, h4, State.rd64]

theorem State.servoWords_apply : (s.servoWords p offset apply rate).rd64 p (tAddr p 0x11C) = apply :=
  State.rd64_wr64_self ..

theorem State.servoWords_pendingSet (hrate : rate.natAbs ≤ 34359738368) :
    (s.servoWords p offset apply rate).pendingSet p = ⟨offset, apply, rate⟩ := by
  have hot : (s.servoWords p offset apply rate).rdOt p (tAddr p 0x100) = offset := by
    rw [State.rdOt_congr (s := s.wrOt p (tAddr p 0x100) offset), State.rdOt_wrOt_self] <;>
      simp [State.servoWords, State.rd_wr64]
  have href : (s.servoWords p offset apply rate).rd64 p (tAddr p 0x10C) = apply := by
    rw [State.rd64_congr (s := (s.wrOt p (tAddr p 0x100) offset).wr64 p (tAddr p 0x10C) apply), State.rd64_wr64_self] <;>
      simp [State.servoWords, State.rd_wr64]
  have hr : (s.servoWords p offset apply rate).rd64 p (tAddr p 0x114) = BitVec.ofInt 64 rate := by
    rw [State.rd64_congr (s := ((s.wrOt p (tAddr p 0x100) offset).wr64 p (tAddr p 0x10C) apply).wr64 p (tAddr p 0x114)
      (BitVec.ofInt 64 rate)), State.rd64_wr64_self] <;> simp [State.servoWords, State.rd_wr64]
  rw [State.pendingSet, hot, href, hr, BitVec.toInt_ofInt_eq_self (by decide) (by omega) (by omega)]

@[simp] theorem State.pt_wr64 (s : State) (p : Part) (a n : Nat) (v : BitVec 64) : (s.wr64 p a v).pt p n = s.pt p n :=
  State.pt_congr (by simp) n

@[simp] theorem State.servoWords_time (q : Part) : ((s.servoWords p offset apply rate).pc q).time = (s.pc q).time := by
  simp [State.servoWords]

end

section
variable {s : State} {p : Part} {offset : Raw → OT} {rate : Int} {dest : Option TimeState}

/-- R33: a set of the servo, 16 us ahead, is refused for none of its fields. -/
theorem commitCode_servo {raw : Raw} {x : OT} (hot : x.malformed = false) (hrate : rate.natAbs ≤ 34359738368) :
    commitCode raw ⟨x, raw + 1048576000, rate⟩ (raw + 1048576000) = none := by
  have hahead : Raw.diff (raw + 1048576000) raw = 1048576000 := by simp [Raw.diff]
  have hself : Raw.diff (raw + 1048576000) (raw + 1048576000) = 0 := by simp [Raw.diff]
  have hlo : ¬ rate < -34359738368 := by omega
  have hhi : ¬ 34359738368 < rate := by omega
  rw [commitCode, if_neg (by simp [hot]), hahead, if_neg (by decide), if_neg (by simp [hlo, hhi]), hself,
    if_neg (by decide)]

/-- R59: a set the servo makes is held, with the change of state it makes. -/
theorem State.servoCommit_time (hot : (offset (s.raw p + 1048576000)).malformed = false)
    (hrate : rate.natAbs ≤ 34359738368) : ((s.servoCommit p offset rate dest).pc p).time =
      { (s.pc p).time with committed := some ⟨⟨offset (s.raw p + 1048576000), s.raw p + 1048576000, rate⟩,
                             s.raw p + 1048576000, dest⟩ } := by
  have hwords : s.servoCommit p offset rate dest =
      (s.servoWords p (offset (s.raw p + 1048576000)) (s.raw p + 1048576000) rate).commit p dest := rfl
  have hraw : (s.servoWords p (offset (s.raw p + 1048576000)) (s.raw p + 1048576000) rate).raw p = s.raw p := by
    simp [State.raw]
  simp only [hwords, State.commit, State.servoWords_pendingSet hrate, State.servoWords_apply, hraw,
    commitCode_servo hot hrate]
  simp

end

/-! ### What the end of an interval leaves of the time unit (R52, R61) -/

/-- A time unit but for what it holds of its ports. -/
def TimeUnit.sansPorts (u : TimeUnit) : TimeUnit := { u with ports := [] }

theorem TimeUnit.fields_of_sansPorts {u v : TimeUnit} (h : u.sansPorts = v.sansPorts) :
    u.raw = v.raw ∧ u.active = v.active ∧ u.state = v.state ∧ u.rateFreq = v.rateFreq ∧ u.committed = v.committed := by
  simp only [TimeUnit.sansPorts, TimeUnit.mk.injEq] at h
  simp [h]

section
variable {s : State} {p : Part} {n : Nat}

theorem State.sansPorts_modPt (f : PortTime → PortTime) :
    ((s.modPt p n f).pc p).time.sansPorts = (s.pc p).time.sansPorts := by
  simp [State.modPt, TimeUnit.sansPorts]

theorem State.sansPorts_closePort (x : PortTime) :
    ((s.closePort p n x).pc p).time.sansPorts = (s.pc p).time.sansPorts := by
  simp only [State.closePort]
  split <;> simp [State.sansPorts_modPt]

theorem State.sansPorts_rejectPort (inP inA : Bool) :
    ((s.rejectPort n inP inA).pc .baxel).time.sansPorts = (s.pc .baxel).time.sansPorts := by
  simp only [State.rejectPort]
  split_ifs <;> simp [State.sansPorts_modPt, -State.pc_baxel]

/-- R72: a port whose interval gives a reading. -/
def State.portGives (s : State) (p : Part) (n : Nat) (x : PortTime) : Prop :=
  32 ≤ x.kept ∧ (x.peer.map (·.depth)).getD 15 < 15 ∧ s.ttInService p n = true ∧ s.ttExcluded p n = false ∧
    s.portTdcOk p n = true ∧ s.portCal p n = false

theorem State.thetaP_closePort {x : PortTime} (h : s.portGives p n x) :
    ((s.closePort p n x).pt p n).thetaP = some (x.thetaSum / x.kept) := by
  obtain ⟨hkept, hdepth, hin, hex, htdc, hcal⟩ := h
  simp [State.closePort, hkept, hdepth, hin, hex, htdc, hcal, floorDiv]

end

/-- R61: one plane's offset is the combined one. -/
theorem combined_singleton (n : Nat) (v : Int) : combined [(n, v)] = v := by
  simp [combined, floorDiv]

theorem combine_singleton (n : Nat) (v : Int) {locked : List (Nat × Int)} (hl : locked = [] ∨ locked = [(n, v)])
    (reject : Nat) : combine locked [(n, v)] reject = ([(n, v)], [(n, v)], false) := by
  rcases hl with rfl | rfl <;> simp [combine, lowerMedian, sortBy, insertBy]

/-- R61: a Baxel with one plane that gives an offset takes it. -/
theorem State.combineBaxel_singleton {s : State} {n : Nat} {x : PortTime} {v : Int} (hports : s.bx.c.time.ports = [(n, x)])
    (hv : x.thetaP = some v) : s.combineBaxel = (s.rejectPort n true true, some v) := by
  have hany : (s.bx.c.time.ports.filterMap fun (n, x) => x.thetaP.map fun v => (n, v)) = [(n, v)] := by
    simp [hports, hv]
  have hlocked : ∀ f : Nat × Int → Bool, [(n, v)].filter f = [] ∨ [(n, v)].filter f = [(n, v)] := by
    intro f
    cases hf : f (n, v) <;> simp [hf]
  simp only [State.combineBaxel, hany, combine_singleton n v (hlocked _), combined_singleton]
  simp [hports]

/-! ### The servo (R59, R60) -/

section
variable {s : State} {p : Part}

/-- R59: out of UNSET the servo commits a set with the offset taken off and the RATE it has. -/
theorem State.servoTheta_time_of_unset {v : Int} {rates : Int × Int} {bend : OT → OT} (hset : (s.pc p).time.state = .unset)
    (hot : (otAdd (otOfRaw (s.pc p).time.active (s.raw p + 1048576000)) (-v)).malformed = false)
    (hrate : (s.pc p).time.rateFreq.natAbs ≤ 34359738368) :
    ((s.servoTheta p v rates bend).pc p).time =
      { (s.pc p).time with
        good := 0, bad := 0, noTheta := 0
        committed := some ⟨⟨otAdd (otOfRaw (s.pc p).time.active (s.raw p + 1048576000)) (-v), s.raw p + 1048576000,
          (s.pc p).time.rateFreq⟩, s.raw p + 1048576000, some .acquiring⟩ } := by
  have hraw : ∀ f : TimeUnit → TimeUnit, (f (s.pc p).time).raw = (s.pc p).time.raw → (s.modTime p f).raw p = s.raw p := by
    intro f hf
    simp [State.raw, hf]
  simp only [State.servoTheta, hset, decide_true, Bool.true_or, if_true]
  rw [State.servoCommit_time (by rw [hraw _ rfl]; exact hot) hrate, hraw _ rfl]
  simp [hset]

/-- R60: the second interval in a row without an offset. -/
theorem State.servoNone_time_of_second (hstate : (s.pc p).time.state = .acquiring ∨ (s.pc p).time.state = .locked)
    (hno : 1 ≤ (s.pc p).time.noTheta) :
    ((s.servoNone p).pc p).time =
      { (s.pc p).time with noTheta := (s.pc p).time.noTheta + 1, good := 0, bad := 0, state := .holdover } := by
  have htwo : 2 ≤ (s.pc p).time.noTheta + 1 := by omega
  rcases hstate with hstate | hstate <;> simp [State.servoNone, hstate, htwo]

end

/-- R52: the one port a part has holds its offset once the interval is closed. -/
theorem State.closePort_onePort {s : State} {p : Part} {n : Nat} {x : PortTime} (hports : (s.pc p).time.ports = [(n, x)])
    (hgives : s.portGives p n x) :
    ∃ y, ((s.closePort p n x).pc p).time.ports = [(n, y)] ∧ y.thetaP = some (x.thetaSum / x.kept) := by
  have hset : ∃ y, ((s.closePort p n x).pc p).time.ports = [(n, y)] := by
    simp only [State.closePort]
    split <;> simp [State.modPt, FMap.update, FMap.set, hports]
  obtain ⟨y, hy⟩ := hset
  have hpt := State.thetaP_closePort hgives
  exact ⟨y, hy, by simpa [State.pt, hy, FMap.getD, FMap.find?] using hpt⟩

/-- R52, R59: a Baxel's interval at its one plane. -/
theorem execServoInterval_onePlane {s : State} {f : FreqReading} {n : Nat} {x : PortTime}
    (hports : s.bx.c.time.ports = [(n, x)]) (hgives : s.portGives .baxel n x) :
    ∃ t u : State, execServoInterval .baxel f s = .next t ∧ (u.pc .baxel).time.sansPorts = (s.pc .baxel).time.sansPorts ∧
      (t.pc .baxel).time.sansPorts =
        (((u.servoTheta .baxel (x.thetaSum / x.kept) (servoRates .baxel u.bx.c.time.rateFreq (x.thetaSum / x.kept))).pc
          .baxel).time).sansPorts := by
  obtain ⟨y, hy, hv⟩ := State.closePort_onePort (p := .baxel) hports hgives
  have hclose : s.closePorts .baxel = s.closePort .baxel n x := by
    simp [State.closePorts, hports]
  have hcount := State.count_time (s.closePort .baxel n x) (evTime .baxel 0x318) 1 .baxel
  have hports0 : ((s.closePort .baxel n x).count (evTime .baxel 0x318)).bx.c.time.ports = [(n, y)] :=
    (congrArg TimeUnit.ports hcount).trans hy
  simp only [execServoInterval, hclose, State.combineBaxel_singleton hports0 hv]
  refine ⟨_, (((s.closePort .baxel n x).count (evTime .baxel 0x318)).rejectPort n true true).wr64 .baxel 0x0304
    (BitVec.ofInt 64 (x.thetaSum / x.kept)), rfl, ?_, ?_⟩
  · rw [State.wr64_time, State.sansPorts_rejectPort, hcount, State.sansPorts_closePort]
  · rw [State.modTime_pc]
    rfl

/-! ### The choice of a parent and the roots (R57, R58, R63) -/

section
variable {s : State} {p : Part} {c : TimeCell}

theorem State.followRoot_time : ((s.followRoot p c).pc p).time =
    { (s.pc p).time with
      rootId := c.rootId, rootEpoch := c.rootEpoch, rootPrio := c.rootPrio, gmTraceable := c.gmTraceable
      holdoverFlag := c.holdover, utcOffset := c.utcOffset, clockClass := c.clockClass, gmId := c.gmId
      depth := min 15 (c.depth + 1) } := by
  simp only [State.followRoot]
  split <;> simp

theorem State.takeBest_time {cs rest : List (Nat × TimeCell)} {n : Nat}
    (h : (cs.filter fun (_, c) => c.depth < 14) = (n, c) :: rest) :
    ((s.takeBest cs).pc .kresia).time =
      { (s.pc .kresia).time with
        parent := some n, monitors := (rest.take 2).map (·.1)
        rootId := c.rootId, rootEpoch := c.rootEpoch, rootPrio := c.rootPrio, gmTraceable := c.gmTraceable
        holdoverFlag := c.holdover, utcOffset := c.utcOffset, clockClass := c.clockClass, gmId := c.gmId
        depth := min 15 (c.depth + 1) } := by
  simp only [State.takeBest, h]
  rw [State.followRoot_time, State.modTime_pc]

theorem State.carryPath_time (s : State) : ∃ cls gm utc, (s.carryPath.pc .kresia).time =
    { (s.pc .kresia).time with clockClass := cls, gmId := gm, utcOffset := utc } := by
  simp only [State.carryPath]
  split
  case h_1 a _ =>
    split
    · exact ⟨a.clockClass, a.gmId, a.utcOffset, by simp [State.setUtc, -State.pc_kresia]⟩
    · exact ⟨_, _, _, rfl⟩
  case h_2 => exact ⟨_, _, _, rfl⟩

/-- R58: a Kresia that takes the root changes its place in the tree and no parameter set. -/
theorem State.takeRoot_time (prio epoch : Nat) :
    ∃ cls gm utc, ((s.takeRoot prio epoch).pc .kresia).time =
      { (s.pc .kresia).time with
        rootPrio := prio, rootEpoch := epoch % 256, rootId := s.fld .kresia 0x4 0 17, depth := 0, parent := none
        monitors := [], crown := { (s.pc .kresia).time.crown with isRoot := true }
        clockClass := cls, gmId := gm, utcOffset := utc } := by
  unfold State.takeRoot
  extract_lets id t s1 s2
  obtain ⟨cls, gm, utc, hpath⟩ :=
    ((s1.setFld .kresia 0x100310 0 17 id).setFld .kresia 0x100310 17 8 epoch).carryPath_time
  refine ⟨cls, gm, utc, ?_⟩
  rw [apply_ite (fun u : State => (u.pc .kresia).time), State.stickyTime_time, ite_self, hpath, State.setFld_time,
    State.setFld_time, State.modTime_pc]

theorem State.events_carryPath : s.carryPath.ks.events = s.ks.events := by
  simp only [State.carryPath]
  split
  · split <;> simp [State.setUtc]
  · rfl

theorem State.events_takeRoot (prio epoch : Nat) : (s.takeRoot prio epoch).ks.events = s.ks.events := by
  simp only [State.takeRoot]
  split <;> simp [State.events_carryPath]

end

/-! ### An interval without an offset (R60) -/

/-- R48: the sources ordered are taken; nothing else of the time unit changes. -/
theorem State.takeOrder_time (s : State) : ∃ crown, crown.isRoot = (s.pc .kresia).time.crown.isRoot ∧
    crown.role = (s.pc .kresia).time.crown.role ∧
    s.takeOrder.ks.c.time = { s.ks.c.time with crown } := by
  simp only [State.takeOrder]
  split
  · next ph fr _ =>
    exact ⟨{ s.ks.c.time.crown with phaseOrder := ph, freqOrder := fr, nextOrder := none }, rfl, rfl, rfl⟩
  · exact ⟨_, rfl, rfl, rfl⟩

theorem State.bloom_eq_of_role {s : State} (h : s.ks.c.time.crown.role = 0) : s.bloom = s := by
  simp [State.bloom, h]

/-- R60: without a port heard the interval gives the servo no offset. -/
theorem execServoInterval_noPorts {s : State} {p : Part} {f : FreqReading} (hports : (s.pc p).time.ports = [])
    (hroot : (s.pc p).time.crown.isRoot = false) (hrole : (s.pc p).time.crown.role = 0)
    (hparent : (s.pc p).time.parent = none) :
    ∃ t u : State, ∃ crown, execServoInterval p f s = .next t ∧ (u.pc p).time = { (s.pc p).time with crown } ∧
      (t.pc p).time.sansPorts = ((u.servoNone p).pc p).time.sansPorts := by
  have hclose : s.closePorts p = s := by simp [State.closePorts, hports]
  have hcount := State.count_time s (evTime p 0x318) 1 p
  cases p with
  | baxel =>
    have hempty : (s.count (evTime .baxel 0x318)).combineBaxel = (s.count (evTime .baxel 0x318), none) := by
      have hnone : (s.count (evTime .baxel 0x318)).bx.c.time.ports = [] := (congrArg TimeUnit.ports hcount).trans hports
      simp [State.combineBaxel, hnone]
    simp only [execServoInterval, hclose, hempty]
    exact ⟨_, _, _, rfl, hcount, by rw [State.modTime_pc]; rfl⟩
  | kresia =>
    obtain ⟨crown, hcroot, hcrole, htake⟩ := (s.count (evTime .kresia 0x318)).takeOrder_time
    have hcount' : (s.count (evTime .kresia 0x318)).ks.c.time = s.ks.c.time := hcount
    rw [hcount'] at htake
    rw [hcount] at hcroot hcrole
    have hbloom : (s.count (evTime .kresia 0x318)).takeOrder.bloom = (s.count (evTime .kresia 0x318)).takeOrder :=
      State.bloom_eq_of_role (by rw [htake]; exact hcrole.trans hrole)
    have hisRoot : (s.count (evTime .kresia 0x318)).takeOrder.ks.c.time.crown.isRoot = false := by
      rw [htake]; exact hcroot.trans hroot
    have hpar : (s.count (evTime .kresia 0x318)).takeOrder.ks.c.time.parent = none := by
      rw [htake]; exact hparent
    have hps : (s.count (evTime .kresia 0x318)).takeOrder.ks.c.time.ports = [] := by
      rw [htake]; exact hports
    have hreview : (s.count (evTime .kresia 0x318)).takeOrder.reviewParent = (s.count (evTime .kresia 0x318)).takeOrder := by
      simp only [State.reviewParent, hpar]
    have htheta : (s.count (evTime .kresia 0x318)).takeOrder.thetaKresia =
        ((s.count (evTime .kresia 0x318)).takeOrder, none) := by
      simp only [State.thetaKresia, hpar]
    simp only [execServoInterval, hclose, hbloom, hisRoot, if_false, Bool.false_eq_true, hreview, htheta, hps, List.foldl_nil]
    exact ⟨_, _, crown, rfl, htake, by rw [State.modTime_pc]; rfl⟩

/-- Settles O13: the servo by its two forms, the choice of a parent by the best candidate, the root by the taking of it. -/
theorem servoParentAndRoot : Obligations.ServoParentAndRoot := by
  unfold Obligations.ServoParentAndRoot
  refine ⟨?onePlane, ?holdover, ?parent, ?early, ?takeover, ?noSource, ?source⟩
  case onePlane =>
    intro s f n x c hports hpeer hdepth hkept hin hex htdc hcal hset hrate hot
    have hgives : s.portGives .baxel n x := ⟨hkept, by simpa [hpeer] using hdepth, hin, hex, htdc, hcal⟩
    obtain ⟨t, u, hexec, hu, ht⟩ := execServoInterval_onePlane (f := f) hports hgives
    obtain ⟨hraw, hact, hstate, hfreq, -⟩ := TimeUnit.fields_of_sansPorts hu
    rw [State.pc_baxel s] at hraw hact hstate hfreq
    have hraw' : u.raw .baxel = s.raw .baxel := hraw
    obtain ⟨-, htact, htstate, -, htcom⟩ := TimeUnit.fields_of_sansPorts ht
    rw [State.servoTheta_time_of_unset (hstate.trans hset) (by rw [hact, hraw']; exact hot) (by rw [hfreq]; exact hrate),
      hact, hraw', hfreq] at htcom
    rw [State.servoTheta_time_of_unset (hstate.trans hset) (by rw [hact, hraw']; exact hot) (by rw [hfreq]; exact hrate)]
      at htact htstate
    exact ⟨t, hexec, htcom, htstate.trans (hstate.trans hset), htact.trans hact⟩
  case holdover =>
    intro s p f hports hstate hno hroot hrole hparent
    obtain ⟨t, u, crown, hexec, hu, ht⟩ := execServoInterval_noPorts (f := f) hports hroot hrole hparent
    obtain ⟨-, htact, htstate, -, htcom⟩ := TimeUnit.fields_of_sansPorts ht
    rw [State.servoNone_time_of_second (by rw [hu]; exact hstate) (by rw [hu]; exact hno), hu] at htact htstate htcom
    exact ⟨t, hexec, htstate, htact, htcom⟩
  case parent =>
    intro s r n c rest hfirst hparent hroot hdue hbest
    have hexec : exec .parentChoice s = .next s.chooseParent := by
      simp only [exec, execParentChoice, hfirst, hparent]
      rw [if_pos (by rw [hroot, decide_eq_true hdue]; rfl)]
    refine ⟨_, hexec, ?_⟩
    have htime : s.chooseParent.ks.c.time = _ := State.takeBest_time hbest
    rw [htime]
    exact ⟨rfl, rfl, rfl, rfl, rfl⟩
  case early =>
    intro s r hfirst hearly
    simp only [exec, execParentChoice, hfirst]
    split
    · rw [if_neg]
      simp_all
    · rfl
  case takeover =>
    intro s r hrole hroot hlast hsilent htell
    refine ⟨_, congrArg Host.Outcome.next (if_pos ?guard), ?_⟩
    case guard =>
      rw [hrole, hroot, hlast]
      simpa using hsilent
    obtain ⟨cls, gm, utc, htime⟩ := s.takeRoot_time 1 (s.ks.c.time.rootEpoch + 1)
    have hreport := (State.report_time (s.takeRoot 1 (s.ks.c.time.rootEpoch + 1)) .kresia 0x100D [] 255 none none
      .kresia).trans htime
    rw [State.pc_kresia] at hreport
    rw [hreport, State.told_report]
    · simp [State.told, State.events_takeRoot]
    · simpa [State.canTell, State.events_takeRoot] using htell
  case noSource =>
    intro s r hrole hstate hphase hstart hlate hold htell
    refine ⟨_, congrArg Host.Outcome.next (if_pos (by simp [hrole, hstate, hphase, hstart, hlate, hold])), ?_⟩
    have hreport := State.report_time (s.modTime .kresia fun t => { t with crown := { t.crown with
      noSourceReported := true } }) .kresia 0x1008 [] 255 none none .kresia
    rw [State.pc_kresia, State.modTime_pc] at hreport
    rw [hreport, State.told_report]
    · simp [State.told]
    · simpa [State.canTell] using htell
  case source =>
    rintro s (h | h | h | h) <;> simp [exec, execTimeNoSource, h]

end Sys2Proof.Machine

/-! The proof of O14: PTP frames and messages (R46, R47), 1PPS and the time of day (R45). -/

namespace Sys2Proof.Machine

section
variable {s : State} {p : Part} {a i : Nat} {e : EdgeStamp} {raw : Raw}

/-- R66: the TDC in service is one of its pair. -/
theorem State.inService_eq (s : State) (p : Part) (a : Nat) : s.inService p a = a ∨ s.inService p a = a + 1 := by
  simp only [State.inService]
  split_ifs <;> simp

/-- R66: a pair that gave a stamp has not failed. -/
theorem State.pairDead_of_stamp (h : s.pairStamp p a e = some (i, raw)) : s.pairDead p a = s := by
  have hserves : (s.tdc p (s.inService p a)).failed = false := by
    rw [Bool.eq_false_iff]
    intro hfailed
    simp [State.pairStamp, Tdc.take, hfailed] at h
  rw [State.pairDead, if_neg]
  rcases s.inService_eq p a with hi | hi <;> simp [hi] at hserves <;> simp [hserves]

end

/-! ### Messages sent (R46) -/

section
variable (s : State) (port id : Nat) (i : Nat) (raw : Raw)

/-- R87: the transmit timestamp of an event frame of a port. -/
def State.ptpTxEntry : TxqEntry :=
  ⟨raw, id, 0x100 + port, 2, (s.rd .kresia 0x100134).toNat % 256,
    (if (s.tdc .kresia i).passed then 0 else 1) + (if i % 2 = 1 then 2 else 0) + 128⟩

/-- R87: the part with the timestamp of an event frame taken. -/
def State.ptpStamped : State := (s.modTime .kresia fun t => t.noteWrap raw).pushTxq .kresia (s.ptpTxEntry port id i raw)

variable {s} {port} {id} {i} {raw} {tx : EdgeStamp}

@[simp] theorem State.out_ptpStamped : (s.ptpStamped port id i raw).out = s.out := by
  simp [State.ptpStamped]

@[simp] theorem State.ptpDiscard_out : s.ptpDiscard.out = s.out := rfl

/-- R46: a Sync stamped goes out with its OT where its timestamp has room, and is counted where it has none. -/
theorem execPtpMessageTx_sync (hsends : s.ptpSends port .sync = true)
    (hstamp : s.pairStamp .kresia (tdcMgmtTx port) tx = some (i, raw)) :
    execPtpMessageTx port .sync id tx s = .next (if s.ks.c.stamp.txq.length < 64 then
        (s.ptpStamped port id i raw).emit (.send .kresia .mgmt (.ptp .sync id (some (s.ks.c.time.ot raw))))
      else ((s.ptpStamped port id i raw).emit (.send .kresia .mgmt (.ptp .sync id none))).ptpDiscard) := by
  simp [execPtpMessageTx, hsends, hstamp, State.pairDead_of_stamp hstamp, State.ptpStamped, State.ptpTxEntry]

theorem execPtpMessageTx_delayReq (hsends : s.ptpSends port .delayReq = true)
    (hstamp : s.pairStamp .kresia (tdcMgmtTx port) tx = some (i, raw)) (hroom : s.ks.c.stamp.txq.length < 64) :
    execPtpMessageTx port .delayReq id tx s =
      .next (((s.ptpStamped port id i raw).emit (.send .kresia .mgmt (.ptp .delayReq id none))).modPtp port fun x =>
        { x with reqTx := some (s.ks.c.time.ot raw) }) := by
  simp [execPtpMessageTx, hsends, hstamp, State.pairDead_of_stamp hstamp, State.ptpStamped, State.ptpTxEntry, hroom]

theorem State.txq_ptpStamped (hroom : s.ks.c.stamp.txq.length < 64) :
    (s.ptpStamped port id i raw).ks.c.stamp.txq = s.ks.c.stamp.txq ++ [s.ptpTxEntry port id i raw] := by
  simp [State.ptpStamped, State.pushTxq, hroom, State.modStamp, State.modPc, State.modTime]

theorem State.ptpStamped_of_full (hfull : ¬ s.ks.c.stamp.txq.length < 64) :
    s.ptpStamped port id i raw =
      ((s.modTime .kresia fun t => t.noteWrap raw).setBit .kresia (tAddr .kresia 0x6A00) 8 true).count
        (evTime .kresia 0x6A04) := by
  have hsame : ((s.modTime .kresia fun t => t.noteWrap raw).pc .kresia).stamp = s.ks.c.stamp := by
    rw [State.modTime_pc]
    rfl
  rw [State.ptpStamped, State.pushTxq, if_neg (by rw [hsame]; exact hfull)]

end

@[simp] theorem State.ptpPort_modPtp (s : State) (port : Nat) (g : PtpPort → PtpPort) :
    (s.modPtp port g).ptpPort port = g (s.ptpPort port) := by
  simp [State.ptpPort, State.modPtp, State.modCrown, State.modTime, State.modPc]

@[simp] theorem State.out_modPtp (s : State) (port : Nat) (g : PtpPort → PtpPort) : (s.modPtp port g).out = s.out := rfl

/-- Settles O14: each frame and message by the branch of R46 it takes. -/
theorem timeSourcesOfTheCrown : Obligations.TimeSourcesOfTheCrown := by
  unfold Obligations.TimeSourcesOfTheCrown
  refine ⟨?badDomain, ?unsupported, ?otherDomain, ?delayResp, ?delayReqRx, ?silent, ?announce, ?sync, ?syncFull, ?delayReq,
    ?pps, ?tod, ?todAlone⟩
  case badDomain =>
    rintro s port d f rx (h | h) <;> simp [exec, execPtpFrameRx, h, State.ptpDiscard, State.modKs]
  case unsupported =>
    rintro s port d f rx (rfl | rfl | rfl | rfl) <;>
      simp [exec, execPtpFrameRx, ptpUnsupported, State.ptpDiscard, State.modKs]
  case otherDomain =>
    intro s port d f rx hlo hhi hd hf
    simp [exec, execPtpFrameRx, hlo, hhi, hd, hf]
  case delayResp =>
    intro s port d rx at1 tx o r hlo hhi hd hslave hrole ho hr htx
    have hexec : exec (.ptpFrameRx port d (.delayResp at1) rx) s =
        .next (s.ptpTake port (.delayResp at1) (((s.pairStamp .kresia (tdcMgmtRx port) rx).map (·.2)).map s.ks.c.time.ot)) := by
      simp [exec, execPtpFrameRx, hlo, hhi, ← hd, hslave, hrole, ptpUnsupported, ptpEvent]
    refine ⟨_, hexec, ?_⟩
    simp [State.ptpTake, ho, hr, htx]
  case delayReqRx =>
    intro s port d id i rx raw hlo hhi hd hmaster hstamp
    simp only [exec, execPtpFrameRx, hmaster, hstamp, State.pairDead_of_stamp hstamp]
    refine ⟨_, congrArg Host.Outcome.next ((if_neg (by simp [hlo, hhi, ptpUnsupported])).trans (if_neg (by simp [hd]))), ?_⟩
    simp [ptpEvent]
  case silent =>
    intro s port id m tx hsends
    simp [exec, execPtpMessageTx, hsends]
  case announce =>
    intro s port id tx hsends
    simp [exec, execPtpMessageTx, hsends]
  case sync =>
    intro s port id i tx raw hsends hstamp hroom
    refine ⟨_, (execPtpMessageTx_sync hsends hstamp).trans (congrArg _ (if_pos hroom)), ⟨s.ptpTxEntry port id i raw, ?_, rfl, rfl, rfl⟩, by simp⟩
    exact State.txq_ptpStamped hroom
  case syncFull =>
    intro s port id i tx raw hsends hstamp hfull
    have hno : ¬ s.ks.c.stamp.txq.length < 64 := by omega
    refine ⟨_, (execPtpMessageTx_sync hsends hstamp).trans (congrArg _ (if_neg hno)), ?_, ?_, by simp⟩ <;>
      simp [State.ptpDiscard, State.ptpStamped_of_full hno, State.modKs, ← State.pc_kresia]
  case delayReq =>
    intro s port id i tx raw hsends hstamp hroom
    exact ⟨_, execPtpMessageTx_delayReq hsends hstamp hroom, by simp, by simp⟩
  case pps =>
    intro s e
    exact ⟨_, rfl, rfl, rfl, rfl⟩
  case tod =>
    intro s ot utc r hr
    simp only [exec, execTodRxMessage, hr]
    refine ⟨_, rfl, ?_⟩
    split <;> simp [State.ppsReading, State.setUtc, State.modTime, State.modPc, State.raw, State.setFld, State.wr, TimeUnit.ot, TimeUnit.setFor]
  case todAlone =>
    intro s ot utc hr
    simp only [exec, execTodRxMessage, hr]
    refine ⟨_, rfl, ?_⟩
    split <;> simp [State.setUtc, State.modTime, State.modPc, State.setFld, State.wr]

end Sys2Proof.Machine

/-! The proof of O15: how calibration runs start (R53, R71), wait and end (R69, R70). -/

namespace Sys2Proof.Machine

/-! ### Starting and queueing (R71) -/

/-- A TDC but for the run it is in. -/
def Tdc.sansRun (t : Tdc) : Tdc := { t with calibrating := false, runStart := 0 }

/-- R71: a run on the TDC is on or stands in the queue. -/
def State.CalPending (s : State) (p : Part) (i : Nat) : Prop :=
  (s.tdc p i).calibrating = true ∨ i ∈ (s.pc p).stamp.calQueue

section
variable (s : State) (p : Part) (i j : Nat)

theorem State.tdc_modStamp {f : StampUnit → StampUnit} (hf : ∀ u, (f u).tdcs = u.tdcs) :
    (s.modStamp p f).tdc p j = s.tdc p j := by
  simp [State.tdc, hf]

theorem State.tdc_calStart : (s.calStart p i).tdc p j =
    if j = i then { s.tdc p i with calibrating := true, runStart := s.raw p } else s.tdc p j := by
  simp only [State.calStart, State.tdc_modStamp, implies_true]
  split_ifs with h
  · rw [h, State.tdc_modTdc]
  · rw [State.tdc_modTdc_ne _ _ h]

theorem State.calQueue_calStart :
    ((s.calStart p i).pc p).stamp.calQueue = (s.pc p).stamp.calQueue.filter (· ≠ i) := by
  simp [State.calStart, State.modTdc]

theorem State.temp_calStart : ((s.calStart p i).pc p).stamp.temp = (s.pc p).stamp.temp := by
  simp [State.calStart, State.modTdc]

theorem State.serviceB_calStart : ((s.calStart p i).pc p).stamp.serviceB = (s.pc p).stamp.serviceB := by
  simp [State.calStart, State.modTdc]

theorem State.out_calStart : (s.calStart p i).out = s.out := by
  simp [State.calStart]

theorem State.told_calStart : (s.calStart p i).told p = s.told p := by
  cases p <;> simp [State.told, State.calStart]

variable {s p i j}

theorem State.calPending_calStart (h : s.CalPending p j) : (s.calStart p i).CalPending p j := by
  by_cases hij : j = i
  · exact .inl (by simp [State.tdc_calStart, hij])
  · exact h.imp (fun h => by rw [State.tdc_calStart, if_neg hij]; exact h)
      fun h => by simp [State.calQueue_calStart, h, hij]

theorem State.calibrating_calStart (h : (s.tdc p j).calibrating = true) : ((s.calStart p i).tdc p j).calibrating = true := by
  rw [State.tdc_calStart]
  split_ifs <;> simp [h]

/-- R71: a run that falls due starts, waits already, or joins the queue. -/
theorem State.calDue_cases (s : State) (p : Part) (i : Nat) :
    (s.calAllowed p i = true ∧ s.calDue p i = s.calStart p i) ∨
      (i ∈ (s.pc p).stamp.calQueue ∧ s.calDue p i = s) ∨
      s.calDue p i = s.modStamp p fun u => { u with calQueue := u.calQueue ++ [i] } := by
  simp only [State.calDue]
  split_ifs with hallowed hwaits
  · exact .inl ⟨hallowed, rfl⟩
  · exact .inr (.inl ⟨by simpa using hwaits, rfl⟩)
  · exact .inr (.inr rfl)

theorem State.calPending_calDue_self (s : State) (p : Part) (i : Nat) : (s.calDue p i).CalPending p i := by
  obtain ⟨-, h⟩ | ⟨hwaits, h⟩ | h := s.calDue_cases p i <;> rw [h]
  · exact .inl (by simp [State.tdc_calStart])
  · exact .inr hwaits
  · exact .inr (by simp)

theorem State.calPending_calDue (hp : s.CalPending p j) : (s.calDue p i).CalPending p j := by
  obtain ⟨-, h⟩ | ⟨-, h⟩ | h := s.calDue_cases p i <;> rw [h]
  · exact State.calPending_calStart hp
  · exact hp
  · exact hp.imp (fun hp => by simp only [State.tdc_modStamp, implies_true]; exact hp) fun hp => by simp [hp]

theorem State.calibrating_calDue (hc : (s.tdc p j).calibrating = true) : ((s.calDue p i).tdc p j).calibrating = true := by
  obtain ⟨-, h⟩ | ⟨-, h⟩ | h := s.calDue_cases p i <;> rw [h]
  · exact State.calibrating_calStart hc
  · exact hc
  · simp only [State.tdc_modStamp, implies_true]
    exact hc

theorem State.queued_calDue (hne : j ≠ i) (hq : j ∈ (s.pc p).stamp.calQueue) :
    j ∈ ((s.calDue p i).pc p).stamp.calQueue := by
  obtain ⟨-, h⟩ | ⟨-, h⟩ | h := s.calDue_cases p i <;> rw [h]
  · simp [State.calQueue_calStart, hq, hne]
  · exact hq
  · simp [hq]

/-- R71: a trigger makes the run of its target due, and in a pair perhaps that of the other TDC after it. -/
theorem State.calTrigger_eq (s : State) (p : Part) (i : Nat) :
    s.calTrigger p i = s.calDue p (s.calTarget p i) ∨
      ∃ other, s.calTarget p i ≠ other ∧ s.calTrigger p i = (s.calDue p (s.calTarget p i)).calDue p other := by
  by_cases hport : tdcOfPort p i = true
  · exact .inl (by simp [State.calTrigger, State.calTarget, hport])
  · have hne : ∀ k, k ≠ if k = pairA k then k + 1 else k - 1 := by
      intro k
      by_cases hk : k = pairA k
      · rw [if_pos hk]
        omega
      · rw [if_neg hk]
        simp only [pairA] at hk
        omega
    simp only [State.calTrigger, if_neg hport]
    have htarget := hne (s.calTarget p i)
    generalize (if s.calTarget p i = pairA (s.calTarget p i) then s.calTarget p i + 1 else s.calTarget p i - 1) = other
      at htarget ⊢
    split_ifs
    · exact .inl rfl
    · exact .inr ⟨other, htarget, rfl⟩

theorem State.calTrigger_starts (h : s.calAllowed p (s.calTarget p i) = true) :
    ((s.calTrigger p i).tdc p (s.calTarget p i)).calibrating = true := by
  have hdue : ((s.calDue p (s.calTarget p i)).tdc p (s.calTarget p i)).calibrating = true := by
    rw [State.calDue, if_pos h, State.tdc_calStart, if_pos rfl]
  obtain htrig | ⟨other, -, htrig⟩ := s.calTrigger_eq p i <;> rw [htrig]
  · exact hdue
  · exact State.calibrating_calDue hdue

theorem State.calTrigger_queues (h : s.calAllowed p (s.calTarget p i) = false) :
    s.calTarget p i ∈ ((s.calTrigger p i).pc p).stamp.calQueue := by
  have hdue : s.calTarget p i ∈ ((s.calDue p (s.calTarget p i)).pc p).stamp.calQueue := by
    obtain ⟨h', -⟩ | ⟨hwaits, hd⟩ | hd := s.calDue_cases p (s.calTarget p i)
    · simp [h] at h'
    · rwa [hd]
    · simp [hd]
  obtain htrig | ⟨other, hne, htrig⟩ := s.calTrigger_eq p i <;> rw [htrig]
  · exact hdue
  · exact State.queued_calDue hne hdue

theorem State.calPending_calTrigger_self (s : State) (p : Part) (i : Nat) :
    (s.calTrigger p i).CalPending p (s.calTarget p i) := by
  obtain htrig | ⟨other, -, htrig⟩ := s.calTrigger_eq p i <;> rw [htrig]
  · exact s.calPending_calDue_self p _
  · exact State.calPending_calDue (s.calPending_calDue_self p _)

theorem State.calPending_calTrigger (h : s.CalPending p j) : (s.calTrigger p i).CalPending p j := by
  obtain htrig | ⟨other, -, htrig⟩ := s.calTrigger_eq p i <;> rw [htrig]
  · exact State.calPending_calDue h
  · exact State.calPending_calDue (State.calPending_calDue h)

/-! ### What a trigger leaves (R71) -/

/-- What starting and queueing runs leaves of the part: its TDCs but for the runs they are in, their roles, the temperature,
and what has been told. -/
def SameTdcs (p : Part) (s t : State) : Prop :=
  (∀ j, (t.tdc p j).sansRun = (s.tdc p j).sansRun) ∧ (t.pc p).stamp.serviceB = (s.pc p).stamp.serviceB ∧
    (t.pc p).stamp.temp = (s.pc p).stamp.temp ∧ t.out = s.out ∧ t.told p = s.told p

theorem SameTdcs.refl (s : State) : SameTdcs p s s := ⟨fun _ => rfl, rfl, rfl, rfl, rfl⟩

theorem SameTdcs.trans {s t u : State} (h : SameTdcs p s t) (k : SameTdcs p t u) : SameTdcs p s u := by
  obtain ⟨htdc, hserv, htemp, hout, htold⟩ := h
  obtain ⟨ktdc, kserv, ktemp, kout, ktold⟩ := k
  exact ⟨fun j => (ktdc j).trans (htdc j), kserv.trans hserv, ktemp.trans htemp, kout.trans hout, ktold.trans htold⟩

theorem sameTdcs_calStart (s : State) : SameTdcs p s (s.calStart p i) := by
  refine ⟨fun j => ?_, s.serviceB_calStart p i, s.temp_calStart p i, s.out_calStart p i, s.told_calStart p i⟩
  rw [State.tdc_calStart]
  split_ifs with h
  · simp [Tdc.sansRun, h]
  · rfl

theorem sameTdcs_calDue (s : State) : SameTdcs p s (s.calDue p i) := by
  obtain ⟨-, h⟩ | ⟨-, h⟩ | h := s.calDue_cases p i <;> rw [h]
  · exact sameTdcs_calStart s
  · exact .refl s
  · refine ⟨fun j => ?_, ?_, ?_, ?_, ?_⟩
    · simp only [State.tdc_modStamp, implies_true]
    · simp
    · simp
    · simp
    · cases p <;> simp [State.told]

theorem sameTdcs_calTrigger (s : State) : SameTdcs p s (s.calTrigger p i) := by
  obtain htrig | ⟨other, -, htrig⟩ := s.calTrigger_eq p i <;> rw [htrig]
  · exact sameTdcs_calDue s
  · exact (sameTdcs_calDue s).trans (sameTdcs_calDue _)

/-- R70, R71: where a run goes depends on the roles and the failures alone. -/
theorem SameTdcs.calTarget {s t : State} (h : SameTdcs p s t) (i : Nat) : t.calTarget p i = s.calTarget p i := by
  obtain ⟨htdc, hserv, -, -, -⟩ := h
  have hfailed : ∀ j, (t.tdc p j).failed = (s.tdc p j).failed := fun j => congrArg (·.failed) (htdc j)
  simp [State.calTarget, State.inService, hfailed, hserv]

theorem sameTdcs_calDrain (s : State) : SameTdcs p s (s.calDrain p) := by
  rw [State.calDrain]
  generalize (s.pc p).stamp.calQueue = queue
  induction queue generalizing s with
  | nil => exact .refl s
  | cons i queue ih =>
    refine SameTdcs.trans ?_ (ih _)
    dsimp only
    split_ifs
    · exact sameTdcs_calStart s
    · exact .refl s

/-- R71: triggers on several TDCs leave each with its run on or in the queue. -/
theorem State.calPending_foldl_calTrigger (l : List Nat) (s : State) (h : i ∈ l ∨ s.CalPending p (s.calTarget p i)) :
    (l.foldl (fun s i => s.calTrigger p i) s).CalPending p (s.calTarget p i) := by
  induction l generalizing s with
  | nil => exact h.resolve_left (by simp)
  | cons k l ih =>
    have hkeep : (s.calTrigger p k).calTarget p i = s.calTarget p i := (sameTdcs_calTrigger s).calTarget i
    rw [List.foldl_cons, ← hkeep]
    refine ih _ ?_
    rw [hkeep]
    obtain hmem | hpend := h
    · obtain rfl | hmem := List.mem_cons.mp hmem
      · exact .inr (s.calPending_calTrigger_self p i)
      · exact .inl hmem
    · exact .inr (State.calPending_calTrigger hpend)

theorem sameTdcs_foldl_calTrigger (l : List Nat) (s : State) : SameTdcs p s (l.foldl (fun s i => s.calTrigger p i) s) := by
  induction l generalizing s with
  | nil => exact .refl s
  | cons k l ih => exact (sameTdcs_calTrigger s).trans (ih _)

/-! ### The end of a run (R69, R70) -/

/-- The TDC a run leaves, whatever run starts on it next. -/
theorem SameTdcs.fields {s t : State} (h : SameTdcs p s t) (j : Nat) :
    (t.tdc p j).table = (s.tdc p j).table ∧ (t.tdc p j).passed = (s.tdc p j).passed ∧
    (t.tdc p j).runs = (s.tdc p j).runs ∧ (t.tdc p j).fails = (s.tdc p j).fails ∧
    (t.tdc p j).consecFails = (s.tdc p j).consecFails ∧ (t.tdc p j).lastCode = (s.tdc p j).lastCode ∧
    (t.tdc p j).cause = (s.tdc p j).cause ∧ (t.tdc p j).failed = (s.tdc p j).failed := by
  obtain ⟨htdc, -⟩ := h
  have hj := htdc j
  simp only [Tdc.sansRun, Tdc.mk.injEq] at hj
  simp [hj]

@[simp] theorem State.tdc_report (s : State) (code : Code) (dt : List Nat) (port : Nat) (sub dom : Option Nat) :
    (s.report p code dt port sub dom).tdc p j = s.tdc p j := by
  simp [State.tdc]

@[simp] theorem State.tdc_setBit (s : State) (a n : Nat) (b : Bool) : (s.setBit p a n b).tdc p j = s.tdc p j := by
  cases p <;> rfl

@[simp] theorem State.told_setBit (s : State) (a n : Nat) (b : Bool) : (s.setBit p a n b).told p = s.told p := by
  cases p <;> simp [State.told]

/-- R70: the TDC a failed run leaves. -/
def Tdc.runFailed (t : Tdc) (n cause : Nat) (raw : Raw) (temp : Int) : Tdc :=
  { t with
    calibrating := false, runs := (t.runs + 1) % 65536, fails := (t.fails + 1) % 65536, consecFails := n
    lastCode := 0x1011, cause := cause, failed := t.failed || 3 ≤ n, lastRun := some raw, tempLast := temp }

/-- R70: a failed run, before the runs in the queue take their turn. -/
def State.runFailed (s : State) (p : Part) (i cause : Nat) : State :=
  (s.modTdc p i fun t => t.runFailed ((s.tdc p i).consecFails + 1) cause (s.raw p) (s.pc p).stamp.temp).report p 0x1011 [i, cause]

theorem State.tdc_runFailed (s : State) (cause : Nat) : (s.runFailed p i cause).tdc p i =
    (s.tdc p i).runFailed ((s.tdc p i).consecFails + 1) cause (s.raw p) (s.pc p).stamp.temp := by
  simp [State.runFailed]

theorem State.told_runFailed {cause : Nat} (h : s.canTell p = true) :
    (s.runFailed p i cause).told p = s.told p ++ [0x1011] := by
  rw [State.runFailed, State.told_report]
  · cases p <;> simp [State.told]
  · cases p
    · rfl
    · simpa [State.canTell] using h

theorem State.calFail_eq (s : State) (p : Part) (i cause : Nat) : ∃ u : State, s.calFail p i cause = u.calDrain p ∧
    u.tdc p i = (s.runFailed p i cause).tdc p i ∧
    (tdcOfPort p i = true → u.told p = (s.runFailed p i cause).told p) := by
  unfold State.calFail
  extract_lets t n s1 a pairDead s2
  have hs1 : s1 = s.runFailed p i cause := rfl
  refine ⟨_, rfl, ?_, fun hport => ?_⟩
  · rw [apply_ite (fun u : State => u.tdc p i), State.tdc_setBit, ite_self, ← hs1]
    dsimp only [s2]
    rw [apply_ite (fun u : State => u.tdc p i), State.tdc_report, ite_self]
  · rw [apply_ite (fun u : State => u.told p), State.told_setBit, ite_self, ← hs1]
    dsimp only [s2, pairDead]
    simp [hport]

theorem State.tdc_calFail (s : State) (p : Part) (i cause : Nat) : ∃ u : State, SameTdcs p u (s.calFail p i cause) ∧
    u.tdc p i = (s.tdc p i).runFailed ((s.tdc p i).consecFails + 1) cause (s.raw p) (s.pc p).stamp.temp ∧
    (tdcOfPort p i = true → s.canTell p = true → u.told p = s.told p ++ [0x1011]) := by
  obtain ⟨u, hu, htdc, htold⟩ := s.calFail_eq p i cause
  refine ⟨u, hu ▸ sameTdcs_calDrain u, htdc.trans (State.tdc_runFailed s cause), fun hport htell => ?_⟩
  rw [htold hport, State.told_runFailed htell]

/-- R69, R70: the TDC a passed run leaves. -/
def Tdc.runPassed (t : Tdc) (hits : List Nat) (raw : Raw) (temp : Int) : Tdc :=
  { t with
    calibrating := false, table := some (calTable hits (hitsBefore hits 96)), passed := true, kLast := calK hits
    runs := (t.runs + 1) % 65536, consecFails := 0, lastCode := 0, cause := 0, lastRun := some raw, tempLast := temp }

theorem State.calEnd_of_pass {hits : List Nat} (hpass : calCause hits (hitsBefore hits 96) = 0) :
    ∃ u : State, SameTdcs p u (s.calEnd p i hits) ∧
      u.tdc p i = (s.tdc p i).runPassed hits (s.raw p) (s.pc p).stamp.temp ∧ u.out = s.out := by
  simp only [State.calEnd, hpass]
  refine ⟨_, sameTdcs_calDrain _, ?_, ?_⟩
  · split_ifs
    all_goals simp [State.tdc_modStamp, Tdc.runPassed]
  · split_ifs <;> simp

theorem State.calEnd_of_fail {hits : List Nat} {c : Nat} (hfail : calCause hits (hitsBefore hits 96) = c) (hc : c ≠ 0) :
    s.calEnd p i hits = s.calFail p i c := by
  obtain ⟨n, rfl⟩ := Nat.exists_eq_succ_of_ne_zero hc
  simp only [State.calEnd, hfail]

end

/-- Settles O15: a trigger starts or queues the run of its target, and the end of a run leaves its TDC as R70 has it. -/
theorem calibrationRuns : Obligations.CalibrationRuns := by
  unfold Obligations.CalibrationRuns
  refine ⟨?start, ?queue, ?interval, ?intervalOff, ?tempOff, ?temp, ?write, ?pass, ?fail, ?notRunning, ?short, ?early,
    ?notShort⟩
  case start =>
    intro s p tdc htdc hallowed
    exact ⟨_, congrArg Host.Outcome.next (if_pos htdc), State.calTrigger_starts hallowed⟩
  case queue =>
    intro s p tdc htdc hallowed
    exact ⟨_, congrArg Host.Outcome.next (if_pos htdc), State.calTrigger_queues hallowed⟩
  case interval =>
    intro s p tdc r htdc hauto hlast hdue hallowed
    refine ⟨_, congrArg Host.Outcome.next (if_pos ?_), State.calTrigger_starts hallowed⟩
    simp only [hlast, hauto, htdc, decide_true, Bool.true_and, decide_eq_true_eq]
    exact hdue
  case intervalOff =>
    intro s p tdc hauto
    simp [exec, execCalIntervalExpiry, hauto]
  case tempOff =>
    intro s p temp hauto
    simp [exec, execTempSensorRead, hauto]
  case temp =>
    intro s p temp i hauto hi hlast hstep
    refine ⟨_, congrArg Host.Outcome.next (if_pos hauto), ?_, ?_⟩
    · obtain ⟨-, -, htemp, -⟩ := sameTdcs_foldl_calTrigger (p := p) (((List.range (tdcCount p)).filter fun i =>
        (s.tdc p i).lastRun.isSome && (s.fld p (tAddr p 0x6B00) 8 8 : Int) < (temp - (s.tdc p i).tempLast).natAbs))
        (s.modStamp p fun u => { u with temp := temp })
      refine htemp.trans ?_
      simp
    · have htarget : (s.modStamp p fun u => { u with temp := temp }).calTarget p i = s.calTarget p i := by
        cases p <;> rfl
      have hpend := State.calPending_foldl_calTrigger (p := p) (i := i) (((List.range (tdcCount p)).filter fun i =>
        (s.tdc p i).lastRun.isSome && (s.fld p (tAddr p 0x6B00) 8 8 : Int) < (temp - (s.tdc p i).tempLast).natAbs))
        (s.modStamp p fun u => { u with temp := temp }) (.inl (by simpa [hi, hlast] using hstep))
      rwa [htarget] at hpend
  case write =>
    intro s p i hsel hi hallowed
    subst hsel
    exact ⟨_, congrArg Host.Outcome.next (if_pos hi), State.calTrigger_starts hallowed⟩
  case pass =>
    intro s p tdc hits hrun hpass
    obtain ⟨u, hsame, htdc, hout⟩ := State.calEnd_of_pass (s := s) (p := p) (i := tdc) hpass
    obtain ⟨htable, hpassed, hruns, -, hcons, hcode, -, -⟩ := hsame.fields tdc
    obtain ⟨-, -, -, hdrained, -⟩ := hsame
    rw [htdc] at htable hpassed hruns hcons hcode
    exact ⟨_, congrArg Host.Outcome.next (if_pos hrun), htable, hpassed, hruns, hcons, hcode, hdrained.trans hout⟩
  case fail =>
    intro s p tdc c hits hrun hfail hc htell hport
    obtain ⟨u, hsame, htdc, htold⟩ := s.tdc_calFail p tdc c
    obtain ⟨htable, -, -, hfails, -, hcode, hcause, hfailed⟩ := hsame.fields tdc
    obtain ⟨-, -, -, -, hdrained⟩ := hsame
    rw [htdc] at htable hfails hcode hcause hfailed
    exact ⟨_, congrArg Host.Outcome.next ((if_pos hrun).trans (State.calEnd_of_fail hfail hc)), htable, hfails, hcode, hcause,
      hfailed, hdrained.trans (htold hport htell)⟩
  case notRunning =>
    intro s p tdc hits hidle
    simp [exec, execTdcCalDone, hidle]
  case short =>
    intro s p tdc hrun hlate
    obtain ⟨u, hsame, htdc, -⟩ := s.tdc_calFail p tdc 1
    obtain ⟨htable, -, -, hfails, -, hcode, hcause, -⟩ := hsame.fields tdc
    rw [htdc] at htable hfails hcode hcause
    refine ⟨_, congrArg Host.Outcome.next (if_pos ?_), hcause, hcode, hfails, htable⟩
    rw [hrun, decide_eq_true hlate]
    rfl
  case early =>
    intro s p tdc hearly
    have hno : decide (20000000 * 65536 ≤ Raw.diff (s.raw p) (s.tdc p tdc).runStart) = false := by
      rw [decide_eq_false_iff_not]
      omega
    simp only [exec, execTdcCalShort]
    rw [if_neg]
    rw [hno, Bool.and_false]
    exact Bool.false_ne_true
  case notShort =>
    intro s p tdc hidle
    simp [exec, execTdcCalShort, hidle]

end Sys2Proof.Machine

/-! The proof of O16: edges at stamp inputs (R73, R74, R76, R79) and the words that retire records (R78, R82, R87). -/

namespace Sys2Proof.Machine

section
variable {s : State} {p : Part} {ch : Nat}

@[simp] theorem State.rd_count_evCh (off n b : Nat) (q : Part) :
    (s.count (evCh p ch off 0 32) n).rd q b =
      if q = p ∧ b = chAddr p ch off then s.rd p (chAddr p ch off) + BitVec.ofNat 32 n else s.rd q b :=
  State.rd_count s q b n rfl rfl rfl rfl rfl

@[simp] theorem State.chan_count (e : Ev) (n : Nat) : (s.count e n).chan p ch = s.chan p ch := by
  simp [State.chan]

@[simp] theorem State.chan_modTime (f : TimeUnit → TimeUnit) : (s.modTime p f).chan p ch = s.chan p ch := by
  simp [State.chan]

@[simp] theorem State.chan_draw : s.draw.2.chan p ch = s.chan p ch := by cases p <;> rfl

@[simp] theorem State.chan_setBit (a i : Nat) (b : Bool) : (s.setBit p a i b).chan p ch = s.chan p ch := by
  cases p <;> rfl

@[simp] theorem State.chan_viewRefused (v : View) (a : Nat) : (s.viewRefused p v a).chan p ch = s.chan p ch := by
  simp [State.chan]

/-- R394: a refused view marks words below those of the channels. -/
@[simp] theorem State.rd_viewRefused_chAddr (v : View) (a off : Nat) :
    (s.viewRefused p v a).rd p (chAddr p ch off) = s.rd p (chAddr p ch off) := by
  have hlow : 0x24 < chAddr p ch off := by
    cases p <;> simp only [chAddr, tAddr] <;> omega
  unfold State.viewRefused
  split
  all_goals
    simp only [State.rd_setBit, State.rd_setFld]
    repeat rw [if_neg (by rintro ⟨-, h⟩; omega)]

/-- R73: below 1.6 ns no pulse yields its edge. -/
theorem qualifies_of_runt {width choice : Nat} (h : width * 10 < 1048576) : qualifies width choice = false := by
  have hshort : ¬ 131072 ≤ width := by omega
  rw [qualifies, if_neg hshort, if_pos h]

theorem qualifies_of_long {width choice : Nat} (h : 131072 ≤ width) : qualifies width choice = true := by
  rw [qualifies, if_pos h]

/-- R79: the record of an edge that is recorded in a queue with room. -/
theorem State.chan_takeEdge {e : HeldEdge} (hfate : edgeFate (s.chan p ch) (s.fld p (chAddr p ch 0) 16 16) e = .record)
    (hq : s.bit p (chAddr p ch 0) 0 = true) (hroom : (s.chan p ch).queue.length < 512) :
    ∃ seq gs, ((s.takeEdge p ch e).chan p ch).queue = (s.chan p ch).queue ++ [mkRec (s.chan p ch) e ch seq gs false] ∧
      ((s.takeEdge p ch e).chan p ch).lastRecorded = some e.raw := by
  refine ⟨(s.count (evCh p ch 0x14 0 16)).fld p (chAddr p ch 0x14) 0 16, s.fld p (gtAddr p (groupOf ch) 0x1C) 0 16, ?_⟩
  simp only [State.takeEdge, hfate, hq, if_true, State.entersQueue, hroom, decide_true, Bool.and_self, State.pushRec,
    State.chan_count, State.chan_modChan]
  simp

theorem edgeFate_of_far {c : StampChannel} {div : Nat} {e : HeldEdge} (hfar : tooClose c.lastRecorded e.raw = false)
    (hdiv : div < 2) : edgeFate c div e = .record := by
  have hno : ¬ 2 ≤ div := by omega
  simp [edgeFate, hfar, hno]

end

/-- Settles O16: the branches of the edge, and those of a pop. -/
theorem stampRecordsAndPops : Obligations.StampRecordsAndPops := by
  unfold Obligations.StampRecordsAndPops
  refine ⟨?recorded, ?runt, ?dropped, ?untaken, ?noChannel, ?pop, ?popEmpty, ?popForeign, fun _ _ _ => rfl⟩
  case recorded =>
    intro s p ch w f e hch hdrop hedge hw hgate hfailed hcal hfar hdiv hq hroom
    have hno : ¬ chanCount p ≤ ch := by omega
    have hall : takesEdge 2 f = true := by cases f <;> rfl
    have hexec : ∃ u : State, exec (.stampEdge p ch f w e) s = .next (u.takeEdge p ch (s.mkHeld p
        ((s.tdc p (s.inService p (tdcStamp p ch))).stamp e) f e.code (s.inService p (tdcStamp p ch) ≠ tdcStamp p ch)
        (!(s.tdc p (s.inService p (tdcStamp p ch))).passed))) ∧ u.chan p ch = s.chan p ch ∧ ∀ a, u.rd p a = s.rd p a := by
      refine ⟨s.draw.2.modTime p fun t => t.noteWrap ((s.tdc p (s.inService p (tdcStamp p ch))).stamp e), ?_, ?_, ?_⟩
      · have hservice : s.draw.2.inService p (tdcStamp p ch) = s.inService p (tdcStamp p ch) := by cases p <;> rfl
        have htdc : ∀ i, s.draw.2.tdc p i = s.tdc p i := by intro i; cases p <;> rfl
        have hfld : ∀ a lo len, s.draw.2.fld p a lo len = s.fld p a lo len := fun _ _ _ => State.fld_congr (by simp) _ _
        have hheld : ∀ r fl c b u, s.draw.2.mkHeld p r fl c b u = s.mkHeld p r fl c b u := by intros; cases p <;> rfl
        simp only [exec, execStampEdge, hno, hdrop, qualifies_of_long hw, hedge, hall, hservice, htdc, hfld, hheld, hfailed,
          hcal, hgate, if_true, if_false, Bool.not_true, Bool.false_eq_true]
        rfl
      · simp
      · simp
    obtain ⟨u, hexec, hchan, hrd⟩ := hexec
    refine ⟨_, hexec, ?_⟩
    have hfate : edgeFate (u.chan p ch) (u.fld p (chAddr p ch 0) 16 16) (s.mkHeld p
        ((s.tdc p (s.inService p (tdcStamp p ch))).stamp e) f e.code (s.inService p (tdcStamp p ch) ≠ tdcStamp p ch)
        (!(s.tdc p (s.inService p (tdcStamp p ch))).passed)) = .record :=
      edgeFate_of_far (by rw [hchan]; exact hfar) (by rw [State.fld_congr (hrd _)]; exact hdiv)
    obtain ⟨seq, gs, hqueue, hlast⟩ := State.chan_takeEdge hfate (by rw [State.bit, State.fld_congr (hrd _)]; exact hq) (by rw [hchan]; exact hroom)
    rw [hqueue, hlast, hchan]
    simp [mkRec, State.mkHeld]
  case runt =>
    intro s p ch w f e hch hdrop hw
    have hno : ¬ chanCount p ≤ ch := by omega
    simp only [exec, execStampEdge, hno, hdrop, qualifies_of_runt hw, if_false, Bool.not_false, if_true, Bool.false_eq_true]
    refine ⟨_, rfl, by simp, by simp, ?_, by simp [State.draw]⟩
    simp
  case dropped =>
    intro s p ch w f e hch hdrop
    have hno : ¬ chanCount p ≤ ch := by omega
    simp [exec, execStampEdge, hno, hdrop]
  case untaken =>
    intro s p ch w f e hch hdrop hw hedge
    have hno : ¬ chanCount p ≤ ch := by omega
    have hother : takesEdge (s.fld p (chAddr p ch 0) 1 2) f = false := by
      rw [hedge]
      cases f <;> rfl
    simp only [exec, execStampEdge, hno, hdrop, if_false]
    rw [if_neg Bool.false_ne_true, qualifies_of_long hw]
    exact (if_neg Bool.false_ne_true).trans (if_pos (by rw [hother]; rfl))
  case noChannel =>
    intro s p ch w f e hch
    simp [exec, execStampEdge, hch]
  case pop =>
    intro s p v ch n howns hn
    have hno : ¬ (s.chan p ch).queue.length < n := by omega
    simp [exec, execStampPop, howns, hno]
  case popEmpty =>
    intro s p v ch n howns hn
    simp only [exec, execStampPop, howns, hn, Bool.not_true, Bool.false_eq_true, if_false, if_true]
    refine ⟨_, rfl, ?_, State.bit_setBit_self _ _ _ 17 _⟩
    simp [List.drop_eq_nil_of_le hn.le]
  case popForeign =>
    intro s p v ch n howns
    simp only [exec, execStampPop, howns, Bool.not_false, if_true]
    refine ⟨_, rfl, by simp, ?_⟩
    rw [State.bit, State.fld_congr (State.rd_viewRefused_chAddr ..)]
    exact State.bit_setBit_self _ _ _ 18 _

end Sys2Proof.Machine

/-! The refutation of O17: a Baxel's ring write waits while its memory port has 256 writes outstanding (R411). -/

namespace Sys2Proof.Machine

/-- R411: a write on a port with 256 outstanding waits, and nothing goes out. -/
theorem State.out_bxWriteLine_of_full {s : State} {port : Nat} (hfull : 256 ≤ s.writesOn port) (a : Nat) (bs : List Byte)
    (tag : Nat) (use : MemUse) : (s.bxWriteLine port a bs tag use).out = s.out := by
  simp [State.bxWriteLine, hfull]

/-- R81: a Baxel drains the oldest record by a write to its die memory. -/
theorem execRingRecordWritten_of_room {s : State} {ch : Nat} {r : StampRec} {rest : List StampRec}
    (hq : (s.chan .baxel ch).queue = r :: rest) (hdrain : s.bit .baxel (chAddr .baxel ch 0) 3 = true)
    (hsize : (s.rd .baxel (chAddr .baxel ch 0x48)).toNat ≠ 0)
    (hroom : (s.rd .baxel (chAddr .baxel ch 0x4C) - s.rd .baxel (chAddr .baxel ch 0x50)).toNat ≠
      (s.rd .baxel (chAddr .baxel ch 0x48)).toNat) (hbusy : s.ringBusy ch = false) :
    execRingRecordWritten .baxel ch s = .next ((s.modChan .baxel ch fun c => { c with queue := rest }).bxWrite
      ((s.rd64 .baxel (chAddr .baxel ch 0x40)).toNat + (s.rd .baxel (chAddr .baxel ch 0x4C)).toNat %
        (s.rd .baxel (chAddr .baxel ch 0x48)).toNat * 32) (recBytes r)
      (memTag (if s.bit .baxel (chAddr .baxel ch 0) 6 then some (s.fld .baxel (chAddr .baxel ch 0) 4 2) else none))
      (.ring ch)) := by
  simp only [execRingRecordWritten, hq]
  rw [if_neg (by simp only [hdrain, hsize, hroom, hbusy]; decide)]

/-- A record of a stamp queue. -/
def ringRec : StampRec := ⟨0, .zero, 0, 0, 0, 0, 0, 0, 0⟩

/-- A Baxel with 256 writes outstanding on memory port 0, and a record of channel 0 to drain to a ring at address 0. -/
@[irreducible] def ringPortFull : State :=
  (((State.reset.modBx fun b => { b with writes := (List.range 256).map fun k => (k, ⟨0, 64, 0, .landed, 0, false, []⟩) }).modChan
    .baxel 0 fun c => { c with queue := [ringRec] }).setBit .baxel (chAddr .baxel 0 0) 3 true).wr .baxel (chAddr .baxel 0 0x48) 64

/-- Refutes O17: in `ringPortFull` the record leaves its queue and its write waits, so nothing is driven out (R411). -/
theorem not_ringsAndChannelWords : ¬ Obligations.RingsAndChannelWords := by
  unfold Obligations.RingsAndChannelWords
  rintro ⟨-, hdrain, -⟩
  obtain ⟨t, hexec, -, -, -, hout⟩ := hdrain ringPortFull 0 ringRec [] (by decide +kernel) (by decide +kernel)
    (by decide +kernel) (by decide +kernel) (by decide +kernel)
  have hline : linesOf 2 0 (recBytes ringRec) = [(0, recBytes ringRec)] := by decide +kernel
  have haddr : (ringPortFull.rd64 .baxel (chAddr .baxel 0 0x40)).toNat + (ringPortFull.rd .baxel (chAddr .baxel 0 0x4C)).toNat %
      (ringPortFull.rd .baxel (chAddr .baxel 0 0x48)).toNat * 32 = 0 := by decide +kernel
  have hwaits := execRingRecordWritten_of_room (s := ringPortFull) (ch := 0) (r := ringRec) (rest := []) (by decide +kernel)
    (by decide +kernel) (by decide +kernel) (by decide +kernel) (by decide +kernel)
  rw [haddr, State.bxWrite, show (recBytes ringRec).length / 64 + 2 = 2 by decide +kernel, hline] at hwaits
  have ht : _ = t := Host.Outcome.next.inj (hwaits.symm.trans hexec)
  rw [← ht] at hout
  exact hout (State.out_bxWriteLine_of_full (by decide +kernel) _ _ _ _)

end Sys2Proof.Machine

/-! The proof of O18: windows, external edges and the software bit move a gate (R75 to R77). -/

namespace Sys2Proof.Machine

/-- What each step of a fold keeps, the fold keeps. -/
theorem foldl_keeps {α β γ : Type} {f : β → α → β} {g : β → γ} (l : List α) (b : β) (h : ∀ b, ∀ x ∈ l, g (f b x) = g b) :
    g (l.foldl f b) = g b := by
  induction l generalizing b with
  | nil => rfl
  | cons x l ih =>
    rw [List.foldl_cons, ih _ fun b y hy => h b y (List.mem_cons_of_mem x hy)]
    exact h b x List.mem_cons_self

section
variable {s : State} {p : Part} {g ch : Nat}

/-! ### What records and measurements leave of the gates -/

/-- What the gates and their registers are: the words below those of the frequency engines (R88). -/
def State.gates (s : State) (p : Part) : FMap StampGate := (s.pc p).stamp.gates

theorem State.gate_congr {t : State} (h : t.gates p = s.gates p) (g : Nat) : t.gate p g = s.gate p g :=
  congrArg (fun m : FMap StampGate => FMap.getD m g {}) h

@[simp] theorem State.gates_count (e : Ev) (n : Nat) : (s.count e n).gates p = s.gates p := by simp [State.gates]

@[simp] theorem State.gates_modTime (f : TimeUnit → TimeUnit) : (s.modTime p f).gates p = s.gates p := by
  simp [State.gates]

@[simp] theorem State.gates_draw : s.draw.2.gates p = s.gates p := by cases p <;> rfl

@[simp] theorem State.gates_wr (a : Nat) (v : Word) : (s.wr p a v).gates p = s.gates p := by cases p <;> rfl

@[simp] theorem State.gates_wr64 (a : Nat) (v : BitVec 64) : (s.wr64 p a v).gates p = s.gates p := by cases p <;> rfl

@[simp] theorem State.gates_wrOt (a : Nat) (x : OT) : (s.wrOt p a x).gates p = s.gates p := by cases p <;> rfl

@[simp] theorem State.gates_setFld (a lo len v : Nat) : (s.setFld p a lo len v).gates p = s.gates p := by
  cases p <;> rfl

@[simp] theorem State.gates_setBit (a i : Nat) (b : Bool) : (s.setBit p a i b).gates p = s.gates p := by
  cases p <;> rfl

@[simp] theorem State.gates_modChan (f : StampChannel → StampChannel) : (s.modChan p ch f).gates p = s.gates p := by
  cases p <;> rfl

@[simp] theorem State.gates_modFreq (f : FreqEngine → FreqEngine) : (s.modFreq p g f).gates p = s.gates p := by
  cases p <;> rfl

@[simp] theorem State.gates_pushRec (r : StampRec) : (s.pushRec p ch r).gates p = s.gates p := by
  unfold State.pushRec
  split <;> simp

@[simp] theorem State.gates_takeEdge (e : HeldEdge) : (s.takeEdge p ch e).gates p = s.gates p := by
  simp only [State.takeEdge]
  split
  · simp
  · simp
  · split <;> split <;> simp

@[simp] theorem State.gates_gateRec (h : HeldEdge) : (s.gateRec p g h).gates p = s.gates p := by
  simp only [State.gateRec]
  split
  · refine foldl_keeps (g := fun s : State => s.gates p) _ _ fun t ch _ => ?_
    split <;> simp
  · rfl

@[simp] theorem State.gates_freqComplete (l : List (Nat × HeldEdge)) (a b : Bool) :
    (s.freqComplete p g l a b).gates p = s.gates p := by
  simp only [State.freqComplete]
  split
  · simp
  · split <;> simp

/-! ### Their registers -/

/-- R74, R79, R80: a record writes words of its channel alone. -/
theorem State.rd_pushRec {off : Nat} (hch : ch < chanCount p) (hoff : 0x6800 ≤ off) (r : StampRec) :
    (s.pushRec p ch r).rd p (tAddr p off) = s.rd p (tAddr p off) := by
  have hch8 : ch < 8 := by cases p <;> simp only [chanCount] at hch <;> omega
  unfold State.pushRec
  split
  · exact State.modChan_rd ..
  · simp only [State.rd_count_evCh, State.rd_setBit, chAddr, tAddr_inj, true_and]
    rw [if_neg (by omega), if_neg (by omega)]

theorem State.rd_countCh {off o : Nat} (hch : ch < chanCount p) (ho : o < 0x100) (hoff : 0x6800 ≤ off) (lo len n : Nat) :
    (s.count (evCh p ch o lo len) n).rd p (tAddr p off) = s.rd p (tAddr p off) := by
  have hch8 : ch < 8 := by cases p <;> simp only [chanCount] at hch <;> omega
  refine State.rd_count_narrow_ne s _ n p ?_ rfl
  simp only [evCh, chAddr, ne_eq, tAddr_inj]
  omega

theorem State.rd_takeEdge {off : Nat} (hch : ch < chanCount p) (hoff : 0x6800 ≤ off) (e : HeldEdge) :
    (s.takeEdge p ch e).rd p (tAddr p off) = s.rd p (tAddr p off) := by
  have hcount := fun (s : State) o (ho : o < 0x100) len => State.rd_countCh (s := s) hch ho hoff 0 len 1
  simp only [State.takeEdge]
  split
  · rw [State.modChan_rd, hcount _ _ (by decide), hcount _ _ (by decide)]
  · rw [State.modChan_rd, hcount _ _ (by decide)]
  · split <;> split <;> simp only [State.modChan_rd, State.rd_pushRec hch hoff, hcount _ 0x14 (by decide)]

theorem mem_groupChans : ch ∈ groupChans p g ↔ ch < chanCount p ∧ groupOf ch = g := by
  simp [groupChans]

theorem State.rd_gateRec {off : Nat} (hoff : 0x6800 ≤ off) (h : HeldEdge) :
    (s.gateRec p g h).rd p (tAddr p off) = s.rd p (tAddr p off) := by
  simp only [State.gateRec]
  split
  · refine foldl_keeps (g := fun s : State => s.rd p (tAddr p off)) _ _ fun t ch hmem => ?_
    split
    · exact State.rd_pushRec (mem_groupChans.mp hmem).1 hoff _
    · rfl
  · rfl

/-- R83 to R85: a measurement writes words of its engine alone. -/
theorem State.rd_freqComplete {off : Nat} (hoff : off < 0x6900) (l : List (Nat × HeldEdge)) (a b : Bool) :
    (s.freqComplete p g l a b).rd p (tAddr p off) = s.rd p (tAddr p off) := by
  have hne : ∀ k n, ¬ off = 0x6900 + 0x80 * g + k + n := by omega
  have hne' : ∀ k, ¬ off = 0x6900 + 0x80 * g + k := by omega
  have hne0 : ¬ off = 0x6900 + 0x80 * g := by omega
  simp only [State.freqComplete]
  split
  · simp [State.rd_wrOt, State.rd_wr, State.rd_wr64, State.rd_setFld, fqAddr, hne, hne', hne0]
  · split <;> simp [State.rd_wrOt, State.rd_wr, State.rd_wr64, State.rd_setFld, fqAddr, hne, hne', hne0]

/-! ### A gate that opens and one that closes (R75, R76) -/

theorem State.gate_gateOpens (h : HeldEdge) :
    (s.gateOpens p g h).gate p g = { s.gate p g with isOpen := true, tOpen := h.raw } := by
  simp only [State.gateOpens]
  rw [State.gate_congr (s := s.modGate p g fun x => { x with isOpen := true, tOpen := h.raw }), State.gate_modGate]
  have hchans : ∀ t : State, ((groupChans p g).foldl (fun s ch => s.modChan p ch fun c =>
      { c with held := c.held.filter fun e => 0 ≤ Raw.diff e.raw h.raw, edges := 0, recs := 0, skipped := false }) t).gates p =
      t.gates p := fun t => foldl_keeps (g := fun s : State => s.gates p) _ _ fun t ch _ => by simp
  split <;> simp [hchans]

theorem State.rd_gateOpens {off : Nat} (hoff : 0x6800 ≤ off) (h : HeldEdge) :
    (s.gateOpens p g h).rd p (tAddr p off) =
      ((s.modGate p g fun x => { x with isOpen := true, tOpen := h.raw }).count
        { part := p, addr := gtAddr p g 0x1C, base := gtAddr p g 0x1C, len := 16 }).rd p (tAddr p off) := by
  simp only [State.gateOpens]
  rw [State.rd_gateRec hoff]
  have hchans : ∀ t : State, ((groupChans p g).foldl (fun s ch => s.modChan p ch fun c =>
      { c with held := c.held.filter fun e => 0 ≤ Raw.diff e.raw h.raw, edges := 0, recs := 0, skipped := false }) t).rd p
        (tAddr p off) = t.rd p (tAddr p off) :=
    fun t => foldl_keeps (g := fun s : State => s.rd p (tAddr p off)) _ _ fun t ch _ => by simp
  split <;> simp [hchans]

/-- R75: GATE_SEQ advances as a gate opens. -/
theorem State.gateSeq_gateOpens (h : HeldEdge) :
    (s.gateOpens p g h).fld p (gtAddr p g 0x1C) 0 16 = (s.fld p (gtAddr p g 0x1C) 0 16 + 1) % 65536 := by
  have hseq := State.fld_count_self (s.modGate p g fun x => { x with isOpen := true, tOpen := h.raw })
    { part := p, addr := gtAddr p g 0x1C, base := gtAddr p g 0x1C, len := 16 } 1 rfl rfl rfl (Nat.le_add_left 16 16)
  rw [State.modGate_fld] at hseq
  refine (State.fld_congr ?_ 0 16).trans hseq
  exact State.rd_gateOpens (Nat.le_add_right_of_le (Nat.le_add_right ..)) h

theorem State.ctrl_gateOpens (h : HeldEdge) : (s.gateOpens p g h).rd p (gtAddr p g 0) = s.rd p (gtAddr p g 0) := by
  rw [gtAddr, State.rd_gateOpens (Nat.le_add_right_of_le (Nat.le_add_right ..)),
    State.rd_count_narrow_ne _ _ _ _ (by simp [gtAddr]) rfl, State.modGate_rd]

/-- R76: the edges of an opening recorded, channel by channel. -/
def State.closeChans (s : State) (p : Part) (g : Nat) (close : Raw) : State :=
  (groupChans p g).foldl (fun s' ch =>
    ((s'.heldInside p ch (some close)).foldl (fun s e => s.takeEdge p ch e) s').modChan p ch fun c =>
      { c with held := c.held.filter fun e => 0 ≤ Raw.diff e.raw close }) s

@[simp] theorem State.gates_closeChans (close : Raw) : (s.closeChans p g close).gates p = s.gates p := by
  refine foldl_keeps (g := fun s : State => s.gates p) _ _ fun t ch _ => ?_
  rw [State.gates_modChan]
  exact foldl_keeps (g := fun s : State => s.gates p) _ _ fun u e _ => State.gates_takeEdge e

theorem State.rd_closeChans {off : Nat} (hoff : 0x6800 ≤ off) (close : Raw) :
    (s.closeChans p g close).rd p (tAddr p off) = s.rd p (tAddr p off) := by
  refine foldl_keeps (g := fun s : State => s.rd p (tAddr p off)) _ _ fun t ch hmem => ?_
  rw [State.modChan_rd]
  exact foldl_keeps (g := fun s : State => s.rd p (tAddr p off)) _ _ fun u e _ =>
    State.rd_takeEdge (mem_groupChans.mp hmem).1 hoff e

theorem State.gateCloses_eq (h : HeldEdge) : ∃ u : State, u.gates p = s.gates p ∧
    (∀ off, 0x6800 ≤ off → off < 0x6900 → u.rd p (tAddr p off) = s.rd p (tAddr p off)) ∧
    s.gateCloses p g h = ((u.closeChans p g h.raw).modGate p g fun x => { x with isOpen := false }).gateRec p g h := by
  refine ⟨_, ?_, ?_, rfl⟩
  · split <;> simp
  · intro off _ hoff
    split
    · exact State.rd_freqComplete hoff ..
    · rfl

theorem State.gate_gateCloses (h : HeldEdge) : (s.gateCloses p g h).gate p g = { s.gate p g with isOpen := false } := by
  obtain ⟨u, hgates, -, heq⟩ := State.gateCloses_eq (s := s) (p := p) (g := g) h
  rw [heq, State.gate_congr (State.gates_gateRec h), State.gate_modGate,
    State.gate_congr ((State.gates_closeChans h.raw).trans hgates)]

theorem State.ctrl_gateCloses (hg : g < groupCount p) (h : HeldEdge) :
    (s.gateCloses p g h).rd p (gtAddr p g 0) = s.rd p (gtAddr p g 0) := by
  obtain ⟨u, -, hrd, heq⟩ := State.gateCloses_eq (s := s) (p := p) (g := g) h
  have hlow : 0x6800 ≤ 0x6800 + 0x40 * g + 0 := by omega
  have hhigh : 0x6800 + 0x40 * g + 0 < 0x6900 := by cases p <;> simp only [groupCount] at hg <;> omega
  rw [heq, gtAddr, State.rd_gateRec hlow, State.modGate_rd, State.rd_closeChans hlow, hrd _ hlow hhigh]

/-! ### Moves of a gate -/

theorem State.gateMove_opens (hclosed : (s.gate p g).isOpen = false) (h : HeldEdge) :
    s.gateMove p g true h = (s.modTime p fun t => t.noteWrap h.raw).gateOpens p g h := by
  simp [State.gateMove, hclosed]

theorem State.gateMove_closes (hopen : (s.gate p g).isOpen = true) (h : HeldEdge) :
    s.gateMove p g false h = (s.modTime p fun t => t.noteWrap h.raw).gateCloses p g h := by
  simp [State.gateMove, hopen]

theorem State.gate_gateMove_opens (hclosed : (s.gate p g).isOpen = false) (h : HeldEdge) :
    (s.gateMove p g true h).gate p g = { s.gate p g with isOpen := true, tOpen := h.raw } := by
  rw [State.gateMove_opens hclosed, State.gate_gateOpens, State.gate_congr (State.gates_modTime _)]

theorem State.gate_gateMove_closes (hopen : (s.gate p g).isOpen = true) (h : HeldEdge) :
    (s.gateMove p g false h).gate p g = { s.gate p g with isOpen := false } := by
  rw [State.gateMove_closes hopen, State.gate_gateCloses, State.gate_congr (State.gates_modTime _)]

theorem State.isOpen_gateMove_false (h : HeldEdge) : ((s.gateMove p g false h).gate p g).isOpen = false := by
  cases hopen : (s.gate p g).isOpen
  · simp [State.gateMove, hopen]
  · rw [State.gate_gateMove_closes hopen]

end

/-- R77: a stamped edge of an external input, its phase of 64 ns or more, moves the gate. -/
theorem execGateInputEdge_of_stamp {s : State} {p : Part} {g i phase : Nat} {rising : Bool} {e : EdgeStamp} {raw : Raw}
    (hg : g < groupCount p) (hmode : s.fld p (gtAddr p g 0) 0 2 = 1) (hdrop : (s.gate p g).dropNext = false)
    (hphase : 64 * 65536 ≤ phase) (hstamp : s.pairStamp p (tdcGate p g) e = some (i, raw)) :
    ∃ (u : State) (h : HeldEdge), exec (.gateInputEdge p g rising phase e) s =
      .next (u.gateMove p g (rising ≠ s.bit p (gtAddr p g 0) 2) h) ∧ u.gates p = s.gates p ∧ h.raw = raw := by
  have hno : ¬ groupCount p ≤ g := by omega
  have hlong : ¬ phase < 64 * 65536 := by omega
  have hdraw : s.draw.2.pairStamp p (tdcGate p g) e = some (i, raw) := by
    rw [← hstamp]
    cases p <;> rfl
  have hbit : s.draw.2.bit p (gtAddr p g 0) 2 = s.bit p (gtAddr p g 0) 2 := by
    cases p <;> rfl
  refine ⟨s.draw.2, s.draw.2.mkHeld p raw (!decide (rising ≠ s.bit p (gtAddr p g 0) 2)) e.code (i ≠ tdcGate p g)
    (!(s.draw.2.tdc p i).passed), ?_, State.gates_draw, rfl⟩
  simp only [exec, execGateInputEdge, hdrop, hdraw, hbit]
  rw [if_neg (by simp [hmode, hno]), if_neg Bool.false_ne_true, if_neg hlong]

/-- Settles O18: each gate moves by R75's rules, and a move writes its gate and the words of its group alone. -/
theorem gatesOpenAndClose : Obligations.GatesOpenAndClose := by
  unfold Obligations.GatesOpenAndClose
  refine ⟨?armed, ?badOpen, ?badClose, ?badOrder, ?windowOpens, ?windowCloses, ?windowWaits, ?softOpens, ?softCloses,
    ?softOther, ?phaseShort, ?phaseDropped, ?edgeOpens, ?edgeCloses⟩
  case armed =>
    intro s p g hg ho hc horder
    have hno : ¬ groupCount p ≤ g := by omega
    have hord : ¬ otDiff (s.rdOt p (gtAddr p g 0x10)) (s.rdOt p (gtAddr p g 0x04)) ≤ 0 := by omega
    simp only [exec, execArmWin, ho, hc, hno, hord, if_false]
    refine ⟨_, rfl, ?_, ?_, ?_, ?_⟩
    · intro hwin
      simp [State.gate_congr (State.gates_setFld ..), hwin]
    · intro w hwin
      simp [State.gate_congr (State.gates_setFld ..), hwin]
    · rw [State.modGate_fld]
      exact State.fld_setFld_self _ _ _ (Nat.le_add_left 16 16) _
    · rw [State.gate_modGate, State.gate_congr (State.gates_setFld ..)]
      split <;> rfl
  case badOpen =>
    intro s p g k hg ho
    have hno : ¬ groupCount p ≤ g := by omega
    simp [exec, execArmWin, ho, hno]
  case badClose =>
    intro s p g k hg ho hc
    have hno : ¬ groupCount p ≤ g := by omega
    simp [exec, execArmWin, ho, hc, hno]
  case badOrder =>
    intro s p g hg ho hc horder
    have hno : ¬ groupCount p ≤ g := by omega
    simp [exec, execArmWin, ho, hc, hno, horder]
  case windowOpens =>
    intro s p g o c hmode hwin hclosed hreached
    simp only [exec, execGateWindowEdge, hwin, hmode, hclosed, hreached]
    refine ⟨_, rfl, ?_, ?_, ?_⟩
    · simp [State.gate_gateMove_opens hclosed]
    · simp [State.gate_gateMove_opens hclosed, State.mkHeld]
    · simp only [if_true, State.gateMove_opens hclosed, State.gateSeq_gateOpens]
      rw [State.fld_congr (s := s) (by simp)]
  case windowCloses =>
    intro s p g o c hmode hwin hopen hreached
    simp only [exec, execGateWindowEdge, hwin, hmode, hopen, hreached]
    refine ⟨_, rfl, ?_⟩
    simp [State.gate_gateMove_closes hopen]
  case windowWaits =>
    intro s p g o c hwin hwaits
    simp only [exec, execGateWindowEdge, hwin]
    cases hopen : (s.gate p g).isOpen <;> simp only [hopen, if_true, if_false, Bool.false_eq_true] at hwaits <;> simp [hwaits]
  case softOpens =>
    intro s p g hg hmode hclosed
    have hgates : (s.setBit p (gtAddr p g 0) 3 true).gate p g = s.gate p g := State.gate_congr (State.gates_setBit ..) g
    simp only [exec, execSwOpen, hmode, hg, decide_true, Bool.and_self, if_true]
    refine ⟨_, rfl, ?_, ?_, ?_⟩
    · rw [State.gate_gateMove_opens (by rw [hgates]; exact hclosed)]
    · rw [State.gate_gateMove_opens (by rw [hgates]; exact hclosed)]
      rfl
    · rw [State.gateMove_opens (by rw [hgates]; exact hclosed), State.bit, State.fld_congr (State.ctrl_gateOpens _),
        State.fld_congr (t := State.modTime ..) (s := s.setBit p (gtAddr p g 0) 3 true) (by simp)]
      exact State.bit_setBit_self _ _ _ 3 _
  case softCloses =>
    intro s p g hg hmode hopen
    have hgates : (s.setBit p (gtAddr p g 0) 3 false).gate p g = s.gate p g := State.gate_congr (State.gates_setBit ..) g
    simp only [exec, execSwOpen, hmode, hg, decide_true, Bool.and_self, if_true]
    refine ⟨_, rfl, ?_, ?_⟩
    · rw [State.gate_gateMove_closes (by rw [hgates]; exact hopen)]
    · rw [State.gateMove_closes (by rw [hgates]; exact hopen), State.bit, State.fld_congr (State.ctrl_gateCloses hg _),
        State.fld_congr (t := State.modTime ..) (s := s.setBit p (gtAddr p g 0) 3 false) (by simp)]
      exact State.bit_setBit_self _ _ _ 3 _
  case softOther =>
    intro s p g level hmode
    simp [exec, execSwOpen, hmode]
  case phaseShort =>
    intro s p g rising phase e hg hmode hdrop hphase
    have hno : ¬ groupCount p ≤ g := by omega
    simp only [exec, execGateInputEdge, hdrop]
    refine ⟨_, (if_neg (by simp [hmode, hno])).trans ((if_neg Bool.false_ne_true).trans (if_pos hphase)), ?_⟩
    · have hkeep : ∀ (t : State) (b : Bool) (e : Ev), (if b then t.count e else t).gate p g = t.gate p g := fun t b e => by
        cases b
        · rfl
        · exact State.gate_congr (State.gates_count ..) g
      rw [hkeep, State.gate_modGate, State.gate_congr State.gates_draw]
      exact ⟨rfl, rfl⟩
  case phaseDropped =>
    intro s p g rising phase e hg hmode hdrop
    have hno : ¬ groupCount p ≤ g := by omega
    simp [exec, execGateInputEdge, hmode, hno, hdrop]
  case edgeOpens =>
    intro s p g i rising phase e raw hg hmode hdrop hphase hstamp hlevel hclosed
    obtain ⟨u, h, hexec, hgates, hraw⟩ := execGateInputEdge_of_stamp (rising := rising) hg hmode hdrop hphase hstamp
    have hto : decide (rising ≠ s.bit p (gtAddr p g 0) 2) = true := by simpa using hlevel
    rw [hto] at hexec
    refine ⟨_, hexec, ?_⟩
    rw [State.gate_gateMove_opens (by rw [State.gate_congr hgates]; exact hclosed)]
    exact ⟨rfl, hraw⟩
  case edgeCloses =>
    intro s p g i rising phase e raw hg hmode hdrop hphase hstamp hlevel
    obtain ⟨u, h, hexec, -, -⟩ := execGateInputEdge_of_stamp (rising := rising) hg hmode hdrop hphase hstamp
    have hto : decide (rising ≠ s.bit p (gtAddr p g 0) 2) = false := by simpa using hlevel
    rw [hto] at hexec
    exact ⟨_, hexec, State.isOpen_gateMove_false h⟩

end Sys2Proof.Machine

/-! The proof of O19: the frequency engine's arming, its end at MAXN and its retirement (R83 to R85). -/

namespace Sys2Proof.Machine

section
variable {s : State} {p : Part} {g : Nat}

theorem State.freq_congr {t : State} (h : (t.pc p).stamp.freqs = (s.pc p).stamp.freqs) (g : Nat) : t.freq p g = s.freq p g :=
  congrArg (fun m : FMap FreqEngine => FMap.getD m g {}) h

theorem State.freq_wr (a : Nat) (v : Word) : (s.wr p a v).freq p g = s.freq p g := by cases p <;> rfl

theorem State.freq_wr64 (a : Nat) (v : BitVec 64) : (s.wr64 p a v).freq p g = s.freq p g := by cases p <;> rfl

theorem State.freq_wrOt (a : Nat) (x : OT) : (s.wrOt p a x).freq p g = s.freq p g := by cases p <;> rfl

theorem State.freq_setFld (a lo len v : Nat) : (s.setFld p a lo len v).freq p g = s.freq p g := by cases p <;> rfl

theorem State.freq_draw : s.draw.2.freq p g = s.freq p g := by cases p <;> rfl

/-- R83: a measurement that ends leaves its engine neither running nor armed. -/
theorem State.freq_freqComplete (l : List (Nat × HeldEdge)) (a b : Bool) :
    (s.freqComplete p g l a b).freq p g = { s.freq p g with armed := false, running := false } := by
  simp only [State.freqComplete]
  split
  · simp [State.freq_wrOt, State.freq_wr, State.freq_wr64, State.freq_setFld]
  · split <;> simp [State.freq_wrOt, State.freq_wr, State.freq_wr64, State.freq_setFld, State.freq_draw]

/-- R83: RESULT_SEQ advances as a measurement ends. -/
theorem State.resultSeq_freqComplete (l : List (Nat × HeldEdge)) (a b : Bool) :
    (s.freqComplete p g l a b).rd p (fqAddr p g 0x10) = s.rd p (fqAddr p g 0x10) + 1 := by
  simp only [State.freqComplete]
  split
  · simp [State.rd_wrOt, State.rd_wr, State.rd_wr64, State.rd_setFld, fqAddr]
  · split <;> simp [State.rd_wrOt, State.rd_wr, State.rd_wr64, State.rd_setFld, fqAddr]

/-- R84: the flags of a result, as a number. -/
def resultFlags (sat runt step trunc span : Bool) (mismatch n : Nat) : Nat :=
  1 + (if sat then 2 else 0) + (if runt then 4 else 0) + (if step then 8 else 0) + (if trunc then 16 else 0) +
    (if span then 32 else 0) + mismatch * 64 + n * 2 ^ 15

/-- R84: the flags word of a measurement with three stamps or more. -/
theorem State.flags_freqComplete {l : List (Nat × HeldEdge)} (hthree : 3 ≤ l.length) (trunc span : Bool) :
    ∃ sat runt step, (s.freqComplete p g l trunc span).rd p (fqAddr p g 0x14) =
      BitVec.ofNat 32 (resultFlags sat runt step trunc span (s.fld p (fqAddr p g 0x14) 6 1) l.length) := by
  simp only [State.freqComplete]
  split
  · simp at hthree
  · next x0 e0 rest =>
    rw [if_neg (by omega)]
    refine ⟨((regress (((x0, e0) :: rest).map fun (x, h) => (((x : Int) - 0),
        if s.bit p (fqAddr p g 0) 2 then Raw.diff h.raw e0.raw else otDiff h.ot e0.ot))).rate
        (s.rd64 p (fqAddr p g 0x04)).toNat).2, decide (s.rd p (chAddr p (4 * g + s.fld p (fqAddr p g 0) 0 2) 0x10) ≠ (s.freq p g).runtStart),
      (!s.bit p (fqAddr p g 0) 2 && (s.freq p g).stepSeen), ?_⟩
    simp only [State.rd_wrOt, State.rd_wr, State.rd_wr64, State.rd_setFld, fqAddr, tAddr_inj, tAddr_add]
    simp [resultFlags]

/-- R84: READY is set in the flags of every result, and TRUNC where MAXN ended it. -/
theorem resultFlags_ready {sat runt step span : Bool} {mismatch n : Nat} :
    Word.get (BitVec.ofNat 32 (resultFlags sat runt step true span mismatch n)) 0 1 = 1 ∧
      Word.get (BitVec.ofNat 32 (resultFlags sat runt step true span mismatch n)) 4 1 = 1 := by
  have hlow : ∀ b : Bool, ∀ k, (if b then k else 0) = (if b then 1 else 0) * k := by
    intro b k
    cases b <;> simp
  have hbit : ∀ b : Bool, (if b then 1 else 0) ≤ 1 := by decide
  have h1 := hbit sat
  have h2 := hbit runt
  have h3 := hbit step
  simp only [Word.get, BitVec.toNat_ofNat, resultFlags, if_true]
  rw [hlow sat 2, hlow runt 4, hlow step 8, hlow span 32]
  omega

end

/-- Settles O19: the codes of an arm in their order, and the end of a measurement at MAXN. -/
theorem frequencyMeasurements : Obligations.FrequencyMeasurements := by
  unfold Obligations.FrequencyMeasurements
  refine ⟨?ready, ?nominal, ?armed, ?maxn, ?running, ?retire, ?mismatch⟩
  case ready =>
    intro s p g hg hready
    have hno : ¬ groupCount p ≤ g := by omega
    simp [exec, execFreqArm, hno, hready]
  case nominal =>
    intro s p g hg hready hnom
    have hno : ¬ groupCount p ≤ g := by omega
    simp only [exec, execFreqArm, hno, hready, hnom, if_false, if_true, Bool.false_eq_true]
  case armed =>
    intro s p g hg hready hnom
    have hno : ¬ groupCount p ≤ g := by omega
    have hhigh : ¬ (s.rd64 p (fqAddr p g 0x04)).toNat < 2 ^ 24 := by omega
    simp only [exec, execFreqArm, hno, hready, hhigh, if_false, Bool.false_eq_true]
  case maxn =>
    intro s p g hrun hthree hmaxn
    have hlen : 3 ≤ ((s.freqStamps p g none).take (s.maxn p g)).length := by
      rw [List.length_take]
      omega
    obtain ⟨sat, runt, step, hflags⟩ := State.flags_freqComplete (s := s) (p := p) (g := g) hlen true false
    refine ⟨_, congrArg Host.Outcome.next (if_pos (by simp [hrun, hmaxn])), ?_, ?_, State.resultSeq_freqComplete .., ?_, ?_⟩
    · rw [State.freq_freqComplete]
    · rw [State.freq_freqComplete]
    · rw [State.bit, State.fld, hflags, resultFlags_ready.1]
      rfl
    · rw [State.bit, State.fld, hflags, resultFlags_ready.2]
      rfl
  case running =>
    rintro s p g (h | h)
    · simp [exec, execFreqMaxnReached, h]
    · have hno : ¬ s.maxn p g ≤ (s.freqStamps p g none).length := by omega
      simp [exec, execFreqMaxnReached, hno]
  case retire =>
    intro s p g
    exact congrArg Host.Outcome.next (if_pos rfl)
  case mismatch =>
    intro s p g seq hseq
    exact congrArg Host.Outcome.next (if_neg hseq)

end Sys2Proof.Machine

/-! The proof of O20: what the six operations do to the object they name (R121 to R125). -/

namespace Sys2Proof.Machine

/-! ### What leaves every object as it is -/

section
variable {s t : State} {p : Part} {o : Nat}

theorem State.obj_congr (h : t.objs p = s.objs p) (o : Nat) : t.obj p o = s.obj p o :=
  congrArg (fun m : FMap Obj => FMap.getD m o {}) h

@[simp] theorem State.obj_modObj (f : Obj → Obj) : (s.modObj p o f).obj p o = f (s.obj p o) := by
  cases p <;> exact FMap.getD_update_self _ _ _ _

theorem State.obj_modObj_ne {i : Nat} (h : i ≠ o) (f : Obj → Obj) : (s.modObj p o f).obj p i = s.obj p i := by
  cases p <;> exact FMap.getD_update_ne _ h _ _ _

@[simp] theorem State.objs_count (e : Ev) (n : Nat) : (s.count e n).objs p = s.objs p := by
  cases p <;> simp [State.objs]

@[simp] theorem State.objs_emit (x : Out) : (s.emit x).objs p = s.objs p := by cases p <;> rfl

@[simp] theorem State.objs_wr (q : Part) (a : Nat) (v : Word) : (s.wr q a v).objs p = s.objs p := by
  cases p <;> simp [State.objs]

@[simp] theorem State.objs_setFld (q : Part) (a lo len v : Nat) : (s.setFld q a lo len v).objs p = s.objs p := by
  cases p <;> simp [State.objs]

@[simp] theorem State.objs_draw : s.draw.2.objs p = s.objs p := by cases p <;> rfl

@[simp] theorem State.objs_sample (ev : Nat) (d : Int) (port ten dom cls : Option Nat) :
    (s.sample p ev d port ten dom cls).objs p = s.objs p := by
  cases p <;> simp [State.objs]

@[simp] theorem State.objs_modTen (k : Nat) (f : Tenant → Tenant) : (s.modTen k f).objs p = s.objs p := by
  cases p <;> rfl

@[simp] theorem State.objs_modCtr (q : Part) (f : CtrUnit → CtrUnit) : (s.modCtr q f).objs p = s.objs p := by
  cases p <;> simp [State.objs]

@[simp] theorem State.objs_modSlot (k i : Nat) (f : Slot → Slot) : (s.modSlot k i f).objs p = s.objs p := by
  cases p <;> rfl

@[simp] theorem State.objs_sendCtl (m : Ctl) : (s.sendCtl m).objs p = s.objs p := by cases p <;> rfl

@[simp] theorem State.objs_complete (q : Part) (m k : Nat) (st : Code) (r i : List Byte) :
    (s.complete q m k st r i).objs p = s.objs p := by
  cases p <;> simp [State.objs]

@[simp] theorem State.objs_withdrawLp (k i : Nat) (e : Slot) : (s.withdrawLp k i e).objs p = s.objs p := by
  unfold State.withdrawLp
  split <;> simp

@[simp] theorem State.objs_modKs {f : Kresia → Kresia} (hf : ∀ k, (f k).objs = k.objs) : (s.modKs f).objs p = s.objs p := by
  cases p <;> simp [State.objs, State.modKs, hf]

@[simp] theorem State.objs_answer (r : ObjReq) (c : Code) (v : Nat) (w : Bool) : (s.answer r c v w).objs p = s.objs p := by
  unfold State.answer
  split
  · split <;> simp
  · simp
  · simp
  · split <;> simp
  · split <;> simp

@[simp] theorem State.objs_turnAway (r : ObjReq) (c : Code) : (s.turnAway r c).objs p = s.objs p := by
  cases r <;> simp [State.turnAway, State.viewCode]

@[simp] theorem State.objs_refuse (r : ObjReq) (c : Code) : (s.refuse r c).objs p = s.objs p := by
  unfold State.refuse
  split <;> simp

@[simp] theorem State.objs_bumpOpSeq (r : ObjReq) : (s.bumpOpSeq r).objs p = s.objs p := by
  cases r <;> simp [State.bumpOpSeq]

/-- R123, R130: a waiter that is no launch gate ends without a change of any object. -/
theorem State.objs_endWaiter {w : Waiter} (hw : ∀ i, w.source ≠ .gate i) (code : Code) :
    (s.endWaiter p o w code).objs p = s.objs p := by
  cases p
  · simp only [State.endWaiter]
    split
    · simp
    · simp [State.pushTcq]
    · next i h => exact absurd h (hw i)
    · simp
  · simp only [State.endWaiter]
    split <;> simp

/-! ### Frames of a request (R126, R129) -/

theorem State.fld_bumpOpSeq (r : ObjReq) {a : Nat} (ha : ∀ k pv i tag, r = .view k pv i tag → a ≠ tPage k 0x210)
    (lo len : Nat) : (s.bumpOpSeq r).fld .baxel a lo len = s.fld .baxel a lo len := by
  cases r with
  | view k pv i tag => exact State.fld_congr (State.rd_setFld_ne _ _ (ha k pv i tag rfl) _ _ _) lo len
  | _ => rfl

/-- R128: the partition words of the four tenants lie below the pages. -/
theorem State.objBase_bumpOpSeq (r : ObjReq) {k : Nat} (hk : k < 4) : (s.bumpOpSeq r).objBase k = s.objBase k :=
  State.fld_bumpOpSeq r (by simp only [tPage]; intros; omega) 0 12

theorem State.objCount_bumpOpSeq (r : ObjReq) {k : Nat} (hk : k < 4) : (s.bumpOpSeq r).objCount k = s.objCount k :=
  State.fld_bumpOpSeq r (by simp only [tPage]; intros; omega) 12 13

theorem State.reqN_bumpOpSeq (r : ObjReq) : (s.bumpOpSeq r).reqN r = s.reqN r := by
  cases r with
  | view k _ _ _ => exact State.fld_bumpOpSeq _ (by rintro _ _ _ _ ⟨⟩; simp only [tPage]; omega) 0 31
  | _ => rfl

theorem State.reqObj_bumpOpSeq (r : ObjReq) : (s.bumpOpSeq r).reqObj r = s.reqObj r := by
  cases r with
  | view k pv i tag =>
    have hpart : ∀ lo len, (s.bumpOpSeq (.view k pv i tag)).fld .baxel (0x0500 + 4 * k) lo len =
        s.fld .baxel (0x0500 + 4 * k) lo len :=
      State.fld_bumpOpSeq _ (by rintro _ _ _ _ ⟨⟩; simp only [tPage]; omega)
    have hcount : (s.bumpOpSeq (.view k pv i tag)).objCount k = s.objCount k := hpart 12 13
    have hbase : (s.bumpOpSeq (.view k pv i tag)).objBase k = s.objBase k := hpart 0 12
    simp only [State.reqObj]
    rw [hcount, hbase]
  | _ => rfl

theorem State.obj_bumpOpSeq (r : ObjReq) : (s.bumpOpSeq r).obj p o = s.obj p o :=
  State.obj_congr (State.objs_bumpOpSeq r) o

theorem State.ten_bumpOpSeq (r : ObjReq) (k : Nat) : (s.bumpOpSeq r).ten k = s.ten k := by
  cases r <;> simp [State.bumpOpSeq, State.ten]

theorem State.raw_bumpOpSeq (r : ObjReq) : (s.bumpOpSeq r).raw p = s.raw p := by
  cases r <;> simp [State.bumpOpSeq, State.raw]

theorem State.objOwner_bumpOpSeq (r : ObjReq) (o : Nat) : (s.bumpOpSeq r).objOwner o = s.objOwner o := by
  have hb := fun k hk => State.objBase_bumpOpSeq (s := s) r (k := k) hk
  have hc := fun k hk => State.objCount_bumpOpSeq (s := s) r (k := k) hk
  simp only [State.objOwner, show List.range 4 = [0, 1, 2, 3] from rfl, List.find?_cons, List.find?_nil]
  rw [hb 0 (by decide), hb 1 (by decide), hb 2 (by decide), hb 3 (by decide), hc 0 (by decide), hc 1 (by decide),
    hc 2 (by decide), hc 3 (by decide)]

/-- R126, R129: OP_SEQ is no ground of a refusal. -/
theorem State.refusal_bumpOpSeq (r : ObjReq) (needsN peek set : Bool) :
    (s.bumpOpSeq r).refusal r needsN peek set = s.refusal r needsN peek set := by
  simp [State.refusal, State.reqObj_bumpOpSeq, State.reqN_bumpOpSeq, State.obj_bumpOpSeq, State.objOwner_bumpOpSeq,
    State.ten_bumpOpSeq]

/-- R121: an accepted operation that is not refused runs on the object it names. -/
theorem State.objOp_runs {r : ObjReq} {needsN peek set : Bool} {f : State → Nat → State} (hacc : s.accepted r = true)
    (hok : s.refusal r needsN peek set = none) (ho : s.reqObj r = some o) :
    s.objOp r needsN peek set f = f (s.bumpOpSeq r) o := by
  simp [State.objOp, hacc, State.refusal_bumpOpSeq, hok, State.reqObj_bumpOpSeq, ho]

/-! ### Service (R123) -/

/-- R123: how many waiters an increase may serve in this cycle. -/
def State.serviceLeft (s : State) (p : Part) (o : Nat) : Nat := if (s.obj p o).servedAt = some (s.raw p) then 0 else 1

/-- R123: one cycle serves no launch gate. -/
theorem not_gate_of_served {v : Nat} {l : List Waiter} {w : Waiter} (h : w ∈ (serve 1 v l).2.1) (i : Nat) :
    w.source ≠ .gate i := by
  cases l with
  | nil => simp [serve] at h
  | cons x l =>
    simp only [serve] at h
    split at h
    · simp at h
    · next hgate =>
      split at h
      · have hx : w = x := by simpa using h
        subst hx
        exact fun hs => hgate i hs
      · simp at h

theorem serve_of_none {v : Nat} {l : List Waiter} (h : (serve 1 v l).2.1 = []) : serve 1 v l = (v, [], l) := by
  cases l with
  | nil => rfl
  | cons x l =>
    simp only [serve] at h ⊢
    split
    · rfl
    · split
      · simp_all
      · rfl

/-- R123: an object after service that completes waiters. -/
theorem State.obj_serveFor {k : Nat} (hdone : (Machine.serve k (s.obj p o).value (s.obj p o).waiters).2.1 ≠ [])
    (hgate : ∀ w ∈ (Machine.serve k (s.obj p o).value (s.obj p o).waiters).2.1, ∀ i, w.source ≠ .gate i) :
    (s.serveFor p o k).obj p o =
      { s.obj p o with
        value := (Machine.serve k (s.obj p o).value (s.obj p o).waiters).1
        waiters := (Machine.serve k (s.obj p o).value (s.obj p o).waiters).2.2
        servedAt := some (s.raw p) } := by
  simp only [State.serveFor]
  rw [if_neg (by simpa using hdone)]
  refine (State.obj_congr (foldl_keeps (g := fun s : State => s.objs p) _ _ fun u w hw => ?_) o).trans (State.obj_modObj _)
  refine (State.objs_endWaiter (hgate w hw) _).trans ?_
  cases p <;> simp

/-- R123: an object after the service an increase gives it. -/
theorem State.obj_serveObj (s : State) (p : Part) (o : Nat) : ∃ at', (s.serveObj p o).obj p o =
    { s.obj p o with
      value := (Machine.serve (s.serviceLeft p o) (s.obj p o).value (s.obj p o).waiters).1
      waiters := (Machine.serve (s.serviceLeft p o) (s.obj p o).value (s.obj p o).waiters).2.2
      servedAt := at' } := by
  by_cases hserved : (s.obj p o).servedAt = some (s.raw p)
  · exact ⟨(s.obj p o).servedAt, by
      rw [State.serveObj, State.serviceLeft, if_pos hserved, if_pos hserved]
      rfl⟩
  · rw [State.serveObj, State.serviceLeft, if_neg hserved, if_neg hserved]
    by_cases hdone : (Machine.serve 1 (s.obj p o).value (s.obj p o).waiters).2.1 = []
    · have hnone : s.serveFor p o 1 = s := by simp [State.serveFor, hdone]
      exact ⟨(s.obj p o).servedAt, by rw [hnone, serve_of_none hdone]⟩
    · exact ⟨_, State.obj_serveFor hdone fun w hw => not_gate_of_served hw⟩

/-! ### An object that has been poisoned (R125) -/

/-- R125: the object stands poisoned with a code, its value kept and no waiter left. -/
def Obj.Poisoned (x : Obj) (v : Nat) (c : Code) : Prop :=
  x.value = v ∧ x.poison = true ∧ x.poisonCode = c ∧ x.waiters = []

theorem FMap.find_mapVals {α : Type} (m : FMap α) (f : Nat → α → α) (k : Nat) :
    FMap.find? (FMap.mapVals m f) k = (FMap.find? m k).map (f k) := by
  induction m with
  | nil => rfl
  | cons x m ih =>
    obtain ⟨j, v⟩ := x
    have hih : FMap.find? (List.map (fun x => (x.1, f x.1 x.2)) m) k = (FMap.find? m k).map (f k) := ih
    simp only [FMap.mapVals, List.map_cons, FMap.find?]
    split_ifs with h
    · simp [h]
    · exact hih

variable {v : Nat} {c : Code}

theorem Obj.poisoned_congr (h : t.objs .baxel = s.objs .baxel) :
    (t.obj .baxel o).Poisoned v c ↔ (s.obj .baxel o).Poisoned v c := by
  rw [State.obj_congr h]

theorem Obj.poisoned_dropGate (k i : Nat) (h : (s.obj .baxel o).Poisoned v c) :
    ((s.dropGate k i).obj .baxel o).Poisoned v c := by
  have hobj : (s.dropGate k i).obj .baxel o =
      { s.obj .baxel o with waiters := (s.obj .baxel o).waiters.filter fun w => !w.isGate k i } := by
    simp only [State.obj, State.objs, State.dropGate, State.modBx, FMap.getD, FMap.find_mapVals]
    cases FMap.find? s.bx.objs o <;> rfl
  obtain ⟨hv, hp, hc, hw⟩ := h
  rw [hobj]
  exact ⟨hv, hp, hc, by simp [hw]⟩

theorem Obj.poisoned_slotVoid (k i : Nat) (h : (s.obj .baxel o).Poisoned v c) :
    ((s.slotVoid k i).obj .baxel o).Poisoned v c :=
  (Obj.poisoned_congr (by simp [State.slotVoid])).mpr (Obj.poisoned_dropGate k i h)

theorem Obj.poisoned_gateMiss (k i : Nat) (h : (s.obj .baxel o).Poisoned v c) :
    ((s.gateMiss k i).obj .baxel o).Poisoned v c := by
  have hcount : ((s.count (evT k 0x124)).obj .baxel o).Poisoned v c := (Obj.poisoned_congr (by simp)).mpr h
  simp only [State.gateMiss]
  split
  · exact (Obj.poisoned_congr (by simp)).mpr (Obj.poisoned_dropGate k i hcount)
  · exact (Obj.poisoned_congr (by simp)).mpr (Obj.poisoned_slotVoid k i hcount)

theorem Obj.poisoned_endWaiter (w : Waiter) (code : Code) {i : Nat} (h : (s.obj .baxel o).Poisoned v c) :
    ((s.endWaiter .baxel i w code).obj .baxel o).Poisoned v c := by
  by_cases hw : ∃ j, w.source = .gate j
  · obtain ⟨j, hj⟩ := hw
    simp only [State.endWaiter, hj]
    exact Obj.poisoned_gateMiss _ _ ((Obj.poisoned_congr (by simp)).mpr h)
  · exact (Obj.poisoned_congr (State.objs_endWaiter (not_exists.mp hw) code)).mpr h

theorem Obj.poisoned_foldl {α : Type} {f : State → α → State} (l : List α) (h : (s.obj .baxel o).Poisoned v c)
    (hf : ∀ s x, (State.obj s .baxel o).Poisoned v c → ((f s x).obj .baxel o).Poisoned v c) :
    ((l.foldl f s).obj .baxel o).Poisoned v c := by
  induction l generalizing s with
  | nil => exact h
  | cons x l ih => exact ih (hf s x h)

theorem Obj.poisoned_faultSlot (k i : Nat) (h : (s.obj .baxel o).Poisoned v c) :
    ((s.faultSlot k i).obj .baxel o).Poisoned v c := by
  have hvoid : (((s.slotVoid k i).count (evT k 0x104)).obj .baxel o).Poisoned v c :=
    (Obj.poisoned_congr (by simp)).mpr (Obj.poisoned_slotVoid k i h)
  simp only [State.faultSlot]
  split
  · exact hvoid
  · exact hvoid
  · exact hvoid
  · split
    · exact (Obj.poisoned_congr (by simp)).mpr h
    · exact h
  · exact h

theorem Obj.poisoned_endTenantWaiters (k : Nat) (code : Code) (h : (s.obj .baxel o).Poisoned v c) :
    ((s.endTenantWaiters k code).obj .baxel o).Poisoned v c := by
  refine Obj.poisoned_foldl _ h fun s x hs => ?_
  refine Obj.poisoned_foldl _ ?_ fun s w hs => ?_
  · split
    · exact hs
    · by_cases hx : o = x.1
      · obtain ⟨hv, hp, hc, hw⟩ := hs
        rw [← hx, State.obj_modObj]
        exact ⟨hv, hp, hc, by simp [hw]⟩
      · rw [State.obj_modObj_ne hx]
        exact hs
  · split
    · exact hs
    · exact Obj.poisoned_endWaiter w code hs

/-- R114: the fault of a tenant leaves a poisoned object as it is. -/
theorem Obj.poisoned_tenantFault (k : Nat) (cause : Code) (h : (s.obj .baxel o).Poisoned v c) :
    ((s.tenantFault k cause).obj .baxel o).Poisoned v c := by
  simp only [State.tenantFault]
  split
  · exact h
  · have hslots : ∀ u : State, (u.obj .baxel o).Poisoned v c →
        (((u.slotsOf k).foldl (fun s (i, _) => s.faultSlot k i) u).obj .baxel o).Poisoned v c := fun u hu =>
      Obj.poisoned_foldl _ hu fun s x hs => Obj.poisoned_faultSlot k x.1 hs
    have hmarked := (Obj.poisoned_congr (v := v) (c := c) (o := o) (t := (s.modTen k fun y => { y with faulted := true }).modCtr
      .baxel fun u => { u with banks := FMap.update u.banks (k + 1) {} fun b => { b with poison := true } })
      (s := s) (by simp)).mpr h
    split
    · refine (Obj.poisoned_congr ((State.objs_sendCtl _).trans (State.objs_emit _))).mpr ?_
      exact Obj.poisoned_endTenantWaiters k _ (hslots _ hmarked)
    · refine (Obj.poisoned_congr (State.objs_emit _)).mpr ?_
      exact Obj.poisoned_endTenantWaiters k _ (hslots _ hmarked)

/-- R125: an object poisoned keeps its value and loses its waiters. -/
theorem Obj.poisoned_poisonObj (s : State) (p : Part) (o : Nat) (c : Code) :
    ((s.poisonObj p o c).obj p o).Poisoned (s.obj p o).value c := by
  cases p with
  | baxel =>
    have hend : (((s.modObj .baxel o fun y => { y with poison := true, poisonCode := c }).endAll .baxel o 0x3003).obj .baxel
        o).Poisoned (s.obj .baxel o).value c := by
      refine Obj.poisoned_foldl _ ?_ fun s w hs => Obj.poisoned_endWaiter w _ hs
      simp [Obj.Poisoned]
    simp only [State.poisonObj]
    split
    · exact Obj.poisoned_tenantFault _ _ hend
    · exact hend
  | kresia =>
    have hkeep : ∀ (s : State) (w : Waiter) (code : Code), (s.endWaiter .kresia o w code).objs .kresia = s.objs .kresia := by
      intro s w code
      simp only [State.endWaiter]
      split <;> simp
    have hend : (((s.modObj .kresia o fun y => { y with poison := true, poisonCode := c }).endAll .kresia o 0x3003).obj
        .kresia o).Poisoned (s.obj .kresia o).value c := by
      simp only [State.endAll]
      rw [State.obj_congr (foldl_keeps (g := fun s : State => s.objs .kresia) _ _ fun u w _ => hkeep u w _)]
      simp [Obj.Poisoned]
    simp only [State.poisonObj]
    split
    · rw [State.obj_congr (State.objs_emit _)]
      exact hend
    · exact hend

/-! ### The operations -/

theorem State.raw_applyOt : (s.applyOt p).2.raw p = s.raw p := by
  cases p <;> rfl

theorem State.objs_applyOt : (s.applyOt p).2.objs p = s.objs p := by
  cases p <;> rfl

theorem State.raw_modObj (f : Obj → Obj) : (s.modObj p o f).raw p = s.raw p := by
  cases p <;> rfl

theorem State.obj_recordApply (a : Applier) : ∃ ot, (s.recordApply p o a).obj p o =
    { s.obj p o with lastSrc := a.src, srcKind := a.kind, lastPath := a.path, lastSeq := a.seq, lastOt := ot } :=
  ⟨(s.applyOt p).1, by simp only [State.recordApply, State.obj_modObj, State.obj_congr State.objs_applyOt]⟩

theorem State.raw_recordApply (a : Applier) : (s.recordApply p o a).raw p = s.raw p := by
  simp only [State.recordApply, State.raw_modObj, State.raw_applyOt]

/-- R144: a SIGNAL is counted for the tenant whose object it is. -/
def State.countSignal (s u : State) (p : Part) (o : Nat) : State :=
  match p with
  | .baxel => match s.objOwner o with
    | some t => u.count (evT t 0x230)
    | none => u
  | .kresia => u

theorem State.objs_countSignal : (s.countSignal t p o).objs p = t.objs p := by
  unfold State.countSignal
  split
  · split <;> simp
  · rfl

theorem State.raw_countSignal : (s.countSignal t p o).raw p = t.raw p := by
  unfold State.countSignal
  split
  · split
    · exact congrArg TimeUnit.raw (State.count_time ..)
    · rfl
  · rfl

theorem State.signalObj_fst {n : Nat} (a : Applier) (hn : ¬ objMax < (s.obj p o).value + n) : (s.signalObj p o n a).1 =
    (s.countSignal ((s.recordApply p o a).modObj p o fun y => { y with value := y.value + n, sigCount := y.sigCount + 1 })
      p o).serveObj p o := by
  simp only [State.signalObj, if_neg hn]
  rfl

/-- R121, R123: an object after a SIGNAL within its range. -/
theorem State.obj_signalObj {n : Nat} (a : Applier) (hn : (s.obj p o).value + n ≤ objMax) :
    ((s.signalObj p o n a).1.obj p o).value =
        (Machine.serve (s.serviceLeft p o) ((s.obj p o).value + n) (s.obj p o).waiters).1 ∧
      ((s.signalObj p o n a).1.obj p o).waiters =
        (Machine.serve (s.serviceLeft p o) ((s.obj p o).value + n) (s.obj p o).waiters).2.2 ∧
      ((s.signalObj p o n a).1.obj p o).sigCount = (s.obj p o).sigCount + 1 ∧
      ((s.signalObj p o n a).1.obj p o).poison = (s.obj p o).poison := by
  have hno : ¬ objMax < (s.obj p o).value + n := by omega
  obtain ⟨ot, hrec⟩ := State.obj_recordApply (s := s) (p := p) (o := o) a
  obtain ⟨at', hserve⟩ := (s.countSignal ((s.recordApply p o a).modObj p o fun y =>
    { y with value := y.value + n, sigCount := y.sigCount + 1 }) p o).obj_serveObj p o
  rw [State.signalObj_fst a hno, hserve]
  simp only [State.serviceLeft, State.obj_congr State.objs_countSignal, State.raw_countSignal, State.obj_modObj,
    State.raw_modObj, State.raw_recordApply, hrec]
  exact ⟨trivial, trivial, trivial, trivial⟩

end

/-- Settles O20: an operation accepted and not refused runs on its object, and the answer changes no object. -/
theorem objectOperations : Obligations.ObjectOperations := by
  unfold Obligations.ObjectOperations
  refine ⟨?signal, ?overflow, ?take, ?dec, ?underflow, ?set, ?peek⟩
  case signal =>
    intro s r o hacc hok ho hn
    refine ⟨_, congrArg Host.Outcome.next (State.objOp_runs hacc hok ho), ?_⟩
    have hsig := State.obj_signalObj (s := s.bumpOpSeq r) (p := reqPart r) (o := o) ((s.bumpOpSeq r).applier r)
      (n := s.reqN r) (by rw [State.obj_bumpOpSeq]; exact hn)
    simp only [State.serviceLeft, State.obj_bumpOpSeq, State.raw_bumpOpSeq] at hsig
    simp only [State.reqN_bumpOpSeq, State.obj_congr (State.objs_answer ..)]
    exact hsig
  case overflow =>
    intro s r o hacc hok ho hn
    refine ⟨_, congrArg Host.Outcome.next (State.objOp_runs hacc hok ho), ?_⟩
    have hover : (s.bumpOpSeq r).signalObj (reqPart r) o (s.reqN r) ((s.bumpOpSeq r).applier r) =
        ((s.bumpOpSeq r).poisonObj (reqPart r) o 0x3001, 0x3001) := by
      simp only [State.signalObj, State.obj_bumpOpSeq, if_pos hn]
    obtain ⟨hv, hp, hc, hw⟩ := Obj.poisoned_poisonObj (s.bumpOpSeq r) (reqPart r) o 0x3001
    rw [State.obj_bumpOpSeq] at hv
    simp only [State.reqN_bumpOpSeq, hover, State.obj_congr (State.objs_answer ..)]
    exact ⟨hv, hp, hc, hw⟩
  case take =>
    intro s r o hacc hok ho hw hn
    have hstall : s.countStall r = s := by
      simp only [State.countStall, State.needsSlot, hok, ho, hw, hn]
      split <;> rfl
    refine ⟨_, congrArg Host.Outcome.next ((congrArg (·.takeObj r) hstall).trans (State.objOp_runs hacc hok ho)), ?_⟩
    simp only [State.reqN_bumpOpSeq, State.obj_bumpOpSeq, hw, hn, List.isEmpty_nil, decide_true, Bool.and_self, if_true,
      State.obj_congr (State.objs_answer ..)]
    cases r <;> simp [State.obj_congr (State.objs_count ..), State.obj_bumpOpSeq] <;> exact hw
  case dec =>
    intro s r o hacc hok ho hn
    have hno : ¬ (s.obj (reqPart r) o).value < s.reqN r := by omega
    refine ⟨_, congrArg Host.Outcome.next (State.objOp_runs hacc hok ho), ?_⟩
    simp [State.decObj, State.reqN_bumpOpSeq, State.obj_bumpOpSeq, hno, State.obj_congr (State.objs_answer ..)]
  case underflow =>
    intro s r o hacc hok ho hn
    refine ⟨_, congrArg Host.Outcome.next (State.objOp_runs hacc hok ho), ?_⟩
    obtain ⟨hv, hp, hc, hw⟩ := Obj.poisoned_poisonObj (s.bumpOpSeq r) (reqPart r) o 0x3002
    rw [State.obj_bumpOpSeq] at hv
    simp only [State.decObj, State.reqN_bumpOpSeq, State.obj_bumpOpSeq, if_pos hn, State.obj_congr (State.objs_answer ..)]
    exact ⟨hv, hp, hc, hw⟩
  case set =>
    intro s r o hacc hok ho
    refine ⟨_, congrArg Host.Outcome.next (State.objOp_runs hacc hok ho), ?_⟩
    obtain ⟨ot, hrec⟩ := State.obj_recordApply (s := s.bumpOpSeq r) (p := reqPart r) (o := o) ((s.bumpOpSeq r).applier r)
    obtain ⟨at', hserve⟩ := (((s.bumpOpSeq r).recordApply (reqPart r) o ((s.bumpOpSeq r).applier r)).modObj (reqPart r) o
      fun y => { y with value := s.reqN r, poison := false, poisonCode := 0 }).obj_serveObj (reqPart r) o
    simp only [State.setObj, State.reqN_bumpOpSeq, State.obj_congr (State.objs_answer ..), hserve, State.serviceLeft,
      State.obj_modObj, State.raw_modObj, State.raw_recordApply, hrec, State.obj_bumpOpSeq, State.raw_bumpOpSeq]
    exact ⟨trivial, trivial, trivial⟩
  case peek =>
    intro s r o hacc hok ho
    refine ⟨_, congrArg Host.Outcome.next (State.objOp_runs hacc hok ho), by simp, ?_⟩
    rintro k tag n i rfl
    rfl

end Sys2Proof.Machine

/-! The proofs of O21 and O22: how waiting TAKEs join and leave (R121, R123, R130, R131), what a refusal leaves (R126), and
the words of the partitions (R128, R131, R137). -/

namespace Sys2Proof.Machine

section
variable {s : State} {p : Part} {o : Nat}

/-! ### A TAKE that waits -/

/-- R126: a Kresia refuses by its objects alone. -/
theorem State.refusal_of_sameObjs {t : State} {r : ObjReq} (hp : reqPart r = .kresia)
    (h : t.objs .kresia = s.objs .kresia) (needsN peek set : Bool) :
    t.refusal r needsN peek set = s.refusal r needsN peek set := by
  have hobj : ∀ o, t.obj .kresia o = s.obj .kresia o := State.obj_congr h
  have hN : t.reqN r = s.reqN r := by cases r <;> first | rfl | simp [reqPart] at hp
  have hO : t.reqObj r = s.reqObj r := by cases r <;> first | rfl | simp [reqPart] at hp
  simp only [State.refusal, hN, hO, hp, hobj]
  cases r <;> first | rfl | simp [reqPart] at hp

/-- R121, R126: a refused operation changes no object. -/
theorem State.objs_objOp_of_refused {r : ObjReq} {needsN peek set : Bool} {f : State → Nat → State} {code : Code}
    (h : s.refusal r needsN peek set = some code) : (s.objOp r needsN peek set f).objs p = s.objs p := by
  simp only [State.objOp, State.refusal_bumpOpSeq, h]
  split <;> simp

theorem State.objOp_of_not_accepted {r : ObjReq} {needsN peek set : Bool} {f : State → Nat → State}
    (h : s.accepted r = false) : s.objOp r needsN peek set f = s := by
  simp [State.objOp, h]

theorem State.countStall_of_baxel {r : ObjReq} (h : reqPart r = .baxel) : s.countStall r = s := by
  simp [State.countStall, h]

theorem State.countStall_of_room {r : ObjReq} (h : s.ksWaitRoom = true) : s.countStall r = s := by
  simp only [State.countStall, h]
  split
  · rfl
  · simp

theorem State.countStall_of_refused {r : ObjReq} {code : Code} (h : s.refusal r true false false = some code) :
    s.countStall r = s := by
  simp only [State.countStall, State.needsSlot, h]
  split
  · rfl
  · simp

/-- R121, R123: a TAKE that is not refused waits behind a waiter, or above VALUE. -/
theorem State.takeObj_waits {r : ObjReq} (hacc : s.accepted r = true) (hok : s.refusal r true false false = none)
    (ho : s.reqObj r = some o)
    (hwaits : (s.obj (reqPart r) o).waiters ≠ [] ∨ (s.obj (reqPart r) o).value < s.reqN r) :
    s.takeObj r = (s.bumpOpSeq r).takeWait r o := by
  have hno : ((s.obj (reqPart r) o).waiters.isEmpty && decide (s.reqN r ≤ (s.obj (reqPart r) o).value)) = false := by
    rcases hwaits with h | h
    · simp [h]
    · simp [Nat.not_le.mpr h]
  rw [State.takeObj, State.objOp_runs hacc hok ho]
  simp only [State.reqN_bumpOpSeq, State.obj_bumpOpSeq, hno]
  rfl

theorem State.reqObj_of_accepted {r : ObjReq} {needsN peek set : Bool} (hok : s.refusal r needsN peek set = none) :
    ∃ o, s.reqObj r = some o := by
  cases h : s.reqObj r with
  | none => simp [State.refusal, h] at hok
  | some o => exact ⟨o, rfl⟩

theorem State.reqObj_port {k tag n i : Nat} {needsN peek set : Bool}
    (hok : s.refusal (.port k tag n i) needsN peek set = none) : s.reqObj (.port k tag n i) = some i := by
  obtain ⟨o, ho⟩ := State.reqObj_of_accepted hok
  simp only [State.reqObj] at ho ⊢
  split at ho
  · simp_all
  · simp at ho

theorem State.reqObj_kresia {r : ObjReq} {d i n : Nat} (hr : r = .entry d i n o ∨ r = .engine d i n o)
    {needsN peek set : Bool} (hok : s.refusal r needsN peek set = none) : s.reqObj r = some o := by
  obtain ⟨o', ho⟩ := State.reqObj_of_accepted hok
  rcases hr with rfl | rfl <;>
  · simp only [State.reqObj] at ho ⊢
    split at ho
    · simp_all
    · simp at ho

theorem State.reqObj_view {k i tag : Nat} {pv needsN peek set : Bool}
    (hok : s.refusal (.view k pv i tag) needsN peek set = none) : s.reqObj (.view k pv i tag) = some (s.objBase k + i) := by
  obtain ⟨o', ho⟩ := State.reqObj_of_accepted hok
  simp only [State.reqObj] at ho ⊢
  split at ho
  · simp_all
  · simp at ho

/-- R131: the room of the waiter pool depends on the objects and the floors. -/
theorem State.waitRoom_bumpOpSeq (r : ObjReq) (t k : Nat) (ht : t < 4 ∨ ∃ pv i tag, r = .view t pv i tag) :
    (s.bumpOpSeq r).waitRoom t k = s.waitRoom t k := by
  have hobjs : (s.bumpOpSeq r).bx.objs = s.bx.objs := State.objs_bumpOpSeq (p := .baxel) r
  have hlow : ∀ u, u < 4 → (s.bumpOpSeq r).wfloor u = s.wfloor u := fun u hu =>
    State.fld_bumpOpSeq r (by simp only [tPage]; intros; omega) 0 12
  have hown : (s.bumpOpSeq r).wfloor t = s.wfloor t := by
    rcases ht with ht | ⟨pv, i, tag, rfl⟩
    · exact hlow t ht
    · exact State.fld_bumpOpSeq _ (by rintro _ _ _ _ ⟨⟩; simp only [tPage]; omega) 0 12
  have hused : ∀ u, (s.bumpOpSeq r).waitUsed u = s.waitUsed u := fun u => by rw [State.waitUsed, hobjs, State.waitUsed]
  simp only [State.waitRoom, hown, hused, show List.range 4 = [0, 1, 2, 3] from rfl, List.map_cons, List.map_nil,
    hlow 0 (by decide), hlow 1 (by decide), hlow 2 (by decide), hlow 3 (by decide)]

theorem State.viewWaiting_bumpOpSeq (r : ObjReq) (t : Nat) : (s.bumpOpSeq r).viewWaiting t = s.viewWaiting t := by
  rw [State.viewWaiting, show (s.bumpOpSeq r).bx.objs = s.bx.objs from State.objs_bumpOpSeq (p := .baxel) r, State.viewWaiting]

theorem execObjTake_of_takeObj {r : ObjReq} {t u : State} (hstall : s.countStall r = t) (htake : t.takeObj r = u) :
    exec (.objTake r) s = .next u :=
  congrArg Host.Outcome.next ((congrArg (fun x : State => x.takeObj r) hstall).trans htake)

/-! ### A TAKE that is withdrawn (R123, R130) -/

theorem State.raw_endWaiter {w : Waiter} (hw : ∀ i, w.source ≠ .gate i) (code : Code) :
    (s.endWaiter p o w code).raw p = s.raw p := by
  have hsample : ∀ q, (s.sample p 0xF0100 (Raw.diff (s.raw p) w.issued) (ten := some w.owner)).raw q = s.raw q := fun q =>
    congrArg TimeUnit.raw (State.sample_time ..)
  cases p
  · simp only [State.endWaiter]
    split
    · exact hsample .baxel
    · exact hsample .baxel
    · next i h => exact absurd h (hw i)
    · exact hsample .baxel
  · simp only [State.endWaiter]
    split
    · exact hsample .kresia
    · exact hsample .kresia
    · exact (congrArg TimeUnit.raw (State.complete_time ..)).trans (hsample .kresia)
    · exact hsample .kresia

/-- R123, R130: an object from which a waiting TAKE is withdrawn. -/
theorem State.obj_withdraw {w : Waiter} (hw : ∀ i, w.source ≠ .gate i) (code : Code) :
    ((s.withdraw p o w code).obj p o).waiters =
        (Machine.serve (s.serviceLeft p o) (s.obj p o).value ((s.obj p o).waiters.erase w)).2.2 ∧
      ((s.withdraw p o w code).obj p o).value =
        (Machine.serve (s.serviceLeft p o) (s.obj p o).value ((s.obj p o).waiters.erase w)).1 := by
  have hobj : ((s.modObj p o fun y => { y with waiters := y.waiters.erase w }).endWaiter p o w code).obj p o =
      { s.obj p o with waiters := (s.obj p o).waiters.erase w } := by
    rw [State.obj_congr (State.objs_endWaiter hw code), State.obj_modObj]
  have hleft : ((s.modObj p o fun y => { y with waiters := y.waiters.erase w }).endWaiter p o w code).serviceLeft p o =
      s.serviceLeft p o := by
    rw [State.serviceLeft, hobj, State.raw_endWaiter hw, State.raw_modObj, State.serviceLeft]
  obtain ⟨at', hserve⟩ := ((s.modObj p o fun y => { y with waiters := y.waiters.erase w }).endWaiter p o w code).obj_serveObj p o
  rw [State.withdraw, hserve, hleft, hobj]
  exact ⟨rfl, rfl⟩

theorem mem_insertBy {α : Type} {le : α → α → Bool} {x y : α} {l : List α} : y ∈ insertBy le x l ↔ y = x ∨ y ∈ l := by
  induction l with
  | nil => simp [insertBy]
  | cons z l ih =>
    simp only [insertBy]
    split
    · simp
    · simp only [List.mem_cons, ih]
      tauto

theorem mem_sortBy {α : Type} {le : α → α → Bool} {y : α} {l : List α} : y ∈ sortBy le l ↔ y ∈ l := by
  induction l with
  | nil => simp [sortBy]
  | cons x l ih =>
    rw [show sortBy le (x :: l) = insertBy le x (sortBy le l) from rfl, mem_insertBy, ih, List.mem_cons]

/-- R419: the waits with a tag have the source asked for. -/
theorem State.source_of_tagged {owner tag : Nat} {src : WaiterSource} {q : Nat × Waiter}
    (h : q ∈ s.taggedWaits p owner src tag) : q.2.source = src := by
  obtain ⟨x, -, hx⟩ := List.mem_flatMap.mp (mem_sortBy.mp h)
  obtain ⟨w, hw, rfl⟩ := List.mem_map.mp hx
  simp only [List.mem_filter, Bool.and_eq_true, decide_eq_true_eq] at hw
  exact hw.2.1.2

end

/-- Settles O21: a TAKE joins, waits for room, or is withdrawn; refusals change no object. -/
theorem objectWaitsEnd : Obligations.ObjectWaitsEnd := by
  unfold Obligations.ObjectWaitsEnd
  refine ⟨?port, ?entry, ?engine, ?portHeld, ?kresiaHeld, ?view, ?cancel, ?cancelNone, ?timeout, ?noTimeout, ?signal, ?take,
    ?dec, ?set, ?peek, ?cancelRefused, ?notAccepted⟩
  case port =>
    intro s k tag n o hacc hok hwaits hroom
    have hexec : exec (.objTake (.port k tag n o)) s = .next (s.joinWait .baxel o ⟨.signalPort, tag, k, n, s.raw .baxel, 0⟩) := by
      refine execObjTake_of_takeObj (State.countStall_of_baxel rfl)
        ((State.takeObj_waits hacc hok (State.reqObj_port hok) hwaits).trans ?_)
      simp [State.takeWait, State.bumpOpSeq, hroom, State.reqN]
    exact ⟨_, hexec, by simp [State.joinWait], by simp [State.joinWait], rfl⟩
  case entry =>
    intro s d i n o hok hwaits hroom
    have hexec : exec (.objTake (.entry d i n o)) s = .next (s.joinWait .kresia o ⟨.entry i, 0, d, n, s.raw .kresia, 0⟩) := by
      refine execObjTake_of_takeObj (State.countStall_of_room hroom)
        ((State.takeObj_waits rfl hok (State.reqObj_kresia (.inl rfl) hok) hwaits).trans ?_)
      simp [State.takeWait, State.bumpOpSeq, hroom, State.reqN]
    exact ⟨_, hexec, by simp [State.joinWait], by simp [State.joinWait], rfl⟩
  case engine =>
    intro s d i n o hok hwaits hroom
    have hexec : exec (.objTake (.engine d i n o)) s = .next (s.joinWait .kresia o ⟨.engine i, 0, d, n, s.raw .kresia, 0⟩) := by
      refine execObjTake_of_takeObj (State.countStall_of_room hroom)
        ((State.takeObj_waits rfl hok (State.reqObj_kresia (.inr rfl) hok) hwaits).trans ?_)
      simp [State.takeWait, State.bumpOpSeq, hroom, State.reqN]
    exact ⟨_, hexec, by simp [State.joinWait], by simp [State.joinWait], rfl⟩
  case portHeld =>
    intro s k tag n o hacc hok hwaits hroom
    have hexec : exec (.objTake (.port k tag n o)) s = .next (s.holdTake (.port k tag n o)) := by
      refine execObjTake_of_takeObj (State.countStall_of_baxel rfl)
        ((State.takeObj_waits hacc hok (State.reqObj_port hok) hwaits).trans ?_)
      simp [State.takeWait, State.bumpOpSeq, hroom]
    exact ⟨_, hexec, rfl, rfl, rfl⟩
  case kresiaHeld =>
    intro s d i n o r hr hok hwaits hroom
    have hp : reqPart r = .kresia := by rcases hr with rfl | rfl <;> rfl
    have ho : s.reqObj r = some o := State.reqObj_kresia hr hok
    have hn : s.reqN r = n := by rcases hr with rfl | rfl <;> rfl
    have hno : ((s.obj .kresia o).waiters.isEmpty && decide (n ≤ (s.obj .kresia o).value)) = false := by
      rcases hwaits with h | h
      · simp [h]
      · simp [Nat.not_le.mpr h]
    have hstall : s.countStall r = s.count (evK 0x120090) := by
      simp [State.countStall, State.needsSlot, hp, ho, hok, hn, hno, hroom]
    have hobj : ∀ o, (s.count (evK 0x120090)).obj .kresia o = s.obj .kresia o := State.obj_congr (State.objs_count ..)
    have hok' : (s.count (evK 0x120090)).refusal r true false false = none := by
      rw [State.refusal_of_sameObjs hp (State.objs_count ..), hok]
    have hroom' : (s.count (evK 0x120090)).ksWaitRoom = false := by
      simpa [State.ksWaitRoom] using hroom
    have hexec : exec (.objTake r) s = .next ((s.count (evK 0x120090)).holdTake r) := by
      refine execObjTake_of_takeObj hstall
        ((State.takeObj_waits (by rcases hr with rfl | rfl <;> rfl) hok' (State.reqObj_kresia hr hok') ?_).trans ?_)
      · rw [hp, hobj]
        rcases hr with rfl | rfl <;> exact hwaits
      · rcases hr with rfl | rfl <;> simp [State.takeWait, State.bumpOpSeq, hroom']
    refine ⟨_, hexec, ?_, ?_, ?_, ?_⟩ <;> simp [State.holdTake, hp, State.objs]
  case view =>
    intro s k pv i tag n hn hok hwaits hfew hroom
    have hroom' := (State.waitRoom_bumpOpSeq (s := s) (.view k pv i tag) k 1 (.inr ⟨pv, i, tag, rfl⟩)).trans hroom
    have hfew' : ¬ 16 ≤ (s.bumpOpSeq (.view k pv i tag)).viewWaiting k + ((s.bumpOpSeq (.view k pv i tag)).ten k).tcq.length := by
      rw [State.viewWaiting_bumpOpSeq, State.ten_bumpOpSeq]
      omega
    refine ⟨_, execObjTake_of_takeObj (State.countStall_of_baxel rfl)
      (State.takeObj_waits rfl hok (State.reqObj_view hok) (by rw [hn]; exact hwaits)), ?_⟩
    have hobj := State.obj_bumpOpSeq (s := s) (p := .baxel) (o := s.objBase k + i) (.view k pv i tag)
    simp only [State.takeWait, if_neg hfew', hroom', Bool.not_true, Bool.false_eq_true, if_false, State.obj_congr
      (State.objs_answer ..), State.joinWait, State.obj_modObj, hobj, State.reqN_bumpOpSeq, hn]
    simp
  case cancel =>
    intro s r o v w rest k tag hr hacc hok htag
    subst hr
    have hsource : w.source = .signalPort := State.source_of_tagged (htag ▸ List.mem_cons_self : (o, w) ∈ _)
    refine ⟨_, congrArg Host.Outcome.next (State.objOp_runs hacc hok (State.reqObj_port hok)), ?_⟩
    simp only [State.bumpOpSeq, State.cancelTag, reqPart, htag, State.obj_congr (State.objs_answer ..)]
    exact State.obj_withdraw (by simp [hsource]) _
  case cancelNone =>
    intro s k tag n v hacc hok htag
    refine ⟨_, congrArg Host.Outcome.next (State.objOp_runs hacc hok (State.reqObj_port hok)), ?_⟩
    simp only [State.bumpOpSeq, State.cancelTag, reqPart, htag]
    exact ⟨State.objs_answer .., rfl⟩
  case timeout =>
    intro s o tag w hfind
    have hsource : w.source = .view := by
      have hw := List.find?_some hfind
      simp only [Bool.and_eq_true, decide_eq_true_eq] at hw
      exact hw.1.1.1
    simp only [exec, execTakeTimeout, hfind]
    exact ⟨_, rfl, State.obj_withdraw (by simp [hsource]) _⟩
  case noTimeout =>
    intro s p o tag src hw
    simp [exec, execTakeTimeout, hw]
  case signal => exact fun s r code h => ⟨_, rfl, State.objs_objOp_of_refused h⟩
  case take =>
    intro s r code h
    exact ⟨_, execObjTake_of_takeObj (State.countStall_of_refused h) rfl, State.objs_objOp_of_refused h⟩
  case dec => exact fun s r code h => ⟨_, rfl, State.objs_objOp_of_refused h⟩
  case set => exact fun s r code h => ⟨_, rfl, State.objs_objOp_of_refused h⟩
  case peek => exact fun s r code h => ⟨_, rfl, State.objs_objOp_of_refused h⟩
  case cancelRefused => exact fun s r code h => ⟨_, rfl, State.objs_objOp_of_refused h⟩
  case notAccepted =>
    rintro s r c hacc (rfl | rfl | rfl | rfl | rfl | rfl)
    · exact congrArg Host.Outcome.next (State.objOp_of_not_accepted hacc)
    · have hp : reqPart r = .baxel := by cases r <;> simp_all [State.accepted, reqPart]
      exact execObjTake_of_takeObj (State.countStall_of_baxel hp) (State.objOp_of_not_accepted hacc)
    · exact congrArg Host.Outcome.next (State.objOp_of_not_accepted hacc)
    · exact congrArg Host.Outcome.next (State.objOp_of_not_accepted hacc)
    · exact congrArg Host.Outcome.next (State.objOp_of_not_accepted hacc)
    · exact congrArg Host.Outcome.next (State.objOp_of_not_accepted hacc)

/-- Settles O22: each word by the sums and ranges its write checks. -/
theorem objectPartitionsAndPops : Obligations.ObjectPartitionsAndPops := by
  unfold Obligations.ObjectPartitionsAndPops
  refine ⟨?part, ?partBad, ?floor, ?floorBad, ?trackers, ?trackersBad, fun _ _ _ => rfl⟩
  case part =>
    intro s k w hk hfits hidle
    have hno : ¬ 4 ≤ k := by omega
    have hfree : ((List.range (s.objCount k)).any fun i =>
        (s.obj .baxel (s.objBase k + i)).poison || !(s.obj .baxel (s.objBase k + i)).waiters.isEmpty) = false := by
      rw [List.any_eq_false]
      intro i hi
      obtain ⟨hpoison, hwaiters⟩ := hidle i (List.mem_range.mp hi)
      simp [hpoison, hwaiters]
    simp only [exec, execObjPartWrite, hno, if_false, hfits, hfree, Bool.not_true, Bool.false_and, Bool.or_self,
      Bool.false_eq_true]
  case partBad =>
    intro s k w hk hfits
    have hno : ¬ 4 ≤ k := by omega
    simp only [exec, execObjPartWrite, hno, if_false, hfits, Bool.not_false, Bool.true_or, if_true]
  case floor =>
    intro s k w hk hsum
    exact (if_neg (by omega)).trans (if_neg (by omega))
  case floorBad =>
    intro s k w hk hsum
    exact (if_neg (by omega)).trans (if_pos hsum)
  case trackers =>
    intro s k w hk hsum
    exact (if_neg (by omega)).trans (if_neg (by omega))
  case trackersBad =>
    intro s k w hk hsum
    exact (if_neg (by omega)).trans (if_pos hsum)

end Sys2Proof.Machine

/-! The proof of O23: partitions, row groups, steering and templates (R89 to R91, R111, R167). -/

namespace Sys2Proof.Machine

section
variable {s : State} {k i : Nat}

theorem State.tenantOf_lt {d : Nat} (h : s.tenantOf d = some k) : k < 4 :=
  List.mem_range.mp (List.mem_of_find?_eq_some h)

/-! ### Row groups (R91) -/

/-- R91: the word of a tenant's row groups that a write reaches. -/
def rowWord (k : Nat) (hi : Bool) : Nat := 0x0410 + 8 * k + (if hi then 4 else 0)

theorem State.rowAllow_wr_ne {u : Nat} (h : u ≠ k) (hi : Bool) (w : Word) :
    (s.wr .baxel (rowWord k hi) w).rowAllow u = s.rowAllow u := by
  have h0 : ¬ 0x0410 + 8 * u = rowWord k hi := by cases hi <;> simp only [rowWord, Bool.false_eq_true, if_true, if_false] <;> omega
  have h4 : ¬ 0x0410 + 8 * u + 4 = rowWord k hi := by cases hi <;> simp only [rowWord, Bool.false_eq_true, if_true, if_false] <;> omega
  refine State.rd64_congr ?_ ?_
  · rw [State.rd_wr, if_neg (fun h => h0 h.2)]
  · rw [State.rd_wr, if_neg (fun h => h4 h.2)]

theorem execRowAllowWrite_of_disjoint {hi : Bool} {w : Word} (hk : k < 4)
    (h : ∀ u, u < 4 → u ≠ k → s.rowAllow u &&& (s.wr .baxel (rowWord k hi) w).rowAllow k = 0) :
    execRowAllowWrite k hi w s = .next (s.wr .baxel (rowWord k hi) w) := by
  refine (if_neg (by omega)).trans (if_neg ?_)
  simp only [List.any_eq_true, List.mem_range, Bool.and_eq_true, decide_eq_true_eq, not_exists, not_and]
  exact fun u hu hne hshare => hshare (h u hu hne)

theorem execRowAllowWrite_of_shared {hi : Bool} {w : Word} {u : Nat} (hk : k < 4) (hu : u < 4) (hne : u ≠ k)
    (h : s.rowAllow u &&& (s.wr .baxel (rowWord k hi) w).rowAllow k ≠ 0) :
    execRowAllowWrite k hi w s = .next (s.emit (.refused .baxel 0x2012)) := by
  refine (if_neg (by omega)).trans (if_pos ?_)
  simp only [List.any_eq_true, List.mem_range, Bool.and_eq_true, decide_eq_true_eq]
  exact ⟨u, hu, hne, h⟩

/-! ### Templates (R89, R90, R167) -/

@[simp] theorem State.slot_emit (o : Out) : (s.emit o).slot k i = s.slot k i := rfl

@[simp] theorem State.ten_emit (o : Out) : (s.emit o).ten k = s.ten k := rfl

@[simp] theorem State.slot_modTen (t : Nat) (f : Tenant → Tenant) : (s.modTen t f).slot k i = s.slot k i := rfl

@[simp] theorem State.ten_putTmpl (tm : Template) (t : Nat) : (s.putTmpl k i tm).ten t = s.ten t := by
  simp only [State.putTmpl]
  split <;> rfl

@[simp] theorem State.objs_putTmpl (tm : Template) : (s.putTmpl k i tm).bx.objs = s.bx.objs := by
  simp only [State.putTmpl]
  split <;> rfl

/-- R89: a template put into a FREE slot. -/
theorem State.slot_putTmpl_of_free (tm : Template) (hfree : (s.slot k i).state = .free) :
    (s.putTmpl k i tm).slot k i = { tmpl := tm, state := .loaded } := by
  simp [State.putTmpl, hfree]

theorem State.loadTmpl_of_refused {ld : TemplateLoad} {code : Code}
    (h : ld.slots.findSome? (fun (i, tm) => s.tmplCode k i tm ld.replace) = some code) :
    s.loadTmpl k ld = s.refuseLoad ld.domain code := by
  simp only [State.loadTmpl, h]

/-- R167: a load of one template, into a FREE slot, without local objects to initialise. -/
theorem State.loadTmpl_of_one {ld : TemplateLoad} {tm : Template} (hslots : ld.slots = [(i, tm)])
    (hinit : (if ld.replace then [] else ld.objs.filter (!·.cluster)) = [])
    (hobjs : ∀ x ∈ ld.objs, x.cluster = true ∨ x.index < s.objCount k)
    (htrack : ld.trackers ≤ s.fld .baxel (0x0520 + 4 * k) 0 14) (hok : s.tmplCode k i tm ld.replace = none) :
    ∃ was, s.loadTmpl k ld = ((((s.modBx fun b => { b with prior := FMap.set b.prior ld.domain was }).putTmpl k i tm).modTen k
      fun x => x.take ld).ackLoad ld.domain 0) := by
  have hfit : (ld.objs.any fun d => !d.cluster && decide (s.objCount k ≤ d.index)) = false := by
    rw [List.any_eq_false]
    intro d hd
    rcases hobjs d hd with h | h
    · simp [h]
    · simp [Nat.not_le.mpr h]
  have hroom : ¬ s.fld .baxel (0x0520 + 4 * k) 0 14 < ld.trackers := by omega
  simp only [State.loadTmpl, hslots, List.findSome?_cons, hok, List.findSome?_nil, hfit, hroom, if_false, hinit,
    List.foldl_cons, List.foldl_nil, Bool.false_eq_true]
  exact ⟨_, rfl⟩

theorem execTemplateLoad_load {ld : TemplateLoad} (ht : s.tenantOf ld.domain = some k) (hop : ld.op = .load) :
    execTemplateLoad ld s = .next (s.loadTmpl k ld) := by
  simp only [execTemplateLoad, ht, hop]

end

/-- Settles O23: each word is written where R89 to R91 and R111 allow it; a load is taken whole or refused. -/
theorem launchSetup : Obligations.LaunchSetup := by
  unfold Obligations.LaunchSetup
  refine ⟨?part, ?partBad, ?row, ?rowBad, ?rowKept, ?steer, ?steerBad, ?noTenant, ?refused, ?load, ?replace⟩
  case part =>
    intro s k w hk hfits hfree
    refine (if_neg (by omega)).trans (if_neg ?_)
    simp [hfits, hfree]
  case partBad =>
    rintro s k w hk (hbad | ⟨hbusy, hnew⟩)
    · refine (if_neg (by omega)).trans (if_pos ?_)
      rw [hbad]
      rfl
    · refine (if_neg (by omega)).trans (if_pos ?_)
      rw [Bool.or_eq_true, Bool.and_eq_true]
      exact .inr ⟨by simpa using hbusy, decide_eq_true hnew⟩
  case row => exact fun s k hi w hk h => execRowAllowWrite_of_disjoint hk h
  case rowBad => exact fun s k u hi w hk hu hne h => execRowAllowWrite_of_shared hk hu hne h
  case rowKept =>
    intro s k u v hi w hk hu hv hne hdisj
    by_cases hshare : ∀ u, u < 4 → u ≠ k → s.rowAllow u &&& (s.wr .baxel (rowWord k hi) w).rowAllow k = 0
    · refine ⟨_, execRowAllowWrite_of_disjoint hk hshare, ?_⟩
      by_cases huk : u = k
      · subst huk
        rw [State.rowAllow_wr_ne hne.symm, BitVec.and_comm]
        exact hshare v hv hne.symm
      · by_cases hvk : v = k
        · subst hvk
          rw [State.rowAllow_wr_ne huk]
          exact hshare u hu huk
        · rw [State.rowAllow_wr_ne huk, State.rowAllow_wr_ne hvk]
          exact hdisj u hu v hv hne
    · simp only [not_forall] at hshare
      obtain ⟨x, hx, hxk, hshared⟩ := hshare
      exact ⟨_, execRowAllowWrite_of_shared hk hx hxk hshared, hdisj u hu v hv hne⟩
  case steer =>
    rintro s w m n rfl rfl hok
    exact if_pos hok
  case steerBad =>
    rintro s w m n rfl rfl hbad
    exact if_neg (by rw [hbad]; exact Bool.false_ne_true)
  case noTenant =>
    intro s ld ht
    simp [exec, execTemplateLoad, ht]
  case refused =>
    intro s ld k code ht hop hcode
    exact ⟨_, (execTemplateLoad_load ht hop).trans (congrArg _ (State.loadTmpl_of_refused hcode)), rfl, rfl, rfl, rfl⟩
  case load =>
    intro s ld k i tm ht hop hslots hobjs hrepl htrack hok hfree
    obtain ⟨was, hload⟩ := State.loadTmpl_of_one hslots (by simp [hobjs]) (by simp [hobjs]) htrack
      (by rw [hrepl]; exact hok)
    refine ⟨_, (execTemplateLoad_load ht hop).trans (congrArg _ hload), ?_⟩
    have hslot := State.slot_putTmpl_of_free (s := s.modBx fun b => { b with prior := FMap.set b.prior ld.domain was }) tm hfree
    simp [State.ackLoad, hslot, Tenant.take, hrepl]
  case replace =>
    intro s ld k i tm ht hop hslots hrepl hobjs htrack hok hfree
    obtain ⟨was, hload⟩ := State.loadTmpl_of_one hslots (by simp [hrepl]) hobjs htrack (by rw [hrepl]; exact hok)
    refine ⟨_, (execTemplateLoad_load ht hop).trans (congrArg _ hload), ?_⟩
    have hslot := State.slot_putTmpl_of_free (s := s.modBx fun b => { b with prior := FMap.set b.prior ld.domain was }) tm hfree
    have hobjs : ∀ (u : State) (f : Tenant → Tenant) (o : Out), ((u.modTen k f).emit o).bx.objs = u.bx.objs := fun _ _ _ => rfl
    simp only [State.ackLoad, State.slot_emit, State.slot_modTen, hslot, State.ten_emit, State.ten_modTen, State.ten_putTmpl,
      Tenant.take, hrepl, if_true, hobjs, State.objs_putTmpl]
    exact ⟨trivial, trivial, rfl, trivial, rfl, rfl⟩

end Sys2Proof.Machine

/-! The proof of O24: arrivals (R94) and the crown's broadcasts at a member's slots (R93, R102, R103). -/

namespace Sys2Proof.Machine

/-! ### What leaves the slots as they are (R89) -/

/-- The slots and the words of the partitions are the same. -/
def SameSlots (s t : State) : Prop :=
  t.bx.slots = s.bx.slots ∧ ∀ u, u < 4 → t.rd .baxel (0x0400 + 4 * u) = s.rd .baxel (0x0400 + 4 * u)

section
variable {s t u : State} {k i j : Nat}

theorem SameSlots.refl (s : State) : SameSlots s s := ⟨rfl, fun _ _ => rfl⟩

theorem SameSlots.trans (h : SameSlots s t) (h' : SameSlots t u) : SameSlots s u :=
  ⟨h'.1.trans h.1, fun v hv => (h'.2 v hv).trans (h.2 v hv)⟩

theorem SameSlots.llCount (h : SameSlots s t) (hk : k < 4) : t.llCount k = s.llCount k := State.fld_congr (h.2 k hk) 10 11

theorem SameSlots.llBase (h : SameSlots s t) (hk : k < 4) : t.llBase k = s.llBase k := State.fld_congr (h.2 k hk) 0 10

theorem SameSlots.slotNo (h : SameSlots s t) (k i : Nat) : t.slotNo k i = s.slotNo k i := by
  by_cases hk : k < 4
  · simp only [State.slotNo, h.llCount hk, h.llBase hk]
  · simp [State.slotNo, hk]

theorem SameSlots.slot (h : SameSlots s t) (k i : Nat) : t.slot k i = s.slot k i := by
  rw [State.slot, h.slotNo, h.1, State.slot]

theorem SameSlots.slotsOf (h : SameSlots s t) (k : Nat) : t.slotsOf k = s.slotsOf k := by
  by_cases hk : k < 4
  · simp only [State.slotsOf, h.llCount hk, h.llBase hk, h.1]
  · simp [State.slotsOf, hk]

theorem sameSlots_emit (o : Out) : SameSlots s (s.emit o) := ⟨rfl, fun _ _ => rfl⟩

theorem sameSlots_modTen (n : Nat) (f : Tenant → Tenant) : SameSlots s (s.modTen n f) := ⟨rfl, fun _ _ => rfl⟩

theorem sameSlots_sendCtl (m : Ctl) : SameSlots s (s.sendCtl m) := ⟨rfl, fun _ _ => rfl⟩

theorem sameSlots_modObj (o : Nat) (f : Obj → Obj) : SameSlots s (s.modObj .baxel o f) := ⟨rfl, fun _ _ => rfl⟩

/-- R89: the counters of a tenant's page lie above the partition words. -/
theorem sameSlots_countT (n off k' : Nat) : SameSlots s (s.count (evT n off) k') := by
  refine ⟨by simp, fun v hv => ?_⟩
  rw [State.rd_count_evT, if_neg]
  simp only [tPage, true_and]
  omega

theorem sameSlots_withdrawLp (n : Nat) (e : Slot) : SameSlots s (s.withdrawLp n i e) := by
  unfold State.withdrawLp
  split
  · exact sameSlots_emit _
  · exact .refl s

theorem sameSlots_foldl {α : Type} {f : State → α → State} (l : List α) (hf : ∀ s x, SameSlots s (f s x)) (s : State) :
    SameSlots s (l.foldl f s) := by
  induction l generalizing s with
  | nil => exact .refl s
  | cons x l ih => exact (hf s x).trans (ih _)

/-! ### One slot among the others -/

theorem State.slotNo_inj (hk : k < 4) (hi : i < s.llCount k) (hj : j < s.llCount k) (h : s.slotNo k i = s.slotNo k j) :
    i = j := by
  simp only [State.slotNo, hk, hi, hj, decide_true, Bool.and_self, if_true] at h
  omega

theorem State.slot_modSlot_ne (hk : k < 4) (hi : i < s.llCount k) (hj : j < s.llCount k) (hne : i ≠ j) (f : Slot → Slot) :
    (s.modSlot k j f).slot k i = s.slot k i :=
  FMap.getD_update_ne _ (fun h => hne (State.slotNo_inj hk hi hj h)) _ _ _

theorem sameSlots_dropGate (n j : Nat) : SameSlots s (s.dropGate n j) := ⟨rfl, fun _ _ => rfl⟩

/-- R102, R103: a voided slot. -/
theorem State.slot_slotVoid_self : ∃ e, (s.slotVoid k i).slot k i = e ∧ e.state = .void ∧ e.tmpl = (s.slot k i).tmpl := by
  have hsame := (sameSlots_dropGate (s := s) k i).trans (sameSlots_withdrawLp (i := i) k (s.slot k i))
  refine ⟨_, State.slot_modSlot _ k i _, rfl, ?_⟩
  exact congrArg (·.tmpl) (hsame.slot k i)

theorem State.slot_slotVoid_ne (hk : k < 4) (hi : i < s.llCount k) (hj : j < s.llCount k) (hne : i ≠ j) :
    (s.slotVoid k j).slot k i = s.slot k i := by
  have hsame := (sameSlots_dropGate (s := s) k j).trans (sameSlots_withdrawLp (i := j) k (s.slot k j))
  refine (State.slot_modSlot_ne hk ?_ ?_ hne _).trans (hsame.slot k i)
  · rw [hsame.llCount hk]; exact hi
  · rw [hsame.llCount hk]; exact hj

theorem State.llCount_slotVoid (n : Nat) : (s.slotVoid n j).llCount k = s.llCount k := by
  simp only [State.slotVoid, State.withdrawLp]
  split <;> rfl

theorem State.rd_slotVoid (n : Nat) (q : Part) (a : Nat) : (s.slotVoid n j).rd q a = s.rd q a := by
  simp only [State.slotVoid, State.withdrawLp]
  split <;> cases q <;> rfl

theorem State.ten_slotVoid (n m : Nat) : (s.slotVoid n j).ten m = s.ten m := by
  simp only [State.slotVoid, State.withdrawLp]
  split <;> rfl

@[simp] theorem State.ten_count (e : Ev) (n m : Nat) : (s.count e n).ten m = s.ten m := by
  simp [State.ten]

theorem FMap.mem_of_find {α : Type} {m : FMap α} {n : Nat} {v : α} (h : FMap.find? m n = some v) : (n, v) ∈ m := by
  induction m with
  | nil => simp [FMap.find?] at h
  | cons x m ih =>
    obtain ⟨a, w⟩ := x
    simp only [FMap.find?] at h
    split_ifs at h with ha
    · simp_all
    · exact List.mem_cons_of_mem _ (ih h)

/-- A slot of a partition that is not FREE is among the tenant's slots. -/
theorem State.mem_slotsOf (hk : k < 4) (hi : i < s.llCount k) (h : (s.slot k i).state ≠ .free) :
    (i, s.slot k i) ∈ s.slotsOf k := by
  have hno : s.slotNo k i = s.llBase k + i := by simp [State.slotNo, hk, hi]
  have hmem : (s.llBase k + i, s.slot k i) ∈ s.bx.slots := by
    rw [State.slot, hno] at h ⊢
    cases hfind : FMap.find? s.bx.slots (s.llBase k + i) with
    | none => simp [FMap.getD, hfind] at h
    | some e =>
      simp only [FMap.getD, hfind, Option.getD_some]
      exact FMap.mem_of_find hfind
  refine List.mem_filterMap.mpr ⟨_, hmem, ?_⟩
  simp [hk, hi, h]

theorem State.lt_of_mem_slotsOf {x : Nat × Slot} (h : x ∈ s.slotsOf k) : k < 4 ∧ x.1 < s.llCount k := by
  obtain ⟨⟨n, e⟩, -, hx⟩ := List.mem_filterMap.mp h
  dsimp only at hx
  split_ifs at hx with hc
  obtain rfl := Option.some.inj hx
  simp only [Bool.and_eq_true, decide_eq_true_eq] at hc
  obtain ⟨⟨⟨hk, hlo⟩, hhi⟩, -⟩ := hc
  exact ⟨hk, by omega⟩

/-! ### A void at the slots of a tenant (R103) -/

/-- R103: what a void voids. -/
def Slot.unfired (e : Slot) : Prop := e.state = .armed ∨ e.state = .tamped ∨ e.state = .waiting

theorem State.voidSlot_eq (s : State) (k j : Nat) : ∃ v : State, (v = s ∨ SameSlots (s.slotVoid k j) v) ∧
    (v.ten k = s.ten k) ∧ ((s.slot k j).unfired → SameSlots (s.slotVoid k j) v) ∧
    s.voidSlot k j = if (v.slot k j).state = .void && !(v.ten k).faulted then
      v.modSlot k j fun e => { e with state := .loaded } else v := by
  have hcount : SameSlots (s.slotVoid k j) ((s.slotVoid k j).count (evT k 0x104)) := sameSlots_countT k 0x104 1
  have hten : ((s.slotVoid k j).count (evT k 0x104)).ten k = s.ten k := (State.ten_count ..).trans (State.ten_slotVoid ..)
  cases hst : (s.slot k j).state <;>
    simp only [State.voidSlot, hst]
  case armed => exact ⟨_, .inr hcount, hten, fun _ => hcount, rfl⟩
  case tamped => exact ⟨_, .inr hcount, hten, fun _ => hcount, rfl⟩
  case waiting => exact ⟨_, .inr hcount, hten, fun _ => hcount, rfl⟩
  case bellRun => exact ⟨_, .inr (.refl _), State.ten_slotVoid .., fun _ => .refl _, rfl⟩
  all_goals exact ⟨s, .inl rfl, rfl, fun h => by simp [Slot.unfired, hst] at h, by simp only [hst]⟩

theorem State.ten_voidSlot (s : State) (k j : Nat) : (s.voidSlot k j).ten k = s.ten k := by
  obtain ⟨v, -, hten, -, heq⟩ := s.voidSlot_eq k j
  rw [heq]
  split
  · exact hten
  · exact hten

theorem State.llCount_voidSlot (hk : k < 4) : (s.voidSlot k j).llCount k = s.llCount k := by
  obtain ⟨v, hv, -, -, heq⟩ := s.voidSlot_eq k j
  have hcount : v.llCount k = s.llCount k := by
    rcases hv with rfl | hv
    · rfl
    · rw [hv.llCount hk, State.llCount_slotVoid]
  rw [heq]
  split <;> exact hcount

theorem State.slot_voidSlot_ne (hk : k < 4) (hi : i < s.llCount k) (hj : j < s.llCount k) (hne : i ≠ j) :
    (s.voidSlot k j).slot k i = s.slot k i := by
  obtain ⟨v, hv, -, -, heq⟩ := s.voidSlot_eq k j
  have hslot : v.slot k i = s.slot k i := by
    rcases hv with rfl | hv
    · rfl
    · rw [hv.slot, State.slot_slotVoid_ne hk hi hj hne]
  have hcount : v.llCount k = s.llCount k := by
    rcases hv with rfl | hv
    · rfl
    · rw [hv.llCount hk, State.llCount_slotVoid]
  rw [heq]
  split
  · rw [State.slot_modSlot_ne hk (by rw [hcount]; exact hi) (by rw [hcount]; exact hj) hne, hslot]
  · exact hslot

theorem State.state_voidSlot_self (hok : (s.ten k).faulted = false)
    (h : (s.slot k i).unfired ∨ (s.slot k i).state = .loaded) : ((s.voidSlot k i).slot k i).state = .loaded := by
  rcases h with h | h
  · obtain ⟨v, -, hten, hv, heq⟩ := s.voidSlot_eq k i
    obtain ⟨e, he, hvoid, -⟩ := State.slot_slotVoid_self (s := s) (k := k) (i := i)
    have hstate : (v.slot k i).state = .void := by rw [(hv h).slot, he, hvoid]
    rw [heq, if_pos (by simp [hstate, hten, hok]), State.slot_modSlot]
  · simp [State.voidSlot, h]

/-- R103: voids at a list of slots leave an unfired one among them LOADED. -/
theorem State.state_foldl_voidSlot (hk : k < 4) (l : List (Nat × Slot)) (hl : ∀ x ∈ l, x.1 < s.llCount k)
    (hi : i < s.llCount k) (hok : (s.ten k).faulted = false)
    (h : ((s.slot k i).unfired ∧ ∃ e, (i, e) ∈ l) ∨ (s.slot k i).state = .loaded) :
    ((l.foldl (fun s (j, _) => s.voidSlot k j) s).slot k i).state = .loaded := by
  induction l generalizing s with
  | nil =>
    obtain ⟨-, e, he⟩ | h := h
    · simp at he
    · exact h
  | cons x l ih =>
    obtain ⟨j, e⟩ := x
    have hx : j < s.llCount k := hl _ List.mem_cons_self
    refine ih (fun y hy => ?_) ?_ ?_ ?_
    · rw [State.llCount_voidSlot hk]
      exact hl y (List.mem_cons_of_mem _ hy)
    · rw [State.llCount_voidSlot hk]
      exact hi
    · rw [State.ten_voidSlot]
      exact hok
    · by_cases hxi : j = i
      · subst hxi
        exact .inr (State.state_voidSlot_self hok (h.imp_left And.left))
      · rw [State.slot_voidSlot_ne hk hi hx (Ne.symm hxi)]
        refine h.imp_left fun ⟨hun, e', he⟩ => ⟨hun, e', ?_⟩
        exact (List.mem_cons.mp he).resolve_left fun h => hxi (congrArg Prod.fst h).symm

theorem State.ten_foldl_voidSlot (l : List (Nat × Slot)) (s : State) :
    (l.foldl (fun s (j, _) => s.voidSlot k j) s).ten k = s.ten k :=
  foldl_keeps (g := fun s : State => s.ten k) l s fun s x _ => s.ten_voidSlot k x.1

theorem sameSlots_voidedIrq (n : Nat) : SameSlots s (s.voidedIrq n) := by
  refine ⟨rfl, fun v hv => ?_⟩
  refine State.rd_setFld_ne s .baxel ?_ 2 1 1
  simp only [tPage]
  omega

theorem sameSlots_voidTrackers (d e : Nat) : SameSlots s (s.voidTrackers .baxel d e) :=
  SameSlots.trans (t := s.dropTrackers .baxel _) ⟨rfl, fun _ _ => rfl⟩ (sameSlots_foldl _ (fun _ _ => sameSlots_emit _) _)

theorem State.ten_voidTrackers (d e n : Nat) : (s.voidTrackers .baxel d e).ten n = s.ten n :=
  foldl_keeps (g := fun s : State => s.ten n) _ _ fun _ _ _ => rfl

/-- R103: the first broadcast of a newer epoch at a tenant without REPLAY objects. -/
theorem State.voidOlder_of_noReplay {m : Ctl} (hobjs : ∀ y ∈ s.bx.objs, y.2.replay = false) :
    SameSlots ((s.slotsOf k).foldl (fun s (j, _) => s.voidSlot k j) s) (s.voidOlder k m) ∧
      (s.voidOlder k m).ten k = ((s.slotsOf k).foldl (fun s (j, _) => s.voidSlot k j) s).ten k := by
  have hreplay : ((List.range (s.objCount k)).filter fun i => (s.obj .baxel (s.objBase k + i)).replay) = [] := by
    rw [List.filter_eq_nil_iff]
    intro n _
    simp only [State.obj, State.objs, FMap.getD]
    cases hfind : FMap.find? s.bx.objs (s.objBase k + n) with
    | none => simp
    | some x =>
      have hx : x.replay = false := hobjs _ (FMap.mem_of_find hfind)
      simp [hx]
  simp only [State.voidOlder, hreplay, List.foldl_nil]
  refine ⟨SameSlots.trans ?_ (sameSlots_voidTrackers ..), (State.ten_voidTrackers ..).trans ?_⟩
  · split
    · split
      · exact sameSlots_voidedIrq _
      · exact .refl _
    · exact sameSlots_foldl _ (fun _ _ => sameSlots_voidedIrq _) _
  · split
    · split <;> rfl
    · exact foldl_keeps (g := fun s : State => s.ten k) _ _ fun _ _ _ => rfl

/-! ### The filter of broadcasts (R93) -/

/-- R93: a first copy that is no newer one. -/
theorem State.onBroadcast_first {m : Ctl} {act : Nat → State → State} {x : Tenant} (ht : s.tenantOf m.domain = some k)
    (hfence : s.bx.fenced = false) (hf : (s.ten k).filter m.epoch m.seq = (x, .first false)) (hkind : m.kind ≠ .void) :
    s.onBroadcast m act = act k ((s.modTen k fun y => { y with epoch := x.epoch, hseq := x.hseq, seen := x.seen }).modTen k
      fun y => { y with named := some m.step }) := by
  simp [State.onBroadcast, ht, hfence, hf, hkind]

theorem State.onBroadcast_newer {m : Ctl} {act : Nat → State → State} {x : Tenant} (ht : s.tenantOf m.domain = some k)
    (hfence : s.bx.fenced = false) (hf : (s.ten k).filter m.epoch m.seq = (x, .first true)) :
    s.onBroadcast m act = act k (((s.voidOlder k m).modTen k fun y =>
      { y with epoch := x.epoch, hseq := x.hseq, seen := x.seen }).modTen k fun y => { y with named := some m.step }) := by
  simp [State.onBroadcast, ht, hfence, hf]

theorem State.slots_onBroadcast_dup {m : Ctl} {act : Nat → State → State} {x : Tenant} (ht : s.tenantOf m.domain = some k)
    (hf : (s.ten k).filter m.epoch m.seq = (x, .dup)) : (s.onBroadcast m act).bx.slots = s.bx.slots := by
  simp only [State.onBroadcast, ht, hf]
  split <;> simp

theorem State.onBroadcast_unbound {m : Ctl} {act : Nat → State → State} (ht : s.tenantOf m.domain = none) :
    s.onBroadcast m act = s.count (evB 0x0438) := by
  simp [State.onBroadcast, ht]

/-- R93: a newer epoch becomes the tenant's. -/
theorem Tenant.epoch_of_filter {x y : Tenant} {e q : Nat} (h : x.filter e q = (y, .first true)) : y.epoch = e := by
  simp only [Tenant.filter] at h
  by_cases he : e < x.epoch
  · simp [he] at h
  · by_cases hn : x.epoch < e
    · simp only [he, hn, if_false, decide_true, if_true] at h
      split_ifs at h <;>
      · simp only [Prod.mk.injEq] at h
        rw [← h.1]
    · simp only [he, hn, if_false, decide_false] at h
      split_ifs at h <;> simp at h

/-- A Baxel with other tenants. -/
def State.withTenants (s : State) (m : FMap Tenant) : State := { s with bx := { s.bx with tenants := m } }

/-- R93, R169: what an arm finds of its tenant. -/
theorem State.switchObjs_of_none {n step : Nat} (h : (s.ten n).pendObjs = []) :
    ∃ m, s.switchObjs n step = s.withTenants m ∧ ((s.withTenants m).ten n).named = (s.ten n).named := by
  simp only [State.switchObjs, h, List.foldl_nil]
  split
  · exact ⟨s.bx.tenants, rfl, rfl⟩
  · exact ⟨_, rfl, congrArg (·.named) (State.ten_modTen s n _)⟩

/-- R102: an ARM that its slot accepts. -/
theorem State.armSlot_accepted {m : Ctl} (hi : m.slot < s.llCount k) (hloaded : (s.slot k m.slot).state = .loaded)
    (hcode : s.armCode m (s.slot k m.slot).tmpl.bell = none) : s.armSlot m k =
    (s.modSlot k m.slot fun e =>
      { e with
        state := .armed, due := m.due, step := m.step, epoch := m.epoch, seq := m.seq, period := m.period
        bellCount := m.bellCount, dueD := some (s.bx.c.time.mkDue m.due), wD := some (s.bx.c.time.mkDue (windowStart m))
        bellK := 0, change := none, presented := false, accepted := none, held := false, late := false
        steer := none }).ackArm m 0 := by
  simp [State.armSlot, Nat.not_le.mpr hi, hloaded, hcode]

theorem State.armSlot_refused {m : Ctl} {c : Code} (hi : m.slot < s.llCount k) (hloaded : (s.slot k m.slot).state = .loaded)
    (hcode : s.armCode m (s.slot k m.slot).tmpl.bell = some c) : s.armSlot m k = s.ackArm m c := by
  simp [State.armSlot, Nat.not_le.mpr hi, hloaded, hcode]

section
variable {m : Ctl} {port : Nat} {rx : EdgeStamp}

theorem execBxArmRx_eq (hp : port < 8) (hkind : m.kind = .arm) : execBxArmRx port rx m s =
    .next (s.onBroadcast m fun t s => (s.switchObjs t m.step).armSlot m t) := by
  simp [execBxArmRx, hp, hkind]

theorem execBxTampRx_eq (hp : port < 8) (hkind : m.kind = .tamp) : execBxTampRx port rx m s =
    .next (s.onBroadcast m fun t s' => s'.tampSlot m ((s.tdc .baxel (tdcRx .baxel port)).stamp rx) t) := by
  simp [execBxTampRx, hp, hkind]

theorem execBxVoidRx_eq (hp : port < 8) (hkind : m.kind = .void) :
    execBxVoidRx port m s = .next (s.onBroadcast m fun _ s => s) := by
  simp [execBxVoidRx, hp, hkind]

end

/-- R92, R102, R169: the tenant's state in which an arm reaches its slot. -/
theorem execBxArmRx_first {m : Ctl} {x : Tenant} {port : Nat} {rx : EdgeStamp} (hp : port < 8) (hkind : m.kind = .arm)
    (ht : s.tenantOf m.domain = some k) (hfence : s.bx.fenced = false)
    (hf : (s.ten k).filter m.epoch m.seq = (x, .first false)) (hpend : (s.ten k).pendObjs = []) :
    ∃ tens, ((s.withTenants tens).ten k).named = some m.step ∧
      execBxArmRx port rx m s = .next ((s.withTenants tens).armSlot m k) := by
  have hexec := (execBxArmRx_eq (s := s) (rx := rx) hp hkind).trans (congrArg Host.Outcome.next
    (State.onBroadcast_first ht hfence hf (by simp [hkind])))
  obtain ⟨tens, hsw, hnamed⟩ := State.switchObjs_of_none (s := (s.modTen k fun y =>
    { y with epoch := x.epoch, hseq := x.hseq, seen := x.seen }).modTen k fun y => { y with named := some m.step }) (n := k)
    (step := m.step) (by simpa using hpend)
  rw [hsw] at hexec
  exact ⟨tens, hnamed.trans (by simp), hexec⟩

/-- A value that satisfies a test on an optional one. -/
theorem exists_of_any {α : Type} {o : Option α} {f : α → Bool} (h : o.any f = true) : ∃ a, o = some a ∧ f a = true := by
  cases o with
  | none => simp at h
  | some a => exact ⟨a, rfl, by simpa using h⟩

/-- R102: a TAMP before its window at an armed slot. -/
theorem State.tampSlot_armed {m : Ctl} {raw : Raw} {w : Due} (hi : m.slot < s.llCount k)
    (harmed : (s.slot k m.slot).state = .armed) (hepoch : (s.slot k m.slot).epoch = m.epoch)
    (hstep : (s.slot k m.slot).step = m.step) (hw : (s.slot k m.slot).wD = some w) : s.tampSlot m raw k =
    if 0 ≤ Raw.diff raw w.raw then s.count (evT k 0x114)
    else
      let s1 := (s.sample .baxel 0xF0104 (Raw.diff w.raw raw) (ten := some k)).modSlot k m.slot fun e =>
        { e with state := if e.tmpl.bell then .bellRun else .tamped, voidGrid := none }
      if gridCount (s.slot k m.slot).voidGrid (s.slot k m.slot).due = 0 then s1
      else s1.count (evT k 0x11C) (gridCount (s.slot k m.slot).voidGrid (s.slot k m.slot).due) := by
  simp only [State.tampSlot, if_neg (Nat.not_le.mpr hi), harmed, hw, hepoch, hstep, ne_eq, not_true_eq_false, if_false]

theorem sameSlots_sample (ev : Nat) (d : Int) (port ten dom cls : Option Nat) :
    SameSlots s (s.sample .baxel ev d port ten dom cls) := ⟨by simp, by simp⟩

end

/-- Settles O24: the first copy of each broadcast by what it does at its slot. -/
theorem broadcastsAtAMember : Obligations.BroadcastsAtAMember := by
  unfold Obligations.BroadcastsAtAMember
  refine ⟨?arrive, ?arriveBad, ?arm, ?armBad, ?dup, ?tamp, ?tampLate, ?void, ?unbound, ?orphan, ?notYet⟩
  case arrive =>
    intro s k step hk h
    exact (if_neg (by omega)).trans (if_pos h)
  case arriveBad =>
    intro s k step hk h
    exact (if_neg (by omega)).trans (if_neg (by rw [h]; exact Bool.false_ne_true))
  case arm =>
    intro s port k rx m x hp hkind ht hfence hf hpend hi hloaded hcode
    obtain ⟨tens, hnamed, hexec⟩ := execBxArmRx_first (rx := rx) hp hkind ht hfence hf hpend
    refine ⟨_, hexec.trans (congrArg _ (State.armSlot_accepted (s := s.withTenants tens) hi hloaded hcode)), ?_⟩
    rw [State.ackArm, (sameSlots_sendCtl _).slot, State.slot_modSlot]
    exact ⟨rfl, rfl, rfl, rfl, rfl, rfl, hnamed, rfl⟩
  case armBad =>
    intro s port k rx m x c hp hkind ht hfence hf hpend hi hloaded hcode
    obtain ⟨tens, -, hexec⟩ := execBxArmRx_first (rx := rx) hp hkind ht hfence hf hpend
    exact ⟨_, hexec.trans (congrArg _ (State.armSlot_refused (s := s.withTenants tens) hi hloaded hcode)), rfl, rfl⟩
  case dup =>
    intro s port k rx m x _ ht hf
    have hkeep : ∀ (b : Bool) act, ∃ t, (if b then Host.Outcome.next (s.onBroadcast m act) else .next s : Answer) = .next t ∧
        t.bx.slots = s.bx.slots := by
      rintro (_ | _) act
      · exact ⟨s, rfl, rfl⟩
      · exact ⟨_, rfl, State.slots_onBroadcast_dup ht hf⟩
    exact ⟨hkeep _ _, hkeep _ _, hkeep _ _⟩
  case tamp =>
    intro s port k rx m x hp hkind ht hfence hf hi harmed hepoch hstep hbell hbefore
    obtain ⟨w, hw, hlt⟩ := exists_of_any hbefore
    have hno : ¬ 0 ≤ Raw.diff ((s.tdc .baxel (tdcRx .baxel port)).stamp rx) w.raw := by simpa using hlt
    have hexec := (execBxTampRx_eq (s := s) (rx := rx) hp hkind).trans (congrArg Host.Outcome.next
      (State.onBroadcast_first ht hfence hf (by simp [hkind])))
    have hsame := (sameSlots_modTen (s := s) k fun y => { y with epoch := x.epoch, hseq := x.hseq, seen := x.seen }).trans
      (sameSlots_modTen k fun y => { y with named := some m.step })
    have hslot := hsame.slot k m.slot
    have hi' := hi.trans_eq (hsame.llCount (State.tenantOf_lt ht)).symm
    rw [State.tampSlot_armed hi' (by rw [hslot]; exact harmed) (by rw [hslot]; exact hepoch) (by rw [hslot]; exact hstep)
      (by rw [hslot]; exact hw), if_neg hno] at hexec
    refine ⟨_, hexec, ?_⟩
    have hcount : ∀ (u : State) (n c : Nat), (if n = 0 then u else u.count (evT k 0x11C) c).slot k m.slot = u.slot k m.slot ∧
        (if n = 0 then u else u.count (evT k 0x11C) c).out = u.out := by
      intro u n c
      split
      · exact ⟨rfl, rfl⟩
      · exact ⟨(sameSlots_countT ..).slot .., State.count_out ..⟩
    dsimp only
    rw [(hcount _ _ _).1, (hcount _ _ _).2, State.slot_modSlot, (sameSlots_sample ..).slot, hslot]
    refine ⟨by simp [hbell], rfl, ?_⟩
    exact State.sample_out ..
  case tampLate =>
    intro s port k rx m x hp hkind ht hfence hf hi harmed hepoch hstep hlate
    obtain ⟨w, hw, hle⟩ := exists_of_any hlate
    have hle' : 0 ≤ Raw.diff ((s.tdc .baxel (tdcRx .baxel port)).stamp rx) w.raw := by simpa using hle
    have hexec := (execBxTampRx_eq (s := s) (rx := rx) hp hkind).trans (congrArg Host.Outcome.next
      (State.onBroadcast_first ht hfence hf (by simp [hkind])))
    have hsame := (sameSlots_modTen (s := s) k fun y => { y with epoch := x.epoch, hseq := x.hseq, seen := x.seen }).trans
      (sameSlots_modTen k fun y => { y with named := some m.step })
    have hslot := hsame.slot k m.slot
    have hi' := hi.trans_eq (hsame.llCount (State.tenantOf_lt ht)).symm
    rw [State.tampSlot_armed hi' (by rw [hslot]; exact harmed) (by rw [hslot]; exact hepoch) (by rw [hslot]; exact hstep)
      (by rw [hslot]; exact hw), if_pos hle'] at hexec
    refine ⟨_, hexec, by simp, ?_⟩
    rw [State.rd_count_evT, if_pos ⟨rfl, rfl⟩]
    rfl
  case void =>
    intro s port k i m x hp hkind ht hfence hf hok hobjs hi hstate
    have hk := State.tenantOf_lt ht
    refine ⟨_, (execBxVoidRx_eq (s := s) hp hkind).trans (congrArg Host.Outcome.next
      (State.onBroadcast_newer ht hfence hf)), ?_, ?_⟩
    · obtain ⟨hsame, -⟩ := State.voidOlder_of_noReplay (k := k) (m := m) hobjs
      rw [((sameSlots_modTen k _).trans (sameSlots_modTen k _)).slot, hsame.slot]
      have hbusy : (s.slot k i).state ≠ .free := by rcases hstate with h | h | h <;> simp [h]
      exact State.state_foldl_voidSlot hk _ (fun y hy => (State.lt_of_mem_slotsOf hy).2) hi hok
        (.inl ⟨hstate, _, State.mem_slotsOf hk hi hbusy⟩)
    · rw [State.ten_modTen, State.ten_modTen]
      exact (Tenant.epoch_of_filter hf :)
  case unbound =>
    intro s port rx m hp ht
    exact ⟨fun hkind => (execBxArmRx_eq (rx := rx) hp hkind).trans (congrArg _ (State.onBroadcast_unbound ht)),
      fun hkind => (execBxTampRx_eq hp hkind).trans (congrArg _ (State.onBroadcast_unbound ht)),
      fun hkind => (execBxVoidRx_eq hp hkind).trans (congrArg _ (State.onBroadcast_unbound ht))⟩
  case orphan =>
    intro s k i w harmed hw hdue
    have hexec : exec (.orphanTest k i) s = .next (((s.slotVoid k i).count (evT k 0x108)).sendCtl
        (slotCtl .orphan (s.ten k) i (s.slot k i) 0x2004)) := by
      simp [exec, execOrphanTest, harmed, hw, hdue]
    refine ⟨_, hexec, ?_, ?_, ?_⟩
    · obtain ⟨e, he, hvoid, -⟩ := State.slot_slotVoid_self (s := s) (k := k) (i := i)
      rw [((sameSlots_countT k 0x108 1).trans (sameSlots_sendCtl _)).slot, he, hvoid]
    · rw [State.sendCtl, State.rd_emit, State.rd_count_evT, if_pos ⟨rfl, rfl⟩, State.rd_slotVoid]
      rfl
    · have hnode : ((s.slotVoid k i).count (evT k 0x108)).fld .baxel 0x0004 0 20 = s.fld .baxel 0x0004 0 20 := by
        refine State.fld_congr ?_ 0 20
        rw [State.rd_count_evT, if_neg (by simp only [tPage]; omega), State.rd_slotVoid]
      rw [State.sendCtl, hnode]
      exact List.mem_cons_self
  case notYet =>
    intro s k i w harmed hw hdue
    simp [exec, execOrphanTest, harmed, hw, hdue]

end Sys2Proof.Machine

/-! The proof of O25: descriptors, fires and gated launches at the launch port (R108 to R110, R415). -/

namespace Sys2Proof.Machine

/-! ### A fire (R110, R113) -/

section
variable {s : State} {k i : Nat} {edge : Raw} {late : Bool}

theorem sameSlots_wrT (k off : Nat) (v : Word) : SameSlots s (s.wr .baxel (tPage k off) v) := by
  refine ⟨rfl, fun u hu => ?_⟩
  rw [State.rd_wr, if_neg]
  simp only [tPage, true_and]
  omega

/-- R113: a fire record is a row of writes to the tenant's page. -/
theorem State.fireRecord_writes {P : State → Prop} (hP : ∀ u off v, P u → P (u.wr .baxel (tPage k off) v)) (e : Slot)
    (hs : P s) : P (s.fireRecord k i e edge late) := by
  have hadd : ∀ a b, tPage k a + b = tPage k (a + b) := fun a b => by simp only [tPage]; omega
  simp only [State.fireRecord, State.wr64, hadd]
  repeat refine hP _ _ _ ?_
  exact hs

theorem sameSlots_fireRecord (e : Slot) : SameSlots s (s.fireRecord k i e edge late) :=
  State.fireRecord_writes (P := SameSlots s) (fun _ _ _ h => h.trans (sameSlots_wrT k _ _)) e (.refl s)

theorem State.rd_fireRecord (e : Slot) (off : Nat) (hoff : 0x98 ≤ off) :
    (s.fireRecord k i e edge late).rd .baxel (tPage k off) =
      if off = 0x98 then s.rd .baxel (tPage k 0x98) + 1 else s.rd .baxel (tPage k off) := by
  have hadd : ∀ a b, tPage k a + b = tPage k (a + b) := fun a b => by simp only [tPage]; omega
  have h : off ≠ 0x80 ∧ off ≠ 0x84 ∧ off ≠ 0x88 ∧ off ≠ 0x8C ∧ off ≠ 0x90 ∧ off ≠ 0x94 := by omega
  simp only [State.fireRecord, State.rd_wr, State.rd_wr64, hadd, tPage_inj, true_and, Nat.reduceAdd, h, if_false,
    Nat.reduceEqDiff]

theorem State.bx_fireRecord (e : Slot) : (s.fireRecord k i e edge late).out = s.out ∧
    (s.fireRecord k i e edge late).bx.c.time = s.bx.c.time ∧ (s.fireRecord k i e edge late).bx.tenants = s.bx.tenants :=
  State.fireRecord_writes (P := fun u => u.out = s.out ∧ u.bx.c.time = s.bx.c.time ∧ u.bx.tenants = s.bx.tenants)
    (fun _ _ _ h => h) e ⟨rfl, rfl, rfl⟩

/-- R110: the slot a fire leaves. -/
def Slot.fired (u : TimeUnit) (e : Slot) : Slot :=
  if e.tmpl.bell then e.bellNext u
  else { e with state := .fired, presented := false, accepted := none, held := false, late := false, dueD := none, wD := none }

theorem State.slot_fireAt : (s.fireAt k i edge late).slot k i = (s.slot k i).fired s.bx.c.time := by
  have hsame : SameSlots s (((s.fireRecord k i (s.slot k i) edge late).count (evT k 0x100)).emit
      (.lpGo k (goEdge (s.slot k i).steer edge) (!(s.ten k).lpGo))) :=
    ((sameSlots_fireRecord _).trans (sameSlots_countT k 0x100 1)).trans (sameSlots_emit _)
  simp only [State.fireAt]
  rw [State.slot_modSlot, (hsame.trans (sameSlots_modTen k _)).slot, Slot.fired]

theorem State.out_fireAt : (s.fireAt k i edge late).out =
    .lpGo k (goEdge (s.slot k i).steer edge) (!(s.ten k).lpGo) :: s.out := by
  simp only [State.fireAt]
  refine congrArg (List.cons _) ?_
  exact (State.count_out ..).trans (State.bx_fireRecord _).1

theorem State.rd_fireAt (off : Nat) (hoff : 0x98 ≤ off) : (s.fireAt k i edge late).rd .baxel (tPage k off) =
    if off = 0x98 then s.rd .baxel (tPage k 0x98) + 1 else if off = 0x100 then s.rd .baxel (tPage k 0x100) + 1
    else s.rd .baxel (tPage k off) := by
  refine (State.rd_count_evT (s.fireRecord k i (s.slot k i) edge late) .baxel (tPage k off) k 1 (a := 0x100)).trans ?_
  simp only [tPage_inj, true_and, State.rd_fireRecord _ _ hoff, State.rd_fireRecord _ 0x100 (by omega)]
  by_cases h : off = 0x100 <;> simp [h]

theorem State.firedStep_fireAt : ((s.fireAt k i edge late).ten k).firedStep = some (s.slot k i).step := by
  rw [State.fireAt, State.ten_modSlot, State.ten_modTen]

/-- R415: a descriptor accepted at least 8 ns before its edge fires there. -/
theorem State.fireSlot_inTime {acc : Raw} (h : (s.slot k i).accepted = some acc) (hacc : 8 * 65536 ≤ Raw.diff edge acc) :
    s.fireSlot k i edge late = s.fireAt k i edge late := by
  simp only [State.fireSlot, h]
  rw [if_pos]
  rw [decide_eq_true hacc, Bool.true_or]

theorem Slot.state_bellNext (u : TimeUnit) (e : Slot) : (e.bellNext u).state ≠ .waiting := by
  simp only [Slot.bellNext]
  split <;> simp

theorem Slot.state_fired (u : TimeUnit) (e : Slot) : (e.fired u).state ≠ .waiting := by
  simp only [Slot.fired]
  split
  · exact e.state_bellNext u
  · simp

/-- R110, R415: a fire that has come leaves no slot waiting for its gates, and no counter of late takes. -/
theorem State.fireSlot_leaves : ((s.fireSlot k i edge late).slot k i).state ≠ .waiting ∧
    (s.fireSlot k i edge late).rd .baxel (tPage k 0x120) = s.rd .baxel (tPage k 0x120) := by
  have hlate : ∀ n, (s.count (evT k 0x128) n).rd .baxel (tPage k 0x120) = s.rd .baxel (tPage k 0x120) := by simp
  unfold State.fireSlot
  extract_lets e
  split
  · extract_lets alt
    split
    · rw [State.slot_fireAt]
      exact ⟨Slot.state_fired _ _, State.rd_fireAt 0x120 (by omega)⟩
    · rw [State.slot_fireAt]
      exact ⟨Slot.state_fired _ _, (State.rd_fireAt 0x120 (by omega)).trans (hlate 1)⟩
  · next others now tooLate s1 _ hacc =>
    have hs1 : (s1.slot k i).state ≠ .waiting ∧ s1.rd .baxel (tPage k 0x120) = s.rd .baxel (tPage k 0x120) := by
      refine ⟨?_, ?_⟩
      · simp only [s1]
        rw [State.slot_modSlot]
        dsimp only
        split_ifs <;> simp
      · simp only [s1]
        split
        · exact hlate 1
        · rfl
    split
    · exact hs1
    · exact hs1

end

/-! ### The gates of a launch (R108) -/

section
variable {s : State} {k i o : Nat}

theorem State.rd_modTen (u : State) (n : Nat) (f : Tenant → Tenant) (q : Part) (a : Nat) :
    (u.modTen n f).rd q a = u.rd q a := by
  cases q <;> rfl

theorem sameSlots_endWaiter {w : Waiter} (hw : ∀ j, w.source ≠ .gate j) (code : Code) :
    SameSlots s (s.endWaiter .baxel o w code) := by
  have hsample := sameSlots_sample (s := s) 0xF0100 (Raw.diff (s.raw .baxel) w.issued) none (some w.owner) none none
  simp only [State.endWaiter]
  split
  · exact hsample.trans (sameSlots_emit _)
  · exact hsample.trans (sameSlots_modTen _ _)
  · next j hj => exact absurd hj (hw j)
  · exact hsample

theorem State.rd_endWaiter {w : Waiter} (hw : ∀ j, w.source ≠ .gate j) (code : Code) (a : Nat) :
    (s.endWaiter .baxel o w code).rd .baxel a = s.rd .baxel a := by
  simp only [State.endWaiter]
  split
  · exact (State.rd_emit ..).trans (State.rd_sample ..)
  · rw [State.pushTcq, State.rd_modTen, State.rd_sample]
  · next j hj => exact absurd hj (hw j)
  · exact State.rd_sample ..

/-- R123: what a service of a Baxel's object leaves as it is: the slots, and every counter but that of completed takes. -/
theorem State.serveObj_leaves (s : State) (o : Nat) : SameSlots s (s.serveObj .baxel o) ∧
    ∀ n off, off < 0x234 → (s.serveObj .baxel o).rd .baxel (tPage n off) = s.rd .baxel (tPage n off) := by
  unfold State.serveObj
  split
  · exact ⟨.refl s, fun _ _ _ => rfl⟩
  · unfold State.serveFor
    extract_lets x
    split
    next v done rest hserve =>
    split
    · exact ⟨.refl s, fun _ _ _ => rfl⟩
    · extract_lets s1
      have hdone : ∀ w ∈ done, ∀ j, w.source ≠ .gate j := fun w hw =>
        not_gate_of_served (v := x.value) (l := x.waiters) (by rw [hserve]; exact hw)
      have hrd1 : ∀ a, s1.rd .baxel a = s.rd .baxel a := fun _ => rfl
      refine List.foldlRecOn (motive := fun u => SameSlots s u ∧
        ∀ n off, off < 0x234 → u.rd .baxel (tPage n off) = s.rd .baxel (tPage n off)) done _
        ⟨sameSlots_modObj _ _, fun _ _ _ => hrd1 _⟩ fun u hu w hw => ?_
      obtain ⟨hslots, hrd⟩ := hu
      refine ⟨(hslots.trans (sameSlots_countT _ _ _)).trans (sameSlots_endWaiter (hdone w hw) _), fun n off hoff => ?_⟩
      rw [State.rd_endWaiter (hdone w hw), State.rd_count_evT, if_neg, hrd n off hoff]
      simp only [tPage, true_and]
      omega

/-- R108: what the combined take leaves as it is. -/
theorem State.gateTake_leaves (s : State) (k i : Nat) (gates : List (Nat × Nat)) : SameSlots s (s.gateTake k i gates) ∧
    ∀ n off, off < 0x234 → (s.gateTake k i gates).rd .baxel (tPage n off) = s.rd .baxel (tPage n off) := by
  have hserve := List.foldlRecOn (motive := fun u => SameSlots s u ∧
    ∀ n off, off < 0x234 → u.rd .baxel (tPage n off) = s.rd .baxel (tPage n off)) gates
  simp only [State.gateTake]
  refine hserve _ ⟨?_, fun n off hoff => ?_⟩ fun u hu g _ => ?_
  · have hsub := sameSlots_foldl (f := fun (u : State) (g : Nat × Nat) =>
      u.modObj .baxel (u.objBase k + g.1) fun x => { x with value := x.value - g.2 }) gates (fun _ _ => sameSlots_modObj _ _) s
    exact (hsub.trans (sameSlots_dropGate k i)).trans (sameSlots_countT _ _ _)
  · rw [State.rd_count_evT, if_neg]
    · exact foldl_keeps (g := fun u : State => u.rd .baxel (tPage n off)) gates s fun _ _ _ => rfl
    · simp only [tPage, true_and]
      omega
  · obtain ⟨hslots, hrd⟩ := hu
    obtain ⟨hslots', hrd'⟩ := u.serveObj_leaves (u.objBase k + g.1)
    exact ⟨hslots.trans hslots', fun n off hoff => (hrd' n off hoff).trans (hrd n off hoff)⟩

/-- R108: gates that are not yet there: the launch waits, and nothing is subtracted. -/
theorem State.fireGated_waits {edge : Raw} {late : Bool} (hgates : slotGates (s.slot k i).tmpl ≠ [])
    (hok : s.gateRefused k (slotGates (s.slot k i).tmpl) = false) (hnot : s.gateReady k i (slotGates (s.slot k i).tmpl) = false)
    (hwait : (s.slot k i).tmpl.gateWait ≠ 0) (hroom : s.waitRoom k (slotGates (s.slot k i).tmpl).length = true) :
    ((s.fireGated k i edge late).slot k i).state = .waiting ∧ (s.fireGated k i edge late).out = s.out ∧
      ∀ o, ((s.fireGated k i edge late).obj .baxel o).value = (s.obj .baxel o).value := by
  have hvalue : ∀ (u : State) (o o' : Nat) (w : Waiter), ((u.joinWait .baxel o w).obj .baxel o').value =
      (u.obj .baxel o').value := by
    intro u o o' w
    by_cases ho : o' = o
    · subst ho
      rw [State.joinWait, State.obj_modObj]
    · rw [State.joinWait, State.obj_modObj_ne ho]
  simp only [State.fireGated, List.isEmpty_iff, hgates, hok, hnot, hwait, hroom, if_false, Bool.not_true, Bool.or_false,
    decide_false, Bool.false_eq_true]
  refine ⟨by rw [State.slot_modSlot], ?_, fun o => ?_⟩
  · exact foldl_keeps (g := fun u : State => u.out) _ s fun _ _ _ => rfl
  · exact foldl_keeps (g := fun u : State => (u.obj .baxel o).value) _ s fun _ _ _ => hvalue ..

theorem slotGates_eq_nil {t : Template} (h0 : t.gate0En = false) (h1 : t.gate1En = false) : slotGates t = [] := by
  simp [slotGates, h0, h1]

end

/-- Settles O25: each clause follows its command's branches; a fire is `fireAt`, whatever led to it. -/
theorem firesAtTheLaunchPort : Obligations.FiresAtTheLaunchPort := by
  unfold Obligations.FiresAtTheLaunchPort
  refine ⟨?present, ?early, ?accept, ?fires, ?notYet, ?waits, ?takes, ?keepsWaiting, ?expires, ?notExpired, ?bell, ?skipped⟩
  case present =>
    intro s k i d hdue hfire hpres hfence hok hnear honly
    have hothers : (s.slotsOf k).filter (fun x => x.1 ≠ i && (x.2.toFire || x.2.held || x.2.state = .waiting)) = [] :=
      List.filter_eq_nil_iff.mpr fun y hy => by simp [honly y hy]
    simp only [exec, execLaunchDescriptorPresent, hothers, hdue, hfire, hpres, hfence, hok, Bool.not_true, Bool.or_self,
      Bool.false_eq_true, if_false, List.any_nil, Int.not_lt.mpr hnear]
    refine ⟨_, rfl, ?_, rfl⟩
    rw [State.slot_emit, State.slot_modSlot]
  case early =>
    intro s k i d hdue hfar
    simp only [exec, execLaunchDescriptorPresent, hdue, hfar, if_true, ite_self]
  case accept =>
    intro s k i e hfind hheld
    simp only [exec, execLpAccept, hfind, State.slot_modSlot, hheld, Bool.false_eq_true, if_false]
    exact ⟨_, rfl, by rw [State.slot_modSlot], by rw [State.slot_modSlot], rfl⟩
  case fires =>
    intro s k i d acc hst hdue hheld hcome hlast h0 h1 hbell hacc hintime
    have hexec : exec (.fireCycle k i) s = .next (s.fireAt k i (s.launchEdge (s.slot k i) d) false) := by
      simp only [exec, execFireCycle, hst, hdue, hheld, hcome, hlast, Bool.not_true, Bool.or_self, Bool.false_eq_true,
        if_false, State.fireGated, slotGates_eq_nil h0 h1, List.isEmpty_nil, if_true, State.fireSlot_inTime hacc hintime]
    refine ⟨_, hexec, ?_, State.out_fireAt, State.rd_fireAt 0x98 le_rfl, State.firedStep_fireAt⟩
    rw [State.slot_fireAt]
    simp [Slot.fired, hbell]
  case notYet =>
    intro s k i d hdue hnot
    simp only [exec, execFireCycle, hdue]
    split
    · next d' _ hd =>
      obtain rfl := Option.some.inj hd
      simp only [hnot, Bool.not_false, Bool.or_true, if_true]
    · rfl
  case waits =>
    intro s k i d hst hdue hheld hcome hgates hok hnot hwait hroom
    refine ⟨_, ?_, State.fireGated_waits (edge := if (s.fireCycle k d).2 then (s.fireCycle k d).1 else
      s.launchEdge (s.slot k i) d) (late := (s.fireCycle k d).2) hgates hok hnot hwait hroom⟩
    simp [exec, execFireCycle, hst, hdue, hheld, hcome]
  case takes =>
    intro s k i o n hk hst hgates hok hready
    have hexec : exec (.gateTakeLate k i) s = .next (((s.gateTake k i [(o, n)]).count (evT k 0x120)).fireSlot k i
        (s.afterLast k (fireEdge (s.raw .baxel) + 65536)) true) := by
      simp [exec, execGateTakeLate, hst, hgates, hok, hready]
    refine ⟨_, hexec, State.fireSlot_leaves.1, State.fireSlot_leaves.2.trans ?_⟩
    rw [State.rd_count_evT, if_pos ⟨rfl, rfl⟩, (s.gateTake_leaves k i _).2 k 0x120 (by omega)]
    rfl
  case keepsWaiting =>
    intro s k i hst hok hnot
    simp [exec, execGateTakeLate, hst, hok, hnot]
  case expires =>
    intro s k i d hst hdue hbell hpast
    have hexec : exec (.gateWaitExpiry k i) s = .next (((s.count (evT k 0x124)).slotVoid k i).sendCtl
        (slotCtl .gateMiss (s.ten k) i (s.slot k i) 0x2005)) := by
      simp only [exec, execGateWaitExpiry, hst, hdue, hpast, if_true, State.gateMiss, hbell, Bool.false_eq_true, if_false]
    refine ⟨_, hexec, ?_, ?_, ?_⟩
    · obtain ⟨e, he, hvoid, -⟩ := State.slot_slotVoid_self (s := s.count (evT k 0x124)) (k := k) (i := i)
      rw [(sameSlots_sendCtl _).slot, he, hvoid]
    · rw [State.sendCtl, State.rd_emit, State.rd_slotVoid, State.rd_count_evT, if_pos ⟨rfl, rfl⟩]
      rfl
    · have hnode : ((s.count (evT k 0x124)).slotVoid k i).fld .baxel 0x0004 0 20 = s.fld .baxel 0x0004 0 20 := by
        refine State.fld_congr ?_ 0 20
        rw [State.rd_slotVoid, State.rd_count_evT, if_neg]
        simp only [tPage, true_and]
        omega
      rw [State.sendCtl, hnode]
      exact List.mem_cons_self
  case notExpired =>
    intro s k i d hdue hsoon
    simp only [exec, execGateWaitExpiry, hdue]
    split
    · next d' _ hd =>
      obtain rfl := Option.some.inj hd
      rw [if_neg (Int.not_le.mpr hsoon)]
    · rfl
  case bell =>
    intro s k i d acc hst hdue hheld hchange hok hcome hlast h0 h1 hacc hintime
    have hexec : exec (.bellFire k i) s = .next (s.fireAt k i (s.launchEdge (s.slot k i) d) false) := by
      simp only [exec, execBellFire, hst, hdue, hheld, hcome, hlast, hok, hchange, State.applyChange, Bool.not_true,
        Bool.or_self, Bool.false_eq_true, if_false, State.fireGated, slotGates_eq_nil h0 h1, List.isEmpty_nil, if_true,
        State.fireSlot_inTime hacc hintime]
    exact ⟨_, hexec, State.out_fireAt, State.rd_fireAt 0x98 le_rfl⟩
  case skipped =>
    intro s k i d hst hdue hheld hchange hfault hcome
    have hexec : exec (.bellFire k i) s = .next (((s.withdrawLp k i (s.slot k i)).modSlot k i fun e =>
        e.bellNext s.bx.c.time).count (evT k 0x11C)) := by
      simp only [exec, execBellFire, hst, hdue, hheld, hcome, hfault, hchange, State.applyChange, Bool.not_true,
        Bool.or_self, Bool.false_eq_true, if_false, if_true]
    have hsame := sameSlots_withdrawLp (s := s) (i := i) k (s.slot k i)
    have hrd : ∀ a, (s.withdrawLp k i (s.slot k i)).rd .baxel a = s.rd .baxel a := fun a => by
      simp only [State.withdrawLp]
      split <;> rfl
    refine ⟨_, hexec, ?_, ?_, ?_⟩
    · rw [(sameSlots_countT k 0x11C 1).slot, State.slot_modSlot, hsame.slot]
    · rw [State.rd_count_evT, if_neg (by simp)]
      exact hrd _
    · rw [State.rd_count_evT, if_pos ⟨rfl, rfl⟩]
      exact congrArg (· + 1) (hrd _)

end Sys2Proof.Machine

/-! The proof of O26: a tenant's fault (R114), and the fence of a Baxel with its lift (R116). -/

namespace Sys2Proof.Machine

section
variable {s u : State} {k i n : Nat}

/-! ### A slot by its number (R89): partitions may overlap -/

/-- The state of the launch list's slot with a number. -/
def State.stateAt (s : State) (n : Nat) : SlotState := (FMap.getD s.bx.slots n {}).state

theorem State.stateAt_slotNo (s : State) (k i : Nat) : s.stateAt (s.slotNo k i) = (s.slot k i).state := rfl

theorem SameSlots.stateAt (h : SameSlots s u) (n : Nat) : u.stateAt n = s.stateAt n := by
  rw [State.stateAt, h.1, State.stateAt]

theorem State.stateAt_modSlot (f : Slot → Slot) {st : SlotState} (hf : ∀ e, (f e).state = st) :
    (s.modSlot k i f).stateAt n = if n = s.slotNo k i then st else s.stateAt n := by
  split
  · next h =>
    subst h
    exact (congrArg Slot.state (State.slot_modSlot s k i f)).trans (hf _)
  · next h => exact congrArg Slot.state (FMap.getD_update_ne s.bx.slots h _ _ _)

theorem State.stateAt_slotVoid : (s.slotVoid k i).stateAt n = if n = s.slotNo k i then .void else s.stateAt n := by
  have hsame := (sameSlots_dropGate (s := s) k i).trans (sameSlots_withdrawLp (i := i) k (s.slot k i))
  refine (State.stateAt_modSlot _ fun _ => rfl).trans ?_
  rw [hsame.slotNo, hsame.stateAt]

/-- The words of the partitions are the same (R89). -/
def SameParts (s t : State) : Prop := ∀ k, k < 4 → t.rd .baxel (0x0400 + 4 * k) = s.rd .baxel (0x0400 + 4 * k)

theorem SameParts.slotNo (h : SameParts s u) (k i : Nat) : u.slotNo k i = s.slotNo k i := by
  by_cases hk : k < 4
  · simp only [State.slotNo, State.llCount, State.llBase, State.fld_congr (h k hk)]
    rfl
  · simp [State.slotNo, hk]

theorem SameParts.llCount (h : SameParts s u) (hk : k < 4) : u.llCount k = s.llCount k := State.fld_congr (h k hk) 10 11

theorem SameParts.trans {t : State} (h : SameParts s u) (h' : SameParts u t) : SameParts s t :=
  fun k hk => (h' k hk).trans (h k hk)

theorem sameParts_slotVoid : SameParts s (s.slotVoid k i) := fun _ _ => State.rd_slotVoid ..

/-! ### The fault of a tenant (R114) -/

theorem State.faultSlot_frame : SameParts s (s.faultSlot k i) ∧
    (n ≠ s.slotNo k i → (s.faultSlot k i).stateAt n = s.stateAt n) := by
  have hcount : SameSlots (s.slotVoid k i) ((s.slotVoid k i).count (evT k 0x104)) := sameSlots_countT k 0x104 1
  have hvoid : SameParts s ((s.slotVoid k i).count (evT k 0x104)) ∧
      (n ≠ s.slotNo k i → ((s.slotVoid k i).count (evT k 0x104)).stateAt n = s.stateAt n) :=
    ⟨SameParts.trans sameParts_slotVoid hcount.2, fun hn => by rw [hcount.stateAt, State.stateAt_slotVoid, if_neg hn]⟩
  simp only [State.faultSlot]
  split
  · exact hvoid
  · exact hvoid
  · exact hvoid
  · split
    · have hsame := sameSlots_withdrawLp (s := s) (i := i) k (s.slot k i)
      have hskip := sameSlots_countT (s := (s.withdrawLp k i (s.slot k i)).modSlot k i fun e => e.bellNext s.bx.c.time) k 0x11C 1
      refine ⟨SameParts.trans hsame.2 hskip.2, fun hn => ?_⟩
      rw [hskip.stateAt, ← hsame.stateAt]
      exact congrArg Slot.state (FMap.getD_update_ne _ (by rwa [hsame.slotNo]) _ _ _)
    · exact ⟨fun _ _ => rfl, fun _ => rfl⟩
  · exact ⟨fun _ _ => rfl, fun _ => rfl⟩

/-- R114: a fault voids an unfired slot, and leaves a void one. -/
theorem State.stateAt_faultSlot_self (h : (s.slot k i).unfired ∨ (s.slot k i).state = .void) :
    (s.faultSlot k i).stateAt (s.slotNo k i) = .void := by
  have hvoid : ((s.slotVoid k i).count (evT k 0x104)).stateAt (s.slotNo k i) = .void := by
    rw [(sameSlots_countT k 0x104 1).stateAt, State.stateAt_slotVoid, if_pos rfl]
  obtain (h | h | h) | h := h <;> simp only [State.faultSlot, h]
  · exact hvoid
  · exact hvoid
  · exact hvoid
  · exact h

/-- What a tenant's fault and the end of its waiters leave: the tenants' marks and the node word. -/
def SameTenants (k : Nat) (s t : State) : Prop :=
  (t.ten k).faulted = (s.ten k).faulted ∧ t.rd .baxel 0x0004 = s.rd .baxel 0x0004

theorem SameTenants.trans {t : State} (h : SameTenants k s u) (h' : SameTenants k u t) : SameTenants k s t :=
  ⟨h'.1.trans h.1, h'.2.trans h.2⟩

theorem sameTenants_countT (m off c : Nat) : SameTenants k s (s.count (evT m off) c) := by
  refine ⟨congrArg Tenant.faulted (State.ten_count ..), ?_⟩
  rw [State.rd_count_evT, if_neg]
  simp only [tPage, true_and]
  omega

theorem sameTenants_faultSlot : SameTenants k s (s.faultSlot k i) := by
  have hvoid : SameTenants k s ((s.slotVoid k i).count (evT k 0x104)) :=
    SameTenants.trans ⟨congrArg Tenant.faulted (State.ten_slotVoid ..), State.rd_slotVoid ..⟩ (sameTenants_countT ..)
  simp only [State.faultSlot]
  split
  · exact hvoid
  · exact hvoid
  · exact hvoid
  · split
    · refine SameTenants.trans (u := s.withdrawLp k i (s.slot k i)) ?_ (sameTenants_countT ..)
      simp only [State.withdrawLp]
      split <;> exact ⟨rfl, rfl⟩
    · exact ⟨rfl, rfl⟩
  · exact ⟨rfl, rfl⟩

theorem sameTenants_endWaiter {w : Waiter} (hw : ∀ j, w.source ≠ .gate j) (o : Nat) (code : Code) :
    SameTenants k s (s.endWaiter .baxel o w code) := by
  refine ⟨?_, State.rd_endWaiter hw code _⟩
  have hsample : ∀ ev d ten, ((s.sample .baxel ev d (ten := ten)).ten k).faulted = (s.ten k).faulted := by simp [State.ten]
  simp only [State.endWaiter]
  split
  · exact hsample ..
  · by_cases hk : k = w.owner
    · subst hk
      rw [State.pushTcq, State.ten_modTen]
      exact hsample ..
    · rw [State.pushTcq, State.ten_modTen_ne _ hk]
      exact hsample ..
  · next j hj => exact absurd hj (hw j)
  · exact hsample ..

/-- R114: the end of a tenant's waiters leaves the slots and the tenants' marks. -/
theorem State.endTenantWaiters_leaves (s : State) (m : Nat) (code : Code) :
    SameSlots s (s.endTenantWaiters m code) ∧ SameTenants k s (s.endTenantWaiters m code) := by
  refine List.foldlRecOn (motive := fun u => SameSlots s u ∧ SameTenants k s u) _ _ ⟨.refl s, rfl, rfl⟩ fun u hu x _ => ?_
  refine List.foldlRecOn (motive := fun u => SameSlots s u ∧ SameTenants k s u) _ _ ?_ fun u hu w _ => ?_
  · split
    · exact hu
    · exact ⟨hu.1.trans (sameSlots_modObj _ _), hu.2.trans ⟨rfl, rfl⟩⟩
  · split
    · exact hu
    · next hw => exact ⟨hu.1.trans (sameSlots_endWaiter hw _), hu.2.trans (sameTenants_endWaiter hw _ _)⟩

/-- A fold one of whose steps reaches what the others keep. -/
theorem foldl_reaches {α : Type} {f : State → α → State} {I Q : State → Prop} {l : List α} {x : α} (hx : x ∈ l)
    (hI : ∀ u, ∀ y ∈ l, I u → I (f u y)) (hQ : ∀ u, ∀ y ∈ l, I u → Q u → Q (f u y)) (hreach : ∀ u, I u → Q (f u x))
    (hs : I s) : I (l.foldl f s) ∧ Q (l.foldl f s) := by
  obtain ⟨l₁, l₂, rfl⟩ := List.append_of_mem hx
  rw [List.foldl_append, List.foldl_cons]
  have h₁ : I (l₁.foldl f s) := List.foldlRecOn l₁ f hs fun u hu y hy => hI u y (List.mem_append_left _ hy) hu
  refine List.foldlRecOn (motive := fun u => I u ∧ Q u) l₂ f ⟨hI _ _ hx h₁, hreach _ h₁⟩ fun u hu y hy => ?_
  have hmem : y ∈ l₁ ++ x :: l₂ := List.mem_append_right _ (List.mem_cons_of_mem _ hy)
  exact ⟨hI u y hmem hu.1, hQ u y hmem hu.1 hu.2⟩

/-- R114: an unfired slot of a tenant is void after the faults at the tenant's slots. -/
theorem State.state_foldl_faultSlot (hk : k < 4) (hi : i < s.llCount k) (h : (s.slot k i).unfired) :
    (((s.slotsOf k).foldl (fun s (j, _) => s.faultSlot k j) s).slot k i).state = .void := by
  have hmem : (i, s.slot k i) ∈ s.slotsOf k := by
    refine State.mem_slotsOf hk hi fun hfree => ?_
    simp [Slot.unfired, hfree] at h
  have hself : ∀ u : State, SameParts s u → (u.slot k i).unfired ∨ (u.slot k i).state = .void →
      ((u.faultSlot k i).slot k i).state = .void := fun u hu hst => by
    rw [← State.stateAt_slotNo, (State.faultSlot_frame (n := 0)).1.slotNo]
    exact State.stateAt_faultSlot_self hst
  have hother : ∀ (u : State) (j : Nat), j ≠ i → j < s.llCount k → SameParts s u →
      ((u.faultSlot k j).slot k i).state = (u.slot k i).state := fun u j hne hj hu => by
    rw [← State.stateAt_slotNo, (State.faultSlot_frame (n := 0)).1.slotNo]
    refine State.faultSlot_frame.2 fun hno => hne (State.slotNo_inj hk ?_ ?_ hno).symm
    · rw [hu.llCount hk]; exact hi
    · rw [hu.llCount hk]; exact hj
  refine (foldl_reaches (I := fun u => SameParts s u ∧ ((u.slot k i).unfired ∨ (u.slot k i).state = .void))
    (Q := fun u => (u.slot k i).state = .void) hmem (fun u y hy hu => ?_) (fun u y hy hu hQ => ?_)
    (fun u hu => hself u hu.1 hu.2) ⟨fun _ _ => rfl, .inl h⟩).2
  · obtain ⟨j, e⟩ := y
    refine ⟨hu.1.trans (State.faultSlot_frame (n := 0)).1, ?_⟩
    by_cases hne : j = i
    · subst hne
      exact .inr (hself u hu.1 hu.2)
    · have hkeep := hother u j hne (State.lt_of_mem_slotsOf hy).2 hu.1
      simp only [Slot.unfired, hkeep]
      exact hu.2
  · obtain ⟨j, e⟩ := y
    by_cases hne : j = i
    · subst hne
      exact hself u hu.1 hu.2
    · exact (hother u j hne (State.lt_of_mem_slotsOf hy).2 hu.1).trans hQ

/-- R114: what the fault of a tenant that was not faulted leaves. -/
theorem State.tenantFault_of_ok {cause : Code} (hok : (s.ten k).faulted = false) : ∃ u : State,
    (u.ten k).faulted = true ∧ u.rd .baxel 0x0004 = s.rd .baxel 0x0004 ∧
    (k < 4 → ∀ i, i < s.llCount k → (s.slot k i).unfired → (u.slot k i).state = .void) ∧
    s.tenantFault k cause = match (s.ten k).domain with
      | some d => (u.emit (.irqT k)).sendCtl
        { kind := .tenantFault, domain := d, epoch := (s.ten k).epoch
          step := (s.ten k).named.getD ((s.ten k).stepFirst.getD 0), status := cause }
      | none => u.emit (.irqT k) := by
  let s1 := (s.modTen k fun y => { y with faulted := true }).modCtr .baxel fun u =>
    { u with banks := FMap.update u.banks (k + 1) {} fun b => { b with poison := true } }
  have hs1 : SameSlots s s1 := ⟨rfl, fun _ _ => rfl⟩
  have hten1 : (s1.ten k).faulted = true := congrArg Tenant.faulted
    (State.ten_modTen s k fun y => { y with faulted := true })
  let s2 := (s1.slotsOf k).foldl (fun s (j, _) => s.faultSlot k j) s1
  have hten2 : SameTenants k s1 s2 := List.foldlRecOn (motive := fun u => SameTenants k s1 u) _ _ ⟨rfl, rfl⟩
    fun u hu x _ => hu.trans sameTenants_faultSlot
  obtain ⟨hslots3, hten3⟩ := s2.endTenantWaiters_leaves k 0x300C (k := k)
  refine ⟨s2.endTenantWaiters k 0x300C, ?_, ?_, fun hk i hi hst => ?_, ?_⟩
  · rw [hten3.1, hten2.1, hten1]
  · rw [hten3.2, hten2.2]
    rfl
  · rw [hslots3.slot]
    refine State.state_foldl_faultSlot hk (by rw [hs1.llCount hk]; exact hi) ?_
    rw [hs1.slot]
    exact hst
  · simp only [State.tenantFault, hok, Bool.false_eq_true, if_false]
    rfl

/-! ### The fence of a Baxel (R116) -/

/-- R116: what a fence voids. -/
def Slot.running (e : Slot) : Prop := e.unfired ∨ e.state = .bellRun

/-- R116: a fence at one slot, under the state it was listed with. -/
def State.fenceSlot (s : State) (k : Nat) (x : Nat × Slot) : State :=
  match x.2.state with
  | .armed => (s.slotVoid k x.1).count (evT k 0x104)
  | .tamped => (s.slotVoid k x.1).count (evT k 0x104)
  | .waiting => (s.slotVoid k x.1).count (evT k 0x104)
  | .bellRun => (s.slotVoid k x.1).count (evT k 0x104)
  | _ => s

theorem State.voidUnfired_eq (s : State) : s.voidUnfired =
    (List.range 4).foldl (fun s k => (s.slotsOf k).foldl (fun s x => s.fenceSlot k x) s) s := rfl

theorem State.fenceSlot_cases (s : State) (k : Nat) (x : Nat × Slot) :
    (¬x.2.running ∧ s.fenceSlot k x = s) ∨ (x.2.running ∧ s.fenceSlot k x = (s.slotVoid k x.1).count (evT k 0x104)) := by
  cases hst : x.2.state <;> simp [State.fenceSlot, Slot.running, Slot.unfired, hst]

/-- R116: the fence's marks, and the numbers of the slots, after a fence at one slot. -/
theorem State.fenceSlot_leaves (s : State) (k : Nat) (x : Nat × Slot) : SameParts s (s.fenceSlot k x) ∧
    (s.fenceSlot k x).bx.fenced = s.bx.fenced ∧ (s.fenceSlot k x).bx.fenceSeq = s.bx.fenceSeq := by
  obtain ⟨-, h⟩ | ⟨-, h⟩ := s.fenceSlot_cases k x <;> rw [h]
  · exact ⟨fun _ _ => rfl, rfl, rfl⟩
  · refine ⟨sameParts_slotVoid.trans (sameSlots_countT k 0x104 1).2, ?_, ?_⟩ <;>
    · simp only [State.count_bx_fenced, State.count_bx_fenceSeq, State.slotVoid, State.withdrawLp]
      split <;> rfl

theorem State.stateAt_fenceSlot (x : Nat × Slot) : (s.fenceSlot k x).stateAt n = s.stateAt n ∨
    (s.fenceSlot k x).stateAt n = .void := by
  obtain ⟨-, h⟩ | ⟨-, h⟩ := s.fenceSlot_cases k x <;> rw [h]
  · exact .inl rfl
  · rw [(sameSlots_countT k 0x104 1).stateAt, State.stateAt_slotVoid]
    split
    · exact .inr rfl
    · exact .inl rfl

theorem State.stateAt_fenceSlot_self {x : Nat × Slot} (h : x.2.running) :
    (s.fenceSlot k x).stateAt (s.slotNo k x.1) = .void := by
  obtain ⟨hx, -⟩ | ⟨-, hx⟩ := s.fenceSlot_cases k x
  · exact absurd h hx
  · rw [hx, (sameSlots_countT k 0x104 1).stateAt, State.stateAt_slotVoid, if_pos rfl]

/-- R116: the fence's marks and the numbers of the slots stay while the slots are gone through. -/
def SameFence (s t : State) : Prop := SameParts s t ∧ t.bx.fenced = s.bx.fenced ∧ t.bx.fenceSeq = s.bx.fenceSeq

theorem SameFence.trans {t : State} (h : SameFence s u) (h' : SameFence u t) : SameFence s t :=
  ⟨h.1.trans h'.1, h'.2.1.trans h.2.1, h'.2.2.trans h.2.2⟩

/-- R116: a fence at the slots of one tenant. -/
def State.fenceTenant (s : State) (k : Nat) : State := (s.slotsOf k).foldl (fun s x => s.fenceSlot k x) s

theorem State.fenceTenant_leaves (s : State) (k : Nat) : SameFence s (s.fenceTenant k) ∧
    ((s.fenceTenant k).stateAt n = s.stateAt n ∨ (s.fenceTenant k).stateAt n = .void) := by
  refine List.foldlRecOn (motive := fun u => SameFence s u ∧ (u.stateAt n = s.stateAt n ∨ u.stateAt n = .void)) _ _
    ⟨⟨fun _ _ => rfl, rfl, rfl⟩, .inl rfl⟩ fun u hu x _ => ⟨hu.1.trans (u.fenceSlot_leaves k x), ?_⟩
  obtain h | h := State.stateAt_fenceSlot (s := u) (k := k) (n := n) x
  · rw [h]
    exact hu.2
  · exact .inr h

/-- R116: a running slot of a tenant is void after the fence at the tenant's slots. -/
theorem State.stateAt_fenceTenant (hk : k < 4) (hi : i < s.llCount k) (h : (s.slot k i).running) :
    (s.fenceTenant k).stateAt (s.slotNo k i) = .void := by
  have hmem : (i, s.slot k i) ∈ s.slotsOf k := by
    refine State.mem_slotsOf hk hi fun hfree => ?_
    simp [Slot.running, Slot.unfired, hfree] at h
  refine (foldl_reaches (I := fun u => SameParts s u) (Q := fun u => u.stateAt (s.slotNo k i) = .void) hmem
    (fun u x _ hu => hu.trans (u.fenceSlot_leaves k x).1) (fun u x _ _ hQ => ?_) (fun u hu => ?_) fun _ _ => rfl).2
  · obtain hx | hx := State.stateAt_fenceSlot (s := u) (k := k) (n := s.slotNo k i) x
    · exact hx.trans hQ
    · exact hx
  · rw [← hu.slotNo]
    exact State.stateAt_fenceSlot_self h

/-- R116: what a fence leaves. -/
theorem State.voidUnfired_leaves (s : State) : SameFence s s.voidUnfired :=
  List.foldlRecOn (motive := fun u => SameFence s u) _ _ ⟨fun _ _ => rfl, rfl, rfl⟩
    fun u hu k _ => hu.trans (u.fenceTenant_leaves k (n := 0)).1

theorem State.stateAt_voidUnfired (hk : k < 4) (hi : i < s.llCount k) (h : (s.slot k i).running) :
    s.voidUnfired.stateAt (s.slotNo k i) = .void := by
  refine (foldl_reaches (I := fun u => SameParts s u ∧ (u.stateAt (s.slotNo k i) = s.stateAt (s.slotNo k i) ∨
    u.stateAt (s.slotNo k i) = .void)) (Q := fun u => u.stateAt (s.slotNo k i) = .void) (f := State.fenceTenant)
    (List.mem_range.mpr hk) (fun u x _ hu => ?_) (fun u x _ _ hQ => ?_) (fun u hu => ?_) ⟨fun _ _ => rfl, .inl rfl⟩).2
  · obtain ⟨hsame, hst⟩ := u.fenceTenant_leaves x (n := s.slotNo k i)
    refine ⟨hu.1.trans hsame.1, ?_⟩
    rcases hst with hst | hst
    · rw [hst]
      exact hu.2
    · exact .inr hst
  · rcases (u.fenceTenant_leaves x (n := s.slotNo k i)).2 with hst | hst
    · exact hst.trans hQ
    · exact hst
  · obtain ⟨hparts, hst | hst⟩ := hu
    · rw [← hparts.slotNo] at hst ⊢
      refine State.stateAt_fenceTenant hk (by rw [hparts.llCount hk]; exact hi) ?_
      rw [State.stateAt_slotNo, hparts.slotNo, State.stateAt_slotNo] at hst
      simpa [Slot.running, Slot.unfired, hst] using h
    · rcases (u.fenceTenant_leaves k (n := s.slotNo k i)).2 with hst' | hst'
      · exact hst'.trans hst
      · exact hst'

/-! ### The lift (R115, R116) -/

theorem State.stateAt_reload : (s.modSlot k i fun e => { e with state := .loaded }).stateAt n =
    if n = s.slotNo k i then .loaded else s.stateAt n :=
  State.stateAt_modSlot _ fun _ => rfl

/-- R115: what a reload leaves: a slot is as it was, or LOADED. -/
theorem State.reloadVoids_leaves (s : State) (k : Nat) : SameFence s (s.reloadVoids k) ∧
    (∀ m, (s.reloadVoids k).ten m = s.ten m) ∧
    ((s.reloadVoids k).stateAt n = s.stateAt n ∨ (s.reloadVoids k).stateAt n = .loaded) := by
  refine List.foldlRecOn (motive := fun u => SameFence s u ∧ (∀ m, u.ten m = s.ten m) ∧
    (u.stateAt n = s.stateAt n ∨ u.stateAt n = .loaded)) _ _ ⟨⟨fun _ _ => rfl, rfl, rfl⟩, fun _ => rfl, .inl rfl⟩ fun u hu x _ => ?_
  dsimp only
  split
  · refine ⟨hu.1, hu.2.1, ?_⟩
    rw [State.stateAt_reload]
    split
    · exact .inr rfl
    · exact hu.2.2
  · exact hu

theorem State.stateAt_reloadVoids (hk : k < 4) (hi : i < s.llCount k) (h : (s.slot k i).state = .void) :
    (s.reloadVoids k).stateAt (s.slotNo k i) = .loaded := by
  have hmem : (i, s.slot k i) ∈ s.slotsOf k := State.mem_slotsOf hk hi (by simp [h])
  refine (foldl_reaches (I := fun u => SameParts s u) (Q := fun u => u.stateAt (s.slotNo k i) = .loaded) hmem
    (fun u x _ hu => ?_) (fun u x _ hu hQ => ?_) (fun u hu => ?_) fun _ _ => rfl).2
  · dsimp only
    split <;> exact hu
  · dsimp only
    split
    · rw [State.stateAt_reload]
      split
      · rfl
      · exact hQ
    · exact hQ
  · dsimp only
    rw [if_pos h, State.stateAt_reload, if_pos (hu.slotNo k i).symm]

/-- R116: the reload of one tenant at the lift of a fence. -/
def State.liftTenant (s : State) (k : Nat) : State := if (s.ten k).faulted then s else s.reloadVoids k

theorem State.liftTenant_leaves (s : State) (k : Nat) : SameFence s (s.liftTenant k) ∧
    (∀ m, (s.liftTenant k).ten m = s.ten m) ∧
    ((s.liftTenant k).stateAt n = s.stateAt n ∨ (s.liftTenant k).stateAt n = .loaded) := by
  simp only [State.liftTenant]
  split
  · exact ⟨⟨fun _ _ => rfl, rfl, rfl⟩, fun _ => rfl, .inl rfl⟩
  · exact s.reloadVoids_leaves k

/-- R116: the lift at the four tenants. -/
theorem State.liftTenants (s : State) : SameFence s ((List.range 4).foldl State.liftTenant s) ∧
    (k < 4 → i < s.llCount k → (s.slot k i).state = .void → (s.ten k).faulted = false →
      ((List.range 4).foldl State.liftTenant s).stateAt (s.slotNo k i) = .loaded) := by
  refine ⟨List.foldlRecOn (motive := fun u => SameFence s u) _ _ ⟨fun _ _ => rfl, rfl, rfl⟩
    fun u hu k _ => hu.trans (u.liftTenant_leaves k (n := 0)).1, fun hk hi hst hok => ?_⟩
  refine (foldl_reaches (I := fun u => SameParts s u ∧ (∀ m, u.ten m = s.ten m) ∧
    (u.stateAt (s.slotNo k i) = .void ∨ u.stateAt (s.slotNo k i) = .loaded))
    (Q := fun u => u.stateAt (s.slotNo k i) = .loaded) (List.mem_range.mpr hk)
    (fun u x _ hu => ?_) (fun u x _ _ hQ => ?_) (fun u hu => ?_) ⟨fun _ _ => rfl, fun _ => rfl, .inl hst⟩).2
  · obtain ⟨hsame, hten, hst'⟩ := u.liftTenant_leaves x (n := s.slotNo k i)
    refine ⟨hu.1.trans hsame.1, fun m => (hten m).trans (hu.2.1 m), ?_⟩
    rcases hst' with hst' | hst'
    · rw [hst']
      exact hu.2.2
    · exact .inr hst'
  · rcases (u.liftTenant_leaves x (n := s.slotNo k i)).2.2 with hst' | hst'
    · exact hst'.trans hQ
    · exact hst'
  · obtain ⟨hparts, hten, hvoid | hloaded⟩ := hu
    · rw [← hparts.slotNo] at hvoid ⊢
      rw [State.liftTenant, hten, if_neg (by simp [hok])]
      exact State.stateAt_reloadVoids hk (by rw [hparts.llCount hk]; exact hi) hvoid
    · rcases (u.liftTenant_leaves k (n := s.slotNo k i)).2.2 with hst' | hst'
      · exact hst'.trans hloaded
      · exact hst'

end

/-- Settles O26: folds over the slots of a tenant, in which the slot named is reached once and then kept. -/
theorem tenantFaultsAndFences : Obligations.TenantFaultsAndFences := by
  unfold Obligations.TenantFaultsAndFences
  refine ⟨?faults, ?voids, ?faulted, ?fence, ?oldFence, ?lift, ?oldLift⟩
  case faults =>
    intro s k d hk hok hdom
    obtain ⟨u, hfault, hnode, -, heq⟩ := s.tenantFault_of_ok (cause := 0x2017) hok
    rw [hdom] at heq
    refine ⟨s.tenantFault k 0x2017, by simp only [exec, execLpErrInput, hk, if_true], ?_⟩
    rw [heq]
    refine ⟨hfault, List.mem_cons_of_mem _ List.mem_cons_self, ?_⟩
    rw [← State.fld_congr hnode 0 20]
    exact List.mem_cons_self
  case voids =>
    intro s k i hk hok hi hst
    obtain ⟨u, -, -, hvoid, heq⟩ := s.tenantFault_of_ok (cause := 0x2017) hok
    refine ⟨s.tenantFault k 0x2017, by simp only [exec, execLpErrInput, hk, if_true], ?_⟩
    rw [heq]
    cases (s.ten k).domain <;> exact hvoid hk i hi hst
  case faulted =>
    intro s k hfault
    simp only [exec, execLpErrInput, State.tenantFault, hfault, if_true, ite_self]
  case fence =>
    intro s n k i hset hnews hk hi hst
    have hrun : (s.slot k i).running := by simpa [Slot.running, Slot.unfired, or_assoc] using hst
    let s1 := s.modBx fun b => { b with fenced := true, fenceSeq := some n.fenceSeq }
    obtain ⟨hparts, hfenced, hseq⟩ := s1.voidUnfired_leaves
    refine ⟨s1.voidUnfired, by simp [exec, execBxFenceNotice, hset, hnews, s1], hfenced, hseq, ?_⟩
    rw [← State.stateAt_slotNo, hparts.slotNo]
    exact State.stateAt_voidUnfired (s := s1) hk hi hrun
  case oldFence =>
    rintro s n (h | h) <;> simp [exec, execBxFenceNotice, h]
  case lift =>
    intro s n k i hclear hnews hk hi hst hok
    let s1 := s.modBx fun b => { b with fenced := false, fenceSeq := some n.fenceSeq }
    obtain ⟨⟨hparts, hfenced, -⟩, hloaded⟩ := s1.liftTenants (k := k) (i := i)
    refine ⟨(List.range 4).foldl State.liftTenant s1, ?_, hfenced, ?_⟩
    · simp only [exec, execBxFenceLift, hclear, hnews, Bool.not_true, Bool.or_self, Bool.false_eq_true, if_false]
      rfl
    · rw [← State.stateAt_slotNo, hparts.slotNo]
      exact hloaded hk hi hst hok
  case oldLift =>
    rintro s n (h | h) <;> simp [exec, execBxFenceLift, h]

end Sys2Proof.Machine

/-! The proof of O27: packets entering a port (R275, R300) and the packet boundary (R276, R283, R301). -/

namespace Sys2Proof.Machine

section
variable {s t : State} {p : Part} {n : Nat}

/-! ### What an entry into the ledger leaves (R287) -/

/-- The same words, time unit and gate lists at a part: what the gates and rates of its ports are read from. -/
structure SameGates (p : Part) (s t : State) : Prop where
  rd : ∀ q a, t.rd q a = s.rd q a
  time : (t.pc p).time = (s.pc p).time
  gates : (t.pc p).link.gates = (s.pc p).link.gates

theorem SameGates.fld (h : SameGates p s t) (q : Part) (a lo len : Nat) : t.fld q a lo len = s.fld q a lo len :=
  State.fld_congr (h.rd q a) lo len

theorem SameGates.bit (h : SameGates p s t) (q : Part) (a i : Nat) : t.bit q a i = s.bit q a i := by
  rw [State.bit, State.bit, h.fld]

theorem SameGates.gated (h : SameGates p s t) : t.gated p n = s.gated p n := by
  simp only [State.gated, h.bit, h.time, State.gp, h.gates]

theorem SameGates.gateCode (h : SameGates p s t) (l : GateList) (x : Packet) : t.gateCode p n l x = s.gateCode p n l x := by
  have hrate : t.rate p n = s.rate p n := by
    cases p <;> simp only [State.rate, State.isQuad, State.isSpine, State.isV2Port, h.bit, h.fld] <;> rfl
  have hcounted : t.counted p n x = s.counted p n x := by simp only [State.counted, h.fld]
  simp only [State.gateCode, hrate, hcounted]

/-- R287: an entry into the ledger is a change of the ledger and of the counters that show it. -/
theorem State.modLedger_tallies {P : State → Prop} (f : Ledger → Ledger) (hP : ∀ u e k, P u → P (State.tally u e k))
    (hs : P (s.modLink p fun u => { u with
      ledger := f (s.pc p).link.ledger
      portLedgers := match p with
        | .baxel => FMap.update u.portLedgers n {} f
        | .kresia => u.portLedgers })) : P (s.modLedger p n f) := by
  have hif : ∀ (k : Nat) (u : State) (e : Ev), P u → P (if k = 0 then u else u.tally e k) := fun k u e hu => by
    split
    · exact hu
    · exact hP u e k hu
  unfold State.modLedger
  exact hif _ _ _ (hif _ _ _ (hif _ _ _ (hif _ _ _ (hif _ _ _ hs))))

theorem State.modLedger_leaves (f : Ledger → Ledger) : SameGates p s (s.modLedger p n f) ∧
    ((s.modLedger p n f).pc p).link.ports = (s.pc p).link.ports ∧
    ((s.modLedger p n f).pc p).link.ledger = f (s.pc p).link.ledger ∧ (s.modLedger p n f).out = s.out := by
  refine State.modLedger_tallies (P := fun u => SameGates p s u ∧ (u.pc p).link.ports = (s.pc p).link.ports ∧
    (u.pc p).link.ledger = f (s.pc p).link.ledger ∧ u.out = s.out) f (fun u e k hu => ?_) ?_
  · obtain ⟨⟨hrd, htime, hgates⟩, hports, hledger, hout⟩ := hu
    refine ⟨⟨fun q a => ?_, ?_, ?_⟩, ?_, ?_, ?_⟩
    · rw [State.rd_tally, hrd]
    · rw [State.tally_time, htime]
    · rw [State.tally_link, hgates]
    · rw [State.tally_link, hports]
    · rw [State.tally_link, hledger]
    · rw [State.tally_out, hout]
  · refine ⟨⟨fun q a => ?_, ?_, ?_⟩, ?_, ?_, ?_⟩ <;> cases p
    any_goals rfl
    all_goals cases q <;> rfl

theorem State.lp_congr (h : (t.pc p).link.ports = (s.pc p).link.ports) : t.lp p n = s.lp p n := by
  rw [State.lp, h, State.lp]

theorem State.link_tagDraw (x : Packet) : ((s.tagDraw p n x).2.pc p).link = (s.pc p).link := by
  cases p <;>
  · simp only [State.tagDraw]
    split <;> rfl

/-- R286: returned credit leaves the queues and the ledger. -/
theorem State.giveBackOf_leaves (q : QEntry) (c : Nat) : (s.giveBackOf p q).queue p n c = s.queue p n c ∧
    ((s.giveBackOf p q).pc p).link.ledger = (s.pc p).link.ledger := by
  have hmod : ∀ (m : Nat) (f : LinkPort → LinkPort), (∀ x, (f x).queues = x.queues) →
      (s.modLp p m f).queue p n c = s.queue p n c ∧ ((s.modLp p m f).pc p).link.ledger = (s.pc p).link.ledger := by
    refine fun m f hf => ⟨?_, by cases p <;> rfl⟩
    by_cases hm : n = m
    · subst hm
      rw [State.queue, State.lp_modLp, hf, State.queue]
    · rw [State.queue, State.lp_modLp_ne _ _ hm, State.queue]
  simp only [State.giveBackOf, State.giveBack, State.giveBackDom]
  split
  · exact hmod _ _ fun _ => rfl
  · exact hmod _ _ fun _ => rfl
  · exact ⟨rfl, rfl⟩

/-- R275: what an entry writes into the ledger, after the source of its packet. -/
def Ledger.entered (src : PacketSource) (k : Nat) (l : Ledger) : Ledger :=
  match src with
  | .local' _ => l.enter k
  | .forward _ true => l.replicate k
  | .forward _ false => l

theorem Ledger.flushed_entered (src : PacketSource) (k : Nat) (l : Ledger) : (l.entered src k).flushed = l.flushed := by
  unfold Ledger.entered
  split <;> rfl

/-! ### A new packet starts (R277, R283) -/

theorem State.modLp_pkts (s : State) (p : Part) (n : Nat) (f : LinkPort → LinkPort) :
    (s.modLp p n f).queue p n = fun c => FMap.getD (f (s.lp p n)).queues c [] := by
  funext c
  rw [State.queue, State.lp_modLp]

theorem State.lp_count (e : Ev) (c : Nat) : (s.count e c).lp p n = s.lp p n := State.lp_congr (by rw [State.count_link])

/-- R299, R303: counting the holds leaves the copies, and what goes out next. -/
theorem State.countHolds_leaves (s : State) (p : Part) (n : Nat) :
    ((s.countHolds p n).lp p n).copies = (s.lp p n).copies ∧ ((s.countHolds p n).lp p n).nextSeq = (s.lp p n).nextSeq := by
  refine List.foldlRecOn (motive := fun u : State => (u.lp p n).copies = (s.lp p n).copies ∧
    (u.lp p n).nextSeq = (s.lp p n).nextSeq) _ _ ⟨rfl, rfl⟩ fun u hu c _ => ?_
  split
  · exact hu
  · dsimp only
    split
    · rw [State.lp_count]
      split
      · rw [State.lp_count, State.lp_modLp]
        exact hu
      · exact hu
    · split
      · rw [State.lp_count, State.lp_modLp]
        exact hu
      · exact hu

/-- R298, R302: the wire is busy, the counters and queues stand. -/
theorem State.wireBusy_leaves (s : State) (p : Part) (n : Nat) (x : Packet) (c : Option Nat) :
    ∃ b, (s.wireBusy p n x c).lp p n = { s.lp p n with busy := some b } ∧
      ∀ q a, (s.wireBusy p n x c).rd q a = s.rd q a :=
  ⟨_, State.lp_modLp .., fun _ _ => State.modLp_rd ..⟩

theorem State.startNew_effect {c : Nat} {d : FMap Nat} {q : QEntry} {rest : List QEntry} (hq : s.queue p n c = q :: rest) :
    (s.startNew p n c d).queue p n c = rest ∧
      ((s.startNew p n c d).lp p n).copies.map (·.lseq) = (s.lp p n).copies.map (·.lseq) ++ [(s.lp p n).nextSeq] ∧
      ((s.startNew p n c d).lp p n).nextSeq = ((s.lp p n).nextSeq + 1) % 65536 ∧
      ((s.startNew p n c d).lp p n).busy.isSome = true ∧
      (s.startNew p n c d).rd p (lkAddr p n 0x2C) = s.rd p (lkAddr p n 0x2C) + 1 := by
  simp only [State.startNew, hq]
  generalize hs1 : s.modLp p n _ = s1
  obtain ⟨b, hbusy, hrd⟩ := (s1.count (evLk p n 0x2C)).wireBusy_leaves p n q.pkt (some c)
  generalize hs2 : (s1.count (evLk p n 0x2C)).wireBusy p n q.pkt (some c) = s2 at hbusy hrd ⊢
  have heffect : s2.queue p n c = rest ∧ (s2.lp p n).copies.map (·.lseq) = (s.lp p n).copies.map (·.lseq) ++ [(s.lp p n).nextSeq] ∧
      (s2.lp p n).nextSeq = ((s.lp p n).nextSeq + 1) % 65536 ∧ (s2.lp p n).busy.isSome = true ∧
      s2.rd p (lkAddr p n 0x2C) = s.rd p (lkAddr p n 0x2C) + 1 := by
    rw [State.queue, hbusy, hrd, State.lp_count, ← hs1, State.lp_modLp]
    refine ⟨?_, ?_, rfl, rfl, ?_⟩
    · cases rest with
      | nil => simp [FMap.getD]
      | cons y ys => simp
    · simp
    · rw [State.rd_count _ _ _ _ rfl rfl rfl rfl rfl, if_pos ⟨rfl, rfl⟩]
      exact congrArg (· + 1) (State.modLp_rd ..)
  cases p with
  | baxel => exact heffect
  | kresia =>
    have hlp : ∀ d, (s2.sample .kresia 0xF0183 d (port := some n) (cls := some c)).lp .kresia n = s2.lp .kresia n :=
      fun d => State.lp_congr (congrArg LinkUnit.ports (State.sample_link ..))
    simpa only [State.queue, hlp, State.rd_sample] using heffect

/-- R276, R301: an idle port with nothing to resend starts the head of the class chosen. -/
theorem State.boundary_starts {c : Nat} {d : FMap Nat} (hup : s.up p n = true) (hidle : (s.lp p n).busy = none)
    (hnone : (s.lp p n).resend = []) (hc : (s.countHolds p n).choose p n = some (c, d)) :
    s.boundary p n = (s.countHolds p n).startNew p n c d := by
  simp [State.boundary, hup, hidle, hnone, hc]

theorem State.boundary_effect {c : Nat} {d : FMap Nat} {q : QEntry} {rest : List QEntry} (hup : s.up p n = true)
    (hidle : (s.lp p n).busy = none) (hnone : (s.lp p n).resend = []) (hc : (s.countHolds p n).choose p n = some (c, d))
    (hq : (s.countHolds p n).queue p n c = q :: rest) :
    (s.boundary p n).queue p n c = rest ∧
      ((s.boundary p n).lp p n).copies.map (·.lseq) = (s.lp p n).copies.map (·.lseq) ++ [(s.lp p n).nextSeq] ∧
      ((s.boundary p n).lp p n).nextSeq = ((s.lp p n).nextSeq + 1) % 65536 ∧
      ((s.boundary p n).lp p n).busy.isSome = true ∧
      (s.boundary p n).rd p (lkAddr p n 0x2C) = (s.countHolds p n).rd p (lkAddr p n 0x2C) + 1 := by
  obtain ⟨hcopies, hseq⟩ := s.countHolds_leaves p n
  rw [State.boundary_starts hup hidle hnone hc, ← hcopies, ← hseq]
  exact State.startNew_effect hq

/-- R275: the queue entry of a packet from a source. -/
def QEntry.of (src : PacketSource) (enq : Raw) (x : Packet) : QEntry :=
  { pkt := x, enq := enq, inPort := match src with
    | .forward i false => some i
    | _ => none }

/-- R275: what an enqueue does when no code refuses the packet. -/
theorem execPacketEnqueue_taken {src : PacketSource} {x : Packet} (h : s.enqCode p n x = none) :
    execPacketEnqueue p n src x s =
      let q := QEntry.of src (s.raw p) x
      let s1 := s.modLedger p n (Ledger.entered src (cost x))
      if !s1.up p n then
        .next (((s1.modLedger p n (Ledger.flush · (cost x))).count (evLk p n 0x38) (cost x)).giveBackOf p q)
      else match (s1.gated p n).bind fun l => s1.gateCode p n l x with
        | some code => .next (s1.gateRefusal p n src q code)
        | none => .next ((s1.tagDraw p n x).2.modLp p n fun y =>
            { y with queues := FMap.update y.queues x.tc [] (· ++ [{ q with tagged := (s1.tagDraw p n x).1 }]) }) := by
  simp only [execPacketEnqueue, h]
  rfl

end

/-- Settles O27: a packet's way into a port, and the start of the class chosen, branch by branch. -/
theorem packetsEnteringAPort : Obligations.PacketsEnteringAPort := by
  unfold Obligations.PacketsEnteringAPort
  refine ⟨?refused, ?joins, ?flushed, ?down, ?starts, ?isBoundary, ?recovered, ?noCredit⟩
  case refused =>
    intro s p n src x code hcode
    refine ⟨(s.count (evLk p n 0x34)).lkCode p n code, by simp only [exec, execPacketEnqueue, hcode], ?_, ?_, ?_⟩
    · rw [State.lkCode, State.setFld_link, State.count_link]
    · rw [State.lkCode, State.fld_setFld_self _ _ _ (by omega)]
      exact Nat.mod_eq_of_lt code.isLt
    · rw [State.lkCode, State.setFld_out, State.count_out]
  case joins =>
    intro s p n src x hcode hup hopen
    have hexec := execPacketEnqueue_taken (src := src) hcode
    obtain ⟨hsame, hports, hledger, -⟩ := s.modLedger_leaves (p := p) (n := n) (Ledger.entered src (cost x))
    generalize s.modLedger p n (Ledger.entered src (cost x)) = s1 at hexec hsame hports hledger
    have hup1 : s1.up p n = true := by rw [State.up, State.lp_congr hports]; exact hup
    have hcode1 : (s1.gated p n).bind (fun l => s1.gateCode p n l x) = none := by
      rw [hsame.gated]
      simpa only [hsame.gateCode] using hopen
    simp only [hup1, hcode1, Bool.not_true, Bool.false_eq_true, if_false] at hexec
    refine ⟨_, hexec, ?_, ?_⟩
    · rw [State.modLp_pkts, State.lp_congr (congrArg LinkUnit.ports (State.link_tagDraw x)), State.queue, State.lp_congr hports]
      simp [QEntry.of]
    · have hlink : ∀ (u : State) (f : LinkPort → LinkPort), ((u.modLp p n f).pc p).link.ledger = (u.pc p).link.ledger :=
        fun u f => by cases p <;> rfl
      rw [hlink, State.link_tagDraw, hledger, Ledger.flushed_entered]
  case flushed =>
    intro s p n src x hcode hdown
    have hexec := execPacketEnqueue_taken (src := src) hcode
    obtain ⟨-, hports, hledger, -⟩ := s.modLedger_leaves (p := p) (n := n) (Ledger.entered src (cost x))
    generalize s.modLedger p n (Ledger.entered src (cost x)) = s1 at hexec hports hledger
    have hdown1 : s1.up p n = false := by rw [State.up, State.lp_congr hports]; exact hdown
    simp only [hdown1, Bool.not_false, if_true] at hexec
    obtain ⟨-, hports2, hledger2, -⟩ := s1.modLedger_leaves (p := p) (n := n) (Ledger.flush · (cost x))
    refine ⟨_, hexec, ?_, ?_⟩
    · rw [(State.giveBackOf_leaves _ x.tc).1, State.queue, State.lp_count, State.lp_congr hports2, State.lp_congr hports,
        State.queue]
    · rw [(State.giveBackOf_leaves (n := n) _ 0).2, State.count_link, hledger2, hledger, Ledger.flush,
        Ledger.flushed_entered]
  case down =>
    intro s p n hdown
    simp only [exec, execPacketBoundary, State.boundary, hdown, Bool.not_false, Bool.true_or, if_true]
  case starts =>
    intro s p n c d q rest hup hidle hnone hc hq
    exact ⟨_, rfl, State.boundary_effect hup hidle hnone hc hq⟩
  case isBoundary =>
    intro s p n c hen hcredit hq
    simp [exec, execShaperCreditRecovered, execPacketBoundary, hen, hcredit, hq]
  case recovered =>
    intro s p n k c d q rest hen hcredit hk hup hidle hnone hc hq
    refine ⟨s.boundary p n, ?_, State.boundary_effect hup hidle hnone hc hq⟩
    simp [exec, execShaperCreditRecovered, hen, hcredit, hk]
  case noCredit =>
    rintro s p n c (h | h | h)
    · simp [exec, execShaperCreditRecovered, h]
    · simp [exec, execShaperCreditRecovered, Int.not_le.mpr h]
    · simp [exec, execShaperCreditRecovered, h]

end Sys2Proof.Machine

/-! The proof of O28: receiving, acknowledgement and retry at a port (R277 to R281). -/

namespace Sys2Proof.Machine

section
variable {s t : State} {p : Part} {n : Nat}

/-! ### What leaves a port's link state -/

theorem State.lp_report (code : Code) (dt : List Nat) (port : Nat) (sub dom : Option Nat) :
    (s.report p code dt port sub dom).lp p n = s.lp p n := State.lp_congr (by rw [State.report_link])

theorem State.lp_modLedger (m : Nat) (f : Ledger → Ledger) : (s.modLedger p m f).lp p n = s.lp p n :=
  State.lp_congr (State.modLedger_leaves f).2.1

theorem State.rd_modLedger (f : Ledger → Ledger) (q : Part) (a : Nat) : (s.modLedger p n f).rd q a = s.rd q a :=
  (State.modLedger_leaves f).1.rd q a

/-- R286: a change of credit counts is of no consequence to what they do not hold. -/
theorem State.lp_modLp_of {α : Type} (g : LinkPort → α) (m : Nat) (f : LinkPort → LinkPort) (hf : ∀ x, g (f x) = g x) :
    g ((s.modLp p m f).lp p n) = g (s.lp p n) := by
  by_cases hm : n = m
  · subst hm
    rw [State.lp_modLp, hf]
  · rw [State.lp_modLp_ne _ _ hm]

theorem State.lp_tagPacket (m : Nat) (q : QEntry) (first : Option Raw) (lseq : Nat) (b : Bool) :
    (s.tagPacket p m q first lseq b).lp p n = s.lp p n := by
  unfold State.tagPacket State.tagWrite
  split
  · split
    · exact State.lp_congr (by cases p <;> rfl)
    · exact State.lp_count ..
  · rfl

/-! ### Packets taken (R274, R278) -/

/-- R278: what a port shows after a packet it expected. -/
def LinkPort.Took (exp : Nat) (x : LinkPort) : Prop := x.exp = exp ∧ x.wait = false ∧ x.owes = true

theorem State.took_giveBack (c k e : Nat) (h : (s.lp p n).Took e) : ((s.giveBack p n c k).lp p n).Took e := by
  rw [State.giveBack, State.lp_modLp]
  exact ⟨h.1, h.2.1, rfl⟩

theorem State.acceptPkt_took (x : RxPacket) :
    ((s.acceptPkt p n x false).lp p n).Took (((s.lp p n).exp + 1) % 65536) := by
  have hended : ∀ (u : State) (c k e : Nat), (u.lp p n).Took e →
      (((u.modLedger p n (Ledger.consume · k)).giveBack p n c k).lp p n).Took e := fun u c k e hu =>
    State.took_giveBack _ _ _ (by rw [State.lp_modLedger]; exact hu)
  unfold State.acceptPkt
  extract_lets k d s1 s2 ended
  have hs2 : (s2.lp p n).Took (((s.lp p n).exp + 1) % 65536) := by
    rw [State.lp_count, State.lp_modLedger, State.lp_modLp]
    exact ⟨rfl, rfl, rfl⟩
  split
  · refine hended _ _ _ _ ?_
    rw [State.lp_report, State.lp_count]
    exact hs2
  · split
    · refine hended _ _ _ _ ?_
      rw [State.lp_count]
      exact hs2
    · split
      · exact hended _ _ _ _ hs2
      · exact hs2

/-! ### A lost packet (R278, R281) -/

/-- R281: the limits of errors stand in words that no LINK counter shares. -/
theorem State.limits_congr (hrd : ∀ a, (∀ k off, off < 0x40 → a ≠ lkAddr p k off) → t.rd p a = s.rd p a) :
    t.uncMax p n = s.uncMax p n ∧ t.retryMax p = s.retryMax p := by
  cases p with
  | baxel => exact ⟨rfl, rfl⟩
  | kresia =>
    have hne : ∀ a, a = 0x4 ∨ a = 0x190060 ∨ a = 0x190064 → t.rd .kresia a = s.rd .kresia a := fun a ha =>
      hrd a fun k off hoff => by simp only [lkAddr]; omega
    have hspine : t.isSpine = s.isSpine := by
      rw [State.isSpine, State.bit, State.fld_congr (hne 0x4 (by simp)), State.isSpine, State.bit]
    constructor
    · simp only [State.uncMax, State.isQuad, hspine, State.fld_congr (hne 0x190064 (by simp))]
      rfl
    · simp only [State.retryMax, State.fld_congr (hne 0x190060 (by simp))]

theorem State.rd_countLk (q : Part) (a off : Nat) : (s.count (evLk p n off)).rd q a =
    if q = p ∧ a = lkAddr p n off then s.rd p (lkAddr p n off) + 1 else s.rd q a :=
  State.rd_count _ _ _ _ rfl rfl rfl rfl rfl

theorem lkAddr_inj {a b : Nat} : lkAddr p n a = lkAddr p n b ↔ a = b := by
  cases p <;> simp only [lkAddr] <;> omega

/-- R278: what every head carries. -/
theorem State.linkHead_congr (hexp : (t.lp p n).exp = (s.lp p n).exp) (hret : (t.lp p n).returned = (s.lp p n).returned)
    (hdom : (t.lp p n).lastDom = (s.lp p n).lastDom) (hdret : (t.lp p n).domReturned = (s.lp p n).domReturned) :
    t.linkHead p n = s.linkHead p n := by
  simp only [State.linkHead, hexp, hret, hdom, hdret]

/-- R278: the first NAK of a wait. -/
theorem State.sendNak_first (h : (s.lp p n).nakSent = none) : s.sendNak p n = (s.modLp p n fun y =>
    { y with wait := true, lastNak := some (s.raw p), nakSent := some ((s.lp p n).exp, 1), lastHead := some (s.raw p) }).emit
    (.send p (.port n) (.nak (s.linkHead p n))) := by
  simp [State.sendNak, h]

/-- R278, R281: a head error in NORMAL, below both limits: it is counted and noted, and a NAK goes out. -/
theorem State.lineError_first {x : RxPacket} (hunc : x.uncorrectable = 0) (hwait : (s.lp p n).wait = false)
    (hmax : (within (s.raw p) (10 * secGrains) (s.lp p n).uncs).length ≤ s.uncMax p n)
    (hretry : (within (s.raw p) 65536000000 (s.lp p n).events).length + 1 < s.retryMax p) :
    ∃ u : State, s.lineError p n x = u.sendNak p n ∧ u.out = s.out ∧
      (∃ us es, u.lp p n = { s.lp p n with uncs := us, events := es }) ∧
      u.rd p (lkAddr p n 0x10) = s.rd p (lkAddr p n 0x10) + 1 := by
  unfold State.lineError
  rw [if_pos hunc, hunc]
  extract_lets now s1 s2 s3
  have hlp2 : s2.lp p n = { s.lp p n with uncs := within now (10 * secGrains) (s.lp p n).uncs } := by
    simp only [s2, s1, State.lp_modLp, State.lp_count, List.replicate_zero, List.nil_append]
  have hlp3 : s3.lp p n = { s2.lp p n with events := now :: within now 65536000000 (s2.lp p n).events } := by
    simp only [s3, State.lp_count, State.lp_modLp]
  have hrd2 : ∀ a, s2.rd p a = s1.rd p a := fun a => State.modLp_rd ..
  have hrd3 : ∀ a, a ≠ lkAddr p n 0x18 → s3.rd p a = s2.rd p a := fun a ha => by
    simp only [s3, State.rd_countLk, ha, and_false, if_false, State.modLp_rd]
  have hrd1 : ∀ a, a ≠ lkAddr p n 0x10 → s1.rd p a = s.rd p a := fun a ha => by
    simp only [s1, State.rd_countLk, ha, and_false, if_false]
  have hmax2 : s2.uncMax p n = s.uncMax p n := (State.limits_congr fun a ha => by
    rw [hrd2, hrd1 a (ha n 0x10 (by omega))]).1
  have hmax3 : s3.retryMax p = s.retryMax p := (State.limits_congr (n := n) fun a ha => by
    rw [hrd3 a (ha n 0x18 (by omega)), hrd2, hrd1 a (ha n 0x10 (by omega))]).2
  refine ⟨s3, ?_, ?_, ⟨_, _, by rw [hlp3, hlp2]⟩, ?_⟩
  · rw [hmax2, hmax3, hlp3, hlp2]
    dsimp only
    rw [if_neg (Nat.not_lt.mpr hmax), hwait, if_neg Bool.false_ne_true, if_neg]
    rw [List.length_cons]
    exact Nat.not_le.mpr hretry
  · simp only [s3, s2, s1, State.count_out, State.modLp_out]
  · rw [hrd3 _ (by simp [lkAddr_inj]), hrd2, State.rd_countLk, if_pos ⟨rfl, rfl⟩]

/-! ### Heads taken (R277, R283) -/

theorem State.copies_foldl_done (l : List TxCopy) (s : State) :
    ((l.foldl (fun s c => (s.giveBackOf p c.q).tagPacket p n c.q (some c.firstAt) c.lseq false) s).lp p n).copies =
      (s.lp p n).copies := by
  refine foldl_keeps (g := fun s : State => (s.lp p n).copies) l s fun u c _ => ?_
  rw [State.lp_tagPacket]
  unfold State.giveBackOf
  split
  · exact State.lp_modLp_of (·.copies) _ _ fun _ => rfl
  · exact State.lp_modLp_of (·.copies) _ _ fun _ => rfl
  · rfl

/-- R277, R283: a head frees the copies up to the one it names. -/
theorem State.copies_takeHead {h : LinkHead} {i : Nat}
    (hi : (s.lp p n).copies.findIdx (fun c => c.lseq = h.ackSeq) = i) (hlt : i < (s.lp p n).copies.length) :
    ((s.takeHead p n h).lp p n).copies = (s.lp p n).copies.drop (i + 1) := by
  unfold State.takeHead
  extract_lets x j done cells floors base s1
  have hlen : done.length = i + 1 := by
    simp only [done, j, x, hi, hlt, if_true, List.length_take]
    omega
  rw [State.copies_foldl_done, State.lp_modLedger, State.lp_modLp, hlen]

/-- R277: a head that names no copy frees none. -/
theorem State.takeHead_none {h : LinkHead} (hnone : (s.lp p n).copies.any (fun c => c.lseq = h.ackSeq) = false) :
    ((s.takeHead p n h).lp p n).copies = (s.lp p n).copies ∧ ((s.takeHead p n h).lp p n).resend = (s.lp p n).resend ∧
      ((s.takeHead p n h).lp p n).nakGot = (s.lp p n).nakGot ∧ ∀ a, (s.takeHead p n h).rd p a = s.rd p a := by
  unfold State.takeHead
  extract_lets x j done cells floors base s1
  have hj : ¬ j < x.copies.length := by
    rw [List.findIdx_lt_length]
    rintro ⟨c, hc, hseq⟩
    rw [List.any_eq_false] at hnone
    exact hnone c hc hseq
  have hdone : done = [] := if_neg hj
  simp only [hdone, List.foldl_nil, s1, State.lp_modLedger, State.lp_modLp, State.rd_modLedger, State.modLp_rd,
    List.length_nil, List.drop_zero, List.any_nil, Bool.not_false, List.filter_true, implies_true, and_self]

end

/-- Settles O28: each clause is one branch of its command; the states on the way differ in a few fields of the port. -/
theorem acknowledgementAndRetry : Obligations.AcknowledgementAndRetry := by
  unfold Obligations.AcknowledgementAndRetry
  refine ⟨?rxDown, ?taken, ?dropped, ?headError, ?acked, ?ackDown, ?nak, ?staleNak, ?nakAgain, ?noNak, ?timeout, ?early, ?owed,
    ?notOwed⟩
  case rxDown =>
    intro s p n x hdown
    simp only [exec, execPacketRx, hdown, Bool.not_false, if_true]
  case taken =>
    intro s p n x hup hcor hunc hcrc hseq hroom
    have hexec : exec (.packetRx p n x) s = .next (s.acceptPkt p n x false) := by
      simp only [exec, execPacketRx, hup, hcor, hunc, hcrc, hseq, hroom, Bool.not_true, Bool.false_eq_true, if_false, if_true,
        Nat.lt_irrefl, decide_false, decide_true, Bool.or_self, Bool.true_or, ne_eq, not_true_eq_false]
    exact ⟨_, hexec, State.acceptPkt_took x⟩
  case dropped =>
    intro s p n x hup hcor hunc hcrc hseq
    simp only [exec, execPacketRx, hup, hcor, hunc, hcrc, hseq, Bool.not_true, Bool.false_eq_true, if_false, if_true,
      Nat.lt_irrefl, decide_false, Bool.or_self, ne_eq, not_false_eq_true]
  case headError =>
    intro s p n x hup hcor hunc hcrc hwait hnak hmax hretry
    obtain ⟨u, herr, hout, ⟨us, es, hlp⟩, hword⟩ := State.lineError_first hunc hwait hmax hretry
    have hexec : exec (.packetRx p n x) s = .next (u.sendNak p n) := by
      simp only [exec, execPacketRx, hup, hcor, hcrc, herr, Bool.not_true, Bool.false_eq_true, if_false, if_true, Bool.or_true]
    rw [State.sendNak_first (by rw [hlp]; exact hnak)] at hexec
    refine ⟨_, hexec, ?_, ?_, ?_, ?_⟩
    · refine (congrArg LinkPort.exp (State.lp_modLp ..)).trans ?_
      exact (congrArg LinkPort.exp hlp :)
    · exact congrArg LinkPort.wait (State.lp_modLp ..)
    · rw [State.linkHead_congr (s := s) (by rw [hlp]) (by rw [hlp]) (by rw [hlp]) (by rw [hlp])]
      exact congrArg (List.cons _) ((State.modLp_out ..).trans hout)
    · rw [State.rd_emit, State.modLp_rd, hword]
  case acked =>
    intro s p n h i hup hi hlt
    exact ⟨s.takeHead p n h, by simp only [exec, execAckRx, hup, if_true], State.copies_takeHead hi hlt⟩
  case ackDown =>
    intro s p n h hdown
    simp only [exec, execAckRx, hdown, Bool.false_eq_true, if_false]
  case nak =>
    intro s p n h seq hup hack hseq hgot
    obtain ⟨hcopies, hresend, hnakGot, hrd⟩ := State.takeHead_none hack
    refine ⟨((s.takeHead p n h).modLp p n fun y => { y with resend := y.resendFrom seq, nakGot := some (seq, 1) }).count
      (evLk p n 0x20), ?_, ?_, ?_, ?_⟩
    · simp [exec, execNakRx, hup, hcopies, hnakGot, hseq, hgot]
    · rw [State.lp_count, State.lp_modLp, LinkPort.resendFrom, LinkPort.resendFrom, hcopies]
    · rw [State.lp_count, State.lp_modLp, hcopies]
    · rw [State.rd_countLk, if_pos ⟨rfl, rfl⟩, State.modLp_rd, hrd]
  case staleNak =>
    intro s p n h seq hup hack hseq
    obtain ⟨hcopies, hresend, hnakGot, hrd⟩ := State.takeHead_none hack
    refine ⟨(s.takeHead p n h).count (evLk p n 0x28), ?_, ?_, ?_, ?_⟩
    · simp only [exec, execNakRx, hup, hcopies, hseq, Bool.not_true, Bool.not_false, Bool.false_eq_true, if_false, if_true]
    · rw [State.lp_count, hresend]
    · rw [State.lp_count, hcopies]
    · rw [State.rd_countLk, if_pos ⟨rfl, rfl⟩, hrd]
  case nakAgain =>
    intro s p n hup hwait hnak hpast
    have hexec : exec (.nakWaitTimer p n) s = .next (s.sendNak p n) := by
      simp only [exec, execNakWaitTimer, hup, hwait, hpast, Bool.and_self, if_true]
    rw [State.sendNak_first hnak] at hexec
    refine ⟨_, hexec, ?_, ?_, ?_⟩
    · exact congrArg (List.cons _) (State.modLp_out ..)
    · exact congrArg LinkPort.lastNak (State.lp_modLp ..)
    · exact congrArg LinkPort.wait (State.lp_modLp ..)
  case noNak =>
    rintro s p n (h | h | h) <;>
      simp only [exec, execNakWaitTimer, h, Bool.and_false, Bool.false_and, Bool.false_eq_true, if_false]
  case timeout =>
    intro s p n c rest hup hcopies hnone hpast
    refine ⟨(s.modLp p n fun y => { y with resend := y.resendFrom c.lseq }).count (evLk p n 0x24), ?_, ?_, ?_, ?_⟩
    · simp only [exec, execRetryTimeout, hup, hcopies, hnone, hpast, List.isEmpty_nil, Bool.and_self, if_true]
    · rw [State.lp_count, State.lp_modLp]
    · rw [State.lp_count, State.lp_modLp]
    · rw [State.rd_countLk, if_pos ⟨rfl, rfl⟩, State.modLp_rd]
  case early =>
    intro s p n c rest hcopies hsoon
    simp only [exec, execRetryTimeout, hcopies, hsoon, Bool.and_false, Bool.false_and, Bool.false_eq_true, if_false]
  case owed =>
    intro s p n hup howes hpast
    simp only [exec, execAckTimer, hup, howes, hpast, Bool.and_self, if_true]
  case notOwed =>
    rintro s p n (h | h | h) <;>
      simp only [exec, execAckTimer, h, Bool.and_false, Bool.false_and, Bool.false_eq_true, if_false]

end Sys2Proof.Machine

/-! The proof of O29: lost planes (R282), the ledger's latch (R287) and the credit word (R284). -/

namespace Sys2Proof.Machine

section
variable {s : State}

/-! ### Transfers sent again after a lost plane (R282) -/

/-- R282: the planes noted lost, and a message that has gone out. -/
def State.PlanesKept (lost : List (Nat × Nat)) (o : Out) (s : State) : Prop := s.ks.lostPlanes = lost ∧ o ∈ s.out

variable {lost : List (Nat × Nat)} {o : Out}

theorem State.planesKept_emit (x : Out) (h : s.PlanesKept lost o) : (s.emit x).PlanesKept lost o :=
  ⟨h.1, List.mem_cons_of_mem _ h.2⟩

theorem State.planesKept_sendByRoute (m : RsigSend) (v2 : Bool) (h : s.PlanesKept lost o) :
    (s.sendByRoute m v2).PlanesKept lost o := by
  have hall : ∀ (f : Nat → Out) (l : List Nat), (l.foldl (fun s i => s.emit (f i)) s).PlanesKept lost o := fun f l =>
    List.foldlRecOn (motive := State.PlanesKept lost o) l _ h fun u hu i _ => State.planesKept_emit _ hu
  simp only [State.sendByRoute]
  split
  · exact State.planesKept_emit _ (hall _ _)
  · exact hall _ _

theorem State.planesKept_modKs {f : Kresia → Kresia} (hf : ∀ k, (f k).lostPlanes = k.lostPlanes) (h : s.PlanesKept lost o) :
    (s.modKs f).PlanesKept lost o := ⟨(hf s.ks).trans h.1, h.2⟩

theorem State.planesKept_count (e : Ev) (n : Nat) (h : s.PlanesKept lost o) : (s.count e n).PlanesKept lost o :=
  ⟨(State.count_ks_lostPlanes ..).trans h.1, by rw [State.count_out]; exact h.2⟩

theorem State.planesKept_launchJob (j : SendJob) (h : s.PlanesKept lost o) : (s.launchJob j).PlanesKept lost o := by
  unfold State.launchJob
  extract_lets j' t x v2 s1 s2
  have h1 : s1.PlanesKept lost o := State.planesKept_modKs (fun _ => rfl) h
  refine State.planesKept_sendByRoute _ _ ?_
  simp only [s2]
  split_ifs
  · exact State.planesKept_count _ _ h1
  · exact State.planesKept_count _ _ h1
  · exact State.planesKept_count _ _ h1
  · exact h1

theorem State.planesKept_resendTo (member plane : Nat) (h : s.PlanesKept lost o) : (s.resendTo member plane).PlanesKept lost o := by
  refine List.foldlRecOn (motive := State.PlanesKept lost o) _ _ h fun u hu x _ => ?_
  obtain ⟨key, j⟩ := x
  dsimp only
  split
  · exact hu
  · split
    · split
      · exact hu
      · split
        · exact State.planesKept_modKs (fun _ => rfl) (State.planesKept_launchJob _ hu)
        · exact State.planesKept_sendByRoute _ _ (State.planesKept_modKs (fun _ => rfl) hu)
    · exact hu

/-! ### The latch of the ledger (R287) -/

/-- R291: the credit words of a port lie beside the ledger's. -/
theorem LinkPort.find_creditWords (x : LinkPort) (p : Part) (n : Nat) (m : FMap Word) :
    FMap.find? (x.creditWords (lkAddr p n 0) m) (ledgerBase p + 0x30) = FMap.find? m (ledgerBase p + 0x30) := by
  refine List.foldlRecOn (motive := fun u => FMap.find? u (ledgerBase p + 0x30) = FMap.find? m (ledgerBase p + 0x30)) _ _ rfl
    fun u hu c hc => ?_
  have hlt : c < 7 := List.mem_range.mp hc
  have hne : ledgerBase p + 0x30 ≠ lkAddr p n 0 + 0x48 + 8 * c ∧ ledgerBase p + 0x30 ≠ lkAddr p n 0 + 0x4C + 8 * c := by
    cases p <;> simp only [ledgerBase, lkAddr] <;> omega
  dsimp only
  rw [FMap.find_set_ne _ hne.2, FMap.find_set_ne _ hne.1, hu]

theorem find_latch (p : Part) (ports : FMap LinkPort) (l : Ledger) :
    FMap.find? (ports.foldl (fun m (n, x) => x.creditWords (lkAddr p n 0) m) (ledgerWords l (ledgerBase p)))
      (ledgerBase p + 0x30) = some (BitVec.ofNat 32 l.held) := by
  refine List.foldlRecOn (motive := fun u => FMap.find? u (ledgerBase p + 0x30) = some (BitVec.ofNat 32 l.held)) _ _ ?_
    fun u hu x _ => ?_
  · exact FMap.find_set_self ..
  · exact (LinkPort.find_creditWords ..).trans hu

end

/-- Settles O29: a flood is sent once, and the transfers sent again after it leave the planes noted. -/
theorem planesLedgersAndCredits : Obligations.PlanesLedgersAndCredits := by
  unfold Obligations.PlanesLedgersAndCredits
  refine ⟨?lost, ?known, ?back, ?unknown, ?latch, ?credit, ?refused⟩
  case lost =>
    intro s n hnew
    refine ⟨(s.planeNote true n).resendTo n.member n.plane, ?_, State.planesKept_resendTo _ _ ?_⟩
    · simp only [exec, execPlaneLostRx, hnew, Bool.false_eq_true, if_false]
    · simp only [State.planeNote, hnew, if_true, Bool.false_eq_true, if_false]
      exact ⟨rfl, List.mem_cons_self⟩
  case known =>
    intro s n hknown
    simp only [exec, execPlaneLostRx, hknown, if_true]
  case back =>
    intro s n hknown
    simp only [exec, execPlaneBackRx, State.planeNote, hknown, if_true, Bool.false_eq_true, if_false]
    exact ⟨_, rfl, rfl, rfl⟩
  case unknown =>
    intro s n hnew
    simp only [exec, execPlaneBackRx, State.planeNote, hnew, Bool.false_eq_true, if_false]
  case latch =>
    intro s p
    refine ⟨_, rfl, ?_, ?_, ?_, ?_⟩ <;> cases p
    any_goals rfl
    · exact find_latch .baxel ..
    · exact find_latch .kresia ..
  case credit =>
    intro s cls w hcls hfloor hceil hsum
    simp only [exec, execCreditCfgWrite, Nat.not_le.mpr hcls, Nat.not_lt.mpr hfloor, Nat.not_lt.mpr hceil, Nat.not_lt.mpr hsum,
      decide_false, Bool.or_self, Bool.false_eq_true, if_false]
  case refused =>
    intro s cls w hcls h
    simp only [exec, execCreditCfgWrite, Nat.not_le.mpr hcls, if_false]
    rw [if_pos (by simpa [or_assoc] using h)]

end Sys2Proof.Machine

/-! The refutation of O30: with the index of a port unbounded, the control word of port 1024 is the counter of cupped terms
(R348) at 1C0000h, and a chunk that commits as the port leaves service counts into it. -/

namespace Sys2Proof.Machine

/-- An image whose collective 0 is sparse (R152). -/
def sparseImage : Image := [0, 1]

/-- A chunk's entry of domain 0 with one felt slot. -/
def openEntry (role : Nat) (expected : List Nat) : ChunkEntry :=
  { domain := 0, coll := 0, chunk := 0, epoch := 0, step := 0, role := role, opened := 0, expected := expected
    slots := [(0, { w := 1 })] }

/-- A Kresia whose port 1024 is in service, with a cupped domain and an entry of a chunk's home behind which a leaf's entry of
the same index waits for the port. -/
@[irreducible] def cuppedPortUp : State :=
  (State.reset.modKs fun k => { k with
    doms := [(0, { prog := some sparseImage, cupPeriod := 1 })]
    chunks := [(0, openEntry 1 []), (0, openEntry 0 [1024])] }).modPc .kresia fun c => { c with
      regs := [(0x1C0000, 0xFFFC)], link := { ports := [(1024, { step := 5 })] } }

/-- R407: the code of port 1024 after its SD_LOCK has fallen. -/
def sdLostCode (s : State) : Option Nat :=
  match exec (.sdLockLost .kresia 1024) s with
  | .next t => some (t.fld .kresia (lkAddr .kresia 1024 0) 16 16)
  | _ => none

/-- Refutes O30: in `cuppedPortUp` the code reads B008h after SD_LOCK has fallen: six terms were counted into the word. -/
theorem not_portsComeUpAndGo : ¬ Obligations.PortsComeUpAndGo := by
  unfold Obligations.PortsComeUpAndGo
  rintro ⟨-, -, -, -, -, -, -, -, -, -, -, hlost, -⟩
  obtain ⟨t, hexec, -, -, hcode⟩ := hlost cuppedPortUp .kresia 1024 (by decide +kernel)
  have hruns : sdLostCode cuppedPortUp = some 0xB008 := by decide +kernel
  rw [sdLostCode, hexec] at hruns
  have hword : t.fld .kresia (lkAddr .kresia 1024 0) 16 16 = 0xB008 := Option.some.inj hruns
  rw [hcode] at hword
  exact absurd hword (by decide)

end Sys2Proof.Machine

/-! The proof of O31: gate lists are committed, cancelled, swapped in and moved along (R293 to R297). -/

namespace Sys2Proof.Machine

section
variable {s t : State} {p : Part} {n : Nat}

theorem State.rd_gtCode (code : Code) (q : Part) (a : Nat) : (s.gtCode p n code).rd q a =
    if q = p ∧ a = gtBlock p n 0 then (s.rd p (gtBlock p n 0)).put 16 16 code.toNat else s.rd q a := State.rd_setFld ..

/-- A bit of a gate block's control word below another that is written. -/
theorem State.bit_setBit_above {a i j : Nat} (hij : i < j) (hj : j < 32) (v : Bool) :
    (s.setBit p a j v).bit p a i = s.bit p a i := by
  simp only [State.bit, State.fld, State.setBit, State.rd_setFld, if_true, and_self]
  rw [Word.get_put_above _ (by omega) (by omega)]
  rfl

theorem State.bit_gtCode {i : Nat} (hi : i < 16) (code : Code) :
    (s.gtCode p n code).bit p (gtBlock p n 0) i = s.bit p (gtBlock p n 0) i := by
  simp only [State.bit, State.fld, State.rd_gtCode, if_true, and_self]
  rw [Word.get_put_above _ (by omega) (by omega)]
  rfl

theorem State.fld_gtCode (code : Code) : (s.gtCode p n code).fld p (gtBlock p n 0) 16 16 = code.toNat := by
  rw [State.gtCode, State.fld_setFld_self _ _ _ (by omega)]
  exact Nat.mod_eq_of_lt code.isLt

theorem State.gp_congr (h : (t.pc p).link = (s.pc p).link) : t.gp p n = s.gp p n := by
  rw [State.gp, h, State.gp]

theorem State.gp_setFld (a lo len v : Nat) : (s.setFld p a lo len v).gp p n = s.gp p n :=
  State.gp_congr (State.setFld_link ..)

theorem State.gp_setBit (a i : Nat) (v : Bool) : (s.setBit p a i v).gp p n = s.gp p n :=
  State.gp_congr (State.setFld_link ..)

/-! ### The retest of waiting packets (R300) -/

/-- R296: the list in force, none pending, and the mark of a pending list clear. -/
def State.Swapped (p : Part) (n : Nat) (l : GateList) (s : State) : Prop :=
  (s.gp p n).active = some l ∧ (s.gp p n).pending = none ∧ s.bit p (gtBlock p n 0) 3 = false

variable {l : GateList}

theorem State.swapped_of (h : s.Swapped p n l) (hgp : t.gp p n = s.gp p n)
    (hrd : t.rd p (gtBlock p n 0) = s.rd p (gtBlock p n 0)) : t.Swapped p n l := by
  obtain ⟨hact, hpend, hbit⟩ := h
  refine ⟨by rw [hgp, hact], by rw [hgp, hpend], ?_⟩
  rw [State.bit, State.fld_congr hrd]
  exact hbit

theorem State.swapped_modLp {m : Nat} {f : LinkPort → LinkPort} (h : s.Swapped p n l) : (s.modLp p m f).Swapped p n l :=
  State.swapped_of h (by cases p <;> rfl) (State.modLp_rd ..)

theorem State.swapped_giveBackOf {q : QEntry} (h : s.Swapped p n l) : (s.giveBackOf p q).Swapped p n l := by
  unfold State.giveBackOf
  split
  · exact State.swapped_modLp h
  · exact State.swapped_modLp h
  · exact h

theorem State.swapped_report {code : Code} {dt : List Nat} {port : Nat} (h : s.Swapped p n l) :
    (s.report p code dt (port := port)).Swapped p n l := by
  refine State.swapped_of h (State.gp_congr (State.report_link ..)) ?_
  apply State.rd_report_ne
  rintro rfl -
  simp only [gtBlock]
  omega

/-- R300: a queued packet that the list refuses. -/
theorem State.swapped_refuseQueued {q : QEntry} (h : s.Swapped p n l) : (s.refuseQueued p n l q).Swapped p n l := by
  unfold State.refuseQueued
  split
  · next code _ =>
    extract_lets src
    have h1 : ((s.count (evGt p n 0x44)).modLedger p n (Ledger.consume · (cost q.pkt))).Swapped p n l := by
      have hledger := (State.modLedger_leaves (s := s.count (evGt p n 0x44)) (p := p) (n := n) (Ledger.consume · (cost q.pkt))).1
      refine State.swapped_of h ?_ ?_
      · rw [State.gp, hledger.gates, State.count_link, State.gp]
      · rw [State.rd_modLedger, State.rd_count_narrow_ne _ _ _ _ _ rfl]
        cases p <;> simp only [evGt, gtBlock] <;> omega
    have h2 : ((((s.count (evGt p n 0x44)).modLedger p n (Ledger.consume · (cost q.pkt))).giveBackOf p q).modGp p n fun g =>
        { g with reported := q.pkt.tc :: g.reported }).Swapped p n l := by
      obtain ⟨hact, hpend, hbit⟩ := State.swapped_giveBackOf (q := q) h1
      refine ⟨?_, ?_, ?_⟩
      · rw [State.gp_modGp]
        exact hact
      · rw [State.gp_modGp]
        exact hpend
      · cases p <;> exact hbit
    cases hq : q.inPort with
    | none =>
      simp only [src, hq, State.gateRefusal]
      cases p <;> exact h1
    | some i =>
      simp only [src, hq, State.gateRefusal]
      split
      · exact State.swapped_giveBackOf h1
      · exact State.swapped_report h2
  · exact h

theorem State.swapped_retest {l' : GateList} (h : s.Swapped p n l) (hl : l' = l) : (s.retest p n l').Swapped p n l := by
  subst hl
  refine List.foldlRecOn (motive := State.Swapped p n l') _ _ h fun u hu x _ => ?_
  dsimp only
  split
  · exact hu
  · exact List.foldlRecOn (motive := State.Swapped p n l') _ _ (State.swapped_modLp hu) fun u hu q _ =>
      State.swapped_refuseQueued hu

end

/-- Settles O31: each command is a write of the port's gate state; the retest after a swap leaves the list swapped in. -/
theorem gateListsSwapAndMove : Obligations.GateListsSwapAndMove := by
  unfold Obligations.GateListsSwapAndMove
  refine ⟨?refused, ?commit, ?nothing, ?cancel, ?swap, ?closing, ?before, ?moves, ?stays⟩
  case refused =>
    intro s p n code hcode
    simp only [exec, execGateListCommit, hcode]
  case commit =>
    intro s p n hcode
    simp only [exec, execGateListCommit, hcode]
    refine ⟨_, rfl, ?_, ?_, State.fld_gtCode 0, ?_, ?_⟩
    · rw [State.gtCode, State.gp_setFld, State.gp_setBit, State.gp_setBit, State.gp_modGp]
    · rw [State.gtCode, State.gp_setFld, State.gp_setBit, State.gp_setBit, State.gp_modGp]
    · rw [State.bit_gtCode (by omega), State.bit_setBit_above (by omega) (by omega)]
      exact State.bit_setBit_self _ _ _ (3 : Fin 32) _
    · rw [State.gtCode, State.setFld_out]
      cases p <;> rfl
  case nothing =>
    intro s p n hnone
    simp only [exec, execGateListCancel, hnone]
  case cancel =>
    intro s p n x hx
    simp only [exec, execGateListCancel, hx]
    refine ⟨_, rfl, ?_, ?_, ?_, State.fld_gtCode 0⟩
    · rw [State.gtCode, State.gp_setFld, State.gp_setBit, State.gp_modGp]
    · rw [State.gtCode, State.gp_setFld, State.gp_setBit, State.gp_modGp]
    · rw [State.bit_gtCode (by omega)]
      exact State.bit_setBit_self _ _ _ (3 : Fin 32) _
  case swap =>
    intro s p n x d hpend hclose hopen
    simp only [exec, execGateSwap, hpend, Int.not_lt.mpr hclose, Int.not_lt.mpr hopen, if_false]
    generalize (if otDiff (s.pc p).time.now d.ot < 0 then d.ot else (s.pc p).time.now) = at'
    have hrun : ((((s.modGp p n fun g => { g with active := some x, pending := none, reported := [] }).setBit p
        (gtBlock p n 0) 3 false).setBit p (gtBlock p n 0) 4 true).runList p n x at').Swapped p n x := by
      refine ⟨?_, ?_, ?_⟩
      · rw [State.runList, State.gp_modGp, State.gp_setBit, State.gp_setBit, State.gp_modGp]
      · rw [State.runList, State.gp_modGp, State.gp_setBit, State.gp_setBit, State.gp_modGp]
      · rw [State.runList, State.modGp_bit, State.bit_setBit_above (by omega) (by omega)]
        exact State.bit_setBit_self _ _ _ (3 : Fin 32) _
    refine ⟨_, rfl, ?_⟩
    split
    · exact State.swapped_retest hrun rfl
    · exact hrun
  case closing =>
    intro s p n x d hpend hclose hopen
    simp only [exec, execGateSwap, hpend, Int.not_lt.mpr hclose, hopen, if_false, if_true]
  case before =>
    intro s p n x d hpend hclose
    simp only [exec, execGateSwap, hpend, hclose, if_true]
  case moves =>
    intro s p n x d i m len hact hnext hset hopen hclose hi hentry
    have hget : x.entries.getD i (127, 0) = (m, len) := by rw [List.getD_eq_getElem?_getD, hentry, Option.getD_some]
    simp only [exec, execGateBoundary, hact, hnext, ← hi, hget, hset, Int.not_lt.mpr hclose, Int.not_lt.mpr hopen,
      decide_false, Bool.or_self, Bool.false_eq_true, if_false]
    exact ⟨_, rfl, by rw [State.gp_modGp], by rw [State.gp_modGp], by rw [State.gp_modGp], by rw [State.gp_modGp, hact]⟩
  case stays =>
    intro s p n d hnext hclose
    simp only [exec, execGateBoundary, hnext]
    split
    · next l d' _ hd =>
      obtain rfl := Option.some.inj hd
      rw [if_pos (by rw [decide_eq_true hclose, Bool.or_true])]
    · rfl

end Sys2Proof.Machine

/-! The proof of O32: the ranges of shapers, overhead and samples (R298, R303, R306), and the samples of the queues (R305,
R306). -/

namespace Sys2Proof.Machine

section
variable {s : State} {p : Part} {n : Nat}

/-- R306: what a latched result shows. -/
theorem QResult.latch_shows (r : QResult) (a : QAcc) (k : Nat) : (r.latch a k).ready = true ∧ (r.latch a k).seq = r.seq + 1 :=
  ⟨rfl, rfl⟩

theorem FMap.find_map_keys {α : Type} (f : Nat → α) {l : List Nat} {c : Nat} (hc : c ∈ l) :
    FMap.find? (l.map fun i => (i, f i)) c = some (f c) := by
  induction l with
  | nil => simp at hc
  | cons i l ih =>
    by_cases hi : i = c
    · simp [FMap.find?, hi]
    · simp only [List.map_cons, FMap.find?, if_neg hi]
      exact ih (List.mem_of_ne_of_mem (Ne.symm hi) hc)

theorem State.gp_tally (e : Ev) (k : Nat) : (s.tally e k).gp p n = s.gp p n := State.gp_congr (State.tally_link ..)

/-- R306: the counts of unread results leave the gate state. -/
theorem State.gp_foldl_tally (l : List (Nat × QAcc)) (b : Nat × QAcc → Bool) (e : Nat × QAcc → Ev) (s : State) :
    (l.foldl (fun (s : State) (x : Nat × QAcc) => if b x then s.tally (e x) 1 else s) s).gp p n = s.gp p n := by
  refine foldl_keeps (g := fun s : State => s.gp p n) l s fun u x _ => ?_
  split
  · exact State.gp_tally ..
  · rfl

end

/-- Settles O32: range checks of words, and a sample of each class with the results it latches. -/
theorem shapersAndQueueSamples : Obligations.ShapersAndQueueSamples := by
  unfold Obligations.ShapersAndQueueSamples
  refine ⟨?slope, ?badSlope, ?high, ?overhead, ?badOverhead, ?config, ?badConfig, ?sample, ?latch, ?early, ?retire, ?mismatch⟩
  case slope =>
    intro s p n w c hc h0 h7 hlo hhi
    have hpos : w.get 4 20 ≠ 0 := by omega
    simp only [exec, execShaperCfgWrite, hc, h0, h7, hpos, Nat.not_lt.mpr hhi, decide_false, Bool.or_self, Bool.false_eq_true,
      if_false]
  case badSlope =>
    intro s p n w c hc h0 h7 h
    simp only [exec, execShaperCfgWrite, hc, h0, h7, decide_false, Bool.or_self, Bool.false_eq_true, if_false]
    rw [if_pos]
    simpa using h
  case high =>
    intro s p n w c hc h0 h7 hhi
    simp only [exec, execShaperCfgWrite, hc, h0, h7, Nat.not_le.mpr hhi, decide_false, Bool.or_self, Bool.false_eq_true,
      if_false, if_true]
  case overhead =>
    intro s p n w h
    simp only [exec, execOverheadWrite]
    rw [if_neg]
    simp only [Bool.and_eq_true, decide_eq_true_eq]
    omega
  case badOverhead =>
    intro s p n w hlo hhi
    simp only [exec, execOverheadWrite, hlo, hhi, decide_true, Bool.and_self, if_true]
  case config =>
    intro s p n count w hlo hhi
    cases count <;> simp_all [exec, execQsampleCfgWrite]
  case badConfig =>
    intro s p n count w h
    cases count <;>
    · simp only [Bool.false_eq_true, if_false, if_true] at h
      simp only [exec, execQsampleCfgWrite, Bool.false_eq_true, if_false, if_true]
      rw [if_neg]
      simp only [Bool.and_eq_true, decide_eq_true_eq]
      omega
  case sample =>
    intro s p n hdue hmore
    simp only [exec, execQsampleTick, hdue, hmore, Bool.not_true, Bool.false_eq_true, if_false, if_true]
    exact ⟨_, rfl, by rw [State.gp_modGp], by rw [State.gp_modGp], by rw [State.gp_modGp]⟩
  case latch =>
    intro s p n hdue hlast
    simp only [exec, execQsampleTick, hdue, Nat.not_lt.mpr hlast, Bool.not_true, Bool.false_eq_true, if_false]
    refine ⟨_, rfl, ?_⟩
    rw [State.gp_foldl_tally, State.gp_modGp]
    refine ⟨rfl, rfl, fun c hc => ?_⟩
    simp only [List.map_map, Function.comp_def, FMap.getD, FMap.find_map_keys _ (List.mem_range.mpr hc), Option.getD_some]
    exact QResult.latch_shows ..
  case early =>
    intro s p n hsoon
    simp only [exec, execQsampleTick, hsoon, Bool.not_false, if_true]
  case retire =>
    intro s p n c hc
    simp only [exec, execQsampleRetire, hc]
    refine ⟨_, rfl, ?_, by rw [State.gp_modGp]⟩
    rw [State.gp_modGp, FMap.getD_update_self, if_pos rfl]
  case mismatch =>
    intro s p n c seq hc hseq
    simp only [exec, execQsampleRetire, hc]
    refine ⟨_, rfl, ?_⟩
    rw [State.gp_modGp, FMap.getD_update_self, if_neg (Ne.symm hseq)]

end Sys2Proof.Machine

/-! The proof of O33: a leaf's count records (R92, R117). -/

namespace Sys2Proof.Machine

section
variable {s : State} {port : Nat} {m0 m : Ctl}

/-- R92: the record a message joins, before it joins. -/
def State.recordFor (s : State) (m : Ctl) : LeafRecord :=
  (s.ks.leafRecs.find? fun x => x.isFor m).getD
    { kind := m.kind, domain := m.domain, epoch := m.epoch, seq := m.seq, step := m.step, slot := m.slot, first := s.raw .kresia }

theorem State.recordFor_isFor (s : State) (m : Ctl) : (s.recordFor m).isFor m = true := by
  unfold State.recordFor
  cases hfind : s.ks.leafRecs.find? fun x => x.isFor m with
  | none => simp [LeafRecord.isFor]
  | some x =>
    have hx := List.find?_some hfind
    exact hx

theorem LeafRecord.isFor_join {x : LeafRecord} (h : x.isFor m = true) : (x.join port).isFor m = true := h

theorem LeafRecord.eq_of_isFor {x : LeafRecord} (h : x.isFor m = true) :
    x.kind = m.kind ∧ x.domain = m.domain ∧ x.epoch = m.epoch ∧ x.seq = m.seq ∧ x.step = m.step := by
  simpa only [LeafRecord.isFor, Bool.and_eq_true, decide_eq_true_eq, and_assoc] using h

/-- R92: what is left of the records once one that replaced its kind has gone. -/
theorem erase_filter_append {l : List LeafRecord} {x : LeafRecord} (h : x.isFor m = true) :
    ((l.filter fun y => !y.isFor m) ++ [x]).erase x = l.filter fun y => !y.isFor m := by
  have hnot : x ∉ l.filter fun y => !y.isFor m := by simp [h]
  rw [List.erase_append_right _ hnot, List.erase_cons_head, List.append_nil]

theorem execLeafReportRx_joins (hm : m = s.fullSeq m0) (hok : s.isFenced m.member = false) (hkind : m.kind = .arrive ∨ m.kind = .ack)
    (hst : m.status = 0) (hport : port < 128) : execLeafReportRx port m0 s =
    .next (if s.recordFull ((s.recordFor m).join port) then
      (s.modKs fun k => { k with leafRecs := (k.leafRecs.filter fun y => !y.isFor m) ++ [(s.recordFor m).join port] }).sendRecord
        ((s.recordFor m).join port)
      else s.modKs fun k => { k with leafRecs := (k.leafRecs.filter fun y => !y.isFor m) ++ [(s.recordFor m).join port] }) := by
  have hjoin : ((m.kind = .arrive || m.kind = .ack) && m.status = 0 && port < 128) = true := by simp [hkind, hst, hport]
  simp only [execLeafReportRx, ← hm, hok, Bool.false_eq_true, if_false]
  rw [if_pos hjoin]
  rfl

end

/-- Settles O33: a message joins the one record of its key, which goes up when it is full or 200 ns old. -/
theorem countRecordsAtALeaf : Obligations.CountRecordsAtALeaf := by
  unfold Obligations.CountRecordsAtALeaf
  refine ⟨?whole, ?fenced, ?alone, ?held, ?full, ?old, ?young⟩
  case whole =>
    rintro s m (h | ⟨hack, horphan, hmiss⟩)
    · have hv2 : ((s.dom m.domain).positions.any fun q => q.e.member = m.member && q.e.v2) = false := by
        rw [List.any_eq_false]
        intro q hq
        by_cases hmem : q.e.member = m.member
        · simp [h q hq hmem]
        · simp [hmem]
      simp [State.fullSeq, hv2]
    · simp [State.fullSeq, hack, horphan, hmiss]
  case fenced =>
    intro s port m0 m hm hfenced
    simp only [exec, execLeafReportRx, ← hm, hfenced, if_true]
  case alone =>
    intro s port m0 m hm hok h
    have hnot : ((m.kind = .arrive || m.kind = .ack) && m.status = 0 && port < 128) = false := by
      rcases h with h | ⟨harr, hack⟩
      · rw [decide_eq_false h, Bool.and_false, Bool.false_and]
      · simp [harr, hack]
    simp only [exec, execLeafReportRx, ← hm, hok, Bool.false_eq_true, if_false]
    rw [if_neg (by simp only [hnot, Bool.false_eq_true, not_false_eq_true])]
  case held =>
    intro s port m0 m hm hok hkind hst hport hfull
    refine (execLeafReportRx_joins hm hok hkind hst hport).trans ?_
    rw [if_neg]
    · rfl
    · exact Bool.eq_false_iff.mp hfull
  case full =>
    intro s port m0 m hm hok hkind hst hport hfull
    have hexec := execLeafReportRx_joins hm hok hkind hst hport
    have hfull' : s.recordFull ((s.recordFor m).join port) = true := hfull
    rw [if_pos hfull'] at hexec
    have hfor : ((s.recordFor m).join port).isFor m = true := LeafRecord.isFor_join (s.recordFor_isFor m)
    obtain ⟨hk, hd, he, hq, hs⟩ := LeafRecord.eq_of_isFor hfor
    refine ⟨_, hexec, erase_filter_append hfor, ?_⟩
    simp only [State.sendRecord, hk, hd, he, hq, hs]
    rfl
  case old =>
    intro s kind d x hfind
    simp only [exec, execLeafRecordTimeout, hfind, State.sendRecord]
  case young =>
    intro s kind d hfind
    simp only [exec, execLeafRecordTimeout, hfind]

end Sys2Proof.Machine

/-! The refutation of O34: the record of an arm keeps when the ARM went out (R360), which is not what its last clause says. -/

namespace Sys2Proof.Machine

/-- An image of one LAUNCH entry, of slot 0, without a done signal. -/
def launchImage : Image := [2, 0, 0, 0, 0, 0, 0, 0, 0xFF, 0xFF] ++ List.replicate 20 0 ++ [1, 0]

/-- A Kresia one grain after its start, with domain 0 gathering. -/
@[irreducible] def gatheringOneGrain : State :=
  (State.reset.modKs fun k => { k with doms := [(0, { phase := .gather, prog := some launchImage })] }).modTime .kresia
    fun u => { u with raw := 1 }

/-- Refutes O34: the barrier of `gatheringOneGrain` opens a record whose ARM went out at raw value 1, and the clause has it go
out at 0. -/
theorem not_arrivalsCompleteABarrier : ¬ Obligations.ArrivalsCompleteABarrier := by
  unfold Obligations.ArrivalsCompleteABarrier
  rintro ⟨-, -, -, -, -, -, -, -, -, hone⟩
  obtain ⟨-, -, -, -, -, -, -, hrecs⟩ := hone gatheringOneGrain 0 0 launchImage (by decide +kernel) (by decide +kernel)
    (by decide +kernel) (by decide +kernel) (by decide +kernel) (by decide +kernel) (by decide +kernel) (by decide +kernel)
  have hsent : (((gatheringOneGrain.completeBarrier 0 none).dom 0).recs.map (·.sentAt)) = [1] := by decide +kernel
  have hold : ((gatheringOneGrain.dom 0).recs.filter fun r => 0 < otDiff r.due (gatheringOneGrain.otNow .kresia)) = [] := by
    decide +kernel
  rw [hrecs, hold, List.nil_append, List.map_cons, List.map_nil] at hsent
  exact absurd hsent (by decide)

end Sys2Proof.Machine

/-! The refutation of O35: the void of a step counts twice where the crown of a domain is marked as its deputy too (R106,
R107). -/

namespace Sys2Proof.Machine

/-- A Kresia marked as crown and as deputy of domain 0, which gathers. -/
@[irreducible] def crownAndDeputy : State :=
  State.reset.modKs fun k => { k with doms := [(0, { isCrown := true, isDeputy := true, phase := .gather })] }

/-- Refutes O35: in `crownAndDeputy` a void runs as the crown's and as the deputy's, and VOID_RUN goes from 0 to 2. -/
theorem not_acknowledgementsAndVoids : ¬ Obligations.AcknowledgementsAndVoids := by
  unfold Obligations.AcknowledgementsAndVoids
  rintro ⟨-, -, -, -, -, -, -, -, -, -, -, -, -, -, -, -, -, hvoid⟩
  obtain ⟨-, -, -, -, hrun⟩ := hvoid crownAndDeputy 0 0x2007 (by decide +kernel) (by decide +kernel) (by decide +kernel)
    (by decide +kernel) (by decide +kernel) (by decide +kernel) (by decide +kernel) (by decide +kernel) (by decide +kernel)
    (by decide +kernel) (by decide +kernel)
  have htwice : ((crownAndDeputy.voidStep 0 0x2007).dom 0).voidRun = 2 := by decide +kernel
  have hzero : (crownAndDeputy.dom 0).voidRun = 0 := by decide +kernel
  rw [htwice, hzero] at hrun
  exact absurd hrun (by decide)

end Sys2Proof.Machine

/-! The proof of O36: packets of byte-counted transfers at their receiver (R136 to R142). -/

namespace Sys2Proof.Machine

section
variable {s : State} {p : Part} {port key t epoch : Nat} {k : RsigPacket}

/-! ### A packet that is taken (R138) -/

/-- R137: the tracker a first packet opens. -/
def Tracker.opening (k : RsigPacket) (now : Raw) (port : Nat) : Tracker :=
  { src := k.src, transfer := k.transfer, domain := k.domain, epoch := k.epoch, opened := now, lastRaw := now, lastPort := port }

theorem overruns_opening (hlast : k.last = false) (now : Raw) (port : Nat) : overruns (Tracker.opening k now port) k = false := by
  simp [overruns, Tracker.opening, hlast]

/-- R138: what a packet without LAST shows of its tracker. -/
def Tracker.landing (x : Tracker) (k : RsigPacket) (now : Raw) : Tracker :=
  { x with
    landed := x.landed ||| (1 <<< (k.index % 256)), maxIndex := max x.maxIndex k.index
    written := x.written + k.payload.length, mirror := k.mirror, lastRaw := now }

theorem State.bxWrite_leaves (s : State) (a : Nat) (bs : List Byte) (tag : Nat) (use : MemUse) (o : Option Nat) :
    (s.bxWrite a bs tag use o).bx.trackers = s.bx.trackers ∧ (s.bxWrite a bs tag use o).ks = s.ks := by
  refine List.foldlRecOn (motive := fun u : State => u.bx.trackers = s.bx.trackers ∧ u.ks = s.ks) _ _ ⟨rfl, rfl⟩
    fun u hu x _ => ?_
  obtain ⟨hbx, hks⟩ := hu
  dsimp only [State.bxWriteLine]
  split
  · exact ⟨hbx, hks⟩
  · exact ⟨hbx, hks⟩

theorem State.trackers_landPayload (n addr : Nat) (bs : List Byte) (use : MemUse) :
    (s.landPayload p n addr bs use).trackers p = s.trackers p := by
  cases p
  · exact (s.bxWrite_leaves ..).1
  · rfl

theorem State.trackers_modTrackers (f : FMap Tracker → FMap Tracker) : (s.modTrackers p f).trackers p = f (s.trackers p) := by
  cases p <;> rfl

/-- R138: a packet without LAST of a transfer whose LAST has not come. -/
theorem State.takePacket_first {x : Tracker} (hlast : k.last = false) (hx : x.last = false) :
    s.takePacket p port key t x k =
      (s.modTrackers p fun m => FMap.set m key (x.landing k (s.raw p))).landPayload p t k.addr k.payload (.rsig key port) := by
  have hfind : FMap.find? (((s.modTrackers p fun m => FMap.set m key (x.landing k (s.raw p))).landPayload p t k.addr k.payload
      (.rsig key port)).trackers p) key = some (x.landing k (s.raw p)) := by
    rw [State.trackers_landPayload, State.trackers_modTrackers, FMap.find_set_self]
  simp only [State.takePacket, hlast, Bool.false_eq_true, if_false, State.tryTracker]
  erw [hfind]
  have hopen : (x.landing k (s.raw p)).complete = false := by simp [Tracker.complete, Tracker.landing, hx]
  simp only [hopen, Bool.false_eq_true, if_false]
  rfl

/-- R137: the first packet of a transfer with a tracker free. -/
theorem State.rsigPacket_opens (hepoch : epoch ≤ k.epoch) (hnone : FMap.find? (s.trackers p) (rsigKey k.src k.transfer) = none)
    (hfree : ((s.trackers p).filter fun (_, x) => x.domain = k.domain).length < s.trackerPart p t k.domain)
    (hlast : k.last = false) : s.rsigPacket p port t epoch k =
    (s.modTrackers p fun m => FMap.set m (rsigKey k.src k.transfer) ((Tracker.opening k (s.raw p) port).landing k (s.raw p))).landPayload
      p t k.addr k.payload (.rsig (rsigKey k.src k.transfer) port) := by
  have hover := overruns_opening hlast (s.raw p) port
  rw [Tracker.opening] at hover
  simp only [State.rsigPacket, hnone, Nat.not_lt.mpr hepoch, Nat.not_le.mpr hfree, hover, if_false, Bool.false_eq_true]
  exact State.takePacket_first hlast rfl

/-- R138: the tracker that the first packet of a transfer leaves. -/
theorem State.find_opened (hepoch : epoch ≤ k.epoch) (hnone : FMap.find? (s.trackers p) (rsigKey k.src k.transfer) = none)
    (hfree : ((s.trackers p).filter fun (_, x) => x.domain = k.domain).length < s.trackerPart p t k.domain)
    (hlast : k.last = false) :
    (FMap.find? ((s.rsigPacket p port t epoch k).trackers p) (rsigKey k.src k.transfer)).map
      (fun y => (y.src, y.transfer, y.domain, y.landed, y.written, y.acked, y.last)) =
      some (k.src, k.transfer, k.domain, (1 : BitVec 256) <<< (k.index % 256), k.payload.length, 0, false) := by
  rw [State.rsigPacket_opens hepoch hnone hfree hlast, State.trackers_landPayload, State.trackers_modTrackers,
    FMap.find_set_self, Option.map_some]
  have hbit : ∀ n, BitVec.ofNat 256 (1 <<< n) = (1 : BitVec 256) <<< n := fun n => by
    apply BitVec.eq_of_toNat_eq
    simp
  simp [Tracker.landing, Tracker.opening, hbit]

theorem State.isV2Port_eq_false (h : s.fld p (lkAddr p port 0) 6 2 ≠ 2) : s.isV2Port p port = false :=
  decide_eq_false h

theorem State.rd_modTracker (f : Tracker → Tracker) (q : Part) (a : Nat) : (s.modTracker p key f).rd q a = s.rd q a := by
  cases p <;> cases q <;> rfl

/-- A tracker found, written again. -/
theorem State.find_modTracker {y : Tracker} (h : FMap.find? (s.trackers p) key = some y) (f : Tracker → Tracker) :
    FMap.find? ((s.modTracker p key f).trackers p) key = some (f y) := by
  rw [State.modTracker, State.trackers_modTrackers, h, FMap.find_set_self]

end

/-- Settles O36: the cases of a packet at its tracker, and at a Baxel the writes it sets off. -/
theorem transfersReachTheirReceiver : Obligations.TransfersReachTheirReceiver := by
  unfold Obligations.TransfersReachTheirReceiver
  refine ⟨?fencedBx, ?fencedKs, ?unbound, ?old, ?repeated, ?closed, ?full, ?opens, ?ploav2, ?opensBx⟩
  case fencedBx =>
    intro s port x h
    simp only [exec, execRsigPacketRx, h, if_true]
  case fencedKs =>
    intro s port x h
    simp only [exec, execRsigPacketRx, h, if_true]
  case unbound =>
    intro s port x hok hnone
    simp only [exec, execRsigPacketRx, hok, hnone, Bool.false_eq_true, if_false]
  case old =>
    intro s port x hok hv2 hold htr
    have hexec : exec (.rsigPacketRx .kresia port x) s = .next (s.rsigPacket .kresia port 0 (s.dom x.domain).epoch x) := by
      simp only [exec, execRsigPacketRx, hok, State.isV2Port_eq_false hv2, Bool.false_eq_true, if_false]
    rw [hexec]
    refine congrArg Host.Outcome.next ?_
    simp only [State.rsigPacket, State.trackers, hold, if_true]
    cases hfind : FMap.find? s.ks.trackers (rsigKey x.src x.transfer) with
    | none => rfl
    | some y =>
      rw [hfind] at htr
      have hy : y.overrun = false := by simpa using htr
      simp only [hy, Bool.false_eq_true, if_false]
      rfl
  case repeated =>
    intro s port x y hok hv2 hepoch hfind hy hland
    have hexec : exec (.rsigPacketRx .kresia port x) s = .next ((s.count (evK 0x120084)).modTracker .kresia
        (rsigKey x.src x.transfer) fun y => { y with lastRaw := s.raw .kresia }) := by
      simp only [exec, execRsigPacketRx, hok, State.isV2Port_eq_false hv2, Bool.false_eq_true, if_false, State.rsigPacket,
        State.trackers, hfind, hy, Nat.not_lt.mpr hepoch, hland, if_true, State.rsigCount]
    refine ⟨_, hexec, State.count_ks_mem .., ?_, ?_, State.count_out ..⟩
    · refine State.find_modTracker (p := .kresia) (y := y) ?_ _
      exact (congrArg (FMap.find? · _) (State.count_ks_trackers ..)).trans hfind
    · rw [State.rd_modTracker, State.rd_count_evK, if_pos ⟨rfl, rfl⟩]
      rfl
  case closed =>
    intro s port x y hok hv2 hfind hy
    have hexec : exec (.rsigPacketRx .kresia port x) s = .next ((s.modTracker .kresia (rsigKey x.src x.transfer) fun y =>
        { y with lastRaw := s.raw .kresia }).count (evK 0x12008C)) := by
      simp only [exec, execRsigPacketRx, hok, State.isV2Port_eq_false hv2, Bool.false_eq_true, if_false, State.rsigPacket,
        State.trackers, hfind, hy, if_true, State.rsigCount]
    refine ⟨_, hexec, State.count_ks_mem .., ?_, ?_, State.count_out ..⟩
    · rw [State.count_ks_trackers]
      exact State.find_modTracker (p := .kresia) hfind _
    · rw [State.rd_count_evK, if_pos ⟨rfl, rfl⟩, State.rd_modTracker]
      rfl
  case full =>
    intro s port x hok hv2 hepoch hfind hfull htell
    have hexec : exec (.rsigPacketRx .kresia port x) s = .next ((s.count (evK 0x12008C)).report .kresia 0x3010
        [x.src, x.transfer] (domain := some x.domain)) := by
      simp only [exec, execRsigPacketRx, hok, State.isV2Port_eq_false hv2, Bool.false_eq_true, if_false, State.rsigPacket,
        State.trackers, hfind, Nat.not_lt.mpr hepoch, State.trackerPart]
      rw [if_pos hfull]
      rfl
    refine ⟨_, hexec, ?_, ?_, ?_, ?_⟩
    · rw [State.report_ks_mem, State.count_ks_mem]
    · rw [State.report_ks_trackers, State.count_ks_trackers]
    · have htell' : (s.count (evK 0x12008C)).canTell .kresia = true := by
        simpa [State.canTell] using htell
      rw [State.told_report _ _ _ _ _ _ _ htell']
      simp [State.told]
    · have hkeep : ∀ u : State, (u.report .kresia 0x3010 [x.src, x.transfer] (domain := some x.domain)).rd .kresia 0x12008C =
          u.rd .kresia 0x12008C := fun u => by
        apply State.rd_report_ne
        decide
      rw [hkeep, State.rd_count_evK, if_pos ⟨rfl, rfl⟩]
      rfl
  case opens =>
    intro s port x hok hv2 hepoch hfind hfree hlast
    have hexec : exec (.rsigPacketRx .kresia port x) s = .next (s.rsigPacket .kresia port 0 (s.dom x.domain).epoch x) := by
      simp only [exec, execRsigPacketRx, hok, State.isV2Port_eq_false hv2, Bool.false_eq_true, if_false]
    have heq := State.rsigPacket_opens (p := .kresia) (t := 0) (port := port) hepoch hfind hfree hlast
    refine ⟨_, hexec, ?_, State.find_opened (p := .kresia) hepoch hfind hfree hlast, ?_⟩ <;>
    · rw [heq]
      rfl
  case ploav2 =>
    intro s port x hok hv2
    have hexec : exec (.rsigPacketRx .kresia port x) s = .next (s.landPayload .kresia 0 x.addr x.payload (.v2 port)) := by
      simp only [exec, execRsigPacketRx, hok, State.isV2Port, hv2, decide_true, Bool.false_eq_true, if_false, if_true]
    exact ⟨_, hexec, rfl, rfl, rfl⟩
  case opensBx =>
    intro s port k x hok hten hv2 hepoch hfind hfree hlast
    have hexec : exec (.rsigPacketRx .baxel port x) s = .next (s.rsigPacket .baxel port k (s.ten k).epoch x) := by
      simp only [exec, execRsigPacketRx, hok, hten, State.isV2Port_eq_false hv2, Bool.false_eq_true, if_false]
    have heq := State.rsigPacket_opens (p := .baxel) (t := k) (port := port) hepoch hfind hfree hlast
    refine ⟨_, hexec, State.find_opened (p := .baxel) hepoch hfind hfree hlast, ?_⟩
    rw [heq]
    exact (State.bxWrite_leaves ..).2

end Sys2Proof.Machine

/-! The proof of O37: write responses (R138), trackers that fall silent (R140, R141), RW_DONE (R137), memory requests without
an answer (R414) and Ploav 2 signals (R142). -/

namespace Sys2Proof.Machine

section
variable {s : State}

/-- R142: with no Ploav 2 signal waiting nothing is served. -/
theorem State.serveV2_none (h : s.ks.v2Waits = []) : s.serveV2 .kresia = s.modKs fun k => { k with v2Waits := [] } := by
  simp [State.serveV2, h]

/-- R138: a response without error at a Kresia counts the bytes of its write to the tracker. -/
theorem execMemWriteResponse_counts {r : MemReq} {key l id : Nat} {y : Tracker} (hfind : FMap.find? s.ks.writes id = some r)
    (huse : r.use = .rsig key l) (htime : r.timedOut = false) (htr : FMap.find? s.ks.trackers key = some y)
    (hopen : ({ y with acked := y.acked + r.bytes } : Tracker).complete = false) :
    exec (.memWriteResponse .kresia 0 id false) s = .next ((((s.modWrites .kresia fun w => FMap.erase w id).sample .kresia 0xF0102
      (Raw.diff (s.raw .kresia) r.issued) (port := some 0) (ten := if r.tag < 4 then none else some (r.tag - 4))).modTracker
        .kresia key fun y => { y with acked := y.acked + r.bytes }).serveV2 .kresia) := by
  have hid : 0 * 4096 + id = id := by omega
  simp only [exec, execMemWriteResponse, hid, State.writesOf, hfind, htime, huse, Bool.false_and, Bool.false_eq_true, if_false]
  generalize hs3 : (s.modWrites .kresia fun w => FMap.erase w id).sample .kresia 0xF0102
      (Raw.diff (s.raw .kresia) r.issued) (port := some 0) (ten := if r.tag < 4 then none else some (r.tag - 4)) = s3
  have htr3 : FMap.find? (s3.trackers .kresia) key = some y := by
    rw [← hs3, State.trackers, State.sample_ks_trackers]
    exact htr
  simp only [htr3, State.tryTracker, State.find_modTracker htr3, hopen, Bool.false_eq_true, if_false]

end

/-- Settles O37: each clause is a branch of its command, written out. -/
theorem transfersCompleteOrClose : Obligations.TransfersCompleteOrClose := by
  unfold Obligations.TransfersCompleteOrClose
  refine ⟨?unknown, ?counts, ?overrun, ?notOverrun, ?silent, ?notSilent, ?noTracker, ?done, ?noSend, ?read, ?write, ?noTimeout,
    ?fenced, ?signalKs, ?signalBx⟩
  case unknown =>
    intro s p port id err hnone
    simp only [exec, execMemWriteResponse, hnone]
  case counts =>
    intro s r key l id y hfind huse htime htr hopen hnone
    have hexec := execMemWriteResponse_counts hfind huse htime htr hopen
    generalize hs3 : (s.modWrites .kresia fun w => FMap.erase w id).sample .kresia 0xF0102
      (Raw.diff (s.raw .kresia) r.issued) (port := some 0) (ten := if r.tag < 4 then none else some (r.tag - 4)) = s3 at hexec
    have hwait : (s3.modTracker .kresia key fun y => { y with acked := y.acked + r.bytes }).ks.v2Waits = [] := by
      rw [← hs3]
      exact (State.sample_ks_v2Waits ..).trans hnone
    rw [State.serveV2_none hwait] at hexec
    refine ⟨_, hexec, ?_, ?_, ?_, ?_⟩
    · have hw : s3.ks.writes = FMap.erase s.ks.writes id := by
        rw [← hs3]
        exact State.sample_ks_writes ..
      exact (congrArg (FMap.find? · id) hw).trans (FMap.find_erase_self ..)
    · refine State.find_modTracker (p := .kresia) ?_ _
      rw [← hs3, State.trackers, State.sample_ks_trackers]
      exact htr
    · rw [← hs3]
      exact State.sample_ks_mem ..
    · rw [← hs3]
      exact State.sample_out ..
  case overrun =>
    intro s p src transfer x hfind hover hsilent
    simp only [exec, execRsigOverrunWaitEnd, hfind, hover, hsilent, Bool.and_self, if_true]
  case notOverrun =>
    rintro s p src transfer x hfind (h | h) <;>
      simp only [exec, execRsigOverrunWaitEnd, hfind, h, Bool.false_and, Bool.and_false, Bool.false_eq_true, if_false]
  case silent =>
    intro s p src transfer x hfind hover hopen hsilent
    simp only [exec, execRsigTimeout, hfind, hover, hopen, hsilent, Bool.not_false, Bool.and_self, if_true]
  case notSilent =>
    rintro s p src transfer x hfind (h | h) <;>
      simp only [exec, execRsigTimeout, hfind, h, Bool.not_true, Bool.false_and, Bool.and_false, Bool.false_eq_true, if_false]
  case noTracker =>
    intro s p src transfer hnone
    exact ⟨by simp only [exec, execRsigOverrunWaitEnd, hnone], by simp only [exec, execRsigTimeout, hnone]⟩
  case done =>
    intro s src d x hfind hdom
    simp only [exec, execRwDoneRx, State.sendsOf, hfind, hdom, ne_eq, not_true_eq_false, if_false, State.closeSend]
  case noSend =>
    intro s src d hks hbx
    exact ⟨by simp only [exec, execRwDoneRx, State.sendsOf, hks], by simp only [exec, execRwDoneRx, State.sendsOf, hbx]⟩
  case read =>
    intro s port id r hfind htime hpast
    simp only [exec, execMemPortTimeout, if_true, hfind, htime]
    have hdue : (!false && decide (1000000 * 65536 ≤ Raw.diff (s.raw .baxel) r.issued)) = true := by
      rw [decide_eq_true hpast, Bool.not_false, Bool.and_self]
    exact (if_pos hdue).trans rfl
  case write =>
    intro s port id r hfind htime hpast
    simp only [exec, execMemPortTimeout, if_false, Bool.false_eq_true, hfind, htime]
    have hdue : (!false && decide (1000000 * 65536 ≤ Raw.diff (s.raw .baxel) r.issued)) = true := by
      rw [decide_eq_true hpast, Bool.not_false, Bool.and_self]
    exact (if_pos hdue).trans rfl
  case noTimeout =>
    intro s rd port id h
    simp only [exec, execMemPortTimeout]
    split
    · next r hfind =>
      rw [hfind] at h
      rw [if_neg]
      simp only [Option.all_some, Bool.or_eq_true, decide_eq_true_eq] at h
      simp only [Bool.and_eq_true, Bool.not_eq_true', decide_eq_true_eq, not_and, Int.not_le]
      intro htime
      exact h.resolve_left (by simp [htime])
    · rfl
  case fenced =>
    intro s port x h
    simp [exec, execV2SignalPacketRx, h]
  case signalKs =>
    intro s port x h
    simp [exec, execV2SignalPacketRx, h]; rfl
  case signalBx =>
    intro s port x hok hten
    have hsome : (s.tenantOf x.domain).isNone = false := by simpa [Option.isNone_iff_eq_none, ← Option.isSome_iff_ne_none] using hten
    simp [exec, execV2SignalPacketRx, hok, hsome]; rfl

end Sys2Proof.Machine

/-! The proof of O38: images, their withdrawal and the answers the crown collects (R168, R171 to R178, R230). -/

namespace Sys2Proof.Machine

section
variable {s : State} {d : Nat}

/-! ### What a load and its withdrawal leave and drive out -/

@[simp] theorem State.dom_ksAck (code : Code) (e : Nat) : (s.ksAck d code).dom e = s.dom e := rfl

theorem State.placeObjs_leaves (s : State) (d base n : Nat) (g : Image) (old : Option Image) :
    (s.placeObjs d base n g old).out = s.out ∧ (s.placeObjs d base n g old).ks.c = s.ks.c := ⟨rfl, rfl⟩

theorem State.allocShards_leaves (s : State) (d : Nat) (g : Image) :
    (s.allocShards d g).out = s.out ∧ (s.allocShards d g).ks.c = s.ks.c := by
  refine List.foldlRecOn (motive := fun u : State => u.out = s.out ∧ u.ks.c = s.ks.c) _ _ ⟨rfl, rfl⟩ fun u hu c _ => ?_
  dsimp only
  split_ifs <;> exact hu

/-- What a load leaves of its domain (R168). -/
theorem State.loadHere_leaves (s : State) (d : Nat) (g : Image) :
    (s.loadHere d g).out = s.out ∧ (s.loadHere d g).ks.c = s.ks.c ∧ ((s.loadHere d g).dom d).prog = some g ∧
      ((s.loadHere d g).dom d).next = none ∧ ((s.loadHere d g).dom d).epoch = 0 ∧ ((s.loadHere d g).dom d).insts = [] := by
  unfold State.loadHere
  extract_lets x s1
  obtain ⟨hout, hc⟩ : s1.out = s.out ∧ s1.ks.c = s.ks.c := s.placeObjs_leaves d _ _ g none
  clear_value s1
  obtain ⟨hout', hc'⟩ := (s1.modKs fun k => { k with shards := k.shards.filter fun (q, _) => q / 2 ^ 14 ≠ d }).allocShards_leaves d g
  rw [State.dom_modDom]
  exact ⟨hout'.trans hout, hc'.trans hc, rfl, rfl, rfl, rfl⟩

theorem State.ksId_congr {t : State} (hc : t.ks.c = s.ks.c) : t.ksId = s.ksId := by
  simp only [State.ksId, State.fld, State.rd, State.pc, hc]

theorem State.ksAck_out {u : State} (hout : u.out = s.out) (hid : u.ksId = s.ksId) (code : Code) :
    (u.ksAck d code).out =
      (s.emit (.send .kresia (.crown d) (.loadAck { domain := d, fromBaxel := false, node := 2 ^ 20 + s.ksId, code := code }))).out := by
  simp only [State.ksAck, State.emit, hout, hid]

/-! ### The end of a program command (R172) -/

@[simp] theorem State.dom_progEnd (m k : Nat) (code : Code) (r : List Byte) (e : Nat) : (s.progEnd d m k code r).dom e = s.dom e := by
  rw [State.progEnd, State.dom_complete]
  rfl

theorem State.progEnd_answered {m k : Nat} (code : Code) (r : List Byte) {tk : Taken} (htaken : (s.mslot .kresia m k).taken = some tk) :
    (s.progEnd d m k code r).answered .kresia m k tk code r :=
  State.complete_answered _ .kresia m k code r [] tk htaken

theorem State.withdrawLoad_mslot (s : State) {d : Nat} (w : ProgWait) (m k : Nat) : (s.withdrawLoad d w).mslot .kresia m k = s.mslot .kresia m k := by
  unfold State.withdrawLoad
  extract_lets
  split_ifs <;> rfl

theorem State.beginRun_dom (s : State) (d : Nat) (g : Image) :
    ((s.beginRun d g).dom d).wait = (s.dom d).wait ∧ ((s.beginRun d g).dom d).phase = .gather ∧
      ((s.beginRun d g).dom d).step = imgStepFirst g ∧ ((s.beginRun d g).dom d).epoch = 0 := by
  rw [State.beginRun, State.dom_modDom]
  exact ⟨rfl, rfl, rfl, rfl⟩

theorem State.beginRun_mslot (g : Image) (m k : Nat) : (s.beginRun d g).mslot .kresia m k = s.mslot .kresia m k := rfl

/-- R177: a node that frees its program is struck off. -/
theorem State.freedBy_of_left {node : Nat} {w : ProgWait} (hwait : (s.dom d).wait = some w) (hkind : w.kind = 2)
    (hleft : ∃ n ∈ w.waiting, n ≠ node) :
    s.freedBy d node = s.modDom d fun x => { x with wait := some { w with waiting := w.waiting.filter (· ≠ node) } } := by
  obtain ⟨n, hmem, hne⟩ := hleft
  have hsome : (w.waiting.filter (· ≠ node)).isEmpty = false := by
    rw [Bool.eq_false_iff, ne_eq, List.isEmpty_iff]
    exact List.ne_nil_of_mem (List.mem_filter.mpr ⟨hmem, by simpa using hne⟩)
  simp only [State.freedBy, hwait, hkind, ne_eq, not_true_eq_false, if_false]
  exact if_neg (Bool.eq_false_iff.mp hsome)

/-- R177: the last node to free its program ends the unload. -/
theorem State.freedBy_of_last {node : Nat} {w : ProgWait} (hwait : (s.dom d).wait = some w) (hkind : w.kind = 2)
    (hlast : ∀ n ∈ w.waiting, n = node) :
    s.freedBy d node =
      (s.modDom d fun x => { x with wait := none, phase := .idle, unloading := none, lost := false }).progEnd d w.mailbox w.mslot 0 := by
  have hnone : (w.waiting.filter (· ≠ node)).isEmpty = true := by
    rw [List.isEmpty_iff, List.filter_eq_nil_iff]
    intro n hmem
    simpa using hlast n hmem
  simp only [State.freedBy, hwait, hkind, ne_eq, not_true_eq_false, if_false]
  exact if_pos hnone

end

/-- Settles O38: the image, the answers and the scalar values case by case as R171 to R178 and R230 list them. -/
theorem imagesLoadAndTheirAnswers : Obligations.ImagesLoadAndTheirAnswers := by
  unfold Obligations.ImagesLoadAndTheirAnswers
  refine ⟨?notReady, ?digest, ?room, ?switch, ?load, ?withdrawNext, ?withdrawLoad, ?cup, ?noWait, ?refused, ?struck, ?last, ?freed,
    ?freedLast, ?scalar, ?scalarStruck, ?scalarNone⟩
  case notReady =>
    intro s x hmap hroll hcup hunload hwith hready
    simp only [exec, execProgImageRx, hmap, hroll, hcup, hunload, hwith, hready, Bool.false_eq_true, if_false, Bool.not_false, if_true,
      State.ksAck]
  case digest =>
    intro s x hmap hroll hcup hunload hwith hready hdigest
    simp only [exec, execProgImageRx, hmap, hroll, hcup, hunload, hwith, hready, Bool.false_eq_true, if_false, Bool.not_true, if_true,
      ne_eq, hdigest, not_false_eq_true, State.ksAck]
  case room =>
    intro s x hmap hroll hcup hunload hwith hready hdigest hroom
    simp only [exec, execProgImageRx, hmap, hroll, hcup, hunload, hwith, hready, Bool.false_eq_true, if_false, Bool.not_true, if_true,
      ne_eq, hdigest, not_true_eq_false, hroom, Bool.not_false, State.ksAck]
  case switch =>
    intro s x n hmap hroll hcup hunload hwith hready hdigest hroom hswitch
    simp only [exec, execProgImageRx, hmap, hroll, hcup, hunload, hwith, hready, Bool.false_eq_true, if_false, Bool.not_true,
      ne_eq, hdigest, not_true_eq_false, hroom, hswitch, State.ksAck]
    rfl
  case load =>
    intro s x hmap hroll hcup hunload hwith hready hdigest hroom hswitch
    have hexec : exec (.progImageRx x) s = .next (State.ksAck
        (let t := (s.modDom x.domain fun y => { y with
            isDeputy := x.deputy, crown := x.crown, positions := x.positions.map s.newPos }).loadHere x.domain x.image
         if x.deputy then t.modDom x.domain fun y => { y with
            phase := .gather, step := imgStepFirst x.image, everTamped := false, arrivals := [], lastBy := none, series := none
            heldAcks := [], voidEpoch := 0, voidRun := 0 }
         else t) x.domain 0) := by
      simp only [exec, execProgImageRx, hmap, hroll, hcup, hunload, hwith, hready, Bool.false_eq_true, if_false, Bool.not_true,
        ne_eq, hdigest, not_true_eq_false, hroom, hswitch]
    refine ⟨_, hexec, ?_⟩
    extract_lets t
    obtain ⟨hout, hc, hprog, hnext, hepoch, hinsts⟩ := State.loadHere_leaves
      (s.modDom x.domain fun y => { y with isDeputy := x.deputy, crown := x.crown, positions := x.positions.map s.newPos }) x.domain x.image
    have hid : t.ksId = s.ksId := State.ksId_congr hc
    change t.out = s.out at hout
    change (t.dom x.domain).prog = _ at hprog
    change (t.dom x.domain).next = _ at hnext
    change (t.dom x.domain).epoch = _ at hepoch
    change (t.dom x.domain).insts = _ at hinsts
    clear_value t
    cases x.deputy
    · simp only [Bool.false_eq_true, if_false, State.dom_ksAck]
      exact ⟨hprog, hnext, hepoch, hinsts, State.ksAck_out hout hid 0⟩
    · simp only [if_true, State.dom_ksAck, State.dom_modDom]
      exact ⟨hprog, hnext, hepoch, hinsts, State.ksAck_out hout hid 0⟩
  case withdrawNext =>
    intro s x hmap hroll hcup hunload hwith hswitch
    simp only [exec, execProgImageRx, hmap, hroll, hcup, hunload, hwith, Bool.false_eq_true, if_false, if_true,
      Option.isSome_iff_ne_none.mpr hswitch]
  case withdrawLoad =>
    intro s x hmap hroll hcup hunload hwith hswitch
    have hexec : exec (.progImageRx x) s = .next (s.dropLoad x.domain) := by
      simp only [exec, execProgImageRx, hmap, hroll, hcup, hunload, hwith, hswitch, Option.isSome_none, Bool.false_eq_true, if_false, if_true]
    refine ⟨_, hexec, ?_, ?_, rfl⟩ <;> rw [State.dropLoad, State.dom_modDom]
  case cup =>
    intro s x n f hmap hroll hcup
    simp only [exec, execProgImageRx, hmap, hroll, hcup, Bool.false_eq_true, if_false]
  case noWait =>
    intro s a hwait
    simp only [exec, execProgLoadAckRx, hwait]
  case refused =>
    intro s a w tk hwait hkind hcode htaken
    have hkind' : (decide (w.kind ≠ 0) && decide (w.kind ≠ 1)) = false := by
      rcases hkind with h | h <;> simp [h]
    have hexec : exec (.progLoadAckRx a) s = .next (((s.withdrawLoad a.domain w).modDom a.domain fun y => { y with wait := none }).progEnd
        a.domain w.mailbox w.mslot 0x2028 (leBytes 4 a.node ++ leBytes 2 a.code.toNat)) := by
      simp only [exec, execProgLoadAckRx, hwait, hkind', Bool.false_eq_true, if_false, if_pos hcode]
    refine ⟨_, hexec, State.progEnd_answered _ _ ?_, ?_⟩
    · exact (congrArg (·.taken) (s.withdrawLoad_mslot w w.mailbox w.mslot)).trans htaken
    · rw [State.dom_progEnd, State.dom_modDom]
  case struck =>
    intro s a w hwait hkind hcode hleft
    have hkind' : (decide (w.kind ≠ 0) && decide (w.kind ≠ 1)) = false := by
      rcases hkind with h | h <;> simp [h]
    have hleft' : (w.waiting.erase a.node).isEmpty = false := by
      rw [Bool.eq_false_iff, ne_eq, List.isEmpty_iff]
      exact hleft
    simp only [exec, execProgLoadAckRx, hwait, hkind', Bool.false_eq_true, if_false, hcode, ne_eq, not_true_eq_false, hleft',
      Bool.not_false, if_true]
  case last =>
    intro s a w tk g hwait hkind hcode hleft hprog htaken
    have hexec : exec (.progLoadAckRx a) s = .next (((s.modDom a.domain fun y => { y with wait := none }).progEnd
        a.domain w.mailbox w.mslot 0).beginRun a.domain g) := by
      simp [exec, execProgLoadAckRx, hwait, hkind, hcode, hleft, hprog]
    refine ⟨_, hexec, ?_, ?_⟩
    · rw [State.answered, State.beginRun_mslot]
      exact State.progEnd_answered _ _ htaken
    · obtain ⟨hwait', hphase, hstep, hepoch⟩ := State.beginRun_dom
        ((s.modDom a.domain fun y => { y with wait := none }).progEnd a.domain w.mailbox w.mslot 0) a.domain g
      refine ⟨hwait'.trans ?_, hphase, hstep, hepoch⟩
      rw [State.dom_progEnd, State.dom_modDom]
  case freed =>
    intro s a w hwait hkind hleft
    exact congrArg Host.Outcome.next (State.freedBy_of_left hwait hkind hleft)
  case freedLast =>
    intro s a w tk hwait hkind hlast htaken
    refine ⟨_, congrArg Host.Outcome.next (State.freedBy_of_last hwait hkind hlast), State.progEnd_answered _ _ htaken, ?_⟩
    rw [State.dom_progEnd, State.dom_modDom]
    exact ⟨rfl, rfl⟩
  case scalar =>
    intro s x
    rfl
  case scalarStruck =>
    intro s x n w hfind hleft
    obtain ⟨i, hmem, hne⟩ := hleft
    have hsome : (w.waiting.filter (· ≠ n)).isEmpty = false := by
      rw [Bool.eq_false_iff, ne_eq, List.isEmpty_iff]
      exact List.ne_nil_of_mem (List.mem_filter.mpr ⟨hmem, by simpa using hne⟩)
    simp only [exec, execScalarAckRx, hfind, hsome, Bool.false_eq_true, if_false]
  case scalarNone =>
    intro s x n hfind
    simp only [exec, execScalarAckRx, hfind]

end Sys2Proof.Machine

/-! The proof of O39: tamps, voids and the entries of step bodies (R153 to R160, R178). -/

namespace Sys2Proof.Machine

section
variable {s : State} {d : Nat}

/-! ### Operations that leave every domain as it is -/

theorem State.tagWrite_doms (s : State) (x : TagRec) : (s.tagWrite .kresia x).ks.doms = s.ks.doms := by
  unfold State.tagWrite State.modTags
  split_ifs <;> simp

theorem State.tagEnd_doms (s : State) (r : TagRec) (b : Bool) : (s.tagEnd r b).ks.doms = s.ks.doms := by
  unfold State.tagEnd
  split
  · exact State.tagWrite_doms _ _
  · rfl

theorem State.tagStage_doms (s : State) (r : TagRec) (i : Nat) : (s.tagStage r i).ks.doms = s.ks.doms := by
  unfold State.tagStage
  split
  · split_ifs <;> rfl
  · rfl

theorem State.modChunk_doms (s : State) (ix : Nat) (f : ChunkEntry → ChunkEntry) : (s.modChunk ix f).ks.doms = s.ks.doms := by
  unfold State.modChunk
  split <;> rfl

theorem State.failOld_doms (s : State) (ix : Nat) (e : ChunkEntry) : (s.failOld ix e).ks.doms = s.ks.doms := by
  unfold State.failOld
  extract_lets running s1
  have h1 : s1.ks.doms = s.ks.doms := by
    simp only [s1, State.tagStage_doms, State.count_ks_doms, State.freeSlots, State.modChunk_doms]
  clear_value s1
  split_ifs
  · rfl
  · exact State.modChunk_doms _ _ _
  · rw [State.tagEnd_doms, h1]

theorem State.dropTrackers_doms (s : State) (p : Part) (f : Tracker → Bool) : (s.dropTrackers p f).ks.doms = s.ks.doms := by
  cases p <;> rfl

theorem State.voidTrackers_doms (s : State) (p : Part) (e : Nat) : (s.voidTrackers p d e).ks.doms = s.ks.doms := by
  refine List.foldlRecOn (motive := fun u : State => u.ks.doms = s.ks.doms) _ _ (State.dropTrackers_doms _ _ _) fun u hu x _ => ?_
  obtain ⟨k, x⟩ := x
  exact hu

theorem State.endWaiter_doms (s : State) (o : Nat) (w : Waiter) (code : Code) :
    (s.endWaiter .kresia o w code).ks.doms = s.ks.doms := by
  unfold State.endWaiter
  dsimp only
  split <;> simp

theorem State.serveFor_doms (s : State) (o k : Nat) : (s.serveFor .kresia o k).ks.doms = s.ks.doms := by
  unfold State.serveFor
  extract_lets x
  obtain ⟨v, done, rest⟩ := Machine.serve k x.value x.waiters
  dsimp only
  split_ifs
  · rfl
  · exact List.foldlRecOn (motive := fun u : State => u.ks.doms = s.ks.doms) _ _ rfl fun u hu w _ =>
      (State.endWaiter_doms u o w 0).trans hu

theorem State.serveObjs_doms (s : State) (os : List Nat) : (s.serveObjs os).ks.doms = s.ks.doms := by
  refine List.foldlRecOn (motive := fun u : State => u.ks.doms = s.ks.doms) _ _ rfl fun u hu o _ => ?_
  unfold State.serveObj
  split_ifs
  · exact hu
  · exact (State.serveFor_doms u o 1).trans hu

theorem State.endTakes_doms (s : State) (d : Nat) (f : Obj → Bool) : (s.endTakes d f).ks.doms = s.ks.doms := by
  refine List.foldlRecOn (motive := fun u : State => u.ks.doms = s.ks.doms) _ _ rfl fun u hu q _ => ?_
  exact (State.endWaiter_doms u q.1 q.2 0x3012).trans hu

theorem State.dom_of_doms {t : State} (h : t.ks.doms = s.ks.doms) (e : Nat) : t.dom e = s.dom e := by
  rw [State.dom, State.dom, h]

/-! ### What a newer epoch leaves of a domain's program (R105, R178) -/

/-- The program, the epoch and the unload of domain `d` are the same in both states. -/
structure SameProgram (d : Nat) (s t : State) : Prop where
  prog : (t.dom d).prog = (s.dom d).prog
  epoch : (t.dom d).epoch = (s.dom d).epoch
  freeing : (t.dom d).freeing = (s.dom d).freeing

namespace SameProgram

theorem rfl' : SameProgram d s s := ⟨rfl, rfl, rfl⟩

theorem trans {t u : State} (h : SameProgram d s t) (k : SameProgram d t u) : SameProgram d s u :=
  ⟨k.prog.trans h.prog, k.epoch.trans h.epoch, k.freeing.trans h.freeing⟩

theorem of_doms {t : State} (h : t.ks.doms = s.ks.doms) : SameProgram d s t := by
  have hdom := State.dom_of_doms h d
  exact ⟨by rw [hdom], by rw [hdom], by rw [hdom]⟩

theorem modDom {t : State} (h : SameProgram d s t) (f : Domain → Domain)
    (hf : ∀ x, (f x).prog = x.prog ∧ (f x).epoch = x.epoch ∧ (f x).freeing = x.freeing) : SameProgram d s (t.modDom d f) := by
  obtain ⟨hprog, hepoch, hfreeing⟩ := hf (t.dom d)
  refine h.trans ⟨?_, ?_, ?_⟩ <;> rw [State.dom_modDom] <;> assumption

end SameProgram

theorem State.cupAdd_sameProgram (s : State) (d step kind : Nat) (terms : List (List Nat)) :
    SameProgram d s (s.cupAdd d step kind terms) := by
  unfold State.cupAdd
  extract_lets x sum pad
  split_ifs
  · exact .rfl'
  · refine SameProgram.modDom (.of_doms (by simp)) _ fun y => ?_
    split_ifs <;> exact ⟨rfl, rfl, rfl⟩

theorem State.storeCup_sameProgram (s : State) (d : Nat) (r : CupRec) : SameProgram d s (s.storeCup d r) := by
  have h1 : SameProgram d s (s.modDom d fun y => { y with cupOpen := y.cupOpen.filter fun q => q.step ≠ r.step }) :=
    SameProgram.rfl'.modDom _ fun _ => ⟨rfl, rfl, rfl⟩
  unfold State.storeCup
  extract_lets x s1
  split_ifs
  · refine SameProgram.trans ?_ (.of_doms (State.count_ks_doms _ _ _))
    exact h1.modDom _ fun _ => ⟨rfl, rfl, rfl⟩
  · refine SameProgram.trans ?_ (.of_doms (State.report_ks_doms ..))
    exact h1.modDom _ fun _ => ⟨rfl, rfl, rfl⟩

theorem State.tryCup_sameProgram (s : State) (d step : Nat) : SameProgram d s (s.tryCup d step) := by
  unfold State.tryCup
  extract_lets x
  split
  · split_ifs
    · exact State.storeCup_sameProgram _ _ _
    · exact .rfl'
  · exact .rfl'

theorem State.takePartial_sameProgram (s : State) (m : CupPartial) : SameProgram m.domain s (s.takePartial m) := by
  unfold State.takePartial
  extract_lets d x old base r s1 s2
  have h1 : SameProgram d s s1 := by
    apply SameProgram.rfl'.modDom
    exact fun _ => ⟨rfl, rfl, rfl⟩
  have h2 : SameProgram d s s2 := by
    dsimp only [s2]
    split_ifs
    · exact h1.trans (.of_doms rfl)
    · exact h1
  split_ifs
  · exact .rfl'
  · exact .rfl'
  · exact h2.trans (State.tryCup_sameProgram _ _ _)

theorem State.sendPartial_sameProgram (s : State) (d : Nat) (n : Inst) : SameProgram d s (s.sendPartial d n) := by
  unfold State.sendPartial
  extract_lets x s1 sums m
  have h1 : SameProgram d s s1 := by
    dsimp only [s1]
    split_ifs
    · exact .rfl'
    · exact .of_doms (by simp)
  split_ifs
  · exact h1
  · exact h1.trans (State.takePartial_sameProgram _ m)
  · exact h1.trans (.of_doms rfl)

theorem State.startInst_sameProgram (s : State) (d step epoch : Nat) (due : OT) : SameProgram d s (s.startInst d step epoch due) := by
  unfold State.startInst
  extract_lets x
  split
  · exact .rfl'
  · next s1 _ g _ =>
    extract_lets n s2
    have h1 : SameProgram d s s1 := by
      apply SameProgram.rfl'.modDom
      exact fun _ => ⟨rfl, rfl, rfl⟩
    have h2 : SameProgram d s s2 := by
      dsimp only [s2]
      split_ifs
      · exact h1.trans (State.cupAdd_sameProgram _ _ _ _ _)
      · exact h1
    split_ifs
    · exact h2.trans (State.sendPartial_sameProgram _ _ _)
    · exact h2.modDom _ fun _ => ⟨rfl, rfl, rfl⟩

theorem State.trimProgram_sameProgram (s : State) (d : Nat) : SameProgram d s (s.trimProgram d) := by
  unfold State.trimProgram
  extract_lets x
  split
  · exact .rfl'
  · extract_lets n
    split_ifs
    · exact .rfl'
    · refine SameProgram.modDom ?_ _ fun _ => ⟨rfl, rfl, rfl⟩
      exact .of_doms rfl

theorem State.afterInst_sameProgram (hfreeing : (s.dom d).freeing = false) : SameProgram d s (s.afterInst d) := by
  unfold State.afterInst
  extract_lets t x
  have ht : SameProgram d s t := State.trimProgram_sameProgram s d
  split
  · split_ifs
    · exact ht
    · refine SameProgram.trans ?_ (State.startInst_sameProgram _ _ _ _ _)
      exact ht.modDom _ fun _ => ⟨rfl, rfl, rfl⟩
  · rw [if_neg]
    · exact ht
    · simp only [x, ht.freeing, hfreeing, Bool.false_and, Bool.false_eq_true, not_false_eq_true]

theorem State.voidInst_sameProgram {step : Nat} (hfreeing : (s.dom d).freeing = false) : SameProgram d s (s.voidInst d step) := by
  unfold State.voidInst
  extract_lets open' mine s1 reset s2 tags s3 s4
  have h2 : SameProgram d s s2 := .of_doms (by
    dsimp only [s2]
    rw [State.serveObjs_doms, State.endTakes_doms]
    rfl)
  have h3 : SameProgram d s s3 := h2.trans (.of_doms
    (List.foldlRecOn (motive := fun u : State => u.ks.doms = s2.ks.doms) _ _ rfl fun u hu t _ => (State.tagEnd_doms u t true).trans hu))
  have h4 : SameProgram d s s4 := by
    apply h3.modDom
    exact fun _ => ⟨rfl, rfl, rfl⟩
  split_ifs
  · exact h4.trans (State.afterInst_sameProgram (h4.freeing.trans hfreeing))
  · exact h4

/-- R105: the end of an epoch leaves the program and the unload, and the epoch is the newer one. -/
theorem State.endEpoch_dom (s : State) (d e : Nat) : (s.endEpoch d e).dom d = { s.dom d with epoch := e } := by
  unfold State.endEpoch
  extract_lets s1 s2
  have h2 : s2.dom d = { s.dom d with epoch := e } :=
    State.dom_modDom s d fun x => { x with epoch := e }
  have hfold := List.foldlRecOn (motive := fun u : State => u.ks.doms = s2.ks.doms) s2.ks.chunks
    (fun s (ix, z) => if z.domain = d && z.epoch < e then s.failOld ix z else s) rfl fun u hu x _ => by
      obtain ⟨ix, z⟩ := x
      dsimp only
      split_ifs
      · exact (State.failOld_doms u ix z).trans hu
      · exact hu
  rw [State.dom_of_doms (State.voidTrackers_doms _ _ _), State.dom_of_doms hfold, h2]

theorem State.newerEpoch_keeps (hfreeing : (s.dom d).freeing = false) (e step : Nat) :
    ((s.newerEpoch d e step).dom d).epoch = e ∧ ((s.newerEpoch d e step).dom d).prog = (s.dom d).prog := by
  have hdom := State.dom_modDom (s.endEpoch d e) d fun x => { x with seq := if x.isCrown then x.seq else 0 }
  rw [State.endEpoch_dom] at hdom
  have hvoid := State.voidInst_sameProgram (d := d) (step := step) ((congrArg (·.freeing) hdom).trans hfreeing)
  exact ⟨hvoid.epoch.trans (congrArg (·.epoch) hdom), hvoid.prog.trans (congrArg (·.prog) hdom)⟩

theorem State.deputyVoid_sameProgram (m : Ctl) (told : Bool) : SameProgram d s (s.deputyVoid d m told) := by
  unfold State.deputyVoid
  extract_lets x s1
  have h1 : SameProgram d s s1 := by
    refine SameProgram.trans ?_ (.of_doms (State.count_ks_doms _ _ _))
    exact SameProgram.rfl'.modDom _ fun _ => ⟨rfl, rfl, rfl⟩
  split_ifs
  · exact .rfl'
  · exact h1
  · exact h1.modDom _ fun _ => ⟨rfl, rfl, rfl⟩

theorem State.relay_doms (s : State) (d : Nat) (m : Ctl) : (s.relay d m).ks.doms = s.ks.doms := by
  unfold State.relay
  extract_lets x below s1
  have h1 : s1.ks.doms = s.ks.doms := by
    dsimp only [s1]
    split_ifs <;> rfl
  split_ifs
  · rfl
  · rfl
  · exact h1
  · exact h1

theorem State.relayVoid_sameProgram (m : Ctl) : SameProgram d s (s.relayVoid d m) := by
  unfold State.relayVoid
  extract_lets x
  split_ifs
  · exact .rfl'
  · refine SameProgram.trans ?_ (.of_doms (State.relay_doms _ _ _))
    exact SameProgram.rfl'.modDom _ fun _ => ⟨rfl, rfl, rfl⟩

/-- R105: a void of an older epoch is not passed on and does nothing. -/
theorem State.ksVoid_older {m : Ctl} (h : m.epoch < (s.dom d).epoch) : s.ksVoid d m = s := by
  have hrelay : s.relayVoid d m = s := by
    simp only [State.relayVoid, h, decide_true, Bool.or_true, Bool.true_or, if_true]
  simp only [State.ksVoid, hrelay, h, if_true]

/-- R105: the first void of a newer epoch makes it the epoch of the domain. -/
theorem State.ksVoid_newer {m : Ctl} (h : (s.dom d).epoch < m.epoch) (hfreeing : (s.dom d).freeing = false) :
    ((s.ksVoid d m).dom d).epoch = m.epoch ∧ ((s.ksVoid d m).dom d).prog = (s.dom d).prog := by
  have hrelay : SameProgram d s (s.relayVoid d m) := State.relayVoid_sameProgram m
  unfold State.ksVoid
  extract_lets t x told
  have hx : x.epoch < m.epoch := hrelay.epoch ▸ h
  rw [if_neg (Nat.not_lt.mpr hx.le), if_neg (by simp [hx.ne'])]
  obtain ⟨hepoch, hprog⟩ := State.newerEpoch_keeps (s := t) (d := d) (hrelay.freeing.trans hfreeing) m.epoch m.step
  have hdep := State.deputyVoid_sameProgram (s := t.newerEpoch d m.epoch m.step) (d := d) m false
  exact ⟨hdep.epoch.trans hepoch, hdep.prog.trans (hprog.trans hrelay.prog)⟩

/-! ### A first tamp that is held (R154) -/

theorem State.sealOutputs_doms (s : State) (d n : Nat) (g : Image) : (s.sealOutputs d n g).ks.doms = s.ks.doms := by
  refine List.foldlRecOn (motive := fun u : State => u.ks.doms = s.ks.doms) _ _ rfl fun u hu c _ => ?_
  dsimp only
  split_ifs
  · exact hu
  · exact hu
  · exact (State.modShard_ks_doms _ _ _).trans hu

/-- A Kresia that is no deputy keeps of a tamp it passes on the sequence alone. -/
theorem State.followTamp_dom (m : Ctl) (hdeputy : (s.dom d).isDeputy = false) :
    ∃ q, (s.followTamp d m).dom d = { s.dom d with seq := q } := by
  unfold State.followTamp
  split_ifs
  · exact ⟨(s.dom d).seq, rfl⟩
  · have hdom : ((s.relay d m).modDom d fun y => { y with seq := m.seq }).dom d = { s.dom d with seq := m.seq } := by
      rw [State.dom_modDom, State.dom_of_doms (State.relay_doms s d m)]
    refine ⟨m.seq, ?_⟩
    rw [State.deputyTamp, if_pos (by rw [hdom]; simp [hdeputy]), hdom]

theorem State.takeMoved_of_no_moves (g : Image) (step : Nat) (h : (s.dom d).moves = []) : s.takeMoved d g step = s := by
  simp only [State.takeMoved, h, List.filter_nil, List.foldl_nil]

theorem State.switchAt_of_no_next (step : Nat) (h : (s.dom d).next = none) : s.switchAt d step = s := by
  simp only [State.switchAt, h]

/-- R154: the first tamp of a step whose slot launches first, with two instances open, is noted and held. -/
theorem State.ksTamp_held {m : Ctl} {g : Image} (hepoch : m.epoch = (s.dom d).epoch) (hdeputy : (s.dom d).isDeputy = false)
    (hnext : (s.dom d).next = none) (himage : (s.dom d).imageFor m.step = some g) (hmoves : (s.dom d).moves = [])
    (htamp : (s.dom d).lastTamp = none) (hcancel : m.cancel = false) (hslot : (launches g).head?.map (entRef g) = some m.slot)
    (hopen : 2 ≤ (s.dom d).insts.length) :
    ∃ q, (s.ksTamp d m).dom d = { s.dom d with
      seq := q, lastTamp := some (m.step, m.epoch), heldInsts := (s.dom d).heldInsts ++ [(m.step, m.epoch, m.due)] } := by
  obtain ⟨q, hq⟩ := State.followTamp_dom (s := s) (d := d) m hdeputy
  refine ⟨q, ?_⟩
  unfold State.ksTamp
  rw [if_neg (by omega)]
  extract_lets s0 x seen s1 spines s2 s3 _
  have h0 : s0 = s.followTamp d m := congrArg (State.followTamp · d m) (if_neg (by omega))
  have hx : x = { s.dom d with seq := q } := (congrArg (State.dom · d) h0).trans hq
  have hseen : seen = false := by
    dsimp only [seen]
    rw [hx, htamp]
  have himage' : x.imageFor m.step = some g := by
    rw [hx]
    exact himage
  have h1 : s1.dom d = { x with lastTamp := some (m.step, m.epoch) } := State.dom_modDom s0 d fun y => { y with
    lastTamp := some (m.step, m.epoch) }
  have h2 : s2.dom d = s1.dom d := by
    dsimp only [s2]
    split_ifs <;> rfl
  have h3 : s3.dom d = s1.dom d := by
    dsimp only [s3]
    split
    · exact (State.dom_of_doms (State.sealOutputs_doms s2 d _ _) d).trans h2
    · exact h2
  have hnext' : (s3.dom d).next = none := by rw [h3, h1, hx]; exact hnext
  have hmoves' : (s3.dom d).moves = [] := by rw [h3, h1, hx]; exact hmoves
  clear_value seen
  rw [himage']
  dsimp only
  rw [if_neg (by simp [hseen, hcancel, hslot])]
  have h4 : (if x.isCrown then s3 else s3.switchAt d m.step).takeMoved d g m.step = s3 := by
    rw [State.switchAt_of_no_next _ hnext', ite_self, State.takeMoved_of_no_moves _ _ hmoves']
  have hdom : s3.dom d = { s.dom d with seq := q, lastTamp := some (m.step, m.epoch) } := by
    rw [h3, h1, hx]
  have hholds : (s3.dom d).holds m.step = true := by
    rw [hdom, Domain.holds, decide_eq_true hopen, Bool.true_or]
  rw [h4, if_pos hholds, State.dom_of_doms (State.count_ks_doms _ _ _), State.dom_modDom, hdom]

/-! ### The timeout of a WAIT (R157) -/

/-- R157: a WAIT whose time has run is withdrawn from its object and counted. -/
def State.waitWithdrawn (s : State) (d step i : Nat) : State :=
  (s.modKs fun k => { k with objs := FMap.mapVals k.objs fun _ o => { o with
    waiters := o.waiters.filter fun w => !(w.owner = d && w.source = .entry (waitId step i)) } }).count (evD d 0x130060)

theorem State.waitWithdrawn_waiters {step i o : Nat} {w : Obj} {q : Waiter}
    (hfind : FMap.find? (s.waitWithdrawn d step i).ks.objs o = some w) (hq : q ∈ w.waiters) :
    ¬ (q.owner = d ∧ q.source = .entry (waitId step i)) := by
  rw [State.waitWithdrawn, State.count_ks_objs] at hfind
  dsimp only [State.modKs] at hfind
  rw [FMap.find_mapVals] at hfind
  obtain ⟨v, _, rfl⟩ := Option.map_eq_some_iff.mp hfind
  have hkeep := (List.mem_filter.mp hq).2
  simpa [imp_iff_not_or] using hkeep

theorem State.waitWithdrawn_leaves (s : State) (d step i : Nat) :
    (s.waitWithdrawn d step i).ks.takesDone = s.ks.takesDone ∧ (s.waitWithdrawn d step i).ks.doms = s.ks.doms ∧
      (s.waitWithdrawn d step i).out = s.out :=
  ⟨(State.count_ks_takesDone _ _ _).trans rfl, (State.count_ks_doms _ _ _).trans rfl, (State.count_out _ _ _).trans rfl⟩

theorem State.ksTenantFault_out {t : State} {code : Code} {step : Nat} (hout : t.out = s.out) (hdoms : t.ks.doms = s.ks.doms) :
    (t.ksTenantFault d code (some step)).out = (s.ksTenantFault d code (some step)).out := by
  simp only [State.ksTenantFault, State.emit, hout, State.dom, hdoms]

end

/-- Settles O39: tamps, voids and entries case by case as R105 and R153 to R160 list them. -/
theorem stepBodiesRun : Obligations.StepBodiesRun := by
  unfold Obligations.StepBodiesRun
  refine ⟨?older, ?held, ?newer, ?noTick, ?tick, ?early, ?finished, ?unfinished, ?taken, ?notTaken, ?timeout, ?noInst, ?start, ?queueMode,
    ?overrun⟩
  case older =>
    intro s m h
    refine ⟨?_, congrArg Host.Outcome.next (State.ksVoid_older h)⟩
    simp only [exec, execKresiaTampRx, State.ksTamp, h, if_true]
  case held =>
    intro s m g hepoch hdeputy hnext himage hmoves htamp hcancel hslot hopen
    obtain ⟨q, hq⟩ := State.ksTamp_held hepoch hdeputy hnext himage hmoves htamp hcancel hslot hopen
    exact ⟨_, rfl, by rw [hq], by rw [hq], by rw [hq]⟩
  case newer =>
    intro s m h hfreeing
    exact ⟨_, rfl, State.ksVoid_newer h hfreeing⟩
  case noTick =>
    intro s d step hnone
    simp only [exec, execQueueIssueTick, hnone]
  case tick =>
    intro s d step n hinst hmode hlast
    simp only [exec, execQueueIssueTick, hinst, hmode]
    rw [if_neg]
    cases hr : n.lastIssue with
    | none => simp
    | some r =>
      rw [hr, Option.all_some, decide_eq_true_eq] at hlast
      simp only [ne_eq, not_true_eq_false, decide_false, Bool.false_or, decide_eq_true_eq, Int.not_lt]
      exact hlast
  case early =>
    intro s d step n hinst h
    simp only [exec, execQueueIssueTick, hinst]
    rw [if_pos]
    rcases h with hmode | hlast
    · rw [decide_eq_true hmode, Bool.true_or]
    · cases hr : n.lastIssue with
      | none => simp [hr] at hlast
      | some r =>
        rw [hr, Option.any_some] at hlast
        rw [Bool.or_eq_true]
        exact .inr hlast
  case finished =>
    intro s d step i n r hinst hrun hdone hfin
    simp only [exec, execEntryComplete, hinst, hrun, hdone, hfin, Bool.not_false, Bool.and_self, if_true]
  case unfinished =>
    rintro s d step i n r hinst hrun (h | h) <;>
      simp only [exec, execEntryComplete, hinst, hrun, h, Bool.not_true, Bool.false_and, Bool.and_false, Bool.false_eq_true, if_false]
  case taken =>
    intro s d step i c hmem hc
    rw [show exec (.waitTakeDone d step i) s = execWaitTakeDone d step i s from rfl, execWaitTakeDone, if_pos]
    exact List.any_eq_true.mpr ⟨_, hmem, by simpa using hc⟩
  case notTaken =>
    intro s d step i h0 h1
    rw [show exec (.waitTakeDone d step i) s = execWaitTakeDone d step i s from rfl, execWaitTakeDone, if_neg]
    rw [List.any_eq_true]
    rintro ⟨⟨q, j, c⟩, hmem, hc⟩
    simp only [Bool.and_eq_true, Bool.or_eq_true, decide_eq_true_eq] at hc
    obtain ⟨⟨rfl, rfl⟩, rfl | rfl⟩ := hc
    · exact h0 hmem
    · exact h1 hmem
  case timeout =>
    intro s d step i n r hinst hrun htype hdone hus hlong hended hflag
    have hexec : exec (.waitTimeout d step i) s = .next (((s.waitWithdrawn d step i).modKs fun k => { k with
        takesDone := k.takesDone ++ [(d, waitId step i, 0x202D)] }).ksTenantFault d 0x202D (some step)) := by
      simp only [exec, execWaitTimeout, hinst, hrun, htype, hdone, decide_eq_true hus, decide_eq_true hlong, if_neg hflag]
      rw [if_neg]
      · rfl
      · rw [hended]
        simp
    obtain ⟨htakes, hdoms, hout⟩ := s.waitWithdrawn_leaves d step i
    refine ⟨_, hexec, ?_, ?_, fun o w hfind q hq hmine => ?_⟩
    · exact congrArg (· ++ [(d, waitId step i, (0x202D : Code))]) htakes
    · exact State.ksTenantFault_out hout hdoms
    · change FMap.find? (s.waitWithdrawn d step i).ks.objs o = some w at hfind
      exact State.waitWithdrawn_waiters hfind hq hmine
  case noInst =>
    intro s d step i hnone
    exact ⟨by simp only [exec, execWaitTimeout, hnone], by simp only [exec, execSchedStart, hnone],
      by simp only [exec, execSchedOverrun, hnone], by simp only [exec, execEntryComplete, hnone]⟩
  case start =>
    intro s d step i n a b hinst hmode hsched hdue hbody hrun hbefore hpart hruns
    have hheld : ((body n.image).any fun j => schedBefore n.image j i && !FMap.has n.runs j &&
        !(s.ks.takesDone.any fun (q, w, _) => q = d && w = waitId step j)) = false := by
      rw [List.any_eq_false]
      intro j hj
      rw [Bool.not_eq_true]
      cases hb : schedBefore n.image j i with
      | false => rfl
      | true =>
        rcases hbefore j hj hb with hrun | ⟨c, hc⟩
        · simp [hrun]
        · have hany : (s.ks.takesDone.any fun (q, w, _) => q = d && w = waitId step j) = true :=
            List.any_eq_true.mpr ⟨_, hc, by simp⟩
          rw [hany, Bool.not_true, Bool.and_false]
    have hcontains : (body n.image).contains i = true := by simpa using hbody
    simp only [exec, execSchedStart, hinst, hsched, hmode, decide_eq_true hdue, hrun, hcontains, hpart, hruns, ne_eq,
      not_true_eq_false, decide_false, Bool.not_true, Bool.or_false]
    rw [if_neg (by rw [hheld]; decide), if_neg Bool.false_ne_true]
  case queueMode =>
    intro s d step i n hinst hmode
    exact ⟨by simp only [exec, execSchedStart, hinst, decide_eq_true hmode, Bool.true_or, if_true],
      by simp only [exec, execSchedOverrun, hinst, decide_eq_true hmode, Bool.true_or, if_true]⟩
  case overrun =>
    intro s d step i n a b hinst hmode hsched hrun hlate hfailed
    simp only [exec, execSchedOverrun, hinst, hsched, hrun, hmode, hlate, hfailed]
    simp

end Sys2Proof.Machine

/-! The proof of O40: posts of a Baxel and what is sent again (R203 to R205, R213, R250 to R252, R261). -/

namespace Sys2Proof.Machine

/-- Settles O40: posts, parts and restarts case by case as R203, R211, R250 to R252 and R261 list them. -/
theorem baxelPostsAndResends : Obligations.BaxelPostsAndResends := by
  unfold Obligations.BaxelPostsAndResends
  refine ⟨?postRefused, ?post, ?dspRefused, ?dspPost, ?returnRefused, ?returned, ?done, ?go, ?notSent, ?restart, ?resend, ?oldRestart,
    ?noTenant, ?noPost, ?oldOpen, ?openPost, ?openNone⟩
  case postRefused =>
    intro s t c hcode
    simp only [exec, execCpGo, hcode]
  case post =>
    intro s t hcode
    have hten (v : Nat) : (s.setFld .baxel (tPage t 0x31C) 0 16 v).ten t = s.ten t := by
      simp only [State.ten, State.setFld_bx_tenants]
    simp only [exec, execCpGo, hcode, State.post, hten]
  case dspRefused =>
    intro s t c hcode
    simp only [exec, execDpGo, hcode]
  case dspPost =>
    intro s t hcode
    simp only [exec, execDpGo, hcode]
  case returnRefused =>
    intro s t h
    simp only [exec, execDpRetGo]
    refine if_pos ?_
    rcases h with h | h | h | h <;> simp [h]
  case returned =>
    intro s t hfaulted hdomain hlayer hhost hret
    have hsome : (s.ten t).domain.isNone = false := by
      rw [Option.isNone_eq_false_iff, Option.isSome_iff_ne_none]
      exact hdomain
    have hcontains : (lHosts (s.ten t).prog (s.rd .baxel (tPage t 0x380)).toNat).contains (s.ten t).position = true := by
      simpa using hhost
    simp only [exec, execDpRetGo, hfaulted, hsome, decide_eq_false (Nat.not_le.mpr hlayer), hcontains, Bool.not_true, Bool.or_false,
      Bool.false_eq_true, if_false, hret]
  case done =>
    intro s d e step c k
    rfl
  case go =>
    intro s n t p hten hfind hstate
    simp only [exec, execDspGoRx, hten, hfind, hstate, ne_eq, not_true_eq_false, if_false]
  case notSent =>
    intro s n t p hten hfind hstate
    simp only [exec, execDspGoRx, hten, hfind, ne_eq, hstate, not_false_eq_true, if_true]
  case restart =>
    intro s n t p hten hfind hrestart hstate
    have h3 : ¬ 3 ≤ p.state := by omega
    have h2 : p.state ≠ 2 := by omega
    simp only [exec, execDspRestartRx, hten, hfind, decide_eq_false (Nat.not_le.mpr hrestart), decide_eq_false h3, Bool.or_false,
      Bool.false_eq_true, if_false, h2]
  case resend =>
    intro s n t p hten hfind hrestart hstate
    simp only [exec, execDspRestartRx, hten, hfind, decide_eq_false (Nat.not_le.mpr hrestart), hstate, Nat.reduceLeDiff, decide_false,
      Bool.or_false, Bool.false_eq_true, if_false, if_true]
  case oldRestart =>
    rintro s n t p hten hfind (h | h) <;>
      simp only [exec, execDspRestartRx, hten, hfind, decide_eq_true h, Bool.true_or, Bool.or_true, if_true]
  case noTenant =>
    intro s n hten
    exact ⟨by simp only [exec, execDspOpenRx, hten], by simp only [exec, execDspGoRx, hten], by simp only [exec, execDspRestartRx, hten]⟩
  case noPost =>
    intro s n t hten hfind
    exact ⟨by simp only [exec, execDspGoRx, hten, hfind], by simp only [exec, execDspRestartRx, hten, hfind]⟩
  case oldOpen =>
    intro s n t hten hold
    simp only [exec, execDspOpenRx, hten, hold, if_true]
  case openPost =>
    intro s n t p hten hepoch hfind
    simp only [exec, execDspOpenRx, hten, Nat.not_lt.mpr hepoch, if_false, hfind]
  case openNone =>
    intro s n t hten hepoch hfind
    have hexec : exec (.dspOpenRx n) s = .next (s.modTen t fun y => { y with
        dspOpens := if y.dspOpens.contains (n.layer, n.step, n.epoch) then y.dspOpens
          else (n.layer, n.step, n.epoch) :: y.dspOpens.filter fun (_, st, ep) => n.step ≤ st + 1 && n.epoch ≤ ep }) := by
      simp only [exec, execDspOpenRx, hten, Nat.not_lt.mpr hepoch, if_false, hfind]
    refine ⟨_, hexec, ?_, rfl⟩
    rw [State.ten_modTen]
    dsimp only
    split_ifs with hmem
    · simpa using hmem
    · exact List.mem_cons_self

end Sys2Proof.Machine

/-! The proof of O41: chunk packets, notices and timeouts at a Kresia (R195, R205 to R213, R333). -/

namespace Sys2Proof.Machine

section
variable {s : State} {d e step c k node : Nat} {f : State → Image → Nat → State} {g : Image}

/-! ### Which notices are taken (R213) -/

theorem State.takeNote_stale (h : (s.dom d).imageFor ((s.dom d).fullStep step) = none ∨ e < (s.dom d).epoch) :
    s.takeNote d e step c k node f = s.count (evK 0x15001C) := by
  unfold State.takeNote
  dsimp only
  split
  · rfl
  · next hsome =>
    rw [if_pos (h.resolve_left (by simp [hsome]))]

section
variable (himage : (s.dom d).imageFor ((s.dom d).fullStep step) = some g) (hepoch : e = (s.dom d).epoch)
include himage hepoch

theorem State.takeNote_malformed (h : collCount g ≤ c ∨ cChunks g c ≤ k) :
    s.takeNote d e step c k node f = s.partBad none d ((s.dom d).fullStep step) node 255 := by
  subst hepoch
  simp only [State.takeNote, himage, lt_irrefl, if_false]
  exact if_pos (by simpa using h)

theorem State.takeNote_taken (hc : c < collCount g) (hk : k < cChunks g c) :
    s.takeNote d e step c k node f = f s g ((s.dom d).fullStep step) := by
  subst hepoch
  simp only [State.takeNote, himage, lt_irrefl, if_false]
  exact if_neg (by simp; omega)

end

section
variable {port : Nat} {p : ChunkPacket}

/-- Where the home of a packet's chunk stands (R194). -/
abbrev State.homeOfPacket (s : State) (g : Image) (p : ChunkPacket) : Nat :=
  homeOf (s.dom p.domain).moves g p.coll p.chunk ((s.dom p.domain).fullStep p.step)

theorem State.chunkPacket_stale
    (h : (s.dom p.domain).imageFor ((s.dom p.domain).fullStep p.step) = none ∨ p.epoch < (s.dom p.domain).epoch) :
    s.chunkPacket port p = s.count (evK 0x15001C) := by
  unfold State.chunkPacket
  dsimp only
  split
  · rfl
  · next hsome =>
    rw [if_pos (h.resolve_left (by simp [hsome]))]

variable (himage : (s.dom p.domain).imageFor ((s.dom p.domain).fullStep p.step) = some g) (hepoch : p.epoch = (s.dom p.domain).epoch)
include himage hepoch

theorem State.chunkPacket_malformed (h : collCount g ≤ p.coll ∨ cChunks g p.coll ≤ p.chunk) :
    s.chunkPacket port p = s.partBad none p.domain ((s.dom p.domain).fullStep p.step) p.sender port := by
  simp only [State.chunkPacket, himage, hepoch, lt_irrefl, if_false]
  exact if_pos (by simpa using h)

/-- R205: a packet of the epoch that names a chunk goes, by its step, its role and its home, one of five ways. -/
theorem State.chunkPacket_taken (hc : p.coll < collCount g) (hk : p.chunk < cChunks g p.coll) :
    s.chunkPacket port p =
      if (s.dom p.domain).lastTamp.any (fun q => decide ((s.dom p.domain).fullStep p.step + 1 < q.1)) then s.count (evK 0x15001C)
      else if p.role = 0 ∧ s.isSpine = false ∧ port < 128 ∧ ksPlane (s.homeOfPacket g p) = ksPlane s.ksId then
        s.ownPacket g ((s.dom p.domain).fullStep p.step) false port p
      else if s.homeOfPacket g p = s.ksId then s.ownPacket g ((s.dom p.domain).fullStep p.step) true port p
      else if s.fencedPart p then s.count (evK 0x150028)
      else s.sendChunk (s.homeOfPacket g p) p := by
  have hin : (decide (collCount g ≤ p.coll) || decide (cChunks g p.coll ≤ p.chunk)) = false := by simp; omega
  simp only [State.chunkPacket, himage, hepoch, lt_irrefl, if_false, hin, Bool.false_eq_true]
  congr 1
  · cases (s.dom p.domain).lastTamp <;> rfl
  · simp [and_assoc]

end

end

theorem State.modChunk_c (s : State) (i : Nat) (f : ChunkEntry → ChunkEntry) : (s.modChunk i f).ks.c = s.ks.c := by
  unfold State.modChunk
  split <;> rfl

/-- Settles O41: packets, notices, moves and timeouts case by case as R195, R205 to R213 and R333 list them. -/
theorem chunkNoticesAtAKresia : Obligations.ChunkNoticesAtAKresia := by
  unfold Obligations.ChunkNoticesAtAKresia
  refine ⟨?stalePacket, ?homed, ?staleNote, ?base, ?bxBase, ?oldFail, ?fail, ?restart, ?oldRestart, ?failV2, ?badNote, ?badBase,
    ?badPacket, ?leaf, ?oldPacket, ?onward, ?bxRestart, ?noTenant, ?bxMove, ?move, ?crownMove, ?otherMove, ?bxOtherMove, ?silentHome,
    ?notSilent, ?silentLeaf, ?stillWaits, ?opens, ?noEntry, ?notice, ?noImage⟩
  case stalePacket =>
    intro s port p h
    exact congrArg Host.Outcome.next (State.chunkPacket_stale h)
  case homed =>
    intro s port p g himage hepoch hc hk htamp hrole hhome
    refine congrArg Host.Outcome.next ((State.chunkPacket_taken himage hepoch hc hk).trans ?_)
    rw [htamp, if_neg (by simp), if_neg (by simp [hrole]), if_pos hhome]
  case staleNote =>
    intro s node d e step c k r l code h
    exact ⟨congrArg Host.Outcome.next (State.takeNote_stale h), congrArg Host.Outcome.next (State.takeNote_stale h),
      congrArg Host.Outcome.next (State.takeNote_stale h)⟩
  case base =>
    intro s node d e step c role base g himage hepoch hc hk
    exact congrArg Host.Outcome.next (State.takeNote_taken himage hepoch hc hk)
  case bxBase =>
    intro s node d e step c role base t hten hepoch
    simp only [exec, execChunkBaseRx, hten, Nat.not_lt.mpr hepoch, if_false]
  case oldFail =>
    intro s node d e step c k r l ix x g himage hepoch hc hk hfind hr
    refine congrArg Host.Outcome.next ((State.takeNote_taken himage hepoch hc hk).trans ?_)
    simp only [hfind, hr, if_true]
  case fail =>
    intro s node d e step c k r l ix x g himage hepoch hc hk hfind hr hv2
    refine congrArg Host.Outcome.next ((State.takeNote_taken himage hepoch hc hk).trans ?_)
    simp only [hfind, Nat.not_lt.mpr hr, if_false, hv2, Bool.false_eq_true]
  case restart =>
    intro s node d e step c k r l ix code x g himage hepoch hc hk hfind hr
    refine congrArg Host.Outcome.next ((State.takeNote_taken himage hepoch hc hk).trans ?_)
    simp only [hfind, Nat.not_le.mpr hr, if_false]
  case oldRestart =>
    intro s node d e step c k r l ix code x g himage hepoch hc hk hfind hr
    refine congrArg Host.Outcome.next ((State.takeNote_taken himage hepoch hc hk).trans ?_)
    simp only [hfind, hr, if_true]
  case failV2 =>
    intro s node d e step c k r l ix x g himage hepoch hc hk hfind hr hv2
    refine congrArg Host.Outcome.next ((State.takeNote_taken himage hepoch hc hk).trans ?_)
    simp only [hfind, Nat.not_lt.mpr hr, if_false, hv2, if_true]
  case badNote =>
    intro s node d e step c k r l code g himage hepoch h
    exact ⟨congrArg Host.Outcome.next (State.takeNote_malformed himage hepoch h),
      congrArg Host.Outcome.next (State.takeNote_malformed himage hepoch h)⟩
  case badBase =>
    intro s node d e step c role base g himage hepoch h
    exact congrArg Host.Outcome.next (State.takeNote_malformed himage hepoch (h.imp_right Nat.le_of_eq))
  case badPacket =>
    intro s port p g himage hepoch h
    exact congrArg Host.Outcome.next (State.chunkPacket_malformed himage hepoch h)
  case leaf =>
    intro s port p g himage hepoch hc hk htamp hrole hspine hport hplane
    refine congrArg Host.Outcome.next ((State.chunkPacket_taken himage hepoch hc hk).trans ?_)
    rw [if_neg, if_pos ⟨hrole, hspine, hport, hplane⟩]
    cases hlast : (s.dom p.domain).lastTamp with
    | none => simp
    | some q =>
      rw [hlast, Option.all_some] at htamp
      have hle := of_decide_eq_true htamp
      simpa using hle
  case oldPacket =>
    intro s port p g st ep himage hepoch hc hk htamp hold
    refine congrArg Host.Outcome.next ((State.chunkPacket_taken himage hepoch hc hk).trans ?_)
    rw [htamp, if_pos (by simpa using hold)]
  case onward =>
    intro s port p g himage hepoch hc hk htamp hleaf hhome
    refine congrArg Host.Outcome.next ((State.chunkPacket_taken himage hepoch hc hk).trans ?_)
    rw [htamp, if_neg (by simp), if_neg, if_neg hhome]
    rintro ⟨hrole, hspine, hport, _⟩
    rcases hleaf with h | h | h
    · exact h hrole
    · simp [h] at hspine
    · omega
  case bxRestart =>
    intros
    rfl
  case noTenant =>
    intro s m hten
    simp only [exec, execHomeMoveRx, hten]
  case bxMove =>
    intro s m t hten hkind
    simp only [exec, execHomeMoveRx, hten, hkind, Nat.zero_ne_one, if_false, ne_eq, not_true_eq_false]
  case move =>
    intro s m hcrown hkind hchunks
    have hnone (f : Domain → Domain) : (s.modDom m.domain f).ks.chunks = [] := hchunks
    simp only [exec, execHomeMoveRx, hcrown, Bool.false_eq_true, if_false, State.ksMove, hkind, Nat.zero_ne_one, ne_eq, not_true_eq_false,
      hnone, List.foldl_nil]
  case crownMove =>
    intro s m hcrown
    simp only [exec, execHomeMoveRx, hcrown, if_true, State.spreadMoves, List.foldl_cons, List.foldl_nil]
  case otherMove =>
    intro s m hcrown hkind
    simp only [exec, execHomeMoveRx, hcrown, Bool.false_eq_true, if_false, State.ksMove, ne_eq, hkind, not_false_eq_true, if_true]
  case bxOtherMove =>
    intro s m t hten hkind
    simp only [exec, execHomeMoveRx, hten, ne_eq, hkind, not_false_eq_true, if_true]
    split_ifs <;> rfl
  case silentHome =>
    intro s i sender x u g hchunk hpart himage hstate hsilent hrole
    simp only [exec, execPartTimeout, hchunk, hpart, himage, hstate, decide_eq_false (Int.not_lt.mpr hsilent), ne_eq, not_true_eq_false,
      decide_false, Bool.or_false, Bool.false_eq_true, if_false, hrole, if_true]
  case notSilent =>
    rintro s i sender x u g hchunk hpart himage (h | h) <;>
      simp only [exec, execPartTimeout, hchunk, hpart, himage, decide_eq_true h, Bool.true_or, Bool.or_true, if_true]
  case silentLeaf =>
    intro s i sender x u g hchunk hpart himage hstate hsilent hrole
    simp only [exec, execPartTimeout, hchunk, hpart, himage, hstate, decide_eq_false (Int.not_lt.mpr hsilent), ne_eq, not_true_eq_false,
      decide_false, Bool.or_false, Bool.false_eq_true, if_false, hrole, State.leafFail, State.failNote,
      State.dom_of_doms (State.modChunk_doms _ _ _)]
    rw [State.ksId_congr (State.modChunk_c s i _)]
  case stillWaits =>
    rintro s i x g hchunk himage (h | h)
    · simp only [exec, execChunkOpenWait, hchunk, himage, h, Bool.not_false, if_true]
      split <;> rfl
    · simp only [exec, execChunkOpenWait, hchunk, himage, h]
  case opens =>
    intro s i a x g hchunk himage hwaiting hslots
    simp only [exec, execChunkOpenWait, hchunk, himage, hslots, hwaiting, Bool.not_true, Bool.false_eq_true, if_false] <;> rfl
  case noEntry =>
    intro s i hnone
    exact ⟨by simp only [exec, execChunkOpenWait, hnone], by simp only [exec, execPartTimeout, hnone]⟩
  case notice =>
    intro s d c role step g himage hnoted hlast
    simp only [exec, execChunkBaseNoticeTimer, himage, State.noteBase, hlast, decide_eq_true hnoted, Bool.and_self, if_true]
  case noImage =>
    intro s d c role step hnone
    simp only [exec, execChunkBaseNoticeTimer, hnone]

end Sys2Proof.Machine

/-! The proof of O42: the words a selection shows and the reads that latch (R197, R198, R223, R268, R359, R145). -/

namespace Sys2Proof.Machine

section
variable {s : State} {p : Part} {a b n i : Nat} {f : Nat → Word}

/-! ### A run of words -/

/-- The words `f 0`, `f 1`, … written from address `a` on. -/
def State.wrRun (s : State) (p : Part) (a n : Nat) (f : Nat → Word) : State :=
  (List.range n).foldl (fun s i => s.wr p (a + 4 * i) (f i)) s

theorem State.wrWords_eq (v : Nat) : s.wrWords p a n v = s.wrRun p a n fun i => BitVec.ofNat 32 (v / 2 ^ (32 * i)) := rfl

theorem State.wrRun_succ : s.wrRun p a (n + 1) f = (s.wrRun p a n f).wr p (a + 4 * n) (f n) := by
  simp only [State.wrRun, List.range_succ, List.foldl_append, List.foldl_cons, List.foldl_nil]

theorem State.rd_wrRun_ne (h : b < a) : (s.wrRun p a n f).rd p b = s.rd p b := by
  induction n with
  | zero => rfl
  | succ n ih => rw [State.wrRun_succ, State.rd_wr, if_neg (by omega), ih]

theorem State.rd_wrRun (hi : i < n) : (s.wrRun p a n f).rd p (a + 4 * i) = f i := by
  induction n with
  | zero => exact absurd hi (Nat.not_lt_zero i)
  | succ n ih =>
    rw [State.wrRun_succ, State.rd_wr]
    rcases Nat.lt_succ_iff_lt_or_eq.mp hi with hlt | rfl
    · rw [if_neg (by omega), ih hlt]
    · rw [if_pos ⟨rfl, rfl⟩]

theorem State.wrRun_leaves (s : State) (p : Part) (a n : Nat) (f : Nat → Word) :
    (s.wrRun p a n f).ks.chunks = s.ks.chunks ∧ (s.wrRun p a n f).ks.dspHomes = s.ks.dspHomes ∧ (s.wrRun p a n f).out = s.out := by
  induction n with
  | zero => exact ⟨rfl, rfl, rfl⟩
  | succ n ih =>
    rw [State.wrRun_succ, State.wr_ks_chunks, State.wr_ks_dspHomes, State.wr_out]
    exact ih

theorem State.wrWords_zero (hn : i < n) : (s.wrWords p a n 0).rd p (a + 4 * i) = 0 := by
  rw [State.wrWords_eq, State.rd_wrRun hn, Nat.zero_div]
  rfl

/-- R197: the low bits of the probe status of an open chunk: a value, and the chunk open. -/
theorem probeStatus_low (x y z : Bool) :
    (BitVec.ofNat 32 (1 + 2 * true.toNat + 4 * x.toNat + 8 * y.toNat + 16 * z.toNat)).getLsbD 0 = true ∧
      (BitVec.ofNat 32 (1 + 2 * true.toNat + 4 * x.toNat + 8 * y.toNat + 16 * z.toNat)).getLsbD 1 = true := by
  revert x y z
  decide

end

/-- Settles O42: selections and reads case by case as R197, R198, R223, R268 and R359 list them. -/
theorem selectedViewsAndReads : Obligations.SelectedViewsAndReads := by
  unfold Obligations.SelectedViewsAndReads
  refine ⟨?probeNone, ?probe, ?chunkNone, ?chunk, ?expert, ?expertNone, ?highWater, ?noHighWater, ?wide, ?bank, ?latched, ?bxOther,
    ?bxWindow, ?ksOther, ?noValue⟩
  case probeNone =>
    intro s w hnone
    have hfind : List.find? (fun ((_, e) : Nat × ChunkEntry) =>
        e.slotFirst ≤ w.get 0 22 && w.get 0 22 < e.slotFirst + e.slotCount) s.ks.chunks = none :=
      List.find?_eq_none.mpr fun x hx hit => Bool.false_ne_true (hnone ▸ List.any_eq_true.mpr ⟨x, hx, hit⟩)
    have hexec : exec (.feltProbeSel w) s = .next (((s.wr .kresia 0x140090 (BitVec.ofNat 32 (w.get 0 22))).wr .kresia 0x140094 1).wrWords
        .kresia 0x1400A0 10 0) := by
      simp only [exec, execFeltProbeSel, hfind]
    obtain ⟨hchunks, _, hout⟩ := State.wrRun_leaves ((s.wr .kresia 0x140090 (BitVec.ofNat 32 (w.get 0 22))).wr .kresia 0x140094 1) .kresia
      0x1400A0 10 fun i => BitVec.ofNat 32 (0 / 2 ^ (32 * i))
    refine ⟨_, hexec, ?_, ?_, ?_, hchunks, hout⟩
    · rw [State.wrWords_eq, State.rd_wrRun_ne (by decide)]
      simp [State.rd_wr]
    · rw [State.wrWords_eq, State.rd_wrRun_ne (by decide)]
      simp
    · rw [List.all_eq_true]
      intro i hi
      exact decide_eq_true (State.wrWords_zero (List.mem_range.mp hi))
  case probe =>
    intro s w i e hfind hplain hstate
    obtain ⟨t, ht, hexec⟩ : ∃ st v, ((BitVec.ofNat 32 st).getLsbD 0 = true ∧ (BitVec.ofNat 32 st).getLsbD 1 = true) ∧
        exec (.feltProbeSel w) s = .next (((s.wr .kresia 0x140090 (BitVec.ofNat 32 (w.get 0 22))).wr .kresia 0x140094
          (BitVec.ofNat 32 st)).wrWords .kresia 0x1400A0 10 v) := by
      simp only [exec, execFeltProbeSel, hfind, hplain, List.isEmpty_nil, if_true, hstate, decide_true]
      exact ⟨_, _, probeStatus_low _ _ _, rfl⟩
    obtain ⟨⟨h0, h1⟩, hexec⟩ := hexec
    obtain ⟨hchunks, _, hout⟩ := State.wrRun_leaves ((s.wr .kresia 0x140090 (BitVec.ofNat 32 (w.get 0 22))).wr .kresia 0x140094
      (BitVec.ofNat 32 t)) .kresia 0x1400A0 10 fun i => BitVec.ofNat 32 (ht / 2 ^ (32 * i))
    refine ⟨_, hexec, ?_, ?_, ?_, hchunks, hout⟩ <;> rw [State.wrWords_eq, State.rd_wrRun_ne (by decide)]
    · simp [State.rd_wr]
    · rw [State.rd_wr, if_pos ⟨rfl, rfl⟩]
      exact h0
    · rw [State.rd_wr, if_pos ⟨rfl, rfl⟩]
      exact h1
  case chunkNone =>
    intro s w hfind
    have hexec : exec (.chunkSel w) s = .next ((s.wr .kresia 0x150100 (BitVec.ofNat 32 (w.get 0 14))).wrWords .kresia 0x150104 11 0) := by
      simp only [exec, execChunkSel, hfind]
    obtain ⟨hchunks, _, hout⟩ := State.wrRun_leaves (s.wr .kresia 0x150100 (BitVec.ofNat 32 (w.get 0 14))) .kresia
      0x150104 11 fun i => BitVec.ofNat 32 (0 / 2 ^ (32 * i))
    refine ⟨_, hexec, ?_, ?_, hchunks, hout⟩
    · rw [State.wrWords_eq, State.rd_wrRun_ne (by decide)]
      simp
    · rw [List.all_eq_true]
      intro i hi
      exact decide_eq_true (State.wrWords_zero (List.mem_range.mp hi))
  case chunk =>
    intro s w e hfind
    obtain ⟨words, hexec, h0, h1, h2, h3⟩ : ∃ words : List Nat,
        exec (.chunkSel w) s = .next ((s.wr .kresia 0x150100 (BitVec.ofNat 32 (w.get 0 14))).wrRun .kresia 0x150104 11
          fun i => BitVec.ofNat 32 (words.getD i 0)) ∧
        words.getD 0 0 = e.domain + e.coll % 2 ^ 12 * 2 ^ 16 + e.restart % 16 * 2 ^ 28 ∧
        words.getD 1 0 = e.chunk % 2 ^ 24 + e.state * 2 ^ 24 + e.role * 2 ^ 27 ∧ words.getD 2 0 = e.epoch ∧
        words.getD 3 0 = e.step % 65536 := by
      simp only [exec, execChunkSel, hfind, -Nat.reducePow]
      exact ⟨_, rfl, List.getD_cons_zero, List.getD_cons_succ.trans List.getD_cons_zero, rfl, rfl⟩
    obtain ⟨hchunks, _, hout⟩ := State.wrRun_leaves (s.wr .kresia 0x150100 (BitVec.ofNat 32 (w.get 0 14))) .kresia
      0x150104 11 fun i => BitVec.ofNat 32 (words.getD i 0)
    refine ⟨_, hexec, ?_, ?_, ?_, ?_, ?_, hchunks, hout⟩
    · rw [State.rd_wrRun_ne (by decide)]
      simp
    · exact (State.rd_wrRun (i := 0) (by decide)).trans (by rw [h0])
    · exact (State.rd_wrRun (i := 1) (by decide)).trans (by rw [h1])
    · exact (State.rd_wrRun (i := 2) (by decide)).trans (by rw [h2])
    · exact (State.rd_wrRun (i := 3) (by decide)).trans (by rw [h3])
  case expert =>
    intro s w h g hhomes hdomain hlayer hgroup himage
    obtain ⟨words, h0, h1, h2, h3, h4, h5, hexec⟩ : ∃ words : List Nat,
        words.getD 0 0 = h.state + 8 * h.restart ∧ words.getD 1 0 = h.ends.length ∧
        words.getD 2 0 = FMap.getD h.fill (w.get 0 16) 0 ∧ words.getD 3 0 = lCap g h.layer (w.get 0 16) ∧
        words.getD 4 0 = h.step % 2 ^ 32 ∧ words.getD 5 0 = h.step / 2 ^ 32 ∧
        exec (.dspSel w) s = .next ((s.wr .kresia 0x17010C (BitVec.ofNat 32 (w.get 0 16))).wrRun .kresia 0x170110 6
          fun i => BitVec.ofNat 32 (words.getD i 0)) := by
      simp only [exec, execDspSel, hhomes, ← hdomain, ← hlayer, ← hgroup, decide_true, Bool.and_self, List.filter_cons_of_pos,
        List.filter_nil, List.foldl_cons, List.foldl_nil, himage]
      exact ⟨_, rfl, rfl, rfl, rfl, rfl, rfl, rfl⟩
    obtain ⟨_, hkept, hout⟩ := State.wrRun_leaves (s.wr .kresia 0x17010C (BitVec.ofNat 32 (w.get 0 16))) .kresia
      0x170110 6 fun i => BitVec.ofNat 32 (words.getD i 0)
    refine ⟨_, hexec, ?_, ?_, ?_, ?_, ?_, ?_, ?_, hkept, hout⟩
    · rw [State.rd_wrRun_ne (by decide)]
      simp
    · exact (State.rd_wrRun (i := 0) (by decide)).trans (by rw [h0])
    · exact (State.rd_wrRun (i := 1) (by decide)).trans (by rw [h1])
    · exact (State.rd_wrRun (i := 2) (by decide)).trans (by rw [h2])
    · exact (State.rd_wrRun (i := 3) (by decide)).trans (by rw [h3])
    · exact (State.rd_wrRun (i := 4) (by decide)).trans (by rw [h4])
    · exact (State.rd_wrRun (i := 5) (by decide)).trans (by rw [h5])
  case expertNone =>
    intro s w hnone
    have hfilter : (s.ks.dspHomes.filter fun h => h.domain = s.fld .kresia 0x170100 0 16 &&
        h.layer = (s.rd .kresia 0x170104).toNat && h.group = s.fld .kresia 0x170108 0 20) = [] :=
      List.filter_eq_nil_iff.mpr fun x hx hit => Bool.false_ne_true (hnone ▸ List.any_eq_true.mpr ⟨x, hx, hit⟩)
    have hexec : exec (.dspSel w) s = .next ((s.wr .kresia 0x17010C (BitVec.ofNat 32 (w.get 0 16))).wrWords .kresia 0x170110 6 0) := by
      simp only [exec, execDspSel, hfilter, List.foldl_nil]
    obtain ⟨_, hkept, hout⟩ := State.wrRun_leaves (s.wr .kresia 0x17010C (BitVec.ofNat 32 (w.get 0 16))) .kresia
      0x170110 6 fun i => BitVec.ofNat 32 (0 / 2 ^ (32 * i))
    refine ⟨_, hexec, ?_, ?_, hkept, hout⟩
    · rw [State.wrWords_eq, State.rd_wrRun_ne (by decide)]
      simp
    · rw [List.all_eq_true]
      intro i hi
      exact decide_eq_true (State.wrWords_zero (List.mem_range.mp hi))
  case highWater =>
    intro s a v hv
    have hexec : exec (.rcRegisterRead a) s = .next ((s.emit (.regData .kresia (s.rd .kresia a))).wr .kresia a (BitVec.ofNat 32 v)) := by
      simp only [exec, execRcRegisterRead, hv]
    exact ⟨_, hexec, rfl, by rw [State.rd_wr, if_pos ⟨rfl, rfl⟩], rfl⟩
  case noHighWater =>
    intro s a hnone
    simp only [exec, execRcRegisterRead, hnone]
  case wide =>
    intro s v a hview hmem hbank
    have hexec : exec (.lowWordRead .kresia v a) s = .next ((s.modPc .kresia fun c => { c with
        highs := FMap.set c.highs (a + 4) (s.rd .kresia (a + 4)) }).emit (.regData .kresia (s.rd .kresia a))) := by
      simp only [exec, execLowWordRead, hbank]
      exact if_pos (by simpa [hmem] using hview)
    exact ⟨_, hexec, rfl, FMap.find_set_self .., rfl⟩
  case bank =>
    intro s p v a k off i hbank hvalue hlatch
    have hexec : exec (.lowWordRead p v a) s = .next ((s.modBank p k fun b => { b with
        highs := FMap.set b.highs i (half (b.value i) true) }).emit (.regData p (half ((s.bank p k).value i) false))) := by
      simp only [exec, execLowWordRead, hbank, hvalue, hlatch, Option.isSome_none, Bool.false_eq_true, if_false]
    have hbank' := State.bank_modBank s p k fun b => { b with highs := FMap.set b.highs i (half (b.value i) true) }
    refine ⟨_, hexec, ?_, (congrArg (FMap.find? ·.highs i) hbank').trans (FMap.find_set_self ..), congrArg (·.ctrs) hbank'⟩
    cases p <;> rfl
  case latched =>
    intro s p v a k off i hbank hvalue hlatch
    simp only [exec, execLowWordRead, hbank, hvalue, Option.isSome_iff_ne_none.mpr hlatch, if_true]
  case bxOther =>
    intro s v a hbank hwindow
    simp only [exec, execLowWordRead, hbank, State.otherRead, hwindow, reduceCtorEq, decide_false, Bool.false_and, Bool.false_eq_true,
      if_false]
  case bxWindow =>
    intro s v a n hbank hwindow
    simp only [exec, execLowWordRead, hbank, State.otherRead, hwindow, reduceCtorEq, decide_false, Bool.false_and, Bool.false_eq_true,
      if_false]
  case ksOther =>
    intro s v a hbank h
    simp only [exec, execLowWordRead, hbank, State.otherRead]
    refine if_neg ?_
    rcases h with h | ⟨hcore, hpriv⟩
    · simp [h]
    · simp [hcore, hpriv]
  case noValue =>
    intro s p v a k off hbank hvalue
    simp only [exec, execLowWordRead, hbank, hvalue]

end Sys2Proof.Machine

/-! The proof of O43: blocks started, committed and recomputed (R241 to R244, R239). -/

namespace Sys2Proof.Machine

section
variable {s : State}

/-! ### What a commit leaves (R242) -/

/-- Counting leaves the queue of blocks, the shards, the memory, and every register but the counter's own two words. -/
structure BlocksKept (s t : State) : Prop where
  queue : t.ks.blockQ = s.ks.blockQ
  shards : t.ks.shards = s.ks.shards
  mem : t.ks.mem = s.ks.mem
  reg : t.rd .kresia 0x160018 = s.rd .kresia 0x160018

namespace BlocksKept

theorem rfl' : BlocksKept s s := ⟨rfl, rfl, rfl, rfl⟩

theorem trans {t u : State} (h : BlocksKept s t) (k : BlocksKept t u) : BlocksKept s u :=
  ⟨k.queue.trans h.queue, k.shards.trans h.shards, k.mem.trans h.mem, k.reg.trans h.reg⟩

theorem count {e : Ev} (n : Nat) (h : 0x160018 ≠ e.addr) (h4 : 0x160018 ≠ e.addr + 4) : BlocksKept s (s.count e n) :=
  ⟨State.count_ks_blockQ _ _ _, State.count_ks_shards _ _ _, State.count_ks_mem _ _ _, State.rd_count_ne s e n .kresia h h4⟩

theorem modDom (d : Nat) (f : Domain → Domain) : BlocksKept s (s.modDom d f) := ⟨rfl, rfl, rfl, rfl⟩

theorem sample (ev : Nat) (d : Int) (port ten dom cls : Option Nat) : BlocksKept s (s.sample .kresia ev d port ten dom cls) :=
  ⟨State.sample_ks_blockQ .., State.sample_ks_shards .., State.sample_ks_mem .., State.rd_sample ..⟩

end BlocksKept

theorem State.cupAdd_blocksKept (s : State) (d step kind : Nat) (terms : List (List Nat)) :
    BlocksKept s (s.cupAdd d step kind terms) := by
  unfold State.cupAdd
  extract_lets x sum pad
  split_ifs
  · exact .rfl'
  · exact (BlocksKept.count _ (by decide) (by decide)).trans (.modDom _ _)

theorem Shard.sealLate_blockStep (h : Shard) (g : Image) (j : BlockJob) (b : Bool) : (h.sealLate g j b).blockStep = h.blockStep := by
  unfold Shard.sealLate
  split_ifs <;> rfl

theorem Shard.commit_blockStep (h : Shard) (j : BlockJob) (b : Bool) : FMap.find? (h.commit j b).blockStep j.chunk = some j.step :=
  FMap.find_set_self ..

@[simp] theorem State.shard_modShard (s : State) (key : Nat) (f : Shard → Shard) : (s.modShard key f).shard key = f (s.shard key) := by
  simp [State.shard, State.modShard]

/-- R242: a commit takes its job off the queue, makes its step the chunk's, counts one block and stores nothing in memory. -/
theorem State.commitBlock_leaves (s : State) (j : BlockJob) :
    (s.commitBlock j).ks.blockQ = s.ks.blockQ.erase j ∧
      FMap.find? ((s.commitBlock j).shard (shardKey j.domain j.coll false false)).blockStep j.chunk = some j.step ∧
      (s.commitBlock j).rd .kresia 0x160018 = s.rd .kresia 0x160018 + 1 ∧ (s.commitBlock j).ks.mem = s.ks.mem := by
  unfold State.commitBlock
  extract_lets g key sealed s1 h s2 s3
  have hstep : FMap.find? (s1.shard key).blockStep j.chunk = some j.step := by
    dsimp only [s1]
    rw [State.shard_modShard, Shard.sealLate_blockStep, Shard.commit_blockStep]
  have hwide : BlocksKept s1 (s1.wide 0x160010 j.lanes.length) := .count _ (by decide) (by decide)
  have hcup : BlocksKept ((s1.wide 0x160010 j.lanes.length).count (evK 0x160018)) s2 := State.cupAdd_blocksKept _ _ _ _ _
  have hcounts : BlocksKept s2 s3 := by
    refine List.foldlRecOn (motive := fun u : State => BlocksKept s2 u) _ _ .rfl' fun u hu x _ => ?_
    obtain ⟨i, n⟩ := x
    dsimp only
    split_ifs
    · exact hu
    · exact hu.trans (.count _ (by simp only [evK]; omega) (by simp only [evK]; omega))
  have hall := hcup.trans (hcounts.trans (.sample 0xF0185 (Raw.diff (s.raw .kresia) j.entered) none none (some j.domain) none))
  clear_value s3 s2
  refine ⟨?_, ?_, ?_, ?_⟩
  · rw [hall.queue, State.count_ks_blockQ, hwide.queue]
    rfl
  · rw [State.shard, hall.shards, State.count_ks_shards, hwide.shards]
    exact hstep
  · rw [hall.reg, State.rd_count_evK, if_pos ⟨rfl, rfl⟩, hwide.reg]
    rfl
  · rw [hall.mem, State.count_ks_mem, hwide.mem]
    rfl

end

/-- Settles O43: blocks case by case as R241 to R244 list them. -/
theorem blocksRunAndCommit : Obligations.BlocksRunAndCommit := by
  unfold Obligations.BlocksRunAndCommit
  refine ⟨?waited, ?idle, ?first, ?mustWait, ?noJob, ?commit, ?commitHome, ?leaves, ?recompute, ?lost⟩
  case waited =>
    intro s j i e hfind hentry
    simp only [exec, execBlockStart, hfind, hentry]
  case idle =>
    intro s hnone h
    simp only [exec, execBlockStart, hnone]
    split_ifs with hfull
    · rfl
    · rw [h.resolve_left hfull]
  case first =>
    intro s j i e hnone hroom hfirst hfree hentry
    simp only [exec, execBlockStart, hnone, Nat.not_le.mpr hroom, if_false, hfirst, hfree, if_true, hentry]
  case mustWait =>
    intro s j hnone hroom hfirst hfree
    simp only [exec, execBlockStart, hnone, Nat.not_le.mpr hroom, if_false, hfirst, hfree, Bool.false_eq_true]
  case noJob =>
    intro s d c k hnone
    exact ⟨by simp only [exec, execBlockCommit, hnone], fun copy => by simp only [exec, execStateEccError, hnone]⟩
  case commit =>
    intro s d c k j hjob hentry
    simp only [exec, execBlockCommit, hjob, hentry]
  case commitHome =>
    intro s d c k j i e hjob hentry
    simp only [exec, execBlockCommit, hjob, hentry]
  case leaves =>
    exact State.commitBlock_leaves
  case recompute =>
    intro s d c k j i e bs hjob hentry
    simp only [exec, execStateEccError, hjob, hentry]
  case lost =>
    intro s d c k j i e hjob hentry
    simp only [exec, execStateEccError, hjob, hentry]

end Sys2Proof.Machine

/-! The proof of O44: dispatch messages, placements and read data (R254, R257, R258, R263, R312, R426). -/

namespace Sys2Proof.Machine

section
variable {s : State}

/-! ### Which dispatch messages are taken (R261) -/

section
variable {d e step : Nat} {f : State → Image → State} {g : Image}

theorem State.takeDsp_stale (h : (s.dom d).imageFor step = none ∨ e < (s.dom d).epoch) :
    s.takeDsp d e step f = s.count (evK 0x170030) := by
  unfold State.takeDsp
  dsimp only
  split
  · rfl
  · next hsome =>
    rw [if_pos (h.resolve_left (by simp [hsome]))]
    rfl

theorem State.takeDsp_taken (himage : (s.dom d).imageFor step = some g) (hepoch : e = (s.dom d).epoch) :
    s.takeDsp d e step f = f s g := by
  simp only [State.takeDsp, himage, hepoch, lt_irrefl, if_false]

end

/-! ### A loss at the plan home (R260) -/

section
variable {n : DspNote} {g : Image}

theorem State.openDspHome_of_some {h : DspHome} {d l grp step : Nat} (hhome : s.dspHome d l grp step = some h) :
    s.openDspHome d l grp step = s := by
  simp only [State.openDspHome, hhome, Option.isSome_some, if_true]

theorem State.takeLost_elsewhere (h : lHome (s.dom n.domain).moves g n.layer n.group n.step ≠ s.ksId) :
    s.takeLost n g = s.emit (.send .kresia (s.dspRoute s.ksId (lHome (s.dom n.domain).moves g n.layer n.group n.step)
      (lHome (s.dom n.domain).moves g n.layer n.group n.step)) (.dspNote n)) := by
  simp only [State.takeLost, ne_eq, h, not_false_eq_true, if_true]

theorem State.takeLost_held {h : DspHome} (hhere : lHome (s.dom n.domain).moves g n.layer n.group n.step = s.ksId)
    (hhome : s.dspHome n.domain n.layer n.group n.step = some h) :
    s.takeLost n g = if n.restart < h.restart then s.count (evK 0x170030) else s.dspLost n.domain n.layer n.group n.step g := by
  simp only [State.takeLost, ne_eq, hhere, not_true_eq_false, if_false, State.openDspHome_of_some hhome, hhome, Option.any_some,
    decide_eq_true_eq, State.dspStale]

theorem State.openDspHome_opens {d l grp step : Nat} (hnone : s.dspHome d l grp step = none) :
    (s.openDspHome d l grp step).dspHome d l grp step =
      some { domain := d, layer := l, group := grp, step := step, epoch := (s.dom d).epoch } := by
  have hfind : s.ks.dspHomes.find? (fun x => x.isFor d l grp step) = none := hnone
  simp only [State.openDspHome, Option.isSome_none, Bool.false_eq_true, if_false, State.dspHome, State.modKs, List.find?_append,
    hfind, Option.none_or]
  simp [DspHome.isFor]

theorem State.takeLost_opens (hhere : lHome (s.dom n.domain).moves g n.layer n.group n.step = s.ksId)
    (hnone : s.dspHome n.domain n.layer n.group n.step = none) :
    s.takeLost n g = (s.openDspHome n.domain n.layer n.group n.step).dspLost n.domain n.layer n.group n.step g := by
  simp only [State.takeLost, ne_eq, hhere, not_true_eq_false, if_false, State.openDspHome_opens hnone, Option.any_some, Nat.not_lt_zero,
    decide_false, Bool.false_eq_true]

end

/-! ### The placements of a group (R258) -/

theorem find_map_of_find {x : DspLeaf} {d l step : Nat} {f : DspLeaf → DspLeaf} (m : List DspLeaf)
    (hf : ∀ y, (f y).isFor d l step = y.isFor d l step) (hfind : m.find? (fun y => y.isFor d l step) = some x) :
    (m.map fun y => if y.isFor d l step then f y else y).find? (fun y => y.isFor d l step) = some (f x) := by
  induction m with
  | nil => simp at hfind
  | cons y m ih =>
    cases hy : y.isFor d l step with
    | true =>
      obtain rfl : y = x := by simpa [hy] using hfind
      simp [hy, hf]
    | false =>
      rw [List.find?_cons_of_neg (by simp [hy])] at hfind
      rw [List.map_cons, List.find?_cons_of_neg (by simp [hy])]
      exact ih hfind

end

/-- Settles O44: dispatch messages, the engine and read data case by case as R254 to R263, R312 and R426 list them. -/
theorem dispatchAtAKresiaAndReadData : Obligations.DispatchAtAKresiaAndReadData := by
  unfold Obligations.DispatchAtAKresiaAndReadData
  refine ⟨?fenced, ?staleLost, ?stale, ?record, ?list, ?payload, ?noPosition, ?onward, ?opensHome, ?lost, ?oldLost, ?noLeaf, ?stalePlaces,
    ?places, ?engineIdle, ?engineNext, ?noRead, ?plainRead, ?bootError, ?lateJob, ?job, ?jobError⟩
  case fenced =>
    intro s x h
    exact ⟨by simp only [exec, execDspRecordRx, h, if_true], by simp only [exec, execDspPayloadRx, h, if_true]⟩
  case staleLost =>
    intro s n h
    exact congrArg Host.Outcome.next (State.takeDsp_stale h)
  case stale =>
    intro s x hfenced h
    refine ⟨?_, congrArg Host.Outcome.next (State.takeDsp_stale h), ?_⟩
    · simp only [exec, execDspRecordRx, hfenced, Bool.false_eq_true, if_false, State.takeDsp_stale h]
    · simp only [exec, execDspPayloadRx, hfenced, Bool.false_eq_true, if_false, State.takeDsp_stale h]
  case record =>
    intro s x g hfenced himage hepoch
    simp only [exec, execDspRecordRx, hfenced, Bool.false_eq_true, if_false, State.takeDsp_taken himage hepoch]
  case list =>
    intro s x g himage hepoch
    exact congrArg Host.Outcome.next (State.takeDsp_taken himage hepoch)
  case payload =>
    intro s x g i hfenced himage hepoch hpos
    simp only [exec, execDspPayloadRx, hfenced, Bool.false_eq_true, if_false, State.takeDsp_taken himage hepoch, hpos]
  case noPosition =>
    intro s x g hfenced himage hepoch hpos
    simp only [exec, execDspPayloadRx, hfenced, Bool.false_eq_true, if_false, State.takeDsp_taken himage hepoch, hpos]
  case onward =>
    intro s n g himage hepoch hhome
    exact congrArg Host.Outcome.next ((State.takeDsp_taken himage hepoch).trans (State.takeLost_elsewhere hhome))
  case opensHome =>
    intro s n g himage hepoch hhere hnone
    exact congrArg Host.Outcome.next ((State.takeDsp_taken himage hepoch).trans (State.takeLost_opens hhere hnone))
  case lost =>
    intro s n g h himage hepoch hhere hhome hrestart
    refine congrArg Host.Outcome.next ((State.takeDsp_taken himage hepoch).trans ((State.takeLost_held hhere hhome).trans ?_))
    rw [if_neg (Nat.not_lt.mpr hrestart)]
  case oldLost =>
    intro s n g h himage hepoch hhere hhome hrestart
    refine congrArg Host.Outcome.next ((State.takeDsp_taken himage hepoch).trans ((State.takeLost_held hhere hhome).trans ?_))
    rw [if_pos hrestart]
  case noLeaf =>
    intro s p hnone
    simp only [exec, execDspPlacementsRx, State.takePlaces, hnone, State.dspStale]
  case stalePlaces =>
    intro s p l hleaf h
    simp only [exec, execDspPlacementsRx, State.takePlaces, hleaf, State.dspStale]
    split
    · next lf g hlf himage =>
      obtain rfl := Option.some.inj hlf
      rw [if_pos]
      rcases h with h | h | h
      · simp [himage] at h
      · simp [h]
      · simp [h]
    · rfl
  case places =>
    intro s p g l hleaf himage hepoch hgroup
    have hexec : exec (.dspPlacementsRx p) s = .next ((s.modDspLeaf p.domain p.layer p.step fun y => { y with
        groups := y.groups ++ [p.group], places := y.places ++ p.places }).emit
        (.send .kresia (.members ((l.posts.filter fun (i, r) => lGroupOf g p.layer i = p.group && r.n.isSome).map fun (_, r) => r.member))
          (.dspNote {
            kind := .go, domain := p.domain, epoch := (s.dom p.domain).epoch, step := p.step, layer := p.layer, group := p.group
            restart := p.restart }))) := by
      have hcond : (decide (p.epoch < (s.dom p.domain).epoch) || l.groups.contains p.group) = false := by
        simp [hgroup, hepoch]
      simp only [exec, execDspPlacementsRx, State.takePlaces, hleaf, himage, hcond, Bool.false_eq_true, if_false]
    refine ⟨_, hexec, ?_, rfl⟩
    have hmod := find_map_of_find (f := fun y : DspLeaf => { y with
        groups := y.groups ++ [p.group], places := y.places ++ p.places }) s.ks.dspLeaves (fun _ => rfl) hleaf
    exact congrArg (Option.map fun y => (y.groups, y.places)) hmod
  case engineIdle =>
    intro s hq
    simp only [exec, execDspAssignEngineFree, hq]
  case engineNext =>
    intro s k r hq
    simp only [exec, execDspAssignEngineFree, hq]
    rfl
  case noRead =>
    intro s port id data err hnone
    simp only [exec, execMemReadData, hnone]
  case plainRead =>
    intro s port id data err r hfind huse h
    have hno : (err && !r.timedOut) = false := by
      rcases h with h | h <;> simp [h]
    simp only [exec, execMemReadData, hfind, hno, Bool.false_eq_true, if_false]
    split
    · next huse' => simp [huse'] at huse
    · rfl
  case bootError =>
    intro s port id data r hfind huse htime
    simp only [exec, execMemReadData, hfind, huse, htime, Bool.not_false, Bool.and_self, if_true]
  case lateJob =>
    intro s port id j line data r hfind huse htime
    simp only [exec, execMemReadData, hfind, huse, htime, Bool.false_and, Bool.false_eq_true, if_false, if_true]
  case job =>
    intro s port id j line data r hfind huse htime
    simp only [exec, execMemReadData, hfind, huse, htime, Bool.false_and, Bool.false_eq_true, if_false]
  case jobError =>
    intro s port id j line data r hfind huse htime
    simp only [exec, execMemReadData, hfind, huse, htime, Bool.not_false, Bool.and_self, Bool.false_eq_true, if_false, if_true]

end Sys2Proof.Machine

/-! The proof of O45: heartbeats, reports of Baxels and the timers of the fault manager (R28, R311 to R314). -/

namespace Sys2Proof.Machine

section
variable {s : State} {p : Part} {n : Nat} {h : Heartbeat}

/-! ### What a received heartbeat tells besides (R28, R314) -/

/-- A heartbeat that first shows the planes of a member in one failure domain. -/
def State.tellsSingle (s : State) (p : Part) (n : Nat) (h : Heartbeat) : Bool :=
  h.node < 2 ^ 20 && h.singleDomain && !((s.lp p n).hb.any fun old => old.singleDomain)

/-- A heartbeat that first shows a fenced member alive. -/
def State.tellsAlive (s : State) (h : Heartbeat) : Bool := h.node < 2 ^ 20 && s.isFenced h.node && !s.ks.aliveTold.contains h.node

theorem State.singleNow_none (hquiet : p = .baxel ∨ s.tellsSingle p n h = false) : s.singleNow p n h = s := by
  cases p with
  | baxel => rfl
  | kresia => exact if_neg (Bool.eq_false_iff.mp (hquiet.resolve_left (by decide)))

theorem State.fencedAlive_none (hquiet : p = .baxel ∨ s.tellsAlive h = false) : s.fencedAlive p n h.node = s := by
  cases p with
  | baxel => rfl
  | kresia => exact if_neg (Bool.eq_false_iff.mp (hquiet.resolve_left (by decide)))

theorem State.singleNow_told (htells : s.tellsSingle .kresia n h = true) :
    s.singleNow .kresia n h = s.report .kresia 0x9001 (port := n) (subject := some h.node) := if_pos htells

theorem State.fencedAlive_told (htells : s.tellsAlive h = true) :
    s.fencedAlive .kresia n h.node = (s.modKs fun k => { k with aliveTold := k.aliveTold ++ [h.node] }).report .kresia 0x900F
      (port := n) (subject := some h.node) := if_pos htells

theorem State.tellsAlive_report (code : Code) (dt : List Nat) (port : Nat) (sub dom : Option Nat) :
    (s.report p code dt port sub dom).tellsAlive h = s.tellsAlive h := by
  simp only [State.tellsAlive, State.isFenced, State.report_ks_fences, State.report_ks_aliveTold]

theorem State.up_of_lp {t : State} (hlp : (t.lp p n).step = (s.lp p n).step) : t.up p n = s.up p n := by
  rw [State.up, State.up, hlp]

/-- What a port keeps of a heartbeat received in service. -/
def LinkPort.heard (y : LinkPort) (now : Raw) (h : Heartbeat) : LinkPort := { y with hbLast := some now, hbLost := false, hb := some h }

theorem execHeartbeatRx_up (hup : s.up p n = true) :
    exec (.heartbeatRx p n h) s = .next (
      let t := ((s.singleNow p n h).fencedAlive p n h.node).modLp p n fun y => y.heard (s.raw p) h
      if (s.lp p n).hbLost then t.report p 0x9010 (port := n) (subject := some h.node) else t) := by
  simp only [exec, execHeartbeatRx, hup, Bool.not_true, Bool.false_eq_true, if_false, LinkPort.heard]

/-- R311: a Kresia counts the losses of heartbeats. -/
def State.lossCounted (s : State) : Part → State
  | .kresia => s.count (evK 0x1B0000)
  | .baxel => s

/-! ### Reports that become event records (R312) -/

theorem State.queueEvent_leaves (r : EventRec) (hroom : s.ks.events.length < 4096) :
    (s.queueEvent r).told .kresia = s.told .kresia ++ [r.code] ∧
      (s.queueEvent r).ks.events.getLast?.map (fun e => (e.fromBaxel, e.reporter, e.subject, e.port)) =
        some (r.fromBaxel, r.reporter, r.subject, r.port) ∧
      (s.queueEvent r).out.length = s.out.length + 1 := by
  simp [State.queueEvent, hroom, State.told]

end

/-- Settles O45: heartbeats, losses, reports and timers case by case as R28 and R311 to R314 list them. -/
theorem heartbeatsAndReports : Obligations.HeartbeatsAndReports := by
  unfold Obligations.HeartbeatsAndReports
  refine ⟨?sends, ?quiet, ?heard, ?single, ?fencedAlive, ?resumes, ?down, ?lost, ?notLost, ?fenced, ?fromPeer, ?noPeer, ?alive, ?notYet,
    ?resends, ?notResent⟩
  case sends =>
    intro s p n hup hdue
    simp only [exec, execHeartbeatSend, hup, hdue, Bool.and_self, if_true]
  case quiet =>
    rintro s p n (h | h) <;>
      simp only [exec, execHeartbeatSend, h, Bool.false_and, Bool.and_false, Bool.false_eq_true, if_false]
  case heard =>
    intro s p n h hup hlost hsingle halive
    rw [execHeartbeatRx_up hup, State.singleNow_none hsingle, State.fencedAlive_none halive, hlost]
    rfl
  case single =>
    intro s n h hup hlost hsingle halive hroom
    have hquiet : (s.report .kresia 0x9001 [] n (some h.node)).tellsAlive h = false := (State.tellsAlive_report ..).trans halive
    refine ⟨_, execHeartbeatRx_up hup, ?_, ?_⟩ <;>
      rw [State.singleNow_told hsingle, State.fencedAlive_none (.inr hquiet), hlost]
    · exact congrArg (·.hb) (State.lp_modLp _ _ _ _)
    · exact State.told_report s .kresia 0x9001 [] n (some h.node) none hroom
  case fencedAlive =>
    intro s n h hup hlost hsingle halive hroom
    refine ⟨_, execHeartbeatRx_up hup, ?_, ?_, ?_⟩ <;>
      rw [State.singleNow_none (.inr hsingle), State.fencedAlive_told halive, hlost]
    · exact congrArg (·.hb) (State.lp_modLp _ _ _ _)
    · show h.node ∈ (State.report _ .kresia 0x900F [] n (some h.node)).ks.aliveTold
      rw [State.report_ks_aliveTold]
      exact List.mem_append_right _ List.mem_cons_self
    · exact State.told_report (s.modKs fun k => { k with aliveTold := k.aliveTold ++ [h.node] }) .kresia 0x900F [] n (some h.node) none
        hroom
  case resumes =>
    intro s p n h hup hlost hsingle halive hroom
    have hlp : ((s.modLp p n fun y => y.heard (s.raw p) h).report p 0x9010 [] n (some h.node)).lp p n = (s.lp p n).heard (s.raw p) h := by
      rw [State.lp_report, State.lp_modLp]
    refine ⟨_, execHeartbeatRx_up hup, ?_, ?_, ?_⟩ <;>
      rw [State.singleNow_none hsingle, State.fencedAlive_none halive, hlost]
    · exact congrArg (·.hbLost) hlp
    · exact congrArg (·.hb) hlp
    · have htold := State.told_report (s.modLp p n fun y => y.heard (s.raw p) h) p 0x9010 [] n (some h.node) none
        (by cases p <;> exact hroom)
      refine htold.trans ?_
      cases p <;> rfl
  case down =>
    intro s p n h hdown
    simp only [exec, execHeartbeatRx, hdown, Bool.not_false, if_true]
  case lost =>
    intro s p n hup hlost hlate hroom
    have hlp : ((s.modLp p n fun y => { y with hbLost := true }).report p 0x9002 [] n ((s.lp p n).peer.map fun c => c.node)).lp p n =
        { s.lp p n with hbLost := true } := by
      rw [State.lp_report, State.lp_modLp]
    have htold := State.told_report (s.modLp p n fun y => { y with hbLost := true }) p 0x9002 [] n ((s.lp p n).peer.map fun c => c.node)
      none (by cases p <;> exact hroom)
    have hkept : (s.modLp p n fun y => { y with hbLost := true }).told p = s.told p := by cases p <;> rfl
    rw [hkept] at htold
    generalize hu : (s.modLp p n fun y => { y with hbLost := true }).report p 0x9002 [] n ((s.lp p n).peer.map fun c => c.node) = u at *
    have hexec : exec (.heartbeatLost p n) s = .next (u.lossCounted p) := by
      simp only [exec, execHeartbeatLost, hup, hlost, Bool.not_false, Bool.and_self, Bool.true_and, hu]
      exact if_pos hlate
    refine ⟨_, hexec, ?_⟩
    cases p with
    | baxel => exact ⟨congrArg (·.hbLost) hlp, htold, (State.up_of_lp (congrArg (·.step) hlp)).trans hup⟩
    | kresia =>
      have hlp' := (State.lp_count (s := u) (p := .kresia) (n := n) (evK 0x1B0000) 1).trans hlp
      refine ⟨congrArg (·.hbLost) hlp', ?_, (State.up_of_lp (congrArg (·.step) hlp')).trans hup⟩
      refine Eq.trans ?_ htold
      simp only [State.told, State.lossCounted, State.count_ks_events]
  case notLost =>
    intro s p n h
    simp only [exec, execHeartbeatLost]
    refine if_neg ?_
    rcases h with h | h | h
    · simp [h]
    · simp [h]
    · intro hand
      exact Bool.false_ne_true (h.symm.trans (Bool.and_eq_true .. ▸ hand).2)
  case fenced =>
    intro s n r c hpeer hfenced
    simp only [exec, execBaxelReportRx, hpeer, hfenced, if_true]
  case fromPeer =>
    intro s n r c hpeer hfenced hroom
    have hexec : exec (.baxelReportRx n r) s = .next (s.queueEvent {
        code := r.code, fromBaxel := true, domain := r.domain, reporter := c.node, port := r.port, subject := r.subject
        ot := r.ot, reportSeq := r.reportSeq, detail := r.detail }) := by
      simp only [exec, execBaxelReportRx, hpeer, hfenced, Bool.false_eq_true, if_false]
    exact ⟨_, hexec, State.queueEvent_leaves _ hroom⟩
  case noPeer =>
    intro s n r hpeer hfenced hroom
    have hexec : exec (.baxelReportRx n r) s = .next (s.queueEvent {
        code := r.code, fromBaxel := true, domain := r.domain, reporter := r.subject, port := r.port, subject := r.subject
        ot := r.ot, reportSeq := r.reportSeq, detail := r.detail }) := by
      simp only [exec, execBaxelReportRx, hpeer, hfenced, Bool.false_eq_true, if_false]
    exact ⟨_, hexec, State.queueEvent_leaves _ hroom⟩
  case alive =>
    intro s hdue
    simp only [exec, execKsAliveTimer, hdue, if_true]
  case notYet =>
    intro s hearly
    simp only [exec, execKsAliveTimer, hearly, Bool.false_eq_true, if_false]
  case resends =>
    intro s hdue
    have hexec : exec .eventResendTimer s = .next (s.ks.events.foldl (fun s r => s.emit (.send .kresia .mgmt (.event r)))
        (s.modKs fun k => { k with lastResend := some (s.raw .kresia) })) := by
      simp only [exec, execEventResendTimer, hdue, if_true]
      rfl
    have hks := State.foldl_emit_ks (fun r => .send .kresia .mgmt (.event r)) s.ks.events
      (s.modKs fun k => { k with lastResend := some (s.raw .kresia) })
    refine ⟨_, hexec, congrArg (·.events) hks, congrArg (·.lastResend) hks, ?_⟩
    rw [State.foldl_emit_out, List.map_reverse]
    rfl
  case notResent =>
    intro s hearly
    simp only [exec, execEventResendTimer, hearly, Bool.false_eq_true, if_false]

end Sys2Proof.Machine

/-! Which operations of a domain leave the fences of a Kresia as they are (R315). -/

namespace Sys2Proof.Machine

section
variable {s : State} {d : Nat}

/-! ### Tags, trackers, chunks and waiters -/

@[simp] theorem State.tagWrite_ks_fences (x : TagRec) : (s.tagWrite .kresia x).ks.fences = s.ks.fences := by
  unfold State.tagWrite State.modTags
  split_ifs <;> simp

@[simp] theorem State.tagEnd_ks_fences (r : TagRec) (b : Bool) : (s.tagEnd r b).ks.fences = s.ks.fences := by
  unfold State.tagEnd
  split
  · exact State.tagWrite_ks_fences _
  · rfl

@[simp] theorem State.tagStage_ks_fences (r : TagRec) (i : Nat) : (s.tagStage r i).ks.fences = s.ks.fences := by
  unfold State.tagStage
  split
  · split_ifs <;> rfl
  · rfl

@[simp] theorem State.modChunk_ks_fences (ix : Nat) (f : ChunkEntry → ChunkEntry) : (s.modChunk ix f).ks.fences = s.ks.fences := by
  unfold State.modChunk
  split <;> rfl

@[simp] theorem State.failOld_ks_fences (ix : Nat) (e : ChunkEntry) : (s.failOld ix e).ks.fences = s.ks.fences := by
  unfold State.failOld
  dsimp only
  split_ifs <;> simp [State.freeSlots]

@[simp] theorem State.dropTrackers_ks_fences (f : Tracker → Bool) : (s.dropTrackers .kresia f).ks.fences = s.ks.fences := rfl

@[simp] theorem State.voidTrackers_ks_fences (e : Nat) : (s.voidTrackers .kresia d e).ks.fences = s.ks.fences :=
  List.foldlRecOn (motive := fun u : State => u.ks.fences = s.ks.fences) _ _ rfl fun _ hu _ _ => hu

@[simp] theorem State.endWaiter_ks_fences (o : Nat) (w : Waiter) (code : Code) :
    (s.endWaiter .kresia o w code).ks.fences = s.ks.fences := by
  unfold State.endWaiter
  dsimp only
  split <;> simp

@[simp] theorem State.serveFor_ks_fences (o k : Nat) : (s.serveFor .kresia o k).ks.fences = s.ks.fences := by
  unfold State.serveFor
  extract_lets x
  obtain ⟨v, done, rest⟩ := Machine.serve k x.value x.waiters
  dsimp only
  split_ifs
  · rfl
  · exact List.foldlRecOn (motive := fun u : State => u.ks.fences = s.ks.fences) _ _ rfl fun u hu w _ =>
      (State.endWaiter_ks_fences o w 0).trans hu

@[simp] theorem State.serveObj_ks_fences (o : Nat) : (s.serveObj .kresia o).ks.fences = s.ks.fences := by
  unfold State.serveObj
  split_ifs <;> simp

@[simp] theorem State.serveObjs_ks_fences (os : List Nat) : (s.serveObjs os).ks.fences = s.ks.fences :=
  List.foldlRecOn (motive := fun u : State => u.ks.fences = s.ks.fences) _ _ rfl fun _ hu o _ => (State.serveObj_ks_fences o).trans hu

@[simp] theorem State.endTakes_ks_fences (f : Obj → Bool) : (s.endTakes d f).ks.fences = s.ks.fences :=
  List.foldlRecOn (motive := fun u : State => u.ks.fences = s.ks.fences) _ _ rfl fun _ hu q _ =>
    (State.endWaiter_ks_fences q.1 q.2 0x3012).trans hu

@[simp] theorem State.endAll_ks_fences (o : Nat) (code : Code) : (s.endAll .kresia o code).ks.fences = s.ks.fences :=
  List.foldlRecOn (motive := fun u : State => u.ks.fences = s.ks.fences) _ _ rfl fun _ hu w _ =>
    (State.endWaiter_ks_fences o w code).trans hu

@[simp] theorem State.poisonObj_ks_fences (o : Nat) (code : Code) : (s.poisonObj .kresia o code).ks.fences = s.ks.fences := by
  unfold State.poisonObj
  dsimp only
  split
  · exact (State.endAll_ks_fences o 0x3003).trans rfl
  · exact (State.endAll_ks_fences o 0x3003).trans rfl

@[simp] theorem State.signalObj_ks_fences (o n : Nat) (a : Applier) : (s.signalObj .kresia o n a).1.ks.fences = s.ks.fences := by
  unfold State.signalObj
  dsimp only
  split_ifs
  · exact State.poisonObj_ks_fences o _
  · exact (State.serveObj_ks_fences o).trans rfl

@[simp] theorem State.doneSignal_ks_fences (g : Image) (i : Nat) : (s.doneSignal d g i).ks.fences = s.ks.fences := by
  unfold State.doneSignal State.stepSignal
  dsimp only
  split_ifs
  · rfl
  · rfl
  · exact State.signalObj_ks_fences _ _ _

/-! ### Cupping, instances and the end of a program -/

@[simp] theorem State.cupAdd_ks_fences (step kind : Nat) (terms : List (List Nat)) :
    (s.cupAdd d step kind terms).ks.fences = s.ks.fences := by
  unfold State.cupAdd
  dsimp only
  split_ifs
  · rfl
  · exact (State.count_ks_fences _ _ _ : ((s.count _ _).ks.fences) = _)

@[simp] theorem State.storeCup_ks_fences (r : CupRec) : (s.storeCup d r).ks.fences = s.ks.fences := by
  unfold State.storeCup
  dsimp only
  split_ifs
  · exact (State.count_ks_fences _ _ _).trans rfl
  · exact (State.report_ks_fences ..).trans rfl

@[simp] theorem State.tryCup_ks_fences (step : Nat) : (s.tryCup d step).ks.fences = s.ks.fences := by
  unfold State.tryCup
  dsimp only
  split
  · split_ifs
    · exact State.storeCup_ks_fences _
    · rfl
  · rfl

@[simp] theorem State.takePartial_ks_fences (m : CupPartial) : (s.takePartial m).ks.fences = s.ks.fences := by
  unfold State.takePartial
  extract_lets d x old base r s1 s2
  have h2 : s2.ks.fences = s.ks.fences := by
    dsimp only [s2]
    split_ifs <;> rfl
  split_ifs
  · rfl
  · rfl
  · exact (State.tryCup_ks_fences _).trans h2

@[simp] theorem State.sendPartial_ks_fences (n : Inst) : (s.sendPartial d n).ks.fences = s.ks.fences := by
  unfold State.sendPartial
  extract_lets x s1 sums m
  have h1 : s1.ks.fences = s.ks.fences := by
    dsimp only [s1]
    split_ifs <;> simp
  split_ifs
  · exact h1
  · exact (State.takePartial_ks_fences m).trans h1
  · exact h1

@[simp] theorem State.startInst_ks_fences (step epoch : Nat) (due : OT) : (s.startInst d step epoch due).ks.fences = s.ks.fences := by
  unfold State.startInst
  extract_lets x
  split
  · rfl
  · next s1 _ g _ =>
    extract_lets n s2
    have h2 : s2.ks.fences = s.ks.fences := by
      dsimp only [s2]
      split_ifs
      · exact (State.cupAdd_ks_fences _ _ _).trans rfl
      · rfl
    split_ifs
    · exact (State.sendPartial_ks_fences n).trans h2
    · exact h2

@[simp] theorem State.trimProgram_ks_fences : (s.trimProgram d).ks.fences = s.ks.fences := by
  unfold State.trimProgram
  dsimp only
  split
  · rfl
  · split_ifs <;> rfl

@[simp] theorem State.endRange_ks_fences (m k : Nat) (r : ShardRange) : (s.endRange m k r).ks.fences = s.ks.fences := by
  unfold State.endRange
  split <;> simp

@[simp] theorem State.shardRead_ks_fences (m k : Nat) (t : Taken) : (s.shardRead m k t).ks.fences = s.ks.fences := by
  unfold State.shardRead
  dsimp only
  split
  · split_ifs
    · rfl
    · simp only [State.complete_ks_fences]
      unfold State.toStage State.stageWrite
      split
      · rfl
      · split_ifs <;> simp
  · simp

@[simp] theorem State.pumpShardReads_ks_fences : s.pumpShardReads.ks.fences = s.ks.fences :=
  List.foldlRecOn (motive := fun u : State => u.ks.fences = s.ks.fences) _ _ rfl fun u hu q _ => by
    split
    · exact (State.shardRead_ks_fences _ _ _).trans hu
    · exact hu

@[simp] theorem State.endFill_ks_fences (f : FillRun) : (s.endFill f).ks.fences = s.ks.fences := by
  unfold State.endFill
  dsimp only
  split_ifs <;> exact (State.complete_ks_fences ..).trans rfl

@[simp] theorem State.endFills_ks_fences : (s.endFills d).ks.fences = s.ks.fences :=
  List.foldlRecOn (motive := fun u : State => u.ks.fences = s.ks.fences) _ _ rfl fun _ hu _ _ => (State.endFill_ks_fences _).trans hu

@[simp] theorem State.progEnd_ks_fences (m k : Nat) (code : Code) (r : List Byte) :
    (s.progEnd d m k code r).ks.fences = s.ks.fences := (State.complete_ks_fences ..).trans rfl

@[simp] theorem State.freedBy_ks_fences (node : Nat) : (s.freedBy d node).ks.fences = s.ks.fences := by
  unfold State.freedBy
  split
  · dsimp only
    split_ifs
    · rfl
    · exact (State.progEnd_ks_fences ..).trans rfl
    · rfl
  · rfl

@[simp] theorem State.freeProgram_ks_fences : (s.freeProgram d).ks.fences = s.ks.fences := by
  unfold State.freeProgram
  extract_lets s1 s2 s3
  have h1 : s1.ks.fences = s.ks.fences := by
    change (((s.endTakes d fun _ => true).endFills d).dropTrackers .kresia fun t => t.domain = d).ks.fences = _
    simp
  have h3 : s3.ks.fences = s.ks.fences := State.pumpShardReads_ks_fences.trans h1
  split_ifs
  · exact (State.freedBy_ks_fences _).trans h3
  · exact h3

@[simp] theorem State.afterInst_ks_fences : (s.afterInst d).ks.fences = s.ks.fences := by
  unfold State.afterInst
  extract_lets t x
  have ht : t.ks.fences = s.ks.fences := State.trimProgram_ks_fences
  split
  · split_ifs
    · exact ht
    · exact (State.startInst_ks_fences _ _ _).trans ht
  · split_ifs
    · exact State.freeProgram_ks_fences.trans ht
    · exact ht

/-! ### Voids and fences -/

@[simp] theorem State.voidInst_ks_fences (step : Nat) : (s.voidInst d step).ks.fences = s.ks.fences := by
  unfold State.voidInst
  extract_lets open' mine s1 reset s2 tags s3 s4
  have h2 : s2.ks.fences = s.ks.fences := by
    dsimp only [s2]
    rw [State.serveObjs_ks_fences, State.endTakes_ks_fences]
    rfl
  have h3 : s3.ks.fences = s.ks.fences := List.foldlRecOn (motive := fun u : State => u.ks.fences = s.ks.fences) _ _ h2
    fun u hu t _ => (State.tagEnd_ks_fences t true).trans hu
  split_ifs
  · exact State.afterInst_ks_fences.trans h3
  · exact h3

@[simp] theorem State.endEpoch_ks_fences (e : Nat) : (s.endEpoch d e).ks.fences = s.ks.fences := by
  unfold State.endEpoch
  extract_lets s1 s2
  refine (State.voidTrackers_ks_fences e).trans ?_
  refine List.foldlRecOn (motive := fun u : State => u.ks.fences = s.ks.fences) _ _ rfl fun u hu x _ => ?_
  obtain ⟨ix, z⟩ := x
  dsimp only
  split_ifs
  · exact (State.failOld_ks_fences ix z).trans hu
  · exact hu

@[simp] theorem State.newerEpoch_ks_fences (e step : Nat) : (s.newerEpoch d e step).ks.fences = s.ks.fences :=
  (State.voidInst_ks_fences step).trans (State.endEpoch_ks_fences e)

@[simp] theorem State.relay_ks_fences (m : Ctl) : (s.relay d m).ks.fences = s.ks.fences := by
  unfold State.relay
  extract_lets x below s1
  have h1 : s1.ks.fences = s.ks.fences := by
    dsimp only [s1]
    split_ifs <;> rfl
  split_ifs
  · rfl
  · rfl
  · exact h1
  · exact h1

@[simp] theorem State.deputyVoid_ks_fences (m : Ctl) (told : Bool) : (s.deputyVoid d m told).ks.fences = s.ks.fences := by
  unfold State.deputyVoid
  dsimp only
  split_ifs
  · rfl
  · exact (State.count_ks_fences _ _ _).trans rfl
  · exact (State.count_ks_fences _ _ _).trans rfl

@[simp] theorem State.ksVoid_ks_fences (m : Ctl) : (s.ksVoid d m).ks.fences = s.ks.fences := by
  unfold State.ksVoid
  extract_lets t x told
  have ht : t.ks.fences = s.ks.fences := by
    dsimp only [t]
    unfold State.relayVoid
    dsimp only
    split_ifs
    · rfl
    · exact (State.relay_ks_fences m).trans rfl
  split_ifs
  · exact ht
  · exact (State.deputyVoid_ks_fences m told).trans ht
  · rw [State.deputyVoid_ks_fences, State.newerEpoch_ks_fences, ht]

@[simp] theorem State.dropArms_ks_fences (cause : Code) : (s.dropArms d cause).ks.fences = s.ks.fences :=
  s.dropArms_induct d cause (P := fun t => t.ks.fences = s.ks.fences) rfl fun t r ht => by
    unfold State.endChange
    split
    · exact (State.complete_ks_fences ..).trans ht
    · exact ht

@[simp] theorem State.unloadNow_ks_fences : (s.unloadNow d).ks.fences = s.ks.fences := by
  unfold State.unloadNow
  dsimp only
  split
  · unfold State.startFreeing
    split_ifs
    · exact State.freeProgram_ks_fences.trans (State.dropArms_ks_fences _)
    · exact State.dropArms_ks_fences _
  · exact (State.progEnd_ks_fences ..).trans rfl
  · rfl

@[simp] theorem State.enterHeld_ks_fences (code : Code) : (s.enterHeld d code).ks.fences = s.ks.fences := by
  unfold State.enterHeld
  dsimp only
  split_ifs
  · exact State.unloadNow_ks_fences.trans ((State.report_ks_fences ..).trans rfl)
  · exact (State.report_ks_fences ..).trans rfl

@[simp] theorem State.broadcast_ks_fences (m : Msg) : (s.broadcast d m).ks.fences = s.ks.fences := by
  unfold State.broadcast
  refine List.foldlRecOn (motive := fun u : State => u.ks.fences = s.ks.fences) _ _ rfl fun u hu pl _ => ?_
  unfold State.tieCopy
  split_ifs
  · exact hu
  · split
    · exact hu
    · exact (State.report_ks_fences ..).trans hu

@[simp] theorem State.voidStep_ks_fences (cause : Code) : (s.voidStep d cause).ks.fences = s.ks.fences := by
  unfold State.voidStep
  extract_lets x untamped s1 s2 m s3 s5 s6
  have h3 : s3.ks.fences = s.ks.fences := by
    dsimp only [s3, s2]
    rw [State.broadcast_ks_fences, State.count_ks_fences]
    exact State.dropArms_ks_fences cause
  have h5 : s5.ks.fences = s.ks.fences := by
    dsimp only [s5]
    split
    · refine List.foldlRecOn (motive := fun u : State => u.ks.fences = s.ks.fences) _ _ h3 fun u hu r _ => ?_
      split_ifs
      · exact hu
      · exact (State.doneSignal_ks_fences _ _).trans hu
    · exact h3
  have h6 : s6.ks.fences = s.ks.fences := (State.ksVoid_ks_fences m).trans h5
  split_ifs
  · rfl
  · rw [State.enterHeld_ks_fences, State.dropArms_ks_fences]
  · exact (State.enterHeld_ks_fences _).trans h6
  · exact h6

@[simp] theorem State.fenceDomain_ks_fences (member : Nat) : (s.fenceDomain d member).ks.fences = s.ks.fences := by
  unfold State.fenceDomain
  dsimp only
  split_ifs
  · exact (State.voidStep_ks_fences _).trans rfl
  · rfl
  · rfl

theorem State.rejoin_ks_fences (node : Nat) : (s.rejoin node).ks.fences = s.ks.fences := by
  refine List.foldlRecOn (motive := fun u : State => u.ks.fences = s.ks.fences) _ _ rfl fun u hu q _ => ?_
  obtain ⟨d, x⟩ := q
  dsimp only
  split_ifs
  · split <;> exact hu
  · exact hu

end

end Sys2Proof.Machine

/-! The proof of O46: fence notices, copied chunks and the throttle level (R315, R323, R340). -/

namespace Sys2Proof.Machine

section
variable {s : State} {n : FenceNotice}

/-! ### A newer notice is kept, counted and flooded (R315) -/

/-- R315: what a Kresia keeps of a newer notice before it acts on its domains and ports. -/
def State.fenceKept (s : State) (n : FenceNotice) : State :=
  ((s.modKs fun k => { k with
    fences := FMap.set k.fences n.subject (n.fenceSeq, !n.clear), aliveTold := k.aliveTold.filter (· ≠ n.subject) }).count
      (evK 0x1B0008)).emit (.send .kresia .flood (.fence n))

theorem State.fenceKept_fences : FMap.find? (s.fenceKept n).ks.fences n.subject = some (n.fenceSeq, !n.clear) := by
  show FMap.find? (State.count _ _ _).ks.fences n.subject = _
  rw [State.count_ks_fences]
  exact FMap.find_set_self ..

theorem State.fenceKept_leaves (s : State) (n : FenceNotice) :
    (s.fenceKept n).ks.doms = s.ks.doms ∧ (s.fenceKept n).ks.c.link = s.ks.c.link ∧
      (s.fenceKept n).out = .send .kresia .flood (.fence n) :: s.out := by
  refine ⟨(State.count_ks_doms _ _ _).trans rfl, ?_, congrArg (_ :: ·) ((State.count_out _ _ _).trans rfl)⟩
  exact State.count_link (s.modKs fun k => { k with
    fences := FMap.set k.fences n.subject (n.fenceSeq, !n.clear), aliveTold := k.aliveTold.filter (· ≠ n.subject) })
    (evK 0x1B0008) 1 .kresia

theorem State.applyFence_eq : s.applyFence n =
    if 2 ^ 20 ≤ n.subject then
      (if !n.clear then ((s.fenceKept n).cutPeer n.subject).dspLeafGone n.subject
       else if ((s.fenceKept n).upPorts .kresia).any fun q => ((s.fenceKept n).lp .kresia q).peer.any fun c => c.node = n.subject then
        (s.fenceKept n).rejoin (n.subject - 2 ^ 20)
       else s.fenceKept n)
    else (s.fenceKept n).ks.doms.foldl (fun s (q : Nat × Domain) =>
      if n.clear then s.unfenceDomain q.1 n.subject else s.fenceDomain q.1 n.subject) (s.fenceKept n) := rfl

theorem exec_fenceNoticeRx (hnew : s.fenceNewer n = true) : exec (.fenceNoticeRx n) s = .next (s.applyFence n) := by
  simp only [exec, execFenceNoticeRx, hnew, if_true]

theorem State.fenceKept_peerUp (s : State) (n : FenceNotice) :
    (((s.fenceKept n).upPorts .kresia).any fun q => ((s.fenceKept n).lp .kresia q).peer.any fun c => c.node = n.subject) =
      ((s.upPorts .kresia).any fun q => (s.lp .kresia q).peer.any fun c => c.node = n.subject) := by
  obtain ⟨_, hlink, _⟩ := s.fenceKept_leaves n
  simp only [State.upPorts, State.up, State.lp, State.pc, hlink]
  rfl

/-- R315: on a member's notice every domain is acted on; each leaves the fences, and what went out before. -/
theorem State.applyFence_member (hmember : n.subject < 2 ^ 20) :
    FMap.find? (s.applyFence n).ks.fences n.subject = some (n.fenceSeq, !n.clear) ∧
      .send .kresia .flood (.fence n) ∈ (s.applyFence n).out := by
  rw [State.applyFence_eq, if_neg (Nat.not_le.mpr hmember)]
  have hfold : ∀ u : State, (u.ks.fences = (s.fenceKept n).ks.fences ∧ (s.fenceKept n).out <:+ u.out) → ∀ d,
      (if n.clear then u.unfenceDomain d n.subject else u.fenceDomain d n.subject).ks.fences = (s.fenceKept n).ks.fences ∧
        (s.fenceKept n).out <:+ (if n.clear then u.unfenceDomain d n.subject else u.fenceDomain d n.subject).out := by
    rintro u ⟨hfences, hout⟩ d
    split_ifs
    · exact ⟨hfences, hout⟩
    · exact ⟨State.fenceDomain_ks_fences n.subject |>.trans hfences,
        hout.trans (Follows.fenceDomain (mw := false) (Follows.refl .kresia u)).out⟩
  obtain ⟨hfences, hout⟩ := List.foldlRecOn
    (motive := fun u : State => u.ks.fences = (s.fenceKept n).ks.fences ∧ (s.fenceKept n).out <:+ u.out)
    (s.fenceKept n).ks.doms (fun s (q : Nat × Domain) => if n.clear then s.unfenceDomain q.1 n.subject else s.fenceDomain q.1 n.subject)
    ⟨rfl, List.suffix_refl _⟩ fun u hu q _ => hfold u hu q.1
  refine ⟨hfences ▸ State.fenceKept_fences, hout.subset ?_⟩
  rw [(s.fenceKept_leaves n).2.2]
  exact List.mem_cons_self

/-- R315: the fence of a Kresia that returns on a port in service is lifted. -/
theorem State.applyFence_rejoin (hkresia : 2 ^ 20 ≤ n.subject) (hclear : n.clear = true)
    (hup : ((s.upPorts .kresia).any fun q => (s.lp .kresia q).peer.any fun c => c.node = n.subject) = true) :
    s.applyFence n = (s.fenceKept n).rejoin (n.subject - 2 ^ 20) := by
  rw [State.applyFence_eq, if_pos hkresia, hclear, s.fenceKept_peerUp n, hup]
  rfl

theorem State.shard_report (p : Part) (code : Code) (dt : List Nat) (port : Nat) (sub dom : Option Nat) (key : Nat) :
    (s.report p code dt port sub dom).shard key = s.shard key := by
  rw [State.shard, State.report_ks_shards, State.shard]

/-! ### The throttle level (R323) -/

section
variable {u : Bool}

/-- The level a change leads to. -/
def throttleTo (u : Bool) (v : Nat) : Nat := if u then min 2 (v + 1) else v - 1

theorem execThrottleLevelChange_moves (hmoves : throttleTo u (s.fld .kresia 0x1C001C 0 2) ≠ s.fld .kresia 0x1C001C 0 2)
    (hdue : s.elapsed .kresia s.ks.lastThrottle (msGrains 10) = true) (hroom : s.canTell .kresia = true) :
    ∃ t, exec (.throttleLevelChange u) s = .next t ∧
      t.fld .kresia 0x1C001C 0 2 = throttleTo u (s.fld .kresia 0x1C001C 0 2) % 2 ^ 2 ∧
      t.rd .kresia 0x1C0018 = s.rd .kresia 0x1C0018 + 1 ∧ t.told .kresia = s.told .kresia ++ [0x0010] ∧
      t.ks.lastThrottle = some (s.raw .kresia) := by
  have hcond : (decide (throttleTo u (s.fld .kresia 0x1C001C 0 2) = s.fld .kresia 0x1C001C 0 2) ||
      !s.elapsed .kresia s.ks.lastThrottle (msGrains 10)) = false := by
    rw [decide_eq_false hmoves, hdue]
    rfl
  set w := throttleTo u (s.fld .kresia 0x1C001C 0 2) with hw
  let s1 := (s.modKs fun k => { k with lastThrottle := some (s.raw .kresia) }).setFld .kresia 0x1C001C 0 2 w
  have hexec : exec (.throttleLevelChange u) s = .next ((s1.count (evK 0x1C0018)).report .kresia 0x0010 [w]) :=
    if_neg (Bool.eq_false_iff.mp hcond)
  have hrd (a : Nat) (ha : a ≠ 0x1B0020 ∧ a ≠ 0x1B002C ∧ a ≠ 0x1B0030) :
      ((s1.count (evK 0x1C0018)).report .kresia 0x0010 [w]).rd .kresia a = (s1.count (evK 0x1C0018)).rd .kresia a := by
    apply State.rd_report_ne
    exact fun _ _ => ha
  have hfld : s1.fld .kresia 0x1C001C 0 2 = w % 2 ^ 2 := State.fld_setFld_self _ _ _ (by decide) w
  have hcount : s1.rd .kresia 0x1C0018 = s.rd .kresia 0x1C0018 := State.rd_setFld_ne _ _ (by decide) _ _ _
  have htold : s1.told .kresia = s.told .kresia := congrArg (List.map _) ((State.setFld_ks_events ..).trans rfl)
  have hlast : s1.ks.lastThrottle = some (s.raw .kresia) := (State.setFld_ks_lastThrottle ..).trans rfl
  have hroom1 : s1.canTell .kresia = true := by
    rw [State.canTell, State.setFld_ks_events]
    exact hroom
  clear_value s1
  refine ⟨_, hexec, ?_, ?_, ?_, ?_⟩
  · refine (State.fld_congr (t := State.report _ _ _ _) (s := s1) ?_ 0 2).trans hfld
    rw [hrd _ (by decide), State.rd_count_evK, if_neg (by decide)]
  · rw [hrd _ (by decide), State.rd_count_evK, if_pos ⟨rfl, rfl⟩, hcount]
    rfl
  · have hroom' : (s1.count (evK 0x1C0018)).canTell .kresia = true := by
      rw [State.canTell, State.count_ks_events]
      exact hroom1
    rw [State.told_report _ .kresia 0x0010 [w] 255 none none hroom', State.told, State.count_ks_events, ← htold]
    rfl
  · rw [State.report_ks_lastThrottle, State.count_ks_lastThrottle, hlast]

end

end

/-- Settles O46: notices, copies and the throttle level case by case as R315, R323 and R340 list them. -/
theorem fencesCopiesAndThrottling : Obligations.FencesCopiesAndThrottling := by
  unfold Obligations.FencesCopiesAndThrottling
  refine ⟨?old, ?noDomain, ?lifted, ?member, ?rejoins, ?kresia, ?oneDomain, ?noCopy, ?lastCopy, ?copy, ?up, ?down, ?bound, ?early⟩
  case old =>
    intro s n hold
    simp only [exec, execFenceNoticeRx, hold, Bool.false_eq_true, if_false]
  case noDomain =>
    intro s n hnew hmember hdoms
    obtain ⟨hdoms', hlink, hout⟩ := s.fenceKept_leaves n
    have happly : s.applyFence n = s.fenceKept n := by
      rw [State.applyFence_eq, if_neg (Nat.not_le.mpr hmember), hdoms', hdoms]
      rfl
    refine ⟨_, exec_fenceNoticeRx hnew, ?_⟩
    rw [happly]
    refine ⟨?_, State.fenceKept_fences, by rw [hlink], hout⟩
    exact (State.rd_count_evK _ .kresia 0x1B0008 0x1B0008 1).trans (if_pos ⟨rfl, rfl⟩)
  case lifted =>
    intro s n hnew hkresia hclear hup
    rw [exec_fenceNoticeRx hnew, State.applyFence_eq, if_pos hkresia, s.fenceKept_peerUp n, hup, State.fenceKept, hclear]
    rfl
  case member =>
    intro s n hnew hmember
    exact ⟨_, exec_fenceNoticeRx hnew, State.applyFence_member hmember⟩
  case rejoins =>
    intro s n hnew hkresia hclear hup
    refine ⟨_, exec_fenceNoticeRx hnew, ?_⟩
    rw [State.applyFence_rejoin hkresia hclear hup]
    refine ⟨?_, (Follows.rejoin (mw := false) (Follows.refl .kresia (s.fenceKept n))).out.subset ?_⟩
    · rw [State.rejoin_ks_fences, State.fenceKept_fences, hclear]
      rfl
    · rw [(s.fenceKept_leaves n).2.2]
      exact List.mem_cons_self
  case kresia =>
    intro s n hnew hkresia hset
    rw [exec_fenceNoticeRx hnew, State.applyFence_eq, if_pos hkresia, State.fenceKept, hset]
    rfl
  case oneDomain =>
    intro s n d x hnew hmember hdoms
    rw [exec_fenceNoticeRx hnew, State.applyFence_eq, if_neg (Nat.not_le.mpr hmember), (s.fenceKept_leaves n).1, hdoms]
    rfl
  case noCopy =>
    intro s d c k h
    simp only [exec, execRemirrorChunkCommit]
    refine if_neg ?_
    rcases h with h | h
    · simp [h]
    · simp [h]
  case lastCopy =>
    intro s d c k x htarget hacked hlast hroom
    have hleft : (s.shard (shardKey d c false false)).fillLeft.filter (· ≠ k) = [] := by
      rw [List.filter_eq_nil_iff]
      intro i hi
      simpa using hlast i hi
    have hcontains : (s.shard (shardKey d c false false)).fillAcked.contains k = true := by simpa using hacked
    let s1 := s.modShard (shardKey d c false false) fun h => { h with
      fillAcked := h.fillAcked.filter (· ≠ k), fillLeft := [], fillDone := h.fillDone ++ [k], single := h.single && !true }
    have hexec : exec (.remirrorChunkCommit d c k) s =
        .next (s1.report .kresia 0x900E [c] (subject := some (2 ^ 20 + x)) (domain := some d)) := by
      simp only [exec, execRemirrorChunkCommit, htarget, hcontains, Option.isSome_some, Bool.and_self, if_true, hleft, List.isEmpty_nil,
        Option.map_some, s1]
    have hshard : (s1.report .kresia 0x900E [c] (subject := some (2 ^ 20 + x)) (domain := some d)).shard (shardKey d c false false) = _ :=
      (State.shard_report ..).trans (State.shard_modShard s _ _)
    refine ⟨_, hexec, congrArg (·.fillLeft) hshard, congrArg (·.fillDone) hshard, ?_, ?_⟩
    · exact (congrArg (·.single) hshard).trans (Bool.and_false _)
    · exact State.told_report s1 .kresia 0x900E [c] 255 (some (2 ^ 20 + x)) (some d) hroom
  case copy =>
    intro s d c k x j htarget hacked hj hne
    have hleft : ((s.shard (shardKey d c false false)).fillLeft.filter (· ≠ k)).isEmpty = false := by
      rw [Bool.eq_false_iff, ne_eq, List.isEmpty_iff]
      exact List.ne_nil_of_mem (List.mem_filter.mpr ⟨hj, by simpa using hne⟩)
    have hcontains : (s.shard (shardKey d c false false)).fillAcked.contains k = true := by simpa using hacked
    simp only [exec, execRemirrorChunkCommit, htarget, hcontains, Option.isSome_some, Bool.and_self, if_true, hleft, Bool.false_eq_true,
      if_false, Bool.not_false, Bool.and_true]
  case up =>
    intro s hlow hdue hroom
    obtain ⟨t, hexec, hlevel, hrest⟩ := execThrottleLevelChange_moves (u := true) (by simp only [throttleTo, if_true]; omega) hdue hroom
    refine ⟨t, hexec, hlevel.trans ?_, hrest⟩
    simp only [throttleTo, if_true]
    omega
  case down =>
    intro s hhigh hdue hroom
    have hlt : s.fld .kresia 0x1C001C 0 2 < 4 := Nat.mod_lt _ (by decide)
    obtain ⟨t, hexec, hlevel, hrest⟩ := execThrottleLevelChange_moves (u := false)
      (by simp only [throttleTo, Bool.false_eq_true, if_false]; omega) hdue hroom
    refine ⟨t, hexec, ?_, hrest⟩
    rw [hlevel]
    simp only [throttleTo, Bool.false_eq_true, if_false]
    omega
  case bound =>
    intro s u hlevel
    refine if_pos ?_
    rw [Bool.or_eq_true, decide_eq_true_eq]
    cases u <;> simp [hlevel]
  case early =>
    intro s u hearly
    refine if_pos ?_
    rw [hearly, Bool.not_false, Bool.or_true]

end Sys2Proof.Machine

/-! The proof of O47: cupping at the crown (R348 to R351). -/

namespace Sys2Proof.Machine

section
variable {s : State} {m : CupPartial}

/-! ### Partials (R349) -/

/-- R349: the record that the first partial of a step opens. -/
def CupRec.first (m : CupPartial) (expected : Nat) : CupRec :=
  { step := m.step, epoch := m.epoch, sums := addWords (List.replicate 20 0) m.sums, varied := 0 ||| m.varied
    reported := [m.node], expected := expected }

/-- R349: a partial of a step without a record opens one, and nothing else happens while the step is not sealed. -/
theorem State.takePartial_first (hnone : ((s.dom m.domain).cupOpen.find? fun r => r.step = m.step) = none) :
    s.takePartial m = s.modDom m.domain fun y => { y with
      cupOpen := (y.cupOpen.filter fun q => q.step ≠ m.step) ++ [CupRec.first m ((s.dom m.domain).kresia s.ks.build).length] } := by
  unfold State.takePartial
  extract_lets d x old base r s1 s2
  have hold : old = { step := m.step, epoch := m.epoch } := by
    dsimp only [old, x, d]
    rw [hnone]
    rfl
  have hbase : base = { step := m.step, epoch := m.epoch } := by
    dsimp only [base]
    rw [hold, if_neg (Nat.lt_irrefl _)]
  have hr : r = CupRec.first m ((s.dom m.domain).kresia s.ks.build).length := by
    dsimp only [r]
    rw [hbase]
    rfl
  have h2 : s2 = s1 := if_neg (by rw [hr]; simp [CupRec.first])
  rw [if_neg (by rw [hold]; exact Nat.lt_irrefl _), if_neg (by rw [hbase]; simp), h2]
  have htry : s1.tryCup d m.step = s1 := by
    unfold State.tryCup
    extract_lets y
    have hy : y = { x with cupOpen := (x.cupOpen.filter fun q => q.step ≠ m.step) ++ [r] } := State.dom_modDom s d _
    split
    · next r' hr' =>
      have hfilter : (x.cupOpen.filter fun q => q.step ≠ m.step).find? (fun q => q.step = m.step) = none := by
        simp [List.find?_filter]
      rw [hy, List.find?_append, hfilter] at hr'
      have hr'' : r' = r := by simpa [hr, CupRec.first, eq_comm] using hr'
      rw [hr'', hr]
      simp [CupRec.first]
    · rfl
  rw [htry, ← hr]

end

section
variable {s : State} {m : ShardDigests} {q : CupCheck}

/-! ### Shard digests (R351) -/

/-- R351: a chunk that differs is told. -/
def State.differTold (s : State) (m : ShardDigests) (q : CupCheck) : State :=
  if q.differ.length < (q.take m).differ.length then
    s.report .kresia 0x9023 [m.coll, s.ksId, m.node] (subject := some (2 ^ 20 + m.node)) (domain := some m.domain)
  else s

theorem execCupShardDigestsRx_single (hchecks : s.ks.cupChecks = [q]) (hdomain : q.domain = m.domain) (hcoll : q.coll = m.coll)
    (hnode : m.node ∈ q.waiting) :
    exec (.cupShardDigestsRx m) s =
      .next (((s.modKs fun k => { k with cupChecks := [q.take m] }).differTold m q).endCheck (q.take m)) := by
  have hfind : [q].find? (fun q : CupCheck =>
      decide (q.domain = m.domain) && decide (q.coll = m.coll) && q.waiting.contains m.node) = some q :=
    List.find?_cons_of_pos (by simp [hdomain, hcoll, hnode])
  have hstate : (s.modKs fun k => { k with cupChecks := k.cupChecks.map fun x =>
      if (decide (x.mailbox = q.mailbox) && decide (x.mslot = q.mslot)) = true then q.take m else x }) =
        s.modKs fun k => { k with cupChecks := [q.take m] } := by
    simp only [State.modKs, hchecks, List.map_cons, List.map_nil, decide_true, Bool.and_self, if_true]
  simp only [exec, execCupShardDigestsRx, hchecks]
  rw [hfind]
  dsimp only
  rw [hstate]
  rfl

theorem State.mslot_report (p : Part) (code : Code) (dt : List Nat) (port : Nat) (sub dom : Option Nat) (m k : Nat) :
    (s.report p code dt port sub dom).mslot p m k = s.mslot p m k := by
  rw [State.mslot, State.mbox, State.report_fw, State.mslot, State.mbox]

theorem State.endCheck_of_waiting (h : ∃ n ∈ q.waiting, n ≠ m.node) : s.endCheck (q.take m) = s := by
  obtain ⟨n, hmem, hne⟩ := h
  refine if_neg ?_
  rw [List.isEmpty_iff]
  exact List.ne_nil_of_mem (List.mem_filter.mpr ⟨hmem, by simpa using hne⟩)

end

/-- Settles O47: partials, late records and digests case by case as R348 to R351 list them. -/
theorem cuppingAtTheCrown : Obligations.CuppingAtTheCrown := by
  unfold Obligations.CuppingAtTheCrown
  refine ⟨?notCrown, ?older, ?first, ?partialTaken, ?late, ?notLate, ?noRecord, ?differs, ?noCheck, ?last, ?same⟩
  case notCrown =>
    intro s m hcrown
    simp only [exec, execCupPartialRx, hcrown, Bool.false_eq_true, if_false]
  case older =>
    intro s m r hcrown hfind hepoch
    simp only [exec, execCupPartialRx, hcrown, if_true, State.takePartial, hfind, Option.getD_some, hepoch]
  case first =>
    intro s m hcrown hnone _
    refine ⟨_, by simp only [exec, execCupPartialRx, hcrown, if_true]; rfl, ?_⟩
    rw [State.takePartial_first hnone]
    refine ⟨?_, rfl⟩
    rw [State.dom_modDom]
    have hfilter : ((s.dom m.domain).cupOpen.filter fun q => q.step ≠ m.step).find? (fun q => q.step = m.step) = none := by
      simp [List.find?_filter]
    simp only [List.find?_append, hfilter, Option.none_or]
    simp [CupRec.first]
  case partialTaken =>
    intro s m hcrown
    simp only [exec, execCupPartialRx, hcrown, if_true]
  case late =>
    intro s d step r hfind hcrown hcupped hsealed helapsed
    simp only [exec, execCupIncompleteTimeout, hfind, hcrown, hcupped, Option.isSome_iff_ne_none.mpr hsealed, helapsed, Bool.and_self,
      if_true]
  case notLate =>
    intro s d step r hfind h
    simp only [exec, execCupIncompleteTimeout, hfind]
    refine if_neg ?_
    rcases h with h | h | h | h <;> simp [h]
  case noRecord =>
    intro s d step hnone
    simp only [exec, execCupIncompleteTimeout, hnone]
  case differs =>
    intro s m q hchecks hdomain hcoll hnode hothers hdiffer hroom
    refine ⟨_, execCupShardDigestsRx_single hchecks hdomain hcoll hnode, ?_⟩
    rw [State.endCheck_of_waiting hothers, State.differTold, if_pos hdiffer]
    exact ⟨State.report_ks_cupChecks .., State.told_report (s.modKs fun k => { k with cupChecks := [q.take m] }) .kresia 0x9023 _ _ _ _ hroom⟩
  case noCheck =>
    intro s m hnone
    simp only [exec, execCupShardDigestsRx, hnone]
  case last =>
    intro s m q tk hchecks hdomain hcoll hwaiting htaken
    have hnode : m.node ∈ q.waiting := by rw [hwaiting]; exact List.mem_cons_self
    have hnone : (q.take m).waiting.isEmpty = true := by simp [CupCheck.take, hwaiting]
    have htold : ((s.modKs fun k => { k with cupChecks := [q.take m] }).differTold m q).ks.cupChecks = [q.take m] ∧
        (((s.modKs fun k => { k with cupChecks := [q.take m] }).differTold m q).mslot .kresia q.mailbox q.mslot).taken = some tk := by
      unfold State.differTold
      split_ifs
      · exact ⟨State.report_ks_cupChecks .., (congrArg (·.taken) (State.mslot_report (s := s.modKs _) .kresia _ _ _ _ _ q.mailbox q.mslot)).trans htaken⟩
      · exact ⟨rfl, htaken⟩
    refine ⟨_, execCupShardDigestsRx_single hchecks hdomain hcoll hnode, ?_⟩
    generalize (s.modKs fun k => { k with cupChecks := [q.take m] }).differTold m q = u at htold
    obtain ⟨hkept, htaken'⟩ := htold
    rw [State.endCheck, if_pos hnone]
    refine ⟨State.complete_answered _ .kresia _ _ 0 _ [] tk htaken', (State.complete_ks_cupChecks ..).trans ?_⟩
    show u.ks.cupChecks.filter _ = []
    rw [hkept]
    simp
  case same =>
    intro s m q hchecks hdomain hcoll hnode hothers hsame
    rw [execCupShardDigestsRx_single hchecks hdomain hcoll hnode, State.endCheck_of_waiting hothers, State.differTold,
      if_neg (by omega)]

end Sys2Proof.Machine

/-! The proof of O48: counter and histogram configurations, LATCH and CLEAR (R357 to R360). -/

namespace Sys2Proof.Machine

section
variable {s : State} {p : Part} {v : View} {a k i : Nat} {w : Word}

/-! ### Which configurations are stored (R357, R360) -/

section
variable {c : Ctr}

theorem State.putCtr_foreign (hk : k ≠ 0) (hevent : tenantEvent c.event = false) : s.putCtr p k i c = s.bankCode p k 0x2041 :=
  if_pos (by simp [hk, hevent])

variable (hevent : k = 0 ∨ tenantEvent c.event = true)
include hevent

theorem not_foreign : ¬ (decide (k ≠ 0) && !tenantEvent c.event) = true := by
  rcases hevent with h | h <;> simp [h]

theorem State.putCtr_noPort (hport : c.portEn = true) (hbound : s.portsOf p ≤ c.port) : s.putCtr p k i c = s.bankCode p k 0x2040 := by
  rw [State.putCtr, if_neg (not_foreign hevent), if_pos (by simp [hport, hbound])]

theorem State.putCtr_coded (hport : c.portEn = false ∨ c.port < s.portsOf p) :
    s.putCtr p k i c = match ctrCode p c.event c.mode c.portEn c.domEn c.clsEn (if 2 ≤ c.mode then c.thresh else 0) with
      | some code => s.bankCode p k code
      | none => s.modBank p k fun b => { b with ctrs := FMap.set b.ctrs i c } := by
  have hport' : ¬ (c.portEn && decide (s.portsOf p ≤ c.port)) = true := by
    rcases hport with h | h
    · simp [h]
    · simp [Nat.not_le.mpr h]
  rw [State.putCtr, if_neg (not_foreign hevent), if_neg hport'] <;> rfl

end

section
variable {h : Hist} {x y z : Bool}

theorem State.putHist_refused (hlatency : latency p h.event = some (x, y, z))
    (hfilter : (h.portEn = true ∧ (x = false ∨ s.portsOf p ≤ h.port)) ∨ (h.domEn = true ∧ y = false) ∨ (h.clsEn = true ∧ z = false)) :
    s.putHist p k i h = s.bankCode p k 0x2040 := by
  simp only [State.putHist, hlatency]
  refine if_pos ?_
  simpa [or_assoc] using hfilter

theorem State.putHist_stored (hlatency : latency p h.event = some (x, y, z))
    (hport : h.portEn = false ∨ x = true ∧ h.port < s.portsOf p) (hdom : h.domEn = false ∨ y = true)
    (hcls : h.clsEn = false ∨ z = true) :
    s.putHist p k i h = s.modBank p k fun b => { b with hists := FMap.set b.hists i h } := by
  simp only [State.putHist, hlatency]
  refine if_neg ?_
  simp only [Bool.or_eq_true, Bool.and_eq_true, Bool.not_eq_true', decide_eq_true_eq, not_or, not_and, Bool.not_eq_false]
  refine ⟨⟨fun hen => ?_, fun hen => hdom.resolve_left (by simp [hen])⟩, fun hen => hcls.resolve_left (by simp [hen])⟩
  obtain ⟨hx, hlt⟩ := hport.resolve_left (by simp [hen])
  exact ⟨hx, Nat.not_le.mpr hlt⟩

end

/-! ### LATCH and CLEAR (R359) -/

/-- R359: what a control word does to a bank, its overflow mark apart. -/
theorem State.ctrControl_bank {off : Nat} (hbank : ctrBankAt p v a = some (k, off)) :
    ∃ b : CtrBank, (s.ctrControl p v a w).bank p k = b ∧ (s.ctrControl p v a w).out = s.out ∧
      (let b1 := if w.get 0 1 = 1 then (s.bank p k).latch else s.bank p k
       let b2 := if w.get 1 1 = 1 then b1.clear else b1
       b.ctrs = b2.ctrs ∧ b.hists = b2.hists ∧ b.latched = b2.latched) := by
  refine ⟨_, rfl, ?_, ?_⟩
  · simp only [State.ctrControl, hbank, State.modBank_out]
  · simp only [State.ctrControl, hbank, State.bank_modBank]
    split <;> split_ifs <;> exact ⟨rfl, rfl, rfl⟩

end

/-- Settles O48: configurations and control words case by case as R357 to R360 list them. -/
theorem countersConfiguredLatchedCleared : Obligations.CountersConfiguredLatchedCleared := by
  unfold Obligations.CountersConfiguredLatchedCleared
  refine ⟨?stored, ?foreign, ?noPort, ?noWord, ?histRefused, ?coded, ?noLatency, ?histStored, ?latch, ?noLatch, ?clear, ?both, ?noClear,
    ?clearNoBank, ?noBank⟩
  case stored =>
    intro s p v a w k off i j hbank hword hevent hport hcode
    have hexec : exec (.ctrCfgWrite p v a w) s = .next (s.modBank p k fun b => { b with
        ctrs := FMap.set b.ctrs i (Ctr.written p (decide (k ≠ 0)) (FMap.getD (s.bank p k).ctrs i {}) j w) }) := by
      simp only [exec, execCtrCfgWrite, hbank, hword]
      rw [State.putCtr_coded hevent hport, hcode]
    have hmod := State.bank_modBank s p k fun b => { b with
        ctrs := FMap.set b.ctrs i (Ctr.written p (decide (k ≠ 0)) (FMap.getD (s.bank p k).ctrs i {}) j w) }
    exact ⟨_, hexec, congrArg (·.ctrs) hmod, congrArg (·.hists) hmod, congrArg (·.lastCode) hmod, State.modBank_out ..⟩
  case foreign =>
    intro s p v a w k off i j hbank hword hk hevent
    simp only [exec, execCtrCfgWrite, hbank, hword]
    rw [State.putCtr_foreign hk hevent]
  case noPort =>
    intro s p v a w k off i j hbank hword hevent hport hbound
    simp only [exec, execCtrCfgWrite, hbank, hword]
    rw [State.putCtr_noPort hevent hport hbound]
  case noWord =>
    intro s p v a w k off hbank hword
    simp only [exec, execCtrCfgWrite, hbank, hword]
  case histRefused =>
    intro s p v a w k off i j x y z hbank hword hlatency hfilter
    simp only [exec, execCtrCfgWrite, hbank, hword, State.putHist_refused hlatency hfilter]
  case coded =>
    intro s p v a w k off i j c hbank hword hevent hport hcode
    simp only [exec, execCtrCfgWrite, hbank, hword]
    rw [State.putCtr_coded hevent hport, hcode]
  case noLatency =>
    intro s p v a w k off i j hbank hword hlatency
    simp only [exec, execCtrCfgWrite, hbank, hword, State.putHist, hlatency]
  case histStored =>
    intro s p v a w k off i j x y z hbank hword hlatency hport hdom hcls
    simp only [exec, execCtrCfgWrite, hbank, hword, State.putHist_stored hlatency hport hdom hcls]
  case latch =>
    intro s p v a w k off hbank hlatch hclear
    obtain ⟨b, hb, hout, hctrs, hhists, hlatched⟩ := State.ctrControl_bank (s := s) (w := w) hbank
    refine ⟨_, if_pos hlatch, ?_, ?_, ?_, hout⟩ <;> rw [hb]
    · rw [hlatched, hlatch, hclear]; rfl
    · rw [hctrs, hlatch, hclear]; rfl
    · rw [hhists, hlatch, hclear]; rfl
  case noLatch =>
    intro s p v a w hlatch
    exact if_neg (by omega)
  case clear =>
    intro s p v a w k off hbank hclear hlatch
    obtain ⟨b, hb, hout, hctrs, hhists, hlatched⟩ := State.ctrControl_bank (s := s) (w := w) hbank
    refine ⟨_, if_pos hclear, ?_, ?_, ?_, hout⟩ <;> rw [hb]
    · rw [hctrs, hlatch, hclear]; rfl
    · rw [hhists, hlatch, hclear]; rfl
    · rw [hlatched, hlatch, hclear]; rfl
  case both =>
    intro s p v a w k off hbank hclear hlatch
    obtain ⟨b, hb, hout, hctrs, hhists, hlatched⟩ := State.ctrControl_bank (s := s) (w := w) hbank
    refine ⟨_, if_pos hclear, ?_, ?_, ?_, hout⟩ <;> rw [hb]
    · rw [hctrs, hlatch, hclear]; rfl
    · rw [hhists, hlatch, hclear]; rfl
    · rw [hlatched, hlatch, hclear]; rfl
  case noClear =>
    intro s p v a w hclear
    exact if_neg (by omega)
  case clearNoBank =>
    intro s p v a w hbank hclear
    simp only [exec, execCtrClear, hclear, if_true, State.ctrControl, hbank]
  case noBank =>
    intro s p v a w hbank hlatch
    exact ⟨by simp only [exec, execCtrCfgWrite, hbank], by simp only [exec, execCtrLatch, hlatch, if_true, State.ctrControl, hbank]⟩

end Sys2Proof.Machine

/-! The proof of O49: snapshots on a tick and tags (R362 to R366). -/

namespace Sys2Proof.Machine

section
variable {s : State} {p : Part} {x : SnapMsg} {g : Image} {sels : List Selector} {n : Nat}

/-! ### A SNAP taken once (R362) -/

theorem TimeUnit.mkDue_ot (u : TimeUnit) (o : OT) : (u.mkDue o).ot = o := by
  unfold TimeUnit.mkDue
  split
  · unfold Due.reconvert
    split_ifs <;> rfl
  · rfl

theorem State.takeSnap_seen (hseen : (x.domain, x.epoch, x.step, x.set) ∈ (s.pc p).ctr.snapSeen) : s.takeSnap p x sels n = s :=
  if_pos (by simpa using hseen)

/-- R362: what a part keeps of a SNAP it has not seen. -/
def State.snapNoted (s : State) (p : Part) (x : SnapMsg) : State :=
  s.modCtr p fun c => { c with snapSeen := c.snapSeen ++ [(x.domain, x.epoch, x.step, x.set)] }

/-- R362: the arm of a SNAP. -/
def State.snapArm (s : State) (p : Part) (x : SnapMsg) (sels : List Selector) (n : Nat) : SnapArm :=
  { domain := x.domain, epoch := x.epoch, step := x.step, set := x.set, due := (s.pc p).time.mkDue x.t, sels := sels, tenant := n }

theorem State.takeSnap_unseen (hseen : (x.domain, x.epoch, x.step, x.set) ∉ (s.pc p).ctr.snapSeen) :
    s.takeSnap p x sels n =
      if x.t.malformed then (s.snapNoted p x).emit (.refused p 0x1003)
      else if (s.pc p).time.state = .unset ∨ 0 ≤ otDiff (s.pc p).time.now x.t then
        (s.snapNoted p x).capture p (s.snapArm p x sels n) (s.pc p).time.raw true
      else if (s.pc p).time.dueCode x.t = some 0x1001 then (s.snapNoted p x).emit (.refused p 0x1001)
      else (s.snapNoted p x).modCtr p fun c => { c with snapArms := c.snapArms ++ [s.snapArm p x sels n] } := by
  rw [State.takeSnap, if_neg (by simpa using hseen)]
  simp only [Bool.or_eq_true, decide_eq_true_eq]
  rfl

theorem execSnapRx_kresia (hepoch : (s.dom x.domain).epoch ≤ x.epoch) (himage : (s.dom x.domain).imageFor x.step = some g) :
    exec (.snapRx .kresia x) s = .next (s.takeSnap .kresia x (selsOf g x.set .kresia) 0) := by
  simp only [exec, execSnapRx, Nat.not_lt.mpr hepoch, if_false, himage]

/-! ### Records retire in order (R364) -/

/-- R364: a store of snapshot records after a retire. -/
def SnapStore.retired (st : SnapStore) (seq : Word) : SnapStore :=
  match st.recs with
  | r :: t => if BitVec.ofNat 32 r.snapSeq = seq then { st with recs := t } else { st with mismatch := true }
  | [] => { st with mismatch := true }

theorem execSnapRetire_store (v : View) (seq : Word) :
    ∃ t, exec (.snapRetire p v seq) s = .next t ∧
      t.snapStore p (s.snapStoreKey p v) = (s.snapStore p (s.snapStoreKey p v)).retired seq ∧ t.out = s.out := by
  refine ⟨s.modCtr p fun u => { u with stores := FMap.update u.stores (s.snapStoreKey p v) {} (SnapStore.retired · seq) }, rfl, ?_,
    by cases p <;> rfl⟩
  cases p
  · exact FMap.getD_update_self s.bx.c.ctr.stores (s.snapStoreKey .baxel v) {} (SnapStore.retired · seq)
  · exact FMap.getD_update_self s.ks.c.ctr.stores (s.snapStoreKey .kresia v) {} (SnapStore.retired · seq)

end

/-- Settles O49: SNAPs, captures, records and tags case by case as R362 to R366 list them. -/
theorem snapshotsAndTags : Obligations.SnapshotsAndTags := by
  unfold Obligations.SnapshotsAndTags
  refine ⟨?unbound, ?bxOld, ?ksOld, ?seen, ?armed, ?refused, ?late, ?bxTakes, ?capture, ?noneDue, ?retires, ?mismatch, ?rates, ?badRates,
    ?seed, ?mask, ?pop⟩
  case unbound =>
    intro s x hten
    simp only [exec, execSnapRx, hten]
  case bxOld =>
    intro s x t hten hold
    simp only [exec, execSnapRx, hten, hold, if_true]
  case ksOld =>
    intro s x hold
    simp only [exec, execSnapRx, hold, if_true]
  case seen =>
    intro s x g hepoch himage hseen
    rw [execSnapRx_kresia hepoch himage, State.takeSnap_seen hseen]
  case armed =>
    intro s x g hepoch himage hseen hformed hset hahead hcode
    have htake : s.takeSnap .kresia x (selsOf g x.set .kresia) 0 = (s.snapNoted .kresia x).modCtr .kresia fun c => { c with
        snapArms := c.snapArms ++ [s.snapArm .kresia x (selsOf g x.set .kresia) 0] } := by
      rw [State.takeSnap_unseen hseen, if_neg (by simp [hformed]), if_neg]
      · exact if_neg hcode
      · rintro (h | h)
        · exact hset h
        · exact absurd h (Int.not_le.mpr hahead)
    refine ⟨_, (execSnapRx_kresia hepoch himage).trans (congrArg Host.Outcome.next htake), rfl, ?_, rfl, rfl⟩
    show List.map _ (s.ks.c.ctr.snapArms ++ [_]) = _
    rw [List.map_append, List.map_singleton]
    simp only [State.snapArm, TimeUnit.mkDue_ot]
  case refused =>
    intro s x g hepoch himage hseen h
    rw [execSnapRx_kresia hepoch himage, State.takeSnap_unseen hseen]
    cases hformed : x.t.malformed with
    | true => rfl
    | false =>
      obtain ⟨hset, hahead, hcode⟩ := h.resolve_left (by simp [hformed])
      rw [if_neg Bool.false_ne_true, if_neg]
      · exact congrArg Host.Outcome.next (if_pos hcode)
      · rintro (h | h)
        · exact hset h
        · exact absurd h (Int.not_le.mpr hahead)
  case late =>
    intro s x g hepoch himage hseen hformed h
    rw [execSnapRx_kresia hepoch himage, State.takeSnap_unseen hseen, if_neg (by simp [hformed])]
    exact congrArg Host.Outcome.next (if_pos h)
  case bxTakes =>
    intro s x n hten hepoch
    simp only [exec, execSnapRx, hten, Nat.not_lt.mpr hepoch, if_false]
  case capture =>
    intro s p a hfind
    simp only [exec, execSnapCapture, hfind]
  case noneDue =>
    intro s p hfind
    simp only [exec, execSnapCapture, hfind]
  case retires =>
    intro s p v r l hrecs
    obtain ⟨t, hexec, hstore, hout⟩ := execSnapRetire_store (s := s) (p := p) v (BitVec.ofNat 32 r.snapSeq)
    refine ⟨t, hexec, ?_, ?_, hout⟩ <;> rw [hstore, SnapStore.retired, hrecs] <;> simp
  case mismatch =>
    intro s p v seq hhead
    obtain ⟨t, hexec, hstore, hout⟩ := execSnapRetire_store (s := s) (p := p) v seq
    have hmark : (s.snapStore p (s.snapStoreKey p v)).retired seq = { s.snapStore p (s.snapStoreKey p v) with mismatch := true } := by
      unfold SnapStore.retired
      split
      · next r l hrecs =>
        rw [if_neg]
        intro heq
        exact hhead (by rw [hrecs, List.head?_cons, Option.map_some, heq])
      · rfl
    exact ⟨t, hexec, by rw [hstore, hmark], by rw [hstore, hmark], hout⟩
  case rates =>
    intro s p w hok
    simp only [exec, execTagCfgWrite, if_true, hok] <;> rfl
  case badRates =>
    intro s p w hok
    simp only [exec, execTagCfgWrite, if_true, hok, Bool.false_eq_true, if_false]
  case seed =>
    intro s p w
    simp [exec, execTagCfgWrite]
  case mask =>
    intro s p w
    simp only [exec, execTagCfgWrite, Nat.add_eq_left, OfNat.ofNat_ne_zero, if_false, Nat.add_left_cancel_iff, Nat.reduceEqDiff, if_true] <;>
      rfl
  case pop =>
    intro s p n
    rfl

end Sys2Proof.Machine

/-! What a port of a Kresia that leaves service sets off leaves its standing as it is: whether it tripped (R438) and the fences it
keeps (R315). -/

namespace Sys2Proof.Machine

section
variable {s : State} {d : Nat}

/-- What a Kresia knows of itself and others whatever its ports do: the mark of a thermal trip, and the fences it keeps. -/
def State.standing (s : State) : Bool × FMap (Nat × Bool) := (s.ks.tripped, s.ks.fences)

@[simp] theorem State.count_standing (e : Ev) (n : Nat) : (s.count e n).standing = s.standing := by simp [State.standing]

@[simp] theorem State.tally_standing (e : Ev) (n : Nat) : (s.tally e n).standing = s.standing := by simp [State.standing]

@[simp] theorem State.modCtr_standing (f : CtrUnit → CtrUnit) : (s.modCtr .kresia f).standing = s.standing := rfl

@[simp] theorem State.setFld_standing (a lo len v : Nat) : (s.setFld .kresia a lo len v).standing = s.standing := rfl

@[simp] theorem State.setBit_standing (a i : Nat) (v : Bool) : (s.setBit .kresia a i v).standing = s.standing := rfl

@[simp] theorem State.modLp_standing (n : Nat) (f : LinkPort → LinkPort) : (s.modLp .kresia n f).standing = s.standing := rfl

@[simp] theorem State.sample_standing (ev : Nat) (dt : Int) (port ten dom cls : Option Nat) :
    (s.sample .kresia ev dt port ten dom cls).standing = s.standing := by simp [State.standing]

@[simp] theorem State.report_standing (code : Code) (dt : List Nat) (port : Nat) (sub dom : Option Nat) :
    (s.report .kresia code dt port sub dom).standing = s.standing := by simp [State.standing]

@[simp] theorem State.emit_standing (o : Out) : (s.emit o).standing = s.standing := rfl

theorem State.standing_congr {t : State} (h : t.ks = s.ks) : t.standing = s.standing := by
  rw [State.standing, h, State.standing]

/-! ### Tags, packets and transfers -/

@[simp] theorem State.tagWrite_standing (x : TagRec) : (s.tagWrite .kresia x).standing = s.standing := by
  unfold State.tagWrite State.modTags
  split_ifs <;> simp

@[simp] theorem State.tagEnd_standing (r : TagRec) (b : Bool) : (s.tagEnd r b).standing = s.standing := by
  unfold State.tagEnd
  split
  · exact State.tagWrite_standing _
  · rfl

@[simp] theorem State.tagStage_standing (r : TagRec) (i : Nat) : (s.tagStage r i).standing = s.standing := by
  unfold State.tagStage
  split
  · split_ifs <;> rfl
  · rfl

@[simp] theorem State.tagPacket_standing (n : Nat) (q : QEntry) (first : Option Raw) (lseq : Nat) (b : Bool) :
    (s.tagPacket .kresia n q first lseq b).standing = s.standing := by
  unfold State.tagPacket
  split
  · exact State.tagWrite_standing _
  · rfl

@[simp] theorem State.giveBackOf_standing (q : QEntry) : (s.giveBackOf .kresia q).standing = s.standing := by
  unfold State.giveBackOf State.giveBackDom State.giveBack
  split <;> rfl

@[simp] theorem State.sendByRoute_standing (m : RsigSend) (v2 : Bool) : (s.sendByRoute m v2).standing = s.standing := by
  unfold State.sendByRoute
  dsimp only
  split_ifs <;> exact State.standing_congr (by simp [State.foldl_emit_ks])

@[simp] theorem State.launchJob_standing (j : SendJob) : (s.launchJob j).standing = s.standing := by
  unfold State.launchJob
  extract_lets j' t x v2 s1 s2
  have h2 : s2.standing = s.standing := by
    dsimp only [s2]
    have h1 : s1.standing = s.standing := rfl
    split_ifs <;> simp only [State.count_standing, h1]
  rw [State.sendByRoute_standing, h2]

@[simp] theorem State.startJob_standing (j : SendJob) : (s.startJob j).standing = s.standing := by
  unfold State.startJob
  split_ifs
  · simp
  · rfl

@[simp] theorem State.sendMembers_ks (l : List Nat) (k : Nat) (m : Msg) : (s.sendMembers d l k m).ks = s.ks :=
  List.foldlRecOn (motive := fun u : State => u.ks = s.ks) _ _ rfl fun _ hu _ _ => hu

@[simp] theorem State.sendMembers_standing (l : List Nat) (k : Nat) (m : Msg) : (s.sendMembers d l k m).standing = s.standing :=
  State.standing_congr (State.sendMembers_ks l k m)

@[simp] theorem State.resendTo_standing (member plane : Nat) : (s.resendTo member plane).standing = s.standing := by
  refine List.foldlRecOn (motive := fun u : State => u.standing = s.standing) _ _ rfl fun u hu q _ => ?_
  obtain ⟨key, j⟩ := q
  dsimp only
  split_ifs
  · exact hu
  · split
    · split_ifs
      · exact hu
      · exact (State.launchJob_standing j).trans hu
      · exact (State.sendByRoute_standing _ _).trans hu
    · exact hu

/-! ### Chunks -/

@[simp] theorem State.modChunk_standing (ix : Nat) (f : ChunkEntry → ChunkEntry) : (s.modChunk ix f).standing = s.standing := by
  unfold State.modChunk
  split <;> rfl

@[simp] theorem State.markHwm_standing : s.markHwm.standing = s.standing := by
  simp [State.markHwm]

@[simp] theorem State.failChunk_standing (ix : Nat) (code : Code) : (s.failChunk ix code).standing = s.standing := by
  unfold State.failChunk
  split
  · exact (State.tagEnd_standing _ _).trans (by simp [State.freeSlots])
  · rfl

@[simp] theorem State.resetChunk_standing (g : Image) (ix restart : Nat) : (s.resetChunk g ix restart).standing = s.standing := by
  unfold State.resetChunk
  split
  · dsimp only
    rw [State.markHwm_standing, State.modChunk_standing]
    split_ifs <;> simp
  · rfl

@[simp] theorem State.restartChunk_standing (ix : Nat) (g : Image) (lost : Nat) : (s.restartChunk ix g lost).standing = s.standing := by
  unfold State.restartChunk
  split
  · split_ifs
    · rfl
    · simp
    · dsimp only
      rw [State.sendMembers_standing]
      exact (State.count_standing _ _).trans (State.resetChunk_standing _ _ _)
  · rfl

@[simp] theorem State.noteBase_standing (g : Image) (c role step : Nat) : (s.noteBase g d c role step).standing = s.standing := by
  unfold State.noteBase State.sendBase
  dsimp only
  split_ifs
  · rw [State.sendMembers_standing]
    rfl
  · rw [State.sendMembers_standing]
    rfl
  · rfl

@[simp] theorem State.closeChunk_standing (g : Image) (c k role step restart : Nat) :
    (s.closeChunk g d c k role step restart).standing = s.standing := State.noteBase_standing g c role step

@[simp] theorem State.dropChunk_standing (ix : Nat) (b : Bool) : (s.dropChunk ix b).standing = s.standing := by
  unfold State.dropChunk
  split
  · exact (State.tagEnd_standing _ _).trans (State.tagStage_standing _ _)
  · rfl

@[simp] theorem State.closeLeaf_standing (ix : Nat) (g : Image) : (s.closeLeaf ix g).standing = s.standing := by
  unfold State.closeLeaf
  split
  · split_ifs <;> simp
  · rfl

@[simp] theorem State.toHome_standing (ix : Nat) (g : Image) (e : ChunkEntry) (ps : List ChunkPacket) :
    (s.toHome ix g e ps).standing = s.standing := by
  unfold State.toHome
  dsimp only
  split
  · split_ifs
    · exact List.foldlRecOn (motive := fun u : State => u.standing = s.standing) _ _ rfl fun _ hu _ _ => hu
    · simp
  · rfl

@[simp] theorem State.wide_standing (a n : Nat) : (s.wide a n).standing = s.standing := by simp [State.wide]

@[simp] theorem State.commitLeaf_standing (ix : Nat) (g : Image) (e : ChunkEntry) : (s.commitLeaf ix g e).standing = s.standing := by
  unfold State.commitLeaf
  dsimp only
  split_ifs <;> simp

@[simp] theorem State.cupAdd_standing (step kind : Nat) (terms : List (List Nat)) :
    (s.cupAdd d step kind terms).standing = s.standing := by
  unfold State.cupAdd
  dsimp only
  split_ifs
  · rfl
  · exact (State.count_standing _ _ : ((s.count _ _).standing) = _)

@[simp] theorem State.sendResult_standing (g : Image) (c k step : Nat) (bs : List Byte) :
    (s.sendResult d g c k step bs).standing = s.standing := by
  unfold State.sendResult
  dsimp only
  rw [State.sendMembers_standing]
  exact List.foldlRecOn (motive := fun u : State => u.standing = s.standing) _ _ rfl fun _ hu _ _ =>
    (State.startJob_standing _).trans hu

@[simp] theorem State.finishHome_standing (ix : Nat) (e : ChunkEntry) (g : Image) (bs : List Byte) (l : List (Nat × Nat)) :
    (s.finishHome ix e g bs l).standing = s.standing := by
  unfold State.finishHome
  extract_lets dom s1 s2 s3
  have h2 : s2.standing = s.standing := (State.sendResult_standing ..).trans (State.cupAdd_standing ..)
  have h3 : s3.standing = s.standing := h2
  rw [State.closeChunk_standing, State.dropChunk_standing, h3]

@[simp] theorem State.enqueueBlock_standing (g : Image) (c k step : Nat) : (s.enqueueBlock d g c k step).standing = s.standing := by
  unfold State.enqueueBlock
  dsimp only
  split
  · split_ifs <;> rfl
  · rfl

@[simp] theorem State.commitHome_standing (ix : Nat) (g : Image) (e : ChunkEntry) : (s.commitHome ix g e).standing = s.standing := by
  unfold State.commitHome
  extract_lets d s1 s2 s3 r s4
  have h3 : s3.standing = s.standing := by
    have h1 : s1.standing = s.standing := by simp [s1]
    rw [State.cupAdd_standing]
    dsimp only [s2]
    split_ifs
    · exact h1
    · exact h1
  split_ifs
  · rw [State.enqueueBlock_standing, h3]
  · rw [State.finishHome_standing, State.count_standing, State.wide_standing]
    exact List.foldlRecOn (motive := fun u : State => u.standing = s.standing) _ _ h3 fun _ hu _ _ =>
      (State.count_standing _ _).trans hu

@[simp] theorem State.tryCommit_standing (ix : Nat) (g : Image) : (s.tryCommit ix g).standing = s.standing := by
  unfold State.tryCommit
  split
  · dsimp only
    split_ifs <;> simp
  · rfl

/-! ### A port that leaves service -/

@[simp] theorem State.flushPort_standing (n : Nat) : (s.flushPort .kresia n).standing = s.standing := by
  unfold State.flushPort
  extract_lets x qs cells s1 s1' s2
  have h0 : s1.standing = s.standing := by
    refine State.modLedger_tallies (P := fun u => u.standing = s.standing) _ (fun u e k hu => ?_) rfl
    rw [State.tally_standing, hu]
  have h1 : s1'.standing = s.standing := by
    refine List.foldlRecOn (motive := fun u : State => u.standing = s.standing) _ _ ?_ fun u hu q _ =>
      List.foldlRecOn (motive := fun u : State => u.standing = s.standing) _ _ hu fun v hv e _ =>
        (State.tagPacket_standing ..).trans hv
    exact List.foldlRecOn (motive := fun u : State => u.standing = s.standing) _ _ h0 fun v hv e _ =>
      (State.tagPacket_standing ..).trans hv
  have h2 : s2.standing = s.standing :=
    List.foldlRecOn (motive := fun u : State => u.standing = s.standing) _ _ h1 fun v hv q _ =>
      (State.giveBackOf_standing q).trans hv
  split_ifs
  · exact h2
  · rw [State.count_standing, h2]

@[simp] theorem State.planeNote_standing (b : Bool) (n : PlaneNotice) : (s.planeNote b n).standing = s.standing := by
  unfold State.planeNote
  dsimp only
  split_ifs <;> rfl

@[simp] theorem State.leaveService_standing (n : Nat) (code : Code) : (s.leaveService .kresia n code).standing = s.standing := by
  unfold State.leaveService
  extract_lets x wasUp s1 s2
  have h2 : s2.standing = s.standing := by simp [s2, s1, State.lkCode, State.lkState]
  split_ifs
  · exact h2
  · split
    · split_ifs
      · rw [State.planeNote_standing, h2]
      · exact h2
    · next h _ => cases h
    · exact h2

theorem State.v2Lost_ks (member : Nat) : (s.v2Lost member).ks = s.ks := by
  refine List.foldlRecOn (motive := fun u : State => u.ks = s.ks) _ _ rfl fun u hu q _ => ?_
  obtain ⟨d, x⟩ := q
  dsimp only
  split
  · refine List.foldlRecOn (motive := fun u : State => u.ks = s.ks) _ _ hu fun v hv n _ => ?_
    unfold State.v2LostIn
    exact List.foldlRecOn (motive := fun u : State => u.ks = s.ks) _ _ hv fun w hw c _ =>
      List.foldlRecOn (motive := fun u : State => u.ks = s.ks) _ _ hw fun _ hz _ _ => hz
  · exact hu

theorem State.dspV2Lost_ks (member : Nat) : (s.dspV2Lost member).ks = s.ks := by
  refine List.foldlRecOn (motive := fun u : State => u.ks = s.ks) _ _ rfl fun u hu q _ => ?_
  dsimp only
  split
  · exact hu
  · refine List.foldlRecOn (motive := fun u : State => u.ks = s.ks) _ _ hu fun v hv n _ => ?_
    split_ifs <;> exact hv

@[simp] theorem State.chunkPortLeft_standing (n : Nat) : (s.chunkPortLeft n).standing = s.standing := by
  refine List.foldlRecOn (motive := fun u : State => u.standing = s.standing) _ _ rfl fun u hu q _ => ?_
  obtain ⟨ix, e⟩ := q
  dsimp only
  split
  · exact hu
  · split
    · exact hu
    · split
      · split
        · exact (State.restartChunk_standing _ _ _).trans hu
        · exact hu
      · split
        · exact (State.tryCommit_standing _ _).trans ((State.modChunk_standing _ _).trans hu)
        · exact hu

theorem State.noteV2Lost_standing (member : Nat) : (s.noteV2Lost member).standing = s.standing := by
  unfold State.noteV2Lost
  dsimp only
  split_ifs <;> rfl

@[simp] theorem State.portGone_standing (n : Nat) (code : Code) : (s.portGone .kresia n code).standing = s.standing := by
  unfold State.portGone State.afterPort State.afterPortKs
  split_ifs
  · dsimp only
    split
    · split_ifs
      · rw [State.resendTo_standing, State.chunkPortLeft_standing, State.standing_congr (State.dspV2Lost_ks _), State.standing_congr (State.v2Lost_ks _), State.noteV2Lost_standing,
          State.leaveService_standing]
      · rw [State.chunkPortLeft_standing, State.leaveService_standing]
    · rw [State.chunkPortLeft_standing, State.leaveService_standing]
  · rw [State.leaveService_standing]

/-- R438: no port's end takes the mark of a thermal trip. -/
theorem State.portGone_ks_tripped (n : Nat) (code : Code) : (s.portGone .kresia n code).ks.tripped = s.ks.tripped :=
  congrArg Prod.fst (State.portGone_standing n code)

/-- R315: no port's end changes the fences kept. -/
theorem State.portGone_ks_fences (n : Nat) (code : Code) : (s.portGone .kresia n code).ks.fences = s.ks.fences :=
  congrArg Prod.snd (State.portGone_standing n code)

end

end Sys2Proof.Machine

/-! What a port of a Baxel that leaves service sets off leaves the mark of a lost reference clock as it is (R405). -/

namespace Sys2Proof.Machine

section
variable {s : State}

/-! ### Tags, packets and transfers -/

@[simp] theorem State.tagPacket_bx_refclkLost (n : Nat) (q : QEntry) (first : Option Raw) (lseq : Nat) (b : Bool) :
    (s.tagPacket .baxel n q first lseq b).bx.refclkLost = s.bx.refclkLost := by
  unfold State.tagPacket State.tagWrite State.modTags
  split
  · split <;> simp
  · rfl

@[simp] theorem State.giveBackOf_bx_refclkLost (q : QEntry) : (s.giveBackOf .baxel q).bx.refclkLost = s.bx.refclkLost := by
  unfold State.giveBackOf State.giveBackDom State.giveBack
  split <;> simp

@[simp] theorem State.intoPlane_bx (plane : Nat) (m : Msg) : (s.intoPlane plane m).bx = s.bx := by
  unfold State.intoPlane
  split <;> rfl

@[simp] theorem State.sendOnPlanes_bx (m : RsigSend) (via : List Nat) (v2 : Bool) (f : Nat → Bool) :
    (s.sendOnPlanes m via v2 f).bx = s.bx := by
  unfold State.sendOnPlanes
  extract_lets src s1
  have h1 : s1.bx = s.bx := List.foldlRecOn (motive := fun u : State => u.bx = s.bx) _ _ rfl fun u hu i _ => by
    split
    · exact (State.intoPlane_bx _ _).trans hu
    · exact hu
  split
  · exact (State.intoPlane_bx _ _).trans h1
  · exact h1

theorem State.bxLaunch_bx_refclkLost (m : RsigSend) : (s.bxLaunch m).bx.refclkLost = s.bx.refclkLost := by
  unfold State.bxLaunch
  dsimp only
  rw [State.sendOnPlanes_bx]
  rfl

@[simp] theorem State.resendOpen_bx_refclkLost (plane : Nat) : (s.resendOpen plane).bx.refclkLost = s.bx.refclkLost := by
  refine List.foldlRecOn (motive := fun u : State => u.bx.refclkLost = s.bx.refclkLost) _ _ rfl fun u hu x _ => ?_
  obtain ⟨key, x⟩ := x
  dsimp only [State.resendOne]
  split
  · exact hu
  · split
    · exact hu
    · split
      · exact (State.bxLaunch_bx_refclkLost _).trans hu
      · rw [State.sendOnPlanes_bx]
        exact hu

/-! ### Parts read and sent -/

@[simp] theorem State.askLines_bx_refclkLost (id n : Nat) : (s.askLines id n).bx.refclkLost = s.bx.refclkLost := by
  induction n generalizing s with
  | zero => rfl
  | succ n ih =>
    unfold State.askLines
    split
    · rfl
    · extract_lets a port
      split_ifs
      · rfl
      · rw [ih]
        rfl
      · rw [ih]
        rfl

@[simp] theorem State.startRead_bx_refclkLost (t a n : Nat) (use : ReadUse) :
    (s.startRead t a n use).bx.refclkLost = s.bx.refclkLost := State.askLines_bx_refclkLost _ _

@[simp] theorem State.readPart_bx_refclkLost (id : Nat) (x : BxPart) : (s.readPart id x).bx.refclkLost = s.bx.refclkLost := by
  unfold State.readPart
  dsimp only
  split
  · rfl
  · split
    · rfl
    · exact State.startRead_bx_refclkLost _ _ _ _

theorem State.serveQueue_bx_refclkLost (t pl c : Nat) : (s.serveQueue t pl c).1.bx.refclkLost = s.bx.refclkLost := by
  unfold State.serveQueue
  split
  · rfl
  · split
    · rfl
    · exact State.readPart_bx_refclkLost _ _

@[simp] theorem State.serveRound_bx_refclkLost (n : Nat) : (s.serveRound n).bx.refclkLost = s.bx.refclkLost := by
  induction n generalizing s with
  | zero => rfl
  | succ n ih =>
    unfold State.serveRound
    dsimp only
    have hfold : ∀ l : List (Nat × Nat × Nat), (l.foldl (fun ((s, any) : State × Bool) ((t, pl, c) : Nat × Nat × Nat) =>
        let (s', did) := s.serveQueue t pl c
        (s', any || did)) (s, false)).1.bx.refclkLost = s.bx.refclkLost := fun l =>
      List.foldlRecOn (motive := fun u : State × Bool => u.1.bx.refclkLost = s.bx.refclkLost) l _ rfl fun u hu q _ =>
        (State.serveQueue_bx_refclkLost _ _ _).trans hu
    split
    · exact ih.trans (hfold _)
    · exact hfold _

theorem State.sendPart_bx_refclkLost (id : Nat) (x : BxPart) (bs : List Byte) :
    (s.sendPart id x bs).bx.refclkLost = s.bx.refclkLost := by
  unfold State.sendPart
  extract_lets tn g plane
  split
  · rfl
  · extract_lets hd s1 s2 y
    have h1 : s1.bx = s.bx := State.foldl_emit_bx _ _ _
    clear_value s1
    have h2 : s2.bx.refclkLost = s.bx.refclkLost := (State.count_bx_refclkLost _ _ _).trans (congrArg _ h1)
    clear_value s2
    exact h2

@[simp] theorem State.sendReady_bx_refclkLost : s.sendReady.bx.refclkLost = s.bx.refclkLost := by
  refine List.foldlRecOn (motive := fun u : State => u.bx.refclkLost = s.bx.refclkLost) _ _ rfl fun u hu q _ => ?_
  obtain ⟨id, _⟩ := q
  dsimp only
  split
  · split
    · split
      · exact hu
      · exact (State.sendPart_bx_refclkLost _ _ _).trans hu
    · exact hu
  · exact hu

@[simp] theorem State.pumpParts_bx_refclkLost : s.pumpParts.bx.refclkLost = s.bx.refclkLost := by
  unfold State.pumpParts
  dsimp only
  rw [State.sendReady_bx_refclkLost, State.serveRound_bx_refclkLost]
  exact List.foldlRecOn (motive := fun u : State => u.bx.refclkLost = s.bx.refclkLost) _ _ rfl fun _ hu _ _ =>
    (State.readPart_bx_refclkLost _ _).trans hu

/-! ### A port that leaves service -/

theorem State.flushPort_bx_refclkLost (n : Nat) : (s.flushPort .baxel n).bx.refclkLost = s.bx.refclkLost := by
  unfold State.flushPort
  extract_lets x qs cells s1 s1' s2
  have h0 : s1.bx.refclkLost = s.bx.refclkLost := by
    refine State.modLedger_tallies (P := fun u => u.bx.refclkLost = s.bx.refclkLost) _ (fun u e k hu => ?_) rfl
    rw [State.tally_bx_refclkLost, hu]
  have h1 : s1'.bx.refclkLost = s.bx.refclkLost := by
    refine List.foldlRecOn (motive := fun u : State => u.bx.refclkLost = s.bx.refclkLost) _ _ ?_ fun u hu q _ =>
      List.foldlRecOn (motive := fun u : State => u.bx.refclkLost = s.bx.refclkLost) _ _ hu fun v hv e _ =>
        (State.tagPacket_bx_refclkLost ..).trans hv
    exact List.foldlRecOn (motive := fun u : State => u.bx.refclkLost = s.bx.refclkLost) _ _ h0 fun v hv e _ =>
      (State.tagPacket_bx_refclkLost ..).trans hv
  have h2 : s2.bx.refclkLost = s.bx.refclkLost :=
    List.foldlRecOn (motive := fun u : State => u.bx.refclkLost = s.bx.refclkLost) _ _ h1 fun v hv q _ =>
      (State.giveBackOf_bx_refclkLost q).trans hv
  split_ifs
  · exact h2
  · rw [State.count_bx_refclkLost, h2]

theorem State.leaveService_bx_refclkLost (n : Nat) (code : Code) :
    (s.leaveService .baxel n code).bx.refclkLost = s.bx.refclkLost := by
  unfold State.leaveService
  extract_lets x wasUp s1 s2
  have h2 : s2.bx.refclkLost = s.bx.refclkLost := by
    simp [s2, s1, State.lkCode, State.lkState, State.flushPort_bx_refclkLost]
  split_ifs
  · exact h2
  · split
    · next h _ => cases h
    · exact h2
    · exact h2

theorem State.dspPortLeft_bx_refclkLost (plane : Nat) : (s.dspPortLeft plane).bx.refclkLost = s.bx.refclkLost := by
  refine List.foldlRecOn (motive := fun u : State => u.bx.refclkLost = s.bx.refclkLost) _ _ rfl fun u hu t _ => ?_
  dsimp only
  refine List.foldlRecOn (motive := fun u : State => u.bx.refclkLost = s.bx.refclkLost) _ _ hu fun v hv p _ => ?_
  split
  · split
    · rw [State.count_bx_refclkLost]
      exact hv
    · exact hv
  · exact hv

theorem State.partPortLeft_bx_refclkLost (plane : Nat) : (s.partPortLeft plane).bx.refclkLost = s.bx.refclkLost := by
  unfold State.partPortLeft State.resendParts
  dsimp only
  rw [State.pumpParts_bx_refclkLost]
  rfl

@[simp] theorem State.portGone_bx_refclkLost (n : Nat) (code : Code) :
    (s.portGone .baxel n code).bx.refclkLost = s.bx.refclkLost := by
  unfold State.portGone State.afterPort State.afterPortBx
  split
  · dsimp only
    split
    · rw [State.resendOpen_bx_refclkLost, State.dspPortLeft_bx_refclkLost, State.partPortLeft_bx_refclkLost,
        State.leaveService_bx_refclkLost]
    · exact State.leaveService_bx_refclkLost n code
  · exact State.leaveService_bx_refclkLost n code

end

end Sys2Proof.Machine

/-! The proof of O50: resets, power, clocks, cooling and memory faults (R397, R405, R429, R438 to R446). -/

namespace Sys2Proof.Machine

section
variable {s : State}

/-! ### What goes out as a message -/

/-- What a state has sent, apart from pins, data and interrupts. -/
def sends (l : List Out) : List Out := l.filter fun o => match o with | .send .. => true | _ => false

theorem State.withdrawLp_sends (t i : Nat) (e : Slot) : sends (s.withdrawLp t i e).out = sends s.out := by
  unfold State.withdrawLp
  split_ifs <;> rfl

theorem State.slotVoid_sends (t i : Nat) : sends (s.slotVoid t i).out = sends s.out := State.withdrawLp_sends t i _

theorem State.slotVoid_count_sends (t i : Nat) (e : Ev) : sends ((s.slotVoid t i).count e).out = sends s.out := by
  rw [State.count_out, State.slotVoid_sends]

theorem State.voidUnfired_sends : sends s.voidUnfired.out = sends s.out := by
  refine List.foldlRecOn (motive := fun u : State => sends u.out = sends s.out) _ _ rfl fun u hu t _ => ?_
  refine List.foldlRecOn (motive := fun u : State => sends u.out = sends s.out) _ _ hu fun v hv q _ => ?_
  obtain ⟨i, e⟩ := q
  dsimp only
  split
  · exact (State.slotVoid_count_sends t i _).trans hv
  · exact (State.slotVoid_count_sends t i _).trans hv
  · exact (State.slotVoid_count_sends t i _).trans hv
  · exact (State.slotVoid_count_sends t i _).trans hv
  · exact hv

/-! ### Ports that go with a part's clock or cooling -/

theorem State.portsGone_tripped (l : List Nat) (code : Code) (htripped : s.ks.tripped = true) :
    (l.foldl (fun (s : State) (n : Nat) => s.portGone .kresia n code) s).ks.tripped = true :=
  List.foldlRecOn (motive := fun u : State => u.ks.tripped = true) _ _ htripped fun _ hu n _ =>
    (State.portGone_ks_tripped n code).trans hu

theorem State.portsGone_refclkLost (l : List Nat) (code : Code) (hlost : s.bx.refclkLost = true) :
    (l.foldl (fun (s : State) (n : Nat) => s.portGone .baxel n code) s).bx.refclkLost = true :=
  List.foldlRecOn (motive := fun u : State => u.bx.refclkLost = true) _ _ hlost fun _ hu n _ =>
    (State.portGone_bx_refclkLost n code).trans hu

theorem State.livePorts_report (p : Part) (code : Code) (dt : List Nat) (port : Nat) (sub dom : Option Nat) :
    (s.report p code dt port sub dom).livePorts p = s.livePorts p := by
  simp only [State.livePorts, State.lp_report]

theorem State.ks_link_report (p : Part) (code : Code) (dt : List Nat) (port : Nat) (sub dom : Option Nat) :
    (s.report p code dt port sub dom).ks.c.link = s.ks.c.link :=
  State.report_link s p code dt port sub dom .kresia

/-! ### The coolant and the memory errors (R440, R442) -/

/-- R440: what a coolant check out of range keeps. -/
def State.coolantWatched (s : State) (since : Raw) (tell : Bool) : State :=
  s.modKs fun k => { k with lastCoolant := some (s.raw .kresia), coolantSince := some since, coolantTold := k.coolantTold || tell }

theorem execCoolantCheck_outside {inlet : Int} {flow : Nat} (hdue : s.elapsed .kresia s.ks.lastCoolant (msGrains 100) = true)
    (hout : 40000 < inlet ∨ flow < 2000) (since : Raw) (hsince : s.ks.coolantSince.getD (s.raw .kresia) = since) (tell : Bool)
    (htell : (decide (msGrains 1000 ≤ Raw.diff (s.raw .kresia) since) && !s.ks.coolantTold) = tell) :
    exec (.coolantCheck inlet flow) s =
      .next (if tell then (s.coolantWatched since tell).report .kresia 0xB00C else s.coolantWatched since tell) := by
  subst htell hsince
  have hin : ¬ (decide (inlet ≤ 40000) && decide (2000 ≤ flow)) = true := by
    simp only [Bool.and_eq_true, decide_eq_true_eq, not_and]
    intro hle
    omega
  simp only [exec, execCoolantCheck, hdue, Bool.not_true, Bool.false_eq_true, if_false]
  rw [if_neg hin]
  rfl

/-- R442: the errors of a stack that a check counts, with the one now. -/
def State.stackErrors (s : State) (stack : Nat) : List Raw :=
  (FMap.getD s.ks.memErrors stack []).filter fun r => Raw.diff (s.raw .kresia) r ≤ msGrains 3600000

/-- R442: what a Kresia remembers of an error. -/
def State.stackErred (s : State) (stack : Nat) : State :=
  s.modKs fun k => { k with memErrors := FMap.set k.memErrors stack (s.stackErrors stack ++ [s.raw .kresia]) }

theorem execMemUncorrectable_eq {stack : Nat} (hstack : stack < 32) (training : Bool) :
    exec (.memUncorrectable stack training) s =
      if training || (decide ((s.stackErrors stack).length ≤ 16) && decide (16 < (s.stackErrors stack ++ [s.raw .kresia]).length)) then
        .next (((s.stackErred stack).modKs fun k => { k with memFailed := true }).report .kresia 0xB00B [stack])
      else .next (s.stackErred stack) := by
  simp only [exec, execMemUncorrectable, Nat.not_le.mpr hstack, if_false]
  rfl

/-! ### The end of reset -/

variable {y : KsStraps}

/-- R429: a Kresia whose straps have been sampled and drive its outputs. -/
def State.strapped (s : State) (y : KsStraps) : State :=
  ((s.modKs fun k => { k with strapFb := y.strapFb, pcieEn := y.pcieEn }).drivePins (fallbackPins y.strapFb)).wr .kresia 0x4
    (BitVec.ofNat 32 (y.node % 2 ^ 17 + y.node / 128 % 8 * 2 ^ 17))

theorem State.rd_strapped (y : KsStraps) :
    (s.strapped y).rd .kresia 0x4 = BitVec.ofNat 32 (y.node % 2 ^ 17 + y.node / 128 % 8 * 2 ^ 17) := State.rd_wr_self ..

theorem exec_resetDeassert_clocked (hends : s.resetEnds .kresia = true) (hclock : y.clockCause = 0) :
    exec (.resetDeassert (.kresia y)) s = .next ((s.strapped y).modFw .kresia fun w => { w with inReset := false, busy := true }) := by
  simp only [exec, execResetDeassert, hends, if_true, hclock]
  rfl

/-- R441: a Kresia without a sound clock, the fault in its boot status. -/
def State.unclocked (s : State) (cause : Nat) : State := (s.setFld .kresia 0xC 0 16 0xA005).setFld .kresia 0xC 18 2 cause

theorem exec_resetDeassert_unclocked (hends : s.resetEnds .kresia = true) (hclock : y.clockCause ≠ 0) :
    exec (.resetDeassert (.kresia y)) s =
      .next (((s.strapped y).unclocked y.clockCause).modFw .kresia fun w => { w with inReset := true }) := by
  simp only [exec, execResetDeassert, hends, if_true, hclock, if_false]
  rfl

theorem State.unclocked_fld (s : State) (cause : Nat) :
    (s.unclocked cause).fld .kresia 0xC 0 16 = 0xA005 ∧ (s.unclocked cause).fld .kresia 0xC 18 2 = cause % 2 ^ 2 := by
  refine ⟨?_, State.fld_setFld_self _ .kresia 0xC (by decide) cause⟩
  rw [State.fld, State.unclocked, State.setFld, State.rd_wr_self, Word.get_put_above _ (by decide) (by decide)]
  exact State.fld_setFld_self s .kresia 0xC (by decide) 0xA005

/-- R405: a Baxel at the loss of REFCLK, every slot not fired void, before its ports go out of service. -/
def State.clockGone (s : State) : State := s.voidUnfired.modBx fun b => { b with refclkLost := true }

theorem exec_refclkLost_first (hlost : s.bx.refclkLost = false) (hreset : s.bx.c.fw.inReset = false) :
    exec .refclkLost s =
      .next ({ (s.clockGone.livePorts .baxel).foldl (fun (s : State) (n : Nat) => s.portGone .baxel n 0xB006) s.clockGone with
        out := s.clockGone.out }.irqPriv .baxel) := by
  simp only [exec, execRefclkLost, hlost, hreset, Bool.or_self, Bool.false_eq_true, if_false]
  rfl

/-- R405: the loss of REFCLK is marked, and nothing is sent on a port. -/
theorem exec_refclkLost_leaves (hlost : s.bx.refclkLost = false) (hreset : s.bx.c.fw.inReset = false) :
    ∃ t, exec .refclkLost s = .next t ∧ t.bx.refclkLost = true ∧ t.ks = s.ks ∧ sends t.out = sends s.out := by
  have hexec := exec_refclkLost_first hlost hreset
  have hks := (exec_follows hexec).ks rfl
  have hsends : sends s.clockGone.out = sends s.out := State.voidUnfired_sends
  have hmark : ((s.clockGone.livePorts .baxel).foldl (fun (s : State) (n : Nat) => s.portGone .baxel n 0xB006)
      s.clockGone).bx.refclkLost = true := State.portsGone_refclkLost _ _ rfl
  generalize (s.clockGone.livePorts .baxel).foldl (fun (s : State) (n : Nat) => s.portGone .baxel n 0xB006) s.clockGone = s2
    at hexec hks hmark
  exact ⟨_, hexec, hmark, hks, hsends⟩

end

/-- Settles O50: resets, straps, clocks, power and faults case by case as R397, R405, R429 and R438 to R446 list them. -/
theorem resetPowerAndClocks : Obligations.ResetPowerAndClocks := by
  unfold Obligations.ResetPowerAndClocks
  refine ⟨?resetBx, ?resetKs, ?endBx, ?endKs, ?badClock, ?noEnd, ?refclkAgain, ?refclk, ?power, ?early, ?inRange, ?watch, ?told, ?notTold,
    ?trippedAgain, ?trip, ?trips, ?noStack, ?training, ?tooMany, ?remembered, ?brimAgain, ?brim⟩
  case resetBx =>
    intro s
    rfl
  case resetKs =>
    intro s
    rfl
  case endBx =>
    intro s y hends
    exact if_pos hends
  case endKs =>
    intro s y hends hclock
    exact ⟨_, exec_resetDeassert_clocked hends hclock, rfl, rfl, rfl, rfl, State.rd_strapped y, rfl, rfl, rfl⟩
  case badClock =>
    intro s y hends hclock
    obtain ⟨hcode, hcause⟩ := (s.strapped y).unclocked_fld y.clockCause
    exact ⟨_, exec_resetDeassert_unclocked hends hclock, rfl, rfl, hcode, hcause⟩
  case noEnd =>
    intro s x hbx hks
    cases x
    · exact if_neg (Bool.eq_false_iff.mp hbx)
    · exact if_neg (Bool.eq_false_iff.mp hks)
  case refclkAgain =>
    rintro s (h | h) <;> simp only [exec, execRefclkLost, h, Bool.true_or, Bool.or_true, if_true]
  case refclk =>
    intro s hlost hreset
    exact exec_refclkLost_leaves hlost hreset
  case power =>
    intro s
    rfl
  case early =>
    intro s inlet flow hearly
    simp only [exec, execCoolantCheck, hearly, Bool.not_false, if_true]
  case inRange =>
    intro s inlet flow hdue hinlet hflow
    simp only [exec, execCoolantCheck, hdue, Bool.not_true, Bool.false_eq_true, if_false, decide_eq_true hinlet, decide_eq_true hflow,
      Bool.and_self, if_true]
  case watch =>
    intro s inlet flow hdue hout hsince
    have hnow : (decide (msGrains 1000 ≤ Raw.diff (s.raw .kresia) (s.raw .kresia)) && !s.ks.coolantTold) = false := by
      simp [Raw.diff, msGrains]
    refine ⟨_, execCoolantCheck_outside hdue hout _ (by rw [hsince]; rfl) _ hnow, rfl, rfl, rfl, ?_⟩
    exact Bool.or_false _
  case told =>
    intro s inlet flow r hdue hout hsince hlong htold hroom
    have htell : (decide (msGrains 1000 ≤ Raw.diff (s.raw .kresia) r) && !s.ks.coolantTold) = true := by
      rw [decide_eq_true hlong, htold]
      rfl
    refine ⟨_, execCoolantCheck_outside hdue hout _ (by rw [hsince]; rfl) _ htell, ?_⟩
    rw [if_pos rfl, State.report_ks_coolantTold, State.report_ks_coolantSince, State.report_ks_lastCoolant]
    exact ⟨Bool.or_true _, rfl, rfl, State.told_report (s.coolantWatched r true) .kresia 0xB00C [] 255 none none hroom⟩
  case notTold =>
    intro s inlet flow r hdue hout hsince h
    have htell : (decide (msGrains 1000 ≤ Raw.diff (s.raw .kresia) r) && !s.ks.coolantTold) = false := by
      rcases h with h | h
      · rw [decide_eq_false (Int.not_le.mpr h), Bool.false_and]
      · rw [h, Bool.not_true, Bool.and_false]
    exact ⟨_, execCoolantCheck_outside hdue hout _ (by rw [hsince]; rfl) _ htell, rfl, rfl, rfl⟩
  case trippedAgain =>
    intro s htripped
    simp only [exec, execThermalTrip, htripped, if_true]
  case trip =>
    intro s htripped hlive hroom
    have hlive' : ((s.report .kresia 0xB00A).modKs fun k => { k with tripped := true }).livePorts .kresia = [] :=
      (State.livePorts_report ..).trans hlive
    have hexec : exec .thermalTrip s = .next ((s.report .kresia 0xB00A).modKs fun k => { k with tripped := true }) := by
      simp only [exec, execThermalTrip, htripped, Bool.false_eq_true, if_false, hlive', List.foldl_nil]
    exact ⟨_, hexec, rfl, State.told_report s .kresia 0xB00A [] 255 none none hroom, State.ks_link_report .., State.report_ks_doms ..⟩
  case trips =>
    intro s htripped
    refine ⟨_, if_neg (Bool.eq_false_iff.mp htripped), ?_⟩
    exact State.portsGone_tripped _ _ rfl
  case noStack =>
    intro s stack training hstack
    exact if_pos hstack
  case training =>
    intro s stack hstack hroom
    refine ⟨_, (execMemUncorrectable_eq hstack true).trans (if_pos rfl), State.report_ks_memFailed .., ?_⟩
    exact State.told_report _ .kresia 0xB00B [stack] 255 none none hroom
  case tooMany =>
    intro s stack hstack hlength hroom
    change (s.stackErrors stack).length = 16 at hlength
    refine ⟨_, (execMemUncorrectable_eq hstack false).trans (if_pos (by simp [hlength])), State.report_ks_memFailed .., ?_, ?_⟩
    · exact State.told_report _ .kresia 0xB00B [stack] 255 none none hroom
    · rw [State.report_ks_memErrors]
      have herrors := FMap.getD_set_self s.ks.memErrors stack (s.stackErrors stack ++ [s.raw .kresia]) []
      refine (congrArg List.length herrors).trans ?_
      rw [List.length_append, hlength]
      rfl
  case remembered =>
    intro s stack hstack hlength
    change (s.stackErrors stack).length < 16 at hlength
    refine ⟨_, (execMemUncorrectable_eq hstack false).trans (if_neg ?_), rfl, rfl, FMap.getD_set_self ..⟩
    simp only [List.length_append, List.length_singleton, Bool.false_or, Bool.and_eq_true, decide_eq_true_eq, not_and]
    omega
  case brimAgain =>
    intro s brim h
    refine if_pos ?_
    rcases h with h | h
    · rw [decide_eq_true h, Bool.true_or]
    · rw [h, Bool.or_true]
  case brim =>
    intro s brim hbrim hfresh hlive hroom
    let s1 := (s.modKs fun k => { k with memFailed := true, brimFailed := k.brimFailed ++ [brim] }).report .kresia 0xB00D [brim]
    have hlive' : s1.livePorts .kresia = [] := (State.livePorts_report ..).trans hlive
    have hexec : exec (.brimFailed brim) s = .next s1 := by
      simp only [exec, execBrimFailed, decide_eq_false (Nat.not_le.mpr hbrim), hfresh, Bool.or_self, Bool.false_eq_true, if_false]
      rw [hlive']
      rfl
    refine ⟨_, hexec, State.report_ks_memFailed .., State.report_ks_brimFailed .., ?_, State.ks_link_report ..⟩
    exact State.told_report (s.modKs fun k => { k with memFailed := true, brimFailed := k.brimFailed ++ [brim] }) .kresia 0xB00D [brim] 255
      none none hroom

end Sys2Proof.Machine

/-! The proof of O51: boot, verification, firmware start and the watchdog (R373 to R375). -/

namespace Sys2Proof.Machine

section
variable {s : State} {p : Part}

/-! ### Firmware apart from its mailboxes -/

/-- The firmware of a part without what stands in its mailboxes. -/
def State.firmware (s : State) (p : Part) : Firmware := { (s.pc p).fw with mailboxes := [] }

theorem State.firmware_congr {u : State} {q : Part} (h : (u.pc q).fw = (s.pc q).fw) : u.firmware q = s.firmware q := by
  rw [State.firmware, State.firmware, h]

theorem State.firmware_complete (m k : Nat) (code : Code) (r i : List Byte) (q : Part) :
    (s.complete p m k code r i).firmware q = s.firmware q := by
  cases h : (s.mslot p m k).taken with
  | none => simp only [State.complete, h]
  | some tk =>
    obtain ⟨u, hbx, hks, hu⟩ := State.complete_parts (st := code) (r := r) (i := i) h
    have hfw : (s.complete p m k code r i).firmware q = u.firmware q := by
      cases q
      · exact congrArg (fun b : Baxel => { b.c.fw with mailboxes := [] }) hbx
      · exact congrArg (fun x : Kresia => { x.c.fw with mailboxes := [] }) hks
    rw [hfw, hu]
    simp only [State.faultCode]
    split_ifs <;> cases p <;> cases q <;> rfl

theorem State.firmware_endWaiter (o : Nat) (w : Waiter) (code : Code) :
    (s.endWaiter .kresia o w code).firmware .kresia = s.firmware .kresia := by
  unfold State.endWaiter
  dsimp only
  split
  case h_3 => exact (State.firmware_complete ..).trans (State.firmware_congr (State.sample_fw ..))
  all_goals exact State.firmware_congr (State.sample_fw (q := .kresia) ..)

theorem State.endWaiter_ks_events (o : Nat) (w : Waiter) (code : Code) :
    (s.endWaiter .kresia o w code).ks.events = s.ks.events := by
  unfold State.endWaiter
  dsimp only
  split <;> simp

/-- Serving a cluster object touches neither the event queue nor the firmware apart from its mailboxes. -/
theorem State.serveObj_firmware (o : Nat) :
    (s.serveObj .kresia o).firmware .kresia = s.firmware .kresia ∧ (s.serveObj .kresia o).ks.events = s.ks.events := by
  unfold State.serveObj
  split
  · exact ⟨rfl, rfl⟩
  unfold State.serveFor
  extract_lets x
  obtain ⟨v, done, rest⟩ := Machine.serve 1 x.value x.waiters
  dsimp only
  split
  · exact ⟨rfl, rfl⟩
  exact List.foldlRecOn (motive := fun u : State => u.firmware .kresia = s.firmware .kresia ∧ u.ks.events = s.ks.events)
    _ _ ⟨rfl, rfl⟩ fun _ ⟨hfw, hev⟩ w _ =>
    ⟨(State.firmware_endWaiter o w 0).trans hfw, (State.endWaiter_ks_events o w 0).trans hev⟩

theorem State.serveObjs_firmware (os : List Nat) :
    (s.serveObjs os).firmware .kresia = s.firmware .kresia ∧ (s.serveObjs os).ks.events = s.ks.events :=
  List.foldlRecOn (motive := fun u : State => u.firmware .kresia = s.firmware .kresia ∧ u.ks.events = s.ks.events)
    _ _ ⟨rfl, rfl⟩ fun _ ⟨hfw, hev⟩ o _ =>
    ⟨(State.serveObj_firmware o).1.trans hfw, (State.serveObj_firmware o).2.trans hev⟩

theorem State.firmware_dropWaits : (s.dropWaits p).firmware p = s.firmware p := by
  cases p with
  | baxel => rfl
  | kresia => exact (State.serveObjs_firmware _).1

/-- A restart of the firmware tells nothing while it gives up what waited. -/
theorem State.told_dropWaits : (s.dropWaits p).told p = s.told p := by
  cases p with
  | baxel => rfl
  | kresia => exact congrArg (List.map EventRec.code) (State.serveObjs_firmware _).2

theorem State.canTell_dropWaits : (s.dropWaits p).canTell p = s.canTell p := by
  cases p with
  | baxel => rfl
  | kresia => exact congrArg (fun l : List EventRec => decide (l.length < 4096)) (State.serveObjs_firmware _).2

theorem State.dropWaits_ks_fences : (s.dropWaits p).ks.fences = s.ks.fences := by
  cases p with
  | baxel => rfl
  | kresia => exact State.serveObjs_ks_fences _

theorem State.dropWaits_bx_tenants : (s.dropWaits p).bx.tenants = s.bx.tenants := by
  cases p with
  | baxel => rfl
  | kresia => exact congrArg Baxel.tenants ((Follows.serveObjs (mw := false) (Follows.refl .kresia _)).bx rfl)

/-! ### Calibration runs leave firmware and registers -/

theorem State.calDue_leaves (i : Nat) (q : Part) (a : Nat) :
    ((s.calDue p i).pc q).fw = (s.pc q).fw ∧ (s.calDue p i).rd q a = s.rd q a := by
  obtain ⟨-, h⟩ | ⟨-, h⟩ | h := s.calDue_cases p i <;> rw [h]
  · cases p <;> cases q <;> exact ⟨rfl, rfl⟩
  · exact ⟨rfl, rfl⟩
  · cases p <;> cases q <;> exact ⟨rfl, rfl⟩

theorem State.calTrigger_leaves (i : Nat) (q : Part) (a : Nat) :
    ((s.calTrigger p i).pc q).fw = (s.pc q).fw ∧ (s.calTrigger p i).rd q a = s.rd q a := by
  obtain h | ⟨other, -, h⟩ := s.calTrigger_eq p i <;> rw [h]
  · exact State.calDue_leaves _ q a
  · obtain ⟨hfw, hrd⟩ := State.calDue_leaves (s := s) (p := p) (s.calTarget p i) q a
    obtain ⟨hfw', hrd'⟩ := State.calDue_leaves (s := s.calDue p (s.calTarget p i)) (p := p) other q a
    exact ⟨hfw'.trans hfw, hrd'.trans hrd⟩

theorem State.calAll_leaves (q : Part) (a : Nat) :
    ((s.calAll p).pc q).fw = (s.pc q).fw ∧ (s.calAll p).rd q a = s.rd q a := by
  refine List.foldlRecOn (motive := fun u : State => (u.pc q).fw = (s.pc q).fw ∧ u.rd q a = s.rd q a) _ _ ⟨rfl, rfl⟩
    fun u ⟨hfw, hrd⟩ i _ => ?_
  split
  · obtain ⟨hfw', hrd'⟩ := State.calTrigger_leaves (s := u) (p := p) i q a
    exact ⟨hfw'.trans hfw, hrd'.trans hrd⟩
  · exact ⟨hfw, hrd⟩

/-! ### Configuration by an image -/

/-- R373: the latencies an image declares go into registers alone. -/
theorem State.declare_leaves (tx rx : List Nat) :
    ((s.declare p tx rx).pc p).fw = (s.pc p).fw ∧ (s.declare p tx rx).ks.doms = s.ks.doms ∧ (s.declare p tx rx).out = s.out := by
  refine List.foldlRecOn (motive := fun u : State => (u.pc p).fw = (s.pc p).fw ∧ u.ks.doms = s.ks.doms ∧ u.out = s.out) _ _
    ⟨rfl, rfl, rfl⟩ fun u hu n _ => ?_
  have hwr (v : State) (a : Nat) (x : Word) (hv : (v.pc p).fw = (s.pc p).fw ∧ v.ks.doms = s.ks.doms ∧ v.out = s.out) :
      ((v.wr p a x).pc p).fw = (s.pc p).fw ∧ (v.wr p a x).ks.doms = s.ks.doms ∧ (v.wr p a x).out = s.out := by
    cases p <;> exact hv
  dsimp only
  split <;> split <;> simp only [hwr, hu, and_self]

theorem State.configure_leaves (x : ImageConfig) :
    ((s.configure x).ks.c.fw = { s.ks.c.fw with allowList := x.allow.take 16 }) ∧ (s.configure x).ks.doms = s.ks.doms ∧
      (s.configure x).out = s.out := by
  obtain ⟨hfw, hdoms, hout⟩ := State.declare_leaves (p := .kresia) (s := (s.setBit .kresia 0x4 20 x.spine).modKs fun k =>
    { k with
      build := ⟨x.planes, x.leaves, x.spines, x.dies, x.pods, x.halls, x.rsigTimeout⟩
      c := { k.c with
        fw := { k.c.fw with allowList := x.allow.take 16 }
        time := { k.c.time with crown := { k.c.time.crown with role := x.timeRole, siteRoot := x.siteRoot } } } }) x.txLat x.rxLat
  exact ⟨hfw, hdoms, hout⟩

/-! ### Firmware starts to serve -/

/-- R373: firmware serves; its registers are written and its firmware state is set, before anything goes out. -/
def State.nowServing (s : State) (p : Part) (ver : Word) : State :=
  ((s.setFld p 0 0 8 3).wr p 8 ver).modFw p fun w => { w with serving := true, served := true, heldBells := [] }

/-- R373: what the start of firmware drives out or tells. -/
def State.announced (s : State) (p : Part) (again : Bool) (raw : Raw) : State :=
  match p with
  | .baxel => s.irqPriv .baxel
  | .kresia => ((if again then s else s.drivePins ⟨.driven, .driven, .driven, .driven⟩).modTime .kresia fun t =>
      { t with crown := { t.crown with fwStartRaw := some raw } }).report .kresia 0x0002

/-- R373: the state firmware has started in, before it takes up the doorbells held. -/
def State.started (s : State) (p : Part) (ver : Word) : State :=
  let s2 := (s.nowServing p ver).announced p (s.pc p).fw.served ((s.nowServing p ver).raw .kresia)
  if (s.pc p).fw.served then s2 else s2.calAll p

theorem exec_fwReady_started {ver : Word} {b : Bool} (himage : (s.pc p).fw.image = some (ver, b))
    (hserving : (s.pc p).fw.serving = false) (hreset : (s.pc p).fw.inReset = false) :
    exec (.fwReady p) s =
      .next ((s.pc p).fw.heldBells.foldl (fun s (m, k) => s.intake p m k) (s.started p ver)) := by
  simp only [exec, execFwReady, himage, hserving, hreset, Bool.or_self, Bool.false_eq_true, if_false]
  cases p <;> rfl

theorem State.announced_leaves (again : Bool) (raw : Raw) {a : Nat} (ha : a < 0x1B0000) :
    ((s.announced p again raw).pc p).fw = (s.pc p).fw ∧ (s.announced p again raw).rd p a = s.rd p a := by
  cases p with
  | baxel => exact ⟨rfl, State.rd_irqPriv s .baxel .baxel a⟩
  | kresia =>
    have hpins (u : State) (hu : u = if again then s else s.drivePins ⟨.driven, .driven, .driven, .driven⟩) :
        (u.pc .kresia).fw = (s.pc .kresia).fw ∧ u.rd .kresia a = s.rd .kresia a := by
      rw [hu]
      split <;> exact ⟨rfl, rfl⟩
    obtain ⟨hfw, hrd⟩ := hpins _ rfl
    unfold State.announced
    exact ⟨(State.report_fw ..).trans hfw,
      (State.rd_report_ne _ _ _ _ _ _ _ _ fun _ _ => by omega).trans hrd⟩

theorem State.nowServing_rd (ver : Word) : (s.nowServing p ver).rd p 8 = ver ∧ (s.nowServing p ver).fld p 0 0 8 = 3 := by
  constructor
  · exact (State.rd_modFw ..).trans (State.rd_wr_self ..)
  · have hrd : (s.nowServing p ver).rd p 0 = (s.setFld p 0 0 8 3).rd p 0 :=
      (State.rd_modFw ..).trans (State.rd_wr_ne _ _ (by decide) _)
    rw [State.fld_congr hrd, State.fld_setFld_self _ _ _ (by decide), Nat.mod_eq_of_lt (by decide)]

theorem State.nowServing_fw (ver : Word) :
    ((s.nowServing p ver).pc p).fw = { (s.pc p).fw with serving := true, served := true, heldBells := [] } := by
  cases p <;> rfl

/-- R373: once started, firmware serves, holds no doorbell, and shows its version and that it serves. -/
theorem State.started_serves (ver : Word) :
    ((s.started p ver).pc p).fw = { (s.pc p).fw with serving := true, served := true, heldBells := [] } ∧
      (s.started p ver).rd p 8 = ver ∧ (s.started p ver).fld p 0 0 8 = 3 := by
  obtain ⟨hver, hif⟩ := State.nowServing_rd (s := s) (p := p) ver
  have hrd {a : Nat} (ha : a < 0x1B0000) : ((s.started p ver).pc p).fw = ((s.nowServing p ver).pc p).fw ∧
      (s.started p ver).rd p a = (s.nowServing p ver).rd p a := by
    obtain ⟨hfw, hann⟩ := State.announced_leaves (s := s.nowServing p ver) (p := p) (s.pc p).fw.served
      ((s.nowServing p ver).raw .kresia) ha
    unfold State.started
    dsimp only
    split
    · exact ⟨hfw, hann⟩
    · obtain ⟨hcal, hcalrd⟩ := State.calAll_leaves (s := (s.nowServing p ver).announced p (s.pc p).fw.served
        ((s.nowServing p ver).raw .kresia)) (p := p) p a
      exact ⟨hcal.trans hfw, hcalrd.trans hann⟩
  refine ⟨(hrd (a := 0) (by decide)).1.trans (State.nowServing_fw ver), (hrd (by decide)).2.trans hver, ?_⟩
  exact (State.fld_congr (hrd (by decide)).2 0 8).trans hif

/-- Firmware that takes up a doorbell changes nothing of itself but what stands in its mailboxes. -/
theorem State.firmware_intake (m k : Nat) : (s.intake p m k).firmware p = s.firmware p := by
  unfold State.intake
  split
  · split
    · exact State.firmware_complete ..
    · rfl
  · rfl

/-! ### Boot -/

theorem core_or_priv {v : View} (hv : v = .priv ∨ v = .core) : ¬ ((decide (v ≠ .priv) && decide (v ≠ .core)) = true) := by
  obtain rfl | rfl := hv <;> decide

/-- R374: the state a Baxel is in when its boot image has been verified. -/
def State.verified (s : State) (bs : List Byte) : State :=
  match imageCode 0 bs with
  | none => ((s.setBit .baxel 0x18 1 false).setFld .baxel 0x1C 0 16 0).startImage .baxel bs false
  | some c => ((s.setBit .baxel 0x18 1 false).setFld .baxel 0x1C 0 16 c.toNat).modFw .baxel fun w =>
      { w with busy := false, bootBytes := none }

theorem exec_bootVerifyDone_baxel {bs : List Byte} (hbusy : s.bx.c.fw.busy = true) (hbytes : s.bx.c.fw.bootBytes = some bs) :
    exec (.bootVerifyDone .baxel) s = .next (s.verified bs) := by
  simp only [exec, execBootVerifyDone, hbusy, hbytes]
  unfold State.verified
  cases h : imageCode 0 bs with
  | none => simp only
  | some c => simp only

/-- R374: the status of a verification and the end of BUSY. -/
theorem State.verifyCode_regs {code : Nat} (hcode : code < 2 ^ 16) :
    ((s.setBit .baxel 0x18 1 false).setFld .baxel 0x1C 0 16 code).bit .baxel 0x18 1 = false ∧
      ((s.setBit .baxel 0x18 1 false).setFld .baxel 0x1C 0 16 code).fld .baxel 0x1C 0 16 = code := by
  constructor
  · have hrd := State.rd_setFld_ne (s.setBit .baxel 0x18 1 false) .baxel (a := 0x1C) (b := 0x18) (by decide) 0 16 code
    rw [State.bit, State.fld_congr hrd]
    exact State.bit_setBit_self s .baxel 0x18 1 false
  · rw [State.fld_setFld_self _ _ _ (by decide)]
    exact Nat.mod_eq_of_lt hcode

theorem State.verified_image (bs : List Byte) :
    (s.verified bs).bx.c.fw.busy = false ∧ (s.verified bs).bx.c.fw.bootBytes = none ∧
      (s.verified bs).bit .baxel 0x18 1 = false ∧
      (s.verified bs).fld .baxel 0x1C 0 16 = (match imageCode 0 bs with | none => 0 | some c => c.toNat) ∧
      (s.verified bs).bx.c.fw.image =
        (match imageCode 0 bs with | none => some (wordAt bs 8, false) | some _ => s.bx.c.fw.image) ∧
      (s.verified bs).out = s.out := by
  unfold State.verified
  split
  · obtain ⟨hbit, hfld⟩ := State.verifyCode_regs (s := s) (code := 0) (by decide)
    exact ⟨rfl, rfl, hbit, hfld, rfl, rfl⟩
  · next c _ =>
    obtain ⟨hbit, hfld⟩ := State.verifyCode_regs (s := s) c.isLt
    exact ⟨rfl, rfl, hbit, hfld, rfl, rfl⟩

/-- R374: the state a Kresia is in when the images of its two slots have been verified. -/
def State.verifiedSlots (s : State) (a b : List Byte) (x : ImageConfig) : State :=
  match imageCode 1 a with
  | none => ((s.setFld .kresia 0xC 0 18 0).startImage .kresia a false).configure x
  | some _ =>
    let s1 := (s.setBit .kresia 0xC 17 true).modFw .kresia fun w => { w with slotATried := true }
    match imageCode 1 b with
    | none => (((s1.setFld .kresia 0xC 0 16 0).setBit .kresia 0xC 16 true).startImage .kresia b true).configure x
    | some _ => (s1.setFld .kresia 0xC 0 16 0xA003).modFw .kresia fun w => { w with busy := false }

theorem exec_bootVerifyDone_kresia (a b : List Byte) (x : ImageConfig) (hbusy : s.ks.c.fw.busy = true)
    (hreset : s.ks.c.fw.inReset = false) : exec (.bootVerifyDone (.kresia a b x)) s = .next (s.verifiedSlots a b x) := by
  simp only [exec, execBootVerifyDone, hbusy, hreset, Bool.not_true, Bool.or_self, Bool.false_eq_true, if_false]
  unfold State.verifiedSlots
  cases imageCode 1 a with
  | none => simp only
  | some _ => cases imageCode 1 b with
    | none => simp only
    | some _ => simp only

theorem State.verifiedSlots_image (a b : List Byte) (x : ImageConfig) :
    (s.verifiedSlots a b x).ks.c.fw.busy = false ∧
      (s.verifiedSlots a b x).ks.c.fw.image =
        (if imageCode 1 a = none then some (wordAt a 8, false) else if imageCode 1 b = none then some (wordAt b 8, true)
          else s.ks.c.fw.image) ∧
      (imageCode 1 a ≠ none → imageCode 1 b ≠ none → (s.verifiedSlots a b x).fld .kresia 0xC 0 16 = 0xA003) ∧
      (s.verifiedSlots a b x).ks.doms = s.ks.doms ∧ (s.verifiedSlots a b x).out = s.out := by
  unfold State.verifiedSlots
  extract_lets s1
  cases imageCode 1 a with
  | none =>
    obtain ⟨hfw, hdoms, hout⟩ :=
      State.configure_leaves (s := (s.setFld .kresia 0xC 0 18 0).startImage .kresia a false) x
    exact ⟨congrArg Firmware.busy hfw, congrArg Firmware.image hfw, fun h => absurd rfl h, hdoms, hout⟩
  | some _ => cases imageCode 1 b with
    | none =>
      obtain ⟨hfw, hdoms, hout⟩ :=
        State.configure_leaves (s := ((s1.setFld .kresia 0xC 0 16 0).setBit .kresia 0xC 16 true).startImage .kresia b true) x
      exact ⟨congrArg Firmware.busy hfw, congrArg Firmware.image hfw, fun _ h => absurd rfl h, hdoms, hout⟩
    | some _ =>
      refine ⟨rfl, rfl, fun _ _ => ?_, rfl, rfl⟩
      have hrd := State.rd_modFw (s1.setFld .kresia 0xC 0 16 0xA003) .kresia .kresia (fun w => { w with busy := false }) 0xC
      rw [State.fld_congr hrd, State.fld_setFld_self _ _ _ (by decide), Nat.mod_eq_of_lt (by decide)]

/-! ### The watchdog -/

/-- R375: the state after an expiry that finds no command in flight, but for the mark, the count and the report. -/
def State.stopped (s : State) (p : Part) : State :=
  ((s.setFld p 0 0 8 0).modFw p fun w => { w with serving := false }).dropWaits p

theorem State.firmware_stopped : (s.stopped p).firmware p = { s.firmware p with serving := false } := by
  refine State.firmware_dropWaits.trans ?_
  cases p <;> rfl

/-- R375: the state after an expiry that finds no command in flight. -/
def State.restarted (s : State) (p : Part) : State :=
  (((s.stopped p).setBit p (statusAddr p) 2 true).count (evRestarts p)).report p 0xA004

theorem exec_watchdogExpiry_idle (hserving : (s.pc p).fw.serving = true) (hidle : s.inFlight p = []) :
    exec (.watchdogExpiry p) s =
      .next (s.restarted p) := by
  have hidle' : ((s.setFld p 0 0 8 0).modFw p fun w => { w with serving := false }).inFlight p = [] := by
    rw [← hidle]
    cases p <;> rfl
  simp only [exec, execWatchdogExpiry, hserving, Bool.not_true, Bool.false_eq_true, if_false, hidle', List.foldl_nil]
  rfl

theorem State.firmware_restarted : (s.restarted p).firmware p = { s.firmware p with serving := false } := by
  refine Eq.trans (State.firmware_congr ?_) State.firmware_stopped
  rw [State.restarted, State.report_fw, State.count_fw, State.setBit_fw]

theorem State.bit_restarted : (s.restarted p).bit p (statusAddr p) 2 = true := by
  have hrd : (s.restarted p).rd p (statusAddr p) = ((s.stopped p).setBit p (statusAddr p) 2 true).rd p (statusAddr p) := by
    refine (State.rd_report_ne _ _ _ _ _ _ _ _ fun hp _ => ?_).trans ?_
    · subst hp
      decide
    · cases p
      · exact (State.rd_count_evB ..).trans (if_neg (by decide))
      · exact (State.rd_count_evK ..).trans (if_neg (by decide))
  rw [State.bit, State.fld_congr hrd]
  exact State.bit_setBit_self _ _ _ 2 true

/-- R375: an expiry is told, and leaves every fence and every tenant. -/
theorem State.restarted_leaves (hroom : s.canTell p = true) :
    (s.restarted p).told p = s.told p ++ [0xA004] ∧ (s.restarted p).ks.fences = s.ks.fences ∧
      (s.restarted p).bx.tenants = s.bx.tenants := by
  have hmarked (u : State) (hu : u = ((s.stopped p).setBit p (statusAddr p) 2 true).count (evRestarts p)) :
      u.told p = s.told p ∧ u.canTell p = s.canTell p ∧ u.ks.fences = s.ks.fences ∧ u.bx.tenants = s.bx.tenants := by
    have htold : u.told p = (s.stopped p).told p ∧ u.canTell p = (s.stopped p).canTell p := by
      rw [hu]
      cases p <;> simp [State.told, State.canTell]
    obtain ⟨htold, hcan⟩ := htold
    refine ⟨htold.trans (State.told_dropWaits.trans ?_), hcan.trans (State.canTell_dropWaits.trans ?_), ?_, ?_⟩
    · cases p <;> rfl
    · cases p <;> rfl
    · rw [hu, State.count_ks_fences, State.setBit_ks_fences, State.stopped, State.dropWaits_ks_fences]
      cases p <;> rfl
    · rw [hu, State.count_bx_tenants, State.setBit_bx_tenants, State.stopped, State.dropWaits_bx_tenants]
      cases p <;> rfl
  obtain ⟨htold, hcan, hfences, htenants⟩ := hmarked _ rfl
  refine ⟨?_, ?_, ?_⟩
  · rw [State.restarted, State.told_report _ _ _ _ _ _ _ (hcan.trans hroom), htold]
  · rw [State.restarted, State.report_ks_fences, hfences]
  · rw [State.restarted, State.report_bx_tenants, htenants]

end

/-- Settles O51: firmware that boots, starts and restarts is followed through its own state, the parts around it by what they leave. -/
theorem bootAndWatchdog : Obligations.BootAndWatchdog := by
  unfold Obligations.BootAndWatchdog
  refine ⟨?_, ?_, ?_, ?_, ?_, ?_, ?_, ?_, ?_, ?_, ?_, ?_⟩
  case refine_1 =>
    intro s v w hpriv hcore
    simp [exec, execBootGo, hpriv, hcore]
  case refine_2 =>
    intro s v w hv hidle
    simp only [exec, execBootGo, if_neg (core_or_priv hv)]
    obtain h | h | h | h := hidle <;> simp [h]
  case refine_3 =>
    intro s v w hv hgo hbusy hserving hreset
    simp only [exec, execBootGo, if_neg (core_or_priv hv), hgo, hbusy, hserving, hreset]
    rfl
  case refine_4 =>
    intro s bs hbusy hbytes
    refine ⟨_, exec_bootVerifyDone_baxel hbusy hbytes, ?_⟩
    exact State.verified_image bs
  case refine_5 =>
    intro s hidle
    simp only [exec, execBootVerifyDone]
    split
    next hbusy hbytes =>
      obtain h | h := hidle
      · cases hbusy.symm.trans h
      · cases hbytes.symm.trans h
    next => rfl
  case refine_6 =>
    intro s a b x hbusy hreset
    exact ⟨_, exec_bootVerifyDone_kresia a b x hbusy hreset, State.verifiedSlots_image a b x⟩
  case refine_7 =>
    intro s a b x hidle
    simp only [exec, execBootVerifyDone]
    obtain h | h := hidle <;> simp [h]
  case refine_8 =>
    intro s p hidle
    simp only [exec, execFwReady]
    split
    · rfl
    · next himage =>
      obtain h | h | h := hidle
      · cases himage.symm.trans h
      · simp [h]
      · simp [h]
  case refine_9 =>
    intro s p ver b himage hserving hreset hheld
    obtain ⟨hfw, hver, hif⟩ := State.started_serves (s := s) (p := p) ver
    refine ⟨_, exec_fwReady_started himage hserving hreset, ?_⟩
    rw [hheld, List.foldl_nil, hfw]
    exact ⟨rfl, hver, hif⟩
  case refine_10 =>
    intro s p ver b m k himage hserving hreset hheld
    obtain ⟨hfw, -, -⟩ := State.started_serves (s := s) (p := p) ver
    have hstarted : ((s.started p ver).intake p m k).firmware p = (s.started p ver).firmware p := State.firmware_intake m k
    rw [State.firmware, State.firmware, hfw] at hstarted
    refine ⟨_, exec_fwReady_started himage hserving hreset, ?_⟩
    rw [hheld, List.foldl_cons, List.foldl_nil]
    exact ⟨congrArg Firmware.serving hstarted, congrArg Firmware.heldBells hstarted⟩
  case refine_11 =>
    intro s p hserving
    simp [exec, execWatchdogExpiry, hserving]
  case refine_12 =>
    intro s p hserving hidle hroom
    refine ⟨_, exec_watchdogExpiry_idle hserving hidle, ?_⟩
    obtain ⟨htold, hfences, htenants⟩ := State.restarted_leaves hroom
    have hfw := State.firmware_restarted (s := s) (p := p)
    have hserve : ((s.restarted p).firmware p).serving = false := by rw [hfw]
    have himage : ((s.restarted p).firmware p).image = (s.firmware p).image := by rw [hfw]
    exact ⟨hserve, State.bit_restarted, htold, hfences, htenants, himage⟩

end Sys2Proof.Machine

/-! The proof of O52: doorbells, retirements and datagrams (R377 to R389). -/

namespace Sys2Proof.Machine

section
variable {s : State} {p : Part}

/-! ### A slot is captured -/

/-- R378: the state in which slot `k` of mailbox `m` is locked with the command captured. -/
def State.captured (s : State) (p : Part) (m k : Nat) (tk : Taken) : State :=
  (s.modMslot p m k fun x => { x with locked := true, taken := some tk }).modFw p fun w => { w with order := w.order + 1 }

theorem State.mslot_captured (m k : Nat) (tk : Taken) :
    (s.captured p m k tk).mslot p m k = { s.mslot p m k with locked := true, taken := some tk } := by
  rw [← State.mslot_modMslot s p m k fun x => { x with locked := true, taken := some tk }]
  cases p <;> rfl

theorem State.firmware_captured (m k : Nat) (tk : Taken) :
    (s.captured p m k tk).firmware p = { s.firmware p with order := (s.pc p).fw.order + 1 } := by
  cases p <;> rfl

theorem State.locked_complete (m k : Nat) (code : Code) (r i : List Byte) :
    ((s.complete p m k code r i).mslot p m k).locked = (s.mslot p m k).locked := by
  cases h : (s.mslot p m k).taken with
  | none => simp only [State.complete, h]
  | some tk =>
    obtain ⟨u, hbx, hks, hu⟩ := State.complete_parts (st := code) (r := r) (i := i) h
    rw [State.mslot_congr hbx hks, hu]
    have hdone : ((s.modMslot p m k fun x => x.completed p tk code r i).mslot p m k).locked = (s.mslot p m k).locked := by
      rw [State.mslot_modMslot]
      rfl
    split
    · unfold State.faultCode
      split
      · refine Eq.trans ?_ hdone
        cases p <;> rfl
      · exact hdone
    · exact hdone

theorem State.locked_intake (m k : Nat) : ((s.intake p m k).mslot p m k).locked = (s.mslot p m k).locked := by
  unfold State.intake
  split
  · split
    · exact State.locked_complete ..
    · rfl
  · rfl

/-! ### The doorbell -/

/-- R373: the doorbell of a slot is held until firmware serves. -/
def State.bellHeld (s : State) (p : Part) (m k : Nat) : State := s.modFw p fun f => { f with heldBells := f.heldBells ++ [(m, k)] }

theorem State.mslot_bellHeld (m k n j : Nat) : (s.bellHeld p m k).mslot p n j = s.mslot p n j := by
  cases p <;> rfl

variable {v : View} {m : Nat} {w : Word}

theorem exec_mboxDoorbell_free (hreset : (s.pc p).fw.inReset = false) (hrings : ringsMbox p v m = true)
    (hfree : (s.mslot p m (w.get 0 4)).locked = false) :
    ∃ tk : Taken, tk.bytes = (s.mslot p m (w.get 0 4)).slot64 ∧ exec (.mboxDoorbell p v m w) s = .next
      (if (s.pc p).fw.serving then (s.captured p m (w.get 0 4) tk).intake p m (w.get 0 4)
        else (s.captured p m (w.get 0 4) tk).bellHeld p m (w.get 0 4)) := by
  refine ⟨?tk, ?_, ?_⟩
  case tk =>
    exact ⟨(s.mslot p m (w.get 0 4)).slot64, if p = .kresia then (s.mslot p m (w.get 0 4)).windowBytes else [],
      (s.pc p).fw.order, false, []⟩
  · rfl
  · simp only [exec, execMboxDoorbell, hreset, hrings, hfree, Bool.not_true, Bool.false_eq_true, if_false]
    rfl

end

/-- Settles O52: each branch of the doorbell, the retirement and the datagrams is taken by its own condition. -/
theorem mailboxesRingAndRetire : Obligations.MailboxesRingAndRetire := by
  unfold Obligations.MailboxesRingAndRetire
  refine ⟨?_, ?_, ?_, ?_, ?_, ?_, ?_, ?_, ?_, ?_, ?_, ?_, ?_, ?_, ?_, ?_, ?_, ?_⟩
  case refine_1 =>
    intro s p v m w hreset
    simp only [exec, execMboxDoorbell, hreset, if_true]
  case refine_2 =>
    intro s p v m w hreset hrings
    simp only [exec, execMboxDoorbell, hreset, hrings, Bool.not_false, Bool.false_eq_true, if_true, if_false]
  case refine_3 =>
    intro s p v m w hreset hrings hlocked
    simp only [exec, execMboxDoorbell, hreset, hrings, hlocked, Bool.not_true, Bool.false_eq_true, if_true, if_false]
  case refine_4 =>
    intro s p v m w hreset hrings hfree hserving
    obtain ⟨tk, hbytes, hexec⟩ := exec_mboxDoorbell_free hreset hrings hfree
    rw [hserving, if_neg Bool.false_ne_true] at hexec
    refine ⟨_, hexec, ?_⟩
    rw [State.mslot_bellHeld, State.mslot_captured]
    refine ⟨rfl, congrArg some hbytes, ?_, ?_, ?_⟩ <;> cases p <;> rfl
  case refine_5 =>
    intro s p v m w hreset hrings hfree hserving
    obtain ⟨tk, -, hexec⟩ := exec_mboxDoorbell_free hreset hrings hfree
    rw [hserving, if_pos rfl] at hexec
    have hfw : ((s.captured p m (w.get 0 4) tk).intake p m (w.get 0 4)).firmware p =
        { s.firmware p with order := (s.pc p).fw.order + 1 } := (State.firmware_intake ..).trans (State.firmware_captured ..)
    have hheld : (((s.captured p m (w.get 0 4) tk).intake p m (w.get 0 4)).firmware p).heldBells = (s.firmware p).heldBells := by
      rw [hfw]
    have horder : (((s.captured p m (w.get 0 4) tk).intake p m (w.get 0 4)).firmware p).order = (s.pc p).fw.order + 1 := by
      rw [hfw]
    refine ⟨_, hexec, ?_, hheld, horder⟩
    rw [State.locked_intake, State.mslot_captured]
  case refine_6 =>
    intro s p v m w hrings
    simp only [exec, execMboxRetire, hrings, Bool.not_false, if_true]
  case refine_7 =>
    intro s p v m w hrings hready hseq
    have hexec : exec (.mboxRetire p v m w) s = .next (s.modMslot p m (w.get 0 4) fun x =>
        { x with locked := false, lastRetired := some (w.get 16 16), comp := { x.comp with ready := false } }) := by
      simp only [exec, execMboxRetire, hrings, State.retire, hready, hseq, Bool.not_true, Bool.false_eq_true, if_false,
        Bool.true_and, decide_true, if_true]
    refine ⟨_, hexec, ?_⟩
    rw [State.mslot_modMslot]
    exact ⟨rfl, rfl, rfl, rfl, State.modMslot_out ..⟩
  case refine_8 =>
    intro s p v m w hrings hready hseq
    simp [exec, execMboxRetire, hrings, State.retire, hready, hseq]
  case refine_9 =>
    intro s p v m w hrings hseq
    simp [exec, execMboxRetire, hrings, State.retire, hseq]
  case refine_10 =>
    intro s x htakes
    simp [exec, execMboxDatagramRx, htakes]
  case refine_11 =>
    intro s x htakes hfree hretired
    simp [exec, execMboxDatagramRx, htakes, hfree, hretired]
  case refine_12 =>
    intro s x htakes hfree hretired
    simp [exec, execMboxDatagramRx, htakes, hfree, hretired]
  case refine_13 =>
    intro s x htakes hlocked hslot
    simp [exec, execMboxDatagramRx, htakes, hlocked, hslot]
  case refine_14 =>
    intro s x tk htakes hlocked hslot htaken hinline
    simp [exec, execMboxDatagramRx, htakes, hlocked, hslot, htaken, hinline]
  case refine_15 =>
    intro s x tk htakes hlocked hslot htaken hinline
    simp [exec, execMboxDatagramRx, htakes, hlocked, hslot, htaken, hinline]
  case refine_16 =>
    intro s x htakes hlocked hslot htaken
    simp [exec, execMboxDatagramRx, htakes, hlocked, hslot, htaken]
  case refine_17 =>
    intro s x htakes
    simp [exec, execRetireDatagramRx, htakes]
  case refine_18 =>
    intro s x htakes
    simp [exec, execRetireDatagramRx, htakes]

end Sys2Proof.Machine

/-! The proof of O53: what a register write does by the view that writes (R371, R395 to R401). -/

namespace Sys2Proof.Machine

section
variable {s : State} {a : Nat} {w : Word}

theorem exec_registerWrite_aligned (p : Part) (v : View) (ha : a % 4 = 0) :
    exec (.registerWrite p v a w) s = .next (s.regWrite p v a w) := by
  have haddr : a / 4 * 4 = a := by omega
  simp only [exec, execRegisterWrite, haddr]

theorem State.regWrite_bx (v : View) (hreset : s.bx.c.fw.inReset = false) : s.regWrite .baxel v a w = s.bxWrite' v a w := by
  simp only [State.regWrite, hreset, Bool.false_eq_true, if_false]

/-- R396: an address of the mailbox blocks leads to the mailbox it names. -/
theorem State.ksWrite_mbox (v : View) (hreset : s.ks.c.fw.inReset = false) (hmapped : ksMapped a = true)
    (hlo : 0x200000 ≤ a) (hhi : a < 0x240000) :
    s.regWrite .kresia v a w = s.mboxWrite .kresia v ((a - 0x200000) / 0x1000) (a % 0x1000) w a := by
  have hne (c : Nat) (hc : c < 0x200000) : (a = c) = False := eq_false (by omega)
  have hlt (c : Nat) (hc : c ≤ 0x200000) : (a < c) = False := eq_false (by omega)
  have hle (c : Nat) (hc : c < 0x200000) : (a ≤ c) = False := eq_false (by omega)
  simp [State.regWrite, State.ksWrite', hreset, hmapped, hne, hlt, hle, hlo, hhi]

theorem ksMapped_mbox {m : Nat} (hm : m < 64) :
    ksMapped (mbAddr .kresia m 0) = true ∧ ksMapped (mbAddr .kresia m 4) = true := by
  have h : ∀ m < 64, ksMapped (mbAddr .kresia m 0) = true ∧ ksMapped (mbAddr .kresia m 4) = true := by decide +kernel
  exact h m hm

/-- R397: the privileged view of a Baxel writes the words below the tenant pages. -/
theorem State.bxWrite_priv (hreset : s.bx.c.fw.inReset = false) (ha : a < 0x1000) :
    s.regWrite .baxel .priv a w = s.bxPrivWrite .priv a w := by
  have hle (c : Nat) (hc : 0x1000 ≤ c) : (c ≤ a) = False := eq_false (by omega)
  simp [State.regWrite_bx .priv hreset, State.bxWrite', hle]

/-- A command carried out in place of a write is that command: every command answers. -/
theorem exec_orElse (c : Instr) (s : State) : Host.Outcome.next (Answer.orElse (exec c s) s) = exec c s := by
  obtain ⟨t, ht, -⟩ := everyCommandAnswers c s
  rw [ht]
  rfl

end

/-- Settles O53: each write follows the chain of address tests to the word it names. -/
theorem registerWritesByView : Obligations.RegisterWritesByView := by
  unfold Obligations.RegisterWritesByView
  refine ⟨?_, ?_, ?_, ?_, ?_, ?_, ?_, ?_, ?_⟩
  case refine_1 =>
    intro s v a w hreset
    simp only [exec, execRegisterWrite, State.regWrite, hreset, if_true]
  case refine_2 =>
    intro s v a w hreset
    simp only [exec, execRegisterWrite, State.regWrite, State.ksWrite', hreset, if_true]
  case refine_3 =>
    intro s u a w hreset ha hreach hstamp
    have hblock : (decide (0x6000 ≤ a) && decide (a < 0x6400)) = false := by
      simp only [Bool.and_eq_false_iff, decide_eq_false_iff_not]
      omega
    rw [exec_registerWrite_aligned _ _ ha, State.regWrite_bx _ hreset]
    simp only [State.bxWrite', hreach, hblock, Bool.or_self, Bool.not_false, if_true]
    rfl
  case refine_4 =>
    intro s a w hreset
    simp only [exec, execRegisterWrite, State.regWrite_bx _ hreset, State.bxWrite', Bool.not_false, if_true]
    rfl
  case refine_5 =>
    intro s a w hreset ha
    have hexec : exec (.registerWrite .baxel .priv a w) s = .next (s.wr .baxel a w) := by
      obtain rfl | rfl := ha
      · rw [exec_registerWrite_aligned _ _ (by decide), State.bxWrite_priv hreset (by decide)]
        simp only [State.bxPrivWrite, decide_true, Bool.true_or, if_true]
      · rw [exec_registerWrite_aligned _ _ (by decide), State.bxWrite_priv hreset (by decide)]
        simp only [State.bxPrivWrite, decide_true, Bool.or_true, if_true]
    exact ⟨_, hexec, State.rd_wr_self .., fun b hb => State.rd_wr_ne _ _ hb _, rfl, rfl⟩
  case refine_6 =>
    intro s w hreset
    rw [exec_registerWrite_aligned _ _ (by decide), State.bxWrite_priv hreset (by decide)]
    rfl
  case refine_7 =>
    intro s v a w hreset ha hmapped
    rw [exec_registerWrite_aligned _ _ ha]
    simp only [State.regWrite, State.ksWrite', hreset, hmapped, Bool.not_false, Bool.false_eq_true, if_false, if_true]
    cases v <;> rfl
  case refine_8 =>
    intro s v a w hreset ha
    have hword : ∀ b < 16, b % 4 = 0 → ksMapped b = true := by decide +kernel
    have hb : a / 4 * 4 < 16 := by omega
    have hne (c : Nat) (hc : 16 ≤ c) : (a / 4 * 4 = c) = False := eq_false (by omega)
    have hle (c : Nat) (hc : 16 ≤ c) : (c ≤ a / 4 * 4) = False := eq_false (by omega)
    simp [exec, execRegisterWrite, State.regWrite, State.ksWrite', hreset, hword _ hb, hne, hle]
  case refine_9 =>
    intro s m w hreset hm
    obtain ⟨hbell, hretire⟩ := ksMapped_mbox hm
    have hrings : ringsMbox .kresia .priv m = true := by simp [ringsMbox, mboxCount, hm]
    have hwrite (off : Nat) (hoff : off < 0x800) (hal : off % 4 = 0) (hmapped : ksMapped (mbAddr .kresia m off) = true) :
        exec (.registerWrite .kresia .priv (mbAddr .kresia m off) w) s =
          .next (s.mboxWrite .kresia .priv m (0x800 + off) w (mbAddr .kresia m off)) := by
      have haddr : mbAddr .kresia m off = 0x200800 + 0x1000 * m + off := rfl
      rw [exec_registerWrite_aligned _ _ (by omega), State.ksWrite_mbox _ hreset hmapped (by omega) (by omega)]
      rw [show (mbAddr .kresia m off - 0x200000) / 0x1000 = m by omega,
        show mbAddr .kresia m off % 0x1000 = 0x800 + off by omega]
    constructor
    · rw [hwrite 0 (by decide) rfl hbell, State.mboxWrite, hrings, ← exec_orElse]
      rfl
    · rw [hwrite 4 (by decide) rfl hretire, State.mboxWrite, hrings, ← exec_orElse]
      rfl

end Sys2Proof.Machine

/-! The proof of O54: the commands of mailboxes, registers and stage areas (R371, R377, R390, R391). -/

namespace Sys2Proof.Machine

section
variable {s : State} {m k : Nat} {tk : Taken}

/-- R379: the completion of a started command answers the command captured. -/
theorem State.answered_of_started {p : Part} {code : Code} {r i : List Byte}
    (htaken : (s.mslot p m k).taken = some { tk with started := true }) :
    (s.complete p m k code r i).answered p m k tk code r i :=
  State.complete_answered s p m k code r i { tk with started := true } htaken

theorem State.stages_complete (code : Code) (r i : List Byte) :
    (s.complete .kresia m k code r i).ks.c.fw.stages = s.ks.c.fw.stages :=
  (congrArg Firmware.stages (State.firmware_complete m k code r i .kresia) :
    ((s.complete .kresia m k code r i).firmware .kresia).stages = (s.firmware .kresia).stages)

theorem State.stageOf_complete (code : Code) (r i : List Byte) (n id : Nat) :
    (s.complete .kresia m k code r i).stageOf n id = s.stageOf n id := by
  rw [State.stageOf, State.stages_complete, State.stageOf]

theorem State.mbox_complete_ne (code : Code) (r i : List Byte) {n : Nat} (hn : n ≠ m) :
    (s.complete .kresia m k code r i).mbox .kresia n = s.mbox .kresia n := by
  cases h : (s.mslot .kresia m k).taken with
  | none => simp only [State.complete, h]
  | some tk =>
    obtain ⟨u, -, hks, hu⟩ := State.complete_parts (st := code) (r := r) (i := i) h
    have hbox : (s.modMslot .kresia m k fun x => x.completed .kresia tk code r i).mbox .kresia n = s.mbox .kresia n := by
      exact FMap.getD_update_ne s.ks.c.fw.mailboxes hn {} {} fun b =>
        { b with slots := FMap.update b.slots k {} fun x => x.completed .kresia tk code r i }
    have hmbox : (s.complete .kresia m k code r i).mbox .kresia n = u.mbox .kresia n :=
      congrArg (fun x : Kresia => FMap.getD x.c.fw.mailboxes n {}) hks
    rw [hmbox, hu, if_pos rfl, State.faultCode]
    split
    · exact hbox
    · exact hbox

/-- R390: a change of the stage areas. -/
def State.setStages (s : State) (f : FMap Stage → FMap Stage) : State := s.modFw .kresia fun w => { w with stages := f w.stages }

theorem State.stages_setStages (f : FMap Stage → FMap Stage) : (s.setStages f).ks.c.fw.stages = f s.ks.c.fw.stages := rfl

theorem State.stages_showStages : s.showStages.ks.c.fw.stages = s.ks.c.fw.stages := rfl

/-- R400: the room shown stands through the completion. -/
theorem State.rd_showStages_complete (code : Code) (r i : List Byte) :
    (s.showStages.complete .kresia m k code r i).rd .kresia 0x24 = BitVec.ofNat 32 ((2 ^ 30 - s.stageUsed) / 1024) := by
  have hshown : s.showStages.rd .kresia 0x24 = BitVec.ofNat 32 ((2 ^ 30 - s.stageUsed) / 1024) := State.rd_wr_self ..
  rw [← hshown]
  cases h : (s.showStages.mslot .kresia m k).taken with
  | none => simp only [State.complete, h]
  | some tk => exact State.rd_complete_ne h fun hc => absurd hc.2.2.2.2 (by decide)

theorem State.stageWrite_stages (id off : Nat) (bs : List Byte) : (s.stageWrite id off bs).ks.c.fw.stages =
    FMap.update s.ks.c.fw.stages id ⟨64, []⟩ fun x =>
      { x with bytes := x.bytes.take off ++ bs ++ x.bytes.drop (off + bs.length) } := rfl

theorem State.stageOf_eq_some {n id : Nat} {area : List Byte} (h : s.stageOf n id = some area) :
    ∃ x, FMap.find? s.ks.c.fw.stages id = some x ∧ x.mailbox = n ∧ x.bytes = area := by
  unfold State.stageOf at h
  split at h
  · next x hfind =>
    split at h
    · next hmailbox => exact ⟨x, hfind, hmailbox, Option.some.inj h⟩
    · cases h
  · cases h

end

/-! ### The bounds a command tests -/

theorem regCount_iff {n : Nat} : (decide (n = 0) || decide (12 < n)) = true ↔ n = 0 ∨ 12 < n := by simp

theorem regCount_of_le {n : Nat} (hlo : 1 ≤ n) (hhi : n ≤ 12) : ¬ ((decide (n = 0) || decide (12 < n)) = true) := by
  rw [regCount_iff]
  omega

theorem stageLength_iff {n : Nat} :
    (decide (n < 64) || decide (2 ^ 28 < n) || decide (n % 64 ≠ 0)) = true ↔ n < 64 ∨ 2 ^ 28 < n ∨ n % 64 ≠ 0 := by
  rw [Bool.or_eq_true, Bool.or_eq_true, decide_eq_true_eq, decide_eq_true_eq, decide_eq_true_eq, or_assoc]

theorem stageLength_of_le {n : Nat} (hlo : 64 ≤ n) (hhi : n ≤ 2 ^ 28) (hal : n % 64 = 0) :
    ¬ ((decide (n < 64) || decide (2 ^ 28 < n) || decide (n % 64 ≠ 0)) = true) := by
  rw [stageLength_iff]
  omega

/-- R390: a mailbox holds up to 16 areas of the one pool of 1 GiB. -/
theorem stageFull_iff {s : State} {m k n : Nat} :
    (decide (16 ≤ ((s.begun .kresia m k).ks.c.fw.stages.filter fun (_, x) => x.mailbox = m).length) ||
        decide (2 ^ 30 < (s.begun .kresia m k).stageUsed + n)) = true ↔
      16 ≤ (s.ks.c.fw.stages.filter fun (_, x) => x.mailbox = m).length ∨ 2 ^ 30 < s.stageUsed + n := by
  have hstages : (s.begun .kresia m k).ks.c.fw.stages = s.ks.c.fw.stages := State.begun_stages s .kresia m k .kresia
  rw [Bool.or_eq_true, decide_eq_true_eq, decide_eq_true_eq, State.stageUsed, hstages, State.stageUsed]

theorem stageRange_iff {off n : Nat} : (decide (off % 64 ≠ 0) || decide (n % 64 ≠ 0) || decide (8192 < n)) = true ↔
    off % 64 ≠ 0 ∨ n % 64 ≠ 0 ∨ 8192 < n := by
  rw [Bool.or_eq_true, Bool.or_eq_true, decide_eq_true_eq, decide_eq_true_eq, decide_eq_true_eq, or_assoc]

/-! ### A free identifier -/

/-- Among more identifiers than a map has entries one is free. -/
theorem freeStage_free (l : FMap Stage) (v : Nat) (hl : l.length < 2 ^ 32) : FMap.find? l (freeStage l v) = none := by
  unfold freeStage
  cases h : (List.range (l.length + 1)).find? fun i => !FMap.has l ((v + i) % 2 ^ 32) with
  | some i =>
    have hfree := List.find?_some h
    simpa [FMap.has] using hfree
  | none =>
    have hused (i : Nat) (hi : i ∈ List.range (l.length + 1)) : (v + i) % 2 ^ 32 ∈ l.map (·.1) := by
      have hhas := List.find?_eq_none.1 h i hi
      simp only [FMap.has, Bool.not_eq_true, Bool.not_eq_false', Option.isSome_iff_exists] at hhas
      obtain ⟨x, hx⟩ := hhas
      exact List.mem_map_of_mem (FMap.mem_of_find hx)
    have hnodup : ((List.range (l.length + 1)).map fun i => (v + i) % 2 ^ 32).Nodup := by
      refine List.nodup_range.map_on fun i hi j hj hij => ?_
      simp only [List.mem_range] at hi hj
      omega
    have hsub : (List.range (l.length + 1)).map (fun i => (v + i) % 2 ^ 32) ⊆ l.map (·.1) := fun x hx => by
      obtain ⟨i, hi, rfl⟩ := List.mem_map.1 hx
      exact hused i hi
    have hlen := (List.subperm_of_subset hnodup hsub).length_le
    simp only [List.length_map, List.length_range] at hlen
    omega

/-- Settles O54: a command that is started takes the branch its operands ask for, and its completion leaves the rest. -/
theorem mailboxRegisterAndStageCommands : Obligations.MailboxRegisterAndStageCommands := by
  unfold Obligations.MailboxRegisterAndStageCommands
  refine ⟨?_, ?_, ?_, ?_, ?_, ?_, ?_, ?_, ?_, ?_, ?_, ?_, ?_, ?_, ?_, ?_, ?_, ?_, ?_, ?_, ?_, ?_, ?_, ?_, ?_⟩
  case refine_1 =>
    intro s p m k tk hready
    simp only [exec, execMboxHello, State.serve_ready _ _ _ _ _ _ _ hready, State.begun_fld, State.begun_rd]
  case refine_2 =>
    intro s m k tk hready hbox
    simp only [exec, execMboxBind, State.serve_ready _ _ _ _ _ _ _ hready]
    exact congrArg Host.Outcome.next (if_pos hbox)
  case refine_3 =>
    intro s m k tk hready hbox hrefused
    simp only [exec, execMboxBind, State.serve_ready _ _ _ _ _ _ _ hready, State.begun_dom]
    refine congrArg Host.Outcome.next ((if_neg (Nat.not_le.2 hbox)).trans (if_pos ?_))
    rw [Bool.or_eq_true, Bool.or_eq_true, decide_eq_true_eq, List.isEmpty_iff, or_assoc]
    exact hrefused
  case refine_4 =>
    intro s m k tk hready hlo hbox hbound hdom
    simp only [exec, execMboxBind, State.serve_ready _ _ _ _ _ _ _ hready, State.begun_dom]
    refine congrArg Host.Outcome.next ((if_neg (Nat.not_le.2 hbox)).trans (if_neg ?_))
    rw [Bool.or_eq_true, Bool.or_eq_true, decide_eq_true_eq, List.isEmpty_iff, or_assoc]
    rintro (h | h | h)
    · exact absurd h (Nat.not_lt.2 hlo)
    · exact Bool.false_ne_true ((congrArg Option.isSome hbound).symm.trans h)
    · exact hdom h
  case refine_5 =>
    intro s m k tk hready hbox
    simp only [exec, execMboxUnbind, State.serve_ready _ _ _ _ _ _ _ hready]
    exact congrArg Host.Outcome.next (if_pos hbox)
  case refine_6 =>
    intro s m k tk hready hbox hrefused
    simp only [exec, execMboxUnbind, State.serve_ready _ _ _ _ _ _ _ hready]
    refine congrArg Host.Outcome.next ((if_neg (Nat.not_le.2 hbox)).trans (if_pos ?_))
    rw [Bool.or_eq_true, Bool.or_eq_true, decide_eq_true_eq, Option.isNone_iff_eq_none, or_assoc]
    exact hrefused
  case refine_7 =>
    intro s m k tk hready hlo hbox hm hbound hunlocked
    have hne : m ≠ tk.f 8 1 := by omega
    have hexec : exec (.mboxUnbind .kresia m k) s = .next (((((s.begun .kresia m k).modMbox .kresia (tk.f 8 1) fun x =>
        { x with bound := none }).setStages fun l => l.filter fun (_, x) => x.mailbox ≠ tk.f 8 1).showStages).complete
          .kresia m k 0) := by
      simp only [exec, execMboxUnbind, State.serve_ready _ _ _ _ _ _ _ hready]
      refine congrArg Host.Outcome.next ((if_neg (Nat.not_le.2 hbox)).trans (if_neg ?_))
      rw [Bool.or_eq_true, Bool.or_eq_true, decide_eq_true_eq, or_assoc]
      rintro (h | h | h)
      · exact absurd h (Nat.not_lt.2 hlo)
      · rw [Option.isNone_iff_eq_none] at h
        exact Option.isSome_iff_ne_none.1 hbound h
      · exact Bool.false_ne_true (hunlocked.symm.trans h)
    have htaken := State.begun_taken s .kresia m k 0x0003 tk hready
    refine ⟨_, hexec, State.answered_of_started ?_, ?_, ?_⟩
    rotate_left
    · rw [State.mbox_complete_ne _ _ _ hne.symm]
      exact congrArg Mailbox.bound (FMap.getD_update_self (s.begun .kresia m k).ks.c.fw.mailboxes (tk.f 8 1) {} fun x =>
        { x with bound := none })
    · rw [State.stages_complete]
      exact congrArg (List.filter _) (State.begun_stages s .kresia m k .kresia)
    · refine Eq.trans ?_ htaken
      exact congrArg (fun x : Mailbox => (FMap.getD x.slots k {}).taken)
        (FMap.getD_update_ne (s.begun .kresia m k).ks.c.fw.mailboxes hne {} {} fun x => { x with bound := none })
  case refine_8 =>
    intro s m k tk hready hcount
    simp only [exec, execRegRead, State.serve_ready _ _ _ _ _ _ _ hready]
    exact congrArg Host.Outcome.next (if_pos (regCount_iff.2 hcount))
  case refine_9 =>
    intro s m k tk hready hlo hhi hunmapped
    simp only [exec, execRegRead, State.serve_ready _ _ _ _ _ _ _ hready]
    exact congrArg Host.Outcome.next ((if_neg (regCount_of_le hlo hhi)).trans (if_pos hunmapped))
  case refine_10 =>
    intro s m k tk hready hlo hhi hmapped
    simp only [exec, execRegRead, State.serve_ready _ _ _ _ _ _ _ hready]
    exact congrArg Host.Outcome.next ((if_neg (regCount_of_le hlo hhi)).trans (if_neg (Bool.not_eq_true _ ▸ hmapped)))
  case refine_11 =>
    intro s m k tk hready hcount
    simp only [exec, execRegWrite, State.serve_ready _ _ _ _ _ _ _ hready]
    exact congrArg Host.Outcome.next (if_pos (regCount_iff.2 hcount))
  case refine_12 =>
    intro s m k tk hready hlo hhi hunmapped
    simp only [exec, execRegWrite, State.serve_ready _ _ _ _ _ _ _ hready]
    exact congrArg Host.Outcome.next ((if_neg (regCount_of_le hlo hhi)).trans (if_pos hunmapped))
  case refine_13 =>
    intro s m k tk hready hcount hmapped
    simp only [exec, execRegWrite, State.serve_ready _ _ _ _ _ _ _ hready, Taken.f_started, hcount]
    simp [hmapped, List.range_succ]
  case refine_14 =>
    intro s m k tk hready hlen
    simp only [exec, execStageAlloc, State.serve_ready _ _ _ _ _ _ _ hready]
    exact congrArg Host.Outcome.next (if_pos (stageLength_iff.2 hlen))
  case refine_15 =>
    intro s m k tk hready hlo hhi hal hstages hheld hroom
    obtain ⟨v, hv⟩ : ∃ v, (s.begun .kresia m k).draw.1 = v := ⟨_, rfl⟩
    have hbegun : (s.begun .kresia m k).ks.c.fw.stages = s.ks.c.fw.stages := State.begun_stages s .kresia m k .kresia
    have hexec : exec (.stageAlloc .kresia m k) s = .next (((((s.begun .kresia m k).draw.2.setStages fun l =>
        FMap.set l (freeStage s.ks.c.fw.stages v) ⟨m, List.replicate (tk.f 8 4) memDefault⟩).showStages).complete .kresia m k 0
          (leBytes 4 (freeStage s.ks.c.fw.stages v)))) := by
      rw [← hbegun, ← hv]
      simp only [exec, execStageAlloc, State.serve_ready _ _ _ _ _ _ _ hready]
      refine congrArg Host.Outcome.next ((if_neg (stageLength_of_le hlo hhi hal)).trans (if_neg (mt stageFull_iff.1 ?_)))
      exact not_or.2 ⟨Nat.not_le.2 hheld, Nat.not_lt.2 hroom⟩
    have htaken := State.begun_taken s .kresia m k 0x0020 tk hready
    refine ⟨_, hexec, ⟨freeStage s.ks.c.fw.stages v, State.answered_of_started htaken,
      freeStage_free _ v hstages, ?_, ?_⟩, ?_⟩
    · rw [State.stageOf, State.stages_complete]
      simp only [State.stages_showStages, State.stages_setStages, FMap.find_set_self, if_true]
    · intro j hj
      rw [State.stages_complete, State.stages_showStages, State.stages_setStages, FMap.find_set_ne _ hj]
      exact congrArg (fun l => FMap.find? l j) hbegun
    · rw [State.complete_free]
      exact congrArg (· + 1) (State.begun_free s .kresia m k)
  case refine_16 =>
    intro s m k tk hready hlo hhi hal hfull
    simp only [exec, execStageAlloc, State.serve_ready _ _ _ _ _ _ _ hready]
    exact congrArg Host.Outcome.next ((if_neg (stageLength_of_le hlo hhi hal)).trans (if_pos (stageFull_iff.2 hfull)))
  case refine_17 =>
    intro s m k tk hready hstage
    simp only [exec, execStagePut, State.serve_ready _ _ _ _ _ _ _ hready, Taken.f_started, State.begun_stageOf, hstage]
  case refine_18 =>
    intro s m k tk area hready hstage hoff
    simp only [exec, execStagePut, State.serve_ready _ _ _ _ _ _ _ hready, Taken.f_started, State.begun_stageOf, hstage]
    exact congrArg Host.Outcome.next (if_pos hoff)
  case refine_19 =>
    intro s m k tk area bs hready hstage hoff hbs hlen
    simp only [exec, execStagePut, State.serve_ready _ _ _ _ _ _ _ hready, Taken.f_started, State.begun_stageOf, hstage]
    rw [hbs] at hlen
    exact congrArg Host.Outcome.next ((if_neg (not_not.2 hoff)).trans (if_pos hlen))
  case refine_20 =>
    intro s m k tk area bs hready hstage hoff hbs hlen
    have hexec : exec (.stagePut .kresia m k) s =
        .next (((s.begun .kresia m k).stageWrite (tk.f 8 4) (tk.f 12 4) bs).complete .kresia m k 0) := by
      simp only [exec, execStagePut, State.serve_ready _ _ _ _ _ _ _ hready, Taken.f_started, State.begun_stageOf, hstage]
      rw [hbs] at hlen ⊢
      exact congrArg Host.Outcome.next ((if_neg (not_not.2 hoff)).trans (if_neg (Nat.not_lt.2 hlen)))
    have htaken := State.begun_taken s .kresia m k 0x0021 tk hready
    have hbegun : (s.begun .kresia m k).ks.c.fw.stages = s.ks.c.fw.stages := State.begun_stages s .kresia m k .kresia
    obtain ⟨x, hfind, hmailbox, rfl⟩ := State.stageOf_eq_some hstage
    refine ⟨_, hexec, State.answered_of_started htaken, ?_, fun j hj => ?_⟩
    · rw [State.stageOf, State.stages_complete, State.stageWrite_stages, hbegun, FMap.update, FMap.find_set_self,
        FMap.getD, hfind]
      exact if_pos hmailbox
    · rw [State.stages_complete, State.stageWrite_stages, hbegun, FMap.update, FMap.find_set_ne _ hj]
  case refine_21 =>
    intro s m k tk hready hstage
    simp only [exec, execStageGet, State.serve_ready _ _ _ _ _ _ _ hready, Taken.f_started, State.begun_stageOf, hstage]
  case refine_22 =>
    intro s m k tk area hready hstage hbad
    simp only [exec, execStageGet, State.serve_ready _ _ _ _ _ _ _ hready, Taken.f_started, State.begun_stageOf, hstage]
    exact congrArg Host.Outcome.next (if_pos (stageRange_iff.2 hbad))
  case refine_23 =>
    intro s m k tk area hready hstage hoff hlen hmax
    have hrange := mt stageRange_iff.1 (not_or.2 ⟨not_not.2 hoff, not_or.2 ⟨not_not.2 hlen, Nat.not_lt.2 hmax⟩⟩)
    simp only [exec, execStageGet, State.serve_ready _ _ _ _ _ _ _ hready, Taken.f_started, State.begun_stageOf, hstage]
    exact congrArg Host.Outcome.next (if_neg hrange)
  case refine_24 =>
    intro s m k tk hready hstage
    simp only [exec, execStageFree, State.serve_ready _ _ _ _ _ _ _ hready, Taken.f_started, State.begun_stageOf, hstage]
  case refine_25 =>
    intro s m k tk area hready hstage
    have hexec : exec (.stageFree .kresia m k) s =
        .next ((((s.begun .kresia m k).setStages fun l => FMap.erase l (tk.f 8 4)).showStages).complete .kresia m k 0) := by
      simp only [exec, execStageFree, State.serve_ready _ _ _ _ _ _ _ hready, Taken.f_started, State.begun_stageOf, hstage]
      rfl
    have htaken := State.begun_taken s .kresia m k 0x0023 tk hready
    refine ⟨_, hexec, State.answered_of_started htaken, ?_, ?_⟩
    · rw [State.stages_complete, State.stages_showStages, State.stages_setStages]
      exact congrArg (fun l => FMap.erase l (tk.f 8 4)) (State.begun_stages s .kresia m k .kresia)
    · rw [State.stageUsed, State.stages_complete]
      exact State.rd_showStages_complete 0 [] []

end Sys2Proof.Machine

/-! The proof of O55: the commands of time and of members, and what a Baxel takes of admissions and bindings. -/

namespace Sys2Proof.Machine

section
variable {s : State} {m k : Nat} {tk : Taken}

/-! ### The mailboxes stand while the time unit is changed -/

theorem State.mslot_of_fw {u : State} {p : Part} (h : (u.pc p).fw = (s.pc p).fw) (m k : Nat) :
    u.mslot p m k = s.mslot p m k := by
  rw [State.mslot, State.mbox, h, State.mslot, State.mbox]

theorem State.modTime_fw (p q : Part) (f : TimeUnit → TimeUnit) : ((s.modTime p f).pc q).fw = (s.pc q).fw := by
  cases p <;> cases q <;> rfl

theorem State.mapDues_fw (p q : Part) (f : Due → Due) : ((s.mapDues p f).pc q).fw = (s.pc q).fw := by
  cases p <;> cases q <;> rfl

theorem State.commit_fw (p q : Part) (dest : Option TimeState) : ((s.commit p dest).pc q).fw = (s.pc q).fw := by
  unfold State.commit
  dsimp only
  split
  · exact State.setFld_fw ..
  · rw [State.mapDues_fw, State.modTime_fw, State.setFld_fw]

theorem State.servoCommit_fw (p q : Part) (offset : Raw → OT) (rate : Int) (dest : Option TimeState) :
    ((s.servoCommit p offset rate dest).pc q).fw = (s.pc q).fw := by
  rw [State.servoCommit, State.commit_fw, State.wr64_fw, State.wr64_fw, State.wr64_fw, State.wrOt_fw]

theorem State.carryPath_fw (q : Part) : (s.carryPath.pc q).fw = (s.pc q).fw := by
  unfold State.carryPath
  dsimp only
  split
  · split
    · rw [State.setUtc, State.setFld_fw, State.modTime_fw, State.modTime_fw]
    · rfl
  · rfl

theorem State.takeRoot_fw (prio epoch : Nat) (q : Part) : ((s.takeRoot prio epoch).pc q).fw = (s.pc q).fw := by
  unfold State.takeRoot
  extract_lets id t s1 s2
  have hs2 : (s2.pc q).fw = (s.pc q).fw := by
    rw [State.carryPath_fw, State.setFld_fw, State.setFld_fw, State.modTime_fw]
  split
  · rw [State.stickyTime_fw, hs2]
  · exact hs2

/-! ### Free start and root resume -/

/-- R58: what a Kresia that takes the root shows of the tree, and what it keeps. -/
theorem State.takeRoot_fields (prio epoch : Nat) :
    (s.takeRoot prio epoch).ks.c.time.crown.isRoot = true ∧
      (s.takeRoot prio epoch).ks.c.time.rootEpoch = epoch % 256 ∧ (s.takeRoot prio epoch).ks.c.time.rootPrio = prio ∧
      (s.takeRoot prio epoch).ks.c.time.rootId = s.ksId ∧ (s.takeRoot prio epoch).ks.c.time.depth = 0 ∧
      (s.takeRoot prio epoch).ks.c.time.parent = none ∧
      (s.takeRoot prio epoch).ks.c.time.active = s.ks.c.time.active ∧
      (s.takeRoot prio epoch).ks.c.time.committed = s.ks.c.time.committed ∧
      (s.takeRoot prio epoch).ks.c.time.rateFreq = s.ks.c.time.rateFreq ∧
      (s.takeRoot prio epoch).ks.c.time.raw = s.ks.c.time.raw := by
  obtain ⟨cls, gm, utc, htime⟩ := s.takeRoot_time prio epoch
  rw [State.pc_kresia] at htime
  rw [htime]
  exact ⟨rfl, rfl, rfl, rfl, rfl, rfl, rfl, rfl, rfl, rfl⟩

theorem State.time_complete (code : Code) (r i : List Byte) :
    (s.complete .kresia m k code r i).ks.c.time = s.ks.c.time := State.complete_time s .kresia m k code r i .kresia

theorem State.time_begun : (s.begun .kresia m k).ks.c.time = s.ks.c.time := State.begun_time s .kresia m k .kresia

theorem State.atPrimary_begun {f : State} (hrole : s.ks.c.time.crown.role = 1) :
    (s.begun .kresia m k).atPrimary .kresia m k f = f := if_pos (by rwa [State.time_begun])

/-- R392: at a Kresia that is not the primary time crown a command of it is another part's. -/
theorem State.atPrimary_begun_ne {f : State} (hrole : s.ks.c.time.crown.role ≠ 1) :
    (s.begun .kresia m k).atPrimary .kresia m k f = (s.begun .kresia m k).complete .kresia m k 0xA10C :=
  if_neg (by rwa [State.time_begun])

/-- R48: a primary time crown that starts freely, root by now, sets GM_TRACEABLE 0 and commits the stated OT. -/
def State.freeStart (s : State) (ot : OT) : State :=
  let s2 := (s.modTime .kresia fun u =>
    { u with gmTraceable := false, crown := { u.crown with freeStarted := true } }).setBit .kresia 0x100310 25 false
  s2.servoCommit .kresia (fun _ => ot) s2.ks.c.time.rateFreq (some .acquiring)

theorem State.freeStart_time {ot : OT} (hot : ot.malformed = false) (hrate : s.ks.c.time.rateFreq.natAbs ≤ 34359738368) :
    (s.freeStart ot).ks.c.time =
      { s.ks.c.time with
        gmTraceable := false, crown := { s.ks.c.time.crown with freeStarted := true }
        committed := some ⟨⟨ot, s.raw .kresia + 1048576000, s.ks.c.time.rateFreq⟩, s.raw .kresia + 1048576000, some .acquiring⟩ } :=
  State.servoCommit_time (s := (s.modTime .kresia fun u =>
    { u with gmTraceable := false, crown := { u.crown with freeStarted := true } }).setBit .kresia 0x100310 25 false)
    (p := .kresia) (offset := fun _ => ot) hot hrate

theorem State.freeStart_fw (ot : OT) (q : Part) : ((s.freeStart ot).pc q).fw = (s.pc q).fw := by
  unfold State.freeStart
  dsimp only
  rw [State.servoCommit_fw, State.setBit_fw, State.modTime_fw]

/-- R45: an order of the sources is taken for the next interval. -/
theorem exec_timeSourceOrder_leaves {a : List PhaseSource} {b : List FreqSource} (hready : s.ready .kresia m k 0x0105 tk)
    (hphase : orderOf [PhaseSource.ptp, .pps, .none, .none] ((List.range 4).map fun i => tk.f (8 + i) 1) = some a)
    (hfreq : orderOf [FreqSource.syncE, .fref, .ptpRate, .board] ((List.range 4).map fun i => tk.f (12 + i) 1) = some b) :
    ∃ t, exec (.timeSourceOrder .kresia m k) s = .next t ∧ t.answered .kresia m k tk 0 [] ∧
      t.ks.c.time.crown.nextOrder = some (a, b) ∧ t.ks.c.time.crown.phaseOrder = s.ks.c.time.crown.phaseOrder ∧
      t.ks.c.time.active = s.ks.c.time.active := by
  have hexec : exec (.timeSourceOrder .kresia m k) s = .next (((s.begun .kresia m k).modTime .kresia fun u =>
      { u with crown := { u.crown with nextOrder := some (a, b) } }).complete .kresia m k 0) := by
    simp only [exec, execTimeSourceOrder, State.serve_ready _ _ _ _ _ _ _ hready, Taken.f_started, hphase, hfreq]
  refine ⟨_, hexec, State.answered_of_started (State.begun_taken s .kresia m k 0x0105 tk hready), ?_⟩
  rw [State.time_complete]
  refine ⟨rfl, ?_, ?_⟩
  · change (s.begun .kresia m k).ks.c.time.crown.phaseOrder = _
    rw [State.time_begun]
  · change (s.begun .kresia m k).ks.c.time.active = _
    rw [State.time_begun]

/-! ### The swap calibration -/

/-- R56: what the swap calibration does once it is started. -/
def State.swapTake (s : State) (x : TimeCrown) (m k : Nat) (t : Taken) : State :=
  if x.role = 0 || x.siteRoot then s.wrongPart .kresia m k none
  else if !(s.pt .kresia (t.f 8 1)).swapFits (t.f 9 1) then s.complete .kresia m k 0xA103
  else match (s.pt .kresia (t.f 8 1)).swapMean with
    | some v => s.swapRecord m k (t.f 8 1) (t.f 9 1) v
    | none => s

/-- Whether the swap calibration is this Kresia's to do (R56). -/
def State.swapMine (s : State) (tk : Taken) : Bool :=
  !(decide (s.ks.c.time.crown.role = 0) || s.ks.c.time.crown.siteRoot) && (s.pt .kresia (tk.f 8 1)).swapFits (tk.f 9 1)

theorem exec_timeSwapCal_ready (hready : s.ready .kresia m k 0x0104 tk) : exec (.timeSwapCal .kresia m k) s =
    if s.swapMine tk && decide ((s.pt .kresia (tk.f 8 1)).swapPhase ≠ some (tk.f 9 1)) then
      .next (s.swapStart (tk.f 8 1) (tk.f 9 1))
    else if s.swapMine tk && (s.pt .kresia (tk.f 8 1)).swapMean.isNone then .next s
    else .next ((s.begun .kresia m k).swapTake s.ks.c.time.crown m k { tk with started := true }) := by
  obtain ⟨htaken, hop, hstarts⟩ := id hready
  simp only [exec, execTimeSwapCal, htaken, hop, hstarts, decide_true, Bool.true_and, Bool.and_true]
  rw [State.serve_ready _ _ _ _ _ _ _ hready]
  rfl

theorem State.swapMine_of_fits (hrole : s.ks.c.time.crown.role ≠ 0) (hsite : s.ks.c.time.crown.siteRoot = false) :
    s.swapMine tk = (s.pt .kresia (tk.f 8 1)).swapFits (tk.f 9 1) := by
  simp only [State.swapMine, hsite, decide_eq_false hrole, Bool.or_self, Bool.not_false, Bool.true_and]

theorem State.pt_begun (n : Nat) : (s.begun .kresia m k).pt .kresia n = s.pt .kresia n :=
  State.pt_congr (congrArg TimeUnit.ports (State.begun_time s .kresia m k .kresia)) n

/-- R56: a phase that does not fit is refused. -/
theorem exec_timeSwapCal_unfit (hready : s.ready .kresia m k 0x0104 tk) (hrole : s.ks.c.time.crown.role ≠ 0)
    (hsite : s.ks.c.time.crown.siteRoot = false) (hfits : (s.pt .kresia (tk.f 8 1)).swapFits (tk.f 9 1) = false) :
    exec (.timeSwapCal .kresia m k) s = .next ((s.begun .kresia m k).complete .kresia m k 0xA103) := by
  rw [exec_timeSwapCal_ready hready, State.swapMine_of_fits hrole hsite, hfits, Bool.false_and, if_neg Bool.false_ne_true,
    Bool.false_and, if_neg Bool.false_ne_true]
  refine congrArg Host.Outcome.next ((if_neg ?_).trans (if_pos ?_))
  · rw [hsite, decide_eq_false hrole]
    exact Bool.false_ne_true
  · rw [State.pt_begun]
    exact congrArg (!·) hfits

/-- R56: after 1,024 intervals of its phase the swap calibration is recorded. -/
theorem exec_timeSwapCal_mean (hready : s.ready .kresia m k 0x0104 tk) (hrole : s.ks.c.time.crown.role ≠ 0)
    (hsite : s.ks.c.time.crown.siteRoot = false) (hfits : (s.pt .kresia (tk.f 8 1)).swapFits (tk.f 9 1) = true)
    (hphase : (s.pt .kresia (tk.f 8 1)).swapPhase = some (tk.f 9 1)) (hcount : (s.pt .kresia (tk.f 8 1)).swapCount = 1024) :
    exec (.timeSwapCal .kresia m k) s = .next ((s.begun .kresia m k).swapRecord m k (tk.f 8 1) (tk.f 9 1)
      (floorDiv (s.pt .kresia (tk.f 8 1)).swapSum 1024)) := by
  have hmean : (s.pt .kresia (tk.f 8 1)).swapMean = some (floorDiv (s.pt .kresia (tk.f 8 1)).swapSum 1024) := if_pos hcount
  rw [exec_timeSwapCal_ready hready, hphase, decide_eq_false (not_not.2 rfl), Bool.and_false, if_neg Bool.false_ne_true,
    hmean, Option.isNone_some, Bool.and_false, if_neg Bool.false_ne_true]
  refine congrArg Host.Outcome.next ((if_neg ?_).trans ((if_neg ?_).trans ?_))
  · rw [hsite, decide_eq_false hrole]
    exact Bool.false_ne_true
  · rw [State.pt_begun]
    exact fun h => Bool.false_ne_true ((congrArg (!·) hfits).symm.trans h)
  · rw [State.pt_begun, Taken.f_started, hmean]
    rfl

/-- R56: the record of a swap calibration, its slot still to be completed. -/
def State.swapFresh (s : State) (port phase : Nat) (theta : Int) : State :=
  s.modPt .kresia port fun y =>
    { y with swapSum := 0, swapCount := 0, swapPhase := none, thetaA := if phase = 0 then some theta else y.thetaA }

theorem State.rd_swapFresh (port phase : Nat) (theta : Int) (a : Nat) :
    (s.swapFresh port phase theta).rd .kresia a = s.rd .kresia a := rfl

/-- R56: the second phase gives ASYM, or refuses it out of range. -/
theorem State.swapRecord_second {port : Nat} {a theta : Int} (htheta : (s.pt .kresia port).thetaA = some a) :
    s.swapRecord m k port 1 theta =
      if (decide (asymOf a theta < -65536) || decide (65536 < asymOf a theta)) = true then
        (s.swapFresh port 1 theta).complete .kresia m k 0x100F
      else ((s.swapFresh port 1 theta).wr .kresia (ttPort .kresia port 8) (BitVec.ofInt 32 (asymOf a theta))).complete .kresia m k 0
        (leBytes 8 (BitVec.ofInt 64 theta).toNat ++ leBytes 4 (BitVec.ofInt 32 (asymOf a theta)).toNat) := by
  simp only [State.swapRecord, htheta]
  rfl

/-- The register ASYM of a port stands through a completion (R55, R336). -/
theorem State.rd_complete_ttPort (port : Nat) (code : Code) (r i : List Byte) :
    (s.complete .kresia m k code r i).rd .kresia (ttPort .kresia port 8) = s.rd .kresia (ttPort .kresia port 8) := by
  cases h : (s.mslot .kresia m k).taken with
  | none => simp only [State.complete, h]
  | some tk =>
    refine State.rd_complete_ne h fun hc => ?_
    have haddr : 0x101000 + 32 * port + 8 = 0x1B012C := hc.2.2.2.2
    omega

theorem State.lp_begun (n : Nat) : (s.begun .kresia m k).lp .kresia n = s.lp .kresia n :=
  State.lp_congr (congrArg LinkUnit.ports (State.begun_link s .kresia m k .kresia))

theorem State.memberBound_begun (member port : Nat) :
    (s.begun .kresia m k).memberBound member port = s.memberBound member port := by
  rw [State.memberBound, State.memberBound, State.lp_begun, State.begun_ks_doms]

/-- R27: An admission at a leaf, its operands in range. -/
theorem exec_memberAdmit_leaf (hready : s.ready .kresia m k 0x0201 tk) (hspine : s.isSpine = false)
    (hmember : tk.f 8 3 < 2 ^ 20) (hport : tk.f 11 1 < s.ks.build.dies) : exec (.memberAdmit .kresia m k) s = .next
      (if (!s.ksReady) = true then (s.begun .kresia m k).complete .kresia m k 0x1010
       else match (s.lp .kresia (tk.f 11 1)).hb with
        | none => (s.begun .kresia m k).complete .kresia m k 0x1010
        | some b =>
          if b.timeState ≠ 2 then (s.begun .kresia m k).complete .kresia m k 0x1010
          else if b.singleDomain then (s.begun .kresia m k).complete .kresia m k 0x9001
          else if b.node ≠ 0 && b.node ≠ tk.f 8 3 then (s.begun .kresia m k).complete .kresia m k 0xA10F
          else (((s.begun .kresia m k).modKs fun z => { z with admitted := FMap.set z.admitted (tk.f 8 3) (tk.f 11 1) }).emit
            (.send .kresia (.port (tk.f 11 1)) (.admission (tk.f 8 3)))).complete .kresia m k 0) := by
  simp only [exec, execMemberAdmit, State.serve_ready _ _ _ _ _ _ _ hready, State.begun_isSpine, hspine,
    Bool.false_eq_true, if_false, State.begun_ks_build, State.begun_ksReady, State.lp_begun]
  refine congrArg Host.Outcome.next (if_neg ?_)
  rw [Bool.or_eq_true, decide_eq_true_eq, decide_eq_true_eq]
  exact not_or.2 ⟨Nat.not_le.2 hmember, Nat.not_le.2 hport⟩

theorem State.pt_complete (code : Code) (r i : List Byte) (n : Nat) :
    (s.complete .kresia m k code r i).pt .kresia n = s.pt .kresia n :=
  State.pt_congr (congrArg TimeUnit.ports (State.complete_time s .kresia m k code r i .kresia)) n

/-! ### Bindings -/

variable {x : Binding}

/-- R202: a tenant as its binding leaves it. -/
def Tenant.boundTo (t : Tenant) (x : Binding) : Tenant :=
  { domain := some x.domain, faulted := t.faulted, tcq := t.tcq, lpGo := t.lpGo, position := x.position, group := x.group,
    port := x.port }

/-- R27: the state in which the slots of a tenant are given up. -/
def State.slotsEnded (s : State) (t : Nat) : State :=
  (s.slotsOf t).foldl (fun (s : State) (q : Nat × Slot) =>
    if q.2.state = .free then s else (s.slotVoid t q.1).modSlot t q.1 fun _ => {}) s

theorem exec_tenantBindingRx_own (hmember : x.member = s.node .baxel) (hnode : s.bit .baxel 4 31 = true) (htenant : x.tenant < 4) :
    exec (.tenantBindingRx x) s =
      if x.bound then
        if (s.ten x.tenant).domain.isSome then .next s
        else .next (s.modTen x.tenant fun _ => (s.ten x.tenant).boundTo x)
      else if (s.ten x.tenant).domain = some x.domain then
        .next ((s.slotsEnded x.tenant).modTen x.tenant fun _ =>
          { faulted := (s.ten x.tenant).faulted, tcq := (s.ten x.tenant).tcq, lpGo := (s.ten x.tenant).lpGo })
      else .next s := by
  have hown : (decide (x.member = s.node .baxel) && s.bit .baxel 4 31 && decide (x.tenant < 4)) = true := by
    rw [hnode, decide_eq_true hmember, decide_eq_true htenant]
    rfl
  exact if_pos hown

theorem exec_tenantBindingRx_end (hmember : x.member = s.node .baxel) (hnode : s.bit .baxel 4 31 = true) (htenant : x.tenant < 4)
    (hbound : x.bound = false) (hheld : (s.ten x.tenant).domain = some x.domain) :
    exec (.tenantBindingRx x) s = .next ((s.slotsEnded x.tenant).modTen x.tenant fun _ =>
      { faulted := (s.ten x.tenant).faulted, tcq := (s.ten x.tenant).tcq, lpGo := (s.ten x.tenant).lpGo }) := by
  rw [exec_tenantBindingRx_own hmember hnode htenant, if_neg (by rw [hbound]; exact Bool.false_ne_true), if_pos hheld]

theorem exec_tenantBindingRx_other (hmember : x.member ≠ s.node .baxel) :
    exec (.tenantBindingRx x) s = match s.tenantOf x.domain with
      | none => .next s
      | some u =>
        if x.bound then
          .next (s.modTen u fun y =>
            { y with peers := y.peers.set x.position (x.member, x.group)
                     v2Peers := if x.v2 then x.member :: y.v2Peers else y.v2Peers })
        else .next s := by
  have hother : ¬ (decide (x.member = s.node .baxel) && s.bit .baxel 4 31 && decide (x.tenant < 4)) = true := by
    rw [decide_eq_false hmember]
    exact Bool.false_ne_true
  exact if_neg hother

end

/-- Settles O55: the time unit is followed through each command, the mailbox slot through what leaves it alone. -/
theorem timeAndMemberCommands : Obligations.TimeAndMemberCommands := by
  unfold Obligations.TimeAndMemberCommands
  refine ⟨?_, ?_, ?_, ?_, ?_, ?_, ?_, ?_, ?_, ?_, ?_, ?_, ?_, ?_, ?_, ?_, ?_, ?_, ?_, ?_, ?_, ?_, ?_, ?_, ?_, ?_, ?_, ?_, ?_,
    ?_, ?_, ?_, ?_, ?_, ?_⟩
  case refine_1 =>
    intro s p m k tk hready
    simp only [exec, execTimeRead, State.serve_ready _ _ _ _ _ _ _ hready, State.begun_time]
  case refine_2 =>
    intro s m k tk hready hrole
    simp only [exec, execTimeFreeStart, State.serve_ready _ _ _ _ _ _ _ hready]
    exact congrArg Host.Outcome.next (State.atPrimary_begun_ne hrole)
  case refine_3 =>
    intro s m k tk hready hrole hot
    simp only [exec, execTimeFreeStart, State.serve_ready _ _ _ _ _ _ _ hready, hot, if_true]
    exact congrArg Host.Outcome.next (State.atPrimary_begun hrole)
  case refine_4 =>
    intro s m k tk hready hrole hot hroot hrate
    have hexec : exec (.timeFreeStart .kresia m k) s = .next ((((s.begun .kresia m k).takeRoot 0
        s.ks.c.time.rootEpoch).freeStart (leOt tk.bytes 8)).complete .kresia m k 0) := by
      simp only [exec, execTimeFreeStart, State.serve_ready _ _ _ _ _ _ _ hready, hot, Bool.false_eq_true, if_false]
      rw [State.atPrimary_begun hrole, State.time_begun, if_neg (by rw [hroot]; exact Bool.false_ne_true)]
      rfl
    have htaken := State.begun_taken s .kresia m k 0x0102 tk hready
    have hfw := (State.freeStart_fw (s := (s.begun .kresia m k).takeRoot 0 s.ks.c.time.rootEpoch)
      (leOt tk.bytes 8) .kresia).trans (State.takeRoot_fw ..)
    obtain ⟨hisRoot, -, -, -, -, -, hactive, -, hrateFreq, hraw⟩ :=
      (s.begun .kresia m k).takeRoot_fields 0 s.ks.c.time.rootEpoch
    rw [State.time_begun] at hactive hrateFreq hraw
    have htime := State.freeStart_time (s := (s.begun .kresia m k).takeRoot 0 s.ks.c.time.rootEpoch) hot
      (by rw [hrateFreq]; exact hrate)
    refine ⟨_, hexec, State.answered_of_started ((congrArg MSlot.taken (State.mslot_of_fw hfw m k)).trans htaken), ?_⟩
    rw [State.time_complete, htime]
    refine ⟨hisRoot, rfl, rfl, by exact hactive, ?_⟩
    rw [State.raw, State.pc_kresia, hraw, hrateFreq]
    rfl
  case refine_5 =>
    intro s m k tk hready hrole
    simp only [exec, execTimeRootResume, State.serve_ready _ _ _ _ _ _ _ hready]
    exact congrArg Host.Outcome.next (State.atPrimary_begun_ne hrole)
  case refine_6 =>
    intro s m k tk hready hrole hroot
    simp only [exec, execTimeRootResume, State.serve_ready _ _ _ _ _ _ _ hready]
    rw [State.atPrimary_begun hrole, if_pos (by rw [State.time_begun, hroot])]
  case refine_7 =>
    intro s m k tk hready hrole hroot
    have hexec : exec (.timeRootResume .kresia m k) s =
        .next (((s.begun .kresia m k).takeRoot 0 (s.ks.c.time.rootEpoch + 1)).complete .kresia m k 0) := by
      simp only [exec, execTimeRootResume, State.serve_ready _ _ _ _ _ _ _ hready]
      rw [State.atPrimary_begun hrole, State.time_begun, if_neg (by rw [hroot]; exact Bool.false_ne_true)]
    obtain ⟨hisRoot, hepoch, hprio, hid, hdepth, hparent, hactive, hcommitted, -, -⟩ :=
      (s.begun .kresia m k).takeRoot_fields 0 (s.ks.c.time.rootEpoch + 1)
    rw [State.begun_ksId] at hid
    rw [State.time_begun] at hactive hcommitted
    have htaken := State.begun_taken s .kresia m k 0x0103 tk hready
    refine ⟨_, hexec, State.answered_of_started ((congrArg MSlot.taken (State.mslot_of_fw (State.takeRoot_fw ..) m k)).trans htaken), ?_⟩
    rw [State.time_complete]
    exact ⟨hisRoot, hepoch, hprio, hid, hdepth, hparent, hactive, hcommitted⟩
  case refine_8 =>
    intro s m k tk hready horder
    have hnone : orderOf [PhaseSource.ptp, .pps, .none, .none] ((List.range 4).map fun i => tk.f (8 + i) 1) = none :=
      if_neg (Bool.eq_false_iff.1 horder)
    simp only [exec, execTimeSourceOrder, State.serve_ready _ _ _ _ _ _ _ hready, Taken.f_started, hnone]
  case refine_9 =>
    intro s m k tk hready hphase hfreq
    refine exec_timeSourceOrder_leaves hready ?_ ?_
    · rw [show (List.range 4).map (fun i => tk.f (8 + i) 1) = [2, 1, 3, 4] from hphase]
      decide
    · rw [show (List.range 4).map (fun i => tk.f (12 + i) 1) = [4, 3, 2, 1] from hfreq]
      decide
  case refine_10 =>
    intro s m k tk a b hready hphase hfreq
    exact exec_timeSourceOrder_leaves hready hphase hfreq
  case refine_11 =>
    intro s m k tk hready hother
    have hmine : s.swapMine tk = false := by
      obtain h | h := hother
      · simp only [State.swapMine, h, decide_true, Bool.true_or, Bool.not_true, Bool.false_and]
      · simp only [State.swapMine, h, Bool.or_true, Bool.not_true, Bool.false_and]
    rw [exec_timeSwapCal_ready hready, hmine, Bool.false_and, if_neg Bool.false_ne_true, Bool.false_and,
      if_neg Bool.false_ne_true]
    refine congrArg Host.Outcome.next (if_pos ?_)
    rwa [Bool.or_eq_true, decide_eq_true_eq]
  case refine_12 =>
    intro s m k tk hready hrole hsite hphase
    refine exec_timeSwapCal_unfit hready hrole hsite ?_
    rw [PortTime.swapFits, decide_eq_false (by omega), decide_eq_false (by omega), Bool.false_and, Bool.or_self]
  case refine_13 =>
    intro s m k tk hready hrole hsite hfits hphase hcount
    have hmean : (s.pt .kresia (tk.f 8 1)).swapMean = none := if_neg hcount
    rw [exec_timeSwapCal_ready hready, State.swapMine_of_fits hrole hsite, hfits, hphase, decide_eq_false (not_not.2 rfl),
      Bool.and_false, if_neg Bool.false_ne_true, hmean]
    rfl
  case refine_14 =>
    intro s m k tk hready hrole hsite hfits hphase
    rw [exec_timeSwapCal_ready hready, State.swapMine_of_fits hrole hsite, hfits, decide_eq_true hphase]
    rfl
  case refine_15 =>
    intro s m k tk hready hrole hsite hphase htheta
    refine exec_timeSwapCal_unfit hready hrole hsite ?_
    rw [PortTime.swapFits, htheta, decide_eq_false (by omega), Option.isSome_none, Bool.and_false, Bool.or_self]
  case refine_16 =>
    intro s m k tk hready hrole hsite hphase hswap hcount
    have hexec := exec_timeSwapCal_mean hready hrole hsite (by rw [PortTime.swapFits, hphase]; rfl) (by rw [hphase]; exact hswap) hcount
    rw [hphase, State.swapRecord, if_pos rfl, State.begun_rd] at hexec
    have htaken := State.begun_taken s .kresia m k 0x0104 tk hready
    refine ⟨_, hexec, State.answered_of_started htaken, ?_, ?_⟩
    · rw [State.pt_complete, State.pt_modPt]
      rfl
    · rw [State.pt_complete, State.pt_modPt]
  case refine_17 =>
    intro s m k tk a hready hrole hsite hphase hswap hcount htheta hlo hhi
    have hexec := exec_timeSwapCal_mean hready hrole hsite (by rw [PortTime.swapFits, hphase, htheta]; rfl) (by rw [hphase]; exact hswap) hcount
    rw [hphase, State.swapRecord_second (State.pt_begun (tk.f 8 1) ▸ htheta), if_neg (by simp; omega)] at hexec
    have htaken := State.begun_taken s .kresia m k 0x0104 tk hready
    have hanswer := fun r => State.answered_of_started (s := ((s.begun .kresia m k).swapFresh (tk.f 8 1) 1
      (floorDiv (s.pt .kresia (tk.f 8 1)).swapSum 1024)).wr .kresia (ttPort .kresia (tk.f 8 1) 8) (BitVec.ofInt 32 (asymOf a
        (floorDiv (s.pt .kresia (tk.f 8 1)).swapSum 1024)))) (p := .kresia) (m := m) (k := k) (tk := tk) (code := 0) (r := r)
        (i := []) htaken
    obtain ⟨hcomp, hdone⟩ := hanswer _
    refine ⟨_, hexec, ?_, hdone, congrArg Completion.status hcomp⟩
    rw [State.rd_complete_ttPort, State.rd_wr_self]
  case refine_18 =>
    intro s m k tk a hready hrole hsite hphase hswap hcount htheta hrange
    have hexec := exec_timeSwapCal_mean hready hrole hsite (by rw [PortTime.swapFits, hphase, htheta]; rfl)
      (by rw [hphase]; exact hswap) hcount
    rw [hphase, State.swapRecord_second (State.pt_begun (tk.f 8 1) ▸ htheta), if_pos (by simpa using hrange)] at hexec
    have htaken := State.begun_taken s .kresia m k 0x0104 tk hready
    refine ⟨_, hexec, State.answered_of_started htaken, ?_⟩
    rw [State.rd_complete_ttPort]
    exact (State.rd_swapFresh ..).trans (State.begun_rd ..)
  case refine_19 =>
    intro s m k tk hready hspine
    simp only [exec, execMemberAdmit, State.serve_ready _ _ _ _ _ _ _ hready, State.begun_isSpine, hspine, if_true]
    rfl
  case refine_20 =>
    intro s m k tk hready hspine hrange
    simp only [exec, execMemberAdmit, State.serve_ready _ _ _ _ _ _ _ hready, State.begun_isSpine, hspine,
      Bool.false_eq_true, if_false, State.begun_ks_build]
    refine congrArg Host.Outcome.next (if_pos ?_)
    rwa [Bool.or_eq_true, decide_eq_true_eq, decide_eq_true_eq]
  case refine_21 =>
    intro s m k tk hready hspine hmember hport hnot
    rw [exec_memberAdmit_leaf hready hspine hmember hport]
    obtain h | h := hnot
    · rw [h, if_pos (by rfl)]
    · rw [h]
      split <;> rfl
  case refine_22 =>
    intro s m k tk b hready hspine hmember hport hksReady hhb
    rw [exec_memberAdmit_leaf hready hspine hmember hport, hhb, if_neg (by rw [hksReady]; exact Bool.false_ne_true)]
    simp only [Bool.and_eq_true, decide_eq_true_eq]
  case refine_23 =>
    intro s m k tk hready hnone
    simp only [exec, execMemberRetire, State.serve_ready _ _ _ _ _ _ _ hready, State.begun_ks_admitted, Taken.f_started, hnone]
    rfl
  case refine_24 =>
    intro s m k tk port hready hsome
    simp only [exec, execMemberRetire, State.serve_ready _ _ _ _ _ _ _ hready, State.begun_ks_admitted, Taken.f_started, hsome,
      State.memberBound_begun]
  case refine_25 =>
    intro s port member hport hfree
    simp only [exec, execMemberAdmissionRx, if_neg (Nat.not_le.2 hport), hfree, Bool.false_eq_true, if_false]
  case refine_26 =>
    intro s port member h
    simp only [exec, execMemberAdmissionRx, Bool.false_eq_true, if_false]
    obtain h | h := h <;> simp [h]
  case refine_27 =>
    intro s port hport hheld
    simp only [exec, execMemberAdmissionRx, if_neg (Nat.not_le.2 hport), hheld, decide_true, Bool.and_self, if_true]
  case refine_28 =>
    intro s port member h
    simp only [exec, execMemberAdmissionRx, if_true]
    obtain h | h | h := h
    · simp [h]
    · simp [h]
    · simp [Ne.symm h]
  case refine_29 =>
    intro s x hmember hnode htenant hbound hfree
    have hexec : exec (.tenantBindingRx x) s = .next (s.modTen x.tenant fun _ => (s.ten x.tenant).boundTo x) := by
      rw [exec_tenantBindingRx_own hmember hnode htenant, if_pos hbound, hfree]
      rfl
    refine ⟨_, hexec, ?_⟩
    rw [State.ten_modTen]
    exact ⟨rfl, rfl, rfl, rfl, rfl, rfl, rfl, rfl⟩
  case refine_30 =>
    intro s x d hmember hnode htenant hbound hheld
    rw [exec_tenantBindingRx_own hmember hnode htenant, if_pos hbound, hheld]
    rfl
  case refine_31 =>
    intro s x hmember hnode htenant hbound hheld hslots
    have hexec := exec_tenantBindingRx_end hmember hnode htenant hbound hheld
    rw [State.slotsEnded, hslots, List.foldl_nil] at hexec
    refine ⟨_, hexec, ?_⟩
    rw [State.ten_modTen]
    exact ⟨rfl, rfl, rfl, rfl⟩
  case refine_32 =>
    intro s x hmember hnode htenant hbound hheld
    refine ⟨_, exec_tenantBindingRx_end hmember hnode htenant hbound hheld, ?_⟩
    rw [State.ten_modTen]
    exact ⟨rfl, rfl, rfl⟩
  case refine_33 =>
    intro s x hmember hnode htenant hbound hother
    rw [exec_tenantBindingRx_own hmember hnode htenant, if_neg (by rw [hbound]; exact Bool.false_ne_true), if_neg hother]
  case refine_34 =>
    intro s x hmember h
    rw [exec_tenantBindingRx_other hmember]
    obtain h | h := h
    · rw [h]
    · rw [h]
      split <;> rfl
  case refine_35 =>
    intro s x u hmember htenant hbound
    have hexec : exec (.tenantBindingRx x) s = .next (s.modTen u fun y =>
        { y with peers := y.peers.set x.position (x.member, x.group)
                 v2Peers := if x.v2 then x.member :: y.v2Peers else y.v2Peers }) := by
      rw [exec_tenantBindingRx_other hmember, htenant, hbound]
      rfl
    refine ⟨_, hexec, ?_⟩
    rw [State.ten_modTen]
    exact ⟨rfl, rfl, rfl, rfl, rfl⟩

end Sys2Proof.Machine

/-! The proof of O56: the commands of tenants, cluster objects, fences and events. -/

namespace Sys2Proof.Machine

section
variable {s : State} {k i : Nat}

/-! ### What a tenant's fault leaves of the other tenants and of the mailboxes (R114) -/

/-- From one state to another, the firmware of the Baxel and every tenant but one stand. -/
def OthersStand (k : Nat) (s t : State) : Prop := t.bx.c.fw = s.bx.c.fw ∧ ∀ j, j ≠ k → t.ten j = s.ten j

theorem OthersStand.trans {t u : State} (h : OthersStand k s t) (h' : OthersStand k t u) : OthersStand k s u :=
  ⟨h'.1.trans h.1, fun j hj => (h'.2 j hj).trans (h.2 j hj)⟩

theorem OthersStand.of_eq {t : State} (hfw : t.bx.c.fw = s.bx.c.fw) (hten : t.bx.tenants = s.bx.tenants) : OthersStand k s t :=
  ⟨hfw, fun _ _ => by rw [State.ten, hten, State.ten]⟩

theorem othersStand_count (e : Ev) (n : Nat) : OthersStand k s (s.count e n) :=
  .of_eq (State.count_fw s e n .baxel) (State.count_bx_tenants ..)

theorem othersStand_withdrawLp (t j : Nat) (e : Slot) : OthersStand k s (s.withdrawLp t j e) := by
  unfold State.withdrawLp
  split <;> exact .of_eq rfl rfl

theorem othersStand_slotVoid (t j : Nat) : OthersStand k s (s.slotVoid t j) :=
  OthersStand.trans (t := (s.dropGate t j).withdrawLp t j (s.slot t j))
    (OthersStand.trans (t := s.dropGate t j) (.of_eq rfl rfl) (othersStand_withdrawLp t j _)) (.of_eq rfl rfl)

theorem othersStand_faultSlot : OthersStand k s (s.faultSlot k i) := by
  have hvoid : OthersStand k s ((s.slotVoid k i).count (evT k 0x104)) := (othersStand_slotVoid k i).trans (othersStand_count _ _)
  simp only [State.faultSlot]
  split
  · exact hvoid
  · exact hvoid
  · exact hvoid
  · split
    · exact OthersStand.trans (t := (s.withdrawLp k i (s.slot k i)).modSlot k i fun e => e.bellNext s.bx.c.time)
        ((othersStand_withdrawLp k i _).trans (.of_eq rfl rfl)) (othersStand_count _ _)
    · exact .of_eq rfl rfl
  · exact .of_eq rfl rfl

/-- R121: the end of a waiter is its owner's. -/
theorem othersStand_endWaiter {w : Waiter} (hw : ∀ j, w.source ≠ .gate j) (howner : w.owner = k) (o : Nat) (code : Code) :
    OthersStand k s (s.endWaiter .baxel o w code) := by
  have hsample (ev : Nat) (dt : Int) (ten : Option Nat) : OthersStand k s (s.sample .baxel ev dt (ten := ten)) :=
    .of_eq (State.sample_fw s .baxel ev dt none ten none none .baxel) (State.sample_bx_tenants ..)
  simp only [State.endWaiter]
  split
  · exact (hsample ..).trans (.of_eq rfl rfl)
  · subst howner
    exact (hsample ..).trans ⟨rfl, fun j hj => State.ten_modTen_ne _ hj _⟩
  · next h => exact absurd h (hw _)
  · exact hsample ..

theorem othersStand_endTenantWaiters (code : Code) : OthersStand k s (s.endTenantWaiters k code) := by
  refine List.foldlRecOn (motive := fun u => OthersStand k s u) _ _ (.of_eq rfl rfl) fun u hu x _ => ?_
  obtain ⟨o, x⟩ := x
  refine List.foldlRecOn (motive := fun u => OthersStand k s u) _ _ ?_ fun u hu w hw => ?_
  · split
    · exact hu
    · exact hu.trans (.of_eq rfl rfl)
  · split
    · exact hu
    · next hgate => exact hu.trans (othersStand_endWaiter hgate (by simpa using (List.mem_filter.1 hw).2) _ _)

theorem othersStand_tenantFault (cause : Code) : OthersStand k s (s.tenantFault k cause) := by
  unfold State.tenantFault
  extract_lets x s1 s2 s3
  have h3 : OthersStand k s s3 := by
    have h1 : OthersStand k s s1 := 
      ⟨rfl, fun j hj => State.ten_modTen_ne s hj fun y => { y with faulted := true }⟩
    have h2 : OthersStand k s s2 :=
      List.foldlRecOn (motive := fun u => OthersStand k s u) _ _ h1 fun u hu q _ => hu.trans othersStand_faultSlot
    exact (h2.trans (othersStand_endTenantWaiters _)).trans (.of_eq rfl rfl)
  split
  · exact .of_eq rfl rfl
  · split
    · exact h3.trans (.of_eq rfl rfl)
    · exact h3

/-- R114: a fault marks its tenant, whether it was faulted or not. -/
theorem State.tenantFault_faulted (cause : Code) : ((s.tenantFault k cause).ten k).faulted = true := by
  cases hok : (s.ten k).faulted with
  | true =>
    have hkeep : s.tenantFault k cause = s := if_pos hok
    rw [hkeep, hok]
  | false =>
    obtain ⟨u, hfaulted, -, -, heq⟩ := s.tenantFault_of_ok (cause := cause) hok
    rw [heq]
    split
    · exact hfaulted
    · exact hfaulted

/-! ### Recovery (R115) -/

/-- R115: a tenant recovered, its slots and objects still to be set right. -/
def State.unfaulted (s : State) (k : Nat) : State :=
  (s.modTen k fun x => { x with faulted := false }).modBank .baxel (k + 1) fun b => { b with poison := false }

theorem State.unfaulted_poison : ((s.unfaulted k).bank .baxel (k + 1)).poison = false := by
  rw [State.unfaulted, State.bank_modBank]

/-- R115: one void slot is loaded again. -/
def State.reloadSlot (s : State) (k : Nat) (q : Nat × Slot) : State :=
  if q.2.state = .void then s.modSlot k q.1 fun e => { e with state := .loaded } else s

/-- From one state to another, of the Baxel only its slots and objects may differ. -/
def OnlySlots (s t : State) : Prop := t.bx.c = s.bx.c ∧ t.bx.tenants = s.bx.tenants

theorem OnlySlots.trans {t u : State} (h : OnlySlots s t) (h' : OnlySlots t u) : OnlySlots s u :=
  ⟨h'.1.trans h.1, h'.2.trans h.2⟩

theorem OnlySlots.slotNo {t : State} (h : OnlySlots s t) (k i : Nat) : t.slotNo k i = s.slotNo k i := by
  have hrd (a : Nat) : t.rd .baxel a = s.rd .baxel a := by rw [State.rd, State.pc_baxel, h.1, State.rd, State.pc_baxel]
  simp only [State.slotNo, State.llCount, State.llBase, State.fld_congr (hrd _)] <;> rfl

theorem onlySlots_reloadSlot (q : Nat × Slot) : OnlySlots s (s.reloadSlot k q) := by
  unfold State.reloadSlot
  split <;> exact ⟨rfl, rfl⟩

theorem State.slot_reloadSlot_self {q : Nat × Slot} (hvoid : q.2.state = .void) :
    ((s.reloadSlot k q).slot k q.1).state = .loaded := by
  rw [State.reloadSlot, if_pos hvoid]
  exact congrArg Slot.state (FMap.getD_update_self s.bx.slots (s.slotNo k q.1) {} fun e => { e with state := .loaded })

theorem State.slot_reloadSlot_loaded (q : Nat × Slot) {j : Nat} (h : (s.slot k j).state = .loaded) :
    ((s.reloadSlot k q).slot k j).state = .loaded := by
  unfold State.reloadSlot
  split
  · by_cases hno : s.slotNo k j = s.slotNo k q.1
    · refine congrArg Slot.state (?_ : _ = { s.slot k q.1 with state := .loaded })
      change FMap.getD (α := Slot) _ (s.slotNo k j) {} = _
      rw [hno]
      exact FMap.getD_update_self s.bx.slots (s.slotNo k q.1) {} fun e => { e with state := .loaded }
    · refine Eq.trans (congrArg Slot.state ?_) h
      exact FMap.getD_update_ne s.bx.slots hno {} {} fun e => { e with state := .loaded }
  · exact h

/-- R115: every slot listed as void is loaded once the list has been gone through. -/
theorem State.foldl_reloadSlot {l : List (Nat × Slot)} {q : Nat × Slot} (hq : q ∈ l) (hvoid : q.2.state = .void) :
    ((l.foldl (fun s q => s.reloadSlot k q) s).slot k q.1).state = .loaded :=
  (foldl_reaches (I := fun _ => True) (Q := fun u => (u.slot k q.1).state = .loaded) hq (fun _ _ _ _ => trivial)
    (fun _ y _ _ hQ => State.slot_reloadSlot_loaded y hQ) (fun _ _ => State.slot_reloadSlot_self hvoid) trivial).2

/-- R115: what a recovery leaves, and the slots it loads again. -/
theorem State.recoverTenant_leaves (s : State) (k : Nat) :
    OnlySlots (s.unfaulted k) (s.recoverTenant k) ∧ ∀ q ∈ (s.unfaulted k).slotsOf k, q.2.state = .void →
      ((s.recoverTenant k).slot k q.1).state = .loaded := by
  unfold State.recoverTenant
  extract_lets s1 s2
  have h2 : OnlySlots (s.unfaulted k) s2 :=
    List.foldlRecOn (motive := fun u => OnlySlots (s.unfaulted k) u) _ _ ⟨rfl, rfl⟩ fun u hu q _ =>
      hu.trans (onlySlots_reloadSlot q)
  have hobjs : ∀ l : List Nat, OnlySlots s2 (l.foldl (fun (s : State) (i : Nat) =>
      if (s.obj .baxel (s.objBase k + i)).poison then
        s.modObj .baxel (s.objBase k + i) fun o => { o with value := o.init, poison := false, poisonCode := 0 }
      else s) s2) ∧ (l.foldl (fun (s : State) (i : Nat) =>
      if (s.obj .baxel (s.objBase k + i)).poison then
        s.modObj .baxel (s.objBase k + i) fun o => { o with value := o.init, poison := false, poisonCode := 0 }
      else s) s2).bx.slots = s2.bx.slots := fun l => by
    refine List.foldlRecOn (motive := fun u => OnlySlots s2 u ∧ u.bx.slots = s2.bx.slots) _ _ ⟨⟨rfl, rfl⟩, rfl⟩ fun u hu i _ => ?_
    split
    · exact ⟨hu.1.trans ⟨rfl, rfl⟩, hu.2⟩
    · exact hu
  obtain ⟨hkeep, hslots⟩ := hobjs (List.range (s2.objCount k))
  refine ⟨h2.trans hkeep, fun q hq hvoid => ?_⟩
  rw [State.slot, hkeep.slotNo, hslots]
  exact State.foldl_reloadSlot hq hvoid

/-! ### Cluster objects by mailbox (R121 to R131) -/

/-- R126: what an operation by mailbox does that is not refused. -/
def State.mailOp (s : State) (m k : Nat) (t : Taken) : State :=
  let fin (s : State) (code : Code) : State := s.complete .kresia m k code (leBytes 4 (s.obj .kresia (t.f 8 2)).value)
  match t.f 10 1 with
  | 0 => fin s (if (s.obj .kresia (t.f 8 2)).poison then 0x3003 else 0)
  | 1 => fin ((s.mailApplier m).2.signalObj .kresia (t.f 8 2) (t.f 12 4) (s.mailApplier m).1).1
    ((s.mailApplier m).2.signalObj .kresia (t.f 8 2) (t.f 12 4) (s.mailApplier m).1).2
  | 2 => s.mailTake m k t
  | 3 => fin (s.decObj .kresia (t.f 8 2) (t.f 12 4)).1 (s.decObj .kresia (t.f 8 2) (t.f 12 4)).2
  | 4 => fin ((s.mailApplier m).2.setObj .kresia (t.f 8 2) (t.f 12 4) (s.mailApplier m).1) 0
  | _ => match s.mailTakes m (t.f 16 2) with
    | (ow, w) :: _ => fin (s.withdraw .kresia ow w 0x300B) 0
    | [] => fin s 0x300B

variable {m : Nat} {tk : Taken}

theorem State.obj_begun (o : Nat) : (s.begun .kresia m k).obj .kresia o = s.obj .kresia o := by
  have hobjs : (s.begun .kresia m k).objs .kresia = s.objs .kresia := State.begun_ks_objs s .kresia m k
  exact State.obj_congr hobjs o

theorem State.mailRefusal_begun : (s.begun .kresia m k).mailRefusal m { tk with started := true } = s.mailRefusal m tk := by
  simp only [State.mailRefusal, State.obj_begun, Taken.f_started, Taken.domain_started] <;> rfl

theorem exec_objOp_refused (hready : s.ready .kresia m k 0x0301 tk) {c : Code} (hc : s.mailRefusal m tk = some c) :
    exec (.objOp .kresia m k) s = .next ((s.begun .kresia m k).complete .kresia m k c) := by
  simp only [exec, execObjOp, State.serve_ready _ _ _ _ _ _ _ hready, State.mailRefusal_begun, hc]

theorem exec_objOp_taken (hready : s.ready .kresia m k 0x0301 tk) (hc : s.mailRefusal m tk = none) :
    exec (.objOp .kresia m k) s = .next ((s.begun .kresia m k).mailOp m k { tk with started := true }) := by
  simp only [exec, execObjOp, State.serve_ready _ _ _ _ _ _ _ hready, State.mailRefusal_begun, hc]
  rfl

theorem State.serveObj_of_none {o : Nat} (hnone : (s.obj .kresia o).waiters = []) : s.serveObj .kresia o = s := by
  unfold State.serveObj
  split
  · rfl
  · simp only [State.serveFor, hnone, Machine.serve, List.isEmpty_nil, if_true]

/-- R121: the state in which an applied operation has left its record with an object. -/
theorem State.recordApply_fw (o : Nat) (a : Applier) : ((s.recordApply .kresia o a).pc .kresia).fw = (s.pc .kresia).fw := rfl

theorem State.obj_applier (o : Nat) : (s.mailApplier m).2.obj .kresia o = s.obj .kresia o := rfl

/-- R121: a sum that fits is left in an object without waiters, which no one is served from. -/
theorem State.signalObj_of_none {o n : Nat} (a : Applier) (hn : (s.obj .kresia o).value + n ≤ objMax)
    (hnone : (s.obj .kresia o).waiters = []) :
    s.signalObj .kresia o n a = ((s.recordApply .kresia o a).modObj .kresia o fun y =>
      { y with value := y.value + n, sigCount := y.sigCount + 1 }, 0x0000) := by
  obtain ⟨ot, hot⟩ := State.obj_recordApply (s := s) (p := .kresia) (o := o) a
  have hwaiters : (((s.recordApply .kresia o a).modObj .kresia o fun y =>
      { y with value := y.value + n, sigCount := y.sigCount + 1 }).obj .kresia o).waiters = [] := by
    rw [State.obj_modObj, hot]
    exact hnone
  simp only [State.signalObj, if_neg (Nat.not_lt.2 hn), State.serveObj_of_none hwaiters]

theorem State.setObj_of_none {o v : Nat} (a : Applier) (hnone : (s.obj .kresia o).waiters = []) :
    s.setObj .kresia o v a = (s.recordApply .kresia o a).modObj .kresia o fun y =>
      { y with value := v, poison := false, poisonCode := 0 } := by
  obtain ⟨ot, hot⟩ := State.obj_recordApply (s := s) (p := .kresia) (o := o) a
  refine State.serveObj_of_none ?_
  rw [State.obj_modObj, hot]
  exact hnone

theorem State.poisonObj_fw {o : Nat} (code : Code) (hnone : (s.obj .kresia o).waiters = []) :
    ((s.poisonObj .kresia o code).pc .kresia).fw = (s.pc .kresia).fw := by
  have hend : (((s.modObj .kresia o fun y => { y with poison := true, poisonCode := code }).endAll .kresia o 0x3003).pc .kresia).fw =
      (s.pc .kresia).fw := by
    have hwaiters : ((s.modObj .kresia o fun y => { y with poison := true, poisonCode := code }).obj .kresia o).waiters = [] := by
      rw [State.obj_modObj]
      exact hnone
    rw [State.endAll, hwaiters]
    rfl
  simp only [State.poisonObj]
  split <;> exact hend

/-- R378: the completion with which an operation ends shows the value it leaves. -/
def State.endOp (s : State) (m k o : Nat) (code : Code) : State := s.complete .kresia m k code (leBytes 4 (s.obj .kresia o).value)

theorem State.endOp_answered {u : State} {o : Nat} {code : Code} (htaken : (s.mslot .kresia m k).taken = some { tk with started := true })
    (hfw : (u.pc .kresia).fw = (s.pc .kresia).fw) :
    (u.endOp m k o code).answered .kresia m k tk code (leBytes 4 (u.obj .kresia o).value) ∧
      (u.endOp m k o code).obj .kresia o = u.obj .kresia o :=
  ⟨State.answered_of_started ((congrArg MSlot.taken (State.mslot_of_fw hfw m k)).trans htaken),
    State.obj_congr (State.objs_complete ..) o⟩

/-- R121: the state a SIGNAL by mailbox leaves where no one waits. -/
def State.signalled (s : State) (m o n : Nat) : State :=
  ((s.mailApplier m).2.recordApply .kresia o (s.mailApplier m).1).modObj .kresia o fun y =>
    { y with value := y.value + n, sigCount := y.sigCount + 1 }

/-- R121: the state a SET by mailbox leaves where no one waits. -/
def State.mailSet (s : State) (m o v : Nat) : State :=
  ((s.mailApplier m).2.recordApply .kresia o (s.mailApplier m).1).modObj .kresia o fun y =>
    { y with value := v, poison := false, poisonCode := 0 }

theorem State.signalled_leaves (o n : Nat) : ((s.signalled m o n).pc .kresia).fw = (s.pc .kresia).fw ∧
    ((s.signalled m o n).obj .kresia o).value = (s.obj .kresia o).value + n ∧
    ((s.signalled m o n).obj .kresia o).sigCount = (s.obj .kresia o).sigCount + 1 := by
  obtain ⟨ot, hrec⟩ := State.obj_recordApply (s := (s.mailApplier m).2) (p := .kresia) (o := o) (s.mailApplier m).1
  refine ⟨rfl, ?_⟩
  rw [State.signalled, State.obj_modObj, hrec]
  exact ⟨rfl, rfl⟩

theorem State.mailSet_leaves (o v : Nat) : ((s.mailSet m o v).pc .kresia).fw = (s.pc .kresia).fw ∧
    ((s.mailSet m o v).obj .kresia o).value = v ∧ ((s.mailSet m o v).obj .kresia o).poison = false := by
  refine ⟨rfl, ?_⟩
  rw [State.mailSet, State.obj_modObj]
  exact ⟨rfl, rfl⟩

section
variable {t : Taken} {o n : Nat} (ho : t.f 8 2 = o) (hn : t.f 12 4 = n)
include ho hn

theorem State.mailOp_signal (hop : t.f 10 1 = 1) (hfits : (s.obj .kresia o).value + n ≤ objMax)
    (hnone : (s.obj .kresia o).waiters = []) : s.mailOp m k t = (s.signalled m o n).endOp m k o 0 := by
  simp only [State.mailOp, hop, ho, hn, State.signalObj_of_none (s := (s.mailApplier m).2) (s.mailApplier m).1 hfits hnone]
  rfl

theorem State.mailOp_overflow (hop : t.f 10 1 = 1) (hover : objMax < (s.obj .kresia o).value + n) :
    s.mailOp m k t = ((s.mailApplier m).2.poisonObj .kresia o 0x3001).endOp m k o 0x3001 := by
  have hsignal : (s.mailApplier m).2.signalObj .kresia o n (s.mailApplier m).1 =
      ((s.mailApplier m).2.poisonObj .kresia o 0x3001, 0x3001) := if_pos hover
  simp only [State.mailOp, hop, ho, hn, hsignal]
  rfl

theorem State.mailOp_dec (hop : t.f 10 1 = 3) (hfits : n ≤ (s.obj .kresia o).value) :
    s.mailOp m k t = (s.modObj .kresia o fun y => { y with value := y.value - n }).endOp m k o 0 := by
  have hdec : s.decObj .kresia o n = (s.modObj .kresia o fun y => { y with value := y.value - n }, 0x0000) :=
    if_neg (Nat.not_lt.2 hfits)
  simp only [State.mailOp, hop, ho, hn, hdec]
  rfl

theorem State.mailOp_set (hop : t.f 10 1 = 4) (hnone : (s.obj .kresia o).waiters = []) :
    s.mailOp m k t = (s.mailSet m o n).endOp m k o 0 := by
  simp only [State.mailOp, hop, ho, hn, State.setObj_of_none (s := (s.mailApplier m).2) (s.mailApplier m).1 hnone]
  rfl

/-- R121: a TAKE by mailbox that the object covers subtracts and completes. -/
theorem State.mailOp_take (hop : t.f 10 1 = 2) (hnone : (s.obj .kresia o).waiters = []) (hfits : n ≤ (s.obj .kresia o).value) :
    s.mailOp m k t = (s.modObj .kresia o fun y => { y with value := y.value - n }).complete .kresia m k 0
      (leBytes 4 ((s.obj .kresia o).value - n)) := by
  simp only [State.mailOp, hop, State.mailTake, ho, hn]
  exact if_pos (by rw [hnone, List.isEmpty_nil, Bool.true_and, decide_eq_true hfits])

/-- R121, R124: above the value a TAKE by mailbox waits, or is refused without room. -/
theorem State.mailOp_wait (hop : t.f 10 1 = 2) (habove : (s.obj .kresia o).value < n) :
    s.mailOp m k t = if !s.ksWaitRoom then s.complete .kresia m k 0x3008 (leBytes 4 (s.obj .kresia o).value)
      else s.joinWait .kresia o
        { source := .mailbox m k, tag := t.f 16 2, owner := t.domain, n := n, issued := s.raw .kresia, timeoutUs := t.f 18 2 } := by
  simp only [State.mailOp, hop, State.mailTake, ho, hn]
  exact if_neg (by rw [decide_eq_false (Nat.not_le.2 habove), Bool.and_false]; exact Bool.false_ne_true)

omit hn in
/-- R121: CANCEL withdraws the oldest TAKE of its mailbox with the tag. -/
theorem State.mailOp_cancel (hop : t.f 10 1 = 5) : s.mailOp m k t = match s.mailTakes m (t.f 16 2) with
    | (ow, w) :: _ => (s.withdraw .kresia ow w 0x300B).endOp m k o 0
    | [] => s.endOp m k o 0x300B := by
  simp only [State.mailOp, hop, ho]
  rfl

end

/-- R126: an operation that ends is answered, and the object it names stands as the operation left it. -/
theorem exec_objOp_ends {u : State} {o : Nat} {code : Code} (hready : s.ready .kresia m k 0x0301 tk) (hc : s.mailRefusal m tk = none)
    (hop : (s.begun .kresia m k).mailOp m k { tk with started := true } = u.endOp m k o code)
    (hfw : (u.pc .kresia).fw = ((s.begun .kresia m k).pc .kresia).fw) :
    ∃ t, exec (.objOp .kresia m k) s = .next t ∧ t.answered .kresia m k tk code (leBytes 4 (u.obj .kresia o).value) ∧
      t.obj .kresia o = u.obj .kresia o := by
  have hexec := (exec_objOp_taken hready hc).trans (congrArg Host.Outcome.next hop)
  obtain ⟨hanswered, hobj⟩ := State.endOp_answered (o := o) (code := code) (State.begun_taken s .kresia m k 0x0301 tk hready) hfw
  exact ⟨_, hexec, hanswered, hobj⟩

/-! ### Fences (R313, R315) -/

theorem State.dspLeafGone_ks_fences (leaf : Nat) : (s.dspLeafGone leaf).ks.fences = s.ks.fences :=
  List.foldlRecOn (motive := fun u : State => u.ks.fences = s.ks.fences) _ _ rfl fun u hu h _ => by
    split <;> exact hu

/-- R315: whatever the subject, a notice applied is kept and has been flooded. -/
theorem State.applyFence_keeps (s : State) (n : FenceNotice) :
    FMap.find? (s.applyFence n).ks.fences n.subject = some (n.fenceSeq, !n.clear) ∧
      .send .kresia .flood (.fence n) ∈ (s.applyFence n).out := by
  have hflood (u : State) (hu : (s.fenceKept n).out <:+ u.out) : .send .kresia .flood (.fence n) ∈ u.out := by
    refine hu.subset ?_
    rw [(s.fenceKept_leaves n).2.2]
    exact List.mem_cons_self
  by_cases hmember : n.subject < 2 ^ 20
  · exact State.applyFence_member hmember
  · rw [State.applyFence_eq, if_pos (Nat.not_lt.1 hmember)]
    have hkept := State.fenceKept_fences (s := s) (n := n)
    split
    · have hcut : ((s.fenceKept n).cutPeer n.subject).ks.fences = (s.fenceKept n).ks.fences :=
        List.foldlRecOn (motive := fun u : State => u.ks.fences = (s.fenceKept n).ks.fences) _ _ rfl fun u hu _ _ =>
          (State.portGone_ks_fences _ _).trans hu
      refine ⟨?_, hflood _ ?_⟩
      · rw [State.dspLeafGone_ks_fences, hcut, hkept]
      · exact (Follows.dspLeafGone (mw := false) (Follows.cutPeer (Follows.refl .kresia (s.fenceKept n)))).out
    · split
      · refine ⟨?_, hflood _ (Follows.rejoin (mw := false) (Follows.refl .kresia (s.fenceKept n))).out⟩
        rw [State.rejoin_ks_fences, hkept]
      · exact ⟨hkept, hflood _ (List.suffix_refl _)⟩

/-- R315: a notice by mailbox is out of range, old, or applied and answered with the ports it cut. -/
theorem exec_fenceCmd {clear : Bool} (t : Taken) (hrange : t.f 8 3 < 2 ^ 20 + 2 ^ 17) :
    s.fenceCmd m k t clear = if s.fenceNewer ⟨clear, t.f 8 3, t.f 12 4⟩ then
      (s.applyFence ⟨clear, t.f 8 3, t.f 12 4⟩).complete .kresia m k 0 (leBytes 2 ((s.upPorts .kresia).filter fun q =>
        (s.lp .kresia q).peer.any fun c => c.node = t.f 8 3).length)
      else s.complete .kresia m k 0x9004 := by
  have hin : ¬ 2 ^ 20 + 2 ^ 17 ≤ t.f 8 3 := Nat.not_le.2 hrange
  simp only [State.fenceCmd, if_neg hin]
  cases s.fenceNewer ⟨clear, t.f 8 3, t.f 12 4⟩ <;> rfl

theorem State.fenceNewer_begun (n : FenceNotice) : (s.begun .kresia m k).fenceNewer n = s.fenceNewer n := by
  rw [State.fenceNewer, State.begun_ks_fences, State.fenceNewer]

theorem State.fenceCmd_old {clear : Bool} (hrange : tk.f 8 3 < 2 ^ 20 + 2 ^ 17)
    (hold : s.fenceNewer ⟨clear, tk.f 8 3, tk.f 12 4⟩ = false) :
    (s.begun .kresia m k).fenceCmd m k { tk with started := true } clear = (s.begun .kresia m k).complete .kresia m k 0x9004 := by
  rw [exec_fenceCmd { tk with started := true } hrange]
  simp only [Taken.f_started, State.fenceNewer_begun]
  exact if_neg (Bool.eq_false_iff.1 hold)

/-- R315: a newer notice by mailbox is kept and flooded. -/
theorem State.fenceCmd_newer {clear : Bool} (hrange : tk.f 8 3 < 2 ^ 20 + 2 ^ 17)
    (hnew : s.fenceNewer ⟨clear, tk.f 8 3, tk.f 12 4⟩ = true) :
    ∃ r, (s.begun .kresia m k).fenceCmd m k { tk with started := true } clear =
      ((s.begun .kresia m k).applyFence ⟨clear, tk.f 8 3, tk.f 12 4⟩).complete .kresia m k 0 r := by
  rw [exec_fenceCmd { tk with started := true } hrange]
  simp only [Taken.f_started, State.fenceNewer_begun]
  exact ⟨_, if_pos hnew⟩

theorem State.fenceCmd_keeps (n : FenceNotice) (code : Code) (r : List Byte) :
    FMap.find? ((s.applyFence n).complete .kresia m k code r).ks.fences n.subject = some (n.fenceSeq, !n.clear) ∧
      .send .kresia .flood (.fence n) ∈ ((s.applyFence n).complete .kresia m k code r).out := by
  obtain ⟨hkept, hflood⟩ := s.applyFence_keeps n
  refine ⟨by rw [State.complete_ks_fences, hkept], ?_⟩
  exact (Follows.complete (mw := false) (p := .kresia) (Follows.refl .kresia (s.applyFence n))).out.subset hflood

theorem State.ksWaitRoom_begun : (s.begun .kresia m k).ksWaitRoom = s.ksWaitRoom := by
  rw [State.ksWaitRoom, State.begun_ks_objs, State.ksWaitRoom]

theorem State.mailTakes_begun (n tag : Nat) : (s.begun .kresia m k).mailTakes n tag = s.mailTakes n tag := by
  rw [State.mailTakes, State.begun_ks_objs, State.mailTakes]

theorem State.told_begun (p : Part) : (s.begun p m k).told p = s.told p := by
  cases p with
  | baxel => rw [State.told, State.begun_out, State.told]
  | kresia => rw [State.told, State.begun_ks_events, State.told]

theorem State.canTell_begun (p : Part) : (s.begun p m k).canTell p = s.canTell p := by
  cases p with
  | baxel => rfl
  | kresia => rw [State.canTell, State.begun_ks_events, State.canTell]

/-- R315: with no domain to act on, the mailbox slots stand. -/
theorem State.applyFence_fw {n : FenceNotice} (hmember : n.subject < 2 ^ 20) (hdoms : s.ks.doms = []) :
    ((s.applyFence n).pc .kresia).fw = (s.pc .kresia).fw := by
  rw [State.applyFence_eq, if_neg (Nat.not_le.2 hmember), (s.fenceKept_leaves n).1, hdoms]
  exact State.count_fw (s.modKs _) _ _ .kresia

/-- R315: a fence of a member, no domain to act on, is kept, flooded and answered. -/
theorem State.fenceCmd_member {op : Nat} {clear : Bool} {r : List Byte} (hready : s.ready .kresia m k op tk)
    (hmember : tk.f 8 3 < 2 ^ 20) (hdoms : s.ks.doms = []) :
    FMap.find? (((s.begun .kresia m k).applyFence ⟨clear, tk.f 8 3, tk.f 12 4⟩).complete .kresia m k 0 r).ks.fences (tk.f 8 3) =
        some (tk.f 12 4, !clear) ∧
      ((((s.begun .kresia m k).applyFence ⟨clear, tk.f 8 3, tk.f 12 4⟩).complete .kresia m k 0 r).mslot .kresia m k).taken = none ∧
      ((((s.begun .kresia m k).applyFence ⟨clear, tk.f 8 3, tk.f 12 4⟩).complete .kresia m k 0 r).mslot .kresia m k).comp.status = 0 ∧
      .send .kresia .flood (.fence ⟨clear, tk.f 8 3, tk.f 12 4⟩) ∈
        (((s.begun .kresia m k).applyFence ⟨clear, tk.f 8 3, tk.f 12 4⟩).complete .kresia m k 0 r).out := by
  obtain ⟨hkept, hflood⟩ := (s.begun .kresia m k).fenceCmd_keeps (m := m) (k := k) ⟨clear, tk.f 8 3, tk.f 12 4⟩ 0 r
  have hfw := State.applyFence_fw (s := s.begun .kresia m k) (n := ⟨clear, tk.f 8 3, tk.f 12 4⟩) hmember
    (by rw [State.begun_ks_doms, hdoms])
  obtain ⟨hcomp, hdone⟩ := State.answered_of_started (code := 0) (r := r) (i := [])
    ((congrArg MSlot.taken (State.mslot_of_fw hfw m k)).trans (State.begun_taken s .kresia m k op tk hready))
  exact ⟨hkept, hdone, congrArg Completion.status hcomp, hflood⟩

theorem State.reports_mboxIrq :
    (s.mboxIrq .baxel m).out.filterMap Out.reportCode = s.out.filterMap Out.reportCode := by
  unfold State.mboxIrq
  split
  · dsimp only
    split <;> rfl
  · rfl

/-- What a completion drives out reports nothing. -/
theorem State.told_complete {p : Part} (code : Code) (r i : List Byte) : (s.complete p m k code r i).told p = s.told p := by
  cases p with
  | kresia => rw [State.told, State.complete_ks_events, State.told]
  | baxel =>
    refine congrArg List.reverse ?_
    unfold State.complete
    split
    · rfl
    · dsimp only
      rw [State.foldl_emit_out, List.filterMap_append, if_neg (by decide), State.reports_mboxIrq, State.modMslot_out]
      refine (congrArg (· ++ _) (?_ : _ = [])).trans (List.nil_append _)
      simp [Out.reportCode]

theorem State.rd_complete_baxel (code : Code) (r i : List Byte) (q : Part) (a : Nat) :
    (s.complete .baxel m k code r i).rd q a = s.rd q a := by
  cases h : (s.mslot .baxel m k).taken with
  | none => simp only [State.complete, h]
  | some tk => exact State.rd_complete_ne h fun hc => Part.noConfusion hc.1

theorem State.ten_complete {p : Part} (code : Code) (r i : List Byte) (j : Nat) : (s.complete p m k code r i).ten j = s.ten j := by
  rw [State.ten, State.complete_bx_tenants, State.ten]

theorem exec_tenantFault_named (hready : s.ready .baxel m k 0x0206 tk) (hrange : tk.f 8 1 < 4) :
    exec (.tenantFault .baxel m k) s = .next (((s.begun .baxel m k).tenantFault (tk.f 8 1)
      (if tk.f 10 2 = 0 then 0x2006 else BitVec.ofNat 16 (tk.f 10 2))).complete .baxel m k 0) := by
  simp only [exec, execTenantFault, State.serve_ready _ _ _ _ _ _ _ hready]
  exact congrArg Host.Outcome.next (if_neg (Nat.not_le.2 hrange))

end

/-- Settles O56: the operations are followed through the objects, tenants and fences they name, and each leaves its slot answered. -/
theorem tenantObjectAndFaultCommands : Obligations.TenantObjectAndFaultCommands := by
  unfold Obligations.TenantObjectAndFaultCommands
  refine ⟨?_, ?_, ?_, ?_, ?_, ?_, ?_, ?_, ?_, ?_, ?_, ?_, ?_, ?_, ?_, ?_, ?_, ?_, ?_, ?_, ?_, ?_, ?_, ?_, ?_, ?_, ?_, ?_⟩
  case refine_1 =>
    intro s m k tk hready hrange
    simp only [exec, execTenantFault, State.serve_ready _ _ _ _ _ _ _ hready]
    exact congrArg Host.Outcome.next (if_pos hrange)
  case refine_2 =>
    intro s m k tk hready hrange hok hfree
    have htaken := State.begun_taken s .baxel m k 0x0206 tk hready
    obtain ⟨hfw, hothers⟩ := othersStand_tenantFault (s := s.begun .baxel m k) (k := tk.f 8 1)
      (if tk.f 10 2 = 0 then 0x2006 else BitVec.ofNat 16 (tk.f 10 2))
    have hexec := exec_tenantFault_named hready hrange
    refine ⟨_, hexec, State.answered_of_started ((congrArg MSlot.taken (State.mslot_of_fw (p := .baxel) hfw m k)).trans htaken), ?_, ?_, ?_⟩
    · rw [State.ten_complete, State.tenantFault_faulted]
    · intro j hj
      rw [State.ten_complete, hothers j hj, State.begun_ten]
    · exact (exec_follows hexec).ks rfl
  case refine_3 =>
    intro s m k tk hready hrange
    have htaken := State.begun_taken s .baxel m k 0x0206 tk hready
    obtain ⟨hfw, -⟩ := othersStand_tenantFault (s := s.begun .baxel m k) (k := tk.f 8 1)
      (if tk.f 10 2 = 0 then 0x2006 else BitVec.ofNat 16 (tk.f 10 2))
    refine ⟨_, exec_tenantFault_named hready hrange,
      State.answered_of_started ((congrArg MSlot.taken (State.mslot_of_fw (p := .baxel) hfw m k)).trans htaken), ?_⟩
    rw [State.ten_complete, State.tenantFault_faulted]
  case refine_4 =>
    intro s m k tk hready hrange
    simp only [exec, execTenantRecover, State.serve_ready _ _ _ _ _ _ _ hready]
    exact congrArg Host.Outcome.next (if_pos hrange)
  case refine_5 =>
    intro s m k tk hready hrange hok
    simp only [exec, execTenantRecover, State.serve_ready _ _ _ _ _ _ _ hready, Taken.f_started, State.begun_ten, hok]
    exact congrArg Host.Outcome.next (if_neg (Nat.not_le.2 hrange))
  case refine_6 =>
    intro s m k tk hready hrange hfaulted
    have hexec : exec (.tenantRecover .baxel m k) s =
        .next (((s.begun .baxel m k).recoverTenant (tk.f 8 1)).complete .baxel m k 0) := by
      simp only [exec, execTenantRecover, State.serve_ready _ _ _ _ _ _ _ hready, Taken.f_started, State.begun_ten, hfaulted]
      exact congrArg Host.Outcome.next (if_neg (Nat.not_le.2 hrange))
    obtain ⟨⟨hc, htenants⟩, hloaded⟩ := (s.begun .baxel m k).recoverTenant_leaves (tk.f 8 1)
    have htaken := State.begun_taken s .baxel m k 0x0207 tk hready
    have hten : (((s.begun .baxel m k).recoverTenant (tk.f 8 1)).complete .baxel m k 0).ten (tk.f 8 1) =
        { s.ten (tk.f 8 1) with faulted := false } := by
      rw [State.ten_complete, State.ten, htenants, ← State.begun_ten s .baxel m k]
      exact State.ten_modTen (s.begun .baxel m k) (tk.f 8 1) fun x => { x with faulted := false }
    refine ⟨_, hexec, State.answered_of_started ((congrArg MSlot.taken (State.mslot_of_fw (p := .baxel)
      (congrArg Common.fw hc) m k)).trans htaken), ?_, ?_, ?_, ?_, ?_, ?_⟩
    · rw [hten]
    · rw [State.bank, State.complete_ctr, State.pc_baxel, hc]
      exact State.unfaulted_poison
    · rw [hten]
    · rw [hten]
    · rw [hten]
    · have hsame : SameSlots s ((s.begun .baxel m k).unfaulted (tk.f 8 1)) :=
        SameSlots.trans (t := s.begun .baxel m k) ⟨State.begun_bx_slots .., fun u _ => State.begun_rd ..⟩ ⟨rfl, fun _ _ => rfl⟩
      have hdone : SameSlots ((s.begun .baxel m k).recoverTenant (tk.f 8 1))
          (((s.begun .baxel m k).recoverTenant (tk.f 8 1)).complete .baxel m k 0) :=
        ⟨State.complete_bx_slots .., fun u _ => State.rd_complete_baxel ..⟩
      rw [List.all_eq_true]
      intro q hq
      split
      · next hvoid =>
        rw [decide_eq_true_eq, hdone.slot]
        exact hloaded q (by rwa [hsame.slotsOf]) hvoid
      · rfl
  case refine_7 =>
    intro s m k tk c hready hc
    exact exec_objOp_refused hready hc
  case refine_8 =>
    intro s m k tk hready hc hop
    rw [exec_objOp_taken hready hc]
    simp only [State.mailOp, Taken.f_started, hop, State.obj_begun]
  case refine_9 =>
    intro s m k tk hready hc hop hfits hnone
    have hb := State.obj_begun (s := s) (m := m) (k := k) (tk.f 8 2)
    obtain ⟨hfw, hvalue, hcount⟩ := (s.begun .kresia m k).signalled_leaves (m := m) (tk.f 8 2) (tk.f 12 4)
    have hmail := State.mailOp_signal (s := s.begun .kresia m k) (m := m) (k := k) (t := { tk with started := true })
      (o := tk.f 8 2) (n := tk.f 12 4) rfl rfl hop (by rw [hb]; exact hfits) (by rw [hb]; exact hnone)
    obtain ⟨t, hexec, hanswered, hobj⟩ := exec_objOp_ends hready hc hmail hfw
    rw [hb] at hvalue hcount
    rw [hvalue] at hanswered
    exact ⟨t, hexec, hanswered, by rw [hobj]; exact hvalue, by rw [hobj]; exact hcount⟩
  case refine_10 =>
    intro s m k tk hready hc hop hover hnone
    have hb := State.obj_begun (s := s) (m := m) (k := k) (tk.f 8 2)
    have hmail := State.mailOp_overflow (s := s.begun .kresia m k) (m := m) (k := k) (t := { tk with started := true })
      (o := tk.f 8 2) (n := tk.f 12 4) rfl rfl hop (by rw [hb]; exact hover)
    obtain ⟨t, hexec, hanswered, hobj⟩ := exec_objOp_ends hready hc hmail
      (State.poisonObj_fw (s := ((s.begun .kresia m k).mailApplier m).2) 0x3001 (by rw [State.obj_applier, hb]; exact hnone))
    obtain ⟨hvalue, hpoison, -, -⟩ := Obj.poisoned_poisonObj ((s.begun .kresia m k).mailApplier m).2 .kresia (tk.f 8 2) 0x3001
    have hold : (((s.begun .kresia m k).mailApplier m).2.obj .kresia (tk.f 8 2)).value = (s.obj .kresia (tk.f 8 2)).value := by
      rw [State.obj_applier, hb]
    rw [hvalue, hold] at hanswered
    exact ⟨t, hexec, hanswered, by rw [hobj, hvalue, hold], by rw [hobj]; exact hpoison⟩
  case refine_11 =>
    intro s m k tk hready hc hop hnone hfits
    have hb := State.obj_begun (s := s) (m := m) (k := k) (tk.f 8 2)
    have hmail := State.mailOp_take (s := s.begun .kresia m k) (m := m) (k := k) (t := { tk with started := true })
      (o := tk.f 8 2) (n := tk.f 12 4) rfl rfl hop (by rw [hb]; exact hnone) (by rw [hb]; exact hfits)
    have hexec := (exec_objOp_taken hready hc).trans (congrArg Host.Outcome.next hmail)
    have htaken := State.begun_taken s .kresia m k 0x0301 tk hready
    rw [hb] at hexec
    refine ⟨_, hexec, State.answered_of_started htaken, ?_⟩
    rw [State.obj_congr (State.objs_complete ..), State.obj_modObj, hb]
    exact ⟨rfl, hnone⟩
  case refine_12 =>
    intro s m k tk hready hc hop habove hroom
    have hb := State.obj_begun (s := s) (m := m) (k := k) (tk.f 8 2)
    have hmail := State.mailOp_wait (s := s.begun .kresia m k) (m := m) (k := k) (t := { tk with started := true })
      (o := tk.f 8 2) (n := tk.f 12 4) rfl rfl hop (by rw [hb]; exact habove)
    rw [State.ksWaitRoom_begun, hroom, Bool.not_true, if_neg Bool.false_ne_true] at hmail
    have hexec := (exec_objOp_taken hready hc).trans (congrArg Host.Outcome.next hmail)
    have htaken := State.begun_taken s .kresia m k 0x0301 tk hready
    refine ⟨_, hexec, ?_, ?_, htaken, State.begun_out ..⟩
    · rw [State.joinWait, State.obj_modObj, hb]
    · rw [State.joinWait, State.obj_modObj, hb, List.length_append, List.length_singleton]
  case refine_13 =>
    intro s m k tk hready hc hop habove hroom
    have hb := State.obj_begun (s := s) (m := m) (k := k) (tk.f 8 2)
    have hmail := State.mailOp_wait (s := s.begun .kresia m k) (m := m) (k := k) (t := { tk with started := true })
      (o := tk.f 8 2) (n := tk.f 12 4) rfl rfl hop (by rw [hb]; exact habove)
    rw [State.ksWaitRoom_begun, hroom, hb] at hmail
    exact (exec_objOp_taken hready hc).trans (congrArg Host.Outcome.next hmail)
  case refine_14 =>
    intro s m k tk hready hc hop hfits
    have hb := State.obj_begun (s := s) (m := m) (k := k) (tk.f 8 2)
    have hmail := State.mailOp_dec (s := s.begun .kresia m k) (m := m) (k := k) (t := { tk with started := true })
      (o := tk.f 8 2) (n := tk.f 12 4) rfl rfl hop (by rw [hb]; exact hfits)
    obtain ⟨t, hexec, hanswered, hobj⟩ := exec_objOp_ends hready hc hmail rfl
    rw [State.obj_modObj, hb] at hobj hanswered
    exact ⟨t, hexec, hanswered, by rw [hobj], by rw [hobj]⟩
  case refine_15 =>
    intro s m k tk hready hc hop hnone
    have hb := State.obj_begun (s := s) (m := m) (k := k) (tk.f 8 2)
    obtain ⟨hfw, hvalue, hpoison⟩ := (s.begun .kresia m k).mailSet_leaves (m := m) (tk.f 8 2) (tk.f 12 4)
    have hmail := State.mailOp_set (s := s.begun .kresia m k) (m := m) (k := k) (t := { tk with started := true })
      (o := tk.f 8 2) (n := tk.f 12 4) rfl rfl hop (by rw [hb]; exact hnone)
    obtain ⟨t, hexec, hanswered, hobj⟩ := exec_objOp_ends hready hc hmail hfw
    rw [hvalue] at hanswered
    exact ⟨t, hexec, hanswered, by rw [hobj]; exact hvalue, by rw [hobj]; exact hpoison⟩
  case refine_16 =>
    intro s m k tk ow w l hready hc hop htakes
    have hmail := State.mailOp_cancel (s := s.begun .kresia m k) (m := m) (k := k) (t := { tk with started := true })
      (o := tk.f 8 2) rfl hop
    rw [Taken.f_started, State.mailTakes_begun, htakes] at hmail
    exact (exec_objOp_taken hready hc).trans (congrArg Host.Outcome.next hmail)
  case refine_17 =>
    intro s m k tk hready hc hop htakes
    have hmail := State.mailOp_cancel (s := s.begun .kresia m k) (m := m) (k := k) (t := { tk with started := true })
      (o := tk.f 8 2) rfl hop
    rw [Taken.f_started, State.mailTakes_begun, htakes] at hmail
    refine (exec_objOp_taken hready hc).trans (congrArg Host.Outcome.next (hmail.trans ?_))
    rw [State.endOp, State.obj_begun]
  case refine_18 =>
    intro s m k tk hready hrange
    simp only [exec, execFenceSet, State.serve_ready _ _ _ _ _ _ _ hready]
    exact congrArg Host.Outcome.next (if_pos hrange)
  case refine_19 =>
    intro s m k tk hready hrange hold
    simp only [exec, execFenceSet, State.serve_ready _ _ _ _ _ _ _ hready]
    exact congrArg Host.Outcome.next (State.fenceCmd_old hrange hold)
  case refine_20 =>
    intro s m k tk hready hmember hnew hdoms
    obtain ⟨r, hr⟩ := State.fenceCmd_newer (m := m) (k := k) (clear := false) (Nat.lt_of_lt_of_le hmember (by decide)) hnew
    have hexec : exec (.fenceSet .kresia m k) s =
        .next (((s.begun .kresia m k).applyFence ⟨false, tk.f 8 3, tk.f 12 4⟩).complete .kresia m k 0 r) := by
      simp only [exec, execFenceSet, State.serve_ready _ _ _ _ _ _ _ hready]
      exact congrArg Host.Outcome.next hr
    exact ⟨_, hexec, State.fenceCmd_member hready hmember hdoms⟩
  case refine_21 =>
    intro s m k tk hready hrange hnew
    obtain ⟨r, hr⟩ := State.fenceCmd_newer (m := m) (k := k) (clear := false) hrange hnew
    have hexec : exec (.fenceSet .kresia m k) s =
        .next (((s.begun .kresia m k).applyFence ⟨false, tk.f 8 3, tk.f 12 4⟩).complete .kresia m k 0 r) := by
      simp only [exec, execFenceSet, State.serve_ready _ _ _ _ _ _ _ hready]
      exact congrArg Host.Outcome.next hr
    exact ⟨_, hexec, State.fenceCmd_keeps ..⟩
  case refine_22 =>
    intro s m k tk hready hrange
    simp only [exec, execFenceClear, State.serve_ready _ _ _ _ _ _ _ hready]
    exact congrArg Host.Outcome.next (if_pos hrange)
  case refine_23 =>
    intro s m k tk hready hrange hold
    simp only [exec, execFenceClear, State.serve_ready _ _ _ _ _ _ _ hready]
    exact congrArg Host.Outcome.next (State.fenceCmd_old hrange hold)
  case refine_24 =>
    intro s m k tk hready hmember hnew hdoms
    obtain ⟨r, hr⟩ := State.fenceCmd_newer (m := m) (k := k) (clear := true) (Nat.lt_of_lt_of_le hmember (by decide)) hnew
    have hexec : exec (.fenceClear .kresia m k) s =
        .next (((s.begun .kresia m k).applyFence ⟨true, tk.f 8 3, tk.f 12 4⟩).complete .kresia m k 0 r) := by
      simp only [exec, execFenceClear, State.serve_ready _ _ _ _ _ _ _ hready]
      exact congrArg Host.Outcome.next hr
    exact ⟨_, hexec, State.fenceCmd_member hready hmember hdoms⟩
  case refine_25 =>
    intro s m k tk hready hrange hnew
    obtain ⟨r, hr⟩ := State.fenceCmd_newer (m := m) (k := k) (clear := true) hrange hnew
    have hexec : exec (.fenceClear .kresia m k) s =
        .next (((s.begun .kresia m k).applyFence ⟨true, tk.f 8 3, tk.f 12 4⟩).complete .kresia m k 0 r) := by
      simp only [exec, execFenceClear, State.serve_ready _ _ _ _ _ _ _ hready]
      exact congrArg Host.Outcome.next hr
    exact ⟨_, hexec, State.fenceCmd_keeps ..⟩
  case refine_26 =>
    intro s p m k tk hready hrange
    simp only [exec, execMemberSuspect, State.serve_ready _ _ _ _ _ _ _ hready]
    exact congrArg Host.Outcome.next (if_pos hrange)
  case refine_27 =>
    intro s p m k tk hready hrange hroom
    have hexec : exec (.memberSuspect p m k) s =
        .next (((s.begun p m k).report p 0x900F (subject := some (tk.f 8 3))).complete p m k 0) := by
      simp only [exec, execMemberSuspect, State.serve_ready _ _ _ _ _ _ _ hready]
      exact congrArg Host.Outcome.next (if_neg (Nat.not_le.2 hrange))
    have htaken := State.begun_taken s p m k 0x090A tk hready
    refine ⟨_, hexec, State.answered_of_started ((congrArg MSlot.taken (State.mslot_report ..)).trans htaken), ?_⟩
    rw [State.told_complete, State.told_report _ _ _ _ _ _ _ (by rw [State.canTell_begun]; exact hroom), State.told_begun]
  case refine_28 =>
    intro s m k tk hready
    simp only [exec, execEvtAck, State.serve_ready _ _ _ _ _ _ _ hready, Taken.f_started, State.begun_rd] <;> rfl

end Sys2Proof.Machine

/-! What the end of a program, of a step or of one run of it leaves of its domain: who is its crown, its step and its epoch. -/

namespace Sys2Proof.Machine

section
variable {s : State} {d : Nat}

/-- Who is the crown of a domain (R11, R107). -/
def Domain.crownship (x : Domain) : Bool × Bool × Nat := (x.isCrown, x.isDeputy, x.crown)

/-- Who is the crown of a domain, and the epoch and step it is in. -/
def Domain.seat (x : Domain) : (Bool × Bool × Nat) × Nat × Nat := (x.crownship, x.epoch, x.step)

/-- From one state to another domain `d` keeps its seat, and nothing of it is newly lost (R324). -/
structure SameSeat (d : Nat) (s t : State) : Prop where
  seat : (t.dom d).seat = (s.dom d).seat
  lost : (t.dom d).lost = true → (s.dom d).lost = true

namespace SameSeat

theorem rfl' : SameSeat d s s := ⟨rfl, id⟩

theorem trans {t u : State} (h : SameSeat d s t) (k : SameSeat d t u) : SameSeat d s u :=
  ⟨k.seat.trans h.seat, h.lost ∘ k.lost⟩

theorem of_doms {t : State} (h : t.ks.doms = s.ks.doms) : SameSeat d s t := by
  have hdom := State.dom_of_doms h d
  exact ⟨by rw [hdom], by rw [hdom]; exact id⟩

theorem modDom {t : State} (h : SameSeat d s t) (f : Domain → Domain)
    (hf : ∀ x, (f x).seat = x.seat ∧ ((f x).lost = true → x.lost = true)) : SameSeat d s (t.modDom d f) := by
  obtain ⟨hseat, hlost⟩ := hf (t.dom d)
  refine h.trans ⟨?_, ?_⟩ <;> rw [State.dom_modDom] <;> assumption

theorem crownship {t : State} (h : SameSeat d s t) : (t.dom d).crownship = (s.dom d).crownship := congrArg Prod.fst h.seat

end SameSeat

/-! ### Cupping and instances -/

theorem State.cupAdd_sameSeat (s : State) (d step kind : Nat) (terms : List (List Nat)) :
    SameSeat d s (s.cupAdd d step kind terms) := by
  unfold State.cupAdd
  extract_lets x sum pad
  split_ifs
  · exact .rfl'
  · refine SameSeat.modDom (.of_doms (by simp)) _ fun y => ?_
    split_ifs <;> exact ⟨rfl, id⟩

theorem State.storeCup_sameSeat (s : State) (d : Nat) (r : CupRec) : SameSeat d s (s.storeCup d r) := by
  have h1 : SameSeat d s (s.modDom d fun y => { y with cupOpen := y.cupOpen.filter fun q => q.step ≠ r.step }) :=
    SameSeat.rfl'.modDom _ fun _ => ⟨rfl, id⟩
  unfold State.storeCup
  extract_lets x s1
  split_ifs
  · refine SameSeat.trans ?_ (.of_doms (State.count_ks_doms _ _ _))
    exact h1.modDom _ fun _ => ⟨rfl, id⟩
  · refine SameSeat.trans ?_ (.of_doms (State.report_ks_doms ..))
    exact h1.modDom _ fun _ => ⟨rfl, id⟩

theorem State.takePartial_sameSeat (s : State) (m : CupPartial) : SameSeat m.domain s (s.takePartial m) := by
  unfold State.takePartial
  extract_lets d x old base r s1 s2
  have h1 : SameSeat d s s1 := by
    apply SameSeat.rfl'.modDom
    exact fun _ => ⟨rfl, id⟩
  have h2 : SameSeat d s s2 := by
    dsimp only [s2]
    split_ifs
    · exact h1.trans (.of_doms rfl)
    · exact h1
  have htry (u : State) (step : Nat) : SameSeat d u (u.tryCup d step) := by
    unfold State.tryCup
    extract_lets y
    split
    · split_ifs
      · exact State.storeCup_sameSeat ..
      · exact .rfl'
    · exact .rfl'
  split_ifs
  · exact .rfl'
  · exact .rfl'
  · exact h2.trans (htry _ _)

theorem State.sendPartial_sameSeat (s : State) (d : Nat) (n : Inst) : SameSeat d s (s.sendPartial d n) := by
  unfold State.sendPartial
  extract_lets x s1 sums m
  have h1 : SameSeat d s s1 := by
    dsimp only [s1]
    split_ifs
    · exact .rfl'
    · exact .of_doms (by simp)
  split_ifs
  · exact h1
  · exact h1.trans (State.takePartial_sameSeat _ m)
  · exact h1.trans (.of_doms rfl)

theorem State.startInst_sameSeat (s : State) (d step epoch : Nat) (due : OT) : SameSeat d s (s.startInst d step epoch due) := by
  unfold State.startInst
  extract_lets x
  split
  · exact .rfl'
  · next s1 _ g _ =>
    extract_lets n s2
    have h1 : SameSeat d s s1 := by
      apply SameSeat.rfl'.modDom
      exact fun _ => ⟨rfl, id⟩
    have h2 : SameSeat d s s2 := by
      dsimp only [s2]
      split_ifs
      · exact h1.trans (State.cupAdd_sameSeat ..)
      · exact h1
    split_ifs
    · exact h2.trans (State.sendPartial_sameSeat ..)
    · exact h2.modDom _ fun _ => ⟨rfl, id⟩

theorem State.trimProgram_sameSeat (s : State) (d : Nat) : SameSeat d s (s.trimProgram d) := by
  unfold State.trimProgram
  extract_lets x
  split
  · exact .rfl'
  · extract_lets n
    split_ifs
    · exact .rfl'
    · refine SameSeat.modDom ?_ _ fun _ => ⟨rfl, id⟩
      exact .of_doms rfl

/-! ### The end of a program (R171) -/

theorem State.endRange_doms (m k : Nat) (r : ShardRange) : (s.endRange m k r).ks.doms = s.ks.doms := by
  unfold State.endRange
  split <;> simp

theorem State.toStage_doms (m v : Nat) (bs : List Byte) : (s.toStage m v bs).1.ks.doms = s.ks.doms := by
  unfold State.toStage State.stageWrite
  split
  · rfl
  · split_ifs <;> simp

theorem State.shardRead_doms (m k : Nat) (t : Taken) : (s.shardRead m k t).ks.doms = s.ks.doms := by
  unfold State.shardRead
  dsimp only
  split
  · split_ifs
    · rfl
    · rw [State.complete_ks_doms, State.toStage_doms]
  · exact State.endRange_doms ..

theorem State.pumpShardReads_doms : s.pumpShardReads.ks.doms = s.ks.doms :=
  List.foldlRecOn (motive := fun u : State => u.ks.doms = s.ks.doms) _ _ rfl fun u hu q _ => by
    split
    · exact (State.shardRead_doms _ _ _).trans hu
    · exact hu

theorem State.endFills_doms : (s.endFills d).ks.doms = s.ks.doms :=
  List.foldlRecOn (motive := fun u : State => u.ks.doms = s.ks.doms) _ _ rfl fun u hu f _ => by
    unfold State.endFill
    dsimp only
    split_ifs <;> exact (State.complete_ks_doms ..).trans hu

theorem State.progEnd_sameSeat (s : State) (d m k : Nat) (code : Code) (r : List Byte) : SameSeat d s (s.progEnd d m k code r) := by
  refine SameSeat.trans ?_ (.of_doms (State.complete_ks_doms ..))
  exact .of_doms rfl

theorem State.freedBy_sameSeat (s : State) (d node : Nat) : SameSeat d s (s.freedBy d node) := by
  unfold State.freedBy
  split
  · dsimp only
    split_ifs
    · exact .rfl'
    · refine SameSeat.trans ?_ (State.progEnd_sameSeat ..)
      exact SameSeat.rfl'.modDom _ fun _ => ⟨rfl, fun h => absurd h Bool.false_ne_true⟩
    · exact SameSeat.rfl'.modDom _ fun _ => ⟨rfl, id⟩
  · exact .rfl'

theorem State.freeProgram_sameSeat (s : State) (d : Nat) : SameSeat d s (s.freeProgram d) := by
  unfold State.freeProgram
  extract_lets s1 s2 s3
  have h1 : s1.ks.doms = s.ks.doms := by
    change (((s.endTakes d fun _ => true).endFills d).dropTrackers .kresia fun t => t.domain = d).ks.doms = _
    rw [State.dropTrackers_doms, State.endFills_doms, State.endTakes_doms]
  have h2 : SameSeat d s s2 := by
    apply (SameSeat.of_doms h1).modDom
    exact fun _ => ⟨rfl, fun h => absurd h Bool.false_ne_true⟩
  have h3 : SameSeat d s s3 := h2.trans (.of_doms State.pumpShardReads_doms)
  split_ifs
  · exact h3.trans (State.freedBy_sameSeat ..)
  · exact h3.trans (.of_doms rfl)

theorem State.afterInst_sameSeat (s : State) (d : Nat) : SameSeat d s (s.afterInst d) := by
  unfold State.afterInst
  extract_lets t x
  have ht : SameSeat d s t := State.trimProgram_sameSeat s d
  split
  · split_ifs
    · exact ht
    · refine SameSeat.trans ?_ (State.startInst_sameSeat ..)
      exact ht.modDom _ fun _ => ⟨rfl, id⟩
  · split_ifs
    · exact ht.trans (State.freeProgram_sameSeat ..)
    · exact ht

theorem State.voidInst_sameSeat (s : State) (d step : Nat) : SameSeat d s (s.voidInst d step) := by
  unfold State.voidInst
  extract_lets open' mine s1 reset s2 tags s3 s4
  have h2 : SameSeat d s s2 := .of_doms (by
    dsimp only [s2]
    rw [State.serveObjs_doms, State.endTakes_doms]
    rfl)
  have h3 : SameSeat d s s3 := h2.trans (.of_doms
    (List.foldlRecOn (motive := fun u : State => u.ks.doms = s2.ks.doms) _ _ rfl fun u hu t _ => (State.tagEnd_doms u t true).trans hu))
  have h4 : SameSeat d s s4 := by
    apply h3.modDom
    exact fun _ => ⟨rfl, id⟩
  split_ifs
  · exact h4.trans (State.afterInst_sameSeat ..)
  · exact h4

/-! ### A void leaves the crown (R105, R171) -/

theorem State.dom_modDom_crownship (f : Domain → Domain) (hf : (f (s.dom d)).crownship = (s.dom d).crownship) :
    ((s.modDom d f).dom d).crownship = (s.dom d).crownship := by
  rw [State.dom_modDom, hf]

theorem State.newerEpoch_crownship (e step : Nat) : ((s.newerEpoch d e step).dom d).crownship = (s.dom d).crownship := by
  refine (State.voidInst_sameSeat _ d step).crownship.trans ?_
  rw [State.dom_modDom, State.endEpoch_dom]
  rfl

theorem State.deputyVoid_crownship (m : Ctl) (told : Bool) : ((s.deputyVoid d m told).dom d).crownship = (s.dom d).crownship := by
  unfold State.deputyVoid
  extract_lets x s1
  have h1 : (s1.dom d).crownship = (s.dom d).crownship :=
    (congrArg Domain.crownship (State.dom_of_doms (State.count_ks_doms _ _ _) d)).trans (State.dom_modDom_crownship _ rfl)
  split_ifs
  · rfl
  · exact h1
  · exact (State.dom_modDom_crownship _ rfl).trans h1

theorem State.relayVoid_crownship (m : Ctl) : ((s.relayVoid d m).dom d).crownship = (s.dom d).crownship := by
  unfold State.relayVoid
  extract_lets x
  split_ifs
  · rfl
  · exact (congrArg Domain.crownship (State.dom_of_doms (State.relay_doms ..) d)).trans (State.dom_modDom_crownship _ rfl)

theorem State.ksVoid_crownship (m : Ctl) : ((s.ksVoid d m).dom d).crownship = (s.dom d).crownship := by
  unfold State.ksVoid
  extract_lets t x told
  have ht : (t.dom d).crownship = (s.dom d).crownship := State.relayVoid_crownship m
  split_ifs
  · exact ht
  · exact (State.deputyVoid_crownship ..).trans ht
  · exact (State.deputyVoid_crownship ..).trans ((State.newerEpoch_crownship ..).trans ht)

theorem State.startFreeing_sameSeat (s : State) (d : Nat) : SameSeat d s (s.startFreeing d) := by
  unfold State.startFreeing
  split_ifs
  · exact State.freeProgram_sameSeat ..
  · exact SameSeat.rfl'.modDom _ fun _ => ⟨rfl, id⟩

theorem State.unloadNow_crownship : ((s.unloadNow d).dom d).crownship = (s.dom d).crownship := by
  unfold State.unloadNow
  dsimp only
  split
  · refine (State.startFreeing_sameSeat ..).crownship.trans ?_
    refine (State.dom_modDom_crownship _ rfl).trans ?_
    rw [State.dropArms_dom]
    rfl
  · exact (State.progEnd_sameSeat ..).crownship.trans (State.dom_modDom_crownship _ rfl)
  · rfl

theorem State.enterHeld_crownship (code : Code) : ((s.enterHeld d code).dom d).crownship = (s.dom d).crownship := by
  unfold State.enterHeld
  extract_lets s1
  have h1 : (s1.dom d).crownship = (s.dom d).crownship :=
    (congrArg Domain.crownship (State.dom_of_doms (State.report_ks_doms ..) d)).trans (State.dom_modDom_crownship _ rfl)
  split_ifs
  · exact State.unloadNow_crownship.trans h1
  · exact h1

theorem State.tieCopy_leaves (s : State) (d : Nat) (live : List Nat) (m : Msg) (pl : Nat) :
    (s.tieCopy d live m pl).ks.doms = s.ks.doms ∧ ((s.tieCopy d live m pl).pc .kresia).fw = (s.pc .kresia).fw ∧
      (s.tieCopy d live m pl).free = s.free := by
  unfold State.tieCopy
  split_ifs
  · exact ⟨rfl, rfl, rfl⟩
  · split
    · exact ⟨rfl, rfl, rfl⟩
    · exact ⟨State.report_ks_doms .., State.report_fw .., State.report_free ..⟩

/-- R21: a broadcast over the planes leaves the domains, the mailboxes and the free values. -/
theorem State.broadcast_leaves (s : State) (d : Nat) (m : Msg) :
    (s.broadcast d m).ks.doms = s.ks.doms ∧ ((s.broadcast d m).pc .kresia).fw = (s.pc .kresia).fw ∧
      (s.broadcast d m).free = s.free := by
  unfold State.broadcast
  extract_lets others live
  exact List.foldlRecOn (motive := fun u : State => u.ks.doms = s.ks.doms ∧ (u.pc .kresia).fw = (s.pc .kresia).fw ∧ u.free = s.free)
    _ _ ⟨rfl, rfl, rfl⟩ fun u ⟨hdoms, hfw, hfree⟩ pl _ => by
      obtain ⟨tdoms, tfw, tfree⟩ := u.tieCopy_leaves d live m pl
      exact ⟨tdoms.trans hdoms, tfw.trans hfw, tfree.trans hfree⟩

theorem State.signalObj_doms (o n : Nat) (a : Applier) : (s.signalObj .kresia o n a).1.ks.doms = s.ks.doms := by
  unfold State.signalObj
  dsimp only
  split_ifs
  · have hend (u : State) (code : Code) : (u.endAll .kresia o code).ks.doms = u.ks.doms :=
      List.foldlRecOn (motive := fun v : State => v.ks.doms = u.ks.doms) _ _ rfl fun _ hv w _ =>
        (State.endWaiter_doms _ o w code).trans hv
    unfold State.poisonObj
    dsimp only
    split <;> exact (hend _ _).trans rfl
  · unfold State.serveObj
    split_ifs
    · rfl
    · exact (State.serveFor_doms _ o 1).trans rfl

theorem State.doneSignal_doms (g : Image) (i : Nat) : (s.doneSignal d g i).ks.doms = s.ks.doms := by
  unfold State.doneSignal State.stepSignal
  dsimp only
  split_ifs
  · rfl
  · rfl
  · exact State.signalObj_doms ..

/-- R105: whoever is the crown of a domain stays it through a void. -/
theorem State.voidStep_crownship (cause : Code) : ((s.voidStep d cause).dom d).crownship = (s.dom d).crownship := by
  have hdrop (u : State) : ((u.dropArms d cause).dom d).crownship = (u.dom d).crownship := by
    rw [State.dropArms_dom]
    rfl
  unfold State.voidStep
  extract_lets x untamped s1 s2 m s3 s5 s6
  have h1 : (s1.dom d).crownship = (s.dom d).crownship := (State.dom_modDom_crownship _ rfl).trans (hdrop s)
  have h3 : (s3.dom d).crownship = (s.dom d).crownship := by
    rw [State.dom_of_doms ((s2.broadcast_leaves d (.ctl m)).1.trans (State.count_ks_doms ..)), h1]
  have h5 : s5.ks.doms = s3.ks.doms := by
    dsimp only [s5]
    split
    · exact List.foldlRecOn (motive := fun u : State => u.ks.doms = s3.ks.doms) _ _ rfl fun u hu r _ => by
        split_ifs
        · exact hu
        · exact (State.doneSignal_doms ..).trans hu
    · rfl
  have h6 : (s6.dom d).crownship = (s.dom d).crownship := by
    rw [State.ksVoid_crownship, State.dom_of_doms h5, h3]
  split_ifs
  · rfl
  · refine (State.enterHeld_crownship _).trans ?_
    rw [State.dropArms_dom]
    rfl
  · exact (State.enterHeld_crownship _).trans h6
  · exact h6

end

end Sys2Proof.Machine

/-! The proof of O57: the commands on domains. -/

namespace Sys2Proof.Machine

section
variable {s : State} {m k d : Nat} {tk : Taken}

/-! ### Commands only the crown takes -/

theorem State.atCrown_of_crown {f : State} (h : (s.dom d).isCrown = true) : s.atCrown m k d f = f := if_pos h

theorem State.atCrown_elsewhere {f : State} (h : (s.dom d).isCrown = false) : s.atCrown m k d f =
    s.complete .kresia m k 0xA10C (if (s.dom d).positions.isEmpty then [] else leBytes 3 (2 ^ 20 + (s.dom d).crown)) := by
  refine (if_neg (Bool.eq_false_iff.1 h)).trans ?_
  unfold State.wrongPart
  split <;> simp_all

/-- A started command that only the crown takes is refused with 0xA10C elsewhere, and names the crown where it is known. -/
theorem exec_elsewhere {c : Instr} {op : Nat} {body : State → Taken → State}
    (hexec : exec c s = .next (s.serve .kresia m k op fun s t => s.atCrown m k t.domain (body s t)))
    (hready : s.ready .kresia m k op tk) (hcrown : (s.dom tk.domain).isCrown = false) :
    exec c s = .next ((s.begun .kresia m k).complete .kresia m k 0xA10C
      (if (s.dom tk.domain).positions.isEmpty then [] else leBytes 3 (2 ^ 20 + (s.dom tk.domain).crown))) := by
  have hbegun : ((s.begun .kresia m k).dom tk.domain).isCrown = false := by rw [State.begun_dom, hcrown]
  rw [hexec, State.serve_ready _ _ _ _ _ _ _ hready, Taken.domain_started, State.atCrown_elsewhere hbegun, State.begun_dom]

/-- A started command that only the crown takes runs at the crown. -/
theorem exec_atCrown {c : Instr} {op : Nat} {body : State → Taken → State}
    (hexec : exec c s = .next (s.serve .kresia m k op fun s t => s.atCrown m k t.domain (body s t)))
    (hready : s.ready .kresia m k op tk) (hcrown : (s.dom tk.domain).isCrown = true) :
    exec c s = .next (body (s.begun .kresia m k) { tk with started := true }) := by
  have hbegun : ((s.begun .kresia m k).dom tk.domain).isCrown = true := by rw [State.begun_dom, hcrown]
  rw [hexec, State.serve_ready _ _ _ _ _ _ _ hready, Taken.domain_started, State.atCrown_of_crown hbegun]

/-! ### What the commands on domains send (R9) -/

theorem State.sendBindings_ks (e : Nat → PosEntry) (bound : Bool) (l : List Nat) (s : State) :
    (l.foldl (fun (s : State) (i : Nat) => s.sendBinding d i (e i) bound [(e i).member]) s).ks = s.ks :=
  State.foldl_emit_ks (fun i => .send .kresia (.members [(e i).member])
    (.binding ⟨d, (e i).member, (e i).tenant, bound, i, (e i).group, (e i).port, (e i).v2⟩)) l s

/-- A command holds its slot while nothing of the firmware changes. -/
theorem State.taken_of_fw {op : Nat} {t : State} (hready : s.ready .kresia m k op tk)
    (hfw : (t.pc .kresia).fw = ((s.begun .kresia m k).pc .kresia).fw) :
    (t.mslot .kresia m k).taken = some { tk with started := true } := by
  rw [State.mslot_of_fw hfw]
  exact State.begun_taken s .kresia m k op tk hready

theorem State.dom_of_ks {t : State} (h : t.ks = s.ks) (e : Nat) : t.dom e = s.dom e :=
  State.dom_of_doms (congrArg Kresia.doms h) e

theorem State.dom_setDom_self (x : Domain) : (s.modKs fun z => { z with doms := FMap.set z.doms d x }).dom d = x := by
  simp [State.dom, State.modKs, FMap.getD]

theorem State.dom_setDom_ne {e : Nat} (h : e ≠ d) (x : Domain) :
    (s.modKs fun z => { z with doms := FMap.set z.doms d x }).dom e = s.dom e := by
  simp [State.dom, State.modKs, FMap.getD, FMap.find_set_ne s.ks.doms h x]

theorem State.loadSpare_ks (i : Nat) : (s.loadSpare d i).ks = s.ks := by
  unfold State.loadSpare
  dsimp only
  split <;> split <;> rfl

/-! ### domain.create -/

theorem State.tenantBound_begun (e : PosEntry) : (s.begun .kresia m k).tenantBound e = s.tenantBound e := by
  rw [State.tenantBound, State.begun_ks_doms, State.tenantBound]

theorem State.newPos_begun (e : PosEntry) : (s.begun .kresia m k).newPos e = s.newPos e := by
  rw [State.newPos, State.begun_isFenced, State.newPos]

/-- R9: the domain that a position map makes at the Kresia that takes it. -/
def State.newDomain (s : State) (v2 : List Nat) (bs : List Byte) (n : Nat) : Domain :=
  { isCrown := true, crown := s.ksId, phase := .idle, positions := ((List.range n).map (mapEntry v2 bs)).map s.newPos }

/-- R9: the domain made of a position map is told to the Kresias and members of the map. -/
def State.createDomain (s : State) (d : Nat) (v2 : List Nat) (bs : List Byte) (n : Nat) : State :=
  let s1 := s.modKs fun z => { z with doms := FMap.set z.doms d (s.newDomain v2 bs n) }
  (List.range n).foldl (fun (s : State) (i : Nat) => s.sendBinding d i (mapEntry v2 bs i) true [(mapEntry v2 bs i).member])
    (s1.sendMap d (s1.mapHolders (s1.dom d)) ((List.range n).map (mapEntry v2 bs)))

theorem State.createDomain_ks (v2 : List Nat) (bs : List Byte) (n : Nat) : (s.createDomain d v2 bs n).ks =
    (s.modKs fun z => { z with doms := FMap.set z.doms d (s.newDomain v2 bs n) }).ks :=
  (State.sendBindings_ks (mapEntry v2 bs) true _ _).trans rfl

theorem State.createDomain_fw (v2 : List Nat) (bs : List Byte) (n : Nat) :
    ((s.createDomain d v2 bs n).pc .kresia).fw = (s.pc .kresia).fw := by
  rw [State.pc_kresia, State.createDomain_ks]
  rfl

section
variable {v2 : List Nat} {el : List (Nat × Nat)} {bs : List Byte}

/-- R9: whether entry `i` of a position map names a tenant that is bound here, bound elsewhere or named by an earlier entry. -/
def State.entryTaken (s : State) (v2 : List Nat) (el : List (Nat × Nat)) (bs : List Byte) (i : Nat) : Bool :=
  s.tenantBound (mapEntry v2 bs i) || el.contains ((mapEntry v2 bs i).member, (mapEntry v2 bs i).tenant) ||
    ((List.range i).any fun j => le bs (16 * i) 4 = le bs (16 * j) 4)

variable (hready : s.ready .kresia m k 0x0203 tk) (hspine : s.isSpine = true) (hfresh : (s.dom tk.domain).positions = [])
include hready hspine hfresh

/-- R9: a count within its range needs its stage area. -/
theorem exec_domainCreate_counted (hlo : 1 ≤ tk.f 8 4) (hhi : tk.f 8 4 ≤ 2 ^ 20) :
    exec (.domainCreate .kresia m k v2 el) s = .next (match s.stageOf m (tk.f 12 4) with
      | none => (s.begun .kresia m k).complete .kresia m k 0xA109
      | some bs => if bs.length < 16 * tk.f 8 4 then (s.begun .kresia m k).complete .kresia m k 0xA10A
        else match (List.range (tk.f 8 4)).find? fun i => !mapEntryOk bs i with
        | some i => (s.begun .kresia m k).complete .kresia m k 0xA103 (leBytes 4 i)
        | none => match (List.range (tk.f 8 4)).find? (s.entryTaken v2 el bs) with
          | some i => (s.begun .kresia m k).complete .kresia m k 0x2001 (leBytes 4 i)
          | none => ((s.begun .kresia m k).createDomain tk.domain v2 bs (tk.f 8 4)).complete .kresia m k 0) := by
  simp only [exec, execDomainCreate, State.serve_ready _ _ _ _ _ _ _ hready, Taken.f_started, Taken.domain_started,
    State.begun_isSpine, State.begun_dom, State.begun_stageOf, hspine, hfresh, List.isEmpty_nil, Bool.not_true,
    Bool.false_eq_true, if_false, State.tenantBound_begun]
  have hcount : ¬ (decide (tk.f 8 4 = 0) || decide (2 ^ 20 < tk.f 8 4)) = true := by
    rw [Bool.or_eq_true, decide_eq_true_eq, decide_eq_true_eq]
    omega
  exact congrArg Host.Outcome.next ((if_neg hcount).trans rfl)

end

/-- R9: where every entry of a map passes, none is malformed and none is taken. -/
theorem entries_of_all {v2 : List Nat} {el : List (Nat × Nat)} {bs : List Byte} {n : Nat}
    (hall : ((List.range n).all fun i => mapEntryOk bs i && !s.tenantBound (mapEntry v2 bs i) &&
      !el.contains ((mapEntry v2 bs i).member, (mapEntry v2 bs i).tenant) &&
      !((List.range i).any fun j => le bs (16 * i) 4 = le bs (16 * j) 4)) = true) :
    (List.range n).find? (fun i => !mapEntryOk bs i) = none ∧ (List.range n).find? (s.entryTaken v2 el bs) = none := by
  rw [List.find?_eq_none, List.find?_eq_none, ← forall₂_and]
  intro i hi
  have hentry := List.all_eq_true.1 hall i hi
  simp only [Bool.and_eq_true, Bool.not_eq_true'] at hentry
  obtain ⟨⟨⟨hok, hbound⟩, helse⟩, hearlier⟩ := hentry
  rw [State.entryTaken, hok, hbound, helse, hearlier]
  exact ⟨Bool.false_ne_true, Bool.false_ne_true⟩

/-- R9: before a domain goes, the members bound are told, and then those that hold its map. -/
def State.freeBindings (s : State) (d : Nat) : State :=
  let x := s.dom d
  let s1 := ((List.range x.positions.length).filter fun i => (x.pos i).bound).foldl
    (fun (s : State) (i : Nat) => s.sendBinding d i (x.pos i).e false [(x.pos i).e.member]) s
  s1.sendMap d (s1.mapHolders x) []

theorem State.freeBindings_ks (s : State) (d : Nat) : (s.freeBindings d).ks = s.ks :=
  State.sendBindings_ks (fun i => ((s.dom d).pos i).e) false _ s

/-- R9: a map whose entries all pass makes this Kresia the crown of a new domain. -/
theorem exec_domainCreate_made {v2 : List Nat} {el : List (Nat × Nat)} {bs : List Byte}
    (hready : s.ready .kresia m k 0x0203 tk) (hspine : s.isSpine = true) (hfresh : (s.dom tk.domain).positions = [])
    (hlo : 1 ≤ tk.f 8 4) (hhi : tk.f 8 4 ≤ 2 ^ 20) (harea : s.stageOf m (tk.f 12 4) = some bs)
    (hwhole : 16 * tk.f 8 4 ≤ bs.length)
    (hall : ((List.range (tk.f 8 4)).all fun i => mapEntryOk bs i && !s.tenantBound (mapEntry v2 bs i) &&
      !el.contains ((mapEntry v2 bs i).member, (mapEntry v2 bs i).tenant) &&
      !((List.range i).any fun j => le bs (16 * i) 4 = le bs (16 * j) 4)) = true) :
    ∃ t, exec (.domainCreate .kresia m k v2 el) s = .next t ∧ t.answered .kresia m k tk 0 [] ∧
      (t.dom tk.domain).positions = ((List.range (tk.f 8 4)).map fun i => s.newPos (mapEntry v2 bs i)) ∧
      (t.dom tk.domain).isCrown = true ∧ (t.dom tk.domain).crown = s.ksId ∧ (t.dom tk.domain).phase = .idle ∧
      (t.dom tk.domain).prog = none ∧ (∀ j, j ≠ tk.domain → t.dom j = s.dom j) := by
  obtain ⟨hgood, hfree⟩ := entries_of_all hall
  have hexec : exec (.domainCreate .kresia m k v2 el) s =
      .next (((s.begun .kresia m k).createDomain tk.domain v2 bs (tk.f 8 4)).complete .kresia m k 0) := by
    rw [exec_domainCreate_counted hready hspine hfresh hlo hhi, harea]
    simp only [if_neg (Nat.not_lt.2 hwhole), hgood, hfree]
  have hks := (s.begun .kresia m k).createDomain_ks (d := tk.domain) v2 bs (tk.f 8 4)
  have hnew : (((s.begun .kresia m k).createDomain tk.domain v2 bs (tk.f 8 4)).complete .kresia m k 0).dom tk.domain =
      (s.begun .kresia m k).newDomain v2 bs (tk.f 8 4) := by
    rw [State.dom_complete, State.dom_of_ks hks, State.dom_setDom_self]
  refine ⟨_, hexec, State.answered_of_started (State.taken_of_fw hready (State.createDomain_fw ..)), ?_, ?_, ?_, ?_, ?_, ?_⟩
  · rw [hnew, State.newDomain, List.map_map]
    exact List.map_congr_left fun i _ => State.newPos_begun _
  · rw [hnew, State.newDomain]
  · rw [hnew, State.newDomain, State.begun_ksId]
  · rw [hnew, State.newDomain]
  · rw [hnew, State.newDomain]
  · intro j hj
    rw [State.dom_complete, State.dom_of_ks hks, State.dom_setDom_ne hj, State.begun_dom]

theorem exec_domainDestroy_done (hready : s.ready .kresia m k 0x0204 tk) (hcrown : (s.dom tk.domain).isCrown = true)
    (hprog : (s.dom tk.domain).prog = none) (hwait : (s.dom tk.domain).wait = none) :
    ∃ t, exec (.domainDestroy .kresia m k) s = .next t ∧ t.answered .kresia m k tk 0 [] ∧
      FMap.find? t.ks.doms tk.domain = none := by
  have hexec : exec (.domainDestroy .kresia m k) s = .next ((((s.begun .kresia m k).freeBindings tk.domain).modKs fun z =>
      { z with doms := FMap.erase z.doms tk.domain }).complete .kresia m k 0) := by
    rw [exec_atCrown rfl hready hcrown]
    simp only [Taken.domain_started, State.begun_dom, hprog, hwait]
    rw [State.freeBindings, State.begun_dom]
    rfl
  refine ⟨_, hexec, State.answered_of_started (State.taken_of_fw hready ?_), ?_⟩
  · exact congrArg (·.c.fw) ((s.begun .kresia m k).freeBindings_ks tk.domain)
  · rw [State.complete_ks_doms]
    exact FMap.find_erase_self ..

/-! ### tenant.unbind and spare.bind -/

theorem modify_eq_set_getD {α : Type} (l : List α) {i : Nat} (h : i < l.length) (f : α → α) (a : α) :
    l.modify i f = l.set i (f (l.getD i a)) := by
  rw [List.modify_eq_set_getElem?, List.getElem?_eq_getElem h, List.getD_eq_getElem _ _ h]
  rfl

theorem exec_tenantUnbind_done (hready : s.ready .kresia m k 0x0205 tk) (hcrown : (s.dom tk.domain).isCrown = true)
    (hrange : tk.f 8 4 < (s.dom tk.domain).positions.length) (hbound : ((s.dom tk.domain).pos (tk.f 8 4)).bound = true) :
    ∃ t, exec (.tenantUnbind .kresia m k) s = .next t ∧ t.answered .kresia m k tk 0 [] ∧
      (t.dom tk.domain).positions = (s.dom tk.domain).positions.set (tk.f 8 4)
        { (s.dom tk.domain).pos (tk.f 8 4) with bound := false, vacant := true } ∧
      .send .kresia (.members [((s.dom tk.domain).pos (tk.f 8 4)).e.member])
        (.binding ⟨tk.domain, ((s.dom tk.domain).pos (tk.f 8 4)).e.member, ((s.dom tk.domain).pos (tk.f 8 4)).e.tenant, false,
          tk.f 8 4, ((s.dom tk.domain).pos (tk.f 8 4)).e.group, ((s.dom tk.domain).pos (tk.f 8 4)).e.port,
          ((s.dom tk.domain).pos (tk.f 8 4)).e.v2⟩) ∈ t.out := by
  have hexec : exec (.tenantUnbind .kresia m k) s = .next ((((s.begun .kresia m k).modDom tk.domain fun y =>
      { y with positions := y.positions.modify (tk.f 8 4) fun q => { q with bound := false, vacant := true } }).sendBinding
        tk.domain (tk.f 8 4) ((s.dom tk.domain).pos (tk.f 8 4)).e false [((s.dom tk.domain).pos (tk.f 8 4)).e.member]).complete
        .kresia m k 0) := by
    rw [exec_atCrown rfl hready hcrown]
    simp only [Taken.domain_started, Taken.f_started, State.begun_dom, hbound]
    exact congrArg Host.Outcome.next (if_neg (Nat.not_le.2 hrange))
  refine ⟨_, hexec, State.answered_of_started (State.taken_of_fw hready rfl), ?_, ?_⟩
  · rw [State.dom_complete]
    refine (congrArg Domain.positions (State.dom_modDom (s.begun .kresia m k) tk.domain _)).trans ?_
    rw [State.begun_dom]
    exact modify_eq_set_getD _ hrange _ _
  · rw [State.send_mem_complete_out]
    exact List.mem_cons_self

theorem State.spareCode_begun (i : Nat) (e : PosEntry) (f : SpareFacts) :
    (s.begun .kresia m k).spareCode d i e f = s.spareCode d i e f := by
  simp only [State.spareCode, State.begun_dom, State.tenantBound_begun]

/-- R329: the spare takes the position; the member before it, the holders of the map, the Kresias new to the domain and the
members are told. -/
def State.bindSpare (s : State) (d i : Nat) (e : PosEntry) : State :=
  let x := s.dom d
  let s1 := s.modDom d fun y =>
    { y with
      positions := y.positions.set i { e := e }
      arrivals := y.arrivals.filter (· ≠ i)
      suspects := y.suspects.filter (· ≠ i) }
  let y : Domain := s1.dom d
  let es : List PosEntry := y.positions.map fun q => q.e
  let s2 := if (x.pos i).bound then s1.sendBinding d i (x.pos i).e false [(x.pos i).e.member] else s1
  let s3 := s2.sendMap d (s2.mapHolders y) es
  let fresh := (y.kresia s.ks.build).filter fun z => z ≠ s.ksId && !(x.kresia s.ks.build).contains z
  let s4 := match x.prog with
    | some g => if fresh.isEmpty then s3 else s3.emit (.send .kresia (.kresias fresh)
        (.progImage { domain := d, crown := s.ksId, positions := es, image := g }))
    | none => s3
  (s4.sendBinding d i e true y.members).loadSpare d i

theorem State.bindSpare_ks (i : Nat) (e : PosEntry) : (s.bindSpare d i e).ks = (s.modDom d fun y =>
    { y with
      positions := y.positions.set i { e := e }
      arrivals := y.arrivals.filter (· ≠ i)
      suspects := y.suspects.filter (· ≠ i) }).ks := by
  unfold State.bindSpare
  extract_lets x s1 y es s2 s3 fresh s4
  have h2 : s2.ks = s1.ks := by
    dsimp only [s2]
    split_ifs <;> rfl
  have h4 : s4.ks = s1.ks := by
    dsimp only [s4]
    split
    · split_ifs <;> exact h2
    · exact h2
  rw [State.loadSpare_ks]
  exact h4

theorem State.bindSpare_fw (i : Nat) (e : PosEntry) : ((s.bindSpare d i e).pc .kresia).fw = (s.pc .kresia).fw := by
  rw [State.pc_kresia, State.bindSpare_ks]
  rfl

theorem exec_spareBind_done {f : SpareFacts} {e : PosEntry} (hready : s.ready .kresia m k 0x0906 tk)
    (hcrown : (s.dom tk.domain).isCrown = true)
    (he : e = { member := tk.f 12 3, tenant := tk.f 15 1, group := f.group, port := f.port, v2 := f.v2 })
    (hcode : s.spareCode tk.domain (tk.f 8 4) e f = none) :
    ∃ t, exec (.spareBind .kresia m k f) s = .next t ∧ t.answered .kresia m k tk 0 [] ∧
      (t.dom tk.domain).positions = (s.dom tk.domain).positions.set (tk.f 8 4) { e := e } ∧
      (t.dom tk.domain).arrivals = (s.dom tk.domain).arrivals.filter (· ≠ tk.f 8 4) ∧
      (t.dom tk.domain).step = (s.dom tk.domain).step ∧ (t.dom tk.domain).epoch = (s.dom tk.domain).epoch ∧
      (t.dom tk.domain).prog = (s.dom tk.domain).prog := by
  subst he
  have hexec : exec (.spareBind .kresia m k f) s = .next (((s.begun .kresia m k).bindSpare tk.domain (tk.f 8 4)
      { member := tk.f 12 3, tenant := tk.f 15 1, group := f.group, port := f.port, v2 := f.v2 }).complete .kresia m k 0) := by
    rw [exec_atCrown rfl hready hcrown]
    simp only [Taken.domain_started, Taken.f_started, State.spareCode_begun, hcode]
    rfl
  have hdom := (State.dom_of_ks ((s.begun .kresia m k).bindSpare_ks (d := tk.domain) (tk.f 8 4)
    { member := tk.f 12 3, tenant := tk.f 15 1, group := f.group, port := f.port, v2 := f.v2 }) tk.domain).trans
    (State.dom_modDom (s.begun .kresia m k) tk.domain _)
  rw [State.begun_dom] at hdom
  refine ⟨_, hexec, State.answered_of_started (State.taken_of_fw hready (State.bindSpare_fw ..)), ?_, ?_, ?_, ?_, ?_⟩ <;>
    rw [State.dom_complete, hdom]

/-! ### domain.rollback (R328) -/

theorem SameSeat.epoch {t : State} (h : SameSeat d s t) : (t.dom d).epoch = (s.dom d).epoch := congrArg (fun q => q.2.1) h.seat

theorem SameSeat.step {t : State} (h : SameSeat d s t) : (t.dom d).step = (s.dom d).step := congrArg (fun q => q.2.2) h.seat

/-- R328: what a roll-back to a checkpoint makes of its domain. -/
def Domain.rolledBack (x : Domain) (c : Nat) : Domain :=
  { x with epoch := x.epoch + 1, seq := 0, step := c + 1, arrivals := [], lastBy := none, recs := [], lost := false, voidRun := 0 }

/-- R328: the crown tells the Kresias, ends the epoch and voids the step after the checkpoint with a cause drawn. -/
def State.rollTold (s : State) (d c : Nat) : State :=
  let x := s.dom d
  let s2 := s.draw.2.emit (.send .kresia (.kresias ((x.kresia s.draw.2.ks.build).filter (· ≠ s.draw.2.ksId)))
    (.progImage { domain := d, crown := s.draw.2.ksId, rollback := some c }))
  let s3 := (s2.endEpoch d (x.epoch + 1)).modDom d fun y =>
    { y with epoch := x.epoch + 1, seq := 0, step := c + 1, arrivals := [], lastBy := none, recs := [], lost := false, voidRun := 0 }
  s3.broadcast d (.ctl { kind := .void, domain := d, epoch := x.epoch + 1, step := c + 1, voidedEpoch := x.epoch,
                         cause := BitVec.ofNat 16 s.draw.1 })

theorem State.rollTold_dom (c : Nat) : (s.rollTold d c).dom d = (s.dom d).rolledBack c := by
  unfold State.rollTold
  extract_lets x s2 s3
  rw [State.dom_of_doms (s3.broadcast_leaves ..).1, State.dom_modDom, State.endEpoch_dom]
  rfl

theorem State.dropTrackers_leaves (f : Tracker → Bool) :
    ((s.dropTrackers .kresia f).pc .kresia).fw = (s.pc .kresia).fw ∧ (s.dropTrackers .kresia f).free = s.free := ⟨rfl, rfl⟩

theorem State.voidTrackers_leaves (e : Nat) :
    ((s.voidTrackers .kresia d e).pc .kresia).fw = (s.pc .kresia).fw ∧ (s.voidTrackers .kresia d e).free = s.free := by
  unfold State.voidTrackers
  extract_lets old gone
  exact List.foldlRecOn (motive := fun u : State => (u.pc .kresia).fw = (s.pc .kresia).fw ∧ u.free = s.free) _ _
    (State.dropTrackers_leaves old) fun u hu q _ => hu

theorem State.endEpoch_leaves (e : Nat) (hchunks : s.ks.chunks = []) :
    ((s.endEpoch d e).pc .kresia).fw = (s.pc .kresia).fw ∧ (s.endEpoch d e).free = s.free := by
  unfold State.endEpoch
  extract_lets s1 s2
  have h2 : s2.ks.chunks = [] := hchunks
  rw [h2]
  exact State.voidTrackers_leaves e

theorem State.rollTold_leaves (c : Nat) (hchunks : s.ks.chunks = []) :
    ((s.rollTold d c).pc .kresia).fw = (s.pc .kresia).fw ∧ (s.rollTold d c).free = s.free + 1 := by
  unfold State.rollTold
  extract_lets x s2 s3
  obtain ⟨efw, efree⟩ := State.endEpoch_leaves (s := s2) (d := d) (x.epoch + 1) hchunks
  exact ⟨(s3.broadcast_leaves d _).2.1.trans efw, (s3.broadcast_leaves d _).2.2.trans efree⟩

theorem State.startJob_doms (j : SendJob) : (s.startJob j).ks.doms = s.ks.doms := by
  have hroute (u : State) (r : RsigSend) (v2 : Bool) : (u.sendByRoute r v2).ks = u.ks := by
    unfold State.sendByRoute
    dsimp only
    split_ifs <;> exact State.foldl_emit_ks _ _ u
  unfold State.startJob
  split_ifs
  · unfold State.launchJob
    extract_lets j' t x v2 s1 s2
    have h2 : s2.ks.doms = s.ks.doms := by
      dsimp only [s2]
      split_ifs
      · exact State.count_ks_doms ..
      · exact State.count_ks_doms ..
      · exact State.count_ks_doms ..
      · rfl
    rw [hroute, h2]
  · rfl

theorem State.sendMirror_doms (g : Image) (c k step mode entry : Nat) :
    (s.sendMirror d g c k step mode entry).ks.doms = s.ks.doms := by
  unfold State.sendMirror State.sendPieces
  refine List.foldlRecOn (motive := fun u : State => u.ks.doms = s.ks.doms) _ _ rfl fun u hu q _ => ?_
  exact (State.startJob_doms _).trans hu

theorem State.rollbackHome_sameSeat (s : State) (d c : Nat) : SameSeat d s (s.rollbackHome d c) := by
  unfold State.rollbackHome
  extract_lets s1 s2
  have h1 : SameSeat d s s1 := List.foldlRecOn (motive := fun u : State => SameSeat d s u) _ _ SameSeat.rfl' fun u hu n _ =>
    hu.trans (State.voidInst_sameSeat ..)
  have h2 : SameSeat d s s2 := by
    apply SameSeat.modDom
    · exact h1.trans (.of_doms rfl)
    · exact fun _ => ⟨rfl, id⟩
  split
  · exact h2
  · next g _ =>
    refine h2.trans (.of_doms (List.foldlRecOn (motive := fun u : State => u.ks.doms = s2.ks.doms) _ _ rfl fun u hu j _ => ?_))
    refine List.foldlRecOn (motive := fun v : State => v.ks.doms = s2.ks.doms) _ _ hu fun v hv mode _ => ?_
    split
    · exact hv
    · exact List.foldlRecOn (motive := fun w : State => w.ks.doms = s2.ks.doms) _ _ hv fun w hw q _ =>
        (State.sendMirror_doms ..).trans hw

/-- R328: what a home drops of a domain past the checkpoint. -/
def Domain.rewound (x : Domain) (c : Nat) : Domain :=
  { x with
    lastTamp := none
    heldInsts := []
    cups := x.cups.filter fun q => q.step ≤ c
    varKept := []
    cupOpen := x.cupOpen.filter fun q => q.step ≤ c }

theorem State.rollbackHome_bare (c : Nat) (hprog : (s.dom d).prog = none) (hinsts : (s.dom d).insts = []) :
    (s.rollbackHome d c).dom d = (s.dom d).rewound c ∧ ((s.rollbackHome d c).pc .kresia).fw = (s.pc .kresia).fw ∧
      (s.rollbackHome d c).free = s.free := by
  unfold State.rollbackHome
  rw [hprog, hinsts]
  exact ⟨State.dom_modDom _ d fun x => x.rewound c, rfl, rfl⟩

theorem exec_domainRollback_run (hready : s.ready .kresia m k 0x0909 tk) (hcrown : (s.dom tk.domain).isCrown = true)
    (hphase : (s.dom tk.domain).phase = .held) : exec (.domainRollback .kresia m k true) s =
      .next ((((s.begun .kresia m k).rollTold tk.domain (tk.f 8 6)).rollbackHome tk.domain (tk.f 8 6)).complete .kresia m k 0) := by
  rw [exec_atCrown rfl hready hcrown]
  simp only [Taken.domain_started, Taken.f_started]
  have hheld : ((s.begun .kresia m k).dom tk.domain).phase = .held := by rw [State.begun_dom, hphase]
  exact congrArg Host.Outcome.next ((if_neg (not_not.2 hheld)).trans (if_neg Bool.false_ne_true))

/-- R328: where no program stands, a roll-back only renames the step. -/
theorem exec_domainRollback_bare (hready : s.ready .kresia m k 0x0909 tk) (hcrown : (s.dom tk.domain).isCrown = true)
    (hphase : (s.dom tk.domain).phase = .held) (hprog : (s.dom tk.domain).prog = none) (hchunks : s.ks.chunks = [])
    (hinsts : (s.dom tk.domain).insts = []) : ∃ t, exec (.domainRollback .kresia m k true) s = .next t ∧
      t.answered .kresia m k tk 0 [] ∧ t.dom tk.domain = ((s.dom tk.domain).rolledBack (tk.f 8 6)).rewound (tk.f 8 6) ∧
      t.free = s.free + 1 := by
  have hdom := State.rollTold_dom (s := s.begun .kresia m k) (d := tk.domain) (tk.f 8 6)
  rw [State.begun_dom] at hdom
  obtain ⟨tfw, tfree⟩ := State.rollTold_leaves (s := s.begun .kresia m k) (d := tk.domain) (tk.f 8 6)
    (by rw [State.begun_ks_chunks, hchunks])
  obtain ⟨hhome, hfw, hfree⟩ := State.rollbackHome_bare (s := (s.begun .kresia m k).rollTold tk.domain (tk.f 8 6))
    (d := tk.domain) (tk.f 8 6) (by rw [hdom]; exact hprog) (by rw [hdom]; exact hinsts)
  refine ⟨_, exec_domainRollback_run hready hcrown hphase,
    State.answered_of_started (State.taken_of_fw hready (hfw.trans tfw)), ?_, ?_⟩
  · rw [State.dom_complete, hhome, hdom]
  · rw [State.complete_free, hfree, tfree, State.begun_free]

/-- R328: a roll-back raises the epoch, names the step after the checkpoint and clears the loss. -/
theorem exec_domainRollback_done (hready : s.ready .kresia m k 0x0909 tk) (hcrown : (s.dom tk.domain).isCrown = true)
    (hphase : (s.dom tk.domain).phase = .held) : ∃ t, exec (.domainRollback .kresia m k true) s = .next t ∧
      (t.dom tk.domain).epoch = (s.dom tk.domain).epoch + 1 ∧ (t.dom tk.domain).step = tk.f 8 6 + 1 ∧
      (t.dom tk.domain).lost = false := by
  have hseat := State.rollbackHome_sameSeat ((s.begun .kresia m k).rollTold tk.domain (tk.f 8 6)) tk.domain (tk.f 8 6)
  have hdom := State.rollTold_dom (s := s.begun .kresia m k) (d := tk.domain) (tk.f 8 6)
  rw [State.begun_dom] at hdom
  refine ⟨_, exec_domainRollback_run hready hcrown hphase, ?_, ?_, ?_⟩
  · rw [State.dom_complete, hseat.epoch, hdom, Domain.rolledBack]
  · rw [State.dom_complete, hseat.step, hdom, Domain.rolledBack]
  · rw [State.dom_complete, ← Bool.not_eq_true]
    intro hlost
    have hkept := hseat.lost hlost
    rw [hdom, Domain.rolledBack] at hkept
    exact Bool.false_ne_true hkept

/-! ### crown.promote (R107) -/

/-- R107: what a deputy makes of its domain when it becomes the crown. -/
def Domain.promoted (x : Domain) (id : Nat) : Domain :=
  { x with isCrown := true, isDeputy := false, crown := id, oldCrown := some x.crown, heldAcks := []
           phase := if x.prog.isNone then .idle else x.phase }

/-- R107: a deputy that becomes the crown takes VOID_RETRY of the program and tells the holders of the map. -/
def State.promote (s : State) (d : Nat) : State :=
  let x := s.dom d
  let s1 := s.modDom d fun y => y.promoted s.ksId
  let s2 := match x.prog with
    | some g => s1.modPc .kresia fun c =>
      { c with domRegs := FMap.update c.domRegs (d * 2 ^ 24 + 0x11001C) 0x300 fun w => w.put 8 8 (imgVoidRetry g) }
    | none => s1
  s2.sendMap d (s2.mapHolders (s2.dom d)) (x.positions.map (·.e))

theorem State.promote_dom : (s.promote d).dom d = (s.dom d).promoted s.ksId := by
  unfold State.promote
  extract_lets x s1 s2
  have h2 : s2.ks.doms = s1.ks.doms := by
    dsimp only [s2]
    split <;> rfl
  have hsent : (s2.sendMap d (s2.mapHolders (s2.dom d)) (x.positions.map (·.e))).ks.doms = s1.ks.doms := h2
  rw [State.dom_of_doms hsent]
  exact State.dom_modDom s d fun y => y.promoted s.ksId

theorem State.promote_fw : ((s.promote d).pc .kresia).fw = (s.pc .kresia).fw := by
  unfold State.promote
  extract_lets x s1 s2
  change (s2.pc .kresia).fw = _
  dsimp only [s2]
  split <;> rfl

theorem State.voidStep_of_idle {cause : Code} (h : (s.dom d).phase = .idle) : s.voidStep d cause = s :=
  if_pos (by simp [h])

variable (hready : s.ready .kresia m k 0x090D tk) (hdeputy : (s.dom tk.domain).isDeputy = true)
  (hfenced : s.isFenced (2 ^ 20 + (s.dom tk.domain).crown) = true)
include hready hdeputy hfenced

theorem exec_crownPromote_run : exec (.crownPromote .kresia m k) s =
    .next ((((s.begun .kresia m k).promote tk.domain).voidStep tk.domain 0x2015).complete .kresia m k 0) := by
  simp only [exec, execCrownPromote, State.serve_ready _ _ _ _ _ _ _ hready, Taken.domain_started]
  have hdep : ¬ (!((s.begun .kresia m k).dom tk.domain).isDeputy) = true := by
    rw [State.begun_dom, hdeputy]
    exact Bool.false_ne_true
  have hgone : ¬ (!(s.begun .kresia m k).isFenced (2 ^ 20 + ((s.begun .kresia m k).dom tk.domain).crown)) = true := by
    rw [State.begun_isFenced, State.begun_dom, hfenced]
    exact Bool.false_ne_true
  exact congrArg Host.Outcome.next ((if_neg hdep).trans (if_neg hgone))

/-- R107: where no program stands, the new crown's domain is idle and nothing is voided. -/
theorem exec_crownPromote_idle (hprog : (s.dom tk.domain).prog = none) :
    ∃ t, exec (.crownPromote .kresia m k) s = .next t ∧ t.answered .kresia m k tk 0 [] ∧
      t.dom tk.domain = (s.dom tk.domain).promoted s.ksId := by
  have hdom : ((s.begun .kresia m k).promote tk.domain).dom tk.domain = (s.dom tk.domain).promoted s.ksId := by
    rw [State.promote_dom, State.begun_dom, State.begun_ksId]
  have hidle : (((s.begun .kresia m k).promote tk.domain).dom tk.domain).phase = .idle := by
    rw [hdom, Domain.promoted, hprog]
    rfl
  have hexec := exec_crownPromote_run hready hdeputy hfenced
  rw [State.voidStep_of_idle hidle] at hexec
  exact ⟨_, hexec, State.answered_of_started (State.taken_of_fw hready State.promote_fw), by rw [State.dom_complete, hdom]⟩

theorem exec_crownPromote_crownship : ∃ t, exec (.crownPromote .kresia m k) s = .next t ∧
    (t.dom tk.domain).crownship = (true, false, s.ksId) := by
  refine ⟨_, exec_crownPromote_run hready hdeputy hfenced, ?_⟩
  rw [State.dom_complete, State.voidStep_crownship, State.promote_dom, State.begun_ksId]
  rfl

end

/-- Settles O57: every command of a domain is refused by the first check that fails, and acts at the crown otherwise; the crown of a
domain stands through whatever a void ends. -/
theorem domainCommands : Obligations.DomainCommands := by
  unfold Obligations.DomainCommands
  refine ⟨?_, ?_, ?_, ?_, ?_, ?_, ?_, ?_, ?_, ?_, ?_, ?_, ?_, ?_, ?_, ?_, ?_, ?_, ?_, ?_, ?_, ?_, ?_, ?_, ?_, ?_, ?_⟩
  case refine_1 =>
    intro s m k tk q b f lf hq hready hcrown
    simp only [List.mem_cons, List.not_mem_nil, or_false] at hq
    rcases hq with rfl | rfl | rfl | rfl | rfl | rfl | rfl | rfl | rfl | rfl | rfl | rfl | rfl | rfl <;>
      exact exec_elsewhere rfl hready hcrown
  case refine_2 =>
    intro s m k tk v2 el hready hspine
    simp only [exec, execDomainCreate, State.serve_ready _ _ _ _ _ _ _ hready, State.begun_isSpine, hspine]
    rfl
  case refine_3 =>
    intro s m k tk v2 el hready hspine hbound
    simp only [exec, execDomainCreate, State.serve_ready _ _ _ _ _ _ _ hready, State.begun_isSpine, hspine, State.begun_dom,
      Taken.domain_started, List.isEmpty_eq_false_iff.2 hbound]
    rfl
  case refine_4 =>
    intro s m k tk v2 el hready hspine hfresh hcount
    simp only [exec, execDomainCreate, State.serve_ready _ _ _ _ _ _ _ hready, State.begun_isSpine, hspine, State.begun_dom,
      Taken.domain_started, hfresh]
    have hout : (decide (tk.f 8 4 = 0) || decide (2 ^ 20 < tk.f 8 4)) = true := by
      rwa [Bool.or_eq_true, decide_eq_true_eq, decide_eq_true_eq]
    exact congrArg Host.Outcome.next (if_pos hout)
  case refine_5 =>
    intro s m k tk v2 el hready hspine hfresh hlo hhi harea
    rw [exec_domainCreate_counted hready hspine hfresh hlo hhi, harea]
  case refine_6 =>
    intro s m k tk v2 el bs hready hspine hfresh hlo hhi harea hshort
    rw [exec_domainCreate_counted hready hspine hfresh hlo hhi, harea]
    exact congrArg Host.Outcome.next (if_pos hshort)
  case refine_7 =>
    intro s m k tk v2 el bs i hready hspine hfresh hlo hhi harea hwhole hbad
    rw [exec_domainCreate_counted hready hspine hfresh hlo hhi, harea]
    simp only [if_neg (Nat.not_lt.2 hwhole), hbad]
  case refine_8 =>
    intro s m k tk v2 el bs i hready hspine hfresh hlo hhi harea hwhole hgood htaken
    rw [exec_domainCreate_counted hready hspine hfresh hlo hhi, harea]
    have htaken' : (List.range (tk.f 8 4)).find? (s.entryTaken v2 el bs) = some i := htaken
    simp only [if_neg (Nat.not_lt.2 hwhole), hgood, htaken']
  case refine_9 => exact fun s m k tk v2 el bs => exec_domainCreate_made
  case refine_10 =>
    intro s m k tk hready hcrown hbusy
    rw [exec_atCrown rfl hready hcrown]
    simp only [Taken.domain_started, State.begun_dom]
    exact congrArg Host.Outcome.next (if_pos (by rwa [Bool.or_eq_true]))
  case refine_11 => exact fun s m k tk => exec_domainDestroy_done
  case refine_12 =>
    intro s m k tk hready hcrown hrange
    rw [exec_atCrown rfl hready hcrown]
    simp only [Taken.domain_started, Taken.f_started, State.begun_dom]
    exact congrArg Host.Outcome.next (if_pos hrange)
  case refine_13 =>
    intro s m k tk hready hcrown hrange hbound
    rw [exec_atCrown rfl hready hcrown]
    simp only [Taken.domain_started, Taken.f_started, State.begun_dom, hbound]
    exact congrArg Host.Outcome.next (if_neg (Nat.not_le.2 hrange))
  case refine_14 => exact fun s m k tk => exec_tenantUnbind_done
  case refine_15 =>
    intro s m k tk f c hready hcrown hcode
    rw [exec_atCrown rfl hready hcrown]
    simp only [Taken.domain_started, Taken.f_started, State.spareCode_begun, hcode]
  case refine_16 => exact fun s m k tk f hready hcrown => exec_spareBind_done hready hcrown rfl
  case refine_17 =>
    intro s m k tk hready hcrown hphase
    rw [exec_atCrown rfl hready hcrown]
    simp only [Taken.domain_started, State.begun_dom]
    exact congrArg Host.Outcome.next (if_pos hphase)
  case refine_18 =>
    intro s m k tk hready hcrown hphase hbad
    rw [exec_atCrown rfl hready hcrown]
    simp only [Taken.domain_started, State.begun_dom, State.begun_ks_fills]
    refine congrArg Host.Outcome.next ((if_neg (not_not.2 hphase)).trans (if_pos ?_))
    rwa [Bool.or_eq_true, Bool.or_eq_true, or_assoc]
  case refine_19 =>
    intro s m k tk hready hcrown hphase hvacant hlost hfills
    rw [exec_atCrown rfl hready hcrown]
    simp only [Taken.domain_started, State.begun_dom, State.begun_ks_fills]
    have hwhole : ¬ ((s.dom tk.domain).positions.any (·.vacant) || (s.dom tk.domain).lost ||
        s.ks.fills.any fun q => q.domain = tk.domain) = true := by
      rw [hvacant, hlost, hfills]
      exact Bool.false_ne_true
    exact congrArg Host.Outcome.next ((if_neg (not_not.2 hphase)).trans (if_neg hwhole))
  case refine_20 =>
    intro s m k tk b hready hcrown hphase
    rw [exec_atCrown rfl hready hcrown]
    simp only [Taken.domain_started, State.begun_dom]
    exact congrArg Host.Outcome.next (if_pos hphase)
  case refine_21 =>
    intro s m k tk hready hcrown hphase
    rw [exec_atCrown rfl hready hcrown]
    simp only [Taken.domain_started, State.begun_dom]
    exact congrArg Host.Outcome.next ((if_neg (not_not.2 hphase)).trans (if_pos rfl))
  case refine_22 =>
    intro s m k tk hready hcrown hphase hprog hchunks hinsts
    obtain ⟨t, hexec, hanswered, hdom, hfree⟩ := exec_domainRollback_bare hready hcrown hphase hprog hchunks hinsts
    exact ⟨t, hexec, hanswered, by rw [hdom]; rfl, by rw [hdom]; rfl, by rw [hdom]; rfl, by rw [hdom]; rfl, by rw [hdom]; rfl,
      by rw [hdom]; exact hphase, by rw [hdom]; rfl, hfree⟩
  case refine_23 => exact fun s m k tk hready hcrown hphase _ => exec_domainRollback_done hready hcrown hphase
  case refine_24 =>
    intro s m k tk hready hdeputy
    simp only [exec, execCrownPromote, State.serve_ready _ _ _ _ _ _ _ hready, Taken.domain_started, State.begun_dom, hdeputy,
      State.begun_ksId]
    rfl
  case refine_25 =>
    intro s m k tk hready hdeputy hfenced
    simp only [exec, execCrownPromote, State.serve_ready _ _ _ _ _ _ _ hready, Taken.domain_started, State.begun_dom, hdeputy,
      State.begun_isFenced, hfenced]
    rfl
  case refine_26 =>
    intro s m k tk hready hdeputy hfenced hprog
    obtain ⟨t, hexec, hanswered, hdom⟩ := exec_crownPromote_idle hready hdeputy hfenced hprog
    refine ⟨t, hexec, hanswered, ?_⟩
    rw [hdom, Domain.promoted, hprog]
    exact ⟨rfl, rfl, rfl, rfl, rfl, rfl⟩
  case refine_27 =>
    intro s m k tk hready hdeputy hfenced
    obtain ⟨t, hexec, hcrownship⟩ := exec_crownPromote_crownship hready hdeputy hfenced
    exact ⟨t, hexec, congrArg (·.1) hcrownship, congrArg (·.2.1) hcrownship, congrArg (·.2.2) hcrownship⟩

end Sys2Proof.Machine

/-! The proof of O58: the commands on programs. -/

namespace Sys2Proof.Machine

section
variable {s : State} {m k d : Nat} {tk : Taken}

/-- A command on a program that has started and holds its slot is answered by its end. -/
theorem State.progEnd_of_started (htaken : (s.mslot .kresia m k).taken = some { tk with started := true }) (code : Code)
    (r : List Byte) : (s.progEnd d m k code r).answered .kresia m k tk code r :=
  State.progEnd_answered code r (tk := { tk with started := true }) htaken

theorem State.progEnd_doms (s : State) (d m k : Nat) (code : Code) (r : List Byte) :
    (s.progEnd d m k code r).ks.doms = s.ks.doms := (State.complete_ks_doms ..).trans rfl

/-! ### prog.cancel (R169) -/

theorem exec_progCancel_done {g : Image} {n : Nat} (hready : s.ready .kresia m k 0x0403 tk)
    (hcrown : (s.dom tk.domain).isCrown = true) (hnext : (s.dom tk.domain).next = some (g, n)) :
    ∃ t, exec (.progCancel .kresia m k) s = .next t ∧ t.answered .kresia m k tk 0 [] ∧
      (t.dom tk.domain).next = none ∧ (t.dom tk.domain).prog = (s.dom tk.domain).prog ∧
      (t.dom tk.domain).step = (s.dom tk.domain).step := by
  have hexec : exec (.progCancel .kresia m k) s = .next (((s.begun .kresia m k).withdrawLoad tk.domain
      { kind := 1, mailbox := m, mslot := k, waiting := [], image := g, switchStep := n }).progEnd tk.domain m k 0) := by
    rw [exec_atCrown rfl hready hcrown]
    simp only [Taken.domain_started, State.begun_dom, hnext]
  have hdom : ((s.begun .kresia m k).withdrawLoad tk.domain
      { kind := 1, mailbox := m, mslot := k, waiting := [], image := g, switchStep := n }).dom tk.domain =
      { s.dom tk.domain with next := none } := by
    rw [← State.begun_dom s .kresia m k]
    exact State.dom_modDom (s.begun .kresia m k) tk.domain fun y => { y with next := none }
  refine ⟨_, hexec, State.progEnd_of_started ((congrArg MSlot.taken (State.withdrawLoad_mslot _ _ m k)).trans
    (State.begun_taken s .kresia m k 0x0403 tk hready)) 0 [], ?_, ?_, ?_⟩ <;> rw [State.dom_progEnd, hdom]

/-! ### prog.replace (R169) -/

/-- R169: a replace of a program examines its image, then its switch step and the slots. -/
theorem exec_progReplace_image {area : List Byte} {f : LoadFacts} {old : Image} (hready : s.ready .kresia m k 0x0402 tk)
    (hcrown : (s.dom tk.domain).isCrown = true) (hksready : s.ksReady = true) (harea : s.stageOf m (tk.f 8 4) = some area)
    (hprog : (s.dom tk.domain).prog = some old) : exec (.progReplace .kresia m k f) s = .next (
      match (s.begun .kresia m k).imageFault tk.domain area f false with
      | some e => (s.begun .kresia m k).refuseImage tk.domain m k e
      | none => if tk.f 12 6 < (s.dom tk.domain).step + 2 ∨ imgStepFirst (area.take (imgBytes area)) ≠ tk.f 12 6 ∨
          slotClash old (area.take (imgBytes area)) = true ∨ (s.dom tk.domain).next.isSome = true ∨
          (s.dom tk.domain).unloading.isSome = true then (s.begun .kresia m k).progEnd tk.domain m k 0x202A
        else (((s.begun .kresia m k).modDom tk.domain fun y => { y with next := some ((area.take (imgBytes area)), tk.f 12 6) }).distribute
          tk.domain (area.take (imgBytes area)) (some (tk.f 12 6))).awaitLoad tk.domain m k 1 (area.take (imgBytes area)) (tk.f 12 6)) := by
  rw [exec_atCrown rfl hready hcrown]
  simp only [Taken.domain_started, Taken.f_started, State.begun_ksReady, hksready, State.begun_stageOf, harea, State.begun_dom, hprog]
  generalize (s.begun .kresia m k).imageFault tk.domain area f false = r
  cases r with
  | some e => rfl
  | none =>
    dsimp only
    refine congrArg Host.Outcome.next ((if_neg Bool.false_ne_true).trans (if_congr ?_ rfl rfl))
    simp only [Bool.or_eq_true, decide_eq_true_eq, or_assoc]
    exact or_congr_right (or_congr_left decide_eq_true_iff)

/-! ### prog.unload (R171) -/

/-- R171: a domain that awaits nothing: idle, with no record, no arrival and no unload pending. -/
structure State.AtRest (s : State) (d : Nat) : Prop where
  phase : (s.dom d).phase = .idle
  recs : (s.dom d).recs = []
  arrivals : (s.dom d).arrivals = []
  unloading : (s.dom d).unloading = none

theorem State.AtRest.of_doms {t : State} (h : s.AtRest d) (hdoms : t.ks.doms = s.ks.doms) : t.AtRest d := by
  have hdom := State.dom_of_doms hdoms d
  exact ⟨hdom ▸ h.phase, hdom ▸ h.recs, hdom ▸ h.arrivals, hdom ▸ h.unloading⟩

theorem State.AtRest.modDom (h : s.AtRest d) (f : Domain → Domain)
    (hf : ∀ x, x.phase = .idle → (f x).phase = .idle ∧ (f x).recs = x.recs ∧ (f x).arrivals = x.arrivals ∧
      (x.unloading = none → (f x).unloading = none)) : (s.modDom d f).AtRest d := by
  obtain ⟨hphase, hrecs, harrivals, hunloading⟩ := hf _ h.phase
  refine ⟨?_, ?_, ?_, ?_⟩ <;> rw [State.dom_modDom]
  · exact hphase
  · exact hrecs.trans h.recs
  · exact harrivals.trans h.arrivals
  · exact hunloading h.unloading

theorem State.freedBy_atRest (h : s.AtRest d) (node : Nat) : (s.freedBy d node).AtRest d := by
  unfold State.freedBy
  split
  · dsimp only
    split_ifs
    · exact h
    · refine State.AtRest.of_doms ?_ (State.progEnd_doms ..)
      refine h.modDom (fun x => { x with wait := none, phase := .idle, unloading := none, lost := false }) fun _ _ => ?_
      exact ⟨rfl, rfl, rfl, fun _ => rfl⟩
    · exact h.modDom _ fun _ hx => ⟨hx, rfl, rfl, id⟩
  · exact h

theorem State.freeProgram_atRest (h : s.AtRest d) (hdeputy : (s.dom d).isDeputy = false) : (s.freeProgram d).AtRest d := by
  unfold State.freeProgram
  extract_lets s1 s2 s3
  have h1 : s1.ks.doms = s.ks.doms := by
    change (((s.endTakes d fun _ => true).endFills d).dropTrackers .kresia fun t => t.domain = d).ks.doms = _
    rw [State.dropTrackers_doms, State.endFills_doms, State.endTakes_doms]
  have h2 : s2.AtRest d := by
    have hdom := State.dom_of_doms h1 d
    refine ⟨?_, ?_, ?_, ?_⟩ <;> (dsimp only [s2]; rw [State.dom_modDom, hdom])
    · rw [hdeputy]
      exact h.phase
    · exact h.recs
    · exact h.arrivals
    · exact h.unloading
  have h3 : s3.AtRest d := h2.of_doms State.pumpShardReads_doms
  split_ifs
  · exact State.freedBy_atRest h3 _
  · exact h3.of_doms rfl

theorem State.startFreeing_atRest (h : s.AtRest d) (hdeputy : (s.dom d).isDeputy = false) : (s.startFreeing d).AtRest d := by
  unfold State.startFreeing
  split_ifs
  · exact State.freeProgram_atRest h hdeputy
  · exact h.modDom _ fun _ hx => ⟨hx, rfl, rfl, id⟩

/-- R171: an unload that takes effect leaves its domain at rest. -/
theorem State.unloadNow_atRest {g : Image} {q : Nat × Nat} (hprog : (s.dom d).prog = some g)
    (hunloading : (s.dom d).unloading = some q) (hdeputy : (s.dom d).isDeputy = false) : (s.unloadNow d).AtRest d := by
  unfold State.unloadNow
  simp only [hprog, hunloading]
  apply State.startFreeing_atRest
  · refine ⟨?_, ?_, ?_, ?_⟩ <;>
    · refine (congrArg _ (State.dom_modDom (s.dropArms d 0x2016) d _)).trans ?_
      rfl
  · refine (congrArg Domain.isDeputy (State.dom_modDom (s.dropArms d 0x2016) d _)).trans ?_
    rw [State.dropArms_dom]
    exact hdeputy

/-- R171: an unload stops arming; with no step in flight it takes effect at once, otherwise after the tamp. -/
theorem exec_progUnload_run {g : Image} (hready : s.ready .kresia m k 0x0404 tk) (hcrown : (s.dom tk.domain).isCrown = true)
    (hprog : (s.dom tk.domain).prog = some g) (hnext : (s.dom tk.domain).next = none) :
    exec (.progUnload .kresia m k) s = .next (
      let s1 := (s.begun .kresia m k).modDom tk.domain fun y => { y with unloading := some (m, k), toArm := [] }
      if (s.dom tk.domain).phase = .held || !(s.dom tk.domain).everTamped then s1.unloadNow tk.domain
      else (s1.afterTamp tk.domain).tryBarrier tk.domain) := by
  rw [exec_atCrown rfl hready hcrown]
  simp only [Taken.domain_started, State.begun_dom, hprog, hnext] <;> rfl

/-! ### bell.change (R99, R105) -/

theorem State.armedUsed_begun : (s.begun .kresia m k).armedUsed = s.armedUsed := by
  simp only [State.armedUsed, State.begun_ks_doms, State.otNow, State.begun_time] <;> rfl

/-- R99: the record that a change of a bell asks for. -/
def changeRec (x : Domain) (g : Image) (m k : Nat) (t : Taken) : ArmRec :=
  let at' := leOt t.bytes 16
  let cancel : Bool := t.f 12 1 = 0
  { step := x.step, entry := t.f 8 4, slot := entRef g (t.f 8 4), seq := 0, due := at', adl := adlOf at' g
    period := if cancel then 0 else t.f 28 6, bells := if cancel then 0 else t.f 36 4
    change := some { mailbox := m, mslot := k, cancel := cancel, at' := at', period := t.f 28 6, count := t.f 36 4 } }

theorem exec_bellChange_run {g : Image} (hready : s.ready .kresia m k 0x0405 tk) (hcrown : (s.dom tk.domain).isCrown = true)
    (hprog : (s.dom tk.domain).prog = some g) (hwf : (leOt tk.bytes 16).malformed = false)
    (hgood : (s.begun .kresia m k).bellBad tk.domain tk = false) : exec (.bellChange .kresia m k) s =
      .next ((s.begun .kresia m k).armChange tk.domain g (changeRec (s.dom tk.domain) g m k tk)) := by
  rw [exec_atCrown rfl hready hcrown]
  have hgood' : (s.begun .kresia m k).bellBad tk.domain { tk with started := true } = false := hgood
  simp only [Taken.domain_started, Taken.f_started, State.begun_dom, hprog, hwf, hgood'] <;> rfl

/-- R99: the arm of a record takes the next SEQ, adds the record to its domain and leaves the mailboxes. -/
theorem State.sendArm_leaves (s : State) (d : Nat) (g : Image) (r : ArmRec) (bell : Bool) : ∃ q sent,
    (s.sendArm d g r bell).dom d = { s.dom d with
      seq := ((s.dom d).seq + 1) % 2 ^ 32, recs := (s.dom d).recs ++ [{ r with seq := q, sentAt := sent }] } ∧
    ((s.sendArm d g r bell).pc .kresia).fw = (s.pc .kresia).fw := by
  unfold State.sendArm
  extract_lets s1 x
  refine ⟨x.seq, s.raw .kresia, ?_, (State.broadcast_leaves ..).2.1.trans rfl⟩
  rw [State.dom_of_doms (State.broadcast_leaves ..).1, State.dom_modDom]
  dsimp only [s1, State.nextSeq]
  rw [State.dom_modDom]

/-- R99: with a record free a change is armed as a launch is. -/
theorem exec_bellChange_armed {g : Image} (hready : s.ready .kresia m k 0x0405 tk) (hcrown : (s.dom tk.domain).isCrown = true)
    (hprog : (s.dom tk.domain).prog = some g) (hwf : (leOt tk.bytes 16).malformed = false)
    (hgood : (s.begun .kresia m k).bellBad tk.domain tk = false) (hfree : s.armedUsed < 1024) :
    ∃ t q sent, exec (.bellChange .kresia m k) s = .next t ∧ (t.dom tk.domain).seq = ((s.dom tk.domain).seq + 1) % 2 ^ 32 ∧
      (t.dom tk.domain).recs =
        (s.dom tk.domain).recs ++ [{ changeRec (s.dom tk.domain) g m k tk with seq := q, sentAt := sent }] ∧
      (t.mslot .kresia m k).taken = some { tk with started := true } := by
  have hexec := exec_bellChange_run hready hcrown hprog hwf hgood
  rw [State.armChange, if_neg (by rw [State.armedUsed_begun]; exact Nat.not_le.2 hfree)] at hexec
  obtain ⟨q, sent, hdom, hfw⟩ := ((s.begun .kresia m k).modDom tk.domain fun x => { x with changeWait := none }).sendArm_leaves
    tk.domain g (changeRec (s.dom tk.domain) g m k tk) true
  rw [State.dom_modDom, State.begun_dom] at hdom
  exact ⟨_, q, sent, hexec, by rw [hdom], by rw [hdom], State.taken_of_fw hready hfw⟩

/-- R105: without a free record a change waits for one. -/
theorem exec_bellChange_waits {g : Image} (hready : s.ready .kresia m k 0x0405 tk) (hcrown : (s.dom tk.domain).isCrown = true)
    (hprog : (s.dom tk.domain).prog = some g) (hwf : (leOt tk.bytes 16).malformed = false)
    (hgood : (s.begun .kresia m k).bellBad tk.domain tk = false) (hfull : 1024 ≤ s.armedUsed) :
    ∃ t, exec (.bellChange .kresia m k) s = .next t ∧
      t.dom tk.domain = { s.dom tk.domain with changeWait := some (changeRec (s.dom tk.domain) g m k tk) } ∧
      (t.mslot .kresia m k).taken = some { tk with started := true } ∧ t.out = s.out := by
  have hexec := exec_bellChange_run hready hcrown hprog hwf hgood
  rw [State.armChange, if_pos (by rwa [State.armedUsed_begun])] at hexec
  refine ⟨_, hexec, ?_, State.taken_of_fw hready (State.count_fw ..), ?_⟩
  · rw [State.dom_of_doms (State.count_ks_doms ..), State.dom_modDom, State.begun_dom]
  · rw [State.count_out]
    exact State.begun_out ..

end

/-- Settles O58: each command on a program gives its first refusal, and a load, a cancellation, an unload or a change of a bell takes
effect as the rules say. -/
theorem programCommands : Obligations.ProgramCommands := by
  unfold Obligations.ProgramCommands
  refine ⟨?_, ?_, ?_, ?_, ?_, ?_, ?_, ?_, ?_, ?_, ?_, ?_, ?_, ?_, ?_, ?_, ?_, ?_⟩
  case refine_1 =>
    intro s m k tk f hready hcrown hksready
    rw [exec_atCrown rfl hready hcrown]
    simp only [Taken.domain_started, State.begun_ksReady, hksready]
    rfl
  case refine_2 =>
    intro s m k tk f hready hcrown hksready harea
    rw [exec_atCrown rfl hready hcrown]
    simp only [Taken.domain_started, Taken.f_started, State.begun_ksReady, hksready, State.begun_stageOf, harea]
    rfl
  case refine_3 =>
    intro s m k tk area f hready hcrown hksready harea
    rw [exec_atCrown rfl hready hcrown]
    simp only [Taken.domain_started, Taken.f_started, State.begun_ksReady, hksready, State.begun_stageOf, harea, State.begun_dom]
    rfl
  case refine_4 =>
    intro s m k tk f hready hcrown hksready
    rw [exec_atCrown rfl hready hcrown]
    simp only [Taken.domain_started, State.begun_ksReady, hksready]
    rfl
  case refine_5 =>
    intro s m k tk f hready hcrown hksready harea
    rw [exec_atCrown rfl hready hcrown]
    simp only [Taken.domain_started, Taken.f_started, State.begun_ksReady, hksready, State.begun_stageOf, harea]
    rfl
  case refine_6 =>
    intro s m k tk area f hready hcrown hksready harea hprog
    rw [exec_atCrown rfl hready hcrown]
    simp only [Taken.domain_started, Taken.f_started, State.begun_ksReady, hksready, State.begun_stageOf, harea, State.begun_dom, hprog]
    rfl
  case refine_7 => exact fun s m k tk area f old => exec_progReplace_image
  case refine_8 =>
    intro s m k tk hready hcrown hnext
    rw [exec_atCrown rfl hready hcrown]
    simp only [Taken.domain_started, State.begun_dom, hnext]
  case refine_9 => exact fun s m k tk g n => exec_progCancel_done
  case refine_10 =>
    intro s m k tk hready hcrown hprog
    rw [exec_atCrown rfl hready hcrown]
    simp only [Taken.domain_started, State.begun_dom, hprog]
    rfl
  case refine_11 =>
    intro s m k tk hready hcrown hprog hnext hphase htamped
    obtain ⟨g, hprog⟩ := Option.isSome_iff_exists.1 hprog
    refine (exec_progUnload_run hready hcrown hprog hnext).trans (congrArg Host.Outcome.next (if_neg ?_))
    rw [Bool.or_eq_true, decide_eq_true_eq, htamped, Bool.not_true, or_iff_left Bool.false_ne_true]
    exact hphase
  case refine_12 =>
    intro s m k tk hready hcrown hprog hnext hnow
    obtain ⟨g, hprog⟩ := Option.isSome_iff_exists.1 hprog
    refine (exec_progUnload_run hready hcrown hprog hnext).trans (congrArg Host.Outcome.next (if_pos ?_))
    rwa [Bool.or_eq_true, decide_eq_true_eq, Bool.not_eq_true']
  case refine_13 =>
    intro s m k tk g hready hcrown hprog hnext hphase hdeputy
    have hexec := exec_progUnload_run hready hcrown hprog hnext
    have hdom := State.dom_modDom (s.begun .kresia m k) tk.domain fun y => { y with unloading := some (m, k), toArm := [] }
    rw [State.begun_dom] at hdom
    have hrest := State.unloadNow_atRest (g := g) (q := (m, k)) ((congrArg Domain.prog hdom).trans hprog)
      (congrArg Domain.unloading hdom) ((congrArg Domain.isDeputy hdom).trans hdeputy)
    refine ⟨_, hexec.trans (congrArg Host.Outcome.next (if_pos ?_)), hrest.phase, hrest.recs, hrest.arrivals, hrest.unloading⟩
    rw [Bool.or_eq_true, decide_eq_true_eq]
    exact Or.inl hphase
  case refine_14 =>
    intro s m k tk hready hcrown hbad
    rw [exec_atCrown rfl hready hcrown]
    exact congrArg Host.Outcome.next (if_pos hbad)
  case refine_15 =>
    intro s m k tk hready hcrown hwf hbad
    rw [exec_atCrown rfl hready hcrown]
    exact congrArg Host.Outcome.next ((if_neg (Bool.eq_false_iff.1 hwf)).trans (if_pos hbad))
  case refine_16 =>
    intro s m k tk g hready hcrown hprog hwf hgood hfree hcancel
    obtain ⟨t, q, sent, hexec, hseq, hrecs, htaken⟩ := exec_bellChange_armed hready hcrown hprog hwf hgood hfree
    refine ⟨t, hexec, ?_, hseq, ?_, by rw [htaken]; rfl⟩
    · rw [hrecs, List.length_append, List.length_singleton]
    · rw [hrecs, List.getLast?_concat, Option.map_some, changeRec, hcancel]
      rfl
  case refine_17 =>
    intro s m k tk g hready hcrown hprog hwf hgood hfree hchange
    obtain ⟨t, q, sent, hexec, hseq, hrecs, htaken⟩ := exec_bellChange_armed hready hcrown hprog hwf hgood hfree
    refine ⟨t, hexec, ?_, hseq, ?_, by rw [htaken]; rfl⟩
    · rw [hrecs, List.length_append, List.length_singleton]
    · rw [hrecs, List.getLast?_concat, Option.map_some, changeRec, hchange]
      rfl
  case refine_18 =>
    intro s m k tk g hready hcrown hprog hwf hgood hfull
    obtain ⟨t, hexec, hdom, htaken, hout⟩ := exec_bellChange_waits hready hcrown hprog hwf hgood hfull
    exact ⟨t, hexec, by rw [hdom], by rw [hdom], by rw [hdom]; rfl, by rw [htaken]; rfl, hout⟩

end Sys2Proof.Machine

/-! The proof of O59: the commands on shards, scalars, homes, spares and checkpoints. -/

namespace Sys2Proof.Machine

section
variable {s : State} {m k d : Nat} {tk : Taken}

/-! ### What a command sees while it starts -/

theorem State.homeChunks_begun (x : Domain) (g : Image) (c step : Nat) :
    (s.begun .kresia m k).homeChunks x g c step = s.homeChunks x g c step := by
  rw [State.homeChunks, State.begun_ksId, State.homeChunks]

theorem State.shardRange_begun (t : Taken) : (s.begun .kresia m k).shardRange d t = s.shardRange d t := by
  simp only [State.shardRange, State.begun_dom, State.begun_ksId, State.homeChunks_begun]

theorem State.shard_begun (key : Nat) : (s.begun .kresia m k).shard key = s.shard key := by
  rw [State.shard, State.begun_ks_shards, State.shard]

theorem State.mapHolders_begun (x : Domain) : (s.begun .kresia m k).mapHolders x = s.mapHolders x := by
  rw [State.mapHolders, State.begun_ks_build, State.begun_ksId, State.mapHolders]

theorem State.endRange_elsewhere (h : Option Nat) :
    s.endRange m k (.elsewhere h) = s.wrongPart .kresia m k (h.map fun n => 2 ^ 20 + n) := by
  cases h <;> rfl

/-! ### shard.write and shard.read -/

/-- R251: whether a shard may be written, which the domain's crown knows and another home is told. -/
def Domain.still (x : Domain) (held : Bool) : Bool := x.progState = 2 || (if x.isCrown then decide (x.phase = .held) else held)

variable {held : Bool} {key stream w : Nat} {l ch : List Nat}

theorem exec_shardWrite_cells (hready : s.ready .kresia m k 0x0501 tk) (hrange : s.shardRange tk.domain tk = .cells key stream w l ch) :
    exec (.shardWrite .kresia m k held) s = .next (
      if !(s.dom tk.domain).still held then (s.begun .kresia m k).complete .kresia m k 0x5003
      else match s.stageOf m (tk.f 20 4) with
      | none => (s.begun .kresia m k).complete .kresia m k 0xA109
      | some bs =>
        if bs.length < w * l.length then (s.begun .kresia m k).complete .kresia m k 0xA10A
        else
          let s1 := (s.begun .kresia m k).modShard key fun h =>
            (l.zip ((List.range l.length).map fun i => le bs (w * i) w)).foldl (fun (h : Shard) (q : Nat × Nat) => h.putAt stream q.1 q.2) h
          (if decide (tk.f 10 1 % 2 = 1) && (s.dom tk.domain).prog.any (fun g => rMirrored g (tk.f 8 2)) then
            s1.mirrorRegion tk.domain (tk.f 8 2) l else s1).complete .kresia m k 0) := by
  have hrange' : (s.begun .kresia m k).shardRange tk.domain { tk with started := true } = .cells key stream w l ch :=
    (State.shardRange_begun _).trans hrange
  simp only [exec, execShardWrite, State.serve_ready _ _ _ _ _ _ _ hready, Taken.domain_started, hrange', State.begun_dom,
    State.begun_stageOf, Taken.f_started] <;> rfl

/-- R251: the cells of a range are written from the stage area, and nothing else of the domain or the stage changes. -/
theorem exec_shardWrite_done {bs : List Byte} (hready : s.ready .kresia m k 0x0501 tk)
    (hrange : s.shardRange tk.domain tk = .cells key stream w l ch) (hstill : (s.dom tk.domain).still held = true)
    (harea : s.stageOf m (tk.f 20 4) = some bs) (hlong : w * l.length ≤ bs.length)
    (hplain : (decide (tk.f 10 1 % 2 = 1) && (s.dom tk.domain).prog.any fun g => rMirrored g (tk.f 8 2)) = false) :
    ∃ t, exec (.shardWrite .kresia m k held) s = .next t ∧ t.answered .kresia m k tk 0 [] ∧
      t.shard key = (l.zip ((List.range l.length).map fun i => le bs (w * i) w)).foldl
        (fun (h : Shard) (q : Nat × Nat) => h.putAt stream q.1 q.2) (s.shard key) ∧
      t.ks.c.fw.stages = s.ks.c.fw.stages ∧ t.dom tk.domain = s.dom tk.domain := by
  have hexec := exec_shardWrite_cells (held := held) hready hrange
  simp only [hstill, harea, if_neg (Nat.not_lt.2 hlong), hplain, Bool.not_true, Bool.false_eq_true, if_false] at hexec
  refine ⟨_, hexec, State.answered_of_started (State.taken_of_fw hready rfl), ?_, ?_, ?_⟩
  · rw [State.shard, State.complete_ks_shards]
    exact (State.shard_modShard (s.begun .kresia m k) key _).trans (by rw [State.shard_begun])
  · rw [State.stages_complete]
    exact State.begun_stages s .kresia m k .kresia
  · rw [State.dom_complete]
    exact State.begun_dom ..

theorem exec_shardRead_cells (hready : s.ready .kresia m k 0x0502 tk) (hrange : s.shardRange tk.domain tk = .cells key stream w l []) :
    exec (.shardRead .kresia m k) s = .next (
      let q := (s.begun .kresia m k).toStage m (tk.f 20 4) (l.flatMap fun q =>
        leBytes w (FMap.getD (FMap.getD (s.shard key).streams stream []) q 0))
      q.1.complete .kresia m k (q.2.getD 0)) := by
  have hrange' : (s.begun .kresia m k).shardRange tk.domain { tk with started := true } = .cells key stream w l [] :=
    (State.shardRange_begun _).trans hrange
  simp only [exec, execShardRead, State.serve_ready _ _ _ _ _ _ _ hready, State.shardRead, Taken.domain_started, hrange',
    Taken.f_started, State.shard_begun]
  rfl

theorem exec_shardWrite_bad {c : Code} (hready : s.ready .kresia m k 0x0501 tk) (hrange : s.shardRange tk.domain tk = .bad c) :
    exec (.shardWrite .kresia m k held) s = .next ((s.begun .kresia m k).complete .kresia m k c) := by
  have hrange' : (s.begun .kresia m k).shardRange tk.domain { tk with started := true } = .bad c := (State.shardRange_begun _).trans hrange
  simp only [exec, execShardWrite, State.serve_ready _ _ _ _ _ _ _ hready, Taken.domain_started, hrange', State.endRange]

theorem exec_shardWrite_elsewhere {h : Option Nat} (hready : s.ready .kresia m k 0x0501 tk)
    (hrange : s.shardRange tk.domain tk = .elsewhere h) : exec (.shardWrite .kresia m k held) s =
      .next ((s.begun .kresia m k).wrongPart .kresia m k (h.map fun n => 2 ^ 20 + n)) := by
  have hrange' : (s.begun .kresia m k).shardRange tk.domain { tk with started := true } = .elsewhere h :=
    (State.shardRange_begun _).trans hrange
  simp only [exec, execShardWrite, State.serve_ready _ _ _ _ _ _ _ hready, Taken.domain_started, hrange', State.endRange_elsewhere]

theorem exec_shardRead_bad {c : Code} (hready : s.ready .kresia m k 0x0502 tk) (hrange : s.shardRange tk.domain tk = .bad c) :
    exec (.shardRead .kresia m k) s = .next ((s.begun .kresia m k).complete .kresia m k c) := by
  have hrange' : (s.begun .kresia m k).shardRange tk.domain { tk with started := true } = .bad c := (State.shardRange_begun _).trans hrange
  simp only [exec, execShardRead, State.serve_ready _ _ _ _ _ _ _ hready, State.shardRead, Taken.domain_started, hrange', State.endRange]

theorem exec_shardRead_elsewhere {h : Option Nat} (hready : s.ready .kresia m k 0x0502 tk)
    (hrange : s.shardRange tk.domain tk = .elsewhere h) : exec (.shardRead .kresia m k) s =
      .next ((s.begun .kresia m k).wrongPart .kresia m k (h.map fun n => 2 ^ 20 + n)) := by
  have hrange' : (s.begun .kresia m k).shardRange tk.domain { tk with started := true } = .elsewhere h :=
    (State.shardRange_begun _).trans hrange
  simp only [exec, execShardRead, State.serve_ready _ _ _ _ _ _ _ hready, State.shardRead, Taken.domain_started, hrange',
    State.endRange_elsewhere]

theorem State.stageOf_stageWrite {id : Nat} {area : List Byte} (h : s.stageOf m id = some area) (off : Nat) (bs : List Byte) :
    (s.stageWrite id off bs).stageOf m id = some (area.take off ++ bs ++ area.drop (off + bs.length)) := by
  obtain ⟨x, hfind, hmailbox, rfl⟩ := State.stageOf_eq_some h
  rw [State.stageOf, State.stageWrite_stages, FMap.update, FMap.find_set_self, FMap.getD, hfind]
  exact if_pos hmailbox

/-- R251: the cells of a range are read into the stage area. -/
theorem exec_shardRead_done {bs : List Byte} (hready : s.ready .kresia m k 0x0502 tk)
    (hrange : s.shardRange tk.domain tk = .cells key stream w l []) (harea : s.stageOf m (tk.f 20 4) = some bs) {cells : List Byte}
    (hcells : cells = l.flatMap fun q => leBytes w (FMap.getD (FMap.getD (s.shard key).streams stream []) q 0))
    (hroom : cells.length ≤ bs.length) :
    ∃ t, exec (.shardRead .kresia m k) s = .next t ∧ t.answered .kresia m k tk 0 [] ∧
      (t.stageOf m (tk.f 20 4)).map (·.take cells.length) = some cells ∧ t.ks.shards = s.ks.shards := by
  have hbegun : (s.begun .kresia m k).stageOf m (tk.f 20 4) = some bs := (State.begun_stageOf ..).trans harea
  have hstage : (s.begun .kresia m k).toStage m (tk.f 20 4) cells = ((s.begun .kresia m k).stageWrite (tk.f 20 4) 0 cells, none) := by
    simp only [State.toStage, hbegun, if_neg (Nat.not_lt.2 hroom)]
  have hexec := exec_shardRead_cells hready hrange
  rw [← hcells, hstage] at hexec
  refine ⟨_, hexec, State.answered_of_started (State.begun_taken s .kresia m k 0x0502 tk hready), ?_, ?_⟩
  · rw [State.stageOf_complete, State.stageOf_stageWrite hbegun, Option.map_some, List.take_zero, List.nil_append,
      List.take_left']
    rfl
  · rw [State.complete_ks_shards]
    exact State.begun_ks_shards ..

/-! ### scalar.set (R230) -/

theorem exec_scalarSet_here (hready : s.ready .kresia m k 0x0503 tk) (hcrown : (s.dom tk.domain).isCrown = true)
    (hcode : (s.dom tk.domain).scalarCode (tk.f 8 2) (tk.f 10 1) (tk.f 16 6) = none)
    (hdest : (s.mapHolders (s.dom tk.domain)).filter (· ≠ s.ksId) = []) :
    ∃ t, exec (.scalarSet .kresia m k) s = .next t ∧ t.answered .kresia m k tk 0 [] ∧
      (t.dom tk.domain).scalars = (s.dom tk.domain).scalars ++ [⟨tk.f 8 2, tk.f 10 1, BitVec.ofNat 32 (tk.f 12 4), tk.f 16 6⟩] ∧
      (t.dom tk.domain).scalarWaits = (s.dom tk.domain).scalarWaits := by
  have hexec : exec (.scalarSet .kresia m k) s = .next (((s.begun .kresia m k).modDom tk.domain fun y =>
      { y with scalars := y.scalars ++ [⟨tk.f 8 2, tk.f 10 1, BitVec.ofNat 32 (tk.f 12 4), tk.f 16 6⟩] }).complete .kresia m k 0) := by
    rw [exec_atCrown rfl hready hcrown]
    simp only [Taken.domain_started, Taken.f_started, State.begun_dom, hcode, State.mapHolders_begun, State.begun_ksId, hdest]
    rfl
  have hdom := State.dom_modDom (s.begun .kresia m k) tk.domain fun y =>
      { y with scalars := y.scalars ++ [⟨tk.f 8 2, tk.f 10 1, BitVec.ofNat 32 (tk.f 12 4), tk.f 16 6⟩] }
  rw [State.begun_dom] at hdom
  exact ⟨_, hexec, State.answered_of_started (State.taken_of_fw hready rfl), by rw [State.dom_complete, hdom],
    by rw [State.dom_complete, hdom]⟩

theorem exec_scalarSet_waits (hready : s.ready .kresia m k 0x0503 tk) (hcrown : (s.dom tk.domain).isCrown = true)
    (hcode : (s.dom tk.domain).scalarCode (tk.f 8 2) (tk.f 10 1) (tk.f 16 6) = none) {dest : List Nat}
    (heq : dest = (s.mapHolders (s.dom tk.domain)).filter (· ≠ s.ksId)) (hdest : dest ≠ []) {v : HostScalar}
    (hv : v = ⟨tk.f 8 2, tk.f 10 1, BitVec.ofNat 32 (tk.f 12 4), tk.f 16 6⟩) :
    ∃ t, exec (.scalarSet .kresia m k) s = .next t ∧ (t.dom tk.domain).scalars = (s.dom tk.domain).scalars ++ [v] ∧
      (t.dom tk.domain).scalarWaits = (s.dom tk.domain).scalarWaits ++ [⟨m, k, v, dest.map (2 ^ 20 + ·)⟩] ∧
      (t.mslot .kresia m k).taken = some { tk with started := true } := by
  subst hv
  generalize hv : (⟨tk.f 8 2, tk.f 10 1, BitVec.ofNat 32 (tk.f 12 4), tk.f 16 6⟩ : HostScalar) = v
  have hexec : exec (.scalarSet .kresia m k) s = .next ((((s.begun .kresia m k).modDom tk.domain fun y =>
      { y with scalars := y.scalars ++ [v] }).modDom tk.domain fun y =>
      { y with scalarWaits := y.scalarWaits ++ [⟨m, k, v, dest.map (2 ^ 20 + ·)⟩] }).emit
        (.send .kresia (.kresias dest) (.scalar ⟨tk.domain, v.set, v.scalar, v.value, v.fromStep⟩))) := by
    rw [exec_atCrown rfl hready hcrown]
    simp only [Taken.domain_started, Taken.f_started, State.begun_dom, hcode, State.mapHolders_begun, State.begun_ksId, ← heq,
      List.isEmpty_eq_false_iff.2 hdest]
    subst hv
    rfl
  have hdom : ((((s.begun .kresia m k).modDom tk.domain fun y => { y with scalars := y.scalars ++ [v] }).modDom tk.domain fun y =>
      { y with scalarWaits := y.scalarWaits ++ [⟨m, k, v, dest.map (2 ^ 20 + ·)⟩] }).dom tk.domain) =
      { s.dom tk.domain with
        scalars := (s.dom tk.domain).scalars ++ [v]
        scalarWaits := (s.dom tk.domain).scalarWaits ++ [⟨m, k, v, dest.map (2 ^ 20 + ·)⟩] } := by
    rw [State.dom_modDom, State.dom_modDom, State.begun_dom]
  exact ⟨_, hexec, congrArg Domain.scalars hdom, congrArg Domain.scalarWaits hdom, State.taken_of_fw hready rfl⟩

/-! ### mirror.retarget (R324) -/

/-- A transfer that starts leaves the shards and the mailboxes. -/
theorem State.startJob_leaves (s : State) (j : SendJob) :
    (s.startJob j).ks.shards = s.ks.shards ∧ ((s.startJob j).pc .kresia).fw = (s.pc .kresia).fw := by
  have hroute (u : State) (r : RsigSend) (v2 : Bool) : (u.sendByRoute r v2).ks = u.ks := by
    unfold State.sendByRoute
    dsimp only
    split_ifs <;> exact State.foldl_emit_ks _ _ u
  unfold State.startJob
  split_ifs
  · unfold State.launchJob
    extract_lets j' t x v2 s1 s2
    have hks := hroute s2 (j'.sent x.epoch t) v2
    have h2 : s2.ks.shards = s.ks.shards ∧ (s2.pc .kresia).fw = (s.pc .kresia).fw := by
      dsimp only [s2]
      split_ifs
      · exact ⟨State.count_ks_shards .., State.count_fw ..⟩
      · exact ⟨State.count_ks_shards .., State.count_fw ..⟩
      · exact ⟨State.count_ks_shards .., State.count_fw ..⟩
      · exact ⟨rfl, rfl⟩
    exact ⟨(congrArg Kresia.shards hks).trans h2.1, (congrArg (fun z : Kresia => z.c.fw) hks).trans h2.2⟩
  · exact ⟨rfl, rfl⟩

theorem State.pumpFill_leaves (s : State) (d c : Nat) :
    (s.pumpFill d c).ks.shards = s.ks.shards ∧ ((s.pumpFill d c).pc .kresia).fw = (s.pc .kresia).fw := by
  unfold State.pumpFill
  dsimp only
  split
  · split_ifs
    · exact ⟨rfl, rfl⟩
    · refine List.foldlRecOn (motive := fun u : State => u.ks.shards = s.ks.shards ∧ (u.pc .kresia).fw = (s.pc .kresia).fw)
        _ _ ⟨rfl, rfl⟩ fun u hu q _ => ?_
      obtain ⟨hshards, hfw⟩ := u.startJob_leaves _
      exact ⟨hshards.trans hu.1, hfw.trans hu.2⟩
  · exact ⟨rfl, rfl⟩

/-- R324: the chunks of a collective that are homed here. -/
def State.homedChunks (s : State) (d : Nat) (g : Image) (c : Nat) : List Nat :=
  s.homeChunks (s.dom d) g c ((s.dom d).homeStep g)

theorem State.homedChunks_begun (g : Image) (c : Nat) : (s.begun .kresia m k).homedChunks d g c = s.homedChunks d g c := by
  rw [State.homedChunks, State.homeChunks_begun, State.begun_dom, State.homedChunks]

/-- R324: a collective whose chunks go to a new target begins its copy. -/
def State.fillTo (s : State) (d dest c : Nat) (l : List Nat) : State :=
  (s.modShard (shardKey d c false false) fun h =>
    { h with fillTarget := some dest, fillLeft := l, fillAcked := [], fillDone := [] }).pumpFill d c

theorem State.fillTo_fw (dest c : Nat) (l : List Nat) : ((s.fillTo d dest c l).pc .kresia).fw = (s.pc .kresia).fw :=
  (State.pumpFill_leaves _ d c).2.trans rfl

theorem State.fillTo_target (dest c : Nat) (l : List Nat) :
    ((s.fillTo d dest c l).shard (shardKey d c false false)).fillTarget = some dest := by
  rw [State.fillTo, State.shard, (State.pumpFill_leaves _ d c).1]
  exact congrArg Shard.fillTarget (State.shard_modShard s (shardKey d c false false) _)

/-- R324: what `mirror.retarget` copies: of one collective, or of all, those that have a chunk homed here. -/
def State.retargeted (s : State) (d : Nat) (g : Image) (r : Nat) : List Nat :=
  (List.range (collCount g)).filter fun c => (r = 0xFFFF || r = c) && !(if cBlocked g c then s.homedChunks d g c else []).isEmpty

/-- R324: a re-target names a collective, which must have chunks here, and a Kresia that can take them. -/
theorem exec_mirrorRetarget_run {room service : Bool} {g : Image} (hready : s.ready .kresia m k 0x0904 tk)
    (hprog : (s.dom tk.domain).prog = some g) (hknown : tk.f 8 2 = 0xFFFF ∨ tk.f 8 2 < collCount g)
    (hsome : s.retargeted tk.domain g (tk.f 8 2) ≠ []) : exec (.mirrorRetarget .kresia m k room service) s = .next (
      if tk.f 12 3 / 2 ^ 17 ≠ 8 || ksPlane (tk.f 12 3 % 2 ^ 17) % 2 = ksPlane s.ksId % 2 || !room || !service ||
          s.isFenced (2 ^ 20 + tk.f 12 3 % 2 ^ 17) then (s.begun .kresia m k).complete .kresia m k 0x9008
      else ((s.retargeted tk.domain g (tk.f 8 2)).foldl (fun (z : State) (c : Nat) =>
        z.fillTo tk.domain (tk.f 12 3 % 2 ^ 17) c (s.homedChunks tk.domain g c)) (s.begun .kresia m k)).complete .kresia m k 0) := by
  simp only [exec, execMirrorRetarget, State.serve_ready _ _ _ _ _ _ _ hready, Taken.domain_started, Taken.f_started,
    State.begun_dom, hprog, State.begun_ksId, State.begun_isFenced, State.homeChunks_begun]
  have hin : ¬ (decide (tk.f 8 2 ≠ 0xFFFF) && decide (collCount g ≤ tk.f 8 2)) = true := by
    rw [Bool.and_eq_true, decide_eq_true_eq, decide_eq_true_eq]
    omega
  refine congrArg Host.Outcome.next ((if_neg hin).trans ((if_neg fun h => hsome (List.isEmpty_iff.1 h)).trans
    (if_congr Iff.rfl rfl (congrArg (fun z : State => z.complete .kresia m k 0) (List.foldl_ext _ _ _ fun z c hc => ?_)))))
  have hblocked : cBlocked g c = true := by
    by_contra hnot
    rw [List.mem_filter, if_neg hnot] at hc
    simp at hc
  rw [if_pos hblocked]
  rfl

theorem State.retargeted_of_one {g : Image} {r : Nat} (hknown : r < collCount g) (hblocked : cBlocked g r = true)
    (hchunks : s.homedChunks d g r ≠ []) : s.retargeted d g r ≠ [] := by
  refine List.ne_nil_of_mem (a := r) (List.mem_filter.2 ⟨List.mem_range.2 hknown, ?_⟩)
  rw [if_pos hblocked, List.isEmpty_eq_false_iff.2 hchunks, decide_eq_true (rfl : r = r), Bool.or_true]
  rfl

theorem State.mem_retargeted {g : Image} {r c : Nat} (hone : r ≠ 0xFFFF) (hc : c ∈ s.retargeted d g r) : c = r := by
  have hpick := (List.mem_filter.1 hc).2
  rw [Bool.and_eq_true, Bool.or_eq_true, decide_eq_true_eq, decide_eq_true_eq] at hpick
  exact (hpick.1.resolve_left hone).symm

/-- R324: a re-target of all collectives copies those blocked that have a chunk homed here. -/
theorem State.retargeted_of_all (s : State) (d : Nat) (g : Image) : s.retargeted d g 0xFFFF =
    (List.range (collCount g)).filter fun c => cBlocked g c && !(s.homedChunks d g c).isEmpty := by
  refine List.filter_congr fun c _ => ?_
  cases h : cBlocked g c <;> rfl

/-- R324: the copies of several collectives leave the mailboxes, and the last one's target is set. -/
theorem State.foldl_fillTo (l : Nat → List Nat) (dest : Nat) (cs : List Nat) (s : State) :
    ((cs.foldl (fun (z : State) (c : Nat) => z.fillTo d dest c (l c)) s).pc .kresia).fw = (s.pc .kresia).fw :=
  List.foldlRecOn (motive := fun u : State => (u.pc .kresia).fw = (s.pc .kresia).fw) _ _ rfl fun _ hu c _ =>
    (State.fillTo_fw dest c (l c)).trans hu

theorem State.foldl_fillTo_target (l : Nat → List Nat) (dest r : Nat) {cs : List Nat} (hsome : cs ≠ []) (hone : ∀ c ∈ cs, c = r)
    (s : State) : ((cs.foldl (fun (z : State) (c : Nat) => z.fillTo d dest c (l c)) s).shard
      (shardKey d r false false)).fillTarget = some dest := by
  obtain ⟨front, last, rfl⟩ := List.eq_nil_or_concat cs |>.resolve_left hsome
  have hlast : last = r := hone last (by simp)
  rw [List.concat_eq_append, List.foldl_append, List.foldl_cons, List.foldl_nil, hlast]
  exact State.fillTo_target ..

/-- R324: a re-target whose target is in service, has room, is not fenced and is in the other power zone is accepted. -/
theorem exec_mirrorRetarget_accepted {g : Image} (hready : s.ready .kresia m k 0x0904 tk)
    (hprog : (s.dom tk.domain).prog = some g) (hknown : tk.f 8 2 = 0xFFFF ∨ tk.f 8 2 < collCount g)
    (hsome : s.retargeted tk.domain g (tk.f 8 2) ≠ []) (hhall : tk.f 12 3 / 2 ^ 17 = 8)
    (hzone : ksPlane (tk.f 12 3 % 2 ^ 17) % 2 ≠ ksPlane s.ksId % 2) (hfenced : s.isFenced (2 ^ 20 + tk.f 12 3 % 2 ^ 17) = false) :
    exec (.mirrorRetarget .kresia m k true true) s = .next (((s.retargeted tk.domain g (tk.f 8 2)).foldl
      (fun (z : State) (c : Nat) => z.fillTo tk.domain (tk.f 12 3 % 2 ^ 17) c (s.homedChunks tk.domain g c))
      (s.begun .kresia m k)).complete .kresia m k 0) := by
  refine (exec_mirrorRetarget_run hready hprog hknown hsome).trans (congrArg Host.Outcome.next (if_neg ?_))
  rw [hfenced, decide_eq_false (not_not.2 hhall), decide_eq_false hzone]
  exact Bool.false_ne_true

theorem exec_mirrorRetarget_one {g : Image} (hready : s.ready .kresia m k 0x0904 tk)
    (hprog : (s.dom tk.domain).prog = some g) (hknown : tk.f 8 2 < collCount g) (hone : tk.f 8 2 ≠ 0xFFFF)
    (hblocked : cBlocked g (tk.f 8 2) = true) (hchunks : s.homedChunks tk.domain g (tk.f 8 2) ≠ []) (hhall : tk.f 12 3 / 2 ^ 17 = 8)
    (hzone : ksPlane (tk.f 12 3 % 2 ^ 17) % 2 ≠ ksPlane s.ksId % 2) (hfenced : s.isFenced (2 ^ 20 + tk.f 12 3 % 2 ^ 17) = false) :
    ∃ t, exec (.mirrorRetarget .kresia m k true true) s = .next t ∧ t.answered .kresia m k tk 0 [] ∧
      (t.shard (shardKey tk.domain (tk.f 8 2) false false)).fillTarget = some (tk.f 12 3 % 2 ^ 17) := by
  have hsome := State.retargeted_of_one hknown hblocked hchunks
  refine ⟨_, exec_mirrorRetarget_accepted hready hprog (Or.inr hknown) hsome hhall hzone hfenced,
    State.answered_of_started (State.taken_of_fw hready (State.foldl_fillTo ..)), ?_⟩
  rw [State.shard, State.complete_ks_shards]
  exact State.foldl_fillTo_target _ _ _ hsome (fun c hc => State.mem_retargeted hone hc) _

/-! ### home.move (R331) -/

theorem State.ksMove_leaves (hchunks : s.ks.chunks = []) (x : HomeMove) : ((s.ksMove x).pc .kresia).fw = (s.pc .kresia).fw ∧
    (s.ksMove x).dom x.domain =
      { s.dom x.domain with moves := (s.dom x.domain).moves ++ [⟨x.kind, x.record, x.element, x.home, x.step.getD 0⟩] } := by
  unfold State.ksMove
  extract_lets d mv s1
  have hdom : s1.dom d = { s.dom d with moves := (s.dom d).moves ++ [mv] } :=
    State.dom_modDom s d fun y => { y with moves := y.moves ++ [mv] }
  have hs1 : s1.ks.chunks = [] := hchunks
  rw [hs1]
  split_ifs
  · exact ⟨rfl, hdom⟩
  · exact ⟨rfl, hdom⟩
  · exact ⟨rfl, hdom⟩

theorem State.spreadMoves_one (s : State) (d : Nat) (x : HomeMove) :
    ∃ a b, s.spreadMoves d [x] = ((s.emit a).emit b).ksMove x := ⟨_, _, rfl⟩

/-- R331: the move that a command names. -/
def moveOf (t : Taken) : HomeMove := ⟨t.domain, t.f 8 1, t.f 10 2, t.f 12 4, t.f 16 3 % 2 ^ 17, some (t.f 20 6)⟩

/-- R331: a move of a home spread by the crown, which takes it like every Kresia of the domain. -/
theorem exec_homeMove_done {g : Image} (hready : s.ready .kresia m k 0x0905 tk) (hcrown : (s.dom tk.domain).isCrown = true)
    (hprog : (s.dom tk.domain).prog = some g) (hkind : tk.f 8 1 ≤ 2) (hin : tk.f 12 4 < homeElems g (tk.f 8 1) (tk.f 10 2))
    (hstep : (s.dom tk.domain).step + 2 ≤ tk.f 20 6)
    (hfree : ((s.dom tk.domain).moves.any fun q =>
      q.kind = tk.f 8 1 && q.record = tk.f 10 2 && q.element = tk.f 12 4 && (s.dom tk.domain).step < q.step) = false)
    (hchunks : s.ks.chunks = []) :
    ∃ t, exec (.homeMove .kresia m k true) s = .next t ∧ t.answered .kresia m k tk 0 [] ∧
      (t.dom tk.domain).moves =
        (s.dom tk.domain).moves ++ [⟨tk.f 8 1, tk.f 10 2, tk.f 12 4, tk.f 16 3 % 2 ^ 17, tk.f 20 6⟩] := by
  have hexec : exec (.homeMove .kresia m k true) s = .next (((s.begun .kresia m k).spreadMoves tk.domain
      [(moveOf tk)]).complete .kresia m k 0) := by
    rw [exec_atCrown rfl hready hcrown]
    simp only [Taken.domain_started, Taken.f_started, State.begun_dom, hprog]
    have hfits : ¬ (decide (2 < tk.f 8 1) || decide (homeElems g (tk.f 8 1) (tk.f 10 2) ≤ tk.f 12 4)) = true := by
      rw [Bool.or_eq_true, decide_eq_true_eq, decide_eq_true_eq]
      omega
    have hlate : ¬ (decide (tk.f 20 6 < (s.dom tk.domain).step + 2) || !(true || decide (tk.f 8 1 = 1)) ||
        (s.dom tk.domain).moves.any fun q =>
          q.kind = tk.f 8 1 && q.record = tk.f 10 2 && q.element = tk.f 12 4 && (s.dom tk.domain).step < q.step) = true := by
      rw [hfree, decide_eq_false (by omega)]
      exact Bool.false_ne_true
    exact congrArg Host.Outcome.next ((if_neg hfits).trans (if_neg hlate))
  obtain ⟨a, b, hspread⟩ := (s.begun .kresia m k).spreadMoves_one tk.domain (moveOf tk)
  rw [hspread] at hexec
  obtain ⟨hfw, hdom⟩ := State.ksMove_leaves (s := ((s.begun .kresia m k).emit a).emit b)
    ((State.begun_ks_chunks s .kresia m k).trans hchunks) (moveOf tk)
  refine ⟨_, hexec, State.answered_of_started (State.taken_of_fw hready hfw), ?_⟩
  have hbegun : (((s.begun .kresia m k).emit a).emit b).dom tk.domain = s.dom tk.domain := State.begun_dom s .kresia m k tk.domain
  rw [State.dom_complete]
  refine (congrArg Domain.moves hdom).trans ?_
  exact congrArg (fun x : Domain => x.moves ++ [⟨tk.f 8 1, tk.f 10 2, tk.f 12 4, tk.f 16 3 % 2 ^ 17, tk.f 20 6⟩]) hbegun

/-! ### spare.fill (R329) -/

theorem State.fillOutputs_nil {g : Image} {q id i lobj : Nat} (h : collCount g = 0) : s.fillOutputs d g q id i lobj = [] := by
  rw [State.fillOutputs, h]
  rfl

theorem State.fillParts_nil {g : Image} {q id i lobj : Nat} (h : (sec g 9).count = 0) : s.fillParts d g q id i lobj = [] := by
  rw [State.fillParts, h]
  rfl

/-- R329: whether a domain is held, which its crown knows and another home is told. -/
def Domain.heldAt (x : Domain) (held : Bool) : Bool := if x.isCrown then decide (x.phase = .held) else held

/-- R329: the positions a spare.fill names: one, or all those bound and not vacant. -/
def Domain.filled (x : Domain) (i : Nat) : List Nat :=
  if i = 0xFFFFF then (List.range x.positions.length).filter fun q => (x.pos q).bound && !(x.pos q).vacant else [i]

/-- R329: whether a spare.fill is refused: the domain is not held, or the position named is not bound or still vacant. -/
def Domain.fillRefused (x : Domain) (held : Bool) (i : Nat) : Bool :=
  !x.heldAt held || (i ≠ 0xFFFFF && !(i < x.positions.length && (x.pos i).bound && !(x.pos i).vacant))

theorem Domain.fillRefused_iff {x : Domain} {i : Nat} : x.fillRefused held i = true ↔ x.heldAt held = false ∨
    (i ≠ 0xFFFFF ∧ ¬ (i < x.positions.length ∧ (x.pos i).bound = true ∧ (x.pos i).vacant = false)) := by
  rw [Domain.fillRefused, Bool.or_eq_true, Bool.not_eq_true', Bool.and_eq_true, decide_eq_true_eq, Bool.not_eq_true', ← Bool.not_eq_true,
    ← Bool.not_eq_true, Bool.and_eq_true, Bool.and_eq_true, decide_eq_true_eq, Bool.not_eq_true', and_assoc]

/-- R329: what a spare.fill sends: the outputs and parts that the homes here hold for the positions it names. -/
def State.fillJobs (s : State) (d : Nat) (g : Image) (m k : Nat) (t : Taken) : List SendJob :=
  ((s.dom d).filled (t.f 8 4)).flatMap fun q => s.fillOutputs d g q (fillId m k) (t.f 8 4) (t.f 12 2) ++
    s.fillParts d g q (fillId m k) (t.f 8 4) (t.f 12 2)

/-- R329: a spare.fill that is not refused starts its transfers, or completes where there is nothing to send. -/
theorem exec_spareFill_run {g : Image} (hready : s.ready .kresia m k 0x0907 tk) (hprog : (s.dom tk.domain).prog = some g)
    {js : List SendJob} (hjs : (s.begun .kresia m k).fillJobs tk.domain g m k tk = js) :
    exec (.spareFill .kresia m k held) s = .next (
      if (s.dom tk.domain).fillRefused held (tk.f 8 4) then (s.begun .kresia m k).complete .kresia m k 0x900A
      else if js.isEmpty then (s.begun .kresia m k).complete .kresia m k 0 (leBytes 4 0)
      else js.foldl (fun (s : State) (j : SendJob) => s.startJob j) ((s.begun .kresia m k).modKs fun z =>
        { z with fills := z.fills ++
          [{ domain := tk.domain, position := tk.f 8 4, left := js.length, mailbox := m, mslot := k, count := js.length }] })) := by
  subst hjs
  rw [State.fillJobs, State.begun_dom]
  simp only [exec, execSpareFill, State.serve_ready _ _ _ _ _ _ _ hready, Taken.domain_started, Taken.f_started, State.begun_dom, hprog]
  rfl

/-! ### ckpt.credit (R327) -/

theorem State.tenantOf_begun (e : Nat) : (s.begun .baxel m k).tenantOf e = s.tenantOf e := by
  simp only [State.tenantOf, State.begun_ten]

theorem State.handSlot_first {tn c e n slot : Nat} {rest : List (Nat × Nat × Nat)}
    (hstreams : streamsTo (s.ten tn).prog (s.ten tn).position = (c, e, n) :: rest) (hn : 1 ≤ n) (hgiven : (s.ten tn).ckptGiven = []) :
    ∃ node, s.handSlot tn d slot = (s.modTen tn fun y => { y with ckptGiven := [(c * 2 ^ 16 + e, 1)] }).emit
      (.send .baxel (.node node) (.ckptGrant ⟨d, (s.ten tn).position, slot⟩)) := by
  have hfirst : ((c, e, n) :: rest).find? (fun q : Nat × Nat × Nat => FMap.getD ([] : FMap Nat) (q.1 * 2 ^ 16 + q.2.1) 0 < q.2.2) =
      some (c, e, n) := List.find?_cons_of_pos (decide_eq_true hn)
  simp only [State.handSlot, hstreams, hgiven, ite_self, hfirst]
  exact ⟨_, rfl⟩

theorem exec_ckptCredit_one {tn c e n : Nat} {rest : List (Nat × Nat × Nat)} (hready : s.ready .baxel m k 0x090C tk)
    (htenant : s.tenantOf tk.domain = some tn) (hstreams : streamsTo (s.ten tn).prog (s.ten tn).position = (c, e, n) :: rest)
    (hn : 1 ≤ n) (hgiven : (s.ten tn).ckptGiven = []) (hcount : tk.f 12 4 = 1) :
    ∃ t, exec (.ckptCredit .baxel m k) s = .next t ∧ t.answered .baxel m k tk 0 [] ∧
      (t.ten tn).ckptGiven = [(c * 2 ^ 16 + e, 1)] ∧
      (∃ node, .send .baxel (.node node) (.ckptGrant ⟨tk.domain, (s.ten tn).position, tk.f 8 4⟩) ∈ t.out) ∧ t.ks = s.ks := by
  obtain ⟨node, hslot⟩ := State.handSlot_first (s := s.begun .baxel m k) (d := tk.domain) (slot := tk.f 8 4 + 0)
    (by rw [State.begun_ten]; exact hstreams) hn (by rw [State.begun_ten]; exact hgiven)
  have hexec : exec (.ckptCredit .baxel m k) s =
      .next (((s.begun .baxel m k).handSlot tn tk.domain (tk.f 8 4 + 0)).complete .baxel m k 0) := by
    simp only [exec, execCkptCredit, State.serve_ready _ _ _ _ _ _ _ hready, Taken.domain_started, State.tenantOf_begun, htenant,
      State.begun_ten, hstreams, Taken.f_started, hcount, List.isEmpty_cons, Bool.false_eq_true, if_false, List.range_succ,
      List.range_zero, List.nil_append, List.foldl_cons, List.foldl_nil]
  rw [hslot] at hexec
  refine ⟨_, hexec, State.answered_of_started (State.begun_taken s .baxel m k 0x090C tk hready), ?_, ⟨node, ?_⟩,
    (exec_follows hexec).ks rfl⟩
  · rw [State.ten_complete]
    exact congrArg Tenant.ckptGiven (State.ten_modTen (s.begun .baxel m k) tn fun y => { y with ckptGiven := [(c * 2 ^ 16 + e, 1)] })
  · rw [State.send_mem_complete_out, State.begun_ten]
    exact List.mem_cons_self

end

/-- Settles O59: each command on shards and homes gives its first refusal, and otherwise acts on what its domain holds. -/
theorem shardAndHomeCommands : Obligations.ShardAndHomeCommands := by
  unfold Obligations.ShardAndHomeCommands
  refine ⟨?_, ?_, ?_, ?_, ?_, ?_, ?_, ?_, ?_, ?_, ?_, ?_, ?_, ?_, ?_, ?_, ?_, ?_, ?_, ?_, ?_, ?_, ?_, ?_, ?_, ?_, ?_, ?_, ?_, ?_, ?_, ?_, ?_⟩
  case refine_1 =>
    intro s m k tk held c hready hrange
    exact exec_shardWrite_bad hready hrange
  case refine_2 =>
    intro s m k tk held h hready hrange
    exact exec_shardWrite_elsewhere hready hrange
  case refine_3 =>
    intro s m k tk held key stream w l ch hready hrange hrun
    have hrun' : (s.dom tk.domain).still held = false := hrun
    rw [exec_shardWrite_cells hready hrange, hrun']
    rfl
  case refine_4 =>
    intro s m k tk held key stream w l ch hready hrange hstill harea
    have hstill' : (s.dom tk.domain).still held = true := hstill
    rw [exec_shardWrite_cells hready hrange, hstill', harea]
    rfl
  case refine_5 =>
    intro s m k tk held key stream w l ch bs hready hrange hstill harea hshort
    have hstill' : (s.dom tk.domain).still held = true := hstill
    rw [exec_shardWrite_cells hready hrange, hstill', harea]
    exact congrArg Host.Outcome.next ((if_neg Bool.false_ne_true).trans (if_pos hshort))
  case refine_6 =>
    intro s m k tk held key stream w l ch bs hready hrange hstill harea hlong hplain
    exact exec_shardWrite_done hready hrange hstill harea hlong hplain
  case refine_7 =>
    intro s m k tk c hready hrange
    exact exec_shardRead_bad hready hrange
  case refine_8 =>
    intro s m k tk h hready hrange
    exact exec_shardRead_elsewhere hready hrange
  case refine_9 =>
    intro s m k tk key stream w l hready hrange harea
    rw [exec_shardRead_cells hready hrange, State.toStage, State.begun_stageOf, harea]
    rfl
  case refine_10 =>
    intro s m k tk key stream w l bs hready hrange harea hroom
    exact exec_shardRead_done hready hrange harea rfl hroom
  case refine_11 =>
    intro s m k tk c hready hcrown hcode
    rw [exec_atCrown rfl hready hcrown]
    simp only [Taken.domain_started, Taken.f_started, State.begun_dom, hcode]
  case refine_12 =>
    intro s m k tk hready hcrown hcode hdest
    exact exec_scalarSet_here hready hcrown hcode hdest
  case refine_13 =>
    intro s m k tk hready hcrown hcode hdest
    exact exec_scalarSet_waits hready hcrown hcode rfl hdest rfl
  case refine_14 =>
    intro s m k tk hready hother
    simp only [exec, execMirrorPromote, State.serve_ready _ _ _ _ _ _ _ hready, Taken.f_started, State.begun_isFenced, State.begun_ksId]
    exact congrArg Host.Outcome.next (if_pos hother)
  case refine_15 =>
    intro s m k tk hready hhere
    simp only [exec, execMirrorPromote, State.serve_ready _ _ _ _ _ _ _ hready, Taken.f_started, State.begun_isFenced, State.begun_ksId,
      State.begun_ks_doms]
    exact congrArg Host.Outcome.next (if_neg (not_not.2 hhere))
  case refine_16 =>
    intro s m k tk room service hready hprog
    simp only [exec, execMirrorRetarget, State.serve_ready _ _ _ _ _ _ _ hready, Taken.domain_started, State.begun_dom, hprog]
    rfl
  case refine_17 =>
    intro s m k tk room service g hready hprog hone hunknown
    simp only [exec, execMirrorRetarget, State.serve_ready _ _ _ _ _ _ _ hready, Taken.domain_started, State.begun_dom, hprog]
    have hout : (decide (tk.f 8 2 ≠ 0xFFFF) && decide (collCount g ≤ tk.f 8 2)) = true := by
      rw [Bool.and_eq_true, decide_eq_true_eq, decide_eq_true_eq]
      exact ⟨hone, hunknown⟩
    exact congrArg Host.Outcome.next (if_pos hout)
  case refine_18 =>
    intro s m k tk room service g hready hprog hknown hone hblocked hchunks hbad
    rw [exec_mirrorRetarget_run hready hprog (Or.inr hknown) (State.retargeted_of_one hknown hblocked hchunks)]
    refine congrArg Host.Outcome.next (if_pos ?_)
    simpa only [Bool.or_eq_true, decide_eq_true_eq, Bool.not_eq_true', or_assoc] using hbad
  case refine_19 =>
    intro s m k tk g hready hprog hknown hone hblocked hchunks hhall hzone hfenced
    exact exec_mirrorRetarget_one hready hprog hknown hone hblocked hchunks hhall hzone hfenced
  case refine_20 =>
    intro s m k tk g cs hready hprog hall hcs hsome hhall hzone hfenced
    have hall' := s.retargeted_of_all tk.domain g
    simp only [State.homeChunks_begun, State.begun_dom] at hcs ⊢
    rw [show cs = s.retargeted tk.domain g (tk.f 8 2) by rw [hcs, hall, hall']; rfl] at hsome ⊢
    exact exec_mirrorRetarget_accepted hready hprog (Or.inl hall) hsome hhall hzone hfenced
  case refine_21 =>
    intro s m k tk copied hready hcrown hprog
    rw [exec_atCrown rfl hready hcrown]
    simp only [Taken.domain_started, State.begun_dom, hprog]
  case refine_22 =>
    intro s m k tk copied g hready hcrown hprog hbad
    rw [exec_atCrown rfl hready hcrown]
    simp only [Taken.domain_started, Taken.f_started, State.begun_dom, hprog]
    have hout : (decide (2 < tk.f 8 1) || decide (homeElems g (tk.f 8 1) (tk.f 10 2) ≤ tk.f 12 4)) = true := by
      rwa [Bool.or_eq_true, decide_eq_true_eq, decide_eq_true_eq]
    exact congrArg Host.Outcome.next (if_pos hout)
  case refine_23 =>
    intro s m k tk copied g hready hcrown hprog hkind hin hbad
    rw [exec_atCrown rfl hready hcrown]
    simp only [Taken.domain_started, Taken.f_started, State.begun_dom, hprog]
    have hfits : ¬ (decide (2 < tk.f 8 1) || decide (homeElems g (tk.f 8 1) (tk.f 10 2) ≤ tk.f 12 4)) = true := by
      rw [Bool.or_eq_true, decide_eq_true_eq, decide_eq_true_eq]
      omega
    refine congrArg Host.Outcome.next ((if_neg hfits).trans (if_pos ?_))
    rw [Bool.or_eq_true, Bool.or_eq_true, Bool.not_eq_true', Bool.or_eq_false_iff, or_assoc]
    exact hbad.imp decide_eq_true (Or.imp_left (And.imp_right decide_eq_false))
  case refine_24 =>
    intro s m k tk g hready hcrown hprog hkind hin hstep hfree hchunks
    exact exec_homeMove_done hready hcrown hprog hkind hin hstep hfree hchunks
  case refine_25 =>
    intro s m k tk held hready hprog
    simp only [exec, execSpareFill, State.serve_ready _ _ _ _ _ _ _ hready, Taken.domain_started, State.begun_dom, hprog]
  case refine_26 =>
    intro s m k tk held g hready hprog hbad
    exact (exec_spareFill_run hready hprog rfl).trans (congrArg Host.Outcome.next (if_pos (Domain.fillRefused_iff.2 hbad)))
  case refine_27 =>
    intro s m k tk held g hready hprog hstill hin hbound hvacant hcoll hsec
    have hjs : (s.begun .kresia m k).fillJobs tk.domain g m k tk = [] := List.flatMap_eq_nil_iff.2 fun q _ => by
      rw [State.fillOutputs_nil hcoll, State.fillParts_nil hsec, List.nil_append]
    have hgood : ¬ (s.dom tk.domain).fillRefused held (tk.f 8 4) = true := by
      rw [Domain.fillRefused_iff, not_or, not_and_not_right]
      exact ⟨Bool.not_eq_false _ ▸ hstill, fun _ => ⟨hin, hbound, hvacant⟩⟩
    exact (exec_spareFill_run hready hprog hjs).trans (congrArg Host.Outcome.next (if_neg hgood))
  case refine_28 =>
    intro s m k tk held g ps js hready hprog hstill hps hjs hsome
    have hfilled : ps = (s.dom tk.domain).filled (tk.f 8 4) := by
      rcases hps with ⟨hall, rfl⟩ | ⟨-, -, -, hone, rfl⟩
      · exact (if_pos hall).symm
      · exact (if_neg hone).symm
    have hgood : ¬ (s.dom tk.domain).fillRefused held (tk.f 8 4) = true := by
      rw [Domain.fillRefused_iff, not_or, not_and_not_right]
      refine ⟨Bool.not_eq_false _ ▸ hstill, fun hone => ?_⟩
      rcases hps with ⟨hall, -⟩ | ⟨hin, hbound, hvacant, -, -⟩
      · exact absurd hall hone
      · exact ⟨hin, hbound, hvacant⟩
    have hjobs : (s.begun .kresia m k).fillJobs tk.domain g m k tk = js := by
      rw [State.fillJobs, State.begun_dom, ← hfilled, hjs]
    refine (exec_spareFill_run hready hprog hjobs).trans (congrArg Host.Outcome.next ((if_neg hgood).trans (if_neg ?_)))
    rwa [List.isEmpty_iff]
  case refine_29 =>
    intro s m k tk hready hnone
    simp only [exec, execCkptCredit, State.serve_ready _ _ _ _ _ _ _ hready, Taken.domain_started, State.tenantOf_begun, hnone]
  case refine_30 =>
    intro s m k tk tn hready htenant hstreams
    simp only [exec, execCkptCredit, State.serve_ready _ _ _ _ _ _ _ hready, Taken.domain_started, State.tenantOf_begun, htenant,
      State.begun_ten, hstreams]
    rfl
  case refine_31 =>
    intro s m k tk tn c e n rest hready htenant hstreams hn hgiven hcount
    exact exec_ckptCredit_one hready htenant hstreams hn hgiven hcount
  case refine_32 =>
    intro s x hnone
    simp only [exec, execCkptGrantRx, hnone]
  case refine_33 =>
    intro s x q hsome
    simp only [exec, execCkptGrantRx, hsome]

end Sys2Proof.Machine

/-! The proof of O60: the commands on cupping, counters and snapshots. -/

namespace Sys2Proof.Machine

section
variable {s : State} {p : Part} {m k d : Nat} {tk : Taken}

/-! ### What a command sees while it starts -/

theorem State.portsOf_begun (q : Part) : (s.begun p m k).portsOf q = s.portsOf q := by
  cases q with
  | baxel => rfl
  | kresia => rw [State.portsOf, State.begun_isSpine, State.portsOf]

theorem State.snapStore_begun (q : Part) (key : Nat) : (s.begun p m k).snapStore q key = s.snapStore q key := by
  rw [State.snapStore, State.begun_ctr, State.snapStore]

theorem State.readStore_begun (q : Part) (e : Nat) : (s.begun p m k).readStore q e = s.readStore q e := by
  cases q with
  | baxel => simp only [State.readStore, State.tenantOf, State.begun_ten]
  | kresia => rfl

theorem State.dom_emit (o : Out) (e : Nat) : (s.emit o).dom e = s.dom e := rfl

/-! ### Cupping (R347 to R351) -/

theorem exec_cupConfig_done (hready : s.ready .kresia m k 0x0A01 tk) (hcrown : (s.dom tk.domain).isCrown = true)
    (hprog : (s.dom tk.domain).prog.isSome = true) (hlater : ((s.dom tk.domain).lastTamp.any fun q => tk.f 10 6 ≤ q.1) = false) :
    ∃ t, exec (.cupConfig .kresia m k) s = .next t ∧ t.answered .kresia m k tk 0 [] ∧
      (t.dom tk.domain).cupPeriod = tk.f 8 2 ∧ (t.dom tk.domain).cupFrom = tk.f 10 6 ∧
      (t.dom tk.domain).cupRecs = (s.dom tk.domain).cupRecs ∧ (t.dom tk.domain).step = (s.dom tk.domain).step := by
  obtain ⟨g, hprog⟩ := Option.isSome_iff_exists.1 hprog
  have hexec : exec (.cupConfig .kresia m k) s = .next ((((s.begun .kresia m k).modDom tk.domain fun y =>
      { y with cupPeriod := tk.f 8 2, cupFrom := tk.f 10 6 }).emit
      (.send .kresia (.kresias (((s.begun .kresia m k).mapHolders (s.dom tk.domain)).filter (· ≠ (s.begun .kresia m k).ksId)))
        (.progImage { domain := tk.domain, crown := (s.begun .kresia m k).ksId, cup := some (tk.f 8 2, tk.f 10 6) }))).complete
        .kresia m k 0) := by
    rw [exec_atCrown rfl hready hcrown]
    simp only [Taken.domain_started, Taken.f_started, State.begun_dom, hprog]
    exact congrArg Host.Outcome.next ((if_neg Bool.false_ne_true).trans (if_neg (Bool.eq_false_iff.1 hlater)))
  have hdom := State.dom_modDom (s.begun .kresia m k) tk.domain fun y => { y with cupPeriod := tk.f 8 2, cupFrom := tk.f 10 6 }
  rw [State.begun_dom] at hdom
  refine ⟨_, hexec, State.answered_of_started (State.taken_of_fw hready rfl), ?_, ?_, ?_, ?_⟩ <;>
    rw [State.dom_complete, State.dom_emit, hdom]

/-- R348: what `cup.read` stages, with the code of a stage area that does not take it. -/
def State.staged (s : State) (m k id : Nat) (bs : List Byte) : State :=
  (s.toStage m id bs).1.complete .kresia m k ((s.toStage m id bs).2.getD 0)

theorem exec_cupRead_record (hready : s.ready .kresia m k 0x0A02 tk) (hscope : tk.f 16 1 = 0)
    (hcrown : (s.dom tk.domain).isCrown = true) : exec (.cupRead .kresia m k) s = .next (
      match (s.dom tk.domain).cupRecs.find? fun r => r.seq = tk.f 8 4 with
      | some r => (s.begun .kresia m k).staged m k (tk.f 12 4) (r.bytes tk.domain)
      | none => (s.begun .kresia m k).complete .kresia m k 0x9022) := by
  simp only [exec, execCupRead, State.serve_ready _ _ _ _ _ _ _ hready, Taken.domain_started, Taken.f_started, hscope,
    State.begun_dom, if_true]
  have hbegun : ((s.begun .kresia m k).dom tk.domain).isCrown = true := by rw [State.begun_dom, hcrown]
  rw [State.atCrown_of_crown hbegun]
  rfl

theorem exec_cupRead_partials (hready : s.ready .kresia m k 0x0A02 tk) (hscope : tk.f 16 1 = 1) :
    exec (.cupRead .kresia m k) s = .next (
      match (s.dom tk.domain).cups.find? fun q => q.step = tk.f 20 6 && q.epoch = tk.f 26 4 with
      | some q => (s.begun .kresia m k).staged m k (tk.f 12 4) (q.sums.flatMap (leBytes 8))
      | none => (s.begun .kresia m k).complete .kresia m k 0x9022) := by
  simp only [exec, execCupRead, State.serve_ready _ _ _ _ _ _ _ hready, Taken.domain_started, Taken.f_started, hscope,
    State.begun_dom, if_true]
  exact congrArg Host.Outcome.next (if_neg Nat.one_ne_zero)

/-- R351: a check that waits for no partner ends at once. -/
theorem State.endCheck_alone {q : CupCheck} (hchecks : s.ks.cupChecks = []) (halone : q.waiting = []) :
    (s.modKs fun z => { z with cupChecks := z.cupChecks ++ [q] }).endCheck q =
      (s.modKs fun z => { z with cupChecks := [] }).complete .kresia q.mailbox q.mslot 0 q.result := by
  simp [State.endCheck, halone, State.modKs, hchecks]

/-- R351: the chunks of a range that are homed here. -/
def State.ownChunks (s : State) (g : Image) (t : Taken) : List Nat :=
  (s.homeChunks (s.dom t.domain) g (t.f 8 2) ((s.dom t.domain).homeStep g)).filter fun q =>
    t.f 12 4 ≤ q && q < t.f 12 4 + t.f 16 4

/-- R351: the check that a home begins of the chunks named: it waits for the partners that hold a mirror of them. -/
def State.shardCheck (s : State) (g : Image) (m k : Nat) (t : Taken) : CupCheck :=
  let c := t.f 8 2
  let h := s.shard (shardKey t.domain c false false)
  let modes := [0, 2].filter fun mode => (mirrorEntry g c mode).isSome
  let even (q : Nat) : Bool := match FMap.find? h.blockStep q with
    | some st => modes.any fun mode => FMap.find? h.mirrorStep (mirrorKey q mode) = some st
    | none => false
  { mailbox := m, mslot := k, domain := t.domain, coll := c, first := t.f 12 4, count := (s.ownChunks g t).length
    waiting := modes.map (partnerOf s.ksId)
    own := ((s.ownChunks g t).filter even).map fun q => (q, chunkDigest g c q ((FMap.find? h.blockStep q).getD 0) h) }

theorem exec_cupShard_begins {g : Image} (hready : s.ready .kresia m k 0x0A04 tk) (hprog : (s.dom tk.domain).prog = some g)
    (hcoll : tk.f 8 2 < collCount g) (hblocked : cBlocked g (tk.f 8 2) = true) (hin : tk.f 12 4 + tk.f 16 4 ≤ cChunks g (tk.f 8 2))
    (hown : s.ownChunks g tk ≠ []) : exec (.cupShard .kresia m k) s = .next (((s.begun .kresia m k).modKs fun z =>
      { z with cupChecks := z.cupChecks ++ [s.shardCheck g m k tk] }).endCheck (s.shardCheck g m k tk)) := by
  simp only [exec, execCupShard, State.serve_ready _ _ _ _ _ _ _ hready, Taken.domain_started, Taken.f_started, State.begun_dom, hprog,
    State.homeChunks_begun, State.shard_begun, State.begun_ksId]
  have hrange : ¬ (decide (collCount g ≤ tk.f 8 2) || !cBlocked g (tk.f 8 2) ||
      decide (cChunks g (tk.f 8 2) < tk.f 12 4 + tk.f 16 4)) = true := by
    rw [decide_eq_false (Nat.not_le.2 hcoll), decide_eq_false (Nat.not_lt.2 hin), hblocked]
    exact Bool.false_ne_true
  have hmine : (!(s.ownChunks g tk).isEmpty) = true := by
    rw [List.isEmpty_eq_false_iff.2 hown]
    rfl
  exact congrArg Host.Outcome.next ((if_neg hrange).trans (if_pos hmine))

/-- R351: where the program has no mirrors a check waits for no partner. -/
theorem State.shardCheck_alone {g : Image} (hentries : imgEntries g = 0) : (s.shardCheck g m k tk).waiting = [] := by
  refine List.map_eq_nil_iff.2 (List.filter_eq_nil_iff.2 fun mode _ => ?_)
  rw [mirrorEntry, hentries]
  exact Bool.false_ne_true

/-- R351: a home with no partner compares with none, and completes. -/
theorem exec_cupShard_alone {g : Image} (hready : s.ready .kresia m k 0x0A04 tk) (hprog : (s.dom tk.domain).prog = some g)
    (hcoll : tk.f 8 2 < collCount g) (hblocked : cBlocked g (tk.f 8 2) = true) (hin : tk.f 12 4 + tk.f 16 4 ≤ cChunks g (tk.f 8 2))
    (hown : s.ownChunks g tk ≠ []) (hentries : imgEntries g = 0) (hchecks : s.ks.cupChecks = []) :
    ∃ t, exec (.cupShard .kresia m k) s = .next t ∧ (t.mslot .kresia m k).taken = none ∧
      (t.mslot .kresia m k).comp.status = 0 ∧ t.ks.cupChecks = [] ∧ t.ks.shards = s.ks.shards := by
  have hexec := exec_cupShard_begins hready hprog hcoll hblocked hin hown
  rw [State.endCheck_alone (by rw [State.begun_ks_cupChecks, hchecks]) (State.shardCheck_alone hentries)] at hexec
  obtain ⟨hcomp, hdone⟩ := State.answered_of_started (code := 0) (r := (s.shardCheck g m k tk).result) (i := [])
    (State.taken_of_fw (t := (s.begun .kresia m k).modKs fun z => { z with cupChecks := [] }) hready rfl)
  refine ⟨_, hexec, hdone, congrArg Completion.status hcomp, ?_, ?_⟩
  · rw [State.complete_ks_cupChecks]
    rfl
  · rw [State.complete_ks_shards]
    exact State.begun_ks_shards ..

/-! ### Counters and snapshots (R359, R364 to R366) -/

/-- R359: a selector list is examined for reserved bits, then for what the part has, then for what the caller may see. -/
theorem exec_ctrRead_run (hready : s.ready p m k 0x0A10 tk) : exec (.ctrRead p m k) s = .next (
    let vs := (List.range 7).map fun i => tk.f (8 + 8 * i) 8
    if vs.any fun v => v ≠ 0 && !selZero v then (s.begun p m k).complete p m k 0xA103
    else if vs.any fun v => v ≠ 0 && (decide ((selOf v).part ≠ p) || (selCode (selOf v)).isSome ||
        ((selOf v).portEn && decide (s.portsOf p ≤ (selOf v).port))) then (s.begun p m k).complete p m k 0x2040
    else if vs.any fun v => v ≠ 0 && !(s.readScope p m (selOf v)).2 then (s.begun p m k).complete p m k 0x2041
    else (s.begun p m k).complete p m k 0 (vs.flatMap fun v =>
      leBytes 8 (if v = 0 then 0 else (s.begun p m k).selValue (selOf v) (s.readScope p m (selOf v)).1 tk.domain))) := by
  simp only [exec, execCtrRead, State.serve_ready _ _ _ _ _ _ _ hready, Taken.domain_started, Taken.f_started, List.any_filter,
    State.portsOf_begun]
  rfl

theorem selectorCount_ok {n : Nat} (hlo : 1 ≤ n) (hhi : n ≤ 30) : ¬ (decide (n = 0) || decide (30 < n)) = true := by
  rw [Bool.or_eq_true, decide_eq_true_eq, decide_eq_true_eq]
  omega

/-- R366: the record that a `snap.read` names, of the store of its domain. -/
def State.namedSnap (s : State) (p : Part) (t : Taken) : Option SnapRec :=
  match s.readStore p t.domain with
  | some key => (s.snapStore p key).recs.find? fun r => r.snapSeq = t.f 8 4
  | none => none

theorem State.namedSnap_begun (t : Taken) : (s.begun p m k).namedSnap p t = s.namedSnap p t := by
  simp only [State.namedSnap, State.readStore_begun, State.snapStore_begun]

/-- R366: how a record is shown: a Kresia stages it and a Baxel writes it to its memory. -/
def State.showSnap (s : State) (p : Part) (m k : Nat) (t : Taken) (r : SnapRec) : State :=
  match p with
  | .kresia => if t.f 16 4 ≠ 0 then s.complete .kresia m k 0xA103 else s.staged m k (t.f 12 4) r.bytes
  | .baxel => s.bxWrite (t.f 12 8) r.bytes (memTag (if m = 0 then none else some (m - 1))) (.command m k)

/-- R366: a `snap.read` is refused without its record. -/
theorem exec_snapRead_run (hready : s.ready p m k 0x0A12 tk) : exec (.snapRead p m k) s = .next (
    match s.namedSnap p tk with
    | none => (s.begun p m k).complete p m k 0x2042
    | some r => (s.begun p m k).showSnap p m k tk r) := by
  have hnamed : (s.begun p m k).namedSnap p { tk with started := true } = s.namedSnap p tk := State.namedSnap_begun _
  rw [← hnamed]
  simp only [exec, execSnapRead, State.serve_ready _ _ _ _ _ _ _ hready]
  rfl

end

/-- Settles O60: each command on cupping, counters and snapshots gives its first refusal, and otherwise answers with what is stored. -/
theorem cuppingAndCounterCommands : Obligations.CuppingAndCounterCommands := by
  unfold Obligations.CuppingAndCounterCommands
  refine ⟨?_, ?_, ?_, ?_, ?_, ?_, ?_, ?_, ?_, ?_, ?_, ?_, ?_, ?_, ?_, ?_, ?_, ?_, ?_, ?_, ?_, ?_, ?_, ?_, ?_, ?_⟩
  case refine_1 =>
    intro s m k tk hready hcrown hprog
    rw [exec_atCrown rfl hready hcrown]
    simp only [Taken.domain_started, State.begun_dom, hprog]
    rfl
  case refine_2 =>
    intro s m k tk hready hcrown hprog hearly
    obtain ⟨g, hprog⟩ := Option.isSome_iff_exists.1 hprog
    rw [exec_atCrown rfl hready hcrown]
    simp only [Taken.domain_started, Taken.f_started, State.begun_dom, hprog]
    exact congrArg Host.Outcome.next ((if_neg Bool.false_ne_true).trans (if_pos hearly))
  case refine_3 => exact fun s m k tk => exec_cupConfig_done
  case refine_4 =>
    intro s m k tk hready hscope
    simp only [exec, execCupRead, State.serve_ready _ _ _ _ _ _ _ hready, Taken.f_started]
    exact congrArg Host.Outcome.next ((if_neg (by omega)).trans (if_neg (by omega)))
  case refine_5 =>
    intro s m k tk hready hscope hcrown hnone
    rw [exec_cupRead_record hready hscope hcrown, hnone]
  case refine_6 =>
    intro s m k tk r hready hscope hcrown hsome
    rw [exec_cupRead_record hready hscope hcrown, hsome]
    rfl
  case refine_7 =>
    intro s m k tk hready hscope hnone
    rw [exec_cupRead_partials hready hscope, hnone]
  case refine_8 =>
    intro s m k tk q hready hscope hsome
    rw [exec_cupRead_partials hready hscope, hsome]
    rfl
  case refine_9 =>
    intro s m k tk hready hcrown hnone
    rw [exec_atCrown rfl hready hcrown]
    simp only [Taken.domain_started, Taken.f_started, State.begun_dom]
    exact congrArg Host.Outcome.next (if_neg (Bool.eq_false_iff.1 hnone))
  case refine_10 =>
    intro s m k tk hready hcrown hsome
    rw [exec_atCrown rfl hready hcrown]
    simp only [Taken.domain_started, Taken.f_started, State.begun_dom]
    exact congrArg Host.Outcome.next (if_pos hsome)
  case refine_11 =>
    intro s m k tk hready hprog
    simp only [exec, execCupShard, State.serve_ready _ _ _ _ _ _ _ hready, Taken.domain_started, State.begun_dom, hprog]
  case refine_12 =>
    intro s m k tk g hready hprog hbad
    simp only [exec, execCupShard, State.serve_ready _ _ _ _ _ _ _ hready, Taken.domain_started, Taken.f_started, State.begun_dom, hprog]
    refine congrArg Host.Outcome.next (if_pos ?_)
    rw [Bool.or_eq_true, Bool.or_eq_true, Bool.not_eq_true', or_assoc]
    exact hbad.imp decide_eq_true (Or.imp_right decide_eq_true)
  case refine_13 => exact fun s m k tk g => exec_cupShard_alone
  case refine_14 =>
    intro s p m k tk hready hbad
    rw [exec_ctrRead_run hready]
    exact congrArg Host.Outcome.next (if_pos hbad)
  case refine_15 =>
    intro s p m k tk hready hgood hbad
    rw [exec_ctrRead_run hready]
    exact congrArg Host.Outcome.next ((if_neg (Bool.eq_false_iff.1 hgood)).trans (if_pos hbad))
  case refine_16 =>
    intro s p m k tk hready hgood hpart hbad
    rw [exec_ctrRead_run hready]
    exact congrArg Host.Outcome.next ((if_neg (Bool.eq_false_iff.1 hgood)).trans ((if_neg (Bool.eq_false_iff.1 hpart)).trans (if_pos hbad)))
  case refine_17 =>
    intro s p m k tk hready hgood hpart hscope
    rw [exec_ctrRead_run hready]
    exact congrArg Host.Outcome.next ((if_neg (Bool.eq_false_iff.1 hgood)).trans
      ((if_neg (Bool.eq_false_iff.1 hpart)).trans (if_neg (Bool.eq_false_iff.1 hscope))))
  case refine_18 =>
    intro s p m k tk hready hbad
    simp only [exec, execSnapArm, State.serve_ready _ _ _ _ _ _ _ hready, Taken.f_started]
    refine congrArg Host.Outcome.next (if_pos ?_)
    rw [Bool.or_eq_true]
    exact hbad.imp decide_eq_true decide_eq_true
  case refine_19 =>
    intro s m k tk hready hlo hhi
    simp only [exec, execSnapArm, State.serve_ready _ _ _ _ _ _ _ hready, Taken.f_started]
    exact congrArg Host.Outcome.next (if_neg (selectorCount_ok hlo hhi))
  case refine_20 =>
    intro s m k tk hready hlo hhi hhigh
    simp only [exec, execSnapArm, State.serve_ready _ _ _ _ _ _ _ hready, Taken.f_started]
    exact congrArg Host.Outcome.next ((if_neg (selectorCount_ok hlo hhi)).trans (if_pos hhigh))
  case refine_21 =>
    intro s m k tk hready hlo hhi hhigh harea
    simp only [exec, execSnapArm, State.serve_ready _ _ _ _ _ _ _ hready, Taken.f_started, State.begun_stageOf, harea]
    exact congrArg Host.Outcome.next ((if_neg (selectorCount_ok hlo hhi)).trans (if_neg (not_not.2 hhigh)))
  case refine_22 =>
    intro s m k tk area hready hlo hhi hhigh harea
    simp only [exec, execSnapArm, State.serve_ready _ _ _ _ _ _ _ hready, Taken.f_started, State.begun_stageOf, harea]
    exact congrArg Host.Outcome.next ((if_neg (selectorCount_ok hlo hhi)).trans (if_neg (not_not.2 hhigh)))
  case refine_23 =>
    intro s m k tk hready hnone
    have hnamed : s.namedSnap .kresia tk = none := hnone
    rw [exec_snapRead_run hready, hnamed]
  case refine_24 =>
    intro s m k tk r hready hsome
    have hnamed : s.namedSnap .kresia tk = some r := hsome
    rw [exec_snapRead_run hready, hnamed]
    rfl
  case refine_25 =>
    intro s m k tk hready hnone
    have hnamed : s.namedSnap .baxel tk = none := hnone
    rw [exec_snapRead_run hready, hnamed]
  case refine_26 =>
    intro s m k tk r hready hsome
    have hnamed : s.namedSnap .baxel tk = some r := hsome
    rw [exec_snapRead_run hready, hnamed]
    rfl

end Sys2Proof.Machine
